-- ==== Sys2Proof/Word.lean ====
section
/-! DEFINITION. The word types of the part and their plainest arithmetic: bytes, 32-bit register words, 40-bit samples. -/

namespace Sys2Proof

/-- A byte of a frame, a payload or memory. -/
abbrev Byte := BitVec 8

/-- A sequence of bytes, lowest address or first on the wire first. -/
abbrev Bytes := List Byte

/-- A register value (R7). -/
abbrev Word := BitVec 32

/-- A sample in Q3.36 (R9). -/
abbrev Sample := BitVec 40

/-- The byte of a number, modulo 256. -/
def byteOf (n : Nat) : Byte := BitVec.ofNat 8 n

end Sys2Proof
end

