-- ==== Sys2Proof/Syntax.lean ====
section
/-! DEFINITION. The commands of the block as syntax: one constructor per row of the opcode table, with its operands. -/

namespace Sys2Proof

/-- A command request of a session: the mailbox it came through, its sequence number, the MORE bit of its command frame
and its payload (R148, R160). -/
structure Req where
  mbox : Fin 256
  seq : BitVec 32
  more : Bool
  payload : Bytes
  deriving DecidableEq, Repr

/-- The session and sequence number of a command that writes one register (R169). -/
structure RegCmd where
  mbox : Fin 256
  seq : BitVec 32
  deriving DecidableEq, Repr

/-- The access path of a register read: QCP, with the session and sequence number of the REG_READ, or I2C (R107, R595). -/
inductive Path where
  | qcp (c : RegCmd)
  | i2c
  deriving DecidableEq, Repr

/-- A frame of session 0 with a valid tag: arrival port, source address, VLAN tags, SEQ and payload (R154, R157). -/
structure OpenReq where
  port : Fin 8
  mac : BitVec 48
  tags : List (BitVec 32)
  seq : BitVec 32
  more : Bool
  payload : Bytes
  deriving DecidableEq, Repr

/-- Where a SESSION_OPEN comes from: session 0, or wrongly inside a session (R156). -/
inductive OpenSrc where
  | open0 (o : OpenReq)
  | inSession (q : Req)
  deriving DecidableEq, Repr

/-- The transmit gates of R180. -/
inductive Gate where
  | cls (p : Fin 8) (n : Fin 7)
  | media
  | playback
  | exportGate
  | group (g : Fin 64)
  deriving DecidableEq, Repr

/-- The strap pins as the board sets them: BOOTSEL0-1 and I2CADR0-1 (R23). -/
structure Straps where
  bootsel : BitVec 2
  i2cadr : BitVec 2
  deriving DecidableEq, Repr

/-- A frame as a port receives it: its bytes from the destination address without the FCS, whether the FCS holds, whether
it ended in an odd number of nibbles (S0), the time from its SFD to its last bit in units of 2^-16 ns (R93, R119), whether its first bytes had
been written to a receive ring when it proved oversize (R120), and the RS-FEC codewords found corrected and uncorrectable since the frame
before it (R146). -/
structure RxWire where
  port : Fin 8
  bytes : Bytes
  fcsOk : Bool
  oddNibble : Bool
  sfdAgo : Nat
  cut : Bool
  fecCorr : BitVec 32
  fecUncorr : BitVec 32
  deriving DecidableEq, Repr

/-- A timed action other than a change (R59): a pulse of a timed output, or the start of a player. -/
inductive TimedRef where
  | tout (n : Fin 4)
  | play (p : Fin 64)
  deriving DecidableEq, Repr

/-- A stream that sends export frames (R469, R473): a capture or a tap ring. -/
inductive ExportRef where
  | capture (c : Fin 16)
  | tap (r : Fin 16)
  deriving DecidableEq, Repr

/-- What a memory slice finds wrong (R516, R521): the address of the first failing word, its lowest failing bit, the failing bits byte of
the record, whether the failing bits share one column, the row or column address, and whether a repeat run passes after the
repair. -/
structure MemErr where
  pa : BitVec 40
  bit : Fin 72
  bits : Byte
  oneCol : Bool
  addr : BitVec 18
  fixed : Bool
  deriving DecidableEq, Repr

/-- How a slice ends (R509, R516): a logic slice whose patterns are done, with its signature and whether it matches; a memory slice whose
last element is done, with what it found; or a fault that the unit raised during its slice. -/
inductive SliceResult where
  | logic (cls : Fin 5) (idx : Fin 128) (sig : BitVec 64) (pass : Bool)
  | memory (loc : Bool) (idx : Fin 128) (err : Option MemErr)
  | fault (cls : Fin 7) (idx : Fin 128)
  deriving DecidableEq, Repr

/-- What the full test of a shutdown finds (R522): failing cores and engines by class and index, repairs made, whether a memory fault is
unrepairable. -/
structure ShutTest where
  fails : List (Fin 5 × Fin 128)
  repairs : List (BitVec 32)
  unrep : Bool
  deriving DecidableEq, Repr

/-- The word that the winnower reads next, and what its check bits say (R534): no error, a correctable or an uncorrectable one. -/
inductive ScrubWord where
  | clean
  | ce
  | ue
  deriving DecidableEq, Repr

/-- The space that the winnower reads in. -/
inductive ScrubSpace where
  | loft
  | hbm
  deriving DecidableEq, Repr

/-- An attempt at a start step (R555, R556): the step, the DETAIL of a failure (none: it ends OK), its duration in µs. -/
structure StepTry where
  step : Fin 15
  detail : Option (BitVec 16)
  us : BitVec 32
  deriving DecidableEq, Repr

/-- A DMA or baler job ring as the firmware sets it up (R376, R385, R401). -/
structure RingSetup where
  ring : Nat
  ctx : BitVec 12
  log2 : Fin 13
  dbase : BitVec 48
  cbase : BitVec 48
  deriving DecidableEq, Repr

/-- What a start meets and what the firmware sets up: the level of BOOTSEL at S01, the attempts of the steps in order where they do not
simply end OK, the durations of the steps in µs, the verdicts of the full test of S07 and the units that it finds good again, the contexts'
roots, the page tables' cells, the rings of DMA and baler, how many checkpoints fail their check from the newest on, how many journal
records S13 reaches before a time-out strikes it, and the number of the first journal record that reads as blank or fails its MAGIC, VER or CRC
(R421). -/
structure StartEnv where
  bootsel : BitVec 2
  tries : List StepTry
  us : List (BitVec 32)
  test : ShutTest
  good : List (Fin 5 × Fin 128)
  roots : List (BitVec 12 × BitVec 28)
  cells : List (BitVec 40 × Byte)
  rings : List RingSetup
  jobs : List RingSetup
  ckBad : Fin 3
  s13 : Nat
  jrnlEnd : Option (BitVec 32)
  deriving DecidableEq, Repr

/-- What the PTP stack makes of a frame that it takes (R92, R97, R99): nothing; an offset measurement of the frame's port, with the offset before
the port's asymmetry as a signed number of 2^-16 ns, the mean path delay in ns (all ones: none) and the weight; a mean link delay measured by a
peer-delay exchange, in 2^-8 ns; or the difference of TAI and UTC in s. -/
inductive PtpFind where
  | nothing
  | offset (raw : BitVec 48) (mpd : BitVec 32) (wt : Byte)
  | linkDelay (dly : BitVec 32)
  | utcOffset (secs : BitVec 16)
  deriving DecidableEq, Repr

/-- A task that the firmware (FIRMWARE) or the background-work block (BACKGROUND) creates, homed at the cluster its producer names, with its
context (R341, R345, R375). -/
structure SysMake where
  background : Bool
  cluster : Fin 8
  ctx : BitVec 12
  deriving DecidableEq, Repr

/-- What the firmware has written since it last asked for an invalidation: contexts with their roots and VALID, and cells of page tables
(R376, R378, R401). -/
structure FwWrites where
  roots : List (BitVec 12 × BitVec 28 × Bool)
  cells : List (BitVec 40 × Byte)
  deriving DecidableEq, Repr

/-- The commands of the block: one constructor per row of spec/opcode_table.json. A row that is a QCP operation takes
the request of the session that sends it; a row that is an event takes what the outside world decides of it. -/
inductive Instr where
  /-- PWRGOOD_RISE (R588): PWRGOOD rises with RESET_N high, the straps are sampled and a start of cause 0 begins. -/
  | pwrgoodRise (straps : Straps)
  /-- PWRGOOD_FALL (R589): PWRGOOD falls, and the part enters reset within 1 µs with its outputs at reset state and its transmitters idle. -/
  | pwrgoodFall
  /-- RESET_N_ASSERT (R588): A low pulse on RESET_N of 1 µs or more holds the part in reset. -/
  | resetNAssert
  /-- RESET_N_RELEASE (R588): RESET_N is released with PWRGOOD high, the I2C address straps are sampled and a start of cause 1 begins. -/
  | resetNRelease (straps : Straps)
  /-- TEST_EN_ASSERT (R577): A high level on TEST_EN holds the part in reset for as long as it lasts. -/
  | testEnAssert
  /-- START_SEQUENCE (R552): A start runs steps S01 to S14 in order, choosing alternates by the plan and writing each attempt to the start log. -/
  | startSequence (env : StartEnv)
  /-- START_STEP_TIMEOUT (R555): A start step that runs beyond its limit causes a new start of cause 2. -/
  | startStepTimeout (step : Fin 14) (env : StartEnv)
  /-- KATHIREL_WATCHDOG (R551): The Kathirel watchdog expires after 1 s without progress in service and causes a start of cause 3. -/
  | kathirelWatchdog
  /-- TMU_TICK (R69): On each domain-15 tick the TMU adds the addend to its time, carrying into SEC. -/
  | tmuTick
  /-- STEP_APPLY (R73): At the next tick, a pending SET and step are applied together as one step of TMU time. -/
  | stepApply
  /-- TMU_CTL_SET (R73): A write of 1 to TMU_CTL.SET is checked and arms a SET of the time for the next tick. -/
  | tmuCtlSet (c : RegCmd)
  /-- TMU_CTL_STEP (R73): A write of 1 to TMU_CTL.STEP is checked and arms a signed step of the time for the next tick. -/
  | tmuCtlStep (c : RegCmd)
  /-- TMU_OFS_PUSH (R81): A write to TMU_OFS_PUSH pushes one offset sample into the FIFO, or is discarded when the FIFO is full or the servo is not ON. -/
  | tmuOfsPush (ns aux mpd : Word)
  /-- SERVO_SAMPLE (R86): The servo takes an offset sample and runs the sample procedure on it. -/
  | servoSample
  /-- SERVO_HOLDOVER_TIMEOUT (R80): No sample is pushed for TIMEOUT_MS in ACQUIRING or LOCKED, and the servo enters HOLDOVER. -/
  | servoHoldoverTimeout
  /-- SERVO_FAIL (R90): The integrator rate stands at the pull limit for 10 s, and the servo goes to FAILED. -/
  | servoFail
  /-- TMU_SRV_EN_WRITE (R599): A write that changes TMU_SRV_CTL.EN is an enable or a disable of the servo. -/
  | tmuSrvEnWrite (c : RegCmd) (v : Word)
  /-- TMU_ADDEND_WRITE (R91): A write to the addend is refused unless the servo is OFF and the value lies in range. -/
  | tmuAddendWrite (c : RegCmd) (ext : Bool) (v : Word)
  /-- TMU_REF_SEL_WRITE (R72): A write to TMU_CFG.REF_SEL arms or disarms the selection of REF10M_IN. -/
  | tmuRefSelWrite (c : RegCmd) (v : Word)
  /-- REF10M_ACQUIRE (R72): With the selection armed, the TMU PLL moves to REF10M_IN at the first instant REF_OK is 1. -/
  | ref10mAcquire
  /-- REF10M_LOSS (R72): Loss of REF10M_IN moves the PLL back to SYSREF25, counts the loss and disarms the selection. -/
  | ref10mLoss
  /-- TMU_TIME_SEC_HI_READ (R107): A read of TMU_TIME_SEC_HI latches the whole current time for its access path. -/
  | tmuTimeSecHiRead (path : Path)
  /-- TIN_EDGE_CAPTURE (R105): A chosen edge on TIN0-3 or PPS_IN is stamped into the input's FIFO, with EVT_TIN when enabled. -/
  | tinEdgeCapture (n : Fin 5) (rise : Bool)
  /-- TMU_TIN_POP (R106): A read of TMU_TINn_POP removes the oldest capture and latches its lower fields. -/
  | tmuTinPop (n : Fin 5) (path : Path)
  /-- TMU_TOUT_ARM (R101): A write of 1 to TMU_TOUTn_CTL.ARM latches the pulse setting and starts the output. -/
  | tmuToutArm (n : Fin 4) (c : RegCmd)
  /-- TMU_TOUT_DISARM (R103): A write of 1 to TMU_TOUTn_CTL.DISARM stops the output after any active pulse completes. -/
  | tmuToutDisarm (n : Fin 4) (c : RegCmd)
  /-- TOUT_PULSE (R101): An armed occurrence of a timed output is reached and its pulse is driven for its width. -/
  | toutPulse (n : Fin 4)
  /-- SWATH_BOUNDARY (R32): TMU time reaches a multiple of L and a new swath with its SWN begins. -/
  | swathBoundary
  /-- GATHER_END (R37): Gather ends, closing acceptance of the previous swath's parcels and completing due migrations. -/
  | gatherEnd
  /-- WORK_START (R37): Work begins, and the kennel makes ready the tasks that wait on parcels. -/
  | workStart
  /-- WORK_DEADLINE (R39): Work ends: unfinished media tasks are cancelled and Emit begins. -/
  | workDeadline
  /-- GUARD_START (R37): Guard begins: no media task runs and each tandem link sends its HELLO. -/
  | guardStart
  /-- TIMED_ACTION_EXEC (R60): A timed action other than a change reaches its instant, or runs late, and executes. -/
  | timedActionExec (a : TimedRef)
  /-- PORT_START_DONE (R116): Lane calibration and PCS set-up complete, and the port reaches ON. -/
  | portStartDone (p : Fin 8) (live : Bool)
  /-- PORT_CAL_FAIL (R116): Lane calibration fails and the port goes to FAILED. -/
  | portCalFail (p : Fin 8)
  /-- LANE_PLL_LOSS (R116): The lane PLL loses lock and the port goes to FAILED. -/
  | lanePllLoss (p : Fin 8)
  /-- LINK_UP (R116): The link of a port comes up and MAC_EVT.LINK is set. -/
  | linkUp (p : Fin 8)
  /-- LINK_DOWN (R116): The link of a port goes down, is counted and is reported. -/
  | linkDown (p : Fin 8)
  /-- PORT_STOP_DONE (R117): A STOPPING port reaches OFF once every transmit queue is empty. -/
  | portStopDone (p : Fin 8)
  /-- RGMII_INBAND_STATUS (R139): S0 takes link, speed and duplex from the RGMII in-band status. -/
  | rgmiiInbandStatus (link : Bool) (speed : Fin 4) (full : Bool)
  /-- MAC_RX_FRAME (R119): A frame received on a port in ON is sorted by size, FCS and kind, and is accepted into its class buffer or acted on. -/
  | macRxFrame (w : RxWire)
  /-- PAUSE_QUANTA_EXPIRY (R134): The pause time received from the peer runs out and the class may send again. -/
  | pauseQuantaExpiry (p : Fin 8) (tc : Fin 8)
  /-- PFC_REFRESH (R131): Every REFRESH quanta while a class is in XOFF, a renewing PFC or PAUSE frame is sent. -/
  | pfcRefresh (p : Fin 8)
  /-- MAC_TX_SELECT (R125): At a frame boundary the transmitter takes the next frame by strict priority and sends it. -/
  | macTxSelect (p : Fin 8)
  /-- S0_COLLISION (R140): A collision on S0 in half duplex jams and backs off, or discards the frame at the 16th or a late collision. -/
  | s0Collision (bitTimes : Nat)
  /-- S0_BACKOFF_EXPIRY (R140): The back-off after a collision runs out and S0 tries the frame again. -/
  | s0BackoffExpiry
  /-- MAC_MDIO_GO (R142): A write of 1 to MAC_MDIO_CMD.GO runs one Clause 22 or Clause 45 frame. -/
  | macMdioGo (cfg v : Word)
  /-- MDIO_FRAME_DONE (R142): An MDIO frame ends and its read data or turnaround error is recorded. -/
  | mdioFrameDone (rdata : Option (BitVec 16))
  /-- MAC_CFG_EN_WRITE (R599): A write that changes MAC_CFG.EN is an enable or a disable of the port. -/
  | macCfgEnWrite (p : Fin 8) (c : RegCmd) (v : Word)
  /-- MAC_CTL_AN_RESTART (R116): A write of 1 to MAC_CTL.AN_RESTART restarts auto-negotiation and training. -/
  | macCtlAnRestart (p : Fin 8) (c : RegCmd)
  /-- MAC_CTL_PEAK_CLR (R145): A write of 1 to MAC_CTL.PEAK_CLR clears every MAC_IFILL_n.PEAK. -/
  | macCtlPeakClr (p : Fin 8) (c : RegCmd)
  /-- MAC_CNT_LO_READ (R146): A read of a 64-bit counter's _LO word latches its _HI word. -/
  | macCntLoRead (p : Fin 8) (tx : Bool) (path : Path)
  /-- PKE_FRAME_TAKE (R193): The packet engine takes a frame from a class buffer, parses it and sorts it. -/
  | pkeFrameTake (p : Fin 8) (tc : Fin 7)
  /-- SLOW_PATH_FRAME (R195): The firmware takes a slow-path frame and answers ARP, NS or echo, or discards it. -/
  | slowPathFrame
  /-- PTP_FRAME_RX (R193): The Smivor PTP stack takes a received PTP frame. -/
  | ptpFrameRx (r : PtpFind)
  /-- TX_QUEUE_ENTRY (R126): A frame that waited for room enters its class transmit queue. -/
  | txQueueEntry (p : Fin 8) (tc : Fin 8)
  /-- QCP_FRAME_RX (R150): A received QCP frame is checked and written to its command ring, answered or dropped. -/
  | qcpFrameRx (p : Fin 8)
  /-- MUZZLE_FRAME (R179): A muzzle frame is checked in hardware and, when accepted, closes the gates it names. -/
  | muzzleFrame
  /-- GATE_RELEASE (R183): A gate closed with a timed release opens at the first tick at or after its release. -/
  | gateRelease (g : Gate)
  /-- MUZZLE_STATE_RECORD (R185): Key counters and closed gates are recorded in PRS within 10 ms of a change. -/
  | muzzleStateRecord
  /-- OPEN_RATE_SECOND (R150): At each whole TMU second the session-0 allowance is renewed. -/
  | openRateSecond
  /-- SESSION_PROVE_TIMEOUT (R156): A session in STARTING without a valid SESSION_PROVE for 1,000 ms returns to OFF. -/
  | sessionProveTimeout (mbox : Fin 256)
  /-- LEASE_EXPIRY (R158): A session's lease runs out and the session goes through STOPPING to OFF. -/
  | leaseExpiry (mbox : Fin 256)
  /-- BULK_FRAME (R602): A bulk frame of a command awaiting bulk data is taken in order, and the last one completes the command. -/
  | bulkFrame (mbox : Fin 256)
  /-- REPLY_SEND (R162): A reply, or a bulk part of a result, is written to the reply ring when it has room and is sent. -/
  | replySend (mbox : Fin 256)
  /-- EVENT_SEND (R176): A queued event frame is sent to a subscribed session. -/
  | eventSend (mbox : Fin 256)
  /-- JOURNAL_COMMIT (R171): A journal record becomes durable in PRS, and the command is then applied and replied to. -/
  | journalCommit
  /-- QCP_DB_RPL (R191): A firmware write to QCP_DB_RPL sends the queued replies of a mailbox. -/
  | qcpDbRpl (v : Word)
  /-- QCP_MZ_CTR_HI_READ (R191): A read of QCP_MZ_CTR_HI_k latches the low word of that key's counter. -/
  | qcpMzCtrHiRead (k : Fin 8) (path : Path)
  /-- SESSION_OPEN (R154): Opens a session in STARTING on a free mailbox and returns a part nonce. -/
  | sessionOpen (o : OpenSrc)
  /-- SESSION_PROVE (R154): Checks the host's proof and puts the session ON under the session key. -/
  | sessionProve (q : Req)
  /-- SESSION_KEEPALIVE (R158): Restarts the lease and returns the lease remaining. -/
  | sessionKeepalive (q : Req)
  /-- SESSION_CLOSE (R159): Closes the session after its earlier commands. -/
  | sessionClose (q : Req)
  /-- SESSION_SUBSCRIBE (R174): Replaces the session's event source mask. -/
  | sessionSubscribe (q : Req)
  /-- SESSION_KEY_SET (R187): Loads a host key and stops every session opened under it. -/
  | sessionKeySet (q : Req)
  /-- SESSION_KEY_CLEAR (R187): Clears a host key and stops every session opened under it. -/
  | sessionKeyClear (q : Req)
  /-- UNMUZZLE (R184): Opens at once every gate its payload names. -/
  | unmuzzle (q : Req)
  /-- MUZZLE_KEY_SET (R186): Loads a muzzle key and sets its last counter to 0. -/
  | muzzleKeySet (q : Req)
  /-- SESSION_LIST (R166): Returns 8 bytes for each session in ON. -/
  | sessionList (q : Req)
  /-- MUZZLE_STATUS (R189): Returns one entry for each closed gate with its release. -/
  | muzzleStatus (q : Req)
  /-- REG_WRITE (R169): Checks every address and value pair and applies them all in order or none; the row for writes to registers without a row of their own. -/
  | regWrite (q : Req)
  /-- REG_READ (R168): Reads 1 to 64 consecutive registers. -/
  | regRead (q : Req)
  /-- CHAN_ENABLE (R339): Admits a leg at an offset and starts it at its effective boundary. -/
  | chanEnable (q : Req)
  /-- CHAN_DISABLE (R339): Takes a leg to STOPPING at its boundary and releases its budgets at the next one. -/
  | chanDisable (q : Req)
  /-- CHAN_GRAPH (R52): Changes a leg's template at a boundary after admission at its own offset. -/
  | chanGraph (q : Req)
  /-- CHAN_FLOW_ADD (R198): Installs a flow table entry for a leg. -/
  | chanFlowAdd (q : Req)
  /-- CHAN_FLOW_DEL (R198): Removes a flow table entry of a leg. -/
  | chanFlowDel (q : Req)
  /-- CHAN_EGRESS (R213): Sets a leg's egress template. -/
  | chanEgress (q : Req)
  /-- CHAN_KEY (R203): Installs a current or next SRTP key for one direction of a leg. -/
  | chanKey (q : Req)
  /-- CHAN_PLAYOUT (R219): Sets a leg's playout settings. -/
  | chanPlayout (q : Req)
  /-- CHAN_ECHO (R289): Sets a leg's echo canceller settings. -/
  | chanEcho (q : Req)
  /-- CHAN_ECHO_RESET (R299): Clears the canceller's weights at a boundary. -/
  | chanEchoReset (q : Req)
  /-- CHAN_BRIDGE (R336): Sets or clears a leg's bridged peer. -/
  | chanBridge (q : Req)
  /-- CHAN_GAIN (R314): Sets the gain of a GAIN node. -/
  | chanGain (q : Req)
  /-- CHAN_GROUP (R180): Sets a leg's leg group for the muzzle gates. -/
  | chanGroup (q : Req)
  /-- CHAN_TONE_CFG (R326): Sets DET_OUT, EVT_IN and tone notification of a leg. -/
  | chanToneCfg (q : Req)
  /-- CHAN_TONE_PLAY (R327): Starts tone segments in a TONE node at a boundary. -/
  | chanTonePlay (q : Req)
  /-- CHAN_TONE_STOP (R327): Stops tone generation in a TONE node. -/
  | chanToneStop (q : Req)
  /-- CHAN_CODEC (R603): Sets a leg's codec mode and flags. -/
  | chanCodec (q : Req)
  /-- CHAN_RTCP (R215): Sets a leg's RTCP interval and XR option. -/
  | chanRtcp (q : Req)
  /-- CHAN_CLEAR (R336): Clears the configuration of a leg that is OFF. -/
  | chanClear (q : Req)
  /-- CHAN_CONF_CREATE (R328): Creates a conference. -/
  | chanConfCreate (q : Req)
  /-- CHAN_CONF_DELETE (R328): Deletes a conference without participants. -/
  | chanConfDelete (q : Req)
  /-- CHAN_CONF_JOIN (R328): Joins a leg to a conference at a boundary. -/
  | chanConfJoin (q : Req)
  /-- CHAN_CONF_LEAVE (R328): Removes a leg from its conference at a boundary. -/
  | chanConfLeave (q : Req)
  /-- CHAN_STATUS (R337): Returns a leg's header and a record per node. -/
  | chanStatus (q : Req)
  /-- CHAN_CONF_STATUS (R337): Returns a conference's participants and current selection. -/
  | chanConfStatus (q : Req)
  /-- GRAPH_DEFINE (R315): Checks and defines a template and returns its costs. -/
  | graphDefine (q : Req)
  /-- GRAPH_DELETE (R310): Deletes a template that no live leg uses. -/
  | graphDelete (q : Req)
  /-- GRAPH_CPT_DEFINE (R337): Defines a call-progress profile. -/
  | graphCptDefine (q : Req)
  /-- GRAPH_INFO (R337): Returns a template and its costs. -/
  | graphInfo (q : Req)
  /-- COEF_SET_LOAD (R279): Loads a coefficient set into the store. -/
  | coefSetLoad (q : Req)
  /-- COEF_SET_FREE (R259): Frees an unbound coefficient set. -/
  | coefSetFree (q : Req)
  /-- COEF_BANK (R259): Binds a set to the bank that is not live, at a boundary. -/
  | coefBank (q : Req)
  /-- COEF_SWAP (R261): Arms a swap of the live bank at T with a fade length. -/
  | coefSwap (q : Req)
  /-- COEF_SWAP_CANCEL (R261): Removes a pending swap. -/
  | coefSwapCancel (q : Req)
  /-- COEF_PHASE (R271): Sets a chain's phase-delay setting at a boundary. -/
  | coefPhase (q : Req)
  /-- COEF_SYNC_RESET (R272): Resets a chain at a boundary. -/
  | coefSyncReset (q : Req)
  /-- COEF_SET_INFO (R278): Returns a set's header and stage entries. -/
  | coefSetInfo (q : Req)
  /-- COEF_ROM_READ (R260): Returns a ROM response or interpolator phase. -/
  | coefRomRead (q : Req)
  /-- COEF_CHAIN_STATUS (R280): Returns the 80-byte status of a chain. -/
  | coefChainStatus (q : Req)
  /-- TIME_CLOCK (R97): Sets the PTP clock role and data set and restarts the PTP stack. -/
  | timeClock (q : Req)
  /-- TIME_PORT (R97): Sets one PTP port. -/
  | timePort (q : Req)
  /-- TIME_UNICAST (R97): Sets the candidate masters of a G.8275.2 slave port. -/
  | timeUnicast (q : Req)
  /-- TIME_STATUS (R97): Returns PTP clock status. -/
  | timeStatus (q : Req)
  /-- TIME_PORT_STATUS (R97): Returns one PTP port's settings and grants. -/
  | timePortStatus (q : Req)
  /-- PORT_ENABLE (R143): Enables a port and writes MAC_CFG.EN. -/
  | portEnable (q : Req)
  /-- PORT_DISABLE (R143): Disables a port and writes MAC_CFG.EN. -/
  | portDisable (q : Req)
  /-- PORT_MDIO_WRITE (R143): Runs an MDIO write to the S0 PHY. -/
  | portMdioWrite (q : Req)
  /-- PORT_MDIO_READ (R143): Runs an MDIO read of the S0 PHY. -/
  | portMdioRead (q : Req)
  /-- PORT_STATUS (R143): Returns a port's status, gates, pause state and fills. -/
  | portStatus (q : Req)
  /-- CAPT_OPEN (R457): Allocates a capture buffer and sets source, filter and trigger. -/
  | captOpen (q : Req)
  /-- CAPT_CLOSE (R457): Frees a capture that is OFF. -/
  | captClose (q : Req)
  /-- CAPT_ENABLE (R457): Enables a capture, emptying its buffer. -/
  | captEnable (q : Req)
  /-- CAPT_DISABLE (R465): Disables a capture after the current Emit. -/
  | captDisable (q : Req)
  /-- CAPT_TRIGGER (R460): Fires a MANUAL trigger. -/
  | captTrigger (q : Req)
  /-- CAPT_EXPORT (R469): Starts export of a capture stream to a host. -/
  | captExport (q : Req)
  /-- CAPT_READ (R470): Returns up to 16 MiB of a capture stream in bulk frames. -/
  | captRead (q : Req)
  /-- CAPT_STATUS (R481): Returns a capture's state, offset, RSEQ and Tt. -/
  | captStatus (q : Req)
  /-- CAPTURE_TIME_TRIGGER (R460): The armed instant of a TIME trigger is reached and the trigger acts. -/
  | captureTimeTrigger (c : Fin 16)
  /-- EXPORT_FRAME_SEND (R469): An EXPORT or TAP_DATA frame is sent when its token bucket allows. -/
  | exportFrameSend (x : ExportRef)
  /-- PATT_LOAD (R477): Loads a pattern into the pattern store. -/
  | pattLoad (q : Req)
  /-- PATT_FROM_CAPT (R477): Copies whole records of a capture into a pattern. -/
  | pattFromCapt (q : Req)
  /-- PATT_DELETE (R477): Deletes a pattern not in use. -/
  | pattDelete (q : Req)
  /-- PATT_PLAY (R478): Arms a player to play a pattern from T with repeats. -/
  | pattPlay (q : Req)
  /-- PATT_STOP (R480): Stops a player. -/
  | pattStop (q : Req)
  /-- PATT_INFO (R481): Returns a pattern's state and size. -/
  | pattInfo (q : Req)
  /-- PATTERN_ITEM_RELEASE (R478): A pattern item's instant is reached and it is queued as a frame or handed as a TAP item. -/
  | patternItemRelease (pl : Fin 64)
  /-- RING_OPEN (R472): Creates a tap or inject ring. -/
  | ringOpen (q : Req)
  /-- RING_CLOSE (R481): Frees a ring that is OFF. -/
  | ringClose (q : Req)
  /-- RING_ENABLE (R472): Enables a ring at index 0. -/
  | ringEnable (q : Req)
  /-- RING_DISABLE (R481): Disables a ring. -/
  | ringDisable (q : Req)
  /-- RING_FEED (R474): Feeds a ring with inject entries and tap credits through bulk frames. -/
  | ringFeed (q : Req)
  /-- RING_STATUS (R481): Returns a ring's state and indices. -/
  | ringStatus (q : Req)
  /-- INJECT_LAUNCH (R476): An inject entry's launch instant is reached and its frame enters its queue. -/
  | injectLaunch (ring : Fin 16)
  /-- INJECT_DONE_SEND (R476): An INJECT_DONE frame is sent at 8 pending write-backs or 100 µs after the oldest. -/
  | injectDoneSend (ring : Fin 16)
  /-- TAND_ROUTE (R439): Sets the primary and alternate routes to a device. -/
  | tandRoute (q : Req)
  /-- TAND_RING (R443): Sets the ring ports and the block. -/
  | tandRing (q : Req)
  /-- TAND_EXPORT (R448): Sends a leg's export to a device from a boundary. -/
  | tandExport (q : Req)
  /-- TAND_EXPORT_DEL (R453): Stops an export. -/
  | tandExportDel (q : Req)
  /-- TAND_IMPORT (R449): Makes a remote source the PEER of a local leg. -/
  | tandImport (q : Req)
  /-- TAND_IMPORT_DEL (R453): Removes an import. -/
  | tandImportDel (q : Req)
  /-- TAND_CONF_IMPORT (R451): Adds a remote TALK participant to a conference. -/
  | tandConfImport (q : Req)
  /-- TAND_MIGRATE_OUT (R452): Moves a leg out to another device from a boundary. -/
  | tandMigrateOut (q : Req)
  /-- TAND_MIGRATE_IN (R452): Admits the target leg of an incoming migration. -/
  | tandMigrateIn (q : Req)
  /-- TAND_STATUS (R453): Returns link states and port charges. -/
  | tandStatus (q : Req)
  /-- TND_DEVNO_WRITE (R455): A write of TND_CFG.DEVNO changes the device number when unlocked. -/
  | tndDevnoWrite (c : RegCmd) (v : Word)
  /-- TND_WIN_WRITE (R441): A write of TND_WIN.NS is refused if it would leave a path beyond the window. -/
  | tndWinWrite (c : RegCmd) (v : Word)
  /-- BIST_REQUEST (R527): Runs a unit's full pass next. -/
  | bistRequest (q : Req)
  /-- BIST_FUSE_ARM (R520): Names repair entries to fuse and returns a nonce. -/
  | bistFuseArm (q : Req)
  /-- BIST_FUSE_CONFIRM (R520): Programs and verifies the armed fuse entries. -/
  | bistFuseConfirm (q : Req)
  /-- BIST_LC_ARM (R524): Names a target life-cycle state and returns a nonce. -/
  | bistLcArm (q : Req)
  /-- BIST_LC_CONFIRM (R524): Makes the armed life-cycle transition. -/
  | bistLcConfirm (q : Req)
  /-- BIST_REPAIR_LIST (R527): Returns PRS repair entries with fused flags. -/
  | bistRepairList (q : Req)
  /-- BIST_UNIT_STATUS (R527): Returns a unit's test status. -/
  | bistUnitStatus (q : Req)
  /-- PRS_PARTITION (R29): Stores a new HBM partition for the next start. -/
  | prsPartition (q : Req)
  /-- PRS_CHECKPOINT (R541): Takes a checkpoint and replies when it is written. -/
  | prsCheckpoint (q : Req)
  /-- PRS_LOG_READ (R548): Returns start-log records. -/
  | prsLogRead (q : Req)
  /-- PRS_INFO (R548): Returns the PRS registers. -/
  | prsInfo (q : Req)
  /-- STAT_IPFIX_SET (R544): Configures the IPFIX exporter. -/
  | statIpfixSet (q : Req)
  /-- STAT_LEG (R548): Returns a leg's quality figures and counts. -/
  | statLeg (q : Req)
  /-- STAT_DEVICE (R548): Returns device health values. -/
  | statDevice (q : Req)
  /-- STAT_JRNL_FATE (R424): Returns the fate of a journaled command by session and sequence. -/
  | statJrnlFate (q : Req)
  /-- FW_LOAD (R565): Loads and verifies a firmware image into a slot. -/
  | fwLoad (q : Req)
  /-- FW_ACTIVATE (R560): Marks a slot as the trial for the next start. -/
  | fwActivate (q : Req)
  /-- FW_START_CLEAR (R565): Resets every plan alternate to 0 and clears the failure count. -/
  | fwStartClear (q : Req)
  /-- FW_INFO (R565): Returns slot states, causes and plan alternates. -/
  | fwInfo (q : Req)
  /-- SHUT_BEGIN (R562): Begins an orderly shutdown through phases D1 to D6. -/
  | shutBegin (q : Req)
  /-- SHUT_ABORT (R564): Aborts a shutdown before its D3 reply and re-enables what D2 stopped. -/
  | shutAbort (q : Req)
  /-- SHUT_STATUS (R565): Returns the shutdown phase and what remains. -/
  | shutStatus (q : Req)
  /-- SHUTDOWN_DRAIN_END (R562): Every leg is OFF and exports have drained, so D3 writes a checkpoint and replies. -/
  | shutdownDrainEnd
  /-- SHUTDOWN_TEST_DONE (R522): The full test ends and its record is written, and D5 and D6 follow. -/
  | shutdownTestDone (r : ShutTest)
  /-- STAGE_IN_DONE (R364): A leg's stage-in completes and its FRAME task becomes READY. -/
  | stageInDone (leg : Fin 131072)
  /-- TASK_DONE (R342): A task completes, fills its leash slot, and the core takes its next task. `made` is what the firmware and the
  background-work block have created since the last (R341). -/
  | taskDone (core : Fin 128) (made : List SysMake)
  /-- CORE_TRANSIT_ACCESS (R391): A task meets a TRANSIT page and is switched out BLOCKED. -/
  | coreTransitAccess (core : Fin 128) (va : BitVec 48)
  /-- FCE_CALL (R246): A core calls a filter chain engine with one block and the chain's state. -/
  | fceCall (core : Fin 128) (eng : Fin 32)
  /-- ECE_CALL (R303): A core calls an echo engine with Rin, Sin and the canceller state. -/
  | eceCall (core : Fin 128) (eng : Fin 32)
  /-- MEMORY_FAULT (R403): A task meets an uncorrectable data error and ends FAULTED with class MEMORY. -/
  | memoryFault (core : Fin 128) (pa : BitVec 40)
  /-- ACCESS_FAULT (R391): A task meets an ACCESS fault and falls back. The access is a read (0), a write (1) or an instruction fetch (2). -/
  | accessFault (core : Fin 128) (va : BitVec 48) (acc : Fin 3)
  /-- ENGINE_PARITY (R304): A parity error in a filter or echo engine ends the call it strikes. -/
  | engineParity (core : Fin 128)
  /-- CORE_HANG (R404): A core retires nothing for HANG_NS, and every task it holds ends FAULTED; `ns` is how long it has retired nothing. -/
  | coreHang (core : Fin 128) (ns : BitVec 32)
  /-- TASK_OVERRUN (R403): A task exceeds MULT times its declared cycles and falls back. -/
  | taskOverrun (core : Fin 128)
  /-- REPLAY_RESTAGE_DONE (R413): The replay's copy of the shadow completes, logged changes are applied and the REPLAY task becomes READY. -/
  | replayRestageDone (leg : Fin 131072)
  /-- FAULT_RECORD_POP (R426): A read of FRP_REC_POP removes and latches the oldest fault record. -/
  | faultRecordPop (path : Path)
  /-- DMA_COPY (R388): A COPY descriptor moves bytes from SRC to DST. -/
  | dmaCopy (ring : Fin 256)
  /-- DMA_FILL (R388): A FILL descriptor writes its pattern from DST. -/
  | dmaFill (ring : Fin 256)
  /-- DMA_TX (R388): A TX descriptor reads a whole frame and queues it on a port. -/
  | dmaTx (ring : Fin 256)
  /-- DMA_RX (R388): An RX descriptor takes the next frame delivered to its ring. -/
  | dmaRx (ring : Fin 256)
  /-- DMA_RELEASE (R383): A RELEASE descriptor lowers pin counts of its range. -/
  | dmaRelease (ring : Fin 256)
  /-- DMA_DESC_COMPLETE (R389): A descriptor ends and its completion is written in ring order. -/
  | dmaDescComplete (ring : Fin 256)
  /-- DMA_DESC_PARK (R392): A descriptor meets a fault, parks at its exact byte and holds its ring. -/
  | dmaDescPark (ring : Fin 256)
  /-- MMU_RING_TAIL_WRITE (R385): A producer advances a ring's tail, handing new descriptors to the engine. `cfg` is what the firmware has written to
  the ring's registers before, `by_` the core whose task queues them, or none. -/
  | mmuRingTailWrite (ring : Fin 256) (cfg : Option RingSetup) (by_ : Option (Fin 128)) (descs : List Bytes) (v : Word)
  /-- MMU_MOVE_GO (R381): A write of GO to MMU_MOVE_CTL starts moving a page between loft and HBM, with the addresses written to the MOVE registers. -/
  | mmuMoveGo (v : Word) (va : BitVec 48) (pa : BitVec 40)
  /-- MOVE_COMPLETE (R381): A page move ends and accesses and descriptors stopped on the page resume. -/
  | moveComplete
  /-- MMU_INV_GO (R382): A write of GO to MMU_INV starts a TLB invalidation, with the address written to MMU_INV_VA and what the firmware has written
  to contexts and page tables before. -/
  | mmuInvGo (v : Word) (va : BitVec 48) (fw : FwWrites)
  /-- INVALIDATION_DONE (R382): A TLB invalidation completes and BUSY clears. -/
  | invalidationDone
  /-- MMU_PARK_RESUME (R393): The firmware resumes a parked descriptor at DONE_BYTES. -/
  | mmuParkResume (ring : Fin 256)
  /-- MMU_PARK_ABORT (R393): The firmware aborts a parked descriptor with E_FAULT. -/
  | mmuParkAbort (ring : Fin 256)
  /-- MMU_CTL_PEAK_CLR (R401): A write of 1 to MMU_CTL.PEAK_CLR sets the peak fields to current values. -/
  | mmuCtlPeakClr (c : RegCmd)
  /-- MMU_DMA_EN_WRITE (R599): A write that changes MMU_DMA_CFG.EN enables or disables a DMA engine. -/
  | mmuDmaEnWrite (eng : Fin 32) (v : Word)
  /-- SWT_LEN_WRITE (R35): A write of SWT_CFG.LEN with every leg OFF changes the swath length from the next boundary of the new length. -/
  | swtLenWrite (c : RegCmd) (v : Word)
  /-- SWT_LOFT_BUD_WRITE (R372): A write of SWT_LOFT_BUD.KIB is checked, and enlarging the stage pool waits until general pages are moved. -/
  | swtLoftBudWrite (c : RegCmd) (v : Word)
  /-- SWT_CYC_PCT_WRITE (R55): A write of SWT_CYC_PCT.USE_PCT is checked and updates the core budgets at once. -/
  | swtCycPctWrite (c : RegCmd) (v : Word)
  /-- PLY_CTL_PEAK_CLR (R242): A write of 1 to PLY_CTL.PEAK_CLR sets the pool peak to current use. -/
  | plyCtlPeakClr (c : RegCmd)
  /-- FCE_CFG_EN_WRITE (R599): A write that changes FCE_CFG.EN enables or disables a filter chain engine. -/
  | fceCfgEnWrite (e : Fin 16) (v : Word)
  /-- FCE_CTL_PEAK_CLR (R282): A write of 1 to FCE_CTL.PEAK_CLR sets the load peak to the last value. -/
  | fceCtlPeakClr (e : Fin 16) (c : RegCmd)
  /-- ECE_CFG_EN_WRITE (R599): A write that changes ECE_CFG.EN enables or disables an echo engine. -/
  | eceCfgEnWrite (e : Fin 32) (v : Word)
  /-- ECE_CTL_PEAK_CLR (R308): A write of 1 to ECE_CTL.PEAK_CLR sets both peaks to current values. -/
  | eceCtlPeakClr (e : Fin 32) (c : RegCmd)
  /-- KNL_CTL_HIST_CLR (R365): A write of 1 to KNL_CTL.HIST_CLR clears the waiting-time histogram. -/
  | knlCtlHistClr (c : RegCmd)
  /-- KNL_CTL_PEAK_CLR (R367): A write of 1 to KNL_CTL.PEAK_CLR sets each pool peak to its use. -/
  | knlCtlPeakClr (c : RegCmd)
  /-- KNL_HIST_SEL_WRITE (R365): A change of histogram selection clears every bin. -/
  | knlHistSelWrite (c : RegCmd) (v : Word)
  /-- KNL_REFUSE_WRITE (R362): A write of KNL_CFG.REFUSE switches refusal mode, releasing back-pressure when set. -/
  | knlRefuseWrite (c : RegCmd) (v : Word)
  /-- FRP_CTL_PEAK_CLR (R428): A write of 1 to FRP_CTL.PEAK_CLR sets the reserve and log peaks to use. -/
  | frpCtlPeakClr (c : RegCmd)
  /-- GRN_CAP_STRM_HI_READ (R483): A read of GRN_CAP_STRM_HI latches the low word of the stream offset. -/
  | grnCapStrmHiRead (path : Path)
  /-- BAL_CFG_EN_WRITE (R599): A write that changes a bit of BAL_CFG.EN enables or disables a baler engine. -/
  | balCfgEnWrite (v : Word)
  /-- BAL_CTL_PEAK_CLR (R501): A write of 1 to BAL_CTL.PEAK_CLR sets every load peak to its last value. -/
  | balCtlPeakClr (c : RegCmd)
  /-- BAL_RING_TAIL_WRITE (R487): A producer advances a baler job ring's tail. -/
  | balRingTailWrite (ring : Fin 4) (jobs : List Bytes) (v : Word)
  /-- BALER_COMPRESS (R490): A COMPRESS job makes a bale from its source with self-verification. -/
  | balerCompress (eng : Fin 4) (mismatch : Bool)
  /-- BALER_DECOMPRESS (R496): A DECOMPRESS job checks and expands a bale. -/
  | balerDecompress (eng : Fin 4)
  /-- BALER_RESUME (R495): A job with RESUME continues a stopped job with a new destination list. -/
  | balerResume (eng : Fin 4) (mismatch : Bool)
  /-- BALER_JOB_END (R489): A job ends DONE, STOPPED or with a reason, and its completion is written. -/
  | balerJobEnd (eng : Fin 4) (parity : Bool)
  /-- GLN_SLICE_START (R505): The gleaner starts a logic or memory slice on an idle unit that ends before Emit. -/
  | glnSliceStart (cls : Fin 7) (idx : Fin 128)
  /-- GLN_SLICE_END (R509): A slice completes or is cut, is judged and queues its result record. -/
  | glnSliceEnd (r : SliceResult)
  /-- GLN_CTL_CUT (R509): A write of 1 to GLN_CTL.CUT cuts a running slice with cause STOP. -/
  | glnCtlCut (c : RegCmd)
  /-- GLN_CFG_EN_WRITE (R510): Clearing GLN_CFG.EN lets a running slice complete and starts no new one. -/
  | glnCfgEnWrite (c : RegCmd) (v : Word)
  /-- GLN_REC_POP_READ (R521): A read of GLN_REC_POP removes and latches the oldest result record. -/
  | glnRecPopRead (path : Path)
  /-- JTAG_KEY_LOAD (R526): At Update-DR of KEY_LOAD, a host key is written into the key store. -/
  | jtagKeyLoad (dr : BitVec 264)
  /-- JTAG_LC_TRANSITION (R523): A life-cycle transition is made through JTAG. -/
  | jtagLcTransition (target : Fin 5)
  /-- I2C_ADDRESS_WRITE (R595): An I2C write of 4 bytes sets the register address. -/
  | i2cAddressWrite (a : BitVec 32)
  /-- I2C_READ (R595): An I2C read returns consecutive registers, with I2C-path latches. -/
  | i2cRead (count : Fin 65)
  /-- SCRUB_READ (R534): The winnower reads the next word, correcting or latching errors. -/
  | scrubRead (space : ScrubSpace) (word : ScrubWord)
  /-- HBM_RETRAIN (R536): Within Guard, one HBM pseudo-channel is retrained. -/
  | hbmRetrain (pch : Fin 64) (ok : Bool)
  /-- PLL_CALIBRATION (R536): PLL and sensor calibration runs once a second. -/
  | pllCalibration
  /-- SENSOR_READ (R537): The sixteen sensors are read every 1 ms and the thermal level is updated. -/
  | sensorRead (t : List (BitVec 16))
  /-- OVER_TEMP_RESET (R539): A sensor at 125 °C for 10 µs puts the part into reset without firmware. -/
  | overTempReset
  /-- AVS_ADJUST (R585): In service the part steps the VDD_CORE set point as Tj changes. -/
  | avsAdjust (up ok : Bool)
  /-- CHECKPOINT_TIMER (R541): 60 s with new records, or journal fill of 50 %, starts a checkpoint. -/
  | checkpointTimer
  /-- CHECKPOINT_WRITTEN (R541): A checkpoint bale is written to the older slot and journal records are released. -/
  | checkpointWritten (ok : Bool)
  /-- PRS_BLOCK_FAIL (R543): A block fails an erase or program and is retired to a spare. -/
  | prsBlockFail (block : Fin 2048)
  /-- IPFIX_HEALTH (R545): Every I seconds the device health record is sent. -/
  | ipfixHealth
  /-- IPFIX_TEMPLATE (R544): Every 600 s the IPFIX templates are sent. -/
  | ipfixTemplate
  /-- TEST_EN_RELEASE (R577): TEST_EN returns low and the reset it held the part in ends. -/
  | testEnRelease (straps : Straps)
  /-- UNKNOWN_OPERATION (R165): A command of a family or operation that the part does not know is executed in sequence and refused with E_UNKNOWN_OP. -/
  | unknownOperation (fam op : Byte) (q : Req)
  deriving DecidableEq, Repr

end Sys2Proof
end

