-- ==== Sys2Proof/Machine/Bits.lean ====
section
/-! DEFINITION. Byte-order, bit-field and keyed-list helpers, and the checksums and tags that the spec names: the
internet checksum, CRC-32C (R485), HMAC-SHA-256 (R148, R154) and SipHash-2-4 (R178). -/

namespace Sys2Proof.Machine

/-- A sparse map in canonical form: keys strictly rising. -/
abbrev KV (α : Type) := List (Nat × α)

/-- The value at a key. -/
def kget {α : Type} : KV α → Nat → Option α
  | [], _ => none
  | (k, v) :: m, i => if i = k then some v else if i < k then none else kget m i

/-- Set the value at a key, keeping the keys strictly rising. -/
def kset {α : Type} : KV α → Nat → α → KV α
  | [], i, x => [(i, x)]
  | (k, v) :: m, i, x =>
    if i < k then (i, x) :: (k, v) :: m else if i = k then (i, x) :: m else (k, v) :: kset m i x

/-- Remove a key. -/
def kdel {α : Type} : KV α → Nat → KV α
  | [], _ => []
  | (k, v) :: m, i => if i < k then (k, v) :: m else if i = k then m else (k, v) :: kdel m i

/-- The value at a key, or a default. -/
def kgetD {α : Type} (m : KV α) (i : Nat) (d : α) : α := (kget m i).getD d

/-- Whether a key is present. -/
def khas {α : Type} (m : KV α) (i : Nat) : Bool := (kget m i).isSome

/-- Big-endian number of a byte sequence (R7). -/
def beNat (bs : Bytes) : Nat := bs.foldl (fun a b => a * 256 + b.toNat) 0

/-- The `n`-byte big-endian form of a number, modulo 2^(8n) (R7). -/
def be : Nat → Nat → Bytes
  | 0, _ => []
  | n + 1, v => byteOf (v / 256 ^ n) :: be n v

/-- `n` zero bytes. -/
def zeros (n : Nat) : Bytes := List.replicate n 0

/-- Bytes `off` to `off + len - 1`. -/
def sub (bs : Bytes) (off len : Nat) : Bytes := (bs.drop off).take len

/-- The big-endian number in bytes `off` to `off + len - 1`; bytes beyond the end count as zero bytes. -/
def num (bs : Bytes) (off len : Nat) : Nat :=
  let p := sub bs off len
  beNat p * 256 ^ (len - p.length)

/-- Byte `off` as a number. -/
def u8 (bs : Bytes) (off : Nat) : Nat := (bs.getD off 0).toNat

/-- Bits [hi:lo] of a number (R6). -/
def bits (v hi lo : Nat) : Nat := v / 2 ^ lo % 2 ^ (hi + 1 - lo)

/-- Bit `i` of a number. -/
def tb (v i : Nat) : Bool := v / 2 ^ i % 2 == 1

/-- A number with bits [hi:lo] replaced. -/
def putBits (v hi lo x : Nat) : Nat :=
  let w := 2 ^ (hi + 1 - lo)
  v - bits v hi lo * 2 ^ lo + x % w * 2 ^ lo

/-- A number with bit `i` set or cleared. -/
def putBit (v i : Nat) (b : Bool) : Nat := putBits v i i (if b then 1 else 0)

/-- The two's complement value of the low `w` bits. -/
def sgn (w v : Nat) : Int :=
  let m := v % 2 ^ w
  if m < 2 ^ (w - 1) then (m : Int) else (m : Int) - 2 ^ w

/-- The `w`-bit two's complement code of an integer. -/
def unsgn (w : Nat) (x : Int) : Nat := (x % (2 ^ w : Nat)).toNat

/-- An integer held within [lo, hi]. -/
def clampI (x lo hi : Int) : Int := if x < lo then lo else if hi < x then hi else x

/-- Quotient rounded up. -/
def cdiv (a b : Nat) : Nat := (a + b - 1) / b

/-- The number of set bits among the low `n` bits. -/
def popc : Nat → Nat → Nat
  | 0, _ => 0
  | n + 1, v => popc n v + (if tb v n then 1 else 0)

/-- A Bool as a bit. -/
def b2n (b : Bool) : Nat := if b then 1 else 0

/-- Index of the first element that a test accepts. -/
def findIx {α : Type} (p : α → Bool) : List α → Option Nat
  | [] => none
  | x :: xs => if p x then some 0 else (findIx p xs).map (· + 1)

/-- A list with element `i` replaced. -/
def setAt {α : Type} : List α → Nat → α → List α
  | [], _, _ => []
  | _ :: xs, 0, y => y :: xs
  | x :: xs, n + 1, y => x :: setAt xs n y

/-- The maximum of a list, 0 when empty. -/
def maxL (xs : List Nat) : Nat := xs.foldl max 0

/-- The sum of a list. -/
def sumL (xs : List Nat) : Nat := xs.foldl (· + ·) 0

/-- The internet checksum sum of 16-bit big-endian words, an odd last byte padded with zero. -/
def sum16 : Bytes → Nat
  | [] => 0
  | [a] => a.toNat * 256
  | a :: b :: r => a.toNat * 256 + b.toNat + sum16 r

/-- A sum folded to 16 bits with end-around carry. -/
def fold16 (n : Nat) : Nat :=
  let a := n % 65536 + n / 65536
  let b := a % 65536 + a / 65536
  b % 65536 + b / 65536

/-- The 16-bit one's complement checksum of a byte sequence. -/
def inetSum (bs : Bytes) : Nat := 0xFFFF - fold16 (sum16 bs)

/-! ### CRC-32C (R485) -/

/-- One bit step of the reflected CRC-32C register. -/
def crcBit (c : BitVec 32) : BitVec 32 := if c.getLsbD 0 then (c >>> 1) ^^^ 0x82F63B78#32 else c >>> 1

/-- One byte step. -/
def crcByte (c : BitVec 32) (b : Byte) : BitVec 32 :=
  let x := c ^^^ (b.setWidth 32)
  crcBit (crcBit (crcBit (crcBit (crcBit (crcBit (crcBit (crcBit x)))))))

/-- CRC-32C of a byte sequence. -/
def crc32c (bs : Bytes) : BitVec 32 := (bs.foldl crcByte 0xFFFFFFFF#32) ^^^ 0xFFFFFFFF#32

/-! ### SHA-256 and HMAC (named by R148 and R154; their arithmetic is PRESUMED from FIPS 180-4 and RFC 2104) -/

/-- The SHA-256 round constants. -/
def sha256K : List (BitVec 32) := [
  0x428a2f98#32, 0x71374491#32, 0xb5c0fbcf#32, 0xe9b5dba5#32, 0x3956c25b#32, 0x59f111f1#32, 0x923f82a4#32, 0xab1c5ed5#32,
  0xd807aa98#32, 0x12835b01#32, 0x243185be#32, 0x550c7dc3#32, 0x72be5d74#32, 0x80deb1fe#32, 0x9bdc06a7#32, 0xc19bf174#32,
  0xe49b69c1#32, 0xefbe4786#32, 0x0fc19dc6#32, 0x240ca1cc#32, 0x2de92c6f#32, 0x4a7484aa#32, 0x5cb0a9dc#32, 0x76f988da#32,
  0x983e5152#32, 0xa831c66d#32, 0xb00327c8#32, 0xbf597fc7#32, 0xc6e00bf3#32, 0xd5a79147#32, 0x06ca6351#32, 0x14292967#32] ++ [
  0x27b70a85#32, 0x2e1b2138#32, 0x4d2c6dfc#32, 0x53380d13#32, 0x650a7354#32, 0x766a0abb#32, 0x81c2c92e#32, 0x92722c85#32,
  0xa2bfe8a1#32, 0xa81a664b#32, 0xc24b8b70#32, 0xc76c51a3#32, 0xd192e819#32, 0xd6990624#32, 0xf40e3585#32, 0x106aa070#32,
  0x19a4c116#32, 0x1e376c08#32, 0x2748774c#32, 0x34b0bcb5#32, 0x391c0cb3#32, 0x4ed8aa4a#32, 0x5b9cca4f#32, 0x682e6ff3#32,
  0x748f82ee#32, 0x78a5636f#32, 0x84c87814#32, 0x8cc70208#32, 0x90befffa#32, 0xa4506ceb#32, 0xbef9a3f7#32, 0xc67178f2#32]

/-- The eight chaining words. -/
structure Sha where
  a : BitVec 32
  b : BitVec 32
  c : BitVec 32
  d : BitVec 32
  e : BitVec 32
  f : BitVec 32
  g : BitVec 32
  h : BitVec 32
  deriving DecidableEq, Repr

/-- The initial chaining value. -/
def shaInit : Sha := ⟨0x6a09e667#32, 0xbb67ae85#32, 0x3c6ef372#32, 0xa54ff53a#32, 0x510e527f#32, 0x9b05688c#32,
  0x1f83d9ab#32, 0x5be0cd19#32⟩

/-- One round with the word and constant of that round. -/
def shaRound (s : Sha) (w k : BitVec 32) : Sha :=
  let s1 := s.e.rotateRight 6 ^^^ s.e.rotateRight 11 ^^^ s.e.rotateRight 25
  let ch := (s.e &&& s.f) ^^^ (~~~s.e &&& s.g)
  let t1 := s.h + s1 + ch + k + w
  let s0 := s.a.rotateRight 2 ^^^ s.a.rotateRight 13 ^^^ s.a.rotateRight 22
  let mj := (s.a &&& s.b) ^^^ (s.a &&& s.c) ^^^ (s.b &&& s.c)
  ⟨t1 + (s0 + mj), s.a, s.b, s.c, s.d + t1, s.e, s.f, s.g⟩

/-- The rounds, sliding a window of the 16 newest schedule words. -/
def shaRounds : List (BitVec 32) → List (BitVec 32) → Sha → Sha
  | [], _, s => s
  | k :: ks, ws, s =>
    let w0 := ws.getD 0 0
    let w1 := ws.getD 1 0
    let w14 := ws.getD 14 0
    let n0 := w1.rotateRight 7 ^^^ w1.rotateRight 18 ^^^ (w1 >>> 3)
    let n1 := w14.rotateRight 17 ^^^ w14.rotateRight 19 ^^^ (w14 >>> 10)
    shaRounds ks (ws.drop 1 ++ [w0 + n0 + ws.getD 9 0 + n1]) (shaRound s w0 k)

/-- The 32-bit words of a block. -/
def words32 : Nat → Bytes → List (BitVec 32)
  | 0, _ => []
  | n + 1, bs => BitVec.ofNat 32 (num bs 0 4) :: words32 n (bs.drop 4)

/-- Compression of one 64-byte block. -/
def shaBlock (s : Sha) (blk : Bytes) : Sha :=
  let r := shaRounds sha256K (words32 16 blk) s
  ⟨s.a + r.a, s.b + r.b, s.c + r.c, s.d + r.d, s.e + r.e, s.f + r.f, s.g + r.g, s.h + r.h⟩

/-- Compression of `n` blocks. -/
def shaBlocks : Nat → Bytes → Sha → Sha
  | 0, _, s => s
  | n + 1, bs, s => shaBlocks n (bs.drop 64) (shaBlock s (bs.take 64))

/-- SHA-256. -/
def sha256 (m : Bytes) : Bytes :=
  let l := m.length
  let padded := m ++ [0x80] ++ zeros ((119 - l % 64) % 64) ++ be 8 (8 * l)
  let s := shaBlocks (padded.length / 64) padded shaInit
  be 4 s.a.toNat ++ be 4 s.b.toNat ++ be 4 s.c.toNat ++ be 4 s.d.toNat ++
    be 4 s.e.toNat ++ be 4 s.f.toNat ++ be 4 s.g.toNat ++ be 4 s.h.toNat

/-- HMAC-SHA-256 of a message under a key. -/
def hmac256 (key m : Bytes) : Bytes :=
  let k0 := if key.length > 64 then sha256 key else key
  let k := k0 ++ zeros (64 - k0.length)
  sha256 (k.map (· ^^^ 0x5C) ++ sha256 (k.map (· ^^^ 0x36) ++ m))

/-! ### SipHash-2-4 (named by R178; its arithmetic is PRESUMED from its authors' definition) -/

/-- The four state words. -/
structure Sip where
  v0 : BitVec 64
  v1 : BitVec 64
  v2 : BitVec 64
  v3 : BitVec 64
  deriving DecidableEq, Repr

/-- One SipRound. -/
def sipRound (s : Sip) : Sip :=
  let a0 := s.v0 + s.v1
  let a1 := s.v1.rotateLeft 13 ^^^ a0
  let a0' := a0.rotateLeft 32
  let a2 := s.v2 + s.v3
  let a3 := s.v3.rotateLeft 16 ^^^ a2
  let b0 := a0' + a3
  let b3 := a3.rotateLeft 21 ^^^ b0
  let b2 := a2 + a1
  let b1 := a1.rotateLeft 17 ^^^ b2
  ⟨b0, b1, b2.rotateLeft 32, b3⟩

/-- The little-endian 64-bit number of eight bytes. -/
def le64 (bs : Bytes) : BitVec 64 := BitVec.ofNat 64 (beNat ((bs.take 8).reverse))

/-- Absorption of one word. -/
def sipWord (s : Sip) (m : BitVec 64) : Sip :=
  let t := sipRound (sipRound { s with v3 := s.v3 ^^^ m })
  { t with v0 := t.v0 ^^^ m }

/-- Absorption of `n` words. -/
def sipWords : Nat → Bytes → Sip → Sip
  | 0, _, s => s
  | n + 1, bs, s => sipWords n (bs.drop 8) (sipWord s (le64 bs))

/-- SipHash-2-4 of a message under a 16-byte key. -/
def sipHash24 (key m : Bytes) : BitVec 64 :=
  let k0 := le64 key
  let k1 := le64 (key.drop 8)
  let s : Sip := ⟨k0 ^^^ 0x736f6d6570736575#64, k1 ^^^ 0x646f72616e646f6d#64, k0 ^^^ 0x6c7967656e657261#64,
    k1 ^^^ 0x7465646279746573#64⟩
  let tail := m.drop (m.length / 8 * 8)
  let last := tail ++ zeros (7 - tail.length) ++ [byteOf m.length]
  let t := sipWord (sipWords (m.length / 8) m s) (le64 last)
  let f := sipRound (sipRound (sipRound (sipRound { t with v2 := t.v2 ^^^ 0xff#64 })))
  f.v0 ^^^ f.v1 ^^^ f.v2 ^^^ f.v3

end Sys2Proof.Machine
end

