-- ==== Sys2Proof/Machine/Cipher.lean ====
section
/-! DEFINITION. The ciphers and tags of the SRTP suites that R202 names (log entry 81): AES (FIPS 197), its counter and Galois modes, SHA-1 and
HMAC-SHA-1, the key derivation of RFC 3711 Section 4.3 and the layouts of RFC 3711 and RFC 7714. -/

namespace Sys2Proof.Machine

/-- Two byte sequences combined byte by byte. -/
def xorBytes (a b : Bytes) : Bytes := List.zipWith (· ^^^ ·) a b

/-! ### AES (FIPS 197) -/

/-- A field element times x. -/
def gfDouble (a : Byte) : Byte := (a <<< 1) ^^^ (if a.getLsbD 7 then 0x1B#8 else 0#8)

/-- The product of two field elements (fuel: bits of the second). -/
def gfMul : Nat → Byte → Byte → Byte
  | 0, _, _ => 0
  | n + 1, a, b => (if b.getLsbD 0 then a else 0#8) ^^^ gfMul n (gfDouble a) (b >>> 1)

/-- The inverse of a field element, its 254th power; 0 for 0. -/
def gfInv (a : Byte) : Byte :=
  ((List.range 7).foldl (fun (p : Byte × Byte) _ => let q := gfMul 8 p.1 p.1; (q, gfMul 8 p.2 q)) (a, 1#8)).2

/-- The substitution box. -/
def aesSub (a : Byte) : Byte :=
  let i := gfInv a
  i ^^^ i.rotateLeft 1 ^^^ i.rotateLeft 2 ^^^ i.rotateLeft 3 ^^^ i.rotateLeft 4 ^^^ 0x63#8

/-- The round constant of round `k`, from 1 on. -/
def aesRcon (k : Nat) : Byte := (List.range (k - 1)).foldl (fun c _ => gfDouble c) 1#8

/-- The schedule of a key of `nk` words, a word at a time (fuel: words to come). -/
def aesExpand (nk : Nat) : Nat → List Bytes → List Bytes
  | 0, w => w
  | n + 1, w =>
    let i := w.length
    let t := w.getD (i - 1) []
    let u := if i % nk = 0 then xorBytes ((t.drop 1 ++ t.take 1).map aesSub) (aesRcon (i / nk) :: zeros 3)
      else if 6 < nk ∧ i % nk = 4 then t.map aesSub
      else t
    aesExpand nk n (w ++ [xorBytes (w.getD (i - nk) []) u])

/-- The round keys of a key of 16 or 32 bytes. -/
def aesKeys (key : Bytes) : List Bytes :=
  let nk := key.length / 4
  let w := aesExpand nk (4 * (nk + 7) - nk) ((List.range nk).map fun i => sub key (4 * i) 4)
  (List.range (nk + 7)).map fun r => ((w.drop (4 * r)).take 4).flatten

/-- The rows of the state shifted. -/
def aesShift (b : Bytes) : Bytes := (List.range 16).map fun j => b.getD (j % 4 + 4 * ((j / 4 + j % 4) % 4)) 0

/-- The columns of the state mixed. -/
def aesMix (b : Bytes) : Bytes :=
  (List.range 16).map fun j =>
    let at_ (k : Nat) : Byte := b.getD (j / 4 * 4 + (j + k) % 4) 0
    gfDouble (at_ 0) ^^^ gfDouble (at_ 1) ^^^ at_ 1 ^^^ at_ 2 ^^^ at_ 3

/-- One block of 16 bytes encrypted. -/
def aesBlock (key b : Bytes) : Bytes :=
  match aesKeys key with
  | [] => b
  | k0 :: ks =>
    let n := ks.length
    (ks.zipIdx).foldl (fun s (k, i) =>
      let t := aesShift (s.map aesSub)
      xorBytes (if i + 1 = n then t else aesMix t) k) (xorBytes b k0)

/-- The keystream of `n` bytes from a counter block on; the counter is the low `w` bits of the block. -/
def aesStream (key : Bytes) (w iv n : Nat) : Bytes :=
  ((List.range (cdiv n 16)).flatMap fun i => aesBlock key (be 16 (iv / 2 ^ w * 2 ^ w + (iv + i) % 2 ^ w))).take n

/-! ### SHA-1 (FIPS 180-4) and HMAC (RFC 2104) -/

/-- The five chaining words. -/
structure Sha1 where
  a : BitVec 32
  b : BitVec 32
  c : BitVec 32
  d : BitVec 32
  e : BitVec 32
  deriving DecidableEq, Repr

/-- One round, number `t`, with its word. -/
def sha1Round (t : Nat) (s : Sha1) (w : BitVec 32) : Sha1 :=
  let (f, k) : BitVec 32 × BitVec 32 :=
    if t < 20 then ((s.b &&& s.c) ||| (~~~s.b &&& s.d), 0x5A827999#32)
    else if t < 40 then (s.b ^^^ s.c ^^^ s.d, 0x6ED9EBA1#32)
    else if t < 60 then ((s.b &&& s.c) ||| (s.b &&& s.d) ||| (s.c &&& s.d), 0x8F1BBCDC#32)
    else (s.b ^^^ s.c ^^^ s.d, 0xCA62C1D6#32)
  ⟨s.a.rotateLeft 5 + f + s.e + k + w, s.a, s.b.rotateLeft 30, s.c, s.d⟩

/-- The rounds, sliding a window of the 16 newest schedule words (fuel: rounds to come). -/
def sha1Rounds : Nat → List (BitVec 32) → Sha1 → Sha1
  | 0, _, s => s
  | n + 1, ws, s =>
    let w := (ws.getD 13 0 ^^^ ws.getD 8 0 ^^^ ws.getD 2 0 ^^^ ws.getD 0 0).rotateLeft 1
    sha1Rounds n (ws.drop 1 ++ [w]) (sha1Round (79 - n) s (ws.getD 0 0))

/-- Compression of `n` blocks. -/
def sha1Blocks : Nat → Bytes → Sha1 → Sha1
  | 0, _, s => s
  | n + 1, bs, s =>
    let r := sha1Rounds 80 (words32 16 bs) s
    sha1Blocks n (bs.drop 64) ⟨s.a + r.a, s.b + r.b, s.c + r.c, s.d + r.d, s.e + r.e⟩

/-- SHA-1. -/
def sha1 (m : Bytes) : Bytes :=
  let p := m ++ [0x80] ++ zeros ((119 - m.length % 64) % 64) ++ be 8 (8 * m.length)
  let s := sha1Blocks (p.length / 64) p ⟨0x67452301#32, 0xEFCDAB89#32, 0x98BADCFE#32, 0x10325476#32, 0xC3D2E1F0#32⟩
  [s.a, s.b, s.c, s.d, s.e].flatMap fun x => be 4 x.toNat

/-- HMAC-SHA-1 of a message under a key of at most 64 bytes. -/
def hmacSha1 (key m : Bytes) : Bytes :=
  let k := key ++ zeros (64 - key.length)
  sha1 (k.map (· ^^^ 0x5C) ++ sha1 (k.map (· ^^^ 0x36) ++ m))

/-! ### Galois mode (RFC 7714, by the mode's definition) -/

/-- A hash element halved in the field of the mode. -/
def ghHalve (v : Nat) : Nat := if v % 2 = 1 then (v / 2) ^^^ (0xE1 * 2 ^ 120) else v / 2

/-- The product of two hash elements, the bits of `x` from the top (fuel: bits to come). -/
def ghMul : Nat → Nat → Nat → Nat
  | 0, _, _ => 0
  | n + 1, x, v => (if tb x n then v else 0) ^^^ ghMul n x (ghHalve v)

/-- A sequence padded with zero bytes to whole blocks. -/
def pad16 (b : Bytes) : Bytes := b ++ zeros (cdiv b.length 16 * 16 - b.length)

/-- The hash of additional data and ciphertext under a hash key. -/
def ghash (h : Nat) (aad c : Bytes) : Nat :=
  let m := pad16 aad ++ pad16 c ++ be 8 (8 * aad.length) ++ be 8 (8 * c.length)
  (List.range (m.length / 16)).foldl (fun y i => ghMul 128 (y ^^^ num m (16 * i) 16) h) 0

/-- Bytes combined with the keystream of the mode under an initial vector of 12 bytes. -/
def gcmCrypt (key iv b : Bytes) : Bytes := xorBytes b (aesStream key 32 (num iv 0 12 * 2 ^ 32 + 2) b.length)

/-- The tag of the mode over additional data and ciphertext. -/
def gcmTag (key iv aad c : Bytes) : Bytes :=
  xorBytes (be 16 (ghash (num (aesBlock key (zeros 16)) 0 16) aad c)) (aesBlock key (iv ++ be 4 1))

/-! ### Keys of a session (RFC 3711 Section 4.3, derivation rate 0) -/

/-- `n` bytes derived from a master key and salt under a label; a salt of 12 bytes is taken with two zero bytes after it (RFC 7714). -/
def kdf (key salt : Bytes) (label n : Nat) : Bytes :=
  let x := num salt 0 14 ^^^ (label * 2 ^ 48)
  aesStream key 16 (x * 2 ^ 16) n

end Sys2Proof.Machine
end

