-- ==== Sys2Proof/Config.lean ====
section
/-! DEFINITION. What an implementation fixes or the spec leaves open: free values as constants with no body. -/

namespace Sys2Proof.Config

/-- A free value of `w` bits, applied to the model's own counters: twice `State.free` (log entry 4), and for the wear
of the record die one more than twice `Nv.wear` (log entry 24). The spec leaves these
values open: random draws (R154, R196, R209, R215), values it calls undefined, values it does not state. -/
opaque freeBits (w : Nat) : Nat → BitVec w

/-- Results of arithmetic that the spec names by a standard and does not lay out bit by bit: applied to a number that
names the function, and to the bytes it works on (log entry 11). -/
opaque stdBytes : Nat → List Byte → List Byte

/-- Samples that such a standard computes (codecs, concealment, echo cancelling, tone detection): applied to a number
that names the function, its parameters and the input samples (log entry 11). -/
opaque stdSamples : Nat → List Int → List Int → List Int

/-- Numbers that such a standard computes. -/
opaque stdNum : Nat → List Int → List Int → Int

/-- How far behind the granary's write path may be, in 2^-16 ns, before it is full: R465 gives its rate and not its depth
(log entry 13). -/
opaque recordPathDepth : Nat

/-- How far behind the baler may be with baled captures, in 2^-16 ns, before they find it saturated (R498; log entry 13). -/
opaque balerDepth : Nat

/-- How far behind the start of the leg backing store a leg's copy begins, in bytes: R396 does not say (log entry 95). -/
opaque backing : Nat → Nat

end Sys2Proof.Config
end

