-- ==== Sys2Proof/Machine/Regs.lean ====
section
/-! DEFINITION. The register map of the part: for every register of the spec its address, its fields with access code
and owner class, and its reset value (R10, R11, R26). Addresses are byte addresses of R26; an array of registers is one
definition with its strides. -/

namespace Sys2Proof.Machine

/-- Access codes of R10. -/
inductive Acc where
  | ro | rw | w1c | wo | rwl
  deriving DecidableEq, Repr

/-- Owner classes of R11: host session, Smivor firmware, debug. -/
inductive Own where
  | h | f | d
  deriving DecidableEq, Repr

/-- One field of one register at an address: bits [hi:lo] (R6). -/
structure Fld where
  addr : Nat
  hi : Nat
  lo : Nat
  deriving DecidableEq, Repr

/-- A field as the tables of the spec give it. -/
structure FDef where
  hi : Nat
  lo : Nat
  acc : Acc
  own : Own
  reset : Nat
  deriving DecidableEq, Repr

/-- A register or an array of registers: base address, (stride, count) of each array dimension, fields. -/
structure RegDef where
  base : Nat
  dims : List (Nat × Nat)
  fields : List FDef
  deriving DecidableEq, Repr

/-! Names of the ID registers (00, 17). -/

/-- R2. -/
def R.ID_PART : Nat := 0x0
def R.ID_PART_PART_NO : Fld := ⟨R.ID_PART, 31, 16⟩
def R.ID_PART_GRADE : Fld := ⟨R.ID_PART, 15, 12⟩
def R.ID_PART_STEP_LTR : Fld := ⟨R.ID_PART, 11, 8⟩
def R.ID_PART_STEP_NUM : Fld := ⟨R.ID_PART, 7, 4⟩
/-- R528. -/
def R.ID_LC : Nat := 0x4
def R.ID_LC_PENDING : Fld := ⟨R.ID_LC, 6, 4⟩
def R.ID_LC_STATE : Fld := ⟨R.ID_LC, 2, 0⟩
/-- R528. -/
def R.ID_UID_HI : Nat := 0x8
def R.ID_UID_HI_UID_HI : Fld := ⟨R.ID_UID_HI, 31, 0⟩
/-- R528. -/
def R.ID_UID_LO : Nat := 0xC
def R.ID_UID_LO_UID_LO : Fld := ⟨R.ID_UID_LO, 31, 0⟩
/-- R528. -/
def R.ID_ACCESS : Nat := 0x10
def R.ID_ACCESS_KEYS : Fld := ⟨R.ID_ACCESS, 2, 2⟩
def R.ID_ACCESS_DEBUG_OPEN : Fld := ⟨R.ID_ACCESS, 1, 1⟩
def R.ID_ACCESS_BSCAN : Fld := ⟨R.ID_ACCESS, 0, 0⟩
/-- R528. -/
def R.ID_JTAG : Nat := 0x14
def R.ID_JTAG_DBG_EN : Fld := ⟨R.ID_JTAG, 0, 0⟩

/-! Names of the SWT registers (02). -/

/-- R64. -/
def R.SWT_CFG : Nat := 0x10000
def R.SWT_CFG_LEN : Fld := ⟨R.SWT_CFG, 1, 0⟩
/-- R64. -/
def R.SWT_STAT : Nat := 0x10004
def R.SWT_STAT_PHASE : Fld := ⟨R.SWT_STAT, 3, 2⟩
def R.SWT_STAT_OVER : Fld := ⟨R.SWT_STAT, 1, 1⟩
def R.SWT_STAT_RUN : Fld := ⟨R.SWT_STAT, 0, 0⟩
/-- R64. -/
def R.SWT_SWN : Nat := 0x10008
def R.SWT_SWN_SWN : Fld := ⟨R.SWT_SWN, 31, 0⟩
/-- R64. -/
def R.SWT_POS : Nat := 0x1000C
def R.SWT_POS_ELAPSED : Fld := ⟨R.SWT_POS, 20, 0⟩
/-- R65. -/
def R.SWT_CYC_PCT : Nat := 0x10010
def R.SWT_CYC_PCT_USE_PCT : Fld := ⟨R.SWT_CYC_PCT, 6, 0⟩
/-- R65. -/
def R.SWT_CYC_BUD : Nat := 0x10014
def R.SWT_CYC_BUD_CORE_SHARE : Fld := ⟨R.SWT_CYC_BUD, 29, 18⟩
def R.SWT_CYC_BUD_BC : Fld := ⟨R.SWT_CYC_BUD, 17, 0⟩
/-- R65. -/
def R.SWT_LOFT_BUD : Nat := 0x10018
def R.SWT_LOFT_BUD_KIB : Fld := ⟨R.SWT_LOFT_BUD, 17, 0⟩
/-- R65. -/
def R.SWT_ECHO_BUD : Nat := 0x1001C
def R.SWT_ECHO_BUD_BE : Fld := ⟨R.SWT_ECHO_BUD, 20, 0⟩
/-- R65. -/
def R.SWT_SLOTS : Nat := 0x10020
def R.SWT_SLOTS_TOTAL : Fld := ⟨R.SWT_SLOTS, 20, 0⟩
/-- R65. -/
def R.SWT_SLOTS_USED : Nat := 0x10024
def R.SWT_SLOTS_USED_USED : Fld := ⟨R.SWT_SLOTS_USED, 20, 0⟩
/-- R65. -/
def R.SWT_UNITS : Nat := 0x10028
def R.SWT_UNITS_N_ECE : Fld := ⟨R.SWT_UNITS, 13, 8⟩
def R.SWT_UNITS_N_CORE : Fld := ⟨R.SWT_UNITS, 7, 0⟩
/-- R65. -/
def R.SWT_LEGS : Nat := 0x1002C
def R.SWT_LEGS_ALL : Fld := ⟨R.SWT_LEGS, 17, 0⟩
/-- R67. -/
def R.SWT_LOAD_SEL : Nat := 0x10030
def R.SWT_LOAD_SEL_ENTRY : Fld := ⟨R.SWT_LOAD_SEL, 8, 0⟩
/-- R67. -/
def R.SWT_LOAD_CYC : Nat := 0x10034
def R.SWT_LOAD_CYC_CYC : Fld := ⟨R.SWT_LOAD_CYC, 21, 0⟩
/-- R67. -/
def R.SWT_LOAD_LOFT : Nat := 0x10038
def R.SWT_LOAD_LOFT_KIB : Fld := ⟨R.SWT_LOAD_LOFT, 17, 0⟩
/-- R67. -/
def R.SWT_LOAD_ECHO : Nat := 0x1003C
def R.SWT_LOAD_ECHO_EU : Fld := ⟨R.SWT_LOAD_ECHO, 20, 0⟩
/-- R67. -/
def R.SWT_LOAD_MAX : Nat := 0x10040
def R.SWT_LOAD_MAX_ENTRY : Fld := ⟨R.SWT_LOAD_MAX, 31, 22⟩
def R.SWT_LOAD_MAX_CYC : Fld := ⟨R.SWT_LOAD_MAX, 21, 0⟩
/-- R66. -/
def R.SWT_LEGS_FULL : Nat := 0x10044
def R.SWT_LEGS_FULL_FULL : Fld := ⟨R.SWT_LEGS_FULL, 16, 0⟩
/-- R67. -/
def R.SWT_EVT : Nat := 0x10050
def R.SWT_EVT_LATE_ACT : Fld := ⟨R.SWT_EVT, 3, 3⟩
def R.SWT_EVT_DEADLINE : Fld := ⟨R.SWT_EVT, 2, 2⟩
def R.SWT_EVT_OVER : Fld := ⟨R.SWT_EVT, 1, 1⟩
def R.SWT_EVT_SLIP : Fld := ⟨R.SWT_EVT, 0, 0⟩
/-- R67. -/
def R.SWT_EVT_EN : Nat := 0x10054
def R.SWT_EVT_EN_EN : Fld := ⟨R.SWT_EVT_EN, 3, 0⟩
/-- R67. -/
def R.SWT_SLIP_DELTA : Nat := 0x10058
def R.SWT_SLIP_DELTA_DELTA : Fld := ⟨R.SWT_SLIP_DELTA, 31, 0⟩
/-- R67. -/
def R.SWT_SLIP_LEN : Nat := 0x1005C
def R.SWT_SLIP_LEN_D : Fld := ⟨R.SWT_SLIP_LEN, 20, 0⟩
/-- R68. -/
def R.SWT_SLIP_CNT : Nat := 0x10060
def R.SWT_SLIP_CNT_CNT : Fld := ⟨R.SWT_SLIP_CNT, 31, 0⟩
/-- R68. -/
def R.SWT_SLIP_FRM_CNT : Nat := 0x10064
def R.SWT_SLIP_FRM_CNT_CNT : Fld := ⟨R.SWT_SLIP_FRM_CNT, 31, 0⟩
/-- R68. -/
def R.SWT_DEADLINE_CNT : Nat := 0x10068
def R.SWT_DEADLINE_CNT_CNT : Fld := ⟨R.SWT_DEADLINE_CNT, 31, 0⟩
/-- R68. -/
def R.SWT_REFUSE_CNT : Nat := 0x1006C
def R.SWT_REFUSE_CNT_CNT : Fld := ⟨R.SWT_REFUSE_CNT, 31, 0⟩
/-- R68. -/
def R.SWT_LATE_CNT : Nat := 0x10070
def R.SWT_LATE_CNT_CNT : Fld := ⟨R.SWT_LATE_CNT, 31, 0⟩
/-- R68. -/
def R.SWT_SKIP_OCC_CNT : Nat := 0x10074
def R.SWT_SKIP_OCC_CNT_CNT : Fld := ⟨R.SWT_SKIP_OCC_CNT, 31, 0⟩
/-- R68. -/
def R.SWT_OVER_CNT : Nat := 0x10078
def R.SWT_OVER_CNT_CNT : Fld := ⟨R.SWT_OVER_CNT, 31, 0⟩

/-! Names of the TMU registers (03). -/

/-- R109. -/
def R.TMU_CFG : Nat := 0x20000
def R.TMU_CFG_REF_SEL : Fld := ⟨R.TMU_CFG, 0, 0⟩
/-- R109. -/
def R.TMU_STAT : Nat := 0x20004
def R.TMU_STAT_LOCK : Fld := ⟨R.TMU_STAT, 10, 8⟩
def R.TMU_STAT_PEND_EN : Fld := ⟨R.TMU_STAT, 7, 7⟩
def R.TMU_STAT_SRV_STATE : Fld := ⟨R.TMU_STAT, 6, 4⟩
def R.TMU_STAT_REF_ACTIVE : Fld := ⟨R.TMU_STAT, 2, 2⟩
def R.TMU_STAT_REF_OK : Fld := ⟨R.TMU_STAT, 1, 1⟩
def R.TMU_STAT_VALID : Fld := ⟨R.TMU_STAT, 0, 0⟩
/-- R109. -/
def R.TMU_TIME_SEC_HI : Nat := 0x20008
def R.TMU_TIME_SEC_HI_SEC_HI : Fld := ⟨R.TMU_TIME_SEC_HI, 15, 0⟩
/-- R109. -/
def R.TMU_TIME_SEC_LO : Nat := 0x2000C
def R.TMU_TIME_SEC_LO_SEC_LO : Fld := ⟨R.TMU_TIME_SEC_LO, 31, 0⟩
/-- R109. -/
def R.TMU_TIME_NS : Nat := 0x20010
def R.TMU_TIME_NS_NS : Fld := ⟨R.TMU_TIME_NS, 29, 0⟩
/-- R109. -/
def R.TMU_TIME_FRAC : Nat := 0x20014
def R.TMU_TIME_FRAC_FRAC : Fld := ⟨R.TMU_TIME_FRAC, 15, 0⟩
/-- R109. -/
def R.TMU_ADDEND : Nat := 0x20018
def R.TMU_ADDEND_ADDEND : Fld := ⟨R.TMU_ADDEND, 31, 0⟩
/-- R109. -/
def R.TMU_ADDEND_EXT : Nat := 0x2001C
def R.TMU_ADDEND_EXT_EXT : Fld := ⟨R.TMU_ADDEND_EXT, 15, 0⟩
/-- R109. -/
def R.TMU_SET_SEC_HI : Nat := 0x20020
def R.TMU_SET_SEC_HI_SEC_HI : Fld := ⟨R.TMU_SET_SEC_HI, 15, 0⟩
/-- R109. -/
def R.TMU_SET_SEC_LO : Nat := 0x20024
def R.TMU_SET_SEC_LO_SEC_LO : Fld := ⟨R.TMU_SET_SEC_LO, 31, 0⟩
/-- R109. -/
def R.TMU_SET_NS : Nat := 0x20028
def R.TMU_SET_NS_NS : Fld := ⟨R.TMU_SET_NS, 29, 0⟩
/-- R109. -/
def R.TMU_STEP_SEC : Nat := 0x2002C
def R.TMU_STEP_SEC_SEC : Fld := ⟨R.TMU_STEP_SEC, 31, 0⟩
/-- R109. -/
def R.TMU_STEP_NS : Nat := 0x20030
def R.TMU_STEP_NS_NS : Fld := ⟨R.TMU_STEP_NS, 29, 0⟩
/-- R109. -/
def R.TMU_CTL : Nat := 0x20034
def R.TMU_CTL_STEP : Fld := ⟨R.TMU_CTL, 1, 1⟩
def R.TMU_CTL_SET : Fld := ⟨R.TMU_CTL, 0, 0⟩
/-- R109. -/
def R.TMU_SRV_CTL : Nat := 0x20038
def R.TMU_SRV_CTL_SLIP_EN : Fld := ⟨R.TMU_SRV_CTL, 3, 3⟩
def R.TMU_SRV_CTL_SRC : Fld := ⟨R.TMU_SRV_CTL, 2, 1⟩
def R.TMU_SRV_CTL_EN : Fld := ⟨R.TMU_SRV_CTL, 0, 0⟩
/-- R109. -/
def R.TMU_SRV_KP : Nat := 0x20040
def R.TMU_SRV_KP_KP : Fld := ⟨R.TMU_SRV_KP, 31, 0⟩
/-- R109. -/
def R.TMU_SRV_KI : Nat := 0x20044
def R.TMU_SRV_KI_KI : Fld := ⟨R.TMU_SRV_KI, 31, 0⟩
/-- R109. -/
def R.TMU_SRV_PULL : Nat := 0x20048
def R.TMU_SRV_PULL_PPB : Fld := ⟨R.TMU_SRV_PULL, 19, 0⟩
/-- R109. -/
def R.TMU_SRV_SLEW : Nat := 0x2004C
def R.TMU_SRV_SLEW_PPB : Fld := ⟨R.TMU_SRV_SLEW, 19, 0⟩
/-- R109. -/
def R.TMU_SRV_LOCK : Nat := 0x20050
def R.TMU_SRV_LOCK_UNLOCK_N : Fld := ⟨R.TMU_SRV_LOCK, 31, 24⟩
def R.TMU_SRV_LOCK_LOCK_N : Fld := ⟨R.TMU_SRV_LOCK, 23, 16⟩
def R.TMU_SRV_LOCK_LOCK_NS : Fld := ⟨R.TMU_SRV_LOCK, 15, 0⟩
/-- R109. -/
def R.TMU_SRV_UNLK : Nat := 0x20054
def R.TMU_SRV_UNLK_NS : Fld := ⟨R.TMU_SRV_UNLK, 23, 0⟩
/-- R109. -/
def R.TMU_SRV_STEP : Nat := 0x20058
def R.TMU_SRV_STEP_IDLE_NS : Fld := ⟨R.TMU_SRV_STEP, 31, 0⟩
/-- R109. -/
def R.TMU_SRV_SLIP : Nat := 0x2005C
def R.TMU_SRV_SLIP_NS : Fld := ⟨R.TMU_SRV_SLIP, 31, 0⟩
/-- R109. -/
def R.TMU_SRV_HOLD : Nat := 0x20060
def R.TMU_SRV_HOLD_GUARD_MS : Fld := ⟨R.TMU_SRV_HOLD, 31, 16⟩
def R.TMU_SRV_HOLD_TIMEOUT_MS : Fld := ⟨R.TMU_SRV_HOLD, 15, 0⟩
/-- R109. -/
def R.TMU_SRV_ROUTE : Nat := 0x20064
def R.TMU_SRV_ROUTE_OFS_NS : Fld := ⟨R.TMU_SRV_ROUTE, 31, 16⟩
def R.TMU_SRV_ROUTE_MPD_NS : Fld := ⟨R.TMU_SRV_ROUTE, 15, 0⟩
/-- R109. -/
def R.TMU_SRV_RATE : Nat := 0x20068
def R.TMU_SRV_RATE_Y : Fld := ⟨R.TMU_SRV_RATE, 31, 0⟩
/-- R109. -/
def R.TMU_SRV_IRATE : Nat := 0x2006C
def R.TMU_SRV_IRATE_I : Fld := ⟨R.TMU_SRV_IRATE, 31, 0⟩
/-- R109. -/
def R.TMU_SRV_LAST_OFS : Nat := 0x20070
def R.TMU_SRV_LAST_OFS_O : Fld := ⟨R.TMU_SRV_LAST_OFS, 31, 0⟩
/-- R109. -/
def R.TMU_SRV_HOLD_S : Nat := 0x20074
def R.TMU_SRV_HOLD_S_S : Fld := ⟨R.TMU_SRV_HOLD_S, 31, 0⟩
/-- R111. -/
def R.TMU_OFS_NS : Nat := 0x20080
def R.TMU_OFS_NS_NS : Fld := ⟨R.TMU_OFS_NS, 31, 0⟩
/-- R111. -/
def R.TMU_OFS_AUX : Nat := 0x20084
def R.TMU_OFS_AUX_PORT : Fld := ⟨R.TMU_OFS_AUX, 26, 24⟩
def R.TMU_OFS_AUX_WT : Fld := ⟨R.TMU_OFS_AUX, 23, 16⟩
def R.TMU_OFS_AUX_FRAC : Fld := ⟨R.TMU_OFS_AUX, 15, 0⟩
/-- R111. -/
def R.TMU_OFS_MPD : Nat := 0x20088
def R.TMU_OFS_MPD_MPD : Fld := ⟨R.TMU_OFS_MPD, 31, 0⟩
/-- R111. -/
def R.TMU_OFS_PUSH : Nat := 0x2008C
def R.TMU_OFS_PUSH_PUSH : Fld := ⟨R.TMU_OFS_PUSH, 0, 0⟩
/-- R111. -/
def R.TMU_OFS_STAT : Nat := 0x20090
def R.TMU_OFS_STAT_LEVEL : Fld := ⟨R.TMU_OFS_STAT, 4, 0⟩
/-- R111. -/
def R.TMU_ASYM (i : Nat) : Nat := 0x200A0 + i * 0x4
def R.TMU_ASYM_ASYM (i : Nat) : Fld := ⟨R.TMU_ASYM i, 31, 0⟩
/-- R111. -/
def R.TMU_LINKDLY (i : Nat) : Nat := 0x200C0 + i * 0x4
def R.TMU_LINKDLY_DLY (i : Nat) : Fld := ⟨R.TMU_LINKDLY i, 31, 0⟩
/-- R111. -/
def R.TMU_TC_CFG : Nat := 0x200E0
def R.TMU_TC_CFG_PORTS : Fld := ⟨R.TMU_TC_CFG, 22, 16⟩
def R.TMU_TC_CFG_DOMAIN : Fld := ⟨R.TMU_TC_CFG, 15, 8⟩
def R.TMU_TC_CFG_DOM_FILT : Fld := ⟨R.TMU_TC_CFG, 2, 2⟩
def R.TMU_TC_CFG_MODE : Fld := ⟨R.TMU_TC_CFG, 1, 0⟩
/-- R111. -/
def R.TMU_TOUT_SEC_HI (i : Nat) : Nat := 0x20100 + i * 0x20
def R.TMU_TOUT_SEC_HI_SEC_HI (i : Nat) : Fld := ⟨R.TMU_TOUT_SEC_HI i, 15, 0⟩
/-- R111. -/
def R.TMU_TOUT_SEC_LO (i : Nat) : Nat := 0x20104 + i * 0x20
def R.TMU_TOUT_SEC_LO_SEC_LO (i : Nat) : Fld := ⟨R.TMU_TOUT_SEC_LO i, 31, 0⟩
/-- R111. -/
def R.TMU_TOUT_NS (i : Nat) : Nat := 0x20108 + i * 0x20
def R.TMU_TOUT_NS_NS (i : Nat) : Fld := ⟨R.TMU_TOUT_NS i, 29, 0⟩
/-- R111. -/
def R.TMU_TOUT_PER (i : Nat) : Nat := 0x2010C + i * 0x20
def R.TMU_TOUT_PER_NS (i : Nat) : Fld := ⟨R.TMU_TOUT_PER i, 31, 0⟩
/-- R111. -/
def R.TMU_TOUT_PER_FRAC (i : Nat) : Nat := 0x20110 + i * 0x20
def R.TMU_TOUT_PER_FRAC_FRAC (i : Nat) : Fld := ⟨R.TMU_TOUT_PER_FRAC i, 15, 0⟩
/-- R111. -/
def R.TMU_TOUT_WIDTH (i : Nat) : Nat := 0x20114 + i * 0x20
def R.TMU_TOUT_WIDTH_NS (i : Nat) : Fld := ⟨R.TMU_TOUT_WIDTH i, 23, 0⟩
/-- R111. -/
def R.TMU_TOUT_CTL (i : Nat) : Nat := 0x20118 + i * 0x20
def R.TMU_TOUT_CTL_SKIP (i : Nat) : Fld := ⟨R.TMU_TOUT_CTL i, 31, 16⟩
def R.TMU_TOUT_CTL_LATE (i : Nat) : Fld := ⟨R.TMU_TOUT_CTL i, 5, 5⟩
def R.TMU_TOUT_CTL_RUN (i : Nat) : Fld := ⟨R.TMU_TOUT_CTL i, 4, 4⟩
def R.TMU_TOUT_CTL_POL (i : Nat) : Fld := ⟨R.TMU_TOUT_CTL i, 3, 3⟩
def R.TMU_TOUT_CTL_DISARM (i : Nat) : Fld := ⟨R.TMU_TOUT_CTL i, 1, 1⟩
def R.TMU_TOUT_CTL_ARM (i : Nat) : Fld := ⟨R.TMU_TOUT_CTL i, 0, 0⟩
/-- R111. -/
def R.TMU_TOUT_LATE (i : Nat) : Nat := 0x2011C + i * 0x20
def R.TMU_TOUT_LATE_NS (i : Nat) : Fld := ⟨R.TMU_TOUT_LATE i, 31, 0⟩
/-- R111. -/
def R.TMU_TIN_CFG (i : Nat) : Nat := 0x20200 + i * 0x20
def R.TMU_TIN_CFG_WT (i : Nat) : Fld := ⟨R.TMU_TIN_CFG i, 15, 8⟩
def R.TMU_TIN_CFG_EVT (i : Nat) : Fld := ⟨R.TMU_TIN_CFG i, 2, 2⟩
def R.TMU_TIN_CFG_EDGE (i : Nat) : Fld := ⟨R.TMU_TIN_CFG i, 1, 0⟩
/-- R111. -/
def R.TMU_TIN_STAT (i : Nat) : Nat := 0x20204 + i * 0x20
def R.TMU_TIN_STAT_LEVEL (i : Nat) : Fld := ⟨R.TMU_TIN_STAT i, 4, 0⟩
/-- R111. -/
def R.TMU_TIN_POP (i : Nat) : Nat := 0x20208 + i * 0x20
def R.TMU_TIN_POP_SEC_HI (i : Nat) : Fld := ⟨R.TMU_TIN_POP i, 31, 16⟩
def R.TMU_TIN_POP_RISE (i : Nat) : Fld := ⟨R.TMU_TIN_POP i, 1, 1⟩
def R.TMU_TIN_POP_VALID (i : Nat) : Fld := ⟨R.TMU_TIN_POP i, 0, 0⟩
/-- R111. -/
def R.TMU_TIN_SEC_LO (i : Nat) : Nat := 0x2020C + i * 0x20
def R.TMU_TIN_SEC_LO_SEC_LO (i : Nat) : Fld := ⟨R.TMU_TIN_SEC_LO i, 31, 0⟩
/-- R111. -/
def R.TMU_TIN_NS (i : Nat) : Nat := 0x20210 + i * 0x20
def R.TMU_TIN_NS_NS (i : Nat) : Fld := ⟨R.TMU_TIN_NS i, 29, 0⟩
/-- R111. -/
def R.TMU_TIN_FRAC (i : Nat) : Nat := 0x20214 + i * 0x20
def R.TMU_TIN_FRAC_FRAC (i : Nat) : Fld := ⟨R.TMU_TIN_FRAC i, 15, 0⟩
/-- R111. -/
def R.TMU_TIN_DROP_CNT (i : Nat) : Nat := 0x20218 + i * 0x20
def R.TMU_TIN_DROP_CNT_CNT (i : Nat) : Fld := ⟨R.TMU_TIN_DROP_CNT i, 31, 0⟩
/-- R111. -/
def R.TMU_PPS_DLY : Nat := 0x2029C
def R.TMU_PPS_DLY_NS : Fld := ⟨R.TMU_PPS_DLY, 31, 0⟩
/-- R112. -/
def R.TMU_SMPL_CNT : Nat := 0x20300
def R.TMU_SMPL_CNT_CNT : Fld := ⟨R.TMU_SMPL_CNT, 31, 0⟩
/-- R112. -/
def R.TMU_REJ_CNT : Nat := 0x20304
def R.TMU_REJ_CNT_CNT : Fld := ⟨R.TMU_REJ_CNT, 31, 0⟩
/-- R112. -/
def R.TMU_ROUTE_CNT : Nat := 0x20308
def R.TMU_ROUTE_CNT_CNT : Fld := ⟨R.TMU_ROUTE_CNT, 31, 0⟩
/-- R112. -/
def R.TMU_HOLD_CNT : Nat := 0x2030C
def R.TMU_HOLD_CNT_CNT : Fld := ⟨R.TMU_HOLD_CNT, 31, 0⟩
/-- R112. -/
def R.TMU_OFS_DROP_CNT : Nat := 0x20310
def R.TMU_OFS_DROP_CNT_CNT : Fld := ⟨R.TMU_OFS_DROP_CNT, 31, 0⟩
/-- R112. -/
def R.TMU_STEP_CNT : Nat := 0x20314
def R.TMU_STEP_CNT_CNT : Fld := ⟨R.TMU_STEP_CNT, 31, 0⟩
/-- R112. -/
def R.TMU_TC_CNT : Nat := 0x20318
def R.TMU_TC_CNT_CNT : Fld := ⟨R.TMU_TC_CNT, 31, 0⟩
/-- R112. -/
def R.TMU_TC_OVF_CNT : Nat := 0x2031C
def R.TMU_TC_OVF_CNT_CNT : Fld := ⟨R.TMU_TC_OVF_CNT, 31, 0⟩
/-- R112. -/
def R.TMU_REFLOSS_CNT : Nat := 0x20320
def R.TMU_REFLOSS_CNT_CNT : Fld := ⟨R.TMU_REFLOSS_CNT, 31, 0⟩
/-- R111. -/
def R.TMU_EVT : Nat := 0x20340
def R.TMU_EVT_TIN : Fld := ⟨R.TMU_EVT, 7, 7⟩
def R.TMU_EVT_SRV_FAIL : Fld := ⟨R.TMU_EVT, 6, 6⟩
def R.TMU_EVT_REF_LOSS : Fld := ⟨R.TMU_EVT, 5, 5⟩
def R.TMU_EVT_STEP : Fld := ⟨R.TMU_EVT, 4, 4⟩
def R.TMU_EVT_ROUTE : Fld := ⟨R.TMU_EVT, 3, 3⟩
def R.TMU_EVT_HOLDOVER : Fld := ⟨R.TMU_EVT, 2, 2⟩
def R.TMU_EVT_UNLOCK : Fld := ⟨R.TMU_EVT, 1, 1⟩
def R.TMU_EVT_LOCK : Fld := ⟨R.TMU_EVT, 0, 0⟩
/-- R111. -/
def R.TMU_EVT_EN : Nat := 0x20344
def R.TMU_EVT_EN_EN : Fld := ⟨R.TMU_EVT_EN, 7, 0⟩

/-! Names of the MAC registers (04). -/

/-- R145. -/
def R.MAC_CFG (i : Nat) : Nat := 0x30000 + i * 0x1000
def R.MAC_CFG_UNTAG_TC (i : Nat) : Fld := ⟨R.MAC_CFG i, 11, 9⟩
def R.MAC_CFG_PCP_REWRITE (i : Nat) : Fld := ⟨R.MAC_CFG i, 8, 8⟩
def R.MAC_CFG_QCP_EN (i : Nat) : Fld := ⟨R.MAC_CFG i, 7, 7⟩
def R.MAC_CFG_ROLE (i : Nat) : Fld := ⟨R.MAC_CFG i, 3, 2⟩
def R.MAC_CFG_EN (i : Nat) : Fld := ⟨R.MAC_CFG i, 0, 0⟩
/-- R145. -/
def R.MAC_STAT (i : Nat) : Nat := 0x30004 + i * 0x1000
def R.MAC_STAT_FEC_LOCK (i : Nat) : Fld := ⟨R.MAC_STAT i, 9, 9⟩
def R.MAC_STAT_DUPLEX (i : Nat) : Fld := ⟨R.MAC_STAT i, 8, 8⟩
def R.MAC_STAT_SPEED (i : Nat) : Fld := ⟨R.MAC_STAT i, 7, 6⟩
def R.MAC_STAT_LINK (i : Nat) : Fld := ⟨R.MAC_STAT i, 5, 5⟩
def R.MAC_STAT_PEND_EN (i : Nat) : Fld := ⟨R.MAC_STAT i, 4, 4⟩
def R.MAC_STAT_STATE (i : Nat) : Fld := ⟨R.MAC_STAT i, 2, 0⟩
/-- R145. -/
def R.MAC_MAXFRM (i : Nat) : Nat := 0x30008 + i * 0x1000
def R.MAC_MAXFRM_LEN (i : Nat) : Fld := ⟨R.MAC_MAXFRM i, 13, 0⟩
/-- R145. -/
def R.MAC_TSCOR_TX (i : Nat) : Nat := 0x3000C + i * 0x1000
def R.MAC_TSCOR_TX_COR (i : Nat) : Fld := ⟨R.MAC_TSCOR_TX i, 31, 0⟩
/-- R145. -/
def R.MAC_TSCOR_RX (i : Nat) : Nat := 0x30010 + i * 0x1000
def R.MAC_TSCOR_RX_COR (i : Nat) : Fld := ⟨R.MAC_TSCOR_RX i, 31, 0⟩
/-- R145. -/
def R.MAC_PCP2TC (i : Nat) : Nat := 0x30014 + i * 0x1000
def R.MAC_PCP2TC_MAP (i : Nat) : Fld := ⟨R.MAC_PCP2TC i, 23, 0⟩
/-- R145. -/
def R.MAC_TC_PCP (i : Nat) : Nat := 0x30018 + i * 0x1000
def R.MAC_TC_PCP_MAP (i : Nat) : Fld := ⟨R.MAC_TC_PCP i, 23, 0⟩
/-- R145. -/
def R.MAC_FC (i : Nat) : Nat := 0x3001C + i * 0x1000
def R.MAC_FC_MODE (i : Nat) : Fld := ⟨R.MAC_FC i, 17, 16⟩
def R.MAC_FC_RX_EN (i : Nat) : Fld := ⟨R.MAC_FC i, 15, 8⟩
def R.MAC_FC_TX_EN7 (i : Nat) : Fld := ⟨R.MAC_FC i, 7, 7⟩
def R.MAC_FC_TX_EN (i : Nat) : Fld := ⟨R.MAC_FC i, 6, 0⟩
/-- R145. -/
def R.MAC_FC_TIME (i : Nat) : Nat := 0x30020 + i * 0x1000
def R.MAC_FC_TIME_QUANTA (i : Nat) : Fld := ⟨R.MAC_FC_TIME i, 31, 16⟩
def R.MAC_FC_TIME_REFRESH (i : Nat) : Fld := ⟨R.MAC_FC_TIME i, 15, 0⟩
/-- R145. -/
def R.MAC_GATE (i : Nat) : Nat := 0x30024 + i * 0x1000
def R.MAC_GATE_CLOSED (i : Nat) : Fld := ⟨R.MAC_GATE i, 7, 0⟩
/-- R145. -/
def R.MAC_PAUSED (i : Nat) : Nat := 0x30028 + i * 0x1000
def R.MAC_PAUSED_XOFF (i : Nat) : Fld := ⟨R.MAC_PAUSED i, 15, 8⟩
def R.MAC_PAUSED_PEER (i : Nat) : Fld := ⟨R.MAC_PAUSED i, 7, 0⟩
/-- R145. -/
def R.MAC_CTL (i : Nat) : Nat := 0x3002C + i * 0x1000
def R.MAC_CTL_AN_RESTART (i : Nat) : Fld := ⟨R.MAC_CTL i, 1, 1⟩
def R.MAC_CTL_PEAK_CLR (i : Nat) : Fld := ⟨R.MAC_CTL i, 0, 0⟩
/-- R145. -/
def R.MAC_PHY (i : Nat) : Nat := 0x30030 + i * 0x1000
def R.MAC_PHY_AUTO (i : Nat) : Fld := ⟨R.MAC_PHY i, 15, 15⟩
def R.MAC_PHY_DUPLEX (i : Nat) : Fld := ⟨R.MAC_PHY i, 14, 14⟩
def R.MAC_PHY_SPEED (i : Nat) : Fld := ⟨R.MAC_PHY i, 13, 12⟩
def R.MAC_PHY_RGMII_DLY (i : Nat) : Fld := ⟨R.MAC_PHY i, 11, 10⟩
def R.MAC_PHY_AN_EN (i : Nat) : Fld := ⟨R.MAC_PHY i, 1, 1⟩
def R.MAC_PHY_MEDIA (i : Nat) : Fld := ⟨R.MAC_PHY i, 0, 0⟩
/-- R145. -/
def R.MAC_IBUF (i j : Nat) : Nat := 0x30040 + i * 0x1000 + j * 0x4
def R.MAC_IBUF_KIB (i j : Nat) : Fld := ⟨R.MAC_IBUF i j, 12, 0⟩
/-- R145. -/
def R.MAC_WM (i j : Nat) : Nat := 0x30060 + i * 0x1000 + j * 0x4
def R.MAC_WM_HI (i j : Nat) : Fld := ⟨R.MAC_WM i j, 28, 16⟩
def R.MAC_WM_LO (i j : Nat) : Fld := ⟨R.MAC_WM i j, 12, 0⟩
/-- R145. -/
def R.MAC_IFILL (i j : Nat) : Nat := 0x30080 + i * 0x1000 + j * 0x4
def R.MAC_IFILL_PEAK (i j : Nat) : Fld := ⟨R.MAC_IFILL i j, 28, 16⟩
def R.MAC_IFILL_FILL (i j : Nat) : Fld := ⟨R.MAC_IFILL i j, 12, 0⟩
/-- R146. -/
def R.MAC_RX_FRM_CNT (i : Nat) : Nat := 0x30100 + i * 0x1000
def R.MAC_RX_FRM_CNT_CNT (i : Nat) : Fld := ⟨R.MAC_RX_FRM_CNT i, 31, 0⟩
/-- R146. -/
def R.MAC_RX_BYTE_CNT_LO (i : Nat) : Nat := 0x30104 + i * 0x1000
def R.MAC_RX_BYTE_CNT_LO_CNT (i : Nat) : Fld := ⟨R.MAC_RX_BYTE_CNT_LO i, 31, 0⟩
/-- R146. -/
def R.MAC_RX_BYTE_CNT_HI (i : Nat) : Nat := 0x30108 + i * 0x1000
def R.MAC_RX_BYTE_CNT_HI_CNT (i : Nat) : Fld := ⟨R.MAC_RX_BYTE_CNT_HI i, 31, 0⟩
/-- R146. -/
def R.MAC_RX_RUNT_CNT (i : Nat) : Nat := 0x3010C + i * 0x1000
def R.MAC_RX_RUNT_CNT_CNT (i : Nat) : Fld := ⟨R.MAC_RX_RUNT_CNT i, 31, 0⟩
/-- R146. -/
def R.MAC_RX_OVERSIZE_CNT (i : Nat) : Nat := 0x30110 + i * 0x1000
def R.MAC_RX_OVERSIZE_CNT_CNT (i : Nat) : Fld := ⟨R.MAC_RX_OVERSIZE_CNT i, 31, 0⟩
/-- R146. -/
def R.MAC_RX_FCS_CNT (i : Nat) : Nat := 0x30114 + i * 0x1000
def R.MAC_RX_FCS_CNT_CNT (i : Nat) : Fld := ⟨R.MAC_RX_FCS_CNT i, 31, 0⟩
/-- R146. -/
def R.MAC_RX_ALIGN_CNT (i : Nat) : Nat := 0x30118 + i * 0x1000
def R.MAC_RX_ALIGN_CNT_CNT (i : Nat) : Fld := ⟨R.MAC_RX_ALIGN_CNT i, 31, 0⟩
/-- R146. -/
def R.MAC_RX_PFC_CNT (i : Nat) : Nat := 0x3011C + i * 0x1000
def R.MAC_RX_PFC_CNT_CNT (i : Nat) : Fld := ⟨R.MAC_RX_PFC_CNT i, 31, 0⟩
/-- R146. -/
def R.MAC_RX_PAUSE_CNT (i : Nat) : Nat := 0x30120 + i * 0x1000
def R.MAC_RX_PAUSE_CNT_CNT (i : Nat) : Fld := ⟨R.MAC_RX_PAUSE_CNT i, 31, 0⟩
/-- R146. -/
def R.MAC_RX_RING_ABANDON_CNT (i : Nat) : Nat := 0x30124 + i * 0x1000
def R.MAC_RX_RING_ABANDON_CNT_CNT (i : Nat) : Fld := ⟨R.MAC_RX_RING_ABANDON_CNT i, 31, 0⟩
/-- R146. -/
def R.MAC_RX_RING_EMPTY_CNT (i : Nat) : Nat := 0x30128 + i * 0x1000
def R.MAC_RX_RING_EMPTY_CNT_CNT (i : Nat) : Fld := ⟨R.MAC_RX_RING_EMPTY_CNT i, 31, 0⟩
/-- R146. -/
def R.MAC_RX_CTL_OTHER_CNT (i : Nat) : Nat := 0x3012C + i * 0x1000
def R.MAC_RX_CTL_OTHER_CNT_CNT (i : Nat) : Fld := ⟨R.MAC_RX_CTL_OTHER_CNT i, 31, 0⟩
/-- R146. -/
def R.MAC_RX_IDROP_TC_CNT (i j : Nat) : Nat := 0x30140 + i * 0x1000 + j * 0x4
def R.MAC_RX_IDROP_TC_CNT_CNT (i j : Nat) : Fld := ⟨R.MAC_RX_IDROP_TC_CNT i j, 31, 0⟩
/-- R146. -/
def R.MAC_TX_FRM_CNT (i : Nat) : Nat := 0x30180 + i * 0x1000
def R.MAC_TX_FRM_CNT_CNT (i : Nat) : Fld := ⟨R.MAC_TX_FRM_CNT i, 31, 0⟩
/-- R146. -/
def R.MAC_TX_BYTE_CNT_LO (i : Nat) : Nat := 0x30184 + i * 0x1000
def R.MAC_TX_BYTE_CNT_LO_CNT (i : Nat) : Fld := ⟨R.MAC_TX_BYTE_CNT_LO i, 31, 0⟩
/-- R146. -/
def R.MAC_TX_BYTE_CNT_HI (i : Nat) : Nat := 0x30188 + i * 0x1000
def R.MAC_TX_BYTE_CNT_HI_CNT (i : Nat) : Fld := ⟨R.MAC_TX_BYTE_CNT_HI i, 31, 0⟩
/-- R146. -/
def R.MAC_TX_PAD_CNT (i : Nat) : Nat := 0x3018C + i * 0x1000
def R.MAC_TX_PAD_CNT_CNT (i : Nat) : Fld := ⟨R.MAC_TX_PAD_CNT i, 31, 0⟩
/-- R146. -/
def R.MAC_TX_BADLEN_CNT (i : Nat) : Nat := 0x30190 + i * 0x1000
def R.MAC_TX_BADLEN_CNT_CNT (i : Nat) : Fld := ⟨R.MAC_TX_BADLEN_CNT i, 31, 0⟩
/-- R146. -/
def R.MAC_TX_GATE_DROP_CNT (i : Nat) : Nat := 0x30194 + i * 0x1000
def R.MAC_TX_GATE_DROP_CNT_CNT (i : Nat) : Fld := ⟨R.MAC_TX_GATE_DROP_CNT i, 31, 0⟩
/-- R146. -/
def R.MAC_TX_DISCARD_CNT (i : Nat) : Nat := 0x30198 + i * 0x1000
def R.MAC_TX_DISCARD_CNT_CNT (i : Nat) : Fld := ⟨R.MAC_TX_DISCARD_CNT i, 31, 0⟩
/-- R146. -/
def R.MAC_TX_XOFF_CNT (i : Nat) : Nat := 0x3019C + i * 0x1000
def R.MAC_TX_XOFF_CNT_CNT (i : Nat) : Fld := ⟨R.MAC_TX_XOFF_CNT i, 31, 0⟩
/-- R146. -/
def R.MAC_TX_XON_CNT (i : Nat) : Nat := 0x301A0 + i * 0x1000
def R.MAC_TX_XON_CNT_CNT (i : Nat) : Fld := ⟨R.MAC_TX_XON_CNT i, 31, 0⟩
/-- R146. -/
def R.MAC_TX_PAUSE_CNT (i : Nat) : Nat := 0x301A4 + i * 0x1000
def R.MAC_TX_PAUSE_CNT_CNT (i : Nat) : Fld := ⟨R.MAC_TX_PAUSE_CNT i, 31, 0⟩
/-- R146. -/
def R.MAC_TX_COL_CNT (i : Nat) : Nat := 0x301A8 + i * 0x1000
def R.MAC_TX_COL_CNT_CNT (i : Nat) : Fld := ⟨R.MAC_TX_COL_CNT i, 31, 0⟩
/-- R146. -/
def R.MAC_TX_LATE_COL_CNT (i : Nat) : Nat := 0x301AC + i * 0x1000
def R.MAC_TX_LATE_COL_CNT_CNT (i : Nat) : Fld := ⟨R.MAC_TX_LATE_COL_CNT i, 31, 0⟩
/-- R146. -/
def R.MAC_TX_EXCESS_COL_CNT (i : Nat) : Nat := 0x301B0 + i * 0x1000
def R.MAC_TX_EXCESS_COL_CNT_CNT (i : Nat) : Fld := ⟨R.MAC_TX_EXCESS_COL_CNT i, 31, 0⟩
/-- R146. -/
def R.MAC_FEC_CORR_CNT (i : Nat) : Nat := 0x301C0 + i * 0x1000
def R.MAC_FEC_CORR_CNT_CNT (i : Nat) : Fld := ⟨R.MAC_FEC_CORR_CNT i, 31, 0⟩
/-- R146. -/
def R.MAC_FEC_UNCORR_CNT (i : Nat) : Nat := 0x301C4 + i * 0x1000
def R.MAC_FEC_UNCORR_CNT_CNT (i : Nat) : Fld := ⟨R.MAC_FEC_UNCORR_CNT i, 31, 0⟩
/-- R146. -/
def R.MAC_LINK_DOWN_CNT (i : Nat) : Nat := 0x301C8 + i * 0x1000
def R.MAC_LINK_DOWN_CNT_CNT (i : Nat) : Fld := ⟨R.MAC_LINK_DOWN_CNT i, 31, 0⟩
/-- R147. -/
def R.MAC_EVT : Nat := 0x38000
def R.MAC_EVT_FAIL : Fld := ⟨R.MAC_EVT, 31, 24⟩
def R.MAC_EVT_RING : Fld := ⟨R.MAC_EVT, 23, 16⟩
def R.MAC_EVT_IDROP : Fld := ⟨R.MAC_EVT, 15, 8⟩
def R.MAC_EVT_LINK : Fld := ⟨R.MAC_EVT, 7, 0⟩
/-- R147. -/
def R.MAC_EVT_EN : Nat := 0x38004
def R.MAC_EVT_EN_EN : Fld := ⟨R.MAC_EVT_EN, 31, 0⟩
/-- R147. -/
def R.MAC_MDIO_CFG : Nat := 0x38010
def R.MAC_MDIO_CFG_NOPRE : Fld := ⟨R.MAC_MDIO_CFG, 10, 10⟩
def R.MAC_MDIO_CFG_DIV : Fld := ⟨R.MAC_MDIO_CFG, 9, 0⟩
/-- R147. -/
def R.MAC_MDIO_CMD : Nat := 0x38014
def R.MAC_MDIO_CMD_GO : Fld := ⟨R.MAC_MDIO_CMD, 31, 31⟩
def R.MAC_MDIO_CMD_CL45 : Fld := ⟨R.MAC_MDIO_CMD, 30, 30⟩
def R.MAC_MDIO_CMD_OP : Fld := ⟨R.MAC_MDIO_CMD, 29, 28⟩
def R.MAC_MDIO_CMD_PHYAD : Fld := ⟨R.MAC_MDIO_CMD, 25, 21⟩
def R.MAC_MDIO_CMD_REGAD : Fld := ⟨R.MAC_MDIO_CMD, 20, 16⟩
def R.MAC_MDIO_CMD_DATA : Fld := ⟨R.MAC_MDIO_CMD, 15, 0⟩
/-- R147. -/
def R.MAC_MDIO_STAT : Nat := 0x38018
def R.MAC_MDIO_STAT_ERR : Fld := ⟨R.MAC_MDIO_STAT, 17, 17⟩
def R.MAC_MDIO_STAT_BUSY : Fld := ⟨R.MAC_MDIO_STAT, 16, 16⟩
def R.MAC_MDIO_STAT_RDATA : Fld := ⟨R.MAC_MDIO_STAT, 15, 0⟩

/-! Names of the QCP registers (05). -/

/-- R191. -/
def R.QCP_CFG : Nat := 0x40000
def R.QCP_CFG_LEASE_MAX : Fld := ⟨R.QCP_CFG, 31, 20⟩
def R.QCP_CFG_ADMIN_RSV : Fld := ⟨R.QCP_CFG, 16, 12⟩
def R.QCP_CFG_OPEN_RATE : Fld := ⟨R.QCP_CFG, 7, 0⟩
/-- R191. -/
def R.QCP_STAT : Nat := 0x40004
def R.QCP_STAT_ON : Fld := ⟨R.QCP_STAT, 24, 16⟩
def R.QCP_STAT_STARTING : Fld := ⟨R.QCP_STAT, 5, 0⟩
/-- R191. -/
def R.QCP_SESS_SEL : Nat := 0x40008
def R.QCP_SESS_SEL_MBOX : Fld := ⟨R.QCP_SESS_SEL, 7, 0⟩
/-- R191. -/
def R.QCP_SESS_INFO0 : Nat := 0x4000C
def R.QCP_SESS_INFO0_GEN : Fld := ⟨R.QCP_SESS_INFO0, 31, 24⟩
def R.QCP_SESS_INFO0_KEYID : Fld := ⟨R.QCP_SESS_INFO0, 23, 20⟩
def R.QCP_SESS_INFO0_ROLE : Fld := ⟨R.QCP_SESS_INFO0, 19, 18⟩
def R.QCP_SESS_INFO0_PORT : Fld := ⟨R.QCP_SESS_INFO0, 17, 15⟩
def R.QCP_SESS_INFO0_STATE : Fld := ⟨R.QCP_SESS_INFO0, 14, 12⟩
def R.QCP_SESS_INFO0_LEASE_LEFT : Fld := ⟨R.QCP_SESS_INFO0, 11, 0⟩
/-- R191. -/
def R.QCP_SESS_INFO1 : Nat := 0x40010
def R.QCP_SESS_INFO1_NEXT_SEQ : Fld := ⟨R.QCP_SESS_INFO1, 31, 0⟩
/-- R191. -/
def R.QCP_SESS_INFO2 : Nat := 0x40014
def R.QCP_SESS_INFO2_CMD_FREE : Fld := ⟨R.QCP_SESS_INFO2, 30, 24⟩
def R.QCP_SESS_INFO2_RPL_FREE : Fld := ⟨R.QCP_SESS_INFO2, 22, 16⟩
def R.QCP_SESS_INFO2_EVT_LEVEL : Fld := ⟨R.QCP_SESS_INFO2, 8, 0⟩
/-- R191. -/
def R.QCP_EVT : Nat := 0x40018
def R.QCP_EVT_JRNL_FAIL : Fld := ⟨R.QCP_EVT, 5, 5⟩
def R.QCP_EVT_OPEN_DROP : Fld := ⟨R.QCP_EVT, 4, 4⟩
def R.QCP_EVT_MZ_REJECT : Fld := ⟨R.QCP_EVT, 3, 3⟩
def R.QCP_EVT_MZ_ACCEPT : Fld := ⟨R.QCP_EVT, 2, 2⟩
def R.QCP_EVT_LEASE_EXP : Fld := ⟨R.QCP_EVT, 1, 1⟩
def R.QCP_EVT_SESS_FULL : Fld := ⟨R.QCP_EVT, 0, 0⟩
/-- R191. -/
def R.QCP_EVT_EN : Nat := 0x4001C
def R.QCP_EVT_EN_EN : Fld := ⟨R.QCP_EVT_EN, 5, 0⟩
/-- R191. -/
def R.QCP_DB_CMD (i : Nat) : Nat := 0x40020 + i * 0x4
def R.QCP_DB_CMD_RING (i : Nat) : Fld := ⟨R.QCP_DB_CMD i, 31, 0⟩
/-- R191. -/
def R.QCP_DB_RPL : Nat := 0x40040
def R.QCP_DB_RPL_MBOX : Fld := ⟨R.QCP_DB_RPL, 7, 0⟩
/-- R191. -/
def R.QCP_MZ_CFG : Nat := 0x40080
def R.QCP_MZ_CFG_BCAST_EN : Fld := ⟨R.QCP_MZ_CFG, 8, 8⟩
def R.QCP_MZ_CFG_PORTS : Fld := ⟨R.QCP_MZ_CFG, 7, 0⟩
/-- R191. -/
def R.QCP_MZ_KEYS : Nat := 0x40084
def R.QCP_MZ_KEYS_EN : Fld := ⟨R.QCP_MZ_KEYS, 15, 8⟩
def R.QCP_MZ_KEYS_LOADED : Fld := ⟨R.QCP_MZ_KEYS, 7, 0⟩
/-- R191. -/
def R.QCP_MZ_FUNC : Nat := 0x40088
def R.QCP_MZ_FUNC_EXPORT : Fld := ⟨R.QCP_MZ_FUNC, 2, 2⟩
def R.QCP_MZ_FUNC_PLAYBACK : Fld := ⟨R.QCP_MZ_FUNC, 1, 1⟩
def R.QCP_MZ_FUNC_MEDIA : Fld := ⟨R.QCP_MZ_FUNC, 0, 0⟩
/-- R191. -/
def R.QCP_MZ_LG_LO : Nat := 0x4008C
def R.QCP_MZ_LG_LO_G : Fld := ⟨R.QCP_MZ_LG_LO, 31, 0⟩
/-- R191. -/
def R.QCP_MZ_LG_HI : Nat := 0x40090
def R.QCP_MZ_LG_HI_G : Fld := ⟨R.QCP_MZ_LG_HI, 31, 0⟩
/-- R191. -/
def R.QCP_MZ_CTR_HI (i : Nat) : Nat := 0x400A0 + i * 0x8
def R.QCP_MZ_CTR_HI_CTR_HI (i : Nat) : Fld := ⟨R.QCP_MZ_CTR_HI i, 15, 0⟩
/-- R191. -/
def R.QCP_MZ_CTR_LO (i : Nat) : Nat := 0x400A4 + i * 0x8
def R.QCP_MZ_CTR_LO_CTR_LO (i : Nat) : Fld := ⟨R.QCP_MZ_CTR_LO i, 31, 0⟩
/-- R192. -/
def R.QCP_RX_CNT : Nat := 0x40100
def R.QCP_RX_CNT_CNT : Fld := ⟨R.QCP_RX_CNT, 31, 0⟩
/-- R192. -/
def R.QCP_TX_CNT : Nat := 0x40104
def R.QCP_TX_CNT_CNT : Fld := ⟨R.QCP_TX_CNT, 31, 0⟩
/-- R192. -/
def R.QCP_MALFORM_CNT : Nat := 0x40108
def R.QCP_MALFORM_CNT_CNT : Fld := ⟨R.QCP_MALFORM_CNT, 31, 0⟩
/-- R192. -/
def R.QCP_DEVMISS_CNT : Nat := 0x4010C
def R.QCP_DEVMISS_CNT_CNT : Fld := ⟨R.QCP_DEVMISS_CNT, 31, 0⟩
/-- R192. -/
def R.QCP_NOSESS_CNT : Nat := 0x40110
def R.QCP_NOSESS_CNT_CNT : Fld := ⟨R.QCP_NOSESS_CNT, 31, 0⟩
/-- R192. -/
def R.QCP_TAGFAIL_CNT : Nat := 0x40114
def R.QCP_TAGFAIL_CNT_CNT : Fld := ⟨R.QCP_TAGFAIL_CNT, 31, 0⟩
/-- R192. -/
def R.QCP_SEQ_CNT : Nat := 0x40118
def R.QCP_SEQ_CNT_CNT : Fld := ⟨R.QCP_SEQ_CNT, 31, 0⟩
/-- R192. -/
def R.QCP_DUP_CNT : Nat := 0x4011C
def R.QCP_DUP_CNT_CNT : Fld := ⟨R.QCP_DUP_CNT, 31, 0⟩
/-- R192. -/
def R.QCP_RING_FULL_CNT : Nat := 0x40120
def R.QCP_RING_FULL_CNT_CNT : Fld := ⟨R.QCP_RING_FULL_CNT, 31, 0⟩
/-- R192. -/
def R.QCP_OPEN_DROP_CNT : Nat := 0x40124
def R.QCP_OPEN_DROP_CNT_CNT : Fld := ⟨R.QCP_OPEN_DROP_CNT, 31, 0⟩
/-- R192. -/
def R.QCP_SESS_FULL_CNT : Nat := 0x40128
def R.QCP_SESS_FULL_CNT_CNT : Fld := ⟨R.QCP_SESS_FULL_CNT, 31, 0⟩
/-- R192. -/
def R.QCP_LEASE_EXP_CNT : Nat := 0x4012C
def R.QCP_LEASE_EXP_CNT_CNT : Fld := ⟨R.QCP_LEASE_EXP_CNT, 31, 0⟩
/-- R192. -/
def R.QCP_EVT_DROP_CNT : Nat := 0x40130
def R.QCP_EVT_DROP_CNT_CNT : Fld := ⟨R.QCP_EVT_DROP_CNT, 31, 0⟩
/-- R192. -/
def R.QCP_JRNL_CNT : Nat := 0x40134
def R.QCP_JRNL_CNT_CNT : Fld := ⟨R.QCP_JRNL_CNT, 31, 0⟩
/-- R192. -/
def R.QCP_JRNL_FAIL_CNT : Nat := 0x40138
def R.QCP_JRNL_FAIL_CNT_CNT : Fld := ⟨R.QCP_JRNL_FAIL_CNT, 31, 0⟩
/-- R192. -/
def R.QCP_MZ_ACC_CNT : Nat := 0x40140
def R.QCP_MZ_ACC_CNT_CNT : Fld := ⟨R.QCP_MZ_ACC_CNT, 31, 0⟩
/-- R192. -/
def R.QCP_MZ_FMT_CNT : Nat := 0x40144
def R.QCP_MZ_FMT_CNT_CNT : Fld := ⟨R.QCP_MZ_FMT_CNT, 31, 0⟩
/-- R192. -/
def R.QCP_MZ_DEV_CNT : Nat := 0x40148
def R.QCP_MZ_DEV_CNT_CNT : Fld := ⟨R.QCP_MZ_DEV_CNT, 31, 0⟩
/-- R192. -/
def R.QCP_MZ_KEY_CNT : Nat := 0x4014C
def R.QCP_MZ_KEY_CNT_CNT : Fld := ⟨R.QCP_MZ_KEY_CNT, 31, 0⟩
/-- R192. -/
def R.QCP_MZ_CTR_CNT : Nat := 0x40150
def R.QCP_MZ_CTR_CNT_CNT : Fld := ⟨R.QCP_MZ_CTR_CNT, 31, 0⟩
/-- R192. -/
def R.QCP_MZ_TAG_CNT : Nat := 0x40154
def R.QCP_MZ_TAG_CNT_CNT : Fld := ⟨R.QCP_MZ_TAG_CNT, 31, 0⟩

/-! Names of the PKE registers (06). -/

/-- R217. -/
def R.PKE_CFG : Nat := 0x50000
def R.PKE_CFG_BYE : Fld := ⟨R.PKE_CFG, 7, 7⟩
def R.PKE_CFG_V4_CSUM0 : Fld := ⟨R.PKE_CFG, 6, 6⟩
def R.PKE_CFG_QINQ : Fld := ⟨R.PKE_CFG, 5, 5⟩
def R.PKE_CFG_SLOW_EN : Fld := ⟨R.PKE_CFG, 4, 4⟩
def R.PKE_CFG_MISS : Fld := ⟨R.PKE_CFG, 1, 0⟩
/-- R217. -/
def R.PKE_SLOW_RATE : Nat := 0x50004
def R.PKE_SLOW_RATE_BURST : Fld := ⟨R.PKE_SLOW_RATE, 31, 24⟩
def R.PKE_SLOW_RATE_PER_MS : Fld := ⟨R.PKE_SLOW_RATE, 15, 0⟩
/-- R217. -/
def R.PKE_UTC_OFS : Nat := 0x50008
def R.PKE_UTC_OFS_S : Fld := ⟨R.PKE_UTC_OFS, 15, 0⟩
/-- R217. -/
def R.PKE_HOLD : Nat := 0x5000C
def R.PKE_HOLD_SSRC_MS : Fld := ⟨R.PKE_HOLD, 31, 16⟩
def R.PKE_HOLD_LATCH_MS : Fld := ⟨R.PKE_HOLD, 15, 0⟩
/-- R217. -/
def R.PKE_BRIDGE : Nat := 0x50010
def R.PKE_BRIDGE_MAP : Fld := ⟨R.PKE_BRIDGE, 15, 0⟩
/-- R217. -/
def R.PKE_FLOW_USED : Nat := 0x50014
def R.PKE_FLOW_USED_USED : Fld := ⟨R.PKE_FLOW_USED, 18, 0⟩
/-- R217. -/
def R.PKE_STASH_USED : Nat := 0x50018
def R.PKE_STASH_USED_USED : Fld := ⟨R.PKE_STASH_USED, 10, 0⟩
/-- R217. -/
def R.PKE_EVT : Nat := 0x50020
def R.PKE_EVT_BYE : Fld := ⟨R.PKE_EVT, 5, 5⟩
def R.PKE_EVT_TX_STALE : Fld := ⟨R.PKE_EVT, 4, 4⟩
def R.PKE_EVT_KEY_EXP : Fld := ⟨R.PKE_EVT, 3, 3⟩
def R.PKE_EVT_SLOW_DROP : Fld := ⟨R.PKE_EVT, 2, 2⟩
def R.PKE_EVT_STASH_FULL : Fld := ⟨R.PKE_EVT, 1, 1⟩
def R.PKE_EVT_AUTH : Fld := ⟨R.PKE_EVT, 0, 0⟩
/-- R217. -/
def R.PKE_EVT_EN : Nat := 0x50024
def R.PKE_EVT_EN_EN : Fld := ⟨R.PKE_EVT_EN, 5, 0⟩
/-- R218. -/
def R.PKE_RX_CNT : Nat := 0x50100
def R.PKE_RX_CNT_CNT : Fld := ⟨R.PKE_RX_CNT, 31, 0⟩
/-- R218. -/
def R.PKE_RTP_CNT : Nat := 0x50104
def R.PKE_RTP_CNT_CNT : Fld := ⟨R.PKE_RTP_CNT, 31, 0⟩
/-- R218. -/
def R.PKE_RTCP_CNT : Nat := 0x50108
def R.PKE_RTCP_CNT_CNT : Fld := ⟨R.PKE_RTCP_CNT, 31, 0⟩
/-- R218. -/
def R.PKE_EVT_RX_CNT : Nat := 0x5010C
def R.PKE_EVT_RX_CNT_CNT : Fld := ⟨R.PKE_EVT_RX_CNT, 31, 0⟩
/-- R218. -/
def R.PKE_PARSE_CNT : Nat := 0x50110
def R.PKE_PARSE_CNT_CNT : Fld := ⟨R.PKE_PARSE_CNT, 31, 0⟩
/-- R218. -/
def R.PKE_CSUM_CNT : Nat := 0x50114
def R.PKE_CSUM_CNT_CNT : Fld := ⟨R.PKE_CSUM_CNT, 31, 0⟩
/-- R218. -/
def R.PKE_MISS_CNT : Nat := 0x50118
def R.PKE_MISS_CNT_CNT : Fld := ⟨R.PKE_MISS_CNT, 31, 0⟩
/-- R218. -/
def R.PKE_ETYPE_CNT : Nat := 0x5011C
def R.PKE_ETYPE_CNT_CNT : Fld := ⟨R.PKE_ETYPE_CNT, 31, 0⟩
/-- R218. -/
def R.PKE_SLOW_CNT : Nat := 0x50120
def R.PKE_SLOW_CNT_CNT : Fld := ⟨R.PKE_SLOW_CNT, 31, 0⟩
/-- R218. -/
def R.PKE_SLOW_DROP_CNT : Nat := 0x50124
def R.PKE_SLOW_DROP_CNT_CNT : Fld := ⟨R.PKE_SLOW_DROP_CNT, 31, 0⟩
/-- R218. -/
def R.PKE_PTP_CNT : Nat := 0x50128
def R.PKE_PTP_CNT_CNT : Fld := ⟨R.PKE_PTP_CNT, 31, 0⟩
/-- R218. -/
def R.PKE_BRIDGE_CNT : Nat := 0x5012C
def R.PKE_BRIDGE_CNT_CNT : Fld := ⟨R.PKE_BRIDGE_CNT, 31, 0⟩
/-- R218. -/
def R.PKE_SRC_CNT : Nat := 0x50130
def R.PKE_SRC_CNT_CNT : Fld := ⟨R.PKE_SRC_CNT, 31, 0⟩
/-- R218. -/
def R.PKE_SSRC_CNT : Nat := 0x50134
def R.PKE_SSRC_CNT_CNT : Fld := ⟨R.PKE_SSRC_CNT, 31, 0⟩
/-- R218. -/
def R.PKE_RTP_BAD_CNT : Nat := 0x50138
def R.PKE_RTP_BAD_CNT_CNT : Fld := ⟨R.PKE_RTP_BAD_CNT, 31, 0⟩
/-- R218. -/
def R.PKE_RTCP_BAD_CNT : Nat := 0x5013C
def R.PKE_RTCP_BAD_CNT_CNT : Fld := ⟨R.PKE_RTCP_BAD_CNT, 31, 0⟩
/-- R218. -/
def R.PKE_AUTH_CNT : Nat := 0x50140
def R.PKE_AUTH_CNT_CNT : Fld := ⟨R.PKE_AUTH_CNT, 31, 0⟩
/-- R218. -/
def R.PKE_REPLAY_CNT : Nat := 0x50144
def R.PKE_REPLAY_CNT_CNT : Fld := ⟨R.PKE_REPLAY_CNT, 31, 0⟩
/-- R218. -/
def R.PKE_KEY_EXP_CNT : Nat := 0x50148
def R.PKE_KEY_EXP_CNT_CNT : Fld := ⟨R.PKE_KEY_EXP_CNT, 31, 0⟩
/-- R218. -/
def R.PKE_EVT_DUP_CNT : Nat := 0x5014C
def R.PKE_EVT_DUP_CNT_CNT : Fld := ⟨R.PKE_EVT_DUP_CNT, 31, 0⟩
/-- R218. -/
def R.PKE_TX_RTP_CNT : Nat := 0x50180
def R.PKE_TX_RTP_CNT_CNT : Fld := ⟨R.PKE_TX_RTP_CNT, 31, 0⟩
/-- R218. -/
def R.PKE_TX_RTCP_CNT : Nat := 0x50184
def R.PKE_TX_RTCP_CNT_CNT : Fld := ⟨R.PKE_TX_RTCP_CNT, 31, 0⟩
/-- R218. -/
def R.PKE_TX_EVT_CNT : Nat := 0x50188
def R.PKE_TX_EVT_CNT_CNT : Fld := ⟨R.PKE_TX_EVT_CNT, 31, 0⟩
/-- R218. -/
def R.PKE_TX_FALLBACK_CNT : Nat := 0x5018C
def R.PKE_TX_FALLBACK_CNT_CNT : Fld := ⟨R.PKE_TX_FALLBACK_CNT, 31, 0⟩
/-- R218. -/
def R.PKE_TX_STALE_CNT : Nat := 0x50190
def R.PKE_TX_STALE_CNT_CNT : Fld := ⟨R.PKE_TX_STALE_CNT, 31, 0⟩
/-- R218. -/
def R.PKE_ROFF_ADJ_CNT : Nat := 0x50194
def R.PKE_ROFF_ADJ_CNT_CNT : Fld := ⟨R.PKE_ROFF_ADJ_CNT, 31, 0⟩
/-- R218. -/
def R.PKE_STASH_FULL_CNT : Nat := 0x50198
def R.PKE_STASH_FULL_CNT_CNT : Fld := ⟨R.PKE_STASH_FULL_CNT, 31, 0⟩

/-! Names of the PLY registers (07). -/

/-- R242. -/
def R.PLY_CFG : Nat := 0x60000
def R.PLY_CFG_CUT_NS : Fld := ⟨R.PLY_CFG, 16, 0⟩
/-- R242. -/
def R.PLY_ADP : Nat := 0x60004
def R.PLY_ADP_WIN : Fld := ⟨R.PLY_ADP, 31, 24⟩
def R.PLY_ADP_MARGIN_US : Fld := ⟨R.PLY_ADP, 23, 12⟩
/-- R242. -/
def R.PLY_SHRINK : Nat := 0x60008
def R.PLY_SHRINK_SHRINK_MS : Fld := ⟨R.PLY_SHRINK, 31, 16⟩
def R.PLY_SHRINK_RESYNC_N : Fld := ⟨R.PLY_SHRINK, 4, 0⟩
/-- R242. -/
def R.PLY_SKEW : Nat := 0x6000C
def R.PLY_SKEW_LIM_PPM : Fld := ⟨R.PLY_SKEW, 31, 16⟩
def R.PLY_SKEW_WIN_S : Fld := ⟨R.PLY_SKEW, 9, 0⟩
/-- R242. -/
def R.PLY_POOL_USED : Nat := 0x60010
def R.PLY_POOL_USED_CELLS : Fld := ⟨R.PLY_POOL_USED, 20, 0⟩
/-- R242. -/
def R.PLY_POOL_PEAK : Nat := 0x60014
def R.PLY_POOL_PEAK_CELLS : Fld := ⟨R.PLY_POOL_PEAK, 20, 0⟩
/-- R242. -/
def R.PLY_CTL : Nat := 0x60018
def R.PLY_CTL_PEAK_CLR : Fld := ⟨R.PLY_CTL, 0, 0⟩
/-- R242. -/
def R.PLY_EVT : Nat := 0x60020
def R.PLY_EVT_SKEW : Fld := ⟨R.PLY_EVT, 3, 3⟩
def R.PLY_EVT_RESYNC : Fld := ⟨R.PLY_EVT, 2, 2⟩
def R.PLY_EVT_POOL_FULL : Fld := ⟨R.PLY_EVT, 1, 1⟩
def R.PLY_EVT_POOL_HIGH : Fld := ⟨R.PLY_EVT, 0, 0⟩
/-- R242. -/
def R.PLY_EVT_EN : Nat := 0x60024
def R.PLY_EVT_EN_EN : Fld := ⟨R.PLY_EVT_EN, 3, 0⟩
/-- R243. -/
def R.PLY_RX_CNT : Nat := 0x60100
def R.PLY_RX_CNT_CNT : Fld := ⟨R.PLY_RX_CNT, 31, 0⟩
/-- R243. -/
def R.PLY_PLAY_CNT : Nat := 0x60104
def R.PLY_PLAY_CNT_CNT : Fld := ⟨R.PLY_PLAY_CNT, 31, 0⟩
/-- R243. -/
def R.PLY_CONCEAL_CNT : Nat := 0x60108
def R.PLY_CONCEAL_CNT_CNT : Fld := ⟨R.PLY_CONCEAL_CNT, 31, 0⟩
/-- R243. -/
def R.PLY_LATE_CNT : Nat := 0x6010C
def R.PLY_LATE_CNT_CNT : Fld := ⟨R.PLY_LATE_CNT, 31, 0⟩
/-- R243. -/
def R.PLY_DUP_CNT : Nat := 0x60110
def R.PLY_DUP_CNT_CNT : Fld := ⟨R.PLY_DUP_CNT, 31, 0⟩
/-- R243. -/
def R.PLY_REORDER_CNT : Nat := 0x60114
def R.PLY_REORDER_CNT_CNT : Fld := ⟨R.PLY_REORDER_CNT, 31, 0⟩
/-- R243. -/
def R.PLY_OOW_CNT : Nat := 0x60118
def R.PLY_OOW_CNT_CNT : Fld := ⟨R.PLY_OOW_CNT, 31, 0⟩
/-- R243. -/
def R.PLY_RESYNC_CNT : Nat := 0x6011C
def R.PLY_RESYNC_CNT_CNT : Fld := ⟨R.PLY_RESYNC_CNT, 31, 0⟩
/-- R243. -/
def R.PLY_POOL_DROP_CNT : Nat := 0x60120
def R.PLY_POOL_DROP_CNT_CNT : Fld := ⟨R.PLY_POOL_DROP_CNT, 31, 0⟩
/-- R243. -/
def R.PLY_GROW_CNT : Nat := 0x60124
def R.PLY_GROW_CNT_CNT : Fld := ⟨R.PLY_GROW_CNT, 31, 0⟩
/-- R243. -/
def R.PLY_SHRINK_CNT : Nat := 0x60128
def R.PLY_SHRINK_CNT_CNT : Fld := ⟨R.PLY_SHRINK_CNT, 31, 0⟩
/-- R243. -/
def R.PLY_SKEW_ADJ_CNT : Nat := 0x6012C
def R.PLY_SKEW_ADJ_CNT_CNT : Fld := ⟨R.PLY_SKEW_ADJ_CNT, 31, 0⟩
/-- R243. -/
def R.PLY_FORCED_CNT : Nat := 0x60130
def R.PLY_FORCED_CNT_CNT : Fld := ⟨R.PLY_FORCED_CNT, 31, 0⟩
/-- R243. -/
def R.PLY_SSRC_FLUSH_CNT : Nat := 0x60134
def R.PLY_SSRC_FLUSH_CNT_CNT : Fld := ⟨R.PLY_SSRC_FLUSH_CNT, 31, 0⟩
/-- R243. -/
def R.PLY_SLIP_DISC_CNT : Nat := 0x60138
def R.PLY_SLIP_DISC_CNT_CNT : Fld := ⟨R.PLY_SLIP_DISC_CNT, 31, 0⟩
/-- R243. -/
def R.PLY_BP_LATE_CNT : Nat := 0x6013C
def R.PLY_BP_LATE_CNT_CNT : Fld := ⟨R.PLY_BP_LATE_CNT, 31, 0⟩

/-! Names of the FCE registers (08). -/

/-- R282. -/
def R.FCE_CFG (i : Nat) : Nat := 0x70000 + i * 0x1000
def R.FCE_CFG_EN (i : Nat) : Fld := ⟨R.FCE_CFG i, 0, 0⟩
/-- R282. -/
def R.FCE_STAT (i : Nat) : Nat := 0x70004 + i * 0x1000
def R.FCE_STAT_TEST (i : Nat) : Fld := ⟨R.FCE_STAT i, 5, 5⟩
def R.FCE_STAT_PEND_EN (i : Nat) : Fld := ⟨R.FCE_STAT i, 4, 4⟩
def R.FCE_STAT_STATE (i : Nat) : Fld := ⟨R.FCE_STAT i, 2, 0⟩
/-- R282. -/
def R.FCE_SLOTS (i : Nat) : Nat := 0x70008 + i * 0x1000
def R.FCE_SLOTS_USED (i : Nat) : Fld := ⟨R.FCE_SLOTS i, 13, 0⟩
/-- R282. -/
def R.FCE_LOAD (i : Nat) : Nat := 0x7000C + i * 0x1000
def R.FCE_LOAD_PEAK (i : Nat) : Fld := ⟨R.FCE_LOAD i, 31, 16⟩
def R.FCE_LOAD_LAST (i : Nat) : Fld := ⟨R.FCE_LOAD i, 15, 0⟩
/-- R282. -/
def R.FCE_CTL (i : Nat) : Nat := 0x70010 + i * 0x1000
def R.FCE_CTL_PEAK_CLR (i : Nat) : Fld := ⟨R.FCE_CTL i, 0, 0⟩
/-- R282. -/
def R.FCE_EVT (i : Nat) : Nat := 0x70014 + i * 0x1000
def R.FCE_EVT_DEADLINE (i : Nat) : Fld := ⟨R.FCE_EVT i, 4, 4⟩
def R.FCE_EVT_FAIL (i : Nat) : Fld := ⟨R.FCE_EVT i, 3, 3⟩
def R.FCE_EVT_DEFER (i : Nat) : Fld := ⟨R.FCE_EVT i, 2, 2⟩
def R.FCE_EVT_LATE (i : Nat) : Fld := ⟨R.FCE_EVT i, 1, 1⟩
def R.FCE_EVT_SAT (i : Nat) : Fld := ⟨R.FCE_EVT i, 0, 0⟩
/-- R282. -/
def R.FCE_EVT_EN (i : Nat) : Nat := 0x70018 + i * 0x1000
def R.FCE_EVT_EN_EN (i : Nat) : Fld := ⟨R.FCE_EVT_EN i, 4, 0⟩
/-- R282. -/
def R.FCE_SLOT_SEL (i : Nat) : Nat := 0x70020 + i * 0x1000
def R.FCE_SLOT_SEL_SLOT (i : Nat) : Fld := ⟨R.FCE_SLOT_SEL i, 12, 0⟩
/-- R282. -/
def R.FCE_SLOT_STAT (i : Nat) : Nat := 0x70024 + i * 0x1000
def R.FCE_SLOT_STAT_VALID (i : Nat) : Fld := ⟨R.FCE_SLOT_STAT i, 31, 31⟩
def R.FCE_SLOT_STAT_LIVE (i : Nat) : Fld := ⟨R.FCE_SLOT_STAT i, 30, 30⟩
def R.FCE_SLOT_STAT_FADING (i : Nat) : Fld := ⟨R.FCE_SLOT_STAT i, 29, 29⟩
def R.FCE_SLOT_STAT_PENDING (i : Nat) : Fld := ⟨R.FCE_SLOT_STAT i, 28, 28⟩
def R.FCE_SLOT_STAT_UNSETTLED (i : Nat) : Fld := ⟨R.FCE_SLOT_STAT i, 27, 27⟩
def R.FCE_SLOT_STAT_FADE_OK (i : Nat) : Fld := ⟨R.FCE_SLOT_STAT i, 26, 26⟩
def R.FCE_SLOT_STAT_NSTAGE (i : Nat) : Fld := ⟨R.FCE_SLOT_STAT i, 25, 22⟩
def R.FCE_SLOT_STAT_IN_RATE (i : Nat) : Fld := ⟨R.FCE_SLOT_STAT i, 21, 20⟩
def R.FCE_SLOT_STAT_OUT_RATE (i : Nat) : Fld := ⟨R.FCE_SLOT_STAT i, 19, 18⟩
def R.FCE_SLOT_STAT_LEG (i : Nat) : Fld := ⟨R.FCE_SLOT_STAT i, 16, 0⟩
/-- R282. -/
def R.FCE_GD_FINE (i : Nat) : Nat := 0x70028 + i * 0x1000
def R.FCE_GD_FINE_G (i : Nat) : Fld := ⟨R.FCE_GD_FINE i, 23, 0⟩
/-- R282. -/
def R.FCE_GD_NS (i : Nat) : Nat := 0x7002C + i * 0x1000
def R.FCE_GD_NS_NS (i : Nat) : Fld := ⟨R.FCE_GD_NS i, 31, 0⟩
/-- R282. -/
def R.FCE_SETTLE (i : Nat) : Nat := 0x70030 + i * 0x1000
def R.FCE_SETTLE_S (i : Nat) : Fld := ⟨R.FCE_SETTLE i, 23, 0⟩
/-- R282. -/
def R.FCE_SUPPR_LEFT (i : Nat) : Nat := 0x70034 + i * 0x1000
def R.FCE_SUPPR_LEFT_LEFT (i : Nat) : Fld := ⟨R.FCE_SUPPR_LEFT i, 23, 0⟩
/-- R282. -/
def R.FCE_PD (i : Nat) : Nat := 0x70038 + i * 0x1000
def R.FCE_PD_EN (i : Nat) : Fld := ⟨R.FCE_PD i, 31, 31⟩
def R.FCE_PD_WHOLE (i : Nat) : Fld := ⟨R.FCE_PD i, 17, 6⟩
def R.FCE_PD_FRAC (i : Nat) : Fld := ⟨R.FCE_PD i, 5, 0⟩
/-- R282. -/
def R.FCE_SWAP_LATE (i : Nat) : Nat := 0x7003C + i * 0x1000
def R.FCE_SWAP_LATE_NS (i : Nat) : Fld := ⟨R.FCE_SWAP_LATE i, 31, 0⟩
/-- R283. -/
def R.FCE_CALL_CNT (i : Nat) : Nat := 0x70100 + i * 0x1000
def R.FCE_CALL_CNT_CNT (i : Nat) : Fld := ⟨R.FCE_CALL_CNT i, 31, 0⟩
/-- R283. -/
def R.FCE_FOREIGN_CNT (i : Nat) : Nat := 0x70104 + i * 0x1000
def R.FCE_FOREIGN_CNT_CNT (i : Nat) : Fld := ⟨R.FCE_FOREIGN_CNT i, 31, 0⟩
/-- R283. -/
def R.FCE_SAT_CNT (i : Nat) : Nat := 0x70108 + i * 0x1000
def R.FCE_SAT_CNT_CNT (i : Nat) : Fld := ⟨R.FCE_SAT_CNT i, 31, 0⟩
/-- R283. -/
def R.FCE_SWAP_CNT (i : Nat) : Nat := 0x7010C + i * 0x1000
def R.FCE_SWAP_CNT_CNT (i : Nat) : Fld := ⟨R.FCE_SWAP_CNT i, 31, 0⟩
/-- R283. -/
def R.FCE_FADE_CNT (i : Nat) : Nat := 0x70110 + i * 0x1000
def R.FCE_FADE_CNT_CNT (i : Nat) : Fld := ⟨R.FCE_FADE_CNT i, 31, 0⟩
/-- R283. -/
def R.FCE_LATE_CNT (i : Nat) : Nat := 0x70114 + i * 0x1000
def R.FCE_LATE_CNT_CNT (i : Nat) : Fld := ⟨R.FCE_LATE_CNT i, 31, 0⟩
/-- R283. -/
def R.FCE_DEFER_CNT (i : Nat) : Nat := 0x70118 + i * 0x1000
def R.FCE_DEFER_CNT_CNT (i : Nat) : Fld := ⟨R.FCE_DEFER_CNT i, 31, 0⟩
/-- R283. -/
def R.FCE_RESET_CNT (i : Nat) : Nat := 0x7011C + i * 0x1000
def R.FCE_RESET_CNT_CNT (i : Nat) : Fld := ⟨R.FCE_RESET_CNT i, 31, 0⟩
/-- R283. -/
def R.FCE_SUPPR_CNT (i : Nat) : Nat := 0x70120 + i * 0x1000
def R.FCE_SUPPR_CNT_CNT (i : Nat) : Fld := ⟨R.FCE_SUPPR_CNT i, 31, 0⟩
/-- R283. -/
def R.FCE_DEADLINE_CNT (i : Nat) : Nat := 0x70124 + i * 0x1000
def R.FCE_DEADLINE_CNT_CNT (i : Nat) : Fld := ⟨R.FCE_DEADLINE_CNT i, 31, 0⟩
/-- R283. -/
def R.FCE_PARITY_CNT (i : Nat) : Nat := 0x70128 + i * 0x1000
def R.FCE_PARITY_CNT_CNT (i : Nat) : Fld := ⟨R.FCE_PARITY_CNT i, 31, 0⟩
/-- R282. -/
def R.FCE_CSTORE (i : Nat) : Nat := 0x70800 + i * 0x1000
def R.FCE_CSTORE_SETS (i : Nat) : Fld := ⟨R.FCE_CSTORE i, 27, 16⟩
def R.FCE_CSTORE_GRAN (i : Nat) : Fld := ⟨R.FCE_CSTORE i, 15, 0⟩

/-! Names of the ECE registers (09). -/

/-- R308. -/
def R.ECE_CFG (i : Nat) : Nat := 0x80000 + i * 0x800
def R.ECE_CFG_EN (i : Nat) : Fld := ⟨R.ECE_CFG i, 0, 0⟩
/-- R308. -/
def R.ECE_STAT (i : Nat) : Nat := 0x80004 + i * 0x800
def R.ECE_STAT_TEST (i : Nat) : Fld := ⟨R.ECE_STAT i, 5, 5⟩
def R.ECE_STAT_PEND_EN (i : Nat) : Fld := ⟨R.ECE_STAT i, 4, 4⟩
def R.ECE_STAT_STATE (i : Nat) : Fld := ⟨R.ECE_STAT i, 2, 0⟩
/-- R308. -/
def R.ECE_LOAD (i : Nat) : Nat := 0x80008 + i * 0x800
def R.ECE_LOAD_PEAK (i : Nat) : Fld := ⟨R.ECE_LOAD i, 31, 16⟩
def R.ECE_LOAD_LAST (i : Nat) : Fld := ⟨R.ECE_LOAD i, 15, 0⟩
/-- R308. -/
def R.ECE_QUEUE (i : Nat) : Nat := 0x8000C + i * 0x800
def R.ECE_QUEUE_PEAK (i : Nat) : Fld := ⟨R.ECE_QUEUE i, 31, 16⟩
def R.ECE_QUEUE_LEVEL (i : Nat) : Fld := ⟨R.ECE_QUEUE i, 15, 0⟩
/-- R308. -/
def R.ECE_CTL (i : Nat) : Nat := 0x80010 + i * 0x800
def R.ECE_CTL_PEAK_CLR (i : Nat) : Fld := ⟨R.ECE_CTL i, 0, 0⟩
/-- R308. -/
def R.ECE_EVT (i : Nat) : Nat := 0x80014 + i * 0x800
def R.ECE_EVT_DEADLINE (i : Nat) : Fld := ⟨R.ECE_EVT i, 4, 4⟩
def R.ECE_EVT_FAIL (i : Nat) : Fld := ⟨R.ECE_EVT i, 3, 3⟩
def R.ECE_EVT_DIVERGE (i : Nat) : Fld := ⟨R.ECE_EVT i, 2, 2⟩
def R.ECE_EVT_ALIGN (i : Nat) : Fld := ⟨R.ECE_EVT i, 1, 1⟩
def R.ECE_EVT_SAT (i : Nat) : Fld := ⟨R.ECE_EVT i, 0, 0⟩
/-- R308. -/
def R.ECE_EVT_EN (i : Nat) : Nat := 0x80018 + i * 0x800
def R.ECE_EVT_EN_EN (i : Nat) : Fld := ⟨R.ECE_EVT_EN i, 4, 0⟩
/-- R309. -/
def R.ECE_CALL_CNT (i : Nat) : Nat := 0x80100 + i * 0x800
def R.ECE_CALL_CNT_CNT (i : Nat) : Fld := ⟨R.ECE_CALL_CNT i, 31, 0⟩
/-- R309. -/
def R.ECE_REMOTE_CNT (i : Nat) : Nat := 0x80104 + i * 0x800
def R.ECE_REMOTE_CNT_CNT (i : Nat) : Fld := ⟨R.ECE_REMOTE_CNT i, 31, 0⟩
/-- R309. -/
def R.ECE_HOLD_CNT (i : Nat) : Nat := 0x80108 + i * 0x800
def R.ECE_HOLD_CNT_CNT (i : Nat) : Fld := ⟨R.ECE_HOLD_CNT i, 31, 0⟩
/-- R309. -/
def R.ECE_DT_CNT (i : Nat) : Nat := 0x8010C + i * 0x800
def R.ECE_DT_CNT_CNT (i : Nat) : Fld := ⟨R.ECE_DT_CNT i, 31, 0⟩
/-- R309. -/
def R.ECE_ALIGN_CNT (i : Nat) : Nat := 0x80110 + i * 0x800
def R.ECE_ALIGN_CNT_CNT (i : Nat) : Fld := ⟨R.ECE_ALIGN_CNT i, 31, 0⟩
/-- R309. -/
def R.ECE_GAP_CNT (i : Nat) : Nat := 0x80114 + i * 0x800
def R.ECE_GAP_CNT_CNT (i : Nat) : Fld := ⟨R.ECE_GAP_CNT i, 31, 0⟩
/-- R309. -/
def R.ECE_RESET_CNT (i : Nat) : Nat := 0x80118 + i * 0x800
def R.ECE_RESET_CNT_CNT (i : Nat) : Fld := ⟨R.ECE_RESET_CNT i, 31, 0⟩
/-- R309. -/
def R.ECE_DIVERGE_CNT (i : Nat) : Nat := 0x8011C + i * 0x800
def R.ECE_DIVERGE_CNT_CNT (i : Nat) : Fld := ⟨R.ECE_DIVERGE_CNT i, 31, 0⟩
/-- R309. -/
def R.ECE_SAT_CNT (i : Nat) : Nat := 0x80120 + i * 0x800
def R.ECE_SAT_CNT_CNT (i : Nat) : Fld := ⟨R.ECE_SAT_CNT i, 31, 0⟩
/-- R309. -/
def R.ECE_DEADLINE_CNT (i : Nat) : Nat := 0x80124 + i * 0x800
def R.ECE_DEADLINE_CNT_CNT (i : Nat) : Fld := ⟨R.ECE_DEADLINE_CNT i, 31, 0⟩
/-- R309. -/
def R.ECE_PARITY_CNT (i : Nat) : Nat := 0x80128 + i * 0x800
def R.ECE_PARITY_CNT_CNT (i : Nat) : Fld := ⟨R.ECE_PARITY_CNT i, 31, 0⟩
/-- R309. -/
def R.ECE_BYPASS_CNT (i : Nat) : Nat := 0x8012C + i * 0x800
def R.ECE_BYPASS_CNT_CNT (i : Nat) : Fld := ⟨R.ECE_BYPASS_CNT i, 31, 0⟩

/-! Names of the KNL registers (11). -/

/-- R367. -/
def R.KNL_CFG : Nat := 0x90000
def R.KNL_CFG_STEAL : Fld := ⟨R.KNL_CFG, 1, 1⟩
def R.KNL_CFG_REFUSE : Fld := ⟨R.KNL_CFG, 0, 0⟩
/-- R367. -/
def R.KNL_STAT : Nat := 0x90004
def R.KNL_STAT_BP : Fld := ⟨R.KNL_STAT, 16, 16⟩
def R.KNL_STAT_CORES : Fld := ⟨R.KNL_STAT, 7, 0⟩
/-- R367. -/
def R.KNL_PRI : Nat := 0x90008
def R.KNL_PRI_REPLAY : Fld := ⟨R.KNL_PRI, 23, 20⟩
def R.KNL_PRI_BG : Fld := ⟨R.KNL_PRI, 19, 16⟩
def R.KNL_PRI_FW : Fld := ⟨R.KNL_PRI, 15, 12⟩
def R.KNL_PRI_REPORT : Fld := ⟨R.KNL_PRI, 11, 8⟩
def R.KNL_PRI_PARCEL : Fld := ⟨R.KNL_PRI, 7, 4⟩
def R.KNL_PRI_FRAME : Fld := ⟨R.KNL_PRI, 3, 0⟩
/-- R367. -/
def R.KNL_PREEMPT : Nat := 0x9000C
def R.KNL_PREEMPT_THR : Fld := ⟨R.KNL_PREEMPT, 4, 0⟩
/-- R367. -/
def R.KNL_ING_WM : Nat := 0x90010
def R.KNL_ING_WM_HI : Fld := ⟨R.KNL_ING_WM, 31, 16⟩
def R.KNL_ING_WM_LO : Fld := ⟨R.KNL_ING_WM, 15, 0⟩
/-- R367. -/
def R.KNL_POOL_FRAME : Nat := 0x90014
def R.KNL_POOL_FRAME_PEAK : Fld := ⟨R.KNL_POOL_FRAME, 30, 16⟩
def R.KNL_POOL_FRAME_USED : Fld := ⟨R.KNL_POOL_FRAME, 14, 0⟩
/-- R367. -/
def R.KNL_POOL_SYS : Nat := 0x90018
def R.KNL_POOL_SYS_PEAK : Fld := ⟨R.KNL_POOL_SYS, 28, 16⟩
def R.KNL_POOL_SYS_USED : Fld := ⟨R.KNL_POOL_SYS, 12, 0⟩
/-- R367. -/
def R.KNL_POOL_SHR : Nat := 0x9001C
def R.KNL_POOL_SHR_USED : Fld := ⟨R.KNL_POOL_SHR, 17, 0⟩
/-- R367. -/
def R.KNL_POOL_SHR_PEAK : Nat := 0x90020
def R.KNL_POOL_SHR_PEAK_PEAK : Fld := ⟨R.KNL_POOL_SHR_PEAK, 17, 0⟩
/-- R367. -/
def R.KNL_CTL : Nat := 0x90024
def R.KNL_CTL_HIST_CLR : Fld := ⟨R.KNL_CTL, 1, 1⟩
def R.KNL_CTL_PEAK_CLR : Fld := ⟨R.KNL_CTL, 0, 0⟩
/-- R367. -/
def R.KNL_DEPTH_SEL : Nat := 0x90028
def R.KNL_DEPTH_SEL_CLUSTER : Fld := ⟨R.KNL_DEPTH_SEL, 6, 4⟩
def R.KNL_DEPTH_SEL_PRI : Fld := ⟨R.KNL_DEPTH_SEL, 3, 0⟩
/-- R367. -/
def R.KNL_DEPTH : Nat := 0x9002C
def R.KNL_DEPTH_LEVEL : Fld := ⟨R.KNL_DEPTH, 18, 0⟩
/-- R367. -/
def R.KNL_ING_SEL : Nat := 0x90030
def R.KNL_ING_SEL_PORT : Fld := ⟨R.KNL_ING_SEL, 5, 3⟩
def R.KNL_ING_SEL_CLASS : Fld := ⟨R.KNL_ING_SEL, 2, 0⟩
/-- R367. -/
def R.KNL_ING_USED : Nat := 0x90034
def R.KNL_ING_USED_BP : Fld := ⟨R.KNL_ING_USED, 31, 31⟩
def R.KNL_ING_USED_USED : Fld := ⟨R.KNL_ING_USED, 17, 0⟩
/-- R367. -/
def R.KNL_HIST_SEL : Nat := 0x90038
def R.KNL_HIST_SEL_ALL : Fld := ⟨R.KNL_HIST_SEL, 4, 4⟩
def R.KNL_HIST_SEL_PRI : Fld := ⟨R.KNL_HIST_SEL, 3, 0⟩
/-- R367. -/
def R.KNL_CORE_SEL : Nat := 0x9003C
def R.KNL_CORE_SEL_CORE : Fld := ⟨R.KNL_CORE_SEL, 6, 0⟩
/-- R367. -/
def R.KNL_CORE_STAT : Nat := 0x90040
def R.KNL_CORE_STAT_STATE : Fld := ⟨R.KNL_CORE_STAT, 31, 29⟩
def R.KNL_CORE_STAT_TASKS : Fld := ⟨R.KNL_CORE_STAT, 28, 16⟩
def R.KNL_CORE_STAT_BUSY : Fld := ⟨R.KNL_CORE_STAT, 11, 0⟩
/-- R367. -/
def R.KNL_STAGE : Nat := 0x90044
def R.KNL_STAGE_PEND : Fld := ⟨R.KNL_STAGE, 17, 0⟩
/-- R367. -/
def R.KNL_STAGE_MARGIN : Nat := 0x90048
def R.KNL_STAGE_MARGIN_NS : Fld := ⟨R.KNL_STAGE_MARGIN, 20, 0⟩
/-- R367. -/
def R.KNL_EVT : Nat := 0x90050
def R.KNL_EVT_GLN_ABORT : Fld := ⟨R.KNL_EVT, 3, 3⟩
def R.KNL_EVT_STAGE_LATE : Fld := ⟨R.KNL_EVT, 2, 2⟩
def R.KNL_EVT_REFUSE : Fld := ⟨R.KNL_EVT, 1, 1⟩
def R.KNL_EVT_BP : Fld := ⟨R.KNL_EVT, 0, 0⟩
/-- R367. -/
def R.KNL_EVT_EN : Nat := 0x90054
def R.KNL_EVT_EN_EN : Fld := ⟨R.KNL_EVT_EN, 3, 0⟩
/-- R367. -/
def R.KNL_HIST (i : Nat) : Nat := 0x90080 + i * 0x4
def R.KNL_HIST_N (i : Nat) : Fld := ⟨R.KNL_HIST i, 31, 0⟩
/-- R368. -/
def R.KNL_CREATE_CNT : Nat := 0x90100
def R.KNL_CREATE_CNT_CNT : Fld := ⟨R.KNL_CREATE_CNT, 31, 0⟩
/-- R368. -/
def R.KNL_DISPATCH_CNT : Nat := 0x90104
def R.KNL_DISPATCH_CNT_CNT : Fld := ⟨R.KNL_DISPATCH_CNT, 31, 0⟩
/-- R368. -/
def R.KNL_PREEMPT_CNT : Nat := 0x90108
def R.KNL_PREEMPT_CNT_CNT : Fld := ⟨R.KNL_PREEMPT_CNT, 31, 0⟩
/-- R368. -/
def R.KNL_BLOCK_CNT : Nat := 0x9010C
def R.KNL_BLOCK_CNT_CNT : Fld := ⟨R.KNL_BLOCK_CNT, 31, 0⟩
/-- R368. -/
def R.KNL_STEAL_CNT : Nat := 0x90110
def R.KNL_STEAL_CNT_CNT : Fld := ⟨R.KNL_STEAL_CNT, 31, 0⟩
/-- R368. -/
def R.KNL_CANCEL_CNT : Nat := 0x90114
def R.KNL_CANCEL_CNT_CNT : Fld := ⟨R.KNL_CANCEL_CNT, 31, 0⟩
/-- R368. -/
def R.KNL_RDYCAN_CNT : Nat := 0x90118
def R.KNL_RDYCAN_CNT_CNT : Fld := ⟨R.KNL_RDYCAN_CNT, 31, 0⟩
/-- R368. -/
def R.KNL_RELEASE_CNT : Nat := 0x9011C
def R.KNL_RELEASE_CNT_CNT : Fld := ⟨R.KNL_RELEASE_CNT, 31, 0⟩
/-- R368. -/
def R.KNL_EMPTY_CNT : Nat := 0x90120
def R.KNL_EMPTY_CNT_CNT : Fld := ⟨R.KNL_EMPTY_CNT, 31, 0⟩
/-- R368. -/
def R.KNL_BP_CNT : Nat := 0x90124
def R.KNL_BP_CNT_CNT : Fld := ⟨R.KNL_BP_CNT, 31, 0⟩
/-- R368. -/
def R.KNL_REFUSE_CNT : Nat := 0x90128
def R.KNL_REFUSE_CNT_CNT : Fld := ⟨R.KNL_REFUSE_CNT, 31, 0⟩
/-- R368. -/
def R.KNL_STAGE_LATE_CNT : Nat := 0x9012C
def R.KNL_STAGE_LATE_CNT_CNT : Fld := ⟨R.KNL_STAGE_LATE_CNT, 31, 0⟩
/-- R368. -/
def R.KNL_GLN_ABORT_CNT : Nat := 0x90130
def R.KNL_GLN_ABORT_CNT_CNT : Fld := ⟨R.KNL_GLN_ABORT_CNT, 31, 0⟩
/-- R368. -/
def R.KNL_BG_HOLD_CNT : Nat := 0x90134
def R.KNL_BG_HOLD_CNT_CNT : Fld := ⟨R.KNL_BG_HOLD_CNT, 31, 0⟩

/-! Names of the MMU registers (12). -/

/-- R401. -/
def R.MMU_HBM : Nat := 0xA0000
def R.MMU_HBM_STACKS : Fld := ⟨R.MMU_HBM, 25, 24⟩
def R.MMU_HBM_LBS_GIB : Fld := ⟨R.MMU_HBM, 23, 16⟩
def R.MMU_HBM_GRN_GIB : Fld := ⟨R.MMU_HBM, 15, 8⟩
def R.MMU_HBM_PAT_GIB : Fld := ⟨R.MMU_HBM, 7, 0⟩
/-- R401. -/
def R.MMU_LOFT : Nat := 0xA0004
def R.MMU_LOFT_FREE_PG : Fld := ⟨R.MMU_LOFT, 31, 16⟩
def R.MMU_LOFT_STAGE_USED : Fld := ⟨R.MMU_LOFT, 13, 0⟩
/-- R401. -/
def R.MMU_STAGE_PEAK : Nat := 0xA0008
def R.MMU_STAGE_PEAK_PEAK : Fld := ⟨R.MMU_STAGE_PEAK, 13, 0⟩
/-- R401. -/
def R.MMU_CTL : Nat := 0xA000C
def R.MMU_CTL_PEAK_CLR : Fld := ⟨R.MMU_CTL, 0, 0⟩
/-- R401. -/
def R.MMU_CTX_SEL : Nat := 0xA0010
def R.MMU_CTX_SEL_CTX : Fld := ⟨R.MMU_CTX_SEL, 11, 0⟩
/-- R401. -/
def R.MMU_CTX_ROOT : Nat := 0xA0014
def R.MMU_CTX_ROOT_ROOT : Fld := ⟨R.MMU_CTX_ROOT, 27, 0⟩
/-- R401. -/
def R.MMU_CTX_CFG : Nat := 0xA0018
def R.MMU_CTX_CFG_VALID : Fld := ⟨R.MMU_CTX_CFG, 31, 31⟩
/-- R401. -/
def R.MMU_INV : Nat := 0xA0020
def R.MMU_INV_GO : Fld := ⟨R.MMU_INV, 31, 31⟩
def R.MMU_INV_BUSY : Fld := ⟨R.MMU_INV, 30, 30⟩
def R.MMU_INV_SCOPE : Fld := ⟨R.MMU_INV, 29, 28⟩
def R.MMU_INV_CTX : Fld := ⟨R.MMU_INV, 11, 0⟩
/-- R401. -/
def R.MMU_INV_VA_HI : Nat := 0xA0024
def R.MMU_INV_VA_HI_VA_HI : Fld := ⟨R.MMU_INV_VA_HI, 15, 0⟩
/-- R401. -/
def R.MMU_INV_VA_LO : Nat := 0xA0028
def R.MMU_INV_VA_LO_VA_LO : Fld := ⟨R.MMU_INV_VA_LO, 31, 12⟩
/-- R401. -/
def R.MMU_MOVE_CTL : Nat := 0xA0030
def R.MMU_MOVE_CTL_GO : Fld := ⟨R.MMU_MOVE_CTL, 31, 31⟩
def R.MMU_MOVE_CTL_BUSY : Fld := ⟨R.MMU_MOVE_CTL, 30, 30⟩
def R.MMU_MOVE_CTL_RESULT : Fld := ⟨R.MMU_MOVE_CTL, 29, 28⟩
def R.MMU_MOVE_CTL_TO : Fld := ⟨R.MMU_MOVE_CTL, 13, 12⟩
def R.MMU_MOVE_CTL_CTX : Fld := ⟨R.MMU_MOVE_CTL, 11, 0⟩
/-- R401. -/
def R.MMU_MOVE_VA_HI : Nat := 0xA0034
def R.MMU_MOVE_VA_HI_VA_HI : Fld := ⟨R.MMU_MOVE_VA_HI, 15, 0⟩
/-- R401. -/
def R.MMU_MOVE_VA_LO : Nat := 0xA0038
def R.MMU_MOVE_VA_LO_VA_LO : Fld := ⟨R.MMU_MOVE_VA_LO, 31, 12⟩
/-- R401. -/
def R.MMU_MOVE_PA_HI : Nat := 0xA003C
def R.MMU_MOVE_PA_HI_PA_HI : Fld := ⟨R.MMU_MOVE_PA_HI, 7, 0⟩
/-- R401. -/
def R.MMU_MOVE_PA_LO : Nat := 0xA0040
def R.MMU_MOVE_PA_LO_PA_LO : Fld := ⟨R.MMU_MOVE_PA_LO, 31, 12⟩
/-- R401. -/
def R.MMU_PARK : Nat := 0xA0050
def R.MMU_PARK_LEVEL : Fld := ⟨R.MMU_PARK, 8, 0⟩
/-- R401. -/
def R.MMU_PARK_SEL : Nat := 0xA0054
def R.MMU_PARK_SEL_RING : Fld := ⟨R.MMU_PARK_SEL, 7, 0⟩
/-- R401. -/
def R.MMU_PARK_INFO : Nat := 0xA0058
def R.MMU_PARK_INFO_PARKED : Fld := ⟨R.MMU_PARK_INFO, 31, 31⟩
def R.MMU_PARK_INFO_CAUSE : Fld := ⟨R.MMU_PARK_INFO, 30, 28⟩
def R.MMU_PARK_INFO_CTX : Fld := ⟨R.MMU_PARK_INFO, 27, 16⟩
def R.MMU_PARK_INFO_INDEX : Fld := ⟨R.MMU_PARK_INFO, 11, 0⟩
/-- R401. -/
def R.MMU_PARK_CTL : Nat := 0xA005C
def R.MMU_PARK_CTL_ABORT : Fld := ⟨R.MMU_PARK_CTL, 1, 1⟩
def R.MMU_PARK_CTL_RESUME : Fld := ⟨R.MMU_PARK_CTL, 0, 0⟩
/-- R401. -/
def R.MMU_RING_SEL : Nat := 0xA0080
def R.MMU_RING_SEL_RING : Fld := ⟨R.MMU_RING_SEL, 7, 0⟩
/-- R401. -/
def R.MMU_RING_CFG : Nat := 0xA0084
def R.MMU_RING_CFG_EN : Fld := ⟨R.MMU_RING_CFG, 31, 31⟩
def R.MMU_RING_CFG_CTX : Fld := ⟨R.MMU_RING_CFG, 27, 16⟩
def R.MMU_RING_CFG_INFLT : Fld := ⟨R.MMU_RING_CFG, 8, 4⟩
def R.MMU_RING_CFG_LOG2 : Fld := ⟨R.MMU_RING_CFG, 3, 0⟩
/-- R401. -/
def R.MMU_RING_DBASE_HI : Nat := 0xA0088
def R.MMU_RING_DBASE_HI_VA_HI : Fld := ⟨R.MMU_RING_DBASE_HI, 15, 0⟩
/-- R401. -/
def R.MMU_RING_DBASE_LO : Nat := 0xA008C
def R.MMU_RING_DBASE_LO_VA_LO : Fld := ⟨R.MMU_RING_DBASE_LO, 31, 5⟩
/-- R401. -/
def R.MMU_RING_CBASE_HI : Nat := 0xA0090
def R.MMU_RING_CBASE_HI_VA_HI : Fld := ⟨R.MMU_RING_CBASE_HI, 15, 0⟩
/-- R401. -/
def R.MMU_RING_CBASE_LO : Nat := 0xA0094
def R.MMU_RING_CBASE_LO_VA_LO : Fld := ⟨R.MMU_RING_CBASE_LO, 31, 5⟩
/-- R401. -/
def R.MMU_RING_HEAD : Nat := 0xA0098
def R.MMU_RING_HEAD_HEAD : Fld := ⟨R.MMU_RING_HEAD, 11, 0⟩
/-- R401. -/
def R.MMU_RING_TAIL : Nat := 0xA009C
def R.MMU_RING_TAIL_TAIL : Fld := ⟨R.MMU_RING_TAIL, 11, 0⟩
/-- R401. -/
def R.MMU_DMA_SEL : Nat := 0xA00A0
def R.MMU_DMA_SEL_ENG : Fld := ⟨R.MMU_DMA_SEL, 4, 0⟩
/-- R401. -/
def R.MMU_DMA_CFG : Nat := 0xA00A4
def R.MMU_DMA_CFG_EN : Fld := ⟨R.MMU_DMA_CFG, 0, 0⟩
/-- R401. -/
def R.MMU_DMA_STAT : Nat := 0xA00A8
def R.MMU_DMA_STAT_INFLT : Fld := ⟨R.MMU_DMA_STAT, 23, 16⟩
def R.MMU_DMA_STAT_TEST : Fld := ⟨R.MMU_DMA_STAT, 5, 5⟩
def R.MMU_DMA_STAT_PEND_EN : Fld := ⟨R.MMU_DMA_STAT, 4, 4⟩
def R.MMU_DMA_STAT_STATE : Fld := ⟨R.MMU_DMA_STAT, 2, 0⟩
/-- R401. -/
def R.MMU_DMA_LOAD : Nat := 0xA00AC
def R.MMU_DMA_LOAD_PEAK : Fld := ⟨R.MMU_DMA_LOAD, 31, 16⟩
def R.MMU_DMA_LOAD_LAST : Fld := ⟨R.MMU_DMA_LOAD, 15, 0⟩
/-- R401. -/
def R.MMU_EVT : Nat := 0xA00C0
def R.MMU_EVT_STAGE_WAIT : Fld := ⟨R.MMU_EVT, 3, 3⟩
def R.MMU_EVT_UNCORR : Fld := ⟨R.MMU_EVT, 2, 2⟩
def R.MMU_EVT_ACCESS : Fld := ⟨R.MMU_EVT, 1, 1⟩
def R.MMU_EVT_PARK : Fld := ⟨R.MMU_EVT, 0, 0⟩
/-- R401. -/
def R.MMU_EVT_EN : Nat := 0xA00C4
def R.MMU_EVT_EN_EN : Fld := ⟨R.MMU_EVT_EN, 3, 0⟩
/-- R402. -/
def R.MMU_CTLB_MISS_CNT (i : Nat) : Nat := 0xA0100 + i * 0x4
def R.MMU_CTLB_MISS_CNT_CNT (i : Nat) : Fld := ⟨R.MMU_CTLB_MISS_CNT i, 31, 0⟩
/-- R402. -/
def R.MMU_UTLB_MISS_CNT : Nat := 0xA0120
def R.MMU_UTLB_MISS_CNT_CNT : Fld := ⟨R.MMU_UTLB_MISS_CNT, 31, 0⟩
/-- R402. -/
def R.MMU_WALK_CNT : Nat := 0xA0124
def R.MMU_WALK_CNT_CNT : Fld := ⟨R.MMU_WALK_CNT, 31, 0⟩
/-- R402. -/
def R.MMU_DESC_CNT : Nat := 0xA0128
def R.MMU_DESC_CNT_CNT : Fld := ⟨R.MMU_DESC_CNT, 31, 0⟩
/-- R402. -/
def R.MMU_PARK_CNT : Nat := 0xA012C
def R.MMU_PARK_CNT_CNT : Fld := ⟨R.MMU_PARK_CNT, 31, 0⟩
/-- R402. -/
def R.MMU_RESUME_CNT : Nat := 0xA0130
def R.MMU_RESUME_CNT_CNT : Fld := ⟨R.MMU_RESUME_CNT, 31, 0⟩
/-- R402. -/
def R.MMU_ABORT_CNT : Nat := 0xA0134
def R.MMU_ABORT_CNT_CNT : Fld := ⟨R.MMU_ABORT_CNT, 31, 0⟩
/-- R402. -/
def R.MMU_CANCEL_CNT : Nat := 0xA0138
def R.MMU_CANCEL_CNT_CNT : Fld := ⟨R.MMU_CANCEL_CNT, 31, 0⟩
/-- R402. -/
def R.MMU_ACCESS_CNT : Nat := 0xA013C
def R.MMU_ACCESS_CNT_CNT : Fld := ⟨R.MMU_ACCESS_CNT, 31, 0⟩
/-- R402. -/
def R.MMU_TRANSIT_CNT : Nat := 0xA0140
def R.MMU_TRANSIT_CNT_CNT : Fld := ⟨R.MMU_TRANSIT_CNT, 31, 0⟩
/-- R402. -/
def R.MMU_STAGE_WAIT_CNT : Nat := 0xA0144
def R.MMU_STAGE_WAIT_CNT_CNT : Fld := ⟨R.MMU_STAGE_WAIT_CNT, 31, 0⟩
/-- R402. -/
def R.MMU_MOVE_CNT : Nat := 0xA0148
def R.MMU_MOVE_CNT_CNT : Fld := ⟨R.MMU_MOVE_CNT, 31, 0⟩
/-- R402. -/
def R.MMU_INV_CNT : Nat := 0xA014C
def R.MMU_INV_CNT_CNT : Fld := ⟨R.MMU_INV_CNT, 31, 0⟩
/-- R402. -/
def R.MMU_UNCORR_CNT : Nat := 0xA0150
def R.MMU_UNCORR_CNT_CNT : Fld := ⟨R.MMU_UNCORR_CNT, 31, 0⟩
/-- R402. -/
def R.MMU_PIN_REFUSE_CNT : Nat := 0xA0154
def R.MMU_PIN_REFUSE_CNT_CNT : Fld := ⟨R.MMU_PIN_REFUSE_CNT, 31, 0⟩
/-- R402. -/
def R.MMU_REMOTE_CNT : Nat := 0xA0158
def R.MMU_REMOTE_CNT_CNT : Fld := ⟨R.MMU_REMOTE_CNT, 31, 0⟩

/-! Names of the FRP registers (13). -/

/-- R428. -/
def R.FRP_CFG : Nat := 0xB0000
def R.FRP_CFG_MARGIN_NS : Fld := ⟨R.FRP_CFG, 31, 16⟩
def R.FRP_CFG_MAX_REPLAY : Fld := ⟨R.FRP_CFG, 2, 1⟩
def R.FRP_CFG_REPLAY_EN : Fld := ⟨R.FRP_CFG, 0, 0⟩
/-- R428. -/
def R.FRP_WDOG : Nat := 0xB0004
def R.FRP_WDOG_MULT : Fld := ⟨R.FRP_WDOG, 31, 24⟩
def R.FRP_WDOG_HANG_NS : Fld := ⟨R.FRP_WDOG, 15, 0⟩
/-- R428. -/
def R.FRP_RSV : Nat := 0xB0008
def R.FRP_RSV_PEAK : Fld := ⟨R.FRP_RSV, 31, 16⟩
def R.FRP_RSV_USED : Fld := ⟨R.FRP_RSV, 15, 0⟩
/-- R428. -/
def R.FRP_LOG : Nat := 0xB000C
def R.FRP_LOG_PEAK : Fld := ⟨R.FRP_LOG, 31, 16⟩
def R.FRP_LOG_USED : Fld := ⟨R.FRP_LOG, 15, 0⟩
/-- R428. -/
def R.FRP_CTL : Nat := 0xB0010
def R.FRP_CTL_PEAK_CLR : Fld := ⟨R.FRP_CTL, 0, 0⟩
/-- R428. -/
def R.FRP_STAT : Nat := 0xB0014
def R.FRP_STAT_REPLAYING : Fld := ⟨R.FRP_STAT, 15, 8⟩
def R.FRP_STAT_REC_LEVEL : Fld := ⟨R.FRP_STAT, 6, 0⟩
/-- R428. -/
def R.FRP_REC_POP : Nat := 0xB0018
def R.FRP_REC_POP_LEFT : Fld := ⟨R.FRP_REC_POP, 7, 1⟩
def R.FRP_REC_POP_VALID : Fld := ⟨R.FRP_REC_POP, 0, 0⟩
/-- R428. -/
def R.FRP_BOOT : Nat := 0xB001C
def R.FRP_BOOT_BOOT : Fld := ⟨R.FRP_BOOT, 31, 0⟩
/-- R428. -/
def R.FRP_REC (i : Nat) : Nat := 0xB0020 + i * 0x4
def R.FRP_REC_W (i : Nat) : Fld := ⟨R.FRP_REC i, 31, 0⟩
/-- R428. -/
def R.FRP_EVT : Nat := 0xB0050
def R.FRP_EVT_RESTORE_REFUSE : Fld := ⟨R.FRP_EVT, 6, 6⟩
def R.FRP_EVT_REC_DROP : Fld := ⟨R.FRP_EVT, 5, 5⟩
def R.FRP_EVT_RSV_FULL : Fld := ⟨R.FRP_EVT, 4, 4⟩
def R.FRP_EVT_LOG_FULL : Fld := ⟨R.FRP_EVT, 3, 3⟩
def R.FRP_EVT_RECREATE : Fld := ⟨R.FRP_EVT, 2, 2⟩
def R.FRP_EVT_FALLBACK : Fld := ⟨R.FRP_EVT, 1, 1⟩
def R.FRP_EVT_FAULT : Fld := ⟨R.FRP_EVT, 0, 0⟩
/-- R428. -/
def R.FRP_EVT_EN : Nat := 0xB0054
def R.FRP_EVT_EN_EN : Fld := ⟨R.FRP_EVT_EN, 6, 0⟩
/-- R429. -/
def R.FRP_FAULT_CNT : Nat := 0xB0100
def R.FRP_FAULT_CNT_CNT : Fld := ⟨R.FRP_FAULT_CNT, 31, 0⟩
/-- R429. -/
def R.FRP_REPLAY_CNT : Nat := 0xB0104
def R.FRP_REPLAY_CNT_CNT : Fld := ⟨R.FRP_REPLAY_CNT, 31, 0⟩
/-- R429. -/
def R.FRP_REPLAY_OK_CNT : Nat := 0xB0108
def R.FRP_REPLAY_OK_CNT_CNT : Fld := ⟨R.FRP_REPLAY_OK_CNT, 31, 0⟩
/-- R429. -/
def R.FRP_FALLBACK_CNT : Nat := 0xB010C
def R.FRP_FALLBACK_CNT_CNT : Fld := ⟨R.FRP_FALLBACK_CNT, 31, 0⟩
/-- R429. -/
def R.FRP_RECREATE_CNT : Nat := 0xB0110
def R.FRP_RECREATE_CNT_CNT : Fld := ⟨R.FRP_RECREATE_CNT, 31, 0⟩
/-- R429. -/
def R.FRP_LOG_FULL_CNT : Nat := 0xB0114
def R.FRP_LOG_FULL_CNT_CNT : Fld := ⟨R.FRP_LOG_FULL_CNT, 31, 0⟩
/-- R429. -/
def R.FRP_RSV_FULL_CNT : Nat := 0xB0118
def R.FRP_RSV_FULL_CNT_CNT : Fld := ⟨R.FRP_RSV_FULL_CNT, 31, 0⟩
/-- R429. -/
def R.FRP_REC_DROP_CNT : Nat := 0xB011C
def R.FRP_REC_DROP_CNT_CNT : Fld := ⟨R.FRP_REC_DROP_CNT, 31, 0⟩
/-- R429. -/
def R.FRP_RESTORE_CNT : Nat := 0xB0120
def R.FRP_RESTORE_CNT_CNT : Fld := ⟨R.FRP_RESTORE_CNT, 31, 0⟩
/-- R429. -/
def R.FRP_RESTORE_REFUSE_CNT : Nat := 0xB0124
def R.FRP_RESTORE_REFUSE_CNT_CNT : Fld := ⟨R.FRP_RESTORE_REFUSE_CNT, 31, 0⟩

/-! Names of the TND registers (14). -/

/-- R455. -/
def R.TND_CFG : Nat := 0xC0000
def R.TND_CFG_MAX_HOPS : Fld := ⟨R.TND_CFG, 31, 24⟩
def R.TND_CFG_DOMAIN : Fld := ⟨R.TND_CFG, 23, 16⟩
def R.TND_CFG_DEVNO : Fld := ⟨R.TND_CFG, 11, 0⟩
/-- R455. -/
def R.TND_STAT : Nat := 0xC0004
def R.TND_STAT_RING_FAILED : Fld := ⟨R.TND_STAT, 16, 16⟩
def R.TND_STAT_LINK : Fld := ⟨R.TND_STAT, 15, 0⟩
/-- R455. -/
def R.TND_WIN : Nat := 0xC0008
def R.TND_WIN_NS : Fld := ⟨R.TND_WIN, 16, 0⟩
/-- R455. -/
def R.TND_PORT_BUD : Nat := 0xC000C
def R.TND_PORT_BUD_KIB : Fld := ⟨R.TND_PORT_BUD, 9, 0⟩
/-- R455. -/
def R.TND_RING : Nat := 0xC0010
def R.TND_RING_EN : Fld := ⟨R.TND_RING, 31, 31⟩
def R.TND_RING_PORT_A : Fld := ⟨R.TND_RING, 26, 24⟩
def R.TND_RING_PORT_B : Fld := ⟨R.TND_RING, 22, 20⟩
def R.TND_RING_BLOCK : Fld := ⟨R.TND_RING, 17, 16⟩
/-- R455. -/
def R.TND_HELLO : Nat := 0xC0014
def R.TND_HELLO_MISS : Fld := ⟨R.TND_HELLO, 3, 0⟩
/-- R455. -/
def R.TND_MAC_HI : Nat := 0xC0018
def R.TND_MAC_HI_MAC_HI : Fld := ⟨R.TND_MAC_HI, 15, 0⟩
/-- R455. -/
def R.TND_MAC_LO : Nat := 0xC001C
def R.TND_MAC_LO_MAC_LO : Fld := ⟨R.TND_MAC_LO, 31, 0⟩
/-- R455. -/
def R.TND_ROUTE_SEL : Nat := 0xC0020
def R.TND_ROUTE_SEL_DEV : Fld := ⟨R.TND_ROUTE_SEL, 11, 0⟩
/-- R455. -/
def R.TND_ROUTE_PRI : Nat := 0xC0024
def R.TND_ROUTE_PRI_VALID : Fld := ⟨R.TND_ROUTE_PRI, 31, 31⟩
def R.TND_ROUTE_PRI_ACTIVE : Fld := ⟨R.TND_ROUTE_PRI, 30, 30⟩
def R.TND_ROUTE_PRI_PORT : Fld := ⟨R.TND_ROUTE_PRI, 26, 24⟩
def R.TND_ROUTE_PRI_HOPS : Fld := ⟨R.TND_ROUTE_PRI, 23, 16⟩
def R.TND_ROUTE_PRI_WIRE : Fld := ⟨R.TND_ROUTE_PRI, 15, 0⟩
/-- R455. -/
def R.TND_ROUTE_ALT : Nat := 0xC0028
def R.TND_ROUTE_ALT_VALID : Fld := ⟨R.TND_ROUTE_ALT, 31, 31⟩
def R.TND_ROUTE_ALT_ACTIVE : Fld := ⟨R.TND_ROUTE_ALT, 30, 30⟩
def R.TND_ROUTE_ALT_PORT : Fld := ⟨R.TND_ROUTE_ALT, 26, 24⟩
def R.TND_ROUTE_ALT_HOPS : Fld := ⟨R.TND_ROUTE_ALT, 23, 16⟩
def R.TND_ROUTE_ALT_WIRE : Fld := ⟨R.TND_ROUTE_ALT, 15, 0⟩
/-- R455. -/
def R.TND_EVT : Nat := 0xC0030
def R.TND_EVT_TX_LATE : Fld := ⟨R.TND_EVT, 5, 5⟩
def R.TND_EVT_MIGRATE_FAIL : Fld := ⟨R.TND_EVT, 4, 4⟩
def R.TND_EVT_MISMATCH : Fld := ⟨R.TND_EVT, 3, 3⟩
def R.TND_EVT_LATE : Fld := ⟨R.TND_EVT, 2, 2⟩
def R.TND_EVT_FAILOVER : Fld := ⟨R.TND_EVT, 1, 1⟩
def R.TND_EVT_LINK : Fld := ⟨R.TND_EVT, 0, 0⟩
/-- R455. -/
def R.TND_EVT_EN : Nat := 0xC0034
def R.TND_EVT_EN_EN : Fld := ⟨R.TND_EVT_EN, 5, 0⟩
/-- R456. -/
def R.TND_TX_PARCEL_CNT : Nat := 0xC0100
def R.TND_TX_PARCEL_CNT_CNT : Fld := ⟨R.TND_TX_PARCEL_CNT, 31, 0⟩
/-- R456. -/
def R.TND_RX_PARCEL_CNT : Nat := 0xC0104
def R.TND_RX_PARCEL_CNT_CNT : Fld := ⟨R.TND_RX_PARCEL_CNT, 31, 0⟩
/-- R456. -/
def R.TND_TRANSIT_CNT : Nat := 0xC0108
def R.TND_TRANSIT_CNT_CNT : Fld := ⟨R.TND_TRANSIT_CNT, 31, 0⟩
/-- R456. -/
def R.TND_LATE_CNT : Nat := 0xC010C
def R.TND_LATE_CNT_CNT : Fld := ⟨R.TND_LATE_CNT, 31, 0⟩
/-- R456. -/
def R.TND_EARLY_CNT : Nat := 0xC0110
def R.TND_EARLY_CNT_CNT : Fld := ⟨R.TND_EARLY_CNT, 31, 0⟩
/-- R456. -/
def R.TND_CRC_CNT : Nat := 0xC0114
def R.TND_CRC_CNT_CNT : Fld := ⟨R.TND_CRC_CNT, 31, 0⟩
/-- R456. -/
def R.TND_DOMAIN_CNT : Nat := 0xC0118
def R.TND_DOMAIN_CNT_CNT : Fld := ⟨R.TND_DOMAIN_CNT, 31, 0⟩
/-- R456. -/
def R.TND_NOROUTE_CNT : Nat := 0xC011C
def R.TND_NOROUTE_CNT_CNT : Fld := ⟨R.TND_NOROUTE_CNT, 31, 0⟩
/-- R456. -/
def R.TND_HOPS_CNT : Nat := 0xC0120
def R.TND_HOPS_CNT_CNT : Fld := ⟨R.TND_HOPS_CNT, 31, 0⟩
/-- R456. -/
def R.TND_MISSING_CNT : Nat := 0xC0124
def R.TND_MISSING_CNT_CNT : Fld := ⟨R.TND_MISSING_CNT, 31, 0⟩
/-- R456. -/
def R.TND_TX_LATE_CNT : Nat := 0xC0128
def R.TND_TX_LATE_CNT_CNT : Fld := ⟨R.TND_TX_LATE_CNT, 31, 0⟩
/-- R456. -/
def R.TND_FAILOVER_CNT : Nat := 0xC012C
def R.TND_FAILOVER_CNT_CNT : Fld := ⟨R.TND_FAILOVER_CNT, 31, 0⟩
/-- R456. -/
def R.TND_MIGRATE_CNT : Nat := 0xC0130
def R.TND_MIGRATE_CNT_CNT : Fld := ⟨R.TND_MIGRATE_CNT, 31, 0⟩
/-- R456. -/
def R.TND_UNPACK_LATE_CNT : Nat := 0xC0134
def R.TND_UNPACK_LATE_CNT_CNT : Fld := ⟨R.TND_UNPACK_LATE_CNT, 31, 0⟩

/-! Names of the GRN registers (15). -/

/-- R483. -/
def R.GRN_SPACE : Nat := 0xD0000
def R.GRN_SPACE_TOTAL : Fld := ⟨R.GRN_SPACE, 31, 16⟩
def R.GRN_SPACE_FREE : Fld := ⟨R.GRN_SPACE, 15, 0⟩
/-- R483. -/
def R.GRN_PSPACE : Nat := 0xD0004
def R.GRN_PSPACE_TOTAL : Fld := ⟨R.GRN_PSPACE, 31, 16⟩
def R.GRN_PSPACE_FREE : Fld := ⟨R.GRN_PSPACE, 15, 0⟩
/-- R483. -/
def R.GRN_EXP_RATE : Nat := 0xD0008
def R.GRN_EXP_RATE_MBPS : Fld := ⟨R.GRN_EXP_RATE, 16, 0⟩
/-- R483. -/
def R.GRN_SEL : Nat := 0xD000C
def R.GRN_SEL_PLAYER : Fld := ⟨R.GRN_SEL, 15, 10⟩
def R.GRN_SEL_RKIND : Fld := ⟨R.GRN_SEL, 9, 9⟩
def R.GRN_SEL_RING : Fld := ⟨R.GRN_SEL, 8, 5⟩
def R.GRN_SEL_CAPT : Fld := ⟨R.GRN_SEL, 3, 0⟩
/-- R483. -/
def R.GRN_CAP_STAT : Nat := 0xD0010
def R.GRN_CAP_STAT_END : Fld := ⟨R.GRN_CAP_STAT, 15, 13⟩
def R.GRN_CAP_STAT_BALED : Fld := ⟨R.GRN_CAP_STAT, 12, 12⟩
def R.GRN_CAP_STAT_MODE : Fld := ⟨R.GRN_CAP_STAT, 11, 11⟩
def R.GRN_CAP_STAT_PRE_SHORT : Fld := ⟨R.GRN_CAP_STAT, 10, 10⟩
def R.GRN_CAP_STAT_LATE : Fld := ⟨R.GRN_CAP_STAT, 9, 9⟩
def R.GRN_CAP_STAT_TRIG : Fld := ⟨R.GRN_CAP_STAT, 8, 8⟩
def R.GRN_CAP_STAT_PEND_EN : Fld := ⟨R.GRN_CAP_STAT, 4, 4⟩
def R.GRN_CAP_STAT_STATE : Fld := ⟨R.GRN_CAP_STAT, 2, 0⟩
/-- R483. -/
def R.GRN_CAP_STRM_HI : Nat := 0xD0014
def R.GRN_CAP_STRM_HI_HI : Fld := ⟨R.GRN_CAP_STRM_HI, 31, 0⟩
/-- R483. -/
def R.GRN_CAP_STRM_LO : Nat := 0xD0018
def R.GRN_CAP_STRM_LO_LO : Fld := ⟨R.GRN_CAP_STRM_LO, 31, 0⟩
/-- R483. -/
def R.GRN_CAP_BUF : Nat := 0xD001C
def R.GRN_CAP_BUF_MIB : Fld := ⟨R.GRN_CAP_BUF, 15, 0⟩
/-- R483. -/
def R.GRN_RING_STAT : Nat := 0xD0020
def R.GRN_RING_STAT_OPEN : Fld := ⟨R.GRN_RING_STAT, 31, 31⟩
def R.GRN_RING_STAT_LEVEL : Fld := ⟨R.GRN_RING_STAT, 28, 12⟩
def R.GRN_RING_STAT_PEND_EN : Fld := ⟨R.GRN_RING_STAT, 4, 4⟩
def R.GRN_RING_STAT_STATE : Fld := ⟨R.GRN_RING_STAT, 2, 0⟩
/-- R483. -/
def R.GRN_PLY_STAT : Nat := 0xD0024
def R.GRN_PLY_STAT_DONE : Fld := ⟨R.GRN_PLY_STAT, 31, 16⟩
def R.GRN_PLY_STAT_LATE : Fld := ⟨R.GRN_PLY_STAT, 5, 5⟩
def R.GRN_PLY_STAT_PEND_EN : Fld := ⟨R.GRN_PLY_STAT, 4, 4⟩
def R.GRN_PLY_STAT_STATE : Fld := ⟨R.GRN_PLY_STAT, 2, 0⟩
/-- R483. -/
def R.GRN_PLY_LATE : Nat := 0xD0028
def R.GRN_PLY_LATE_NS : Fld := ⟨R.GRN_PLY_LATE, 31, 0⟩
/-- R483. -/
def R.GRN_EVT : Nat := 0xD0030
def R.GRN_EVT_RING_DROP : Fld := ⟨R.GRN_EVT, 7, 7⟩
def R.GRN_EVT_INJ_LATE : Fld := ⟨R.GRN_EVT, 6, 6⟩
def R.GRN_EVT_PLAY_END : Fld := ⟨R.GRN_EVT, 5, 5⟩
def R.GRN_EVT_PLAY_LATE : Fld := ⟨R.GRN_EVT, 4, 4⟩
def R.GRN_EVT_EXP_LOST : Fld := ⟨R.GRN_EVT, 3, 3⟩
def R.GRN_EVT_CAP_DROP : Fld := ⟨R.GRN_EVT, 2, 2⟩
def R.GRN_EVT_CAP_END : Fld := ⟨R.GRN_EVT, 1, 1⟩
def R.GRN_EVT_TRIG : Fld := ⟨R.GRN_EVT, 0, 0⟩
/-- R483. -/
def R.GRN_EVT_EN : Nat := 0xD0034
def R.GRN_EVT_EN_EN : Fld := ⟨R.GRN_EVT_EN, 7, 0⟩
/-- R484. -/
def R.GRN_REC_CNT : Nat := 0xD0100
def R.GRN_REC_CNT_CNT : Fld := ⟨R.GRN_REC_CNT, 31, 0⟩
/-- R484. -/
def R.GRN_REC_DROP_CNT : Nat := 0xD0104
def R.GRN_REC_DROP_CNT_CNT : Fld := ⟨R.GRN_REC_DROP_CNT, 31, 0⟩
/-- R484. -/
def R.GRN_TRIG_CNT : Nat := 0xD0108
def R.GRN_TRIG_CNT_CNT : Fld := ⟨R.GRN_TRIG_CNT, 31, 0⟩
/-- R484. -/
def R.GRN_TRIG_EXTRA_CNT : Nat := 0xD010C
def R.GRN_TRIG_EXTRA_CNT_CNT : Fld := ⟨R.GRN_TRIG_EXTRA_CNT, 31, 0⟩
/-- R484. -/
def R.GRN_EXP_FRM_CNT : Nat := 0xD0110
def R.GRN_EXP_FRM_CNT_CNT : Fld := ⟨R.GRN_EXP_FRM_CNT, 31, 0⟩
/-- R484. -/
def R.GRN_EXP_LOST_CNT : Nat := 0xD0114
def R.GRN_EXP_LOST_CNT_CNT : Fld := ⟨R.GRN_EXP_LOST_CNT, 31, 0⟩
/-- R484. -/
def R.GRN_TAP_ENT_CNT : Nat := 0xD0118
def R.GRN_TAP_ENT_CNT_CNT : Fld := ⟨R.GRN_TAP_ENT_CNT, 31, 0⟩
/-- R484. -/
def R.GRN_INJ_ENT_CNT : Nat := 0xD011C
def R.GRN_INJ_ENT_CNT_CNT : Fld := ⟨R.GRN_INJ_ENT_CNT, 31, 0⟩
/-- R484. -/
def R.GRN_INJ_LATE_CNT : Nat := 0xD0120
def R.GRN_INJ_LATE_CNT_CNT : Fld := ⟨R.GRN_INJ_LATE_CNT, 31, 0⟩
/-- R484. -/
def R.GRN_INJ_DROP_CNT : Nat := 0xD0124
def R.GRN_INJ_DROP_CNT_CNT : Fld := ⟨R.GRN_INJ_DROP_CNT, 31, 0⟩
/-- R484. -/
def R.GRN_PLAY_ITEM_CNT : Nat := 0xD0128
def R.GRN_PLAY_ITEM_CNT_CNT : Fld := ⟨R.GRN_PLAY_ITEM_CNT, 31, 0⟩
/-- R484. -/
def R.GRN_PLAY_LATE_CNT : Nat := 0xD012C
def R.GRN_PLAY_LATE_CNT_CNT : Fld := ⟨R.GRN_PLAY_LATE_CNT, 31, 0⟩
/-- R484. -/
def R.GRN_PLAY_SKIP_CNT : Nat := 0xD0130
def R.GRN_PLAY_SKIP_CNT_CNT : Fld := ⟨R.GRN_PLAY_SKIP_CNT, 31, 0⟩

/-! Names of the BAL registers (16). -/

/-- R501. -/
def R.BAL_CFG : Nat := 0xE0000
def R.BAL_CFG_EN : Fld := ⟨R.BAL_CFG, 3, 0⟩
/-- R501. -/
def R.BAL_CTL : Nat := 0xE0004
def R.BAL_CTL_PEAK_CLR : Fld := ⟨R.BAL_CTL, 0, 0⟩
/-- R501. -/
def R.BAL_ENG_STAT (i : Nat) : Nat := 0xE0010 + i * 0x4
def R.BAL_ENG_STAT_QUEUE (i : Nat) : Fld := ⟨R.BAL_ENG_STAT i, 15, 8⟩
def R.BAL_ENG_STAT_TEST (i : Nat) : Fld := ⟨R.BAL_ENG_STAT i, 5, 5⟩
def R.BAL_ENG_STAT_PEND_EN (i : Nat) : Fld := ⟨R.BAL_ENG_STAT i, 4, 4⟩
def R.BAL_ENG_STAT_STATE (i : Nat) : Fld := ⟨R.BAL_ENG_STAT i, 2, 0⟩
/-- R501. -/
def R.BAL_LOAD (i : Nat) : Nat := 0xE0020 + i * 0x4
def R.BAL_LOAD_PEAK (i : Nat) : Fld := ⟨R.BAL_LOAD i, 31, 16⟩
def R.BAL_LOAD_LAST (i : Nat) : Fld := ⟨R.BAL_LOAD i, 15, 0⟩
/-- R501. -/
def R.BAL_RING_SEL : Nat := 0xE0040
def R.BAL_RING_SEL_RING : Fld := ⟨R.BAL_RING_SEL, 1, 0⟩
/-- R501. -/
def R.BAL_RING_CFG : Nat := 0xE0044
def R.BAL_RING_CFG_EN : Fld := ⟨R.BAL_RING_CFG, 31, 31⟩
def R.BAL_RING_CFG_CTX : Fld := ⟨R.BAL_RING_CFG, 27, 16⟩
def R.BAL_RING_CFG_INFLT : Fld := ⟨R.BAL_RING_CFG, 8, 4⟩
def R.BAL_RING_CFG_LOG2 : Fld := ⟨R.BAL_RING_CFG, 3, 0⟩
/-- R501. -/
def R.BAL_RING_DBASE_HI : Nat := 0xE0048
def R.BAL_RING_DBASE_HI_VA_HI : Fld := ⟨R.BAL_RING_DBASE_HI, 15, 0⟩
/-- R501. -/
def R.BAL_RING_DBASE_LO : Nat := 0xE004C
def R.BAL_RING_DBASE_LO_VA_LO : Fld := ⟨R.BAL_RING_DBASE_LO, 31, 5⟩
/-- R501. -/
def R.BAL_RING_CBASE_HI : Nat := 0xE0050
def R.BAL_RING_CBASE_HI_VA_HI : Fld := ⟨R.BAL_RING_CBASE_HI, 15, 0⟩
/-- R501. -/
def R.BAL_RING_CBASE_LO : Nat := 0xE0054
def R.BAL_RING_CBASE_LO_VA_LO : Fld := ⟨R.BAL_RING_CBASE_LO, 31, 5⟩
/-- R501. -/
def R.BAL_RING_HEAD : Nat := 0xE0058
def R.BAL_RING_HEAD_HEAD : Fld := ⟨R.BAL_RING_HEAD, 11, 0⟩
/-- R501. -/
def R.BAL_RING_TAIL : Nat := 0xE005C
def R.BAL_RING_TAIL_TAIL : Fld := ⟨R.BAL_RING_TAIL, 11, 0⟩
/-- R501. -/
def R.BAL_EVT : Nat := 0xE0060
def R.BAL_EVT_FAIL : Fld := ⟨R.BAL_EVT, 4, 4⟩
def R.BAL_EVT_DATA_ERR : Fld := ⟨R.BAL_EVT, 3, 3⟩
def R.BAL_EVT_CRC_FAIL : Fld := ⟨R.BAL_EVT, 2, 2⟩
def R.BAL_EVT_VFY_FAIL : Fld := ⟨R.BAL_EVT, 1, 1⟩
def R.BAL_EVT_STOP : Fld := ⟨R.BAL_EVT, 0, 0⟩
/-- R501. -/
def R.BAL_EVT_EN : Nat := 0xE0064
def R.BAL_EVT_EN_EN : Fld := ⟨R.BAL_EVT_EN, 4, 0⟩
/-- R502. -/
def R.BAL_JOB_CNT : Nat := 0xE0100
def R.BAL_JOB_CNT_CNT : Fld := ⟨R.BAL_JOB_CNT, 31, 0⟩
/-- R502. -/
def R.BAL_IN_KIB_CNT : Nat := 0xE0104
def R.BAL_IN_KIB_CNT_CNT : Fld := ⟨R.BAL_IN_KIB_CNT, 31, 0⟩
/-- R502. -/
def R.BAL_OUT_KIB_CNT : Nat := 0xE0108
def R.BAL_OUT_KIB_CNT_CNT : Fld := ⟨R.BAL_OUT_KIB_CNT, 31, 0⟩
/-- R502. -/
def R.BAL_STORED_CNT : Nat := 0xE010C
def R.BAL_STORED_CNT_CNT : Fld := ⟨R.BAL_STORED_CNT, 31, 0⟩
/-- R502. -/
def R.BAL_VFY_FAIL_CNT : Nat := 0xE0110
def R.BAL_VFY_FAIL_CNT_CNT : Fld := ⟨R.BAL_VFY_FAIL_CNT, 31, 0⟩
/-- R502. -/
def R.BAL_CRC_FAIL_CNT : Nat := 0xE0114
def R.BAL_CRC_FAIL_CNT_CNT : Fld := ⟨R.BAL_CRC_FAIL_CNT, 31, 0⟩
/-- R502. -/
def R.BAL_DATA_ERR_CNT : Nat := 0xE0118
def R.BAL_DATA_ERR_CNT_CNT : Fld := ⟨R.BAL_DATA_ERR_CNT, 31, 0⟩
/-- R502. -/
def R.BAL_STOP_CNT : Nat := 0xE011C
def R.BAL_STOP_CNT_CNT : Fld := ⟨R.BAL_STOP_CNT, 31, 0⟩
/-- R502. -/
def R.BAL_RESUME_CNT : Nat := 0xE0120
def R.BAL_RESUME_CNT_CNT : Fld := ⟨R.BAL_RESUME_CNT, 31, 0⟩
/-- R502. -/
def R.BAL_PARITY_CNT : Nat := 0xE0124
def R.BAL_PARITY_CNT_CNT : Fld := ⟨R.BAL_PARITY_CNT, 31, 0⟩

/-! Names of the GLN registers (17). -/

/-- R530. -/
def R.GLN_CFG : Nat := 0xF0000
def R.GLN_CFG_MEM_SL : Fld := ⟨R.GLN_CFG, 23, 20⟩
def R.GLN_CFG_ENG_SL : Fld := ⟨R.GLN_CFG, 19, 16⟩
def R.GLN_CFG_CORE_SL : Fld := ⟨R.GLN_CFG, 15, 12⟩
def R.GLN_CFG_CONFIRM : Fld := ⟨R.GLN_CFG, 1, 1⟩
def R.GLN_CFG_EN : Fld := ⟨R.GLN_CFG, 0, 0⟩
/-- R530. -/
def R.GLN_STAT : Nat := 0xF0004
def R.GLN_STAT_MAPPED : Fld := ⟨R.GLN_STAT, 23, 16⟩
def R.GLN_STAT_ENG_FAILED : Fld := ⟨R.GLN_STAT, 15, 8⟩
def R.GLN_STAT_FULL_OK : Fld := ⟨R.GLN_STAT, 2, 2⟩
def R.GLN_STAT_REQ : Fld := ⟨R.GLN_STAT, 1, 1⟩
def R.GLN_STAT_RUN : Fld := ⟨R.GLN_STAT, 0, 0⟩
/-- R530. -/
def R.GLN_COVER : Nat := 0xF0008
def R.GLN_COVER_LAST_S : Fld := ⟨R.GLN_COVER, 31, 16⟩
def R.GLN_COVER_PROGRESS : Fld := ⟨R.GLN_COVER, 15, 0⟩
/-- R530. -/
def R.GLN_MCOVER : Nat := 0xF000C
def R.GLN_MCOVER_LAST_S : Fld := ⟨R.GLN_MCOVER, 31, 16⟩
def R.GLN_MCOVER_PROGRESS : Fld := ⟨R.GLN_MCOVER, 15, 0⟩
/-- R530. -/
def R.GLN_SLICE_NS : Nat := 0xF0010
def R.GLN_SLICE_NS_MEM : Fld := ⟨R.GLN_SLICE_NS, 31, 16⟩
def R.GLN_SLICE_NS_LOGIC : Fld := ⟨R.GLN_SLICE_NS, 15, 0⟩
/-- R530. -/
def R.GLN_SPARE_SEL : Nat := 0xF0014
def R.GLN_SPARE_SEL_LOCAL : Fld := ⟨R.GLN_SPARE_SEL, 7, 7⟩
def R.GLN_SPARE_SEL_UNIT : Fld := ⟨R.GLN_SPARE_SEL, 6, 0⟩
/-- R530. -/
def R.GLN_SPARE : Nat := 0xF0018
def R.GLN_SPARE_ROWS : Fld := ⟨R.GLN_SPARE, 15, 8⟩
def R.GLN_SPARE_COLS : Fld := ⟨R.GLN_SPARE, 7, 0⟩
/-- R530. -/
def R.GLN_FUSE : Nat := 0xF001C
def R.GLN_FUSE_FREE : Fld := ⟨R.GLN_FUSE, 28, 16⟩
def R.GLN_FUSE_USED : Fld := ⟨R.GLN_FUSE, 12, 0⟩
/-- R530. -/
def R.GLN_REC_POP : Nat := 0xF0020
def R.GLN_REC_POP_LEFT : Fld := ⟨R.GLN_REC_POP, 7, 1⟩
def R.GLN_REC_POP_VALID : Fld := ⟨R.GLN_REC_POP, 0, 0⟩
/-- R530. -/
def R.GLN_REC (i : Nat) : Nat := 0xF0024 + i * 0x4
def R.GLN_REC_W (i : Nat) : Fld := ⟨R.GLN_REC i, 31, 0⟩
/-- R530. -/
def R.GLN_EVT : Nat := 0xF0050
def R.GLN_EVT_REC_DROP : Fld := ⟨R.GLN_EVT, 6, 6⟩
def R.GLN_EVT_CYCLE : Fld := ⟨R.GLN_EVT, 5, 5⟩
def R.GLN_EVT_TRANSIENT : Fld := ⟨R.GLN_EVT, 4, 4⟩
def R.GLN_EVT_UNREP : Fld := ⟨R.GLN_EVT, 3, 3⟩
def R.GLN_EVT_REPAIR : Fld := ⟨R.GLN_EVT, 2, 2⟩
def R.GLN_EVT_MAPOUT : Fld := ⟨R.GLN_EVT, 1, 1⟩
def R.GLN_EVT_FAIL : Fld := ⟨R.GLN_EVT, 0, 0⟩
/-- R530. -/
def R.GLN_EVT_EN : Nat := 0xF0054
def R.GLN_EVT_EN_EN : Fld := ⟨R.GLN_EVT_EN, 6, 0⟩
/-- R530. -/
def R.GLN_CTL : Nat := 0xF0058
def R.GLN_CTL_CUT : Fld := ⟨R.GLN_CTL, 0, 0⟩
/-- R530. -/
def R.GLN_DBG : Nat := 0xF0060
def R.GLN_DBG_STEP : Fld := ⟨R.GLN_DBG, 16, 16⟩
def R.GLN_DBG_SEED : Fld := ⟨R.GLN_DBG, 15, 0⟩
/-- R531. -/
def R.GLN_SLICE_CNT : Nat := 0xF0100
def R.GLN_SLICE_CNT_CNT : Fld := ⟨R.GLN_SLICE_CNT, 31, 0⟩
/-- R531. -/
def R.GLN_PASS_CNT : Nat := 0xF0104
def R.GLN_PASS_CNT_CNT : Fld := ⟨R.GLN_PASS_CNT, 31, 0⟩
/-- R531. -/
def R.GLN_FAIL_CNT : Nat := 0xF0108
def R.GLN_FAIL_CNT_CNT : Fld := ⟨R.GLN_FAIL_CNT, 31, 0⟩
/-- R531. -/
def R.GLN_INCOMPLETE_CNT : Nat := 0xF010C
def R.GLN_INCOMPLETE_CNT_CNT : Fld := ⟨R.GLN_INCOMPLETE_CNT, 31, 0⟩
/-- R531. -/
def R.GLN_ABORT_CNT : Nat := 0xF0110
def R.GLN_ABORT_CNT_CNT : Fld := ⟨R.GLN_ABORT_CNT, 31, 0⟩
/-- R531. -/
def R.GLN_TRANSIENT_CNT : Nat := 0xF0114
def R.GLN_TRANSIENT_CNT_CNT : Fld := ⟨R.GLN_TRANSIENT_CNT, 31, 0⟩
/-- R531. -/
def R.GLN_REPAIR_CNT : Nat := 0xF0118
def R.GLN_REPAIR_CNT_CNT : Fld := ⟨R.GLN_REPAIR_CNT, 31, 0⟩
/-- R531. -/
def R.GLN_UNREP_CNT : Nat := 0xF011C
def R.GLN_UNREP_CNT_CNT : Fld := ⟨R.GLN_UNREP_CNT, 31, 0⟩
/-- R531. -/
def R.GLN_MAPOUT_CNT : Nat := 0xF0120
def R.GLN_MAPOUT_CNT_CNT : Fld := ⟨R.GLN_MAPOUT_CNT, 31, 0⟩
/-- R531. -/
def R.GLN_CYCLE_CNT : Nat := 0xF0124
def R.GLN_CYCLE_CNT_CNT : Fld := ⟨R.GLN_CYCLE_CNT, 31, 0⟩
/-- R531. -/
def R.GLN_REC_DROP_CNT : Nat := 0xF0128
def R.GLN_REC_DROP_CNT_CNT : Fld := ⟨R.GLN_REC_DROP_CNT, 31, 0⟩

/-! Names of the BGW registers (18). -/

/-- R549. -/
def R.BGW_CFG : Nat := 0x100000
def R.BGW_CFG_HBM_MIN : Fld := ⟨R.BGW_CFG, 31, 24⟩
def R.BGW_CFG_LOFT_S : Fld := ⟨R.BGW_CFG, 23, 16⟩
def R.BGW_CFG_FAB_PERMIL : Fld := ⟨R.BGW_CFG, 15, 8⟩
def R.BGW_CFG_SCRUB_EN : Fld := ⟨R.BGW_CFG, 0, 0⟩
/-- R549. -/
def R.BGW_STAT : Nat := 0x100004
def R.BGW_STAT_LOFT_PASS_S : Fld := ⟨R.BGW_STAT, 31, 16⟩
def R.BGW_STAT_HBM_PASS_S : Fld := ⟨R.BGW_STAT, 15, 0⟩
/-- R549. -/
def R.BGW_FAB : Nat := 0x100008
def R.BGW_FAB_PEAK : Fld := ⟨R.BGW_FAB, 31, 16⟩
def R.BGW_FAB_LAST : Fld := ⟨R.BGW_FAB, 15, 0⟩
/-- R549. -/
def R.BGW_UE_ADDR_HI : Nat := 0x10000C
def R.BGW_UE_ADDR_HI_PA_HI : Fld := ⟨R.BGW_UE_ADDR_HI, 7, 0⟩
/-- R549. -/
def R.BGW_UE_ADDR_LO : Nat := 0x100010
def R.BGW_UE_ADDR_LO_PA_LO : Fld := ⟨R.BGW_UE_ADDR_LO, 31, 0⟩
/-- R549. -/
def R.BGW_CAL : Nat := 0x100014
def R.BGW_CAL_BUSY : Fld := ⟨R.BGW_CAL, 31, 31⟩
def R.BGW_CAL_RETRAIN_MS : Fld := ⟨R.BGW_CAL, 15, 0⟩
/-- R549. -/
def R.BGW_THERM_CFG : Nat := 0x100018
def R.BGW_THERM_CFG_CRIT_C : Fld := ⟨R.BGW_THERM_CFG, 31, 24⟩
def R.BGW_THERM_CFG_THROT_C : Fld := ⟨R.BGW_THERM_CFG, 23, 16⟩
def R.BGW_THERM_CFG_WARN_C : Fld := ⟨R.BGW_THERM_CFG, 15, 8⟩
def R.BGW_THERM_CFG_HYST_C : Fld := ⟨R.BGW_THERM_CFG, 7, 0⟩
/-- R549. -/
def R.BGW_THERM_STAT : Nat := 0x10001C
def R.BGW_THERM_STAT_TJ : Fld := ⟨R.BGW_THERM_STAT, 31, 16⟩
def R.BGW_THERM_STAT_SENSOR : Fld := ⟨R.BGW_THERM_STAT, 15, 12⟩
def R.BGW_THERM_STAT_LEVEL : Fld := ⟨R.BGW_THERM_STAT, 1, 0⟩
/-- R549. -/
def R.BGW_EVT : Nat := 0x100030
def R.BGW_EVT_IPFIX_SKIP : Fld := ⟨R.BGW_EVT, 6, 6⟩
def R.BGW_EVT_CAP_HOLD : Fld := ⟨R.BGW_EVT, 5, 5⟩
def R.BGW_EVT_CAL_FAIL : Fld := ⟨R.BGW_EVT, 4, 4⟩
def R.BGW_EVT_THERM_CRIT : Fld := ⟨R.BGW_EVT, 3, 3⟩
def R.BGW_EVT_THROTTLE : Fld := ⟨R.BGW_EVT, 2, 2⟩
def R.BGW_EVT_THERM_WARN : Fld := ⟨R.BGW_EVT, 1, 1⟩
def R.BGW_EVT_SCRUB_UE : Fld := ⟨R.BGW_EVT, 0, 0⟩
/-- R549. -/
def R.BGW_EVT_EN : Nat := 0x100034
def R.BGW_EVT_EN_EN : Fld := ⟨R.BGW_EVT_EN, 6, 0⟩
/-- R549. -/
def R.BGW_TSENS (i : Nat) : Nat := 0x100040 + i * 0x4
def R.BGW_TSENS_T (i : Nat) : Fld := ⟨R.BGW_TSENS i, 15, 0⟩
/-- R550. -/
def R.BGW_SCRUB_CE_CNT : Nat := 0x100100
def R.BGW_SCRUB_CE_CNT_CNT : Fld := ⟨R.BGW_SCRUB_CE_CNT, 31, 0⟩
/-- R550. -/
def R.BGW_SCRUB_UE_CNT : Nat := 0x100104
def R.BGW_SCRUB_UE_CNT_CNT : Fld := ⟨R.BGW_SCRUB_UE_CNT, 31, 0⟩
/-- R550. -/
def R.BGW_SCRUB_PASS_CNT : Nat := 0x100108
def R.BGW_SCRUB_PASS_CNT_CNT : Fld := ⟨R.BGW_SCRUB_PASS_CNT, 31, 0⟩
/-- R550. -/
def R.BGW_CAP_HOLD_CNT : Nat := 0x10010C
def R.BGW_CAP_HOLD_CNT_CNT : Fld := ⟨R.BGW_CAP_HOLD_CNT, 31, 0⟩
/-- R550. -/
def R.BGW_RETRAIN_CNT : Nat := 0x100110
def R.BGW_RETRAIN_CNT_CNT : Fld := ⟨R.BGW_RETRAIN_CNT, 31, 0⟩
/-- R550. -/
def R.BGW_CAL_FAIL_CNT : Nat := 0x100114
def R.BGW_CAL_FAIL_CNT_CNT : Fld := ⟨R.BGW_CAL_FAIL_CNT, 31, 0⟩
/-- R550. -/
def R.BGW_THROT_CNT : Nat := 0x100118
def R.BGW_THROT_CNT_CNT : Fld := ⟨R.BGW_THROT_CNT, 31, 0⟩
/-- R550. -/
def R.BGW_IPFIX_REC_CNT : Nat := 0x10011C
def R.BGW_IPFIX_REC_CNT_CNT : Fld := ⟨R.BGW_IPFIX_REC_CNT, 31, 0⟩
/-- R550. -/
def R.BGW_IPFIX_SKIP_CNT : Nat := 0x100120
def R.BGW_IPFIX_SKIP_CNT_CNT : Fld := ⟨R.BGW_IPFIX_SKIP_CNT, 31, 0⟩

/-! Names of the PRS registers (18). -/

/-- R549. -/
def R.PRS_STAT : Nat := 0x110000
def R.PRS_STAT_PEND_EN : Fld := ⟨R.PRS_STAT, 4, 4⟩
def R.PRS_STAT_STATE : Fld := ⟨R.PRS_STAT, 2, 0⟩
/-- R549. -/
def R.PRS_JRNL : Nat := 0x110004
def R.PRS_JRNL_USED_KIB : Fld := ⟨R.PRS_JRNL, 16, 0⟩
/-- R549. -/
def R.PRS_RECNO : Nat := 0x110008
def R.PRS_RECNO_RECNO : Fld := ⟨R.PRS_RECNO, 31, 0⟩
/-- R549. -/
def R.PRS_CKPT : Nat := 0x11000C
def R.PRS_CKPT_RECNO : Fld := ⟨R.PRS_CKPT, 31, 0⟩
/-- R549. -/
def R.PRS_WEAR : Nat := 0x110010
def R.PRS_WEAR_SPREAD : Fld := ⟨R.PRS_WEAR, 31, 16⟩
def R.PRS_WEAR_SPARE : Fld := ⟨R.PRS_WEAR, 15, 8⟩
def R.PRS_WEAR_RETIRED : Fld := ⟨R.PRS_WEAR, 7, 0⟩
/-- R549. -/
def R.PRS_LIFE : Nat := 0x110014
def R.PRS_LIFE_PCT : Fld := ⟨R.PRS_LIFE, 6, 0⟩
/-- R549. -/
def R.PRS_EVT : Nat := 0x110020
def R.PRS_EVT_RESTORE_FALLBACK : Fld := ⟨R.PRS_EVT, 4, 4⟩
def R.PRS_EVT_SPARE_LOW : Fld := ⟨R.PRS_EVT, 3, 3⟩
def R.PRS_EVT_BLOCK_RETIRE : Fld := ⟨R.PRS_EVT, 2, 2⟩
def R.PRS_EVT_CKPT_FAIL : Fld := ⟨R.PRS_EVT, 1, 1⟩
def R.PRS_EVT_JRNL_HIGH : Fld := ⟨R.PRS_EVT, 0, 0⟩
/-- R549. -/
def R.PRS_EVT_EN : Nat := 0x110024
def R.PRS_EVT_EN_EN : Fld := ⟨R.PRS_EVT_EN, 4, 0⟩
/-- R550. -/
def R.PRS_WRITE_KIB_CNT : Nat := 0x110100
def R.PRS_WRITE_KIB_CNT_CNT : Fld := ⟨R.PRS_WRITE_KIB_CNT, 31, 0⟩
/-- R550. -/
def R.PRS_ERASE_CNT : Nat := 0x110104
def R.PRS_ERASE_CNT_CNT : Fld := ⟨R.PRS_ERASE_CNT, 31, 0⟩
/-- R550. -/
def R.PRS_CKPT_CNT : Nat := 0x110108
def R.PRS_CKPT_CNT_CNT : Fld := ⟨R.PRS_CKPT_CNT, 31, 0⟩
/-- R550. -/
def R.PRS_CKPT_FAIL_CNT : Nat := 0x11010C
def R.PRS_CKPT_FAIL_CNT_CNT : Fld := ⟨R.PRS_CKPT_FAIL_CNT, 31, 0⟩
/-- R550. -/
def R.PRS_RETIRE_CNT : Nat := 0x110110
def R.PRS_RETIRE_CNT_CNT : Fld := ⟨R.PRS_RETIRE_CNT, 31, 0⟩
/-- R550. -/
def R.PRS_ECC_CE_CNT : Nat := 0x110114
def R.PRS_ECC_CE_CNT_CNT : Fld := ⟨R.PRS_ECC_CE_CNT, 31, 0⟩

/-! The tables. -/

def regsID0 : List RegDef := [
  ⟨0x0, [], [⟨31, 16, .ro, .f, 4736⟩, ⟨15, 12, .ro, .f, 0⟩, ⟨11, 8, .ro, .f, 0⟩, ⟨7, 4, .ro, .f, 1⟩]⟩,
  ⟨0x4, [], [⟨6, 4, .ro, .f, 0⟩, ⟨2, 0, .ro, .f, 1⟩]⟩,
  ⟨0x8, [], [⟨31, 0, .ro, .f, 0⟩]⟩,
  ⟨0xC, [], [⟨31, 0, .ro, .f, 0⟩]⟩,
  ⟨0x10, [], [⟨2, 2, .ro, .f, 0⟩, ⟨1, 1, .ro, .f, 0⟩, ⟨0, 0, .ro, .f, 1⟩]⟩,
  ⟨0x14, [], [⟨0, 0, .rw, .d, 0⟩]⟩]

/-- The registers of the ID window. -/
def regsID : List RegDef := regsID0

def regsSWT0 : List RegDef := [
  ⟨0x10000, [], [⟨1, 0, .rw, .h, 1⟩]⟩,
  ⟨0x10004, [], [⟨3, 2, .ro, .f, 0⟩, ⟨1, 1, .ro, .f, 0⟩, ⟨0, 0, .ro, .f, 0⟩]⟩,
  ⟨0x10008, [], [⟨31, 0, .ro, .f, 0⟩]⟩,
  ⟨0x1000C, [], [⟨20, 0, .ro, .f, 0⟩]⟩,
  ⟨0x10010, [], [⟨6, 0, .rw, .h, 88⟩]⟩,
  ⟨0x10014, [], [⟨29, 18, .ro, .f, 859⟩, ⟨17, 0, .ro, .f, 110000⟩]⟩,
  ⟨0x10018, [], [⟨17, 0, .rw, .h, 196608⟩]⟩,
  ⟨0x1001C, [], [⟨20, 0, .ro, .f, 532480⟩]⟩,
  ⟨0x10020, [], [⟨20, 0, .ro, .f, 1048576⟩]⟩,
  ⟨0x10024, [], [⟨20, 0, .ro, .f, 0⟩]⟩,
  ⟨0x10028, [], [⟨13, 8, .ro, .f, 32⟩, ⟨7, 0, .ro, .f, 128⟩]⟩,
  ⟨0x1002C, [], [⟨17, 0, .ro, .f, 0⟩]⟩,
  ⟨0x10030, [], [⟨8, 0, .rw, .h, 0⟩]⟩,
  ⟨0x10034, [], [⟨21, 0, .ro, .f, 0⟩]⟩,
  ⟨0x10038, [], [⟨17, 0, .ro, .f, 0⟩]⟩,
  ⟨0x1003C, [], [⟨20, 0, .ro, .f, 0⟩]⟩,
  ⟨0x10040, [], [⟨31, 22, .ro, .f, 0⟩, ⟨21, 0, .ro, .f, 0⟩]⟩,
  ⟨0x10044, [], [⟨16, 0, .ro, .f, 0⟩]⟩,
  ⟨0x10050, [], [⟨3, 3, .w1c, .h, 0⟩, ⟨2, 2, .w1c, .h, 0⟩, ⟨1, 1, .w1c, .h, 0⟩, ⟨0, 0, .w1c, .h, 0⟩]⟩,
  ⟨0x10054, [], [⟨3, 0, .rw, .h, 7⟩]⟩]

def regsSWT1 : List RegDef := [
  ⟨0x10058, [], [⟨31, 0, .ro, .f, 0⟩]⟩,
  ⟨0x1005C, [], [⟨20, 0, .ro, .f, 0⟩]⟩,
  ⟨0x10060, [], [⟨31, 0, .ro, .f, 0⟩]⟩,
  ⟨0x10064, [], [⟨31, 0, .ro, .f, 0⟩]⟩,
  ⟨0x10068, [], [⟨31, 0, .ro, .f, 0⟩]⟩,
  ⟨0x1006C, [], [⟨31, 0, .ro, .f, 0⟩]⟩,
  ⟨0x10070, [], [⟨31, 0, .ro, .f, 0⟩]⟩,
  ⟨0x10074, [], [⟨31, 0, .ro, .f, 0⟩]⟩,
  ⟨0x10078, [], [⟨31, 0, .ro, .f, 0⟩]⟩]

/-- The registers of the SWT window. -/
def regsSWT : List RegDef := regsSWT0 ++ regsSWT1

def regsTMU0 : List RegDef := [
  ⟨0x20000, [], [⟨0, 0, .rw, .h, 0⟩]⟩,
  ⟨0x20004, [], [⟨10, 8, .ro, .f, 0⟩, ⟨7, 7, .ro, .f, 0⟩, ⟨6, 4, .ro, .f, 0⟩, ⟨2, 2, .ro, .f, 0⟩, ⟨1, 1, .ro, .f, 0⟩, ⟨0, 0, .ro, .f, 0⟩]⟩,
  ⟨0x20008, [], [⟨15, 0, .ro, .f, 0⟩]⟩,
  ⟨0x2000C, [], [⟨31, 0, .ro, .f, 0⟩]⟩,
  ⟨0x20010, [], [⟨29, 0, .ro, .f, 0⟩]⟩,
  ⟨0x20014, [], [⟨15, 0, .ro, .f, 0⟩]⟩,
  ⟨0x20018, [], [⟨31, 0, .rw, .h, 20971520⟩]⟩,
  ⟨0x2001C, [], [⟨15, 0, .rw, .h, 0⟩]⟩,
  ⟨0x20020, [], [⟨15, 0, .rw, .h, 0⟩]⟩,
  ⟨0x20024, [], [⟨31, 0, .rw, .h, 0⟩]⟩,
  ⟨0x20028, [], [⟨29, 0, .rw, .h, 0⟩]⟩,
  ⟨0x2002C, [], [⟨31, 0, .rw, .h, 0⟩]⟩,
  ⟨0x20030, [], [⟨29, 0, .rw, .h, 0⟩]⟩,
  ⟨0x20034, [], [⟨1, 1, .wo, .h, 0⟩, ⟨0, 0, .wo, .h, 0⟩]⟩,
  ⟨0x20038, [], [⟨3, 3, .rw, .h, 1⟩, ⟨2, 1, .rw, .h, 0⟩, ⟨0, 0, .rw, .h, 0⟩]⟩,
  ⟨0x20040, [], [⟨31, 0, .rw, .h, 45875⟩]⟩,
  ⟨0x20044, [], [⟨31, 0, .rw, .h, 3277⟩]⟩,
  ⟨0x20048, [], [⟨19, 0, .rw, .h, 200000⟩]⟩,
  ⟨0x2004C, [], [⟨19, 0, .rw, .h, 10000⟩]⟩,
  ⟨0x20050, [], [⟨31, 24, .rw, .h, 4⟩, ⟨23, 16, .rw, .h, 16⟩, ⟨15, 0, .rw, .h, 100⟩]⟩]

def regsTMU1 : List RegDef := [
  ⟨0x20054, [], [⟨23, 0, .rw, .h, 1000⟩]⟩,
  ⟨0x20058, [], [⟨31, 0, .rw, .h, 10000⟩]⟩,
  ⟨0x2005C, [], [⟨31, 0, .rw, .h, 1000000⟩]⟩,
  ⟨0x20060, [], [⟨31, 16, .rw, .h, 2000⟩, ⟨15, 0, .rw, .h, 3000⟩]⟩,
  ⟨0x20064, [], [⟨31, 16, .rw, .h, 250⟩, ⟨15, 0, .rw, .h, 500⟩]⟩,
  ⟨0x20068, [], [⟨31, 0, .ro, .f, 0⟩]⟩,
  ⟨0x2006C, [], [⟨31, 0, .ro, .f, 0⟩]⟩,
  ⟨0x20070, [], [⟨31, 0, .ro, .f, 0⟩]⟩,
  ⟨0x20074, [], [⟨31, 0, .ro, .f, 0⟩]⟩,
  ⟨0x20080, [], [⟨31, 0, .rw, .f, 0⟩]⟩,
  ⟨0x20084, [], [⟨26, 24, .rw, .f, 0⟩, ⟨23, 16, .rw, .f, 0⟩, ⟨15, 0, .rw, .f, 0⟩]⟩,
  ⟨0x20088, [], [⟨31, 0, .rw, .f, 4294967295⟩]⟩,
  ⟨0x2008C, [], [⟨0, 0, .wo, .f, 0⟩]⟩,
  ⟨0x20090, [], [⟨4, 0, .ro, .f, 0⟩]⟩,
  ⟨0x200A0, [(0x4, 7)], [⟨31, 0, .rw, .h, 0⟩]⟩,
  ⟨0x200C0, [(0x4, 7)], [⟨31, 0, .ro, .f, 0⟩]⟩,
  ⟨0x200E0, [], [⟨22, 16, .rw, .h, 0⟩, ⟨15, 8, .rw, .h, 0⟩, ⟨2, 2, .rw, .h, 0⟩, ⟨1, 0, .rw, .h, 0⟩]⟩,
  ⟨0x20100, [(0x20, 4)], [⟨15, 0, .rw, .h, 0⟩]⟩,
  ⟨0x20104, [(0x20, 4)], [⟨31, 0, .rw, .h, 0⟩]⟩,
  ⟨0x20108, [(0x20, 4)], [⟨29, 0, .rw, .h, 0⟩]⟩]

def regsTMU2 : List RegDef := [
  ⟨0x2010C, [(0x20, 4)], [⟨31, 0, .rw, .h, 0⟩]⟩,
  ⟨0x20110, [(0x20, 4)], [⟨15, 0, .rw, .h, 0⟩]⟩,
  ⟨0x20114, [(0x20, 4)], [⟨23, 0, .rw, .h, 100⟩]⟩,
  ⟨0x20118, [(0x20, 4)], [⟨31, 16, .ro, .f, 0⟩, ⟨5, 5, .w1c, .h, 0⟩, ⟨4, 4, .ro, .f, 0⟩, ⟨3, 3, .rw, .h, 0⟩, ⟨1, 1, .wo, .h, 0⟩, ⟨0, 0, .wo, .h, 0⟩]⟩,
  ⟨0x2011C, [(0x20, 4)], [⟨31, 0, .ro, .f, 0⟩]⟩,
  ⟨0x20200, [(0x20, 5)], [⟨15, 8, .rw, .h, 128⟩, ⟨2, 2, .rw, .h, 0⟩, ⟨1, 0, .rw, .h, 0⟩]⟩,
  ⟨0x20204, [(0x20, 5)], [⟨4, 0, .ro, .f, 0⟩]⟩,
  ⟨0x20208, [(0x20, 5)], [⟨31, 16, .ro, .f, 0⟩, ⟨1, 1, .ro, .f, 0⟩, ⟨0, 0, .ro, .f, 0⟩]⟩,
  ⟨0x2020C, [(0x20, 5)], [⟨31, 0, .ro, .f, 0⟩]⟩,
  ⟨0x20210, [(0x20, 5)], [⟨29, 0, .ro, .f, 0⟩]⟩,
  ⟨0x20214, [(0x20, 5)], [⟨15, 0, .ro, .f, 0⟩]⟩,
  ⟨0x20218, [(0x20, 5)], [⟨31, 0, .ro, .f, 0⟩]⟩,
  ⟨0x2029C, [], [⟨31, 0, .rw, .h, 0⟩]⟩,
  ⟨0x20300, [], [⟨31, 0, .ro, .f, 0⟩]⟩,
  ⟨0x20304, [], [⟨31, 0, .ro, .f, 0⟩]⟩,
  ⟨0x20308, [], [⟨31, 0, .ro, .f, 0⟩]⟩,
  ⟨0x2030C, [], [⟨31, 0, .ro, .f, 0⟩]⟩,
  ⟨0x20310, [], [⟨31, 0, .ro, .f, 0⟩]⟩,
  ⟨0x20314, [], [⟨31, 0, .ro, .f, 0⟩]⟩,
  ⟨0x20318, [], [⟨31, 0, .ro, .f, 0⟩]⟩]

def regsTMU3 : List RegDef := [
  ⟨0x2031C, [], [⟨31, 0, .ro, .f, 0⟩]⟩,
  ⟨0x20320, [], [⟨31, 0, .ro, .f, 0⟩]⟩,
  ⟨0x20340, [], [⟨7, 7, .w1c, .h, 0⟩, ⟨6, 6, .w1c, .h, 0⟩, ⟨5, 5, .w1c, .h, 0⟩, ⟨4, 4, .w1c, .h, 0⟩, ⟨3, 3, .w1c, .h, 0⟩, ⟨2, 2, .w1c, .h, 0⟩, ⟨1, 1, .w1c, .h, 0⟩, ⟨0, 0, .w1c, .h, 0⟩]⟩,
  ⟨0x20344, [], [⟨7, 0, .rw, .h, 126⟩]⟩]

/-- The registers of the TMU window. -/
def regsTMU : List RegDef := regsTMU0 ++ regsTMU1 ++ regsTMU2 ++ regsTMU3

def regsMAC0 : List RegDef := [
  ⟨0x30000, [(0x1000, 8)], [⟨11, 9, .rw, .h, 5⟩, ⟨8, 8, .rw, .h, 1⟩, ⟨7, 7, .rw, .h, 0⟩, ⟨3, 2, .rwl, .h, 0⟩, ⟨0, 0, .rw, .h, 0⟩]⟩,
  ⟨0x30004, [(0x1000, 8)], [⟨9, 9, .ro, .f, 0⟩, ⟨8, 8, .ro, .f, 0⟩, ⟨7, 6, .ro, .f, 0⟩, ⟨5, 5, .ro, .f, 0⟩, ⟨4, 4, .ro, .f, 0⟩, ⟨2, 0, .ro, .f, 0⟩]⟩,
  ⟨0x30008, [(0x1000, 8)], [⟨13, 0, .rw, .h, 1522⟩]⟩,
  ⟨0x3000C, [(0x1000, 8)], [⟨31, 0, .rw, .h, 0⟩]⟩,
  ⟨0x30010, [(0x1000, 8)], [⟨31, 0, .rw, .h, 0⟩]⟩,
  ⟨0x30014, [(0x1000, 8)], [⟨23, 0, .rw, .h, 1754760⟩]⟩,
  ⟨0x30018, [(0x1000, 8)], [⟨23, 0, .rw, .h, 16434824⟩]⟩,
  ⟨0x3001C, [(0x1000, 8)], [⟨17, 16, .rw, .h, 0⟩, ⟨15, 8, .rw, .h, 255⟩, ⟨7, 7, .ro, .f, 0⟩, ⟨6, 0, .rw, .h, 127⟩]⟩,
  ⟨0x30020, [(0x1000, 8)], [⟨31, 16, .rw, .h, 65535⟩, ⟨15, 0, .rw, .h, 32768⟩]⟩,
  ⟨0x30024, [(0x1000, 8)], [⟨7, 0, .ro, .f, 0⟩]⟩,
  ⟨0x30028, [(0x1000, 8)], [⟨15, 8, .ro, .f, 0⟩, ⟨7, 0, .ro, .f, 0⟩]⟩,
  ⟨0x3002C, [(0x1000, 8)], [⟨1, 1, .wo, .h, 0⟩, ⟨0, 0, .wo, .h, 0⟩]⟩,
  ⟨0x30030, [(0x1000, 8)], [⟨15, 15, .rwl, .h, 1⟩, ⟨14, 14, .rwl, .h, 1⟩, ⟨13, 12, .rwl, .h, 2⟩, ⟨11, 10, .rwl, .h, 3⟩, ⟨1, 1, .rwl, .h, 1⟩, ⟨0, 0, .rwl, .h, 0⟩]⟩,
  ⟨0x30040, [(0x1000, 8), (0x4, 8)], [⟨12, 0, .rwl, .h, 0⟩]⟩,
  ⟨0x30060, [(0x1000, 8), (0x4, 8)], [⟨28, 16, .rw, .h, 0⟩, ⟨12, 0, .rw, .h, 0⟩]⟩,
  ⟨0x30080, [(0x1000, 8), (0x4, 8)], [⟨28, 16, .ro, .f, 0⟩, ⟨12, 0, .ro, .f, 0⟩]⟩,
  ⟨0x30100, [(0x1000, 8)], [⟨31, 0, .ro, .f, 0⟩]⟩,
  ⟨0x30104, [(0x1000, 8)], [⟨31, 0, .ro, .f, 0⟩]⟩,
  ⟨0x30108, [(0x1000, 8)], [⟨31, 0, .ro, .f, 0⟩]⟩,
  ⟨0x3010C, [(0x1000, 8)], [⟨31, 0, .ro, .f, 0⟩]⟩]

def regsMAC1 : List RegDef := [
  ⟨0x30110, [(0x1000, 8)], [⟨31, 0, .ro, .f, 0⟩]⟩,
  ⟨0x30114, [(0x1000, 8)], [⟨31, 0, .ro, .f, 0⟩]⟩,
  ⟨0x30118, [(0x1000, 8)], [⟨31, 0, .ro, .f, 0⟩]⟩,
  ⟨0x3011C, [(0x1000, 8)], [⟨31, 0, .ro, .f, 0⟩]⟩,
  ⟨0x30120, [(0x1000, 8)], [⟨31, 0, .ro, .f, 0⟩]⟩,
  ⟨0x30124, [(0x1000, 8)], [⟨31, 0, .ro, .f, 0⟩]⟩,
  ⟨0x30128, [(0x1000, 8)], [⟨31, 0, .ro, .f, 0⟩]⟩,
  ⟨0x3012C, [(0x1000, 8)], [⟨31, 0, .ro, .f, 0⟩]⟩,
  ⟨0x30140, [(0x1000, 8), (0x4, 8)], [⟨31, 0, .ro, .f, 0⟩]⟩,
  ⟨0x30180, [(0x1000, 8)], [⟨31, 0, .ro, .f, 0⟩]⟩,
  ⟨0x30184, [(0x1000, 8)], [⟨31, 0, .ro, .f, 0⟩]⟩,
  ⟨0x30188, [(0x1000, 8)], [⟨31, 0, .ro, .f, 0⟩]⟩,
  ⟨0x3018C, [(0x1000, 8)], [⟨31, 0, .ro, .f, 0⟩]⟩,
  ⟨0x30190, [(0x1000, 8)], [⟨31, 0, .ro, .f, 0⟩]⟩,
  ⟨0x30194, [(0x1000, 8)], [⟨31, 0, .ro, .f, 0⟩]⟩,
  ⟨0x30198, [(0x1000, 8)], [⟨31, 0, .ro, .f, 0⟩]⟩,
  ⟨0x3019C, [(0x1000, 8)], [⟨31, 0, .ro, .f, 0⟩]⟩,
  ⟨0x301A0, [(0x1000, 8)], [⟨31, 0, .ro, .f, 0⟩]⟩,
  ⟨0x301A4, [(0x1000, 8)], [⟨31, 0, .ro, .f, 0⟩]⟩,
  ⟨0x301A8, [(0x1000, 8)], [⟨31, 0, .ro, .f, 0⟩]⟩]

def regsMAC2 : List RegDef := [
  ⟨0x301AC, [(0x1000, 8)], [⟨31, 0, .ro, .f, 0⟩]⟩,
  ⟨0x301B0, [(0x1000, 8)], [⟨31, 0, .ro, .f, 0⟩]⟩,
  ⟨0x301C0, [(0x1000, 8)], [⟨31, 0, .ro, .f, 0⟩]⟩,
  ⟨0x301C4, [(0x1000, 8)], [⟨31, 0, .ro, .f, 0⟩]⟩,
  ⟨0x301C8, [(0x1000, 8)], [⟨31, 0, .ro, .f, 0⟩]⟩,
  ⟨0x38000, [], [⟨31, 24, .w1c, .h, 0⟩, ⟨23, 16, .w1c, .h, 0⟩, ⟨15, 8, .w1c, .h, 0⟩, ⟨7, 0, .w1c, .h, 0⟩]⟩,
  ⟨0x38004, [], [⟨31, 0, .rw, .h, 4278190335⟩]⟩,
  ⟨0x38010, [], [⟨10, 10, .rw, .f, 0⟩, ⟨9, 0, .rw, .f, 200⟩]⟩,
  ⟨0x38014, [], [⟨31, 31, .wo, .f, 0⟩, ⟨30, 30, .rw, .f, 0⟩, ⟨29, 28, .rw, .f, 2⟩, ⟨25, 21, .rw, .f, 0⟩, ⟨20, 16, .rw, .f, 0⟩, ⟨15, 0, .rw, .f, 0⟩]⟩,
  ⟨0x38018, [], [⟨17, 17, .ro, .f, 0⟩, ⟨16, 16, .ro, .f, 0⟩, ⟨15, 0, .ro, .f, 0⟩]⟩]

/-- The registers of the MAC window. -/
def regsMAC : List RegDef := regsMAC0 ++ regsMAC1 ++ regsMAC2

def regsQCP0 : List RegDef := [
  ⟨0x40000, [], [⟨31, 20, .rw, .h, 300⟩, ⟨16, 12, .rw, .h, 4⟩, ⟨7, 0, .rw, .h, 100⟩]⟩,
  ⟨0x40004, [], [⟨24, 16, .ro, .f, 0⟩, ⟨5, 0, .ro, .f, 0⟩]⟩,
  ⟨0x40008, [], [⟨7, 0, .rw, .h, 0⟩]⟩,
  ⟨0x4000C, [], [⟨31, 24, .ro, .f, 0⟩, ⟨23, 20, .ro, .f, 0⟩, ⟨19, 18, .ro, .f, 0⟩, ⟨17, 15, .ro, .f, 0⟩, ⟨14, 12, .ro, .f, 0⟩, ⟨11, 0, .ro, .f, 0⟩]⟩,
  ⟨0x40010, [], [⟨31, 0, .ro, .f, 0⟩]⟩,
  ⟨0x40014, [], [⟨30, 24, .ro, .f, 64⟩, ⟨22, 16, .ro, .f, 64⟩, ⟨8, 0, .ro, .f, 0⟩]⟩,
  ⟨0x40018, [], [⟨5, 5, .w1c, .h, 0⟩, ⟨4, 4, .w1c, .h, 0⟩, ⟨3, 3, .w1c, .h, 0⟩, ⟨2, 2, .w1c, .h, 0⟩, ⟨1, 1, .w1c, .h, 0⟩, ⟨0, 0, .w1c, .h, 0⟩]⟩,
  ⟨0x4001C, [], [⟨5, 0, .rw, .h, 46⟩]⟩,
  ⟨0x40020, [(0x4, 8)], [⟨31, 0, .w1c, .f, 0⟩]⟩,
  ⟨0x40040, [], [⟨7, 0, .wo, .f, 0⟩]⟩,
  ⟨0x40080, [], [⟨8, 8, .rw, .h, 1⟩, ⟨7, 0, .rw, .h, 129⟩]⟩,
  ⟨0x40084, [], [⟨15, 8, .rw, .h, 0⟩, ⟨7, 0, .ro, .f, 0⟩]⟩,
  ⟨0x40088, [], [⟨2, 2, .ro, .f, 0⟩, ⟨1, 1, .ro, .f, 0⟩, ⟨0, 0, .ro, .f, 0⟩]⟩,
  ⟨0x4008C, [], [⟨31, 0, .ro, .f, 0⟩]⟩,
  ⟨0x40090, [], [⟨31, 0, .ro, .f, 0⟩]⟩,
  ⟨0x400A0, [(0x8, 8)], [⟨15, 0, .ro, .f, 0⟩]⟩,
  ⟨0x400A4, [(0x8, 8)], [⟨31, 0, .ro, .f, 0⟩]⟩,
  ⟨0x40100, [], [⟨31, 0, .ro, .f, 0⟩]⟩,
  ⟨0x40104, [], [⟨31, 0, .ro, .f, 0⟩]⟩,
  ⟨0x40108, [], [⟨31, 0, .ro, .f, 0⟩]⟩]

def regsQCP1 : List RegDef := [
  ⟨0x4010C, [], [⟨31, 0, .ro, .f, 0⟩]⟩,
  ⟨0x40110, [], [⟨31, 0, .ro, .f, 0⟩]⟩,
  ⟨0x40114, [], [⟨31, 0, .ro, .f, 0⟩]⟩,
  ⟨0x40118, [], [⟨31, 0, .ro, .f, 0⟩]⟩,
  ⟨0x4011C, [], [⟨31, 0, .ro, .f, 0⟩]⟩,
  ⟨0x40120, [], [⟨31, 0, .ro, .f, 0⟩]⟩,
  ⟨0x40124, [], [⟨31, 0, .ro, .f, 0⟩]⟩,
  ⟨0x40128, [], [⟨31, 0, .ro, .f, 0⟩]⟩,
  ⟨0x4012C, [], [⟨31, 0, .ro, .f, 0⟩]⟩,
  ⟨0x40130, [], [⟨31, 0, .ro, .f, 0⟩]⟩,
  ⟨0x40134, [], [⟨31, 0, .ro, .f, 0⟩]⟩,
  ⟨0x40138, [], [⟨31, 0, .ro, .f, 0⟩]⟩,
  ⟨0x40140, [], [⟨31, 0, .ro, .f, 0⟩]⟩,
  ⟨0x40144, [], [⟨31, 0, .ro, .f, 0⟩]⟩,
  ⟨0x40148, [], [⟨31, 0, .ro, .f, 0⟩]⟩,
  ⟨0x4014C, [], [⟨31, 0, .ro, .f, 0⟩]⟩,
  ⟨0x40150, [], [⟨31, 0, .ro, .f, 0⟩]⟩,
  ⟨0x40154, [], [⟨31, 0, .ro, .f, 0⟩]⟩]

/-- The registers of the QCP window. -/
def regsQCP : List RegDef := regsQCP0 ++ regsQCP1

def regsPKE0 : List RegDef := [
  ⟨0x50000, [], [⟨7, 7, .rw, .h, 1⟩, ⟨6, 6, .rw, .h, 0⟩, ⟨5, 5, .rw, .h, 1⟩, ⟨4, 4, .rw, .h, 1⟩, ⟨1, 0, .rw, .h, 0⟩]⟩,
  ⟨0x50004, [], [⟨31, 24, .rw, .h, 64⟩, ⟨15, 0, .rw, .h, 50⟩]⟩,
  ⟨0x50008, [], [⟨15, 0, .rw, .f, 37⟩]⟩,
  ⟨0x5000C, [], [⟨31, 16, .rw, .h, 100⟩, ⟨15, 0, .rw, .h, 100⟩]⟩,
  ⟨0x50010, [], [⟨15, 0, .rw, .h, 0⟩]⟩,
  ⟨0x50014, [], [⟨18, 0, .ro, .f, 0⟩]⟩,
  ⟨0x50018, [], [⟨10, 0, .ro, .f, 0⟩]⟩,
  ⟨0x50020, [], [⟨5, 5, .w1c, .h, 0⟩, ⟨4, 4, .w1c, .h, 0⟩, ⟨3, 3, .w1c, .h, 0⟩, ⟨2, 2, .w1c, .h, 0⟩, ⟨1, 1, .w1c, .h, 0⟩, ⟨0, 0, .w1c, .h, 0⟩]⟩,
  ⟨0x50024, [], [⟨5, 0, .rw, .h, 58⟩]⟩,
  ⟨0x50100, [], [⟨31, 0, .ro, .f, 0⟩]⟩,
  ⟨0x50104, [], [⟨31, 0, .ro, .f, 0⟩]⟩,
  ⟨0x50108, [], [⟨31, 0, .ro, .f, 0⟩]⟩,
  ⟨0x5010C, [], [⟨31, 0, .ro, .f, 0⟩]⟩,
  ⟨0x50110, [], [⟨31, 0, .ro, .f, 0⟩]⟩,
  ⟨0x50114, [], [⟨31, 0, .ro, .f, 0⟩]⟩,
  ⟨0x50118, [], [⟨31, 0, .ro, .f, 0⟩]⟩,
  ⟨0x5011C, [], [⟨31, 0, .ro, .f, 0⟩]⟩,
  ⟨0x50120, [], [⟨31, 0, .ro, .f, 0⟩]⟩,
  ⟨0x50124, [], [⟨31, 0, .ro, .f, 0⟩]⟩,
  ⟨0x50128, [], [⟨31, 0, .ro, .f, 0⟩]⟩]

def regsPKE1 : List RegDef := [
  ⟨0x5012C, [], [⟨31, 0, .ro, .f, 0⟩]⟩,
  ⟨0x50130, [], [⟨31, 0, .ro, .f, 0⟩]⟩,
  ⟨0x50134, [], [⟨31, 0, .ro, .f, 0⟩]⟩,
  ⟨0x50138, [], [⟨31, 0, .ro, .f, 0⟩]⟩,
  ⟨0x5013C, [], [⟨31, 0, .ro, .f, 0⟩]⟩,
  ⟨0x50140, [], [⟨31, 0, .ro, .f, 0⟩]⟩,
  ⟨0x50144, [], [⟨31, 0, .ro, .f, 0⟩]⟩,
  ⟨0x50148, [], [⟨31, 0, .ro, .f, 0⟩]⟩,
  ⟨0x5014C, [], [⟨31, 0, .ro, .f, 0⟩]⟩,
  ⟨0x50180, [], [⟨31, 0, .ro, .f, 0⟩]⟩,
  ⟨0x50184, [], [⟨31, 0, .ro, .f, 0⟩]⟩,
  ⟨0x50188, [], [⟨31, 0, .ro, .f, 0⟩]⟩,
  ⟨0x5018C, [], [⟨31, 0, .ro, .f, 0⟩]⟩,
  ⟨0x50190, [], [⟨31, 0, .ro, .f, 0⟩]⟩,
  ⟨0x50194, [], [⟨31, 0, .ro, .f, 0⟩]⟩,
  ⟨0x50198, [], [⟨31, 0, .ro, .f, 0⟩]⟩]

/-- The registers of the PKE window. -/
def regsPKE : List RegDef := regsPKE0 ++ regsPKE1

def regsPLY0 : List RegDef := [
  ⟨0x60000, [], [⟨16, 0, .rw, .h, 2000⟩]⟩,
  ⟨0x60004, [], [⟨31, 24, .rw, .h, 64⟩, ⟨23, 12, .rw, .h, 1000⟩]⟩,
  ⟨0x60008, [], [⟨31, 16, .rw, .h, 2000⟩, ⟨4, 0, .rw, .h, 3⟩]⟩,
  ⟨0x6000C, [], [⟨31, 16, .rw, .h, 200⟩, ⟨9, 0, .rw, .h, 16⟩]⟩,
  ⟨0x60010, [], [⟨20, 0, .ro, .f, 0⟩]⟩,
  ⟨0x60014, [], [⟨20, 0, .ro, .f, 0⟩]⟩,
  ⟨0x60018, [], [⟨0, 0, .wo, .h, 0⟩]⟩,
  ⟨0x60020, [], [⟨3, 3, .w1c, .h, 0⟩, ⟨2, 2, .w1c, .h, 0⟩, ⟨1, 1, .w1c, .h, 0⟩, ⟨0, 0, .w1c, .h, 0⟩]⟩,
  ⟨0x60024, [], [⟨3, 0, .rw, .h, 3⟩]⟩,
  ⟨0x60100, [], [⟨31, 0, .ro, .f, 0⟩]⟩,
  ⟨0x60104, [], [⟨31, 0, .ro, .f, 0⟩]⟩,
  ⟨0x60108, [], [⟨31, 0, .ro, .f, 0⟩]⟩,
  ⟨0x6010C, [], [⟨31, 0, .ro, .f, 0⟩]⟩,
  ⟨0x60110, [], [⟨31, 0, .ro, .f, 0⟩]⟩,
  ⟨0x60114, [], [⟨31, 0, .ro, .f, 0⟩]⟩,
  ⟨0x60118, [], [⟨31, 0, .ro, .f, 0⟩]⟩,
  ⟨0x6011C, [], [⟨31, 0, .ro, .f, 0⟩]⟩,
  ⟨0x60120, [], [⟨31, 0, .ro, .f, 0⟩]⟩,
  ⟨0x60124, [], [⟨31, 0, .ro, .f, 0⟩]⟩,
  ⟨0x60128, [], [⟨31, 0, .ro, .f, 0⟩]⟩]

def regsPLY1 : List RegDef := [
  ⟨0x6012C, [], [⟨31, 0, .ro, .f, 0⟩]⟩,
  ⟨0x60130, [], [⟨31, 0, .ro, .f, 0⟩]⟩,
  ⟨0x60134, [], [⟨31, 0, .ro, .f, 0⟩]⟩,
  ⟨0x60138, [], [⟨31, 0, .ro, .f, 0⟩]⟩,
  ⟨0x6013C, [], [⟨31, 0, .ro, .f, 0⟩]⟩]

/-- The registers of the PLY window. -/
def regsPLY : List RegDef := regsPLY0 ++ regsPLY1

def regsFCE0 : List RegDef := [
  ⟨0x70000, [(0x1000, 16)], [⟨0, 0, .rw, .f, 0⟩]⟩,
  ⟨0x70004, [(0x1000, 16)], [⟨5, 5, .ro, .f, 0⟩, ⟨4, 4, .ro, .f, 0⟩, ⟨2, 0, .ro, .f, 0⟩]⟩,
  ⟨0x70008, [(0x1000, 16)], [⟨13, 0, .ro, .f, 0⟩]⟩,
  ⟨0x7000C, [(0x1000, 16)], [⟨31, 16, .ro, .f, 0⟩, ⟨15, 0, .ro, .f, 0⟩]⟩,
  ⟨0x70010, [(0x1000, 16)], [⟨0, 0, .wo, .h, 0⟩]⟩,
  ⟨0x70014, [(0x1000, 16)], [⟨4, 4, .w1c, .h, 0⟩, ⟨3, 3, .w1c, .h, 0⟩, ⟨2, 2, .w1c, .h, 0⟩, ⟨1, 1, .w1c, .h, 0⟩, ⟨0, 0, .w1c, .h, 0⟩]⟩,
  ⟨0x70018, [(0x1000, 16)], [⟨4, 0, .rw, .h, 30⟩]⟩,
  ⟨0x70020, [(0x1000, 16)], [⟨12, 0, .rw, .h, 0⟩]⟩,
  ⟨0x70024, [(0x1000, 16)], [⟨31, 31, .ro, .f, 0⟩, ⟨30, 30, .ro, .f, 0⟩, ⟨29, 29, .ro, .f, 0⟩, ⟨28, 28, .ro, .f, 0⟩, ⟨27, 27, .ro, .f, 0⟩, ⟨26, 26, .ro, .f, 0⟩, ⟨25, 22, .ro, .f, 0⟩, ⟨21, 20, .ro, .f, 0⟩, ⟨19, 18, .ro, .f, 0⟩, ⟨16, 0, .ro, .f, 0⟩]⟩,
  ⟨0x70028, [(0x1000, 16)], [⟨23, 0, .ro, .f, 0⟩]⟩,
  ⟨0x7002C, [(0x1000, 16)], [⟨31, 0, .ro, .f, 0⟩]⟩,
  ⟨0x70030, [(0x1000, 16)], [⟨23, 0, .ro, .f, 0⟩]⟩,
  ⟨0x70034, [(0x1000, 16)], [⟨23, 0, .ro, .f, 0⟩]⟩,
  ⟨0x70038, [(0x1000, 16)], [⟨31, 31, .ro, .f, 0⟩, ⟨17, 6, .ro, .f, 0⟩, ⟨5, 0, .ro, .f, 0⟩]⟩,
  ⟨0x7003C, [(0x1000, 16)], [⟨31, 0, .ro, .f, 0⟩]⟩,
  ⟨0x70100, [(0x1000, 16)], [⟨31, 0, .ro, .f, 0⟩]⟩,
  ⟨0x70104, [(0x1000, 16)], [⟨31, 0, .ro, .f, 0⟩]⟩,
  ⟨0x70108, [(0x1000, 16)], [⟨31, 0, .ro, .f, 0⟩]⟩,
  ⟨0x7010C, [(0x1000, 16)], [⟨31, 0, .ro, .f, 0⟩]⟩,
  ⟨0x70110, [(0x1000, 16)], [⟨31, 0, .ro, .f, 0⟩]⟩]

def regsFCE1 : List RegDef := [
  ⟨0x70114, [(0x1000, 16)], [⟨31, 0, .ro, .f, 0⟩]⟩,
  ⟨0x70118, [(0x1000, 16)], [⟨31, 0, .ro, .f, 0⟩]⟩,
  ⟨0x7011C, [(0x1000, 16)], [⟨31, 0, .ro, .f, 0⟩]⟩,
  ⟨0x70120, [(0x1000, 16)], [⟨31, 0, .ro, .f, 0⟩]⟩,
  ⟨0x70124, [(0x1000, 16)], [⟨31, 0, .ro, .f, 0⟩]⟩,
  ⟨0x70128, [(0x1000, 16)], [⟨31, 0, .ro, .f, 0⟩]⟩,
  ⟨0x70800, [(0x1000, 16)], [⟨27, 16, .ro, .f, 0⟩, ⟨15, 0, .ro, .f, 0⟩]⟩]

/-- The registers of the FCE window. -/
def regsFCE : List RegDef := regsFCE0 ++ regsFCE1

def regsECE0 : List RegDef := [
  ⟨0x80000, [(0x800, 32)], [⟨0, 0, .rw, .f, 0⟩]⟩,
  ⟨0x80004, [(0x800, 32)], [⟨5, 5, .ro, .f, 0⟩, ⟨4, 4, .ro, .f, 0⟩, ⟨2, 0, .ro, .f, 0⟩]⟩,
  ⟨0x80008, [(0x800, 32)], [⟨31, 16, .ro, .f, 0⟩, ⟨15, 0, .ro, .f, 0⟩]⟩,
  ⟨0x8000C, [(0x800, 32)], [⟨31, 16, .ro, .f, 0⟩, ⟨15, 0, .ro, .f, 0⟩]⟩,
  ⟨0x80010, [(0x800, 32)], [⟨0, 0, .wo, .h, 0⟩]⟩,
  ⟨0x80014, [(0x800, 32)], [⟨4, 4, .w1c, .h, 0⟩, ⟨3, 3, .w1c, .h, 0⟩, ⟨2, 2, .w1c, .h, 0⟩, ⟨1, 1, .w1c, .h, 0⟩, ⟨0, 0, .w1c, .h, 0⟩]⟩,
  ⟨0x80018, [(0x800, 32)], [⟨4, 0, .rw, .h, 30⟩]⟩,
  ⟨0x80100, [(0x800, 32)], [⟨31, 0, .ro, .f, 0⟩]⟩,
  ⟨0x80104, [(0x800, 32)], [⟨31, 0, .ro, .f, 0⟩]⟩,
  ⟨0x80108, [(0x800, 32)], [⟨31, 0, .ro, .f, 0⟩]⟩,
  ⟨0x8010C, [(0x800, 32)], [⟨31, 0, .ro, .f, 0⟩]⟩,
  ⟨0x80110, [(0x800, 32)], [⟨31, 0, .ro, .f, 0⟩]⟩,
  ⟨0x80114, [(0x800, 32)], [⟨31, 0, .ro, .f, 0⟩]⟩,
  ⟨0x80118, [(0x800, 32)], [⟨31, 0, .ro, .f, 0⟩]⟩,
  ⟨0x8011C, [(0x800, 32)], [⟨31, 0, .ro, .f, 0⟩]⟩,
  ⟨0x80120, [(0x800, 32)], [⟨31, 0, .ro, .f, 0⟩]⟩,
  ⟨0x80124, [(0x800, 32)], [⟨31, 0, .ro, .f, 0⟩]⟩,
  ⟨0x80128, [(0x800, 32)], [⟨31, 0, .ro, .f, 0⟩]⟩,
  ⟨0x8012C, [(0x800, 32)], [⟨31, 0, .ro, .f, 0⟩]⟩]

/-- The registers of the ECE window. -/
def regsECE : List RegDef := regsECE0

def regsKNL0 : List RegDef := [
  ⟨0x90000, [], [⟨1, 1, .rw, .h, 1⟩, ⟨0, 0, .rw, .h, 0⟩]⟩,
  ⟨0x90004, [], [⟨16, 16, .ro, .f, 0⟩, ⟨7, 0, .ro, .f, 128⟩]⟩,
  ⟨0x90008, [], [⟨23, 20, .rw, .h, 12⟩, ⟨19, 16, .rw, .h, 0⟩, ⟨15, 12, .rw, .h, 6⟩, ⟨11, 8, .rw, .h, 4⟩, ⟨7, 4, .rw, .h, 10⟩, ⟨3, 0, .rw, .h, 8⟩]⟩,
  ⟨0x9000C, [], [⟨4, 0, .rw, .h, 12⟩]⟩,
  ⟨0x90010, [], [⟨31, 16, .rw, .h, 16384⟩, ⟨15, 0, .rw, .h, 14336⟩]⟩,
  ⟨0x90014, [], [⟨30, 16, .ro, .f, 0⟩, ⟨14, 0, .ro, .f, 0⟩]⟩,
  ⟨0x90018, [], [⟨28, 16, .ro, .f, 0⟩, ⟨12, 0, .ro, .f, 0⟩]⟩,
  ⟨0x9001C, [], [⟨17, 0, .ro, .f, 0⟩]⟩,
  ⟨0x90020, [], [⟨17, 0, .ro, .f, 0⟩]⟩,
  ⟨0x90024, [], [⟨1, 1, .wo, .h, 0⟩, ⟨0, 0, .wo, .h, 0⟩]⟩,
  ⟨0x90028, [], [⟨6, 4, .rw, .h, 0⟩, ⟨3, 0, .rw, .h, 0⟩]⟩,
  ⟨0x9002C, [], [⟨18, 0, .ro, .f, 0⟩]⟩,
  ⟨0x90030, [], [⟨5, 3, .rw, .h, 0⟩, ⟨2, 0, .rw, .h, 0⟩]⟩,
  ⟨0x90034, [], [⟨31, 31, .ro, .f, 0⟩, ⟨17, 0, .ro, .f, 0⟩]⟩,
  ⟨0x90038, [], [⟨4, 4, .rw, .h, 1⟩, ⟨3, 0, .rw, .h, 0⟩]⟩,
  ⟨0x9003C, [], [⟨6, 0, .rw, .h, 0⟩]⟩,
  ⟨0x90040, [], [⟨31, 29, .ro, .f, 0⟩, ⟨28, 16, .ro, .f, 0⟩, ⟨11, 0, .ro, .f, 0⟩]⟩,
  ⟨0x90044, [], [⟨17, 0, .ro, .f, 0⟩]⟩,
  ⟨0x90048, [], [⟨20, 0, .ro, .f, 0⟩]⟩,
  ⟨0x90050, [], [⟨3, 3, .w1c, .h, 0⟩, ⟨2, 2, .w1c, .h, 0⟩, ⟨1, 1, .w1c, .h, 0⟩, ⟨0, 0, .w1c, .h, 0⟩]⟩]

def regsKNL1 : List RegDef := [
  ⟨0x90054, [], [⟨3, 0, .rw, .h, 6⟩]⟩,
  ⟨0x90080, [(0x4, 16)], [⟨31, 0, .ro, .f, 0⟩]⟩,
  ⟨0x90100, [], [⟨31, 0, .ro, .f, 0⟩]⟩,
  ⟨0x90104, [], [⟨31, 0, .ro, .f, 0⟩]⟩,
  ⟨0x90108, [], [⟨31, 0, .ro, .f, 0⟩]⟩,
  ⟨0x9010C, [], [⟨31, 0, .ro, .f, 0⟩]⟩,
  ⟨0x90110, [], [⟨31, 0, .ro, .f, 0⟩]⟩,
  ⟨0x90114, [], [⟨31, 0, .ro, .f, 0⟩]⟩,
  ⟨0x90118, [], [⟨31, 0, .ro, .f, 0⟩]⟩,
  ⟨0x9011C, [], [⟨31, 0, .ro, .f, 0⟩]⟩,
  ⟨0x90120, [], [⟨31, 0, .ro, .f, 0⟩]⟩,
  ⟨0x90124, [], [⟨31, 0, .ro, .f, 0⟩]⟩,
  ⟨0x90128, [], [⟨31, 0, .ro, .f, 0⟩]⟩,
  ⟨0x9012C, [], [⟨31, 0, .ro, .f, 0⟩]⟩,
  ⟨0x90130, [], [⟨31, 0, .ro, .f, 0⟩]⟩,
  ⟨0x90134, [], [⟨31, 0, .ro, .f, 0⟩]⟩]

/-- The registers of the KNL window. -/
def regsKNL : List RegDef := regsKNL0 ++ regsKNL1

def regsMMU0 : List RegDef := [
  ⟨0xA0000, [], [⟨25, 24, .ro, .f, 2⟩, ⟨23, 16, .ro, .f, 8⟩, ⟨15, 8, .ro, .f, 32⟩, ⟨7, 0, .ro, .f, 8⟩]⟩,
  ⟨0xA0004, [], [⟨31, 16, .ro, .f, 8192⟩, ⟨13, 0, .ro, .f, 0⟩]⟩,
  ⟨0xA0008, [], [⟨13, 0, .ro, .f, 0⟩]⟩,
  ⟨0xA000C, [], [⟨0, 0, .wo, .h, 0⟩]⟩,
  ⟨0xA0010, [], [⟨11, 0, .rw, .h, 0⟩]⟩,
  ⟨0xA0014, [], [⟨27, 0, .rw, .f, 0⟩]⟩,
  ⟨0xA0018, [], [⟨31, 31, .rw, .f, 0⟩]⟩,
  ⟨0xA0020, [], [⟨31, 31, .wo, .f, 0⟩, ⟨30, 30, .ro, .f, 0⟩, ⟨29, 28, .rw, .f, 0⟩, ⟨11, 0, .rw, .f, 0⟩]⟩,
  ⟨0xA0024, [], [⟨15, 0, .rw, .f, 0⟩]⟩,
  ⟨0xA0028, [], [⟨31, 12, .rw, .f, 0⟩]⟩,
  ⟨0xA0030, [], [⟨31, 31, .wo, .f, 0⟩, ⟨30, 30, .ro, .f, 0⟩, ⟨29, 28, .ro, .f, 0⟩, ⟨13, 12, .rw, .f, 1⟩, ⟨11, 0, .rw, .f, 0⟩]⟩,
  ⟨0xA0034, [], [⟨15, 0, .rw, .f, 0⟩]⟩,
  ⟨0xA0038, [], [⟨31, 12, .rw, .f, 0⟩]⟩,
  ⟨0xA003C, [], [⟨7, 0, .rw, .f, 0⟩]⟩,
  ⟨0xA0040, [], [⟨31, 12, .rw, .f, 0⟩]⟩,
  ⟨0xA0050, [], [⟨8, 0, .ro, .f, 0⟩]⟩,
  ⟨0xA0054, [], [⟨7, 0, .rw, .h, 0⟩]⟩,
  ⟨0xA0058, [], [⟨31, 31, .ro, .f, 0⟩, ⟨30, 28, .ro, .f, 0⟩, ⟨27, 16, .ro, .f, 0⟩, ⟨11, 0, .ro, .f, 0⟩]⟩,
  ⟨0xA005C, [], [⟨1, 1, .wo, .f, 0⟩, ⟨0, 0, .wo, .f, 0⟩]⟩,
  ⟨0xA0080, [], [⟨7, 0, .rw, .h, 0⟩]⟩]

def regsMMU1 : List RegDef := [
  ⟨0xA0084, [], [⟨31, 31, .rw, .f, 0⟩, ⟨27, 16, .rw, .f, 0⟩, ⟨8, 4, .ro, .f, 0⟩, ⟨3, 0, .rw, .f, 4⟩]⟩,
  ⟨0xA0088, [], [⟨15, 0, .rw, .f, 0⟩]⟩,
  ⟨0xA008C, [], [⟨31, 5, .rw, .f, 0⟩]⟩,
  ⟨0xA0090, [], [⟨15, 0, .rw, .f, 0⟩]⟩,
  ⟨0xA0094, [], [⟨31, 5, .rw, .f, 0⟩]⟩,
  ⟨0xA0098, [], [⟨11, 0, .ro, .f, 0⟩]⟩,
  ⟨0xA009C, [], [⟨11, 0, .rw, .f, 0⟩]⟩,
  ⟨0xA00A0, [], [⟨4, 0, .rw, .h, 0⟩]⟩,
  ⟨0xA00A4, [], [⟨0, 0, .rw, .f, 0⟩]⟩,
  ⟨0xA00A8, [], [⟨23, 16, .ro, .f, 0⟩, ⟨5, 5, .ro, .f, 0⟩, ⟨4, 4, .ro, .f, 0⟩, ⟨2, 0, .ro, .f, 0⟩]⟩,
  ⟨0xA00AC, [], [⟨31, 16, .ro, .f, 0⟩, ⟨15, 0, .ro, .f, 0⟩]⟩,
  ⟨0xA00C0, [], [⟨3, 3, .w1c, .h, 0⟩, ⟨2, 2, .w1c, .h, 0⟩, ⟨1, 1, .w1c, .h, 0⟩, ⟨0, 0, .w1c, .h, 0⟩]⟩,
  ⟨0xA00C4, [], [⟨3, 0, .rw, .h, 14⟩]⟩,
  ⟨0xA0100, [(0x4, 8)], [⟨31, 0, .ro, .f, 0⟩]⟩,
  ⟨0xA0120, [], [⟨31, 0, .ro, .f, 0⟩]⟩,
  ⟨0xA0124, [], [⟨31, 0, .ro, .f, 0⟩]⟩,
  ⟨0xA0128, [], [⟨31, 0, .ro, .f, 0⟩]⟩,
  ⟨0xA012C, [], [⟨31, 0, .ro, .f, 0⟩]⟩,
  ⟨0xA0130, [], [⟨31, 0, .ro, .f, 0⟩]⟩,
  ⟨0xA0134, [], [⟨31, 0, .ro, .f, 0⟩]⟩]

def regsMMU2 : List RegDef := [
  ⟨0xA0138, [], [⟨31, 0, .ro, .f, 0⟩]⟩,
  ⟨0xA013C, [], [⟨31, 0, .ro, .f, 0⟩]⟩,
  ⟨0xA0140, [], [⟨31, 0, .ro, .f, 0⟩]⟩,
  ⟨0xA0144, [], [⟨31, 0, .ro, .f, 0⟩]⟩,
  ⟨0xA0148, [], [⟨31, 0, .ro, .f, 0⟩]⟩,
  ⟨0xA014C, [], [⟨31, 0, .ro, .f, 0⟩]⟩,
  ⟨0xA0150, [], [⟨31, 0, .ro, .f, 0⟩]⟩,
  ⟨0xA0154, [], [⟨31, 0, .ro, .f, 0⟩]⟩,
  ⟨0xA0158, [], [⟨31, 0, .ro, .f, 0⟩]⟩]

/-- The registers of the MMU window. -/
def regsMMU : List RegDef := regsMMU0 ++ regsMMU1 ++ regsMMU2

def regsFRP0 : List RegDef := [
  ⟨0xB0000, [], [⟨31, 16, .rw, .h, 20000⟩, ⟨2, 1, .rw, .h, 2⟩, ⟨0, 0, .rw, .h, 1⟩]⟩,
  ⟨0xB0004, [], [⟨31, 24, .rw, .h, 4⟩, ⟨15, 0, .rw, .h, 4000⟩]⟩,
  ⟨0xB0008, [], [⟨31, 16, .ro, .f, 0⟩, ⟨15, 0, .ro, .f, 0⟩]⟩,
  ⟨0xB000C, [], [⟨31, 16, .ro, .f, 0⟩, ⟨15, 0, .ro, .f, 0⟩]⟩,
  ⟨0xB0010, [], [⟨0, 0, .wo, .h, 0⟩]⟩,
  ⟨0xB0014, [], [⟨15, 8, .ro, .f, 0⟩, ⟨6, 0, .ro, .f, 0⟩]⟩,
  ⟨0xB0018, [], [⟨7, 1, .ro, .f, 0⟩, ⟨0, 0, .ro, .f, 0⟩]⟩,
  ⟨0xB001C, [], [⟨31, 0, .ro, .f, 0⟩]⟩,
  ⟨0xB0020, [(0x4, 8)], [⟨31, 0, .ro, .f, 0⟩]⟩,
  ⟨0xB0050, [], [⟨6, 6, .w1c, .h, 0⟩, ⟨5, 5, .w1c, .h, 0⟩, ⟨4, 4, .w1c, .h, 0⟩, ⟨3, 3, .w1c, .h, 0⟩, ⟨2, 2, .w1c, .h, 0⟩, ⟨1, 1, .w1c, .h, 0⟩, ⟨0, 0, .w1c, .h, 0⟩]⟩,
  ⟨0xB0054, [], [⟨6, 0, .rw, .h, 118⟩]⟩,
  ⟨0xB0100, [], [⟨31, 0, .ro, .f, 0⟩]⟩,
  ⟨0xB0104, [], [⟨31, 0, .ro, .f, 0⟩]⟩,
  ⟨0xB0108, [], [⟨31, 0, .ro, .f, 0⟩]⟩,
  ⟨0xB010C, [], [⟨31, 0, .ro, .f, 0⟩]⟩,
  ⟨0xB0110, [], [⟨31, 0, .ro, .f, 0⟩]⟩,
  ⟨0xB0114, [], [⟨31, 0, .ro, .f, 0⟩]⟩,
  ⟨0xB0118, [], [⟨31, 0, .ro, .f, 0⟩]⟩,
  ⟨0xB011C, [], [⟨31, 0, .ro, .f, 0⟩]⟩,
  ⟨0xB0120, [], [⟨31, 0, .ro, .f, 0⟩]⟩]

def regsFRP1 : List RegDef := [
  ⟨0xB0124, [], [⟨31, 0, .ro, .f, 0⟩]⟩]

/-- The registers of the FRP window. -/
def regsFRP : List RegDef := regsFRP0 ++ regsFRP1

def regsTND0 : List RegDef := [
  ⟨0xC0000, [], [⟨31, 24, .rw, .h, 64⟩, ⟨23, 16, .rw, .h, 0⟩, ⟨11, 0, .rwl, .h, 0⟩]⟩,
  ⟨0xC0004, [], [⟨16, 16, .ro, .f, 0⟩, ⟨15, 0, .ro, .f, 0⟩]⟩,
  ⟨0xC0008, [], [⟨16, 0, .rw, .h, 60000⟩]⟩,
  ⟨0xC000C, [], [⟨9, 0, .rw, .h, 400⟩]⟩,
  ⟨0xC0010, [], [⟨31, 31, .ro, .f, 0⟩, ⟨26, 24, .ro, .f, 5⟩, ⟨22, 20, .ro, .f, 6⟩, ⟨17, 16, .ro, .f, 0⟩]⟩,
  ⟨0xC0014, [], [⟨3, 0, .rw, .h, 1⟩]⟩,
  ⟨0xC0018, [], [⟨15, 0, .rw, .h, 512⟩]⟩,
  ⟨0xC001C, [], [⟨31, 0, .rw, .h, 0⟩]⟩,
  ⟨0xC0020, [], [⟨11, 0, .rw, .h, 0⟩]⟩,
  ⟨0xC0024, [], [⟨31, 31, .ro, .f, 0⟩, ⟨30, 30, .ro, .f, 0⟩, ⟨26, 24, .ro, .f, 0⟩, ⟨23, 16, .ro, .f, 0⟩, ⟨15, 0, .ro, .f, 0⟩]⟩,
  ⟨0xC0028, [], [⟨31, 31, .ro, .f, 0⟩, ⟨30, 30, .ro, .f, 0⟩, ⟨26, 24, .ro, .f, 0⟩, ⟨23, 16, .ro, .f, 0⟩, ⟨15, 0, .ro, .f, 0⟩]⟩,
  ⟨0xC0030, [], [⟨5, 5, .w1c, .h, 0⟩, ⟨4, 4, .w1c, .h, 0⟩, ⟨3, 3, .w1c, .h, 0⟩, ⟨2, 2, .w1c, .h, 0⟩, ⟨1, 1, .w1c, .h, 0⟩, ⟨0, 0, .w1c, .h, 0⟩]⟩,
  ⟨0xC0034, [], [⟨5, 0, .rw, .h, 27⟩]⟩,
  ⟨0xC0100, [], [⟨31, 0, .ro, .f, 0⟩]⟩,
  ⟨0xC0104, [], [⟨31, 0, .ro, .f, 0⟩]⟩,
  ⟨0xC0108, [], [⟨31, 0, .ro, .f, 0⟩]⟩,
  ⟨0xC010C, [], [⟨31, 0, .ro, .f, 0⟩]⟩,
  ⟨0xC0110, [], [⟨31, 0, .ro, .f, 0⟩]⟩,
  ⟨0xC0114, [], [⟨31, 0, .ro, .f, 0⟩]⟩,
  ⟨0xC0118, [], [⟨31, 0, .ro, .f, 0⟩]⟩]

def regsTND1 : List RegDef := [
  ⟨0xC011C, [], [⟨31, 0, .ro, .f, 0⟩]⟩,
  ⟨0xC0120, [], [⟨31, 0, .ro, .f, 0⟩]⟩,
  ⟨0xC0124, [], [⟨31, 0, .ro, .f, 0⟩]⟩,
  ⟨0xC0128, [], [⟨31, 0, .ro, .f, 0⟩]⟩,
  ⟨0xC012C, [], [⟨31, 0, .ro, .f, 0⟩]⟩,
  ⟨0xC0130, [], [⟨31, 0, .ro, .f, 0⟩]⟩,
  ⟨0xC0134, [], [⟨31, 0, .ro, .f, 0⟩]⟩]

/-- The registers of the TND window. -/
def regsTND : List RegDef := regsTND0 ++ regsTND1

def regsGRN0 : List RegDef := [
  ⟨0xD0000, [], [⟨31, 16, .ro, .f, 32768⟩, ⟨15, 0, .ro, .f, 32768⟩]⟩,
  ⟨0xD0004, [], [⟨31, 16, .ro, .f, 8192⟩, ⟨15, 0, .ro, .f, 8192⟩]⟩,
  ⟨0xD0008, [], [⟨16, 0, .rw, .h, 40000⟩]⟩,
  ⟨0xD000C, [], [⟨15, 10, .rw, .h, 0⟩, ⟨9, 9, .rw, .h, 0⟩, ⟨8, 5, .rw, .h, 0⟩, ⟨3, 0, .rw, .h, 0⟩]⟩,
  ⟨0xD0010, [], [⟨15, 13, .ro, .f, 0⟩, ⟨12, 12, .ro, .f, 0⟩, ⟨11, 11, .ro, .f, 0⟩, ⟨10, 10, .ro, .f, 0⟩, ⟨9, 9, .ro, .f, 0⟩, ⟨8, 8, .ro, .f, 0⟩, ⟨4, 4, .ro, .f, 0⟩, ⟨2, 0, .ro, .f, 0⟩]⟩,
  ⟨0xD0014, [], [⟨31, 0, .ro, .f, 0⟩]⟩,
  ⟨0xD0018, [], [⟨31, 0, .ro, .f, 0⟩]⟩,
  ⟨0xD001C, [], [⟨15, 0, .ro, .f, 0⟩]⟩,
  ⟨0xD0020, [], [⟨31, 31, .ro, .f, 0⟩, ⟨28, 12, .ro, .f, 0⟩, ⟨4, 4, .ro, .f, 0⟩, ⟨2, 0, .ro, .f, 0⟩]⟩,
  ⟨0xD0024, [], [⟨31, 16, .ro, .f, 0⟩, ⟨5, 5, .ro, .f, 0⟩, ⟨4, 4, .ro, .f, 0⟩, ⟨2, 0, .ro, .f, 0⟩]⟩,
  ⟨0xD0028, [], [⟨31, 0, .ro, .f, 0⟩]⟩,
  ⟨0xD0030, [], [⟨7, 7, .w1c, .h, 0⟩, ⟨6, 6, .w1c, .h, 0⟩, ⟨5, 5, .w1c, .h, 0⟩, ⟨4, 4, .w1c, .h, 0⟩, ⟨3, 3, .w1c, .h, 0⟩, ⟨2, 2, .w1c, .h, 0⟩, ⟨1, 1, .w1c, .h, 0⟩, ⟨0, 0, .w1c, .h, 0⟩]⟩,
  ⟨0xD0034, [], [⟨7, 0, .rw, .h, 174⟩]⟩,
  ⟨0xD0100, [], [⟨31, 0, .ro, .f, 0⟩]⟩,
  ⟨0xD0104, [], [⟨31, 0, .ro, .f, 0⟩]⟩,
  ⟨0xD0108, [], [⟨31, 0, .ro, .f, 0⟩]⟩,
  ⟨0xD010C, [], [⟨31, 0, .ro, .f, 0⟩]⟩,
  ⟨0xD0110, [], [⟨31, 0, .ro, .f, 0⟩]⟩,
  ⟨0xD0114, [], [⟨31, 0, .ro, .f, 0⟩]⟩,
  ⟨0xD0118, [], [⟨31, 0, .ro, .f, 0⟩]⟩]

def regsGRN1 : List RegDef := [
  ⟨0xD011C, [], [⟨31, 0, .ro, .f, 0⟩]⟩,
  ⟨0xD0120, [], [⟨31, 0, .ro, .f, 0⟩]⟩,
  ⟨0xD0124, [], [⟨31, 0, .ro, .f, 0⟩]⟩,
  ⟨0xD0128, [], [⟨31, 0, .ro, .f, 0⟩]⟩,
  ⟨0xD012C, [], [⟨31, 0, .ro, .f, 0⟩]⟩,
  ⟨0xD0130, [], [⟨31, 0, .ro, .f, 0⟩]⟩]

/-- The registers of the GRN window. -/
def regsGRN : List RegDef := regsGRN0 ++ regsGRN1

def regsBAL0 : List RegDef := [
  ⟨0xE0000, [], [⟨3, 0, .rw, .f, 0⟩]⟩,
  ⟨0xE0004, [], [⟨0, 0, .wo, .h, 0⟩]⟩,
  ⟨0xE0010, [(0x4, 4)], [⟨15, 8, .ro, .f, 0⟩, ⟨5, 5, .ro, .f, 0⟩, ⟨4, 4, .ro, .f, 0⟩, ⟨2, 0, .ro, .f, 0⟩]⟩,
  ⟨0xE0020, [(0x4, 4)], [⟨31, 16, .ro, .f, 0⟩, ⟨15, 0, .ro, .f, 0⟩]⟩,
  ⟨0xE0040, [], [⟨1, 0, .rw, .h, 0⟩]⟩,
  ⟨0xE0044, [], [⟨31, 31, .rw, .f, 0⟩, ⟨27, 16, .rw, .f, 0⟩, ⟨8, 4, .ro, .f, 0⟩, ⟨3, 0, .rw, .f, 4⟩]⟩,
  ⟨0xE0048, [], [⟨15, 0, .rw, .f, 0⟩]⟩,
  ⟨0xE004C, [], [⟨31, 5, .rw, .f, 0⟩]⟩,
  ⟨0xE0050, [], [⟨15, 0, .rw, .f, 0⟩]⟩,
  ⟨0xE0054, [], [⟨31, 5, .rw, .f, 0⟩]⟩,
  ⟨0xE0058, [], [⟨11, 0, .ro, .f, 0⟩]⟩,
  ⟨0xE005C, [], [⟨11, 0, .rw, .f, 0⟩]⟩,
  ⟨0xE0060, [], [⟨4, 4, .w1c, .h, 0⟩, ⟨3, 3, .w1c, .h, 0⟩, ⟨2, 2, .w1c, .h, 0⟩, ⟨1, 1, .w1c, .h, 0⟩, ⟨0, 0, .w1c, .h, 0⟩]⟩,
  ⟨0xE0064, [], [⟨4, 0, .rw, .h, 30⟩]⟩,
  ⟨0xE0100, [], [⟨31, 0, .ro, .f, 0⟩]⟩,
  ⟨0xE0104, [], [⟨31, 0, .ro, .f, 0⟩]⟩,
  ⟨0xE0108, [], [⟨31, 0, .ro, .f, 0⟩]⟩,
  ⟨0xE010C, [], [⟨31, 0, .ro, .f, 0⟩]⟩,
  ⟨0xE0110, [], [⟨31, 0, .ro, .f, 0⟩]⟩,
  ⟨0xE0114, [], [⟨31, 0, .ro, .f, 0⟩]⟩]

def regsBAL1 : List RegDef := [
  ⟨0xE0118, [], [⟨31, 0, .ro, .f, 0⟩]⟩,
  ⟨0xE011C, [], [⟨31, 0, .ro, .f, 0⟩]⟩,
  ⟨0xE0120, [], [⟨31, 0, .ro, .f, 0⟩]⟩,
  ⟨0xE0124, [], [⟨31, 0, .ro, .f, 0⟩]⟩]

/-- The registers of the BAL window. -/
def regsBAL : List RegDef := regsBAL0 ++ regsBAL1

def regsGLN0 : List RegDef := [
  ⟨0xF0000, [], [⟨23, 20, .rw, .h, 1⟩, ⟨19, 16, .rw, .h, 1⟩, ⟨15, 12, .rw, .h, 1⟩, ⟨1, 1, .rw, .h, 1⟩, ⟨0, 0, .rw, .h, 1⟩]⟩,
  ⟨0xF0004, [], [⟨23, 16, .ro, .f, 0⟩, ⟨15, 8, .ro, .f, 0⟩, ⟨2, 2, .ro, .f, 0⟩, ⟨1, 1, .ro, .f, 0⟩, ⟨0, 0, .ro, .f, 0⟩]⟩,
  ⟨0xF0008, [], [⟨31, 16, .ro, .f, 0⟩, ⟨15, 0, .ro, .f, 0⟩]⟩,
  ⟨0xF000C, [], [⟨31, 16, .ro, .f, 0⟩, ⟨15, 0, .ro, .f, 0⟩]⟩,
  ⟨0xF0010, [], [⟨31, 16, .ro, .f, 40000⟩, ⟨15, 0, .ro, .f, 44000⟩]⟩,
  ⟨0xF0014, [], [⟨7, 7, .rw, .h, 0⟩, ⟨6, 0, .rw, .h, 0⟩]⟩,
  ⟨0xF0018, [], [⟨15, 8, .ro, .f, 16⟩, ⟨7, 0, .ro, .f, 8⟩]⟩,
  ⟨0xF001C, [], [⟨28, 16, .ro, .f, 4096⟩, ⟨12, 0, .ro, .f, 0⟩]⟩,
  ⟨0xF0020, [], [⟨7, 1, .ro, .f, 0⟩, ⟨0, 0, .ro, .f, 0⟩]⟩,
  ⟨0xF0024, [(0x4, 8)], [⟨31, 0, .ro, .f, 0⟩]⟩,
  ⟨0xF0050, [], [⟨6, 6, .w1c, .h, 0⟩, ⟨5, 5, .w1c, .h, 0⟩, ⟨4, 4, .w1c, .h, 0⟩, ⟨3, 3, .w1c, .h, 0⟩, ⟨2, 2, .w1c, .h, 0⟩, ⟨1, 1, .w1c, .h, 0⟩, ⟨0, 0, .w1c, .h, 0⟩]⟩,
  ⟨0xF0054, [], [⟨6, 0, .rw, .h, 95⟩]⟩,
  ⟨0xF0058, [], [⟨0, 0, .wo, .h, 0⟩]⟩,
  ⟨0xF0060, [], [⟨16, 16, .rw, .d, 0⟩, ⟨15, 0, .rw, .d, 0⟩]⟩,
  ⟨0xF0100, [], [⟨31, 0, .ro, .f, 0⟩]⟩,
  ⟨0xF0104, [], [⟨31, 0, .ro, .f, 0⟩]⟩,
  ⟨0xF0108, [], [⟨31, 0, .ro, .f, 0⟩]⟩,
  ⟨0xF010C, [], [⟨31, 0, .ro, .f, 0⟩]⟩,
  ⟨0xF0110, [], [⟨31, 0, .ro, .f, 0⟩]⟩,
  ⟨0xF0114, [], [⟨31, 0, .ro, .f, 0⟩]⟩]

def regsGLN1 : List RegDef := [
  ⟨0xF0118, [], [⟨31, 0, .ro, .f, 0⟩]⟩,
  ⟨0xF011C, [], [⟨31, 0, .ro, .f, 0⟩]⟩,
  ⟨0xF0120, [], [⟨31, 0, .ro, .f, 0⟩]⟩,
  ⟨0xF0124, [], [⟨31, 0, .ro, .f, 0⟩]⟩,
  ⟨0xF0128, [], [⟨31, 0, .ro, .f, 0⟩]⟩]

/-- The registers of the GLN window. -/
def regsGLN : List RegDef := regsGLN0 ++ regsGLN1

def regsBGW0 : List RegDef := [
  ⟨0x100000, [], [⟨31, 24, .rw, .h, 10⟩, ⟨23, 16, .rw, .h, 30⟩, ⟨15, 8, .rw, .h, 20⟩, ⟨0, 0, .rw, .h, 1⟩]⟩,
  ⟨0x100004, [], [⟨31, 16, .ro, .f, 0⟩, ⟨15, 0, .ro, .f, 0⟩]⟩,
  ⟨0x100008, [], [⟨31, 16, .ro, .f, 0⟩, ⟨15, 0, .ro, .f, 0⟩]⟩,
  ⟨0x10000C, [], [⟨7, 0, .ro, .f, 0⟩]⟩,
  ⟨0x100010, [], [⟨31, 0, .ro, .f, 0⟩]⟩,
  ⟨0x100014, [], [⟨31, 31, .ro, .f, 0⟩, ⟨15, 0, .rw, .h, 100⟩]⟩,
  ⟨0x100018, [], [⟨31, 24, .rw, .h, 115⟩, ⟨23, 16, .rw, .h, 105⟩, ⟨15, 8, .rw, .h, 100⟩, ⟨7, 0, .rw, .h, 5⟩]⟩,
  ⟨0x10001C, [], [⟨31, 16, .ro, .f, 0⟩, ⟨15, 12, .ro, .f, 0⟩, ⟨1, 0, .ro, .f, 0⟩]⟩,
  ⟨0x100030, [], [⟨6, 6, .w1c, .h, 0⟩, ⟨5, 5, .w1c, .h, 0⟩, ⟨4, 4, .w1c, .h, 0⟩, ⟨3, 3, .w1c, .h, 0⟩, ⟨2, 2, .w1c, .h, 0⟩, ⟨1, 1, .w1c, .h, 0⟩, ⟨0, 0, .w1c, .h, 0⟩]⟩,
  ⟨0x100034, [], [⟨6, 0, .rw, .h, 95⟩]⟩,
  ⟨0x100040, [(0x4, 16)], [⟨15, 0, .ro, .f, 0⟩]⟩,
  ⟨0x100100, [], [⟨31, 0, .ro, .f, 0⟩]⟩,
  ⟨0x100104, [], [⟨31, 0, .ro, .f, 0⟩]⟩,
  ⟨0x100108, [], [⟨31, 0, .ro, .f, 0⟩]⟩,
  ⟨0x10010C, [], [⟨31, 0, .ro, .f, 0⟩]⟩,
  ⟨0x100110, [], [⟨31, 0, .ro, .f, 0⟩]⟩,
  ⟨0x100114, [], [⟨31, 0, .ro, .f, 0⟩]⟩,
  ⟨0x100118, [], [⟨31, 0, .ro, .f, 0⟩]⟩,
  ⟨0x10011C, [], [⟨31, 0, .ro, .f, 0⟩]⟩,
  ⟨0x100120, [], [⟨31, 0, .ro, .f, 0⟩]⟩]

/-- The registers of the BGW window. -/
def regsBGW : List RegDef := regsBGW0

def regsPRS0 : List RegDef := [
  ⟨0x110000, [], [⟨4, 4, .ro, .f, 0⟩, ⟨2, 0, .ro, .f, 0⟩]⟩,
  ⟨0x110004, [], [⟨16, 0, .ro, .f, 0⟩]⟩,
  ⟨0x110008, [], [⟨31, 0, .ro, .f, 0⟩]⟩,
  ⟨0x11000C, [], [⟨31, 0, .ro, .f, 0⟩]⟩,
  ⟨0x110010, [], [⟨31, 16, .ro, .f, 0⟩, ⟨15, 8, .ro, .f, 64⟩, ⟨7, 0, .ro, .f, 0⟩]⟩,
  ⟨0x110014, [], [⟨6, 0, .ro, .f, 0⟩]⟩,
  ⟨0x110020, [], [⟨4, 4, .w1c, .h, 0⟩, ⟨3, 3, .w1c, .h, 0⟩, ⟨2, 2, .w1c, .h, 0⟩, ⟨1, 1, .w1c, .h, 0⟩, ⟨0, 0, .w1c, .h, 0⟩]⟩,
  ⟨0x110024, [], [⟨4, 0, .rw, .h, 31⟩]⟩,
  ⟨0x110100, [], [⟨31, 0, .ro, .f, 0⟩]⟩,
  ⟨0x110104, [], [⟨31, 0, .ro, .f, 0⟩]⟩,
  ⟨0x110108, [], [⟨31, 0, .ro, .f, 0⟩]⟩,
  ⟨0x11010C, [], [⟨31, 0, .ro, .f, 0⟩]⟩,
  ⟨0x110110, [], [⟨31, 0, .ro, .f, 0⟩]⟩,
  ⟨0x110114, [], [⟨31, 0, .ro, .f, 0⟩]⟩]

/-- The registers of the PRS window. -/
def regsPRS : List RegDef := regsPRS0

/-- The registers of window number `b` (address bits [31:16], R26). -/
def regsOf (b : Nat) : List RegDef :=
  match b with
  | 0 => regsID
  | 1 => regsSWT
  | 2 => regsTMU
  | 3 => regsMAC
  | 4 => regsQCP
  | 5 => regsPKE
  | 6 => regsPLY
  | 7 => regsFCE
  | 8 => regsECE
  | 9 => regsKNL
  | 10 => regsMMU
  | 11 => regsFRP
  | 12 => regsTND
  | 13 => regsGRN
  | 14 => regsBAL
  | 15 => regsGLN
  | 16 => regsBGW
  | 17 => regsPRS
  | _ => []

/-- The indices at which offset `off` falls in an array of the given dimensions, or none. -/
def dimIdx : List (Nat × Nat) → Nat → Option (List Nat)
  | [], off => if off = 0 then some [] else none
  | (st, cnt) :: ds, off =>
    if off / st < cnt then (dimIdx ds (off % st)).map (off / st :: ·) else none

/-- The indices at which address `a` is an instance of register definition `d`, or none. -/
def RegDef.at? (d : RegDef) (a : Nat) : Option (List Nat) :=
  if a < d.base then none else dimIdx d.dims (a - d.base)

/-- The first definition of a list that address `a` instantiates. -/
def findReg : List RegDef → Nat → Option (RegDef × List Nat)
  | [], _ => none
  | d :: ds, a => match d.at? a with
    | some ix => some (d, ix)
    | none => findReg ds a

/-- The register at an address, with its indices (R26, R27). -/
def regAt (a : Nat) : Option (RegDef × List Nat) := findReg (regsOf (a / 0x10000)) a

/-- The reset value of a register put together from its fields (R10, R13). -/
def packReset : List FDef → Nat
  | [] => 0
  | f :: fs => f.reset * 2 ^ f.lo + packReset fs

/-- The reset values that differ from one instance to another (R113, R128, R129, R145). -/
def resetByIndex (a : Nat) : Option Nat :=
  if a / 0x10000 = 3 ∧ a < 0x38000 then
    let p := (a - 0x30000) / 0x1000
    let o := (a - 0x30000) % 0x1000
    if o = 0 then
      let role := if p = 0 then 0 else if p < 5 then 1 else if p < 7 then 2 else 3
      let qcp := if p = 0 ∨ p = 7 then 1 else 0
      some (5 * 2 ^ 9 + 2 ^ 8 + qcp * 2 ^ 7 + role * 4)
    else if o = 0x1C then
      some ((if p = 7 then 0 else 1) * 2 ^ 16 + 0xFF * 2 ^ 8 + 0x7F)
    else if 0x40 ≤ o ∧ o < 0x60 then
      let n := (o - 0x40) / 4
      some (if p = 7 then (if n = 7 then 64 else 32) else
        match n with | 4 => 1024 | 5 => 1536 | 6 => 512 | 7 => 512 | _ => 256)
    else if 0x60 ≤ o ∧ o < 0x80 then
      let n := (o - 0x60) / 4
      let kib := match n with | 4 => 1024 | 5 => 1536 | 6 => 512 | _ => 256
      some (if n = 7 then 0 else if p = 7 then 24 * 2 ^ 16 + 16 else (kib - 64) * 2 ^ 16 + (kib - 96))
    else none
  else none

/-- The reset value of the register at an address; 0 where the spec defines none (R13, R27). -/
def regReset (a : Nat) : Nat :=
  match resetByIndex a with
  | some v => v
  | none => match regAt a with
    | some (d, _) => packReset d.fields
    | none => 0

end Sys2Proof.Machine
end

