-- ==== Sys2Proof/Machine/State.lean ====
section
/-! DEFINITION. The state of the block as plain data, and its reset. Times: an `Inst` is a TMU instant in units of
2^-16 ns (R8); local time counts 2^-40 ns and is not moved by steps. -/

namespace Sys2Proof.Machine

/-- Faults. The spec stops the block nowhere: a refusal is a QCP status and a physical fault is an event with effects.
`none` is raised by no meaning (safe: nothing can rest on it). -/
inductive Fault where
  /-- Raised by nothing; safe. -/
  | none
  deriving DecidableEq, Repr

/-- Refusals. -/
inductive Refusal where
  /-- Raised by `exec` for a command whose meaning is not written; safe: the run stops. -/
  | notModelled (mnemonic : String)
  deriving DecidableEq, Repr

/-- A TMU instant in units of 2^-16 ns (R8). -/
abbrev Inst := Nat

/-- The function states of R17. -/
inductive FnState where
  | off | starting | on | stopping | failed
  deriving DecidableEq, Repr

/-- The code that status registers give a function state. -/
def FnState.code : FnState → Nat
  | .off => 0 | .starting => 1 | .on => 2 | .stopping => 3 | .failed => 4

/-- What R17 to R20 call a function: a port, a leg, an engine, a session, a capture, a tap or inject ring, a player, the servo, or PRS
(R540). -/
inductive FnId where
  | port (p : Nat)
  | leg (l : Nat)
  | fce (e : Nat)
  | ece (e : Nat)
  | dma (e : Nat)
  | bal (e : Nat)
  | sess (m : Nat)
  | cap (c : Nat)
  | tap (r : Nat)
  | inj (r : Nat)
  | player (p : Nat)
  | servo
  | prs
  deriving DecidableEq, Repr

/-- The report of one transition of a function (R20): which function, from which state to which, and when. -/
structure FnRep where
  fn : FnId
  src : FnState
  dst : FnState
  at_ : Inst
  deriving DecidableEq, Repr

/-- The function state of a code; the codes 5 to 7 are given to no state. -/
def FnState.ofCode (n : Nat) : FnState :=
  match n with
  | 0 => .off | 1 => .starting | 2 => .on | 3 => .stopping | _ => .failed

/-! ### Pins and power (R23, R574-R577, R588, R589) -/

/-- The control pins. -/
structure Pins where
  pwrgood : Bool
  resetN : Bool
  testEn : Bool
  bootsel : BitVec 2
  i2cadr : BitVec 2
  thermN : Bool
  faultN : Bool
  deriving DecidableEq, Repr

/-- How far the part has come up: held in reset, a start under way (R552), in service (S14 complete), in recovery boot
(R561), or ended by a shutdown (R562) or in life-cycle state END (R525). -/
inductive Mode where
  | reset | starting | service | recovery | halted
  deriving DecidableEq, Repr

/-! ### Time unit (R69-R107) -/

/-- The lock states of R80. -/
inductive Lock where
  | free | acquiring | locked | holdover | routeGuard
  deriving DecidableEq, Repr

/-- The code of a lock state in TMU_STAT.LOCK (R109). -/
def Lock.code : Lock → Nat
  | .free => 0 | .acquiring => 1 | .locked => 2 | .holdover => 3 | .routeGuard => 4

/-- An offset sample (R81): offset in 2^-16 ns, weight, mean path delay or none, port. -/
structure Ofs where
  o : Int
  wt : Nat
  mpd : Option Nat
  port : Nat
  deriving DecidableEq, Repr

/-- The servo (R80-R90). Rates are in 2^-39 ppb; `holdMs` is the holdover timeout in force since the last push (R110). -/
structure Servo where
  st : FnState
  pendEn : Bool
  lock : Lock
  iRate : Int
  y : Int
  yRef : Int
  slewLim : Bool
  relock : Bool
  haveRef : Bool
  oRef : Int
  mpdRef : Option Nat
  mpdPrev : Option Nat
  guardEnd : Nat
  lockRun : Nat
  unlockRun : Nat
  lastPush : Nat
  holdMs : Nat
  holdAt : Nat
  limitAt : Option Nat
  disHeld : Bool
  deriving DecidableEq, Repr

/-- A timed output as armed (R101): latched start and period in 2^-16 ns, width in ns, index of the next occurrence to
drive, the index after the last one driven since the ARM, the earliest instant at which it may fire, whether a late first pulse is owed,
and the tick number until which a pulse is active. -/
structure Tout where
  start : Inst
  per : Nat
  width : Nat
  nextJ : Nat
  doneJ : Nat
  fireAt : Inst
  late : Bool
  run : Bool
  activeUntil : Nat
  deriving DecidableEq, Repr

/-- A captured edge (R105). -/
structure Cap where
  at_ : Inst
  rise : Bool
  deriving DecidableEq, Repr

/-- An event input: FIFO, tick number of the last captured edge, latches of the entry last popped, by register reads through QCP and through I2C
(R106, R595). -/
structure Tin where
  fifo : List Cap
  last : Option Nat
  latch : Inst
  latchI : Inst
  deriving DecidableEq, Repr

/-- The time unit. `acc` is SEC, NS, FRAC and the 24 bits below FRAC, as a count of 2^-40 ns (R69, R70); `loc` counts
the same unit of elapsed local time, which no step moves, and `tick` the ticks of domain 15. -/
structure Tmu where
  acc : Nat
  loc : Nat
  tick : Nat
  steps : List (Nat × Int)
  refArmed : Bool
  pendSet : Option Nat
  pendStep : Option Int
  ofs : List Ofs
  srv : Servo
  tout : KV Tout
  tin : KV Tin
  latQ : Inst
  latI : Inst
  ptpRole : Bytes
  ptpPorts : KV Bytes
  ptpUnicast : KV Bytes
  deriving DecidableEq, Repr

/-! ### Swath (R32-R68) -/

/-- Load of one placement entry (R50, R53): cycle units, staged KiB, echo units. -/
structure Load where
  cyc : Nat
  st : Nat
  eu : Nat
  deriving DecidableEq, Repr

/-- The swath timer. `bT` is the TMU instant of the current boundary, `bLoc` its local time, `nextT` the TMU instant of
the next boundary, `d` the length of the current swath in 2^-16 ns, and the phase starts as elapsed 2^-16 ns, as
moved by slips (R45, R46); `q` is the full quotient of R33 that the swath in progress began with; `due` lists leg and bytes of the changes that took effect at the boundary (R407); `loftWait` holds the writes
of SWT_LOFT_BUD whose replies wait (R372): mailbox, sequence, payload; `chgs` holds the changes that name no leg, as a leg's does. -/
structure Swt where
  begun : Bool
  firstT : Option Inst
  bT : Inst
  bLoc : Nat
  nextT : Inst
  d : Nat
  workAt : Nat
  emitAt : Nat
  guardAt : Nat
  q : Nat
  gatherDone : Bool
  slipped : Bool
  due : List (Nat × Nat)
  load : KV Load
  overs : List Nat
  loftWait : List (Nat × Nat × Bytes)
  chgs : KV (Bool × Nat)
  deriving DecidableEq, Repr

/-! ### Frames and ports (R113-R147) -/

/-- A received frame in a class buffer: its bytes without FCS and its receive stamp. -/
structure RxFrame where
  bytes : Bytes
  stamp : Inst
  deriving DecidableEq, Repr

/-- Who queued a transmit frame: its write-back goes there (R95, R117, R127). -/
inductive TxOrigin where
  | none
  | qcp
  | leg (l : Nat)
  | dma (ring idx : Nat)
  | inject (ring idx : Nat)
  | pattern (pl : Nat)
  | xport (capture : Bool) (id : Nat)
  | parcel
  deriving DecidableEq, Repr

/-- A transmit frame: its bytes without FCS, class, the gates that apply beside its class gate (R180), who queued it,
whether a transmit stamp is asked for (R95), and for a transit frame its ingress port and receive stamp (R98). -/
structure TxFrame where
  bytes : Bytes
  tc : Nat
  media : Bool
  playback : Bool
  exportG : Bool
  group : Option Nat
  origin : TxOrigin
  tsReq : Bool
  ingress : Option (Nat × Inst)
  deriving DecidableEq, Repr

/-- A port beyond its registers. `backoff` is the local time at which a back-off ends (R140); `maxF` and `roleF` are the frame limit and the
role in force, latched when the port leaves OFF (R145), and none while the reset values are. -/
structure Port where
  live : Bool
  rxq : KV (List RxFrame)
  txq : KV (List TxFrame)
  waiting : KV (List TxFrame)
  wire : Option TxFrame
  fcDue : Nat
  disHeld : Bool
  pauseUntil : KV Nat
  refreshAt : Nat
  attempts : Nat
  backoff : Option Nat
  maxF : Option Nat
  roleF : Option Nat
  peak : KV Nat
  cntLatQ : KV Word
  cntLatI : KV Word
  deriving DecidableEq, Repr

/-- A PORT_MDIO command that waits for its frames: its session, sequence number, opcode, whether it was journaled, and the
MAC_MDIO_CMD words of the frames still to run (R142, R143). -/
structure MdioJob where
  mbox : Nat
  seq : Nat
  opcode : Nat
  jrn : Bool
  words : List Nat
  deriving DecidableEq, Repr

/-- The MDIO master beyond its registers: whether the running frame is the first job's, and the jobs in order. -/
structure Mdio where
  own : Bool
  jobs : List MdioJob
  deriving DecidableEq, Repr

/-! ### Control (R148-R192) -/

/-- A frame in a command ring. -/
structure CmdFrame where
  bulk : Bool
  more : Bool
  seq : Nat
  fam : Nat
  op : Nat
  payload : Bytes
  deriving DecidableEq, Repr

/-- A reply: its sequence number, its frames, the size of its result, and whether it is on its way. -/
structure Reply where
  seq : Nat
  frames : List Bytes
  size : Nat
  deriving DecidableEq, Repr

/-- A queued event. -/
structure Evt where
  op : Nat
  at_ : Inst
  block : Nat
  data : Bytes
  seq : Nat
  deriving DecidableEq, Repr

/-- A command that awaits bulk frames (R602). -/
structure Bulk where
  seq : Nat
  fam : Nat
  op : Nat
  payload : Bytes
  deriving DecidableEq, Repr

/-- A session: one mailbox pair (R152-R163). -/
structure Session where
  st : FnState
  gen : Nat
  keyId : Nat
  role : Nat
  port : Nat
  mac : Nat
  tags : List (BitVec 32)
  nh : Bytes
  np : Bytes
  ks : Bytes
  lease : Nat
  leaseEnd : Nat
  proveBy : Nat
  expect : Nat
  ring : List CmdFrame
  bulk : Option Bulk
  out : List Bytes
  rplRing : List Bytes
  replies : List Reply
  evq : List Evt
  evSeq : Nat
  evLost : Nat
  mask : Nat
  after : Option (Nat × Bytes)
  defer : Bool
  deriving DecidableEq, Repr

/-- A host key (R153). -/
structure HostKey where
  key : Bytes
  role : Nat
  deriving DecidableEq, Repr

/-- A muzzle key with the last counter accepted (R179, R186). -/
structure MzKey where
  key : Bytes
  ctr : Nat
  deriving DecidableEq, Repr

/-- A gate that a muzzle closed: the local time (2^-16 ns) of its closing, its release (none = hold) (R183). -/
structure GateSt where
  closeLoc : Nat
  release : Option Inst
  deriving DecidableEq, Repr

/-- A journaled command whose record is not yet committed (R171), and whether its payload came with bulk frames. -/
structure Jrnl where
  mbox : Nat
  seq : Nat
  opcode : Nat
  payload : Bytes
  plan : List Nat
  bulk : Bool
  deriving DecidableEq, Repr

/-- A muzzle frame that waits for its check: its bytes after the EtherType, the TMU instant and the local time of its last
bit (R179, R181). -/
structure MzIn where
  bytes : Bytes
  at_ : Inst
  loc : Nat
  deriving DecidableEq, Repr

/-- The mailboxes. -/
structure Qcp where
  sess : KV Session
  opens : List OpenReq
  openSec : Nat
  openUsed : Nat
  rrAdmin : Nat
  rrOther : Nat
  jrnl : Option Jrnl
  mzIn : List MzIn
  gates : KV GateSt
  mzDirty : Bool
  mzLatQ : KV Word
  mzLatI : KV Word
  deriving DecidableEq, Repr

/-! ### Packet engine (R193-R218) -/

/-- A flow table entry (R196-R199). `place` is its bucket, or none in the stash. Addresses are numbers; VIDs may be
absent; `src` and `sport` belong to the FULL key or to a STRICT source. -/
structure FlowEnt where
  leg : Nat
  kind : Nat
  full : Bool
  port : Nat
  ovid : Option Nat
  ivid : Option Nat
  ver : Nat
  dst : Nat
  dport : Nat
  src : Nat
  sport : Nat
  smode : Nat
  latched : Option (Nat × Nat)
  heard : Inst
  place : Option Nat
  deriving DecidableEq, Repr

/-- The packet engine's own state: flow table and its seed, the slow path's token bucket and queue, frames for the PTP
stack. Slow-path tokens are in thousandths of a frame. -/
structure Pke where
  flows : List FlowEnt
  seed : Nat
  slowTok : Nat
  slowAt : Nat
  slowQ : List (Nat × Bytes)
  ptpQ : List (Nat × RxFrame)
  deriving DecidableEq, Repr

/-! ### Granary and pattern store (R457-R484) -/

/-- A comparator of 32 bytes at an offset (R459). -/
structure Cmp where
  off : Nat
  value : Bytes
  mask : Bytes
  deriving DecidableEq, Repr

/-- A source of R458: kind 0 PORT, 1 LEG, 2 TAP; directions bit 0 RX, bit 1 TX. -/
structure Source where
  kind : Nat
  dirs : Nat
  ports : Nat
  classes : Nat
  leg : Nat
  taps : Nat
  deriving DecidableEq, Repr

/-- Where export frames go, at what rate and under which key (R468, R469). -/
structure ExpTo where
  port : Nat
  dst : Nat
  tags : List (BitVec 32)
  mbps : Nat
  key : Bytes
  deriving DecidableEq, Repr

/-- A unit of a capture's stream, a record or a bale: stream offset, bytes, latest stamp of its records. -/
structure Rec where
  off : Nat
  data : Bytes
  stamp : Inst
  deriving DecidableEq, Repr

/-- A running export: destination, next stream offset, RESYNC owed, local time at which the next frame may go. -/
structure ExpJob where
  dest : ExpTo
  pos : Nat
  resync : Bool
  nextAt : Nat
  deriving DecidableEq, Repr

/-- A capture (R457-R470). -/
structure Capture where
  isOpen : Bool
  st : FnState
  pendEn : Bool
  stopMode : Bool
  bale : Bool
  mib : Nat
  snap : Nat
  src : Source
  trig : Nat
  tone : Nat
  pre : Nat
  post : Nat
  timeT : Inst
  filt : Cmp
  tcmp : Cmp
  recs : List Rec
  off : Nat
  rseq : Nat
  drop : Bool
  tt : Option Inst
  late : Bool
  preShort : Bool
  endCause : Nat
  enAt : Inst
  disAt : Option Inst
  overStamp : Option Inst
  baleBuf : Bytes
  baleStamp : Inst
  exp : Option ExpJob
  deriving DecidableEq, Repr

/-- A tap or inject ring (R472-R476). Tap: entries written and not yet sent; inject: entries stored and not yet launched,
write-backs pending with the local time of each. -/
structure GRing where
  isOpen : Bool
  st : FnState
  pendEn : Bool
  n : Nat
  src : Source
  filt : Cmp
  snap : Nat
  dest : ExpTo
  mib : Nat
  idx : Nat
  credit : Nat
  ents : List (Nat × Bytes × Nat)
  launched : Nat
  wbs : List (Nat × Bytes × Nat)
  wbNext : Nat
  nextAt : Nat
  deriving DecidableEq, Repr

/-- An item of a pattern: kind 1-3, distance from the first stamp in 2^-16 ns, data, port, class, rate code, and for a TAP item
the flags of its record and its U. -/
structure PItem where
  kind : Nat
  di : Nat
  data : Bytes
  port : Nat
  cls : Nat
  rate : Nat
  fl : Nat
  u : Nat
  deriving DecidableEq, Repr

/-- A pattern: loaded or EMPTY (R471, R477). -/
structure Pattern where
  empty : Bool
  bytes : Nat
  items : List PItem
  deriving DecidableEq, Repr

/-- A player (R478-R480). `shift` is the lateness of its start in 2^-16 ns; items whose instants are at or before `passed` were
passed over by a step (R479). -/
structure Player where
  st : FnState
  pendEn : Bool
  pat : Nat
  start : Inst
  shift : Nat
  reps : Nat
  per : Nat
  port : Option Nat
  cls : Option Nat
  leg : Option Nat
  rep : Nat
  item : Nat
  done : Nat
  late : Bool
  lateNs : Nat
  passed : Inst
  deriving DecidableEq, Repr

/-- The granary. -/
structure Grn where
  caps : KV Capture
  taps : KV GRing
  injs : KV GRing
  pats : KV Pattern
  plys : KV Player
  expAt : Nat
  strmLatQ : Nat
  strmLatI : Nat
  tapQ : KV (List (Inst × PItem))
  recAt : Nat
  balAt : Nat
  deriving DecidableEq, Repr

/-! ### What survives a device reset -/

/-- An entry of the fate table (R423): boot, session number, key id, highest committed sequence, map. -/
structure Fate where
  boot : Nat
  session : Nat
  keyId : Nat
  h : Nat
  map : Nat
  deriving DecidableEq, Repr

/-- A journal record (R420) without its framing: number, boot number, session number, role, key id, sequence, opcode, payload,
instant of the commit, decision of the check, whether the payload holds bulk frames. -/
structure JRec where
  recno : Nat
  boot : Nat
  session : Nat
  role : Nat
  keyId : Nat
  seq : Nat
  opcode : Nat
  payload : Bytes
  at_ : Inst
  result : Nat
  bulk : Bool
  deriving DecidableEq, Repr

/-- A checkpoint (R541): the record it covers, and the records whose re-execution gives its configuration. -/
structure Ckpt where
  recno : Nat
  recs : List JRec
  deriving DecidableEq, Repr

/-- A firmware slot (R560, R565): state 0 empty, 1 valid, 2 invalid, and its image with the signature. -/
structure FwSlot where
  st : Nat
  image : Bytes
  deriving DecidableEq, Repr

/-- The exporter's setting (R544): enable, port, IP version, collector and source address, UDP port, VLAN tags, destination MAC
(log entry 15), interval in s, enterprise number. -/
structure Ipfix where
  en : Bool
  port : Nat
  ver : Nat
  dst : Nat
  src : Nat
  dport : Nat
  tags : List (BitVec 32)
  mac : Nat
  per : Nat
  ent : Nat
  deriving DecidableEq, Repr

/-- What survives a device reset: PRS, fuses and the key store. `srtp` holds for a leg the receive and transmit indices
of SRTP, then of SRTCP, recorded under R206; `keyLost` is one above the newest record when the key store was last cleared (R204); `outs` the units mapped out or FAILED (R513); `shut` the boot number of the newest shutdown test and whether
it is clean (R559); `s13at` the record that S13 was executing (R552); `sinceCk` bytes written since the newest checkpoint;
`wear` the model's own count of writes to the record die, which its free values are applied to (log entry 24). -/
structure Nv where
  hostKeys : KV HostKey
  mzKeys : KV MzKey
  mzRec : List (Nat × Nat) × List Nat
  fates : List Fate
  srtp : KV (Nat × Nat × Nat × Nat)
  keyLost : Nat
  boot : Nat
  recno : Nat
  jrnl : List JRec
  ck0 : Option Ckpt
  ck1 : Option Ckpt
  sinceCk : Nat
  wear : Nat
  slog : List Bytes
  slogN : Nat
  plan : List Nat
  fails : Nat
  s14 : Bool
  lastCause : Nat
  lastFull : Option Inst
  fullNext : Bool
  recNext : Bool
  s13at : Option Nat
  fwA : FwSlot
  fwB : FwSlot
  committed : Nat
  trial : Option Nat
  bkgGib : Nat
  patGib : Nat
  repair : List Word
  fused : List Word
  outs : List (Nat × Nat)
  shut : Option (Nat × Bool)
  lc : Nat
  lcNext : Option Nat
  ipfix : Option Ipfix
  prsFailed : Bool
  spares : Nat
  retired : Nat
  deriving DecidableEq, Repr

/-! ### Templates and coefficient sets (R249-R260, R310-R318) -/

/-- A node of a template (R318): type code, input references, output rate code, parameter bytes 4 to 15. -/
structure Node where
  ty : Nat
  in0 : Nat
  in1 : Nat
  rate : Nat
  par : Bytes
  deriving DecidableEq, Repr

/-- A template (R310, R318). -/
structure Template where
  f : Nat
  relay : Bool
  exp : Option Nat
  peer : Option Nat
  nodes : List Node
  bytes : Bytes
  deriving DecidableEq, Repr

/-- A stage (R249, R257): type, factor, ROM response when SRC is 1, shift, LEN, declared delay and settle count. -/
structure Stage where
  ty : Nat
  factor : Nat
  rom : Option Nat
  sh : Nat
  len : Nat
  dg : Nat
  dc : Nat
  deriving DecidableEq, Repr

/-- A coefficient set (R256, R257). -/
structure CoefSet where
  stages : List Stage
  coefs : List (List Int)
  bytes : Bytes
  deriving DecidableEq, Repr

/-! ### Media state of a leg -/

/-- A pending swap (R261): instant, none for a T of all ones (R60), fade length, local time of arming in 2^-16 ns; `hit` once its sample fell
in a running fade (R264), and whether that sample was late. -/
structure Swap where
  t : Option Inst
  x : Nat
  armLoc : Nat
  hit : Bool
  late : Bool
  deriving DecidableEq, Repr

/-- A filter chain (R244, R258, R263, R270-R275). `path` holds each stage's line, newest first; `old` the old path's while
a fade runs; `line` the phase-delay line; `recd` the samples recorded since the last reset; `owed` while the reset at the first call of a new
chain is to come, `fresh` until the first output after a reset. -/
structure Chain where
  eng : Nat
  slot : Nat
  fIn : Nat
  layout : List Stage
  fadeOk : Bool
  maxD : Nat
  bankA : Option Nat
  bankB : Option Nat
  live : Bool
  en : Bool
  d : Nat
  phi : Nat
  swap : Option Swap
  late : Bool
  defer : Bool
  lateness : Nat
  path : List (List Int)
  old : List (List Int)
  fadeX : Nat
  fadeJ : Nat
  line : List Int
  recd : Nat
  suppr : Nat
  settle : Nat
  sats : List Nat
  lastAt : Option Inst
  fresh : Bool
  owed : Bool
  deriving DecidableEq, Repr

/-- What the canceller keeps of a sub-block (R293, R306): the sums of squares of Rin, Sin, Sout before the NLP and Sout, whether it holds no
double talk with Rin above the level of R293, and whether it is one of far-end single talk (R295), which has no hangover either. -/
structure EchoSub where
  rin : Nat
  sin : Nat
  pre : Nat
  out : Nat
  ok : Bool
  single : Bool
  deriving DecidableEq, Repr

/-- A gain that moves linearly over one sub-block at each change (R295): where it comes from and goes to, in 2^-27, and the samples that it has
moved for. -/
structure Ramp where
  src : Nat
  dst : Nat
  pos : Nat
  deriving DecidableEq, Repr

/-- A canceller (R284-R299). `refill` counts the Rin samples owed before adaptation resumes; `fresh` while the clear of a new leg's first call
is to come, and `owed` the clears that the next call's engine counts (R299). `subs` holds the last 250 sub-blocks; `hang` and the other times
are in ms; `pendByp` and `pendNlp` are what tone disablers ask of the next call; `noise` is the register of the noise generator, `bg` the
background power as a mean square in 2^-136, `bands` its spectrum (R296), and `gain` the NLP's gain (R295). -/
structure EchoSt where
  weights : List Int
  hist : List Int
  endAt : Option Inst
  refill : Nat
  conv : Bool
  dt : Bool
  nlp : Bool
  bypass : Bool
  nlpOff : Bool
  held : Bool
  unset : Bool
  align : Bool
  dtCnt : Nat
  clears : Nat
  owed : Nat
  subs : List EchoSub
  hang : Nat
  quiet : Nat
  goodMs : Nat
  badMs : Nat
  divMs : Nat
  pendByp : Bool
  pendNlp : Bool
  noise : BitVec 32
  bg : Option Nat
  bands : List Int
  gain : Ramp
  fresh : Bool
  deriving DecidableEq, Repr

/-- The cadence of a call-progress profile (R322): whether its tones are there, for how many ms, the on-and-off pair that it is in, the whole
cycles so far. -/
structure CptSt where
  on : Bool
  ms : Nat
  ix : Nat
  good : Nat
  deriving DecidableEq, Repr

/-- A received telephone event block (R207, R231): time stamp, event, end bit, volume, duration. -/
structure TelEv where
  ts : Nat
  ev : Nat
  fin : Bool
  vol : Nat
  dur : Nat
  deriving DecidableEq, Repr

/-- A TONE node (R322-R327): memory of the analysis, running generator (segment bytes, repeats, samples done), codes of tones now on with their
onset instants, samples excluded in a row, for each code the ms for which its conditions have held and have ceased, the ms since the last phase
change of a reversal, the cadences of the profiles, and the received events that go on beyond the
frame that they came with (R326). -/
structure ToneSt where
  det : List Int
  gen : Option (Bytes × Nat × Nat)
  on : List (Nat × Inst)
  excl : Nat
  held : KV Nat
  gone : KV Nat
  turn : Option Nat
  cpt : KV CptSt
  tel : List TelEv
  deriving DecidableEq, Repr

/-- The media state of a leg, staged and committed as a whole (R37, R39). -/
structure Media where
  chains : KV Chain
  echo : Option EchoSt
  tones : KV ToneSt
  dec : List Int
  enc : List Int
  plc : List Int
  lossMs : Nat
  conc : Bool
  sid : Bool
  mixSat : Nat
  deriving DecidableEq, Repr

/-- A tone event: node, event code, kind (0 onset, 1 offset, 2 reversal), level in 1/16 dBm0, duration in ns, instant. -/
structure ToneEv where
  node : Nat
  code : Nat
  kind : Nat
  level : Int
  dur : Nat
  at_ : Inst
  deriving DecidableEq, Repr

/-- A block of samples on the swath timeline: instant of its first sample, rate code, samples, leading suppressed samples,
the marks UNSETTLED, SILENT and concealment. -/
structure Block where
  at_ : Inst
  rate : Nat
  xs : List Int
  u : Nat
  unset : Bool
  silent : Bool
  conceal : Bool
  evts : List ToneEv
  deriving DecidableEq, Repr

/-! ### Playout (R219-R240) -/

/-- The playout settings of R219. -/
structure PlyCfg where
  fixed : Bool
  delayUs : Nat
  minUs : Nat
  maxUs : Nat
  depth : Nat
  relay : Bool
  deriving DecidableEq, Repr

/-- A filed packet. `raw` is the whole RTP packet, for a relay leg; `pool` the cells it takes (R220). -/
structure PlyPkt where
  ext : Nat
  ts : Nat
  marker : Bool
  sid : Bool
  payload : Bytes
  raw : Bytes
  stamp : Inst
  pool : Nat
  deriving DecidableEq, Repr

/-- The settings of R242 that act on a leg, as its last due swath took them: samples per window, margin in µs, shrink hold in ms, packets before a
resynchronisation, skew limit in ppm, skew window in s. -/
structure PlyPar where
  win : Nat
  margin : Nat
  shrinkMs : Nat
  resyncN : Nat
  limPpm : Nat
  winS : Nat
  deriving DecidableEq, Repr

/-- The buffer of a leg. `anchorAt` is the boundary to which the anchor gave its frame, and 0 once it is reached; `handed` holds the cuts
of the frames handed of late, by time stamp; `insAt` is the time stamp of the packet before which an opportunity was taken (R237). -/
structure Ply where
  par : PlyPar
  insAt : Option Nat
  anchored : Bool
  anchorAt : Inst
  ts : Nat
  slots : KV PlyPkt
  seen : List Nat
  hi : Nat
  oow : Nat
  slack : List Int
  got : Nat
  sref : Option Int
  shrinkAt : Option Nat
  dtx : Bool
  lateTs : List Nat
  slipTs : List Nat
  evts : List TelEv
  skewPts : List (Nat × Int)
  skew : Int
  jit : Nat
  lastA : Option (Nat × Nat)
  delayUs : Nat
  sMax : Int
  handed : KV Inst
  deriving DecidableEq, Repr

/-! ### SRTP contexts (R202-R206) -/

/-- A key as installed: suite, MKI, key, salt, lifetime in packets, packets used for SRTP and SRTCP. -/
structure SKey where
  suite : Nat
  mki : Bytes
  key : Bytes
  salt : Bytes
  life : Nat
  used : Nat
  usedC : Nat
  deriving DecidableEq, Repr

/-- A context of one direction: keys, highest indices and replay maps for SRTP and SRTCP. -/
structure SCtx where
  cur : Option SKey
  next : Option SKey
  hi : Nat
  map : Nat
  hiC : Nat
  mapC : Nat
  valid : Bool
  eflag : Bool
  deriving DecidableEq, Repr

/-! ### Legs (R213, R310-R339) -/

/-- An egress template (R213). -/
structure Egress where
  port : Nat
  dst : Nat
  src : Nat
  tags : List (BitVec 32)
  ver : Nat
  ipDst : Nat
  ipSrc : Nat
  dscp : Nat
  ttl : Nat
  dport : Nat
  sport : Nat
  deriving DecidableEq, Repr

/-- The echo settings of R289; DT_DB in half dB; no tail while the node's default holds. -/
structure EchoCfg where
  tail : Option Nat
  adapt : Nat
  mu : Nat
  dt2 : Nat
  hang : Nat
  nlp : Nat
  att : Nat
  cng : Nat
  cngMax : Int
  toneDis : Nat
  deriving DecidableEq, Repr

/-- The configuration of a leg id, which stays until CHAN_CLEAR (R336). -/
structure LegCfg where
  egress : Option Egress
  rx : SCtx
  tx : SCtx
  ply : PlyCfg
  echo : EchoCfg
  bridge : Option Nat
  gains : KV Int
  group : Option Nat
  detPass : Bool
  evtIn : Nat
  notify : Option (Nat × Nat)
  tmpl : Nat
  ssrcG : Option Nat
  roffG : Option Nat
  seqG : Option Nat
  pts : Nat × Nat × Nat
  mode : Nat
  flags : Nat
  rtcpS : Nat
  xr : Bool
  ssrcFix : Option Nat
  deriving DecidableEq, Repr

/-- The receive side of a leg: learned SSRC with the local time it was last heard, telephone events ended and begun, and what RTCP told (R201):
NTP and RTP time stamp of the last SR and when it came, round trip in 2^-16 s, BYE, report and XR blocks. -/
structure RxSt where
  ssrc : Option Nat
  heard : Nat
  doneEv : List (Nat × Nat)
  begun : List Nat
  srNtp : Nat
  srTs : Nat
  srAt : Inst
  rtt : Nat
  bye : Bool
  reports : List Bytes
  deriving DecidableEq, Repr

/-- The transmit side of a leg (R208-R215); `evq` holds the events whose frames are to come (R326). -/
structure TxSt where
  ssrc : Nat
  roff : Nat
  seq : Nat
  lastTs : Nat
  marker : Bool
  pkts : Nat
  octets : Nat
  sent : Bool
  repAt : Inst
  ident : Nat
  event : Option (Nat × Nat × Inst)
  evq : List ToneEv
  lostFrames : Option Nat
  deriving DecidableEq, Repr

/-- A slot of a leash (R357): what fills it, or none while it is open; an empty payload list with `empty` is EMPTY. -/
structure LSlot where
  kind : Nat
  done : Bool
  empty : Bool
  frames : List (Nat × Nat × Bool × Bytes)
  deriving DecidableEq, Repr

/-- A leg (R338, R339): `held` is the payload of a held enable; `chgs` holds for each opcode whose change has taken effect on it LATE and
the lateness in ns of the newest one (R60, R62); `stats` are its counts and `statsC` what is read of them, which changes at a commit (R417); `fb` is its fallback frame (R40), `confAt` the boundary at which it joined its conference;
a leg that starts waits in STARTING until its first placed swath. -/
structure Leg where
  st : FnState
  pendEn : Bool
  held : Bytes
  cfg : LegCfg
  f : Nat
  phi : Nat
  cluster : Nat
  cost : Load
  slots : Nat
  full : Bool
  admitted : Bool
  created : Bool
  startSwn : Nat
  ply : Ply
  rx : RxSt
  tx : TxSt
  med : Media
  exp : Option Block
  expSwn : Nat
  fb : Bytes
  conf : Option Nat
  confAt : Inst
  leash : List LSlot
  stats : KV Nat
  statsC : KV Nat
  chgs : KV (Bool × Nat)
  deriving DecidableEq, Repr

/-- A conference (R328, R329): rate code, F, N, hysteresis in dB, offset once taken, participants with role TALK, previous
selection. -/
structure Conf where
  rate : Nat
  f : Nat
  n : Nat
  hyst : Nat
  phi : Option Nat
  parts : KV Bool
  sel : List Nat
  deriving DecidableEq, Repr

/-- When an armed change takes effect: at the first boundary at or after `t` (0 for all ones) once `skip` boundaries have
passed; whether it was armed too late for the boundary it names, and that boundary (R60, R62). -/
structure When where
  t : Inst
  skip : Bool
  late : Bool
  named : Inst
  deriving DecidableEq, Repr

/-- An armed change of a command (R60-R62): its instant, opcode, leg, payload, what its check decided, who sent it, and, where the re-execution of a
journal record armed it, the record's own instant (R422). -/
structure Armed where
  w : When
  op : Nat
  leg : Nat
  payload : Bytes
  plan : List Nat
  mbox : Nat
  gen : Nat
  recAt : Option Inst
  deriving DecidableEq, Repr

/-! ### Kennel (R340-R368) -/

/-- The states of R342. -/
inductive TaskSt where
  | waiting | ready | running | preempted | blocked | done | cancelled | faulted
  deriving DecidableEq, Repr

/-- The working copy of a task: media state, outputs by node, export, encoded payload, tap copies and events. -/
structure Work where
  med : Media
  outs : KV Block
  frame : Bytes
  noTx : Bool
  taps : List (Nat × Block)
  evts : List ToneEv
  encSid : Bool
  deriving DecidableEq, Repr

/-- A block of a remote source (R434, R436): the full number of its swath, whether SILENT, its samples. -/
structure RBlk where
  q : Nat
  silent : Bool
  blk : Block
  deriving DecidableEq, Repr

/-- A fault of a task that waits for its outcome (R425): instant, swath, class, core, unit byte, detail. -/
structure FRec where
  at_ : Inst
  swn : Nat
  cls : Nat
  core : Nat
  unit : Nat
  detail : Nat
  deriving DecidableEq, Repr

/-- A task entry (R341, R342). `rdy` orders the ready lists, `madeAt` is the local time of the first READY, `ranAt` of the
last dispatch, `used` the core cycles of its earlier runs; `wait` says what a BLOCKED task waits for: 0 nothing, 1 a page that moves, 2 a parked ring, numbered by
`waitOn`. `calls` are the dispatch instants of the engine calls made, whether they ended or not, each with the swap that was armed, `ranOn` the units (gleaner class, index) that ran it or served it (R511), `remote` the remote blocks found at READY (R436), `logOff` the place of the log record (none: unlogged),
`rsv` the replay reserve taken in KiB and `rsvAt` where, `eng` the DMA engine of its restage (R413), `frecs` the faults met, `ctx` the context of a
FIRMWARE or BACKGROUND task (R375), `frame` the task frame of the core that holds its context (R374, R506). -/
structure Task where
  kind : Nat
  leg : Option Nat
  st : TaskSt
  prio : Nat
  cluster : Nat
  core : Option Nat
  rdy : Nat
  madeAt : Nat
  ranAt : Nat
  used : Nat
  seen : Bool
  staged : Bool
  parcel : Bool
  reason : Nat
  sid : Bool
  pkt : Option PlyPkt
  tel : List TelEv
  ts : Nat
  b : Inst
  work : Option Work
  ing : Option (Nat × Nat)
  data : Bytes
  attempts : Nat
  notCore : Nat
  notEng : Option Nat
  logOff : Option Nat
  rsv : Nat
  eng : Option Nat
  frecs : List FRec
  calls : List (Nat × Option Swap)
  ranOn : List (Nat × Nat)
  callNo : Nat
  remote : KV (Option RBlk)
  wait : Nat
  waitOn : Nat
  rsvAt : Nat
  ctx : Nat
  frame : Nat
  deriving DecidableEq, Repr

/-- A call that is queued or running at an engine (R277, R303): its engine, echo engines counted from 32 on, its task, and the local instant of
its dispatch. -/
structure EngCall where
  eng : Nat
  task : Nat
  disp : Nat
  deriving DecidableEq, Repr

/-- A core: the task it runs, the tasks whose context it holds, whether it is mapped out, under a slice or hung
(R404), its counts of this and the last swath. -/
structure Core where
  run : Option Nat
  held : List Nat
  mapped : Bool
  slice : Bool
  hung : Bool
  tasks : Nat
  busy : Nat
  lastTasks : Nat
  lastBusy : Nat
  deriving DecidableEq, Repr

/-- The kennel. Tasks are keyed by creation order; `sysHeld` are the creations that wait for a SYS entry (R361), `sysSt` the
statuses that the firmware got for creations refused (R362). -/
structure Knl where
  tasks : KV Task
  nextId : Nat
  cores : KV Core
  rdySeq : Nat
  bp : List Nat
  bgCyc : Nat
  lastStage : Option Nat
  sysHeld : List SysMake
  sysSt : List Nat
  deriving DecidableEq, Repr

/-- A shutdown (R562-R564): phase 0 none and 1-6 for D1-D6, action, flags, local time (2^-16 ns) at which the drain ends,
who began it (none for thermal level CRITICAL), and what D2 stopped: legs
and players as they were, captures, tap and inject rings. -/
structure Shut where
  phase : Nat
  action : Nat
  skip : Bool
  forget : Bool
  drainEnd : Nat
  by_ : Option (Nat × Nat)
  legs : KV Leg
  caps : List Nat
  plys : KV Player
  rings : List (Nat × Nat)
  deriving DecidableEq, Repr

/-! ### Memory and DMA (R369-R402), faults (R425) -/

/-- A descriptor that an engine has taken from a ring (R387, R389): its place and bytes, bytes moved, phase (0 to run, 1 at
a fault, 2 parked, 3 ended, 4 a TX frame that is queued), status, cause, faulting VA or INFO, byte 1 flags of the completion, ABANDONED, stamp,
whether its pins are raised (R383), the bytes that a TX has read so far (R388), the task that queued it (R394). -/
structure Desc where
  idx : Nat
  b : Bytes
  done : Nat
  phase : Nat
  status : Nat
  cause : Nat
  info : Nat
  fl : Nat
  ab : Bool
  ts : Option Inst
  pinned : Bool
  buf : Bytes
  task : Option Nat
  deriving DecidableEq, Repr

/-- A descriptor ring (R385, R401), with the frames delivered to it for RX (frame, class, port), the ports that its RX descriptors have
named (R388), and for the entries that a task queued the task and whether the Work deadline has cancelled it (R394, R398). -/
structure DRing where
  en : Bool
  ctx : Nat
  log2 : Nat
  dbase : Nat
  cbase : Nat
  head : Nat
  tail : Nat
  descs : List Desc
  frames : List (RxFrame × Nat × Nat)
  rxPorts : List Nat
  own : KV (Nat × Bool)
  deriving DecidableEq, Repr

/-- A DMA engine (R384): function state, held requests, slice, bytes moved in this swath and the last, peak in 64 KiB. -/
structure DEng where
  st : FnState
  en : Bool
  pendEn : Bool
  test : Bool
  acc : Nat
  last : Nat
  peak : Nat
  deriving DecidableEq, Repr

/-- A stage area (R395-R397): leg, boundary it is staged for, KiB, engine, and what runs on it: 0 waits for space, 1 stage-in,
2 staged, 3 write-back, 4 stage-in parked, 5 write-back parked. An engine of 32 and up is engine - 32 with the area in the
replay reserve (R412). `pa` is its address; of the descriptor that runs on it the ring index, and at a park the bytes moved and the
faulting VA (R387, R392). -/
structure Area where
  leg : Nat
  b : Inst
  kib : Nat
  eng : Nat
  st : Nat
  pa : Nat
  idx : Nat
  done : Nat
  info : Nat
  deriving DecidableEq, Repr

/-- A page move under way (R381): context, VA, where it goes, its new address, old state and address. -/
structure Move where
  ctx : Nat
  va : Nat
  toSt : Nat
  pa : Nat
  entry : Nat
  deriving DecidableEq, Repr

/-- A page that the MOVE unit put into the general loft (R371): its address, bytes, context and VA. -/
structure GenPage where
  pa : Nat
  bytes : Nat
  ctx : Nat
  va : Nat
  deriving DecidableEq, Repr

/-- A TLB entry (R377, R380): context, first address of its page, the page-table entry that it holds and where that lies. -/
structure TlbEnt where
  ctx : Nat
  va : Nat
  entry : Nat
  at_ : Nat
  deriving DecidableEq, Repr

/-- Memory, contexts, rings and engines; `gen` lists the pages in use of the general loft, `sigs` the rings whose owner a completion
with NOTIFY has signalled, in order (R387). -/
structure Mmu where
  mem : List Host.Cell
  roots : KV Nat
  valid : KV Bool
  rings : KV DRing
  engs : KV DEng
  pins : KV Nat
  move : Option Move
  areas : List Area
  rr : KV Nat
  gen : List GenPage
  tlb : KV (List TlbEnt)
  inv : Option (Nat × Nat × Nat)
  sigs : List Nat
  deriving DecidableEq, Repr

/-- The fault queue, the swath log's use in 64-byte units, the record last popped through I2C (R408, R425, R595; the one popped through QCP is
held by the registers), the media tasks that ended in this swath, to which a later FAIL of a unit still refers (R418), and for each leg the
place of its log record, its replay attempts and the core of its last replay, in the half of this swath and in that of the last, which is
kept (R408). -/
structure Frp where
  recs : List Bytes
  logU : Nat
  latI : Bytes
  ended : List Task
  logAt : KV (Nat × Nat × Nat)
  prevAt : KV (Nat × Nat × Nat)
  deriving DecidableEq, Repr

/-! ### Gleaner (R503-R531) -/

/-- A running slice: unit class and index (for memory, bank or core), segment, slice number, local start in 2^-16 ns,
whether it repeats a FAIL (R512) or belongs to the test of a hung core (R514). -/
structure Slice where
  cls : Nat
  idx : Nat
  seg : Nat
  num : Nat
  start : Nat
  conf : Bool
  hang : Bool
  deriving DecidableEq, Repr

/-- What the gleaner keeps of a unit (R511-R514, R527): slices passed in the current pass, last verdict, instant of the last
full pass, slice that awaits confirmation, whether it is out of service, whether its pass under BIST_REQUEST or R514 runs,
whether a slice failed in it, and the slices, a bit each, that the pass over all units has had from it (R515). -/
structure UnitT where
  passed : Nat
  verdict : Nat
  full : Inst
  await : Option Nat
  out : Bool
  asked : Bool
  bad : Bool
  cov : Nat
  deriving DecidableEq, Repr

/-- The gleaner: slices running, unit records by class * 4096 + index, slices started in this swath by kind (cores, engines,
memory), the queue of results, the request of BIST_REQUEST, local starts of the current passes, units that return
at the next boundary, loft banks whose spare segment is taken (R517), an armed nonce for fuses and for the life cycle,
the record last popped through I2C (R521, R595), the unit last taken in turn of each kind, the units whose slice was cut short (R505),
and the repair entries in force (R519). -/
structure Gln where
  run : List Slice
  units : KV UnitT
  nCore : Nat
  nEng : Nat
  nMem : Nat
  recs : List Bytes
  req : Option (Nat × Nat)
  passLoc : Nat
  memLoc : Nat
  back : List (Nat × Nat)
  skip : List Nat
  armF : Option (Nat × Nat × Nat × List Nat)
  armL : Option (Nat × Nat × Nat × Nat)
  latI : Bytes
  turn : KV Nat
  cut : List Nat
  applied : List (BitVec 32)
  deriving DecidableEq, Repr

/-! ### Tandem (R430-R456) -/

/-- A tandem link: its state code (0 DOWN, 1 UP, 2 MISMATCH, 3 BLOCKED), boundaries since the last HELLO, whether one came in
this swath, the neighbour's device, whether its last HELLO matched, whether the link failed in a ring. -/
structure TLink where
  st : Nat
  miss : Nat
  got : Bool
  dev : Nat
  ok : Bool
  failed : Bool
  deriving DecidableEq, Repr

/-- A route (R439): primary port, hops and wire ns; alternate or none; whether a failover uses the alternate. -/
structure Route where
  pPort : Nat
  pHops : Nat
  pWire : Nat
  aPort : Option Nat
  aHops : Nat
  aWire : Nat
  alt : Bool
  deriving DecidableEq, Repr

/-- An export of a leg to a device, in force from its boundary on (R448). -/
structure TExport where
  leg : Nat
  dev : Nat
  on : Bool
  deriving DecidableEq, Repr

/-- An import (R449): consumer, source device and leg, mode (0 SAME, 1 NEXT), rate, source offset, F, in force. -/
structure TImport where
  leg : Nat
  dev : Nat
  src : Nat
  mode : Nat
  rate : Nat
  phi : Nat
  f : Nat
  on : Bool
  deriving DecidableEq, Repr

/-- A remote participant of a conference (R451). -/
structure TConf where
  conf : Nat
  dev : Nat
  src : Nat
  phi : Nat
  on : Bool
  deriving DecidableEq, Repr

/-- A migration out (R452): leg, device, target leg, full number of swath m once known, the state in four pieces. -/
structure MigOut where
  leg : Nat
  dev : Nat
  tgt : Nat
  m : Option Nat
  pieces : List Bytes
  deriving DecidableEq, Repr

/-- A migration in (R452): leg, source device and leg, its boundary, and the pieces received by swath number. -/
structure MigIn where
  leg : Nat
  dev : Nat
  src : Nat
  w : When
  m : Option Nat
  got : KV Bytes
  deriving DecidableEq, Repr

/-- The tandem block. `store` is keyed by device * 2^17 + leg; `missed` holds the source and swath pairs already counted. -/
structure Tnd where
  links : KV TLink
  routes : KV Route
  exps : List TExport
  imps : List TImport
  cimps : List TConf
  store : KV (List RBlk)
  outs : List MigOut
  ins : List MigIn
  seenRf : List (Nat × Nat)
  missed : List (Nat × Nat)
  deriving DecidableEq, Repr

/-! ### Baler (R485-R502) -/

/-- A job that an engine has started (R487-R489): ring, index and descriptor, the verdict of its run (DONE, STOPPED, VFY_FAIL, reason,
status), input and output bytes of the bale and of this job alone, NEXT, original length, CRC, whether the bale was finished stored. -/
structure BJob where
  ring : Nat
  idx : Nat
  b : Bytes
  fin : Bool
  stopped : Bool
  vfy : Bool
  reason : Nat
  status : Nat
  inB : Nat
  outB : Nat
  dIn : Nat
  dOut : Nat
  next : Nat
  olen : Nat
  crc : Nat
  stored : Bool
  deriving DecidableEq, Repr

/-- What a state area holds of a stopped job (R492-R495): OP, level, whether it rewrites the bale stored, the source, bytes consumed and
placed so far, and the destination entries used. -/
structure BStop where
  op : Nat
  level : Nat
  vfy : Bool
  src : Nat
  len : Nat
  inB : Nat
  pos : Nat
  ents : List (Nat × Nat)
  deriving DecidableEq, Repr

/-- A baler engine: function state, held enable, the job started, the millisecond that `acc` counts input bytes of, LAST and PEAK. -/
structure BEng where
  st : FnState
  pendEn : Bool
  job : Option BJob
  ms : Nat
  acc : Nat
  last : Nat
  peak : Nat
  deriving DecidableEq, Repr

/-- A job ring (R487, R501). -/
structure BRing where
  en : Bool
  ctx : Nat
  log2 : Nat
  dbase : Nat
  cbase : Nat
  head : Nat
  tail : Nat
  deriving DecidableEq, Repr

/-- The baler; `stops` holds the state areas by their VA. -/
structure Bal where
  engs : KV BEng
  rings : KV BRing
  stops : KV BStop
  deriving DecidableEq, Repr

/-! ### Background work and telemetry (R532-R550) -/

/-- Background work: fabric bytes of this swath, the requests held in it (0 loft, 1 HBM patrol), next word and local start of the loft and of the HBM
patrol, local times of the last retrain and of the last AVS step, VDD_CORE set point in mV, whether AVSBus traffic has
stopped (R586), local time of the newest checkpoint, whether one is
due and the commands (mailbox, sequence) that wait for it, and bytes written to the record die. -/
structure Bgw where
  fab : Nat
  holds : List Nat
  loftAt : Nat
  loftLoc : Nat
  hbmAt : Nat
  hbmLoc : Nat
  trainLoc : Nat
  avsLoc : Nat
  mv : Nat
  avsDead : Bool
  ckLoc : Nat
  ckDue : Bool
  ckBy : List (Nat × Nat)
  prsBytes : Nat
  deriving DecidableEq, Repr

/-- Figures of a leg at its last IPFIX report (R545): packets, lost, late, expected, discarded in all. -/
structure IpxBase where
  pkts : Nat
  lost : Nat
  late : Nat
  exp : Nat
  disc : Nat
  deriving DecidableEq, Repr

/-- The IPFIX exporter: records sent so far, local times of the last templates and of the last health record, figures at each leg's last
report, and the legs whose record waits at the fabric cap (R532). -/
structure Ipx where
  seq : Nat
  tmplLoc : Nat
  healthLoc : Nat
  base : KV IpxBase
  wait : List Nat
  deriving DecidableEq, Repr

/-! ### Start (R551-R565) -/

/-- A start: its cause (R551), the local time of the cause in 2^-16 ns, the firmware slot that S04 loaded and whether it is a trial (R560),
whether PWRGOOD has risen since the last start began (R588), whether a thermal reset holds its pins (R539), and the ports that recovery
boot listens on (R561). -/
structure BootSt where
  cause : Nat
  loc : Nat
  slot : Nat
  trial : Bool
  risen : Bool
  hot : Bool
  listen : List Nat
  deriving DecidableEq, Repr

/-! ### The whole state -/

/-- The state of the block. `pending` is the queue of waiting commands, first in first out; `free` is the model's own
counter that freshens free values (log entry 4), not the spec's; `busOut` holds what the last I2C read returned; `fns`
the reports of function states in order (R20; log entry 69); `engQ` the calls at the engines in the order of their arrival; `engDis` the engines
whose disable is held during their start (R18): 0 to 15 filter chain engines, 32 to 63 echo engines. -/
structure State where
  pending : List Instr
  free : Nat
  mode : Mode
  pins : Pins
  nv : Nv
  regs : KV Word
  busOut : List Word
  i2cAddr : Nat
  tmu : Tmu
  swt : Swt
  ports : KV Port
  mdio : Mdio
  qcp : Qcp
  tmpls : KV Template
  sets : KV CoefSet
  cpts : KV Bytes
  legs : KV Leg
  confs : KV Conf
  armed : List Armed
  knl : Knl
  engAcc : KV Nat
  engQ : List EngCall
  engDis : List Nat
  shut : Shut
  pke : Pke
  grn : Grn
  txRes : List (Nat × Nat × Nat × Option Inst)
  mmu : Mmu
  frp : Frp
  gln : Gln
  tnd : Tnd
  bal : Bal
  bgw : Bgw
  ipx : Ipx
  boot : BootSt
  fns : List FnRep
  deriving DecidableEq, Repr

/-! ### Reset -/

/-- The servo at reset (R80, R91). -/
def Servo.reset : Servo :=
  { st := .off, pendEn := false, lock := .free, iRate := 0, y := 0, yRef := 0, slewLim := false, relock := false, haveRef := false,
    oRef := 0, mpdRef := none, mpdPrev := none, guardEnd := 0, lockRun := 0, unlockRun := 0, lastPush := 0, holdMs := 0, holdAt := 0,
    limitAt := none, disHeld := false }

/-- The time unit at reset: time 0, not valid (R71). -/
def Tmu.reset : Tmu :=
  { acc := 0, loc := 0, tick := 0, steps := [], refArmed := false, pendSet := none, pendStep := none, ofs := [], srv := Servo.reset, tout := [],
    tin := [], latQ := 0, latI := 0, ptpRole := [], ptpPorts := [], ptpUnicast := [] }

/-- The swath timer at reset: no boundary yet (R600). -/
def Swt.reset : Swt :=
  { begun := false, firstT := none, bT := 0, bLoc := 0, nextT := 0, d := 0, workAt := 0, emitAt := 0, guardAt := 0, q := 0,
    gatherDone := false, slipped := false, due := [], load := [], overs := [], loftWait := [], chgs := [] }

/-- The mailboxes at reset: every one free (R159). -/
def Qcp.reset : Qcp :=
  { sess := [], opens := [], openSec := 0, openUsed := 0, rrAdmin := 255, rrOther := 255, jrnl := none, mzIn := [], gates := [],
    mzDirty := false, mzLatQ := [], mzLatI := [] }

/-- The non-volatile state of a part that has never started (R419, R523, R540; log entry 25): life-cycle state MANUFACTURE, no keys,
no records, slot A valid and committed, the default partition of R28. -/
def Nv.factory : Nv :=
  { hostKeys := [], mzKeys := [], mzRec := ([], []), fates := [], srtp := [], keyLost := 0, boot := 0, recno := 0, jrnl := [], ck0 := none, ck1 := none,
    sinceCk := 0, wear := 0, slog := [], slogN := 0, plan := List.replicate 14 0, fails := 0, s14 := false, lastCause := 0, lastFull := none,
    fullNext := false, recNext := false, s13at := none, fwA := ⟨1, []⟩, fwB := ⟨0, []⟩, committed := 0, trial := none, bkgGib := 8,
    patGib := 8, repair := [], fused := [], outs := [], shut := none, lc := 1, lcNext := none, ipfix := none, prsFailed := false,
    spares := 64, retired := 0 }

/-- The pins while the board holds the part in reset (R588): PWRGOOD and RESET_N low, the open-drain outputs released. -/
def Pins.reset : Pins :=
  { pwrgood := false, resetN := false, testEn := false, bootsel := 0, i2cadr := 0, thermN := true, faultN := true }

/-- No shutdown runs. -/
def Shut.none : Shut :=
  { phase := 0, action := 0, skip := false, forget := false, drainEnd := 0, by_ := .none, legs := [], caps := [], plys := [], rings := [] }

/-- The part held in reset: every register reads its reset value, nothing is configured (R10, R17). What survives a reset is that of a
part that has never started. -/
def State.reset : State :=
  { pending := []
    free := 0
    mode := .reset
    pins := Pins.reset
    nv := Nv.factory
    regs := []
    busOut := []
    i2cAddr := 0
    tmu := Tmu.reset
    swt := Swt.reset
    ports := []
    mdio := ⟨false, []⟩
    qcp := Qcp.reset
    tmpls := []
    sets := []
    cpts := []
    legs := []
    confs := []
    armed := []
    knl := ⟨[], 0, [], 0, [], 0, none, [], []⟩
    engAcc := []
    engQ := []
    engDis := []
    shut := Shut.none
    pke := ⟨[], 0, 0, 0, [], []⟩
    grn := ⟨[], [], [], [], [], 0, 0, 0, [], 0, 0⟩
    txRes := []
    mmu := ⟨[], [], [], [], [], [], none, [], [], [], [], none, []⟩
    frp := ⟨[], 0, [], [], [], []⟩
    gln := ⟨[], [], 0, 0, 0, [], none, 0, 0, [], [], none, none, [], [], [], []⟩
    tnd := ⟨[], [], [], [], [], [], [], [], [], []⟩
    bal := ⟨[], [], []⟩
    bgw := ⟨0, [], 0, 0, 0, 0, 0, 0, 800, false, 0, false, [], 0⟩
    ipx := ⟨0, 0, 0, [], []⟩
    boot := ⟨0, 0, 0, false, false, false, []⟩
    fns := [] }

end Sys2Proof.Machine
end

