-- ==== Sys2Proof/Machine/Ops.lean ====
section
/-! DEFINITION. The named operations over registers, time, sessions, events and frames that every meaning uses. -/

namespace Sys2Proof.Machine

open Sys2Proof

/-! ### Parts of the state -/

/-- Replace the time unit. -/
def State.setTmu (s : State) (x : Tmu) : State := { s with tmu := x }

/-- Replace the swath timer. -/
def State.setSwt (s : State) (x : Swt) : State := { s with swt := x }

/-- Replace the mailboxes. -/
def State.setQcp (s : State) (x : Qcp) : State := { s with qcp := x }

/-- Replace the packet engine. -/
def State.setPke (s : State) (x : Pke) : State := { s with pke := x }

/-- Replace what survives a reset. -/
def State.setNv (s : State) (x : Nv) : State := { s with nv := x }

/-- Replace the granary. -/
def State.setGrn (s : State) (x : Grn) : State := { s with grn := x }

/-- Replace memory, contexts, rings and engines. -/
def State.setMmu (s : State) (x : Mmu) : State := { s with mmu := x }

/-! ### Registers -/

/-- The stored value of a register; its reset value where nothing has been written (R10). -/
def State.reg (s : State) (a : Nat) : Nat :=
  match kget s.regs a with
  | some v => v.toNat
  | none => regReset a

/-- Store a register value. -/
def State.setReg (s : State) (a v : Nat) : State := { s with regs := kset s.regs a (BitVec.ofNat 32 v) }

/-- The stored value of a field. -/
def State.fld (s : State) (f : Fld) : Nat := bits (s.reg f.addr) f.hi f.lo

/-- Store a field value. -/
def State.setFld (s : State) (f : Fld) (v : Nat) : State := s.setReg f.addr (putBits (s.reg f.addr) f.hi f.lo v)

/-- Whether a one-bit field is 1. -/
def State.flag (s : State) (f : Fld) : Bool := s.fld f == 1

/-- Add to a 32-bit counter modulo 2^32 (R15). -/
def State.bumpBy (s : State) (a n : Nat) : State := s.setReg a ((s.reg a + n) % 2 ^ 32)

/-- Add 1 to a counter (R15). -/
def State.bump (s : State) (a : Nat) : State := s.bumpBy a 1

/-- Add to a counter pair modulo 2^64, low word at `a`, high word at `a + 4` (R146). -/
def State.bump64 (s : State) (a n : Nat) : State :=
  let v := (s.reg (a + 4) * 2 ^ 32 + s.reg a + n) % 2 ^ 64
  (s.setReg a (v % 2 ^ 32)).setReg (a + 4) (v / 2 ^ 32)

/-! ### Free values -/

/-- Draw a free value of `w` bits (log entry 4). -/
def State.draw (s : State) (w : Nat) : Nat := (Config.freeBits w (2 * s.free)).toNat

/-- Advance the model's counter of free values. -/
def State.drawn (s : State) : State := { s with free := s.free + 1 }

/-- Draw `n` free bytes. -/
def State.drawBytes (s : State) (n : Nat) : Bytes := be n (s.draw (8 * n))

/-! ### Time (R8, R69, R70, R75) -/

/-- Units of 2^-16 ns in one second. -/
def secI : Nat := 1000000000 * 65536

/-- The TMU time now, in units of 2^-16 ns. -/
def State.now (s : State) : Inst := s.tmu.acc / 2 ^ 24

/-- TAI_ns of R32. -/
def State.tai (s : State) : Nat := s.now / 65536

/-- Elapsed local time in units of 2^-16 ns. -/
def State.loc (s : State) : Nat := s.tmu.loc / 2 ^ 24

/-- The instant of whole ns. -/
def nsI (n : Nat) : Inst := n * 65536

/-- The 12-byte form of a TMU time (R8). -/
def timeBytes (t : Inst) : Bytes := be 6 (t / secI) ++ be 4 (t % secI / 65536) ++ be 2 (t % 65536)

/-- The instant that 12 bytes in the form of R8 give. -/
def bytesTime (b : Bytes) : Inst := num b 0 6 * secI + num b 6 4 * 65536 + num b 10 2

/-- The instant that the 10 bytes of SEC and NS give. -/
def bytesSecNs (b : Bytes) : Inst := num b 0 6 * secI + num b 6 4 * 65536

/-- The count of a clock of rate `f` Hz at an instant (R75). -/
def countAt (f : Nat) (t : Inst) : Nat := t * f / secI

/-- The instant of count `k` of a clock of rate `f` Hz, rounded up to a whole FRAC unit (R75). -/
def instOf (f k : Nat) : Inst := cdiv (k * secI) f

/-- The TMU time that a stamp taken `ago` before now carries: a stamp taken before a step carries the old time (R73). -/
def State.stampAgo (s : State) (ago : Nat) : Inst :=
  let at_ := s.tmu.loc - ago * 2 ^ 24
  let moved := s.tmu.steps.foldl (fun (x : Int) p => if p.1 > at_ then x + p.2 else x) 0
  ((s.now : Int) - ago - moved).toNat

/-! ### Function states (R17-R20) -/

/-- A function's state, its flag PENDING_ENABLE, and whether a disable is held during its start (R17-R19). -/
structure Fn where
  st : FnState
  pend : Bool
  dis : Bool
  deriving DecidableEq, Repr

/-- A request, an enable or a disable, as R18 handles it; an enable in FAILED, which is refused, changes nothing. -/
def Fn.request (f : Fn) (en : Bool) : Fn :=
  match f.st, en with
  | .off, true => ⟨.starting, false, false⟩
  | .stopping, true => { f with pend := true }
  | .starting, false => { f with dis := true }
  | .on, false => ⟨.stopping, false, false⟩
  | .failed, false => ⟨.stopping, f.pend, false⟩
  | .stopping, false => { f with pend := false }
  | _, _ => f

/-- Whether R18 refuses a request: an enable in FAILED. -/
def Fn.refuses (f : Fn) (en : Bool) : Bool := en && decide (f.st = .failed)

/-- A start completes to ON; a disable held during it takes the function to STOPPING at the same instant (R18). -/
def Fn.started (f : Fn) : Fn :=
  if f.st = .starting then (if f.dis then ⟨.stopping, false, false⟩ else ⟨.on, false, false⟩) else f

/-- A stop completes to OFF; a held enable is carried out on reaching OFF (R18). -/
def Fn.stopped (f : Fn) : Fn :=
  if f.st = .stopping then (if f.pend then ⟨.starting, false, false⟩ else ⟨.off, false, false⟩) else f

/-- A fault takes the function to FAILED; a disable held during a start is then carried out from FAILED (R19). The spec does not say what
becomes of a PENDING_ENABLE held when a STOPPING function fails: the model keeps it (DESIGN CHOICE, log entry 71). -/
def Fn.fault (f : Fn) : Fn :=
  match f.st with
  | .starting => if f.dis then ⟨.stopping, false, false⟩ else ⟨.failed, false, false⟩
  | .off => f
  | _ => { f with st := .failed }

/-- The state that follows a state where no fault comes in (R18). -/
def FnState.after : FnState → FnState
  | .off => .starting | .starting => .on | .on => .stopping | .stopping => .off | .failed => .stopping

/-- The states from the one after `a` up to `b` (fuel: how many there may be). -/
def FnState.walk : Nat → FnState → FnState → List FnState
  | 0, _, _ => []
  | k + 1, a, b => if a = b then [] else a.after :: a.after.walk k b

/-- The states that a transition passes through after the first, ending in `b` (R18-R20): those between in their order, and FAILED first where
a fault begins it. -/
def FnState.path (a b : FnState) (failed : Bool) : List FnState :=
  if a = b then [] else if failed ∨ b = .failed then .failed :: FnState.failed.walk 5 b else a.walk 5 b

/-- Report a transition of a function, with every state that it passes through (R20; log entry 69). -/
def State.reportVia (s : State) (f : FnId) (a : FnState) (path : List FnState) : State :=
  { s with fns := s.fns ++ ((a :: path).zip path).map fun p => ⟨f, p.1, p.2, s.now⟩ }

/-- Report that a function went from one state to another; nothing where it did not change. -/
def State.report (s : State) (f : FnId) (a b : FnState) : State := s.reportVia f a (a.path b false)

/-- Report a fault's transition (R19, R20). -/
def State.reportFault (s : State) (f : FnId) (a b : FnState) : State := s.reportVia f a (a.path b true)

/-! ### Sessions (R152-R163) -/

/-- A free mailbox as it is at reset. -/
def Session.init : Session :=
  { st := .off, gen := 0, keyId := 0, role := 0, port := 0, mac := 0, tags := [], nh := [], np := [], ks := [],
    lease := 0, leaseEnd := 0, proveBy := 0, expect := 0, ring := [], bulk := none, out := [], rplRing := [],
    replies := [], evq := [], evSeq := 0, evLost := 0, mask := 0, after := none, defer := false }

/-- The session of a mailbox. -/
def State.sess (s : State) (m : Nat) : Session := kgetD s.qcp.sess m Session.init

/-- Replace the session of a mailbox. -/
def State.setSess (s : State) (m : Nat) (x : Session) : State :=
  (s.setQcp { s.qcp with sess := kset s.qcp.sess m x })

/-- The doorbell bit of an empty command ring is 0 (R191). -/
def State.unbell (s : State) (m : Nat) : State :=
  if (s.sess m).ring.isEmpty then
    s.setReg (R.QCP_DB_CMD (m / 32)) (putBit (s.reg (R.QCP_DB_CMD (m / 32))) (m % 32) false)
  else s

/-- A mailbox cleared to OFF; its generation stays (R154, R156, R159). R156 lets a session in STARTING that times out or fails its proof return
to OFF; the spec does not say which transitions are reported then, and the model reports STARTING to OFF at once (DESIGN CHOICE, log entry 92). -/
def State.closeSess (s : State) (m : Nat) : State :=
  let x := s.sess m
  ((s.setSess m { Session.init with gen := x.gen }).unbell m).reportVia (.sess m) x.st
    (match x.st with | .off => [] | .on => [.stopping, .off] | _ => [.off])

/-- The lease restarts at a frame of the session that passes the tag check, under the present LEASE_MAX (R158, R191). -/
def State.renewLease (s : State) (m : Nat) : State :=
  let x := s.sess m
  if x.st = .on then s.setSess m { x with leaseEnd := s.loc + min x.lease (s.fld R.QCP_CFG_LEASE_MAX) * secI } else s

/-- The slots of 256 bytes that a QCP frame takes (R152). -/
def slotsOf (payloadLen : Nat) : Nat := cdiv (32 + payloadLen) 256

/-- The command slots in use. -/
def Session.cmdUsed (x : Session) : Nat := sumL (x.ring.map fun f => slotsOf f.payload.length)

/-- The reply slots in use. -/
def Session.rplUsed (x : Session) : Nat := sumL (x.rplRing.map fun f => cdiv f.length 256)

/-! ### Events (R174-R176) -/

/-- Raise one event of an instant for one session: it takes the next SEQ; with the queue full it is dropped and counted (R79, R175, R176). -/
def State.eventAt (s : State) (m op block : Nat) (data : Bytes) (at_ : Inst) : State :=
  let x := s.sess m
  let n := (x.evSeq + 1) % 2 ^ 32
  if x.st = .on then
    if x.evq.length < 256 ∧ x.evLost = 0 then
      s.setSess m { x with evSeq := n, evq := x.evq ++ [⟨op, at_, block, data, n⟩] }
    else (s.setSess m { x with evSeq := n, evLost := x.evLost + 1 }).bump R.QCP_EVT_DROP_CNT
  else s

/-- Raise an event of now for one session (R175). -/
def State.eventTo (s : State) (m op block : Nat) (data : Bytes) : State := s.eventAt m op block data s.now

/-- Raise an event for every session whose mask has bit `b` set (R174). -/
def State.eventAll (s : State) (b op block : Nat) (data : Bytes) : State :=
  s.qcp.sess.foldl (fun t p => if tb p.2.mask b then t.eventTo p.1 op block data else t) s

/-- Set W1C bits of the event register at `a`; bits newly set and enabled at `a + 4` send EVT_REG (R175). -/
def State.raise (s : State) (a mask : Nat) : State :=
  let old := s.reg a
  let new := (old ||| mask) - old
  let t := s.setReg a (old ||| mask)
  if new &&& s.reg (a + 4) = 0 then t
  else t.eventAll (a / 0x10000) 0x02F0 (a / 0x10000) (be 4 a ++ be 4 new)

/-! ### Ports -/

/-- A port as it is at reset. -/
def Port.init : Port :=
  { live := false, rxq := [], txq := [], waiting := [], wire := none, fcDue := 0,
    disHeld := false, pauseUntil := [], refreshAt := 0, attempts := 0, backoff := none, maxF := none, roleF := none, peak := [],
    cntLatQ := [], cntLatI := [] }

/-- The port of an index. -/
def State.port (s : State) (p : Nat) : Port := kgetD s.ports p Port.init

/-- Replace a port. -/
def State.setPort (s : State) (p : Nat) (x : Port) : State := { s with ports := kset s.ports p x }

/-- The value of a field at reset. -/
def fldReset (f : Fld) : Nat := bits (regReset f.addr) f.hi f.lo

/-- The frame limit in force on a port: a write takes effect when the port next leaves OFF (R145). -/
def State.portMax (s : State) (p : Nat) : Nat := (s.port p).maxF.getD (fldReset (R.MAC_MAXFRM_LEN p))

/-- The role in force of a port (R113, R145). -/
def State.portRole (s : State) (p : Nat) : Nat := (s.port p).roleF.getD (fldReset (R.MAC_CFG_ROLE p))

/-- The function state of a port, held in MAC_STAT.STATE. -/
def State.portSt (s : State) (p : Nat) : FnState := FnState.ofCode (s.fld (R.MAC_STAT_STATE p))

/-! ### QCP frames (R148, R149, R163) -/

/-- A QCP frame after the EtherType: header, tag under `key`, payload (R148). -/
def qcpFrame (cls flags sess seq opcode dev : Nat) (key payload : Bytes) : Bytes :=
  let h := be 1 (0x10 + cls) ++ be 1 flags ++ be 2 sess ++ be 4 seq ++ be 2 opcode ++ be 2 payload.length ++ be 4 dev
  h ++ (hmac256 key (h ++ payload)).take 16 ++ payload

/-- The part's device number. -/
def State.dev (s : State) : Nat := s.fld R.TND_CFG_DEVNO

/-- The part's source address on a port: TND_MAC plus the port index (R431; for QCP log entry 6). -/
def State.macOf (s : State) (p : Nat) : Nat := s.fld R.TND_MAC_HI_MAC_HI * 2 ^ 32 + s.reg R.TND_MAC_LO + p

/-- An Ethernet frame without its FCS. -/
def ethFrame (dst src : Nat) (tags : List (BitVec 32)) (etype : Nat) (payload : Bytes) : Bytes :=
  be 6 dst ++ be 6 src ++ tags.flatMap (fun t => be 4 t.toNat) ++ be 2 etype ++ payload

/-- The largest QCP payload that a frame of a session may carry (R149). -/
def State.qcpLimit (s : State) (port ntags : Nat) : Nat :=
  s.portMax port - (14 + 4 * ntags + 32 + 4)

/-- A byte sequence cut into pieces of at most `n` bytes (fuel: the number of pieces). -/
def chunks (n : Nat) : Nat → Bytes → List Bytes
  | 0, _ => []
  | k + 1, bs => if bs.isEmpty then [] else bs.take n :: chunks n k (bs.drop n)

/-- The frames of a reply: one reply frame and the bulk frames that carry the rest of its result (R163). -/
def replyFrames (s : State) (dev : Nat) (x : Session) (m seq opcode st det : Nat) (jrn : Bool) (result : Bytes) : List Bytes :=
  let lim := max 8 (s.qcpLimit x.port x.tags.length)
  let cut := lim - 4
  let first := result.take cut
  let rest := chunks lim result.length (result.drop cut)
  let num := x.gen * 256 + m
  let fl (more : Bool) (reply : Bool) := b2n more * 128 + b2n (jrn && reply) * 32
  qcpFrame 2 (fl (!rest.isEmpty) true) num seq opcode dev x.ks (be 2 st ++ be 2 det ++ first) ::
    (rest.zipIdx.map fun (c, i) => qcpFrame 4 (fl (i + 1 < rest.length) false) num seq opcode dev x.ks c)

/-- Answer a command of a session under a device number (R455): the reply waits for room in the reply ring, and the last 16 replies are
kept (R160, R162), in a session that still proves itself too. The reply of a session that is stopping is discarded, and the session reaches OFF (R158). -/
def State.replyAs (s : State) (dev m seq opcode st det : Nat) (jrn : Bool) (result : Bytes) : State :=
  let x := s.sess m
  match x.st with
  | .stopping => s.closeSess m
  | .on | .starting =>
    let fr := replyFrames s dev x m seq opcode st (min det 0xFFFF) jrn result
    let old := if 16 ≤ x.replies.length then x.replies.drop (x.replies.length - 15) else x.replies
    s.setSess m { x with out := x.out ++ fr, replies := old ++ [⟨seq, fr, result.length⟩] }
  | _ => s

/-- Answer a command of a session. -/
def State.reply (s : State) (m seq opcode st det : Nat) (jrn : Bool) (result : Bytes) : State :=
  s.replyAs s.dev m seq opcode st det jrn result

/-- A session goes through STOPPING to OFF: at once, or when the command that is executing completes, what waits for its reply included; commands
not begun are discarded (R158, R159, R187). One in STARTING completes its start to ON at the same instant (R18). -/
def State.stopSess (s : State) (m : Nat) : State :=
  let x := s.sess m
  let busy := x.defer || x.after.isSome || (match s.qcp.jrnl with | some j => j.mbox == m | none => false)
  let y : Session := { Session.init with gen := x.gen, keyId := x.keyId, role := x.role, st := .stopping, defer := x.defer, after := x.after }
  let t := ((s.setSess m y).unbell m).report (.sess m) x.st .stopping
  if x.st = .off then s else if busy then t else t.closeSess m

/-! ### Frames -/

/-- The length of a frame with its FCS. -/
def flen (b : Bytes) : Nat := b.length + 4

/-- The bytes held by a list of transmit frames. -/
def txBytes (l : List TxFrame) : Nat := sumL (l.map fun f => flen f.bytes)

/-- A plain transmit frame of a class. -/
def TxFrame.plain (bytes : Bytes) (tc : Nat) (o : TxOrigin) : TxFrame :=
  { bytes := bytes, tc := tc, media := false, playback := false, exportG := false, group := none, origin := o,
    tsReq := false, ingress := none }

/-- Whether two frames come from one producer, whose frames keep their order while they wait (R126, R359). -/
def TxOrigin.same (a b : TxOrigin) : Bool :=
  match a, b with
  | .dma r _, .dma q _ => r == q
  | .inject r _, .inject q _ => r == q
  | x, y => x == y

/-- Queue a frame in its class queue of 128 KiB; one that does not fit waits, and those of its producer behind it (R126). -/
def State.enqueueTx (s : State) (p : Nat) (f : TxFrame) : State :=
  let x := s.port p
  let q := kgetD x.txq f.tc []
  let w := kgetD x.waiting f.tc []
  if w.all (fun g => !g.origin.same f.origin) && txBytes q + flen f.bytes ≤ 131072 then s.setPort p { x with txq := kset x.txq f.tc (q ++ [f]) }
  else s.setPort p { x with waiting := kset x.waiting f.tc (w ++ [f]) }

/-- A frame padded with zero bytes to 60 (R121). -/
def padFrame (b : Bytes) : Bytes := b ++ zeros (60 - b.length)

/-- A transmit request: refused for a bad length, else padded and queued (R121). The Bool says whether it was taken. -/
def State.txRequest (s : State) (p : Nat) (f : TxFrame) : State × Bool :=
  let n := f.bytes.length
  if n < 14 ∨ n + 4 > s.portMax p then (s.bump (R.MAC_TX_BADLEN_CNT p), false)
  else if n < 60 then (((s.bump (R.MAC_TX_PAD_CNT p)).enqueueTx p { f with bytes := padFrame f.bytes }), true)
  else (s.enqueueTx p f, true)

/-- Send a QCP frame (R157): from the session's port, on TC7, with its tags. -/
def State.sendQcp (s : State) (port mac : Nat) (tags : List (BitVec 32)) (b : Bytes) : State :=
  let f : TxFrame :=
    { bytes := ethFrame mac (s.macOf port) tags 0x88B5 b, tc := 7, media := false, playback := false, exportG := false,
      group := none, origin := .qcp, tsReq := false, ingress := none }
  (s.txRequest port f).1.bump R.QCP_TX_CNT

/-- A parsed Ethernet header: addresses, VLAN tags (at most two are read), EtherType and where its payload starts. -/
structure Eth where
  dst : Nat
  src : Nat
  tags : List (BitVec 32)
  etype : Nat
  off : Nat
  deriving DecidableEq, Repr

/-- Whether a type value is a VLAN tag's TPID. -/
def isTpid (t : Nat) : Bool := t == 0x8100 || t == 0x88A8

/-- Parse an Ethernet header with up to two VLAN tags. -/
def parseEth (b : Bytes) : Eth :=
  let d := num b 0 6
  let sr := num b 6 6
  if isTpid (num b 12 2) then
    if isTpid (num b 16 2) then
      ⟨d, sr, [BitVec.ofNat 32 (num b 12 4), BitVec.ofNat 32 (num b 16 4)], num b 20 2, 22⟩
    else ⟨d, sr, [BitVec.ofNat 32 (num b 12 4)], num b 16 2, 18⟩
  else ⟨d, sr, [], num b 12 2, 14⟩

/-- Where the UDP header of an IPv6 packet starts: the extension headers hop-by-hop, routing and destination options are passed over, and a
fragment header only when it is the first fragment's (log entry 35; fuel: the length of the frame). -/
def udp6 (b : Bytes) : Nat → Nat → Nat → Option Nat
  | 0, _, _ => none
  | n + 1, nh, o =>
    if nh = 17 then (if o + 8 ≤ b.length then some o else none)
    else if nh = 0 ∨ nh = 43 ∨ nh = 60 then
      if o + 8 ≤ b.length then udp6 b n (u8 b o) (o + 8 + 8 * u8 b (o + 1)) else none
    else if nh = 44 then
      if o + 8 ≤ b.length ∧ num b (o + 2) 2 / 8 = 0 then udp6 b n (u8 b o) (o + 8) else none
    else none

/-- Where the UDP header of a frame starts, for UDP over IPv4 or IPv6; a fragment other than the first holds none. -/
def udpAt (b : Bytes) (e : Eth) : Option Nat :=
  if e.etype = 0x0800 then
    if u8 b (e.off + 9) = 17 ∧ num b (e.off + 6) 2 % 8192 = 0 then some (e.off + 4 * (u8 b e.off % 16)) else none
  else if e.etype = 0x86DD then udp6 b b.length (u8 b (e.off + 6)) (e.off + 40)
  else none

/-- The UDP destination port of a frame. -/
def udpDst (b : Bytes) (e : Eth) : Option Nat := (udpAt b e).map fun o => num b (o + 2) 2

/-- Whether a frame is PTP: EtherType 0x88F7 or UDP to port 319 or 320 (R122). -/
def isPtp (b : Bytes) (e : Eth) : Bool :=
  e.etype == 0x88F7 || udpDst b e == some 319 || udpDst b e == some 320

/-! ### Gates (R180, R183) -/

/-- The number that names a gate in the state. -/
def Gate.code : Gate → Nat
  | .cls p n => p.val * 8 + n.val
  | .media => 64
  | .playback => 65
  | .exportGate => 66
  | .group g => 128 + g.val

/-- A gate is closed over [closing instant, release) (R183). -/
def GateSt.closedAt (g : GateSt) (loc t : Nat) : Bool :=
  decide (g.closeLoc ≤ loc) && (match g.release with | none => true | some r => decide (t < r))

/-- Whether the gate of a number is closed now. -/
def State.gateClosed (s : State) (code : Nat) : Bool :=
  match kget s.qcp.gates code with
  | some g => g.closedAt s.loc s.now
  | none => false

/-- Whether a frame on a port meets a closed gate; none applies to TC7 (R180). -/
def State.meetsGate (s : State) (p : Nat) (f : TxFrame) : Bool :=
  f.tc != 7 && (s.gateClosed (p * 8 + f.tc) || (f.media && s.gateClosed 64) || (f.playback && s.gateClosed 65) ||
    (f.exportG && s.gateClosed 66) || (match f.group with | some g => s.gateClosed (128 + g) | none => false))

end Sys2Proof.Machine
end

