-- ==== Sys2Proof/Machine/Command.lean ====
section
/-! DEFINITION. How a command of a session is executed: order, role, length, check, journal, reply (R153, R160-R173). -/

namespace Sys2Proof.Machine

open Sys2Proof

/-- The status codes of R167. -/
abbrev St.ok : Nat := 0x0000
abbrev St.unknownOp : Nat := 0x0101
abbrev St.badLen : Nat := 0x0102
abbrev St.auth : Nat := 0x0201
abbrev St.noSession : Nat := 0x0202
abbrev St.busy : Nat := 0x0301
abbrev St.noBudget : Nat := 0x0401
abbrev St.tooFar : Nat := 0x0402
abbrev St.late : Nat := 0x0501
abbrev St.state : Nat := 0x0601
abbrev St.lifecycle : Nat := 0x0701
abbrev St.fault : Nat := 0x0801

/-- Who executes a command: mailbox, sequence number, opcode, role of the session, and whether it is a re-execution of
the journal at S13 (R422). -/
structure Ctx where
  mbox : Nat
  seq : Nat
  opcode : Nat
  role : Nat
  replay : Bool
  deriving DecidableEq, Repr

/-- The outcome of a command's check: refused with a status and detail, refused and counted (with an event unless its
register is 0), or accepted with what the check decided. -/
inductive Chk where
  | refuse (st det : Nat)
  | count (st det cnt evt mask : Nat)
  | ok (plan : List Nat)
  deriving DecidableEq, Repr

/-- The outcome of applying a command: the state, status OK or E_LATE (or the status of a failure the operation itself
defines), detail, result; or, with `defer`, the reply comes later. -/
structure Done where
  s : State
  st : Nat
  det : Nat
  result : Bytes
  defer : Bool

/-- An operation: minimum role (R153), whether a payload is journaled (R165), the fault offset of a payload of the wrong
length, whether it takes bulk frames (R602), its check and its effect (R171). -/
structure OpDef where
  minRole : Nat
  jrnl : Bytes → Bool
  badLen : Bytes → Option Nat
  bulk : Bool
  chk : Ctx → State → Bytes → Chk
  app : Ctx → List Nat → State → Bytes → Done

/-- A payload that must have exactly `n` bytes: the offset of the fault is where it ends too soon or goes on (R165). -/
def lenIs (n : Nat) (b : Bytes) : Option Nat := if b.length = n then none else some (min b.length n)

/-- A payload of at least `n` bytes. -/
def lenMin (n : Nat) (b : Bytes) : Option Nat := if b.length < n then some b.length else none

/-- The reply OK with nothing more. -/
def Done.ok (s : State) : Done := ⟨s, St.ok, 0, [], false⟩

/-- The reply OK with a result. -/
def Done.res (s : State) (r : Bytes) : Done := ⟨s, St.ok, 0, r, false⟩

/-- The reply with a status and no result, the state as given. -/
def Done.stat (s : State) (st det : Nat) : Done := ⟨s, st, det, [], false⟩

/-- No reply yet: it comes later. -/
def Done.wait (s : State) : Done := ⟨s, St.ok, 0, [], true⟩

/-- Status E_STATE of a value at a byte offset. -/
def Chk.at_ (off : Nat) : Chk := .refuse St.state off

/-- Status E_STATE of a state (R167). -/
def Chk.inState : Chk := .refuse St.state 0xFFFF

/-- The first refusal of a list of conditions, each with the refusal it means. -/
def Chk.first : List (Bool × Chk) → Chk → Chk
  | [], c => c
  | (b, r) :: l, c => if b then r else Chk.first l c

/-- Whether a session can begin a command: it is on, and its last command has ended, its reply and what waits for that included, with room in the
reply ring (R159, R162, R163, R187). -/
def Session.free (x : Session) : Bool :=
  decide (x.st = .on) && x.out.isEmpty && decide (x.rplUsed < 64) && x.bulk.isNone && x.after.isNone && !x.defer

/-- The sessions of one tier that have a command ready. -/
def State.ready (s : State) (admin : Bool) (m : Nat) : List Nat :=
  (s.qcp.sess.filter fun p =>
    p.2.free && (p.1 == m || p.2.ring.head?.any (!·.bulk)) && decide ((p.2.role = 2) = (admin = true))).map (·.1)

/-- The mailbox that a round robin serves next: the first ready one after the last served, with wrap-around (R161). -/
def rrNext (last : Nat) (l : List Nat) : Option Nat :=
  match l.find? (fun m => decide (last < m)) with
  | some m => some m
  | none => l.head?

/-- Whether the command at mailbox `m` is the one executed next: it heads its ring, or it is taken as delivered now to an
empty ring with the sequence expected (log entry 7); its session is free, no journal record is being committed (R161, R173), and the two round
robins choose its session (R161). -/
def State.turn (s : State) (m seq opcode : Nat) (more : Bool) (payload : Bytes) : Bool :=
  let x := s.sess m
  let admin := x.role = 2
  x.free && s.qcp.jrnl.isNone &&
  (match x.ring with
    | [] => x.expect == seq
    | f :: _ => !f.bulk && f.seq == seq && f.fam * 256 + f.op == opcode && f.more == more && f.payload == payload) &&
  (admin || (s.ready true 256).isEmpty) &&
  rrNext (if admin then s.qcp.rrAdmin else s.qcp.rrOther) (s.ready admin m) == some m

/-- The command leaves its ring, or is delivered now (log entry 7), and its session's turn is taken. -/
def State.take (s : State) (m : Nat) : State :=
  let x := s.sess m
  let s1 := if x.ring.isEmpty then
      ((s.setSess m { x with expect := (x.expect + 1) % 2 ^ 32 }).renewLease m).bump R.QCP_RX_CNT
    else (s.setSess m { x with ring := x.ring.drop 1 }).unbell m
  if x.role = 2 then (s1.setQcp { s1.qcp with rrAdmin := m }) else (s1.setQcp { s1.qcp with rrOther := m })

/-- Answer an applied command, or mark its session as waiting for its reply. The reply carries the device number from before the command
(R455). -/
def Done.finish (r : Done) (c : Ctx) (dev : Nat) (jrn : Bool) : State :=
  if r.defer then r.s.setSess c.mbox { r.s.sess c.mbox with defer := true }
  else r.s.replyAs dev c.mbox c.seq c.opcode r.st r.det jrn r.result

/-- The reply that a deferred command owes (R162). -/
def State.replyLate (s : State) (m seq opcode st det : Nat) (jrn : Bool) (result : Bytes) : State :=
  let x := s.sess m
  if x.defer then (s.setSess m { x with defer := false }).reply m seq opcode st det jrn result else s

/-- A refusal that is counted, with an event unless its register is 0. -/
def State.counted (s : State) (cnt evt mask : Nat) : State := if evt = 0 then s.bump cnt else (s.bump cnt).raise evt mask

/-- Execute a command with its whole payload, `bulk` where bulk frames brought part of it: length, check, then journal or effect and
reply (R165, R171). -/
def execOp (d : OpDef) (c : Ctx) (bulk : Bool) (s : State) (payload : Bytes) : State :=
  match d.badLen payload with
  | some off => s.reply c.mbox c.seq c.opcode St.badLen off false []
  | none =>
    match d.chk c s payload with
    | .refuse st det => s.reply c.mbox c.seq c.opcode st det false []
    | .count st det cnt evt mask => (s.counted cnt evt mask).reply c.mbox c.seq c.opcode st det false []
    | .ok plan =>
      if d.jrnl payload then
        (s.setQcp { s.qcp with jrnl := some ⟨c.mbox, c.seq, c.opcode, payload, plan, bulk⟩ })
      else
        (d.app c plan s payload).finish c s.dev false

/-- Whether recovery boot executes an operation (R561): the SESSION family, REG_READ, PRS_LOG_READ, the FW family and SHUT_BEGIN. -/
def recoveryAllows (opcode : Nat) : Bool :=
  opcode / 256 == 1 || opcode == 0x0281 || opcode == 0x0D81 || opcode / 256 == 0x0E || opcode == 0x1001

/-- Bulk frames of a command that has ended leave the ring (R602). -/
def State.dropBulk (s : State) (m seq : Nat) : State :=
  let x := s.sess m
  (s.setSess m { x with ring := x.ring.filter fun f => !(f.bulk && f.seq == seq) }).unbell m

/-- The command frame of a RING_FEED with bulk frames to come (R171, R474): it is checked and its record begun; once that is durable the frames act
as they come. -/
def feedOp (d : OpDef) (c : Ctx) (s : State) (payload : Bytes) : State :=
  let t := execOp d c true s payload
  if t.qcp.jrnl.isSome then t.setSess c.mbox { t.sess c.mbox with bulk := some ⟨c.seq, c.opcode / 256, c.opcode % 256, payload⟩ }
  else t.dropBulk c.mbox c.seq

/-- The detail of an E_AUTH for a whole operation: the role needed (R167), which REG_WRITE gives beside its first pair's index (R169). -/
def authDetail (opcode role : Nat) : Nat := if opcode = 0x0201 then role * 256 else role

/-- A command of a session in its turn (R161): role, bulk rule, then `execOp`. A command whose turn it is not changes
nothing (log entry 5). -/
def runOp (d : OpDef) (opcode : Nat) (q : Req) (s : State) : State :=
  let m := q.mbox.val
  let seq := q.seq.toNat
  if s.turn m seq opcode q.more q.payload then
    let role := (s.sess m).role
    let t := s.take m
    if role < d.minRole then (t.reply m seq opcode St.auth (authDetail opcode d.minRole) false []).dropBulk m seq
    else if s.mode = .recovery ∧ recoveryAllows opcode = false then (t.reply m seq opcode St.state 0xFFFF false []).dropBulk m seq
    else if q.more then
      if d.bulk = false then (t.reply m seq opcode St.badLen 0 false []).dropBulk m seq
      else if opcode = 0x0A05 then feedOp d ⟨m, seq, opcode, role, false⟩ t q.payload
      else t.setSess m { t.sess m with bulk := some ⟨seq, opcode / 256, opcode % 256, q.payload⟩ }
    else execOp d ⟨m, seq, opcode, role, false⟩ false t q.payload
  else s

/-- An operation that only reads: never journaled, no check beyond its length. -/
def OpDef.read (minRole n : Nat) (f : State → Bytes → Bytes) : OpDef :=
  { minRole := minRole, jrnl := fun _ => false, badLen := lenIs n, bulk := false,
    chk := fun _ _ _ => .ok [], app := fun _ _ s b => Done.res s (f s b) }

end Sys2Proof.Machine
end

