-- ==== Sys2Proof/Machine/SwathCore.lean ====
section
/-! DEFINITION. The swath's length, phases, slips and admission (R32-R58), as operations that other meanings use. -/

namespace Sys2Proof.Machine

open Sys2Proof

/-- The swath length in ns (R32, R64). -/
def State.lenNs (s : State) : Nat :=
  match s.fld R.SWT_CFG_LEN with
  | 0 => 250000
  | 2 => 1000000
  | _ => 500000

/-- The swath length in units of 2^-16 ns. -/
def State.lenI (s : State) : Nat := nsI s.lenNs

/-- The placement horizon H in swaths (R49). -/
def State.horizon (s : State) : Nat := 120000000 / s.lenNs

/-- The first multiple of `l` at or after `t`. -/
def nextMul (l t : Nat) : Nat := cdiv t l * l

/-- The full quotient of R33 and R50 at an instant. -/
def State.quot (s : State) (t : Inst) : Nat := t / 65536 / s.lenNs

/-- Whether every leg is OFF. -/
def State.legsOff (s : State) : Bool := s.legs.all fun p => decide (p.2.st = .off)

/-- Elapsed local time since the boundary of the current swath, in 2^-16 ns (R45). -/
def State.elapsed (s : State) : Nat := (s.tmu.loc - s.swt.bLoc) / 2 ^ 24

/-- The phases of R36. -/
inductive Phase where
  | gather | work | emit | guard
  deriving DecidableEq, Repr

/-- The current phase, held in SWT_STAT.PHASE. -/
def State.phase (s : State) : Phase :=
  match s.fld R.SWT_STAT_PHASE with
  | 0 => .gather | 1 => .work | 2 => .emit | _ => .guard

/-- Whether the Work deadline of the current swath has come: from its instant on (R16), also where WORK_DEADLINE is still to be taken. -/
def State.pastDeadline (s : State) : Bool := decide (s.phase = .emit ∨ s.phase = .guard) || (s.swt.begun && decide (s.swt.emitAt ≤ s.elapsed))

/-- Phase starts at 8, 88 and 96 percent of the swath's length (R36); a phase already begun keeps its start (R46). -/
def State.movePhases (s : State) (d : Nat) : State :=
  let w := s.swt
  (s.setSwt { w with
      d := d
      workAt := if s.phase = .gather then cdiv (8 * d) 100 else w.workAt
      emitAt := if s.phase = .gather ∨ s.phase = .work then cdiv (88 * d) 100 else w.emitAt
      guardAt := if s.phase = .guard then w.guardAt else cdiv (96 * d) 100 })

/-- An integer held within ±(2^31 - 1), as its 32-bit code. -/
def sat31 (x : Int) : Nat := unsgn 32 (clampI x (-2147483647) 2147483647)

/-- Re-anchoring of the swath by a step of `delta` (2^-40 ns) just applied (R43-R48, R600). The spec does not say how a step or a D that is no
whole number of ns reads in SWT_SLIP_DELTA and SWT_SLIP_LEN: the model rounds the step towards zero and D down (DESIGN CHOICE, log entry 73).
R46 moves the phase starts of a slipped swath; the spec does not say so of a swath re-anchored by a step that is no slip, with every leg OFF:
the model moves them there too (DESIGN CHOICE, log entry 94). -/
def State.reanchor (s : State) (delta : Int) : State :=
  let l := s.lenI
  let t' := s.now
  if s.fld R.TMU_STAT_VALID = 0 then s
  else if s.swt.begun = false then (s.setSwt { s.swt with firstT := some (nextMul l t') })
  else
    let e := s.elapsed
    let b0 := nextMul l t'
    let d0 := e + (b0 - t')
    let short := 2 * d0 < l
    let b := if short then b0 + l else b0
    let d := if short then d0 + l else d0
    let s1 := s.movePhases d
    let s2 := (s1.setSwt { s1.swt with nextT := b })
    if 2 * delta.natAbs > l * 2 ^ 24 then
      let ns : Int := if delta < 0 then -((delta.natAbs / 2 ^ 40 : Nat) : Int) else ((delta.natAbs / 2 ^ 40 : Nat) : Int)
      let s3 := (s2.setSwt { s2.swt with slipped := true })
      ((((s3.bump R.SWT_SLIP_CNT).setReg R.SWT_SLIP_DELTA (sat31 ns)).setFld R.SWT_SLIP_LEN_D (d / 65536)).raise
        R.SWT_EVT 1)
    else s2

/-- TMU time becomes valid: the first boundary is the first multiple of L at or after now (R71, R600). -/
def State.becomeValid (s : State) : State :=
  if s.fld R.TMU_STAT_VALID = 1 then s
  else
    let t := s.setFld R.TMU_STAT_VALID 1
    (t.setSwt { t.swt with firstT := some (nextMul t.lenI t.now) })

/-! ### Budgets (R53-R57, R65) -/

/-- Loads of a placement entry. -/
def State.loadAt (s : State) (e : Nat) : Load := kgetD s.swt.load e ⟨0, 0, 0⟩

/-- Cycle budget Bc per entry (R54). -/
def bcOf (nCore lNs pct : Nat) : Nat := nCore * 2 * lNs * pct / 100 / 1024

/-- Per-leg-frame core share (R54). -/
def shareOf (lNs pct : Nat) : Nat := 2 * lNs * pct / 100 / 1024

/-- Echo budget Be per entry (R54). -/
def beOf (nEce lNs : Nat) : Nat := nEce * 3328 * lNs / 100000

/-- The cycle budgets as L, N_core and USE_PCT give them (R54, R65). A write of USE_PCT between an accepted write of LEN and its boundary takes
the new LEN, since from that instant it is the L of R43 to R48; the spec does not say so of R54 (DESIGN CHOICE, log entry 78). -/
def State.updCyc (s : State) : State :=
  let pct := s.fld R.SWT_CYC_PCT_USE_PCT
  (s.setFld R.SWT_CYC_BUD_BC (bcOf (s.fld R.SWT_UNITS_N_CORE) s.lenNs pct)).setFld R.SWT_CYC_BUD_CORE_SHARE
    (shareOf s.lenNs pct)

/-- Whether an entry is over a budget (R54, R57). -/
def State.entryOver (s : State) (e : Nat) : Bool :=
  let h := s.horizon
  let l := s.loadAt e
  let n := s.loadAt ((e + 1) % h)
  decide (l.cyc > s.fld R.SWT_CYC_BUD_BC) || decide (l.st + n.st > s.fld R.SWT_LOFT_BUD_KIB) ||
    decide (l.eu > s.fld R.SWT_ECHO_BUD_BE)

/-- The entries over a budget. -/
def State.overEntries (s : State) : List Nat := ((s.swt.load.map (·.1)).filter fun e => s.entryOver e)

/-- Set SWT_STAT.OVER and, when an entry newly became over, SWT_EVT.OVER (R57, R67). -/
def State.updOver (s : State) : State :=
  let o := s.overEntries
  let t := (s.setFld R.SWT_STAT_OVER (b2n (!o.isEmpty)))
  let u := (t.setSwt { t.swt with overs := o })
  if o.any (fun e => !s.swt.overs.contains e) then u.raise R.SWT_EVT 2 else u

/-- The budgets follow L, N_core and N_ece (R57, R65). -/
def State.updBudgets (s : State) : State :=
  let t := (s.updCyc.setFld R.SWT_ECHO_BUD_BE (beOf (s.fld R.SWT_UNITS_N_ECE) s.lenNs)).setFld R.SWT_SLOTS_TOTAL
    (32768 * s.fld R.SWT_UNITS_N_ECE)
  t.updOver

/-- The cost of one leg (R53): cycle units, KiB, echo units, slot units, full treatment. -/
structure Cost where
  cyc : Nat
  kib : Nat
  eu : Nat
  slots : Nat
  full : Bool
  deriving DecidableEq, Repr

/-- The entries that a leg of period `p` at offset `phi` occupies (R50). -/
def entriesOf (h p phi : Nat) : List Nat := (List.range (h / p)).map fun i => phi + i * p

/-- The budgets that fail at an offset, as a mask, and the highest cycle load there (R56). -/
def State.tryPhi (s : State) (c : Cost) (p phi : Nat) : Nat × Nat :=
  let h := s.horizon
  let bc := s.fld R.SWT_CYC_BUD_BC
  let bl := s.fld R.SWT_LOFT_BUD_KIB
  let be := s.fld R.SWT_ECHO_BUD_BE
  (entriesOf h p phi).foldl (fun (m, worst) e =>
    let l := s.loadAt e
    let f1 := decide (l.cyc + c.cyc > bc)
    let f2 := decide ((s.loadAt ((e + h - 1) % h)).st + l.st + c.kib > bl) ||
      decide (l.st + c.kib + (s.loadAt ((e + 1) % h)).st > bl)
    let f3 := decide (l.eu + c.eu > be)
    (m ||| b2n f1 ||| (2 * b2n f2) ||| (4 * b2n f3), max worst (l.cyc + c.cyc))) (0, 0)

/-- The candidate offsets tried in rising order: the best so far and the budgets failing at every offset (R56). -/
def State.bestPhi (s : State) (c : Cost) (p : Nat) (cands : List Nat) : Option (Nat × Nat) × Nat :=
  cands.foldl (fun (best, fails) phi =>
    let (m, worst) := s.tryPhi c p phi
    let best' := if m = 0 then
        (match best with | none => some (phi, worst) | some (b, w) => if worst < w then some (phi, worst) else some (b, w))
      else best
    (best', fails &&& m)) (none, 7)

/-- The device-wide totals that fail (R54, R56): slots 0x08, leg limits 0x10, core share 0x20. -/
def State.totalsMask (s : State) (c : Cost) : Nat :=
  (if c.cyc > s.fld R.SWT_CYC_BUD_CORE_SHARE then 0x20 else 0) |||
  (if c.slots > 0 ∧ s.fld R.SWT_SLOTS_USED_USED + c.slots > s.fld R.SWT_SLOTS_TOTAL then 8 else 0) |||
  (if s.fld R.SWT_LEGS_ALL + 1 > 131072 ∨ (c.full ∧ s.fld R.SWT_LEGS_FULL_FULL + 1 > 65536) then 16 else 0)

/-- The admission check of R56: the offset chosen, or the mask of the budgets that fail. -/
def State.admission (s : State) (c : Cost) (p : Nat) (tie : Option Nat) : Sum Nat Nat :=
  let mask := s.totalsMask c
  if mask ≠ 0 then .inl mask
  else
    let cands := match tie with | some phi => [phi] | none => List.range p
    match s.bestPhi c p cands with
    | (some (phi, _), _) => .inr phi
    | (none, fails) => .inl fails

/-- Add (or take away) a leg's load at an offset (R50, R53). -/
def State.addLoad (s : State) (c : Cost) (p phi : Nat) (add : Bool) : State :=
  let f (a b : Nat) := if add then a + b else a - b
  let ld := (entriesOf s.horizon p phi).foldl (fun (m : KV Load) e =>
    let l := kgetD m e ⟨0, 0, 0⟩
    let l' : Load := ⟨f l.cyc c.cyc, f l.st c.kib, f l.eu c.eu⟩
    if l' = ⟨0, 0, 0⟩ then kdel m e else kset m e l') s.swt.load
  (s.setSwt { s.swt with load := ld })

/-- Take a leg's resources: load, slots, leg counts (R53, R66). -/
def State.place (s : State) (c : Cost) (p phi : Nat) : State :=
  let t := s.addLoad c p phi true
  ((t.setFld R.SWT_SLOTS_USED_USED (t.fld R.SWT_SLOTS_USED_USED + c.slots)).setFld R.SWT_LEGS_ALL
    (t.fld R.SWT_LEGS_ALL + 1)).setFld R.SWT_LEGS_FULL_FULL (t.fld R.SWT_LEGS_FULL_FULL + b2n c.full)

/-- Release a leg's resources (R57, R66). -/
def State.unplace (s : State) (c : Cost) (p phi : Nat) : State :=
  let t := s.addLoad c p phi false
  ((t.setFld R.SWT_SLOTS_USED_USED (t.fld R.SWT_SLOTS_USED_USED - c.slots)).setFld R.SWT_LEGS_ALL
    (t.fld R.SWT_LEGS_ALL - 1)).setFld R.SWT_LEGS_FULL_FULL (t.fld R.SWT_LEGS_FULL_FULL - b2n c.full)

/-! ### Timed changes (R60-R62, R601) -/

/-- The T of 12 bytes: none for all ones (R60). -/
def tOf (b : Bytes) : Option Inst := if b.all (· == 0xFF#8) then none else some (bytesTime b)

/-- The instant of the next boundary, the first one included; none while TMU time is not valid and no boundary exists (R600, R601). -/
def State.nextB (s : State) : Option Inst :=
  if s.swt.begun then some s.swt.nextT else if s.fld R.TMU_STAT_VALID = 1 then s.swt.firstT else none

/-- Whether a change armed now misses the next boundary: the Work deadline of the swath before it has passed (R59, R62). -/
def State.missesNext (s : State) : Bool := s.swt.begun && s.pastDeadline

/-- The first boundary that a change armed now can reach, where the next one is at `b`: armed before the Work deadline that one, else the one
after (R59, R62). -/
def State.reachAt (s : State) (b : Inst) : Inst := if s.missesNext then b + s.lenI else b

/-- Arming of a change with instant T now (R59, R60, R62): on time when T is at or after now and the boundary it names can be reached. While
TMU time is not valid it is never late (R601). -/
def State.arm (s : State) (t : Option Inst) : When :=
  match t, s.nextB with
  | none, none => ⟨0, false, false, 0⟩
  | none, some b => ⟨0, s.missesNext, false, s.reachAt b⟩
  | some T, none => ⟨T, false, false, nextMul s.lenI T⟩
  | some T, some b => ⟨T, s.missesNext, decide (T < s.now ∨ nextMul s.lenI T < s.reachAt b), nextMul s.lenI T⟩

/-- Whether an armed change takes effect at the boundary at instant `b`. -/
def When.due (w : When) (b : Inst) : Bool := !w.skip && decide (w.t ≤ b)

/-- The instant of the boundary at which a change armed so is expected, and 0 while none exists (R339, R601). -/
def State.effAt (s : State) (w : When) : Inst :=
  match s.nextB with
  | none => 0
  | some b => max (nextMul s.lenI w.t) (if w.skip then b + s.lenI else b)

/-- The lateness in ns that a change records when it takes effect at the boundary at `b`: from the boundary that it names; 0 on time (R60, R62). -/
def When.lateness (w : When) (b : Inst) : Nat := if w.late then (b - w.named) / 65536 else 0

/-- The status that arming replies with (R60, R167). -/
def When.status (w : When) : Nat := if w.late then St.late else St.ok

/-- A one-shot action executes late: counted then, not when armed (R60). -/
def State.lateAct (s : State) : State := (s.bump R.SWT_LATE_CNT).raise R.SWT_EVT 8

end Sys2Proof.Machine
end

