-- ==== Sys2Proof/Machine/Graph.lean ====
section
/-! DEFINITION. Filter stages, coefficient sets, templates and their costs (R248-R276, R310-R333), and the arithmetic of a
chain on a block. -/

namespace Sys2Proof.Machine

open Sys2Proof

/-- The sample rate of a rate code, in Hz (R318). -/
def rateHz (c : Nat) : Nat :=
  match c with
  | 0 => 8000 | 1 => 16000 | 2 => 32000 | _ => 48000

/-- The code of a rate; 4 for a rate that is none of the four. -/
def rateCode (hz : Nat) : Nat :=
  if hz = 8000 then 0 else if hz = 16000 then 1 else if hz = 32000 then 2 else if hz = 48000 then 3 else 4

/-! ### Stages and the ROM (R248, R249, R260) -/

/-- Type, factor, length, delay and settle count of a ROM response (R260). -/
def romEntry (id : Nat) : Nat × Nat × Nat × Nat × Nat :=
  let fir (n : Nat) := (1, 0, n, 32 * (n - 1), n - 1)
  let dec (m n : Nat) := (3, m, n, 32 * (n - 1), cdiv (n - 1) m)
  let int (m n : Nat) := (4, m, n, 32 * (n - 1), (cdiv n m - 1) * m)
  let biq (g c : Nat) := (2, 0, 1, g, c)
  if id < 4 then fir (if id = 1 then 31 else 63)
  else if id = 4 then biq 0 1000
  else if id = 5 then biq 0 5000
  else if id = 6 then int 2 48
  else if id = 7 then int 2 96
  else if id = 8 then dec 2 48
  else if id = 9 then dec 2 96
  else if id = 10 then int 3 72
  else if id = 11 then dec 3 72
  else if id = 12 then int 6 144
  else if id = 13 then dec 6 144
  else if id = 14 then int 2 48
  else if id = 15 then dec 2 48
  else if id = 16 then int 4 96
  else if id = 17 then dec 4 96
  else if id = 18 then fir 2
  else if id = 19 then biq 136 40
  else if id < 24 then biq 0 4000
  else if id < 32 then biq 0 2000
  else if id < 48 then biq 0 200
  else if id < 56 then fir ([7, 11, 15, 23, 31, 63, 127, 255].getD (id - 48) 7)
  else fir (2 ^ (id - 55) + 1)

/-- The coefficients that a stage of LEN `n` uses in number (R257). -/
def coefCount (ty n : Nat) : Nat :=
  match ty with
  | 1 => n | 3 => n | 4 => n | 2 => 5 * n | 6 => 1 | _ => 0

/-- The ROM coefficients of a response in Q1.30: a matched delay is one unit tap at the centre; 18 and 19 are the two-term
responses that the table writes out, 0.68 as its nearest Q1.30 value; the others are not stated and are free (R260; log
entry 11). -/
def romCoefs (id : Nat) : List Int :=
  let (ty, _, n, _, _) := romEntry id
  if 56 ≤ id then (List.range n).map fun i => if 2 * i + 1 = n then 2 ^ 30 else 0
  else if id = 18 then [2 ^ 30, -730144440]
  else if id = 19 then [2 ^ 30, 0, 0, -730144440, 0]
  else (List.range (coefCount ty n)).map fun (i : Nat) => sgn 32 (unsgn 32 (Config.stdNum 300 [(id : Int)] [(i : Int)]))

/-- The 8 coefficients of interpolator phase `phi`: phase 0 is a unit tap at 4 (R270); the others are not stated. -/
def phaseCoefs (phi : Nat) : List Int :=
  if phi = 0 then [0, 0, 0, 0, 2 ^ 30, 0, 0, 0]
  else (List.range 8).map fun (i : Nat) => sgn 32 (unsgn 32 (Config.stdNum 301 [(phi : Int)] [(i : Int)]))

/-- The descriptor of a stage (R249). -/
def parseStage (b : Bytes) : Stage :=
  let w := num b 2 2
  { ty := u8 b 0 / 16, factor := u8 b 0 % 16, rom := if tb (u8 b 1) 7 then some (u8 b 1 % 64) else none, sh := w / 2048,
    len := w % 1024, dg := num b 4 2, dc := num b 6 2 }

/-- The window and rank of a RANK stage. -/
def Stage.w (s : Stage) : Nat := s.len % 16

/-- The first place at which two byte strings of one length differ. -/
def diffAt (a b : Bytes) : Option Nat := findIx (fun p => p.1 != p.2) (a.zip b)

/-- Whether a stage that takes its coefficients from the ROM gives the response's type, factor and length (R260). -/
def Stage.romOk (s : Stage) : Bool :=
  match s.rom with
  | none => true
  | some i => let (ty, m, n, _, _) := romEntry i; ty == s.ty && m == s.factor && n == s.len

/-- The first faulty byte of a stage entry of 8 bytes (R248, R249, R257, R260): the first byte with which no right entry agrees. A type, factor
or length that differs from the ROM's is no fault of the set: it refuses the layout (R260). -/
def stageFault (b : Bytes) : Option Nat :=
  let s := parseStage b
  let lenOk := match s.ty with
    | 2 => decide (1 ≤ s.len ∧ s.len ≤ 16)
    | 5 => s.w % 2 == 1 && decide (3 ≤ s.w ∧ s.len / 16 < s.w)
    | 6 => s.len == 0
    | _ => decide (1 ≤ s.len ∧ s.len ≤ 512)
  let top := if s.ty = 2 ∨ 5 ≤ s.ty then 0 else 2
  let (eg, ec) := match s.ty, s.rom with
    | 2, some i => let (_, _, _, g, c) := romEntry i; (g, c)
    | 2, none => (s.dg, s.dc)
    | _, _ => (0, 0)
  if s.ty < 1 ∨ 6 < s.ty then some 0
  else if (if s.ty = 3 ∨ s.ty = 4 then ¬ (s.factor = 2 ∨ s.factor = 3 ∨ s.factor = 4 ∨ s.factor = 6) else s.factor ≠ 0) then some 0
  else if tb (u8 b 1) 6 ∨ (s.rom.isNone ∧ u8 b 1 % 64 ≠ 0) then some 1
  else if tb (num b 2 2) 10 ∨ top < s.len / 256 then some 2
  else if lenOk = false then some 3
  else (diffAt (be 2 eg ++ be 2 ec) (sub b 4 4)).map (4 + ·)

/-- MAC per output sample, group delay at the delay rate and settle count of a stage (R248). -/
def Stage.mac (s : Stage) : Nat :=
  match s.ty with
  | 1 => s.len | 2 => 5 * s.len | 3 => s.len | 4 => cdiv s.len s.factor | 5 => s.w | _ => 1

/-- Group delay in 1/64 sample at the stage's delay rate (R248). -/
def Stage.g (s : Stage) : Nat :=
  match s.ty with
  | 2 => s.dg | 5 => 32 * (s.w - 1) | 6 => 0 | _ => 32 * (s.len - 1)

/-- Settle count in samples at the stage's output rate (R248). -/
def Stage.c (s : Stage) : Nat :=
  match s.ty with
  | 1 => s.len - 1 | 2 => s.dc | 3 => cdiv (s.len - 1) s.factor | 4 => (cdiv s.len s.factor - 1) * s.factor
  | 5 => s.w - 1 | _ => 0

/-- The output rate of a stage fed at `hz`. -/
def Stage.outHz (s : Stage) (hz : Nat) : Nat :=
  if s.ty = 3 then (if hz % s.factor = 0 then hz / s.factor else 0) else if s.ty = 4 then hz * s.factor else hz

/-- The stages with their input rates. -/
def withRates : Nat → List Stage → List (Stage × Nat)
  | _, [] => []
  | hz, s :: r => (s, hz) :: withRates (s.outHz hz) r

/-- The output rate of a layout. -/
def chainOut (hz : Nat) (l : List Stage) : Nat := l.foldl (fun h s => s.outHz h) hz

/-- Whether a layout fits an input rate and packet time, and the ROM where it names it (R250, R260). -/
def layoutOk (hz f : Nat) (l : List Stage) : Bool :=
  (withRates hz l).all fun (s, h) =>
    s.romOk && decide (rateCode h < 4) && decide (rateCode (s.outHz h) < 4) &&
      (if s.ty = 3 ∨ s.ty = 4 then h * f / 1000 % s.factor == 0 else true)

/-- The rate at which a stage's delay counts (R248). -/
def Stage.delayHz (s : Stage) (hz : Nat) : Nat := if s.ty = 4 then hz * s.factor else hz

/-- The group delay G of a chain in 1/64 sample at its input rate, rounded once, half up (R266). -/
def groupDelay (hz : Nat) (l : List Stage) (en : Bool) : Nat :=
  let k := 48000 * 16
  let tot := sumL ((withRates hz l).map fun (s, h) => s.g * hz * (k / s.delayHz h)) +
    (if en then 256 * hz * (k / chainOut hz l) else 0)
  (2 * tot + k) / (2 * k)

/-- G in ns, rounded half up (R267). -/
def gdNs (hz g : Nat) : Nat := (2 * g * 1000000000 + 64 * hz) / (2 * (64 * hz))

/-- The settle count S of a chain at its output rate, rounded up (R274). -/
def settleOf (hz : Nat) (l : List Stage) (en : Bool) (d : Nat) : Nat :=
  let k := 48000 * 16
  let out := chainOut hz l
  let tot := sumL ((withRates hz l).map fun (s, h) => s.c * out * (k / s.outHz h))
  cdiv tot k + (if en then d + 7 else 0)

/-! ### Coefficient sets (R256-R259, R279) -/

/-- The first faulty byte of a set (R257, R248, R260), or none: a byte that is missing counts as faulty. The number of words comes before the
stage entries; the descriptors of all of them, where they are right, tell what it must be. -/
def setFault (b : Bytes) : Option Nat :=
  let n := u8 b 1
  let st := (List.range n).map fun i => sub b (8 + 8 * i) 8
  let head := if u8 b 0 ≠ 1 then some 0 else if n < 1 ∨ 8 < n then some 1 else if u8 b 2 ≠ 0 then some 2 else if u8 b 3 ≠ 0 then some 3 else none
  let stages := ((List.range n).filterMap fun i => (stageFault (st.getD i [])).map (8 + 8 * i + ·)).head?
  let words := sumL (st.map fun e => let s := parseStage e; if s.rom.isSome then 0 else coefCount s.ty s.len)
  let told := decide (8 + 8 * n ≤ b.length) && st.all fun e => (stageFault e).all (4 ≤ ·)
  let count := if told then (diffAt (be 4 words) (sub b 4 4)).map (4 + ·) else none
  match (match head with | some o => some o | none => if b.length < 8 then some b.length else count.orElse fun _ => stages) with
  | some o => some (min o b.length)
  | none =>
    if b.length < 8 + 8 * n then some b.length
    else if b.length ≠ 8 + 8 * n + 4 * words then some (min b.length (8 + 8 * n + 4 * words)) else none

/-- Coefficients of the stages in turn, ROM ones from the ROM. -/
def splitCoefs : List Stage → List Int → List (List Int)
  | [], _ => []
  | s :: r, cs =>
    match s.rom with
    | some i => romCoefs i :: splitCoefs r cs
    | none => let n := coefCount s.ty s.len; cs.take n :: splitCoefs r (cs.drop n)

/-- A checked set. -/
def parseSet (b : Bytes) : CoefSet :=
  let n := u8 b 1
  let st := (List.range n).map fun i => parseStage (sub b (8 + 8 * i) 8)
  let cs := (List.range (num b 4 4)).map fun i => sgn 32 (num b (8 + 8 * n + 4 * i) 4)
  ⟨st, splitCoefs st cs, b⟩

/-- Granules of a set (R256). -/
def CoefSet.gran (c : CoefSet) : Nat := cdiv c.bytes.length 256

/-- Whether a set matches a layout and, for its BIQ stages, the delays of the other bank's set (R258). -/
def CoefSet.fits (c : CoefSet) (layout : List Stage) (other : Option CoefSet) : Bool :=
  c.stages.length == layout.length &&
  ((c.stages.zip layout).all fun (a, b) => a.ty == b.ty && a.factor == b.factor && a.rom == b.rom && a.len == b.len) &&
  (match other with
    | some o => (c.stages.zip o.stages).all fun (a, b) => a.ty != 2 || a.dg == b.dg
    | none => true)

/-! ### Arithmetic of a chain (R251-R255, R262-R265, R268, R270, R273, R275) -/

/-- Rounding half up by a shift, then clamping to 40 bits; the Bool says whether either limit acted (R252, R253). -/
def shiftClamp (acc : Int) (sh : Nat) : Int × Bool :=
  let a := clampI acc (-(2 ^ 79)) (2 ^ 79 - 1)
  let r := if sh = 0 then a else (a + 2 ^ (sh - 1)) / 2 ^ sh
  let y := clampI r (-(2 ^ 39)) (2 ^ 39 - 1)
  (y, a != acc || y != r)

/-- The sum of products of two lists, the shorter one setting the end. -/
def dot : List Int → List Int → Int
  | a :: as, b :: bs => a * b + dot as bs
  | _, _ => 0

/-- Every `m`-th element. -/
def every (m : Nat) : Nat → List Int → List Int
  | 0, _ => []
  | k + 1, l => match l with | [] => [] | x :: _ => x :: every m k (l.drop m)

/-- The sections of a BIQ stage in turn: new section states, output and clamps (R254). -/
def biqRun : Nat → List Int → List Int → Int → Nat → List Int × Int × Nat
  | 0, _, _, x, _ => ([], x, 0)
  | k + 1, cs, st, x, sh =>
    let x1 := st.getD 0 0
    let x2 := st.getD 1 0
    let y1 := st.getD 2 0
    let y2 := st.getD 3 0
    let acc := cs.getD 0 0 * x + cs.getD 1 0 * x1 + cs.getD 2 0 * x2 - cs.getD 3 0 * y1 - cs.getD 4 0 * y2
    let (y, sat) := shiftClamp acc (if k = 0 then sh else 30)
    let (st', z, n) := biqRun k (cs.drop 5) (st.drop 4) y sh
    ([x, x1, y, y1] ++ st', z, n + b2n sat)

/-- Insertion into a rising list. -/
def insAsc (x : Int) : List Int → List Int
  | [] => [x]
  | y :: r => if x ≤ y then x :: y :: r else y :: insAsc x r

/-- The r-th smallest of a list. -/
def rankOf (r : Nat) (l : List Int) : Int := (l.foldl (fun a x => insAsc x a) []).getD r 0

/-- One input into a stage other than INT: new line, output and clamps. -/
def Stage.one (s : Stage) (sh : Nat) (cs line : List Int) (x : Int) : List Int × Int × Nat :=
  match s.ty with
  | 2 => biqRun s.len cs line x sh
  | 5 => let l := (x :: line).take s.w; (l, rankOf (s.len / 16) (l ++ List.replicate (s.w - l.length) 0), 0)
  | 6 => let (y, b) := shiftClamp (cs.getD 0 0 * x) sh; ([], y, b2n b)
  | _ => let l := (x :: line).take s.len; let (y, b) := shiftClamp (dot cs l) sh; (l, y, b2n b)

/-- Output `j` of an INT stage whose line holds its newest input (R251). -/
def Stage.intOut (s : Stage) (sh : Nat) (cs line : List Int) (j : Nat) : Int × Nat :=
  let (y, b) := shiftClamp (dot (every s.factor s.len (cs.drop j)) line) sh
  (y, b2n b)

/-- A call in progress: the chain, outputs so far (newest first), how many it must give, their instants' base and rate, the
dispatch instant, the counts that the call adds, and the latest instant of a sample that earlier calls computed (R262). -/
structure Run where
  ch : Chain
  cnt : List Nat
  out : List Int
  k : Nat
  n : Nat
  at0 : Inst
  hz : Nat
  disp : Nat
  u : Nat
  sat : Nat
  nSwap : Nat
  nFade : Nat
  nLate : Nat
  nDefer : Nat
  mac : Nat
  was : Option Inst
  deriving DecidableEq, Repr

/-- The two banks' sets for a chain. -/
structure Banks where
  a : CoefSet
  b : CoefSet
  deriving DecidableEq, Repr

/-- The set of a bank. -/
def Banks.of (bk : Banks) (live : Bool) : CoefSet := if live then bk.b else bk.a

/-- Whether a fade is running. -/
def Chain.fading (c : Chain) : Bool := decide (c.fadeJ < c.fadeX)

/-- Count a clamp at a stage (R253, R280). -/
def Run.satAt (r : Run) (i n : Nat) : Run :=
  if n = 0 then r
  else { r with sat := r.sat + n, ch := { r.ch with sats := setAt r.ch.sats i ((r.ch.sats.getD i 0 + n) % 2 ^ 32) } }

/-- Count the MACs of one output of a stage, two paths counting twice (R248, R277). -/
def Run.made (r : Run) (n : Nat) : Run := { r with mac := r.mac + n }

/-- The instant of output sample `k` of the call (R268). -/
def Run.inst (r : Run) (k : Nat) : Inst := r.at0 + instOf r.hz k

/-- Whether the bank that is not live is bound. -/
def Chain.otherBound (c : Chain) : Bool := (if c.live then c.bankA else c.bankB).isSome

/-- Whether an output sample at or after a swap's instant has been computed, so that the swap is late (R262). -/
def Chain.passed (c : Chain) (t : Inst) : Bool := match c.lastAt with | some l => decide (t ≤ l) | none => false

/-- The pending swap seen before output sample `k` (R262-R265). One with a T of all ones is never late (R60). A swap to a bank that a graph
change has unbound waits until it is bound (DESIGN CHOICE, log entry 79). -/
def Run.swapCheck (r : Run) : Run :=
  match r.ch.swap with
  | none => r
  | some w =>
    let i := r.inst r.k
    let T := w.t.getD i
    if r.ch.otherBound && (w.hit || (decide (T ≤ i) && decide (w.armLoc + nsI 2000 ≤ r.disp))) then
      let late := if w.hit then w.late else w.t.any fun t => r.was.any fun l => decide (t ≤ l)
      if r.ch.fading then { r with ch := { r.ch with swap := some { w with hit := true, late := late } } }
      else
        let x := if r.ch.fresh then 0 else w.x
        let c1 := { r.ch with swap := none, live := !r.ch.live, late := late, defer := w.hit }
        let ns := if late ∨ w.hit then min (2 ^ 32 - 1) ((i - T) / 65536) else 0
        let c2 := { c1 with lateness := ns, fadeX := x, fadeJ := 0, old := if x = 0 then [] else r.ch.path }
        { r with ch := c2, nSwap := r.nSwap + 1, nFade := r.nFade + b2n (x != 0), nLate := r.nLate + b2n late, nDefer := r.nDefer + b2n w.hit }
    else r

/-- One output of the last stage: fade mixer, phase delay, suppression (R263, R270, R275). -/
def Run.emit (r : Run) (x y : Int) : Run :=
  let c := r.ch
  let last := c.layout.length - 1
  let (z, s1) := if c.fading then
      let w : Int := ((c.fadeJ + 1) * 2 ^ 30 / (c.fadeX + 1) : Nat)
      shiftClamp (y * (2 ^ 30 - w) + x * w) 30
    else (x, false)
  let line := (z :: c.line).take 4104
  let (o, s2) := if c.en then shiftClamp (dot (phaseCoefs c.phi) (line.drop c.d)) 30 else (z, false)
  let j := if c.fading then c.fadeJ + 1 else c.fadeJ
  let done := c.fading && j == c.fadeX
  let c1 := { c with line := line, recd := c.recd + 1, fadeJ := j, fresh := false, lastAt := some (max (c.lastAt.getD 0) (r.inst r.k)) }
  let c2 := { c1 with suppr := c.suppr - 1, old := if done then [] else c.old }
  let mac := (if c.fading then 2 else 0) + (if c.en then 8 else 0)
  let r1 := { r with ch := c2, out := (if 0 < c.suppr then 0 else o) :: r.out, k := r.k + 1, u := r.u + b2n (0 < c.suppr), mac := r.mac + mac }
  let r2 := (r1.satAt last (b2n s1)).satAt 8 (b2n s2)
  if r2.k < r2.n then r2.swapCheck else r2

/-- Push one input (`x` on the new path, `y` on the old) through the stages from stage `i` on (R251, R263). -/
def push (bk : Banks) (split : Nat) : List Stage → Nat → Int → Int → Run → Run
  | [], _, x, y, r => r.emit x y
  | s :: rest, i, x, y, r =>
    let live := bk.of r.ch.live
    let dead := bk.of (!r.ch.live)
    let two := r.ch.fading && decide (split ≤ i)
    let cs := live.coefs.getD i []
    let sh := (live.stages.getD i s).sh
    let cs' := dead.coefs.getD i []
    let sh' := (dead.stages.getD i s).sh
    let line := r.ch.path.getD i []
    let line' := r.ch.old.getD i []
    if s.ty = 4 then
      let l := (x :: line).take (cdiv s.len s.factor)
      let l' := (y :: line').take (cdiv s.len s.factor)
      let r1 := { r with ch := { r.ch with path := setAt r.ch.path i l, old := if two then setAt r.ch.old i l' else r.ch.old } }
      (List.range s.factor).foldl (fun q j =>
        let lv := bk.of q.ch.live
        let dd := bk.of (!q.ch.live)
        let tw := q.ch.fading && decide (split ≤ i)
        let (o, n) := s.intOut (lv.stages.getD i s).sh (lv.coefs.getD i []) (q.ch.path.getD i []) j
        let (o', n') := if tw then s.intOut (dd.stages.getD i s).sh (dd.coefs.getD i []) (q.ch.old.getD i []) j else (o, 0)
        push bk split rest (i + 1) o o' ((q.made (s.mac * (1 + b2n tw))).satAt i n |>.satAt i n')) r1
    else
      let (l, o, n) := s.one sh cs line x
      let (l', o', n') := if two then s.one sh' cs' line' y else (line', o, 0)
      let r1 := { r with ch := { r.ch with path := setAt r.ch.path i l, old := if two then setAt r.ch.old i l' else r.ch.old } }
      if s.ty = 3 then
        let ph := r.cnt.getD i 0
        let r2 := { r1 with cnt := setAt r.cnt i ((ph + 1) % s.factor) }
        if ph = 0 then push bk split rest (i + 1) o o' ((r2.made (s.mac * (1 + b2n two))).satAt i n |>.satAt i n') else r2
      else push bk split rest (i + 1) o o' ((r1.made (s.mac * (1 + b2n two))).satAt i n |>.satAt i n')

/-- The first stage with coefficients from the live bank, after which the two paths of a fade differ (R263). -/
def splitAt (l : List Stage) : Nat := (findIx (fun s => s.rom.isNone) l).getD l.length

/-- A chain reset (R273, R274): everything to zero; a pending swap stays, its new bank stays live. The reset that a new chain's first call owes
stays owed (R272). -/
def Chain.reset (c : Chain) (live : List Stage) : Chain :=
  let s := settleOf c.fIn live c.en c.d
  let c1 := { c with path := c.layout.map fun _ => [], old := [], fadeX := 0, fadeJ := 0, line := [], recd := 0 }
  { c1 with suppr := s, settle := s, fresh := true }

/-- One call: a block in, a block out (R246, R268, R275). -/
def Chain.call (c : Chain) (bk : Banks) (b : Block) (disp : Nat) : Run × Block :=
  let out := chainOut c.fIn c.layout
  let g := groupDelay c.fIn (bk.of c.live).stages c.en
  let q := countAt (64 * c.fIn) b.at_
  let at0 := instOf (64 * c.fIn) (q - g)
  let n := b.xs.length * out / c.fIn
  let r0 : Run :=
    { ch := c, cnt := c.layout.map fun _ => 0, out := [], k := 0, n := n, at0 := at0, hz := out, disp := disp, u := 0,
      sat := 0, nSwap := 0, nFade := 0, nLate := 0, nDefer := 0, mac := 0, was := c.lastAt }
  let r := b.xs.foldl (fun r x => push bk (splitAt c.layout) c.layout 0 x x r) (if n = 0 then r0 else r0.swapCheck)
  (r, { at_ := at0, rate := rateCode out, xs := r.out.reverse, u := r.u, unset := decide (0 < r.u), silent := false,
        conceal := b.conceal, evts := b.evts })

/-- The MACs that a frame is charged with (R276). -/
def chainMacs (hz f : Nat) (l : List Stage) (fade en : Bool) : Nat :=
  let perMs := (withRates hz l).map fun (s, h) => s.mac * (s.outHz h * f / 1000) * (if fade ∧ s.rom.isNone then 2 else 1)
  let n := chainOut hz l * f / 1000
  sumL perMs + (if fade then 2 * n else 0) + (if en then 8 * n else 0)

/-! ### GAIN (R314) -/

/-- Whether `n - 1/2` is at most 2^27 times 10^(g/40), with g in half-dB steps. -/
def gainGe (n : Nat) (g : Int) : Bool :=
  if n = 0 then true
  else
    let a := (2 * n - 1) ^ 40
    let b := 2 ^ (28 * 40)
    if 0 ≤ g then decide (a ≤ b * 10 ^ g.toNat) else decide (a * 10 ^ (-g).toNat ≤ b)

/-- Bisection for the largest n that `gainGe` accepts, bit by bit. -/
def gainBits (g : Int) : Nat → Nat → Nat
  | 0, n => n
  | k + 1, n => let m := n + 2 ^ k; gainBits g k (if gainGe m g then m else n)

/-- The factor of a gain, rounded to the nearest unsigned Q5.27 (R314). -/
def gainFactor (g : Int) : Nat := gainBits g 32 0

/-- A sample scaled by a gain; -128 mutes (R314). -/
def gainOne (g x : Int) : Int := if g = -128 then 0 else (shiftClamp (x * gainFactor g) 27).1

/-! ### Templates (R310-R318) -/

/-- Codec facts of R319: sample rates, packet times, RTP clock. -/
structure Codec where
  rates : List Nat
  times : List Nat
  clock : Nat
  deriving DecidableEq, Repr

/-- The codec of a code (R319). -/
def codecOf (c : Nat) : Option Codec :=
  let all : List Nat := [5, 10, 20, 30, 40, 60]
  match c with
  | 1 => some ⟨[0], all, 8000⟩
  | 2 => some ⟨[0], all, 8000⟩
  | 3 => some ⟨[0], [10, 20, 30, 40, 60], 8000⟩
  | 4 => some ⟨[1], all, 8000⟩
  | 5 => some ⟨[0], [20, 40, 60], 8000⟩
  | 6 => some ⟨[1], [20, 40, 60], 16000⟩
  | 7 => some ⟨[0, 1], [20, 40, 60], 16000⟩
  | 8 => some ⟨[0, 1], [10, 20, 30, 40, 60], 48000⟩
  | _ => none

/-- Whether a mode and flags byte suit a codec (R603); the answer is none, or 0 for the mode and 1 for the flags. -/
def codecFault (c rate mode flags : Nat) : Option Nat :=
  let (mOk, fMax) := match c with
    | 5 => (decide (mode ≤ 7), 3)
    | 6 => (decide (mode ≤ 8), 3)
    | 7 => (decide (mode ≤ 6) || (rate == 1 && decide (16 ≤ mode ∧ mode ≤ 24)), 3)
    | 8 => (decide (6 ≤ mode ∧ mode ≤ 40), 7)
    | _ => (mode == 0, 1)
  if mOk = false then some 0 else if fMax < flags then some 1 else none

/-- A parsed template (R318). -/
def parseTemplate (b : Bytes) : Template :=
  let n := u8 b 1
  { f := u8 b 4, relay := tb (u8 b 3) 0, exp := if u8 b 2 = 0xFF then none else some (u8 b 2)
    peer := if u8 b 5 = 0xFF then none else some (u8 b 5)
    nodes := (List.range n).map fun i =>
      let e := sub b (16 + 16 * i) 16
      ⟨u8 e 0, u8 e 1, u8 e 2, u8 e 3, e.drop 4⟩
    bytes := b }

/-- Node `i` of a template. -/
def Template.node (t : Template) (i : Nat) : Node := t.nodes.getD i ⟨0, 0xFF, 0xFF, 0, []⟩

/-- The rate code that an input reference delivers; 0xFF for none. -/
def Template.refRate (t : Template) (r : Nat) : Nat :=
  if r = 0xF0 then t.peer.getD 0xFF else if r < t.nodes.length then (t.node r).rate else 0xFF

/-- The output rate byte of a node that has samples; ENCODE has none. -/
def Node.isEnc (n : Node) : Bool := n.ty == 8

/-- The set of a FILTER node. -/
def Node.setId (n : Node) : Nat := num n.par 0 2

/-- The initial d and phase, the declared maximum d, the flags of a FILTER node (R318). -/
def Node.initD (n : Node) : Nat := num n.par 4 2 % 4096
def Node.initPhi (n : Node) : Nat := u8 n.par 6
def Node.maxD (n : Node) : Nat := num n.par 8 2
def Node.fade (n : Node) : Bool := tb (u8 n.par 2) 0
def Node.en0 (n : Node) : Bool := tb (u8 n.par 2) 1

/-- The stamp that a reference carries for boundary B, as fine steps taken along its path (R268, R315): each FILTER node
takes G away, at the fine position of its input rate. -/
def Template.stamp (t : Template) (sets : KV CoefSet) (b : Inst) : Nat → Nat → Inst
  | 0, _ => b
  | k + 1, r =>
    if t.nodes.length ≤ r then b
    else
      let n := t.node r
      if n.ty = 1 then b
      else if n.ty = 3 then
        let i := t.stamp sets b k n.in0
        let hz := rateHz (t.refRate n.in0)
        let l := (kgetD sets n.setId ⟨[], [], []⟩).stages
        instOf (64 * hz) (countAt (64 * hz) i - groupDelay hz l n.en0)
      else t.stamp sets b k n.in0

/-- The inputs that a node type takes: whether in0 must be present, may be present, and whether in1 is taken (R311). -/
def takesIn (ty : Nat) : Bool × Bool × Bool :=
  match ty with
  | 1 => (false, false, false)
  | 4 => (true, true, true)
  | 6 => (false, true, false)
  | _ => (true, true, false)

/-- Whether node `i` offends a rule of R315. -/
def Template.nodeBad (t : Template) (sets : KV CoefSet) (i : Nat) : Bool :=
  let n := t.node i
  let (need, may, in1) := takesIn n.ty
  let refOk (r : Nat) : Bool := decide (r < i) || (r == 0xF0 && t.peer.isSome)
  let before := t.nodes.take i
  let count (ty : Nat) := (before.filter fun m => m.ty == ty).length
  let inRate := t.refRate n.in0
  let same := n.in0 == 0xFF || inRate == n.rate
  let fromEnc (r : Nat) : Bool := decide (r < t.nodes.length) && (t.node r).isEnc
  decide (n.ty < 1 ∨ 9 < n.ty) || decide (3 < n.rate) ||
  (if n.in0 = 0xFF then need else !may || !refOk n.in0) || (if n.in1 = 0xFF then in1 else !in1 || !refOk n.in1) ||
  fromEnc n.in0 || fromEnc n.in1 ||
  ((n.ty == 1 || n.ty == 8 || n.ty == 4 || n.ty == 6) && decide (0 < count n.ty)) ||
  (n.ty == 5 && decide (1 < count 5)) || (n.ty == 9 && decide (3 < count 9)) ||
  (n.ty == 2 && (!(decide (n.in0 < i) && (t.node n.in0).ty == 1) || before.any fun m => m.ty == 2 && m.in0 == n.in0)) ||
  (n.ty != 2 && ((decide (n.in0 < i) && (t.node n.in0).ty == 1) || (decide (n.in1 < i) && (t.node n.in1).ty == 1))) ||
  (n.ty == 1 && !(t.nodes.any fun m => m.ty == 2 && m.in0 == i)) ||
  ((n.ty == 1 || n.ty == 8) && (match codecOf (u8 n.par 0) with
    | none => true
    | some c => !c.rates.contains n.rate || !c.times.contains t.f)) ||
  (n.ty == 3 && (match kget sets n.setId with
    | none => true
    | some c => decide (3 < inRate) || !layoutOk (rateHz inRate) t.f c.stages ||
        rateCode (chainOut (rateHz inRate) c.stages) != n.rate || decide (4095 < n.maxD) || decide (n.maxD < n.initD) ||
        decide (63 < n.initPhi))) ||
  (n.ty != 3 && n.ty != 1 && !same) ||
  (n.ty == 5 && decide (1 < n.rate)) ||
  (n.ty == 4 && (decide (1 < n.rate) || u8 n.par 0 == 0 || decide (32 < u8 n.par 0) || t.refRate n.in1 != n.rate ||
    !(decide (n.in1 < i) && (t.node n.in1).ty == 3) ||
    (List.range 12).any fun k =>
      let b := nsI ((k + 1) * 250000) + k * secI
      t.stamp sets b 25 n.in0 != t.stamp sets b 25 n.in1)) ||
  (n.ty == 6 && decide (num n.par 0 2 < 2 ∨ 512 < num n.par 0 2)) ||
  (n.ty == 9 && (decide (3 < u8 n.par 0) || before.any fun m => m.ty == 9 && u8 m.par 0 == u8 n.par 0)) ||
  (n.ty == 7 && !(let g := sgn 8 (u8 n.par 0); g == -128 || decide (-96 ≤ g ∧ g ≤ 48))) ||
  (t.exp == some i && n.isEnc)

/-- The first fault of a template whose length is right: 0xFF for the header, else the first offending node (R315). -/
def templateFault (sets : KV CoefSet) (b : Bytes) : Option Nat :=
  let t := parseTemplate b
  let n := u8 b 1
  if u8 b 0 ≠ 1 ∨ 24 < n ∨ ¬ [5, 10, 20, 30, 40, 60].contains t.f ∨ (u8 b 5 ≠ 0 ∧ u8 b 5 ≠ 1 ∧ u8 b 5 ≠ 0xFF) ∨
    (t.relay ∧ n ≠ 0) ∨ (n ≤ u8 b 2 ∧ u8 b 2 ≠ 0xFF) ∨ num b 6 10 ≠ 0 ∨ 1 < u8 b 3 then some 0xFF
  else findIx (fun i => t.nodeBad sets i) (List.range n)

/-! ### Costs (R53, R300, R331-R333) -/

/-- Cycles per ms of a codec's DECODE, ENCODE and PLC, and its state in KiB (R332). -/
def codecCost (c : Nat) : Nat × Nat × Nat × Nat :=
  match c with
  | 1 => (100, 100, 500, 2) | 2 => (100, 100, 500, 2) | 3 => (350, 1430, 50, 2) | 4 => (900, 1300, 600, 4)
  | 5 => (450, 1900, 50, 3) | 6 => (750, 2510, 50, 4) | 7 => (1950, 7550, 50, 8) | _ => (1150, 4260, 50, 6)

/-- The codec family of a code: both G.711 laws are one codec row of R332. -/
def codecFam (c : Nat) : Nat := if c = 2 then 1 else c

/-- The weight of a rate. -/
def wOf (rate : Nat) : Nat := match rate with | 0 => 1 | 1 => 2 | 2 => 4 | _ => 6

/-- Declared cycles of node `i` (R331, R332). -/
def Template.nodeCycles (t : Template) (sets : KV CoefSet) (i : Nat) : Nat :=
  let n := t.node i
  let w := wOf n.rate
  match n.ty with
  | 1 => 200 + (codecCost (u8 n.par 0)).1 * t.f
  | 2 => 300 + (codecCost (u8 (t.node n.in0).par 0)).2.2.1 * t.f
  | 3 => 300 + cdiv (chainMacs (rateHz (t.refRate n.in0)) t.f (kgetD sets n.setId ⟨[], [], []⟩).stages n.fade n.en0) 3
  | 4 => 1500 + 20 * w * t.f
  | 5 => 400 + (if n.rate = 0 then 1600 else 2000) * t.f
  | 6 => 500 + 6 * num n.par 0 2 + 225 * w * t.f
  | 7 => 100 + 20 * w * t.f
  | 8 => 200 + (codecCost (u8 n.par 0)).2.1 * t.f
  | 9 => 300 + 40 * w * t.f
  | _ => 0

/-- Declared cycles of a template (R331). -/
def Template.cycles (t : Template) (sets : KV CoefSet) : Nat :=
  if t.relay then 0 else 16500 + sumL ((List.range t.nodes.length).map (t.nodeCycles sets))

/-- Echo state in KiB for `u` slot units (R300). -/
def echoKib (u : Nat) : Nat := cdiv (3840 + 1040 * u) 1024

/-- Loft KiB of a FILTER node (R333). -/
def filterKib (l : List Stage) (fade : Bool) (maxD : Nat) : Nat :=
  let w := sumL (l.map fun s =>
    (match s.ty with | 2 => 4 * s.len | 5 => s.w | 6 => 0 | _ => s.len) * (if fade ∧ s.rom.isNone then 2 else 1))
  cdiv (512 + 5 * (w + maxD + 8)) 1024

/-- Codec state in KiB, once for each distinct codec (R332). -/
def Template.codecKib (t : Template) : Nat :=
  let cs := (t.nodes.filter fun n => n.ty == 1 || n.ty == 8).map fun n => codecFam (u8 n.par 0)
  sumL (cs.eraseDups.map fun c => (codecCost c).2.2.2)

/-- The ECHO node of a template, if any. -/
def Template.echoNode (t : Template) : Option (Nat × Node) :=
  (findIx (fun n => n.ty == 4) t.nodes).map fun i => (i, t.node i)

/-- Slot units of a leg of a template with a tail setting in ms (R53, R331). -/
def Template.slotUnits (t : Template) (tail : Option Nat) : Nat :=
  match t.echoNode with
  | none => 0
  | some (_, n) => (match tail with | some ms => ms / 8 | none => u8 n.par 0) * wOf n.rate

/-- Declared loft KiB (R333). -/
def Template.loft (t : Template) (sets : KV CoefSet) (tail : Option Nat) : Nat :=
  if t.relay then 1
  else
    let s := match t.exp with | some i => rateHz (t.node i).rate * t.f / 1000 | none => 0
    1 + cdiv (10 * s) 1024 + t.codecKib + (t.nodes.filter fun n => n.ty == 5 || n.ty == 6 || n.ty == 9).length +
      sumL ((t.nodes.filter fun n => n.ty == 3).map fun n =>
        filterKib (kgetD sets n.setId ⟨[], [], []⟩).stages n.fade n.maxD) +
      (match t.echoNode with | some _ => echoKib (t.slotUnits tail) | none => 0)

/-- The cost of one leg of a template (R53). -/
def Template.cost (t : Template) (sets : KV CoefSet) (tail : Option Nat) : Cost :=
  let u := t.slotUnits tail
  { cyc := cdiv (t.cycles sets) 1024, kib := t.loft sets tail, eu := u * t.f, slots := u,
    full := t.nodes.any fun n => n.ty == 1 || n.ty == 8 }

end Sys2Proof.Machine
end

