-- ==== Sys2Proof/Machine/Parse.lean ====
section
/-! DEFINITION. Parsing of frames at the packet engine (R193, R194) and the flow table (R196-R199). -/

namespace Sys2Proof.Machine

open Sys2Proof

/-- A UDP packet found in a frame: outer and inner VID, IP version, addresses, ports, payload. -/
structure Pkt where
  ovid : Option Nat
  ivid : Option Nat
  ver : Nat
  src : Nat
  dst : Nat
  sport : Nat
  dport : Nat
  pay : Bytes
  deriving DecidableEq, Repr

/-- What parsing finds (R193, R194): an IP or UDP fault of row 3, a checksum failure of row 4, a slow-path frame of row 5,
a UDP packet, other IP, or no IP. -/
inductive Parsed where
  | bad
  | csum
  | slow
  | udp (k : Pkt)
  | otherIp
  | notIp
  deriving DecidableEq, Repr

/-- The tags of a frame under R194: none when a tag lies outside its row. -/
def pkeTags (qinq : Bool) (b : Bytes) : Option (List Nat × Nat) :=
  let t0 := num b 12 2
  if isTpid t0 then
    if t0 = 0x88A8 ∧ qinq = false then none
    else
      let t1 := num b 16 2
      if t1 = 0x8100 then
        if isTpid (num b 20 2) then none else some ([num b 14 2 % 4096, num b 18 2 % 4096], 20)
      else if t1 = 0x88A8 then none
      else some ([num b 14 2 % 4096], 16)
  else some ([], 12)

/-- The walk along an IPv6 extension-header chain: next header, offset, headers left, bytes left. The answer is the
upper-layer header and its offset, or none for the slow path (R194). -/
def v6Chain (b : Bytes) : Nat → Nat → Nat → Nat → Nat → Option (Nat × Nat)
  | 0, _, _, _, _ => none
  | k + 1, nh, off, left, room =>
    if nh = 44 ∨ nh = 50 ∨ nh = 51 ∨ nh = 135 ∨ nh = 139 ∨ nh = 140 then none
    else if nh = 0 ∨ nh = 60 ∨ nh = 43 then
      let len := (u8 b (off + 1) + 1) * 8
      if left = 0 ∨ room < len ∨ (nh = 43 ∧ u8 b (off + 3) ≠ 0) then none
      else v6Chain b k (u8 b off) (off + len) (left - 1) (room - len)
    else some (nh, off)

/-- The one's complement sum of a UDP datagram with its pseudo header (R193 row 4). -/
def udpSum (pseudo udp : Bytes) : Nat := fold16 (sum16 (pseudo ++ be 4 udp.length ++ be 4 17) + sum16 udp)

/-- A UDP datagram inside IP: length check of R194, checksum of row 4. -/
def parseUdp (tags : List Nat) (ver src dst : Nat) (pseudo ipPay : Bytes) : Parsed :=
  let ul := num ipPay 4 2
  if ipPay.length < 8 ∨ ul < 8 ∨ ipPay.length < ul then .bad
  else
    let u := ipPay.take ul
    let c := num u 6 2
    if (c = 0 ∧ ver = 6) ∨ (c ≠ 0 ∧ udpSum pseudo u ≠ 0xFFFF) then .csum
    else .udp ⟨tags[0]?, tags[1]?, ver, src, dst, num u 0 2, num u 2 2, u.drop 8⟩

/-- Parse a frame (R193 rows 3 to 10, R194). -/
def parsePkt (qinq : Bool) (b : Bytes) : Parsed :=
  match pkeTags qinq b with
  | none => .bad
  | some (tags, at_) =>
    let ty := num b at_ 2
    let ip := b.drop (at_ + 2)
    if ty = 0x0806 then .slow
    else if ty = 0x0800 then
      let hl := 4 * (u8 ip 0 % 16)
      let tl := num ip 2 2
      if u8 ip 0 / 16 ≠ 4 ∨ hl < 20 ∨ tl < hl + 8 ∨ ip.length < tl ∨ fold16 (sum16 (ip.take hl)) ≠ 0xFFFF then .bad
      else if num ip 6 2 % 0x4000 ≠ 0 then .slow
      else
        let pr := u8 ip 9
        if pr = 1 then .slow
        else if pr = 17 then parseUdp tags 4 (num ip 12 4) (num ip 16 4) (sub ip 12 8) (sub ip hl (tl - hl))
        else .otherIp
    else if ty = 0x86DD then
      let pl := num ip 4 2
      if u8 ip 0 / 16 ≠ 6 ∨ ip.length < 40 + pl then .bad
      else match v6Chain ip 4 (u8 ip 6) 40 2 (min 64 pl) with
        | none => .slow
        | some (nh, off) =>
          if nh = 58 then .slow
          else if nh = 17 then parseUdp tags 6 (num ip 8 16) (num ip 24 16) (sub ip 8 32) (sub ip off (40 + pl - off))
          else .otherIp
    else .notIp

/-- Whether an entry's key matches a packet on a port (R197). -/
def FlowEnt.matches (f : FlowEnt) (p : Nat) (k : Pkt) : Bool :=
  f.port == p && f.ovid == k.ovid && f.ivid == k.ivid && f.ver == k.ver && f.dst == k.dst && f.dport == k.dport &&
    (!f.full || (f.src == k.src && f.sport == k.sport))

/-- The lookup of R197: the FULL key first, the DST key second; the answer is the entry's place in the list. -/
def lookupFlow (fs : List FlowEnt) (p : Nat) (k : Pkt) : Option Nat :=
  match findIx (fun f => f.full && f.matches p k) fs with
  | some i => some i
  | none => findIx (fun f => !f.full && f.matches p k) fs

/-- The leg on whose flow a received frame lies (R458). -/
def State.flowLeg (s : State) (p : Nat) (b : Bytes) : Option Nat :=
  match parsePkt (s.flag R.PKE_CFG_QINQ) b with
  | .udp k => match lookupFlow s.pke.flows p k with
    | some i => (s.pke.flows[i]?).map (·.leg)
    | none => none
  | _ => none

/-- Whether two entries have the same key (R198). -/
def FlowEnt.sameKey (a b : FlowEnt) : Bool :=
  a.full == b.full && a.port == b.port && a.ovid == b.ovid && a.ivid == b.ivid && a.ver == b.ver && a.dst == b.dst &&
    a.dport == b.dport && (!a.full || (a.src == b.src && a.sport == b.sport))

/-- A key as numbers, for the hash. -/
def FlowEnt.keyNums (f : FlowEnt) : List Int :=
  let a : List Nat := [b2n f.full, f.port, f.ovid.getD 4096, f.ivid.getD 4096, f.ver, f.dst, f.dport]
  (a ++ (if f.full then [f.src, f.sport] else [])).map Int.ofNat

/-- The two buckets that a key hashes to under the seed of this start; the hash is not stated (R196; log entry 12). -/
def State.buckets (s : State) (f : FlowEnt) : Nat × Nat :=
  let h (i : Nat) := ((Config.stdNum (200 + i) [s.pke.seed] f.keyNums).natAbs) % 524288
  (h 0, h 1)

/-- Entries in a bucket. -/
def State.inBucket (s : State) (b : Nat) : Nat := (s.pke.flows.filter fun f => f.place == some b).length

/-- Entries in the stash. -/
def State.inStash (s : State) : Nat := (s.pke.flows.filter fun f => f.place == none).length

/-- Where an entry goes (R196): the emptier of its two buckets, the lower-numbered on a tie; when both are full the stash;
none when that is full too. -/
def State.placeFlow (s : State) (f : FlowEnt) : Option (Option Nat) :=
  let (a, b) := s.buckets f
  let lo := min a b
  let hi := max a b
  let nl := s.inBucket lo
  let nh := s.inBucket hi
  let pick := if nh < nl then hi else lo
  if min nl nh < 4 then some (some pick) else if s.inStash < 1024 then some none else none

end Sys2Proof.Machine
end

