-- ==== Sys2Proof/Machine/Leg.lean ====
section
/-! DEFINITION. Legs as the commands make them (R51-R57, R219, R289, R310-R339, R345): configuration, admission, chains and
their slots, armed changes and their effect at a boundary. Payloads that the spec names without laying them out have the
layout of log entry 15. -/

namespace Sys2Proof.Machine

open Sys2Proof

/-! ### Initial values -/

/-- A playout buffer with no stream. -/
def Ply.init : Ply :=
  { par := ⟨64, 1000, 2000, 3, 200, 16⟩, insAt := none, anchored := false, anchorAt := 0, ts := 0, slots := [], seen := [], hi := 0, oow := 0, slack := [], got := 0,
    sref := none, shrinkAt := none, dtx := false, lateTs := [], slipTs := [], evts := [], skewPts := [], skew := 0, jit := 0,
    lastA := none, delayUs := 0, sMax := 0, handed := [] }

/-- An SRTP context without keys: suite 0. -/
def SCtx.init : SCtx :=
  { cur := none, next := none, hi := 0, map := 0, hiC := 0, mapC := 0, valid := false, eflag := true }

/-- The defaults of R219. -/
def PlyCfg.init : PlyCfg := { fixed := false, delayUs := 40000, minUs := 10000, maxUs := 200000, depth := 16, relay := false }

/-- The defaults of R289. -/
def EchoCfg.init : EchoCfg :=
  { tail := none, adapt := 1, mu := 8, dt2 := 12, hang := 60, nlp := 2, att := 30, cng := 2, cngMax := -40, toneDis := 1 }

/-- The configuration of a leg id that nothing has set. -/
def LegCfg.init : LegCfg :=
  { egress := none, rx := SCtx.init, tx := SCtx.init, ply := PlyCfg.init, echo := EchoCfg.init, bridge := none, gains := [],
    group := none, detPass := false, evtIn := 2, notify := none, tmpl := 0, ssrcG := none, roffG := none, seqG := none, pts := (0, 255, 255),
    mode := 0, flags := 0, rtcpS := 5, xr := false, ssrcFix := none }

/-- The receive side of a new leg. -/
def RxSt.init : RxSt := { ssrc := none, heard := 0, doneEv := [], begun := [], srNtp := 0, srTs := 0, srAt := 0, rtt := 0, bye := false, reports := [] }

/-- The transmit side before an enable. -/
def TxSt.init : TxSt :=
  { ssrc := 0, roff := 0, seq := 0, lastTs := 0, marker := true, pkts := 0, octets := 0, sent := false, repAt := 0, ident := 0,
    event := none, evq := [], lostFrames := none }

/-- A TONE node before its first sample. -/
def ToneSt.init : ToneSt := { det := [], gen := none, on := [], excl := 0, held := [], gone := [], turn := none, cpt := [], tel := [] }

/-- The canceller of a new leg `l`, whose weights clear at its first call; its noise generator is seeded from the leg id (R296, R299). -/
def EchoSt.init (l : Nat) : EchoSt :=
  { weights := [], hist := [], endAt := none, refill := 0, conv := false, dt := false, nlp := false, bypass := false,
    nlpOff := false, held := false, unset := false, align := false, dtCnt := 0, clears := 0, owed := 0, subs := [], hang := 0, quiet := 0, goodMs := 0,
    badMs := 0, divMs := 0, pendByp := false, pendNlp := false, noise := BitVec.ofNat 32 l, bg := none, bands := []
    gain := ⟨2 ^ 27, 2 ^ 27, 0⟩, fresh := true }

/-- A clear (R299): weights and history, CONVERGED and the estimators; the next call's engine counts it. -/
def EchoSt.clear (e : EchoSt) : EchoSt :=
  { e with weights := [], hist := [], conv := false, subs := [], goodMs := 0, badMs := 0, divMs := 0, bg := none, bands := []
           clears := e.clears + 1, owed := e.owed + 1, fresh := false }

/-- Media state of a leg before its creation. -/
def Media.init : Media :=
  { chains := [], echo := none, tones := [], dec := [], enc := [], plc := [], lossMs := 0, conc := false, sid := false, mixSat := 0 }

/-- A leg that is OFF. -/
def Leg.init : Leg :=
  { st := .off, pendEn := false, held := [], cfg := LegCfg.init, f := 20, phi := 0, cluster := 0, cost := ⟨0, 0, 0⟩, slots := 0,
    full := false, admitted := false, created := false, startSwn := 0, ply := Ply.init, rx := RxSt.init, tx := TxSt.init,
    med := Media.init, exp := none, expSwn := 0, fb := [], conf := none, confAt := 0, leash := [], stats := [], statsC := [], chgs := [] }

/-- The leg of an id. -/
def State.leg (s : State) (l : Nat) : Leg := kgetD s.legs l Leg.init

/-- Replace a leg. -/
def State.setLeg (s : State) (l : Nat) (x : Leg) : State := { s with legs := kset s.legs l x }

/-- Replace the kennel. -/
def State.setKnl (s : State) (x : Knl) : State := { s with knl := x }

/-- The template of an id. -/
def State.tmpl (s : State) (i : Nat) : Template := kgetD s.tmpls i ⟨20, true, none, none, [], []⟩

/-- The template that a leg runs. -/
def State.legTmpl (s : State) (l : Nat) : Template := s.tmpl (s.leg l).cfg.tmpl

/-- The set of an id. -/
def State.set (s : State) (i : Nat) : CoefSet := kgetD s.sets i ⟨[], [], []⟩

/-- Add to a statistic of a leg. -/
def Leg.stat (x : Leg) (k : Nat) : Leg := { x with stats := kset x.stats k ((kgetD x.stats k 0 + 1) % 2 ^ 32) }

/-- A leg reference (R337). -/
def legOf (b : Bytes) : Nat := num b 0 4 % 2 ^ 17

/-- The period of a packet time in swaths (R49). -/
def State.period (s : State) (f : Nat) : Nat := f * 1000000 / s.lenNs

/-- The placement entry of the swath that begins at an instant (R50). -/
def State.entryAt (s : State) (b : Inst) : Nat := s.quot b % s.horizon

/-- Whether a leg is placed in the swath that begins at an instant (R50). -/
def State.placed (s : State) (x : Leg) (b : Inst) : Bool := s.entryAt b % s.period x.f == x.phi

/-- The swath number of the swath that begins at an instant (R33). -/
def State.swnAt (s : State) (b : Inst) : Nat := s.quot b % 2 ^ 32

/-- The cost of a leg as charged. -/
def Leg.charged (x : Leg) : Cost := ⟨x.cost.cyc, x.cost.st, x.cost.eu, x.slots, x.full⟩

/-- Charge a leg with a cost: the difference goes to the budgets at its offset (R53). -/
def State.charge (s : State) (l : Nat) (c : Cost) : State :=
  let x := s.leg l
  let p := s.period x.f
  let t := if x.admitted then s.unplace x.charged p x.phi else s
  ((t.place c p x.phi).setLeg l { x with cost := ⟨c.cyc, c.kib, c.eu⟩, slots := c.slots, full := c.full, admitted := true }).updOver

/-- Give back what a leg is charged (R57). -/
def State.discharge (s : State) (l : Nat) : State :=
  let x := s.leg l
  if x.admitted then
    ((s.unplace x.charged (s.period x.f) x.phi).setLeg l { x with admitted := false, cost := ⟨0, 0, 0⟩, slots := 0, full := false }).updOver
  else s

/-- Whether a cost fits in place of what the leg is charged, at the leg's own offset (R52). -/
def State.admitChange (s : State) (l : Nat) (c : Cost) : Option Nat :=
  let x := s.leg l
  let p := s.period x.f
  match (s.unplace x.charged p x.phi).admission c p (some x.phi) with
  | .inl m => some m
  | .inr _ => none

/-! ### Chains and slots (R244, R245, R258) -/

/-- The state of filter chain engine `e`. -/
def State.fceSt (s : State) (e : Nat) : FnState := FnState.ofCode (s.fld (R.FCE_STAT_STATE e))

/-- The chain slots in use: engine and slot of every chain. -/
def State.chainSlots (s : State) : List (Nat × Nat) :=
  s.legs.flatMap fun p => p.2.med.chains.map fun c => (c.2.eng, c.2.slot)

/-- The slots in use at an engine (R282). -/
def State.slotsUsed (s : State) (e : Nat) : Nat := (s.chainSlots.filter fun p => p.1 == e).length

/-- The engine of a list with the fewest used slots, the first of them on a tie. -/
def State.fewestSlots (s : State) (l : List Nat) : Option Nat :=
  (l.filter fun e => s.slotsUsed e < 8192).foldl (fun (b : Option Nat) e => match b with
    | none => some e
    | some a => if s.slotsUsed e < s.slotsUsed a then some e else some a) none

/-- The home of a new chain: the engine in ON with the fewest used slots, and its lowest free slot (R245). The command found a slot when it was
accepted; where the engine that had it has left ON by the boundary, the chain is homed at one that is not FAILED, and where all are FAILED it
waits for its home until its first call (R246; DESIGN CHOICE, log entry 79). -/
def State.newSlot (s : State) : Option (Nat × Nat) :=
  let at_ (p : FnState → Bool) := s.fewestSlots ((List.range 16).filter fun e => p (s.fceSt e))
  ((at_ (· == .on)).orElse fun _ => at_ (· != .failed)).map fun e =>
    let taken := (s.chainSlots.filter fun p => p.1 == e).map (·.2)
    (e, ((List.range 8192).find? fun i => !taken.contains i).getD 0)

/-- The number of FILTER nodes of a template. -/
def Template.filters (t : Template) : List Nat := (List.range t.nodes.length).filter fun i => (t.node i).ty == 3

/-- The templates that a leg is to run from here on: its own, and those of the graph changes armed for it. -/
def State.tmplsOf (s : State) (l : Nat) : List Template :=
  s.legTmpl l :: (s.armed.filter fun a => a.op == 0x0303 && a.leg == l).map fun a => s.tmpl (num a.payload 4 2)

/-- The slots that a leg needs beyond those it holds, to run the templates of a list in turn (R245): a chain that stays, and one at an engine in
ON that goes, leave theirs to it. A leg that is created anew keeps only the latter. -/
def State.slotsBeyond (s : State) (l : Nat) (ts : List Template) : Nat :=
  let x := s.leg l
  maxL (ts.map fun t =>
    let kept := x.med.chains.filter fun c => decide (s.fceSt c.2.eng = .on) || (!x.pendEn && t.filters.contains c.1)
    t.filters.length - kept.length)

/-- The slots that enables, graph changes and migrations accepted before for legs other than `l`, and not yet in effect, will take (R245, R452). -/
def State.slotsOwed (s : State) (l : Nat) : Nat :=
  let ids := (s.legs.filter fun p => p.2.st != .off).map (·.1) ++ (s.tnd.ins.map (·.leg)).filter fun i => decide ((s.leg i).st = .off)
  sumL ((ids.filter (· != l)).map fun i => s.slotsBeyond i (s.tmplsOf i))

/-- Whether engines in ON have the slots that a leg needs to run a list of templates (R245). -/
def State.slotsFor (s : State) (l : Nat) (ts : List Template) : Bool :=
  let n := s.slotsBeyond l ts
  decide (n = 0) ||
    decide (n + s.slotsOwed l ≤ sumL (((List.range 16).filter fun e => s.fceSt e = .on).map fun e => 8192 - s.slotsUsed e))

/-- The chain that a FILTER node creates (R258, R318); its reset comes at its first call (R272). -/
def State.newChain (s : State) (t : Template) (i : Nat) (home : Nat × Nat) : Chain :=
  let n := t.node i
  let set := s.set n.setId
  { eng := home.1, slot := home.2, fIn := rateHz (t.refRate n.in0), layout := set.stages, fadeOk := n.fade, maxD := n.maxD,
    bankA := some n.setId, bankB := none, live := false, en := n.en0, d := n.initD, phi := n.initPhi, swap := none,
    late := false, defer := false, lateness := 0, path := [], old := [], fadeX := 0, fadeJ := 0, line := [], recd := 0,
    suppr := 0, settle := 0, sats := List.replicate 9 0, lastAt := none, fresh := true, owed := true }

/-- The sets bound to a chain's banks. -/
def State.banks (s : State) (c : Chain) : Banks :=
  let f (b : Option Nat) := match b with | some i => s.set i | none => ⟨c.layout, c.layout.map fun _ => [], []⟩
  ⟨f c.bankA, f c.bankB⟩

/-- Whether two layouts are the same in the terms of R258. -/
def sameLayout (a b : List Stage) : Bool :=
  a.length == b.length && (a.zip b).all fun (x, y) => x.ty == y.ty && x.factor == y.factor && x.rom == y.rom && x.len == y.len

/-- Whether a graph change alters the layout or the input rate of a node's chain (R272). -/
def State.altersChain (s : State) (c : Chain) (t : Template) (i : Nat) : Bool :=
  !sameLayout c.layout (s.set (t.node i).setId).stages || c.fIn != rateHz (t.refRate (t.node i).in0)

/-- The chain of a FILTER node after a graph change (R258, R272, R273): slot, bindings, phase delay and pending swap stay. Under another layout
the live bank takes the set that the node names, and the other bank stays bound only to a set that matches; the phase delay stays within the
node's range (DESIGN CHOICE, log entry 79). -/
def State.graphChain (s : State) (c : Chain) (t : Template) (i : Nat) : Chain :=
  let n := t.node i
  let set := s.set n.setId
  let same := sameLayout c.layout set.stages
  let keep (b : Option Nat) : Option Nat := b.filter fun k => (s.set k).fits set.stages (some set)
  let fit (live : Bool) (b : Option Nat) : Option Nat := if same then b else if live then some n.setId else keep b
  { c with
    maxD := n.maxD, fadeOk := n.fade, d := min c.d n.maxD, fIn := rateHz (t.refRate n.in0)
    layout := if same then c.layout else set.stages, bankA := fit (!c.live) c.bankA, bankB := fit c.live c.bankB }

/-- Give a leg the chains of a template (R245, R272): a chain whose node stays is kept, another is made anew, and one without a node goes. -/
def State.fitChains (s : State) (l : Nat) (t : Template) : State :=
  let x := s.leg l
  let s0 := s.setLeg l { x with med := { x.med with chains := x.med.chains.filter fun c => t.filters.contains c.1 } }
  t.filters.foldl (fun st i =>
    let y := st.leg l
    let put (c : Chain) : State := st.setLeg l { y with med := { y.med with chains := kset y.med.chains i c } }
    match kget y.med.chains i with
    | some c => put (st.graphChain c t i)
    | none => match st.newSlot with
      | some h => put (st.newChain t i h)
      | none => st) s0

/-- Change a chain of a leg in its committed state and in the working copy of a task that runs. -/
def State.updChain (s : State) (l i : Nat) (f : Chain → Chain) : State :=
  let g (m : Media) : Media := match kget m.chains i with
    | some c => { m with chains := kset m.chains i (f c) }
    | none => m
  let x := s.leg l
  let s1 := s.setLeg l { x with med := g x.med }
  let h (k : Task) : Task := if k.leg = some l then { k with work := k.work.map fun w => { w with med := g w.med } } else k
  s1.setKnl { s1.knl with tasks := s1.knl.tasks.map fun p => (p.1, h p.2) }

/-- The units of 64 bytes in one half of the swath log (R408). -/
def logUnits : Nat := 49152

/-- Raise the highest-use field to a value. -/
def State.peakTo (s : State) (f : Fld) (v : Nat) : State := if s.fld f < v then s.setFld f v else s

/-- A coefficient swap armed in a swath joins the log record of a leg's task (R247, R409) in a unit of its own (log entry 32), or the leg goes
unlogged (R410). -/
def State.logSwap (s : State) (l : Nat) : State :=
  match s.knl.tasks.find? fun p => p.2.leg == some l && decide (p.2.kind ≤ 1) && p.2.logOff.isSome && p.2.st != .done && p.2.st != .cancelled with
  | none => s
  | some (i, t) =>
    if s.frp.logU + 1 ≤ logUnits then
      (({ s with frp := { s.frp with logU := s.frp.logU + 1 } } : State)).peakTo R.FRP_LOG_PEAK (cdiv (s.frp.logU + 1) 16)
    else ((s.setKnl { s.knl with tasks := kset s.knl.tasks i { t with logOff := none } }).bump R.FRP_LOG_FULL_CNT).raise R.FRP_EVT 8

/-- Synchronising reset of a chain at a boundary (R272, R273). -/
def State.resetChain (s : State) (l i : Nat) : State :=
  match kget (s.leg l).med.chains i with
  | some c => (s.updChain l i fun c => c.reset ((s.banks c).of c.live).stages).bump (R.FCE_RESET_CNT c.eng)
  | none => s

/-- A clear at a boundary (R299): one that comes before the first call of a new leg leaves that call's own clear to come. -/
def EchoSt.reset (e : EchoSt) : EchoSt := { e.clear with fresh := e.fresh }

/-- The weights of a leg's canceller clear at a boundary (R299). -/
def State.clearEcho (s : State) (l : Nat) : State :=
  let x := s.leg l
  s.setLeg l { x with med := { x.med with echo := x.med.echo.map EchoSt.reset } }

/-- Whether a FILTER node lies on a path into the ECHO node of a template (R316). -/
def Template.intoEcho (t : Template) (i : Nat) : Bool :=
  match t.echoNode with
  | none => false
  | some (_, e) =>
    let rec up : Nat → Nat → Bool
      | 0, _ => false
      | k + 1, r => r == i || (decide (r < t.nodes.length) && up k (t.node r).in0)
    up 25 e.in0 || up 25 e.in1

/-! ### Armed changes (R60-R62) -/

/-- Arm a change for its boundary. -/
def State.armCmd (s : State) (c : Ctx) (l : Nat) (T : Option Inst) (payload : Bytes) (plan : List Nat) : State × When :=
  let w := s.arm T
  ({ s with armed := s.armed ++ [⟨w, c.opcode, l, payload, plan, c.mbox, (s.sess c.mbox).gen, none⟩] }, w)

/-- The instant that orders armed changes: the boundary at which one takes effect, as far as it is known. -/
def State.dueAt (s : State) (w : When) : Inst := if s.nextB.isSome then s.effAt w else nextMul s.lenI w.t

/-- The changes armed for a leg that take effect up to the boundary of `w`, in the order of their effect (R62). -/
def State.armedUpTo (s : State) (l : Nat) (w : Option When) : List Armed :=
  let mine := s.armed.filter fun a => a.leg == l && w.all fun v => decide (s.dueAt a.w ≤ s.dueAt v)
  let ins (a : Armed) (m : List Armed) : List Armed := m.takeWhile (fun b => s.dueAt b.w ≤ s.dueAt a.w) ++ a :: m.dropWhile fun b => s.dueAt b.w ≤ s.dueAt a.w
  mine.foldl (fun m a => ins a m) []

/-- Template and tail of a leg after a change. -/
def graphAfter (r : Nat × Option Nat) (a : Nat × Bytes) : Nat × Option Nat :=
  if a.1 = 0x0303 then (num a.2 4 2, r.2) else if a.1 = 0x0309 then (r.1, some (num a.2 4 2)) else r

/-- The cost of a leg under a template and a tail. -/
def State.costOf (s : State) (r : Nat × Option Nat) : Cost := (s.tmpl r.1).cost s.sets r.2

/-- Template and tail of a leg after changes armed for it. -/
def State.graphOf (s : State) (l : Nat) (as : List Armed) : Nat × Option Nat :=
  as.foldl (fun r a => graphAfter r (a.op, a.payload)) ((s.leg l).cfg.tmpl, (s.leg l).cfg.echo.tail)

/-- The larger of two costs in each part. -/
def Cost.join (a b : Cost) : Cost := ⟨max a.cyc b.cyc, max a.kib b.kib, max a.eu b.eu, max a.slots b.slots, a.full || b.full⟩

/-- The largest of a leg's cost under a template and a tail and after each of the changes that follow. -/
def State.costUnder (s : State) (r : Nat × Option Nat) : List (Nat × Bytes) → Cost
  | [] => s.costOf r
  | a :: as => (s.costOf r).join (s.costUnder (graphAfter r a) as)

/-- What a leg is charged with: the largest of its cost now and after each change armed for it (R52; log entry 48). -/
def State.reserve (s : State) (l : Nat) : Cost :=
  s.costUnder (s.graphOf l []) ((s.armedUpTo l none).map fun a => (a.op, a.payload))

/-- Charge a leg with what it needs from now on. -/
def State.recharge (s : State) (l : Nat) : State := if (s.leg l).admitted then s.charge l (s.reserve l) else s

/-- The check of a change of a leg's graph or tail (R52): none where it leaves what the leg needs as it is, else a new admission at the leg's
offset. Changes armed for later boundaries are looked at too, since the change may alter what they cost. -/
def State.changeFits (s : State) (l : Nat) (w : When) (op : Nat) (b : Bytes) : Option Nat :=
  let all := s.armedUpTo l none
  let here := all.takeWhile fun a => decide (s.dueAt a.w ≤ s.dueAt w)
  let ops (as : List Armed) : List (Nat × Bytes) := as.map fun a => (a.op, a.payload)
  let c := s.costUnder (s.graphOf l []) (ops here ++ (op, b) :: ops (all.drop here.length))
  if c = s.reserve l then none else s.admitChange l c

/-- The changes armed for a leg under an opcode. -/
def State.armedFor (s : State) (op l : Nat) : List Armed := s.armed.filter fun a => a.op == op && a.leg == l

/-! ### Configuration from payloads (R213, R219, R289, R337; log entry 15) -/

/-- The key of a payload: sizes by suite (R202). -/
def keyOf (b : Bytes) : SKey :=
  let (k, n) := match u8 b 6 with | 0 => (0, 0) | 1 => (16, 14) | 2 => (16, 14) | 3 => (16, 12) | _ => (32, 12)
  { suite := u8 b 6, mki := sub b 8 (u8 b 7), key := sub b 12 k, salt := sub b 44 n,
    life := if num b 60 8 = 0 then 2 ^ 48 else min (num b 60 8) (2 ^ 48), used := 0, usedC := 0 }

/-- A key as the current one: suite 0 is none. -/
def SKey.asCur (k : SKey) : Option SKey := if k.suite = 0 then none else some k

/-- A transmit key becomes current at the boundary that its command names; one that a later command has put in its place goes on waiting for its own
(R203). -/
def SCtx.turn (c : SCtx) (p : Bytes) : SCtx :=
  { c with cur := (keyOf p).asCur, next := if c.next = some (keyOf p) then none else c.next }

/-- The egress template of a payload. -/
def egressOf (b : Bytes) : Egress :=
  let n := u8 b 5
  { port := u8 b 4, dst := num b 10 6, src := num b 16 6,
    tags := (if 1 ≤ n then [BitVec.ofNat 32 (num b 22 4)] else []) ++ (if 2 ≤ n then [BitVec.ofNat 32 (num b 26 4)] else []),
    ver := u8 b 6, ipSrc := num b 36 16, ipDst := num b 52 16, dscp := if u8 b 7 = 0xFF then 46 else u8 b 7,
    ttl := if u8 b 8 = 0 then 64 else u8 b 8, sport := num b 30 2, dport := num b 32 2 }

/-- The playout settings of a payload. -/
def plyOf (b : Bytes) : PlyCfg :=
  { fixed := u8 b 4 == 0, relay := u8 b 5 == 1, depth := num b 6 2, delayUs := num b 8 4, minUs := num b 12 4, maxUs := num b 16 4 }

/-- The echo settings of a payload. -/
def echoOf (b : Bytes) : EchoCfg :=
  { tail := some (num b 4 2), adapt := u8 b 6, mu := u8 b 7, dt2 := u8 b 8, nlp := u8 b 9, hang := num b 10 2, att := u8 b 12,
    cng := u8 b 13, cngMax := sgn 8 (u8 b 14), toneDis := u8 b 15 }

/-- The effect of a configuring command on the configuration (R336). -/
def cfgApply (op : Nat) (b : Bytes) (who : Option (Nat × Nat)) (x : LegCfg) : LegCfg :=
  match op with
  | 0x0306 => { x with egress := some (egressOf b) }
  | 0x0308 => { x with ply := plyOf b }
  | 0x0309 => { x with echo := echoOf b }
  | 0x030B => { x with bridge := if num b 4 4 = 0xFFFFFFFF then none else some (num b 4 4 % 2 ^ 17) }
  | 0x030C => { x with gains := kset x.gains (u8 b 4) (sgn 8 (u8 b 5)) }
  | 0x030D => { x with group := if u8 b 4 = 0xFF then none else some (u8 b 4) }
  | 0x030E => { x with detPass := u8 b 4 == 1, evtIn := u8 b 5, notify := if u8 b 6 = 1 then who else none }
  | 0x0311 => { x with mode := u8 b 4, flags := u8 b 5 }
  | 0x0312 => { x with rtcpS := num b 4 2, xr := u8 b 6 == 1 }
  | _ => x

/-! ### Effects at a boundary (R62, R336, R339) -/

/-- Whether another leg sends under an SSRC (R209). -/
def State.ssrcTaken (s : State) (l v : Nat) : Bool := s.legs.any fun p => p.1 != l && p.2.st != .off && p.2.tx.ssrc == v

/-- The first of the numbers from `v` on that no other leg sends under (fuel: one more than the legs). -/
def State.freeSsrc (s : State) (l : Nat) : Nat → Nat → Nat
  | 0, v => v
  | k + 1, v => if s.ssrcTaken l v then s.freeSsrc l k ((v + 1) % 2 ^ 32) else v

/-- A random SSRC, drawn again while another leg sends under it (R209). The free value stands for the outcome of all the draws, and is moved
past the numbers in use. -/
def State.drawSsrc (s : State) (l : Nat) : State × Nat := (s.drawn, s.freeSsrc l (s.legs.length + 1) (s.draw 32))

/-- The settings of R242 as the registers hold them. -/
def State.plyPar (s : State) : PlyPar :=
  ⟨s.fld R.PLY_ADP_WIN, s.fld R.PLY_ADP_MARGIN_US, s.fld R.PLY_SHRINK_SHRINK_MS, s.fld R.PLY_SHRINK_RESYNC_N, s.fld R.PLY_SKEW_LIM_PPM,
    s.fld R.PLY_SKEW_WIN_S⟩

/-! ### Fallback frames (R40, R321) -/

/-- The first `n` bytes of a sequence, zero-padded. -/
def fit (n : Nat) (b : Bytes) : Bytes := (b ++ zeros n).take n

/-- The codec that a template encodes, with its rate code. -/
def Template.txCodec (t : Template) : Option (Nat × Nat) := (t.nodes.find? (·.ty == 8)).map fun n => (u8 n.par 0, n.rate)

/-- Bytes of the low `n` bits of a number, padded with zero bits at the end. -/
def bitBytes (n v : Nat) : Bytes := be (cdiv n 8) (v * 2 ^ (8 * cdiv n 8 - n))

/-- `n` table-of-contents entries of width `w`, the last one without its F bit `f`. -/
def tocs (n w v f : Nat) : Nat := (List.range n).foldl (fun a i => a * 2 ^ w + v + (if i + 1 < n then f else 0)) 0

/-- The fallback frame of a codec (R321); a reset encoder's output and the Opus configuration are not stated (log entry 11). -/
def fallbackFrame (codec rate f mode flags : Nat) : Bytes :=
  match codec with
  | 1 => List.replicate (8 * f) 0xD5#8
  | 2 => List.replicate (8 * f) 0xFF#8
  | 3 => fit f (Config.stdBytes 333 [byteOf f])
  | 4 => fit (8 * f) (Config.stdBytes 334 [byteOf f])
  | 7 =>
    if tb flags 1 then be (f / 20) (tocs (f / 20) 8 (if 16 ≤ mode then 0x3F else 0x0F) 0x40)
    else Config.stdBytes 337 [byteOf f, byteOf mode, byteOf rate]
  | 8 => [byteOf (u8 (Config.stdBytes 338 [byteOf f, byteOf mode, byteOf rate]) 0 / 8 * 8)]
  | _ =>
    let n := f / 20
    if tb flags 1 then bitBytes (4 + 6 * n) (0xF * 2 ^ (6 * n) + tocs n 6 0x1F 0x20) else be 1 0xF0 ++ be n (tocs n 8 0x7C 0x80)

/-- The fallback frame of a leg, under the mode and flags in force as it is prepared (R40, R321). A CHAN_CODEC between two preparations leaves it
as it is (DEDUCED, log entry 82). -/
def Template.fallback (t : Template) (f mode flags : Nat) : Bytes :=
  match t.txCodec with
  | some (c, r) => fallbackFrame c r f mode flags
  | none => []

/-- Creation of a leg's state at its effective boundary (R40, R209, R224, R272, R299, R339); chains that the re-execution of the journal has made
stay (R422). -/
def State.createLeg (s : State) (l : Nat) : State :=
  let x0 := s.leg l
  let t := s.tmpl x0.cfg.tmpl
  let (s0, ssrc) := match x0.cfg.ssrcG with
    | some a => (s, a)
    | none => s.drawSsrc l
  let (s1, roff) := match x0.cfg.roffG with
    | some a => (s0, a)
    | none => (s0.drawn, s0.draw 32)
  let (s2, seq) := match x0.cfg.seqG with
    | some q => (s1, q)
    | none => (s1.drawn, s1.draw 16)
  let x := s2.leg l
  let m : Media := { Media.init with chains := if x.created then [] else x.med.chains, echo := t.echoNode.map fun _ => EchoSt.init l }
  let m' : Media := { m with tones := ((List.range t.nodes.length).filter fun i => (t.node i).ty == 5).map fun i => (i, ToneSt.init) }
  let tx : TxSt := { TxSt.init with ssrc := ssrc, roff := roff, seq := seq, repAt := s2.now + x.cfg.rtcpS * secI * (32768 + s2.draw 16) / 65536 }
  let y := { x with created := true, ply := { Ply.init with par := s2.plyPar }, rx := RxSt.init, tx := tx, med := m', exp := none
                    fb := t.fallback x.f x.cfg.mode x.cfg.flags }
  (s2.drawn.setLeg l y).fitChains l t

/-- What the payload of an enable sets for the leg's run (R338): SSRC, ROFF, sequence, payload types, codec, group. -/
def enableCfg (p : Bytes) (x : LegCfg) : LegCfg :=
  { x with
    ssrcG := if tb (u8 p 6) 0 then some (num p 12 4) else none
    roffG := if tb (u8 p 6) 1 then some (num p 16 4) else none
    seqG := if tb (u8 p 6) 2 then some (num p 20 2) else none
    pts := (u8 p 22, u8 p 23, u8 p 24)
    mode := u8 p 25
    flags := u8 p 26
    group := if u8 p 7 = 0xFF then none else some (u8 p 7) }

/-- A leg goes to STOPPING: buffered payloads are discarded (R234). -/
def State.stopLeg (s : State) (l : Nat) : State :=
  let x := s.leg l
  (s.setLeg l { x with st := .stopping, ply := Ply.init }).report (.leg l) x.st .stopping

/-- A leg goes from STOPPING to OFF, or at once to STARTING when an enable is held (R18, R339). -/
def State.legOff (s : State) (l : Nat) (b : Inst) : State :=
  let x := s.leg l
  if x.pendEn then
    let p := x.held
    let s1 := s.setLeg l { x with st := .starting, pendEn := false, held := [], cfg := enableCfg p x.cfg, leash := [], startSwn := s.swnAt b }
    (s1.report (.leg l) .stopping .starting).createLeg l
  else
    let s1 := s.discharge l
    let y := s1.leg l
    let s2 := (s1.setLeg l { Leg.init with cfg := { y.cfg with notify := y.cfg.notify } }).report (.leg l) .stopping .off
    match x.conf with
    | some c => match kget s2.confs c with
      | some q => { s2 with confs := kset s2.confs c { q with parts := kdel q.parts l } }
      | none => s2
    | none => s2

/-- A graph change at its boundary (R52, R272, R299). -/
def State.changeGraph (s : State) (l tid : Nat) : State :=
  let x := s.leg l
  let old := s.tmpl x.cfg.tmpl
  let t := s.tmpl tid
  let s1 := s.setLeg l { x with cfg := { x.cfg with tmpl := tid } }
  let s2 := (s1.recharge l).fitChains l t
  let altered := t.filters.filter fun i => match kget x.med.chains i with | some c => s.altersChain c t i | none => false
  let fresh := t.filters.filter fun i => !khas x.med.chains i || altered.contains i
  let s3 := altered.foldl (fun st i => st.resetChain l i) s2
  let echoSame := match old.echoNode, t.echoNode with
    | some (_, a), some (_, b) => a.rate == b.rate && (x.cfg.echo.tail.isSome || u8 a.par 0 == u8 b.par 0) &&
        a.in1 == b.in1 && !fresh.contains b.in1
    | _, _ => false
  let y := s3.leg l
  let e := match t.echoNode with
    | none => none
    | some _ =>
      some (match y.med.echo with | some z => if echoSame then z else z.reset | none => EchoSt.init l)
  let tones := ((List.range t.nodes.length).filter fun i => (t.node i).ty == 5).map fun i =>
    (i, kgetD y.med.tones i ToneSt.init)
  s3.setLeg l { y with fb := t.fallback y.f x.cfg.mode x.cfg.flags, med := { y.med with echo := e, tones := tones } }

/-- The tail of a leg's canceller in ms under a setting: the node's default where there is none (R289). -/
def State.tailMs (s : State) (l : Nat) (tail : Option Nat) : Nat :=
  match (s.legTmpl l).echoNode with | some (_, n) => tail.getD (8 * u8 n.par 0) | none => tail.getD 0

/-- Whether FILTER node `i` is the bulk-delay chain of a leg's canceller (R287). -/
def State.isBulk (s : State) (l i : Nat) : Bool :=
  match (s.legTmpl l).echoNode with | some (_, e) => e.in1 == i | none => false

/-- The effect of an armed change at its boundary (R62). The tandem's changes are added where they are defined. -/
def State.applyLeg (s : State) (a : Armed) (b : Inst) : State :=
  let l := a.leg
  let x := s.leg l
  let live := x.st != .off
  let p := a.payload
  match a.op with
  | 0x0301 => if x.st = .starting ∧ x.created = false then (s.setLeg l { x with startSwn := s.swnAt b }).createLeg l else s
  | 0x0302 =>
    match x.st with
    | .on => s.stopLeg l
    | .starting =>
      let s1 := ({ s with armed := s.armed.filter fun e => !(e.op == 0x0301 && e.leg == l) } : State).setLeg l { x with st := .on }
      (s1.report (.leg l) .starting .on).stopLeg l
    | _ => s
  | 0x0303 => if live then s.changeGraph l (num p 4 2) else s
  | 0x0307 => s.setLeg l { x with cfg := { x.cfg with tx := x.cfg.tx.turn p } }
  | 0x0309 =>
    let c := cfgApply 0x0309 p none x.cfg
    let s1 := s.setLeg l { x with cfg := c }
    if live then
      let s2 := s1.recharge l
      if s.tailMs l x.cfg.echo.tail = s.tailMs l c.echo.tail then s2 else s2.clearEcho l
    else s1
  | 0x030A => s.clearEcho l
  | 0x030F =>
    match kget x.med.tones (u8 p 4) with
    | some t => s.setLeg l { x with med := { x.med with tones := kset x.med.tones (u8 p 4) { t with gen := some (sub p 8 (8 * u8 p 5), u8 p 6, 0) } } }
    | none => s
  | 0x0310 =>
    match kget x.med.tones (u8 p 4) with
    | some t => s.setLeg l { x with med := { x.med with tones := kset x.med.tones (u8 p 4) { t with gen := none } } }
    | none => s
  | 0x0322 =>
    match kget s.confs (num p 4 2) with
    | some c =>
      let phi := if c.parts.isEmpty ∧ (s.tnd.cimps.all fun r => r.conf != num p 4 2) then some x.phi else c.phi
      if phi ≠ some x.phi then s else
      ({ s with confs := kset s.confs (num p 4 2) { c with phi := phi, parts := kset c.parts l (u8 p 6 == 0) } }).setLeg l
        { x with conf := some (num p 4 2), confAt := b }
    | none => s
  | 0x0323 =>
    match kget s.confs (num p 4 2) with
    | some c =>
      ({ s with confs := kset s.confs (num p 4 2) { c with parts := kdel c.parts l, sel := c.sel.filter (· != l * 4096 + s.dev) } }).setLeg l
        { x with conf := none }
    | none => s
  | 0x0403 => { s with cpts := kset s.cpts (u8 p 0) p }
  | 0x0503 =>
    let i := u8 p 0
    s.updChain l i fun c => if u8 p 4 = 0 then { c with bankA := some (num p 6 2) } else { c with bankB := some (num p 6 2) }
  | 0x0506 =>
    let i := u8 p 0
    let v := num p 4 4
    match kget x.med.chains i with
    | none => s
    | some c =>
      let (en, d, phi) := (tb v 31, bits v 17 6, bits v 5 0)
      let changed := c.en != en || c.d != d || c.phi != phi
      let s1 := s.updChain l i fun c => { c with en := en, d := d, phi := phi, suppr := max c.suppr (d + 7 - c.recd) }
      if changed ∧ s.isBulk l i then s1.clearEcho l else s1
  | 0x0507 => s.resetChain l (u8 p 0)
  | op => s.setLeg l { x with cfg := cfgApply op p (some (a.mbox, a.gen)) x.cfg }

/-- Carry out a configuring command: at once while the leg is OFF, else armed (R336). -/
def State.configure (s : State) (c : Ctx) (l : Nat) (T : Option Inst) (b : Bytes) : Done :=
  let x := s.leg l
  if x.st = .off then
    Done.ok (s.setLeg l { x with cfg := cfgApply c.opcode b (some (c.mbox, (s.sess c.mbox).gen)) x.cfg })
  else
    let (t, w) := s.armCmd c l T b []
    ⟨t, w.status, 0, [], false⟩

end Sys2Proof.Machine
end

