-- ==== Sys2Proof/Machine/Srtp.lean ====
section
/-! DEFINITION. SRTP and SRTCP contexts (R202-R206) and the RTP header. The ciphers and tags are those that the suites' names give (log entry 81);
the index and the replay rules are the spec's. -/

namespace Sys2Proof.Machine

open Sys2Proof

/-- The length of the SRTP tag of a suite (R202). -/
def tagLen (suite : Nat) : Nat := match suite with | 0 => 0 | 1 => 10 | 2 => 4 | _ => 16

/-- The length of the SRTCP tag of a suite (R202). -/
def tagLenC (suite : Nat) : Nat := match suite with | 0 => 0 | 1 => 10 | 2 => 10 | _ => 16

/-- Whether a suite is AEAD: its tag follows the ciphertext, before the MKI (RFC 7714). -/
def aead (suite : Nat) : Bool := decide (3 ≤ suite)

/-- The session keys that a master key and salt give for RTP or RTCP: cipher key, authentication key, salt (RFC 3711 Section 4.3). -/
def SKey.session (k : SKey) (rtcp : Bool) : Bytes × Bytes × Bytes :=
  let l := 3 * b2n rtcp
  (kdf k.key k.salt l k.key.length, kdf k.key k.salt (l + 1) 20, kdf k.key k.salt (l + 2) k.salt.length)

/-- The initial vector of the Galois suites for an SSRC and index, under the session salt (RFC 7714 Sections 8.1, 9.1). -/
def gcmIv (salt : Bytes) (ssrc idx : Nat) : Bytes := xorBytes (be 2 0 ++ be 4 ssrc ++ be 6 idx) salt

/-- Bytes combined with the keystream of a suite, key, salt, SSRC and index; the same operation both ways (R202). -/
def SKey.crypt (k : SKey) (rtcp : Bool) (ssrc idx : Nat) (b : Bytes) : Bytes :=
  let (ke, _, ks) := k.session rtcp
  if k.suite = 0 then b
  else if aead k.suite then gcmCrypt ke (gcmIv ks ssrc idx) b
  else xorBytes b (aesStream ke 16 ((num ks 0 14 * 2 ^ 16) ^^^ (ssrc * 2 ^ 64) ^^^ (idx * 2 ^ 16)) b.length)

/-- The tag of a suite under an index (R202): the Galois suites cover the additional data `aad` and the ciphertext `c`, the others `m`. -/
def SKey.tag (k : SKey) (rtcp : Bool) (ssrc idx : Nat) (aad c m : Bytes) : Bytes :=
  let (ke, ka, ks) := k.session rtcp
  if aead k.suite then gcmTag ke (gcmIv ks ssrc idx) aad c
  else (hmacSha1 ka m).take (if rtcp then tagLenC k.suite else tagLen k.suite)

/-- The tag of an RTP packet with a header of `hdr` bytes: the authentication of the counter suites covers the ROC after it. -/
def SKey.tagRtp (k : SKey) (hdr ssrc idx : Nat) (body : Bytes) : Bytes :=
  k.tag false ssrc idx (body.take hdr) (body.drop hdr) (body ++ be 4 (idx / 65536))

/-- The tag of an SRTCP compound with its E flag and index: a compound that is not encrypted is additional data as a whole. -/
def SKey.tagRtcp (k : SKey) (e : Bool) (idx : Nat) (body word : Bytes) : Bytes :=
  k.tag true (num body 4 4) idx (if e then body.take 8 ++ word else body ++ word) (if e then body.drop 8 else []) (body ++ word)

/-- The packet index of a sequence number under the highest index (R205, RFC 3711 Section 3.3.1): the ROC moves modulo 2^32. The first packet of a
context that resumes no index has ROC 0. -/
def estIndex (valid : Bool) (hi seq : Nat) : Nat :=
  let sl := hi % 65536
  let roc := hi / 65536
  let r := if valid = false ∧ hi = 0 then 0
    else if sl < 32768 then (if 32768 + sl < seq then (roc + 2 ^ 32 - 1) % 2 ^ 32 else roc)
    else if seq + 32768 < sl then (roc + 1) % 2 ^ 32 else roc
  r * 65536 + seq

/-- Whether an index is refused as a replay (R205). -/
def replayed (valid : Bool) (hi map idx : Nat) : Bool :=
  valid && decide (idx ≤ hi) && (decide (128 ≤ hi - idx) || tb map (hi - idx))

/-- The highest index and the window after an index is accepted (R205). -/
def windowOn (valid : Bool) (hi map idx : Nat) : Nat × Nat :=
  if valid = false then (idx, 1)
  else if hi < idx then (idx, (map * 2 ^ (min 128 (idx - hi)) + 1) % 2 ^ 128)
  else (hi, if tb map (hi - idx) then map else map + 2 ^ (hi - idx))

/-- An RTP packet taken apart. -/
structure Rtp where
  hdr : Nat
  pad : Bool
  marker : Bool
  pt : Nat
  seq : Nat
  ts : Nat
  ssrc : Nat
  deriving DecidableEq, Repr

/-- The header of an RTP packet; none when it does not fit (R200). -/
def parseRtp (b : Bytes) : Option Rtp :=
  let cc := u8 b 0 % 16
  let x := tb (u8 b 0) 4
  let h0 := 12 + 4 * cc
  let h := if x then h0 + 4 + 4 * num b (h0 + 2) 2 else h0
  if b.length < 12 ∨ u8 b 0 / 64 ≠ 2 ∨ b.length < h0 ∨ (x ∧ b.length < h0 + 4) ∨ b.length < h then none
  else some ⟨h, tb (u8 b 0) 5, tb (u8 b 1) 7, u8 b 1 % 128, num b 2 2, num b 4 4, num b 8 4⟩

/-- What a received packet shows under one key: whether its MKI names the key, whether its tag holds, header and clear
payload. -/
structure Opened where
  mki : Bool
  auth : Bool
  clear : Bytes
  deriving DecidableEq, Repr

/-- Open an RTP packet under a key and index. -/
def SKey.openRtp (k : SKey) (h : Rtp) (idx : Nat) (b : Bytes) : Opened :=
  let t := tagLen k.suite
  let m := k.mki.length
  let n := b.length - t - m
  let body := b.take n
  let tag := if aead k.suite then sub b n t else b.drop (n + m)
  let mk := if aead k.suite then b.drop (n + t) else sub b n m
  ⟨mk == k.mki, tag == k.tagRtp h.hdr h.ssrc idx body, k.crypt false h.ssrc idx (body.drop h.hdr)⟩

/-- Protect an RTP packet under a key and index. -/
def SKey.sealRtp (k : SKey) (hdr ssrc idx : Nat) (b : Bytes) : Bytes :=
  let body := b.take hdr ++ k.crypt false ssrc idx (b.drop hdr)
  let t := k.tagRtp hdr ssrc idx body
  if aead k.suite then body ++ t ++ k.mki else body ++ k.mki ++ t

/-- The trailer of an SRTCP packet: the E flag and index, and where the compound ends. -/
def SKey.rtcpTrailer (k : SKey) (b : Bytes) : Nat × Nat :=
  let n := b.length - (4 + k.mki.length + tagLenC k.suite)
  let at_ := if aead k.suite then n + tagLenC k.suite else n
  (n, num b at_ 4)

/-- Open an SRTCP compound: the index, and what it shows. -/
def SKey.openRtcp (k : SKey) (b : Bytes) : Nat × Opened :=
  let (n, w) := k.rtcpTrailer b
  let t := tagLenC k.suite
  let m := k.mki.length
  let e := tb w 31
  let idx := w % 2 ^ 31
  let body := b.take n
  let tag := if aead k.suite then sub b n t else b.drop (n + 4 + m)
  let mk := if aead k.suite then b.drop (n + t + 4) else sub b (n + 4) m
  if k.suite = 0 then (0, ⟨k.mki.isEmpty, true, b⟩)
  else (idx, ⟨mk == k.mki, tag == k.tagRtcp e idx body (be 4 w), body.take 8 ++ (if e then k.crypt true (num b 4 4) idx (body.drop 8) else body.drop 8)⟩)

/-- Protect an SRTCP compound with the E flag of the leg. -/
def SKey.sealRtcp (k : SKey) (e : Bool) (idx : Nat) (b : Bytes) : Bytes :=
  let body := b.take 8 ++ (if e then k.crypt true (num b 4 4) (idx % 2 ^ 31) (b.drop 8) else b.drop 8)
  let w := be 4 (b2n e * 2 ^ 31 + idx % 2 ^ 31)
  let t := k.tagRtcp e (idx % 2 ^ 31) body w
  if aead k.suite then body ++ t ++ w ++ k.mki else body ++ w ++ k.mki ++ t

/-- Whether a key has no RTP packet left (R203). -/
def SKey.spent (k : SKey) : Bool := decide (k.life ≤ k.used)

/-- Whether a key has no RTCP packet left (R203). -/
def SKey.spentC (k : SKey) : Bool := decide (min k.life (2 ^ 31) ≤ k.usedC)

/-- The keys that may open a packet, the current one first (R203). -/
def SCtx.keys (c : SCtx) : List (Bool × SKey) :=
  (match c.cur with | some k => [(false, k)] | none => []) ++ (match c.next with | some k => [(true, k)] | none => [])

/-- Whether a context protects: a context without keys is suite 0. -/
def SCtx.protects (c : SCtx) : Bool := c.cur.isSome || c.next.isSome

/-- The key with which a packet opens (R203): the one that its MKI names, or without MKI the current key, and the next key
when that one fails and the next holds. Where the current suite is 0 a packet that the next key does not authenticate stays one of suite 0: none
(DESIGN CHOICE, log entry 97). -/
def SCtx.choose (c : SCtx) (op : SKey → Opened) : Option (Bool × SKey) :=
  let named := c.keys.filter fun p => (op p.2).mki && !p.2.mki.isEmpty
  let plain := c.keys.filter fun p => p.2.mki.isEmpty
  match named.head? with
  | some p => some p
  | none => match plain.find? fun p => (op p.2).auth with
    | some p => some p
    | none => if c.cur.isNone then none else match plain.head? with | some p => some p | none => c.keys.head?

/-- A packet was accepted under a key: without MKI the next key becomes current at its first packet; with one the MKI alone selects, and both keys
stay as they are (R203). The count of the key. -/
def SCtx.useKey (c : SCtx) (next : Bool) (rtcp : Bool) : SCtx :=
  let up (k : SKey) : SKey := if rtcp then { k with usedC := k.usedC + 1 } else { k with used := k.used + 1 }
  match next, c.next with
  | true, some k => if k.mki.isEmpty then { c with cur := (up k).asCur, next := none } else { c with next := some (up k) }
  | _, _ => { c with cur := c.cur.map up }

/-- The recorded value of an index: the next multiple of 2^16 (R206). -/
def recordedAt (hi : Nat) : Nat := (hi / 65536 + 1) * 65536

/-- Record in PRS the indices of a leg when one crosses a multiple of 2^16 (R206). -/
def State.recordSrtp (s : State) (l : Nat) : State :=
  let c := (s.leg l).cfg
  if c.rx.protects ∨ c.tx.protects then
    let v := (recordedAt c.rx.hi, recordedAt c.tx.hi, recordedAt c.rx.hiC, recordedAt (c.tx.hiC - 1))
    if kget s.nv.srtp l = some v then s else s.setNv { s.nv with srtp := kset s.nv.srtp l v }
  else s

/-- The indices of a leg resumed from their record in PRS (R206). -/
def State.resumeSrtp (s : State) (l : Nat) : State :=
  match kget s.nv.srtp l with
  | some (r, t, rc, tc) =>
    let x := s.leg l
    s.setLeg l { x with cfg := { x.cfg with rx := { x.cfg.rx with hi := r, hiC := rc }, tx := { x.cfg.tx with hi := t, hiC := tc } } }
  | none => s

end Sys2Proof.Machine
end

