-- ==== Sys2Proof/Machine/Echo.lean ====
section
/-! DEFINITION. Samples and blocks, and the canceller of an ECHO node (R284-R301, R306). What its adaptive filter estimates and how its weights move
is named by the spec and not laid out: opaque functions of the data that R284 lets them use (log entry 11); when they adapt, what is subtracted, the
non-linear processor, its noise's level, the clears and the figures are the spec's (log entry 84). -/

namespace Sys2Proof.Machine

open Sys2Proof

/-! ### Samples -/

/-- Exactly `n` samples, clamped to 40 bits. -/
def fitS (n : Nat) (l : List Int) : List Int := ((l ++ List.replicate n 0).take n).map fun x => clampI x (-(2 ^ 39)) (2 ^ 39 - 1)

/-- Bytes as numbers. -/
def bytesI (b : Bytes) : List Int := b.map fun x => (x.toNat : Int)

/-- Samples per frame at a rate. -/
def perFrame (rate f : Nat) : Nat := rateHz rate * f / 1000

/-- A block of zeros. -/
def zeroBlock (at_ : Inst) (rate n : Nat) (silent : Bool) : Block := ⟨at_, rate, List.replicate n 0, 0, false, silent, false, []⟩

/-- The index of the first sample of a block at or after an instant, by the instants of R75 (R76). -/
def Block.indexOf (x : Block) (t : Inst) : Nat := if t ≤ x.at_ then 0 else (t - x.at_ - 1) * rateHz x.rate / secI + 1

/-- The instant of sample `k` of a block (R268). -/
def Block.inst (x : Block) (k : Nat) : Inst := x.at_ + instOf (rateHz x.rate) k

/-! ### Levels -/

/-- The greatest number below `2 ^ n` above `r` that a falling condition allows, found from its highest bit down. -/
def greatest (p : Nat → Bool) : Nat → Nat → Nat
  | 0, r => r
  | n + 1, r => if p (r + 2 ^ n) then greatest p n (r + 2 ^ n) else greatest p n r

/-- 0 dBm0 as a mean square in 2^-136, where a sine of peak 1.0 is +3.14 dBm0 (R289): 10^(-0.314) / 2. -/
def lev0 : Nat := 21137295292758883646293670115342433352696

/-- -45 dBm0. -/
def lev45 : Nat := 668419967006736611828719125925317072

/-- -36 dBm0. -/
def lev36 : Nat := 5309448524469235766915407075506155358

/-- The sum of squares of samples. -/
def energy (xs : List Int) : Nat := xs.foldl (fun a v => a + v.natAbs * v.natAbs) 0

/-- The peak magnitude of samples. -/
def peakOf (xs : List Int) : Nat := xs.foldl (fun a v => max a v.natAbs) 0

/-- Whether the mean power of samples, over a span of `n` of which those not listed are zeros, is above a level (R289). -/
def powerAbove (c n : Nat) (xs : List Int) : Bool := decide (n * c < energy xs * 2 ^ 64)

/-- The ratio of two powers in 1/16 dB, rounded down (log entry 84). -/
def dB16 (a b : Nat) : Int := (greatest (fun r => decide (b ^ 160 * 10 ^ r ≤ a ^ 160 * 10 ^ 8192)) 14 0 : Nat) - 8192

/-! ### The non-linear processor and comfort noise (R295, R296) -/

/-- The gain now, over sub-blocks of `n` samples. -/
def Ramp.gain (g : Ramp) (n : Nat) : Nat := (g.src * (n - g.pos) + g.dst * min n g.pos) / n

/-- The gain one sample on, towards a goal: at each change of the goal it sets out from where it is (R295). -/
def Ramp.next (g : Ramp) (n goal : Nat) : Ramp := if goal = g.dst then { g with pos := min n (g.pos + 1) } else ⟨g.gain n, goal, 1⟩

/-- The level of the noise, as the root of its mean square, that keeps the background's level at a gain and stays within CNG_MAX (R295, R296). -/
def noiseTop (c : EchoCfg) (bg : Option Nat) (gain : Nat) : Nat :=
  let p := bg.getD 0 * (2 ^ 54 - gain * gain)
  greatest (fun a => decide (a * a * 2 ^ 118 ≤ p ∧ (a * a * 2 ^ 64) ^ 10 * 10 ^ (-c.cngMax).toNat ≤ lev0 ^ 10)) 39 0

/-- The raw noise of `n` samples from a state of the generator on: what the generator gives is not stated (log entry 84), its magnitude at most 2^30
here. -/
def rawNoise (bands : List Int) : Nat → BitVec 32 → List Int
  | 0, _ => []
  | k + 1, r => clampI (Config.stdNum 574 [(r.toNat : Int)] bands) (-(2 ^ 30)) (2 ^ 30) ::
      rawNoise bands k (BitVec.ofInt 32 (Config.stdNum 575 [(r.toNat : Int)] []))

/-- The noise of a sub-block at mean power 1, in 2^-30: raw noise over its own root mean square (R295). Noise that is all zeros has no level, and a
square wave stands in its place. -/
def unitNoise (bands : List Int) (n : Nat) (r : BitVec 32) : List Int :=
  let raw := rawNoise bands n r
  let rms := greatest (fun a => decide (a * a * n ≤ energy raw * 2 ^ 60)) 62 0
  if rms = 0 then (List.range n).map fun i => if i % 2 = 0 then 2 ^ 30 else -(2 ^ 30)
  else raw.map fun v => v * 2 ^ 60 / rms

/-- The background estimate after a sub-block of Sin: it rises by at most 6 dB per second and falls at once (R296; log entry 84). -/
def backLevel (bg : Option Nat) (sin : List Int) : Nat :=
  let p := energy sin * 2 ^ 64 / max 1 sin.length
  match bg with
  | none => p
  | some g => min p (max g (2 ^ 63) * 10013825 / 10000000)

/-! ### A sub-block (R290, R292, R293, R295-R298) -/

/-- Double talk: the peak of Sin exceeds the peak of Rin over the tail, reduced by DT_DB (R292). -/
def doubleTalk (dt2 : Nat) (sin rin : List Int) : Bool := decide (peakOf rin ^ 40 < peakOf sin ^ 40 * 10 ^ dt2)

/-- What a call works under: settings, tail in samples, samples per ms over 8, whether the blocks hold adaptation, and how many leading samples of
Sout are zero (R290). -/
structure EchoPar where
  cfg : EchoCfg
  tail : Nat
  w : Nat
  hold : Bool
  u : Nat

/-- The last `tail` samples of the reference. -/
def EchoPar.recent (p : EchoPar) (h : List Int) : List Int := h.drop (h.length - p.tail)

/-- Whether the NLP acts on what is known so far of a sub-block: far-end single talk (R295). -/
def EchoPar.acts (p : EchoPar) (e : EchoSt) (hist sin : List Int) : Bool :=
  powerAbove lev45 p.tail hist && !doubleTalk p.cfg.dt2 sin hist && e.hang == 0 && p.cfg.nlp != 0 && !e.nlpOff

/-- The gain that the NLP goes to (R295). -/
def EchoPar.goal (p : EchoPar) (acts : Bool) : Nat :=
  if acts = false then 2 ^ 27 else if p.cfg.nlp = 1 then 0 else gainFactor (-2 * (p.cfg.att : Int))

/-- The samples of a sub-block so far: gain, noise register and noise samples used, output before the NLP, output, samples clamped. -/
structure EchoSamp where
  gain : Ramp
  noise : BitVec 32
  used : Nat
  pre : List Int
  out : List Int
  sat : Nat

/-- Sample `k` of a sub-block, from Sin and Rin up to it (R284): the echo estimate is subtracted (R290), the NLP's gain applied, the result
rounded and clamped, comfort noise added and the sum clamped (R298). In bypass Sout is Sin (R297). -/
def EchoSt.sample (e : EchoSt) (p : EchoPar) (unit rin sin : List Int) (a : EchoSamp) (k : Nat) : EchoSamp :=
  let x := sin.getD k 0
  if e.bypass then { a with gain := ⟨2 ^ 27, 2 ^ 27, 0⟩, pre := a.pre ++ [x], out := a.out ++ [x] }
  else
    let hist := p.recent (e.hist ++ rin.take (k + 1))
    let sins := sin.take (k + 1)
    let y := x - Config.stdNum 571 [(p.tail : Int), (p.w : Int)] (e.weights ++ hist ++ sins)
    let n := 8 * p.w
    let gain := a.gain.next n (p.goal (p.acts e hist sins))
    let g := gain.gain n
    let top : Int := if p.cfg.cng = 0 then 0 else noiseTop p.cfg e.bg g
    let v := shiftClamp (y * g) 27
    let z := shiftClamp (v.1 + top * unit.getD a.used 0 / 2 ^ 30) 0
    let noise := if top = 0 then a.noise else BitVec.ofInt 32 (Config.stdNum 575 [(a.noise.toNat : Int)] [])
    { gain := gain, noise := noise, used := a.used + b2n (top != 0), pre := a.pre ++ [y], out := a.out ++ [z.1], sat := a.sat + b2n (v.2 || z.2) }

/-- The timers of R293 after a sub-block: CONVERGED set or cleared, and divergence. -/
def EchoSt.judge (e : EchoSt) (held : Bool) : EchoSt × Bool :=
  let ok := e.subs.filter (·.ok)
  let si : Nat := sumL (ok.map (·.sin))
  let so : Nat := sumL (ok.map (·.pre))
  let est := !ok.isEmpty && decide (0 < si + so)
  let good := if est && decide (100 * so ≤ si) then e.goodMs + 1 else 0
  let bad := if est && decide (si < 10 * so) then e.badMs + 1 else 0
  let div := if est && !held && decide ((si ^ 10 * 1000 : Nat) < (so ^ 10 : Nat)) then e.divMs + 1 else 0
  let conv := if 250 ≤ good then true else if 250 ≤ bad then false else e.conv
  ({ e with goodMs := min 250 good, badMs := min 250 bad, divMs := div, conv := conv }, decide (500 ≤ div))

/-- A canceller call in progress: state, samples out so far, and the counts that it adds. -/
structure EchoRun where
  e : EchoSt
  out : List Int
  sat : Nat
  dtN : Nat
  divN : Nat
  held : Bool

/-- One sub-block of 1 ms (R290, R292, R293, R295-R298). -/
def EchoRun.sub (p : EchoPar) (r : EchoRun) (rin sin : List Int) : EchoRun :=
  let e := r.e
  let hist := p.recent (e.hist ++ rin)
  let dtNow := doubleTalk p.cfg.dt2 sin hist
  let hang := if dtNow then p.cfg.hang else e.hang - 1
  let held := p.hold || p.cfg.adapt == 0 || dtNow || decide (0 < e.hang) || decide (0 < e.refill) || e.bypass
  let far := powerAbove lev45 p.tail hist
  let unit := unitNoise (if p.cfg.cng = 2 then e.bands else []) sin.length e.noise
  let a := (List.range sin.length).foldl (e.sample p unit rin sin) ⟨e.gain, e.noise, 0, [], [], 0⟩
  let out := a.out.zipIdx.map fun (x, i) => if r.out.length + i < p.u then 0 else x
  let sub : EchoSub := ⟨energy rin, energy sin, energy a.pre, energy out, far && !dtNow, far && !dtNow && e.hang == 0⟩
  let subs := e.subs ++ [sub]
  let quiet := if powerAbove lev36 rin.length rin ∨ powerAbove lev36 sin.length sin then 0 else e.quiet + 1
  let back := decide (250 ≤ quiet)
  let par : List Int := [(p.tail : Int), (p.w : Int), (p.cfg.mu : Int)]
  let still := !far && !dtNow
  let e1 := { e with
    weights := if held then e.weights else fitS p.tail (Config.stdSamples 572 par (e.weights ++ hist ++ sin))
    hist := hist
    refill := e.refill - rin.length
    dt := dtNow
    hang := hang
    nlp := p.acts e hist sin && !e.bypass
    subs := subs.drop (subs.length - 250)
    quiet := quiet
    bypass := e.bypass && !back
    nlpOff := e.nlpOff && !back
    dtCnt := if dtNow ∧ e.hang = 0 ∧ e.dt = false then e.dtCnt + 1 else e.dtCnt
    gain := a.gain
    noise := a.noise
    bg := if still then some (backLevel e.bg sin) else e.bg
    bands := if still then fitS 16 (Config.stdSamples 577 [(p.w : Int)] (e.bands ++ sin)) else e.bands }
  let (e2, div) := e1.judge held
  { e := if div then e2.clear else e2, out := r.out ++ out, sat := r.sat + a.sat, dtN := r.dtN + (e1.dtCnt - e.dtCnt),
    divN := r.divN + b2n div, held := r.held || held }

/-- The sub-blocks of a call. -/
def EchoRun.subs (p : EchoPar) : Nat → List Int → List Int → EchoRun → EchoRun
  | 0, _, _, r => r
  | k + 1, rin, sin, r =>
    if sin.isEmpty then r
    else EchoRun.subs p k (rin.drop (8 * p.w)) (sin.drop (8 * p.w)) (r.sub p (rin.take (8 * p.w)) (sin.take (8 * p.w)))

/-! ### A call (R284-R299) -/

/-- What one call of the canceller gives: state, Sout, and the events it counts; `resets` are the clears that its engine counts (R299). -/
structure EchoOut where
  e : EchoSt
  b : Block
  resets : Nat
  align : Bool
  gap : Bool
  byp : Bool
  sat : Nat
  dtN : Nat
  divN : Nat
  held : Bool

/-- What the tone disablers ask of a call under TONE_DIS: bypass, or the NLP off (R297). -/
def EchoSt.obey (e : EchoSt) (on : Bool) : EchoSt × Bool :=
  let byp := on && e.pendByp && !e.bypass
  let nlp := on && e.pendNlp
  ({ e with bypass := e.bypass || byp, nlpOff := e.nlpOff || nlp, quiet := if byp || nlp then 0 else e.quiet, pendByp := false, pendNlp := false },
    byp)

/-- A reference that does not go on where the history ends: the missing span enters as zeros, or the history is cleared (R291). -/
def EchoSt.gapped (e : EchoSt) (tail hz : Nat) (at_ : Inst) : Option EchoSt :=
  match e.endAt with
  | none => none
  | some t =>
    if t = at_ then none
    else if t < at_ then
      let h := e.hist ++ List.replicate (min tail (countAt hz at_ - countAt hz t)) 0
      some { e with hist := h.drop (h.length - tail), refill := tail }
    else some { e with hist := [], refill := tail }

/-- One call (R284-R299): the clear of a new leg, disablers asked for by the TONE node, alignment, continuity, then the sub-blocks. -/
def echoCall (cfg : EchoCfg) (tail w : Nat) (rin sin : Block) (e0 : EchoSt) : EchoOut :=
  let e1 := if e0.fresh then { e0.clear with endAt := none } else e0
  let owed := e1.owed
  let (e3, byp) := ({ e1 with owed := 0 } : EchoSt).obey (cfg.toneDis == 1)
  if rin.at_ ≠ sin.at_ ∨ rin.xs.length ≠ sin.xs.length ∨ rin.rate ≠ sin.rate then
    { e := { e3 with align := true, unset := false, held := false }, b := sin, resets := owed, align := true, gap := false, byp := byp, sat := 0,
      dtN := 0, divN := 0, held := false }
  else
    let gapped := e3.gapped tail (rateHz sin.rate) rin.at_
    let unset := rin.unset || sin.unset
    let r := EchoRun.subs ⟨cfg, tail, w, unset || sin.conceal, sin.u⟩ 64 rin.xs sin.xs
      { e := gapped.getD e3, out := [], sat := 0, dtN := 0, divN := 0, held := false }
    { e := { r.e with endAt := some (rin.inst rin.xs.length), held := r.held, unset := unset, align := false }, b := { sin with xs := r.out }
      resets := owed, align := false, gap := gapped.isSome, byp := byp, sat := r.sat, dtN := r.dtN, divN := r.divN, held := r.held }

/-! ### The figures of a canceller (R306) -/

/-- A ratio of powers, a free value where either is zero (log entry 84). -/
def ratio16 (i a b : Nat) : Int := if a = 0 ∨ b = 0 then Config.stdNum 576 [(i : Int), (a : Int), (b : Int)] [] else dB16 a b

/-- Where the echo lies beyond the bulk delay, in samples: the greatest weight of the partition of greatest energy (log entry 84). -/
def EchoSt.peakAt (e : EchoSt) (w : Nat) : Nat :=
  let m := 64 * w
  let part (i : Nat) : List Int := (e.weights.drop (i * m)).take m
  let i := (List.range (e.weights.length / m)).foldl (fun b i => if energy (part b) < energy (part i) then i else b) 0
  let j := (List.range m).foldl (fun b j => if ((part i).getD b 0).natAbs < ((part i).getD j 0).natAbs then j else b) 0
  i * m + j

/-- ERL, ERLE, the Rin, Sin and Sout levels of the last 250 ms, the background estimate and the echo path delay under a bulk delay of `d`
sixty-fourths of a sample (R306). -/
def EchoSt.figures (e : EchoSt) (w d : Nat) : List Int :=
  let ok := e.subs.filter (·.ok)
  let single := e.subs.filter (·.single)
  let tot (f : EchoSub → Nat) (l : List EchoSub) : Nat := sumL (l.map f)
  let lev (i : Nat) (f : EchoSub → Nat) : Int := ratio16 i (tot f e.subs * 2 ^ 64) (lev0 * (8 * w * e.subs.length))
  [ratio16 0 (tot (·.rin) single) (tot (·.sin) single), ratio16 1 (tot (·.sin) ok) (tot (·.pre) ok), lev 2 (·.rin), lev 3 (·.sin), lev 4 (·.out),
    ratio16 5 (e.bg.getD 0) lev0, (((d + 64 * e.peakAt w) / (64 * w) : Nat) : Int)]

end Sys2Proof.Machine
end

