-- ==== Sys2Proof/Machine/Chan.lean ====
section
/-! DEFINITION. The CHAN, GRAPH and COEF operations (R198, R203, R219, R259-R261, R278-R280, R289, R316, R328, R336-R339). -/

namespace Sys2Proof.Machine

open Sys2Proof

/-! ### Enable, disable, graph change (R51-R58, R338, R339) -/

/-- Whether admission is closed by a shutdown (R562) or by thermal level THROTTLE (R537). -/
def State.admissionShut (s : State) : Bool := s.shut.phase != 0 || decide (2 ≤ s.fld R.BGW_THERM_STAT_LEVEL)

/-- The codec that the mode and flags of a leg belong to: the ENCODE node's, else the DECODE node's. -/
def Template.codec (t : Template) : Option (Nat × Nat) :=
  match t.nodes.find? (·.ty == 8) with
  | some n => some (u8 n.par 0, n.rate)
  | none => (t.nodes.find? (·.ty == 1)).map fun n => (u8 n.par 0, n.rate)

/-- Whether a mode and flags suit some row of R603, and the first fault where they suit none: what a leg whose template has neither a DECODE nor an
ENCODE node, or whose template is not known yet, is held to. -/
def anyRowFault (mode flags : Nat) : Option Nat :=
  let faults := (List.range 8).flatMap fun k => [codecFault (k + 1) 0 mode flags, codecFault (k + 1) 1 mode flags]
  if faults.contains none then none else some (if faults.contains (some 1) then 1 else 0)

/-- The fault of a mode and flags under a template (R603). -/
def Template.modeFault (t : Template) (mode flags : Nat) : Option Nat :=
  match t.codec with
  | some (k, r) => codecFault k r mode flags
  | none => anyRowFault mode flags

/-- The rate of a template's export. -/
def Template.exRate (t : Template) : Option Nat := t.exp.map fun i => (t.node i).rate

/-- Whether a leg of template `t` may not read the export of one of template `u` for their rates (R336): the export rates differ, or the source's
differs from the consumer's PEER rate. -/
def ratesDiffer (t u : Template) : Bool :=
  (t.exRate.isSome && u.exRate.isSome && t.exRate != u.exRate) || (t.peer.isSome && u.exRate.isSome && t.peer != u.exRate)

/-- Whether leg `l` is bridged to leg `p`, now or by a change that is armed. -/
def State.bridged (s : State) (l p : Nat) : Bool :=
  (s.leg l).cfg.bridge == some p ||
    s.armed.any fun a => a.op == 0x030B && a.leg == l && num a.payload 4 4 != 0xFFFFFFFF && num a.payload 4 4 % 2 ^ 17 == p

/-- Whether leg `l`, of template `t` at offset `phi`, makes a bridged pair that R336 refuses with some leg not OFF. -/
def State.pairFault (s : State) (l : Nat) (t : Template) (phi : Nat) : Bool :=
  s.legs.any fun p =>
    let u := s.tmpl p.2.cfg.tmpl
    p.2.st != .off && p.1 != l && (s.bridged l p.1 || s.bridged p.1 l) &&
      (p.2.f != t.f || p.2.phi != phi || (s.bridged l p.1 && ratesDiffer t u) || (s.bridged p.1 l && ratesDiffer u t))

/-- The cases of R339 that refuse an enable for what its payload and the leg's configuration hold, with the codec's of R603, and a RELAY setting
that the template does not have (R337; log entry 97). -/
def State.enableFault (s : State) (l : Nat) (b : Bytes) : Option Chk :=
  let t := s.tmpl (num b 4 2)
  let x := s.leg l
  let tie := u8 b 6 / 8 % 4
  let tied := s.leg (legOf (b.drop 8))
  let (m, c, e) := (u8 b 22, u8 b 23, u8 b 24)
  let cf := t.modeFault (u8 b 25) (u8 b 26)
  if khas s.tmpls (num b 4 2) = false then some (.at_ 4)
  else if tie = 3 then some (.at_ 6)
  else if 63 < u8 b 7 ∧ u8 b 7 ≠ 0xFF then some (.at_ 7)
  else if tie = 2 ∧ khas s.confs (num b 8 4) = false then some (.at_ 8)
  else if c ≠ 0xFF ∧ c = m then some (.at_ 23)
  else if e ≠ 0xFF ∧ (e = m ∨ e = c) then some (.at_ 24)
  else match cf with
    | some i => some (.at_ (25 + i))
    | none =>
      if (t.relay ∨ t.nodes.any (·.ty == 8)) ∧ x.cfg.egress.isNone then some .inState
      else if tie = 1 ∧ (tied.st = .off ∨ tied.st = .stopping) then some .inState
      else if x.cfg.ply.relay ∧ t.relay = false then some .inState
      else none

/-- Whether an import can feed the PEER of a template: they agree in rate (R449). -/
def TImport.fits (i : TImport) (t : Template) : Bool := t.peer.isNone || t.peer == some i.rate

/-- The remote participants of a conference (R451). -/
def State.confRemote (s : State) (c : Nat) : Nat := (s.tnd.cimps.filter fun r => r.conf == c).length

/-- The offset that a tie or an import asks for, or a refusal for unequal periods or rates (R51, R449); a conference without participants ties
nothing (R339). -/
def State.tieOf (s : State) (b : Bytes) (t : Template) : Option (Option Nat) :=
  let f := t.f
  match s.tnd.imps.find? (fun i => i.leg == legOf b) with
  | some i => if i.f = f ∧ i.fits t then some (some (if i.mode = 0 then i.phi else (i.phi + 1) % max 1 (s.period f))) else none
  | none =>
    match u8 b 6 / 8 % 4 with
    | 1 => let y := s.leg (legOf (b.drop 8)); if y.f = f then some (some y.phi) else none
    | 2 => match kget s.confs (num b 8 4) with
      | some c => if c.parts.isEmpty ∧ s.confRemote (num b 8 4) = 0 then some none else if c.f = f then some c.phi else none
      | none => some none
    | _ => some none

/-- The check of CHAN_ENABLE; the plan is the offset. A re-execution asks for the offset of its record (R422). -/
def enableChk (c : Ctx) (s : State) (b : Bytes) (want : Option Nat) : Chk :=
  let l := legOf b
  let x := s.leg l
  let t := s.tmpl (num b 4 2)
  match x.st with
  | .starting => .ok [x.phi]
  | .on => .ok [x.phi]
  | .failed => .inState
  | _ =>
    if s.admissionShut ∧ c.replay = false then .inState
    else match s.enableFault l b with
      | some r => r
      | none =>
        if x.st = .stopping then
          if num b 4 2 ≠ x.cfg.tmpl then .at_ 4
          else if (s.setLeg l { x with pendEn := true }).slotsFor l [t] = false then .refuse St.noBudget 0
          else if s.pairFault l t x.phi then .inState
          else .ok [x.phi]
        else if s.slotsFor l [t] = false then .refuse St.noBudget 0
        else match s.tieOf b t with
          | none => .inState
          | some tie =>
            match s.admission (t.cost s.sets x.cfg.echo.tail) (s.period t.f) (match want with | some p => some p | none => tie) with
            | .inl m => .count St.noBudget m R.SWT_REFUSE_CNT 0 0
            | .inr phi => if s.pairFault l t phi then .inState else .ok [phi]

/-- The home cluster of a new leg (R345): the one whose legs at the offset declare the fewest cycles. -/
def State.homeCluster (s : State) (phi : Nat) : Nat :=
  let sum (k : Nat) : Nat := sumL (s.legs.map fun p =>
    if p.2.st ≠ .off ∧ p.2.phi = phi ∧ p.2.cluster = k then (s.tmpl p.2.cfg.tmpl).cycles s.sets else 0)
  ((List.range 8).foldl (fun (best : Nat × Nat) k => if sum k < best.2 then (k, sum k) else best) (0, sum 0)).1

/-- The reply of CHAN_ENABLE (R339): offset, flags, SWN of the effective boundary. -/
def enableRes (phi : Nat) (pending : Bool) (swn : Nat) : Bytes := be 2 phi ++ be 1 (b2n pending) ++ be 1 0 ++ be 4 swn

/-- CHAN_ENABLE applied. -/
def enableApp (c : Ctx) (plan : List Nat) (s : State) (b : Bytes) : Done :=
  let l := legOf b
  let x := s.leg l
  match x.st with
  | .off =>
    let tid := num b 4 2
    let t := s.tmpl tid
    let phi := plan.headD 0
    let cfg : LegCfg := enableCfg b { x.cfg with tmpl := tid }
    let y : Leg := { Leg.init with cfg := cfg, st := .starting, f := t.f, phi := phi, cluster := s.homeCluster phi }
    let s1 := (s.setLeg l y).charge l (t.cost s.sets x.cfg.echo.tail)
    let (s2, w) := (s1.report (.leg l) .off .starting).armCmd c l (tOf (sub b 28 12)) b plan
    let pend := s2.nextB.isNone
    Done.mk s2 w.status 0 (enableRes phi pend (if pend then 0 else s2.swnAt (s2.effAt w))) false
  | .stopping =>
    Done.res (s.setLeg l { x with pendEn := true, held := b }) (enableRes x.phi false (s.swnAt s.swt.nextT))
  | _ => Done.res s (enableRes x.phi false x.startSwn)

/-- CHAN_ENABLE (R338, R339). -/
def opChanEnable : OpDef :=
  { minRole := 1, jrnl := fun _ => true, badLen := lenIs 40, bulk := false,
    chk := fun c s b => enableChk c s b none, app := enableApp }

/-- CHAN_DISABLE applied (R18, R339): a held enable is cancelled at once. -/
def disableApp (c : Ctx) (s : State) (b : Bytes) : Done :=
  let l := legOf b
  let x := s.leg l
  match x.st with
  | .off => Done.ok s
  | .stopping => Done.ok (s.setLeg l { x with pendEn := false, held := [] })
  | _ => let (t, w) := s.armCmd c l (tOf (sub b 4 12)) b []; ⟨t, w.status, 0, [], false⟩

/-- CHAN_DISABLE (R339). -/
def opChanDisable : OpDef :=
  { minRole := 1, jrnl := fun _ => true, badLen := lenIs 16, bulk := false, chk := fun _ _ _ => .ok [],
    app := fun c _ s b => disableApp c s b }

/-- The check of CHAN_GRAPH (R52, R336, R337, R537, R562). -/
def graphChk (c : Ctx) (s : State) (b : Bytes) : Chk :=
  let l := legOf b
  let x := s.leg l
  let t := s.tmpl (num b 4 2)
  let w := s.arm (tOf (sub b 8 12))
  let run := s.graphOf l (s.armedUpTo l (some w))
  let old := s.costOf run
  let cost := s.costOf (graphAfter run (0x0303, b))
  let dearer := decide (old.cyc < cost.cyc ∨ old.kib < cost.kib ∨ old.eu < cost.eu ∨ old.slots < cost.slots)
  if (x.st ≠ .on ∧ x.st ≠ .starting) ∨ (s.shut.phase ≠ 0 ∧ c.replay = false) then .inState
  else if khas s.tmpls (num b 4 2) = false ∨ t.f ≠ x.f ∨ (x.cfg.ply.relay ∧ t.relay = false) then .at_ 4
  else if s.pairFault l t x.phi || (s.tnd.imps.any fun i => i.leg == l && !i.fits t) then .inState
  else if c.replay = false ∧ 2 ≤ s.fld R.BGW_THERM_STAT_LEVEL ∧ dearer then .inState
  else if s.slotsFor l (t :: s.tmplsOf l) = false then .refuse St.noBudget 0
  else match s.changeFits l w 0x0303 b with
    | some m => .count St.noBudget m R.SWT_REFUSE_CNT 0 0
    | none => .ok []

/-- CHAN_GRAPH (R52, R337). -/
def opChanGraph : OpDef :=
  { minRole := 1, jrnl := fun _ => true, badLen := lenIs 20, bulk := false, chk := graphChk
    app := fun c _ s b =>
      let l := legOf b
      let (t, w) := s.armCmd c l (tOf (sub b 8 12)) b []
      ⟨t.recharge l, w.status, 0, [], false⟩ }

/-! ### Flows and keys (R197-R199, R202, R203) -/

/-- The flow entry of a payload (log entry 15). -/
def flowOf (b : Bytes) : FlowEnt :=
  let vid (o : Nat) : Option Nat := if num b o 2 = 0xFFFF then none else some (num b o 2 % 4096)
  { leg := legOf b, kind := u8 b 4, full := u8 b 5 == 1, port := u8 b 7, ovid := vid 8, ivid := vid 10, ver := u8 b 12,
    dst := num b 16 16, dport := num b 14 2, src := num b 32 16, sport := num b 48 2, smode := u8 b 6, latched := none,
    heard := 0, place := none }

/-- The values of a flow payload that name nothing. -/
def flowFault (b : Bytes) : Option Nat :=
  if 2 < u8 b 4 then some 4 else if 1 < u8 b 5 then some 5 else if 2 < u8 b 6 then some 6 else if 7 < u8 b 7 then some 7
  else if u8 b 12 ≠ 4 ∧ u8 b 12 ≠ 6 then some 12 else if 1 < u8 b 13 then some 13 else none

/-- CHAN_FLOW_ADD (R198). -/
def opChanFlowAdd : OpDef :=
  { minRole := 1, jrnl := fun _ => true, badLen := lenIs 56, bulk := false
    chk := fun _ s b =>
      let f := flowOf b
      match flowFault b with
      | some o => .at_ o
      | none =>
        if s.pke.flows.any (·.sameKey f) then .inState
        else if 262144 ≤ s.pke.flows.length then .refuse St.noBudget 0
        else if (s.placeFlow f).isNone then .count St.noBudget 0 R.PKE_STASH_FULL_CNT R.PKE_EVT 2
        else .ok []
    app := fun _ _ s b =>
      let f := flowOf b
      let x := s.leg f.leg
      let s1 := s.setPke { s.pke with flows := s.pke.flows ++ [{ f with place := (s.placeFlow f).getD none }] }
      Done.ok (s1.setLeg f.leg { x with cfg := { x.cfg with ssrcFix := if u8 b 13 = 1 then some (num b 52 4) else none } }) }

/-- CHAN_FLOW_DEL (R198); a key that no entry of the leg has removes nothing. -/
def opChanFlowDel : OpDef :=
  { minRole := 1, jrnl := fun _ => true, badLen := lenIs 56, bulk := false
    chk := fun _ _ b => match flowFault b with | some o => .at_ o | none => .ok []
    app := fun _ _ s b =>
      let f := flowOf b
      Done.ok (s.setPke { s.pke with flows := s.pke.flows.filter fun e => !(e.leg == f.leg && e.sameKey f) }) }

/-- A key put into a context: the current key starts the context afresh, the next key waits (R203). -/
def SCtx.install (c : SCtx) (b : Bytes) : SCtx :=
  if u8 b 5 = 0 then { SCtx.init with cur := (keyOf b).asCur, next := c.next, eflag := tb (u8 b 58) 0 } else { c with next := some (keyOf b) }

/-- CHAN_KEY (R203, R206): at a re-execution the indices resume; the next transmit key becomes current at the boundary that T names. -/
def opChanKey : OpDef :=
  { minRole := 1, jrnl := fun _ => true, badLen := lenIs 80, bulk := false
    chk := fun _ _ b => Chk.first [(decide (1 < u8 b 4), .at_ 4), (decide (1 < u8 b 5), .at_ 5), (decide (4 < u8 b 6), .at_ 6),
      (decide (4 < u8 b 7), .at_ 7)] (.ok [])
    app := fun c _ s b =>
      let l := legOf b
      let x := s.leg l
      let resume (t : State) : State := if c.replay then t.resumeSrtp l else t
      if u8 b 4 = 0 then Done.ok (resume (s.setLeg l { x with cfg := { x.cfg with rx := x.cfg.rx.install b } }))
      else
        let s1 := resume (s.setLeg l { x with cfg := { x.cfg with tx := x.cfg.tx.install b } })
        if u8 b 5 = 0 then Done.ok s1
        else let (t, w) := s1.armCmd c l (tOf (sub b 68 12)) b []; ⟨t, w.status, 0, [], false⟩ }

/-! ### Configuration of a leg (R336, R337) -/

/-- A configuring operation with a check; `T` sits at an offset, or is absent for the next eligible boundary. -/
def cfgOp (len : Nat) (tOff : Option Nat) (chk : State → Leg → Bytes → Chk) : OpDef :=
  { minRole := 1, jrnl := fun _ => true, badLen := lenIs len, bulk := false
    chk := fun _ s b => chk s (s.leg (legOf b)) b
    app := fun c _ s b => s.configure c (legOf b) (match tOff with | some o => tOf (sub b o 12) | none => none) b }

/-- CHAN_EGRESS (R213). -/
def opChanEgress : OpDef := cfgOp 68 none fun _ _ b =>
  Chk.first [(decide (7 < u8 b 4), .at_ 4), (decide (2 < u8 b 5), .at_ 5), (u8 b 6 != 4 && u8 b 6 != 6, .at_ 6),
    (decide (63 < u8 b 7) && u8 b 7 != 0xFF, .at_ 7)] (.ok [])

/-- CHAN_PLAYOUT (R219, R337). -/
def opChanPlayout : OpDef := cfgOp 20 none fun s x b =>
  let r := u8 b 5 == 1
  Chk.first [(decide (1 < u8 b 4), .at_ 4), (decide (1 < u8 b 5), .at_ 5),
    (x.st != .off && r != (s.tmpl x.cfg.tmpl).relay, .at_ 5), (decide (num b 6 2 < 2 ∨ 64 < num b 6 2), .at_ 6),
    (decide (640000 < num b 8 4), .at_ 8), (decide (640000 < num b 12 4 ∨ num b 16 4 ≤ num b 12 4), .at_ 12),
    (decide (640000 < num b 16 4), .at_ 16)] (.ok [])

/-- CHAN_ECHO (R285, R289): a change of tail on a leg not OFF is admitted as a graph change. -/
def opChanEcho : OpDef :=
  { minRole := 1, jrnl := fun _ => true, badLen := lenIs 16, bulk := false
    chk := fun _ s b =>
      let x := s.leg (legOf b)
      let tail := num b 4 2
      Chk.first [(decide (tail < 8 ∨ 256 < tail) || tail % 8 != 0, .at_ 4), (decide (1 < u8 b 6), .at_ 6),
        (decide (u8 b 7 < 1 ∨ 16 < u8 b 7), .at_ 7), (decide (48 < u8 b 8), .at_ 8), (decide (2 < u8 b 9), .at_ 9),
        (decide (500 < num b 10 2), .at_ 10), (decide (u8 b 12 < 6 ∨ 60 < u8 b 12), .at_ 12), (decide (2 < u8 b 13), .at_ 13),
        (decide (sgn 8 (u8 b 14) < -70 ∨ -30 < sgn 8 (u8 b 14)), .at_ 14), (decide (1 < u8 b 15), .at_ 15)]
        (if x.st = .off then .ok []
          else match s.changeFits (legOf b) (s.arm none) 0x0309 b with
            | some m => .count St.noBudget m R.SWT_REFUSE_CNT 0 0
            | none => .ok [])
    app := fun c _ s b =>
      let l := legOf b
      let r := s.configure c l none b
      { r with s := if (s.leg l).st = .off then r.s else r.s.recharge l } }

/-- CHAN_ECHO_RESET (R299): on a leg that is OFF there is nothing to clear. -/
def opChanEchoReset : OpDef := cfgOp 16 (some 4) fun _ _ _ => .ok []

/-- CHAN_BRIDGE (R336): a pair of which one leg is OFF is held to the rule when that leg is enabled. -/
def opChanBridge : OpDef := cfgOp 20 (some 8) fun s x b =>
  let y := s.leg (legOf (b.drop 4))
  if num b 4 4 = 0xFFFFFFFF ∨ x.st = .off ∨ y.st = .off then .ok []
  else if x.f ≠ y.f ∨ x.phi ≠ y.phi ∨ ratesDiffer (s.tmpl x.cfg.tmpl) (s.tmpl y.cfg.tmpl) then .inState
  else .ok []

/-- CHAN_GAIN (R314, R337). -/
def opChanGain : OpDef := cfgOp 20 (some 8) fun s x b =>
  let g := sgn 8 (u8 b 5)
  Chk.first [(if x.st = .off then decide (23 < u8 b 4) else ((s.tmpl x.cfg.tmpl).node (u8 b 4)).ty != 7, .at_ 4),
    (!(g == -128 || decide (-96 ≤ g ∧ g ≤ 48)), .at_ 5)] (.ok [])

/-- CHAN_GROUP (R337). -/
def opChanGroup : OpDef := cfgOp 20 (some 8) fun _ _ b => if 63 < u8 b 4 ∧ u8 b 4 ≠ 0xFF then .at_ 4 else .ok []

/-- CHAN_TONE_CFG (R325, R326). -/
def opChanToneCfg : OpDef := cfgOp 8 none fun _ _ b =>
  Chk.first [(decide (1 < u8 b 4), .at_ 4), (decide (2 < u8 b 5), .at_ 5), (decide (1 < u8 b 6), .at_ 6)] (.ok [])

/-- CHAN_CODEC (R319, R337, R603): on a leg that is OFF, whose codec its next enable gives, a mode and flags that some row of R603 has. -/
def opChanCodec : OpDef := cfgOp 20 (some 8) fun s x b =>
  match (if x.st = .off then anyRowFault (u8 b 4) (u8 b 5) else (s.tmpl x.cfg.tmpl).modeFault (u8 b 4) (u8 b 5)) with
  | some i => .at_ (4 + i)
  | none => .ok []

/-- CHAN_RTCP (R215, R337): from the next report on. -/
def opChanRtcp : OpDef :=
  { minRole := 1, jrnl := fun _ => true, badLen := lenIs 8, bulk := false
    chk := fun _ _ b => Chk.first [(decide (num b 4 2 < 1 ∨ 60 < num b 4 2), .at_ 4), (decide (1 < u8 b 6), .at_ 6)] (.ok [])
    app := fun c _ s b =>
      let x := s.leg (legOf b)
      Done.ok (s.setLeg (legOf b) { x with cfg := cfgApply c.opcode b none x.cfg }) }

/-- CHAN_CLEAR (R336): refused unless the leg is OFF; its flow entries go with its configuration. -/
def opChanClear : OpDef :=
  { minRole := 1, jrnl := fun _ => true, badLen := lenIs 4, bulk := false
    chk := fun _ s b => if (s.leg (legOf b)).st = .off then .ok [] else .inState
    app := fun _ _ s b =>
      let l := legOf b
      Done.ok (({ s with legs := kdel s.legs l } : State).setPke { s.pke with flows := s.pke.flows.filter (·.leg != l) }) }

/-- Arming of a change that needs a running leg. -/
def armOp (len tOff : Nat) (chk : State → Leg → Bytes → Chk) : OpDef :=
  { minRole := 1, jrnl := fun _ => true, badLen := lenIs len, bulk := false
    chk := fun _ s b =>
      let x := s.leg (legOf b)
      if x.st = .off then .inState else chk s x b
    app := fun c _ s b => let (t, w) := s.armCmd c (legOf b) (tOf (sub b tOff 12)) b []; ⟨t, w.status, 0, [], false⟩ }

/-- Whether a node of a leg's template is of a type. -/
def State.isNode (s : State) (x : Leg) (i ty : Nat) : Bool := ((s.tmpl x.cfg.tmpl).node i).ty == ty

/-- CHAN_TONE_PLAY (R327): one to four segments. -/
def opChanTonePlay : OpDef :=
  { minRole := 1, jrnl := fun _ => true, bulk := false
    badLen := fun b => if b.length < 8 then some b.length else lenIs (20 + 8 * max 1 (min 4 (u8 b 5))) b
    chk := fun _ s b =>
      let x := s.leg (legOf b)
      let top := if ((s.tmpl x.cfg.tmpl).node (u8 b 4)).rate = 1 then 8000 else 4000
      let bad := ((List.range (u8 b 5)).filterMap fun i =>
        let o := 8 + 8 * i
        if top < num b o 2 then some o else if top < num b (o + 2) 2 then some (o + 2)
        else if num b (o + 6) 2 = 0 then some (o + 6) else none).head?
      if x.st = .off then .inState
      else if s.isNode x (u8 b 4) 5 = false then .at_ 4
      else if u8 b 5 < 1 ∨ 4 < u8 b 5 then .at_ 5
      else match bad with | some o => .at_ o | none => .ok []
    app := fun c _ s b => let (t, w) := s.armCmd c (legOf b) (tOf (sub b (8 + 8 * u8 b 5) 12)) b []; ⟨t, w.status, 0, [], false⟩ }

/-- CHAN_TONE_STOP (R327). -/
def opChanToneStop : OpDef := armOp 20 8 fun s x b => if s.isNode x (u8 b 4) 5 then .ok [] else .at_ 4

/-! ### Conferences (R328) -/

/-- CHAN_CONF_CREATE (R328). -/
def opChanConfCreate : OpDef :=
  { minRole := 1, jrnl := fun _ => true, badLen := lenIs 8, bulk := false
    chk := fun _ s b => Chk.first [(decide (4095 < num b 0 2), .at_ 0), (khas s.confs (num b 0 2), .at_ 0),
      (decide (1 < u8 b 2), .at_ 2), (!([5, 10, 20, 30, 40, 60] : List Nat).contains (u8 b 3), .at_ 3), (decide (8 < u8 b 4), .at_ 4),
      (decide (12 < u8 b 5), .at_ 5)] (.ok [])
    app := fun _ _ s b =>
      let c : Conf := ⟨u8 b 2, u8 b 3, if u8 b 4 = 0 then 3 else u8 b 4, u8 b 5, none, [], []⟩
      Done.ok { s with confs := kset s.confs (num b 0 2) c } }

/-- CHAN_CONF_DELETE (R328). -/
def opChanConfDelete : OpDef :=
  { minRole := 1, jrnl := fun _ => true, badLen := lenIs 4, bulk := false
    chk := fun _ s b => match kget s.confs (num b 0 2) with
      | none => .at_ 0
      | some c => if c.parts.isEmpty then .ok [] else .inState
    app := fun _ _ s b =>
      let t := { s with confs := kdel s.confs (num b 0 2) }
      Done.ok { t with tnd := { t.tnd with cimps := t.tnd.cimps.filter fun r => r.conf != num b 0 2 } } }

/-- The legs whose joins of a conference are armed. -/
def State.joining (s : State) (c : Nat) : List Nat := (s.armed.filter fun a => a.op == 0x0322 && num a.payload 4 2 == c).map (·.leg)

/-- CHAN_CONF_JOIN (R328): a leg that is in the conference may join it again, for another role. The offset of a conference without participants is
that of the joins armed for it. -/
def opChanConfJoin : OpDef := armOp 20 8 fun s x b =>
  match kget s.confs (num b 4 2) with
  | none => .at_ 4
  | some c =>
    let t := s.tmpl x.cfg.tmpl
    if 1 < u8 b 6 then .at_ 6
    else match t.nodes.find? fun n => n.ty == 6 && n.rate == c.rate with
      | none => .inState
      | some n =>
        let id := num b 4 2
        let all := (c.parts.map (·.1) ++ s.joining id).eraseDups
        let other := x.conf.any (· != id) || (s.armedFor 0x0322 (legOf b)).any fun a => num a.payload 4 2 != id
        if x.f ≠ c.f ∨ ((¬ c.parts.isEmpty ∨ 0 < s.confRemote id) ∧ c.phi ≠ some x.phi) ∨ ((s.joining id).any fun l => (s.leg l).phi != x.phi) ∨
          other then .inState
        else if all.contains (legOf b) = false ∧ min 512 (num n.par 0 2) ≤ all.length + s.confRemote id then .refuse St.noBudget 0
        else .ok []

/-- CHAN_CONF_LEAVE (R328): a leg that is not in the conference is refused. -/
def opChanConfLeave : OpDef := armOp 20 8 fun s x b =>
  if x.conf = some (num b 4 2) ∨ (s.armedFor 0x0322 (legOf b)).any (fun a => num a.payload 4 2 == num b 4 2) then .ok [] else .inState

/-! ### Status (R280, R306, R337) -/

/-- The status record of a chain (R280): a stage that the chain does not have reads 0. -/
def State.chainRec (s : State) (c : Chain) : Bytes :=
  let st := ((s.banks c).of c.live).stages
  let g := groupDelay c.fIn st c.en
  let flags := b2n c.live + 2 * b2n c.fading + 4 * b2n c.swap.isSome + 8 * b2n (0 < c.suppr) + 16 * b2n c.late + 32 * b2n c.defer
  be 1 c.eng ++ be 1 0 ++ be 2 c.slot ++ be 1 flags ++ be 3 0 ++ be 4 g ++ be 4 (gdNs c.fIn g) ++ be 4 c.settle ++ be 4 c.suppr ++
    be 2 (c.fadeX - c.fadeJ) ++ (match c.swap with | some w => be 2 w.x ++ (w.t.map timeBytes).getD (List.replicate 12 0xFF#8) | none => zeros 14) ++
    be 4 c.lateness ++ (List.range 9).flatMap fun i => be 4 (if i < c.layout.length ∨ i = 8 then c.sats.getD i 0 else 0)

/-- The echo record of a leg (R306). -/
def State.echoRec (s : State) (l : Nat) : Bytes :=
  let x := s.leg l
  let e := x.med.echo.getD (EchoSt.init l)
  let t := s.tmpl x.cfg.tmpl
  let (node, d) := match t.echoNode with
    | some (_, n) => (n, match kget x.med.chains n.in1 with | some c => c.d * 64 + c.phi | none => 0)
    | none => (⟨4, 0, 0, 0, []⟩, 0)
  let fl := b2n e.conv + 2 * b2n e.dt + 4 * b2n e.nlp + 8 * b2n e.bypass + 16 * b2n e.nlpOff + 32 * b2n e.held + 64 * b2n e.unset + 128 * b2n e.align
  be 1 fl ++ be 1 (t.slotUnits x.cfg.echo.tail / wOf node.rate) ++ be 1 (wOf node.rate) ++ be 1 0 ++ be 4 d ++
    (e.figures (wOf node.rate) d).flatMap (fun v => be 2 (unsgn 16 v)) ++ be 2 0 ++ be 4 e.dtCnt ++ be 4 e.clears

/-- The 16 bytes that head the status of a leg: state, offset, template, group, peer, conference, in the order of R337 (log entry 15). -/
def Leg.head (x : Leg) : Bytes :=
  be 1 x.st.code ++ be 1 0 ++ be 2 x.phi ++ be 2 x.cfg.tmpl ++ be 1 (x.cfg.group.getD 0xFF) ++ be 1 0 ++ be 4 (x.cfg.bridge.getD 0xFFFFFFFF) ++
    be 2 (x.conf.getD 0xFFFF) ++ be 2 0

/-- The status record of node `i` of a leg, after those before it: of nodes other than FILTER and ECHO 16 bytes that are not stated (R337; log
entry 14). -/
def State.nodeRec (s : State) (l : Nat) (p : State × Bytes) (i : Nat) : State × Bytes :=
  let x := s.leg l
  let n := (s.tmpl x.cfg.tmpl).node i
  if n.ty = 3 then match kget x.med.chains i with
    | some c => (p.1, p.2 ++ s.chainRec c)
    | none => (p.1, p.2 ++ zeros 80)
  else if n.ty = 4 then (p.1, p.2 ++ s.echoRec l)
  else (p.1.drawn, p.2 ++ p.1.drawBytes 16)

/-- The status records of the nodes of a leg that is not OFF (R337). -/
def State.nodeRecs (s : State) (l : Nat) : State × Bytes :=
  if (s.leg l).st = .off then (s, []) else (List.range (s.legTmpl l).nodes.length).foldl (s.nodeRec l) (s, [])

/-- CHAN_STATUS (R337). -/
def opChanStatus : OpDef :=
  OpDef.mk 0 (fun _ => false) (lenIs 4) false (fun _ _ _ => .ok []) fun _ _ s b =>
    let r := s.nodeRecs (legOf b)
    Done.res r.1 ((s.leg (legOf b)).head ++ r.2)

/-- The result of CHAN_CONF_STATUS (R337; log entry 15): how many participants and how many members of S there are; the participants, remote ones
after the local ones, with their roles; the members of S. A leg goes with its device. -/
def State.confRec (s : State) (id : Nat) (c : Conf) : Bytes :=
  let far := s.tnd.cimps.filter fun r => r.conf == id
  be 2 (c.parts.length + far.length) ++ be 2 c.sel.length ++
    (c.parts.flatMap fun p => be 4 p.1 ++ be 1 (if p.2 then 0 else 1) ++ be 1 0 ++ be 2 s.dev) ++
    (far.flatMap fun r => be 4 r.src ++ be 2 0 ++ be 2 r.dev) ++ c.sel.flatMap fun v => be 4 (v / 4096) ++ be 2 0 ++ be 2 (v % 4096)

/-- CHAN_CONF_STATUS (R337). -/
def opChanConfStatus : OpDef :=
  OpDef.mk 0 (fun _ => false) (lenIs 4) false (fun _ s b => if khas s.confs (num b 0 2) then .ok [] else .at_ 0) fun _ _ s b =>
    match kget s.confs (num b 0 2) with
    | some c => Done.res s (s.confRec (num b 0 2) c)
    | none => Done.ok s

/-! ### GRAPH (R310, R315, R322, R337) -/

/-- The result of GRAPH_DEFINE. -/
def State.graphRes (s : State) (t : Template) : Bytes :=
  let c := t.cost s.sets none
  be 4 (t.cycles s.sets) ++ be 2 c.cyc ++ be 2 c.kib ++ be 2 c.eu ++ be 2 c.slots ++ be 1 (b2n c.full) ++ be 3 0

/-- GRAPH_DEFINE (R315, R337). -/
def opGraphDefine : OpDef :=
  { minRole := 1, jrnl := fun _ => true, bulk := false
    badLen := fun b => if b.length < 20 then some b.length else lenIs (20 + 16 * u8 b 5) b
    chk := fun _ s b => Chk.first [(decide (1023 < num b 0 2), .at_ 0), (khas s.tmpls (num b 0 2), .at_ 0)]
      (match templateFault s.sets (b.drop 4) with | some i => .refuse St.state i | none => .ok [])
    app := fun _ _ s b =>
      let t := parseTemplate (b.drop 4)
      let s1 : State := { s with tmpls := kset s.tmpls (num b 0 2) t }
      Done.res s1 (s1.graphRes t) }

/-- GRAPH_DELETE (R310). -/
def opGraphDelete : OpDef :=
  { minRole := 1, jrnl := fun _ => true, badLen := lenIs 4, bulk := false
    chk := fun _ s b =>
      let i := num b 0 2
      if khas s.tmpls i = false then .at_ 0
      else if (s.legs.any fun p => p.2.st != .off && p.2.cfg.tmpl == i) || s.armed.any (fun a => a.op == 0x0303 && num a.payload 4 2 == i) then .inState
      else .ok []
    app := fun _ _ s b => Done.ok { s with tmpls := kdel s.tmpls (num b 0 2) } }

/-- GRAPH_CPT_DEFINE (R322, R337): one to four on-and-off pairs. -/
def opGraphCptDefine : OpDef :=
  { minRole := 1, jrnl := fun _ => true, bulk := false
    badLen := fun b => if 15 ≤ b.length ∧ b.length ≤ 27 ∧ b.length % 4 = 3 then none else some (min b.length 27)
    chk := fun _ _ b => if 15 < u8 b 0 then .at_ 0 else .ok []
    app := fun c _ s b => let (t, w) := s.armCmd c 0 none b []; ⟨t, w.status, 0, [], false⟩ }

/-- GRAPH_INFO (R337). -/
def opGraphInfo : OpDef :=
  OpDef.mk 0 (fun _ => false) (lenIs 4) false (fun _ s b => if khas s.tmpls (num b 0 2) then .ok [] else .at_ 0) fun _ _ s b =>
    let t := s.tmpl (num b 0 2)
    Done.res s (s.graphRes t ++ t.bytes)

/-! ### COEF (R256-R261, R271, R278-R280, R316) -/

/-- Granules in use (R256). -/
def State.granUsed (s : State) : Nat := sumL (s.sets.map fun p => p.2.gran)

/-- COEF_SET_LOAD with its whole payload (R279). -/
def opCoefSetLoad : OpDef :=
  { minRole := 1, jrnl := fun _ => true, badLen := lenMin 8, bulk := true
    chk := fun _ s b =>
      let got := b.length - 8
      let want := num b 4 4
      if 2047 < num b 0 2 ∨ khas s.sets (num b 0 2) then .at_ 0
      else if 32768 < s.granUsed + cdiv want 256 then .refuse St.noBudget 0
      else if got ≠ want then .refuse St.badLen (8 + min got want)
      else match setFault (b.drop 8) with | some o => .refuse St.badLen (8 + o) | none => .ok []
    app := fun _ _ s b => Done.ok { s with sets := kset s.sets (num b 0 2) (parseSet (b.drop 8)) } }

/-- Whether a set is bound to a bank, about to be, or named by a template (R259). -/
def State.setBound (s : State) (i : Nat) : Bool :=
  (s.legs.any fun p => p.2.med.chains.any fun c => c.2.bankA == some i || c.2.bankB == some i) ||
  (s.tmpls.any fun p => p.2.nodes.any fun n => n.ty == 3 && n.setId == i) ||
  s.armed.any fun a => a.op == 0x0503 && num a.payload 6 2 == i

/-- COEF_SET_FREE (R259). -/
def opCoefSetFree : OpDef :=
  { minRole := 1, jrnl := fun _ => true, badLen := lenIs 4, bulk := false
    chk := fun _ s b => if khas s.sets (num b 0 2) = false then .at_ 0 else if s.setBound (num b 0 2) then .inState else .ok []
    app := fun _ _ s b => Done.ok { s with sets := kdel s.sets (num b 0 2) } }

/-- The leg and node of a chain reference (R278). -/
def chainRef (b : Bytes) : Nat × Nat := (num b 0 4 % 2 ^ 17, u8 b 0)

/-- The chain of a reference, of a leg not OFF (R278): of a leg that is not created yet, the chain that its node will create, which has no slot
and reads slot 0 of engine 0 until then (log entry 97). -/
def State.chainAt (s : State) (b : Bytes) : Option Chain :=
  let (l, i) := chainRef b
  let x := s.leg l
  let t := s.legTmpl l
  if x.st = .off then none
  else match kget x.med.chains i with
    | some c => some c
    | none => if t.filters.contains i then some (s.newChain t i (0, 0)) else none

/-- An operation on a chain: refused where the reference names none (R278). -/
def chainOp (len : Nat) (chk : State → Chain → Bytes → Chk) (app : Ctx → State → Bytes → Done) : OpDef :=
  { minRole := 1, jrnl := fun _ => true, badLen := lenIs len, bulk := false
    chk := fun _ s b => match s.chainAt b with | none => .at_ 0 | some c => chk s c b
    app := fun c _ s b => app c s b }

/-- Arm an operation on a chain for the next eligible boundary. -/
def armChain (c : Ctx) (s : State) (b : Bytes) : Done :=
  let (t, w) := s.armCmd c (chainRef b).1 none b []
  ⟨t, w.status, 0, [], false⟩

/-- Whether a bind of a chain is armed (R259, R261). -/
def State.bindPending (s : State) (b : Bytes) : Bool := s.armed.any fun a => a.op == 0x0503 && chainRef a.payload == chainRef b

/-- COEF_BANK (R259). -/
def opCoefBank : OpDef := chainOp 8 (fun s c b =>
  let i := num b 6 2
  let other := if u8 b 4 = 0 then c.bankB else c.bankA
  if 1 < u8 b 4 then .at_ 4
  else if khas s.sets i = false ∨ (s.set i).fits c.layout (other.map s.set) = false then .at_ 6
  else if c.live = (u8 b 4 == 1) ∨ c.fading ∨ c.swap.isSome ∨ s.bindPending b then .inState
  else .ok []) armChain

/-- Whether a swap is armed late (R60, R262): T lies before now and the lead, or a sample at or after it has been computed. R262 judges a swap
when it runs; the reply says what is known when it is armed (DEDUCED, log entry 79). A T of all ones is never late. -/
def State.swapLate (s : State) (c : Chain) (t : Option Inst) : Bool := t.any fun T => decide (T < s.now + nsI 2000) || c.passed T

/-- COEF_SWAP (R60, R261). -/
def opCoefSwap : OpDef := chainOp 20 (fun s c b =>
  let x := num b 16 2
  if 4096 < x then .at_ 16
  else if (if c.live then c.bankA else c.bankB).isNone ∨ c.swap.isSome ∨ s.bindPending b then .inState
  else if 0 < x ∧ c.fadeOk = false then .at_ 16
  else .ok []) fun _ s b =>
    let (l, i) := chainRef b
    let t := tOf (sub b 4 12)
    let late := (s.chainAt b).any fun c => s.swapLate c t
    Done.stat ((s.updChain l i fun c => { c with swap := some ⟨t, num b 16 2, s.loc, false, false⟩ }).logSwap l) (if late then St.late else St.ok) 0

/-- COEF_SWAP_CANCEL (R261). -/
def opCoefSwapCancel : OpDef := chainOp 4 (fun _ _ _ => .ok []) fun _ s b =>
  let (l, i) := chainRef b
  Done.ok (s.updChain l i fun c => { c with swap := none })

/-- COEF_PHASE (R271, R316). -/
def opCoefPhase : OpDef := chainOp 8 (fun s c b =>
  let v := num b 4 4
  let (l, i) := chainRef b
  if c.maxD < bits v 17 6 ∨ (tb v 31 ≠ c.en ∧ (s.legTmpl l).intoEcho i) then .at_ 4 else .ok []) armChain

/-- COEF_SYNC_RESET (R272). -/
def opCoefSyncReset : OpDef := chainOp 4 (fun _ _ _ => .ok []) armChain

/-- COEF_SET_INFO (R278). -/
def opCoefSetInfo : OpDef :=
  OpDef.mk 0 (fun _ => false) (lenIs 4) false (fun _ s b => if khas s.sets (num b 0 2) then .ok [] else .at_ 0) fun _ _ s b =>
    let c := s.set (num b 0 2)
    Done.res s (be 2 c.gran ++ be 2 0 ++ c.bytes.take (8 + 8 * c.stages.length))

/-- COEF_ROM_READ (R260, R278): the shift of a ROM response's entry, and the entry of an interpolator phase, are not stated
and are free (log entry 14). -/
def opCoefRomRead : OpDef :=
  OpDef.mk 0 (fun _ => false) (lenIs 4) false (fun _ _ b => if 127 < u8 b 0 then .at_ 0 else .ok []) fun _ _ s b =>
    let i := u8 b 0
    let co (l : List Int) : Bytes := l.flatMap fun x => be 4 (unsgn 32 x)
    if i < 64 then
      let (ty, m, n, g, c) := romEntry i
      let e := be 1 (ty * 16 + m) ++ be 1 (128 + i) ++ be 2 (s.draw 5 * 2048 + n) ++ (if ty = 2 then be 2 g ++ be 2 c else zeros 4)
      Done.res s.drawn (e ++ co (romCoefs i))
    else Done.res s.drawn (s.drawBytes 8 ++ co (phaseCoefs (i - 64)))

/-- COEF_CHAIN_STATUS (R280). -/
def opCoefChainStatus : OpDef :=
  OpDef.mk 0 (fun _ => false) (lenIs 4) false (fun _ s b => if (s.chainAt b).isSome then .ok [] else .at_ 0) fun _ _ s b =>
    match s.chainAt b with
    | some c => Done.res s (s.chainRec c)
    | none => Done.ok s

/-! ### The FCE registers that mirror chains (R267, R282) -/

/-- The chain in a slot of an engine, with its leg and node. -/
def State.slotChain (s : State) (e n : Nat) : Option (Nat × Nat × Chain) :=
  (s.legs.flatMap fun p => (p.2.med.chains.filter fun c => c.2.eng == e && c.2.slot == n).map fun c => (p.1, c.1, c.2)).head?

/-- The registers of the filter chain engines that mirror chains and the store. -/
def fceSlotView (s : State) (_i2c : Bool) (a : Nat) : Option Nat :=
  let e := (a - 0x70000) / 0x1000
  let o := (a - 0x70000) % 0x1000
  let c := s.slotChain e (s.fld (R.FCE_SLOT_SEL_SLOT e))
  let get (f : Nat → Chain → Nat) : Option Nat := some (match c with | some (l, _, x) => f l x | none => 0)
  let g (x : Chain) : Nat := groupDelay x.fIn ((s.banks x).of x.live).stages x.en
  if o = 0x008 then some (s.slotsUsed e)
  else if o = 0x010 then some 0
  else if o = 0x024 then get fun l x =>
    2 ^ 31 + b2n x.live * 2 ^ 30 + b2n x.fading * 2 ^ 29 + b2n x.swap.isSome * 2 ^ 28 + b2n (0 < x.suppr) * 2 ^ 27 +
      b2n x.fadeOk * 2 ^ 26 + x.layout.length * 2 ^ 22 + rateCode x.fIn * 2 ^ 20 + rateCode (chainOut x.fIn x.layout) * 2 ^ 18 + l
  else if o = 0x028 then get fun _ x => g x
  else if o = 0x02C then get fun _ x => gdNs x.fIn (g x)
  else if o = 0x030 then get fun _ x => x.settle
  else if o = 0x034 then get fun _ x => x.suppr
  else if o = 0x038 then get fun _ x => b2n x.en * 2 ^ 31 + x.d * 64 + x.phi
  else if o = 0x03C then get fun _ x => x.lateness
  else if o = 0x800 then some (s.sets.length * 2 ^ 16 + s.granUsed)
  else none

/-- CHAN_ENABLE. -/
def execChanEnable (q : Req) (s : State) : Host.Outcome State Fault Refusal := .next (runOp opChanEnable 0x0301 q s)

/-- CHAN_DISABLE. -/
def execChanDisable (q : Req) (s : State) : Host.Outcome State Fault Refusal := .next (runOp opChanDisable 0x0302 q s)

/-- CHAN_GRAPH. -/
def execChanGraph (q : Req) (s : State) : Host.Outcome State Fault Refusal := .next (runOp opChanGraph 0x0303 q s)

/-- CHAN_FLOW_ADD. -/
def execChanFlowAdd (q : Req) (s : State) : Host.Outcome State Fault Refusal := .next (runOp opChanFlowAdd 0x0304 q s)

/-- CHAN_FLOW_DEL. -/
def execChanFlowDel (q : Req) (s : State) : Host.Outcome State Fault Refusal := .next (runOp opChanFlowDel 0x0305 q s)

/-- CHAN_EGRESS. -/
def execChanEgress (q : Req) (s : State) : Host.Outcome State Fault Refusal := .next (runOp opChanEgress 0x0306 q s)

/-- CHAN_KEY. -/
def execChanKey (q : Req) (s : State) : Host.Outcome State Fault Refusal := .next (runOp opChanKey 0x0307 q s)

/-- CHAN_PLAYOUT. -/
def execChanPlayout (q : Req) (s : State) : Host.Outcome State Fault Refusal := .next (runOp opChanPlayout 0x0308 q s)

/-- CHAN_ECHO. -/
def execChanEcho (q : Req) (s : State) : Host.Outcome State Fault Refusal := .next (runOp opChanEcho 0x0309 q s)

/-- CHAN_ECHO_RESET. -/
def execChanEchoReset (q : Req) (s : State) : Host.Outcome State Fault Refusal := .next (runOp opChanEchoReset 0x030A q s)

/-- CHAN_BRIDGE. -/
def execChanBridge (q : Req) (s : State) : Host.Outcome State Fault Refusal := .next (runOp opChanBridge 0x030B q s)

/-- CHAN_GAIN. -/
def execChanGain (q : Req) (s : State) : Host.Outcome State Fault Refusal := .next (runOp opChanGain 0x030C q s)

/-- CHAN_GROUP. -/
def execChanGroup (q : Req) (s : State) : Host.Outcome State Fault Refusal := .next (runOp opChanGroup 0x030D q s)

/-- CHAN_TONE_CFG. -/
def execChanToneCfg (q : Req) (s : State) : Host.Outcome State Fault Refusal := .next (runOp opChanToneCfg 0x030E q s)

/-- CHAN_TONE_PLAY. -/
def execChanTonePlay (q : Req) (s : State) : Host.Outcome State Fault Refusal := .next (runOp opChanTonePlay 0x030F q s)

/-- CHAN_TONE_STOP. -/
def execChanToneStop (q : Req) (s : State) : Host.Outcome State Fault Refusal := .next (runOp opChanToneStop 0x0310 q s)

/-- CHAN_CODEC. -/
def execChanCodec (q : Req) (s : State) : Host.Outcome State Fault Refusal := .next (runOp opChanCodec 0x0311 q s)

/-- CHAN_RTCP. -/
def execChanRtcp (q : Req) (s : State) : Host.Outcome State Fault Refusal := .next (runOp opChanRtcp 0x0312 q s)

/-- CHAN_CLEAR. -/
def execChanClear (q : Req) (s : State) : Host.Outcome State Fault Refusal := .next (runOp opChanClear 0x0313 q s)

/-- CHAN_CONF_CREATE. -/
def execChanConfCreate (q : Req) (s : State) : Host.Outcome State Fault Refusal := .next (runOp opChanConfCreate 0x0320 q s)

/-- CHAN_CONF_DELETE. -/
def execChanConfDelete (q : Req) (s : State) : Host.Outcome State Fault Refusal := .next (runOp opChanConfDelete 0x0321 q s)

/-- CHAN_CONF_JOIN. -/
def execChanConfJoin (q : Req) (s : State) : Host.Outcome State Fault Refusal := .next (runOp opChanConfJoin 0x0322 q s)

/-- CHAN_CONF_LEAVE. -/
def execChanConfLeave (q : Req) (s : State) : Host.Outcome State Fault Refusal := .next (runOp opChanConfLeave 0x0323 q s)

/-- CHAN_STATUS. -/
def execChanStatus (q : Req) (s : State) : Host.Outcome State Fault Refusal := .next (runOp opChanStatus 0x0381 q s)

/-- CHAN_CONF_STATUS. -/
def execChanConfStatus (q : Req) (s : State) : Host.Outcome State Fault Refusal := .next (runOp opChanConfStatus 0x0382 q s)

/-- GRAPH_DEFINE. -/
def execGraphDefine (q : Req) (s : State) : Host.Outcome State Fault Refusal := .next (runOp opGraphDefine 0x0401 q s)

/-- GRAPH_DELETE. -/
def execGraphDelete (q : Req) (s : State) : Host.Outcome State Fault Refusal := .next (runOp opGraphDelete 0x0402 q s)

/-- GRAPH_CPT_DEFINE. -/
def execGraphCptDefine (q : Req) (s : State) : Host.Outcome State Fault Refusal := .next (runOp opGraphCptDefine 0x0403 q s)

/-- GRAPH_INFO. -/
def execGraphInfo (q : Req) (s : State) : Host.Outcome State Fault Refusal := .next (runOp opGraphInfo 0x0481 q s)

/-- COEF_SET_LOAD. -/
def execCoefSetLoad (q : Req) (s : State) : Host.Outcome State Fault Refusal := .next (runOp opCoefSetLoad 0x0501 q s)

/-- COEF_SET_FREE. -/
def execCoefSetFree (q : Req) (s : State) : Host.Outcome State Fault Refusal := .next (runOp opCoefSetFree 0x0502 q s)

/-- COEF_BANK. -/
def execCoefBank (q : Req) (s : State) : Host.Outcome State Fault Refusal := .next (runOp opCoefBank 0x0503 q s)

/-- COEF_SWAP. -/
def execCoefSwap (q : Req) (s : State) : Host.Outcome State Fault Refusal := .next (runOp opCoefSwap 0x0504 q s)

/-- COEF_SWAP_CANCEL. -/
def execCoefSwapCancel (q : Req) (s : State) : Host.Outcome State Fault Refusal := .next (runOp opCoefSwapCancel 0x0505 q s)

/-- COEF_PHASE. -/
def execCoefPhase (q : Req) (s : State) : Host.Outcome State Fault Refusal := .next (runOp opCoefPhase 0x0506 q s)

/-- COEF_SYNC_RESET. -/
def execCoefSyncReset (q : Req) (s : State) : Host.Outcome State Fault Refusal := .next (runOp opCoefSyncReset 0x0507 q s)

/-- COEF_SET_INFO. -/
def execCoefSetInfo (q : Req) (s : State) : Host.Outcome State Fault Refusal := .next (runOp opCoefSetInfo 0x0581 q s)

/-- COEF_ROM_READ. -/
def execCoefRomRead (q : Req) (s : State) : Host.Outcome State Fault Refusal := .next (runOp opCoefRomRead 0x0582 q s)

/-- COEF_CHAIN_STATUS. -/
def execCoefChainStatus (q : Req) (s : State) : Host.Outcome State Fault Refusal := .next (runOp opCoefChainStatus 0x0583 q s)

end Sys2Proof.Machine
end

