-- ==== Sys2Proof/Machine/GlnCore.lean ====
section
/-! DEFINITION. The gleaner's slices as other blocks see them (R503-R511, R521): units under test, cuts and result records. -/

namespace Sys2Proof.Machine

open Sys2Proof

/-- Replace the gleaner. -/
def State.setGln (s : State) (x : Gln) : State := { s with gln := x }

/-- The key of a unit. -/
def unitKey (cls idx : Nat) : Nat := cls * 4096 + idx

/-- What the gleaner keeps of a unit. -/
def State.unitT (s : State) (cls idx : Nat) : UnitT := kgetD s.gln.units (unitKey cls idx) ⟨0, 7, 0, none, false, false, false, 0⟩

/-- Replace it. -/
def State.setUnitT (s : State) (cls idx : Nat) (u : UnitT) : State :=
  s.setGln { s.gln with units := kset s.gln.units (unitKey cls idx) u }

/-- The slice that runs on a unit. -/
def State.sliceOn (s : State) (cls idx : Nat) : Option Slice := s.gln.run.find? fun r => r.cls == cls && r.idx == idx

/-- Whether a unit is under a logic slice. -/
def State.underTest (s : State) (cls idx : Nat) : Bool := (s.sliceOn cls idx).isSome

/-- Whether a unit takes no work because a FAIL of it awaits confirmation (R511). -/
def State.awaiting (s : State) (cls idx : Nat) : Bool := (s.unitT cls idx).await.isSome

/-- The classes whose slices are memory slices (R503). -/
def memCls (cls : Nat) : Bool := cls == 5 || cls == 6

/-- Segments of a memory unit (R503). -/
def segsOf (cls : Nat) : Nat := if cls = 5 then 128 else 16

/-- The number of the swath in progress (R33): the one it had when it began, whatever L a write has set since (R35). -/
def State.swn (s : State) : Nat := s.swt.q % 2 ^ 32

/-- Queue a result record (R521). -/
def State.glnRecord (s : State) (r : Slice) (verdict cause done : Nat) (sig : Bytes) : State :=
  let m := memCls r.cls
  let ix := if m then r.idx * segsOf r.cls + r.seg else r.idx
  let b := timeBytes s.now ++ be 1 (b2n m * 64 + verdict * 8 + cause) ++ be 1 r.cls ++ be 2 ix ++ be 2 r.num ++ be 2 done ++
    sig ++ zeros (8 - sig.length) ++ be 4 s.swn
  if 64 ≤ s.gln.recs.length then (s.bump R.GLN_REC_DROP_CNT).raise R.GLN_EVT 0x40
  else s.setGln { s.gln with recs := s.gln.recs ++ [b] }

/-- A slice leaves the running ones; SWT of engines and cores follows in their own blocks. Its restore leaves a core's TLB empty (R504). -/
def State.dropSlice (s : State) (r : Slice) : State :=
  let t0 := s.setGln { s.gln with run := s.gln.run.filter (· != r) }
  let t : State := if r.cls = 0 then { t0 with mmu := { t0.mmu with tlb := kset t0.mmu.tlb r.idx [] } } else t0
  t.setFld R.GLN_STAT_RUN (b2n (!t.gln.run.isEmpty))

/-- A logic slice has applied its last pattern: 40,960 ns of patterns after 1,500 ns (R504, R510). -/
def State.sliceFull (s : State) (r : Slice) : Bool := !memCls r.cls && decide (42460 ≤ (s.loc - r.start) / 65536)

/-- A slice is cut short before its end (R508, R509): for service it is ABORTED, for another cause INCOMPLETE. How far it came
follows from the local time since its start. A request for service from the last pattern on cuts nothing: the slice is complete, its
verdict comes at its end, and the unit serves (R510). -/
def State.cutSlice (s : State) (r : Slice) (cause : Nat) : State :=
  if cause = 1 ∧ s.sliceFull r then s else
  let ns := (s.loc - r.start) / 65536
  let done := if memCls r.cls then min 6 (s.draw 3) else min 4096 ((ns - 1500) / 10)
  let v := if cause = 1 then 3 else 2
  let s0 := s.setGln { s.gln with cut := s.gln.cut.filter (· != unitKey r.cls r.idx) ++ [unitKey r.cls r.idx] }
  let t := (s0.dropSlice r).glnRecord r v cause done (if memCls r.cls then [] else s.drawBytes 8)
  let u := t.unitT r.cls r.idx
  ((t.setUnitT r.cls r.idx { u with verdict := v }).drawn).bump (if cause = 1 then R.GLN_ABORT_CNT else R.GLN_INCOMPLETE_CNT)

end Sys2Proof.Machine
end

