-- ==== Sys2Proof/Machine/Mem.lean ====
section
/-! DEFINITION. The physical space (R369) as a list of cells in one canonical form. An address that is not listed reads
as 0 (log entry 3). -/

namespace Sys2Proof.Machine

open Sys2Proof

/-- What an address that nothing has written reads as (log entry 3). -/
def Memory.blank : Byte := 0

/-- The byte at a physical address. -/
def Memory.get : List Host.Cell → Nat → Byte
  | [], _ => Memory.blank
  | (b, w) :: r, a => if b = a then w else if a < b then Memory.blank else Memory.get r a

/-- Write a byte; the canonical form stays: addresses rising, no cell that reads as an unlisted one. -/
def Memory.set : List Host.Cell → Nat → Byte → List Host.Cell
  | [], a, v => if v = Memory.blank then [] else [(a, v)]
  | (b, w) :: r, a, v =>
    if a < b then (if v = Memory.blank then (b, w) :: r else (a, v) :: (b, w) :: r)
    else if a = b then (if v = Memory.blank then r else (a, v) :: r)
    else (b, w) :: Memory.set r a v

/-- Addresses rise and lie above `lo`, and no cell is blank. -/
def Memory.wfFrom : Nat → List Host.Cell → Bool
  | _, [] => true
  | lo, (a, v) :: r => decide (lo ≤ a) && v != Memory.blank && Memory.wfFrom (a + 1) r

/-- The canonical form. -/
def Memory.wf (m : List Host.Cell) : Bool := Memory.wfFrom 0 m

/-- GiB of HBM present (R369). -/
def State.hbmGib (s : State) : Nat := s.fld R.MMU_HBM_STACKS * 24

/-- Where the HBM, and with it the leg backing store, begins (R369, R370). -/
def hbmBase : Nat := 0x1000000000

/-- Bytes of a GiB. -/
def gib : Nat := 0x40000000

/-- Where the granary begins: at the end of the leg backing store (R370). -/
def State.grnBase (s : State) : Nat := hbmBase + s.fld R.MMU_HBM_LBS_GIB * gib

/-- Where the pattern store begins: at the end of the granary (R370). -/
def State.patBase (s : State) : Nat := s.grnBase + s.fld R.MMU_HBM_GRN_GIB * gib

/-- Where the pattern store ends (R370). -/
def State.patEnd (s : State) : Nat := s.patBase + s.fld R.MMU_HBM_PAT_GIB * gib

/-- The regions of the HBM (R28, R370). -/
inductive HbmRegion where
  | legBacking
  | granary
  | pattern
  deriving DecidableEq, Repr

/-- The region of the HBM in which a physical address lies (R370). -/
def State.hbmRegion (s : State) (pa : Nat) : Option HbmRegion :=
  if pa < hbmBase then none
  else if pa < s.grnBase then some .legBacking
  else if pa < s.patBase then some .granary
  else if pa < s.patEnd then some .pattern
  else none

/-- Whether a physical address exists (R369): loft, local memory, the HBM of the stacks in use. -/
def State.paOk (s : State) (pa : Nat) : Bool :=
  decide (pa < 0x14000000) ||
    (decide (hbmBase ≤ pa) && decide (pa < hbmBase + s.hbmGib * gib))

/-! ### The loft (R371) -/

/-- The uses of the loft (R371). -/
inductive LoftUse where
  | mailboxes
  | coefStore
  | system
  | stagePool
  | general
  deriving DecidableEq, Repr

/-- Where the coefficient store, the system area and the stage pool begin (R371). -/
def coefBase : Nat := 0xC00000
def sysBase : Nat := 0x1400000
def poolBase : Nat := 0x2000000

/-- The first address behind the loft (R369). -/
def loftEnd : Nat := 0x10000000

/-- The first address after a stage pool of `kib` KiB (R371). -/
def poolEnd (kib : Nat) : Nat := poolBase + kib * 1024

/-- What a physical address of the loft is used for (R371). -/
def State.loftUse (s : State) (pa : Nat) : Option LoftUse :=
  if pa < coefBase then some .mailboxes
  else if pa < sysBase then some .coefStore
  else if pa < poolBase then some .system
  else if pa < poolEnd (s.fld R.SWT_LOFT_BUD_KIB) then some .stagePool
  else if pa < loftEnd then some .general
  else none

/-- Where the local memories begin (R369). -/
def localBase : Nat := 0x10000000

/-- Where the replay reserve lies: the spec puts it and the two halves of the swath log into the system area and says no more, and the model
puts it behind the log (R408, R412; DESIGN CHOICE, log entry 95). -/
def rsvBase : Nat := sysBase + 0x600000

/-- The lowest place of `size` bytes in a range that none of the spans in use (address, bytes) overlaps; the range's start where there is
none (DESIGN CHOICE, log entry 95). -/
def firstFit (lo hi size : Nat) (used : List (Nat × Nat)) : Nat :=
  let free (c : Nat) : Bool := used.all fun u => decide (c + size ≤ u.1) || decide (u.1 + u.2 ≤ c)
  let cs := (lo :: used.map fun u => u.1 + u.2).filter fun c => decide (lo ≤ c ∧ c + size ≤ hi) && free c
  match cs with | [] => lo | c :: r => r.foldl min c

/-! ### Pin counts (R383) -/

/-- The pin count of a 4 KiB frame. -/
def State.pinOf (s : State) (f : Nat) : Nat := kgetD s.mmu.pins f 0

/-- Set the pin count of a frame. -/
def State.setPin (s : State) (f n : Nat) : State :=
  s.setMmu { s.mmu with pins := if n = 0 then kdel s.mmu.pins f else kset s.mmu.pins f n }

/-- The 4 KiB frames of a physical range. -/
def framesOf (pa len : Nat) : List Nat :=
  (List.range (if len = 0 then 0 else (pa + len - 1) / 4096 - pa / 4096 + 1)).map (pa / 4096 + ·)

/-- The kennel's descriptors raise and lower the pin counts of an area (R396, R397). -/
def State.pinArea (s : State) (pa len : Nat) : State := (framesOf pa len).foldl (fun t f => t.setPin f (min 255 (t.pinOf f + 1))) s
def State.unpinArea (s : State) (pa len : Nat) : State := (framesOf pa len).foldl (fun t f => t.setPin f (t.pinOf f - 1)) s

/-- The byte at a physical address. -/
def State.memByte (s : State) (pa : Nat) : Byte := Memory.get s.mmu.mem pa

/-- Write a byte of physical memory. -/
def State.memSet (s : State) (pa : Nat) (v : Byte) : State := s.setMmu { s.mmu with mem := Memory.set s.mmu.mem pa v }

/-- `n` bytes from a physical address. -/
def State.memRead (s : State) (pa n : Nat) : Bytes := (List.range n).map fun i => s.memByte (pa + i)

/-- Write bytes from a physical address on. -/
def State.memWrite (s : State) (pa : Nat) (b : Bytes) : State :=
  b.zipIdx.foldl (fun t (p : Byte × Nat) => t.memSet (pa + p.2) p.1) s

end Sys2Proof.Machine
end

