-- ==== Sys2Proof/Machine/Knl.lean ====
section
/-! DEFINITION. The kennel (R340-R368): task entries, ready lists, dispatch, pre-emption, back-pressure, registers. -/

namespace Sys2Proof.Machine

open Sys2Proof

/-! ### Entries and cores (R340-R343, R374) -/

/-- A task entry of a kind with nothing in it. -/
def Task.init (kind prio cluster : Nat) : Task :=
  { kind := kind, leg := none, st := .waiting, prio := prio, cluster := cluster, core := none, rdy := 0, madeAt := 0,
    ranAt := 0, used := 0, seen := false, staged := true, parcel := false, reason := 0, sid := false, pkt := none, tel := [], ts := 0,
    b := 0, work := none, ing := none, data := [], attempts := 0, notCore := 128, notEng := none, logOff := none, rsv := 0, eng := none, frame := 0,
    frecs := [], calls := [], ranOn := [], callNo := 0, remote := [], wait := 0, waitOn := 0, rsvAt := 0, ctx := 0 }

/-- A core in service that runs nothing. -/
def Core.init : Core :=
  { run := none, held := [], mapped := false, slice := false, hung := false, tasks := 0, busy := 0, lastTasks := 0, lastBusy := 0 }

/-- The entry of a number. -/
def State.task (s : State) (i : Nat) : Option Task := kget s.knl.tasks i

/-- Replace an entry. -/
def State.setTask (s : State) (i : Nat) (t : Task) : State := s.setKnl { s.knl with tasks := kset s.knl.tasks i t }

/-- A task's call at an engine is given up. -/
def State.dropCall (s : State) (i : Nat) : State := { s with engQ := s.engQ.filter fun q => q.task != i }

/-- Free an entry (R342). -/
def State.freeTask (s : State) (i : Nat) : State := (s.setKnl { s.knl with tasks := kdel s.knl.tasks i }).dropCall i

/-- The core of an index. -/
def State.core (s : State) (c : Nat) : Core := kgetD s.knl.cores c Core.init

/-- Replace a core. -/
def State.setCore (s : State) (c : Nat) (x : Core) : State := s.setKnl { s.knl with cores := kset s.knl.cores c x }

/-- The pool of a kind: 0 FRAME, 1 SYS, 2 SHARED (R341). -/
def poolOf (kind : Nat) : Nat := if kind ≤ 1 then 0 else if kind ≤ 3 then 2 else 1

/-- The entries in use of a pool. -/
def State.poolUsed (s : State) (p : Nat) : Nat := (s.knl.tasks.filter fun t => poolOf t.2.kind == p).length

/-- The priority of a kind (R341). -/
def State.priOf (s : State) (kind : Nat) : Nat :=
  match kind with
  | 0 => s.fld R.KNL_PRI_FRAME | 1 => s.fld R.KNL_PRI_REPLAY | 2 => s.fld R.KNL_PRI_PARCEL
  | 3 => s.fld R.KNL_PRI_REPORT | 4 => s.fld R.KNL_PRI_FW | _ => s.fld R.KNL_PRI_BG

/-- Record the peak of a pool. -/
def State.poolPeak (s : State) (p : Nat) : State :=
  let f := match p with | 0 => R.KNL_POOL_FRAME_PEAK | 1 => R.KNL_POOL_SYS_PEAK | _ => R.KNL_POOL_SHR_PEAK_PEAK
  s.setFld f (max (s.fld f) (s.poolUsed p))

/-- Create an entry (R340, R368). -/
def State.mkTask (s : State) (t : Task) : State × Nat :=
  let i := s.knl.nextId
  let s1 := s.setKnl { s.knl with tasks := kset s.knl.tasks i t, nextId := i + 1 }
  ((s1.poolPeak (poolOf t.kind)).bump R.KNL_CREATE_CNT, i)

/-- Whether a kind is a media task (R341). -/
def mediaKind (k : Nat) : Bool := decide (k ≤ 2)

/-- Whether media tasks may be dispatched now: from the boundary to the Work deadline (R351). -/
def State.mediaWindow (s : State) : Bool := s.swt.begun && !s.pastDeadline

/-- The cycles at 2.0 GHz of the current swath that a running task has had (R351, R367). -/
def State.ranIn (s : State) (t : Task) : Nat := (s.loc - max t.ranAt (s.swt.bLoc / 2 ^ 24)) * 2 / 65536

/-- The BACKGROUND cycles of the current swath, those of running tasks included (R351). -/
def State.bgUsed (s : State) : Nat :=
  s.knl.bgCyc + sumL ((s.knl.tasks.filter fun t => t.2.kind == 5 && t.2.st == .running).map fun t => s.ranIn t.2)

/-- Whether the BACKGROUND cycles of the current swath are below 1% of N_core * 2 * L (R351). -/
def State.bgFree (s : State) : Bool := decide (s.bgUsed * 100 < s.fld R.SWT_UNITS_N_CORE * 2 * s.lenNs)

/-- Whether a task may be dispatched as to its kind. -/
def State.kindOk (s : State) (t : Task) : Bool :=
  (if mediaKind t.kind then s.mediaWindow else true) && (if t.kind = 5 then s.bgFree else true)

/-! ### Ready lists and dispatch (R344-R349) -/

/-- The better of two ready tasks: the higher priority, then the one made ready earlier. -/
def better (a b : Nat × Task) : Bool :=
  decide (b.2.prio < a.2.prio) || (a.2.prio == b.2.prio && decide (a.2.rdy < b.2.rdy))

/-- The best of a list of ready tasks. -/
def bestTask : List (Nat × Task) → Option (Nat × Task)
  | [] => none
  | x :: r => match bestTask r with
    | none => some x
    | some y => if better y x then some y else some x

/-- The tasks that wait to resume on a core (R349). -/
def State.resumable (s : State) (c : Nat) : List (Nat × Task) :=
  s.knl.tasks.filter fun t => t.2.core == some c && (t.2.st == .preempted || t.2.st == .ready) && s.kindOk t.2

/-- Task frames of a core that are not free (R374): each task holds one, and one is marked in use by a memory slice (R506). -/
def State.framesUsed (s : State) (c : Nat) : Nat := (s.core c).held.length + b2n (s.underTest 6 c)

/-- The task frames of a core that hold contexts (R374). -/
def State.framesHeld (s : State) (c : Nat) : List Nat := (s.core c).held.filterMap fun i => (s.task i).map (·.frame)

/-- The task frame that a task takes on a core: the lowest that is free and not marked by a memory slice, which tests half of one (R374, R506). -/
def State.frameFor (s : State) (c : Nat) : Nat :=
  let marked := (s.sliceOn 6 c).map fun r => r.num / 2
  ((List.range 8).find? fun k => !(s.framesHeld c).contains k && marked != some k).getD 0

/-- The ready tasks that core `c` may take anew from clusters that a test accepts (R346, R413). -/
def State.takable (s : State) (c : Nat) (cl : Nat → Bool) : List (Nat × Task) :=
  if 8 ≤ s.framesUsed c then []
  else s.knl.tasks.filter fun t => t.2.st == .ready && t.2.core.isNone && cl t.2.cluster && t.2.notCore != c && s.kindOk t.2

/-- The priority of a choice, one more than its number, and 0 for none. -/
def prioOf (t : Option (Nat × Task)) : Nat := match t with | some x => x.2.prio + 1 | none => 0

/-- What a free core takes next (R346, R349). -/
def State.pickFor (s : State) (c : Nat) : Option (Nat × Task) :=
  let held := bestTask (s.resumable c)
  let own := bestTask (s.takable c (· == c / 16))
  let loc := if prioOf own ≤ prioOf held then held else own
  let oth := if s.flag R.KNL_CFG_STEAL then bestTask (s.takable c (· != c / 16)) else none
  if prioOf loc < prioOf oth then oth else loc

/-- Whether a core can take a task now. -/
def State.coreFree (s : State) (c : Nat) : Bool :=
  let x := s.core c
  x.run.isNone && !x.mapped && !x.slice && !x.hung && !s.awaiting 0 c

/-- The bin of a waiting time (R365). -/
def histBin (ns : Nat) : Nat := ((List.range 15).find? fun k => decide (ns < 64 * 2 ^ k)).getD 15

/-- Count a first dispatch in the histogram (R365). -/
def State.histCount (s : State) (t : Task) : State :=
  if s.flag R.KNL_HIST_SEL_ALL ∨ s.fld R.KNL_HIST_SEL_PRI = t.prio then
    let k := histBin ((s.loc - t.madeAt) / 65536)
    s.setReg (R.KNL_HIST k) (min (2 ^ 32 - 1) (s.reg (R.KNL_HIST k) + 1))
  else s

/-- The working copy with which a media task starts (R37, R39). -/
def State.workOf (s : State) (l : Nat) : Work :=
  { med := (s.leg l).med, outs := [], frame := [], noTx := false, taps := [], evts := [], encSid := false }

/-- Dispatch a task on a core (R346, R349, R374). -/
def State.dispatch (s : State) (c i : Nat) (t : Task) : State :=
  let x := s.core c
  let s1 := if t.seen then s else s.histCount t
  let s2 := if t.core.isNone ∧ t.cluster ≠ c / 16 then s1.bump R.KNL_STEAL_CNT else s1
  let w := match t.work, t.leg with
    | none, some l => if t.kind ≤ 1 then some (s.workOf l) else none
    | w, _ => w
  let frame := if t.core = some c then t.frame else s.frameFor c
  let t' := { t with st := .running, core := some c, frame := frame, ranAt := s.loc, seen := true, work := w, ranOn := t.ranOn ++ [(0, c)] }
  let held := if x.held.contains i then x.held else x.held ++ [i]
  ((s2.setTask i t').setCore c { x with run := some i, held := held, tasks := x.tasks + 1 }).bump R.KNL_DISPATCH_CNT

/-- A free core takes its next task, if any (R346). -/
def State.coreTake (s : State) (c : Nat) : State :=
  if s.coreFree c then match s.pickFor c with
    | some (i, t) => s.dispatch c i t
    | none => s
  else s

/-- The cycles at 2.0 GHz that a running task has had since it was dispatched. -/
def State.ranFor (s : State) (t : Task) : Nat := (s.loc - t.ranAt) * 2 / 65536

/-- The task of a core stops running there: its cycles of this swath are counted (R351, R367). -/
def State.stopRun (s : State) (c : Nat) : State :=
  let x := s.core c
  match x.run.bind fun i => (s.task i).map (i, ·) with
  | none => s
  | some (_, t) =>
    let cyc := s.ranIn t
    let s1 := s.setCore c { x with run := none, busy := x.busy + cyc }
    if t.kind = 5 then s1.setKnl { s1.knl with bgCyc := s1.knl.bgCyc + cyc } else s1

/-- A task gives its task frame back. -/
def State.giveFrame (s : State) (i : Nat) : State :=
  match (s.task i).bind (·.core) with
  | some c =>
    let s1 := if (s.core c).run = some i then s.stopRun c else s
    s1.setCore c { s1.core c with held := (s1.core c).held.filter (· != i) }
  | none => s

/-- Whether a core is the one that holds a task's context, for a task that has one (R349); none for a task without. -/
def Task.holds (t : Task) (c : Nat) : Option Bool := t.core.map (· == c)

/-- Whether an idle core may take a task (R346, R349). -/
def State.idleFor (s : State) (t : Task) (c : Nat) : Bool :=
  s.coreFree c && (t.holds c).getD (decide (s.framesUsed c < 8) && t.notCore != c && (t.cluster == c / 16 || s.flag R.KNL_CFG_STEAL) &&
    decide (prioOf (bestTask (s.resumable c)) ≤ t.prio))

/-- The cores in the order in which a task looks for one: its home cluster first (log entry 18). -/
def coreOrder (cluster : Nat) : List Nat :=
  (List.range 16).map (cluster * 16 + ·) ++ (List.range 128).filter fun c => c / 16 != cluster

/-- The core that a task pre-empts (R347, R349): home cluster first, then lowest priority, earliest dispatch, lowest number; a task whose
context lies on a core pre-empts that one only. -/
def State.victim (s : State) (t : Task) : Option Nat :=
  let thr := s.fld R.KNL_PREEMPT_THR
  let cands := (List.range 128).filterMap fun c =>
    let x := s.core c
    match x.run.bind s.task with
    | some r => if r.prio < t.prio ∧ r.prio < thr ∧ x.mapped = false ∧ x.hung = false ∧ (t.holds c).getD (decide (s.framesUsed c < 8 ∧ t.notCore ≠ c)) then some (c, r) else none
    | none => none
  let home := cands.filter fun p => p.1 / 16 == t.cluster
  let pool := if home.isEmpty then cands else home
  let best := pool.foldl (fun (b : Option (Nat × Task)) p => match b with
    | none => some p
    | some q => if p.2.prio < q.2.prio ∨ (p.2.prio = q.2.prio ∧ p.2.ranAt < q.2.ranAt) then some p else some q) none
  if thr ≤ t.prio then best.map (·.1) else none

/-- Abort the core slice started most recently for a task, on a core that may take it (R349, R353, R508). -/
def State.abortCoreSlice (s : State) (t : Task) : Option (State × Nat) :=
  let runs := s.gln.run.filter fun r => r.cls == 0 && !r.conf && !r.hang &&
    (t.holds r.idx).getD (decide (s.framesUsed r.idx < 8) && t.notCore != r.idx && (t.cluster == r.idx / 16 || s.flag R.KNL_CFG_STEAL))
  let last := runs.foldl (fun (b : Option Slice) r => match b with
    | none => some r
    | some q => if q.start ≤ r.start then some r else some q) none
  last.map fun r =>
    let s1 := s.cutSlice r 1
    let s2 := s1.setCore r.idx { s1.core r.idx with slice := false }
    (if s.sliceFull r then s2 else (s2.bump R.KNL_GLN_ABORT_CNT).raise R.KNL_EVT 8, r.idx)

/-- A task enters its ready list (R344, R351, R367); a media task outside its window stays WAITING. -/
def State.enterReady (s : State) (i : Nat) : State :=
  match s.task i with
  | none => s
  | some t0 =>
    let made := if t0.seen then t0.madeAt else s.loc
    if mediaKind t0.kind ∧ s.mediaWindow = false then s.setTask i { t0 with st := .waiting, madeAt := made }
    else
      let t := { t0 with st := .ready, prio := s.priOf t0.kind, rdy := s.knl.rdySeq, madeAt := made }
      (s.setTask i t).setKnl { (s.setTask i t).knl with rdySeq := s.knl.rdySeq + 1 }

/-- A core's task is pre-empted by another (R347). -/
def State.preempt (s : State) (c i : Nat) (t : Task) : State :=
  match (s.core c).run.bind fun j => (s.task j).map (j, ·) with
  | some (j, r) =>
    let s2 := (s.stopRun c).setTask j { r with st := .preempted, used := r.used + s.ranFor r, rdy := (s.stopRun c).knl.rdySeq }
    let s3 := (s2.setKnl { s2.knl with rdySeq := s2.knl.rdySeq + 1 }).bump R.KNL_PREEMPT_CNT
    s3.dispatch c i t
  | none => s

/-- The kennel acts on a task that has become READY (R347, R349): it is dispatched, pre-empts, or waits in its list. -/
def State.placeTask (s : State) (i : Nat) : State :=
  match s.task i with
  | none => s
  | some t =>
    if t.st ≠ .ready ∨ s.kindOk t = false then s
    else match (coreOrder t.cluster).find? (s.idleFor t) with
      | some c => s.dispatch c i t
      | none => match s.victim t with
        | some c => s.preempt c i t
        | none => match s.abortCoreSlice t with
          | some (s2, c) => s2.dispatch c i t
          | none => s

/-- A task becomes READY (R344, R347, R349, R351, R367). -/
def State.makeReady (s : State) (i : Nat) : State := (s.enterReady i).placeTask i

/-- Make ready the waiting tasks that a test accepts: they enter their lists in ascending leg id, tasks without a leg after them (R344), and the
most urgent are acted on first (R346). -/
def State.readyAll (s : State) (p : Task → Bool) : State :=
  let ts := s.knl.tasks.filter fun t => t.2.st == .waiting && p t.2
  let withLeg := ts.filterMap fun t => t.2.leg.map fun l => (l, t.1)
  let ord := (withLeg.foldl (fun (m : KV Nat) q => kset m q.1 q.2) []).map (·.2)
  let rest := (ts.filter fun t => t.2.leg.isNone).map (·.1)
  let ids := ord ++ rest
  let s1 := ids.foldl (fun st i => st.enterReady i) s
  let urgent := (List.range 16).flatMap fun k => ids.filter fun i => (s1.task i).any (·.prio == 15 - k)
  urgent.foldl (fun st i => st.placeTask i) s1

/-- Every free core takes what it may, lowest number first (R346). -/
def State.wakeCores (s : State) : State := (List.range 128).foldl (fun st c => st.coreTake c) s

/-- A running task is switched out BLOCKED until what it waits for comes (R348, R391). -/
def State.blockRun (s : State) (c wait on : Nat) : State :=
  match (s.core c).run.bind fun i => (s.task i).map (i, ·) with
  | none => s
  | some (i, t) =>
    let s1 := (s.stopRun c).setTask i { t with st := .blocked, used := t.used + s.ranFor t, wait := wait, waitOn := on }
    (s1.bump R.KNL_BLOCK_CNT).coreTake c

/-- Tasks that wait for something become READY again (R348). -/
def State.unblock (s : State) (wait on : Nat) : State :=
  (s.knl.tasks.filter fun t => t.2.st == .blocked && t.2.wait == wait && t.2.waitOn == on).foldl (fun st t =>
    (st.setTask t.1 { t.2 with wait := 0 }).makeReady t.1) s

/-! ### Ends of tasks (R342, R354-R357) -/

/-- Fill or empty the open FRAME slot of a leg's leash (R357). -/
def Leg.fillFrame (x : Leg) (empty : Bool) (frames : List (Nat × Nat × Bool × Bytes)) : Leg :=
  match findIx (fun q => q.kind == 0 && !q.done) x.leash with
  | some i => { x with leash := setAt x.leash i { x.leash.getD i ⟨0, false, false, []⟩ with done := true, empty := empty, frames := frames } }
  | none => x

/-- A task becomes CANCELLED (R354, R355): its slot is released empty. -/
def State.cancelTask (s : State) (i : Nat) : State :=
  match s.task i with
  | none => s
  | some t =>
    let s1 := (((s.giveFrame i).dropCall i).unpinArea t.rsvAt (t.rsv * 1024)).setTask i { t with st := .cancelled, core := none, work := none, rsv := 0 }
    match t.leg with
    | some l => if t.kind ≤ 1 then s1.setLeg l ((s1.leg l).fillFrame true []) else s1
    | none => s1

/-! ### Ingress back-pressure (R360-R362) -/

/-- The entries held for a port and class. -/
def State.ingUsed (s : State) (p n : Nat) : Nat := (s.knl.tasks.filter fun t => t.2.ing == some (p, n)).length

/-- The SHARED pool counts as full for new frames 2,048 entries before its end (R360). -/
def State.sharedFull (s : State) : Bool := decide (241664 - 2048 ≤ s.poolUsed 2)

/-- Whether back-pressure is asserted for a port and class. -/
def State.bpOn (s : State) (p n : Nat) : Bool := s.knl.bp.contains (p * 8 + n)

/-- Assert back-pressure where a creation reaches the mark, outside refusal mode (R360, R362). -/
def State.bpCheck (s : State) (p n : Nat) : State :=
  if s.flag R.KNL_CFG_REFUSE ∨ s.bpOn p n then s
  else if s.fld R.KNL_ING_WM_HI ≤ s.ingUsed p n ∨ s.sharedFull then
    ((s.setKnl { s.knl with bp := s.knl.bp ++ [p * 8 + n] }).bump R.KNL_BP_CNT).raise R.KNL_EVT 1
  else s

/-- Release back-pressure below the low mark once the pool has free entries again (R360). -/
def State.bpRelease (s : State) : State :=
  if s.sharedFull then s
  else s.setKnl { s.knl with bp := s.knl.bp.filter fun k => decide (s.fld R.KNL_ING_WM_LO ≤ s.ingUsed (k / 8) (k % 8)) }

/-- Whether the creation of an ingress entry is refused, in refusal mode (R362). -/
def State.ingRefused (s : State) (p n : Nat) : Bool :=
  s.flag R.KNL_CFG_REFUSE && (decide (s.fld R.KNL_ING_WM_HI ≤ s.ingUsed p n) || decide (241664 ≤ s.poolUsed 2))

/-- The cluster whose lists hold the fewest ready tasks (R345). -/
def State.emptiest (s : State) : Nat :=
  let n (k : Nat) : Nat := (s.knl.tasks.filter fun t => t.2.st == .ready && t.2.cluster == k).length
  ((List.range 8).foldl (fun (b : Nat × Nat) k => if n k < b.2 then (k, n k) else b) (0, n 0)).1

/-- An ingress task (R341, R345, R360, R362): none when refused. -/
def State.mkIngress (s : State) (kind p n : Nat) (data : Bytes) : State × Option Nat :=
  if s.ingRefused p n then ((s.bump R.KNL_REFUSE_CNT).raise R.KNL_EVT 2, none)
  else
    let t := { Task.init kind (s.priOf kind) s.emptiest with ing := some (p, n), data := data }
    let (s1, i) := s.mkTask t
    ((s1.bpCheck p n).makeReady i, some i)

/-! ### FIRMWARE and BACKGROUND tasks (R341, R361, R362) -/

/-- A FIRMWARE or BACKGROUND task gets its entry and becomes READY in the cluster that its producer names (R341, R345). -/
def State.sysNew (s : State) (m : SysMake) : State :=
  let kind := if m.background then 5 else 4
  let (s1, i) := s.mkTask { Task.init kind (s.priOf kind) m.cluster.val with ctx := m.ctx.toNat }
  s1.makeReady i

/-- A creation by the firmware or the background-work block: with the SYS pool full it is held, and in refusal mode refused; the firmware gets
E_BUSY (R361, R362). -/
def State.makeSys (s : State) (m : SysMake) : State :=
  if s.poolUsed 1 < 4096 then s.sysNew m
  else if s.flag R.KNL_CFG_REFUSE then
    let s1 := (s.bump R.KNL_REFUSE_CNT).raise R.KNL_EVT 2
    if m.background then s1 else s1.setKnl { s1.knl with sysSt := s1.knl.sysSt ++ [St.busy] }
  else s.setKnl { s.knl with sysHeld := s.knl.sysHeld ++ [m] }

/-- Held creations take the entries that have become free, in order (R361). -/
def State.sysFreed (s : State) : State :=
  let n := 4096 - s.poolUsed 1
  (s.knl.sysHeld.take n).foldl (fun t m => t.sysNew m) (s.setKnl { s.knl with sysHeld := s.knl.sysHeld.drop n })

/-! ### Registers (R365-R367) -/

/-- The state code of a core in KNL_CORE_STAT. -/
def State.coreCode (s : State) (c : Nat) : Nat :=
  let x := s.core c
  if x.mapped then 4 else if x.slice then 3 else if x.run.isSome then 1 else 0

/-- The registers of the kennel that mirror state. -/
def knlView (s : State) (_i2c : Bool) (a : Nat) : Option Nat :=
  if a = R.KNL_STAT then
    some (b2n (!s.knl.bp.isEmpty) * 2 ^ 16 + ((List.range 128).filter fun c => !(s.core c).mapped).length)
  else if a = R.KNL_POOL_FRAME then some (putBits (s.reg a) 14 0 (s.poolUsed 0))
  else if a = R.KNL_POOL_SYS then some (putBits (s.reg a) 12 0 (s.poolUsed 1))
  else if a = R.KNL_POOL_SHR then some (s.poolUsed 2)
  else if a = R.KNL_CTL then some 0
  else if a = R.KNL_DEPTH then
    some (s.knl.tasks.filter fun t => t.2.st == .ready && t.2.cluster == s.fld R.KNL_DEPTH_SEL_CLUSTER && t.2.prio == s.fld R.KNL_DEPTH_SEL_PRI).length
  else if a = R.KNL_ING_USED then
    let p := s.fld R.KNL_ING_SEL_PORT
    let n := s.fld R.KNL_ING_SEL_CLASS
    some (b2n (s.bpOn p n) * 2 ^ 31 + s.ingUsed p n)
  else if a = R.KNL_CORE_STAT then
    let c := s.fld R.KNL_CORE_SEL_CORE
    let x := s.core c
    some (s.coreCode c * 2 ^ 29 + min 8191 x.lastTasks * 2 ^ 16 + min 4095 (x.lastBusy / 1024))
  else if a = R.KNL_STAGE then some (s.mmu.areas.filter fun r => decide (s.swt.bT < r.b) && (r.st == 0 || r.st == 1 || r.st == 4)).length
  else none

/-- The ranges of R367. -/
def knlRule (_s : State) (a v : Nat) : Option Nat :=
  let bad (b : Bool) : Option Nat := if b then some St.state else none
  if a = R.KNL_PREEMPT then bad (decide (bits v 4 0 < 1 ∨ 16 < bits v 4 0))
  else if a = R.KNL_ING_WM then bad (decide (bits v 31 16 < 1 ∨ bits v 31 16 ≤ bits v 15 0))
  else none

/-- Clear the waiting-time histogram (R365). -/
def State.histClear (s : State) : State := (List.range 16).foldl (fun t k => t.setReg (R.KNL_HIST k) 0) s

/-- The effects of a write (R362, R365, R367). -/
def knlEffect (s : State) (a old v : Nat) : State :=
  if a = R.KNL_CFG then
    let s1 := if tb v 0 ∧ ¬ tb old 0 then s.setKnl { s.knl with bp := [] } else s
    if tb v 1 ∧ ¬ tb old 1 then s1.wakeCores else s1
  else if a = R.KNL_HIST_SEL then (if bits v 4 0 = bits old 4 0 then s else s.histClear)
  else if a = R.KNL_CTL then
    let s1 := if tb v 1 then s.histClear else s
    if tb v 0 then
      let s2 := s1.setFld R.KNL_POOL_FRAME_PEAK (s1.poolUsed 0)
      let s3 := s2.setFld R.KNL_POOL_SYS_PEAK (s2.poolUsed 1)
      s3.setFld R.KNL_POOL_SHR_PEAK_PEAK (s3.poolUsed 2)
    else s1
  else s

end Sys2Proof.Machine
end

