-- ==== Sys2Proof/Machine/Bale.lean ====
section
/-! DEFINITION. Bales (R485, R486): the container, stored blocks, and the expansion of a DEFLATE stream. RFC 1951 is
named by the spec and defined outside it; its arithmetic is PRESUMED from that standard (log entry 10). -/

namespace Sys2Proof.Machine

open Sys2Proof

/-- The bits of a byte sequence, least significant bit of each byte first. -/
def bitsLE (b : Bytes) : List Bool := b.flatMap fun x => (List.range 8).map fun i => x.getLsbD i

/-- The number whose bits come least significant first. -/
def natLE : List Bool → Nat
  | [] => 0
  | b :: r => b2n b + 2 * natLE r

/-- A canonical Huffman code: the number of codes of each length, and the symbols in code order. -/
structure Huff where
  cnt : List Nat
  sym : List Nat
  deriving DecidableEq, Repr

/-- The indices of the elements equal to `l`. -/
def indicesOf (l : Nat) (lens : List Nat) : List Nat := (lens.zipIdx.filter fun p => p.1 == l).map (·.2)

/-- The code that a list of code lengths gives. -/
def Huff.ofLens (lens : List Nat) : Huff :=
  { cnt := (List.range 16).map fun l => if l = 0 then 0 else (indicesOf l lens).length
    sym := (List.range 16).flatMap fun l => if l = 0 then [] else indicesOf l lens }

/-- Whether a code has more codes than its lengths allow. -/
def Huff.oversub (h : Huff) : Bool :=
  ((h.cnt.drop 1).foldl (fun (p : Int × Bool) (c : Nat) =>
    let left := p.1 * 2 - c
    (left, p.2 || decide (left < 0))) (1, false)).2

/-- Decode one symbol: the code read so far, the first code and first index of the length reached. -/
def Huff.decode (h : Huff) : List Nat → Nat → Nat → Nat → List Bool → Option (Nat × List Bool)
  | [], _, _, _, _ => none
  | _ :: _, _, _, _, [] => none
  | c :: cs, code, first, index, b :: bs =>
    let code := code + b2n b
    if code < first + c then (h.sym[index + (code - first)]?).map (·, bs)
    else h.decode cs (code * 2) ((first + c) * 2) (index + c) bs

/-- The next symbol of a bitstream. -/
def Huff.next (h : Huff) (bs : List Bool) : Option (Nat × List Bool) := h.decode (h.cnt.drop 1) 0 0 0 bs

/-- Base and extra bits of the length codes 257 to 285. -/
def lenCodes : List (Nat × Nat) := [(3, 0), (4, 0), (5, 0), (6, 0), (7, 0), (8, 0), (9, 0), (10, 0), (11, 1), (13, 1),
  (15, 1), (17, 1), (19, 2), (23, 2), (27, 2), (31, 2), (35, 3), (43, 3), (51, 3), (59, 3), (67, 4), (83, 4), (99, 4),
  (115, 4), (131, 5), (163, 5), (195, 5), (227, 5), (258, 0)]

/-- Base and extra bits of the distance codes. -/
def distCodes : List (Nat × Nat) := [(1, 0), (2, 0), (3, 0), (4, 0), (5, 1), (7, 1), (9, 2), (13, 2), (17, 3), (25, 3),
  (33, 4), (49, 4), (65, 5), (97, 5), (129, 6), (193, 6), (257, 7), (385, 7), (513, 8), (769, 8), (1025, 9), (1537, 9),
  (2049, 10), (3073, 10), (4097, 11), (6145, 11), (8193, 12), (12289, 12), (16385, 13), (24577, 13)]

/-- Take `n` bits as a number. -/
def takeBits (n : Nat) (bs : List Bool) : Option (Nat × List Bool) :=
  if bs.length < n then none else some (natLE (bs.take n), bs.drop n)

/-- Append `n` bytes copied from distance `d`; the output is held newest byte first. -/
def copyMatch : Nat → Nat → Bytes → Bytes
  | 0, _, out => out
  | n + 1, d, out => copyMatch n d (out.getD (d - 1) 0 :: out)

/-- One code word of a coded block (R493): its kind (0 a literal, 1 the end of the block, 2 a match), the literal or the length, the
distance, and the bits after it; `have_` bytes of output precede it. -/
def codeWord (lit dist : Huff) (bs : List Bool) (have_ : Nat) : Option (Nat × Nat × Nat × List Bool) :=
  match lit.next bs with
  | none => none
  | some (s, bs1) =>
    if s < 256 then some (0, s, 0, bs1)
    else if s = 256 then some (1, 0, 0, bs1)
    else match lenCodes[s - 257]? with
      | none => none
      | some (base, ex) => match takeBits ex bs1 with
        | none => none
        | some (x, bs2) => match dist.next bs2 with
          | none => none
          | some (ds, bs3) => match distCodes[ds]? with
            | none => none
            | some (db, dex) => match takeBits dex bs3 with
              | none => none
              | some (dx, bs4) => if have_ < db + dx then none else some (2, base + x, db + dx, bs4)

/-- The symbols of one coded block, until its end code (fuel: bits left). -/
def inflateCodes (lit dist : Huff) : Nat → List Bool → Bytes → Option (List Bool × Bytes)
  | 0, _, _ => none
  | k + 1, bs, out =>
    match codeWord lit dist bs out.length with
    | none => none
    | some (0, s, _, r) => inflateCodes lit dist k r (byteOf s :: out)
    | some (1, _, _, r) => some (r, out)
    | some (_, n, d, r) => inflateCodes lit dist k r (copyMatch n d out)

/-- The order in which code-length code lengths are sent. -/
def clOrder : List Nat := [16, 17, 18, 0, 8, 7, 9, 6, 10, 5, 11, 4, 12, 3, 13, 2, 14, 1, 15]

/-- Read `n` three-bit lengths. -/
def read3 : Nat → List Bool → Option (List Nat × List Bool)
  | 0, bs => some ([], bs)
  | n + 1, bs => match takeBits 3 bs with
    | none => none
    | some (x, r) => (read3 n r).map fun (l, t) => (x :: l, t)

/-- Read code lengths coded by the code-length code, until `n` are read (newest first; fuel). -/
def readLens (h : Huff) (n : Nat) : Nat → List Bool → List Nat → Option (List Nat × List Bool)
  | 0, _, _ => none
  | k + 1, bs, acc =>
    if acc.length = n then some (acc.reverse, bs)
    else if n < acc.length then none
    else match h.next bs with
      | none => none
      | some (s, b1) =>
        if s < 16 then readLens h n k b1 (s :: acc)
        else if s = 16 then
          if acc.isEmpty then none else match takeBits 2 b1 with
            | none => none
            | some (x, b2) => readLens h n k b2 (List.replicate (3 + x) (acc.headD 0) ++ acc)
        else match takeBits (if s = 17 then 3 else 7) b1 with
          | none => none
          | some (x, b2) => readLens h n k b2 (List.replicate ((if s = 17 then 3 else 11) + x) 0 ++ acc)

/-- The fixed literal and length code. -/
def fixedLit : Huff :=
  Huff.ofLens (List.replicate 144 8 ++ List.replicate 112 9 ++ List.replicate 24 7 ++ List.replicate 8 8)

/-- The fixed distance code. -/
def fixedDist : Huff := Huff.ofLens (List.replicate 30 5)

/-- The codes of a dynamic block. -/
def dynCodes (bs : List Bool) : Option (Huff × Huff × List Bool) :=
  match takeBits 5 bs with
  | none => none
  | some (hl, b1) => match takeBits 5 b1 with
    | none => none
    | some (hd, b2) => match takeBits 4 b2 with
      | none => none
      | some (hc, b3) => match read3 (hc + 4) b3 with
        | none => none
        | some (ls, b4) =>
          let cl := Huff.ofLens ((List.range 19).map fun i =>
            match findIx (· == i) (clOrder.take (hc + 4)) with | some j => ls.getD j 0 | none => 0)
          if cl.oversub then none
          else match readLens cl (hl + 257 + hd + 1) (hl + hd + 300) b4 [] with
            | none => none
            | some (all, b5) =>
              let lit := Huff.ofLens (all.take (hl + 257))
              let dist := Huff.ofLens (all.drop (hl + 257))
              if lit.oversub || dist.oversub || 286 < hl + 257 || all.getD 256 0 == 0 then none else some (lit, dist, b5)

/-- Expand a DEFLATE stream block by block (fuel: blocks); `storedOnly` refuses other block types (R496). The answer is
the output, newest byte first, and the bits left. -/
def inflate (storedOnly : Bool) (total : Nat) : Nat → List Bool → Bytes → Option (Bytes × List Bool)
  | 0, _, _ => none
  | k + 1, bs, out =>
    match takeBits 3 bs with
    | none => none
    | some (h, b1) =>
      let fin := h % 2 == 1
      let next (b : List Bool) (o : Bytes) := if fin then some (o, b) else inflate storedOnly total k b o
      match h / 2 with
      | 0 =>
        let b2 := b1.drop (b1.length % 8)
        match takeBits 16 b2 with
        | none => none
        | some (len, b3) => match takeBits 16 b3 with
          | none => none
          | some (nlen, b4) =>
            if len + nlen ≠ 65535 ∨ b4.length < 8 * len then none
            else
              let data := (List.range len).map fun i => byteOf (natLE ((b4.drop (8 * i)).take 8))
              next (b4.drop (8 * len)) (data.reverse ++ out)
      | 1 => if storedOnly then none else match inflateCodes fixedLit fixedDist (total + 1) b1 out with
        | none => none
        | some (b2, o) => next b2 o
      | 2 => if storedOnly then none else match dynCodes b1 with
        | none => none
        | some (l, d, b2) => match inflateCodes l d (total + 1) b2 out with
          | none => none
          | some (b3, o) => next b3 o
      | _ => none

/-- A prefix of a stream (R493-R495): bits not consumed by whole code words, output so far (newest first), whether the last block ended. -/
structure Pre where
  rest : List Bool
  out : Bytes
  fin : Bool

/-- Whole code words of one coded block, as far as they go and while the output is below `lim`: true when the block ended. -/
def preCodes (lit dist : Huff) (lim : Nat) : Nat → List Bool → Bytes → Bool × List Bool × Bytes
  | 0, bs, out => (false, bs, out)
  | k + 1, bs, out =>
    if lim ≤ out.length then (false, bs, out)
    else match codeWord lit dist bs out.length with
      | none => (false, bs, out)
      | some (0, s, _, r) => preCodes lit dist lim k r (byteOf s :: out)
      | some (1, _, _, r) => (true, r, out)
      | some (_, n, d, r) => preCodes lit dist lim k r (copyMatch n d out)

/-- The part of a stream that is there: blocks in order, a stored block byte by byte, until an output of `lim` bytes (fuel: blocks). -/
def preStream (lim total : Nat) : Nat → List Bool → Bytes → Pre
  | 0, bs, out => ⟨bs, out, false⟩
  | k + 1, bs, out =>
    let go (coded : Bool × List Bool × Bytes) (last : Bool) : Pre :=
      if coded.1 = false ∨ last then ⟨coded.2.1, coded.2.2, coded.1⟩ else preStream lim total k coded.2.1 coded.2.2
    match takeBits 3 bs with
    | none => ⟨[], out, false⟩
    | some (h, b1) =>
      let last := h % 2 == 1
      match h / 2 with
      | 0 =>
        let b2 := b1.drop (b1.length % 8)
        let len := natLE (b2.take 16)
        if b2.length < 32 then ⟨[], out, false⟩
        else if len + natLE ((b2.drop 16).take 16) ≠ 65535 then ⟨b2, out, false⟩
        else
          let n := min (min len ((b2.length - 32) / 8)) (lim - out.length)
          let data := (List.range n).map fun i => byteOf (natLE ((b2.drop (32 + 8 * i)).take 8))
          go (decide (n = len), b2.drop (32 + 8 * n), data.reverse ++ out) last
      | 1 => go (preCodes fixedLit fixedDist lim (total + 1) b1 out) last
      | 2 => match dynCodes b1 with
        | none => ⟨[], out, false⟩
        | some (l, d, b2) => go (preCodes l d lim (total + 1) b2 out) last
      | _ => ⟨bs, out, false⟩

/-- The prefix of a payload that yields at most `lim` bytes of output. -/
def prefixOf (lim : Nat) (p : Bytes) : Pre := preStream lim (8 * p.length) (8 * p.length + 1) (bitsLE p) []

/-- The original data of a payload, when the payload is one complete DEFLATE stream ending in its last byte with zero
fill bits (R486). -/
def inflateAll (storedOnly : Bool) (p : Bytes) : Option Bytes :=
  match inflate storedOnly (8 * p.length) (8 * p.length + 1) (bitsLE p) [] with
  | some (o, rest) => if rest.length < 8 && rest.all (! ·) then some o.reverse else none
  | none => none

/-- The stored bound of R486. -/
def storedBound (n : Nat) : Nat := n + 5 * cdiv n 65535

/-- Data as stored blocks (fuel: blocks). -/
def storedBlocks : Nat → Bytes → Bytes
  | 0, _ => []
  | k + 1, d =>
    let c := d.take 65535
    let r := d.drop 65535
    let le (n : Nat) : Bytes := [byteOf n, byteOf (n / 256)]
    byteOf (b2n r.isEmpty) :: (le c.length ++ le (65535 - c.length) ++ c) ++ (if r.isEmpty then [] else storedBlocks k r)

/-- The stored payload of data. -/
def storedPayload (d : Bytes) : Bytes := storedBlocks (d.length / 65535 + 1) d

/-- The payload that the compressor makes of data at a level: a free choice among the streams that R486 allows, and
the stored form where the free value is none of them (log entry 10); stored at level 0. -/
def deflate (level : Nat) (d : Bytes) : Bytes × Bool :=
  let p := Config.stdBytes (100 + level) d
  if level ≠ 0 ∧ p.length ≤ storedBound d.length ∧ inflateAll false p = some d then (p, (inflateAll true p).isSome)
  else (storedPayload d, true)

/-- A bale of data (R485); one whose self-verification failed is made at level 0 (R492). -/
def mkBale (level : Nat) (vfyFail : Bool) (d : Bytes) : Bytes :=
  let lev := if vfyFail then 0 else level
  let (p, stored) := deflate lev d
  be 4 0x42414C45 ++ be 1 1 ++ be 1 (b2n vfyFail * 8 + lev * 2 + b2n stored) ++ be 2 0 ++ be 4 d.length ++
    be 4 p.length ++ p ++ be 4 (crc32c d).toNat

/-- Whether a payload has a block that is not stored, as far as its blocks can be followed (R496; fuel: blocks). -/
def hasCoded : Nat → List Bool → Bool
  | 0, _ => false
  | k + 1, bs => match takeBits 3 bs with
    | none => false
    | some (h, b1) =>
      if h / 2 ≠ 0 then true
      else
        let b2 := b1.drop (b1.length % 8)
        let len := natLE (b2.take 16)
        if h % 2 = 1 ∨ b2.length < 32 ∨ len + natLE ((b2.drop 16).take 16) ≠ 65535 then false
        else hasCoded k (b2.drop (32 + 8 * len))

/-- The reason codes of R489 for a bale that fails a check, or its original data (R496). -/
def checkBale (b : Bytes) : Sum Nat Bytes :=
  if b.length < 20 then .inl 2
  else
    let ol := num b 8 4
    let cl := num b 12 4
    let fl := u8 b 5
    let p := sub b 16 cl
    if num b 0 4 ≠ 0x42414C45 ∨ u8 b 4 ≠ 1 ∨ 16 ≤ fl ∨ num b 6 2 ≠ 0 ∨ ol = 0 ∨ 16777216 < ol ∨ storedBound ol < cl then .inl 1
    else if tb fl 0 ∧ hasCoded (p.length + 1) (bitsLE p) then .inl 1
    else if b.length < 20 + cl then .inl 2
    else match inflateAll false p with
      | none => .inl 3
      | some d =>
        if d.length ≠ ol then .inl 4
        else if (crc32c d).toNat ≠ num b (16 + cl) 4 then .inl 5
        else .inr d

end Sys2Proof.Machine
end

