-- ==== Sys2Proof/Machine/GrnCore.lean ====
section
/-! DEFINITION. Captures and tap rings at work (R457-R466, R473): selection of frames, records, triggers, ends; and the
write-back of a transmit frame to whoever queued it. -/

namespace Sys2Proof.Machine

open Sys2Proof

/-- A comparator that nothing has set. -/
def Cmp.init : Cmp := ⟨0, zeros 32, zeros 32⟩

/-- A source that nothing has set. -/
def Source.init : Source := ⟨0, 0, 0, 0, 0, 0⟩

/-- A destination that nothing has set. -/
def ExpTo.init : ExpTo := ⟨0, 0, [], 1, zeros 16⟩

/-- A capture that is not open. -/
def Capture.init : Capture :=
  { isOpen := false, st := .off, pendEn := false, stopMode := false, bale := false, mib := 0, snap := 9600,
    src := Source.init, trig := 0, tone := 0, pre := 0, post := 0, timeT := 0, filt := Cmp.init, tcmp := Cmp.init,
    recs := [], off := 0, rseq := 0, drop := false, tt := none, late := false, preShort := false, endCause := 0,
    enAt := 0, disAt := none, overStamp := none, baleBuf := [], baleStamp := 0, exp := none }

/-- A ring that is not open. -/
def GRing.init : GRing :=
  { isOpen := false, st := .off, pendEn := false, n := 6, src := Source.init, filt := Cmp.init, snap := 9600,
    dest := ExpTo.init, mib := 0, idx := 0, credit := 0, ents := [], launched := 0, wbs := [], wbNext := 0, nextAt := 0 }

/-- The capture of an id. -/
def State.cap (s : State) (c : Nat) : Capture := kgetD s.grn.caps c Capture.init

/-- Replace a capture. -/
def State.setCap (s : State) (c : Nat) (x : Capture) : State :=
  (s.setGrn { s.grn with caps := kset s.grn.caps c x }).report (.cap c) (s.cap c).st x.st

/-- A tap ring or inject ring by kind (0 tap, 1 inject) and id. -/
def State.gring (s : State) (kind id : Nat) : GRing :=
  kgetD (if kind = 0 then s.grn.taps else s.grn.injs) id GRing.init

/-- Replace a tap or inject ring. -/
def State.setGring (s : State) (kind id : Nat) (x : GRing) : State :=
  let g : Grn := if kind = 0 then { s.grn with taps := kset s.grn.taps id x } else { s.grn with injs := kset s.grn.injs id x }
  (s.setGrn g).report (if kind = 0 then .tap id else .inj id) (s.gring kind id).st x.st

/-- The comparison of R459: (byte AND mask) = (value AND mask) over 32 bytes; a frame too short fails. -/
def Cmp.ok (c : Cmp) (b : Bytes) : Bool :=
  decide (c.off + 32 ≤ b.length) &&
    ((List.range 32).all fun i =>
      (b.getD (c.off + i) 0 &&& c.mask.getD i 0) == (c.value.getD i 0 &&& c.mask.getD i 0))

/-- A capture without a match filter is one whose filter mask is all zeros (log entry 13). -/
def Cmp.pass (c : Cmp) (b : Bytes) : Bool := c.mask.all (· == 0) || c.ok b

/-- Data padded with zero bytes to a multiple of `m`. -/
def padTo (m : Nat) (b : Bytes) : Bytes := b ++ zeros ((m - b.length % m) % m)

/-- A capture record (R467). -/
def record (kind flags capt src : Nat) (data : Bytes) (orig : Nat) (stamp : Inst) (cls : Nat) (leg : Option Nat)
    (rseq u rate : Nat) : Bytes :=
  be 1 (kind * 16 + 1) ++ be 1 flags ++ be 1 capt ++ be 1 src ++ be 2 data.length ++ be 2 orig ++ timeBytes stamp ++
    be 4 (cls * 2 ^ 29 + (match leg with | some l => 2 ^ 28 + l | none => 0)) ++ be 4 rseq ++ be 2 u ++ be 1 rate ++
    be 1 0 ++ padTo 8 data

/-- The bytes of a capture's buffer (R457). -/
def Capture.room (x : Capture) : Nat := x.mib * 1048576

/-- The bytes now in the buffer. -/
def Capture.held (x : Capture) : Nat := sumL (x.recs.map (·.data.length))

/-- Whether a unit of the stream is protected from overwriting (R461). -/
def Capture.protects (x : Capture) (r : Rec) : Bool :=
  match x.tt with | some t => decide (t ≤ r.stamp + x.pre * 65536) | none => false

/-- Overwrite the oldest units until `n` bytes fit (fuel); none when a protected unit would be overwritten (R464). -/
def Capture.makeRoom (x : Capture) (n : Nat) : Nat → Option Capture
  | 0 => if x.held + n ≤ x.room then some x else none
  | k + 1 =>
    if x.held + n ≤ x.room then some x
    else match x.recs with
      | [] => none
      | r :: rs =>
        if x.protects r then none
        else Capture.makeRoom { x with recs := rs, overStamp := some (max (x.overStamp.getD 0) r.stamp) } n k

/-- Append a unit to the stream by the capture's mode (R464): none when the buffer is full. -/
def Capture.append (x : Capture) (d : Bytes) (stamp : Inst) : Option Capture :=
  let fits := decide (x.held + d.length ≤ x.room)
  let y := if x.stopMode && x.trig == 0 then (if fits then some x else none) else x.makeRoom d.length x.recs.length
  y.map fun z => { z with recs := z.recs ++ [⟨z.off, d, stamp⟩], off := z.off + d.length }

/-- Close the bale being gathered (R466); none when it does not fit. -/
def Capture.closeBale (x : Capture) : Option Capture :=
  if x.baleBuf.isEmpty then some x
  else ({ x with baleBuf := [], baleStamp := 0 }).append (mkBale 2 false x.baleBuf) x.baleStamp

/-- Write one record into the stream, or into the bale being gathered. -/
def Capture.write (x : Capture) (d : Bytes) (stamp : Inst) : Option Capture :=
  if x.bale then
    let y := if 65536 < x.baleBuf.length + d.length then x.closeBale else some x
    match y with
    | none => none
    | some z =>
      let w := { z with baleBuf := z.baleBuf ++ d, baleStamp := max z.baleStamp stamp }
      if w.baleBuf.length = 65536 then w.closeBale else some w
  else x.append d stamp

/-- An enable empties the buffer and starts the stream at offset 0 (R457). -/
def Capture.start (x : Capture) (t : Inst) : Capture :=
  let y : Capture := { x with st := .on, recs := [], off := 0, rseq := 0, drop := false, tt := none, late := false }
  { y with preShort := false, endCause := 0, enAt := t, overStamp := none, baleBuf := [], baleStamp := 0 }

/-- A capture ends: it goes through STOPPING to OFF with its cause, and a held enable is carried out (R18, R464). -/
def State.endCap (s : State) (c cause : Nat) : State :=
  let x := s.cap c
  let y := (x.closeBale).getD { x with baleBuf := [] }
  let z := { y with st := .off, endCause := cause, pendEn := false, disAt := none }
  let z' := if x.pendEn then z.start s.now else z
  (s.setCap c z').raise R.GRN_EVT 2

/-- Whether a record's stamp lies in the capture's windows (R461). -/
def Capture.inWindow (x : Capture) (stamp : Inst) : Bool :=
  match x.tt with
  | none => true
  | some t => decide (t ≤ stamp + x.pre * 65536) && (x.post == 0 || decide (stamp < t + x.post * 65536))

/-- The time that bytes take at a rate in Mbit/s, in 2^-16 ns. -/
def paceI (n mbps : Nat) : Nat := n * 8 * 1000 * 65536 / max 1 mbps

/-- The write path is full (R465): what it still has to write takes longer than its depth holds. -/
def State.pathFull (s : State) : Bool := decide (Config.recordPathDepth < s.grn.recAt - s.loc)

/-- Bytes enter the write path, which carries 1,600 Gbit/s over all captures and tap rings (R465). -/
def State.pathTakes (s : State) (n : Nat) : State :=
  s.setGrn { s.grn with recAt := max s.grn.recAt s.loc + paceI n 1600000 }

/-- The baler's engines that are ON (R499). -/
def State.balersOn (s : State) : Nat := (s.bal.engs.filter fun p => p.2.st == .on).length

/-- The baler is saturated for baled captures (R498): no engine is ON, or those that are lie too far behind. -/
def State.balerFull (s : State) : Bool := decide (s.balersOn = 0) || decide (Config.balerDepth < s.grn.balAt - s.loc)

/-- Bytes of a baled capture go to the engines that are ON, 100 Gbit/s each; a new bale adds 200 ns to its engine's time (R498). -/
def State.balerTakes (s : State) (n : Nat) (new : Bool) : State :=
  let k := s.balersOn
  s.setGrn { s.grn with balAt := max s.grn.balAt s.loc + paceI n (k * 100000) + (if new then nsI 200 / max 1 k else 0) }

/-- Write a record with the next record sequence number; a full buffer ends the capture (R464), and a full write path or a
saturated baler drops the record whole, which uses its number and marks the next one (R465, R498). -/
def State.capWrite (s : State) (c : Nat) (mk : Nat → Nat → Bytes) (stamp : Inst) : State :=
  let x := s.cap c
  if s.pathFull || (x.bale && s.balerFull) then
    ((s.setCap c { x with rseq := (x.rseq + 1) % 2 ^ 32, drop := true }).bump R.GRN_REC_DROP_CNT).raise R.GRN_EVT 4
  else
    let d := mk x.rseq (b2n x.drop * 128)
    match x.write d stamp with
    | some y =>
      let s1 := ((s.setCap c { y with rseq := (x.rseq + 1) % 2 ^ 32, drop := false }).bump R.GRN_REC_CNT).pathTakes d.length
      if x.bale then s1.balerTakes d.length x.baleBuf.isEmpty else s1
    | none => s.endCap c 3

/-- A trigger fires on a capture at instant `tt` (R460-R463). -/
def State.fireTrigger (s : State) (c : Nat) (tt : Inst) (late : Bool) : State :=
  let x := s.cap c
  if x.st ≠ .on then s
  else if x.tt.isSome then s.bump R.GRN_TRIG_EXTRA_CNT
  else
    let w0 : Int := (tt : Int) - x.pre * 65536
    let short := x.pre != 0 && (decide (w0 < x.enAt) || match x.overStamp with | some o => decide (w0 ≤ (o : Int)) | none => false)
    let s1 := s.setCap c { x with tt := some tt, late := late, preShort := short }
    let s2 := (s1.bump R.GRN_TRIG_CNT).raise R.GRN_EVT 1
    s2.capWrite c (fun rs fl => record 4 fl c x.trig [] 0 tt 0 none rs 0 0) tt

/-- Whether a frame on port `p` in direction `dir` (0 RX, 1 TX), class `cls`, of leg `leg`, belongs to a source (R458). -/
def Source.takes (r : Source) (p dir cls : Nat) (leg : Option Nat) : Bool :=
  match r.kind with
  | 0 => tb r.ports p && tb r.dirs dir && tb r.classes cls
  | 1 => leg == some r.leg
  | _ => false

/-- One frame offered to one capture: its trigger, its filter, its windows, its record (R458-R465). -/
def State.capFrame1 (s : State) (c p dir : Nat) (b : Bytes) (cls : Nat) (leg : Option Nat) (stamp : Inst) : State :=
  let x := s.cap c
  let live := decide (x.st = .on) || (decide (x.st = .stopping) && (match x.disAt with | some t => decide (stamp ≤ t) | none => false))
  if live && x.src.takes p dir cls leg then
    let s1 := if x.trig = 1 ∧ x.tcmp.ok b then s.fireTrigger c stamp false else s
    let y := s1.cap c
    if (decide (y.st = .on) || decide (y.st = .stopping)) && y.filt.pass b && y.inWindow stamp then
      let d := b.take y.snap
      s1.capWrite c (fun rs fl => record (1 + dir) (fl + b2n (decide (y.snap < b.length)) * 64) c p d b.length stamp cls
        leg rs 0 0) stamp
    else s1
  else s

/-- The completion of R389 as bytes. -/
def completion (b0 b1 status doneBytes info : Nat) (ts : Option Inst) (tag : Nat) : Bytes :=
  be 1 b0 ++ be 1 b1 ++ be 2 status ++ be 4 doneBytes ++ be 8 info ++
    (match ts with | some t => timeBytes t | none => zeros 12) ++ be 4 tag

/-- The INFO of the last buffer of a received frame (R389). -/
def rxInfo (len cls port : Nat) : Nat := len * 2 ^ 32 + cls * 2 ^ 24 + port * 2 ^ 16

/-- One frame offered to one tap ring (R473, R136, R137). -/
def State.tapFrame1 (s : State) (r p dir : Nat) (b : Bytes) (cls : Nat) (leg : Option Nat) (stamp : Inst) : State :=
  let x := s.gring 0 r
  if x.st = .on ∧ x.src.takes p dir cls leg ∧ x.filt.pass b then
    let d := b.take x.snap
    let pieces := chunks 2048 (d.length + 1) d
    let free := min (2 ^ x.n) (x.credit + 2 ^ x.n - x.idx)
    let k := pieces.length
    let op := if dir = 0 then 4 else 3
    let mk (ab : Bool) (c : Bytes) (i : Nat) : Bytes :=
      let sof := b2n (i == 0) * 64
      let eof := b2n (!ab && i + 1 == k) * 32
      padTo 8 (completion (0xC0 + b2n ab * 16 + op) (128 + sof + eof) (if ab then St.fault else St.ok) c.length
        (if !ab && i + 1 == k then rxInfo b.length cls p else 0) (some stamp) 0 ++ c)
    let put (ab : Bool) (n : Nat) : State :=
      let es := ((pieces.take n).zipIdx).map fun (c, i) => (x.idx + i, mk ab c i, s.loc)
      ((s.setGring 0 r { x with idx := x.idx + n, ents := x.ents ++ es }).bumpBy R.GRN_TAP_ENT_CNT n).pathTakes
        (sumL (es.map fun e => e.2.1.length))
    if free = 0 then s.bump (R.MAC_RX_RING_EMPTY_CNT p)
    else if free < k then
      ((put true free).bump (R.MAC_RX_RING_ABANDON_CNT p)).raise R.MAC_EVT (2 ^ (16 + p))
    else put false k
  else s

/-- A frame at a port offered to every capture and tap ring (R458, R473). -/
def State.capFrame (s : State) (p dir : Nat) (b : Bytes) (cls : Nat) (leg : Option Nat) (stamp : Inst) : State :=
  let s1 := (List.range 16).foldl (fun t c => t.capFrame1 c p dir b cls leg stamp) s
  (List.range 16).foldl (fun t r => t.tapFrame1 r p dir b cls leg stamp) s1

/-- Whether any capture or ring looks at legs, so that a frame's flow matters. -/
def State.legSources (s : State) : Bool :=
  s.grn.caps.any (fun p => p.2.src.kind == 1 && p.2.st != .off) || s.grn.taps.any (fun p => p.2.src.kind == 1 && p.2.st != .off)

/-- A TAP block of a leg offered to every capture (R458): tap index, block stamp, samples as 5 bytes each, sample count,
leading suppressed samples, SILENT and UNSETTLED marks, rate code. -/
def State.capTap (s : State) (leg tap : Nat) (data : Bytes) (n : Nat) (stamp : Inst) (u : Nat) (silent unsettled : Bool)
    (rate : Nat) : State :=
  (List.range 16).foldl (fun t c =>
    let x := t.cap c
    if (x.st = .on ∨ x.st = .stopping) ∧ x.src.kind = 2 ∧ x.src.leg = leg ∧ tb x.src.taps tap ∧ x.inWindow stamp then
      t.capWrite c (fun rs fl => record 3 (fl + b2n unsettled * 32 + b2n silent * 16) c tap data n stamp 0 (some leg) rs u
        rate) stamp
    else t) s

/-- A tone onset of a leg offered to every capture with a TONE trigger (R460). -/
def State.capTone (s : State) (leg code : Nat) (at_ : Inst) : State :=
  (List.range 16).foldl (fun t c =>
    let x := t.cap c
    if x.trig = 2 ∧ x.src.leg = leg ∧ x.src.kind ≠ 0 ∧ x.tone = code then t.fireTrigger c at_ false else t) s

/-- The end of a transmit frame, told to whoever queued it (R95, R117, R127, R390, R469, R476): the status and, when the
frame went out with a stamp asked for, its stamp. -/
def State.txDone (s : State) (f : TxFrame) (status : Nat) (ts : Option Inst) (gate : Bool) : State :=
  match f.origin with
  | .dma ring idx => { s with txRes := s.txRes ++ [(ring, idx, status, ts)] }
  | .inject ring idx =>
    let x := s.gring 1 ring
    match x.ents.find? (fun e => e.1 == idx) with
    | none => s
    | some (_, e, _) =>
      let st := if status = St.ok ∧ u8 e 32 = 1 then St.late else status
      let wb := completion 0xC3 (b2n ts.isSome * 128) st (if status = St.ok then f.bytes.length else 0) 0 ts (num e 28 4)
      s.setGring 1 ring { x with ents := x.ents.filter (fun e => e.1 != idx), wbs := x.wbs ++ [(idx, wb, s.loc)] }
  | .xport cap id =>
    if gate then
      let s1 := (s.bump R.GRN_EXP_LOST_CNT).raise R.GRN_EVT 8
      if cap then
        let x := s1.cap id
        s1.setCap id { x with exp := x.exp.map fun e => { e with resync := true } }
      else s1
    else s
  | .parcel => if status = St.ok then s.bump R.TND_TX_PARCEL_CNT else s
  | _ => s

end Sys2Proof.Machine
end

