-- ==== Sys2Proof/Machine/Tmu.lean ====
section
/-! DEFINITION. The time unit (R69-R112): clock, SET and STEP, servo, timed outputs and inputs, transparent clock. -/

namespace Sys2Proof.Machine

open Sys2Proof

/-- The modulus of `acc`: 2^48 seconds in 2^-40 ns (R69). -/
def tmuMod : Nat := 2 ^ 48 * 1000000000 * 2 ^ 40

/-- The applied addend in 2^-40 ns: TMU_ADDEND with TMU_ADDEND_EXT below it (R70). -/
def State.addend (s : State) : Nat := s.reg R.TMU_ADDEND * 2 ^ 16 + s.fld R.TMU_ADDEND_EXT_EXT

/-- The nominal addend of 1.25 ns in 2^-40 ns (R70). -/
def nominal : Nat := 0x01400000 * 2 ^ 16

/-! ### Steps of TMU time (R43, R71, R73, R104) -/

/-- Occurrence `j` of a timed output (R101). -/
def Tout.occ (o : Tout) (j : Nat) : Inst := o.start + j * o.per

/-- The first occurrence at or after an instant. -/
def Tout.firstAt (o : Tout) (t : Inst) : Nat := if t ≤ o.start then 0 else cdiv (t - o.start) o.per

/-- The effect of a step to instant `t` on a timed output (R104). Forward: occurrences passed over are skipped and counted, and a one-shot
passed over is due at once, late; the spec does not say so of one that was armed late and waits out its lead of 2 µs, whose start instant lies
behind the step and whose firing instant does not: the model fires it at once too (DESIGN CHOICE, log entry 93). Backward: the sequence resumes at the first occurrence after the last one driven that is still ahead, so
occurrences that a forward step had skipped and that lie ahead again are driven; what they added to SKIP stays there (DEDUCED, log entry 72).
The pair gives the output and the number skipped. -/
def Tout.step (o : Tout) (t : Inst) (fwd : Bool) : Tout × Nat :=
  if o.run = false then (o, 0)
  else if o.per = 0 then (if fwd ∧ o.start < t then { o with fireAt := t, late := true } else o, 0)
  else if fwd then (if o.nextJ < o.firstAt t then ({ o with nextJ := o.firstAt t }, o.firstAt t - o.nextJ) else (o, 0))
  else ({ o with nextJ := max o.doneJ (min o.nextJ (o.firstAt t)) }, 0)

/-- Every timed output follows a step (R104). -/
def State.stepTouts (s : State) (t : Inst) (fwd : Bool) : State :=
  s.tmu.tout.foldl (fun (st : State) (n, o) =>
    let (o', k) := o.step t fwd
    let st1 := (st.setTmu { st.tmu with tout := kset st.tmu.tout n o' })
    st1.setFld (R.TMU_TOUT_CTL_SKIP n) (min 65535 (st1.fld (R.TMU_TOUT_CTL_SKIP n) + k))) s

/-- Items of running players that a forward step passed over are due late (R479). -/
def State.stepPlayers (s : State) (t : Inst) : State :=
  (s.setGrn { s.grn with plys := s.grn.plys.map fun p => (p.1, { p.2 with passed := t }) })

/-- TMU time becomes `acc'` by a step: outputs and players follow it, and the swath is re-anchored or time becomes
valid (R43, R45, R71, R104, R479). -/
def State.stepTo (s : State) (acc' : Nat) : State :=
  let delta : Int := (acc' : Int) - s.tmu.acc
  let st := (s.tmu.steps ++ [(s.tmu.loc, delta / 2 ^ 24)]).drop (s.tmu.steps.length - 15)
  let s1 := s.setTmu { s.tmu with acc := acc', steps := st }
  let s2 := if 0 < delta then (s1.stepTouts s1.now true).stepPlayers s1.now else s1.stepTouts s1.now false
  if s2.fld R.TMU_STAT_VALID = 0 then s2.becomeValid else s2.reanchor delta

/-- The time that pending SET and STEP make of a value (R73): the SET first, clearing FRAC, then the step. -/
def combined (acc : Nat) (set : Option Nat) (step : Option Int) : Nat :=
  let base : Int := match set with | some ns => ((ns * 2 ^ 40 : Nat) : Int) | none => (acc : Int)
  ((base + step.getD 0 * 2 ^ 40) % (tmuMod : Int)).toNat

/-- Apply the pending SET and STEP as one step (R73). -/
def State.applyPending (s : State) : State :=
  if s.tmu.pendSet.isNone ∧ s.tmu.pendStep.isNone then s
  else
    let acc' := combined s.tmu.acc s.tmu.pendSet s.tmu.pendStep
    (s.setTmu { s.tmu with pendSet := none, pendStep := none }).stepTo acc'

/-- Whether a step from `acc` to `acc'` is accepted (R43, R74, R600). -/
def State.stepAllowed (s : State) (acc' : Nat) : Bool :=
  !(decide (s.tmu.srv.st = .on) && decide (s.tmu.srv.lock = .routeGuard)) &&
  (s.legsOff || (s.flag R.TMU_STAT_VALID && !s.swt.begun) ||
    decide (2 * ((acc' : Int) - s.tmu.acc).natAbs > s.lenI * 2 ^ 24))

/-! ### The servo (R80-R91) -/

/-- One ppb in the servo's unit of 2^-39 ppb. -/
def ppb : Int := 2 ^ 39

/-- The addend that a rate gives, rounded down to 2^-40 ns (R86; log entry 8). -/
def addendOf (y : Int) : Nat := ((nominal : Int) * (1000000000 * ppb + y) / (1000000000 * ppb)).toNat

/-- The rate that an addend means (R91). -/
def rateOf (a : Nat) : Int := ((a : Int) - nominal) * (1000000000 * ppb) / nominal

/-- Replace the servo. -/
def State.setSrv (s : State) (v : Servo) : State := (s.setTmu { s.tmu with srv := v })

/-- The servo's rate drives the addend registers and the rate registers (R86, R109). The spec does not say how a rate is rounded to the
2^-8 ppb of TMU_SRV_RATE.Y and TMU_SRV_IRATE.I, nor o to the whole ns of TMU_SRV_LAST_OFS.O: the model rounds each down (DESIGN CHOICE, log
entry 73). -/
def State.applyRate (s : State) : State :=
  let a := addendOf s.tmu.srv.y
  (((s.setReg R.TMU_ADDEND (a / 2 ^ 16)).setReg R.TMU_ADDEND_EXT (a % 2 ^ 16)).setReg R.TMU_SRV_RATE
    (unsgn 32 (s.tmu.srv.y / 2 ^ 31))).setReg R.TMU_SRV_IRATE (unsgn 32 (s.tmu.srv.iRate / 2 ^ 31))

/-- A rejected sample (R88). -/
def State.rejectSample (s : State) : State := s.bump R.TMU_REJ_CNT

/-- Change the lock state; leaving LOCKED and entering LOCKED set their events (R88). -/
def State.setLock (s : State) (l : Lock) : State :=
  let old := s.tmu.srv.lock
  let s1 := s.setSrv { s.tmu.srv with lock := l }
  let s2 := if old = .locked ∧ l ≠ .locked then s1.raise R.TMU_EVT 2 else s1
  if l = .locked ∧ old ≠ .locked then s2.raise R.TMU_EVT 1 else s2

/-- The step limit of R84; none when the servo never steps. -/
def State.stepLimit (s : State) : Option Nat :=
  if s.legsOff then some (nsI (s.reg R.TMU_SRV_STEP))
  else if s.flag R.TMU_SRV_CTL_SLIP_EN then some (max (nsI (s.reg R.TMU_SRV_SLIP)) (s.lenI / 2 + 1))
  else none

/-- A signed number saturated to a 32-bit field (R109). -/
def sat32 (x : Int) : Nat := unsgn 32 (clampI x (-2147483648) 2147483647)

/-- The distance of two path delays. -/
def absDiff (a b : Nat) : Nat := (a - b) + (b - a)

/-- The rest of the sample procedure of R86 after the guard and reference tests: step, rates, lock tests. -/
def State.sampleTail (s : State) (x : Ofs) : State :=
  let v := s.tmu.srv
  let doStep := decide (v.lock ≠ .locked) && !v.relock &&
    (match s.stepLimit with | some l => decide (l ≤ x.o.natAbs) | none => false)
  let s1 := if doStep then
      (((s.stepTo (((s.tmu.acc : Int) - x.o * 2 ^ 24) % (tmuMod : Int)).toNat).bump R.TMU_STEP_CNT).raise R.TMU_EVT 0x10)
    else s
  let o := if doStep then 0 else x.o
  let pull := (s.fld R.TMU_SRV_PULL_PPB : Int) * ppb
  let slew := (s.fld R.TMU_SRV_SLEW_PPB : Int) * ppb
  let i := clampI (v.iRate - (s.reg R.TMU_SRV_KI : Int) * o * x.wt) (-pull) pull
  let y0 := clampI (i - (s.reg R.TMU_SRV_KP : Int) * o * x.wt) (-pull) pull
  let y := if v.slewLim then clampI y0 (v.yRef - slew) (v.yRef + slew) else y0
  let lockRun := if o.natAbs < nsI (s.fld R.TMU_SRV_LOCK_LOCK_NS) then v.lockRun + 1 else 0
  let unlockRun := if nsI (s.fld R.TMU_SRV_UNLK_NS) ≤ o.natAbs then v.unlockRun + 1 else 0
  let lim := if i = pull ∨ i = -pull then some (v.limitAt.getD s.tmu.loc) else none
  let v2 : Servo := { s1.tmu.srv with iRate := i, y := y, oRef := o, mpdRef := x.mpd, haveRef := true }
  let s2 := (s1.setSrv { v2 with lockRun := lockRun, unlockRun := unlockRun, limitAt := lim }).applyRate
  let s3 := ((s2.setReg R.TMU_SRV_LAST_OFS (sat32 (o / 65536))).bump R.TMU_SMPL_CNT).becomeValid
  let s4 := if s3.tmu.srv.lock = .acquiring ∧ lockRun ≥ s.fld R.TMU_SRV_LOCK_LOCK_N then
      let t := s3.setLock .locked
      t.setSrv { t.tmu.srv with relock := false, slewLim := false }
    else s3
  if s4.tmu.srv.lock = .locked ∧ unlockRun ≥ s.fld R.TMU_SRV_LOCK_UNLOCK_N then s4.setLock .acquiring else s4

/-- The sample procedure of R86. -/
def State.sample (s : State) (x : Ofs) : State :=
  let v := s.tmu.srv
  let now := s.loc
  let guardLen := s.fld R.TMU_SRV_HOLD_GUARD_MS * nsI 1000000
  let mpdT := s.fld R.TMU_SRV_ROUTE_MPD_NS
  let ofsT := nsI (s.fld R.TMU_SRV_ROUTE_OFS_NS)
  if x.wt = 0 then s.rejectSample
  else if v.lock = .routeGuard then
    let restart := match x.mpd, v.mpdPrev with
      | some a, some b => decide (mpdT ≤ absDiff a b)
      | _, _ => false
    let v1 := { v with mpdPrev := x.mpd, guardEnd := if restart then now + guardLen else v.guardEnd }
    if now < v1.guardEnd then (s.setSrv v1).rejectSample
    else
      let t := (s.setSrv { v1 with relock := true, slewLim := true, yRef := v1.iRate }).setLock .acquiring
      t.sampleTail x
  else
    let route := v.haveRef && (match x.mpd, v.mpdRef with
      | some a, some b => decide (mpdT ≤ absDiff a b) && decide (ofsT ≤ (x.o - v.oRef).natAbs)
      | _, _ => false)
    if route then
      let t := (s.setSrv { v with guardEnd := now + guardLen, mpdPrev := x.mpd, y := v.iRate }).setLock .routeGuard
      (((t.applyRate).bump R.TMU_ROUTE_CNT).raise R.TMU_EVT 8).rejectSample
    else if v.lock = .holdover then
      ((s.setSrv { v with slewLim := true, yRef := v.iRate }).setLock .acquiring).sampleTail x
    else if v.lock = .free then (s.setLock .acquiring).sampleTail x
    else s.sampleTail x

/-- The servo as a function of R17. -/
def Servo.fn (v : Servo) : Fn := ⟨v.st, v.pendEn, v.disHeld⟩

/-- The servo's function state becomes `f`, and the transitions are reported (R18, R20). The lock states are those of a servo in ON (R80):
leaving ON it leaves its lock state, with the event of R88 when that was LOCKED, and TMU_STAT.LOCK reads 0 until it is ON again, as at reset;
the spec does not say what it reads then (DESIGN CHOICE, log entry 74). -/
def State.setSrvFn (s : State) (f : Fn) (fault : Bool) : State :=
  let v := s.tmu.srv
  let s1 := if v.st = .on ∧ f.st ≠ .on then s.setLock .free else s
  let s2 := s1.setSrv { s1.tmu.srv with st := f.st, pendEn := f.pend, disHeld := f.dis }
  if fault then s2.reportFault .servo v.st f.st else s2.report .servo v.st f.st

/-- What reaching ON loads: the integrator with the rate of the addend, an empty FIFO, lock state FREE (R91). The spec does not say what
TMU_SRV_RATE.Y and TMU_SRV_IRATE.I read once a host has written the addend while the servo is OFF: they keep the servo's last values until
here (DESIGN CHOICE, log entry 93). -/
def State.srvLoad (s : State) : State :=
  let v := s.tmu.srv
  let r := rateOf s.addend
  let v0 : Servo := { v with lock := .free, iRate := r, y := r }
  let v1 : Servo := { v0 with slewLim := false, relock := false, haveRef := false, mpdPrev := none, lockRun := 0 }
  let v2 : Servo := { v1 with unlockRun := 0, lastPush := s.tmu.loc, holdMs := s.fld R.TMU_SRV_HOLD_TIMEOUT_MS, limitAt := none }
  let t := (s.setTmu { s.tmu with srv := v2, ofs := [] })
  (t.setReg R.TMU_SRV_RATE (unsgn 32 (r / 2 ^ 31))).setReg R.TMU_SRV_IRATE (unsgn 32 (r / 2 ^ 31))

/-- The servo reaches ON at the tick after its enable (R91); a disable held during the start then takes it to STOPPING at the same instant
(R18). A servo in STOPPING reaches OFF at the next tick (log entry 70), and a held enable then starts it (R18). -/
def State.srvStart (s : State) : State :=
  let v := s.tmu.srv
  match v.st with
  | .starting => (s.srvLoad).setSrvFn v.fn.started false
  | .stopping => s.setSrvFn v.fn.stopped false
  | _ => s

/-- Seconds of the current holdover (R89). -/
def State.countHold (s : State) : State :=
  if s.tmu.srv.st = .on ∧ s.tmu.srv.lock = .holdover then
    s.setReg R.TMU_SRV_HOLD_S ((s.tmu.loc - s.tmu.srv.holdAt) / (1000000000 * 2 ^ 40))
  else s

/-- One tick of domain 15 (R69): a pending SET or STEP is applied at its start (R73), then the addend is added; the
servo's start and the holdover seconds follow the tick (R89, R91). -/
def State.tick (s : State) : State :=
  let s1 := s.applyPending
  let a := s1.addend
  let s2 := (s1.setTmu { s1.tmu with acc := (s1.tmu.acc + a) % tmuMod, loc := s1.tmu.loc + a, tick := s1.tmu.tick + 1 })
  s2.srvStart.countHold

/-- STEP_APPLY (R73): the pending SET and STEP are applied at the start of their tick. -/
def execStepApply (s : State) : Host.Outcome State Fault Refusal := .next s.applyPending

/-- A push (R81): the sample that the three registers hold enters the FIFO; discarded when the servo is not ON or the FIFO is full. The
holdover timeout runs from the push, under the setting in force then (R80, R110). The spec does not say whether a discarded push restarts it,
nor whether a push to the FIFO does while SRC is PPS_IN and the FIFO is not read (R82): in the model the first does not, the second does
(DESIGN CHOICE, log entry 75). -/
def State.ofsPush (s : State) : State :=
  let m := s.reg R.TMU_OFS_MPD
  let x : Ofs := ⟨sgn 32 (s.reg R.TMU_OFS_NS) * 65536 + s.fld R.TMU_OFS_AUX_FRAC, s.fld R.TMU_OFS_AUX_WT,
    (if m = 0xFFFFFFFF then none else some m), s.fld R.TMU_OFS_AUX_PORT⟩
  if s.tmu.srv.st ≠ .on then s.rejectSample
  else if 16 ≤ s.tmu.ofs.length then s.bump R.TMU_OFS_DROP_CNT
  else
    let v : Servo := { s.tmu.srv with lastPush := s.tmu.loc, holdMs := s.fld R.TMU_SRV_HOLD_TIMEOUT_MS }
    s.setTmu { s.tmu with ofs := s.tmu.ofs ++ [x], srv := v }

/-- The firmware's writes of the three sample registers, which come with the row of the push (R81, R111; log entry 76). -/
def State.ofsWrite (s : State) (ns aux mpd : Nat) : State :=
  ((s.setReg R.TMU_OFS_NS ns).setReg R.TMU_OFS_AUX (aux % 2 ^ 27)).setReg R.TMU_OFS_MPD mpd

/-- TMU_OFS_PUSH (R81): the firmware writes a sample into the three registers and pushes it. -/
def execTmuOfsPush (ns aux mpd : Word) (s : State) : Host.Outcome State Fault Refusal :=
  .next ((s.ofsWrite ns.toNat aux.toNat mpd.toNat).ofsPush)

/-- SERVO_SAMPLE (R86): the servo takes the oldest sample of the FIFO; with SRC at PPS_IN the FIFO is not read (R82). -/
def execServoSample (s : State) : Host.Outcome State Fault Refusal :=
  .next (match s.tmu.ofs with
    | x :: rest =>
      if s.tmu.srv.st = .on ∧ s.fld R.TMU_SRV_CTL_SRC = 0 then
        (s.setTmu { s.tmu with ofs := rest }).sample x
      else s
    | [] => s)

/-- SERVO_HOLDOVER_TIMEOUT (R80, R88, R89). -/
def execServoHoldoverTimeout (s : State) : Host.Outcome State Fault Refusal :=
  let v := s.tmu.srv
  .next (if v.st = .on ∧ (v.lock = .acquiring ∨ v.lock = .locked) ∧
      v.lastPush + v.holdMs * 1000000 * 2 ^ 40 ≤ s.tmu.loc then
    let t := s.setLock .holdover
    let u := (t.setSrv { t.tmu.srv with y := v.iRate, holdAt := s.tmu.loc }).applyRate
    ((u.setReg R.TMU_SRV_HOLD_S 0).bump R.TMU_HOLD_CNT).raise R.TMU_EVT 4
  else s)

/-- SERVO_FAIL (R90): the integrator has stood at the pull limit for 10 s. -/
def execServoFail (s : State) : Host.Outcome State Fault Refusal :=
  let v := s.tmu.srv
  .next (match v.limitAt with
    | some t0 =>
      if v.st = .on ∧ t0 + 10 * 1000000000 * 2 ^ 40 ≤ s.tmu.loc then (s.setSrvFn v.fn.fault true).raise R.TMU_EVT 0x40
      else s
    | none => s)

/-- The servo's enable or disable (R18, R90, R91, R599). -/
def State.srvRequest (s : State) (en : Bool) : State := s.setSrvFn (s.tmu.srv.fn.request en) false

/-! ### REF10M_IN (R72) -/

/-- The armed selection takes effect when the clock is present (R72). -/
def State.refSelect (s : State) : State :=
  if s.tmu.refArmed ∧ s.fld R.TMU_STAT_REF_OK = 1 then s.setFld R.TMU_STAT_REF_ACTIVE 1 else s

/-- A write of TMU_CFG.REF_SEL: 1 arms, 0 disarms and moves back without a loss event (R72). -/
def State.refWrite (s : State) (sel : Bool) : State :=
  if sel then (s.setTmu { s.tmu with refArmed := true }).refSelect
  else (s.setTmu { s.tmu with refArmed := false }).setFld R.TMU_STAT_REF_ACTIVE 0

/-- REF10M_ACQUIRE (R72): a clock is present on REF10M_IN; an armed selection moves to it. -/
def execRef10mAcquire (s : State) : Host.Outcome State Fault Refusal := .next ((s.setFld R.TMU_STAT_REF_OK 1).refSelect)

/-- REF10M_LOSS (R72): the part detects the loss of the clock it runs from. -/
def execRef10mLoss (s : State) : Host.Outcome State Fault Refusal :=
  let t := s.setFld R.TMU_STAT_REF_OK 0
  .next (if s.fld R.TMU_STAT_REF_ACTIVE = 1 then
    let u := ((t.setTmu { t.tmu with refArmed := false }).setFld R.TMU_STAT_REF_ACTIVE 0).raise R.TMU_EVT 0x20
    u.bump R.TMU_REFLOSS_CNT
  else t)

/-! ### Event inputs (R105, R106) -/

/-- The input of an index. -/
def State.tin (s : State) (n : Nat) : Tin := kgetD s.tmu.tin n ⟨[], none, 0, 0⟩

/-- Replace an input. -/
def State.setTin (s : State) (n : Nat) (x : Tin) : State := (s.setTmu { s.tmu with tin := kset s.tmu.tin n x })

/-- The offset sample of a captured PPS_IN edge (R82). -/
def State.ppsSample (s : State) (stamp : Inst) : Ofs :=
  let c : Int := (stamp : Int) - sgn 32 (s.reg R.TMU_PPS_DLY) * 65536
  let r := c % (secI : Int)
  { o := if r < 500000000 * 65536 then r else r - secI, wt := s.fld (R.TMU_TIN_CFG_WT 4), mpd := none, port := 0 }

/-- TIN_EDGE_CAPTURE (R105, R82, R175): the 5 ns to the previous captured edge are four ticks of domain 15. The spec does not say whether a PPS_IN edge that is discarded at a full FIFO still gives the servo its
sample: in the model it does, since R82 takes it from the edge (DESIGN CHOICE, log entry 75). -/
def execTinEdgeCapture (n : Fin 5) (rise : Bool) (s : State) : Host.Outcome State Fault Refusal :=
  let i := n.val
  let x := s.tin i
  let edge := s.fld (R.TMU_TIN_CFG_EDGE i)
  let chosen := if rise then edge = 1 ∨ edge = 3 else edge = 2 ∨ edge = 3
  let close := match x.last with | some l => decide (s.tmu.tick < l + 4) | none => false
  .next (if chosen ∧ close = false then
    let full := decide (16 ≤ x.fifo.length)
    let s1 := s.setTin i { x with last := some s.tmu.tick, fifo := (if full then x.fifo else x.fifo ++ [⟨s.now, rise⟩]) }
    let s2 := if full then s1.bump (R.TMU_TIN_DROP_CNT i)
      else if s.fld (R.TMU_TIN_CFG_EVT i) = 1 then
        (s1.raise R.TMU_EVT 0x80).eventAll 2 0x06F0 2 (be 1 i ++ be 1 (b2n rise) ++ be 2 0 ++ timeBytes s.now)
      else s1
    if i = 4 ∧ s.fld R.TMU_SRV_CTL_SRC = 1 ∧ s.tmu.srv.st = .on then
      (s2.setSrv { s2.tmu.srv with lastPush := s2.tmu.loc, holdMs := s2.fld R.TMU_SRV_HOLD_TIMEOUT_MS }).sample (s2.ppsSample s.now)
    else s2
  else s)

/-- The effect of a read of TMU_TINn_POP over a path and the value it returns (R106, R595). -/
def State.tinPop (s : State) (i2c : Bool) (n : Nat) : State × Nat :=
  let x := s.tin n
  match x.fifo with
  | [] => (s, 0)
  | c :: rest => (s.setTin n (if i2c then { x with fifo := rest, latchI := c.at_ } else { x with fifo := rest, latch := c.at_ }),
      c.at_ / secI / 2 ^ 32 * 2 ^ 16 + b2n c.rise * 2 + 1)

/-! ### Timed outputs (R101-R104) -/

/-- The output of an index. -/
def State.tout (s : State) (n : Nat) : Tout := kgetD s.tmu.tout n ⟨0, 0, 0, 0, 0, 0, false, false, 0⟩

/-- Replace an output. -/
def State.setTout (s : State) (n : Nat) (x : Tout) : State := (s.setTmu { s.tmu with tout := kset s.tmu.tout n x })

/-- The start instant that the setting registers hold (R101). -/
def State.toutStart (s : State) (n : Nat) : Inst :=
  (s.fld (R.TMU_TOUT_SEC_HI_SEC_HI n) * 2 ^ 32 + s.reg (R.TMU_TOUT_SEC_LO n)) * secI + nsI (s.fld (R.TMU_TOUT_NS_NS n))

/-- The period that the setting registers hold, in 2^-16 ns: PER with PER_FRAC below it. The spec does not say what PER 0 with a PER_FRAC
other than 0 is: in the model a period below 5 ns, which R102 refuses (DESIGN CHOICE, log entry 93). -/
def State.toutPer (s : State) (n : Nat) : Nat := nsI (s.reg (R.TMU_TOUT_PER n)) + s.fld (R.TMU_TOUT_PER_FRAC_FRAC n)

/-- Whether the setting registers allow an ARM (R102). -/
def State.toutArmOk (s : State) (n : Nat) : Bool :=
  let w := s.fld (R.TMU_TOUT_WIDTH_NS n)
  let p := s.toutPer n
  decide (3 ≤ w) && (decide (p = 0) || (decide (nsI 5 ≤ p) && decide (nsI w < p)))

/-- Whether an ARM now is late, with its lead of 2 µs (R59, R60, R61). -/
def State.toutLate (s : State) (n : Nat) : Bool := decide (s.toutStart n < s.now + nsI 2000)

/-- ARM: latch the setting and start (R101), late arming by R60 and R61. TMU_TOUTn_LATE.NS keeps the lateness of an earlier ARM until a first
pulse runs late (DESIGN CHOICE, log entry 93: the spec does not say what it reads after an ARM whose first pulse is on time). -/
def State.toutArm (s : State) (n : Nat) : State :=
  let st := s.toutStart n
  let p := s.toutPer n
  let e := s.now + nsI 2000
  let w := s.fld (R.TMU_TOUT_WIDTH_NS n)
  let au := (s.tout n).activeUntil
  if p = 0 then
    (s.setTout n ⟨st, 0, w, 0, 0, max st e, decide (st < e), true, au⟩).setFld (R.TMU_TOUT_CTL_SKIP n) 0
  else
    let k := if st < e then cdiv (e - st) p else 0
    ((s.setTout n ⟨st, p, w, k, k, 0, false, true, au⟩).setFld (R.TMU_TOUT_CTL_SKIP n) (min k 65535)).bumpBy
      R.SWT_SKIP_OCC_CNT k

/-- The value whose write to TMU_TOUTn_CTL arms (1) or disarms (2) and leaves every other field as it is: LATE is cleared by a 1 (R11, R111). -/
def State.toutCtl (s : State) (n v : Nat) : Nat := putBits (putBit (s.reg (R.TMU_TOUT_CTL n)) 5 false) 1 0 v

/-- DISARM: the output stops; a pulse at its active level completes (R103). -/
def State.toutDisarm (s : State) (n : Nat) : State := s.setTout n { s.tout n with run := false }

/-- The whole ticks of 1.25 ns that a pulse of `w` ns lasts (R101). -/
def pulseTicks (w : Nat) : Nat := cdiv (4 * w) 5

/-- The pulse of an armed occurrence that has been reached (R101, R60, R104). A pulse still at its active level completes its width (R103).
TMU_TOUTn_LATE.NS takes the lateness in whole ns, a fraction rounded down (DESIGN CHOICE, log entry 93). -/
def State.toutFire (s : State) (n : Nat) : State :=
  let o := s.tout n
  let due := if o.per = 0 then (if o.late then o.fireAt else o.start) else o.occ o.nextJ
  if o.run ∧ due ≤ s.now then
    let till := max o.activeUntil (s.tmu.tick + pulseTicks o.width)
    let o1 : Tout := { o with activeUntil := till, nextJ := o.nextJ + 1, doneJ := o.nextJ + 1, run := decide (o.per ≠ 0) }
    let s1 := s.setTout n { o1 with late := false }
    if o.late then
      ((s1.setFld (R.TMU_TOUT_CTL_LATE n) 1).setReg (R.TMU_TOUT_LATE n) (min 0xFFFFFFFF ((s.now - o.start) / 65536))).lateAct
    else s1
  else s

/-- TOUT_PULSE (R101). -/
def execToutPulse (n : Fin 4) (s : State) : Host.Outcome State Fault Refusal := .next (s.toutFire n.val)

/-- Whether an output is at its active level (R101, R103). -/
def State.toutActive (s : State) (n : Nat) : Bool := decide (s.tmu.tick < (s.tout n).activeUntil)

/-- The electrical level of an output pin: POL says which level is the active one (R103, R111). -/
def State.toutPin (s : State) (n : Nat) : Bool := s.toutActive n != s.flag (R.TMU_TOUT_CTL_POL n)

/-! ### Register views, rules and effects -/

/-- The registers of the TMU that mirror state (R106, R107, R109, R111). RUN reads 1 while the last pulse of an output that was disarmed, or of a
finished one, is still at its active level; R111 says 'armed and not finished' (DESIGN CHOICE, log entry 93). -/
def tmuView (s : State) (i2c : Bool) (a : Nat) : Option Nat :=
  let lat := if i2c then s.tmu.latI else s.tmu.latQ
  let tin (n o : Nat) : Nat :=
    let x := s.tin n
    let lat := if i2c then x.latchI else x.latch
    match o with
    | 4 => x.fifo.length
    | 12 => lat / secI % 2 ^ 32
    | 16 => lat % secI / 65536
    | _ => lat % 65536
  if a = R.TMU_STAT then
    some (putBits (putBits (putBits (s.reg a) 10 8 s.tmu.srv.lock.code) 7 7 (b2n s.tmu.srv.pendEn)) 6 4
      s.tmu.srv.st.code)
  else if a = R.TMU_TIME_SEC_HI then some (lat / secI / 2 ^ 32 % 2 ^ 16)
  else if a = R.TMU_TIME_SEC_LO then some (lat / secI % 2 ^ 32)
  else if a = R.TMU_TIME_NS then some (lat % secI / 65536)
  else if a = R.TMU_TIME_FRAC then some (lat % 65536)
  else if a = R.TMU_OFS_STAT then some s.tmu.ofs.length
  else if 0x20100 ≤ a ∧ a < 0x20180 ∧ a % 0x20 = 0x18 then
    let n := (a - 0x20100) / 0x20
    some (putBit (s.reg a) 4 ((s.tout n).run || s.toutActive n))
  else if 0x20200 ≤ a ∧ a < 0x202A0 ∧ (a % 0x20 = 4 ∨ a % 0x20 = 12 ∨ a % 0x20 = 16 ∨ a % 0x20 = 20) then
    some (tin ((a - 0x20200) / 0x20) (a % 0x20))
  else none

/-- The step amount that TMU_STEP_SEC and TMU_STEP_NS hold, in ns (R73). -/
def State.stepAmount (s : State) : Int := sgn 32 (s.reg R.TMU_STEP_SEC) * 1000000000 + s.fld R.TMU_STEP_NS_NS

/-- The SET value that the registers hold, in ns (R73). -/
def State.setValue (s : State) : Nat :=
  (s.fld R.TMU_SET_SEC_HI_SEC_HI * 2 ^ 32 + s.reg R.TMU_SET_SEC_LO) * 1000000000 + s.fld R.TMU_SET_NS_NS

/-- What a write of TMU_CTL makes pending (R73). -/
def State.ctlPend (s : State) (v : Nat) : State :=
  let s1 := if tb v 0 then (s.setTmu { s.tmu with pendSet := some s.setValue }) else s
  if tb v 1 then (s1.setTmu { s1.tmu with pendStep := some (s1.tmu.pendStep.getD 0 + s.stepAmount) }) else s1

/-- The rules of the TMU for a write of `v` to `a` (R72-R74, R91, R102, R109-R111): a status when it is refused. -/
def tmuRule (s : State) (a v : Nat) : Option Nat :=
  let bad (b : Bool) : Option Nat := if b then some St.state else none
  if a = R.TMU_CTL then
    let t := s.ctlPend v
    bad ((tb v 0 && decide (1000000000 ≤ s.fld R.TMU_SET_NS_NS)) || (tb v 1 && decide (1000000000 ≤ s.fld R.TMU_STEP_NS_NS)) ||
      ((tb v 0 || tb v 1) && !s.stepAllowed (combined s.tmu.acc t.tmu.pendSet t.tmu.pendStep)))
  else if a = R.TMU_ADDEND then
    bad (decide (s.tmu.srv.st ≠ .off) || decide (v < 0x013FD70A) || decide (0x014028F6 < v))
  else if a = R.TMU_ADDEND_EXT then bad (decide (s.tmu.srv.st ≠ .off))
  else if a = R.TMU_SRV_CTL then
    bad (decide (2 ≤ bits v 2 1) || (tb v 0 && s.fld R.TMU_SRV_CTL_EN == 0 && decide (s.tmu.srv.st = .failed)))
  else if a = R.TMU_SRV_KP then bad (decide (v = 0))
  else if a = R.TMU_SRV_PULL then bad (decide (bits v 19 0 < 1) || decide (500000 < bits v 19 0))
  else if a = R.TMU_SRV_SLEW then bad (decide (bits v 19 0 < 100) || decide (200000 < bits v 19 0))
  else if a = R.TMU_SRV_LOCK then bad (decide (bits v 31 24 = 0) || decide (bits v 23 16 = 0) || decide (bits v 15 0 = 0))
  else if a = R.TMU_SRV_UNLK then bad (decide (bits v 23 0 = 0))
  else if a = R.TMU_SRV_HOLD then bad (decide (bits v 31 16 = 0) || decide (bits v 15 0 = 0))
  else if a = R.TMU_SRV_ROUTE then bad (decide (bits v 31 16 = 0) || decide (bits v 15 0 = 0))
  else if a = R.TMU_TC_CFG then bad (decide (bits v 1 0 = 3))
  else if 0x20100 ≤ a ∧ a < 0x20180 ∧ a % 0x20 = 0x18 then
    bad (tb v 0 && !s.toutArmOk ((a - 0x20100) / 0x20))
  else none

/-- Whether a write arms something late, so that its reply is E_LATE (R60). R61 does not say whether a periodic action armed late is answered
E_LATE too: the model answers an output's so, since R167 gives E_LATE to R60 to R62 alike (DEDUCED, log entry 77). -/
def tmuLate (s : State) (a v : Nat) : Bool :=
  decide (0x20100 ≤ a) && decide (a < 0x20180) && decide (a % 0x20 = 0x18) && tb v 0 && s.toutLate ((a - 0x20100) / 0x20)

/-- The effects of a write of `v` to `a` beyond storing it; `old` is the value stored before. Of a write with ARM and DISARM both 1 the spec does
not say which counts: the output is armed and DISARM ignored (DESIGN CHOICE, log entry 93). -/
def tmuEffect (s : State) (a old v : Nat) : State :=
  if a = R.TMU_CFG then s.refWrite (tb v 0)
  else if a = R.TMU_CTL then s.ctlPend v
  else if a = R.TMU_SRV_CTL then (if tb v 0 = tb old 0 then s else s.srvRequest (tb v 0))
  else if 0x20100 ≤ a ∧ a < 0x20180 ∧ a % 0x20 = 0x18 then
    let n := (a - 0x20100) / 0x20
    if tb v 0 then s.toutArm n else if tb v 1 then s.toutDisarm n else s
  else s

/-! ### Transparent clock (R98-R100) -/

/-- The role of the PTP clock: 0 none, 1 ordinary, 2 boundary (R97). -/
def State.ptpRole (s : State) : Nat := u8 s.tmu.ptpRole 0

/-- Where a PTP message starts in a frame, when the frame is PTP over L2 or UDP to port 319 (R98). -/
def ptpOff (b : Bytes) (e : Eth) : Option Nat :=
  if e.etype = 0x88F7 then some e.off
  else if udpDst b e = some 319 then (udpAt b e).map (· + 8)
  else none

/-- The versions that the part supports: versionPTP 2 with minorVersionPTP 0 or 1 (R96), as the byte after the message type gives them. -/
def ptpVersion (v : Nat) : Bool := v % 16 == 2 && decide (v / 16 ≤ 1)

/-- The amount of R99 for a message type: none when nothing is added. -/
def State.tcAmount (s : State) (mode ty ingress : Nat) (residence : Int) : Option Int :=
  if mode = 1 then (if ty < 4 then some residence else none)
  else if mode = 2 ∧ ty = 0 then
    some (residence + (s.reg (R.TMU_LINKDLY ingress) : Int) * 256 + sgn 32 (s.reg (R.TMU_ASYM ingress)) * 256)
  else none

/-- Replace `n` bytes of a frame at an offset. -/
def patch (b : Bytes) (off : Nat) (x : Bytes) : Bytes := b.take off ++ x ++ b.drop (off + x.length)

/-- The incremental update of a UDP checksum when words of a frame change (R100). -/
def csumUpdate (c : Nat) (old new : Bytes) : Nat :=
  let n := 0xFFFF - fold16 (fold16 ((0xFFFF - c) + sum16 (old.map (~~~ ·)) + sum16 new))
  if n = 0 then 0xFFFF else n

/-- The correction of a frame of PTP version 2 (R96) in transit as it leaves port `p` with transmit stamp `tx` (R98-R100): state and bytes. -/
def State.tcCorrect (s : State) (p : Nat) (f : TxFrame) (tx : Inst) : State × Bytes :=
  let b := f.bytes
  let e := parseEth b
  let cfg := s.reg R.TMU_TC_CFG
  match f.ingress, ptpOff b e with
  | some (ip, rx), some off =>
    if ptpVersion (u8 b (off + 1)) = false ∨ bits cfg 1 0 = 0 ∨ tb cfg (16 + p) = false ∨ tb cfg (16 + ip) = false ∨ 7 ≤ p ∨ 7 ≤ ip ∨
        (tb cfg 2 ∧ u8 b (off + 4) ≠ bits cfg 15 8) then (s, b)
    else match s.tcAmount (bits cfg 1 0) (u8 b off % 16) ip ((tx : Int) - rx) with
      | none => (s, b)
      | some add =>
        let old := sgn 64 (num b (off + 8) 8)
        let sum := old + add
        let ovf := decide (0x7FFFFFFFFFFFFFFF < sum)
        let new := be 8 (unsgn 64 (if ovf then 0x7FFFFFFFFFFFFFFF else sum))
        let b1 := patch b (off + 8) new
        let co := off - 2
        let c := num b co 2
        let b2 := if e.etype = 0x88F7 ∨ (e.etype = 0x0800 ∧ c = 0) then b1
          else patch b1 co (be 2 (csumUpdate c (sub b (off + 8) 8) new))
        let s1 := s.bump R.TMU_TC_CNT
        (if ovf then s1.bump R.TMU_TC_OVF_CNT else s1, b2)
  | _, _ => (s, b)

end Sys2Proof.Machine
end

