-- ==== Sys2Proof/Machine/Mac.lean ====
section
/-! DEFINITION. The Ethernet ports (R113-R147): states, reception, classes, flow control, transmission, S0, MDIO. -/

namespace Sys2Proof.Machine

open Sys2Proof

/-! ### Port states and link (R116, R117) -/

/-- Set the state of a port and report the transition (R20). -/
def State.setPortSt (s : State) (p : Nat) (x : FnState) : State :=
  (s.setFld (R.MAC_STAT_STATE p) x.code).report (.port p) (s.portSt p) x

/-- Set the link of a port; every change sets MAC_EVT.LINK (R116). On ports 0-6 the FEC is aligned while the link is up. -/
def State.setLink (s : State) (p : Nat) (up : Bool) : State :=
  if s.flag (R.MAC_STAT_LINK p) = up then s
  else
    let s1 := s.setFld (R.MAC_STAT_LINK p) (b2n up)
    (if p < 7 then s1.setFld (R.MAC_STAT_FEC_LOCK p) (b2n up) else s1).raise R.MAC_EVT (2 ^ p)

/-- Loss of link while ON or STOPPING: counted and reported (R116). -/
def State.loseLink (s : State) (p : Nat) : State :=
  if s.flag (R.MAC_STAT_LINK p) then (s.bump (R.MAC_LINK_DOWN_CNT p)).setLink p false else s

/-- Whether a port holds no frame to send. -/
def Port.idle (x : Port) : Bool :=
  x.txq.all (·.2.isEmpty) && x.waiting.all (·.2.isEmpty) && x.wire.isNone

/-- What was written while a port was OFF takes effect as it leaves OFF (R145). -/
def State.latchPort (s : State) (p : Nat) : State :=
  s.setPort p { s.port p with maxF := some (s.fld (R.MAC_MAXFRM_LEN p)), roleF := some (s.fld (R.MAC_CFG_ROLE p)) }

/-- A port's enable or disable (R18, R599). -/
def State.portRequest (s : State) (p : Nat) (en : Bool) : State :=
  let x := s.port p
  match s.portSt p, en with
  | .off, true => ((s.setPort p { x with disHeld := false }).latchPort p).setPortSt p .starting
  | .starting, false => s.setPort p { x with disHeld := true }
  | .on, false => s.setPortSt p .stopping
  | .failed, false => s.setPortSt p .stopping
  | .stopping, true => s.setFld (R.MAC_STAT_PEND_EN p) 1
  | .stopping, false => s.setFld (R.MAC_STAT_PEND_EN p) 0
  | _, _ => s

/-- PORT_START_DONE (R116, R139): the port reaches ON; S0 with AUTO holds the link down until in-band status is seen. A
disable held during the start is carried out at the same instant (R18). -/
def execPortStartDone (p : Fin 8) (live : Bool) (s : State) : Host.Outcome State Fault Refusal :=
  let q := p.val
  .next (if s.portSt q = .starting then
    let x := s.port q
    let s1 := (s.setPort q { x with disHeld := false, live := live }).setPortSt q .on
    let s2 := if q = 7 then (s1.setFld (R.MAC_STAT_SPEED 7) (s.fld (R.MAC_PHY_SPEED 7))).setFld (R.MAC_STAT_DUPLEX 7)
        (s.fld (R.MAC_PHY_DUPLEX 7)) else s1
    let s3 := if live ∧ ¬(q = 7 ∧ s.flag (R.MAC_PHY_AUTO 7)) then s2.setLink q true else s2
    if x.disHeld then s3.setPortSt q .stopping else s3
  else s)

/-- A port goes to FAILED (R116); a disable held during its start is then carried out (R19). A PENDING_ENABLE held in STOPPING is kept, and a
later disable from FAILED leaves it set, so that the port starts again on reaching OFF (DESIGN CHOICE, log entry 71). -/
def State.portFail (s : State) (p : Nat) : State :=
  let x := s.port p
  let s1 := ((s.setLink p false).setPortSt p .failed).raise R.MAC_EVT (2 ^ (24 + p))
  if x.disHeld then (s1.setPort p { x with disHeld := false }).setPortSt p .stopping else s1

/-- PORT_CAL_FAIL (R116). -/
def execPortCalFail (p : Fin 8) (s : State) : Host.Outcome State Fault Refusal :=
  .next (if s.portSt p.val = .starting then s.portFail p.val else s)

/-- LANE_PLL_LOSS (R116): ports 0-6 have a lane. -/
def execLanePllLoss (p : Fin 8) (s : State) : Host.Outcome State Fault Refusal :=
  let st := s.portSt p.val
  .next (if p.val ≠ 7 ∧ (st = .starting ∨ st = .on ∨ st = .stopping) then s.portFail p.val else s)

/-- LINK_UP (R116); the link of S0 in AUTO mode comes from in-band status (R139). -/
def execLinkUp (p : Fin 8) (s : State) : Host.Outcome State Fault Refusal :=
  let st := s.portSt p.val
  .next (if (st = .on ∨ st = .stopping) ∧ ¬(p.val = 7 ∧ s.flag (R.MAC_PHY_AUTO 7)) then
    (s.setPort p.val { s.port p.val with live := true }).setLink p.val true else s)

/-- PORT_STOP_DONE (R117, R18): every queue is empty, and the port reaches OFF; a held enable starts it again. -/
def execPortStopDone (p : Fin 8) (s : State) : Host.Outcome State Fault Refusal :=
  let q := p.val
  .next (if s.portSt q = .stopping ∧ (s.port q).idle then
    let s1 := (s.setLink q false).setPortSt q .off
    if s.flag (R.MAC_STAT_PEND_EN q) then ((s1.setFld (R.MAC_STAT_PEND_EN q) 0).portRequest q true) else s1
  else s)

/-- RGMII_INBAND_STATUS (R139): 1,000 Mbit/s half duplex and the speed code 0b11 hold the link down. -/
def execRgmiiInbandStatus (link : Bool) (speed : Fin 4) (full : Bool) (s : State) : Host.Outcome State Fault Refusal :=
  let st := s.portSt 7
  .next (if (st = .on ∨ st = .stopping) ∧ s.flag (R.MAC_PHY_AUTO 7) then
    let s1 := s.setPort 7 { s.port 7 with live := link }
    let s2 := (s1.setFld (R.MAC_STAT_SPEED 7) speed.val).setFld (R.MAC_STAT_DUPLEX 7) (b2n full)
    if link && decide (speed.val ≠ 3) && (full || decide (speed.val ≠ 2)) then s2.setLink 7 true else s2.loseLink 7
  else s)

/-! ### Classes and flow control (R122, R130-R134) -/

/-- The class of a received frame (R122). -/
def State.classify (s : State) (p : Nat) (b : Bytes) : Nat :=
  let e := parseEth b
  if e.etype = 0x88B5 ∧ s.flag (R.MAC_CFG_QCP_EN p) then 7
  else if isPtp b e then 6
  else match e.tags with
    | t :: _ => s.reg (R.MAC_PCP2TC p) / 8 ^ (bits t.toNat 15 13) % 8
    | [] => s.fld (R.MAC_CFG_UNTAG_TC p)

/-- The fill of a class buffer in bytes: frames that wait for the packet engine or a mailbox, and frames that wait for a receive ring (R133). -/
def State.fill (s : State) (p n : Nat) : Nat :=
  sumL ((kgetD (s.port p).rxq n []).map fun f => flen f.bytes) +
    sumL (s.mmu.rings.map fun r => sumL (r.2.frames.map fun f => if f.2.1 = n ∧ f.2.2 = p then flen f.1.bytes else 0))

/-- The time of `n` bits on S0 at its speed, in 2^-16 ns (R139). -/
def State.s0Bits (s : State) (n : Nat) : Nat :=
  match s.fld (R.MAC_STAT_SPEED 7) with
  | 0 => n * nsI 100 | 1 => n * nsI 10 | _ => n * nsI 1

/-- The time of pause quanta on a port, in 2^-16 ns rounded up: 512 bit times each, 5.12 ns at 100 Gbit/s (R134). -/
def State.quanta (s : State) (p n : Nat) : Nat := if p < 7 then cdiv (n * nsI 512) 100 else s.s0Bits (512 * n)

/-- Watermark test of one class: enter XOFF at HI or more, leave below LO (R130). -/
def State.xoffBit (s : State) (p n : Nat) : Bool :=
  let f := s.fill p n
  if tb (s.fld (R.MAC_PAUSED_XOFF p)) n then decide (s.fld (R.MAC_WM_LO p n) * 1024 ≤ f)
  else tb (s.fld (R.MAC_FC_TX_EN p)) n && decide (s.fld (R.MAC_WM_HI p n) * 1024 ≤ f)

/-- The XOFF states follow the fills; with flow control on, changes fall due to be told to the peer (R130-R132). -/
def State.xoffCheck (s : State) (p : Nat) : State :=
  let old := s.fld (R.MAC_PAUSED_XOFF p)
  let new := sumL ((List.range 7).map fun n => b2n (s.xoffBit p n) * 2 ^ n)
  if new = old then s
  else
    let s1 := s.setFld (R.MAC_PAUSED_XOFF p) new
    let x := s1.port p
    let mode := s.fld (R.MAC_FC_MODE p)
    let due := if mode = 1 then x.fcDue ||| (old ^^^ new)
      else if mode = 2 ∧ (old = 0 ∨ new = 0) then 0x7F else x.fcDue
    let ra := if old = 0 then s.loc + s.quanta p (s.fld (R.MAC_FC_TIME_REFRESH p)) else x.refreshAt
    s1.setPort p { x with fcDue := due, refreshAt := ra }

/-- Set or end the pause of a class by the peer (R134). -/
def State.peerPause (s : State) (p n quanta : Nat) : State :=
  let x := s.port p
  if quanta = 0 then
    (s.setPort p { x with pauseUntil := kdel x.pauseUntil n }).setFld (R.MAC_PAUSED_PEER p)
      (putBit (s.fld (R.MAC_PAUSED_PEER p)) n false)
  else
    (s.setPort p { x with pauseUntil := kset x.pauseUntil n (s.loc + s.quanta p quanta) }).setFld (R.MAC_PAUSED_PEER p)
      (putBit (s.fld (R.MAC_PAUSED_PEER p)) n true)

/-- A received PFC frame (R134): class-enable vector, then a time for each class. -/
def State.pfcRx (s : State) (p : Nat) (b : Bytes) (off : Nat) : State :=
  if s.fld (R.MAC_FC_MODE p) = 1 then
    (List.range 8).foldl (fun t n =>
      if tb (num b off 2) n && tb (s.fld (R.MAC_FC_RX_EN p)) n then t.peerPause p n (num b (off + 2 + 2 * n) 2) else t) s
  else s

/-- A received PAUSE frame (R134). -/
def State.pauseRx (s : State) (p : Nat) (quanta : Nat) : State :=
  if s.fld (R.MAC_FC_MODE p) = 2 then (List.range 8).foldl (fun t n => t.peerPause p n quanta) s else s

/-- PAUSE_QUANTA_EXPIRY (R134). -/
def execPauseQuantaExpiry (p : Fin 8) (tc : Fin 8) (s : State) : Host.Outcome State Fault Refusal :=
  .next (match kget (s.port p.val).pauseUntil tc.val with
    | some t => if t ≤ s.loc then s.peerPause p.val tc.val 0 else s
    | none => s)

/-- PFC_REFRESH (R131): a renewing frame falls due for every class in XOFF. -/
def execPfcRefresh (p : Fin 8) (s : State) : Host.Outcome State Fault Refusal :=
  let q := p.val
  let x := s.port q
  let xo := s.fld (R.MAC_PAUSED_XOFF q)
  .next (if xo ≠ 0 ∧ x.refreshAt ≤ s.loc ∧ (s.fld (R.MAC_FC_MODE q) = 1 ∨ s.fld (R.MAC_FC_MODE q) = 2) then
    s.setPort q { x with fcDue := x.fcDue ||| xo, refreshAt := x.refreshAt + s.quanta q (s.fld (R.MAC_FC_TIME_REFRESH q)) }
  else s)

/-! ### Reception (R93, R94, R118-R122, R129, R135) -/

/-- The receive stamp of a frame whose SFD passed `ago` earlier (R93, R94). -/
def State.rxStamp (s : State) (p ago : Nat) : Inst :=
  let raw := s.stampAgo ago
  if p < 7 then ((raw : Int) - sgn 32 (s.reg (R.MAC_TSCOR_RX p))).toNat else raw / nsI 8 * nsI 8

/-- The size of a class buffer in bytes (R129). -/
def State.classRoom (s : State) (p n : Nat) : Nat := s.fld (R.MAC_IBUF_KIB p n) * 1024

/-- Whether a frame is a muzzle frame on its port (R150). -/
def State.isMuzzle (s : State) (p : Nat) (b : Bytes) : Bool :=
  let e := parseEth b
  e.etype == 0x88B5 && u8 b e.off % 16 == 0xF && tb (s.fld R.QCP_MZ_CFG_PORTS) p

/-- Take the oldest frame from a class buffer; the XOFF states follow (R130, R133). -/
def State.rxTake (s : State) (p n : Nat) : Option (RxFrame × State) :=
  let x := s.port p
  match kgetD x.rxq n [] with
  | [] => none
  | f :: r => some (f, (s.setPort p { x with rxq := kset x.rxq n r }).xoffCheck p)

/-- The enabled receive ring of the firmware that takes the frames of a port: rings of the firmware lie on S0 alone, and its RX descriptors
name the port (R136, R388; log entry 23). -/
def State.ringOf (s : State) (p : Nat) : Option (Nat × DRing) :=
  if p = 7 then s.mmu.rings.find? fun r => r.2.en && decide (2 ≤ r.1 % 8) && r.2.rxPorts.contains p else none

/-! ### Transmission (R117, R121, R124-R127, R131) -/

/-- The group address of MAC control frames. -/
def ctlDst : Nat := 0x0180C2000001

/-- The PFC or PAUSE frame now due on a port, with its counter (R131). -/
def State.fcFrame (s : State) (p : Nat) : Bytes × Nat :=
  let x := s.port p
  let xo := s.fld (R.MAC_PAUSED_XOFF p)
  let q := s.fld (R.MAC_FC_TIME_QUANTA p)
  if s.fld (R.MAC_FC_MODE p) = 2 then
    (padFrame (ethFrame ctlDst (s.macOf p) [] 0x8808 (be 2 1 ++ be 2 (if xo = 0 then 0 else q))), R.MAC_TX_PAUSE_CNT p)
  else
    let times := (List.range 8).flatMap fun n => be 2 (if tb x.fcDue n && tb xo n then q else 0)
    (padFrame (ethFrame ctlDst (s.macOf p) [] 0x8808 (be 2 0x0101 ++ be 2 x.fcDue ++ times)),
      if x.fcDue &&& xo = 0 then R.MAC_TX_XON_CNT p else R.MAC_TX_XOFF_CNT p)

/-- Replace the PCP of a frame's outer tag by the entry of its class (R124). -/
def State.pcpRewrite (s : State) (p : Nat) (f : TxFrame) : Bytes :=
  if isTpid (num f.bytes 12 2) ∧ s.flag (R.MAC_CFG_PCP_REWRITE p) then
    let tci := num f.bytes 14 2
    patch f.bytes 14 (be 2 (putBits tci 15 13 (s.reg (R.MAC_TC_PCP p) / 8 ^ f.tc % 8)))
  else f.bytes

/-- A frame as it starts on the wire: its PCP is the one of its class now (R114, R124). -/
def State.onWire (s : State) (p : Nat) (f : TxFrame) : TxFrame := { f with bytes := s.pcpRewrite p f }

/-- A frame leaves: stamp, correction, counters, capture, write-back (R93, R95, R98, R458). -/
def State.sendFrame (s : State) (p : Nat) (f : TxFrame) : State :=
  let stamp := if p < 7 then ((s.now : Int) + sgn 32 (s.reg (R.MAC_TSCOR_TX p))).toNat else s.now
  let (s1, b) := s.tcCorrect p f stamp
  let s2 := (s1.bump (R.MAC_TX_FRM_CNT p)).bump64 (R.MAC_TX_BYTE_CNT_LO p) (flen b)
  let leg := match f.origin with | .leg l => some l | _ => none
  (s2.capFrame p 1 b f.tc leg stamp).txDone { f with bytes := b } St.ok (if f.tsReq ∧ p < 7 then some stamp else none) false

/-- Whether a port sends nothing now: not ON, or ON with link down (R117). -/
def State.notSending (s : State) (p : Nat) : Bool := s.portSt p != .on || !s.flag (R.MAC_STAT_LINK p)

/-- Discard the frames at the head of one class that R117 or R127 discards (fuel: frames). -/
def State.purge (s : State) (p n : Nat) : Nat → State
  | 0 => s
  | k + 1 =>
    let x := s.port p
    match kgetD x.txq n [] with
    | [] => s
    | f :: r =>
      if s.notSending p then
        (((s.setPort p { x with txq := kset x.txq n r }).bump (R.MAC_TX_DISCARD_CNT p)).txDone f St.state none false).purge p n k
      else if s.meetsGate p f then
        (((s.setPort p { x with txq := kset x.txq n r }).bump (R.MAC_TX_GATE_DROP_CNT p)).txDone f St.state none true).purge p n k
      else s

/-- Discard at the heads of every class. -/
def State.purgeAll (s : State) (p : Nat) : State :=
  (List.range 8).foldl (fun t n => t.purge p n (kgetD (t.port p).txq n []).length) s

/-- The highest class whose queue is non-empty and which the peer does not pause (R125). -/
def State.nextClass (s : State) (p : Nat) : Option Nat :=
  let x := s.port p
  [7, 6, 5, 4, 3, 2, 1, 0].find? fun n => !(kgetD x.txq n []).isEmpty && !tb (s.fld (R.MAC_PAUSED_PEER p)) n

/-- Whether S0 runs in half duplex (R139). -/
def State.halfDuplex (s : State) (p : Nat) : Bool := p == 7 && s.fld (R.MAC_STAT_DUPLEX 7) == 0

/-- Complete the frame on the wire of S0 in half duplex. -/
def State.wireDone (s : State) (p : Nat) : State :=
  let x := s.port p
  match x.wire with
  | some f => if x.backoff.isSome then s else (s.setPort p { x with wire := none, attempts := 0 }).sendFrame p f
  | none => s

/-- MAC_TX_SELECT (R125): a PFC or PAUSE frame first, then the head of the highest class that may send. -/
def execMacTxSelect (p : Fin 8) (s : State) : Host.Outcome State Fault Refusal :=
  let q := p.val
  let s0 := s.wireDone q
  let s1 := s0.purgeAll q
  let x := s1.port q
  .next (if s1.notSending q ∨ x.wire.isSome then s1
    else if x.fcDue ≠ 0 ∧ s1.fld (R.MAC_FC_MODE q) ≠ 0 then
      let (_, cnt) := s1.fcFrame q
      (s1.setPort q { x with fcDue := 0 }).bump cnt
    else match s1.nextClass q with
      | none => s1
      | some n => match kgetD x.txq n [] with
        | [] => s1
        | f :: r =>
          let s2 := s1.setPort q { x with txq := kset x.txq n r }
          let g := s2.onWire q f
          if s2.halfDuplex q then s2.setPort q { s2.port q with wire := some g, attempts := 0 } else s2.sendFrame q g)

/-- The first waiting frame that fits and has no frame of its producer before it, with its place. -/
def nextWaiting (room : Nat) : List TxFrame → List TxFrame → Option (TxFrame × List TxFrame)
  | _, [] => none
  | before, f :: r =>
    if flen f.bytes ≤ room ∧ before.all (fun g => !g.origin.same f.origin) then some (f, before ++ r) else nextWaiting room (before ++ [f]) r

/-- TX_QUEUE_ENTRY (R126, R359): a frame that waited enters its queue when there is room. -/
def execTxQueueEntry (p : Fin 8) (tc : Fin 8) (s : State) : Host.Outcome State Fault Refusal :=
  let x := s.port p.val
  let q := kgetD x.txq tc.val []
  .next (match nextWaiting (131072 - txBytes q) [] (kgetD x.waiting tc.val []) with
    | none => s
    | some (f, r) => s.setPort p.val { x with txq := kset x.txq tc.val (q ++ [f]), waiting := kset x.waiting tc.val r })

/-- S0_COLLISION (R140, R141): jam and back off, or discard at a late or 16th collision. -/
def execS0Collision (bitTimes : Nat) (s : State) : Host.Outcome State Fault Refusal :=
  let x := s.port 7
  .next (match x.wire with
    | none => s
    | some f =>
      if s.halfDuplex 7 = false ∨ x.backoff.isSome then s
      else
        let s1 := s.bump (R.MAC_TX_COL_CNT 7)
        if 512 < bitTimes then
          ((s1.setPort 7 { x with wire := none, attempts := 0 }).bump (R.MAC_TX_LATE_COL_CNT 7)).txDone f St.busy none false
        else if 15 ≤ x.attempts then
          ((s1.setPort 7 { x with wire := none, attempts := 0 }).bump (R.MAC_TX_EXCESS_COL_CNT 7)).txDone f St.busy none false
        else
          let slots := s.draw 10 % 2 ^ min (x.attempts + 1) 10
          s1.drawn.setPort 7 { x with attempts := x.attempts + 1, backoff := some (s.loc + s.s0Bits (32 + 512 * slots)) })

/-- A frame of S0 whose back-off ends goes on the wire again, unless R117 or a gate that closed meanwhile discards it (R127, R140, R181). -/
def State.s0Again (s : State) (f : TxFrame) : State :=
  let gone := s.setPort 7 { s.port 7 with wire := none, backoff := none, attempts := 0 }
  if s.notSending 7 then (gone.bump (R.MAC_TX_DISCARD_CNT 7)).txDone f St.state none false
  else if s.meetsGate 7 f then (gone.bump (R.MAC_TX_GATE_DROP_CNT 7)).txDone f St.state none true
  else s.setPort 7 { s.port 7 with backoff := none }

/-- S0_BACKOFF_EXPIRY (R140): the back-off, a free number of slots below 2^min(n, 10) after the jam of the nth collision, has run out. -/
def execS0BackoffExpiry (s : State) : Host.Outcome State Fault Refusal :=
  .next (match (s.port 7).backoff, (s.port 7).wire with
    | some t, some f => if t ≤ s.loc then s.s0Again f else s
    | _, _ => s)

/-! ### MDIO (R142, R143, R147) -/

/-- Start the frame of a MAC_MDIO_CMD value. -/
def State.mdioStart (s : State) (v : Nat) (own : Bool) : State :=
  let s1 := (s.setReg R.MAC_MDIO_CMD (bits v 30 28 * 2 ^ 28 + v % 2 ^ 26)).setFld R.MAC_MDIO_STAT_BUSY 1
  { s1 with mdio := { s1.mdio with own := own } }

/-- Start the first waiting PORT_MDIO job when the master is free. -/
def State.mdioNext (s : State) : State :=
  if s.flag R.MAC_MDIO_STAT_BUSY then s
  else match s.mdio.jobs with
    | ⟨_, _, _, _, w :: _⟩ :: _ => s.mdioStart w true
    | _ => s

/-- The firmware's write of MAC_MDIO_CFG; a DIV below 200 is refused (R142). -/
def State.mdioCfg (s : State) (v : Nat) : State := if bits v 9 0 < 200 then s else s.setReg R.MAC_MDIO_CFG (v % 2 ^ 11)

/-- MAC_MDIO_GO (R142): the firmware writes MAC_MDIO_CFG, then MAC_MDIO_CMD with GO; while a frame runs GO is refused (log entry 76). -/
def execMacMdioGo (cfg v : Word) (s : State) : Host.Outcome State Fault Refusal :=
  let t := s.mdioCfg cfg.toNat
  .next (if t.flag R.MAC_MDIO_STAT_BUSY ∨ tb v.toNat 31 = false then t else t.mdioStart v.toNat false)

/-- Whether a MAC_MDIO_CMD value is a read frame. -/
def mdioReads (v : Nat) : Bool := if tb v 30 then decide (2 ≤ bits v 29 28) else bits v 29 28 == 2

/-- The running job's frame has ended: its next frame, or its reply (R143). -/
def State.mdioJobDone (s : State) (isRead : Bool) (rdata : Option (BitVec 16)) : State :=
  match s.mdio.jobs with
  | [] => s
  | j :: js =>
    match j.words.drop 1 with
    | w :: ws => { s with mdio := { s.mdio with jobs := { j with words := w :: ws } :: js } }
    | [] =>
      let s1 := { s with mdio := { s.mdio with jobs := js } }
      if isRead then match rdata with
        | some d => s1.replyLate j.mbox j.seq j.opcode St.ok 0 j.jrn (be 2 d.toNat ++ be 2 0)
        | none => s1.replyLate j.mbox j.seq j.opcode St.fault 0 j.jrn []
      else s1.replyLate j.mbox j.seq j.opcode St.ok 0 j.jrn []

/-- MDIO_FRAME_DONE (R142, R143): read data, or a read that found no turnaround response. -/
def execMdioFrameDone (rdata : Option (BitVec 16)) (s : State) : Host.Outcome State Fault Refusal :=
  .next (if s.flag R.MAC_MDIO_STAT_BUSY then
    let rd := mdioReads (s.reg R.MAC_MDIO_CMD)
    let s1 := s.setFld R.MAC_MDIO_STAT_BUSY 0
    let s2 := if rd then
        (s1.setFld R.MAC_MDIO_STAT_ERR (b2n rdata.isNone)).setFld R.MAC_MDIO_STAT_RDATA
          (match rdata with | some d => d.toNat | none => 0xFFFF)
      else s1
    let s3 := if s.mdio.own then s2.mdioJobDone rd rdata else s2
    s3.mdioNext
  else s)

/-- The MAC_MDIO_CMD words of a PORT_MDIO command: one Clause 22 frame, or an address frame and an access frame (R143). -/
def mdioWords (b : Bytes) (write : Bool) : List Nat :=
  let base := u8 b 1 * 2 ^ 21 + u8 b 2 * 2 ^ 16
  if u8 b 0 = 22 then [base + (if write then 1 else 2) * 2 ^ 28 + (if write then num b 6 2 else 0)]
  else [base + 2 ^ 30 + num b 4 2, base + 2 ^ 30 + (if write then 1 else 3) * 2 ^ 28 + (if write then num b 6 2 else 0)]

/-- The check of a PORT_MDIO payload: clause 22 or 45, addresses to 31 (R143). -/
def mdioChk (b : Bytes) : Chk :=
  Chk.first [(u8 b 0 != 22 && u8 b 0 != 45, .at_ 0), (decide (31 < u8 b 1), .at_ 1), (decide (31 < u8 b 2), .at_ 2)] (.ok [])

/-- Queue a PORT_MDIO job; its reply comes when its frames have run. -/
def State.mdioJob (s : State) (c : Ctx) (jrn : Bool) (w : List Nat) : State :=
  ({ s with mdio := { s.mdio with jobs := s.mdio.jobs ++ [(⟨c.mbox, c.seq, c.opcode, jrn, w⟩ : MdioJob)] } } : State).mdioNext

/-- PORT_MDIO_WRITE (R143). -/
def opPortMdioWrite : OpDef :=
  { minRole := 1, jrnl := fun _ => true, badLen := lenIs 8, bulk := false, chk := fun _ _ b => mdioChk b,
    app := fun c _ s b => Done.wait (s.mdioJob c true (mdioWords b true)) }

/-- PORT_MDIO_READ (R143). -/
def opPortMdioRead : OpDef :=
  { minRole := 0, jrnl := fun _ => false, badLen := lenIs 8, bulk := false, chk := fun _ _ b => mdioChk b,
    app := fun c _ s b => Done.wait (s.mdioJob c false (mdioWords b false)) }

/-! ### PORT commands (R143) and register views -/

/-- The closed class gates of a port (R127). -/
def State.gateMask (s : State) (p : Nat) : Nat := sumL ((List.range 7).map fun n => b2n (s.gateClosed (p * 8 + n)) * 2 ^ n)

/-- The registers of the ports that mirror state (R145, R146). -/
def macView (s : State) (i2c : Bool) (a : Nat) : Option Nat :=
  if a < 0x38000 then
    let p := (a - 0x30000) / 0x1000
    let o := (a - 0x30000) % 0x1000
    let x := s.port p
    if o = 4 ∧ p < 7 then some (putBits (s.reg a) 7 6 3)
    else if (o = 0xC ∨ o = 0x10) ∧ p = 7 then some 0
    else if o = 0x24 then some (s.gateMask p)
    else if 0x80 ≤ o ∧ o < 0xA0 then
      let n := (o - 0x80) / 4
      some (cdiv (kgetD x.peak n 0) 1024 * 2 ^ 16 + cdiv (s.fill p n) 1024)
    else if o = 0x108 ∨ o = 0x188 then
      some ((kgetD (if i2c then x.cntLatI else x.cntLatQ) (if o = 0x108 then 0 else 1) 0).toNat)
    else none
  else none

/-- The latch that a read of a counter's low word makes for its path (R146). -/
def State.macCntLatch (s : State) (i2c : Bool) (p : Nat) (tx : Bool) : State :=
  let x := s.port p
  let v := BitVec.ofNat 32 (s.reg (if tx then R.MAC_TX_BYTE_CNT_HI p else R.MAC_RX_BYTE_CNT_HI p))
  if i2c then s.setPort p { x with cntLatI := kset x.cntLatI (b2n tx) v }
  else s.setPort p { x with cntLatQ := kset x.cntLatQ (b2n tx) v }

/-- The check that a port index is one (R143). -/
def portChk (b : Bytes) (c : Chk) : Chk := if 7 < u8 b 0 then .at_ 0 else c

/-- PORT_ENABLE (R143, R599): carries its request always, and writes MAC_CFG.EN. -/
def opPortEnable : OpDef :=
  { minRole := 1, jrnl := fun _ => true, badLen := lenIs 4, bulk := false
    chk := fun _ s b => portChk b (if s.portSt (u8 b 0) = .failed then .inState else .ok [])
    app := fun _ _ s b => Done.ok ((s.setFld (R.MAC_CFG_EN (u8 b 0)) 1).portRequest (u8 b 0) true) }

/-- PORT_DISABLE (R143, R599). -/
def opPortDisable : OpDef :=
  { minRole := 1, jrnl := fun _ => true, badLen := lenIs 4, bulk := false
    chk := fun _ _ b => portChk b (.ok [])
    app := fun _ _ s b => Done.ok ((s.setFld (R.MAC_CFG_EN (u8 b 0)) 0).portRequest (u8 b 0) false) }

/-- PORT_STATUS (R143). -/
def opPortStatus : OpDef :=
  { minRole := 0, jrnl := fun _ => false, badLen := lenIs 4, bulk := false
    chk := fun _ _ b => portChk b (.ok [])
    app := fun _ _ s b =>
      let p := u8 b 0
      let rd (a : Nat) : Bytes := be 4 ((macView s false a).getD (s.reg a))
      Done.res s (rd (R.MAC_STAT p) ++ rd (R.MAC_GATE p) ++ rd (R.MAC_PAUSED p) ++
        (List.range 8).flatMap fun n => rd (R.MAC_IFILL p n)) }

/-- PORT_ENABLE. -/
def execPortEnable (q : Req) (s : State) : Host.Outcome State Fault Refusal := .next (runOp opPortEnable 0x0701 q s)

/-- PORT_DISABLE. -/
def execPortDisable (q : Req) (s : State) : Host.Outcome State Fault Refusal := .next (runOp opPortDisable 0x0702 q s)

/-- PORT_MDIO_WRITE. -/
def execPortMdioWrite (q : Req) (s : State) : Host.Outcome State Fault Refusal := .next (runOp opPortMdioWrite 0x0703 q s)

/-- PORT_MDIO_READ. -/
def execPortMdioRead (q : Req) (s : State) : Host.Outcome State Fault Refusal := .next (runOp opPortMdioRead 0x0781 q s)

/-- PORT_STATUS. -/
def execPortStatus (q : Req) (s : State) : Host.Outcome State Fault Refusal := .next (runOp opPortStatus 0x0782 q s)

/-! ### Register rules and effects (R113-R130, R139, R142, R145) -/

/-- The roles that a port accepts (R113). -/
def roleOk (p role : Nat) : Bool :=
  if p = 0 then role == 0 else if p < 5 then role == 1 || role == 2 else if p < 7 then role == 2 else role == 3

/-- Whether a register is written only while its port is OFF (R114). -/
def macLocked (s : State) (a : Nat) : Bool := decide (a < 0x38000) && s.portSt ((a - 0x30000) / 0x1000) != .off

/-- The rules of the ports for a write of `v` to `a`; `old` is the value stored (R113, R114, R118, R123, R128-R130, R139,
R142, R145). -/
def macRule (s : State) (a old v : Nat) : Option Nat :=
  let bad (b : Bool) : Option Nat := if b then some St.state else none
  if a = R.MAC_MDIO_CFG then bad (decide (bits v 9 0 < 200))
  else if 0x38000 ≤ a then none
  else
    let p := (a - 0x30000) / 0x1000
    let o := (a - 0x30000) % 0x1000
    if o = 0 then
      bad (bits v 11 9 == 7 || !roleOk p (bits v 3 2) || (tb v 7 && s.fld (R.MAC_FC_MODE p) == 2) ||
        (tb v 0 && !tb old 0 && s.portSt p == .failed))
    else if o = 8 then
      bad (decide (bits v 13 0 < 1518) || decide (9600 < bits v 13 0) || s.portSt p != .off)
    else if o = 0x14 then bad ((List.range 8).any fun k => v / 8 ^ k % 8 == 7)
    else if o = 0x1C then
      let m := bits v 17 16
      bad (m == 3 || (m == 2 && (s.flag (R.MAC_CFG_QCP_EN p) || s.halfDuplex p)) || (m == 1 && p == 7))
    else if o = 0x20 then bad (decide (bits v 31 16 = 0) || decide (bits v 31 16 ≤ bits v 15 0))
    else if o = 0x30 then
      bad (p == 7 && (bits v 13 12 == 3 || (bits v 13 12 == 2 && !tb v 14)))
    else if 0x40 ≤ o ∧ o < 0x5C then
      let n := (o - 0x40) / 4
      let tot := sumL ((List.range 7).map fun k => if k = n then bits v 12 0 else s.fld (R.MAC_IBUF_KIB p k))
      if (if p = 7 then 256 else 4096) < tot then some St.noBudget else none
    else if 0x60 ≤ o ∧ o < 0x7C then
      let n := (o - 0x60) / 4
      bad (decide (bits v 28 16 ≤ bits v 12 0) || decide (s.fld (R.MAC_IBUF_KIB p n) < bits v 28 16))
    else none

/-- The effects of a write of `v` to `a` beyond storing it (R116, R130, R145). -/
def macEffect (s : State) (a old v : Nat) : State :=
  if 0x38000 ≤ a then s
  else
    let p := (a - 0x30000) / 0x1000
    let o := (a - 0x30000) % 0x1000
    if o = 0 then (if tb v 0 = tb old 0 then s else s.portRequest p (tb v 0))
    else if o = 0x2C then
      let x := s.port p
      let s1 := if tb v 0 then s.setPort p { x with peak := (List.range 8).map fun n => (n, s.fill p n) } else s
      if tb v 1 && s.portSt p == .on && decide (p < 7) then (s1.setPort p { s1.port p with live := false }).loseLink p else s1
    else if o = 0x1C then
      (if bits v 17 16 = bits old 17 16 then s else s.setPort p { s.port p with fcDue := 0 }).xoffCheck p
    else if 0x60 ≤ o ∧ o < 0x7C then s.xoffCheck p
    else s

end Sys2Proof.Machine
end

