-- ==== Sys2Proof/Machine/Ply.lean ====
section
/-! DEFINITION. The playout engine (R219-R243): filing of packets, hand-off at a due boundary, delay rules, registers. -/

namespace Sys2Proof.Machine

open Sys2Proof

/-! ### Counts and lengths -/

/-- Add 1 to a counter and to the count that the leg keeps of the same events (R218, R240). -/
def State.legCnt (s : State) (l a : Nat) : State := (s.bump a).setLeg l ((s.leg l).stat a)

/-- The codec that a template decodes, else the one it encodes. -/
def Template.rxCodec (t : Template) : Option Nat :=
  match t.nodes.find? (·.ty == 1) with
  | some n => some (u8 n.par 0)
  | none => (t.nodes.find? (·.ty == 8)).map fun n => u8 n.par 0

/-- The RTP clock of what a leg receives (R319). A template without a codec has none stated: the clock is free there
(log entry 16). -/
def Template.rxClock (t : Template) : Nat :=
  match t.rxCodec.bind codecOf with
  | some c => c.clock
  | none => (Config.stdNum 210 [(t.f : Int)] []).natAbs

/-- The frame length N of a leg in RTP clock units (R219). -/
def State.legN (s : State) (l : Nat) : Nat := (s.legTmpl l).rxClock * (s.leg l).f / 1000

/-- The frame period P of a leg in 2^-16 ns. -/
def Leg.per (x : Leg) : Nat := nsI (x.f * 1000000)

/-- The boundary of the next swath in which a leg is placed, after the current one (R50). -/
def State.nextPlaced (s : State) (x : Leg) : Inst :=
  let p := s.period x.f
  let e := s.entryAt s.swt.nextT % max p 1
  s.swt.nextT + (x.phi + p - e) % max p 1 * s.lenI

/-- The boundary at which the frame of TS_play is due. -/
def State.nextDue (s : State) (x : Leg) : Inst := max (s.nextPlaced x) x.ply.anchorAt

/-- The cut before each due boundary, in 2^-16 ns (R222). -/
def State.cut (s : State) : Nat := nsI (s.fld R.PLY_CFG_CUT_NS)

/-- The signed distance of a time stamp from another (R226). -/
def tsDist (a b : Nat) : Int := sgn 32 (a + 2 ^ 32 - b % 2 ^ 32)

/-! ### The pool (R220, R221) -/

/-- The cells of a leg's filed payloads. -/
def Ply.cells (p : Ply) : Nat := sumL (p.slots.map (·.2.pool))

/-- The pool's cells in use. -/
def State.plyUsed (s : State) : Nat := sumL (s.legs.map (·.2.ply.cells))

/-- The cells that a payload of a leg takes: none when its frame is due at the next boundary and stage-in for that boundary has begun (R220,
R396). -/
def State.cellsFor (s : State) (l n : Nat) (due : Inst) : Nat :=
  if due = s.swt.nextT ∧ (s.mmu.areas.any fun a => a.leg == l && a.b == due && a.st != 0) then 0 else cdiv n 256

/-! ### Delay figures (R227, R236-R240) -/

/-- The mean of a list of slacks, rounded down. -/
def meanI (l : List Int) : Int := if l.isEmpty then 0 else l.foldl (· + ·) 0 / (l.length : Int)

/-- The lowest of a list of slacks. -/
def minI (l : List Int) : Int := l.foldl (fun a x => if x < a then x else a) (l.headD 0)

/-- The least-squares slope of slack against receive time, in ppb (R238). -/
def slope (pts : List (Nat × Int)) : Int :=
  let t0 := (pts.map (·.1)).foldl min ((pts.map (·.1)).headD 0)
  let q : List (Int × Int) := pts.map fun p => (((p.1 - t0 : Nat) : Int), p.2)
  let n : Int := q.length
  let sx := q.foldl (fun a p => a + p.1) 0
  let sy := q.foldl (fun a p => a + p.2) 0
  let sxx := q.foldl (fun a p => a + p.1 * p.1) 0
  let sxy := q.foldl (fun a p => a + p.1 * p.2) 0
  let den := n * sxx - sx * sx
  if den = 0 then 0 else (n * sxy - sx * sy) * 1000000000 / den

/-- The adaptive margin and the period: whether the lowest slack stands at M + P or more (R239). -/
def Leg.roomy (x : Leg) (l : List Int) : Bool := !l.isEmpty && decide ((nsI (x.ply.par.margin * 1000) : Int) + x.per ≤ minI l)

/-- A slack sample with its receive stamp and RTP time stamp: window, jitter and skew follow it (R227, R236, R238-R240). -/
def State.slackSample (s : State) (l : Nat) (slack : Int) (a ts : Nat) : State :=
  let x := s.leg l
  let y := x.ply
  let w := (slack :: y.slack).take y.par.win
  let arr := countAt (s.legTmpl l).rxClock a
  let jit := match y.lastA with
    | none => y.jit
    | some (a0, t0) => y.jit + ((arr : Int) - a0 - tsDist ts t0).natAbs - (y.jit + 8) / 16
  let pts := ((a, slack) :: y.skewPts).filter fun p => decide (a ≤ p.1 + y.par.winS * secI)
  let sk := slope pts
  let lim := y.par.limPpm * 1000
  let roomy := x.roomy w
  let y1 := { y with slack := w, got := y.got + 1, jit := jit, lastA := some (arr, ts), skewPts := pts, skew := sk }
  let y2 := { y1 with
    sref := if y.sref.isNone ∧ y.par.win ≤ y1.got then some (meanI w) else y.sref
    shrinkAt := if roomy then some (y.shrinkAt.getD s.loc) else none
    sMax := if y.lastA.isNone then meanI w else max y.sMax (meanI w) }
  let t := s.setLeg l { x with ply := y2 }
  if lim < sk.natAbs ∧ y.skew.natAbs ≤ lim then t.raise R.PLY_EVT 8 else t

/-! ### Filing (R221-R231) -/

/-- A packet as the packet engine passes it, before filing. -/
structure PlyIn where
  ext : Nat
  ts : Nat
  marker : Bool
  sid : Bool
  payload : Bytes
  raw : Bytes
  stamp : Inst

/-- Whether the pool has fewer cells free than a payload takes. -/
def State.noCells (s : State) (c : Nat) : Bool := decide (1048576 < s.plyUsed + c)

/-- A payload is dropped for lack of cells (R221). -/
def State.poolDrop (s : State) (l : Nat) : State := (s.legCnt l R.PLY_POOL_DROP_CNT).raise R.PLY_EVT 2

/-- Put a payload for which there are cells into its slot: the highest use of the pool and POOL_HIGH follow (R221, R242). -/
def State.putSlot (s : State) (l : Nat) (q : PlyPkt) : State :=
  let x := s.leg l
  let used := s.plyUsed
  let s1 := s.setLeg l { x with ply := { x.ply with slots := kset x.ply.slots q.ts q } }
  let s2 := s1.setFld R.PLY_POOL_PEAK_CELLS (max (s1.fld R.PLY_POOL_PEAK_CELLS) s1.plyUsed)
  if used < 943719 ∧ 943719 ≤ s1.plyUsed then s2.raise R.PLY_EVT 1 else s2

/-- Put a packet into its slot, or drop it for lack of cells (R221, R226, R228). -/
def State.fileSlot (s : State) (l : Nat) (p : PlyIn) (due : Inst) : State :=
  let x := s.leg l
  let y := x.ply
  let c := s.cellsFor l p.payload.length due
  if s.noCells c then s.poolDrop l
  else
    let s1 := (s.setLeg l { x with ply := { y with dtx := p.sid } }).putSlot l ⟨p.ext, p.ts, p.marker, p.sid, p.payload, p.raw, p.stamp, c⟩
    if p.ext < y.hi then s1.legCnt l R.PLY_REORDER_CNT else s1

/-- The first packet filed anchors the leg (R224): its frame goes to the first placed swath whose cut leaves DELAY_US of slack. What a buffer held
before is discarded (R229); a packet that finds no cells is not filed and anchors nothing. -/
def State.anchorLeg (s : State) (l : Nat) (p : PlyIn) : State :=
  let x := s.leg l
  let b0 := s.nextPlaced x
  let need := p.stamp + nsI (x.cfg.ply.delayUs * 1000) + s.cut
  let b := b0 + cdiv (need - b0) (max 1 x.per) * x.per
  let o := x.ply
  let y : Ply := { Ply.init with
    par := o.par, seen := o.seen, hi := o.hi, evts := o.evts, jit := o.jit, lastA := o.lastA, delayUs := o.delayUs, sMax := o.sMax }
  let s1 := s.setLeg l { x with ply := y }
  if s1.noCells (s.cellsFor l p.payload.length b) then s1.poolDrop l
  else
    let s2 := s.setLeg l { x with ply := { y with anchored := true, anchorAt := b, ts := p.ts } }
    (s2.slackSample l ((b : Int) - s.cut - p.stamp) p.stamp p.ts).fileSlot l p b

/-- Filing of a packet: the first row of R226 that applies. The cut of a frame that has been handed is the one in force when it was (R242); a late
packet whose frame was handed counts as delayed by back-pressure where its stamp lies before that cut (R223). -/
def State.plyFile (s0 : State) (l : Nat) (p : PlyIn) : State :=
  let s := s0.legCnt l R.PLY_RX_CNT
  let x := s.leg l
  let y := x.ply
  if y.seen.contains p.ext then (s.setLeg l { x with ply := { y with oow := 0 } }).legCnt l R.PLY_DUP_CNT
  else
    let s1 := s.setLeg l { x with ply := { y with seen := (p.ext :: y.seen).take 128, hi := max y.hi p.ext } }
    if y.anchored = false then s1.anchorLeg l p
    else
      let n : Int := s.legN l
      let d := tsDist p.ts y.ts
      let w := n * x.cfg.ply.depth
      let x1 := s1.leg l
      let calm (t : State) : State := let z := t.leg l; t.setLeg l { z with ply := { z.ply with oow := 0 } }
      if y.slipTs.contains p.ts then (calm s1).legCnt l R.PLY_SLIP_DISC_CNT
      else if d % n ≠ 0 ∨ w ≤ d ∨ d < -w then
        let s2 := (s1.setLeg l { x1 with ply := { x1.ply with oow := y.oow + 1 } }).legCnt l R.PLY_OOW_CNT
        if y.par.resyncN ≤ y.oow + 1 then ((s2.legCnt l R.PLY_RESYNC_CNT).raise R.PLY_EVT 4).anchorLeg l p
        else s2
      else
        let due : Int := (s.nextDue x : Int) + d / n * x.per
        let was := if d < 0 then kget y.handed p.ts else none
        let slack : Int := (match was with | some c => (c : Int) | none => due - s.cut) - p.stamp
        let s2 := (calm s1).slackSample l slack p.stamp p.ts
        if d < 0 then s2.legCnt l (if was.isSome ∧ 0 < slack then R.PLY_BP_LATE_CNT else R.PLY_LATE_CNT)
        else if d = 0 ∧ slack ≤ 0 then
          let z := s2.leg l
          (s2.setLeg l { z with ply := { z.ply with lateTs := p.ts :: z.ply.lateTs } }).legCnt l R.PLY_LATE_CNT
        else s2.fileSlot l p due.toNat

/-- A change of learned SSRC flushes the buffer; the next packet anchors it (R230). -/
def State.plyFlush (s : State) (l : Nat) : State :=
  let x := s.leg l
  (s.setLeg l { x with ply := { Ply.init with par := x.ply.par, evts := x.ply.evts, delayUs := x.ply.delayUs } }).legCnt l R.PLY_SSRC_FLUSH_CNT

/-! ### Hand-off (R224, R231-R239) -/

/-- What the playout engine hands at a boundary: reason of R232, packet, SID flag, time stamp, event blocks. -/
structure Hand where
  reason : Nat
  pkt : Option PlyPkt
  sid : Bool
  ts : Nat
  tel : List TelEv

/-- The action of the delay rules at a due boundary: 0 none, 1 insert or grow, 2 drop or shrink; with the counters that it
adds to (R236, R237, R239). The packet before which an opportunity INSERT came plays at the next due swath, and gives no second one (R237). -/
def Leg.delayAct (x : Leg) (loc : Nat) : Nat × List Nat :=
  let y := x.ply
  let slot := kget y.slots y.ts
  let quiet := match slot with | some p => p.sid | none => y.dtx
  let insOpp := quiet || (match slot with | some p => p.marker | none => false)
  let sm := meanI y.slack
  let per : Int := x.per
  if y.slack.isEmpty then (0, [])
  else if x.cfg.ply.fixed then
    match y.sref with
    | none => (0, [])
    | some r =>
      if sm < r - per then (1, [R.PLY_SKEW_ADJ_CNT, R.PLY_FORCED_CNT])
      else if r + per < sm then (2, [R.PLY_SKEW_ADJ_CNT, R.PLY_FORCED_CNT])
      else if 2 * sm < 2 * r - per ∧ insOpp ∧ y.insAt ≠ some y.ts then (1, [R.PLY_SKEW_ADJ_CNT])
      else if 2 * r + per < 2 * sm ∧ quiet then (2, [R.PLY_SKEW_ADJ_CNT])
      else (0, [])
  else
    let held : Bool := match y.shrinkAt with
      | some t => decide (t + nsI (y.par.shrinkMs * 1000000) ≤ loc)
      | none => false
    if minI y.slack < nsI (y.par.margin * 1000) ∧ sm + per ≤ nsI (x.cfg.ply.maxUs * 1000) then (1, [R.PLY_GROW_CNT])
    else if x.roomy y.slack ∧ held ∧ (nsI (x.cfg.ply.minUs * 1000) : Int) ≤ sm - per ∧ quiet then (2, [R.PLY_SHRINK_CNT])
    else (0, [])

/-- The slack window as a growth or a shrink moves it, with the shrink timer begun again (R239). -/
def Leg.moveSlack (x : Leg) (loc : Nat) (by_ : Int) : Ply :=
  let w := x.ply.slack.map (· + by_)
  { x.ply with slack := w, shrinkAt := if x.roomy w then some loc else none, sMax := max x.ply.sMax (meanI w) }

/-- Event blocks that go with the frame of `ts`, and those that wait (R231). -/
def splitTel (l : List TelEv) (ts n : Nat) : List TelEv × List TelEv :=
  l.partition fun e => decide (tsDist e.ts ts < (n : Int))

/-- Keys of per-leg statistics that no counter register has: skew drops, expected frames, current delay in µs, frames lost, skew insertions, and
the counts of RFC 3611 (R240). -/
abbrev Stat.skewDrop : Nat := 1
abbrev Stat.expected : Nat := 2
abbrev Stat.delay : Nat := 3
abbrev Stat.lost : Nat := 4
abbrev Stat.skewIns : Nat := 6
abbrev Stat.pkt : Nat := 10
abbrev Stat.run : Nat := 11
abbrev Stat.c11 : Nat := 12
abbrev Stat.c13 : Nat := 13
abbrev Stat.c14 : Nat := 14
abbrev Stat.c22 : Nat := 15
abbrev Stat.c23 : Nat := 16
abbrev Stat.c33 : Nat := 17

/-- Set a statistic. -/
def setStat (m : KV Nat) (k v : Nat) : KV Nat := kset m k (v % 2 ^ 32)

/-- Add to a statistic. -/
def addStat (m : KV Nat) (k n : Nat) : KV Nat := setStat m k (kgetD m k 0 + n)

/-- The loss model of RFC 3611 with Gmin = 16, one frame at a time (R240; PRESUMED from that RFC, log entry 11). -/
def burstStep (m : KV Nat) (lost : Bool) : KV Nat :=
  let p := kgetD m Stat.pkt 0
  if lost = false then addStat m Stat.pkt 1
  else
    let m1 := if 16 ≤ p then
        addStat (setStat (addStat m (if kgetD m Stat.run 0 = 1 then Stat.c14 else Stat.c13) 1) Stat.run 1) Stat.c11 p
      else
        let a := addStat m Stat.run 1
        if p = 0 then addStat a Stat.c33 1 else addStat (addStat a Stat.c23 1) Stat.c22 (p - 1)
    setStat m1 Stat.pkt 0

/-- Statistics of a frame that ended with a reason (R232, R240). -/
def handStats (m : KV Nat) (reason : Nat) (delayUs : Option Nat) : KV Nat :=
  if reason = 5 ∨ reason = 3 then m
  else
    let m1 := burstStep (addStat m Stat.expected 1) (reason == 1 || reason == 2)
    let m2 := if reason = 1 then addStat m1 Stat.lost 1 else m1
    match delayUs with | some d => setStat m2 Stat.delay d | none => m2

/-- Whether a statistic is a count of the playout engine, which changes only at a commit (R417); the packet engine's counts are its own. -/
def commitStat (k : Nat) : Bool := decide (k < 0x50000 ∨ 0x60000 ≤ k)

/-- A statistic of a leg as it is read (R240, R417). -/
def Leg.figure (x : Leg) (k : Nat) : Nat := kgetD (if commitStat k then x.statsC else x.stats) k 0

/-- Burst and gap density in 1/256 by RFC 3611 with Gmin = 16. -/
def Leg.densities (x : Leg) : Nat × Nat :=
  let a := if x.figure Stat.c22 + x.figure Stat.c23 = 0 then 1 else x.figure Stat.c23
  let aa := max 1 (x.figure Stat.c22 + x.figure Stat.c23)
  let b := x.figure Stat.c23
  let bb := x.figure Stat.c13 + x.figure Stat.c23 + x.figure Stat.c33
  let g := x.figure Stat.c11 + x.figure Stat.c14
  (if a * bb + b * aa = 0 then 0 else 256 * a * bb / (a * bb + b * aa), if g = 0 then 0 else 256 * x.figure Stat.c14 / g)

/-- Packets that came late, by the two counts of R226. -/
def Leg.late (x : Leg) : Nat := x.figure R.PLY_LATE_CNT + x.figure R.PLY_BP_LATE_CNT

/-- What the discard rate counts: late, out of window, skew drops and shrinks. -/
def Leg.discarded (x : Leg) : Nat :=
  x.late + x.figure R.PLY_OOW_CNT + x.figure Stat.skewDrop + x.figure R.PLY_SHRINK_CNT

/-- A share in 1/256. -/
def share256 (part whole : Nat) : Nat := if whole = 0 then 0 else 256 * part / whole

/-- Interarrival jitter in RTP clock units (R240). -/
def Leg.jitter (x : Leg) : Nat := x.ply.jit / 16

/-- An interval of 2^-16 ns as signed µs. -/
def usOf (t : Int) : Nat := unsgn 32 (t / (nsI 1000 : Nat))

/-- The event blocks that a NOSIGNAL marker takes: all that are held while there is no playout point, and none while the anchored leg waits for
the boundary of its first frame (R224, R231). -/
def Ply.idleTel (y : Ply) : List TelEv × List TelEv := if y.anchored then ([], y.evts) else (y.evts, [])

/-- The count of a frame with its delay once its end is known: played, or with its reason (R39, R232, R240). -/
def Leg.countFrame (x : Leg) (b : Inst) (reason : Nat) (pkt : Option PlyPkt) (played : Bool) : Leg :=
  let why := if played then reason else if reason = 0 then 1 else reason
  { x with stats := handStats x.stats why (if played then pkt.map fun p => ((b : Int) - p.stamp).toNat / nsI 1000 else none) }

/-- A leg at a due boundary: what has been written to the registers of R242 acts from here on, on the window and the shrink timer too. -/
def State.plyLatch (s : State) (l : Nat) : Leg :=
  let x := s.leg l
  let y : Leg := { x with ply := { x.ply with par := s.plyPar, slack := x.ply.slack.take s.plyPar.win } }
  { y with ply := { y.ply with shrinkAt := if y.roomy y.ply.slack then some (y.ply.shrinkAt.getD s.loc) else none } }

/-- The hand-off to a leg due at boundary `b` (R224, R231-R239, R242): the new state and what is handed. -/
def State.plyHand (s : State) (l : Nat) (b : Inst) : State × Hand :=
  let x := s.plyLatch l
  let y := x.ply
  let n := s.legN l
  if y.anchored = false ∨ b < y.anchorAt then
    ((s.setLeg l { x with ply := { y with evts := y.idleTel.2 } }).legCnt l R.PLY_PLAY_CNT, ⟨5, none, false, 0, y.idleTel.1⟩)
  else
    let (act, cnts) := x.delayAct s.loc
    let moved := if x.cfg.ply.fixed then y else x.moveSlack s.loc (if act = 1 then x.per else if act = 2 then -(x.per : Int) else 0)
    let y0 := if act = 0 then y else moved
    let ts := if act = 2 then (y.ts + n) % 2 ^ 32 else y.ts
    let slot := kget y.slots ts
    let late := y.lateTs.contains ts
    let reason := if act = 1 then 3 else if slot.isSome then 0 else if late then 2 else if y.dtx then 4 else 1
    let pkt := if act = 1 then none else slot
    let nextTs := if act = 1 then y.ts else (ts + n) % 2 ^ 32
    let slots := if act = 1 then y.slots else y.slots.filter fun p => decide (0 ≤ tsDist p.1 nextTs)
    let late' := y.lateTs.filter fun t => decide (0 ≤ tsDist t nextTs)
    let slip' := y.slipTs.filter fun t => decide (tsDist t nextTs < 0)
    let (go, wait) := splitTel y.evts ts n
    let delay := match pkt with | some p => some (((b : Int) - p.stamp).toNat / nsI 1000) | none => none
    let st := if x.cfg.ply.fixed ∧ act = 2 then addStat x.stats Stat.skewDrop 1
      else if x.cfg.ply.fixed ∧ act = 1 then addStat x.stats Stat.skewIns 1 else x.stats
    let handed := if act = 1 then y.handed else
      kset ((if act = 2 then kset y.handed y.ts (b - s.cut) else y.handed).filter fun p => decide (-(n * 64 : Int) ≤ tsDist p.1 nextTs)) ts (b - s.cut)
    let y1 := { y0 with anchorAt := 0, handed := handed, ts := nextTs, slots := slots, lateTs := late', slipTs := slip', evts := wait, delayUs := delay.getD y.delayUs,
                         insAt := if act = 1 then some y.ts else y.insAt }
    let s1 := s.setLeg l { x with ply := y1, stats := st }
    let s2 := cnts.foldl (fun t a => t.legCnt l a) s1
    let s3 := if reason = 1 ∨ reason = 2 then s2.legCnt l R.PLY_CONCEAL_CNT else s2
    (s3.legCnt l R.PLY_PLAY_CNT, ⟨reason, pkt, match pkt with | some p => p.sid | none => false, ts, go⟩)

/-- A forward slip that loses `m` frames of a leg from its playout point on advances the point past them (R233). -/
def State.plySlip (s : State) (l m : Nat) : State :=
  let x := s.leg l
  let y := x.ply
  let n := s.legN l
  if y.anchored = false ∨ m = 0 then s
  else
    let lost := (List.range m).map fun i => (y.ts + i * n) % 2 ^ 32
    let ts := (y.ts + m * n) % 2 ^ 32
    let slots := y.slots.filter fun p => decide (0 ≤ tsDist p.1 ts)
    s.setLeg l { x with ply := { y with ts := ts, slots := slots, slipTs := lost ++ y.slipTs } }

/-! ### Registers (R242) -/

/-- The registers that mirror the pool. -/
def plyView (s : State) (_i2c : Bool) (a : Nat) : Option Nat :=
  if a = R.PLY_POOL_USED then some s.plyUsed else if a = R.PLY_CTL then some 0 else none

/-- The ranges of R242. -/
def plyRule (_s : State) (a v : Nat) : Option Nat :=
  let out (x lo hi : Nat) : Bool := decide (x < lo ∨ hi < x)
  let bad (b : Bool) : Option Nat := if b then some St.state else none
  if a = R.PLY_CFG then bad (out (bits v 16 0) 1000 100000)
  else if a = R.PLY_ADP then bad (out (bits v 31 24) 8 255)
  else if a = R.PLY_SHRINK then bad (out (bits v 31 16) 100 60000 || out (bits v 4 0) 1 16)
  else if a = R.PLY_SKEW then bad (out (bits v 31 16) 1 10000 || out (bits v 9 0) 4 600)
  else none

/-- PEAK_CLR (R242). -/
def plyEffect (s : State) (a v : Nat) : State :=
  if a = R.PLY_CTL ∧ tb v 0 then s.setFld R.PLY_POOL_PEAK_CELLS s.plyUsed else s

end Sys2Proof.Machine
end

