-- ==== Sys2Proof/Machine/Tnd.lean ====
section
/-! DEFINITION. Tandem chains (R430-R456): links, HELLO and RING_FAIL, receive, store and concealment, parcels, routes, exports
and imports, migration, the TAND operations and the TND registers. -/

namespace Sys2Proof.Machine

open Sys2Proof

/-! ### Links (R430-R432, R443, R444) -/

/-- Replace the tandem block. -/
def State.setTnd (s : State) (x : Tnd) : State := { s with tnd := x }

/-- Whether a port has the tandem role (R113, R430). -/
def State.isTandem (s : State) (p : Nat) : Bool := decide (p < 8) && s.portRole p == 2

/-- Whether a port is a tandem link: in the role, ON, with its link up (R430). -/
def State.tndLive (s : State) (p : Nat) : Bool := s.isTandem p && s.portSt p == .on && s.flag (R.MAC_STAT_LINK p)

/-- A link that no HELLO has reached. -/
def TLink.init : TLink := ⟨0, 8, false, 0, false, false⟩

/-- The link of a port. -/
def State.tlink (s : State) (p : Nat) : TLink := kgetD s.tnd.links p TLink.init

/-- Replace a link. -/
def State.setTlink (s : State) (p : Nat) (x : TLink) : State := s.setTnd { s.tnd with links := kset s.tnd.links p x }

/-- The two ring ports, while a ring is configured (R443). -/
def State.ringPorts (s : State) : Option (Nat × Nat) :=
  if s.flag R.TND_RING_EN then some (s.fld R.TND_RING_PORT_A, s.fld R.TND_RING_PORT_B) else none

/-- The other ring port of a ring port. -/
def State.otherRing (s : State) (p : Nat) : Option Nat :=
  match s.ringPorts with
  | some (a, b) => if p = a then some b else if p = b then some a else none
  | none => none

/-- Whether this part holds the block of the ring on a port (R443). -/
def State.blockedAt (s : State) (p : Nat) : Bool :=
  match s.ringPorts with
  | some (a, b) => (s.fld R.TND_RING_BLOCK == 1 && p == a) || (s.fld R.TND_RING_BLOCK == 2 && p == b)
  | none => false

/-- A link changes its state: TND_EVT.LINK, and MISMATCH on entry to that state (R432). -/
def State.linkTo (s : State) (p st : Nat) : State :=
  let x := s.tlink p
  if x.st = st then s
  else
    let s1 := (s.setTlink p { x with st := st }).raise R.TND_EVT 1
    if st = 2 then s1.raise R.TND_EVT 8 else s1

/-- Links follow the block of the ring at once (R443, R444). -/
def State.reblock (s : State) : State :=
  (List.range 8).foldl (fun t p =>
    let x := t.tlink p
    if x.st = 1 ∨ x.st = 3 then t.linkTo p (if t.blockedAt p then 3 else 1) else t) s

/-- The CRC of a tandem frame: over bytes 0-27 with byte 7 taken as 0, and the bytes after the header (R433). -/
def tndCrc (b : Bytes) : Nat := (crc32c (patch (b.take 28) 7 [0] ++ b.drop 32)).toNat

/-- A tandem header with its CRC, and what follows it (R433). -/
def tndBytes (kind : Nat) (last : Bool) (src dst dom swn fno nblk : Nat) (cont blocks : Bytes) : Bytes :=
  let h := be 1 (0x10 + kind) ++ be 1 (b2n last * 128) ++ be 2 src ++ be 2 dst ++ be 1 dom ++ be 1 0 ++ be 4 swn ++ be 2 fno ++
    be 2 nblk ++ be 4 blocks.length ++ cont ++ zeros (8 - cont.length)
  h ++ be 4 (tndCrc (h ++ zeros 4 ++ blocks)) ++ blocks

/-- The group address of tandem frames (R431). -/
def tndDst : Nat := 0x0157445A5444

/-- A tandem frame on a port: EtherType 0x88B6, one tag with VID 0 and the PCP of TC4 (R431). -/
def State.tndFrame (s : State) (p : Nat) (b : Bytes) (o : TxOrigin) : TxFrame :=
  TxFrame.plain (ethFrame tndDst (s.macOf p) [BitVec.ofNat 32 (0x81000000 + s.reg (R.MAC_TC_PCP p) / 8 ^ 4 % 8 * 2 ^ 13)] 0x88B6 b) 4 o

/-- Queue a tandem frame on a port. -/
def State.tndSend (s : State) (p : Nat) (b : Bytes) (o : TxOrigin) : State := (s.txRequest p (s.tndFrame p b o)).1

/-- The ring state that a HELLO gives: 0 no ring, 1 a ring, 2 a ring with a failover in force (R432; log entry 15). -/
def State.ringState (s : State) : Nat :=
  if s.flag R.TND_RING_EN then (if s.flag R.TND_STAT_RING_FAILED then 2 else 1) else 0

/-- The HELLO of a port: device and domain in the header, length, port and ring state in bytes 20-22 (R432, R433). -/
def State.hello (s : State) (p : Nat) : Bytes :=
  tndBytes 2 true s.dev 0xFFF (s.fld R.TND_CFG_DOMAIN) s.swn 0 0 (be 1 (s.fld R.SWT_CFG_LEN) ++ be 1 p ++ be 1 s.ringState) []

/-- At the start of Guard each tandem link sends one HELLO (R432). -/
def State.helloAll (s : State) : State :=
  (List.range 8).foldl (fun t p => if t.tndLive p then t.tndSend p (t.hello p) .none else t) s

/-- A RING_FAIL naming a failed link leaves by a ring port; it may cross a blocked link (R443, R444). -/
def State.sendRingFail (s : State) (p port : Nat) : State :=
  if s.tndLive p then
    s.tndSend p (tndBytes 3 true s.dev 0xFFF (s.fld R.TND_CFG_DOMAIN) s.swn 0 0 (be 2 s.dev ++ be 1 port) []) .none
  else s

/-- A received RING_FAIL leaves by the other ring port as it came, with HOPS raised (R433, R444). -/
def State.passRingFail (s : State) (p : Nat) (b : Bytes) : State :=
  if s.tndLive p then s.tndSend p (patch b 7 (be 1 (u8 b 7 + 1))) .none else s

/-- A link goes DOWN; on a ring port this part sends RING_FAIL on its other ring port at once (R432, R444). -/
def State.linkDown (s : State) (p : Nat) : State :=
  if (s.tlink p).st = 0 then s
  else
    let s1 := s.linkTo p 0
    match s1.otherRing p with
    | some q => (s1.setTlink p { s1.tlink p with failed := true, miss := 8, got := false, ok := false }).sendRingFail q p
    | none => s1.setTlink p { s1.tlink p with miss := 8, got := false, ok := false }

/-- A failed ring link returns to UP: it becomes the blocked link, held by the end with the lower device number (R444). -/
def State.linkBack (s : State) (p : Nat) : State :=
  let x := s.tlink p
  if x.failed then
    let s1 := s.setTlink p { x with failed := false }
    match s1.ringPorts with
    | some (a, _) => if s1.dev < x.dev then (s1.setFld R.TND_RING_BLOCK (if p = a then 1 else 2)).reblock else s1
    | none => s1
  else s

/-- The states of the links at a boundary (R432): the HELLO test, a mismatch, the block, else UP. -/
def State.tndLinks (s : State) : State :=
  (List.range 8).foldl (fun t p =>
    let x := t.tlink p
    let miss := if x.got then 0 else min 8 (x.miss + 1)
    let t1 := t.setTlink p { x with miss := miss, got := false }
    if t.tndLive p = false ∨ t.fld R.TND_HELLO_MISS ≤ miss then t1.linkDown p
    else if x.ok = false then t1.linkTo p 2
    else if x.st = 1 ∨ x.st = 3 then t1
    else (t1.linkTo p (if t1.blockedAt p then 3 else 1)).linkBack p) s

/-- LINK_DOWN (R116, R432, R444): the link of a port goes down; a tandem link goes DOWN at once. -/
def execLinkDown (p : Fin 8) (s : State) : Host.Outcome State Fault Refusal :=
  let q := p.val
  let st := s.portSt q
  .next (if st = .on ∨ st = .stopping then
      ((s.setPort q { s.port q with live := false }).loseLink q).linkDown q
    else s)

/-! ### Routes (R439) -/

/-- Whether a port's tandem link carries parcels. -/
def State.linkUp (s : State) (p : Nat) : Bool := (s.tlink p).st == 1

/-- The egress port towards a device: the primary while it is UP and not failed over, else the alternate (R439, R444). -/
def State.egressTo (s : State) (dev : Nat) : Option Nat :=
  match kget s.tnd.routes dev with
  | none => none
  | some r =>
    if s.linkUp r.pPort ∧ (r.alt = false ∨ r.aPort.isNone) then some r.pPort
    else match r.aPort with
      | some a => if s.linkUp a then some a else none
      | none => none

/-- Cost of a path in ns (R441). -/
def pathNs (hops wire : Nat) : Nat := hops * 1500 + wire

/-- Whether either route of an entry lies beyond a window (R441). -/
def Route.beyond (r : Route) (w : Nat) : Bool :=
  decide (w < pathNs r.pHops r.pWire) || (r.aPort.isSome && decide (w < pathNs r.aHops r.aWire))

/-- The devices to which an admitted path leads or from which one comes (R441). -/
def State.pathDevs (s : State) : List Nat := s.tnd.exps.map (·.dev) ++ s.tnd.imps.map (·.dev) ++ s.tnd.cimps.map (·.dev)

/-- Whether a path to a device would be too far (R441). -/
def State.tooFar (s : State) (dev : Nat) : Bool :=
  match kget s.tnd.routes dev with | some r => r.beyond (s.fld R.TND_WIN_NS) | none => false

/-- Whether a window would leave an admitted path beyond it (R441). -/
def State.winTooSmall (s : State) (w : Nat) : Bool :=
  s.pathDevs.any fun d => match kget s.tnd.routes d with | some r => r.beyond w | none => false

/-! ### Ring failover (R444) -/

/-- Act on a RING_FAIL that came in by a ring port over `hops` transits: routes whose primary crosses the failed link use
their alternates, and the holder of the block clears it. The sender lies `hops + 1` links away and the failed link is the
next one, so a primary by that port crosses it when it is longer (DEDUCED, log entry 20). -/
def State.failOver (s : State) (p hops : Nat) : State :=
  let rs := s.tnd.routes.map fun e => (e.1, if e.2.pPort = p ∧ hops + 1 < e.2.pHops then { e.2 with alt := true } else e.2)
  let s1 := (s.setTnd { s.tnd with routes := rs }).setFld R.TND_RING_BLOCK 0
  let s2 := if s1.flag R.TND_STAT_RING_FAILED then s1 else (s1.bump R.TND_FAILOVER_CNT).raise R.TND_EVT 2
  (s2.setFld R.TND_STAT_RING_FAILED 1).reblock

/-- A received RING_FAIL is forwarded once on the other ring port and acted on (R444). -/
def State.ringFailRx (s : State) (p : Nat) (b : Bytes) : State :=
  let dev := num b 20 2
  let port := u8 b 22
  let key := (dev * 8 + port, num b 8 4)
  match s.otherRing p with
  | none => s
  | some q =>
    if s.tnd.seenRf.contains key ∨ dev = s.dev then s
    else
      let s1 := s.setTnd { s.tnd with seenRf := (key :: s.tnd.seenRf).take 16 }
      (s1.passRingFail q b).failOver p (u8 b 7)

/-! ### Blocks (R434) -/

/-- A block of an export. -/
def expBlock (leg : Nat) (x : Block) : Bytes :=
  let ev := x.evts.take 4
  be 1 (b2n x.silent * 128 + b2n x.unset * 64 + x.rate * 16 + ev.length) ++ be 1 0 ++ be 2 x.xs.length ++ be 4 leg ++
    timeBytes x.at_ ++ be 2 x.u ++ zeros 2 ++ x.xs.flatMap (fun v => be 5 (unsgn 40 v)) ++
    ev.flatMap fun e => be 1 e.code ++ be 1 e.kind ++ be 2 (unsgn 16 e.level) ++ be 4 (unsgn 32 (((e.at_ : Int) - x.at_) / 65536))

/-- A block of migrating state. -/
def stateBlock (leg : Nat) (d : Bytes) : Bytes :=
  be 1 0 ++ be 1 1 ++ be 2 d.length ++ be 4 leg ++ zeros 16 ++ d

/-- The length of the block at the head of a byte sequence, header and events included; none where the block is not whole. -/
def blockLen (b : Bytes) : Option Nat :=
  let n := 24 + (if u8 b 1 = 1 then num b 2 2 else 5 * num b 2 2 + 8 * (u8 b 0 % 16))
  if b.length < n ∨ 1 < u8 b 1 ∨ 4 < u8 b 0 % 16 then none else some n

/-- The blocks of a frame's content, in order (R434). -/
def blocksOf : Nat → Bytes → List Bytes
  | 0, _ => []
  | k + 1, b => match blockLen b with
    | none => []
    | some n => b.take n :: blocksOf k (b.drop n)

/-- Samples of 5 bytes. -/
def samplesOf : Nat → Bytes → List Int
  | 0, _ => []
  | k + 1, b => sgn 40 (num b 0 5) :: samplesOf k (b.drop 5)

/-- Read a block of an export. -/
def readBlock (b : Bytes) : Block :=
  let n := num b 2 2
  let at_ := bytesTime (sub b 8 12)
  { at_ := at_, rate := u8 b 0 / 16 % 4, xs := samplesOf n (b.drop 24), u := num b 20 2, unset := tb (u8 b 0) 6,
    silent := tb (u8 b 0) 7, conceal := false,
    evts := (List.range (u8 b 0 % 16)).map fun i =>
      let e := sub b (24 + 5 * n + 8 * i) 8
      ⟨0, u8 e 0, u8 e 1, sgn 16 (num e 2 2), 0, ((at_ : Int) + sgn 32 (num e 4 4) * 65536).toNat⟩ }

/-! ### Receiving (R435, R436) -/

/-- The full number of the swath nearest to the current one whose number is `swn` (R33). The current one keeps the number it began with, under
a new length too (R35). -/
def State.fullSwn (s : State) (swn : Nat) : Nat :=
  let c := s.swt.q
  ((c : Int) + sgn 32 (swn + 2 ^ 32 - c % 2 ^ 32)).toNat

/-- The instant at which the swath of a full number begins (R32, R35). -/
def State.swathStart (s : State) (q : Nat) : Inst := if q = s.swt.q then s.swt.bT else q * s.lenI

/-- The instant at which Gather of the swath after the one of a full number ends (R35, R36, R46). -/
def State.gatherEndAfter (s : State) (q : Nat) : Inst :=
  if q = s.swt.q then s.swt.nextT + cdiv (8 * s.lenI) 100
  else if q + 1 = s.swt.q then s.swt.bT + s.swt.workAt
  else (q + 1) * s.lenI + cdiv (8 * s.lenI) 100

/-- The tandem bytes of a frame, without padding, or none for a malformed header (R431, R433). -/
def tndParse (f : Bytes) : Option Bytes :=
  let e := parseEth f
  let b := f.drop e.off
  let kind := u8 b 0 % 16
  let plen := num b 16 4
  let tagOk := match e.tags with | [t] => decide (t.toNat / 65536 = 0x8100 ∧ t.toNat % 4096 = 0) | _ => false
  if tagOk = false ∨ b.length < 32 + plen ∨ u8 b 0 / 16 ≠ 1 ∨ kind < 1 ∨ 3 < kind ∨ u8 b 1 % 128 ≠ 0 ∨ 4095 < num b 2 2 ∨
    4095 < num b 4 2 ∨ (kind ≠ 1 ∧ num b 4 2 ≠ 0xFFF) then none
  else some (b.take (32 + plen))

/-- A HELLO sets what is known of the neighbour; one that does not match makes the link MISMATCH (R432). -/
def State.helloRx (s : State) (p : Nat) (b : Bytes) : State :=
  let x := s.tlink p
  let ok := u8 b 6 == s.fld R.TND_CFG_DOMAIN && u8 b 20 == s.fld R.SWT_CFG_LEN && num b 2 2 != s.dev
  let s1 := s.setTlink p { x with got := true, dev := num b 2 2, ok := ok, miss := 0 }
  if ok = false ∧ s.tndLive p then s1.linkTo p 2 else s1

/-- A tandem frame at the tandem block: the first row of R435 that applies. -/
def State.tndRx (s : State) (p n : Nat) (f : RxFrame) : State :=
  match tndParse f.bytes with
  | none => s.bump R.TND_DOMAIN_CNT
  | some b =>
    let kind := u8 b 0 % 16
    let st := (s.tlink p).st
    let linkOk := kind == 2 || st == 1 || (kind == 3 && st == 3)
    let dst := num b 4 2
    let hops := u8 b 7
    let off := (parseEth f.bytes).off
    if (kind ≠ 2 ∧ u8 b 6 ≠ s.fld R.TND_CFG_DOMAIN) ∨ linkOk = false then s.bump R.TND_DOMAIN_CNT
    else if kind = 1 ∧ dst ≠ s.dev then
      if s.fld R.TND_CFG_MAX_HOPS < hops + 1 then s.bump R.TND_HOPS_CNT
      else match s.egressTo dst with
        | none => s.bump R.TND_NOROUTE_CNT
        | some e =>
          ((s.txRequest e (TxFrame.plain (patch f.bytes (off + 7) (be 1 (hops + 1))) 4 .none)).1).bump R.TND_TRANSIT_CNT
    else if tndCrc b ≠ num b 28 4 then s.bump R.TND_CRC_CNT
    else if kind = 2 then s.helloRx p b
    else if kind = 3 then s.ringFailRx p b
    else
      let q := s.fullSwn (num b 8 4)
      if f.stamp < s.swathStart q then s.bump R.TND_EARLY_CNT
      else if s.gatherEndAfter q ≤ f.stamp then (s.bump R.TND_LATE_CNT).raise R.TND_EVT 4
      else ((s.bump R.TND_RX_PARCEL_CNT).mkIngress 2 p n b).1

/-- The key of a remote source in the store. -/
def srcKey (dev leg : Nat) : Nat := dev * 2 ^ 17 + leg

/-- Whether a remote source is imported here (R436, R449, R451). -/
def State.imported (s : State) (dev leg : Nat) : Bool :=
  s.tnd.imps.any (fun i => i.dev == dev && i.src == leg) || s.tnd.cimps.any (fun i => i.dev == dev && i.src == leg)

/-- The PARCEL task writes one block: an export of an imported source, or a piece of migrating state (R436, R452). -/
def State.storeBlock (s : State) (dev q : Nat) (b : Bytes) : State :=
  let leg := num b 4 4 % 2 ^ 17
  if u8 b 1 = 1 then
    let d := b.drop 24
    let ins := s.tnd.ins.map fun i => if i.dev = dev ∧ i.src = leg then { i with got := kset i.got (q * 65536 + num d 0 2) d } else i
    s.setTnd { s.tnd with ins := ins }
  else if s.imported dev leg then
    let k := srcKey dev leg
    let r : RBlk := ⟨q, tb (u8 b 0) 7, readBlock b⟩
    let old := (kgetD s.tnd.store k []).filter (·.q != q)
    s.setTnd { s.tnd with store := kset s.tnd.store k ((r :: old).take 2) }
  else s

/-- The PARCEL task at DONE: every block of its frame is delivered (R436). -/
def State.unpack (s : State) (b : Bytes) : State :=
  let q := s.fullSwn (num b 8 4)
  (blocksOf (num b 14 2) (b.drop 32)).foldl (fun t x => t.storeBlock (num b 2 2) q x) s

/-! ### Reading (R436, R438, R449, R450) -/

/-- Whether a PARCEL task not yet DONE holds a block of a source and swath (R436). -/
def State.inUnpack (s : State) (dev leg q : Nat) : Bool :=
  s.knl.tasks.any fun t => t.2.kind == 2 && num t.2.data 2 2 == dev && s.fullSwn (num t.2.data 8 4) == q &&
    (blocksOf (num t.2.data 14 2) (t.2.data.drop 32)).any fun b => u8 b 1 == 0 && num b 4 4 % 2 ^ 17 == leg

/-- The block that stands for a missing one (R438): the last block faded out, else SILENT zeros. -/
def concealBlock (prev : Option Block) (rate n : Nat) : Block :=
  match prev with
  | some p =>
    let c : Nat := p.xs.length
    { p with evts := [], conceal := true, xs := p.xs.zipIdx.map fun (x, k) =>
        clampI ((2 * x * ((c : Int) - k) + c) / (2 * max 1 (c : Int))) (-(2 ^ 39)) (2 ^ 39 - 1) }
  | none => ⟨0, rate, List.replicate n 0, 0, false, true, true, []⟩

/-- A block placed with its first sample at an instant, its events moved with it (R313, R450). -/
def Block.place (x : Block) (b : Inst) : Block :=
  { x with at_ := b, evts := x.evts.map fun e => { e with at_ := ((e.at_ : Int) + b - x.at_).toNat } }

/-- A reader takes the block of a source and swath, placed at `b`; a missing one is counted once per source and swath and
concealed (R436, R438, R450). `p` is the period of the source in swaths, `n` its samples. -/
def State.readRemote (s : State) (dev leg q p rate n : Nat) (b : Inst) : State × RBlk :=
  let k := srcKey dev leg
  let st := kgetD s.tnd.store k []
  match st.find? (·.q == q) with
  | some r => (s, { r with blk := r.blk.place b })
  | none =>
    let seen := s.tnd.missed.contains (k, q)
    let s1 := if s.inUnpack dev leg q then s.bump R.TND_UNPACK_LATE_CNT else s
    let s2 := if seen then s1 else (s1.bump R.TND_MISSING_CNT).setTnd { s1.tnd with missed := ((k, q) :: s1.tnd.missed).take 131072 }
    let blk := concealBlock ((st.find? (·.q + p == q)).map (·.blk)) rate n
    (s2, ⟨q, blk.silent, blk.place b⟩)

/-- The remote sources that a leg's frame reads at boundary `b`: its import, and the remote talkers of its conference
(R449-R451), each with the swath of the block. -/
def State.remoteReads (s : State) (l : Nat) (b : Inst) : List (Nat × Nat × Nat × Nat × Nat) :=
  let q := s.quot b
  let imp := (s.tnd.imps.filter fun i => i.on && i.leg == l).map fun i =>
    let p := s.period i.f
    (i.dev, i.src, if i.mode = 1 then q - 1 else q - p, p, i.rate * 65536 + rateHz i.rate * i.f / 1000)
  let conf := match (s.leg l).conf.bind fun c => (kget s.confs c).map fun x => (c, x) with
    | none => []
    | some (c, x) => (s.tnd.cimps.filter fun i => i.on && i.conf == c).map fun i =>
      (i.dev, i.src, q - s.period x.f, s.period x.f, x.rate * 65536 + rateHz x.rate * x.f / 1000)
  imp ++ conf

/-- Read every remote block of a frame: the blocks by source. -/
def State.readRemotes (s : State) (l : Nat) (b : Inst) : State × KV (Option RBlk) :=
  (s.remoteReads l b).foldl (fun (acc : State × KV (Option RBlk)) r =>
    let (dev, src, q, p, x) := r
    let (s1, k) := acc.1.readRemote dev src q p (x / 65536) (x % 65536) b
    (s1, kset acc.2 (srcKey dev src) (some k))) (s, [])

/-! ### Parcels (R437, R442, R448) -/

/-- The rate of a leg's export, and its samples per frame. -/
def State.expRate (s : State) (l : Nat) : Option (Nat × Nat) :=
  let t := s.legTmpl l
  t.exp.map fun i => ((t.node i).rate, rateHz (t.node i).rate * t.f / 1000)

/-- The charge of an export per swath of its entry (R442). -/
def State.expCharge (s : State) (l : Nat) : Nat := match s.expRate l with | some (_, n) => 5 * n + 112 | none => 0

/-- The egress ports of a route. -/
def Route.portsOf (r : Route) : List Nat :=
  match r.aPort with | some a => if a = r.pPort then [r.pPort] else [r.pPort, a] | none => [r.pPort]

/-- The charge of a port in an entry (R442). -/
def State.portCharge (s : State) (p e : Nat) : Nat :=
  sumL (s.tnd.exps.map fun x =>
    let y := s.leg x.leg
    let per := max 1 (s.period y.f)
    match kget s.tnd.routes x.dev with
    | some r => if y.st ≠ .off ∧ e % per = y.phi ∧ r.portsOf.contains p then s.expCharge x.leg else 0
    | none => 0)

/-- The charge of a port in its fullest entry (R453). -/
def State.portPeak (s : State) (p : Nat) : Nat := maxL ((List.range s.horizon).map fun e => s.portCharge p e)

/-- Whether an export would exceed the budget of a port in some entry (R442). -/
def State.overPort (s : State) (l dev : Nat) : Bool :=
  let y := s.leg l
  match kget s.tnd.routes dev with
  | none => false
  | some r => (entriesOf s.horizon (max 1 (s.period y.f)) y.phi).any fun e => r.portsOf.any fun p =>
      decide (s.fld R.TND_PORT_BUD_KIB * 1024 < s.portCharge p e + s.expCharge l)

/-- The block that a leg sends for the current swath: its committed export, else SILENT (R448). -/
def State.sendBlock (s : State) (l : Nat) : Option Bytes :=
  match s.expRate l with
  | none => none
  | some (rate, n) =>
    let x := s.leg l
    match x.exp with
    | some b => some (expBlock l (if x.expSwn = s.swn then b else ⟨s.swt.bT, rate, List.replicate n 0, 0, false, true, false, []⟩))
    | none => some (expBlock l ⟨s.swt.bT, rate, List.replicate n 0, 0, false, true, false, []⟩)

/-- Blocks packed whole into frames of at most `room` bytes (R433). -/
def packBlocks (room : Nat) : List Bytes → List Bytes → List (List Bytes)
  | [], cur => if cur.isEmpty then [] else [cur]
  | b :: r, cur =>
    if cur.isEmpty ∨ sumL (cur.map (·.length)) + b.length ≤ room then packBlocks room r (cur ++ [b]) else cur :: packBlocks room r [b]

/-- The parcel for a device: its frames leave by the route, or are dropped when neither qualifies (R437, R439). -/
def State.sendParcel (s : State) (dev : Nat) (blocks : List Bytes) : State :=
  match s.egressTo dev with
  | none => s
  | some p =>
    let frames := packBlocks (s.portMax p - 54) blocks []
    frames.zipIdx.foldl (fun t (bs, i) =>
      t.tndSend p (tndBytes 1 (i + 1 == frames.length) s.dev dev (s.fld R.TND_CFG_DOMAIN) s.swn i bs.length [] (bs.flatMap id)) .parcel) s

/-- The state blocks due at the Emit of the current swath, by device (R452). -/
def State.stateBlocks (s : State) (dev : Nat) : List Bytes :=
  let q := s.swt.q
  s.tnd.outs.flatMap fun o => match o.m with
    | some m => if o.dev = dev ∧ m ≤ q ∧ q < m + 4 then
        let ps := o.pieces.zipIdx.filter fun x => x.2 % 4 == q - m
        ps.zipIdx.map fun ((d, _), i) => stateBlock o.leg (be 1 i ++ be 1 ps.length ++ d)
      else []
    | none => []

/-- At Emit the part sends the parcels of committed exports and migrating state; none while the entry is over budget (R437). -/
def State.sendParcels (s : State) : State :=
  if s.entryOver (s.entryAt s.swt.bT) then s
  else
    let due := s.tnd.exps.filter fun x => x.on && (s.leg x.leg).st == .on && s.placed (s.leg x.leg) s.swt.bT
    let devs := ((due.map (·.dev) ++ s.tnd.outs.map (·.dev)).foldl (fun (m : KV Unit) d => kset m d ()) []).map (·.1)
    devs.foldl (fun t d =>
      let legs := ((due.filter (·.dev == d)).foldl (fun (m : KV Unit) x => kset m x.leg ()) []).map (·.1)
      let bs := legs.filterMap t.sendBlock ++ t.stateBlocks d
      if bs.isEmpty then t else t.sendParcel d bs) s

/-- Parcel frames not started by the start of Guard (R437). -/
def State.parcelsLate (s : State) : State :=
  let late := sumL (s.ports.map fun p => sumL ((p.2.txq ++ p.2.waiting).map fun q =>
    (q.2.filter fun f => f.origin == .parcel).length))
  if late = 0 then s else (s.bumpBy R.TND_TX_LATE_CNT late).raise R.TND_EVT 32

/-! ### Migration (R452; the layout of the state's bytes is the model's, log entry 15) -/

/-- The packet-engine context: SSRC, sequence, ROFF, IPv4 identification and SRTP indices. -/
def Leg.ctxBytes (x : Leg) : Bytes :=
  be 4 x.tx.ssrc ++ be 4 x.tx.roff ++ be 2 x.tx.seq ++ be 2 x.tx.ident ++ be 6 x.cfg.tx.hi ++ be 6 x.cfg.rx.hi ++ be 4 x.cfg.tx.hiC ++
    be 4 x.cfg.rx.hiC

/-- The playout point and the filed payloads. -/
def Leg.plyBytes (x : Leg) : Bytes :=
  be 1 (b2n x.ply.anchored) ++ be 4 x.ply.ts ++ be 1 x.ply.slots.length ++ x.ply.slots.flatMap fun (_, p) =>
    be 4 p.ext ++ be 4 p.ts ++ be 1 (b2n p.marker + 2 * b2n p.sid) ++ timeBytes p.stamp ++ be 2 p.payload.length ++ be 2 p.raw.length ++
      p.payload ++ p.raw

/-- The committed media state as bytes, which the spec does not lay out. -/
def Leg.medBytes (x : Leg) : Bytes := Config.stdBytes 311 ((x.med.dec ++ x.med.enc ++ x.med.plc).flatMap fun v => be 5 (unsgn 40 v))

/-- The pieces of a leg's state: piece i travels at the Emit of swath m + i modulo 4, the context first. -/
def Leg.pieces (x : Leg) : List Bytes := x.ctxBytes :: chunks 1200 65536 (x.plyBytes ++ x.medBytes)

/-- At Emit of m the state of a leg that moves away is taken as committed (R452). -/
def State.takePieces (s : State) : State :=
  let q := s.swt.q
  let outs := s.tnd.outs.map fun o => if o.m = some q then { o with pieces := (s.leg o.leg).pieces } else o
  s.setTnd { s.tnd with outs := outs }

/-- Read the playout point and the payloads back. -/
def readSlots : Nat → Bytes → KV PlyPkt → KV PlyPkt
  | 0, _, m => m
  | k + 1, b, m =>
    let n := num b 21 2
    let r := num b 23 2
    let p : PlyPkt := ⟨num b 0 4, num b 4 4, tb (u8 b 8) 0, tb (u8 b 8) 1, sub b 25 n, sub b (25 + n) r, bytesTime (sub b 9 12), cdiv n 256⟩
    readSlots k (b.drop (25 + n + r)) (kset m p.ts p)

/-- The packet-engine context that a piece carries. -/
def Leg.withCtx (x : Leg) (b : Bytes) : Leg :=
  let tx := { x.tx with ssrc := num b 0 4, roff := num b 4 4, seq := num b 8 2, ident := num b 10 2 }
  let ctx := { x.cfg.tx with hi := num b 12 6, hiC := num b 24 4 }
  let crx := { x.cfg.rx with hi := num b 18 6, hiC := num b 28 4 }
  { x with tx := tx, cfg := { x.cfg with tx := ctx, rx := crx } }

/-- The blocks of a migration that arrived for one swath, in order, and whether all of them did. -/
def MigIn.swathBytes (i : MigIn) (q : Nat) : List Bytes × Bool :=
  let g := i.got.filter fun e => e.1 / 65536 == q
  let tot := match g.head? with | some e => u8 e.2 1 | none => 0
  (g.map (·.2), decide (0 < tot ∧ g.length = tot))

/-- Payloads that moved with a leg go to the pool while it has cells for them (R220, R221, R452). -/
def State.moveSlots (s : State) (l : Nat) (ps : List PlyPkt) : State :=
  ps.foldl (fun t p => if t.noCells p.pool then t.poolDrop l else t.putSlot l p) s

/-- At the end of Gather of swath m + 4 the leg that moves in is created: from its state blocks when all arrived, else anew
with the context that arrived, or with resumed indices (R452). -/
def State.moveIn (s : State) (i : MigIn) : State :=
  let m := i.m.getD 0
  let parts := (List.range 4).map fun k => i.swathBytes (m + k)
  let n := maxL (parts.map fun p => p.1.length)
  let ordered := (List.range n).flatMap fun k => parts.filterMap fun p => p.1[k]?
  let ctx := (parts.headD ([], false)).1.head?
  let s1 := s.createLeg i.leg
  let x := s1.leg i.leg
  let body := (ordered.drop 1).flatMap fun d => d.drop 2
  let s2 := match ctx with
    | some c => s1.setLeg i.leg (x.withCtx (c.drop 2))
    | none => s1.resumeSrtp i.leg
  let s3 := s2.setTnd { s2.tnd with ins := s2.tnd.ins.filter (· != i) }
  if parts.all (·.2) then
    let y := s3.leg i.leg
    let slots := readSlots (u8 body 5) (body.drop 6) []
    let ply := { y.ply with anchored := u8 body 0 == 1, anchorAt := s3.nextPlaced y, ts := num body 1 4 }
    let seed := body.map fun v => (v.toNat : Int)
    let med := { y.med with dec := Config.stdSamples 312 [0] seed, enc := Config.stdSamples 312 [1] seed, plc := Config.stdSamples 312 [2] seed }
    ((s3.setLeg i.leg { y with ply := ply, med := med }).moveSlots i.leg (slots.map (·.2))).bump R.TND_MIGRATE_CNT
  else ((s3.raise R.TND_EVT 16).bump R.FRP_RECREATE_CNT).raise R.FRP_EVT 4

/-- The end of a migration into this part: of a leg that was disabled meanwhile nothing is left to create. -/
def State.migrateEnd (s : State) (i : MigIn) : State :=
  let x := s.leg i.leg
  if x.st = .starting ∧ x.created = false then s.moveIn i else s.setTnd { s.tnd with ins := s.tnd.ins.filter (· != i) }

/-- The migrations into this part that are due at the end of Gather of the current swath (R452). -/
def State.migrateIns (s : State) : State :=
  let q := s.swt.q
  (s.tnd.ins.filter fun i => i.m.any fun m => decide (m + 4 ≤ q)).foldl (fun t i => t.migrateEnd i) s

/-- A leg that moved away reaches OFF at boundary m + 1; what a leg that is OFF exported ends (R452; log entry 20). -/
def State.tndLegs (s : State) (b : Inst) : State :=
  let q := s.quot b
  let gone := s.tnd.outs.filter fun o => o.m.any fun m => m + 1 == q
  let s1 := gone.foldl (fun t o =>
    let x := t.leg o.leg
    if x.st = .off then t else ((t.setLeg o.leg { x with pendEn := false }).stopLeg o.leg).legOff o.leg b) s
  let t := s1.tnd
  s1.setTnd { t with
    exps := t.exps.filter fun x => (s1.leg x.leg).st != .off
    outs := t.outs.filter fun o => o.m.all fun m => decide (q < m + 4) }

/-! ### Changes at a boundary (R62, R448-R452) -/

/-- The first swath at or after the one that begins at `b` in which an offset is placed. -/
def State.firstPlaced (s : State) (b : Inst) (f phi : Nat) : Nat :=
  let p := max 1 (s.period f)
  let q := s.quot b
  q + (phi + p - (q % s.horizon) % p) % p

/-- The effect of an armed TAND command at its boundary. -/
def State.applyTnd (s : State) (a : Armed) (b : Inst) : State :=
  let p := a.payload
  let t := s.tnd
  match a.op with
  | 0x0B03 => s.setTnd { t with exps := t.exps.map fun x => if x.leg = a.leg ∧ x.dev = num p 4 2 then { x with on := true } else x }
  | 0x0B04 => s.setTnd { t with exps := t.exps.filter fun x => !(x.leg == a.leg && x.dev == num p 4 2) }
  | 0x0B05 => s.setTnd { t with imps := t.imps.map fun x => if x.leg = a.leg then { x with on := true } else x }
  | 0x0B06 => s.setTnd { t with imps := t.imps.filter (·.leg != a.leg) }
  | 0x0B07 => s.setTnd { t with cimps := t.cimps.map fun x => if x.conf = num p 0 2 ∧ x.dev = num p 2 2 ∧ x.src = num p 4 4 % 2 ^ 17 then { x with on := true } else x }
  | 0x0B08 =>
    let x := s.leg a.leg
    s.setTnd { t with outs := t.outs.map fun o => if o.leg = a.leg then { o with m := some (s.firstPlaced b x.f x.phi) } else o }
  | 0x0B09 =>
    let x := s.leg a.leg
    s.setTnd { t with ins := t.ins.map fun i => if i.leg = a.leg then { i with m := some (s.firstPlaced b x.f x.phi) } else i }
  | _ => s

/-! ### Operations (R453) -/

/-- A device number of a payload. -/
def devBad (b : Bytes) (off : Nat) : Bool × Chk := (decide (4095 < num b off 2), .at_ off)

/-- The route of a payload. -/
def routeOf (b : Bytes) : Route :=
  { pPort := u8 b 2, pHops := u8 b 3, pWire := num b 4 4, aPort := if u8 b 8 = 0xFF then none else some (u8 b 8), aHops := u8 b 9,
    aWire := num b 12 4, alt := false }

/-- TAND_ROUTE (R439, R441). -/
def opTandRoute : OpDef :=
  { minRole := 1, jrnl := fun _ => true, badLen := lenIs 16, bulk := false
    chk := fun _ s b => Chk.first [devBad b 0, (!s.isTandem (u8 b 2), .at_ 2), (u8 b 8 != 0xFF && !s.isTandem (u8 b 8), .at_ 8),
      (s.pathDevs.contains (num b 0 2) && (routeOf b).beyond (s.fld R.TND_WIN_NS), .refuse St.tooFar 0)] (.ok [])
    app := fun _ _ s b => Done.ok (s.setTnd { s.tnd with routes := kset s.tnd.routes (num b 0 2) (routeOf b) }) }

/-- TAND_RING (R443, R444): routes return to their primaries. -/
def opTandRing : OpDef :=
  { minRole := 1, jrnl := fun _ => true, badLen := lenIs 4, bulk := false
    chk := fun _ s b => Chk.first [(!s.isTandem (u8 b 0), .at_ 0), (!s.isTandem (u8 b 1), .at_ 1), (decide (2 < u8 b 2), .at_ 2)] (.ok [])
    app := fun _ _ s b =>
      let s1 := s.setReg R.TND_RING (2 ^ 31 + u8 b 0 * 2 ^ 24 + u8 b 1 * 2 ^ 20 + u8 b 2 * 2 ^ 16)
      let t := s1.tnd
      let s2 := s1.setTnd { t with
        routes := t.routes.map fun r => (r.1, { r.2 with alt := false })
        links := t.links.map fun l => (l.1, { l.2 with failed := false })
        seenRf := [] }
      Done.ok ((s2.setFld R.TND_STAT_RING_FAILED 0).reblock) }

/-- An armed TAND command: its check, and what is noted when it is armed. -/
def tandOp (len tOff : Nat) (chk : State → Bytes → Chk) (note : State → Bytes → State) : OpDef :=
  { minRole := 1, jrnl := fun _ => true, badLen := lenIs len, bulk := false
    chk := fun _ s b => chk s b
    app := fun c _ s b => let (t, w) := (note s b).armCmd c (legOf b) (tOf (sub b tOff 12)) b []; ⟨t, w.status, 0, [], false⟩ }

/-- TAND_EXPORT (R441, R442, R448): an export needs a leg that is not OFF, an export node and a route (log entry 20). -/
def opTandExport : OpDef := tandOp 20 8
  (fun s b =>
    let l := legOf b
    let dev := num b 4 2
    let mine := s.tnd.exps.filter (·.leg == l)
    Chk.first [devBad b 4, (decide ((s.leg l).st = .off), .inState), ((s.expRate l).isNone, .inState), (!khas s.tnd.routes dev, .at_ 4),
      (decide (8 ≤ (mine.filter (·.dev != dev)).length), .inState), (s.tooFar dev, .refuse St.tooFar 0),
      (!mine.any (·.dev == dev) && s.overPort l dev, .refuse St.noBudget 0)] (.ok []))
  (fun s b =>
    let l := legOf b
    if s.tnd.exps.any (fun x => x.leg == l && x.dev == num b 4 2) then s
    else s.setTnd { s.tnd with exps := s.tnd.exps ++ [⟨l, num b 4 2, false⟩] })

/-- TAND_EXPORT_DEL (R448). -/
def opTandExportDel : OpDef := tandOp 20 8
  (fun s b => Chk.first [devBad b 4, (!s.tnd.exps.any (fun x => x.leg == legOf b && x.dev == num b 4 2), .inState)] (.ok []))
  (fun s _ => s)

/-- TAND_IMPORT (R441, R449). -/
def opTandImport : OpDef := tandOp 28 16
  (fun s b =>
    let l := legOf b
    let x := s.leg l
    let t := s.legTmpl l
    let f := u8 b 14
    let p := max 1 (s.period f)
    let want := if u8 b 6 = 0 then num b 12 2 else (num b 12 2 + 1) % p
    let off := decide (x.st = .off)
    Chk.first [devBad b 4, (decide (1 < u8 b 6), .at_ 6), (decide (3 < u8 b 7), .at_ 7), (decide (num b 8 4 ≥ 2 ^ 17), .at_ 8),
      (!([5, 10, 20, 30, 40, 60] : List Nat).contains f, .at_ 14), (decide (p ≤ num b 12 2), .at_ 12), (x.cfg.bridge.isSome, .inState),
      (!off && (x.f != f || x.phi != want || (t.peer.isSome && t.peer != some (u8 b 7))), .inState),
      (s.tooFar (num b 4 2), .refuse St.tooFar 0),
      (decide (65536 ≤ (s.tnd.imps.filter (·.leg != l)).length), .refuse St.noBudget 0)] (.ok []))
  (fun s b =>
    let l := legOf b
    let i : TImport := ⟨l, num b 4 2, num b 8 4, u8 b 6, u8 b 7, num b 12 2, u8 b 14, false⟩
    s.setTnd { s.tnd with imps := s.tnd.imps.filter (·.leg != l) ++ [i] })

/-- TAND_IMPORT_DEL (R449). -/
def opTandImportDel : OpDef := tandOp 16 4
  (fun s b => if s.tnd.imps.any (·.leg == legOf b) then .ok [] else .inState) (fun s _ => s)

/-- TAND_CONF_IMPORT (R451): the remote talker counts towards the limits of R328. -/
def opTandConfImport : OpDef :=
  { minRole := 1, jrnl := fun _ => true, badLen := lenIs 24, bulk := false
    chk := fun _ s b => match kget s.confs (num b 0 2) with
      | none => .at_ 0
      | some c =>
        let n := ((c.parts.map (·.1) ++ s.joining (num b 0 2)).eraseDups).length + s.confRemote (num b 0 2)
        let lim := (c.parts.map fun p => match (s.legTmpl p.1).nodes.find? fun n => n.ty == 6 && n.rate == c.rate with
          | some n => num n.par 0 2 | none => 512).foldl min 512
        Chk.first [devBad b 2, (decide (num b 4 4 ≥ 2 ^ 17), .at_ 4), (decide (max 1 (s.period c.f) ≤ num b 8 2), .at_ 8),
          (match c.phi with | some p => p != num b 8 2 | none => false, .inState), (s.tooFar (num b 2 2), .refuse St.tooFar 0),
          (decide (lim ≤ n), .refuse St.noBudget 0)] (.ok [])
    app := fun c _ s b =>
      let i : TConf := ⟨num b 0 2, num b 2 2, num b 4 4, num b 8 2, false⟩
      let s1 := s.setTnd { s.tnd with cimps := s.tnd.cimps ++ [i] }
      let s2 := match kget s1.confs i.conf with
        | some x => { s1 with confs := kset s1.confs i.conf { x with phi := some i.phi } }
        | none => s1
      let (t, w) := s2.armCmd c 0 (tOf (sub b 12 12)) b []
      ⟨t, w.status, 0, [], false⟩ }

/-- TAND_MIGRATE_OUT (R452). -/
def opTandMigrateOut : OpDef := tandOp 24 12
  (fun s b => Chk.first [devBad b 4, (decide (num b 8 4 ≥ 2 ^ 17), .at_ 8), (decide ((s.leg (legOf b)).st ≠ .on), .inState),
    (s.tnd.outs.any (·.leg == legOf b), .inState)] (.ok []))
  (fun s b => s.setTnd { s.tnd with outs := s.tnd.outs ++ [⟨legOf b, num b 4 2, num b 8 4, none, []⟩] })

/-- TAND_MIGRATE_IN (R452): the target leg is admitted at the source's offset, with the template last set for its id. -/
def opTandMigrateIn : OpDef :=
  { minRole := 1, jrnl := fun _ => true, badLen := lenIs 28, bulk := false
    chk := fun c s b =>
      let l := legOf b
      let x := s.leg l
      let t := s.legTmpl l
      let f := Chk.first [devBad b 4, (decide (num b 8 4 ≥ 2 ^ 17), .at_ 8), (decide (x.st ≠ .off), .inState),
        (s.admissionShut && !c.replay, .inState), (!khas s.tmpls x.cfg.tmpl, .inState), (decide (max 1 (s.period t.f) ≤ num b 12 2), .at_ 12),
        (x.cfg.egress.isNone && (t.relay || t.nodes.any (·.ty == 8)), .inState), (!s.slotsFor l [t], .refuse St.noBudget 0)] (.ok [])
      match f with
      | .ok _ => match s.admission (t.cost s.sets x.cfg.echo.tail) (s.period t.f) (some (num b 12 2)) with
        | .inl m => .count St.noBudget m R.SWT_REFUSE_CNT 0 0
        | .inr phi => .ok [phi]
      | r => r
    app := fun c plan s b =>
      let l := legOf b
      let x := s.leg l
      let t := s.legTmpl l
      let phi := plan.headD 0
      let y : Leg := { Leg.init with cfg := x.cfg, st := .starting, f := t.f, phi := phi, cluster := s.homeCluster phi }
      let s1 := ((s.setLeg l y).charge l (t.cost s.sets x.cfg.echo.tail)).report (.leg l) .off .starting
      let (s2, w) := s1.armCmd c l (tOf (sub b 16 12)) b plan
      let i : MigIn := ⟨l, num b 4 2, num b 8 4, w, none, []⟩
      ⟨s2.setTnd { s2.tnd with ins := s2.tnd.ins ++ [i] }, w.status, 0, [], false⟩ }

/-- TAND_STATUS (R453): link states, then the charge of each port in its fullest entry. -/
def opTandStatus : OpDef := OpDef.read 0 0 fun s _ =>
  (List.range 8).flatMap (fun p => be 1 (s.tlink p).st) ++ (List.range 8).flatMap fun p => be 4 (s.portPeak p)

/-! ### Registers (R440-R442, R454-R456) -/

/-- Twelve percent of the swath length in ns (R440). -/
def State.winMax (s : State) : Nat := 12 * s.lenNs / 100

/-- The largest port budget for the swath length (R455). -/
def State.budMax (s : State) : Nat := match s.fld R.SWT_CFG_LEN with | 0 => 244 | 2 => 976 | _ => 488

/-- The window and the budget follow a change of the swath length (R440, R442). -/
def State.tndNewLen (s : State) : State :=
  (s.setFld R.TND_WIN_NS s.winMax).setFld R.TND_PORT_BUD_KIB (min (s.fld R.TND_PORT_BUD_KIB) s.budMax)

/-- Whether TND_CFG.DEVNO is locked (R455). -/
def State.devLocked (s : State) : Bool :=
  (List.range 8).any (fun p => s.isTandem p && s.portSt p != .off) || !s.tnd.exps.isEmpty || !s.tnd.imps.isEmpty ||
    !s.tnd.cimps.isEmpty || !s.tnd.outs.isEmpty || !s.tnd.ins.isEmpty

/-- The view of a route. -/
def State.routeView (s : State) (alt : Bool) : Nat :=
  let d := s.fld R.TND_ROUTE_SEL_DEV
  match kget s.tnd.routes d with
  | none => 0
  | some r =>
    let act (p : Nat) := b2n (s.egressTo d == some p) * 2 ^ 30
    if alt then match r.aPort with
      | some a => 2 ^ 31 + (if a = r.pPort then 0 else act a) + a * 2 ^ 24 + r.aHops * 2 ^ 16 + min 65535 (r.aWire / 10)
      | none => 0
    else 2 ^ 31 + act r.pPort + r.pPort * 2 ^ 24 + r.pHops * 2 ^ 16 + min 65535 (r.pWire / 10)

/-- The registers that mirror links and routes. -/
def tndView (s : State) (_i2c : Bool) (a : Nat) : Option Nat :=
  if a = R.TND_STAT then
    some (s.fld R.TND_STAT_RING_FAILED * 2 ^ 16 + sumL ((List.range 8).map fun p => (if s.isTandem p then (s.tlink p).st else 0) * 4 ^ p))
  else if a = R.TND_ROUTE_PRI then some (s.routeView false)
  else if a = R.TND_ROUTE_ALT then some (s.routeView true)
  else none

/-- The ranges of R440-R442 and R455. -/
def tndRule (s : State) (a v : Nat) : Option Nat :=
  let bad (b : Bool) : Option Nat := if b then some St.state else none
  if a = R.TND_CFG then bad (bits v 31 24 == 0)
  else if a = R.TND_WIN then
    let w := bits v 16 0
    if w < 1000 ∨ s.winMax < w then some St.state else if s.winTooSmall w then some St.tooFar else none
  else if a = R.TND_PORT_BUD then bad (decide (s.budMax < bits v 9 0))
  else if a = R.TND_HELLO then bad (decide (bits v 3 0 < 1 ∨ 8 < bits v 3 0))
  else none

/-- TAND_ROUTE. -/
def execTandRoute (q : Req) (s : State) : Host.Outcome State Fault Refusal := .next (runOp opTandRoute 0x0B01 q s)

/-- TAND_RING. -/
def execTandRing (q : Req) (s : State) : Host.Outcome State Fault Refusal := .next (runOp opTandRing 0x0B02 q s)

/-- TAND_EXPORT. -/
def execTandExport (q : Req) (s : State) : Host.Outcome State Fault Refusal := .next (runOp opTandExport 0x0B03 q s)

/-- TAND_EXPORT_DEL. -/
def execTandExportDel (q : Req) (s : State) : Host.Outcome State Fault Refusal := .next (runOp opTandExportDel 0x0B04 q s)

/-- TAND_IMPORT. -/
def execTandImport (q : Req) (s : State) : Host.Outcome State Fault Refusal := .next (runOp opTandImport 0x0B05 q s)

/-- TAND_IMPORT_DEL. -/
def execTandImportDel (q : Req) (s : State) : Host.Outcome State Fault Refusal := .next (runOp opTandImportDel 0x0B06 q s)

/-- TAND_CONF_IMPORT. -/
def execTandConfImport (q : Req) (s : State) : Host.Outcome State Fault Refusal := .next (runOp opTandConfImport 0x0B07 q s)

/-- TAND_MIGRATE_OUT. -/
def execTandMigrateOut (q : Req) (s : State) : Host.Outcome State Fault Refusal := .next (runOp opTandMigrateOut 0x0B08 q s)

/-- TAND_MIGRATE_IN. -/
def execTandMigrateIn (q : Req) (s : State) : Host.Outcome State Fault Refusal := .next (runOp opTandMigrateIn 0x0B09 q s)

/-- TAND_STATUS. -/
def execTandStatus (q : Req) (s : State) : Host.Outcome State Fault Refusal := .next (runOp opTandStatus 0x0B81 q s)

end Sys2Proof.Machine
end

