-- ==== Sys2Proof/Machine/Pke.lean ====
section
/-! DEFINITION. The packet engine (R193-R218): frames taken from the class buffers, checks on RTP and RTCP, the slow path,
frames that legs send. -/

namespace Sys2Proof.Machine

open Sys2Proof

/-! ### Telephone events and SID (R207, R228) -/

/-- Whether a payload of a codec is a SID frame of its own (R228; by the codecs' payload formats, log entry 11). -/
def codecSid (codec flags : Nat) (b : Bytes) : Bool :=
  match codec with
  | 3 => b.length == 2
  | 5 => (if tb flags 1 then u8 b 0 % 8 * 2 + u8 b 1 / 128 else u8 b 1 / 8 % 16) == 8
  | 6 => (if tb flags 1 then u8 b 0 % 8 * 2 + u8 b 1 / 128 else u8 b 1 / 8 % 16) == 9
  | 7 => if tb flags 1 then (if tb (u8 b 0) 5 then u8 b 0 % 16 == 9 else u8 b 0 % 16 == 12) else b.length == 6
  | _ => false

/-- The blocks of a telephone-event packet, up to four; each block after the first begins where the one before ends. -/
def telBlocks (ts : Nat) : Nat → Bytes → List TelEv
  | 0, _ => []
  | k + 1, b =>
    if b.length < 4 then []
    else ⟨ts, u8 b 0, tb (u8 b 1) 7, u8 b 1 % 64, num b 2 2⟩ :: telBlocks ((ts + num b 2 2) % 2 ^ 32) k (b.drop 4)

/-- The events of a packet go to the playout engine; a repeated end of an ended event does not (R207, R231). -/
def State.telFile (s : State) (l ssrc ts : Nat) (b : Bytes) : State :=
  let s1 := (telBlocks ts 4 b).foldl (fun t e =>
    let x := t.leg l
    let ended := x.rx.doneEv.contains (ssrc, e.ts)
    if e.fin ∧ ended then t.legCnt l R.PKE_EVT_DUP_CNT
    else
      let done := if e.fin then (ssrc, e.ts) :: x.rx.doneEv else x.rx.doneEv
      t.setLeg l { x with ply := { x.ply with evts := x.ply.evts ++ [e] }, rx := { x.rx with doneEv := done } }) s
  s1.legCnt l R.PKE_EVT_RX_CNT

/-! ### RTP (R199, R200) -/

/-- Replace a flow entry by its place in the table. -/
def State.setFlow (s : State) (i : Nat) (f : FlowEnt) : State := s.setPke { s.pke with flows := setAt s.pke.flows i f }

/-- Milliseconds as local time. -/
def msI (n : Nat) : Nat := nsI (n * 1000000)

/-- Whether a source is accepted before authentication (R199): by its mode, or because the latched source has been silent. -/
def State.srcOk (s : State) (f : FlowEnt) (k : Pkt) : Bool :=
  f.full || (match f.smode with
    | 0 => true
    | 1 => k.src == f.src && k.sport == f.sport
    | _ => match f.latched with
      | none => true
      | some (a, p) => (a == k.src && p == k.sport) || decide (f.heard + msI (s.fld R.PKE_HOLD_LATCH_MS) ≤ s.loc))

/-- The latched source is heard (R199). -/
def State.heardFrom (s : State) (i : Nat) (f : FlowEnt) (k : Pkt) : State :=
  if f.latched = some (k.src, k.sport) then s.setFlow i { f with heard := s.loc } else s

/-- A packet that passes every check gives a LATCH entry its source (R199). -/
def State.latch (s : State) (i : Nat) (f : FlowEnt) (k : Pkt) : State :=
  if f.full = false ∧ f.smode = 2 then s.setFlow i { f with latched := some (k.src, k.sport), heard := s.loc } else s

/-- What an RTP packet shows before it is accepted: header, index, the key that opens it, its clear payload. -/
structure RtpIn where
  h : Rtp
  idx : Nat
  key : Option (Bool × SKey)
  auth : Bool
  clear : Bytes
  deriving DecidableEq, Repr

/-- Open an RTP packet of a leg. -/
def Leg.rtpIn (x : Leg) (b : Bytes) : Option RtpIn :=
  match parseRtp b with
  | none => none
  | some h =>
    let c := x.cfg.rx
    let idx := estIndex c.valid c.hi h.seq
    let op (k : SKey) := k.openRtp h idx b
    match c.choose op with
    | none => some ⟨h, idx, none, true, b.drop h.hdr⟩
    | some (nx, k) =>
      if b.length < h.hdr + k.mki.length + tagLen k.suite then none
      else some ⟨h, idx, some (nx, k), (op k).auth && (op k).mki, (op k).clear⟩

/-- The payload without its padding; none for a padding count outside the payload (R200). -/
def RtpIn.payload (r : RtpIn) : Option Bytes :=
  let n := r.clear.length
  let c := u8 r.clear (n - 1)
  if r.h.pad = false then some r.clear else if n = 0 ∨ c < 1 ∨ n < c then none else some (r.clear.take (n - c))

/-- The first failing check of R200 after the source: its counter, and whether it is an authentication failure. -/
def State.rtpFault (s : State) (x : Leg) (r : RtpIn) : Option Nat :=
  let (m, cn, te) := x.cfg.pts
  let ptOk := r.h.pt == m || (cn != 255 && r.h.pt == cn) || (te != 255 && r.h.pt == te)
  let fixedBad := match x.cfg.ssrcFix with | some v => v != r.h.ssrc | none => false
  let learnBad := x.cfg.ssrcFix.isNone && (match x.rx.ssrc with
    | some v => v != r.h.ssrc && decide (s.loc < x.rx.heard + msI (s.fld R.PKE_HOLD_SSRC_MS))
    | none => false)
  let c := x.cfg.rx
  if r.payload.isNone ∨ ptOk = false then some R.PKE_RTP_BAD_CNT
  else if fixedBad then some R.PKE_SSRC_CNT
  else if r.key.any fun k => k.2.spent then some R.PKE_KEY_EXP_CNT
  else if r.auth = false then some R.PKE_AUTH_CNT
  else if (r.key.any fun k => k.2.suite != 0) ∧ replayed c.valid c.hi c.map r.idx then some R.PKE_REPLAY_CNT
  else if learnBad then some R.PKE_SSRC_CNT
  else none

/-- The state that an accepted RTP packet updates: latch, learned SSRC, replay state, key (R199, R200, R203, R205). -/
def State.rtpUpdate (s : State) (l i : Nat) (f : FlowEnt) (k : Pkt) (r : RtpIn) : State :=
  let s1 := s.latch i f k
  let x := s1.leg l
  let c := x.cfg.rx
  let (hi, map) := windowOn c.valid c.hi c.map r.idx
  let c1 := { c with hi := hi, map := map, valid := true }
  let c2 := match r.key with | some (nx, _) => c1.useKey nx false | none => c1
  let change := x.cfg.ssrcFix.isNone && x.rx.ssrc.isSome && x.rx.ssrc != some r.h.ssrc
  let rx := { x.rx with ssrc := some r.h.ssrc, heard := s1.loc }
  let s2 := (s1.setLeg l { x with cfg := { x.cfg with rx := c2 }, rx := rx }).recordSrtp l
  if change then s2.plyFlush l else s2

/-- An RTP packet of a flow (R200). -/
def State.rtpRx (s0 : State) (i : Nat) (f0 : FlowEnt) (k : Pkt) (stamp : Inst) : State :=
  let l := f0.leg
  let ok := s0.srcOk f0 k
  let s := s0.heardFrom i f0 k
  let f := (s.pke.flows[i]?).getD f0
  let x := s.leg l
  if ok = false then s.legCnt l R.PKE_SRC_CNT
  else match x.rtpIn k.pay with
    | none => s.legCnt l R.PKE_RTP_BAD_CNT
    | some r =>
      match s.rtpFault x r with
      | some c => let t := s.legCnt l c; if c = R.PKE_AUTH_CNT then t.raise R.PKE_EVT 1 else t
      | none =>
        let p := r.payload.getD []
        let (_, cn, te) := x.cfg.pts
        let s1 := (s.rtpUpdate l i f k r).legCnt l R.PKE_RTP_CNT
        if te ≠ 255 ∧ r.h.pt = te ∧ (s.legTmpl l).relay = false then s1.telFile l r.h.ssrc r.h.ts p
        else
          let codec := ((s.legTmpl l).rxCodec).getD 0
          let sid := (cn != 255 && r.h.pt == cn) || codecSid codec x.cfg.flags p
          let raw := if (s.legTmpl l).relay then k.pay.take r.h.hdr ++ r.clear else []
          s1.plyFile l ⟨r.idx, r.h.ts, r.h.marker, sid, p, raw, stamp⟩

/-! ### RTCP (R201) -/

/-- The parts of a compound (RFC 3550 Appendix A.2): none when a version, a length or a padding bit is wrong. -/
def rtcpParts : Nat → Bytes → Option (List Bytes)
  | 0, b => if b.isEmpty then some [] else none
  | n + 1, b =>
    if b.isEmpty then some []
    else
      let len := 4 * (num b 2 2 + 1)
      if b.length < 4 ∨ u8 b 0 / 64 ≠ 2 ∨ b.length < len ∨ (tb (u8 b 0) 5 ∧ b.length ≠ len) then none
      else (rtcpParts n (b.drop len)).map (b.take len :: ·)

/-- Whether a compound begins with SR or RR, without padding on that part. -/
def rtcpOk (b : Bytes) : Option (List Bytes) :=
  match rtcpParts 512 b with
  | some (p :: r) => if (u8 p 1 = 200 ∨ u8 p 1 = 201) ∧ tb (u8 p 0) 5 = false then some (p :: r) else none
  | _ => none

/-- The report blocks of an SR or RR part about an SSRC. -/
def reportsOn (ssrc : Nat) (p : Bytes) : List Bytes :=
  let o := if u8 p 1 = 200 then 28 else 8
  ((List.range (u8 p 0 % 32)).map fun i => sub p (o + 24 * i) 24).filter fun r => num r 0 4 == ssrc && r.length == 24

/-- The XR blocks of types 4, 6 and 7 of an XR part. -/
def xrBlocks : Nat → Bytes → List Bytes
  | 0, _ => []
  | n + 1, b =>
    if b.length < 4 then []
    else
      let len := 4 * (num b 2 2 + 1)
      (if u8 b 0 = 4 ∨ u8 b 0 = 6 ∨ u8 b 0 = 7 then [b.take len] else []) ++ xrBlocks n (b.drop len)

/-- The NTP form of an instant (R215). -/
def State.ntp (s : State) (t : Inst) : Bytes :=
  be 4 (t / secI + 2208988800 - s.fld R.PKE_UTC_OFS_S) ++ be 4 (t % secI / 65536 * 2 ^ 32 / 1000000000)

/-- The middle 32 bits of an NTP time stamp (RFC 3550). -/
def ntpMid (n : Nat) : Nat := n / 65536 % 2 ^ 32

/-- The round trip that a report block received at an instant gives, in 2^-16 s; none without a time of an SR in it (RFC 3550 Section 6.4.1). -/
def State.roundTrip (s : State) (stamp : Inst) (r : Bytes) : Option Nat :=
  if num r 16 4 = 0 then none else some ((ntpMid (num (s.ntp stamp) 0 8) + 2 ^ 33 - num r 16 4 - num r 20 4) % 2 ^ 32)

/-- Keep what an accepted compound tells: report blocks about the leg's own SSRC, SR time stamps, XR blocks, BYE (R201). -/
def State.rtcpStore (s : State) (l : Nat) (stamp : Inst) (parts : List Bytes) : State :=
  let x := s.leg l
  let reps := parts.flatMap fun p => if u8 p 1 = 200 ∨ u8 p 1 = 201 then (reportsOn x.tx.ssrc p).map fun r => be 1 0 ++ r
    else if u8 p 1 = 207 then (xrBlocks 64 (p.drop 8)).map fun r => be 1 (u8 r 0) ++ r else []
  let kinds := reps.map fun r => u8 r 0
  let kept := x.rx.reports.filter fun r => !kinds.contains (u8 r 0)
  let sr := parts.find? fun p => u8 p 1 == 200
  let bye := parts.any fun p => u8 p 1 == 203
  let rx := { x.rx with
    reports := kept ++ reps
    srNtp := match sr with | some p => num p 8 8 | none => x.rx.srNtp
    srTs := match sr with | some p => num p 16 4 | none => x.rx.srTs
    rtt := ((reps.filter fun r => u8 r 0 == 0).getLast?.bind fun r => s.roundTrip stamp (r.drop 1)).getD x.rx.rtt
    srAt := if sr.isSome then stamp else x.rx.srAt
    bye := x.rx.bye || bye }
  let s1 := s.setLeg l { x with rx := rx }
  if bye then s1.raise R.PKE_EVT 32 else s1

/-- An RTCP compound of a flow (R201): structure, authentication, replay; then one REPORT task (R341). A compound whose task the kennel refuses is
dropped (R362). -/
def State.rtcpRx (s : State) (p n i : Nat) (f : FlowEnt) (pk : Pkt) (stamp : Inst) : State :=
  let l := f.leg
  let b := pk.pay
  let x := s.leg l
  let c := x.cfg.rx
  let pick := (c.choose fun k => (k.openRtcp b).2).map fun q => (q.1, q.2, q.2.openRtcp b)
  let clear := match pick with | some (_, _, _, o) => o.clear | none => b
  let short := match pick with | some (_, k, _) => k.suite != 0 && decide (b.length < 8 + 4 + k.mki.length + tagLenC k.suite) | none => false
  match (if short then none else rtcpOk clear) with
  | none => s.legCnt l R.PKE_RTCP_BAD_CNT
  | some parts =>
    let done (t : State) : State :=
      if t.ingRefused p n then (t.mkIngress 3 p n clear).1
      else (((((t.latch i f pk).rtcpStore l stamp parts).legCnt l R.PKE_RTCP_CNT).mkIngress 3 p n clear).1)
    match pick with
    | none => done s
    | some (nx, k, idx, o) =>
      if k.suite = 0 then done (s.setLeg l { x with cfg := { x.cfg with rx := c.useKey nx true } })
      else if k.spentC then s.legCnt l R.PKE_KEY_EXP_CNT
      else if o.auth = false ∨ o.mki = false then (s.legCnt l R.PKE_AUTH_CNT).raise R.PKE_EVT 1
      else if replayed (c.mapC != 0) c.hiC c.mapC idx then s.legCnt l R.PKE_REPLAY_CNT
      else
        let (hi, map) := windowOn (c.mapC != 0) c.hiC c.mapC idx
        done ((s.setLeg l { x with cfg := { x.cfg with rx := { c with hiC := hi, mapC := map }.useKey nx true } }).recordSrtp l)

/-! ### Slow path and bridge (R193, R195, R217) -/

/-- The tokens of the slow path now, in thousandths of a frame, and the instant they count to (R195). -/
def State.slowTokens (s : State) : Nat × Nat :=
  let per := s.fld R.PKE_SLOW_RATE_PER_MS
  let gain := (s.loc - s.pke.slowAt) * per / (65536 * 1000)
  (min (s.fld R.PKE_SLOW_RATE_BURST * 1000) (s.pke.slowTok + gain), s.pke.slowAt + cdiv (gain * 65536 * 1000) per)

/-- A slow-path frame: delivered at the rate of the registers, else dropped (R195). -/
def State.slowPath (s : State) (p : Nat) (b : Bytes) : State :=
  let (tok, at_) := s.slowTokens
  if s.flag R.PKE_CFG_SLOW_EN ∧ 1000 ≤ tok then
    (s.setPke { s.pke with slowTok := tok - 1000, slowAt := at_, slowQ := s.pke.slowQ ++ [(p, b)] }).bump R.PKE_SLOW_CNT
  else ((s.setPke { s.pke with slowTok := tok, slowAt := at_ }).bump R.PKE_SLOW_DROP_CNT).raise R.PKE_EVT 4

/-- The partner of a bridged port (R217). -/
def State.bridgeOf (s : State) (p : Nat) : Option Nat :=
  if p < 1 ∨ 4 < p then none
  else
    let v := s.fld R.PKE_BRIDGE_MAP / 16 ^ (p - 1) % 16
    if tb v 3 then some (v % 8) else none

/-- Whether a PTP message of a port is terminated by the PTP stack and not forwarded: the peer-delay messages in P2P mode
of the transparent clock (R98, R99), on a port of TMU_TC_CFG.PORTS and, under DOM_FILT, of its domain. -/
def State.pdelayHere (s : State) (p : Nat) (b : Bytes) : Bool :=
  let e := parseEth b
  let cfg := s.reg R.TMU_TC_CFG
  let off := if udpDst b e = some 320 then (udpAt b e).map (· + 8) else ptpOff b e
  match off with
  | some o => bits cfg 1 0 == 2 && tb cfg (16 + p) && decide (p < 7) && ptpVersion (u8 b (o + 1)) &&
      (!tb cfg 2 || u8 b (o + 4) == bits cfg 15 8) && (u8 b o % 16 == 2 || u8 b o % 16 == 3 || u8 b o % 16 == 10)
  | none => false

/-- The tandem ports to which the tandem block forwards a PTP frame (R447). -/
def State.ptpForward (s : State) (p : Nat) (b : Bytes) : List Nat :=
  let cfg := s.reg R.TMU_TC_CFG
  if bits cfg 1 0 = 0 ∨ s.tndLive p = false ∨ tb cfg (16 + p) = false ∨ (s.tlink p).st = 3 ∨ s.pdelayHere p b then []
  else (List.range 8).filter fun q => q != p && s.tndLive q && tb cfg (16 + q) && (s.tlink q).st != 3

/-- A PTP frame: forwarded on tandem links of a transparent clock, and passed to the PTP stack (R193 row 8, R447). -/
def State.ptpRx (s : State) (p n : Nat) (f : RxFrame) : State :=
  let outs := s.ptpForward p f.bytes
  let s1 := outs.foldl (fun t q => (t.txRequest q { TxFrame.plain f.bytes n .none with ingress := some (p, f.stamp) }).1) s
  (s1.setPke { s1.pke with ptpQ := s1.pke.ptpQ ++ [(p, f)] }).bump R.PKE_PTP_CNT

/-! ### Taking a frame (R193) -/

/-- Rows 7 to 10 of R193. -/
def State.pkeOther (s : State) (p n : Nat) (f : RxFrame) (ip : Bool) : State :=
  let e := parseEth f.bytes
  match (if s.pdelayHere p f.bytes then none else s.bridgeOf p) with
  | some q => ((s.txRequest q { TxFrame.plain f.bytes n .none with ingress := some (p, f.stamp) }).1).bump R.PKE_BRIDGE_CNT
  | none =>
    if isPtp f.bytes e then s.ptpRx p n f
    else if ip then (if s.fld R.PKE_CFG_MISS = 1 then s.slowPath p f.bytes else s.bump R.PKE_MISS_CNT)
    else s.bump R.PKE_ETYPE_CNT

/-- A frame taken from a class buffer: the first row of R193 that applies. -/
def State.pkeTake (s0 : State) (p n : Nat) (f : RxFrame) : State :=
  let s := s0.bump R.PKE_RX_CNT
  let e := parseEth f.bytes
  if s.isTandem p ∧ e.etype = 0x88B6 then s.tndRx p n f
  else if e.etype = 0x88B5 then s.bump R.PKE_MISS_CNT
  else match parsePkt (s.flag R.PKE_CFG_QINQ) f.bytes with
    | .bad => s.bump R.PKE_PARSE_CNT
    | .csum => s.bump R.PKE_CSUM_CNT
    | .slow => s.slowPath p f.bytes
    | .otherIp => s.pkeOther p n f true
    | .notIp => s.pkeOther p n f false
    | .udp k => match lookupFlow s.pke.flows p k with
      | none => s.pkeOther p n f true
      | some i => match s.pke.flows[i]? with
        | none => s
        | some fl =>
          let rtcp := fl.kind == 1 || (fl.kind == 2 && decide (192 ≤ u8 k.pay 1 ∧ u8 k.pay 1 ≤ 223))
          if (s.leg fl.leg).st ≠ .on then s.legCnt fl.leg R.PKE_MISS_CNT
          else if rtcp then (if s.srcOk fl k then (s.heardFrom i fl k).rtcpRx p n i fl k f.stamp else s.legCnt fl.leg R.PKE_SRC_CNT)
          else s.rtpRx i fl k f.stamp

/-- PKE_FRAME_TAKE (R193): the oldest frame of a class buffer, unless the kennel holds that class back (R360), or the port's frames go to a receive
ring (R133). -/
def execPkeFrameTake (p : Fin 8) (tc : Fin 7) (s : State) : Host.Outcome State Fault Refusal :=
  .next (if s.bpOn p.val tc.val ∨ (s.ringOf p.val).isSome then s
    else match s.rxTake p.val tc.val with
      | none => s
      | some (f, t) => t.pkeTake p.val tc.val f)

/-- An offset measurement on port `p`: the asymmetry of the port comes off the offset and leaves the path delay as it is, and the sample is
pushed (R81, R92). -/
def State.ptpOffset (s : State) (p : Nat) (raw : Int) (mpd wt : Nat) : State :=
  let o := raw - sgn 32 (s.reg (R.TMU_ASYM p)) * 256
  (s.ofsWrite (unsgn 32 (o / 65536)) (p * 2 ^ 24 + wt * 2 ^ 16 + unsgn 16 o) mpd).ofsPush

/-- What the PTP stack makes of a frame of port `p` (log entry 64): measurements come from messages of a supported version and of the clock's one
domain (R96), on ports that the clock has enabled (R97) other than S0 (R94); a link delay comes from the answers of a peer-delay exchange of the
clock or of the transparent clock (R99). -/
def State.ptpFound (s : State) (p : Nat) (b : Bytes) (r : PtpFind) : State :=
  let off := if udpDst b (parseEth b) = some 320 then (udpAt b (parseEth b)).map (· + 8) else ptpOff b (parseEth b)
  let ty := match off with | some o => u8 b o % 16 | none => 15
  let ours := match off with | some o => ptpVersion (u8 b (o + 1)) && u8 b (o + 4) == u8 s.tmu.ptpRole 3 | none => false
  let on := ours && decide (s.ptpRole ≠ 0) && u8 (kgetD s.tmu.ptpPorts p []) 1 == 1
  match r with
  | .nothing => s
  | .offset raw mpd wt => if on ∧ p < 7 then s.ptpOffset p (sgn 48 raw.toNat) mpd.toNat wt.toNat else s
  | .linkDelay d => if p < 7 ∧ (ty = 3 ∨ ty = 10) ∧ (on ∨ s.pdelayHere p b) then s.setReg (R.TMU_LINKDLY p) d.toNat else s
  | .utcOffset u => if on then s.setFld R.PKE_UTC_OFS_S u.toNat else s

/-- PTP_FRAME_RX (R193): the PTP stack takes the oldest PTP frame, with what it makes of it (R92, R97, R99). -/
def execPtpFrameRx (r : PtpFind) (s : State) : Host.Outcome State Fault Refusal :=
  .next (match s.pke.ptpQ with
    | [] => s
    | (p, f) :: q => (s.setPke { s.pke with ptpQ := q }).ptpFound p f.bytes r)

/-! ### Slow-path answers (R195) -/

/-- The leg not OFF that has a local address, lowest id first. -/
def State.localLeg (s : State) (ver addr : Nat) : Option Egress :=
  (s.legs.find? fun p => p.2.st != .off && (match p.2.cfg.egress with | some e => e.ver == ver && e.ipSrc == addr | none => false)).bind
    fun p => p.2.cfg.egress

/-- An IPv4 packet (R213). -/
def ip4Packet (dscp ident ttl proto src dst : Nat) (body : Bytes) : Bytes :=
  let h := be 1 0x45 ++ be 1 (dscp * 4) ++ be 2 (20 + body.length) ++ be 2 ident ++ be 2 0x4000 ++ be 1 ttl ++ be 1 proto
  let t := be 4 src ++ be 4 dst
  h ++ be 2 (inetSum (h ++ zeros 2 ++ t)) ++ t ++ body

/-- An IPv6 packet (R213). -/
def ip6Packet (dscp ttl proto src dst : Nat) (body : Bytes) : Bytes :=
  be 4 (0x60000000 + dscp * 2 ^ 22) ++ be 2 body.length ++ be 1 proto ++ be 1 ttl ++ be 16 src ++ be 16 dst ++ body

/-- An ICMPv6 message with its checksum. -/
def icmp6 (src dst : Nat) (m : Bytes) : Bytes :=
  let z := m.take 2 ++ zeros 2 ++ m.drop 4
  m.take 2 ++ be 2 (0xFFFF - fold16 (sum16 (be 16 src ++ be 16 dst ++ be 4 m.length ++ be 4 58) + sum16 z)) ++ m.drop 4

/-- The answer of the firmware to a slow-path frame, if it gives one: ARP, Neighbour Solicitation, ICMP and ICMPv6 echo
for local addresses of legs not OFF. -/
def State.slowAnswer (s : State) (b : Bytes) : Option Bytes :=
  let e := parseEth b
  let p := b.drop e.off
  let out (mac : Nat) (x : Bytes) : Bytes := ethFrame e.src mac e.tags e.etype x
  if e.etype = 0x0806 then
    if num p 6 2 = 1 then (s.localLeg 4 (num p 24 4)).map fun g =>
      out g.src (be 2 1 ++ be 2 0x0800 ++ be 1 6 ++ be 1 4 ++ be 2 2 ++ be 6 g.src ++ sub p 24 4 ++ sub p 8 10)
    else none
  else if e.etype = 0x0800 then
    let h := 4 * (u8 p 0 % 16)
    let m := sub p h (num p 2 2 - h)
    if u8 p 9 = 1 ∧ num p 6 2 % 0x4000 = 0 ∧ u8 m 0 = 8 then (s.localLeg 4 (num p 16 4)).map fun g =>
      let r := be 2 0 ++ zeros 2 ++ m.drop 4
      out g.src (ip4Packet 0 (num p 4 2) 64 1 (num p 16 4) (num p 12 4) (patch r 2 (be 2 (inetSum r))))
    else none
  else if e.etype = 0x86DD then
    match v6Chain p 4 (u8 p 6) 40 2 (min 64 (num p 4 2)) with
    | some (58, off) =>
      let m := sub p off (40 + num p 4 2 - off)
      let src := num p 8 16
      if u8 m 0 = 128 then (s.localLeg 6 (num p 24 16)).map fun g =>
        out g.src (ip6Packet 0 64 58 (num p 24 16) src (icmp6 (num p 24 16) src (be 1 129 ++ m.drop 1)))
      else if u8 m 0 = 135 then (s.localLeg 6 (num m 8 16)).map fun g =>
        let tgt := num m 8 16
        let dst := if src = 0 then 0xFF020000000000000000000000000001 else src
        let fl := if src = 0 then 0x20000000 else 0x60000000
        out g.src (ip6Packet 0 255 58 tgt dst (icmp6 tgt dst (be 1 136 ++ zeros 3 ++ be 4 fl ++ be 16 tgt ++ be 1 2 ++ be 1 1 ++ be 6 g.src)))
      else none
    | _ => none
  else none

/-- SLOW_PATH_FRAME (R195): the firmware takes the oldest slow-path frame and answers or discards it; the answer leaves by
the port that the frame came in by, in TC0 (log entry 21). -/
def execSlowPathFrame (s : State) : Host.Outcome State Fault Refusal :=
  .next (match s.pke.slowQ with
    | [] => s
    | (p, b) :: r =>
      let t := s.setPke { s.pke with slowQ := r }
      match t.slowAnswer b with
      | some a => (t.txRequest p (TxFrame.plain a 0 .none)).1
      | none => t)

/-! ### Frames of legs (R209-R215) -/

/-- The RTP clock of what a leg sends; free where no codec gives it (R77; log entry 16). -/
def Template.txClock (t : Template) : Nat :=
  match t.txCodec.bind fun c => codecOf c.1 with
  | some c => c.clock
  | none => t.rxClock

/-- A UDP datagram of a leg in its egress template (R213); an IPv4 frame uses one identification. -/
def State.udpFrame (s : State) (l : Nat) (pay : Bytes) : State × Option (Nat × Bytes) :=
  let x := s.leg l
  match x.cfg.egress with
  | none => (s, none)
  | some e =>
    let n := 8 + pay.length
    let h := be 2 e.sport ++ be 2 e.dport ++ be 2 n
    let ps := if e.ver = 4 then be 4 e.ipSrc ++ be 4 e.ipDst else be 16 e.ipSrc ++ be 16 e.ipDst
    let c := 0xFFFF - fold16 (sum16 (ps ++ be 4 n ++ be 4 17) + sum16 (h ++ zeros 2 ++ pay))
    let c' := if e.ver = 4 ∧ s.flag R.PKE_CFG_V4_CSUM0 then 0 else if c = 0 then 0xFFFF else c
    let u := h ++ be 2 c' ++ pay
    if e.ver = 4 then
      let s1 := s.setLeg l { x with tx := { x.tx with ident := (x.tx.ident + 1) % 65536 } }
      (s1, some (e.port, ethFrame e.dst e.src e.tags 0x0800 (ip4Packet e.dscp x.tx.ident e.ttl 17 e.ipSrc e.ipDst u)))
    else (s, some (e.port, ethFrame e.dst e.src e.tags 0x86DD (ip6Packet e.dscp e.ttl 17 e.ipSrc e.ipDst u)))

/-- Send a datagram of a leg in TC5 under the gates of its frames (R180, R213). -/
def State.legSend (s : State) (l : Nat) (pay : Bytes) : State :=
  match s.udpFrame l pay with
  | (s1, none) => s1
  | (s1, some (p, b)) =>
    (s1.txRequest p { TxFrame.plain b 5 (.leg l) with media := true, group := (s1.leg l).cfg.group }).1

/-- The transmit index of a sequence number: it never goes back (R206, R210). -/
def txIndex (hi seq : Nat) : Nat := (hi / 65536 + b2n (decide (seq < hi % 65536))) * 65536 + seq

/-- Protect and send an RTP packet under the transmit context (R203, R210): one index is used; under an exhausted key it is
not sent. -/
def State.rtpOut (s : State) (l : Nat) (b : Bytes) (hdr seq ssrc : Nat) : State :=
  let x := s.leg l
  let c := x.cfg.tx
  let idx := txIndex c.hi seq
  match c.cur with
  | none => (s.setLeg l { x with cfg := { x.cfg with tx := { c with hi := idx } } }).legSend l b
  | some k =>
    let c1 := { c with hi := idx, cur := some { k with used := k.used + 1 } }
    if k.spent then ((s.setLeg l { x with cfg := { x.cfg with tx := { c with hi := idx } } }).legCnt l R.PKE_KEY_EXP_CNT).raise R.PKE_EVT 8
    else ((s.setLeg l { x with cfg := { x.cfg with tx := c1 } }).recordSrtp l).legSend l (k.sealRtp hdr ssrc idx b)

/-- Build an RTP packet of a leg: the next sequence number, counts of the SR, the marker as given (R209, R210). -/
def State.rtpBuild (s : State) (l pt : Nat) (marker : Bool) (ts : Nat) (pay : Bytes) : State :=
  let x := s.leg l
  let t := x.tx
  let b := be 1 0x80 ++ be 1 (b2n marker * 128 + pt) ++ be 2 t.seq ++ be 4 ts ++ be 4 t.ssrc ++ pay
  let t1 := { t with seq := (t.seq + 1) % 65536, lastTs := ts, pkts := t.pkts + 1, octets := t.octets + pay.length, sent := true }
  (s.setLeg l { x with tx := t1 }).rtpOut l b 12 t.seq t.ssrc

/-- The time stamp of a frame whose first sample lies at an instant (R210); the first frame after a slip follows the last
one by N (1 + m) and sets ROFF anew (R211). The Bool says whether it was adjusted. -/
def State.txStamp (s : State) (l : Nat) (at_ : Inst) : State × Nat × Bool :=
  let x := s.leg l
  let t := s.legTmpl l
  let cnt := countAt t.txClock at_
  match x.tx.lostFrames with
  | none => (s, (x.tx.roff + cnt) % 2 ^ 32, false)
  | some m =>
    let ts := (x.tx.lastTs + t.txClock * x.f / 1000 * (1 + m)) % 2 ^ 32
    let tx := { x.tx with lostFrames := none, roff := (ts + 2 ^ 32 - cnt % 2 ^ 32) % 2 ^ 32, marker := true }
    ((s.setLeg l { x with tx := tx }).legCnt l R.PKE_ROFF_ADJ_CNT, ts, true)

/-- A voice frame (R210, R214): the marker when one is owed. -/
def State.voiceOut (s : State) (l pt : Nat) (at_ : Inst) (cnt : Nat) (pay : Bytes) : State :=
  let (s1, ts, _) := s.txStamp l at_
  let x := s1.leg l
  let m := x.tx.marker
  ((s1.setLeg l { x with tx := { x.tx with marker := false } }).rtpBuild l pt m ts pay).legCnt l cnt

/-- One event packet of RFC 4733 (R208). -/
def State.eventOut (s : State) (l : Nat) (marker fin : Bool) (code vol ts dur : Nat) : State :=
  let x := s.leg l
  (s.rtpBuild l x.cfg.pts.2.2 marker ts (be 1 code ++ be 1 (b2n fin * 128 + vol) ++ be 2 dur)).legCnt l R.PKE_TX_EVT_CNT

/-- An event that lasts to count `c` without its end packet; a duration past 65,535 starts a new segment (R208). -/
def State.eventRun (s : State) (l c : Nat) (first : Bool) : State :=
  let x := s.leg l
  match x.tx.event with
  | none => s
  | some (ev, ts, c0) =>
    let d := c - c0
    if 65535 < d then
      let s1 := s.eventOut l first false (ev % 256) (ev / 256) ts 65535
      let y := s1.leg l
      s1.setLeg l { y with tx := { y.tx with event := some (ev, (ts + 65535) % 2 ^ 32, c0 + 65535) } }
    else s.eventOut l first false (ev % 256) (ev / 256) ts d

/-- The end of an event: three packets in one Emit, and the marker owed to the next voice frame. One that passes 65,535 units sends the full segment
before, and they are of the new one (R208). -/
def State.eventEnd (s0 : State) (l c : Nat) (first : Bool) : State :=
  let full : Bool := match (s0.leg l).tx.event with | some (_, _, c0) => decide (65535 < c - c0) | none => false
  let s := if full then s0.eventRun l c first else s0
  match (s.leg l).tx.event with
  | none => s
  | some (ev, ts, c0) =>
    let one (t : State) (m : Bool) := t.eventOut l m true (ev % 256) (ev / 256) ts (c - c0)
    let s1 := one (one (one s (first && !full)) false) false
    let y := s1.leg l
    s1.setLeg l { y with tx := { y.tx with event := none, marker := true } }

/-- One event of a frame (R326): an onset begins an event where none runs, its offset ends it. The Bools say whether the
next event packet is an event's first, and whether a packet was sent. -/
def State.eventStep (l clk : Nat) (a : State × Bool × Bool) (e : ToneEv) : State × Bool × Bool :=
  let y := a.1.leg l
  match y.tx.event, e.kind with
  | none, 0 =>
    let ts := (y.tx.roff + countAt clk (e.at_ - nsI 40000000)) % 2 ^ 32
    let vol := (clampI (-(e.level / 16)) 0 63).toNat
    (a.1.setLeg l { y with tx := { y.tx with event := some (e.code + 256 * vol, ts, countAt clk e.at_) } }, true, a.2.2)
  | some (c, _), 1 => if c % 256 = e.code then (a.1.eventEnd l (countAt clk e.at_) a.2.1, false, true) else a
  | _, _ => a

/-- Events in the order of their instants. -/
def inOrder (evs : List ToneEv) : List ToneEv :=
  evs.foldl (fun q e => q.filter (fun x => decide (x.at_ ≤ e.at_)) ++ e :: q.filter fun x => decide (e.at_ < x.at_)) []

/-- The DTMF events that a frame's PEER block brings join those whose frames are to come; without a telephone-event type they are discarded
(R326). -/
def State.takeEvts (s : State) (l : Nat) (evts : List ToneEv) : State :=
  let x := s.leg l
  let q := if x.cfg.pts.2.2 = 255 then [] else inOrder (x.tx.evq ++ evts.filter fun e => decide (e.code < 16))
  s.setLeg l { x with tx := { x.tx with evq := q } }

/-- The events of a frame, as R326 sends them: those whose instants lie in its span; an offset that no frame's span held ends its event now (log
entry 87). The Bool says whether event packets took the place of the voice frame. -/
def State.eventsOut (s : State) (l : Nat) (at_ : Inst) : State × Bool :=
  let x := s.leg l
  if x.cfg.pts.2.2 = 255 then (s, false)
  else
    let clk := (s.legTmpl l).txClock
    let (now, later) := x.tx.evq.partition fun e => decide (e.at_ < at_ + x.per)
    let s1 := s.setLeg l { x with tx := { x.tx with evq := later } }
    let a := (now.filter fun e => decide (at_ ≤ e.at_ ∨ e.kind = 1)).foldl (State.eventStep l clk) (s1, false, false)
    if (a.1.leg l).tx.event.isNone then (a.1, a.2.2) else (a.1.eventRun l (countAt clk (at_ + x.per)) a.2.1, true)

/-! ### Fallback frames (R40, R214) -/

/-- A slot released empty: the leg's fallback frame with the time stamp of the lost frame (R39, R40, R214). -/
def State.fallbackOut (s : State) (l : Nat) (b : Inst) : State :=
  let x := s.leg l
  let t := s.legTmpl l
  match findIx (·.ty == 8) t.nodes with
  | some i => s.voiceOut l x.cfg.pts.1 (t.stamp s.sets b 25 (t.node i).in0) R.PKE_TX_FALLBACK_CNT x.fb
  | none => s

/-- The packet of a relay leg, unchanged but for its protection (R212, R235). -/
def State.relayOut (s : State) (l : Nat) (raw : Bytes) : State :=
  match parseRtp raw with
  | none => s
  | some h =>
    let x := s.leg l
    let tx := { x.tx with pkts := x.tx.pkts + 1, octets := x.tx.octets + (raw.length - h.hdr), sent := true, lastTs := h.ts, ssrc := h.ssrc }
    ((s.setLeg l { x with tx := tx }).rtpOut l raw h.hdr h.seq h.ssrc).legCnt l R.PKE_TX_RTP_CNT

/-! ### RTCP of legs (R215) -/

/-- Key of the expected count and the lost count at the last report. -/
abbrev Stat.repExp : Nat := 20
abbrev Stat.repLost : Nat := 21

/-- The instant at which the Emit of this swath began (R215). -/
def State.emitStart (s : State) : Inst := s.now - (s.elapsed - s.swt.emitAt)

/-- The report block about what a leg receives (RFC 3550), if it has heard a source. -/
def State.reportBlock (s : State) (l : Nat) : Bytes :=
  let x := s.leg l
  match x.rx.ssrc with
  | none => []
  | some v =>
    let lost := x.figure Stat.lost
    let de := x.figure Stat.expected - kgetD x.stats Stat.repExp 0
    let dl := lost - kgetD x.stats Stat.repLost 0
    let frac := if de = 0 then 0 else min 255 (256 * dl / de)
    let lsr := ntpMid x.rx.srNtp
    let dlsr := if lsr = 0 then 0 else (s.emitStart - x.rx.srAt) * 65536 / secI % 2 ^ 32
    be 4 v ++ be 1 frac ++ be 3 lost ++ be 4 x.ply.hi ++ be 4 (x.ply.jit / 16) ++ be 4 lsr ++ be 4 dlsr

/-- The SR or RR that begins a compound: an SR pairs the start of Emit with its RTP time stamp (R215). -/
def State.srRr (s : State) (l : Nat) : Bytes :=
  let x := s.leg l
  let r := s.reportBlock l
  let rc := if r.isEmpty then 0 else 1
  if x.tx.sent then
    let ts := (x.tx.roff + countAt (s.legTmpl l).txClock s.emitStart) % 2 ^ 32
    be 1 (0x80 + rc) ++ be 1 200 ++ be 2 (6 + 6 * rc) ++ be 4 x.tx.ssrc ++ s.ntp s.emitStart ++ be 4 ts ++ be 4 x.tx.pkts ++ be 4 x.tx.octets ++ r
  else be 1 (0x80 + rc) ++ be 1 201 ++ be 2 (1 + 6 * rc) ++ be 4 x.tx.ssrc ++ r

/-- The SDES CNAME part; the name is not stated (log entry 14). -/
def State.sdes (s : State) (l : Nat) : Bytes :=
  be 1 0x81 ++ be 1 202 ++ be 2 4 ++ be 4 (s.leg l).tx.ssrc ++ be 1 1 ++ be 1 8 ++ fit 8 (Config.stdBytes 320 (be 2 s.dev ++ be 4 l)) ++ zeros 2

/-- The mean lengths of bursts and gaps in ms by RFC 3611 with Gmin = 16 (R240): without a burst all is one gap. -/
def Leg.spans (x : Leg) : Nat × Nat :=
  let (c13, c23) := (x.figure Stat.c13, x.figure Stat.c23)
  let all := x.figure Stat.c11 + x.figure Stat.c14 + 2 * c13 + x.figure Stat.c22 + 2 * c23 + x.figure Stat.c33
  if c13 = 0 then (0, all * x.f)
  else
    let g := (x.figure Stat.c11 + x.figure Stat.c14 + c13) * x.f / c13
    (all * x.f / c13 - g, g)

/-- The VoIP Metrics block of RFC 3611, with values from the playout engine (R215, R240): loss and discard rates, densities and spans of bursts and
gaps, round trip, the delay of the buffer and one frame, Gmin and the delays. Levels and qualities, which the playout engine does not have, carry
that RFC's code for what is not available (log entry 82). -/
def State.xrPart (s : State) (l : Nat) : Bytes :=
  let x := s.leg l
  let y := x.ply
  let ms (t : Int) : Bytes := be 2 (min 65535 (t / (nsI 1000000 : Nat)).toNat)
  let absMax := (if x.cfg.ply.fixed then x.cfg.ply.delayUs else x.cfg.ply.maxUs) / 1000
  let rate (n : Nat) : Bytes := be 1 (min 255 n)
  let w (n : Nat) : Bytes := be 2 (min 65535 n)
  be 1 0x80 ++ be 1 207 ++ be 2 10 ++ be 4 x.tx.ssrc ++ be 1 7 ++ be 1 0 ++ be 2 8 ++ be 4 (x.rx.ssrc.getD 0) ++
    rate (share256 (x.figure Stat.lost) (x.figure Stat.expected)) ++ rate (share256 x.discarded (x.figure Stat.expected)) ++
    rate x.densities.1 ++ rate x.densities.2 ++ w x.spans.1 ++ w x.spans.2 ++ w (x.rx.rtt * 1000 / 65536) ++ w (y.delayUs / 1000 + x.f) ++
    List.replicate 3 127 ++ be 1 16 ++ List.replicate 4 127 ++ be 1 (if x.cfg.ply.fixed then 0x20 else 0x30) ++ zeros 1 ++
    ms (meanI y.slack) ++ ms y.sMax ++ be 2 absMax

/-- Protect and send a compound (R202, R203, R215). -/
def State.rtcpOut (s : State) (l : Nat) (b : Bytes) : State :=
  let x := s.leg l
  let c := x.cfg.tx
  match c.cur with
  | none => (s.legSend l b).legCnt l R.PKE_TX_RTCP_CNT
  | some k =>
    if k.spentC then (s.legCnt l R.PKE_KEY_EXP_CNT).raise R.PKE_EVT 8
    else
      let c1 := { c with hiC := c.hiC + 1, cur := some { k with usedC := k.usedC + 1 } }
      (((s.setLeg l { x with cfg := { x.cfg with tx := c1 } }).recordSrtp l).legSend l (k.sealRtcp c.eflag c.hiC b)).legCnt l R.PKE_TX_RTCP_CNT

/-- The next report time: the interval times a random factor in [0.5, 1.5), a free value (R215). -/
def State.nextReport (s : State) (l : Nat) : State :=
  let x := s.leg l
  let d := s.draw 16
  (s.setLeg l { x with tx := { x.tx with repAt := s.emitStart + x.cfg.rtcpS * secI * (32768 + d) / 65536 } }).drawn

/-- The compound of a report (R215). -/
def State.reportOut (s : State) (l : Nat) : State :=
  let x := s.leg l
  let b := s.srRr l ++ s.sdes l ++ (if x.cfg.xr then s.xrPart l else [])
  let t := s.rtcpOut l b
  let y := t.leg l
  let st := kset (kset y.stats Stat.repExp (y.figure Stat.expected)) Stat.repLost (y.figure Stat.lost)
  (t.setLeg l { y with stats := st, tx := { y.tx with sent := false }, ply := { y.ply with sMax := meanI y.ply.slack } }).nextReport l

/-- The BYE of a leg that stops, in a compound of its own (R215). -/
def State.byeOut (s : State) (l : Nat) : State :=
  s.rtcpOut l (s.srRr l ++ s.sdes l ++ be 1 0x81 ++ be 1 203 ++ be 2 1 ++ be 4 (s.leg l).tx.ssrc)

/-! ### Stale frames (R214) -/

/-- At a boundary the frames of legs that have not entered their queue are discarded (R214, R359). -/
def State.staleDiscard (s : State) : State :=
  let isLeg (f : TxFrame) : Option Nat := match f.origin with | .leg l => some l | _ => none
  let gone := s.ports.flatMap fun p => p.2.waiting.flatMap fun q => q.2.filterMap isLeg
  let ports := s.ports.map fun p => (p.1, { p.2 with waiting := p.2.waiting.map fun q => (q.1, q.2.filter fun f => (isLeg f).isNone) })
  let s1 := gone.foldl (fun t l => t.legCnt l R.PKE_TX_STALE_CNT) { s with ports := ports }
  if gone.isEmpty then s1 else s1.raise R.PKE_EVT 16

/-! ### Registers (R216, R217) -/

/-- The registers that mirror the flow table. -/
def pkeView (s : State) (_i2c : Bool) (a : Nat) : Option Nat :=
  if a = R.PKE_FLOW_USED then some s.pke.flows.length else if a = R.PKE_STASH_USED then some s.inStash else none

/-- The ranges of R217. -/
def pkeRule (_s : State) (a v : Nat) : Option Nat :=
  let out (x lo hi : Nat) : Bool := decide (x < lo ∨ hi < x)
  let bad (b : Bool) : Option Nat := if b then some St.state else none
  if a = R.PKE_CFG then bad (decide (1 < bits v 1 0))
  else if a = R.PKE_SLOW_RATE then bad (out (bits v 31 24) 1 255 || out (bits v 15 0) 1 1000)
  else if a = R.PKE_HOLD then bad (out (bits v 31 16) 1 10000 || out (bits v 15 0) 1 10000)
  else if a = R.PKE_BRIDGE then
    bad ((List.range 4).any fun k =>
      let n := v / 16 ^ k % 16
      tb n 3 && (out (n % 8) 1 4 || n % 8 == k + 1))
  else none

end Sys2Proof.Machine
end

