-- ==== Sys2Proof/Machine/Tone.lean ====
section
/-! DEFINITION. The TONE node (R322-R327): its detectors, muting, generation and regeneration. How the analysis measures a
step of samples is not stated: it is an opaque function of them (log entry 11); the conditions, times and cadences are the spec's. -/

namespace Sys2Proof.Machine

open Sys2Proof

/-! ### What the detectors look for (R322) -/

/-- What the analysis finds in a step of 1 ms: up to two tones with frequency in 1/16 Hz and level in 1/16 dBm0, rate in 1/100 Hz and depth in
1/1000 of an amplitude modulation, degrees of a phase change, and the V.21 flags that have come one after another. How it finds them is not
stated (log entry 11). -/
structure ToneMeas where
  tones : List (Nat × Int)
  am : Nat × Nat
  turn : Nat
  flags : Nat

/-- The analysis of a step, from what it remembers and the step's samples. -/
def toneMeas (rate : Nat) (det xs : List Int) : ToneMeas :=
  let raw := Config.stdSamples 551 [(rate : Int)] (det ++ xs)
  let n (i : Nat) : Int := raw.getD i 0
  { tones := ([(0, 1), (2, 3)].map fun p => ((n p.1).natAbs, n p.2)).filter (·.1 != 0), am := ((n 4).natAbs, (n 5).natAbs)
    turn := (n 6).natAbs, flags := (n 7).natAbs }

/-- The distance of two numbers. -/
def gap (a b : Nat) : Nat := max a b - min a b

/-- Whether a frequency is a DTMF frequency: within 1.5% it is, beyond 3.5% it is not, and between the two the spec does not say (log entry 83). -/
def dtmfNear (f hz : Nat) : Bool :=
  let d := 1000 * gap f (16 * hz)
  decide (d ≤ 240 * hz) || (decide (d ≤ 560 * hz) && Config.stdNum 552 [(f : Int), (hz : Int)] [] != 0)

/-- Whether a frequency lies within 1.5% of another. -/
def mfNear (f hz : Nat) : Bool := decide (1000 * gap f (16 * hz) ≤ 240 * hz)

/-- Whether a frequency lies within a number of Hz of another. -/
def hzNear (tol f hz : Nat) : Bool := decide (gap f (16 * hz) ≤ 16 * tol)

/-- The level of a pair of tones, the higher of the two, where frequencies, levels and twist are in range (R322; levels in 1/16 dB). -/
def pairLevel (m : ToneMeas) (near : Nat → Nat → Bool) (lo hi : Nat) (lMin lMax tMin tMax : Int) : Option Int :=
  match m.tones with
  | [a, b] =>
    let (p, q) := if a.1 ≤ b.1 then (a, b) else (b, a)
    let fits (v : Int) : Bool := decide (lMin ≤ v ∧ v ≤ lMax)
    if near p.1 lo && near q.1 hi && fits p.2 && fits q.2 && decide (tMin ≤ q.2 - p.2 ∧ q.2 - p.2 ≤ tMax) then some (max p.2 q.2) else none
  | _ => none

/-- The level of a single tone within a number of Hz of a frequency, between -43 and 0 dBm0. -/
def oneLevel (m : ToneMeas) (tol hz : Nat) : Option Int :=
  match m.tones with
  | [a] => if hzNear tol a.1 hz && decide (-688 ≤ a.2 ∧ a.2 ≤ 0) then some a.2 else none
  | _ => none

/-- The two of six frequencies that signal `n` of the MF and MFC series has, as indices (Q.320, Q.440; log entry 83). -/
def mfPair (n : Nat) : Nat × Nat :=
  let j := if n ≤ 1 then 1 else if n ≤ 3 then 2 else if n ≤ 6 then 3 else if n ≤ 10 then 4 else 5
  (n - 1 - j * (j - 1) / 2, j)

/-- The Q.23 pair of an event code (R326). -/
def q23 (code : Nat) : Nat × Nat :=
  let row (i : Nat) := [697, 770, 852, 941].getD i 697
  let col (i : Nat) := [1209, 1336, 1477, 1633].getD i 1209
  match code with
  | 0 => (row 3, col 1) | 10 => (row 3, col 0) | 11 => (row 3, col 2)
  | 12 => (row 0, col 3) | 13 => (row 1, col 3) | 14 => (row 2, col 3) | 15 => (row 3, col 3)
  | d => (row ((d - 1) / 3), col ((d - 1) % 3))

/-- The level at which a step meets the conditions of an event code, none where it does not (R322, R325). The digit 0 of MF is its tenth
signal. -/
def codeLevel (m : ToneMeas) (code : Nat) : Option Int :=
  let n := code % 16
  match code / 16 with
  | 0 => let (lo, hi) := q23 code; pairLevel m dtmfNear lo hi (-576) 48 (-128) 64
  | 2 =>
    let (i, j) := mfPair (if n = 0 then 10 else n)
    if n = 10 then none else pairLevel m mfNear (700 + 200 * i) (700 + 200 * j) (-400) 48 (-96) 96
  | 4 => let (i, j) := mfPair n; if n = 0 then none else pairLevel m (hzNear 10) (1380 + 120 * i) (1380 + 120 * j) (-560) (-80) (-80) 80
  | 5 => let (i, j) := mfPair n; if n = 0 then none else pairLevel m (hzNear 10) (1140 - 120 * j) (1140 - 120 * i) (-560) (-80) (-80) 80
  | _ => match n with
    | 0 => oneLevel m 38 1100
    | 1 => if m.am.2 = 0 then oneLevel m 15 2100 else none
    | 2 => if 1490 ≤ m.am.1 ∧ m.am.1 ≤ 1510 ∧ 150 ≤ m.am.2 ∧ m.am.2 ≤ 250 then oneLevel m 15 2100 else none
    | _ => if 3 ≤ m.flags then (m.tones.find? fun a => decide (-688 ≤ a.2 ∧ a.2 ≤ 0)).map (·.2) else none

/-- The ms for which the conditions of a code hold before its onset, and for which they cease before its offset (R322); where no off time is
stated the first step without them ends it (log entry 83). -/
def codeTimes (code : Nat) : Nat × Nat :=
  match code / 16 with
  | 0 => (40, 40)
  | 2 => (if code = 0x2D then 55 else 30, 20)
  | 4 => (30, 20)
  | 5 => (30, 20)
  | _ => (if code = 0x63 then 1 else 400, 1)

/-- The event codes that a TONE node's mask runs, without the call-progress profiles (R322, R325). -/
def maskCodes (mask : Nat) : List Nat :=
  let some_ (i : Nat) (l : List Nat) : List Nat := if tb mask i then l else []
  some_ 0 (List.range 16) ++ some_ 1 ((List.range 16).map (0x20 + ·)) ++ some_ 2 ((List.range 16).map (0x40 + ·)) ++
    some_ 3 ((List.range 16).map (0x50 + ·)) ++ some_ 5 [0x60] ++ some_ 6 [0x61] ++ some_ 7 [0x62] ++ some_ 8 [0x63]

/-! ### Call progress (R322, GRAPH_CPT_DEFINE) -/

/-- The level at which a step holds the tones of a profile: both frequencies within the tolerance, at or above the floor. -/
def cptLevel (m : ToneMeas) (p : Bytes) : Option Int :=
  let (f1, f2) := (num p 2 2, num p 4 2)
  let floor := 8 * sgn 8 (u8 p 8)
  let has (f : Nat) : Option Int := (m.tones.find? fun a => hzNear (num p 6 2) a.1 f && decide (floor ≤ a.2)).map (·.2)
  if f2 = 0 then (if m.tones.length = 1 then has f1 else none) else (has f1).bind fun a => (has f2).map fun b => max a b

/-- The cadence of a profile after a step of 1 ms (log entry 83): `ix` counts the on and off spans of a cycle, even ones with tones, and while its
parity does not fit the step the cadence has failed and waits for the next onset of the tones. -/
def CptSt.step (c : CptSt) (p : Bytes) (on : Bool) : CptSt :=
  let n := (p.length - 11) / 4
  let span (i : Nat) : Nat := num p (9 + 2 * i) 2
  let tol := u8 p (9 + 4 * n)
  let e := span c.ix
  let live := c.on == (c.ix % 2 == 0)
  if on = c.on then
    if live = false then c
    else if on ∧ span (c.ix + 1) = 0 ∧ e ≤ c.ms + 1 then { c with ms := 0, ix := (c.ix + 2) % (2 * n), good := c.good + b2n (2 * n ≤ c.ix + 2) }
    else if e * (100 + tol) < (c.ms + 1) * 100 then { c with ms := 0, ix := b2n on, good := 0 }
    else { c with ms := c.ms + 1 }
  else if live ∧ gap c.ms e * 100 ≤ e * tol then ⟨on, 1, (c.ix + 1) % (2 * n), c.good + b2n (c.ix + 1 = 2 * n)⟩
  else ⟨on, 1, 0, 0⟩

/-! ### Events of a node (R322, R323) -/

/-- Events of one node over a block: onsets, offsets and reversals with their instants (R322, R323). -/
structure ToneRun where
  st : ToneSt
  evs : List ToneEv

/-- Note one detection: an onset of a code already on and an offset of one that is not are no events. -/
def ToneRun.note (r : ToneRun) (node code kind : Nat) (level : Int) (at_ : Inst) : ToneRun :=
  let on := r.st.on.find? fun p => p.1 == code
  match kind, on with
  | 0, none => ⟨{ r.st with on := r.st.on ++ [(code, at_)] }, r.evs ++ [⟨node, code, 0, level, 0, at_⟩]⟩
  | 1, some (_, t0) => ⟨{ r.st with on := r.st.on.filter fun p => p.1 != code }, r.evs ++ [⟨node, code, 1, level, (at_ - t0) / 65536, at_⟩]⟩
  | 2, some _ => ⟨r.st, r.evs ++ [⟨node, code, 2, level, 0, at_⟩]⟩
  | _, _ => r

/-- Store a count, or nothing for 0. -/
def kcount (m : KV Nat) (k v : Nat) : KV Nat := if v = 0 then kdel m k else kset m k v

/-- A step of one code: its conditions have held or ceased for one ms more, and an onset or an offset is decided at the step's last sample
(R322). -/
def ToneRun.codeStep (r : ToneRun) (node : Nat) (m : ToneMeas) (at_ : Inst) (code : Nat) : ToneRun :=
  let lev := codeLevel m code
  let held := if lev.isSome then kgetD r.st.held code 0 + 1 else 0
  let gone := if lev.isSome then 0 else kgetD r.st.gone code 0 + 1
  let on := r.st.on.any fun p => p.1 == code
  let r1 : ToneRun := { r with st := { r.st with held := kcount r.st.held code held, gone := kcount r.st.gone code (if on then gone else 0) } }
  if on = false ∧ (codeTimes code).1 ≤ held then r1.note node code 0 (lev.getD 0) at_
  else if on ∧ (codeTimes code).2 ≤ gone then r1.note node code 1 0 at_
  else r1

/-- A step of a call-progress profile: its onset once enough cycles have come, its offset when the cadence fails (R322). -/
def ToneRun.cptStep (r : ToneRun) (node : Nat) (m : ToneMeas) (at_ : Inst) (k : Nat) (p : Bytes) : ToneRun :=
  let lev := cptLevel m p
  let c := ((kget r.st.cpt k).getD ⟨false, 0, 0, 0⟩).step p lev.isSome
  let on := r.st.on.any fun q => q.1 == 0x70 + k
  let r1 : ToneRun := { r with st := { r.st with cpt := kset r.st.cpt k c } }
  let enough := decide (max 1 (u8 p (p.length - 1)) ≤ c.good)
  if on = false ∧ enough then r1.note node (0x70 + k) 0 (lev.getD 0) at_
  else if on ∧ enough = false then r1.note node (0x70 + k) 1 0 at_
  else r1

/-- A reversal: two phase changes of 180 degrees, give or take 25, 425 ms to 475 ms apart during an ANS or ANSam tone (R322). R16 makes every
window of tone detection half-open; that it holds for the ends of this tolerance is DEDUCED (log entry 92), so 475 ms lie outside. -/
def ToneRun.turnStep (r : ToneRun) (node : Nat) (m : ToneMeas) (at_ : Inst) : ToneRun :=
  let ans := r.st.on.filter fun p => p.1 == 0x61 || p.1 == 0x62
  let since := r.st.turn.map (· + 1)
  if ans.isEmpty then { r with st := { r.st with turn := none } }
  else if 155 ≤ m.turn ∧ m.turn ≤ 205 then
    let r1 : ToneRun := { r with st := { r.st with turn := some 0 } }
    if since.any fun t => decide (425 ≤ t ∧ t < 475) then ans.foldl (fun a p => a.note node p.1 2 0 at_) r1 else r1
  else { r with st := { r.st with turn := since } }

/-- One step of 1 ms of a node's detectors (R322). -/
def ToneRun.step (r : ToneRun) (node : Nat) (cpts : KV Bytes) (par : Bytes) (rate : Nat) (xs : List Int) (at_ : Inst) : ToneRun :=
  let m := toneMeas rate r.st.det xs
  let r1 := (maskCodes (num par 0 2)).foldl (fun a c => a.codeStep node m at_ c) r
  let r2 := if tb (num par 0 2) 4 then cpts.foldl (fun a p => if tb (num par 4 2) p.1 then a.cptStep node m at_ p.1 p.2 else a) r1 else r1
  let r3 := r2.turnStep node m at_
  { r3 with st := { r3.st with det := Config.stdSamples 552 [(rate : Int)] (r.st.det ++ xs) } }

/-- The detection of a TONE node over its input (R322, R323): excluded samples are not looked at, and a span of them longer
than 40 ms ends what is on, stamped at its first sample. -/
def toneDetect (node f : Nat) (cpts : KV Bytes) (par : Bytes) (b : Block) (st : ToneSt) : ToneRun :=
  let hz := rateHz b.rate
  let n := b.xs.length
  let w := hz / 1000
  let gone := if b.conceal then n else min n b.u
  let excl := st.excl + gone
  let r0 : ToneRun := ⟨st, []⟩
  let r1 := if hz * 40 / 1000 < excl ∧ 0 < gone then
      let t0 := b.at_ + instOf hz gone - instOf hz excl
      let r := st.on.foldl (fun r p => r.note node p.1 1 0 t0) r0
      { r with st := { r.st with held := [], gone := [], turn := none, cpt := [] } }
    else r0
  if gone = n then ⟨{ r1.st with excl := excl }, r1.evs⟩
  else
    let g0 := cdiv gone (max 1 w)
    let r2 := (List.range (f - g0)).foldl (fun (r : ToneRun) i =>
      let k := g0 + i
      r.step node cpts par b.rate ((b.xs.drop (k * w)).take w) (b.inst ((k + 1) * w - 1))) r1
    ⟨{ r2.st with excl := 0 }, r2.evs⟩

/-! ### Generation, muting and regeneration (R324, R326, R327) -/

/-- The sine series from a term on: the argument's square and the terms in 2^-64. -/
def sineSum (t2 : Int) : Nat → Nat → Int → Int
  | 0, _, _ => 0
  | n + 1, k, term => term + sineSum t2 n (k + 2) (-(term * t2 / 2 ^ 64 / ((k + 1) * (k + 2) : Nat)))

/-- The sine of a phase of 32 bits, in 2^-64. -/
def sine (a : Nat) : Int :=
  let r : Nat := a % 2 ^ 30
  let x : Int := if a / 2 ^ 30 % 2 = 0 then (r : Int) else 2 ^ 30 - (r : Int)
  let t := 28976077832308491370 * x / 2 ^ 30
  let v := sineSum (t * t / 2 ^ 64) 12 1 t
  if a / 2 ^ 31 = 0 then v else -v

/-- The peak of a tone at a level in half dB, 10^((level - 3.14) / 20) in Q3.36, rounded down (R327). -/
def tonePeak (lev : Int) : Nat :=
  let e := 25 * lev - 157
  greatest (fun p => decide (p ^ 1000 * 10 ^ (-e).toNat ≤ 2 ^ 36000 * 10 ^ e.toNat)) 47 0

/-- One sample of a tone: accumulator after `i` samples, its sine at a level in half dB (R327). Which way the product is rounded is not stated: a
free value (log entry 83). -/
def toneSample (rate f : Nat) (lev : Int) (i : Nat) : Int :=
  if f = 0 then 0
  else
    let a : Nat := i * ((2 * f * 2 ^ 32 + rateHz rate) / (2 * rateHz rate)) % 2 ^ 32
    let up : Int := Config.stdNum 560 [(a : Int), lev] [] % 2
    clampI (sine a * (tonePeak lev : Int) / 2 ^ 64 + up) (-(2 ^ 39)) (2 ^ 39 - 1)

/-- The samples of one segment. -/
def segLen (rate : Nat) (seg : Bytes) : Nat := num seg 6 2 * rateHz rate / 1000

/-- The generator's sample number `i` within one pass of its segments (R327). -/
def genSample (rate : Nat) : Nat → Bytes → Nat → Int
  | 0, _, _ => 0
  | k + 1, segs, i =>
    let g := segs.take 8
    let n := segLen rate g
    if i < n then toneSample rate (num g 0 2) (sgn 8 (u8 g 4)) i + toneSample rate (num g 2 2) (sgn 8 (u8 g 5)) i
    else genSample rate k (segs.drop 8) (i - n)

/-- The samples of one pass of a generator. -/
def genLen (rate : Nat) (segs : Bytes) : Nat := sumL ((List.range (segs.length / 8)).map fun i => segLen rate (segs.drop (8 * i)))

/-- The generated samples of a frame, none where the generator is done, and the generator after it (R327). -/
def genFrame (rate n : Nat) (g : Option (Bytes × Nat × Nat)) : List (Option Int) × Option (Bytes × Nat × Nat) :=
  match g with
  | none => (List.replicate n none, none)
  | some (segs, rep, done) =>
    let len := genLen rate segs
    let total := if rep = 0 then done + n + 1 else rep * len
    let xs := (List.range n).map fun i => if done + i < total ∧ 0 < len then some (genSample rate 4 segs ((done + i) % len)) else none
    (xs, if done + n < total then some (segs, rep, done + n) else none)

/-- The received events that a frame makes tones of: those that came with it, and those of earlier frames that it does not bring up to date. -/
def telNow (old new : List TelEv) : List TelEv := new ++ old.filter fun e => !new.any fun n => n.ts == e.ts && decide (e.dur ≤ n.dur)

/-- The events that go on beyond a frame of `n` units of the RTP clock that begins at time stamp `ts`. -/
def telRest (n ts : Nat) (tel : List TelEv) : List TelEv := tel.filter fun e => decide (e.ev < 16 ∧ (n : Int) < tsDist e.ts ts + e.dur)

/-- Received events made tones again in a frame that begins at time stamp `ts` (R326): each sample's tone, if one covers it. -/
def regenFrame (rate n clock ts : Nat) (tel : List TelEv) : List (Option Int) :=
  (List.range n).map fun i =>
    let at_ : Int := (i * clock / rateHz rate : Nat)
    let hit := tel.find? fun e => decide (e.ev < 16 ∧ tsDist e.ts ts ≤ at_ ∧ at_ < tsDist e.ts ts + e.dur)
    hit.map fun e =>
      let (a, b) := q23 e.ev
      let k := ((at_ - tsDist e.ts ts) * rateHz rate / max 1 (clock : Int)).toNat
      toneSample rate a (-(2 * e.vol : Int)) k + toneSample rate b (-(2 * e.vol : Int)) k

/-- Generated samples put over a block: they replace it or are added to it (R327). -/
def overlay (mix : Bool) (xs : List Int) (g : List (Option Int)) : List Int :=
  (xs.zip g).map fun (x, o) => match o with
    | none => x
    | some v => clampI (if mix then x + v else v) (-(2 ^ 39)) (2 ^ 39 - 1)

/-- Whether sample `i` is muted: a DTMF tone on at the start of the block or begun in it has not ended (R324). -/
def mutedAt (b : Block) (before : List (Nat × Inst)) (evs : List ToneEv) (i : Nat) : Bool :=
  let d := evs.filter fun e => decide (e.code < 16 ∧ b.indexOf e.at_ ≤ i)
  let codes := (before.map (·.1) ++ d.map (·.code)).filter fun c => decide (c < 16)
  codes.any fun c =>
    match (d.filter (·.code == c)).getLast? with
    | some e => e.kind == 0
    | none => (before.map (·.1)).contains c

/-- TONE: detection, muting, generation and regeneration (R322-R327). -/
def toneNode (c : LegCfg) (cpts : KV Bytes) (k : Task) (i f clock : Nat) (nd : Node) (b : Block) (st : ToneSt) : ToneSt × Block × List ToneEv :=
  let r := toneDetect i f cpts nd.par b st
  let fl := u8 nd.par 2
  let xs := if tb fl 0 then b.xs.zipIdx.map fun (x, j) => if mutedAt b st.on r.evs j then 0 else x else b.xs
  let (g, gen) := genFrame b.rate b.xs.length st.gen
  let ys := overlay (tb fl 1) xs g
  let tel := if c.evtIn = 1 then telNow st.tel k.tel else []
  let zs := overlay false ys (regenFrame b.rate b.xs.length clock k.ts tel)
  ({ r.st with gen := gen, tel := telRest (f * clock / 1000) k.ts tel }, { b with xs := zs }, r.evs)

end Sys2Proof.Machine
end

