-- ==== Sys2Proof/Machine/Media.lean ====
section
/-! DEFINITION. The nodes of a media graph (R311-R330) that cores run: what each makes of its blocks. What a codec other than G.711 and the
concealment compute inside is named by the spec and not laid out: those are opaque functions of the same data (log entry 11). -/

namespace Sys2Proof.Machine

open Sys2Proof

/-! ### PEER and conferences (R313, R329) -/

/-- The block of a TAP item that a player handed to a leg (R478). -/
def PItem.block (i : PItem) (b : Inst) : Block :=
  { at_ := b, rate := i.rate, xs := samplesOf (i.data.length / 5) i.data, u := i.u, unset := tb i.fl 5, silent := tb i.fl 4,
    conceal := false, evts := [] }

/-- The PEER input of a leg's frame (R313, R449, R478): the TAP item of a player for this swath, else the remote source of
its import, else its bridged peer, else SILENT. -/
def State.peerBlock (s : State) (l : Nat) (k : Task) : Block :=
  let t := s.legTmpl l
  let rate := t.peer.getD 0
  let silent := zeroBlock k.b rate (perFrame rate t.f) true
  match (kgetD s.grn.tapQ l []).find? (·.1 == k.b) with
  | some (_, i) => i.block k.b
  | none =>
  match s.tnd.imps.find? (fun i => i.on && i.leg == l) with
  | some i => match (kget k.remote (srcKey i.dev i.src)).bind id with | some r => r.blk | none => silent
  | none => match (s.leg l).cfg.bridge with
    | some p =>
      let y := s.leg p
      if y.st = .on then (match y.exp with | some b => b.place k.b | none => silent) else silent
    | none => silent

/-- The candidates of a conference at boundary `b` (R313, R329, R451): the TALK participants with a committed export, but for one that joined in
this swath, by leg id and device. -/
def State.confCands (s : State) (c : Nat) (x : Conf) (rem : KV (Option RBlk)) (b : Inst) : List (Nat × Block) :=
  let loc := x.parts.filterMap fun p =>
    let y := s.leg p.1
    if p.2 ∧ y.st = .on ∧ y.confAt ≠ b then y.exp.map fun e => (p.1 * 4096 + s.dev, e.place b) else none
  let far := (s.tnd.cimps.filter fun i => i.on && i.conf == c).filterMap fun i =>
    match (kget rem (srcKey i.dev i.src)).bind id with
    | some r => if r.silent then none else some (i.src * 4096 + i.dev, r.blk)
    | none => none
  loc ++ far

/-- The level of a candidate as it is compared: the mean square, times the 96 samples per ms that every rate divides, a
member of the previous selection raised by the hysteresis. Tenth powers keep the comparison exact. -/
def candLevel (x : Conf) (c : Nat × Block) : Nat :=
  let e := c.2.xs.foldl (fun a v => a + v.natAbs * v.natAbs) 0 * (96 * x.f / max 1 c.2.xs.length)
  e ^ 10 * (if x.sel.contains c.1 then 10 ^ x.hyst else 1)

/-- The candidate that ranks first. -/
def topCand (x : Conf) (l : List (Nat × Block)) : Option (Nat × Block) :=
  l.foldl (fun b c => match b with
    | none => some c
    | some d => if candLevel x d < candLevel x c ∨ (candLevel x d = candLevel x c ∧ c.1 < d.1) then some c else some d) none

/-- The selection S: the `n` highest candidates (R329). -/
def selectTop (x : Conf) : Nat → List (Nat × Block) → List (Nat × Block)
  | 0, _ => []
  | n + 1, l => match topCand x l with
    | none => []
    | some c => c :: selectTop x n (l.filter fun d => d.1 != c.1)

/-- The sum of in0 and the selected exports, without the leg's own, and the number of clamps (R329). -/
def State.mixOut (s : State) (l : Nat) (k : Task) (in0 : Option Block) (rate n : Nat) : Block × Nat :=
  let base := in0.getD (zeroBlock k.b rate n false)
  match (s.leg l).conf.bind fun c => (kget s.confs c).map fun x => (c, x) with
  | none => (base, 0)
  | some (c, x) =>
    if x.rate ≠ rate then (base, 0)
    else
      let sel := (selectTop x x.n (s.confCands c x k.remote k.b)).filter fun q => q.1 != l * 4096 + s.dev
      let sum := sel.foldl (fun a q => (a.zip (fitS n q.2.xs)).map fun (u, v) => u + v) base.xs
      let ys := sum.map fun v => shiftClamp v 0
      ({ base with xs := ys.map (·.1) }, (ys.filter (·.2)).length)

/-- Every conference due in the swath keeps the selection it formed, for the next one (R329). -/
def State.keepSelections (s : State) (b : Inst) : State :=
  let rem (c : Nat) : KV (Option RBlk) := (s.tnd.cimps.filter fun i => i.on && i.conf == c).foldl (fun m i =>
    let p := match kget s.confs c with | some x => s.period x.f | none => 0
    kset m (srcKey i.dev i.src) ((kgetD s.tnd.store (srcKey i.dev i.src) []).find? fun r => r.q + p == s.quot b)) []
  let confs := s.confs.map fun (c, x) =>
    if x.phi.any fun p => s.entryAt b % max 1 (s.period x.f) == p then (c, { x with sel := (selectTop x x.n (s.confCands c x (rem c) b)).map (·.1) })
    else (c, x)
  { s with confs := confs }

/-! ### DECODE and PLC (R311, R320) -/

/-- The codec parameters that an encoder works under. -/
def LegCfg.codecPar (c : LegCfg) (rate f : Nat) : List Int := [(c.mode : Int), (c.flags : Int), (rate : Int), (f : Int)]

/-- What a decoder works under: of mode and flags only the payload format of AMR, AMR-WB and EVS (R603). -/
def LegCfg.decPar (c : LegCfg) (codec rate f : Nat) : List Int :=
  [((b2n (tb c.flags 1 && decide (5 ≤ codec ∧ codec ≤ 7)) : Nat) : Int), (rate : Int), (f : Int)]

/-- Magnitude and sign of a G.711 code: A-law with full scale 4,032, mu-law with 8,031 (ITU-T G.711; log entry 86). -/
def g711Value (mu : Bool) (c : Byte) : Int :=
  let x := if mu then 255 - c.toNat else c.toNat ^^^ 0x55
  let (seg, q) := (x / 16 % 8, x % 16)
  let m : Nat := if mu then (2 * q + 33) * 2 ^ seg - 33 else if seg = 0 then 2 * q + 1 else (2 * q + 33) * 2 ^ (seg - 1)
  if decide (128 ≤ x) == mu then -(m : Int) else (m : Int)

/-- Full scale of a law. -/
def g711Full (mu : Bool) : Nat := if mu then 8031 else 4032

/-- The sample of a G.711 code: full scale is 1.0 (R9), others round half up. -/
def g711Sample (mu : Bool) (c : Byte) : Int := (g711Value mu c * 2 ^ 37 + g711Full mu) / (2 * g711Full mu)

/-- The G.711 code of a sample: the interval of the law's decision values that holds its magnitude (log entry 86). -/
def g711Code (mu : Bool) (x : Int) : Byte :=
  let m := x.natAbs * g711Full mu / 2 ^ 36
  let code :=
    if mu then
      let m := min 8191 (m + 33)
      let seg := m.log2 - 5
      16 * seg + m / 2 ^ (seg + 1) % 16
    else
      let m := min 4095 m
      if m < 32 then m / 2 else 16 * (m.log2 - 4) + (m / 2 ^ (m.log2 - 4) - 16)
  BitVec.ofNat 8 (if mu then 255 - (code + 128 * b2n (x < 0)) else (code + 128 * b2n (0 ≤ x)) ^^^ 0x55)

/-- DECODE: the decoded samples of a FRAME without SID; the decoder also advances for LOST, LATE and INSERT (R311, R320). -/
def decodeNode (c : LegCfg) (k : Task) (codec rate f : Nat) (m : Media) : Media × Block :=
  let n := perFrame rate f
  let p := (k.pkt.map (·.payload)).getD []
  let par := c.decPar codec rate f
  if k.reason = 0 ∧ k.sid = false then
    ({ m with dec := Config.stdSamples (520 + codec) par (m.dec ++ bytesI p) },
      { zeroBlock k.b rate n false with xs := fitS n (if codec ≤ 2 then p.map (g711Sample (codec == 2))
          else Config.stdSamples (500 + codec) par (m.dec ++ bytesI p)) })
  else if k.reason = 1 ∨ k.reason = 2 ∨ k.reason = 3 then ({ m with dec := Config.stdSamples (540 + codec) par m.dec }, zeroBlock k.b rate n false)
  else (m, zeroBlock k.b rate n false)

/-- Concealment that has lasted `lossMs` before this frame: after 60 ms it fades over 20 ms to the background (R320). -/
def fadeLoss (rate lossMs : Nat) (con bg : List Int) : List Int :=
  let r := rateHz rate
  let w := r * 20 / 1000
  (con.zip bg).zipIdx.map fun ((c, g), i) =>
    let p := lossMs * r / 1000 + i
    let s := r * 60 / 1000
    if p < s then c
    else if s + w ≤ p then g
    else (2 * (c * ((w : Int) - (p - s : Nat)) + g * ((p - s : Nat) : Int)) + w) / (2 * (w : Int))

/-- PLC: the output of R320 for the task's reason. -/
def plcNode (c : LegCfg) (k : Task) (codec rate f : Nat) (dec : Block) (m : Media) : Media × Block :=
  let n := perFrame rate f
  let par := (codec : Int) :: c.decPar codec rate f
  let noise := fitS n (Config.stdSamples 541 par m.plc)
  let con := fitS n (Config.stdSamples 542 par (m.plc ++ m.dec))
  let bg := if m.sid then noise else List.replicate n 0
  match k.reason with
  | 0 =>
    let st := if k.sid then Config.stdSamples 543 par (m.plc ++ bytesI ((k.pkt.map (·.payload)).getD []))
      else Config.stdSamples 545 par (m.plc ++ dec.xs)
    let xs := if k.sid then fitS n (Config.stdSamples 541 par st) else dec.xs
    let q := rateHz rate * 15 / 4000
    let head := if m.conc then fitS q (Config.stdSamples 544 par (m.plc ++ xs)) else xs.take q
    ({ m with plc := st, sid := m.sid || k.sid, lossMs := 0, conc := false }, { dec with xs := head ++ xs.drop q })
  | 3 => ({ m with plc := Config.stdSamples 546 par m.plc, lossMs := 0, conc := true }, { dec with xs := con, conceal := true })
  | 4 => ({ m with lossMs := 0 }, { dec with xs := bg, conceal := true })
  | 5 => ({ m with lossMs := 0 }, { dec with xs := List.replicate n 0, conceal := true })
  | _ =>
    ({ m with plc := Config.stdSamples 546 par m.plc, lossMs := m.lossMs + f, conc := true },
      { dec with xs := fadeLoss rate m.lossMs con bg, conceal := true })

/-! ### ENCODE and the nodes of a frame (R311, R313, R314, R317, R330) -/

/-- ENCODE: the payload of a frame; with VAD or DTX an encoder may give a SID or nothing (R319, R603; log entry 11). The
kind is 0 voice, 1 SID, 2 nothing. -/
def encodeNode (c : LegCfg) (codec rate f : Nat) (b : Block) (m : Media) : Media × Bytes × Nat :=
  let par := c.codecPar rate f
  let xs := m.enc ++ b.xs
  let kind := if tb c.flags 0 then (Config.stdNum (600 + codec) par xs).natAbs % 3 else 0
  let ev := xs.flatMap fun v => be 5 (unsgn 40 v)
  let raw := Config.stdBytes (610 + codec + 20 * kind) (be 1 c.mode ++ be 1 c.flags ++ be 1 f ++ ev)
  let pay := if kind ≠ 0 then raw else match codec with
    | 1 => (fitS (8 * f) b.xs).map (g711Code false)
    | 2 => (fitS (8 * f) b.xs).map (g711Code true)
    | 3 => fit f raw
    | 4 => fit (8 * f) raw
    | _ => raw
  ({ m with enc := Config.stdSamples (660 + codec) par xs }, pay, kind)

/-- The block at an input reference of a node (R312). -/
def State.inBlock (s : State) (l : Nat) (k : Task) (w : Work) (r : Nat) : Option Block :=
  if r = 0xF0 then some (s.peerBlock l k) else if r = 0xFF then none else kget w.outs r

/-- The block of in0, or zeros. -/
def State.in0 (s : State) (l : Nat) (k : Task) (w : Work) (n : Node) : Block :=
  (s.inBlock l k w n.in0).getD (zeroBlock k.b n.rate (perFrame n.rate (s.leg l).f) false)

/-- Whether a TONE node's in0 path begins at the output of the ECHO node (R325). -/
def Template.fromEcho (t : Template) (i : Nat) : Bool :=
  let rec up : Nat → Nat → Bool
    | 0, _ => false
    | k + 1, r => decide (r < t.nodes.length) && ((t.node r).ty == 4 || up k (t.node r).in0)
  up 25 (t.node i).in0

/-- What a TONE node's events ask of the canceller's next call (R297, R325): ANS or ANSam turns the NLP off, a reversal asks
for bypass. -/
def EchoSt.disable (e : EchoSt) (evs : List ToneEv) : EchoSt :=
  let ans (v : ToneEv) : Bool := v.code == 0x61 || v.code == 0x62
  { e with pendNlp := e.pendNlp || evs.any (fun v => ans v && v.kind == 0), pendByp := e.pendByp || evs.any fun v => ans v && v.kind == 2 }

/-- Evaluate node `i` of a leg's frame, other than FILTER and ECHO, which engines run. -/
def State.nodeStep (s : State) (l : Nat) (k : Task) (w : Work) (i : Nat) : Work :=
  let x := s.leg l
  let t := s.legTmpl l
  let n := t.node i
  let b := s.in0 l k w n
  let put (m : Media) (o : Block) : Work := { w with med := m, outs := kset w.outs i o }
  match n.ty with
  | 1 => let (m, o) := decodeNode x.cfg k (u8 n.par 0) n.rate t.f w.med; put m o
  | 2 => let (m, o) := plcNode x.cfg k (u8 (t.node n.in0).par 0) n.rate t.f b w.med; put m o
  | 5 =>
    let (st, o, evs) := toneNode x.cfg s.cpts k i t.f t.rxClock n b (kgetD w.med.tones i ToneSt.init)
    let e := if t.fromEcho i then w.med.echo.map fun e => e.disable evs else w.med.echo
    { w with med := { w.med with tones := kset w.med.tones i st, echo := e }, outs := kset w.outs i o, evts := w.evts ++ evs }
  | 6 =>
    let (o, c) := s.mixOut l k (s.inBlock l k w n.in0) n.rate (perFrame n.rate t.f)
    put { w.med with mixSat := (w.med.mixSat + c) % 2 ^ 32 } o
  | 7 =>
    let g := (kget x.cfg.gains i).getD (sgn 8 (u8 n.par 0))
    put w.med { b with xs := b.xs.map (gainOne g) }
  | 8 =>
    let (m, p, kind) := encodeNode x.cfg (u8 n.par 0) n.rate t.f b w.med
    { w with med := m, outs := kset w.outs i b, frame := p, noTx := kind == 2, encSid := kind == 1 }
  | 9 => { w with outs := kset w.outs i b, taps := w.taps ++ [(u8 n.par 0, b)] }
  | _ => put w.med b

/-- Evaluate nodes in index order up to the next one that an engine runs, or to the end. -/
def State.runNodes (s : State) (l : Nat) (k : Task) : Nat → Work → Work
  | 0, w => w
  | f + 1, w =>
    let t := s.legTmpl l
    let i := w.outs.length
    if t.nodes.length ≤ i ∨ (t.node i).ty = 3 ∨ (t.node i).ty = 4 then w else s.runNodes l k f (s.nodeStep l k w i)

/-- The node that a task waits for an engine to run, if any. -/
def State.engineNode (s : State) (l : Nat) (k : Task) (w : Work) : Option (Nat × Node × Work) :=
  let t := s.legTmpl l
  let w1 := s.runNodes l k 25 w
  let i := w1.outs.length
  if i < t.nodes.length then some (i, t.node i, w1) else none

/-- The DTMF events that travel with a leg's export (R325, R326): its own when DET_OUT is PASS, received ones when EVT_IN is
PASS; a received event's decision instants lie 40 ms after its own, as R326 moves them back. -/
def State.exportEvts (s : State) (l : Nat) (k : Task) (w : Work) : List ToneEv × List Nat :=
  let x := s.leg l
  let own := if x.cfg.detPass then w.evts.filter fun e => decide (e.code < 16 ∧ e.kind < 2) else []
  if x.cfg.evtIn ≠ 0 then (own, x.rx.begun)
  else
    let clk := (s.legTmpl l).rxClock
    let at_ (ts : Nat) : Inst := instOf (max 1 clk) ((countAt clk k.b : Int) + tsDist ts k.ts).toNat + nsI 40000000
    let (evs, beg) := k.tel.foldl (fun (acc : List ToneEv × List Nat) e =>
      let (es, bg) := acc
      if 16 ≤ e.ev then acc
      else
        let on := if bg.contains e.ts then [] else [(⟨0, e.ev, 0, -(16 * e.vol : Int), 0, at_ e.ts⟩ : ToneEv)]
        let off := if e.fin then [(⟨0, e.ev, 1, -(16 * e.vol : Int), e.dur * 1000000000 / max 1 clk, at_ (e.ts + e.dur)⟩ : ToneEv)] else []
        (es ++ on ++ off, if bg.contains e.ts then bg else (e.ts :: bg).take 64)) ([], x.rx.begun)
    (own ++ evs, beg)

end Sys2Proof.Machine
end

