-- ==== Sys2Proof/Machine/Frp.lean ====
section
/-! DEFINITION. Faults and replay (R403-R429): the decision of R411, fault records, the commands of core faults. -/

namespace Sys2Proof.Machine

open Sys2Proof

/-- Replace the fault queue. -/
def State.setFrp (s : State) (x : Frp) : State := { s with frp := x }

/-! ### Records (R425) -/

/-- Queue a fault record of 32 bytes. -/
def State.pushRecord (s : State) (b : Bytes) : State :=
  if 64 ≤ s.frp.recs.length then (s.bump R.FRP_REC_DROP_CNT).raise R.FRP_EVT 0x20
  else ((s.setFrp { s.frp with recs := s.frp.recs ++ [b] }).bump R.FRP_FAULT_CNT).raise R.FRP_EVT 1

/-- A fault record (R425). Outcomes: 0 REPLAYED, 1 FALLBACK, 2 RECREATED, 3 COMMITTED, 4 REFUSED. -/
def faultRecord (f : FRec) (leg outcome attempts rcore off : Nat) : Bytes :=
  timeBytes f.at_ ++ be 4 f.swn ++ be 4 leg ++ be 1 f.cls ++ be 1 outcome ++ be 1 f.core ++ be 1 f.unit ++ be 1 attempts ++
    be 1 rcore ++ be 2 off ++ be 4 f.detail

/-- Queue the record of a fault of a task with its outcome; a task without a leg gives leg 0 (log entry 22). -/
def State.recordFault (s : State) (t : Task) (f : FRec) (outcome rcore : Nat) : State :=
  s.pushRecord (faultRecord f (t.leg.getD 0) outcome t.attempts rcore (t.logOff.getD 0))

/-- Queue the records that a task's faults owe, once their outcome is known (R425). -/
def State.settleFaults (s : State) (i outcome rcore : Nat) : State :=
  match s.task i with
  | none => s
  | some t => t.frecs.foldl (fun st f => st.recordFault t f outcome rcore) (s.setTask i { t with frecs := [] })

/-- The core of a task's last replay, or 0xFF (R425): the core it runs on while it is a replay, else the core of the last
fault met in a replay. -/
def Task.replayCore (t : Task) : Nat :=
  if t.attempts = 0 then 255
  else match t.core with
    | some c => c
    | none => match t.frecs.getLast? with
      | some f => if 2 ≤ t.frecs.length then f.core else 255
      | none => 255

/-! ### The reserve and the log (R408-R412) -/

/-- The replay reserve in KiB (R412). -/
def reserveKib : Nat := 2048

/-- The places of the reserve in use: by replays, and by areas of engines 32 and up. -/
def State.rsvSpans (s : State) : List (Nat × Nat) :=
  (s.knl.tasks.filter fun t => t.2.rsv != 0).map (fun t => (t.2.rsvAt, t.2.rsv * 1024)) ++
    (s.mmu.areas.filter fun a => decide (32 ≤ a.eng)).map fun a => (a.pa, a.kib * 1024)

/-- KiB of the reserve in use: by replays, and by write-backs that run from it (areas of engines 32 and up). -/
def State.rsvUsed (s : State) : Nat :=
  sumL (s.knl.tasks.map fun t => t.2.rsv) + sumL ((s.mmu.areas.filter fun a => decide (32 ≤ a.eng)).map (·.kib))

/-- Where a leg's log record lies in the half of the swath that began at `b`, with its replay attempts and the core of its last replay (R408,
R425). -/
def State.logPlace (s : State) (l : Nat) (b : Inst) : Nat × Nat × Nat := kgetD (if b = s.swt.bT then s.frp.logAt else s.frp.prevAt) l (0, 0, 255)

/-- Take a log record of `n` bytes of inputs behind its header, or mark the task unlogged (R409, R410). -/
def State.logRecord (s : State) (l n : Nat) : State × Option Nat :=
  let u := 1 + cdiv n 64
  let off := s.frp.logU
  if off + u ≤ logUnits then
    let s1 := s.setFrp { s.frp with logU := off + u, logAt := kset s.frp.logAt l (off, 0, 255) }
    (s1.peakTo R.FRP_LOG_PEAK (cdiv (off + u) 16), some off)
  else ((s.bump R.FRP_LOG_FULL_CNT).raise R.FRP_EVT 8, none)

/-! ### DMA engines of the kennel (R395, R401) -/

/-- An engine that is OFF. -/
def DEng.init : DEng := { st := .off, en := false, pendEn := false, test := false, acc := 0, last := 0, peak := 0 }

/-- The engine of an index. -/
def State.deng (s : State) (e : Nat) : DEng := kgetD s.mmu.engs e DEng.init

/-- Replace an engine. -/
def State.setDeng (s : State) (e : Nat) (x : DEng) : State :=
  (s.setMmu { s.mmu with engs := kset s.mmu.engs e x }).report (.dma e) (s.deng e).st x.st

/-- Bytes moved by an engine are counted (R401). -/
def State.moved (s : State) (e n : Nat) : State := s.setDeng e { s.deng e with acc := (s.deng e).acc + n }

/-- The engines in ON of a cluster that take work: one that awaits a confirmation takes none (R395, R511). -/
def State.engsOn (s : State) (k : Nat) : List Nat := ((List.range 4).map (4 * k + ·)).filter fun e => decide ((s.deng e).st = .on) && !s.awaiting 3 e

/-- The first engine after the last one used, round robin. -/
def rrAfter (last : Nat) (l : List Nat) : Option Nat :=
  match l.find? (fun e => decide (last < e)) with | some e => some e | none => l.head?

/-- The slice started most recently of those that run on units of a class (R353), confirmations not among them (R512). -/
def State.latestSlice (s : State) (cls : Nat) (l : List Nat) : Option Slice :=
  (s.gln.run.filter fun r => r.cls == cls && l.contains r.idx && !r.conf && !r.hang).foldl (fun (b : Option Slice) r => match b with
    | none => some r
    | some q => if q.start ≤ r.start then some r else some q) none

/-- A slice is aborted for service: it is cut and counted, unless it is complete already (R353, R395, R508, R510). -/
def State.abortSlice (s : State) (r : Slice) : State :=
  if s.sliceFull r then s.cutSlice r 1 else ((s.cutSlice r 1).bump R.KNL_GLN_ABORT_CNT).raise R.KNL_EVT 8

/-- Of some engines in ON, the one that a choice names among those under no slice; when none is, the one whose slice is aborted. -/
def State.engOf (s : State) (l : List Nat) (pick : List Nat → Option Nat) : Option (Nat × State) :=
  match pick (l.filter fun e => !s.underTest 3 e) with
  | some e => some (e, s)
  | none => (s.latestSlice 3 l).map fun r => (r.idx, s.abortSlice r)

/-- The engine for a leg's stage-in (R395): round robin in the home cluster, else the lowest of the nearest cluster. Engines under
a slice are passed over; when no other is there, the slice started most recently is aborted. -/
def State.pickEng (s : State) (cluster : Nat) : Option (Nat × State) :=
  let home := s.engsOn cluster
  if home.isEmpty then
    let dist (k : Nat) : Nat := max k cluster - min k cluster
    let near := (List.range 8).foldl (fun (b : Option Nat) k =>
      if (s.engsOn k).isEmpty then b else match b with
        | none => some k
        | some j => if dist k < dist j then some k else some j) none
    near.bind fun k => (s.engOf (s.engsOn k) List.head?).map fun p => (p.1, p.2.bump R.MMU_REMOTE_CNT)
  else
    (s.engOf home (rrAfter (kgetD s.mmu.rr cluster 0))).map fun p => (p.1, p.2.setMmu { p.2.mmu with rr := kset p.2.mmu.rr cluster p.1 })

/-! ### Fallback, re-creation and the decision (R405, R411) -/

/-- A fallback is counted (R411). -/
def State.countFallback (s : State) : State := (s.bump R.FRP_FALLBACK_CNT).raise R.FRP_EVT 2

/-- A faulted task falls back: its entry becomes CANCELLED and counts as cancelled, its slot is released empty, its records are written (R356,
R368, R405, R411). The entry of a task without a leg is freed, which may release back-pressure (R342, R360). -/
def State.fallback (s : State) (i outcome : Nat) : State :=
  match s.task i with
  | none => s
  | some t =>
    let s1 := (s.settleFaults i outcome t.replayCore).cancelTask i
    let s2 := s1.countFallback
    if t.leg.isSome ∧ t.kind ≤ 1 then s2.bump R.KNL_CANCEL_CNT else (s2.freeTask i).bpRelease

/-- The opcode under which a re-creation waits for the next boundary; no command has it. -/
def recreateOp : Nat := 0xF000

/-- A leg's media state will be built afresh at the next boundary (R405). -/
def State.recreate (s : State) (l : Nat) : State :=
  let a : Armed := ⟨⟨0, false, false, 0⟩, recreateOp, l, [], [], 0, 0, none⟩
  let s1 : State := { s with armed := s.armed ++ [a] }
  (s1.bump R.FRP_RECREATE_CNT).raise R.FRP_EVT 4

/-- Building afresh (R405): configuration, placement, flows and packet-engine context stay; chains reset at their first calls (R272), canceller
weights clear (R299), the playout buffer re-anchors (R224). -/
def State.recreated (s : State) (l : Nat) : State :=
  let x := s.leg l
  let m := x.med
  let echo : Option EchoSt := m.echo.map fun _ => EchoSt.init l
  let tones : KV ToneSt := m.tones.map fun p => (p.1, ToneSt.init)
  let m1 : Media := { Media.init with chains := m.chains.map fun p => (p.1, { p.2 with owed := true }), echo := echo, tones := tones }
  s.setLeg l { x with med := m1, ply := { Ply.init with par := x.ply.par, delayUs := x.ply.delayUs }, exp := none }

/-- The declared cycles of a task's leg (R331). -/
def State.taskCycles (s : State) (t : Task) : Nat :=
  match t.leg with | some l => (s.legTmpl l).cycles s.sets | none => 0

/-- Whether the time left before the Work deadline is below MARGIN_NS and half the declared cycles (R411). -/
def State.tooLate (s : State) (t : Task) : Bool :=
  decide (s.swt.emitAt < s.elapsed + nsI (s.fld R.FRP_CFG_MARGIN_NS) + nsI (s.taskCycles t) / 2)

/-- A faulted task becomes a REPLAY that waits for its restage, on an engine chosen under R395 (R413). A core that faulted is not used
again; with PARITY the engine is avoided. -/
def State.startReplay (s : State) (i : Nat) (t : Task) (kib : Nat) (notCore : Nat) (notEng : Option Nat) : State :=
  let t1 : Task := { t with
    kind := 1, st := .waiting, prio := s.priOf 1, core := none, staged := false, seen := false, work := none, callNo := 0, wait := 0, used := 0,
    attempts := t.attempts + 1, notCore := notCore, notEng := notEng, rsv := kib
    rsvAt := firstFit rsvBase (rsvBase + reserveKib * 1024) (kib * 1024) s.rsvSpans }
  let s1 := ((s.setTask i t1).pinArea t1.rsvAt (kib * 1024)).bump R.FRP_REPLAY_CNT
  let s2 := s1.peakTo R.FRP_RSV_PEAK s1.rsvUsed
  match s2.pickEng t.cluster with
  | some (e, s3) => s3.setTask i { t1 with eng := some e }
  | none => s2

/-- The slot of a leg's FRAME task is open again (R418). -/
def Leg.reopenFrame (x : Leg) : Leg :=
  let f (q : LSlot) : LSlot := if q.kind = 0 then { q with done := false, empty := false, frames := [] } else q
  { x with leash := x.leash.map f }

/-- The reserve that a replay holds is given back, with its pins (R414). -/
def State.freeRsv (s : State) (t : Task) : State := if t.rsv = 0 then s else s.unpinArea t.rsvAt (t.rsv * 1024)

/-- The procedure of R411 for a task that ends FAULTED. Codes of R403; `unit` is byte 23 of the record. A task without a leg
is not replayed (log entry 22). From the instant of the Work deadline on the deadline wins over a fault, and a media task that is DONE stands
(R418). -/
def State.onFault (s : State) (i cls core unit detail : Nat) : State :=
  match s.task i with
  | none => s
  | some t0 =>
    let f : FRec := ⟨s.now, s.swn, cls, core, unit, detail⟩
    if t0.st = .cancelled then s.recordFault t0 f 1 t0.replayCore
    else if t0.kind ≤ 1 ∧ s.pastDeadline then
      if t0.st = .done then s.recordFault t0 f 3 t0.replayCore else s.setTask i { t0 with frecs := t0.frecs ++ [f] }
    else
      let s1 := ((s.giveFrame i).dropCall i).freeRsv t0
      let t := { t0 with st := .faulted, core := none, frecs := t0.frecs ++ [f], rsv := 0, eng := none, work := none }
      let s2 := s1.setTask i t
      let s3 := match t.leg with
        | some l => if t0.st = TaskSt.done then s2.setLeg l (s2.leg l).reopenFrame else s2
        | none => s2
      match t.leg with
      | none => s3.fallback i 1
      | some l =>
        if cls = 9 ∨ cls = 10 then (s3.fallback i 2).recreate l
        else if cls = 3 ∨ cls = 4 ∨ 1 < t.kind then s3.fallback i 1
        else if t.logOff.isNone ∨ s3.flag R.FRP_CFG_REPLAY_EN = false then s3.fallback i 1
        else if s3.fld R.FRP_CFG_MAX_REPLAY ≤ t.attempts then s3.fallback i 1
        else if s3.tooLate t then s3.fallback i 1
        else
          let kib := (s3.leg l).cost.st
          if s3.rsvUsed + kib ≤ reserveKib then
            s3.startReplay i t kib (if core < 128 then core else t.notCore) (if cls = 5 ∨ cls = 7 then some unit else none)
          else ((s3.bump R.FRP_RSV_FULL_CNT).raise R.FRP_EVT 16).fallback i 1

/-- A leg loses its state with no task left: re-creation, with its record (R403 classes 9 and 10). A WRITE_BACK is a fallback of a task that has
ended, which counts and has no effect on the task (R411). `b` is the boundary of the swath whose log record it points into. -/
def State.legFault (s : State) (l : Nat) (b : Inst) (cls unit detail : Nat) : State :=
  let f : FRec := ⟨s.now, s.swn, cls, 255, unit, detail⟩
  let (off, n, c) := s.logPlace l b
  let s1 := s.pushRecord (faultRecord f l 2 n c off)
  (if cls = 10 then s1.countFallback else s1).recreate l

/-- The media task of a leg in this swath, if any. -/
def State.legTask (s : State) (l : Nat) : Option (Nat × Task) :=
  s.knl.tasks.find? fun p => p.2.leg == some l && decide (p.2.kind ≤ 1)

/-! ### Faults of cores and engines (R391, R403, R404) -/

/-- The task that a core runs. -/
def State.running (s : State) (c : Nat) : Option (Nat × Task) := (s.core c).run.bind fun i => (s.task i).map (i, ·)

/-- A core that lost its task takes the next; held creations take the entry that it may have given back. -/
def State.faultAt (s : State) (c i cls unit detail : Nat) : State := ((s.onFault i cls c unit detail).coreTake c).sysFreed

/-- The unit code of a physical address for byte 23 (R369, R425): loft, local memory or HBM. -/
def paUnit (pa : Nat) : Nat :=
  if pa < 0x10000000 then 4 * 32 else if pa < 0x14000000 then 5 * 32 else 6 * 32

/-- The virtual address at which a core's task reaches a physical one, in [31:0]: local memory through the local window, the stage pool and the HBM
as contexts 1 to 4 map them (R373, R376; log entry 95); another task's address is free. -/
def State.vaOf (s : State) (c pa : Nat) (t : Task) : Nat :=
  if localBase + c * 0x80000 ≤ pa ∧ pa < localBase + (c + 1) * 0x80000 then pa - localBase - c * 0x80000
  else if t.kind ≤ 3 ∧ (poolBase ≤ pa ∧ pa < poolEnd (s.fld R.SWT_LOFT_BUD_KIB) ∨ hbmBase ≤ pa) then pa % 2 ^ 32
  else s.draw 32

/-- MEMORY_FAULT (R391, R403, R425): the task that runs on the core meets an uncorrectable data error at a physical address. -/
def execMemoryFault (core : Fin 128) (pa : BitVec 40) (s : State) : Host.Outcome State Fault Refusal :=
  .next (match s.running core.val with
    | none => s
    | some (i, t) =>
      let s1 := (s.bump R.MMU_UNCORR_CNT).raise R.MMU_EVT 4
      (s1.drawn).faultAt core.val i 1 (paUnit pa.toNat) (s1.vaOf core.val pa.toNat t))

/-- Whether a media task has used more than MULT times its declared cycles of core time (R403). -/
def State.overran (s : State) (t : Task) : Bool :=
  decide (t.kind ≤ 1 ∧ s.fld R.FRP_WDOG_MULT * s.taskCycles t < t.used + s.ranFor t)

/-- TASK_OVERRUN (R403): the watchdog ends a task that has used too much core time. -/
def execTaskOverrun (core : Fin 128) (s : State) : Host.Outcome State Fault Refusal :=
  .next (match s.running core.val with
    | none => s
    | some (i, t) => if s.overran t then s.faultAt core.val i 3 0 0 else s)

/-- CORE_HANG (R403, R404): the core running a task has retired nothing for HANG_NS; every task that holds a task frame on it ends FAULTED, and the
core takes no further task. -/
def execCoreHang (core : Fin 128) (ns : BitVec 32) (s : State) : Host.Outcome State Fault Refusal :=
  let c := core.val
  let x := s.core c
  .next (if x.run.isNone ∨ ns.toNat < s.fld R.FRP_WDOG_HANG_NS then s
    else (x.held.foldl (fun st i => st.onFault i 2 c 0 0) (s.setCore c { x with hung := true })).sysFreed)

/-! ### Registers (R426-R428) -/

/-- The registers of the block that mirror state. -/
def frpView (s : State) (i2c : Bool) (a : Nat) : Option Nat :=
  if i2c && decide (R.FRP_REC 0 ≤ a) && decide (a ≤ R.FRP_REC 7) then some (num s.frp.latI (a - R.FRP_REC 0) 4)
  else if a = R.FRP_RSV then some (putBits (s.reg a) 15 0 s.rsvUsed)
  else if a = R.FRP_LOG then some (putBits (s.reg a) 15 0 (cdiv s.frp.logU 16))
  else if a = R.FRP_CTL then some 0
  else if a = R.FRP_STAT then
    let n := (s.knl.tasks.filter fun t => t.2.kind == 1 && t.2.st != .done && t.2.st != .cancelled && t.2.st != .faulted).length
    some (min 255 n * 256 + s.frp.recs.length)
  else none

/-- The ranges of R428. -/
def frpRule (_s : State) (a v : Nat) : Option Nat :=
  let bad (b : Bool) : Option Nat := if b then some St.state else none
  if a = R.FRP_CFG then bad (decide (bits v 31 16 < 1000 ∨ bits v 2 1 = 0))
  else if a = R.FRP_WDOG then bad (decide (bits v 31 24 < 2 ∨ 16 < bits v 31 24 ∨ bits v 15 0 < 1000))
  else none

/-- PEAK_CLR sets both peaks to their use (R428). -/
def frpEffect (s : State) (a _old v : Nat) : State :=
  if a = R.FRP_CTL ∧ tb v 0 then
    (s.setFld R.FRP_RSV_PEAK s.rsvUsed).setFld R.FRP_LOG_PEAK (cdiv s.frp.logU 16)
  else s

/-- The effect of a read of FRP_REC_POP (R426, R595): the oldest record is removed and latched for its path; the register holds what is read. -/
def State.frpPop (s : State) (i2c : Bool) : State :=
  match s.frp.recs with
  | [] => s.setReg R.FRP_REC_POP 0
  | b :: r =>
    let s1 := (s.setFrp { s.frp with recs := r, latI := if i2c then b else s.frp.latI }).setReg R.FRP_REC_POP (r.length * 2 + 1)
    if i2c then s1 else (List.range 8).foldl (fun st k => st.setReg (R.FRP_REC k) (num b (4 * k) 4)) s1

end Sys2Proof.Machine
end

