-- ==== Sys2Proof/Machine/Mmu.lean ====
section
/-! DEFINITION. Memory management and DMA (R369-R402): translation, pins, rings, descriptors, stage areas, moves, registers. -/

namespace Sys2Proof.Machine

open Sys2Proof

/-! ### Contexts and translation (R375-R379) -/

/-- Whether a context is valid; 5 to 15 never are (R375). -/
def State.ctxValid (s : State) (c : Nat) : Bool := kgetD s.mmu.valid c false && !(decide (5 ≤ c) && decide (c ≤ 15))

/-- A page-table entry read from memory (R7, R378). -/
def State.readEntry (s : State) (pa : Nat) : Nat := if s.paOk pa then beNat (s.memRead pa 8) else 0

/-- The STATE of an entry: 0 ABSENT, 1 BACKED, 2 RESIDENT, 3 TRANSIT. -/
def peState (e : Nat) : Nat := bits e 63 62

/-- The SIZE of an entry. -/
def peSize (e : Nat) : Nat := bits e 61 60

/-- The address in an entry. -/
def peAddr (e : Nat) : Nat := bits e 39 12 * 4096

/-- A translation: the leaf entry, where it lies, and the physical address. -/
structure Xlate where
  entry : Nat
  at_ : Nat
  pa : Nat
  deriving DecidableEq, Repr

/-- The bytes of a page by the SIZE of its entry (R378). -/
def pageBytes (entry : Nat) : Nat :=
  match peSize entry with | 0 => 4096 | 1 => 65536 | _ => 2097152

/-- A leaf that fits its level, and is not ABSENT. -/
def State.leaf (s : State) (e at_ va : Nat) : Option Xlate :=
  let n := pageBytes e
  let pa := peAddr e / n * n + va % n
  if peState e = 0 ∨ s.paOk pa = false then none else some ⟨e, at_, pa⟩

/-- The walk of four levels (R377): none where it ends at ABSENT. `k` counts the levels left. -/
def State.walkFrom (s : State) (va : Nat) : Nat → Nat → Option Xlate
  | 0, _ => none
  | k + 1, table =>
    let at_ := table + 8 * bits va (20 + 9 * k) (12 + 9 * k)
    let e := s.readEntry at_
    match k, peSize e with
    | 0, 0 => s.leaf e at_ va
    | 0, 1 => s.leaf e at_ va
    | 1, 2 => s.leaf e at_ va
    | 0, _ => none
    | _, 3 => if peState e = 1 ∨ peState e = 2 then s.walkFrom va k (peAddr e) else none
    | _, _ => none

/-- Whether contexts 1 to 4 map an address: the stage pool and the three regions of the HBM (R376). The spec does not say at which virtual
addresses; the model takes the physical ones (DESIGN CHOICE, log entry 95). -/
def State.fixedMapped (s : State) (va : Nat) : Bool :=
  (decide (poolBase ≤ va) && decide (va < poolEnd (s.fld R.SWT_LOFT_BUD_KIB))) || (decide (hbmBase ≤ va) && decide (va < s.patEnd))

/-- No address of a page table: the entries of the fixed map are given by rule. -/
def noTable : Nat := 2 ^ 40

/-- The 2 MiB page of the fixed map in which an address lies: RESIDENT in the loft and BACKED in the HBM, for reads and writes of cores and DMA
engines, pinned while a frame of it is (R376, R378, R383). -/
def State.fixedLeaf (s : State) (va : Nat) : Xlate :=
  let p := va / 0x200000
  let pin := s.mmu.pins.any fun f => f.1 / 512 == p
  ⟨(if va < loftEnd then 2 else 1) * 2 ^ 62 + 2 * 2 ^ 60 + p * 0x200000 + b2n pin * 64 + 16 + 4 + 2, noTable, va⟩

/-- Translate a virtual address of a context. -/
def State.walk (s : State) (ctx va : Nat) : Option Xlate :=
  if s.ctxValid ctx = false then none
  else if 1 ≤ ctx ∧ ctx ≤ 4 ∧ s.fixedMapped va then some (s.fixedLeaf va)
  else s.walkFrom va 4 (kgetD s.mmu.roots ctx 0 * 4096)

/-- The causes of a completion (R389). -/
abbrev Cause.absent : Nat := 1
abbrev Cause.transit : Nat := 2
abbrev Cause.permission : Nat := 3
abbrev Cause.uncorrectable : Nat := 4

/-! ### TLBs (R380-R382; log entry 17) -/

/-- The key of a cluster's TLB; the cores' TLBs have their own numbers. -/
def clusterTlb (k : Nat) : Nat := 128 + k

/-- The unit that translates without a TLB of R380: a baler engine, and the firmware. -/
def noTlb : Nat := 256

/-- Whether an entry translates an address. -/
def TlbEnt.covers (e : TlbEnt) (ctx va : Nat) : Bool := e.ctx == ctx && e.va == va / pageBytes e.entry * pageBytes e.entry

/-- What a TLB holds for an address. -/
def State.cached (s : State) (u ctx va : Nat) : Option Xlate :=
  ((kgetD s.mmu.tlb u []).find? fun e => e.covers ctx va).map fun e =>
    ⟨e.entry, e.at_, peAddr e.entry / pageBytes e.entry * pageBytes e.entry + va % pageBytes e.entry⟩

/-- A translation by a TLB, or by a walk where it holds none. -/
def State.xlate (s : State) (u ctx va : Nat) : Option Xlate := match s.cached u ctx va with | some x => some x | none => s.walk ctx va

/-- The set of a TLB that an entry lies in: a core's TLB is one set of 64, a cluster's has 256 sets of 4 (R380). -/
def TlbEnt.set (u : Nat) (e : TlbEnt) : Nat := if u < 128 then 0 else e.va / pageBytes e.entry % 256

/-- Put an entry into a TLB; in a full set a free value says which one gives way. -/
def State.tlbPut (s : State) (u : Nat) (e : TlbEnt) : State :=
  let l := kgetD s.mmu.tlb u []
  let same := l.filter fun x => x.set u == e.set u
  let ways := if u < 128 then 64 else 4
  let old := if same.length < ways then none else same[s.draw 8 % ways]?
  let t := s.setMmu { s.mmu with tlb := kset s.mmu.tlb u (l.filter (fun x => some x != old) ++ [e]) }
  if same.length < ways then t else t.drawn

/-- An access of a cluster's unit looks its address up: a miss is counted, walked and, where it finds a page that is there, installed (R377, R380,
R402). -/
def State.lookup (s : State) (u ctx va : Nat) : State :=
  if u < 128 ∨ 136 ≤ u ∨ s.ctxValid ctx = false ∨ (s.cached u ctx va).isSome then s
  else
    let t := (s.bump (R.MMU_CTLB_MISS_CNT (u - 128))).bump R.MMU_WALK_CNT
    match s.walk ctx va with
    | none => t
    | some x => if peState x.entry = 3 then t else t.tlbPut u ⟨ctx, va / pageBytes x.entry * pageBytes x.entry, x.entry, x.at_⟩

/-- An access of a core: its own TLB first, then its cluster's (R380). -/
def State.coreLookup (s : State) (c ctx va : Nat) : State :=
  if s.ctxValid ctx = false ∨ (s.cached c ctx va).isSome then s
  else
    let t := (s.bump R.MMU_UTLB_MISS_CNT).lookup (clusterTlb (c / 16)) ctx va
    match t.xlate (clusterTlb (c / 16)) ctx va with
    | none => t
    | some x => if peState x.entry = 3 then t else t.tlbPut c ⟨ctx, va / pageBytes x.entry * pageBytes x.entry, x.entry, x.at_⟩

/-- Take entries out of every TLB (R381, R382). -/
def State.tlbDrop (s : State) (gone : TlbEnt → Bool) : State :=
  s.setMmu { s.mmu with tlb := s.mmu.tlb.map fun p => (p.1, p.2.filter fun e => !gone e) }

/-- An access of a unit to one byte: the cause of its fault, or the physical address (R378, R379, R391). -/
def State.dmaAddr (s : State) (u ctx va : Nat) (write : Bool) : Sum Nat Nat :=
  match s.xlate u ctx va with
  | none => .inl Cause.absent
  | some x =>
    if peState x.entry = 3 then .inl Cause.transit
    else if tb x.entry 4 ∧ tb x.entry (if write then 2 else 1) then .inr x.pa
    else .inl Cause.permission

/-! ### Pins (R383) -/

/-- The 4 KiB frames of a virtual range that lie in the loft, each with its translation. -/
def State.loftFrames (s : State) (ctx va len : Nat) : List (Nat × Xlate) :=
  ((List.range (if len = 0 then 0 else (va + len - 1) / 4096 - va / 4096 + 1)).filterMap fun i =>
    (s.walk ctx ((va / 4096 + i) * 4096)).map fun x => (x.pa / 4096, x)).filter fun p => decide (p.1 < 0x10000)

/-- Write the PIN bit of a page's entry, for a 64 KiB page of its 16 entries (R377, R378). -/
def State.markPin (s : State) (x : Xlate) (on : Bool) : State :=
  let put (t : State) (at_ : Nat) : State := t.memSet (at_ + 7) (BitVec.ofNat 8 (putBit (t.memByte (at_ + 7)).toNat 6 on))
  if x.at_ = noTable then s
  else if peSize x.entry = 1 then (List.range 16).foldl (fun t i => put t (x.at_ / 128 * 128 + 8 * i)) s else put s x.at_

/-- Whether a frame of a page is pinned. -/
def State.pagePinned (s : State) (x : Xlate) : Bool :=
  let n := pageBytes x.entry / 4096
  let f0 := x.pa / pageBytes x.entry * n
  (List.range n).any fun i => decide (0 < s.pinOf (f0 + i))

/-- Whether a pin of a range would pass 255 (R383). -/
def State.pinsFull (s : State) (ctx va len : Nat) : Bool := (s.loftFrames ctx va len).any fun p => s.pinOf p.1 == 255

/-- The look-ups of a unit that translates every page of a range (R380, R402). -/
def State.lookRange (s : State) (u ctx va len : Nat) : State :=
  (List.range (if len = 0 then 0 else (va + len - 1) / 4096 - va / 4096 + 1)).foldl (fun t i => t.lookup u ctx ((va / 4096 + i) * 4096)) s

/-- Raise the pin counts of a range. -/
def State.pinRange (s : State) (ctx va len : Nat) : State :=
  (s.loftFrames ctx va len).foldl (fun t p => (t.setPin p.1 (t.pinOf p.1 + 1)).markPin p.2 true) s

/-- Lower the pin counts of a range; a page whose last frame comes free may move again. -/
def State.unpinRange (s : State) (ctx va len : Nat) : State :=
  (s.loftFrames ctx va len).foldl (fun t p =>
    let t1 := t.setPin p.1 (t.pinOf p.1 - 1)
    if t1.pagePinned p.2 then t1 else t1.markPin p.2 false) s

/-! ### Engines and rings (R384-R387, R401) -/

/-- A ring as it is at reset (R401). -/
def DRing.init : DRing :=
  { en := false, ctx := 0, log2 := 4, dbase := 0, cbase := 0, head := 0, tail := 0, descs := [], frames := [], rxPorts := [], own := [] }

/-- A descriptor as an engine takes it. -/
def Desc.init (idx : Nat) (b : Bytes) : Desc :=
  { idx := idx, b := b, done := 0, phase := 0, status := St.ok, cause := 0, info := 0, fl := 0, ab := false, ts := none, pinned := false, buf := [], task := none }

/-- The ring of a global number. -/
def State.dring (s : State) (r : Nat) : DRing := kgetD s.mmu.rings r DRing.init

/-- Replace a ring. -/
def State.setDring (s : State) (r : Nat) (x : DRing) : State := s.setMmu { s.mmu with rings := kset s.mmu.rings r x }

/-- Fields of a descriptor (R387). -/
def Desc.op (d : Desc) : Nat := u8 d.b 0 % 16
def Desc.len (d : Desc) : Nat := num d.b 4 4
def Desc.src (d : Desc) : Nat := num d.b 8 8 % 2 ^ 48
def Desc.dst (d : Desc) : Nat := num d.b 16 8 % 2 ^ 48
def Desc.tag (d : Desc) : Nat := num d.b 28 4
def Desc.flag (d : Desc) (i : Nat) : Bool := tb (u8 d.b 1) i

/-- The context of a descriptor's addresses. -/
def Desc.ctx (d : Desc) (r : DRing) : Nat := if num d.b 2 2 % 4096 = 0 then r.ctx else num d.b 2 2 % 4096

/-- The port that a TX or RX descriptor names (R387). -/
def Desc.port (d : Desc) : Nat := u8 d.b 24 % 8

/-- The ranges that a descriptor reads, writes and releases (R386). -/
def Desc.ranges (d : Desc) : List (Nat × Nat) :=
  match d.op with
  | 1 => [(d.src, d.len), (d.dst, d.len)]
  | 2 => [(d.dst, d.len)]
  | 3 => [(d.src, d.len)]
  | 4 => [(d.dst, d.len)]
  | 5 => [(d.dst, d.len)]
  | _ => []

/-- Whether two descriptors' ranges overlap (R386). -/
def Desc.overlaps (a b : Desc) : Bool :=
  a.ranges.any fun x => b.ranges.any fun y => decide (x.1 < y.1 + y.2) && decide (y.1 < x.1 + x.2)

/-- Bytes at a virtual range of a context, or none where a byte of it cannot be read. -/
def State.vread (s : State) (u ctx va : Nat) : Nat → Option Bytes
  | 0 => some []
  | k + 1 => match s.dmaAddr u ctx va false with
    | .inl _ => none
    | .inr pa => (s.vread u ctx (va + 1) k).map (s.memByte pa :: ·)

/-- The look-ups of a unit that reads a range byte by byte, up to the first byte that it cannot read. -/
def State.touch (u ctx : Nat) : Nat → Nat → State → State
  | 0, _, s => s
  | k + 1, va, s =>
    let t := s.lookup u ctx va
    match t.dmaAddr u ctx va false with
    | .inl _ => t
    | .inr _ => State.touch u ctx k (va + 1) t

/-- Write bytes to a virtual range of a context; a byte that cannot be written is left. -/
def State.vwrite (s : State) (u ctx va : Nat) (b : Bytes) : State :=
  b.zipIdx.foldl (fun t (p : Byte × Nat) =>
    let t := t.lookup u ctx (va + p.2)
    match t.dmaAddr u ctx (va + p.2) true with
    | .inl _ => t
    | .inr pa => t.memSet pa p.1) s

/-- The unit whose TLB a ring's engine translates through: its cluster's (R384). -/
def ringUnit (r : Nat) : Nat := clusterTlb (r / 32)

/-- The descriptor that an engine takes from an entry: an operation that does not exist ends at once with E_UNKNOWN_OP (R387), and one whose task the
Work deadline has cancelled with E_FAULT and CANCELLED (R398). -/
def takenDesc (x : DRing) (b : Bytes) : Desc :=
  let op := u8 b 0 % 16
  let bad := decide (op = 0 ∨ 5 < op)
  let own := kget x.own x.head
  let d : Desc := { Desc.init x.head b with phase := if bad then 3 else 0, status := if bad then St.unknownOp else St.ok, task := own.map (·.1) }
  if own.any (·.2) then { d with phase := 3, status := St.fault, fl := 16 } else d

/-- Take descriptors into flight, at most 16 that have not ended (R385, R386): the engine is ON and awaits no confirmation (R511), the ring enabled,
the entry readable and owned by the engine. The kennel's rings 0 and 1 are taken as stage areas. -/
def State.takeDescs (s : State) (r : Nat) : Nat → State
  | 0 => s
  | k + 1 =>
    let x := s.dring r
    if (s.deng (r / 8)).st = .on ∧ s.awaiting 3 (r / 8) = false ∧ 2 ≤ r % 8 ∧ x.en ∧ x.head ≠ x.tail ∧ (x.descs.filter fun d => d.phase != 3).length < 16 then
      let s := State.touch (ringUnit r) x.ctx 32 (x.dbase + 32 * x.head) s
      match s.vread (ringUnit r) x.ctx (x.dbase + 32 * x.head) 32 with
      | none => s
      | some b =>
        if tb (u8 b 0) 7 = false then s
        else
          let d := takenDesc x b
          let ports := if d.op = 4 ∧ x.rxPorts.contains d.port = false then x.rxPorts ++ [d.port] else x.rxPorts
          let y := { x with head := (x.head + 1) % 2 ^ x.log2, descs := x.descs ++ [d], rxPorts := ports, own := kdel x.own x.head }
          (s.setDring r y).takeDescs r k
    else s

/-- Whether a descriptor may run: no descriptor of its ring is parked or at a fault, a FENCE waits for all earlier ones, and no
earlier one that overlaps it is still there (R386, R392). A pin waits while a page of its range moves (R381). -/
def State.mayRun (s : State) (x : DRing) (d : Desc) : Bool :=
  let before := x.descs.takeWhile fun e => e.idx != d.idx
  d.phase == 0 && x.descs.all (fun e => e.phase != 1 && e.phase != 2) && (!d.flag 6 || before.isEmpty) &&
    before.all (fun e => !e.overlaps d) &&
    (!d.flag 5 || d.pinned || (s.loftFrames (d.ctx x) d.dst d.len).all fun p => peState p.2.entry != 3) &&
    (d.op != 4 || x.frames.any fun f => f.2.2 == d.port)

/-- Whether a kennel ring of an engine has a stage-in, restage or write-back under way that is not parked. -/
def State.kennelBusy (s : State) (e : Nat) : Bool :=
  (s.mmu.areas.any fun a => a.eng % 32 == e && (a.st == 1 || a.st == 3)) ||
    s.knl.tasks.any fun p => p.2.kind == 1 && p.2.st == .waiting && !p.2.staged && p.2.eng == some e

/-- Whether some descriptor of a ring may run. -/
def State.ringReady (s : State) (r : Nat) : Bool := (s.dring r).descs.any (s.mayRun (s.dring r))

/-- The descriptor of an operation that runs next on a ring: rings of an engine go first by rising number, the kennel's rings 0 and 1 before those
of the firmware (R385). -/
def State.nextDesc (s : State) (r op : Nat) : Option Desc :=
  let st := (s.deng (r / 8)).st
  if (st = .on ∨ st = .stopping) ∧ s.kennelBusy (r / 8) = false ∧ ((List.range (r % 8)).all fun k => !s.ringReady (r / 8 * 8 + k)) then
    (s.dring r).descs.find? fun d => d.op == op && s.mayRun (s.dring r) d
  else none

/-- Replace a descriptor in flight. -/
def State.setDesc (s : State) (r : Nat) (d : Desc) : State :=
  let x := s.dring r
  s.setDring r { x with descs := x.descs.map fun e => if e.idx = d.idx then d else e }

/-! ### Descriptors run (R383, R388) -/

/-- Copy bytes one by one: the state, the count copied, the cause and address of the fault met. -/
def State.copyBytes (u ctx : Nat) : Nat → Nat → Nat → Nat → State → State × Nat × Option (Nat × Nat)
  | 0, _, _, n, s => (s, n, none)
  | k + 1, src, dst, n, s0 =>
    let s := s0.lookup u ctx src
    match s.dmaAddr u ctx src false with
    | .inl c => (s, n, some (c, src))
    | .inr a =>
      let s := s.lookup u ctx dst
      match s.dmaAddr u ctx dst true with
      | .inl c => (s, n, some (c, dst))
      | .inr b => State.copyBytes u ctx k (src + 1) (dst + 1) (n + 1) (s.memSet b (s.memByte a))

/-- Write bytes one by one. -/
def State.putBytes (u ctx : Nat) : Bytes → Nat → Nat → State → State × Nat × Option (Nat × Nat)
  | [], _, n, s => (s, n, none)
  | v :: r, dst, n, s0 =>
    let s := s0.lookup u ctx dst
    match s.dmaAddr u ctx dst true with
    | .inl c => (s, n, some (c, dst))
    | .inr b => State.putBytes u ctx r (dst + 1) (n + 1) (s.memSet b v)

/-- Read bytes one by one. -/
def State.getBytes (s : State) (u ctx : Nat) : Nat → Nat → Bytes → Bytes × Option (Nat × Nat)
  | 0, _, acc => (acc, none)
  | k + 1, src, acc =>
    match s.dmaAddr u ctx src false with
    | .inl c => (acc, some (c, src))
    | .inr a => s.getBytes u ctx k (src + 1) (acc ++ [s.memByte a])

/-- A descriptor after it moved bytes: ended, or at a fault. -/
def Desc.after (d : Desc) (done : Nat) (flt : Option (Nat × Nat)) : Desc :=
  match flt with
  | none => { d with done := done, phase := 3, status := St.ok, cause := 0, info := 0 }
  | some (c, va) => { d with done := done, phase := 1, cause := c, info := va }

/-- A descriptor that ends with a status before any byte moves. -/
def Desc.ended (d : Desc) (st : Nat) : Desc := { d with phase := 3, status := st }

/-- The checks before the first byte of a copy, fill or release: length, then pins (R383, R388). -/
def State.begin_ (s : State) (r : Nat) (d : Desc) (run : State → State) : State :=
  let x := s.dring r
  let c := d.ctx x
  if d.len = 0 ∨ 16777216 < d.len then s.setDesc r (d.ended St.badLen)
  else if d.flag 5 ∧ d.pinned = false then
    let t := s.lookRange (ringUnit r) c d.dst d.len
    if s.pinsFull c d.dst d.len then (t.bump R.MMU_PIN_REFUSE_CNT).setDesc r (d.ended St.busy)
    else run (t.pinRange c d.dst d.len)
  else run s

/-- A descriptor whose range was pinned before its first byte keeps its pins through a park (R383). -/
def Desc.begun (d : Desc) : Desc := { d with pinned := d.pinned || d.flag 5 }

/-- DMA_COPY (R388). -/
def execDmaCopy (ring : Fin 256) (s : State) : Host.Outcome State Fault Refusal :=
  let r := ring.val
  .next (match s.nextDesc r 1 with
    | none => s
    | some d => s.begin_ r d fun t =>
      let n := d.done
      let (u, done, flt) := State.copyBytes (ringUnit r) (d.ctx (t.dring r)) (d.len - n) (d.src + n) (d.dst + n) n t
      (u.setDesc r (d.begun.after done flt)).moved (r / 8) (done - n))

/-- DMA_FILL (R388): the 8 bytes of the pattern repeat from DST. -/
def execDmaFill (ring : Fin 256) (s : State) : Host.Outcome State Fault Refusal :=
  let r := ring.val
  .next (match s.nextDesc r 2 with
    | none => s
    | some d => s.begin_ r d fun t =>
      let n := d.done
      let pat := (List.range (d.len - n)).map fun i => (sub d.b 8 8).getD ((n + i) % 8) 0
      let (u, done, flt) := State.putBytes (ringUnit r) (d.ctx (t.dring r)) pat (d.dst + n) n t
      (u.setDesc r (d.begun.after done flt)).moved (r / 8) (done - n))

/-- DMA_TX (R95, R121, R388, R393): the whole frame is read, then queued; its completion waits for the transmitter. One that resumes reads on at byte
DONE_BYTES. -/
def execDmaTx (ring : Fin 256) (s : State) : Host.Outcome State Fault Refusal :=
  let r := ring.val
  .next (match s.nextDesc r 3 with
    | none => s
    | some d =>
      let p := u8 d.b 24 % 8
      if d.len < 14 ∨ s.portMax p < d.len + 4 then
        (s.bump (R.MAC_TX_BADLEN_CNT p)).setDesc r (d.ended St.badLen)
      else
        let t := State.touch (ringUnit r) (d.ctx (s.dring r)) (d.len - d.done) (d.src + d.done) s
        let (b, flt) := t.getBytes (ringUnit r) (d.ctx (s.dring r)) (d.len - d.done) (d.src + d.done) d.buf
        match flt with
        | some _ => (t.setDesc r { d.after b.length flt with buf := b }).moved (r / 8) (b.length - d.done)
        | none =>
          let f : TxFrame := { TxFrame.plain b (u8 d.b 25 % 8) (.dma r d.idx) with tsReq := d.flag 7 }
          ((t.setDesc r { d with done := b.length, phase := 4 }).moved (r / 8) (b.length - d.done)).txRequest p f |>.1)

/-- The next RX buffer for a frame of a port, in ring order: none while the first one has to wait. Buffers that the same frame has filled, `used`, hold
no FENCE back: they complete with the frame (R386, R388; DEDUCED, log entry 96). -/
def State.rxBuffer (s : State) (x : DRing) (port : Nat) (used : List Nat) : Option Desc :=
  let y := { x with descs := x.descs.filter fun d => !used.contains d.idx }
  (y.descs.find? fun d => d.op == 4 && d.phase == 0 && d.port == port).filter (s.mayRun y)

/-- Fill RX buffers with a frame, taking further posted descriptors into flight as the first ones end: the descriptors ended, and whether the
buffers ran out or which fault was met, with its address (fuel: buffers). -/
def State.fillRx (r : Nat) (f : RxFrame) (cls port : Nat) (used : List Nat) : Nat → Bytes → Bool → State → State × List Nat × Bool × Option (Nat × Nat)
  | 0, _, _, s => (s, [], false, none)
  | k + 1, rest, first, s =>
    if rest.isEmpty then (s, [], true, none)
    else
      let x := s.dring r
      match s.rxBuffer x port used with
      | none =>
        let t := s.takeDescs r 16
        if (t.dring r).descs.length = x.descs.length then (s, [], false, none) else State.fillRx r f cls port used k rest first t
      | some d =>
        if d.len < 64 ∨ 16384 < d.len then State.fillRx r f cls port used k rest first (s.setDesc r (d.ended St.badLen))
        else if d.flag 5 ∧ s.pinsFull (d.ctx x) d.dst d.len then
          State.fillRx r f cls port used k rest first ((s.bump R.MMU_PIN_REFUSE_CNT).setDesc r (d.ended St.busy))
        else
          let piece := rest.take d.len
          let s0 := if d.flag 5 then s.pinRange (d.ctx x) d.dst d.len else s
          let (u, done, flt) := State.putBytes (ringUnit r) (d.ctx x) piece d.dst 0 s0
          match flt with
          | some (c, va) =>
            (u.setDesc r { d with done := done, phase := 3, status := St.fault, cause := c, info := va, ab := true, ts := some f.stamp }, [d.idx], false, some (c, va))
          | none =>
            let last := decide (rest.length ≤ d.len)
            let info := if last then rxInfo f.bytes.length cls port else 0
            let e : Desc := { d with done := done, phase := 3, status := St.ok, fl := b2n first * 64 + b2n last * 32, info := info, ts := some f.stamp }
            let (v, l, ok, c) := State.fillRx r f cls port (d.idx :: used) k (rest.drop d.len) false ((u.setDesc r e).moved (r / 8) done)
            (v, d.idx :: l, ok, c)

/-- The buffers that a dropped frame had filled are written back ABANDONED, with the cause and the address of the fault that dropped it (R137, R389,
R390). -/
def State.abandon (s : State) (r : Nat) (used : List Nat) (flt : Option (Nat × Nat)) : State :=
  let (c, va) := flt.getD (0, 0)
  let ab (d : Desc) : Desc :=
    if used.contains d.idx then { d with ab := true, status := St.fault, fl := d.fl % 128 / 64 * 64, info := va, cause := c } else d
  s.setDring r { s.dring r with descs := (s.dring r).descs.map ab }

/-- Whether an RX descriptor takes a frame: its length is in range and its pins are not full (R383, R388). -/
def State.rxTakes (s : State) (x : DRing) (d : Desc) : Bool :=
  decide (64 ≤ d.len) && decide (d.len ≤ 16384) && !(d.flag 5 && s.pinsFull (d.ctx x) d.dst d.len)

/-- The fuel of `fillRx`: more than the buffers that a ring can hold and the times they are taken. -/
def rxFuel : Nat := 8448

/-- The sizes of the RX buffers for a port that a ring has posted and not taken into flight: the entries from `at_` on that the engine owns and would
not refuse (R136, R383, R388; fuel: entries). -/
def State.postedBufs (s : State) (u : Nat) (x : DRing) (p : Nat) : Nat → Nat → List Nat
  | 0, _ => []
  | k + 1, at_ =>
    if at_ = x.tail then []
    else match s.vread u x.ctx (x.dbase + 32 * at_) 32 with
      | none => []
      | some b =>
        if tb (u8 b 0) 7 = false then []
        else
          (let d := Desc.init at_ b
           if d.op = 4 ∧ d.port = p ∧ s.rxTakes x d then [d.len] else []) ++ s.postedBufs u x p k ((at_ + 1) % 2 ^ x.log2)

/-- The sizes of the RX buffers of a ring for a port, in flight or posted (R136). -/
def State.rxBufs (s : State) (r : Nat) (x : DRing) (p : Nat) : List Nat :=
  ((x.descs.filter fun d => d.op == 4 && d.phase == 0 && d.port == p && s.rxTakes x d).map Desc.len) ++
    s.postedBufs (ringUnit r) x p (2 ^ x.log2) x.head

/-- Frames that wait for a ring which has no buffer left for them are dropped and counted at once (R136, R138). -/
def State.dropStarved (s : State) (r : Nat) : State :=
  let x := s.dring r
  let gone := x.frames.filter fun f => (s.rxBufs r x f.2.2).isEmpty
  if gone.isEmpty then s
  else gone.foldl (fun t f => (t.bump (R.MAC_RX_RING_EMPTY_CNT f.2.2)).xoffCheck f.2.2) (s.setDring r { x with frames := x.frames.filter fun f => !gone.contains f })

/-- DMA_RX (R136-R138, R388, R390): the oldest frame delivered to the ring for a port that its next RX descriptor names leaves its class buffer and
fills buffers of the ring; when they run out, or one meets a fault, the frame is dropped whole, every buffer filled is ABANDONED, and the drop is
counted. One that found no buffer at all is dropped as by an empty ring. -/
def execDmaRx (ring : Fin 256) (s : State) : Host.Outcome State Fault Refusal :=
  let r := ring.val
  .next (match (s.nextDesc r 4).bind fun d => (s.dring r).frames.find? fun f => f.2.2 == d.port with
    | some (f, cls, port) =>
      let (t, used, ok, flt) := State.fillRx r f cls port [] rxFuel f.bytes true s
      let t1 := (t.setDring r { t.dring r with frames := (t.dring r).frames.erase (f, cls, port) }).xoffCheck port
      if ok then t1.dropStarved r
      else if used = [] then (t1.bump (R.MAC_RX_RING_EMPTY_CNT port)).dropStarved r
      else (((t1.abandon r used flt).bump (R.MAC_RX_RING_ABANDON_CNT port)).raise R.MAC_EVT (2 ^ (16 + port))).dropStarved r
    | none => if (s.nextDesc r 4).isNone then s.dropStarved r else s)

/-- DMA_RELEASE (R383): the pins of its destination range are lowered and nothing moves. -/
def execDmaRelease (ring : Fin 256) (s : State) : Host.Outcome State Fault Refusal :=
  let r := ring.val
  .next (match s.nextDesc r 5 with
    | none => s
    | some d =>
      if d.len = 0 ∨ 16777216 < d.len then s.setDesc r (d.ended St.badLen)
      else (s.unpinRange (d.ctx (s.dring r)) d.dst d.len).setDesc r (d.after d.len none))

/-! ### Completions (R389) -/

/-- Write a completion of a ring. -/
def State.writeCompletion (s : State) (r : Nat) (d : Desc) (b0 : Nat) (status : Nat) : State :=
  let x := s.dring r
  s.vwrite (ringUnit r) x.ctx (x.cbase + 32 * d.idx)
    (completion (b0 + b2n d.ab * 16 + d.op) (b2n d.ts.isSome * 128 + d.fl + d.cause) status d.done d.info d.ts d.tag)

/-- The engine clears OWN in a descriptor (R387). -/
def State.clearOwn (s : State) (r : Nat) (d : Desc) : State :=
  let x := s.dring r
  s.vwrite (ringUnit r) x.ctx (x.dbase + 32 * d.idx) (be 1 (u8 d.b 0 % 128))

/-- A completion with NOTIFY signals the ring's owner (R387). -/
def State.notify (s : State) (r : Nat) (d : Desc) : State := if d.flag 3 then s.setMmu { s.mmu with sigs := s.mmu.sigs ++ [r] } else s

/-- The number under which a task waits for a descriptor (R348, R394). -/
def waitDesc (r idx : Nat) : Nat := r * 4096 + idx

/-- A ring's descriptor leaves it with its completion written, and a task that waits for it becomes READY again (R348, R383, R389, R394). -/
def State.finishDesc (s : State) (r : Nat) (d : Desc) : State :=
  let s1 := if d.flag 4 ∧ (d.op = 1 ∨ d.op = 3) then s.unpinRange (d.ctx (s.dring r)) d.src d.len else s
  let s2 := (s1.writeCompletion r d 0xC0 d.status).clearOwn r d
  let x := s2.dring r
  (((s2.setDring r { x with descs := x.descs.filter fun e => e.idx != d.idx }).bump R.MMU_DESC_CNT).notify r d).unblock 2 (waitDesc r d.idx)

/-! ### Stage areas (R395-R399) -/

/-- Whether an area lies in the stage pool and takes room there. -/
def Area.inPool (a : Area) : Bool := decide (a.eng < 32) && a.st != 0

/-- KiB of the stage pool in use. -/
def State.stageUsed (s : State) : Nat := sumL ((s.mmu.areas.filter Area.inPool).map (·.kib))

/-- The replays whose restage runs on an engine. -/
def State.restages (s : State) (e : Nat) : List (Nat × Task) :=
  s.knl.tasks.filter fun p => p.2.kind == 1 && p.2.st == .waiting && !p.2.staged && p.2.eng == some e

/-- Whether an engine has descriptors, stage-ins, restages or write-backs in flight, or areas staged whose write-back is to run on its ring 0
(R395). -/
def State.dengBusy (s : State) (e : Nat) : Bool :=
  ((List.range 8).any fun k => !(s.dring (8 * e + k)).descs.isEmpty) || s.mmu.areas.any (fun a => a.eng % 32 == e && a.st != 0) ||
    !(s.restages e).isEmpty

/-- An engine that is STOPPING and has nothing in flight reaches OFF, or starts again when an enable is held (R17, R18, R599). -/
def State.dengRest (s : State) (e : Nat) : State :=
  let x := s.deng e
  if x.st = .stopping ∧ s.dengBusy e = false then
    if x.pendEn then (List.range 8).foldl (fun t k => t.takeDescs (8 * e + k) 16) (s.setDeng e { x with st := .on, pendEn := false })
    else s.setDeng e { x with st := .off }
  else s

/-- Whether a leg's write-back is still under way. -/
def State.writingBack (s : State) (l : Nat) : Bool := s.mmu.areas.any fun a => a.leg == l && (a.st == 3 || a.st == 5)

/-! ### The kennel's descriptors on rings 0 and 1 (R385, R387, R389, R395-R399) -/

/-- Where a leg's copy begins in the leg backing store, which the spec does not say (log entry 95). -/
def State.backingVa (s : State) (l : Nat) : Nat := hbmBase + Config.backing l % (s.fld R.MMU_HBM_LBS_GIB * gib + 1)

/-- The bytes of a kennel descriptor: context 1, the leg id in TAG (R387). -/
def kennelDesc (op fl src dst len leg : Nat) : Bytes :=
  be 1 (128 + op) ++ be 1 fl ++ be 2 1 ++ be 4 len ++ be 8 src ++ be 8 dst ++ zeros 4 ++ be 4 leg

/-- The address range of an area in bytes. -/
def Area.len (a : Area) : Nat := a.kib * 1024

/-- Whether an area is written back. -/
def Area.back (a : Area) : Bool := a.st == 3 || a.st == 5

/-- The kennel ring of an engine that an area's descriptor runs on: 0 for a write-back, 1 for a stage-in (R385, R395). -/
def Area.ring (a : Area) : Nat := 8 * (a.eng % 32) + b2n (!a.back)

/-- The descriptor of an area: a stage-in copies with PIN from the backing store, a write-back with UNPIN to it (R396, R397). -/
def State.areaDesc (s : State) (a : Area) : Desc :=
  let va := s.backingVa a.leg
  let b := if a.back then kennelDesc 1 0x10 a.pa va a.len a.leg else kennelDesc 1 0x20 va a.pa a.len a.leg
  { Desc.init a.idx b with done := a.done, cause := if a.st = 4 ∨ a.st = 5 then Cause.uncorrectable else 0, info := a.info }

/-- The kennel writes a descriptor into its ring and advances the tail (R385): the state, and the entry. -/
def State.post (s : State) (r : Nat) (b : Bytes) : State × Nat :=
  let x := s.dring r
  let t := s.vwrite noTlb x.ctx (x.dbase + 32 * x.tail) b
  (t.setDring r { t.dring r with tail := (x.tail + 1) % 2 ^ x.log2 }, x.tail)

/-- A kennel descriptor completes: its completion is written and OWN cleared (R387, R389). -/
def State.kennelDone (s : State) (a : Area) (status done fl : Nat) : State :=
  let d := { s.areaDesc a with done := done, fl := fl }
  ((s.writeCompletion a.ring d 0xC0 status).clearOwn a.ring d).bump R.MMU_DESC_CNT

/-- Replace an area. -/
def State.putArea (s : State) (a b : Area) : State := s.setMmu { s.mmu with areas := s.mmu.areas.map fun q => if q = a then b else q }

/-- Post the descriptor of an area that begins to run. -/
def State.postArea (s : State) (a : Area) : State × Area :=
  let (t, i) := s.post a.ring (s.areaDesc a).b
  (t, { a with idx := i })

/-- The area that a replay's restage fills, in the reserve (R412, R413). -/
def restageArea (k : Task) (e : Nat) : Area :=
  { leg := k.leg.getD 0, b := k.b, kib := k.rsv, eng := e + 32, st := 1, pa := k.rsvAt, idx := 0, done := 0, info := 0 }

/-- A restage ends: its descriptor, which goes ahead of every stage-in, completes (R413). -/
def State.restageEnds (s : State) (k : Task) (e status done fl : Nat) : State :=
  let (t, a) := s.postArea (restageArea k e)
  t.kennelDone a status done fl

/-- The places of the stage pool in use. -/
def State.poolSpans (s : State) : List (Nat × Nat) := (s.mmu.areas.filter Area.inPool).map fun a => (a.pa, a.len)

/-- Waiting stage-ins start in order as room comes; a leg's own write-back ends first (R396, R397). A stage-in takes its place in the pool, and its
pages are pinned before its first byte moves (R383). -/
def State.startStages (s : State) : State :=
  (s.mmu.areas.filter fun a => a.st == 0).foldl (fun t a =>
    let blocked := t.mmu.areas.any fun q => q.st == 0 && q != a && ((t.mmu.areas.takeWhile (· != a)).contains q) && !t.writingBack q.leg
    if t.writingBack a.leg ∨ t.fld R.SWT_LOFT_BUD_KIB < t.stageUsed + a.kib ∨ blocked then t
    else match t.pickEng (t.leg a.leg).cluster with
      | none => t
      | some (e, t1) =>
        let pa := firstFit poolBase (poolEnd (t1.fld R.SWT_LOFT_BUD_KIB)) a.len t1.poolSpans
        let (t2, b) := t1.postArea { a with eng := e, st := 1, pa := pa }
        let t3 := (t2.putArea a b).pinArea pa a.len
        t3.peakTo R.MMU_STAGE_PEAK_PEAK (cdiv t3.stageUsed 16)) s

/-- KiB that a leg's state takes in the swath that begins at `b`: under the graph and tail that the changes armed up to then give it (R363). -/
def State.kibAt (s : State) (l : Nat) (b : Inst) : Nat := (s.costOf (s.graphOf l ((s.armedUpTo l none).filter fun a => decide (s.dueAt a.w ≤ b)))).kib

/-- Order a stage-in of a leg for the boundary `b` (R363, R396). -/
def State.orderStage (s : State) (l : Nat) (b : Inst) : State :=
  let kib := s.kibAt l b
  let a : Area := { leg := l, b := b, kib := kib, eng := 0, st := 0, pa := 0, idx := 0, done := 0, info := 0 }
  let full := decide (s.fld R.SWT_LOFT_BUD_KIB < s.stageUsed + kib)
  let s1 := (s.setMmu { s.mmu with areas := s.mmu.areas ++ [a] })
  let s2 := if full then (s1.bump R.MMU_STAGE_WAIT_CNT).raise R.MMU_EVT 8 else s1
  s2.startStages

/-- Remove an area with its pins; what waited for room may start. -/
def State.freeArea (s : State) (a : Area) : State :=
  let t := if a.st = 0 then s else s.unpinArea a.pa a.len
  ((t.setMmu { t.mmu with areas := t.mmu.areas.filter (· != a) }).startStages).dengRest (a.eng % 32)

/-- Change an area's stage. -/
def State.setAreaSt (s : State) (a : Area) (st : Nat) : State := s.putArea a { a with st := st }

/-- An area is freed by a RELEASE on ring 0 of its engine, which moves nothing (R383, R397). -/
def State.releaseArea (s : State) (a : Area) : State :=
  let r := 8 * (a.eng % 32)
  let (t, i) := s.post r (kennelDesc 5 0 0 a.pa a.len a.leg)
  let d := { Desc.init i (kennelDesc 5 0 0 a.pa a.len a.leg) with done := a.len }
  (((t.writeCompletion r d 0xC0 St.ok).clearOwn r d).bump R.MMU_DESC_CNT).freeArea a

/-- The oldest area of an engine in one of two stages: the descriptor of a kennel ring that ends next (R386). -/
def State.frontArea (s : State) (e st parked : Nat) : Option Area :=
  (s.mmu.areas.find? fun a => a.eng % 32 == e && (a.st == st || a.st == parked))

/-- A stage-in is complete (R364, R396). -/
def State.stageEnds (s : State) (a : Area) : State :=
  let t := ((((s.kennelDone a St.ok a.len 0).setAreaSt a 2).moved a.eng a.len).dengRest a.eng)
  t.setKnl { t.knl with lastStage := if s.swt.bT < a.b then some s.loc else t.knl.lastStage }

/-- The FRAME task of a leg whose state is staged becomes READY; one that waits on parcels not before Work (R364). -/
def State.frameStaged (s : State) (l : Nat) (b : Inst) : State :=
  match s.legTask l with
  | some (i, t) =>
    if t.kind = 0 ∧ t.b = b ∧ t.st = .waiting ∧ t.staged = false then
      let u := s.setTask i { t with staged := true }
      if t.parcel ∧ s.phase = .gather then u else u.makeReady i
    else s
  | none => s

/-- STAGE_IN_DONE (R364, R396, R413): the oldest stage-in of its engine ends, that of the leg named, once no restage runs ahead of it; a FRAME task that
waits for it becomes READY, one that waits on parcels not before Work. -/
def execStageInDone (leg : Fin 131072) (s : State) : Host.Outcome State Fault Refusal :=
  let l := leg.val
  .next (match s.mmu.areas.find? fun a => a.leg == l && a.st == 1 with
    | none => s
    | some a =>
      if s.frontArea a.eng 1 4 ≠ some a ∨ (s.restages a.eng).isEmpty = false then s else (s.stageEnds a).frameStaged l a.b)

/-- REPLAY_RESTAGE_DONE (R413): the copy of the shadow and the logged changes are in the reserve area; the REPLAY is READY. -/
def execReplayRestageDone (leg : Fin 131072) (s : State) : Host.Outcome State Fault Refusal :=
  .next (match s.legTask leg.val with
    | some (i, t) => match t.eng with
      | some e =>
        if t.kind = 1 ∧ t.st = .waiting ∧ t.staged = false then
          ((((s.setTask i { t with staged := true }).moved e (t.rsv * 1024)).restageEnds t e St.ok (t.rsv * 1024) 0).dengRest e).makeReady i
        else s
      | none => s
    | none => s)

/-- The firmware descriptor at the head of a ring completes, and the ring goes on. -/
def State.descDone (s : State) (r : Nat) (d : Desc) : State := ((s.finishDesc r d).takeDescs r 16).dengRest (r / 8)

/-- DMA_DESC_COMPLETE (R386, R389): the oldest descriptor of the ring ends and its completion is written; on ring 0 of an engine
the oldest write-back ends and its area is free. A ring 1 completes by STAGE_IN_DONE. -/
def execDmaDescComplete (ring : Fin 256) (s : State) : Host.Outcome State Fault Refusal :=
  let r := ring.val
  let e := r / 8
  .next (if r % 8 = 0 then
      match s.frontArea e 3 5 with
      | some a => if a.st = 3 then ((s.kennelDone a St.ok a.len 0).moved e a.len).freeArea a else s
      | none => s
    else match (s.dring r).descs with
      | [] => s
      | d :: _ =>
        if d.phase = 3 then s.descDone r d
        else if d.phase = 4 then
          match s.txRes.find? fun q => q.1 == r && q.2.1 == d.idx with
          | none => s
          | some q =>
            let s1 : State := { s with txRes := s.txRes.filter (· != q) }
            s1.descDone r { d with status := q.2.2.1, ts := q.2.2.2 }
        else s)

/-! ### Parks (R392, R393, R399) -/

/-- A park is counted; its cause sets events (R392). -/
def State.countPark (s : State) (cause : Nat) : State :=
  let s1 := s.bump R.MMU_PARK_CNT
  let s2 := if cause = Cause.transit then s1 else s1.raise R.MMU_EVT 1
  if cause = Cause.uncorrectable then (s2.bump R.MMU_UNCORR_CNT).raise R.MMU_EVT 4 else s2

/-- A task whose descriptor parks is switched out of its core, BLOCKED until the descriptor completes (R348, R394). -/
def State.parkTask (s : State) (r : Nat) (d : Desc) : State :=
  match d.task.bind s.task with
  | some t => match t.st, t.core with
    | .running, some c => s.blockRun c 2 (waitDesc r d.idx)
    | _, _ => s
  | none => s

/-- An area's descriptor parks on an uncorrectable error at a free byte of it: its completion is written (R392, R399). The state, and the
faulting VA in [31:0]. -/
def State.parkArea (s : State) (a : Area) : State × Nat :=
  let n := s.draw 24 % (a.len + b2n (a.len == 0))
  let src := if a.back then a.pa else s.backingVa a.leg
  let q := { a with st := if a.back then 5 else 4, done := n, info := src + n }
  let t := s.drawn
  ((((t.putArea a q).writeCompletion q.ring (t.areaDesc q) 0xA0 0).countPark Cause.uncorrectable), (src + n) % 2 ^ 32)

/-- A restage parks at a free byte: its descriptor is posted, and its area keeps its place in the reserve (R399, R413). -/
def State.parkRestage (s : State) (k : Task) (e : Nat) : State × Nat :=
  let p := s.postArea (restageArea k e)
  ((p.1.setMmu { p.1.mmu with areas := p.1.mmu.areas ++ [p.2] }).pinArea p.2.pa p.2.len).parkArea p.2

/-- DMA_DESC_PARK (R348, R392, R399): the descriptor at a fault parks, and a task that waits for it is switched out. On the kennel's rings 0 and 1 the oldest write-back or stage-in
meets an uncorrectable error, and the leg is re-created (R403 classes 9 and 10); on ring 1 a restage of the engine goes ahead
of every stage-in (R413). On another ring where nothing is at a fault, the first COPY or TX that may run meets an uncorrectable error: how
far it came is free. -/
def execDmaDescPark (ring : Fin 256) (s : State) : Host.Outcome State Fault Refusal :=
  let r := ring.val
  let e := r / 8
  .next (if r % 8 = 0 then
      match s.frontArea e 3 5 with
      | some a =>
        if a.st = 3 then
          let (t, va) := s.parkArea a
          t.legFault a.leg a.b 10 (6 * 32) va
        else s
      | none => s
    else if r % 8 = 1 then
      match s.restages e with
      | (i, k) :: _ =>
        let (t, va) := s.parkRestage k e
        t.onFault i 9 255 (6 * 32) va
      | [] => match s.frontArea e 1 4 with
        | some a =>
          if a.st = 1 then
            let (s1, va) := s.parkArea a
            match s1.legTask a.leg with
            | some (i, t) => if t.b = a.b ∧ t.kind = 0 then s1.onFault i 9 255 (6 * 32) va else s1.legFault a.leg a.b 9 (6 * 32) va
            | none => s1.legFault a.leg a.b 9 (6 * 32) va
          else s
        | none => s
    else match (s.dring r).descs.find? (·.phase == 1) with
      | some d => (((s.writeCompletion r d 0xA0 0).setDesc r { d with phase := 2 }).countPark d.cause).parkTask r d
      | none => match (s.dring r).descs.find? fun d => (d.op == 1 || d.op == 3) && s.mayRun (s.dring r) d with
        | none => s
        | some d =>
          if (s.deng e).st ≠ .on ∧ (s.deng e).st ≠ .stopping then s
          else
            let n := d.done + s.draw 24 % (d.len - d.done + b2n (d.len == d.done))
            let c := d.ctx (s.dring r)
            let t := s.drawn
            let (u, done, flt) := if d.op = 1 then State.copyBytes (ringUnit r) c (n - d.done) (d.src + d.done) (d.dst + d.done) d.done t else (t, n, none)
            let d1 : Desc := match flt with
              | some (k, va) => { d with done := done, phase := 2, cause := k, info := va }
              | none => { d with done := done, phase := 2, cause := Cause.uncorrectable, info := d.src + done }
            ((((u.writeCompletion r d1 0xA0 0).setDesc r d1).moved e (done - d.done)).countPark d1.cause).parkTask r d1)

/-- MMU_PARK_RESUME (R393): a descriptor parked for a cause other than TRANSIT continues at its byte. -/
def execMmuParkResume (ring : Fin 256) (s : State) : Host.Outcome State Fault Refusal :=
  let r := ring.val
  .next (if r % 8 ≤ 1 then
      match s.frontArea (r / 8) (if r % 8 = 0 then 5 else 4) 9 with
      | some a => (s.putArea a { a with st := if r % 8 = 0 then 3 else 1, info := 0 }).bump R.MMU_RESUME_CNT
      | none => s
    else match (s.dring r).descs.find? fun d => d.phase == 2 && d.cause != Cause.transit with
      | some d => (s.setDesc r { d with phase := 0, cause := 0, info := 0 }).bump R.MMU_RESUME_CNT
      | none => s)

/-- MMU_PARK_ABORT (R393, R399): the parked descriptor completes with E_FAULT; its bytes and cause stay in the completion. -/
def execMmuParkAbort (ring : Fin 256) (s : State) : Host.Outcome State Fault Refusal :=
  let r := ring.val
  .next (if r % 8 ≤ 1 then
      match s.frontArea (r / 8) (if r % 8 = 0 then 5 else 4) 9 with
      | some a => ((s.bump R.MMU_ABORT_CNT).kennelDone a St.fault a.done 0).freeArea a
      | none => s
    else match (s.dring r).descs.find? (·.phase == 2) with
      | some d => (s.setDesc r { d with phase := 3, status := St.fault }).bump R.MMU_ABORT_CNT
      | none => s)

/-! ### Tails, engines, moves, invalidation (R381, R382, R385, R599) -/

/-- What the firmware writes to a ring's registers (R401): a LOG2 out of range is refused, and a ring with a new setting begins anew. -/
def State.ringCfg (s : State) (r : Nat) (x : RingSetup) : State :=
  if x.log2.val < 4 then s
  else s.setDring r { s.dring r with en := true, ctx := x.ctx.toNat, log2 := x.log2.val, dbase := x.dbase.toNat, cbase := x.cbase.toNat, head := 0, tail := 0, own := [] }

/-- The entries of a ring that a task queues are its own (R394). -/
def DRing.queued (x : DRing) (n : Nat) (by_ : Option Nat) : KV (Nat × Bool) :=
  match by_ with
  | none => x.own
  | some i => (List.range n).foldl (fun m k => kset m ((x.tail + k) % 2 ^ x.log2) (i, false)) x.own

/-- MMU_RING_TAIL_WRITE (R385, R401): the firmware has set the ring up, where it did; a producer, a core's task or none, has written descriptors
from its old tail on, and writes the tail. -/
def execMmuRingTailWrite (ring : Fin 256) (cfg : Option RingSetup) (by_ : Option (Fin 128)) (descs : List Bytes) (v : Word) (s : State) :
    Host.Outcome State Fault Refusal :=
  let r := ring.val
  let s0 := match cfg with | some c => s.ringCfg r c | none => s
  let x := s0.dring r
  let s1 := (descs.zipIdx).foldl (fun (t : State) (p : Bytes × Nat) =>
    t.vwrite noTlb x.ctx (x.dbase + 32 * ((x.tail + p.2) % 2 ^ x.log2)) (p.1.take 32)) s0
  let own := x.queued descs.length (by_.bind fun c => (s.running c.val).map (·.1))
  .next ((s1.setDring r { s1.dring r with tail := v.toNat % 4096 % 2 ^ x.log2, own := own }).takeDescs r 16)

/-- MMU_DMA_EN_WRITE (R17, R18, R599): a change of EN enables or disables an engine. -/
def execMmuDmaEnWrite (eng : Fin 32) (v : Word) (s : State) : Host.Outcome State Fault Refusal :=
  let e := eng.val
  let x := s.deng e
  let en := v.getLsbD 0
  .next (if en = x.en then s
    else
      let x1 := { x with en := en }
      if en then match x.st with
        | .stopping => s.setDeng e { x1 with pendEn := true }
        | .off => (((List.range 8).foldl (fun t k => t.takeDescs (8 * e + k) 16) (s.setDeng e { x1 with st := .on }))).startStages
        | .failed => s
        | _ => s.setDeng e x1
      else match x.st with
        | .on => (s.setDeng e { x1 with st := .stopping }).dengRest e
        | .failed => (s.setDeng e { x1 with st := .stopping }).dengRest e
        | _ => s.setDeng e { x1 with pendEn := false })

/-- A write-back of an engine that fails: the leg has committed and stands, so its record gives COMMITTED (R418), and the write-back goes
to another engine; with none left the leg is re-created. -/
def State.backAgain (s : State) (a : Area) (unit : Nat) : State :=
  match s.pickEng (s.leg a.leg).cluster with
  | some (e, t) =>
    let (u, b) := t.postArea { a with eng := a.eng / 32 * 32 + e }
    let (off, n, c) := s.logPlace a.leg a.b
    (u.setMmu { u.mmu with areas := u.mmu.areas ++ [b] }).pushRecord (faultRecord ⟨s.now, s.swn, 7, 255, unit, 0⟩ a.leg 3 n c off)
  | none => (s.unpinArea a.pa a.len).legFault a.leg a.b 10 unit 0

/-- An engine fails (R399, R403, R418): its descriptors in flight complete with E_FAULT, and tasks that it staged for end FAULTED with
class ENGINE; a stage-in whose frame has no task yet is ordered again. Areas that lie staged keep their place, and their write-back takes another
engine. -/
def State.dengFail (s : State) (e : Nat) : State :=
  let unit := 3 * 32 + e
  let s1 := s.setDeng e { s.deng e with st := .failed }
  let s2 := (List.range 8).foldl (fun t k => (t.dring (8 * e + k)).descs.foldl (fun u d => u.finishDesc (8 * e + k) { d with status := St.fault }) t) s1
  let s3 := (s2.restages e).foldl (fun t p => (t.restageEnds p.2 e St.fault 0 0).onFault p.1 7 255 unit 0) s2
  let mine := s3.mmu.areas.filter fun a => a.eng % 32 == e && (a.st == 1 || a.st == 3 || a.st == 4 || a.st == 5)
  mine.foldl (fun t a =>
    let t0 := t.kennelDone a St.fault a.done 0
    let t1 := t0.setMmu { t0.mmu with areas := t0.mmu.areas.filter (· != a) }
    if a.st = 3 then t1.backAgain { a with done := 0 } unit
    else if a.st = 1 then
      let t1 := t1.unpinArea a.pa a.len
      match t1.legTask a.leg with
      | some (i, k) => if k.b = a.b ∧ k.kind = 0 then t1.onFault i 7 255 unit 0 else t1.orderStage a.leg a.b
      | none => t1.orderStage a.leg a.b
    else (t1.unpinArea a.pa a.len).startStages) s3

/-- General loft in 4 KiB pages that is not in use (R371, R401). -/
def State.freePages (s : State) : Nat :=
  (229376 - s.fld R.SWT_LOFT_BUD_KIB) / 4 - sumL (s.mmu.gen.map fun g => g.bytes / 4096)

/-- The leaves of a page table and of the tables below it: first address, entry and size (R377, R378). `k` counts the levels left. -/
def State.leaves (s : State) : Nat → Nat → Nat → List (Nat × Nat × Nat)
  | 0, _, _ => []
  | k + 1, table, va =>
    let used := (s.mmu.mem.filter fun c => decide (table ≤ c.1 ∧ c.1 < table + 4096)).map fun c => (c.1 - table) / 8
    used.eraseDups.flatMap fun i =>
      let e := s.readEntry (table + 8 * i)
      let at_ := va + i * 2 ^ (12 + 9 * k)
      if peState e = 0 then []
      else if peSize e = 3 then (if k = 0 then [] else s.leaves k (peAddr e) at_)
      else if (k = 0 ∧ peSize e ≤ 1) ∨ (k = 1 ∧ peSize e = 2) then [(at_ / pageBytes e * pageBytes e, e, pageBytes e)]
      else []

/-- The pages of the general loft that the contexts map (R371, R372). -/
def State.generalPages (s : State) : List GenPage :=
  let all := (s.mmu.roots.filter fun r => s.ctxValid r.1).flatMap fun r => (s.leaves 4 (r.2 * 4096) 0).map fun q =>
    (⟨peAddr q.2.1 / q.2.2 * q.2.2, q.2.2, r.1, q.1⟩ : GenPage)
  (all.filter fun g => s.loftUse g.pa == some .general).foldl (fun m g => if m.any (·.pa == g.pa) then m else m ++ [g]) []

/-- The list of general pages follows the tables. -/
def State.findGen (s : State) : State := s.setMmu { s.mmu with gen := s.generalPages }

/-- What the firmware writes to contexts and page tables (R376, R378, R401): contexts 5 to 15 stay invalid. -/
def State.fwWrite (s : State) (w : FwWrites) : State :=
  let s1 := w.roots.foldl (fun (t : State) r =>
    t.setMmu { t.mmu with roots := kset t.mmu.roots r.1.toNat r.2.1.toNat, valid := kset t.mmu.valid r.1.toNat r.2.2 }) s
  (w.cells.foldl (fun (t : State) c => if t.paOk c.1.toNat then t.memSet c.1.toNat c.2 else t) s1).findGen

/-- Write an entry of a page table; for a 64 KiB page its 16 entries, with PA[15:12] running (R377). -/
def State.writeEntry (s : State) (at_ e : Nat) : State :=
  if peSize e = 1 then
    (List.range 16).foldl (fun t i => t.memWrite (at_ / 128 * 128 + 8 * i) (be 8 (putBits e 15 12 i))) s
  else s.memWrite at_ (be 8 e)

/-- A new address and a new state of a page fit: RESIDENT in the loft, BACKED in the HBM (R379, R381). -/
def State.fitsState (s : State) (toSt pa : Nat) : Bool := s.paOk pa && (if toSt = 2 then decide (pa < loftEnd) else decide (hbmBase ≤ pa))

/-- MMU_MOVE_GO (R381, R401): the fields, with the addresses written to the MOVE registers, are stored; GO starts a move unless one runs. A pinned page
is refused with PINNED, and with a fault a page that is not there, that contexts 1 to 4 keep where it is (R376), or that has no place to go. -/
def execMmuMoveGo (v : Word) (va0 : BitVec 48) (pa0 : BitVec 40) (s : State) : Host.Outcome State Fault Refusal :=
  let w := v.toNat
  .next (if bits w 13 12 ≠ 1 ∧ bits w 13 12 ≠ 2 then s
    else if s.mmu.move.isSome then s
    else
      let s0 := (s.setFld R.MMU_MOVE_VA_HI_VA_HI (va0.toNat / 2 ^ 32)).setFld R.MMU_MOVE_VA_LO_VA_LO (va0.toNat % 2 ^ 32 / 4096)
      let s00 := (s0.setFld R.MMU_MOVE_PA_HI_PA_HI (pa0.toNat / 2 ^ 32)).setFld R.MMU_MOVE_PA_LO_PA_LO (pa0.toNat % 2 ^ 32 / 4096)
      let s1 := (s00.setFld R.MMU_MOVE_CTL_TO (bits w 13 12)).setFld R.MMU_MOVE_CTL_CTX (bits w 11 0)
      if tb w 31 = false then s1
      else
        let va := va0.toNat / 4096 * 4096
        let pa := pa0.toNat / 4096 * 4096
        match s1.walk (bits w 11 0) va with
        | none => s1.setFld R.MMU_MOVE_CTL_RESULT 2
        | some x =>
          let n := pageBytes x.entry
          if peState x.entry = 3 then s1.setFld R.MMU_MOVE_CTL_RESULT 2
          else if s1.pagePinned x ∨ tb x.entry 6 then s1.setFld R.MMU_MOVE_CTL_RESULT 1
          else if x.at_ = noTable ∨ s1.fitsState (bits w 13 12) (pa / n * n) = false then s1.setFld R.MMU_MOVE_CTL_RESULT 2
          else
            let m : Move := ⟨bits w 11 0, va / n * n, bits w 13 12, pa / n * n, x.entry⟩
            ((((s1.setMmu { s1.mmu with move := some m }).writeEntry x.at_ (putBits x.entry 63 62 3)).tlbDrop fun e => e.covers m.ctx m.va).setFld
              R.MMU_MOVE_CTL_BUSY 1).bump R.MMU_WALK_CNT)

/-- The number under which a task waits for a page of a context that moves (R391). -/
def waitPage (ctx va : Nat) : Nat := ctx * 2 ^ 36 + va / 4096

/-- MOVE_COMPLETE (R381, R393): the page is copied, its entry written, and every access and descriptor stopped on it resumes. -/
def State.moveDone (s : State) : State :=
  match s.mmu.move with
  | none => s
  | some m =>
    let n := pageBytes m.entry
    let old := peAddr m.entry / n * n
    let s1 := s.memWrite m.pa (s.memRead old n)
    let s2 := match s1.walk m.ctx m.va with
      | some x => if x.at_ = noTable then s1 else s1.writeEntry x.at_ (putBits (putBits x.entry 63 62 m.toSt) 39 12 (m.pa / 4096))
      | none => s1
    let g0 := s2.mmu.gen.filter fun g => g.pa != old
    let g1 := if s2.loftUse m.pa = some .general then g0 ++ [⟨m.pa, n, m.ctx, m.va⟩] else g0
    let s3 := (s2.setMmu { s2.mmu with move := none, gen := g1 }).tlbDrop fun e => e.covers m.ctx m.va
    let s4 := ((s3.setFld R.MMU_MOVE_CTL_BUSY 0).setFld R.MMU_MOVE_CTL_RESULT 0).bump R.MMU_MOVE_CNT
    let hit (d : Desc) : Bool := (d.phase == 1 || d.phase == 2) && d.cause == Cause.transit && d.info / n * n == m.va
    let s5 := s4.mmu.rings.foldl (fun t r => match r.2.descs.find? hit with
      | some d =>
        let t1 := t.setDesc r.1 { d with phase := 0, cause := 0, info := 0 }
        if d.phase = 2 then t1.bump R.MMU_RESUME_CNT else t1
      | none => t) s4
    s5.unblock 1 (waitPage m.ctx m.va)

/-- MMU_INV_GO (R382, R401): what the firmware has written to contexts and tables stands; the fields, with the address written to MMU_INV_VA, are
stored; GO starts an invalidation unless one runs (log entry 17). -/
def execMmuInvGo (v : Word) (va0 : BitVec 48) (fw : FwWrites) (sf : State) : Host.Outcome State Fault Refusal :=
  let w := v.toNat
  let s := sf.fwWrite fw
  .next (if bits w 29 28 = 3 then s
    else
      let s0 := (s.setFld R.MMU_INV_VA_HI_VA_HI (va0.toNat / 2 ^ 32)).setFld R.MMU_INV_VA_LO_VA_LO (va0.toNat % 2 ^ 32 / 4096)
      let s1 := (s0.setFld R.MMU_INV_SCOPE (bits w 29 28)).setFld R.MMU_INV_CTX (bits w 11 0)
      if tb w 31 = false ∨ s1.mmu.inv.isSome then s1
      else
        let va := va0.toNat / 4096 * 4096
        (s1.setMmu { s1.mmu with inv := some (bits w 29 28, bits w 11 0, va) }).setFld R.MMU_INV_BUSY 1)

/-- The TLB entries that an invalidation takes: all, those of a context but for global ones, or a page's (R378, R382). -/
def TlbEnt.inScope (e : TlbEnt) (q : Nat × Nat × Nat) : Bool :=
  match q.1 with
  | 0 => true
  | 1 => e.ctx == q.2.1 && !tb e.entry 5
  | _ => e.covers q.2.1 q.2.2

/-- INVALIDATION_DONE (R382). -/
def execInvalidationDone (s : State) : Host.Outcome State Fault Refusal :=
  .next (match s.mmu.inv with
    | none => s
    | some q => (((s.setMmu { s.mmu with inv := none }).tlbDrop fun e => e.inScope q).setFld R.MMU_INV_BUSY 0).bump R.MMU_INV_CNT)

/-- The context of a task's accesses (R375): media frames 1; parcels and reports, which the tandem block and the packet engine make, 2; a task of the
firmware or the background-work block the one that its producer names. -/
def Task.context (t : Task) : Nat := if t.kind ≤ 1 then 1 else if t.kind ≤ 3 then 2 else t.ctx

/-- Whether an address lies in the local window, where a core reaches its own local memory untranslated in every context (R373). -/
def inWindow (va : Nat) : Bool := decide (va < 0x80000)

/-- What a core's access meets once it has looked its address up: 0 where it completes, else a cause (R378, R391). The access is a read (0), a
write (1) or an instruction fetch (2). -/
def State.coreMeets (s : State) (c ctx va acc : Nat) : Nat :=
  match s.xlate c ctx va with
  | none => Cause.absent
  | some x =>
    if peState x.entry = 3 then Cause.transit
    else if tb x.entry (match acc with | 0 => 1 | 1 => 2 | _ => 3) then 0 else Cause.permission

/-- An access of a core's task outside the local window, which looks its address up in the core's TLB, the cluster's and the tables (R380), by the
rows of R391: a page in TRANSIT blocks the task until its move ends, and an ACCESS fault ends it. -/
def State.coreAccess (s : State) (c i : Nat) (t : Task) (va acc : Nat) : State :=
  let u := s.coreLookup c t.context va
  match u.coreMeets c t.context va acc with
  | 0 => u
  | 2 =>
    let page := match u.walk t.context va with | some x => va / pageBytes x.entry * pageBytes x.entry | none => va
    (u.bump R.MMU_TRANSIT_CNT).blockRun c 1 (waitPage t.context page)
  | _ => ((u.bump R.MMU_ACCESS_CNT).raise R.MMU_EVT 2).faultAt c i 4 0 (va % 2 ^ 32)

/-- ACCESS_FAULT (R373, R391, R403): the task that runs on the core accesses a virtual address; the local window meets no such fault. -/
def execAccessFault (core : Fin 128) (va : BitVec 48) (acc : Fin 3) (s : State) : Host.Outcome State Fault Refusal :=
  .next (match s.running core.val with
    | none => s
    | some (i, t) => if inWindow va.toNat then s else s.coreAccess core.val i t va.toNat acc.val)

/-- CORE_TRANSIT_ACCESS (R380, R391): the running task reads a page of its context that is in TRANSIT, and is BLOCKED until its move ends. Contexts 1
and 2 map no page that moves (R376). -/
def execCoreTransitAccess (core : Fin 128) (va : BitVec 48) (s : State) : Host.Outcome State Fault Refusal :=
  .next (match s.running core.val with
    | none => s
    | some (i, t) =>
      if inWindow va.toNat = false ∧ s.coreMeets core.val t.context va.toNat 0 = Cause.transit then s.coreAccess core.val i t va.toNat 0 else s)

/-! ### Registers (R401, R402) -/

/-- Rings with a parked descriptor. -/
def State.parkedRings (s : State) : List Nat :=
  (s.mmu.rings.filter fun r => r.2.descs.any (·.phase == 2)).map (·.1) ++
    ((List.range 32).flatMap fun e => (if (s.frontArea e 5 5).isSome then [8 * e] else []) ++ (if (s.frontArea e 4 4).isSome then [8 * e + 1] else []))

/-- Descriptors in flight of a ring; on the kennel's rings write-backs and stage-ins (R386). -/
def State.inFlight (s : State) (r : Nat) : Nat :=
  let areas (a b : Nat) : Nat := min 16 (s.mmu.areas.filter fun q => q.eng % 32 == r / 8 && (q.st == a || q.st == b)).length
  match r % 8 with
  | 0 => areas 3 5
  | 1 => min 16 (areas 1 4 + (s.restages (r / 8)).length)
  | _ => min 16 ((s.dring r).descs.filter fun d => d.phase != 3).length

/-- The entry that an engine takes next (R401): on a kennel ring those behind the 16 in flight are still to be taken (R386). -/
def State.ringHead (s : State) (r : Nat) : Nat :=
  let x := s.dring r
  if 2 ≤ r % 8 then x.head
  else
    let n := (s.mmu.areas.filter fun a => a.ring == r && (a.st == 1 || 3 ≤ a.st)).length
    (x.tail + 2 ^ x.log2 - (n - 16) % 2 ^ x.log2) % 2 ^ x.log2

/-- MMU_PARK_INFO of the ring selected. -/
def State.parkInfo (s : State) : Nat :=
  let r := s.fld R.MMU_PARK_SEL_RING
  if r % 8 ≤ 1 then (match s.frontArea (r / 8) (if r % 8 = 0 then 5 else 4) 9 with
    | some a => 2 ^ 31 + Cause.uncorrectable * 2 ^ 28 + 1 * 2 ^ 16 + a.idx
    | none => 0)
  else match (s.dring r).descs.find? (·.phase == 2) with
    | some d => 2 ^ 31 + d.cause * 2 ^ 28 + d.ctx (s.dring r) * 2 ^ 16 + d.idx
    | none => 0

/-- The registers of the block that mirror state. -/
def mmuView (s : State) (_i2c : Bool) (a : Nat) : Option Nat :=
  let ctx := s.fld R.MMU_CTX_SEL_CTX
  let x := s.dring (s.fld R.MMU_RING_SEL_RING)
  let e := s.fld R.MMU_DMA_SEL_ENG
  if a = R.MMU_LOFT then some (min 65535 s.freePages * 2 ^ 16 + cdiv s.stageUsed 16)
  else if a = R.MMU_CTL then some 0
  else if a = R.MMU_CTX_ROOT then some (kgetD s.mmu.roots ctx 0)
  else if a = R.MMU_CTX_CFG then some (b2n (s.ctxValid ctx) * 2 ^ 31)
  else if a = R.MMU_PARK then some s.parkedRings.length
  else if a = R.MMU_PARK_INFO then some s.parkInfo
  else if a = R.MMU_PARK_CTL then some 0
  else if a = R.MMU_RING_CFG then
    some (b2n x.en * 2 ^ 31 + x.ctx * 2 ^ 16 + s.inFlight (s.fld R.MMU_RING_SEL_RING) * 16 + x.log2)
  else if a = R.MMU_RING_DBASE_HI then some (x.dbase / 2 ^ 32)
  else if a = R.MMU_RING_DBASE_LO then some (x.dbase % 2 ^ 32)
  else if a = R.MMU_RING_CBASE_HI then some (x.cbase / 2 ^ 32)
  else if a = R.MMU_RING_CBASE_LO then some (x.cbase % 2 ^ 32)
  else if a = R.MMU_RING_HEAD then some (s.ringHead (s.fld R.MMU_RING_SEL_RING))
  else if a = R.MMU_RING_TAIL then some x.tail
  else if a = R.MMU_DMA_CFG then some (b2n (s.deng e).en)
  else if a = R.MMU_DMA_STAT then
    let n := sumL ((List.range 8).map fun k => s.inFlight (8 * e + k))
    some (n * 2 ^ 16 + b2n (s.underTest 3 e) * 32 + b2n (s.deng e).pendEn * 16 + (s.deng e).st.code)
  else if a = R.MMU_DMA_LOAD then some ((s.deng e).peak * 2 ^ 16 + (s.deng e).last)
  else none

/-- PEAK_CLR (R401). -/
def mmuEffect (s : State) (a _old v : Nat) : State :=
  if a = R.MMU_CTL ∧ tb v 0 then
    let s1 := s.setFld R.MMU_STAGE_PEAK_PEAK (cdiv s.stageUsed 16)
    let f (x : DEng) : DEng := { x with peak := x.last }
    s1.setMmu { s1.mmu with engs := s1.mmu.engs.map fun p => (p.1, f p.2) }
  else s

end Sys2Proof.Machine
end

