-- ==== Sys2Proof/Machine/Rx.lean ====
section
/-! DEFINITION. Reception of a frame by a port (R118-R122, R129, R133, R136-R138) and its delivery to a receive ring. -/

namespace Sys2Proof.Machine

open Sys2Proof

/-- What is left of a list of buffers, by size, once a frame of `n` bytes took the first ones. -/
def claim : Nat → List Nat → Nat → List Nat
  | 0, l, _ => l
  | _, [], _ => []
  | k + 1, b :: r, n => if n = 0 then b :: r else claim k r (n - b)

/-- The sizes of the free buffers of a ring for a port: RX descriptors in flight or posted that no delivered frame will use (R136). -/
def State.freeBufs (s : State) (r : Nat) (x : DRing) (p : Nat) : List Nat :=
  (x.frames.filter fun f => f.2.2 == p).foldl (fun l f => claim l.length l f.1.bytes.length) (s.rxBufs r x p)

/-- A frame enters its class buffer, or is dropped for lack of room (R119). A frame of TC0-TC6 for a receive ring waits for that ring; without a
free buffer it is taken from the class buffer and dropped at once, which raises no XOFF (R133, R136, R138). -/
def State.rxAccept (s : State) (p : Nat) (b : Bytes) (stamp : Inst) : State :=
  let n := s.classify p b
  let len := flen b
  let f := s.fill p n + len
  if s.classRoom p n < f then (s.bump (R.MAC_RX_IDROP_TC_CNT p n)).raise R.MAC_EVT (2 ^ (8 + p))
  else
    let x := s.port p
    let s1 := (s.bump (R.MAC_RX_FRM_CNT p)).bump64 (R.MAC_RX_BYTE_CNT_LO p) len
    let leg := if s.legSources then s.flowLeg p b else none
    match (if n = 7 then none else s.ringOf p) with
    | none =>
      let y := { x with rxq := kset x.rxq n (kgetD x.rxq n [] ++ [⟨b, stamp⟩]), peak := kset x.peak n (max f (kgetD x.peak n 0)) }
      ((s1.setPort p y).xoffCheck p).capFrame p 0 b n leg stamp
    | some (i, d) =>
      if (s.freeBufs i d p).isEmpty then (s1.bump (R.MAC_RX_RING_EMPTY_CNT p)).capFrame p 0 b n leg stamp
      else
        let s2 := s1.setPort p { x with peak := kset x.peak n (max f (kgetD x.peak n 0)) }
        ((s2.setDring i { d with frames := d.frames ++ [(⟨b, stamp⟩, n, p)] }).xoffCheck p).capFrame p 0 b n leg stamp

/-- An oversize frame whose first bytes had been written to a receive ring when it was dropped: the buffers that they filled are ABANDONED and
not counted again (R120). -/
def State.rxOversize (s : State) (w : RxWire) : State :=
  let p := w.port.val
  match s.ringOf p with
  | some (i, d) =>
    if w.cut ∧ d.frames = [] then
      let f : RxFrame := ⟨w.bytes, s.rxStamp p w.sfdAgo⟩
      let s0 := s.setDring i { d with frames := [(f, s.classify p w.bytes, p)] }
      let (t, used, _, flt) := State.fillRx i f 0 p [] rxFuel (w.bytes.take (s.portMax p)) true s0
      (t.setDring i { t.dring i with frames := [] }).abandon i used flt
    else s
  | none => s

/-- The RS-FEC counters of a port over a lane (R146). -/
def State.fecCount (s : State) (w : RxWire) : State :=
  if w.port.val < 7 then
    (s.bumpBy (R.MAC_FEC_CORR_CNT w.port.val) w.fecCorr.toNat).bumpBy (R.MAC_FEC_UNCORR_CNT w.port.val) w.fecUncorr.toNat
  else s

/-- The rows of R119 for a frame that a port in ON receives: the first that applies. -/
def State.rxRows (s : State) (w : RxWire) : State :=
  let p := w.port.val
  let len := flen w.bytes
  let e := parseEth w.bytes
  if len ≤ 63 then s.bump (R.MAC_RX_RUNT_CNT p)
  else if s.portMax p < len then (s.bump (R.MAC_RX_OVERSIZE_CNT p)).rxOversize w
  else if p = 7 ∧ w.oddNibble ∧ w.fcsOk = false then s.bump (R.MAC_RX_ALIGN_CNT p)
  else if w.fcsOk = false then s.bump (R.MAC_RX_FCS_CNT p)
  else if s.isMuzzle p w.bytes then
    s.setQcp { s.qcp with mzIn := s.qcp.mzIn ++ [⟨w.bytes.drop e.off, s.now, s.loc⟩] }
  else if e.etype = 0x8808 then
    match num w.bytes e.off 2 with
    | 0x0101 => (s.bump (R.MAC_RX_PFC_CNT p)).pfcRx p w.bytes (e.off + 2)
    | 0x0001 => (s.bump (R.MAC_RX_PAUSE_CNT p)).pauseRx p (num w.bytes (e.off + 2) 2)
    | _ => s.bump (R.MAC_RX_CTL_OTHER_CNT p)
  else s.rxAccept p w.bytes (s.rxStamp p w.sfdAgo)

/-- MAC_RX_FRAME (R119): a port receives frames only while it is ON. -/
def execMacRxFrame (w : RxWire) (s : State) : Host.Outcome State Fault Refusal :=
  .next (if s.portSt w.port.val ≠ .on then s else (s.fecCount w).rxRows w)

end Sys2Proof.Machine
end

