-- ==== Sys2Proof/Machine/Bal.lean ====
section
/-! DEFINITION. The baler (R485-R502): jobs of its rings, compression, expansion, output space, completions, registers. -/

namespace Sys2Proof.Machine

open Sys2Proof

/-! ### Engines and rings (R487, R499, R501) -/

/-- Replace the baler. -/
def State.setBal (s : State) (x : Bal) : State := { s with bal := x }

/-- An engine that is OFF. -/
def BEng.init : BEng := { st := .off, pendEn := false, job := none, ms := 0, acc := 0, last := 0, peak := 0 }

/-- The engine of an index. -/
def State.beng (s : State) (e : Nat) : BEng := kgetD s.bal.engs e BEng.init

/-- Replace an engine. -/
def State.setBeng (s : State) (e : Nat) (x : BEng) : State :=
  (s.setBal { s.bal with engs := kset s.bal.engs e x }).report (.bal e) (s.beng e).st x.st

/-- A ring as it is at reset; its context is 4 (R375, R501). -/
def BRing.init : BRing := { en := false, ctx := 0, log2 := 4, dbase := 0, cbase := 0, head := 0, tail := 0 }

/-- The ring of a priority class. -/
def State.bring (s : State) (k : Nat) : BRing := kgetD s.bal.rings k BRing.init

/-- Replace a ring. -/
def State.setBring (s : State) (k : Nat) (x : BRing) : State := s.setBal { s.bal with rings := kset s.bal.rings k x }

/-- The whole millisecond of TMU time now. -/
def State.msNow (s : State) : Nat := s.now / nsI 1000000

/-- An engine's load figures brought to the present millisecond (R501): input of the last whole millisecond in units of 256 KiB. -/
def BEng.roll (x : BEng) (ms : Nat) : BEng :=
  if ms = x.ms then x
  else
    let last := if ms = x.ms + 1 then min 65535 (cdiv x.acc 262144) else 0
    { x with ms := ms, acc := 0, last := last, peak := max x.peak (max last (min 65535 (cdiv x.acc 262144))) }

/-- The next job: the first ring in priority order that has one (R487). -/
def State.nextJob (s : State) : Option (Nat × Bytes) :=
  (List.range 4).findSome? fun k =>
    let r := s.bring k
    if r.en ∧ r.head ≠ r.tail then match s.vread noTlb r.ctx (r.dbase + 48 * r.head) 48 with
      | some b => if tb (u8 b 0) 7 then some (k, b) else none
      | none => none
    else none

/-- Whether an engine may take a job: ON, idle, no confirmation awaited (R499, R511). -/
def State.balIdle (s : State) (e : Nat) : Bool := decide ((s.beng e).st = .on) && (s.beng e).job.isNone && !s.awaiting 4 e

/-- An engine takes a job; under a slice it is passed over while another qualifies, else the slice is aborted (R499, R508). -/
def State.balTake (s : State) (e : Nat) : Option State :=
  if s.balIdle e = false then none
  else match s.sliceOn 4 e with
    | none => some s
    | some r =>
      if ((List.range 4).any fun k => s.balIdle k && !s.underTest 4 k) || r.conf then none else some (s.cutSlice r 1)

/-! ### Destinations (R488, R490, R493) -/

/-- The bytes that a list of entries holds. -/
def entsLen (l : List (Nat × Nat)) : Nat := sumL (l.map (·.2))

/-- The VA of a position in the entries laid end to end. -/
def placeAt : List (Nat × Nat) → Nat → Nat
  | [], _ => 0
  | (va, n) :: r, p => if p < n then va + p else placeAt r (p - n)

/-- Write bytes at a position of the entries; false when one of them cannot be written. -/
def State.bput (ctx : Nat) (ents : List (Nat × Nat)) : Bytes → Nat → State → State × Bool
  | [], _, s => (s, true)
  | v :: r, p, s => match s.dmaAddr noTlb ctx (placeAt ents p) true with
    | .inl _ => (s, false)
    | .inr pa => State.bput ctx ents r (p + 1) (s.memSet pa v)

/-- How many of the first entries are wholly filled by `n` bytes. -/
def filled : List (Nat × Nat) → Nat → Nat
  | [], _ => 0
  | e :: r, n => if e.2 ≤ n then filled r (n - e.2) + 1 else 0

/-- The destination list of a job, or none where it cannot be read. -/
def State.dlist (s : State) (ctx va n : Nat) : Option (List Bytes) :=
  (s.vread noTlb ctx va (16 * n)).map fun b => (List.range n).map fun i => sub b (16 * i) 16

/-- An entry's VA and length. -/
def entOf (b : Bytes) : Nat × Nat := (num b 0 8, num b 8 4)

/-- Whether an entry breaks a rule of R488. -/
def entBad (b : Bytes) : Bool :=
  decide (2 ^ 48 ≤ num b 0 8) || num b 12 4 != 0 || decide (num b 8 4 < 64) || decide (16777216 < num b 8 4)

/-- Whether a descriptor breaks a rule of R488 (log entry 26): reserved bits, operation, count, length. -/
def jobBad (b : Bytes) : Bool :=
  let op := u8 b 0 % 16
  (op != 1 && op != 2) || u8 b 0 / 16 % 8 != 0 || u8 b 1 % 16 != 0 || num b 2 2 != 0 || num b 26 6 != 0 || num b 40 4 != 0 ||
    decide (num b 24 2 < 1) || decide (256 < num b 24 2) || (op == 1 && (decide (num b 4 4 < 1) || decide (16777216 < num b 4 4)))

/-! ### A job's run (R489-R497) -/

/-- The status that a reason gives (R489). -/
def reasonStatus (r : Nat) : Nat := if r = 0 then St.ok else if r = 2 ∨ r = 8 then St.badLen else St.fault

/-- A job before it runs. -/
def BJob.start (ring idx : Nat) (b : Bytes) : BJob :=
  { ring := ring, idx := idx, b := b, fin := false, stopped := false, vfy := false, reason := 0, status := St.ok, inB := 0, outB := 0,
    dIn := 0, dOut := 0, next := 0, olen := 0, crc := 0, stored := false }

/-- A job that ends with a reason. -/
def BJob.fail (j : BJob) (reason : Nat) : BJob := { j with reason := reason, status := reasonStatus reason }

/-- The outcome of a run: bytes to be placed up to a position, whether the bale is finished, its reason, bytes consumed. -/
structure BRun where
  out : Bytes
  fin : Bool
  reason : Nat
  inB : Nat
  crcOf : Bytes
  olen : Nat
  stored : Bool

/-- What a COMPRESS yields in `cap` bytes of destination (R486, R490, R493): the bale, or as many whole bytes as whole code words form;
a trailer that does not fit waits whole. The first 16 bytes are the header's place. -/
def compressRun (level : Nat) (vfy : Bool) (data : Bytes) (cap : Nat) : BRun :=
  let bale := mkBale level vfy data
  let pay := (bale.drop 16).take (bale.length - 20)
  if bale.length ≤ cap then ⟨bale, true, 0, data.length, data, data.length, tb (u8 bale 5) 0⟩
  else if pay.length + 16 ≤ cap then ⟨bale.take (16 + pay.length), false, 0, data.length, data, data.length, false⟩
  else
    let room := cap - 16
    let p := prefixOf (data.length + 1) (pay.take room)
    ⟨bale.take (16 + (8 * room - p.rest.length) / 8), false, 0, p.out.length, data.take p.out.length, data.length, false⟩

/-- What a DECOMPRESS yields in `cap` bytes of destination (R494, R496, R497): output before a failed check stays. -/
def expandRun (b : Bytes) (cap : Nat) : BRun :=
  let ol := num b 8 4
  let pay := sub b 16 (num b 12 4)
  let used (n : Nat) : Nat := 16 + (8 * pay.length - (prefixOf n pay).rest.length + 7) / 8
  let cut (d : Bytes) : BRun := ⟨d.take cap, false, 0, used cap, d.take cap, ol, false⟩
  match checkBale b with
  | .inr d => if cap < d.length then cut d else ⟨d, true, 0, 20 + num b 12 4, d, ol, false⟩
  | .inl r =>
    if r ≤ 2 then ⟨[], false, r, 0, [], if b.length < 12 then 0 else ol, false⟩
    else
      let o := ((prefixOf ol pay).out.reverse).take ol
      if cap < o.length then cut o else ⟨o, false, r, used ol, o, ol, false⟩

/-- Run a job over its entries (R490-R497): `st` is what a stop left, or a fresh start. -/
def State.balRun (s : State) (j : BJob) (st : BStop) (new : List (Nat × Nat)) (mismatch : Bool) : State × BJob :=
  let ctx := (s.bring j.ring).ctx
  let vfy := st.vfy || mismatch
  let all := st.ents ++ new
  let ents := if st.op = 1 then all.take 256 else all
  let s1 := if mismatch then (s.bump R.BAL_VFY_FAIL_CNT).raise R.BAL_EVT 2 else s
  let from_ := if mismatch then 0 else st.pos
  let src := if st.op = 1 then s.vread noTlb ctx st.src st.len
    else (s.vread noTlb ctx st.src (min 16 st.len)).bind fun h => s.vread noTlb ctx st.src (min st.len (20 + num h 12 4))
  match src with
  | none => (s1, j.fail 6)
  | some d =>
    let r := if st.op = 1 then compressRun st.level vfy d (entsLen ents) else expandRun d (entsLen ents)
    let full := decide (256 < all.length) && st.op == 1 && !r.fin
    if full then (s1, j.fail 8)
    else
      let lo := if st.op = 1 then max 16 from_ else from_
      let (s2, ok) := State.bput ctx ents (r.out.drop lo) lo s1
      let (s3, ok2) := if st.op = 1 ∧ r.fin then State.bput ctx ents (r.out.take 16) 0 s2 else (s2, true)
      if ok = false ∨ ok2 = false then (s3, j.fail 6)
      else
        let stopped := !r.fin && r.reason == 0
        let at_ := r.out.length
        let outB := if st.op = 1 ∧ r.fin = false then at_ - 16 else at_
        let was := if st.op = 1 then st.pos - 16 else st.pos
        let j1 : BJob := { j with
          fin := r.fin, stopped := stopped, vfy := vfy, reason := r.reason, status := reasonStatus r.reason, inB := r.inB, outB := outB,
          dIn := r.inB - st.inB, dOut := outB - was, next := filled new (at_ - entsLen st.ents), olen := r.olen,
          crc := (crc32c r.crcOf).toNat, stored := r.stored }
        let area := num j.b 32 8
        let stops := if stopped then kset s3.bal.stops area { st with vfy := vfy, inB := r.inB, pos := at_, ents := ents }
          else kdel s3.bal.stops area
        (s3.setBal { s3.bal with stops := stops }, j1)

/-- Start the next job on an engine, when it is one that the row names (R487, R495): its kind is COMPRESS, DECOMPRESS or RESUME. -/
def State.balStart (s : State) (e : Nat) (want : Nat) (mismatch : Bool) : State :=
  match s.nextJob with
  | none => s
  | some (k, b) =>
    let op := u8 b 0 % 16
    let kind := if tb (u8 b 1) 7 then 3 else if op = 2 then 2 else 1
    match s.balTake e with
    | none => s
    | some s1 =>
      if kind ≠ want then s
      else
        let r := s1.bring k
        let s2 := s1.setBring k { r with head := (r.head + 1) % 2 ^ r.log2 }
        let j := BJob.start k r.head b
        let put (p : State × BJob) : State := p.1.setBeng e { p.1.beng e with job := some p.2 }
        if jobBad b then put (s2, j.fail 8)
        else match s2.dlist r.ctx (num b 16 8) (num b 24 2) with
          | none => put (s2, j.fail 6)
          | some l =>
            if l.any entBad then put (s2, j.fail 8)
            else
              let new := l.map entOf
              let area := num b 32 8
              if kind = 3 then match kget s2.bal.stops area with
                | some st => if st.op = op then put ((s2.bump R.BAL_RESUME_CNT).balRun j st new mismatch) else put (s2, { j with status := St.state })
                | none => put (s2, { j with status := St.state })
              else
                let st : BStop := ⟨op, u8 b 1 / 16 % 4, false, num b 8 8, num b 4 4, 0, if op = 1 then 16 else 0, []⟩
                put (s2.balRun j st new mismatch)

/-- BALER_COMPRESS (R490-R493): the engine starts the next job, a COMPRESS; `mismatch` says that self-verification fails. -/
def execBalerCompress (eng : Fin 4) (mismatch : Bool) (s : State) : Host.Outcome State Fault Refusal :=
  .next (s.balStart eng.val 1 mismatch)

/-- BALER_DECOMPRESS (R494, R496). -/
def execBalerDecompress (eng : Fin 4) (s : State) : Host.Outcome State Fault Refusal := .next (s.balStart eng.val 2 false)

/-- BALER_RESUME (R495). A mismatch is one of a COMPRESS. -/
def execBalerResume (eng : Fin 4) (mismatch : Bool) (s : State) : Host.Outcome State Fault Refusal :=
  let comp := match s.nextJob with | some (_, b) => u8 b 0 % 16 == 1 | none => false
  .next (s.balStart eng.val 3 (mismatch && comp))

/-! ### Ends (R489, R497, R499) -/

/-- The completion of a job (R489). -/
def BJob.completion (j : BJob) : Bytes :=
  be 1 (128 + b2n (j.fin && j.reason == 0) * 64 + b2n j.stopped * 32 + b2n j.vfy * 16 + u8 j.b 0 % 16) ++ be 1 j.reason ++ be 2 j.status ++
    be 4 j.inB ++ be 4 j.outB ++ be 2 j.next ++ zeros 2 ++ be 4 j.olen ++ be 4 j.crc ++ zeros 4 ++ sub j.b 44 4

/-- An engine that is STOPPING and has no job reaches OFF, or starts again (R17, R18, R499). -/
def BEng.rest (x : BEng) : BEng :=
  if x.st = .stopping ∧ x.job.isNone then { x with st := if x.pendEn then .on else .off, pendEn := false } else x

/-- The end of a job (R489, R493, R497, R499): completion, OWN, counters, load. -/
def State.balEnd (s : State) (e : Nat) (j : BJob) : State :=
  let r := s.bring j.ring
  let s1 := (s.vwrite noTlb r.ctx (r.cbase + 32 * j.idx) j.completion).vwrite noTlb r.ctx (r.dbase + 48 * j.idx) (be 1 (u8 j.b 0 % 128))
  let s2 := ((s1.bump R.BAL_JOB_CNT).bumpBy R.BAL_IN_KIB_CNT (j.dIn / 1024)).bumpBy R.BAL_OUT_KIB_CNT (j.dOut / 1024)
  let s3 := if j.stored ∧ j.fin then s2.bump R.BAL_STORED_CNT else s2
  let s4 := if j.stopped then (s3.bump R.BAL_STOP_CNT).raise R.BAL_EVT 1 else s3
  let s5 := if j.reason = 5 then (s4.bump R.BAL_CRC_FAIL_CNT).raise R.BAL_EVT 4
    else if 1 ≤ j.reason ∧ j.reason ≤ 4 then (s4.bump R.BAL_DATA_ERR_CNT).raise R.BAL_EVT 8 else s4
  let x := (s5.beng e).roll s5.msNow
  let y : BEng := { x with job := none, acc := x.acc + j.dIn }
  s5.setBeng e y.rest

/-- BALER_JOB_END (R489); with a parity error in the engine's memory the job ends with ENGINE, and the error counts (R496, R502). -/
def execBalerJobEnd (eng : Fin 4) (parity : Bool) (s : State) : Host.Outcome State Fault Refusal :=
  .next (match (s.beng eng.val).job with
    | some j => if parity then (s.bump R.BAL_PARITY_CNT).balEnd eng.val { j.fail 7 with fin := false, stopped := false } else s.balEnd eng.val j
    | none => s)

/-- An engine enters FAILED (R499): a job in flight ends with ENGINE. A held enable stays (log entry 71). -/
def State.balFail (s : State) (e : Nat) : State :=
  let s1 := s.setBeng e { s.beng e with st := .failed }
  let s2 := match (s1.beng e).job with
    | some j => s1.balEnd e { j.fail 7 with fin := false, stopped := false }
    | none => s1
  s2.raise R.BAL_EVT 16

/-! ### Enables, tails and registers (R487, R499-R502, R599) -/

/-- A change of an engine's enable (R17, R18, R499). -/
def BEng.enable (x : BEng) (en : Bool) : BEng :=
  match en, x.st with
  | true, .off => { x with st := .on }
  | true, .stopping => { x with pendEn := true }
  | true, _ => x
  | false, .on => ({ x with st := .stopping } : BEng).rest
  | false, .failed => ({ x with st := .stopping } : BEng).rest
  | false, _ => { x with pendEn := false }

/-- BAL_CFG_EN_WRITE (R12, R18, R599): a bit that changes enables or disables its engine; a write that would enable a FAILED one is
refused whole. -/
def execBalCfgEnWrite (v : Word) (s : State) : Host.Outcome State Fault Refusal :=
  let old := s.fld R.BAL_CFG_EN
  let s1 := s.setFld R.BAL_CFG_EN (v.toNat % 16)
  let no := (List.range 4).any fun e => tb v.toNat e && !tb old e && (s.beng e).st == .failed
  .next (if no then s else (List.range 4).foldl (fun t e =>
    if tb v.toNat e = tb old e then t else t.setBeng e ((t.beng e).enable (tb v.toNat e))) s1)

/-- BAL_RING_TAIL_WRITE (R487): a producer has written jobs from its old tail on, and writes the tail. -/
def execBalRingTailWrite (ring : Fin 4) (jobs : List Bytes) (v : Word) (s : State) : Host.Outcome State Fault Refusal :=
  let k := ring.val
  let x := s.bring k
  let s1 := (jobs.zipIdx).foldl (fun (t : State) (p : Bytes × Nat) =>
    t.vwrite noTlb x.ctx (x.dbase + 48 * ((x.tail + p.2) % 2 ^ x.log2)) (p.1.take 48)) s
  .next (s1.setBring k { s1.bring k with tail := v.toNat % 4096 % 2 ^ x.log2 })

/-- The registers of the block that mirror state. -/
def balView (s : State) (_i2c : Bool) (a : Nat) : Option Nat :=
  let x := s.bring (s.fld R.BAL_RING_SEL_RING)
  let flight := ((List.range 4).filter fun e => match (s.beng e).job with | some j => j.ring == s.fld R.BAL_RING_SEL_RING | none => false).length
  if a = R.BAL_CTL then some 0
  else if R.BAL_ENG_STAT 0 ≤ a ∧ a ≤ R.BAL_ENG_STAT 3 then
    let e := (a - R.BAL_ENG_STAT 0) / 4
    let y := s.beng e
    some (b2n y.job.isSome * 256 + b2n (s.underTest 4 e) * 32 + b2n y.pendEn * 16 + y.st.code)
  else if R.BAL_LOAD 0 ≤ a ∧ a ≤ R.BAL_LOAD 3 then
    let y := (s.beng ((a - R.BAL_LOAD 0) / 4)).roll s.msNow
    some (y.peak * 2 ^ 16 + y.last)
  else if a = R.BAL_RING_CFG then some (b2n x.en * 2 ^ 31 + x.ctx * 2 ^ 16 + flight * 16 + x.log2)
  else if a = R.BAL_RING_DBASE_HI then some (x.dbase / 2 ^ 32)
  else if a = R.BAL_RING_DBASE_LO then some (x.dbase % 2 ^ 32)
  else if a = R.BAL_RING_CBASE_HI then some (x.cbase / 2 ^ 32)
  else if a = R.BAL_RING_CBASE_LO then some (x.cbase % 2 ^ 32)
  else if a = R.BAL_RING_HEAD then some x.head
  else if a = R.BAL_RING_TAIL then some x.tail
  else none

/-- PEAK_CLR (R501). -/
def balEffect (s : State) (a _old v : Nat) : State :=
  if a = R.BAL_CTL ∧ tb v 0 then
    (List.range 4).foldl (fun t e =>
      let x := (t.beng e).roll t.msNow
      t.setBeng e { x with peak := x.last }) s
  else s

end Sys2Proof.Machine
end

