-- ==== Sys2Proof/Machine/Kennel.lean ====
section
/-! DEFINITION. Tasks end and call engines (R246, R284-R309, R342): TASK_DONE, FCE_CALL, ECE_CALL, parity errors, the engines'
registers and enables. -/

namespace Sys2Proof.Machine

open Sys2Proof

/-! ### Engines (R246, R303) -/

/-- The state of echo engine `e`. -/
def State.eceSt (s : State) (e : Nat) : FnState := FnState.ofCode (s.fld (R.ECE_STAT_STATE e))

/-- The unit byte of a filter chain engine and of an echo engine (R425). -/
def fceUnit (e : Nat) : Nat := 32 + e
def eceUnit (e : Nat) : Nat := 64 + e

/-- The engine of a chain call (R246, R413): home, then the caller's stop, then the lowest number; the engine that a PARITY replay
avoids comes last. Only when no engine qualifies does one under a slice, which is then aborted (R508); one that awaits a confirmation takes no
call (R511). -/
def State.fceFor (s : State) (core home : Nat) (avoid : Option Nat) : Option (Nat × Bool) :=
  let k := core / 16
  let on := (home :: [2 * k, 2 * k + 1] ++ List.range 16).filter fun e => decide (s.fceSt e = .on) && !s.awaiting 1 e
  let pick (l : List Nat) : Option Nat := (l.find? fun e => avoid != some (fceUnit e)).orElse fun _ => l.head?
  match pick (on.filter fun e => !s.underTest 1 e) with
  | some e => some (e, false)
  | none => (pick on).map fun e => (e, true)

/-- The calls queued or running at an engine, echo engines counted from 32 on (R308). -/
def State.queued (s : State) (k : Nat) : Nat := (s.engQ.filter fun q => q.eng == k).length

/-- The echo engine of a list, in rising order, with the fewest calls queued, the first of them on a tie (R303). -/
def State.fewestCalls (s : State) (l : List Nat) : Option Nat :=
  l.foldl (fun (b : Option Nat) e => match b with
    | none => some e
    | some a => if s.queued (32 + e) < s.queued (32 + a) then some e else some a) none

/-- The engine of a canceller call (R303, R413): the one with the fewest calls at the caller's stop, else anywhere; the engine that a PARITY
replay avoids comes last. Only when no engine qualifies does one under a slice, which is then aborted. -/
def State.eceFor (s : State) (core : Nat) (avoid : Option Nat) : Option (Nat × Bool) :=
  let k := core / 16
  let on := (List.range 32).filter fun e => decide (s.eceSt e = .on) && !s.awaiting 2 e
  let pick (l : List Nat) : Option Nat := (s.fewestCalls (l.filter fun e => e / 4 == k)).orElse fun _ => s.fewestCalls l
  let free := on.filter fun e => !s.underTest 2 e
  match (pick (free.filter fun e => avoid != some (eceUnit e))).orElse fun _ => pick free with
  | some e => some (e, false)
  | none => (pick on).map fun e => (e, true)

/-- Work of an engine in this swath: MACs of filter chain engine `k`, EU of echo engine `k - 32`. -/
def State.engWork (s : State) (k n : Nat) : State := { s with engAcc := kset s.engAcc k (kgetD s.engAcc k 0 + n) }

/-! ### The next call of a task -/

/-- A task on a core that waits for an engine: task number, task, leg, node number, node, work so far. -/
structure CallAt where
  i : Nat
  t : Task
  l : Nat
  n : Nat
  node : Node
  w : Work

/-- The call that the task running on a core makes next, if it is a media task with one left. -/
def State.callAt (s : State) (core : Nat) : Option CallAt :=
  match s.running core with
  | none => none
  | some (i, t) => match t.leg, t.work with
    | some l, some w =>
      if t.kind ≤ 1 then (s.engineNode l t w).map fun (n, node, w1) => ⟨i, t, l, n, node, w1⟩ else none
    | _, _ => none

/-- A task after a call: its work, and the unit that served it (R511). -/
def CallAt.done (c : CallAt) (w : Work) (cls e : Nat) : Task :=
  { c.t with work := some w, callNo := c.t.callNo + 1, ranOn := c.t.ranOn ++ [(cls, e)] }

/-- A task whose call goes to an engine: the log holds the call's dispatch instant and the swap that is armed then (R247, R409), unless it holds
those of the original call already (R413). -/
def CallAt.logged (c : CallAt) (disp : Nat) (swap : Option Swap) : Task :=
  if c.t.callNo < c.t.calls.length then c.t else { c.t with calls := c.t.calls ++ [(disp, swap)] }

/-- The chain of a FILTER node in a work copy; one that found no engine to be homed at takes its home at its first call (log entry 79). -/
def State.workChain (s : State) (c : CallAt) : Chain :=
  (kget c.w.med.chains c.n).getD (s.newChain (s.legTmpl c.l) c.n (s.newSlot.getD (0, 0)))

/-- The swap that stays pending after a call that ran under the logged swap `was` where `has` is now pending: what has been armed or cancelled
since stays so, and a logged swap that has run is gone (R247, R261). -/
def swapLeft (was has left : Option Swap) : Option Swap :=
  if has = was then left
  else match has, was with
    | some a, some b => if a.armLoc = b.armLoc then left else has
    | _, _ => has

/-- The first call of a chain has reset it (R272): its committed state is reset with it, so that the reset is not made, nor counted, again where the
task is cancelled. -/
def State.chainBegun (s : State) (l n : Nat) (c : Chain) : State :=
  let x := s.leg l
  if c.owed then s.setLeg l { x with med := { x.med with chains := kset x.med.chains n { c.reset ((s.banks c).of c.live).stages with owed := false } } }
  else s

/-- The clears of a leg's canceller that a call has counted are owed no more (R299): its committed state is cleared with it. -/
def State.echoBegun (s : State) (l : Nat) : State :=
  let x := s.leg l
  s.setLeg l { x with med := { x.med with echo := x.med.echo.map fun e => { (if e.fresh then { e.clear with endAt := none } else e) with owed := 0 } } }

/-- Run a chain call on an engine (R246, R262-R276, R283): it runs at the dispatch instant that the log holds, under the swap armed then
(R247, R413). -/
def State.fceRun (s : State) (c : CallAt) (e now : Nat) : State :=
  let c0 := s.workChain c
  let bk := s.banks c0
  let (disp, swap) := (c.t.calls[c.t.callNo]?).getD (now, c0.swap)
  let c1 := if c0.owed then { c0.reset (bk.of c0.live).stages with owed := false } else c0
  let b := s.in0 c.l c.t c.w c.node
  let (r, out) := ({ c1 with swap := swap } : Chain).call bk b disp
  let c2 := { r.ch with swap := swapLeft swap c0.swap r.ch.swap }
  let w1 : Work := { c.w with med := { c.w.med with chains := kset c.w.med.chains c.n c2 }, outs := kset c.w.outs c.n out }
  let h := c0.eng
  let s1 := (((s.chainBegun c.l c.n c0).setTask c.i (c.done w1 1 e)).bump (R.FCE_CALL_CNT e)).bumpBy (R.FCE_FOREIGN_CNT e) (b2n (e != h))
  let s2 := (s1.bumpBy (R.FCE_SAT_CNT e) r.sat).bumpBy (R.FCE_SUPPR_CNT e) r.u
  let s3 := if r.sat = 0 then s2 else s2.raise (R.FCE_EVT e) 1
  let s4 := ((s3.bumpBy (R.FCE_SWAP_CNT h) r.nSwap).bumpBy (R.FCE_FADE_CNT h) r.nFade).bumpBy (R.FCE_RESET_CNT h) (b2n c0.owed)
  let s5 := if r.nLate = 0 then s4 else (s4.bumpBy (R.FCE_LATE_CNT h) r.nLate).raise (R.FCE_EVT h) 2
  let s6 := if r.nDefer = 0 then s5 else (s5.bumpBy (R.FCE_DEFER_CNT h) r.nDefer).raise (R.FCE_EVT h) 4
  let s7 := if r.nLate = 0 then s6 else (s6.bumpBy R.SWT_LATE_CNT r.nLate).raise R.SWT_EVT 8
  s7.engWork e r.mac

/-- Run a canceller call on an engine (R284-R306, R309). -/
def State.eceRun (s : State) (c : CallAt) (e : Nat) : State :=
  let x := s.leg c.l
  let w := wOf c.node.rate
  let units := (s.legTmpl c.l).slotUnits x.cfg.echo.tail
  let zero := zeroBlock c.t.b c.node.rate (perFrame c.node.rate x.f) false
  let sin := (s.inBlock c.l c.t c.w c.node.in0).getD zero
  let rin := (s.inBlock c.l c.t c.w c.node.in1).getD zero
  let e0 := c.w.med.echo.getD (EchoSt.init c.l)
  let o := echoCall x.cfg.echo (units * 64) w rin sin e0
  let w1 : Work := { c.w with med := { c.w.med with echo := some o.e }, outs := kset c.w.outs c.n o.b }
  let s1 := ((s.echoBegun c.l).setTask c.i (c.done w1 2 e)).bump (R.ECE_CALL_CNT e)
  let s2 := ((s1.bumpBy (R.ECE_HOLD_CNT e) (b2n o.held)).bumpBy (R.ECE_DT_CNT e) o.dtN).bumpBy (R.ECE_GAP_CNT e) (b2n o.gap)
  let s3 := (s2.bumpBy (R.ECE_RESET_CNT e) o.resets).bumpBy (R.ECE_BYPASS_CNT e) (b2n o.byp)
  let s4 := if o.align then (s3.bump (R.ECE_ALIGN_CNT e)).raise (R.ECE_EVT e) 2 else s3
  let s5 := if o.divN = 0 then s4 else (s4.bumpBy (R.ECE_DIVERGE_CNT e) o.divN).raise (R.ECE_EVT e) 4
  let s6 := if o.sat = 0 then s5 else (s5.bumpBy (R.ECE_SAT_CNT e) o.sat).raise (R.ECE_EVT e) 1
  s6.engWork (32 + e) (units * x.f)

/-! ### Calls at the engines (R277, R303; log entry 80) -/

/-- The call of a task that a number names, where it waits for an engine. -/
def State.callOf (s : State) (i : Nat) : Option CallAt :=
  match s.task i with
  | none => none
  | some t => match t.leg, t.work with
    | some l, some w => (s.engineNode l t w).map fun (n, node, w1) => ⟨i, t, l, n, node, w1⟩
    | _, _ => none

/-- A call ends: the engine has run it, and it leaves the engine. -/
def State.callRun (s : State) (q : EngCall) : State :=
  let s1 := s.dropCall q.task
  match s1.callOf q.task with
  | none => s1
  | some c => if q.eng < 32 then s1.fceRun c q.eng q.disp else s1.eceRun c (q.eng - 32)

/-- The call of a task ends, after the calls that came to its engine before it (R303). -/
def State.callEnd (s : State) (i : Nat) : State :=
  match s.engQ.find? fun q => q.task == i with
  | none => s
  | some x => (((s.engQ.filter fun q => q.eng == x.eng).takeWhile fun q => q.task != i) ++ [x]).foldl (fun t q => t.callRun q) s

/-- A core goes on: the call that its task waits for has ended. -/
def State.callsEnd (s : State) (core : Nat) : State := match s.running core with | some (i, _) => s.callEnd i | none => s

/-- A call goes to an engine (R277, R303), and into the log (R409). -/
def State.callTo (s : State) (k : Nat) (c : CallAt) (swap : Option Swap) : State :=
  ({ s with engQ := s.engQ ++ [⟨k, c.i, s.loc⟩] } : State).setTask c.i (c.logged s.loc swap)

/-- A slice on an engine is aborted, where a call needs that engine (R303, R508). -/
def State.cutFor (s : State) (cls e : Nat) (cut : Bool) : State :=
  if cut then (match s.sliceOn cls e with | some r => s.cutSlice r 1 | none => s) else s

/-- FCE_CALL (R246): the core's task calls the engine that R246 chooses. -/
def execFceCall (core : Fin 128) (eng : Fin 32) (s : State) : Host.Outcome State Fault Refusal :=
  let s1 := s.callsEnd core.val
  .next (match s1.callAt core.val with
    | none => s
    | some c =>
      match s1.fceFor core.val (s1.workChain c).eng c.t.notEng with
      | some (e, cut) => if c.node.ty = 3 ∧ e = eng.val then (s1.cutFor 1 e cut).callTo e c (s1.workChain c).swap else s
      | none => s)

/-- ECE_CALL (R303): the core's task calls the engine that R303 chooses. -/
def execEceCall (core : Fin 128) (eng : Fin 32) (s : State) : Host.Outcome State Fault Refusal :=
  let s1 := s.callsEnd core.val
  .next (match s1.callAt core.val with
    | none => s
    | some c =>
      match s1.eceFor core.val c.t.notEng with
      | some (e, cut) =>
        if c.node.ty = 4 ∧ e = eng.val then
          let s3 := ((s1.cutFor 2 e cut).callTo (32 + e) c none).bumpBy (R.ECE_REMOTE_CNT e) (b2n (e / 4 != core.val / 16))
          s3.setFld (R.ECE_QUEUE_PEAK e) (max (s3.queued (32 + e)) (s3.fld (R.ECE_QUEUE_PEAK e)))
        else s
      | none => s)

/-- ENGINE_PARITY (R283, R304, R403): a parity error ends the call that the core's task waits for. -/
def execEngineParity (core : Fin 128) (s : State) : Host.Outcome State Fault Refusal :=
  let k := core.val
  .next (match (s.running k).bind fun r => s.engQ.find? fun q => q.task == r.1 with
    | none => s
    | some q =>
      if q.eng < 32 then (s.bump (R.FCE_PARITY_CNT q.eng)).faultAt k q.task 5 (fceUnit q.eng) 0
      else (s.bump (R.ECE_PARITY_CNT (q.eng - 32))).faultAt k q.task 5 (eceUnit (q.eng - 32)) 0)

/-- A task that the Work deadline cancels loses its call, which counts at the engine that held it (R277, R304). -/
def State.callCancel (s : State) (i : Nat) : State :=
  match s.engQ.find? fun q => q.task == i with
  | none => s
  | some q =>
    if q.eng < 32 then (s.bump (R.FCE_DEADLINE_CNT q.eng)).raise (R.FCE_EVT q.eng) 0x10
    else (s.bump (R.ECE_DEADLINE_CNT (q.eng - 32))).raise (R.ECE_EVT (q.eng - 32)) 0x10

/-! ### TASK_DONE (R342, R346, R357) -/

/-- What the slot of a leg's frame holds once its task is DONE: kind (0 voice, 1 SID, 2 nothing to send), instant, payload; nothing
where the template has no ENCODE node. -/
def State.slotFrames (s : State) (l : Nat) (w : Work) : List (Nat × Nat × Bool × Bytes) :=
  match findIx Node.isEnc (s.legTmpl l).nodes with
  | none => []
  | some i =>
    let at_ := match kget w.outs i with | some b => b.at_ | none => s.swt.bT
    [(if w.noTx then 2 else if w.encSid then 1 else 0, at_, false, w.frame)]

/-- A media task is DONE: its slot is filled, its work waits for Emit (R342, R357, R416); a replay counts as done (R413). -/
def State.mediaDone (s : State) (i : Nat) (t : Task) (l core : Nat) (w : Work) : State :=
  let s1 := s.giveFrame i
  let s2 := s1.setTask i { t with st := .done, core := none, work := some w }
  let s3 := s2.setLeg l ((s2.leg l).fillFrame false (s2.slotFrames l w))
  if t.kind = 1 then (s3.bump R.FRP_REPLAY_OK_CNT).settleFaults i 0 core else s3

/-- The task that a core runs completes, and the core takes its next (R342, R346). A media task completes once its engine calls have
all been made; one whose completion comes at or after the instant of the Work deadline waits for it to be cancelled (R354). A PARCEL task delivers
its blocks (R436). -/
def State.taskEnd (s : State) (c : Nat) : State :=
  let s0 := s.callsEnd c
  match s0.running c with
    | none => s
    | some (i, t) =>
      match t.leg with
      | some l =>
        if t.kind ≤ 1 then
          match t.work with
          | none => s
          | some w =>
            if (s0.engineNode l t w).isSome ∨ s0.pastDeadline then s
            else (s0.mediaDone i t l c (s0.runNodes l t 25 w)).coreTake c
        else ((s.giveFrame i).freeTask i).coreTake c
      | none =>
        let s1 := if t.kind = 2 then s.unpack t.data else s
        (((s1.giveFrame i).freeTask i).bpRelease).coreTake c

/-- TASK_DONE (R342, R361): what the producers of SYS tasks have created gets its entries; the task that the core runs completes; held
creations take the entry it gave back. -/
def execTaskDone (core : Fin 128) (made : List SysMake) (s : State) : Host.Outcome State Fault Refusal :=
  .next ((made.foldl (fun t m => t.makeSys m) s).taskEnd core.val).sysFreed

/-! ### Enables and registers of the engines (R17, R281, R282, R307, R308, R599) -/

/-- A disable of an engine is held during its start, or no longer (R18). -/
def State.holdDis (s : State) (u : Nat) (on : Bool) : State :=
  { s with engDis := if on then (if s.engDis.contains u then s.engDis else u :: s.engDis) else s.engDis.filter (· != u) }

/-- A filter chain engine as a function of R17. -/
def State.fceFn (s : State) (e : Nat) : Fn := ⟨s.fceSt e, s.flag (R.FCE_STAT_PEND_EN e), s.engDis.contains e⟩

/-- An echo engine as a function of R17. -/
def State.eceFn (s : State) (e : Nat) : Fn := ⟨s.eceSt e, s.flag (R.ECE_STAT_PEND_EN e), s.engDis.contains (32 + e)⟩

/-- A filter chain engine's function state becomes `f`, by a fault or not, and the transition is reported (R18-R20). -/
def State.setFceFn (s : State) (e : Nat) (f : Fn) (fault : Bool) : State :=
  let t := ((s.setFld (R.FCE_STAT_STATE e) f.st.code).setFld (R.FCE_STAT_PEND_EN e) (b2n f.pend)).holdDis e f.dis
  if fault then t.reportFault (.fce e) (s.fceSt e) f.st else t.report (.fce e) (s.fceSt e) f.st

/-- An echo engine's function state becomes `f`, by a fault or not, and the transition is reported (R18-R20). -/
def State.setEceFn (s : State) (e : Nat) (f : Fn) (fault : Bool) : State :=
  let t := ((s.setFld (R.ECE_STAT_STATE e) f.st.code).setFld (R.ECE_STAT_PEND_EN e) (b2n f.pend)).holdDis (32 + e) f.dis
  if fault then t.reportFault (.ece e) (s.eceSt e) f.st else t.report (.ece e) (s.eceSt e) f.st

/-- FCE_CFG_EN_WRITE (R18, R599): a write that changes EN asks for the enable or the disable; an enable in FAILED is refused. -/
def execFceCfgEnWrite (e : Fin 16) (v : Word) (s : State) : Host.Outcome State Fault Refusal :=
  let en := v.getLsbD 0
  .next (if en = s.flag (R.FCE_CFG_EN e.val) ∨ (s.fceFn e.val).refuses en then s
    else (s.setFld (R.FCE_CFG_EN e.val) (b2n en)).setFceFn e.val ((s.fceFn e.val).request en) false)

/-- ECE_CFG_EN_WRITE (R18, R599). -/
def execEceCfgEnWrite (e : Fin 32) (v : Word) (s : State) : Host.Outcome State Fault Refusal :=
  let en := v.getLsbD 0
  .next (if en = s.flag (R.ECE_CFG_EN e.val) ∨ (s.eceFn e.val).refuses en then s
    else (s.setFld (R.ECE_CFG_EN e.val) (b2n en)).setEceFn e.val ((s.eceFn e.val).request en) false)

/-- The starts and stops of a filter chain engine that a tick completes: a stop once its calls have ended (R18; log entry 70). -/
def State.fceTick (s : State) (e : Nat) : State :=
  match s.fceSt e with
  | .starting => s.setFceFn e (s.fceFn e).started false
  | .stopping => if s.queued e = 0 then s.setFceFn e (s.fceFn e).stopped false else s
  | _ => s

/-- The starts and stops of an echo engine that a tick completes (R18; log entry 70). -/
def State.eceTick (s : State) (e : Nat) : State :=
  match s.eceSt e with
  | .starting => s.setEceFn e (s.eceFn e).started false
  | .stopping => if s.queued (32 + e) = 0 then s.setEceFn e (s.eceFn e).stopped false else s
  | _ => s

/-- The registers of the filter chain engines that mirror state. -/
def fceView (s : State) (i2c : Bool) (a : Nat) : Option Nat :=
  let e := (a - 0x70000) / 0x1000
  if a = R.FCE_STAT e then some (putBit (s.reg a) 5 (s.underTest 1 e)) else fceSlotView s i2c a

/-- PEAK_CLR of a filter chain engine (R282). -/
def fceEffect (s : State) (a _old v : Nat) : State :=
  let e := (a - 0x70000) / 0x1000
  if a = R.FCE_CTL e ∧ tb v 0 then s.setFld (R.FCE_LOAD_PEAK e) (s.fld (R.FCE_LOAD_LAST e)) else s

/-- The registers of the echo engines that mirror state. -/
def eceView (s : State) (_i2c : Bool) (a : Nat) : Option Nat :=
  let e := (a - 0x80000) / 0x800
  if a = R.ECE_STAT e then some (putBit (s.reg a) 5 (s.underTest 2 e))
  else if a = R.ECE_QUEUE e then some (putBits (s.reg a) 15 0 (s.queued (32 + e)))
  else if a = R.ECE_CTL e then some 0
  else none

/-- PEAK_CLR of an echo engine (R308). -/
def eceEffect (s : State) (a _old v : Nat) : State :=
  let e := (a - 0x80000) / 0x800
  if a = R.ECE_CTL e ∧ tb v 0 then
    (s.setFld (R.ECE_LOAD_PEAK e) (s.fld (R.ECE_LOAD_LAST e))).setFld (R.ECE_QUEUE_PEAK e) (s.queued (32 + e))
  else s

end Sys2Proof.Machine
end

