-- ==== Sys2Proof/Machine/Boot.lean ====
section
/-! DEFINITION. The part goes into reset, and a start begins (R523, R524, R551, R588). -/

namespace Sys2Proof.Machine

open Sys2Proof

/-- Held in reset: volatile state is as State.reset has it; the queue, the free counter, the straps and PRS stay, and the thermal pins are
low only after a thermal reset (R539). -/
def State.held (s : State) : State :=
  { State.reset with
    pending := s.pending, free := s.free, pins := { s.pins with thermN := !s.boot.hot, faultN := !s.boot.hot }, nv := s.nv, boot := { State.reset.boot with risen := s.boot.risen, hot := s.boot.hot } }

/-- Whether the pins let a start begin (R577, R588). -/
def Pins.run (p : Pins) : Bool := p.pwrgood && p.resetN && !p.testEn

/-- A device restart: a start of a cause begins (R551). -/
def State.restart (s : State) (cause : Nat) : State :=
  let t := s.held
  if s.pins.run then { t with mode := .starting, boot := { t.boot with cause := cause, risen := false } } else t

/-- Every session goes to STOPPING (R524, R562). -/
def State.stopAll (s : State) : State := s.qcp.sess.foldl (fun t p => if p.2.st ≠ .off then t.stopSess p.1 else t) s

/-- Whether the table of R523 allows a transition by a BIST command, or by JTAG. -/
def lcAllowed (jtag : Bool) (from_ dst : Nat) : Bool :=
  match from_, dst with
  | 0, 1 => jtag
  | 1, 2 => true
  | 2, 3 => !jtag
  | 1, 4 => true
  | 2, 4 => !jtag
  | 3, 4 => true
  | _, _ => false

/-- The effect of a life-cycle transition (R523), only ever one of the table: it stands from the next start; entering RMA clears the key store
at once, END holds no keys (R525), and both restart the part. Journal records up to here restore no key (R204). -/
def State.lcGo (s : State) (target : Nat) : State :=
  if lcAllowed true s.nv.lc target || lcAllowed false s.nv.lc target then
    let t : State := s.setNv { s.nv with lcNext := some target }
    if 3 ≤ target then (t.setNv { t.nv with hostKeys := [], mzKeys := [], keyLost := t.nv.recno + 1 }).restart 6
    else t
  else s

end Sys2Proof.Machine
end

