-- ==== Sys2Proof/Machine/Qcp.lean ====
section
/-! DEFINITION. The control protocol (R148-R192): acceptance of frames, sessions, muzzles and gates, replies and events,
the SESSION operations and the registers of the block. -/

namespace Sys2Proof.Machine

open Sys2Proof

/-! ### Tags and received frames (R148, R150, R151, R160) -/

/-- Whether the tag of a frame (its bytes after the EtherType) holds under a key (R148). -/
def tagOk (key b : Bytes) : Bool :=
  sub b 16 16 == (hmac256 key (b.take 16 ++ sub b 32 (num b 10 2))).take 16

/-- The frames of session 0 taken in the current whole TMU second (R150). -/
def State.openUsed (s : State) : Nat := if s.now / secI = s.qcp.openSec then s.qcp.openUsed else 0

/-- Take one from the allowance of session 0 (R150, R151). -/
def State.useOpen (s : State) : State := s.setQcp { s.qcp with openSec := s.now / secI, openUsed := s.openUsed + 1 }

/-- Whether the allowance of session 0 is spent. -/
def State.openSpent (s : State) : Bool := decide (s.fld R.QCP_CFG_OPEN_RATE ≤ s.openUsed)

/-- The operations that take bulk frames (R602): COEF_SET_LOAD, PATT_LOAD, RING_FEED, FW_LOAD. -/
def takesBulk (opcode : Nat) : Bool :=
  opcode == 0x0501 || opcode == 0x0901 || opcode == 0x0A05 || opcode == 0x0E01

/-- Whether a session's command of sequence `seq` still awaits bulk frames (R602). -/
def Session.awaits (x : Session) (seq : Nat) : Bool :=
  ((match x.bulk with | some b => b.seq == seq | none => false) ||
    x.ring.any (fun f => !f.bulk && f.more && f.seq == seq && takesBulk (f.fam * 256 + f.op))) &&
  !x.ring.any (fun f => f.bulk && f.seq == seq && !f.more)

/-- A frame of the reply cache sent again: the reply frame with DUP set and its tag made anew (R148, R160). -/
def dupFrame (key b : Bytes) : Bytes :=
  let h := b.take 1 ++ [byteOf (u8 b 1 ||| 0x10)] ++ sub b 2 14
  h ++ (hmac256 key (h ++ b.drop 32)).take 16 ++ b.drop 32

/-- A duplicate (R160, R163): the cached reply again, with its bulk frames when the result is at most 64 KiB. -/
def State.resend (s : State) (m seq : Nat) : State :=
  let x := s.sess m
  let t := s.bump R.QCP_DUP_CNT
  match x.replies.find? (fun r => r.seq == seq) with
  | none => t
  | some r => match r.frames with
    | [] => t
    | f :: fs => t.setSess m { x with out := x.out ++ dupFrame x.ks f :: (if r.size ≤ 65536 then fs else []) }

/-- A frame whose tag holds enters the command ring, when slots are free (R150, R152). -/
def State.toRing (s : State) (m : Nat) (f : CmdFrame) (adv : Bool) : State :=
  let x := s.sess m
  if 64 < x.cmdUsed + slotsOf f.payload.length then s.bump R.QCP_RING_FULL_CNT
  else
    let e := if adv then (x.expect + 1) % 2 ^ 32 else x.expect
    let t := (s.setSess m { x with ring := x.ring ++ [f], expect := e }).bump R.QCP_RX_CNT
    t.setReg (R.QCP_DB_CMD (m / 32)) (putBit (t.reg (R.QCP_DB_CMD (m / 32))) (m % 32) true)

/-- The sequence rules (R160, R602). A bulk frame that no command awaits and whose distance is 0 is out of sequence. -/
def State.bySeq (s : State) (m : Nat) (f : CmdFrame) : State :=
  let x := s.sess m
  let d := (f.seq + 2 ^ 32 - x.expect) % 2 ^ 32
  if f.bulk ∧ x.awaits f.seq then s.toRing m f false
  else if d = 0 ∧ f.bulk = false then s.toRing m f true
  else if 2 ^ 31 ≤ d ∧ 2 ^ 32 - d ≤ 16 then s.resend m f.seq
  else s.bump R.QCP_SEQ_CNT

/-- A frame of a session other than 0, whose session is known (R150, R156, R158). -/
def State.sessFrame (s : State) (m : Nat) (b : Bytes) : State :=
  let x := s.sess m
  if tagOk x.ks b = false then s.bump R.QCP_TAGFAIL_CNT
  else
    let f : CmdFrame := ⟨u8 b 0 % 16 == 4, tb (u8 b 1) 7, num b 4 4, u8 b 8, u8 b 9, sub b 32 (num b 10 2)⟩
    let t := s.renewLease m
    if x.st = .starting ∧ (f.bulk ∨ f.fam * 256 + f.op ≠ 0x0102 ∨ f.seq ≠ 1) then t.bump R.QCP_SEQ_CNT
    else t.bySeq m f

/-- A frame of session 0 (R150, R154): its key is named by byte 0 of its payload. -/
def State.openFrame (s : State) (p : Fin 8) (e : Eth) (b : Bytes) : State :=
  if s.openSpent then (s.bump R.QCP_OPEN_DROP_CNT).raise R.QCP_EVT 0x10
  else
    let t := s.useOpen
    let pl := sub b 32 (num b 10 2)
    match kget s.nv.hostKeys (u8 pl 0) with
    | none => t.bump R.QCP_TAGFAIL_CNT
    | some k =>
      if pl.isEmpty ∨ tagOk k.key b = false then t.bump R.QCP_TAGFAIL_CNT
      else
        let o : OpenReq := ⟨p, BitVec.ofNat 48 e.src, e.tags, BitVec.ofNat 32 (num b 4 4), tb (u8 b 1) 7, pl⟩
        (t.setQcp { t.qcp with opens := t.qcp.opens ++ [o] }).bump R.QCP_RX_CNT

/-- A reply of E_NO_SESSION: tag of zero, against the allowance of session 0 (R151). -/
def State.noSession (s : State) (p : Fin 8) (e : Eth) (b : Bytes) : State :=
  let t := s.bump R.QCP_NOSESS_CNT
  if t.openSpent then t
  else
    let h := be 1 0x12 ++ be 1 0 ++ sub b 2 8 ++ be 2 4 ++ be 4 s.dev
    t.useOpen.sendQcp p.val e.src e.tags (h ++ zeros 16 ++ be 2 St.noSession ++ be 2 0)

/-- The acceptance table of R150, first row that applies. -/
def State.qcpRx (s : State) (p : Fin 8) (f : Bytes) : State :=
  let e := parseEth f
  let b := f.drop e.off
  let num16 := num b 2 2
  let m := num16 % 256
  let x := s.sess m
  let cls := u8 b 0 % 16
  if b.length < 32 ∨ b.length < 32 + num b 10 2 ∨ u8 b 0 / 16 ≠ 1 ∨ (cls ≠ 1 ∧ cls ≠ 4) then s.bump R.QCP_MALFORM_CNT
  else if num b 12 4 % 4096 ≠ s.dev then s.bump R.QCP_DEVMISS_CNT
  else if num16 = 0 then
    if cls = 4 ∨ num b 8 2 ≠ 0x0101 then s.bump R.QCP_MALFORM_CNT else s.openFrame p e b
  else if (x.st ≠ .starting ∧ x.st ≠ .on) ∨ x.gen ≠ num16 / 256 ∨ x.port ≠ p.val ∨ x.mac ≠ e.src then s.noSession p e b
  else s.sessFrame m b

/-- QCP_FRAME_RX (R150): the oldest frame of the TC7 buffer of a port. -/
def execQcpFrameRx (p : Fin 8) (s : State) : Host.Outcome State Fault Refusal :=
  .next (match s.rxTake p.val 7 with
    | some (f, t) => t.qcpRx p f.bytes
    | none => s)

/-- OPEN_RATE_SECOND (R150): the allowance of session 0 is renewed at a whole TMU second. -/
def execOpenRateSecond (s : State) : Host.Outcome State Fault Refusal :=
  .next (if s.now / secI = s.qcp.openSec then s
    else s.setQcp { s.qcp with openSec := s.now / secI, openUsed := 0 })

/-! ### Opening, proving and losing sessions (R154-R159) -/

/-- The name of a session: generation and mailbox (R148). -/
def Session.num (x : Session) (m : Nat) : Nat := x.gen * 256 + m

/-- The lowest free mailbox that a role may use (R152, R154). -/
def State.freeMbox (s : State) (role : Nat) : Option Nat :=
  let lim := if role = 2 then 256 else 256 - s.fld R.QCP_CFG_ADMIN_RSV
  (List.range lim).find? fun m => decide ((s.sess m).st = .off)

/-- The sessions in a state. -/
def State.sessCount (s : State) (st : FnState) : Nat := (s.qcp.sess.filter fun p => decide (p.2.st = st)).length

/-- Answer a SESSION_OPEN: under the host key, on a session number (R154, R155). -/
def State.openReply (s : State) (o : OpenReq) (key : Bytes) (num st det : Nat) (rest : Bytes) : State :=
  s.sendQcp o.port.val o.mac.toNat o.tags
    (qcpFrame 2 0 num o.seq.toNat 0x0101 s.dev key (be 2 st ++ be 2 det ++ rest))

/-- Handling of a SESSION_OPEN with a valid tag (R154, R155, R553, R561, R602). -/
def State.openSession (s : State) (o : OpenReq) : State :=
  match kget s.nv.hostKeys (u8 o.payload 0) with
  | none => s
  | some k =>
    let full (t : State) : State :=
      ((t.openReply o k.key 0 St.busy 0 []).bump R.QCP_SESS_FULL_CNT).raise R.QCP_EVT 1
    match (if o.more then some 0 else lenIs 20 o.payload) with
    | some off => s.openReply o k.key 0 St.badLen off []
    | none =>
      if s.mode ≠ .service ∧ s.mode ≠ .recovery then s.openReply o k.key 0 St.busy 0 []
      else if s.mode = .recovery ∧ k.role ≠ 2 then s.openReply o k.key 0 St.auth 2 []
      else if 32 ≤ s.sessCount .starting then full s
      else match s.freeMbox k.role with
        | none => full s
        | some m =>
          let g := (s.sess m).gen % 255 + 1
          let np := s.drawBytes 16
          let nh := sub o.payload 4 16
          let ks := hmac256 k.key (be 4 0x51435053 ++ nh ++ np ++ be 2 (g * 256 + m))
          let x : Session := { Session.init with st := .starting, gen := g, keyId := u8 o.payload 0, role := k.role }
          let y : Session := { x with port := o.port.val, mac := o.mac.toNat, tags := o.tags, nh := nh, np := np, ks := ks }
          let t := (s.drawn.setSess m { y with lease := num o.payload 2 2, proveBy := s.loc + secI, expect := 1 }).report (.sess m) .off .starting
          t.openReply o k.key (g * 256 + m) St.ok 0 np

/-- An operation that is refused with E_STATE (R156). -/
def opRefused : OpDef :=
  { minRole := 0, jrnl := fun _ => false, badLen := fun _ => none, bulk := false, chk := fun _ _ _ => .inState,
    app := fun _ _ s _ => Done.ok s }

/-- A SESSION_OPEN that no QCP_FRAME_RX took is taken as one takes it, its tag valid (R150, R192; log entry 7). -/
def State.openNow (s : State) (o : OpenReq) : State :=
  if s.openSpent then (s.bump R.QCP_OPEN_DROP_CNT).raise R.QCP_EVT 0x10
  else if khas s.nv.hostKeys (u8 o.payload 0) ∧ o.payload ≠ [] then (s.useOpen.bump R.QCP_RX_CNT).openSession o
  else s.useOpen.bump R.QCP_TAGFAIL_CNT

/-- SESSION_OPEN (R154, R156): the oldest valid open request, or a wrong one inside a session. -/
def execSessionOpen (o : OpenSrc) (s : State) : Host.Outcome State Fault Refusal :=
  .next (match o with
    | .inSession q => runOp opRefused 0x0101 q s
    | .open0 r =>
      if s.qcp.jrnl.isSome then s
      else match s.qcp.opens with
        | [] => if s.mode = .reset then s else s.openNow r
        | h :: rest => if h = r then (s.setQcp { s.qcp with opens := rest }).openSession r else s)

/-- The lease granted (R158). -/
def State.grant (s : State) (req : Nat) : Nat :=
  let mx := s.fld R.QCP_CFG_LEASE_MAX
  if req = 0 then mx else min (max req 10) mx

/-- A session that reaches ON gets its entry in the fate table of 1,024 sessions (R423). -/
def State.newFate (s : State) (m : Nat) : State :=
  let x := s.sess m
  s.setNv { s.nv with fates := s.nv.fates.drop (s.nv.fates.length - 1023) ++ [(⟨s.reg R.FRP_BOOT, x.num m, x.keyId, 1, 0⟩ : Fate)] }

/-- A SESSION_PROVE in a session in STARTING (R154, R156): a wrong proof is answered under K and the session ends. -/
def State.prove (s : State) (m : Nat) (more : Bool) (p : Bytes) : State :=
  let x := s.sess m
  let k := (kgetD s.nv.hostKeys x.keyId ⟨[], 0⟩).key
  if more then s.reply m 1 0x0102 St.badLen 0 false []
  else if p.length ≠ 32 then s.reply m 1 0x0102 St.badLen (min p.length 32) false []
  else if p ≠ hmac256 k (be 4 0x51435031 ++ x.nh ++ x.np ++ be 2 (x.num m)) then
    (s.sendQcp x.port x.mac x.tags (qcpFrame 2 0 (x.num m) 1 0x0102 s.dev k (be 2 St.auth ++ be 2 0))).closeSess m
  else
    let g := s.grant x.lease
    let t := s.setSess m { x with st := .on, lease := g, leaseEnd := s.loc + g * secI }
    ((t.report (.sess m) .starting .on).newFate m).reply m 1 0x0102 St.ok 0 false (be 2 g ++ be 1 x.role)

/-- SESSION_PROVE (R154, R156). -/
def execSessionProve (q : Req) (s : State) : Host.Outcome State Fault Refusal :=
  let m := q.mbox.val
  let x := s.sess m
  .next (if x.st = .starting then
    if q.seq.toNat ≠ 1 ∨ s.qcp.jrnl.isSome then s
    else match x.ring with
      | [] => if x.expect = 1 then ((s.setSess m { x with expect := 2 }).bump R.QCP_RX_CNT).prove m q.more q.payload else s
      | f :: r =>
        if f.bulk = false ∧ f.seq = 1 ∧ f.more = q.more ∧ f.payload = q.payload then
          ((s.setSess m { x with ring := r }).unbell m).prove m q.more q.payload
        else s
  else runOp opRefused 0x0102 q s)

/-- SESSION_PROVE_TIMEOUT (R156). -/
def execSessionProveTimeout (mbox : Fin 256) (s : State) : Host.Outcome State Fault Refusal :=
  let x := s.sess mbox.val
  .next (if x.st = .starting ∧ x.proveBy ≤ s.loc ∧ x.ring.isEmpty then s.closeSess mbox.val else s)

/-- LEASE_EXPIRY (R158). -/
def execLeaseExpiry (mbox : Fin 256) (s : State) : Host.Outcome State Fault Refusal :=
  let x := s.sess mbox.val
  .next (if x.st = .on ∧ x.leaseEnd ≤ s.loc then
    ((s.stopSess mbox.val).bump R.QCP_LEASE_EXP_CNT).raise R.QCP_EVT 2
  else s)

/-! ### Muzzles and gates (R178-R189) -/

/-- The gate number of a kind and index of R189. -/
def gateCode (kind ix : Nat) : Nat :=
  match kind with
  | 0 => ix | 1 => 64 | 2 => 65 | 3 => 66 | _ => 128 + ix

/-- The gates that bytes 32-47 of a muzzle name (R178). -/
def gatesNamed (b : Bytes) : List Nat :=
  let f := u8 b 0
  let cl := (List.range 56).filter fun i => tb f 0 && tb (u8 b 2) (i / 7) && tb (u8 b 3) (i % 7)
  cl.map (fun i => i / 7 * 8 + i % 7) ++
    (if tb f 1 then [64] else []) ++ (if tb f 2 then [65] else []) ++ (if tb f 3 then [66] else []) ++
    ((List.range 64).filter fun g => tb f 4 && tb (num b 4 8) g).map (128 + ·)

/-- The offset of the first fault of muzzle bytes 32-47 (R179, R184); `keyByte` says whether byte 33 counts. -/
def muzzleFault (b : Bytes) (keyByte : Bool) : Option Nat :=
  let f := u8 b 0
  if 32 ≤ f ∨ f = 0 then some 0
  else if keyByte ∧ 8 ≤ u8 b 1 then some 1
  else if tb f 0 ∧ u8 b 2 = 0 then some 2
  else if 128 ≤ u8 b 3 ∨ (tb f 0 ∧ u8 b 3 = 0) then some 3
  else if tb f 4 ∧ num b 4 8 = 0 then some 4
  else none

/-- The format check of a muzzle frame (R178, R179). -/
def muzzleFormat (b : Bytes) : Bool :=
  decide (48 ≤ b.length) && u8 b 0 == 0x1F && num b 1 3 == 0 && num b 10 2 == 0x10 && decide (num b 12 4 < 4096) &&
    num b 24 8 == 0 && (muzzleFault (sub b 32 16) true).isNone

/-- The release of a gate that a muzzle names (R183): hold, or the later of its release and the muzzle's. -/
def mergeRelease (old : Option GateSt) (new : Option Inst) (now : Nat) : Option Inst :=
  match new with
  | none => none
  | some r => match old with
    | none => some r
    | some g => match g.release with
      | none => none
      | some o => if o ≤ now then some r else some (max o r)

/-- Close a gate from local time `cl` on (R181, R183). -/
def State.closeGate (s : State) (code cl : Nat) (rel : Option Inst) : State :=
  let old := kget s.qcp.gates code
  let live := match old with | some g => (match g.release with | none => true | some o => decide (s.now < o)) | none => false
  let c := match old with | some g => if live then min g.closeLoc cl else cl | none => cl
  s.setQcp { s.qcp with gates := kset s.qcp.gates code ⟨c, mergeRelease old rel s.now⟩, mzDirty := true }

/-- The list entry of a gate (R189). -/
def gateEntry (code : Nat) (rel : Option Inst) : Bytes :=
  let (k, i) := if code < 64 then (0, code) else if code < 128 then (code - 63, 0) else (4, code - 128)
  be 1 k ++ be 1 i ++ be 2 0 ++ (match rel with | some t => timeBytes t | none => List.replicate 12 0xFF)

/-- Open gates that are closed, and tell the subscribers (R184), at most 90 entries to an event so that each fits its frame. -/
def State.openGates (s : State) (codes : List Nat) : State :=
  let shut := codes.filter fun c => khas s.qcp.gates c
  let ents := shut.map fun c => gateEntry c ((kget s.qcp.gates c).bind (·.release))
  let t := s.setQcp { s.qcp with gates := shut.foldl kdel s.qcp.gates, mzDirty := s.qcp.mzDirty || !shut.isEmpty }
  (chunks (16 * 90) ents.length (ents.flatMap id)).foldl (fun u d => u.eventAll 31 0x01F2 4 d) t

/-- A muzzle passes its checks (R179, R181, R183). -/
def State.muzzleAccept (s : State) (b : Bytes) (at_ : Inst) (loc : Nat) : State :=
  let k := u8 b 33
  let key := kgetD s.nv.mzKeys k ⟨[], 0⟩
  let s1 := s.setNv { s.nv with mzKeys := kset s.nv.mzKeys k { key with ctr := num b 4 6 } }
  let s2 := (s1.setQcp { s1.qcp with mzDirty := true }).bump R.QCP_MZ_ACC_CNT
  let r := num b 44 4
  let rel := if r = 0 then none else some (at_ + nsI 200 + nsI (r * 1000000))
  let s3 := (gatesNamed (sub b 32 16)).foldl (fun t c => t.closeGate c (loc + nsI 200) rel) s2
  (s3.raise R.QCP_EVT 4).eventAll 31 0x01F1 4 (be 1 k ++ zeros 3 ++ be 8 (num b 4 6) ++ sub b 32 16)

/-- A muzzle that fails a check after the format check. -/
def State.muzzleReject (s : State) (cnt : Nat) : State := (s.bump cnt).raise R.QCP_EVT 8

/-- MUZZLE_FRAME (R179): the checks in order, the first failure dropping the frame. -/
def execMuzzleFrame (s : State) : Host.Outcome State Fault Refusal :=
  .next (match s.qcp.mzIn with
    | [] => s
    | z :: rest =>
      let t := s.setQcp { s.qcp with mzIn := rest }
      let b := z.bytes
      let d := num b 12 4
      let k := u8 b 33
      if muzzleFormat b = false then t.bump R.QCP_MZ_FMT_CNT
      else if ¬ (d = s.dev ∨ (d = 0xFFF ∧ s.flag R.QCP_MZ_CFG_BCAST_EN)) then t.muzzleReject R.QCP_MZ_DEV_CNT
      else match kget s.nv.mzKeys k with
        | none => t.muzzleReject R.QCP_MZ_KEY_CNT
        | some key =>
          if tb (s.fld R.QCP_MZ_KEYS_EN) k = false then t.muzzleReject R.QCP_MZ_KEY_CNT
          else if num b 4 6 ≤ key.ctr then t.muzzleReject R.QCP_MZ_CTR_CNT
          else if num b 16 8 ≠ (sipHash24 key.key (b.take 16 ++ sub b 32 16)).toNat then t.muzzleReject R.QCP_MZ_TAG_CNT
          else t.muzzleAccept b z.at_ z.loc)

/-- GATE_RELEASE (R183): a gate whose release instant has come opens. -/
def execGateRelease (g : Gate) (s : State) : Host.Outcome State Fault Refusal :=
  .next (match kget s.qcp.gates (Gate.code g) with
    | some x => match x.release with
      | some r => if r ≤ s.now then s.openGates [Gate.code g] else s
      | none => s
    | none => s)

/-- Write the key counters and the closed gates to PRS (R185). -/
def State.recordMuzzle (s : State) : State :=
  (s.setNv { s.nv with mzRec := (s.nv.mzKeys.map fun p => (p.1, p.2.ctr), s.qcp.gates.map (·.1)) }).setQcp
    { s.qcp with mzDirty := false }

/-- MUZZLE_STATE_RECORD (R185). -/
def execMuzzleStateRecord (s : State) : Host.Outcome State Fault Refusal :=
  .next (if s.qcp.mzDirty then s.recordMuzzle else s)

/-- The gates recorded as closed are closed again with release hold, and the recorded counters return (R185). -/
def State.recloseMuzzle (s : State) : State :=
  let s1 := s.setNv { s.nv with mzKeys := s.nv.mzKeys.map fun p =>
    (p.1, match s.nv.mzRec.1.find? (·.1 == p.1) with | some c => { p.2 with ctr := c.2 } | none => p.2) }
  s1.nv.mzRec.2.foldl (fun t c => t.closeGate c t.loc none) s1

/-! ### Replies and events leave (R157, R162, R174-R176) -/

/-- Write waiting reply frames to the reply ring while it has room (fuel: frames) (R162). -/
def Session.fillRing (x : Session) : Nat → Session
  | 0 => x
  | k + 1 =>
    match x.out with
    | [] => x
    | f :: r =>
      if x.rplUsed + cdiv f.length 256 ≤ 64 then Session.fillRing { x with out := r, rplRing := x.rplRing ++ [f] } k else x

/-- Whether TC7 of a port has room for a frame of `n` bytes. -/
def State.tc7Room (s : State) (p n : Nat) : Bool := decide (txBytes (kgetD (s.port p).txq 7 []) + n ≤ 131072)

/-- Send the frames of a reply ring while TC7 has room (fuel: frames). -/
def State.sendRing (s : State) (m : Nat) : Nat → State
  | 0 => s
  | k + 1 =>
    let x := s.sess m
    match x.rplRing with
    | [] => s
    | f :: r =>
      if s.tc7Room x.port (f.length + 18 + 4 * x.tags.length) then
        ((s.setSess m { x with rplRing := r }).sendQcp x.port x.mac x.tags f).sendRing m k
      else s

/-- Every session opened under a host key stops (R187). -/
def State.stopKey (s : State) (k : Nat) : State :=
  s.qcp.sess.foldl (fun t p => if p.2.keyId = k ∧ p.2.st ≠ .off then t.stopSess p.1 else t) s

/-- What takes effect once the reply has left (R159, R187, R524): the close, the change of a host key, a life-cycle
transition. -/
def State.afterReply (s : State) (m op : Nat) (b : Bytes) : State :=
  match op with
  | 0x0104 => s.stopSess m
  | 0x0108 => (s.setNv { s.nv with hostKeys := kset s.nv.hostKeys (u8 b 0) ⟨sub b 4 32, u8 b 1⟩ }).stopKey (u8 b 0)
  | 0x0109 => (s.setNv { s.nv with hostKeys := kdel s.nv.hostKeys (u8 b 0) }).stopKey (u8 b 0)
  | 0x0C05 => s.stopAll.lcGo (u8 b 0)
  | 0x1001 => (s.setNv { s.nv with fails := 0, fullNext := u8 b 0 == 2, recNext := u8 b 0 == 3 }).restart 5
  | _ => s

/-- Carry out what waits for the reply, once no frame of it waits; a session in STOPPING, whose reply is discarded, then reaches OFF. -/
def State.settle (s : State) (m : Nat) : State :=
  let x := s.sess m
  match x.after with
  | some (op, b) =>
    if x.st = .stopping ∨ (x.out.isEmpty ∧ x.rplRing.isEmpty) then
      let t := (s.setSess m { x with after := none }).afterReply m op b
      if (t.sess m).st = .stopping then t.closeSess m else t
    else s
  | none => s

/-- REPLY_SEND (R162). -/
def execReplySend (mbox : Fin 256) (s : State) : Host.Outcome State Fault Refusal :=
  let m := mbox.val
  let x := s.sess m
  .next (if x.st = .on ∨ x.st = .starting then
    let s1 := s.setSess m (x.fillRing x.out.length)
    (s1.sendRing m (s1.sess m).rplRing.length).settle m
  else s.settle m)

/-- QCP_DB_RPL (R191): the queued replies of a mailbox are sent. -/
def execQcpDbRpl (v : Word) (s : State) : Host.Outcome State Fault Refusal :=
  let m := v.toNat % 256
  .next (if (s.sess m).st = .on ∨ (s.sess m).st = .starting then (s.sendRing m (s.sess m).rplRing.length).settle m else s.settle m)

/-- EVENT_SEND (R175, R176): the oldest event leaves; into the space, after a loss, one EVT_OVERFLOW is queued. -/
def execEventSend (mbox : Fin 256) (s : State) : Host.Outcome State Fault Refusal :=
  let m := mbox.val
  let x := s.sess m
  .next (match x.evq with
    | [] => s
    | e :: r =>
      if x.st = .on ∧ s.tc7Room x.port (66 + 4 * x.tags.length + e.data.length) then
        let n := (x.evSeq + 1) % 2 ^ 32
        let y := if x.evLost = 0 then { x with evq := r }
          else { x with evq := r ++ [⟨0x01F0, s.now, 4, be 4 x.evLost, n⟩], evSeq := n, evLost := 0 }
        (s.setSess m y).sendQcp x.port x.mac x.tags
          (qcpFrame 3 0 (x.num m) e.seq e.op s.dev x.ks (timeBytes e.at_ ++ be 2 e.block ++ be 2 0 ++ e.data))
      else s)

/-! ### SESSION operations (R158, R159, R166, R174, R184-R189) -/

/-- Whole seconds of lease left (R158). -/
def State.leaseLeft (s : State) (m : Nat) : Nat :=
  let x := s.sess m
  if x.st = .on then (x.leaseEnd - s.loc) / secI else 0

/-- SESSION_KEEPALIVE (R158). -/
def opSessionKeepalive : OpDef :=
  { minRole := 0, jrnl := fun _ => false, badLen := lenIs 0, bulk := false, chk := fun _ _ _ => .ok [],
    app := fun c _ s _ => Done.res s (be 2 (s.leaseLeft c.mbox) ++ be 2 0) }

/-- Owe an effect that waits for the reply. -/
def State.owe (s : State) (m op : Nat) (b : Bytes) : State := s.setSess m { s.sess m with after := some (op, b) }

/-- SESSION_CLOSE (R159). -/
def opSessionClose : OpDef :=
  { minRole := 0, jrnl := fun _ => false, badLen := lenIs 0, bulk := false, chk := fun _ _ _ => .ok [],
    app := fun c _ s b => Done.ok (s.owe c.mbox 0x0104 b) }

/-- SESSION_SUBSCRIBE (R174). -/
def opSessionSubscribe : OpDef :=
  { minRole := 0, jrnl := fun _ => false, badLen := lenIs 4, bulk := false, chk := fun _ _ _ => .ok [],
    app := fun c _ s b => Done.ok (s.setSess c.mbox { s.sess c.mbox with mask := num b 0 4 }) }

/-- SESSION_KEY_SET (R166, R187): ids 0-15 and the three roles of R153. -/
def opSessionKeySet : OpDef :=
  { minRole := 2, jrnl := fun _ => false, badLen := lenIs 36, bulk := false,
    chk := fun _ _ b => Chk.first [(decide (15 < u8 b 0), .at_ 0), (decide (2 < u8 b 1), .at_ 1)] (.ok []),
    app := fun c _ s b => Done.ok (s.owe c.mbox 0x0108 b) }

/-- SESSION_KEY_CLEAR (R166, R187). -/
def opSessionKeyClear : OpDef :=
  { minRole := 2, jrnl := fun _ => false, badLen := lenIs 4, bulk := false,
    chk := fun _ _ b => if 15 < u8 b 0 then .at_ 0 else .ok [],
    app := fun c _ s b => Done.ok (s.owe c.mbox 0x0109 b) }

/-- UNMUZZLE (R184). -/
def opUnmuzzle : OpDef :=
  { minRole := 1, jrnl := fun _ => false, badLen := lenIs 16, bulk := false,
    chk := fun _ _ b => match muzzleFault b false with | some off => .at_ off | none => .ok [],
    app := fun _ _ s b => Done.ok (s.openGates (gatesNamed b)) }

/-- MUZZLE_KEY_SET (R186). -/
def opMuzzleKeySet : OpDef :=
  { minRole := 2, jrnl := fun _ => false, badLen := lenIs 20, bulk := false,
    chk := fun _ _ b => if 7 < u8 b 0 then .at_ 0 else .ok [],
    app := fun _ _ s b =>
      let t := s.setNv { s.nv with mzKeys := kset s.nv.mzKeys (u8 b 0) ⟨sub b 4 16, 0⟩ }
      Done.ok (t.setQcp { t.qcp with mzDirty := true }) }

/-- SESSION_LIST (R166): 8 bytes for each session in ON; what they hold is not stated, so they are free (log entry 14). -/
def opSessionList : OpDef :=
  { minRole := 0, jrnl := fun _ => false, badLen := lenIs 0, bulk := false, chk := fun _ _ _ => .ok [],
    app := fun _ _ s _ => Done.res s.drawn (s.drawBytes (8 * s.sessCount .on)) }

/-- MUZZLE_STATUS (R189). -/
def opMuzzleStatus : OpDef :=
  { minRole := 0, jrnl := fun _ => false, badLen := lenIs 0, bulk := false, chk := fun _ _ _ => .ok [],
    app := fun _ _ s _ => Done.res s ((s.qcp.gates.filter fun g => g.2.closedAt s.loc s.now).flatMap fun g =>
      gateEntry g.1 g.2.release) }

/-- SESSION_KEEPALIVE. -/
def execSessionKeepalive (q : Req) (s : State) : Host.Outcome State Fault Refusal := .next (runOp opSessionKeepalive 0x0103 q s)

/-- SESSION_CLOSE. -/
def execSessionClose (q : Req) (s : State) : Host.Outcome State Fault Refusal := .next (runOp opSessionClose 0x0104 q s)

/-- SESSION_SUBSCRIBE. -/
def execSessionSubscribe (q : Req) (s : State) : Host.Outcome State Fault Refusal := .next (runOp opSessionSubscribe 0x0105 q s)

/-- SESSION_KEY_SET. -/
def execSessionKeySet (q : Req) (s : State) : Host.Outcome State Fault Refusal := .next (runOp opSessionKeySet 0x0108 q s)

/-- SESSION_KEY_CLEAR. -/
def execSessionKeyClear (q : Req) (s : State) : Host.Outcome State Fault Refusal := .next (runOp opSessionKeyClear 0x0109 q s)

/-- UNMUZZLE. -/
def execUnmuzzle (q : Req) (s : State) : Host.Outcome State Fault Refusal := .next (runOp opUnmuzzle 0x0111 q s)

/-- MUZZLE_KEY_SET. -/
def execMuzzleKeySet (q : Req) (s : State) : Host.Outcome State Fault Refusal := .next (runOp opMuzzleKeySet 0x0112 q s)

/-- SESSION_LIST. -/
def execSessionList (q : Req) (s : State) : Host.Outcome State Fault Refusal := .next (runOp opSessionList 0x0181 q s)

/-- MUZZLE_STATUS. -/
def execMuzzleStatus (q : Req) (s : State) : Host.Outcome State Fault Refusal := .next (runOp opMuzzleStatus 0x0182 q s)

/-! ### Registers (R190, R191) -/

/-- The loaded muzzle keys as a mask. -/
def State.mzLoaded (s : State) : Nat := sumL ((List.range 8).map fun k => b2n (khas s.nv.mzKeys k) * 2 ^ k)

/-- The registers of the block that mirror state. -/
def qcpView (s : State) (i2c : Bool) (a : Nat) : Option Nat :=
  let m := s.fld R.QCP_SESS_SEL_MBOX
  let x := s.sess m
  if a = R.QCP_STAT then some (s.sessCount .on * 2 ^ 16 + s.sessCount .starting)
  else if a = R.QCP_SESS_INFO0 then
    some (x.gen * 2 ^ 24 + x.keyId * 2 ^ 20 + x.role * 2 ^ 18 + x.port * 2 ^ 15 + x.st.code * 2 ^ 12 + s.leaseLeft m)
  else if a = R.QCP_SESS_INFO1 then some x.expect
  else if a = R.QCP_SESS_INFO2 then some ((64 - x.cmdUsed) * 2 ^ 24 + (64 - x.rplUsed) * 2 ^ 16 + x.evq.length)
  else if a = R.QCP_DB_RPL then some 0
  else if a = R.QCP_MZ_KEYS then some (putBits (s.reg a) 7 0 s.mzLoaded)
  else if a = R.QCP_MZ_FUNC then some (b2n (s.gateClosed 64) + 2 * b2n (s.gateClosed 65) + 4 * b2n (s.gateClosed 66))
  else if a = R.QCP_MZ_LG_LO then some (sumL ((List.range 32).map fun g => b2n (s.gateClosed (128 + g)) * 2 ^ g))
  else if a = R.QCP_MZ_LG_HI then some (sumL ((List.range 32).map fun g => b2n (s.gateClosed (160 + g)) * 2 ^ g))
  else if R.QCP_MZ_CTR_HI 0 ≤ a ∧ a < R.QCP_MZ_CTR_HI 8 then
    let k := (a - R.QCP_MZ_CTR_HI 0) / 8
    if (a - R.QCP_MZ_CTR_HI 0) % 8 = 0 then some ((kgetD s.nv.mzKeys k ⟨[], 0⟩).ctr / 2 ^ 32)
    else some (kgetD (if i2c then s.qcp.mzLatI else s.qcp.mzLatQ) k 0).toNat
  else none

/-- A read of QCP_MZ_CTR_HI_k latches the low word for its path (R191). -/
def State.mzLatch (s : State) (i2c : Bool) (k : Nat) : State :=
  let v := BitVec.ofNat 32 (kgetD s.nv.mzKeys k ⟨[], 0⟩).ctr
  if i2c then s.setQcp { s.qcp with mzLatI := kset s.qcp.mzLatI k v }
  else s.setQcp { s.qcp with mzLatQ := kset s.qcp.mzLatQ k v }

/-- The rules of the block for a write (R188, R191). -/
def qcpRule (s : State) (a old v : Nat) : Option Nat :=
  let bad (b : Bool) : Option Nat := if b then some St.state else none
  if a = R.QCP_CFG then
    bad (decide (bits v 31 20 < 10) || decide (3600 < bits v 31 20) || decide (16 < bits v 16 12) || bits v 7 0 == 0)
  else if a = R.QCP_MZ_KEYS then
    bad ((List.range 8).any fun k => tb v (8 + k) && !tb old (8 + k) && !khas s.nv.mzKeys k)
  else none

end Sys2Proof.Machine
end

