-- ==== Sys2Proof/Machine/Gln.lean ====
section
/-! DEFINITION. The gleaner (R503-R531): slices, verdicts, confirmation, map-out, repair, BIST and life-cycle operations, JTAG. -/

namespace Sys2Proof.Machine

open Sys2Proof

/-! ### Units (R503-R506) -/

/-- Units of a class (R503). -/
def unitsOf (cls : Nat) : Nat := (([128, 16, 32, 32, 4, 64, 128] : List Nat)[cls]?).getD 0

/-- Slices of a full pass of a unit (R503). -/
def slicesOf (cls : Nat) : Nat := if cls = 0 then 256 else if cls = 5 then 128 else 16

/-- The declared length of a slice in 2^-16 ns (R504). -/
def sliceLen (cls : Nat) : Nat := if memCls cls then nsI 40000 else nsI 44000

/-- The life-cycle state (R523). -/
def State.lc (s : State) : Nat := s.nv.lc

/-- Whether an engine is in FAILED. -/
def State.engFailed (s : State) (cls e : Nat) : Bool :=
  match cls with
  | 1 => decide (s.fceSt e = .failed) | 2 => decide (s.eceSt e = .failed) | 3 => decide ((s.deng e).st = .failed)
  | 4 => decide ((s.beng e).st = .failed) | _ => false

/-- Engines in FAILED of every class. -/
def State.failedEngs (s : State) : Nat :=
  sumL (([1, 2, 3, 4] : List Nat).map fun c => ((List.range (unitsOf c)).filter (s.engFailed c)).length)

/-- Cores mapped out. -/
def State.mappedCores (s : State) : Nat := ((List.range 128).filter fun c => (s.core c).mapped).length

/-- Whether a unit stands idle for a slice (R353, R506): a core that nothing runs on and no ready task may take (one under confirmation,
under the test of a hang, or out of service may be tested as it is); an engine in ON with nothing queued, or one that is FAILED; a
loft bank with its spare segment; a local segment whose task frame is free (log entry 26). -/
def State.sliceIdle (s : State) (cls idx : Nat) : Bool :=
  match cls with
  | 0 =>
    let x := s.core idx
    x.run.isNone && !x.slice && (x.hung || x.mapped || s.awaiting 0 idx || (s.pickFor idx).isNone)
  | 1 => decide (s.fceSt idx = .on ∨ s.fceSt idx = .failed) && decide (s.queued idx = 0)
  | 2 => decide (s.eceSt idx = .on ∨ s.eceSt idx = .failed) && decide (s.queued (32 + idx) = 0)
  | 3 => decide ((s.deng idx).st = .on ∨ (s.deng idx).st = .failed) && !s.dengBusy idx
  | 4 => decide ((s.beng idx).st = .on ∨ (s.beng idx).st = .failed) && (s.beng idx).job.isNone
  | 5 => !s.gln.skip.contains idx
  | _ => !(s.framesHeld idx).contains ((s.unitT 6 idx).passed / 2)

/-- The kind of a class for the limits of R505: 0 core, 1 engine, 2 memory. -/
def kindOf (cls : Nat) : Nat := if cls = 0 then 0 else if cls ≤ 4 then 1 else 2

/-- Whether the limits of R505 let one more slice of a kind start in this swath. -/
def State.sliceRoom (s : State) (cls : Nat) : Bool :=
  let k := kindOf cls
  let n := if k = 0 then s.gln.nCore else if k = 1 then s.gln.nEng else s.gln.nMem
  let lim := if k = 0 then s.fld R.GLN_CFG_CORE_SL else if k = 1 then s.fld R.GLN_CFG_ENG_SL else s.fld R.GLN_CFG_MEM_SL
  decide (n < lim) && s.gln.run.all fun r => kindOf r.cls != k

/-- Whether a slice may start on a unit as it stands: none runs there, it is idle, and a unit out of service, or any under GLN_DBG.STEP, was
asked for (R506, R514, R527). -/
def State.sliceFree (s : State) (cls idx : Nat) : Bool :=
  let u := s.unitT cls idx
  (s.sliceOn cls idx).isNone && s.sliceIdle cls idx && (!(s.flag R.GLN_DBG_STEP || u.out) || u.asked || (cls == 0 && (s.core idx).hung))

/-- The units of a kind, in ascending class and index (R505). -/
def kindUnits (k : Nat) : List (Nat × Nat) := (List.range 7).flatMap fun c => if kindOf c = k then (List.range (unitsOf c)).map (c, ·) else []

/-- The unit of a kind whose slice is next (R505, R527): the one of the newest request, then one whose slice was cut short, then the next in
ascending class and index after the one taken last. -/
def State.nextUnit (s : State) (k : Nat) : Option (Nat × Nat) :=
  let l := (kindUnits k).filter fun p => s.sliceFree p.1 p.2
  match l.find? fun p => s.gln.req == some p with
  | some p => some p
  | none => match s.gln.cut.findSome? fun u => l.find? fun p => unitKey p.1 p.2 == u with
    | some p => some p
    | none => match l.find? fun p => match kget s.gln.turn k with | some u => decide (u < unitKey p.1 p.2) | none => true with
      | some p => some p
      | none => l.head?

/-- The fabric cap of a swath in bytes (R532, R537): halved at thermal level THROTTLE. -/
def State.fabCap (s : State) : Nat :=
  s.fld R.BGW_CFG_FAB_PERMIL * 3200 * s.lenNs / 1000 / (if 2 ≤ s.fld R.BGW_THERM_STAT_LEVEL then 2 else 1)

/-- Whether `n` more bytes of background work pass the cap of this swath (R532); the first of a swath never do (log entry 90). -/
def State.fabFull (s : State) (n : Nat) : Bool := decide (s.swt.begun ∧ s.bgw.fab ≠ 0 ∧ s.fabCap < s.bgw.fab + n)

/-- Bytes of background work go over the fabric (R532). -/
def State.fabUse (s : State) (n : Nat) : State := { s with bgw := { s.bgw with fab := s.bgw.fab + n } }

/-- A background request that passes the cap waits for the next boundary, and counts once (R532). -/
def State.capHold (s : State) (k : Nat) : State :=
  if s.bgw.holds.contains k then s
  else (({ s with bgw := { s.bgw with holds := k :: s.bgw.holds } } : State).bump R.BGW_CAP_HOLD_CNT).raise R.BGW_EVT 32

/-- GLN_SLICE_START (R353, R505-R507, R512, R514, R532, R537): the next slice of an idle unit that ends by the start of Emit. A slice
that repeats a FAIL, and one of a hung core, is not held back by R505; R41 holds for every slice. -/
def execGlnSliceStart (cls : Fin 7) (idx : Fin 128) (s : State) : Host.Outcome State Fault Refusal :=
  let c := cls.val
  let i := idx.val
  let u := s.unitT c i
  let conf := u.await.isSome
  let hang := decide (c = 0) && (s.core i).hung
  let mem := memCls c
  .next (if s.mode ≠ .service ∨ s.swt.begun = false ∨ s.flag R.GLN_CFG_EN = false ∨ unitsOf c ≤ i ∨ s.shut.phase ≠ 0 then s
    else if s.pastDeadline ∨ s.sliceFree c i = false ∨ 2 ≤ s.fld R.BGW_THERM_STAT_LEVEL then s
    else if s.swt.emitAt < s.elapsed + sliceLen c then s
    else if conf = false ∧ hang = false ∧ (s.sliceRoom c = false ∨ s.nextUnit (kindOf c) ≠ some (c, i)) then s
    else if mem ∧ s.fabCap < s.bgw.fab + 65536 then s
    else
      let u1 := if hang ∧ u.asked = false then { u with asked := true, bad := false, passed := 0 } else u
      let sl : Slice := ⟨c, i, u1.passed, u1.await.getD u1.passed, s.loc, conf, hang⟩
      let g := s.gln
      let k := kindOf c
      let inTurn := !conf && !hang && !g.cut.contains (unitKey c i) && g.req != some (c, i)
      let g1 : Gln := { g with cut := g.cut.filter (· != unitKey c i), turn := if inTurn then kset g.turn k (unitKey c i) else g.turn }
      let s1 := s.setGln { g1 with run := g.run ++ [sl], nCore := g.nCore + b2n (k == 0), nEng := g.nEng + b2n (k == 1), nMem := g.nMem + b2n (k == 2) }
      let s2 := ((s1.setUnitT c i u1).setFld R.GLN_STAT_RUN 1).bump R.GLN_SLICE_CNT
      let s3 := if c = 0 then s2.setCore i { s2.core i with slice := true } else s2
      if mem then s3.fabUse 65536 else s3)

/-! ### Cuts (R508-R510) -/

/-- A slice is cut, and a core under it is free again (R509). -/
def State.cutAny (s : State) (r : Slice) (cause : Nat) : State :=
  let t := s.cutSlice r cause
  if r.cls = 0 then (t.setCore r.idx { t.core r.idx with slice := false }).coreTake r.idx
  else if r.cls = 6 then t.coreTake r.idx else t

/-- Every running slice is cut. -/
def State.cutAll (s : State) (cause : Nat) : State := s.gln.run.foldl (fun t r => t.cutAny r cause) s

/-! ### Verdicts (R511-R515) -/

/-- A unit enters or leaves the list in PRS of what is out of service (R513). -/
def State.noteOut (s : State) (cls idx : Nat) (out : Bool) : State :=
  let l := s.nv.outs.filter (· != (cls, idx))
  s.setNv { s.nv with outs := if out then l ++ [(cls, idx)] else l }

/-- The field that shows how far a pass over all cores, or over all memory, has come. -/
def coverFld (mem : Bool) : Fld := if mem then R.GLN_MCOVER_PROGRESS else R.GLN_COVER_PROGRESS

/-- The slices of a pass (R503, R515): cores that are mapped out and banks that are skipped are no part of it (R513, R517). -/
def State.coverAll (s : State) (mem : Bool) : Nat :=
  if mem then 10240 - 128 * s.gln.skip.length else 256 * (128 - s.mappedCores)

/-- A pass that has had every slice is complete, and the next begins (R515). -/
def State.coverEnd (s : State) (mem : Bool) : State :=
  if s.fld (coverFld mem) < s.coverAll mem ∨ s.coverAll mem = 0 then s
  else
    let start := if mem then s.gln.memLoc else s.gln.passLoc
    let s1 := (s.setFld (coverFld mem) 0).setFld (if mem then R.GLN_MCOVER_LAST_S else R.GLN_COVER_LAST_S) (min 65535 ((s.loc - start) / secI))
    let s2 := s1.setGln (if mem then { s1.gln with memLoc := s1.loc } else { s1.gln with passLoc := s1.loc })
    let us := s2.gln.units.map fun p => (p.1, if memCls (p.1 / 4096) == mem then { p.2 with cov := 0 } else p.2)
    ((s2.setGln { s2.gln with units := us }).bump R.GLN_CYCLE_CNT).raise R.GLN_EVT 32

/-- A slice of a unit is done: the pass counts it once (R515). -/
def State.coverSlice (s : State) (cls idx num : Nat) : State :=
  let u := s.unitT cls idx
  let f := coverFld (memCls cls)
  if tb u.cov num then s
  else ((s.setUnitT cls idx { u with cov := u.cov + 2 ^ num }).setFld f (s.fld f + 1)).coverEnd (memCls cls)

/-- A unit leaves the pass with the slices that the pass has had from it (R513, R515, R517). -/
def State.coverDrop (s : State) (cls idx : Nat) : State :=
  let u := s.unitT cls idx
  let f := coverFld (memCls cls)
  let n := ((List.range (slicesOf cls)).filter fun k => tb u.cov k).length
  ((s.setUnitT cls idx { u with cov := 0 }).setFld f (s.fld f - n)).coverEnd (memCls cls)

/-- A core is mapped out, or an engine enters FAILED (R512, R513); tasks whose contexts the core holds end as CORE_LOST (R349), and the pass
over all cores goes on without it. -/
def State.takeOut (s : State) (cls idx : Nat) : State :=
  let s0 := if s.gln.req = some (cls, idx) then s.setGln { s.gln with req := none } else s
  let s1 := s0.setUnitT cls idx { s0.unitT cls idx with out := true, await := none, asked := false }
  let s2 := match cls with
    | 0 =>
      let x := s1.core idx
      (x.held.foldl (fun (t : State) i => t.onFault i 8 idx 0 0) ((s1.setCore idx { x with mapped := true, hung := false }).coverDrop 0 idx)).sysFreed
    | 1 => (s1.setFceFn idx (s1.fceFn idx).fault true).raise (R.FCE_EVT idx) 8
    | 2 => (s1.setEceFn idx (s1.eceFn idx).fault true).raise (R.ECE_EVT idx) 8
    | 3 => s1.dengFail idx
    | _ => s1.balFail idx
  ((s2.noteOut cls idx true).bump R.GLN_MAPOUT_CNT).raise R.GLN_EVT 2

/-- The unit byte of a fault record for a unit under test (R425): 0 for a core and for a baler engine. -/
def glnUnit (cls idx : Nat) : Nat := if 1 ≤ cls ∧ cls ≤ 3 then cls * 32 + idx else if cls = 5 then 4 * 32 else if cls = 6 then 5 * 32 else 0

/-- Class GLEANER on every task of this swath that ran on the unit or called it; from the start of Emit on a record alone for a media task, COMMITTED
for one that was DONE (R418, R511). Cores and entries that the tasks give back are taken again. -/
def State.gleanFault (s : State) (cls idx unit : Nat) : State :=
  let core := if cls = 0 then idx else 255
  let s1 : State := (s.frp.ended.filter fun t => t.ranOn.contains (cls, idx)).foldl (fun (u : State) t =>
    u.recordFault t ⟨s.now, s.swn, 6, core, unit, 0⟩ (if t.st = .done then 3 else 1) t.replayCore) s
  (((s1.knl.tasks.filter fun t => t.2.ranOn.contains (cls, idx)).foldl (fun (t : State) p => t.onFault p.1 6 core unit 0) s1).sysFreed).wakeCores

/-- Slice `num` of a unit is done: the pass over all units counts it while the unit is in service, and the unit's own pass advances where it is
the slice next in it (R515). With the last one a requested pass ends (R514, R527): all passed, the unit returns at the next boundary; else a hung
core is mapped out. -/
def State.unitStep (s : State) (cls idx num : Nat) : State :=
  let u := s.unitT cls idx
  let s0 := if (cls = 0 ∨ memCls cls) ∧ u.out = false then s.coverSlice cls idx num else s
  let v := s0.unitT cls idx
  if num ≠ u.passed then s0
  else if num + 1 < slicesOf cls then s0.setUnitT cls idx { v with passed := num + 1 }
  else
    let s1 := s0.setUnitT cls idx { v with passed := 0, full := s.now, asked := false, bad := false }
    let s2 := if s.gln.req = some (cls, idx) then s1.setGln { s1.gln with req := none } else s1
    if u.asked = false then s2
    else if u.bad then (if u.out then s2 else s2.takeOut cls idx)
    else s2.setGln { s2.gln with back := s2.gln.back ++ [(cls, idx)] }

/-- Judge a logic slice that ran to its end (R509-R514). -/
def State.logicEnd (s : State) (r : Slice) (sig : Bytes) (pass : Bool) : State :=
  let s0 := s.dropSlice r
  let s1 := if r.cls = 0 then s0.setCore r.idx { s0.core r.idx with slice := false } else s0
  let u := s1.unitT r.cls r.idx
  let put (t : State) (verdict : Nat) (v : UnitT) : State :=
    (t.setUnitT r.cls r.idx { v with verdict := verdict }).glnRecord r verdict 0 4096 sig
  let fin := if pass then
      if r.conf then ((put s1 6 { u with await := none, bad := false }).bump R.GLN_TRANSIENT_CNT).raise R.GLN_EVT 16
      else ((put s1 0 u).bump R.GLN_PASS_CNT)
    else
      let s2 := ((put s1 1 { u with bad := true }).bump R.GLN_FAIL_CNT).raise R.GLN_EVT 1
      let s3 := s2.gleanFault r.cls r.idx (glnUnit r.cls r.idx)
      if u.asked ∧ (r.hang ∨ u.out) then s3
      else if r.conf = false ∧ s3.flag R.GLN_CFG_CONFIRM then s3.setUnitT r.cls r.idx { s3.unitT r.cls r.idx with await := some r.num }
      else s3.takeOut r.cls r.idx
  let fin1 := if pass ∨ (u.asked ∧ (r.hang ∨ u.out)) then fin.unitStep r.cls r.idx r.num else fin
  if r.cls = 0 then fin1.coreTake r.idx else fin1

/-! ### Memory (R516-R519) -/

/-- The fields of a repair entry (R518). -/
def repairEntry (col isLocal : Bool) (unit spare addr : Nat) : Nat :=
  2 ^ 31 + b2n col * 2 ^ 30 + b2n isLocal * 2 ^ 29 + unit * 2 ^ 22 + spare * 2 ^ 18 + addr

/-- Spare rows or columns of a bank or of a core's local memory (R517). -/
def spares (isLocal col : Bool) : Nat := if isLocal then (if col then 2 else 4) else if col then 8 else 16

/-- Whether a repair entry names a spare of a unit. -/
def namesSpare (w : BitVec 32) (col isLocal : Bool) (unit k : Nat) : Bool :=
  let n := w.toNat
  tb n 31 && tb n 30 == col && tb n 29 == isLocal && bits n 28 22 == unit && bits n 21 18 == k

/-- The entries of PRS that a start applies: not those whose spare a fused entry has taken (R519). -/
def Nv.freeRepairs (n : Nv) : List (BitVec 32) :=
  n.repair.filter fun w => !n.fused.any fun e => namesSpare e (tb w.toNat 30) (tb w.toNat 29) (bits w.toNat 28 22) (bits w.toNat 21 18)

/-- Whether a spare is taken by an entry in force. -/
def State.spareUsed (s : State) (col isLocal : Bool) (unit k : Nat) : Bool := s.gln.applied.any fun w => namesSpare w col isLocal unit k

/-- Spares left of a unit. -/
def State.sparesLeft (s : State) (isLocal col : Bool) (unit : Nat) : Nat :=
  ((List.range (spares isLocal col)).filter fun k => !s.spareUsed col isLocal unit k).length

/-- A spare for a fault: a column where the failing bits share one, else a row, the other kind where none is left. -/
def State.pickSpare (s : State) (isLocal oneCol : Bool) (unit : Nat) : Option (Bool × Nat) :=
  let find (col : Bool) : Option (Bool × Nat) := ((List.range (spares isLocal col)).find? fun k => !s.spareUsed col isLocal unit k).map (col, ·)
  if oneCol then (match find true with | some p => some p | none => find false) else find false

/-- The failing word in a result record (R521). -/
def memSig (e : MemErr) : Bytes := be 5 e.pa.toNat ++ be 1 e.bit.val ++ [e.bits]

/-- Judge a memory slice that ran to its end (R511, R516, R517): no error; repaired by a spare; or unrepairable, and then a bank's later
slices are skipped and a core is mapped out. -/
def State.memEnd (s : State) (r : Slice) (err : Option MemErr) : State :=
  let s1 := s.dropSlice r
  let u := s1.unitT r.cls r.idx
  let isLocal := decide (r.cls = 6)
  let put (t : State) (verdict : Nat) (sig : Bytes) : State :=
    ((t.setUnitT r.cls r.idx { u with verdict := verdict }).glnRecord r verdict 0 6 sig)
  match err with
  | none => ((put s1 0 []).bump R.GLN_PASS_CNT).unitStep r.cls r.idx r.num
  | some e =>
    match (if e.fixed ∧ s.nv.repair.length < 8192 then s1.pickSpare isLocal e.oneCol r.idx else none) with
    | some (col, k) =>
      let w := BitVec.ofNat 32 (repairEntry col isLocal r.idx k e.addr.toNat)
      let s2 := put (s1.setNv { s1.nv with repair := s1.nv.repair ++ [w] }) 4 (memSig e)
      let s3 := s2.setGln { s2.gln with applied := s2.gln.applied ++ [w] }
      ((s3.bump R.GLN_REPAIR_CNT).raise R.GLN_EVT 4).unitStep r.cls r.idx r.num
    | none =>
      let s2 := ((put s1 5 (memSig e)).bump R.GLN_UNREP_CNT).raise R.GLN_EVT 8
      let s3 := s2.gleanFault (if isLocal then 0 else r.cls) r.idx (glnUnit r.cls r.idx)
      if isLocal then (if (s3.core r.idx).mapped then s3 else s3.takeOut 0 r.idx).unitStep 6 r.idx r.num
      else (s3.setGln { s3.gln with skip := s3.gln.skip ++ [r.idx] }).coverDrop 5 r.idx

/-- GLN_SLICE_END (R509-R517): the slice on a unit has run its declared length and is judged, or its unit raised a fault. -/
def execGlnSliceEnd (r : SliceResult) (s : State) : Host.Outcome State Fault Refusal :=
  let ended (sl : Slice) : Bool := decide (sl.start + sliceLen sl.cls ≤ s.loc)
  .next (match r with
    | .logic cls idx sig pass => match s.sliceOn cls.val idx.val with
      | some sl => if ended sl then s.logicEnd sl (be 8 sig.toNat) pass else s
      | none => s
    | .memory l idx err => match s.sliceOn (if l then 6 else 5) idx.val with
      | some sl => if ended sl then (if l then (s.memEnd sl err).coreTake idx.val else s.memEnd sl err) else s
      | none => s
    | .fault cls idx => match s.sliceOn cls.val idx.val with
      | some sl => s.cutAny sl 4
      | none => s)

/-- Units whose requested pass was clean return to service at a boundary (R514, R527). -/
def State.glnBack (s : State) : State :=
  s.gln.back.foldl (fun t (p : Nat × Nat) =>
    let u := { t.unitT p.1 p.2 with out := false, await := none }
    let t1 := (t.setUnitT p.1 p.2 u).noteOut p.1 p.2 false
    match p.1 with
    | 0 => t1.setCore p.2 { t1.core p.2 with mapped := false, hung := false }
    | 1 => if t1.fceSt p.2 = .failed then t1.setFceFn p.2 ⟨if t1.flag (R.FCE_CFG_EN p.2) then .on else .off, false, false⟩ false else t1
    | 2 => if t1.eceSt p.2 = .failed then t1.setEceFn p.2 ⟨if t1.flag (R.ECE_CFG_EN p.2) then .on else .off, false, false⟩ false else t1
    | 3 =>
      let e := t1.deng p.2
      if e.st = .failed then t1.setDeng p.2 { e with st := if e.en then .on else .off, pendEn := false } else t1
    | _ =>
      let e := t1.beng p.2
      if e.st = .failed then t1.setBeng p.2 { e with st := if tb (t1.fld R.BAL_CFG_EN) p.2 then .on else .off, pendEn := false } else t1)
    (s.setGln { s.gln with back := [] })

/-! ### BIST operations (R520, R523, R524, R527) -/

/-- A read operation's definition with a check. -/
def OpDef.ask (minRole len : Nat) (chk : State → Bytes → Chk) (f : State → Bytes → Bytes) : OpDef :=
  { minRole := minRole, jrnl := fun _ => false, badLen := lenIs len, bulk := false, chk := fun _ s b => chk s b
    app := fun _ _ s b => Done.res s (f s b) }

/-- An ADMIN operation that is not journaled. -/
def OpDef.admin (len : Nat) (chk : Ctx → State → Bytes → Chk) (app : Ctx → State → Bytes → Done) : OpDef :=
  { minRole := 2, jrnl := fun _ => false, badLen := lenIs len, bulk := false, chk := chk, app := fun c _ s b => app c s b }

/-- The session number that a command came in. -/
def State.sessNum (s : State) (m : Nat) : Nat := (s.sess m).gen * 256 + m

/-- BIST_REQUEST (R527): the newest request stands (log entry 27). -/
def opBistRequest : OpDef := OpDef.admin 4
  (fun _ _ b => Chk.first [(decide (4 < u8 b 0), .at_ 0), (decide (unitsOf (u8 b 0) ≤ num b 2 2), .at_ 2)] (.ok []))
  fun _ s b =>
    let c := u8 b 0
    let i := num b 2 2
    let t := s.setUnitT c i { s.unitT c i with asked := true, bad := false, passed := 0 }
    Done.ok (t.setGln { t.gln with req := some (c, i) })

/-- The repair entries of a payload. -/
def entriesIn (b : Bytes) : List Nat := (List.range (num b 0 2)).map fun i => num b (4 + 4 * i) 4

/-- BIST_FUSE_ARM (R520). The nonce is free. -/
def opBistFuseArm : OpDef :=
  { minRole := 2, jrnl := fun _ => false, bulk := false
    badLen := fun b => if b.length < 4 then some b.length else if num b 0 2 < 1 ∨ 64 < num b 0 2 then some 0 else lenIs (4 + 4 * num b 0 2) b
    chk := fun _ s b => match ((entriesIn b).zipIdx).find? fun p => !s.nv.repair.any fun w => w.toNat == p.1 with
      | some p => .at_ (4 + 4 * p.2)
      | none => if 4096 - s.nv.fused.length < num b 0 2 then .refuse St.noBudget 0 else .ok []
    app := fun c _ s b =>
      let n := s.draw 32
      let t := s.drawn
      Done.res (t.setGln { t.gln with armF := some (n, s.sessNum c.mbox, s.loc + 10 * secI, entriesIn b) })
        (be 4 n ++ be 2 (4096 - s.nv.fused.length) ++ zeros 2) }

/-- What is wrong with a confirmation: nothing armed in this session in time (R16: 10 s after the arming is too late), or another nonce. -/
def nonceBad (armed : Option (Nat × Nat × Nat)) (num_ loc nonce : Nat) : Chk :=
  match armed with
  | none => .inState
  | some (n, sess, by_) => if sess ≠ num_ ∨ by_ ≤ loc then .inState else if n ≠ nonce then .at_ 0 else .ok []

/-- BIST_FUSE_CONFIRM (R520): entries not fused yet are programmed; which of them fails its verification is free (log entry 28). -/
def opBistFuseConfirm : OpDef := OpDef.admin 4
  (fun c s b => nonceBad (s.gln.armF.map fun a => (a.1, a.2.1, a.2.2.1)) (s.sessNum c.mbox) s.loc (num b 0 4))
  fun _ s _ =>
    let l := match s.gln.armF with | some a => a.2.2.2 | none => []
    let new := l.eraseDups.filter fun e => !s.nv.fused.any fun w => w.toNat == e
    let bad := s.draw 64
    let good := (new.zipIdx.filter fun p => !tb bad p.2).map fun p => BitVec.ofNat 32 p.1
    let t := s.drawn.setGln { s.gln with armF := none }
    let u := t.setNv { t.nv with fused := t.nv.fused ++ good }
    if good.length = new.length then Done.res u (be 2 good.length ++ zeros 2)
    else ⟨u, St.fault, 0, be 2 good.length ++ zeros 2, false⟩

/-- BIST_LC_ARM (R524). -/
def opBistLcArm : OpDef := OpDef.admin 4
  (fun _ s b => Chk.first [(decide (4 < u8 b 0), .at_ 0), (!lcAllowed false s.lc (u8 b 0), .refuse St.lifecycle 0)] (.ok []))
  fun c s b =>
    let n := s.draw 32
    let t := s.drawn
    Done.res (t.setGln { t.gln with armL := some (n, s.sessNum c.mbox, s.loc + 10 * secI, u8 b 0) }) (be 4 n)

/-- BIST_LC_CONFIRM (R524): the transition is made once the reply has left. -/
def opBistLcConfirm : OpDef := OpDef.admin 4
  (fun c s b => match nonceBad (s.gln.armL.map fun a => (a.1, a.2.1, a.2.2.1)) (s.sessNum c.mbox) s.loc (num b 0 4), s.gln.armL with
    | .ok p, some a => if lcAllowed false s.lc a.2.2.2 then .ok p else .refuse St.lifecycle 0
    | r, _ => r)
  fun c s _ =>
    let next := match s.gln.armL with | some a => a.2.2.2 | none => 0
    Done.ok ((s.setGln { s.gln with armL := none }).owe c.mbox 0x0C05 (be 1 next))

/-- BIST_REPAIR_LIST (R527). -/
def opBistRepairList : OpDef := OpDef.ask 0 4
  (fun _ b => if num b 2 2 < 1 ∨ 256 < num b 2 2 then .refuse St.badLen 2 else .ok [])
  fun s b => (((s.nv.repair.drop (num b 0 2)).take (num b 2 2)).flatMap fun w =>
    be 4 w.toNat ++ be 1 (b2n (s.nv.fused.contains w)) ++ zeros 3)

/-- BIST_UNIT_STATUS (R527). -/
def opBistUnitStatus : OpDef := OpDef.ask 0 4
  (fun _ b => Chk.first [(decide (6 < u8 b 0), .at_ 0), (decide (unitsOf (u8 b 0) ≤ num b 2 2), .at_ 2)] (.ok []))
  fun s b =>
    let c := u8 b 0
    let i := num b 2 2
    let u := s.unitT c i
    let st := if u.out ∨ (c = 0 ∧ (s.core i).mapped) ∨ s.engFailed c i then 3 else if u.await.isSome then 2 else if s.underTest c i then 1 else 0
    be 1 st ++ be 1 u.verdict ++ be 2 u.passed ++ timeBytes u.full

/-! ### JTAG (R523, R526) -/

/-- JTAG_KEY_LOAD (R526): at Update-DR, in MANUFACTURE and RMA, a host key is written; the sessions under it stop. -/
def execJtagKeyLoad (dr : BitVec 264) (s : State) : Host.Outcome State Fault Refusal :=
  let n := dr.toNat
  .next (if (s.lc = 1 ∨ s.lc = 3) ∧ s.mode ≠ .reset ∧ bits n 5 4 ≠ 3 ∧ bits n 7 6 = 0 then
      let key : Bytes := (List.range 32).map fun i => byteOf (bits n (15 + 8 * i) (8 + 8 * i))
      (s.setNv { s.nv with hostKeys := kset s.nv.hostKeys (bits n 3 0) ⟨key, bits n 5 4⟩ }).stopKey (bits n 3 0)
    else s)

/-- JTAG_LC_TRANSITION (R523). -/
def execJtagLcTransition (target : Fin 5) (s : State) : Host.Outcome State Fault Refusal :=
  .next (if lcAllowed true s.lc target.val ∧ s.mode ≠ .reset then s.lcGo target.val else s)

/-! ### Registers (R521, R528-R531) -/

/-- The registers of the ID block that mirror state (R528). -/
def idView (s : State) (_i2c : Bool) (a : Nat) : Option Nat :=
  if a = R.ID_LC then some ((match s.nv.lcNext with | some t => t + 1 | none => 0) * 16 + s.lc)
  else if a = R.ID_ACCESS then
    let dbg := (s.lc == 1 || s.lc == 3) && s.flag R.ID_JTAG_DBG_EN
    some (b2n (!s.nv.hostKeys.isEmpty || !s.nv.mzKeys.isEmpty) * 4 + b2n dbg * 2 + 1)
  else none

/-- The registers of the gleaner that mirror state. -/
def glnView (s : State) (i2c : Bool) (a : Nat) : Option Nat :=
  if i2c && decide (R.GLN_REC 0 ≤ a) && decide (a ≤ R.GLN_REC 7) then some (num s.gln.latI (a - R.GLN_REC 0) 4)
  else if a = R.GLN_STAT then
    some (s.mappedCores * 2 ^ 16 + s.failedEngs * 2 ^ 8 + b2n (s.flag R.GLN_STAT_FULL_OK) * 4 + b2n s.gln.req.isSome * 2 + b2n (!s.gln.run.isEmpty))
  else if a = R.GLN_SPARE then
    let l := s.flag R.GLN_SPARE_SEL_LOCAL
    let u := s.fld R.GLN_SPARE_SEL_UNIT
    some (if l = false ∧ 64 ≤ u then 0 else s.sparesLeft l false u * 256 + s.sparesLeft l true u)
  else if a = R.GLN_FUSE then some ((4096 - s.nv.fused.length) * 2 ^ 16 + s.nv.fused.length)
  else if a = R.GLN_CTL then some 0
  else none

/-- The ranges of R530. -/
def glnRule (_s : State) (a v : Nat) : Option Nat :=
  if a = R.GLN_CFG ∧ (8 < bits v 23 20 ∨ 8 < bits v 19 16 ∨ 8 < bits v 15 12) then some St.state else none

/-- CUT (R509, R530). -/
def glnEffect (s : State) (a _old v : Nat) : State := if a = R.GLN_CTL ∧ tb v 0 then s.cutAll 3 else s

/-- The effect of a read of GLN_REC_POP (R521, R595): the oldest record is removed and latched for its path. -/
def State.glnPop (s : State) (i2c : Bool) : State :=
  match s.gln.recs with
  | [] => s.setReg R.GLN_REC_POP 0
  | b :: r =>
    let s1 := (s.setGln { s.gln with recs := r, latI := if i2c then b else s.gln.latI }).setReg R.GLN_REC_POP (r.length * 2 + 1)
    if i2c then s1 else (List.range 8).foldl (fun t k => t.setReg (R.GLN_REC k) (num b (4 * k) 4)) s1

/-- BIST_REQUEST. -/
def execBistRequest (q : Req) (s : State) : Host.Outcome State Fault Refusal := .next (runOp opBistRequest 0x0C01 q s)

/-- BIST_FUSE_ARM. -/
def execBistFuseArm (q : Req) (s : State) : Host.Outcome State Fault Refusal := .next (runOp opBistFuseArm 0x0C02 q s)

/-- BIST_FUSE_CONFIRM. -/
def execBistFuseConfirm (q : Req) (s : State) : Host.Outcome State Fault Refusal := .next (runOp opBistFuseConfirm 0x0C03 q s)

/-- BIST_LC_ARM. -/
def execBistLcArm (q : Req) (s : State) : Host.Outcome State Fault Refusal := .next (runOp opBistLcArm 0x0C04 q s)

/-- BIST_LC_CONFIRM. -/
def execBistLcConfirm (q : Req) (s : State) : Host.Outcome State Fault Refusal := .next (runOp opBistLcConfirm 0x0C05 q s)

/-- BIST_REPAIR_LIST. -/
def execBistRepairList (q : Req) (s : State) : Host.Outcome State Fault Refusal := .next (runOp opBistRepairList 0x0C81 q s)

/-- BIST_UNIT_STATUS. -/
def execBistUnitStatus (q : Req) (s : State) : Host.Outcome State Fault Refusal := .next (runOp opBistUnitStatus 0x0C82 q s)

end Sys2Proof.Machine
end

