-- ==== Sys2Proof/Machine/Prs.lean ====
section
/-! DEFINITION. The record store (R419-R424, R540-R543, R548-R550), firmware slots (R560, R565), PRS and FW operations. -/

namespace Sys2Proof.Machine

open Sys2Proof

/-! ### Journal records (R420, R421, R540, R541) -/

/-- Operations whose payload holds key material (R204, R420). -/
def keyedOp (opcode : Nat) : Bool := opcode == 0x0307 || opcode == 0x0806 || opcode == 0x0A01

/-- The payload as the record holds it: key material is encrypted, in a form that the spec names and does not lay out (log entry 11). -/
def JRec.stored (r : JRec) : Bytes :=
  if keyedOp r.opcode then fit r.payload.length (Config.stdBytes 204 r.payload) else r.payload

/-- A journal record as bytes (R420). -/
def JRec.bytes (r : JRec) : Bytes :=
  let h := be 2 0x4A52 ++ be 1 1 ++ be 1 (b2n r.bulk * 2 + b2n (keyedOp r.opcode)) ++ be 4 r.recno ++ be 4 r.boot ++ be 2 r.session ++
    be 1 (r.role * 16 + r.keyId) ++ be 1 0 ++ be 4 r.seq ++ be 2 r.opcode ++ be 2 0 ++ be 4 r.payload.length ++ timeBytes r.at_ ++
    be 4 r.result ++ padTo 4 r.stored
  h ++ be 4 (crc32c h).toNat

/-- The length of a record: 48 bytes and the padded payload. -/
def JRec.size (r : JRec) : Nat := 48 + cdiv r.payload.length 4 * 4

/-- Bytes of the journal in use. -/
def State.jrnlUsed (s : State) : Nat := sumL (s.nv.jrnl.map JRec.size)

/-- The journal area: 64 MiB (R540). -/
def jrnlMax : Nat := 67108864

/-- Bytes are written to the record die, which is background work (R532). The erases that this takes, the spread of wear and the share of
endurance used follow from how the manager places data, which the spec leaves open: free values, applied to the count `wear` of the writes
so far (R543, R549, R550; log entry 24). -/
def State.prsWrote (s : State) (n : Nat) : State :=
  let w := 2 * s.nv.wear + 1
  let s1 : State := { s with
    nv := { s.nv with wear := s.nv.wear + 1 }, bgw := { s.bgw with prsBytes := s.bgw.prsBytes + n, fab := s.bgw.fab + n } }
  ((s1.bumpBy R.PRS_ERASE_CNT (Config.freeBits 11 w).toNat).setFld R.PRS_WEAR_SPREAD ((Config.freeBits 16 w).toNat % 1001)).setFld
    R.PRS_LIFE_PCT ((Config.freeBits 7 w).toNat % 101)

/-- The record die is read: by a start, and by PRS_LOG_READ. How many of its reads are corrected is free (R15, R550; log entry 58). -/
def State.prsRead (s : State) : State := s.drawn.bumpBy R.PRS_ECC_CE_CNT (s.draw 8)

/-- Commit a record (R171, R172, R421): none where PRS is not ON or the journal is full. At 75% fill JRNL_HIGH is set. -/
def State.commitRec (s : State) (r : JRec) : Option State :=
  let used := s.jrnlUsed
  if s.nv.prsFailed ∨ jrnlMax < used + r.size then none
  else
    let s1 := s.setNv { s.nv with recno := r.recno, jrnl := s.nv.jrnl ++ [r], sinceCk := s.nv.sinceCk + r.size }
    let s2 := (s1.prsWrote r.size).setReg R.PRS_RECNO r.recno
    some (if used < jrnlMax / 4 * 3 ∧ jrnlMax / 4 * 3 ≤ used + r.size then s2.raise R.PRS_EVT 1 else s2)

/-- A commit updates the fate of its session (R423): H and the map of the last 64 sequences. -/
def Fate.commit (f : Fate) (seq : Nat) : Fate :=
  if f.h ≤ seq then { f with h := seq, map := ((f.map * 2 ^ (min 64 (seq - f.h))) % 2 ^ 64) ||| 1 }
  else { f with map := f.map ||| (if f.h - seq < 64 then 2 ^ (f.h - seq) else 0) }

/-- Change the first entry of a list for which a test holds. -/
def setFirst {α : Type} (p : α → Bool) (f : α → α) : List α → List α
  | [] => []
  | a :: l => if p a then f a :: l else a :: setFirst p f l

/-- The fate table after a commit: the entry of its session, which is the newest with that number (R154, R423). -/
def State.fateCommit (s : State) (session keyId seq : Nat) : State :=
  s.setNv { s.nv with
    fates := (setFirst (fun f => f.boot == s.nv.boot && f.session == session && f.keyId == keyId) (·.commit seq) s.nv.fates.reverse).reverse }

/-! ### Checkpoints (R541, R542) -/

/-- The newest checkpoint. -/
def Nv.newest (n : Nv) : Option Ckpt :=
  match n.ck0, n.ck1 with
  | some a, some b => if a.recno < b.recno then some b else some a
  | some a, none => some a
  | none, x => x

/-- The records that give the whole configuration: those of the newest checkpoint, then the journal after it. -/
def Nv.config (n : Nv) : List JRec :=
  match n.newest with
  | some c => c.recs ++ n.jrnl.filter fun r => decide (c.recno < r.recno)
  | none => n.jrnl

/-- Put a checkpoint into the older slot; records that the older checkpoint covers are released (R541). -/
def Nv.putCkpt (n : Nv) (c : Ckpt) : Nv :=
  let old := n.newest
  let n1 := match n.ck0, n.ck1 with
    | none, _ => { n with ck0 := some c }
    | some _, none => { n with ck1 := some c }
    | some a, some b => if a.recno < b.recno then { n with ck0 := some c } else { n with ck1 := some c }
  let upTo := match old with | some o => o.recno | none => 0
  { n1 with jrnl := n.jrnl.filter fun r => decide (upTo < r.recno), sinceCk := 0 }

/-- A checkpoint is written: of all configuration, or with FORGET of none, which releases the journal (R541, R563). -/
def State.checkpoint (s : State) (forget : Bool) : State :=
  let c : Ckpt := ⟨s.nv.recno, if forget then [] else s.nv.config⟩
  let n := s.nv.putCkpt c
  let n1 := if forget then { n with jrnl := [] } else n
  let len := 20 + sumL (c.recs.map JRec.size)
  let s1 : State := { (s.setNv n1) with bgw := { s.bgw with ckLoc := s.loc, ckDue := false } }
  ((s1.prsWrote len).bump R.PRS_CKPT_CNT).setReg R.PRS_CKPT c.recno

/-- A checkpoint fails to write (R541): nothing is released. -/
def State.ckptFail (s : State) : State :=
  let s1 : State := { s with bgw := { s.bgw with ckDue := false, ckLoc := s.loc } }
  (s1.bump R.PRS_CKPT_FAIL_CNT).raise R.PRS_EVT 2

/-- CHECKPOINT_TIMER (R541): 60 s with a new record, or 32 MiB of journal since the newest checkpoint. -/
def execCheckpointTimer (s : State) : Host.Outcome State Fault Refusal :=
  let have_ := match s.nv.newest with | some c => c.recno | none => 0
  let due := (decide (s.bgw.ckLoc + 60 * secI ≤ s.loc) && decide (have_ < s.nv.recno)) || decide (jrnlMax / 2 ≤ s.nv.sinceCk)
  .next (if s.mode = .service ∧ due ∧ s.bgw.ckDue = false then { s with bgw := { s.bgw with ckDue := true } } else s)

/-- The bytes that a checkpoint of all configuration takes. -/
def State.ckptLen (s : State) : Nat := 20 + sumL (s.nv.config.map JRec.size)

/-- CHECKPOINT_WRITTEN (R532, R541): the checkpoint that is due is written, or fails; commands that wait for it are answered. One that would
pass the fabric cap waits. -/
def execCheckpointWritten (ok : Bool) (s : State) : Host.Outcome State Fault Refusal :=
  .next (if s.bgw.ckDue = false then s
    else if s.fabFull s.ckptLen then s.capHold 4
    else
      let good := ok && !s.nv.prsFailed
      let s1 := if good then s.checkpoint false else s.ckptFail
      let s2 : State := { s1 with bgw := { s1.bgw with ckBy := [] } }
      s.bgw.ckBy.foldl (fun (t : State) (p : Nat × Nat) => t.replyLate p.1 p.2 0x0D02 (if good then St.ok else St.fault) 0 false []) s2)

/-- PRS_BLOCK_FAIL (R543): a block is retired to a spare; with none left PRS fails, which R540 makes a transition of a function (R20). -/
def execPrsBlockFail (_block : Fin 2048) (s : State) : Host.Outcome State Fault Refusal :=
  .next (if s.nv.prsFailed ∨ s.mode = .reset then s
    else if s.nv.spares = 0 then
      let t := s.setNv { s.nv with prsFailed := true }
      if s.mode = .starting then t else t.reportFault .prs .on .failed
    else
      let s1 := s.setNv { s.nv with spares := s.nv.spares - 1, retired := s.nv.retired + 1 }
      let s2 := (s1.bump R.PRS_RETIRE_CNT).raise R.PRS_EVT 4
      if s.nv.spares - 1 < 8 then s2.raise R.PRS_EVT 8 else s2)

/-! ### The start log (R556) -/

/-- Append a record of a start or a shutdown where PRS takes it; the newest 131,072 stay. -/
def State.slogPut (s : State) (step alt outcome detail startUs durUs data : Nat) : State :=
  let b := be 2 0x534C ++ be 1 1 ++ be 1 step ++ be 4 s.nv.boot ++ be 1 alt ++ be 1 outcome ++ be 2 detail ++ be 4 startUs ++ be 4 durUs ++
    be 4 data ++ zeros 4
  let l := s.nv.slog ++ [b ++ be 4 (crc32c b).toNat]
  if s.nv.prsFailed then s else (s.setNv { s.nv with slog := l.drop (l.length - 131072), slogN := s.nv.slogN + 1 }).prsWrote 32

/-! ### PRS operations (R29, R548) -/

/-- PRS_PARTITION (R28, R29). -/
def opPrsPartition : OpDef := OpDef.admin 4
  (fun _ s b => Chk.first [(decide (s.hbmGib < u8 b 0 + u8 b 1), .refuse St.noBudget 0), (decide (u8 b 0 < 4 ∨ 48 < u8 b 0), .at_ 0),
    (decide (44 < u8 b 1), .at_ 1), (s.nv.prsFailed, .refuse St.fault 0)] (.ok []))
  fun _ s b => Done.ok (s.setNv { s.nv with bkgGib := u8 b 0, patGib := u8 b 1 })

/-- PRS_CHECKPOINT (R541, R548): answered when the checkpoint is written. -/
def opPrsCheckpoint : OpDef := OpDef.admin 0 (fun _ _ _ => .ok [])
  fun c s _ => Done.wait { s with bgw := { s.bgw with ckDue := true, ckBy := s.bgw.ckBy ++ [(c.mbox, c.seq)] } }

/-- PRS_LOG_READ (R548, R556). -/
def opPrsLogRead : OpDef :=
  OpDef.mk 0 (fun _ => false) (lenIs 8) false (fun _ _ b => if num b 4 4 < 1 ∨ 64 < num b 4 4 then .refuse St.badLen 4 else .ok []) fun _ _ s b =>
    let first := s.nv.slogN - s.nv.slog.length
    let from_ := max (num b 0 4) first
    let upto_ := min (num b 0 4 + num b 4 4) s.nv.slogN
    Done.res s.prsRead (((s.nv.slog.drop (from_ - first)).take (upto_ - from_)).flatMap id)

/-- The registers of the PRS block that mirror state (R549). -/
def prsView (s : State) (_i2c : Bool) (a : Nat) : Option Nat :=
  if a = R.PRS_STAT then some (if s.mode = .reset ∨ s.mode = .starting then 0 else if s.nv.prsFailed then 4 else 2)
  else if a = R.PRS_JRNL then some (cdiv s.jrnlUsed 1024)
  else if a = R.PRS_RECNO then some s.nv.recno
  else if a = R.PRS_CKPT then some (match s.nv.newest with | some c => c.recno | none => 0)
  else if a = R.PRS_WEAR then some (s.fld R.PRS_WEAR_SPREAD * 2 ^ 16 + s.nv.spares * 256 + s.nv.retired % 256)
  else if a = R.PRS_WRITE_KIB_CNT then some (s.bgw.prsBytes / 1024 % 2 ^ 32)
  else none

/-- PRS_INFO (R548): PRS_STAT to PRS_LIFE in register order. -/
def opPrsInfo : OpDef := OpDef.ask 0 0 (fun _ _ => .ok [])
  fun s _ => (List.range 6).flatMap fun k => be 4 ((prsView s false (R.PRS_STAT + 4 * k)).getD (s.reg (R.PRS_STAT + 4 * k)))

/-- STAT_JRNL_FATE (R424). -/
def opStatJrnlFate : OpDef := OpDef.ask 0 12 (fun _ _ => .ok [])
  fun s b =>
    match s.nv.fates.reverse.find? fun f => f.boot == num b 0 4 && f.session == num b 4 2 && f.keyId == u8 b 6 with
    | none => be 1 3 ++ zeros 3 ++ be 4 0
    | some f =>
      let q := num b 8 4
      let r := if f.h < q then 1 else if q + 63 < f.h then 2 else if tb f.map (f.h - q) then 0 else 1
      be 1 r ++ zeros 3 ++ be 4 f.h

/-! ### Firmware slots (R560, R565) -/

/-- Whether an image's signature verifies: ECDSA P-384 under the fused key, named by the spec (log entry 11). -/
def sigOk (image : Bytes) : Bool := decide (96 < image.length) && Config.stdBytes 560 image == [1#8]

/-- The slot of a number. -/
def Nv.slot (n : Nv) (k : Nat) : FwSlot := if k = 0 then n.fwA else n.fwB

/-- Replace a slot. -/
def Nv.setSlot (n : Nv) (k : Nat) (x : FwSlot) : Nv := if k = 0 then { n with fwA := x } else { n with fwB := x }

/-- The slot whose image runs now: none in recovery boot, which runs from the boot ROM (R561). -/
def State.fwRunning (s : State) : Option Nat :=
  if s.mode = .recovery then none else some s.boot.slot

/-- FW_LOAD (R565): the bytes received are checked against the length; a signature failure leaves the slot invalid. -/
def opFwLoad : OpDef :=
  { minRole := 2, jrnl := fun _ => false, bulk := true
    badLen := fun b => if b.length < 8 then some b.length else if b.length ≠ 8 + num b 4 4 then some (min b.length (8 + num b 4 4)) else none
    chk := fun _ s b => Chk.first [(decide (1 < u8 b 0), .at_ 0), (decide (s.fwRunning = some (u8 b 0)), .at_ 0),
      (decide (67108864 < num b 4 4), .at_ 4), (s.nv.prsFailed, .refuse St.fault 0)] (.ok [])
    app := fun _ _ s b =>
      let k := u8 b 0
      let image := b.drop 8
      let s1 := s.prsWrote image.length
      if sigOk image then Done.ok (s1.setNv (s1.nv.setSlot k ⟨1, image⟩))
      else Done.stat (s1.setNv (s1.nv.setSlot k ⟨2, image⟩)) St.auth 0 }

/-- FW_ACTIVATE (R560, R565). -/
def opFwActivate : OpDef := OpDef.admin 4
  (fun _ s b => Chk.first [(decide (1 < u8 b 0), .at_ 0), ((s.nv.slot (u8 b 0)).st != 1 || u8 b 0 == s.nv.committed, .at_ 0)] (.ok []))
  fun _ s b => Done.ok (s.setNv { s.nv with trial := some (u8 b 0) })

/-- FW_START_CLEAR (R565). -/
def opFwStartClear : OpDef := OpDef.admin 0 (fun _ _ _ => .ok [])
  fun _ s _ => Done.ok (s.setNv { s.nv with plan := List.replicate 14 0, fails := 0 })

/-- FW_INFO (R565). -/
def opFwInfo : OpDef := OpDef.ask 0 0 (fun _ _ => .ok [])
  fun s _ =>
    let slot (x : FwSlot) : Bytes := be 1 x.st ++ zeros 3 ++ be 4 (num x.image 4 4) ++ be 4 x.image.length
    slot s.nv.fwA ++ slot s.nv.fwB ++ be 1 s.nv.committed ++ be 1 (s.nv.trial.getD 0xFF) ++ be 1 s.nv.lastCause ++ be 1 (min 255 s.nv.fails) ++
      s.nv.plan.flatMap (be 1)

/-- PRS_PARTITION. -/
def execPrsPartition (q : Req) (s : State) : Host.Outcome State Fault Refusal := .next (runOp opPrsPartition 0x0D01 q s)

/-- PRS_CHECKPOINT. -/
def execPrsCheckpoint (q : Req) (s : State) : Host.Outcome State Fault Refusal := .next (runOp opPrsCheckpoint 0x0D02 q s)

/-- PRS_LOG_READ. -/
def execPrsLogRead (q : Req) (s : State) : Host.Outcome State Fault Refusal := .next (runOp opPrsLogRead 0x0D81 q s)

/-- PRS_INFO. -/
def execPrsInfo (q : Req) (s : State) : Host.Outcome State Fault Refusal := .next (runOp opPrsInfo 0x0D82 q s)

/-- STAT_JRNL_FATE. -/
def execStatJrnlFate (q : Req) (s : State) : Host.Outcome State Fault Refusal := .next (runOp opStatJrnlFate 0x0F90 q s)

/-- FW_LOAD. -/
def execFwLoad (q : Req) (s : State) : Host.Outcome State Fault Refusal := .next (runOp opFwLoad 0x0E01 q s)

/-- FW_ACTIVATE. -/
def execFwActivate (q : Req) (s : State) : Host.Outcome State Fault Refusal := .next (runOp opFwActivate 0x0E02 q s)

/-- FW_START_CLEAR. -/
def execFwStartClear (q : Req) (s : State) : Host.Outcome State Fault Refusal := .next (runOp opFwStartClear 0x0E03 q s)

/-- FW_INFO. -/
def execFwInfo (q : Req) (s : State) : Host.Outcome State Fault Refusal := .next (runOp opFwInfo 0x0E81 q s)

end Sys2Proof.Machine
end

