-- ==== Sys2Proof/Machine/Grn.lean ====
section
/-! DEFINITION. Commands of the granary and the pattern store (R457-R484): captures, export, patterns, players, rings. -/

namespace Sys2Proof.Machine

open Sys2Proof

/-! ### Space (R31, R457, R472, R477) -/

/-- The granary in MiB, by the partition in use (R28). -/
def State.grnMib (s : State) : Nat := s.fld R.MMU_HBM_GRN_GIB * 1024

/-- The pattern store in MiB. -/
def State.patMib (s : State) : Nat := s.fld R.MMU_HBM_PAT_GIB * 1024

/-- The granary not allocated, in MiB. -/
def State.grnFree (s : State) : Nat :=
  s.grnMib - sumL (s.grn.caps.map fun c => if c.2.isOpen then c.2.mib else 0) -
    sumL ((s.grn.taps ++ s.grn.injs).map fun r => if r.2.isOpen then r.2.mib else 0)

/-- Granules of 64 KiB that a pattern takes; an EMPTY pattern takes none. -/
def Pattern.gran (p : Pattern) : Nat := if p.empty then 0 else cdiv p.bytes 65536

/-- Granules in use. -/
def State.patGran (s : State) : Nat := sumL (s.grn.pats.map fun p => p.2.gran)

/-! ### Fields of payloads (R459, R469, R481) -/

/-- A comparator of 68 bytes. -/
def cmpOf (b : Bytes) : Cmp := ⟨u8 b 0, sub b 4 32, sub b 36 32⟩

/-- A source: kind, directions, ports, classes, leg, taps. -/
def sourceOf (b : Bytes) (legOff tapOff : Nat) : Source := ⟨u8 b 0, u8 b 1, u8 b 2, u8 b 3, legOf (b.drop legOff), u8 b tapOff⟩

/-- SNAP, 9,600 by default (R459): 0 asks for the default. -/
def snapOf (n : Nat) : Nat := if n = 0 then 9600 else n

/-- The export fields of CAPT_EXPORT from its port byte on. -/
def destOf (b : Bytes) : ExpTo :=
  let n := u8 b 1
  let tags := (if 1 ≤ n then [BitVec.ofNat 32 (num b 11 4)] else []) ++ (if 2 ≤ n then [BitVec.ofNat 32 (num b 15 4)] else [])
  ⟨u8 b 0, num b 3 6, tags, num b 19 4, sub b 23 16⟩

/-- What is wrong with export fields that start at `off`: the port is H0, L0-L3 or S0, at most two tags, the rate in range. -/
def destBad (b : Bytes) (off : Nat) : List (Bool × Chk) :=
  let d := b.drop off
  [(decide (7 < u8 d 0 ∨ u8 d 0 = 5 ∨ u8 d 0 = 6), .at_ off), (decide (2 < u8 d 1), .at_ (off + 1)),
    (decide (num d 19 4 < 1 ∨ 100000 < num d 19 4), .at_ (off + 19))]

/-! ### Captures (R457-R465) -/

/-- Refusals common to the operations on one capture: its id, and that it is open. -/
def State.capBad (s : State) (b : Bytes) : List (Bool × Chk) :=
  [(decide (15 < u8 b 0), .at_ 0), (!(s.cap (u8 b 0)).isOpen, .inState)]

/-- An operation of an OPERATOR that is journaled (R481). -/
def grnOp (len : Nat) (chk : Ctx → State → Bytes → Chk) (app : Ctx → State → Bytes → State) : OpDef :=
  { minRole := 1, jrnl := fun _ => true, badLen := lenIs len, bulk := false, chk := chk,
    app := fun c _ s b => Done.ok (app c s b) }

/-- CAPT_OPEN (R457, R458, R460). -/
def opCaptOpen : OpDef := grnOp 176
  (fun _ s b => Chk.first
    [(decide (15 < u8 b 0), .at_ 0), (decide (1 < u8 b 1), .at_ 1), (decide (num b 4 2 = 0), .at_ 4),
      (decide (snapOf (num b 6 2) < 64 ∨ 9600 < snapOf (num b 6 2)), .at_ 6), (decide (2 < u8 b 8), .at_ 8),
      (decide (u8 b 8 ≠ 0 ∧ 131071 < num b 12 4), .at_ 12), (decide (4 < u8 b 17), .at_ 17), (decide (223 < u8 b 40), .at_ 40),
      (decide (223 < u8 b 108), .at_ 108), ((s.cap (u8 b 0)).isOpen, .inState),
      (decide (s.grnFree < num b 4 2), .refuse St.noBudget 0)] (.ok []))
  fun _ s b => s.setCap (u8 b 0) { Capture.init with
    isOpen := true
    stopMode := u8 b 1 == 1
    bale := tb (u8 b 2) 0
    mib := num b 4 2
    snap := snapOf (num b 6 2)
    src := sourceOf (b.drop 8) 4 8
    trig := u8 b 17
    tone := u8 b 18
    pre := num b 20 4 * 1000
    post := num b 24 4 * 1000
    timeT := bytesTime (sub b 28 12)
    filt := cmpOf (b.drop 40)
    tcmp := cmpOf (b.drop 108) }

/-- CAPT_CLOSE (R457). -/
def opCaptClose : OpDef := grnOp 4
  (fun _ s b => Chk.first (s.capBad b ++ [((s.cap (u8 b 0)).st != .off, .inState)]) (.ok []))
  fun _ s b => s.setGrn { s.grn with caps := kdel s.grn.caps (u8 b 0) }

/-- A capture reaches ON: its buffer is empty, an export of it starts anew; a TIME trigger already past acts at once (R462). -/
def State.capStart (s : State) (c : Nat) : State :=
  let y := (s.cap c).start s.now
  let e := y.exp.map fun j => { j with pos := 0 }
  let s1 := s.setCap c { y with exp := e }
  if y.trig = 3 ∧ y.timeT < s.now then s1.fireTrigger c y.timeT true else s1

/-- CAPT_ENABLE (R18, R31, R457, R563). -/
def opCaptEnable : OpDef := grnOp 4
  (fun c s b => Chk.first ((decide (s.grnMib = 0), .refuse St.noBudget 0) :: s.capBad b ++
    [(decide (s.shut.phase ≠ 0) && !c.replay, .inState), ((s.cap (u8 b 0)).st == .failed, .inState)]) (.ok []))
  fun _ s b =>
    let x := s.cap (u8 b 0)
    match x.st with
    | .off => s.capStart (u8 b 0)
    | .stopping => s.setCap (u8 b 0) { x with pendEn := true }
    | _ => s

/-- A capture is disabled (R465): it stops at the end of the current Emit, and at once while no swath runs. -/
def State.capStop (s : State) (c : Nat) : State :=
  let x := s.cap c
  match x.st with
  | .on =>
    let s1 := s.setCap c { x with st := .stopping, disAt := some s.now }
    if s.swt.begun then s1 else s1.endCap c 1
  | .failed => s.endCap c 4
  | _ => s.setCap c { x with pendEn := false }

/-- CAPT_DISABLE (R18, R465). -/
def opCaptDisable : OpDef := grnOp 4 (fun _ s b => Chk.first (s.capBad b) (.ok [])) fun _ s b => s.capStop (u8 b 0)

/-- CAPT_TRIGGER (R460). -/
def opCaptTrigger : OpDef := grnOp 4
  (fun _ s b => Chk.first (s.capBad b ++ [((s.cap (u8 b 0)).trig != 4, .inState), ((s.cap (u8 b 0)).st != .on, .inState)]) (.ok []))
  fun _ s b => s.fireTrigger (u8 b 0) s.now false

/-- The oldest stream offset still present. -/
def Capture.oldest (x : Capture) : Nat := match x.recs with | r :: _ => r.off | [] => x.off

/-- CAPT_EXPORT (R469). -/
def opCaptExport : OpDef := grnOp 40
  (fun _ s b => Chk.first (s.capBad b ++ destBad b 1) (.ok []))
  fun _ s b =>
    let x := s.cap (u8 b 0)
    s.setCap (u8 b 0) { x with exp := some ⟨destOf (b.drop 1), x.oldest, false, s.loc⟩ }

/-- Stream bytes from an offset on, at most `n`. -/
def Capture.bytesAt (x : Capture) (off n : Nat) : Bytes :=
  ((x.recs.flatMap fun r => r.data.drop (off - r.off)).take n)

/-- Where a read from an offset starts: at the oldest boundary present when the offset was overwritten (R470). -/
def Capture.readAt (x : Capture) (off : Nat) : Nat := max off x.oldest

/-- CAPT_READ (R470). -/
def opCaptRead : OpDef :=
  { minRole := 0, jrnl := fun _ => false, badLen := lenIs 16, bulk := false
    chk := fun _ s b => Chk.first (s.capBad b ++
      [(decide ((s.cap (u8 b 0)).off < num b 4 8), .at_ 4), (decide (16777216 < num b 12 4), .at_ 12)]) (.ok [])
    app := fun _ _ s b =>
      let x := s.cap (u8 b 0)
      let at_ := x.readAt (num b 4 8)
      let d := x.bytesAt at_ (num b 12 4)
      Done.res s (be 8 at_ ++ be 4 d.length ++ d) }

/-- GRN_CAP_STAT of a capture (R483). -/
def Capture.stat (x : Capture) : Nat :=
  x.endCause * 2 ^ 13 + b2n x.bale * 2 ^ 12 + b2n x.stopMode * 2 ^ 11 + b2n x.preShort * 2 ^ 10 + b2n x.late * 2 ^ 9 +
    b2n x.tt.isSome * 2 ^ 8 + b2n x.pendEn * 16 + x.st.code

/-- CAPT_STATUS (R481). -/
def opCaptStatus : OpDef :=
  { minRole := 0, jrnl := fun _ => false, badLen := lenIs 4, bulk := false
    chk := fun _ s b => Chk.first (s.capBad b) (.ok [])
    app := fun _ _ s b =>
      let x := s.cap (u8 b 0)
      Done.res s (be 4 x.stat ++ be 8 x.off ++ be 4 x.rseq ++ timeBytes (x.tt.getD 0)) }

/-- CAPTURE_TIME_TRIGGER (R460): the armed instant of a TIME trigger is reached. -/
def execCaptureTimeTrigger (c : Fin 16) (s : State) : Host.Outcome State Fault Refusal :=
  let x := s.cap c.val
  .next (if x.st = .on ∧ x.trig = 3 ∧ x.tt.isNone ∧ x.timeT ≤ s.now then s.fireTrigger c.val x.timeT false else s)

/-- At the end of Emit bales close, disabled captures stop, and captures whose POST window ended do (R463, R465, R466). -/
def State.capEmitEnd (s : State) : State :=
  s.grn.caps.foldl (fun t p =>
    let c := p.1
    let x := t.cap c
    let t1 := match x.closeBale with
      | some y => t.setCap c y
      | none => t.endCap c 3
    let y := t1.cap c
    match y.st with
    | .stopping => t1.endCap c 1
    | .on => match y.tt with
      | some tt => if y.post ≠ 0 ∧ tt + y.post * 65536 < s.swt.nextT then t1.endCap c 2 else t1
      | none => t1
    | _ => t1) s

/-! ### Export (R468, R469, R473) -/

/-- A data frame to a host (R468). -/
def State.dataFrame (s : State) (d : ExpTo) (kind flags id ctr : Nat) (pay : Bytes) : Bytes :=
  let h := be 1 (16 + kind) ++ be 1 flags ++ be 2 id ++ be 8 ctr ++ be 4 pay.length
  ethFrame d.dst (s.macOf d.port) d.tags 0x88B7 (h ++ be 8 (sipHash24 d.key (h ++ pay)).toNat ++ zeros 8 ++ pay)

/-- The payload that a data frame to a destination can carry (R468). -/
def State.dataRoom (s : State) (d : ExpTo) : Nat := s.portMax d.port - (14 + 4 * d.tags.length + 32 + 4)

/-- Send a data frame; the buckets of the stream and, for exports and tap rings, the shared one are charged (R469). -/
def State.sendData (s : State) (d : ExpTo) (b : Bytes) (o : TxOrigin) (gate shared : Bool) : State :=
  let f : TxFrame := { TxFrame.plain b 3 o with exportG := gate }
  let s1 := (s.txRequest d.port f).1.bump R.GRN_EXP_FRM_CNT
  if shared then s1.setGrn { s1.grn with expAt := s.loc + paceI (flen b) (s.fld R.GRN_EXP_RATE_MBPS) } else s1

/-- The next EXPORT frame of a capture, if its bucket and the shared one allow it (R469): frames are full but for the last. -/
def State.exportCapture (s : State) (c : Nat) : State :=
  let x := s.cap c
  match x.exp with
  | none => s
  | some j =>
    if s.loc < j.nextAt ∨ s.loc < s.grn.expAt then s
    else
      let lost := decide (j.pos < x.oldest)
      let pos := max j.pos x.oldest
      let room := s.dataRoom j.dest
      let d := x.bytesAt pos room
      let ended := x.st == .off && x.endCause != 0 && decide (pos + d.length = x.off)
      if d.length < room ∧ ended = false then s
      else
        let fl := b2n ended * 128 + b2n (lost || j.resync) * 64 + b2n x.bale * 32
        let b := s.dataFrame j.dest 1 fl c pos d
        let j1 : ExpJob := { j with pos := pos + d.length, resync := false, nextAt := s.loc + paceI (flen b) j.dest.mbps }
        let s1 := s.setCap c { x with exp := if ended then none else some j1 }
        let s2 := if lost then (s1.bump R.GRN_EXP_LOST_CNT).raise R.GRN_EVT 8 else s1
        s2.sendData j.dest b (.xport true c) true true

/-- A ring that is stopping and has nothing left reaches OFF, or starts again (R18). -/
def State.ringRest (s : State) (kind r : Nat) : State :=
  let x := s.gring kind r
  if x.st = .stopping ∧ x.ents.isEmpty ∧ x.wbs.isEmpty then
    let y := { x with st := if x.pendEn then .on else .off, pendEn := false }
    s.setGring kind r (if x.pendEn then { y with idx := 0, credit := 0, launched := 0, wbNext := 0 } else y)
  else s

/-- As many whole entries as fit in `n` bytes. -/
def fitEntries : Nat → List (Nat × Bytes × Nat) → List (Nat × Bytes × Nat)
  | _, [] => []
  | n, e :: r => if e.2.1.length ≤ n then e :: fitEntries (n - e.2.1.length) r else []

/-- The next TAP_DATA frame of a tap ring (R473). -/
def State.exportTap (s : State) (r : Nat) : State :=
  let x := s.gring 0 r
  if s.loc < x.nextAt ∨ s.loc < s.grn.expAt then s
  else match fitEntries (s.dataRoom x.dest) x.ents with
    | [] => s
    | e :: es =>
      let all := e :: es
      let b := s.dataFrame x.dest 2 0 r e.1 (all.flatMap fun q => q.2.1)
      let s1 := s.setGring 0 r { x with ents := x.ents.drop all.length, nextAt := s.loc + paceI (flen b) x.dest.mbps }
      ((s1.sendData x.dest b (.xport false r) true true).ringRest 0 r)

/-- EXPORT_FRAME_SEND (R469, R473). -/
def execExportFrameSend (x : ExportRef) (s : State) : Host.Outcome State Fault Refusal :=
  .next (match x with
    | .capture c => s.exportCapture c.val
    | .tap r => s.exportTap r.val)

/-! ### Patterns (R467, R471, R477) -/

/-- The length of a record at the head of bytes: header and padded data. -/
def recLen (b : Bytes) : Nat := 32 + (num b 4 2 + 7) / 8 * 8

/-- The offset of the first record that a pattern may not hold, or none (R477); `last` is the stamp before. -/
def recsFault : Nat → Bytes → Nat → Nat → Option Nat
  | 0, b, off, _ => if b.isEmpty then none else some off
  | k + 1, b, off, last =>
    if b.isEmpty then none
    else
      let kind := u8 b 0 / 16
      let t := bytesTime (sub b 8 12)
      if b.length < 32 ∨ b.length < recLen b ∨ u8 b 0 % 16 ≠ 1 ∨ kind = 0 ∨ 3 < kind ∨ tb (u8 b 1) 6 ∨ t < last then some off
      else recsFault k (b.drop (recLen b)) (off + recLen b) t

/-- The items of a record stream; `t0` is the stamp of the first. -/
def recItems : Nat → Bytes → Nat → List PItem
  | 0, _, _ => []
  | k + 1, b, t0 =>
    if b.isEmpty then []
    else
      let t := bytesTime (sub b 8 12)
      let i : PItem := ⟨u8 b 0 / 16, t - t0, sub b 32 (num b 4 2), u8 b 3, num b 20 4 / 2 ^ 29, u8 b 30 % 4, u8 b 1, num b 28 2⟩
      i :: recItems k (b.drop (recLen b)) t0

/-- A pattern of a record stream. -/
def patternOf (b : Bytes) : Pattern := ⟨false, b.length, recItems (b.length / 32 + 1) b (bytesTime (sub b 8 12))⟩

/-- Expand a sequence of bales; none where one fails its checks (R485, R496). -/
def unbale : Nat → Bytes → Option Bytes
  | 0, b => if b.isEmpty then some [] else none
  | k + 1, b =>
    if b.isEmpty then some []
    else match checkBale b with
      | .inl _ => none
      | .inr d => (unbale k (b.drop (20 + num b 12 4))).map (d ++ ·)

/-- Whether a player uses a pattern. -/
def State.patUsed (s : State) (i : Nat) : Bool := s.grn.plys.any fun p => p.2.pat == i && p.2.st != .off

/-- The record stream that a PATT_LOAD carries, or the fault offset of its payload. -/
def pattStream (b : Bytes) : Sum Nat Bytes :=
  if b.length ≠ 12 + num b 4 8 then .inl (min b.length (12 + num b 4 8))
  else
    let d := if tb (u8 b 2) 0 then unbale (b.length / 20 + 1) (b.drop 12) else some (b.drop 12)
    match d with
    | none => .inl 12
    | some d => match recsFault (d.length / 32 + 1) d 12 0 with
      | some off => .inl off
      | none => .inr d

/-- The journal's form of a PATT_LOAD: pattern, flags, length and the CRC-32C of the data (R471). -/
def pattJournal (b : Bytes) : Bytes := b.take 12 ++ be 4 (crc32c (b.drop 12)).toNat

/-- PATT_LOAD (R471, R477). A re-executed record creates the pattern as EMPTY. -/
def opPattLoad : OpDef :=
  { minRole := 1, jrnl := fun _ => true, bulk := true
    badLen := fun b => if b.length < 12 then some b.length else none
    chk := fun c s b =>
      if c.replay then .ok []
      else match pattStream b with
        | .inl off => .refuse St.badLen off
        | .inr d => Chk.first
          [(decide (4095 < num b 0 2), .at_ 0), (s.patUsed (num b 0 2), .inState),
            (decide (s.patMib * 16 + (kgetD s.grn.pats (num b 0 2) ⟨true, 0, []⟩).gran < s.patGran + cdiv d.length 65536), .refuse St.noBudget 0)] (.ok [])
    app := fun c _ s b =>
      let p := if c.replay then ⟨true, num b 4 8, []⟩ else match pattStream b with | .inr d => patternOf d | .inl _ => ⟨true, 0, []⟩
      Done.ok (s.setGrn { s.grn with pats := kset s.grn.pats (num b 0 2) p }) }

/-- Whether an offset lies on a record boundary of a capture. -/
def Capture.boundary (x : Capture) (off : Nat) : Bool := off == x.off || x.recs.any fun r => r.off == off

/-- PATT_FROM_CAPT (R477). -/
def opPattFromCapt : OpDef := grnOp 20
  (fun c s b =>
    let x := s.cap (u8 b 2)
    let off := num b 4 8
    let len := num b 12 8
    let d := x.bytesAt off len
    if c.replay then .ok []
    else Chk.first
      [(decide (4095 < num b 0 2), .at_ 0), (decide (15 < u8 b 2), .at_ 2), (!x.isOpen || x.st != .off || x.bale, .inState),
        (s.patUsed (num b 0 2), .inState), (!x.boundary off || decide (off < x.oldest), .at_ 4),
        (!x.boundary (off + len) || decide (len = 0), .at_ 12)]
      (match recsFault (len / 32 + 1) d 0 0 with
        | some o => .refuse St.badLen o
        | none => if s.patMib * 16 + (kgetD s.grn.pats (num b 0 2) ⟨true, 0, []⟩).gran < s.patGran + cdiv len 65536 then .refuse St.noBudget 0 else .ok []))
  fun c s b =>
    let p := if c.replay then ⟨true, num b 12 8, []⟩ else patternOf ((s.cap (u8 b 2)).bytesAt (num b 4 8) (num b 12 8))
    s.setGrn { s.grn with pats := kset s.grn.pats (num b 0 2) p }

/-- PATT_DELETE (R477). -/
def opPattDelete : OpDef := grnOp 4
  (fun _ s b => Chk.first
    [(decide (4095 < num b 0 2), .at_ 0), (s.patUsed (num b 0 2) || !khas s.grn.pats (num b 0 2), .inState)] (.ok []))
  fun _ s b => s.setGrn { s.grn with pats := kdel s.grn.pats (num b 0 2) }

/-- The span of a pattern in 2^-16 ns. -/
def Pattern.span (p : Pattern) : Nat := match p.items.getLast? with | some i => i.di | none => 0

/-- PATT_INFO (R481). -/
def opPattInfo : OpDef :=
  { minRole := 0, jrnl := fun _ => false, badLen := lenIs 4, bulk := false
    chk := fun _ _ b => Chk.first [(decide (4095 < num b 0 2), .at_ 0)] (.ok [])
    app := fun _ _ s b => match kget s.grn.pats (num b 0 2) with
      | none => Done.res s (zeros 24)
      | some p => Done.res s (be 1 (if p.empty then 2 else 1) ++ zeros 3 ++ be 8 p.bytes ++ be 4 p.items.length ++ be 8 (p.span / 65536)) }

/-! ### Players (R478-R480) -/

/-- A player that is OFF. -/
def Player.init : Player :=
  { st := .off, pendEn := false, pat := 0, start := 0, shift := 0, reps := 0, per := 0, port := none, cls := none, leg := none, rep := 0,
    item := 0, done := 0, late := false, lateNs := 0, passed := 0 }

/-- The player of a number. -/
def State.player (s : State) (p : Nat) : Player := kgetD s.grn.plys p Player.init

/-- Replace a player. -/
def State.setPlayer (s : State) (p : Nat) (x : Player) : State :=
  (s.setGrn { s.grn with plys := kset s.grn.plys p x }).report (.player p) (s.player p).st x.st

/-- The pattern of a player. -/
def State.patOf (s : State) (i : Nat) : Pattern := kgetD s.grn.pats i ⟨true, 0, []⟩

/-- Whether a TAP item fits a leg's PEER input: rate and samples per frame (R478). -/
def State.tapFits (s : State) (l : Nat) (i : PItem) : Bool :=
  let t := s.legTmpl l
  match t.peer with
  | some r => r == i.rate && i.data.length == 5 * (rateHz r * t.f / 1000)
  | none => false

/-- Whether a pattern may be played towards a leg, or towards none. -/
def State.tapsOk (s : State) (p : Pattern) (leg : Nat) : Bool :=
  p.items.all fun i => i.kind != 3 || (leg != 0xFFFFFFFF && s.tapFits (leg % 2 ^ 17) i)

/-- The least lead of a playback start, in 2^-16 ns (R59). -/
def playLead : Nat := nsI 20000

/-- The first TMU tick at or after an instant: ticks lie 1.25 ns apart (R59, R69). -/
def tickAt (t : Inst) : Inst := nextMul 81920 t

/-- The first repeat of a late start: its number (R61, R479). -/
def firstRep (t per from_ : Nat) : Nat := if from_ ≤ t then 0 else cdiv (from_ - t) (max 1 per)

/-- A player with its payload's settings, armed now (R479). -/
def State.armPlayer (s : State) (b : Bytes) : Player :=
  let T := bytesTime (sub b 20 12)
  let from_ := s.now + playLead
  let reps := num b 6 2
  let per := num b 8 8 * 65536
  let fl := u8 b 1
  let late := decide (T < from_)
  let k := if reps = 1 then 0 else firstRep T per from_
  let shift := if reps = 1 ∧ late then tickAt from_ - T else 0
  { Player.init with
    st := .starting
    pat := num b 4 2
    start := T
    shift := shift
    reps := reps
    per := per
    port := if tb fl 0 then some (u8 b 2) else none
    cls := if tb fl 1 then some (u8 b 3) else none
    leg := if num b 16 4 = 0xFFFFFFFF then none else some (num b 16 4 % 2 ^ 17)
    rep := k
    done := min 65535 k
    late := decide (reps = 1) && late
    lateNs := min (2 ^ 32 - 1) (shift / 65536) }

/-- A player stops: it goes through STOPPING to OFF (R480). -/
def State.endPlayer (s : State) (p : Nat) : State := (s.setPlayer p { s.player p with st := .off, pendEn := false }).raise R.GRN_EVT 32

/-- PATT_PLAY (R18, R478, R479, R563): a player that runs is left as it is. A start armed late with one repeat is answered E_LATE (R60); repeats skipped are counted (R61). -/
def opPattPlay : OpDef :=
  { minRole := 1, jrnl := fun _ => true, badLen := lenIs 32, bulk := false
    chk := fun c s b =>
      let p := s.patOf (num b 4 2)
      Chk.first
        [(decide (63 < u8 b 0), .at_ 0), (tb (u8 b 1) 0 && decide (7 < u8 b 2), .at_ 2), (tb (u8 b 1) 1 && decide (6 < u8 b 3), .at_ 3),
          (decide (4095 < num b 4 2), .at_ 4), (decide (s.shut.phase ≠ 0) && !c.replay, .inState),
          (decide (s.patMib = 0), .refuse St.noBudget 0), (p.empty || !khas s.grn.pats (num b 4 2), .inState),
          ((s.player (u8 b 0)).st == .failed, .inState),
          (decide (num b 6 2 ≠ 1 ∧ num b 8 8 * 65536 < p.span + 65536), .at_ 8),
          (decide (num b 16 4 ≠ 0xFFFFFFFF ∧ 131071 < num b 16 4), .at_ 16), (!s.tapsOk p (num b 16 4), .inState)] (.ok [])
    app := fun c _ s b =>
      if (s.player (u8 b 0)).st ≠ .off then Done.ok s
      else
      let x := s.armPlayer b
      let y := if c.replay then { x with late := false } else x
      let s1 := s.setPlayer (u8 b 0) y
      let s2 := (s1.bumpBy R.GRN_PLAY_SKIP_CNT y.rep).bumpBy R.SWT_SKIP_OCC_CNT y.rep
      let s3 := if y.reps ≠ 0 ∧ y.reps ≤ y.rep then s2.endPlayer (u8 b 0) else s2
      ⟨s3, if y.late then St.late else St.ok, 0, [], false⟩ }

/-- PATT_STOP (R480). -/
def opPattStop : OpDef := grnOp 4 (fun _ _ b => Chk.first [(decide (63 < u8 b 0), .at_ 0)] (.ok []))
  fun _ s b => if (s.player (u8 b 0)).st = .off then s else s.endPlayer (u8 b 0)

/-- The start of a player is reached: it goes ON; a late start is counted now (R60, R479). -/
def State.playStart (s : State) (p : Nat) : State :=
  let x := s.player p
  if x.st = .starting ∧ x.start + x.shift + x.rep * x.per ≤ s.now then
    let s1 := s.setPlayer p { x with st := .on }
    if x.late then s1.lateAct.raise R.GRN_EVT 16 else s1
  else s

/-- TIMED_ACTION_EXEC (R60): a timed output's pulse, or the start of a player. -/
def execTimedActionExec (a : TimedRef) (s : State) : Host.Outcome State Fault Refusal :=
  .next (match a with
    | .tout n => s.toutFire n.val
    | .play p => s.playStart p.val)

/-- The due swath of a leg that takes a TAP item: its boundary, and how many due swaths it had to wait for (R478). -/
def tapSlot (held : List Inst) (per : Nat) : Nat → Inst → Nat → Inst × Nat
  | 0, b, n => (b, n)
  | k + 1, b, n => if held.contains b then tapSlot held per k (b + per) (n + 1) else (b, n)

/-- Hand a TAP item to its leg (R478). -/
def State.tapItem (s : State) (l : Nat) (i : PItem) (v : Inst) : State :=
  let x := s.leg l
  let per := max 1 x.per
  let b0 := s.nextPlaced x
  let b1 := if v ≤ b0 then b0 else b0 + cdiv (v - b0) per * per
  let q := kgetD s.grn.tapQ l []
  let (b, n) := tapSlot (q.map (·.1)) per (q.length + 1) b1 0
  (s.setGrn { s.grn with tapQ := kset s.grn.tapQ l (q ++ [(b, i)]) }).bumpBy R.GRN_PLAY_LATE_CNT n

/-- Release an item: a frame enters its queue under the PLAYBACK gate, a TAP item goes to its leg (R478). -/
def State.releaseItem (s : State) (p : Nat) (x : Player) (i : PItem) (v : Inst) : State :=
  let s1 := s.bump R.GRN_PLAY_ITEM_CNT
  let s2 := if v < x.passed then s1.bump R.GRN_PLAY_LATE_CNT else s1
  if i.kind = 3 then match x.leg with
    | some l => s2.tapItem l i v
    | none => s2
  else
    let f : TxFrame := { TxFrame.plain i.data (x.cls.getD i.cls) (.pattern p) with playback := true }
    (s2.txRequest (x.port.getD i.port % 8) f).1

/-- PATTERN_ITEM_RELEASE (R478-R480): the next item of a player, once its instant is reached. -/
def execPatternItemRelease (pl : Fin 64) (s : State) : Host.Outcome State Fault Refusal :=
  let p := pl.val
  let x := s.player p
  let pat := s.patOf x.pat
  .next (match pat.items[x.item]? with
    | none => if x.st = .on then s.endPlayer p else s
    | some i =>
      let v := x.start + x.shift + x.rep * x.per + i.di
      if x.st ≠ .on ∨ s.now < v then s
      else
        let s1 := s.releaseItem p x i v
        if x.item + 1 < pat.items.length then s1.setPlayer p { x with item := x.item + 1 }
        else
          let s2 := s1.setPlayer p { x with item := 0, rep := x.rep + 1, done := min 65535 (x.done + 1) }
          if x.reps ≠ 0 ∧ x.reps ≤ x.rep + 1 then s2.endPlayer p else s2)

/-! ### Rings (R472-R476) -/

/-- The MiB that a ring takes (R472). -/
def ringMib (kind n : Nat) : Nat := cdiv (2 ^ n * (if kind = 0 then 2048 else 9632)) 1048576

/-- Refusals common to the operations on one ring: id, kind, and that it is open. -/
def State.ringBad (s : State) (b : Bytes) : List (Bool × Chk) :=
  [(decide (15 < u8 b 0), .at_ 0), (decide (1 < u8 b 1), .at_ 1), (!(s.gring (u8 b 1) (u8 b 0)).isOpen, .inState)]

/-- The offset of the export fields of a RING_OPEN: after source, SNAP and filter for a tap ring (log entry 15). -/
def ringDestOff (kind : Nat) : Nat := if kind = 0 then 85 else 5

/-- RING_OPEN (R472, R473): the layout is 4 bytes, for a tap ring source (9), reserved, SNAP (2), filter (68), then the export
fields of CAPT_EXPORT behind one reserved byte (log entry 15). -/
def opRingOpen : OpDef :=
  { minRole := 1, jrnl := fun _ => true, bulk := false
    badLen := fun b => lenIs (if u8 b 1 = 0 then 124 else 44) b
    chk := fun _ s b =>
      let k := u8 b 1
      Chk.first ([(decide (15 < u8 b 0), .at_ 0), (decide (1 < k), .at_ 1), (decide (u8 b 2 < 6 ∨ 16 < u8 b 2), .at_ 2),
        (decide (k = 0 ∧ 1 < u8 b 4), .at_ 4), (decide (k = 0 ∧ u8 b 4 = 1 ∧ 131071 < num b 8 4), .at_ 8),
        (decide (k = 0 ∧ (snapOf (num b 14 2) < 64 ∨ 9600 < snapOf (num b 14 2))), .at_ 14), (decide (k = 0 ∧ 223 < u8 b 16), .at_ 16)] ++
        destBad b (ringDestOff k) ++
        [((s.gring k (u8 b 0)).isOpen, .inState), (decide (s.grnFree < ringMib k (u8 b 2)), .refuse St.noBudget 0)]) (.ok [])
    app := fun _ _ s b =>
      let k := u8 b 1
      let dest := destOf (b.drop (ringDestOff k))
      let x : GRing := { GRing.init with isOpen := true, n := u8 b 2, dest := dest, mib := ringMib k (u8 b 2) }
      let y : GRing := if k = 0 then { x with src := sourceOf (b.drop 4) 4 8, snap := snapOf (num b 14 2), filt := cmpOf (b.drop 16) } else x
      Done.ok (s.setGring k (u8 b 0) y) }

/-- RING_CLOSE (R481). -/
def opRingClose : OpDef := grnOp 4
  (fun _ s b => Chk.first (s.ringBad b ++ [((s.gring (u8 b 1) (u8 b 0)).st != .off, .inState)]) (.ok []))
  fun _ s b => if u8 b 1 = 0 then s.setGrn { s.grn with taps := kdel s.grn.taps (u8 b 0) }
    else s.setGrn { s.grn with injs := kdel s.grn.injs (u8 b 0) }

/-- A ring goes ON with nothing stored (R472). -/
def State.ringStart (s : State) (kind r : Nat) : State :=
  s.setGring kind r { s.gring kind r with st := .on, idx := 0, credit := 0, ents := [], launched := 0, wbs := [], wbNext := 0 }

/-- RING_ENABLE (R18, R472, R563). -/
def opRingEnable : OpDef := grnOp 4
  (fun c s b => Chk.first (s.ringBad b ++
    [(decide (s.shut.phase ≠ 0) && !c.replay, .inState), ((s.gring (u8 b 1) (u8 b 0)).st == .failed, .inState)]) (.ok []))
  fun _ s b =>
    let x := s.gring (u8 b 1) (u8 b 0)
    match x.st with
    | .off => s.ringStart (u8 b 1) (u8 b 0)
    | .stopping => s.setGring (u8 b 1) (u8 b 0) { x with pendEn := true }
    | _ => s

/-- A ring stops: entries not launched are dropped, what was sent or written leaves first (R17, R18). -/
def State.ringStop (s : State) (kind r : Nat) : State :=
  let x := s.gring kind r
  match x.st with
  | .on =>
    let ents := if kind = 1 then x.ents.filter fun e => decide (e.1 < x.launched) else x.ents
    (s.setGring kind r { x with st := .stopping, ents := ents }).ringRest kind r
  | .failed => s.setGring kind r { x with st := .off }
  | _ => s.setGring kind r { x with pendEn := false }

/-- RING_DISABLE. -/
def opRingDisable : OpDef := grnOp 4 (fun _ s b => Chk.first (s.ringBad b) (.ok [])) fun _ s b => s.ringStop (u8 b 1) (u8 b 0)

/-- RING_FEED (R474): its bulk frames act as they arrive, and nothing more happens when it completes. -/
def opRingFeed : OpDef :=
  { minRole := 1, jrnl := fun _ => true, badLen := lenIs 4, bulk := true
    chk := fun c s b => if c.replay then .ok [] else Chk.first (s.ringBad b) (.ok [])
    app := fun _ _ s _ => Done.ok s }

/-- A drop of a credit or of inject entries (R474, R475). -/
def State.ringDrop (s : State) : State := (s.bump R.GRN_INJ_DROP_CNT).raise R.GRN_EVT 128

/-- Store the inject entries of one bulk frame (R475): duplicates are skipped; one out of order, past the room, or cut short drops
the rest. A stored entry is its 32 bytes, one byte that says that it goes late (R476), and its frame. -/
def State.storeEntries (r : Nat) : Nat → Nat → Bytes → State → State
  | 0, _, _, s => s
  | k + 1, i, b, s =>
    if b.isEmpty then s
    else
      let x := s.gring 1 r
      let len := 32 + (num b 4 2 + 7) / 8 * 8
      if b.length < 32 ∨ b.length < 32 + num b 4 2 then s.ringDrop
      else if i < x.idx then State.storeEntries r k (i + 1) (b.drop len) s
      else if x.idx < i ∨ 2 ^ x.n ≤ x.ents.length then s.ringDrop
      else
        let t := bytesTime (sub b 8 12)
        let late := decide (t ≠ 0 ∧ t < s.now + playLead)
        let e := b.take 32 ++ be 1 (b2n late) ++ sub b 32 (num b 4 2)
        State.storeEntries r k (i + 1) (b.drop len) (s.setGring 1 r { x with idx := x.idx + 1, ents := x.ents ++ [(i, e, s.loc)] })

/-- One bulk frame of a RING_FEED (R474): index, credit, entries. -/
def State.ringFeed (s : State) (kind r : Nat) (b : Bytes) : State :=
  let x := s.gring kind r
  if x.st ≠ .on ∨ b.length < 16 then s
  else if kind = 0 then
    let c := num b 8 8
    if c = 2 ^ 64 - 1 then s
    else if c < x.credit ∨ x.idx + 2 ^ x.n ≤ c then s.ringDrop
    else s.setGring 0 r { x with credit := c }
  else State.storeEntries r (b.length / 32 + 1) (num b 0 8) (b.drop 16) s

/-- RING_STATUS (R481): for a tap ring the credit, for an inject ring the next write-back index. -/
def opRingStatus : OpDef :=
  { minRole := 0, jrnl := fun _ => false, badLen := lenIs 4, bulk := false
    chk := fun _ s b => Chk.first (s.ringBad b) (.ok [])
    app := fun _ _ s b =>
      let x := s.gring (u8 b 1) (u8 b 0)
      Done.res s (be 1 x.st.code ++ zeros 3 ++ be 8 x.idx ++ be 8 (if u8 b 1 = 0 then x.credit else x.wbNext)) }

/-- A write-back of an inject entry that never reaches a transmitter (R476). -/
def State.injRefuse (s : State) (r : Nat) (i : Nat) (e : Bytes) (st : Nat) : State :=
  let x := s.gring 1 r
  s.setGring 1 r { x with ents := x.ents.filter (fun q => q.1 != i), wbs := x.wbs ++ [(i, completion 0xC3 0 st 0 0 none (num e 28 4), s.loc)] }

/-- INJECT_LAUNCH (R476): the next entry enters its queue at or after its launch instant, a late one at once. -/
def execInjectLaunch (ring : Fin 16) (s : State) : Host.Outcome State Fault Refusal :=
  let r := ring.val
  let x := s.gring 1 r
  .next (if x.st ≠ .on then s
    else match x.ents.find? fun e => e.1 == x.launched with
      | none => s
      | some (i, e, _) =>
        let t := bytesTime (sub e 8 12)
        let late := u8 e 32 == 1
        if late = false ∧ t ≠ 0 ∧ s.now < t then s
        else
          let s1 := s.setGring 1 r { x with launched := x.launched + 1 }
          if 6 < u8 e 2 ∨ 7 < u8 e 1 then s1.injRefuse r i e St.state
          else
            let f : TxFrame := { TxFrame.plain (e.drop 33) (u8 e 2) (.inject r i) with tsReq := tb (u8 e 0) 7 }
            let (s2, ok) := s1.txRequest (u8 e 1) f
            if ok then
              let s3 := s2.bump R.GRN_INJ_ENT_CNT
              if late then (s3.bump R.GRN_INJ_LATE_CNT).raise R.GRN_EVT 64 else s3
            else s2.injRefuse r i e St.badLen)

/-- The write-backs in index order from the next one on, without a gap. -/
def wbRun : Nat → List (Nat × Bytes × Nat) → Nat → List (Nat × Bytes × Nat)
  | 0, _, _ => []
  | k + 1, l, i => match l.find? fun w => w.1 == i with
    | some w => w :: wbRun k l (i + 1)
    | none => []

/-- INJECT_DONE_SEND (R476): 8 write-backs pending, or 100 µs after the oldest. -/
def execInjectDoneSend (ring : Fin 16) (s : State) : Host.Outcome State Fault Refusal :=
  let r := ring.val
  let x := s.gring 1 r
  let run := (wbRun x.wbs.length x.wbs x.wbNext).take (s.dataRoom x.dest / 32)
  .next (match run with
    | [] => s
    | w :: ws =>
      let all := w :: ws
      if (all.length < 8 ∧ all.all fun q => decide (s.loc < q.2.2 + nsI 100000)) ∨ s.loc < x.nextAt then s
      else
        let b := s.dataFrame x.dest 3 0 r w.1 (all.flatMap fun q => q.2.1)
        let left := x.wbs.filter fun q => !all.contains q
        let s1 := s.setGring 1 r { x with wbs := left, wbNext := x.wbNext + all.length, nextAt := s.loc + paceI (flen b) x.dest.mbps }
        ((s1.sendData x.dest b .none false false).ringRest 1 r))

/-! ### Registers (R483) -/

/-- The registers of the block that mirror state. -/
def grnView (s : State) (i2c : Bool) (a : Nat) : Option Nat :=
  let x := s.cap (s.fld R.GRN_SEL_CAPT)
  let r := s.gring (s.fld R.GRN_SEL_RKIND) (s.fld R.GRN_SEL_RING)
  let p := s.player (s.fld R.GRN_SEL_PLAYER)
  if a = R.GRN_SPACE then some (s.grnMib * 2 ^ 16 + s.grnFree)
  else if a = R.GRN_PSPACE then some (s.patMib * 2 ^ 16 + (s.patMib * 16 - s.patGran) / 16)
  else if a = R.GRN_CAP_STAT then some x.stat
  else if a = R.GRN_CAP_STRM_HI then some (x.off / 2 ^ 32)
  else if a = R.GRN_CAP_STRM_LO then some (if i2c then s.grn.strmLatI else s.grn.strmLatQ)
  else if a = R.GRN_CAP_BUF then some (if x.isOpen then x.mib else 0)
  else if a = R.GRN_RING_STAT then
    let lev := if s.fld R.GRN_SEL_RKIND = 0 then r.idx - r.credit else r.ents.length
    some (b2n r.isOpen * 2 ^ 31 + lev * 2 ^ 12 + b2n r.pendEn * 16 + r.st.code)
  else if a = R.GRN_PLY_STAT then some (p.done * 2 ^ 16 + b2n p.late * 32 + b2n p.pendEn * 16 + p.st.code)
  else if a = R.GRN_PLY_LATE then some p.lateNs
  else none

/-- The range of R483. -/
def grnRule (_s : State) (a v : Nat) : Option Nat :=
  if a = R.GRN_EXP_RATE ∧ (bits v 16 0 < 1 ∨ 100000 < bits v 16 0) then some St.state else none

/-- A read of GRN_CAP_STRM_HI latches the low word for its path (R483). -/
def State.strmLatch (s : State) (i2c : Bool) : State :=
  let lo := (s.cap (s.fld R.GRN_SEL_CAPT)).off % 2 ^ 32
  if i2c then s.setGrn { s.grn with strmLatI := lo } else s.setGrn { s.grn with strmLatQ := lo }

/-- CAPT_OPEN. -/
def execCaptOpen (q : Req) (s : State) : Host.Outcome State Fault Refusal := .next (runOp opCaptOpen 0x0801 q s)

/-- CAPT_CLOSE. -/
def execCaptClose (q : Req) (s : State) : Host.Outcome State Fault Refusal := .next (runOp opCaptClose 0x0802 q s)

/-- CAPT_ENABLE. -/
def execCaptEnable (q : Req) (s : State) : Host.Outcome State Fault Refusal := .next (runOp opCaptEnable 0x0803 q s)

/-- CAPT_DISABLE. -/
def execCaptDisable (q : Req) (s : State) : Host.Outcome State Fault Refusal := .next (runOp opCaptDisable 0x0804 q s)

/-- CAPT_TRIGGER. -/
def execCaptTrigger (q : Req) (s : State) : Host.Outcome State Fault Refusal := .next (runOp opCaptTrigger 0x0805 q s)

/-- CAPT_EXPORT. -/
def execCaptExport (q : Req) (s : State) : Host.Outcome State Fault Refusal := .next (runOp opCaptExport 0x0806 q s)

/-- CAPT_READ. -/
def execCaptRead (q : Req) (s : State) : Host.Outcome State Fault Refusal := .next (runOp opCaptRead 0x0881 q s)

/-- CAPT_STATUS. -/
def execCaptStatus (q : Req) (s : State) : Host.Outcome State Fault Refusal := .next (runOp opCaptStatus 0x0882 q s)

/-- PATT_LOAD. -/
def execPattLoad (q : Req) (s : State) : Host.Outcome State Fault Refusal := .next (runOp opPattLoad 0x0901 q s)

/-- PATT_FROM_CAPT. -/
def execPattFromCapt (q : Req) (s : State) : Host.Outcome State Fault Refusal := .next (runOp opPattFromCapt 0x0902 q s)

/-- PATT_DELETE. -/
def execPattDelete (q : Req) (s : State) : Host.Outcome State Fault Refusal := .next (runOp opPattDelete 0x0903 q s)

/-- PATT_PLAY. -/
def execPattPlay (q : Req) (s : State) : Host.Outcome State Fault Refusal := .next (runOp opPattPlay 0x0904 q s)

/-- PATT_STOP. -/
def execPattStop (q : Req) (s : State) : Host.Outcome State Fault Refusal := .next (runOp opPattStop 0x0905 q s)

/-- PATT_INFO. -/
def execPattInfo (q : Req) (s : State) : Host.Outcome State Fault Refusal := .next (runOp opPattInfo 0x0981 q s)

/-- RING_OPEN. -/
def execRingOpen (q : Req) (s : State) : Host.Outcome State Fault Refusal := .next (runOp opRingOpen 0x0A01 q s)

/-- RING_CLOSE. -/
def execRingClose (q : Req) (s : State) : Host.Outcome State Fault Refusal := .next (runOp opRingClose 0x0A02 q s)

/-- RING_ENABLE. -/
def execRingEnable (q : Req) (s : State) : Host.Outcome State Fault Refusal := .next (runOp opRingEnable 0x0A03 q s)

/-- RING_DISABLE. -/
def execRingDisable (q : Req) (s : State) : Host.Outcome State Fault Refusal := .next (runOp opRingDisable 0x0A04 q s)

/-- RING_FEED. -/
def execRingFeed (q : Req) (s : State) : Host.Outcome State Fault Refusal := .next (runOp opRingFeed 0x0A05 q s)

/-- RING_STATUS. -/
def execRingStatus (q : Req) (s : State) : Host.Outcome State Fault Refusal := .next (runOp opRingStatus 0x0A81 q s)

end Sys2Proof.Machine
end

