-- ==== Sys2Proof/Machine/Stat.lean ====
section
/-! DEFINITION. STAT operations and the IPFIX exporter (R240, R306, R544-R548). -/

namespace Sys2Proof.Machine

open Sys2Proof

/-! ### Figures of a leg (R240) -/

/-- The counters of the packet engine that are kept per leg (R218). -/
def pkeLegCnts : List Nat :=
  [R.PKE_RTP_CNT, R.PKE_RTCP_CNT, R.PKE_EVT_RX_CNT, R.PKE_MISS_CNT, R.PKE_SRC_CNT, R.PKE_SSRC_CNT, R.PKE_RTP_BAD_CNT, R.PKE_RTCP_BAD_CNT,
    R.PKE_AUTH_CNT, R.PKE_REPLAY_CNT, R.PKE_KEY_EXP_CNT, R.PKE_EVT_DUP_CNT, R.PKE_TX_RTP_CNT, R.PKE_TX_RTCP_CNT, R.PKE_TX_EVT_CNT,
    R.PKE_TX_FALLBACK_CNT, R.PKE_TX_STALE_CNT, R.PKE_ROFF_ADJ_CNT]

/-- The figures of R240 in the order of its table, 4 bytes each (log entry 15). -/
def State.legFigures (s : State) (l : Nat) : Bytes :=
  let x := s.leg l
  let y := x.ply
  let clk := max 1 (s.legTmpl l).rxClock
  let absMax := if x.cfg.ply.fixed then x.cfg.ply.delayUs else x.cfg.ply.maxUs
  let ns : List Nat :=
    [x.figure R.PLY_RX_CNT, x.figure Stat.lost, x.late, x.figure R.PLY_DUP_CNT, x.figure R.PLY_REORDER_CNT, x.figure R.PLY_OOW_CNT,
      x.jitter * 1000000 / clk, y.delayUs, usOf (meanI y.slack), usOf (minI y.slack), usOf (meanI y.slack), usOf y.sMax, absMax,
      share256 x.discarded (x.figure Stat.expected), x.densities.1, x.densities.2, unsgn 32 y.skew,
      x.figure R.PLY_GROW_CNT, x.figure R.PLY_SHRINK_CNT, x.figure Stat.skewIns, x.figure Stat.skewDrop, x.figure R.PLY_FORCED_CNT]
  ns.flatMap (be 4)

/-- STAT_LEG (R548). -/
def opStatLeg : OpDef := OpDef.ask 0 4 (fun _ _ => .ok []) fun s b =>
  let l := legOf b
  let x := (s.leg l).rx
  s.legFigures l ++ pkeLegCnts.flatMap (fun k => be 4 ((s.leg l).figure k)) ++ s.echoRec l ++
    be 1 (b2n x.bye) ++ zeros 3 ++ be 8 x.srNtp ++ be 4 x.srTs ++ be 2 x.reports.length ++ x.reports.flatMap fun r => be 2 r.length ++ r

/-- The health values of template 258 (R546). -/
def State.healthBytes (s : State) : Bytes :=
  be 2 s.dev ++ be 2 (s.fld R.BGW_THERM_STAT_TJ) ++ be 4 (s.fld R.SWT_LEGS_ALL) ++ be 1 (s.fld R.SWT_UNITS_N_CORE) ++
    be 4 (s.reg R.BGW_SCRUB_UE_CNT)

/-- STAT_DEVICE (R548). -/
def opStatDevice : OpDef := OpDef.ask 0 0 (fun _ _ => .ok []) fun s _ => s.healthBytes ++ be 4 (s.fld R.SWT_LEGS_FULL_FULL)

/-! ### The exporter (R544-R547) -/

/-- A setting as STAT_IPFIX_SET gives it (log entry 15). -/
def ipfixOf (b : Bytes) : Ipfix :=
  { en := u8 b 0 == 1, port := u8 b 1, ver := u8 b 2, dst := num b 28 16, src := num b 44 16,
    dport := if num b 12 2 = 0 then 4739 else num b 12 2
    tags := (if 1 ≤ u8 b 3 then [BitVec.ofNat 32 (num b 4 4)] else []) ++ (if 2 ≤ u8 b 3 then [BitVec.ofNat 32 (num b 8 4)] else [])
    mac := num b 20 6, per := if u8 b 14 = 0 then 10 else u8 b 14, ent := num b 16 4 }

/-- The frame of a message of the exporter: one UDP datagram (R544; RFC 7011). -/
def State.ipfixFrame (s : State) (x : Ipfix) (sets : Bytes) : Bytes :=
  let utc := s.now / secI - s.fld R.PKE_UTC_OFS_S
  let m := be 2 10 ++ be 2 (16 + sets.length) ++ be 4 utc ++ be 4 (s.ipx.seq % 2 ^ 32) ++ be 4 s.dev ++ sets
  let n := 8 + m.length
  let h := be 2 4739 ++ be 2 x.dport ++ be 2 n
  let ps := if x.ver = 4 then be 4 x.src ++ be 4 x.dst else be 16 x.src ++ be 16 x.dst
  let c := 0xFFFF - fold16 (sum16 (ps ++ be 4 n ++ be 4 17) + sum16 (h ++ zeros 2 ++ m))
  let u := h ++ be 2 (if c = 0 then 0xFFFF else c) ++ m
  if x.ver = 4 then ethFrame x.mac (s.macOf x.port) x.tags 0x0800 (ip4Packet 0 (s.ipx.seq % 65536) 64 17 x.src x.dst u)
  else ethFrame x.mac (s.macOf x.port) x.tags 0x86DD (ip6Packet 0 64 17 x.src x.dst u)

/-- A message goes out in TC3 under the class gates, which is background work (R532, R544); `recs` counts its data records. -/
def State.ipfixSend (s : State) (x : Ipfix) (sets : Bytes) (recs : Nat) : State :=
  let b := s.ipfixFrame x sets
  let t : State := (s.txRequest x.port (TxFrame.plain b 3 .none)).1.fabUse b.length
  ({ t with ipx := { t.ipx with seq := t.ipx.seq + recs } }).bumpBy R.BGW_IPFIX_REC_CNT recs

/-- An element of a template: a standard one, or one of the enterprise. -/
def ie (e : Option Nat) (k n : Nat) : Bytes :=
  match e with
  | none => be 2 k ++ be 2 n
  | some v => be 2 (0x8000 + k) ++ be 2 n ++ be 4 v

/-- A set. -/
def ipfixSet (id : Nat) (b : Bytes) : Bytes := be 2 id ++ be 2 (4 + b.length) ++ b

/-- The template set of one template (R546). -/
def templateSet (e id : Nat) : Bytes :=
  let own (l : List (Nat × Nat)) : Bytes := l.flatMap fun p => ie (some e) p.1 p.2
  let std (l : List (Nat × Nat)) : Bytes := l.flatMap fun p => ie none p.1 p.2
  let legEls := own [(16, 4), (17, 4), (18, 4), (19, 4), (20, 2), (21, 2), (22, 2), (23, 2)]
  match id with
  | 256 => ipfixSet 2 (be 2 256 ++ be 2 14 ++ std [(325, 8), (8, 4), (12, 4), (7, 2), (11, 2), (2, 8)] ++ legEls)
  | 257 => ipfixSet 2 (be 2 257 ++ be 2 14 ++ std [(325, 8), (27, 16), (28, 16), (7, 2), (11, 2), (2, 8)] ++ legEls)
  | _ => ipfixSet 2 (be 2 258 ++ be 2 6 ++ std [(325, 8)] ++ own [(1, 2), (2, 2), (3, 4), (4, 1), (5, 4)])

/-- Send the templates, when the exporter is enabled (R544). -/
def State.sendTemplates (s : State) : State :=
  match s.nv.ipfix with
  | some x => if x.en then
      let t : State := s.ipfixSend x (templateSet x.ent 256 ++ templateSet x.ent 257 ++ templateSet x.ent 258) 0
      { t with ipx := { t.ipx with tmplLoc := t.loc } }
    else s
  | none => s

/-- The exporter begins: templates at once, the intervals counted from now (R544). -/
def State.ipfixStart (s : State) : State :=
  match s.nv.ipfix with
  | some x => if x.en then ({ s with ipx := { s.ipx with healthLoc := s.loc } }).sendTemplates else s
  | none => s

/-- The bytes of background work of one message of templates or of one record, headers included, as the cap counts them beforehand
(log entry 90). -/
def ipfixRoom : Nat := 512

/-- IPFIX_TEMPLATE (R532, R544): 600 s after the last templates. -/
def execIpfixTemplate (s : State) : Host.Outcome State Fault Refusal :=
  .next (if s.mode = .service ∧ s.nv.ipfix.any (·.en) = true ∧ s.ipx.tmplLoc + nsI 600000000000 ≤ s.loc then
      (if s.fabFull ipfixRoom then s.capHold 6 else s.sendTemplates)
    else s)

/-- IPFIX_HEALTH (R532, R545): a device health record every I seconds. -/
def execIpfixHealth (s : State) : Host.Outcome State Fault Refusal :=
  .next (match s.nv.ipfix with
    | some x =>
      if x.en ∧ s.mode = .service ∧ s.ipx.healthLoc + nsI (x.per * 1000000000) ≤ s.loc then
        if s.fabFull ipfixRoom then s.capHold 5
        else
          let t : State := { s with ipx := { s.ipx with healthLoc := s.ipx.healthLoc + nsI (x.per * 1000000000) } }
          t.ipfixSend x (ipfixSet 258 (t.ntp t.now ++ t.healthBytes)) 1
      else s
    | none => s)

/-- MOS in 1/100 of an R-factor in 1/16, by G.107 (R547). -/
def mosOf (r : Int) : Int :=
  if r ≤ 0 then 100 else if 1600 ≤ r then 450
  else 100 + (35 * r * 256000 + 7 * r * (r - 960) * (1600 - r)) / 40960000

/-- The R-factor in 1/16 and MOS in 1/100 of R547, of codec, mode, lost and late frames and expected frames of the interval, the
densities, and the delay Ta in µs: Ie-eff = Ie + (95 - Ie) Ppl / (Ppl / BurstR + Bpl). What the G.107 defaults leave at a delay, the Ie and Bpl of
a codec by G.113 and how BurstR is derived are not stated (log entry 11). -/
def rFactor (codec mode lost expected : Nat) (dens : Nat × Nat) (ta : Nat) : Nat × Nat :=
  let base := Config.stdNum 547 [(ta : Int)] []
  let ie := Config.stdNum 548 [(codec : Int), (mode : Int)] []
  let bpl := Config.stdNum 549 [(codec : Int), (mode : Int)] []
  let br := Config.stdNum 553 [(dens.1 : Int), (dens.2 : Int), (lost : Int), (expected : Int)] []
  let a : Int := 100 * lost
  let eff := ie + (1520 - ie) * 16 * a * br / (256 * a + bpl * br * max 1 expected)
  (unsgn 16 (base - eff), unsgn 16 (mosOf (base - eff)))

/-- The record of a leg (R545-R547). -/
def State.legRecord (s : State) (l : Nat) : Nat × Bytes :=
  let x := s.leg l
  let b := kgetD s.ipx.base l ⟨0, 0, 0, 0, 0⟩
  let t := s.legTmpl l
  let lost := x.figure Stat.lost - b.lost
  let late := x.late - b.late
  let ex := x.figure Stat.expected - b.exp
  let (r, mos) := rFactor (t.rxCodec.getD 0) x.cfg.mode (lost + late) ex x.densities (x.ply.delayUs + 1000 * x.f)
  let erle := if t.echoNode.isSome then num (s.echoRec l) 10 2 else 0x8000
  let e : Egress := x.cfg.egress.getD ⟨0, 0, 0, [], 4, 0, 0, 0, 0, 0, 0⟩
  let w := if e.ver = 4 then 4 else 16
  let rec_ := s.ntp s.now ++ be w e.ipDst ++ be w e.ipSrc ++ be 2 e.dport ++ be 2 e.sport ++ be 8 (x.figure R.PKE_RTP_CNT - b.pkts) ++
    be 4 l ++ be 4 (x.jitter * 1000000 / max 1 t.rxClock) ++ be 4 lost ++ be 4 late ++ be 2 (share256 (x.discarded - b.disc) ex) ++
    be 2 r ++ be 2 mos ++ be 2 erle
  (if e.ver = 4 then 256 else 257, rec_)

/-- Send one leg's record and begin its next interval. -/
def State.reportLeg (s : State) (i : Ipfix) (l : Nat) : State :=
  let x := s.leg l
  let (id, r) := s.legRecord l
  let t : State := s.ipfixSend i (ipfixSet id r) 1
  let b : IpxBase := ⟨x.figure R.PKE_RTP_CNT, x.figure Stat.lost, x.late, x.figure Stat.expected, x.discarded⟩
  { t with ipx := { t.ipx with base := kset t.ipx.base l b } }

/-- A leg's record is sent, or waits at the cap for the next boundary (R532). -/
def State.reportOrWait (s : State) (i : Ipfix) (l : Nat) : State :=
  if s.fabFull ipfixRoom then ({ s with ipx := { s.ipx with wait := s.ipx.wait ++ [l] } }).capHold (16 + l) else s.reportLeg i l

/-- The legs whose turn falls on the swath that begins now send their records, after those that have waited; one that still waits at the leg's
next turn is skipped (R545). The figures of a leg that is OFF are forgotten. -/
def State.ipfixLegs (s0 : State) : State :=
  let s : State := { s0 with ipx := { s0.ipx with base := s0.ipx.base.filter fun p => (s0.leg p.1).st != .off } }
  match s.nv.ipfix with
  | none => s
  | some i =>
    if i.en = false then s
    else
      let m := i.per * 1000000000 / s.lenNs
      let q := s.swnAt s.swt.bT % m
      let due := (s.legs.filter fun p => p.2.st = .on ∧ p.1 % m = q).map (·.1)
      let old := s.ipx.wait.filter fun l => (s.leg l).st == .on
      let skipped := (old.filter due.contains).length
      let s1 : State := if skipped = 0 then s else (s.bumpBy R.BGW_IPFIX_SKIP_CNT skipped).raise R.BGW_EVT 64
      let s2 : State := { s1 with ipx := { s1.ipx with wait := [] } }
      ((old.filter fun l => !due.contains l) ++ due).foldl (fun t l => t.reportOrWait i l) s2

/-- STAT_IPFIX_SET (R544, R548). -/
def opStatIpfixSet : OpDef := OpDef.admin 60
  (fun _ s b => Chk.first [(decide (1 < u8 b 0), .at_ 0), (decide (u8 b 1 = 5 ∨ u8 b 1 = 6 ∨ 7 < u8 b 1), .at_ 1),
    (decide (u8 b 2 ≠ 4 ∧ u8 b 2 ≠ 6), .at_ 2), (decide (2 < u8 b 3), .at_ 3), (decide (60 < u8 b 14), .at_ 14),
    (s.nv.prsFailed, .refuse St.fault 0)] (.ok []))
  fun _ s b =>
    let t : State := (s.setNv { s.nv with ipfix := some (ipfixOf b) })
    Done.ok t.ipfixStart

def execStatIpfixSet (q : Req) (s : State) : Host.Outcome State Fault Refusal := .next (runOp opStatIpfixSet 0x0F01 q s)
def execStatLeg (q : Req) (s : State) : Host.Outcome State Fault Refusal := .next (runOp opStatLeg 0x0F81 q s)
def execStatDevice (q : Req) (s : State) : Host.Outcome State Fault Refusal := .next (runOp opStatDevice 0x0F82 q s)

end Sys2Proof.Machine
end

