-- ==== Sys2Proof/Machine/Shut.lean ====
section
/-! DEFINITION. Orderly shutdown (R522, R562-R564) and the SHUT operations (R565). -/

namespace Sys2Proof.Machine

open Sys2Proof

/-- Replace the shutdown record. -/
def State.setShut (s : State) (x : Shut) : State := { s with shut := x }

/-! ### D1 and D2 -/

/-- The legs that are not OFF. -/
def State.liveLegs (s : State) : KV Leg := s.legs.filter fun p => p.2.st != .off

/-- D2 reaches the legs at a boundary: each one not OFF goes to STOPPING (R562); what they were is kept for SHUT_ABORT. -/
def State.shutLegs (s : State) : State :=
  if s.shut.phase = 1 then
    let l := s.liveLegs
    let t : State := s.setShut { s.shut with phase := 2, legs := l }
    l.foldl (fun (u : State) (p : Nat × Leg) => match p.2.st with
      | .on => u.stopLeg p.1
      | .starting => u.stopLeg p.1
      | .failed => u.stopLeg p.1
      | _ => u.setLeg p.1 { u.leg p.1 with pendEn := false, held := [] }) t
  else s

/-- A shutdown begins: admission closes, captures, players and rings stop at once, and legs at the next boundary, or at once while
no swath runs (R562). -/
def State.shutStart (s : State) (action : Nat) (skip forget : Bool) (drainNs : Nat) (by_ : Option (Nat × Nat)) : State :=
  let caps := (s.grn.caps.filter fun p => p.2.st != .off).map (·.1)
  let plys := s.grn.plys.filter fun p => p.2.st != .off
  let rings := ((s.grn.taps.filter fun p => p.2.st != .off).map fun p => (0, p.1)) ++
    ((s.grn.injs.filter fun p => p.2.st != .off).map fun p => (1, p.1))
  let x : Shut :=
    { phase := 1, action := action, skip := skip, forget := forget, drainEnd := s.loc + nsI drainNs, by_ := by_, legs := [], caps := caps,
      plys := plys, rings := rings }
  let s1 : State := caps.foldl (fun (t : State) c => t.capStop c) (s.setShut x)
  let s2 : State := plys.foldl (fun (t : State) (p : Nat × Player) => t.endPlayer p.1) s1
  let s3 : State := rings.foldl (fun (t : State) (r : Nat × Nat) => t.ringStop r.1 r.2) s2
  if s.swt.begun then s3
  else
    let s4 : State := s3.shutLegs
    s4.liveLegs.foldl (fun (t : State) (p : Nat × Leg) => t.legOff p.1 t.now) s4

/-- Thermal level CRITICAL begins a shutdown that halts (R537, R563), unless one runs. -/
def State.shutThermal (s : State) : State := if s.shut.phase = 0 then s.shutStart 0 true false 0 none else s

/-- Export bytes not yet sent: of captures with an export and of tap rings (R565). -/
def State.exportLeft (s : State) : Nat :=
  sumL (s.grn.caps.map fun p => match p.2.exp with | some j => p.2.off - max j.pos p.2.oldest | none => 0) +
    sumL (s.grn.taps.map fun p => sumL (p.2.ents.map fun e => e.2.1.length))

/-- Whether every leg, capture and inject ring has come to rest. -/
def State.allOff (s : State) : Bool :=
  s.legsOff && (s.grn.caps.all fun p => decide (p.2.st = .off ∨ p.2.st = .failed))

/-- Whether D2 has ended: legs and captures are OFF, and exports are sent or the drain time has passed. -/
def State.drained (s : State) : Bool :=
  s.allOff && (decide (s.shut.drainEnd ≤ s.loc) ||
    (decide (s.exportLeft = 0) && (s.grn.taps ++ s.grn.injs).all fun p => decide (p.2.st = .off ∨ p.2.st = .failed)))

/-! ### D5 and D6 -/

/-- D5: muzzle state and SRTP indices are recorded, sessions stop, ports go OFF, and a record of step 16 is written. -/
def State.shutRecords (s : State) : State :=
  let s1 : State := s.legs.foldl (fun (t : State) (p : Nat × Leg) => t.recordSrtp p.1) s.recordMuzzle
  let s2 : State := (List.range 8).foldl (fun (t : State) p => if t.portSt p = .off then t else (t.loseLink p).setPortSt p .off) s1.stopAll
  s2.slogPut 16 0 1 0 ((s.loc - s.boot.loc) / nsI 1000) 0 0

/-- D5 and D6 (R562): halt until RESET_N, or a start of cause 5. -/
def State.shutEnd (s : State) : State :=
  let t : State := s.shutRecords
  let a := s.shut.action
  if a = 0 then ({ t with mode := .halted }).setShut { t.shut with phase := 6 }
  else (t.setNv { t.nv with fullNext := a == 2, recNext := a == 3 }).restart 5

/-! ### D3 and D4 -/

/-- Answer the SHUT_BEGIN that began the shutdown, if its session still stands. -/
def State.shutReply (s : State) (st det : Nat) : State :=
  match s.shut.by_ with
  | none => s
  | some (num_, seq) =>
    let m := num_ % 256
    if (s.sess m).gen = num_ / 256 then s.replyLate m seq 0x1001 st det false [] else s

/-- Whether the reply to SHUT_BEGIN has left the part, or its session is gone. -/
def State.shutReplyGone (s : State) : Bool :=
  match s.shut.by_ with
  | none => true
  | some (num_, _) =>
    let x := s.sess (num_ % 256)
    decide (x.gen ≠ num_ / 256) || decide (x.st ≠ .on) || (x.out.isEmpty && x.rplRing.isEmpty)

/-- SHUTDOWN_DRAIN_END (R562, R563): D2 has ended, so D3 writes a checkpoint and answers OK: one that fails to be written has its own event, and
the shutdown runs on (R167, R541). Where D4 is skipped it comes again once
the reply has left, and D5 and D6 follow (log entry 29). -/
def execShutdownDrainEnd (s : State) : Host.Outcome State Fault Refusal :=
  .next (if s.shut.phase = 2 ∧ s.drained then
    let s0 : State := ((s.grn.taps.map fun p => (0, p)) ++ s.grn.injs.map fun p => (1, p)).foldl (fun (t : State) (p : Nat × Nat × GRing) =>
      if p.2.2.st = FnState.stopping then t.setGring p.1 p.2.1 { p.2.2 with st := .off, pendEn := false, ents := [], wbs := [] } else t) s
    let good := !s.nv.prsFailed
    let s1 : State := if good then s0.checkpoint s.shut.forget else s0.ckptFail
    let s2 : State := s1.shutReply St.ok 0
    if s.shut.by_.isNone then s2.shutEnd else s2.setShut { s2.shut with phase := if s.shut.skip then 3 else 4 }
  else if s.shut.phase = 3 ∧ s.shutReplyGone then s.shutEnd
  else s)

/-- SHUTDOWN_TEST_DONE (R522, R562): the verdicts, repairs and map-outs of the full test are recorded with the boot number, and D5 and
D6 follow. -/
def execShutdownTestDone (r : ShutTest) (s : State) : Host.Outcome State Fault Refusal :=
  .next (if s.shut.phase = 4 then
    let bad := r.fails.map fun p => (p.1.val, p.2.val)
    let outs := s.nv.outs ++ bad.filter fun p => !s.nv.outs.contains p
    let s1 : State := s.setNv { s.nv with
      outs := outs, repair := s.nv.repair ++ r.repairs, shut := some (s.nv.boot, r.fails.isEmpty && !r.unrep) }
    s1.shutEnd
  else s)

/-! ### SHUT_ABORT (R564) -/

/-- The payload of an enable that asks for what a leg's configuration already holds. -/
def Leg.enablePayload (x : Leg) (l : Nat) : Bytes :=
  let c := x.cfg
  be 4 l ++ be 2 c.tmpl ++ be 1 (b2n c.ssrcG.isSome + 2 * b2n c.roffG.isSome + 4 * b2n c.seqG.isSome) ++ be 1 (c.group.getD 0xFF) ++
    zeros 4 ++ be 4 (c.ssrcG.getD 0) ++ be 4 (c.roffG.getD 0) ++ be 2 (c.seqG.getD 0) ++ be 1 c.pts.1 ++ be 1 c.pts.2.1 ++ be 1 c.pts.2.2 ++
    be 1 c.mode ++ be 1 c.flags ++ zeros 1 ++ List.replicate 12 0xFF

/-- A leg that D2 stopped is wanted again: STOPPING takes PENDING_ENABLE; OFF is enabled at the next boundary with its offset. -/
def State.reviveLeg (s : State) (l : Nat) (old : Leg) : State :=
  let x := s.leg l
  match x.st with
  | .stopping => s.setLeg l { x with pendEn := true, held := x.enablePayload l }
  | .off =>
    let y : Leg := { Leg.init with cfg := { x.cfg with tmpl := old.cfg.tmpl }, st := .starting, f := old.f, phi := old.phi, cluster := old.cluster }
    let s1 : State := (s.setLeg l y).charge l old.charged
    ((s1.report (.leg l) .off .starting).armCmd ⟨0, 0, 0x0301, 2, true⟩ l none (y.enablePayload l) [old.phi]).1
  | _ => s

/-- What D2 stopped takes PENDING_ENABLE while it stops; what is OFF waits for the next boundary. -/
def State.revive (s : State) : State :=
  let s1 : State := s.shut.legs.foldl (fun (t : State) (p : Nat × Leg) => t.reviveLeg p.1 p.2) s
  let s2 : State := s.shut.caps.foldl (fun (t : State) c =>
    if (t.cap c).st = .stopping then t.setCap c { t.cap c with pendEn := true } else t) s1
  s.shut.rings.foldl (fun (t : State) (r : Nat × Nat) =>
    if (t.gring r.1 r.2).st = .stopping then t.setGring r.1 r.2 { t.gring r.1 r.2 with pendEn := true } else t) s2

/-- At the boundary after SHUT_ABORT captures, rings and players that D2 took to OFF are enabled again (R564). A player goes on where
the timeline is. -/
def State.reviveAtBoundary (s : State) (b : Inst) : State :=
  if s.shut.phase ≠ 0 ∨ (s.shut.caps.isEmpty ∧ s.shut.rings.isEmpty ∧ s.shut.plys.isEmpty) then s
  else
    let s1 : State := s.shut.caps.foldl (fun (t : State) c => if (t.cap c).isOpen ∧ (t.cap c).st = .off then t.capStart c else t) s
    let s2 : State := s.shut.rings.foldl (fun (t : State) (r : Nat × Nat) =>
      if (t.gring r.1 r.2).isOpen ∧ (t.gring r.1 r.2).st = .off then t.ringStart r.1 r.2 else t) s1
    let s3 : State := s.shut.plys.foldl (fun (t : State) (p : Nat × Player) =>
      if (t.player p.1).st = .off ∧ khas t.grn.pats p.2.pat then t.setPlayer p.1 { p.2 with passed := b } else t) s2
    s3.setShut Shut.none

/-- SHUT_BEGIN (R562, R565): answered at the end of D3. In recovery boot it takes a restart action and starts at once (R561). -/
def opShutBegin : OpDef := OpDef.admin 4
  (fun _ s b => Chk.first [(decide (3 < u8 b 0), .at_ 0), (decide (3 < u8 b 1), .at_ 1), (decide (600 < num b 2 2), .at_ 2),
    (decide (s.shut.phase ≠ 0), .inState), (decide (s.mode = .recovery ∧ u8 b 0 = 0), .inState)] (.ok []))
  fun c s b =>
    if s.mode = .recovery then Done.ok (s.owe c.mbox 0x1001 (be 1 (u8 b 0)))
    else Done.wait (s.shutStart (u8 b 0) (tb (u8 b 1) 0) (tb (u8 b 1) 1) (num b 2 2 * 1000000000) (some (s.sessNum c.mbox, c.seq)))

/-- SHUT_ABORT (R564): the SHUT_BEGIN it ends is answered E_STATE (log entry 29). -/
def opShutAbort : OpDef := OpDef.admin 0
  (fun _ s _ => if s.shut.phase = 1 ∨ s.shut.phase = 2 then .ok [] else .inState)
  fun _ s _ =>
    let t : State := (s.shutReply St.state 0xFFFF).revive
    Done.ok (t.setShut { t.shut with phase := 0, by_ := none, legs := [] })

/-- SHUT_STATUS (R565). -/
def opShutStatus : OpDef := OpDef.ask 0 0 (fun _ _ => .ok [])
  fun s _ => be 1 s.shut.phase ++ zeros 3 ++ be 4 s.liveLegs.length ++ be 8 s.exportLeft

def execShutBegin (q : Req) (s : State) : Host.Outcome State Fault Refusal := .next (runOp opShutBegin 0x1001 q s)
def execShutAbort (q : Req) (s : State) : Host.Outcome State Fault Refusal := .next (runOp opShutAbort 0x1002 q s)
def execShutStatus (q : Req) (s : State) : Host.Outcome State Fault Refusal := .next (runOp opShutStatus 0x1081 q s)

end Sys2Proof.Machine
end

