-- ==== Sys2Proof/Machine/Bgw.lean ====
section
/-! DEFINITION. Background work: the winnower, retraining, thermal monitoring and AVS (R532-R539, R549, R585, R586). -/

namespace Sys2Proof.Machine

open Sys2Proof

/-- Replace the record of background work. -/
def State.setBgw (s : State) (x : Bgw) : State := { s with bgw := x }

/-! ### The winnower (R532, R534) -/

/-- Words of 8 bytes in the loft. -/
def loftWords : Nat := 33554432

/-- Where the patrol of a space stands: next word, local start of its pass, words, pass time in s, address of the space. -/
def State.patrol (s : State) (hbm : Bool) : Nat × Nat × Nat × Nat × Nat :=
  if hbm then (s.bgw.hbmAt, s.bgw.hbmLoc, s.hbmGib * 134217728, 60 * s.fld R.BGW_CFG_HBM_MIN, hbmBase)
  else (s.bgw.loftAt, s.bgw.loftLoc, loftWords, s.fld R.BGW_CFG_LOFT_S, 0)

/-- Move the patrol of a space. -/
def State.patrolTo (s : State) (hbm : Bool) (at_ loc : Nat) : State :=
  if hbm then s.setBgw { s.bgw with hbmAt := at_, hbmLoc := loc } else s.setBgw { s.bgw with loftAt := at_, loftLoc := loc }

/-- Whether the next word is due at the even pace of the pass (R534). -/
def State.wordDue (s : State) (hbm : Bool) : Bool :=
  let (k, t0, n, per, _) := s.patrol hbm
  decide (0 < n) && decide (k * per * secI ≤ (s.loc - t0) * n)

/-- The winnower has read the next word of a space (R534). -/
def State.scrub (s : State) (hbm : Bool) (w : ScrubWord) : State :=
  let (k, t0, n, _, base) := s.patrol hbm
  let s1 : State := s.fabUse 8
  let pa := base + 8 * k
  let s2 : State := match w with
    | .clean => s1
    | .ce => s1.bump R.BGW_SCRUB_CE_CNT
    | .ue => (((s1.setReg R.BGW_UE_ADDR_HI (pa / 2 ^ 32)).setReg R.BGW_UE_ADDR_LO (pa % 2 ^ 32)).bump R.BGW_SCRUB_UE_CNT).raise R.BGW_EVT 1
  if k + 1 < n then s2.patrolTo hbm (k + 1) t0
  else
    let len := min 65535 ((s.loc - t0) / secI)
    let s3 : State := s2.setFld (if hbm then R.BGW_STAT_HBM_PASS_S else R.BGW_STAT_LOFT_PASS_S) len
    (s3.bump R.BGW_SCRUB_PASS_CNT).patrolTo hbm 0 s.loc

/-- SCRUB_READ (R532, R534): the next word of a space, when it is due and the cap leaves room. -/
def execScrubRead (space : ScrubSpace) (word : ScrubWord) (s : State) : Host.Outcome State Fault Refusal :=
  let hbm := match space with | .loft => false | .hbm => true
  .next (if s.mode ≠ .service ∨ s.flag R.BGW_CFG_SCRUB_EN = false ∨ s.wordDue hbm = false then s
    else if s.fabFull 8 then s.capHold (b2n hbm)
    else s.scrub hbm word)

/-! ### Calibration (R536) -/

/-- HBM_RETRAIN (R536): one pseudo-channel, in Guard with 1,500 ns left, once per RETRAIN_MS. -/
def execHbmRetrain (pch : Fin 64) (ok : Bool) (s : State) : Host.Outcome State Fault Refusal :=
  .next (if s.mode = .service ∧ s.swt.begun ∧ s.phase = .guard ∧ s.elapsed + nsI 1500 ≤ s.swt.d ∧ pch.val < 32 * s.fld R.MMU_HBM_STACKS ∧
      s.bgw.trainLoc + nsI (s.fld R.BGW_CAL_RETRAIN_MS * 1000000) ≤ s.loc then
    let t : State := (s.setBgw { s.bgw with trainLoc := s.loc }).bump R.BGW_RETRAIN_CNT
    if ok then t else (t.bump R.BGW_CAL_FAIL_CNT).raise R.BGW_EVT 16
  else s)

/-- PLL_CALIBRATION (R536): it runs once per second and changes nothing that the part shows. -/
def execPllCalibration (s : State) : Host.Outcome State Fault Refusal := .next s

/-! ### Thermal monitoring (R537-R539) -/

/-- The threshold of a level in 1/16 °C. -/
def State.thermAt (s : State) (k : Nat) : Int :=
  16 * sgn 8 (match k with | 1 => s.fld R.BGW_THERM_CFG_WARN_C | 2 => s.fld R.BGW_THERM_CFG_THROT_C | _ => s.fld R.BGW_THERM_CFG_CRIT_C)

/-- The highest level that a temperature in 1/16 °C reaches. -/
def State.thermRise (s : State) (tj : Int) : Nat :=
  if s.thermAt 3 ≤ tj then 3 else if s.thermAt 2 ≤ tj then 2 else if s.thermAt 1 ≤ tj then 1 else 0

/-- The level to which a temperature falls from a level, with the hysteresis. -/
def State.thermFall (s : State) (tj : Int) : Nat → Nat
  | 0 => 0
  | k + 1 => if tj < s.thermAt (k + 1) - 16 * s.fld R.BGW_THERM_CFG_HYST_C then s.thermFall tj k else k + 1

/-- What the entry into a level does (R537, R538). -/
def State.thermEnter (s : State) (k : Nat) : State :=
  match k with
  | 1 => s.raise R.BGW_EVT 2
  | 2 => (s.bump R.BGW_THROT_CNT).raise R.BGW_EVT 4
  | _ =>
    let t : State := ([64, 65, 66] : List Nat).foldl (fun (u : State) c => u.closeGate c u.loc none) s
    (t.shutThermal).raise R.BGW_EVT 8

/-- The pins that show the level. -/
def State.thermPins (s : State) : State :=
  let l := s.fld R.BGW_THERM_STAT_LEVEL
  { s with pins := { s.pins with thermN := l == 0 && !s.boot.hot, faultN := decide (l < 3) && !s.boot.hot } }

/-- The sixteen readings give Tj, the hottest sensor and the level (R537). -/
def State.thermal (s : State) (t : List (BitVec 16)) : State :=
  let s1 : State := (t.zipIdx).foldl (fun (u : State) (p : BitVec 16 × Nat) => u.setReg (R.BGW_TSENS p.2) p.1.toNat) s
  let vals := t.map fun x => sgn 16 x.toNat
  let tj := vals.foldl (fun a x => if a < x then x else a) (vals.headD 0)
  let hot := (findIx (fun x => decide (x = tj)) vals).getD 0
  let l := s.fld R.BGW_THERM_STAT_LEVEL
  let up := s.thermRise tj
  let l' := if l < up then up else s.thermFall tj l
  let s2 : State := ((s1.setFld R.BGW_THERM_STAT_TJ (unsgn 16 tj)).setFld R.BGW_THERM_STAT_SENSOR hot).setFld R.BGW_THERM_STAT_LEVEL l'
  let s3 : State := (([1, 2, 3] : List Nat).filter fun k => decide (l < k ∧ k ≤ l')).foldl (fun (u : State) k => u.thermEnter k) s2
  s3.thermPins

/-- SENSOR_READ (R537): the sixteen sensors are read. -/
def execSensorRead (t : List (BitVec 16)) (s : State) : Host.Outcome State Fault Refusal :=
  .next (if t.length = 16 ∧ s.mode = .service then s.thermal t else s)

/-- OVER_TEMP_RESET (R539): the part goes into reset, with THERM_N and FAULT_N low. -/
def execOverTempReset (s : State) : Host.Outcome State Fault Refusal :=
  let t : State := { s with boot := { s.boot with hot := true } }
  .next (if s.mode = .reset then s else t.restart 4)

/-! ### VDD_CORE (R585, R586) -/

/-- AVS_ADJUST (R585, R586): one step of 5 mV within 700 to 800 mV, at most one per ms; when every retry fails, AVSBus traffic stops and
the rail stays. -/
def execAvsAdjust (up ok : Bool) (s : State) : Host.Outcome State Fault Refusal :=
  let mv := if up then s.bgw.mv + 5 else s.bgw.mv - 5
  .next (if s.mode ≠ .service ∨ s.bgw.avsDead ∨ s.loc < s.bgw.avsLoc + nsI 1000000 ∨ mv < 700 ∨ 800 < mv then s
    else if ok then s.setBgw { s.bgw with mv := mv, avsLoc := s.loc }
    else s.setBgw { s.bgw with avsDead := true })

/-! ### Registers (R549) -/

/-- The ranges of R549. -/
def bgwRule (a v : Nat) : Option Nat :=
  let out (x lo hi : Nat) : Bool := decide (x < lo ∨ hi < x)
  let bad (b : Bool) : Option Nat := if b then some St.state else none
  let c (hi lo : Nat) : Int := sgn 8 (bits v hi lo)
  if a = R.BGW_CFG then bad (out (bits v 31 24) 1 60 || out (bits v 23 16) 10 255 || out (bits v 15 8) 1 20)
  else if a = R.BGW_CAL then bad (out (bits v 15 0) 10 10000)
  else if a = R.BGW_THERM_CFG then
    bad (decide (¬ (c 15 8 < c 23 16 ∧ c 23 16 < c 31 24 ∧ c 31 24 ≤ 120)) || out (bits v 7 0) 1 20)
  else none

/-- A patrol that stops and goes on keeps its address: its pass is counted as if no time had passed (R535). -/
def State.patrolResume (s : State) (hbm : Bool) : State :=
  let (k, _, n, per, _) := s.patrol hbm
  s.patrolTo hbm k (s.loc - k * per * secI / max 1 n)

/-- The effect of a write to a BGW register. -/
def bgwEffect (s : State) (a old v : Nat) : State :=
  if a = R.BGW_CFG ∧ tb v 0 ∧ (old ≠ v) then (s.patrolResume false).patrolResume true else s

end Sys2Proof.Machine
end

