-- ==== Sys2Proof/Machine/Swath.lean ====
section
/-! DEFINITION. The swath's events: its boundary, the end of Gather, Work, the Work deadline and Guard (R32-R48, R57, R62, R214,
R363, R364, R397, R416), and the SWT registers (R63-R68). -/

namespace Sys2Proof.Machine

open Sys2Proof

/-! ### The swath that ends (R47, R211, R233) -/

/-- How many of the numbers 0 to `n` are `phi` modulo `p`. -/
def upTo (p phi n : Nat) : Nat := (n + p - phi) / p

/-- The numbers strictly between two quotients at which a leg is placed (R47, R50). -/
def State.skips (s : State) (x : Leg) (q0 q1 : Nat) : Nat :=
  let p := max 1 (s.period x.f)
  if q1 ≤ q0 + 1 then 0 else upTo p x.phi (q1 - 1) - upTo p x.phi q0

/-- A leg loses the frames of the skipped numbers: counted once each, the playout point and the time stamps follow. A playout point that waits for
its anchor's boundary moves only by the numbers from that boundary on (R224, R233). -/
def State.slipLeg (s : State) (l : Nat) (q0 q1 : Nat) : State :=
  let m := s.skips (s.leg l) q0 q1
  let mp := s.skips (s.leg l) (max q0 (s.quot (s.leg l).ply.anchorAt - 1)) q1
  let s1 : State := (s.bumpBy R.SWT_SLIP_FRM_CNT m).plySlip l mp
  let x := s1.leg l
  if (s1.legTmpl l).relay ∨ x.tx.pkts = 0 then s1
  else s1.setLeg l { x with tx := { x.tx with lostFrames := some (x.tx.lostFrames.getD 0 + m) } }

/-- A slipped swath ends: what lies between its number and the next is skipped (R47). -/
def State.slipEnd (s : State) (b : Inst) : State :=
  if s.swt.slipped then
    let on := (s.legs.filter fun p => p.2.st = .on).map (·.1)
    on.foldl (fun (t : State) l => t.slipLeg l s.swt.q (t.quot b)) s
  else s

/-- Loads of a unit's last swath go to its LAST and PEAK fields. -/
def State.loadTo (s : State) (last peak : Fld) (v : Nat) : State :=
  let w := min 65535 v
  (s.setFld last w).peakTo peak w

/-- BACKGROUND tasks that the limit of the swath that ends held back are counted (R351). -/
def State.bgHolds (s : State) : State :=
  if s.bgFree then s
  else s.bumpBy R.KNL_BG_HOLD_CNT (s.knl.tasks.filter fun t => t.2.kind == 5 && (t.2.st == .ready || t.2.st == .preempted)).length

/-- The loads of the swath that ends (R282, R308, R367, R401, R549). -/
def State.swathLoads (s : State) : State :=
  let s1 : State := (List.range 16).foldl (fun (t : State) e => t.loadTo (R.FCE_LOAD_LAST e) (R.FCE_LOAD_PEAK e) (kgetD s.engAcc e 0 / 1024)) s
  let s2 : State := (List.range 32).foldl (fun (t : State) e => t.loadTo (R.ECE_LOAD_LAST e) (R.ECE_LOAD_PEAK e) (kgetD s.engAcc (32 + e) 0)) s1
  let s3 : State := s2.loadTo R.BGW_FAB_LAST R.BGW_FAB_PEAK (s.bgw.fab / 65536)
  let dma (x : DEng) : DEng := { x with acc := 0, last := min 65535 (x.acc / 65536), peak := max x.peak (min 65535 (x.acc / 65536)) }
  let runs (x : Core) : Nat := match x.run.bind s.task with | some t => s.ranIn t | none => 0
  let core (x : Core) : Core := { x with tasks := 0, busy := 0, lastTasks := x.tasks, lastBusy := x.busy + runs x }
  let s4 : State := s3.setMmu { s3.mmu with engs := s3.mmu.engs.map fun p => (p.1, dma p.2) }
  let s5 : State := s4.setKnl { s4.knl with cores := s4.knl.cores.map fun p => (p.1, core p.2) }
  let s6 : State := { s5 with engAcc := [] }
  s6.setBgw { s6.bgw with fab := 0, holds := [] }

/-- The gleaner's counts of a swath begin again, and units return to service (R506, R511). -/
def State.swathGln (s : State) : State := (s.setGln { s.gln with nCore := 0, nEng := 0, nMem := 0 }).glnBack

/-- A task that outlasts its swath has run in the next one on the core that it is running on, and on no other unit (R511). -/
def State.forgetUnits (s : State) : State :=
  let f (t : Task) : Task := { t with ranOn := if t.st = .running then (t.core.map fun c => (0, c)).toList else [] }
  s.setKnl { s.knl with tasks := s.knl.tasks.map fun p => (p.1, f p.2) }

/-- What the swath that ends leaves: slips, loads, gleaner counts, stale frames, items of players that nothing read. -/
def State.endSwath (s : State) (b : Inst) : State :=
  let s0 : State := s.setFrp { s.frp with ended := [] }
  let s1 : State := (((s0.slipEnd b).swathLoads).swathGln).forgetUnits
  let q : KV (List (Inst × PItem)) := s1.grn.tapQ.map fun p => (p.1, p.2.filter fun i => decide (b ≤ i.1))
  (s1.setGrn { s1.grn with tapQ := q }).staleDiscard

/-! ### The boundary (R32, R57, R62) -/

/-- Legs that were STOPPING reach OFF (R339). -/
def State.legsStop (s : State) (b : Inst) : State :=
  ((s.legs.filter fun p => p.2.st = .stopping).map (·.1)).foldl (fun (t : State) l => t.legOff l b) s

/-- Whether an armed change names no leg: a call-progress profile, or the import of a remote talker into a conference. -/
def legless (op : Nat) : Bool := op == 0x0403 || op == 0x0B07

/-- LATE and the lateness of a change are recorded with its leg, or with the swath timer where it names none (R60). -/
def State.noteChg (s : State) (a : Armed) (b : Inst) : State :=
  let r := (a.w.late, a.w.lateness b)
  if legless a.op then s.setSwt { s.swt with chgs := kset s.swt.chgs a.op r }
  else s.setLeg a.leg { s.leg a.leg with chgs := kset (s.leg a.leg).chgs a.op r }

/-- One armed change takes effect; a late one is counted now, and its status is recorded (R60, R62). -/
def State.applyArmed (s : State) (a : Armed) (b : Inst) : State :=
  let s0 : State := if a.w.late then s.lateAct else s
  let s1 : State := s0.noteChg a b
  if a.op = recreateOp then (if (s1.leg a.leg).st = .off then s1 else s1.recreated a.leg)
  else if a.op / 256 = 0x0B then s1.applyTnd a b
  else s1.applyLeg a b

/-- Whether a change of a chain waits for its leg, which the boundary does not create yet (R278; log entry 97). -/
def State.waitsLeg (s : State) (a : Armed) (b : Inst) : Bool :=
  let x := s.leg a.leg
  (a.op == 0x0503 || a.op == 0x0506 || a.op == 0x0507) && decide (x.st = .starting) && !x.created &&
    !s.armed.any fun e => e.op == 0x0301 && e.leg == a.leg && e.w.due b

/-- The changes due at a boundary take effect in the order of arming; what was armed too late for it waits for the next (R62). -/
def State.applyDue (s : State) (b : Inst) : State :=
  let now (a : Armed) : Bool := a.w.due b && !s.waitsLeg a b
  let due := s.armed.filter now
  let rest := (s.armed.filter fun a => !now a).map fun a => { a with w := { a.w with skip := false } }
  let s1 := s.setSwt { s.swt with due := due.map fun a => (a.leg, a.payload.length) }
  due.foldl (fun (t : State) a => t.applyArmed a b) { s1 with armed := rest }

/-- N_core and N_ece, and the budgets that follow them (R54, R57). -/
def State.followUnits (s : State) : State :=
  let nc := ((List.range 128).filter fun c => !(s.core c).mapped).length
  let ne := ((List.range 32).filter fun e => s.eceSt e = .on).length
  ((s.setFld R.SWT_UNITS_N_CORE nc).setFld R.SWT_UNITS_N_ECE ne).updBudgets

/-- The swath timer at a boundary: instants, phases, number, over entry (R32, R33, R36, R57). -/
def State.newSwath (s : State) (b : Inst) : State :=
  let l := s.lenI
  let w : Swt := { s.swt with
    begun := true, firstT := none, bT := b, bLoc := s.tmu.loc, nextT := (b / l + 1) * l, d := l, workAt := cdiv (8 * l) 100
    emitAt := cdiv (88 * l) 100, guardAt := cdiv (96 * l) 100, q := s.quot b, gatherDone := false, slipped := false }
  let s1 : State := (((s.setSwt w).setFld R.SWT_STAT_PHASE 0).setFld R.SWT_STAT_RUN 1).setReg R.SWT_SWN (s.swnAt b)
  if s1.entryOver (s1.entryAt b) then s1.bump R.SWT_OVER_CNT else s1

/-- Legs that have waited for their placed swath are ON from it (R339). -/
def State.legsOn (s : State) (b : Inst) : State :=
  let go := (s.legs.filter fun p => p.2.st = .starting ∧ p.2.created ∧ s.placed p.2 b).map (·.1)
  go.foldl (fun (t : State) l => (t.setLeg l { t.leg l with st := .on }).report (.leg l) .starting .on) s

/-- Whether a leg's frame reads a parcel of this swath, and so waits for Work (R352, R449). -/
def State.needsParcel (s : State) (l : Nat) : Bool := s.tnd.imps.any fun i => i.on && i.leg == l && i.mode == 1

/-- Whether a leg's state lies staged for the swath that begins at an instant (R364). -/
def State.stagedFor (s : State) (l : Nat) (b : Inst) : Bool := s.mmu.areas.any fun a => a.leg == l && a.b == b && a.st == 2

/-- Bytes of inputs that the log record of a frame holds (R409; log entry 32): payload and events, the changes that took effect at the boundary,
the swaps armed for its chains with their arming instants, the remote blocks. -/
def State.logBytes (s : State) (l : Nat) (h : Hand) (b : Inst) : Nat :=
  (match h.pkt with | some p => p.payload.length | none => 0) + 8 * h.tel.length +
    sumL ((s.swt.due.filter fun p => p.1 == l).map (·.2)) + 32 * ((s.leg l).med.chains.filter fun c => c.2.swap.isSome).length +
    sumL ((s.remoteReads l b).map fun r => 24 + 5 * (r.2.2.2.2 % 65536))

/-- The playout engine hands a leg its frame: a task, or the packet of a relay leg (R232, R235, R357, R409). -/
def State.handLeg (s : State) (l : Nat) (b : Inst) : State :=
  let (s1, h) := s.plyHand l b
  let x := s1.leg l
  if (s1.legTmpl l).relay then
    let y := x.countFrame b h.reason h.pkt true
    let slot : LSlot := match h.pkt with
      | some p => ⟨1, true, false, [(0, b, p.marker, p.raw)]⟩
      | none => ⟨1, true, true, []⟩
    s1.setLeg l { y with leash := x.leash ++ [slot] }
  else
    let (s2, off) := s1.logRecord l (s1.logBytes l h b)
    let t : Task := { Task.init 0 (s2.priOf 0) x.cluster with
      leg := some l, staged := s2.stagedFor l b, parcel := s2.needsParcel l, reason := h.reason, sid := h.sid, pkt := h.pkt, tel := h.tel
      ts := h.ts, b := b, logOff := off }
    let s3 : State := (s2.mkTask t).1
    s3.setLeg l { s3.leg l with leash := (s3.leg l).leash ++ [⟨0, false, false, []⟩] }

/-- Legs that are ON and placed in a swath, in ascending id. -/
def State.dueLegs (s : State) (b : Inst) : List Nat := (s.legs.filter fun p => p.2.st = .on ∧ s.placed p.2 b).map (·.1)

/-- Remote blocks are read at the instant a frame becomes READY (R436). -/
def State.readFor (s : State) (i : Nat) : State :=
  match s.task i with
  | some t => match t.leg with
    | some l =>
      let (s1, m) := s.readRemotes l t.b
      s1.setTask i { t with remote := m }
    | none => s
  | none => s

/-- The waiting media tasks that a test accepts read their remote blocks and become READY in leg order (R344, R352, R436). -/
def State.readyMedia (s : State) (p : Task → Bool) : State :=
  let q (t : Task) : Bool := t.st == .waiting && mediaKind t.kind && p t
  let ids := (s.knl.tasks.filter fun t => q t.2 && t.2.leg.isSome).map (·.1)
  let s1 : State := ids.foldl (fun (t : State) i => t.readFor i) s
  s1.readyAll q

/-- Order the stage-ins that the frames of this swath still lack (R364). -/
def State.stageMissing (s : State) (b : Inst) : State :=
  let lack := (s.knl.tasks.filter fun t => t.2.kind == 0 && t.2.b == b && !t.2.staged).filterMap fun t => t.2.leg
  lack.foldl (fun (t : State) l => if t.mmu.areas.any (fun a => a.leg == l && a.b == b) then t else t.orderStage l b) s

/-- Lists taken one element each in turn. -/
def inTurn (ls : List (List Nat)) : List Nat :=
  (List.range (maxL (ls.map List.length))).flatMap fun k => ls.filterMap fun l => l[k]?

/-- The task set of the swath that begins at `b`, in the order of R363: legs that need no parcel one per cluster in turn, then the others. -/
def State.taskSet (s : State) (b : Inst) : List Nat :=
  let all := (s.legs.filter fun p => p.2.st != .off && s.placed p.2 b).map fun p => (p.1, p.2.cluster)
  let free := all.filter fun p => !s.needsParcel p.1
  inTurn ((List.range 8).map fun k => (free.filter fun p => p.2 == k).map (·.1)) ++ (all.filter fun p => s.needsParcel p.1).map (·.1)

/-- Stage-ins of a task set that are not ordered yet (R363). -/
def State.stageSet (s : State) (b : Inst) : State :=
  (s.taskSet b).foldl (fun (t : State) l => if t.mmu.areas.any (fun a => a.leg == l && a.b == b) then t else t.orderStage l b) s

/-- A swath that begins with a frame not staged is counted; the margin of the last stage-in is recorded (R364). -/
def State.stageReport (s : State) (b : Inst) : State :=
  let late := s.knl.tasks.any fun t => t.2.kind == 0 && t.2.b == b && !t.2.staged
  let s1 : State := if late then (s.bump R.KNL_STAGE_LATE_CNT).raise R.KNL_EVT 4 else s
  let s2 : State := if late then s1.setReg R.KNL_STAGE_MARGIN 0 else match s1.knl.lastStage with
    | some t => s1.setReg R.KNL_STAGE_MARGIN (min (2 ^ 21 - 1) ((s1.loc - t) / 65536))
    | none => s1
  s2.setKnl { s2.knl with lastStage := none, bgCyc := 0 }

/-- The whole boundary at instant `b`, in the order in which its parts depend on each other. -/
def State.boundary (s : State) (b : Inst) : State :=
  let s1 : State := if s.swt.begun then (s.bgHolds).endSwath b else s
  let s2 : State := (s1.legsStop b).applyDue b
  let s3 : State := ((s2.shutLegs).reviveAtBoundary b).followUnits
  let s4 : State := ((s3.newSwath b).tndLinks).tndLegs b
  let s5 : State := (s4.setFrp { s4.frp with logU := 0, logAt := [], prevAt := s4.frp.logAt }).legsOn b
  let s6 : State := (s5.dueLegs b).foldl (fun (t : State) l => t.handLeg l b) s5
  let s7 : State := s6.stageReport b
  let s8 : State := (s7.readyMedia fun t => t.staged && !t.parcel).stageMissing b
  (((s8.stageSet s8.swt.nextT).ipfixLegs).wakeCores)

/-! ### Gather and Work (R37, R352, R435, R452) -/

/-- The end of Gather: migrations in that have their state begin, or give up (R452). -/
def State.gatherEnd (s : State) : State :=
  if s.swt.gatherDone then s else (s.setSwt { s.swt with gatherDone := true }).migrateIns

/-- GATHER_END (R37). -/
def execGatherEnd (s : State) : Host.Outcome State Fault Refusal :=
  .next (if s.swt.begun ∧ s.phase = .gather ∧ s.swt.workAt ≤ s.elapsed then s.gatherEnd else s)

/-- WORK_START (R37, R352): the frames that waited on parcels become READY. -/
def execWorkStart (s : State) : Host.Outcome State Fault Refusal :=
  .next (if s.swt.begun ∧ s.phase = .gather ∧ s.swt.workAt ≤ s.elapsed then
    let t : State := (s.gatherEnd).setFld R.SWT_STAT_PHASE 1
    t.readyMedia fun k => k.staged && k.parcel && k.kind == 0
  else s)

/-! ### The Work deadline (R39, R354, R397, R398, R416) -/

/-- The media tasks of the swath. -/
def State.mediaTasks (s : State) : KV Task := s.knl.tasks.filter fun t => decide (t.2.kind ≤ 1)

/-- One media task that is not DONE is cancelled; a replay's leg falls back (R354, R355, R414). One that was made ready in the same cycle is never
dispatched: from the deadline's instant on no media task is. -/
def State.cancelOne (s : State) (i : Nat) (t : Task) : State :=
  if t.st = TaskSt.done ∨ t.st = TaskSt.cancelled then s
  else
    let s1 : State := ((s.callCancel i).settleFaults i 1 t.replayCore).cancelTask i
    let s2 : State := if (t.st = .ready ∨ t.st = .waiting) ∧ t.madeAt = s.loc then s1.bump R.KNL_RDYCAN_CNT else s1
    let s3 : State := ((if t.kind = 1 then s2.countFallback else s2).bump R.KNL_CANCEL_CNT).bump R.SWT_DEADLINE_CNT
    match t.leg with
    | some l => s3.setLeg l { s3.leg l with exp := none }
    | none => s3

/-- The descriptors of firmware rings that cancelled tasks queued end with E_FAULT and CANCELLED, in flight or still to be taken, and their pins are
released (R398). -/
def State.abortDescs (s : State) (gone : List Nat) : State :=
  s.mmu.rings.foldl (fun (t : State) (p : Nat × DRing) =>
    let r := p.1
    let mine (d : Desc) : Bool := d.phase != 3 && d.task.any gone.contains
    let x := t.dring r
    let own := x.own.filter fun q => gone.contains q.2.1 && !q.2.2
    let t1 : State := (x.descs.filter mine).foldl (fun (u : State) d => if d.pinned then u.unpinRange (d.ctx x) d.dst d.len else u) t
    let y := { t1.dring r with
      descs := x.descs.map fun d => if mine d then { d with phase := 3, status := St.fault, fl := 16, cause := 0, info := 0 } else d
      own := x.own.map fun q => if gone.contains q.2.1 then (q.1, (q.2.1, true)) else q }
    let n := (x.descs.filter mine).length + own.length
    if n = 0 then t else (t1.setDring r y).bumpBy R.MMU_CANCEL_CNT n) s

/-- Stage-ins of this swath, and restages of cancelled replays, that have not ended are aborted, whether queued, running or parked: their descriptors
complete with E_FAULT and CANCELLED and their pins are released (R398). -/
def State.abortStages (s : State) : State :=
  let dead := s.mmu.areas.filter fun a => decide (a.b ≤ s.swt.bT) && (a.st == 0 || a.st == 1 || a.st == 4)
  let s1 : State := dead.foldl (fun (t : State) a =>
    let u : State := t.bump R.MMU_CANCEL_CNT
    (if a.st = 0 then u else u.kennelDone a St.fault a.done 16).freeArea a) s
  let again := s1.knl.tasks.filterMap fun t =>
    if t.2.kind = 1 ∧ t.2.st = .cancelled ∧ t.2.staged = false then t.2.eng.map fun e => (t.2, e) else none
  again.foldl (fun (t : State) q => ((t.restageEnds q.1 q.2 St.fault 0 16).bump R.MMU_CANCEL_CNT).dengRest q.2) s1

/-- Every media task not DONE is cancelled (R39, R42, R354). -/
def State.deadlineCancel (s : State) : State :=
  let bad := s.mediaTasks.filter fun t => t.2.st != TaskSt.done && t.2.st != TaskSt.cancelled
  let s1 : State := bad.foldl (fun (u : State) (t : Nat × Task) => u.cancelOne t.1 t.2) s
  ((if bad.isEmpty then s1 else s1.raise R.SWT_EVT 4).abortDescs (bad.map (·.1))).abortStages

/-- A tap's block goes to the granary (R416, R458). -/
def State.tapOut (s : State) (l tap : Nat) (b : Block) : State :=
  s.capTap l tap (b.xs.flatMap fun v => be 5 (unsgn 40 v)) b.xs.length b.at_ b.u b.silent b.unset b.rate

/-- A tone event goes to the session that the leg notifies and to captures (R325, R460). -/
def State.toneOut (s : State) (l : Nat) (e : ToneEv) : State :=
  let d := be 4 l ++ be 1 e.node ++ be 1 e.code ++ be 1 e.kind ++ zeros 1 ++ be 2 (unsgn 16 e.level) ++ zeros 2 ++ be 4 e.dur
  let s1 : State := match (s.leg l).cfg.notify with
    | some (m, g) => if (s.sess m).st = .on ∧ (s.sess m).gen = g then s.eventAt m 0x03F0 0xFFFF d e.at_ else s
    | none => s
  if e.kind = 0 then s1.capTone l e.code e.at_ else s1

/-- A leg whose task is DONE commits (R416): its state, its export with the events it carries, its taps and its events. -/
def State.commitTask (s : State) (t : Task) : State :=
  match t.leg, t.work with
  | some l, some w =>
    let (evs, begun) := s.exportEvts l t w
    let x := s.leg l
    let exp := ((s.legTmpl l).exp.bind fun i => kget w.outs i).map fun b => { b with evts := evs }
    let s1 : State := s.setLeg l { x with med := w.med, exp := exp, expSwn := s.swn, rx := { x.rx with begun := begun } }
    let s2 : State := w.taps.foldl (fun (u : State) (p : Nat × Block) => u.tapOut l p.1 p.2) s1
    w.evts.foldl (fun (u : State) e => u.toneOut l e) s2
  | _, _ => s

/-- The frame of a media task counts among its leg's figures as it ended: one whose task is not DONE as lost (R39, R240, R417). -/
def State.countTask (s : State) (t : Task) : State :=
  match t.leg with
  | some l => s.setLeg l ((s.leg l).countFrame t.b t.reason t.pkt (t.st == .done))
  | none => s

/-- The counts of a leg that commits are read from here on (R417). -/
def State.commitStats (s : State) (l : Nat) : State := s.setLeg l { s.leg l with statsC := (s.leg l).stats }

/-- Every leg whose task is DONE commits, and so does a relay leg whose frame was due (R39, R416, R417). -/
def State.commits (s : State) : State :=
  let s1 : State := s.mediaTasks.foldl (fun (u : State) (t : Nat × Task) => u.countTask t.2) s
  let done := s.mediaTasks.filter fun t => t.2.st == TaskSt.done
  let s2 : State := done.foldl (fun (u : State) (t : Nat × Task) => u.commitTask t.2) s1
  let relays := (s.dueLegs s.swt.bT).filter fun l => (s.legTmpl l).relay
  ((done.filterMap fun t => t.2.leg) ++ relays).foldl (fun (u : State) l => u.commitStats l) s2

/-- The engine of an area's write-back (R395, R399): the one that staged it, or another where that one is no longer in use. -/
def State.backEng (s : State) (a : Area) : State × Nat :=
  let e := a.eng % 32
  if (s.deng e).st = .on ∨ (s.deng e).st = .stopping then (s, e)
  else match s.pickEng (s.leg a.leg).cluster with
    | some (k, t) => (t, k)
    | none => (s, e)

/-- A write-back begins: its descriptor goes to ring 0 of its engine (R397). -/
def State.backStart (s : State) (a b : Area) : State :=
  let (t, e) := s.backEng b
  let (u, c) := t.postArea { b with eng := b.eng / 32 * 32 + e, st := 3 }
  u.putArea a c

/-- A replay that is DONE commits from its reserve area, whatever has become of the original area (R413): the area takes the reserve over from the
task. -/
def State.replaysBack (s : State) : State :=
  (s.mediaTasks.filter fun p => p.2.kind == 1 && p.2.st == TaskSt.done).foldl (fun (t : State) (p : Nat × Task) =>
    let k := p.2
    let e := k.eng.getD 0
    let r : Area := { restageArea k e with st := 2 }
    ((t.setMmu { t.mmu with areas := t.mmu.areas ++ [r] }).setTask p.1 { k with rsv := 0 }).backStart r r) s

/-- Write-backs of legs that committed begin, and the areas of the others are freed by a RELEASE (R397). A replay writes back from its reserve. -/
def State.writeBacks (s : State) : State :=
  let mine := s.mmu.areas.filter fun a => decide (a.b ≤ s.swt.bT) && a.st == 2
  mine.foldl (fun (t : State) a =>
    match t.legTask a.leg with
    | some (_, k) =>
      if k.st = TaskSt.done ∧ k.b = a.b then
        if k.kind = 1 then t.releaseArea a else t.backStart a a
      else t.releaseArea a
    | none => t.releaseArea a) (s.replaysBack)

/-! ### Emit: the leashes (R214, R215, R357-R359) -/

/-- The events of the block that a leg's ENCODE node reads (R326). -/
def State.encEvts (s : State) (l : Nat) (w : Work) : List ToneEv :=
  match findIx Node.isEnc (s.legTmpl l).nodes with
  | some i => match kget w.outs i with | some b => b.evts | none => []
  | none => []

/-- A filled FRAME slot is built: event packets, voice, comfort noise, or nothing (R208, R210, R214). -/
def State.frameOut (s : State) (l : Nat) (f : Nat × Nat × Bool × Bytes) : State :=
  let (kind, at_, _, pay) := f
  let (s1, took) := s.eventsOut l at_
  if took then s1
  else
    let pts := (s1.leg l).cfg.pts
    match kind with
    | 0 => s1.voiceOut l pts.1 at_ R.PKE_TX_RTP_CNT pay
    | 1 => s1.voiceOut l (if pts.2.1 = 255 then pts.1 else pts.2.1) at_ R.PKE_TX_RTP_CNT pay
    | _ => s1.setLeg l { s1.leg l with tx := { (s1.leg l).tx with marker := true } }

/-- One slot is released (R358). -/
def State.slotOut (s : State) (l : Nat) (q : LSlot) : State :=
  let s1 : State := s.bump R.KNL_RELEASE_CNT
  if q.empty then
    let s2 : State := s1.bump R.KNL_EMPTY_CNT
    if q.kind = 0 then s2.fallbackOut l s2.swt.bT else s2
  else
    match q.kind with
    | 0 =>
      let evs := match s1.legTask l with | some (_, t) => (match t.work with | some w => s1.encEvts l w | none => []) | none => []
      q.frames.foldl (fun (t : State) f => t.frameOut l f) (s1.takeEvts l evs)
    | 1 => q.frames.foldl (fun (t : State) f => t.relayOut l f.2.2.2) s1
    | 2 => s1.reportOut l
    | _ => s1.byeOut l

/-- RTCP compounds and BYEs that are due take their slots: a report goes in the first placed swath that begins at or after its time (R215,
R357). -/
def State.rtcpSlots (s : State) : State :=
  s.legs.foldl (fun (t : State) (p : Nat × Leg) =>
    let x := t.leg p.1
    let out := x.cfg.egress.isSome
    if out ∧ x.st = .on ∧ t.placed x t.swt.bT ∧ x.tx.repAt ≤ t.swt.bT then t.setLeg p.1 { x with leash := x.leash ++ [⟨2, true, false, []⟩] }
    else if out ∧ x.st = .stopping ∧ x.created ∧ t.flag R.PKE_CFG_BYE then t.setLeg p.1 { x with leash := x.leash ++ [⟨3, true, false, []⟩] }
    else t) s

/-- The leashes are released, one slot per leash in turn (R358, R359). -/
def State.leashesOut (s : State) : State :=
  let ls := (s.legs.filter fun p => !p.2.leash.isEmpty).map fun p => (p.1, p.2.leash)
  let n := maxL (ls.map fun p => p.2.length)
  let s1 : State := (List.range n).foldl (fun (t : State) k => ls.foldl (fun (u : State) (p : Nat × List LSlot) =>
    match p.2[k]? with | some q => u.slotOut p.1 q | none => u) t) s
  ls.foldl (fun (t : State) (p : Nat × List LSlot) => t.setLeg p.1 { t.leg p.1 with leash := [] }) s1

/-- What later fault records say of a task that has ended: where its log record lies, its replays (R408, R425). -/
def logOfTask (m : KV (Nat × Nat × Nat)) (t : Task) : KV (Nat × Nat × Nat) :=
  match t.leg with | some l => kset m l (t.logOff.getD 0, t.attempts, t.replayCore) | none => m

/-- Media entries are freed once their slots are released (R342). -/
def State.freeMedia (s : State) : State :=
  let ended := s.mediaTasks.map (·.2)
  s.mediaTasks.foldl (fun (t : State) (p : Nat × Task) => t.freeTask p.1)
    (s.setFrp { s.frp with ended := ended, logAt := ended.foldl logOfTask s.frp.logAt })

/-- Stage-ins of the next swath whose size has changed are ordered again, and the set is complete (R363). -/
def State.restage (s : State) : State :=
  let old := s.mmu.areas.filter fun a => a.b == s.swt.nextT && (a.st == 0 || a.st == 1 || a.st == 2) && a.kib != s.kibAt a.leg a.b
  let s1 : State := old.foldl (fun (t : State) a => t.freeArea a) s
  s1.stageSet s1.swt.nextT

/-- WORK_DEADLINE (R37, R39): tasks not DONE are cancelled, legs commit, and Emit begins. -/
def State.deadline (s : State) : State :=
  let s1 : State := ((s.gatherEnd).setFld R.SWT_STAT_PHASE 2).keepSelections s.swt.bT
  let s2 : State := (s1.deadlineCancel).commits
  let s3 : State := ((s2.takePieces).writeBacks).rtcpSlots
  let s4 : State := ((s3.leashesOut).sendParcels).freeMedia
  ((s4.restage).cutAll 2).wakeCores

/-- WORK_DEADLINE, when the phase has run its length. A Work that a slip ended early begins and ends at once (R46). -/
def execWorkDeadline (s : State) : Host.Outcome State Fault Refusal :=
  .next (if s.swt.begun ∧ (s.phase = .work ∨ s.phase = .gather) ∧ s.swt.emitAt ≤ s.elapsed then s.deadline else s)

/-- Guard begins: captures end, HELLOs go out, parcel frames not begun are late (R37, R432, R437, R463). -/
def State.guardStart (s : State) : State := (((s.setFld R.SWT_STAT_PHASE 3).capEmitEnd).helloAll).parcelsLate

/-- GUARD_START (R37). -/
def execGuardStart (s : State) : Host.Outcome State Fault Refusal :=
  .next (if s.swt.begun ∧ s.phase = .emit ∧ s.swt.guardAt ≤ s.elapsed then s.guardStart else s)

/-- The phases of the swath that ends whose starts have not been taken yet begin, in their order: a swath never ends before its Work deadline
has cancelled what is not DONE (R37, R39, R41). -/
def State.phasesOwed (s : State) : State :=
  let s1 : State := if s.phase = .work ∨ s.phase = .gather then s.deadline else s
  if s1.phase = .emit then s1.guardStart else s1

/-- SWATH_BOUNDARY (R32, R600): TMU time, valid, has reached the next boundary. -/
def execSwathBoundary (s : State) : Host.Outcome State Fault Refusal :=
  .next (if s.mode ≠ .service ∨ s.fld R.TMU_STAT_VALID = 0 then s
    else if s.swt.begun then (if s.swt.nextT ≤ s.now then s.phasesOwed.boundary s.swt.nextT else s)
    else match s.swt.firstT with
      | some b => if b ≤ s.now then s.boundary b else s
      | none => s)

/-! ### Registers (R63-R68) -/

/-- The highest cycle load over the entries, with the lowest entry that holds it. -/
def State.loadMax (s : State) : Nat × Nat :=
  (List.range s.horizon).foldl (fun (b : Nat × Nat) e => if b.2 < (s.loadAt e).cyc then (e, (s.loadAt e).cyc) else b) (0, (s.loadAt 0).cyc)

/-- The registers of the block that mirror state. -/
def swtView (s : State) (_i2c : Bool) (a : Nat) : Option Nat :=
  let e := s.fld R.SWT_LOAD_SEL_ENTRY
  let l : Load := if s.horizon ≤ e then ⟨0, 0, 0⟩ else s.loadAt e
  if a = R.SWT_POS then some (if s.swt.begun then min (2 ^ 21 - 1) (s.elapsed / 65536) else 0)
  else if a = R.SWT_LOAD_CYC then some l.cyc
  else if a = R.SWT_LOAD_LOFT then some l.st
  else if a = R.SWT_LOAD_ECHO then some l.eu
  else if a = R.SWT_LOAD_MAX then some (s.loadMax.1 * 2 ^ 22 + s.loadMax.2)
  else none

/-- The general pages that lie in the span by which a budget grows (R371, R372). -/
def State.genInSpan (s : State) (kib : Nat) : List GenPage :=
  s.mmu.gen.filter fun g => decide (g.pa < poolEnd kib) && decide (poolEnd (s.fld R.SWT_LOFT_BUD_KIB) ≤ g.pa + g.bytes - 1)

/-- Whether a general page is pinned, or its entry forbids a move. -/
def State.genPinned (s : State) (g : GenPage) : Bool :=
  match s.walk g.ctx g.va with | some x => s.pagePinned x || tb x.entry 6 | none => false

/-- Whether some entry's load passes a test. -/
def State.anyEntry (s : State) (p : Nat → Bool) : Bool := s.swt.load.any fun x => p x.1

/-- The ranges and refusals of R35, R55, R64, R65 and R372. -/
def swtRule (s : State) (a v : Nat) : Option Nat :=
  let out (x lo hi : Nat) : Bool := decide (x < lo ∨ hi < x)
  if a = R.SWT_CFG then
    if bits v 1 0 = 3 ∨ (bits v 1 0 ≠ s.fld R.SWT_CFG_LEN ∧ s.legsOff = false) then some St.state else none
  else if a = R.SWT_CYC_PCT then
    if out (bits v 6 0) 50 88 then some St.state
    else if s.anyEntry fun e => decide (bcOf (s.fld R.SWT_UNITS_N_CORE) s.lenNs (bits v 6 0) < (s.loadAt e).cyc) then some St.noBudget
    else none
  else if a = R.SWT_LOFT_BUD then
    if out (bits v 17 0) 65536 229376 then some St.state
    else if s.anyEntry fun e => decide (bits v 17 0 < (s.loadAt e).st + (s.loadAt ((e + 1) % s.horizon)).st) then some St.noBudget
    else if (s.genInSpan (bits v 17 0)).any s.genPinned then some St.busy
    else none
  else none

/-- A change of length takes effect at the first multiple of the new length after now, and the phases of the swath in progress move to
the fractions of its actual length (R35, R600). -/
def State.newLen (s : State) : State :=
  let s1 : State := s.tndNewLen
  let l := s1.lenI
  if s1.swt.begun then
    let b := (s1.now / l + 1) * l
    (s1.setSwt { s1.swt with nextT := b }).movePhases (s1.elapsed + (b - s1.now))
  else if s1.fld R.TMU_STAT_VALID = 1 then s1.setSwt { s1.swt with firstT := some ((s1.now / l + 1) * l) }
  else s1

/-- The effect of a write to a SWT register (R35, R65). -/
def swtEffect (s : State) (a old v : Nat) : State :=
  if a = R.SWT_CFG then (if bits v 1 0 = bits old 1 0 then s else s.newLen)
  else if a = R.SWT_CYC_PCT then s.updCyc.updOver
  else if a = R.SWT_LOFT_BUD then s.updOver.startStages
  else s

end Sys2Proof.Machine
end

