-- ==== Sys2Proof/Machine/Time.lean ====
section
/-! DEFINITION. The TIME operations (R96, R97). What the PTP stack finds on the network is firmware of IEEE 1588 that the spec does
not lay out: the values that a status returns from it are free (log entry 14). -/

namespace Sys2Proof.Machine

open Sys2Proof

/-- The profile of the PTP clock. -/
def State.ptpProfile (s : State) : Nat := u8 s.tmu.ptpRole 2

/-- A journaled operation of OPERATOR. -/
def OpDef.oper (badLen : Bytes → Option Nat) (chk : State → Bytes → Chk) (app : State → Bytes → State) : OpDef :=
  { minRole := 1, jrnl := fun _ => true, badLen := badLen, bulk := false, chk := fun _ s b => chk s b, app := fun _ _ s b => Done.ok (app s b) }

/-- The settings of the ports that are enabled for PTP (R97). -/
def State.ptpOn (s : State) : List Bytes := (s.tmu.ptpPorts.filter fun p => u8 p.2 1 == 1).map (·.2)

/-- Whether a profile takes a port's transport and delay mechanism (R96). -/
def profileTakes (pr : Nat) (port : Bytes) : Bool :=
  match pr with
  | 0 => true
  | 1 => u8 port 2 == 0 && u8 port 3 == 0
  | _ => u8 port 2 != 0 && u8 port 3 == 0

/-- TIME_CLOCK (R97): refused outside the limits of R96. Those name T-BC and T-TSC alone for G.8275.1 and G.8275.2, so an ordinary clock there is
slave-only (log entry 64); an ordinary clock has one port; the enabled ports fit the profile. -/
def opTimeClock : OpDef := OpDef.oper (lenIs 20)
  (fun s b =>
    let d := u8 b 3
    Chk.first [(decide (2 < u8 b 0), .at_ 0), (decide (2 < u8 b 1), .at_ 1), (decide (2 < u8 b 2), .at_ 2),
      (decide (u8 b 0 = 1 ∧ u8 b 1 ≠ 2 ∧ u8 b 2 ≠ 0), .at_ 1), (decide (u8 b 2 = 1 ∧ (d < 24 ∨ 43 < d)), .at_ 3),
      (decide (u8 b 2 = 2 ∧ (d < 44 ∨ 63 < d)), .at_ 3), (decide (u8 b 0 = 1) && decide (1 < s.ptpOn.length), .at_ 0),
      (decide (u8 b 0 ≠ 0) && s.ptpOn.any fun p => !profileTakes (u8 b 2) p, .at_ 2)] (.ok []))
  fun s b => s.setTmu { s.tmu with ptpRole := b }

/-- Whether a logarithmic interval, a signed byte, is outside a range. -/
def logOut (v : Nat) (lo hi : Int) : Bool := decide (sgn 8 v < lo ∨ hi < sgn 8 v)

/-- TIME_PORT (R96, R97). -/
def opTimePort : OpDef := OpDef.oper (lenIs 36)
  (fun s b =>
    let pr := s.ptpProfile
    let tr := u8 b 2
    let other := s.tmu.ptpPorts.any fun p => p.1 != u8 b 0 && u8 p.2 1 == 1
    Chk.first [(decide (6 < u8 b 0), .at_ 0), (decide (1 < u8 b 1), .at_ 1),
      (decide (s.ptpRole = 1 ∧ u8 b 1 = 1) && other, .at_ 0),
      (decide (2 < tr ∨ (pr = 1 ∧ tr ≠ 0) ∨ (pr = 2 ∧ tr = 0)), .at_ 2), (decide (1 < u8 b 3 ∨ (pr ≠ 0 ∧ u8 b 3 = 1)), .at_ 3),
      (logOut (u8 b 4) (-7) 4, .at_ 4), (logOut (u8 b 5) (-7) 4, .at_ 5), (logOut (u8 b 6) (-3) 3, .at_ 6), (decide (u8 b 7 < 2), .at_ 7),
      (decide (1 < u8 b 8), .at_ 8), (decide (2 < u8 b 9), .at_ 9), (decide (1 < u8 b 10), .at_ 10)] (.ok []))
  fun s b => s.setTmu { s.tmu with ptpPorts := kset s.tmu.ptpPorts (u8 b 0) b }

/-- TIME_UNICAST (R97): slave ports of G.8275.2 only. -/
def opTimeUnicast : OpDef := OpDef.oper
  (fun b => if b.length < 8 then some b.length else if 4 < u8 b 1 then none else lenIs (8 + 20 * u8 b 1) b)
  (fun s b =>
    let port := kgetD s.tmu.ptpPorts (u8 b 0) []
    Chk.first [(decide (6 < u8 b 0), .at_ 0), (decide (4 < u8 b 1), .at_ 1),
      (decide (s.ptpProfile ≠ 2 ∨ (s.ptpRole = 1 ∧ u8 s.tmu.ptpRole 1 = 1) ∨ u8 port 10 % 2 = 1), .inState)] (.ok []))
  fun s b => s.setTmu { s.tmu with ptpUnicast := kset s.tmu.ptpUnicast (u8 b 0) b }

/-- The portState of a port (R97): DISABLED with role none and on a port that is not enabled; else one of the nine codes of IEEE 1588, a free
value. -/
def State.ptpPortState (s : State) (d : Bytes) (p : Nat) : Byte :=
  if s.ptpRole = 0 ∨ u8 (kgetD s.tmu.ptpPorts p []) 1 ≠ 1 then 3 else BitVec.ofNat 8 (1 + u8 d p % 9)

/-- TIME_STATUS (R97): LOCK is the servo's; the rest is the stack's. -/
def opTimeStatus : OpDef :=
  { minRole := 0, jrnl := fun _ => false, badLen := lenIs 0, bulk := false, chk := fun _ _ _ => .ok []
    app := fun _ _ s _ =>
      let d := s.drawBytes 44
      Done.res s.drawn ((List.range 7).map (s.ptpPortState d) ++ zeros 1 ++ sub d 7 21 ++ zeros 3 ++ sub d 28 16 ++ be 1 s.tmu.srv.lock.code ++ zeros 3) }

/-- TIME_PORT_STATUS (R97). -/
def opTimePortStatus : OpDef :=
  { minRole := 0, jrnl := fun _ => false, badLen := lenIs 4, bulk := false
    chk := fun _ _ b => if 6 < u8 b 0 then .at_ 0 else .ok []
    app := fun _ _ s b =>
      let p := u8 b 0
      let set := kgetD s.tmu.ptpPorts p (be 1 p ++ zeros 35)
      let run := s.ptpRole ≠ 0 ∧ s.ptpProfile = 2
      Done.res s.drawn (set ++ (if run then be 2 (s.draw 32 % 513) ++ be 1 (s.draw 32 / 1024 % 5) else zeros 3) ++ zeros 1) }

def execTimeClock (q : Req) (s : State) : Host.Outcome State Fault Refusal := .next (runOp opTimeClock 0x0601 q s)
def execTimePort (q : Req) (s : State) : Host.Outcome State Fault Refusal := .next (runOp opTimePort 0x0602 q s)
def execTimeUnicast (q : Req) (s : State) : Host.Outcome State Fault Refusal := .next (runOp opTimeUnicast 0x0603 q s)
def execTimeStatus (q : Req) (s : State) : Host.Outcome State Fault Refusal := .next (runOp opTimeStatus 0x0681 q s)
def execTimePortStatus (q : Req) (s : State) : Host.Outcome State Fault Refusal := .next (runOp opTimePortStatus 0x0682 q s)

end Sys2Proof.Machine
end

