-- ==== Sys2Proof/Machine/RegWrite.lean ====
section
/-! DEFINITION. Reads and writes of registers by a session or over I2C: REG_READ, REG_WRITE (R10-R13, R27, R168-R170, R372, R595), and the
rows of registers whose write or read acts. -/

namespace Sys2Proof.Machine

open Sys2Proof

/-! ### Reads (R10, R27, R168) -/

/-- The value of a register that mirrors state, by its window (R26). -/
def State.view (s : State) (i2c : Bool) (a : Nat) : Option Nat :=
  match a / 0x10000 with
  | 0 => idView s i2c a
  | 1 => swtView s i2c a
  | 2 => tmuView s i2c a
  | 3 => macView s i2c a
  | 4 => qcpView s i2c a
  | 5 => pkeView s i2c a
  | 6 => plyView s i2c a
  | 7 => fceView s i2c a
  | 8 => eceView s i2c a
  | 9 => knlView s i2c a
  | 10 => mmuView s i2c a
  | 11 => frpView s i2c a
  | 12 => tndView s i2c a
  | 13 => grnView s i2c a
  | 14 => balView s i2c a
  | 15 => glnView s i2c a
  | 17 => prsView s i2c a
  | _ => none

/-- The current value of a register; an address at which none is defined reads as 0 (R10, R27). -/
def State.readReg (s : State) (i2c : Bool) (a : Nat) : Nat :=
  match regAt a with
  | none => 0
  | some _ => ((s.view i2c a).getD (s.reg a)) % 2 ^ 32

/-- What a read does to the state (R106, R107, R146, R191, R426, R483, R521): latches of its path, and pops. -/
def State.readAct (s : State) (i2c : Bool) (a : Nat) : State :=
  if a = R.TMU_TIME_SEC_HI then
    (if i2c then s.setTmu { s.tmu with latI := s.now } else s.setTmu { s.tmu with latQ := s.now })
  else if 0x20200 ≤ a ∧ a < 0x202A0 ∧ a % 0x20 = 8 then
    let r := s.tinPop i2c ((a - 0x20200) / 0x20)
    r.1.setReg a r.2
  else if 0x30000 ≤ a ∧ a < 0x38000 ∧ a % 0x1000 = 0x104 then s.macCntLatch i2c ((a - 0x30000) / 0x1000) false
  else if 0x30000 ≤ a ∧ a < 0x38000 ∧ a % 0x1000 = 0x184 then s.macCntLatch i2c ((a - 0x30000) / 0x1000) true
  else if R.QCP_MZ_CTR_HI 0 ≤ a ∧ a < R.QCP_MZ_CTR_HI 8 ∧ a % 8 = R.QCP_MZ_CTR_HI 0 % 8 then
    s.mzLatch i2c ((a - R.QCP_MZ_CTR_HI 0) / 8)
  else if a = R.FRP_REC_POP then s.frpPop i2c
  else if a = R.GLN_REC_POP then s.glnPop i2c
  else if a = R.GRN_CAP_STRM_HI then s.strmLatch i2c
  else s

/-- Read consecutive registers in order of address: the state after, and the values (R168). -/
def readRegs : Nat → State → Bool → Nat → State × List Nat
  | 0, s, _, _ => (s, [])
  | n + 1, s, i2c, a =>
    let t := s.readAct i2c a
    let r := readRegs n t i2c (a + 4)
    (r.1, t.readReg i2c a :: r.2)

/-- REG_READ (R168): an address and a count. -/
def opRegRead : OpDef :=
  { minRole := 0, jrnl := fun _ => false, bulk := false
    badLen := fun b =>
      if b.length ≠ 8 then lenIs 8 b
      else if num b 4 4 < 1 ∨ 64 < num b 4 4 then some 4
      else if num b 0 4 % 4 ≠ 0 then some 0
      else none
    chk := fun _ _ _ => .ok []
    app := fun _ _ s b =>
      let r := readRegs (num b 4 4) s false (num b 0 4)
      Done.res r.1 (r.2.flatMap fun v => be 4 v) }

/-! ### Writes: which fields change (R10-R12) -/

/-- The fields of a register, with the exceptions of single instances: port 7 has no time-stamp corrections, and class 7 no watermarks
(R145). -/
def fieldsAt (a : Nat) : List FDef :=
  match regAt a with
  | none => []
  | some (d, _) =>
    let o := a % 0x1000
    let fixed := decide (0x30000 ≤ a) && decide (a < 0x38000) &&
      ((a / 0x1000 == 0x37 && (o == 0xC || o == 0x10)) || o == 0x5C || o == 0x7C)
    if fixed then d.fields.map fun f => { f with acc := .ro } else d.fields

/-- Whether writing `v` to a register that holds `cur` would change a field. A 1 in a field that acts when written changes it (R10, R12). -/
def FDef.changes (f : FDef) (cur v : Nat) : Bool :=
  match f.acc with
  | .ro => false
  | .rw | .rwl => bits v f.hi f.lo != bits cur f.hi f.lo
  | .w1c => bits v f.hi f.lo &&& bits cur f.hi f.lo != 0
  | .wo => bits v f.hi f.lo != 0

/-- What a field stores when `v` is written. -/
def FDef.store (f : FDef) (v cur : Nat) : Nat :=
  match f.acc with
  | .ro => cur
  | .rw | .rwl => putBits cur f.hi f.lo (bits v f.hi f.lo)
  | .w1c => putBits cur f.hi f.lo (bits cur f.hi f.lo - (bits v f.hi f.lo &&& bits cur f.hi f.lo))
  | .wo => putBits cur f.hi f.lo 0

/-- What a register stores when `v` is written over `cur`. -/
def storeFields (fs : List FDef) (cur v : Nat) : Nat := fs.foldl (fun c f => f.store v c) cur

/-- Whether the RWL fields of a register are locked (R114, R455). -/
def State.locked (s : State) (a : Nat) : Bool :=
  if a / 0x10000 = 3 then macLocked s a else if a = R.TND_CFG then s.devLocked else false

/-- The refusal of a write that its block's rules give; `old` is the value stored. -/
def State.rule (s : State) (a old v : Nat) : Option Nat :=
  match a / 0x10000 with
  | 1 => swtRule s a v
  | 2 => tmuRule s a v
  | 3 => macRule s a old v
  | 4 => qcpRule s a old v
  | 5 => pkeRule s a v
  | 6 => plyRule s a v
  | 9 => knlRule s a v
  | 11 => frpRule s a v
  | 12 => tndRule s a v
  | 13 => grnRule s a v
  | 15 => glnRule s a v
  | 16 => bgwRule a v
  | _ => none

/-- Whether a value asks for the action of a WO or W1C field (R170). -/
def asksAction (a v : Nat) : Bool := (fieldsAt a).any fun f => (f.acc == .wo || f.acc == .w1c) && bits v f.hi f.lo != 0

/-- The status of one pair of a REG_WRITE, or none when it is allowed (R12, R27, R169, R170). -/
def State.pairStatus (s : State) (role : Nat) (persist : Bool) (a v : Nat) : Option Nat :=
  if a % 4 ≠ 0 then some St.badLen
  else
    let cur := s.readReg false a
    let ch := (fieldsAt a).filter fun f => f.changes cur v
    let dbg := ch.any fun f => f.own == .d
    if dbg ∧ role ≠ 2 then some St.auth
    else if dbg ∧ s.lc ≠ 1 ∧ s.lc ≠ 3 then some St.lifecycle
    else if ch.any (fun f => f.own == .f || (f.acc == .rwl && s.locked a)) then some St.state
    else if a = R.QCP_DB_RPL then some St.state
    else match s.rule a (s.reg a) v with
      | some st => some st
      | none => if persist && asksAction a v then some St.state else none

/-- What a pair leaves for the check of the pairs after it (R169): its value, and no effect. -/
def State.stagePair (s : State) (a v : Nat) : State :=
  let t : State := if (regAt a).isSome then s.setReg a (storeFields (fieldsAt a) (s.reg a) v) else s
  if a = R.TMU_CTL then t.ctlPend v else t

/-- The check of the pairs from index `i` on: the first refusal, with the detail that it has. -/
def checkPairs (role : Nat) (persist : Bool) : List (Nat × Nat) → Nat → State → Chk
  | [], _, _ => .ok []
  | p :: ps, i, s =>
    match s.pairStatus role persist p.1 p.2 with
    | some st => .refuse st (if st = St.auth then 2 * 256 + i else i)
    | none => checkPairs role persist ps (i + 1) (s.stagePair p.1 p.2)

/-! ### Writes: the effects -/

/-- What a write of `v` does beyond storing it; `old` is the value stored before. -/
def State.effect (s : State) (a old v : Nat) : State :=
  match a / 0x10000 with
  | 1 => swtEffect s a old v
  | 2 => tmuEffect s a old v
  | 3 => macEffect s a old v
  | 6 => plyEffect s a v
  | 7 => fceEffect s a old v
  | 8 => eceEffect s a old v
  | 9 => knlEffect s a old v
  | 10 => mmuEffect s a old v
  | 11 => frpEffect s a old v
  | 14 => balEffect s a old v
  | 15 => glnEffect s a old v
  | 16 => bgwEffect s a old v
  | _ => s

/-- One pair is applied; a write where no register is defined is ignored (R27). -/
def State.writePair (s : State) (a v : Nat) : State :=
  if (regAt a).isSome then
    let old := s.reg a
    let t : State := s.setReg a (storeFields (fieldsAt a) old v)
    t.effect a old v
  else s

/-- The pairs of a REG_WRITE. -/
def pairsOf (b : Bytes) : List (Nat × Nat) :=
  (List.range (num b 2 2)).map fun i => (num b (4 + 8 * i) 4, num b (8 + 8 * i) 4)

/-- The pairs in payload order, and whether one of them arms too late (R60, R61, R169). -/
def applyPairs (s : State) (ps : List (Nat × Nat)) : State × Bool :=
  ps.foldl (fun (r : State × Bool) p => (r.1.writePair p.1 p.2, r.2 || tmuLate r.1 p.1 p.2)) (s, false)

/-- Whether a pair enlarges the stage pool over pages that the firmware has yet to move (R372). -/
def State.mustMove (s : State) (ps : List (Nat × Nat)) : Bool :=
  ps.any fun p => p.1 == R.SWT_LOFT_BUD && !(s.genInSpan (bits p.2 17 0)).isEmpty

/-- A REG_WRITE takes effect: its reply is E_LATE when a pair armed something late. -/
def regApply (s : State) (b : Bytes) : Done :=
  let r := applyPairs s (pairsOf b)
  ⟨r.1, if r.2 then St.late else St.ok, 0, [], false⟩

/-- REG_WRITE (R169, R170, R372). -/
def opRegWrite : OpDef :=
  { minRole := 1, jrnl := fun b => tb (num b 0 2) 0, bulk := false
    badLen := fun b =>
      if b.length < 4 then some b.length
      else if num b 2 2 < 1 ∨ 32 < num b 2 2 then some 2
      else lenIs (4 + 8 * num b 2 2) b
    chk := fun c s b => checkPairs c.role (tb (num b 0 2) 0) (pairsOf b) 0 s
    app := fun c _ s b =>
      if s.mustMove (pairsOf b) then
        Done.wait (s.setSwt { s.swt with loftWait := s.swt.loftWait ++ [(c.mbox, c.seq, b)] })
      else regApply s b }

/-- A REG_WRITE whose pages have been moved takes effect and is replied to (R372). -/
def State.loftDone (s : State) : State :=
  let go := s.swt.loftWait.filter fun w => !s.mustMove (pairsOf w.2.2)
  let s1 : State := s.setSwt { s.swt with loftWait := s.swt.loftWait.filter fun w => s.mustMove (pairsOf w.2.2) }
  go.foldl (fun (t : State) w =>
    let r := regApply t w.2.2
    r.s.replyLate w.1 w.2.1 0x0201 r.st r.det (tb (num w.2.2 0 2) 0) []) s1

/-- MOVE_COMPLETE (R372, R381): the move ends, and a write of SWT_LOFT_BUD that waited for it goes on. -/
def execMoveComplete (s : State) : Host.Outcome State Fault Refusal := .next (s.moveDone.loftDone)

/-- REG_WRITE. -/
def execRegWrite (q : Req) (s : State) : Host.Outcome State Fault Refusal := .next (runOp opRegWrite 0x0201 q s)

/-- REG_READ. -/
def execRegRead (q : Req) (s : State) : Host.Outcome State Fault Refusal := .next (runOp opRegRead 0x0281 q s)

/-! ### Rows of one register -/

/-- The REG_WRITE of one pair without PERSIST (R169). -/
def writeReq (c : RegCmd) (a v : Nat) : Req := ⟨c.mbox, c.seq, false, be 2 0 ++ be 2 1 ++ be 4 a ++ be 4 v⟩

/-- The REG_READ of one register (R168). -/
def readReq (c : RegCmd) (a : Nat) : Req := ⟨c.mbox, c.seq, false, be 4 a ++ be 4 1⟩

/-- A session writes one register. -/
def writeOne (c : RegCmd) (a v : Nat) (s : State) : State := runOp opRegWrite 0x0201 (writeReq c a v) s

/-- An I2C transfer answers from S01 onward; it reads `n` registers from the address it has been given (R595). -/
def i2cRead (n : Nat) (s : State) : State :=
  if s.mode = .reset then s
  else if s.i2cAddr % 4 ≠ 0 then { s with busOut := List.replicate n (BitVec.ofNat 32 0xFFFFFFFF) }
  else
    let r := readRegs n s true s.i2cAddr
    { r.1 with busOut := r.2.map (BitVec.ofNat 32), i2cAddr := (s.i2cAddr + 4 * n) % 2 ^ 32 }

/-- One register is read over a path. -/
def readOne (p : Path) (a : Nat) (s : State) : State :=
  match p with
  | .qcp c => runOp opRegRead 0x0281 (readReq c a) s
  | .i2c => if s.mode = .reset then s else i2cRead 1 { s with i2cAddr := a }

/-- TMU_CTL_SET (R73). -/
def execTmuCtlSet (c : RegCmd) (s : State) : Host.Outcome State Fault Refusal := .next (writeOne c R.TMU_CTL 1 s)

/-- TMU_CTL_STEP (R73). -/
def execTmuCtlStep (c : RegCmd) (s : State) : Host.Outcome State Fault Refusal := .next (writeOne c R.TMU_CTL 2 s)

/-- TMU_SRV_EN_WRITE (R91, R599). -/
def execTmuSrvEnWrite (c : RegCmd) (v : Word) (s : State) : Host.Outcome State Fault Refusal :=
  .next (writeOne c R.TMU_SRV_CTL v.toNat s)

/-- TMU_ADDEND_WRITE (R91): the addend or its extension. -/
def execTmuAddendWrite (c : RegCmd) (ext : Bool) (v : Word) (s : State) : Host.Outcome State Fault Refusal :=
  .next (writeOne c (if ext then R.TMU_ADDEND_EXT else R.TMU_ADDEND) v.toNat s)

/-- TMU_REF_SEL_WRITE (R72). -/
def execTmuRefSelWrite (c : RegCmd) (v : Word) (s : State) : Host.Outcome State Fault Refusal :=
  .next (writeOne c R.TMU_CFG v.toNat s)

/-- TMU_TIME_SEC_HI_READ (R107). -/
def execTmuTimeSecHiRead (p : Path) (s : State) : Host.Outcome State Fault Refusal := .next (readOne p R.TMU_TIME_SEC_HI s)

/-- TMU_TIN_POP (R106). -/
def execTmuTinPop (n : Fin 5) (p : Path) (s : State) : Host.Outcome State Fault Refusal := .next (readOne p (R.TMU_TIN_POP n.val) s)

/-- TMU_TOUT_ARM (R101): ARM is written, and the polarity as it stands. -/
def execTmuToutArm (n : Fin 4) (c : RegCmd) (s : State) : Host.Outcome State Fault Refusal :=
  .next (writeOne c (R.TMU_TOUT_CTL n.val) (s.toutCtl n.val 1) s)

/-- TMU_TOUT_DISARM (R103). -/
def execTmuToutDisarm (n : Fin 4) (c : RegCmd) (s : State) : Host.Outcome State Fault Refusal :=
  .next (writeOne c (R.TMU_TOUT_CTL n.val) (s.toutCtl n.val 2) s)

/-- MAC_CFG_EN_WRITE (R113, R599). -/
def execMacCfgEnWrite (p : Fin 8) (c : RegCmd) (v : Word) (s : State) : Host.Outcome State Fault Refusal :=
  .next (writeOne c (R.MAC_CFG p.val) v.toNat s)

/-- MAC_CTL_AN_RESTART (R116). -/
def execMacCtlAnRestart (p : Fin 8) (c : RegCmd) (s : State) : Host.Outcome State Fault Refusal := .next (writeOne c (R.MAC_CTL p.val) 2 s)

/-- MAC_CTL_PEAK_CLR (R145). -/
def execMacCtlPeakClr (p : Fin 8) (c : RegCmd) (s : State) : Host.Outcome State Fault Refusal := .next (writeOne c (R.MAC_CTL p.val) 1 s)

/-- MAC_CNT_LO_READ (R146): of the received or of the sent byte counter. -/
def execMacCntLoRead (p : Fin 8) (tx : Bool) (path : Path) (s : State) : Host.Outcome State Fault Refusal :=
  .next (readOne path (if tx then R.MAC_TX_BYTE_CNT_LO p.val else R.MAC_RX_BYTE_CNT_LO p.val) s)

/-- QCP_MZ_CTR_HI_READ (R191). -/
def execQcpMzCtrHiRead (k : Fin 8) (p : Path) (s : State) : Host.Outcome State Fault Refusal := .next (readOne p (R.QCP_MZ_CTR_HI k.val) s)

/-- TND_DEVNO_WRITE (R455): the reply carries the old number. -/
def execTndDevnoWrite (c : RegCmd) (v : Word) (s : State) : Host.Outcome State Fault Refusal := .next (writeOne c R.TND_CFG v.toNat s)

/-- TND_WIN_WRITE (R441). -/
def execTndWinWrite (c : RegCmd) (v : Word) (s : State) : Host.Outcome State Fault Refusal := .next (writeOne c R.TND_WIN v.toNat s)

/-- FAULT_RECORD_POP (R426). -/
def execFaultRecordPop (p : Path) (s : State) : Host.Outcome State Fault Refusal := .next (readOne p R.FRP_REC_POP s)

/-- MMU_CTL_PEAK_CLR (R401). -/
def execMmuCtlPeakClr (c : RegCmd) (s : State) : Host.Outcome State Fault Refusal := .next (writeOne c R.MMU_CTL 1 s)

/-- SWT_LEN_WRITE (R35). -/
def execSwtLenWrite (c : RegCmd) (v : Word) (s : State) : Host.Outcome State Fault Refusal := .next (writeOne c R.SWT_CFG v.toNat s)

/-- SWT_LOFT_BUD_WRITE (R55, R372). -/
def execSwtLoftBudWrite (c : RegCmd) (v : Word) (s : State) : Host.Outcome State Fault Refusal := .next (writeOne c R.SWT_LOFT_BUD v.toNat s)

/-- SWT_CYC_PCT_WRITE (R55, R65). -/
def execSwtCycPctWrite (c : RegCmd) (v : Word) (s : State) : Host.Outcome State Fault Refusal := .next (writeOne c R.SWT_CYC_PCT v.toNat s)

/-- PLY_CTL_PEAK_CLR (R242). -/
def execPlyCtlPeakClr (c : RegCmd) (s : State) : Host.Outcome State Fault Refusal := .next (writeOne c R.PLY_CTL 1 s)

/-- FCE_CTL_PEAK_CLR (R282). -/
def execFceCtlPeakClr (e : Fin 16) (c : RegCmd) (s : State) : Host.Outcome State Fault Refusal := .next (writeOne c (R.FCE_CTL e.val) 1 s)

/-- ECE_CTL_PEAK_CLR (R308). -/
def execEceCtlPeakClr (e : Fin 32) (c : RegCmd) (s : State) : Host.Outcome State Fault Refusal := .next (writeOne c (R.ECE_CTL e.val) 1 s)

/-- KNL_CTL_HIST_CLR (R365). -/
def execKnlCtlHistClr (c : RegCmd) (s : State) : Host.Outcome State Fault Refusal := .next (writeOne c R.KNL_CTL 2 s)

/-- KNL_CTL_PEAK_CLR (R367). -/
def execKnlCtlPeakClr (c : RegCmd) (s : State) : Host.Outcome State Fault Refusal := .next (writeOne c R.KNL_CTL 1 s)

/-- KNL_HIST_SEL_WRITE (R365). -/
def execKnlHistSelWrite (c : RegCmd) (v : Word) (s : State) : Host.Outcome State Fault Refusal := .next (writeOne c R.KNL_HIST_SEL v.toNat s)

/-- KNL_REFUSE_WRITE (R362). -/
def execKnlRefuseWrite (c : RegCmd) (v : Word) (s : State) : Host.Outcome State Fault Refusal := .next (writeOne c R.KNL_CFG v.toNat s)

/-- FRP_CTL_PEAK_CLR (R428). -/
def execFrpCtlPeakClr (c : RegCmd) (s : State) : Host.Outcome State Fault Refusal := .next (writeOne c R.FRP_CTL 1 s)

/-- GRN_CAP_STRM_HI_READ (R483). -/
def execGrnCapStrmHiRead (p : Path) (s : State) : Host.Outcome State Fault Refusal := .next (readOne p R.GRN_CAP_STRM_HI s)

/-- BAL_CTL_PEAK_CLR (R501). -/
def execBalCtlPeakClr (c : RegCmd) (s : State) : Host.Outcome State Fault Refusal := .next (writeOne c R.BAL_CTL 1 s)

/-- GLN_CTL_CUT (R509, R530). -/
def execGlnCtlCut (c : RegCmd) (s : State) : Host.Outcome State Fault Refusal := .next (writeOne c R.GLN_CTL 1 s)

/-- GLN_CFG_EN_WRITE (R510, R530). -/
def execGlnCfgEnWrite (c : RegCmd) (v : Word) (s : State) : Host.Outcome State Fault Refusal := .next (writeOne c R.GLN_CFG v.toNat s)

/-- GLN_REC_POP_READ (R521). -/
def execGlnRecPopRead (p : Path) (s : State) : Host.Outcome State Fault Refusal := .next (readOne p R.GLN_REC_POP s)

/-- I2C_ADDRESS_WRITE (R595): the target NAKs its address in reset. -/
def execI2cAddressWrite (a : BitVec 32) (s : State) : Host.Outcome State Fault Refusal :=
  .next (if s.mode = .reset then s else { s with i2cAddr := a.toNat })

/-- I2C_READ (R595). -/
def execI2cRead (count : Fin 65) (s : State) : Host.Outcome State Fault Refusal := .next (i2cRead count.val s)

end Sys2Proof.Machine
end

