-- ==== Sys2Proof/Machine/Journal.lean ====
section
/-! DEFINITION. The table of operations (R165, R166), bulk frames (R602), the commit of journal records and their re-execution
(R171-R173, R420-R423), and commands that the part does not know. -/

namespace Sys2Proof.Machine

open Sys2Proof

/-! ### The operations (R165, R166) -/

/-- The SESSION family. -/
def famSession : KV OpDef := [
  (0x0101, opRefused),
  (0x0102, opRefused),
  (0x0103, opSessionKeepalive),
  (0x0104, opSessionClose),
  (0x0105, opSessionSubscribe),
  (0x0108, opSessionKeySet),
  (0x0109, opSessionKeyClear),
  (0x0111, opUnmuzzle),
  (0x0112, opMuzzleKeySet),
  (0x0181, opSessionList),
  (0x0182, opMuzzleStatus)]

/-- The REG family. -/
def famReg : KV OpDef := [
  (0x0201, opRegWrite),
  (0x0281, opRegRead)]

/-- The CHAN family. -/
def famChan : KV OpDef := [
  (0x0301, opChanEnable),
  (0x0302, opChanDisable),
  (0x0303, opChanGraph),
  (0x0304, opChanFlowAdd),
  (0x0305, opChanFlowDel),
  (0x0306, opChanEgress),
  (0x0307, opChanKey),
  (0x0308, opChanPlayout),
  (0x0309, opChanEcho),
  (0x030A, opChanEchoReset),
  (0x030B, opChanBridge),
  (0x030C, opChanGain),
  (0x030D, opChanGroup),
  (0x030E, opChanToneCfg),
  (0x030F, opChanTonePlay),
  (0x0310, opChanToneStop),
  (0x0311, opChanCodec),
  (0x0312, opChanRtcp),
  (0x0313, opChanClear),
  (0x0320, opChanConfCreate),
  (0x0321, opChanConfDelete),
  (0x0322, opChanConfJoin),
  (0x0323, opChanConfLeave),
  (0x0381, opChanStatus),
  (0x0382, opChanConfStatus)]

/-- The GRAPH family. -/
def famGraph : KV OpDef := [
  (0x0401, opGraphDefine),
  (0x0402, opGraphDelete),
  (0x0403, opGraphCptDefine),
  (0x0481, opGraphInfo)]

/-- The COEF family. -/
def famCoef : KV OpDef := [
  (0x0501, opCoefSetLoad),
  (0x0502, opCoefSetFree),
  (0x0503, opCoefBank),
  (0x0504, opCoefSwap),
  (0x0505, opCoefSwapCancel),
  (0x0506, opCoefPhase),
  (0x0507, opCoefSyncReset),
  (0x0581, opCoefSetInfo),
  (0x0582, opCoefRomRead),
  (0x0583, opCoefChainStatus)]

/-- The TIME family. -/
def famTime : KV OpDef := [
  (0x0601, opTimeClock),
  (0x0602, opTimePort),
  (0x0603, opTimeUnicast),
  (0x0681, opTimeStatus),
  (0x0682, opTimePortStatus)]

/-- The PORT family. -/
def famPort : KV OpDef := [
  (0x0701, opPortEnable),
  (0x0702, opPortDisable),
  (0x0703, opPortMdioWrite),
  (0x0781, opPortMdioRead),
  (0x0782, opPortStatus)]

/-- The CAPT family. -/
def famCapt : KV OpDef := [
  (0x0801, opCaptOpen),
  (0x0802, opCaptClose),
  (0x0803, opCaptEnable),
  (0x0804, opCaptDisable),
  (0x0805, opCaptTrigger),
  (0x0806, opCaptExport),
  (0x0881, opCaptRead),
  (0x0882, opCaptStatus)]

/-- The PATT family. -/
def famPatt : KV OpDef := [
  (0x0901, opPattLoad),
  (0x0902, opPattFromCapt),
  (0x0903, opPattDelete),
  (0x0904, opPattPlay),
  (0x0905, opPattStop),
  (0x0981, opPattInfo)]

/-- The RING family. -/
def famRing : KV OpDef := [
  (0x0A01, opRingOpen),
  (0x0A02, opRingClose),
  (0x0A03, opRingEnable),
  (0x0A04, opRingDisable),
  (0x0A05, opRingFeed),
  (0x0A81, opRingStatus)]

/-- The TAND family. -/
def famTand : KV OpDef := [
  (0x0B01, opTandRoute),
  (0x0B02, opTandRing),
  (0x0B03, opTandExport),
  (0x0B04, opTandExportDel),
  (0x0B05, opTandImport),
  (0x0B06, opTandImportDel),
  (0x0B07, opTandConfImport),
  (0x0B08, opTandMigrateOut),
  (0x0B09, opTandMigrateIn),
  (0x0B81, opTandStatus)]

/-- The BIST family. -/
def famBist : KV OpDef := [
  (0x0C01, opBistRequest),
  (0x0C02, opBistFuseArm),
  (0x0C03, opBistFuseConfirm),
  (0x0C04, opBistLcArm),
  (0x0C05, opBistLcConfirm),
  (0x0C81, opBistRepairList),
  (0x0C82, opBistUnitStatus)]

/-- The PRS family. -/
def famPrs : KV OpDef := [
  (0x0D01, opPrsPartition),
  (0x0D02, opPrsCheckpoint),
  (0x0D81, opPrsLogRead),
  (0x0D82, opPrsInfo)]

/-- The FW family. -/
def famFw : KV OpDef := [
  (0x0E01, opFwLoad),
  (0x0E02, opFwActivate),
  (0x0E03, opFwStartClear),
  (0x0E81, opFwInfo)]

/-- The STAT family. -/
def famStat : KV OpDef := [
  (0x0F01, opStatIpfixSet),
  (0x0F81, opStatLeg),
  (0x0F82, opStatDevice),
  (0x0F90, opStatJrnlFate)]

/-- The SHUT family. -/
def famShut : KV OpDef := [
  (0x1001, opShutBegin),
  (0x1002, opShutAbort),
  (0x1081, opShutStatus)]

/-- The operations that the part knows, by family and operation code (R165, R166). -/
def opTable (opcode : Nat) : Option OpDef :=
  match opcode / 256 with
  | 1 => kget famSession opcode
  | 2 => kget famReg opcode
  | 3 => kget famChan opcode
  | 4 => kget famGraph opcode
  | 5 => kget famCoef opcode
  | 6 => kget famTime opcode
  | 7 => kget famPort opcode
  | 8 => kget famCapt opcode
  | 9 => kget famPatt opcode
  | 10 => kget famRing opcode
  | 11 => kget famTand opcode
  | 12 => kget famBist opcode
  | 13 => kget famPrs opcode
  | 14 => kget famFw opcode
  | 15 => kget famStat opcode
  | 16 => kget famShut opcode
  | _ => none

/-! ### Bulk frames (R602) -/

/-- One bulk frame of a session's command. Those of a RING_FEED act as they come, and its last one ends it with a reply (R474); the last one of
another command completes its payload. -/
def State.bulkFrame (s : State) (m role : Nat) (k : Bulk) (f : CmdFrame) : State :=
  let op := k.fam * 256 + k.op
  let wait (t : State) (b : Bytes) : State := t.setSess m { t.sess m with bulk := some { k with payload := b } }
  if op = 0x0A05 then
    let u := s.ringFeed (u8 k.payload 1) (u8 k.payload 0) f.payload
    if f.more then wait u k.payload else u.reply m k.seq op St.ok 0 true []
  else if f.more then wait s (k.payload ++ f.payload)
  else match opTable op with
    | some d => execOp d ⟨m, k.seq, op, role, false⟩ true s (k.payload ++ f.payload)
    | none => s

/-- BULK_FRAME (R474, R602): the next bulk frame of the command that awaits them. -/
def execBulkFrame (mbox : Fin 256) (s : State) : Host.Outcome State Fault Refusal :=
  let m := mbox.val
  let x := s.sess m
  .next (match x.bulk with
    | none => s
    | some k =>
      match x.ring.find? fun f => f.bulk && f.seq == k.seq with
      | none => s
      | some f =>
        if x.st ≠ .on ∨ s.qcp.jrnl.isSome then s
        else ((s.setSess m { x with ring := x.ring.eraseP (fun g => g.bulk && g.seq == k.seq), bulk := none }).unbell m).bulkFrame m x.role k f)

/-! ### The commit of a record (R171-R173, R420, R423) -/

/-- The payload that a record keeps, and whether it holds bulk frames: a pattern keeps the check value of its data (R471), and the record of a
RING_FEED is begun before its bulk frames come (R474). -/
def Jrnl.kept (j : Jrnl) : Bytes × Bool :=
  if j.opcode = 0x0901 then (pattJournal j.payload, false) else (j.payload, j.bulk && j.opcode != 0x0A05)

/-- The record of a command (R420). -/
def State.recordOf (s : State) (j : Jrnl) : JRec :=
  let x := s.sess j.mbox
  { recno := s.nv.recno + 1, boot := s.reg R.FRP_BOOT, session := x.num j.mbox, role := x.role, keyId := x.keyId, seq := j.seq
    opcode := j.opcode, payload := j.kept.1, at_ := s.now, result := if j.opcode = 0x0301 then j.plan.headD 0 else 0, bulk := j.kept.2 }

/-- The context in which a journaled command is applied. -/
def State.jctx (s : State) (j : Jrnl) : Ctx := ⟨j.mbox, j.seq, j.opcode, (s.sess j.mbox).role, false⟩

/-- Whether a command is a RING_FEED that goes on after its record is durable (R474). -/
def Jrnl.feeds (j : Jrnl) : Bool := j.opcode == 0x0A05 && j.bulk

/-- A record that cannot be committed: the reply is E_FAULT (R172). -/
def State.commitFail (s : State) (j : Jrnl) : State :=
  let t := ((s.bump R.QCP_JRNL_FAIL_CNT).raise R.QCP_EVT 32).reply j.mbox j.seq j.opcode St.fault 0 false []
  if j.feeds then (t.setSess j.mbox { t.sess j.mbox with bulk := none }).dropBulk j.mbox j.seq else t

/-- JOURNAL_COMMIT (R171, R172): the record is durable, and its command is applied and replied to; a RING_FEED's bulk frames may act. -/
def execJournalCommit (s : State) : Host.Outcome State Fault Refusal :=
  .next (match s.qcp.jrnl with
    | none => s
    | some j =>
      let t : State := s.setQcp { s.qcp with jrnl := none }
      match t.commitRec (t.recordOf j) with
      | none => t.commitFail j
      | some u =>
        let v : State := (u.fateCommit (t.recordOf j).session (t.recordOf j).keyId j.seq).bump R.QCP_JRNL_CNT
        match opTable j.opcode with
        | some d => if j.feeds ∧ (v.sess j.mbox).st = .on then v else (d.app (v.jctx j) j.plan v j.payload).finish (v.jctx j) v.dev true
        | none => v)

/-! ### Re-execution (R422, R474, R477) -/

/-- The mailbox number that a re-execution has: no session's. -/
def noMbox : Nat := 256

/-- Whether a record carries a key that the key store, cleared since, no longer opens (R204); a CHAN_KEY of suite 0 carries none. -/
def State.keyGone (s : State) (r : JRec) : Bool :=
  keyedOp r.opcode && (r.opcode != 0x0307 || u8 r.payload 6 != 0) && decide (r.recno < s.nv.keyLost)

/-- The records kept of a leg's keys in a direction, and of its being cleared. -/
def State.keyRecs (s : State) (l dir : Nat) : List JRec :=
  let ck (c : Option Ckpt) : List JRec := match c with | some k => k.recs | none => []
  let all := ck s.nv.ck0 ++ ck s.nv.ck1 ++ s.nv.jrnl
  all.filter fun r => legOf r.payload == l && (r.opcode == 0x0313 || (r.opcode == 0x0307 && u8 r.payload 4 == dir))

/-- Whether the newest key that a leg was given in some direction, before or after it was enabled, is gone: the leg stays OFF (R204). -/
def State.legKeyless (s : State) (l : Nat) : Bool :=
  [0, 1].any fun d =>
    let rs := s.keyRecs l d
    rs.any fun r => s.keyGone r && rs.all fun q => decide (q.recno ≤ r.recno)

/-- The check of a record: a key that is gone, and an enable of the leg that it was for, are refused (R204, R422); CHAN_ENABLE asks for the
offset it was given. -/
def recChk (d : OpDef) (c : Ctx) (s : State) (r : JRec) : Chk :=
  if s.keyGone r ∨ (r.opcode = 0x0301 ∧ s.legKeyless (legOf r.payload)) then .refuse St.state 0
  else if r.opcode = 0x0301 then enableChk c s r.payload (some (r.result % 65536)) else d.chk c s r.payload

/-- The leg that a record names, and 0 where it names none: conferences, routes and sets are of no leg. -/
def JRec.leg (r : JRec) : Nat :=
  let f := r.opcode / 256
  if (f = 3 ∧ r.opcode ≠ 0x0320 ∧ r.opcode ≠ 0x0321) ∨ (0x0503 ≤ r.opcode ∧ r.opcode ≤ 0x0507) ∨
      (0x0B03 ≤ r.opcode ∧ r.opcode ≤ 0x0B09 ∧ r.opcode ≠ 0x0B07) then legOf r.payload
  else 0

/-- A record is refused at re-execution: counted, told and recorded (R422, R425). -/
def State.recRefused (s : State) (r : JRec) (st : Nat) : State :=
  let s1 : State := (s.bump R.FRP_RESTORE_REFUSE_CNT).raise R.FRP_EVT 64
  s1.pushRecord (faultRecord ⟨s.now, s.swn, 0, 255, 0, st⟩ r.leg 4 0 255 0)

/-- The boundary at which a change whose record was committed at `r` took effect before the restart, as far as the record tells it (R62, R173): the
one that its instant names, or the first that the commit could reach (log entry 98). -/
def State.wasAt (s : State) (a : Armed) (r : Inst) : Inst :=
  let l := max 1 s.lenI
  max (nextMul l a.w.t) (r / l * l + if cdiv (88 * l) 100 ≤ r % l then 2 * l else l)

/-- A change that re-execution armed takes effect before records that came after its effect (R173, R422; log entry 98): a leg's enable makes its
chains, and the leg still waits for its boundary (R554); a disable of such a leg leaves it OFF. What acts on media alone stays armed, and so does a
change of a chain that is not there yet. -/
def State.settleOne (s : State) (a : Armed) (b : Inst) : State :=
  let x := s.leg a.leg
  let waits := decide (x.st = .starting) && !x.created
  let rest (t : State) : State := { t with armed := t.armed.erase a }
  if a.op = 0x0301 then
    if waits then { s.fitChains a.leg (s.legTmpl a.leg) with armed := s.armed.map fun e => if e = a then { e with recAt := none } else e } else s
  else if a.op = 0x0302 then
    if waits then ((rest s).applyLeg a b).legOff a.leg b else s
  else if a.op = 0x0503 ∨ a.op = 0x0506 then
    if khas x.med.chains (u8 a.payload 0) then (rest s).applyLeg a b else s
  else if a.op = 0x030A ∨ a.op = 0x030F ∨ a.op = 0x0310 ∨ a.op = 0x0507 ∨ a.op = 0x0B08 ∨ a.op = 0x0B09 then s
  else if a.op / 256 = 0x0B then (rest s).applyTnd a b
  else (rest s).applyLeg a b

/-- The changes that took effect up to instant `t` before the restart, in the order of their effect (R62). -/
def State.settled (s : State) (t : Inst) : List (Armed × Inst) :=
  let due := s.armed.filterMap fun a => a.recAt.bind fun r => if s.wasAt a r ≤ t then some (a, s.wasAt a r) else none
  due.foldl (fun m p => m.takeWhile (fun q => q.2 ≤ p.2) ++ p :: m.dropWhile fun q => q.2 ≤ p.2) []

/-- What had taken effect before a record takes effect before it is executed again (R173, R422; log entry 98). A swap that was armed has ended where
the record is of a command that a pending swap refuses, and, where it is of a cancel, when its instant lay before the cancel. -/
def State.settleTo (s : State) (r : JRec) : State :=
  let t : State := (s.settled r.at_).foldl (fun (u : State) p => if u.armed.contains p.1 then u.settleOne p.1 p.2 else u) s
  let (l, i) := chainRef r.payload
  if r.opcode = 0x0503 ∨ r.opcode = 0x0504 ∨ r.opcode = 0x0505 then
    t.updChain l i fun c => match c.swap with
      | some w => if r.opcode ≠ 0x0505 ∨ w.t.all fun T => decide (T ≤ r.at_) then { c with live := !c.live, swap := none } else c
      | none => c
  else t

/-- What the re-execution of a record arms keeps the instant of the record. -/
def State.markArmed (s : State) (n : Nat) (at_ : Inst) : State :=
  { s with armed := s.armed.take n ++ (s.armed.drop n).map fun a => { a with recAt := some at_ } }

/-- One record is executed again as a command of its role (R422); `counted` where it stands after the checkpoint. -/
def State.reexec (s : State) (r : JRec) (counted : Bool) : State :=
  let c : Ctx := ⟨noMbox, r.seq, r.opcode, r.role, true⟩
  let s0 : State := s.settleTo r
  let s1 : State := if counted then s0.bump R.FRP_RESTORE_CNT else s0
  if r.opcode = 0x0A05 then s1
  else match opTable r.opcode with
    | none => s1.recRefused r St.unknownOp
    | some d =>
      match recChk d c s1 r with
      | .refuse st _ => s1.recRefused r st
      | .count st _ cnt evt mask => (s1.counted cnt evt mask).recRefused r st
      | .ok plan => (d.app c plan s1 r.payload).s.markArmed s1.armed.length r.at_

/-! ### Operations that the part does not know (R165) -/

/-- UNKNOWN_OPERATION (R165): a code of the table is not this row's. -/
def execUnknownOperation (fam op : Byte) (q : Req) (s : State) : Host.Outcome State Fault Refusal :=
  let code := fam.toNat * 256 + op.toNat
  let m := q.mbox.val
  .next (if (opTable code).isNone ∧ s.turn m q.seq.toNat code q.more q.payload = true then
    (s.take m).reply m q.seq.toNat code St.unknownOp 0 false []
  else s)

end Sys2Proof.Machine
end

