-- ==== Sys2Proof/Machine/Start.lean ====
section
/-! DEFINITION. Power, reset and start (R28-R30, R419, R519, R539, R542, R551-R561, R575-R577, R588, R589). -/

namespace Sys2Proof.Machine

open Sys2Proof

/-! ### Pins (R539, R551, R576, R577, R588, R589) -/

/-- Replace the pins. -/
def State.setPins (s : State) (p : Pins) : State := { s with pins := p }

/-- The part leaves reset where its pins let it: cause 0 when PWRGOOD has risen since the last start began, else cause 1 (R588). -/
def State.leaveReset (s : State) : State := s.restart (if s.boot.risen then 0 else 1)

/-- PWRGOOD_RISE (R576, R588). -/
def execPwrgoodRise (x : Straps) (s : State) : Host.Outcome State Fault Refusal :=
  .next (if s.pins.pwrgood then s
    else
      let t : State := s.setPins { s.pins with pwrgood := true, bootsel := x.bootsel, i2cadr := x.i2cadr }
      ({ t with boot := { t.boot with risen := true } }).leaveReset)

/-- PWRGOOD_FALL (R589). -/
def execPwrgoodFall (s : State) : Host.Outcome State Fault Refusal :=
  .next (if s.pins.pwrgood then (s.setPins { s.pins with pwrgood := false }).held else s)

/-- RESET_N_ASSERT (R588). -/
def execResetNAssert (s : State) : Host.Outcome State Fault Refusal :=
  .next (if s.pins.resetN then (s.setPins { s.pins with resetN := false }).held else s)

/-- RESET_N_RELEASE (R539, R576, R588): the pins that a thermal reset held low are released. -/
def execResetNRelease (x : Straps) (s : State) : Host.Outcome State Fault Refusal :=
  .next (if s.pins.resetN then s
    else
      let t : State := s.setPins { s.pins with resetN := true, bootsel := x.bootsel, i2cadr := x.i2cadr, thermN := true, faultN := true }
      ({ t with boot := { t.boot with hot := false } }).leaveReset)

/-- TEST_EN_ASSERT (R577). -/
def execTestEnAssert (s : State) : Host.Outcome State Fault Refusal :=
  .next (if s.pins.testEn then s else (s.setPins { s.pins with testEn := true }).held)

/-- TEST_EN_RELEASE (R577): the reset ends; I2CADR is not sampled (R576). -/
def execTestEnRelease (x : Straps) (s : State) : Host.Outcome State Fault Refusal :=
  .next (if s.pins.testEn then (s.setPins { s.pins with testEn := false, bootsel := x.bootsel }).leaveReset else s)

/-- KATHIREL_WATCHDOG (R551): 1 s without progress in service. -/
def execKathirelWatchdog (s : State) : Host.Outcome State Fault Refusal :=
  .next (if s.mode = .service then s.restart 3 else s)

/-! ### The plan (R556, R557, R559) -/

/-- The highest alternate of a step (R552). -/
def topAlt (k : Nat) : Nat := (([0, 0, 0, 1, 1, 1, 4, 1, 0, 1, 0, 1, 0, 2, 0] : List Nat)[k]?).getD 0

/-- Whether a record of the start log has its check value right (R557). -/
def slogOk (r : Bytes) : Bool := num r 28 4 == (crc32c (r.take 28)).toNat

/-- The last record of a step under a boot number (R557). -/
def Nv.lastRecord (n : Nv) (boot k : Nat) : Option Bytes := n.slog.reverse.find? fun r => u8 r 3 == k && num r 4 4 == boot && slogOk r

/-- The alternate that a start chooses for a step (R557). -/
def Nv.chooseAlt (n : Nv) (k : Nat) (full : Bool) : Nat :=
  if k = 7 then (if full then 0 else 1)
  else
    let r := n.lastRecord (n.boot - 1) k
    let a := (n.plan[k - 1]?).getD 0
    match r with
    | none => if k = 13 then 0 else a
    | some r => if u8 r 9 = 0 then u8 r 8 + 1 else if k = 13 ∧ u8 r 9 = 1 then 0 else a

/-- Whether a start of this boot number is full (R559); `s14` says whether the start before it completed S14. -/
def State.isFull (s : State) (s14 : Bool) : Bool :=
  s.pins.bootsel == 1 || !s14 ||
    (match s.nv.shut with | some (b, ok) => b + 1 != s.nv.boot || !ok | none => true) ||
    s.boot.cause == 2 || s.boot.cause == 3 || s.boot.cause == 4 || s.nv.lc == 1 || s.nv.lc == 3 ||
    (match s.nv.lastFull with | some t => decide (t + 30 * 86400 * secI < s.now) | none => false) ||
    s.nv.fullNext

/-! ### The work of the steps (R552) -/

/-- What an attempt comes to: the state, the DETAIL of a failure, the outcome of one that does not fail, and DATA (R556, R558). -/
structure StepRes where
  s : State
  fail : Option Nat
  outcome : Nat
  data : Nat
  deriving DecidableEq, Repr

/-- An attempt that ends OK with no data. -/
def StepRes.ok (s : State) : StepRes := ⟨s, none, 1, 0⟩

/-- S03: VDD_CORE through AVSBus at the set point of the part, which the spec leaves to its speed bin; or fixed at 0.80 V. -/
def State.s03 (s : State) (alt : Nat) : StepRes :=
  if alt = 0 then .ok (s.drawn.setBgw { s.bgw with mv := 700 + s.draw 16 % 101 })
  else .ok (s.setBgw { s.bgw with mv := 800, avsDead := true })

/-- The slot that S04 takes (R560): the trial or the committed one, or the other of the two. -/
def State.slotFor (s : State) (alt : Nat) : Nat :=
  let base := s.nv.trial.getD s.nv.committed
  if alt = 0 then base else 1 - base

/-- S04 (R525, R560): an image that is not valid does not load, and none boots in BLANK and END. A trial that runs is spent. -/
def State.s04 (s : State) (alt : Nat) : StepRes :=
  let k := s.slotFor alt
  let tr := s.nv.trial == some k
  let data := k * 256 + b2n tr * 512
  if s.nv.lc = 0 ∨ s.nv.lc = 4 then ⟨s, some St.lifecycle, 2, data⟩
  else if (s.nv.slot k).st ≠ 1 then ⟨s, some St.auth, 2, data⟩
  else
    let t : State := if tr then s.setNv { s.nv with trial := none } else s
    ⟨{ t with boot := { t.boot with slot := k, trial := tr } }, none, 1, data⟩

/-- An image that fails verification is marked invalid (R560). -/
def State.badImage (s : State) (alt : Nat) : State :=
  let k := s.slotFor alt
  s.setNv (s.nv.setSlot k { s.nv.slot k with st := 2 })

/-- S05 (R519, R552): every fused entry is applied, then every entry of PRS whose spare no fused entry has taken; or the fused entries alone. -/
def State.s05 (s : State) (alt : Nat) : StepRes :=
  .ok (s.setGln { s.gln with applied := s.nv.fused ++ if alt = 0 then s.nv.freeRepairs else [] })

/-- S06: the stacks that trained, and their rate (R552, R558). -/
def State.s06 (s : State) (alt : Nat) : StepRes :=
  let mask := match alt with | 3 => 1 | 4 => 2 | _ => 3
  let rate := match alt with | 1 => 80 | 2 => 64 | _ => 96
  ⟨s.setFld R.MMU_HBM_STACKS (if mask = 3 then 2 else 1), none, 1, mask * 65536 + rate⟩

/-- S07 (R522, R552): the full test and the retest of what is out of service; or skipped, which sets FULL_OK (R559). -/
def State.s07 (s : State) (alt : Nat) (env : StartEnv) : StepRes :=
  if alt = 0 then
    let good := env.good.map fun p => (p.1.val, p.2.val)
    let bad := env.test.fails.map fun p => (p.1.val, p.2.val)
    let back := s.nv.outs.filter fun p => good.contains p && !bad.contains p
    let left := s.nv.outs.filter fun p => !back.contains p
    let outs := left ++ bad.filter fun p => !left.contains p
    let nc := (back.filter fun p => p.1 == 0).length
    let t := s.setNv { s.nv with outs := outs, repair := s.nv.repair ++ env.test.repairs }
    ⟨t.setGln { t.gln with applied := t.gln.applied ++ env.test.repairs }, none, 1, nc * 256 + (back.length - nc)⟩
  else ⟨s.setFld R.GLN_STAT_FULL_OK 1, none, 3, 0⟩

/-- A unit is mapped out, or taken out of service, at S08, with the counts and events of that (R282, R513, R552). -/
def State.keepOut (s : State) (p : Nat × Nat) : State := s.takeOut p.1 p.2

/-- S08: engines are enabled, and what PRS records out of service stays so; budgets follow (R54, R552). -/
def State.s08 (s : State) : StepRes :=
  let s1 : State := (List.range 16).foldl (fun (t : State) e => (t.setFld (R.FCE_CFG_EN e) 1).setFceFn e ⟨.on, false, false⟩ false) s
  let s2 : State := (List.range 32).foldl (fun (t : State) e => (t.setFld (R.ECE_CFG_EN e) 1).setEceFn e ⟨.on, false, false⟩ false) s1
  let s3 : State := (List.range 32).foldl (fun (t : State) e => t.setDeng e { t.deng e with en := true, st := .on }) s2
  let s4 : State := (List.range 4).foldl (fun (t : State) e => t.setBeng e { t.beng e with st := .on }) (s3.setFld R.BAL_CFG_EN 15)
  .ok (s4.nv.outs.foldl (fun (t : State) p => t.keepOut p) s4).followUnits

/-- The partition of HBM: leg backing store, granary, pattern store in GiB, and whether R30 substitutes it (R28-R30). -/
def State.partition (s : State) (alt : Nat) : Nat × Nat × Nat × Bool :=
  let n := s.hbmGib
  if alt ≠ 0 then (8, n - 16, 8, false)
  else if s.nv.bkgGib + s.nv.patGib ≤ n then (s.nv.bkgGib, n - s.nv.bkgGib - s.nv.patGib, s.nv.patGib, false)
  else (8, 12, 4, true)

/-- A DMA ring as the firmware sets it up (R385, R401). -/
def State.ringSetup (s : State) (x : RingSetup) : State :=
  if x.ring < 256 then
    s.setDring x.ring { DRing.init with en := true, ctx := x.ctx.toNat, log2 := x.log2.val, dbase := x.dbase.toNat, cbase := x.cbase.toNat }
  else s

/-- A job ring of the baler as the firmware sets it up (R487). -/
def State.jobSetup (s : State) (x : RingSetup) : State :=
  if x.ring < 4 then
    s.setBring x.ring { BRing.init with en := true, ctx := x.ctx.toNat, log2 := x.log2.val, dbase := x.dbase.toNat, cbase := x.cbase.toNat }
  else s

/-- S09 (R28-R30, R196, R372, R376): partition, page tables, rings, the seed of the flow table. Contexts 1 to 4 have their fixed map; the firmware
gives the other contexts theirs. -/
def State.s09 (s : State) (alt : Nat) (env : StartEnv) : StepRes :=
  let (l, g, p, sub_) := s.partition alt
  let s1 : State := ((s.setFld R.MMU_HBM_LBS_GIB l).setFld R.MMU_HBM_GRN_GIB g).setFld R.MMU_HBM_PAT_GIB p
  let s2 : State := env.roots.foldl (fun (t : State) r =>
    t.setMmu { t.mmu with roots := kset t.mmu.roots r.1.toNat r.2.toNat, valid := kset t.mmu.valid r.1.toNat true }) s1
  let s2b : State := [1, 2, 3, 4].foldl (fun (t : State) c => t.setMmu { t.mmu with valid := kset t.mmu.valid c true }) s2
  let s3 : State := (env.cells.foldl (fun (t : State) c => if t.paOk c.1.toNat then t.memSet c.1.toNat c.2 else t) s2b).findGen
  let s4 : State := env.jobs.foldl (fun (t : State) x => t.jobSetup x) (env.rings.foldl (fun (t : State) x => t.ringSetup x) s3)
  let s5 : State := s4.drawn.setPke { s4.pke with seed := s4.draw 32 }
  ⟨s5, none, 1, b2n sub_ * 2 ^ 31 + l * 65536 + g * 256 + p⟩

/-- A port is enabled by the part itself. -/
def State.portOn (s : State) (p : Nat) : State := (s.setFld (R.MAC_CFG_EN p) 1).portRequest p true

/-- S11: H0 and S0, or S0 alone (R552). -/
def State.s11 (s : State) (alt : Nat) : StepRes := .ok (if alt = 0 then (s.portOn 0).portOn 7 else s.portOn 7)

/-- The checkpoint that a start restores from, given how many fail their check from the newest on (R542). -/
def Nv.restorable (n : Nv) (bad : Nat) : Option Ckpt :=
  let older : Option Ckpt := match n.ck0, n.ck1 with
    | some a, some b => if a.recno < b.recno then some a else some b
    | _, _ => none
  match bad with
  | 0 => n.newest
  | 1 => older
  | _ => none

/-- S12 (R542): the records of the checkpoint are executed again; SKIPPED where there is none to restore from. -/
def State.s12 (s : State) (bad : Nat) : StepRes :=
  match s.nv.restorable bad with
  | none => ⟨s, none, 3, 0⟩
  | some c =>
    let s1 : State := if bad = 1 then s.raise R.PRS_EVT 16 else s
    .ok (c.recs.foldl (fun (t : State) r => t.reexec r false) s1)

/-- The records that S13 re-executes (R421, R542, R552): those after the checkpoint restored; none where every checkpoint is bad. -/
def Nv.afterCkpt (n : Nv) (bad : Nat) : List JRec :=
  match n.restorable bad with
  | some c => n.jrnl.filter fun r => decide (c.recno < r.recno)
  | none => if n.newest.isNone then n.jrnl else []

/-- The records of an alternate of S13: all of them, or those before the record that the previous start was executing. -/
def Nv.s13List (n : Nv) (alt bad : Nat) : List JRec :=
  let l := n.afterCkpt bad
  match alt with
  | 0 => l
  | 1 => match n.s13at with | some k => l.filter fun r => decide (r.recno < k) | none => l
  | _ => []

/-- The journal from a record that does not hold on, among those that a start reads, is discarded (R421). -/
def Nv.cutJrnl (n : Nv) (bad : Nat) (stop : Option (BitVec 32)) : Nv :=
  match stop with
  | some k => if (n.afterCkpt bad).any fun r => r.recno == k.toNat then { n with jrnl := n.jrnl.filter fun r => decide (r.recno < k.toNat) } else n
  | none => n

/-- S13 (R421, R422, R552): the journal is read up to the first record that is blank or fails its check, and executed again, or skipped. -/
def State.s13 (s0 : State) (alt bad : Nat) (stop : Option (BitVec 32)) : StepRes :=
  let s : State := if alt = 2 then s0 else s0.setNv (s0.nv.cutJrnl bad stop)
  let l := s.nv.s13List alt bad
  let t : State := l.foldl (fun (t : State) r => t.reexec r true) s
  let u : State := t.setNv { t.nv with s13at := none }
  ⟨u, none, if alt = 2 then 3 else 1, l.length⟩

/-- S14 (R552, R559, R560): the start is complete, and the part serves. -/
def State.s14 (s : State) (full : Bool) : StepRes :=
  let n := s.nv
  let n1 : Nv := { n with s14 := true, fails := 0 }
  let n2 : Nv := if s.boot.trial then { n1 with committed := s.boot.slot } else n1
  let n3 : Nv := if full then { n2 with lastFull := some s.now } else n2
  .ok ({ s.setNv n3 with mode := .service }).ipfixStart

/-- The work of an attempt at a step. -/
def State.stepWork (s : State) (env : StartEnv) (full : Bool) (k alt : Nat) : StepRes :=
  match k with
  | 1 => ⟨s, none, 1, s.boot.cause + env.bootsel.toNat * 256⟩
  | 2 => if s.nv.prsFailed then ⟨s, some St.fault, 2, 0⟩ else .ok s
  | 3 => s.s03 alt
  | 4 => s.s04 alt
  | 5 => s.s05 alt
  | 6 => s.s06 alt
  | 7 => s.s07 alt env
  | 8 => s.s08
  | 9 => s.s09 alt env
  | 10 => .ok s.recloseMuzzle
  | 11 => s.s11 alt
  | 12 => s.s12 env.ckBad.val
  | 13 => s.s13 alt env.ckBad.val env.jrnlEnd
  | 14 => s.s14 full
  | _ => .ok s

/-! ### The run of a start (R552, R555, R556, R561) -/

/-- A start under way: state, µs since the cause, whether it has ended in recovery boot or in a time-out. -/
structure StartRun where
  s : State
  us : Nat
  ended : Bool
  deriving DecidableEq, Repr

/-- PRS starts and is ON, or fails in its start (R18, R540). -/
def State.prsUp (s : State) : State := s.reportVia .prs .off (if s.nv.prsFailed then [.starting, .failed] else [.starting, .on])

/-- Recovery boot (R185, R561): it runs from the boot ROM alone; gates recorded closed are closed before its ports leave OFF. -/
def State.recover (s : State) (ports : List Nat) (us : Nat) : State :=
  let t : State := { s.held.prsUp with mode := .recovery, tmu := s.tmu, boot := { s.boot with listen := ports, trial := false } }
  let u : State := ((t.setReg R.FRP_BOOT (if s.nv.prsFailed then 0 else s.nv.boot)).slogPut 15 0 1 0 us 0 0).recloseMuzzle
  ports.foldl (fun (v : State) p => v.portOn p) u

/-- The attempts that the environment gives for a step. -/
def triesOf (e : StartEnv) (k : Nat) : List StepTry := e.tries.filter fun t => t.step.val == k

/-- An attempt ends without failure: its record, and the plan keeps the alternate of one that is OK but for S07 and S13 (R556, R557). -/
def closeStep (k alt us dur : Nat) (w : StepRes) : StartRun :=
  let d := if w.outcome = 3 then 0 else dur
  let t : State := w.s.slogPut k alt w.outcome 0 us d w.data
  let u : State := if w.outcome = 1 ∧ k ≠ 7 ∧ k ≠ 13 then t.setNv { t.nv with plan := t.nv.plan.set (k - 1) alt } else t
  ⟨u, us + d, false⟩

/-- Attempts at a step from an alternate on, at most `fuel` (R555, R556). One that the environment makes fail leaves nothing but its record;
an image that fails verification is marked invalid. With `stop` the attempt after those given runs beyond the limit of the step. -/
def attempts (env : StartEnv) (full stop : Bool) (k : Nat) : Nat → Nat → List StepTry → StartRun → StartRun
  | 0, _, _, r => r
  | fuel + 1, alt, tries, r =>
    if topAlt k < alt then ⟨r.s.recover [0, 7] r.us, r.us, true⟩
    else
      let b : State := r.s.slogPut k alt 0 0 r.us 0 (if k = 1 then r.s.boot.cause + env.bootsel.toNat * 256 else 0)
      let w := b.stepWork env full k alt
      let dur := match tries with | t :: _ => t.us.toNat | [] => ((env.us[k - 1]?).getD 0).toNat
      let fails : Option Nat := match tries with | t :: _ => (match t.detail with | some d => some d.toNat | none => w.fail) | [] => w.fail
      if tries.isEmpty ∧ stop then
        let at_ : Option Nat := if k = 13 then (((b.nv.cutJrnl env.ckBad.val env.jrnlEnd).s13List alt env.ckBad.val)[env.s13]?).map JRec.recno else b.nv.s13at
        ⟨(b.setNv { b.nv with s13at := at_ }).restart 2, r.us, true⟩
      else match fails with
        | some d =>
          let c : State := if k = 4 ∧ d = St.auth then b.badImage alt else b
          attempts env full stop k fuel (alt + 1) (tries.drop 1) ⟨c.slogPut k alt 2 d r.us dur w.data, r.us + dur, false⟩
        | none => closeStep k alt r.us dur w

/-- What S02 does when it opens PRS (R419, R540, R559, R560, R561): the boot number rises, a start that did not complete S14 is counted. -/
def State.openPrs (s0 : State) : State :=
  let s1 := s0.prsUp
  let s := if s1.nv.prsFailed then s1 else s1.prsRead
  let n := s.nv
  if n.prsFailed then s
  else
    let fails := if n.s14 ∨ n.boot = 0 then n.fails else n.fails + 1
    (s.setNv { n with boot := n.boot + 1, fails := fails, s14 := false, lastCause := s.boot.cause }).setReg R.FRP_BOOT (n.boot + 1)

/-- The ports on which a start listens for recovery boot instead of going on after S02 (R561). -/
def State.recoveryPorts (s : State) (bootsel : Nat) : Option (List Nat) :=
  if bootsel = 2 then some [0] else if bootsel = 3 then some [7] else if s.nv.recNext ∨ 3 ≤ s.nv.fails then some [0, 7] else none

/-- One step of the fourteen, unless the start has ended; after S02 recovery boot may follow. -/
def oneStep (env : StartEnv) (full : Bool) (stop : Option Nat) (r : StartRun) (k : Nat) : StartRun :=
  if r.ended then r
  else
    let q := attempts env full (stop == some k) k (topAlt k + 2) (r.s.nv.chooseAlt k full) (triesOf env k) r
    if k = 2 ∧ q.ended = false then
      match q.s.recoveryPorts env.bootsel.toNat with
      | some l => ⟨(q.s.setNv { q.s.nv with recNext := false, fullNext := false }).recover l q.us, q.us, true⟩
      | none => { q with s := q.s.setNv { q.s.nv with fullNext := false } }
    else q

/-- A start runs its steps in order, to the end or until step `stop` runs beyond its limit (R552, R555). BOOTSEL is read, and a life-cycle
transition that waits for the next start is made, at S01 (R523, R575). -/
def State.runStart (s : State) (env : StartEnv) (stop : Option Nat) : State :=
  let s1 : State := s.setPins { s.pins with bootsel := env.bootsel }
  let s2 : State := match s1.nv.lcNext with | some t => s1.setNv { s1.nv with lc := t, lcNext := none } | none => s1
  let s3 : State := s2.openPrs
  let full := s3.isFull s2.nv.s14
  ((List.range 14).foldl (fun (r : StartRun) k => oneStep env full stop r (k + 1)) ⟨s3, 0, false⟩).s

/-- START_SEQUENCE (R552). -/
def execStartSequence (env : StartEnv) (s : State) : Host.Outcome State Fault Refusal :=
  .next (if s.mode = .starting then s.runStart env none else s)

/-- START_STEP_TIMEOUT (R555): the steps before it have run; a time-out of S01 leaves no record, since PRS is not open. -/
def execStartStepTimeout (step : Fin 14) (env : StartEnv) (s : State) : Host.Outcome State Fault Refusal :=
  .next (if s.mode ≠ .starting then s else if step.val = 0 then s.restart 2 else s.runStart env (some (step.val + 1)))

end Sys2Proof.Machine
end

