-- ==== Sys2Proof/Machine/Tick.lean ====
section
/-! DEFINITION. TMU_TICK (R18, R69): one tick of domain 15, and the starts and stops of functions that it completes. -/

namespace Sys2Proof.Machine

open Sys2Proof

/-- The engines whose start or stop a tick completes (R18; log entry 70). -/
def State.fnTick (s : State) : State :=
  (List.range 32).foldl (fun (t : State) e => t.eceTick e) ((List.range 16).foldl (fun (t : State) e => t.fceTick e) s)

/-- TMU_TICK (R18, R69): time advances by the addend, and starts and stops under way complete. -/
def execTmuTick (s : State) : Host.Outcome State Fault Refusal := .next (if s.mode = .reset then s else s.tick.fnTick)

end Sys2Proof.Machine
end

