-- ==== Sys2Proof/Machine/Dispatch.lean ====
section
/-! DEFINITION. The dispatch: one arm per command, each a direct call of its meaning. -/

namespace Sys2Proof.Machine

open Sys2Proof

def exec (i : Instr) (s : State) : Host.Outcome State Fault Refusal :=
  match i with
  | .pwrgoodRise straps => Sys2Proof.Machine.execPwrgoodRise straps s
  | .pwrgoodFall => Sys2Proof.Machine.execPwrgoodFall s
  | .resetNAssert => Sys2Proof.Machine.execResetNAssert s
  | .resetNRelease straps => Sys2Proof.Machine.execResetNRelease straps s
  | .testEnAssert => Sys2Proof.Machine.execTestEnAssert s
  | .startSequence env => Sys2Proof.Machine.execStartSequence env s
  | .startStepTimeout step env => Sys2Proof.Machine.execStartStepTimeout step env s
  | .kathirelWatchdog => Sys2Proof.Machine.execKathirelWatchdog s
  | .tmuTick => Sys2Proof.Machine.execTmuTick s
  | .stepApply => Sys2Proof.Machine.execStepApply s
  | .tmuCtlSet c => Sys2Proof.Machine.execTmuCtlSet c s
  | .tmuCtlStep c => Sys2Proof.Machine.execTmuCtlStep c s
  | .tmuOfsPush ns aux mpd => Sys2Proof.Machine.execTmuOfsPush ns aux mpd s
  | .servoSample => Sys2Proof.Machine.execServoSample s
  | .servoHoldoverTimeout => Sys2Proof.Machine.execServoHoldoverTimeout s
  | .servoFail => Sys2Proof.Machine.execServoFail s
  | .tmuSrvEnWrite c v => Sys2Proof.Machine.execTmuSrvEnWrite c v s
  | .tmuAddendWrite c ext v => Sys2Proof.Machine.execTmuAddendWrite c ext v s
  | .tmuRefSelWrite c v => Sys2Proof.Machine.execTmuRefSelWrite c v s
  | .ref10mAcquire => Sys2Proof.Machine.execRef10mAcquire s
  | .ref10mLoss => Sys2Proof.Machine.execRef10mLoss s
  | .tmuTimeSecHiRead path => Sys2Proof.Machine.execTmuTimeSecHiRead path s
  | .tinEdgeCapture n rise => Sys2Proof.Machine.execTinEdgeCapture n rise s
  | .tmuTinPop n path => Sys2Proof.Machine.execTmuTinPop n path s
  | .tmuToutArm n c => Sys2Proof.Machine.execTmuToutArm n c s
  | .tmuToutDisarm n c => Sys2Proof.Machine.execTmuToutDisarm n c s
  | .toutPulse n => Sys2Proof.Machine.execToutPulse n s
  | .swathBoundary => Sys2Proof.Machine.execSwathBoundary s
  | .gatherEnd => Sys2Proof.Machine.execGatherEnd s
  | .workStart => Sys2Proof.Machine.execWorkStart s
  | .workDeadline => Sys2Proof.Machine.execWorkDeadline s
  | .guardStart => Sys2Proof.Machine.execGuardStart s
  | .timedActionExec a => Sys2Proof.Machine.execTimedActionExec a s
  | .portStartDone p live => Sys2Proof.Machine.execPortStartDone p live s
  | .portCalFail p => Sys2Proof.Machine.execPortCalFail p s
  | .lanePllLoss p => Sys2Proof.Machine.execLanePllLoss p s
  | .linkUp p => Sys2Proof.Machine.execLinkUp p s
  | .linkDown p => Sys2Proof.Machine.execLinkDown p s
  | .portStopDone p => Sys2Proof.Machine.execPortStopDone p s
  | .rgmiiInbandStatus link speed full => Sys2Proof.Machine.execRgmiiInbandStatus link speed full s
  | .macRxFrame w => Sys2Proof.Machine.execMacRxFrame w s
  | .pauseQuantaExpiry p tc => Sys2Proof.Machine.execPauseQuantaExpiry p tc s
  | .pfcRefresh p => Sys2Proof.Machine.execPfcRefresh p s
  | .macTxSelect p => Sys2Proof.Machine.execMacTxSelect p s
  | .s0Collision bitTimes => Sys2Proof.Machine.execS0Collision bitTimes s
  | .s0BackoffExpiry => Sys2Proof.Machine.execS0BackoffExpiry s
  | .macMdioGo cfg v => Sys2Proof.Machine.execMacMdioGo cfg v s
  | .mdioFrameDone rdata => Sys2Proof.Machine.execMdioFrameDone rdata s
  | .macCfgEnWrite p c v => Sys2Proof.Machine.execMacCfgEnWrite p c v s
  | .macCtlAnRestart p c => Sys2Proof.Machine.execMacCtlAnRestart p c s
  | .macCtlPeakClr p c => Sys2Proof.Machine.execMacCtlPeakClr p c s
  | .macCntLoRead p tx path => Sys2Proof.Machine.execMacCntLoRead p tx path s
  | .pkeFrameTake p tc => Sys2Proof.Machine.execPkeFrameTake p tc s
  | .slowPathFrame => Sys2Proof.Machine.execSlowPathFrame s
  | .ptpFrameRx r => Sys2Proof.Machine.execPtpFrameRx r s
  | .txQueueEntry p tc => Sys2Proof.Machine.execTxQueueEntry p tc s
  | .qcpFrameRx p => Sys2Proof.Machine.execQcpFrameRx p s
  | .muzzleFrame => Sys2Proof.Machine.execMuzzleFrame s
  | .gateRelease g => Sys2Proof.Machine.execGateRelease g s
  | .muzzleStateRecord => Sys2Proof.Machine.execMuzzleStateRecord s
  | .openRateSecond => Sys2Proof.Machine.execOpenRateSecond s
  | .sessionProveTimeout mbox => Sys2Proof.Machine.execSessionProveTimeout mbox s
  | .leaseExpiry mbox => Sys2Proof.Machine.execLeaseExpiry mbox s
  | .bulkFrame mbox => Sys2Proof.Machine.execBulkFrame mbox s
  | .replySend mbox => Sys2Proof.Machine.execReplySend mbox s
  | .eventSend mbox => Sys2Proof.Machine.execEventSend mbox s
  | .journalCommit => Sys2Proof.Machine.execJournalCommit s
  | .qcpDbRpl v => Sys2Proof.Machine.execQcpDbRpl v s
  | .qcpMzCtrHiRead k path => Sys2Proof.Machine.execQcpMzCtrHiRead k path s
  | .sessionOpen o => Sys2Proof.Machine.execSessionOpen o s
  | .sessionProve q => Sys2Proof.Machine.execSessionProve q s
  | .sessionKeepalive q => Sys2Proof.Machine.execSessionKeepalive q s
  | .sessionClose q => Sys2Proof.Machine.execSessionClose q s
  | .sessionSubscribe q => Sys2Proof.Machine.execSessionSubscribe q s
  | .sessionKeySet q => Sys2Proof.Machine.execSessionKeySet q s
  | .sessionKeyClear q => Sys2Proof.Machine.execSessionKeyClear q s
  | .unmuzzle q => Sys2Proof.Machine.execUnmuzzle q s
  | .muzzleKeySet q => Sys2Proof.Machine.execMuzzleKeySet q s
  | .sessionList q => Sys2Proof.Machine.execSessionList q s
  | .muzzleStatus q => Sys2Proof.Machine.execMuzzleStatus q s
  | .regWrite q => Sys2Proof.Machine.execRegWrite q s
  | .regRead q => Sys2Proof.Machine.execRegRead q s
  | .chanEnable q => Sys2Proof.Machine.execChanEnable q s
  | .chanDisable q => Sys2Proof.Machine.execChanDisable q s
  | .chanGraph q => Sys2Proof.Machine.execChanGraph q s
  | .chanFlowAdd q => Sys2Proof.Machine.execChanFlowAdd q s
  | .chanFlowDel q => Sys2Proof.Machine.execChanFlowDel q s
  | .chanEgress q => Sys2Proof.Machine.execChanEgress q s
  | .chanKey q => Sys2Proof.Machine.execChanKey q s
  | .chanPlayout q => Sys2Proof.Machine.execChanPlayout q s
  | .chanEcho q => Sys2Proof.Machine.execChanEcho q s
  | .chanEchoReset q => Sys2Proof.Machine.execChanEchoReset q s
  | .chanBridge q => Sys2Proof.Machine.execChanBridge q s
  | .chanGain q => Sys2Proof.Machine.execChanGain q s
  | .chanGroup q => Sys2Proof.Machine.execChanGroup q s
  | .chanToneCfg q => Sys2Proof.Machine.execChanToneCfg q s
  | .chanTonePlay q => Sys2Proof.Machine.execChanTonePlay q s
  | .chanToneStop q => Sys2Proof.Machine.execChanToneStop q s
  | .chanCodec q => Sys2Proof.Machine.execChanCodec q s
  | .chanRtcp q => Sys2Proof.Machine.execChanRtcp q s
  | .chanClear q => Sys2Proof.Machine.execChanClear q s
  | .chanConfCreate q => Sys2Proof.Machine.execChanConfCreate q s
  | .chanConfDelete q => Sys2Proof.Machine.execChanConfDelete q s
  | .chanConfJoin q => Sys2Proof.Machine.execChanConfJoin q s
  | .chanConfLeave q => Sys2Proof.Machine.execChanConfLeave q s
  | .chanStatus q => Sys2Proof.Machine.execChanStatus q s
  | .chanConfStatus q => Sys2Proof.Machine.execChanConfStatus q s
  | .graphDefine q => Sys2Proof.Machine.execGraphDefine q s
  | .graphDelete q => Sys2Proof.Machine.execGraphDelete q s
  | .graphCptDefine q => Sys2Proof.Machine.execGraphCptDefine q s
  | .graphInfo q => Sys2Proof.Machine.execGraphInfo q s
  | .coefSetLoad q => Sys2Proof.Machine.execCoefSetLoad q s
  | .coefSetFree q => Sys2Proof.Machine.execCoefSetFree q s
  | .coefBank q => Sys2Proof.Machine.execCoefBank q s
  | .coefSwap q => Sys2Proof.Machine.execCoefSwap q s
  | .coefSwapCancel q => Sys2Proof.Machine.execCoefSwapCancel q s
  | .coefPhase q => Sys2Proof.Machine.execCoefPhase q s
  | .coefSyncReset q => Sys2Proof.Machine.execCoefSyncReset q s
  | .coefSetInfo q => Sys2Proof.Machine.execCoefSetInfo q s
  | .coefRomRead q => Sys2Proof.Machine.execCoefRomRead q s
  | .coefChainStatus q => Sys2Proof.Machine.execCoefChainStatus q s
  | .timeClock q => Sys2Proof.Machine.execTimeClock q s
  | .timePort q => Sys2Proof.Machine.execTimePort q s
  | .timeUnicast q => Sys2Proof.Machine.execTimeUnicast q s
  | .timeStatus q => Sys2Proof.Machine.execTimeStatus q s
  | .timePortStatus q => Sys2Proof.Machine.execTimePortStatus q s
  | .portEnable q => Sys2Proof.Machine.execPortEnable q s
  | .portDisable q => Sys2Proof.Machine.execPortDisable q s
  | .portMdioWrite q => Sys2Proof.Machine.execPortMdioWrite q s
  | .portMdioRead q => Sys2Proof.Machine.execPortMdioRead q s
  | .portStatus q => Sys2Proof.Machine.execPortStatus q s
  | .captOpen q => Sys2Proof.Machine.execCaptOpen q s
  | .captClose q => Sys2Proof.Machine.execCaptClose q s
  | .captEnable q => Sys2Proof.Machine.execCaptEnable q s
  | .captDisable q => Sys2Proof.Machine.execCaptDisable q s
  | .captTrigger q => Sys2Proof.Machine.execCaptTrigger q s
  | .captExport q => Sys2Proof.Machine.execCaptExport q s
  | .captRead q => Sys2Proof.Machine.execCaptRead q s
  | .captStatus q => Sys2Proof.Machine.execCaptStatus q s
  | .captureTimeTrigger c => Sys2Proof.Machine.execCaptureTimeTrigger c s
  | .exportFrameSend x => Sys2Proof.Machine.execExportFrameSend x s
  | .pattLoad q => Sys2Proof.Machine.execPattLoad q s
  | .pattFromCapt q => Sys2Proof.Machine.execPattFromCapt q s
  | .pattDelete q => Sys2Proof.Machine.execPattDelete q s
  | .pattPlay q => Sys2Proof.Machine.execPattPlay q s
  | .pattStop q => Sys2Proof.Machine.execPattStop q s
  | .pattInfo q => Sys2Proof.Machine.execPattInfo q s
  | .patternItemRelease pl => Sys2Proof.Machine.execPatternItemRelease pl s
  | .ringOpen q => Sys2Proof.Machine.execRingOpen q s
  | .ringClose q => Sys2Proof.Machine.execRingClose q s
  | .ringEnable q => Sys2Proof.Machine.execRingEnable q s
  | .ringDisable q => Sys2Proof.Machine.execRingDisable q s
  | .ringFeed q => Sys2Proof.Machine.execRingFeed q s
  | .ringStatus q => Sys2Proof.Machine.execRingStatus q s
  | .injectLaunch ring => Sys2Proof.Machine.execInjectLaunch ring s
  | .injectDoneSend ring => Sys2Proof.Machine.execInjectDoneSend ring s
  | .tandRoute q => Sys2Proof.Machine.execTandRoute q s
  | .tandRing q => Sys2Proof.Machine.execTandRing q s
  | .tandExport q => Sys2Proof.Machine.execTandExport q s
  | .tandExportDel q => Sys2Proof.Machine.execTandExportDel q s
  | .tandImport q => Sys2Proof.Machine.execTandImport q s
  | .tandImportDel q => Sys2Proof.Machine.execTandImportDel q s
  | .tandConfImport q => Sys2Proof.Machine.execTandConfImport q s
  | .tandMigrateOut q => Sys2Proof.Machine.execTandMigrateOut q s
  | .tandMigrateIn q => Sys2Proof.Machine.execTandMigrateIn q s
  | .tandStatus q => Sys2Proof.Machine.execTandStatus q s
  | .tndDevnoWrite c v => Sys2Proof.Machine.execTndDevnoWrite c v s
  | .tndWinWrite c v => Sys2Proof.Machine.execTndWinWrite c v s
  | .bistRequest q => Sys2Proof.Machine.execBistRequest q s
  | .bistFuseArm q => Sys2Proof.Machine.execBistFuseArm q s
  | .bistFuseConfirm q => Sys2Proof.Machine.execBistFuseConfirm q s
  | .bistLcArm q => Sys2Proof.Machine.execBistLcArm q s
  | .bistLcConfirm q => Sys2Proof.Machine.execBistLcConfirm q s
  | .bistRepairList q => Sys2Proof.Machine.execBistRepairList q s
  | .bistUnitStatus q => Sys2Proof.Machine.execBistUnitStatus q s
  | .prsPartition q => Sys2Proof.Machine.execPrsPartition q s
  | .prsCheckpoint q => Sys2Proof.Machine.execPrsCheckpoint q s
  | .prsLogRead q => Sys2Proof.Machine.execPrsLogRead q s
  | .prsInfo q => Sys2Proof.Machine.execPrsInfo q s
  | .statIpfixSet q => Sys2Proof.Machine.execStatIpfixSet q s
  | .statLeg q => Sys2Proof.Machine.execStatLeg q s
  | .statDevice q => Sys2Proof.Machine.execStatDevice q s
  | .statJrnlFate q => Sys2Proof.Machine.execStatJrnlFate q s
  | .fwLoad q => Sys2Proof.Machine.execFwLoad q s
  | .fwActivate q => Sys2Proof.Machine.execFwActivate q s
  | .fwStartClear q => Sys2Proof.Machine.execFwStartClear q s
  | .fwInfo q => Sys2Proof.Machine.execFwInfo q s
  | .shutBegin q => Sys2Proof.Machine.execShutBegin q s
  | .shutAbort q => Sys2Proof.Machine.execShutAbort q s
  | .shutStatus q => Sys2Proof.Machine.execShutStatus q s
  | .shutdownDrainEnd => Sys2Proof.Machine.execShutdownDrainEnd s
  | .shutdownTestDone r => Sys2Proof.Machine.execShutdownTestDone r s
  | .stageInDone leg => Sys2Proof.Machine.execStageInDone leg s
  | .taskDone core made => Sys2Proof.Machine.execTaskDone core made s
  | .coreTransitAccess core va => Sys2Proof.Machine.execCoreTransitAccess core va s
  | .fceCall core eng => Sys2Proof.Machine.execFceCall core eng s
  | .eceCall core eng => Sys2Proof.Machine.execEceCall core eng s
  | .memoryFault core pa => Sys2Proof.Machine.execMemoryFault core pa s
  | .accessFault core va acc => Sys2Proof.Machine.execAccessFault core va acc s
  | .engineParity core => Sys2Proof.Machine.execEngineParity core s
  | .coreHang core ns => Sys2Proof.Machine.execCoreHang core ns s
  | .taskOverrun core => Sys2Proof.Machine.execTaskOverrun core s
  | .replayRestageDone leg => Sys2Proof.Machine.execReplayRestageDone leg s
  | .faultRecordPop path => Sys2Proof.Machine.execFaultRecordPop path s
  | .dmaCopy ring => Sys2Proof.Machine.execDmaCopy ring s
  | .dmaFill ring => Sys2Proof.Machine.execDmaFill ring s
  | .dmaTx ring => Sys2Proof.Machine.execDmaTx ring s
  | .dmaRx ring => Sys2Proof.Machine.execDmaRx ring s
  | .dmaRelease ring => Sys2Proof.Machine.execDmaRelease ring s
  | .dmaDescComplete ring => Sys2Proof.Machine.execDmaDescComplete ring s
  | .dmaDescPark ring => Sys2Proof.Machine.execDmaDescPark ring s
  | .mmuRingTailWrite ring cfg by_ descs v => Sys2Proof.Machine.execMmuRingTailWrite ring cfg by_ descs v s
  | .mmuMoveGo v va pa => Sys2Proof.Machine.execMmuMoveGo v va pa s
  | .moveComplete => Sys2Proof.Machine.execMoveComplete s
  | .mmuInvGo v va fw => Sys2Proof.Machine.execMmuInvGo v va fw s
  | .invalidationDone => Sys2Proof.Machine.execInvalidationDone s
  | .mmuParkResume ring => Sys2Proof.Machine.execMmuParkResume ring s
  | .mmuParkAbort ring => Sys2Proof.Machine.execMmuParkAbort ring s
  | .mmuCtlPeakClr c => Sys2Proof.Machine.execMmuCtlPeakClr c s
  | .mmuDmaEnWrite eng v => Sys2Proof.Machine.execMmuDmaEnWrite eng v s
  | .swtLenWrite c v => Sys2Proof.Machine.execSwtLenWrite c v s
  | .swtLoftBudWrite c v => Sys2Proof.Machine.execSwtLoftBudWrite c v s
  | .swtCycPctWrite c v => Sys2Proof.Machine.execSwtCycPctWrite c v s
  | .plyCtlPeakClr c => Sys2Proof.Machine.execPlyCtlPeakClr c s
  | .fceCfgEnWrite e v => Sys2Proof.Machine.execFceCfgEnWrite e v s
  | .fceCtlPeakClr e c => Sys2Proof.Machine.execFceCtlPeakClr e c s
  | .eceCfgEnWrite e v => Sys2Proof.Machine.execEceCfgEnWrite e v s
  | .eceCtlPeakClr e c => Sys2Proof.Machine.execEceCtlPeakClr e c s
  | .knlCtlHistClr c => Sys2Proof.Machine.execKnlCtlHistClr c s
  | .knlCtlPeakClr c => Sys2Proof.Machine.execKnlCtlPeakClr c s
  | .knlHistSelWrite c v => Sys2Proof.Machine.execKnlHistSelWrite c v s
  | .knlRefuseWrite c v => Sys2Proof.Machine.execKnlRefuseWrite c v s
  | .frpCtlPeakClr c => Sys2Proof.Machine.execFrpCtlPeakClr c s
  | .grnCapStrmHiRead path => Sys2Proof.Machine.execGrnCapStrmHiRead path s
  | .balCfgEnWrite v => Sys2Proof.Machine.execBalCfgEnWrite v s
  | .balCtlPeakClr c => Sys2Proof.Machine.execBalCtlPeakClr c s
  | .balRingTailWrite ring jobs v => Sys2Proof.Machine.execBalRingTailWrite ring jobs v s
  | .balerCompress eng mismatch => Sys2Proof.Machine.execBalerCompress eng mismatch s
  | .balerDecompress eng => Sys2Proof.Machine.execBalerDecompress eng s
  | .balerResume eng mismatch => Sys2Proof.Machine.execBalerResume eng mismatch s
  | .balerJobEnd eng parity => Sys2Proof.Machine.execBalerJobEnd eng parity s
  | .glnSliceStart cls idx => Sys2Proof.Machine.execGlnSliceStart cls idx s
  | .glnSliceEnd r => Sys2Proof.Machine.execGlnSliceEnd r s
  | .glnCtlCut c => Sys2Proof.Machine.execGlnCtlCut c s
  | .glnCfgEnWrite c v => Sys2Proof.Machine.execGlnCfgEnWrite c v s
  | .glnRecPopRead path => Sys2Proof.Machine.execGlnRecPopRead path s
  | .jtagKeyLoad dr => Sys2Proof.Machine.execJtagKeyLoad dr s
  | .jtagLcTransition target => Sys2Proof.Machine.execJtagLcTransition target s
  | .i2cAddressWrite a => Sys2Proof.Machine.execI2cAddressWrite a s
  | .i2cRead count => Sys2Proof.Machine.execI2cRead count s
  | .scrubRead space word => Sys2Proof.Machine.execScrubRead space word s
  | .hbmRetrain pch ok => Sys2Proof.Machine.execHbmRetrain pch ok s
  | .pllCalibration => Sys2Proof.Machine.execPllCalibration s
  | .sensorRead t => Sys2Proof.Machine.execSensorRead t s
  | .overTempReset => Sys2Proof.Machine.execOverTempReset s
  | .avsAdjust up ok => Sys2Proof.Machine.execAvsAdjust up ok s
  | .checkpointTimer => Sys2Proof.Machine.execCheckpointTimer s
  | .checkpointWritten ok => Sys2Proof.Machine.execCheckpointWritten ok s
  | .prsBlockFail block => Sys2Proof.Machine.execPrsBlockFail block s
  | .ipfixHealth => Sys2Proof.Machine.execIpfixHealth s
  | .ipfixTemplate => Sys2Proof.Machine.execIpfixTemplate s
  | .testEnRelease straps => Sys2Proof.Machine.execTestEnRelease straps s
  | .unknownOperation fam op q => Sys2Proof.Machine.execUnknownOperation fam op q s

end Sys2Proof.Machine
end

