-- ==== Sys2Proof/Safety.lean ====
section
/-! DEFINITION. What counts as a safe run, and the terms in which claims about commands are stated. -/

namespace Sys2Proof.Machine

open Sys2Proof

/-! ### What every command keeps -/

/-- The durable things that only few commands change: the queue of waiting commands (none), the life-cycle state and the one that waits for
the next start (R523), the host keys (R187, R526), the boot number (R419). -/
structure Keep where
  pending : List Instr
  lc : Nat
  lcNext : Option Nat
  hostKeys : KV HostKey
  boot : Nat
  deriving DecidableEq, Repr

/-- The durable things of a state. -/
def State.keep (s : State) : Keep := ⟨s.pending, s.nv.lc, s.nv.lcNext, s.nv.hostKeys, s.nv.boot⟩

/-- A state whose memory has its canonical form and whose durable things are the given ones. -/
def Kept (K : Keep) (s : State) : Prop := Memory.wf s.mmu.mem = true ∧ s.keep = K

/-- The life-cycle state is one of the five, and one that waits for the next start is reached from it by the table of R523. -/
def Nv.lcOk (n : Nv) : Bool :=
  decide (n.lc < 5) && (match n.lcNext with | none => true | some t => lcAllowed true n.lc t || lcAllowed false n.lc t)

/-- The invariant of the block: memory has its canonical form, and the life cycle is a legal one. -/
abbrev Inv (s : State) : Prop := Memory.wf s.mmu.mem = true ∧ s.nv.lcOk = true

/-! ### Commands of a session (R153, R160-R173) -/

/-- The command's context: its mailbox, sequence number and opcode, and the role of its session. -/
def Req.ctx (q : Req) (op : Nat) (s : State) : Ctx := ⟨q.mbox.val, q.seq.toNat, op, (s.sess q.mbox.val).role, false⟩

/-- A command that is executed now: it is its turn (R161), its role suffices (R153), its length is right (R165), it brings no bulk frame
and the part has not booted for recovery (R561). -/
structure Ready (d : OpDef) (op : Nat) (q : Req) (s : State) : Prop where
  serving : s.mode ≠ .recovery
  whole : q.more = false
  turn : s.turn q.mbox.val q.seq.toNat op false q.payload = true
  role : d.minRole ≤ (s.sess q.mbox.val).role
  len : d.badLen q.payload = none

/-- A command that is executed now and passes its check, which decides `plan`. -/
structure Accepted (d : OpDef) (op : Nat) (q : Req) (s : State) (plan : List Nat) : Prop extends Ready d op q s where
  chk : d.chk (Req.ctx q op s) (s.take q.mbox.val) q.payload = .ok plan

/-- PRS takes the record of the command (R172, R421). -/
structure Room (q : Req) (s : State) : Prop where
  prs : s.nv.prsFailed = false
  space : s.jrnlUsed + 56 + q.payload.length ≤ jrnlMax

/-- A command runs, its record is committed, and `t` is the state after its effect (R171). -/
def Commits (i : Instr) (s t : State) : Prop := ∃ u, exec i s = .next u ∧ exec .journalCommit u = .next t

/-- The registers that taking, journaling and answering a command may write: counters, the doorbells, the record number, the event register
of PRS and its three registers of wear. -/
def qcpReg (a : Nat) : Bool :=
  a == R.QCP_RX_CNT || a == R.QCP_EVT_DROP_CNT || a == R.QCP_JRNL_CNT || a == R.PRS_RECNO || a == R.PRS_EVT || a == R.PRS_ERASE_CNT ||
    a == R.PRS_WEAR || a == R.PRS_LIFE ||
    (List.range 8).any fun k => a == R.QCP_DB_CMD k

/-- A session but for its event queue. -/
def Session.quiet (x : Session) : Session := { x with evq := [], evSeq := 0, evLost := 0 }

/-- A state but for the registers, the mailboxes and turns of QCP, the journal and the fate table with the bytes written for them
and the wear. -/
def State.beside (s : State) : State :=
  { s with
    regs := []
    qcp := { s.qcp with sess := [], rrAdmin := 0, rrOther := 0 }
    nv := { s.nv with recno := 0, jrnl := [], sinceCk := 0, fates := [], wear := 0 }
    bgw := { s.bgw with prsBytes := 0, fab := 0 } }

/-- `t` is `s` but for what a command of mailbox `m` leaves beside its effect: its own mailbox, the turn of the round robins, the journal and
the fate table with the bytes written for them, the registers of `qcpReg`, and the event queues of the other sessions. -/
structure Aside (m : Nat) (s t : State) : Prop where
  rest : t.beside = s.beside
  regs : ∀ a, qcpReg a = false → t.reg a = s.reg a
  sess : ∀ j, j ≠ m → (t.sess j).quiet = (s.sess j).quiet

/-- The reply to the command waits in its mailbox, alone: status, detail, result, and whether it was journaled (R162, R163). -/
def Answered (jrn : Bool) (op : Nat) (q : Req) (st det : Nat) (res : Bytes) (s t : State) : Prop :=
  (t.sess q.mbox.val).out = replyFrames t s.dev (s.sess q.mbox.val) q.mbox.val q.seq.toNat op st det jrn res

/-- The command `i` completes at `s`, at once or with the commit of its record: but for what `Aside` names the state after it is `e`, and the
reply is the one given. -/
def Completes (jrn : Bool) (i : Instr) (op : Nat) (q : Req) (s e : State) (st det : Nat) (res : Bytes) : Prop :=
  ∃ t, (if jrn then Commits i s t else exec i s = .next t) ∧ Aside q.mbox.val e t ∧ Answered jrn op q st det res s t

/-- The command `i` takes effect at `s`, at once or with the commit of its record, and its reply is yet to come: but for what `Aside` names
the state after it is `e` (R162). -/
def Waits (jrn : Bool) (i : Instr) (q : Req) (s e : State) : Prop :=
  ∃ t, (if jrn then Commits i s t else exec i s = .next t) ∧ Aside q.mbox.val e t ∧ (t.sess q.mbox.val).defer = true

/-- Every accepted command of an operation that meets a condition, with room in the journal where it is journaled, completes with the effect,
the status and the result given. -/
def DoesIf (P : Req → State → Prop) (jrn : Bool) (d : OpDef) (op : Nat) (mk : Req → Instr) (out : Req → State → State × Nat × Bytes) : Prop :=
  ∀ (q : Req) (s : State) (plan : List Nat), Accepted d op q s plan → P q s → (jrn = true → Room q s) →
    Completes jrn (mk q) op q s (out q s).1 (out q s).2.1 0 (out q s).2.2

/-- Every accepted command of an operation completes with the effect, the status and the result given. -/
def Does (jrn : Bool) (d : OpDef) (op : Nat) (mk : Req → Instr) (out : Req → State → State × Nat × Bytes) : Prop :=
  DoesIf (fun _ _ => True) jrn d op mk out

/-- A change is armed for the boundary that `T` names, and the reply says whether it is late (R60, R62). -/
def armedWith (op l : Nat) (T : Option Inst) (plan : List Nat) (q : Req) (s : State) : State × Nat × Bytes :=
  ({ s with armed := s.armed ++ [⟨s.arm T, op, l, q.payload, plan, q.mbox.val, (s.sess q.mbox.val).gen, none⟩] }, (s.arm T).status, [])

/-- A change of a leg's configuration: made at once while the leg is OFF, else armed (R336). -/
def configured (op : Nat) (T : Bytes → Option Inst) (f : LegCfg → LegCfg) (q : Req) (s : State) : State × Nat × Bytes :=
  let l := legOf q.payload
  let x := s.leg l
  if x.st = .off then (s.setLeg l { x with cfg := f x.cfg }, St.ok, []) else armedWith op l (T q.payload) [] q s

/-- A read: nothing changes, and the reply is OK with a result. -/
def replied (r : Req → State → Bytes) (q : Req) (s : State) : State × Nat × Bytes := (s, St.ok, r q s)

/-- An effect with no result: the reply is OK. -/
def done (f : Req → State → State) (q : Req) (s : State) : State × Nat × Bytes := (f q s, St.ok, [])

/-! ### Commands that write or read one register (R168, R169) -/

/-- The state with `v` written to the register at `a`, as far as the fields store it (R10-R12). -/
def State.stored (s : State) (a v : Nat) : State := s.setReg a (storeFields (fieldsAt a) (s.reg a) v)

/-- Every accepted write of `v` to the register at `a` completes with status OK and the effect given. -/
def Writes (mk : RegCmd → Instr) (a v : State → Nat) (e : State → State) : Prop :=
  ∀ (c : RegCmd) (s : State), Accepted opRegWrite 0x0201 (writeReq c (a s) (v s)) s [] →
    Completes false (mk c) 0x0201 (writeReq c (a s) (v s)) s (e s) St.ok 0 []

/-- A read of the register at `a` has the effect `act`, by a session as by the I2C target, and returns `val` of the state after it. -/
def Reads (mk : Path → Instr) (a : Nat) (act : Bool → State → State) (val : Bool → State → Nat) : Prop :=
  (∀ (c : RegCmd) (s : State), Accepted opRegRead 0x0281 (readReq c a) s [] →
    Completes false (mk (.qcp c)) 0x0281 (readReq c a) s (act false s) St.ok 0 (be 4 (val false (act false s)))) ∧
  (∀ s : State, s.mode ≠ .reset → exec (mk .i2c) s =
    .next { act true s with busOut := [BitVec.ofNat 32 (val true (act true s))], i2cAddr := (a + 4) % 2 ^ 32 })

/-! ### Events -/

/-- A state without its registers and its sessions. -/
def State.bare (s : State) : State := { s with regs := [], qcp := { s.qcp with sess := [] } }

/-- `t` is `s` but for the listed registers, the counter of dropped events, and the event queues of the sessions. -/
structure Only (L : List Nat) (s t : State) : Prop where
  rest : t.bare = s.bare
  regs : ∀ a, a ∉ L → a ≠ R.QCP_EVT_DROP_CNT → t.reg a = s.reg a
  sess : ∀ j, (t.sess j).quiet = (s.sess j).quiet

/-- At `s` the event `i` answers a next state that is `e` but for the listed registers and for events sent, and of which `P` holds. -/
def Gives (i : Instr) (s : State) (L : List Nat) (e : State) (P : State → Prop) : Prop := ∃ t, exec i s = .next t ∧ Only L e t ∧ P t

/-- The state with the report of one transition of a function, now (R20). -/
def State.went (s : State) (f : FnId) (a b : FnState) : State := { s with fns := s.fns ++ [⟨f, a, b, s.now⟩] }

/-- Everything volatile in `t` is at its reset value; what survives a reset is that of `s` (R10, R524, R588). -/
def Wiped (s t : State) : Prop :=
  t = { State.reset with pending := s.pending, free := s.free, nv := s.nv, mode := t.mode, pins := t.pins, boot := t.boot }

/-! ### States that statements name -/

/-- A part that may start, to whose steps nothing happens: PRS works and holds no start log, no journal and no checkpoint, its plan is that of
a new part, its image is valid, and neither BOOTSEL nor what it remembers of earlier starts asks for recovery boot. -/
structure Startable (env : StartEnv) (s : State) : Prop where
  mode : s.mode = .starting
  prs : s.nv.prsFailed = false
  slog : s.nv.slog = []
  jrnl : s.nv.jrnl = []
  ck : s.nv.ck0 = none ∧ s.nv.ck1 = none
  plan : s.nv.plan = List.replicate 14 0
  lc : s.nv.lcNext.getD s.nv.lc ≠ 0 ∧ s.nv.lcNext.getD s.nv.lc ≠ 4
  image : (s.nv.slot (s.nv.trial.getD s.nv.committed)).st = 1
  earlier : s.nv.recNext = false ∧ s.nv.fails < 3 ∧ (s.nv.s14 = true ∨ s.nv.boot = 0)
  calm : env.tries = [] ∧ env.bootsel.toNat < 2

/-- A part in which nothing runs: no leg, conference, armed change or task, nothing staged, and granary, gleaner, tandem and shutdown as after
reset; no frame waits for room in a queue. -/
structure Idle (s : State) : Prop where
  legs : s.legs = []
  confs : s.confs = []
  armed : s.armed = []
  tasks : s.knl.tasks = []
  areas : s.mmu.areas = []
  grn : s.grn = State.reset.grn
  tnd : s.tnd = State.reset.tnd
  gln : s.gln = State.reset.gln
  shut : s.shut = Shut.none
  waiting : ∀ p ∈ s.ports, p.2.waiting = []

/-- The state once the oldest frame of a class buffer has been taken from it: the buffer without it, and the XOFF states that follow (R130). -/
def State.taken (s : State) (p n : Nat) (r : List RxFrame) : State :=
  ((s.setPort p { s.port p with rxq := kset (s.port p).rxq n r }).xoffCheck p).bump R.PKE_RX_CNT

end Sys2Proof.Machine
end

