-- ==== Sys2Proof/Certificates/Slice0/Obligations.lean ====
section
/-! DEFINITION. The statements for the provers, by family of commands: what each command does (its completion, its result and its frame), and
the invariants that every step keeps. -/

open Sys2Proof Sys2Proof.Machine

/-! ### Power, reset and start (R419, R523, R539, R551-R561, R575-R577, R588, R589) -/

/-- A pin that lets go samples the straps and, where the other pins agree, begins a start of cause 0 or 1; a pin that holds the part puts it in
reset; a watchdog and the thermal reset begin starts of their own causes. Every time all volatile state is at its reset value and what
survives a reset stays (R524, R539, R551, R576, R577, R588, R589). -/
def Obligations.PinsHoldThePartAndLetItStart : Prop :=
  (∀ (x : Straps) (s : State), s.pins.pwrgood = false → ∃ t, exec (.pwrgoodRise x) s = .next t ∧ Wiped s t ∧
    t.pins.pwrgood = true ∧ t.pins.resetN = s.pins.resetN ∧ t.pins.bootsel = x.bootsel ∧ t.pins.i2cadr = x.i2cadr ∧
    (if s.pins.resetN = true ∧ s.pins.testEn = false then t.mode = .starting ∧ t.boot.cause = 0 else t.mode = .reset ∧ t.boot.risen = true)) ∧
  (∀ (x : Straps) (s : State), s.pins.resetN = false → ∃ t, exec (.resetNRelease x) s = .next t ∧ Wiped s t ∧
    t.pins.resetN = true ∧ t.pins.bootsel = x.bootsel ∧ t.pins.i2cadr = x.i2cadr ∧ t.pins.thermN = true ∧ t.pins.faultN = true ∧
    (if s.pins.pwrgood = true ∧ s.pins.testEn = false then t.mode = .starting ∧ t.boot.cause = (if s.boot.risen then 0 else 1) else t.mode = .reset)) ∧
  (∀ (x : Straps) (s : State), s.pins.testEn = true → ∃ t, exec (.testEnRelease x) s = .next t ∧ Wiped s t ∧
    t.pins.testEn = false ∧ t.pins.bootsel = x.bootsel ∧ t.pins.i2cadr = s.pins.i2cadr ∧
    (if s.pins.pwrgood = true ∧ s.pins.resetN = true then t.mode = .starting ∧ t.boot.cause = (if s.boot.risen then 0 else 1) else t.mode = .reset)) ∧
  (∀ s : State, s.pins.pwrgood = true → ∃ t, exec .pwrgoodFall s = .next t ∧ Wiped s t ∧ t.mode = .reset ∧ t.pins.pwrgood = false ∧ t.pins.resetN = s.pins.resetN) ∧
  (∀ s : State, s.pins.resetN = true → ∃ t, exec .resetNAssert s = .next t ∧ Wiped s t ∧ t.mode = .reset ∧ t.pins.resetN = false ∧ t.pins.pwrgood = s.pins.pwrgood) ∧
  (∀ s : State, s.pins.testEn = false → ∃ t, exec .testEnAssert s = .next t ∧ Wiped s t ∧ t.mode = .reset ∧ t.pins.testEn = true ∧ t.pins.pwrgood = s.pins.pwrgood) ∧
  (∀ s : State, s.mode = .service → s.pins.run = true → ∃ t, exec .kathirelWatchdog s = .next t ∧ Wiped s t ∧ t.mode = .starting ∧ t.boot.cause = 3) ∧
  (∀ s : State, s.mode ≠ .reset → s.pins.run = true → ∃ t, exec .overTempReset s = .next t ∧ Wiped s t ∧ t.mode = .starting ∧ t.boot.cause = 4 ∧
    t.pins.thermN = false ∧ t.pins.faultN = false)

/-- A start sequence ends in service or in recovery boot, and never goes on for ever (R552, R556, R561); the boot number is one more where PRS
works (R419), and a life-cycle transition that waited for the start is made (R523). A start whose first step is beyond its limit begins
again with cause 2 (R551, R555). -/
def Obligations.AStartEndsInServiceOrRecovery : Prop :=
  (∀ (env : StartEnv) (s : State), s.mode = .starting → ∃ t, exec (.startSequence env) s = .next t ∧ (t.mode = .service ∨ t.mode = .recovery) ∧
    t.nv.boot = (if s.nv.prsFailed then s.nv.boot else s.nv.boot + 1) ∧ t.nv.lc = s.nv.lcNext.getD s.nv.lc ∧ t.nv.lcNext = none ∧
    t.nv.hostKeys = s.nv.hostKeys ∧ t.pending = s.pending) ∧
  (∀ (env : StartEnv) (s : State), s.mode = .starting → s.pins.run = true → ∃ t, exec (.startStepTimeout 0 env) s = .next t ∧ Wiped s t ∧
    t.mode = .starting ∧ t.boot.cause = 2) ∧
  (∀ (k : Fin 14) (env : StartEnv) (s : State), s.mode = .starting → k ≠ 0 → ∃ t, exec (.startStepTimeout k env) s = .next t ∧
    t.nv.boot = (if s.nv.prsFailed then s.nv.boot else s.nv.boot + 1) ∧ t.nv.lc = s.nv.lcNext.getD s.nv.lc ∧ t.nv.lcNext = none)

/-- A start to whose steps nothing happens goes through all fourteen: the part serves, and S14 is complete (R552, R560). When one of the steps
after the first runs beyond its limit, the part begins again with cause 2, the boot number risen (R551, R555). -/
def Obligations.AnUndisturbedStartCompletes : Prop :=
  (∀ (env : StartEnv) (s : State), Startable env s → ∃ t, exec (.startSequence env) s = .next t ∧ t.mode = .service ∧ t.nv.s14 = true ∧
    t.nv.fails = 0 ∧ t.nv.boot = s.nv.boot + 1 ∧ t.nv.trial = none) ∧
  (∀ (k : Fin 14) (env : StartEnv) (s : State), Startable env s → k ≠ 0 → s.pins.run = true → ∃ t, exec (.startStepTimeout k env) s = .next t ∧
    t.mode = .starting ∧ t.boot.cause = 2 ∧ t.nv.s14 = false ∧ t.nv.boot = s.nv.boot + 1 ∧ t.regs = [])

/-! ### Time (R43-R48, R69-R73, R80-R91, R101-R107) -/

/-- TMU_CTL.SET and .STEP make their values pending and change nothing else (R73); the addend, the servo's enable and the reference selection
are stored (R72, R91, R599), and a timed output starts and stops with the setting that its registers hold (R101, R103): a one-shot armed after
its lead of 2 us is answered E_LATE and is due at the first instant it can meet (R59, R60). The value written to an output's control register
is its own with ARM or DISARM set and LATE, which a 1 would clear, at 0. -/
def Obligations.TimeRegistersAreWritten : Prop :=
  Writes .tmuCtlSet (fun _ => R.TMU_CTL) (fun _ => 1) (fun s => (s.stored R.TMU_CTL 1).setTmu { s.tmu with pendSet := some s.setValue }) ∧
  Writes .tmuCtlStep (fun _ => R.TMU_CTL) (fun _ => 2) (fun s =>
    (s.stored R.TMU_CTL 2).setTmu { s.tmu with pendStep := some (s.tmu.pendStep.getD 0 + s.stepAmount) }) ∧
  (∀ v : Word, Writes (fun c => .tmuAddendWrite c false v) (fun _ => R.TMU_ADDEND) (fun _ => v.toNat) (fun s => s.stored R.TMU_ADDEND v.toNat)) ∧
  (∀ v : Word, Writes (fun c => .tmuAddendWrite c true v) (fun _ => R.TMU_ADDEND_EXT) (fun _ => v.toNat) (fun s => s.stored R.TMU_ADDEND_EXT v.toNat)) ∧
  (∀ v : Word, Writes (fun c => .tmuSrvEnWrite c v) (fun _ => R.TMU_SRV_CTL) (fun _ => v.toNat) (fun s =>
    let t := s.stored R.TMU_SRV_CTL v.toNat
    if tb v.toNat 0 = tb (s.reg R.TMU_SRV_CTL) 0 then t else t.srvRequest (tb v.toNat 0))) ∧
  (∀ v : Word, Writes (fun c => .tmuRefSelWrite c v) (fun _ => R.TMU_CFG) (fun _ => v.toNat) (fun s =>
    let t := (s.stored R.TMU_CFG v.toNat).setTmu { s.tmu with refArmed := tb v.toNat 0 }
    if tb v.toNat 0 then (if s.fld R.TMU_STAT_REF_OK = 1 then t.setFld R.TMU_STAT_REF_ACTIVE 1 else t) else t.setFld R.TMU_STAT_REF_ACTIVE 0)) ∧
  (∀ n : Fin 4, Writes (fun c => .tmuToutDisarm n c) (fun _ => R.TMU_TOUT_CTL n.val) (fun s => s.toutCtl n.val 2)
    (fun s => (s.stored (R.TMU_TOUT_CTL n.val) (s.toutCtl n.val 2)).setTout n.val { s.tout n.val with run := false })) ∧
  (∀ (n : Fin 4) (c : RegCmd) (s : State), let v := s.toutCtl n.val 1
    Accepted opRegWrite 0x0201 (writeReq c (R.TMU_TOUT_CTL n.val) v) s [] → s.toutLate n.val = false →
    Completes false (.tmuToutArm n c) 0x0201 (writeReq c (R.TMU_TOUT_CTL n.val) v) s
      (((s.stored (R.TMU_TOUT_CTL n.val) v).setTout n.val
        ⟨s.toutStart n.val, s.toutPer n.val, s.fld (R.TMU_TOUT_WIDTH_NS n.val), 0, 0,
          (if s.toutPer n.val = 0 then s.toutStart n.val else 0), false, true, (s.tout n.val).activeUntil⟩).setFld (R.TMU_TOUT_CTL_SKIP n.val) 0)
      St.ok 0 []) ∧
  (∀ (n : Fin 4) (c : RegCmd) (s : State), let v := s.toutCtl n.val 1
    Accepted opRegWrite 0x0201 (writeReq c (R.TMU_TOUT_CTL n.val) v) s [] → s.toutLate n.val = true → s.toutPer n.val = 0 →
    Completes false (.tmuToutArm n c) 0x0201 (writeReq c (R.TMU_TOUT_CTL n.val) v) s
      (((s.stored (R.TMU_TOUT_CTL n.val) v).setTout n.val
        ⟨s.toutStart n.val, 0, s.fld (R.TMU_TOUT_WIDTH_NS n.val), 0, 0, s.now + nsI 2000, true, true, (s.tout n.val).activeUntil⟩).setFld
          (R.TMU_TOUT_CTL_SKIP n.val) 0) St.late 0 [])

/-- TMU time goes on by the addend at each tick, modulo 2^48 seconds, and nothing else changes while neither a SET nor a STEP waits, no function
starts or stops and the servo does not hold over (R69, R70). A servo that starts is ON at the next tick, with the rate of the current addend,
its FIFO empty and its lock FREE (R91); one that stops is OFF at the next tick, and an engine that starts with no disable held is ON then (R18; log entry 70);
in holdover the seconds are counted (R89). -/
def Obligations.TimeGoesOnByTheAddend : Prop :=
  (∀ s : State, s.mode ≠ .reset → s.tmu.pendSet = none → s.tmu.pendStep = none → s.tmu.srv.st ≠ .starting → s.tmu.srv.st ≠ .stopping →
    ¬ (s.tmu.srv.st = .on ∧ s.tmu.srv.lock = .holdover) → (∀ e < 16, s.fceSt e ≠ .starting ∧ s.fceSt e ≠ .stopping) →
    (∀ e < 32, s.eceSt e ≠ .starting ∧ s.eceSt e ≠ .stopping) → exec .tmuTick s =
    .next (s.setTmu { s.tmu with acc := (s.tmu.acc + s.addend) % (2 ^ 48 * 1000000000 * 2 ^ 40), loc := s.tmu.loc + s.addend,
                                 tick := s.tmu.tick + 1 })) ∧
  (∀ s : State, s.mode ≠ .reset → s.tmu.pendSet = none → s.tmu.pendStep = none → ∃ t, exec .tmuTick s = .next t ∧
    t.tmu.acc = (s.tmu.acc + s.addend) % (2 ^ 48 * 1000000000 * 2 ^ 40) ∧ t.tmu.loc = s.tmu.loc + s.addend ∧ t.tmu.tick = s.tmu.tick + 1 ∧
    t.addend = s.addend ∧ t.legs = s.legs ∧ t.ports = s.ports ∧ t.nv = s.nv ∧ t.mmu = s.mmu ∧ t.qcp = s.qcp ∧
    (s.tmu.srv.st = .starting → s.tmu.srv.disHeld = false → t.tmu.srv.st = .on ∧ t.tmu.srv.lock = .free ∧ t.tmu.srv.iRate = rateOf s.addend ∧
      t.tmu.ofs = []) ∧
    (s.tmu.srv.st = .stopping → t.tmu.srv.st = (if s.tmu.srv.pendEn then .starting else .off)) ∧
    (s.tmu.srv.st = .on → s.tmu.srv.lock = .holdover →
      t.reg R.TMU_SRV_HOLD_S = (s.tmu.loc + s.addend - s.tmu.srv.holdAt) / (1000000000 * 2 ^ 40) % 2 ^ 32) ∧
    (∀ e < 16, s.fceSt e = .starting → s.engDis.contains e = false → t.fceSt e = .on) ∧
    (∀ e < 32, s.eceSt e = .starting → s.engDis.contains (32 + e) = false → t.eceSt e = .on))

/-- A SET gives TMU time its value and clears FRAC; a STEP adds its amount and keeps FRAC; either makes TMU time valid, and legs, armed changes,
sessions but for events, and ports stay (R71, R73). -/
def Obligations.SetAndStepMoveTime : Prop :=
  ∀ s : State, (s.tmu.pendSet.isSome ∨ s.tmu.pendStep.isSome) → ∃ t, exec .stepApply s = .next t ∧
    t.tmu.pendSet = none ∧ t.tmu.pendStep = none ∧ t.fld R.TMU_STAT_VALID = 1 ∧
    (∀ ns, s.tmu.pendSet = some ns → s.tmu.pendStep = none → t.tmu.acc = ns * 2 ^ 40 % (2 ^ 48 * 1000000000 * 2 ^ 40)) ∧
    (∀ d, s.tmu.pendSet = none → s.tmu.pendStep = some d →
      (t.tmu.acc : Int) = ((s.tmu.acc : Int) + d * 2 ^ 40) % ((2 ^ 48 * 1000000000 * 2 ^ 40 : Nat) : Int)) ∧
    (∀ ns d, s.tmu.pendSet = some ns → s.tmu.pendStep = some d →
      (t.tmu.acc : Int) = (((ns * 2 ^ 40 : Nat) : Int) + d * 2 ^ 40) % ((2 ^ 48 * 1000000000 * 2 ^ 40 : Nat) : Int)) ∧
    t.tmu.loc = s.tmu.loc ∧ t.tmu.srv = s.tmu.srv ∧ t.tmu.ofs = s.tmu.ofs ∧ t.legs = s.legs ∧ t.armed = s.armed ∧ t.ports = s.ports ∧
    t.nv = s.nv ∧ t.mmu = s.mmu ∧ (∀ j, (t.sess j).quiet = (s.sess j).quiet)

/-- A step of more than half a swath is a slip: it is counted, it sets SWT_EVT.SLIP, SWT_SLIP_DELTA records the step and SWT_SLIP_LEN the actual
length D of the swath (R43, R45, R48). -/
def Obligations.ASlipIsRecorded : Prop :=
  ∀ (s : State) (d : Int), s.fld R.TMU_STAT_VALID = 1 → s.swt.begun = true → s.tmu.pendSet = none → s.tmu.pendStep = some d →
    0 ≤ (s.tmu.acc : Int) + d * 2 ^ 40 → (s.tmu.acc : Int) + d * 2 ^ 40 < ((2 ^ 48 * 1000000000 * 2 ^ 40 : Nat) : Int) →
    s.lenNs < 2 * d.natAbs → d.natAbs < 2 ^ 31 → ∃ t, exec .stepApply s = .next t ∧
      tb (t.reg R.SWT_EVT) 0 = true ∧ t.reg R.SWT_SLIP_CNT = (s.reg R.SWT_SLIP_CNT + 1) % 2 ^ 32 ∧
      sgn 32 (t.reg R.SWT_SLIP_DELTA) = d ∧ t.fld R.SWT_SLIP_LEN_D = t.swt.d / 65536 % 2 ^ 21 ∧
      t.swt.slipped = true ∧
      (let e := s.elapsed
       let b0 := nextMul s.lenI t.now
       if 2 * (e + (b0 - t.now)) < s.lenI then t.swt.nextT = b0 + s.lenI ∧ t.swt.d = e + (b0 - t.now) + s.lenI
       else t.swt.nextT = b0 ∧ t.swt.d = e + (b0 - t.now))

/-- What drives the servo: firmware writes a sample into its registers and pushes it; a servo that is not ON rejects it, a full FIFO drops it
(R81); the servo takes the oldest one, and rejects one of weight 0 (R88); without samples for its time-out it holds over with its integrator's
rate (R80, R89), and ten seconds at the pull limit are a failure, which leaves the lock states (R90; log entry 74). -/
def Obligations.TheServoTakesSamples : Prop :=
  (∀ (ns aux mpd : Word) (s : State), let w := ((s.setReg R.TMU_OFS_NS ns.toNat).setReg R.TMU_OFS_AUX (aux.toNat % 2 ^ 27)).setReg R.TMU_OFS_MPD mpd.toNat
    (s.tmu.srv.st ≠ .on → exec (.tmuOfsPush ns aux mpd) s = .next (w.bump R.TMU_REJ_CNT)) ∧
    (s.tmu.srv.st = .on → 16 ≤ s.tmu.ofs.length → exec (.tmuOfsPush ns aux mpd) s = .next (w.bump R.TMU_OFS_DROP_CNT)) ∧
    (s.tmu.srv.st = .on → s.tmu.ofs.length < 16 → exec (.tmuOfsPush ns aux mpd) s = .next (w.setTmu { s.tmu with
      ofs := s.tmu.ofs ++ [⟨sgn 32 ns.toNat * 65536 + (aux.toNat % 2 ^ 16 : Nat), aux.toNat / 2 ^ 16 % 2 ^ 8,
        if mpd.toNat = 0xFFFFFFFF then none else some mpd.toNat, aux.toNat / 2 ^ 24 % 2 ^ 3⟩]
      srv := { s.tmu.srv with lastPush := s.tmu.loc, holdMs := s.fld R.TMU_SRV_HOLD_TIMEOUT_MS } }))) ∧
  (∀ (s : State) (x : Ofs) (l : List Ofs), s.tmu.ofs = x :: l → s.tmu.srv.st = .on → s.fld R.TMU_SRV_CTL_SRC = 0 → x.wt = 0 →
    exec .servoSample s = .next ((s.setTmu { s.tmu with ofs := l }).bump R.TMU_REJ_CNT)) ∧
  (∀ (s : State) (x : Ofs) (l : List Ofs), s.tmu.ofs = x :: l → s.tmu.srv.st = .on → s.fld R.TMU_SRV_CTL_SRC = 0 → x.wt ≠ 0 →
    s.tmu.srv.lock = .free → s.tmu.srv.haveRef = false → s.stepLimit = none → ∃ t, exec .servoSample s = .next t ∧ t.tmu.ofs = l ∧
      t.reg R.TMU_SMPL_CNT = (s.reg R.TMU_SMPL_CNT + 1) % 2 ^ 32 ∧ t.fld R.TMU_STAT_VALID = 1 ∧ t.tmu.srv.haveRef = true ∧ t.tmu.srv.oRef = x.o ∧
      (t.tmu.srv.lock = .acquiring ∨ t.tmu.srv.lock = .locked) ∧ t.tmu.acc = s.tmu.acc) ∧
  (∀ s : State, s.tmu.srv.st = .on → s.tmu.srv.lock = .acquiring ∨ s.tmu.srv.lock = .locked →
    s.tmu.srv.lastPush + s.tmu.srv.holdMs * 1000000 * 2 ^ 40 ≤ s.tmu.loc → ∃ t, exec .servoHoldoverTimeout s = .next t ∧
      t.tmu.srv.lock = .holdover ∧ t.tmu.srv.y = s.tmu.srv.iRate ∧ t.reg R.TMU_HOLD_CNT = (s.reg R.TMU_HOLD_CNT + 1) % 2 ^ 32 ∧
      tb (t.reg R.TMU_EVT) 2 = true ∧ (s.tmu.srv.lock = .locked → tb (t.reg R.TMU_EVT) 1 = true) ∧ t.tmu.acc = s.tmu.acc ∧ t.legs = s.legs) ∧
  (∀ (s : State) (t0 : Nat), s.tmu.srv.st = .on → s.tmu.srv.limitAt = some t0 → t0 + 10 * 1000000000 * 2 ^ 40 ≤ s.tmu.loc →
    Gives .servoFail s [R.TMU_EVT] { s with tmu := { s.tmu with srv := { s.tmu.srv with st := .failed, lock := .free } },
                                            fns := s.fns ++ [⟨.servo, .on, .failed, s.now⟩] }
      fun t => tb (t.reg R.TMU_EVT) 6 = true ∧ (s.tmu.srv.lock = .locked → tb (t.reg R.TMU_EVT) 1 = true))

/-- The external reference: its presence moves an armed selection to it; its loss while it is in use disarms it, is counted and raises
REF_LOSS (R72). A pulse of a timed output that is due lasts its width, rounded up to whole ticks, a pulse still active not being cut short, and
ends a one-shot; a late one says so (R101, R103, R60, R61); an output with none due does nothing. An edge that its input's configuration chooses
is captured with its stamp, and reported where EVT is set, or counted when the FIFO is full; one that follows the last within 5 ns,
four ticks of the clock, or is not
chosen is not (R105); with SRC at PPS_IN it restarts the servo's time-out and is its sample (R82). -/
def Obligations.ReferencePulsesAndEdges : Prop :=
  (∀ s : State, s.tmu.refArmed = true → exec .ref10mAcquire s = .next ((s.setFld R.TMU_STAT_REF_OK 1).setFld R.TMU_STAT_REF_ACTIVE 1)) ∧
  (∀ s : State, s.tmu.refArmed = false → exec .ref10mAcquire s = .next (s.setFld R.TMU_STAT_REF_OK 1)) ∧
  (∀ s : State, s.fld R.TMU_STAT_REF_ACTIVE = 1 → Gives .ref10mLoss s [R.TMU_STAT, R.TMU_EVT, R.TMU_REFLOSS_CNT]
    (s.setTmu { s.tmu with refArmed := false }) fun t => t.fld R.TMU_STAT_REF_OK = 0 ∧ t.fld R.TMU_STAT_REF_ACTIVE = 0 ∧
      tb (t.reg R.TMU_EVT) 5 = true ∧ t.reg R.TMU_REFLOSS_CNT = (s.reg R.TMU_REFLOSS_CNT + 1) % 2 ^ 32) ∧
  (∀ s : State, s.fld R.TMU_STAT_REF_ACTIVE ≠ 1 → exec .ref10mLoss s = .next (s.setFld R.TMU_STAT_REF_OK 0)) ∧
  (∀ (n : Fin 4) (s : State), let o := s.tout n.val
    let due := if o.per = 0 then (if o.late then o.fireAt else o.start) else o.start + o.nextJ * o.per
    (o.run = true → due ≤ s.now → ∃ t, exec (.toutPulse n) s = .next t ∧
      t.tout n.val = { o with activeUntil := max o.activeUntil (s.tmu.tick + cdiv (4 * o.width) 5), nextJ := o.nextJ + 1, doneJ := o.nextJ + 1,
                              run := decide (o.per ≠ 0), late := false } ∧
      (∀ k, k ≠ n.val → t.tout k = s.tout k) ∧ (o.late = false → t = s.setTmu { s.tmu with tout := t.tmu.tout }) ∧
      (o.late = true → t.fld (R.TMU_TOUT_CTL_LATE n.val) = 1 ∧ t.reg (R.TMU_TOUT_LATE n.val) = min 0xFFFFFFFF ((s.now - o.start) / 65536) ∧
        t.reg R.SWT_LATE_CNT = (s.reg R.SWT_LATE_CNT + 1) % 2 ^ 32 ∧ tb (t.reg R.SWT_EVT) 3 = true ∧ t.legs = s.legs ∧ t.nv = s.nv)) ∧
    (o.run = false ∨ s.now < due → exec (.toutPulse n) s = .next s)) ∧
  (∀ (n : Fin 5) (rise : Bool) (s : State), let x := s.tin n.val
    let chosen := s.fld (R.TMU_TIN_CFG_EDGE n.val) = 3 ∨ s.fld (R.TMU_TIN_CFG_EDGE n.val) = (if rise then 1 else 2)
    let apart := ∀ l, x.last = some l → l + 4 ≤ s.tmu.tick
    let pps := n = 4 ∧ s.fld R.TMU_SRV_CTL_SRC = 1 ∧ s.tmu.srv.st = .on
    let kept := { x with last := some s.tmu.tick, fifo := x.fifo ++ [⟨s.now, rise⟩] }
    (¬ (chosen ∧ apart) → exec (.tinEdgeCapture n rise) s = .next s) ∧
    (chosen → apart → ¬ pps → x.fifo.length < 16 → s.fld (R.TMU_TIN_CFG_EVT n.val) = 0 →
      exec (.tinEdgeCapture n rise) s = .next (s.setTin n.val kept)) ∧
    (chosen → apart → ¬ pps → x.fifo.length < 16 → s.fld (R.TMU_TIN_CFG_EVT n.val) = 1 →
      Gives (.tinEdgeCapture n rise) s [R.TMU_EVT] (s.setTin n.val kept) fun t => tb (t.reg R.TMU_EVT) 7 = true) ∧
    (chosen → apart → ¬ pps → 16 ≤ x.fifo.length → exec (.tinEdgeCapture n rise) s =
      .next ((s.setTin n.val { x with last := some s.tmu.tick }).bump (R.TMU_TIN_DROP_CNT n.val))) ∧
    (chosen → apart → pps → ∃ t, exec (.tinEdgeCapture n rise) s = .next t ∧ t.tmu.srv.lastPush = s.tmu.loc ∧
      (t.tin n.val).fifo = if x.fifo.length < 16 then x.fifo ++ [⟨s.now, rise⟩] else x.fifo))

/-- A read of TMU_TIME_SEC_HI latches the time on its own access path and returns the upper seconds (R107). R106: a read of TMU_TINn_POP removes
the oldest capture, returns its valid bit, edge and upper seconds, and latches the rest of it into the registers that follow, on its own
path (R595); without a capture it returns VALID 0 and latches nothing. -/
def Obligations.TimeIsReadPerPath : Prop :=
  Reads .tmuTimeSecHiRead R.TMU_TIME_SEC_HI
    (fun i2c s => s.setTmu (if i2c then { s.tmu with latI := s.now } else { s.tmu with latQ := s.now })) (fun _ s => s.now / secI / 2 ^ 32 % 2 ^ 16) ∧
  (∀ n : Fin 5, Reads (fun p => .tmuTinPop n p) (R.TMU_TIN_POP n.val)
    (fun i2c s =>
      let x := s.tin n.val
      match x.fifo with
      | [] => s.setReg (R.TMU_TIN_POP n.val) 0
      | c :: r => (s.setTin n.val { x with fifo := r, latch := if i2c then x.latch else c.at_, latchI := if i2c then c.at_ else x.latchI }).setReg
          (R.TMU_TIN_POP n.val) (c.at_ / secI / 2 ^ 32 * 2 ^ 16 + b2n c.rise * 2 + 1))
    (fun _ s => s.reg (R.TMU_TIN_POP n.val))) ∧
  (∀ (n : Fin 5) (i2c : Bool) (s : State),
    let lat := if i2c then (s.tin n.val).latchI else (s.tin n.val).latch
    s.readReg i2c (R.TMU_TIN_SEC_LO n.val) = lat / secI % 2 ^ 32 ∧ s.readReg i2c (R.TMU_TIN_NS n.val) = lat % secI / 65536 ∧
      s.readReg i2c (R.TMU_TIN_FRAC n.val) = lat % 65536)

/-! ### The swath (R32-R48, R54-R57, R65) -/

/-- A boundary that has been reached begins a swath: its instant, its number of R33, its length L and its four phases at 8, 88 and 96 percent of it;
time, what survives a reset and the (absent) legs stay (R32, R33, R36). -/
def Obligations.ABoundaryBeginsASwath : Prop :=
  ∀ (s : State) (b : Inst), Idle s → s.mode = .service → s.fld R.TMU_STAT_VALID = 1 →
    (s.swt.begun = true ∧ s.swt.nextT = b ∨ s.swt.begun = false ∧ s.swt.firstT = some b) → b ≤ s.now →
    ∃ t, exec .swathBoundary s = .next t ∧ t.swt.begun = true ∧ t.swt.bT = b ∧ t.swt.bLoc = s.tmu.loc ∧ t.swt.nextT = (b / s.lenI + 1) * s.lenI ∧
      t.swt.d = s.lenI ∧ t.swt.workAt = cdiv (8 * s.lenI) 100 ∧ t.swt.emitAt = cdiv (88 * s.lenI) 100 ∧ t.swt.guardAt = cdiv (96 * s.lenI) 100 ∧
      t.swt.slipped = false ∧ t.phase = .gather ∧ t.fld R.SWT_STAT_RUN = 1 ∧ t.reg R.SWT_SWN = b / 65536 / s.lenNs % 2 ^ 32 ∧
      t.tmu = s.tmu ∧ t.nv = s.nv ∧ t.legs = [] ∧ t.knl.tasks = []

/-- The phases of a swath follow one another when the elapsed time reaches their starts, and not before (R36, R37); in a part in which nothing
runs, a phase changes nothing else of the swath. -/
def Obligations.PhasesFollowOneAnother : Prop :=
  (∀ s : State, s.elapsed < s.swt.workAt → exec .gatherEnd s = .next s ∧ exec .workStart s = .next s) ∧
  (∀ s : State, s.elapsed < s.swt.emitAt → exec .workDeadline s = .next s) ∧
  (∀ s : State, s.elapsed < s.swt.guardAt → exec .guardStart s = .next s) ∧
  (∀ s : State, Idle s → s.swt.begun = true → s.phase = .gather → s.swt.workAt ≤ s.elapsed →
    exec .gatherEnd s = .next (s.setSwt { s.swt with gatherDone := true })) ∧
  (∀ s : State, Idle s → s.swt.begun = true → s.phase = .gather → s.swt.workAt ≤ s.elapsed → ∃ t, exec .workStart s = .next t ∧
    t.phase = .work ∧ t.swt = { s.swt with gatherDone := true } ∧ t.tmu = s.tmu ∧ t.legs = []) ∧
  (∀ s : State, Idle s → s.swt.begun = true → s.phase = .work → s.swt.emitAt ≤ s.elapsed → ∃ t, exec .workDeadline s = .next t ∧
    t.phase = .emit ∧ t.swt = { s.swt with gatherDone := true } ∧ t.tmu = s.tmu ∧ t.legs = [] ∧
    t.reg R.SWT_DEADLINE_CNT = s.reg R.SWT_DEADLINE_CNT ∧ t.reg R.SWT_EVT = s.reg R.SWT_EVT) ∧
  (∀ s : State, Idle s → s.swt.begun = true → s.phase = .emit → s.swt.guardAt ≤ s.elapsed → ∃ t, exec .guardStart s = .next t ∧
    t.phase = .guard ∧ t.swt = s.swt ∧ t.tmu = s.tmu ∧ t.legs = [])

/-- A task that is not DONE at the Work deadline is cancelled and counted, the event is set, and its entry is freed; one that is DONE is freed
without either (R39, R42, R342, R354). -/
def Obligations.TheDeadlineCancelsWhatIsNotDone : Prop :=
  ∀ (s : State) (i : Nat) (t : Task), Idle { s with knl := { s.knl with tasks := [] } } → s.knl.tasks = [(i, t)] → t.kind ≤ 1 → t.leg = none →
    t.core = none → s.swt.begun = true → s.phase = .work → s.swt.emitAt ≤ s.elapsed →
    ∃ u, exec .workDeadline s = .next u ∧ u.phase = .emit ∧ u.knl.tasks = [] ∧
      (if t.st = TaskSt.done then u.reg R.SWT_DEADLINE_CNT = s.reg R.SWT_DEADLINE_CNT ∧ u.reg R.SWT_EVT = s.reg R.SWT_EVT
       else t.st ≠ TaskSt.cancelled → u.reg R.SWT_DEADLINE_CNT = (s.reg R.SWT_DEADLINE_CNT + 1) % 2 ^ 32 ∧ tb (u.reg R.SWT_EVT) 2 = true)

/-- The swath's registers: the use percentage gives the budgets of R54, at once; a change of length while the legs are OFF moves the next boundary
to the first multiple of the new length after now (R35, R600); the stage pool's budget is stored, and stage-ins that it now has room for
begin (R55, R57, R65, R372). -/
def Obligations.SwathRegistersAreWritten : Prop :=
  (∀ v : Word, Writes (fun c => .swtCycPctWrite c v) (fun _ => R.SWT_CYC_PCT) (fun _ => v.toNat) (fun s =>
    let p := bits v.toNat 6 0
    (((s.stored R.SWT_CYC_PCT v.toNat).setFld R.SWT_CYC_BUD_BC (s.fld R.SWT_UNITS_N_CORE * 2 * s.lenNs * p / 100 / 1024)).setFld
      R.SWT_CYC_BUD_CORE_SHARE (2 * s.lenNs * p / 100 / 1024)).updOver)) ∧
  (∀ (v : Word) (c : RegCmd) (s : State), Accepted opRegWrite 0x0201 (writeReq c R.SWT_LOFT_BUD v.toNat) s [] →
    (s.genInSpan (bits v.toNat 17 0)).isEmpty = true →
    Completes false (.swtLoftBudWrite c v) 0x0201 (writeReq c R.SWT_LOFT_BUD v.toNat) s ((s.stored R.SWT_LOFT_BUD v.toNat).updOver.startStages) St.ok 0 []) ∧
  (∀ v : Word, Writes (fun c => .swtLenWrite c v) (fun _ => R.SWT_CFG) (fun _ => v.toNat) (fun s =>
    let t := s.stored R.SWT_CFG v.toNat
    if bits v.toNat 1 0 = bits (s.reg R.SWT_CFG) 1 0 then t else t.newLen)) ∧
  (∀ s : State, s.swt.begun = true → s.newLen.swt.nextT = (s.now / s.lenI + 1) * s.lenI ∧
    s.newLen.swt.d = s.elapsed + ((s.now / s.lenI + 1) * s.lenI - s.now) ∧ s.newLen.tmu = s.tmu ∧ s.newLen.legs = s.legs) ∧
  (∀ s : State, s.swt.begun = false → s.fld R.TMU_STAT_VALID = 1 → s.newLen.swt.firstT = some ((s.now / s.lenI + 1) * s.lenI))

/-! ### Ports (R113-R147) -/

/-- A port starts to ON or fails, its link follows its transceiver and, on S0 in AUTO mode, the in-band status, and a port that stops reaches OFF
when its queues are empty, or starts again when an enable is held; each change of the link and each failure sets its event, and every
transition is reported (R18, R19, R20, R116, R117, R139). -/
def Obligations.PortsStartAndStop : Prop :=
  (∀ (p : Fin 8) (s : State), s.portSt p.val = .starting → (s.port p.val).disHeld = false → p ≠ 7 →
    Gives (.portStartDone p true) s [R.MAC_STAT p.val, R.MAC_EVT]
      ((s.setPort p.val { s.port p.val with disHeld := false, live := true }).went (.port p.val) .starting .on)
      fun t => t.portSt p.val = .on ∧ t.fld (R.MAC_STAT_LINK p.val) = 1 ∧ (s.fld (R.MAC_STAT_LINK p.val) = 0 → tb (t.reg R.MAC_EVT) p.val = true)) ∧
  (∀ (live : Bool) (s : State), s.portSt 7 = .starting → (s.port 7).disHeld = false →
    Gives (.portStartDone 7 live) s [R.MAC_STAT 7, R.MAC_EVT]
      ((s.setPort 7 { s.port 7 with disHeld := false, live := live }).went (.port 7) .starting .on)
      fun t => t.portSt 7 = .on ∧ t.fld (R.MAC_STAT_SPEED 7) = s.fld (R.MAC_PHY_SPEED 7) ∧ t.fld (R.MAC_STAT_DUPLEX 7) = s.fld (R.MAC_PHY_DUPLEX 7) ∧
        t.fld (R.MAC_STAT_LINK 7) = (if live = true ∧ s.fld (R.MAC_PHY_AUTO 7) = 0 then 1 else s.fld (R.MAC_STAT_LINK 7))) ∧
  (∀ (p : Fin 8) (s : State), s.portSt p.val = .starting → (s.port p.val).disHeld = false → p ≠ 7 → exec (.portStartDone p false) s =
    .next (((s.setPort p.val { s.port p.val with disHeld := false, live := false }).setFld (R.MAC_STAT_STATE p.val) 2).went
      (.port p.val) .starting .on)) ∧
  (∀ (p : Fin 8) (s : State), s.portSt p.val = .starting → (s.port p.val).disHeld = true → p ≠ 7 → exec (.portStartDone p false) s =
    .next (((((s.setPort p.val { s.port p.val with disHeld := false, live := false }).setFld (R.MAC_STAT_STATE p.val) 2).went
      (.port p.val) .starting .on).setFld (R.MAC_STAT_STATE p.val) 3).went (.port p.val) .on .stopping)) ∧
  (∀ (p : Fin 8) (s : State), s.portSt p.val = .starting → (s.port p.val).disHeld = false →
    Gives (.portCalFail p) s [R.MAC_STAT p.val, R.MAC_EVT] (s.went (.port p.val) .starting .failed) fun t => t.portSt p.val = .failed ∧
      t.fld (R.MAC_STAT_LINK p.val) = 0 ∧ tb (t.reg R.MAC_EVT) (24 + p.val) = true) ∧
  (∀ (p : Fin 8) (s : State), s.portSt p.val = .starting → (s.port p.val).disHeld = true →
    Gives (.portCalFail p) s [R.MAC_STAT p.val, R.MAC_EVT]
      (((s.setPort p.val { s.port p.val with disHeld := false }).went (.port p.val) .starting .failed).went (.port p.val) .failed .stopping)
      fun t => t.portSt p.val = .stopping ∧ t.fld (R.MAC_STAT_LINK p.val) = 0 ∧ tb (t.reg R.MAC_EVT) (24 + p.val) = true) ∧
  (∀ (p : Fin 8) (x : FnState) (s : State), s.portSt p.val = x → x = .starting ∨ x = .on ∨ x = .stopping → (s.port p.val).disHeld = false → p ≠ 7 →
    Gives (.lanePllLoss p) s [R.MAC_STAT p.val, R.MAC_EVT] (s.went (.port p.val) x .failed) fun t => t.portSt p.val = .failed ∧
      t.fld (R.MAC_STAT_LINK p.val) = 0 ∧ tb (t.reg R.MAC_EVT) (24 + p.val) = true) ∧
  (∀ (p : Fin 8) (s : State), s.portSt p.val = .on ∨ s.portSt p.val = .stopping → (p = 7 → s.fld (R.MAC_PHY_AUTO 7) = 0) →
    Gives (.linkUp p) s [R.MAC_STAT p.val, R.MAC_EVT] (s.setPort p.val { s.port p.val with live := true })
      fun t => t.portSt p.val = s.portSt p.val ∧ t.fld (R.MAC_STAT_LINK p.val) = 1) ∧
  (∀ (p : Fin 8) (s : State), s.portSt p.val = .on ∨ s.portSt p.val = .stopping → s.fld (R.MAC_STAT_LINK p.val) = 1 → ∃ t, exec (.linkDown p) s = .next t ∧
    t.portSt p.val = s.portSt p.val ∧ t.fld (R.MAC_STAT_LINK p.val) = 0 ∧ (t.port p.val).live = false ∧ tb (t.reg R.MAC_EVT) p.val = true ∧
    t.reg (R.MAC_LINK_DOWN_CNT p.val) = (s.reg (R.MAC_LINK_DOWN_CNT p.val) + 1) % 2 ^ 32 ∧ t.legs = s.legs ∧ t.tmu = s.tmu) ∧
  (∀ (p : Fin 8) (s : State), s.portSt p.val = .stopping → (s.port p.val).idle = true → s.fld (R.MAC_STAT_PEND_EN p.val) = 0 →
    Gives (.portStopDone p) s [R.MAC_STAT p.val, R.MAC_EVT] (s.went (.port p.val) .stopping .off) fun t => t.portSt p.val = .off ∧
      t.fld (R.MAC_STAT_LINK p.val) = 0) ∧
  (∀ (p : Fin 8) (s : State), s.portSt p.val = .stopping → (s.port p.val).idle = true → s.fld (R.MAC_STAT_PEND_EN p.val) = 1 →
    ∃ t, exec (.portStopDone p) s = .next t ∧ t.portSt p.val = .starting ∧ t.fld (R.MAC_STAT_PEND_EN p.val) = 0 ∧ t.fld (R.MAC_STAT_LINK p.val) = 0 ∧
      t.fns = s.fns ++ [⟨.port p.val, .stopping, .off, s.now⟩, ⟨.port p.val, .off, .starting, s.now⟩] ∧ t.legs = s.legs ∧ t.tmu = s.tmu ∧
      (∀ k, k ≠ p.val → t.port k = s.port k)) ∧
  (∀ (link full : Bool) (speed : Fin 4) (s : State), s.portSt 7 = .on ∨ s.portSt 7 = .stopping → s.fld (R.MAC_PHY_AUTO 7) = 1 →
    Gives (.rgmiiInbandStatus link speed full) s [R.MAC_STAT 7, R.MAC_EVT, R.MAC_LINK_DOWN_CNT 7]
      (s.setPort 7 { s.port 7 with live := link }) fun t => t.portSt 7 = s.portSt 7 ∧ t.fld (R.MAC_STAT_SPEED 7) = speed.val ∧
        t.fld (R.MAC_STAT_DUPLEX 7) = b2n full ∧
        t.fld (R.MAC_STAT_LINK 7) = b2n (link && decide (speed.val ≠ 3) && (full || decide (speed.val ≠ 2))))

/-- A port's enable, by command or by its register, takes a port that is OFF to STARTING, with its frame limit and its role from then on those
written while it was OFF, and a disable one that is ON to STOPPING; each transition is reported (R18, R20, R113, R116, R143, R145, R599);
PORT_STATUS returns the port's registers. -/
def Obligations.PortsAreEnabledAndDisabled : Prop :=
  DoesIf (fun q s => s.portSt (u8 q.payload 0) = .off) true opPortEnable 0x0701 .portEnable (done fun q s =>
    let p := u8 q.payload 0
    ((((s.setFld (R.MAC_CFG_EN p) 1).setPort p { s.port p with disHeld := false }).latchPort p).setFld (R.MAC_STAT_STATE p) 1).went
      (.port p) .off .starting) ∧
  (∀ (s : State) (p : Nat), ((s.latchPort p).port p).maxF = some (s.fld (R.MAC_MAXFRM_LEN p)) ∧
    ((s.latchPort p).port p).roleF = some (s.fld (R.MAC_CFG_ROLE p))) ∧
  DoesIf (fun q s => s.portSt (u8 q.payload 0) = .on) true opPortDisable 0x0702 .portDisable (done fun q s =>
    let p := u8 q.payload 0
    ((s.setFld (R.MAC_CFG_EN p) 0).setFld (R.MAC_STAT_STATE p) 3).went (.port p) .on .stopping) ∧
  Does false opPortStatus 0x0782 .portStatus (replied fun q s =>
    let p := u8 q.payload 0
    ([R.MAC_STAT p, R.MAC_GATE p, R.MAC_PAUSED p] ++ (List.range 8).map fun n => R.MAC_IFILL p n).flatMap fun a => be 4 (s.readReg false a)) ∧
  (∀ (p : Fin 8) (v : Word), Writes (fun c => .macCfgEnWrite p c v) (fun _ => R.MAC_CFG p.val) (fun _ => v.toNat) (fun s =>
    let t := s.stored (R.MAC_CFG p.val) v.toNat
    if tb v.toNat 0 = tb (s.reg (R.MAC_CFG p.val)) 0 then t
    else match s.portSt p.val, tb v.toNat 0 with
      | .off, true => (((t.setPort p.val { s.port p.val with disHeld := false }).latchPort p.val).setFld (R.MAC_STAT_STATE p.val) 1).went
          (.port p.val) .off .starting
      | .starting, false => t.setPort p.val { s.port p.val with disHeld := true }
      | .on, false => (t.setFld (R.MAC_STAT_STATE p.val) 3).went (.port p.val) .on .stopping
      | .failed, false => (t.setFld (R.MAC_STAT_STATE p.val) 3).went (.port p.val) .failed .stopping
      | .stopping, true => t.setFld (R.MAC_STAT_PEND_EN p.val) 1
      | .stopping, false => t.setFld (R.MAC_STAT_PEND_EN p.val) 0
      | _, _ => t)) ∧
  (∀ p : Fin 8, Writes (fun c => .macCtlPeakClr p c) (fun _ => R.MAC_CTL p.val) (fun _ => 1) (fun s =>
    (s.stored (R.MAC_CTL p.val) 1).setPort p.val { s.port p.val with peak := (List.range 8).map fun n => (n, s.fill p.val n) })) ∧
  (∀ p : Fin 8, Writes (fun c => .macCtlAnRestart p c) (fun _ => R.MAC_CTL p.val) (fun _ => 2) (fun s =>
    let t := s.stored (R.MAC_CTL p.val) 2
    if s.portSt p.val = .on ∧ p ≠ 7 then (t.setPort p.val { s.port p.val with live := false }).loseLink p.val else t)) ∧
  (∀ (p : Fin 8) (tx : Bool), Reads (fun x => .macCntLoRead p tx x) (if tx then R.MAC_TX_BYTE_CNT_LO p.val else R.MAC_RX_BYTE_CNT_LO p.val)
    (fun i2c s =>
      let v := BitVec.ofNat 32 (s.reg (if tx then R.MAC_TX_BYTE_CNT_HI p.val else R.MAC_RX_BYTE_CNT_HI p.val))
      s.setPort p.val (if i2c then { s.port p.val with cntLatI := kset (s.port p.val).cntLatI (b2n tx) v }
        else { s.port p.val with cntLatQ := kset (s.port p.val).cntLatQ (b2n tx) v }))
    (fun _ s => s.reg (if tx then R.MAC_TX_BYTE_CNT_LO p.val else R.MAC_RX_BYTE_CNT_LO p.val)))

/-- What a port does with a frame that arrives (R119, R129, R134, R135): what its lane corrected is counted (R146); one that is not received is
counted in the first row that applies and goes no further; a MAC control frame stops in the MAC; a muzzle frame waits for the muzzle; any
other enters the buffer of its class with its stamp, or is dropped and reported when that is full; on S0 one for a receive ring without a free
buffer of its port is counted and dropped, and one with a buffer waits for that ring (R136, R138). -/
def Obligations.FramesAreReceived : Prop :=
  (∀ (w : RxWire) (s : State), s.portSt w.port.val ≠ .on → exec (.macRxFrame w) s = .next s) ∧
  (∀ (w : RxWire) (s : State), s.portSt w.port.val = .on →
    let p := w.port.val
    let u := if p < 7 then (s.bumpBy (R.MAC_FEC_CORR_CNT p) w.fecCorr.toNat).bumpBy (R.MAC_FEC_UNCORR_CNT p) w.fecUncorr.toNat else s
    let len := w.bytes.length + 4
    let e := parseEth w.bytes
    let n := s.classify p w.bytes
    (len ≤ 63 → exec (.macRxFrame w) s = .next (u.bump (R.MAC_RX_RUNT_CNT p))) ∧
    (63 < len → s.portMax p < len → w.cut = false ∨ s.ringOf p = none → exec (.macRxFrame w) s = .next (u.bump (R.MAC_RX_OVERSIZE_CNT p))) ∧
    (63 < len → len ≤ s.portMax p →
      (w.fcsOk = false → exec (.macRxFrame w) s =
        .next (u.bump (if w.port = 7 ∧ w.oddNibble = true then R.MAC_RX_ALIGN_CNT p else R.MAC_RX_FCS_CNT p))) ∧
      (w.fcsOk = true → s.isMuzzle p w.bytes = true → exec (.macRxFrame w) s =
        .next (u.setQcp { s.qcp with mzIn := s.qcp.mzIn ++ [⟨w.bytes.drop e.off, s.now, s.loc⟩] })) ∧
      (w.fcsOk = true → s.isMuzzle p w.bytes = false → e.etype = 0x8808 → s.fld (R.MAC_FC_MODE p) = 0 →
        exec (.macRxFrame w) s = .next (u.bump (match num w.bytes e.off 2 with
          | 0x0101 => R.MAC_RX_PFC_CNT p | 0x0001 => R.MAC_RX_PAUSE_CNT p | _ => R.MAC_RX_CTL_OTHER_CNT p))) ∧
      (w.fcsOk = true → s.isMuzzle p w.bytes = false → e.etype = 0x8808 → num w.bytes e.off 2 = 0x0101 → s.fld (R.MAC_FC_MODE p) = 1 →
        ((s.port p).pauseUntil.map (·.1)).Pairwise (· < ·) → ∃ t, exec (.macRxFrame w) s = .next t ∧ t.reg (R.MAC_RX_PFC_CNT p) = (s.reg (R.MAC_RX_PFC_CNT p) + 1) % 2 ^ 32 ∧
          (∀ m < 8, let q := num w.bytes (e.off + 4 + 2 * m) 2
            kget (t.port p).pauseUntil m = if tb (num w.bytes (e.off + 2) 2) m = true ∧ tb (s.fld (R.MAC_FC_RX_EN p)) m = true then
              (if q = 0 then none else some (s.loc + s.quanta p q)) else kget (s.port p).pauseUntil m) ∧
          (∀ k, k ≠ p → t.port k = s.port k) ∧ t.legs = s.legs ∧ t.tmu = s.tmu) ∧
      (w.fcsOk = true → s.isMuzzle p w.bytes = false → e.etype ≠ 0x8808 → s.fld (R.MAC_IBUF_KIB p n) * 1024 < s.fill p n + len →
        Gives (.macRxFrame w) s [R.MAC_RX_IDROP_TC_CNT p n, R.MAC_EVT, R.MAC_FEC_CORR_CNT p, R.MAC_FEC_UNCORR_CNT p] s
          fun t => tb (t.reg R.MAC_EVT) (8 + p) = true ∧ t.reg (R.MAC_RX_IDROP_TC_CNT p n) = (s.reg (R.MAC_RX_IDROP_TC_CNT p n) + 1) % 2 ^ 32) ∧
      (w.fcsOk = true → s.isMuzzle p w.bytes = false → e.etype ≠ 0x8808 → s.fill p n + len ≤ s.fld (R.MAC_IBUF_KIB p n) * 1024 →
        ∃ t, exec (.macRxFrame w) s = .next t ∧ t.reg (R.MAC_RX_FRM_CNT p) = (s.reg (R.MAC_RX_FRM_CNT p) + 1) % 2 ^ 32 ∧
          t.legs = s.legs ∧ t.tmu = s.tmu ∧ t.nv = s.nv ∧ t.swt = s.swt ∧ (∀ k, k ≠ p → t.port k = s.port k) ∧
          (n = 7 ∨ s.ringOf p = none → kgetD (t.port p).rxq n [] = kgetD (s.port p).rxq n [] ++ [⟨w.bytes, s.rxStamp p w.sfdAgo⟩] ∧
            (∀ m, m ≠ n → kgetD (t.port p).rxq m [] = kgetD (s.port p).rxq m []) ∧ t.mmu.rings = s.mmu.rings) ∧
          (∀ i d, n ≠ 7 → s.ringOf p = some (i, d) → (t.port p).rxq = (s.port p).rxq ∧
            (s.freeBufs i d p = [] → t.mmu.rings = s.mmu.rings ∧
              (s.grn.taps = [] → t.reg (R.MAC_RX_RING_EMPTY_CNT p) = (s.reg (R.MAC_RX_RING_EMPTY_CNT p) + 1) % 2 ^ 32)) ∧
            (s.freeBufs i d p ≠ [] → (t.dring i).frames = d.frames ++ [(⟨w.bytes, s.rxStamp p w.sfdAgo⟩, n, p)])))))

/-- A pause by the peer ends with its quanta, of 512 bit times each, and not before (R134); the part renews its own XOFF every REFRESH quanta while
flow control is on (R131). -/
def Obligations.PausesEndAndAreRenewed : Prop :=
  (∀ (p tc : Fin 8) (s : State) (u : Nat), kget (s.port p.val).pauseUntil tc.val = some u → u ≤ s.loc → exec (.pauseQuantaExpiry p tc) s =
    .next ((s.setPort p.val { s.port p.val with pauseUntil := kdel (s.port p.val).pauseUntil tc.val }).setFld (R.MAC_PAUSED_PEER p.val)
      (putBit (s.fld (R.MAC_PAUSED_PEER p.val)) tc.val false))) ∧
  (∀ (p tc : Fin 8) (s : State), (∀ u, kget (s.port p.val).pauseUntil tc.val = some u → s.loc < u) → exec (.pauseQuantaExpiry p tc) s = .next s) ∧
  (∀ (p n : Nat) (s : State), p < 7 → s.quanta p n = (n * 512 * 65536 + 99) / 100) ∧
  (∀ (p : Fin 8) (s : State), s.fld (R.MAC_PAUSED_XOFF p.val) ≠ 0 → (s.port p.val).refreshAt ≤ s.loc →
    (s.fld (R.MAC_FC_MODE p.val) = 1 ∨ s.fld (R.MAC_FC_MODE p.val) = 2) → exec (.pfcRefresh p) s =
    .next (s.setPort p.val { s.port p.val with
      fcDue := (s.port p.val).fcDue ||| s.fld (R.MAC_PAUSED_XOFF p.val)
      refreshAt := (s.port p.val).refreshAt + s.quanta p.val (s.fld (R.MAC_FC_TIME_REFRESH p.val)) })) ∧
  (∀ (p : Fin 8) (s : State), s.fld (R.MAC_PAUSED_XOFF p.val) = 0 ∨ s.loc < (s.port p.val).refreshAt → exec (.pfcRefresh p) s = .next s)

/-- What a port sends next (R117, R125, R126, R139): a PFC or PAUSE frame that is due while flow control is on; else the head of the highest class
that the peer does not pause, which in half duplex stays on the wire until it has gone without a collision; with the link down the head of a
queue is discarded and counted. A producer's frame that waits enters its queue when there is room. -/
def Obligations.FramesAreSent : Prop :=
  (∀ (p : Fin 8) (s : State), s.portSt p.val = .on → s.fld (R.MAC_STAT_LINK p.val) = 1 → (s.port p.val).wire = none → s.qcp.gates = [] →
    (s.port p.val).fcDue ≠ 0 → s.fld (R.MAC_FC_MODE p.val) ≠ 0 → exec (.macTxSelect p) s =
    .next ((s.setPort p.val { s.port p.val with fcDue := 0 }).bump (s.fcFrame p.val).2)) ∧
  (∀ (p n : Fin 8) (s : State) (f : TxFrame) (r : List TxFrame), s.portSt p.val = .on → s.fld (R.MAC_STAT_LINK p.val) = 1 →
    (s.port p.val).wire = none → s.qcp.gates = [] → (s.port p.val).fcDue = 0 ∨ s.fld (R.MAC_FC_MODE p.val) = 0 →
    kgetD (s.port p.val).txq n.val [] = f :: r → tb (s.fld (R.MAC_PAUSED_PEER p.val)) n.val = false →
    (∀ m : Fin 8, n < m → kgetD (s.port p.val).txq m.val [] = [] ∨ tb (s.fld (R.MAC_PAUSED_PEER p.val)) m.val = true) →
    (p ≠ 7 ∨ s.fld (R.MAC_STAT_DUPLEX 7) = 1 → ∃ t, exec (.macTxSelect p) s = .next t ∧
      t.ports = kset s.ports p.val { s.port p.val with txq := kset (s.port p.val).txq n.val r } ∧
      t.reg (R.MAC_TX_FRM_CNT p.val) = (s.reg (R.MAC_TX_FRM_CNT p.val) + 1) % 2 ^ 32 ∧ t.legs = s.legs ∧ t.tmu = s.tmu ∧ t.nv = s.nv) ∧
    (p = 7 → s.fld (R.MAC_STAT_DUPLEX 7) = 0 → ∃ t, exec (.macTxSelect p) s = .next t ∧ t = { s with ports := t.ports } ∧
      t.port 7 = { s.port 7 with txq := kset (s.port 7).txq n.val r, wire := some { f with bytes := s.pcpRewrite 7 f }, attempts := 0 } ∧
      ∀ k, k ≠ 7 → t.port k = s.port k)) ∧
  (∀ (p n : Fin 8) (s : State) (f : TxFrame), s.portSt p.val = .on → s.fld (R.MAC_STAT_LINK p.val) = 0 → (s.port p.val).wire = none →
    (s.port p.val).txq = [(n.val, [f])] → f.origin = .none → exec (.macTxSelect p) s =
    .next ((s.setPort p.val { s.port p.val with txq := [(n.val, [])] }).bump (R.MAC_TX_DISCARD_CNT p.val))) ∧
  (∀ (p tc : Fin 8) (s : State) (f : TxFrame) (r : List TxFrame), kgetD (s.port p.val).waiting tc.val [] = f :: r →
    txBytes (kgetD (s.port p.val).txq tc.val []) + (f.bytes.length + 4) ≤ 131072 → exec (.txQueueEntry p tc) s =
    .next (s.setPort p.val { s.port p.val with txq := kset (s.port p.val).txq tc.val (kgetD (s.port p.val).txq tc.val [] ++ [f]),
                                               waiting := kset (s.port p.val).waiting tc.val r })) ∧
  (∀ (p tc : Fin 8) (s : State), kgetD (s.port p.val).waiting tc.val [] = [] → exec (.txQueueEntry p tc) s = .next s)

/-- A collision of S0 in half duplex is counted and backs off for the jam and a number of slots of 512 bit times below 2^min(n, 10) at the nth
attempt, which number is free; after 512 bit times or at the sixteenth attempt the frame is given up and its producer hears of it (R140,
R141). When the back-off has run out, and not before, the frame goes on the wire again, or is discarded where the port has stopped sending or
a gate has closed over it (R117, R127, R181). Without a frame on the wire, in full duplex and during a back-off there is no collision. -/
def Obligations.CollisionsBackOff : Prop :=
  (∀ (n : Nat) (s : State) (f : TxFrame), (s.port 7).wire = some f → s.fld (R.MAC_STAT_DUPLEX 7) = 0 → (s.port 7).backoff = none →
    let u := s.bump (R.MAC_TX_COL_CNT 7)
    (n ≤ 512 → (s.port 7).attempts < 15 → ∃ k < 2 ^ min ((s.port 7).attempts + 1) 10, exec (.s0Collision n) s =
      .next (u.drawn.setPort 7 { s.port 7 with
        attempts := (s.port 7).attempts + 1
        backoff := some (s.loc + (32 + 512 * k) * ((if s.fld (R.MAC_STAT_SPEED 7) = 0 then 100 else if s.fld (R.MAC_STAT_SPEED 7) = 1 then 10 else 1) * 65536)) })) ∧
    (512 < n → exec (.s0Collision n) s =
      .next (((u.setPort 7 { s.port 7 with wire := none, attempts := 0 }).bump (R.MAC_TX_LATE_COL_CNT 7)).txDone f St.busy none false)) ∧
    (n ≤ 512 → 15 ≤ (s.port 7).attempts → exec (.s0Collision n) s =
      .next (((u.setPort 7 { s.port 7 with wire := none, attempts := 0 }).bump (R.MAC_TX_EXCESS_COL_CNT 7)).txDone f St.busy none false))) ∧
  (∀ (n : Nat) (s : State), (s.port 7).wire = none ∨ s.fld (R.MAC_STAT_DUPLEX 7) ≠ 0 ∨ (s.port 7).backoff ≠ none →
    exec (.s0Collision n) s = .next s) ∧
  (∀ (s : State) (t : Nat) (f : TxFrame), (s.port 7).backoff = some t → (s.port 7).wire = some f →
    let gone := s.setPort 7 { s.port 7 with wire := none, backoff := none, attempts := 0 }
    let sends := s.portSt 7 = .on ∧ s.fld (R.MAC_STAT_LINK 7) = 1
    (s.loc < t → exec .s0BackoffExpiry s = .next s) ∧
    (t ≤ s.loc → sends → s.meetsGate 7 f = false → exec .s0BackoffExpiry s = .next (s.setPort 7 { s.port 7 with backoff := none })) ∧
    (t ≤ s.loc → ¬ sends → exec .s0BackoffExpiry s = .next ((gone.bump (R.MAC_TX_DISCARD_CNT 7)).txDone f St.state none false)) ∧
    (t ≤ s.loc → sends → s.meetsGate 7 f = true → exec .s0BackoffExpiry s = .next ((gone.bump (R.MAC_TX_GATE_DROP_CNT 7)).txDone f St.state none true)))

/-- The MDIO master runs one frame at a time: the firmware's write of MAC_MDIO_CFG is kept where its DIV is at least 200, a GO starts a frame, a GO
meanwhile starts none, and its end stores the read data or, without a
response, ERR and 0xFFFF (R142); a PORT_MDIO command queues its frames and is answered when the last has run (R143). -/
def Obligations.MdioFramesRunInTurn : Prop :=
  (∀ (cfg v : Word) (s : State), let w := if cfg.toNat % 2 ^ 10 < 200 then s else s.setReg R.MAC_MDIO_CFG (cfg.toNat % 2 ^ 11)
    (s.fld R.MAC_MDIO_STAT_BUSY = 0 → tb v.toNat 31 = true → exec (.macMdioGo cfg v) s =
      .next { (w.setReg R.MAC_MDIO_CMD (bits v.toNat 30 28 * 2 ^ 28 + v.toNat % 2 ^ 26)).setFld R.MAC_MDIO_STAT_BUSY 1 with
        mdio := { s.mdio with own := false } }) ∧
    (s.fld R.MAC_MDIO_STAT_BUSY = 1 ∨ tb v.toNat 31 = false → exec (.macMdioGo cfg v) s = .next w)) ∧
  (∀ (r : Option (BitVec 16)) (s : State), s.fld R.MAC_MDIO_STAT_BUSY = 1 → s.mdio.own = false → s.mdio.jobs = [] → exec (.mdioFrameDone r) s =
    .next (if mdioReads (s.reg R.MAC_MDIO_CMD) then
      ((s.setFld R.MAC_MDIO_STAT_BUSY 0).setFld R.MAC_MDIO_STAT_ERR (b2n r.isNone)).setFld R.MAC_MDIO_STAT_RDATA ((r.map BitVec.toNat).getD 0xFFFF)
      else s.setFld R.MAC_MDIO_STAT_BUSY 0)) ∧
  (∀ (d : BitVec 16) (s : State) (j : MdioJob) (js : List MdioJob) (w : Nat), s.fld R.MAC_MDIO_STAT_BUSY = 1 → s.mdio.own = true →
    s.mdio.jobs = j :: js → j.words = [w] → mdioReads (s.reg R.MAC_MDIO_CMD) = true → (s.sess j.mbox).st = .on → (s.sess j.mbox).defer = true →
    (s.sess j.mbox).out = [] → ∃ t, exec (.mdioFrameDone (some d)) s = .next t ∧ t.mdio.jobs = js ∧ t.fld R.MAC_MDIO_STAT_RDATA = d.toNat ∧
      (t.sess j.mbox).defer = false ∧
      (t.sess j.mbox).out = replyFrames t t.dev (s.sess j.mbox) j.mbox j.seq j.opcode St.ok 0 j.jrn (be 2 d.toNat ++ be 2 0)) ∧
  (∀ (q : Req) (s : State) (plan : List Nat), Accepted opPortMdioWrite 0x0703 q s plan → Room q s → Waits true (.portMdioWrite q) q s
    (({ s with mdio := { s.mdio with jobs := s.mdio.jobs ++ [⟨q.mbox.val, q.seq.toNat, 0x0703, true, mdioWords q.payload true⟩] } } : State).mdioNext)) ∧
  (∀ (q : Req) (s : State) (plan : List Nat), Accepted opPortMdioRead 0x0781 q s plan → Waits false (.portMdioRead q) q s
    (({ s with mdio := { s.mdio with jobs := s.mdio.jobs ++ [⟨q.mbox.val, q.seq.toNat, 0x0781, false, mdioWords q.payload false⟩] } } : State).mdioNext))

/-! ### The packet engine (R193-R205, R217) -/

/-- The packet engine takes the oldest frame of a class buffer and sorts it (R193): what it cannot parse, what belongs to no flow and what belongs
to a leg that is not ON is counted and goes no further; an RTP packet that passes the checks of R200 is counted for its leg, whose SSRC and
replay window follow it (R199, R200); a packet that fails a check is counted under it. While the frames of a port go to a receive ring or the kennel
holds its class back the engine takes none (R133, R360). The PTP stack takes the frames that were passed to it, with what it makes of them: an
offset, from which the asymmetry of the port comes off and which is pushed to the servo (R81, R92), a link delay, an offset to UTC, from frames
of PTP version 2 in the domain of the profile only (R96); the firmware takes the slow-path frames (R193, R195). -/
def Obligations.FramesAreSortedToFlows : Prop :=
  (∀ (p : Fin 8) (n : Fin 7) (s : State), kgetD (s.port p.val).rxq n.val [] = [] → exec (.pkeFrameTake p n) s = .next s) ∧
  (∀ (p : Fin 8) (n : Fin 7) (s : State), s.bpOn p.val n.val = true ∨ s.ringOf p.val ≠ none → exec (.pkeFrameTake p n) s = .next s) ∧
  (∀ (p : Fin 8) (n : Fin 7) (s : State) (f : RxFrame) (r : List RxFrame), s.bpOn p.val n.val = false → s.ringOf p.val = none →
    kgetD (s.port p.val).rxq n.val [] = f :: r → s.isTandem p.val = false → (parseEth f.bytes).etype ≠ 0x88B5 →
    (parsePkt (s.flag R.PKE_CFG_QINQ) f.bytes = .bad → exec (.pkeFrameTake p n) s = .next ((State.taken s p.val n.val r).bump R.PKE_PARSE_CNT)) ∧
    (parsePkt (s.flag R.PKE_CFG_QINQ) f.bytes = .csum → exec (.pkeFrameTake p n) s = .next ((State.taken s p.val n.val r).bump R.PKE_CSUM_CNT)) ∧
    (parsePkt (s.flag R.PKE_CFG_QINQ) f.bytes = .otherIp → s.bridgeOf p.val = none → isPtp f.bytes (parseEth f.bytes) = false →
      s.fld R.PKE_CFG_MISS ≠ 1 → exec (.pkeFrameTake p n) s = .next ((State.taken s p.val n.val r).bump R.PKE_MISS_CNT)) ∧
    (parsePkt (s.flag R.PKE_CFG_QINQ) f.bytes = .notIp → s.bridgeOf p.val = none → isPtp f.bytes (parseEth f.bytes) = false →
      exec (.pkeFrameTake p n) s = .next ((State.taken s p.val n.val r).bump R.PKE_ETYPE_CNT)) ∧
    (∀ (k : Pkt) (i : Nat) (e : FlowEnt), parsePkt (s.flag R.PKE_CFG_QINQ) f.bytes = .udp k → lookupFlow s.pke.flows p.val k = some i →
      s.pke.flows[i]? = some e →
      ((s.leg e.leg).st ≠ .on → exec (.pkeFrameTake p n) s = .next ((State.taken s p.val n.val r).legCnt e.leg R.PKE_MISS_CNT)) ∧
      ((s.leg e.leg).st = .on → e.kind = 0 → s.srcOk e k = false →
        exec (.pkeFrameTake p n) s = .next (((State.taken s p.val n.val r).heardFrom i e k).legCnt e.leg R.PKE_SRC_CNT)) ∧
      (∀ (x : RtpIn) (c : Nat), (s.leg e.leg).st = .on → e.kind = 0 → s.srcOk e k = true → (s.leg e.leg).rtpIn k.pay = some x →
        s.rtpFault (s.leg e.leg) x = some c → c ≠ R.PKE_AUTH_CNT →
        exec (.pkeFrameTake p n) s = .next (((State.taken s p.val n.val r).heardFrom i e k).legCnt e.leg c)) ∧
      (∀ (x : RtpIn), (s.leg e.leg).st = .on → e.kind = 0 → s.srcOk e k = true → (s.leg e.leg).rtpIn k.pay = some x →
        s.rtpFault (s.leg e.leg) x = none → (s.leg e.leg).cfg.pts.2.2 = 255 →
        ∃ t, exec (.pkeFrameTake p n) s = .next t ∧ t.reg R.PKE_RTP_CNT = (s.reg R.PKE_RTP_CNT + 1) % 2 ^ 32 ∧
          t.reg R.PKE_RX_CNT = (s.reg R.PKE_RX_CNT + 1) % 2 ^ 32 ∧ (t.leg e.leg).rx.ssrc = some x.h.ssrc ∧ (t.leg e.leg).rx.heard = s.loc ∧
          (t.leg e.leg).cfg.rx.valid = true ∧ (t.leg e.leg).st = .on ∧ (∀ j, j ≠ e.leg → t.leg j = s.leg j) ∧ t.tmu = s.tmu ∧ t.swt = s.swt))) ∧
  (∀ (r : PtpFind) (s : State), s.pke.ptpQ = [] → exec (.ptpFrameRx r) s = .next s) ∧
  (∀ (s : State) (p : Nat) (f : RxFrame) (q : List (Nat × RxFrame)), s.pke.ptpQ = (p, f) :: q →
    let t := s.setPke { s.pke with ptpQ := q }
    let e := parseEth f.bytes
    let off := if udpDst f.bytes e = some 320 then (udpAt f.bytes e).map (· + 8) else ptpOff f.bytes e
    let on := (∃ o, off = some o ∧ ptpVersion (u8 f.bytes (o + 1)) = true ∧ u8 f.bytes (o + 4) = u8 s.tmu.ptpRole 3) ∧ s.ptpRole ≠ 0 ∧
      u8 (kgetD s.tmu.ptpPorts p []) 1 = 1
    exec (.ptpFrameRx .nothing) s = .next t ∧
    (∀ u, on → exec (.ptpFrameRx (.utcOffset u)) s = .next (t.setFld R.PKE_UTC_OFS_S u.toNat)) ∧
    (¬ on → (∀ u, exec (.ptpFrameRx (.utcOffset u)) s = .next t) ∧ ∀ raw mpd wt, exec (.ptpFrameRx (.offset raw mpd wt)) s = .next t) ∧
    (∀ d o, p < 7 → off = some o → u8 f.bytes o % 16 = 3 ∨ u8 f.bytes o % 16 = 10 → on ∨ s.pdelayHere p f.bytes = true →
      exec (.ptpFrameRx (.linkDelay d)) s = .next (t.setReg (R.TMU_LINKDLY p) d.toNat)) ∧
    (∀ raw mpd wt, let o := sgn 48 raw.toNat - sgn 32 (s.reg (R.TMU_ASYM p)) * 256
      on → p < 7 → s.tmu.srv.st = .on → s.tmu.ofs.length < 16 → -(2 ^ 47) ≤ o → o < 2 ^ 47 → ∃ v, exec (.ptpFrameRx (.offset raw mpd wt)) s = .next v ∧
        v.tmu.ofs = s.tmu.ofs ++ [⟨o, wt.toNat, if mpd.toNat = 0xFFFFFFFF then none else some mpd.toNat, p⟩] ∧
        v.tmu.srv.lastPush = s.tmu.loc ∧ v.pke = t.pke ∧ v.legs = s.legs)) ∧
  (∀ (s : State) (p : Nat) (b : Bytes) (r : List (Nat × Bytes)), s.pke.slowQ = (p, b) :: r → s.slowAnswer b = none →
    exec .slowPathFrame s = .next (s.setPke { s.pke with slowQ := r })) ∧
  (∀ (s : State) (p : Nat) (b a : Bytes) (r : List (Nat × Bytes)), s.pke.slowQ = (p, b) :: r → s.slowAnswer b = some a →
    exec .slowPathFrame s = .next ((s.setPke { s.pke with slowQ := r }).txRequest p (TxFrame.plain a 0 .none)).1)

/-! ### The control protocol (R27, R148-R192) -/

/-- A command in its turn is refused when the role of its session does not suffice (R153; of a REG_WRITE the detail names the role beside its first
pair, R169), when its payload has the wrong length (R165) or it announces bulk frames that it does not take (R602), and in recovery boot when
that does not execute it (R561): the reply says why, and beside what taking a command leaves nothing changes. So it is for
every operation named here, and a command whose turn it is not changes nothing (R161). -/
def Obligations.CommandsAreRefusedInTurn : Prop :=
  ∀ x ∈ ([(opRegWrite, 0x0201, Instr.regWrite), (opUnmuzzle, 0x0111, .unmuzzle), (opMuzzleKeySet, 0x0112, .muzzleKeySet), (opChanEnable, 0x0301, .chanEnable),
      (opChanKey, 0x0307, .chanKey), (opGraphDefine, 0x0401, .graphDefine), (opCoefSwap, 0x0504, .coefSwap), (opPortDisable, 0x0702, .portDisable),
      (opCaptEnable, 0x0803, .captEnable), (opTandRoute, 0x0B01, .tandRoute), (opBistRequest, 0x0C01, .bistRequest),
      (opFwActivate, 0x0E02, .fwActivate), (opShutBegin, 0x1001, .shutBegin)] : List (OpDef × Nat × (Req → Instr))),
    (∀ (q : Req) (s : State), s.turn q.mbox.val q.seq.toNat x.2.1 q.more q.payload = false → exec (x.2.2 q) s = .next s) ∧
    (∀ (q : Req) (s : State), s.turn q.mbox.val q.seq.toNat x.2.1 q.more q.payload = true → (s.sess q.mbox.val).role < x.1.minRole →
      ∃ t, exec (x.2.2 q) s = .next t ∧ Aside q.mbox.val s t ∧ Answered false x.2.1 q St.auth (if x.2.1 = 0x0201 then x.1.minRole * 256 else x.1.minRole) [] s t) ∧
    (∀ (q : Req) (s : State), s.turn q.mbox.val q.seq.toNat x.2.1 q.more q.payload = true → x.1.minRole ≤ (s.sess q.mbox.val).role →
      s.mode = .recovery → recoveryAllows x.2.1 = false →
      ∃ t, exec (x.2.2 q) s = .next t ∧ Aside q.mbox.val s t ∧ Answered false x.2.1 q St.state 0xFFFF [] s t) ∧
    (∀ (q : Req) (s : State) (off : Nat), s.turn q.mbox.val q.seq.toNat x.2.1 q.more q.payload = true → x.1.minRole ≤ (s.sess q.mbox.val).role →
      s.mode ≠ .recovery → q.more = false → x.1.badLen q.payload = some off → off ≤ 0xFFFF →
      ∃ t, exec (x.2.2 q) s = .next t ∧ Aside q.mbox.val s t ∧ Answered false x.2.1 q St.badLen off [] s t) ∧
    (∀ (q : Req) (s : State), s.turn q.mbox.val q.seq.toNat x.2.1 true q.payload = true → x.1.minRole ≤ (s.sess q.mbox.val).role →
      s.mode ≠ .recovery → q.more = true → x.1.bulk = false →
      ∃ t, exec (x.2.2 q) s = .next t ∧ Aside q.mbox.val s t ∧ Answered false x.2.1 q St.badLen 0 [] s t)

/-- R27: an address that is no multiple of 4 is refused with E_BAD_LEN; an aligned address at which no register lies, as every one at or above
0x0012_0000, reads as 0, and a write to it is ignored with status OK. -/
def Obligations.AddressesWithoutARegister : Prop :=
  (∀ (q : Req) (s : State) (a n : Nat), q.payload = be 4 a ++ be 4 n → a < 2 ^ 32 →
    1 ≤ n → n ≤ 64 → a % 4 ≠ 0 → q.more = false → s.turn q.mbox.val q.seq.toNat 0x0281 false q.payload = true →
    ∃ t, exec (.regRead q) s = .next t ∧ Aside q.mbox.val s t ∧ Answered false 0x0281 q St.badLen 0 [] s t) ∧
  (∀ (q : Req) (s : State) (i a v : Nat), Ready opRegWrite 0x0201 q s → (pairsOf q.payload)[i]? = some (a, v) → a % 4 ≠ 0 →
    checkPairs (s.sess q.mbox.val).role (tb (num q.payload 0 2) 0) ((pairsOf q.payload).take i) 0 (s.take q.mbox.val) = .ok [] →
    ∃ t, exec (.regWrite q) s = .next t ∧ Aside q.mbox.val s t ∧ Answered false 0x0201 q St.badLen i [] s t) ∧
  (∀ a, 0x120000 ≤ a → regAt a = none) ∧
  (∀ (q : Req) (s : State) (a : Nat), Ready opRegRead 0x0281 q s → q.payload = be 4 a ++ be 4 1 → a < 2 ^ 32 → regAt a = none →
    Completes false (.regRead q) 0x0281 q s s St.ok 0 (be 4 0)) ∧
  (∀ (c : RegCmd) (s : State) (a v : Nat), Ready opRegWrite 0x0201 (writeReq c a v) s → a < 2 ^ 32 → v < 2 ^ 32 → a % 4 = 0 → regAt a = none →
    Completes false (.regWrite (writeReq c a v)) 0x0201 (writeReq c a v) s s St.ok 0 []) ∧
  (∀ (s : State) (i2c : Bool) (a : Nat), regAt a = none → s.readReg i2c a = 0) ∧
  (∀ (s : State) (a v : Nat), regAt a = none → s.writePair a v = s)

/-- REG_READ returns the values of consecutive registers in order of address, each read once (R168); REG_WRITE applies its pairs in order when
every one passes its check, with PERSIST as a journaled command (R169, R170); a key that is not loaded is not enabled (R188). -/
def Obligations.RegistersAreReadAndWritten : Prop :=
  (∀ (q : Req) (s : State), Ready opRegRead 0x0281 q s → exec (.regRead q) s =
    .next ((Done.res (readRegs (num q.payload 4 4) (s.take q.mbox.val) false (num q.payload 0 4)).1
      ((readRegs (num q.payload 4 4) (s.take q.mbox.val) false (num q.payload 0 4)).2.flatMap fun v => be 4 v)).finish
      (Req.ctx q 0x0281 s) s.dev false)) ∧
  (∀ (n a : Nat) (s : State), readRegs (n + 1) s false a =
    ((readRegs n (s.readAct false a) false (a + 4)).1, (s.readAct false a).readReg false a :: (readRegs n (s.readAct false a) false (a + 4)).2)) ∧
  (∀ (q : Req) (s : State), Accepted opRegWrite 0x0201 q s [] → tb (num q.payload 0 2) 0 = false →
    (s.take q.mbox.val).mustMove (pairsOf q.payload) = false →
    exec (.regWrite q) s = .next ((Done.stat (applyPairs (s.take q.mbox.val) (pairsOf q.payload)).1
      (if (applyPairs (s.take q.mbox.val) (pairsOf q.payload)).2 then St.late else St.ok) 0).finish (Req.ctx q 0x0201 s) s.dev false)) ∧
  (∀ (q : Req) (s : State), Accepted opRegWrite 0x0201 q s [] → tb (num q.payload 0 2) 0 = true → Room q s → s.mustMove (pairsOf q.payload) = false →
    ∃ v, Aside q.mbox.val s v ∧ Commits (.regWrite q) s ((Done.stat (applyPairs v (pairsOf q.payload)).1
      (if (applyPairs v (pairsOf q.payload)).2 then St.late else St.ok) 0).finish (Req.ctx q 0x0201 s) s.dev true)) ∧
  (∀ (a v : Nat) (l : List (Nat × Nat)) (s : State), (applyPairs s ((a, v) :: l)).1 = (applyPairs (s.writePair a v) l).1) ∧
  (∀ (c : RegCmd) (s : State) (v k : Nat), Ready opRegWrite 0x0201 (writeReq c R.QCP_MZ_KEYS v) s → v < 2 ^ 32 → k < 8 → tb v (8 + k) = true →
    tb (s.reg R.QCP_MZ_KEYS) (8 + k) = false → khas s.nv.mzKeys k = false →
    ∃ t, exec (.regWrite (writeReq c R.QCP_MZ_KEYS v)) s = .next t ∧ Aside c.mbox.val s t ∧
      Answered false 0x0201 (writeReq c R.QCP_MZ_KEYS v) St.state 0 [] s t)

/-- A QCP frame taken from the buffer of TC7 goes by the first row of R150 that applies: a malformed one, one for another device and one whose tag
fails is counted and dropped; a command with the sequence expected enters the ring of its session, whose lease restarts and whose doorbell
rings; a duplicate sends the reply of its sequence again, and any other sequence is counted and dropped (R150, R158, R160). -/
def Obligations.FramesReachTheirSession : Prop :=
  ∀ (p : Fin 8) (s : State) (f : RxFrame) (r : List RxFrame), kgetD (s.port p.val).rxq 7 [] = f :: r →
    let t0 := (s.setPort p.val { s.port p.val with rxq := kset (s.port p.val).rxq 7 r }).xoffCheck p.val
    let e := parseEth f.bytes
    let b := f.bytes.drop e.off
    let m := num b 2 2 % 256
    let x := s.sess m
    (b.length < 32 → exec (.qcpFrameRx p) s = .next (t0.bump R.QCP_MALFORM_CNT)) ∧
    (32 + num b 10 2 ≤ b.length → u8 b 0 = 0x11 → num b 12 4 % 4096 ≠ s.dev → exec (.qcpFrameRx p) s = .next (t0.bump R.QCP_DEVMISS_CNT)) ∧
    (32 + num b 10 2 ≤ b.length → u8 b 0 = 0x11 → num b 12 4 % 4096 = s.dev → num b 2 2 ≠ 0 → x.st = .on → x.gen = num b 2 2 / 256 →
      x.port = p.val → x.mac = e.src →
      (tagOk x.ks b = false → exec (.qcpFrameRx p) s = .next (t0.bump R.QCP_TAGFAIL_CNT)) ∧
      (tagOk x.ks b = true → num b 4 4 = x.expect → x.cmdUsed + slotsOf (sub b 32 (num b 10 2)).length ≤ 64 → ∃ t, exec (.qcpFrameRx p) s = .next t ∧
        (t.sess m).ring = x.ring ++ [⟨false, tb (u8 b 1) 7, x.expect, u8 b 8, u8 b 9, sub b 32 (num b 10 2)⟩] ∧
        (t.sess m).expect = (x.expect + 1) % 2 ^ 32 ∧ (t.sess m).leaseEnd = s.loc + min x.lease (s.fld R.QCP_CFG_LEASE_MAX) * secI ∧
        tb (t.reg (R.QCP_DB_CMD (m / 32))) (m % 32) = true ∧ t.reg R.QCP_RX_CNT = (s.reg R.QCP_RX_CNT + 1) % 2 ^ 32 ∧
        (∀ j, j ≠ m → t.sess j = s.sess j) ∧ t.nv = s.nv ∧ t.legs = s.legs) ∧
      (tagOk x.ks b = true → x.expect < 2 ^ 32 → 0 < (num b 4 4 + 2 ^ 32 - x.expect) % 2 ^ 32 → (num b 4 4 + 2 ^ 32 - x.expect) % 2 ^ 32 < 2 ^ 31 →
        exec (.qcpFrameRx p) s = .next ((t0.renewLease m).bump R.QCP_SEQ_CNT)) ∧
      (∀ r g gs, tagOk x.ks b = true → x.expect < 2 ^ 32 → 2 ^ 31 ≤ (num b 4 4 + 2 ^ 32 - x.expect) % 2 ^ 32 →
        2 ^ 32 - (num b 4 4 + 2 ^ 32 - x.expect) % 2 ^ 32 ≤ 16 → x.replies.find? (fun y => y.seq == num b 4 4) = some r → r.frames = g :: gs →
        ∃ t, exec (.qcpFrameRx p) s = .next t ∧ (t.sess m).out = x.out ++ dupFrame x.ks g :: (if r.size ≤ 65536 then gs else []) ∧
          t.reg R.QCP_DUP_CNT = (s.reg R.QCP_DUP_CNT + 1) % 2 ^ 32 ∧ (t.sess m).ring = x.ring ∧ (∀ j, j ≠ m → t.sess j = s.sess j) ∧ t.nv = s.nv))

/-- A session opens in STARTING, at a request that QCP_FRAME_RX took or that is taken now (log entry 7), with the nonces and the key that its request and a free nonce give, waits one second for its proof, and reaches ON
with its lease when that is right; with a wrong proof, without one in time or when its lease runs out it ends, and its mailbox is free with
its generation kept; one with a command that still runs stops when that ends. Every transition is reported (R20, R154, R156, R158, R602). -/
def Obligations.SessionsOpenProveAndEnd : Prop :=
  (∀ (s : State) (r : OpenReq) (rest : List OpenReq) (k : HostKey) (m : Nat), s.qcp.jrnl = none → s.qcp.opens = r :: rest →
    kget s.nv.hostKeys (u8 r.payload 0) = some k → r.payload.length = 20 → r.more = false → s.mode = .service → s.sessCount .starting < 32 → s.freeMbox k.role = some m →
    ∃ t, exec (.sessionOpen (.open0 r)) s = .next t ∧ (t.sess m).st = .starting ∧ (t.sess m).gen = (s.sess m).gen % 255 + 1 ∧
      (t.sess m).keyId = u8 r.payload 0 ∧ (t.sess m).role = k.role ∧ (t.sess m).port = r.port.val ∧ (t.sess m).mac = r.mac.toNat ∧
      (t.sess m).tags = r.tags ∧ (t.sess m).proveBy = s.loc + secI ∧ (t.sess m).expect = 1 ∧ (t.sess m).nh = sub r.payload 4 16 ∧
      (t.sess m).np.length = 16 ∧
      (t.sess m).ks = hmac256 k.key (be 4 0x51435053 ++ (t.sess m).nh ++ (t.sess m).np ++ be 2 ((t.sess m).gen * 256 + m)) ∧
      t.qcp.opens = rest ∧ t.reg R.QCP_TX_CNT = (s.reg R.QCP_TX_CNT + 1) % 2 ^ 32 ∧ (∀ j, j ≠ m → t.sess j = s.sess j) ∧ t.nv = s.nv ∧
      t.fns = s.fns ++ [⟨.sess m, .off, .starting, s.now⟩]) ∧
  (∀ (s : State) (r : OpenReq) (rest : List OpenReq) (k : HostKey), s.qcp.jrnl = none → s.qcp.opens = r :: rest →
    kget s.nv.hostKeys (u8 r.payload 0) = some k → r.more = true →
    exec (.sessionOpen (.open0 r)) s = .next ((s.setQcp { s.qcp with opens := rest }).openReply r k.key 0 St.badLen 0 [])) ∧
  (∀ (s : State) (r : OpenReq) (k : HostKey) (m : Nat), s.qcp.jrnl = none → s.qcp.opens = [] → s.openUsed < s.fld R.QCP_CFG_OPEN_RATE →
    kget s.nv.hostKeys (u8 r.payload 0) = some k → r.payload.length = 20 → r.more = false → s.mode = .service → s.sessCount .starting < 32 →
    s.freeMbox k.role = some m → ∃ t, exec (.sessionOpen (.open0 r)) s = .next t ∧ (t.sess m).st = .starting ∧ (t.sess m).role = k.role ∧
      t.reg R.QCP_RX_CNT = (s.reg R.QCP_RX_CNT + 1) % 2 ^ 32 ∧ t.qcp.openUsed = s.openUsed + 1 ∧ (∀ j, j ≠ m → t.sess j = s.sess j) ∧ t.nv = s.nv) ∧
  (∀ (q : Req) (s : State), Ready opRefused 0x0101 q s →
    ∃ t, exec (.sessionOpen (.inSession q)) s = .next t ∧ Aside q.mbox.val s t ∧ Answered false 0x0101 q St.state 0xFFFF [] s t) ∧
  (∀ (q : Req) (s : State), let m := q.mbox.val
    let x := s.sess m
    let k := (kgetD s.nv.hostKeys x.keyId ⟨[], 0⟩).key
    x.st = .starting → s.qcp.jrnl = none → q.seq.toNat = 1 → x.ring = [] → x.expect = 1 → q.more = false → q.payload.length = 32 →
    (q.payload = hmac256 k (be 4 0x51435031 ++ x.nh ++ x.np ++ be 2 (x.num m)) → ∃ t, exec (.sessionProve q) s = .next t ∧ (t.sess m).st = .on ∧
      (t.sess m).gen = x.gen ∧ (t.sess m).role = x.role ∧ (t.sess m).lease = s.grant x.lease ∧ (t.sess m).leaseEnd = s.loc + s.grant x.lease * secI ∧
      (∀ j, j ≠ m → t.sess j = s.sess j) ∧ t.nv.hostKeys = s.nv.hostKeys ∧ t.nv.fates.getLast? = some ⟨s.reg R.FRP_BOOT, x.num m, x.keyId, 1, 0⟩) ∧
    (q.payload ≠ hmac256 k (be 4 0x51435031 ++ x.nh ++ x.np ++ be 2 (x.num m)) → ∃ t, exec (.sessionProve q) s = .next t ∧ (t.sess m).st = .off ∧
      (t.sess m).gen = x.gen ∧ (∀ j, j ≠ m → t.sess j = s.sess j) ∧ t.nv = s.nv)) ∧
  (∀ (m : Fin 256) (s : State), (s.sess m.val).st = .starting → (s.sess m.val).proveBy ≤ s.loc → (s.sess m.val).ring = [] →
    exec (.sessionProveTimeout m) s = .next (((s.setSess m.val { Session.init with gen := (s.sess m.val).gen }).setReg (R.QCP_DB_CMD (m.val / 32))
      (putBit (s.reg (R.QCP_DB_CMD (m.val / 32))) (m.val % 32) false)).went (.sess m.val) .starting .off)) ∧
  (∀ (m : Fin 256) (s : State), (s.sess m.val).st = .on → (s.sess m.val).leaseEnd ≤ s.loc → (s.sess m.val).defer = false →
    (s.sess m.val).after = none → s.qcp.jrnl = none →
    Gives (.leaseExpiry m) s [R.QCP_LEASE_EXP_CNT, R.QCP_EVT, R.QCP_DB_CMD (m.val / 32)]
      (((s.setSess m.val { Session.init with gen := (s.sess m.val).gen }).went (.sess m.val) .on .stopping).went (.sess m.val) .stopping .off)
      fun t => t.reg R.QCP_LEASE_EXP_CNT = (s.reg R.QCP_LEASE_EXP_CNT + 1) % 2 ^ 32 ∧ tb (t.reg R.QCP_EVT) 1 = true) ∧
  (∀ (m : Fin 256) (s : State), (s.sess m.val).st = .on → (s.sess m.val).leaseEnd ≤ s.loc → (s.sess m.val).defer = true →
    ∃ t, exec (.leaseExpiry m) s = .next t ∧ (t.sess m.val).st = .stopping ∧ (t.sess m.val).defer = true ∧ (t.sess m.val).gen = (s.sess m.val).gen ∧
      t.reg R.QCP_LEASE_EXP_CNT = (s.reg R.QCP_LEASE_EXP_CNT + 1) % 2 ^ 32 ∧ (∀ j, j ≠ m.val → (t.sess j).quiet = (s.sess j).quiet) ∧ t.nv = s.nv)

/-- What the commands of a session for itself do: its lease left is told, its event mask set; a close and a change of a host key wait until their
reply has left (R158, R159, R174, R187); sessions and closed gates are listed, the first in bytes that the spec leaves open (R166, R189). -/
def Obligations.SessionsSpeakOfThemselves : Prop :=
  (∀ (q : Req) (s : State), Ready opSessionKeepalive 0x0103 q s →
    Completes false (.sessionKeepalive q) 0x0103 q s s St.ok 0 (be 2 ((s.take q.mbox.val).leaseLeft q.mbox.val) ++ be 2 0)) ∧
  (∀ (q : Req) (s : State), Ready opSessionSubscribe 0x0105 q s → ∃ t, exec (.sessionSubscribe q) s = .next t ∧ Aside q.mbox.val s t ∧
    Answered false 0x0105 q St.ok 0 [] s t ∧ (t.sess q.mbox.val).mask = num q.payload 0 4) ∧
  (∀ (q : Req) (s : State), Ready opSessionClose 0x0104 q s → ∃ t, exec (.sessionClose q) s = .next t ∧ Aside q.mbox.val s t ∧
    Answered false 0x0104 q St.ok 0 [] s t ∧ (t.sess q.mbox.val).after = some (0x0104, q.payload) ∧ (t.sess q.mbox.val).st = .on) ∧
  (∀ (q : Req) (s : State), Accepted opSessionKeySet 0x0108 q s [] → ∃ t, exec (.sessionKeySet q) s = .next t ∧ Aside q.mbox.val s t ∧
    Answered false 0x0108 q St.ok 0 [] s t ∧ (t.sess q.mbox.val).after = some (0x0108, q.payload) ∧ t.nv.hostKeys = s.nv.hostKeys) ∧
  (∀ (q : Req) (s : State), Accepted opSessionKeyClear 0x0109 q s [] → ∃ t, exec (.sessionKeyClear q) s = .next t ∧ Aside q.mbox.val s t ∧
    Answered false 0x0109 q St.ok 0 [] s t ∧ (t.sess q.mbox.val).after = some (0x0109, q.payload) ∧ t.nv.hostKeys = s.nv.hostKeys) ∧
  (∀ (q : Req) (s : State), Ready opSessionList 0x0181 q s → ∃ r : Bytes, r.length = 8 * (s.take q.mbox.val).sessCount .on ∧
    Completes false (.sessionList q) 0x0181 q s s.drawn St.ok 0 r) ∧
  Does false opMuzzleStatus 0x0182 .muzzleStatus (replied fun _ s =>
    (s.qcp.gates.filter fun g => g.2.closedAt s.loc s.now).flatMap fun g => gateEntry g.1 g.2.release)

/-- Replies and events leave by the session's port on TC7 (R157, R162, R175, R176): the oldest event goes with its sequence number; a reply goes
through the reply ring, at the doorbell of the mailbox too (R191); and what waited for the reply is then done: the session ends (R159), or a
host key is set or cleared and the sessions under it end (R187). -/
def Obligations.RepliesAndEventsLeave : Prop :=
  (∀ (m : Fin 256) (s : State) (f : Bytes), (s.sess m.val).st = .on → (s.sess m.val).out = [f] → (s.sess m.val).rplRing = [] →
    (s.sess m.val).after = none → f.length ≤ 9600 → s.tc7Room (s.sess m.val).port (f.length + 18 + 4 * (s.sess m.val).tags.length) = true →
    ∃ t, exec (.replySend m) s = .next t ∧ (t.sess m.val).out = [] ∧ (t.sess m.val).rplRing = [] ∧ (t.sess m.val).st = .on ∧
      t.reg R.QCP_TX_CNT = (s.reg R.QCP_TX_CNT + 1) % 2 ^ 32 ∧ (∀ j, j ≠ m.val → t.sess j = s.sess j) ∧ t.nv = s.nv ∧ t.legs = s.legs) ∧
  (∀ (v : Word) (s : State) (f : Bytes), let m := v.toNat % 256
    (s.sess m).st = .on → (s.sess m).rplRing = [f] → (s.sess m).after = none →
    s.tc7Room (s.sess m).port (f.length + 18 + 4 * (s.sess m).tags.length) = true →
    ∃ t, exec (.qcpDbRpl v) s = .next t ∧ (t.sess m).rplRing = [] ∧ (t.sess m).out = (s.sess m).out ∧
      t.reg R.QCP_TX_CNT = (s.reg R.QCP_TX_CNT + 1) % 2 ^ 32 ∧ (∀ j, j ≠ m → t.sess j = s.sess j) ∧ t.nv = s.nv) ∧
  (∀ (m : Fin 256) (s : State) (b : Bytes), (s.sess m.val).st = .on → (s.sess m.val).out = [] → (s.sess m.val).rplRing = [] →
    (s.sess m.val).after = some (0x0104, b) → (s.sess m.val).defer = false → s.qcp.jrnl = none →
    ∃ t, exec (.replySend m) s = .next t ∧ t.sess m.val = { Session.init with gen := (s.sess m.val).gen } ∧ (∀ j, j ≠ m.val → t.sess j = s.sess j) ∧
      t.nv = s.nv ∧ t.legs = s.legs ∧ t.qcp.gates = s.qcp.gates) ∧
  (∀ (m : Fin 256) (s : State) (b : Bytes), (s.sess m.val).st = .on → (s.sess m.val).out = [] → (s.sess m.val).rplRing = [] →
    (s.sess m.val).after = some (0x0108, b) → ∃ t, exec (.replySend m) s = .next t ∧
      t.nv.hostKeys = kset s.nv.hostKeys (u8 b 0) ⟨sub b 4 32, u8 b 1⟩ ∧ t.nv.lc = s.nv.lc ∧ t.legs = s.legs) ∧
  (∀ (m : Fin 256) (s : State) (b : Bytes), (s.sess m.val).st = .on → (s.sess m.val).out = [] → (s.sess m.val).rplRing = [] →
    (s.sess m.val).after = some (0x0109, b) → ∃ t, exec (.replySend m) s = .next t ∧ t.nv.hostKeys = kdel s.nv.hostKeys (u8 b 0) ∧ t.legs = s.legs) ∧
  (∀ (m : Fin 256) (s : State) (e : Evt) (r : List Evt), (s.sess m.val).st = .on → (s.sess m.val).evq = e :: r → (s.sess m.val).evLost = 0 →
    s.tc7Room (s.sess m.val).port (66 + 4 * (s.sess m.val).tags.length + e.data.length) = true →
    ∃ t, exec (.eventSend m) s = .next t ∧ (t.sess m.val).evq = r ∧ (t.sess m.val).evSeq = (s.sess m.val).evSeq ∧
      t.reg R.QCP_TX_CNT = (s.reg R.QCP_TX_CNT + 1) % 2 ^ 32 ∧ (∀ j, j ≠ m.val → t.sess j = s.sess j)) ∧
  (∀ (m : Fin 256) (s : State), (s.sess m.val).evq = [] → exec (.eventSend m) s = .next s)

/-- The muzzle (R178-R186, R189, R191): a frame with a bad format is counted; one that passes every check closes each gate it names no later than
200 ns after it arrived and raises its key's counter; gates open at their release or by UNMUZZLE; the state is recorded when it has changed;
a muzzle key is set with its counter at 0, and its counter's upper part is read with the lower latched. -/
def Obligations.TheMuzzleClosesAndOpensGates : Prop :=
  (∀ (s : State) (z : MzIn) (r : List MzIn), s.qcp.mzIn = z :: r → muzzleFormat z.bytes = false →
    exec .muzzleFrame s = .next ((s.setQcp { s.qcp with mzIn := r }).bump R.QCP_MZ_FMT_CNT)) ∧
  (∀ (s : State) (z : MzIn) (r : List MzIn) (key : MzKey), let b := z.bytes
    s.qcp.mzIn = z :: r → muzzleFormat b = true → num b 12 4 = s.dev → kget s.nv.mzKeys (u8 b 33) = some key → tb (s.fld R.QCP_MZ_KEYS_EN) (u8 b 33) = true →
    key.ctr < num b 4 6 → num b 16 8 = (sipHash24 key.key (b.take 16 ++ sub b 32 16)).toNat →
    ∃ t, exec .muzzleFrame s = .next t ∧ kget t.nv.mzKeys (u8 b 33) = some { key with ctr := num b 4 6 } ∧ t.qcp.mzIn = r ∧ t.qcp.mzDirty = true ∧
      (∀ c ∈ gatesNamed (sub b 32 16), ∃ g, kget t.qcp.gates c = some g ∧ g.closeLoc ≤ z.loc + nsI 200 ∧ (num b 44 4 = 0 → g.release = none)) ∧
      (∀ c, c ∉ gatesNamed (sub b 32 16) → kget t.qcp.gates c = kget s.qcp.gates c) ∧
      t.reg R.QCP_MZ_ACC_CNT = (s.reg R.QCP_MZ_ACC_CNT + 1) % 2 ^ 32 ∧ tb (t.reg R.QCP_EVT) 2 = true ∧ t.legs = s.legs) ∧
  (∀ (g : Gate) (s : State) (c : Nat) (u : Inst), kget s.qcp.gates (Gate.code g) = some ⟨c, some u⟩ → u ≤ s.now →
    Gives (.gateRelease g) s [] (s.setQcp { s.qcp with gates := kdel s.qcp.gates (Gate.code g), mzDirty := true }) fun _ => True) ∧
  (∀ (g : Gate) (s : State) (c : Nat) (u : Inst), kget s.qcp.gates (Gate.code g) = some ⟨c, some u⟩ → s.now < u → exec (.gateRelease g) s = .next s) ∧
  (∀ s : State, s.qcp.mzDirty = true → exec .muzzleStateRecord s =
    .next ((s.setNv { s.nv with mzRec := (s.nv.mzKeys.map fun p => (p.1, p.2.ctr), s.qcp.gates.map (·.1)) }).setQcp { s.qcp with mzDirty := false })) ∧
  (∀ s : State, s.now / secI ≠ s.qcp.openSec → exec .openRateSecond s = .next (s.setQcp { s.qcp with openSec := s.now / secI, openUsed := 0 })) ∧
  Does false opUnmuzzle 0x0111 .unmuzzle (done fun q s =>
    let shut := (gatesNamed q.payload).filter fun c => khas s.qcp.gates c
    s.setQcp { s.qcp with gates := shut.foldl kdel s.qcp.gates, mzDirty := s.qcp.mzDirty || !shut.isEmpty }) ∧
  Does false opMuzzleKeySet 0x0112 .muzzleKeySet (done fun q s =>
    (s.setNv { s.nv with mzKeys := kset s.nv.mzKeys (u8 q.payload 0) ⟨sub q.payload 4 16, 0⟩ }).setQcp { s.qcp with mzDirty := true }) ∧
  (∀ k : Fin 8, Reads (fun p => .qcpMzCtrHiRead k p) (R.QCP_MZ_CTR_HI k.val)
    (fun i2c s =>
      let v := BitVec.ofNat 32 (kgetD s.nv.mzKeys k.val ⟨[], 0⟩).ctr
      s.setQcp (if i2c then { s.qcp with mzLatI := kset s.qcp.mzLatI k.val v } else { s.qcp with mzLatQ := kset s.qcp.mzLatQ k.val v }))
    (fun _ s => (kgetD s.nv.mzKeys k.val ⟨[], 0⟩).ctr / 2 ^ 32 % 2 ^ 32))

/-- Bulk frames join the payload of the command that awaits them, and the last one executes it (R602); a command of a code that the part does not
know is answered E_UNKNOWN_OP (R165). -/
def Obligations.BulkFramesAndUnknownCodes : Prop :=
  (∀ (m : Fin 256) (s : State) (k : Bulk) (f : CmdFrame) (r : List CmdFrame), (s.sess m.val).st = .on → (s.sess m.val).bulk = some k →
    (s.sess m.val).ring = f :: r → f.bulk = true → f.seq = k.seq → s.qcp.jrnl = none → k.fam * 256 + k.op ≠ 0x0A05 → f.more = true →
    ∃ t, exec (.bulkFrame m) s = .next t ∧ (t.sess m.val).bulk = some { k with payload := k.payload ++ f.payload } ∧ (t.sess m.val).ring = r ∧
      Aside m.val s t) ∧
  (∀ (m : Fin 256) (s : State) (k : Bulk) (f : CmdFrame) (r : List CmdFrame) (d : OpDef), (s.sess m.val).st = .on → (s.sess m.val).bulk = some k →
    (s.sess m.val).ring = f :: r → f.bulk = true → f.seq = k.seq → s.qcp.jrnl = none → k.fam * 256 + k.op ≠ 0x0A05 → f.more = false →
    opTable (k.fam * 256 + k.op) = some d → exec (.bulkFrame m) s =
      .next (execOp d ⟨m.val, k.seq, k.fam * 256 + k.op, (s.sess m.val).role, false⟩ true
        ((s.setSess m.val { s.sess m.val with ring := r, bulk := none }).unbell m.val) (k.payload ++ f.payload))) ∧
  (∀ (fam op : Byte) (q : Req) (s : State), let code := fam.toNat * 256 + op.toNat
    opTable code = none → s.turn q.mbox.val q.seq.toNat code q.more q.payload = true →
    ∃ t, exec (.unknownOperation fam op q) s = .next t ∧ Aside q.mbox.val s t ∧ Answered false code q St.unknownOp 0 [] s t)

/-- The record of a journaled command is durable before the command takes effect (R171, R420): it is the next in number, it ends the journal, and
the command is then applied with the plan that its check decided; the bulk frames of a RING_FEED act as they come from then on (R474). -/
def Obligations.TheRecordComesBeforeTheEffect : Prop :=
  ∀ (s : State) (j : Jrnl) (d : OpDef), s.qcp.jrnl = some j → opTable j.opcode = some d → s.nv.prsFailed = false →
    s.jrnlUsed + 56 + j.payload.length ≤ jrnlMax →
    ∃ (v : State) (r : JRec), v.nv.jrnl = s.nv.jrnl ++ [r] ∧ v.nv.recno = s.nv.recno + 1 ∧ r.recno = s.nv.recno + 1 ∧ r.opcode = j.opcode ∧
      r.boot = s.reg R.FRP_BOOT ∧ r.seq = j.seq ∧ r.at_ = s.now ∧ (j.opcode ≠ 0x0901 → r.payload = j.payload) ∧ v.qcp.jrnl = none ∧ v.legs = s.legs ∧
      v.armed = s.armed ∧ v.reg R.QCP_JRNL_CNT = (s.reg R.QCP_JRNL_CNT + 1) % 2 ^ 32 ∧
      exec .journalCommit s = .next (if j.opcode = 0x0A05 ∧ j.bulk = true ∧ (s.sess j.mbox).st = .on then v else (d.app (v.jctx j) j.plan v j.payload).finish (v.jctx j) v.dev true)

/-- R172: when the record cannot be committed, which is when PRS has failed or the journal is full, the command's reservation is released and
nothing of its effect happens; the reply is E_FAULT, the failure is counted and told. A duplicate resends its reply and is not journaled. -/
def Obligations.ARecordThatFailsChangesNothing : Prop :=
  (∀ (s : State) (j : Jrnl), s.qcp.jrnl = some j → (s.nv.prsFailed = true ∨ jrnlMax < s.jrnlUsed + ((s.setQcp { s.qcp with jrnl := none }).recordOf j).size) →
    (s.sess j.mbox).st = .on → (s.sess j.mbox).out = [] →
    ∃ t, exec .journalCommit s = .next t ∧ t.qcp.jrnl = none ∧ t.nv = s.nv ∧ t.beside = (s.setQcp { s.qcp with jrnl := none }).beside ∧
      (∀ a, a ≠ R.QCP_JRNL_FAIL_CNT → a ≠ R.QCP_EVT → a ≠ R.QCP_EVT_DROP_CNT → a ≠ R.QCP_DB_CMD (j.mbox / 32) → t.reg a = s.reg a) ∧
      (j.opcode = 0x0A05 → j.bulk = true → (t.sess j.mbox).bulk = none) ∧
      t.reg R.QCP_JRNL_FAIL_CNT = (s.reg R.QCP_JRNL_FAIL_CNT + 1) % 2 ^ 32 ∧ tb (t.reg R.QCP_EVT) 5 = true ∧
      (t.sess j.mbox).out = replyFrames t s.dev (s.sess j.mbox) j.mbox j.seq j.opcode St.fault 0 false [] ∧
      (∀ k, k ≠ j.mbox → (t.sess k).quiet = (s.sess k).quiet)) ∧
  (∀ (s : State) (m : Nat) (f : CmdFrame), let d := (f.seq + 2 ^ 32 - (s.sess m).expect) % 2 ^ 32
    f.bulk = false → 2 ^ 31 ≤ d → 2 ^ 32 - d ≤ 16 → s.bySeq m f = s.resend m f.seq ∧ (s.bySeq m f).nv = s.nv ∧ (s.bySeq m f).qcp.jrnl = s.qcp.jrnl)

/-! ### Legs (R52, R197-R219, R289, R299, R314, R326-R328, R336-R339, R603) -/

/-- A configuring command sets the part of the leg's configuration that it names, and nothing else: at once while the leg is OFF (R336). -/
def Obligations.ConfigurationOfALeg : Prop :=
  Does true opChanEgress 0x0306 .chanEgress (fun q s => configured 0x0306 (fun _ => none) (fun x => { x with egress := some (egressOf q.payload) }) q s) ∧
  Does true opChanPlayout 0x0308 .chanPlayout (fun q s => configured 0x0308 (fun _ => none) (fun x => { x with ply := plyOf q.payload }) q s) ∧
  Does true opChanEchoReset 0x030A .chanEchoReset (configured 0x030A (fun b => tOf (sub b 4 12)) id) ∧
  Does true opChanBridge 0x030B .chanBridge (fun q s => configured 0x030B (fun b => tOf (sub b 8 12))
    (fun x => { x with bridge := if num q.payload 4 4 = 0xFFFFFFFF then none else some (num q.payload 4 4 % 2 ^ 17) }) q s) ∧
  Does true opChanGain 0x030C .chanGain (fun q s => configured 0x030C (fun b => tOf (sub b 8 12))
    (fun x => { x with gains := kset x.gains (u8 q.payload 4) (sgn 8 (u8 q.payload 5)) }) q s) ∧
  Does true opChanGroup 0x030D .chanGroup (fun q s => configured 0x030D (fun b => tOf (sub b 8 12))
    (fun x => { x with group := if u8 q.payload 4 = 0xFF then none else some (u8 q.payload 4) }) q s) ∧
  Does true opChanToneCfg 0x030E .chanToneCfg (fun q s => configured 0x030E (fun _ => none)
    (fun x => { x with
      detPass := u8 q.payload 4 == 1
      evtIn := u8 q.payload 5
      notify := if u8 q.payload 6 = 1 then some (q.mbox.val, (s.sess q.mbox.val).gen) else none }) q s) ∧
  Does true opChanCodec 0x0311 .chanCodec (fun q s => configured 0x0311 (fun b => tOf (sub b 8 12))
    (fun x => { x with mode := u8 q.payload 4, flags := u8 q.payload 5 }) q s)

/-- Flow entries and keys: an entry is added for its leg with its learned place, a key's entries go, a key is put into the direction and
place that the command names; the next transmit key waits for its boundary, whether the leg runs or not (R198, R203). -/
def Obligations.FlowsAndKeysOfALeg : Prop :=
  Does true opChanFlowAdd 0x0304 .chanFlowAdd (done fun q s =>
    let f := flowOf q.payload
    let x := s.leg f.leg
    (s.setPke { s.pke with flows := s.pke.flows ++ [{ f with place := (s.placeFlow f).getD none }] }).setLeg f.leg
      { x with cfg := { x.cfg with ssrcFix := if u8 q.payload 13 = 1 then some (num q.payload 52 4) else none } }) ∧
  Does true opChanFlowDel 0x0305 .chanFlowDel (done fun q s =>
    s.setPke { s.pke with flows := s.pke.flows.filter fun e => !(e.leg == legOf q.payload && e.sameKey (flowOf q.payload)) }) ∧
  DoesIf (fun q _ => u8 q.payload 4 = 0) true opChanKey 0x0307 .chanKey (done fun q s =>
    let x := s.leg (legOf q.payload)
    s.setLeg (legOf q.payload) { x with cfg := { x.cfg with rx := x.cfg.rx.install q.payload } }) ∧
  DoesIf (fun q _ => u8 q.payload 4 = 1 ∧ u8 q.payload 5 = 0) true opChanKey 0x0307 .chanKey (done fun q s =>
    let x := s.leg (legOf q.payload)
    s.setLeg (legOf q.payload) { x with cfg := { x.cfg with tx := x.cfg.tx.install q.payload } }) ∧
  DoesIf (fun q _ => u8 q.payload 4 = 1 ∧ u8 q.payload 5 = 1) true opChanKey 0x0307 .chanKey (fun q s =>
    let x := s.leg (legOf q.payload)
    armedWith 0x0307 (legOf q.payload) (tOf (sub q.payload 68 12)) [] q
      (s.setLeg (legOf q.payload) { x with cfg := { x.cfg with tx := x.cfg.tx.install q.payload } }))

/-- Changes of a running leg are armed for the boundary that the command names and change nothing before it (R60, R327, R328, R339); a
disable takes a pending enable of a stopping leg back at once, and does nothing to a leg that is OFF. -/
def Obligations.ChangesOfARunningLegAreArmed : Prop :=
  DoesIf (fun q s => (s.leg (legOf q.payload)).st = .off) true opChanDisable 0x0302 .chanDisable (done fun _ s => s) ∧
  DoesIf (fun q s => (s.leg (legOf q.payload)).st = .stopping) true opChanDisable 0x0302 .chanDisable (done fun q s =>
    s.setLeg (legOf q.payload) { s.leg (legOf q.payload) with pendEn := false, held := [] }) ∧
  DoesIf (fun q s => (s.leg (legOf q.payload)).st ≠ .off ∧ (s.leg (legOf q.payload)).st ≠ .stopping) true opChanDisable 0x0302 .chanDisable
    (fun q s => armedWith 0x0302 (legOf q.payload) (tOf (sub q.payload 4 12)) [] q s) ∧
  Does true opChanTonePlay 0x030F .chanTonePlay (fun q s =>
    armedWith 0x030F (legOf q.payload) (tOf (sub q.payload (8 + 8 * u8 q.payload 5) 12)) [] q s) ∧
  Does true opChanToneStop 0x0310 .chanToneStop (fun q s => armedWith 0x0310 (legOf q.payload) (tOf (sub q.payload 8 12)) [] q s) ∧
  Does true opChanConfJoin 0x0322 .chanConfJoin (fun q s => armedWith 0x0322 (legOf q.payload) (tOf (sub q.payload 8 12)) [] q s) ∧
  Does true opChanConfLeave 0x0323 .chanConfLeave (fun q s => armedWith 0x0323 (legOf q.payload) (tOf (sub q.payload 8 12)) [] q s)

/-- An enable of a leg that is OFF, admitted at an offset, takes it to STARTING with the configuration its payload completes, at that offset
and with the period of its template, reports that, and arms its start; other legs keep everything, and beside the budgets of the swath timer nothing
else changes (R18, R20, R51, R53, R338, R339). An enable of a leg that starts or runs changes nothing. -/
def Obligations.EnableStartsALeg : Prop :=
  (∀ (q : Req) (s : State) (phi : Nat), Accepted opChanEnable 0x0301 q s [phi] → Room q s → (s.leg (legOf q.payload)).st = .off →
    ∃ e st res, Completes true (.chanEnable q) 0x0301 q s e st 0 res ∧
      (e.leg (legOf q.payload)).st = .starting ∧ (e.leg (legOf q.payload)).phi = phi ∧ (e.leg (legOf q.payload)).admitted = true ∧
      (e.leg (legOf q.payload)).f = (s.tmpl (num q.payload 4 2)).f ∧
      (e.leg (legOf q.payload)).cfg = enableCfg q.payload { (s.leg (legOf q.payload)).cfg with tmpl := num q.payload 4 2 } ∧
      (∀ j, j ≠ legOf q.payload → e.leg j = s.leg j) ∧
      (∃ w, e.armed = s.armed ++ [⟨w, 0x0301, legOf q.payload, q.payload, [phi], q.mbox.val, (s.sess q.mbox.val).gen, none⟩] ∧ st = w.status) ∧
      res.take 2 = be 2 phi ∧
      ({ e with legs := s.legs, armed := s.armed, swt := s.swt } : State).beside = (s.went (.leg (legOf q.payload)) .off .starting).beside ∧
      (∀ a, qcpReg a = false → a / 0x10000 ≠ 1 → e.reg a = s.reg a)) ∧
  DoesIf (fun q s => (s.leg (legOf q.payload)).st = .starting ∨ (s.leg (legOf q.payload)).st = .on) true opChanEnable 0x0301 .chanEnable
    (fun q s => (s, St.ok, enableRes (s.leg (legOf q.payload)).phi false (s.leg (legOf q.payload)).startSwn)) ∧
  DoesIf (fun q s => (s.leg (legOf q.payload)).st = .stopping) true opChanEnable 0x0301 .chanEnable (fun q s =>
    (s.setLeg (legOf q.payload) { s.leg (legOf q.payload) with pendEn := true, held := q.payload }, St.ok,
      enableRes (s.leg (legOf q.payload)).phi false (s.swnAt s.swt.nextT)))

/-- A graph change keeps the leg's offset and its template until its boundary, charges the leg with the larger of both costs, and is armed
(R52); so is a change of the tail of an echo canceller of a leg that is not OFF, and one of a leg that is OFF is made at once (R285, R289). -/
def Obligations.GraphChangesAreChargedAndArmed : Prop :=
  (∀ (q : Req) (s : State) (plan : List Nat), Accepted opChanGraph 0x0303 q s plan → Room q s →
    ∃ e st, Completes true (.chanGraph q) 0x0303 q s e st 0 [] ∧
      (e.leg (legOf q.payload)).phi = (s.leg (legOf q.payload)).phi ∧ (e.leg (legOf q.payload)).cfg = (s.leg (legOf q.payload)).cfg ∧
      (e.leg (legOf q.payload)).st = (s.leg (legOf q.payload)).st ∧
      ((s.leg (legOf q.payload)).admitted = true →
        (s.costOf (s.graphOf (legOf q.payload) [])).cyc ≤ (e.leg (legOf q.payload)).cost.cyc ∧
        ((∀ a ∈ s.armed, a.leg ≠ legOf q.payload) → (e.leg (legOf q.payload)).cost.cyc =
          max (s.costOf (s.graphOf (legOf q.payload) [])).cyc (s.costOf (num q.payload 4 2, (s.leg (legOf q.payload)).cfg.echo.tail)).cyc)) ∧
      (∀ j, j ≠ legOf q.payload → e.leg j = s.leg j) ∧
      (∃ w, e.armed = s.armed ++ [⟨w, 0x0303, legOf q.payload, q.payload, [], q.mbox.val, (s.sess q.mbox.val).gen, none⟩] ∧ st = w.status) ∧
      ({ e with legs := s.legs, armed := s.armed, swt := s.swt } : State).beside = s.beside ∧
      (∀ a, qcpReg a = false → a / 0x10000 ≠ 1 → e.reg a = s.reg a)) ∧
  DoesIf (fun q s => (s.leg (legOf q.payload)).st = .off) true opChanEcho 0x0309 .chanEcho (done fun q s =>
    let x := s.leg (legOf q.payload)
    s.setLeg (legOf q.payload) { x with cfg := { x.cfg with echo := echoOf q.payload } }) ∧
  (∀ (q : Req) (s : State) (plan : List Nat), Accepted opChanEcho 0x0309 q s plan → Room q s → (s.leg (legOf q.payload)).st ≠ .off →
    ∃ e st, Completes true (.chanEcho q) 0x0309 q s e st 0 [] ∧ (e.leg (legOf q.payload)).cfg = (s.leg (legOf q.payload)).cfg ∧
      (∀ j, j ≠ legOf q.payload → e.leg j = s.leg j) ∧
      (∃ w, e.armed = s.armed ++ [⟨w, 0x0309, legOf q.payload, q.payload, [], q.mbox.val, (s.sess q.mbox.val).gen, none⟩] ∧ st = w.status) ∧
      ({ e with legs := s.legs, armed := s.armed, swt := s.swt } : State).beside = s.beside ∧
      (∀ a, qcpReg a = false → a / 0x10000 ≠ 1 → e.reg a = s.reg a))

/-- A leg's RTCP interval is set for its next report (R215); a leg that is OFF loses its configuration and its flow entries when it is cleared
(R336); a conference is made without participants, and one without participants goes (R328). The status of a leg in any state is its header,
and of one that is not OFF a record of each node in order after it: of a FILTER its chain's, of an ECHO its echo's, of another node 16 bytes that
the spec does not state (log entry 14: a free value); that of a conference lists its participants, local and remote, and the members of
S with their devices (R337; the order of the fields and the bytes between them are the model's choice, log entry 15). -/
def Obligations.ConferencesReportsAndStatus : Prop :=
  Does true opChanRtcp 0x0312 .chanRtcp (done fun q s =>
    let x := s.leg (legOf q.payload)
    s.setLeg (legOf q.payload) { x with cfg := { x.cfg with rtcpS := num q.payload 4 2, xr := u8 q.payload 6 == 1 } }) ∧
  Does true opChanClear 0x0313 .chanClear (done fun q s =>
    { s with legs := kdel s.legs (legOf q.payload), pke := { s.pke with flows := s.pke.flows.filter (·.leg != legOf q.payload) } }) ∧
  Does true opChanConfCreate 0x0320 .chanConfCreate (done fun q s =>
    let c : Conf := { rate := u8 q.payload 2, f := u8 q.payload 3, n := if u8 q.payload 4 = 0 then 3 else u8 q.payload 4, hyst := u8 q.payload 5,
                      phi := none, parts := [], sel := [] }
    { s with confs := kset s.confs (num q.payload 0 2) c }) ∧
  Does true opChanConfDelete 0x0321 .chanConfDelete (done fun q s =>
    { s with confs := kdel s.confs (num q.payload 0 2), tnd := { s.tnd with cimps := s.tnd.cimps.filter fun r => r.conf != num q.payload 0 2 } }) ∧
  Does false opChanStatus 0x0381 .chanStatus (fun q s =>
    let x := s.leg (legOf q.payload)
    let r := s.nodeRecs (legOf q.payload)
    (r.1, St.ok, be 1 x.st.code ++ be 1 0 ++ be 2 x.phi ++ be 2 x.cfg.tmpl ++ be 1 (x.cfg.group.getD 0xFF) ++ be 1 0 ++
      be 4 (x.cfg.bridge.getD 0xFFFFFFFF) ++ be 2 (x.conf.getD 0xFFFF) ++ be 2 0 ++ r.2)) ∧
  (∀ (s : State) (l : Nat), ((s.leg l).st = .off → s.nodeRecs l = (s, [])) ∧
    ((s.leg l).st ≠ .off → (s.nodeRecs l).1.beside = { s.beside with free := (s.nodeRecs l).1.free } ∧
      ∀ n, (s.legTmpl l).nodes = [n] → (s.nodeRecs l).2 =
        if n.ty = 3 then (match kget (s.leg l).med.chains 0 with | some c => s.chainRec c | none => zeros 80)
        else if n.ty = 4 then s.echoRec l else s.drawBytes 16)) ∧
  (∀ (c : Conf), DoesIf (fun q s => kget s.confs (num q.payload 0 2) = some c) false opChanConfStatus 0x0382 .chanConfStatus (replied fun q s =>
    let far := s.tnd.cimps.filter fun r => r.conf == num q.payload 0 2
    be 2 (c.parts.length + far.length) ++ be 2 c.sel.length ++
      (c.parts.flatMap fun p => be 4 p.1 ++ be 1 (if p.2 then 0 else 1) ++ be 1 0 ++ be 2 s.dev) ++
      (far.flatMap fun r => be 4 r.src ++ be 2 0 ++ be 2 r.dev) ++ c.sel.flatMap fun v => be 4 (v / 4096) ++ be 2 0 ++ be 2 (v % 4096)))

/-! ### Templates, profiles and coefficient sets (R259-R261, R278-R280, R310, R315, R322, R337) -/

/-- A template is defined under its number and its costs are replied; one is deleted; a call-progress profile is armed for the next boundary;
a template is returned with its costs (R310, R315, R322, R337). -/
def Obligations.TemplatesAreDefinedAndReturned : Prop :=
  Does true opGraphDefine 0x0401 .graphDefine (fun q s =>
    let t := parseTemplate (q.payload.drop 4)
    let c := t.cost s.sets none
    ({ s with tmpls := kset s.tmpls (num q.payload 0 2) t }, St.ok,
      be 4 (t.cycles s.sets) ++ be 2 c.cyc ++ be 2 c.kib ++ be 2 c.eu ++ be 2 c.slots ++ be 1 (b2n c.full) ++ be 3 0)) ∧
  Does true opGraphDelete 0x0402 .graphDelete (done fun q s => { s with tmpls := kdel s.tmpls (num q.payload 0 2) }) ∧
  Does true opGraphCptDefine 0x0403 .graphCptDefine (fun q s => armedWith 0x0403 0 none [] q s) ∧
  Does false opGraphInfo 0x0481 .graphInfo (replied fun q s =>
    let t := s.tmpl (num q.payload 0 2)
    let c := t.cost s.sets none
    be 4 (t.cycles s.sets) ++ be 2 c.cyc ++ be 2 c.kib ++ be 2 c.eu ++ be 2 c.slots ++ be 1 (b2n c.full) ++ be 3 0 ++ t.bytes)

/-- A coefficient set is loaded under its number and freed; a bind, a phase setting and a reset of a chain are armed for the next boundary of
its leg, running or starting (R259, R271, R272, R279). A set's header and stage entries are returned, and the status of a chain in 80 bytes,
in which a stage that the chain does not have reads 0 (R278, R280); of a ROM response its stage entry, whose shift the spec does not state,
and its coefficients, and of an interpolator phase an entry that is not stated and its coefficients (R260; log entry 14: free values). -/
def Obligations.CoefficientSetsAndChains : Prop :=
  Does true opCoefSetLoad 0x0501 .coefSetLoad (done fun q s => { s with sets := kset s.sets (num q.payload 0 2) (parseSet (q.payload.drop 8)) }) ∧
  Does true opCoefSetFree 0x0502 .coefSetFree (done fun q s => { s with sets := kdel s.sets (num q.payload 0 2) }) ∧
  Does true opCoefBank 0x0503 .coefBank (fun q s => armedWith 0x0503 (num q.payload 0 4 % 2 ^ 17) none [] q s) ∧
  Does true opCoefPhase 0x0506 .coefPhase (fun q s => armedWith 0x0506 (num q.payload 0 4 % 2 ^ 17) none [] q s) ∧
  Does true opCoefSyncReset 0x0507 .coefSyncReset (fun q s => armedWith 0x0507 (num q.payload 0 4 % 2 ^ 17) none [] q s) ∧
  Does false opCoefSetInfo 0x0581 .coefSetInfo (replied fun q s =>
    let c := s.set (num q.payload 0 2)
    be 2 c.gran ++ be 2 0 ++ c.bytes.take (8 + 8 * c.stages.length)) ∧
  (∀ (c : Chain), DoesIf (fun q s => s.chainAt q.payload = some c) false opCoefChainStatus 0x0583 .coefChainStatus (replied fun _ s => s.chainRec c)) ∧
  (∀ (s : State) (c : Chain), (s.chainRec c).length = 80 ∧ ∀ i, c.layout.length ≤ i → i < 8 → num (s.chainRec c) (44 + 4 * i) 4 = 0) ∧
  DoesIf (fun q _ => u8 q.payload 0 < 64) false opCoefRomRead 0x0582 .coefRomRead (fun q s =>
    let i := u8 q.payload 0
    let (ty, m, n, g, c) := romEntry i
    (s.drawn, St.ok, be 1 (ty * 16 + m) ++ be 1 (128 + i) ++ be 2 (s.draw 5 * 2048 + n) ++ (if ty = 2 then be 2 g ++ be 2 c else zeros 4) ++
      (romCoefs i).flatMap fun x => be 4 (unsgn 32 x))) ∧
  DoesIf (fun q _ => 64 ≤ u8 q.payload 0) false opCoefRomRead 0x0582 .coefRomRead (fun q s =>
    (s.drawn, St.ok, s.drawBytes 8 ++ (phaseCoefs (u8 q.payload 0 - 64)).flatMap fun x => be 4 (unsgn 32 x)))

/-- A swap of the live bank is armed on the chain itself with its instant and fade, joins the log record of the leg's task in progress, and
is taken back by a cancel, the other chains and legs untouched (R247, R261, R409); one whose instant comes less than 2 us after now, or lies in what the chain has passed already, is answered E_LATE (R60, R262). -/
def Obligations.SwapsAreArmedOnTheChain : Prop :=
  Does true opCoefSwap 0x0504 .coefSwap (fun q s =>
    let t := tOf (sub q.payload 4 12)
    ((s.updChain (num q.payload 0 4 % 2 ^ 17) (u8 q.payload 0) fun c =>
      { c with swap := some ⟨t, num q.payload 16 2, s.loc, false, false⟩ }).logSwap (num q.payload 0 4 % 2 ^ 17),
      if (s.chainAt q.payload).any (fun c => t.any fun T => decide (T < s.now + nsI 2000) || c.passed T) then St.late else St.ok, [])) ∧
  Does true opCoefSwapCancel 0x0505 .coefSwapCancel (done fun q s =>
    s.updChain (num q.payload 0 4 % 2 ^ 17) (u8 q.payload 0) fun c => { c with swap := none })

/-! ### The PTP stack's settings, captures, patterns and rings (R96, R97, R457-R484) -/

/-- TIME_CLOCK, TIME_PORT and TIME_UNICAST replace the settings that the PTP stack runs by, of the clock, of one port and of the masters of one
port (R96, R97). The status operations return the settings, LOCK and a state code of
IEEE 1588 for each port, DISABLED of one that is not enabled; what else they return the PTP stack found, and the spec does not say how
(log entry 14: a free value). -/
def Obligations.TheTimeProfileIsSet : Prop :=
  Does true opTimeClock 0x0601 .timeClock (done fun q s => s.setTmu { s.tmu with ptpRole := q.payload }) ∧
  Does true opTimePort 0x0602 .timePort (done fun q s => s.setTmu { s.tmu with ptpPorts := kset s.tmu.ptpPorts (u8 q.payload 0) q.payload }) ∧
  Does true opTimeUnicast 0x0603 .timeUnicast (done fun q s => s.setTmu { s.tmu with ptpUnicast := kset s.tmu.ptpUnicast (u8 q.payload 0) q.payload }) ∧
  Does false opTimeStatus 0x0681 .timeStatus (fun _ s => (s.drawn, St.ok,
    (List.range 7).map (s.ptpPortState (s.drawBytes 44)) ++ zeros 1 ++ sub (s.drawBytes 44) 7 21 ++ zeros 3 ++
      sub (s.drawBytes 44) 28 16 ++ be 1 s.tmu.srv.lock.code ++ zeros 3)) ∧
  (∀ (s : State) (d : Bytes) (p : Nat), 1 ≤ (s.ptpPortState d p).toNat ∧ (s.ptpPortState d p).toNat ≤ 9 ∧
    (s.ptpRole = 0 ∨ u8 (kgetD s.tmu.ptpPorts p []) 1 ≠ 1 → s.ptpPortState d p = 3)) ∧
  Does false opTimePortStatus 0x0682 .timePortStatus (fun q s => (s.drawn, St.ok,
    kgetD s.tmu.ptpPorts (u8 q.payload 0) (be 1 (u8 q.payload 0) ++ zeros 35) ++
      (if s.ptpRole ≠ 0 ∧ s.ptpProfile = 2 then be 2 (s.draw 32 % 513) ++ be 1 (s.draw 32 / 1024 % 5) else zeros 3) ++ zeros 1))

/-- A capture is opened with its settings and closed (R457-R460); enabled from OFF it starts with an empty buffer, and while STOPPING the enable is
held (R18, R457); disabled it stops at the end of Emit (R465). A trigger that fires is recorded with its instant, a further one only counted
(R460-R463). An export starts at the oldest byte present (R469), and a read at or after it (R470). -/
def Obligations.CapturesAreOpenedRunAndRead : Prop :=
  Does true opCaptOpen 0x0801 .captOpen (done fun q s =>
    let b := q.payload
    s.setCap (u8 b 0) { Capture.init with
      isOpen := true, stopMode := u8 b 1 == 1, bale := tb (u8 b 2) 0, mib := num b 4 2, snap := (if num b 6 2 = 0 then 9600 else num b 6 2)
      src := sourceOf (b.drop 8) 4 8, trig := u8 b 17, tone := u8 b 18, pre := num b 20 4 * 1000, post := num b 24 4 * 1000
      timeT := bytesTime (sub b 28 12), filt := cmpOf (b.drop 40), tcmp := cmpOf (b.drop 108) }) ∧
  Does true opCaptClose 0x0802 .captClose (done fun q s => s.setGrn { s.grn with caps := kdel s.grn.caps (u8 q.payload 0) }) ∧
  DoesIf (fun q s => (s.cap (u8 q.payload 0)).st = .off) true opCaptEnable 0x0803 .captEnable (done fun q s =>
    let x := s.cap (u8 q.payload 0)
    let t := s.setCap (u8 q.payload 0) { x.start s.now with exp := x.exp.map fun j => { j with pos := 0 } }
    if x.trig = 3 ∧ x.timeT < s.now then t.fireTrigger (u8 q.payload 0) x.timeT true else t) ∧
  DoesIf (fun q s => (s.cap (u8 q.payload 0)).st = .stopping) true opCaptEnable 0x0803 .captEnable (done fun q s =>
    s.setCap (u8 q.payload 0) { s.cap (u8 q.payload 0) with pendEn := true }) ∧
  DoesIf (fun q s => (s.cap (u8 q.payload 0)).st = .on) true opCaptEnable 0x0803 .captEnable (done fun _ s => s) ∧
  DoesIf (fun q s => (s.cap (u8 q.payload 0)).st = .on ∧ s.swt.begun = true) true opCaptDisable 0x0804 .captDisable (done fun q s =>
    s.setCap (u8 q.payload 0) { s.cap (u8 q.payload 0) with st := .stopping, disAt := some s.now }) ∧
  DoesIf (fun q s => (s.cap (u8 q.payload 0)).tt.isSome = true) true opCaptTrigger 0x0805 .captTrigger (done fun _ s => s.bump R.GRN_TRIG_EXTRA_CNT) ∧
  DoesIf (fun q s => (s.cap (u8 q.payload 0)).tt = none) true opCaptTrigger 0x0805 .captTrigger (done fun q s =>
    let c := u8 q.payload 0
    let x := s.cap c
    let w0 : Int := (s.now : Int) - x.pre * 65536
    let short := x.pre != 0 && (decide (w0 < x.enAt) || match x.overStamp with | some o => decide (w0 ≤ (o : Int)) | none => false)
    (((s.setCap c { x with tt := some s.now, late := false, preShort := short }).bump R.GRN_TRIG_CNT).raise R.GRN_EVT 1).capWrite c
      (fun rs fl => record 4 fl c x.trig [] 0 s.now 0 none rs 0 0) s.now) ∧
  Does true opCaptExport 0x0806 .captExport (done fun q s =>
    let x := s.cap (u8 q.payload 0)
    s.setCap (u8 q.payload 0) { x with exp := some ⟨destOf (q.payload.drop 1), x.oldest, false, s.loc⟩ }) ∧
  Does false opCaptRead 0x0881 .captRead (replied fun q s =>
    let x := s.cap (u8 q.payload 0)
    let p := max (num q.payload 4 8) x.oldest
    let d := x.bytesAt p (num q.payload 12 4)
    be 8 p ++ be 4 d.length ++ d) ∧
  Does false opCaptStatus 0x0882 .captStatus (replied fun q s =>
    let x := s.cap (u8 q.payload 0)
    be 4 x.stat ++ be 8 x.off ++ be 4 x.rseq ++ timeBytes (x.tt.getD 0)) ∧
  (∀ (c : Fin 16) (s : State), (s.cap c.val).st = .on → (s.cap c.val).trig = 3 → (s.cap c.val).tt = none → (s.cap c.val).timeT ≤ s.now →
    exec (.captureTimeTrigger c) s = .next (s.fireTrigger c.val (s.cap c.val).timeT false)) ∧
  (∀ (c : Fin 16) (s : State), s.now < (s.cap c.val).timeT → exec (.captureTimeTrigger c) s = .next s) ∧
  (∀ (c : Fin 16) (s : State) (j : ExpJob), (s.cap c.val).exp = some j → j.nextAt ≤ s.loc → s.grn.expAt ≤ s.loc → j.resync = false →
    (s.cap c.val).oldest ≤ j.pos → ((s.cap c.val).bytesAt j.pos (s.dataRoom j.dest)).length = s.dataRoom j.dest →
    ((s.cap c.val).st ≠ .off ∨ j.pos + s.dataRoom j.dest < (s.cap c.val).off) →
    let d := (s.cap c.val).bytesAt j.pos (s.dataRoom j.dest)
    let b := s.dataFrame j.dest 1 (b2n (s.cap c.val).bale * 32) c.val j.pos d
    exec (.exportFrameSend (.capture c)) s = .next ((s.setCap c.val { s.cap c.val with
      exp := some { j with pos := j.pos + s.dataRoom j.dest, nextAt := s.loc + paceI (flen b) j.dest.mbps } }).sendData j.dest b (.xport true c.val)
        true true)) ∧
  (∀ (c : Fin 16) (s : State) (j : ExpJob), (s.cap c.val).exp = some j → (s.loc < j.nextAt ∨ s.loc < s.grn.expAt) →
    exec (.exportFrameSend (.capture c)) s = .next s) ∧
  (∀ (r : Fin 16) (s : State) (e : Nat × Bytes × Nat) (es : List (Nat × Bytes × Nat)), (s.gring 0 r.val).nextAt ≤ s.loc → s.grn.expAt ≤ s.loc →
    fitEntries (s.dataRoom (s.gring 0 r.val).dest) (s.gring 0 r.val).ents = e :: es →
    let x := s.gring 0 r.val
    let b := s.dataFrame x.dest 2 0 r.val e.1 ((e :: es).flatMap fun q => q.2.1)
    exec (.exportFrameSend (.tap r)) s = .next (((s.setGring 0 r.val { x with
      ents := x.ents.drop (es.length + 1), nextAt := s.loc + paceI (flen b) x.dest.mbps }).sendData x.dest b (.xport false r.val) true true).ringRest 0 r.val)) ∧
  Reads .grnCapStrmHiRead R.GRN_CAP_STRM_HI (fun i s =>
    let lo := (s.cap (s.fld R.GRN_SEL_CAPT)).off % 2 ^ 32
    if i then s.setGrn { s.grn with strmLatI := lo } else s.setGrn { s.grn with strmLatQ := lo }) (fun _ s => (s.cap (s.fld R.GRN_SEL_CAPT)).off / 2 ^ 32)

/-- A pattern is stored from a load or a capture and deleted (R471, R477); a player is armed with it, starts when its start is reached, releases each
item at its instant, and ends with its last repeat or when it is stopped (R478-R480); a player that is not OFF is left as it is (R18). A tap or inject ring is opened, enabled, disabled and
closed (R472), and an inject entry goes to its queue at its launch instant, with its write-back sent on (R476). -/
def Obligations.PatternsArePlayedAndRingsInject : Prop :=
  (∀ (q : Req) (s : State) (plan : List Nat) (d : Bytes), Accepted opPattLoad 0x0901 q s plan → Room q s → pattStream q.payload = .inr d →
    Completes true (.pattLoad q) 0x0901 q s (s.setGrn { s.grn with pats := kset s.grn.pats (num q.payload 0 2) (patternOf d) }) St.ok 0 []) ∧
  Does true opPattFromCapt 0x0902 .pattFromCapt (done fun q s =>
    let p := patternOf ((s.cap (u8 q.payload 2)).bytesAt (num q.payload 4 8) (num q.payload 12 8))
    s.setGrn { s.grn with pats := kset s.grn.pats (num q.payload 0 2) p }) ∧
  Does true opPattDelete 0x0903 .pattDelete (done fun q s => s.setGrn { s.grn with pats := kdel s.grn.pats (num q.payload 0 2) }) ∧
  DoesIf (fun q s => (s.player (u8 q.payload 0)).st = .off ∧ s.now + nsI 20000 ≤ bytesTime (sub q.payload 20 12)) true opPattPlay 0x0904 .pattPlay (done fun q s =>
    let b := q.payload
    s.setPlayer (u8 b 0) { Player.init with
      st := .starting, pat := num b 4 2, start := bytesTime (sub b 20 12), reps := num b 6 2, per := num b 8 8 * 65536
      port := (if tb (u8 b 1) 0 then some (u8 b 2) else none), cls := (if tb (u8 b 1) 1 then some (u8 b 3) else none)
      leg := (if num b 16 4 = 0xFFFFFFFF then none else some (num b 16 4 % 2 ^ 17)) }) ∧
  (∀ (q : Req) (s : State), Accepted opPattPlay 0x0904 q s [] → Room q s →
    (s.player (u8 q.payload 0)).st = .off → num q.payload 6 2 = 1 → bytesTime (sub q.payload 20 12) < s.now + nsI 20000 →
    ∃ e, Completes true (.pattPlay q) 0x0904 q s e St.late 0 [] ∧ (e.player (u8 q.payload 0)).st = .starting ∧ (e.player (u8 q.payload 0)).late = true ∧
      (e.player (u8 q.payload 0)).start + (e.player (u8 q.payload 0)).shift = tickAt (s.now + nsI 20000)) ∧
  DoesIf (fun q s => (s.player (u8 q.payload 0)).st = .off ∧ num q.payload 6 2 = 0 ∧ bytesTime (sub q.payload 20 12) < s.now + nsI 20000) true opPattPlay 0x0904 .pattPlay (done fun q s =>
    let b := q.payload
    let k := cdiv (s.now + nsI 20000 - bytesTime (sub b 20 12)) (num b 8 8 * 65536)
    ((s.setPlayer (u8 b 0) { Player.init with
      st := .starting, pat := num b 4 2, start := bytesTime (sub b 20 12), reps := 0, per := num b 8 8 * 65536, rep := k, done := min 65535 k
      port := (if tb (u8 b 1) 0 then some (u8 b 2) else none), cls := (if tb (u8 b 1) 1 then some (u8 b 3) else none)
      leg := (if num b 16 4 = 0xFFFFFFFF then none else some (num b 16 4 % 2 ^ 17)) }).bumpBy R.GRN_PLAY_SKIP_CNT k).bumpBy R.SWT_SKIP_OCC_CNT k) ∧
  DoesIf (fun q s => (s.player (u8 q.payload 0)).st ≠ .off) true opPattPlay 0x0904 .pattPlay (done fun _ s => s) ∧
  DoesIf (fun q s => (s.player (u8 q.payload 0)).st ≠ .off) true opPattStop 0x0905 .pattStop (done fun q s =>
    (s.setPlayer (u8 q.payload 0) { s.player (u8 q.payload 0) with st := .off, pendEn := false }).raise R.GRN_EVT 32) ∧
  DoesIf (fun q s => (s.player (u8 q.payload 0)).st = .off) true opPattStop 0x0905 .pattStop (done fun _ s => s) ∧
  Does false opPattInfo 0x0981 .pattInfo (replied fun q s => match kget s.grn.pats (num q.payload 0 2) with
    | none => zeros 24
    | some p => be 1 (if p.empty then 2 else 1) ++ zeros 3 ++ be 8 p.bytes ++ be 4 p.items.length ++ be 8 (p.span / 65536)) ∧
  (∀ (p : Fin 64) (s : State), (s.player p.val).st = .starting → (s.player p.val).late = false →
    (s.player p.val).start + (s.player p.val).shift + (s.player p.val).rep * (s.player p.val).per ≤ s.now →
    exec (.timedActionExec (.play p)) s = .next (s.setPlayer p.val { s.player p.val with st := .on })) ∧
  (∀ (n : Fin 4) (s : State), exec (.timedActionExec (.tout n)) s = exec (.toutPulse n) s) ∧
  (∀ (p : Fin 64) (s : State) (i : PItem), (s.player p.val).st = .on → (s.patOf (s.player p.val).pat).items[(s.player p.val).item]? = some i →
    let x := s.player p.val
    let v := x.start + x.shift + x.rep * x.per + i.di
    (s.now < v → exec (.patternItemRelease p) s = .next s) ∧
    (v ≤ s.now → x.passed ≤ v → i.kind ≠ 3 →
      let r := ((s.bump R.GRN_PLAY_ITEM_CNT).txRequest (x.port.getD i.port % 8)
        { TxFrame.plain i.data (x.cls.getD i.cls) (.pattern p.val) with playback := true }).1
      (x.item + 1 < (s.patOf x.pat).items.length → exec (.patternItemRelease p) s = .next (r.setPlayer p.val { x with item := x.item + 1 })) ∧
      ((s.patOf x.pat).items.length = x.item + 1 → (x.reps = 0 ∨ x.rep + 1 < x.reps) → exec (.patternItemRelease p) s =
        .next (r.setPlayer p.val { x with item := 0, rep := x.rep + 1, done := min 65535 (x.done + 1) })))) ∧
  DoesIf (fun q _ => u8 q.payload 1 = 0) true opRingOpen 0x0A01 .ringOpen (done fun q s =>
    let b := q.payload
    s.setGring 0 (u8 b 0) { GRing.init with
      isOpen := true, n := u8 b 2, dest := destOf (b.drop 85), mib := cdiv (2 ^ u8 b 2 * 2048) 1048576, src := sourceOf (b.drop 4) 4 8
      snap := (if num b 14 2 = 0 then 9600 else num b 14 2), filt := cmpOf (b.drop 16) }) ∧
  DoesIf (fun q _ => u8 q.payload 1 = 1) true opRingOpen 0x0A01 .ringOpen (done fun q s =>
    let b := q.payload
    s.setGring 1 (u8 b 0) { GRing.init with isOpen := true, n := u8 b 2, dest := destOf (b.drop 5), mib := cdiv (2 ^ u8 b 2 * 9632) 1048576 }) ∧
  Does true opRingClose 0x0A02 .ringClose (done fun q s =>
    if u8 q.payload 1 = 0 then s.setGrn { s.grn with taps := kdel s.grn.taps (u8 q.payload 0) }
    else s.setGrn { s.grn with injs := kdel s.grn.injs (u8 q.payload 0) }) ∧
  DoesIf (fun q s => (s.gring (u8 q.payload 1) (u8 q.payload 0)).st = .off) true opRingEnable 0x0A03 .ringEnable (done fun q s =>
    s.setGring (u8 q.payload 1) (u8 q.payload 0) { s.gring (u8 q.payload 1) (u8 q.payload 0) with
      st := .on, idx := 0, credit := 0, ents := [], launched := 0, wbs := [], wbNext := 0 }) ∧
  DoesIf (fun q s => (s.gring (u8 q.payload 1) (u8 q.payload 0)).st = .stopping) true opRingEnable 0x0A03 .ringEnable (done fun q s =>
    s.setGring (u8 q.payload 1) (u8 q.payload 0) { s.gring (u8 q.payload 1) (u8 q.payload 0) with pendEn := true }) ∧
  Does true opRingDisable 0x0A04 .ringDisable (done fun q s => s.ringStop (u8 q.payload 1) (u8 q.payload 0)) ∧
  Does true opRingFeed 0x0A05 .ringFeed (done fun _ s => s) ∧
  Does false opRingStatus 0x0A81 .ringStatus (replied fun q s =>
    let x := s.gring (u8 q.payload 1) (u8 q.payload 0)
    be 1 x.st.code ++ zeros 3 ++ be 8 x.idx ++ be 8 (if u8 q.payload 1 = 0 then x.credit else x.wbNext)) ∧
  (∀ (r : Fin 16) (s : State) (i a : Nat) (e : Bytes), (s.gring 1 r.val).st = .on →
    (s.gring 1 r.val).ents.find? (fun e => e.1 == (s.gring 1 r.val).launched) = some (i, e, a) → u8 e 32 ≠ 1 →
    (bytesTime (sub e 8 12) ≠ 0 ∧ s.now < bytesTime (sub e 8 12) → exec (.injectLaunch r) s = .next s) ∧
    (bytesTime (sub e 8 12) = 0 ∨ bytesTime (sub e 8 12) ≤ s.now →
      let x := s.gring 1 r.val
      let s1 := s.setGring 1 r.val { x with launched := x.launched + 1 }
      (6 < u8 e 2 ∨ 7 < u8 e 1 → exec (.injectLaunch r) s = .next (s1.injRefuse r.val i e St.state)) ∧
      (u8 e 2 ≤ 6 → u8 e 1 ≤ 7 →
        (s1.txRequest (u8 e 1) { TxFrame.plain (e.drop 33) (u8 e 2) (.inject r.val i) with tsReq := tb (u8 e 0) 7 }).2 = true →
        exec (.injectLaunch r) s =
          .next ((s1.txRequest (u8 e 1) { TxFrame.plain (e.drop 33) (u8 e 2) (.inject r.val i) with tsReq := tb (u8 e 0) 7 }).1.bump R.GRN_INJ_ENT_CNT)))) ∧
  (∀ (r : Fin 16) (s : State) (w : Nat × Bytes × Nat) (ws : List (Nat × Bytes × Nat)),
    (wbRun (s.gring 1 r.val).wbs.length (s.gring 1 r.val).wbs (s.gring 1 r.val).wbNext).take (s.dataRoom (s.gring 1 r.val).dest / 32) = w :: ws →
    7 ≤ ws.length → (s.gring 1 r.val).nextAt ≤ s.loc →
    let x := s.gring 1 r.val
    let b := s.dataFrame x.dest 3 0 r.val w.1 ((w :: ws).flatMap fun q => q.2.1)
    exec (.injectDoneSend r) s = .next (((s.setGring 1 r.val { x with
      wbs := x.wbs.filter fun q => !(w :: ws).contains q, wbNext := x.wbNext + (ws.length + 1)
      nextAt := s.loc + paceI (flen b) x.dest.mbps }).sendData x.dest b .none false false).ringRest 1 r.val))

/-! ### Tandem chains, and the registers of the engines (R242, R282, R308, R362-R367, R401, R428-R455, R501) -/

/-- A route is replaced and a ring set, which returns routes to their primaries and moves the block (R439, R443, R444). An export, an import, a
remote talker of a conference and a migration either way are noted and armed for the boundary that T names (R441, R448-R452); a migration in is
admitted at its source's offset (R452). The device number and the window are stored (R441, R455). -/
def Obligations.TandemPathsAreSetAndArmed : Prop :=
  Does true opTandRoute 0x0B01 .tandRoute (done fun q s => s.setTnd { s.tnd with routes := kset s.tnd.routes (num q.payload 0 2) (routeOf q.payload) }) ∧
  Does true opTandRing 0x0B02 .tandRing (done fun q s =>
    let b := q.payload
    let t := s.setReg R.TND_RING (2 ^ 31 + u8 b 0 * 2 ^ 24 + u8 b 1 * 2 ^ 20 + u8 b 2 * 2 ^ 16)
    ((t.setTnd { t.tnd with
      routes := t.tnd.routes.map fun r => (r.1, { r.2 with alt := false })
      links := t.tnd.links.map fun l => (l.1, { l.2 with failed := false })
      seenRf := [] }).setFld R.TND_STAT_RING_FAILED 0).reblock) ∧
  DoesIf (fun q s => s.tnd.exps.any (fun x => x.leg == legOf q.payload && x.dev == num q.payload 4 2) = false) true opTandExport 0x0B03 .tandExport
    (fun q s => armedWith 0x0B03 (legOf q.payload) (tOf (sub q.payload 8 12)) [] q
      (s.setTnd { s.tnd with exps := s.tnd.exps ++ [⟨legOf q.payload, num q.payload 4 2, false⟩] })) ∧
  DoesIf (fun q s => s.tnd.exps.any (fun x => x.leg == legOf q.payload && x.dev == num q.payload 4 2) = true) true opTandExport 0x0B03 .tandExport
    (fun q s => armedWith 0x0B03 (legOf q.payload) (tOf (sub q.payload 8 12)) [] q s) ∧
  Does true opTandExportDel 0x0B04 .tandExportDel (fun q s => armedWith 0x0B04 (legOf q.payload) (tOf (sub q.payload 8 12)) [] q s) ∧
  Does true opTandImport 0x0B05 .tandImport (fun q s =>
    let b := q.payload
    let i : TImport := ⟨legOf b, num b 4 2, num b 8 4, u8 b 6, u8 b 7, num b 12 2, u8 b 14, false⟩
    armedWith 0x0B05 (legOf b) (tOf (sub b 16 12)) [] q (s.setTnd { s.tnd with imps := s.tnd.imps.filter (fun y => y.leg != legOf b) ++ [i] })) ∧
  Does true opTandImportDel 0x0B06 .tandImportDel (fun q s => armedWith 0x0B06 (legOf q.payload) (tOf (sub q.payload 4 12)) [] q s) ∧
  (∀ (q : Req) (s : State) (c : Conf) (plan : List Nat), Accepted opTandConfImport 0x0B07 q s plan → Room q s → kget s.confs (num q.payload 0 2) = some c →
    let b := q.payload
    let e := armedWith 0x0B07 0 (tOf (sub b 12 12)) [] q { s with
      tnd := { s.tnd with cimps := s.tnd.cimps ++ [⟨num b 0 2, num b 2 2, num b 4 4, num b 8 2, false⟩] }
      confs := kset s.confs (num b 0 2) { c with phi := some (num b 8 2) } }
    Completes true (.tandConfImport q) 0x0B07 q s e.1 e.2.1 0 []) ∧
  Does true opTandMigrateOut 0x0B08 .tandMigrateOut (fun q s =>
    armedWith 0x0B08 (legOf q.payload) (tOf (sub q.payload 12 12)) [] q
      (s.setTnd { s.tnd with outs := s.tnd.outs ++ [⟨legOf q.payload, num q.payload 4 2, num q.payload 8 4, none, []⟩] })) ∧
  (∀ (q : Req) (s : State) (phi : Nat), Accepted opTandMigrateIn 0x0B09 q s [phi] → Room q s →
    let b := q.payload
    let l := legOf b
    let x := s.leg l
    let t := s.legTmpl l
    let y : Leg := { Leg.init with cfg := x.cfg, st := .starting, f := t.f, phi := phi, cluster := s.homeCluster phi }
    let e := armedWith 0x0B09 l (tOf (sub b 16 12)) [phi] q (((s.setLeg l y).charge l (t.cost s.sets x.cfg.echo.tail)).went (.leg l) .off .starting)
    Completes true (.tandMigrateIn q) 0x0B09 q s (e.1.setTnd { e.1.tnd with ins := e.1.tnd.ins ++ [⟨l, num b 4 2, num b 8 4, s.arm (tOf (sub b 16 12)), none, []⟩] })
      e.2.1 0 []) ∧
  Does false opTandStatus 0x0B81 .tandStatus (replied fun _ s =>
    (List.range 8).flatMap (fun p => be 1 (s.tlink p).st) ++ (List.range 8).flatMap fun p => be 4 (s.portPeak p)) ∧
  (∀ v : Word, Writes (fun c => .tndDevnoWrite c v) (fun _ => R.TND_CFG) (fun _ => v.toNat) (fun s => s.stored R.TND_CFG v.toNat)) ∧
  (∀ v : Word, Writes (fun c => .tndWinWrite c v) (fun _ => R.TND_WIN) (fun _ => v.toNat) (fun s => s.stored R.TND_WIN v.toNat))

/-- PEAK_CLR takes a block's peaks back to what is in use now, and stores nothing in its control register (R242, R282, R308, R367, R401, R428, R501);
HIST_CLR and another choice of histogram empty the bins (R365); refusing back-pressure takes what is held out of force (R362), and stealing that
is allowed again gives idle cores what they may now take (R346); an engine's EN bit
is stored as it is (R599). -/
def Obligations.PeaksClearAndEnginesAreEnabled : Prop :=
  Writes .plyCtlPeakClr (fun _ => R.PLY_CTL) (fun _ => 1) (fun s =>
    let t := s.stored R.PLY_CTL 1
    t.setFld R.PLY_POOL_PEAK_CELLS t.plyUsed) ∧
  (∀ e : Fin 16, Writes (fun c => .fceCtlPeakClr e c) (fun _ => R.FCE_CTL e.val) (fun _ => 1) (fun s =>
    let t := s.stored (R.FCE_CTL e.val) 1
    t.setFld (R.FCE_LOAD_PEAK e.val) (t.fld (R.FCE_LOAD_LAST e.val)))) ∧
  (∀ e : Fin 32, Writes (fun c => .eceCtlPeakClr e c) (fun _ => R.ECE_CTL e.val) (fun _ => 1) (fun s =>
    let t := s.stored (R.ECE_CTL e.val) 1
    (t.setFld (R.ECE_LOAD_PEAK e.val) (t.fld (R.ECE_LOAD_LAST e.val))).setFld (R.ECE_QUEUE_PEAK e.val) (t.queued (32 + e.val)))) ∧
  Writes .knlCtlPeakClr (fun _ => R.KNL_CTL) (fun _ => 1) (fun s =>
    let t := s.stored R.KNL_CTL 1
    ((t.setFld R.KNL_POOL_FRAME_PEAK (s.poolUsed 0)).setFld R.KNL_POOL_SYS_PEAK (s.poolUsed 1)).setFld R.KNL_POOL_SHR_PEAK_PEAK (s.poolUsed 2)) ∧
  Writes .knlCtlHistClr (fun _ => R.KNL_CTL) (fun _ => 2) (fun s => (s.stored R.KNL_CTL 2).histClear) ∧
  (∀ v : Word, Writes (fun c => .knlHistSelWrite c v) (fun _ => R.KNL_HIST_SEL) (fun _ => v.toNat) (fun s =>
    let t := s.stored R.KNL_HIST_SEL v.toNat
    if bits v.toNat 4 0 = bits (s.reg R.KNL_HIST_SEL) 4 0 then t else t.histClear)) ∧
  (∀ v : Word, Writes (fun c => .knlRefuseWrite c v) (fun _ => R.KNL_CFG) (fun _ => v.toNat) (fun s =>
    let t := s.stored R.KNL_CFG v.toNat
    let u := if tb v.toNat 0 ∧ ¬ tb (s.reg R.KNL_CFG) 0 then t.setKnl { s.knl with bp := [] } else t
    if tb v.toNat 1 ∧ ¬ tb (s.reg R.KNL_CFG) 1 then u.wakeCores else u)) ∧
  Writes .mmuCtlPeakClr (fun _ => R.MMU_CTL) (fun _ => 1) (fun s =>
    let t := (s.stored R.MMU_CTL 1).setFld R.MMU_STAGE_PEAK_PEAK (cdiv s.stageUsed 16)
    t.setMmu { t.mmu with engs := t.mmu.engs.map fun p => (p.1, { p.2 with peak := p.2.last }) }) ∧
  Writes .frpCtlPeakClr (fun _ => R.FRP_CTL) (fun _ => 1) (fun s =>
    ((s.stored R.FRP_CTL 1).setFld R.FRP_RSV_PEAK s.rsvUsed).setFld R.FRP_LOG_PEAK (cdiv s.frp.logU 16)) ∧
  Writes .balCtlPeakClr (fun _ => R.BAL_CTL) (fun _ => 1) (fun s => (List.range 4).foldl (fun t e =>
    let x := (t.beng e).roll t.msNow
    t.setBeng e { x with peak := x.last }) (s.stored R.BAL_CTL 1)) ∧
  Writes .glnCtlCut (fun _ => R.GLN_CTL) (fun _ => 1) (fun s => (s.stored R.GLN_CTL 1).cutAll 3) ∧
  (∀ v : Word, Writes (fun c => .glnCfgEnWrite c v) (fun _ => R.GLN_CFG) (fun _ => v.toNat) (fun s => s.stored R.GLN_CFG v.toNat)) ∧
  Reads .faultRecordPop R.FRP_REC_POP (fun i2c s => match s.frp.recs with
    | [] => s.setReg R.FRP_REC_POP 0
    | b :: r =>
      let t := (s.setFrp { s.frp with recs := r, latI := if i2c then b else s.frp.latI }).setReg R.FRP_REC_POP (r.length * 2 + 1)
      if i2c then t else (List.range 8).foldl (fun st k => st.setReg (R.FRP_REC k) (num b (4 * k) 4)) t) (fun _ s => s.reg R.FRP_REC_POP) ∧
  Reads .glnRecPopRead R.GLN_REC_POP (fun i2c s => match s.gln.recs with
    | [] => s.setReg R.GLN_REC_POP 0
    | b :: r =>
      let t := (s.setGln { s.gln with recs := r, latI := if i2c then b else s.gln.latI }).setReg R.GLN_REC_POP (r.length * 2 + 1)
      if i2c then t else (List.range 8).foldl (fun st k => st.setReg (R.GLN_REC k) (num b (4 * k) 4)) t) (fun _ s => s.reg R.GLN_REC_POP)

/-! ### Tasks, engines and faults (R246, R303, R342-R357, R391-R418, R599) -/

/-- What a core's task does. A stage-in that ends writes its completion and makes its FRAME task ready, but for one whose parcels are gathered yet
(R364, R389, R396); none ends while its engine restages a replay (R413). What firmware and background work create gets entries
while the SYS pool has them, is refused in refusal mode, E_BUSY to the firmware, and else is held until one frees (R361, R362). A media task is DONE
once its engine calls have all been made, before the Work deadline (R354), and its core takes the next (R342, R346); a task without a leg is freed. A chain call and a canceller call go to the
engine that R246 or R303 chooses, and to no other, a slice on it aborted (R246, R303), with its dispatch instant and the swap armed then logged (R247, R409),
and end as the core goes on (log entry 80, the model's choice). A task that meets a moving page outside its core's local window is switched
out or waits there (R391, R394). The EN bit of an engine starts and stops it, a disable in STARTING is held, a tick completes that (R18, R599;
log entry 70). -/
def Obligations.TasksRunAndCallEngines : Prop :=
  (∀ (l : Fin 131072) (s : State) (a : Area), s.mmu.areas.find? (fun a => a.leg == l.val && a.st == 1) = some a → s.frontArea a.eng 1 4 = some a →
    let n := a.kib * 1024
    let t := (((s.kennelDone a St.ok n 0).setAreaSt a 2).moved a.eng n).dengRest a.eng
    let u := t.setKnl { t.knl with lastStage := if s.swt.bT < a.b then some s.loc else t.knl.lastStage }
    (s.restages a.eng ≠ [] → exec (.stageInDone l) s = .next s) ∧
    (s.restages a.eng = [] → u.legTask l.val = none → exec (.stageInDone l) s = .next u) ∧
    (∀ i k, s.restages a.eng = [] → u.legTask l.val = some (i, k) → k.kind = 0 → k.b = a.b → k.st = .waiting → k.staged = false →
      let v := u.setTask i { k with staged := true }
      exec (.stageInDone l) s = .next (if k.parcel = true ∧ u.phase = .gather then v else v.makeReady i)) ∧
    (∀ i k, s.restages a.eng = [] → u.legTask l.val = some (i, k) → k.kind ≠ 0 ∨ k.b ≠ a.b ∨ k.st ≠ .waiting ∨ k.staged = true →
      exec (.stageInDone l) s = .next u)) ∧
  (∀ (l : Fin 131072) (s : State), s.mmu.areas.find? (fun a => a.leg == l.val && a.st == 1) = none → exec (.stageInDone l) s = .next s) ∧
  (∀ (m : SysMake) (s : State),
    (s.poolUsed 1 < 4096 → let kind := if m.background then 5 else 4
      s.makeSys m = ((s.mkTask { Task.init kind (s.priOf kind) m.cluster.val with ctx := m.ctx.toNat }).1).makeReady s.knl.nextId) ∧
    (4096 ≤ s.poolUsed 1 → s.flag R.KNL_CFG_REFUSE = true → let t := (s.bump R.KNL_REFUSE_CNT).raise R.KNL_EVT 2
      s.makeSys m = if m.background then t else t.setKnl { t.knl with sysSt := s.knl.sysSt ++ [St.busy] }) ∧
    (4096 ≤ s.poolUsed 1 → s.flag R.KNL_CFG_REFUSE = false → s.makeSys m = s.setKnl { s.knl with sysHeld := s.knl.sysHeld ++ [m] }) ∧
    (s.knl.sysHeld = [m] → s.poolUsed 1 < 4096 → s.sysFreed = (s.setKnl { s.knl with sysHeld := [] }).sysNew m) ∧
    (4096 ≤ s.poolUsed 1 → s.sysFreed = s)) ∧
  (∀ (c : Fin 128) (made : List SysMake) (s : State), let a := made.foldl (fun t m => t.makeSys m) s
    let b := a.callsEnd c.val
    (b.running c.val = none → exec (.taskDone c made) s = .next a.sysFreed) ∧
    (∀ i t l w, b.running c.val = some (i, t) → t.leg = some l → t.kind ≤ 1 → t.work = some w →
      (b.engineNode l t w = none → b.pastDeadline = false →
        exec (.taskDone c made) s = .next ((b.mediaDone i t l c.val (b.runNodes l t 25 w)).coreTake c.val).sysFreed) ∧
      ((b.engineNode l t w).isSome = true ∨ b.pastDeadline = true → exec (.taskDone c made) s = .next a.sysFreed)) ∧
    (∀ i t, b.running c.val = some (i, t) → t.leg.isSome = true → 1 < t.kind →
      exec (.taskDone c made) s = .next (((a.giveFrame i).freeTask i).coreTake c.val).sysFreed) ∧
    (∀ i t, b.running c.val = some (i, t) → t.leg = none → t.kind ≠ 2 →
      exec (.taskDone c made) s = .next ((((a.giveFrame i).freeTask i).bpRelease).coreTake c.val).sysFreed) ∧
    (∀ i t, b.running c.val = some (i, t) → t.leg = none → t.kind = 2 →
      exec (.taskDone c made) s = .next (((((a.unpack t.data).giveFrame i).freeTask i).bpRelease).coreTake c.val).sysFreed)) ∧
  (∀ (c : Fin 128) (s : State) (i : Nat) (t : Task), s.running c.val = some (i, t) →
    (s.engQ.find? (fun q => q.task == i) = none → s.callsEnd c.val = s) ∧
    (∀ x k, s.engQ.find? (fun q => q.task == i) = some x → (∀ q ∈ s.engQ, q.eng = x.eng → q.task = i) → (s.dropCall i).callOf i = some k →
      s.callsEnd c.val = if x.eng < 32 then (s.dropCall i).fceRun k x.eng x.disp else (s.dropCall i).eceRun k (x.eng - 32))) ∧
  (∀ (c : Fin 128) (e : Fin 32) (s : State) (k : CallAt), let a := s.callsEnd c.val
    a.callAt c.val = some k →
    let call (t : State) (n : Nat) (w : Option Swap) : State := ({ t with engQ := t.engQ ++ [⟨n, k.i, t.loc⟩] } : State).setTask k.i
      (if k.t.callNo < k.t.calls.length then k.t else { k.t with calls := k.t.calls ++ [(t.loc, w)] })
    (k.node.ty = 3 →
      let x := a.fceFor c.val (a.workChain k).eng k.t.notEng
      let w := (a.workChain k).swap
      (x = some (e.val, false) → exec (.fceCall c e) s = .next (call a e.val w)) ∧
      (∀ r, x = some (e.val, true) → a.sliceOn 1 e.val = some r → exec (.fceCall c e) s = .next (call (a.cutSlice r 1) e.val w)) ∧
      ((∀ cut, x ≠ some (e.val, cut)) → exec (.fceCall c e) s = .next s) ∧
      exec (.eceCall c e) s = .next s) ∧
    (k.node.ty = 4 →
      let put (t : State) : State :=
        let u := (call t (32 + e.val) none).bumpBy (R.ECE_REMOTE_CNT e.val) (b2n (e.val / 4 != c.val / 16))
        u.setFld (R.ECE_QUEUE_PEAK e.val) (max (u.queued (32 + e.val)) (u.fld (R.ECE_QUEUE_PEAK e.val)))
      (a.eceFor c.val k.t.notEng = some (e.val, false) → exec (.eceCall c e) s = .next (put a)) ∧
      (a.eceFor c.val k.t.notEng = none → exec (.eceCall c e) s = .next s) ∧
      (∀ r, a.eceFor c.val k.t.notEng = some (e.val, true) → a.sliceOn 2 e.val = some r → exec (.eceCall c e) s = .next (put (a.cutSlice r 1))) ∧
      exec (.fceCall c e) s = .next s)) ∧
  (∀ (c : Fin 128) (e : Fin 32) (s : State), (s.callsEnd c.val).callAt c.val = none → exec (.fceCall c e) s = .next s ∧ exec (.eceCall c e) s = .next s) ∧
  (∀ (c : Fin 128) (va : BitVec 48) (s : State) (i : Nat) (t : Task) (x : Xlate), s.running c.val = some (i, t) →
    let u := s.coreLookup c.val t.context va.toNat
    (0x80000 ≤ va.toNat → s.coreMeets c.val t.context va.toNat 0 = Cause.transit → u.coreMeets c.val t.context va.toNat 0 = Cause.transit →
      u.walk t.context va.toNat = some x → exec (.coreTransitAccess c va) s =
        .next ((u.bump R.MMU_TRANSIT_CNT).blockRun c.val 1 (waitPage t.context (va.toNat / pageBytes x.entry * pageBytes x.entry)))) ∧
    (va.toNat < 0x80000 ∨ s.coreMeets c.val t.context va.toNat 0 ≠ Cause.transit → exec (.coreTransitAccess c va) s = .next s)) ∧
  (∀ (c : Fin 128) (va : BitVec 48) (s : State), s.running c.val = none → exec (.coreTransitAccess c va) s = .next s) ∧
  (∀ (e : Fin 16) (v : Word) (s : State), let x := s.setFld (R.FCE_CFG_EN e.val) (b2n (v.getLsbD 0))
    (v.getLsbD 0 = s.flag (R.FCE_CFG_EN e.val) ∨ (v.getLsbD 0 = true ∧ s.fceSt e.val = .failed) → exec (.fceCfgEnWrite e v) s = .next s) ∧
    (s.flag (R.FCE_CFG_EN e.val) = false → v.getLsbD 0 = true →
      (s.fceSt e.val = .off → exec (.fceCfgEnWrite e v) s = .next (x.setFceFn e.val ⟨.starting, false, false⟩ false)) ∧
      (s.fceSt e.val = .starting → exec (.fceCfgEnWrite e v) s = .next (x.setFceFn e.val ⟨.starting, s.flag (R.FCE_STAT_PEND_EN e.val), s.engDis.contains e.val⟩ false)) ∧
      (s.fceSt e.val = .stopping → exec (.fceCfgEnWrite e v) s = .next (x.setFceFn e.val ⟨.stopping, true, s.engDis.contains e.val⟩ false))) ∧
    (s.flag (R.FCE_CFG_EN e.val) = true → v.getLsbD 0 = false →
      (s.fceSt e.val = .on → exec (.fceCfgEnWrite e v) s = .next (x.setFceFn e.val ⟨.stopping, false, false⟩ false)) ∧
      (s.fceSt e.val = .starting → exec (.fceCfgEnWrite e v) s = .next (x.setFceFn e.val ⟨.starting, s.flag (R.FCE_STAT_PEND_EN e.val), true⟩ false)) ∧
      (s.fceSt e.val = .stopping → exec (.fceCfgEnWrite e v) s = .next (x.setFceFn e.val ⟨.stopping, false, s.engDis.contains e.val⟩ false)) ∧
      (s.fceSt e.val = .failed → exec (.fceCfgEnWrite e v) s = .next (x.setFceFn e.val ⟨.stopping, s.flag (R.FCE_STAT_PEND_EN e.val), false⟩ false)))) ∧
  (∀ (e : Fin 32) (v : Word) (s : State), let x := s.setFld (R.ECE_CFG_EN e.val) (b2n (v.getLsbD 0))
    (v.getLsbD 0 = s.flag (R.ECE_CFG_EN e.val) ∨ (v.getLsbD 0 = true ∧ s.eceSt e.val = .failed) → exec (.eceCfgEnWrite e v) s = .next s) ∧
    (s.flag (R.ECE_CFG_EN e.val) = false → v.getLsbD 0 = true →
      (s.eceSt e.val = .off → exec (.eceCfgEnWrite e v) s = .next (x.setEceFn e.val ⟨.starting, false, false⟩ false)) ∧
      (s.eceSt e.val = .starting → exec (.eceCfgEnWrite e v) s = .next (x.setEceFn e.val ⟨.starting, s.flag (R.ECE_STAT_PEND_EN e.val), s.engDis.contains (32 + e.val)⟩ false)) ∧
      (s.eceSt e.val = .stopping → exec (.eceCfgEnWrite e v) s = .next (x.setEceFn e.val ⟨.stopping, true, s.engDis.contains (32 + e.val)⟩ false))) ∧
    (s.flag (R.ECE_CFG_EN e.val) = true → v.getLsbD 0 = false →
      (s.eceSt e.val = .on → exec (.eceCfgEnWrite e v) s = .next (x.setEceFn e.val ⟨.stopping, false, false⟩ false)) ∧
      (s.eceSt e.val = .starting → exec (.eceCfgEnWrite e v) s = .next (x.setEceFn e.val ⟨.starting, s.flag (R.ECE_STAT_PEND_EN e.val), true⟩ false)) ∧
      (s.eceSt e.val = .stopping → exec (.eceCfgEnWrite e v) s = .next (x.setEceFn e.val ⟨.stopping, false, s.engDis.contains (32 + e.val)⟩ false)) ∧
      (s.eceSt e.val = .failed → exec (.eceCfgEnWrite e v) s = .next (x.setEceFn e.val ⟨.stopping, s.flag (R.ECE_STAT_PEND_EN e.val), false⟩ false)))) ∧
  (∀ (e : Fin 16) (f : Fn) (s : State),
    (∀ b, (s.setFceFn e.val f b).fceSt e.val = f.st ∧ (s.setFceFn e.val f b).flag (R.FCE_STAT_PEND_EN e.val) = f.pend ∧
      ((s.setFceFn e.val f b).engDis.contains e.val = f.dis)) ∧
    (s.fceSt e.val = .starting → s.fceTick e.val = s.setFceFn e.val ⟨if s.engDis.contains e.val then .stopping else .on, false, false⟩ false) ∧
    (s.fceSt e.val = .stopping → s.queued e.val = 0 → s.fceTick e.val =
      s.setFceFn e.val ⟨if s.flag (R.FCE_STAT_PEND_EN e.val) then .starting else .off, false, false⟩ false) ∧
    (s.fceSt e.val = .stopping → 0 < s.queued e.val → s.fceTick e.val = s)) ∧
  (∀ (e : Fin 32) (f : Fn) (s : State),
    (∀ b, (s.setEceFn e.val f b).eceSt e.val = f.st ∧ (s.setEceFn e.val f b).flag (R.ECE_STAT_PEND_EN e.val) = f.pend ∧
      ((s.setEceFn e.val f b).engDis.contains (32 + e.val) = f.dis)) ∧
    (s.eceSt e.val = .starting → s.eceTick e.val = s.setEceFn e.val ⟨if s.engDis.contains (32 + e.val) then .stopping else .on, false, false⟩ false) ∧
    (s.eceSt e.val = .stopping → s.queued (32 + e.val) = 0 → s.eceTick e.val =
      s.setEceFn e.val ⟨if s.flag (R.ECE_STAT_PEND_EN e.val) then .starting else .off, false, false⟩ false) ∧
    (s.eceSt e.val = .stopping → 0 < s.queued (32 + e.val) → s.eceTick e.val = s))

/-- Faults end the task that met them (R391, R403, R404). Where the procedure of R411 lets it, the task becomes a REPLAY on an engine that is ON, which
waits for its restage, completed on the kennel's ring (R389), and runs again from READY (R413); an overrun, an access fault, and a task without a leg fall back (R411). An overrun is core
time above MULT times the declared cycles; a parity error ends the call that the core's task waits for, and counts at that engine. A hung core faults
every task on it and takes no more (R404); one that has retired something within HANG_NS is no hang (R403, R428). An access in the local window is
not translated and meets no fault (R373, R391); one outside it is looked up, and goes on, waits for a page that moves, or faults with its VA. At and
after the Work deadline a DONE task's fault is recorded and changes nothing, and a task not DONE is left to the deadline (R354, R418). -/
def Obligations.FaultsAreReplayedOrFallBack : Prop :=
  (∀ (c : Fin 128) (s : State) (i : Nat) (t : Task), s.running c.val = some (i, t) →
    (∀ pa : BitVec 40, exec (.memoryFault c pa) s =
      .next ((((s.bump R.MMU_UNCORR_CNT).raise R.MMU_EVT 4).drawn).faultAt c.val i 1 (paUnit pa.toNat)
        (((s.bump R.MMU_UNCORR_CNT).raise R.MMU_EVT 4).vaOf c.val pa.toNat t))) ∧
    (∀ (va : BitVec 48) (acc : Fin 3), let u := s.coreLookup c.val t.context va.toNat
      let m := u.coreMeets c.val t.context va.toNat acc.val
      (va.toNat < 0x80000 → exec (.accessFault c va acc) s = .next s) ∧
      (0x80000 ≤ va.toNat → m = 0 → exec (.accessFault c va acc) s = .next u) ∧
      (∀ x, 0x80000 ≤ va.toNat → m = Cause.transit → u.walk t.context va.toNat = some x → exec (.accessFault c va acc) s =
        .next ((u.bump R.MMU_TRANSIT_CNT).blockRun c.val 1 (waitPage t.context (va.toNat / pageBytes x.entry * pageBytes x.entry)))) ∧
      (0x80000 ≤ va.toNat → m = Cause.absent ∨ m = Cause.permission → exec (.accessFault c va acc) s =
        .next (((u.bump R.MMU_ACCESS_CNT).raise R.MMU_EVT 2).faultAt c.val i 4 0 (va.toNat % 2 ^ 32)))) ∧
    exec (.taskOverrun c) s =
      .next (if t.kind ≤ 1 ∧ s.fld R.FRP_WDOG_MULT * s.taskCycles t < t.used + s.ranFor t then s.faultAt c.val i 3 0 0 else s) ∧
    (∀ ns : BitVec 32, exec (.coreHang c ns) s = .next (if ns.toNat < s.fld R.FRP_WDOG_HANG_NS then s else
      ((s.core c.val).held.foldl (fun st j => st.onFault j 2 c.val 0 0) (s.setCore c.val { s.core c.val with hung := true })).sysFreed)) ∧
    (∀ q, (s.engQ.find? fun q => q.task == i) = some q → exec (.engineParity c) s = .next (
      if q.eng < 32 then (s.bump (R.FCE_PARITY_CNT q.eng)).faultAt c.val i 5 (32 + q.eng) 0
      else (s.bump (R.ECE_PARITY_CNT (q.eng - 32))).faultAt c.val i 5 (64 + (q.eng - 32)) 0)) ∧
    ((s.engQ.find? fun q => q.task == i) = none → exec (.engineParity c) s = .next s)) ∧
  (∀ (c : Fin 128) (s : State), (s.core c.val).run = none → (∀ ns, exec (.coreHang c ns) s = .next s) ∧ exec (.taskOverrun c) s = .next s ∧
    (∀ pa, exec (.memoryFault c pa) s = .next s) ∧ (∀ va acc, exec (.accessFault c va acc) s = .next s) ∧ exec (.engineParity c) s = .next s) ∧
  (∀ (l : Fin 131072) (s : State) (i e : Nat) (t : Task), s.legTask l.val = some (i, t) → t.kind = 1 → t.st = .waiting → t.staged = false → t.eng = some e →
    exec (.replayRestageDone l) s =
      .next (((((s.setTask i { t with staged := true }).moved e (t.rsv * 1024)).restageEnds t e St.ok (t.rsv * 1024) 0).dengRest e).makeReady i)) ∧
  (∀ (l : Fin 131072) (s : State), ((∀ i t, s.legTask l.val = some (i, t) → t.kind ≠ 1 ∨ t.st ≠ .waiting ∨ t.staged = true ∨ t.eng = none)) →
    exec (.replayRestageDone l) s = .next s) ∧
  (∀ (s : State) (i l cls core unit det : Nat) (t : Task), s.task i = some t → t.st ≠ .cancelled → t.leg = some l → t.kind ≤ 1 → s.pastDeadline = false →
    (cls = 3 ∨ cls = 4) →
    let u := s.onFault i cls core unit det
    u.reg R.FRP_FALLBACK_CNT = (s.reg R.FRP_FALLBACK_CNT + 1) % 2 ^ 32 ∧ u.reg R.FRP_REPLAY_CNT = s.reg R.FRP_REPLAY_CNT ∧
      ∃ k, u.task i = some k ∧ k.st = .cancelled ∧ k.core = none ∧ k.work = none ∧ k.frecs = [] ∧ k.attempts = t.attempts ∧
        (∀ q ∈ u.engQ, q.task ≠ i) ∧ u.tmu = s.tmu ∧ u.nv = s.nv) ∧
  (∀ (s : State) (i l cls core unit det : Nat) (t : Task), s.task i = some t → t.st ≠ .cancelled → t.leg = some l → t.kind ≤ 1 → s.pastDeadline = false →
    (cls = 1 ∨ cls = 2 ∨ cls = 5) → t.logOff.isSome = true → s.fld R.FRP_CFG_REPLAY_EN = 1 → t.attempts < s.fld R.FRP_CFG_MAX_REPLAY → s.tooLate t = false →
    (∀ p ∈ s.knl.tasks, p.2.rsv = 0) → s.mmu.areas = [] → (s.leg l).cost.st ≤ 2048 →
    let u := s.onFault i cls core unit det
    u.reg R.FRP_REPLAY_CNT = (s.reg R.FRP_REPLAY_CNT + 1) % 2 ^ 32 ∧ u.reg R.FRP_FALLBACK_CNT = s.reg R.FRP_FALLBACK_CNT ∧
      ∃ k, u.task i = some k ∧ k.kind = 1 ∧ k.st = .waiting ∧ k.staged = false ∧ k.core = none ∧ k.attempts = t.attempts + 1 ∧ k.rsv = (s.leg l).cost.st ∧
        (∀ e, k.eng = some e → (s.deng e).st = .on) ∧
        k.notEng = (if cls = 5 then some unit else none) ∧ k.frecs = t.frecs ++ [⟨s.now, s.swn, cls, core, unit, det⟩] ∧
        (∀ q ∈ u.engQ, q.task ≠ i) ∧ u.tmu = s.tmu ∧ u.nv = s.nv) ∧
  (∀ (s : State) (i cls core unit det : Nat) (t : Task), s.task i = some t → t.st ≠ .cancelled → t.kind ≤ 1 → s.pastDeadline = true →
    let f : FRec := ⟨s.now, s.swn, cls, core, unit, det⟩
    s.onFault i cls core unit det = if t.st = .done then s.recordFault t f 3 t.replayCore else s.setTask i { t with frecs := t.frecs ++ [f] })

/-! ### Memory and DMA (R369-R401) -/

/-- A write to memory stores exactly its bytes, and every other byte reads as before. A page move copies the page and rewrites its entry, and leaves
every other byte (R381); it is refused for a page that is pinned (R383), for an address outside the memory of its new state or not mapped (R379), and while another runs;
the address registers take what the firmware writes with the command (R401; log entry 76: the command's operands); an invalidation takes entries out of every TLB and
is counted when it is done (R382); an access that a cluster's TLB misses is counted, walked and installed (R377, R380, R402). The regions of the HBM
lie in their order (R370). -/
def Obligations.MemoryHoldsWhatIsWritten : Prop :=
  (∀ (s : State) (pa : Nat) (b : Bytes) (a : Nat), Memory.wf s.mmu.mem = true →
    (s.memWrite pa b).memByte a = if pa ≤ a ∧ a < pa + b.length then b.getD (a - pa) 0 else s.memByte a) ∧
  (∀ (s : State) (m : Move), Memory.wf s.mmu.mem = true → s.mmu.move = some m → s.swt.loftWait = [] → s.knl.tasks = [] →
    ∃ t, exec .moveComplete s = .next t ∧ t.mmu.move = none ∧ t.fld R.MMU_MOVE_CTL_BUSY = 0 ∧ t.fld R.MMU_MOVE_CTL_RESULT = 0 ∧
      t.reg R.MMU_MOVE_CNT = (s.reg R.MMU_MOVE_CNT + 1) % 2 ^ 32 ∧ t.legs = s.legs ∧ t.tmu = s.tmu ∧ t.nv = s.nv ∧
      let n := pageBytes m.entry
      let u := s.memWrite m.pa (s.memRead (peAddr m.entry / n * n) n)
      (u.walk m.ctx m.va = none → ∀ a, t.memByte a = u.memByte a) ∧
      (∀ x, u.walk m.ctx m.va = some x → peSize x.entry ≠ 1 → ∀ a, ¬ (x.at_ ≤ a ∧ a < x.at_ + 8) → t.memByte a = u.memByte a) ∧
      (∀ x, u.walk m.ctx m.va = some x → peSize x.entry = 1 → ∀ a, ¬ (x.at_ / 128 * 128 ≤ a ∧ a < x.at_ / 128 * 128 + 128) → t.memByte a = u.memByte a)) ∧
  (∀ s : State, s.mmu.move = none → s.swt.loftWait = [] → exec .moveComplete s = .next s) ∧
  (∀ (v : Word) (va0 : BitVec 48) (pa0 : BitVec 40) (s : State), bits v.toNat 13 12 ≠ 1 → bits v.toNat 13 12 ≠ 2 →
    exec (.mmuMoveGo v va0 pa0) s = .next s) ∧
  (∀ (v : Word) (va0 : BitVec 48) (pa0 : BitVec 40) (s : State), s.mmu.move.isSome = true → exec (.mmuMoveGo v va0 pa0) s = .next s) ∧
  (∀ (v : Word) (va0 : BitVec 48) (pa0 : BitVec 40) (s : State), s.mmu.move = none → (bits v.toNat 13 12 = 1 ∨ bits v.toNat 13 12 = 2) →
    let s0 := (s.setFld R.MMU_MOVE_VA_HI_VA_HI (va0.toNat / 2 ^ 32)).setFld R.MMU_MOVE_VA_LO_VA_LO (va0.toNat % 2 ^ 32 / 4096)
    let s00 := (s0.setFld R.MMU_MOVE_PA_HI_PA_HI (pa0.toNat / 2 ^ 32)).setFld R.MMU_MOVE_PA_LO_PA_LO (pa0.toNat % 2 ^ 32 / 4096)
    let s1 := (s00.setFld R.MMU_MOVE_CTL_TO (bits v.toNat 13 12)).setFld R.MMU_MOVE_CTL_CTX (bits v.toNat 11 0)
    let va := va0.toNat / 4096 * 4096
    let pa := pa0.toNat / 4096 * 4096
    (tb v.toNat 31 = false → exec (.mmuMoveGo v va0 pa0) s = .next s1) ∧
    (tb v.toNat 31 = true → s1.walk (bits v.toNat 11 0) va = none → exec (.mmuMoveGo v va0 pa0) s = .next (s1.setFld R.MMU_MOVE_CTL_RESULT 2)) ∧
    (∀ x, tb v.toNat 31 = true → s1.walk (bits v.toNat 11 0) va = some x → peState x.entry = 3 → exec (.mmuMoveGo v va0 pa0) s = .next (s1.setFld R.MMU_MOVE_CTL_RESULT 2)) ∧
    (∀ x, tb v.toNat 31 = true → s1.walk (bits v.toNat 11 0) va = some x → peState x.entry ≠ 3 → s1.pagePinned x = false → tb x.entry 6 = false →
      x.at_ = 2 ^ 40 ∨ s1.fitsState (bits v.toNat 13 12) (pa / pageBytes x.entry * pageBytes x.entry) = false →
      exec (.mmuMoveGo v va0 pa0) s = .next (s1.setFld R.MMU_MOVE_CTL_RESULT 2)) ∧
    (∀ x, tb v.toNat 31 = true → s1.walk (bits v.toNat 11 0) va = some x → peState x.entry ≠ 3 → s1.pagePinned x = true →
      exec (.mmuMoveGo v va0 pa0) s = .next (s1.setFld R.MMU_MOVE_CTL_RESULT 1)) ∧
    (∀ x, tb v.toNat 31 = true → s1.walk (bits v.toNat 11 0) va = some x → peState x.entry ≠ 3 → s1.pagePinned x = false → tb x.entry 6 = false →
      x.at_ < 2 ^ 40 → s1.fitsState (bits v.toNat 13 12) (pa / pageBytes x.entry * pageBytes x.entry) = true → ∃ t, exec (.mmuMoveGo v va0 pa0) s = .next t ∧ t.fld R.MMU_MOVE_CTL_BUSY = 1 ∧
        t.mmu.move = some ⟨bits v.toNat 11 0, va / pageBytes x.entry * pageBytes x.entry, bits v.toNat 13 12,
          pa / pageBytes x.entry * pageBytes x.entry, x.entry⟩ ∧ t.mmu.rings = s.mmu.rings ∧ t.mmu.pins = s.mmu.pins ∧
        (Memory.wf s.mmu.mem = true → peSize x.entry ≠ 1 → ∀ a, ¬ (x.at_ ≤ a ∧ a < x.at_ + 8) → t.memByte a = s.memByte a) ∧
        (Memory.wf s.mmu.mem = true → peSize x.entry = 1 → ∀ a, ¬ (x.at_ / 128 * 128 ≤ a ∧ a < x.at_ / 128 * 128 + 128) → t.memByte a = s.memByte a))) ∧
  (∀ (v : Word) (va0 : BitVec 48) (fw : FwWrites) (s0 : State), bits v.toNat 29 28 = 3 → exec (.mmuInvGo v va0 fw) s0 = .next (s0.fwWrite fw)) ∧
  (∀ (v : Word) (va0 : BitVec 48) (fw : FwWrites) (s0 : State), bits v.toNat 29 28 ≠ 3 →
    let s := s0.fwWrite fw
    let u := (s.setFld R.MMU_INV_VA_HI_VA_HI (va0.toNat / 2 ^ 32)).setFld R.MMU_INV_VA_LO_VA_LO (va0.toNat % 2 ^ 32 / 4096)
    let s1 := (u.setFld R.MMU_INV_SCOPE (bits v.toNat 29 28)).setFld R.MMU_INV_CTX (bits v.toNat 11 0)
    let va := va0.toNat / 4096 * 4096
    (tb v.toNat 31 = false ∨ s.mmu.inv.isSome = true → exec (.mmuInvGo v va0 fw) s0 = .next s1) ∧
    (tb v.toNat 31 = true → s.mmu.inv = none → exec (.mmuInvGo v va0 fw) s0 =
      .next ((s1.setMmu { s1.mmu with inv := some (bits v.toNat 29 28, bits v.toNat 11 0, va) }).setFld R.MMU_INV_BUSY 1))) ∧
  (∀ (s : State) (q : Nat × Nat × Nat), s.mmu.inv = some q → ∃ t, exec .invalidationDone s = .next t ∧ t.mmu.inv = none ∧
    t.fld R.MMU_INV_BUSY = 0 ∧ t.reg R.MMU_INV_CNT = (s.reg R.MMU_INV_CNT + 1) % 2 ^ 32 ∧ t.mmu.mem = s.mmu.mem ∧ t.mmu.move = s.mmu.move ∧
    t.legs = s.legs ∧ t.tmu = s.tmu ∧ t.nv = s.nv ∧
    ∀ u e, e ∈ kgetD t.mmu.tlb u [] → e ∈ kgetD s.mmu.tlb u [] ∧
      (q.1 ≠ 0 ∧ (q.1 = 1 → e.ctx = q.2.1 → tb e.entry 5 = true) ∧ (q.1 = 2 → e.covers q.2.1 q.2.2 = false))) ∧
  (∀ s : State, s.mmu.inv = none → exec .invalidationDone s = .next s) ∧
  (∀ (s : State) (u ctx va : Nat) (x : Xlate), 128 ≤ u → u < 136 → s.ctxValid ctx = true →
    (s.cached u ctx va = some x → s.lookup u ctx va = s ∧ s.xlate u ctx va = some x) ∧
    (s.cached u ctx va = none → s.walk ctx va = some x → peState x.entry ≠ 3 →
      let t := s.lookup u ctx va
      t.reg (R.MMU_CTLB_MISS_CNT (u - 128)) = (s.reg (R.MMU_CTLB_MISS_CNT (u - 128)) + 1) % 2 ^ 32 ∧
        t.reg R.MMU_WALK_CNT = (s.reg R.MMU_WALK_CNT + 1) % 2 ^ 32 ∧ t.mmu.mem = s.mmu.mem ∧
        (t.cached u ctx va).map (·.entry) = some x.entry)) ∧
  (∀ (s : State) (pa : Nat), let a := 0x1000000000 + s.fld R.MMU_HBM_LBS_GIB * 2 ^ 30
    let b := a + s.fld R.MMU_HBM_GRN_GIB * 2 ^ 30
    let c := b + s.fld R.MMU_HBM_PAT_GIB * 2 ^ 30
    (0x1000000000 ≤ pa → pa < a → s.hbmRegion pa = some .legBacking) ∧ (a ≤ pa → pa < b → s.hbmRegion pa = some .granary) ∧
      (b ≤ pa → pa < c → s.hbmRegion pa = some .pattern) ∧ (pa < 0x1000000000 ∨ c ≤ pa → s.hbmRegion pa = none))

/-- A DMA engine that has a descriptor that may run moves what it says, byte by byte (R386, R388): a COPY, a FILL, a TX frame to its port, an RX frame
to the buffers for its port, and a RELEASE that moves nothing but lowers pins (R383). A frame that the buffers do not hold is dropped, the buffers
it filled written back ABANDONED with the cause (R137, R389). A length out of range ends a descriptor with E_BAD_LEN; a fault parks it
(R392), a task that waits for it is switched out (R394), and it goes on, or ends, when firmware says so (R393). The oldest that ended leaves the
ring with its completion (R389). A ring takes what firmware writes to its registers with the tail (log entry 76: the command's operands), and a
producer's tail makes descriptors known (R385); the EN bit of an engine starts and stops it (R599). -/
def Obligations.DescriptorsRunInTurn : Prop :=
  (∀ (r : Fin 256) (s : State), (s.nextDesc r.val 1 = none → exec (.dmaCopy r) s = .next s) ∧ (s.nextDesc r.val 2 = none → exec (.dmaFill r) s = .next s) ∧
    (s.nextDesc r.val 3 = none → exec (.dmaTx r) s = .next s) ∧ (s.nextDesc r.val 4 = none → exec (.dmaRx r) s = .next (s.dropStarved r.val)) ∧
    (s.nextDesc r.val 5 = none → exec (.dmaRelease r) s = .next s)) ∧
  (∀ (r : Fin 256) (s : State) (d : Desc), (d.len = 0 ∨ 16777216 < d.len) →
    (s.nextDesc r.val 1 = some d → exec (.dmaCopy r) s = .next (s.setDesc r.val { d with phase := 3, status := St.badLen })) ∧
    (s.nextDesc r.val 2 = some d → exec (.dmaFill r) s = .next (s.setDesc r.val { d with phase := 3, status := St.badLen })) ∧
    (s.nextDesc r.val 5 = some d → exec (.dmaRelease r) s = .next (s.setDesc r.val { d with phase := 3, status := St.badLen }))) ∧
  (∀ (r : Fin 256) (s : State) (d : Desc), 0 < d.len → d.len ≤ 16777216 → d.flag 5 = false →
    (s.nextDesc r.val 1 = some d →
      let o := State.copyBytes (ringUnit r.val) (d.ctx (s.dring r.val)) (d.len - d.done) (d.src + d.done) (d.dst + d.done) d.done s
      exec (.dmaCopy r) s = .next ((o.1.setDesc r.val (d.after o.2.1 o.2.2)).moved (r.val / 8) (o.2.1 - d.done))) ∧
    (s.nextDesc r.val 2 = some d →
      let o := State.putBytes (ringUnit r.val) (d.ctx (s.dring r.val)) ((List.range (d.len - d.done)).map fun i => (sub d.b 8 8).getD ((d.done + i) % 8) 0)
        (d.dst + d.done) d.done s
      exec (.dmaFill r) s = .next ((o.1.setDesc r.val (d.after o.2.1 o.2.2)).moved (r.val / 8) (o.2.1 - d.done)))) ∧
  (∀ (r : Fin 256) (s : State) (d : Desc), s.nextDesc r.val 5 = some d → 0 < d.len → d.len ≤ 16777216 →
    exec (.dmaRelease r) s = .next ((s.unpinRange (d.ctx (s.dring r.val)) d.dst d.len).setDesc r.val
      { d with done := d.len, phase := 3, status := St.ok, cause := 0, info := 0 })) ∧
  (∀ (r : Fin 256) (s : State) (d : Desc) (b : Bytes), s.nextDesc r.val 3 = some d → 14 ≤ d.len →
    let t := State.touch (ringUnit r.val) (d.ctx (s.dring r.val)) (d.len - d.done) (d.src + d.done) s
    let got := t.getBytes (ringUnit r.val) (d.ctx (s.dring r.val)) (d.len - d.done) (d.src + d.done) d.buf
    d.len + 4 ≤ s.portMax (u8 d.b 24 % 8) →
    (∀ flt, got = (b, some flt) →
      exec (.dmaTx r) s = .next ((t.setDesc r.val { d.after b.length (some flt) with buf := b }).moved (r.val / 8) (b.length - d.done))) ∧
    (got = (b, none) → exec (.dmaTx r) s = .next (((t.setDesc r.val { d with done := b.length, phase := 4 }).moved (r.val / 8) (b.length - d.done)).txRequest (u8 d.b 24 % 8)
      { TxFrame.plain b (u8 d.b 25 % 8) (.dma r.val d.idx) with tsReq := d.flag 7 }).1)) ∧
  (∀ (r : Fin 256) (s : State) (d : Desc), s.nextDesc r.val 3 = some d → d.len < 14 →
    exec (.dmaTx r) s = .next ((s.bump (R.MAC_TX_BADLEN_CNT (u8 d.b 24 % 8))).setDesc r.val { d with phase := 3, status := St.badLen })) ∧
  (∀ (r : Fin 256) (s : State) (d : Desc), s.nextDesc r.val 4 = some d → ((s.dring r.val).frames.find? fun f => f.2.2 == d.port).isSome = true) ∧
  (∀ (r : Fin 256) (s t : State) (d : Desc) (f : RxFrame) (cls port : Nat) (used : List Nat) (flt : Option (Nat × Nat)),
    s.nextDesc r.val 4 = some d → (s.dring r.val).frames.find? (fun f => f.2.2 == d.port) = some (f, cls, port) →
    let u (t : State) : State := (t.setDring r.val { t.dring r.val with frames := (t.dring r.val).frames.erase (f, cls, port) }).xoffCheck port
    (State.fillRx r.val f cls port [] rxFuel f.bytes true s = (t, used, true, flt) → exec (.dmaRx r) s = .next ((u t).dropStarved r.val)) ∧
    (State.fillRx r.val f cls port [] rxFuel f.bytes true s = (t, [], false, flt) →
      exec (.dmaRx r) s = .next (((u t).bump (R.MAC_RX_RING_EMPTY_CNT port)).dropStarved r.val)) ∧
    (used ≠ [] → State.fillRx r.val f cls port [] rxFuel f.bytes true s = (t, used, false, flt) →
      ∃ v : State, exec (.dmaRx r) s = .next (((v.bump (R.MAC_RX_RING_ABANDON_CNT port)).raise R.MAC_EVT (2 ^ (16 + port))).dropStarved r.val) ∧
        (v.dring r.val).frames = (t.dring r.val).frames.erase (f, cls, port) ∧
        ∀ e ∈ (v.dring r.val).descs, used.contains e.idx = true → e.ab = true ∧ e.status = St.fault ∧ e.info = (flt.getD (0, 0)).2 ∧
          e.cause = (flt.getD (0, 0)).1)) ∧
  (∀ (r : Fin 256) (s : State) (d : Desc) (l : List Desc), r.val % 8 ≠ 0 → (s.dring r.val).descs = d :: l →
    (d.phase = 3 → exec (.dmaDescComplete r) s = .next (((s.finishDesc r.val d).takeDescs r.val 16).dengRest (r.val / 8))) ∧
    (d.phase ≤ 2 → exec (.dmaDescComplete r) s = .next s)) ∧
  (∀ (r : Fin 256) (s : State) (a : Area), r.val % 8 = 0 → s.frontArea (r.val / 8) 3 5 = some a → a.st = 3 →
    exec (.dmaDescComplete r) s = .next (((s.kennelDone a St.ok (a.kib * 1024) 0).moved (r.val / 8) (a.kib * 1024)).freeArea a)) ∧
  (∀ (r : Fin 256) (s : State) (d : Desc), 2 ≤ r.val % 8 → (s.dring r.val).descs.find? (fun d => d.phase == 1) = some d →
    exec (.dmaDescPark r) s = .next ((((s.writeCompletion r.val d 0xA0 0).setDesc r.val { d with phase := 2 }).countPark d.cause).parkTask r.val d)) ∧
  (∀ (r : Nat) (s : State) (d : Desc) (i c : Nat) (t : Task), d.task = some i → s.task i = some t → t.st = .running → t.core = some c →
    s.parkTask r d = s.blockRun c 2 (r * 4096 + d.idx)) ∧
  (∀ (r : Fin 256) (s : State) (a : Area), r.val % 8 = 0 → s.frontArea (r.val / 8) 3 5 = some a → a.st = 3 →
    exec (.dmaDescPark r) s = .next ((s.parkArea a).1.legFault a.leg a.b 10 192 (s.parkArea a).2)) ∧
  (∀ (r : Fin 256) (s : State) (d : Desc), 2 ≤ r.val % 8 → (s.dring r.val).descs.find? (fun d => d.phase == 2 && d.cause != 2) = some d →
    exec (.mmuParkResume r) s = .next ((s.setDesc r.val { d with phase := 0, cause := 0, info := 0 }).bump R.MMU_RESUME_CNT)) ∧
  (∀ (r : Fin 256) (s : State), 2 ≤ r.val % 8 → (s.dring r.val).descs.find? (fun d => d.phase == 2 && d.cause != 2) = none →
    exec (.mmuParkResume r) s = .next s) ∧
  (∀ (r : Fin 256) (s : State) (d : Desc), 2 ≤ r.val % 8 → (s.dring r.val).descs.find? (fun d => d.phase == 2) = some d →
    exec (.mmuParkAbort r) s = .next ((s.setDesc r.val { d with phase := 3, status := St.fault }).bump R.MMU_ABORT_CNT)) ∧
  (∀ (r : Fin 256) (cfg : Option RingSetup) (by_ : Option (Fin 128)) (descs : List Bytes) (v : Word) (s0 : State),
    let s := match cfg with | some c => s0.ringCfg r.val c | none => s0
    let x := s.dring r.val
    let t := descs.zipIdx.foldl (fun (t : State) (p : Bytes × Nat) => t.vwrite noTlb x.ctx (x.dbase + 32 * ((x.tail + p.2) % 2 ^ x.log2)) (p.1.take 32)) s
    exec (.mmuRingTailWrite r cfg by_ descs v) s0 =
      .next ((t.setDring r.val { t.dring r.val with
        tail := v.toNat % 4096 % 2 ^ x.log2, own := x.queued descs.length (by_.bind fun c => (s.running c.val).map (·.1)) }).takeDescs r.val 16)) ∧
  (∀ (r : Nat) (x : RingSetup) (s : State), 4 ≤ x.log2.val → let y := (s.ringCfg r x).dring r
    y.en = true ∧ y.ctx = x.ctx.toNat ∧ y.log2 = x.log2.val ∧ y.dbase = x.dbase.toNat ∧ y.cbase = x.cbase.toNat ∧ y.head = 0 ∧ y.tail = 0) ∧
  (∀ (e : Fin 32) (v : Word) (s : State), v.getLsbD 0 = true → (s.deng e.val).en = false → (s.deng e.val).st = .off →
    exec (.mmuDmaEnWrite e v) s = .next (((List.range 8).foldl (fun t k => t.takeDescs (8 * e.val + k) 16)
      (s.setDeng e.val { s.deng e.val with en := true, st := .on })).startStages)) ∧
  (∀ (e : Fin 32) (v : Word) (s : State), v.getLsbD 0 = false → (s.deng e.val).en = true → (s.deng e.val).st = .on →
    exec (.mmuDmaEnWrite e v) s = .next ((s.setDeng e.val { s.deng e.val with en := false, st := .stopping }).dengRest e.val)) ∧
  (∀ (e : Fin 32) (v : Word) (s : State), v.getLsbD 0 = (s.deng e.val).en → exec (.mmuDmaEnWrite e v) s = .next s)

/-! ### The baler, the gleaner, and what self-test and keys do (R485-R531) -/

/-- The baler's engines take jobs in priority order, each of the kind that the row names; one that breaks a rule of R488 ends with reason FORMAT, one
with an unreadable list with reason 6; the others run (R487, R490-R497). A job's end frees its engine and is counted (R489), one with a parity error as ENGINE (R496, R502). A write of
BAL_CFG.EN that would enable a FAILED engine changes nothing (R18). The gleaner starts
a slice on the idle unit whose turn it is, within the limits of R505, and judges it when its length has passed: a pass is counted, and a failure waits for its
confirmation or takes the unit out (R509-R513). -/
def Obligations.BalesAndSlicesRun : Prop :=
  (∀ (e : Fin 4) (s : State), (s.nextJob = none ∨ s.balTake e.val = none) → ∀ mm,
    exec (.balerCompress e mm) s = .next s ∧ exec (.balerDecompress e) s = .next s ∧ exec (.balerResume e mm) s = .next s) ∧
  (∀ (e : Fin 4) (s s1 : State) (k : Nat) (b : Bytes) (mm : Bool), s.nextJob = some (k, b) → s.balTake e.val = some s1 →
    let r := s1.bring k
    let s2 := s1.setBring k { r with head := (r.head + 1) % 2 ^ r.log2 }
    let put (p : State × BJob) : State := p.1.setBeng e.val { p.1.beng e.val with job := some p.2 }
    let stop (op : Nat) : BStop := ⟨op, u8 b 1 / 16 % 4, false, num b 8 8, num b 4 4, 0, (if op = 1 then 16 else 0), []⟩
    (tb (u8 b 1) 7 = true → exec (.balerCompress e mm) s = .next s ∧ exec (.balerDecompress e) s = .next s) ∧
    (tb (u8 b 1) 7 = false → exec (.balerResume e mm) s = .next s) ∧
    (tb (u8 b 1) 7 = false → u8 b 0 % 16 = 1 → jobBad b = true →
      exec (.balerCompress e mm) s = .next (put (s2, { BJob.start k r.head b with reason := 8, status := St.badLen }))) ∧
    (∀ l, jobBad b = false → s2.dlist r.ctx (num b 16 8) (num b 24 2) = some l → l.any entBad = false →
      (tb (u8 b 1) 7 = false → u8 b 0 % 16 = 1 →
        exec (.balerCompress e mm) s = .next (put (s2.balRun (BJob.start k r.head b) (stop 1) (l.map entOf) mm))) ∧
      (tb (u8 b 1) 7 = false → u8 b 0 % 16 = 2 →
        exec (.balerDecompress e) s = .next (put (s2.balRun (BJob.start k r.head b) (stop 2) (l.map entOf) false))) ∧
      (∀ st, tb (u8 b 1) 7 = true → kget s2.bal.stops (num b 32 8) = some st → st.op = u8 b 0 % 16 →
        exec (.balerResume e mm) s = .next (put ((s2.bump R.BAL_RESUME_CNT).balRun (BJob.start k r.head b) st (l.map entOf)
          (mm && u8 b 0 % 16 == 1)))))) ∧
  (∀ (e : Fin 4) (s : State), (s.beng e.val).job = none → ∀ par, exec (.balerJobEnd e par) s = .next s) ∧
  (∀ (e : Fin 4) (s : State) (j : BJob), (s.beng e.val).job = some j → exec (.balerJobEnd e false) s = .next (s.balEnd e.val j) ∧
    exec (.balerJobEnd e true) s = .next ((s.bump R.BAL_PARITY_CNT).balEnd e.val { j with reason := 7, status := St.fault, fin := false, stopped := false }) ∧
    ((s.balEnd e.val j).beng e.val).job = none ∧ (s.balEnd e.val j).reg R.BAL_JOB_CNT = (s.reg R.BAL_JOB_CNT + 1) % 2 ^ 32 ∧
    (∀ i, i ≠ e.val → (s.balEnd e.val j).beng i = s.beng i) ∧ (s.balEnd e.val j).legs = s.legs ∧ (s.balEnd e.val j).nv = s.nv) ∧
  (∀ (v : Word) (s : State) (e : Fin 4), tb v.toNat e.val = true → tb (s.fld R.BAL_CFG_EN) e.val = false → (s.beng e.val).st = .failed →
    exec (.balCfgEnWrite v) s = .next s) ∧
  (∀ (v : Word) (s : State), (∀ e : Fin 4, tb v.toNat e.val = true → tb (s.fld R.BAL_CFG_EN) e.val = false → (s.beng e.val).st ≠ .failed) →
    exec (.balCfgEnWrite v) s = .next ((List.range 4).foldl (fun t e =>
    if tb v.toNat e = tb (s.fld R.BAL_CFG_EN) e then t else t.setBeng e ((t.beng e).enable (tb v.toNat e))) (s.setFld R.BAL_CFG_EN (v.toNat % 16)))) ∧
  (∀ (r : Fin 4) (jobs : List Bytes) (v : Word) (s : State),
    let x := s.bring r.val
    let t := jobs.zipIdx.foldl (fun (t : State) (p : Bytes × Nat) => t.vwrite noTlb x.ctx (x.dbase + 48 * ((x.tail + p.2) % 2 ^ x.log2)) (p.1.take 48)) s
    exec (.balRingTailWrite r jobs v) s = .next (t.setBring r.val { t.bring r.val with tail := v.toNat % 4096 % 2 ^ x.log2 })) ∧
  (∀ (c : Fin 7) (i : Fin 128) (s : State), s.mode ≠ .service → exec (.glnSliceStart c i) s = .next s) ∧
  (∀ (c : Fin 7) (i : Fin 128) (s : State), let u := s.unitT c.val i.val
    s.mode = .service → s.swt.begun = true → s.flag R.GLN_CFG_EN = true → i.val < unitsOf c.val → s.shut.phase = 0 → s.pastDeadline = false →
    s.sliceOn c.val i.val = none → s.sliceIdle c.val i.val = true → s.fld R.BGW_THERM_STAT_LEVEL < 2 → s.flag R.GLN_DBG_STEP = false → u.out = false →
    u.await = none → (s.core i.val).hung = false → s.sliceRoom c.val = true →
    s.nextUnit (kindOf c.val) = some (c.val, i.val) → s.elapsed + sliceLen c.val ≤ s.swt.emitAt →
    s.bgw.fab + 65536 ≤ s.fabCap → ∃ t, exec (.glnSliceStart c i) s = .next t ∧
      t.gln.run = s.gln.run ++ [⟨c.val, i.val, u.passed, u.passed, s.loc, false, false⟩] ∧ t.fld R.GLN_STAT_RUN = 1 ∧
      t.reg R.GLN_SLICE_CNT = (s.reg R.GLN_SLICE_CNT + 1) % 2 ^ 32 ∧ t.unitT c.val i.val = u ∧ t.tmu = s.tmu ∧ t.nv = s.nv ∧ t.legs = s.legs ∧
      t.bgw.fab = s.bgw.fab + (if c.val = 5 ∨ c.val = 6 then 65536 else 0)) ∧
  (∀ (c : Fin 5) (i : Fin 128) (sig : BitVec 64) (ok : Bool) (s : State) (sl : Slice), s.sliceOn c.val i.val = some sl →
    (s.loc < sl.start + nsI 44000 → exec (.glnSliceEnd (.logic c i sig ok)) s = .next s) ∧
    (sl.start + nsI 44000 ≤ s.loc → exec (.glnSliceEnd (.logic c i sig ok)) s = .next (s.logicEnd sl (be 8 sig.toNat) ok)) ∧
    (sl.start + nsI 44000 ≤ s.loc → c.val ≠ 0 → i.val < unitsOf c.val → sl.conf = false → (s.unitT c.val i.val).asked = false → s.knl.tasks = [] → ∃ t,
      exec (.glnSliceEnd (.logic c i sig ok)) s = .next t ∧ t.tmu = s.tmu ∧ t.legs = s.legs ∧
      (ok = true → t.gln.run = s.gln.run.filter (· != sl) ∧ t.reg R.GLN_PASS_CNT = (s.reg R.GLN_PASS_CNT + 1) % 2 ^ 32 ∧ t.nv = s.nv) ∧
      (ok = false → s.flag R.GLN_CFG_CONFIRM = true → t.gln.run = s.gln.run.filter (· != sl) ∧
        t.reg R.GLN_FAIL_CNT = (s.reg R.GLN_FAIL_CNT + 1) % 2 ^ 32 ∧ tb (t.reg R.GLN_EVT) 0 = true ∧ (t.unitT c.val i.val).await = some sl.num ∧
        t.nv = s.nv) ∧
      (ok = false → s.flag R.GLN_CFG_CONFIRM = false → (t.unitT c.val i.val).out = true ∧ t.reg R.GLN_MAPOUT_CNT = (s.reg R.GLN_MAPOUT_CNT + 1) % 2 ^ 32 ∧
        (c.val, i.val) ∈ t.nv.outs))) ∧
  (∀ (l : Bool) (i : Fin 128) (err : Option MemErr) (s : State) (sl : Slice), s.sliceOn (if l then 6 else 5) i.val = some sl →
    sl.start + nsI 40000 ≤ s.loc → exec (.glnSliceEnd (.memory l i err)) s = .next (if l then (s.memEnd sl err).coreTake i.val else s.memEnd sl err)) ∧
  (∀ (c : Fin 7) (i : Fin 128) (s : State), s.sliceOn c.val i.val = none →
    exec (.glnSliceEnd (.fault c i)) s = .next s) ∧
  (∀ (c : Fin 7) (i : Fin 128) (s : State) (sl : Slice), s.sliceOn c.val i.val = some sl →
    exec (.glnSliceEnd (.fault c i)) s = .next (s.cutAny sl 4))

/-- A test of a unit is requested (R527). Fuses and the life cycle are armed with a nonce that the spec leaves open (log entry 14: a free value) and
change only on its confirmation by the same session in time (R520, R524): a transition is made once its reply has left. Through JTAG a host key is
loaded in MANUFACTURE and RMA, and a transition of the table of R523 made (R523, R526). -/
def Obligations.FusesKeysAndLifeCycleMove : Prop :=
  Does false opBistRequest 0x0C01 .bistRequest (done fun q s =>
    let c := u8 q.payload 0
    let i := num q.payload 2 2
    let t := s.setUnitT c i { s.unitT c i with asked := true, bad := false, passed := 0 }
    t.setGln { t.gln with req := some (c, i) }) ∧
  Does false opBistFuseArm 0x0C02 .bistFuseArm (fun q s =>
    (s.drawn.setGln { s.gln with armF := some (s.draw 32, s.sessNum q.mbox.val, s.loc + 10 * secI, entriesIn q.payload) }, St.ok,
      be 4 (s.draw 32) ++ be 2 (4096 - s.nv.fused.length) ++ zeros 2)) ∧
  (∀ (q : Req) (s : State) (n sess by_ : Nat) (l : List Nat), Accepted opBistFuseConfirm 0x0C03 q s [] → s.gln.armF = some (n, sess, by_, l) →
    let new := l.eraseDups.filter fun e => !s.nv.fused.any fun w => w.toNat == e
    let good := (new.zipIdx.filter fun p => !tb (s.draw 64) p.2).map fun p => BitVec.ofNat 32 p.1
    n = num q.payload 0 4 ∧ sess = s.sessNum q.mbox.val ∧ s.loc < by_ ∧
    Completes false (.bistFuseConfirm q) 0x0C03 q s
      ((s.drawn.setGln { s.gln with armF := none }).setNv { s.nv with fused := s.nv.fused ++ good })
      (if good.length = new.length then St.ok else St.fault) 0 (be 2 good.length ++ zeros 2)) ∧
  Does false opBistLcArm 0x0C04 .bistLcArm (fun q s =>
    (s.drawn.setGln { s.gln with armL := some (s.draw 32, s.sessNum q.mbox.val, s.loc + 10 * secI, u8 q.payload 0) }, St.ok, be 4 (s.draw 32))) ∧
  (∀ (q : Req) (s : State) (n sess by_ k : Nat), Accepted opBistLcConfirm 0x0C05 q s [] → s.gln.armL = some (n, sess, by_, k) →
    n = num q.payload 0 4 ∧ sess = s.sessNum q.mbox.val ∧ s.loc < by_ ∧ ∃ t, exec (.bistLcConfirm q) s = .next t ∧
      Aside q.mbox.val (s.setGln { s.gln with armL := none }) t ∧ Answered false 0x0C05 q St.ok 0 [] s t ∧
      (t.sess q.mbox.val).after = some (0x0C05, be 1 k)) ∧
  (∀ (m : Fin 256) (s : State) (k : Nat), (s.sess m.val).st = .on → (s.sess m.val).out = [] → (s.sess m.val).rplRing = [] →
    (s.sess m.val).after = some (0x0C05, be 1 k) → k < 5 → (lcAllowed true s.nv.lc k = true ∨ lcAllowed false s.nv.lc k = true) → ∃ t,
      exec (.replySend m) s = .next t ∧ t.nv.lc = s.nv.lc ∧ t.nv.lcNext = some k ∧ t.nv.hostKeys = (if 3 ≤ k then [] else s.nv.hostKeys) ∧
      t.nv.mzKeys = (if 3 ≤ k then [] else s.nv.mzKeys)) ∧
  Does false opBistRepairList 0x0C81 .bistRepairList (replied fun q s =>
    ((s.nv.repair.drop (num q.payload 0 2)).take (num q.payload 2 2)).flatMap fun w => be 4 w.toNat ++ be 1 (b2n (s.nv.fused.contains w)) ++ zeros 3) ∧
  Does false opBistUnitStatus 0x0C82 .bistUnitStatus (replied fun q s =>
    let c := u8 q.payload 0
    let i := num q.payload 2 2
    let u := s.unitT c i
    let st := if u.out ∨ (c = 0 ∧ (s.core i).mapped) ∨ s.engFailed c i then 3 else if u.await.isSome then 2 else if s.underTest c i then 1 else 0
    be 1 st ++ be 1 u.verdict ++ be 2 u.passed ++ timeBytes u.full) ∧
  (∀ (dr : BitVec 264) (s : State), (s.nv.lc = 1 ∨ s.nv.lc = 3) → s.mode ≠ .reset → bits dr.toNat 5 4 ≠ 3 → bits dr.toNat 7 6 = 0 → ∃ t,
    exec (.jtagKeyLoad dr) s = .next t ∧
    t.nv.hostKeys = kset s.nv.hostKeys (bits dr.toNat 3 0) ⟨(List.range 32).map fun i => byteOf (bits dr.toNat (15 + 8 * i) (8 + 8 * i)), bits dr.toNat 5 4⟩ ∧
    t.nv.lc = s.nv.lc ∧ t.nv.mzKeys = s.nv.mzKeys ∧ t.legs = s.legs ∧ t.tmu = s.tmu ∧ t.mmu = s.mmu) ∧
  (∀ (dr : BitVec 264) (s : State), s.nv.lc ≠ 1 → s.nv.lc ≠ 3 → exec (.jtagKeyLoad dr) s = .next s) ∧
  (∀ (k : Fin 5) (s : State), s.mode ≠ .reset → lcAllowed true s.nv.lc k.val = true → ∃ t, exec (.jtagLcTransition k) s = .next t ∧
    (k.val < 3 → t = s.setNv { s.nv with lcNext := some k.val }) ∧
    (3 ≤ k.val → t.nv = { s.nv with lcNext := some k.val, hostKeys := [], mzKeys := [], keyLost := s.nv.recno + 1 } ∧ Wiped (s.setNv t.nv) t)) ∧
  (∀ (k : Fin 5) (s : State), lcAllowed true s.nv.lc k.val = false → exec (.jtagLcTransition k) s = .next s)

/-! ### Records, firmware, reports, background work, shutdown and I2C (R29, R424, R532-R566, R585, R595) -/

/-- The partition, firmware slots, the trial and the start plan are kept in PRS (R29, R560, R565); a checkpoint that is asked for is answered when
it is written (R541); blocks that fail are retired to spares until PRS fails, which it reports (R20, R540, R543). The start log, read from the
record die with a number of corrected reads that the spec does not give (R550; log entry 58: a free value), the PRS registers, the slots, a command's
fate, a leg's figures and the health values are returned (R424, R548, R565); the exporter begins with its templates, and sends them and its
health records by their intervals (R544, R545), what would pass the fabric cap waiting for the next boundary (R532; log entry 90). -/
def Obligations.RecordsSlotsAndReports : Prop :=
  Does false opPrsPartition 0x0D01 .prsPartition (done fun q s => s.setNv { s.nv with bkgGib := u8 q.payload 0, patGib := u8 q.payload 1 }) ∧
  (∀ (q : Req) (s : State), Accepted opPrsCheckpoint 0x0D02 q s [] → Waits false (.prsCheckpoint q) q s
    { s with bgw := { s.bgw with ckDue := true, ckBy := s.bgw.ckBy ++ [(q.mbox.val, q.seq.toNat)] } }) ∧
  (∀ s : State, s.mode = .service → s.bgw.ckDue = false → jrnlMax / 2 ≤ s.nv.sinceCk →
    exec .checkpointTimer s = .next { s with bgw := { s.bgw with ckDue := true } }) ∧
  (∀ (s : State) (c : Ckpt), s.mode = .service → s.bgw.ckDue = false → s.nv.newest = some c → c.recno < s.nv.recno → s.bgw.ckLoc + 60 * secI ≤ s.loc →
    exec .checkpointTimer s = .next { s with bgw := { s.bgw with ckDue := true } }) ∧
  (∀ s : State, s.nv.sinceCk < jrnlMax / 2 → s.loc < s.bgw.ckLoc + 60 * secI → exec .checkpointTimer s = .next s) ∧
  (∀ (ok : Bool) (s : State), s.bgw.ckDue = false → exec (.checkpointWritten ok) s = .next s) ∧
  (∀ (ok : Bool) (s : State), s.bgw.ckDue = true → s.fabFull s.ckptLen = true → exec (.checkpointWritten ok) s = .next (s.capHold 4)) ∧
  (∀ s : State, s.bgw.ckDue = true → s.fabFull s.ckptLen = false → s.bgw.ckBy = [] → s.nv.prsFailed = false → ∃ t, exec (.checkpointWritten true) s = .next t ∧
    t.nv = { s.nv.putCkpt ⟨s.nv.recno, s.nv.config⟩ with wear := s.nv.wear + 1 } ∧ t.bgw.fab = s.bgw.fab + s.ckptLen ∧ t.bgw.ckDue = false ∧ t.bgw.ckLoc = s.loc ∧ t.reg R.PRS_CKPT = s.nv.recno % 2 ^ 32 ∧
    t.reg R.PRS_CKPT_CNT = (s.reg R.PRS_CKPT_CNT + 1) % 2 ^ 32 ∧ t.legs = s.legs ∧ t.qcp = s.qcp) ∧
  (∀ s : State, s.bgw.ckDue = true → s.fabFull s.ckptLen = false → s.bgw.ckBy = [] → Gives (.checkpointWritten false) s [R.PRS_CKPT_FAIL_CNT, R.PRS_EVT]
    { s with bgw := { s.bgw with ckDue := false, ckLoc := s.loc } } fun t =>
      t.reg R.PRS_CKPT_FAIL_CNT = (s.reg R.PRS_CKPT_FAIL_CNT + 1) % 2 ^ 32 ∧ tb (t.reg R.PRS_EVT) 1 = true) ∧
  (∀ (b : Fin 2048) (s : State), s.nv.prsFailed = true → exec (.prsBlockFail b) s = .next s) ∧
  (∀ (b : Fin 2048) (s : State), s.nv.prsFailed = false → s.mode ≠ .reset → s.nv.spares = 0 →
    exec (.prsBlockFail b) s = .next (let t := s.setNv { s.nv with prsFailed := true }; if s.mode = .starting then t else t.went .prs .on .failed)) ∧
  (∀ (b : Fin 2048) (s : State), s.nv.prsFailed = false → s.mode ≠ .reset → 0 < s.nv.spares → Gives (.prsBlockFail b) s [R.PRS_RETIRE_CNT, R.PRS_EVT]
    (s.setNv { s.nv with spares := s.nv.spares - 1, retired := s.nv.retired + 1 }) fun t =>
      t.reg R.PRS_RETIRE_CNT = (s.reg R.PRS_RETIRE_CNT + 1) % 2 ^ 32 ∧ tb (t.reg R.PRS_EVT) 2 = true ∧
      (s.nv.spares - 1 < 8 → tb (t.reg R.PRS_EVT) 3 = true)) ∧
  Does false opPrsLogRead 0x0D81 .prsLogRead (fun q s =>
    let first := s.nv.slogN - s.nv.slog.length
    let i := max (num q.payload 0 4) first
    (s.drawn.bumpBy R.PRS_ECC_CE_CNT (s.draw 8), St.ok,
      ((s.nv.slog.drop (i - first)).take (min (num q.payload 0 4 + num q.payload 4 4) s.nv.slogN - i)).flatMap id)) ∧
  Does false opPrsInfo 0x0D82 .prsInfo (replied fun _ s => (List.range 6).flatMap fun k => be 4 ((prsView s false (R.PRS_STAT + 4 * k)).getD (s.reg (R.PRS_STAT + 4 * k)))) ∧
  Does false opFwLoad 0x0E01 .fwLoad (fun q s =>
    let k := u8 q.payload 0
    let image := q.payload.drop 8
    let t := s.prsWrote image.length
    if sigOk image then (t.setNv (t.nv.setSlot k ⟨1, image⟩), St.ok, []) else (t.setNv (t.nv.setSlot k ⟨2, image⟩), St.auth, [])) ∧
  Does false opFwActivate 0x0E02 .fwActivate (done fun q s => s.setNv { s.nv with trial := some (u8 q.payload 0) }) ∧
  Does false opFwStartClear 0x0E03 .fwStartClear (done fun _ s => s.setNv { s.nv with plan := List.replicate 14 0, fails := 0 }) ∧
  Does false opFwInfo 0x0E81 .fwInfo (replied fun _ s =>
    let slot (x : FwSlot) : Bytes := be 1 x.st ++ zeros 3 ++ be 4 (num x.image 4 4) ++ be 4 x.image.length
    slot s.nv.fwA ++ slot s.nv.fwB ++ be 1 s.nv.committed ++ be 1 (s.nv.trial.getD 0xFF) ++ be 1 s.nv.lastCause ++ be 1 (min 255 s.nv.fails) ++
      s.nv.plan.flatMap (be 1)) ∧
  DoesIf (fun q _ => u8 q.payload 0 = 0) false opStatIpfixSet 0x0F01 .statIpfixSet (done fun q s => s.setNv { s.nv with ipfix := some (ipfixOf q.payload) }) ∧
  (∀ (q : Req) (s : State), Accepted opStatIpfixSet 0x0F01 q s [] → u8 q.payload 0 = 1 → ∃ t, exec (.statIpfixSet q) s = .next t ∧
    t.nv.ipfix = some (ipfixOf q.payload) ∧ t.ipx.healthLoc = s.loc ∧ t.ipx.tmplLoc = s.loc ∧ t.ipx.seq = s.ipx.seq ∧ t.legs = s.legs ∧ t.tmu = s.tmu) ∧
  Does false opStatLeg 0x0F81 .statLeg (replied fun q s =>
    let x := (s.leg (legOf q.payload)).rx
    s.legFigures (legOf q.payload) ++ pkeLegCnts.flatMap (fun k => be 4 ((s.leg (legOf q.payload)).figure k)) ++ s.echoRec (legOf q.payload) ++
      be 1 (b2n x.bye) ++ zeros 3 ++ be 8 x.srNtp ++ be 4 x.srTs ++ be 2 x.reports.length ++ x.reports.flatMap fun r => be 2 r.length ++ r) ∧
  Does false opStatDevice 0x0F82 .statDevice (replied fun _ s => s.healthBytes ++ be 4 (s.fld R.SWT_LEGS_FULL_FULL)) ∧
  Does false opStatJrnlFate 0x0F90 .statJrnlFate (replied fun q s =>
    match s.nv.fates.reverse.find? fun f => f.boot == num q.payload 0 4 && f.session == num q.payload 4 2 && f.keyId == u8 q.payload 6 with
    | none => be 1 3 ++ zeros 3 ++ be 4 0
    | some f =>
      let n := num q.payload 8 4
      be 1 (if f.h < n then 1 else if n + 63 < f.h then 2 else if tb f.map (f.h - n) then 0 else 1) ++ zeros 3 ++ be 4 f.h) ∧
  (∀ (s : State) (x : Ipfix), s.nv.ipfix = some x → x.en = true → s.mode = .service → s.ipx.tmplLoc + nsI 600000000000 ≤ s.loc →
    (s.fabFull ipfixRoom = true → exec .ipfixTemplate s = .next (s.capHold 6)) ∧
    let t := s.ipfixSend x (templateSet x.ent 256 ++ templateSet x.ent 257 ++ templateSet x.ent 258) 0
    (s.fabFull ipfixRoom = false → exec .ipfixTemplate s = .next { t with ipx := { t.ipx with tmplLoc := t.loc } })) ∧
  (∀ s : State, s.loc < s.ipx.tmplLoc + nsI 600000000000 → exec .ipfixTemplate s = .next s) ∧
  (∀ (s : State) (x : Ipfix), s.nv.ipfix = some x → x.en = true → s.mode = .service → s.ipx.healthLoc + nsI (x.per * 1000000000) ≤ s.loc →
    (s.fabFull ipfixRoom = true → exec .ipfixHealth s = .next (s.capHold 5)) ∧
    (s.fabFull ipfixRoom = false → exec .ipfixHealth s =
      .next (({ s with ipx := { s.ipx with healthLoc := s.ipx.healthLoc + nsI (x.per * 1000000000) } }).ipfixSend x
        (ipfixSet 258 (s.ntp s.now ++ s.healthBytes)) 1))) ∧
  (∀ s : State, (∀ x, s.nv.ipfix = some x → x.en = false) → exec .ipfixHealth s = .next s ∧ exec .ipfixTemplate s = .next s)

/-- The winnower reads one word when it is due and the cap leaves room (R532, R534); a pseudo-channel is retrained in Guard (R536); the sensors give
Tj and the level of R537; AVS moves by 5 mV (R585, R586). A shutdown stops captures, players and rings at once (R562), is answered when its
drain has ended and the checkpoint is written or has failed (log entry 29), and halts or starts the part again; an abort takes it back (R564). The I2C target reads registers
from the address it was given (R595). -/
def Obligations.BackgroundShutdownAndI2c : Prop :=
  (∀ (sp : ScrubSpace) (w : ScrubWord) (s : State), (s.mode ≠ .service ∨ s.flag R.BGW_CFG_SCRUB_EN = false) → exec (.scrubRead sp w) s = .next s) ∧
  (∀ s : State, s.mode = .service → s.flag R.BGW_CFG_SCRUB_EN = true → s.wordDue false = true → s.bgw.fab + 8 ≤ s.fabCap → s.bgw.loftAt + 1 < 33554432 →
    let t := s.setBgw { s.bgw with fab := s.bgw.fab + 8, loftAt := s.bgw.loftAt + 1 }
    exec (.scrubRead .loft .clean) s = .next t ∧ exec (.scrubRead .loft .ce) s = .next (t.bump R.BGW_SCRUB_CE_CNT) ∧
    Gives (.scrubRead .loft .ue) s [R.BGW_UE_ADDR_HI, R.BGW_UE_ADDR_LO, R.BGW_SCRUB_UE_CNT, R.BGW_EVT] t fun u =>
      u.reg R.BGW_UE_ADDR_HI = 0 ∧ u.reg R.BGW_UE_ADDR_LO = 8 * s.bgw.loftAt ∧ u.reg R.BGW_SCRUB_UE_CNT = (s.reg R.BGW_SCRUB_UE_CNT + 1) % 2 ^ 32 ∧
      tb (u.reg R.BGW_EVT) 0 = true) ∧
  (∀ (sp : ScrubSpace) (w : ScrubWord) (s : State), s.mode = .service → s.flag R.BGW_CFG_SCRUB_EN = true →
    (match sp with | .loft => s.wordDue false | .hbm => s.wordDue true) = true → s.bgw.fab + 8 ≤ s.fabCap →
    exec (.scrubRead sp w) s = .next (s.scrub (match sp with | .loft => false | .hbm => true) w)) ∧
  (∀ (sp : ScrubSpace) (w : ScrubWord) (s : State), s.mode = .service → s.flag R.BGW_CFG_SCRUB_EN = true →
    (match sp with | .loft => s.wordDue false | .hbm => s.wordDue true) = true → s.fabFull 8 = true →
    exec (.scrubRead sp w) s = .next (s.capHold (match sp with | .loft => 0 | .hbm => 1))) ∧
  (∀ (p : Fin 64) (ok : Bool) (s : State), s.mode = .service → s.swt.begun = true → s.phase = .guard → s.elapsed + nsI 1500 ≤ s.swt.d →
    p.val < 32 * s.fld R.MMU_HBM_STACKS → s.bgw.trainLoc + nsI (s.fld R.BGW_CAL_RETRAIN_MS * 1000000) ≤ s.loc →
    let t := (s.setBgw { s.bgw with trainLoc := s.loc }).bump R.BGW_RETRAIN_CNT
    exec (.hbmRetrain p ok) s = .next (if ok then t else (t.bump R.BGW_CAL_FAIL_CNT).raise R.BGW_EVT 16)) ∧
  (∀ (p : Fin 64) (ok : Bool) (s : State), s.phase ≠ .guard → exec (.hbmRetrain p ok) s = .next s) ∧
  (∀ s : State, exec .pllCalibration s = .next s) ∧
  (∀ (r : List (BitVec 16)) (s : State), r.length = 16 → s.mode = .service →
    let tj := (r.map fun x => sgn 16 x.toNat).foldl (fun a x => if a < x then x else a) ((r.map fun x => sgn 16 x.toNat).headD 0)
    let l := s.fld R.BGW_THERM_STAT_LEVEL
    let k := if l < s.thermRise tj then s.thermRise tj else s.thermFall tj l
    exec (.sensorRead r) s = .next (s.thermal r) ∧
    (k ≤ 2 → (s.thermal r).fld R.BGW_THERM_STAT_LEVEL = k ∧ (s.thermal r).fld R.BGW_THERM_STAT_TJ = unsgn 16 tj ∧
      (s.thermal r).pins.thermN = (k == 0 && !s.boot.hot) ∧ (s.thermal r).legs = s.legs ∧ (s.thermal r).nv = s.nv)) ∧
  (∀ (r : List (BitVec 16)) (s : State), s.mode ≠ .service → exec (.sensorRead r) s = .next s) ∧
  (∀ (up ok : Bool) (s : State), s.mode = .service → s.bgw.avsDead = false → s.bgw.avsLoc + nsI 1000000 ≤ s.loc →
    let mv := if up then s.bgw.mv + 5 else s.bgw.mv - 5
    (700 ≤ mv → mv ≤ 800 → exec (.avsAdjust up ok) s =
      .next (if ok then s.setBgw { s.bgw with mv := mv, avsLoc := s.loc } else s.setBgw { s.bgw with avsDead := true })) ∧
    ((mv < 700 ∨ 800 < mv) → exec (.avsAdjust up ok) s = .next s)) ∧
  (∀ (q : Req) (s : State), Accepted opShutBegin 0x1001 q s [] → s.swt.begun = true →
    let e := s.shutStart (u8 q.payload 0) (tb (u8 q.payload 1) 0) (tb (u8 q.payload 1) 1) (num q.payload 2 2 * 1000000000)
      (some (s.sessNum q.mbox.val, q.seq.toNat))
    Waits false (.shutBegin q) q s e ∧ e.shut.phase = 1 ∧ e.shut.action = u8 q.payload 0 ∧ e.legs = s.legs) ∧
  Does false opShutAbort 0x1002 .shutAbort (done fun _ s =>
    let t := (s.shutReply St.state 0xFFFF).revive
    t.setShut { t.shut with phase := 0, by_ := none, legs := [] }) ∧
  Does false opShutStatus 0x1081 .shutStatus (replied fun _ s => be 1 s.shut.phase ++ zeros 3 ++ be 4 s.liveLegs.length ++ be 8 s.exportLeft) ∧
  (∀ s : State, s.shut.phase ≠ 2 → s.shut.phase ≠ 3 → exec .shutdownDrainEnd s = .next s) ∧
  (∀ s : State, s.shut.phase = 2 → s.drained = false → exec .shutdownDrainEnd s = .next s) ∧
  (∀ (s : State) (x : Nat × Nat), s.shut.phase = 2 → s.drained = true → s.shut.by_ = some x →
    ∃ t, exec .shutdownDrainEnd s = .next t ∧ t.shut.phase = (if s.shut.skip then 3 else 4) ∧ t.mode = s.mode ∧ t.legs = s.legs ∧
      (s.nv.prsFailed = false → t.reg R.PRS_CKPT_CNT = (s.reg R.PRS_CKPT_CNT + 1) % 2 ^ 32 ∧ (s.shut.forget = true → t.nv.jrnl = [])) ∧
      (s.nv.prsFailed = true → t.reg R.PRS_CKPT_FAIL_CNT = (s.reg R.PRS_CKPT_FAIL_CNT + 1) % 2 ^ 32 ∧ t.nv = s.nv)) ∧
  (∀ s : State, s.shut.phase = 3 → s.shutReplyGone = true → s.shut.action = 0 → ∃ t, exec .shutdownDrainEnd s = .next t ∧ t.mode = .halted ∧
    t.shut.phase = 6) ∧
  (∀ s : State, s.shut.phase = 3 → s.shutReplyGone = true → s.shut.action ≠ 0 → s.legs = [] → (∀ p, p < 8 → s.portSt p = .off) → s.pins.run = true →
    ∃ t, exec .shutdownDrainEnd s = .next t ∧ t.mode = .starting ∧ t.boot.cause = 5 ∧ t.nv.fullNext = (s.shut.action == 2) ∧
      t.nv.recNext = (s.shut.action == 3)) ∧
  (∀ (r : ShutTest) (s : State), s.shut.phase = 4 → s.shut.action = 0 → s.legs = [] → (∀ p, p < 8 → s.portSt p = .off) →
    ∃ t, exec (.shutdownTestDone r) s = .next t ∧ t.mode = .halted ∧ t.nv.shut = some (s.nv.boot, r.fails.isEmpty && !r.unrep) ∧
      t.nv.repair = s.nv.repair ++ r.repairs) ∧
  (∀ (r : ShutTest) (s : State), s.shut.phase ≠ 4 → exec (.shutdownTestDone r) s = .next s) ∧
  (∀ (a : BitVec 32) (s : State), s.mode ≠ .reset → exec (.i2cAddressWrite a) s = .next { s with i2cAddr := a.toNat }) ∧
  (∀ (a : BitVec 32) (n : Fin 65) (s : State), s.mode = .reset → exec (.i2cAddressWrite a) s = .next s ∧ exec (.i2cRead n) s = .next s) ∧
  (∀ (n : Fin 65) (s : State), s.mode ≠ .reset → s.i2cAddr % 4 = 0 →
    exec (.i2cRead n) s = .next { (readRegs n.val s true s.i2cAddr).1 with
      busOut := (readRegs n.val s true s.i2cAddr).2.map (BitVec.ofNat 32), i2cAddr := (s.i2cAddr + 4 * n.val) % 2 ^ 32 }) ∧
  (∀ (n : Fin 65) (s : State), s.mode ≠ .reset → s.i2cAddr % 4 ≠ 0 →
    exec (.i2cRead n) s = .next { s with busOut := List.replicate n.val (BitVec.ofNat 32 0xFFFFFFFF) })

/-! ### The block as a whole (R10, R17, R187, R419, R523, R526) -/

/-- One step takes the command at the front of the queue and is that command's effect on the state with the queue's rest; with no command waiting
the block idles (the model's choice, log entry 2). -/
def Obligations.AStepRunsTheFrontCommand : Prop :=
  (∀ (c : Instr) (r : List Instr) (s : State), s.pending = c :: r → step s = exec c { s with pending := r }) ∧
  (∀ s : State, s.pending = [] → step s = .next s)

/-- The part held in reset: nothing waits, no register has been written, so every one reads as its reset value (R10); no leg, session, port, task,
capture or conference is there, every function is OFF and has reported nothing (R17, R20), no call waits at an engine, no TLB holds an entry, and the invariant holds. Where the spec gives no reset value the log entries 1, 3
and 25 name the model's. -/
def Obligations.ThePartAfterReset : Prop :=
  State.reset.pending = [] ∧ State.reset.mode = .reset ∧ (∀ a, State.reset.reg a = regReset a) ∧ State.reset.fld R.SWT_CFG_LEN = 1 ∧
  State.reset.fld R.TMU_STAT_VALID = 0 ∧ (∀ a, State.reset.memByte a = 0) ∧ (∀ m, (State.reset.sess m).st = .off) ∧ (∀ l, (State.reset.leg l).st = .off) ∧
  (∀ p, p < 8 → State.reset.portSt p = .off) ∧ (∀ c, (State.reset.cap c).st = .off) ∧ (∀ e, (State.reset.deng e).st = .off) ∧
  (∀ e, (State.reset.beng e).st = .off) ∧ (∀ e, e < 16 → State.reset.fceSt e = .off) ∧ (∀ e, e < 32 → State.reset.eceSt e = .off) ∧
  State.reset.tmu.srv.st = .off ∧ State.reset.fns = [] ∧ State.reset.engQ = [] ∧ (∀ u, kgetD State.reset.mmu.tlb u [] = []) ∧ State.reset.knl.tasks = [] ∧ State.reset.confs = [] ∧ State.reset.nv.jrnl = [] ∧ Inv State.reset

/-- The invariant holds after every step from every state in which it holds: memory keeps its canonical form, the life cycle is one of the five states,
and what waits for the next start is a transition of the table (R369, R523). -/
def Obligations.EveryStepKeepsTheInvariant : Prop :=
  ∀ s t : State, Inv s → step s = .next t → Inv t

/-- No command moves the life cycle but by the table of R523: the state changes only in a start, to what waited for one; what waits is only ever a
transition of the table from the state that holds now; and END is never left. -/
def Obligations.TheLifeCycleMovesByItsTable : Prop :=
  ∀ s t : State, Inv s → step s = .next t →
    (t.nv.lc = s.nv.lc ∨ (s.nv.lcNext = some t.nv.lc ∧ (lcAllowed true s.nv.lc t.nv.lc || lcAllowed false s.nv.lc t.nv.lc) = true ∧
      ∃ env r, s.pending = .startSequence env :: r ∨ ∃ k, s.pending = .startStepTimeout k env :: r)) ∧
    (t.nv.lcNext = s.nv.lcNext ∨ t.nv.lcNext = none ∨ ∃ k, t.nv.lcNext = some k ∧ (lcAllowed true s.nv.lc k || lcAllowed false s.nv.lc k) = true) ∧
    (s.nv.lc = 4 → t.nv.lc = 4)

/-- The queue is fed from outside only: no command writes it. Host keys change only when the reply to a session's command has left, or through JTAG
(R187, R523, R526); the boot number changes only in a start (R419). -/
def Obligations.OnlyTheseCommandsChangeKeysAndBoot : Prop :=
  ∀ (c : Instr) (s t : State), exec c s = .next t → t.pending = s.pending ∧
    (t.nv.hostKeys = s.nv.hostKeys ∨ (∃ m, c = .replySend m) ∨ (∃ v, c = .qcpDbRpl v) ∨ (∃ d, c = .jtagKeyLoad d) ∨ ∃ k, c = .jtagLcTransition k) ∧
    (t.nv.boot = s.nv.boot ∨ (∃ e, c = .startSequence e) ∨ ∃ k e, c = .startStepTimeout k e)
end

