-- ==== Sys2Proof/Laws/Kv.lean ====
section
/-! SUPPORT. Keyed lists: what a read gives after a write, and registers and sessions in those terms. -/

namespace Sys2Proof.Machine

open Sys2Proof

/-- A read after a write gives the value written, and a write leaves every other key alone. -/
theorem kget_kset {α : Type} (x : α) (i j : Nat) : ∀ m : KV α, kget (kset m i x) j = if i = j then some x else kget m j
  | [] => by
    simp only [kset, kget]
    by_cases h : i = j
    · simp [h]
    · simp [h, Ne.symm h]
  | (k, v) :: m => by
    have ih := kget_kset x i j m
    by_cases h : i = j
    · subst h
      by_cases h1 : i < k
      · simp [kset, kget, h1]
      · by_cases h2 : i = k
        · simp [kset, kget, h2]
        · simp [kset, kget, h1, h2, ih]
    · rw [if_neg h] at ih ⊢
      by_cases h1 : i < k
      · have h3 : j < i → j ≠ k ∧ j < k := by omega
        by_cases h4 : j < i
        · simp [kset, kget, h1, Ne.symm h, h4, h3 h4]
        · simp [kset, kget, h1, Ne.symm h, h4]
      · by_cases h2 : i = k
        · subst h2
          simp [kset, kget, Ne.symm h]
        · simp [kset, kget, h1, h2, ih]

@[simp] theorem kget_kset_same {α : Type} (m : KV α) (x : α) (i : Nat) : kget (kset m i x) i = some x := by simp [kget_kset]

@[simp] theorem kget_kset_ne {α : Type} (m : KV α) (x : α) {i j : Nat} (h : i ≠ j) : kget (kset m i x) j = kget m j := by
  simp [kget_kset, h]

@[simp] theorem kgetD_kset_same {α : Type} (m : KV α) (x d : α) (i : Nat) : kgetD (kset m i x) i d = x := by simp [kgetD]

@[simp] theorem kgetD_kset_ne {α : Type} (m : KV α) (x d : α) {i j : Nat} (h : i ≠ j) : kgetD (kset m i x) j d = kgetD m j d := by
  simp [kgetD, h]

/-- A register reads as the value stored, modulo its width. -/
@[simp] theorem State.reg_setReg_same (s : State) (a v : Nat) : (s.setReg a v).reg a = v % 2 ^ 32 := by
  simp [State.reg, State.setReg]

/-- A write leaves every other register alone. -/
theorem State.reg_setReg_ne (s : State) (v : Nat) {a b : Nat} (h : a ≠ b) : (s.setReg a v).reg b = s.reg b := by
  simp [State.reg, State.setReg, h]

@[simp] theorem State.sess_setSess_same (s : State) (m : Nat) (x : Session) : (s.setSess m x).sess m = x := by
  simp [State.sess, State.setSess, State.setQcp]

theorem State.sess_setSess_ne (s : State) (x : Session) {m j : Nat} (h : m ≠ j) : (s.setSess m x).sess j = s.sess j := by
  simp [State.sess, State.setSess, State.setQcp, h]

end Sys2Proof.Machine
end

