-- ==== Sys2Proof/Laws/Command.lean ====
section
/-! SUPPORT. What taking, journaling and answering a command leaves: `Aside`, and how a command completes. -/

namespace Sys2Proof.Machine

open Sys2Proof

@[simp] theorem be_length (n v : Nat) : (be n v).length = n := by
  induction n generalizing v with
  | zero => rfl
  | succ n ih => simp [be, ih]

/-! ### Aside -/

theorem Aside.refl (m : Nat) (s : State) : Aside m s s := ⟨rfl, fun _ _ => rfl, fun _ _ => rfl⟩

theorem Aside.trans {m : Nat} {s t u : State} (h : Aside m s t) (k : Aside m t u) : Aside m s u :=
  ⟨k.rest.trans h.rest, fun a ha => (k.regs a ha).trans (h.regs a ha), fun j hj => (k.sess j hj).trans (h.sess j hj)⟩

theorem aside_setReg {m : Nat} {s : State} {a v : Nat} (h : qcpReg a = true) : Aside m s (s.setReg a v) :=
  ⟨rfl, fun b hb => State.reg_setReg_ne _ _ (by rintro rfl; rw [h] at hb; cases hb), fun _ _ => rfl⟩

theorem aside_bump {m : Nat} {s : State} {a : Nat} (h : qcpReg a = true) : Aside m s (s.bump a) := aside_setReg h

theorem aside_setSess {m : Nat} {s : State} {x : Session} : Aside m s (s.setSess m x) :=
  ⟨rfl, fun _ _ => rfl, fun j hj => by rw [State.sess_setSess_ne _ _ (Ne.symm hj)]⟩

theorem aside_rr {m a b : Nat} {s : State} : Aside m s (s.setQcp { s.qcp with rrAdmin := a, rrOther := b }) := ⟨rfl, fun _ _ => rfl, fun _ _ => rfl⟩

theorem qcpReg_drop : qcpReg R.QCP_EVT_DROP_CNT = true := by decide

/-- The part of a session that a reply is made from. -/
def Session.face (x : Session) : FnState × Nat × Bytes × Nat × List (BitVec 32) × List Bytes := (x.st, x.gen, x.ks, x.port, x.tags, x.out)

theorem aside_eventTo {m j op b : Nat} {s : State} {d : Bytes} : Aside m s (s.eventTo j op b d) := by
  have hs : ∀ x : Session, x.quiet = (s.sess j).quiet → Aside m s (s.setSess j x) := fun x hx =>
    ⟨rfl, fun _ _ => rfl, fun i _ => by
      by_cases h : j = i
      · subst h; rw [State.sess_setSess_same]; exact hx
      · rw [State.sess_setSess_ne _ _ h]⟩
  simp only [State.eventTo, State.eventAt]
  split
  · split
    · exact hs _ rfl
    · refine Aside.trans (hs _ ?_) (aside_bump qcpReg_drop)
      rfl
  · exact Aside.refl m s

theorem eventTo_quiet {i j op b : Nat} {s : State} {d : Bytes} : ((s.eventTo j op b d).sess i).quiet = (s.sess i).quiet :=
  (aside_eventTo (m := i + 1)).sess i (by omega)

/-- Events reach sessions only as entries of their event queues. -/
theorem aside_eventAll {m bit op b : Nat} {s : State} {d : Bytes} : Aside m s (s.eventAll bit op b d) := by
  have main : ∀ (l : KV Session) (t : State), Aside m s t →
      Aside m s (l.foldl (fun t p => if tb p.2.mask bit then t.eventTo p.1 op b d else t) t) := by
    intro l
    induction l with
    | nil => exact fun _ h => h
    | cons p l ih =>
      intro t h
      refine ih _ ?_
      show Aside m s (if tb p.2.mask bit = true then t.eventTo p.1 op b d else t)
      split
      · exact h.trans aside_eventTo
      · exact h
  exact main _ _ (Aside.refl m s)

theorem aside_raise {m a v : Nat} {s : State} (h : qcpReg a = true) : Aside m s (s.raise a v) := by
  simp only [State.raise]
  split
  · exact aside_setReg h
  · exact (aside_setReg h).trans aside_eventAll

theorem aside_renewLease {m : Nat} {s : State} : Aside m s (s.renewLease m) := by
  simp only [State.renewLease]
  split
  · exact aside_setSess
  · exact Aside.refl m s

theorem aside_unbell {m : Nat} {s : State} (h : m < 256) : Aside m s (s.unbell m) := by
  unfold State.unbell
  split
  · refine aside_setReg ?_
    have h8 : m / 32 < 8 := by omega
    have : ∀ k < 8, qcpReg (R.QCP_DB_CMD k) = true := by decide
    exact this _ h8
  · exact Aside.refl m s

/-- Taking a command touches nothing but QCP. -/
theorem aside_take {m : Nat} {s : State} (h : m < 256) : Aside m s (s.take m) := by
  have h1 : Aside m s (if (s.sess m).ring.isEmpty then
      ((s.setSess m { s.sess m with expect := ((s.sess m).expect + 1) % 2 ^ 32 }).renewLease m).bump R.QCP_RX_CNT
    else (s.setSess m { s.sess m with ring := (s.sess m).ring.drop 1 }).unbell m) := by
    split
    · exact (aside_setSess.trans aside_renewLease).trans (aside_bump (by decide))
    · exact aside_setSess.trans (aside_unbell h)
  simp only [State.take]
  split
  · exact h1.trans aside_rr
  · exact h1.trans aside_rr

theorem aside_replyAs {m dev seq op st det : Nat} {jrn : Bool} {r : Bytes} {s : State} (h : (s.sess m).st = .on) :
    Aside m s (s.replyAs dev m seq op st det jrn r) := by
  simp only [State.replyAs, h]
  exact aside_setSess

theorem aside_finish {d : Done} {c : Ctx} {dev : Nat} {jrn : Bool} (h : (d.s.sess c.mbox).st = .on) :
    Aside c.mbox d.s (d.finish c dev jrn) := by
  unfold Done.finish
  split
  · exact aside_setSess
  · exact aside_replyAs h

theorem face_st {x y : Session} (h : x.face = y.face) : x.st = y.st := by
  simp only [Session.face, Prod.mk.injEq] at h; exact h.1

theorem aside_setFld {m v : Nat} {s : State} {f : Fld} (h : qcpReg f.addr = true) : Aside m s (s.setFld f v) := aside_setReg h

theorem aside_bumpBy {m a n : Nat} {s : State} (h : qcpReg a = true) : Aside m s (s.bumpBy a n) := aside_setReg h

theorem aside_prsWrote {m n : Nat} {s : State} : Aside m s (s.prsWrote n) :=
  (((show Aside m s { s with
      nv := { s.nv with wear := s.nv.wear + 1 }, bgw := { s.bgw with prsBytes := s.bgw.prsBytes + n, fab := s.bgw.fab + n } } from
    ⟨rfl, fun _ _ => rfl, fun _ _ => rfl⟩).trans (aside_bumpBy (by decide))).trans (aside_setFld (by decide))).trans (aside_setFld (by decide))

theorem aside_commitRec {m : Nat} {s u : State} {r : JRec} (h : s.commitRec r = some u) : Aside m s u := by
  simp only [State.commitRec] at h
  split at h
  · cases h
  · cases h
    have h1 : Aside m s (((s.setNv { s.nv with recno := r.recno, jrnl := s.nv.jrnl ++ [r], sinceCk := s.nv.sinceCk + r.size }).prsWrote r.size).setReg R.PRS_RECNO r.recno) :=
      ((show Aside m s (s.setNv { s.nv with recno := r.recno, jrnl := s.nv.jrnl ++ [r], sinceCk := s.nv.sinceCk + r.size }) from
        ⟨rfl, fun _ _ => rfl, fun _ _ => rfl⟩).trans aside_prsWrote).trans (aside_setReg (by decide))
    split
    · exact h1.trans (aside_raise (by decide))
    · exact h1

theorem aside_fateCommit {m a b c : Nat} {s : State} : Aside m s (s.fateCommit a b c) := ⟨rfl, fun _ _ => rfl, fun _ _ => rfl⟩

/-! ### Congruence: an effect on another part of the state -/

/-- The state with other contents in the parts that a command leaves aside. -/
def State.overlay (s : State) (regs : KV Word) (sess : KV Session) (ra ro recno : Nat) (jrnl : List JRec) (ck : Nat) (fates : List Fate)
    (wear n fab : Nat) : State :=
  { s with
    regs := regs
    qcp := { s.qcp with sess := sess, rrAdmin := ra, rrOther := ro }
    nv := { s.nv with recno := recno, jrnl := jrnl, sinceCk := ck, fates := fates, wear := wear }
    bgw := { s.bgw with prsBytes := n, fab := fab } }

/-- A state beside another is that state with other contents in the parts left aside. -/
theorem Aside.overlay {m : Nat} {s t : State} (h : Aside m s t) : t = s.overlay t.regs t.qcp.sess t.qcp.rrAdmin t.qcp.rrOther t.nv.recno t.nv.jrnl t.nv.sinceCk t.nv.fates t.nv.wear t.bgw.prsBytes t.bgw.fab := by
  have e : t.beside.overlay t.regs t.qcp.sess t.qcp.rrAdmin t.qcp.rrOther t.nv.recno t.nv.jrnl t.nv.sinceCk t.nv.fates t.nv.wear t.bgw.prsBytes t.bgw.fab = t := rfl
  rw [← e, h.rest]
  rfl

section congr
variable {m : Nat} {s t : State} (h : Aside m s t)
include h

theorem Aside.reg_eq {a : Nat} (ha : qcpReg a = false) : t.reg a = s.reg a := h.regs a ha
theorem Aside.fld_eq {f : Fld} (ha : qcpReg f.addr = false) : t.fld f = s.fld f := by unfold State.fld; rw [h.regs _ ha]
theorem Aside.free_eq : t.free = s.free := (congrArg State.free h.rest : t.beside.free = s.beside.free)
theorem Aside.mode_eq : t.mode = s.mode := (congrArg State.mode h.rest : t.beside.mode = s.beside.mode)
theorem Aside.tmu_eq : t.tmu = s.tmu := (congrArg State.tmu h.rest : t.beside.tmu = s.beside.tmu)
theorem Aside.swt_eq : t.swt = s.swt := (congrArg State.swt h.rest : t.beside.swt = s.beside.swt)
theorem Aside.ports_eq : t.ports = s.ports := (congrArg State.ports h.rest : t.beside.ports = s.beside.ports)
theorem Aside.mdio_eq : t.mdio = s.mdio := (congrArg State.mdio h.rest : t.beside.mdio = s.beside.mdio)
theorem Aside.tmpls_eq : t.tmpls = s.tmpls := (congrArg State.tmpls h.rest : t.beside.tmpls = s.beside.tmpls)
theorem Aside.sets_eq : t.sets = s.sets := (congrArg State.sets h.rest : t.beside.sets = s.beside.sets)
theorem Aside.cpts_eq : t.cpts = s.cpts := (congrArg State.cpts h.rest : t.beside.cpts = s.beside.cpts)
theorem Aside.legs_eq : t.legs = s.legs := (congrArg State.legs h.rest : t.beside.legs = s.beside.legs)
theorem Aside.confs_eq : t.confs = s.confs := (congrArg State.confs h.rest : t.beside.confs = s.beside.confs)
theorem Aside.armed_eq : t.armed = s.armed := (congrArg State.armed h.rest : t.beside.armed = s.beside.armed)
theorem Aside.knl_eq : t.knl = s.knl := (congrArg State.knl h.rest : t.beside.knl = s.beside.knl)
theorem Aside.shut_eq : t.shut = s.shut := (congrArg State.shut h.rest : t.beside.shut = s.beside.shut)
theorem Aside.pke_eq : t.pke = s.pke := (congrArg State.pke h.rest : t.beside.pke = s.beside.pke)
theorem Aside.grn_eq : t.grn = s.grn := (congrArg State.grn h.rest : t.beside.grn = s.beside.grn)
theorem Aside.mmu_eq : t.mmu = s.mmu := (congrArg State.mmu h.rest : t.beside.mmu = s.beside.mmu)
theorem Aside.frp_eq : t.frp = s.frp := (congrArg State.frp h.rest : t.beside.frp = s.beside.frp)
theorem Aside.gln_eq : t.gln = s.gln := (congrArg State.gln h.rest : t.beside.gln = s.beside.gln)
theorem Aside.tnd_eq : t.tnd = s.tnd := (congrArg State.tnd h.rest : t.beside.tnd = s.beside.tnd)
theorem Aside.bal_eq : t.bal = s.bal := (congrArg State.bal h.rest : t.beside.bal = s.beside.bal)
theorem Aside.ipx_eq : t.ipx = s.ipx := (congrArg State.ipx h.rest : t.beside.ipx = s.beside.ipx)
theorem Aside.boot_eq : t.boot = s.boot := (congrArg State.boot h.rest : t.beside.boot = s.beside.boot)

theorem Aside.withMode (x : Mode) : Aside m { s with mode := x } { t with mode := x } :=
  ⟨congrArg (fun u : State => { u with mode := x }) h.rest, h.regs, h.sess⟩
theorem Aside.withPins (x : Pins) : Aside m { s with pins := x } { t with pins := x } :=
  ⟨congrArg (fun u : State => { u with pins := x }) h.rest, h.regs, h.sess⟩
theorem Aside.withBusOut (x : List Word) : Aside m { s with busOut := x } { t with busOut := x } :=
  ⟨congrArg (fun u : State => { u with busOut := x }) h.rest, h.regs, h.sess⟩
theorem Aside.withI2cAddr (x : Nat) : Aside m { s with i2cAddr := x } { t with i2cAddr := x } :=
  ⟨congrArg (fun u : State => { u with i2cAddr := x }) h.rest, h.regs, h.sess⟩
theorem Aside.withTmu (x : Tmu) : Aside m { s with tmu := x } { t with tmu := x } :=
  ⟨congrArg (fun u : State => { u with tmu := x }) h.rest, h.regs, h.sess⟩
theorem Aside.withSwt (x : Swt) : Aside m { s with swt := x } { t with swt := x } :=
  ⟨congrArg (fun u : State => { u with swt := x }) h.rest, h.regs, h.sess⟩
theorem Aside.withPorts (x : KV Port) : Aside m { s with ports := x } { t with ports := x } :=
  ⟨congrArg (fun u : State => { u with ports := x }) h.rest, h.regs, h.sess⟩
theorem Aside.withMdio (x : Mdio) : Aside m { s with mdio := x } { t with mdio := x } :=
  ⟨congrArg (fun u : State => { u with mdio := x }) h.rest, h.regs, h.sess⟩
theorem Aside.withTmpls (x : KV Template) : Aside m { s with tmpls := x } { t with tmpls := x } :=
  ⟨congrArg (fun u : State => { u with tmpls := x }) h.rest, h.regs, h.sess⟩
theorem Aside.withSets (x : KV CoefSet) : Aside m { s with sets := x } { t with sets := x } :=
  ⟨congrArg (fun u : State => { u with sets := x }) h.rest, h.regs, h.sess⟩
theorem Aside.withCpts (x : KV Bytes) : Aside m { s with cpts := x } { t with cpts := x } :=
  ⟨congrArg (fun u : State => { u with cpts := x }) h.rest, h.regs, h.sess⟩
theorem Aside.withLegs (x : KV Leg) : Aside m { s with legs := x } { t with legs := x } :=
  ⟨congrArg (fun u : State => { u with legs := x }) h.rest, h.regs, h.sess⟩
theorem Aside.withConfs (x : KV Conf) : Aside m { s with confs := x } { t with confs := x } :=
  ⟨congrArg (fun u : State => { u with confs := x }) h.rest, h.regs, h.sess⟩
theorem Aside.withArmed (x : List Armed) : Aside m { s with armed := x } { t with armed := x } :=
  ⟨congrArg (fun u : State => { u with armed := x }) h.rest, h.regs, h.sess⟩
theorem Aside.withKnl (x : Knl) : Aside m { s with knl := x } { t with knl := x } :=
  ⟨congrArg (fun u : State => { u with knl := x }) h.rest, h.regs, h.sess⟩
theorem Aside.withEngAcc (x : KV Nat) : Aside m { s with engAcc := x } { t with engAcc := x } :=
  ⟨congrArg (fun u : State => { u with engAcc := x }) h.rest, h.regs, h.sess⟩
theorem Aside.withShut (x : Shut) : Aside m { s with shut := x } { t with shut := x } :=
  ⟨congrArg (fun u : State => { u with shut := x }) h.rest, h.regs, h.sess⟩
theorem Aside.withPke (x : Pke) : Aside m { s with pke := x } { t with pke := x } :=
  ⟨congrArg (fun u : State => { u with pke := x }) h.rest, h.regs, h.sess⟩
theorem Aside.withGrn (x : Grn) : Aside m { s with grn := x } { t with grn := x } :=
  ⟨congrArg (fun u : State => { u with grn := x }) h.rest, h.regs, h.sess⟩
theorem Aside.withMmu (x : Mmu) : Aside m { s with mmu := x } { t with mmu := x } :=
  ⟨congrArg (fun u : State => { u with mmu := x }) h.rest, h.regs, h.sess⟩
theorem Aside.withFrp (x : Frp) : Aside m { s with frp := x } { t with frp := x } :=
  ⟨congrArg (fun u : State => { u with frp := x }) h.rest, h.regs, h.sess⟩
theorem Aside.withGln (x : Gln) : Aside m { s with gln := x } { t with gln := x } :=
  ⟨congrArg (fun u : State => { u with gln := x }) h.rest, h.regs, h.sess⟩
theorem Aside.withTnd (x : Tnd) : Aside m { s with tnd := x } { t with tnd := x } :=
  ⟨congrArg (fun u : State => { u with tnd := x }) h.rest, h.regs, h.sess⟩
theorem Aside.withBal (x : Bal) : Aside m { s with bal := x } { t with bal := x } :=
  ⟨congrArg (fun u : State => { u with bal := x }) h.rest, h.regs, h.sess⟩
theorem Aside.withIpx (x : Ipx) : Aside m { s with ipx := x } { t with ipx := x } :=
  ⟨congrArg (fun u : State => { u with ipx := x }) h.rest, h.regs, h.sess⟩
theorem Aside.withBoot (x : BootSt) : Aside m { s with boot := x } { t with boot := x } :=
  ⟨congrArg (fun u : State => { u with boot := x }) h.rest, h.regs, h.sess⟩
theorem Aside.withFree (x : Nat) : Aside m { s with free := x } { t with free := x } :=
  ⟨congrArg (fun u : State => { u with free := x }) h.rest, h.regs, h.sess⟩
theorem Aside.setLeg (l : Nat) (x : Leg) : Aside m (s.setLeg l x) (t.setLeg l x) := by
  unfold State.setLeg; rw [h.legs_eq]; exact h.withLegs _
theorem Aside.setPke (x : Pke) : Aside m (s.setPke x) (t.setPke x) := h.withPke x
theorem Aside.setGrn (x : Grn) : Aside m (s.setGrn x) (t.setGrn x) := h.withGrn x
theorem Aside.setTmu (x : Tmu) : Aside m (s.setTmu x) (t.setTmu x) := h.withTmu x

theorem Aside.setReg (a v : Nat) : Aside m (s.setReg a v) (t.setReg a v) :=
  ⟨h.rest, fun b hb => by
    by_cases e : a = b
    · subst e; simp
    · rw [State.reg_setReg_ne _ _ e, State.reg_setReg_ne _ _ e, h.regs b hb], h.sess⟩

theorem Aside.drawn : Aside m s.drawn t.drawn :=
  ⟨by have e := h.rest; have f := h.free_eq; unfold State.drawn; rw [f]; exact congrArg (fun u : State => { u with free := s.free + 1 }) e, h.regs, h.sess⟩

theorem Aside.setFld {f : Fld} (hf : qcpReg f.addr = false) (v : Nat) : Aside m (s.setFld f v) (t.setFld f v) := by
  unfold State.setFld; rw [h.regs _ hf]; exact h.setReg _ _

theorem Aside.bump {a : Nat} (ha : qcpReg a = false) : Aside m (s.bump a) (t.bump a) := by
  unfold State.bump State.bumpBy; rw [h.regs _ ha]; exact h.setReg _ _

theorem Aside.bumpBy {a : Nat} (ha : qcpReg a = false) (n : Nat) : Aside m (s.bumpBy a n) (t.bumpBy a n) := by
  unfold State.bumpBy; rw [h.regs _ ha]; exact h.setReg _ _

end congr

/-- Whatever is aside both ways round is aside. -/
theorem Aside.symm {m : Nat} {s t : State} (h : Aside m s t) : Aside m t s :=
  ⟨h.rest.symm, fun a ha => (h.regs a ha).symm, fun j hj => (h.sess j hj).symm⟩

theorem Aside.raise {m : Nat} {s t : State} (h : Aside m s t) {a : Nat} (ha : qcpReg a = false) (hb : qcpReg (a + 4) = false) (v : Nat) :
    Aside m (s.raise a v) (t.raise a v) := by
  have h1 : ∀ (u : State) b op bl d, Aside m (s.setReg a (s.reg a ||| v)) u → Aside m (s.setReg a (s.reg a ||| v)) (u.eventAll b op bl d) :=
    fun u b op bl d hu => hu.trans aside_eventAll
  simp only [State.raise, h.regs _ ha, h.regs _ hb]
  split
  · exact h.setReg _ _
  · exact (aside_eventAll.symm).trans ((h.setReg _ _).trans aside_eventAll)


/-! ### How a command completes (R161, R165, R171) -/

theorem Session.face_of_quiet {x y : Session} (h : x.quiet = y.quiet) : x.face = y.face := by
  have e : ∀ z : Session, z.face = z.quiet.face := fun _ => rfl
  rw [e x, e y, h]

@[simp] theorem State.sess_setReg (s : State) (a v m : Nat) : (s.setReg a v).sess m = s.sess m := rfl
@[simp] theorem State.sess_bump (s : State) (a m : Nat) : (s.bump a).sess m = s.sess m := by
  unfold State.bump State.bumpBy; rw [State.sess_setReg]
@[simp] theorem State.sess_setRr (s : State) (a b m : Nat) : (s.setQcp { s.qcp with rrAdmin := a, rrOther := b }).sess m = s.sess m := rfl

theorem renewLease_face (s : State) (m : Nat) : ((s.renewLease m).sess m).face = (s.sess m).face := by
  simp only [State.renewLease]; split
  · rw [State.sess_setSess_same]; simp only [Session.face]
  · rfl

theorem unbell_sess (s : State) (m j : Nat) : (s.unbell m).sess j = s.sess j := by
  unfold State.unbell; split
  · rw [State.sess_setReg]
  · rfl

/-- Taking a command leaves the part of its session that a reply is made from. -/
theorem take_face (s : State) (m : Nat) : ((s.take m).sess m).face = (s.sess m).face := by
  have h1 : (((if (s.sess m).ring.isEmpty = true then
      ((s.setSess m { s.sess m with expect := ((s.sess m).expect + 1) % 2 ^ 32 }).renewLease m).bump R.QCP_RX_CNT
    else (s.setSess m { s.sess m with ring := (s.sess m).ring.drop 1 }).unbell m) : State).sess m).face = (s.sess m).face := by
    split
    · rw [State.sess_bump, renewLease_face, State.sess_setSess_same]; simp only [Session.face]
    · rw [unbell_sess, State.sess_setSess_same]; simp only [Session.face]
  simp only [State.take]
  split
  · rw [← h1]; exact congrArg Session.face (State.sess_setRr _ _ _ _)
  · rw [← h1]; exact congrArg Session.face (State.sess_setRr _ _ _ _)

/-- What a command's turn says of its session and of the journal. -/
theorem turn_cases {s : State} {m seq op : Nat} {more : Bool} {b : Bytes} (h : s.turn m seq op more b = true) :
    (s.sess m).st = .on ∧ (s.sess m).out = [] ∧ (s.sess m).defer = false ∧ s.qcp.jrnl = none := by
  simp only [State.turn, Session.free, Bool.and_eq_true, decide_eq_true_eq, List.isEmpty_iff, Bool.not_eq_true', Option.isNone_iff_eq_none] at h
  obtain ⟨⟨⟨⟨⟨⟨⟨⟨⟨a, b⟩, -⟩, -⟩, -⟩, c⟩, d⟩, -⟩, -⟩, -⟩ := h
  exact ⟨a, b, c, d⟩

/-- A command that is ready goes through its length and its check. -/
theorem Ready.run {d : OpDef} {op : Nat} {q : Req} {s : State} (h : Ready d op q s) :
    runOp d op q s = execOp d (Req.ctx q op s) false (s.take q.mbox.val) q.payload := by
  simp only [runOp, h.whole, h.turn, if_true]
  rw [if_neg (Nat.not_lt.2 h.role), if_neg (fun e => h.serving e.1)]
  rfl

theorem Accepted.run {d : OpDef} {op : Nat} {q : Req} {s : State} {plan : List Nat} (h : Accepted d op q s plan) :
    runOp d op q s = if d.jrnl q.payload then
      (s.take q.mbox.val).setQcp { (s.take q.mbox.val).qcp with jrnl := some ⟨q.mbox.val, q.seq.toNat, op, q.payload, plan, false⟩ }
    else (d.app (Req.ctx q op s) plan (s.take q.mbox.val) q.payload).finish (Req.ctx q op s) (s.take q.mbox.val).dev false := by
  rw [h.toReady.run, execOp, h.len]
  simp only [h.chk]
  rfl

/-- The reply of a command whose session has nothing to send. -/
theorem finish_out {w : State} {st det : Nat} {r : Bytes} {c : Ctx} {dev : Nat} {jrn : Bool} {x : Session}
    (hx : (w.sess c.mbox).face = x.face) (hon : x.st = .on) (hout : x.out = []) (hd : det ≤ 0xFFFF) :
    let t := (Done.mk w st det r false).finish c dev jrn
    (t.sess c.mbox).out = replyFrames t dev x c.mbox c.seq c.opcode st det jrn r := by
  simp only [Session.face, Prod.mk.injEq] at hx
  obtain ⟨h1, h2, h3, h4, h5, h6⟩ := hx
  have h7 : min det 0xFFFF = det := Nat.min_eq_left hd
  simp only [Done.finish, State.replyAs, h1, hon, h6, hout, h7, List.nil_append, Bool.false_eq_true, if_false, State.sess_setSess_same]
  simp only [replyFrames, h2, h3, h4, h5]
  rfl

theorem dev_eq {m : Nat} {s t : State} (h : Aside m s t) : t.dev = s.dev := h.fld_eq (f := R.TND_CFG_DEVNO) (by decide)

/-- What an operation does to a state that differs from `s` only aside: the state becomes `e` but for that, and the reply is the one given. -/
def Acts (d : OpDef) (op : Nat) (plan : List Nat) (q : Req) (s e : State) (st det : Nat) (r : Bytes) : Prop :=
  ∀ (v : State) (c : Ctx), Aside q.mbox.val s v → (v.sess q.mbox.val).face = (s.sess q.mbox.val).face →
    c.mbox = q.mbox.val → c.seq = q.seq.toNat → c.opcode = op → c.replay = false →
    ∃ w, d.app c plan v q.payload = ⟨w, st, det, r, false⟩ ∧ Aside q.mbox.val e w ∧ (w.sess q.mbox.val).face = (v.sess q.mbox.val).face

/-- A command that is not journaled completes at once. -/
theorem completes_direct {d : OpDef} {i : Instr} {op : Nat} {q : Req} {s e : State} {plan : List Nat} {st det : Nat} {r : Bytes}
    (hx : exec i s = .next (runOp d op q s)) (ha : Accepted d op q s plan) (hj : d.jrnl q.payload = false) (hd : det ≤ 0xFFFF)
    (hact : Acts d op plan q s e st det r) : Completes false i op q s e st det r := by
  obtain ⟨hon, hout, -, -⟩ := turn_cases ha.turn
  obtain ⟨w, happ, hw, hf⟩ := hact (s.take q.mbox.val) (Req.ctx q op s) (aside_take q.mbox.isLt) (take_face _ _) rfl rfl rfl rfl
  refine ⟨_, hx, ?_⟩
  rw [ha.run, hj, happ, dev_eq (aside_take q.mbox.isLt)]
  simp only [Bool.false_eq_true, if_false]
  refine ⟨hw.trans (aside_finish (d := ⟨w, st, det, r, false⟩) (c := Req.ctx q op s) ((face_st (hf.trans (take_face _ _))).trans hon)), ?_⟩
  exact finish_out (c := Req.ctx q op s) (hf.trans (take_face _ _)) hon hout hd

theorem raise_face (s : State) (a v m : Nat) : ((s.raise a v).sess m).face = (s.sess m).face := by
  simp only [State.raise]
  split
  · rw [State.sess_setReg]
  · exact Session.face_of_quiet ((aside_eventAll (m := m + 1)).sess m (by omega))

theorem commitRec_face {s u : State} {r : JRec} (h : s.commitRec r = some u) (m : Nat) : (u.sess m).face = (s.sess m).face := by
  simp only [State.commitRec] at h
  split at h
  · cases h
  · cases h
    split
    · rw [raise_face, State.sess_setReg]; rfl
    · rw [State.sess_setReg]; rfl

theorem commitRec_isSome {s : State} {r : JRec} (h1 : s.nv.prsFailed = false) (h2 : s.jrnlUsed + r.size ≤ jrnlMax) : ∃ u, s.commitRec r = some u := by
  simp only [State.commitRec]
  rw [if_neg (by rw [h1]; simp only [Bool.false_eq_true, false_or]; omega)]
  exact ⟨_, rfl⟩

/-- A record takes at most 56 bytes more than the payload of its command (R420). -/
theorem recordOf_size (s : State) (j : Jrnl) : (s.recordOf j).size ≤ 56 + j.payload.length := by
  have hc : ∀ n, cdiv n 4 * 4 ≤ n + 3 := fun n => by unfold cdiv; omega
  have hk : j.kept.1.length ≤ j.payload.length + 4 := by
    simp only [Jrnl.kept]
    split
    · simp only [pattJournal, List.length_append, List.length_take, be_length]; omega
    · simp
  have := hc j.kept.1.length
  show 48 + cdiv j.kept.1.length 4 * 4 ≤ _
  omega

theorem exec_journalCommit (s : State) : exec .journalCommit s = execJournalCommit s := rfl

/-- A journaled command completes with the commit of its record. -/
theorem completes_journaled {d : OpDef} {i : Instr} {op : Nat} {q : Req} {s e : State} {plan : List Nat} {st det : Nat} {r : Bytes}
    (hx : exec i s = .next (runOp d op q s)) (ha : Accepted d op q s plan) (hj : d.jrnl q.payload = true) (hd : det ≤ 0xFFFF)
    (hr : Room q s) (ht : opTable op = some d) (hact : Acts d op plan q s e st det r) : Completes true i op q s e st det r := by
  obtain ⟨hon, hout, -, -⟩ := turn_cases ha.turn
  have hA := aside_take (s := s) q.mbox.isLt
  rw [ha.run, hj, if_pos rfl] at hx
  let j : Jrnl := ⟨q.mbox.val, q.seq.toNat, op, q.payload, plan, false⟩
  let t : State := (s.take q.mbox.val).setQcp { (s.take q.mbox.val).qcp with jrnl := none }
  have hjn : (s.take q.mbox.val).qcp.jrnl = none := by
    have := congrArg (fun u : State => u.qcp.jrnl) hA.rest
    exact this.trans (turn_cases ha.turn).2.2.2
  have hte : t = s.take q.mbox.val := by
    show (s.take q.mbox.val).setQcp { (s.take q.mbox.val).qcp with jrnl := none } = _
    rw [← hjn]; rfl
  have hused : (s.take q.mbox.val).nv = s.nv := by
    simp only [State.take]
    have hb : ∀ (u : State) (a : Nat), (u.bump a).nv = u.nv := fun _ _ => rfl
    have hl : ∀ (u : State) (a : Nat), (u.renewLease a).nv = u.nv := fun u a => by simp only [State.renewLease]; split <;> rfl
    have hu : ∀ (u : State) (a : Nat), (u.unbell a).nv = u.nv := fun u a => by unfold State.unbell; split <;> rfl
    have hr : ∀ (u : State) (x : Qcp), (u.setQcp x).nv = u.nv := fun _ _ => rfl
    split <;> rw [hr] <;> split
    · rw [hb, hl]; rfl
    · rw [hu]; rfl
    · rw [hb, hl]; rfl
    · rw [hu]; rfl
  obtain ⟨u, hu⟩ := commitRec_isSome (s := t) (r := t.recordOf j) (by rw [hte, hused]; exact hr.prs) (by
    have h1 := recordOf_size t j
    have h2 := hr.space
    have h3 : t.jrnlUsed = s.jrnlUsed := by rw [hte]; unfold State.jrnlUsed; rw [hused]
    have h4 : j.payload = q.payload := rfl
    rw [h4] at h1
    omega)
  let v : State := (u.fateCommit (t.recordOf j).session (t.recordOf j).keyId j.seq).bump R.QCP_JRNL_CNT
  have hv : Aside q.mbox.val s v := by
    have h1 : Aside q.mbox.val t u := aside_commitRec hu
    rw [hte] at h1
    exact ((hA.trans h1).trans aside_fateCommit).trans (aside_bump (by decide))
  have hvf : (v.sess q.mbox.val).face = (s.sess q.mbox.val).face := by
    have h1 := commitRec_face hu q.mbox.val
    rw [hte, take_face] at h1
    rw [← h1]
    exact congrArg Session.face (State.sess_bump _ _ _)
  obtain ⟨w, happ, hw, hf⟩ := hact v (v.jctx j) hv hvf rfl rfl rfl rfl
  refine ⟨(Done.mk w st det r false).finish (v.jctx j) v.dev true, ⟨_, hx, ?_⟩, ?_, ?_⟩
  · rw [exec_journalCommit]
    have h1 : execJournalCommit ((s.take q.mbox.val).setQcp { (s.take q.mbox.val).qcp with jrnl := some j }) =
        .next (match t.commitRec (t.recordOf j) with
          | none => t.commitFail j
          | some u =>
            let v : State := (u.fateCommit (t.recordOf j).session (t.recordOf j).keyId j.seq).bump R.QCP_JRNL_CNT
            match opTable j.opcode with
            | some d => if j.feeds ∧ (v.sess j.mbox).st = .on then v
                else (d.app (v.jctx j) j.plan v j.payload).finish (v.jctx j) v.dev true
            | none => v) := rfl
    refine h1.trans ?_
    rw [hu]
    simp only [show opTable j.opcode = some d from ht]
    rw [if_neg (fun x => absurd x.1 (by rw [show j.feeds = false from Bool.and_false _]; exact Bool.false_ne_true))]
    exact congrArg (fun x : Done => Host.Outcome.next (x.finish (v.jctx j) v.dev true)) happ
  · exact hw.trans (aside_finish (d := ⟨w, st, det, r, false⟩) (c := v.jctx j) ((face_st (hf.trans hvf)).trans hon))
  · have h2 := finish_out (jrn := true) (c := v.jctx j) (dev := v.dev) (r := r) (det := det) (w := w) (st := st) (hf.trans hvf) hon hout hd
    rw [Answered, ← dev_eq hv]
    exact h2

theorem doesIf_direct {P : Req → State → Prop} {d : OpDef} {op : Nat} {mk : Req → Instr} {out : Req → State → State × Nat × Bytes}
    (hx : ∀ q s, exec (mk q) s = .next (runOp d op q s)) (hj : ∀ q s plan, Accepted d op q s plan → P q s → d.jrnl q.payload = false)
    (hact : ∀ q s plan, Accepted d op q s plan → P q s → Acts d op plan q s (out q s).1 (out q s).2.1 0 (out q s).2.2) :
    DoesIf P false d op mk out :=
  fun q s plan ha hP _ => completes_direct (hx q s) ha (hj q s plan ha hP) (Nat.zero_le _) (hact q s plan ha hP)

theorem doesIf_journaled {P : Req → State → Prop} {d : OpDef} {op : Nat} {mk : Req → Instr} {out : Req → State → State × Nat × Bytes}
    (hx : ∀ q s, exec (mk q) s = .next (runOp d op q s)) (hj : ∀ q s plan, Accepted d op q s plan → P q s → d.jrnl q.payload = true)
    (ht : opTable op = some d)
    (hact : ∀ q s plan, Accepted d op q s plan → P q s → Acts d op plan q s (out q s).1 (out q s).2.1 0 (out q s).2.2) :
    DoesIf P true d op mk out :=
  fun q s plan ha hP hr => completes_journaled (hx q s) ha (hj q s plan ha hP) (Nat.zero_le _) (hr rfl) ht (hact q s plan ha hP)

theorem does_direct {d : OpDef} {op : Nat} {mk : Req → Instr} {out : Req → State → State × Nat × Bytes}
    (hx : ∀ q s, exec (mk q) s = .next (runOp d op q s)) (hj : ∀ b, d.jrnl b = false)
    (hact : ∀ q s plan, Accepted d op q s plan → Acts d op plan q s (out q s).1 (out q s).2.1 0 (out q s).2.2) : Does false d op mk out :=
  doesIf_direct hx (fun _ _ _ _ _ => hj _) fun q s plan ha _ => hact q s plan ha

theorem does_journaled {d : OpDef} {op : Nat} {mk : Req → Instr} {out : Req → State → State × Nat × Bytes}
    (hx : ∀ q s, exec (mk q) s = .next (runOp d op q s)) (hj : ∀ b, d.jrnl b = true) (ht : opTable op = some d)
    (hact : ∀ q s plan, Accepted d op q s plan → Acts d op plan q s (out q s).1 (out q s).2.1 0 (out q s).2.2) : Does true d op mk out :=
  doesIf_journaled hx (fun _ _ _ _ _ => hj _) ht fun q s plan ha _ => hact q s plan ha

/-- It is enough to know an operation's effect on the states that are `s` with other contents in the parts left aside. -/
theorem acts_over {d : OpDef} {op : Nat} {plan : List Nat} {q : Req} {s e : State} {st det : Nat} {r : Bytes}
    (h : ∀ (c : Ctx) regs sess ra ro recno jrnl ck fates wear n fab, Aside q.mbox.val s (s.overlay regs sess ra ro recno jrnl ck fates wear n fab) →
      (((s.overlay regs sess ra ro recno jrnl ck fates wear n fab).sess q.mbox.val)).face = (s.sess q.mbox.val).face → c.mbox = q.mbox.val →
      c.seq = q.seq.toNat → c.opcode = op → c.replay = false →
      ∃ w, d.app c plan (s.overlay regs sess ra ro recno jrnl ck fates wear n fab) q.payload = ⟨w, st, det, r, false⟩ ∧ Aside q.mbox.val e w ∧
        (w.sess q.mbox.val).face = ((s.overlay regs sess ra ro recno jrnl ck fates wear n fab).sess q.mbox.val).face) :
    Acts d op plan q s e st det r := by
  intro v c hv hf hm hs ho hr
  have e := hv.overlay
  rw [e] at hv hf ⊢
  exact h c _ _ _ _ _ _ _ _ _ _ _ hv hf hm hs ho hr

/-! ### Changes of legs (R60, R336) -/

theorem Aside.arm_eq {m : Nat} {s t : State} (h : Aside m s t) (T : Option Inst) : t.arm T = s.arm T := by
  have hl : t.lenI = s.lenI := by unfold State.lenI State.lenNs; rw [h.fld_eq (f := R.SWT_CFG_LEN) (by decide)]
  have hp : t.pastDeadline = s.pastDeadline := by
    unfold State.pastDeadline State.phase State.elapsed; rw [h.fld_eq (f := R.SWT_STAT_PHASE) (by decide), h.swt_eq, h.tmu_eq]
  have hb : t.nextB = s.nextB := by unfold State.nextB; rw [h.fld_eq (f := R.TMU_STAT_VALID) (by decide), h.swt_eq]
  have hn : t.now = s.now := by unfold State.now; rw [h.tmu_eq]
  have hm : t.missesNext = s.missesNext := by unfold State.missesNext; rw [hp, h.swt_eq]
  unfold State.arm State.reachAt
  rw [hl, hb, hn, hm]

theorem face_gen {x y : Session} (h : x.face = y.face) : x.gen = y.gen := by
  simp only [Session.face, Prod.mk.injEq] at h; exact h.2.1

theorem armed_acts {m op l : Nat} {s v : State} {T plan} {q : Req} {c : Ctx} (hq : q.mbox.val = m) (hv : Aside m s v) (hf : (v.sess m).face = (s.sess m).face) (ho : c.opcode = op)
   (hm : c.mbox = m) : ∃ w, Done.mk (v.armCmd c l T q.payload plan).1 (v.armCmd c l T q.payload plan).2.status 0 [] false =
      ⟨w, (armedWith op l T plan q s).2.1, 0, (armedWith op l T plan q s).2.2, false⟩ ∧ Aside m (armedWith op l T plan q s).1 w ∧ (w.sess m).face = (v.sess m).face := by
  subst ho hm
  refine ⟨(v.armCmd c l T q.payload plan).1, ?_, ?_, rfl⟩
  · simp only [State.armCmd, armedWith, hv.arm_eq]
  · simp only [State.armCmd, armedWith, hv.arm_eq, hv.armed_eq, face_gen hf, hq]
    exact hv.withArmed _

theorem configured_acts {op : Nat} {T : Bytes → Option Inst} {d : OpDef} {plan : List Nat} {f : Req → State → LegCfg → LegCfg}
    (happ : ∀ c v b, c.opcode = op → d.app c plan v b = v.configure c (legOf b) (T b) b)
    (hf : ∀ (q : Req) (s : State) x, cfgApply op q.payload (some (q.mbox.val, (s.sess q.mbox.val).gen)) x = f q s x) (q : Req) (s : State) :
    Acts d op plan q s (configured op T (f q s) q s).1 (configured op T (f q s) q s).2.1 0 (configured op T (f q s) q s).2.2 := by
  intro v c hv hface hm hs ho hr
  rw [happ c v q.payload ho]
  have hleg : v.leg (legOf q.payload) = s.leg (legOf q.payload) := by unfold State.leg; rw [hv.legs_eq]
  simp only [State.configure, configured, hleg]
  split
  · refine ⟨_, rfl, ?_, rfl⟩
    rw [ho, hm, face_gen hface, hf q s]
    exact hv.setLeg _ _
  · exact armed_acts rfl hv hface ho hm

end Sys2Proof.Machine
end

