-- ==== Sys2Proof/Laws/Event.lean ====
section
/-! SUPPORT. What an event leaves: `Only`, and registers after events are raised. -/

namespace Sys2Proof.Machine

open Sys2Proof

theorem Only.refl (L : List Nat) (s : State) : Only L s s := ⟨rfl, fun _ _ _ => rfl, fun _ => rfl⟩

theorem Only.trans {L : List Nat} {s t u : State} (h : Only L s t) (k : Only L t u) : Only L s u :=
  ⟨k.rest.trans h.rest, fun a h1 h2 => (k.regs a h1 h2).trans (h.regs a h1 h2), fun j => (k.sess j).trans (h.sess j)⟩

theorem Only.mono {L M : List Nat} {s t : State} (h : Only L s t) (hl : ∀ a, a ∈ L → a ∈ M) : Only M s t :=
  ⟨h.rest, fun a h1 => h.regs a fun h2 => h1 (hl a h2), h.sess⟩

theorem only_setReg {L : List Nat} {s : State} {a v : Nat} (h : a ∈ L) : Only L s (s.setReg a v) :=
  ⟨rfl, fun b h1 _ => State.reg_setReg_ne _ _ (by rintro rfl; exact h1 h), fun _ => rfl⟩

theorem only_setFld {L : List Nat} {s : State} {f : Fld} {v : Nat} (h : f.addr ∈ L) : Only L s (s.setFld f v) := only_setReg h

theorem only_bumpBy {L : List Nat} {s : State} {a n : Nat} (h : a ∈ L) : Only L s (s.bumpBy a n) := only_setReg h

theorem only_bump {L : List Nat} {s : State} {a : Nat} (h : a ∈ L) : Only L s (s.bump a) := only_setReg h

theorem only_eventTo {L : List Nat} {m op b : Nat} {s : State} {d : Bytes} : Only L s (s.eventTo m op b d) := by
  refine ⟨?_, ?_, fun j => eventTo_quiet⟩
  · simp only [State.eventTo, State.eventAt]; split
    · split <;> rfl
    · rfl
  · intro a _ h
    simp only [State.eventTo, State.eventAt]; split
    · split
      · rfl
      · exact State.reg_setReg_ne _ _ (Ne.symm h)
    · rfl

theorem only_eventAll {L : List Nat} {bit op b : Nat} {s : State} {d : Bytes} : Only L s (s.eventAll bit op b d) := by
  have main : ∀ (l : KV Session) (t : State), Only L s t →
      Only L s (l.foldl (fun t p => if tb p.2.mask bit then t.eventTo p.1 op b d else t) t) := by
    intro l
    induction l with
    | nil => exact fun _ h => h
    | cons p l ih =>
      intro t h
      refine ih _ ?_
      show Only L s (if tb p.2.mask bit = true then t.eventTo p.1 op b d else t)
      split
      · exact h.trans only_eventTo
      · exact h
  exact main _ _ (Only.refl L s)

theorem only_raise {L : List Nat} {s : State} {a v : Nat} (h : a ∈ L) : Only L s (s.raise a v) := by
  simp only [State.raise]
  split
  · exact only_setReg h
  · exact (only_setReg h).trans only_eventAll

/-- Raising events leaves every register but the event register and the counter of dropped events. -/
theorem reg_raise {s : State} {a v b : Nat} (h : b ≠ R.QCP_EVT_DROP_CNT) :
    (s.raise a v).reg b = if a = b then (s.reg a ||| v) % 2 ^ 32 else s.reg b := by
  have e : (s.raise a v).reg b = (s.setReg a (s.reg a ||| v)).reg b := by
    simp only [State.raise]
    split
    · rfl
    · exact (only_eventAll (L := [])).regs b (by simp) h
  rw [e]
  split
  · subst a; exact State.reg_setReg_same _ _ _
  · exact State.reg_setReg_ne _ _ ‹_›

theorem reg_raise_ne {s : State} {a v b : Nat} (h : b ≠ R.QCP_EVT_DROP_CNT) (hb : a ≠ b) : (s.raise a v).reg b = s.reg b := by
  rw [reg_raise h, if_neg hb]

/-- A stored register keeps its value modulo its width. -/
@[simp] theorem State.reg_bump_same (s : State) (a : Nat) : (s.bump a).reg a = (s.reg a + 1) % 2 ^ 32 := by
  unfold State.bump State.bumpBy; rw [State.reg_setReg_same, Nat.mod_mod]

theorem State.reg_bump_ne (s : State) {a b : Nat} (h : a ≠ b) : (s.bump a).reg b = s.reg b := State.reg_setReg_ne _ _ h

section congr
variable {L : List Nat} {s t : State} (h : Only L s t)
include h

theorem Only.setReg (a v : Nat) : Only L (s.setReg a v) (t.setReg a v) :=
  ⟨h.rest, fun b h1 h2 => by
    by_cases e : a = b
    · subst e; simp
    · rw [State.reg_setReg_ne _ _ e, State.reg_setReg_ne _ _ e, h.regs b h1 h2], h.sess⟩

end congr

end Sys2Proof.Machine
end

