-- ==== Sys2Proof/Laws/Kept.lean ====
section
/-! SUPPORT. What every operation over the state keeps: the canonical form of memory, and the durable things of `Keep`. -/

namespace Sys2Proof.Machine

open Sys2Proof

/-- A fold keeps what its step keeps. -/
theorem kept_foldl {α : Type} {k : Keep} {f : State → α → State} (hf : ∀ t x, Kept k t → Kept k (f t x)) :
    ∀ (l : List α) {s : State}, Kept k s → Kept k (l.foldl f s)
  | [], _, h => h
  | x :: r, _, h => kept_foldl hf r (hf _ x h)

theorem kept_ite {k : Keep} {c : Prop} [Decidable c] {a b : State} (ha : Kept k a) (hb : Kept k b) : Kept k (if c then a else b) := by
  split <;> assumption

end Sys2Proof.Machine
end

