-- ==== Sys2Proof/Laws/Memory.lean ====
section
/-! SUPPORT. Memory: every write keeps the canonical form, and a byte reads as what was last written there. -/

namespace Sys2Proof.Machine

open Sys2Proof

/-- A lower bound may be lowered. -/
theorem Memory.wfFrom_mono : ∀ (m : List Host.Cell) {lo lo' : Nat}, lo ≤ lo' → Memory.wfFrom lo' m = true → Memory.wfFrom lo m = true
  | [], _, _, _, _ => rfl
  | (a, v) :: r, lo, lo', h, hw => by
    simp only [Memory.wfFrom, Bool.and_eq_true, decide_eq_true_eq] at hw ⊢
    exact ⟨⟨Nat.le_trans h hw.1.1, hw.1.2⟩, hw.2⟩

/-- A write keeps the canonical form, above any bound that the address respects. -/
theorem Memory.set_wfFrom : ∀ (m : List Host.Cell) {lo : Nat} (a : Nat) (v : Byte), lo ≤ a → Memory.wfFrom lo m = true →
    Memory.wfFrom lo (Memory.set m a v) = true
  | [], lo, a, v, h, _ => by
    unfold Memory.set; split
    · rfl
    · rename_i hv; simp [Memory.wfFrom, h, hv]
  | (b, w) :: r, lo, a, v, h, hw => by
    have hw' := hw
    simp only [Memory.wfFrom, Bool.and_eq_true, decide_eq_true_eq] at hw
    obtain ⟨⟨hb, hwb⟩, hr⟩ := hw
    unfold Memory.set
    split
    · split
      · exact hw'
      · rename_i hab hv
        simp only [Memory.wfFrom, Bool.and_eq_true, decide_eq_true_eq]
        exact ⟨⟨h, by simpa using hv⟩, ⟨by omega, hwb⟩, hr⟩
    · split
      · split
        · exact Memory.wfFrom_mono r (by omega) hr
        · rename_i h1 h2 h3
          simp only [Memory.wfFrom, Bool.and_eq_true, decide_eq_true_eq]
          exact ⟨⟨h, by simpa using h3⟩, by rw [h2]; exact hr⟩
      · rename_i h1 h2
        simp only [Memory.wfFrom, Bool.and_eq_true, decide_eq_true_eq]
        exact ⟨⟨hb, hwb⟩, Memory.set_wfFrom r a v (by omega) hr⟩

/-- A write keeps the canonical form. -/
theorem Memory.set_wf (m : List Host.Cell) (a : Nat) (v : Byte) (h : Memory.wf m = true) : Memory.wf (Memory.set m a v) = true :=
  Memory.set_wfFrom m a v (Nat.zero_le _) h

/-- Below its first cell a memory reads as nothing written. -/
theorem Memory.get_below : ∀ (m : List Host.Cell) {lo a : Nat}, Memory.wfFrom lo m = true → a < lo → Memory.get m a = Memory.blank
  | [], _, _, _, _ => rfl
  | (b, w) :: r, lo, a, h, ha => by
    simp only [Memory.wfFrom, Bool.and_eq_true, decide_eq_true_eq] at h
    rw [Memory.get, if_neg (by omega), if_pos (by omega)]

/-- After a write, its address reads as the byte written, and every other address as before. -/
theorem Memory.get_set : ∀ (m : List Host.Cell) {lo : Nat} (a c : Nat) (v : Byte), Memory.wfFrom lo m = true →
    Memory.get (Memory.set m a v) c = if c = a then v else Memory.get m c
  | [], lo, a, c, v, _ => by
    by_cases hv : v = Memory.blank
    · simp [Memory.set, Memory.get, hv]
    · by_cases h : a = c
      · simp [Memory.set, Memory.get, hv, h]
      · simp [Memory.set, Memory.get, hv, h, Ne.symm h]
  | (b, w) :: r, lo, a, c, v, h => by
    have hr := h
    simp only [Memory.wfFrom, Bool.and_eq_true, decide_eq_true_eq] at hr
    have below := fun (x : Nat) (hx : x < b + 1) => Memory.get_below r hr.2 hx
    have ih := Memory.get_set r a c v hr.2
    unfold Memory.set
    split
    · split
      · rename_i hab hv
        by_cases hc : c = a
        · rw [if_pos hc, hv, Memory.get, if_neg (by omega), if_pos (by omega)]
        · rw [if_neg hc]
      · by_cases hc : c = a
        · rw [if_pos hc, Memory.get, if_pos hc.symm]
        · rw [if_neg hc, Memory.get, if_neg (Ne.symm hc)]
          split
          · rw [Memory.get, if_neg (by omega), if_pos (by omega)]
          · rfl
    · split
      · rename_i hab
        split
        · rename_i hv
          by_cases hc : c = a
          · rw [if_pos hc, below c (by omega), hv]
          · rw [if_neg hc, Memory.get, if_neg (by omega)]
            split
            · exact below c (by omega)
            · rfl
        · by_cases hc : c = a
          · rw [if_pos hc, Memory.get, if_pos hc.symm]
          · rw [if_neg hc, Memory.get, Memory.get, if_neg (Ne.symm hc), if_neg (by omega : ¬ b = c), hab]
      · rename_i h1 h2
        rw [Memory.get, Memory.get, ih]
        by_cases hbc : b = c
        · rw [if_pos hbc, if_neg (by omega), if_pos hbc]
        · rw [if_neg hbc, if_neg hbc]
          by_cases hlt : c < b
          · rw [if_pos hlt, if_pos hlt, if_neg (by omega)]
          · rw [if_neg hlt, if_neg hlt]

end Sys2Proof.Machine
end

