-- ==== Sys2Proof/Laws/KeptPorts.lean ====
section
/-! SUPPORT. Time unit, ports and the control port: what each operation and each command keeps (`Kept`). -/

set_option linter.unreachableTactic false
set_option linter.unusedTactic false

namespace Sys2Proof.Machine

open Sys2Proof

/-! ### What `Machine/Ops.lean` keeps -/

theorem State.setTmu_kept {K : Keep} {s : State} {x : Tmu} (h : Kept K s) : Kept K (s.setTmu x) := h

theorem State.setSwt_kept {K : Keep} {s : State} {x : Swt} (h : Kept K s) : Kept K (s.setSwt x) := h

theorem State.setQcp_kept {K : Keep} {s : State} {x : Qcp} (h : Kept K s) : Kept K (s.setQcp x) := h

theorem State.setPke_kept {K : Keep} {s : State} {x : Pke} (h : Kept K s) : Kept K (s.setPke x) := h

theorem State.setNv_kept {K : Keep} {s : State} {x : Nv} (h : Kept K s) (h1 : x.lc = s.nv.lc) (h2 : x.lcNext = s.nv.lcNext)
    (h3 : x.hostKeys = s.nv.hostKeys) (h4 : x.boot = s.nv.boot) : Kept K (s.setNv x) := by
  obtain ⟨hm, rfl⟩ := h
  exact ⟨hm, by simp [State.keep, State.setNv, h1, h2, h3, h4]⟩

theorem State.setGrn_kept {K : Keep} {s : State} {x : Grn} (h : Kept K s) : Kept K (s.setGrn x) := h

theorem State.setMmu_kept {K : Keep} {s : State} {x : Mmu} (h : Kept K s) (h1 : x.mem = s.mmu.mem) : Kept K (s.setMmu x) := by
  obtain ⟨hm, rfl⟩ := h
  exact ⟨by simpa [State.setMmu, h1] using hm, rfl⟩

theorem State.setReg_kept {K : Keep} {s : State} {a v : Nat} (h : Kept K s) : Kept K (s.setReg a v) := h

theorem State.setFld_kept {K : Keep} {s : State} (f : Fld) (v : Nat) (h : Kept K s) : Kept K (State.setFld s f v) := by
  unfold State.setFld; repeat' (first
      | with_reducible (first
          | assumption | rfl | refine kept_ite ?_ ?_ | apply State.setReg_kept)
      | dsimp only | split | assumption)

theorem State.bumpBy_kept {K : Keep} {s : State} (a : Nat) (n : Nat) (h : Kept K s) : Kept K (State.bumpBy s a n) := by
  unfold State.bumpBy; repeat' (first
      | with_reducible (first
          | assumption | rfl | refine kept_ite ?_ ?_ | apply State.setReg_kept)
      | dsimp only | split | assumption)

theorem State.bump_kept {K : Keep} {s : State} (a : Nat) (h : Kept K s) : Kept K (State.bump s a) := by
  unfold State.bump; repeat' (first
      | with_reducible (first
          | assumption | rfl | refine kept_ite ?_ ?_ | apply State.bumpBy_kept)
      | dsimp only | split | assumption)

theorem State.bump64_kept {K : Keep} {s : State} (a : Nat) (n : Nat) (h : Kept K s) : Kept K (State.bump64 s a n) := by
  unfold State.bump64; repeat' (first
      | with_reducible (first
          | assumption | rfl | refine kept_ite ?_ ?_ | apply State.setReg_kept)
      | dsimp only | split | assumption)

theorem State.drawn_kept {K : Keep} {s : State} (h : Kept K s) : Kept K s.drawn := h

theorem State.reportVia_kept {K : Keep} {s : State} (f : FnId) (a : FnState) (path : List FnState) (h : Kept K s) : Kept K (State.reportVia s f a path) := by
  unfold State.reportVia; repeat' (first
      | with_reducible (first
          | assumption | rfl | refine kept_ite ?_ ?_)
      | dsimp only | split | assumption)

theorem State.report_kept {K : Keep} {s : State} (f : FnId) (a : FnState) (b : FnState) (h : Kept K s) : Kept K (State.report s f a b) := by
  unfold State.report; repeat' (first
      | with_reducible (first
          | assumption | rfl | refine kept_ite ?_ ?_ | apply State.reportVia_kept)
      | dsimp only | split | assumption)

theorem State.reportFault_kept {K : Keep} {s : State} (f : FnId) (a : FnState) (b : FnState) (h : Kept K s) : Kept K (State.reportFault s f a b) := by
  unfold State.reportFault; repeat' (first
      | with_reducible (first
          | assumption | rfl | refine kept_ite ?_ ?_ | apply State.reportVia_kept)
      | dsimp only | split | assumption)

theorem State.setSess_kept {K : Keep} {s : State} (m : Nat) (x : Session) (h : Kept K s) : Kept K (State.setSess s m x) := by
  unfold State.setSess; repeat' (first
      | with_reducible (first
          | assumption | rfl | refine kept_ite ?_ ?_ | apply State.setQcp_kept)
      | dsimp only | split | assumption)

theorem State.unbell_kept {K : Keep} {s : State} (m : Nat) (h : Kept K s) : Kept K (State.unbell s m) := by
  unfold State.unbell; repeat' (first
      | with_reducible (first
          | assumption | rfl | refine kept_ite ?_ ?_ | apply State.setReg_kept)
      | dsimp only | split | assumption)

theorem State.closeSess_kept {K : Keep} {s : State} (m : Nat) (h : Kept K s) : Kept K (State.closeSess s m) := by
  unfold State.closeSess; repeat' (first
      | with_reducible (first
          | assumption | rfl | refine kept_ite ?_ ?_ | apply State.reportVia_kept | apply State.setSess_kept | apply State.unbell_kept)
      | dsimp only | split | assumption)

theorem State.renewLease_kept {K : Keep} {s : State} (m : Nat) (h : Kept K s) : Kept K (State.renewLease s m) := by
  unfold State.renewLease; repeat' (first
      | with_reducible (first
          | assumption | rfl | refine kept_ite ?_ ?_ | apply State.setSess_kept)
      | dsimp only | split | assumption)

theorem State.eventAt_kept {K : Keep} {s : State} (m : Nat) (op : Nat) (block : Nat) (data : Bytes) (at_ : Inst) (h : Kept K s) : Kept K (State.eventAt s m op block data at_) := by
  unfold State.eventAt; repeat' (first
      | with_reducible (first
          | assumption | rfl | refine kept_ite ?_ ?_ | apply State.bump_kept | apply State.setSess_kept)
      | dsimp only | split | assumption)

theorem State.eventTo_kept {K : Keep} {s : State} (m : Nat) (op : Nat) (block : Nat) (data : Bytes) (h : Kept K s) : Kept K (State.eventTo s m op block data) := by
  unfold State.eventTo; repeat' (first
      | with_reducible (first
          | assumption | rfl | refine kept_ite ?_ ?_ | apply State.eventAt_kept | apply State.setSess_kept | apply State.bump_kept)
      | dsimp only | split | assumption)

theorem State.eventAll_kept {K : Keep} {s : State} (b : Nat) (op : Nat) (block : Nat) (data : Bytes) (h : Kept K s) : Kept K (State.eventAll s b op block data) := by
  unfold State.eventAll; repeat' (first
      | with_reducible (first
          | assumption | rfl | refine kept_ite ?_ ?_ | apply State.eventTo_kept)
      | refine kept_foldl (fun _ _ _ => ?_) _ ?_ | dsimp only | split | assumption)

theorem State.raise_kept {K : Keep} {s : State} (a : Nat) (mask : Nat) (h : Kept K s) : Kept K (State.raise s a mask) := by
  unfold State.raise; repeat' (first
      | with_reducible (first
          | assumption | rfl | refine kept_ite ?_ ?_ | apply State.setReg_kept | apply State.eventAll_kept)
      | dsimp only | split | assumption)

theorem State.replyAs_kept {K : Keep} {s : State} (dev : Nat) (m : Nat) (seq : Nat) (opcode : Nat) (st : Nat) (det : Nat) (jrn : Bool) (result : Bytes) (h : Kept K s) : Kept K (State.replyAs s dev m seq opcode st det jrn result) := by
  unfold State.replyAs; repeat' (first
      | with_reducible (first
          | assumption | rfl | refine kept_ite ?_ ?_ | apply State.setSess_kept | apply State.closeSess_kept)
      | dsimp only | split | assumption)

theorem State.reply_kept {K : Keep} {s : State} (m : Nat) (seq : Nat) (opcode : Nat) (st : Nat) (det : Nat) (jrn : Bool) (result : Bytes) (h : Kept K s) : Kept K (State.reply s m seq opcode st det jrn result) := by
  unfold State.reply; repeat' (first
      | with_reducible (first
          | assumption | rfl | refine kept_ite ?_ ?_ | apply State.replyAs_kept)
      | dsimp only | split | assumption)

theorem State.stopSess_kept {K : Keep} {s : State} (m : Nat) (h : Kept K s) : Kept K (State.stopSess s m) := by
  unfold State.stopSess; repeat' (first
      | with_reducible (first
          | assumption | rfl | refine kept_ite ?_ ?_ | apply State.report_kept | apply State.setSess_kept | apply State.unbell_kept
          | apply State.closeSess_kept | apply State.reportVia_kept)
      | dsimp only | split | assumption)

theorem State.setPort_kept {K : Keep} {s : State} {p : Nat} {x : Port} (h : Kept K s) : Kept K (s.setPort p x) := h

theorem State.enqueueTx_kept {K : Keep} {s : State} (p : Nat) (f : TxFrame) (h : Kept K s) : Kept K (State.enqueueTx s p f) := by
  unfold State.enqueueTx; repeat' (first
      | with_reducible (first
          | assumption | rfl | refine kept_ite ?_ ?_ | apply State.setPort_kept)
      | dsimp only | split | assumption)

theorem State.txRequest_kept {K : Keep} {s : State} (p : Nat) (f : TxFrame) (h : Kept K s) : Kept K (State.txRequest s p f).1 := by
  unfold State.txRequest; repeat' (first
      | with_reducible (first
          | assumption | rfl | refine kept_ite ?_ ?_ | apply State.bump_kept | apply State.enqueueTx_kept)
      | dsimp only | split | assumption)

theorem State.txRequest_kept_of {K : Keep} {s vv : State} {p : Nat} {f : TxFrame} {y : Bool} (e : State.txRequest s p f = (vv, y)) (h : Kept K s) : Kept K vv := by
  have h1 := State.txRequest_kept p f h
  rw [e] at h1; exact h1

theorem State.sendQcp_kept {K : Keep} {s : State} (port : Nat) (mac : Nat) (tags : List (BitVec 32)) (b : Bytes) (h : Kept K s) : Kept K (State.sendQcp s port mac tags b) := by
  unfold State.sendQcp; repeat' (first
      | with_reducible (first
          | assumption | rfl | refine kept_ite ?_ ?_ | apply State.bump_kept | apply State.txRequest_kept)
      | dsimp only | split | refine State.txRequest_kept_of ‹_› ?_ | assumption)

/-! ### What `Machine/Boot.lean` keeps -/

theorem State.held_kept {K : Keep} {s : State} (h : Kept K s) : Kept K s.held := ⟨rfl, h.2⟩

theorem State.restart_kept {K : Keep} {s : State} {c : Nat} (h : Kept K s) : Kept K (s.restart c) := by
  unfold State.restart; split <;> exact ⟨rfl, h.2⟩

theorem State.stopAll_kept {K : Keep} {s : State} (h : Kept K s) : Kept K (State.stopAll s) := by
  unfold State.stopAll; repeat' (first
      | with_reducible (first
          | assumption | rfl | refine kept_ite ?_ ?_ | apply State.stopSess_kept)
      | refine kept_foldl (fun _ _ _ => ?_) _ ?_ | dsimp only | split | assumption)

/-! ### What `Machine/Mem.lean` keeps -/

theorem State.setPin_kept {K : Keep} {s : State} (f : Nat) (n : Nat) (h : Kept K s) : Kept K (State.setPin s f n) := by
  unfold State.setPin; repeat' (first
      | with_reducible (first
          | assumption | rfl | refine kept_ite ?_ ?_ | apply State.setMmu_kept)
      | dsimp only | split | assumption)

theorem State.pinArea_kept {K : Keep} {s : State} (pa : Nat) (len : Nat) (h : Kept K s) : Kept K (State.pinArea s pa len) := by
  unfold State.pinArea; repeat' (first
      | with_reducible (first
          | assumption | rfl | refine kept_ite ?_ ?_ | apply State.setPin_kept)
      | refine kept_foldl (fun _ _ _ => ?_) _ ?_ | dsimp only | split | assumption)

theorem State.unpinArea_kept {K : Keep} {s : State} (pa : Nat) (len : Nat) (h : Kept K s) : Kept K (State.unpinArea s pa len) := by
  unfold State.unpinArea; repeat' (first
      | with_reducible (first
          | assumption | rfl | refine kept_ite ?_ ?_ | apply State.setPin_kept)
      | refine kept_foldl (fun _ _ _ => ?_) _ ?_ | dsimp only | split | assumption)

theorem State.memSet_kept {K : Keep} {s : State} {pa : Nat} {v : Byte} (h : Kept K s) : Kept K (s.memSet pa v) :=
  ⟨Memory.set_wf _ _ _ h.1, h.2⟩

theorem State.memWrite_kept {K : Keep} {s : State} (pa : Nat) (b : Bytes) (h : Kept K s) : Kept K (State.memWrite s pa b) := by
  unfold State.memWrite; repeat' (first
      | with_reducible (first
          | assumption | rfl | refine kept_ite ?_ ?_ | apply State.memSet_kept)
      | refine kept_foldl (fun _ _ _ => ?_) _ ?_ | dsimp only | split | assumption)

/-! ### What `Machine/Command.lean` keeps -/

theorem State.take_kept {K : Keep} {s : State} (m : Nat) (h : Kept K s) : Kept K (State.take s m) := by
  unfold State.take; repeat' (first
      | with_reducible (first
          | assumption | rfl | refine kept_ite ?_ ?_ | apply State.bump_kept | apply State.renewLease_kept | apply State.setSess_kept
          | apply State.unbell_kept | apply State.setQcp_kept)
      | dsimp only | split | assumption)

theorem Done.finish_kept {r : Done} {c : Ctx} {dev : Nat} {jrn : Bool} {K : Keep} (h : Kept K r.s) : Kept K (r.finish c dev jrn) := by
  unfold Done.finish
  refine kept_ite ?_ ?_
  · exact State.setSess_kept _ _ h
  · exact State.replyAs_kept _ _ _ _ _ _ _ _ h

theorem State.replyLate_kept {K : Keep} {s : State} (m : Nat) (seq : Nat) (opcode : Nat) (st : Nat) (det : Nat) (jrn : Bool) (result : Bytes) (h : Kept K s) : Kept K (State.replyLate s m seq opcode st det jrn result) := by
  unfold State.replyLate; repeat' (first
      | with_reducible (first
          | assumption | rfl | refine kept_ite ?_ ?_ | apply State.reply_kept | apply State.setSess_kept)
      | dsimp only | split | assumption)

/-- The operations whose effect keeps the durable things. -/
def OpDef.Keeps (d : OpDef) : Prop := ∀ (K : Keep) (c : Ctx) (pl : List Nat) (s : State) (b : Bytes), Kept K s → Kept K (d.app c pl s b).s

theorem State.counted_kept {K : Keep} {s : State} (cnt : Nat) (evt : Nat) (mask : Nat) (h : Kept K s) : Kept K (State.counted s cnt evt mask) := by
  unfold State.counted; repeat' (first
      | with_reducible (first
          | assumption | rfl | refine kept_ite ?_ ?_ | apply State.bump_kept | apply State.raise_kept)
      | dsimp only | split | assumption)

theorem execOp_kept {d : OpDef} {c : Ctx} {b : Bool} {p : Bytes} (hd : d.Keeps) {K : Keep} {s : State} (h : Kept K s) : Kept K (execOp d c b s p) := by
  unfold OpDef.Keeps at hd; unfold execOp
  repeat' (first | assumption | with_reducible (first | refine kept_ite ?_ ?_ | apply State.reply_kept | apply State.counted_kept | apply State.setQcp_kept | apply State.raise_kept | apply State.bump_kept | apply Done.finish_kept | apply hd) | split)

theorem State.dropBulk_kept {K : Keep} {s : State} (m : Nat) (seq : Nat) (h : Kept K s) : Kept K (State.dropBulk s m seq) := by
  unfold State.dropBulk; repeat' (first
      | with_reducible (first
          | assumption | rfl | refine kept_ite ?_ ?_ | apply State.setSess_kept | apply State.unbell_kept)
      | dsimp only | split | assumption)

theorem feedOp_kept {d : OpDef} {c : Ctx} {p : Bytes} (hd : d.Keeps) {K : Keep} {s : State} (h : Kept K s) : Kept K (feedOp d c s p) := by
  unfold feedOp
  repeat' (first | assumption | with_reducible (first | refine kept_ite ?_ ?_ | apply State.dropBulk_kept | apply State.setSess_kept | refine execOp_kept hd ?_) | dsimp only | split)

theorem runOp_kept {d : OpDef} {op : Nat} {q : Req} (hd : d.Keeps) {K : Keep} {s : State} (h : Kept K s) : Kept K (runOp d op q s) := by
  unfold runOp
  repeat' (first | assumption | with_reducible (first | refine kept_ite ?_ ?_ | apply State.reply_kept | apply State.setSess_kept | apply State.take_kept | apply State.dropBulk_kept | refine feedOp_kept hd ?_ | refine execOp_kept hd ?_) | split)

/-! ### What `Machine/SwathCore.lean` keeps -/

theorem State.movePhases_kept {K : Keep} {s : State} (d : Nat) (h : Kept K s) : Kept K (State.movePhases s d) := by
  unfold State.movePhases; repeat' (first
      | with_reducible (first
          | assumption | rfl | refine kept_ite ?_ ?_ | apply State.setSwt_kept)
      | dsimp only | split | assumption)

theorem State.reanchor_kept {K : Keep} {s : State} (delta : Int) (h : Kept K s) : Kept K (s.reanchor delta) := by
  have h2 : ∀ d b, Kept K ((s.movePhases d).setSwt { (s.movePhases d).swt with nextT := b }) := fun d b =>
    State.setSwt_kept (State.movePhases_kept d h)
  unfold State.reanchor
  dsimp only
  split
  · exact h
  split
  · exact h
  split
  · exact State.raise_kept _ _ (State.setFld_kept _ _ (State.setReg_kept (State.bump_kept _ (State.setSwt_kept (h2 _ _)))))
  · exact h2 _ _

theorem State.becomeValid_kept {K : Keep} {s : State} (h : Kept K s) : Kept K (State.becomeValid s) := by
  unfold State.becomeValid; repeat' (first
      | with_reducible (first
          | assumption | rfl | refine kept_ite ?_ ?_ | apply State.setFld_kept | apply State.setSwt_kept)
      | dsimp only | split | assumption)

theorem State.updCyc_kept {K : Keep} {s : State} (h : Kept K s) : Kept K (State.updCyc s) := by
  unfold State.updCyc; repeat' (first
      | with_reducible (first
          | assumption | rfl | refine kept_ite ?_ ?_ | apply State.setFld_kept)
      | dsimp only | split | assumption)

theorem State.updOver_kept {K : Keep} {s : State} (h : Kept K s) : Kept K (State.updOver s) := by
  unfold State.updOver; repeat' (first
      | with_reducible (first
          | assumption | rfl | refine kept_ite ?_ ?_ | apply State.setFld_kept | apply State.setSwt_kept | apply State.raise_kept)
      | dsimp only | split | assumption)

theorem State.updBudgets_kept {K : Keep} {s : State} (h : Kept K s) : Kept K (State.updBudgets s) := by
  unfold State.updBudgets; repeat' (first
      | with_reducible (first
          | assumption | rfl | refine kept_ite ?_ ?_ | apply State.setFld_kept | apply State.updCyc_kept | apply State.updOver_kept)
      | dsimp only | split | assumption)

theorem State.addLoad_kept {K : Keep} {s : State} (c : Cost) (p : Nat) (phi : Nat) (add : Bool) (h : Kept K s) : Kept K (State.addLoad s c p phi add) := by
  unfold State.addLoad; repeat' (first
      | with_reducible (first
          | assumption | rfl | refine kept_ite ?_ ?_ | apply State.setSwt_kept)
      | dsimp only | split | assumption)

theorem State.place_kept {K : Keep} {s : State} (c : Cost) (p : Nat) (phi : Nat) (h : Kept K s) : Kept K (State.place s c p phi) := by
  unfold State.place; repeat' (first
      | with_reducible (first
          | assumption | rfl | refine kept_ite ?_ ?_ | apply State.addLoad_kept | apply State.setFld_kept)
      | dsimp only | split | assumption)

theorem State.unplace_kept {K : Keep} {s : State} (c : Cost) (p : Nat) (phi : Nat) (h : Kept K s) : Kept K (State.unplace s c p phi) := by
  unfold State.unplace; repeat' (first
      | with_reducible (first
          | assumption | rfl | refine kept_ite ?_ ?_ | apply State.setFld_kept | apply State.addLoad_kept | apply State.updOver_kept)
      | dsimp only | split | assumption)

theorem State.lateAct_kept {K : Keep} {s : State} (h : Kept K s) : Kept K (State.lateAct s) := by
  unfold State.lateAct; repeat' (first
      | with_reducible (first
          | assumption | rfl | refine kept_ite ?_ ?_ | apply State.raise_kept | apply State.bump_kept)
      | dsimp only | split | assumption)

/-! ### What `Machine/Tmu.lean` keeps -/

theorem State.stepTouts_kept {K : Keep} {s : State} (t : Inst) (fwd : Bool) (h : Kept K s) : Kept K (State.stepTouts s t fwd) := by
  unfold State.stepTouts; repeat' (first
      | with_reducible (first
          | assumption | rfl | refine kept_ite ?_ ?_ | apply State.setTmu_kept | apply State.setFld_kept)
      | refine kept_foldl (fun _ _ _ => ?_) _ ?_ | dsimp only | split | assumption)

theorem State.stepPlayers_kept {K : Keep} {s : State} (t : Inst) (h : Kept K s) : Kept K (State.stepPlayers s t) := by
  unfold State.stepPlayers; repeat' (first
      | with_reducible (first
          | assumption | rfl | refine kept_ite ?_ ?_ | apply State.setGrn_kept)
      | dsimp only | split | assumption)

theorem State.stepTo_kept {K : Keep} {s : State} (acc' : Nat) (h : Kept K s) : Kept K (State.stepTo s acc') := by
  unfold State.stepTo; repeat' (first
      | with_reducible (first
          | assumption | rfl | refine kept_ite ?_ ?_ | apply State.setTmu_kept | apply State.reanchor_kept | apply State.becomeValid_kept
          | apply State.stepTouts_kept | apply State.stepPlayers_kept)
      | dsimp only | split | assumption)

theorem State.applyPending_kept {K : Keep} {s : State} (h : Kept K s) : Kept K (State.applyPending s) := by
  unfold State.applyPending; repeat' (first
      | with_reducible (first
          | assumption | rfl | refine kept_ite ?_ ?_ | apply State.stepTo_kept | apply State.setTmu_kept)
      | dsimp only | split | assumption)

theorem State.setSrv_kept {K : Keep} {s : State} (v : Servo) (h : Kept K s) : Kept K (State.setSrv s v) := by
  unfold State.setSrv; repeat' (first
      | with_reducible (first
          | assumption | rfl | refine kept_ite ?_ ?_ | apply State.setTmu_kept)
      | dsimp only | split | assumption)

theorem State.applyRate_kept {K : Keep} {s : State} (h : Kept K s) : Kept K (State.applyRate s) := by
  unfold State.applyRate; repeat' (first
      | with_reducible (first
          | assumption | rfl | refine kept_ite ?_ ?_ | apply State.setReg_kept)
      | dsimp only | split | assumption)

theorem State.rejectSample_kept {K : Keep} {s : State} (h : Kept K s) : Kept K (State.rejectSample s) := by
  unfold State.rejectSample; repeat' (first
      | with_reducible (first
          | assumption | rfl | refine kept_ite ?_ ?_ | apply State.bump_kept)
      | dsimp only | split | assumption)

theorem State.setLock_kept {K : Keep} {s : State} (l : Lock) (h : Kept K s) : Kept K (State.setLock s l) := by
  unfold State.setLock; repeat' (first
      | with_reducible (first
          | assumption | rfl | refine kept_ite ?_ ?_ | apply State.setSrv_kept | apply State.raise_kept)
      | dsimp only | split | assumption)

theorem State.sampleTail_kept {K : Keep} {s : State} (x : Ofs) (h : Kept K s) : Kept K (State.sampleTail s x) := by
  unfold State.sampleTail; repeat' (first
      | with_reducible (first
          | assumption | rfl | refine kept_ite ?_ ?_ | apply State.setReg_kept | apply State.bump_kept | apply State.raise_kept
          | apply State.becomeValid_kept | apply State.stepTo_kept | apply State.setSrv_kept | apply State.applyRate_kept | apply State.setLock_kept)
      | dsimp only | split | assumption)

theorem State.sample_kept {K : Keep} {s0 : State} (x : Ofs) (h : Kept K s0) : Kept K (State.sample s0 x) := by
  unfold State.sample; repeat' (first
      | with_reducible (first
          | assumption | rfl | refine kept_ite ?_ ?_ | apply State.setSrv_kept | apply State.rejectSample_kept
          | apply State.setLock_kept | apply State.sampleTail_kept | apply State.raise_kept | apply State.bump_kept
          | apply State.applyRate_kept)
      | dsimp only | split | assumption)

theorem State.setSrvFn_kept {K : Keep} {s : State} (f : Fn) (fault : Bool) (h : Kept K s) : Kept K (State.setSrvFn s f fault) := by
  unfold State.setSrvFn; repeat' (first
      | with_reducible (first
          | assumption | rfl | refine kept_ite ?_ ?_ | apply State.report_kept | apply State.reportFault_kept | apply State.setSrv_kept
          | apply State.setLock_kept)
      | dsimp only | split | assumption)

theorem State.srvLoad_kept {K : Keep} {s : State} (h : Kept K s) : Kept K (State.srvLoad s) := by
  unfold State.srvLoad; repeat' (first
      | with_reducible (first
          | assumption | rfl | refine kept_ite ?_ ?_ | apply State.setTmu_kept | apply State.setReg_kept)
      | dsimp only | split | assumption)

theorem State.srvStart_kept {K : Keep} {s : State} (h : Kept K s) : Kept K (State.srvStart s) := by
  unfold State.srvStart; repeat' (first
      | with_reducible (first
          | assumption | rfl | refine kept_ite ?_ ?_ | apply State.setSrvFn_kept | apply State.srvLoad_kept | apply State.setTmu_kept
          | apply State.setReg_kept)
      | dsimp only | split | assumption)

theorem State.countHold_kept {K : Keep} {s : State} (h : Kept K s) : Kept K (State.countHold s) := by
  unfold State.countHold; repeat' (first
      | with_reducible (first
          | assumption | rfl | refine kept_ite ?_ ?_ | apply State.setReg_kept)
      | dsimp only | split | assumption)

theorem State.tick_kept {K : Keep} {s : State} (h : Kept K s) : Kept K (State.tick s) := by
  unfold State.tick; repeat' (first
      | with_reducible (first
          | assumption | rfl | refine kept_ite ?_ ?_ | apply State.setTmu_kept | apply State.applyPending_kept | apply State.srvStart_kept
          | apply State.countHold_kept)
      | dsimp only | split | assumption)

theorem State.ofsPush_kept {K : Keep} {s : State} (h : Kept K s) : Kept K (State.ofsPush s) := by
  unfold State.ofsPush; repeat' (first
      | with_reducible (first
          | assumption | rfl | refine kept_ite ?_ ?_ | apply State.setTmu_kept | apply State.bump_kept | apply State.rejectSample_kept)
      | dsimp only | split | assumption)

theorem State.ofsWrite_kept {K : Keep} {s : State} (ns : Nat) (aux : Nat) (mpd : Nat) (h : Kept K s) : Kept K (State.ofsWrite s ns aux mpd) := by
  unfold State.ofsWrite; repeat' (first
      | with_reducible (first
          | assumption | rfl | refine kept_ite ?_ ?_ | apply State.setReg_kept)
      | dsimp only | split | assumption)

theorem State.srvRequest_kept {K : Keep} {s : State} (en : Bool) (h : Kept K s) : Kept K (State.srvRequest s en) := by
  unfold State.srvRequest; repeat' (first
      | with_reducible (first
          | assumption | rfl | refine kept_ite ?_ ?_ | apply State.setSrvFn_kept | apply State.setSrv_kept)
      | dsimp only | split | assumption)

theorem State.refSelect_kept {K : Keep} {s : State} (h : Kept K s) : Kept K (State.refSelect s) := by
  unfold State.refSelect; repeat' (first
      | with_reducible (first
          | assumption | rfl | refine kept_ite ?_ ?_ | apply State.setFld_kept)
      | dsimp only | split | assumption)

theorem State.refWrite_kept {K : Keep} {s : State} (sel : Bool) (h : Kept K s) : Kept K (State.refWrite s sel) := by
  unfold State.refWrite; repeat' (first
      | with_reducible (first
          | assumption | rfl | refine kept_ite ?_ ?_ | apply State.refSelect_kept | apply State.setTmu_kept | apply State.setFld_kept)
      | dsimp only | split | assumption)

theorem State.setTin_kept {K : Keep} {s : State} (n : Nat) (x : Tin) (h : Kept K s) : Kept K (State.setTin s n x) := by
  unfold State.setTin; repeat' (first
      | with_reducible (first
          | assumption | rfl | refine kept_ite ?_ ?_ | apply State.setTmu_kept)
      | dsimp only | split | assumption)

theorem State.tinPop_kept {K : Keep} {s : State} (i2c : Bool) (n : Nat) (h : Kept K s) : Kept K (State.tinPop s i2c n).1 := by
  unfold State.tinPop; repeat' (first
      | with_reducible (first
          | assumption | rfl | refine kept_ite ?_ ?_ | apply State.setTin_kept)
      | dsimp only | split | assumption)

theorem State.tinPop_kept_of {K : Keep} {s vv : State} {i2c : Bool} {n : Nat} {y : Nat} (e : State.tinPop s i2c n = (vv, y)) (h : Kept K s) : Kept K vv := by
  have h1 := State.tinPop_kept i2c n h
  rw [e] at h1; exact h1

theorem State.setTout_kept {K : Keep} {s : State} (n : Nat) (x : Tout) (h : Kept K s) : Kept K (State.setTout s n x) := by
  unfold State.setTout; repeat' (first
      | with_reducible (first
          | assumption | rfl | refine kept_ite ?_ ?_ | apply State.setTmu_kept)
      | dsimp only | split | assumption)

theorem State.toutArm_kept {K : Keep} {s : State} (n : Nat) (h : Kept K s) : Kept K (State.toutArm s n) := by
  unfold State.toutArm; repeat' (first
      | with_reducible (first
          | assumption | rfl | refine kept_ite ?_ ?_ | apply State.setFld_kept | apply State.bumpBy_kept | apply State.setTout_kept)
      | dsimp only | split | assumption)

theorem State.toutDisarm_kept {K : Keep} {s : State} (n : Nat) (h : Kept K s) : Kept K (State.toutDisarm s n) := by
  unfold State.toutDisarm; repeat' (first
      | with_reducible (first
          | assumption | rfl | refine kept_ite ?_ ?_ | apply State.setTout_kept)
      | dsimp only | split | assumption)

theorem State.toutFire_kept {K : Keep} {s : State} (n : Nat) (h : Kept K s) : Kept K (State.toutFire s n) := by
  unfold State.toutFire; repeat' (first
      | with_reducible (first
          | assumption | rfl | refine kept_ite ?_ ?_ | apply State.setReg_kept | apply State.setFld_kept | apply State.lateAct_kept
          | apply State.tick_kept | apply State.setTout_kept)
      | dsimp only | split | assumption)

theorem State.ctlPend_kept {K : Keep} {s : State} (v : Nat) (h : Kept K s) : Kept K (State.ctlPend s v) := by
  unfold State.ctlPend; repeat' (first
      | with_reducible (first
          | assumption | rfl | refine kept_ite ?_ ?_ | apply State.setTmu_kept)
      | dsimp only | split | assumption)

theorem tmuEffect_kept {K : Keep} {s : State} (a : Nat) (old : Nat) (v : Nat) (h : Kept K s) : Kept K (tmuEffect s a old v) := by
  unfold tmuEffect; repeat' (first
      | with_reducible (first
          | assumption | rfl | refine kept_ite ?_ ?_ | apply State.refWrite_kept | apply State.ctlPend_kept
          | apply State.srvRequest_kept | apply State.toutArm_kept | apply State.toutDisarm_kept)
      | dsimp only | split | assumption)

theorem State.tcCorrect_kept {K : Keep} {s : State} (p : Nat) (f : TxFrame) (tx : Inst) (h : Kept K s) : Kept K (State.tcCorrect s p f tx).1 := by
  unfold State.tcCorrect; repeat' (first
      | with_reducible (first
          | assumption | rfl | refine kept_ite ?_ ?_ | apply State.bump_kept)
      | dsimp only | split | assumption)

theorem State.tcCorrect_kept_of {K : Keep} {s vv : State} {p : Nat} {f : TxFrame} {tx : Inst} {y : Bytes} (e : State.tcCorrect s p f tx = (vv, y)) (h : Kept K s) : Kept K vv := by
  have h1 := State.tcCorrect_kept p f tx h
  rw [e] at h1; exact h1

theorem execStepApply_kept {K : Keep} {s : State} (h : Kept K s) : ∃ u, execStepApply s = .next u ∧ Kept K u := by
  refine ⟨_, rfl, ?_⟩; repeat' (first
      | with_reducible (first
          | assumption | rfl | refine kept_ite ?_ ?_ | apply State.applyPending_kept)
      | refine kept_foldl (fun _ _ _ => ?_) _ ?_ | dsimp only | split | assumption)

theorem execTmuOfsPush_kept {K : Keep} {s : State} (ns : Word) (aux : Word) (mpd : Word) (h : Kept K s) : ∃ u, execTmuOfsPush ns aux mpd s = .next u ∧ Kept K u := by
  refine ⟨_, rfl, ?_⟩; repeat' (first
      | with_reducible (first
          | assumption | rfl | refine kept_ite ?_ ?_ | apply State.ofsPush_kept | apply State.ofsWrite_kept | apply State.rejectSample_kept
          | apply State.bump_kept | apply State.setTmu_kept)
      | refine kept_foldl (fun _ _ _ => ?_) _ ?_ | dsimp only | split | assumption)

theorem execServoSample_kept {K : Keep} {s : State} (h : Kept K s) : ∃ u, execServoSample s = .next u ∧ Kept K u := by
  refine ⟨_, rfl, ?_⟩; repeat' (first
      | with_reducible (first
          | assumption | rfl | refine kept_ite ?_ ?_ | apply State.sample_kept | apply State.setTmu_kept)
      | refine kept_foldl (fun _ _ _ => ?_) _ ?_ | dsimp only | split | assumption)

theorem execServoHoldoverTimeout_kept {K : Keep} {s : State} (h : Kept K s) : ∃ u, execServoHoldoverTimeout s = .next u ∧ Kept K u := by
  refine ⟨_, rfl, ?_⟩; repeat' (first
      | with_reducible (first
          | assumption | rfl | refine kept_ite ?_ ?_ | apply State.setReg_kept | apply State.bump_kept | apply State.raise_kept
          | apply State.setSrv_kept | apply State.applyRate_kept | apply State.setLock_kept)
      | refine kept_foldl (fun _ _ _ => ?_) _ ?_ | dsimp only | split | assumption)

theorem execServoFail_kept {K : Keep} {s : State} (h : Kept K s) : ∃ u, execServoFail s = .next u ∧ Kept K u := by
  refine ⟨_, rfl, ?_⟩; repeat' (first
      | with_reducible (first
          | assumption | rfl | refine kept_ite ?_ ?_ | apply State.raise_kept | apply State.setSrvFn_kept | apply State.setSrv_kept)
      | refine kept_foldl (fun _ _ _ => ?_) _ ?_ | dsimp only | split | assumption)

theorem execRef10mAcquire_kept {K : Keep} {s : State} (h : Kept K s) : ∃ u, execRef10mAcquire s = .next u ∧ Kept K u := by
  refine ⟨_, rfl, ?_⟩; repeat' (first
      | with_reducible (first
          | assumption | rfl | refine kept_ite ?_ ?_ | apply State.refSelect_kept | apply State.setFld_kept)
      | refine kept_foldl (fun _ _ _ => ?_) _ ?_ | dsimp only | split | assumption)

theorem execRef10mLoss_kept {K : Keep} {s : State} (h : Kept K s) : ∃ u, execRef10mLoss s = .next u ∧ Kept K u := by
  refine ⟨_, rfl, ?_⟩; repeat' (first
      | with_reducible (first
          | assumption | rfl | refine kept_ite ?_ ?_ | apply State.setFld_kept | apply State.raise_kept | apply State.setTmu_kept
          | apply State.bump_kept)
      | refine kept_foldl (fun _ _ _ => ?_) _ ?_ | dsimp only | split | assumption)

theorem execTinEdgeCapture_kept {K : Keep} {s : State} (n : Fin 5) (rise : Bool) (h : Kept K s) : ∃ u, execTinEdgeCapture n rise s = .next u ∧ Kept K u := by
  refine ⟨_, rfl, ?_⟩; repeat' (first
      | with_reducible (first
          | assumption | rfl | refine kept_ite ?_ ?_ | apply State.bump_kept | apply State.eventAll_kept | apply State.raise_kept
          | apply State.setSrv_kept | apply State.sample_kept | apply State.tick_kept | apply State.setTin_kept | apply State.eventTo_kept)
      | refine kept_foldl (fun _ _ _ => ?_) _ ?_ | dsimp only | split | assumption)

theorem execToutPulse_kept {K : Keep} {s : State} (n : Fin 4) (h : Kept K s) : ∃ u, execToutPulse n s = .next u ∧ Kept K u := by
  refine ⟨_, rfl, ?_⟩; repeat' (first
      | with_reducible (first
          | assumption | rfl | refine kept_ite ?_ ?_ | apply State.toutFire_kept)
      | refine kept_foldl (fun _ _ _ => ?_) _ ?_ | dsimp only | split | assumption)

/-! ### What `Machine/GrnCore.lean` keeps -/

theorem State.setCap_kept {K : Keep} {s : State} (c : Nat) (x : Capture) (h : Kept K s) : Kept K (State.setCap s c x) := by
  unfold State.setCap; repeat' (first
      | with_reducible (first
          | assumption | rfl | refine kept_ite ?_ ?_ | apply State.setGrn_kept | apply State.report_kept)
      | dsimp only | split | assumption)

theorem State.setGring_kept {K : Keep} {s : State} (kind : Nat) (id : Nat) (x : GRing) (h : Kept K s) : Kept K (State.setGring s kind id x) := by
  unfold State.setGring; repeat' (first
      | with_reducible (first
          | assumption | rfl | refine kept_ite ?_ ?_ | apply State.setGrn_kept | apply State.report_kept)
      | dsimp only | split | assumption)

theorem State.endCap_kept {K : Keep} {s : State} (c : Nat) (cause : Nat) (h : Kept K s) : Kept K (State.endCap s c cause) := by
  unfold State.endCap; repeat' (first
      | with_reducible (first
          | assumption | rfl | refine kept_ite ?_ ?_ | apply State.raise_kept | apply State.setCap_kept)
      | dsimp only | split | assumption)

theorem State.pathTakes_kept {K : Keep} {s : State} (n : Nat) (h : Kept K s) : Kept K (State.pathTakes s n) := by
  unfold State.pathTakes; exact State.setGrn_kept h

theorem State.balerTakes_kept {K : Keep} {s : State} (n : Nat) (new : Bool) (h : Kept K s) : Kept K (State.balerTakes s n new) := by
  unfold State.balerTakes; exact State.setGrn_kept h

theorem State.capWrite_kept {K : Keep} {s : State} (c : Nat) (mk : Nat → Nat → Bytes) (stamp : Inst) (h : Kept K s) : Kept K (State.capWrite s c mk stamp) := by
  unfold State.capWrite; repeat' (first
      | with_reducible (first
          | assumption | rfl | refine kept_ite ?_ ?_ | apply State.bump_kept | apply State.setCap_kept | apply State.endCap_kept | apply State.raise_kept
          | apply State.pathTakes_kept | apply State.balerTakes_kept)
      | dsimp only | split | assumption)

theorem State.fireTrigger_kept {K : Keep} {s : State} (c : Nat) (tt : Inst) (late : Bool) (h : Kept K s) : Kept K (State.fireTrigger s c tt late) := by
  unfold State.fireTrigger; repeat' (first
      | with_reducible (first
          | assumption | rfl | refine kept_ite ?_ ?_ | apply State.bump_kept | apply State.setCap_kept | apply State.raise_kept
          | apply State.capWrite_kept)
      | dsimp only | split | assumption)

theorem State.capFrame1_kept {K : Keep} {s : State} (c : Nat) (p : Nat) (dir : Nat) (b : Bytes) (cls : Nat) (leg : Option Nat) (stamp : Inst) (h : Kept K s) : Kept K (State.capFrame1 s c p dir b cls leg stamp) := by
  unfold State.capFrame1; repeat' (first
      | with_reducible (first
          | assumption | rfl | refine kept_ite ?_ ?_ | apply State.fireTrigger_kept | apply State.capWrite_kept)
      | dsimp only | split | assumption)

theorem State.tapFrame1_kept {K : Keep} {s : State} (r : Nat) (p : Nat) (dir : Nat) (b : Bytes) (cls : Nat) (leg : Option Nat) (stamp : Inst) (h : Kept K s) : Kept K (State.tapFrame1 s r p dir b cls leg stamp) := by
  unfold State.tapFrame1; repeat' (first
      | with_reducible (first
          | assumption | rfl | refine kept_ite ?_ ?_ | apply State.bumpBy_kept | apply State.setGring_kept | apply State.bump_kept
          | apply State.raise_kept | apply State.pathTakes_kept)
      | dsimp only | split | assumption)

theorem State.capFrame_kept {K : Keep} {s : State} (p : Nat) (dir : Nat) (b : Bytes) (cls : Nat) (leg : Option Nat) (stamp : Inst) (h : Kept K s) : Kept K (State.capFrame s p dir b cls leg stamp) := by
  unfold State.capFrame; repeat' (first
      | with_reducible (first
          | assumption | rfl | refine kept_ite ?_ ?_ | apply State.capFrame1_kept | apply State.tapFrame1_kept)
      | refine kept_foldl (fun _ _ _ => ?_) _ ?_ | dsimp only | split | assumption)

theorem State.capTap_kept {K : Keep} {s : State} (leg : Nat) (tap : Nat) (data : Bytes) (n : Nat) (stamp : Inst) (u : Nat) (silent : Bool) (unsettled : Bool) (rate : Nat) (h : Kept K s) : Kept K (State.capTap s leg tap data n stamp u silent unsettled rate) := by
  unfold State.capTap; repeat' (first
      | with_reducible (first
          | assumption | rfl | refine kept_ite ?_ ?_ | apply State.capWrite_kept)
      | refine kept_foldl (fun _ _ _ => ?_) _ ?_ | dsimp only | split | assumption)

theorem State.capTone_kept {K : Keep} {s : State} (leg : Nat) (code : Nat) (at_ : Inst) (h : Kept K s) : Kept K (State.capTone s leg code at_) := by
  unfold State.capTone; repeat' (first
      | with_reducible (first
          | assumption | rfl | refine kept_ite ?_ ?_ | apply State.fireTrigger_kept)
      | refine kept_foldl (fun _ _ _ => ?_) _ ?_ | dsimp only | split | assumption)

theorem State.txDone_kept {K : Keep} {s : State} (f : TxFrame) (status : Nat) (ts : Option Inst) (gate : Bool) (h : Kept K s) : Kept K (State.txDone s f status ts gate) := by
  unfold State.txDone; repeat' (first
      | with_reducible (first
          | assumption | rfl | refine kept_ite ?_ ?_ | apply State.setGring_kept | apply State.raise_kept | apply State.bump_kept
          | apply State.setCap_kept)
      | dsimp only | split | assumption)

/-! ### What `Machine/Mac.lean` keeps -/

theorem State.setPortSt_kept {K : Keep} {s : State} (p : Nat) (x : FnState) (h : Kept K s) : Kept K (State.setPortSt s p x) := by
  unfold State.setPortSt; repeat' (first
      | with_reducible (first
          | assumption | rfl | refine kept_ite ?_ ?_ | apply State.setFld_kept | apply State.report_kept)
      | dsimp only | split | assumption)

theorem State.setLink_kept {K : Keep} {s : State} (p : Nat) (up : Bool) (h : Kept K s) : Kept K (State.setLink s p up) := by
  unfold State.setLink; repeat' (first
      | with_reducible (first
          | assumption | rfl | refine kept_ite ?_ ?_ | apply State.setFld_kept | apply State.raise_kept)
      | dsimp only | split | assumption)

theorem State.loseLink_kept {K : Keep} {s : State} (p : Nat) (h : Kept K s) : Kept K (State.loseLink s p) := by
  unfold State.loseLink; repeat' (first
      | with_reducible (first
          | assumption | rfl | refine kept_ite ?_ ?_ | apply State.setLink_kept | apply State.bump_kept)
      | dsimp only | split | assumption)

theorem State.latchPort_kept {K : Keep} {s : State} (p : Nat) (h : Kept K s) : Kept K (State.latchPort s p) := by
  unfold State.latchPort; repeat' (first
      | with_reducible (first
          | assumption | rfl | refine kept_ite ?_ ?_ | apply State.setPort_kept)
      | dsimp only | split | assumption)

theorem State.portRequest_kept {K : Keep} {s : State} (p : Nat) (en : Bool) (h : Kept K s) : Kept K (State.portRequest s p en) := by
  unfold State.portRequest; repeat' (first
      | with_reducible (first
          | assumption | rfl | refine kept_ite ?_ ?_ | apply State.setPortSt_kept | apply State.latchPort_kept | apply State.setFld_kept
          | apply State.setPort_kept)
      | dsimp only | split | assumption)

theorem State.portFail_kept {K : Keep} {s : State} (p : Nat) (h : Kept K s) : Kept K (State.portFail s p) := by
  unfold State.portFail; repeat' (first
      | with_reducible (first
          | assumption | rfl | refine kept_ite ?_ ?_ | apply State.raise_kept | apply State.setPortSt_kept | apply State.setLink_kept
          | apply State.setPort_kept)
      | dsimp only | split | assumption)

theorem State.xoffCheck_kept {K : Keep} {s : State} (p : Nat) (h : Kept K s) : Kept K (State.xoffCheck s p) := by
  unfold State.xoffCheck; repeat' (first
      | with_reducible (first
          | assumption | rfl | refine kept_ite ?_ ?_ | apply State.setFld_kept | apply State.setPort_kept)
      | dsimp only | split | assumption)

theorem State.peerPause_kept {K : Keep} {s : State} (p : Nat) (n : Nat) (quanta : Nat) (h : Kept K s) : Kept K (State.peerPause s p n quanta) := by
  unfold State.peerPause; repeat' (first
      | with_reducible (first
          | assumption | rfl | refine kept_ite ?_ ?_ | apply State.setFld_kept | apply State.setPort_kept)
      | dsimp only | split | assumption)

theorem State.pfcRx_kept {K : Keep} {s : State} (p : Nat) (b : Bytes) (off : Nat) (h : Kept K s) : Kept K (State.pfcRx s p b off) := by
  unfold State.pfcRx; repeat' (first
      | with_reducible (first
          | assumption | rfl | refine kept_ite ?_ ?_ | apply State.peerPause_kept)
      | refine kept_foldl (fun _ _ _ => ?_) _ ?_ | dsimp only | split | assumption)

theorem State.pauseRx_kept {K : Keep} {s : State} (p : Nat) (quanta : Nat) (h : Kept K s) : Kept K (State.pauseRx s p quanta) := by
  unfold State.pauseRx; repeat' (first
      | with_reducible (first
          | assumption | rfl | refine kept_ite ?_ ?_ | apply State.peerPause_kept)
      | refine kept_foldl (fun _ _ _ => ?_) _ ?_ | dsimp only | split | assumption)

theorem State.rxTake_kept_of {K : Keep} {s t : State} {p n : Nat} {f : RxFrame} (e : s.rxTake p n = some (f, t)) (h : Kept K s) :
    Kept K t := by
  simp only [State.rxTake] at e
  split at e
  · cases e
  · cases e; exact State.xoffCheck_kept _ (State.setPort_kept h)

theorem State.sendFrame_kept {K : Keep} {s : State} (p : Nat) (f : TxFrame) (h : Kept K s) : Kept K (State.sendFrame s p f) := by
  unfold State.sendFrame; repeat' (first
      | with_reducible (first
          | assumption | rfl | refine kept_ite ?_ ?_ | apply State.capFrame_kept | apply State.txDone_kept | apply State.bump_kept
          | apply State.bump64_kept | apply State.tcCorrect_kept)
      | dsimp only | split | refine State.tcCorrect_kept_of ‹_› ?_ | assumption)

theorem State.purge_kept {K : Keep} (p n : Nat) : ∀ (j : Nat) {s : State}, Kept K s → Kept K (s.purge p n j)
  | 0, _, h => h
  | j + 1, s, h => by
    simp only [State.purge]
    split
    · exact h
    · refine kept_ite ?_ (kept_ite ?_ h)
      · exact purge_kept p n j (State.txDone_kept _ _ _ _ (State.bump_kept _ (State.setPort_kept h)))
      · exact purge_kept p n j (State.txDone_kept _ _ _ _ (State.bump_kept _ (State.setPort_kept h)))

theorem State.purgeAll_kept {K : Keep} {s : State} (p : Nat) (h : Kept K s) : Kept K (State.purgeAll s p) := by
  unfold State.purgeAll; repeat' (first
      | with_reducible (first
          | assumption | rfl | refine kept_ite ?_ ?_ | apply State.purge_kept)
      | refine kept_foldl (fun _ _ _ => ?_) _ ?_ | dsimp only | split | assumption)

theorem State.wireDone_kept {K : Keep} {s : State} (p : Nat) (h : Kept K s) : Kept K (State.wireDone s p) := by
  unfold State.wireDone; repeat' (first
      | with_reducible (first
          | assumption | rfl | refine kept_ite ?_ ?_ | apply State.sendFrame_kept | apply State.setPort_kept | apply attempts_kept)
      | dsimp only | split | assumption)

theorem State.s0Again_kept {K : Keep} {s : State} (f : TxFrame) (h : Kept K s) : Kept K (State.s0Again s f) := by
  unfold State.s0Again; repeat' (first
      | with_reducible (first
          | assumption | rfl | refine kept_ite ?_ ?_ | apply State.txDone_kept | apply State.bump_kept | apply State.setPort_kept
          | apply attempts_kept)
      | dsimp only | split | assumption)

theorem State.mdioStart_kept {K : Keep} {s : State} (v : Nat) (own : Bool) (h : Kept K s) : Kept K (State.mdioStart s v own) := by
  unfold State.mdioStart; repeat' (first
      | with_reducible (first
          | assumption | rfl | refine kept_ite ?_ ?_ | apply State.setReg_kept | apply State.setFld_kept)
      | dsimp only | split | assumption)

theorem State.mdioNext_kept {K : Keep} {s : State} (h : Kept K s) : Kept K (State.mdioNext s) := by
  unfold State.mdioNext; repeat' (first
      | with_reducible (first
          | assumption | rfl | refine kept_ite ?_ ?_ | apply State.mdioStart_kept)
      | dsimp only | split | assumption)

theorem State.mdioCfg_kept {K : Keep} {s : State} (v : Nat) (h : Kept K s) : Kept K (State.mdioCfg s v) := by
  unfold State.mdioCfg; repeat' (first
      | with_reducible (first
          | assumption | rfl | refine kept_ite ?_ ?_ | apply State.setReg_kept)
      | dsimp only | split | assumption)

theorem State.mdioJobDone_kept {K : Keep} {s : State} (isRead : Bool) (rdata : Option (BitVec 16)) (h : Kept K s) : Kept K (State.mdioJobDone s isRead rdata) := by
  unfold State.mdioJobDone; repeat' (first
      | with_reducible (first
          | assumption | rfl | refine kept_ite ?_ ?_ | apply State.replyLate_kept)
      | dsimp only | split | assumption)

theorem State.mdioJob_kept {K : Keep} {s : State} (c : Ctx) (jrn : Bool) (w : List Nat) (h : Kept K s) : Kept K (State.mdioJob s c jrn w) := by
  unfold State.mdioJob; repeat' (first
      | with_reducible (first
          | assumption | rfl | refine kept_ite ?_ ?_ | apply State.mdioNext_kept)
      | dsimp only | split | assumption)

theorem State.macCntLatch_kept {K : Keep} {s : State} (i2c : Bool) (p : Nat) (tx : Bool) (h : Kept K s) : Kept K (State.macCntLatch s i2c p tx) := by
  unfold State.macCntLatch; repeat' (first
      | with_reducible (first
          | assumption | rfl | refine kept_ite ?_ ?_ | apply State.setPort_kept)
      | dsimp only | split | assumption)

theorem macEffect_kept {K : Keep} {s : State} (a : Nat) (old : Nat) (v : Nat) (h : Kept K s) : Kept K (macEffect s a old v) := by
  unfold macEffect; repeat' (first
      | with_reducible (first
          | assumption | rfl | refine kept_ite ?_ ?_ | apply State.loseLink_kept | apply State.portRequest_kept | apply State.xoffCheck_kept
          | apply State.setPort_kept)
      | dsimp only | split | assumption)

theorem opPortMdioWrite_keeps : opPortMdioWrite.Keeps := by
  intro K c pl s b h
  simp only [opPortMdioWrite, Done.wait, Done.wait]; repeat' (first
      | with_reducible (first
          | assumption | rfl | refine kept_ite ?_ ?_ | apply State.mdioJob_kept)
      | refine kept_foldl (fun _ _ _ => ?_) _ ?_ | dsimp only | split | assumption)

theorem opPortMdioRead_keeps : opPortMdioRead.Keeps := by
  intro K c pl s b h
  simp only [opPortMdioRead, Done.wait, Done.wait]; repeat' (first
      | with_reducible (first
          | assumption | rfl | refine kept_ite ?_ ?_ | apply State.mdioJob_kept)
      | refine kept_foldl (fun _ _ _ => ?_) _ ?_ | dsimp only | split | assumption)

theorem opPortEnable_keeps : opPortEnable.Keeps := by
  intro K c pl s b h
  simp only [opPortEnable, Done.ok, Done.ok]; repeat' (first
      | with_reducible (first
          | assumption | rfl | refine kept_ite ?_ ?_ | apply State.portRequest_kept | apply State.setFld_kept)
      | refine kept_foldl (fun _ _ _ => ?_) _ ?_ | dsimp only | split | assumption)

theorem opPortDisable_keeps : opPortDisable.Keeps := by
  intro K c pl s b h
  simp only [opPortDisable, Done.ok, Done.ok]; repeat' (first
      | with_reducible (first
          | assumption | rfl | refine kept_ite ?_ ?_ | apply State.portRequest_kept | apply State.setFld_kept)
      | refine kept_foldl (fun _ _ _ => ?_) _ ?_ | dsimp only | split | assumption)

theorem opPortStatus_keeps : opPortStatus.Keeps := by
  intro K c pl s b h
  simp only [opPortStatus, Done.res, Done.res]; repeat' (first
      | with_reducible (first
          | assumption | rfl | refine kept_ite ?_ ?_)
      | refine kept_foldl (fun _ _ _ => ?_) _ ?_ | dsimp only | split | assumption)

theorem execPortStartDone_kept {K : Keep} {s : State} (p : Fin 8) (live : Bool) (h : Kept K s) : ∃ u, execPortStartDone p live s = .next u ∧ Kept K u := by
  refine ⟨_, rfl, ?_⟩; repeat' (first
      | with_reducible (first
          | assumption | rfl | refine kept_ite ?_ ?_ | apply State.setPortSt_kept | apply State.setPort_kept | apply State.setFld_kept
          | apply State.setLink_kept)
      | refine kept_foldl (fun _ _ _ => ?_) _ ?_ | dsimp only | split | assumption)

theorem execPortCalFail_kept {K : Keep} {s : State} (p : Fin 8) (h : Kept K s) : ∃ u, execPortCalFail p s = .next u ∧ Kept K u := by
  refine ⟨_, rfl, ?_⟩; repeat' (first
      | with_reducible (first
          | assumption | rfl | refine kept_ite ?_ ?_ | apply State.portFail_kept)
      | refine kept_foldl (fun _ _ _ => ?_) _ ?_ | dsimp only | split | assumption)

theorem execLanePllLoss_kept {K : Keep} {s : State} (p : Fin 8) (h : Kept K s) : ∃ u, execLanePllLoss p s = .next u ∧ Kept K u := by
  refine ⟨_, rfl, ?_⟩; repeat' (first
      | with_reducible (first
          | assumption | rfl | refine kept_ite ?_ ?_ | apply State.portFail_kept)
      | refine kept_foldl (fun _ _ _ => ?_) _ ?_ | dsimp only | split | assumption)

theorem execLinkUp_kept {K : Keep} {s : State} (p : Fin 8) (h : Kept K s) : ∃ u, execLinkUp p s = .next u ∧ Kept K u := by
  refine ⟨_, rfl, ?_⟩; repeat' (first
      | with_reducible (first
          | assumption | rfl | refine kept_ite ?_ ?_ | apply State.setLink_kept | apply State.setPort_kept)
      | refine kept_foldl (fun _ _ _ => ?_) _ ?_ | dsimp only | split | assumption)

theorem execPortStopDone_kept {K : Keep} {s : State} (p : Fin 8) (h : Kept K s) : ∃ u, execPortStopDone p s = .next u ∧ Kept K u := by
  refine ⟨_, rfl, ?_⟩; repeat' (first
      | with_reducible (first
          | assumption | rfl | refine kept_ite ?_ ?_ | apply State.setPortSt_kept | apply State.setLink_kept
          | apply State.portRequest_kept | apply State.setFld_kept)
      | refine kept_foldl (fun _ _ _ => ?_) _ ?_ | dsimp only | split | assumption)

theorem execRgmiiInbandStatus_kept {K : Keep} {s : State} (link : Bool) (speed : Fin 4) (full : Bool) (h : Kept K s) : ∃ u, execRgmiiInbandStatus link speed full s = .next u ∧ Kept K u := by
  refine ⟨_, rfl, ?_⟩; repeat' (first
      | with_reducible (first
          | assumption | rfl | refine kept_ite ?_ ?_ | apply State.setPort_kept | apply State.setFld_kept | apply State.setLink_kept
          | apply State.loseLink_kept)
      | refine kept_foldl (fun _ _ _ => ?_) _ ?_ | dsimp only | split | assumption)

theorem execPauseQuantaExpiry_kept {K : Keep} {s : State} (p : Fin 8) (tc : Fin 8) (h : Kept K s) : ∃ u, execPauseQuantaExpiry p tc s = .next u ∧ Kept K u := by
  refine ⟨_, rfl, ?_⟩; repeat' (first
      | with_reducible (first
          | assumption | rfl | refine kept_ite ?_ ?_ | apply State.peerPause_kept)
      | refine kept_foldl (fun _ _ _ => ?_) _ ?_ | dsimp only | split | assumption)

theorem execPfcRefresh_kept {K : Keep} {s : State} (p : Fin 8) (h : Kept K s) : ∃ u, execPfcRefresh p s = .next u ∧ Kept K u := by
  refine ⟨_, rfl, ?_⟩; repeat' (first
      | with_reducible (first
          | assumption | rfl | refine kept_ite ?_ ?_ | apply State.setPort_kept)
      | refine kept_foldl (fun _ _ _ => ?_) _ ?_ | dsimp only | split | assumption)

theorem execMacTxSelect_kept {K : Keep} {s : State} (p : Fin 8) (h : Kept K s) : ∃ u, execMacTxSelect p s = .next u ∧ Kept K u := by
  refine ⟨_, rfl, ?_⟩
  have h1 : Kept K ((s.wireDone p.val).purgeAll p.val) := State.purgeAll_kept _ (State.wireDone_kept _ h)
  split
  · exact h1
  split
  · exact State.bump_kept _ (State.setPort_kept h1)
  split
  · exact h1
  · split
    · exact h1
    · exact kept_ite (State.setPort_kept (State.setPort_kept h1)) (State.sendFrame_kept _ _ (State.setPort_kept h1))

theorem execTxQueueEntry_kept {K : Keep} {s : State} (p : Fin 8) (tc : Fin 8) (h : Kept K s) : ∃ u, execTxQueueEntry p tc s = .next u ∧ Kept K u := by
  refine ⟨_, rfl, ?_⟩; repeat' (first
      | with_reducible (first
          | assumption | rfl | refine kept_ite ?_ ?_ | apply State.setPort_kept)
      | refine kept_foldl (fun _ _ _ => ?_) _ ?_ | dsimp only | split | assumption)

theorem execS0Collision_kept {K : Keep} {s : State} (bitTimes : Nat) (h : Kept K s) : ∃ u, execS0Collision bitTimes s = .next u ∧ Kept K u := by
  refine ⟨_, rfl, ?_⟩; repeat' (first
      | with_reducible (first
          | assumption | rfl | refine kept_ite ?_ ?_ | apply State.txDone_kept | apply State.bump_kept | apply State.drawn_kept
          | apply State.setPort_kept | apply attempts_kept)
      | refine kept_foldl (fun _ _ _ => ?_) _ ?_ | dsimp only | split | assumption)

theorem execS0BackoffExpiry_kept {K : Keep} {s : State} (h : Kept K s) : ∃ u, execS0BackoffExpiry s = .next u ∧ Kept K u := by
  refine ⟨_, rfl, ?_⟩; repeat' (first
      | with_reducible (first
          | assumption | rfl | refine kept_ite ?_ ?_ | apply State.s0Again_kept | apply State.setPort_kept)
      | refine kept_foldl (fun _ _ _ => ?_) _ ?_ | dsimp only | split | assumption)

theorem execMacMdioGo_kept {K : Keep} {s : State} (cfg : Word) (v : Word) (h : Kept K s) : ∃ u, execMacMdioGo cfg v s = .next u ∧ Kept K u := by
  refine ⟨_, rfl, ?_⟩; repeat' (first
      | with_reducible (first
          | assumption | rfl | refine kept_ite ?_ ?_ | apply State.mdioStart_kept | apply State.mdioCfg_kept)
      | refine kept_foldl (fun _ _ _ => ?_) _ ?_ | dsimp only | split | assumption)

theorem execMdioFrameDone_kept {K : Keep} {s : State} (rdata : Option (BitVec 16)) (h : Kept K s) : ∃ u, execMdioFrameDone rdata s = .next u ∧ Kept K u := by
  refine ⟨_, rfl, ?_⟩; repeat' (first
      | with_reducible (first
          | assumption | rfl | refine kept_ite ?_ ?_ | apply State.setFld_kept | apply State.mdioJobDone_kept
          | apply State.mdioNext_kept)
      | refine kept_foldl (fun _ _ _ => ?_) _ ?_ | dsimp only | split | assumption)

theorem execPortEnable_kept {K : Keep} {s : State} (q : Req) (h : Kept K s) : ∃ u, execPortEnable q s = .next u ∧ Kept K u := by
  refine ⟨_, rfl, ?_⟩; repeat' (first
      | with_reducible (first
          | assumption | rfl | refine kept_ite ?_ ?_)
      | refine kept_foldl (fun _ _ _ => ?_) _ ?_ | dsimp only | exact runOp_kept opPortEnable_keeps ‹_› | split | assumption)

theorem execPortDisable_kept {K : Keep} {s : State} (q : Req) (h : Kept K s) : ∃ u, execPortDisable q s = .next u ∧ Kept K u := by
  refine ⟨_, rfl, ?_⟩; repeat' (first
      | with_reducible (first
          | assumption | rfl | refine kept_ite ?_ ?_)
      | refine kept_foldl (fun _ _ _ => ?_) _ ?_ | dsimp only | exact runOp_kept opPortDisable_keeps ‹_› | split | assumption)

theorem execPortMdioWrite_kept {K : Keep} {s : State} (q : Req) (h : Kept K s) : ∃ u, execPortMdioWrite q s = .next u ∧ Kept K u := by
  refine ⟨_, rfl, ?_⟩; repeat' (first
      | with_reducible (first
          | assumption | rfl | refine kept_ite ?_ ?_)
      | refine kept_foldl (fun _ _ _ => ?_) _ ?_ | dsimp only | exact runOp_kept opPortMdioWrite_keeps ‹_› | split | assumption)

theorem execPortMdioRead_kept {K : Keep} {s : State} (q : Req) (h : Kept K s) : ∃ u, execPortMdioRead q s = .next u ∧ Kept K u := by
  refine ⟨_, rfl, ?_⟩; repeat' (first
      | with_reducible (first
          | assumption | rfl | refine kept_ite ?_ ?_)
      | refine kept_foldl (fun _ _ _ => ?_) _ ?_ | dsimp only | exact runOp_kept opPortMdioRead_keeps ‹_› | split | assumption)

theorem execPortStatus_kept {K : Keep} {s : State} (q : Req) (h : Kept K s) : ∃ u, execPortStatus q s = .next u ∧ Kept K u := by
  refine ⟨_, rfl, ?_⟩; repeat' (first
      | with_reducible (first
          | assumption | rfl | refine kept_ite ?_ ?_)
      | refine kept_foldl (fun _ _ _ => ?_) _ ?_ | dsimp only | exact runOp_kept opPortStatus_keeps ‹_› | split | assumption)

/-! ### What `Machine/Qcp.lean` keeps -/

theorem State.useOpen_kept {K : Keep} {s : State} (h : Kept K s) : Kept K (State.useOpen s) := by
  unfold State.useOpen; repeat' (first
      | with_reducible (first
          | assumption | rfl | refine kept_ite ?_ ?_ | apply State.setQcp_kept)
      | dsimp only | split | assumption)

theorem State.resend_kept {K : Keep} {s : State} (m : Nat) (seq : Nat) (h : Kept K s) : Kept K (State.resend s m seq) := by
  unfold State.resend; repeat' (first
      | with_reducible (first
          | assumption | rfl | refine kept_ite ?_ ?_ | apply State.bump_kept | apply State.setSess_kept)
      | dsimp only | split | assumption)

theorem State.toRing_kept {K : Keep} {s : State} (m : Nat) (f : CmdFrame) (adv : Bool) (h : Kept K s) : Kept K (State.toRing s m f adv) := by
  unfold State.toRing; repeat' (first
      | with_reducible (first
          | assumption | rfl | refine kept_ite ?_ ?_ | apply State.bump_kept | apply State.setSess_kept | apply State.setReg_kept)
      | dsimp only | split | assumption)

theorem State.bySeq_kept {K : Keep} {s : State} (m : Nat) (f : CmdFrame) (h : Kept K s) : Kept K (State.bySeq s m f) := by
  unfold State.bySeq; repeat' (first
      | with_reducible (first
          | assumption | rfl | refine kept_ite ?_ ?_ | apply State.toRing_kept | apply State.resend_kept | apply State.bump_kept)
      | dsimp only | split | assumption)

theorem State.sessFrame_kept {K : Keep} {s : State} (m : Nat) (b : Bytes) (h : Kept K s) : Kept K (State.sessFrame s m b) := by
  unfold State.sessFrame; repeat' (first
      | with_reducible (first
          | assumption | rfl | refine kept_ite ?_ ?_ | apply State.bump_kept | apply State.renewLease_kept | apply State.bySeq_kept)
      | dsimp only | split | assumption)

theorem State.openFrame_kept {K : Keep} {s : State} (p : Fin 8) (e : Eth) (b : Bytes) (h : Kept K s) : Kept K (State.openFrame s p e b) := by
  unfold State.openFrame; repeat' (first
      | with_reducible (first
          | assumption | rfl | refine kept_ite ?_ ?_ | apply State.setQcp_kept | apply State.bump_kept | apply State.raise_kept
          | apply State.useOpen_kept)
      | dsimp only | split | assumption)

theorem State.noSession_kept {K : Keep} {s : State} (p : Fin 8) (e : Eth) (b : Bytes) (h : Kept K s) : Kept K (State.noSession s p e b) := by
  unfold State.noSession; repeat' (first
      | with_reducible (first
          | assumption | rfl | refine kept_ite ?_ ?_ | apply State.bump_kept | apply State.sendQcp_kept | apply State.useOpen_kept)
      | dsimp only | split | assumption)

theorem State.qcpRx_kept {K : Keep} {s : State} (p : Fin 8) (f : Bytes) (h : Kept K s) : Kept K (State.qcpRx s p f) := by
  unfold State.qcpRx; repeat' (first
      | with_reducible (first
          | assumption | rfl | refine kept_ite ?_ ?_ | apply State.bump_kept | apply State.openFrame_kept | apply State.noSession_kept
          | apply State.sessFrame_kept)
      | dsimp only | split | assumption)

theorem State.openReply_kept {K : Keep} {s : State} (o : OpenReq) (key : Bytes) (num : Nat) (st : Nat) (det : Nat) (rest : Bytes) (h : Kept K s) : Kept K (State.openReply s o key num st det rest) := by
  unfold State.openReply; repeat' (first
      | with_reducible (first
          | assumption | rfl | refine kept_ite ?_ ?_ | apply State.sendQcp_kept)
      | dsimp only | split | assumption)

theorem State.openSession_kept {K : Keep} {s : State} (o : OpenReq) (h : Kept K s) : Kept K (State.openSession s o) := by
  unfold State.openSession; repeat' (first
      | with_reducible (first
          | assumption | rfl | refine kept_ite ?_ ?_ | apply State.bump_kept | apply State.drawn_kept | apply State.report_kept
          | apply State.setSess_kept | apply State.raise_kept | apply State.openReply_kept)
      | dsimp only | split | assumption)

theorem State.openNow_kept {K : Keep} {s : State} (o : OpenReq) (h : Kept K s) : Kept K (State.openNow s o) := by
  unfold State.openNow; repeat' (first
      | with_reducible (first
          | assumption | rfl | refine kept_ite ?_ ?_ | apply State.bump_kept | apply State.raise_kept | apply State.useOpen_kept
          | apply State.openSession_kept)
      | dsimp only | split | assumption)

theorem State.newFate_kept {K : Keep} {s : State} (m : Nat) (h : Kept K s) : Kept K (State.newFate s m) := by
  unfold State.newFate; repeat' (first
      | with_reducible (first
          | assumption | rfl | refine kept_ite ?_ ?_ | apply State.setNv_kept)
      | dsimp only | split | assumption)

theorem State.prove_kept {K : Keep} {s : State} (m : Nat) (more : Bool) (p : Bytes) (h : Kept K s) : Kept K (State.prove s m more p) := by
  unfold State.prove; repeat' (first
      | with_reducible (first
          | assumption | rfl | refine kept_ite ?_ ?_ | apply State.report_kept | apply State.setSess_kept | apply State.closeSess_kept
          | apply State.reply_kept | apply State.sendQcp_kept | apply State.newFate_kept)
      | dsimp only | split | assumption)

theorem State.closeGate_kept {K : Keep} {s : State} (code : Nat) (cl : Nat) (rel : Option Inst) (h : Kept K s) : Kept K (State.closeGate s code cl rel) := by
  unfold State.closeGate; repeat' (first
      | with_reducible (first
          | assumption | rfl | refine kept_ite ?_ ?_ | apply State.setQcp_kept)
      | dsimp only | split | assumption)

theorem State.openGates_kept {K : Keep} {s : State} (codes : List Nat) (h : Kept K s) : Kept K (State.openGates s codes) := by
  unfold State.openGates; repeat' (first
      | with_reducible (first
          | assumption | rfl | refine kept_ite ?_ ?_ | apply State.setQcp_kept | apply State.eventAll_kept)
      | refine kept_foldl (fun _ _ _ => ?_) _ ?_ | dsimp only | split | assumption)

theorem State.muzzleAccept_kept {K : Keep} {s : State} (b : Bytes) (at_ : Inst) (loc : Nat) (h : Kept K s) : Kept K (State.muzzleAccept s b at_ loc) := by
  unfold State.muzzleAccept; repeat' (first
      | with_reducible (first
          | assumption | rfl | refine kept_ite ?_ ?_ | apply State.setNv_kept | apply State.bump_kept | apply State.setQcp_kept
          | apply State.closeGate_kept | apply State.eventAll_kept | apply State.raise_kept)
      | refine kept_foldl (fun _ _ _ => ?_) _ ?_ | dsimp only | split | assumption)

theorem State.muzzleReject_kept {K : Keep} {s : State} (cnt : Nat) (h : Kept K s) : Kept K (State.muzzleReject s cnt) := by
  unfold State.muzzleReject; repeat' (first
      | with_reducible (first
          | assumption | rfl | refine kept_ite ?_ ?_ | apply State.raise_kept | apply State.bump_kept)
      | dsimp only | split | assumption)

theorem State.recordMuzzle_kept {K : Keep} {s : State} (h : Kept K s) : Kept K (State.recordMuzzle s) := by
  unfold State.recordMuzzle; repeat' (first
      | with_reducible (first
          | assumption | rfl | refine kept_ite ?_ ?_ | apply State.setQcp_kept | apply State.setNv_kept)
      | dsimp only | split | assumption)

theorem State.recloseMuzzle_kept {K : Keep} {s : State} (h : Kept K s) : Kept K (State.recloseMuzzle s) := by
  unfold State.recloseMuzzle; repeat' (first
      | with_reducible (first
          | assumption | rfl | refine kept_ite ?_ ?_ | apply State.setNv_kept | apply State.closeGate_kept)
      | refine kept_foldl (fun _ _ _ => ?_) _ ?_ | dsimp only | split | assumption)

theorem State.sendRing_kept {K : Keep} (m : Nat) : ∀ (j : Nat) {s : State}, Kept K s → Kept K (s.sendRing m j)
  | 0, _, h => h
  | j + 1, s, h => by
    simp only [State.sendRing]
    split
    · exact h
    · exact kept_ite (sendRing_kept m j (State.sendQcp_kept _ _ _ _ (State.setSess_kept _ _ h))) h

theorem State.stopKey_kept {K : Keep} {s : State} (k : Nat) (h : Kept K s) : Kept K (State.stopKey s k) := by
  unfold State.stopKey; repeat' (first
      | with_reducible (first
          | assumption | rfl | refine kept_ite ?_ ?_ | apply State.stopSess_kept)
      | refine kept_foldl (fun _ _ _ => ?_) _ ?_ | dsimp only | split | assumption)

theorem State.owe_kept {K : Keep} {s : State} (m : Nat) (op : Nat) (b : Bytes) (h : Kept K s) : Kept K (State.owe s m op b) := by
  unfold State.owe; repeat' (first
      | with_reducible (first
          | assumption | rfl | refine kept_ite ?_ ?_ | apply State.setSess_kept)
      | dsimp only | split | assumption)

theorem State.mzLatch_kept {K : Keep} {s : State} (i2c : Bool) (k : Nat) (h : Kept K s) : Kept K (State.mzLatch s i2c k) := by
  unfold State.mzLatch; repeat' (first
      | with_reducible (first
          | assumption | rfl | refine kept_ite ?_ ?_ | apply State.setQcp_kept)
      | dsimp only | split | assumption)

theorem opRefused_keeps : opRefused.Keeps := by
  intro K c pl s b h
  simp only [opRefused, Done.ok, Done.ok]; repeat' (first
      | with_reducible (first
          | assumption | rfl | refine kept_ite ?_ ?_)
      | refine kept_foldl (fun _ _ _ => ?_) _ ?_ | dsimp only | split | assumption)

theorem opSessionKeepalive_keeps : opSessionKeepalive.Keeps := by
  intro K c pl s b h
  simp only [opSessionKeepalive, Done.res, Done.res]; repeat' (first
      | with_reducible (first
          | assumption | rfl | refine kept_ite ?_ ?_)
      | refine kept_foldl (fun _ _ _ => ?_) _ ?_ | dsimp only | split | assumption)

theorem opSessionClose_keeps : opSessionClose.Keeps := by
  intro K c pl s b h
  simp only [opSessionClose, Done.ok, Done.ok]; repeat' (first
      | with_reducible (first
          | assumption | rfl | refine kept_ite ?_ ?_ | apply State.owe_kept)
      | refine kept_foldl (fun _ _ _ => ?_) _ ?_ | dsimp only | split | assumption)

theorem opSessionSubscribe_keeps : opSessionSubscribe.Keeps := by
  intro K c pl s b h
  simp only [opSessionSubscribe, Done.ok, Done.ok]; repeat' (first
      | with_reducible (first
          | assumption | rfl | refine kept_ite ?_ ?_ | apply State.setSess_kept)
      | refine kept_foldl (fun _ _ _ => ?_) _ ?_ | dsimp only | split | assumption)

theorem opSessionKeySet_keeps : opSessionKeySet.Keeps := by
  intro K c pl s b h
  simp only [opSessionKeySet, Done.ok, Done.ok]; repeat' (first
      | with_reducible (first
          | assumption | rfl | refine kept_ite ?_ ?_ | apply State.owe_kept)
      | refine kept_foldl (fun _ _ _ => ?_) _ ?_ | dsimp only | split | assumption)

theorem opSessionKeyClear_keeps : opSessionKeyClear.Keeps := by
  intro K c pl s b h
  simp only [opSessionKeyClear, Done.ok, Done.ok]; repeat' (first
      | with_reducible (first
          | assumption | rfl | refine kept_ite ?_ ?_ | apply State.owe_kept)
      | refine kept_foldl (fun _ _ _ => ?_) _ ?_ | dsimp only | split | assumption)

theorem opUnmuzzle_keeps : opUnmuzzle.Keeps := by
  intro K c pl s b h
  simp only [opUnmuzzle, Done.ok, Done.ok]; repeat' (first
      | with_reducible (first
          | assumption | rfl | refine kept_ite ?_ ?_ | apply State.openGates_kept)
      | refine kept_foldl (fun _ _ _ => ?_) _ ?_ | dsimp only | split | assumption)

theorem opMuzzleKeySet_keeps : opMuzzleKeySet.Keeps := by
  intro K c pl s b h
  simp only [opMuzzleKeySet, Done.ok, Done.ok]; repeat' (first
      | with_reducible (first
          | assumption | rfl | refine kept_ite ?_ ?_ | apply State.setNv_kept | apply State.setQcp_kept)
      | refine kept_foldl (fun _ _ _ => ?_) _ ?_ | dsimp only | split | assumption)

theorem opSessionList_keeps : opSessionList.Keeps := by
  intro K c pl s b h
  simp only [opSessionList, Done.res, Done.res]; repeat' (first
      | with_reducible (first
          | assumption | rfl | refine kept_ite ?_ ?_ | apply State.drawn_kept)
      | refine kept_foldl (fun _ _ _ => ?_) _ ?_ | dsimp only | split | assumption)

theorem opMuzzleStatus_keeps : opMuzzleStatus.Keeps := by
  intro K c pl s b h
  simp only [opMuzzleStatus, Done.res, Done.res]; repeat' (first
      | with_reducible (first
          | assumption | rfl | refine kept_ite ?_ ?_)
      | refine kept_foldl (fun _ _ _ => ?_) _ ?_ | dsimp only | split | assumption)

theorem execQcpFrameRx_kept {K : Keep} {s : State} (p : Fin 8) (h : Kept K s) : ∃ u, execQcpFrameRx p s = .next u ∧ Kept K u := by
  refine ⟨_, rfl, ?_⟩; repeat' (first
      | with_reducible (first
          | assumption | rfl | refine kept_ite ?_ ?_ | apply State.qcpRx_kept)
      | refine kept_foldl (fun _ _ _ => ?_) _ ?_ | dsimp only | split | refine State.rxTake_kept_of ‹_› ?_ | assumption)

theorem execOpenRateSecond_kept {K : Keep} {s : State} (h : Kept K s) : ∃ u, execOpenRateSecond s = .next u ∧ Kept K u := by
  refine ⟨_, rfl, ?_⟩; repeat' (first
      | with_reducible (first
          | assumption | rfl | refine kept_ite ?_ ?_ | apply State.setQcp_kept)
      | refine kept_foldl (fun _ _ _ => ?_) _ ?_ | dsimp only | split | assumption)

theorem execSessionOpen_kept {K : Keep} {s : State} (o : OpenSrc) (h : Kept K s) : ∃ u, execSessionOpen o s = .next u ∧ Kept K u := by
  refine ⟨_, rfl, ?_⟩; repeat' (first
      | with_reducible (first
          | assumption | rfl | refine kept_ite ?_ ?_ | apply State.setQcp_kept | apply State.openSession_kept
          | apply State.openNow_kept)
      | refine kept_foldl (fun _ _ _ => ?_) _ ?_ | dsimp only | exact runOp_kept opRefused_keeps ‹_› | split | assumption)

theorem execSessionProve_kept {K : Keep} {s : State} (q : Req) (h : Kept K s) : ∃ u, execSessionProve q s = .next u ∧ Kept K u := by
  refine ⟨_, rfl, ?_⟩; repeat' (first
      | with_reducible (first
          | assumption | rfl | refine kept_ite ?_ ?_ | apply State.prove_kept | apply State.bump_kept | apply State.setSess_kept
          | apply State.unbell_kept)
      | refine kept_foldl (fun _ _ _ => ?_) _ ?_ | dsimp only | exact runOp_kept opRefused_keeps ‹_› | split | assumption)

theorem execSessionProveTimeout_kept {K : Keep} {s : State} (mbox : Fin 256) (h : Kept K s) : ∃ u, execSessionProveTimeout mbox s = .next u ∧ Kept K u := by
  refine ⟨_, rfl, ?_⟩; repeat' (first
      | with_reducible (first
          | assumption | rfl | refine kept_ite ?_ ?_ | apply State.closeSess_kept)
      | refine kept_foldl (fun _ _ _ => ?_) _ ?_ | dsimp only | split | assumption)

theorem execLeaseExpiry_kept {K : Keep} {s : State} (mbox : Fin 256) (h : Kept K s) : ∃ u, execLeaseExpiry mbox s = .next u ∧ Kept K u := by
  refine ⟨_, rfl, ?_⟩; repeat' (first
      | with_reducible (first
          | assumption | rfl | refine kept_ite ?_ ?_ | apply State.raise_kept | apply State.bump_kept | apply State.stopSess_kept)
      | refine kept_foldl (fun _ _ _ => ?_) _ ?_ | dsimp only | split | assumption)

theorem execMuzzleFrame_kept {K : Keep} {s : State} (h : Kept K s) : ∃ u, execMuzzleFrame s = .next u ∧ Kept K u := by
  refine ⟨_, rfl, ?_⟩; repeat' (first
      | with_reducible (first
          | assumption | rfl | refine kept_ite ?_ ?_ | apply State.setQcp_kept | apply State.bump_kept | apply State.muzzleReject_kept
          | apply State.muzzleAccept_kept)
      | refine kept_foldl (fun _ _ _ => ?_) _ ?_ | dsimp only | split | assumption)

theorem execGateRelease_kept {K : Keep} {s : State} (g : Gate) (h : Kept K s) : ∃ u, execGateRelease g s = .next u ∧ Kept K u := by
  refine ⟨_, rfl, ?_⟩; repeat' (first
      | with_reducible (first
          | assumption | rfl | refine kept_ite ?_ ?_ | apply State.openGates_kept)
      | refine kept_foldl (fun _ _ _ => ?_) _ ?_ | dsimp only | split | assumption)

theorem execMuzzleStateRecord_kept {K : Keep} {s : State} (h : Kept K s) : ∃ u, execMuzzleStateRecord s = .next u ∧ Kept K u := by
  refine ⟨_, rfl, ?_⟩; repeat' (first
      | with_reducible (first
          | assumption | rfl | refine kept_ite ?_ ?_ | apply State.recordMuzzle_kept)
      | refine kept_foldl (fun _ _ _ => ?_) _ ?_ | dsimp only | split | assumption)

theorem execEventSend_kept {K : Keep} {s : State} (mbox : Fin 256) (h : Kept K s) : ∃ u, execEventSend mbox s = .next u ∧ Kept K u := by
  refine ⟨_, rfl, ?_⟩; repeat' (first
      | with_reducible (first
          | assumption | rfl | refine kept_ite ?_ ?_ | apply State.sendQcp_kept | apply State.setSess_kept)
      | refine kept_foldl (fun _ _ _ => ?_) _ ?_ | dsimp only | split | assumption)

theorem execSessionKeepalive_kept {K : Keep} {s : State} (q : Req) (h : Kept K s) : ∃ u, execSessionKeepalive q s = .next u ∧ Kept K u := by
  refine ⟨_, rfl, ?_⟩; repeat' (first
      | with_reducible (first
          | assumption | rfl | refine kept_ite ?_ ?_)
      | refine kept_foldl (fun _ _ _ => ?_) _ ?_ | dsimp only | exact runOp_kept opSessionKeepalive_keeps ‹_› | split | assumption)

theorem execSessionClose_kept {K : Keep} {s : State} (q : Req) (h : Kept K s) : ∃ u, execSessionClose q s = .next u ∧ Kept K u := by
  refine ⟨_, rfl, ?_⟩; repeat' (first
      | with_reducible (first
          | assumption | rfl | refine kept_ite ?_ ?_)
      | refine kept_foldl (fun _ _ _ => ?_) _ ?_ | dsimp only | exact runOp_kept opSessionClose_keeps ‹_› | split | assumption)

theorem execSessionSubscribe_kept {K : Keep} {s : State} (q : Req) (h : Kept K s) : ∃ u, execSessionSubscribe q s = .next u ∧ Kept K u := by
  refine ⟨_, rfl, ?_⟩; repeat' (first
      | with_reducible (first
          | assumption | rfl | refine kept_ite ?_ ?_)
      | refine kept_foldl (fun _ _ _ => ?_) _ ?_ | dsimp only | exact runOp_kept opSessionSubscribe_keeps ‹_› | split | assumption)

theorem execSessionKeySet_kept {K : Keep} {s : State} (q : Req) (h : Kept K s) : ∃ u, execSessionKeySet q s = .next u ∧ Kept K u := by
  refine ⟨_, rfl, ?_⟩; repeat' (first
      | with_reducible (first
          | assumption | rfl | refine kept_ite ?_ ?_)
      | refine kept_foldl (fun _ _ _ => ?_) _ ?_ | dsimp only | exact runOp_kept opSessionKeySet_keeps ‹_› | split | assumption)

theorem execSessionKeyClear_kept {K : Keep} {s : State} (q : Req) (h : Kept K s) : ∃ u, execSessionKeyClear q s = .next u ∧ Kept K u := by
  refine ⟨_, rfl, ?_⟩; repeat' (first
      | with_reducible (first
          | assumption | rfl | refine kept_ite ?_ ?_)
      | refine kept_foldl (fun _ _ _ => ?_) _ ?_ | dsimp only | exact runOp_kept opSessionKeyClear_keeps ‹_› | split | assumption)

theorem execUnmuzzle_kept {K : Keep} {s : State} (q : Req) (h : Kept K s) : ∃ u, execUnmuzzle q s = .next u ∧ Kept K u := by
  refine ⟨_, rfl, ?_⟩; repeat' (first
      | with_reducible (first
          | assumption | rfl | refine kept_ite ?_ ?_)
      | refine kept_foldl (fun _ _ _ => ?_) _ ?_ | dsimp only | exact runOp_kept opUnmuzzle_keeps ‹_› | split | assumption)

theorem execMuzzleKeySet_kept {K : Keep} {s : State} (q : Req) (h : Kept K s) : ∃ u, execMuzzleKeySet q s = .next u ∧ Kept K u := by
  refine ⟨_, rfl, ?_⟩; repeat' (first
      | with_reducible (first
          | assumption | rfl | refine kept_ite ?_ ?_)
      | refine kept_foldl (fun _ _ _ => ?_) _ ?_ | dsimp only | exact runOp_kept opMuzzleKeySet_keeps ‹_› | split | assumption)

theorem execSessionList_kept {K : Keep} {s : State} (q : Req) (h : Kept K s) : ∃ u, execSessionList q s = .next u ∧ Kept K u := by
  refine ⟨_, rfl, ?_⟩; repeat' (first
      | with_reducible (first
          | assumption | rfl | refine kept_ite ?_ ?_)
      | refine kept_foldl (fun _ _ _ => ?_) _ ?_ | dsimp only | exact runOp_kept opSessionList_keeps ‹_› | split | assumption)

theorem execMuzzleStatus_kept {K : Keep} {s : State} (q : Req) (h : Kept K s) : ∃ u, execMuzzleStatus q s = .next u ∧ Kept K u := by
  refine ⟨_, rfl, ?_⟩; repeat' (first
      | with_reducible (first
          | assumption | rfl | refine kept_ite ?_ ?_)
      | refine kept_foldl (fun _ _ _ => ?_) _ ?_ | dsimp only | exact runOp_kept opMuzzleStatus_keeps ‹_› | split | assumption)

end Sys2Proof.Machine
end

