-- ==== Sys2Proof/Laws/KeptMedia.lean ====
section
/-! SUPPORT. Legs, channels, players, granary and kernel: what each operation and each command keeps (`Kept`). -/

set_option linter.unreachableTactic false
set_option linter.unusedTactic false

namespace Sys2Proof.Machine

open Sys2Proof

/-! ### What `Machine/Leg.lean` keeps -/

theorem State.setLeg_kept {K : Keep} {s : State} (l : Nat) (x : Leg) (h : Kept K s) : Kept K (State.setLeg s l x) := by
  unfold State.setLeg; repeat' (first | with_reducible (first | assumption | rfl | refine kept_ite ?_ ?_) | dsimp only | split | assumption)

theorem State.setKnl_kept {K : Keep} {s : State} (x : Knl) (h : Kept K s) : Kept K (State.setKnl s x) := by
  unfold State.setKnl; repeat' (first | with_reducible (first | assumption | rfl | refine kept_ite ?_ ?_) | dsimp only | split | assumption)

theorem State.charge_kept {K : Keep} {s : State} (l : Nat) (c : Cost) (h : Kept K s) : Kept K (State.charge s l c) := by
  unfold State.charge; repeat' (first
      | with_reducible (first
          | assumption | rfl | refine kept_ite ?_ ?_ | apply State.setLeg_kept | apply State.updOver_kept | apply State.place_kept
          | apply State.unplace_kept)
      | dsimp only | split | assumption)

theorem State.discharge_kept {K : Keep} {s : State} (l : Nat) (h : Kept K s) : Kept K (State.discharge s l) := by
  unfold State.discharge; repeat' (first
      | with_reducible (first
          | assumption | rfl | refine kept_ite ?_ ?_ | apply State.setLeg_kept | apply State.updOver_kept | apply State.unplace_kept)
      | dsimp only | split | assumption)

theorem State.fitChains_kept {K : Keep} {s : State} (l : Nat) (t : Template) (h : Kept K s) : Kept K (State.fitChains s l t) := by
  unfold State.fitChains; repeat' (first
      | with_reducible (first
          | assumption | rfl | refine kept_ite ?_ ?_ | apply State.setLeg_kept)
      | refine kept_foldl (fun _ _ _ => ?_) _ ?_ | dsimp only | split | assumption)

theorem State.updChain_kept {K : Keep} {s : State} (l : Nat) (i : Nat) (f : Chain → Chain) (h : Kept K s) : Kept K (State.updChain s l i f) := by
  unfold State.updChain; repeat' (first
      | with_reducible (first
          | assumption | rfl | refine kept_ite ?_ ?_ | apply State.setLeg_kept | apply State.setKnl_kept)
      | dsimp only | split | assumption)

theorem State.peakTo_kept {K : Keep} {s : State} (f : Fld) (v : Nat) (h : Kept K s) : Kept K (State.peakTo s f v) := by
  unfold State.peakTo; repeat' (first
      | with_reducible (first
          | assumption | rfl | refine kept_ite ?_ ?_ | apply State.setFld_kept)
      | dsimp only | split | assumption)

theorem State.logSwap_kept {K : Keep} {s : State} (l : Nat) (h : Kept K s) : Kept K (State.logSwap s l) := by
  unfold State.logSwap; repeat' (first
      | with_reducible (first
          | assumption | rfl | refine kept_ite ?_ ?_ | apply State.setKnl_kept | apply State.peakTo_kept | apply State.bump_kept
          | apply State.raise_kept)
      | dsimp only | split | assumption)

theorem State.resetChain_kept {K : Keep} {s : State} (l : Nat) (i : Nat) (h : Kept K s) : Kept K (State.resetChain s l i) := by
  unfold State.resetChain; repeat' (first
      | with_reducible (first
          | assumption | rfl | refine kept_ite ?_ ?_ | apply State.bump_kept | apply State.updChain_kept)
      | dsimp only | split | assumption)

theorem State.clearEcho_kept {K : Keep} {s : State} (l : Nat) (h : Kept K s) : Kept K (State.clearEcho s l) := by
  unfold State.clearEcho; repeat' (first
      | with_reducible (first
          | assumption | rfl | refine kept_ite ?_ ?_ | apply State.setLeg_kept)
      | dsimp only | split | assumption)

theorem State.armCmd_kept {K : Keep} {s : State} (c : Ctx) (l : Nat) (T : Option Inst) (payload : Bytes) (plan : List Nat) (h : Kept K s) : Kept K (State.armCmd s c l T payload plan).1 := by
  unfold State.armCmd; repeat' (first | with_reducible (first | assumption | rfl | refine kept_ite ?_ ?_) | dsimp only | split | assumption)

theorem State.armCmd_kept_of {K : Keep} {s vv : State} {c : Ctx} {l : Nat} {T : Option Inst} {payload : Bytes} {plan : List Nat} {y : When} (e : State.armCmd s c l T payload plan = (vv, y)) (h : Kept K s) : Kept K vv := by
  have h1 := State.armCmd_kept c l T payload plan h
  rw [e] at h1; exact h1

theorem State.recharge_kept {K : Keep} {s : State} (l : Nat) (h : Kept K s) : Kept K (State.recharge s l) := by
  unfold State.recharge; repeat' (first
      | with_reducible (first
          | assumption | rfl | refine kept_ite ?_ ?_ | apply State.charge_kept)
      | dsimp only | split | assumption)

theorem State.drawSsrc_kept {K : Keep} (l : Nat) {s : State} (h : Kept K s) : Kept K (s.drawSsrc l).1 := State.drawn_kept h

theorem State.drawSsrc_kept_of {K : Keep} {s t : State} {l y : Nat} (e : s.drawSsrc l = (t, y)) (h : Kept K s) : Kept K t := by
  have h1 := State.drawSsrc_kept l h
  rw [e] at h1; exact h1

theorem State.createLeg_kept {K : Keep} {s : State} (l : Nat) (h : Kept K s) : Kept K (State.createLeg s l) := by
  unfold State.createLeg; repeat' (first
      | with_reducible (first
          | assumption | rfl | refine kept_ite ?_ ?_ | apply State.fallback_kept | apply State.setLeg_kept | apply State.fitChains_kept
          | apply State.drawSsrc_kept | apply State.drawn_kept | apply State.updChain_kept)
      | dsimp only | split | refine State.drawSsrc_kept_of ‹_› ?_ | assumption)

theorem State.stopLeg_kept {K : Keep} {s : State} (l : Nat) (h : Kept K s) : Kept K (State.stopLeg s l) := by
  unfold State.stopLeg; repeat' (first
      | with_reducible (first
          | assumption | rfl | refine kept_ite ?_ ?_ | apply State.setLeg_kept | apply State.report_kept)
      | dsimp only | split | assumption)

theorem State.legOff_kept {K : Keep} {s : State} {l : Nat} {b : Inst} (h : Kept K s) : Kept K (s.legOff l b) := by
  simp only [State.legOff]
  refine kept_ite (State.createLeg_kept _ (State.report_kept _ _ _ (State.setLeg_kept _ _ h))) ?_
  have h2 := State.report_kept (.leg l) .stopping .off (State.setLeg_kept (s := s.discharge l) l
    { Leg.init with cfg := { ((s.discharge l).leg l).cfg with notify := ((s.discharge l).leg l).cfg.notify } } (State.discharge_kept _ h))
  split
  · split
    · exact h2
    · exact h2
  · exact h2

theorem State.changeGraph_kept {K : Keep} {s : State} (l : Nat) (tid : Nat) (h : Kept K s) : Kept K (State.changeGraph s l tid) := by
  unfold State.changeGraph; repeat' (first
      | with_reducible (first
          | assumption | rfl | refine kept_ite ?_ ?_ | apply State.fallback_kept | apply State.setLeg_kept | apply State.fitChains_kept
          | apply State.resetChain_kept | apply State.recharge_kept | apply State.charge_kept)
      | refine kept_foldl (fun _ _ _ => ?_) _ ?_ | dsimp only | split | assumption)

theorem State.applyLeg_kept {K : Keep} {s : State} (a : Armed) (b : Inst) (h : Kept K s) : Kept K (State.applyLeg s a b) := by
  unfold State.applyLeg; repeat' (first
      | with_reducible (first
          | assumption | rfl | refine kept_ite ?_ ?_ | apply State.setLeg_kept | apply State.updChain_kept | apply State.resetChain_kept
          | apply State.clearEcho_kept | apply State.recharge_kept | apply State.createLeg_kept | apply State.stopLeg_kept
          | apply State.changeGraph_kept | apply State.report_kept | apply State.charge_kept)
      | dsimp only | split | assumption)

/-! ### What `Machine/Srtp.lean` keeps -/

theorem State.recordSrtp_kept {K : Keep} {s : State} (l : Nat) (h : Kept K s) : Kept K (State.recordSrtp s l) := by
  unfold State.recordSrtp; repeat' (first
      | with_reducible (first
          | assumption | rfl | refine kept_ite ?_ ?_ | apply State.setNv_kept)
      | dsimp only | split | assumption)

theorem State.resumeSrtp_kept {K : Keep} {s : State} (l : Nat) (h : Kept K s) : Kept K (State.resumeSrtp s l) := by
  unfold State.resumeSrtp; repeat' (first
      | with_reducible (first
          | assumption | rfl | refine kept_ite ?_ ?_ | apply State.setLeg_kept)
      | dsimp only | split | assumption)

/-! ### What `Machine/Chan.lean` keeps -/

theorem opChanEnable_keeps : opChanEnable.Keeps := by
  intro K c pl s b h
  simp only [opChanEnable, enableApp, Done.res, Done.res]; repeat' (first
      | with_reducible (first
          | assumption | rfl | refine kept_ite ?_ ?_ | apply State.report_kept | apply State.charge_kept | apply State.setLeg_kept | apply State.armCmd_kept
          | apply State.fitChains_kept)
      | refine kept_foldl (fun _ _ _ => ?_) _ ?_ | dsimp only | split | refine State.armCmd_kept_of ‹_› ?_ | assumption)

theorem opChanDisable_keeps : opChanDisable.Keeps := by
  intro K c pl s b h
  simp only [opChanDisable, disableApp, Done.ok, Done.ok]; repeat' (first
      | with_reducible (first
          | assumption | rfl | refine kept_ite ?_ ?_ | apply State.setLeg_kept | apply State.armCmd_kept)
      | refine kept_foldl (fun _ _ _ => ?_) _ ?_ | dsimp only | split | refine State.armCmd_kept_of ‹_› ?_ | assumption)

theorem opChanGraph_keeps : opChanGraph.Keeps := by
  intro K c pl s b h
  simp only [opChanGraph]; repeat' (first
      | with_reducible (first
          | assumption | rfl | refine kept_ite ?_ ?_ | apply State.armCmd_kept | apply State.recharge_kept | apply State.charge_kept)
      | dsimp only | split | refine State.armCmd_kept_of ‹_› ?_ | assumption)

theorem opChanFlowAdd_keeps : opChanFlowAdd.Keeps := by
  intro K c pl s b h
  simp only [opChanFlowAdd, Done.ok, Done.ok]; repeat' (first
      | with_reducible (first
          | assumption | rfl | refine kept_ite ?_ ?_ | apply State.setPke_kept | apply State.setLeg_kept)
      | refine kept_foldl (fun _ _ _ => ?_) _ ?_ | dsimp only | split | assumption)

theorem opChanFlowDel_keeps : opChanFlowDel.Keeps := by
  intro K c pl s b h
  simp only [opChanFlowDel, Done.ok, Done.ok]; repeat' (first
      | with_reducible (first
          | assumption | rfl | refine kept_ite ?_ ?_ | apply State.setPke_kept)
      | refine kept_foldl (fun _ _ _ => ?_) _ ?_ | dsimp only | split | assumption)

theorem opChanKey_keeps : opChanKey.Keeps := by
  intro K c pl s b h
  simp only [opChanKey, Done.ok, Done.ok]; repeat' (first
      | with_reducible (first
          | assumption | rfl | refine kept_ite ?_ ?_ | apply State.resumeSrtp_kept | apply State.setLeg_kept | apply State.armCmd_kept | apply State.resumeSrtp_kept)
      | dsimp only | split | refine State.armCmd_kept_of ‹_› ?_ | assumption)

theorem opChanEgress_keeps : opChanEgress.Keeps := by
  intro K c pl s b h
  simp only [opChanEgress, cfgOp, State.configure, Done.ok, Done.ok]; repeat' (first
      | with_reducible (first
          | assumption | rfl | refine kept_ite ?_ ?_ | apply State.setLeg_kept | apply State.armCmd_kept)
      | refine kept_foldl (fun _ _ _ => ?_) _ ?_ | dsimp only | split | refine State.armCmd_kept_of ‹_› ?_ | assumption)

theorem opChanPlayout_keeps : opChanPlayout.Keeps := by
  intro K c pl s b h
  simp only [opChanPlayout, cfgOp, State.configure, Done.ok, Done.ok]; repeat' (first
      | with_reducible (first
          | assumption | rfl | refine kept_ite ?_ ?_ | apply State.setLeg_kept | apply State.armCmd_kept)
      | refine kept_foldl (fun _ _ _ => ?_) _ ?_ | dsimp only | split | refine State.armCmd_kept_of ‹_› ?_ | assumption)

theorem opChanEcho_keeps : opChanEcho.Keeps := by
  intro K c pl s b h
  simp only [opChanEcho, State.configure, Done.ok, Done.ok]; repeat' (first
      | with_reducible (first
          | assumption | rfl | refine kept_ite ?_ ?_ | apply State.recharge_kept | apply State.charge_kept | apply State.setLeg_kept
          | apply State.armCmd_kept)
      | dsimp only | split | refine State.armCmd_kept_of ‹_› ?_ | assumption)

theorem opChanEchoReset_keeps : opChanEchoReset.Keeps := by
  intro K c pl s b h
  simp only [opChanEchoReset, cfgOp, State.configure, Done.ok, Done.ok]; repeat' (first
      | with_reducible (first
          | assumption | rfl | refine kept_ite ?_ ?_ | apply State.setLeg_kept | apply State.armCmd_kept)
      | refine kept_foldl (fun _ _ _ => ?_) _ ?_ | dsimp only | split | refine State.armCmd_kept_of ‹_› ?_ | assumption)

theorem opChanBridge_keeps : opChanBridge.Keeps := by
  intro K c pl s b h
  simp only [opChanBridge, cfgOp, State.configure, Done.ok, Done.ok]; repeat' (first
      | with_reducible (first
          | assumption | rfl | refine kept_ite ?_ ?_ | apply State.setLeg_kept | apply State.armCmd_kept)
      | dsimp only | split | refine State.armCmd_kept_of ‹_› ?_ | assumption)

theorem opChanGain_keeps : opChanGain.Keeps := by
  intro K c pl s b h
  simp only [opChanGain, cfgOp, State.configure, Done.ok, Done.ok]; repeat' (first
      | with_reducible (first
          | assumption | rfl | refine kept_ite ?_ ?_ | apply State.setLeg_kept | apply State.armCmd_kept)
      | refine kept_foldl (fun _ _ _ => ?_) _ ?_ | dsimp only | split | refine State.armCmd_kept_of ‹_› ?_ | assumption)

theorem opChanGroup_keeps : opChanGroup.Keeps := by
  intro K c pl s b h
  simp only [opChanGroup, cfgOp, State.configure, Done.ok, Done.ok]; repeat' (first
      | with_reducible (first
          | assumption | rfl | refine kept_ite ?_ ?_ | apply State.setLeg_kept | apply State.armCmd_kept)
      | refine kept_foldl (fun _ _ _ => ?_) _ ?_ | dsimp only | split | refine State.armCmd_kept_of ‹_› ?_ | assumption)

theorem opChanToneCfg_keeps : opChanToneCfg.Keeps := by
  intro K c pl s b h
  simp only [opChanToneCfg, cfgOp, State.configure, Done.ok, Done.ok]; repeat' (first
      | with_reducible (first
          | assumption | rfl | refine kept_ite ?_ ?_ | apply State.setLeg_kept | apply State.armCmd_kept)
      | refine kept_foldl (fun _ _ _ => ?_) _ ?_ | dsimp only | split | refine State.armCmd_kept_of ‹_› ?_ | assumption)

theorem opChanCodec_keeps : opChanCodec.Keeps := by
  intro K c pl s b h
  simp only [opChanCodec, cfgOp, State.configure, Done.ok, Done.ok]; repeat' (first
      | with_reducible (first
          | assumption | rfl | refine kept_ite ?_ ?_ | apply State.setLeg_kept | apply State.armCmd_kept)
      | dsimp only | split | refine State.armCmd_kept_of ‹_› ?_ | assumption)

theorem opChanRtcp_keeps : opChanRtcp.Keeps := by
  intro K c pl s b h
  simp only [opChanRtcp, Done.ok, Done.ok]; repeat' (first
      | with_reducible (first
          | assumption | rfl | refine kept_ite ?_ ?_ | apply State.setLeg_kept)
      | refine kept_foldl (fun _ _ _ => ?_) _ ?_ | dsimp only | split | assumption)

theorem opChanClear_keeps : opChanClear.Keeps := by
  intro K c pl s b h
  simp only [opChanClear, Done.ok, Done.ok]; repeat' (first
      | with_reducible (first
          | assumption | rfl | refine kept_ite ?_ ?_ | apply State.setPke_kept)
      | refine kept_foldl (fun _ _ _ => ?_) _ ?_ | dsimp only | split | assumption)

theorem opChanTonePlay_keeps : opChanTonePlay.Keeps := by
  intro K c pl s b h
  simp only [opChanTonePlay]; repeat' (first
      | with_reducible (first
          | assumption | rfl | refine kept_ite ?_ ?_ | apply State.armCmd_kept)
      | refine kept_foldl (fun _ _ _ => ?_) _ ?_ | dsimp only | split | refine State.armCmd_kept_of ‹_› ?_ | assumption)

theorem opChanToneStop_keeps : opChanToneStop.Keeps := by
  intro K c pl s b h
  simp only [opChanToneStop, armOp]; repeat' (first
      | with_reducible (first
          | assumption | rfl | refine kept_ite ?_ ?_ | apply State.armCmd_kept)
      | refine kept_foldl (fun _ _ _ => ?_) _ ?_ | dsimp only | split | refine State.armCmd_kept_of ‹_› ?_ | assumption)

theorem opChanConfCreate_keeps : opChanConfCreate.Keeps := by
  intro K c pl s b h
  simp only [opChanConfCreate, Done.ok, Done.ok]; repeat' (first
      | with_reducible (first
          | assumption | rfl | refine kept_ite ?_ ?_)
      | refine kept_foldl (fun _ _ _ => ?_) _ ?_ | dsimp only | split | assumption)

theorem opChanConfDelete_keeps : opChanConfDelete.Keeps := by
  intro K c pl s b h
  simp only [opChanConfDelete, Done.ok, Done.ok]; repeat' (first
      | with_reducible (first
          | assumption | rfl | refine kept_ite ?_ ?_)
      | refine kept_foldl (fun _ _ _ => ?_) _ ?_ | dsimp only | split | assumption)

theorem opChanConfJoin_keeps : opChanConfJoin.Keeps := by
  intro K c pl s b h
  simp only [opChanConfJoin, armOp]; repeat' (first
      | with_reducible (first
          | assumption | rfl | refine kept_ite ?_ ?_ | apply State.armCmd_kept)
      | dsimp only | split | refine State.armCmd_kept_of ‹_› ?_ | assumption)

theorem opChanConfLeave_keeps : opChanConfLeave.Keeps := by
  intro K c pl s b h
  simp only [opChanConfLeave, armOp]; repeat' (first
      | with_reducible (first
          | assumption | rfl | refine kept_ite ?_ ?_ | apply State.armCmd_kept)
      | refine kept_foldl (fun _ _ _ => ?_) _ ?_ | dsimp only | split | refine State.armCmd_kept_of ‹_› ?_ | assumption)

theorem State.nodeRec_kept {K : Keep} {s : State} (l : Nat) (p : State × Bytes) (i : Nat) (h : Kept K p.1) : Kept K (s.nodeRec l p i).1 := by
  unfold State.nodeRec
  repeat' (first | exact h | exact State.drawn_kept h | dsimp only | split)

theorem State.nodeRecs_kept {K : Keep} {s : State} (l : Nat) (h : Kept K s) : Kept K (s.nodeRecs l).1 := by
  have main : ∀ (r : List Nat) (p : State × Bytes), Kept K p.1 → Kept K (r.foldl (s.nodeRec l) p).1 := by
    intro r
    induction r with
    | nil => exact fun _ h => h
    | cons i r ih => exact fun p h => ih _ (State.nodeRec_kept l p i h)
  unfold State.nodeRecs
  split
  · exact h
  · exact main _ _ h

theorem opChanStatus_keeps : opChanStatus.Keeps := fun K _ _ s b h => State.nodeRecs_kept (legOf b) h

theorem opChanConfStatus_keeps : opChanConfStatus.Keeps := by
  intro K c pl s b h
  simp only [opChanConfStatus, Done.res, Done.ok, Done.ok, Done.res]; repeat' (first
      | with_reducible (first
          | assumption | rfl | refine kept_ite ?_ ?_)
      | dsimp only | split | assumption)

theorem opGraphDefine_keeps : opGraphDefine.Keeps := by
  intro K c pl s b h
  simp only [opGraphDefine, Done.res, Done.res]; repeat' (first
      | with_reducible (first
          | assumption | rfl | refine kept_ite ?_ ?_)
      | refine kept_foldl (fun _ _ _ => ?_) _ ?_ | dsimp only | split | assumption)

theorem opGraphDelete_keeps : opGraphDelete.Keeps := by
  intro K c pl s b h
  simp only [opGraphDelete, Done.ok, Done.ok]; repeat' (first
      | with_reducible (first
          | assumption | rfl | refine kept_ite ?_ ?_)
      | refine kept_foldl (fun _ _ _ => ?_) _ ?_ | dsimp only | split | assumption)

theorem opGraphCptDefine_keeps : opGraphCptDefine.Keeps := by
  intro K c pl s b h
  simp only [opGraphCptDefine]; repeat' (first
      | with_reducible (first
          | assumption | rfl | refine kept_ite ?_ ?_ | apply State.armCmd_kept)
      | refine kept_foldl (fun _ _ _ => ?_) _ ?_ | dsimp only | split | refine State.armCmd_kept_of ‹_› ?_ | assumption)

theorem opGraphInfo_keeps : opGraphInfo.Keeps := by
  intro K c pl s b h
  simp only [opGraphInfo, Done.res, Done.res]; repeat' (first
      | with_reducible (first
          | assumption | rfl | refine kept_ite ?_ ?_)
      | refine kept_foldl (fun _ _ _ => ?_) _ ?_ | dsimp only | split | assumption)

theorem opCoefSetLoad_keeps : opCoefSetLoad.Keeps := by
  intro K c pl s b h
  simp only [opCoefSetLoad, Done.ok, Done.ok]; repeat' (first
      | with_reducible (first
          | assumption | rfl | refine kept_ite ?_ ?_)
      | refine kept_foldl (fun _ _ _ => ?_) _ ?_ | dsimp only | split | assumption)

theorem opCoefSetFree_keeps : opCoefSetFree.Keeps := by
  intro K c pl s b h
  simp only [opCoefSetFree, Done.ok, Done.ok]; repeat' (first
      | with_reducible (first
          | assumption | rfl | refine kept_ite ?_ ?_)
      | refine kept_foldl (fun _ _ _ => ?_) _ ?_ | dsimp only | split | assumption)

theorem opCoefBank_keeps : opCoefBank.Keeps := by
  intro K c pl s b h
  simp only [opCoefBank, chainOp, armChain]; repeat' (first
      | with_reducible (first
          | assumption | rfl | refine kept_ite ?_ ?_ | apply State.armCmd_kept)
      | refine kept_foldl (fun _ _ _ => ?_) _ ?_ | dsimp only | split | refine State.armCmd_kept_of ‹_› ?_ | assumption)

theorem opCoefSwap_keeps : opCoefSwap.Keeps := by
  intro K c pl s b h
  simp only [opCoefSwap, chainOp, Done.stat]; repeat' (first
      | with_reducible (first
          | assumption | rfl | refine kept_ite ?_ ?_ | apply State.updChain_kept | apply State.logSwap_kept)
      | dsimp only | split | assumption)

theorem opCoefSwapCancel_keeps : opCoefSwapCancel.Keeps := by
  intro K c pl s b h
  simp only [opCoefSwapCancel, chainOp, Done.ok, Done.ok]; repeat' (first
      | with_reducible (first
          | assumption | rfl | refine kept_ite ?_ ?_ | apply State.updChain_kept)
      | refine kept_foldl (fun _ _ _ => ?_) _ ?_ | dsimp only | split | assumption)

theorem opCoefPhase_keeps : opCoefPhase.Keeps := by
  intro K c pl s b h
  simp only [opCoefPhase, chainOp, armChain]; repeat' (first
      | with_reducible (first
          | assumption | rfl | refine kept_ite ?_ ?_ | apply State.armCmd_kept)
      | refine kept_foldl (fun _ _ _ => ?_) _ ?_ | dsimp only | split | refine State.armCmd_kept_of ‹_› ?_ | assumption)

theorem opCoefSyncReset_keeps : opCoefSyncReset.Keeps := by
  intro K c pl s b h
  simp only [opCoefSyncReset, chainOp, armChain]; repeat' (first
      | with_reducible (first
          | assumption | rfl | refine kept_ite ?_ ?_ | apply State.armCmd_kept)
      | refine kept_foldl (fun _ _ _ => ?_) _ ?_ | dsimp only | split | refine State.armCmd_kept_of ‹_› ?_ | assumption)

theorem opCoefSetInfo_keeps : opCoefSetInfo.Keeps := by
  intro K c pl s b h
  simp only [opCoefSetInfo, Done.res, Done.res]; repeat' (first
      | with_reducible (first
          | assumption | rfl | refine kept_ite ?_ ?_)
      | refine kept_foldl (fun _ _ _ => ?_) _ ?_ | dsimp only | split | assumption)

theorem opCoefRomRead_keeps : opCoefRomRead.Keeps := by
  intro K c pl s b h
  simp only [opCoefRomRead, Done.res, Done.res]; repeat' (first
      | with_reducible (first
          | assumption | rfl | refine kept_ite ?_ ?_ | apply State.drawn_kept)
      | refine kept_foldl (fun _ _ _ => ?_) _ ?_ | dsimp only | split | assumption)

theorem opCoefChainStatus_keeps : opCoefChainStatus.Keeps := by
  intro K c pl s b h
  simp only [opCoefChainStatus, Done.res, Done.ok, Done.ok, Done.res]; repeat' (first
      | with_reducible (first
          | assumption | rfl | refine kept_ite ?_ ?_)
      | refine kept_foldl (fun _ _ _ => ?_) _ ?_ | dsimp only | split | assumption)

theorem execChanEnable_kept {K : Keep} {s : State} (q : Req) (h : Kept K s) : ∃ u, execChanEnable q s = .next u ∧ Kept K u := by
  refine ⟨_, rfl, ?_⟩; repeat' (first
      | with_reducible (first
          | assumption | rfl | refine kept_ite ?_ ?_)
      | refine kept_foldl (fun _ _ _ => ?_) _ ?_ | dsimp only | exact runOp_kept opChanEnable_keeps ‹_› | split | assumption)

theorem execChanDisable_kept {K : Keep} {s : State} (q : Req) (h : Kept K s) : ∃ u, execChanDisable q s = .next u ∧ Kept K u := by
  refine ⟨_, rfl, ?_⟩; repeat' (first
      | with_reducible (first
          | assumption | rfl | refine kept_ite ?_ ?_)
      | refine kept_foldl (fun _ _ _ => ?_) _ ?_ | dsimp only | exact runOp_kept opChanDisable_keeps ‹_› | split | assumption)

theorem execChanGraph_kept {K : Keep} {s : State} (q : Req) (h : Kept K s) : ∃ u, execChanGraph q s = .next u ∧ Kept K u := by
  refine ⟨_, rfl, ?_⟩; repeat' (first
      | with_reducible (first
          | assumption | rfl | refine kept_ite ?_ ?_)
      | refine kept_foldl (fun _ _ _ => ?_) _ ?_ | dsimp only | exact runOp_kept opChanGraph_keeps ‹_› | split | assumption)

theorem execChanFlowAdd_kept {K : Keep} {s : State} (q : Req) (h : Kept K s) : ∃ u, execChanFlowAdd q s = .next u ∧ Kept K u := by
  refine ⟨_, rfl, ?_⟩; repeat' (first
      | with_reducible (first
          | assumption | rfl | refine kept_ite ?_ ?_)
      | refine kept_foldl (fun _ _ _ => ?_) _ ?_ | dsimp only | exact runOp_kept opChanFlowAdd_keeps ‹_› | split | assumption)

theorem execChanFlowDel_kept {K : Keep} {s : State} (q : Req) (h : Kept K s) : ∃ u, execChanFlowDel q s = .next u ∧ Kept K u := by
  refine ⟨_, rfl, ?_⟩; repeat' (first
      | with_reducible (first
          | assumption | rfl | refine kept_ite ?_ ?_)
      | refine kept_foldl (fun _ _ _ => ?_) _ ?_ | dsimp only | exact runOp_kept opChanFlowDel_keeps ‹_› | split | assumption)

theorem execChanEgress_kept {K : Keep} {s : State} (q : Req) (h : Kept K s) : ∃ u, execChanEgress q s = .next u ∧ Kept K u := by
  refine ⟨_, rfl, ?_⟩; repeat' (first
      | with_reducible (first
          | assumption | rfl | refine kept_ite ?_ ?_)
      | refine kept_foldl (fun _ _ _ => ?_) _ ?_ | dsimp only | exact runOp_kept opChanEgress_keeps ‹_› | split | assumption)

theorem execChanKey_kept {K : Keep} {s : State} (q : Req) (h : Kept K s) : ∃ u, execChanKey q s = .next u ∧ Kept K u := by
  refine ⟨_, rfl, ?_⟩; repeat' (first
      | with_reducible (first
          | assumption | rfl | refine kept_ite ?_ ?_)
      | refine kept_foldl (fun _ _ _ => ?_) _ ?_ | dsimp only | exact runOp_kept opChanKey_keeps ‹_› | split | assumption)

theorem execChanPlayout_kept {K : Keep} {s : State} (q : Req) (h : Kept K s) : ∃ u, execChanPlayout q s = .next u ∧ Kept K u := by
  refine ⟨_, rfl, ?_⟩; repeat' (first
      | with_reducible (first
          | assumption | rfl | refine kept_ite ?_ ?_)
      | refine kept_foldl (fun _ _ _ => ?_) _ ?_ | dsimp only | exact runOp_kept opChanPlayout_keeps ‹_› | split | assumption)

theorem execChanEcho_kept {K : Keep} {s : State} (q : Req) (h : Kept K s) : ∃ u, execChanEcho q s = .next u ∧ Kept K u := by
  refine ⟨_, rfl, ?_⟩; repeat' (first
      | with_reducible (first
          | assumption | rfl | refine kept_ite ?_ ?_)
      | refine kept_foldl (fun _ _ _ => ?_) _ ?_ | dsimp only | exact runOp_kept opChanEcho_keeps ‹_› | split | assumption)

theorem execChanEchoReset_kept {K : Keep} {s : State} (q : Req) (h : Kept K s) : ∃ u, execChanEchoReset q s = .next u ∧ Kept K u := by
  refine ⟨_, rfl, ?_⟩; repeat' (first
      | with_reducible (first
          | assumption | rfl | refine kept_ite ?_ ?_)
      | refine kept_foldl (fun _ _ _ => ?_) _ ?_ | dsimp only | exact runOp_kept opChanEchoReset_keeps ‹_› | split | assumption)

theorem execChanBridge_kept {K : Keep} {s : State} (q : Req) (h : Kept K s) : ∃ u, execChanBridge q s = .next u ∧ Kept K u := by
  refine ⟨_, rfl, ?_⟩; repeat' (first
      | with_reducible (first
          | assumption | rfl | refine kept_ite ?_ ?_)
      | refine kept_foldl (fun _ _ _ => ?_) _ ?_ | dsimp only | exact runOp_kept opChanBridge_keeps ‹_› | split | assumption)

theorem execChanGain_kept {K : Keep} {s : State} (q : Req) (h : Kept K s) : ∃ u, execChanGain q s = .next u ∧ Kept K u := by
  refine ⟨_, rfl, ?_⟩; repeat' (first
      | with_reducible (first
          | assumption | rfl | refine kept_ite ?_ ?_)
      | refine kept_foldl (fun _ _ _ => ?_) _ ?_ | dsimp only | exact runOp_kept opChanGain_keeps ‹_› | split | assumption)

theorem execChanGroup_kept {K : Keep} {s : State} (q : Req) (h : Kept K s) : ∃ u, execChanGroup q s = .next u ∧ Kept K u := by
  refine ⟨_, rfl, ?_⟩; repeat' (first
      | with_reducible (first
          | assumption | rfl | refine kept_ite ?_ ?_)
      | refine kept_foldl (fun _ _ _ => ?_) _ ?_ | dsimp only | exact runOp_kept opChanGroup_keeps ‹_› | split | assumption)

theorem execChanToneCfg_kept {K : Keep} {s : State} (q : Req) (h : Kept K s) : ∃ u, execChanToneCfg q s = .next u ∧ Kept K u := by
  refine ⟨_, rfl, ?_⟩; repeat' (first
      | with_reducible (first
          | assumption | rfl | refine kept_ite ?_ ?_)
      | refine kept_foldl (fun _ _ _ => ?_) _ ?_ | dsimp only | exact runOp_kept opChanToneCfg_keeps ‹_› | split | assumption)

theorem execChanTonePlay_kept {K : Keep} {s : State} (q : Req) (h : Kept K s) : ∃ u, execChanTonePlay q s = .next u ∧ Kept K u := by
  refine ⟨_, rfl, ?_⟩; repeat' (first
      | with_reducible (first
          | assumption | rfl | refine kept_ite ?_ ?_)
      | refine kept_foldl (fun _ _ _ => ?_) _ ?_ | dsimp only | exact runOp_kept opChanTonePlay_keeps ‹_› | split | assumption)

theorem execChanToneStop_kept {K : Keep} {s : State} (q : Req) (h : Kept K s) : ∃ u, execChanToneStop q s = .next u ∧ Kept K u := by
  refine ⟨_, rfl, ?_⟩; repeat' (first
      | with_reducible (first
          | assumption | rfl | refine kept_ite ?_ ?_)
      | refine kept_foldl (fun _ _ _ => ?_) _ ?_ | dsimp only | exact runOp_kept opChanToneStop_keeps ‹_› | split | assumption)

theorem execChanCodec_kept {K : Keep} {s : State} (q : Req) (h : Kept K s) : ∃ u, execChanCodec q s = .next u ∧ Kept K u := by
  refine ⟨_, rfl, ?_⟩; repeat' (first
      | with_reducible (first
          | assumption | rfl | refine kept_ite ?_ ?_)
      | refine kept_foldl (fun _ _ _ => ?_) _ ?_ | dsimp only | exact runOp_kept opChanCodec_keeps ‹_› | split | assumption)

theorem execChanRtcp_kept {K : Keep} {s : State} (q : Req) (h : Kept K s) : ∃ u, execChanRtcp q s = .next u ∧ Kept K u := by
  refine ⟨_, rfl, ?_⟩; repeat' (first
      | with_reducible (first
          | assumption | rfl | refine kept_ite ?_ ?_)
      | refine kept_foldl (fun _ _ _ => ?_) _ ?_ | dsimp only | exact runOp_kept opChanRtcp_keeps ‹_› | split | assumption)

theorem execChanClear_kept {K : Keep} {s : State} (q : Req) (h : Kept K s) : ∃ u, execChanClear q s = .next u ∧ Kept K u := by
  refine ⟨_, rfl, ?_⟩; repeat' (first
      | with_reducible (first
          | assumption | rfl | refine kept_ite ?_ ?_)
      | refine kept_foldl (fun _ _ _ => ?_) _ ?_ | dsimp only | exact runOp_kept opChanClear_keeps ‹_› | split | assumption)

theorem execChanConfCreate_kept {K : Keep} {s : State} (q : Req) (h : Kept K s) : ∃ u, execChanConfCreate q s = .next u ∧ Kept K u := by
  refine ⟨_, rfl, ?_⟩; repeat' (first
      | with_reducible (first
          | assumption | rfl | refine kept_ite ?_ ?_)
      | refine kept_foldl (fun _ _ _ => ?_) _ ?_ | dsimp only | exact runOp_kept opChanConfCreate_keeps ‹_› | split | assumption)

theorem execChanConfDelete_kept {K : Keep} {s : State} (q : Req) (h : Kept K s) : ∃ u, execChanConfDelete q s = .next u ∧ Kept K u := by
  refine ⟨_, rfl, ?_⟩; repeat' (first
      | with_reducible (first
          | assumption | rfl | refine kept_ite ?_ ?_)
      | refine kept_foldl (fun _ _ _ => ?_) _ ?_ | dsimp only | exact runOp_kept opChanConfDelete_keeps ‹_› | split | assumption)

theorem execChanConfJoin_kept {K : Keep} {s : State} (q : Req) (h : Kept K s) : ∃ u, execChanConfJoin q s = .next u ∧ Kept K u := by
  refine ⟨_, rfl, ?_⟩; repeat' (first
      | with_reducible (first
          | assumption | rfl | refine kept_ite ?_ ?_)
      | refine kept_foldl (fun _ _ _ => ?_) _ ?_ | dsimp only | exact runOp_kept opChanConfJoin_keeps ‹_› | split | assumption)

theorem execChanConfLeave_kept {K : Keep} {s : State} (q : Req) (h : Kept K s) : ∃ u, execChanConfLeave q s = .next u ∧ Kept K u := by
  refine ⟨_, rfl, ?_⟩; repeat' (first
      | with_reducible (first
          | assumption | rfl | refine kept_ite ?_ ?_)
      | refine kept_foldl (fun _ _ _ => ?_) _ ?_ | dsimp only | exact runOp_kept opChanConfLeave_keeps ‹_› | split | assumption)

theorem execChanStatus_kept {K : Keep} {s : State} (q : Req) (h : Kept K s) : ∃ u, execChanStatus q s = .next u ∧ Kept K u := by
  refine ⟨_, rfl, ?_⟩; repeat' (first
      | with_reducible (first
          | assumption | rfl | refine kept_ite ?_ ?_)
      | refine kept_foldl (fun _ _ _ => ?_) _ ?_ | dsimp only | exact runOp_kept opChanStatus_keeps ‹_› | split | assumption)

theorem execChanConfStatus_kept {K : Keep} {s : State} (q : Req) (h : Kept K s) : ∃ u, execChanConfStatus q s = .next u ∧ Kept K u := by
  refine ⟨_, rfl, ?_⟩; repeat' (first
      | with_reducible (first
          | assumption | rfl | refine kept_ite ?_ ?_)
      | refine kept_foldl (fun _ _ _ => ?_) _ ?_ | dsimp only | exact runOp_kept opChanConfStatus_keeps ‹_› | split | assumption)

theorem execGraphDefine_kept {K : Keep} {s : State} (q : Req) (h : Kept K s) : ∃ u, execGraphDefine q s = .next u ∧ Kept K u := by
  refine ⟨_, rfl, ?_⟩; repeat' (first
      | with_reducible (first
          | assumption | rfl | refine kept_ite ?_ ?_)
      | refine kept_foldl (fun _ _ _ => ?_) _ ?_ | dsimp only | exact runOp_kept opGraphDefine_keeps ‹_› | split | assumption)

theorem execGraphDelete_kept {K : Keep} {s : State} (q : Req) (h : Kept K s) : ∃ u, execGraphDelete q s = .next u ∧ Kept K u := by
  refine ⟨_, rfl, ?_⟩; repeat' (first
      | with_reducible (first
          | assumption | rfl | refine kept_ite ?_ ?_)
      | refine kept_foldl (fun _ _ _ => ?_) _ ?_ | dsimp only | exact runOp_kept opGraphDelete_keeps ‹_› | split | assumption)

theorem execGraphCptDefine_kept {K : Keep} {s : State} (q : Req) (h : Kept K s) : ∃ u, execGraphCptDefine q s = .next u ∧ Kept K u := by
  refine ⟨_, rfl, ?_⟩; repeat' (first
      | with_reducible (first
          | assumption | rfl | refine kept_ite ?_ ?_)
      | refine kept_foldl (fun _ _ _ => ?_) _ ?_ | dsimp only | exact runOp_kept opGraphCptDefine_keeps ‹_› | split | assumption)

theorem execGraphInfo_kept {K : Keep} {s : State} (q : Req) (h : Kept K s) : ∃ u, execGraphInfo q s = .next u ∧ Kept K u := by
  refine ⟨_, rfl, ?_⟩; repeat' (first
      | with_reducible (first
          | assumption | rfl | refine kept_ite ?_ ?_)
      | refine kept_foldl (fun _ _ _ => ?_) _ ?_ | dsimp only | exact runOp_kept opGraphInfo_keeps ‹_› | split | assumption)

theorem execCoefSetLoad_kept {K : Keep} {s : State} (q : Req) (h : Kept K s) : ∃ u, execCoefSetLoad q s = .next u ∧ Kept K u := by
  refine ⟨_, rfl, ?_⟩; repeat' (first
      | with_reducible (first
          | assumption | rfl | refine kept_ite ?_ ?_)
      | refine kept_foldl (fun _ _ _ => ?_) _ ?_ | dsimp only | exact runOp_kept opCoefSetLoad_keeps ‹_› | split | assumption)

theorem execCoefSetFree_kept {K : Keep} {s : State} (q : Req) (h : Kept K s) : ∃ u, execCoefSetFree q s = .next u ∧ Kept K u := by
  refine ⟨_, rfl, ?_⟩; repeat' (first
      | with_reducible (first
          | assumption | rfl | refine kept_ite ?_ ?_)
      | refine kept_foldl (fun _ _ _ => ?_) _ ?_ | dsimp only | exact runOp_kept opCoefSetFree_keeps ‹_› | split | assumption)

theorem execCoefBank_kept {K : Keep} {s : State} (q : Req) (h : Kept K s) : ∃ u, execCoefBank q s = .next u ∧ Kept K u := by
  refine ⟨_, rfl, ?_⟩; repeat' (first
      | with_reducible (first
          | assumption | rfl | refine kept_ite ?_ ?_)
      | refine kept_foldl (fun _ _ _ => ?_) _ ?_ | dsimp only | exact runOp_kept opCoefBank_keeps ‹_› | split | assumption)

theorem execCoefSwap_kept {K : Keep} {s : State} (q : Req) (h : Kept K s) : ∃ u, execCoefSwap q s = .next u ∧ Kept K u := by
  refine ⟨_, rfl, ?_⟩; repeat' (first
      | with_reducible (first
          | assumption | rfl | refine kept_ite ?_ ?_)
      | refine kept_foldl (fun _ _ _ => ?_) _ ?_ | dsimp only | exact runOp_kept opCoefSwap_keeps ‹_› | split | assumption)

theorem execCoefSwapCancel_kept {K : Keep} {s : State} (q : Req) (h : Kept K s) : ∃ u, execCoefSwapCancel q s = .next u ∧ Kept K u := by
  refine ⟨_, rfl, ?_⟩; repeat' (first
      | with_reducible (first
          | assumption | rfl | refine kept_ite ?_ ?_)
      | refine kept_foldl (fun _ _ _ => ?_) _ ?_ | dsimp only | exact runOp_kept opCoefSwapCancel_keeps ‹_› | split | assumption)

theorem execCoefPhase_kept {K : Keep} {s : State} (q : Req) (h : Kept K s) : ∃ u, execCoefPhase q s = .next u ∧ Kept K u := by
  refine ⟨_, rfl, ?_⟩; repeat' (first
      | with_reducible (first
          | assumption | rfl | refine kept_ite ?_ ?_)
      | refine kept_foldl (fun _ _ _ => ?_) _ ?_ | dsimp only | exact runOp_kept opCoefPhase_keeps ‹_› | split | assumption)

theorem execCoefSyncReset_kept {K : Keep} {s : State} (q : Req) (h : Kept K s) : ∃ u, execCoefSyncReset q s = .next u ∧ Kept K u := by
  refine ⟨_, rfl, ?_⟩; repeat' (first
      | with_reducible (first
          | assumption | rfl | refine kept_ite ?_ ?_)
      | refine kept_foldl (fun _ _ _ => ?_) _ ?_ | dsimp only | exact runOp_kept opCoefSyncReset_keeps ‹_› | split | assumption)

theorem execCoefSetInfo_kept {K : Keep} {s : State} (q : Req) (h : Kept K s) : ∃ u, execCoefSetInfo q s = .next u ∧ Kept K u := by
  refine ⟨_, rfl, ?_⟩; repeat' (first
      | with_reducible (first
          | assumption | rfl | refine kept_ite ?_ ?_)
      | refine kept_foldl (fun _ _ _ => ?_) _ ?_ | dsimp only | exact runOp_kept opCoefSetInfo_keeps ‹_› | split | assumption)

theorem execCoefRomRead_kept {K : Keep} {s : State} (q : Req) (h : Kept K s) : ∃ u, execCoefRomRead q s = .next u ∧ Kept K u := by
  refine ⟨_, rfl, ?_⟩; repeat' (first
      | with_reducible (first
          | assumption | rfl | refine kept_ite ?_ ?_)
      | refine kept_foldl (fun _ _ _ => ?_) _ ?_ | dsimp only | exact runOp_kept opCoefRomRead_keeps ‹_› | split | assumption)

theorem execCoefChainStatus_kept {K : Keep} {s : State} (q : Req) (h : Kept K s) : ∃ u, execCoefChainStatus q s = .next u ∧ Kept K u := by
  refine ⟨_, rfl, ?_⟩; repeat' (first
      | with_reducible (first
          | assumption | rfl | refine kept_ite ?_ ?_)
      | refine kept_foldl (fun _ _ _ => ?_) _ ?_ | dsimp only | exact runOp_kept opCoefChainStatus_keeps ‹_› | split | assumption)

/-! ### What `Machine/Ply.lean` keeps -/

theorem State.legCnt_kept {K : Keep} {s : State} (l : Nat) (a : Nat) (h : Kept K s) : Kept K (State.legCnt s l a) := by
  unfold State.legCnt; repeat' (first
      | with_reducible (first
          | assumption | rfl | refine kept_ite ?_ ?_ | apply State.setLeg_kept | apply State.bump_kept)
      | dsimp only | split | assumption)

theorem State.slackSample_kept {K : Keep} {s : State} (l : Nat) (slack : Int) (a : Nat) (ts : Nat) (h : Kept K s) : Kept K (State.slackSample s l slack a ts) := by
  unfold State.slackSample; repeat' (first
      | with_reducible (first
          | assumption | rfl | refine kept_ite ?_ ?_ | apply State.take_kept | apply State.setLeg_kept | apply State.raise_kept)
      | dsimp only | split | assumption)

theorem State.poolDrop_kept {K : Keep} {s : State} (l : Nat) (h : Kept K s) : Kept K (State.poolDrop s l) :=
  State.raise_kept _ _ (State.legCnt_kept l _ h)

theorem State.putSlot_kept {K : Keep} {s : State} (l : Nat) (q : PlyPkt) (h : Kept K s) : Kept K (State.putSlot s l q) := by
  unfold State.putSlot; repeat' (first
      | with_reducible (first
          | assumption | rfl | refine kept_ite ?_ ?_ | apply State.setLeg_kept | apply State.setFld_kept | apply State.raise_kept)
      | dsimp only | split | assumption)

theorem State.fileSlot_kept {K : Keep} {s : State} (l : Nat) (p : PlyIn) (due : Inst) (h : Kept K s) : Kept K (State.fileSlot s l p due) := by
  unfold State.fileSlot; repeat' (first
      | with_reducible (first
          | assumption | rfl | refine kept_ite ?_ ?_ | apply State.setLeg_kept | apply State.legCnt_kept | apply State.poolDrop_kept
          | apply State.putSlot_kept | apply State.held_kept | apply State.setFld_kept | apply State.raise_kept)
      | dsimp only | split | assumption)

theorem State.anchorLeg_kept {K : Keep} {s : State} (l : Nat) (p : PlyIn) (h : Kept K s) : Kept K (State.anchorLeg s l p) := by
  unfold State.anchorLeg; repeat' (first
      | with_reducible (first
          | assumption | rfl | refine kept_ite ?_ ?_ | apply State.setLeg_kept | apply State.slackSample_kept | apply State.poolDrop_kept
          | apply State.fileSlot_kept)
      | dsimp only | split | assumption)

theorem State.plyFile_kept {K : Keep} {s0 : State} (l : Nat) (p : PlyIn) (h : Kept K s0) : Kept K (State.plyFile s0 l p) := by
  unfold State.plyFile; repeat' (first
      | with_reducible (first
          | assumption | rfl | refine kept_ite ?_ ?_ | apply State.take_kept | apply State.setLeg_kept | apply State.raise_kept
          | apply State.legCnt_kept | apply State.slackSample_kept | apply State.fileSlot_kept | apply State.anchorLeg_kept)
      | dsimp only | split | assumption)

theorem State.plyFlush_kept {K : Keep} {s : State} (l : Nat) (h : Kept K s) : Kept K (State.plyFlush s l) := by
  unfold State.plyFlush; repeat' (first
      | with_reducible (first
          | assumption | rfl | refine kept_ite ?_ ?_ | apply State.setLeg_kept | apply State.legCnt_kept)
      | dsimp only | split | assumption)

theorem State.plyHand_kept {K : Keep} {s : State} (l : Nat) (b : Inst) (h : Kept K s) : Kept K (State.plyHand s l b).1 := by
  unfold State.plyHand; repeat' (first
      | with_reducible (first
          | assumption | rfl | refine kept_ite ?_ ?_ | apply State.legCnt_kept | apply State.setLeg_kept)
      | refine kept_foldl (fun _ _ _ => ?_) _ ?_ | dsimp only | split | assumption)

theorem State.plyHand_kept_of {K : Keep} {s vv : State} {l : Nat} {b : Inst} {y : Hand} (e : State.plyHand s l b = (vv, y)) (h : Kept K s) : Kept K vv := by
  have h1 := State.plyHand_kept l b h
  rw [e] at h1; exact h1

theorem State.plySlip_kept {K : Keep} {s : State} (l : Nat) (m : Nat) (h : Kept K s) : Kept K (State.plySlip s l m) := by
  unfold State.plySlip; repeat' (first
      | with_reducible (first
          | assumption | rfl | refine kept_ite ?_ ?_ | apply State.setLeg_kept)
      | dsimp only | split | assumption)

theorem plyEffect_kept {K : Keep} {s : State} (a : Nat) (v : Nat) (h : Kept K s) : Kept K (plyEffect s a v) := by
  unfold plyEffect; repeat' (first
      | with_reducible (first
          | assumption | rfl | refine kept_ite ?_ ?_ | apply State.setFld_kept)
      | dsimp only | split | assumption)

/-! ### What `Machine/Grn.lean` keeps -/

theorem State.capStart_kept {K : Keep} {s : State} (c : Nat) (h : Kept K s) : Kept K (State.capStart s c) := by
  unfold State.capStart; repeat' (first
      | with_reducible (first
          | assumption | rfl | refine kept_ite ?_ ?_ | apply State.setCap_kept | apply State.fireTrigger_kept)
      | dsimp only | split | assumption)

theorem State.capStop_kept {K : Keep} {s : State} (c : Nat) (h : Kept K s) : Kept K (State.capStop s c) := by
  unfold State.capStop; repeat' (first
      | with_reducible (first
          | assumption | rfl | refine kept_ite ?_ ?_ | apply State.setCap_kept | apply State.endCap_kept)
      | dsimp only | split | assumption)

theorem State.capEmitEnd_kept {K : Keep} {s : State} (h : Kept K s) : Kept K (State.capEmitEnd s) := by
  unfold State.capEmitEnd; repeat' (first
      | with_reducible (first
          | assumption | rfl | refine kept_ite ?_ ?_ | apply State.setCap_kept | apply State.endCap_kept)
      | refine kept_foldl (fun _ _ _ => ?_) _ ?_ | dsimp only | split | assumption)

theorem State.sendData_kept {K : Keep} {s : State} (d : ExpTo) (b : Bytes) (o : TxOrigin) (gate : Bool) (shared : Bool) (h : Kept K s) : Kept K (State.sendData s d b o gate shared) := by
  unfold State.sendData; repeat' (first
      | with_reducible (first
          | assumption | rfl | refine kept_ite ?_ ?_ | apply State.bump_kept | apply State.txRequest_kept | apply State.setGrn_kept)
      | dsimp only | split | refine State.txRequest_kept_of ‹_› ?_ | assumption)

theorem State.exportCapture_kept {K : Keep} {s : State} (c : Nat) (h : Kept K s) : Kept K (State.exportCapture s c) := by
  unfold State.exportCapture; repeat' (first
      | with_reducible (first
          | assumption | rfl | refine kept_ite ?_ ?_ | apply State.setCap_kept | apply State.raise_kept | apply State.bump_kept
          | apply State.sendData_kept)
      | dsimp only | split | assumption)

theorem State.ringRest_kept {K : Keep} {s : State} (kind : Nat) (r : Nat) (h : Kept K s) : Kept K (State.ringRest s kind r) := by
  unfold State.ringRest; repeat' (first
      | with_reducible (first
          | assumption | rfl | refine kept_ite ?_ ?_ | apply State.setGring_kept)
      | dsimp only | split | assumption)

theorem State.exportTap_kept {K : Keep} {s : State} (r : Nat) (h : Kept K s) : Kept K (State.exportTap s r) := by
  unfold State.exportTap; repeat' (first
      | with_reducible (first
          | assumption | rfl | refine kept_ite ?_ ?_ | apply State.setGring_kept | apply State.ringRest_kept | apply State.sendData_kept)
      | dsimp only | split | assumption)

theorem State.setPlayer_kept {K : Keep} {s : State} (p : Nat) (x : Player) (h : Kept K s) : Kept K (State.setPlayer s p x) := by
  unfold State.setPlayer; repeat' (first
      | with_reducible (first
          | assumption | rfl | refine kept_ite ?_ ?_ | apply State.setGrn_kept | apply State.report_kept)
      | dsimp only | split | assumption)

theorem State.endPlayer_kept {K : Keep} {s : State} (p : Nat) (h : Kept K s) : Kept K (State.endPlayer s p) := by
  unfold State.endPlayer; repeat' (first
      | with_reducible (first
          | assumption | rfl | refine kept_ite ?_ ?_ | apply State.raise_kept | apply State.setPlayer_kept)
      | dsimp only | split | assumption)

theorem State.playStart_kept {K : Keep} {s : State} (p : Nat) (h : Kept K s) : Kept K (State.playStart s p) := by
  unfold State.playStart; repeat' (first
      | with_reducible (first
          | assumption | rfl | refine kept_ite ?_ ?_ | apply State.setPlayer_kept | apply State.raise_kept | apply State.lateAct_kept)
      | dsimp only | split | assumption)

theorem State.tapItem_kept {K : Keep} {s : State} (l : Nat) (i : PItem) (v : Inst) (h : Kept K s) : Kept K (State.tapItem s l i v) := by
  unfold State.tapItem; repeat' (first
      | with_reducible (first
          | assumption | rfl | refine kept_ite ?_ ?_ | apply State.bumpBy_kept | apply State.setGrn_kept)
      | dsimp only | split | assumption)

theorem State.releaseItem_kept {K : Keep} {s : State} (p : Nat) (x : Player) (i : PItem) (v : Inst) (h : Kept K s) : Kept K (State.releaseItem s p x i v) := by
  unfold State.releaseItem; repeat' (first
      | with_reducible (first
          | assumption | rfl | refine kept_ite ?_ ?_ | apply State.bump_kept | apply State.tapItem_kept | apply State.txRequest_kept)
      | dsimp only | split | refine State.txRequest_kept_of ‹_› ?_ | assumption)

theorem State.ringStart_kept {K : Keep} {s : State} (kind : Nat) (r : Nat) (h : Kept K s) : Kept K (State.ringStart s kind r) := by
  unfold State.ringStart; repeat' (first
      | with_reducible (first
          | assumption | rfl | refine kept_ite ?_ ?_ | apply State.setGring_kept)
      | dsimp only | split | assumption)

theorem State.ringStop_kept {K : Keep} {s : State} (kind : Nat) (r : Nat) (h : Kept K s) : Kept K (State.ringStop s kind r) := by
  unfold State.ringStop; repeat' (first
      | with_reducible (first
          | assumption | rfl | refine kept_ite ?_ ?_ | apply State.ringRest_kept | apply State.setGring_kept)
      | dsimp only | split | assumption)

theorem State.ringDrop_kept {K : Keep} {s : State} (h : Kept K s) : Kept K (State.ringDrop s) := by
  unfold State.ringDrop; repeat' (first
      | with_reducible (first
          | assumption | rfl | refine kept_ite ?_ ?_ | apply State.raise_kept | apply State.bump_kept)
      | dsimp only | split | assumption)

theorem State.storeEntries_kept {K : Keep} (r : Nat) : ∀ (j i : Nat) (b : Bytes) {s : State}, Kept K s → Kept K (State.storeEntries r j i b s)
  | 0, _, _, _, h => h
  | j + 1, i, b, s, h => by
    simp only [State.storeEntries]
    refine kept_ite h (kept_ite (State.ringDrop_kept h) (kept_ite (storeEntries_kept r j _ _ h) (kept_ite (State.ringDrop_kept h) ?_)))
    exact storeEntries_kept r j _ _ (State.setGring_kept _ _ _ h)

theorem State.ringFeed_kept {K : Keep} {s : State} (kind : Nat) (r : Nat) (b : Bytes) (h : Kept K s) : Kept K (State.ringFeed s kind r b) := by
  unfold State.ringFeed; repeat' (first
      | with_reducible (first
          | assumption | rfl | refine kept_ite ?_ ?_ | apply State.ringDrop_kept | apply State.setGring_kept
          | apply State.storeEntries_kept)
      | dsimp only | split | assumption)

theorem State.injRefuse_kept {K : Keep} {s : State} (r : Nat) (i : Nat) (e : Bytes) (st : Nat) (h : Kept K s) : Kept K (State.injRefuse s r i e st) := by
  unfold State.injRefuse; repeat' (first
      | with_reducible (first
          | assumption | rfl | refine kept_ite ?_ ?_ | apply State.setGring_kept)
      | dsimp only | split | assumption)

theorem State.strmLatch_kept {K : Keep} {s : State} (i2c : Bool) (h : Kept K s) : Kept K (State.strmLatch s i2c) := by
  unfold State.strmLatch; repeat' (first
      | with_reducible (first
          | assumption | rfl | refine kept_ite ?_ ?_ | apply State.setGrn_kept)
      | dsimp only | split | assumption)

theorem opCaptOpen_keeps : opCaptOpen.Keeps := by
  intro K c pl s b h
  simp only [opCaptOpen, grnOp, Done.ok, Done.ok]; repeat' (first
      | with_reducible (first
          | assumption | rfl | refine kept_ite ?_ ?_ | apply State.setCap_kept)
      | refine kept_foldl (fun _ _ _ => ?_) _ ?_ | dsimp only | split | assumption)

theorem opCaptClose_keeps : opCaptClose.Keeps := by
  intro K c pl s b h
  simp only [opCaptClose, grnOp, Done.ok, Done.ok]; repeat' (first
      | with_reducible (first
          | assumption | rfl | refine kept_ite ?_ ?_ | apply State.setGrn_kept)
      | refine kept_foldl (fun _ _ _ => ?_) _ ?_ | dsimp only | split | assumption)

theorem opCaptEnable_keeps : opCaptEnable.Keeps := by
  intro K c pl s b h
  simp only [opCaptEnable, grnOp, Done.ok, Done.ok]; repeat' (first
      | with_reducible (first
          | assumption | rfl | refine kept_ite ?_ ?_ | apply State.capStart_kept | apply State.setCap_kept)
      | dsimp only | split | assumption)

theorem opCaptDisable_keeps : opCaptDisable.Keeps := by
  intro K c pl s b h
  simp only [opCaptDisable, grnOp, Done.ok, Done.ok]; repeat' (first
      | with_reducible (first
          | assumption | rfl | refine kept_ite ?_ ?_ | apply State.capStop_kept)
      | refine kept_foldl (fun _ _ _ => ?_) _ ?_ | dsimp only | split | assumption)

theorem opCaptTrigger_keeps : opCaptTrigger.Keeps := by
  intro K c pl s b h
  simp only [opCaptTrigger, grnOp, Done.ok, Done.ok]; repeat' (first
      | with_reducible (first
          | assumption | rfl | refine kept_ite ?_ ?_ | apply State.fireTrigger_kept)
      | refine kept_foldl (fun _ _ _ => ?_) _ ?_ | dsimp only | split | assumption)

theorem opCaptExport_keeps : opCaptExport.Keeps := by
  intro K c pl s b h
  simp only [opCaptExport, grnOp, Done.ok, Done.ok]; repeat' (first
      | with_reducible (first
          | assumption | rfl | refine kept_ite ?_ ?_ | apply State.setCap_kept)
      | refine kept_foldl (fun _ _ _ => ?_) _ ?_ | dsimp only | split | assumption)

theorem opCaptRead_keeps : opCaptRead.Keeps := by
  intro K c pl s b h
  simp only [opCaptRead, Done.res, Done.res]; repeat' (first
      | with_reducible (first
          | assumption | rfl | refine kept_ite ?_ ?_)
      | refine kept_foldl (fun _ _ _ => ?_) _ ?_ | dsimp only | split | assumption)

theorem opCaptStatus_keeps : opCaptStatus.Keeps := by
  intro K c pl s b h
  simp only [opCaptStatus, Done.res, Done.res]; repeat' (first
      | with_reducible (first
          | assumption | rfl | refine kept_ite ?_ ?_)
      | refine kept_foldl (fun _ _ _ => ?_) _ ?_ | dsimp only | split | assumption)

theorem opPattLoad_keeps : opPattLoad.Keeps := by
  intro K c pl s b h
  simp only [opPattLoad, Done.ok, Done.ok]; repeat' (first
      | with_reducible (first
          | assumption | rfl | refine kept_ite ?_ ?_ | apply State.setGrn_kept)
      | refine kept_foldl (fun _ _ _ => ?_) _ ?_ | dsimp only | split | assumption)

theorem opPattFromCapt_keeps : opPattFromCapt.Keeps := by
  intro K c pl s b h
  simp only [opPattFromCapt, grnOp, Done.ok, Done.ok]; repeat' (first
      | with_reducible (first
          | assumption | rfl | refine kept_ite ?_ ?_ | apply State.setGrn_kept)
      | refine kept_foldl (fun _ _ _ => ?_) _ ?_ | dsimp only | split | assumption)

theorem opPattDelete_keeps : opPattDelete.Keeps := by
  intro K c pl s b h
  simp only [opPattDelete, grnOp, Done.ok, Done.ok]; repeat' (first
      | with_reducible (first
          | assumption | rfl | refine kept_ite ?_ ?_ | apply State.setGrn_kept)
      | refine kept_foldl (fun _ _ _ => ?_) _ ?_ | dsimp only | split | assumption)

theorem opPattInfo_keeps : opPattInfo.Keeps := by
  intro K c pl s b h
  simp only [opPattInfo, Done.res, Done.res]; repeat' (first
      | with_reducible (first
          | assumption | rfl | refine kept_ite ?_ ?_)
      | refine kept_foldl (fun _ _ _ => ?_) _ ?_ | dsimp only | split | assumption)

theorem opPattPlay_keeps : opPattPlay.Keeps := by
  intro K c pl s b h
  simp only [opPattPlay]; repeat' (first
      | with_reducible (first
          | assumption | rfl | refine kept_ite ?_ ?_ | apply State.setPlayer_kept | apply State.bumpBy_kept | apply State.endPlayer_kept)
      | refine kept_foldl (fun _ _ _ => ?_) _ ?_ | dsimp only | split | assumption)

theorem opPattStop_keeps : opPattStop.Keeps := by
  intro K c pl s b h
  simp only [opPattStop, grnOp, Done.ok, Done.ok]; repeat' (first
      | with_reducible (first
          | assumption | rfl | refine kept_ite ?_ ?_ | apply State.endPlayer_kept)
      | refine kept_foldl (fun _ _ _ => ?_) _ ?_ | dsimp only | split | assumption)

theorem opRingOpen_keeps : opRingOpen.Keeps := by
  intro K c pl s b h
  simp only [opRingOpen, Done.ok, Done.ok]; repeat' (first
      | with_reducible (first
          | assumption | rfl | refine kept_ite ?_ ?_ | apply State.setGring_kept)
      | refine kept_foldl (fun _ _ _ => ?_) _ ?_ | dsimp only | split | assumption)

theorem opRingClose_keeps : opRingClose.Keeps := by
  intro K c pl s b h
  simp only [opRingClose, grnOp, Done.ok, Done.ok]; repeat' (first
      | with_reducible (first
          | assumption | rfl | refine kept_ite ?_ ?_ | apply State.setGrn_kept)
      | refine kept_foldl (fun _ _ _ => ?_) _ ?_ | dsimp only | split | assumption)

theorem opRingEnable_keeps : opRingEnable.Keeps := by
  intro K c pl s b h
  simp only [opRingEnable, grnOp, Done.ok, Done.ok]; repeat' (first
      | with_reducible (first
          | assumption | rfl | refine kept_ite ?_ ?_ | apply State.ringStart_kept | apply State.setGring_kept)
      | refine kept_foldl (fun _ _ _ => ?_) _ ?_ | dsimp only | split | assumption)

theorem opRingDisable_keeps : opRingDisable.Keeps := by
  intro K c pl s b h
  simp only [opRingDisable, grnOp, Done.ok, Done.ok]; repeat' (first
      | with_reducible (first
          | assumption | rfl | refine kept_ite ?_ ?_ | apply State.ringStop_kept)
      | refine kept_foldl (fun _ _ _ => ?_) _ ?_ | dsimp only | split | assumption)

theorem opRingFeed_keeps : opRingFeed.Keeps := by
  intro K c pl s b h
  simp only [opRingFeed, Done.ok, Done.ok]; repeat' (first
      | with_reducible (first
          | assumption | rfl | refine kept_ite ?_ ?_)
      | dsimp only | split | assumption)

theorem opRingStatus_keeps : opRingStatus.Keeps := by
  intro K c pl s b h
  simp only [opRingStatus, Done.res, Done.res]; repeat' (first
      | with_reducible (first
          | assumption | rfl | refine kept_ite ?_ ?_)
      | refine kept_foldl (fun _ _ _ => ?_) _ ?_ | dsimp only | split | assumption)

theorem execCaptureTimeTrigger_kept {K : Keep} {s : State} (c : Fin 16) (h : Kept K s) : ∃ u, execCaptureTimeTrigger c s = .next u ∧ Kept K u := by
  refine ⟨_, rfl, ?_⟩; repeat' (first
      | with_reducible (first
          | assumption | rfl | refine kept_ite ?_ ?_ | apply State.fireTrigger_kept)
      | refine kept_foldl (fun _ _ _ => ?_) _ ?_ | dsimp only | split | assumption)

theorem execExportFrameSend_kept {K : Keep} {s : State} (x : ExportRef) (h : Kept K s) : ∃ u, execExportFrameSend x s = .next u ∧ Kept K u := by
  refine ⟨_, rfl, ?_⟩; repeat' (first
      | with_reducible (first
          | assumption | rfl | refine kept_ite ?_ ?_ | apply State.exportCapture_kept | apply State.exportTap_kept)
      | refine kept_foldl (fun _ _ _ => ?_) _ ?_ | dsimp only | split | assumption)

theorem execTimedActionExec_kept {K : Keep} {s : State} (a : TimedRef) (h : Kept K s) : ∃ u, execTimedActionExec a s = .next u ∧ Kept K u := by
  refine ⟨_, rfl, ?_⟩; repeat' (first
      | with_reducible (first
          | assumption | rfl | refine kept_ite ?_ ?_ | apply State.toutFire_kept | apply State.playStart_kept)
      | refine kept_foldl (fun _ _ _ => ?_) _ ?_ | dsimp only | split | assumption)

theorem execPatternItemRelease_kept {K : Keep} {s : State} (pl : Fin 64) (h : Kept K s) : ∃ u, execPatternItemRelease pl s = .next u ∧ Kept K u := by
  refine ⟨_, rfl, ?_⟩; repeat' (first
      | with_reducible (first
          | assumption | rfl | refine kept_ite ?_ ?_ | apply State.endPlayer_kept | apply State.releaseItem_kept
          | apply State.setPlayer_kept)
      | refine kept_foldl (fun _ _ _ => ?_) _ ?_ | dsimp only | split | assumption)

theorem execInjectLaunch_kept {K : Keep} {s : State} (ring : Fin 16) (h : Kept K s) : ∃ u, execInjectLaunch ring s = .next u ∧ Kept K u := by
  refine ⟨_, rfl, ?_⟩; repeat' (first
      | with_reducible (first
          | assumption | rfl | refine kept_ite ?_ ?_ | apply State.bump_kept | apply State.setGring_kept | apply State.raise_kept
          | apply State.injRefuse_kept | apply State.txRequest_kept)
      | refine kept_foldl (fun _ _ _ => ?_) _ ?_ | dsimp only | split | refine State.txRequest_kept_of ‹_› ?_ | assumption)

theorem execInjectDoneSend_kept {K : Keep} {s : State} (ring : Fin 16) (h : Kept K s) : ∃ u, execInjectDoneSend ring s = .next u ∧ Kept K u := by
  refine ⟨_, rfl, ?_⟩; repeat' (first
      | with_reducible (first
          | assumption | rfl | refine kept_ite ?_ ?_ | apply State.setGring_kept | apply State.ringRest_kept | apply State.sendData_kept)
      | refine kept_foldl (fun _ _ _ => ?_) _ ?_ | dsimp only | split | assumption)

theorem execCaptOpen_kept {K : Keep} {s : State} (q : Req) (h : Kept K s) : ∃ u, execCaptOpen q s = .next u ∧ Kept K u := by
  refine ⟨_, rfl, ?_⟩; repeat' (first
      | with_reducible (first
          | assumption | rfl | refine kept_ite ?_ ?_)
      | refine kept_foldl (fun _ _ _ => ?_) _ ?_ | dsimp only | exact runOp_kept opCaptOpen_keeps ‹_› | split | assumption)

theorem execCaptClose_kept {K : Keep} {s : State} (q : Req) (h : Kept K s) : ∃ u, execCaptClose q s = .next u ∧ Kept K u := by
  refine ⟨_, rfl, ?_⟩; repeat' (first
      | with_reducible (first
          | assumption | rfl | refine kept_ite ?_ ?_)
      | refine kept_foldl (fun _ _ _ => ?_) _ ?_ | dsimp only | exact runOp_kept opCaptClose_keeps ‹_› | split | assumption)

theorem execCaptEnable_kept {K : Keep} {s : State} (q : Req) (h : Kept K s) : ∃ u, execCaptEnable q s = .next u ∧ Kept K u := by
  refine ⟨_, rfl, ?_⟩; repeat' (first
      | with_reducible (first
          | assumption | rfl | refine kept_ite ?_ ?_)
      | refine kept_foldl (fun _ _ _ => ?_) _ ?_ | dsimp only | exact runOp_kept opCaptEnable_keeps ‹_› | split | assumption)

theorem execCaptDisable_kept {K : Keep} {s : State} (q : Req) (h : Kept K s) : ∃ u, execCaptDisable q s = .next u ∧ Kept K u := by
  refine ⟨_, rfl, ?_⟩; repeat' (first
      | with_reducible (first
          | assumption | rfl | refine kept_ite ?_ ?_)
      | refine kept_foldl (fun _ _ _ => ?_) _ ?_ | dsimp only | exact runOp_kept opCaptDisable_keeps ‹_› | split | assumption)

theorem execCaptTrigger_kept {K : Keep} {s : State} (q : Req) (h : Kept K s) : ∃ u, execCaptTrigger q s = .next u ∧ Kept K u := by
  refine ⟨_, rfl, ?_⟩; repeat' (first
      | with_reducible (first
          | assumption | rfl | refine kept_ite ?_ ?_)
      | refine kept_foldl (fun _ _ _ => ?_) _ ?_ | dsimp only | exact runOp_kept opCaptTrigger_keeps ‹_› | split | assumption)

theorem execCaptExport_kept {K : Keep} {s : State} (q : Req) (h : Kept K s) : ∃ u, execCaptExport q s = .next u ∧ Kept K u := by
  refine ⟨_, rfl, ?_⟩; repeat' (first
      | with_reducible (first
          | assumption | rfl | refine kept_ite ?_ ?_)
      | refine kept_foldl (fun _ _ _ => ?_) _ ?_ | dsimp only | exact runOp_kept opCaptExport_keeps ‹_› | split | assumption)

theorem execCaptRead_kept {K : Keep} {s : State} (q : Req) (h : Kept K s) : ∃ u, execCaptRead q s = .next u ∧ Kept K u := by
  refine ⟨_, rfl, ?_⟩; repeat' (first
      | with_reducible (first
          | assumption | rfl | refine kept_ite ?_ ?_)
      | refine kept_foldl (fun _ _ _ => ?_) _ ?_ | dsimp only | exact runOp_kept opCaptRead_keeps ‹_› | split | assumption)

theorem execCaptStatus_kept {K : Keep} {s : State} (q : Req) (h : Kept K s) : ∃ u, execCaptStatus q s = .next u ∧ Kept K u := by
  refine ⟨_, rfl, ?_⟩; repeat' (first
      | with_reducible (first
          | assumption | rfl | refine kept_ite ?_ ?_)
      | refine kept_foldl (fun _ _ _ => ?_) _ ?_ | dsimp only | exact runOp_kept opCaptStatus_keeps ‹_› | split | assumption)

theorem execPattLoad_kept {K : Keep} {s : State} (q : Req) (h : Kept K s) : ∃ u, execPattLoad q s = .next u ∧ Kept K u := by
  refine ⟨_, rfl, ?_⟩; repeat' (first
      | with_reducible (first
          | assumption | rfl | refine kept_ite ?_ ?_)
      | refine kept_foldl (fun _ _ _ => ?_) _ ?_ | dsimp only | exact runOp_kept opPattLoad_keeps ‹_› | split | assumption)

theorem execPattFromCapt_kept {K : Keep} {s : State} (q : Req) (h : Kept K s) : ∃ u, execPattFromCapt q s = .next u ∧ Kept K u := by
  refine ⟨_, rfl, ?_⟩; repeat' (first
      | with_reducible (first
          | assumption | rfl | refine kept_ite ?_ ?_)
      | refine kept_foldl (fun _ _ _ => ?_) _ ?_ | dsimp only | exact runOp_kept opPattFromCapt_keeps ‹_› | split | assumption)

theorem execPattDelete_kept {K : Keep} {s : State} (q : Req) (h : Kept K s) : ∃ u, execPattDelete q s = .next u ∧ Kept K u := by
  refine ⟨_, rfl, ?_⟩; repeat' (first
      | with_reducible (first
          | assumption | rfl | refine kept_ite ?_ ?_)
      | refine kept_foldl (fun _ _ _ => ?_) _ ?_ | dsimp only | exact runOp_kept opPattDelete_keeps ‹_› | split | assumption)

theorem execPattPlay_kept {K : Keep} {s : State} (q : Req) (h : Kept K s) : ∃ u, execPattPlay q s = .next u ∧ Kept K u := by
  refine ⟨_, rfl, ?_⟩; repeat' (first
      | with_reducible (first
          | assumption | rfl | refine kept_ite ?_ ?_)
      | refine kept_foldl (fun _ _ _ => ?_) _ ?_ | dsimp only | exact runOp_kept opPattPlay_keeps ‹_› | split | assumption)

theorem execPattStop_kept {K : Keep} {s : State} (q : Req) (h : Kept K s) : ∃ u, execPattStop q s = .next u ∧ Kept K u := by
  refine ⟨_, rfl, ?_⟩; repeat' (first
      | with_reducible (first
          | assumption | rfl | refine kept_ite ?_ ?_)
      | refine kept_foldl (fun _ _ _ => ?_) _ ?_ | dsimp only | exact runOp_kept opPattStop_keeps ‹_› | split | assumption)

theorem execPattInfo_kept {K : Keep} {s : State} (q : Req) (h : Kept K s) : ∃ u, execPattInfo q s = .next u ∧ Kept K u := by
  refine ⟨_, rfl, ?_⟩; repeat' (first
      | with_reducible (first
          | assumption | rfl | refine kept_ite ?_ ?_)
      | refine kept_foldl (fun _ _ _ => ?_) _ ?_ | dsimp only | exact runOp_kept opPattInfo_keeps ‹_› | split | assumption)

theorem execRingOpen_kept {K : Keep} {s : State} (q : Req) (h : Kept K s) : ∃ u, execRingOpen q s = .next u ∧ Kept K u := by
  refine ⟨_, rfl, ?_⟩; repeat' (first
      | with_reducible (first
          | assumption | rfl | refine kept_ite ?_ ?_)
      | refine kept_foldl (fun _ _ _ => ?_) _ ?_ | dsimp only | exact runOp_kept opRingOpen_keeps ‹_› | split | assumption)

theorem execRingClose_kept {K : Keep} {s : State} (q : Req) (h : Kept K s) : ∃ u, execRingClose q s = .next u ∧ Kept K u := by
  refine ⟨_, rfl, ?_⟩; repeat' (first
      | with_reducible (first
          | assumption | rfl | refine kept_ite ?_ ?_)
      | refine kept_foldl (fun _ _ _ => ?_) _ ?_ | dsimp only | exact runOp_kept opRingClose_keeps ‹_› | split | assumption)

theorem execRingEnable_kept {K : Keep} {s : State} (q : Req) (h : Kept K s) : ∃ u, execRingEnable q s = .next u ∧ Kept K u := by
  refine ⟨_, rfl, ?_⟩; repeat' (first
      | with_reducible (first
          | assumption | rfl | refine kept_ite ?_ ?_)
      | refine kept_foldl (fun _ _ _ => ?_) _ ?_ | dsimp only | exact runOp_kept opRingEnable_keeps ‹_› | split | assumption)

theorem execRingDisable_kept {K : Keep} {s : State} (q : Req) (h : Kept K s) : ∃ u, execRingDisable q s = .next u ∧ Kept K u := by
  refine ⟨_, rfl, ?_⟩; repeat' (first
      | with_reducible (first
          | assumption | rfl | refine kept_ite ?_ ?_)
      | refine kept_foldl (fun _ _ _ => ?_) _ ?_ | dsimp only | exact runOp_kept opRingDisable_keeps ‹_› | split | assumption)

theorem execRingFeed_kept {K : Keep} {s : State} (q : Req) (h : Kept K s) : ∃ u, execRingFeed q s = .next u ∧ Kept K u := by
  refine ⟨_, rfl, ?_⟩; repeat' (first
      | with_reducible (first
          | assumption | rfl | refine kept_ite ?_ ?_)
      | refine kept_foldl (fun _ _ _ => ?_) _ ?_ | dsimp only | exact runOp_kept opRingFeed_keeps ‹_› | split | assumption)

theorem execRingStatus_kept {K : Keep} {s : State} (q : Req) (h : Kept K s) : ∃ u, execRingStatus q s = .next u ∧ Kept K u := by
  refine ⟨_, rfl, ?_⟩; repeat' (first
      | with_reducible (first
          | assumption | rfl | refine kept_ite ?_ ?_)
      | refine kept_foldl (fun _ _ _ => ?_) _ ?_ | dsimp only | exact runOp_kept opRingStatus_keeps ‹_› | split | assumption)

/-! ### What `Machine/GlnCore.lean` keeps -/

theorem State.setGln_kept {K : Keep} {s : State} (x : Gln) (h : Kept K s) : Kept K (State.setGln s x) := by
  unfold State.setGln; repeat' (first | with_reducible (first | assumption | rfl | refine kept_ite ?_ ?_) | dsimp only | split | assumption)

theorem State.setUnitT_kept {K : Keep} {s : State} (cls : Nat) (idx : Nat) (u : UnitT) (h : Kept K s) : Kept K (State.setUnitT s cls idx u) := by
  unfold State.setUnitT; repeat' (first
      | with_reducible (first
          | assumption | rfl | refine kept_ite ?_ ?_ | apply State.setGln_kept)
      | dsimp only | split | assumption)

theorem State.glnRecord_kept {K : Keep} {s : State} (r : Slice) (verdict : Nat) (cause : Nat) (done : Nat) (sig : Bytes) (h : Kept K s) : Kept K (State.glnRecord s r verdict cause done sig) := by
  unfold State.glnRecord; repeat' (first
      | with_reducible (first
          | assumption | rfl | refine kept_ite ?_ ?_ | apply State.raise_kept | apply State.bump_kept | apply State.setGln_kept)
      | dsimp only | split | assumption)

theorem State.dropSlice_kept {K : Keep} {s : State} (r : Slice) (h : Kept K s) : Kept K (State.dropSlice s r) := by
  unfold State.dropSlice; repeat' (first
      | with_reducible (first
          | assumption | rfl | refine kept_ite ?_ ?_ | apply State.setGln_kept | apply State.setFld_kept)
      | dsimp only | split | assumption)

theorem State.cutSlice_kept {K : Keep} {s : State} (r : Slice) (cause : Nat) (h : Kept K s) : Kept K (State.cutSlice s r cause) := by
  unfold State.cutSlice; repeat' (first
      | with_reducible (first
          | assumption | rfl | refine kept_ite ?_ ?_ | apply State.setGln_kept | apply State.setUnitT_kept | apply State.glnRecord_kept
          | apply State.dropSlice_kept | apply State.bump_kept | apply State.drawn_kept)
      | dsimp only | split | assumption)

/-! ### What `Machine/Knl.lean` keeps -/

theorem State.setTask_kept {K : Keep} {s : State} (i : Nat) (t : Task) (h : Kept K s) : Kept K (State.setTask s i t) := by
  unfold State.setTask; repeat' (first
      | with_reducible (first
          | assumption | rfl | refine kept_ite ?_ ?_ | apply State.setKnl_kept)
      | dsimp only | split | assumption)

theorem State.dropCall_kept {K : Keep} {s : State} (i : Nat) (h : Kept K s) : Kept K (State.dropCall s i) := by
  unfold State.dropCall; repeat' (first
      | with_reducible (first
          | assumption | rfl | refine kept_ite ?_ ?_)
      | dsimp only | split | assumption)

theorem State.freeTask_kept {K : Keep} {s : State} (i : Nat) (h : Kept K s) : Kept K (State.freeTask s i) := by
  unfold State.freeTask; repeat' (first
      | with_reducible (first
          | assumption | rfl | refine kept_ite ?_ ?_ | apply State.dropCall_kept | apply State.setKnl_kept)
      | dsimp only | split | assumption)

theorem State.setCore_kept {K : Keep} {s : State} (c : Nat) (x : Core) (h : Kept K s) : Kept K (State.setCore s c x) := by
  unfold State.setCore; repeat' (first
      | with_reducible (first
          | assumption | rfl | refine kept_ite ?_ ?_ | apply State.setKnl_kept)
      | dsimp only | split | assumption)

theorem State.poolPeak_kept {K : Keep} {s : State} (p : Nat) (h : Kept K s) : Kept K (State.poolPeak s p) := by
  unfold State.poolPeak; repeat' (first
      | with_reducible (first
          | assumption | rfl | refine kept_ite ?_ ?_ | apply State.setFld_kept)
      | dsimp only | split | assumption)

theorem State.mkTask_kept {K : Keep} {s : State} (t : Task) (h : Kept K s) : Kept K (State.mkTask s t).1 := by
  unfold State.mkTask; repeat' (first
      | with_reducible (first
          | assumption | rfl | refine kept_ite ?_ ?_ | apply State.setKnl_kept | apply State.bump_kept | apply State.poolPeak_kept)
      | dsimp only | split | assumption)

theorem State.mkTask_kept_of {K : Keep} {s vv : State} {t : Task} {y : Nat} (e : State.mkTask s t = (vv, y)) (h : Kept K s) : Kept K vv := by
  have h1 := State.mkTask_kept t h
  rw [e] at h1; exact h1

theorem State.histCount_kept {K : Keep} {s : State} (t : Task) (h : Kept K s) : Kept K (State.histCount s t) := by
  unfold State.histCount; repeat' (first
      | with_reducible (first
          | assumption | rfl | refine kept_ite ?_ ?_ | apply State.setReg_kept)
      | dsimp only | split | assumption)

theorem State.dispatch_kept {K : Keep} {s : State} (c : Nat) (i : Nat) (t : Task) (h : Kept K s) : Kept K (State.dispatch s c i t) := by
  unfold State.dispatch; repeat' (first
      | with_reducible (first
          | assumption | rfl | refine kept_ite ?_ ?_ | apply State.held_kept | apply State.setTask_kept | apply State.setCore_kept
          | apply State.histCount_kept | apply State.bump_kept)
      | dsimp only | split | assumption)

theorem State.coreTake_kept {K : Keep} {s : State} (c : Nat) (h : Kept K s) : Kept K (State.coreTake s c) := by
  unfold State.coreTake; repeat' (first
      | with_reducible (first
          | assumption | rfl | refine kept_ite ?_ ?_ | apply State.dispatch_kept)
      | dsimp only | split | assumption)

theorem State.stopRun_kept {K : Keep} {s : State} (c : Nat) (h : Kept K s) : Kept K (State.stopRun s c) := by
  unfold State.stopRun; repeat' (first
      | with_reducible (first
          | assumption | rfl | refine kept_ite ?_ ?_ | apply State.setCore_kept | apply State.setKnl_kept)
      | dsimp only | split | assumption)

theorem State.giveFrame_kept {K : Keep} {s : State} (i : Nat) (h : Kept K s) : Kept K (State.giveFrame s i) := by
  unfold State.giveFrame; repeat' (first
      | with_reducible (first
          | assumption | rfl | refine kept_ite ?_ ?_ | apply State.stopRun_kept | apply State.setCore_kept)
      | dsimp only | split | assumption)

theorem State.abortCoreSlice_kept_of {K : Keep} {s u : State} {t : Task} {c : Nat} (e : s.abortCoreSlice t = some (u, c)) (h : Kept K s) :
    Kept K u := by
  simp only [State.abortCoreSlice, Option.map_eq_some_iff] at e
  obtain ⟨r, -, e⟩ := e
  cases e
  have h2 := State.setCore_kept r.idx { (s.cutSlice r 1).core r.idx with slice := false } (State.cutSlice_kept r 1 h)
  split
  · exact h2
  · exact State.raise_kept _ _ (State.bump_kept _ h2)

theorem State.enterReady_kept {K : Keep} {s : State} (i : Nat) (h : Kept K s) : Kept K (State.enterReady s i) := by
  unfold State.enterReady; repeat' (first
      | with_reducible (first
          | assumption | rfl | refine kept_ite ?_ ?_ | apply State.setTask_kept | apply State.setKnl_kept)
      | dsimp only | split | assumption)

theorem State.preempt_kept {K : Keep} {s : State} (c : Nat) (i : Nat) (t : Task) (h : Kept K s) : Kept K (State.preempt s c i t) := by
  unfold State.preempt; repeat' (first
      | with_reducible (first
          | assumption | rfl | refine kept_ite ?_ ?_ | apply State.setTask_kept | apply State.dispatch_kept | apply State.stopRun_kept
          | apply State.setKnl_kept | apply State.bump_kept)
      | dsimp only | split | assumption)

theorem State.placeTask_kept {K : Keep} {s : State} (i : Nat) (h : Kept K s) : Kept K (State.placeTask s i) := by
  unfold State.placeTask; repeat' (first
      | with_reducible (first
          | assumption | rfl | refine kept_ite ?_ ?_ | apply State.dispatch_kept | apply State.preempt_kept)
      | dsimp only | split | refine State.abortCoreSlice_kept_of ‹_› ?_ | assumption)

theorem State.makeReady_kept {K : Keep} {s : State} (i : Nat) (h : Kept K s) : Kept K (State.makeReady s i) := by
  unfold State.makeReady; repeat' (first
      | with_reducible (first
          | assumption | rfl | refine kept_ite ?_ ?_ | apply State.enterReady_kept | apply State.placeTask_kept | apply State.setTask_kept
          | apply State.setKnl_kept | apply State.coreTake_kept | apply State.dispatch_kept | apply State.stopRun_kept | apply State.bump_kept)
      | dsimp only | split | refine State.abortCoreSlice_kept_of ‹_› ?_ | assumption)

theorem State.readyAll_kept {K : Keep} {s : State} (p : Task → Bool) (h : Kept K s) : Kept K (State.readyAll s p) := by
  unfold State.readyAll; repeat' (first
      | with_reducible (first
          | assumption | rfl | refine kept_ite ?_ ?_ | apply State.enterReady_kept | apply State.placeTask_kept | apply State.makeReady_kept)
      | refine kept_foldl (fun _ _ _ => ?_) _ ?_ | dsimp only | split | assumption)

theorem State.wakeCores_kept {K : Keep} {s : State} (h : Kept K s) : Kept K (State.wakeCores s) := by
  unfold State.wakeCores; repeat' (first
      | with_reducible (first
          | assumption | rfl | refine kept_ite ?_ ?_ | apply State.coreTake_kept)
      | refine kept_foldl (fun _ _ _ => ?_) _ ?_ | dsimp only | split | assumption)

theorem State.blockRun_kept {K : Keep} {s : State} (c : Nat) (wait : Nat) (on : Nat) (h : Kept K s) : Kept K (State.blockRun s c wait on) := by
  unfold State.blockRun; repeat' (first
      | with_reducible (first
          | assumption | rfl | refine kept_ite ?_ ?_ | apply State.setTask_kept | apply State.stopRun_kept | apply State.coreTake_kept
          | apply State.bump_kept)
      | dsimp only | split | assumption)

theorem State.unblock_kept {K : Keep} {s : State} (wait : Nat) (on : Nat) (h : Kept K s) : Kept K (State.unblock s wait on) := by
  unfold State.unblock; repeat' (first
      | with_reducible (first
          | assumption | rfl | refine kept_ite ?_ ?_ | apply State.makeReady_kept | apply State.setTask_kept)
      | refine kept_foldl (fun _ _ _ => ?_) _ ?_ | dsimp only | split | assumption)

theorem State.cancelTask_kept {K : Keep} {s : State} (i : Nat) (h : Kept K s) : Kept K (State.cancelTask s i) := by
  unfold State.cancelTask; repeat' (first
      | with_reducible (first
          | assumption | rfl | refine kept_ite ?_ ?_ | apply State.setTask_kept | apply State.dropCall_kept | apply State.giveFrame_kept
          | apply State.setLeg_kept | apply State.unpinArea_kept)
      | dsimp only | split | assumption)

theorem State.bpCheck_kept {K : Keep} {s : State} (p : Nat) (n : Nat) (h : Kept K s) : Kept K (State.bpCheck s p n) := by
  unfold State.bpCheck; repeat' (first
      | with_reducible (first
          | assumption | rfl | refine kept_ite ?_ ?_ | apply State.raise_kept | apply State.bump_kept | apply State.setKnl_kept)
      | dsimp only | split | assumption)

theorem State.bpRelease_kept {K : Keep} {s : State} (h : Kept K s) : Kept K (State.bpRelease s) := by
  unfold State.bpRelease; repeat' (first
      | with_reducible (first
          | assumption | rfl | refine kept_ite ?_ ?_ | apply State.setKnl_kept)
      | dsimp only | split | assumption)

theorem State.mkIngress_kept {K : Keep} {s : State} (kind : Nat) (p : Nat) (n : Nat) (data : Bytes) (h : Kept K s) : Kept K (State.mkIngress s kind p n data).1 := by
  unfold State.mkIngress; repeat' (first
      | with_reducible (first
          | assumption | rfl | refine kept_ite ?_ ?_ | apply State.raise_kept | apply State.bump_kept | apply State.mkTask_kept
          | apply State.makeReady_kept | apply State.bpCheck_kept)
      | dsimp only | split | refine State.mkTask_kept_of ‹_› ?_ | assumption)

theorem State.mkIngress_kept_of {K : Keep} {s vv : State} {kind : Nat} {p : Nat} {n : Nat} {data : Bytes} {y : Option Nat} (e : State.mkIngress s kind p n data = (vv, y)) (h : Kept K s) : Kept K vv := by
  have h1 := State.mkIngress_kept kind p n data h
  rw [e] at h1; exact h1

theorem State.sysNew_kept {K : Keep} {s : State} (m : SysMake) (h : Kept K s) : Kept K (State.sysNew s m) := by
  unfold State.sysNew; repeat' (first
      | with_reducible (first
          | assumption | rfl | refine kept_ite ?_ ?_ | apply State.mkTask_kept | apply State.makeReady_kept)
      | dsimp only | split | refine State.mkTask_kept_of ‹_› ?_ | assumption)

theorem State.makeSys_kept {K : Keep} {s : State} (m : SysMake) (h : Kept K s) : Kept K (State.makeSys s m) := by
  unfold State.makeSys; repeat' (first
      | with_reducible (first
          | assumption | rfl | refine kept_ite ?_ ?_ | apply State.sysNew_kept | apply State.setKnl_kept | apply State.bump_kept
          | apply State.raise_kept)
      | dsimp only | split | assumption)

theorem State.sysFreed_kept {K : Keep} {s : State} (h : Kept K s) : Kept K (State.sysFreed s) := by
  unfold State.sysFreed; repeat' (first
      | with_reducible (first
          | assumption | rfl | refine kept_ite ?_ ?_ | apply State.take_kept | apply State.sysNew_kept | apply State.setKnl_kept)
      | refine kept_foldl (fun _ _ _ => ?_) _ ?_ | dsimp only | split | assumption)

theorem State.histClear_kept {K : Keep} {s : State} (h : Kept K s) : Kept K (State.histClear s) := by
  unfold State.histClear; repeat' (first
      | with_reducible (first
          | assumption | rfl | refine kept_ite ?_ ?_ | apply State.setReg_kept)
      | refine kept_foldl (fun _ _ _ => ?_) _ ?_ | dsimp only | split | assumption)

theorem knlEffect_kept {K : Keep} {s : State} (a : Nat) (old : Nat) (v : Nat) (h : Kept K s) : Kept K (knlEffect s a old v) := by
  unfold knlEffect; repeat' (first
      | with_reducible (first
          | assumption | rfl | refine kept_ite ?_ ?_ | apply State.wakeCores_kept | apply State.histClear_kept | apply State.setKnl_kept
          | apply State.setFld_kept)
      | dsimp only | split | assumption)

end Sys2Proof.Machine
end

