-- ==== Sys2Proof/Laws/KeptNetwork.lean ====
section
/-! SUPPORT. Tandem, packets, media, faults and memory: what each operation and each command keeps (`Kept`). -/

set_option linter.unreachableTactic false
set_option linter.unusedTactic false

namespace Sys2Proof.Machine

open Sys2Proof

/-! ### What `Machine/Tnd.lean` keeps -/

theorem State.setTnd_kept {K : Keep} {s : State} (x : Tnd) (h : Kept K s) : Kept K (State.setTnd s x) := by
  unfold State.setTnd; repeat' (first | with_reducible (first | assumption | rfl | refine kept_ite ?_ ?_) | dsimp only | split | assumption)

theorem State.setTlink_kept {K : Keep} {s : State} (p : Nat) (x : TLink) (h : Kept K s) : Kept K (State.setTlink s p x) := by
  unfold State.setTlink; repeat' (first
      | with_reducible (first
          | assumption | rfl | refine kept_ite ?_ ?_ | apply State.setTnd_kept)
      | dsimp only | split | assumption)

theorem State.linkTo_kept {K : Keep} {s : State} (p : Nat) (st : Nat) (h : Kept K s) : Kept K (State.linkTo s p st) := by
  unfold State.linkTo; repeat' (first
      | with_reducible (first
          | assumption | rfl | refine kept_ite ?_ ?_ | apply State.raise_kept | apply State.setTlink_kept)
      | dsimp only | split | assumption)

theorem State.reblock_kept {K : Keep} {s : State} (h : Kept K s) : Kept K (State.reblock s) := by
  unfold State.reblock; repeat' (first
      | with_reducible (first
          | assumption | rfl | refine kept_ite ?_ ?_ | apply State.linkTo_kept)
      | refine kept_foldl (fun _ _ _ => ?_) _ ?_ | dsimp only | split | assumption)

theorem State.tndSend_kept {K : Keep} {s : State} (p : Nat) (b : Bytes) (o : TxOrigin) (h : Kept K s) : Kept K (State.tndSend s p b o) := by
  unfold State.tndSend; repeat' (first
      | with_reducible (first
          | assumption | rfl | refine kept_ite ?_ ?_ | apply State.txRequest_kept)
      | dsimp only | split | refine State.txRequest_kept_of ‹_› ?_ | assumption)

theorem State.helloAll_kept {K : Keep} {s : State} (h : Kept K s) : Kept K (State.helloAll s) := by
  unfold State.helloAll; repeat' (first
      | with_reducible (first
          | assumption | rfl | refine kept_ite ?_ ?_ | apply State.tndSend_kept)
      | refine kept_foldl (fun _ _ _ => ?_) _ ?_ | dsimp only | split | assumption)

theorem State.sendRingFail_kept {K : Keep} {s : State} (p : Nat) (port : Nat) (h : Kept K s) : Kept K (State.sendRingFail s p port) := by
  unfold State.sendRingFail; repeat' (first
      | with_reducible (first
          | assumption | rfl | refine kept_ite ?_ ?_ | apply State.tndSend_kept)
      | dsimp only | split | assumption)

theorem State.passRingFail_kept {K : Keep} {s : State} (p : Nat) (b : Bytes) (h : Kept K s) : Kept K (State.passRingFail s p b) := by
  unfold State.passRingFail; repeat' (first
      | with_reducible (first
          | assumption | rfl | refine kept_ite ?_ ?_ | apply State.tndSend_kept)
      | dsimp only | split | assumption)

theorem State.linkDown_kept {K : Keep} {s : State} (p : Nat) (h : Kept K s) : Kept K (State.linkDown s p) := by
  unfold State.linkDown; repeat' (first
      | with_reducible (first
          | assumption | rfl | refine kept_ite ?_ ?_ | apply State.linkTo_kept | apply State.sendRingFail_kept
          | apply State.setTlink_kept)
      | dsimp only | split | assumption)

theorem State.linkBack_kept {K : Keep} {s : State} (p : Nat) (h : Kept K s) : Kept K (State.linkBack s p) := by
  unfold State.linkBack; repeat' (first
      | with_reducible (first
          | assumption | rfl | refine kept_ite ?_ ?_ | apply State.setTlink_kept | apply State.reblock_kept | apply State.setFld_kept)
      | dsimp only | split | assumption)

theorem State.tndLinks_kept {K : Keep} {s : State} (h : Kept K s) : Kept K (State.tndLinks s) := by
  unfold State.tndLinks; repeat' (first
      | with_reducible (first
          | assumption | rfl | refine kept_ite ?_ ?_ | apply State.setTlink_kept | apply State.linkDown_kept | apply State.linkTo_kept
          | apply State.linkBack_kept)
      | refine kept_foldl (fun _ _ _ => ?_) _ ?_ | dsimp only | split | assumption)

theorem State.failOver_kept {K : Keep} {s : State} (p : Nat) (hops : Nat) (h : Kept K s) : Kept K (State.failOver s p hops) := by
  unfold State.failOver; repeat' (first
      | with_reducible (first
          | assumption | rfl | refine kept_ite ?_ ?_ | apply State.setFld_kept | apply State.setTnd_kept | apply State.raise_kept
          | apply State.bump_kept | apply State.reblock_kept)
      | dsimp only | split | assumption)

theorem State.ringFailRx_kept {K : Keep} {s : State} (p : Nat) (b : Bytes) (h : Kept K s) : Kept K (State.ringFailRx s p b) := by
  unfold State.ringFailRx; repeat' (first
      | with_reducible (first
          | assumption | rfl | refine kept_ite ?_ ?_ | apply State.setTnd_kept | apply State.failOver_kept
          | apply State.passRingFail_kept)
      | dsimp only | split | assumption)

theorem State.helloRx_kept {K : Keep} {s : State} (p : Nat) (b : Bytes) (h : Kept K s) : Kept K (State.helloRx s p b) := by
  unfold State.helloRx; repeat' (first
      | with_reducible (first
          | assumption | rfl | refine kept_ite ?_ ?_ | apply State.setTlink_kept | apply State.linkTo_kept)
      | dsimp only | split | assumption)

theorem State.tndRx_kept {K : Keep} {s : State} (p : Nat) (n : Nat) (f : RxFrame) (h : Kept K s) : Kept K (State.tndRx s p n f) := by
  unfold State.tndRx; repeat' (first
      | with_reducible (first
          | assumption | rfl | refine kept_ite ?_ ?_ | apply State.mkIngress_kept | apply State.bump_kept | apply State.raise_kept
          | apply State.txRequest_kept | apply State.ringFailRx_kept | apply State.helloRx_kept)
      | dsimp only | split | refine State.mkIngress_kept_of ‹_› ?_ | refine State.txRequest_kept_of ‹_› ?_ | assumption)

theorem State.storeBlock_kept {K : Keep} {s : State} (dev : Nat) (q : Nat) (b : Bytes) (h : Kept K s) : Kept K (State.storeBlock s dev q b) := by
  unfold State.storeBlock; repeat' (first
      | with_reducible (first
          | assumption | rfl | refine kept_ite ?_ ?_ | apply State.setTnd_kept)
      | dsimp only | split | assumption)

theorem State.unpack_kept {K : Keep} {s : State} (b : Bytes) (h : Kept K s) : Kept K (State.unpack s b) := by
  unfold State.unpack; repeat' (first
      | with_reducible (first
          | assumption | rfl | refine kept_ite ?_ ?_ | apply State.storeBlock_kept)
      | refine kept_foldl (fun _ _ _ => ?_) _ ?_ | dsimp only | split | assumption)

theorem State.readRemote_kept {K : Keep} {s : State} (dev : Nat) (leg : Nat) (q : Nat) (p : Nat) (rate : Nat) (n : Nat) (b : Inst) (h : Kept K s) : Kept K (State.readRemote s dev leg q p rate n b).1 := by
  unfold State.readRemote; repeat' (first
      | with_reducible (first
          | assumption | rfl | refine kept_ite ?_ ?_ | apply State.bump_kept | apply State.setTnd_kept)
      | dsimp only | split | assumption)

theorem State.readRemote_kept_of {K : Keep} {s vv : State} {dev : Nat} {leg : Nat} {q : Nat} {p : Nat} {rate : Nat} {n : Nat} {b : Inst} {y : RBlk} (e : State.readRemote s dev leg q p rate n b = (vv, y)) (h : Kept K s) : Kept K vv := by
  have h1 := State.readRemote_kept dev leg q p rate n b h
  rw [e] at h1; exact h1

theorem State.readRemotes_kept {K : Keep} {s : State} (l : Nat) (b : Inst) (h : Kept K s) : Kept K (s.readRemotes l b).1 := by
  have main : ∀ (rs : List (Nat × Nat × Nat × Nat × Nat)) (acc : State × KV (Option RBlk)), Kept K acc.1 →
      Kept K (rs.foldl (fun (acc : State × KV (Option RBlk)) r =>
        let (dev, src, q, p, x) := r
        let (s1, k) := acc.1.readRemote dev src q p (x / 65536) (x % 65536) b
        (s1, kset acc.2 (srcKey dev src) (some k))) acc).1 := by
    intro rs
    induction rs with
    | nil => exact fun _ h => h
    | cons r rs ih => exact fun acc h => ih _ (State.readRemote_kept _ _ _ _ _ _ _ h)
  exact main _ _ h

theorem State.readRemotes_kept_of {K : Keep} {s u : State} {l : Nat} {b : Inst} {y : KV (Option RBlk)} (e : s.readRemotes l b = (u, y))
    (h : Kept K s) : Kept K u := by
  have h1 := State.readRemotes_kept l b h
  rw [e] at h1; exact h1

theorem State.sendParcel_kept {K : Keep} {s : State} (dev : Nat) (blocks : List Bytes) (h : Kept K s) : Kept K (State.sendParcel s dev blocks) := by
  unfold State.sendParcel; repeat' (first
      | with_reducible (first
          | assumption | rfl | refine kept_ite ?_ ?_ | apply State.tndSend_kept)
      | refine kept_foldl (fun _ _ _ => ?_) _ ?_ | dsimp only | split | assumption)

theorem State.sendParcels_kept {K : Keep} {s : State} (h : Kept K s) : Kept K (State.sendParcels s) := by
  unfold State.sendParcels; repeat' (first
      | with_reducible (first
          | assumption | rfl | refine kept_ite ?_ ?_ | apply State.sendParcel_kept)
      | refine kept_foldl (fun _ _ _ => ?_) _ ?_ | dsimp only | split | assumption)

theorem State.parcelsLate_kept {K : Keep} {s : State} (h : Kept K s) : Kept K (State.parcelsLate s) := by
  unfold State.parcelsLate; repeat' (first
      | with_reducible (first
          | assumption | rfl | refine kept_ite ?_ ?_ | apply State.raise_kept | apply State.bumpBy_kept)
      | dsimp only | split | assumption)

theorem State.takePieces_kept {K : Keep} {s : State} (h : Kept K s) : Kept K (State.takePieces s) := by
  unfold State.takePieces; repeat' (first
      | with_reducible (first
          | assumption | rfl | refine kept_ite ?_ ?_ | apply State.setTnd_kept)
      | dsimp only | split | assumption)

theorem State.moveSlots_kept {K : Keep} {s : State} (l : Nat) (ps : List PlyPkt) (h : Kept K s) : Kept K (State.moveSlots s l ps) := by
  unfold State.moveSlots; repeat' (first
      | with_reducible (first
          | assumption | rfl | refine kept_ite ?_ ?_ | apply State.poolDrop_kept | apply State.putSlot_kept)
      | refine kept_foldl (fun _ _ _ => ?_) _ ?_ | dsimp only | split | assumption)

theorem State.moveIn_kept {K : Keep} {s : State} (i : MigIn) (h : Kept K s) : Kept K (State.moveIn s i) := by
  unfold State.moveIn; repeat' (first
      | with_reducible (first
          | assumption | rfl | refine kept_ite ?_ ?_ | apply State.setLeg_kept | apply State.createLeg_kept | apply State.bump_kept
          | apply State.raise_kept | apply State.resumeSrtp_kept | apply State.setTnd_kept | apply State.moveSlots_kept)
      | dsimp only | split | assumption)

theorem State.migrateEnd_kept {K : Keep} {s : State} (i : MigIn) (h : Kept K s) : Kept K (State.migrateEnd s i) := by
  unfold State.migrateEnd; repeat' (first
      | with_reducible (first
          | assumption | rfl | refine kept_ite ?_ ?_ | apply State.setTnd_kept | apply State.moveIn_kept | apply State.setLeg_kept
          | apply State.createLeg_kept | apply State.bump_kept | apply State.raise_kept | apply State.resumeSrtp_kept)
      | dsimp only | split | assumption)

theorem State.migrateIns_kept {K : Keep} {s : State} (h : Kept K s) : Kept K (State.migrateIns s) := by
  unfold State.migrateIns; repeat' (first
      | with_reducible (first
          | assumption | rfl | refine kept_ite ?_ ?_ | apply State.migrateEnd_kept)
      | refine kept_foldl (fun _ _ _ => ?_) _ ?_ | dsimp only | split | assumption)

theorem State.tndLegs_kept {K : Keep} {s : State} (b : Inst) (h : Kept K s) : Kept K (State.tndLegs s b) := by
  unfold State.tndLegs; repeat' (first
      | with_reducible (first
          | assumption | rfl | refine kept_ite ?_ ?_ | apply State.setLeg_kept | apply State.stopLeg_kept | apply State.legOff_kept
          | apply State.setTnd_kept)
      | refine kept_foldl (fun _ _ _ => ?_) _ ?_ | dsimp only | split | assumption)

theorem State.applyTnd_kept {K : Keep} {s : State} (a : Armed) (b : Inst) (h : Kept K s) : Kept K (State.applyTnd s a b) := by
  unfold State.applyTnd; repeat' (first
      | with_reducible (first
          | assumption | rfl | refine kept_ite ?_ ?_ | apply State.setTnd_kept)
      | dsimp only | split | assumption)

theorem State.tndNewLen_kept {K : Keep} {s : State} (h : Kept K s) : Kept K (State.tndNewLen s) := by
  unfold State.tndNewLen; repeat' (first
      | with_reducible (first
          | assumption | rfl | refine kept_ite ?_ ?_ | apply State.setFld_kept)
      | dsimp only | split | assumption)

theorem opTandRoute_keeps : opTandRoute.Keeps := by
  intro K c pl s b h
  simp only [opTandRoute, Done.ok, Done.ok]; repeat' (first
      | with_reducible (first
          | assumption | rfl | refine kept_ite ?_ ?_ | apply State.setTnd_kept)
      | refine kept_foldl (fun _ _ _ => ?_) _ ?_ | dsimp only | split | assumption)

theorem opTandRing_keeps : opTandRing.Keeps := by
  intro K c pl s b h
  simp only [opTandRing, Done.ok, Done.ok]; repeat' (first
      | with_reducible (first
          | assumption | rfl | refine kept_ite ?_ ?_ | apply State.setReg_kept | apply State.setTnd_kept | apply State.reblock_kept
          | apply State.setFld_kept)
      | refine kept_foldl (fun _ _ _ => ?_) _ ?_ | dsimp only | split | assumption)

theorem opTandExport_keeps : opTandExport.Keeps := by
  intro K c pl s b h
  simp only [opTandExport, tandOp]; repeat' (first
      | with_reducible (first
          | assumption | rfl | refine kept_ite ?_ ?_ | apply State.setTnd_kept | apply State.armCmd_kept)
      | refine kept_foldl (fun _ _ _ => ?_) _ ?_ | dsimp only | split | refine State.armCmd_kept_of ‹_› ?_ | assumption)

theorem opTandExportDel_keeps : opTandExportDel.Keeps := by
  intro K c pl s b h
  simp only [opTandExportDel, tandOp]; repeat' (first
      | with_reducible (first
          | assumption | rfl | refine kept_ite ?_ ?_ | apply State.armCmd_kept)
      | refine kept_foldl (fun _ _ _ => ?_) _ ?_ | dsimp only | split | refine State.armCmd_kept_of ‹_› ?_ | assumption)

theorem opTandImport_keeps : opTandImport.Keeps := by
  intro K c pl s b h
  simp only [opTandImport, tandOp]; repeat' (first
      | with_reducible (first
          | assumption | rfl | refine kept_ite ?_ ?_ | apply State.setTnd_kept | apply State.armCmd_kept)
      | refine kept_foldl (fun _ _ _ => ?_) _ ?_ | dsimp only | split | refine State.armCmd_kept_of ‹_› ?_ | assumption)

theorem opTandImportDel_keeps : opTandImportDel.Keeps := by
  intro K c pl s b h
  simp only [opTandImportDel, tandOp]; repeat' (first
      | with_reducible (first
          | assumption | rfl | refine kept_ite ?_ ?_ | apply State.armCmd_kept)
      | refine kept_foldl (fun _ _ _ => ?_) _ ?_ | dsimp only | split | refine State.armCmd_kept_of ‹_› ?_ | assumption)

theorem opTandConfImport_keeps : opTandConfImport.Keeps := by
  intro K c pl s b h
  simp only [opTandConfImport]; repeat' (first
      | with_reducible (first
          | assumption | rfl | refine kept_ite ?_ ?_ | apply State.armCmd_kept | apply State.setTnd_kept)
      | refine kept_foldl (fun _ _ _ => ?_) _ ?_ | dsimp only | split | refine State.armCmd_kept_of ‹_› ?_ | assumption)

theorem opTandMigrateOut_keeps : opTandMigrateOut.Keeps := by
  intro K c pl s b h
  simp only [opTandMigrateOut, tandOp]; repeat' (first
      | with_reducible (first
          | assumption | rfl | refine kept_ite ?_ ?_ | apply State.setTnd_kept | apply State.armCmd_kept)
      | refine kept_foldl (fun _ _ _ => ?_) _ ?_ | dsimp only | split | refine State.armCmd_kept_of ‹_› ?_ | assumption)

theorem opTandMigrateIn_keeps : opTandMigrateIn.Keeps := by
  intro K c pl s b h
  simp only [opTandMigrateIn]; repeat' (first
      | with_reducible (first
          | assumption | rfl | refine kept_ite ?_ ?_ | apply State.setLeg_kept | apply State.charge_kept | apply State.armCmd_kept
          | apply State.report_kept | apply State.setTnd_kept | apply State.fitChains_kept)
      | dsimp only | split | refine State.armCmd_kept_of ‹_› ?_ | assumption)

theorem opTandStatus_keeps : opTandStatus.Keeps := by
  intro K c pl s b h
  simp only [opTandStatus, OpDef.read, Done.res, Done.res]; repeat' (first
      | with_reducible (first
          | assumption | rfl | refine kept_ite ?_ ?_)
      | refine kept_foldl (fun _ _ _ => ?_) _ ?_ | dsimp only | split | assumption)

theorem execLinkDown_kept {K : Keep} {s : State} (p : Fin 8) (h : Kept K s) : ∃ u, execLinkDown p s = .next u ∧ Kept K u := by
  refine ⟨_, rfl, ?_⟩; repeat' (first
      | with_reducible (first
          | assumption | rfl | refine kept_ite ?_ ?_ | apply State.linkDown_kept | apply State.loseLink_kept | apply State.setPort_kept)
      | refine kept_foldl (fun _ _ _ => ?_) _ ?_ | dsimp only | split | assumption)

theorem execTandRoute_kept {K : Keep} {s : State} (q : Req) (h : Kept K s) : ∃ u, execTandRoute q s = .next u ∧ Kept K u := by
  refine ⟨_, rfl, ?_⟩; repeat' (first
      | with_reducible (first
          | assumption | rfl | refine kept_ite ?_ ?_)
      | refine kept_foldl (fun _ _ _ => ?_) _ ?_ | dsimp only | exact runOp_kept opTandRoute_keeps ‹_› | split | assumption)

theorem execTandRing_kept {K : Keep} {s : State} (q : Req) (h : Kept K s) : ∃ u, execTandRing q s = .next u ∧ Kept K u := by
  refine ⟨_, rfl, ?_⟩; repeat' (first
      | with_reducible (first
          | assumption | rfl | refine kept_ite ?_ ?_)
      | refine kept_foldl (fun _ _ _ => ?_) _ ?_ | dsimp only | exact runOp_kept opTandRing_keeps ‹_› | split | assumption)

theorem execTandExport_kept {K : Keep} {s : State} (q : Req) (h : Kept K s) : ∃ u, execTandExport q s = .next u ∧ Kept K u := by
  refine ⟨_, rfl, ?_⟩; repeat' (first
      | with_reducible (first
          | assumption | rfl | refine kept_ite ?_ ?_)
      | refine kept_foldl (fun _ _ _ => ?_) _ ?_ | dsimp only | exact runOp_kept opTandExport_keeps ‹_› | split | assumption)

theorem execTandExportDel_kept {K : Keep} {s : State} (q : Req) (h : Kept K s) : ∃ u, execTandExportDel q s = .next u ∧ Kept K u := by
  refine ⟨_, rfl, ?_⟩; repeat' (first
      | with_reducible (first
          | assumption | rfl | refine kept_ite ?_ ?_)
      | refine kept_foldl (fun _ _ _ => ?_) _ ?_ | dsimp only | exact runOp_kept opTandExportDel_keeps ‹_› | split | assumption)

theorem execTandImport_kept {K : Keep} {s : State} (q : Req) (h : Kept K s) : ∃ u, execTandImport q s = .next u ∧ Kept K u := by
  refine ⟨_, rfl, ?_⟩; repeat' (first
      | with_reducible (first
          | assumption | rfl | refine kept_ite ?_ ?_)
      | refine kept_foldl (fun _ _ _ => ?_) _ ?_ | dsimp only | exact runOp_kept opTandImport_keeps ‹_› | split | assumption)

theorem execTandImportDel_kept {K : Keep} {s : State} (q : Req) (h : Kept K s) : ∃ u, execTandImportDel q s = .next u ∧ Kept K u := by
  refine ⟨_, rfl, ?_⟩; repeat' (first
      | with_reducible (first
          | assumption | rfl | refine kept_ite ?_ ?_)
      | refine kept_foldl (fun _ _ _ => ?_) _ ?_ | dsimp only | exact runOp_kept opTandImportDel_keeps ‹_› | split | assumption)

theorem execTandConfImport_kept {K : Keep} {s : State} (q : Req) (h : Kept K s) : ∃ u, execTandConfImport q s = .next u ∧ Kept K u := by
  refine ⟨_, rfl, ?_⟩; repeat' (first
      | with_reducible (first
          | assumption | rfl | refine kept_ite ?_ ?_)
      | refine kept_foldl (fun _ _ _ => ?_) _ ?_ | dsimp only | exact runOp_kept opTandConfImport_keeps ‹_› | split | assumption)

theorem execTandMigrateOut_kept {K : Keep} {s : State} (q : Req) (h : Kept K s) : ∃ u, execTandMigrateOut q s = .next u ∧ Kept K u := by
  refine ⟨_, rfl, ?_⟩; repeat' (first
      | with_reducible (first
          | assumption | rfl | refine kept_ite ?_ ?_)
      | refine kept_foldl (fun _ _ _ => ?_) _ ?_ | dsimp only | exact runOp_kept opTandMigrateOut_keeps ‹_› | split | assumption)

theorem execTandMigrateIn_kept {K : Keep} {s : State} (q : Req) (h : Kept K s) : ∃ u, execTandMigrateIn q s = .next u ∧ Kept K u := by
  refine ⟨_, rfl, ?_⟩; repeat' (first
      | with_reducible (first
          | assumption | rfl | refine kept_ite ?_ ?_)
      | refine kept_foldl (fun _ _ _ => ?_) _ ?_ | dsimp only | exact runOp_kept opTandMigrateIn_keeps ‹_› | split | assumption)

theorem execTandStatus_kept {K : Keep} {s : State} (q : Req) (h : Kept K s) : ∃ u, execTandStatus q s = .next u ∧ Kept K u := by
  refine ⟨_, rfl, ?_⟩; repeat' (first
      | with_reducible (first
          | assumption | rfl | refine kept_ite ?_ ?_)
      | refine kept_foldl (fun _ _ _ => ?_) _ ?_ | dsimp only | exact runOp_kept opTandStatus_keeps ‹_› | split | assumption)

/-! ### What `Machine/Pke.lean` keeps -/

theorem State.telFile_kept {K : Keep} {s : State} (l : Nat) (ssrc : Nat) (ts : Nat) (b : Bytes) (h : Kept K s) : Kept K (State.telFile s l ssrc ts b) := by
  unfold State.telFile; repeat' (first
      | with_reducible (first
          | assumption | rfl | refine kept_ite ?_ ?_ | apply State.setLeg_kept | apply State.legCnt_kept)
      | refine kept_foldl (fun _ _ _ => ?_) _ ?_ | dsimp only | split | assumption)

theorem State.setFlow_kept {K : Keep} {s : State} (i : Nat) (f : FlowEnt) (h : Kept K s) : Kept K (State.setFlow s i f) := by
  unfold State.setFlow; repeat' (first
      | with_reducible (first
          | assumption | rfl | refine kept_ite ?_ ?_ | apply State.setPke_kept)
      | dsimp only | split | assumption)

theorem State.heardFrom_kept {K : Keep} {s : State} (i : Nat) (f : FlowEnt) (k : Pkt) (h : Kept K s) : Kept K (State.heardFrom s i f k) := by
  unfold State.heardFrom; repeat' (first
      | with_reducible (first
          | assumption | rfl | refine kept_ite ?_ ?_ | apply State.setFlow_kept)
      | dsimp only | split | assumption)

theorem State.latch_kept {K : Keep} {s : State} (i : Nat) (f : FlowEnt) (k : Pkt) (h : Kept K s) : Kept K (State.latch s i f k) := by
  unfold State.latch; repeat' (first
      | with_reducible (first
          | assumption | rfl | refine kept_ite ?_ ?_ | apply State.setFlow_kept)
      | dsimp only | split | assumption)

theorem State.rtpUpdate_kept {K : Keep} {s : State} (l : Nat) (i : Nat) (f : FlowEnt) (k : Pkt) (r : RtpIn) (h : Kept K s) : Kept K (State.rtpUpdate s l i f k r) := by
  unfold State.rtpUpdate; repeat' (first
      | with_reducible (first
          | assumption | rfl | refine kept_ite ?_ ?_ | apply State.setLeg_kept | apply State.latch_kept | apply State.plyFlush_kept
          | apply State.recordSrtp_kept | apply State.setFlow_kept)
      | dsimp only | split | assumption)

theorem State.rtpRx_kept {K : Keep} {s0 : State} (i : Nat) (f0 : FlowEnt) (k : Pkt) (stamp : Inst) (h : Kept K s0) : Kept K (State.rtpRx s0 i f0 k stamp) := by
  unfold State.rtpRx; repeat' (first
      | with_reducible (first
          | assumption | rfl | refine kept_ite ?_ ?_ | apply State.heardFrom_kept | apply State.legCnt_kept | apply State.raise_kept
          | apply State.rtpUpdate_kept | apply State.telFile_kept | apply State.plyFile_kept)
      | dsimp only | split | assumption)

theorem State.rtcpStore_kept {K : Keep} {s : State} (l : Nat) (stamp : Inst) (parts : List Bytes) (h : Kept K s) : Kept K (State.rtcpStore s l stamp parts) := by
  unfold State.rtcpStore; repeat' (first
      | with_reducible (first
          | assumption | rfl | refine kept_ite ?_ ?_ | apply State.setLeg_kept | apply State.raise_kept)
      | dsimp only | split | assumption)

theorem State.rtcpRx_kept {K : Keep} {s : State} (p : Nat) (n : Nat) (i : Nat) (f : FlowEnt) (pk : Pkt) (stamp : Inst) (h : Kept K s) : Kept K (State.rtcpRx s p n i f pk stamp) := by
  unfold State.rtcpRx; repeat' (first
      | with_reducible (first
          | assumption | rfl | refine kept_ite ?_ ?_ | apply State.mkIngress_kept | apply State.setLeg_kept | apply State.raise_kept
          | apply State.latch_kept | apply State.rtcpStore_kept | apply State.legCnt_kept | apply State.recordSrtp_kept)
      | dsimp only | split | refine State.mkIngress_kept_of ‹_› ?_ | assumption)

theorem State.slowPath_kept {K : Keep} {s : State} (p : Nat) (b : Bytes) (h : Kept K s) : Kept K (State.slowPath s p b) := by
  unfold State.slowPath; repeat' (first
      | with_reducible (first
          | assumption | rfl | refine kept_ite ?_ ?_ | apply State.bump_kept | apply State.setPke_kept | apply State.raise_kept)
      | dsimp only | split | assumption)

theorem State.ptpRx_kept {K : Keep} {s : State} (p : Nat) (n : Nat) (f : RxFrame) (h : Kept K s) : Kept K (State.ptpRx s p n f) := by
  unfold State.ptpRx; repeat' (first
      | with_reducible (first
          | assumption | rfl | refine kept_ite ?_ ?_ | apply State.txRequest_kept | apply State.bump_kept | apply State.setPke_kept)
      | refine kept_foldl (fun _ _ _ => ?_) _ ?_ | dsimp only | split | refine State.txRequest_kept_of ‹_› ?_ | assumption)

theorem State.pkeOther_kept {K : Keep} {s : State} (p : Nat) (n : Nat) (f : RxFrame) (ip : Bool) (h : Kept K s) : Kept K (State.pkeOther s p n f ip) := by
  unfold State.pkeOther; repeat' (first
      | with_reducible (first
          | assumption | rfl | refine kept_ite ?_ ?_ | apply State.bump_kept | apply State.txRequest_kept | apply State.slowPath_kept
          | apply State.ptpRx_kept)
      | dsimp only | split | refine State.txRequest_kept_of ‹_› ?_ | assumption)

theorem State.pkeTake_kept {K : Keep} {s0 : State} (p : Nat) (n : Nat) (f : RxFrame) (h : Kept K s0) : Kept K (State.pkeTake s0 p n f) := by
  unfold State.pkeTake; repeat' (first
      | with_reducible (first
          | assumption | rfl | refine kept_ite ?_ ?_ | apply State.bump_kept | apply State.heardFrom_kept | apply State.rtpRx_kept
          | apply State.rtcpRx_kept | apply State.slowPath_kept | apply State.pkeOther_kept | apply State.legCnt_kept | apply State.tndRx_kept)
      | dsimp only | split | assumption)

theorem State.ptpOffset_kept {K : Keep} {s : State} (p : Nat) (raw : Int) (mpd : Nat) (wt : Nat) (h : Kept K s) : Kept K (State.ptpOffset s p raw mpd wt) := by
  unfold State.ptpOffset; repeat' (first
      | with_reducible (first
          | assumption | rfl | refine kept_ite ?_ ?_ | apply State.ofsPush_kept | apply State.ofsWrite_kept)
      | dsimp only | split | assumption)

theorem State.ptpFound_kept {K : Keep} {s : State} (p : Nat) (b : Bytes) (r : PtpFind) (h : Kept K s) : Kept K (State.ptpFound s p b r) := by
  unfold State.ptpFound; repeat' (first
      | with_reducible (first
          | assumption | rfl | refine kept_ite ?_ ?_ | apply State.setReg_kept | apply State.setFld_kept | apply State.ptpOffset_kept)
      | dsimp only | split | assumption)

theorem State.udpFrame_kept {K : Keep} {s : State} (l : Nat) (pay : Bytes) (h : Kept K s) : Kept K (State.udpFrame s l pay).1 := by
  unfold State.udpFrame; repeat' (first
      | with_reducible (first
          | assumption | rfl | refine kept_ite ?_ ?_ | apply State.setLeg_kept)
      | dsimp only | split | assumption)

theorem State.udpFrame_kept_of {K : Keep} {s vv : State} {l : Nat} {pay : Bytes} {y : Option (Nat × Bytes)} (e : State.udpFrame s l pay = (vv, y)) (h : Kept K s) : Kept K vv := by
  have h1 := State.udpFrame_kept l pay h
  rw [e] at h1; exact h1

theorem State.legSend_kept {K : Keep} {s : State} (l : Nat) (pay : Bytes) (h : Kept K s) : Kept K (State.legSend s l pay) := by
  unfold State.legSend; repeat' (first
      | with_reducible (first
          | assumption | rfl | refine kept_ite ?_ ?_ | apply State.udpFrame_kept | apply State.txRequest_kept)
      | dsimp only | split | refine State.udpFrame_kept_of ‹_› ?_ | refine State.txRequest_kept_of ‹_› ?_ | assumption)

theorem State.rtpOut_kept {K : Keep} {s : State} (l : Nat) (b : Bytes) (hdr : Nat) (seq : Nat) (ssrc : Nat) (h : Kept K s) : Kept K (State.rtpOut s l b hdr seq ssrc) := by
  unfold State.rtpOut; repeat' (first
      | with_reducible (first
          | assumption | rfl | refine kept_ite ?_ ?_ | apply State.legSend_kept | apply State.setLeg_kept | apply State.raise_kept
          | apply State.legCnt_kept | apply State.recordSrtp_kept)
      | dsimp only | split | assumption)

theorem State.rtpBuild_kept {K : Keep} {s : State} (l : Nat) (pt : Nat) (marker : Bool) (ts : Nat) (pay : Bytes) (h : Kept K s) : Kept K (State.rtpBuild s l pt marker ts pay) := by
  unfold State.rtpBuild; repeat' (first
      | with_reducible (first
          | assumption | rfl | refine kept_ite ?_ ?_ | apply State.rtpOut_kept | apply State.setLeg_kept)
      | dsimp only | split | assumption)

theorem State.txStamp_kept {K : Keep} {s : State} (l : Nat) (at_ : Inst) (h : Kept K s) : Kept K (State.txStamp s l at_).1 := by
  unfold State.txStamp; repeat' (first
      | with_reducible (first
          | assumption | rfl | refine kept_ite ?_ ?_ | apply State.legCnt_kept | apply State.setLeg_kept)
      | dsimp only | split | assumption)

theorem State.txStamp_kept_of {K : Keep} {s vv : State} {l : Nat} {at_ : Inst} {y : Nat × Bool} (e : State.txStamp s l at_ = (vv, y)) (h : Kept K s) : Kept K vv := by
  have h1 := State.txStamp_kept l at_ h
  rw [e] at h1; exact h1

theorem State.voiceOut_kept {K : Keep} {s : State} (l : Nat) (pt : Nat) (at_ : Inst) (cnt : Nat) (pay : Bytes) (h : Kept K s) : Kept K (State.voiceOut s l pt at_ cnt pay) := by
  unfold State.voiceOut; repeat' (first
      | with_reducible (first
          | assumption | rfl | refine kept_ite ?_ ?_ | apply State.txStamp_kept | apply State.legCnt_kept | apply State.rtpBuild_kept
          | apply State.setLeg_kept)
      | dsimp only | split | refine State.txStamp_kept_of ‹_› ?_ | assumption)

theorem State.eventOut_kept {K : Keep} {s : State} (l : Nat) (marker : Bool) (fin : Bool) (code : Nat) (vol : Nat) (ts : Nat) (dur : Nat) (h : Kept K s) : Kept K (State.eventOut s l marker fin code vol ts dur) := by
  unfold State.eventOut; repeat' (first
      | with_reducible (first
          | assumption | rfl | refine kept_ite ?_ ?_ | apply State.legCnt_kept | apply State.rtpBuild_kept)
      | dsimp only | split | assumption)

theorem State.eventRun_kept {K : Keep} {s : State} (l : Nat) (c : Nat) (first : Bool) (h : Kept K s) : Kept K (State.eventRun s l c first) := by
  unfold State.eventRun; repeat' (first
      | with_reducible (first
          | assumption | rfl | refine kept_ite ?_ ?_ | apply State.eventOut_kept | apply State.setLeg_kept)
      | dsimp only | split | assumption)

theorem State.eventEnd_kept {K : Keep} {s0 : State} (l : Nat) (c : Nat) (first : Bool) (h : Kept K s0) : Kept K (State.eventEnd s0 l c first) := by
  unfold State.eventEnd; repeat' (first
      | with_reducible (first
          | assumption | rfl | refine kept_ite ?_ ?_ | apply State.setLeg_kept | apply State.eventOut_kept | apply State.eventRun_kept)
      | dsimp only | split | assumption)

theorem State.eventStep_kept {K : Keep} (l clk : Nat) (e : ToneEv) {a : State × Bool × Bool} (h : Kept K a.1) :
    Kept K (State.eventStep l clk a e).1 := by
  unfold State.eventStep; repeat' (first
      | with_reducible (first
          | assumption | rfl | refine kept_ite ?_ ?_ | apply State.setLeg_kept | apply State.eventEnd_kept)
      | dsimp only | split | assumption)

theorem State.eventSteps_kept {K : Keep} (l clk : Nat) (es : List ToneEv) {a : State × Bool × Bool} (h : Kept K a.1) :
    Kept K (es.foldl (State.eventStep l clk) a).1 := by
  induction es generalizing a with
  | nil => exact h
  | cons e es ih => exact ih (State.eventStep_kept l clk e h)

theorem State.takeEvts_kept {K : Keep} {s : State} (l : Nat) (evts : List ToneEv) (h : Kept K s) : Kept K (State.takeEvts s l evts) := by
  unfold State.takeEvts; repeat' (first
      | with_reducible (first
          | assumption | rfl | refine kept_ite ?_ ?_ | apply State.setLeg_kept)
      | dsimp only | split | assumption)

theorem State.eventsOut_kept {K : Keep} {s : State} (l : Nat) (at_ : Inst) (h : Kept K s) : Kept K (State.eventsOut s l at_).1 := by
  unfold State.eventsOut; repeat' (first
      | with_reducible (first
          | assumption | rfl | refine kept_ite ?_ ?_ | apply State.eventSteps_kept | apply State.eventRun_kept | apply State.setLeg_kept)
      | dsimp only | split | assumption)

theorem State.eventsOut_kept_of {K : Keep} {s vv : State} {l : Nat} {at_ : Inst} {y : Bool} (e : State.eventsOut s l at_ = (vv, y)) (h : Kept K s) : Kept K vv := by
  have h1 := State.eventsOut_kept l at_ h
  rw [e] at h1; exact h1

theorem State.fallbackOut_kept {K : Keep} {s : State} (l : Nat) (b : Inst) (h : Kept K s) : Kept K (State.fallbackOut s l b) := by
  unfold State.fallbackOut; repeat' (first
      | with_reducible (first
          | assumption | rfl | refine kept_ite ?_ ?_ | apply State.voiceOut_kept)
      | dsimp only | split | assumption)

theorem State.relayOut_kept {K : Keep} {s : State} (l : Nat) (raw : Bytes) (h : Kept K s) : Kept K (State.relayOut s l raw) := by
  unfold State.relayOut; repeat' (first
      | with_reducible (first
          | assumption | rfl | refine kept_ite ?_ ?_ | apply State.legCnt_kept | apply State.rtpOut_kept | apply State.setLeg_kept)
      | dsimp only | split | assumption)

theorem State.rtcpOut_kept {K : Keep} {s : State} (l : Nat) (b : Bytes) (h : Kept K s) : Kept K (State.rtcpOut s l b) := by
  unfold State.rtcpOut; repeat' (first
      | with_reducible (first
          | assumption | rfl | refine kept_ite ?_ ?_ | apply State.recordSrtp_kept | apply State.legCnt_kept | apply State.legSend_kept | apply State.raise_kept
          | apply State.setLeg_kept)
      | dsimp only | split | assumption)

theorem State.nextReport_kept {K : Keep} {s : State} (l : Nat) (h : Kept K s) : Kept K (State.nextReport s l) := by
  unfold State.nextReport; repeat' (first
      | with_reducible (first
          | assumption | rfl | refine kept_ite ?_ ?_ | apply State.setLeg_kept | apply State.drawn_kept)
      | dsimp only | split | assumption)

theorem State.reportOut_kept {K : Keep} {s : State} (l : Nat) (h : Kept K s) : Kept K (State.reportOut s l) := by
  unfold State.reportOut; repeat' (first
      | with_reducible (first
          | assumption | rfl | refine kept_ite ?_ ?_ | apply State.setLeg_kept | apply State.rtcpOut_kept | apply State.nextReport_kept)
      | dsimp only | split | assumption)

theorem State.byeOut_kept {K : Keep} {s : State} (l : Nat) (h : Kept K s) : Kept K (State.byeOut s l) := by
  unfold State.byeOut; repeat' (first
      | with_reducible (first
          | assumption | rfl | refine kept_ite ?_ ?_ | apply State.rtcpOut_kept)
      | dsimp only | split | assumption)

theorem State.staleDiscard_kept {K : Keep} {s : State} (h : Kept K s) : Kept K (State.staleDiscard s) := by
  unfold State.staleDiscard; repeat' (first
      | with_reducible (first
          | assumption | rfl | refine kept_ite ?_ ?_ | apply State.legCnt_kept | apply State.raise_kept)
      | refine kept_foldl (fun _ _ _ => ?_) _ ?_ | dsimp only | split | assumption)

theorem execPkeFrameTake_kept {K : Keep} {s : State} (p : Fin 8) (tc : Fin 7) (h : Kept K s) : ∃ u, execPkeFrameTake p tc s = .next u ∧ Kept K u := by
  refine ⟨_, rfl, ?_⟩; repeat' (first
      | with_reducible (first
          | assumption | rfl | refine kept_ite ?_ ?_ | apply State.pkeTake_kept)
      | refine kept_foldl (fun _ _ _ => ?_) _ ?_ | dsimp only | split | refine State.rxTake_kept_of ‹_› ?_ | assumption)

theorem execPtpFrameRx_kept {K : Keep} {s : State} (r : PtpFind) (h : Kept K s) : ∃ u, execPtpFrameRx r s = .next u ∧ Kept K u := by
  refine ⟨_, rfl, ?_⟩; repeat' (first
      | with_reducible (first
          | assumption | rfl | refine kept_ite ?_ ?_ | apply State.setPke_kept | apply State.ptpFound_kept)
      | refine kept_foldl (fun _ _ _ => ?_) _ ?_ | dsimp only | split | assumption)

theorem execSlowPathFrame_kept {K : Keep} {s : State} (h : Kept K s) : ∃ u, execSlowPathFrame s = .next u ∧ Kept K u := by
  refine ⟨_, rfl, ?_⟩; repeat' (first
      | with_reducible (first
          | assumption | rfl | refine kept_ite ?_ ?_ | apply State.setPke_kept | apply State.txRequest_kept)
      | refine kept_foldl (fun _ _ _ => ?_) _ ?_ | dsimp only | split | refine State.txRequest_kept_of ‹_› ?_ | assumption)

/-! ### What `Machine/Media.lean` keeps -/

theorem State.keepSelections_kept {K : Keep} {s : State} (b : Inst) (h : Kept K s) : Kept K (State.keepSelections s b) := by
  unfold State.keepSelections; repeat' (first | with_reducible (first | assumption | rfl | refine kept_ite ?_ ?_) | dsimp only | split | assumption)

/-! ### What `Machine/Frp.lean` keeps -/

theorem State.setFrp_kept {K : Keep} {s : State} (x : Frp) (h : Kept K s) : Kept K (State.setFrp s x) := by
  unfold State.setFrp; repeat' (first | with_reducible (first | assumption | rfl | refine kept_ite ?_ ?_) | dsimp only | split | assumption)

theorem State.pushRecord_kept {K : Keep} {s : State} (b : Bytes) (h : Kept K s) : Kept K (State.pushRecord s b) := by
  unfold State.pushRecord; repeat' (first
      | with_reducible (first
          | assumption | rfl | refine kept_ite ?_ ?_ | apply State.raise_kept | apply State.bump_kept | apply State.setFrp_kept)
      | dsimp only | split | assumption)

theorem State.recordFault_kept {K : Keep} {s : State} (t : Task) (f : FRec) (outcome : Nat) (rcore : Nat) (h : Kept K s) : Kept K (State.recordFault s t f outcome rcore) := by
  unfold State.recordFault; repeat' (first
      | with_reducible (first
          | assumption | rfl | refine kept_ite ?_ ?_ | apply State.pushRecord_kept)
      | dsimp only | split | assumption)

theorem State.settleFaults_kept {K : Keep} {s : State} (i : Nat) (outcome : Nat) (rcore : Nat) (h : Kept K s) : Kept K (State.settleFaults s i outcome rcore) := by
  unfold State.settleFaults; repeat' (first
      | with_reducible (first
          | assumption | rfl | refine kept_ite ?_ ?_ | apply State.recordFault_kept | apply State.setTask_kept)
      | refine kept_foldl (fun _ _ _ => ?_) _ ?_ | dsimp only | split | assumption)

theorem State.logRecord_kept {K : Keep} {s : State} (l n : Nat) (h : Kept K s) : Kept K (State.logRecord s l n).1 := by
  unfold State.logRecord; repeat' (first
      | with_reducible (first
          | assumption | rfl | refine kept_ite ?_ ?_ | apply State.setFrp_kept | apply State.peakTo_kept | apply State.raise_kept
          | apply State.bump_kept)
      | dsimp only | split | assumption)

theorem State.logRecord_kept_of {K : Keep} {s vv : State} {l n : Nat} {y : Option Nat} (e : State.logRecord s l n = (vv, y)) (h : Kept K s) : Kept K vv := by
  have h1 := State.logRecord_kept l n h
  rw [e] at h1; exact h1

theorem State.abortSlice_kept {K : Keep} {s : State} (r : Slice) (h : Kept K s) : Kept K (State.abortSlice s r) := by
  unfold State.abortSlice; repeat' (first
      | with_reducible (first
          | assumption | rfl | refine kept_ite ?_ ?_ | apply State.cutSlice_kept | apply State.bump_kept | apply State.raise_kept)
      | dsimp only | split | assumption)

theorem State.countFallback_kept {K : Keep} {s : State} (h : Kept K s) : Kept K (State.countFallback s) := by
  unfold State.countFallback; repeat' (first
      | with_reducible (first
          | assumption | rfl | refine kept_ite ?_ ?_ | apply State.bump_kept | apply State.raise_kept)
      | dsimp only | split | assumption)

theorem State.fallback_kept {K : Keep} {s : State} (i : Nat) (outcome : Nat) (h : Kept K s) : Kept K (State.fallback s i outcome) := by
  unfold State.fallback; repeat' (first
      | with_reducible (first
          | assumption | rfl | refine kept_ite ?_ ?_ | apply State.settleFaults_kept | apply State.countFallback_kept | apply State.freeTask_kept
          | apply State.cancelTask_kept | apply State.bpRelease_kept | apply State.bump_kept | apply State.raise_kept)
      | dsimp only | split | assumption)

theorem State.recreate_kept {K : Keep} {s : State} (l : Nat) (h : Kept K s) : Kept K (State.recreate s l) := by
  unfold State.recreate; repeat' (first
      | with_reducible (first
          | assumption | rfl | refine kept_ite ?_ ?_ | apply State.bump_kept | apply State.raise_kept)
      | dsimp only | split | assumption)

theorem State.recreated_kept {K : Keep} {s : State} (l : Nat) (h : Kept K s) : Kept K (State.recreated s l) := by
  unfold State.recreated; repeat' (first
      | with_reducible (first
          | assumption | rfl | refine kept_ite ?_ ?_ | apply State.setLeg_kept | apply State.resetChain_kept)
      | dsimp only | split | assumption)

theorem State.setDeng_kept {K : Keep} {s : State} (e : Nat) (x : DEng) (h : Kept K s) : Kept K (State.setDeng s e x) := by
  unfold State.setDeng; repeat' (first
      | with_reducible (first
          | assumption | rfl | refine kept_ite ?_ ?_ | apply State.setMmu_kept | apply State.report_kept)
      | dsimp only | split | assumption)

theorem State.moved_kept {K : Keep} {s : State} (e : Nat) (n : Nat) (h : Kept K s) : Kept K (State.moved s e n) := by
  unfold State.moved; repeat' (first
      | with_reducible (first
          | assumption | rfl | refine kept_ite ?_ ?_ | apply State.setDeng_kept)
      | dsimp only | split | assumption)

theorem State.engOf_kept_of {K : Keep} {s u : State} {l : List Nat} {pick : List Nat → Option Nat} {e : Nat} (hp : s.engOf l pick = some (e, u))
    (h : Kept K s) : Kept K u := by
  simp only [State.engOf] at hp
  split at hp
  · cases hp; exact h
  · obtain ⟨r, -, hp⟩ := Option.map_eq_some_iff.1 hp
    cases hp
    exact State.abortSlice_kept _ h

theorem State.pickEng_kept_of {K : Keep} {s u : State} {c e : Nat} (hp : s.pickEng c = some (e, u)) (h : Kept K s) : Kept K u := by
  simp only [State.pickEng] at hp
  split at hp
  · obtain ⟨k, -, hp⟩ := Option.bind_eq_some_iff.1 hp
    obtain ⟨⟨e1, v⟩, hj, hp⟩ := Option.map_eq_some_iff.1 hp
    cases hp
    exact State.bump_kept _ (State.engOf_kept_of hj h)
  · obtain ⟨⟨e1, v⟩, hj, hp⟩ := Option.map_eq_some_iff.1 hp
    cases hp
    exact State.setMmu_kept (State.engOf_kept_of hj h) rfl

theorem State.startReplay_kept {K : Keep} {s : State} (i : Nat) (t : Task) (kib : Nat) (notCore : Nat) (notEng : Option Nat) (h : Kept K s) : Kept K (State.startReplay s i t kib notCore notEng) := by
  unfold State.startReplay; repeat' (first
      | with_reducible (first
          | assumption | rfl | refine kept_ite ?_ ?_ | apply State.setTask_kept | apply State.peakTo_kept | apply State.pinArea_kept
          | apply State.bump_kept | apply attempts_kept)
      | dsimp only | split | refine State.pickEng_kept_of ‹_› ?_ | assumption)

theorem State.freeRsv_kept {K : Keep} {s : State} (t : Task) (h : Kept K s) : Kept K (State.freeRsv s t) := by
  unfold State.freeRsv; repeat' (first
      | with_reducible (first
          | assumption | rfl | refine kept_ite ?_ ?_ | apply State.unpinArea_kept)
      | dsimp only | split | assumption)

theorem State.onFault_kept {K : Keep} {s : State} (i : Nat) (cls : Nat) (core : Nat) (unit : Nat) (detail : Nat) (h : Kept K s) : Kept K (State.onFault s i cls core unit detail) := by
  unfold State.onFault; repeat' (first
      | with_reducible (first
          | assumption | rfl | refine kept_ite ?_ ?_ | apply State.recordFault_kept | apply State.fallback_kept | apply State.recreate_kept
          | apply State.startReplay_kept | apply State.freeRsv_kept | apply State.setTask_kept | apply State.dropCall_kept
          | apply State.giveFrame_kept | apply State.setLeg_kept | apply State.bump_kept | apply State.raise_kept | apply attempts_kept)
      | dsimp only | split | assumption)

theorem State.legFault_kept {K : Keep} {s : State} (l : Nat) (b : Inst) (cls : Nat) (unit : Nat) (detail : Nat) (h : Kept K s) : Kept K (State.legFault s l b cls unit detail) := by
  unfold State.legFault; repeat' (first
      | with_reducible (first
          | assumption | rfl | refine kept_ite ?_ ?_ | apply State.pushRecord_kept | apply State.countFallback_kept | apply State.recreate_kept)
      | dsimp only | split | assumption)

theorem State.faultAt_kept {K : Keep} {s : State} (c : Nat) (i : Nat) (cls : Nat) (unit : Nat) (detail : Nat) (h : Kept K s) : Kept K (State.faultAt s c i cls unit detail) := by
  unfold State.faultAt; repeat' (first
      | with_reducible (first
          | assumption | rfl | refine kept_ite ?_ ?_ | apply State.onFault_kept | apply State.coreTake_kept | apply State.sysFreed_kept)
      | dsimp only | split | assumption)

theorem frpEffect_kept {K : Keep} {s : State} (a : Nat) (_old : Nat) (v : Nat) (h : Kept K s) : Kept K (frpEffect s a _old v) := by
  unfold frpEffect; repeat' (first
      | with_reducible (first
          | assumption | rfl | refine kept_ite ?_ ?_ | apply State.setFld_kept)
      | dsimp only | split | assumption)

theorem State.frpPop_kept {K : Keep} {s : State} (i2c : Bool) (h : Kept K s) : Kept K (State.frpPop s i2c) := by
  unfold State.frpPop; repeat' (first
      | with_reducible (first
          | assumption | rfl | refine kept_ite ?_ ?_ | apply State.setReg_kept | apply State.setFrp_kept)
      | refine kept_foldl (fun _ _ _ => ?_) _ ?_ | dsimp only | split | assumption)

theorem execMemoryFault_kept {K : Keep} {s : State} (core : Fin 128) (pa : BitVec 40) (h : Kept K s) : ∃ u, execMemoryFault core pa s = .next u ∧ Kept K u := by
  refine ⟨_, rfl, ?_⟩; repeat' (first
      | with_reducible (first
          | assumption | rfl | refine kept_ite ?_ ?_ | apply State.faultAt_kept | apply State.bump_kept | apply State.drawn_kept
          | apply State.raise_kept)
      | refine kept_foldl (fun _ _ _ => ?_) _ ?_ | dsimp only | split | assumption)

theorem execTaskOverrun_kept {K : Keep} {s : State} (core : Fin 128) (h : Kept K s) : ∃ u, execTaskOverrun core s = .next u ∧ Kept K u := by
  refine ⟨_, rfl, ?_⟩; repeat' (first
      | with_reducible (first
          | assumption | rfl | refine kept_ite ?_ ?_ | apply State.faultAt_kept)
      | refine kept_foldl (fun _ _ _ => ?_) _ ?_ | dsimp only | split | assumption)

theorem execCoreHang_kept {K : Keep} {s : State} (core : Fin 128) (ns : BitVec 32) (h : Kept K s) : ∃ u, execCoreHang core ns s = .next u ∧ Kept K u := by
  refine ⟨_, rfl, ?_⟩; repeat' (first
      | with_reducible (first
          | assumption | rfl | refine kept_ite ?_ ?_ | apply State.held_kept | apply State.onFault_kept | apply State.setCore_kept
          | apply State.sysFreed_kept)
      | refine kept_foldl (fun _ _ _ => ?_) _ ?_ | dsimp only | split | assumption)

/-! ### What `Machine/Mmu.lean` keeps -/

theorem State.tlbPut_kept {K : Keep} {s : State} (u : Nat) (e : TlbEnt) (h : Kept K s) : Kept K (State.tlbPut s u e) := by
  unfold State.tlbPut; repeat' (first
      | with_reducible (first
          | assumption | rfl | refine kept_ite ?_ ?_ | apply State.setMmu_kept | apply State.drawn_kept)
      | dsimp only | split | assumption)

theorem State.lookup_kept {K : Keep} {s : State} (u : Nat) (ctx : Nat) (va : Nat) (h : Kept K s) : Kept K (State.lookup s u ctx va) := by
  unfold State.lookup; repeat' (first
      | with_reducible (first
          | assumption | rfl | refine kept_ite ?_ ?_ | apply State.tlbPut_kept | apply State.bump_kept)
      | dsimp only | split | assumption)

theorem State.coreLookup_kept {K : Keep} {s : State} (c : Nat) (ctx : Nat) (va : Nat) (h : Kept K s) : Kept K (State.coreLookup s c ctx va) := by
  unfold State.coreLookup; repeat' (first
      | with_reducible (first
          | assumption | rfl | refine kept_ite ?_ ?_ | apply State.tlbPut_kept | apply State.lookup_kept | apply State.bump_kept)
      | dsimp only | split | assumption)

theorem State.tlbDrop_kept {K : Keep} {s : State} (gone : TlbEnt → Bool) (h : Kept K s) : Kept K (State.tlbDrop s gone) := by
  unfold State.tlbDrop; repeat' (first
      | with_reducible (first
          | assumption | rfl | refine kept_ite ?_ ?_ | apply State.setMmu_kept)
      | dsimp only | split | assumption)

theorem State.markPin_kept {K : Keep} {s : State} (x : Xlate) (on : Bool) (h : Kept K s) : Kept K (State.markPin s x on) := by
  unfold State.markPin; repeat' (first
      | with_reducible (first
          | assumption | rfl | refine kept_ite ?_ ?_ | apply State.memSet_kept)
      | refine kept_foldl (fun _ _ _ => ?_) _ ?_ | dsimp only | split | assumption)

theorem State.lookRange_kept {K : Keep} {s : State} (u : Nat) (ctx : Nat) (va : Nat) (len : Nat) (h : Kept K s) : Kept K (State.lookRange s u ctx va len) := by
  unfold State.lookRange; repeat' (first
      | with_reducible (first
          | assumption | rfl | refine kept_ite ?_ ?_ | apply State.lookup_kept)
      | refine kept_foldl (fun _ _ _ => ?_) _ ?_ | dsimp only | split | assumption)

theorem State.pinRange_kept {K : Keep} {s : State} (ctx : Nat) (va : Nat) (len : Nat) (h : Kept K s) : Kept K (State.pinRange s ctx va len) := by
  unfold State.pinRange; repeat' (first
      | with_reducible (first
          | assumption | rfl | refine kept_ite ?_ ?_ | apply State.setPin_kept | apply State.markPin_kept | apply State.setMmu_kept)
      | refine kept_foldl (fun _ _ _ => ?_) _ ?_ | dsimp only | split | assumption)

theorem State.unpinRange_kept {K : Keep} {s : State} (ctx : Nat) (va : Nat) (len : Nat) (h : Kept K s) : Kept K (State.unpinRange s ctx va len) := by
  unfold State.unpinRange; repeat' (first
      | with_reducible (first
          | assumption | rfl | refine kept_ite ?_ ?_ | apply State.setPin_kept | apply State.markPin_kept | apply State.setMmu_kept)
      | refine kept_foldl (fun _ _ _ => ?_) _ ?_ | dsimp only | split | assumption)

theorem State.setDring_kept {K : Keep} {s : State} (r : Nat) (x : DRing) (h : Kept K s) : Kept K (State.setDring s r x) := by
  unfold State.setDring; repeat' (first
      | with_reducible (first
          | assumption | rfl | refine kept_ite ?_ ?_ | apply State.setMmu_kept)
      | dsimp only | split | assumption)

theorem State.vwrite_kept {K : Keep} {s : State} (u : Nat) (ctx : Nat) (va : Nat) (b : Bytes) (h : Kept K s) : Kept K (State.vwrite s u ctx va b) := by
  unfold State.vwrite; repeat' (first
      | with_reducible (first
          | assumption | rfl | refine kept_ite ?_ ?_ | apply State.memSet_kept | apply State.lookup_kept)
      | refine kept_foldl (fun _ _ _ => ?_) _ ?_ | dsimp only | split | assumption)

theorem State.touch_kept {K : Keep} (u ctx : Nat) : ∀ (j va : Nat) {s : State}, Kept K s → Kept K (State.touch u ctx j va s)
  | 0, _, _, h => h
  | j + 1, va, s, h => by
    simp only [State.touch]
    split
    · exact State.lookup_kept _ _ _ h
    · exact touch_kept u ctx j _ (State.lookup_kept _ _ _ h)

theorem State.takeDescs_kept {K : Keep} (r : Nat) : ∀ (j : Nat) {s : State}, Kept K s → Kept K (s.takeDescs r j)
  | 0, _, h => h
  | j + 1, s, h => by
    simp only [State.takeDescs]
    refine kept_ite ?_ h
    have h1 := State.touch_kept (ringUnit r) (s.dring r).ctx 32 ((s.dring r).dbase + 32 * (s.dring r).head) h
    split
    · exact h1
    · exact kept_ite h1 (takeDescs_kept r j (State.setDring_kept _ _ h1))

theorem State.setDesc_kept {K : Keep} {s : State} (r : Nat) (d : Desc) (h : Kept K s) : Kept K (State.setDesc s r d) := by
  unfold State.setDesc; repeat' (first
      | with_reducible (first
          | assumption | rfl | refine kept_ite ?_ ?_ | apply State.setDring_kept)
      | dsimp only | split | assumption)

theorem State.copyBytes_kept {K : Keep} (w ctx : Nat) : ∀ (j a b n : Nat) {s : State}, Kept K s → Kept K (State.copyBytes w ctx j a b n s).1
  | 0, _, _, _, _, h => h
  | j + 1, a, b, n, s, h => by
    simp only [State.copyBytes]
    split
    · exact State.lookup_kept _ _ _ h
    · split
      · exact State.lookup_kept _ _ _ (State.lookup_kept _ _ _ h)
      · exact copyBytes_kept w ctx j _ _ _ (State.memSet_kept (State.lookup_kept _ _ _ (State.lookup_kept _ _ _ h)))

theorem State.copyBytes_kept_of {K : Keep} {w ctx j a b n : Nat} {s u : State} {y : Nat × Option (Nat × Nat)}
    (e : State.copyBytes w ctx j a b n s = (u, y)) (h : Kept K s) : Kept K u := by
  have h1 := State.copyBytes_kept w ctx j a b n h
  rw [e] at h1; exact h1

theorem State.putBytes_kept {K : Keep} (w ctx : Nat) : ∀ (l : Bytes) (b n : Nat) {s : State}, Kept K s → Kept K (State.putBytes w ctx l b n s).1
  | [], _, _, _, h => h
  | v :: r, b, n, s, h => by
    simp only [State.putBytes]
    split
    · exact State.lookup_kept _ _ _ h
    · exact putBytes_kept w ctx r _ _ (State.memSet_kept (State.lookup_kept _ _ _ h))

theorem State.putBytes_kept_of {K : Keep} {w ctx b n : Nat} {l : Bytes} {s u : State} {y : Nat × Option (Nat × Nat)}
    (e : State.putBytes w ctx l b n s = (u, y)) (h : Kept K s) : Kept K u := by
  have h1 := State.putBytes_kept w ctx l b n h
  rw [e] at h1; exact h1

theorem State.beginDesc_kept {K : Keep} {s : State} {r : Nat} {d : Desc} {run : State → State} (hr : ∀ t, Kept K t → Kept K (run t)) (h : Kept K s) :
    Kept K (s.begin_ r d run) := by
  have h1 : Kept K (s.lookRange (ringUnit r) (d.ctx (s.dring r)) d.dst d.len) := State.lookRange_kept _ _ _ _ h
  simp only [State.begin_]
  refine kept_ite (State.setDesc_kept _ _ h) (kept_ite (kept_ite ?_ ?_) (hr _ h))
  · exact State.setDesc_kept _ _ (State.bump_kept _ h1)
  · exact hr _ (State.pinRange_kept _ _ _ h1)

theorem State.fillRx_kept {K : Keep} (r : Nat) (f : RxFrame) (cls port : Nat) : ∀ (j : Nat) (used : List Nat) (b : Bytes) (fi : Bool) {s : State}, Kept K s →
    Kept K (State.fillRx r f cls port used j b fi s).1
  | 0, _, _, _, _, h => h
  | j + 1, used, b, fi, s, h => by
    simp only [State.fillRx]
    split
    · exact h
    · split
      · split
        · exact h
        · exact fillRx_kept r f cls port j _ _ _ (State.takeDescs_kept _ _ h)
      · split
        · exact fillRx_kept r f cls port j _ _ _ (State.setDesc_kept _ _ h)
        · split
          · exact fillRx_kept r f cls port j _ _ _ (State.setDesc_kept _ _ (State.bump_kept _ h))
          · split
            · exact State.setDesc_kept _ _ (State.putBytes_kept _ _ _ _ _ (kept_ite (State.pinRange_kept _ _ _ h) h))
            · exact fillRx_kept r f cls port j _ _ _ (State.moved_kept _ _ (State.setDesc_kept _ _
                (State.putBytes_kept _ _ _ _ _ (kept_ite (State.pinRange_kept _ _ _ h) h))))

theorem State.abandon_kept {K : Keep} {s : State} (r : Nat) (used : List Nat) (flt : Option (Nat × Nat)) (h : Kept K s) : Kept K (State.abandon s r used flt) := by
  unfold State.abandon; repeat' (first
      | with_reducible (first
          | assumption | rfl | refine kept_ite ?_ ?_ | apply State.setDring_kept)
      | dsimp only | split | assumption)

theorem State.dropStarved_kept {K : Keep} {s : State} (r : Nat) (h : Kept K s) : Kept K (State.dropStarved s r) := by
  unfold State.dropStarved; repeat' (first
      | with_reducible (first
          | assumption | rfl | refine kept_ite ?_ ?_ | apply State.xoffCheck_kept | apply State.setDring_kept | apply State.bump_kept)
      | refine kept_foldl (fun _ _ _ => ?_) _ ?_ | dsimp only | split | assumption)

theorem State.writeCompletion_kept {K : Keep} {s : State} (r : Nat) (d : Desc) (b0 : Nat) (status : Nat) (h : Kept K s) : Kept K (State.writeCompletion s r d b0 status) := by
  unfold State.writeCompletion; repeat' (first
      | with_reducible (first
          | assumption | rfl | refine kept_ite ?_ ?_ | apply State.vwrite_kept)
      | dsimp only | split | assumption)

theorem State.clearOwn_kept {K : Keep} {s : State} (r : Nat) (d : Desc) (h : Kept K s) : Kept K (State.clearOwn s r d) := by
  unfold State.clearOwn; repeat' (first
      | with_reducible (first
          | assumption | rfl | refine kept_ite ?_ ?_ | apply State.vwrite_kept)
      | dsimp only | split | assumption)

theorem State.notify_kept {K : Keep} {s : State} (r : Nat) (d : Desc) (h : Kept K s) : Kept K (State.notify s r d) := by
  unfold State.notify; repeat' (first
      | with_reducible (first
          | assumption | rfl | refine kept_ite ?_ ?_ | apply State.setMmu_kept)
      | dsimp only | split | assumption)

theorem State.finishDesc_kept {K : Keep} {s : State} (r : Nat) (d : Desc) (h : Kept K s) : Kept K (State.finishDesc s r d) := by
  unfold State.finishDesc; repeat' (first
      | with_reducible (first
          | assumption | rfl | refine kept_ite ?_ ?_ | apply State.unblock_kept | apply State.unpinRange_kept | apply State.setDring_kept
          | apply State.writeCompletion_kept | apply State.clearOwn_kept | apply State.notify_kept | apply State.bump_kept)
      | dsimp only | split | assumption)

theorem State.dengRest_kept {K : Keep} {s : State} (e : Nat) (h : Kept K s) : Kept K (State.dengRest s e) := by
  unfold State.dengRest; repeat' (first
      | with_reducible (first
          | assumption | rfl | refine kept_ite ?_ ?_ | apply State.takeDescs_kept | apply State.setDeng_kept)
      | refine kept_foldl (fun _ _ _ => ?_) _ ?_ | dsimp only | split | assumption)

theorem State.kennelDone_kept {K : Keep} {s : State} (a : Area) (status : Nat) (done : Nat) (fl : Nat) (h : Kept K s) : Kept K (State.kennelDone s a status done fl) := by
  unfold State.kennelDone; repeat' (first
      | with_reducible (first
          | assumption | rfl | refine kept_ite ?_ ?_ | apply State.writeCompletion_kept | apply State.clearOwn_kept | apply State.bump_kept)
      | dsimp only | split | assumption)

theorem State.putArea_kept {K : Keep} {s : State} (a : Area) (b : Area) (h : Kept K s) : Kept K (State.putArea s a b) := by
  unfold State.putArea; repeat' (first
      | with_reducible (first
          | assumption | rfl | refine kept_ite ?_ ?_ | apply State.setMmu_kept)
      | dsimp only | split | assumption)

theorem State.post_kept {K : Keep} {s : State} (r : Nat) (b : Bytes) (h : Kept K s) : Kept K (s.post r b).1 :=
  State.setDring_kept _ _ (State.vwrite_kept _ _ _ _ h)

theorem State.postArea_kept {K : Keep} {s : State} (a : Area) (h : Kept K s) : Kept K (s.postArea a).1 := State.post_kept _ _ h

theorem State.restageEnds_kept {K : Keep} {s : State} (k : Task) (e : Nat) (status : Nat) (done : Nat) (fl : Nat) (h : Kept K s) :
    Kept K (State.restageEnds s k e status done fl) := State.kennelDone_kept _ _ _ _ (State.postArea_kept _ h)

theorem State.startStages_kept {K : Keep} {s : State} (h : Kept K s) : Kept K s.startStages := by
  unfold State.startStages
  refine kept_foldl (fun t a ht => ?_) _ h
  dsimp only
  refine kept_ite ht ?_
  split
  · exact ht
  · rename_i e t1 he
    exact State.peakTo_kept _ _ (State.pinArea_kept _ _ (State.putArea_kept _ _ (State.postArea_kept _ (State.pickEng_kept_of he ht))))

theorem State.orderStage_kept {K : Keep} {s : State} (l : Nat) (b : Inst) (h : Kept K s) : Kept K (State.orderStage s l b) := by
  unfold State.orderStage; repeat' (first
      | with_reducible (first
          | assumption | rfl | refine kept_ite ?_ ?_ | apply State.startStages_kept | apply State.setMmu_kept | apply State.bump_kept
          | apply State.raise_kept)
      | dsimp only | split | assumption)

theorem State.freeArea_kept {K : Keep} {s : State} (a : Area) (h : Kept K s) : Kept K (State.freeArea s a) := by
  unfold State.freeArea; repeat' (first
      | with_reducible (first
          | assumption | rfl | refine kept_ite ?_ ?_ | apply State.unpinArea_kept | apply State.dengRest_kept | apply State.startStages_kept
          | apply State.setMmu_kept)
      | dsimp only | split | assumption)

theorem State.setAreaSt_kept {K : Keep} {s : State} (a : Area) (st : Nat) (h : Kept K s) : Kept K (State.setAreaSt s a st) := by
  unfold State.setAreaSt; repeat' (first
      | with_reducible (first
          | assumption | rfl | refine kept_ite ?_ ?_ | apply State.putArea_kept | apply State.setMmu_kept)
      | dsimp only | split | assumption)

theorem State.releaseArea_kept {K : Keep} {s : State} (a : Area) (h : Kept K s) : Kept K (State.releaseArea s a) :=
  State.freeArea_kept _ (State.bump_kept _ (State.clearOwn_kept _ _ (State.writeCompletion_kept _ _ _ _ (State.post_kept _ _ h))))

theorem State.descDone_kept {K : Keep} {s : State} (r : Nat) (d : Desc) (h : Kept K s) : Kept K (State.descDone s r d) := by
  unfold State.descDone; repeat' (first
      | with_reducible (first
          | assumption | rfl | refine kept_ite ?_ ?_ | apply State.takeDescs_kept | apply State.finishDesc_kept | apply State.dengRest_kept)
      | dsimp only | split | assumption)

theorem State.countPark_kept {K : Keep} {s : State} (cause : Nat) (h : Kept K s) : Kept K (State.countPark s cause) := by
  unfold State.countPark; repeat' (first
      | with_reducible (first
          | assumption | rfl | refine kept_ite ?_ ?_ | apply State.bump_kept | apply State.raise_kept)
      | dsimp only | split | assumption)

theorem State.parkTask_kept {K : Keep} {s : State} (r : Nat) (d : Desc) (h : Kept K s) : Kept K (State.parkTask s r d) := by
  unfold State.parkTask; repeat' (first
      | with_reducible (first
          | assumption | rfl | refine kept_ite ?_ ?_ | apply State.blockRun_kept)
      | dsimp only | split | assumption)

theorem State.ringCfg_kept {K : Keep} {s : State} (r : Nat) (x : RingSetup) (h : Kept K s) : Kept K (State.ringCfg s r x) := by
  unfold State.ringCfg; repeat' (first
      | with_reducible (first
          | assumption | rfl | refine kept_ite ?_ ?_ | apply State.setDring_kept)
      | dsimp only | split | assumption)

theorem State.backAgain_kept {K : Keep} {s : State} (a : Area) (unit : Nat) (h : Kept K s) : Kept K (State.backAgain s a unit) := by
  unfold State.backAgain
  split
  · rename_i e t he
    exact State.pushRecord_kept _ (State.setMmu_kept (State.postArea_kept _ (State.pickEng_kept_of he h)) rfl)
  · exact State.legFault_kept _ _ _ _ _ (State.unpinArea_kept _ _ h)

theorem State.dengFail_kept {K : Keep} {s : State} (e : Nat) (h : Kept K s) : Kept K (s.dengFail e) := by
  unfold State.dengFail
  refine kept_foldl (fun t a ht => ?_) _ (kept_foldl (fun t p ht => State.onFault_kept _ _ _ _ _ (State.restageEnds_kept _ _ _ _ _ ht)) _
    (kept_foldl (fun t k ht => kept_foldl (fun t k ht => State.finishDesc_kept _ _ ht) _ ht) _ (State.setDeng_kept _ _ h)))
  have h0 := State.kennelDone_kept a St.fault a.done 0 ht
  have h1 : Kept K ((t.kennelDone a St.fault a.done 0).setMmu
      { (t.kennelDone a St.fault a.done 0).mmu with areas := (t.kennelDone a St.fault a.done 0).mmu.areas.filter (· != a) }) := State.setMmu_kept h0 rfl
  have h2 := State.unpinArea_kept a.pa a.len h1
  refine kept_ite (State.backAgain_kept _ _ h1) (kept_ite ?_ (State.startStages_kept h2))
  dsimp only
  split
  · exact kept_ite (State.onFault_kept _ _ _ _ _ h2) (State.orderStage_kept _ _ h2)
  · exact State.orderStage_kept _ _ h2

theorem State.findGen_kept {K : Keep} {s : State} (h : Kept K s) : Kept K (State.findGen s) := by
  unfold State.findGen; repeat' (first
      | with_reducible (first
          | assumption | rfl | refine kept_ite ?_ ?_ | apply State.setMmu_kept)
      | dsimp only | split | assumption)

theorem State.fwWrite_kept {K : Keep} {s : State} (w : FwWrites) (h : Kept K s) : Kept K (State.fwWrite s w) := by
  unfold State.fwWrite; repeat' (first
      | with_reducible (first
          | assumption | rfl | refine kept_ite ?_ ?_ | apply State.memSet_kept | apply State.findGen_kept | apply State.setMmu_kept)
      | refine kept_foldl (fun _ _ _ => ?_) _ ?_ | dsimp only | split | assumption)

theorem State.writeEntry_kept {K : Keep} {s : State} (at_ : Nat) (e : Nat) (h : Kept K s) : Kept K (State.writeEntry s at_ e) := by
  unfold State.writeEntry; repeat' (first
      | with_reducible (first
          | assumption | rfl | refine kept_ite ?_ ?_ | apply State.memWrite_kept)
      | refine kept_foldl (fun _ _ _ => ?_) _ ?_ | dsimp only | split | assumption)

theorem State.moveDone_kept {K : Keep} {s : State} (h : Kept K s) : Kept K (State.moveDone s) := by
  unfold State.moveDone; repeat' (first
      | with_reducible (first
          | assumption | rfl | refine kept_ite ?_ ?_ | apply State.unblock_kept | apply State.memWrite_kept | apply State.tlbDrop_kept
          | apply State.setDesc_kept | apply State.writeEntry_kept | apply State.setMmu_kept | apply State.setFld_kept | apply State.bump_kept)
      | refine kept_foldl (fun _ _ _ => ?_) _ ?_ | dsimp only | split | assumption)

theorem State.coreAccess_kept {K : Keep} {s : State} (c : Nat) (i : Nat) (t : Task) (va : Nat) (acc : Nat) (h : Kept K s) : Kept K (State.coreAccess s c i t va acc) := by
  unfold State.coreAccess; repeat' (first
      | with_reducible (first
          | assumption | rfl | refine kept_ite ?_ ?_ | apply State.faultAt_kept | apply State.blockRun_kept | apply State.coreLookup_kept
          | apply State.bump_kept | apply State.raise_kept)
      | dsimp only | split | assumption)

theorem execAccessFault_kept {K : Keep} {s : State} (core : Fin 128) (va : BitVec 48) (acc : Fin 3) (h : Kept K s) : ∃ u, execAccessFault core va acc s = .next u ∧ Kept K u := by
  refine ⟨_, rfl, ?_⟩; repeat' (first
      | with_reducible (first
          | assumption | rfl | refine kept_ite ?_ ?_ | apply State.coreAccess_kept | apply State.faultAt_kept | apply State.raise_kept
          | apply State.bump_kept)
      | refine kept_foldl (fun _ _ _ => ?_) _ ?_ | dsimp only | split | assumption)

theorem mmuEffect_kept {K : Keep} {s : State} (a : Nat) (_old : Nat) (v : Nat) (h : Kept K s) : Kept K (mmuEffect s a _old v) := by
  unfold mmuEffect; repeat' (first
      | with_reducible (first
          | assumption | rfl | refine kept_ite ?_ ?_ | apply State.setFld_kept | apply State.setMmu_kept)
      | dsimp only | split | assumption)

theorem execDmaCopy_kept {K : Keep} {s : State} (ring : Fin 256) (h : Kept K s) : ∃ u, execDmaCopy ring s = .next u ∧ Kept K u := by
  refine ⟨_, rfl, ?_⟩
  split
  · exact h
  · exact State.beginDesc_kept (fun t ht => State.moved_kept _ _ (State.setDesc_kept _ _ (State.copyBytes_kept _ _ _ _ _ _ ht))) h

theorem execDmaFill_kept {K : Keep} {s : State} (ring : Fin 256) (h : Kept K s) : ∃ u, execDmaFill ring s = .next u ∧ Kept K u := by
  refine ⟨_, rfl, ?_⟩
  split
  · exact h
  · exact State.beginDesc_kept (fun t ht => State.moved_kept _ _ (State.setDesc_kept _ _ (State.putBytes_kept _ _ _ _ _ ht))) h

theorem execDmaTx_kept {K : Keep} {s : State} (ring : Fin 256) (h : Kept K s) : ∃ u, execDmaTx ring s = .next u ∧ Kept K u := by
  refine ⟨_, rfl, ?_⟩; repeat' (first
      | with_reducible (first
          | assumption | rfl | refine kept_ite ?_ ?_ | apply State.moved_kept | apply State.touch_kept | apply State.setDesc_kept
          | apply State.bump_kept | apply State.txRequest_kept)
      | refine kept_foldl (fun _ _ _ => ?_) _ ?_ | dsimp only | split | refine State.txRequest_kept_of ‹_› ?_ | assumption)

theorem execDmaRx_kept {K : Keep} {s : State} (ring : Fin 256) (h : Kept K s) : ∃ u, execDmaRx ring s = .next u ∧ Kept K u := by
  refine ⟨_, rfl, ?_⟩
  split
  · rename_i f cls port _
    have h1 := State.xoffCheck_kept port (State.setDring_kept ring.val
      { (State.fillRx ring.val f cls port [] rxFuel f.bytes true s).1.dring ring.val with
        frames := ((State.fillRx ring.val f cls port [] rxFuel f.bytes true s).1.dring ring.val).frames.erase (f, cls, port) }
      (State.fillRx_kept ring.val f cls port rxFuel [] f.bytes true h))
    exact kept_ite (State.dropStarved_kept _ h1) (kept_ite (State.dropStarved_kept _ (State.bump_kept _ h1))
      (State.dropStarved_kept _ (State.raise_kept _ _ (State.bump_kept _ (State.abandon_kept _ _ _ h1)))))
  · exact kept_ite (State.dropStarved_kept _ h) h

theorem execDmaRelease_kept {K : Keep} {s : State} (ring : Fin 256) (h : Kept K s) : ∃ u, execDmaRelease ring s = .next u ∧ Kept K u := by
  refine ⟨_, rfl, ?_⟩; repeat' (first
      | with_reducible (first
          | assumption | rfl | refine kept_ite ?_ ?_ | apply State.setDesc_kept | apply State.unpinRange_kept)
      | refine kept_foldl (fun _ _ _ => ?_) _ ?_ | dsimp only | split | assumption)

theorem State.stageEnds_kept {K : Keep} {s : State} (a : Area) (h : Kept K s) : Kept K (s.stageEnds a) :=
  State.setKnl_kept _ (State.dengRest_kept _ (State.moved_kept _ _ (State.setAreaSt_kept _ _ (State.kennelDone_kept _ _ _ _ h))))

theorem State.frameStaged_kept {K : Keep} {s : State} (l : Nat) (b : Inst) (h : Kept K s) : Kept K (s.frameStaged l b) := by
  unfold State.frameStaged
  split
  · exact kept_ite (kept_ite (State.setTask_kept _ _ h) (State.makeReady_kept _ (State.setTask_kept _ _ h))) h
  · exact h

theorem execStageInDone_kept {K : Keep} {s : State} (leg : Fin 131072) (h : Kept K s) : ∃ u, execStageInDone leg s = .next u ∧ Kept K u := by
  refine ⟨_, rfl, ?_⟩
  split
  · exact h
  · exact kept_ite h (State.frameStaged_kept _ _ (State.stageEnds_kept _ h))

theorem execDmaDescComplete_kept {K : Keep} {s : State} (ring : Fin 256) (h : Kept K s) : ∃ u, execDmaDescComplete ring s = .next u ∧ Kept K u := by
  refine ⟨_, rfl, ?_⟩; repeat' (first
      | with_reducible (first
          | assumption | rfl | refine kept_ite ?_ ?_ | apply State.moved_kept | apply State.kennelDone_kept | apply State.freeArea_kept
          | apply State.descDone_kept | apply State.bump_kept | apply State.dengRest_kept | apply State.takeDescs_kept | apply State.finishDesc_kept)
      | refine kept_foldl (fun _ _ _ => ?_) _ ?_ | dsimp only | split | assumption)

theorem execReplayRestageDone_kept {K : Keep} {s : State} (leg : Fin 131072) (h : Kept K s) : ∃ u, execReplayRestageDone leg s = .next u ∧ Kept K u := by
  refine ⟨_, rfl, ?_⟩; repeat' (first
      | with_reducible (first
          | assumption | rfl | refine kept_ite ?_ ?_ | apply State.moved_kept | apply State.setTask_kept | apply State.makeReady_kept
          | apply State.dengRest_kept | apply State.restageEnds_kept | apply State.bump_kept)
      | refine kept_foldl (fun _ _ _ => ?_) _ ?_ | dsimp only | split | assumption)

theorem State.parkArea_kept {K : Keep} {s : State} (a : Area) (h : Kept K s) : Kept K (s.parkArea a).1 :=
  State.countPark_kept _ (State.writeCompletion_kept _ _ _ _ (State.putArea_kept _ _ (State.drawn_kept h)))

theorem State.parkArea_kept_of {K : Keep} {s u : State} {a : Area} {n : Nat} (e : s.parkArea a = (u, n)) (h : Kept K s) : Kept K u := by
  have h1 := State.parkArea_kept a h
  rw [e] at h1; exact h1

theorem State.parkRestage_kept {K : Keep} {s : State} (k : Task) (e : Nat) (h : Kept K s) : Kept K (s.parkRestage k e).1 := by
  have h1 := State.postArea_kept (restageArea k e) h
  unfold State.parkRestage
  generalize s.postArea (restageArea k e) = p at h1 ⊢
  exact State.parkArea_kept _ (State.pinArea_kept _ _ (State.setMmu_kept h1 rfl))

theorem execDmaDescPark_kept {K : Keep} {s : State} (ring : Fin 256) (h : Kept K s) : ∃ u, execDmaDescPark ring s = .next u ∧ Kept K u := by
  refine ⟨_, rfl, ?_⟩
  dsimp only
  refine kept_ite ?_ (kept_ite ?_ ?_)
  · split
    · exact kept_ite (State.legFault_kept _ _ _ _ _ (State.parkArea_kept _ h)) h
    · exact h
  · split
    · exact State.onFault_kept _ _ _ _ _ (State.parkRestage_kept _ _ h)
    · split
      · rename_i a _
        have h1 := State.parkArea_kept a h
        refine kept_ite ?_ h
        split
        · exact kept_ite (State.onFault_kept _ _ _ _ _ h1) (State.legFault_kept _ _ _ _ _ h1)
        · exact State.legFault_kept _ _ _ _ _ h1
      · exact h
  · split
    · exact State.parkTask_kept _ _ (State.countPark_kept _ (State.setDesc_kept _ _ (State.writeCompletion_kept _ _ _ _ h)))
    · split
      · exact h
      · refine kept_ite h (State.parkTask_kept _ _ (State.countPark_kept _ (State.moved_kept _ _ (State.setDesc_kept _ _ (State.writeCompletion_kept _ _ _ _ ?_)))))
        split
        · exact State.copyBytes_kept _ _ _ _ _ _ (State.drawn_kept h)
        · exact State.drawn_kept h

theorem execMmuParkResume_kept {K : Keep} {s : State} (ring : Fin 256) (h : Kept K s) : ∃ u, execMmuParkResume ring s = .next u ∧ Kept K u := by
  refine ⟨_, rfl, ?_⟩; repeat' (first
      | with_reducible (first
          | assumption | rfl | refine kept_ite ?_ ?_ | apply State.setDesc_kept | apply State.putArea_kept | apply State.bump_kept
          | apply State.setAreaSt_kept)
      | refine kept_foldl (fun _ _ _ => ?_) _ ?_ | dsimp only | split | assumption)

theorem execMmuParkAbort_kept {K : Keep} {s : State} (ring : Fin 256) (h : Kept K s) : ∃ u, execMmuParkAbort ring s = .next u ∧ Kept K u := by
  refine ⟨_, rfl, ?_⟩; repeat' (first
      | with_reducible (first
          | assumption | rfl | refine kept_ite ?_ ?_ | apply State.setDesc_kept | apply State.kennelDone_kept | apply State.freeArea_kept
          | apply State.bump_kept)
      | refine kept_foldl (fun _ _ _ => ?_) _ ?_ | dsimp only | split | assumption)

theorem execMmuRingTailWrite_kept {K : Keep} {s : State} (ring : Fin 256) (cfg : Option RingSetup) (by_ : Option (Fin 128)) (descs : List Bytes) (v : Word) (h : Kept K s) : ∃ u, execMmuRingTailWrite ring cfg by_ descs v s = .next u ∧ Kept K u := by
  refine ⟨_, rfl, ?_⟩; repeat' (first
      | with_reducible (first
          | assumption | rfl | refine kept_ite ?_ ?_ | apply State.take_kept | apply State.setDring_kept | apply State.vwrite_kept
          | apply State.takeDescs_kept | apply State.ringCfg_kept)
      | refine kept_foldl (fun _ _ _ => ?_) _ ?_ | dsimp only | split | assumption)

theorem execMmuDmaEnWrite_kept {K : Keep} {s : State} (eng : Fin 32) (v : Word) (h : Kept K s) : ∃ u, execMmuDmaEnWrite eng v s = .next u ∧ Kept K u := by
  refine ⟨_, rfl, ?_⟩; repeat' (first
      | with_reducible (first
          | assumption | rfl | refine kept_ite ?_ ?_ | apply State.setDeng_kept | apply State.takeDescs_kept | apply State.dengRest_kept
          | apply State.startStages_kept)
      | refine kept_foldl (fun _ _ _ => ?_) _ ?_ | dsimp only | split | assumption)

theorem execMmuMoveGo_kept {K : Keep} {s : State} (v : Word) (va0 : BitVec 48) (pa0 : BitVec 40) (h : Kept K s) : ∃ u, execMmuMoveGo v va0 pa0 s = .next u ∧ Kept K u := by
  refine ⟨_, rfl, ?_⟩; repeat' (first
      | with_reducible (first
          | assumption | rfl | refine kept_ite ?_ ?_ | apply State.tlbDrop_kept | apply State.writeEntry_kept | apply State.setMmu_kept
          | apply State.setFld_kept | apply State.bump_kept)
      | refine kept_foldl (fun _ _ _ => ?_) _ ?_ | dsimp only | split | assumption)

theorem execMmuInvGo_kept {K : Keep} {sf : State} (v : Word) (va0 : BitVec 48) (fw : FwWrites) (h : Kept K sf) : ∃ u, execMmuInvGo v va0 fw sf = .next u ∧ Kept K u := by
  refine ⟨_, rfl, ?_⟩; repeat' (first
      | with_reducible (first
          | assumption | rfl | refine kept_ite ?_ ?_ | apply State.fwWrite_kept | apply State.setMmu_kept | apply State.setFld_kept)
      | refine kept_foldl (fun _ _ _ => ?_) _ ?_ | dsimp only | split | assumption)

theorem execInvalidationDone_kept {K : Keep} {s : State} (h : Kept K s) : ∃ u, execInvalidationDone s = .next u ∧ Kept K u := by
  refine ⟨_, rfl, ?_⟩; repeat' (first
      | with_reducible (first
          | assumption | rfl | refine kept_ite ?_ ?_ | apply State.tlbDrop_kept | apply State.setMmu_kept | apply State.setFld_kept
          | apply State.bump_kept)
      | refine kept_foldl (fun _ _ _ => ?_) _ ?_ | dsimp only | split | assumption)

theorem execCoreTransitAccess_kept {K : Keep} {s : State} (core : Fin 128) (va : BitVec 48) (h : Kept K s) : ∃ u, execCoreTransitAccess core va s = .next u ∧ Kept K u := by
  refine ⟨_, rfl, ?_⟩; repeat' (first
      | with_reducible (first
          | assumption | rfl | refine kept_ite ?_ ?_ | apply State.coreAccess_kept | apply State.blockRun_kept | apply State.coreLookup_kept
          | apply State.bump_kept)
      | refine kept_foldl (fun _ _ _ => ?_) _ ?_ | dsimp only | split | assumption)

end Sys2Proof.Machine
end

