-- ==== Sys2Proof/Laws/KeptService.lean ====
section
/-! SUPPORT. Host keys, baler, gleaner, persistent store, reports, start and shutdown: what each operation and each command keeps (`Kept`). -/

set_option linter.unreachableTactic false
set_option linter.unusedTactic false

namespace Sys2Proof.Machine

open Sys2Proof

/-! ### What `Machine/Kennel.lean` keeps -/

theorem State.engWork_kept {K : Keep} {s : State} (k : Nat) (n : Nat) (h : Kept K s) : Kept K (State.engWork s k n) := by
  unfold State.engWork; repeat' (first | with_reducible (first | assumption | rfl | refine kept_ite ?_ ?_) | dsimp only | split | assumption)

theorem State.chainBegun_kept {K : Keep} {s : State} (l : Nat) (n : Nat) (c : Chain) (h : Kept K s) : Kept K (State.chainBegun s l n c) := by
  unfold State.chainBegun; repeat' (first
      | with_reducible (first
          | assumption | rfl | refine kept_ite ?_ ?_ | apply State.setLeg_kept)
      | dsimp only | split | assumption)

theorem State.echoBegun_kept {K : Keep} {s : State} (l : Nat) (h : Kept K s) : Kept K (State.echoBegun s l) := by
  unfold State.echoBegun; repeat' (first
      | with_reducible (first
          | assumption | rfl | refine kept_ite ?_ ?_ | apply State.setLeg_kept)
      | dsimp only | split | assumption)

theorem State.fceRun_kept {K : Keep} {s : State} (c : CallAt) (e : Nat) (now : Nat) (h : Kept K s) : Kept K (State.fceRun s c e now) := by
  unfold State.fceRun; repeat' (first
      | with_reducible (first
          | assumption | rfl | refine kept_ite ?_ ?_ | apply State.engWork_kept | apply State.chainBegun_kept | apply State.setTask_kept
          | apply State.bumpBy_kept | apply State.bump_kept | apply State.raise_kept)
      | dsimp only | split | assumption)

theorem State.eceRun_kept {K : Keep} {s : State} (c : CallAt) (e : Nat) (h : Kept K s) : Kept K (State.eceRun s c e) := by
  unfold State.eceRun; repeat' (first
      | with_reducible (first
          | assumption | rfl | refine kept_ite ?_ ?_ | apply State.held_kept | apply State.engWork_kept | apply State.echoBegun_kept
          | apply State.setTask_kept | apply State.bumpBy_kept | apply State.bump_kept | apply State.raise_kept | apply State.setFld_kept)
      | dsimp only | split | assumption)

theorem State.callRun_kept {K : Keep} {s : State} (q : EngCall) (h : Kept K s) : Kept K (State.callRun s q) := by
  unfold State.callRun; repeat' (first
      | with_reducible (first
          | assumption | rfl | refine kept_ite ?_ ?_ | apply State.fceRun_kept | apply State.eceRun_kept | apply State.dropCall_kept)
      | dsimp only | split | assumption)

theorem State.callEnd_kept {K : Keep} {s : State} (i : Nat) (h : Kept K s) : Kept K (State.callEnd s i) := by
  unfold State.callEnd; repeat' (first
      | with_reducible (first
          | assumption | rfl | refine kept_ite ?_ ?_ | apply State.callRun_kept)
      | refine kept_foldl (fun _ _ _ => ?_) _ ?_ | dsimp only | split | assumption)

theorem State.callsEnd_kept {K : Keep} {s : State} (core : Nat) (h : Kept K s) : Kept K (State.callsEnd s core) := by
  unfold State.callsEnd; repeat' (first
      | with_reducible (first
          | assumption | rfl | refine kept_ite ?_ ?_ | apply State.callEnd_kept)
      | dsimp only | split | assumption)

theorem State.callTo_kept {K : Keep} {s : State} (k : Nat) (c : CallAt) (swap : Option Swap) (h : Kept K s) : Kept K (State.callTo s k c swap) := by
  unfold State.callTo; repeat' (first
      | with_reducible (first
          | assumption | rfl | refine kept_ite ?_ ?_ | apply State.setTask_kept)
      | dsimp only | split | assumption)

theorem State.cutFor_kept {K : Keep} {s : State} (cls : Nat) (e : Nat) (cut : Bool) (h : Kept K s) : Kept K (State.cutFor s cls e cut) := by
  unfold State.cutFor; repeat' (first
      | with_reducible (first
          | assumption | rfl | refine kept_ite ?_ ?_ | apply State.cutSlice_kept)
      | dsimp only | split | assumption)

theorem State.callCancel_kept {K : Keep} {s : State} (i : Nat) (h : Kept K s) : Kept K (State.callCancel s i) := by
  unfold State.callCancel; repeat' (first
      | with_reducible (first
          | assumption | rfl | refine kept_ite ?_ ?_ | apply State.bump_kept | apply State.raise_kept)
      | dsimp only | split | assumption)

theorem State.mediaDone_kept {K : Keep} {s : State} (i : Nat) (t : Task) (l : Nat) (core : Nat) (w : Work) (h : Kept K s) : Kept K (State.mediaDone s i t l core w) := by
  unfold State.mediaDone; repeat' (first
      | with_reducible (first
          | assumption | rfl | refine kept_ite ?_ ?_ | apply State.giveFrame_kept | apply State.setTask_kept | apply State.setLeg_kept
          | apply State.settleFaults_kept | apply State.bump_kept)
      | dsimp only | split | assumption)

theorem State.taskEnd_kept {K : Keep} {s : State} (c : Nat) (h : Kept K s) : Kept K (State.taskEnd s c) := by
  unfold State.taskEnd; repeat' (first
      | with_reducible (first
          | assumption | rfl | refine kept_ite ?_ ?_ | apply State.callsEnd_kept | apply State.mediaDone_kept | apply State.freeTask_kept
          | apply State.coreTake_kept | apply State.giveFrame_kept | apply State.bpRelease_kept | apply State.unpack_kept)
      | dsimp only | split | assumption)

theorem State.holdDis_kept {K : Keep} {s : State} (u : Nat) (on : Bool) (h : Kept K s) : Kept K (State.holdDis s u on) := by
  unfold State.holdDis; repeat' (first
      | with_reducible (first
          | assumption | rfl | refine kept_ite ?_ ?_)
      | dsimp only | split | assumption)

theorem State.setFceFn_kept {K : Keep} {s : State} (e : Nat) (f : Fn) (fault : Bool) (h : Kept K s) : Kept K (State.setFceFn s e f fault) := by
  unfold State.setFceFn; repeat' (first
      | with_reducible (first
          | assumption | rfl | refine kept_ite ?_ ?_ | apply State.holdDis_kept | apply State.setFld_kept | apply State.report_kept
          | apply State.reportFault_kept)
      | dsimp only | split | assumption)

theorem State.setEceFn_kept {K : Keep} {s : State} (e : Nat) (f : Fn) (fault : Bool) (h : Kept K s) : Kept K (State.setEceFn s e f fault) := by
  unfold State.setEceFn; repeat' (first
      | with_reducible (first
          | assumption | rfl | refine kept_ite ?_ ?_ | apply State.holdDis_kept | apply State.setFld_kept | apply State.report_kept
          | apply State.reportFault_kept)
      | dsimp only | split | assumption)

theorem State.fceTick_kept {K : Keep} {s : State} (e : Nat) (h : Kept K s) : Kept K (State.fceTick s e) := by
  unfold State.fceTick; repeat' (first
      | with_reducible (first
          | assumption | rfl | refine kept_ite ?_ ?_ | apply State.setFceFn_kept)
      | dsimp only | split | assumption)

theorem State.eceTick_kept {K : Keep} {s : State} (e : Nat) (h : Kept K s) : Kept K (State.eceTick s e) := by
  unfold State.eceTick; repeat' (first
      | with_reducible (first
          | assumption | rfl | refine kept_ite ?_ ?_ | apply State.setEceFn_kept)
      | dsimp only | split | assumption)

theorem fceEffect_kept {K : Keep} {s : State} (a : Nat) (_old : Nat) (v : Nat) (h : Kept K s) : Kept K (fceEffect s a _old v) := by
  unfold fceEffect; repeat' (first
      | with_reducible (first
          | assumption | rfl | refine kept_ite ?_ ?_ | apply State.setFld_kept)
      | dsimp only | split | assumption)

theorem eceEffect_kept {K : Keep} {s : State} (a : Nat) (_old : Nat) (v : Nat) (h : Kept K s) : Kept K (eceEffect s a _old v) := by
  unfold eceEffect; repeat' (first
      | with_reducible (first
          | assumption | rfl | refine kept_ite ?_ ?_ | apply State.setFld_kept)
      | dsimp only | split | assumption)

theorem execFceCall_kept {K : Keep} {s : State} (core : Fin 128) (eng : Fin 32) (h : Kept K s) : ∃ u, execFceCall core eng s = .next u ∧ Kept K u := by
  refine ⟨_, rfl, ?_⟩; repeat' (first
      | with_reducible (first
          | assumption | rfl | refine kept_ite ?_ ?_ | apply State.callsEnd_kept | apply State.callTo_kept | apply State.cutFor_kept
          | apply State.fceRun_kept)
      | refine kept_foldl (fun _ _ _ => ?_) _ ?_ | dsimp only | split | assumption)

theorem execEceCall_kept {K : Keep} {s : State} (core : Fin 128) (eng : Fin 32) (h : Kept K s) : ∃ u, execEceCall core eng s = .next u ∧ Kept K u := by
  refine ⟨_, rfl, ?_⟩; repeat' (first
      | with_reducible (first
          | assumption | rfl | refine kept_ite ?_ ?_ | apply State.callsEnd_kept | apply State.callTo_kept | apply State.cutFor_kept
          | apply State.setFld_kept | apply State.bumpBy_kept | apply State.cutSlice_kept | apply State.eceRun_kept)
      | refine kept_foldl (fun _ _ _ => ?_) _ ?_ | dsimp only | split | assumption)

theorem execEngineParity_kept {K : Keep} {s : State} (core : Fin 128) (h : Kept K s) : ∃ u, execEngineParity core s = .next u ∧ Kept K u := by
  refine ⟨_, rfl, ?_⟩; repeat' (first
      | with_reducible (first
          | assumption | rfl | refine kept_ite ?_ ?_ | apply State.faultAt_kept | apply State.bump_kept)
      | refine kept_foldl (fun _ _ _ => ?_) _ ?_ | dsimp only | split | assumption)

theorem execTaskDone_kept {K : Keep} {s : State} (core : Fin 128) (made : List SysMake) (h : Kept K s) : ∃ u, execTaskDone core made s = .next u ∧ Kept K u := by
  refine ⟨_, rfl, ?_⟩; repeat' (first
      | with_reducible (first
          | assumption | rfl | refine kept_ite ?_ ?_ | apply State.taskEnd_kept | apply State.makeSys_kept | apply State.sysFreed_kept
          | apply State.coreTake_kept | apply State.mediaDone_kept | apply State.freeTask_kept | apply State.giveFrame_kept | apply State.unpack_kept
          | apply State.bpRelease_kept)
      | refine kept_foldl (fun _ _ _ => ?_) _ ?_ | dsimp only | split | assumption)

theorem execFceCfgEnWrite_kept {K : Keep} {s : State} (e : Fin 16) (v : Word) (h : Kept K s) : ∃ u, execFceCfgEnWrite e v s = .next u ∧ Kept K u := by
  refine ⟨_, rfl, ?_⟩; repeat' (first
      | with_reducible (first
          | assumption | rfl | refine kept_ite ?_ ?_ | apply State.setFceFn_kept | apply State.setFld_kept)
      | refine kept_foldl (fun _ _ _ => ?_) _ ?_ | dsimp only | split | assumption)

theorem execEceCfgEnWrite_kept {K : Keep} {s : State} (e : Fin 32) (v : Word) (h : Kept K s) : ∃ u, execEceCfgEnWrite e v s = .next u ∧ Kept K u := by
  refine ⟨_, rfl, ?_⟩; repeat' (first
      | with_reducible (first
          | assumption | rfl | refine kept_ite ?_ ?_ | apply State.setEceFn_kept | apply State.setFld_kept)
      | refine kept_foldl (fun _ _ _ => ?_) _ ?_ | dsimp only | split | assumption)

/-! ### What `Machine/Rx.lean` keeps -/

theorem State.rxAccept_kept {K : Keep} {s : State} (p : Nat) (b : Bytes) (stamp : Inst) (h : Kept K s) : Kept K (State.rxAccept s p b stamp) := by
  unfold State.rxAccept; repeat' (first
      | with_reducible (first
          | assumption | rfl | refine kept_ite ?_ ?_ | apply State.capFrame_kept | apply State.xoffCheck_kept | apply State.setDring_kept
          | apply State.bump_kept | apply State.bump64_kept | apply State.raise_kept | apply State.setPort_kept)
      | dsimp only | split | assumption)

theorem State.rxOversize_kept {K : Keep} {s : State} (w : RxWire) (h : Kept K s) : Kept K (State.rxOversize s w) := by
  unfold State.rxOversize; repeat' (first
      | with_reducible (first
          | assumption | rfl | refine kept_ite ?_ ?_ | apply State.take_kept | apply State.setDring_kept | apply State.fillRx_kept
          | apply State.abandon_kept)
      | dsimp only | split | refine State.fillRx_kept_of ‹_› ?_ | assumption)

theorem State.fecCount_kept {K : Keep} {s : State} (w : RxWire) (h : Kept K s) : Kept K (State.fecCount s w) := by
  unfold State.fecCount; repeat' (first
      | with_reducible (first
          | assumption | rfl | refine kept_ite ?_ ?_ | apply State.bumpBy_kept)
      | dsimp only | split | assumption)

theorem State.rxRows_kept {K : Keep} {s : State} (w : RxWire) (h : Kept K s) : Kept K (State.rxRows s w) := by
  unfold State.rxRows; repeat' (first
      | with_reducible (first
          | assumption | rfl | refine kept_ite ?_ ?_ | apply State.pfcRx_kept | apply State.pauseRx_kept | apply State.setQcp_kept
          | apply State.bump_kept | apply State.rxAccept_kept | apply State.rxOversize_kept)
      | dsimp only | split | assumption)

theorem execMacRxFrame_kept {K : Keep} {s : State} (w : RxWire) (h : Kept K s) : ∃ u, execMacRxFrame w s = .next u ∧ Kept K u :=
  ⟨_, rfl, kept_ite h (State.rxRows_kept _ (State.fecCount_kept _ h))⟩

/-! ### What `Machine/Tick.lean` keeps -/

theorem State.fnTick_kept {K : Keep} {s : State} (h : Kept K s) : Kept K (State.fnTick s) := by
  unfold State.fnTick; repeat' (first
      | with_reducible (first
          | assumption | rfl | refine kept_ite ?_ ?_ | apply State.fceTick_kept | apply State.eceTick_kept)
      | refine kept_foldl (fun _ _ _ => ?_) _ ?_ | dsimp only | split | assumption)

theorem execTmuTick_kept {K : Keep} {s : State} (h : Kept K s) : ∃ u, execTmuTick s = .next u ∧ Kept K u := by
  refine ⟨_, rfl, ?_⟩; repeat' (first
      | with_reducible (first
          | assumption | rfl | refine kept_ite ?_ ?_ | apply State.fnTick_kept | apply State.tick_kept)
      | refine kept_foldl (fun _ _ _ => ?_) _ ?_ | dsimp only | split | assumption)

/-! ### What `Machine/Bal.lean` keeps -/

theorem State.setBal_kept {K : Keep} {s : State} (x : Bal) (h : Kept K s) : Kept K (State.setBal s x) := by
  unfold State.setBal; repeat' (first | with_reducible (first | assumption | rfl | refine kept_ite ?_ ?_) | dsimp only | split | assumption)

theorem State.setBeng_kept {K : Keep} {s : State} (e : Nat) (x : BEng) (h : Kept K s) : Kept K (State.setBeng s e x) := by
  unfold State.setBeng; repeat' (first
      | with_reducible (first
          | assumption | rfl | refine kept_ite ?_ ?_ | apply State.setBal_kept | apply State.report_kept)
      | dsimp only | split | assumption)

theorem State.setBring_kept {K : Keep} {s : State} (k : Nat) (x : BRing) (h : Kept K s) : Kept K (State.setBring s k x) := by
  unfold State.setBring; repeat' (first
      | with_reducible (first
          | assumption | rfl | refine kept_ite ?_ ?_ | apply State.setBal_kept)
      | dsimp only | split | assumption)

theorem State.balTake_kept_of {K : Keep} {s u : State} {e : Nat} (hb : s.balTake e = some u) (h : Kept K s) : Kept K u := by
  simp only [State.balTake] at hb
  split at hb
  · cases hb
  · split at hb
    · cases hb; exact h
    · split at hb
      · cases hb
      · cases hb; exact State.cutSlice_kept _ _ h

theorem State.bput_kept {K : Keep} (ctx : Nat) (ents : List (Nat × Nat)) : ∀ (b : Bytes) (p : Nat) {s : State}, Kept K s →
    Kept K (State.bput ctx ents b p s).1
  | [], _, _, h => h
  | v :: r, p, s, h => by
    simp only [State.bput]
    split
    · exact h
    · exact bput_kept ctx ents r _ (State.memSet_kept h)

theorem State.bput_kept_of {K : Keep} {ctx p : Nat} {ents : List (Nat × Nat)} {b : Bytes} {s u : State} {y : Bool}
    (e : State.bput ctx ents b p s = (u, y)) (h : Kept K s) : Kept K u := by
  have h1 := State.bput_kept ctx ents b p h
  rw [e] at h1; exact h1

theorem State.balRun_kept {K : Keep} {s : State} (j : BJob) (st : BStop) (new : List (Nat × Nat)) (mismatch : Bool) (h : Kept K s) : Kept K (State.balRun s j st new mismatch).1 := by
  unfold State.balRun; repeat' (first
      | with_reducible (first
          | assumption | rfl | refine kept_ite ?_ ?_ | apply State.raise_kept | apply State.bump_kept | apply State.bput_kept
          | apply State.setBal_kept)
      | dsimp only | split | refine State.bput_kept_of ‹_› ?_ | assumption)

theorem State.balRun_kept_of {K : Keep} {s vv : State} {j : BJob} {st : BStop} {new : List (Nat × Nat)} {mismatch : Bool} {y : BJob} (e : State.balRun s j st new mismatch = (vv, y)) (h : Kept K s) : Kept K vv := by
  have h1 := State.balRun_kept j st new mismatch h
  rw [e] at h1; exact h1

theorem State.balStart_kept {K : Keep} {s : State} {e want : Nat} {mismatch : Bool} (h : Kept K s) : Kept K (s.balStart e want mismatch) := by
  simp only [State.balStart]
  split
  · exact h
  · split
    · exact h
    · rename_i s1 hs
      have h1 := State.balTake_kept_of hs h
      repeat' (first
          | with_reducible (first
              | assumption | refine kept_ite ?_ ?_ | apply State.setBeng_kept | apply State.balRun_kept | apply State.bump_kept
              | apply State.setBring_kept)
          | split)

theorem State.balEnd_kept {K : Keep} {s : State} (e : Nat) (j : BJob) (h : Kept K s) : Kept K (State.balEnd s e j) := by
  unfold State.balEnd; repeat' (first
      | with_reducible (first
          | assumption | rfl | refine kept_ite ?_ ?_ | apply State.setBeng_kept | apply State.vwrite_kept | apply State.bumpBy_kept
          | apply State.bump_kept | apply State.raise_kept)
      | dsimp only | split | assumption)

theorem State.balFail_kept {K : Keep} {s : State} (e : Nat) (h : Kept K s) : Kept K (State.balFail s e) := by
  unfold State.balFail; repeat' (first
      | with_reducible (first
          | assumption | rfl | refine kept_ite ?_ ?_ | apply State.setBeng_kept | apply State.balEnd_kept | apply State.raise_kept)
      | dsimp only | split | assumption)

theorem balEffect_kept {K : Keep} {s : State} (a : Nat) (_old : Nat) (v : Nat) (h : Kept K s) : Kept K (balEffect s a _old v) := by
  unfold balEffect; repeat' (first
      | with_reducible (first
          | assumption | rfl | refine kept_ite ?_ ?_ | apply State.setBeng_kept)
      | refine kept_foldl (fun _ _ _ => ?_) _ ?_ | dsimp only | split | assumption)

theorem execBalerCompress_kept {K : Keep} {s : State} (eng : Fin 4) (mismatch : Bool) (h : Kept K s) : ∃ u, execBalerCompress eng mismatch s = .next u ∧ Kept K u := by
  refine ⟨_, rfl, ?_⟩; repeat' (first
      | with_reducible (first
          | assumption | rfl | refine kept_ite ?_ ?_ | apply State.balStart_kept)
      | refine kept_foldl (fun _ _ _ => ?_) _ ?_ | dsimp only | split | assumption)

theorem execBalerDecompress_kept {K : Keep} {s : State} (eng : Fin 4) (h : Kept K s) : ∃ u, execBalerDecompress eng s = .next u ∧ Kept K u := by
  refine ⟨_, rfl, ?_⟩; repeat' (first
      | with_reducible (first
          | assumption | rfl | refine kept_ite ?_ ?_ | apply State.balStart_kept)
      | refine kept_foldl (fun _ _ _ => ?_) _ ?_ | dsimp only | split | assumption)

theorem execBalerResume_kept {K : Keep} {s : State} (eng : Fin 4) (mismatch : Bool) (h : Kept K s) : ∃ u, execBalerResume eng mismatch s = .next u ∧ Kept K u := by
  refine ⟨_, rfl, ?_⟩; repeat' (first
      | with_reducible (first
          | assumption | rfl | refine kept_ite ?_ ?_ | apply State.balStart_kept)
      | refine kept_foldl (fun _ _ _ => ?_) _ ?_ | dsimp only | split | assumption)

theorem execBalerJobEnd_kept {K : Keep} {s : State} (eng : Fin 4) (parity : Bool) (h : Kept K s) : ∃ u, execBalerJobEnd eng parity s = .next u ∧ Kept K u := by
  refine ⟨_, rfl, ?_⟩; repeat' (first
      | with_reducible (first
          | assumption | rfl | refine kept_ite ?_ ?_ | apply State.balEnd_kept | apply State.bump_kept)
      | refine kept_foldl (fun _ _ _ => ?_) _ ?_ | dsimp only | split | assumption)

theorem execBalCfgEnWrite_kept {K : Keep} {s : State} (v : Word) (h : Kept K s) : ∃ u, execBalCfgEnWrite v s = .next u ∧ Kept K u := by
  refine ⟨_, rfl, ?_⟩; repeat' (first
      | with_reducible (first
          | assumption | rfl | refine kept_ite ?_ ?_ | apply State.setFld_kept | apply State.setBeng_kept)
      | refine kept_foldl (fun _ _ _ => ?_) _ ?_ | dsimp only | split | assumption)

theorem execBalRingTailWrite_kept {K : Keep} {s : State} (ring : Fin 4) (jobs : List Bytes) (v : Word) (h : Kept K s) : ∃ u, execBalRingTailWrite ring jobs v s = .next u ∧ Kept K u := by
  refine ⟨_, rfl, ?_⟩; repeat' (first
      | with_reducible (first
          | assumption | rfl | refine kept_ite ?_ ?_ | apply State.setBring_kept | apply State.take_kept | apply State.vwrite_kept)
      | refine kept_foldl (fun _ _ _ => ?_) _ ?_ | dsimp only | split | assumption)

/-! ### What `Machine/Gln.lean` keeps -/

theorem State.fabUse_kept {K : Keep} {s : State} (n : Nat) (h : Kept K s) : Kept K (State.fabUse s n) := by
  unfold State.fabUse; repeat' (first
      | with_reducible (first
          | assumption | rfl | refine kept_ite ?_ ?_)
      | dsimp only | split | assumption)

theorem State.capHold_kept {K : Keep} {s : State} (k : Nat) (h : Kept K s) : Kept K (State.capHold s k) := by
  unfold State.capHold; repeat' (first
      | with_reducible (first
          | assumption | rfl | refine kept_ite ?_ ?_ | apply State.bump_kept | apply State.raise_kept | apply State.setBgw_kept)
      | dsimp only | split | assumption)

theorem State.cutAny_kept {K : Keep} {s : State} (r : Slice) (cause : Nat) (h : Kept K s) : Kept K (State.cutAny s r cause) := by
  unfold State.cutAny; repeat' (first
      | with_reducible (first
          | assumption | rfl | refine kept_ite ?_ ?_ | apply State.cutSlice_kept | apply State.coreTake_kept | apply State.setCore_kept)
      | dsimp only | split | assumption)

theorem State.cutAll_kept {K : Keep} {s : State} (cause : Nat) (h : Kept K s) : Kept K (State.cutAll s cause) := by
  unfold State.cutAll; repeat' (first
      | with_reducible (first
          | assumption | rfl | refine kept_ite ?_ ?_ | apply State.cutAny_kept)
      | refine kept_foldl (fun _ _ _ => ?_) _ ?_ | dsimp only | split | assumption)

theorem State.noteOut_kept {K : Keep} {s : State} (cls : Nat) (idx : Nat) (out : Bool) (h : Kept K s) : Kept K (State.noteOut s cls idx out) := by
  unfold State.noteOut; repeat' (first
      | with_reducible (first
          | assumption | rfl | refine kept_ite ?_ ?_ | apply State.setNv_kept)
      | dsimp only | split | assumption)

theorem State.coverEnd_kept {K : Keep} {s : State} (mem : Bool) (h : Kept K s) : Kept K (State.coverEnd s mem) := by
  unfold State.coverEnd; repeat' (first
      | with_reducible (first
          | assumption | rfl | refine kept_ite ?_ ?_ | apply State.setGln_kept | apply State.setFld_kept | apply State.bump_kept
          | apply State.raise_kept)
      | dsimp only | split | assumption)

theorem State.coverSlice_kept {K : Keep} {s : State} (cls : Nat) (idx : Nat) (num : Nat) (h : Kept K s) : Kept K (State.coverSlice s cls idx num) := by
  unfold State.coverSlice; repeat' (first
      | with_reducible (first
          | assumption | rfl | refine kept_ite ?_ ?_ | apply State.coverEnd_kept | apply State.setUnitT_kept | apply State.setFld_kept)
      | dsimp only | split | assumption)

theorem State.coverDrop_kept {K : Keep} {s : State} (cls : Nat) (idx : Nat) (h : Kept K s) : Kept K (State.coverDrop s cls idx) := by
  unfold State.coverDrop; repeat' (first
      | with_reducible (first
          | assumption | rfl | refine kept_ite ?_ ?_ | apply State.coverEnd_kept | apply State.setUnitT_kept | apply State.setFld_kept)
      | dsimp only | split | assumption)

theorem State.takeOut_kept {K : Keep} {s : State} (cls : Nat) (idx : Nat) (h : Kept K s) : Kept K (State.takeOut s cls idx) := by
  unfold State.takeOut; repeat' (first
      | with_reducible (first
          | assumption | rfl | refine kept_ite ?_ ?_ | apply State.balFail_kept | apply State.held_kept | apply State.onFault_kept
          | apply State.noteOut_kept | apply State.coverDrop_kept | apply State.setGln_kept | apply State.setUnitT_kept | apply State.setFceFn_kept
          | apply State.setEceFn_kept | apply State.setCore_kept | apply State.sysFreed_kept | apply State.dengFail_kept | apply State.bump_kept
          | apply State.raise_kept | apply State.setFld_kept)
      | refine kept_foldl (fun _ _ _ => ?_) _ ?_ | dsimp only | split | assumption)

theorem State.gleanFault_kept {K : Keep} {s : State} (cls : Nat) (idx : Nat) (unit : Nat) (h : Kept K s) : Kept K (State.gleanFault s cls idx unit) := by
  unfold State.gleanFault; repeat' (first
      | with_reducible (first
          | assumption | rfl | refine kept_ite ?_ ?_ | apply State.recordFault_kept | apply State.onFault_kept | apply State.wakeCores_kept
          | apply State.sysFreed_kept)
      | refine kept_foldl (fun _ _ _ => ?_) _ ?_ | dsimp only | split | assumption)

theorem State.unitStep_kept {K : Keep} {s : State} (cls : Nat) (idx : Nat) (num : Nat) (h : Kept K s) : Kept K (State.unitStep s cls idx num) := by
  unfold State.unitStep; repeat' (first
      | with_reducible (first
          | assumption | rfl | refine kept_ite ?_ ?_ | apply State.coverSlice_kept | apply State.takeOut_kept | apply State.setGln_kept
          | apply State.setUnitT_kept | apply State.passStep_kept)
      | dsimp only | split | assumption)

theorem State.logicEnd_kept {K : Keep} {s : State} (r : Slice) (sig : Bytes) (pass : Bool) (h : Kept K s) : Kept K (State.logicEnd s r sig pass) := by
  unfold State.logicEnd; repeat' (first
      | with_reducible (first
          | assumption | rfl | refine kept_ite ?_ ?_ | apply State.takeOut_kept | apply State.gleanFault_kept | apply State.unitStep_kept
          | apply State.setUnitT_kept | apply State.glnRecord_kept | apply State.dropSlice_kept | apply State.setCore_kept | apply State.coreTake_kept
          | apply State.bump_kept | apply State.raise_kept)
      | dsimp only | split | assumption)

theorem State.memEnd_kept {K : Keep} {s : State} (r : Slice) (err : Option MemErr) (h : Kept K s) : Kept K (State.memEnd s r err) := by
  unfold State.memEnd; repeat' (first
      | with_reducible (first
          | assumption | rfl | refine kept_ite ?_ ?_ | apply State.coverDrop_kept | apply State.takeOut_kept | apply State.gleanFault_kept
          | apply State.unitStep_kept | apply State.setGln_kept | apply State.setUnitT_kept | apply State.glnRecord_kept | apply State.dropSlice_kept
          | apply State.setNv_kept | apply State.bump_kept | apply State.raise_kept)
      | dsimp only | split | assumption)

theorem State.glnBack_kept {K : Keep} {s : State} (h : Kept K s) : Kept K (State.glnBack s) := by
  unfold State.glnBack; repeat' (first
      | with_reducible (first
          | assumption | rfl | refine kept_ite ?_ ?_ | apply State.setBeng_kept | apply State.setDeng_kept | apply State.noteOut_kept
          | apply State.setGln_kept | apply State.setUnitT_kept | apply State.setFceFn_kept | apply State.setEceFn_kept | apply State.setCore_kept
          | apply State.setFld_kept)
      | refine kept_foldl (fun _ _ _ => ?_) _ ?_ | dsimp only | split | assumption)

theorem glnEffect_kept {K : Keep} {s : State} (a : Nat) (_old : Nat) (v : Nat) (h : Kept K s) : Kept K (glnEffect s a _old v) := by
  unfold glnEffect; repeat' (first
      | with_reducible (first
          | assumption | rfl | refine kept_ite ?_ ?_ | apply State.cutAll_kept)
      | dsimp only | split | assumption)

theorem State.glnPop_kept {K : Keep} {s : State} (i2c : Bool) (h : Kept K s) : Kept K (State.glnPop s i2c) := by
  unfold State.glnPop; repeat' (first
      | with_reducible (first
          | assumption | rfl | refine kept_ite ?_ ?_ | apply State.setReg_kept | apply State.setGln_kept)
      | refine kept_foldl (fun _ _ _ => ?_) _ ?_ | dsimp only | split | assumption)

theorem opBistRequest_keeps : opBistRequest.Keeps := by
  intro K c pl s b h
  simp only [opBistRequest, OpDef.admin, Done.ok, Done.ok]; repeat' (first
      | with_reducible (first
          | assumption | rfl | refine kept_ite ?_ ?_ | apply State.setUnitT_kept | apply State.setGln_kept)
      | refine kept_foldl (fun _ _ _ => ?_) _ ?_ | dsimp only | split | assumption)

theorem opBistFuseArm_keeps : opBistFuseArm.Keeps := by
  intro K c pl s b h
  simp only [opBistFuseArm, Done.res, Done.res]; repeat' (first
      | with_reducible (first
          | assumption | rfl | refine kept_ite ?_ ?_ | apply State.drawn_kept | apply State.setGln_kept)
      | refine kept_foldl (fun _ _ _ => ?_) _ ?_ | dsimp only | split | assumption)

theorem opBistFuseConfirm_keeps : opBistFuseConfirm.Keeps := by
  intro K c pl s b h
  simp only [opBistFuseConfirm, OpDef.admin, Done.res, Done.res]; repeat' (first
      | with_reducible (first
          | assumption | rfl | refine kept_ite ?_ ?_ | apply State.setGln_kept | apply State.drawn_kept | apply State.setNv_kept)
      | refine kept_foldl (fun _ _ _ => ?_) _ ?_ | dsimp only | split | assumption)

theorem opBistLcArm_keeps : opBistLcArm.Keeps := by
  intro K c pl s b h
  simp only [opBistLcArm, OpDef.admin, Done.res, Done.res]; repeat' (first
      | with_reducible (first
          | assumption | rfl | refine kept_ite ?_ ?_ | apply State.drawn_kept | apply State.setGln_kept)
      | refine kept_foldl (fun _ _ _ => ?_) _ ?_ | dsimp only | split | assumption)

theorem opBistLcConfirm_keeps : opBistLcConfirm.Keeps := by
  intro K c pl s b h
  simp only [opBistLcConfirm, OpDef.admin, Done.ok, Done.ok]; repeat' (first
      | with_reducible (first
          | assumption | rfl | refine kept_ite ?_ ?_ | apply State.owe_kept | apply State.setGln_kept)
      | refine kept_foldl (fun _ _ _ => ?_) _ ?_ | dsimp only | split | assumption)

theorem opBistRepairList_keeps : opBistRepairList.Keeps := by
  intro K c pl s b h
  simp only [opBistRepairList, OpDef.ask, Done.res, Done.res]; repeat' (first
      | with_reducible (first
          | assumption | rfl | refine kept_ite ?_ ?_)
      | refine kept_foldl (fun _ _ _ => ?_) _ ?_ | dsimp only | split | assumption)

theorem opBistUnitStatus_keeps : opBistUnitStatus.Keeps := by
  intro K c pl s b h
  simp only [opBistUnitStatus, OpDef.ask, Done.res, Done.res]; repeat' (first
      | with_reducible (first
          | assumption | rfl | refine kept_ite ?_ ?_)
      | refine kept_foldl (fun _ _ _ => ?_) _ ?_ | dsimp only | split | assumption)

theorem execGlnSliceStart_kept {K : Keep} {s : State} (cls : Fin 7) (idx : Fin 128) (h : Kept K s) :
    ∃ u, execGlnSliceStart cls idx s = .next u ∧ Kept K u := by
  refine ⟨_, rfl, kept_ite h (kept_ite h (kept_ite h (kept_ite h (kept_ite h ?_))))⟩
  have h2 : ∀ g u, Kept K ((((s.setGln g).setUnitT cls.val idx.val u).setFld R.GLN_STAT_RUN 1).bump R.GLN_SLICE_CNT) := fun g u =>
    State.bump_kept _ (State.setFld_kept _ _ (State.setUnitT_kept _ _ _ (State.setGln_kept _ h)))
  have h3 : ∀ {c : Prop} [Decidable c] {a : State} {i : Nat} {x : Core}, Kept K a → Kept K (if c then a.setCore i x else a) :=
    fun ha => kept_ite (State.setCore_kept _ _ ha) ha
  have h4 : ∀ {a : State} {x : Bgw}, Kept K a → Kept K { a with bgw := x } := fun ha => ha
  exact kept_ite (h4 (h3 (h2 _ _))) (h3 (h2 _ _))

theorem execGlnSliceEnd_kept {K : Keep} {s : State} (r : SliceResult) (h : Kept K s) : ∃ u, execGlnSliceEnd r s = .next u ∧ Kept K u := by
  refine ⟨_, rfl, ?_⟩; repeat' (first
      | with_reducible (first
          | assumption | rfl | refine kept_ite ?_ ?_ | apply State.logicEnd_kept | apply State.memEnd_kept | apply State.cutAny_kept
          | apply State.coreTake_kept)
      | refine kept_foldl (fun _ _ _ => ?_) _ ?_ | dsimp only | split | assumption)

theorem execBistRequest_kept {K : Keep} {s : State} (q : Req) (h : Kept K s) : ∃ u, execBistRequest q s = .next u ∧ Kept K u := by
  refine ⟨_, rfl, ?_⟩; repeat' (first
      | with_reducible (first
          | assumption | rfl | refine kept_ite ?_ ?_)
      | refine kept_foldl (fun _ _ _ => ?_) _ ?_ | dsimp only | exact runOp_kept opBistRequest_keeps ‹_› | split | assumption)

theorem execBistFuseArm_kept {K : Keep} {s : State} (q : Req) (h : Kept K s) : ∃ u, execBistFuseArm q s = .next u ∧ Kept K u := by
  refine ⟨_, rfl, ?_⟩; repeat' (first
      | with_reducible (first
          | assumption | rfl | refine kept_ite ?_ ?_)
      | refine kept_foldl (fun _ _ _ => ?_) _ ?_ | dsimp only | exact runOp_kept opBistFuseArm_keeps ‹_› | split | assumption)

theorem execBistFuseConfirm_kept {K : Keep} {s : State} (q : Req) (h : Kept K s) : ∃ u, execBistFuseConfirm q s = .next u ∧ Kept K u := by
  refine ⟨_, rfl, ?_⟩; repeat' (first
      | with_reducible (first
          | assumption | rfl | refine kept_ite ?_ ?_)
      | refine kept_foldl (fun _ _ _ => ?_) _ ?_ | dsimp only | exact runOp_kept opBistFuseConfirm_keeps ‹_› | split | assumption)

theorem execBistLcArm_kept {K : Keep} {s : State} (q : Req) (h : Kept K s) : ∃ u, execBistLcArm q s = .next u ∧ Kept K u := by
  refine ⟨_, rfl, ?_⟩; repeat' (first
      | with_reducible (first
          | assumption | rfl | refine kept_ite ?_ ?_)
      | refine kept_foldl (fun _ _ _ => ?_) _ ?_ | dsimp only | exact runOp_kept opBistLcArm_keeps ‹_› | split | assumption)

theorem execBistLcConfirm_kept {K : Keep} {s : State} (q : Req) (h : Kept K s) : ∃ u, execBistLcConfirm q s = .next u ∧ Kept K u := by
  refine ⟨_, rfl, ?_⟩; repeat' (first
      | with_reducible (first
          | assumption | rfl | refine kept_ite ?_ ?_)
      | refine kept_foldl (fun _ _ _ => ?_) _ ?_ | dsimp only | exact runOp_kept opBistLcConfirm_keeps ‹_› | split | assumption)

theorem execBistRepairList_kept {K : Keep} {s : State} (q : Req) (h : Kept K s) : ∃ u, execBistRepairList q s = .next u ∧ Kept K u := by
  refine ⟨_, rfl, ?_⟩; repeat' (first
      | with_reducible (first
          | assumption | rfl | refine kept_ite ?_ ?_)
      | refine kept_foldl (fun _ _ _ => ?_) _ ?_ | dsimp only | exact runOp_kept opBistRepairList_keeps ‹_› | split | assumption)

theorem execBistUnitStatus_kept {K : Keep} {s : State} (q : Req) (h : Kept K s) : ∃ u, execBistUnitStatus q s = .next u ∧ Kept K u := by
  refine ⟨_, rfl, ?_⟩; repeat' (first
      | with_reducible (first
          | assumption | rfl | refine kept_ite ?_ ?_)
      | refine kept_foldl (fun _ _ _ => ?_) _ ?_ | dsimp only | exact runOp_kept opBistUnitStatus_keeps ‹_› | split | assumption)

/-! ### What `Machine/Prs.lean` keeps -/

theorem State.prsWrote_kept {K : Keep} {s : State} (n : Nat) (h : Kept K s) : Kept K (State.prsWrote s n) := by
  unfold State.prsWrote; repeat' (first | with_reducible (first | assumption | rfl | refine kept_ite ?_ ?_) | dsimp only | split | assumption)

theorem State.prsRead_kept {K : Keep} {s : State} (h : Kept K s) : Kept K (State.prsRead s) := by
  unfold State.prsRead; repeat' (first
      | with_reducible (first
          | assumption | rfl | refine kept_ite ?_ ?_ | apply State.bumpBy_kept | apply State.drawn_kept)
      | dsimp only | split | assumption)

theorem State.commitRec_kept_of {K : Keep} {s u : State} {r : JRec} (e : s.commitRec r = some u) (h : Kept K s) : Kept K u := by
  simp only [State.commitRec] at e
  split at e
  · cases e
  · cases e
    have h1 : Kept K (s.setNv { s.nv with recno := r.recno, jrnl := s.nv.jrnl ++ [r], sinceCk := s.nv.sinceCk + r.size }) :=
      State.setNv_kept h rfl rfl rfl rfl
    refine kept_ite (State.raise_kept _ _ ?_) ?_ <;> exact State.setReg_kept (State.prsWrote_kept _ h1)

theorem State.fateCommit_kept {K : Keep} {s : State} (session : Nat) (keyId : Nat) (seq : Nat) (h : Kept K s) : Kept K (State.fateCommit s session keyId seq) := by
  unfold State.fateCommit; repeat' (first
      | with_reducible (first
          | assumption | rfl | refine kept_ite ?_ ?_ | apply State.setNv_kept)
      | dsimp only | split | assumption)

theorem State.checkpoint_kept {K : Keep} {s : State} {forget : Bool} (h : Kept K s) : Kept K (s.checkpoint forget) := by
  have hp : ∀ (n : Nv) c, (n.putCkpt c).lc = n.lc ∧ (n.putCkpt c).lcNext = n.lcNext ∧ (n.putCkpt c).hostKeys = n.hostKeys ∧ (n.putCkpt c).boot = n.boot := by
    intro n c; simp only [Nv.putCkpt]; repeat' split
    all_goals exact ⟨rfl, rfl, rfl, rfl⟩
  simp only [State.checkpoint]
  refine State.setReg_kept (State.bump_kept _ ?_)
  show Kept K (s.setNv _)
  obtain ⟨a, b, c, d⟩ := hp s.nv ⟨s.nv.recno, if forget then [] else s.nv.config⟩
  cases forget
  · exact State.setNv_kept h a b c d
  · exact State.setNv_kept h a b c d

theorem State.ckptFail_kept {K : Keep} {s : State} (h : Kept K s) : Kept K (State.ckptFail s) := by
  unfold State.ckptFail; repeat' (first
      | with_reducible (first
          | assumption | rfl | refine kept_ite ?_ ?_ | apply State.raise_kept | apply State.bump_kept)
      | dsimp only | split | assumption)

theorem State.slogPut_kept {K : Keep} {s : State} (step : Nat) (alt : Nat) (outcome : Nat) (detail : Nat) (startUs : Nat) (durUs : Nat) (data : Nat) (h : Kept K s) : Kept K (State.slogPut s step alt outcome detail startUs durUs data) := by
  unfold State.slogPut; repeat' (first
      | with_reducible (first
          | assumption | rfl | refine kept_ite ?_ ?_ | apply State.setNv_kept | apply State.prsWrote_kept)
      | dsimp only | split | assumption)

theorem opPrsPartition_keeps : opPrsPartition.Keeps := by
  intro K c pl s b h
  simp only [opPrsPartition, OpDef.admin, Done.ok, Done.ok]; repeat' (first
      | with_reducible (first
          | assumption | rfl | refine kept_ite ?_ ?_ | apply State.setNv_kept)
      | dsimp only | split | assumption)

theorem opPrsCheckpoint_keeps : opPrsCheckpoint.Keeps := by
  intro K c pl s b h
  simp only [opPrsCheckpoint, OpDef.admin, Done.wait, Done.wait]; repeat' (first
      | with_reducible (first
          | assumption | rfl | refine kept_ite ?_ ?_)
      | refine kept_foldl (fun _ _ _ => ?_) _ ?_ | dsimp only | split | assumption)

theorem opPrsLogRead_keeps : opPrsLogRead.Keeps := by
  intro K c pl s b h
  simp only [opPrsLogRead, Done.res]; repeat' (first
      | with_reducible (first
          | assumption | rfl | refine kept_ite ?_ ?_ | apply State.take_kept | apply State.prsRead_kept)
      | dsimp only | split | assumption)

theorem opPrsInfo_keeps : opPrsInfo.Keeps := by
  intro K c pl s b h
  simp only [opPrsInfo, OpDef.ask, Done.res, Done.res]; repeat' (first
      | with_reducible (first
          | assumption | rfl | refine kept_ite ?_ ?_)
      | dsimp only | split | assumption)

theorem opStatJrnlFate_keeps : opStatJrnlFate.Keeps := by
  intro K c pl s b h
  simp only [opStatJrnlFate, OpDef.ask, Done.res, Done.res]; repeat' (first
      | with_reducible (first
          | assumption | rfl | refine kept_ite ?_ ?_)
      | dsimp only | split | assumption)

theorem Nv.setSlot_keep (n : Nv) (k : Nat) (x : FwSlot) : (n.setSlot k x).lc = n.lc ∧ (n.setSlot k x).lcNext = n.lcNext ∧
    (n.setSlot k x).hostKeys = n.hostKeys ∧ (n.setSlot k x).boot = n.boot := by
  unfold Nv.setSlot; split <;> exact ⟨rfl, rfl, rfl, rfl⟩

theorem State.setSlot_kept {K : Keep} {s : State} {k : Nat} {x : FwSlot} (h : Kept K s) : Kept K (s.setNv (s.nv.setSlot k x)) :=
  let ⟨a, b, c, d⟩ := s.nv.setSlot_keep k x
  State.setNv_kept h a b c d

theorem opFwLoad_keeps : opFwLoad.Keeps := by
  intro K c pl s b h
  simp only [opFwLoad, Done.ok, Done.stat]
  split
  · exact State.setSlot_kept (State.prsWrote_kept _ h)
  · exact State.setSlot_kept (State.prsWrote_kept _ h)

theorem opFwActivate_keeps : opFwActivate.Keeps := by
  intro K c pl s b h
  simp only [opFwActivate, OpDef.admin, Done.ok, Done.ok]; repeat' (first
      | with_reducible (first
          | assumption | rfl | refine kept_ite ?_ ?_ | apply State.setNv_kept)
      | refine kept_foldl (fun _ _ _ => ?_) _ ?_ | dsimp only | split | assumption)

theorem opFwStartClear_keeps : opFwStartClear.Keeps := by
  intro K c pl s b h
  simp only [opFwStartClear, OpDef.admin, Done.ok, Done.ok]; repeat' (first
      | with_reducible (first
          | assumption | rfl | refine kept_ite ?_ ?_ | apply State.setNv_kept)
      | refine kept_foldl (fun _ _ _ => ?_) _ ?_ | dsimp only | split | assumption)

theorem opFwInfo_keeps : opFwInfo.Keeps := by
  intro K c pl s b h
  simp only [opFwInfo, OpDef.ask, Done.res, Done.res]; repeat' (first
      | with_reducible (first
          | assumption | rfl | refine kept_ite ?_ ?_)
      | refine kept_foldl (fun _ _ _ => ?_) _ ?_ | dsimp only | split | assumption)

theorem execCheckpointTimer_kept {K : Keep} {s : State} (h : Kept K s) : ∃ u, execCheckpointTimer s = .next u ∧ Kept K u := by
  refine ⟨_, rfl, ?_⟩; repeat' (first
      | with_reducible (first
          | assumption | rfl | refine kept_ite ?_ ?_)
      | refine kept_foldl (fun _ _ _ => ?_) _ ?_ | dsimp only | split | assumption)

theorem execCheckpointWritten_kept {K : Keep} {s : State} (ok : Bool) (h : Kept K s) : ∃ u, execCheckpointWritten ok s = .next u ∧ Kept K u := by
  refine ⟨_, rfl, kept_ite h (kept_ite (State.capHold_kept _ h) ?_)⟩
  have h1 : Kept K (if (ok && !s.nv.prsFailed) = true then s.checkpoint false else s.ckptFail) := kept_ite (State.checkpoint_kept h) (State.ckptFail_kept h)
  exact kept_foldl (fun t p ht => State.replyLate_kept _ _ _ _ _ _ _ ht) _ (h1 : Kept K { (if (ok && !s.nv.prsFailed) = true then s.checkpoint false else s.ckptFail) with bgw := _ })

theorem execPrsBlockFail_kept {K : Keep} {s : State} (_block : Fin 2048) (h : Kept K s) : ∃ u, execPrsBlockFail _block s = .next u ∧ Kept K u := by
  refine ⟨_, rfl, ?_⟩; repeat' (first
      | with_reducible (first
          | assumption | rfl | refine kept_ite ?_ ?_ | apply State.setNv_kept | apply State.bump_kept | apply State.reportFault_kept
          | apply State.raise_kept)
      | refine kept_foldl (fun _ _ _ => ?_) _ ?_ | dsimp only | split | assumption)

theorem execPrsPartition_kept {K : Keep} {s : State} (q : Req) (h : Kept K s) : ∃ u, execPrsPartition q s = .next u ∧ Kept K u := by
  refine ⟨_, rfl, ?_⟩; repeat' (first
      | with_reducible (first
          | assumption | rfl | refine kept_ite ?_ ?_)
      | refine kept_foldl (fun _ _ _ => ?_) _ ?_ | dsimp only | exact runOp_kept opPrsPartition_keeps ‹_› | split | assumption)

theorem execPrsCheckpoint_kept {K : Keep} {s : State} (q : Req) (h : Kept K s) : ∃ u, execPrsCheckpoint q s = .next u ∧ Kept K u := by
  refine ⟨_, rfl, ?_⟩; repeat' (first
      | with_reducible (first
          | assumption | rfl | refine kept_ite ?_ ?_)
      | refine kept_foldl (fun _ _ _ => ?_) _ ?_ | dsimp only | exact runOp_kept opPrsCheckpoint_keeps ‹_› | split | assumption)

theorem execPrsLogRead_kept {K : Keep} {s : State} (q : Req) (h : Kept K s) : ∃ u, execPrsLogRead q s = .next u ∧ Kept K u := by
  refine ⟨_, rfl, ?_⟩; repeat' (first
      | with_reducible (first
          | assumption | rfl | refine kept_ite ?_ ?_)
      | refine kept_foldl (fun _ _ _ => ?_) _ ?_ | dsimp only | exact runOp_kept opPrsLogRead_keeps ‹_› | split | assumption)

theorem execPrsInfo_kept {K : Keep} {s : State} (q : Req) (h : Kept K s) : ∃ u, execPrsInfo q s = .next u ∧ Kept K u := by
  refine ⟨_, rfl, ?_⟩; repeat' (first
      | with_reducible (first
          | assumption | rfl | refine kept_ite ?_ ?_)
      | refine kept_foldl (fun _ _ _ => ?_) _ ?_ | dsimp only | exact runOp_kept opPrsInfo_keeps ‹_› | split | assumption)

theorem execStatJrnlFate_kept {K : Keep} {s : State} (q : Req) (h : Kept K s) : ∃ u, execStatJrnlFate q s = .next u ∧ Kept K u := by
  refine ⟨_, rfl, ?_⟩; repeat' (first
      | with_reducible (first
          | assumption | rfl | refine kept_ite ?_ ?_)
      | refine kept_foldl (fun _ _ _ => ?_) _ ?_ | dsimp only | exact runOp_kept opStatJrnlFate_keeps ‹_› | split | assumption)

theorem execFwLoad_kept {K : Keep} {s : State} (q : Req) (h : Kept K s) : ∃ u, execFwLoad q s = .next u ∧ Kept K u := by
  refine ⟨_, rfl, ?_⟩; repeat' (first
      | with_reducible (first
          | assumption | rfl | refine kept_ite ?_ ?_)
      | refine kept_foldl (fun _ _ _ => ?_) _ ?_ | dsimp only | exact runOp_kept opFwLoad_keeps ‹_› | split | assumption)

theorem execFwActivate_kept {K : Keep} {s : State} (q : Req) (h : Kept K s) : ∃ u, execFwActivate q s = .next u ∧ Kept K u := by
  refine ⟨_, rfl, ?_⟩; repeat' (first
      | with_reducible (first
          | assumption | rfl | refine kept_ite ?_ ?_)
      | refine kept_foldl (fun _ _ _ => ?_) _ ?_ | dsimp only | exact runOp_kept opFwActivate_keeps ‹_› | split | assumption)

theorem execFwStartClear_kept {K : Keep} {s : State} (q : Req) (h : Kept K s) : ∃ u, execFwStartClear q s = .next u ∧ Kept K u := by
  refine ⟨_, rfl, ?_⟩; repeat' (first
      | with_reducible (first
          | assumption | rfl | refine kept_ite ?_ ?_)
      | refine kept_foldl (fun _ _ _ => ?_) _ ?_ | dsimp only | exact runOp_kept opFwStartClear_keeps ‹_› | split | assumption)

theorem execFwInfo_kept {K : Keep} {s : State} (q : Req) (h : Kept K s) : ∃ u, execFwInfo q s = .next u ∧ Kept K u := by
  refine ⟨_, rfl, ?_⟩; repeat' (first
      | with_reducible (first
          | assumption | rfl | refine kept_ite ?_ ?_)
      | refine kept_foldl (fun _ _ _ => ?_) _ ?_ | dsimp only | exact runOp_kept opFwInfo_keeps ‹_› | split | assumption)

/-! ### What `Machine/Stat.lean` keeps -/

theorem State.ipfixSend_kept {K : Keep} {s : State} {x : Ipfix} {sets : Bytes} {recs : Nat} (h : Kept K s) : Kept K (s.ipfixSend x sets recs) := by
  have h1 : Kept K ((s.txRequest x.port (TxFrame.plain (s.ipfixFrame x sets) 3 .none)).1.fabUse (s.ipfixFrame x sets).length) :=
    State.fabUse_kept _ (State.txRequest_kept _ _ h)
  exact State.bumpBy_kept _ _ (s := { ((s.txRequest x.port (TxFrame.plain (s.ipfixFrame x sets) 3 .none)).1.fabUse (s.ipfixFrame x sets).length) with ipx := _ }) h1

theorem State.sendTemplates_kept {K : Keep} {s : State} (h : Kept K s) : Kept K s.sendTemplates := by
  simp only [State.sendTemplates]
  split
  · split
    · exact State.ipfixSend_kept (recs := 0) h
    · exact h
  · exact h

theorem State.ipfixStart_kept {K : Keep} {s : State} (h : Kept K s) : Kept K (State.ipfixStart s) := by
  unfold State.ipfixStart; repeat' (first
      | with_reducible (first
          | assumption | rfl | refine kept_ite ?_ ?_ | apply State.sendTemplates_kept)
      | dsimp only | split | assumption)

theorem State.reportLeg_kept {K : Keep} {s : State} {i : Ipfix} {l : Nat} (h : Kept K s) : Kept K (s.reportLeg i l) := by
  simp only [State.reportLeg]
  exact State.ipfixSend_kept (recs := 1) h

theorem State.reportOrWait_kept {K : Keep} {s : State} (i : Ipfix) (l : Nat) (h : Kept K s) : Kept K (State.reportOrWait s i l) := by
  unfold State.reportOrWait; repeat' (first
      | with_reducible (first
          | assumption | rfl | refine kept_ite ?_ ?_ | apply State.capHold_kept | apply State.reportLeg_kept)
      | dsimp only | split | assumption)

theorem State.ipfixLegs_kept {K : Keep} {s0 : State} (h : Kept K s0) : Kept K (State.ipfixLegs s0) := by
  have h1 : ∀ (n : Nat) (u : State), Kept K u → Kept K (if n = 0 then u else (u.bumpBy R.BGW_IPFIX_SKIP_CNT n).raise R.BGW_EVT 64) :=
    fun n u hu => kept_ite hu (State.raise_kept _ _ (State.bumpBy_kept _ _ hu))
  have h2 : ∀ (u : State) (x : Ipx), Kept K u → Kept K { u with ipx := x } := fun _ _ hu => hu
  unfold State.ipfixLegs
  dsimp only
  split
  · exact h
  · refine kept_ite h (kept_foldl (fun t l ht => State.reportOrWait_kept _ l ht) _ ?_)
    exact h2 _ _ (h1 _ _ (h2 _ _ h))

theorem opStatLeg_keeps : opStatLeg.Keeps := by
  intro K c pl s b h
  simp only [opStatLeg, OpDef.ask, Done.res, Done.res]; repeat' (first
      | with_reducible (first
          | assumption | rfl | refine kept_ite ?_ ?_)
      | dsimp only | split | assumption)

theorem opStatDevice_keeps : opStatDevice.Keeps := by
  intro K c pl s b h
  simp only [opStatDevice, OpDef.ask, Done.res, Done.res]; repeat' (first
      | with_reducible (first
          | assumption | rfl | refine kept_ite ?_ ?_)
      | refine kept_foldl (fun _ _ _ => ?_) _ ?_ | dsimp only | split | assumption)

theorem opStatIpfixSet_keeps : opStatIpfixSet.Keeps := by
  intro K c pl s b h
  simp only [opStatIpfixSet, OpDef.admin, Done.ok, Done.ok]; repeat' (first
      | with_reducible (first
          | assumption | rfl | refine kept_ite ?_ ?_ | apply State.setNv_kept | apply State.ipfixStart_kept)
      | refine kept_foldl (fun _ _ _ => ?_) _ ?_ | dsimp only | split | assumption)

theorem execIpfixTemplate_kept {K : Keep} {s : State} (h : Kept K s) : ∃ u, execIpfixTemplate s = .next u ∧ Kept K u := by
  refine ⟨_, rfl, ?_⟩; repeat' (first
      | with_reducible (first
          | assumption | rfl | refine kept_ite ?_ ?_ | apply State.capHold_kept | apply State.sendTemplates_kept)
      | refine kept_foldl (fun _ _ _ => ?_) _ ?_ | dsimp only | split | assumption)

theorem execIpfixHealth_kept {K : Keep} {s : State} (h : Kept K s) : ∃ u, execIpfixHealth s = .next u ∧ Kept K u := by
  refine ⟨_, rfl, ?_⟩
  have h4 : ∀ {x : Ipx}, Kept K { s with ipx := x } := h
  split
  · exact kept_ite (kept_ite (State.capHold_kept _ h) (State.ipfixSend_kept h4)) h
  · exact h

theorem execStatIpfixSet_kept {K : Keep} {s : State} (q : Req) (h : Kept K s) : ∃ u, execStatIpfixSet q s = .next u ∧ Kept K u := by
  refine ⟨_, rfl, ?_⟩; repeat' (first
      | with_reducible (first
          | assumption | rfl | refine kept_ite ?_ ?_)
      | refine kept_foldl (fun _ _ _ => ?_) _ ?_ | dsimp only | exact runOp_kept opStatIpfixSet_keeps ‹_› | split | assumption)

theorem execStatLeg_kept {K : Keep} {s : State} (q : Req) (h : Kept K s) : ∃ u, execStatLeg q s = .next u ∧ Kept K u := by
  refine ⟨_, rfl, ?_⟩; repeat' (first
      | with_reducible (first
          | assumption | rfl | refine kept_ite ?_ ?_)
      | refine kept_foldl (fun _ _ _ => ?_) _ ?_ | dsimp only | exact runOp_kept opStatLeg_keeps ‹_› | split | assumption)

theorem execStatDevice_kept {K : Keep} {s : State} (q : Req) (h : Kept K s) : ∃ u, execStatDevice q s = .next u ∧ Kept K u := by
  refine ⟨_, rfl, ?_⟩; repeat' (first
      | with_reducible (first
          | assumption | rfl | refine kept_ite ?_ ?_)
      | refine kept_foldl (fun _ _ _ => ?_) _ ?_ | dsimp only | exact runOp_kept opStatDevice_keeps ‹_› | split | assumption)

/-! ### What `Machine/Shut.lean` keeps -/

theorem State.setShut_kept {K : Keep} {s : State} (x : Shut) (h : Kept K s) : Kept K (State.setShut s x) := by
  unfold State.setShut; repeat' (first | with_reducible (first | assumption | rfl | refine kept_ite ?_ ?_) | dsimp only | split | assumption)

theorem State.shutLegs_kept {K : Keep} {s : State} (h : Kept K s) : Kept K (State.shutLegs s) := by
  unfold State.shutLegs; repeat' (first
      | with_reducible (first
          | assumption | rfl | refine kept_ite ?_ ?_ | apply State.setShut_kept | apply State.stopLeg_kept | apply State.setLeg_kept)
      | refine kept_foldl (fun _ _ _ => ?_) _ ?_ | dsimp only | split | assumption)

theorem State.shutStart_kept {K : Keep} {s : State} (action : Nat) (skip : Bool) (forget : Bool) (drainNs : Nat) (by_ : Option (Nat × Nat)) (h : Kept K s) : Kept K (State.shutStart s action skip forget drainNs by_) := by
  unfold State.shutStart; repeat' (first
      | with_reducible (first
          | assumption | rfl | refine kept_ite ?_ ?_ | apply State.capStop_kept | apply State.setShut_kept | apply State.endPlayer_kept
          | apply State.ringStop_kept | apply State.shutLegs_kept | apply State.legOff_kept)
      | refine kept_foldl (fun _ _ _ => ?_) _ ?_ | dsimp only | split | assumption)

theorem State.shutThermal_kept {K : Keep} {s : State} (h : Kept K s) : Kept K (State.shutThermal s) := by
  unfold State.shutThermal; repeat' (first
      | with_reducible (first
          | assumption | rfl | refine kept_ite ?_ ?_ | apply State.shutStart_kept)
      | dsimp only | split | assumption)

theorem State.shutRecords_kept {K : Keep} {s : State} (h : Kept K s) : Kept K (State.shutRecords s) := by
  unfold State.shutRecords; repeat' (first
      | with_reducible (first
          | assumption | rfl | refine kept_ite ?_ ?_ | apply State.recordSrtp_kept | apply State.recordMuzzle_kept
          | apply State.setPortSt_kept | apply State.loseLink_kept | apply State.stopAll_kept | apply State.slogPut_kept)
      | refine kept_foldl (fun _ _ _ => ?_) _ ?_ | dsimp only | split | assumption)

theorem State.shutEnd_kept {K : Keep} {s : State} (h : Kept K s) : Kept K s.shutEnd := by
  simp only [State.shutEnd]
  have h1 := State.shutRecords_kept h
  refine kept_ite ?_ (State.restart_kept (State.setNv_kept h1 rfl rfl rfl rfl))
  exact State.setShut_kept (s := { s.shutRecords with mode := .halted }) _ h1

theorem State.shutReply_kept {K : Keep} {s : State} (st : Nat) (det : Nat) (h : Kept K s) : Kept K (State.shutReply s st det) := by
  unfold State.shutReply; repeat' (first
      | with_reducible (first
          | assumption | rfl | refine kept_ite ?_ ?_ | apply State.replyLate_kept)
      | dsimp only | split | assumption)

theorem State.reviveLeg_kept {K : Keep} {s : State} (l : Nat) (old : Leg) (h : Kept K s) : Kept K (State.reviveLeg s l old) := by
  unfold State.reviveLeg; repeat' (first
      | with_reducible (first
          | assumption | rfl | refine kept_ite ?_ ?_ | apply State.setLeg_kept | apply State.report_kept | apply State.charge_kept | apply State.fitChains_kept
          | apply State.armCmd_kept)
      | dsimp only | split | refine State.armCmd_kept_of ‹_› ?_ | assumption)

theorem State.revive_kept {K : Keep} {s : State} (h : Kept K s) : Kept K (State.revive s) := by
  unfold State.revive; repeat' (first
      | with_reducible (first
          | assumption | rfl | refine kept_ite ?_ ?_ | apply State.reviveLeg_kept | apply State.setCap_kept | apply State.setGring_kept)
      | refine kept_foldl (fun _ _ _ => ?_) _ ?_ | dsimp only | split | assumption)

theorem State.reviveAtBoundary_kept {K : Keep} {s : State} (b : Inst) (h : Kept K s) : Kept K (State.reviveAtBoundary s b) := by
  unfold State.reviveAtBoundary; repeat' (first
      | with_reducible (first
          | assumption | rfl | refine kept_ite ?_ ?_ | apply State.capStart_kept | apply State.ringStart_kept
          | apply State.setPlayer_kept | apply State.setShut_kept)
      | refine kept_foldl (fun _ _ _ => ?_) _ ?_ | dsimp only | split | assumption)

theorem opShutBegin_keeps : opShutBegin.Keeps := by
  intro K c pl s b h
  simp only [opShutBegin, OpDef.admin, Done.ok, Done.wait, Done.ok, Done.wait]; repeat' (first
      | with_reducible (first
          | assumption | rfl | refine kept_ite ?_ ?_ | apply State.owe_kept | apply State.shutStart_kept)
      | refine kept_foldl (fun _ _ _ => ?_) _ ?_ | dsimp only | split | assumption)

theorem opShutAbort_keeps : opShutAbort.Keeps := by
  intro K c pl s b h
  simp only [opShutAbort, OpDef.admin, Done.ok, Done.ok]; repeat' (first
      | with_reducible (first
          | assumption | rfl | refine kept_ite ?_ ?_ | apply State.revive_kept | apply State.shutReply_kept | apply State.setShut_kept)
      | refine kept_foldl (fun _ _ _ => ?_) _ ?_ | dsimp only | split | assumption)

theorem opShutStatus_keeps : opShutStatus.Keeps := by
  intro K c pl s b h
  simp only [opShutStatus, OpDef.ask, Done.res, Done.res]; repeat' (first
      | with_reducible (first
          | assumption | rfl | refine kept_ite ?_ ?_)
      | refine kept_foldl (fun _ _ _ => ?_) _ ?_ | dsimp only | split | assumption)

theorem execShutdownDrainEnd_kept {K : Keep} {s : State} (h : Kept K s) : ∃ u, execShutdownDrainEnd s = .next u ∧ Kept K u := by
  refine ⟨_, rfl, ?_⟩; repeat' (first
      | with_reducible (first
          | assumption | rfl | refine kept_ite ?_ ?_ | apply State.setGring_kept | apply State.checkpoint_kept | apply State.ckptFail_kept
          | apply State.setShut_kept | apply State.shutEnd_kept | apply State.shutReply_kept | apply State.setGrn_kept)
      | refine kept_foldl (fun _ _ _ => ?_) _ ?_ | dsimp only | split | assumption)

theorem execShutdownTestDone_kept {K : Keep} {s : State} (r : ShutTest) (h : Kept K s) : ∃ u, execShutdownTestDone r s = .next u ∧ Kept K u := by
  refine ⟨_, rfl, ?_⟩; repeat' (first
      | with_reducible (first
          | assumption | rfl | refine kept_ite ?_ ?_ | apply State.setNv_kept | apply State.shutEnd_kept)
      | refine kept_foldl (fun _ _ _ => ?_) _ ?_ | dsimp only | split | assumption)

theorem execShutBegin_kept {K : Keep} {s : State} (q : Req) (h : Kept K s) : ∃ u, execShutBegin q s = .next u ∧ Kept K u := by
  refine ⟨_, rfl, ?_⟩; repeat' (first
      | with_reducible (first
          | assumption | rfl | refine kept_ite ?_ ?_)
      | refine kept_foldl (fun _ _ _ => ?_) _ ?_ | dsimp only | exact runOp_kept opShutBegin_keeps ‹_› | split | assumption)

theorem execShutAbort_kept {K : Keep} {s : State} (q : Req) (h : Kept K s) : ∃ u, execShutAbort q s = .next u ∧ Kept K u := by
  refine ⟨_, rfl, ?_⟩; repeat' (first
      | with_reducible (first
          | assumption | rfl | refine kept_ite ?_ ?_)
      | refine kept_foldl (fun _ _ _ => ?_) _ ?_ | dsimp only | exact runOp_kept opShutAbort_keeps ‹_› | split | assumption)

theorem execShutStatus_kept {K : Keep} {s : State} (q : Req) (h : Kept K s) : ∃ u, execShutStatus q s = .next u ∧ Kept K u := by
  refine ⟨_, rfl, ?_⟩; repeat' (first
      | with_reducible (first
          | assumption | rfl | refine kept_ite ?_ ?_)
      | refine kept_foldl (fun _ _ _ => ?_) _ ?_ | dsimp only | exact runOp_kept opShutStatus_keeps ‹_› | split | assumption)

/-! ### What `Machine/Bgw.lean` keeps -/

theorem State.setBgw_kept {K : Keep} {s : State} (x : Bgw) (h : Kept K s) : Kept K (State.setBgw s x) := by
  unfold State.setBgw; repeat' (first | with_reducible (first | assumption | rfl | refine kept_ite ?_ ?_) | dsimp only | split | assumption)

theorem State.patrolTo_kept {K : Keep} {s : State} (hbm : Bool) (at_ : Nat) (loc : Nat) (h : Kept K s) : Kept K (State.patrolTo s hbm at_ loc) := by
  unfold State.patrolTo; repeat' (first
      | with_reducible (first
          | assumption | rfl | refine kept_ite ?_ ?_ | apply State.setBgw_kept)
      | dsimp only | split | assumption)

theorem State.scrub_kept {K : Keep} {s : State} (hbm : Bool) (w : ScrubWord) (h : Kept K s) : Kept K (State.scrub s hbm w) := by
  unfold State.scrub; repeat' (first
      | with_reducible (first
          | assumption | rfl | refine kept_ite ?_ ?_ | apply State.patrolTo_kept | apply State.fabUse_kept | apply State.setReg_kept
          | apply State.setFld_kept | apply State.bump_kept | apply State.raise_kept | apply State.setBgw_kept)
      | dsimp only | split | assumption)

theorem State.thermEnter_kept {K : Keep} {s : State} (k : Nat) (h : Kept K s) : Kept K (State.thermEnter s k) := by
  unfold State.thermEnter; repeat' (first
      | with_reducible (first
          | assumption | rfl | refine kept_ite ?_ ?_ | apply State.raise_kept | apply State.bump_kept | apply State.closeGate_kept
          | apply State.shutThermal_kept)
      | dsimp only | split | assumption)

theorem State.thermPins_kept {K : Keep} {s : State} (h : Kept K s) : Kept K (State.thermPins s) := by
  unfold State.thermPins; repeat' (first | with_reducible (first | assumption | rfl | refine kept_ite ?_ ?_) | dsimp only | split | assumption)

theorem State.thermal_kept {K : Keep} {s : State} (t : List (BitVec 16)) (h : Kept K s) : Kept K (State.thermal s t) := by
  unfold State.thermal; repeat' (first
      | with_reducible (first
          | assumption | rfl | refine kept_ite ?_ ?_ | apply State.setReg_kept | apply State.setFld_kept | apply State.thermEnter_kept
          | apply State.thermPins_kept)
      | refine kept_foldl (fun _ _ _ => ?_) _ ?_ | dsimp only | split | assumption)

theorem State.patrolResume_kept {K : Keep} {s : State} (hbm : Bool) (h : Kept K s) : Kept K (State.patrolResume s hbm) := by
  unfold State.patrolResume; repeat' (first
      | with_reducible (first
          | assumption | rfl | refine kept_ite ?_ ?_ | apply State.patrolTo_kept)
      | dsimp only | split | assumption)

theorem bgwEffect_kept {K : Keep} {s : State} (a : Nat) (old : Nat) (v : Nat) (h : Kept K s) : Kept K (bgwEffect s a old v) := by
  unfold bgwEffect; repeat' (first
      | with_reducible (first
          | assumption | rfl | refine kept_ite ?_ ?_ | apply State.patrolResume_kept)
      | dsimp only | split | assumption)

theorem execScrubRead_kept {K : Keep} {s : State} (space : ScrubSpace) (word : ScrubWord) (h : Kept K s) : ∃ u, execScrubRead space word s = .next u ∧ Kept K u := by
  refine ⟨_, rfl, ?_⟩; repeat' (first
      | with_reducible (first
          | assumption | rfl | refine kept_ite ?_ ?_ | apply State.scrub_kept | apply State.capHold_kept)
      | refine kept_foldl (fun _ _ _ => ?_) _ ?_ | dsimp only | split | assumption)

theorem execHbmRetrain_kept {K : Keep} {s : State} (pch : Fin 64) (ok : Bool) (h : Kept K s) : ∃ u, execHbmRetrain pch ok s = .next u ∧ Kept K u := by
  refine ⟨_, rfl, ?_⟩; repeat' (first
      | with_reducible (first
          | assumption | rfl | refine kept_ite ?_ ?_ | apply State.bump_kept | apply State.setBgw_kept | apply State.raise_kept)
      | refine kept_foldl (fun _ _ _ => ?_) _ ?_ | dsimp only | split | assumption)

theorem execPllCalibration_kept {K : Keep} {s : State} (h : Kept K s) : ∃ u, execPllCalibration s = .next u ∧ Kept K u := by
  refine ⟨_, rfl, ?_⟩; repeat' (first
      | with_reducible (first
          | assumption | rfl | refine kept_ite ?_ ?_)
      | refine kept_foldl (fun _ _ _ => ?_) _ ?_ | dsimp only | split | assumption)

theorem execSensorRead_kept {K : Keep} {s : State} (t : List (BitVec 16)) (h : Kept K s) : ∃ u, execSensorRead t s = .next u ∧ Kept K u := by
  refine ⟨_, rfl, ?_⟩; repeat' (first
      | with_reducible (first
          | assumption | rfl | refine kept_ite ?_ ?_ | apply State.thermal_kept)
      | refine kept_foldl (fun _ _ _ => ?_) _ ?_ | dsimp only | split | assumption)

theorem execOverTempReset_kept {K : Keep} {s : State} (h : Kept K s) : ∃ u, execOverTempReset s = .next u ∧ Kept K u := by
  refine ⟨_, rfl, ?_⟩; repeat' (first
      | with_reducible (first
          | assumption | rfl | refine kept_ite ?_ ?_ | apply State.restart_kept)
      | refine kept_foldl (fun _ _ _ => ?_) _ ?_ | dsimp only | split | assumption)

theorem execAvsAdjust_kept {K : Keep} {s : State} (up : Bool) (ok : Bool) (h : Kept K s) : ∃ u, execAvsAdjust up ok s = .next u ∧ Kept K u := by
  refine ⟨_, rfl, ?_⟩; repeat' (first
      | with_reducible (first
          | assumption | rfl | refine kept_ite ?_ ?_ | apply State.setBgw_kept)
      | refine kept_foldl (fun _ _ _ => ?_) _ ?_ | dsimp only | split | assumption)

/-! ### What `Machine/Time.lean` keeps -/

theorem opTimeClock_keeps : opTimeClock.Keeps := by
  intro K c pl s b h
  simp only [opTimeClock, OpDef.oper, Done.ok, Done.ok]; repeat' (first
      | with_reducible (first
          | assumption | rfl | refine kept_ite ?_ ?_ | apply State.setTmu_kept)
      | dsimp only | split | assumption)

theorem opTimePort_keeps : opTimePort.Keeps := by
  intro K c pl s b h
  simp only [opTimePort, OpDef.oper, Done.ok, Done.ok]; repeat' (first
      | with_reducible (first
          | assumption | rfl | refine kept_ite ?_ ?_ | apply State.setTmu_kept)
      | refine kept_foldl (fun _ _ _ => ?_) _ ?_ | dsimp only | split | assumption)

theorem opTimeUnicast_keeps : opTimeUnicast.Keeps := by
  intro K c pl s b h
  simp only [opTimeUnicast, OpDef.oper, Done.ok, Done.ok]; repeat' (first
      | with_reducible (first
          | assumption | rfl | refine kept_ite ?_ ?_ | apply State.setTmu_kept)
      | refine kept_foldl (fun _ _ _ => ?_) _ ?_ | dsimp only | split | assumption)

theorem opTimeStatus_keeps : opTimeStatus.Keeps := by
  intro K c pl s b h
  simp only [opTimeStatus, Done.res, Done.res]; repeat' (first
      | with_reducible (first
          | assumption | rfl | refine kept_ite ?_ ?_ | apply State.drawn_kept)
      | dsimp only | split | assumption)

theorem opTimePortStatus_keeps : opTimePortStatus.Keeps := by
  intro K c pl s b h
  simp only [opTimePortStatus, Done.res, Done.res]; repeat' (first
      | with_reducible (first
          | assumption | rfl | refine kept_ite ?_ ?_ | apply State.drawn_kept)
      | refine kept_foldl (fun _ _ _ => ?_) _ ?_ | dsimp only | split | assumption)

theorem execTimeClock_kept {K : Keep} {s : State} (q : Req) (h : Kept K s) : ∃ u, execTimeClock q s = .next u ∧ Kept K u := by
  refine ⟨_, rfl, ?_⟩; repeat' (first
      | with_reducible (first
          | assumption | rfl | refine kept_ite ?_ ?_)
      | refine kept_foldl (fun _ _ _ => ?_) _ ?_ | dsimp only | exact runOp_kept opTimeClock_keeps ‹_› | split | assumption)

theorem execTimePort_kept {K : Keep} {s : State} (q : Req) (h : Kept K s) : ∃ u, execTimePort q s = .next u ∧ Kept K u := by
  refine ⟨_, rfl, ?_⟩; repeat' (first
      | with_reducible (first
          | assumption | rfl | refine kept_ite ?_ ?_)
      | refine kept_foldl (fun _ _ _ => ?_) _ ?_ | dsimp only | exact runOp_kept opTimePort_keeps ‹_› | split | assumption)

theorem execTimeUnicast_kept {K : Keep} {s : State} (q : Req) (h : Kept K s) : ∃ u, execTimeUnicast q s = .next u ∧ Kept K u := by
  refine ⟨_, rfl, ?_⟩; repeat' (first
      | with_reducible (first
          | assumption | rfl | refine kept_ite ?_ ?_)
      | refine kept_foldl (fun _ _ _ => ?_) _ ?_ | dsimp only | exact runOp_kept opTimeUnicast_keeps ‹_› | split | assumption)

theorem execTimeStatus_kept {K : Keep} {s : State} (q : Req) (h : Kept K s) : ∃ u, execTimeStatus q s = .next u ∧ Kept K u := by
  refine ⟨_, rfl, ?_⟩; repeat' (first
      | with_reducible (first
          | assumption | rfl | refine kept_ite ?_ ?_)
      | refine kept_foldl (fun _ _ _ => ?_) _ ?_ | dsimp only | exact runOp_kept opTimeStatus_keeps ‹_› | split | assumption)

theorem execTimePortStatus_kept {K : Keep} {s : State} (q : Req) (h : Kept K s) : ∃ u, execTimePortStatus q s = .next u ∧ Kept K u := by
  refine ⟨_, rfl, ?_⟩; repeat' (first
      | with_reducible (first
          | assumption | rfl | refine kept_ite ?_ ?_)
      | refine kept_foldl (fun _ _ _ => ?_) _ ?_ | dsimp only | exact runOp_kept opTimePortStatus_keeps ‹_› | split | assumption)

/-! ### What `Machine/Swath.lean` keeps -/

theorem State.slipLeg_kept {K : Keep} {s : State} (l : Nat) (q0 : Nat) (q1 : Nat) (h : Kept K s) : Kept K (State.slipLeg s l q0 q1) := by
  unfold State.slipLeg; repeat' (first
      | with_reducible (first
          | assumption | rfl | refine kept_ite ?_ ?_ | apply State.plySlip_kept | apply State.bumpBy_kept | apply State.setLeg_kept)
      | dsimp only | split | assumption)

theorem State.slipEnd_kept {K : Keep} {s : State} (b : Inst) (h : Kept K s) : Kept K (State.slipEnd s b) := by
  unfold State.slipEnd; repeat' (first
      | with_reducible (first
          | assumption | rfl | refine kept_ite ?_ ?_ | apply State.slipLeg_kept)
      | refine kept_foldl (fun _ _ _ => ?_) _ ?_ | dsimp only | split | assumption)

theorem State.loadTo_kept {K : Keep} {s : State} (last : Fld) (peak : Fld) (v : Nat) (h : Kept K s) : Kept K (State.loadTo s last peak v) := by
  unfold State.loadTo; repeat' (first
      | with_reducible (first
          | assumption | rfl | refine kept_ite ?_ ?_ | apply State.peakTo_kept | apply State.setFld_kept)
      | dsimp only | split | assumption)

theorem kept_engAcc {K : Keep} {s : State} {x : KV Nat} (h : Kept K s) : Kept K { s with engAcc := x } := h

theorem State.swathLoads_kept {K : Keep} {s : State} (h : Kept K s) : Kept K s.swathLoads := by
  unfold State.swathLoads
  extract_lets s1 s2 s3
  have h3 : Kept K s3 := State.loadTo_kept _ _ _ (kept_foldl (fun t e ht => State.loadTo_kept _ _ _ ht) _
    (kept_foldl (fun t e ht => State.loadTo_kept _ _ _ ht) _ h))
  clear_value s3
  exact State.setBgw_kept _ (kept_engAcc (State.setKnl_kept _ (State.setMmu_kept h3 rfl)))

theorem State.swathGln_kept {K : Keep} {s : State} (h : Kept K s) : Kept K (State.swathGln s) := by
  unfold State.swathGln; repeat' (first
      | with_reducible (first
          | assumption | rfl | refine kept_ite ?_ ?_ | apply State.glnBack_kept | apply State.setGln_kept)
      | dsimp only | split | assumption)

theorem State.forgetUnits_kept {K : Keep} {s : State} (h : Kept K s) : Kept K (State.forgetUnits s) := by
  unfold State.forgetUnits; repeat' (first
      | with_reducible (first
          | assumption | rfl | refine kept_ite ?_ ?_ | apply State.setKnl_kept)
      | dsimp only | split | assumption)

theorem State.endSwath_kept {K : Keep} {s : State} (b : Inst) (h : Kept K s) : Kept K (State.endSwath s b) := by
  unfold State.endSwath; repeat' (first
      | with_reducible (first
          | assumption | rfl | refine kept_ite ?_ ?_ | apply State.setFrp_kept | apply State.setGrn_kept | apply State.staleDiscard_kept
          | apply State.slipEnd_kept | apply State.swathLoads_kept | apply State.swathGln_kept | apply State.forgetUnits_kept)
      | dsimp only | split | assumption)

theorem State.legsStop_kept {K : Keep} {s : State} (b : Inst) (h : Kept K s) : Kept K (State.legsStop s b) := by
  unfold State.legsStop; repeat' (first
      | with_reducible (first
          | assumption | rfl | refine kept_ite ?_ ?_ | apply State.legOff_kept)
      | refine kept_foldl (fun _ _ _ => ?_) _ ?_ | dsimp only | split | assumption)

theorem State.noteChg_kept {K : Keep} {s : State} (a : Armed) (b : Inst) (h : Kept K s) : Kept K (State.noteChg s a b) := by
  unfold State.noteChg; repeat' (first
      | with_reducible (first
          | assumption | rfl | refine kept_ite ?_ ?_ | apply State.setLeg_kept | apply State.setSwt_kept)
      | dsimp only | split | assumption)

theorem State.applyArmed_kept {K : Keep} {s : State} (a : Armed) (b : Inst) (h : Kept K s) : Kept K (State.applyArmed s a b) := by
  unfold State.applyArmed; repeat' (first
      | with_reducible (first
          | assumption | rfl | refine kept_ite ?_ ?_ | apply State.recreated_kept | apply State.applyLeg_kept | apply State.noteChg_kept
          | apply State.lateAct_kept | apply State.applyTnd_kept | apply State.setLeg_kept)
      | dsimp only | split | assumption)

theorem State.applyDue_kept {K : Keep} {s : State} (b : Inst) (h : Kept K s) : Kept K (State.applyDue s b) := by
  unfold State.applyDue; repeat' (first
      | with_reducible (first
          | assumption | rfl | refine kept_ite ?_ ?_ | apply State.setSwt_kept | apply State.applyArmed_kept)
      | refine kept_foldl (fun _ _ _ => ?_) _ ?_ | dsimp only | split | assumption)

theorem State.followUnits_kept {K : Keep} {s : State} (h : Kept K s) : Kept K (State.followUnits s) := by
  unfold State.followUnits; repeat' (first
      | with_reducible (first
          | assumption | rfl | refine kept_ite ?_ ?_ | apply State.updBudgets_kept | apply State.setFld_kept)
      | dsimp only | split | assumption)

theorem State.newSwath_kept {K : Keep} {s : State} (b : Inst) (h : Kept K s) : Kept K (State.newSwath s b) := by
  unfold State.newSwath; repeat' (first
      | with_reducible (first
          | assumption | rfl | refine kept_ite ?_ ?_ | apply State.setReg_kept | apply State.setFld_kept | apply State.setSwt_kept
          | apply State.bump_kept)
      | dsimp only | split | assumption)

theorem State.legsOn_kept {K : Keep} {s : State} (b : Inst) (h : Kept K s) : Kept K (State.legsOn s b) := by
  unfold State.legsOn; repeat' (first
      | with_reducible (first
          | assumption | rfl | refine kept_ite ?_ ?_ | apply State.setLeg_kept | apply State.report_kept)
      | refine kept_foldl (fun _ _ _ => ?_) _ ?_ | dsimp only | split | assumption)

theorem State.handLeg_kept {K : Keep} {s : State} (l : Nat) (b : Inst) (h : Kept K s) : Kept K (State.handLeg s l b) := by
  unfold State.handLeg; repeat' (first
      | with_reducible (first
          | assumption | rfl | refine kept_ite ?_ ?_ | apply State.logRecord_kept | apply State.mkTask_kept | apply State.setLeg_kept
          | apply State.plyHand_kept)
      | dsimp only | split | refine State.logRecord_kept_of ‹_› ?_ | refine State.mkTask_kept_of ‹_› ?_ | refine State.plyHand_kept_of ‹_› ?_ | assumption)

theorem State.readFor_kept {K : Keep} {s : State} (i : Nat) (h : Kept K s) : Kept K (State.readFor s i) := by
  unfold State.readFor; repeat' (first
      | with_reducible (first
          | assumption | rfl | refine kept_ite ?_ ?_ | apply State.readRemotes_kept | apply State.setTask_kept)
      | dsimp only | split | refine State.readRemotes_kept_of ‹_› ?_ | assumption)

theorem State.readyMedia_kept {K : Keep} {s : State} (p : Task → Bool) (h : Kept K s) : Kept K (State.readyMedia s p) := by
  unfold State.readyMedia; repeat' (first
      | with_reducible (first
          | assumption | rfl | refine kept_ite ?_ ?_ | apply State.readFor_kept | apply State.readyAll_kept)
      | refine kept_foldl (fun _ _ _ => ?_) _ ?_ | dsimp only | split | assumption)

theorem State.stageMissing_kept {K : Keep} {s : State} (b : Inst) (h : Kept K s) : Kept K (State.stageMissing s b) := by
  unfold State.stageMissing; repeat' (first
      | with_reducible (first
          | assumption | rfl | refine kept_ite ?_ ?_ | apply State.orderStage_kept)
      | refine kept_foldl (fun _ _ _ => ?_) _ ?_ | dsimp only | split | assumption)

theorem State.stageSet_kept {K : Keep} {s : State} (b : Inst) (h : Kept K s) : Kept K (State.stageSet s b) := by
  unfold State.stageSet; repeat' (first
      | with_reducible (first
          | assumption | rfl | refine kept_ite ?_ ?_ | apply State.orderStage_kept)
      | refine kept_foldl (fun _ _ _ => ?_) _ ?_ | dsimp only | split | assumption)

theorem State.stageReport_kept {K : Keep} {s : State} (b : Inst) (h : Kept K s) : Kept K (State.stageReport s b) := by
  unfold State.stageReport; repeat' (first
      | with_reducible (first
          | assumption | rfl | refine kept_ite ?_ ?_ | apply State.setKnl_kept | apply State.setReg_kept | apply State.bump_kept
          | apply State.raise_kept)
      | dsimp only | split | assumption)

theorem State.bgHolds_kept {K : Keep} {s : State} (h : Kept K s) : Kept K (State.bgHolds s) := by
  unfold State.bgHolds; repeat' (first
      | with_reducible (first
          | assumption | rfl | refine kept_ite ?_ ?_ | apply State.bumpBy_kept)
      | dsimp only | split | assumption)

theorem State.boundary_kept {K : Keep} {s : State} (b : Inst) (h : Kept K s) : Kept K (State.boundary s b) := by
  unfold State.boundary; repeat' (first
      | with_reducible (first
          | assumption | rfl | refine kept_ite ?_ ?_ | apply State.setFrp_kept | apply State.wakeCores_kept | apply State.shutLegs_kept
          | apply State.reviveAtBoundary_kept | apply State.ipfixLegs_kept | apply State.bgHolds_kept | apply State.endSwath_kept
          | apply State.legsStop_kept | apply State.applyDue_kept | apply State.followUnits_kept | apply State.newSwath_kept | apply State.legsOn_kept
          | apply State.handLeg_kept | apply State.readyMedia_kept | apply State.stageMissing_kept | apply State.stageSet_kept
          | apply State.stageReport_kept | apply State.tndLinks_kept | apply State.tndLegs_kept)
      | refine kept_foldl (fun _ _ _ => ?_) _ ?_ | dsimp only | split | assumption)

theorem State.gatherEnd_kept {K : Keep} {s : State} (h : Kept K s) : Kept K (State.gatherEnd s) := by
  unfold State.gatherEnd; repeat' (first
      | with_reducible (first
          | assumption | rfl | refine kept_ite ?_ ?_ | apply State.migrateIns_kept | apply State.setSwt_kept)
      | dsimp only | split | assumption)

theorem State.cancelOne_kept {K : Keep} {s : State} (i : Nat) (t : Task) (h : Kept K s) : Kept K (State.cancelOne s i t) := by
  unfold State.cancelOne; repeat' (first
      | with_reducible (first
          | assumption | rfl | refine kept_ite ?_ ?_ | apply State.settleFaults_kept | apply State.countFallback_kept | apply State.callCancel_kept
          | apply State.cancelTask_kept | apply State.setLeg_kept | apply State.bump_kept)
      | dsimp only | split | assumption)

theorem State.abortDescs_kept {K : Keep} {s : State} (gone : List Nat) (h : Kept K s) : Kept K (State.abortDescs s gone) := by
  unfold State.abortDescs; repeat' (first
      | with_reducible (first
          | assumption | rfl | refine kept_ite ?_ ?_ | apply State.unpinRange_kept | apply State.setDring_kept | apply State.bumpBy_kept)
      | refine kept_foldl (fun _ _ _ => ?_) _ ?_ | dsimp only | split | assumption)

theorem State.abortStages_kept {K : Keep} {s : State} (h : Kept K s) : Kept K (State.abortStages s) := by
  unfold State.abortStages; repeat' (first
      | with_reducible (first
          | assumption | rfl | refine kept_ite ?_ ?_ | apply State.dengRest_kept | apply State.kennelDone_kept | apply State.restageEnds_kept
          | apply State.freeArea_kept | apply State.bump_kept)
      | refine kept_foldl (fun _ _ _ => ?_) _ ?_ | dsimp only | split | assumption)

theorem State.deadlineCancel_kept {K : Keep} {s : State} (h : Kept K s) : Kept K (State.deadlineCancel s) := by
  unfold State.deadlineCancel; repeat' (first
      | with_reducible (first
          | assumption | rfl | refine kept_ite ?_ ?_ | apply State.raise_kept | apply State.cancelOne_kept | apply State.abortDescs_kept
          | apply State.abortStages_kept)
      | refine kept_foldl (fun _ _ _ => ?_) _ ?_ | dsimp only | split | assumption)

theorem State.tapOut_kept {K : Keep} {s : State} (l : Nat) (tap : Nat) (b : Block) (h : Kept K s) : Kept K (State.tapOut s l tap b) := by
  unfold State.tapOut; repeat' (first
      | with_reducible (first
          | assumption | rfl | refine kept_ite ?_ ?_ | apply State.capTap_kept)
      | dsimp only | split | assumption)

theorem State.toneOut_kept {K : Keep} {s : State} (l : Nat) (e : ToneEv) (h : Kept K s) : Kept K (State.toneOut s l e) := by
  unfold State.toneOut; repeat' (first
      | with_reducible (first
          | assumption | rfl | refine kept_ite ?_ ?_ | apply State.capTone_kept | apply State.eventAt_kept | apply State.eventTo_kept)
      | dsimp only | split | assumption)

theorem State.commitTask_kept {K : Keep} {s : State} (t : Task) (h : Kept K s) : Kept K (State.commitTask s t) := by
  unfold State.commitTask; repeat' (first
      | with_reducible (first
          | assumption | rfl | refine kept_ite ?_ ?_ | apply State.setLeg_kept | apply State.tapOut_kept | apply State.toneOut_kept)
      | refine kept_foldl (fun _ _ _ => ?_) _ ?_ | dsimp only | split | assumption)

theorem State.commitStats_kept {K : Keep} {s : State} (l : Nat) (h : Kept K s) : Kept K (State.commitStats s l) := by
  unfold State.commitStats; repeat' (first
      | with_reducible (first
          | assumption | rfl | refine kept_ite ?_ ?_ | apply State.setLeg_kept)
      | dsimp only | split | assumption)

theorem State.countTask_kept {K : Keep} {s : State} (t : Task) (h : Kept K s) : Kept K (State.countTask s t) := by
  unfold State.countTask; repeat' (first
      | with_reducible (first
          | assumption | rfl | refine kept_ite ?_ ?_ | apply State.setLeg_kept)
      | dsimp only | split | assumption)

theorem State.commits_kept {K : Keep} {s : State} (h : Kept K s) : Kept K (State.commits s) := by
  unfold State.commits; repeat' (first
      | with_reducible (first
          | assumption | rfl | refine kept_ite ?_ ?_ | apply State.commitTask_kept | apply State.countTask_kept | apply State.commitStats_kept)
      | refine kept_foldl (fun _ _ _ => ?_) _ ?_ | dsimp only | split | assumption)

theorem State.backEng_kept {K : Keep} {s : State} (a : Area) (h : Kept K s) : Kept K (s.backEng a).1 := by
  simp only [State.backEng]
  split
  · exact h
  · split
    · exact State.pickEng_kept_of ‹_› h
    · exact h

theorem State.backStart_kept {K : Keep} {s : State} (a b : Area) (h : Kept K s) : Kept K (s.backStart a b) :=
  State.putArea_kept _ _ (State.postArea_kept _ (State.backEng_kept _ h))

theorem State.replaysBack_kept {K : Keep} {s : State} (h : Kept K s) : Kept K (State.replaysBack s) := by
  unfold State.replaysBack; repeat' (first
      | with_reducible (first
          | assumption | rfl | refine kept_ite ?_ ?_ | apply State.setTask_kept | apply State.setMmu_kept | apply State.backStart_kept)
      | refine kept_foldl (fun _ _ _ => ?_) _ ?_ | dsimp only | split | assumption)

theorem State.writeBacks_kept {K : Keep} {s : State} (h : Kept K s) : Kept K (State.writeBacks s) := by
  unfold State.writeBacks; repeat' (first
      | with_reducible (first
          | assumption | rfl | refine kept_ite ?_ ?_ | apply State.releaseArea_kept | apply State.backStart_kept | apply State.replaysBack_kept
          | apply State.freeArea_kept | apply State.bump_kept | apply State.setMmu_kept | apply State.setAreaSt_kept)
      | refine kept_foldl (fun _ _ _ => ?_) _ ?_ | dsimp only | split | assumption)

theorem State.frameOut_kept {K : Keep} {s : State} (l : Nat) (f : Nat × Nat × Bool × Bytes) (h : Kept K s) : Kept K (State.frameOut s l f) := by
  obtain ⟨kind, at_, _, pay⟩ := f
  have h1 := State.eventsOut_kept l at_ h
  unfold State.frameOut
  rcases he : s.eventsOut l at_ with ⟨s1, took⟩
  rw [he] at h1
  simp only [he]
  refine kept_ite h1 ?_
  split
  · exact State.voiceOut_kept _ _ _ _ _ h1
  · exact State.voiceOut_kept _ _ _ _ _ h1
  · exact State.setLeg_kept _ _ h1

theorem State.slotOut_kept {K : Keep} {s : State} (l : Nat) (q : LSlot) (h : Kept K s) : Kept K (State.slotOut s l q) := by
  unfold State.slotOut; repeat' (first
      | with_reducible (first
          | assumption | rfl | refine kept_ite ?_ ?_ | apply State.bump_kept | apply State.takeEvts_kept | apply State.fallbackOut_kept
          | apply State.relayOut_kept | apply State.reportOut_kept | apply State.byeOut_kept | apply State.frameOut_kept)
      | refine kept_foldl (fun _ _ _ => ?_) _ ?_ | dsimp only | split | assumption)

theorem State.rtcpSlots_kept {K : Keep} {s : State} (h : Kept K s) : Kept K (State.rtcpSlots s) := by
  unfold State.rtcpSlots; repeat' (first
      | with_reducible (first
          | assumption | rfl | refine kept_ite ?_ ?_ | apply State.setLeg_kept)
      | refine kept_foldl (fun _ _ _ => ?_) _ ?_ | dsimp only | split | assumption)

theorem State.leashesOut_kept {K : Keep} {s : State} (h : Kept K s) : Kept K (State.leashesOut s) := by
  unfold State.leashesOut; repeat' (first
      | with_reducible (first
          | assumption | rfl | refine kept_ite ?_ ?_ | apply State.slotOut_kept | apply State.setLeg_kept)
      | refine kept_foldl (fun _ _ _ => ?_) _ ?_ | dsimp only | split | assumption)

theorem State.freeMedia_kept {K : Keep} {s : State} (h : Kept K s) : Kept K (State.freeMedia s) := by
  unfold State.freeMedia; repeat' (first
      | with_reducible (first
          | assumption | rfl | refine kept_ite ?_ ?_ | apply State.setFrp_kept | apply State.freeTask_kept | apply State.countTask_kept)
      | refine kept_foldl (fun _ _ _ => ?_) _ ?_ | dsimp only | split | assumption)

theorem State.restage_kept {K : Keep} {s : State} (h : Kept K s) : Kept K (State.restage s) := by
  unfold State.restage; repeat' (first
      | with_reducible (first
          | assumption | rfl | refine kept_ite ?_ ?_ | apply State.freeArea_kept | apply State.stageSet_kept)
      | refine kept_foldl (fun _ _ _ => ?_) _ ?_ | dsimp only | split | assumption)

theorem State.deadline_kept {K : Keep} {s : State} (h : Kept K s) : Kept K (State.deadline s) := by
  unfold State.deadline; repeat' (first
      | with_reducible (first
          | assumption | rfl | refine kept_ite ?_ ?_ | apply State.keepSelections_kept | apply State.setFld_kept
          | apply State.gatherEnd_kept | apply State.commits_kept | apply State.deadlineCancel_kept | apply State.rtcpSlots_kept
          | apply State.writeBacks_kept | apply State.takePieces_kept | apply State.freeMedia_kept | apply State.sendParcels_kept
          | apply State.leashesOut_kept | apply State.wakeCores_kept | apply State.cutAll_kept | apply State.restage_kept)
      | dsimp only | split | assumption)

theorem State.guardStart_kept {K : Keep} {s : State} (h : Kept K s) : Kept K (State.guardStart s) := by
  unfold State.guardStart; repeat' (first
      | with_reducible (first
          | assumption | rfl | refine kept_ite ?_ ?_ | apply State.capEmitEnd_kept | apply State.setFld_kept | apply State.helloAll_kept
          | apply State.parcelsLate_kept)
      | dsimp only | split | assumption)

theorem State.phasesOwed_kept {K : Keep} {s : State} (h : Kept K s) : Kept K (State.phasesOwed s) := by
  unfold State.phasesOwed; repeat' (first
      | with_reducible (first
          | assumption | rfl | refine kept_ite ?_ ?_ | apply State.deadline_kept | apply State.guardStart_kept)
      | dsimp only | split | assumption)

theorem State.newLen_kept {K : Keep} {s : State} (h : Kept K s) : Kept K (State.newLen s) := by
  unfold State.newLen; repeat' (first
      | with_reducible (first
          | assumption | rfl | refine kept_ite ?_ ?_ | apply State.setSwt_kept | apply State.movePhases_kept | apply State.tndNewLen_kept)
      | dsimp only | split | assumption)

theorem swtEffect_kept {K : Keep} {s : State} (a : Nat) (old : Nat) (v : Nat) (h : Kept K s) : Kept K (swtEffect s a old v) := by
  unfold swtEffect; repeat' (first
      | with_reducible (first
          | assumption | rfl | refine kept_ite ?_ ?_ | apply State.newLen_kept | apply State.updOver_kept | apply State.updCyc_kept
          | apply State.startStages_kept)
      | dsimp only | split | assumption)

theorem execSwathBoundary_kept {K : Keep} {s : State} (h : Kept K s) : ∃ u, execSwathBoundary s = .next u ∧ Kept K u := by
  refine ⟨_, rfl, ?_⟩; repeat' (first
      | with_reducible (first
          | assumption | rfl | refine kept_ite ?_ ?_ | apply State.boundary_kept | apply State.phasesOwed_kept)
      | refine kept_foldl (fun _ _ _ => ?_) _ ?_ | dsimp only | split | assumption)

theorem execGatherEnd_kept {K : Keep} {s : State} (h : Kept K s) : ∃ u, execGatherEnd s = .next u ∧ Kept K u := by
  refine ⟨_, rfl, ?_⟩; repeat' (first
      | with_reducible (first
          | assumption | rfl | refine kept_ite ?_ ?_ | apply State.gatherEnd_kept)
      | refine kept_foldl (fun _ _ _ => ?_) _ ?_ | dsimp only | split | assumption)

theorem execWorkStart_kept {K : Keep} {s : State} (h : Kept K s) : ∃ u, execWorkStart s = .next u ∧ Kept K u := by
  refine ⟨_, rfl, ?_⟩; repeat' (first
      | with_reducible (first
          | assumption | rfl | refine kept_ite ?_ ?_ | apply State.setFld_kept | apply State.gatherEnd_kept
          | apply State.readyMedia_kept)
      | refine kept_foldl (fun _ _ _ => ?_) _ ?_ | dsimp only | split | assumption)

theorem execWorkDeadline_kept {K : Keep} {s : State} (h : Kept K s) : ∃ u, execWorkDeadline s = .next u ∧ Kept K u := by
  refine ⟨_, rfl, ?_⟩; repeat' (first
      | with_reducible (first
          | assumption | rfl | refine kept_ite ?_ ?_ | apply State.deadline_kept)
      | refine kept_foldl (fun _ _ _ => ?_) _ ?_ | dsimp only | split | assumption)

theorem execGuardStart_kept {K : Keep} {s : State} (h : Kept K s) : ∃ u, execGuardStart s = .next u ∧ Kept K u := by
  refine ⟨_, rfl, ?_⟩; repeat' (first
      | with_reducible (first
          | assumption | rfl | refine kept_ite ?_ ?_ | apply State.guardStart_kept | apply State.parcelsLate_kept | apply State.helloAll_kept
          | apply State.capEmitEnd_kept | apply State.setFld_kept)
      | refine kept_foldl (fun _ _ _ => ?_) _ ?_ | dsimp only | split | assumption)

/-! ### What `Machine/RegWrite.lean` keeps -/

theorem State.readAct_kept {K : Keep} {s : State} (i2c : Bool) (a : Nat) (h : Kept K s) : Kept K (State.readAct s i2c a) := by
  unfold State.readAct; repeat' (first
      | with_reducible (first
          | assumption | rfl | refine kept_ite ?_ ?_ | apply State.setTmu_kept | apply State.tinPop_kept | apply State.setReg_kept
          | apply State.macCntLatch_kept | apply State.mzLatch_kept | apply State.frpPop_kept | apply State.glnPop_kept
          | apply State.strmLatch_kept)
      | dsimp only | split | refine State.tinPop_kept_of ‹_› ?_ | assumption)

theorem readRegs_kept {K : Keep} : ∀ (n : Nat) {s : State} (i : Bool) (a : Nat), Kept K s → Kept K (readRegs n s i a).1
  | 0, _, _, _, h => h
  | n + 1, _, i, a, h => readRegs_kept n i (a + 4) (State.readAct_kept _ _ h)

theorem State.stagePair_kept {K : Keep} {s : State} (a : Nat) (v : Nat) (h : Kept K s) : Kept K (State.stagePair s a v) := by
  unfold State.stagePair; repeat' (first
      | with_reducible (first
          | assumption | rfl | refine kept_ite ?_ ?_ | apply State.setReg_kept | apply State.ctlPend_kept)
      | dsimp only | split | assumption)

theorem State.effect_kept {K : Keep} {s : State} (a : Nat) (old : Nat) (v : Nat) (h : Kept K s) : Kept K (State.effect s a old v) := by
  unfold State.effect; repeat' (first
      | with_reducible (first
          | assumption | rfl | refine kept_ite ?_ ?_ | apply swtEffect_kept | apply tmuEffect_kept | apply macEffect_kept
          | apply plyEffect_kept | apply fceEffect_kept | apply eceEffect_kept | apply knlEffect_kept | apply mmuEffect_kept
          | apply frpEffect_kept | apply balEffect_kept | apply glnEffect_kept | apply bgwEffect_kept)
      | dsimp only | split | assumption)

theorem State.writePair_kept {K : Keep} {s : State} (a : Nat) (v : Nat) (h : Kept K s) : Kept K (State.writePair s a v) := by
  unfold State.writePair; repeat' (first
      | with_reducible (first
          | assumption | rfl | refine kept_ite ?_ ?_ | apply State.setReg_kept | apply State.effect_kept)
      | dsimp only | split | assumption)

theorem applyPairs_kept {K : Keep} {s : State} (ps : List (Nat × Nat)) (h : Kept K s) : Kept K (applyPairs s ps).1 := by
  have main : ∀ (l : List (Nat × Nat)) (r : State × Bool), Kept K r.1 →
      Kept K (l.foldl (fun (r : State × Bool) p => (r.1.writePair p.1 p.2, r.2 || tmuLate r.1 p.1 p.2)) r).1 := by
    intro l
    induction l with
    | nil => exact fun _ h => h
    | cons p l ih => exact fun r h => ih _ (State.writePair_kept _ _ h)
  exact main _ _ h

theorem regApply_kept {K : Keep} {s : State} (b : Bytes) (h : Kept K s) : Kept K (regApply s b).s := by
  exact applyPairs_kept _ h

theorem State.loftDone_kept {K : Keep} {s : State} (h : Kept K s) : Kept K s.loftDone := by
  unfold State.loftDone
  dsimp only
  exact kept_foldl (fun t w ht => State.replyLate_kept _ _ _ _ _ _ _ (regApply_kept _ ht)) _ (State.setSwt_kept h)

theorem opRegWrite_keeps : opRegWrite.Keeps := by
  intro K c pl s b h
  simp only [opRegWrite, Done.wait]
  split
  · exact State.setSwt_kept h
  · exact regApply_kept _ h

theorem writeOne_kept {K : Keep} {s : State} {c : RegCmd} {a v : Nat} (h : Kept K s) : Kept K (writeOne c a v s) :=
  runOp_kept opRegWrite_keeps h

theorem i2cRead_kept {K : Keep} {s : State} {n : Nat} (h : Kept K s) : Kept K (i2cRead n s) := by
  unfold i2cRead
  split
  · exact h
  · split
    · exact h
    · exact readRegs_kept n true s.i2cAddr h

theorem opRegRead_keeps : opRegRead.Keeps := by
  intro K c pl s b h
  exact readRegs_kept _ _ _ h

theorem readOne_kept {K : Keep} {s : State} {p : Path} {a : Nat} (h : Kept K s) : Kept K (readOne p a s) := by
  unfold readOne
  split
  · exact runOp_kept opRegRead_keeps h
  · split
    · exact h
    · exact i2cRead_kept (s := { s with i2cAddr := a }) h

theorem execMoveComplete_kept {K : Keep} {s : State} (h : Kept K s) : ∃ u, execMoveComplete s = .next u ∧ Kept K u := by
  refine ⟨_, rfl, ?_⟩; repeat' (first
      | with_reducible (first
          | assumption | rfl | refine kept_ite ?_ ?_ | apply State.loftDone_kept | apply State.moveDone_kept)
      | refine kept_foldl (fun _ _ _ => ?_) _ ?_ | dsimp only | split | assumption)

theorem execRegWrite_kept {K : Keep} {s : State} (q : Req) (h : Kept K s) : ∃ u, execRegWrite q s = .next u ∧ Kept K u := by
  refine ⟨_, rfl, ?_⟩; repeat' (first
      | with_reducible (first
          | assumption | rfl | refine kept_ite ?_ ?_)
      | refine kept_foldl (fun _ _ _ => ?_) _ ?_ | dsimp only | exact runOp_kept opRegWrite_keeps ‹_› | split | assumption)

theorem execRegRead_kept {K : Keep} {s : State} (q : Req) (h : Kept K s) : ∃ u, execRegRead q s = .next u ∧ Kept K u := by
  refine ⟨_, rfl, ?_⟩; repeat' (first
      | with_reducible (first
          | assumption | rfl | refine kept_ite ?_ ?_)
      | refine kept_foldl (fun _ _ _ => ?_) _ ?_ | dsimp only | exact runOp_kept opRegRead_keeps ‹_› | split | assumption)

theorem execTmuCtlSet_kept {K : Keep} {s : State} (c : RegCmd) (h : Kept K s) : ∃ u, execTmuCtlSet c s = .next u ∧ Kept K u := by
  refine ⟨_, rfl, ?_⟩; repeat' (first
      | with_reducible (first
          | assumption | rfl | refine kept_ite ?_ ?_ | apply writeOne_kept)
      | refine kept_foldl (fun _ _ _ => ?_) _ ?_ | dsimp only | split | assumption)

theorem execTmuCtlStep_kept {K : Keep} {s : State} (c : RegCmd) (h : Kept K s) : ∃ u, execTmuCtlStep c s = .next u ∧ Kept K u := by
  refine ⟨_, rfl, ?_⟩; repeat' (first
      | with_reducible (first
          | assumption | rfl | refine kept_ite ?_ ?_ | apply writeOne_kept)
      | refine kept_foldl (fun _ _ _ => ?_) _ ?_ | dsimp only | split | assumption)

theorem execTmuSrvEnWrite_kept {K : Keep} {s : State} (c : RegCmd) (v : Word) (h : Kept K s) : ∃ u, execTmuSrvEnWrite c v s = .next u ∧ Kept K u := by
  refine ⟨_, rfl, ?_⟩; repeat' (first
      | with_reducible (first
          | assumption | rfl | refine kept_ite ?_ ?_ | apply writeOne_kept)
      | refine kept_foldl (fun _ _ _ => ?_) _ ?_ | dsimp only | split | assumption)

theorem execTmuAddendWrite_kept {K : Keep} {s : State} (c : RegCmd) (ext : Bool) (v : Word) (h : Kept K s) : ∃ u, execTmuAddendWrite c ext v s = .next u ∧ Kept K u := by
  refine ⟨_, rfl, ?_⟩; repeat' (first
      | with_reducible (first
          | assumption | rfl | refine kept_ite ?_ ?_ | apply writeOne_kept)
      | refine kept_foldl (fun _ _ _ => ?_) _ ?_ | dsimp only | split | assumption)

theorem execTmuRefSelWrite_kept {K : Keep} {s : State} (c : RegCmd) (v : Word) (h : Kept K s) : ∃ u, execTmuRefSelWrite c v s = .next u ∧ Kept K u := by
  refine ⟨_, rfl, ?_⟩; repeat' (first
      | with_reducible (first
          | assumption | rfl | refine kept_ite ?_ ?_ | apply writeOne_kept)
      | refine kept_foldl (fun _ _ _ => ?_) _ ?_ | dsimp only | split | assumption)

theorem execTmuTimeSecHiRead_kept {K : Keep} {s : State} (p : Path) (h : Kept K s) : ∃ u, execTmuTimeSecHiRead p s = .next u ∧ Kept K u := by
  refine ⟨_, rfl, ?_⟩; repeat' (first
      | with_reducible (first
          | assumption | rfl | refine kept_ite ?_ ?_ | apply readOne_kept)
      | refine kept_foldl (fun _ _ _ => ?_) _ ?_ | dsimp only | split | assumption)

theorem execTmuTinPop_kept {K : Keep} {s : State} (n : Fin 5) (p : Path) (h : Kept K s) : ∃ u, execTmuTinPop n p s = .next u ∧ Kept K u := by
  refine ⟨_, rfl, ?_⟩; repeat' (first
      | with_reducible (first
          | assumption | rfl | refine kept_ite ?_ ?_ | apply readOne_kept)
      | refine kept_foldl (fun _ _ _ => ?_) _ ?_ | dsimp only | split | assumption)

theorem execTmuToutArm_kept {K : Keep} {s : State} (n : Fin 4) (c : RegCmd) (h : Kept K s) : ∃ u, execTmuToutArm n c s = .next u ∧ Kept K u := by
  refine ⟨_, rfl, ?_⟩; repeat' (first
      | with_reducible (first
          | assumption | rfl | refine kept_ite ?_ ?_ | apply writeOne_kept)
      | refine kept_foldl (fun _ _ _ => ?_) _ ?_ | dsimp only | split | assumption)

theorem execTmuToutDisarm_kept {K : Keep} {s : State} (n : Fin 4) (c : RegCmd) (h : Kept K s) : ∃ u, execTmuToutDisarm n c s = .next u ∧ Kept K u := by
  refine ⟨_, rfl, ?_⟩; repeat' (first
      | with_reducible (first
          | assumption | rfl | refine kept_ite ?_ ?_ | apply writeOne_kept)
      | refine kept_foldl (fun _ _ _ => ?_) _ ?_ | dsimp only | split | assumption)

theorem execMacCfgEnWrite_kept {K : Keep} {s : State} (p : Fin 8) (c : RegCmd) (v : Word) (h : Kept K s) : ∃ u, execMacCfgEnWrite p c v s = .next u ∧ Kept K u := by
  refine ⟨_, rfl, ?_⟩; repeat' (first
      | with_reducible (first
          | assumption | rfl | refine kept_ite ?_ ?_ | apply writeOne_kept)
      | refine kept_foldl (fun _ _ _ => ?_) _ ?_ | dsimp only | split | assumption)

theorem execMacCtlAnRestart_kept {K : Keep} {s : State} (p : Fin 8) (c : RegCmd) (h : Kept K s) : ∃ u, execMacCtlAnRestart p c s = .next u ∧ Kept K u := by
  refine ⟨_, rfl, ?_⟩; repeat' (first
      | with_reducible (first
          | assumption | rfl | refine kept_ite ?_ ?_ | apply writeOne_kept)
      | refine kept_foldl (fun _ _ _ => ?_) _ ?_ | dsimp only | split | assumption)

theorem execMacCtlPeakClr_kept {K : Keep} {s : State} (p : Fin 8) (c : RegCmd) (h : Kept K s) : ∃ u, execMacCtlPeakClr p c s = .next u ∧ Kept K u := by
  refine ⟨_, rfl, ?_⟩; repeat' (first
      | with_reducible (first
          | assumption | rfl | refine kept_ite ?_ ?_ | apply writeOne_kept)
      | refine kept_foldl (fun _ _ _ => ?_) _ ?_ | dsimp only | split | assumption)

theorem execMacCntLoRead_kept {K : Keep} {s : State} (p : Fin 8) (tx : Bool) (path : Path) (h : Kept K s) : ∃ u, execMacCntLoRead p tx path s = .next u ∧ Kept K u := by
  refine ⟨_, rfl, ?_⟩; repeat' (first
      | with_reducible (first
          | assumption | rfl | refine kept_ite ?_ ?_ | apply readOne_kept)
      | refine kept_foldl (fun _ _ _ => ?_) _ ?_ | dsimp only | split | assumption)

theorem execQcpMzCtrHiRead_kept {K : Keep} {s : State} (k : Fin 8) (p : Path) (h : Kept K s) : ∃ u, execQcpMzCtrHiRead k p s = .next u ∧ Kept K u := by
  refine ⟨_, rfl, ?_⟩; repeat' (first
      | with_reducible (first
          | assumption | rfl | refine kept_ite ?_ ?_ | apply readOne_kept)
      | refine kept_foldl (fun _ _ _ => ?_) _ ?_ | dsimp only | split | assumption)

theorem execTndDevnoWrite_kept {K : Keep} {s : State} (c : RegCmd) (v : Word) (h : Kept K s) : ∃ u, execTndDevnoWrite c v s = .next u ∧ Kept K u := by
  refine ⟨_, rfl, ?_⟩; repeat' (first
      | with_reducible (first
          | assumption | rfl | refine kept_ite ?_ ?_ | apply writeOne_kept)
      | refine kept_foldl (fun _ _ _ => ?_) _ ?_ | dsimp only | split | assumption)

theorem execTndWinWrite_kept {K : Keep} {s : State} (c : RegCmd) (v : Word) (h : Kept K s) : ∃ u, execTndWinWrite c v s = .next u ∧ Kept K u := by
  refine ⟨_, rfl, ?_⟩; repeat' (first
      | with_reducible (first
          | assumption | rfl | refine kept_ite ?_ ?_ | apply writeOne_kept)
      | refine kept_foldl (fun _ _ _ => ?_) _ ?_ | dsimp only | split | assumption)

theorem execFaultRecordPop_kept {K : Keep} {s : State} (p : Path) (h : Kept K s) : ∃ u, execFaultRecordPop p s = .next u ∧ Kept K u := by
  refine ⟨_, rfl, ?_⟩; repeat' (first
      | with_reducible (first
          | assumption | rfl | refine kept_ite ?_ ?_ | apply readOne_kept)
      | refine kept_foldl (fun _ _ _ => ?_) _ ?_ | dsimp only | split | assumption)

theorem execMmuCtlPeakClr_kept {K : Keep} {s : State} (c : RegCmd) (h : Kept K s) : ∃ u, execMmuCtlPeakClr c s = .next u ∧ Kept K u := by
  refine ⟨_, rfl, ?_⟩; repeat' (first
      | with_reducible (first
          | assumption | rfl | refine kept_ite ?_ ?_ | apply writeOne_kept)
      | refine kept_foldl (fun _ _ _ => ?_) _ ?_ | dsimp only | split | assumption)

theorem execSwtLenWrite_kept {K : Keep} {s : State} (c : RegCmd) (v : Word) (h : Kept K s) : ∃ u, execSwtLenWrite c v s = .next u ∧ Kept K u := by
  refine ⟨_, rfl, ?_⟩; repeat' (first
      | with_reducible (first
          | assumption | rfl | refine kept_ite ?_ ?_ | apply writeOne_kept)
      | refine kept_foldl (fun _ _ _ => ?_) _ ?_ | dsimp only | split | assumption)

theorem execSwtLoftBudWrite_kept {K : Keep} {s : State} (c : RegCmd) (v : Word) (h : Kept K s) : ∃ u, execSwtLoftBudWrite c v s = .next u ∧ Kept K u := by
  refine ⟨_, rfl, ?_⟩; repeat' (first
      | with_reducible (first
          | assumption | rfl | refine kept_ite ?_ ?_ | apply writeOne_kept)
      | refine kept_foldl (fun _ _ _ => ?_) _ ?_ | dsimp only | split | assumption)

theorem execSwtCycPctWrite_kept {K : Keep} {s : State} (c : RegCmd) (v : Word) (h : Kept K s) : ∃ u, execSwtCycPctWrite c v s = .next u ∧ Kept K u := by
  refine ⟨_, rfl, ?_⟩; repeat' (first
      | with_reducible (first
          | assumption | rfl | refine kept_ite ?_ ?_ | apply writeOne_kept)
      | refine kept_foldl (fun _ _ _ => ?_) _ ?_ | dsimp only | split | assumption)

theorem execPlyCtlPeakClr_kept {K : Keep} {s : State} (c : RegCmd) (h : Kept K s) : ∃ u, execPlyCtlPeakClr c s = .next u ∧ Kept K u := by
  refine ⟨_, rfl, ?_⟩; repeat' (first
      | with_reducible (first
          | assumption | rfl | refine kept_ite ?_ ?_ | apply writeOne_kept)
      | refine kept_foldl (fun _ _ _ => ?_) _ ?_ | dsimp only | split | assumption)

theorem execFceCtlPeakClr_kept {K : Keep} {s : State} (e : Fin 16) (c : RegCmd) (h : Kept K s) : ∃ u, execFceCtlPeakClr e c s = .next u ∧ Kept K u := by
  refine ⟨_, rfl, ?_⟩; repeat' (first
      | with_reducible (first
          | assumption | rfl | refine kept_ite ?_ ?_ | apply writeOne_kept)
      | refine kept_foldl (fun _ _ _ => ?_) _ ?_ | dsimp only | split | assumption)

theorem execEceCtlPeakClr_kept {K : Keep} {s : State} (e : Fin 32) (c : RegCmd) (h : Kept K s) : ∃ u, execEceCtlPeakClr e c s = .next u ∧ Kept K u := by
  refine ⟨_, rfl, ?_⟩; repeat' (first
      | with_reducible (first
          | assumption | rfl | refine kept_ite ?_ ?_ | apply writeOne_kept)
      | refine kept_foldl (fun _ _ _ => ?_) _ ?_ | dsimp only | split | assumption)

theorem execKnlCtlHistClr_kept {K : Keep} {s : State} (c : RegCmd) (h : Kept K s) : ∃ u, execKnlCtlHistClr c s = .next u ∧ Kept K u := by
  refine ⟨_, rfl, ?_⟩; repeat' (first
      | with_reducible (first
          | assumption | rfl | refine kept_ite ?_ ?_ | apply writeOne_kept)
      | refine kept_foldl (fun _ _ _ => ?_) _ ?_ | dsimp only | split | assumption)

theorem execKnlCtlPeakClr_kept {K : Keep} {s : State} (c : RegCmd) (h : Kept K s) : ∃ u, execKnlCtlPeakClr c s = .next u ∧ Kept K u := by
  refine ⟨_, rfl, ?_⟩; repeat' (first
      | with_reducible (first
          | assumption | rfl | refine kept_ite ?_ ?_ | apply writeOne_kept)
      | refine kept_foldl (fun _ _ _ => ?_) _ ?_ | dsimp only | split | assumption)

theorem execKnlHistSelWrite_kept {K : Keep} {s : State} (c : RegCmd) (v : Word) (h : Kept K s) : ∃ u, execKnlHistSelWrite c v s = .next u ∧ Kept K u := by
  refine ⟨_, rfl, ?_⟩; repeat' (first
      | with_reducible (first
          | assumption | rfl | refine kept_ite ?_ ?_ | apply writeOne_kept)
      | refine kept_foldl (fun _ _ _ => ?_) _ ?_ | dsimp only | split | assumption)

theorem execKnlRefuseWrite_kept {K : Keep} {s : State} (c : RegCmd) (v : Word) (h : Kept K s) : ∃ u, execKnlRefuseWrite c v s = .next u ∧ Kept K u := by
  refine ⟨_, rfl, ?_⟩; repeat' (first
      | with_reducible (first
          | assumption | rfl | refine kept_ite ?_ ?_ | apply writeOne_kept)
      | refine kept_foldl (fun _ _ _ => ?_) _ ?_ | dsimp only | split | assumption)

theorem execFrpCtlPeakClr_kept {K : Keep} {s : State} (c : RegCmd) (h : Kept K s) : ∃ u, execFrpCtlPeakClr c s = .next u ∧ Kept K u := by
  refine ⟨_, rfl, ?_⟩; repeat' (first
      | with_reducible (first
          | assumption | rfl | refine kept_ite ?_ ?_ | apply writeOne_kept)
      | refine kept_foldl (fun _ _ _ => ?_) _ ?_ | dsimp only | split | assumption)

theorem execGrnCapStrmHiRead_kept {K : Keep} {s : State} (p : Path) (h : Kept K s) : ∃ u, execGrnCapStrmHiRead p s = .next u ∧ Kept K u := by
  refine ⟨_, rfl, ?_⟩; repeat' (first
      | with_reducible (first
          | assumption | rfl | refine kept_ite ?_ ?_ | apply readOne_kept)
      | refine kept_foldl (fun _ _ _ => ?_) _ ?_ | dsimp only | split | assumption)

theorem execBalCtlPeakClr_kept {K : Keep} {s : State} (c : RegCmd) (h : Kept K s) : ∃ u, execBalCtlPeakClr c s = .next u ∧ Kept K u := by
  refine ⟨_, rfl, ?_⟩; repeat' (first
      | with_reducible (first
          | assumption | rfl | refine kept_ite ?_ ?_ | apply writeOne_kept)
      | refine kept_foldl (fun _ _ _ => ?_) _ ?_ | dsimp only | split | assumption)

theorem execGlnCtlCut_kept {K : Keep} {s : State} (c : RegCmd) (h : Kept K s) : ∃ u, execGlnCtlCut c s = .next u ∧ Kept K u := by
  refine ⟨_, rfl, ?_⟩; repeat' (first
      | with_reducible (first
          | assumption | rfl | refine kept_ite ?_ ?_ | apply writeOne_kept)
      | refine kept_foldl (fun _ _ _ => ?_) _ ?_ | dsimp only | split | assumption)

theorem execGlnCfgEnWrite_kept {K : Keep} {s : State} (c : RegCmd) (v : Word) (h : Kept K s) : ∃ u, execGlnCfgEnWrite c v s = .next u ∧ Kept K u := by
  refine ⟨_, rfl, ?_⟩; repeat' (first
      | with_reducible (first
          | assumption | rfl | refine kept_ite ?_ ?_ | apply writeOne_kept)
      | refine kept_foldl (fun _ _ _ => ?_) _ ?_ | dsimp only | split | assumption)

theorem execGlnRecPopRead_kept {K : Keep} {s : State} (p : Path) (h : Kept K s) : ∃ u, execGlnRecPopRead p s = .next u ∧ Kept K u := by
  refine ⟨_, rfl, ?_⟩; repeat' (first
      | with_reducible (first
          | assumption | rfl | refine kept_ite ?_ ?_ | apply readOne_kept)
      | refine kept_foldl (fun _ _ _ => ?_) _ ?_ | dsimp only | split | assumption)

theorem execI2cAddressWrite_kept {K : Keep} {s : State} (a : BitVec 32) (h : Kept K s) : ∃ u, execI2cAddressWrite a s = .next u ∧ Kept K u := by
  refine ⟨_, rfl, ?_⟩; repeat' (first
      | with_reducible (first
          | assumption | rfl | refine kept_ite ?_ ?_)
      | refine kept_foldl (fun _ _ _ => ?_) _ ?_ | dsimp only | split | assumption)

theorem execI2cRead_kept {K : Keep} {s : State} (count : Fin 65) (h : Kept K s) : ∃ u, execI2cRead count s = .next u ∧ Kept K u := by
  refine ⟨_, rfl, ?_⟩; repeat' (first
      | with_reducible (first
          | assumption | rfl | refine kept_ite ?_ ?_ | apply i2cRead_kept)
      | refine kept_foldl (fun _ _ _ => ?_) _ ?_ | dsimp only | split | assumption)

/-! ### What `Machine/Journal.lean` keeps -/

theorem State.commitFail_kept {K : Keep} {s : State} (j : Jrnl) (h : Kept K s) : Kept K (State.commitFail s j) := by
  unfold State.commitFail; repeat' (first
      | with_reducible (first
          | assumption | rfl | refine kept_ite ?_ ?_ | apply State.dropBulk_kept | apply State.bump_kept | apply State.setSess_kept
          | apply State.raise_kept | apply State.reply_kept)
      | dsimp only | split | assumption)

theorem State.recRefused_kept {K : Keep} {s : State} (r : JRec) (st : Nat) (h : Kept K s) : Kept K (State.recRefused s r st) := by
  unfold State.recRefused; repeat' (first
      | with_reducible (first
          | assumption | rfl | refine kept_ite ?_ ?_ | apply State.pushRecord_kept | apply State.bump_kept | apply State.raise_kept)
      | dsimp only | split | assumption)

theorem kget_mem {α : Type} {v : α} : ∀ {m : KV α} {i : Nat}, kget m i = some v → (i, v) ∈ m
  | [], _, h => by simp [kget] at h
  | (a, w) :: m, i, h => by
    unfold kget at h
    split at h
    · rename_i e; cases h; simp [e]
    · split at h
      · cases h
      · exact List.mem_cons_of_mem _ (kget_mem h)

theorem famSession_keeps : ∀ p ∈ famSession, p.2.Keeps := by
  simp only [famSession, List.forall_mem_cons]
  exact ⟨opRefused_keeps, opRefused_keeps, opSessionKeepalive_keeps, opSessionClose_keeps, opSessionSubscribe_keeps, opSessionKeySet_keeps, opSessionKeyClear_keeps, opUnmuzzle_keeps, opMuzzleKeySet_keeps, opSessionList_keeps, opMuzzleStatus_keeps, List.forall_mem_nil _⟩

theorem famReg_keeps : ∀ p ∈ famReg, p.2.Keeps := by
  simp only [famReg, List.forall_mem_cons]
  exact ⟨opRegWrite_keeps, opRegRead_keeps, List.forall_mem_nil _⟩

theorem famChan_keeps : ∀ p ∈ famChan, p.2.Keeps := by
  simp only [famChan, List.forall_mem_cons]
  exact ⟨opChanEnable_keeps, opChanDisable_keeps, opChanGraph_keeps, opChanFlowAdd_keeps, opChanFlowDel_keeps, opChanEgress_keeps, opChanKey_keeps, opChanPlayout_keeps, opChanEcho_keeps, opChanEchoReset_keeps, opChanBridge_keeps, opChanGain_keeps, opChanGroup_keeps, opChanToneCfg_keeps, opChanTonePlay_keeps, opChanToneStop_keeps, opChanCodec_keeps, opChanRtcp_keeps, opChanClear_keeps, opChanConfCreate_keeps, opChanConfDelete_keeps, opChanConfJoin_keeps, opChanConfLeave_keeps, opChanStatus_keeps, opChanConfStatus_keeps, List.forall_mem_nil _⟩

theorem famGraph_keeps : ∀ p ∈ famGraph, p.2.Keeps := by
  simp only [famGraph, List.forall_mem_cons]
  exact ⟨opGraphDefine_keeps, opGraphDelete_keeps, opGraphCptDefine_keeps, opGraphInfo_keeps, List.forall_mem_nil _⟩

theorem famCoef_keeps : ∀ p ∈ famCoef, p.2.Keeps := by
  simp only [famCoef, List.forall_mem_cons]
  exact ⟨opCoefSetLoad_keeps, opCoefSetFree_keeps, opCoefBank_keeps, opCoefSwap_keeps, opCoefSwapCancel_keeps, opCoefPhase_keeps, opCoefSyncReset_keeps, opCoefSetInfo_keeps, opCoefRomRead_keeps, opCoefChainStatus_keeps, List.forall_mem_nil _⟩

theorem famTime_keeps : ∀ p ∈ famTime, p.2.Keeps := by
  simp only [famTime, List.forall_mem_cons]
  exact ⟨opTimeClock_keeps, opTimePort_keeps, opTimeUnicast_keeps, opTimeStatus_keeps, opTimePortStatus_keeps, List.forall_mem_nil _⟩

theorem famPort_keeps : ∀ p ∈ famPort, p.2.Keeps := by
  simp only [famPort, List.forall_mem_cons]
  exact ⟨opPortEnable_keeps, opPortDisable_keeps, opPortMdioWrite_keeps, opPortMdioRead_keeps, opPortStatus_keeps, List.forall_mem_nil _⟩

theorem famCapt_keeps : ∀ p ∈ famCapt, p.2.Keeps := by
  simp only [famCapt, List.forall_mem_cons]
  exact ⟨opCaptOpen_keeps, opCaptClose_keeps, opCaptEnable_keeps, opCaptDisable_keeps, opCaptTrigger_keeps, opCaptExport_keeps, opCaptRead_keeps, opCaptStatus_keeps, List.forall_mem_nil _⟩

theorem famPatt_keeps : ∀ p ∈ famPatt, p.2.Keeps := by
  simp only [famPatt, List.forall_mem_cons]
  exact ⟨opPattLoad_keeps, opPattFromCapt_keeps, opPattDelete_keeps, opPattPlay_keeps, opPattStop_keeps, opPattInfo_keeps, List.forall_mem_nil _⟩

theorem famRing_keeps : ∀ p ∈ famRing, p.2.Keeps := by
  simp only [famRing, List.forall_mem_cons]
  exact ⟨opRingOpen_keeps, opRingClose_keeps, opRingEnable_keeps, opRingDisable_keeps, opRingFeed_keeps, opRingStatus_keeps, List.forall_mem_nil _⟩

theorem famTand_keeps : ∀ p ∈ famTand, p.2.Keeps := by
  simp only [famTand, List.forall_mem_cons]
  exact ⟨opTandRoute_keeps, opTandRing_keeps, opTandExport_keeps, opTandExportDel_keeps, opTandImport_keeps, opTandImportDel_keeps, opTandConfImport_keeps, opTandMigrateOut_keeps, opTandMigrateIn_keeps, opTandStatus_keeps, List.forall_mem_nil _⟩

theorem famBist_keeps : ∀ p ∈ famBist, p.2.Keeps := by
  simp only [famBist, List.forall_mem_cons]
  exact ⟨opBistRequest_keeps, opBistFuseArm_keeps, opBistFuseConfirm_keeps, opBistLcArm_keeps, opBistLcConfirm_keeps, opBistRepairList_keeps, opBistUnitStatus_keeps, List.forall_mem_nil _⟩

theorem famPrs_keeps : ∀ p ∈ famPrs, p.2.Keeps := by
  simp only [famPrs, List.forall_mem_cons]
  exact ⟨opPrsPartition_keeps, opPrsCheckpoint_keeps, opPrsLogRead_keeps, opPrsInfo_keeps, List.forall_mem_nil _⟩

theorem famFw_keeps : ∀ p ∈ famFw, p.2.Keeps := by
  simp only [famFw, List.forall_mem_cons]
  exact ⟨opFwLoad_keeps, opFwActivate_keeps, opFwStartClear_keeps, opFwInfo_keeps, List.forall_mem_nil _⟩

theorem famStat_keeps : ∀ p ∈ famStat, p.2.Keeps := by
  simp only [famStat, List.forall_mem_cons]
  exact ⟨opStatIpfixSet_keeps, opStatLeg_keeps, opStatDevice_keeps, opStatJrnlFate_keeps, List.forall_mem_nil _⟩

theorem famShut_keeps : ∀ p ∈ famShut, p.2.Keeps := by
  simp only [famShut, List.forall_mem_cons]
  exact ⟨opShutBegin_keeps, opShutAbort_keeps, opShutStatus_keeps, List.forall_mem_nil _⟩

/-- Every operation of the families keeps the durable things. -/
theorem opTable_keeps {c : Nat} {d : OpDef} (h : opTable c = some d) : d.Keeps := by
  unfold opTable at h
  split at h
  · exact famSession_keeps _ (kget_mem h)
  · exact famReg_keeps _ (kget_mem h)
  · exact famChan_keeps _ (kget_mem h)
  · exact famGraph_keeps _ (kget_mem h)
  · exact famCoef_keeps _ (kget_mem h)
  · exact famTime_keeps _ (kget_mem h)
  · exact famPort_keeps _ (kget_mem h)
  · exact famCapt_keeps _ (kget_mem h)
  · exact famPatt_keeps _ (kget_mem h)
  · exact famRing_keeps _ (kget_mem h)
  · exact famTand_keeps _ (kget_mem h)
  · exact famBist_keeps _ (kget_mem h)
  · exact famPrs_keeps _ (kget_mem h)
  · exact famFw_keeps _ (kget_mem h)
  · exact famStat_keeps _ (kget_mem h)
  · exact famShut_keeps _ (kget_mem h)
  · cases h

theorem State.settleOne_kept {K : Keep} {s : State} (a : Armed) (b : Inst) (h : Kept K s) : Kept K (s.settleOne a b) := by
  have hr : Kept K { s with armed := s.armed.erase a } := h
  have hf : Kept K (s.fitChains a.leg (s.legTmpl a.leg)) := State.fitChains_kept _ _ h
  simp only [State.settleOne]
  exact kept_ite (kept_ite hf h) (kept_ite (kept_ite (State.legOff_kept (State.applyLeg_kept _ _ hr)) h)
    (kept_ite (kept_ite (State.applyLeg_kept _ _ hr) h) (kept_ite h (kept_ite (State.applyTnd_kept _ _ hr) (State.applyLeg_kept _ _ hr)))))

theorem State.settleTo_kept {K : Keep} {s : State} (r : JRec) (h : Kept K s) : Kept K (State.settleTo s r) := by
  unfold State.settleTo; repeat' (first
      | with_reducible (first
          | assumption | rfl | refine kept_ite ?_ ?_ | apply State.settleOne_kept | apply State.updChain_kept)
      | refine kept_foldl (fun _ _ _ => ?_) _ ?_ | dsimp only | split | assumption)

theorem State.markArmed_kept {K : Keep} {s : State} (n : Nat) (at_ : Inst) (h : Kept K s) : Kept K (s.markArmed n at_) := h

theorem State.reexec_kept {K : Keep} {s : State} {r : JRec} {counted : Bool} (h : Kept K s) : Kept K (s.reexec r counted) := by
  have h0 : Kept K (s.settleTo r) := State.settleTo_kept _ h
  have h1 : Kept K (if counted then (s.settleTo r).bump R.FRP_RESTORE_CNT else s.settleTo r) := kept_ite (State.bump_kept _ h0) h0
  simp only [State.reexec]
  split
  · exact h1
  · split
    · exact State.recRefused_kept _ _ h1
    · rename_i d hd
      split
      · exact State.recRefused_kept _ _ h1
      · exact State.recRefused_kept _ _ (State.counted_kept _ _ _ h1)
      · exact State.markArmed_kept _ _ (opTable_keeps hd _ _ _ _ _ h1)

theorem State.bulkFrame_kept {K : Keep} {s : State} (m : Nat) (role : Nat) (k : Bulk) (f : CmdFrame) (h : Kept K s) : Kept K (State.bulkFrame s m role k f) := by
  unfold State.bulkFrame
  dsimp only
  refine kept_ite (kept_ite (State.setSess_kept _ _ (State.ringFeed_kept _ _ _ h)) (State.reply_kept _ _ _ _ _ _ _ (State.ringFeed_kept _ _ _ h)))
    (kept_ite (State.setSess_kept _ _ h) ?_)
  split
  · rename_i d hd; exact execOp_kept (opTable_keeps hd) h
  · exact h

theorem execBulkFrame_kept {K : Keep} {s : State} (mbox : Fin 256) (h : Kept K s) : ∃ u, execBulkFrame mbox s = .next u ∧ Kept K u := by
  refine ⟨_, rfl, ?_⟩
  split
  · exact h
  · split
    · exact h
    · exact kept_ite h (State.bulkFrame_kept _ _ _ _ (State.unbell_kept _ (State.setSess_kept _ _ h)))

theorem execJournalCommit_kept {K : Keep} {s : State} (h : Kept K s) : ∃ u, execJournalCommit s = .next u ∧ Kept K u := by
  refine ⟨_, rfl, ?_⟩
  split
  · exact h
  · dsimp only
    split
    · exact State.commitFail_kept _ (State.setQcp_kept h)
    · rename_i u hu
      have hv : ∀ a b c, Kept K ((u.fateCommit a b c).bump R.QCP_JRNL_CNT) := fun a b c =>
        State.bump_kept R.QCP_JRNL_CNT (State.fateCommit_kept a b c (State.commitRec_kept_of hu (State.setQcp_kept h)))
      split
      · rename_i d hd
        exact kept_ite (hv _ _ _) (Done.finish_kept (opTable_keeps hd _ _ _ _ _ (hv _ _ _)))
      · exact hv _ _ _

theorem execUnknownOperation_kept {K : Keep} {s : State} (fam : Byte) (op : Byte) (q : Req) (h : Kept K s) : ∃ u, execUnknownOperation fam op q s = .next u ∧ Kept K u := by
  refine ⟨_, rfl, ?_⟩; repeat' (first
      | with_reducible (first
          | assumption | rfl | refine kept_ite ?_ ?_ | apply State.reply_kept | apply State.take_kept)
      | refine kept_foldl (fun _ _ _ => ?_) _ ?_ | dsimp only | split | assumption)

/-! ### What `Machine/Start.lean` keeps -/

theorem State.setPins_kept {K : Keep} {s : State} {p : Pins} (h : Kept K s) : Kept K (s.setPins p) := h

theorem State.leaveReset_kept {K : Keep} {s : State} (h : Kept K s) : Kept K (State.leaveReset s) := by
  unfold State.leaveReset; repeat' (first
      | with_reducible (first
          | assumption | rfl | refine kept_ite ?_ ?_ | apply State.restart_kept)
      | dsimp only | split | assumption)

theorem State.badImage_kept {K : Keep} {s : State} {alt : Nat} (h : Kept K s) : Kept K (s.badImage alt) := State.setSlot_kept h

theorem State.keepOut_kept {K : Keep} {s : State} (p : Nat × Nat) (h : Kept K s) : Kept K (State.keepOut s p) := by
  unfold State.keepOut; repeat' (first
      | with_reducible (first
          | assumption | rfl | refine kept_ite ?_ ?_ | apply State.takeOut_kept | apply State.setBeng_kept | apply State.setDeng_kept
          | apply State.setUnitT_kept | apply State.setFceFn_kept | apply State.setEceFn_kept | apply State.setCore_kept | apply State.setFld_kept)
      | dsimp only | split | assumption)

theorem State.ringSetup_kept {K : Keep} {s : State} (x : RingSetup) (h : Kept K s) : Kept K (State.ringSetup s x) := by
  unfold State.ringSetup; repeat' (first
      | with_reducible (first
          | assumption | rfl | refine kept_ite ?_ ?_ | apply State.setDring_kept)
      | dsimp only | split | assumption)

theorem State.jobSetup_kept {K : Keep} {s : State} (x : RingSetup) (h : Kept K s) : Kept K (State.jobSetup s x) := by
  unfold State.jobSetup; repeat' (first
      | with_reducible (first
          | assumption | rfl | refine kept_ite ?_ ?_ | apply State.setBring_kept)
      | dsimp only | split | assumption)

theorem State.portOn_kept {K : Keep} {s : State} (p : Nat) (h : Kept K s) : Kept K (State.portOn s p) := by
  unfold State.portOn; repeat' (first
      | with_reducible (first
          | assumption | rfl | refine kept_ite ?_ ?_ | apply State.portRequest_kept | apply State.setFld_kept)
      | dsimp only | split | assumption)

theorem State.prsUp_kept {K : Keep} {s : State} (h : Kept K s) : Kept K (State.prsUp s) := by
  unfold State.prsUp; repeat' (first
      | with_reducible (first
          | assumption | rfl | refine kept_ite ?_ ?_ | apply State.reportVia_kept)
      | dsimp only | split | assumption)

theorem State.recover_kept {K : Keep} {s : State} {ports : List Nat} {us : Nat} (h : Kept K s) : Kept K (s.recover ports us) := by
  have h1 : Kept K { s.held.prsUp with mode := .recovery, tmu := s.tmu, boot := { s.boot with listen := ports, trial := false } } :=
    State.prsUp_kept (s := s.held) (State.held_kept h)
  unfold State.recover
  exact kept_foldl (fun t p ht => State.portOn_kept _ ht) _ (State.recloseMuzzle_kept (State.slogPut_kept _ _ _ _ _ _ _ (State.setReg_kept h1)))

/-- What S02 leaves of the durable things: the boot number is one higher, unless PRS has failed (R419). -/
theorem State.openPrs_kept {K : Keep} {s : State} (h : Kept K s) :
    Kept { K with boot := if s.nv.prsFailed then K.boot else K.boot + 1 } s.openPrs := by
  have hn : s.prsUp.nv = s.nv := rfl
  have h1 := State.prsUp_kept h
  have h2 := State.prsRead_kept h1
  have h3 : s.prsUp.prsRead.nv = s.nv := rfl
  unfold State.openPrs
  by_cases hp : s.nv.prsFailed
  · simpa only [hn, hp, if_true] using h1
  · obtain ⟨hm, rfl⟩ := h2
    simp only [hn, h3, hp, Bool.false_eq_true, if_false]; exact State.setReg_kept ⟨hm, rfl⟩

theorem State.s03_kept {K : Keep} {s : State} {alt : Nat} (h : Kept K s) : Kept K (s.s03 alt).s := by
  unfold State.s03 StepRes.ok; split
  · exact State.setBgw_kept _ (State.drawn_kept h)
  · exact State.setBgw_kept _ h

theorem State.s04_kept {K : Keep} {s : State} {alt : Nat} (h : Kept K s) : Kept K (s.s04 alt).s := by
  simp only [State.s04]
  split
  · exact h
  · split
    · exact h
    · split <;> exact h

theorem State.s07_kept {K : Keep} {s : State} {alt : Nat} {env : StartEnv} (h : Kept K s) : Kept K (s.s07 alt env).s := by
  simp only [State.s07]
  split
  · exact State.setGln_kept _ (State.setNv_kept h rfl rfl rfl rfl)
  · exact State.setFld_kept _ _ h

theorem State.s08_kept {K : Keep} {s : State} (h : Kept K s) : Kept K s.s08.s := by
  unfold State.s08 StepRes.ok
  refine State.followUnits_kept (kept_foldl (fun t p ht => State.keepOut_kept _ ht) _ ?_)
  refine kept_foldl (fun t p ht => State.setBeng_kept _ _ ht) _ (State.setFld_kept _ _ ?_)
  refine kept_foldl (fun t p ht => State.setDeng_kept _ _ ht) _ ?_
  refine kept_foldl (fun t p ht => State.setEceFn_kept _ _ _ (State.setFld_kept _ _ ht)) _ ?_
  exact kept_foldl (fun t p ht => State.setFceFn_kept _ _ _ (State.setFld_kept _ _ ht)) _ h

theorem State.s09_kept {K : Keep} {s : State} {alt : Nat} {env : StartEnv} (h : Kept K s) : Kept K (s.s09 alt env).s := by
  simp only [State.s09]
  refine State.setPke_kept (State.drawn_kept ?_)
  refine kept_foldl (fun t p ht => State.jobSetup_kept _ ht) _ (kept_foldl (fun t p ht => State.ringSetup_kept _ ht) _ ?_)
  refine State.findGen_kept (kept_foldl (fun t p ht => kept_ite (State.memSet_kept ht) ht) _ ?_)
  refine kept_foldl (fun t p ht => ?_) _ (kept_foldl (fun t p ht => ?_) _ ?_)
  · exact State.setMmu_kept ht rfl
  · exact State.setMmu_kept ht rfl
  exact State.setFld_kept _ _ (State.setFld_kept _ _ (State.setFld_kept _ _ h))

theorem State.s12_kept {K : Keep} {s : State} {bad : Nat} (h : Kept K s) : Kept K (s.s12 bad).s := by
  simp only [State.s12]
  split
  · exact h
  · exact kept_foldl (fun t r ht => State.reexec_kept ht) _ (kept_ite (State.raise_kept _ _ h) h)

theorem State.s13_kept {K : Keep} {s : State} {alt bad : Nat} {stop : Option (BitVec 32)} (h : Kept K s) : Kept K (s.s13 alt bad stop).s := by
  have hc : Kept K (s.setNv (s.nv.cutJrnl bad stop)) := by
    refine State.setNv_kept h ?_ ?_ ?_ ?_ <;> (unfold Nv.cutJrnl; split <;> [(split <;> rfl); rfl])
  simp only [State.s13]
  refine State.setNv_kept (kept_foldl (fun t r ht => State.reexec_kept ht) _ ?_) rfl rfl rfl rfl
  exact kept_ite h hc

theorem State.s14_kept {K : Keep} {s : State} {full : Bool} (h : Kept K s) : Kept K (s.s14 full).s := by
  have h1 : ∀ (n : Nv) (m : Mode), n.lc = s.nv.lc → n.lcNext = s.nv.lcNext → n.hostKeys = s.nv.hostKeys → n.boot = s.nv.boot →
      Kept K { s.setNv n with mode := m } := fun n m a b c d => (State.setNv_kept h a b c d : Kept K (s.setNv n))
  simp only [State.s14, StepRes.ok]
  split <;> split <;> exact State.ipfixStart_kept (h1 _ _ rfl rfl rfl rfl)

theorem State.stepWork_kept {K : Keep} {s : State} {env : StartEnv} {full : Bool} {j alt : Nat} (h : Kept K s) :
    Kept K (s.stepWork env full j alt).s := by
  unfold State.stepWork
  split
  · exact h
  · split <;> exact h
  · exact State.s03_kept h
  · exact State.s04_kept h
  · exact State.setGln_kept _ h
  · exact State.setFld_kept _ _ h
  · exact State.s07_kept h
  · exact State.s08_kept h
  · exact State.s09_kept h
  · exact State.recloseMuzzle_kept h
  · simp only [State.s11, StepRes.ok]
    split
    · exact State.portOn_kept _ (State.portOn_kept _ h)
    · exact State.portOn_kept _ h
  · exact State.s12_kept h
  · exact State.s13_kept h
  · exact State.s14_kept h
  · exact h

theorem closeStep_kept {K : Keep} {w : StepRes} {j alt us dur : Nat} (h : Kept K w.s) : Kept K (closeStep j alt us dur w).s := by
  simp only [closeStep]
  split
  · exact State.setNv_kept (State.slogPut_kept _ _ _ _ _ _ _ h) rfl rfl rfl rfl
  · exact State.slogPut_kept _ _ _ _ _ _ _ h

theorem attempts_kept {K : Keep} (env : StartEnv) (full stop : Bool) (j : Nat) : ∀ (fuel alt : Nat) (l : List StepTry) {r : StartRun},
    Kept K r.s → Kept K (attempts env full stop j fuel alt l r).s
  | 0, _, _, _, h => h
  | fuel + 1, alt, l, r, h => by
    simp only [attempts]
    split
    · exact State.recover_kept h
    · have hb : Kept K (r.s.slogPut j alt 0 0 r.us 0 (if j = 1 then r.s.boot.cause + env.bootsel.toNat * 256 else 0)) :=
        State.slogPut_kept _ _ _ _ _ _ _ h
      split
      · exact State.restart_kept (State.setNv_kept hb rfl rfl rfl rfl)
      · split
        · exact attempts_kept env full stop j fuel _ _ (State.slogPut_kept _ _ _ _ _ _ _ (kept_ite (State.badImage_kept hb) hb))
        · exact closeStep_kept (State.stepWork_kept hb)

theorem oneStep_kept {K : Keep} {env : StartEnv} {full : Bool} {stop : Option Nat} {r : StartRun} {j : Nat} (h : Kept K r.s) :
    Kept K (oneStep env full stop r j).s := by
  simp only [oneStep]
  split
  · exact h
  · have hq := attempts_kept env full (stop == some j) j (topAlt j + 2) (r.s.nv.chooseAlt j full) (triesOf env j) h
    split
    · split
      · exact State.recover_kept (State.setNv_kept hq rfl rfl rfl rfl)
      · exact State.setNv_kept hq rfl rfl rfl rfl
    · exact hq

/-- What a start leaves of the durable things: the life-cycle transition that waited is made, the boot number is one higher (R419, R523). -/
theorem State.runStart_kept {K : Keep} {s : State} (env : StartEnv) (stop : Option Nat) (h : Kept K s) :
    Kept { K with lc := K.lcNext.getD K.lc, lcNext := none, boot := if s.nv.prsFailed then K.boot else K.boot + 1 } (s.runStart env stop) := by
  have main : ∀ (K : Keep) (full : Bool) (l : List Nat) (r : StartRun), Kept K r.s →
      Kept K (l.foldl (fun (r : StartRun) k => oneStep env full stop r (k + 1)) r).s := by
    intro K full l
    induction l with
    | nil => exact fun _ h => h
    | cons i l ih => exact fun r h => ih _ (oneStep_kept h)
  obtain ⟨hm, rfl⟩ := h
  simp only [State.runStart]
  refine main _ _ _ _ ?_
  cases hn : s.nv.lcNext with
  | none =>
    have := State.openPrs_kept (K := s.keep) (s := s.setPins { s.pins with bootsel := env.bootsel }) ⟨hm, rfl⟩
    simpa [State.setPins, hn, State.keep] using this
  | some t =>
    have := State.openPrs_kept (K := { s.keep with lc := t, lcNext := none })
      (s := (s.setPins { s.pins with bootsel := env.bootsel }).setNv { s.nv with lc := t, lcNext := none }) ⟨hm, rfl⟩
    simpa [State.setPins, State.setNv, hn, State.keep] using this

theorem execPwrgoodRise_kept {K : Keep} {s : State} (x : Straps) (h : Kept K s) : ∃ u, execPwrgoodRise x s = .next u ∧ Kept K u := by
  refine ⟨_, rfl, ?_⟩; repeat' (first
      | with_reducible (first
          | assumption | rfl | refine kept_ite ?_ ?_ | apply State.setPins_kept | apply State.leaveReset_kept)
      | refine kept_foldl (fun _ _ _ => ?_) _ ?_ | dsimp only | split | assumption)

theorem execPwrgoodFall_kept {K : Keep} {s : State} (h : Kept K s) : ∃ u, execPwrgoodFall s = .next u ∧ Kept K u := by
  refine ⟨_, rfl, ?_⟩; repeat' (first
      | with_reducible (first
          | assumption | rfl | refine kept_ite ?_ ?_ | apply State.held_kept | apply State.setPins_kept)
      | refine kept_foldl (fun _ _ _ => ?_) _ ?_ | dsimp only | split | assumption)

theorem execResetNAssert_kept {K : Keep} {s : State} (h : Kept K s) : ∃ u, execResetNAssert s = .next u ∧ Kept K u := by
  refine ⟨_, rfl, ?_⟩; repeat' (first
      | with_reducible (first
          | assumption | rfl | refine kept_ite ?_ ?_ | apply State.held_kept | apply State.setPins_kept)
      | refine kept_foldl (fun _ _ _ => ?_) _ ?_ | dsimp only | split | assumption)

theorem execResetNRelease_kept {K : Keep} {s : State} (x : Straps) (h : Kept K s) : ∃ u, execResetNRelease x s = .next u ∧ Kept K u := by
  refine ⟨_, rfl, ?_⟩; repeat' (first
      | with_reducible (first
          | assumption | rfl | refine kept_ite ?_ ?_ | apply State.setPins_kept | apply State.leaveReset_kept)
      | refine kept_foldl (fun _ _ _ => ?_) _ ?_ | dsimp only | split | assumption)

theorem execTestEnAssert_kept {K : Keep} {s : State} (h : Kept K s) : ∃ u, execTestEnAssert s = .next u ∧ Kept K u := by
  refine ⟨_, rfl, ?_⟩; repeat' (first
      | with_reducible (first
          | assumption | rfl | refine kept_ite ?_ ?_ | apply State.held_kept | apply State.setPins_kept)
      | refine kept_foldl (fun _ _ _ => ?_) _ ?_ | dsimp only | split | assumption)

theorem execTestEnRelease_kept {K : Keep} {s : State} (x : Straps) (h : Kept K s) : ∃ u, execTestEnRelease x s = .next u ∧ Kept K u := by
  refine ⟨_, rfl, ?_⟩; repeat' (first
      | with_reducible (first
          | assumption | rfl | refine kept_ite ?_ ?_ | apply State.leaveReset_kept | apply State.setPins_kept)
      | refine kept_foldl (fun _ _ _ => ?_) _ ?_ | dsimp only | split | assumption)

theorem execKathirelWatchdog_kept {K : Keep} {s : State} (h : Kept K s) : ∃ u, execKathirelWatchdog s = .next u ∧ Kept K u := by
  refine ⟨_, rfl, ?_⟩; repeat' (first
      | with_reducible (first
          | assumption | rfl | refine kept_ite ?_ ?_ | apply State.restart_kept)
      | refine kept_foldl (fun _ _ _ => ?_) _ ?_ | dsimp only | split | assumption)

end Sys2Proof.Machine
end

