-- ==== Sys2Proof/Laws/PerInstr.lean ====
section
/-! SUPPORT. A statement about every command as syntax, command by command: no word spells it, since spec/opcode_table.json gives its row no
bits. -/

namespace Sys2Proof.Laws.NoWord

open Sys2Proof

/-- No word of any length decodes to the command. -/
def Statement (i : Instr) : Prop := ∀ nbits w : Nat, decodeTableWord nbits w ≠ some i

theorem pwrgoodRise (straps : Straps) : Statement (.pwrgoodRise straps) := fun _ _ h => nomatch h
theorem pwrgoodFall : Statement .pwrgoodFall := fun _ _ h => nomatch h
theorem resetNAssert : Statement .resetNAssert := fun _ _ h => nomatch h
theorem resetNRelease (straps : Straps) : Statement (.resetNRelease straps) := fun _ _ h => nomatch h
theorem testEnAssert : Statement .testEnAssert := fun _ _ h => nomatch h
theorem startSequence (env : StartEnv) : Statement (.startSequence env) := fun _ _ h => nomatch h
theorem startStepTimeout (step : Fin 14) (env : StartEnv) : Statement (.startStepTimeout step env) := fun _ _ h => nomatch h
theorem kathirelWatchdog : Statement .kathirelWatchdog := fun _ _ h => nomatch h
theorem tmuTick : Statement .tmuTick := fun _ _ h => nomatch h
theorem stepApply : Statement .stepApply := fun _ _ h => nomatch h
theorem tmuCtlSet (c : RegCmd) : Statement (.tmuCtlSet c) := fun _ _ h => nomatch h
theorem tmuCtlStep (c : RegCmd) : Statement (.tmuCtlStep c) := fun _ _ h => nomatch h
theorem tmuOfsPush (ns aux mpd : Word) : Statement (.tmuOfsPush ns aux mpd) := fun _ _ h => nomatch h
theorem servoSample : Statement .servoSample := fun _ _ h => nomatch h
theorem servoHoldoverTimeout : Statement .servoHoldoverTimeout := fun _ _ h => nomatch h
theorem servoFail : Statement .servoFail := fun _ _ h => nomatch h
theorem tmuSrvEnWrite (c : RegCmd) (v : Word) : Statement (.tmuSrvEnWrite c v) := fun _ _ h => nomatch h
theorem tmuAddendWrite (c : RegCmd) (ext : Bool) (v : Word) : Statement (.tmuAddendWrite c ext v) := fun _ _ h => nomatch h
theorem tmuRefSelWrite (c : RegCmd) (v : Word) : Statement (.tmuRefSelWrite c v) := fun _ _ h => nomatch h
theorem ref10mAcquire : Statement .ref10mAcquire := fun _ _ h => nomatch h
theorem ref10mLoss : Statement .ref10mLoss := fun _ _ h => nomatch h
theorem tmuTimeSecHiRead (path : Path) : Statement (.tmuTimeSecHiRead path) := fun _ _ h => nomatch h
theorem tinEdgeCapture (n : Fin 5) (rise : Bool) : Statement (.tinEdgeCapture n rise) := fun _ _ h => nomatch h
theorem tmuTinPop (n : Fin 5) (path : Path) : Statement (.tmuTinPop n path) := fun _ _ h => nomatch h
theorem tmuToutArm (n : Fin 4) (c : RegCmd) : Statement (.tmuToutArm n c) := fun _ _ h => nomatch h
theorem tmuToutDisarm (n : Fin 4) (c : RegCmd) : Statement (.tmuToutDisarm n c) := fun _ _ h => nomatch h
theorem toutPulse (n : Fin 4) : Statement (.toutPulse n) := fun _ _ h => nomatch h
theorem swathBoundary : Statement .swathBoundary := fun _ _ h => nomatch h
theorem gatherEnd : Statement .gatherEnd := fun _ _ h => nomatch h
theorem workStart : Statement .workStart := fun _ _ h => nomatch h
theorem workDeadline : Statement .workDeadline := fun _ _ h => nomatch h
theorem guardStart : Statement .guardStart := fun _ _ h => nomatch h
theorem timedActionExec (a : TimedRef) : Statement (.timedActionExec a) := fun _ _ h => nomatch h
theorem portStartDone (p : Fin 8) (live : Bool) : Statement (.portStartDone p live) := fun _ _ h => nomatch h
theorem portCalFail (p : Fin 8) : Statement (.portCalFail p) := fun _ _ h => nomatch h
theorem lanePllLoss (p : Fin 8) : Statement (.lanePllLoss p) := fun _ _ h => nomatch h
theorem linkUp (p : Fin 8) : Statement (.linkUp p) := fun _ _ h => nomatch h
theorem linkDown (p : Fin 8) : Statement (.linkDown p) := fun _ _ h => nomatch h
theorem portStopDone (p : Fin 8) : Statement (.portStopDone p) := fun _ _ h => nomatch h
theorem rgmiiInbandStatus (link : Bool) (speed : Fin 4) (full : Bool) : Statement (.rgmiiInbandStatus link speed full) := fun _ _ h => nomatch h
theorem macRxFrame (w : RxWire) : Statement (.macRxFrame w) := fun _ _ h => nomatch h
theorem pauseQuantaExpiry (p : Fin 8) (tc : Fin 8) : Statement (.pauseQuantaExpiry p tc) := fun _ _ h => nomatch h
theorem pfcRefresh (p : Fin 8) : Statement (.pfcRefresh p) := fun _ _ h => nomatch h
theorem macTxSelect (p : Fin 8) : Statement (.macTxSelect p) := fun _ _ h => nomatch h
theorem s0Collision (bitTimes : Nat) : Statement (.s0Collision bitTimes) := fun _ _ h => nomatch h
theorem s0BackoffExpiry : Statement .s0BackoffExpiry := fun _ _ h => nomatch h
theorem macMdioGo (cfg v : Word) : Statement (.macMdioGo cfg v) := fun _ _ h => nomatch h
theorem mdioFrameDone (rdata : Option (BitVec 16)) : Statement (.mdioFrameDone rdata) := fun _ _ h => nomatch h
theorem macCfgEnWrite (p : Fin 8) (c : RegCmd) (v : Word) : Statement (.macCfgEnWrite p c v) := fun _ _ h => nomatch h
theorem macCtlAnRestart (p : Fin 8) (c : RegCmd) : Statement (.macCtlAnRestart p c) := fun _ _ h => nomatch h
theorem macCtlPeakClr (p : Fin 8) (c : RegCmd) : Statement (.macCtlPeakClr p c) := fun _ _ h => nomatch h
theorem macCntLoRead (p : Fin 8) (tx : Bool) (path : Path) : Statement (.macCntLoRead p tx path) := fun _ _ h => nomatch h
theorem pkeFrameTake (p : Fin 8) (tc : Fin 7) : Statement (.pkeFrameTake p tc) := fun _ _ h => nomatch h
theorem slowPathFrame : Statement .slowPathFrame := fun _ _ h => nomatch h
theorem ptpFrameRx (r : PtpFind) : Statement (.ptpFrameRx r) := fun _ _ h => nomatch h
theorem txQueueEntry (p : Fin 8) (tc : Fin 8) : Statement (.txQueueEntry p tc) := fun _ _ h => nomatch h
theorem qcpFrameRx (p : Fin 8) : Statement (.qcpFrameRx p) := fun _ _ h => nomatch h
theorem muzzleFrame : Statement .muzzleFrame := fun _ _ h => nomatch h
theorem gateRelease (g : Gate) : Statement (.gateRelease g) := fun _ _ h => nomatch h
theorem muzzleStateRecord : Statement .muzzleStateRecord := fun _ _ h => nomatch h
theorem openRateSecond : Statement .openRateSecond := fun _ _ h => nomatch h
theorem sessionProveTimeout (mbox : Fin 256) : Statement (.sessionProveTimeout mbox) := fun _ _ h => nomatch h
theorem leaseExpiry (mbox : Fin 256) : Statement (.leaseExpiry mbox) := fun _ _ h => nomatch h
theorem bulkFrame (mbox : Fin 256) : Statement (.bulkFrame mbox) := fun _ _ h => nomatch h
theorem replySend (mbox : Fin 256) : Statement (.replySend mbox) := fun _ _ h => nomatch h
theorem eventSend (mbox : Fin 256) : Statement (.eventSend mbox) := fun _ _ h => nomatch h
theorem journalCommit : Statement .journalCommit := fun _ _ h => nomatch h
theorem qcpDbRpl (v : Word) : Statement (.qcpDbRpl v) := fun _ _ h => nomatch h
theorem qcpMzCtrHiRead (k : Fin 8) (path : Path) : Statement (.qcpMzCtrHiRead k path) := fun _ _ h => nomatch h
theorem sessionOpen (o : OpenSrc) : Statement (.sessionOpen o) := fun _ _ h => nomatch h
theorem sessionProve (q : Req) : Statement (.sessionProve q) := fun _ _ h => nomatch h
theorem sessionKeepalive (q : Req) : Statement (.sessionKeepalive q) := fun _ _ h => nomatch h
theorem sessionClose (q : Req) : Statement (.sessionClose q) := fun _ _ h => nomatch h
theorem sessionSubscribe (q : Req) : Statement (.sessionSubscribe q) := fun _ _ h => nomatch h
theorem sessionKeySet (q : Req) : Statement (.sessionKeySet q) := fun _ _ h => nomatch h
theorem sessionKeyClear (q : Req) : Statement (.sessionKeyClear q) := fun _ _ h => nomatch h
theorem unmuzzle (q : Req) : Statement (.unmuzzle q) := fun _ _ h => nomatch h
theorem muzzleKeySet (q : Req) : Statement (.muzzleKeySet q) := fun _ _ h => nomatch h
theorem sessionList (q : Req) : Statement (.sessionList q) := fun _ _ h => nomatch h
theorem muzzleStatus (q : Req) : Statement (.muzzleStatus q) := fun _ _ h => nomatch h
theorem regWrite (q : Req) : Statement (.regWrite q) := fun _ _ h => nomatch h
theorem regRead (q : Req) : Statement (.regRead q) := fun _ _ h => nomatch h
theorem chanEnable (q : Req) : Statement (.chanEnable q) := fun _ _ h => nomatch h
theorem chanDisable (q : Req) : Statement (.chanDisable q) := fun _ _ h => nomatch h
theorem chanGraph (q : Req) : Statement (.chanGraph q) := fun _ _ h => nomatch h
theorem chanFlowAdd (q : Req) : Statement (.chanFlowAdd q) := fun _ _ h => nomatch h
theorem chanFlowDel (q : Req) : Statement (.chanFlowDel q) := fun _ _ h => nomatch h
theorem chanEgress (q : Req) : Statement (.chanEgress q) := fun _ _ h => nomatch h
theorem chanKey (q : Req) : Statement (.chanKey q) := fun _ _ h => nomatch h
theorem chanPlayout (q : Req) : Statement (.chanPlayout q) := fun _ _ h => nomatch h
theorem chanEcho (q : Req) : Statement (.chanEcho q) := fun _ _ h => nomatch h
theorem chanEchoReset (q : Req) : Statement (.chanEchoReset q) := fun _ _ h => nomatch h
theorem chanBridge (q : Req) : Statement (.chanBridge q) := fun _ _ h => nomatch h
theorem chanGain (q : Req) : Statement (.chanGain q) := fun _ _ h => nomatch h
theorem chanGroup (q : Req) : Statement (.chanGroup q) := fun _ _ h => nomatch h
theorem chanToneCfg (q : Req) : Statement (.chanToneCfg q) := fun _ _ h => nomatch h
theorem chanTonePlay (q : Req) : Statement (.chanTonePlay q) := fun _ _ h => nomatch h
theorem chanToneStop (q : Req) : Statement (.chanToneStop q) := fun _ _ h => nomatch h
theorem chanCodec (q : Req) : Statement (.chanCodec q) := fun _ _ h => nomatch h
theorem chanRtcp (q : Req) : Statement (.chanRtcp q) := fun _ _ h => nomatch h
theorem chanClear (q : Req) : Statement (.chanClear q) := fun _ _ h => nomatch h
theorem chanConfCreate (q : Req) : Statement (.chanConfCreate q) := fun _ _ h => nomatch h
theorem chanConfDelete (q : Req) : Statement (.chanConfDelete q) := fun _ _ h => nomatch h
theorem chanConfJoin (q : Req) : Statement (.chanConfJoin q) := fun _ _ h => nomatch h
theorem chanConfLeave (q : Req) : Statement (.chanConfLeave q) := fun _ _ h => nomatch h
theorem chanStatus (q : Req) : Statement (.chanStatus q) := fun _ _ h => nomatch h
theorem chanConfStatus (q : Req) : Statement (.chanConfStatus q) := fun _ _ h => nomatch h
theorem graphDefine (q : Req) : Statement (.graphDefine q) := fun _ _ h => nomatch h
theorem graphDelete (q : Req) : Statement (.graphDelete q) := fun _ _ h => nomatch h
theorem graphCptDefine (q : Req) : Statement (.graphCptDefine q) := fun _ _ h => nomatch h
theorem graphInfo (q : Req) : Statement (.graphInfo q) := fun _ _ h => nomatch h
theorem coefSetLoad (q : Req) : Statement (.coefSetLoad q) := fun _ _ h => nomatch h
theorem coefSetFree (q : Req) : Statement (.coefSetFree q) := fun _ _ h => nomatch h
theorem coefBank (q : Req) : Statement (.coefBank q) := fun _ _ h => nomatch h
theorem coefSwap (q : Req) : Statement (.coefSwap q) := fun _ _ h => nomatch h
theorem coefSwapCancel (q : Req) : Statement (.coefSwapCancel q) := fun _ _ h => nomatch h
theorem coefPhase (q : Req) : Statement (.coefPhase q) := fun _ _ h => nomatch h
theorem coefSyncReset (q : Req) : Statement (.coefSyncReset q) := fun _ _ h => nomatch h
theorem coefSetInfo (q : Req) : Statement (.coefSetInfo q) := fun _ _ h => nomatch h
theorem coefRomRead (q : Req) : Statement (.coefRomRead q) := fun _ _ h => nomatch h
theorem coefChainStatus (q : Req) : Statement (.coefChainStatus q) := fun _ _ h => nomatch h
theorem timeClock (q : Req) : Statement (.timeClock q) := fun _ _ h => nomatch h
theorem timePort (q : Req) : Statement (.timePort q) := fun _ _ h => nomatch h
theorem timeUnicast (q : Req) : Statement (.timeUnicast q) := fun _ _ h => nomatch h
theorem timeStatus (q : Req) : Statement (.timeStatus q) := fun _ _ h => nomatch h
theorem timePortStatus (q : Req) : Statement (.timePortStatus q) := fun _ _ h => nomatch h
theorem portEnable (q : Req) : Statement (.portEnable q) := fun _ _ h => nomatch h
theorem portDisable (q : Req) : Statement (.portDisable q) := fun _ _ h => nomatch h
theorem portMdioWrite (q : Req) : Statement (.portMdioWrite q) := fun _ _ h => nomatch h
theorem portMdioRead (q : Req) : Statement (.portMdioRead q) := fun _ _ h => nomatch h
theorem portStatus (q : Req) : Statement (.portStatus q) := fun _ _ h => nomatch h
theorem captOpen (q : Req) : Statement (.captOpen q) := fun _ _ h => nomatch h
theorem captClose (q : Req) : Statement (.captClose q) := fun _ _ h => nomatch h
theorem captEnable (q : Req) : Statement (.captEnable q) := fun _ _ h => nomatch h
theorem captDisable (q : Req) : Statement (.captDisable q) := fun _ _ h => nomatch h
theorem captTrigger (q : Req) : Statement (.captTrigger q) := fun _ _ h => nomatch h
theorem captExport (q : Req) : Statement (.captExport q) := fun _ _ h => nomatch h
theorem captRead (q : Req) : Statement (.captRead q) := fun _ _ h => nomatch h
theorem captStatus (q : Req) : Statement (.captStatus q) := fun _ _ h => nomatch h
theorem captureTimeTrigger (c : Fin 16) : Statement (.captureTimeTrigger c) := fun _ _ h => nomatch h
theorem exportFrameSend (x : ExportRef) : Statement (.exportFrameSend x) := fun _ _ h => nomatch h
theorem pattLoad (q : Req) : Statement (.pattLoad q) := fun _ _ h => nomatch h
theorem pattFromCapt (q : Req) : Statement (.pattFromCapt q) := fun _ _ h => nomatch h
theorem pattDelete (q : Req) : Statement (.pattDelete q) := fun _ _ h => nomatch h
theorem pattPlay (q : Req) : Statement (.pattPlay q) := fun _ _ h => nomatch h
theorem pattStop (q : Req) : Statement (.pattStop q) := fun _ _ h => nomatch h
theorem pattInfo (q : Req) : Statement (.pattInfo q) := fun _ _ h => nomatch h
theorem patternItemRelease (pl : Fin 64) : Statement (.patternItemRelease pl) := fun _ _ h => nomatch h
theorem ringOpen (q : Req) : Statement (.ringOpen q) := fun _ _ h => nomatch h
theorem ringClose (q : Req) : Statement (.ringClose q) := fun _ _ h => nomatch h
theorem ringEnable (q : Req) : Statement (.ringEnable q) := fun _ _ h => nomatch h
theorem ringDisable (q : Req) : Statement (.ringDisable q) := fun _ _ h => nomatch h
theorem ringFeed (q : Req) : Statement (.ringFeed q) := fun _ _ h => nomatch h
theorem ringStatus (q : Req) : Statement (.ringStatus q) := fun _ _ h => nomatch h
theorem injectLaunch (ring : Fin 16) : Statement (.injectLaunch ring) := fun _ _ h => nomatch h
theorem injectDoneSend (ring : Fin 16) : Statement (.injectDoneSend ring) := fun _ _ h => nomatch h
theorem tandRoute (q : Req) : Statement (.tandRoute q) := fun _ _ h => nomatch h
theorem tandRing (q : Req) : Statement (.tandRing q) := fun _ _ h => nomatch h
theorem tandExport (q : Req) : Statement (.tandExport q) := fun _ _ h => nomatch h
theorem tandExportDel (q : Req) : Statement (.tandExportDel q) := fun _ _ h => nomatch h
theorem tandImport (q : Req) : Statement (.tandImport q) := fun _ _ h => nomatch h
theorem tandImportDel (q : Req) : Statement (.tandImportDel q) := fun _ _ h => nomatch h
theorem tandConfImport (q : Req) : Statement (.tandConfImport q) := fun _ _ h => nomatch h
theorem tandMigrateOut (q : Req) : Statement (.tandMigrateOut q) := fun _ _ h => nomatch h
theorem tandMigrateIn (q : Req) : Statement (.tandMigrateIn q) := fun _ _ h => nomatch h
theorem tandStatus (q : Req) : Statement (.tandStatus q) := fun _ _ h => nomatch h
theorem tndDevnoWrite (c : RegCmd) (v : Word) : Statement (.tndDevnoWrite c v) := fun _ _ h => nomatch h
theorem tndWinWrite (c : RegCmd) (v : Word) : Statement (.tndWinWrite c v) := fun _ _ h => nomatch h
theorem bistRequest (q : Req) : Statement (.bistRequest q) := fun _ _ h => nomatch h
theorem bistFuseArm (q : Req) : Statement (.bistFuseArm q) := fun _ _ h => nomatch h
theorem bistFuseConfirm (q : Req) : Statement (.bistFuseConfirm q) := fun _ _ h => nomatch h
theorem bistLcArm (q : Req) : Statement (.bistLcArm q) := fun _ _ h => nomatch h
theorem bistLcConfirm (q : Req) : Statement (.bistLcConfirm q) := fun _ _ h => nomatch h
theorem bistRepairList (q : Req) : Statement (.bistRepairList q) := fun _ _ h => nomatch h
theorem bistUnitStatus (q : Req) : Statement (.bistUnitStatus q) := fun _ _ h => nomatch h
theorem prsPartition (q : Req) : Statement (.prsPartition q) := fun _ _ h => nomatch h
theorem prsCheckpoint (q : Req) : Statement (.prsCheckpoint q) := fun _ _ h => nomatch h
theorem prsLogRead (q : Req) : Statement (.prsLogRead q) := fun _ _ h => nomatch h
theorem prsInfo (q : Req) : Statement (.prsInfo q) := fun _ _ h => nomatch h
theorem statIpfixSet (q : Req) : Statement (.statIpfixSet q) := fun _ _ h => nomatch h
theorem statLeg (q : Req) : Statement (.statLeg q) := fun _ _ h => nomatch h
theorem statDevice (q : Req) : Statement (.statDevice q) := fun _ _ h => nomatch h
theorem statJrnlFate (q : Req) : Statement (.statJrnlFate q) := fun _ _ h => nomatch h
theorem fwLoad (q : Req) : Statement (.fwLoad q) := fun _ _ h => nomatch h
theorem fwActivate (q : Req) : Statement (.fwActivate q) := fun _ _ h => nomatch h
theorem fwStartClear (q : Req) : Statement (.fwStartClear q) := fun _ _ h => nomatch h
theorem fwInfo (q : Req) : Statement (.fwInfo q) := fun _ _ h => nomatch h
theorem shutBegin (q : Req) : Statement (.shutBegin q) := fun _ _ h => nomatch h
theorem shutAbort (q : Req) : Statement (.shutAbort q) := fun _ _ h => nomatch h
theorem shutStatus (q : Req) : Statement (.shutStatus q) := fun _ _ h => nomatch h
theorem shutdownDrainEnd : Statement .shutdownDrainEnd := fun _ _ h => nomatch h
theorem shutdownTestDone (r : ShutTest) : Statement (.shutdownTestDone r) := fun _ _ h => nomatch h
theorem stageInDone (leg : Fin 131072) : Statement (.stageInDone leg) := fun _ _ h => nomatch h
theorem taskDone (core : Fin 128) (made : List SysMake) : Statement (.taskDone core made) := fun _ _ h => nomatch h
theorem coreTransitAccess (core : Fin 128) (va : BitVec 48) : Statement (.coreTransitAccess core va) := fun _ _ h => nomatch h
theorem fceCall (core : Fin 128) (eng : Fin 32) : Statement (.fceCall core eng) := fun _ _ h => nomatch h
theorem eceCall (core : Fin 128) (eng : Fin 32) : Statement (.eceCall core eng) := fun _ _ h => nomatch h
theorem memoryFault (core : Fin 128) (pa : BitVec 40) : Statement (.memoryFault core pa) := fun _ _ h => nomatch h
theorem accessFault (core : Fin 128) (va : BitVec 48) (acc : Fin 3) : Statement (.accessFault core va acc) := fun _ _ h => nomatch h
theorem engineParity (core : Fin 128) : Statement (.engineParity core) := fun _ _ h => nomatch h
theorem coreHang (core : Fin 128) (ns : BitVec 32) : Statement (.coreHang core ns) := fun _ _ h => nomatch h
theorem taskOverrun (core : Fin 128) : Statement (.taskOverrun core) := fun _ _ h => nomatch h
theorem replayRestageDone (leg : Fin 131072) : Statement (.replayRestageDone leg) := fun _ _ h => nomatch h
theorem faultRecordPop (path : Path) : Statement (.faultRecordPop path) := fun _ _ h => nomatch h
theorem dmaCopy (ring : Fin 256) : Statement (.dmaCopy ring) := fun _ _ h => nomatch h
theorem dmaFill (ring : Fin 256) : Statement (.dmaFill ring) := fun _ _ h => nomatch h
theorem dmaTx (ring : Fin 256) : Statement (.dmaTx ring) := fun _ _ h => nomatch h
theorem dmaRx (ring : Fin 256) : Statement (.dmaRx ring) := fun _ _ h => nomatch h
theorem dmaRelease (ring : Fin 256) : Statement (.dmaRelease ring) := fun _ _ h => nomatch h
theorem dmaDescComplete (ring : Fin 256) : Statement (.dmaDescComplete ring) := fun _ _ h => nomatch h
theorem dmaDescPark (ring : Fin 256) : Statement (.dmaDescPark ring) := fun _ _ h => nomatch h
theorem mmuRingTailWrite (ring : Fin 256) (cfg : Option RingSetup) (by_ : Option (Fin 128)) (descs : List Bytes) (v : Word) :
    Statement (.mmuRingTailWrite ring cfg by_ descs v) := fun _ _ h => nomatch h
theorem mmuMoveGo (v : Word) (va : BitVec 48) (pa : BitVec 40) : Statement (.mmuMoveGo v va pa) := fun _ _ h => nomatch h
theorem moveComplete : Statement .moveComplete := fun _ _ h => nomatch h
theorem mmuInvGo (v : Word) (va : BitVec 48) (fw : FwWrites) : Statement (.mmuInvGo v va fw) := fun _ _ h => nomatch h
theorem invalidationDone : Statement .invalidationDone := fun _ _ h => nomatch h
theorem mmuParkResume (ring : Fin 256) : Statement (.mmuParkResume ring) := fun _ _ h => nomatch h
theorem mmuParkAbort (ring : Fin 256) : Statement (.mmuParkAbort ring) := fun _ _ h => nomatch h
theorem mmuCtlPeakClr (c : RegCmd) : Statement (.mmuCtlPeakClr c) := fun _ _ h => nomatch h
theorem mmuDmaEnWrite (eng : Fin 32) (v : Word) : Statement (.mmuDmaEnWrite eng v) := fun _ _ h => nomatch h
theorem swtLenWrite (c : RegCmd) (v : Word) : Statement (.swtLenWrite c v) := fun _ _ h => nomatch h
theorem swtLoftBudWrite (c : RegCmd) (v : Word) : Statement (.swtLoftBudWrite c v) := fun _ _ h => nomatch h
theorem swtCycPctWrite (c : RegCmd) (v : Word) : Statement (.swtCycPctWrite c v) := fun _ _ h => nomatch h
theorem plyCtlPeakClr (c : RegCmd) : Statement (.plyCtlPeakClr c) := fun _ _ h => nomatch h
theorem fceCfgEnWrite (e : Fin 16) (v : Word) : Statement (.fceCfgEnWrite e v) := fun _ _ h => nomatch h
theorem fceCtlPeakClr (e : Fin 16) (c : RegCmd) : Statement (.fceCtlPeakClr e c) := fun _ _ h => nomatch h
theorem eceCfgEnWrite (e : Fin 32) (v : Word) : Statement (.eceCfgEnWrite e v) := fun _ _ h => nomatch h
theorem eceCtlPeakClr (e : Fin 32) (c : RegCmd) : Statement (.eceCtlPeakClr e c) := fun _ _ h => nomatch h
theorem knlCtlHistClr (c : RegCmd) : Statement (.knlCtlHistClr c) := fun _ _ h => nomatch h
theorem knlCtlPeakClr (c : RegCmd) : Statement (.knlCtlPeakClr c) := fun _ _ h => nomatch h
theorem knlHistSelWrite (c : RegCmd) (v : Word) : Statement (.knlHistSelWrite c v) := fun _ _ h => nomatch h
theorem knlRefuseWrite (c : RegCmd) (v : Word) : Statement (.knlRefuseWrite c v) := fun _ _ h => nomatch h
theorem frpCtlPeakClr (c : RegCmd) : Statement (.frpCtlPeakClr c) := fun _ _ h => nomatch h
theorem grnCapStrmHiRead (path : Path) : Statement (.grnCapStrmHiRead path) := fun _ _ h => nomatch h
theorem balCfgEnWrite (v : Word) : Statement (.balCfgEnWrite v) := fun _ _ h => nomatch h
theorem balCtlPeakClr (c : RegCmd) : Statement (.balCtlPeakClr c) := fun _ _ h => nomatch h
theorem balRingTailWrite (ring : Fin 4) (jobs : List Bytes) (v : Word) : Statement (.balRingTailWrite ring jobs v) := fun _ _ h => nomatch h
theorem balerCompress (eng : Fin 4) (mismatch : Bool) : Statement (.balerCompress eng mismatch) := fun _ _ h => nomatch h
theorem balerDecompress (eng : Fin 4) : Statement (.balerDecompress eng) := fun _ _ h => nomatch h
theorem balerResume (eng : Fin 4) (mismatch : Bool) : Statement (.balerResume eng mismatch) := fun _ _ h => nomatch h
theorem balerJobEnd (eng : Fin 4) (parity : Bool) : Statement (.balerJobEnd eng parity) := fun _ _ h => nomatch h
theorem glnSliceStart (cls : Fin 7) (idx : Fin 128) : Statement (.glnSliceStart cls idx) := fun _ _ h => nomatch h
theorem glnSliceEnd (r : SliceResult) : Statement (.glnSliceEnd r) := fun _ _ h => nomatch h
theorem glnCtlCut (c : RegCmd) : Statement (.glnCtlCut c) := fun _ _ h => nomatch h
theorem glnCfgEnWrite (c : RegCmd) (v : Word) : Statement (.glnCfgEnWrite c v) := fun _ _ h => nomatch h
theorem glnRecPopRead (path : Path) : Statement (.glnRecPopRead path) := fun _ _ h => nomatch h
theorem jtagKeyLoad (dr : BitVec 264) : Statement (.jtagKeyLoad dr) := fun _ _ h => nomatch h
theorem jtagLcTransition (target : Fin 5) : Statement (.jtagLcTransition target) := fun _ _ h => nomatch h
theorem i2cAddressWrite (a : BitVec 32) : Statement (.i2cAddressWrite a) := fun _ _ h => nomatch h
theorem i2cRead (count : Fin 65) : Statement (.i2cRead count) := fun _ _ h => nomatch h
theorem scrubRead (space : ScrubSpace) (word : ScrubWord) : Statement (.scrubRead space word) := fun _ _ h => nomatch h
theorem hbmRetrain (pch : Fin 64) (ok : Bool) : Statement (.hbmRetrain pch ok) := fun _ _ h => nomatch h
theorem pllCalibration : Statement .pllCalibration := fun _ _ h => nomatch h
theorem sensorRead (t : List (BitVec 16)) : Statement (.sensorRead t) := fun _ _ h => nomatch h
theorem overTempReset : Statement .overTempReset := fun _ _ h => nomatch h
theorem avsAdjust (up ok : Bool) : Statement (.avsAdjust up ok) := fun _ _ h => nomatch h
theorem checkpointTimer : Statement .checkpointTimer := fun _ _ h => nomatch h
theorem checkpointWritten (ok : Bool) : Statement (.checkpointWritten ok) := fun _ _ h => nomatch h
theorem prsBlockFail (block : Fin 2048) : Statement (.prsBlockFail block) := fun _ _ h => nomatch h
theorem ipfixHealth : Statement .ipfixHealth := fun _ _ h => nomatch h
theorem ipfixTemplate : Statement .ipfixTemplate := fun _ _ h => nomatch h
theorem testEnRelease (straps : Straps) : Statement (.testEnRelease straps) := fun _ _ h => nomatch h
theorem unknownOperation (fam op : Byte) (q : Req) : Statement (.unknownOperation fam op q) := fun _ _ h => nomatch h

end Sys2Proof.Laws.NoWord
end

