-- ==== Sys2Proof/Laws/State.lean ====
section
/-! SUPPORT. What each update of the state does to each of its fields: one lemma per update and field, true by unfolding. -/

namespace Sys2Proof.Machine

open Sys2Proof

/-! `State.setTmu` -/

@[simp] theorem State.setTmu_pending (s : State) (x : Tmu) : (s.setTmu x).pending = s.pending := rfl
@[simp] theorem State.setTmu_free (s : State) (x : Tmu) : (s.setTmu x).free = s.free := rfl
@[simp] theorem State.setTmu_mode (s : State) (x : Tmu) : (s.setTmu x).mode = s.mode := rfl
@[simp] theorem State.setTmu_pins (s : State) (x : Tmu) : (s.setTmu x).pins = s.pins := rfl
@[simp] theorem State.setTmu_nv (s : State) (x : Tmu) : (s.setTmu x).nv = s.nv := rfl
@[simp] theorem State.setTmu_regs (s : State) (x : Tmu) : (s.setTmu x).regs = s.regs := rfl
@[simp] theorem State.setTmu_busOut (s : State) (x : Tmu) : (s.setTmu x).busOut = s.busOut := rfl
@[simp] theorem State.setTmu_i2cAddr (s : State) (x : Tmu) : (s.setTmu x).i2cAddr = s.i2cAddr := rfl
@[simp] theorem State.setTmu_tmu (s : State) (x : Tmu) : (s.setTmu x).tmu = x := rfl
@[simp] theorem State.setTmu_swt (s : State) (x : Tmu) : (s.setTmu x).swt = s.swt := rfl
@[simp] theorem State.setTmu_ports (s : State) (x : Tmu) : (s.setTmu x).ports = s.ports := rfl
@[simp] theorem State.setTmu_mdio (s : State) (x : Tmu) : (s.setTmu x).mdio = s.mdio := rfl
@[simp] theorem State.setTmu_qcp (s : State) (x : Tmu) : (s.setTmu x).qcp = s.qcp := rfl
@[simp] theorem State.setTmu_tmpls (s : State) (x : Tmu) : (s.setTmu x).tmpls = s.tmpls := rfl
@[simp] theorem State.setTmu_sets (s : State) (x : Tmu) : (s.setTmu x).sets = s.sets := rfl
@[simp] theorem State.setTmu_cpts (s : State) (x : Tmu) : (s.setTmu x).cpts = s.cpts := rfl
@[simp] theorem State.setTmu_legs (s : State) (x : Tmu) : (s.setTmu x).legs = s.legs := rfl
@[simp] theorem State.setTmu_confs (s : State) (x : Tmu) : (s.setTmu x).confs = s.confs := rfl
@[simp] theorem State.setTmu_armed (s : State) (x : Tmu) : (s.setTmu x).armed = s.armed := rfl
@[simp] theorem State.setTmu_knl (s : State) (x : Tmu) : (s.setTmu x).knl = s.knl := rfl
@[simp] theorem State.setTmu_engAcc (s : State) (x : Tmu) : (s.setTmu x).engAcc = s.engAcc := rfl
@[simp] theorem State.setTmu_engQ (s : State) (x : Tmu) : (s.setTmu x).engQ = s.engQ := rfl
@[simp] theorem State.setTmu_engDis (s : State) (x : Tmu) : (s.setTmu x).engDis = s.engDis := rfl
@[simp] theorem State.setTmu_fns (s : State) (x : Tmu) : (s.setTmu x).fns = s.fns := rfl
@[simp] theorem State.setTmu_shut (s : State) (x : Tmu) : (s.setTmu x).shut = s.shut := rfl
@[simp] theorem State.setTmu_pke (s : State) (x : Tmu) : (s.setTmu x).pke = s.pke := rfl
@[simp] theorem State.setTmu_grn (s : State) (x : Tmu) : (s.setTmu x).grn = s.grn := rfl
@[simp] theorem State.setTmu_txRes (s : State) (x : Tmu) : (s.setTmu x).txRes = s.txRes := rfl
@[simp] theorem State.setTmu_mmu (s : State) (x : Tmu) : (s.setTmu x).mmu = s.mmu := rfl
@[simp] theorem State.setTmu_frp (s : State) (x : Tmu) : (s.setTmu x).frp = s.frp := rfl
@[simp] theorem State.setTmu_gln (s : State) (x : Tmu) : (s.setTmu x).gln = s.gln := rfl
@[simp] theorem State.setTmu_tnd (s : State) (x : Tmu) : (s.setTmu x).tnd = s.tnd := rfl
@[simp] theorem State.setTmu_bal (s : State) (x : Tmu) : (s.setTmu x).bal = s.bal := rfl
@[simp] theorem State.setTmu_bgw (s : State) (x : Tmu) : (s.setTmu x).bgw = s.bgw := rfl
@[simp] theorem State.setTmu_ipx (s : State) (x : Tmu) : (s.setTmu x).ipx = s.ipx := rfl
@[simp] theorem State.setTmu_boot (s : State) (x : Tmu) : (s.setTmu x).boot = s.boot := rfl

/-! `State.setSwt` -/

@[simp] theorem State.setSwt_pending (s : State) (x : Swt) : (s.setSwt x).pending = s.pending := rfl
@[simp] theorem State.setSwt_free (s : State) (x : Swt) : (s.setSwt x).free = s.free := rfl
@[simp] theorem State.setSwt_mode (s : State) (x : Swt) : (s.setSwt x).mode = s.mode := rfl
@[simp] theorem State.setSwt_pins (s : State) (x : Swt) : (s.setSwt x).pins = s.pins := rfl
@[simp] theorem State.setSwt_nv (s : State) (x : Swt) : (s.setSwt x).nv = s.nv := rfl
@[simp] theorem State.setSwt_regs (s : State) (x : Swt) : (s.setSwt x).regs = s.regs := rfl
@[simp] theorem State.setSwt_busOut (s : State) (x : Swt) : (s.setSwt x).busOut = s.busOut := rfl
@[simp] theorem State.setSwt_i2cAddr (s : State) (x : Swt) : (s.setSwt x).i2cAddr = s.i2cAddr := rfl
@[simp] theorem State.setSwt_tmu (s : State) (x : Swt) : (s.setSwt x).tmu = s.tmu := rfl
@[simp] theorem State.setSwt_swt (s : State) (x : Swt) : (s.setSwt x).swt = x := rfl
@[simp] theorem State.setSwt_ports (s : State) (x : Swt) : (s.setSwt x).ports = s.ports := rfl
@[simp] theorem State.setSwt_mdio (s : State) (x : Swt) : (s.setSwt x).mdio = s.mdio := rfl
@[simp] theorem State.setSwt_qcp (s : State) (x : Swt) : (s.setSwt x).qcp = s.qcp := rfl
@[simp] theorem State.setSwt_tmpls (s : State) (x : Swt) : (s.setSwt x).tmpls = s.tmpls := rfl
@[simp] theorem State.setSwt_sets (s : State) (x : Swt) : (s.setSwt x).sets = s.sets := rfl
@[simp] theorem State.setSwt_cpts (s : State) (x : Swt) : (s.setSwt x).cpts = s.cpts := rfl
@[simp] theorem State.setSwt_legs (s : State) (x : Swt) : (s.setSwt x).legs = s.legs := rfl
@[simp] theorem State.setSwt_confs (s : State) (x : Swt) : (s.setSwt x).confs = s.confs := rfl
@[simp] theorem State.setSwt_armed (s : State) (x : Swt) : (s.setSwt x).armed = s.armed := rfl
@[simp] theorem State.setSwt_knl (s : State) (x : Swt) : (s.setSwt x).knl = s.knl := rfl
@[simp] theorem State.setSwt_engAcc (s : State) (x : Swt) : (s.setSwt x).engAcc = s.engAcc := rfl
@[simp] theorem State.setSwt_engQ (s : State) (x : Swt) : (s.setSwt x).engQ = s.engQ := rfl
@[simp] theorem State.setSwt_engDis (s : State) (x : Swt) : (s.setSwt x).engDis = s.engDis := rfl
@[simp] theorem State.setSwt_fns (s : State) (x : Swt) : (s.setSwt x).fns = s.fns := rfl
@[simp] theorem State.setSwt_shut (s : State) (x : Swt) : (s.setSwt x).shut = s.shut := rfl
@[simp] theorem State.setSwt_pke (s : State) (x : Swt) : (s.setSwt x).pke = s.pke := rfl
@[simp] theorem State.setSwt_grn (s : State) (x : Swt) : (s.setSwt x).grn = s.grn := rfl
@[simp] theorem State.setSwt_txRes (s : State) (x : Swt) : (s.setSwt x).txRes = s.txRes := rfl
@[simp] theorem State.setSwt_mmu (s : State) (x : Swt) : (s.setSwt x).mmu = s.mmu := rfl
@[simp] theorem State.setSwt_frp (s : State) (x : Swt) : (s.setSwt x).frp = s.frp := rfl
@[simp] theorem State.setSwt_gln (s : State) (x : Swt) : (s.setSwt x).gln = s.gln := rfl
@[simp] theorem State.setSwt_tnd (s : State) (x : Swt) : (s.setSwt x).tnd = s.tnd := rfl
@[simp] theorem State.setSwt_bal (s : State) (x : Swt) : (s.setSwt x).bal = s.bal := rfl
@[simp] theorem State.setSwt_bgw (s : State) (x : Swt) : (s.setSwt x).bgw = s.bgw := rfl
@[simp] theorem State.setSwt_ipx (s : State) (x : Swt) : (s.setSwt x).ipx = s.ipx := rfl
@[simp] theorem State.setSwt_boot (s : State) (x : Swt) : (s.setSwt x).boot = s.boot := rfl

/-! `State.setQcp` -/

@[simp] theorem State.setQcp_pending (s : State) (x : Qcp) : (s.setQcp x).pending = s.pending := rfl
@[simp] theorem State.setQcp_free (s : State) (x : Qcp) : (s.setQcp x).free = s.free := rfl
@[simp] theorem State.setQcp_mode (s : State) (x : Qcp) : (s.setQcp x).mode = s.mode := rfl
@[simp] theorem State.setQcp_pins (s : State) (x : Qcp) : (s.setQcp x).pins = s.pins := rfl
@[simp] theorem State.setQcp_nv (s : State) (x : Qcp) : (s.setQcp x).nv = s.nv := rfl
@[simp] theorem State.setQcp_regs (s : State) (x : Qcp) : (s.setQcp x).regs = s.regs := rfl
@[simp] theorem State.setQcp_busOut (s : State) (x : Qcp) : (s.setQcp x).busOut = s.busOut := rfl
@[simp] theorem State.setQcp_i2cAddr (s : State) (x : Qcp) : (s.setQcp x).i2cAddr = s.i2cAddr := rfl
@[simp] theorem State.setQcp_tmu (s : State) (x : Qcp) : (s.setQcp x).tmu = s.tmu := rfl
@[simp] theorem State.setQcp_swt (s : State) (x : Qcp) : (s.setQcp x).swt = s.swt := rfl
@[simp] theorem State.setQcp_ports (s : State) (x : Qcp) : (s.setQcp x).ports = s.ports := rfl
@[simp] theorem State.setQcp_mdio (s : State) (x : Qcp) : (s.setQcp x).mdio = s.mdio := rfl
@[simp] theorem State.setQcp_qcp (s : State) (x : Qcp) : (s.setQcp x).qcp = x := rfl
@[simp] theorem State.setQcp_tmpls (s : State) (x : Qcp) : (s.setQcp x).tmpls = s.tmpls := rfl
@[simp] theorem State.setQcp_sets (s : State) (x : Qcp) : (s.setQcp x).sets = s.sets := rfl
@[simp] theorem State.setQcp_cpts (s : State) (x : Qcp) : (s.setQcp x).cpts = s.cpts := rfl
@[simp] theorem State.setQcp_legs (s : State) (x : Qcp) : (s.setQcp x).legs = s.legs := rfl
@[simp] theorem State.setQcp_confs (s : State) (x : Qcp) : (s.setQcp x).confs = s.confs := rfl
@[simp] theorem State.setQcp_armed (s : State) (x : Qcp) : (s.setQcp x).armed = s.armed := rfl
@[simp] theorem State.setQcp_knl (s : State) (x : Qcp) : (s.setQcp x).knl = s.knl := rfl
@[simp] theorem State.setQcp_engAcc (s : State) (x : Qcp) : (s.setQcp x).engAcc = s.engAcc := rfl
@[simp] theorem State.setQcp_engQ (s : State) (x : Qcp) : (s.setQcp x).engQ = s.engQ := rfl
@[simp] theorem State.setQcp_engDis (s : State) (x : Qcp) : (s.setQcp x).engDis = s.engDis := rfl
@[simp] theorem State.setQcp_fns (s : State) (x : Qcp) : (s.setQcp x).fns = s.fns := rfl
@[simp] theorem State.setQcp_shut (s : State) (x : Qcp) : (s.setQcp x).shut = s.shut := rfl
@[simp] theorem State.setQcp_pke (s : State) (x : Qcp) : (s.setQcp x).pke = s.pke := rfl
@[simp] theorem State.setQcp_grn (s : State) (x : Qcp) : (s.setQcp x).grn = s.grn := rfl
@[simp] theorem State.setQcp_txRes (s : State) (x : Qcp) : (s.setQcp x).txRes = s.txRes := rfl
@[simp] theorem State.setQcp_mmu (s : State) (x : Qcp) : (s.setQcp x).mmu = s.mmu := rfl
@[simp] theorem State.setQcp_frp (s : State) (x : Qcp) : (s.setQcp x).frp = s.frp := rfl
@[simp] theorem State.setQcp_gln (s : State) (x : Qcp) : (s.setQcp x).gln = s.gln := rfl
@[simp] theorem State.setQcp_tnd (s : State) (x : Qcp) : (s.setQcp x).tnd = s.tnd := rfl
@[simp] theorem State.setQcp_bal (s : State) (x : Qcp) : (s.setQcp x).bal = s.bal := rfl
@[simp] theorem State.setQcp_bgw (s : State) (x : Qcp) : (s.setQcp x).bgw = s.bgw := rfl
@[simp] theorem State.setQcp_ipx (s : State) (x : Qcp) : (s.setQcp x).ipx = s.ipx := rfl
@[simp] theorem State.setQcp_boot (s : State) (x : Qcp) : (s.setQcp x).boot = s.boot := rfl

/-! `State.setPke` -/

@[simp] theorem State.setPke_pending (s : State) (x : Pke) : (s.setPke x).pending = s.pending := rfl
@[simp] theorem State.setPke_free (s : State) (x : Pke) : (s.setPke x).free = s.free := rfl
@[simp] theorem State.setPke_mode (s : State) (x : Pke) : (s.setPke x).mode = s.mode := rfl
@[simp] theorem State.setPke_pins (s : State) (x : Pke) : (s.setPke x).pins = s.pins := rfl
@[simp] theorem State.setPke_nv (s : State) (x : Pke) : (s.setPke x).nv = s.nv := rfl
@[simp] theorem State.setPke_regs (s : State) (x : Pke) : (s.setPke x).regs = s.regs := rfl
@[simp] theorem State.setPke_busOut (s : State) (x : Pke) : (s.setPke x).busOut = s.busOut := rfl
@[simp] theorem State.setPke_i2cAddr (s : State) (x : Pke) : (s.setPke x).i2cAddr = s.i2cAddr := rfl
@[simp] theorem State.setPke_tmu (s : State) (x : Pke) : (s.setPke x).tmu = s.tmu := rfl
@[simp] theorem State.setPke_swt (s : State) (x : Pke) : (s.setPke x).swt = s.swt := rfl
@[simp] theorem State.setPke_ports (s : State) (x : Pke) : (s.setPke x).ports = s.ports := rfl
@[simp] theorem State.setPke_mdio (s : State) (x : Pke) : (s.setPke x).mdio = s.mdio := rfl
@[simp] theorem State.setPke_qcp (s : State) (x : Pke) : (s.setPke x).qcp = s.qcp := rfl
@[simp] theorem State.setPke_tmpls (s : State) (x : Pke) : (s.setPke x).tmpls = s.tmpls := rfl
@[simp] theorem State.setPke_sets (s : State) (x : Pke) : (s.setPke x).sets = s.sets := rfl
@[simp] theorem State.setPke_cpts (s : State) (x : Pke) : (s.setPke x).cpts = s.cpts := rfl
@[simp] theorem State.setPke_legs (s : State) (x : Pke) : (s.setPke x).legs = s.legs := rfl
@[simp] theorem State.setPke_confs (s : State) (x : Pke) : (s.setPke x).confs = s.confs := rfl
@[simp] theorem State.setPke_armed (s : State) (x : Pke) : (s.setPke x).armed = s.armed := rfl
@[simp] theorem State.setPke_knl (s : State) (x : Pke) : (s.setPke x).knl = s.knl := rfl
@[simp] theorem State.setPke_engAcc (s : State) (x : Pke) : (s.setPke x).engAcc = s.engAcc := rfl
@[simp] theorem State.setPke_engQ (s : State) (x : Pke) : (s.setPke x).engQ = s.engQ := rfl
@[simp] theorem State.setPke_engDis (s : State) (x : Pke) : (s.setPke x).engDis = s.engDis := rfl
@[simp] theorem State.setPke_fns (s : State) (x : Pke) : (s.setPke x).fns = s.fns := rfl
@[simp] theorem State.setPke_shut (s : State) (x : Pke) : (s.setPke x).shut = s.shut := rfl
@[simp] theorem State.setPke_pke (s : State) (x : Pke) : (s.setPke x).pke = x := rfl
@[simp] theorem State.setPke_grn (s : State) (x : Pke) : (s.setPke x).grn = s.grn := rfl
@[simp] theorem State.setPke_txRes (s : State) (x : Pke) : (s.setPke x).txRes = s.txRes := rfl
@[simp] theorem State.setPke_mmu (s : State) (x : Pke) : (s.setPke x).mmu = s.mmu := rfl
@[simp] theorem State.setPke_frp (s : State) (x : Pke) : (s.setPke x).frp = s.frp := rfl
@[simp] theorem State.setPke_gln (s : State) (x : Pke) : (s.setPke x).gln = s.gln := rfl
@[simp] theorem State.setPke_tnd (s : State) (x : Pke) : (s.setPke x).tnd = s.tnd := rfl
@[simp] theorem State.setPke_bal (s : State) (x : Pke) : (s.setPke x).bal = s.bal := rfl
@[simp] theorem State.setPke_bgw (s : State) (x : Pke) : (s.setPke x).bgw = s.bgw := rfl
@[simp] theorem State.setPke_ipx (s : State) (x : Pke) : (s.setPke x).ipx = s.ipx := rfl
@[simp] theorem State.setPke_boot (s : State) (x : Pke) : (s.setPke x).boot = s.boot := rfl

/-! `State.setNv` -/

@[simp] theorem State.setNv_pending (s : State) (x : Nv) : (s.setNv x).pending = s.pending := rfl
@[simp] theorem State.setNv_free (s : State) (x : Nv) : (s.setNv x).free = s.free := rfl
@[simp] theorem State.setNv_mode (s : State) (x : Nv) : (s.setNv x).mode = s.mode := rfl
@[simp] theorem State.setNv_pins (s : State) (x : Nv) : (s.setNv x).pins = s.pins := rfl
@[simp] theorem State.setNv_nv (s : State) (x : Nv) : (s.setNv x).nv = x := rfl
@[simp] theorem State.setNv_regs (s : State) (x : Nv) : (s.setNv x).regs = s.regs := rfl
@[simp] theorem State.setNv_busOut (s : State) (x : Nv) : (s.setNv x).busOut = s.busOut := rfl
@[simp] theorem State.setNv_i2cAddr (s : State) (x : Nv) : (s.setNv x).i2cAddr = s.i2cAddr := rfl
@[simp] theorem State.setNv_tmu (s : State) (x : Nv) : (s.setNv x).tmu = s.tmu := rfl
@[simp] theorem State.setNv_swt (s : State) (x : Nv) : (s.setNv x).swt = s.swt := rfl
@[simp] theorem State.setNv_ports (s : State) (x : Nv) : (s.setNv x).ports = s.ports := rfl
@[simp] theorem State.setNv_mdio (s : State) (x : Nv) : (s.setNv x).mdio = s.mdio := rfl
@[simp] theorem State.setNv_qcp (s : State) (x : Nv) : (s.setNv x).qcp = s.qcp := rfl
@[simp] theorem State.setNv_tmpls (s : State) (x : Nv) : (s.setNv x).tmpls = s.tmpls := rfl
@[simp] theorem State.setNv_sets (s : State) (x : Nv) : (s.setNv x).sets = s.sets := rfl
@[simp] theorem State.setNv_cpts (s : State) (x : Nv) : (s.setNv x).cpts = s.cpts := rfl
@[simp] theorem State.setNv_legs (s : State) (x : Nv) : (s.setNv x).legs = s.legs := rfl
@[simp] theorem State.setNv_confs (s : State) (x : Nv) : (s.setNv x).confs = s.confs := rfl
@[simp] theorem State.setNv_armed (s : State) (x : Nv) : (s.setNv x).armed = s.armed := rfl
@[simp] theorem State.setNv_knl (s : State) (x : Nv) : (s.setNv x).knl = s.knl := rfl
@[simp] theorem State.setNv_engAcc (s : State) (x : Nv) : (s.setNv x).engAcc = s.engAcc := rfl
@[simp] theorem State.setNv_engQ (s : State) (x : Nv) : (s.setNv x).engQ = s.engQ := rfl
@[simp] theorem State.setNv_engDis (s : State) (x : Nv) : (s.setNv x).engDis = s.engDis := rfl
@[simp] theorem State.setNv_fns (s : State) (x : Nv) : (s.setNv x).fns = s.fns := rfl
@[simp] theorem State.setNv_shut (s : State) (x : Nv) : (s.setNv x).shut = s.shut := rfl
@[simp] theorem State.setNv_pke (s : State) (x : Nv) : (s.setNv x).pke = s.pke := rfl
@[simp] theorem State.setNv_grn (s : State) (x : Nv) : (s.setNv x).grn = s.grn := rfl
@[simp] theorem State.setNv_txRes (s : State) (x : Nv) : (s.setNv x).txRes = s.txRes := rfl
@[simp] theorem State.setNv_mmu (s : State) (x : Nv) : (s.setNv x).mmu = s.mmu := rfl
@[simp] theorem State.setNv_frp (s : State) (x : Nv) : (s.setNv x).frp = s.frp := rfl
@[simp] theorem State.setNv_gln (s : State) (x : Nv) : (s.setNv x).gln = s.gln := rfl
@[simp] theorem State.setNv_tnd (s : State) (x : Nv) : (s.setNv x).tnd = s.tnd := rfl
@[simp] theorem State.setNv_bal (s : State) (x : Nv) : (s.setNv x).bal = s.bal := rfl
@[simp] theorem State.setNv_bgw (s : State) (x : Nv) : (s.setNv x).bgw = s.bgw := rfl
@[simp] theorem State.setNv_ipx (s : State) (x : Nv) : (s.setNv x).ipx = s.ipx := rfl
@[simp] theorem State.setNv_boot (s : State) (x : Nv) : (s.setNv x).boot = s.boot := rfl

/-! `State.setGrn` -/

@[simp] theorem State.setGrn_pending (s : State) (x : Grn) : (s.setGrn x).pending = s.pending := rfl
@[simp] theorem State.setGrn_free (s : State) (x : Grn) : (s.setGrn x).free = s.free := rfl
@[simp] theorem State.setGrn_mode (s : State) (x : Grn) : (s.setGrn x).mode = s.mode := rfl
@[simp] theorem State.setGrn_pins (s : State) (x : Grn) : (s.setGrn x).pins = s.pins := rfl
@[simp] theorem State.setGrn_nv (s : State) (x : Grn) : (s.setGrn x).nv = s.nv := rfl
@[simp] theorem State.setGrn_regs (s : State) (x : Grn) : (s.setGrn x).regs = s.regs := rfl
@[simp] theorem State.setGrn_busOut (s : State) (x : Grn) : (s.setGrn x).busOut = s.busOut := rfl
@[simp] theorem State.setGrn_i2cAddr (s : State) (x : Grn) : (s.setGrn x).i2cAddr = s.i2cAddr := rfl
@[simp] theorem State.setGrn_tmu (s : State) (x : Grn) : (s.setGrn x).tmu = s.tmu := rfl
@[simp] theorem State.setGrn_swt (s : State) (x : Grn) : (s.setGrn x).swt = s.swt := rfl
@[simp] theorem State.setGrn_ports (s : State) (x : Grn) : (s.setGrn x).ports = s.ports := rfl
@[simp] theorem State.setGrn_mdio (s : State) (x : Grn) : (s.setGrn x).mdio = s.mdio := rfl
@[simp] theorem State.setGrn_qcp (s : State) (x : Grn) : (s.setGrn x).qcp = s.qcp := rfl
@[simp] theorem State.setGrn_tmpls (s : State) (x : Grn) : (s.setGrn x).tmpls = s.tmpls := rfl
@[simp] theorem State.setGrn_sets (s : State) (x : Grn) : (s.setGrn x).sets = s.sets := rfl
@[simp] theorem State.setGrn_cpts (s : State) (x : Grn) : (s.setGrn x).cpts = s.cpts := rfl
@[simp] theorem State.setGrn_legs (s : State) (x : Grn) : (s.setGrn x).legs = s.legs := rfl
@[simp] theorem State.setGrn_confs (s : State) (x : Grn) : (s.setGrn x).confs = s.confs := rfl
@[simp] theorem State.setGrn_armed (s : State) (x : Grn) : (s.setGrn x).armed = s.armed := rfl
@[simp] theorem State.setGrn_knl (s : State) (x : Grn) : (s.setGrn x).knl = s.knl := rfl
@[simp] theorem State.setGrn_engAcc (s : State) (x : Grn) : (s.setGrn x).engAcc = s.engAcc := rfl
@[simp] theorem State.setGrn_engQ (s : State) (x : Grn) : (s.setGrn x).engQ = s.engQ := rfl
@[simp] theorem State.setGrn_engDis (s : State) (x : Grn) : (s.setGrn x).engDis = s.engDis := rfl
@[simp] theorem State.setGrn_fns (s : State) (x : Grn) : (s.setGrn x).fns = s.fns := rfl
@[simp] theorem State.setGrn_shut (s : State) (x : Grn) : (s.setGrn x).shut = s.shut := rfl
@[simp] theorem State.setGrn_pke (s : State) (x : Grn) : (s.setGrn x).pke = s.pke := rfl
@[simp] theorem State.setGrn_grn (s : State) (x : Grn) : (s.setGrn x).grn = x := rfl
@[simp] theorem State.setGrn_txRes (s : State) (x : Grn) : (s.setGrn x).txRes = s.txRes := rfl
@[simp] theorem State.setGrn_mmu (s : State) (x : Grn) : (s.setGrn x).mmu = s.mmu := rfl
@[simp] theorem State.setGrn_frp (s : State) (x : Grn) : (s.setGrn x).frp = s.frp := rfl
@[simp] theorem State.setGrn_gln (s : State) (x : Grn) : (s.setGrn x).gln = s.gln := rfl
@[simp] theorem State.setGrn_tnd (s : State) (x : Grn) : (s.setGrn x).tnd = s.tnd := rfl
@[simp] theorem State.setGrn_bal (s : State) (x : Grn) : (s.setGrn x).bal = s.bal := rfl
@[simp] theorem State.setGrn_bgw (s : State) (x : Grn) : (s.setGrn x).bgw = s.bgw := rfl
@[simp] theorem State.setGrn_ipx (s : State) (x : Grn) : (s.setGrn x).ipx = s.ipx := rfl
@[simp] theorem State.setGrn_boot (s : State) (x : Grn) : (s.setGrn x).boot = s.boot := rfl

/-! `State.setMmu` -/

@[simp] theorem State.setMmu_pending (s : State) (x : Mmu) : (s.setMmu x).pending = s.pending := rfl
@[simp] theorem State.setMmu_free (s : State) (x : Mmu) : (s.setMmu x).free = s.free := rfl
@[simp] theorem State.setMmu_mode (s : State) (x : Mmu) : (s.setMmu x).mode = s.mode := rfl
@[simp] theorem State.setMmu_pins (s : State) (x : Mmu) : (s.setMmu x).pins = s.pins := rfl
@[simp] theorem State.setMmu_nv (s : State) (x : Mmu) : (s.setMmu x).nv = s.nv := rfl
@[simp] theorem State.setMmu_regs (s : State) (x : Mmu) : (s.setMmu x).regs = s.regs := rfl
@[simp] theorem State.setMmu_busOut (s : State) (x : Mmu) : (s.setMmu x).busOut = s.busOut := rfl
@[simp] theorem State.setMmu_i2cAddr (s : State) (x : Mmu) : (s.setMmu x).i2cAddr = s.i2cAddr := rfl
@[simp] theorem State.setMmu_tmu (s : State) (x : Mmu) : (s.setMmu x).tmu = s.tmu := rfl
@[simp] theorem State.setMmu_swt (s : State) (x : Mmu) : (s.setMmu x).swt = s.swt := rfl
@[simp] theorem State.setMmu_ports (s : State) (x : Mmu) : (s.setMmu x).ports = s.ports := rfl
@[simp] theorem State.setMmu_mdio (s : State) (x : Mmu) : (s.setMmu x).mdio = s.mdio := rfl
@[simp] theorem State.setMmu_qcp (s : State) (x : Mmu) : (s.setMmu x).qcp = s.qcp := rfl
@[simp] theorem State.setMmu_tmpls (s : State) (x : Mmu) : (s.setMmu x).tmpls = s.tmpls := rfl
@[simp] theorem State.setMmu_sets (s : State) (x : Mmu) : (s.setMmu x).sets = s.sets := rfl
@[simp] theorem State.setMmu_cpts (s : State) (x : Mmu) : (s.setMmu x).cpts = s.cpts := rfl
@[simp] theorem State.setMmu_legs (s : State) (x : Mmu) : (s.setMmu x).legs = s.legs := rfl
@[simp] theorem State.setMmu_confs (s : State) (x : Mmu) : (s.setMmu x).confs = s.confs := rfl
@[simp] theorem State.setMmu_armed (s : State) (x : Mmu) : (s.setMmu x).armed = s.armed := rfl
@[simp] theorem State.setMmu_knl (s : State) (x : Mmu) : (s.setMmu x).knl = s.knl := rfl
@[simp] theorem State.setMmu_engAcc (s : State) (x : Mmu) : (s.setMmu x).engAcc = s.engAcc := rfl
@[simp] theorem State.setMmu_engQ (s : State) (x : Mmu) : (s.setMmu x).engQ = s.engQ := rfl
@[simp] theorem State.setMmu_engDis (s : State) (x : Mmu) : (s.setMmu x).engDis = s.engDis := rfl
@[simp] theorem State.setMmu_fns (s : State) (x : Mmu) : (s.setMmu x).fns = s.fns := rfl
@[simp] theorem State.setMmu_shut (s : State) (x : Mmu) : (s.setMmu x).shut = s.shut := rfl
@[simp] theorem State.setMmu_pke (s : State) (x : Mmu) : (s.setMmu x).pke = s.pke := rfl
@[simp] theorem State.setMmu_grn (s : State) (x : Mmu) : (s.setMmu x).grn = s.grn := rfl
@[simp] theorem State.setMmu_txRes (s : State) (x : Mmu) : (s.setMmu x).txRes = s.txRes := rfl
@[simp] theorem State.setMmu_mmu (s : State) (x : Mmu) : (s.setMmu x).mmu = x := rfl
@[simp] theorem State.setMmu_frp (s : State) (x : Mmu) : (s.setMmu x).frp = s.frp := rfl
@[simp] theorem State.setMmu_gln (s : State) (x : Mmu) : (s.setMmu x).gln = s.gln := rfl
@[simp] theorem State.setMmu_tnd (s : State) (x : Mmu) : (s.setMmu x).tnd = s.tnd := rfl
@[simp] theorem State.setMmu_bal (s : State) (x : Mmu) : (s.setMmu x).bal = s.bal := rfl
@[simp] theorem State.setMmu_bgw (s : State) (x : Mmu) : (s.setMmu x).bgw = s.bgw := rfl
@[simp] theorem State.setMmu_ipx (s : State) (x : Mmu) : (s.setMmu x).ipx = s.ipx := rfl
@[simp] theorem State.setMmu_boot (s : State) (x : Mmu) : (s.setMmu x).boot = s.boot := rfl

/-! `State.setKnl` -/

@[simp] theorem State.setKnl_pending (s : State) (x : Knl) : (s.setKnl x).pending = s.pending := rfl
@[simp] theorem State.setKnl_free (s : State) (x : Knl) : (s.setKnl x).free = s.free := rfl
@[simp] theorem State.setKnl_mode (s : State) (x : Knl) : (s.setKnl x).mode = s.mode := rfl
@[simp] theorem State.setKnl_pins (s : State) (x : Knl) : (s.setKnl x).pins = s.pins := rfl
@[simp] theorem State.setKnl_nv (s : State) (x : Knl) : (s.setKnl x).nv = s.nv := rfl
@[simp] theorem State.setKnl_regs (s : State) (x : Knl) : (s.setKnl x).regs = s.regs := rfl
@[simp] theorem State.setKnl_busOut (s : State) (x : Knl) : (s.setKnl x).busOut = s.busOut := rfl
@[simp] theorem State.setKnl_i2cAddr (s : State) (x : Knl) : (s.setKnl x).i2cAddr = s.i2cAddr := rfl
@[simp] theorem State.setKnl_tmu (s : State) (x : Knl) : (s.setKnl x).tmu = s.tmu := rfl
@[simp] theorem State.setKnl_swt (s : State) (x : Knl) : (s.setKnl x).swt = s.swt := rfl
@[simp] theorem State.setKnl_ports (s : State) (x : Knl) : (s.setKnl x).ports = s.ports := rfl
@[simp] theorem State.setKnl_mdio (s : State) (x : Knl) : (s.setKnl x).mdio = s.mdio := rfl
@[simp] theorem State.setKnl_qcp (s : State) (x : Knl) : (s.setKnl x).qcp = s.qcp := rfl
@[simp] theorem State.setKnl_tmpls (s : State) (x : Knl) : (s.setKnl x).tmpls = s.tmpls := rfl
@[simp] theorem State.setKnl_sets (s : State) (x : Knl) : (s.setKnl x).sets = s.sets := rfl
@[simp] theorem State.setKnl_cpts (s : State) (x : Knl) : (s.setKnl x).cpts = s.cpts := rfl
@[simp] theorem State.setKnl_legs (s : State) (x : Knl) : (s.setKnl x).legs = s.legs := rfl
@[simp] theorem State.setKnl_confs (s : State) (x : Knl) : (s.setKnl x).confs = s.confs := rfl
@[simp] theorem State.setKnl_armed (s : State) (x : Knl) : (s.setKnl x).armed = s.armed := rfl
@[simp] theorem State.setKnl_knl (s : State) (x : Knl) : (s.setKnl x).knl = x := rfl
@[simp] theorem State.setKnl_engAcc (s : State) (x : Knl) : (s.setKnl x).engAcc = s.engAcc := rfl
@[simp] theorem State.setKnl_engQ (s : State) (x : Knl) : (s.setKnl x).engQ = s.engQ := rfl
@[simp] theorem State.setKnl_engDis (s : State) (x : Knl) : (s.setKnl x).engDis = s.engDis := rfl
@[simp] theorem State.setKnl_fns (s : State) (x : Knl) : (s.setKnl x).fns = s.fns := rfl
@[simp] theorem State.setKnl_shut (s : State) (x : Knl) : (s.setKnl x).shut = s.shut := rfl
@[simp] theorem State.setKnl_pke (s : State) (x : Knl) : (s.setKnl x).pke = s.pke := rfl
@[simp] theorem State.setKnl_grn (s : State) (x : Knl) : (s.setKnl x).grn = s.grn := rfl
@[simp] theorem State.setKnl_txRes (s : State) (x : Knl) : (s.setKnl x).txRes = s.txRes := rfl
@[simp] theorem State.setKnl_mmu (s : State) (x : Knl) : (s.setKnl x).mmu = s.mmu := rfl
@[simp] theorem State.setKnl_frp (s : State) (x : Knl) : (s.setKnl x).frp = s.frp := rfl
@[simp] theorem State.setKnl_gln (s : State) (x : Knl) : (s.setKnl x).gln = s.gln := rfl
@[simp] theorem State.setKnl_tnd (s : State) (x : Knl) : (s.setKnl x).tnd = s.tnd := rfl
@[simp] theorem State.setKnl_bal (s : State) (x : Knl) : (s.setKnl x).bal = s.bal := rfl
@[simp] theorem State.setKnl_bgw (s : State) (x : Knl) : (s.setKnl x).bgw = s.bgw := rfl
@[simp] theorem State.setKnl_ipx (s : State) (x : Knl) : (s.setKnl x).ipx = s.ipx := rfl
@[simp] theorem State.setKnl_boot (s : State) (x : Knl) : (s.setKnl x).boot = s.boot := rfl

/-! `State.setShut` -/

@[simp] theorem State.setShut_pending (s : State) (x : Shut) : (s.setShut x).pending = s.pending := rfl
@[simp] theorem State.setShut_free (s : State) (x : Shut) : (s.setShut x).free = s.free := rfl
@[simp] theorem State.setShut_mode (s : State) (x : Shut) : (s.setShut x).mode = s.mode := rfl
@[simp] theorem State.setShut_pins (s : State) (x : Shut) : (s.setShut x).pins = s.pins := rfl
@[simp] theorem State.setShut_nv (s : State) (x : Shut) : (s.setShut x).nv = s.nv := rfl
@[simp] theorem State.setShut_regs (s : State) (x : Shut) : (s.setShut x).regs = s.regs := rfl
@[simp] theorem State.setShut_busOut (s : State) (x : Shut) : (s.setShut x).busOut = s.busOut := rfl
@[simp] theorem State.setShut_i2cAddr (s : State) (x : Shut) : (s.setShut x).i2cAddr = s.i2cAddr := rfl
@[simp] theorem State.setShut_tmu (s : State) (x : Shut) : (s.setShut x).tmu = s.tmu := rfl
@[simp] theorem State.setShut_swt (s : State) (x : Shut) : (s.setShut x).swt = s.swt := rfl
@[simp] theorem State.setShut_ports (s : State) (x : Shut) : (s.setShut x).ports = s.ports := rfl
@[simp] theorem State.setShut_mdio (s : State) (x : Shut) : (s.setShut x).mdio = s.mdio := rfl
@[simp] theorem State.setShut_qcp (s : State) (x : Shut) : (s.setShut x).qcp = s.qcp := rfl
@[simp] theorem State.setShut_tmpls (s : State) (x : Shut) : (s.setShut x).tmpls = s.tmpls := rfl
@[simp] theorem State.setShut_sets (s : State) (x : Shut) : (s.setShut x).sets = s.sets := rfl
@[simp] theorem State.setShut_cpts (s : State) (x : Shut) : (s.setShut x).cpts = s.cpts := rfl
@[simp] theorem State.setShut_legs (s : State) (x : Shut) : (s.setShut x).legs = s.legs := rfl
@[simp] theorem State.setShut_confs (s : State) (x : Shut) : (s.setShut x).confs = s.confs := rfl
@[simp] theorem State.setShut_armed (s : State) (x : Shut) : (s.setShut x).armed = s.armed := rfl
@[simp] theorem State.setShut_knl (s : State) (x : Shut) : (s.setShut x).knl = s.knl := rfl
@[simp] theorem State.setShut_engAcc (s : State) (x : Shut) : (s.setShut x).engAcc = s.engAcc := rfl
@[simp] theorem State.setShut_engQ (s : State) (x : Shut) : (s.setShut x).engQ = s.engQ := rfl
@[simp] theorem State.setShut_engDis (s : State) (x : Shut) : (s.setShut x).engDis = s.engDis := rfl
@[simp] theorem State.setShut_fns (s : State) (x : Shut) : (s.setShut x).fns = s.fns := rfl
@[simp] theorem State.setShut_shut (s : State) (x : Shut) : (s.setShut x).shut = x := rfl
@[simp] theorem State.setShut_pke (s : State) (x : Shut) : (s.setShut x).pke = s.pke := rfl
@[simp] theorem State.setShut_grn (s : State) (x : Shut) : (s.setShut x).grn = s.grn := rfl
@[simp] theorem State.setShut_txRes (s : State) (x : Shut) : (s.setShut x).txRes = s.txRes := rfl
@[simp] theorem State.setShut_mmu (s : State) (x : Shut) : (s.setShut x).mmu = s.mmu := rfl
@[simp] theorem State.setShut_frp (s : State) (x : Shut) : (s.setShut x).frp = s.frp := rfl
@[simp] theorem State.setShut_gln (s : State) (x : Shut) : (s.setShut x).gln = s.gln := rfl
@[simp] theorem State.setShut_tnd (s : State) (x : Shut) : (s.setShut x).tnd = s.tnd := rfl
@[simp] theorem State.setShut_bal (s : State) (x : Shut) : (s.setShut x).bal = s.bal := rfl
@[simp] theorem State.setShut_bgw (s : State) (x : Shut) : (s.setShut x).bgw = s.bgw := rfl
@[simp] theorem State.setShut_ipx (s : State) (x : Shut) : (s.setShut x).ipx = s.ipx := rfl
@[simp] theorem State.setShut_boot (s : State) (x : Shut) : (s.setShut x).boot = s.boot := rfl

/-! `State.setBal` -/

@[simp] theorem State.setBal_pending (s : State) (x : Bal) : (s.setBal x).pending = s.pending := rfl
@[simp] theorem State.setBal_free (s : State) (x : Bal) : (s.setBal x).free = s.free := rfl
@[simp] theorem State.setBal_mode (s : State) (x : Bal) : (s.setBal x).mode = s.mode := rfl
@[simp] theorem State.setBal_pins (s : State) (x : Bal) : (s.setBal x).pins = s.pins := rfl
@[simp] theorem State.setBal_nv (s : State) (x : Bal) : (s.setBal x).nv = s.nv := rfl
@[simp] theorem State.setBal_regs (s : State) (x : Bal) : (s.setBal x).regs = s.regs := rfl
@[simp] theorem State.setBal_busOut (s : State) (x : Bal) : (s.setBal x).busOut = s.busOut := rfl
@[simp] theorem State.setBal_i2cAddr (s : State) (x : Bal) : (s.setBal x).i2cAddr = s.i2cAddr := rfl
@[simp] theorem State.setBal_tmu (s : State) (x : Bal) : (s.setBal x).tmu = s.tmu := rfl
@[simp] theorem State.setBal_swt (s : State) (x : Bal) : (s.setBal x).swt = s.swt := rfl
@[simp] theorem State.setBal_ports (s : State) (x : Bal) : (s.setBal x).ports = s.ports := rfl
@[simp] theorem State.setBal_mdio (s : State) (x : Bal) : (s.setBal x).mdio = s.mdio := rfl
@[simp] theorem State.setBal_qcp (s : State) (x : Bal) : (s.setBal x).qcp = s.qcp := rfl
@[simp] theorem State.setBal_tmpls (s : State) (x : Bal) : (s.setBal x).tmpls = s.tmpls := rfl
@[simp] theorem State.setBal_sets (s : State) (x : Bal) : (s.setBal x).sets = s.sets := rfl
@[simp] theorem State.setBal_cpts (s : State) (x : Bal) : (s.setBal x).cpts = s.cpts := rfl
@[simp] theorem State.setBal_legs (s : State) (x : Bal) : (s.setBal x).legs = s.legs := rfl
@[simp] theorem State.setBal_confs (s : State) (x : Bal) : (s.setBal x).confs = s.confs := rfl
@[simp] theorem State.setBal_armed (s : State) (x : Bal) : (s.setBal x).armed = s.armed := rfl
@[simp] theorem State.setBal_knl (s : State) (x : Bal) : (s.setBal x).knl = s.knl := rfl
@[simp] theorem State.setBal_engAcc (s : State) (x : Bal) : (s.setBal x).engAcc = s.engAcc := rfl
@[simp] theorem State.setBal_engQ (s : State) (x : Bal) : (s.setBal x).engQ = s.engQ := rfl
@[simp] theorem State.setBal_engDis (s : State) (x : Bal) : (s.setBal x).engDis = s.engDis := rfl
@[simp] theorem State.setBal_fns (s : State) (x : Bal) : (s.setBal x).fns = s.fns := rfl
@[simp] theorem State.setBal_shut (s : State) (x : Bal) : (s.setBal x).shut = s.shut := rfl
@[simp] theorem State.setBal_pke (s : State) (x : Bal) : (s.setBal x).pke = s.pke := rfl
@[simp] theorem State.setBal_grn (s : State) (x : Bal) : (s.setBal x).grn = s.grn := rfl
@[simp] theorem State.setBal_txRes (s : State) (x : Bal) : (s.setBal x).txRes = s.txRes := rfl
@[simp] theorem State.setBal_mmu (s : State) (x : Bal) : (s.setBal x).mmu = s.mmu := rfl
@[simp] theorem State.setBal_frp (s : State) (x : Bal) : (s.setBal x).frp = s.frp := rfl
@[simp] theorem State.setBal_gln (s : State) (x : Bal) : (s.setBal x).gln = s.gln := rfl
@[simp] theorem State.setBal_tnd (s : State) (x : Bal) : (s.setBal x).tnd = s.tnd := rfl
@[simp] theorem State.setBal_bal (s : State) (x : Bal) : (s.setBal x).bal = x := rfl
@[simp] theorem State.setBal_bgw (s : State) (x : Bal) : (s.setBal x).bgw = s.bgw := rfl
@[simp] theorem State.setBal_ipx (s : State) (x : Bal) : (s.setBal x).ipx = s.ipx := rfl
@[simp] theorem State.setBal_boot (s : State) (x : Bal) : (s.setBal x).boot = s.boot := rfl

/-! `State.setBgw` -/

@[simp] theorem State.setBgw_pending (s : State) (x : Bgw) : (s.setBgw x).pending = s.pending := rfl
@[simp] theorem State.setBgw_free (s : State) (x : Bgw) : (s.setBgw x).free = s.free := rfl
@[simp] theorem State.setBgw_mode (s : State) (x : Bgw) : (s.setBgw x).mode = s.mode := rfl
@[simp] theorem State.setBgw_pins (s : State) (x : Bgw) : (s.setBgw x).pins = s.pins := rfl
@[simp] theorem State.setBgw_nv (s : State) (x : Bgw) : (s.setBgw x).nv = s.nv := rfl
@[simp] theorem State.setBgw_regs (s : State) (x : Bgw) : (s.setBgw x).regs = s.regs := rfl
@[simp] theorem State.setBgw_busOut (s : State) (x : Bgw) : (s.setBgw x).busOut = s.busOut := rfl
@[simp] theorem State.setBgw_i2cAddr (s : State) (x : Bgw) : (s.setBgw x).i2cAddr = s.i2cAddr := rfl
@[simp] theorem State.setBgw_tmu (s : State) (x : Bgw) : (s.setBgw x).tmu = s.tmu := rfl
@[simp] theorem State.setBgw_swt (s : State) (x : Bgw) : (s.setBgw x).swt = s.swt := rfl
@[simp] theorem State.setBgw_ports (s : State) (x : Bgw) : (s.setBgw x).ports = s.ports := rfl
@[simp] theorem State.setBgw_mdio (s : State) (x : Bgw) : (s.setBgw x).mdio = s.mdio := rfl
@[simp] theorem State.setBgw_qcp (s : State) (x : Bgw) : (s.setBgw x).qcp = s.qcp := rfl
@[simp] theorem State.setBgw_tmpls (s : State) (x : Bgw) : (s.setBgw x).tmpls = s.tmpls := rfl
@[simp] theorem State.setBgw_sets (s : State) (x : Bgw) : (s.setBgw x).sets = s.sets := rfl
@[simp] theorem State.setBgw_cpts (s : State) (x : Bgw) : (s.setBgw x).cpts = s.cpts := rfl
@[simp] theorem State.setBgw_legs (s : State) (x : Bgw) : (s.setBgw x).legs = s.legs := rfl
@[simp] theorem State.setBgw_confs (s : State) (x : Bgw) : (s.setBgw x).confs = s.confs := rfl
@[simp] theorem State.setBgw_armed (s : State) (x : Bgw) : (s.setBgw x).armed = s.armed := rfl
@[simp] theorem State.setBgw_knl (s : State) (x : Bgw) : (s.setBgw x).knl = s.knl := rfl
@[simp] theorem State.setBgw_engAcc (s : State) (x : Bgw) : (s.setBgw x).engAcc = s.engAcc := rfl
@[simp] theorem State.setBgw_engQ (s : State) (x : Bgw) : (s.setBgw x).engQ = s.engQ := rfl
@[simp] theorem State.setBgw_engDis (s : State) (x : Bgw) : (s.setBgw x).engDis = s.engDis := rfl
@[simp] theorem State.setBgw_fns (s : State) (x : Bgw) : (s.setBgw x).fns = s.fns := rfl
@[simp] theorem State.setBgw_shut (s : State) (x : Bgw) : (s.setBgw x).shut = s.shut := rfl
@[simp] theorem State.setBgw_pke (s : State) (x : Bgw) : (s.setBgw x).pke = s.pke := rfl
@[simp] theorem State.setBgw_grn (s : State) (x : Bgw) : (s.setBgw x).grn = s.grn := rfl
@[simp] theorem State.setBgw_txRes (s : State) (x : Bgw) : (s.setBgw x).txRes = s.txRes := rfl
@[simp] theorem State.setBgw_mmu (s : State) (x : Bgw) : (s.setBgw x).mmu = s.mmu := rfl
@[simp] theorem State.setBgw_frp (s : State) (x : Bgw) : (s.setBgw x).frp = s.frp := rfl
@[simp] theorem State.setBgw_gln (s : State) (x : Bgw) : (s.setBgw x).gln = s.gln := rfl
@[simp] theorem State.setBgw_tnd (s : State) (x : Bgw) : (s.setBgw x).tnd = s.tnd := rfl
@[simp] theorem State.setBgw_bal (s : State) (x : Bgw) : (s.setBgw x).bal = s.bal := rfl
@[simp] theorem State.setBgw_bgw (s : State) (x : Bgw) : (s.setBgw x).bgw = x := rfl
@[simp] theorem State.setBgw_ipx (s : State) (x : Bgw) : (s.setBgw x).ipx = s.ipx := rfl
@[simp] theorem State.setBgw_boot (s : State) (x : Bgw) : (s.setBgw x).boot = s.boot := rfl

/-! `State.setFrp` -/

@[simp] theorem State.setFrp_pending (s : State) (x : Frp) : (s.setFrp x).pending = s.pending := rfl
@[simp] theorem State.setFrp_free (s : State) (x : Frp) : (s.setFrp x).free = s.free := rfl
@[simp] theorem State.setFrp_mode (s : State) (x : Frp) : (s.setFrp x).mode = s.mode := rfl
@[simp] theorem State.setFrp_pins (s : State) (x : Frp) : (s.setFrp x).pins = s.pins := rfl
@[simp] theorem State.setFrp_nv (s : State) (x : Frp) : (s.setFrp x).nv = s.nv := rfl
@[simp] theorem State.setFrp_regs (s : State) (x : Frp) : (s.setFrp x).regs = s.regs := rfl
@[simp] theorem State.setFrp_busOut (s : State) (x : Frp) : (s.setFrp x).busOut = s.busOut := rfl
@[simp] theorem State.setFrp_i2cAddr (s : State) (x : Frp) : (s.setFrp x).i2cAddr = s.i2cAddr := rfl
@[simp] theorem State.setFrp_tmu (s : State) (x : Frp) : (s.setFrp x).tmu = s.tmu := rfl
@[simp] theorem State.setFrp_swt (s : State) (x : Frp) : (s.setFrp x).swt = s.swt := rfl
@[simp] theorem State.setFrp_ports (s : State) (x : Frp) : (s.setFrp x).ports = s.ports := rfl
@[simp] theorem State.setFrp_mdio (s : State) (x : Frp) : (s.setFrp x).mdio = s.mdio := rfl
@[simp] theorem State.setFrp_qcp (s : State) (x : Frp) : (s.setFrp x).qcp = s.qcp := rfl
@[simp] theorem State.setFrp_tmpls (s : State) (x : Frp) : (s.setFrp x).tmpls = s.tmpls := rfl
@[simp] theorem State.setFrp_sets (s : State) (x : Frp) : (s.setFrp x).sets = s.sets := rfl
@[simp] theorem State.setFrp_cpts (s : State) (x : Frp) : (s.setFrp x).cpts = s.cpts := rfl
@[simp] theorem State.setFrp_legs (s : State) (x : Frp) : (s.setFrp x).legs = s.legs := rfl
@[simp] theorem State.setFrp_confs (s : State) (x : Frp) : (s.setFrp x).confs = s.confs := rfl
@[simp] theorem State.setFrp_armed (s : State) (x : Frp) : (s.setFrp x).armed = s.armed := rfl
@[simp] theorem State.setFrp_knl (s : State) (x : Frp) : (s.setFrp x).knl = s.knl := rfl
@[simp] theorem State.setFrp_engAcc (s : State) (x : Frp) : (s.setFrp x).engAcc = s.engAcc := rfl
@[simp] theorem State.setFrp_engQ (s : State) (x : Frp) : (s.setFrp x).engQ = s.engQ := rfl
@[simp] theorem State.setFrp_engDis (s : State) (x : Frp) : (s.setFrp x).engDis = s.engDis := rfl
@[simp] theorem State.setFrp_fns (s : State) (x : Frp) : (s.setFrp x).fns = s.fns := rfl
@[simp] theorem State.setFrp_shut (s : State) (x : Frp) : (s.setFrp x).shut = s.shut := rfl
@[simp] theorem State.setFrp_pke (s : State) (x : Frp) : (s.setFrp x).pke = s.pke := rfl
@[simp] theorem State.setFrp_grn (s : State) (x : Frp) : (s.setFrp x).grn = s.grn := rfl
@[simp] theorem State.setFrp_txRes (s : State) (x : Frp) : (s.setFrp x).txRes = s.txRes := rfl
@[simp] theorem State.setFrp_mmu (s : State) (x : Frp) : (s.setFrp x).mmu = s.mmu := rfl
@[simp] theorem State.setFrp_frp (s : State) (x : Frp) : (s.setFrp x).frp = x := rfl
@[simp] theorem State.setFrp_gln (s : State) (x : Frp) : (s.setFrp x).gln = s.gln := rfl
@[simp] theorem State.setFrp_tnd (s : State) (x : Frp) : (s.setFrp x).tnd = s.tnd := rfl
@[simp] theorem State.setFrp_bal (s : State) (x : Frp) : (s.setFrp x).bal = s.bal := rfl
@[simp] theorem State.setFrp_bgw (s : State) (x : Frp) : (s.setFrp x).bgw = s.bgw := rfl
@[simp] theorem State.setFrp_ipx (s : State) (x : Frp) : (s.setFrp x).ipx = s.ipx := rfl
@[simp] theorem State.setFrp_boot (s : State) (x : Frp) : (s.setFrp x).boot = s.boot := rfl

/-! `State.setGln` -/

@[simp] theorem State.setGln_pending (s : State) (x : Gln) : (s.setGln x).pending = s.pending := rfl
@[simp] theorem State.setGln_free (s : State) (x : Gln) : (s.setGln x).free = s.free := rfl
@[simp] theorem State.setGln_mode (s : State) (x : Gln) : (s.setGln x).mode = s.mode := rfl
@[simp] theorem State.setGln_pins (s : State) (x : Gln) : (s.setGln x).pins = s.pins := rfl
@[simp] theorem State.setGln_nv (s : State) (x : Gln) : (s.setGln x).nv = s.nv := rfl
@[simp] theorem State.setGln_regs (s : State) (x : Gln) : (s.setGln x).regs = s.regs := rfl
@[simp] theorem State.setGln_busOut (s : State) (x : Gln) : (s.setGln x).busOut = s.busOut := rfl
@[simp] theorem State.setGln_i2cAddr (s : State) (x : Gln) : (s.setGln x).i2cAddr = s.i2cAddr := rfl
@[simp] theorem State.setGln_tmu (s : State) (x : Gln) : (s.setGln x).tmu = s.tmu := rfl
@[simp] theorem State.setGln_swt (s : State) (x : Gln) : (s.setGln x).swt = s.swt := rfl
@[simp] theorem State.setGln_ports (s : State) (x : Gln) : (s.setGln x).ports = s.ports := rfl
@[simp] theorem State.setGln_mdio (s : State) (x : Gln) : (s.setGln x).mdio = s.mdio := rfl
@[simp] theorem State.setGln_qcp (s : State) (x : Gln) : (s.setGln x).qcp = s.qcp := rfl
@[simp] theorem State.setGln_tmpls (s : State) (x : Gln) : (s.setGln x).tmpls = s.tmpls := rfl
@[simp] theorem State.setGln_sets (s : State) (x : Gln) : (s.setGln x).sets = s.sets := rfl
@[simp] theorem State.setGln_cpts (s : State) (x : Gln) : (s.setGln x).cpts = s.cpts := rfl
@[simp] theorem State.setGln_legs (s : State) (x : Gln) : (s.setGln x).legs = s.legs := rfl
@[simp] theorem State.setGln_confs (s : State) (x : Gln) : (s.setGln x).confs = s.confs := rfl
@[simp] theorem State.setGln_armed (s : State) (x : Gln) : (s.setGln x).armed = s.armed := rfl
@[simp] theorem State.setGln_knl (s : State) (x : Gln) : (s.setGln x).knl = s.knl := rfl
@[simp] theorem State.setGln_engAcc (s : State) (x : Gln) : (s.setGln x).engAcc = s.engAcc := rfl
@[simp] theorem State.setGln_engQ (s : State) (x : Gln) : (s.setGln x).engQ = s.engQ := rfl
@[simp] theorem State.setGln_engDis (s : State) (x : Gln) : (s.setGln x).engDis = s.engDis := rfl
@[simp] theorem State.setGln_fns (s : State) (x : Gln) : (s.setGln x).fns = s.fns := rfl
@[simp] theorem State.setGln_shut (s : State) (x : Gln) : (s.setGln x).shut = s.shut := rfl
@[simp] theorem State.setGln_pke (s : State) (x : Gln) : (s.setGln x).pke = s.pke := rfl
@[simp] theorem State.setGln_grn (s : State) (x : Gln) : (s.setGln x).grn = s.grn := rfl
@[simp] theorem State.setGln_txRes (s : State) (x : Gln) : (s.setGln x).txRes = s.txRes := rfl
@[simp] theorem State.setGln_mmu (s : State) (x : Gln) : (s.setGln x).mmu = s.mmu := rfl
@[simp] theorem State.setGln_frp (s : State) (x : Gln) : (s.setGln x).frp = s.frp := rfl
@[simp] theorem State.setGln_gln (s : State) (x : Gln) : (s.setGln x).gln = x := rfl
@[simp] theorem State.setGln_tnd (s : State) (x : Gln) : (s.setGln x).tnd = s.tnd := rfl
@[simp] theorem State.setGln_bal (s : State) (x : Gln) : (s.setGln x).bal = s.bal := rfl
@[simp] theorem State.setGln_bgw (s : State) (x : Gln) : (s.setGln x).bgw = s.bgw := rfl
@[simp] theorem State.setGln_ipx (s : State) (x : Gln) : (s.setGln x).ipx = s.ipx := rfl
@[simp] theorem State.setGln_boot (s : State) (x : Gln) : (s.setGln x).boot = s.boot := rfl

/-! `State.setTnd` -/

@[simp] theorem State.setTnd_pending (s : State) (x : Tnd) : (s.setTnd x).pending = s.pending := rfl
@[simp] theorem State.setTnd_free (s : State) (x : Tnd) : (s.setTnd x).free = s.free := rfl
@[simp] theorem State.setTnd_mode (s : State) (x : Tnd) : (s.setTnd x).mode = s.mode := rfl
@[simp] theorem State.setTnd_pins (s : State) (x : Tnd) : (s.setTnd x).pins = s.pins := rfl
@[simp] theorem State.setTnd_nv (s : State) (x : Tnd) : (s.setTnd x).nv = s.nv := rfl
@[simp] theorem State.setTnd_regs (s : State) (x : Tnd) : (s.setTnd x).regs = s.regs := rfl
@[simp] theorem State.setTnd_busOut (s : State) (x : Tnd) : (s.setTnd x).busOut = s.busOut := rfl
@[simp] theorem State.setTnd_i2cAddr (s : State) (x : Tnd) : (s.setTnd x).i2cAddr = s.i2cAddr := rfl
@[simp] theorem State.setTnd_tmu (s : State) (x : Tnd) : (s.setTnd x).tmu = s.tmu := rfl
@[simp] theorem State.setTnd_swt (s : State) (x : Tnd) : (s.setTnd x).swt = s.swt := rfl
@[simp] theorem State.setTnd_ports (s : State) (x : Tnd) : (s.setTnd x).ports = s.ports := rfl
@[simp] theorem State.setTnd_mdio (s : State) (x : Tnd) : (s.setTnd x).mdio = s.mdio := rfl
@[simp] theorem State.setTnd_qcp (s : State) (x : Tnd) : (s.setTnd x).qcp = s.qcp := rfl
@[simp] theorem State.setTnd_tmpls (s : State) (x : Tnd) : (s.setTnd x).tmpls = s.tmpls := rfl
@[simp] theorem State.setTnd_sets (s : State) (x : Tnd) : (s.setTnd x).sets = s.sets := rfl
@[simp] theorem State.setTnd_cpts (s : State) (x : Tnd) : (s.setTnd x).cpts = s.cpts := rfl
@[simp] theorem State.setTnd_legs (s : State) (x : Tnd) : (s.setTnd x).legs = s.legs := rfl
@[simp] theorem State.setTnd_confs (s : State) (x : Tnd) : (s.setTnd x).confs = s.confs := rfl
@[simp] theorem State.setTnd_armed (s : State) (x : Tnd) : (s.setTnd x).armed = s.armed := rfl
@[simp] theorem State.setTnd_knl (s : State) (x : Tnd) : (s.setTnd x).knl = s.knl := rfl
@[simp] theorem State.setTnd_engAcc (s : State) (x : Tnd) : (s.setTnd x).engAcc = s.engAcc := rfl
@[simp] theorem State.setTnd_engQ (s : State) (x : Tnd) : (s.setTnd x).engQ = s.engQ := rfl
@[simp] theorem State.setTnd_engDis (s : State) (x : Tnd) : (s.setTnd x).engDis = s.engDis := rfl
@[simp] theorem State.setTnd_fns (s : State) (x : Tnd) : (s.setTnd x).fns = s.fns := rfl
@[simp] theorem State.setTnd_shut (s : State) (x : Tnd) : (s.setTnd x).shut = s.shut := rfl
@[simp] theorem State.setTnd_pke (s : State) (x : Tnd) : (s.setTnd x).pke = s.pke := rfl
@[simp] theorem State.setTnd_grn (s : State) (x : Tnd) : (s.setTnd x).grn = s.grn := rfl
@[simp] theorem State.setTnd_txRes (s : State) (x : Tnd) : (s.setTnd x).txRes = s.txRes := rfl
@[simp] theorem State.setTnd_mmu (s : State) (x : Tnd) : (s.setTnd x).mmu = s.mmu := rfl
@[simp] theorem State.setTnd_frp (s : State) (x : Tnd) : (s.setTnd x).frp = s.frp := rfl
@[simp] theorem State.setTnd_gln (s : State) (x : Tnd) : (s.setTnd x).gln = s.gln := rfl
@[simp] theorem State.setTnd_tnd (s : State) (x : Tnd) : (s.setTnd x).tnd = x := rfl
@[simp] theorem State.setTnd_bal (s : State) (x : Tnd) : (s.setTnd x).bal = s.bal := rfl
@[simp] theorem State.setTnd_bgw (s : State) (x : Tnd) : (s.setTnd x).bgw = s.bgw := rfl
@[simp] theorem State.setTnd_ipx (s : State) (x : Tnd) : (s.setTnd x).ipx = s.ipx := rfl
@[simp] theorem State.setTnd_boot (s : State) (x : Tnd) : (s.setTnd x).boot = s.boot := rfl

/-! `State.setPins` -/

@[simp] theorem State.setPins_pending (s : State) (x : Pins) : (s.setPins x).pending = s.pending := rfl
@[simp] theorem State.setPins_free (s : State) (x : Pins) : (s.setPins x).free = s.free := rfl
@[simp] theorem State.setPins_mode (s : State) (x : Pins) : (s.setPins x).mode = s.mode := rfl
@[simp] theorem State.setPins_pins (s : State) (x : Pins) : (s.setPins x).pins = x := rfl
@[simp] theorem State.setPins_nv (s : State) (x : Pins) : (s.setPins x).nv = s.nv := rfl
@[simp] theorem State.setPins_regs (s : State) (x : Pins) : (s.setPins x).regs = s.regs := rfl
@[simp] theorem State.setPins_busOut (s : State) (x : Pins) : (s.setPins x).busOut = s.busOut := rfl
@[simp] theorem State.setPins_i2cAddr (s : State) (x : Pins) : (s.setPins x).i2cAddr = s.i2cAddr := rfl
@[simp] theorem State.setPins_tmu (s : State) (x : Pins) : (s.setPins x).tmu = s.tmu := rfl
@[simp] theorem State.setPins_swt (s : State) (x : Pins) : (s.setPins x).swt = s.swt := rfl
@[simp] theorem State.setPins_ports (s : State) (x : Pins) : (s.setPins x).ports = s.ports := rfl
@[simp] theorem State.setPins_mdio (s : State) (x : Pins) : (s.setPins x).mdio = s.mdio := rfl
@[simp] theorem State.setPins_qcp (s : State) (x : Pins) : (s.setPins x).qcp = s.qcp := rfl
@[simp] theorem State.setPins_tmpls (s : State) (x : Pins) : (s.setPins x).tmpls = s.tmpls := rfl
@[simp] theorem State.setPins_sets (s : State) (x : Pins) : (s.setPins x).sets = s.sets := rfl
@[simp] theorem State.setPins_cpts (s : State) (x : Pins) : (s.setPins x).cpts = s.cpts := rfl
@[simp] theorem State.setPins_legs (s : State) (x : Pins) : (s.setPins x).legs = s.legs := rfl
@[simp] theorem State.setPins_confs (s : State) (x : Pins) : (s.setPins x).confs = s.confs := rfl
@[simp] theorem State.setPins_armed (s : State) (x : Pins) : (s.setPins x).armed = s.armed := rfl
@[simp] theorem State.setPins_knl (s : State) (x : Pins) : (s.setPins x).knl = s.knl := rfl
@[simp] theorem State.setPins_engAcc (s : State) (x : Pins) : (s.setPins x).engAcc = s.engAcc := rfl
@[simp] theorem State.setPins_engQ (s : State) (x : Pins) : (s.setPins x).engQ = s.engQ := rfl
@[simp] theorem State.setPins_engDis (s : State) (x : Pins) : (s.setPins x).engDis = s.engDis := rfl
@[simp] theorem State.setPins_fns (s : State) (x : Pins) : (s.setPins x).fns = s.fns := rfl
@[simp] theorem State.setPins_shut (s : State) (x : Pins) : (s.setPins x).shut = s.shut := rfl
@[simp] theorem State.setPins_pke (s : State) (x : Pins) : (s.setPins x).pke = s.pke := rfl
@[simp] theorem State.setPins_grn (s : State) (x : Pins) : (s.setPins x).grn = s.grn := rfl
@[simp] theorem State.setPins_txRes (s : State) (x : Pins) : (s.setPins x).txRes = s.txRes := rfl
@[simp] theorem State.setPins_mmu (s : State) (x : Pins) : (s.setPins x).mmu = s.mmu := rfl
@[simp] theorem State.setPins_frp (s : State) (x : Pins) : (s.setPins x).frp = s.frp := rfl
@[simp] theorem State.setPins_gln (s : State) (x : Pins) : (s.setPins x).gln = s.gln := rfl
@[simp] theorem State.setPins_tnd (s : State) (x : Pins) : (s.setPins x).tnd = s.tnd := rfl
@[simp] theorem State.setPins_bal (s : State) (x : Pins) : (s.setPins x).bal = s.bal := rfl
@[simp] theorem State.setPins_bgw (s : State) (x : Pins) : (s.setPins x).bgw = s.bgw := rfl
@[simp] theorem State.setPins_ipx (s : State) (x : Pins) : (s.setPins x).ipx = s.ipx := rfl
@[simp] theorem State.setPins_boot (s : State) (x : Pins) : (s.setPins x).boot = s.boot := rfl

/-! `State.setPending` -/

@[simp] theorem State.setPending_pending (s : State) (x : List Instr) : (s.setPending x).pending = x := rfl
@[simp] theorem State.setPending_free (s : State) (x : List Instr) : (s.setPending x).free = s.free := rfl
@[simp] theorem State.setPending_mode (s : State) (x : List Instr) : (s.setPending x).mode = s.mode := rfl
@[simp] theorem State.setPending_pins (s : State) (x : List Instr) : (s.setPending x).pins = s.pins := rfl
@[simp] theorem State.setPending_nv (s : State) (x : List Instr) : (s.setPending x).nv = s.nv := rfl
@[simp] theorem State.setPending_regs (s : State) (x : List Instr) : (s.setPending x).regs = s.regs := rfl
@[simp] theorem State.setPending_busOut (s : State) (x : List Instr) : (s.setPending x).busOut = s.busOut := rfl
@[simp] theorem State.setPending_i2cAddr (s : State) (x : List Instr) : (s.setPending x).i2cAddr = s.i2cAddr := rfl
@[simp] theorem State.setPending_tmu (s : State) (x : List Instr) : (s.setPending x).tmu = s.tmu := rfl
@[simp] theorem State.setPending_swt (s : State) (x : List Instr) : (s.setPending x).swt = s.swt := rfl
@[simp] theorem State.setPending_ports (s : State) (x : List Instr) : (s.setPending x).ports = s.ports := rfl
@[simp] theorem State.setPending_mdio (s : State) (x : List Instr) : (s.setPending x).mdio = s.mdio := rfl
@[simp] theorem State.setPending_qcp (s : State) (x : List Instr) : (s.setPending x).qcp = s.qcp := rfl
@[simp] theorem State.setPending_tmpls (s : State) (x : List Instr) : (s.setPending x).tmpls = s.tmpls := rfl
@[simp] theorem State.setPending_sets (s : State) (x : List Instr) : (s.setPending x).sets = s.sets := rfl
@[simp] theorem State.setPending_cpts (s : State) (x : List Instr) : (s.setPending x).cpts = s.cpts := rfl
@[simp] theorem State.setPending_legs (s : State) (x : List Instr) : (s.setPending x).legs = s.legs := rfl
@[simp] theorem State.setPending_confs (s : State) (x : List Instr) : (s.setPending x).confs = s.confs := rfl
@[simp] theorem State.setPending_armed (s : State) (x : List Instr) : (s.setPending x).armed = s.armed := rfl
@[simp] theorem State.setPending_knl (s : State) (x : List Instr) : (s.setPending x).knl = s.knl := rfl
@[simp] theorem State.setPending_engAcc (s : State) (x : List Instr) : (s.setPending x).engAcc = s.engAcc := rfl
@[simp] theorem State.setPending_engQ (s : State) (x : List Instr) : (s.setPending x).engQ = s.engQ := rfl
@[simp] theorem State.setPending_engDis (s : State) (x : List Instr) : (s.setPending x).engDis = s.engDis := rfl
@[simp] theorem State.setPending_fns (s : State) (x : List Instr) : (s.setPending x).fns = s.fns := rfl
@[simp] theorem State.setPending_shut (s : State) (x : List Instr) : (s.setPending x).shut = s.shut := rfl
@[simp] theorem State.setPending_pke (s : State) (x : List Instr) : (s.setPending x).pke = s.pke := rfl
@[simp] theorem State.setPending_grn (s : State) (x : List Instr) : (s.setPending x).grn = s.grn := rfl
@[simp] theorem State.setPending_txRes (s : State) (x : List Instr) : (s.setPending x).txRes = s.txRes := rfl
@[simp] theorem State.setPending_mmu (s : State) (x : List Instr) : (s.setPending x).mmu = s.mmu := rfl
@[simp] theorem State.setPending_frp (s : State) (x : List Instr) : (s.setPending x).frp = s.frp := rfl
@[simp] theorem State.setPending_gln (s : State) (x : List Instr) : (s.setPending x).gln = s.gln := rfl
@[simp] theorem State.setPending_tnd (s : State) (x : List Instr) : (s.setPending x).tnd = s.tnd := rfl
@[simp] theorem State.setPending_bal (s : State) (x : List Instr) : (s.setPending x).bal = s.bal := rfl
@[simp] theorem State.setPending_bgw (s : State) (x : List Instr) : (s.setPending x).bgw = s.bgw := rfl
@[simp] theorem State.setPending_ipx (s : State) (x : List Instr) : (s.setPending x).ipx = s.ipx := rfl
@[simp] theorem State.setPending_boot (s : State) (x : List Instr) : (s.setPending x).boot = s.boot := rfl

/-! `State.setReg` -/

@[simp] theorem State.setReg_pending (s : State) (a v : Nat) : (s.setReg a v).pending = s.pending := rfl
@[simp] theorem State.setReg_free (s : State) (a v : Nat) : (s.setReg a v).free = s.free := rfl
@[simp] theorem State.setReg_mode (s : State) (a v : Nat) : (s.setReg a v).mode = s.mode := rfl
@[simp] theorem State.setReg_pins (s : State) (a v : Nat) : (s.setReg a v).pins = s.pins := rfl
@[simp] theorem State.setReg_nv (s : State) (a v : Nat) : (s.setReg a v).nv = s.nv := rfl
@[simp] theorem State.setReg_regs (s : State) (a v : Nat) : (s.setReg a v).regs = kset s.regs a (BitVec.ofNat 32 v) := rfl
@[simp] theorem State.setReg_busOut (s : State) (a v : Nat) : (s.setReg a v).busOut = s.busOut := rfl
@[simp] theorem State.setReg_i2cAddr (s : State) (a v : Nat) : (s.setReg a v).i2cAddr = s.i2cAddr := rfl
@[simp] theorem State.setReg_tmu (s : State) (a v : Nat) : (s.setReg a v).tmu = s.tmu := rfl
@[simp] theorem State.setReg_swt (s : State) (a v : Nat) : (s.setReg a v).swt = s.swt := rfl
@[simp] theorem State.setReg_ports (s : State) (a v : Nat) : (s.setReg a v).ports = s.ports := rfl
@[simp] theorem State.setReg_mdio (s : State) (a v : Nat) : (s.setReg a v).mdio = s.mdio := rfl
@[simp] theorem State.setReg_qcp (s : State) (a v : Nat) : (s.setReg a v).qcp = s.qcp := rfl
@[simp] theorem State.setReg_tmpls (s : State) (a v : Nat) : (s.setReg a v).tmpls = s.tmpls := rfl
@[simp] theorem State.setReg_sets (s : State) (a v : Nat) : (s.setReg a v).sets = s.sets := rfl
@[simp] theorem State.setReg_cpts (s : State) (a v : Nat) : (s.setReg a v).cpts = s.cpts := rfl
@[simp] theorem State.setReg_legs (s : State) (a v : Nat) : (s.setReg a v).legs = s.legs := rfl
@[simp] theorem State.setReg_confs (s : State) (a v : Nat) : (s.setReg a v).confs = s.confs := rfl
@[simp] theorem State.setReg_armed (s : State) (a v : Nat) : (s.setReg a v).armed = s.armed := rfl
@[simp] theorem State.setReg_knl (s : State) (a v : Nat) : (s.setReg a v).knl = s.knl := rfl
@[simp] theorem State.setReg_engAcc (s : State) (a v : Nat) : (s.setReg a v).engAcc = s.engAcc := rfl
@[simp] theorem State.setReg_engQ (s : State) (a v : Nat) : (s.setReg a v).engQ = s.engQ := rfl
@[simp] theorem State.setReg_engDis (s : State) (a v : Nat) : (s.setReg a v).engDis = s.engDis := rfl
@[simp] theorem State.setReg_fns (s : State) (a v : Nat) : (s.setReg a v).fns = s.fns := rfl
@[simp] theorem State.setReg_shut (s : State) (a v : Nat) : (s.setReg a v).shut = s.shut := rfl
@[simp] theorem State.setReg_pke (s : State) (a v : Nat) : (s.setReg a v).pke = s.pke := rfl
@[simp] theorem State.setReg_grn (s : State) (a v : Nat) : (s.setReg a v).grn = s.grn := rfl
@[simp] theorem State.setReg_txRes (s : State) (a v : Nat) : (s.setReg a v).txRes = s.txRes := rfl
@[simp] theorem State.setReg_mmu (s : State) (a v : Nat) : (s.setReg a v).mmu = s.mmu := rfl
@[simp] theorem State.setReg_frp (s : State) (a v : Nat) : (s.setReg a v).frp = s.frp := rfl
@[simp] theorem State.setReg_gln (s : State) (a v : Nat) : (s.setReg a v).gln = s.gln := rfl
@[simp] theorem State.setReg_tnd (s : State) (a v : Nat) : (s.setReg a v).tnd = s.tnd := rfl
@[simp] theorem State.setReg_bal (s : State) (a v : Nat) : (s.setReg a v).bal = s.bal := rfl
@[simp] theorem State.setReg_bgw (s : State) (a v : Nat) : (s.setReg a v).bgw = s.bgw := rfl
@[simp] theorem State.setReg_ipx (s : State) (a v : Nat) : (s.setReg a v).ipx = s.ipx := rfl
@[simp] theorem State.setReg_boot (s : State) (a v : Nat) : (s.setReg a v).boot = s.boot := rfl

/-! `State.setFld` -/

@[simp] theorem State.setFld_pending (s : State) (f : Fld) (v : Nat) : (s.setFld f v).pending = s.pending := rfl
@[simp] theorem State.setFld_free (s : State) (f : Fld) (v : Nat) : (s.setFld f v).free = s.free := rfl
@[simp] theorem State.setFld_mode (s : State) (f : Fld) (v : Nat) : (s.setFld f v).mode = s.mode := rfl
@[simp] theorem State.setFld_pins (s : State) (f : Fld) (v : Nat) : (s.setFld f v).pins = s.pins := rfl
@[simp] theorem State.setFld_nv (s : State) (f : Fld) (v : Nat) : (s.setFld f v).nv = s.nv := rfl
@[simp] theorem State.setFld_regs (s : State) (f : Fld) (v : Nat) : (s.setFld f v).regs = kset s.regs f.addr (BitVec.ofNat 32 (putBits (s.reg f.addr) f.hi f.lo v)) := rfl
@[simp] theorem State.setFld_busOut (s : State) (f : Fld) (v : Nat) : (s.setFld f v).busOut = s.busOut := rfl
@[simp] theorem State.setFld_i2cAddr (s : State) (f : Fld) (v : Nat) : (s.setFld f v).i2cAddr = s.i2cAddr := rfl
@[simp] theorem State.setFld_tmu (s : State) (f : Fld) (v : Nat) : (s.setFld f v).tmu = s.tmu := rfl
@[simp] theorem State.setFld_swt (s : State) (f : Fld) (v : Nat) : (s.setFld f v).swt = s.swt := rfl
@[simp] theorem State.setFld_ports (s : State) (f : Fld) (v : Nat) : (s.setFld f v).ports = s.ports := rfl
@[simp] theorem State.setFld_mdio (s : State) (f : Fld) (v : Nat) : (s.setFld f v).mdio = s.mdio := rfl
@[simp] theorem State.setFld_qcp (s : State) (f : Fld) (v : Nat) : (s.setFld f v).qcp = s.qcp := rfl
@[simp] theorem State.setFld_tmpls (s : State) (f : Fld) (v : Nat) : (s.setFld f v).tmpls = s.tmpls := rfl
@[simp] theorem State.setFld_sets (s : State) (f : Fld) (v : Nat) : (s.setFld f v).sets = s.sets := rfl
@[simp] theorem State.setFld_cpts (s : State) (f : Fld) (v : Nat) : (s.setFld f v).cpts = s.cpts := rfl
@[simp] theorem State.setFld_legs (s : State) (f : Fld) (v : Nat) : (s.setFld f v).legs = s.legs := rfl
@[simp] theorem State.setFld_confs (s : State) (f : Fld) (v : Nat) : (s.setFld f v).confs = s.confs := rfl
@[simp] theorem State.setFld_armed (s : State) (f : Fld) (v : Nat) : (s.setFld f v).armed = s.armed := rfl
@[simp] theorem State.setFld_knl (s : State) (f : Fld) (v : Nat) : (s.setFld f v).knl = s.knl := rfl
@[simp] theorem State.setFld_engAcc (s : State) (f : Fld) (v : Nat) : (s.setFld f v).engAcc = s.engAcc := rfl
@[simp] theorem State.setFld_engQ (s : State) (f : Fld) (v : Nat) : (s.setFld f v).engQ = s.engQ := rfl
@[simp] theorem State.setFld_engDis (s : State) (f : Fld) (v : Nat) : (s.setFld f v).engDis = s.engDis := rfl
@[simp] theorem State.setFld_fns (s : State) (f : Fld) (v : Nat) : (s.setFld f v).fns = s.fns := rfl
@[simp] theorem State.setFld_shut (s : State) (f : Fld) (v : Nat) : (s.setFld f v).shut = s.shut := rfl
@[simp] theorem State.setFld_pke (s : State) (f : Fld) (v : Nat) : (s.setFld f v).pke = s.pke := rfl
@[simp] theorem State.setFld_grn (s : State) (f : Fld) (v : Nat) : (s.setFld f v).grn = s.grn := rfl
@[simp] theorem State.setFld_txRes (s : State) (f : Fld) (v : Nat) : (s.setFld f v).txRes = s.txRes := rfl
@[simp] theorem State.setFld_mmu (s : State) (f : Fld) (v : Nat) : (s.setFld f v).mmu = s.mmu := rfl
@[simp] theorem State.setFld_frp (s : State) (f : Fld) (v : Nat) : (s.setFld f v).frp = s.frp := rfl
@[simp] theorem State.setFld_gln (s : State) (f : Fld) (v : Nat) : (s.setFld f v).gln = s.gln := rfl
@[simp] theorem State.setFld_tnd (s : State) (f : Fld) (v : Nat) : (s.setFld f v).tnd = s.tnd := rfl
@[simp] theorem State.setFld_bal (s : State) (f : Fld) (v : Nat) : (s.setFld f v).bal = s.bal := rfl
@[simp] theorem State.setFld_bgw (s : State) (f : Fld) (v : Nat) : (s.setFld f v).bgw = s.bgw := rfl
@[simp] theorem State.setFld_ipx (s : State) (f : Fld) (v : Nat) : (s.setFld f v).ipx = s.ipx := rfl
@[simp] theorem State.setFld_boot (s : State) (f : Fld) (v : Nat) : (s.setFld f v).boot = s.boot := rfl

/-! `State.setPort` -/

@[simp] theorem State.setPort_pending (s : State) (p : Nat) (x : Port) : (s.setPort p x).pending = s.pending := rfl
@[simp] theorem State.setPort_free (s : State) (p : Nat) (x : Port) : (s.setPort p x).free = s.free := rfl
@[simp] theorem State.setPort_mode (s : State) (p : Nat) (x : Port) : (s.setPort p x).mode = s.mode := rfl
@[simp] theorem State.setPort_pins (s : State) (p : Nat) (x : Port) : (s.setPort p x).pins = s.pins := rfl
@[simp] theorem State.setPort_nv (s : State) (p : Nat) (x : Port) : (s.setPort p x).nv = s.nv := rfl
@[simp] theorem State.setPort_regs (s : State) (p : Nat) (x : Port) : (s.setPort p x).regs = s.regs := rfl
@[simp] theorem State.setPort_busOut (s : State) (p : Nat) (x : Port) : (s.setPort p x).busOut = s.busOut := rfl
@[simp] theorem State.setPort_i2cAddr (s : State) (p : Nat) (x : Port) : (s.setPort p x).i2cAddr = s.i2cAddr := rfl
@[simp] theorem State.setPort_tmu (s : State) (p : Nat) (x : Port) : (s.setPort p x).tmu = s.tmu := rfl
@[simp] theorem State.setPort_swt (s : State) (p : Nat) (x : Port) : (s.setPort p x).swt = s.swt := rfl
@[simp] theorem State.setPort_ports (s : State) (p : Nat) (x : Port) : (s.setPort p x).ports = kset s.ports p x := rfl
@[simp] theorem State.setPort_mdio (s : State) (p : Nat) (x : Port) : (s.setPort p x).mdio = s.mdio := rfl
@[simp] theorem State.setPort_qcp (s : State) (p : Nat) (x : Port) : (s.setPort p x).qcp = s.qcp := rfl
@[simp] theorem State.setPort_tmpls (s : State) (p : Nat) (x : Port) : (s.setPort p x).tmpls = s.tmpls := rfl
@[simp] theorem State.setPort_sets (s : State) (p : Nat) (x : Port) : (s.setPort p x).sets = s.sets := rfl
@[simp] theorem State.setPort_cpts (s : State) (p : Nat) (x : Port) : (s.setPort p x).cpts = s.cpts := rfl
@[simp] theorem State.setPort_legs (s : State) (p : Nat) (x : Port) : (s.setPort p x).legs = s.legs := rfl
@[simp] theorem State.setPort_confs (s : State) (p : Nat) (x : Port) : (s.setPort p x).confs = s.confs := rfl
@[simp] theorem State.setPort_armed (s : State) (p : Nat) (x : Port) : (s.setPort p x).armed = s.armed := rfl
@[simp] theorem State.setPort_knl (s : State) (p : Nat) (x : Port) : (s.setPort p x).knl = s.knl := rfl
@[simp] theorem State.setPort_engAcc (s : State) (p : Nat) (x : Port) : (s.setPort p x).engAcc = s.engAcc := rfl
@[simp] theorem State.setPort_engQ (s : State) (p : Nat) (x : Port) : (s.setPort p x).engQ = s.engQ := rfl
@[simp] theorem State.setPort_engDis (s : State) (p : Nat) (x : Port) : (s.setPort p x).engDis = s.engDis := rfl
@[simp] theorem State.setPort_fns (s : State) (p : Nat) (x : Port) : (s.setPort p x).fns = s.fns := rfl
@[simp] theorem State.setPort_shut (s : State) (p : Nat) (x : Port) : (s.setPort p x).shut = s.shut := rfl
@[simp] theorem State.setPort_pke (s : State) (p : Nat) (x : Port) : (s.setPort p x).pke = s.pke := rfl
@[simp] theorem State.setPort_grn (s : State) (p : Nat) (x : Port) : (s.setPort p x).grn = s.grn := rfl
@[simp] theorem State.setPort_txRes (s : State) (p : Nat) (x : Port) : (s.setPort p x).txRes = s.txRes := rfl
@[simp] theorem State.setPort_mmu (s : State) (p : Nat) (x : Port) : (s.setPort p x).mmu = s.mmu := rfl
@[simp] theorem State.setPort_frp (s : State) (p : Nat) (x : Port) : (s.setPort p x).frp = s.frp := rfl
@[simp] theorem State.setPort_gln (s : State) (p : Nat) (x : Port) : (s.setPort p x).gln = s.gln := rfl
@[simp] theorem State.setPort_tnd (s : State) (p : Nat) (x : Port) : (s.setPort p x).tnd = s.tnd := rfl
@[simp] theorem State.setPort_bal (s : State) (p : Nat) (x : Port) : (s.setPort p x).bal = s.bal := rfl
@[simp] theorem State.setPort_bgw (s : State) (p : Nat) (x : Port) : (s.setPort p x).bgw = s.bgw := rfl
@[simp] theorem State.setPort_ipx (s : State) (p : Nat) (x : Port) : (s.setPort p x).ipx = s.ipx := rfl
@[simp] theorem State.setPort_boot (s : State) (p : Nat) (x : Port) : (s.setPort p x).boot = s.boot := rfl

/-! `State.setLeg` -/

@[simp] theorem State.setLeg_pending (s : State) (l : Nat) (x : Leg) : (s.setLeg l x).pending = s.pending := rfl
@[simp] theorem State.setLeg_free (s : State) (l : Nat) (x : Leg) : (s.setLeg l x).free = s.free := rfl
@[simp] theorem State.setLeg_mode (s : State) (l : Nat) (x : Leg) : (s.setLeg l x).mode = s.mode := rfl
@[simp] theorem State.setLeg_pins (s : State) (l : Nat) (x : Leg) : (s.setLeg l x).pins = s.pins := rfl
@[simp] theorem State.setLeg_nv (s : State) (l : Nat) (x : Leg) : (s.setLeg l x).nv = s.nv := rfl
@[simp] theorem State.setLeg_regs (s : State) (l : Nat) (x : Leg) : (s.setLeg l x).regs = s.regs := rfl
@[simp] theorem State.setLeg_busOut (s : State) (l : Nat) (x : Leg) : (s.setLeg l x).busOut = s.busOut := rfl
@[simp] theorem State.setLeg_i2cAddr (s : State) (l : Nat) (x : Leg) : (s.setLeg l x).i2cAddr = s.i2cAddr := rfl
@[simp] theorem State.setLeg_tmu (s : State) (l : Nat) (x : Leg) : (s.setLeg l x).tmu = s.tmu := rfl
@[simp] theorem State.setLeg_swt (s : State) (l : Nat) (x : Leg) : (s.setLeg l x).swt = s.swt := rfl
@[simp] theorem State.setLeg_ports (s : State) (l : Nat) (x : Leg) : (s.setLeg l x).ports = s.ports := rfl
@[simp] theorem State.setLeg_mdio (s : State) (l : Nat) (x : Leg) : (s.setLeg l x).mdio = s.mdio := rfl
@[simp] theorem State.setLeg_qcp (s : State) (l : Nat) (x : Leg) : (s.setLeg l x).qcp = s.qcp := rfl
@[simp] theorem State.setLeg_tmpls (s : State) (l : Nat) (x : Leg) : (s.setLeg l x).tmpls = s.tmpls := rfl
@[simp] theorem State.setLeg_sets (s : State) (l : Nat) (x : Leg) : (s.setLeg l x).sets = s.sets := rfl
@[simp] theorem State.setLeg_cpts (s : State) (l : Nat) (x : Leg) : (s.setLeg l x).cpts = s.cpts := rfl
@[simp] theorem State.setLeg_legs (s : State) (l : Nat) (x : Leg) : (s.setLeg l x).legs = kset s.legs l x := rfl
@[simp] theorem State.setLeg_confs (s : State) (l : Nat) (x : Leg) : (s.setLeg l x).confs = s.confs := rfl
@[simp] theorem State.setLeg_armed (s : State) (l : Nat) (x : Leg) : (s.setLeg l x).armed = s.armed := rfl
@[simp] theorem State.setLeg_knl (s : State) (l : Nat) (x : Leg) : (s.setLeg l x).knl = s.knl := rfl
@[simp] theorem State.setLeg_engAcc (s : State) (l : Nat) (x : Leg) : (s.setLeg l x).engAcc = s.engAcc := rfl
@[simp] theorem State.setLeg_engQ (s : State) (l : Nat) (x : Leg) : (s.setLeg l x).engQ = s.engQ := rfl
@[simp] theorem State.setLeg_engDis (s : State) (l : Nat) (x : Leg) : (s.setLeg l x).engDis = s.engDis := rfl
@[simp] theorem State.setLeg_fns (s : State) (l : Nat) (x : Leg) : (s.setLeg l x).fns = s.fns := rfl
@[simp] theorem State.setLeg_shut (s : State) (l : Nat) (x : Leg) : (s.setLeg l x).shut = s.shut := rfl
@[simp] theorem State.setLeg_pke (s : State) (l : Nat) (x : Leg) : (s.setLeg l x).pke = s.pke := rfl
@[simp] theorem State.setLeg_grn (s : State) (l : Nat) (x : Leg) : (s.setLeg l x).grn = s.grn := rfl
@[simp] theorem State.setLeg_txRes (s : State) (l : Nat) (x : Leg) : (s.setLeg l x).txRes = s.txRes := rfl
@[simp] theorem State.setLeg_mmu (s : State) (l : Nat) (x : Leg) : (s.setLeg l x).mmu = s.mmu := rfl
@[simp] theorem State.setLeg_frp (s : State) (l : Nat) (x : Leg) : (s.setLeg l x).frp = s.frp := rfl
@[simp] theorem State.setLeg_gln (s : State) (l : Nat) (x : Leg) : (s.setLeg l x).gln = s.gln := rfl
@[simp] theorem State.setLeg_tnd (s : State) (l : Nat) (x : Leg) : (s.setLeg l x).tnd = s.tnd := rfl
@[simp] theorem State.setLeg_bal (s : State) (l : Nat) (x : Leg) : (s.setLeg l x).bal = s.bal := rfl
@[simp] theorem State.setLeg_bgw (s : State) (l : Nat) (x : Leg) : (s.setLeg l x).bgw = s.bgw := rfl
@[simp] theorem State.setLeg_ipx (s : State) (l : Nat) (x : Leg) : (s.setLeg l x).ipx = s.ipx := rfl
@[simp] theorem State.setLeg_boot (s : State) (l : Nat) (x : Leg) : (s.setLeg l x).boot = s.boot := rfl

/-! `State.setSess` -/

@[simp] theorem State.setSess_pending (s : State) (m : Nat) (x : Session) : (s.setSess m x).pending = s.pending := rfl
@[simp] theorem State.setSess_free (s : State) (m : Nat) (x : Session) : (s.setSess m x).free = s.free := rfl
@[simp] theorem State.setSess_mode (s : State) (m : Nat) (x : Session) : (s.setSess m x).mode = s.mode := rfl
@[simp] theorem State.setSess_pins (s : State) (m : Nat) (x : Session) : (s.setSess m x).pins = s.pins := rfl
@[simp] theorem State.setSess_nv (s : State) (m : Nat) (x : Session) : (s.setSess m x).nv = s.nv := rfl
@[simp] theorem State.setSess_regs (s : State) (m : Nat) (x : Session) : (s.setSess m x).regs = s.regs := rfl
@[simp] theorem State.setSess_busOut (s : State) (m : Nat) (x : Session) : (s.setSess m x).busOut = s.busOut := rfl
@[simp] theorem State.setSess_i2cAddr (s : State) (m : Nat) (x : Session) : (s.setSess m x).i2cAddr = s.i2cAddr := rfl
@[simp] theorem State.setSess_tmu (s : State) (m : Nat) (x : Session) : (s.setSess m x).tmu = s.tmu := rfl
@[simp] theorem State.setSess_swt (s : State) (m : Nat) (x : Session) : (s.setSess m x).swt = s.swt := rfl
@[simp] theorem State.setSess_ports (s : State) (m : Nat) (x : Session) : (s.setSess m x).ports = s.ports := rfl
@[simp] theorem State.setSess_mdio (s : State) (m : Nat) (x : Session) : (s.setSess m x).mdio = s.mdio := rfl
@[simp] theorem State.setSess_qcp (s : State) (m : Nat) (x : Session) : (s.setSess m x).qcp = { s.qcp with sess := kset s.qcp.sess m x } := rfl
@[simp] theorem State.setSess_tmpls (s : State) (m : Nat) (x : Session) : (s.setSess m x).tmpls = s.tmpls := rfl
@[simp] theorem State.setSess_sets (s : State) (m : Nat) (x : Session) : (s.setSess m x).sets = s.sets := rfl
@[simp] theorem State.setSess_cpts (s : State) (m : Nat) (x : Session) : (s.setSess m x).cpts = s.cpts := rfl
@[simp] theorem State.setSess_legs (s : State) (m : Nat) (x : Session) : (s.setSess m x).legs = s.legs := rfl
@[simp] theorem State.setSess_confs (s : State) (m : Nat) (x : Session) : (s.setSess m x).confs = s.confs := rfl
@[simp] theorem State.setSess_armed (s : State) (m : Nat) (x : Session) : (s.setSess m x).armed = s.armed := rfl
@[simp] theorem State.setSess_knl (s : State) (m : Nat) (x : Session) : (s.setSess m x).knl = s.knl := rfl
@[simp] theorem State.setSess_engAcc (s : State) (m : Nat) (x : Session) : (s.setSess m x).engAcc = s.engAcc := rfl
@[simp] theorem State.setSess_engQ (s : State) (m : Nat) (x : Session) : (s.setSess m x).engQ = s.engQ := rfl
@[simp] theorem State.setSess_engDis (s : State) (m : Nat) (x : Session) : (s.setSess m x).engDis = s.engDis := rfl
@[simp] theorem State.setSess_fns (s : State) (m : Nat) (x : Session) : (s.setSess m x).fns = s.fns := rfl
@[simp] theorem State.setSess_shut (s : State) (m : Nat) (x : Session) : (s.setSess m x).shut = s.shut := rfl
@[simp] theorem State.setSess_pke (s : State) (m : Nat) (x : Session) : (s.setSess m x).pke = s.pke := rfl
@[simp] theorem State.setSess_grn (s : State) (m : Nat) (x : Session) : (s.setSess m x).grn = s.grn := rfl
@[simp] theorem State.setSess_txRes (s : State) (m : Nat) (x : Session) : (s.setSess m x).txRes = s.txRes := rfl
@[simp] theorem State.setSess_mmu (s : State) (m : Nat) (x : Session) : (s.setSess m x).mmu = s.mmu := rfl
@[simp] theorem State.setSess_frp (s : State) (m : Nat) (x : Session) : (s.setSess m x).frp = s.frp := rfl
@[simp] theorem State.setSess_gln (s : State) (m : Nat) (x : Session) : (s.setSess m x).gln = s.gln := rfl
@[simp] theorem State.setSess_tnd (s : State) (m : Nat) (x : Session) : (s.setSess m x).tnd = s.tnd := rfl
@[simp] theorem State.setSess_bal (s : State) (m : Nat) (x : Session) : (s.setSess m x).bal = s.bal := rfl
@[simp] theorem State.setSess_bgw (s : State) (m : Nat) (x : Session) : (s.setSess m x).bgw = s.bgw := rfl
@[simp] theorem State.setSess_ipx (s : State) (m : Nat) (x : Session) : (s.setSess m x).ipx = s.ipx := rfl
@[simp] theorem State.setSess_boot (s : State) (m : Nat) (x : Session) : (s.setSess m x).boot = s.boot := rfl

/-! `State.drawn` -/

@[simp] theorem State.drawn_pending (s : State) : (s.drawn).pending = s.pending := rfl
@[simp] theorem State.drawn_free (s : State) : (s.drawn).free = s.free + 1 := rfl
@[simp] theorem State.drawn_mode (s : State) : (s.drawn).mode = s.mode := rfl
@[simp] theorem State.drawn_pins (s : State) : (s.drawn).pins = s.pins := rfl
@[simp] theorem State.drawn_nv (s : State) : (s.drawn).nv = s.nv := rfl
@[simp] theorem State.drawn_regs (s : State) : (s.drawn).regs = s.regs := rfl
@[simp] theorem State.drawn_busOut (s : State) : (s.drawn).busOut = s.busOut := rfl
@[simp] theorem State.drawn_i2cAddr (s : State) : (s.drawn).i2cAddr = s.i2cAddr := rfl
@[simp] theorem State.drawn_tmu (s : State) : (s.drawn).tmu = s.tmu := rfl
@[simp] theorem State.drawn_swt (s : State) : (s.drawn).swt = s.swt := rfl
@[simp] theorem State.drawn_ports (s : State) : (s.drawn).ports = s.ports := rfl
@[simp] theorem State.drawn_mdio (s : State) : (s.drawn).mdio = s.mdio := rfl
@[simp] theorem State.drawn_qcp (s : State) : (s.drawn).qcp = s.qcp := rfl
@[simp] theorem State.drawn_tmpls (s : State) : (s.drawn).tmpls = s.tmpls := rfl
@[simp] theorem State.drawn_sets (s : State) : (s.drawn).sets = s.sets := rfl
@[simp] theorem State.drawn_cpts (s : State) : (s.drawn).cpts = s.cpts := rfl
@[simp] theorem State.drawn_legs (s : State) : (s.drawn).legs = s.legs := rfl
@[simp] theorem State.drawn_confs (s : State) : (s.drawn).confs = s.confs := rfl
@[simp] theorem State.drawn_armed (s : State) : (s.drawn).armed = s.armed := rfl
@[simp] theorem State.drawn_knl (s : State) : (s.drawn).knl = s.knl := rfl
@[simp] theorem State.drawn_engAcc (s : State) : (s.drawn).engAcc = s.engAcc := rfl
@[simp] theorem State.drawn_engQ (s : State) : (s.drawn).engQ = s.engQ := rfl
@[simp] theorem State.drawn_engDis (s : State) : (s.drawn).engDis = s.engDis := rfl
@[simp] theorem State.drawn_fns (s : State) : (s.drawn).fns = s.fns := rfl
@[simp] theorem State.drawn_shut (s : State) : (s.drawn).shut = s.shut := rfl
@[simp] theorem State.drawn_pke (s : State) : (s.drawn).pke = s.pke := rfl
@[simp] theorem State.drawn_grn (s : State) : (s.drawn).grn = s.grn := rfl
@[simp] theorem State.drawn_txRes (s : State) : (s.drawn).txRes = s.txRes := rfl
@[simp] theorem State.drawn_mmu (s : State) : (s.drawn).mmu = s.mmu := rfl
@[simp] theorem State.drawn_frp (s : State) : (s.drawn).frp = s.frp := rfl
@[simp] theorem State.drawn_gln (s : State) : (s.drawn).gln = s.gln := rfl
@[simp] theorem State.drawn_tnd (s : State) : (s.drawn).tnd = s.tnd := rfl
@[simp] theorem State.drawn_bal (s : State) : (s.drawn).bal = s.bal := rfl
@[simp] theorem State.drawn_bgw (s : State) : (s.drawn).bgw = s.bgw := rfl
@[simp] theorem State.drawn_ipx (s : State) : (s.drawn).ipx = s.ipx := rfl
@[simp] theorem State.drawn_boot (s : State) : (s.drawn).boot = s.boot := rfl

end Sys2Proof.Machine
end

