-- ==== Sys2Proof/WellFormed.lean ====
section
/-! DEFINITION. When a command is one that the spec describes: the bounds that the types of its operands do not hold. -/

namespace Sys2Proof

/-- A payload fits the 16-bit length field of a QCP frame (R148). -/
def Req.wf (q : Req) : Bool := decide (q.payload.length < 65536)

/-- A SESSION_OPEN carries at most two VLAN tags (R157). -/
def OpenSrc.wf (o : OpenSrc) : Bool :=
  match o with
  | .open0 r => decide (r.payload.length < 65536) && decide (r.tags.length ≤ 2)
  | .inSession q => q.wf

/-- Units of a class of the gleaner (R503): cores, FCE, ECE, DMA engines, baler engines, loft banks, local memories. -/
def unitCount (cls : Nat) : Nat := (([128, 16, 32, 32, 4, 64, 128] : List Nat)[cls]?).getD 0

/-- A slice ends on a unit that exists (R503). -/
def SliceResult.wf (r : SliceResult) : Bool :=
  match r with
  | .logic cls idx _ _ => decide (idx.val < unitCount cls.val)
  | .memory isLocal idx _ => isLocal || decide (idx.val < 64)
  | .fault cls idx => decide (idx.val < unitCount cls.val)

/-- The units that the full test of a shutdown names exist (R503, R522). -/
def ShutTest.wf (t : ShutTest) : Bool := t.fails.all fun p => decide (p.2.val < unitCount p.1.val)

/-- What a start meets: attempts at steps 1 to 14, a duration for each step, units that exist, rings 2 to 7 of the DMA engines, the four job
rings (R386, R487, R552). -/
def StartEnv.wf (e : StartEnv) : Bool :=
  (e.tries.all fun t => decide (1 ≤ t.step.val)) && e.us.length == 14 && e.test.wf && (e.good.all fun p => decide (p.2.val < unitCount p.1.val)) &&
    (e.rings.all fun r => decide (r.ring < 256) && decide (2 ≤ r.ring % 8)) && e.jobs.all fun r => decide (r.ring < 4)

/-- Whether a command is well formed. -/
def Instr.wf (i : Instr) : Bool :=
  match i with
  | .pwrgoodRise _ => true
  | .pwrgoodFall => true
  | .resetNAssert => true
  | .resetNRelease _ => true
  | .testEnAssert => true
  | .startSequence env => env.wf
  | .startStepTimeout _ env => env.wf
  | .kathirelWatchdog => true
  | .tmuTick => true
  | .stepApply => true
  | .tmuCtlSet _ => true
  | .tmuCtlStep _ => true
  | .tmuOfsPush _ _ _ => true
  | .servoSample => true
  | .servoHoldoverTimeout => true
  | .servoFail => true
  | .tmuSrvEnWrite _ _ => true
  | .tmuAddendWrite _ _ _ => true
  | .tmuRefSelWrite _ _ => true
  | .ref10mAcquire => true
  | .ref10mLoss => true
  | .tmuTimeSecHiRead _ => true
  | .tinEdgeCapture _ _ => true
  | .tmuTinPop _ _ => true
  | .tmuToutArm _ _ => true
  | .tmuToutDisarm _ _ => true
  | .toutPulse _ => true
  | .swathBoundary => true
  | .gatherEnd => true
  | .workStart => true
  | .workDeadline => true
  | .guardStart => true
  | .timedActionExec _ => true
  | .portStartDone _ _ => true
  | .portCalFail _ => true
  | .lanePllLoss _ => true
  | .linkUp _ => true
  | .linkDown _ => true
  | .portStopDone _ => true
  | .rgmiiInbandStatus _ _ _ => true
  | .macRxFrame w => !w.oddNibble || w.port == 7
  | .pauseQuantaExpiry _ _ => true
  | .pfcRefresh _ => true
  | .macTxSelect _ => true
  | .s0Collision _ => true
  | .s0BackoffExpiry => true
  | .macMdioGo _ _ => true
  | .mdioFrameDone _ => true
  | .macCfgEnWrite _ _ _ => true
  | .macCtlAnRestart _ _ => true
  | .macCtlPeakClr _ _ => true
  | .macCntLoRead _ _ _ => true
  | .pkeFrameTake _ _ => true
  | .slowPathFrame => true
  | .ptpFrameRx _ => true
  | .txQueueEntry _ _ => true
  | .qcpFrameRx _ => true
  | .muzzleFrame => true
  | .gateRelease _ => true
  | .muzzleStateRecord => true
  | .openRateSecond => true
  | .sessionProveTimeout _ => true
  | .leaseExpiry _ => true
  | .bulkFrame _ => true
  | .replySend _ => true
  | .eventSend _ => true
  | .journalCommit => true
  | .qcpDbRpl _ => true
  | .qcpMzCtrHiRead _ _ => true
  | .sessionOpen o => o.wf
  | .sessionProve q => q.wf
  | .sessionKeepalive q => q.wf
  | .sessionClose q => q.wf
  | .sessionSubscribe q => q.wf
  | .sessionKeySet q => q.wf
  | .sessionKeyClear q => q.wf
  | .unmuzzle q => q.wf
  | .muzzleKeySet q => q.wf
  | .sessionList q => q.wf
  | .muzzleStatus q => q.wf
  | .regWrite q => q.wf
  | .regRead q => q.wf
  | .chanEnable q => q.wf
  | .chanDisable q => q.wf
  | .chanGraph q => q.wf
  | .chanFlowAdd q => q.wf
  | .chanFlowDel q => q.wf
  | .chanEgress q => q.wf
  | .chanKey q => q.wf
  | .chanPlayout q => q.wf
  | .chanEcho q => q.wf
  | .chanEchoReset q => q.wf
  | .chanBridge q => q.wf
  | .chanGain q => q.wf
  | .chanGroup q => q.wf
  | .chanToneCfg q => q.wf
  | .chanTonePlay q => q.wf
  | .chanToneStop q => q.wf
  | .chanCodec q => q.wf
  | .chanRtcp q => q.wf
  | .chanClear q => q.wf
  | .chanConfCreate q => q.wf
  | .chanConfDelete q => q.wf
  | .chanConfJoin q => q.wf
  | .chanConfLeave q => q.wf
  | .chanStatus q => q.wf
  | .chanConfStatus q => q.wf
  | .graphDefine q => q.wf
  | .graphDelete q => q.wf
  | .graphCptDefine q => q.wf
  | .graphInfo q => q.wf
  | .coefSetLoad q => q.wf
  | .coefSetFree q => q.wf
  | .coefBank q => q.wf
  | .coefSwap q => q.wf
  | .coefSwapCancel q => q.wf
  | .coefPhase q => q.wf
  | .coefSyncReset q => q.wf
  | .coefSetInfo q => q.wf
  | .coefRomRead q => q.wf
  | .coefChainStatus q => q.wf
  | .timeClock q => q.wf
  | .timePort q => q.wf
  | .timeUnicast q => q.wf
  | .timeStatus q => q.wf
  | .timePortStatus q => q.wf
  | .portEnable q => q.wf
  | .portDisable q => q.wf
  | .portMdioWrite q => q.wf
  | .portMdioRead q => q.wf
  | .portStatus q => q.wf
  | .captOpen q => q.wf
  | .captClose q => q.wf
  | .captEnable q => q.wf
  | .captDisable q => q.wf
  | .captTrigger q => q.wf
  | .captExport q => q.wf
  | .captRead q => q.wf
  | .captStatus q => q.wf
  | .captureTimeTrigger _ => true
  | .exportFrameSend _ => true
  | .pattLoad q => q.wf
  | .pattFromCapt q => q.wf
  | .pattDelete q => q.wf
  | .pattPlay q => q.wf
  | .pattStop q => q.wf
  | .pattInfo q => q.wf
  | .patternItemRelease _ => true
  | .ringOpen q => q.wf
  | .ringClose q => q.wf
  | .ringEnable q => q.wf
  | .ringDisable q => q.wf
  | .ringFeed q => q.wf
  | .ringStatus q => q.wf
  | .injectLaunch _ => true
  | .injectDoneSend _ => true
  | .tandRoute q => q.wf
  | .tandRing q => q.wf
  | .tandExport q => q.wf
  | .tandExportDel q => q.wf
  | .tandImport q => q.wf
  | .tandImportDel q => q.wf
  | .tandConfImport q => q.wf
  | .tandMigrateOut q => q.wf
  | .tandMigrateIn q => q.wf
  | .tandStatus q => q.wf
  | .tndDevnoWrite _ _ => true
  | .tndWinWrite _ _ => true
  | .bistRequest q => q.wf
  | .bistFuseArm q => q.wf
  | .bistFuseConfirm q => q.wf
  | .bistLcArm q => q.wf
  | .bistLcConfirm q => q.wf
  | .bistRepairList q => q.wf
  | .bistUnitStatus q => q.wf
  | .prsPartition q => q.wf
  | .prsCheckpoint q => q.wf
  | .prsLogRead q => q.wf
  | .prsInfo q => q.wf
  | .statIpfixSet q => q.wf
  | .statLeg q => q.wf
  | .statDevice q => q.wf
  | .statJrnlFate q => q.wf
  | .fwLoad q => q.wf
  | .fwActivate q => q.wf
  | .fwStartClear q => q.wf
  | .fwInfo q => q.wf
  | .shutBegin q => q.wf
  | .shutAbort q => q.wf
  | .shutStatus q => q.wf
  | .shutdownDrainEnd => true
  | .shutdownTestDone r => r.wf
  | .stageInDone _ => true
  | .taskDone _ _ => true
  | .coreTransitAccess _ _ => true
  | .fceCall _ eng => decide (eng.val < 16)
  | .eceCall _ _ => true
  | .memoryFault _ _ => true
  | .accessFault _ _ _ => true
  | .engineParity _ => true
  | .coreHang _ _ => true
  | .taskOverrun _ => true
  | .replayRestageDone _ => true
  | .faultRecordPop _ => true
  | .dmaCopy _ => true
  | .dmaFill _ => true
  | .dmaTx _ => true
  | .dmaRx _ => true
  | .dmaRelease _ => true
  | .dmaDescComplete _ => true
  | .dmaDescPark _ => true
  | .mmuRingTailWrite _ _ _ descs _ => descs.all fun d => d.length == 32
  | .mmuMoveGo _ _ _ => true
  | .moveComplete => true
  | .mmuInvGo _ _ _ => true
  | .invalidationDone => true
  | .mmuParkResume _ => true
  | .mmuParkAbort _ => true
  | .mmuCtlPeakClr _ => true
  | .mmuDmaEnWrite _ _ => true
  | .swtLenWrite _ _ => true
  | .swtLoftBudWrite _ _ => true
  | .swtCycPctWrite _ _ => true
  | .plyCtlPeakClr _ => true
  | .fceCfgEnWrite _ _ => true
  | .fceCtlPeakClr _ _ => true
  | .eceCfgEnWrite _ _ => true
  | .eceCtlPeakClr _ _ => true
  | .knlCtlHistClr _ => true
  | .knlCtlPeakClr _ => true
  | .knlHistSelWrite _ _ => true
  | .knlRefuseWrite _ _ => true
  | .frpCtlPeakClr _ => true
  | .grnCapStrmHiRead _ => true
  | .balCfgEnWrite _ => true
  | .balCtlPeakClr _ => true
  | .balRingTailWrite _ jobs _ => jobs.all fun d => d.length == 48
  | .balerCompress _ _ => true
  | .balerDecompress _ => true
  | .balerResume _ _ => true
  | .balerJobEnd _ _ => true
  | .glnSliceStart cls idx => decide (idx.val < unitCount cls.val)
  | .glnSliceEnd r => r.wf
  | .glnCtlCut _ => true
  | .glnCfgEnWrite _ _ => true
  | .glnRecPopRead _ => true
  | .jtagKeyLoad _ => true
  | .jtagLcTransition _ => true
  | .i2cAddressWrite _ => true
  | .i2cRead _ => true
  | .scrubRead _ _ => true
  | .hbmRetrain _ _ => true
  | .pllCalibration => true
  | .sensorRead t => t.length == 16
  | .overTempReset => true
  | .avsAdjust _ _ => true
  | .checkpointTimer => true
  | .checkpointWritten _ => true
  | .prsBlockFail _ => true
  | .ipfixHealth => true
  | .ipfixTemplate => true
  | .testEnRelease _ => true
  | .unknownOperation _ _ q => q.wf

end Sys2Proof
end

