-- ==== Sys2Proof/Tests/Slice0.lean ====
section
/-! SUPPORT. Tests of the model: ill-formed commands are refused by name, single commands give what the spec's rules give, and the hypotheses
of every statement can be met, clause by clause. -/

set_option Elab.async false

namespace Sys2Proof.Tests

open Sys2Proof Sys2Proof.Machine

/-! ### A part in service with one session -/

/-- In service, with a session of role 2 in mailbox 0. -/
def on : State := ({ State.reset with mode := .service } : State).setSess 0 { Session.init with st := .on, role := 2 }

/-- The next command of that session. -/
def q (p : Bytes) : Req := ⟨0, 0, false, p⟩

/-- The next register access of that session. -/
def c : RegCmd := ⟨0, 0⟩

theorem ready {d : OpDef} {op : Nat} {q : Req} {s : State} (h : (s.mode ≠ .recovery ∧ q.more = false ∧
    s.turn q.mbox.val q.seq.toNat op false q.payload = true) ∧ d.minRole ≤ (s.sess q.mbox.val).role ∧ d.badLen q.payload = none) :
    Ready d op q s := ⟨h.1.1, h.1.2.1, h.1.2.2, h.2.1, h.2.2⟩

theorem accepted {d : OpDef} {op : Nat} {q : Req} {s : State} {plan : List Nat} (h : ((s.mode ≠ .recovery ∧ q.more = false ∧
    s.turn q.mbox.val q.seq.toNat op false q.payload = true) ∧ d.minRole ≤ (s.sess q.mbox.val).role ∧ d.badLen q.payload = none) ∧
    d.chk (Req.ctx q op s) (s.take q.mbox.val) q.payload = .ok plan) : Accepted d op q s plan := ⟨ready h.1, h.2⟩

theorem idle {s : State} (h : (s.legs = [] ∧ s.confs = [] ∧ s.armed = [] ∧ s.knl.tasks = [] ∧ s.mmu.areas = []) ∧ s.grn = State.reset.grn ∧
    s.tnd = State.reset.tnd ∧ s.gln = State.reset.gln ∧ s.shut = Shut.none ∧ ∀ p ∈ s.ports, p.2.waiting = []) : Idle s :=
  ⟨h.1.1, h.1.2.1, h.1.2.2.1, h.1.2.2.2.1, h.1.2.2.2.2, h.2.1, h.2.2.1, h.2.2.2.1, h.2.2.2.2.1, h.2.2.2.2.2⟩

/-! ### Ill-formed commands -/

/-- A list whose length does not fit 16 bits. -/
def long : Bytes := List.replicate 65536 0

theorem long_length : decide (long.length < 65536) = false := by rw [long, List.length_replicate]; exact decide_eq_false (Nat.lt_irrefl _)

/-- A session of session 0 that opens with a payload and tags. -/
def opening (tags : List (BitVec 32)) (p : Bytes) : OpenSrc := .open0 ⟨0, 5, tags, 1, false, p⟩

theorem smoke_payload_too_long : (Instr.regRead (q long)).wf = false := long_length
theorem smoke_open_too_long : (Instr.sessionOpen (opening [] long)).wf = false := by
  simp only [Instr.wf, OpenSrc.wf, opening, long_length, Bool.false_and]
theorem smoke_open_three_tags : (Instr.sessionOpen (opening [1, 2, 3] [])).wf = false := by decide
theorem smoke_open_two_tags : (Instr.sessionOpen (opening [1, 2] [])).wf = true := by decide
theorem smoke_open_in_session_too_long : (Instr.sessionOpen (.inSession (q long))).wf = false := long_length
theorem smoke_unknown_too_long : (Instr.unknownOperation 0 0 (q long)).wf = false := long_length
theorem smoke_no_such_loft_bank : (Instr.glnSliceStart 5 64).wf = false := by decide
theorem smoke_last_loft_bank : (Instr.glnSliceStart 5 63).wf = true := by decide
theorem smoke_logic_end_of_no_unit : (Instr.glnSliceEnd (.logic 1 16 0 true)).wf = false := by decide
theorem smoke_memory_end_of_no_bank : (Instr.glnSliceEnd (.memory false 64 none)).wf = false := by decide
theorem smoke_fault_of_no_unit : (Instr.glnSliceEnd (.fault 4 4)).wf = false := by decide
theorem smoke_test_of_no_unit : (Instr.shutdownTestDone ⟨[(2, 32)], [], false⟩).wf = false := by decide
theorem smoke_start_env : (Instr.startSequence ⟨0, [], List.replicate 14 0, ⟨[], [], false⟩, [], [], [], [], [], 0, 0, none⟩).wf = true := by decide
theorem smoke_start_without_durations : (Instr.startSequence ⟨0, [], [], ⟨[], [], false⟩, [], [], [], [], [], 0, 0, none⟩).wf = false := by decide
theorem smoke_start_attempt_at_step_0 :
    (Instr.startSequence ⟨0, [⟨0, none, 0⟩], List.replicate 14 0, ⟨[], [], false⟩, [], [], [], [], [], 0, 0, none⟩).wf = false := by decide
theorem smoke_start_reserved_ring :
    (Instr.startSequence ⟨0, [], List.replicate 14 0, ⟨[], [], false⟩, [], [], [], [⟨9, 16, 8, 0, 0⟩], [], 0, 0, none⟩).wf = false := by decide
theorem smoke_start_fifth_job_ring :
    (Instr.startStepTimeout 2 ⟨0, [], List.replicate 14 0, ⟨[], [], false⟩, [], [], [], [], [⟨4, 16, 8, 0, 0⟩], 0, 0, none⟩).wf = false := by decide
theorem smoke_nibble_off_s0 : (Instr.macRxFrame ⟨6, [], false, true, 0, false, 0, 0⟩).wf = false := by decide
theorem smoke_nibble_on_s0 : (Instr.macRxFrame ⟨7, [], false, true, 0, false, 0, 0⟩).wf = true := by decide
theorem smoke_chain_engine_16 : (Instr.fceCall 0 16).wf = false := by decide
theorem smoke_short_descriptor : (Instr.mmuRingTailWrite 2 none none [zeros 31] 0).wf = false := by decide
theorem smoke_short_job : (Instr.balRingTailWrite 0 [zeros 32] 0).wf = false := by decide
theorem smoke_fifteen_sensors : (Instr.sensorRead (List.replicate 15 0)).wf = false := by decide

/-! ### The spec's worked examples -/

/-- The example under R16: a stamp of TAI 1 s belongs to swath 2,000 at 500 µs. -/
theorem test_swath_of_one_second : on.quot secI = 2000 := by decide +kernel

/-- The example under R74: a step of -0.5 s is written as -1 s and 500,000,000 ns. -/
theorem test_step_of_minus_half : ((on.setReg R.TMU_STEP_SEC 0xFFFFFFFF).setReg R.TMU_STEP_NS 500000000).stepAmount = -500000000 := by decide +kernel

/-- The example under R79: count 1 lies at NS 20,833, FRAC 0x5556, and that instant has count 1. -/
theorem test_count_at_48_khz : instOf 48000 1 = 20833 * 65536 + 0x5556 ∧ countAt 48000 (instOf 48000 1) = 1 := by decide

/-- The 8 kHz count and the RTP time stamp of the example under R79. -/
theorem test_rtp_count : (countAt 8000 (1723456789 * secI + nsI 120500000) + 0x12345678) % 2 ^ 32 = 0x42712A7C := by decide

/-- The example under R48: 300,000 ns into swath n, a step of +1,300,000 ns; D = 700,000 ns, the Work deadline moves to 616,000 ns and Guard to 672,000 ns. -/
def stepped : State :=
  let t := ({ on with tmu := { on.tmu with acc := (1600000 + 10 ^ 9) * 2 ^ 40, loc := 300000 * 2 ^ 40 } } : State).setFld R.TMU_STAT_VALID 1
  (t.setSwt { t.swt with begun := true, bLoc := 0 }).reanchor (1300000 * 2 ^ 40)

theorem test_step_re_anchors : stepped.swt.d = nsI 700000 ∧ stepped.swt.emitAt = nsI 616000 ∧ stepped.swt.guardAt = nsI 672000 ∧
    stepped.swt.nextT = nsI (2000000 + 10 ^ 9) ∧ stepped.swt.slipped = true := by decide +kernel

/-- The budgets of the example under R58: 110,000 cycle units and 532,480 EU at 500 µs with every core and engine. -/
theorem test_budgets : bcOf 128 500000 88 = 110000 ∧ beOf 32 500000 = 532480 := by decide

/-- The example under R58: with the slots and the full-treatment legs all taken, the next such leg with ECHO fails mask 0x18, one without fails 0x10. -/
def full : State := (((on.setReg R.SWT_CYC_BUD_CORE_SHARE.addr 0xFFFFFFFF).setReg R.SWT_SLOTS_TOTAL.addr 1048576).setFld R.SWT_SLOTS_USED_USED 1048576).setFld
  R.SWT_LEGS_FULL_FULL 65536

theorem test_full_part_refuses : full.totalsMask ⟨67, 28, 320, 16, true⟩ = 0x18 ∧ full.totalsMask ⟨67, 28, 0, 0, true⟩ = 0x10 ∧
    full.totalsMask ⟨0, 1, 0, 0, false⟩ = 0 := by decide +kernel

/-- The example under R601: a pulse of 1 ms from 100 s, armed at 100.0037 s, skips 4 occurrences. -/
theorem test_pulse_skips_four :
    (((({ on with tmu := { on.tmu with acc := 100003700000 * 2 ^ 40 } } : State).setReg (R.TMU_TOUT_SEC_LO 0) 100).setReg
      (R.TMU_TOUT_PER 0) 1000000).toutArm 0).reg R.SWT_SKIP_OCC_CNT = 4 := by decide +kernel

/-- The example under R480: a start at 100 s with a period of 60 ms, armed at 100.130 s, begins with repeat 3. -/
theorem test_first_repeat : firstRep (100 * secI) (nsI 60000000) (100 * secI + nsI (130000000 + 20000)) = 3 := by decide

/-- The example under R149: the header of a read of SWT_SWN and its payload. -/
theorem test_qcp_header : (qcpFrame 1 0 0x2A07 19 0x0281 5 (zeros 32) [0, 1, 0, 8, 0, 0, 0, 1]).take 16 =
    [0x11, 0, 0x2A, 7, 0, 0, 0, 0x13, 2, 0x81, 0, 8, 0, 0, 0, 5] := by decide +kernel

/-- The example under R206: highest index 0x0001_0005. -/
theorem test_srtp_index : estIndex true 0x10005 0xFFF0 = 0xFFF0 ∧ replayed true 0x10005 1 0xFFF0 = false ∧ estIndex true 0x10005 0xFF00 = 0xFF00 ∧
    replayed true 0x10005 1 0xFF00 = true ∧ estIndex true 0x10005 6 = 0x10006 ∧ (windowOn true 0x10005 1 0x10006).1 = 0x10006 := by decide +kernel

/-- The example under R253: with SH = 30, 1.5 output LSB gives 2 and -1.5 gives -1. -/
theorem test_shift_rounds : shiftClamp (3 * 2 ^ 29) 30 = (2, false) ∧ shiftClamp (-3 * 2 ^ 29) 30 = (-1, false) := by decide

/-- The chain of the examples under R269 and R275: ROM response 0 as FIR, 6 as INT by 2, a BIQ section from the live bank with a delay of 80 and a settle count of 40. -/
def exChain : List Stage :=
  [parseStage (be 4 0x1080F03F), parseStage (be 4 0x4286F030), { parseStage (be 4 0x2000F001) with dg := 80, dc := 40 }]

theorem test_group_delay : groupDelay 8000 exChain true = 2904 ∧ gdNs 8000 2904 = 5671875 ∧ settleOf 8000 exChain true 0 = 217 ∧
    chainOut 8000 exChain = 16000 := by decide +kernel

/-- The example under R467: the header of a capture record. -/
theorem test_capture_record : (record 1 0x40 3 2 (zeros 128) 224 (1723456789 * secI + nsI 81987600) 5 (some 6699) 0x412 0 0).take 32 =
    [0x11, 0x40, 3, 2, 0, 0x80, 0, 0xE0, 0, 0, 0x66, 0xB9, 0xDD, 0x15, 0x04, 0xE3, 0x08, 0x10, 0, 0, 0xB0, 0, 0x1A, 0x2B, 0, 0, 4, 0x12, 0, 0, 0, 0] ∧
    (record 1 0x40 3 2 (zeros 128) 224 (1723456789 * secI + nsI 81987600) 5 (some 6699) 0x412 0 0).length = 160 := by decide +kernel

/-- The example under R422: a journal record of 64 bytes. -/
def exRec : JRec := ⟨0x31F40, 17, 0x2A07, 1, 3, 0x213, 0x0302, be 4 0x1A2B ++ List.replicate 12 255, 1723456789 * secI + nsI 120500000, 0, false⟩

theorem test_journal_record : exRec.bytes.take 60 =
    [0x4A, 0x52, 1, 0, 0, 3, 0x1F, 0x40, 0, 0, 0, 0x11, 0x2A, 7, 0x13, 0, 0, 0, 2, 0x13, 3, 2, 0, 0, 0, 0, 0, 0x10, 0, 0, 0x66, 0xB9, 0xDD, 0x15, 7, 0x2E, 0xAF, 0x20,
      0, 0, 0, 0, 0, 0, 0, 0, 0x1A, 0x2B, 255, 255, 255, 255, 255, 255, 255, 255, 255, 255, 255, 255] ∧ exRec.size = 64 := by decide +kernel

/-- The example under R390: the completion of a parked COPY. -/
theorem test_completion : completion 0xA1 2 0 12288 0x80003000 none 0x1F2A =
    [0xA1, 2, 0, 0, 0, 0, 0x30, 0, 0, 0, 0, 0, 0x80, 0, 0x30, 0, 0, 0, 0, 0, 0, 0, 0, 0, 0, 0, 0, 0, 0, 0, 0x1F, 0x2A] := by decide +kernel

/-- The example under R486: nine bytes baled at level 0. -/
theorem test_bale : mkBale 0 false [0x31, 0x32, 0x33, 0x34, 0x35, 0x36, 0x37, 0x38, 0x39] =
    [0x42, 0x41, 0x4C, 0x45, 1, 1, 0, 0, 0, 0, 0, 9, 0, 0, 0, 0x0E, 1, 9, 0, 0xF6, 0xFF, 0x31, 0x32, 0x33, 0x34, 0x35, 0x36, 0x37, 0x38, 0x39, 0xE3, 6, 0x92, 0x83] := by
  decide +kernel

/-- The example under R547: the template set of template 258 with E = 32473. -/
theorem test_template_258 : templateSet 32473 258 =
    [0, 2, 0, 0x34, 1, 2, 0, 6, 1, 0x45, 0, 8, 0x80, 1, 0, 2, 0, 0, 0x7E, 0xD9, 0x80, 2, 0, 2, 0, 0, 0x7E, 0xD9, 0x80, 3, 0, 4, 0, 0, 0x7E, 0xD9, 0x80, 4, 0, 1,
      0, 0, 0x7E, 0xD9, 0x80, 5, 0, 4, 0, 0, 0x7E, 0xD9] := by decide +kernel

/-- The example under R441: 30 hops of 500 ns links fit a window of 60,000 ns, 31 do not. -/
theorem test_path_limit : pathNs 30 (30 * 500) = 60000 ∧ pathNs 31 (31 * 500) = 62000 := by decide

/-- The example under R559: the start before it stopped in S06 at alternate 0, so this one takes alternate 1. -/
theorem test_next_alternate :
    let t := (on.setNv { on.nv with boot := 17, slog := [] }).slogPut 6 0 0 0 0 0 0
    ({ t.nv with boot := 18 } : Nv).chooseAlt 6 true = 1 := by decide +kernel

/-- After reset there is no leg and no session, and no command waits. -/
theorem test_reset_is_empty : State.reset.legs = [] ∧ State.reset.pending = [] ∧ State.reset.qcp.sess = [] := by decide

/-- The template of the example under R333: G.711 at 20 ms, with the FILTER nodes' stages as sets 1 and 2, and a canceller of 128 ms. -/
def refTpl : Template :=
  let f (id fl : Byte) : Bytes := [0, id, fl] ++ zeros 9
  ⟨20, false, some 6, some 0, [⟨1, 0xFF, 0xFF, 0, [1] ++ zeros 11⟩, ⟨2, 0, 0xFF, 0, zeros 12⟩, ⟨3, 1, 0xFF, 0, f 1 0⟩, ⟨3, 0xF0, 0xFF, 0, f 2 2⟩,
    ⟨4, 2, 3, 0, [16] ++ zeros 11⟩, ⟨5, 4, 0xFF, 0, zeros 12⟩, ⟨7, 5, 0xFF, 0, zeros 12⟩, ⟨8, 0xF0, 0xFF, 0, [1] ++ zeros 11⟩], []⟩

def refSets : KV CoefSet :=
  let st (i : Nat) : Stage := ⟨(romEntry i).1, 0, some i, 30, (romEntry i).2.2.1, 0, 0⟩
  [(1, ⟨[st 4, st 58, st 56], [], []⟩), (2, ⟨[st 56], [], []⟩)]

theorem test_reference_template : refTpl.cycles refSets = 68094 ∧ (refTpl.cost refSets none).cyc = 67 ∧ refTpl.loft refSets none = 28 ∧
    (refTpl.cost refSets none).eu = 320 := by decide +kernel

/-- The example under R520: spare column 2 of loft bank 13 at column address 0x342. -/
theorem test_repair_entry : repairEntry true false 13 2 0x342 = 0xC3480342 := by decide

/-- The example under R434: the header of a parcel frame, up to its CRC. -/
theorem test_tandem_header : (tndBytes 1 true 3 17 5 0x8C0F3501 0 1 [] (zeros 824)).take 28 =
    [0x11, 0x80, 0, 3, 0, 0x11, 5, 0, 0x8C, 0x0F, 0x35, 1, 0, 0, 0, 1, 0, 0, 3, 0x38, 0, 0, 0, 0, 0, 0, 0, 0] := by decide +kernel

/-! ### The hypotheses of the statements can be met -/

/-- What a start meets in which nothing happens. -/
def env : StartEnv := ⟨0, [], [], ⟨[], [], false⟩, [], [], [], [], [], 0, 0, none⟩

/-- Every pin lets the part run. -/
def pinsUp : Pins := { State.reset.pins with pwrgood := true, resetN := true, testEn := false }

/-- Ready to start. -/
def ready0 : State := { State.reset with mode := .starting, pins := pinsUp }

theorem startable : Startable env ready0 :=
  ⟨by decide, by decide, by decide, by decide, by decide, by decide, by decide, by decide, by decide, by decide⟩

/-- The hypotheses of `PinsHoldThePartAndLetItStart` can be met, clause by clause. -/
theorem meets_pins_hold_the_part_and_let_it_start :
    (∃ (s : State), s.pins.pwrgood = false) ∧
    (∃ (s : State), s.pins.resetN = false) ∧
    (∃ (s : State), s.pins.testEn = true) ∧
    (∃ (s : State), s.pins.pwrgood = true) ∧
    (∃ (s : State), s.pins.resetN = true) ∧
    (∃ (s : State), s.pins.testEn = false) ∧
    (∃ (s : State), s.mode = Mode.service ∧ s.pins.run = true) ∧
    (∃ (s : State), s.mode ≠ Mode.reset ∧ s.pins.run = true) :=
  ⟨⟨{ on with pins := { on.pins with pwrgood := false } }, by decide +kernel⟩,
    ⟨{ on with pins := { on.pins with resetN := false } }, by decide +kernel⟩,
    ⟨{ on with pins := { on.pins with testEn := true } }, by decide +kernel⟩,
    ⟨{ on with pins := { on.pins with pwrgood := true } }, by decide +kernel⟩,
    ⟨{ on with pins := { on.pins with resetN := true } }, by decide +kernel⟩,
    ⟨{ on with pins := { on.pins with testEn := false } }, by decide +kernel⟩,
    ⟨{ on with pins := pinsUp }, by decide +kernel, by decide +kernel⟩,
    ⟨{ on with pins := pinsUp }, by decide +kernel, by decide +kernel⟩⟩

/-- The hypotheses of `AStartEndsInServiceOrRecovery` can be met, clause by clause. -/
theorem meets_a_start_ends_in_service_or_recovery :
    (∃ (s : State), s.mode = Mode.starting) ∧
    (∃ (s : State), s.mode = Mode.starting ∧ s.pins.run = true) ∧
    (∃ (k : Fin 14) (s : State), s.mode = Mode.starting ∧ k ≠ 0) :=
  ⟨⟨ready0, by decide +kernel⟩,
    ⟨ready0, by decide +kernel, by decide +kernel⟩,
    ⟨13, ready0, by decide +kernel, by decide +kernel⟩⟩

/-- The hypotheses of `AnUndisturbedStartCompletes` can be met, clause by clause. -/
theorem meets_an_undisturbed_start_completes :
    (∃ (env : StartEnv) (s : State), Startable env s) ∧
    (∃ (k : Fin 14) (env : StartEnv) (s : State), Startable env s ∧ k ≠ 0 ∧ s.pins.run = true) :=
  ⟨⟨env, ready0, startable⟩,
    ⟨1, env, ready0, startable, by decide +kernel, by decide +kernel⟩⟩

/-- The hypotheses of `TimeRegistersAreWritten` can be met, clause by clause. -/
theorem meets_time_registers_are_written :
    (∃ (c : RegCmd) (s : State), Accepted opRegWrite 513 (writeReq c R.TMU_CTL 1) s []) ∧
    (∃ (c : RegCmd) (s : State), Accepted opRegWrite 513 (writeReq c R.TMU_CTL 2) s []) ∧
    (∃ (v : Word) (c : RegCmd) (s : State), Accepted opRegWrite 513 (writeReq c R.TMU_ADDEND (BitVec.toNat v)) s []) ∧
    (∃ (v : Word) (c : RegCmd) (s : State), Accepted opRegWrite 513 (writeReq c R.TMU_ADDEND_EXT (BitVec.toNat v)) s []) ∧
    (∃ (v : Word) (c : RegCmd) (s : State), Accepted opRegWrite 513 (writeReq c R.TMU_SRV_CTL (BitVec.toNat v)) s []) ∧
    (∃ (v : Word) (c : RegCmd) (s : State), Accepted opRegWrite 513 (writeReq c R.TMU_CFG (BitVec.toNat v)) s []) ∧
    (∃ (n : Fin 4) (c : RegCmd) (s : State), Accepted opRegWrite 513 (writeReq c (R.TMU_TOUT_CTL ↑n) (s.toutCtl ↑n 2)) s []) ∧
    (∃ (n : Fin 4) (c : RegCmd) (s : State), Accepted opRegWrite 513 (writeReq c (R.TMU_TOUT_CTL ↑n) (s.toutCtl ↑n 1)) s [] ∧
      s.toutLate ↑n = false) ∧
    (∃ (n : Fin 4) (c : RegCmd) (s : State), Accepted opRegWrite 513 (writeReq c (R.TMU_TOUT_CTL ↑n) (s.toutCtl ↑n 1)) s [] ∧
      s.toutLate ↑n = true ∧ s.toutPer ↑n = 0) :=
  ⟨⟨c, on, accepted (by decide +kernel)⟩,
    ⟨c, on, accepted (by decide +kernel)⟩,
    ⟨0x014028F6, c, on, accepted (by decide +kernel)⟩,
    ⟨0, c, on, accepted (by decide +kernel)⟩,
    ⟨1, c, on, accepted (by decide +kernel)⟩,
    ⟨2, c, on, accepted (by decide +kernel)⟩,
    ⟨3, c, (on.setTout 3 { on.tout 3 with run := true }), accepted (by decide +kernel)⟩,
    ⟨0, c, ((on.setFld R.TMU_STAT_VALID 1).setFld (R.TMU_TOUT_WIDTH_NS 0) 3).setReg (R.TMU_TOUT_SEC_LO 0) 1, accepted (by decide +kernel),
      by decide +kernel⟩,
    ⟨3, c, (on.setFld R.TMU_STAT_VALID 1).setFld (R.TMU_TOUT_WIDTH_NS 3) 3, accepted (by decide +kernel), by decide +kernel⟩⟩

/-- The hypotheses of `TimeGoesOnByTheAddend` can be met, clause by clause. -/
theorem meets_time_goes_on_by_the_addend :
    (∃ (s : State), s.mode ≠ Mode.reset ∧ s.tmu.pendSet = none ∧ s.tmu.pendStep = none ∧ s.tmu.srv.st ≠ FnState.starting ∧
      s.tmu.srv.st ≠ FnState.stopping ∧ (¬(s.tmu.srv.st = FnState.on ∧ s.tmu.srv.lock = Lock.holdover)) ∧
      (∀ e < 16, s.fceSt e ≠ FnState.starting ∧ s.fceSt e ≠ FnState.stopping) ∧ (∀ e < 32, s.eceSt e ≠ FnState.starting ∧ s.eceSt e ≠ FnState.stopping)) ∧
    (∃ (s : State), s.mode ≠ Mode.reset ∧ s.tmu.pendSet = none ∧ s.tmu.pendStep = none ∧ s.tmu.srv.st = FnState.starting ∧ s.tmu.srv.disHeld = false ∧
      s.fceSt 15 = FnState.starting ∧ s.engDis.contains 15 = false ∧ s.eceSt 31 = FnState.starting ∧ s.engDis.contains 63 = false) ∧
    (∃ (s : State), s.mode ≠ Mode.reset ∧ s.tmu.pendSet = none ∧ s.tmu.pendStep = none ∧ s.tmu.srv.st = FnState.stopping) ∧
    (∃ (s : State), s.mode ≠ Mode.reset ∧ s.tmu.pendSet = none ∧ s.tmu.pendStep = none ∧ s.tmu.srv.st = FnState.on ∧ s.tmu.srv.lock = Lock.holdover) :=
  ⟨⟨on, by decide +kernel⟩,
    ⟨((on.setTmu { on.tmu with srv := { on.tmu.srv with st := .starting } }).setFld (R.FCE_STAT_STATE 15) 1).setFld (R.ECE_STAT_STATE 31) 1, by decide +kernel⟩,
    ⟨on.setTmu { on.tmu with srv := { on.tmu.srv with st := .stopping } }, by decide +kernel⟩,
    ⟨on.setTmu { on.tmu with srv := { on.tmu.srv with st := .on, lock := .holdover } }, by decide +kernel⟩⟩

/-- The hypotheses of `SetAndStepMoveTime` can be met, clause by clause. -/
theorem meets_set_and_step_move_time :
    (∃ (s : State) (ns : ℕ), s.tmu.pendSet = some ns ∧ s.tmu.pendStep = none) ∧
    (∃ (s : State) (d : ℤ), s.tmu.pendSet = none ∧ s.tmu.pendStep = some d) ∧
    (∃ (s : State) (ns : ℕ) (d : ℤ), s.tmu.pendSet = some ns ∧ s.tmu.pendStep = some d) :=
  ⟨⟨on.setTmu { on.tmu with pendSet := some (2 ^ 48 * 1000000000 - 1) }, 2 ^ 48 * 1000000000 - 1, by decide +kernel⟩,
    ⟨on.setTmu { on.tmu with pendStep := some (-1) }, -1, by decide +kernel⟩,
    ⟨on.setTmu { on.tmu with pendSet := some 0, pendStep := some (-1) }, 0, -1, by decide +kernel⟩⟩

/-- The hypotheses of `ASlipIsRecorded` can be met, clause by clause. -/
theorem meets_a_slip_is_recorded :
    ∃ (s : State) (d : ℤ), s.fld R.TMU_STAT_VALID = 1 ∧ s.swt.begun = true ∧ s.tmu.pendSet = none ∧ s.tmu.pendStep = some d ∧
      0 ≤ ↑s.tmu.acc + d * 2 ^ 40 ∧ ↑s.tmu.acc + d * 2 ^ 40 < ↑(2 ^ 48 * 1000000000 * 2 ^ 40) ∧ s.lenNs < 2 * d.natAbs ∧ d.natAbs < 2 ^ 31 :=
  ⟨(((on.setTmu { on.tmu with pendStep := some 2000000000 })).setSwt { on.swt with begun := true }).setFld R.TMU_STAT_VALID 1, 2000000000,
    by decide +kernel⟩

/-- The hypotheses of `TheServoTakesSamples` can be met, clause by clause. -/
theorem meets_the_servo_takes_samples :
    (∃ (s : State), s.tmu.srv.st ≠ FnState.on) ∧
    (∃ (s : State), s.tmu.srv.st = FnState.on ∧ 16 ≤ s.tmu.ofs.length) ∧
    (∃ (s : State), s.tmu.srv.st = FnState.on ∧ s.tmu.ofs.length < 16) ∧
    (∃ (s : State) (x : Ofs) (l : List Ofs), s.tmu.ofs = x :: l ∧ s.tmu.srv.st = FnState.on ∧ s.fld R.TMU_SRV_CTL_SRC = 0 ∧ x.wt = 0) ∧
    (∃ (s : State) (x : Ofs) (l : List Ofs), s.tmu.ofs = x :: l ∧ s.tmu.srv.st = FnState.on ∧ s.fld R.TMU_SRV_CTL_SRC = 0 ∧ x.wt ≠ 0 ∧
      s.tmu.srv.lock = Lock.free ∧ s.tmu.srv.haveRef = false ∧ s.stepLimit = none) ∧
    (∃ (s : State), s.tmu.srv.st = FnState.on ∧ s.tmu.srv.lock = Lock.locked ∧ s.tmu.srv.lastPush + s.tmu.srv.holdMs * 1000000 * 2 ^ 40 ≤ s.tmu.loc) ∧
    (∃ (s : State) (t0 : ℕ), s.tmu.srv.st = FnState.on ∧ s.tmu.srv.limitAt = some t0 ∧ t0 + 10 * 1000000000 * 2 ^ 40 ≤ s.tmu.loc) :=
  ⟨⟨on, by decide +kernel⟩,
    ⟨(on.setTmu { on.tmu with ofs := List.replicate 16 ⟨0, 1, none, 0⟩, srv := { on.tmu.srv with st := .on } }), by decide +kernel,
      by decide +kernel⟩,
    ⟨(on.setTmu { on.tmu with ofs := List.replicate 15 ⟨0, 1, none, 0⟩, srv := { on.tmu.srv with st := .on } }), by decide +kernel,
      by decide +kernel⟩,
    ⟨(on.setTmu { on.tmu with ofs := [⟨5, 0, none, 0⟩], srv := { on.tmu.srv with st := .on } }), ⟨5, 0, none, 0⟩, [], by decide +kernel,
      by decide +kernel, by decide +kernel, by decide +kernel⟩,
    ⟨((on.setTmu { on.tmu with ofs := [⟨5, 1, none, 0⟩], srv := { on.tmu.srv with st := .on } }).setFld R.TMU_SRV_CTL_SLIP_EN 0).setLeg 0 { Leg.init with st := .on },
      ⟨5, 1, none, 0⟩, [], by decide +kernel⟩,
    ⟨(on.setTmu { on.tmu with loc := 2 ^ 90, srv := { on.tmu.srv with st := .on, lock := .locked } }), by decide +kernel, by decide +kernel,
      by decide +kernel⟩,
    ⟨(on.setTmu { on.tmu with loc := 2 ^ 90, srv := { on.tmu.srv with st := .on, limitAt := some 0 } }), 0, by decide +kernel, by decide +kernel,
      by decide +kernel⟩⟩

/-- The hypotheses of `ReferencePulsesAndEdges` can be met, clause by clause. -/
theorem meets_reference_pulses_and_edges :
    (∃ (s : State), s.tmu.refArmed = true) ∧
    (∃ (s : State), s.tmu.refArmed = false) ∧
    (∃ (s : State), s.fld R.TMU_STAT_REF_ACTIVE = 1) ∧
    (∃ (s : State), s.fld R.TMU_STAT_REF_ACTIVE ≠ 1) ∧
    (∃ (n : Fin 4) (s : State), (s.tout ↑n).run = true ∧ (s.tout ↑n).per = 0 ∧ (s.tout ↑n).late = false ∧ (s.tout ↑n).start ≤ s.now) ∧
    (∃ (n : Fin 4) (s : State), (s.tout ↑n).run = true ∧ (s.tout ↑n).per = 0 ∧ (s.tout ↑n).late = true ∧ (s.tout ↑n).fireAt ≤ s.now) ∧
    (∃ (n : Fin 4) (s : State), (s.tout ↑n).run = true ∧ (s.tout ↑n).per ≠ 0 ∧ s.now < (s.tout ↑n).start + (s.tout ↑n).nextJ * (s.tout ↑n).per) ∧
    (∃ (n : Fin 5) (rise : Bool) (s : State), s.fld (R.TMU_TIN_CFG_EDGE ↑n) = (if rise then 1 else 2) ∧
      (∀ l, (s.tin ↑n).last = some l → l + 4 ≤ s.tmu.tick) ∧ s.fld R.TMU_SRV_CTL_SRC = 0 ∧ (s.tin ↑n).fifo.length < 16 ∧
      s.fld (R.TMU_TIN_CFG_EVT ↑n) = 0) ∧
    (∃ (n : Fin 5) (s : State), s.fld (R.TMU_TIN_CFG_EDGE ↑n) = 3 ∧ (s.tin ↑n).last = none ∧ (s.tin ↑n).fifo.length < 16 ∧
      s.fld R.TMU_SRV_CTL_SRC = 0 ∧ s.fld (R.TMU_TIN_CFG_EVT ↑n) = 1) ∧
    (∃ (n : Fin 5) (s : State), s.fld (R.TMU_TIN_CFG_EDGE ↑n) = 3 ∧ (s.tin ↑n).last = none ∧ 16 ≤ (s.tin ↑n).fifo.length ∧
      s.fld R.TMU_SRV_CTL_SRC = 0) ∧
    (∃ (s : State), s.fld (R.TMU_TIN_CFG_EDGE 4) = 3 ∧ (s.tin 4).last = none ∧ s.fld R.TMU_SRV_CTL_SRC = 1 ∧ s.tmu.srv.st = FnState.on) ∧
    (∃ (n : Fin 5) (l : Nat) (s : State), s.fld (R.TMU_TIN_CFG_EDGE ↑n) = 3 ∧ (s.tin ↑n).last = some l ∧ s.tmu.tick < l + 4) :=
  ⟨⟨(on.setTmu { on.tmu with refArmed := true }), by decide +kernel⟩,
    ⟨on, by decide +kernel⟩,
    ⟨on.setFld R.TMU_STAT_REF_ACTIVE 1, by decide +kernel⟩,
    ⟨on, by decide +kernel⟩,
    ⟨3, on.setTout 3 ⟨0, 0, 3, 0, 0, 0, false, true, 0⟩, by decide +kernel⟩,
    ⟨0, on.setTout 0 ⟨0, 0, 3, 0, 0, 0, true, true, 0⟩, by decide +kernel⟩,
    ⟨1, on.setTout 1 ⟨0, 65536, 3, 1, 1, 0, false, true, 0⟩, by decide +kernel⟩,
    ⟨4, false, ((on.setFld (R.TMU_TIN_CFG_EDGE 4) 2).setTin 4 ⟨List.replicate 15 ⟨0, true⟩, some 0, 0, 0⟩).setTmu
      { ((on.setFld (R.TMU_TIN_CFG_EDGE 4) 2).setTin 4 ⟨List.replicate 15 ⟨0, true⟩, some 0, 0, 0⟩).tmu with tick := 4 }, by decide +kernel,
      fun l h => by cases (Option.some.inj h); decide +kernel, by decide +kernel⟩,
    ⟨0, (on.setFld (R.TMU_TIN_CFG_EDGE 0) 3).setFld (R.TMU_TIN_CFG_EVT 0) 1, by decide +kernel⟩,
    ⟨4, (on.setFld (R.TMU_TIN_CFG_EDGE 4) 3).setTin 4 ⟨List.replicate 16 ⟨0, true⟩, none, 0, 0⟩, by decide +kernel⟩,
    ⟨((on.setFld (R.TMU_TIN_CFG_EDGE 4) 3).setFld R.TMU_SRV_CTL_SRC 1).setTmu { on.tmu with srv := { on.tmu.srv with st := .on } }, by decide +kernel⟩,
    ⟨4, 0, (on.setFld (R.TMU_TIN_CFG_EDGE 4) 3).setTin 4 ⟨[], some 0, 0, 0⟩, by decide +kernel⟩⟩

/-- The hypotheses of `TimeIsReadPerPath` can be met, clause by clause. -/
theorem meets_time_is_read_per_path :
    (∃ (c : RegCmd) (s : State), Accepted opRegRead 641 (readReq c R.TMU_TIME_SEC_HI) s []) ∧
    (∃ (s : State), s.mode ≠ Mode.reset) ∧
    (∃ (n : Fin 5) (c : RegCmd) (s : State), Accepted opRegRead 641 (readReq c (R.TMU_TIN_POP ↑n)) s []) ∧
    (∃ (s : State), s.mode ≠ Mode.reset) :=
  ⟨⟨c, on, accepted (by decide +kernel)⟩,
    ⟨on, by decide +kernel⟩,
    ⟨4, c, on.setTin 4 ⟨[⟨7, true⟩], none, 0, 0⟩, accepted (by decide +kernel)⟩,
    ⟨on.setTin 4 ⟨[⟨7, true⟩], none, 0, 0⟩, by decide +kernel⟩⟩

/-- The hypotheses of `ABoundaryBeginsASwath` can be met, clause by clause. -/
theorem meets_a_boundary_begins_a_swath :
    ∃ (s : State) (b : Inst), Idle s ∧ s.mode = Mode.service ∧ s.fld R.TMU_STAT_VALID = 1 ∧ (s.swt.begun = true ∧
      s.swt.nextT = b ∨ s.swt.begun = false ∧ s.swt.firstT = some b) ∧ b ≤ s.now :=
  ⟨(on.setFld R.TMU_STAT_VALID 1).setSwt { on.swt with firstT := some 0 }, 0, idle (by decide +kernel), by decide +kernel, by decide +kernel,
    by decide +kernel, by decide +kernel⟩

/-- The hypotheses of `PhasesFollowOneAnother` can be met, clause by clause. -/
theorem meets_phases_follow_one_another :
    (∃ (s : State), s.elapsed < s.swt.workAt) ∧
    (∃ (s : State), s.elapsed < s.swt.emitAt) ∧
    (∃ (s : State), s.elapsed < s.swt.guardAt) ∧
    (∃ (s : State), Idle s ∧ s.swt.begun = true ∧ s.phase = Phase.gather ∧ s.swt.workAt ≤ s.elapsed) ∧
    (∃ (s : State), Idle s ∧ s.swt.begun = true ∧ s.phase = Phase.work ∧ s.swt.emitAt ≤ s.elapsed) ∧
    (∃ (s : State), Idle s ∧ s.swt.begun = true ∧ s.phase = Phase.emit ∧ s.swt.guardAt ≤ s.elapsed) :=
  ⟨⟨on.setSwt { on.swt with workAt := 1 }, by decide +kernel⟩,
    ⟨on.setSwt { on.swt with emitAt := 1 }, by decide +kernel⟩,
    ⟨on.setSwt { on.swt with guardAt := 1 }, by decide +kernel⟩,
    ⟨on.setSwt { on.swt with begun := true }, idle (by decide +kernel), by decide +kernel, by decide +kernel, by decide +kernel⟩,
    ⟨(on.setFld R.SWT_STAT_PHASE 1).setSwt { on.swt with begun := true }, idle (by decide +kernel), by decide +kernel, by decide +kernel,
      by decide +kernel⟩,
    ⟨(on.setFld R.SWT_STAT_PHASE 2).setSwt { on.swt with begun := true }, idle (by decide +kernel), by decide +kernel, by decide +kernel,
      by decide +kernel⟩⟩

/-- The hypotheses of `TheDeadlineCancelsWhatIsNotDone` can be met, clause by clause. -/
theorem meets_the_deadline_cancels_what_is_not_done :
    ∃ (s : State) (i : ℕ) (t : Task), Idle { s with knl := { s.knl with tasks := [] } } ∧
      s.knl.tasks = [(i, t)] ∧ t.kind ≤ 1 ∧ t.leg = none ∧ t.core = none ∧ s.swt.begun = true ∧ s.phase = Phase.work ∧ s.swt.emitAt ≤ s.elapsed :=
  ⟨((on.setFld R.SWT_STAT_PHASE 1).setSwt { on.swt with begun := true }).setTask 1 (Task.init 0 0 0), 1, Task.init 0 0 0, idle (by decide +kernel),
    by decide +kernel⟩

/-- The hypotheses of `SwathRegistersAreWritten` can be met, clause by clause. -/
theorem meets_swath_registers_are_written :
    (∃ (v : Word) (c : RegCmd) (s : State), Accepted opRegWrite 513 (writeReq c R.SWT_CYC_PCT (BitVec.toNat v)) s []) ∧
    (∃ (v : Word) (c : RegCmd) (s : State), Accepted opRegWrite 513 (writeReq c R.SWT_LOFT_BUD (BitVec.toNat v)) s [] ∧
      (s.genInSpan (bits (BitVec.toNat v) 17 0)).isEmpty = true) ∧
    (∃ (v : Word) (c : RegCmd) (s : State), Accepted opRegWrite 513 (writeReq c R.SWT_CFG (BitVec.toNat v)) s []) ∧
    (∃ (s : State), s.swt.begun = true) ∧
    (∃ (s : State), s.swt.begun = false ∧ s.fld R.TMU_STAT_VALID = 1) :=
  ⟨⟨50, c, on, accepted (by decide +kernel)⟩,
    ⟨229376, c, on, accepted (by decide +kernel), by decide +kernel⟩,
    ⟨2, c, on, accepted (by decide +kernel)⟩,
    ⟨on.setSwt { on.swt with begun := true }, by decide +kernel⟩,
    ⟨on.setFld R.TMU_STAT_VALID 1, by decide +kernel⟩⟩

/-- The hypotheses of `PortsStartAndStop` can be met, clause by clause. -/
theorem meets_ports_start_and_stop :
    (∃ (p : Fin 8) (s : State), s.portSt ↑p = FnState.starting ∧ (s.port ↑p).disHeld = false ∧ p ≠ 7) ∧
    (∃ (s : State), s.portSt 7 = FnState.starting ∧ (s.port 7).disHeld = false) ∧
    (∃ (p : Fin 8) (s : State), s.portSt ↑p = FnState.starting ∧ (s.port ↑p).disHeld = true ∧ p ≠ 7) ∧
    (∃ (p : Fin 8) (s : State), s.portSt ↑p = FnState.starting ∧ (s.port ↑p).disHeld = false) ∧
    (∃ (p : Fin 8) (s : State), s.portSt ↑p = FnState.starting ∧ (s.port ↑p).disHeld = true) ∧
    (∃ (p : Fin 8) (s : State), s.portSt ↑p = FnState.stopping ∧ (s.port ↑p).disHeld = false ∧ p ≠ 7) ∧
    (∃ (p : Fin 8) (s : State), s.portSt ↑p = FnState.on ∧ (p = 7 → s.fld (R.MAC_PHY_AUTO 7) = 0)) ∧
    (∃ (p : Fin 8) (s : State), s.portSt ↑p = FnState.on ∧ s.fld (R.MAC_STAT_LINK ↑p) = 1) ∧
    (∃ (p : Fin 8) (s : State), s.portSt ↑p = FnState.stopping ∧ (s.port ↑p).idle = true ∧ s.fld (R.MAC_STAT_PEND_EN ↑p) = 0) ∧
    (∃ (p : Fin 8) (s : State), s.portSt ↑p = FnState.stopping ∧ (s.port ↑p).idle = true ∧ s.fld (R.MAC_STAT_PEND_EN ↑p) = 1) ∧
    (∃ (s : State), s.portSt 7 = FnState.on ∧ s.fld (R.MAC_PHY_AUTO 7) = 1) :=
  ⟨⟨6, on.setFld (R.MAC_STAT_STATE 6) 1, by decide +kernel⟩,
    ⟨on.setFld (R.MAC_STAT_STATE 7) 1, by decide +kernel⟩,
    ⟨6, (on.setFld (R.MAC_STAT_STATE 6) 1).setPort 6 { on.port 6 with disHeld := true }, by decide +kernel⟩,
    ⟨7, on.setFld (R.MAC_STAT_STATE 7) 1, by decide +kernel⟩,
    ⟨7, (on.setFld (R.MAC_STAT_STATE 7) 1).setPort 7 { on.port 7 with disHeld := true }, by decide +kernel⟩,
    ⟨0, on.setFld (R.MAC_STAT_STATE 0) 3, by decide +kernel⟩,
    ⟨7, (on.setFld (R.MAC_STAT_STATE 7) 2).setFld (R.MAC_PHY_AUTO 7) 0, by decide +kernel⟩,
    ⟨7, (on.setFld (R.MAC_STAT_STATE 7) 2).setFld (R.MAC_STAT_LINK 7) 1, by decide +kernel⟩,
    ⟨7, on.setFld (R.MAC_STAT_STATE 7) 3, by decide +kernel⟩,
    ⟨0, (on.setFld (R.MAC_STAT_STATE 0) 3).setFld (R.MAC_STAT_PEND_EN 0) 1, by decide +kernel⟩,
    ⟨(on.setFld (R.MAC_STAT_STATE 7) 2).setFld (R.MAC_PHY_AUTO 7) 1, by decide +kernel⟩⟩

/-- A port that is ON with its link up. -/
def up (p : Nat) : State := (on.setFld (R.MAC_STAT_STATE p) 2).setFld (R.MAC_STAT_LINK p) 1

/-- A frame of an EtherType, from address 5. -/
def eth (t : Nat) (b : Bytes) : Bytes := ethFrame 9 5 [] t b

/-- A frame waits in the buffer of a class. -/
def rx (s : State) (p n : Nat) (b : Bytes) : State := s.setPort p { s.port p with rxq := kset (s.port p).rxq n [⟨b, 0⟩] }

/-- A frame to be sent. -/
def txf (n tc : Nat) : TxFrame := ⟨zeros n, tc, false, false, false, none, .none, false, none⟩

/-- A UDP packet to port 5004 that carries `b`. -/
def pkt (b : Bytes) : Pkt := ⟨none, none, 4, 1, 2, 7, 5004, b⟩

/-- Its frame. -/
def udp (b : Bytes) : Bytes := eth 0x0800 (ip4Packet 0 0 64 17 1 2 (be 2 7 ++ be 2 5004 ++ be 2 (8 + b.length) ++ be 2 0 ++ b))

/-- An RTP packet of a payload type. -/
def rtp (pt : Nat) : Bytes := be 1 0x80 ++ be 1 pt ++ be 2 7 ++ be 4 160 ++ be 4 99 ++ zeros 4

/-- The flow entry of leg 3 for these packets. -/
def flow : FlowEnt := ⟨3, 0, false, 0, none, none, 4, 2, 5004, 0, 0, 0, none, 0, none⟩

/-- A part with that flow, whose leg 3 is in a state. -/
def flows (st : FnState) (f : FlowEnt) : State := (on.setPke { on.pke with flows := [f] }).setLeg 3 { Leg.init with st := st }

/-- A QCP frame of session number 256 (mailbox 0, generation 1) with a sequence number, a tag and a payload. -/
def qcp (seq tag : Nat) (b : Bytes) : Bytes :=
  let h := be 1 0x11 ++ be 1 0 ++ be 2 256 ++ be 4 seq ++ be 2 0x0281 ++ be 2 b.length ++ be 4 0
  eth 0x88B5 (h ++ be 16 tag ++ b)

/-- The session that these frames belong to. -/
def sess1 : Session := { Session.init with st := .on, role := 2, gen := 1, mac := 5, expect := 7 }

/-- The same session once it has answered sequence number 7. -/
def sess2 : Session := { sess1 with expect := 8, replies := [⟨7, [zeros 40], 40⟩] }

/-- A session in STARTING that awaits its proof. -/
def proving : State := on.setSess 0 { Session.init with st := .starting, gen := 1, expect := 1 }

/-- The proof of that session. -/
def proof : Bytes :=
  be 32 79067805091354942776498174840091747059732849519629873857123936855650761138675

/-- A muzzle frame (from its version byte on) that closes the media gate until opened, with the counter 1 of key 0, whose bytes are zero. -/
def muzzle : Bytes :=
  let h := be 1 0x1F ++ be 3 0 ++ be 6 1 ++ be 2 0x10 ++ be 4 0
  let b := be 1 2 ++ zeros 15
  h ++ be 8 (sipHash24 (zeros 16) (h ++ b)).toNat ++ zeros 8 ++ b

/-- An ARP request for address 1. -/
def arp : Bytes := eth 0x0806 (be 2 1 ++ be 2 0x0800 ++ be 1 6 ++ be 1 4 ++ be 2 1 ++ be 6 5 ++ be 4 2 ++ zeros 6 ++ be 4 1)

/-- A part whose leg 3 sends from address 1, and that request waits. -/
def arpLeg : State :=
  (on.setLeg 3 { Leg.init with st := .on, cfg := { Leg.init.cfg with egress := some ⟨0, 0, 9, [], 4, 2, 1, 0, 64, 5004, 5004⟩ } }).setPke
    { on.pke with slowQ := [(0, arp)] }

/-- The hypotheses of `PortsAreEnabledAndDisabled` can be met, clause by clause. -/
theorem meets_ports_are_enabled_and_disabled :
    (∃ (q : Req) (s : State) (plan : List ℕ), Accepted opPortEnable 1793 q s plan ∧ s.portSt (u8 q.payload 0) = FnState.off ∧ Room q s) ∧
    (∃ (q : Req) (s : State) (plan : List ℕ), Accepted opPortDisable 1794 q s plan ∧ s.portSt (u8 q.payload 0) = FnState.on ∧ Room q s) ∧
    (∃ (q : Req) (s : State) (plan : List ℕ), Accepted opPortStatus 1922 q s plan) ∧
    (∃ (p : Fin 8) (v : Word) (c : RegCmd) (s : State), Accepted opRegWrite 513 (writeReq c (R.MAC_CFG ↑p) (BitVec.toNat v)) s []) ∧
    (∃ (p : Fin 8) (c : RegCmd) (s : State), Accepted opRegWrite 513 (writeReq c (R.MAC_CTL ↑p) 1) s []) ∧
    (∃ (p : Fin 8) (c : RegCmd) (s : State), Accepted opRegWrite 513 (writeReq c (R.MAC_CTL ↑p) 2) s []) ∧
    (∃ (p : Fin 8) (tx : Bool) (c : RegCmd) (s : State), Accepted opRegRead 641 (readReq c (if tx = true then R.MAC_TX_BYTE_CNT_LO ↑p else R.MAC_RX_BYTE_CNT_LO ↑p)) s []) ∧
    (∃ (s : State), s.mode ≠ Mode.reset) :=
  ⟨⟨q [7, 0, 0, 0], on, [], accepted (by decide +kernel), by decide +kernel, ⟨by decide +kernel, by decide +kernel⟩⟩,
    ⟨q [0, 0, 0, 0], up 0, [], accepted (by decide +kernel), by decide +kernel, ⟨by decide +kernel, by decide +kernel⟩⟩,
    ⟨q [7, 0, 0, 0], on, [], accepted (by decide +kernel)⟩,
    ⟨7, 2957, c, on, accepted (by decide +kernel)⟩,
    ⟨0, c, up 0, accepted (by decide +kernel)⟩,
    ⟨7, c, up 7, accepted (by decide +kernel)⟩,
    ⟨7, true, c, on, accepted (by decide +kernel)⟩,
    ⟨on, by decide +kernel⟩⟩

/-- A whole frame from the wire of a port. -/
def wire (p : Fin 8) (b : Bytes) : RxWire := ⟨p, b, true, false, 0, false, 0, 0⟩

/-- A port that is ON and takes frames of 64 bytes and no longer ones. -/
def short (p : Nat) : State := (up p).setPort p { (up p).port p with maxF := some 64 }

/-- A receive ring of S0 without buffers, and one with a buffer of 64 bytes. -/
def rxRing : DRing := { DRing.init with en := true, rxPorts := [7] }

def rxBufs : DRing := { rxRing with descs := [⟨0, be 1 4 ++ zeros 3 ++ be 4 64 ++ zeros 16 ++ be 1 7 ++ zeros 7, 0, 0, St.ok, 0, 0, 0, false, none, false, [], none⟩] }

/-- The hypotheses of `FramesAreReceived` can be met, clause by clause. -/
theorem meets_frames_are_received :
    (∃ (w : RxWire) (s : State), s.portSt ↑w.port ≠ FnState.on) ∧
    (∃ (w : RxWire) (s : State), s.portSt ↑w.port = FnState.on ∧ w.bytes.length + 4 ≤ 63) ∧
    (∃ (w : RxWire) (s : State), s.portSt ↑w.port = FnState.on ∧ 63 < w.bytes.length + 4 ∧ s.portMax ↑w.port < w.bytes.length + 4 ∧ w.cut = false) ∧
    (∃ (w : RxWire) (s : State), s.portSt ↑w.port = FnState.on ∧ 63 < w.bytes.length + 4 ∧ s.portMax ↑w.port < w.bytes.length + 4 ∧ s.ringOf ↑w.port = none) ∧
    (∃ (w : RxWire) (s : State), s.portSt ↑w.port = FnState.on ∧ 63 < w.bytes.length + 4 ∧ w.bytes.length + 4 ≤ s.portMax ↑w.port ∧ w.fcsOk = false) ∧
    (∃ (w : RxWire) (s : State), s.portSt ↑w.port = FnState.on ∧ 63 < w.bytes.length + 4 ∧ w.bytes.length + 4 ≤ s.portMax ↑w.port ∧ w.fcsOk = true ∧
      s.isMuzzle (↑w.port) w.bytes = true) ∧
    (∃ (w : RxWire) (s : State), s.portSt ↑w.port = FnState.on ∧ 63 < w.bytes.length + 4 ∧ w.bytes.length + 4 ≤ s.portMax ↑w.port ∧ w.fcsOk = true ∧
      s.isMuzzle (↑w.port) w.bytes = false ∧ (parseEth w.bytes).etype = 34824 ∧ s.fld (R.MAC_FC_MODE ↑w.port) = 0) ∧
    (∃ (w : RxWire) (s : State), s.portSt ↑w.port = FnState.on ∧ 63 < w.bytes.length + 4 ∧ w.bytes.length + 4 ≤ s.portMax ↑w.port ∧ w.fcsOk = true ∧
      s.isMuzzle (↑w.port) w.bytes = false ∧ (parseEth w.bytes).etype = 34824 ∧ num w.bytes (parseEth w.bytes).off 2 = 257 ∧
      s.fld (R.MAC_FC_MODE ↑w.port) = 1 ∧ ((s.port ↑w.port).pauseUntil.map (·.1)).Pairwise (· < ·)) ∧
    (∃ (w : RxWire) (s : State), s.portSt ↑w.port = FnState.on ∧ 63 < w.bytes.length + 4 ∧ w.bytes.length + 4 ≤ s.portMax ↑w.port ∧ w.fcsOk = true ∧
      s.isMuzzle (↑w.port) w.bytes = false ∧ (parseEth w.bytes).etype ≠ 34824 ∧
      s.fld (R.MAC_IBUF_KIB (↑w.port) (s.classify (↑w.port) w.bytes)) * 1024 < s.fill (↑w.port) (s.classify (↑w.port) w.bytes) + (w.bytes.length + 4)) ∧
    (∃ (w : RxWire) (s : State), s.portSt ↑w.port = FnState.on ∧ 63 < w.bytes.length + 4 ∧ w.bytes.length + 4 ≤ s.portMax ↑w.port ∧ w.fcsOk = true ∧
      s.isMuzzle (↑w.port) w.bytes = false ∧ (parseEth w.bytes).etype ≠ 34824 ∧ s.ringOf ↑w.port = none ∧
      s.fill (↑w.port) (s.classify (↑w.port) w.bytes) + (w.bytes.length + 4) ≤ s.fld (R.MAC_IBUF_KIB (↑w.port) (s.classify (↑w.port) w.bytes)) * 1024) ∧
    (∃ (w : RxWire) (s : State), s.portSt ↑w.port = FnState.on ∧ 63 < w.bytes.length + 4 ∧ w.bytes.length + 4 ≤ s.portMax ↑w.port ∧ w.fcsOk = true ∧
      s.isMuzzle (↑w.port) w.bytes = false ∧ (parseEth w.bytes).etype ≠ 34824 ∧
      s.fill (↑w.port) (s.classify (↑w.port) w.bytes) + (w.bytes.length + 4) ≤ s.fld (R.MAC_IBUF_KIB (↑w.port) (s.classify (↑w.port) w.bytes)) * 1024 ∧
      s.classify ↑w.port w.bytes ≠ 7 ∧ s.ringOf ↑w.port = some (2, rxRing) ∧ s.freeBufs 2 rxRing 7 = [] ∧ s.grn.taps = []) ∧
    (∃ (w : RxWire) (s : State), s.portSt ↑w.port = FnState.on ∧ 63 < w.bytes.length + 4 ∧ w.bytes.length + 4 ≤ s.portMax ↑w.port ∧ w.fcsOk = true ∧
      s.isMuzzle (↑w.port) w.bytes = false ∧ (parseEth w.bytes).etype ≠ 34824 ∧
      s.fill (↑w.port) (s.classify (↑w.port) w.bytes) + (w.bytes.length + 4) ≤ s.fld (R.MAC_IBUF_KIB (↑w.port) (s.classify (↑w.port) w.bytes)) * 1024 ∧
      s.classify ↑w.port w.bytes ≠ 7 ∧ s.ringOf ↑w.port = some (2, rxBufs) ∧ s.freeBufs 2 rxBufs 7 ≠ []) :=
  ⟨⟨wire 0 [], on, by decide +kernel⟩,
    ⟨wire 0 (zeros 59), up 0, by decide +kernel⟩,
    ⟨wire 0 (zeros 61), short 0, by decide +kernel⟩,
    ⟨{ wire 0 (zeros 61) with cut := true }, short 0, by decide +kernel⟩,
    ⟨{ wire 0 (zeros 60) with fcsOk := false }, short 0, by decide +kernel⟩,
    ⟨wire 0 (eth 0x88B5 ([0x1F] ++ zeros 45)), (short 0).setFld R.QCP_MZ_CFG_PORTS 1, by decide +kernel⟩,
    ⟨wire 0 (eth 0x8808 (zeros 46)), (short 0).setFld (R.MAC_FC_MODE 0) 0, by decide +kernel⟩,
    ⟨wire 0 (eth 0x8808 (be 2 257 ++ zeros 44)), (short 0).setFld (R.MAC_FC_MODE 0) 1, by decide +kernel⟩,
    ⟨wire 0 (zeros 60), ((short 0).setFld (R.MAC_IBUF_KIB 0 5) 0).setFld (R.MAC_IBUF_KIB 0 6) 0, by decide +kernel⟩,
    ⟨wire 0 (zeros 60), short 0, by decide +kernel⟩,
    ⟨wire 7 (zeros 60), (up 7).setDring 2 rxRing, by decide +kernel⟩,
    ⟨wire 7 (zeros 60), (up 7).setDring 2 rxBufs, by decide +kernel⟩⟩

/-- The hypotheses of `PausesEndAndAreRenewed` can be met, clause by clause. -/
theorem meets_pauses_end_and_are_renewed :
    (∃ (p : Fin 8) (tc : Fin 8) (s : State) (u : ℕ), kget (s.port ↑p).pauseUntil ↑tc = some u ∧ u ≤ s.loc) ∧
    (∃ (p : Fin 8) (tc : Fin 8) (s : State) (u : ℕ), kget (s.port ↑p).pauseUntil ↑tc = some u ∧ s.loc < u) ∧
    (∃ (p : Fin 8) (s : State), s.fld (R.MAC_PAUSED_XOFF ↑p) ≠ 0 ∧ (s.port ↑p).refreshAt ≤ s.loc ∧
      (s.fld (R.MAC_FC_MODE ↑p) = 1 ∨ s.fld (R.MAC_FC_MODE ↑p) = 2)) ∧
    (∃ (p : Nat), p < 7) ∧
    (∃ (p : Fin 8) (s : State), s.fld (R.MAC_PAUSED_XOFF ↑p) = 0 ∨ s.loc < (s.port ↑p).refreshAt) :=
  ⟨⟨7, 7, (up 7).setPort 7 { (up 7).port 7 with pauseUntil := [(7, 0)] }, 0, by decide +kernel, by decide +kernel⟩,
    ⟨7, 0, (up 7).setPort 7 { (up 7).port 7 with pauseUntil := [(0, 1)] }, 1, by decide +kernel, by decide +kernel⟩,
    ⟨6, ((up 6).setFld (R.MAC_PAUSED_XOFF 6) 128).setFld (R.MAC_FC_MODE 6) 2, by decide +kernel, by decide +kernel, by decide +kernel⟩,
    ⟨6, by decide⟩,
    ⟨7, on, by decide +kernel⟩⟩

/-- The hypotheses of `FramesAreSent` can be met, clause by clause. -/
theorem meets_frames_are_sent :
    (∃ (p : Fin 8) (s : State), s.portSt ↑p = FnState.on ∧ s.fld (R.MAC_STAT_LINK ↑p) = 1 ∧ (s.port ↑p).wire = none ∧ s.qcp.gates = [] ∧
      (s.port ↑p).fcDue ≠ 0 ∧ s.fld (R.MAC_FC_MODE ↑p) ≠ 0) ∧
    (∃ (p : Fin 8) (n : Fin 8) (s : State) (f : TxFrame) (r : List TxFrame), s.portSt ↑p = FnState.on ∧ s.fld (R.MAC_STAT_LINK ↑p) = 1 ∧
      (s.port ↑p).wire = none ∧ s.qcp.gates = [] ∧ (s.port ↑p).fcDue = 0 ∧ p ≠ 7 ∧ kgetD (s.port ↑p).txq ↑n [] = f :: r ∧
      tb (s.fld (R.MAC_PAUSED_PEER ↑p)) ↑n = false ∧ (∀ (m : Fin 8),
      n < m → kgetD (s.port ↑p).txq ↑m [] = [] ∨ tb (s.fld (R.MAC_PAUSED_PEER ↑p)) ↑m = true)) ∧
    (∃ (n : Fin 8) (s : State) (f : TxFrame) (r : List TxFrame), s.portSt 7 = FnState.on ∧ s.fld (R.MAC_STAT_LINK 7) = 1 ∧
      (s.port 7).wire = none ∧ s.qcp.gates = [] ∧ s.fld (R.MAC_FC_MODE 7) = 0 ∧ s.fld (R.MAC_STAT_DUPLEX 7) = 0 ∧ kgetD (s.port 7).txq ↑n [] = f :: r ∧
      tb (s.fld (R.MAC_PAUSED_PEER 7)) ↑n = false ∧ (∀ (m : Fin 8), n < m → kgetD (s.port 7).txq ↑m [] = [] ∨ tb (s.fld (R.MAC_PAUSED_PEER 7)) ↑m = true)) ∧
    (∃ (p : Fin 8) (n : Fin 8) (s : State) (f : TxFrame), s.portSt ↑p = FnState.on ∧ s.fld (R.MAC_STAT_LINK ↑p) = 0 ∧ (s.port ↑p).wire = none ∧
      (s.port ↑p).txq = [(↑n, [f])] ∧ f.origin = TxOrigin.none) ∧
    (∃ (p : Fin 8) (tc : Fin 8) (s : State) (f : TxFrame) (r : List TxFrame), kgetD (s.port ↑p).waiting ↑tc [] = f :: r ∧
      txBytes (kgetD (s.port ↑p).txq ↑tc []) + (f.bytes.length + 4) ≤ 131072) ∧
    (∃ (p : Fin 8) (tc : Fin 8) (s : State), kgetD (s.port ↑p).waiting ↑tc [] = []) :=
  ⟨⟨6, ((up 6).setPort 6 { (up 6).port 6 with fcDue := 1 }).setFld (R.MAC_FC_MODE 6) 1, by decide +kernel⟩,
    ⟨6, 7, (up 6).setPort 6 { (up 6).port 6 with txq := [(7, [txf 60 7])] }, txf 60 7, [], by decide +kernel⟩,
    ⟨0, (((up 7).setFld (R.MAC_STAT_DUPLEX 7) 0).setFld (R.MAC_FC_MODE 7) 0).setPort 7 { (up 7).port 7 with txq := [(0, [txf 60 0])], fcDue := 1 }, txf 60 0,
      [], by decide +kernel⟩,
    ⟨0, 7, ((up 0).setFld (R.MAC_STAT_LINK 0) 0).setPort 0 { (up 0).port 0 with txq := [(7, [txf 60 7])] }, txf 60 7, by decide +kernel⟩,
    ⟨0, 7, (up 0).setPort 0 { (up 0).port 0 with waiting := [(7, [txf 60 7])] }, txf 60 7, [], by decide +kernel⟩,
    ⟨7, 7, on, by decide +kernel⟩⟩

/-- S0 in half duplex with a frame on the wire. -/
def half (n : Nat) (b : Option Nat) : State :=
  ((up 7).setFld (R.MAC_STAT_DUPLEX 7) 0).setPort 7 { (up 7).port 7 with wire := some (txf 60 0), attempts := n, backoff := b }

/-- The hypotheses of `CollisionsBackOff` can be met, clause by clause. -/
theorem meets_collisions_back_off :
    (∃ (n : ℕ) (s : State) (f : TxFrame), (s.port 7).wire = some f ∧ s.fld (R.MAC_STAT_DUPLEX 7) = 0 ∧ (s.port 7).backoff = none ∧ n ≤ 512 ∧
      (s.port 7).attempts < 15) ∧
    (∃ (n : ℕ) (s : State) (f : TxFrame), (s.port 7).wire = some f ∧ s.fld (R.MAC_STAT_DUPLEX 7) = 0 ∧ (s.port 7).backoff = none ∧ 512 < n) ∧
    (∃ (n : ℕ) (s : State) (f : TxFrame), (s.port 7).wire = some f ∧ s.fld (R.MAC_STAT_DUPLEX 7) = 0 ∧ (s.port 7).backoff = none ∧ n ≤ 512 ∧
      15 ≤ (s.port 7).attempts) ∧
    (∃ (s : State), (s.port 7).wire = none ∨ s.fld (R.MAC_STAT_DUPLEX 7) ≠ 0 ∨ (s.port 7).backoff ≠ none) ∧
    (∃ (s : State) (t : Nat) (f : TxFrame), (s.port 7).backoff = some t ∧ (s.port 7).wire = some f ∧ s.loc < t) ∧
    (∃ (s : State) (t : Nat) (f : TxFrame), (s.port 7).backoff = some t ∧ (s.port 7).wire = some f ∧ t ≤ s.loc ∧ s.portSt 7 = FnState.on ∧
      s.fld (R.MAC_STAT_LINK 7) = 1 ∧ s.meetsGate 7 f = false) ∧
    (∃ (s : State) (t : Nat) (f : TxFrame), (s.port 7).backoff = some t ∧ (s.port 7).wire = some f ∧ t ≤ s.loc ∧ s.fld (R.MAC_STAT_LINK 7) = 0) ∧
    (∃ (s : State) (t : Nat) (f : TxFrame), (s.port 7).backoff = some t ∧ (s.port 7).wire = some f ∧ t ≤ s.loc ∧ s.portSt 7 = FnState.on ∧
      s.fld (R.MAC_STAT_LINK 7) = 1 ∧ s.meetsGate 7 f = true) :=
  ⟨⟨512, half 14 none, txf 60 0, by decide +kernel⟩,
    ⟨513, half 14 none, txf 60 0, by decide +kernel⟩,
    ⟨512, half 15 none, txf 60 0, by decide +kernel⟩,
    ⟨on, by decide +kernel⟩,
    ⟨half 1 (some 1), 1, txf 60 0, by decide +kernel⟩,
    ⟨half 1 (some 0), 0, txf 60 0, by decide +kernel⟩,
    ⟨(half 1 (some 0)).setFld (R.MAC_STAT_LINK 7) 0, 0, txf 60 0, by decide +kernel⟩,
    ⟨(half 1 (some 0)).setQcp { on.qcp with gates := [(Gate.code (.cls 7 0), ⟨0, none⟩)] }, 0, txf 60 0, by decide +kernel⟩⟩

/-- The hypotheses of `MdioFramesRunInTurn` can be met, clause by clause. -/
theorem meets_mdio_frames_run_in_turn :
    (∃ (v : Word) (s : State), s.fld R.MAC_MDIO_STAT_BUSY = 0 ∧ tb (BitVec.toNat v) 31 = true) ∧
    (∃ (v : Word) (s : State), s.fld R.MAC_MDIO_STAT_BUSY = 1 ∨ tb (BitVec.toNat v) 31 = false) ∧
    (∃ (s : State), s.fld R.MAC_MDIO_STAT_BUSY = 1 ∧ s.mdio.own = false ∧ s.mdio.jobs = []) ∧
    (∃ (s : State) (j : MdioJob) (js : List MdioJob) (w : ℕ), s.fld R.MAC_MDIO_STAT_BUSY = 1 ∧ s.mdio.own = true ∧ s.mdio.jobs = j :: js ∧
      j.words = [w] ∧ mdioReads (s.reg R.MAC_MDIO_CMD) = true ∧ (s.sess j.mbox).st = FnState.on ∧ (s.sess j.mbox).defer = true ∧
      (s.sess j.mbox).out = []) ∧
    (∃ (q : Req) (s : State) (plan : List ℕ), Accepted opPortMdioWrite 1795 q s plan ∧ Room q s) ∧
    (∃ (q : Req) (s : State) (plan : List ℕ), Accepted opPortMdioRead 1921 q s plan) :=
  ⟨⟨0x80000000, on, by decide +kernel, by decide +kernel⟩,
    ⟨0x80000000, (on.setFld R.MAC_MDIO_STAT_BUSY 1), by decide +kernel⟩,
    ⟨{ (on.setFld R.MAC_MDIO_STAT_BUSY 1) with mdio := ⟨false, []⟩ }, by decide +kernel, by decide +kernel, by decide +kernel⟩,
    ⟨({ (on.setFld R.MAC_MDIO_STAT_BUSY 1).setReg R.MAC_MDIO_CMD 0x20000000 with mdio := ⟨true, [⟨0, 3, 1921, false, [0]⟩]⟩ } : State).setSess 0 { on.sess 0 with defer := true },
      ⟨0, 3, 1921, false, [0]⟩, [], 0, by decide +kernel⟩,
    ⟨q [22, 31, 31, 0, 0, 0, 0, 0], on, [], accepted (by decide +kernel), ⟨by decide +kernel, by decide +kernel⟩⟩,
    ⟨q [22, 31, 31, 0, 0, 0, 0, 0], on, [], accepted (by decide +kernel)⟩⟩

/-- An ordinary clock with port 6 enabled, whose servo is ON; a peer-delay answer waits for the PTP stack. -/
def ptpS : State :=
  (on.setTmu { on.tmu with ptpRole := [1, 0, 2, 44] ++ zeros 16, ptpPorts := [(6, [6, 1] ++ zeros 34)], srv := { on.tmu.srv with st := .on } }).setPke
    { on.pke with ptpQ := [(6, ⟨eth 0x88F7 ([3, 2, 0, 0, 44] ++ zeros 41), 0⟩)] }

/-- The hypotheses of `FramesAreSortedToFlows` can be met, clause by clause. -/
theorem meets_frames_are_sorted_to_flows :
    (∃ (p : Fin 8) (n : Fin 7) (s : State), kgetD (s.port ↑p).rxq ↑n [] = []) ∧
    (∃ (p : Fin 8) (n : Fin 7) (s : State), s.bpOn ↑p ↑n = true) ∧
    (∃ (p : Fin 8) (s : State), s.ringOf ↑p ≠ none) ∧
    (∃ (p : Fin 8) (n : Fin 7) (s : State) (f : RxFrame) (r : List RxFrame), s.bpOn ↑p ↑n = false ∧ s.ringOf ↑p = none ∧ kgetD (s.port ↑p).rxq ↑n [] = f :: r ∧
      s.isTandem ↑p = false ∧ (parseEth f.bytes).etype ≠ 34997 ∧ parsePkt (s.flag R.PKE_CFG_QINQ) f.bytes = Parsed.bad) ∧
    (∃ (p : Fin 8) (n : Fin 7) (s : State) (f : RxFrame) (r : List RxFrame), s.bpOn ↑p ↑n = false ∧ s.ringOf ↑p = none ∧ kgetD (s.port ↑p).rxq ↑n [] = f :: r ∧
      s.isTandem ↑p = false ∧ (parseEth f.bytes).etype ≠ 34997 ∧ parsePkt (s.flag R.PKE_CFG_QINQ) f.bytes = Parsed.csum) ∧
    (∃ (p : Fin 8) (n : Fin 7) (s : State) (f : RxFrame) (r : List RxFrame), s.bpOn ↑p ↑n = false ∧ s.ringOf ↑p = none ∧ kgetD (s.port ↑p).rxq ↑n [] = f :: r ∧
      s.isTandem ↑p = false ∧ (parseEth f.bytes).etype ≠ 34997 ∧ parsePkt (s.flag R.PKE_CFG_QINQ) f.bytes = Parsed.otherIp ∧ s.bridgeOf ↑p = none ∧
      isPtp f.bytes (parseEth f.bytes) = false ∧ s.fld R.PKE_CFG_MISS ≠ 1) ∧
    (∃ (p : Fin 8) (n : Fin 7) (s : State) (f : RxFrame) (r : List RxFrame), s.bpOn ↑p ↑n = false ∧ s.ringOf ↑p = none ∧ kgetD (s.port ↑p).rxq ↑n [] = f :: r ∧
      s.isTandem ↑p = false ∧ (parseEth f.bytes).etype ≠ 34997 ∧ parsePkt (s.flag R.PKE_CFG_QINQ) f.bytes = Parsed.notIp ∧ s.bridgeOf ↑p = none ∧
      isPtp f.bytes (parseEth f.bytes) = false) ∧
    (∃ (p : Fin 8) (n : Fin 7) (s : State) (f : RxFrame) (r : List RxFrame) (k : Pkt) (i : ℕ) (e : FlowEnt), s.bpOn ↑p ↑n = false ∧ s.ringOf ↑p = none ∧
      kgetD (s.port ↑p).rxq ↑n [] = f :: r ∧ s.isTandem ↑p = false ∧ (parseEth f.bytes).etype ≠ 34997 ∧
      parsePkt (s.flag R.PKE_CFG_QINQ) f.bytes = Parsed.udp k ∧ lookupFlow s.pke.flows (↑p) k = some i ∧ s.pke.flows[i]? = some e ∧
      (s.leg e.leg).st ≠ FnState.on) ∧
    (∃ (p : Fin 8) (n : Fin 7) (s : State) (f : RxFrame) (r : List RxFrame) (k : Pkt) (i : ℕ) (e : FlowEnt), s.bpOn ↑p ↑n = false ∧ s.ringOf ↑p = none ∧
      kgetD (s.port ↑p).rxq ↑n [] = f :: r ∧ s.isTandem ↑p = false ∧ (parseEth f.bytes).etype ≠ 34997 ∧
      parsePkt (s.flag R.PKE_CFG_QINQ) f.bytes = Parsed.udp k ∧ lookupFlow s.pke.flows (↑p) k = some i ∧ s.pke.flows[i]? = some e ∧
      (s.leg e.leg).st = FnState.on ∧ e.kind = 0 ∧ s.srcOk e k = false) ∧
    (∃ (p : Fin 8) (n : Fin 7) (s : State) (f : RxFrame) (r : List RxFrame) (k : Pkt) (i : ℕ) (e : FlowEnt) (x : RtpIn) (c : ℕ), s.bpOn ↑p ↑n = false ∧ s.ringOf ↑p = none ∧
      kgetD (s.port ↑p).rxq ↑n [] = f :: r ∧ s.isTandem ↑p = false ∧ (parseEth f.bytes).etype ≠ 34997 ∧
      parsePkt (s.flag R.PKE_CFG_QINQ) f.bytes = Parsed.udp k ∧ lookupFlow s.pke.flows (↑p) k = some i ∧ s.pke.flows[i]? = some e ∧
      (s.leg e.leg).st = FnState.on ∧ e.kind = 0 ∧ s.srcOk e k = true ∧ (s.leg e.leg).rtpIn k.pay = some x ∧ s.rtpFault (s.leg e.leg) x = some c ∧
      c ≠ R.PKE_AUTH_CNT) ∧
    (∃ (p : Fin 8) (n : Fin 7) (s : State) (f : RxFrame) (r : List RxFrame) (k : Pkt) (i : ℕ) (e : FlowEnt) (x : RtpIn), s.bpOn ↑p ↑n = false ∧ s.ringOf ↑p = none ∧
      kgetD (s.port ↑p).rxq ↑n [] = f :: r ∧ s.isTandem ↑p = false ∧ (parseEth f.bytes).etype ≠ 34997 ∧
      parsePkt (s.flag R.PKE_CFG_QINQ) f.bytes = Parsed.udp k ∧ lookupFlow s.pke.flows (↑p) k = some i ∧ s.pke.flows[i]? = some e ∧
      (s.leg e.leg).st = FnState.on ∧ e.kind = 0 ∧ s.srcOk e k = true ∧ (s.leg e.leg).rtpIn k.pay = some x ∧ s.rtpFault (s.leg e.leg) x = none ∧
      (s.leg e.leg).cfg.pts.2.2 = 255) ∧
    (∃ (s : State) (p : ℕ) (b : Bytes) (r : List (ℕ × Bytes)), s.pke.slowQ = (p, b) :: r ∧ s.slowAnswer b = none) ∧
    (∃ (s : State) (p : ℕ) (b : Bytes) (a : Bytes) (r : List (ℕ × Bytes)), s.pke.slowQ = (p, b) :: r ∧ s.slowAnswer b = some a) ∧
    (∃ (s : State), s.pke.ptpQ = []) ∧
    (∃ (s : State) (p : Nat) (f : RxFrame) (q : List (Nat × RxFrame)), s.pke.ptpQ = (p, f) :: q ∧ s.ptpRole = 0) ∧
    (∃ (s : State) (p : Nat) (f : RxFrame) (q : List (Nat × RxFrame)) (o : Nat), s.pke.ptpQ = (p, f) :: q ∧ s.ptpRole ≠ 0 ∧
      u8 (kgetD s.tmu.ptpPorts p []) 1 = 1 ∧ p < 7 ∧
      (if udpDst f.bytes (parseEth f.bytes) = some 320 then (udpAt f.bytes (parseEth f.bytes)).map (· + 8) else ptpOff f.bytes (parseEth f.bytes)) = some o ∧
      ptpVersion (u8 f.bytes (o + 1)) = true ∧ u8 f.bytes (o + 4) = u8 s.tmu.ptpRole 3 ∧ u8 f.bytes o % 16 = 3 ∧
      s.tmu.srv.st = FnState.on ∧ s.tmu.ofs.length < 16) ∧
    (∃ (raw : BitVec 48) (s : State), -(2 ^ 47) ≤ sgn 48 raw.toNat - sgn 32 (s.reg (R.TMU_ASYM 6)) * 256 ∧
      sgn 48 raw.toNat - sgn 32 (s.reg (R.TMU_ASYM 6)) * 256 < 2 ^ 47) :=
  ⟨⟨7, 6, on, by decide +kernel⟩,
    ⟨0, 6, on.setKnl { on.knl with bp := [6] }, by decide +kernel⟩,
    ⟨7, on.setDring 2 rxRing, by decide +kernel⟩,
    ⟨0, 6, rx (on) 0 6 (eth 0x0800 (zeros 46)), ⟨eth 0x0800 (zeros 46), 0⟩, [], by decide +kernel⟩,
    ⟨0, 6, rx (on) 0 6 (eth 0x86DD (be 1 0x60 ++ zeros 3 ++ be 2 8 ++ be 1 17 ++ be 1 64 ++ zeros 32 ++ be 4 0 ++ be 2 8 ++ be 2 0)),
      ⟨eth 0x86DD (be 1 0x60 ++ zeros 3 ++ be 2 8 ++ be 1 17 ++ be 1 64 ++ zeros 32 ++ be 4 0 ++ be 2 8 ++ be 2 0), 0⟩, [], by decide +kernel⟩,
    ⟨0, 6, rx (on) 0 6 (eth 0x0800 (ip4Packet 0 0 64 6 1 2 (zeros 20))), ⟨eth 0x0800 (ip4Packet 0 0 64 6 1 2 (zeros 20)), 0⟩, [], by decide +kernel⟩,
    ⟨0, 6, rx (on) 0 6 (eth 0x1234 (zeros 46)), ⟨eth 0x1234 (zeros 46), 0⟩, [], by decide +kernel⟩,
    ⟨0, 6, rx (flows .off flow) 0 6 (udp (rtp 0)), ⟨udp (rtp 0), 0⟩, [], pkt (rtp 0), 0, flow, by decide +kernel⟩,
    ⟨0, 6, rx (flows .on { flow with smode := 1 }) 0 6 (udp (rtp 0)), ⟨udp (rtp 0), 0⟩, [], pkt (rtp 0), 0, { flow with smode := 1 },
      by decide +kernel⟩,
    ⟨0, 6, rx (flows .on flow) 0 6 (udp (rtp 1)), ⟨udp (rtp 1), 0⟩, [], pkt (rtp 1), 0, flow, (⟨⟨12, false, false, 1, 7, 160, 99⟩, 7, none, true,
      zeros 4⟩ : RtpIn), R.PKE_RTP_BAD_CNT, by decide +kernel⟩,
    ⟨0, 6, rx (flows .on flow) 0 6 (udp (rtp 0)), ⟨udp (rtp 0), 0⟩, [], pkt (rtp 0), 0, flow, (⟨⟨12, false, false, 0, 7, 160, 99⟩, 7, none, true,
      zeros 4⟩ : RtpIn), by decide +kernel⟩,
    ⟨on.setPke { on.pke with slowQ := [(0, eth 0x0806 (zeros 28))] }, 0, eth 0x0806 (zeros 28), [], by decide +kernel, by decide +kernel⟩,
    ⟨arpLeg, 0, arp, (arpLeg.slowAnswer arp).getD [], [], by decide +kernel, by decide +kernel⟩,
    ⟨on, by decide +kernel⟩,
    ⟨ptpS.setTmu { ptpS.tmu with ptpRole := [0] }, 6, ⟨eth 0x88F7 ([3, 2, 0, 0, 44] ++ zeros 41), 0⟩, [], by decide +kernel⟩,
    ⟨ptpS, 6, ⟨eth 0x88F7 ([3, 2, 0, 0, 44] ++ zeros 41), 0⟩, [], 14, by decide +kernel⟩,
    ⟨0x7FFFFFFFFFFF, ptpS, by decide +kernel⟩⟩

/-- The hypotheses of `CommandsAreRefusedInTurn` can be met, clause by clause. -/
theorem meets_commands_are_refused_in_turn :
    (∃ (x : OpDef × ℕ × (Req → Instr)) (q : Req) (s : State), x ∈ [(opRegWrite, 513, Instr.regWrite), (opUnmuzzle, 273, Instr.unmuzzle),
      (opMuzzleKeySet, 274, Instr.muzzleKeySet), (opChanEnable, 769, Instr.chanEnable), (opChanKey, 775, Instr.chanKey), (opGraphDefine, 1025,
      Instr.graphDefine), (opCoefSwap, 1284, Instr.coefSwap), (opPortDisable, 1794, Instr.portDisable), (opCaptEnable, 2051, Instr.captEnable),
      (opTandRoute, 2817, Instr.tandRoute), (opBistRequest, 3073, Instr.bistRequest), (opFwActivate, 3586, Instr.fwActivate), (opShutBegin, 4097,
      Instr.shutBegin)] ∧ s.turn (↑q.mbox) q.seq.toNat x.2.1 q.more q.payload = false) ∧
    (∃ (x : OpDef × ℕ × (Req → Instr)) (q : Req) (s : State), x ∈ [(opRegWrite, 513, Instr.regWrite), (opUnmuzzle, 273, Instr.unmuzzle),
      (opMuzzleKeySet, 274, Instr.muzzleKeySet), (opChanEnable, 769, Instr.chanEnable), (opChanKey, 775, Instr.chanKey), (opGraphDefine, 1025,
      Instr.graphDefine), (opCoefSwap, 1284, Instr.coefSwap), (opPortDisable, 1794, Instr.portDisable), (opCaptEnable, 2051, Instr.captEnable),
      (opTandRoute, 2817, Instr.tandRoute), (opBistRequest, 3073, Instr.bistRequest), (opFwActivate, 3586, Instr.fwActivate), (opShutBegin, 4097,
      Instr.shutBegin)] ∧ s.turn (↑q.mbox) q.seq.toNat x.2.1 q.more q.payload = true ∧ (s.sess ↑q.mbox).role < x.1.minRole) ∧
    (∃ (x : OpDef × ℕ × (Req → Instr)) (q : Req) (s : State), x ∈ [(opRegWrite, 513, Instr.regWrite), (opUnmuzzle, 273, Instr.unmuzzle),
      (opMuzzleKeySet, 274, Instr.muzzleKeySet), (opChanEnable, 769, Instr.chanEnable), (opChanKey, 775, Instr.chanKey), (opGraphDefine, 1025,
      Instr.graphDefine), (opCoefSwap, 1284, Instr.coefSwap), (opPortDisable, 1794, Instr.portDisable), (opCaptEnable, 2051, Instr.captEnable),
      (opTandRoute, 2817, Instr.tandRoute), (opBistRequest, 3073, Instr.bistRequest), (opFwActivate, 3586, Instr.fwActivate), (opShutBegin, 4097,
      Instr.shutBegin)] ∧ s.turn (↑q.mbox) q.seq.toNat x.2.1 q.more q.payload = true ∧ x.1.minRole ≤ (s.sess ↑q.mbox).role ∧ s.mode = Mode.recovery ∧
      recoveryAllows x.2.1 = false) ∧
    (∃ (x : OpDef × ℕ × (Req → Instr)) (q : Req) (s : State) (off : ℕ), x ∈ [(opRegWrite, 513, Instr.regWrite), (opUnmuzzle, 273, Instr.unmuzzle),
      (opMuzzleKeySet, 274, Instr.muzzleKeySet), (opChanEnable, 769, Instr.chanEnable), (opChanKey, 775, Instr.chanKey), (opGraphDefine, 1025,
      Instr.graphDefine), (opCoefSwap, 1284, Instr.coefSwap), (opPortDisable, 1794, Instr.portDisable), (opCaptEnable, 2051, Instr.captEnable),
      (opTandRoute, 2817, Instr.tandRoute), (opBistRequest, 3073, Instr.bistRequest), (opFwActivate, 3586, Instr.fwActivate), (opShutBegin, 4097,
      Instr.shutBegin)] ∧ s.turn (↑q.mbox) q.seq.toNat x.2.1 q.more q.payload = true ∧ x.1.minRole ≤ (s.sess ↑q.mbox).role ∧ s.mode ≠ Mode.recovery ∧
      q.more = false ∧ x.1.badLen q.payload = some off ∧ off ≤ 65535) ∧
    (∃ (x : OpDef × ℕ × (Req → Instr)) (q : Req) (s : State), x ∈ [(opRegWrite, 513, Instr.regWrite), (opUnmuzzle, 273, Instr.unmuzzle),
      (opMuzzleKeySet, 274, Instr.muzzleKeySet), (opChanEnable, 769, Instr.chanEnable), (opChanKey, 775, Instr.chanKey), (opGraphDefine, 1025,
      Instr.graphDefine), (opCoefSwap, 1284, Instr.coefSwap), (opPortDisable, 1794, Instr.portDisable), (opCaptEnable, 2051, Instr.captEnable),
      (opTandRoute, 2817, Instr.tandRoute), (opBistRequest, 3073, Instr.bistRequest), (opFwActivate, 3586, Instr.fwActivate), (opShutBegin, 4097,
      Instr.shutBegin)] ∧ s.turn (↑q.mbox) q.seq.toNat x.2.1 true q.payload = true ∧ x.1.minRole ≤ (s.sess ↑q.mbox).role ∧ s.mode ≠ Mode.recovery ∧
      q.more = true ∧ x.1.bulk = false) :=
  ⟨⟨(opRegWrite, 513, Instr.regWrite), q [], State.reset, by simp, by decide +kernel⟩,
    ⟨(opMuzzleKeySet, 274, Instr.muzzleKeySet), q [], on.setSess 0 { on.sess 0 with role := 1 }, by simp, by decide +kernel, by decide +kernel⟩,
    ⟨(opChanKey, 775, Instr.chanKey), q [], { on with mode := .recovery }, by simp, by decide +kernel, by decide +kernel, by decide +kernel,
      by decide +kernel⟩,
    ⟨(opShutBegin, 4097, Instr.shutBegin), q [], on, 0, by simp, by decide +kernel⟩,
    ⟨(opUnmuzzle, 273, Instr.unmuzzle), { q [] with more := true }, on, by simp, by decide +kernel⟩⟩

/-- The hypotheses of `AddressesWithoutARegister` can be met, clause by clause. -/
theorem meets_addresses_without_a_register :
    (∃ (q : Req) (s : State) (a : ℕ) (n : ℕ), q.payload = be 4 a ++ be 4 n ∧ a < 2 ^ 32 ∧ 1 ≤ n ∧ n ≤ 64 ∧ a % 4 ≠ 0 ∧ q.more = false ∧
      s.turn (↑q.mbox) q.seq.toNat 641 false q.payload = true) ∧
    (∃ (q : Req) (s : State) (i : ℕ) (a : ℕ) (v : ℕ), Ready opRegWrite 513 q s ∧ (pairsOf q.payload)[i]? = some (a, v) ∧ a % 4 ≠ 0 ∧
      checkPairs (s.sess ↑q.mbox).role (tb (num q.payload 0 2) 0) (List.take i (pairsOf q.payload)) 0 (s.take ↑q.mbox) = Chk.ok []) ∧
    (∃ (a : ℕ), 1179648 ≤ a) ∧
    (∃ (q : Req) (s : State) (a : ℕ), Ready opRegRead 641 q s ∧ q.payload = be 4 a ++ be 4 1 ∧ a < 2 ^ 32 ∧ regAt a = none) ∧
    (∃ (c : RegCmd) (s : State) (a : ℕ) (v : ℕ), Ready opRegWrite 513 (writeReq c a v) s ∧ a < 2 ^ 32 ∧ v < 2 ^ 32 ∧ a % 4 = 0 ∧ regAt a = none) ∧
    (∃ (a : ℕ), regAt a = none) :=
  ⟨⟨q (be 4 0xFFFFFFFF ++ be 4 64), on, 0xFFFFFFFF, 64, by decide +kernel⟩,
    ⟨writeReq c 2 0, on, 0, 2, 0, ready (by decide +kernel), by decide +kernel, by decide +kernel, by decide +kernel⟩,
    ⟨0x120000, by decide +kernel⟩,
    ⟨readReq c 0x120000, on, 0x120000, ready (by decide +kernel), by decide +kernel, by decide +kernel, by decide +kernel⟩,
    ⟨c, on, 0xFFFFFFFC, 0xFFFFFFFF, ready (by decide +kernel), by decide +kernel, by decide +kernel, by decide +kernel, by decide +kernel⟩,
    ⟨0x120000, by decide +kernel⟩⟩

/-- The hypotheses of `RegistersAreReadAndWritten` can be met, clause by clause. -/
theorem meets_registers_are_read_and_written :
    (∃ (q : Req) (s : State), Ready opRegRead 641 q s) ∧
    (∃ (q : Req) (s : State), Accepted opRegWrite 513 q s [] ∧ tb (num q.payload 0 2) 0 = false ∧
      (s.take ↑q.mbox).mustMove (pairsOf q.payload) = false) ∧
    (∃ (q : Req) (s : State), Accepted opRegWrite 513 q s [] ∧ tb (num q.payload 0 2) 0 = true ∧ Room q s ∧ s.mustMove (pairsOf q.payload) = false) ∧
    (∃ (c : RegCmd) (s : State) (v : ℕ) (k : ℕ), Ready opRegWrite 513 (writeReq c R.QCP_MZ_KEYS v) s ∧ v < 2 ^ 32 ∧ k < 8 ∧ tb v (8 + k) = true ∧
      tb (s.reg R.QCP_MZ_KEYS) (8 + k) = false ∧ khas s.nv.mzKeys k = false) :=
  ⟨⟨readReq c 0, on, ready (by decide +kernel)⟩,
    ⟨writeReq c R.PKE_CFG 0, on, accepted (by decide +kernel), by decide +kernel, by decide +kernel⟩,
    ⟨q (be 2 1 ++ be 2 1 ++ be 4 R.TMU_SRV_KP ++ be 4 1), on, accepted (by decide +kernel), by decide +kernel, ⟨by decide +kernel, by decide +kernel⟩,
      by decide +kernel⟩,
    ⟨c, on, 0x8000, 7, ready (by decide +kernel), by decide +kernel, by decide +kernel, by decide +kernel, by decide +kernel, by decide +kernel⟩⟩

/-- The hypotheses of `FramesReachTheirSession` can be met, clause by clause. -/
theorem meets_frames_reach_their_session :
    (∃ (p : Fin 8) (s : State) (f : RxFrame) (r : List RxFrame), kgetD (s.port ↑p).rxq 7 [] = f :: r ∧
      (List.drop (parseEth f.bytes).off f.bytes).length < 32) ∧
    (∃ (p : Fin 8) (s : State) (f : RxFrame) (r : List RxFrame), kgetD (s.port ↑p).rxq 7 [] = f :: r ∧
      32 + num (List.drop (parseEth f.bytes).off f.bytes) 10 2 ≤ (List.drop (parseEth f.bytes).off f.bytes).length ∧
      u8 (List.drop (parseEth f.bytes).off f.bytes) 0 = 17 ∧ num (List.drop (parseEth f.bytes).off f.bytes) 12 4 % 4096 ≠ s.dev) ∧
    (∃ (p : Fin 8) (s : State) (f : RxFrame) (r : List RxFrame), kgetD (s.port ↑p).rxq 7 [] = f :: r ∧
      32 + num (List.drop (parseEth f.bytes).off f.bytes) 10 2 ≤ (List.drop (parseEth f.bytes).off f.bytes).length ∧
      u8 (List.drop (parseEth f.bytes).off f.bytes) 0 = 17 ∧ num (List.drop (parseEth f.bytes).off f.bytes) 12 4 % 4096 = s.dev ∧
      num (List.drop (parseEth f.bytes).off f.bytes) 2 2 ≠ 0 ∧ (s.sess (num (List.drop (parseEth f.bytes).off f.bytes) 2 2 % 256)).st = FnState.on ∧
      (s.sess (num (List.drop (parseEth f.bytes).off f.bytes) 2 2 % 256)).gen = num (List.drop (parseEth f.bytes).off f.bytes) 2 2 / 256 ∧
      (s.sess (num (List.drop (parseEth f.bytes).off f.bytes) 2 2 % 256)).port = ↑p ∧
      (s.sess (num (List.drop (parseEth f.bytes).off f.bytes) 2 2 % 256)).mac = (parseEth f.bytes).src ∧
      tagOk (s.sess (num (List.drop (parseEth f.bytes).off f.bytes) 2 2 % 256)).ks (List.drop (parseEth f.bytes).off f.bytes) = false) ∧
    (∃ (p : Fin 8) (s : State) (f : RxFrame) (r : List RxFrame), kgetD (s.port ↑p).rxq 7 [] = f :: r ∧
      32 + num (List.drop (parseEth f.bytes).off f.bytes) 10 2 ≤ (List.drop (parseEth f.bytes).off f.bytes).length ∧
      u8 (List.drop (parseEth f.bytes).off f.bytes) 0 = 17 ∧ num (List.drop (parseEth f.bytes).off f.bytes) 12 4 % 4096 = s.dev ∧
      num (List.drop (parseEth f.bytes).off f.bytes) 2 2 ≠ 0 ∧ (s.sess (num (List.drop (parseEth f.bytes).off f.bytes) 2 2 % 256)).st = FnState.on ∧
      (s.sess (num (List.drop (parseEth f.bytes).off f.bytes) 2 2 % 256)).gen = num (List.drop (parseEth f.bytes).off f.bytes) 2 2 / 256 ∧
      (s.sess (num (List.drop (parseEth f.bytes).off f.bytes) 2 2 % 256)).port = ↑p ∧
      (s.sess (num (List.drop (parseEth f.bytes).off f.bytes) 2 2 % 256)).mac = (parseEth f.bytes).src ∧
      tagOk (s.sess (num (List.drop (parseEth f.bytes).off f.bytes) 2 2 % 256)).ks (List.drop (parseEth f.bytes).off f.bytes) = true ∧
      num (List.drop (parseEth f.bytes).off f.bytes) 4 4 = (s.sess (num (List.drop (parseEth f.bytes).off f.bytes) 2 2 % 256)).expect ∧
      (s.sess (num (List.drop (parseEth f.bytes).off f.bytes) 2 2 % 256)).cmdUsed + slotsOf (List.length (sub (List.drop (parseEth f.bytes).off f.bytes) 32 (num (List.drop (parseEth f.bytes).off f.bytes) 10 2))) ≤ 64) ∧
    (∃ (p : Fin 8) (s : State) (f : RxFrame) (r : List RxFrame), kgetD (s.port ↑p).rxq 7 [] = f :: r ∧
      32 + num (List.drop (parseEth f.bytes).off f.bytes) 10 2 ≤ (List.drop (parseEth f.bytes).off f.bytes).length ∧
      u8 (List.drop (parseEth f.bytes).off f.bytes) 0 = 17 ∧ num (List.drop (parseEth f.bytes).off f.bytes) 12 4 % 4096 = s.dev ∧
      num (List.drop (parseEth f.bytes).off f.bytes) 2 2 ≠ 0 ∧ (s.sess (num (List.drop (parseEth f.bytes).off f.bytes) 2 2 % 256)).st = FnState.on ∧
      (s.sess (num (List.drop (parseEth f.bytes).off f.bytes) 2 2 % 256)).gen = num (List.drop (parseEth f.bytes).off f.bytes) 2 2 / 256 ∧
      (s.sess (num (List.drop (parseEth f.bytes).off f.bytes) 2 2 % 256)).port = ↑p ∧
      (s.sess (num (List.drop (parseEth f.bytes).off f.bytes) 2 2 % 256)).mac = (parseEth f.bytes).src ∧
      tagOk (s.sess (num (List.drop (parseEth f.bytes).off f.bytes) 2 2 % 256)).ks (List.drop (parseEth f.bytes).off f.bytes) = true ∧
      (s.sess (num (List.drop (parseEth f.bytes).off f.bytes) 2 2 % 256)).expect < 2 ^ 32 ∧
      0 < (num (List.drop (parseEth f.bytes).off f.bytes) 4 4 + 2 ^ 32 - (s.sess (num (List.drop (parseEth f.bytes).off f.bytes) 2 2 % 256)).expect) % 2 ^ 32 ∧
      (num (List.drop (parseEth f.bytes).off f.bytes) 4 4 + 2 ^ 32 - (s.sess (num (List.drop (parseEth f.bytes).off f.bytes) 2 2 % 256)).expect) % 2 ^ 32 < 2 ^ 31) ∧
    (∃ (p : Fin 8) (s : State) (f : RxFrame) (l : List RxFrame) (r : Reply) (g : Bytes) (gs : List Bytes), let b := f.bytes.drop (parseEth f.bytes).off
      let x := s.sess (num b 2 2 % 256)
      (kgetD (s.port ↑p).rxq 7 [] = f :: l ∧ 32 + num b 10 2 ≤ b.length ∧ u8 b 0 = 17 ∧ num b 12 4 % 4096 = s.dev ∧ num b 2 2 ≠ 0 ∧ x.st = FnState.on ∧
      x.gen = num b 2 2 / 256 ∧ x.port = ↑p ∧ x.mac = (parseEth f.bytes).src ∧ tagOk x.ks b = true ∧ x.expect < 2 ^ 32 ∧
      2 ^ 31 ≤ (num b 4 4 + 2 ^ 32 - x.expect) % 2 ^ 32) ∧ 2 ^ 32 - (num b 4 4 + 2 ^ 32 - x.expect) % 2 ^ 32 ≤ 16 ∧
      x.replies.find? (fun y => y.seq == num b 4 4) = some r ∧ r.frames = g :: gs) :=
  ⟨⟨0, rx (on.setSess 0 sess1) 0 7 (eth 0x88B5 (zeros 31)), ⟨eth 0x88B5 (zeros 31), 0⟩, [], by decide +kernel, by decide +kernel⟩,
    ⟨0, rx (on.setSess 0 sess1) 0 7 (eth 0x88B5 (be 1 0x11 ++ zeros 11 ++ be 4 1 ++ zeros 16)),
      ⟨eth 0x88B5 (be 1 0x11 ++ zeros 11 ++ be 4 1 ++ zeros 16), 0⟩, [], by decide +kernel, by decide +kernel, by decide +kernel, by decide +kernel⟩,
    ⟨0, rx (on.setSess 0 sess1) 0 7 (qcp 7 0 (zeros 8)), ⟨qcp 7 0 (zeros 8), 0⟩, [], by decide +kernel⟩,
    ⟨0, rx (on.setSess 0 sess1) 0 7 (qcp 7 322330625207405944962728771923279152154 (zeros 8)),
      ⟨qcp 7 322330625207405944962728771923279152154 (zeros 8), 0⟩, [], by decide +kernel⟩,
    ⟨0, rx (on.setSess 0 sess1) 0 7 (qcp 8 325213745003138741174926476866102663865 (zeros 8)),
      ⟨qcp 8 325213745003138741174926476866102663865 (zeros 8), 0⟩, [], by decide +kernel⟩,
    ⟨0, rx (on.setSess 0 sess2) 0 7 (qcp 7 322330625207405944962728771923279152154 (zeros 8)), ⟨qcp 7 322330625207405944962728771923279152154 (zeros 8), 0⟩, [],
      ⟨7, [zeros 40], 40⟩, zeros 40, [], by decide +kernel⟩⟩

/-- The hypotheses of `SessionsOpenProveAndEnd` can be met, clause by clause. -/
theorem meets_sessions_open_prove_and_end :
    (∃ (s : State) (r : OpenReq) (rest : List OpenReq) (k : HostKey) (m : ℕ), s.qcp.jrnl = none ∧ s.qcp.opens = r :: rest ∧
      kget s.nv.hostKeys (u8 r.payload 0) = some k ∧ List.length r.payload = 20 ∧ r.more = false ∧ s.mode = Mode.service ∧ s.sessCount FnState.starting < 32 ∧
      s.freeMbox k.role = some m) ∧
    (∃ (q : Req) (s : State), Ready opRefused 257 q s) ∧
    (∃ (q : Req) (s : State), (s.sess ↑q.mbox).st = FnState.starting ∧ s.qcp.jrnl = none ∧ q.seq.toNat = 1 ∧ (s.sess ↑q.mbox).ring = [] ∧
      (s.sess ↑q.mbox).expect = 1 ∧ q.more = false ∧ List.length q.payload = 32 ∧
      q.payload = hmac256 (kgetD s.nv.hostKeys (s.sess ↑q.mbox).keyId { key := [], role := 0 }).key (be 4 1363365937 ++ (s.sess ↑q.mbox).nh ++ (s.sess ↑q.mbox).np ++ be 2 ((s.sess ↑q.mbox).num ↑q.mbox))) ∧
    (∃ (q : Req) (s : State), (s.sess ↑q.mbox).st = FnState.starting ∧ s.qcp.jrnl = none ∧ q.seq.toNat = 1 ∧ (s.sess ↑q.mbox).ring = [] ∧
      (s.sess ↑q.mbox).expect = 1 ∧ q.more = false ∧ List.length q.payload = 32 ∧
      q.payload ≠ hmac256 (kgetD s.nv.hostKeys (s.sess ↑q.mbox).keyId { key := [], role := 0 }).key (be 4 1363365937 ++ (s.sess ↑q.mbox).nh ++ (s.sess ↑q.mbox).np ++ be 2 ((s.sess ↑q.mbox).num ↑q.mbox))) ∧
    (∃ (m : Fin 256) (s : State), (s.sess ↑m).st = FnState.starting ∧ (s.sess ↑m).proveBy ≤ s.loc ∧ (s.sess ↑m).ring = []) ∧
    (∃ (m : Fin 256) (s : State), (s.sess ↑m).st = FnState.on ∧ (s.sess ↑m).leaseEnd ≤ s.loc ∧ (s.sess ↑m).defer = false ∧
      (s.sess ↑m).after = none ∧ s.qcp.jrnl = none) ∧
    (∃ (s : State) (r : OpenReq) (rest : List OpenReq) (k : HostKey), s.qcp.jrnl = none ∧ s.qcp.opens = r :: rest ∧
      kget s.nv.hostKeys (u8 r.payload 0) = some k ∧ r.more = true) ∧
    (∃ (s : State) (r : OpenReq) (k : HostKey) (m : ℕ), s.qcp.jrnl = none ∧ s.qcp.opens = [] ∧ s.openUsed < s.fld R.QCP_CFG_OPEN_RATE ∧
      kget s.nv.hostKeys (u8 r.payload 0) = some k ∧ r.payload.length = 20 ∧ r.more = false ∧ s.mode = Mode.service ∧ s.sessCount FnState.starting < 32 ∧
      s.freeMbox k.role = some m) ∧
    (∃ (m : Fin 256) (s : State), (s.sess ↑m).st = FnState.on ∧ (s.sess ↑m).leaseEnd ≤ s.loc ∧ (s.sess ↑m).defer = true) :=
  ⟨⟨(on.setNv { on.nv with hostKeys := [(0, ⟨zeros 32, 2⟩)] }).setQcp { on.qcp with opens := [⟨0, 5, [], 0, false, zeros 20⟩] }, ⟨0, 5, [], 0, false, zeros 20⟩, [],
    ⟨zeros 32, 2⟩, 1, by decide +kernel⟩,
    ⟨q [], on, ready (by decide +kernel)⟩,
    ⟨⟨0, 1, false, proof⟩, proving, by decide +kernel⟩,
    ⟨⟨0, 1, false, zeros 32⟩, proving, by decide +kernel⟩,
    ⟨0, proving, by decide +kernel, by decide +kernel, by decide +kernel⟩,
    ⟨255, on.setSess 255 { on.sess 0 with st := .on }, by decide +kernel⟩,
    ⟨(on.setNv { on.nv with hostKeys := [(0, ⟨zeros 32, 2⟩)] }).setQcp { on.qcp with opens := [⟨0, 5, [], 0, true, zeros 20⟩] }, ⟨0, 5, [], 0, true, zeros 20⟩,
      [], ⟨zeros 32, 2⟩, by decide +kernel⟩,
    ⟨(on.setNv { on.nv with hostKeys := [(0, ⟨zeros 32, 2⟩)] }).setFld R.QCP_CFG_OPEN_RATE 1, ⟨0, 5, [], 0, false, zeros 20⟩, ⟨zeros 32, 2⟩, 1,
      by decide +kernel⟩,
    ⟨0, on.setSess 0 { on.sess 0 with defer := true }, by decide +kernel⟩⟩

/-- The hypotheses of `SessionsSpeakOfThemselves` can be met, clause by clause. -/
theorem meets_sessions_speak_of_themselves :
    (∃ (q : Req) (s : State), Ready opSessionKeepalive 259 q s) ∧
    (∃ (q : Req) (s : State), Ready opSessionSubscribe 261 q s) ∧
    (∃ (q : Req) (s : State), Ready opSessionClose 260 q s) ∧
    (∃ (q : Req) (s : State), Accepted opSessionKeySet 264 q s []) ∧
    (∃ (q : Req) (s : State), Accepted opSessionKeyClear 265 q s []) ∧
    (∃ (q : Req) (s : State), Ready opSessionList 385 q s) ∧
    (∃ (q : Req) (s : State) (plan : List ℕ), Accepted opMuzzleStatus 386 q s plan) :=
  ⟨⟨q [], on, ready (by decide +kernel)⟩,
    ⟨q [0xFF, 0xFF, 0xFF, 0xFF], on, ready (by decide +kernel)⟩,
    ⟨q [], on, ready (by decide +kernel)⟩,
    ⟨q ([15, 2] ++ zeros 34), on, accepted (by decide +kernel)⟩,
    ⟨q [15, 0, 0, 0], on, accepted (by decide +kernel)⟩,
    ⟨q [], on, ready (by decide +kernel)⟩,
    ⟨q [], on, [], accepted (by decide +kernel)⟩⟩

/-- The hypotheses of `RepliesAndEventsLeave` can be met, clause by clause. -/
theorem meets_replies_and_events_leave :
    (∃ (m : Fin 256) (s : State) (f : Bytes), (s.sess ↑m).st = FnState.on ∧ (s.sess ↑m).out = [f] ∧ (s.sess ↑m).rplRing = [] ∧
      (s.sess ↑m).after = none ∧ List.length f ≤ 9600 ∧ s.tc7Room (s.sess ↑m).port (List.length f + 18 + 4 * (s.sess ↑m).tags.length) = true) ∧
    (∃ (v : Word) (s : State) (f : Bytes), (s.sess (BitVec.toNat v % 256)).st = FnState.on ∧ (s.sess (BitVec.toNat v % 256)).rplRing = [f] ∧
      (s.sess (BitVec.toNat v % 256)).after = none ∧ s.tc7Room (s.sess (BitVec.toNat v % 256)).port (List.length f + 18 + 4 * (s.sess (BitVec.toNat v % 256)).tags.length) = true) ∧
    (∃ (m : Fin 256) (s : State) (b : Bytes), (s.sess ↑m).st = FnState.on ∧ (s.sess ↑m).out = [] ∧ (s.sess ↑m).rplRing = [] ∧
      (s.sess ↑m).after = some (260, b) ∧ (s.sess ↑m).defer = false ∧ s.qcp.jrnl = none) ∧
    (∃ (m : Fin 256) (s : State) (b : Bytes), (s.sess ↑m).st = FnState.on ∧ (s.sess ↑m).out = [] ∧ (s.sess ↑m).rplRing = [] ∧
      (s.sess ↑m).after = some (264, b)) ∧
    (∃ (m : Fin 256) (s : State) (b : Bytes), (s.sess ↑m).st = FnState.on ∧ (s.sess ↑m).out = [] ∧ (s.sess ↑m).rplRing = [] ∧
      (s.sess ↑m).after = some (265, b)) ∧
    (∃ (m : Fin 256) (s : State) (e : Evt) (r : List Evt), (s.sess ↑m).st = FnState.on ∧ (s.sess ↑m).evq = e :: r ∧ (s.sess ↑m).evLost = 0 ∧
      s.tc7Room (s.sess ↑m).port (66 + 4 * (s.sess ↑m).tags.length + List.length e.data) = true) ∧
    (∃ (m : Fin 256) (s : State), (s.sess ↑m).evq = []) :=
  ⟨⟨255, on.setSess 255 { on.sess 0 with out := [zeros 40] }, zeros 40, by decide +kernel⟩,
    ⟨255, on.setSess 255 { on.sess 0 with rplRing := [zeros 40] }, zeros 40, by decide +kernel, by decide +kernel, by decide +kernel,
      by decide +kernel⟩,
    ⟨0, on.setSess 0 { on.sess 0 with after := some (260, []) }, [], by decide +kernel⟩,
    ⟨0, on.setSess 0 { on.sess 0 with after := some (264, zeros 36) }, zeros 36, by decide +kernel, by decide +kernel, by decide +kernel,
      by decide +kernel⟩,
    ⟨0, on.setSess 0 { on.sess 0 with after := some (265, zeros 4) }, zeros 4, by decide +kernel, by decide +kernel, by decide +kernel,
      by decide +kernel⟩,
    ⟨0, on.setSess 0 { on.sess 0 with evq := [⟨0x1F0, 0, 0, zeros 4, 1⟩] }, ⟨0x1F0, 0, 0, zeros 4, 1⟩, [], by decide +kernel, by decide +kernel,
      by decide +kernel, by decide +kernel⟩,
    ⟨255, on, by decide +kernel⟩⟩

/-- The hypotheses of `TheMuzzleClosesAndOpensGates` can be met, clause by clause. -/
theorem meets_the_muzzle_closes_and_opens_gates :
    (∃ (s : State) (z : MzIn) (r : List MzIn), s.qcp.mzIn = z :: r ∧ muzzleFormat z.bytes = false) ∧
    (∃ (s : State) (z : MzIn) (r : List MzIn) (key : MzKey), s.qcp.mzIn = z :: r ∧ muzzleFormat z.bytes = true ∧ num z.bytes 12 4 = s.dev ∧
      kget s.nv.mzKeys (u8 z.bytes 33) = some key ∧ tb (s.fld R.QCP_MZ_KEYS_EN) (u8 z.bytes 33) = true ∧ key.ctr < num z.bytes 4 6 ∧
      num z.bytes 16 8 = (sipHash24 key.key (List.take 16 z.bytes ++ sub z.bytes 32 16)).toNat) ∧
    (∃ (g : Gate) (s : State) (c : ℕ) (u : Inst), kget s.qcp.gates (Gate.code g) = some { closeLoc := c, release := some u } ∧ u ≤ s.now) ∧
    (∃ (g : Gate) (s : State) (c : ℕ) (u : Inst), kget s.qcp.gates (Gate.code g) = some { closeLoc := c, release := some u } ∧ s.now < u) ∧
    (∃ (s : State), s.qcp.mzDirty = true) ∧
    (∃ (s : State), s.now / secI ≠ s.qcp.openSec) ∧
    (∃ (q : Req) (s : State) (plan : List ℕ), Accepted opUnmuzzle 273 q s plan) ∧
    (∃ (q : Req) (s : State) (plan : List ℕ), Accepted opMuzzleKeySet 274 q s plan) ∧
    (∃ (k : Fin 8) (c : RegCmd) (s : State), Accepted opRegRead 641 (readReq c (R.QCP_MZ_CTR_HI ↑k)) s []) ∧
    (∃ (s : State), s.mode ≠ Mode.reset) :=
  ⟨⟨on.setQcp { on.qcp with mzIn := [⟨zeros 47, 0, 0⟩] }, ⟨zeros 47, 0, 0⟩, [], by decide +kernel, by decide +kernel⟩,
    ⟨((on.setNv { on.nv with mzKeys := [(0, ⟨zeros 16, 0⟩)] }).setFld R.QCP_MZ_KEYS_EN 1).setQcp { ((on.setNv { on.nv with mzKeys := [(0, ⟨zeros 16, 0⟩)] }).setFld R.QCP_MZ_KEYS_EN 1).qcp with mzIn := [⟨muzzle, 0, 0⟩] },
      ⟨muzzle, 0, 0⟩, [], ⟨zeros 16, 0⟩, by decide +kernel⟩,
    ⟨.group 63, on.setQcp { on.qcp with gates := [(Gate.code (.group 63), ⟨0, some 0⟩)] }, 0, 0, by decide +kernel, by decide +kernel⟩,
    ⟨.cls 7 6, on.setQcp { on.qcp with gates := [(Gate.code (.cls 7 6), ⟨0, some 1⟩)] }, 0, 1, by decide +kernel, by decide +kernel⟩,
    ⟨on.setQcp { on.qcp with mzDirty := true }, by decide +kernel⟩,
    ⟨on.setQcp { on.qcp with openSec := 1 }, by decide +kernel⟩,
    ⟨q ([31, 0, 1, 127] ++ be 8 1 ++ zeros 4), on, [], accepted (by decide +kernel)⟩,
    ⟨q ([7] ++ zeros 19), on, [], accepted (by decide +kernel)⟩,
    ⟨7, c, on, accepted (by decide +kernel)⟩,
    ⟨on, by decide +kernel⟩⟩

/-- The hypotheses of `BulkFramesAndUnknownCodes` can be met, clause by clause. -/
theorem meets_bulk_frames_and_unknown_codes :
    (∃ (m : Fin 256) (s : State) (k : Bulk) (f : CmdFrame) (r : List CmdFrame), (s.sess ↑m).st = FnState.on ∧ (s.sess ↑m).bulk = some k ∧
      (s.sess ↑m).ring = f :: r ∧ f.bulk = true ∧ f.seq = k.seq ∧ s.qcp.jrnl = none ∧ k.fam * 256 + k.op ≠ 2565 ∧ f.more = true) ∧
    (∃ (m : Fin 256) (s : State) (k : Bulk) (f : CmdFrame) (r : List CmdFrame) (d : OpDef), (s.sess ↑m).st = FnState.on ∧ (s.sess ↑m).bulk = some k ∧
      (s.sess ↑m).ring = f :: r ∧ f.bulk = true ∧ f.seq = k.seq ∧ s.qcp.jrnl = none ∧ k.fam * 256 + k.op ≠ 2565 ∧ f.more = false ∧
      opTable (k.fam * 256 + k.op) = some d) ∧
    (∃ (fam : Byte) (op : Byte) (q : Req) (s : State), opTable (BitVec.toNat fam * 256 + BitVec.toNat op) = none ∧
      s.turn (↑q.mbox) q.seq.toNat (BitVec.toNat fam * 256 + BitVec.toNat op) q.more q.payload = true) :=
  ⟨⟨0, on.setSess 0 { on.sess 0 with bulk := some ⟨3, 0x0E, 0x01, []⟩, ring := [⟨true, true, 3, 0x0E, 0x01, []⟩] }, ⟨3, 0x0E, 0x01, []⟩, ⟨true, true,
    3, 0x0E, 0x01, []⟩, [], by decide +kernel⟩,
    ⟨0, on.setSess 0 { on.sess 0 with bulk := some ⟨3, 0x0E, 0x01, []⟩, ring := [⟨true, false, 3, 0x0E, 0x01, []⟩] }, ⟨3, 0x0E, 0x01, []⟩, ⟨true,
      false, 3, 0x0E, 0x01, []⟩, [], opFwLoad, by decide +kernel, by decide +kernel, by decide +kernel, by decide +kernel, by decide +kernel,
      by decide +kernel, by decide +kernel, by decide +kernel, rfl⟩,
    ⟨0xFF, 0xFF, q [], on, by decide +kernel, by decide +kernel⟩⟩

/-- The hypotheses of `TheRecordComesBeforeTheEffect` can be met, clause by clause. -/
theorem meets_the_record_comes_before_the_effect :
    ∃ (s : State) (j : Jrnl) (d : OpDef), s.qcp.jrnl = some j ∧ opTable j.opcode = some d ∧ s.nv.prsFailed = false ∧
      s.jrnlUsed + 56 + List.length j.payload ≤ jrnlMax :=
  ⟨on.setQcp { on.qcp with jrnl := some ⟨0, 0, 0x0701, [0, 0, 0, 0], [], false⟩ }, ⟨0, 0, 0x0701, [0, 0, 0, 0], [], false⟩, opPortEnable,
    by decide +kernel, rfl, by decide +kernel, by decide +kernel⟩

/-- The hypotheses of `ARecordThatFailsChangesNothing` can be met, clause by clause. -/
theorem meets_a_record_that_fails_changes_nothing :
    (∃ (s : State) (j : Jrnl), s.qcp.jrnl = some j ∧ (s.nv.prsFailed = true ∨ jrnlMax < s.jrnlUsed + ((s.setQcp { s.qcp with jrnl := none }).recordOf j).size) ∧
      (s.sess j.mbox).st = FnState.on ∧ (s.sess j.mbox).out = []) ∧
    (∃ (s : State) (m : ℕ) (f : CmdFrame), f.bulk = false ∧ 2 ^ 31 ≤ (f.seq + 2 ^ 32 - (s.sess m).expect) % 2 ^ 32 ∧
      2 ^ 32 - (f.seq + 2 ^ 32 - (s.sess m).expect) % 2 ^ 32 ≤ 16) ∧
    (∃ (s : State) (j : Jrnl), s.qcp.jrnl = some j ∧ s.nv.prsFailed = true ∧ (s.sess j.mbox).st = FnState.on ∧ (s.sess j.mbox).out = [] ∧
      j.opcode = 0x0A05 ∧ j.bulk = true) :=
  ⟨⟨(on.setQcp { on.qcp with jrnl := some ⟨0, 0, 0x0701, [0, 0, 0, 0], [], false⟩ }).setNv { on.nv with prsFailed := true }, ⟨0, 0, 0x0701, [0, 0, 0,
    0], [], false⟩, by decide +kernel, by decide +kernel, by decide +kernel, by decide +kernel⟩,
    ⟨on.setSess 0 { on.sess 0 with expect := 5 }, 0, ⟨false, false, 4, 2, 0x81, []⟩, by decide +kernel, by decide +kernel, by decide +kernel⟩,
    ⟨(on.setQcp { on.qcp with jrnl := some ⟨0, 0, 0x0A05, [15, 1, 0, 0], [], true⟩ }).setNv { on.nv with prsFailed := true }, ⟨0, 0, 0x0A05, [15, 1, 0, 0],
      [], true⟩, by decide +kernel⟩⟩

/-- A template of 20 ms: a tone node, which is the export, a gain and a mix of eight. -/
def tpl : Template := ⟨20, false, some 0, none, [⟨5, 0, 0, 0, zeros 12⟩, ⟨7, 0, 0, 0, zeros 12⟩, ⟨6, 0, 0, 0, be 2 8 ++ zeros 10⟩], zeros 64⟩

/-- A chain on engine 0 with nothing bound to its idle bank. -/
def chain0 : Chain := ⟨0, 0, 8000, [], true, 0, none, none, true, false, 0, 0, none, false, false, 0, [], [], 0, 0, [], 0, 0, 0, [], none, false, false⟩

/-- A part with that template, whose leg 3 is in a state and has that chain at node 0. -/
def legS (st : FnState) : State :=
  (({ on with tmpls := [(0, tpl)], sets := [(7, ⟨[], [], zeros 16⟩)], confs := [(5, ⟨0, 20, 3, 6, none, [], []⟩)] } : State).setLeg 3
    { Leg.init with st := st, f := 20, med := { Leg.init.med with chains := [(0, chain0)] } })

/-- Leg 3, or node 0 of it. -/
def l3 : Bytes := be 4 3

/-- A capture that is open. -/
def capS (f : Capture → Capture) : State := on.setCap 15 (f { Capture.init with isOpen := true })

/-- A pattern of two frames, and player 63 with it. -/
def plyS (f : Player → Player) : State :=
  (on.setGrn { on.grn with pats := [(0, ⟨false, 64, [⟨1, 0, zeros 60, 0, 0, 0, 0, 0⟩, ⟨1, 5, zeros 60, 0, 0, 0, 0, 0⟩]⟩)] }).setPlayer 63
    (f { Player.init with passed := 1 })

/-- A PATT_PLAY with a number of repeats, a period and a start. -/
def play (reps per : Nat) (t : Inst) : Bytes := [63, 0, 0, 0] ++ be 2 0 ++ be 2 reps ++ be 8 per ++ be 4 0xFFFFFFFF ++ timeBytes t

/-- A ring that is open. -/
def ringS (kind : Nat) (f : GRing → GRing) : State := on.setGring kind 15 (f { GRing.init with isOpen := true })

/-- An inject entry: port, class, launch time, a frame of 60 bytes. -/
def entry (p n : Byte) (t : Inst) : Bytes := [0, p, n, 0] ++ zeros 4 ++ timeBytes t ++ zeros 13 ++ zeros 60

/-- A route to device 5 over port 0. -/
def tand (st : FnState) : State :=
  ((legS st).setPort 0 { (legS st).port 0 with roleF := some 2 }).setTnd { on.tnd with routes := [(5, ⟨0, 1, 0, none, 0, 0, false⟩)] }

/-- The hypotheses of `ConfigurationOfALeg` can be met, clause by clause. -/
theorem meets_configuration_of_a_leg :
    (∃ (q : Req) (s : State) (plan : List ℕ), Accepted opChanEgress 774 q s plan ∧ Room q s) ∧
    (∃ (q : Req) (s : State) (plan : List ℕ), Accepted opChanPlayout 776 q s plan ∧ Room q s) ∧
    (∃ (q : Req) (s : State) (plan : List ℕ), Accepted opChanEchoReset 778 q s plan ∧ Room q s) ∧
    (∃ (q : Req) (s : State) (plan : List ℕ), Accepted opChanBridge 779 q s plan ∧ Room q s) ∧
    (∃ (q : Req) (s : State) (plan : List ℕ), Accepted opChanGain 780 q s plan ∧ Room q s) ∧
    (∃ (q : Req) (s : State) (plan : List ℕ), Accepted opChanGroup 781 q s plan ∧ Room q s) ∧
    (∃ (q : Req) (s : State) (plan : List ℕ), Accepted opChanToneCfg 782 q s plan ∧ Room q s) ∧
    (∃ (q : Req) (s : State) (plan : List ℕ), Accepted opChanCodec 785 q s plan ∧ Room q s) :=
  ⟨⟨q (l3 ++ [7, 2, 6, 0xFF] ++ zeros 60), legS .off, [], accepted (by decide +kernel), ⟨by decide +kernel, by decide +kernel⟩⟩,
    ⟨q (l3 ++ [1, 1] ++ be 2 64 ++ be 4 640000 ++ be 4 639999 ++ be 4 640000), legS .off, [], accepted (by decide +kernel), ⟨by decide +kernel,
      by decide +kernel⟩⟩,
    ⟨q (l3 ++ zeros 12), legS .off, [], accepted (by decide +kernel), ⟨by decide +kernel, by decide +kernel⟩⟩,
    ⟨q (l3 ++ be 4 0xFFFFFFFF ++ zeros 12), legS .off, [], accepted (by decide +kernel), ⟨by decide +kernel, by decide +kernel⟩⟩,
    ⟨q (l3 ++ [23, 48] ++ zeros 14), legS .off, [], accepted (by decide +kernel), ⟨by decide +kernel, by decide +kernel⟩⟩,
    ⟨q (l3 ++ [63] ++ zeros 15), legS .on, [], accepted (by decide +kernel), ⟨by decide +kernel, by decide +kernel⟩⟩,
    ⟨q (l3 ++ [1, 2, 1, 0]), legS .on, [], accepted (by decide +kernel), ⟨by decide +kernel, by decide +kernel⟩⟩,
    ⟨q (l3 ++ zeros 16), legS .off, [], accepted (by decide +kernel), ⟨by decide +kernel, by decide +kernel⟩⟩⟩

/-- The hypotheses of `FlowsAndKeysOfALeg` can be met, clause by clause. -/
theorem meets_flows_and_keys_of_a_leg :
    (∃ (q : Req) (s : State) (plan : List ℕ), Accepted opChanFlowAdd 772 q s plan ∧ Room q s) ∧
    (∃ (q : Req) (s : State) (plan : List ℕ), Accepted opChanFlowDel 773 q s plan ∧ Room q s) ∧
    (∃ (q : Req) (s : State) (plan : List ℕ), Accepted opChanKey 775 q s plan ∧ u8 q.payload 4 = 0 ∧ Room q s) ∧
    (∃ (q : Req) (s : State) (plan : List ℕ), Accepted opChanKey 775 q s plan ∧ (u8 q.payload 4 = 1 ∧ u8 q.payload 5 = 0) ∧ Room q s) ∧
    (∃ (q : Req) (s : State) (plan : List ℕ), Accepted opChanKey 775 q s plan ∧ (u8 q.payload 4 = 1 ∧ u8 q.payload 5 = 1) ∧ Room q s) :=
  ⟨⟨q (l3 ++ [2, 1, 2, 7] ++ be 4 0xFFFFFFFF ++ [6, 1] ++ be 2 5004 ++ zeros 40), legS .off, [], accepted (by decide +kernel), ⟨by decide +kernel,
    by decide +kernel⟩⟩,
    ⟨q (l3 ++ [2, 1, 2, 7] ++ be 4 0xFFFFFFFF ++ [6, 1] ++ be 2 5004 ++ zeros 40), legS .off, [], accepted (by decide +kernel), ⟨by decide +kernel,
      by decide +kernel⟩⟩,
    ⟨q (l3 ++ [0, 1, 4, 4] ++ zeros 72), legS .on, [], accepted (by decide +kernel), by decide +kernel, ⟨by decide +kernel, by decide +kernel⟩⟩,
    ⟨q (l3 ++ [1, 0, 4, 4] ++ zeros 72), legS .off, [], accepted (by decide +kernel), by decide +kernel, ⟨by decide +kernel, by decide +kernel⟩⟩,
    ⟨q (l3 ++ [1, 1, 4, 4] ++ zeros 72), legS .off, [], accepted (by decide +kernel), by decide +kernel, ⟨by decide +kernel, by decide +kernel⟩⟩⟩

/-- The hypotheses of `ChangesOfARunningLegAreArmed` can be met, clause by clause. -/
theorem meets_changes_of_a_running_leg_are_armed :
    (∃ (q : Req) (s : State) (plan : List ℕ), Accepted opChanDisable 770 q s plan ∧ (s.leg (legOf q.payload)).st = FnState.off ∧ Room q s) ∧
    (∃ (q : Req) (s : State) (plan : List ℕ), Accepted opChanDisable 770 q s plan ∧ (s.leg (legOf q.payload)).st = FnState.stopping ∧ Room q s) ∧
    (∃ (q : Req) (s : State) (plan : List ℕ), Accepted opChanDisable 770 q s plan ∧ ((s.leg (legOf q.payload)).st ≠ FnState.off ∧
      (s.leg (legOf q.payload)).st ≠ FnState.stopping) ∧ Room q s) ∧
    (∃ (q : Req) (s : State) (plan : List ℕ), Accepted opChanTonePlay 783 q s plan ∧ Room q s) ∧
    (∃ (q : Req) (s : State) (plan : List ℕ), Accepted opChanToneStop 784 q s plan ∧ Room q s) ∧
    (∃ (q : Req) (s : State) (plan : List ℕ), Accepted opChanConfJoin 802 q s plan ∧ Room q s) ∧
    (∃ (q : Req) (s : State) (plan : List ℕ), Accepted opChanConfLeave 803 q s plan ∧ Room q s) :=
  ⟨⟨q (l3 ++ zeros 12), legS .off, [], accepted (by decide +kernel), by decide +kernel, ⟨by decide +kernel, by decide +kernel⟩⟩,
    ⟨q (l3 ++ zeros 12), legS .stopping, [], accepted (by decide +kernel), by decide +kernel, ⟨by decide +kernel, by decide +kernel⟩⟩,
    ⟨q (l3 ++ zeros 12), legS .on, [], accepted (by decide +kernel), by decide +kernel, ⟨by decide +kernel, by decide +kernel⟩⟩,
    ⟨q (l3 ++ [0, 1, 0, 0] ++ be 2 4000 ++ be 2 0 ++ be 2 0 ++ be 2 1 ++ zeros 12), legS .on, [], accepted (by decide +kernel), ⟨by decide +kernel,
      by decide +kernel⟩⟩,
    ⟨q (l3 ++ zeros 16), legS .on, [], accepted (by decide +kernel), ⟨by decide +kernel, by decide +kernel⟩⟩,
    ⟨q (l3 ++ be 2 5 ++ [1, 0] ++ zeros 12), legS .on, [], accepted (by decide +kernel), ⟨by decide +kernel, by decide +kernel⟩⟩,
    ⟨q (l3 ++ be 2 5 ++ [0, 0] ++ zeros 12), (legS .on).setLeg 3 { (legS .on).leg 3 with conf := some 5 }, [], accepted (by decide +kernel),
      ⟨by decide +kernel, by decide +kernel⟩⟩⟩

/-- The hypotheses of `EnableStartsALeg` can be met, clause by clause. -/
theorem meets_enable_starts_a_leg :
    (∃ (q : Req) (s : State) (phi : ℕ), Accepted opChanEnable 769 q s [phi] ∧ Room q s ∧ (s.leg (legOf q.payload)).st = FnState.off) ∧
    (∃ (q : Req) (s : State) (plan : List ℕ), Accepted opChanEnable 769 q s plan ∧
      ((s.leg (legOf q.payload)).st = FnState.starting ∨ (s.leg (legOf q.payload)).st = FnState.on) ∧ Room q s) ∧
    (∃ (q : Req) (s : State) (plan : List ℕ), Accepted opChanEnable 769 q s plan ∧ (s.leg (legOf q.payload)).st = FnState.stopping ∧ Room q s) :=
  ⟨⟨q (l3 ++ be 2 0 ++ [0, 0xFF] ++ zeros 14 ++ [0, 0xFF, 0xFF] ++ zeros 15), legS .off, 0, accepted (by decide +kernel), ⟨by decide +kernel,
    by decide +kernel⟩, by decide +kernel⟩,
    ⟨q (l3 ++ be 2 0 ++ [0, 0xFF] ++ zeros 14 ++ [0, 0xFF, 0xFF] ++ zeros 15), legS .on, [0], accepted (by decide +kernel), by decide +kernel,
      ⟨by decide +kernel, by decide +kernel⟩⟩,
    ⟨q (l3 ++ be 2 0 ++ [0, 0xFF] ++ zeros 14 ++ [0, 0xFF, 0xFF] ++ zeros 15), legS .stopping, [0], accepted (by decide +kernel), by decide +kernel,
      ⟨by decide +kernel, by decide +kernel⟩⟩⟩

/-- The hypotheses of `GraphChangesAreChargedAndArmed` can be met, clause by clause. -/
theorem meets_graph_changes_are_charged_and_armed :
    (∃ (q : Req) (s : State) (plan : List ℕ), Accepted opChanGraph 771 q s plan ∧ Room q s ∧ (s.leg (legOf q.payload)).admitted = true ∧
      ∀ a ∈ s.armed, a.leg ≠ legOf q.payload) ∧
    (∃ (q : Req) (s : State) (plan : List ℕ), Accepted opChanEcho 777 q s plan ∧ (s.leg (legOf q.payload)).st = FnState.off ∧ Room q s) ∧
    (∃ (q : Req) (s : State) (plan : List ℕ), Accepted opChanEcho 777 q s plan ∧ Room q s ∧ (s.leg (legOf q.payload)).st ≠ FnState.off) :=
  ⟨⟨q (l3 ++ be 2 0 ++ zeros 14), (legS .on).setLeg 3 { (legS .on).leg 3 with admitted := true }, [], accepted (by decide +kernel), ⟨by decide +kernel, by decide +kernel⟩, by decide +kernel⟩,
    ⟨q (l3 ++ be 2 256 ++ [1, 16, 48, 2] ++ be 2 500 ++ [60, 2, 0xBA, 1]), legS .off, [], accepted (by decide +kernel), by decide +kernel,
      ⟨by decide +kernel, by decide +kernel⟩⟩,
    ⟨q (l3 ++ be 2 8 ++ [1, 1, 0, 0] ++ be 2 0 ++ [6, 0, 0xE2, 0]), legS .on, [], accepted (by decide +kernel), ⟨by decide +kernel,
      by decide +kernel⟩, by decide +kernel⟩⟩

/-- A template whose only node is of a type that an engine runs: 3 FILTER, 4 ECHO. -/
def tplE (ty : Nat) : Template := ⟨20, false, none, none, [⟨ty, 0xFF, 0xFF, 0, zeros 12⟩], []⟩

/-- The hypotheses of `ConferencesReportsAndStatus` can be met, clause by clause. -/
theorem meets_conferences_reports_and_status :
    (∃ (q : Req) (s : State) (plan : List ℕ), Accepted opChanRtcp 786 q s plan ∧ Room q s) ∧
    (∃ (q : Req) (s : State) (plan : List ℕ), Accepted opChanClear 787 q s plan ∧ Room q s) ∧
    (∃ (q : Req) (s : State) (plan : List ℕ), Accepted opChanConfCreate 800 q s plan ∧ Room q s) ∧
    (∃ (q : Req) (s : State) (plan : List ℕ), Accepted opChanConfDelete 801 q s plan ∧ Room q s) ∧
    (∃ (q : Req) (s : State) (plan : List ℕ), Accepted opChanStatus 897 q s plan ∧ (s.leg (legOf q.payload)).st = FnState.off) ∧
    (∃ (q : Req) (s : State) (plan : List ℕ) (n : Node), Accepted opChanStatus 897 q s plan ∧ (s.leg (legOf q.payload)).st ≠ FnState.off ∧
      (s.legTmpl (legOf q.payload)).nodes = [n] ∧ n.ty = 3) ∧
    (∃ (c : Conf) (q : Req) (s : State) (plan : List ℕ), Accepted opChanConfStatus 898 q s plan ∧ kget s.confs (num q.payload 0 2) = some c) :=
  ⟨⟨q (l3 ++ be 2 60 ++ [1, 0]), legS .on, [], accepted (by decide +kernel), ⟨by decide +kernel, by decide +kernel⟩⟩,
    ⟨q (l3), legS .off, [], accepted (by decide +kernel), ⟨by decide +kernel, by decide +kernel⟩⟩,
    ⟨q (be 2 4095 ++ [1, 60, 8, 12, 0, 0]), on, [], accepted (by decide +kernel), ⟨by decide +kernel, by decide +kernel⟩⟩,
    ⟨q (be 2 5 ++ zeros 2), legS .on, [], accepted (by decide +kernel), ⟨by decide +kernel, by decide +kernel⟩⟩,
    ⟨q (l3), legS .off, [], accepted (by decide +kernel), by decide +kernel⟩,
    ⟨q (l3), ({ legS .on with tmpls := [(0, tplE 3)] } : State), [], ⟨3, 0xFF, 0xFF, 0, zeros 12⟩, accepted (by decide +kernel), by decide +kernel⟩,
    ⟨⟨0, 20, 3, 6, none, [], []⟩, q (be 2 5 ++ zeros 2), legS .on, [], accepted (by decide +kernel), by decide +kernel⟩⟩

/-- The hypotheses of `TemplatesAreDefinedAndReturned` can be met, clause by clause. -/
theorem meets_templates_are_defined_and_returned :
    (∃ (q : Req) (s : State) (plan : List ℕ), Accepted opGraphDefine 1025 q s plan ∧ Room q s) ∧
    (∃ (q : Req) (s : State) (plan : List ℕ), Accepted opGraphDelete 1026 q s plan ∧ Room q s) ∧
    (∃ (q : Req) (s : State) (plan : List ℕ), Accepted opGraphCptDefine 1027 q s plan ∧ Room q s) ∧
    (∃ (q : Req) (s : State) (plan : List ℕ), Accepted opGraphInfo 1153 q s plan) :=
  ⟨⟨q (be 2 1023 ++ zeros 2 ++ [1, 0, 0xFF, 1, 60, 0xFF] ++ zeros 10), on, [], accepted (by decide +kernel), ⟨by decide +kernel, by decide +kernel⟩⟩,
    ⟨q (be 2 0 ++ zeros 2), legS .off, [], accepted (by decide +kernel), ⟨by decide +kernel, by decide +kernel⟩⟩,
    ⟨q ([15] ++ zeros 14), on, [], accepted (by decide +kernel), ⟨by decide +kernel, by decide +kernel⟩⟩,
    ⟨q (be 2 0 ++ zeros 2), legS .on, [], accepted (by decide +kernel)⟩⟩

/-- The hypotheses of `CoefficientSetsAndChains` can be met, clause by clause. -/
theorem meets_coefficient_sets_and_chains :
    (∃ (q : Req) (s : State) (plan : List ℕ), Accepted opCoefSetLoad 1281 q s plan ∧ Room q s) ∧
    (∃ (q : Req) (s : State) (plan : List ℕ), Accepted opCoefSetFree 1282 q s plan ∧ Room q s) ∧
    (∃ (q : Req) (s : State) (plan : List ℕ), Accepted opCoefBank 1283 q s plan ∧ Room q s) ∧
    (∃ (q : Req) (s : State) (plan : List ℕ), Accepted opCoefPhase 1286 q s plan ∧ Room q s) ∧
    (∃ (q : Req) (s : State) (plan : List ℕ), Accepted opCoefSyncReset 1287 q s plan ∧ Room q s) ∧
    (∃ (q : Req) (s : State) (plan : List ℕ), Accepted opCoefSetInfo 1409 q s plan) ∧
    (∃ (c : Chain) (q : Req) (s : State) (plan : List ℕ), Accepted opCoefChainStatus 1411 q s plan ∧ s.chainAt q.payload = some c) ∧
    (∃ (q : Req) (s : State) (plan : List ℕ), Accepted opCoefRomRead 1410 q s plan ∧ u8 q.payload 0 < 64) ∧
    (∃ (q : Req) (s : State) (plan : List ℕ), Accepted opCoefRomRead 1410 q s plan ∧ 64 ≤ u8 q.payload 0) ∧
    (∃ (c : Chain) (i : ℕ), c.layout.length ≤ i ∧ i < 8) :=
  ⟨⟨q (be 2 2047 ++ zeros 2 ++ be 4 16 ++ [1, 1, 0, 0, 0, 0, 0, 0] ++ [0x10, 0x92, 0, 2, 0, 0, 0, 0]), on, [], accepted (by decide +kernel),
    ⟨by decide +kernel, by decide +kernel⟩⟩,
    ⟨q (be 2 7 ++ zeros 2), legS .on, [], accepted (by decide +kernel), ⟨by decide +kernel, by decide +kernel⟩⟩,
    ⟨q (l3 ++ [0, 0] ++ be 2 7), legS .on, [], accepted (by decide +kernel), ⟨by decide +kernel, by decide +kernel⟩⟩,
    ⟨q (l3 ++ zeros 4), legS .on, [], accepted (by decide +kernel), ⟨by decide +kernel, by decide +kernel⟩⟩,
    ⟨q (l3), legS .on, [], accepted (by decide +kernel), ⟨by decide +kernel, by decide +kernel⟩⟩,
    ⟨q (be 2 7 ++ zeros 2), legS .on, [], accepted (by decide +kernel)⟩,
    ⟨chain0, q (l3), legS .on, [], accepted (by decide +kernel), by decide +kernel⟩,
    ⟨q ([63, 0, 0, 0]), on, [], accepted (by decide +kernel), by decide +kernel⟩,
    ⟨q ([127, 0, 0, 0]), on, [], accepted (by decide +kernel), by decide +kernel⟩,
    ⟨chain0, 7, by decide +kernel⟩⟩

/-- The hypotheses of `SwapsAreArmedOnTheChain` can be met, clause by clause. -/
theorem meets_swaps_are_armed_on_the_chain :
    (∃ (q : Req) (s : State) (plan : List ℕ), Accepted opCoefSwap 1284 q s plan ∧ Room q s) ∧
    (∃ (q : Req) (s : State) (plan : List ℕ), Accepted opCoefSwapCancel 1285 q s plan ∧ Room q s) :=
  ⟨⟨q (l3 ++ zeros 12 ++ be 2 0 ++ zeros 2), (legS .on).updChain 3 0 fun c => { c with bankA := some 7 }, [], accepted (by decide +kernel),
    ⟨by decide +kernel, by decide +kernel⟩⟩,
    ⟨q (l3), legS .on, [], accepted (by decide +kernel), ⟨by decide +kernel, by decide +kernel⟩⟩⟩

/-- The hypotheses of `TheTimeProfileIsSet` can be met, clause by clause. -/
theorem meets_the_time_profile_is_set :
    (∃ (q : Req) (s : State) (plan : List ℕ), Accepted opTimeClock 1537 q s plan ∧ Room q s) ∧
    (∃ (q : Req) (s : State) (plan : List ℕ), Accepted opTimePort 1538 q s plan ∧ Room q s) ∧
    (∃ (q : Req) (s : State) (plan : List ℕ), Accepted opTimeUnicast 1539 q s plan ∧ Room q s) ∧
    (∃ (q : Req) (s : State) (plan : List ℕ), Accepted opTimeStatus 1665 q s plan) ∧
    (∃ (q : Req) (s : State) (plan : List ℕ), Accepted opTimePortStatus 1666 q s plan) ∧
    (∃ (s : State) (p : ℕ), s.ptpRole = 0 ∨ u8 (kgetD s.tmu.ptpPorts p []) 1 ≠ 1) :=
  ⟨⟨q ([2, 2, 2, 63] ++ zeros 16), on, [], accepted (by decide +kernel), ⟨by decide +kernel, by decide +kernel⟩⟩,
    ⟨q ([6, 1, 0, 0, 4, 4, 3, 2] ++ zeros 28), on, [], accepted (by decide +kernel), ⟨by decide +kernel, by decide +kernel⟩⟩,
    ⟨q ([6, 0] ++ zeros 6), on.setTmu { on.tmu with ptpRole := [1, 0, 2, 44] ++ zeros 16 }, [], accepted (by decide +kernel), ⟨by decide +kernel,
      by decide +kernel⟩⟩,
    ⟨q ([]), on, [], accepted (by decide +kernel)⟩,
    ⟨q ([6, 0, 0, 0]), on, [], accepted (by decide +kernel)⟩,
    ⟨on, 6, by decide +kernel⟩⟩

/-- The hypotheses of `CapturesAreOpenedRunAndRead` can be met, clause by clause. -/
theorem meets_captures_are_opened_run_and_read :
    (∃ (q : Req) (s : State) (plan : List ℕ), Accepted opCaptOpen 2049 q s plan ∧ Room q s) ∧
    (∃ (q : Req) (s : State) (plan : List ℕ), Accepted opCaptClose 2050 q s plan ∧ Room q s) ∧
    (∃ (q : Req) (s : State) (plan : List ℕ), Accepted opCaptEnable 2051 q s plan ∧ (s.cap (u8 q.payload 0)).st = FnState.off ∧ Room q s) ∧
    (∃ (q : Req) (s : State) (plan : List ℕ), Accepted opCaptEnable 2051 q s plan ∧ (s.cap (u8 q.payload 0)).st = FnState.stopping ∧ Room q s) ∧
    (∃ (q : Req) (s : State) (plan : List ℕ), Accepted opCaptEnable 2051 q s plan ∧ (s.cap (u8 q.payload 0)).st = FnState.on ∧ Room q s) ∧
    (∃ (q : Req) (s : State) (plan : List ℕ), Accepted opCaptDisable 2052 q s plan ∧ ((s.cap (u8 q.payload 0)).st = FnState.on ∧ s.swt.begun = true) ∧
      Room q s) ∧
    (∃ (q : Req) (s : State) (plan : List ℕ), Accepted opCaptTrigger 2053 q s plan ∧ (s.cap (u8 q.payload 0)).tt.isSome = true ∧ Room q s) ∧
    (∃ (q : Req) (s : State) (plan : List ℕ), Accepted opCaptTrigger 2053 q s plan ∧ (s.cap (u8 q.payload 0)).tt = none ∧ Room q s) ∧
    (∃ (q : Req) (s : State) (plan : List ℕ), Accepted opCaptExport 2054 q s plan ∧ Room q s) ∧
    (∃ (q : Req) (s : State) (plan : List ℕ), Accepted opCaptRead 2177 q s plan) ∧
    (∃ (q : Req) (s : State) (plan : List ℕ), Accepted opCaptStatus 2178 q s plan) ∧
    (∃ (c : Fin 16) (s : State), (s.cap ↑c).st = FnState.on ∧ (s.cap ↑c).trig = 3 ∧ (s.cap ↑c).tt = none ∧ (s.cap ↑c).timeT ≤ s.now) ∧
    (∃ (c : Fin 16) (s : State), s.now < (s.cap ↑c).timeT) ∧
    (∃ (c : Fin 16) (s : State) (j : ExpJob), (s.cap ↑c).exp = some j ∧ j.nextAt ≤ s.loc ∧ s.grn.expAt ≤ s.loc ∧ j.resync = false ∧
      (s.cap ↑c).oldest ≤ j.pos ∧ List.length ((s.cap ↑c).bytesAt j.pos (s.dataRoom j.dest)) = s.dataRoom j.dest ∧
      ((s.cap ↑c).st ≠ FnState.off ∨ j.pos + s.dataRoom j.dest < (s.cap ↑c).off)) ∧
    (∃ (c : Fin 16) (s : State) (j : ExpJob), (s.cap ↑c).exp = some j ∧ (s.loc < j.nextAt ∨ s.loc < s.grn.expAt)) ∧
    (∃ (r : Fin 16) (s : State) (e : ℕ × Bytes × ℕ) (es : List (ℕ × Bytes × ℕ)), (s.gring 0 ↑r).nextAt ≤ s.loc ∧ s.grn.expAt ≤ s.loc ∧
      fitEntries (s.dataRoom (s.gring 0 ↑r).dest) (s.gring 0 ↑r).ents = e :: es) ∧
    (∃ (c : RegCmd) (s : State), Accepted opRegRead 641 (readReq c R.GRN_CAP_STRM_HI) s []) ∧
    (∃ (s : State), s.mode ≠ Mode.reset) :=
  ⟨⟨q ([15, 1, 0, 0] ++ be 2 1 ++ zeros 11 ++ [4] ++ zeros 158), on, [], accepted (by decide +kernel), ⟨by decide +kernel, by decide +kernel⟩⟩,
    ⟨q ([15, 0, 0, 0]), capS id, [], accepted (by decide +kernel), ⟨by decide +kernel, by decide +kernel⟩⟩,
    ⟨q ([15, 0, 0, 0]), capS id, [], accepted (by decide +kernel), by decide +kernel, ⟨by decide +kernel, by decide +kernel⟩⟩,
    ⟨q ([15, 0, 0, 0]), capS fun x => { x with st := .stopping }, [], accepted (by decide +kernel), by decide +kernel, ⟨by decide +kernel,
      by decide +kernel⟩⟩,
    ⟨q ([15, 0, 0, 0]), capS fun x => { x with st := .on }, [], accepted (by decide +kernel), by decide +kernel, ⟨by decide +kernel,
      by decide +kernel⟩⟩,
    ⟨q ([15, 0, 0, 0]), (capS fun x => { x with st := .on }).setSwt { on.swt with begun := true }, [], accepted (by decide +kernel),
      by decide +kernel, ⟨by decide +kernel, by decide +kernel⟩⟩,
    ⟨q ([15, 0, 0, 0]), capS fun x => { x with st := .on, trig := 4, tt := some 0 }, [], accepted (by decide +kernel), by decide +kernel,
      ⟨by decide +kernel, by decide +kernel⟩⟩,
    ⟨q ([15, 0, 0, 0]), capS fun x => { x with st := .on, trig := 4 }, [], accepted (by decide +kernel), by decide +kernel, ⟨by decide +kernel,
      by decide +kernel⟩⟩,
    ⟨q ([15, 0] ++ zeros 18 ++ be 4 1 ++ zeros 16), capS id, [], accepted (by decide +kernel), ⟨by decide +kernel, by decide +kernel⟩⟩,
    ⟨q ([15, 0, 0, 0] ++ be 8 0 ++ be 4 16777216), capS id, [], accepted (by decide +kernel)⟩,
    ⟨q ([15, 0, 0, 0]), capS id, [], accepted (by decide +kernel)⟩,
    ⟨15, capS fun x => { x with st := .on, trig := 3 }, by decide +kernel, by decide +kernel, by decide +kernel, by decide +kernel⟩,
    ⟨15, capS fun x => { x with timeT := 1 }, by decide +kernel⟩,
    ⟨15, (capS fun x => { x with st := .on, recs := [⟨0, zeros 14, 0⟩], off := 14, exp := some ⟨ExpTo.init, 0, false, 0⟩ }).setPort 0 ((short 0).port 0),
      ⟨ExpTo.init, 0, false, 0⟩, by decide +kernel⟩,
    ⟨15, capS fun x => { x with exp := some ⟨ExpTo.init, 0, false, 1⟩ }, ⟨ExpTo.init, 0, false, 1⟩, by decide +kernel, by decide +kernel⟩,
    ⟨15, ringS 0 fun x => { x with ents := [(0, zeros 10, 0)] }, (0, zeros 10, 0), [], by decide +kernel, by decide +kernel, by decide +kernel⟩,
    ⟨c, on, accepted (by decide +kernel)⟩,
    ⟨on, by decide +kernel⟩⟩

/-- The hypotheses of `PatternsArePlayedAndRingsInject` can be met, clause by clause. -/
theorem meets_patterns_are_played_and_rings_inject :
    (∃ (q : Req) (s : State) (plan : List ℕ) (d : Bytes), Accepted opPattLoad 2305 q s plan ∧ Room q s ∧ pattStream q.payload = Sum.inr d) ∧
    (∃ (q : Req) (s : State) (plan : List ℕ), Accepted opPattFromCapt 2306 q s plan ∧ Room q s) ∧
    (∃ (q : Req) (s : State) (plan : List ℕ), Accepted opPattDelete 2307 q s plan ∧ Room q s) ∧
    (∃ (q : Req) (s : State) (plan : List ℕ), Accepted opPattPlay 2308 q s plan ∧ ((s.player (u8 q.payload 0)).st = FnState.off ∧
      s.now + nsI 20000 ≤ bytesTime (sub q.payload 20 12)) ∧ Room q s) ∧
    (∃ (q : Req) (s : State), Accepted opPattPlay 2308 q s [] ∧ Room q s ∧ (s.player (u8 q.payload 0)).st = FnState.off ∧ num q.payload 6 2 = 1 ∧
      bytesTime (sub q.payload 20 12) < s.now + nsI 20000) ∧
    (∃ (q : Req) (s : State) (plan : List ℕ), Accepted opPattPlay 2308 q s plan ∧ ((s.player (u8 q.payload 0)).st = FnState.off ∧
      num q.payload 6 2 = 0 ∧ bytesTime (sub q.payload 20 12) < s.now + nsI 20000) ∧ Room q s) ∧
    (∃ (q : Req) (s : State) (plan : List ℕ), Accepted opPattPlay 2308 q s plan ∧ (s.player (u8 q.payload 0)).st ≠ FnState.off ∧ Room q s) ∧
    (∃ (q : Req) (s : State) (plan : List ℕ), Accepted opPattStop 2309 q s plan ∧ (s.player (u8 q.payload 0)).st ≠ FnState.off ∧ Room q s) ∧
    (∃ (q : Req) (s : State) (plan : List ℕ), Accepted opPattStop 2309 q s plan ∧ (s.player (u8 q.payload 0)).st = FnState.off ∧ Room q s) ∧
    (∃ (q : Req) (s : State) (plan : List ℕ), Accepted opPattInfo 2433 q s plan) ∧
    (∃ (p : Fin 64) (s : State), (s.player ↑p).st = FnState.starting ∧ (s.player ↑p).late = false ∧
      (s.player ↑p).start + (s.player ↑p).shift + (s.player ↑p).rep * (s.player ↑p).per ≤ s.now) ∧
    (∃ (p : Fin 64) (s : State) (i : PItem), (s.player ↑p).st = FnState.on ∧ (s.patOf (s.player ↑p).pat).items[(s.player ↑p).item]? = some i ∧
      s.now < (s.player ↑p).start + (s.player ↑p).shift + (s.player ↑p).rep * (s.player ↑p).per + i.di) ∧
    (∃ (p : Fin 64) (s : State) (i : PItem), (s.player ↑p).st = FnState.on ∧ (s.patOf (s.player ↑p).pat).items[(s.player ↑p).item]? = some i ∧
      (s.player ↑p).start + (s.player ↑p).shift + (s.player ↑p).rep * (s.player ↑p).per + i.di ≤ s.now ∧
      (s.player ↑p).passed ≤ (s.player ↑p).start + (s.player ↑p).shift + (s.player ↑p).rep * (s.player ↑p).per + i.di ∧ i.kind ≠ 3 ∧
      (s.player ↑p).item + 1 < (s.patOf (s.player ↑p).pat).items.length) ∧
    (∃ (p : Fin 64) (s : State) (i : PItem), (s.player ↑p).st = FnState.on ∧ (s.patOf (s.player ↑p).pat).items[(s.player ↑p).item]? = some i ∧
      (s.player ↑p).start + (s.player ↑p).shift + (s.player ↑p).rep * (s.player ↑p).per + i.di ≤ s.now ∧
      (s.player ↑p).passed ≤ (s.player ↑p).start + (s.player ↑p).shift + (s.player ↑p).rep * (s.player ↑p).per + i.di ∧ i.kind ≠ 3 ∧
      (s.patOf (s.player ↑p).pat).items.length = (s.player ↑p).item + 1 ∧ ((s.player ↑p).reps = 0 ∨ (s.player ↑p).rep + 1 < (s.player ↑p).reps)) ∧
    (∃ (q : Req) (s : State) (plan : List ℕ), Accepted opRingOpen 2561 q s plan ∧ u8 q.payload 1 = 0 ∧ Room q s) ∧
    (∃ (q : Req) (s : State) (plan : List ℕ), Accepted opRingOpen 2561 q s plan ∧ u8 q.payload 1 = 1 ∧ Room q s) ∧
    (∃ (q : Req) (s : State) (plan : List ℕ), Accepted opRingClose 2562 q s plan ∧ Room q s) ∧
    (∃ (q : Req) (s : State) (plan : List ℕ), Accepted opRingEnable 2563 q s plan ∧ (s.gring (u8 q.payload 1) (u8 q.payload 0)).st = FnState.off ∧
      Room q s) ∧
    (∃ (q : Req) (s : State) (plan : List ℕ), Accepted opRingEnable 2563 q s plan ∧ (s.gring (u8 q.payload 1) (u8 q.payload 0)).st = FnState.stopping ∧
      Room q s) ∧
    (∃ (q : Req) (s : State) (plan : List ℕ), Accepted opRingDisable 2564 q s plan ∧ Room q s) ∧
    (∃ (q : Req) (s : State) (plan : List ℕ), Accepted opRingFeed 2565 q s plan ∧ Room q s) ∧
    (∃ (q : Req) (s : State) (plan : List ℕ), Accepted opRingStatus 2689 q s plan) ∧
    (∃ (r : Fin 16) (s : State) (i : ℕ) (a : ℕ) (e : Bytes), (s.gring 1 ↑r).st = FnState.on ∧
      List.find? (fun e => e.1 == (s.gring 1 ↑r).launched) (s.gring 1 ↑r).ents = some (i, e, a) ∧ u8 e 32 ≠ 1 ∧ (bytesTime (sub e 8 12) ≠ 0 ∧
      s.now < bytesTime (sub e 8 12))) ∧
    (∃ (r : Fin 16) (s : State) (i : ℕ) (a : ℕ) (e : Bytes), (s.gring 1 ↑r).st = FnState.on ∧
      List.find? (fun e => e.1 == (s.gring 1 ↑r).launched) (s.gring 1 ↑r).ents = some (i, e, a) ∧ u8 e 32 ≠ 1 ∧
      (bytesTime (sub e 8 12) = 0 ∨ bytesTime (sub e 8 12) ≤ s.now) ∧ (6 < u8 e 2 ∨ 7 < u8 e 1)) ∧
    (∃ (r : Fin 16) (s : State) (i : ℕ) (a : ℕ) (e : Bytes), (s.gring 1 ↑r).st = FnState.on ∧
      List.find? (fun e => e.1 == (s.gring 1 ↑r).launched) (s.gring 1 ↑r).ents = some (i, e, a) ∧ u8 e 32 ≠ 1 ∧
      (bytesTime (sub e 8 12) = 0 ∨ bytesTime (sub e 8 12) ≤ s.now) ∧ u8 e 2 ≤ 6 ∧ u8 e 1 ≤ 7 ∧
      ((s.setGring 1 ↑r { isOpen := (s.gring 1 ↑r).isOpen, st := (s.gring 1 ↑r).st, pendEn := (s.gring 1 ↑r).pendEn, n := (s.gring 1 ↑r).n, src := (s.gring 1 ↑r).src, filt := (s.gring 1 ↑r).filt, snap := (s.gring 1 ↑r).snap, dest := (s.gring 1 ↑r).dest, mib := (s.gring 1 ↑r).mib, idx := (s.gring 1 ↑r).idx, credit := (s.gring 1 ↑r).credit, ents := (s.gring 1 ↑r).ents, launched := (s.gring 1 ↑r).launched + 1, wbs := (s.gring 1 ↑r).wbs, wbNext := (s.gring 1 ↑r).wbNext, nextAt := (s.gring 1 ↑r).nextAt }).txRequest (u8 e 1) { bytes := (TxFrame.plain (List.drop 33 e) (u8 e 2) (TxOrigin.inject (↑r) i)).bytes, tc := (TxFrame.plain (List.drop 33 e) (u8 e 2) (TxOrigin.inject (↑r) i)).tc, media := (TxFrame.plain (List.drop 33 e) (u8 e 2) (TxOrigin.inject (↑r) i)).media, playback := (TxFrame.plain (List.drop 33 e) (u8 e 2) (TxOrigin.inject (↑r) i)).playback, exportG := (TxFrame.plain (List.drop 33 e) (u8 e 2) (TxOrigin.inject (↑r) i)).exportG, group := (TxFrame.plain (List.drop 33 e) (u8 e 2) (TxOrigin.inject (↑r) i)).group, origin := (TxFrame.plain (List.drop 33 e) (u8 e 2) (TxOrigin.inject (↑r) i)).origin, tsReq := tb (u8 e 0) 7, ingress := (TxFrame.plain (List.drop 33 e) (u8 e 2) (TxOrigin.inject (↑r) i)).ingress }).2 = true) ∧
    (∃ (r : Fin 16) (s : State) (w : ℕ × Bytes × ℕ) (ws : List (ℕ × Bytes × ℕ)),
      List.take (s.dataRoom (s.gring 1 ↑r).dest / 32) (wbRun (s.gring 1 ↑r).wbs.length (s.gring 1 ↑r).wbs (s.gring 1 ↑r).wbNext) = w :: ws ∧
      7 ≤ ws.length ∧ (s.gring 1 ↑r).nextAt ≤ s.loc) :=
  ⟨⟨q (be 2 4095 ++ zeros 2 ++ be 8 32 ++ [0x11] ++ zeros 31), on, [], [0x11] ++ zeros 31, accepted (by decide +kernel), ⟨by decide +kernel,
    by decide +kernel⟩, by decide +kernel⟩,
    ⟨q (be 2 4095 ++ [15, 0] ++ be 8 0 ++ be 8 32), capS fun x => { x with recs := [⟨0, [0x11] ++ zeros 31, 0⟩], off := 32 }, [],
      accepted (by decide +kernel), ⟨by decide +kernel, by decide +kernel⟩⟩,
    ⟨q (be 2 0 ++ zeros 2), plyS fun x => { x with pat := 1 }, [], accepted (by decide +kernel), ⟨by decide +kernel, by decide +kernel⟩⟩,
    ⟨q (play 0 100 (nsI 20000)), plyS id, [], accepted (by decide +kernel), by decide +kernel, ⟨by decide +kernel, by decide +kernel⟩⟩,
    ⟨q (play 1 0 (nsI 20000 - 1)), plyS id, accepted (by decide +kernel), ⟨by decide +kernel, by decide +kernel⟩, by decide +kernel,
      by decide +kernel, by decide +kernel⟩,
    ⟨q (play 0 100 (nsI 20000 - 1)), plyS id, [], accepted (by decide +kernel), by decide +kernel, ⟨by decide +kernel, by decide +kernel⟩⟩,
    ⟨q (play 0 100 (nsI 20000)), plyS fun x => { x with st := .on }, [], accepted (by decide +kernel), by decide +kernel, ⟨by decide +kernel,
      by decide +kernel⟩⟩,
    ⟨q ([63, 0, 0, 0]), plyS fun x => { x with st := .on }, [], accepted (by decide +kernel), by decide +kernel, ⟨by decide +kernel,
      by decide +kernel⟩⟩,
    ⟨q ([63, 0, 0, 0]), on, [], accepted (by decide +kernel), by decide +kernel, ⟨by decide +kernel, by decide +kernel⟩⟩,
    ⟨q (be 2 4095 ++ zeros 2), on, [], accepted (by decide +kernel)⟩,
    ⟨63, plyS fun x => { x with st := .starting }, by decide +kernel, by decide +kernel, by decide +kernel⟩,
    ⟨63, plyS fun x => { x with st := .on, start := 1 }, ⟨1, 0, zeros 60, 0, 0, 0, 0, 0⟩, by decide +kernel, by decide +kernel, by decide +kernel⟩,
    ⟨63, (plyS fun x => { x with st := .on, passed := 0, start := 1 }).setTmu { on.tmu with acc := 2 ^ 60 }, ⟨1, 0, zeros 60, 0, 0, 0, 0, 0⟩,
      by decide +kernel⟩,
    ⟨63, (plyS fun x => { x with st := .on, item := 1 }).setTmu { on.tmu with acc := 2 ^ 60 }, ⟨1, 5, zeros 60, 0, 0, 0, 0, 0⟩, by decide +kernel⟩,
    ⟨q ([15, 0, 6, 0] ++ zeros 81 ++ zeros 19 ++ be 4 1 ++ zeros 16), on, [], accepted (by decide +kernel), by decide +kernel, ⟨by decide +kernel,
      by decide +kernel⟩⟩,
    ⟨q ([15, 1, 16, 0] ++ zeros 1 ++ zeros 19 ++ be 4 100000 ++ zeros 16), on, [], accepted (by decide +kernel), by decide +kernel,
      ⟨by decide +kernel, by decide +kernel⟩⟩,
    ⟨q ([15, 1, 0, 0]), ringS 1 id, [], accepted (by decide +kernel), ⟨by decide +kernel, by decide +kernel⟩⟩,
    ⟨q ([15, 0, 0, 0]), ringS 0 id, [], accepted (by decide +kernel), by decide +kernel, ⟨by decide +kernel, by decide +kernel⟩⟩,
    ⟨q ([15, 1, 0, 0]), ringS 1 fun x => { x with st := .stopping }, [], accepted (by decide +kernel), by decide +kernel, ⟨by decide +kernel,
      by decide +kernel⟩⟩,
    ⟨q ([15, 1, 0, 0]), ringS 1 id, [], accepted (by decide +kernel), ⟨by decide +kernel, by decide +kernel⟩⟩,
    ⟨q ([15, 1, 0, 0]), ringS 1 id, [], accepted (by decide +kernel), ⟨by decide +kernel, by decide +kernel⟩⟩,
    ⟨q ([15, 1, 0, 0]), ringS 1 id, [], accepted (by decide +kernel)⟩,
    ⟨15, ringS 1 fun x => { x with st := .on, ents := [(0, entry 7 6 65536, 0)] }, 0, 0, entry 7 6 65536, by decide +kernel, by decide +kernel,
      by decide +kernel, by decide +kernel⟩,
    ⟨15, ringS 1 fun x => { x with st := .on, ents := [(0, entry 7 7 0, 0)] }, 0, 0, entry 7 7 0, by decide +kernel, by decide +kernel,
      by decide +kernel, by decide +kernel, by decide +kernel⟩,
    ⟨15, ringS 1 fun x => { x with st := .on, ents := [(0, entry 7 6 0, 0)] }, 0, 0, entry 7 6 0, by decide +kernel⟩,
    ⟨15, ringS 1 fun x => { x with wbs := ((List.range 8).map fun k => (k, zeros 32, 0)) }, (0, zeros 32, 0), ((List.range 8).map fun k => (k,
      zeros 32, 0)).drop 1, by decide +kernel, by decide +kernel, by decide +kernel⟩⟩

/-- The hypotheses of `TandemPathsAreSetAndArmed` can be met, clause by clause. -/
theorem meets_tandem_paths_are_set_and_armed :
    (∃ (q : Req) (s : State) (plan : List ℕ), Accepted opTandRoute 2817 q s plan ∧ Room q s) ∧
    (∃ (q : Req) (s : State) (plan : List ℕ), Accepted opTandRing 2818 q s plan ∧ Room q s) ∧
    (∃ (q : Req) (s : State) (plan : List ℕ), Accepted opTandExport 2819 q s plan ∧
      (s.tnd.exps.any fun x => x.leg == legOf q.payload && x.dev == num q.payload 4 2) = false ∧ Room q s) ∧
    (∃ (q : Req) (s : State) (plan : List ℕ), Accepted opTandExport 2819 q s plan ∧
      (s.tnd.exps.any fun x => x.leg == legOf q.payload && x.dev == num q.payload 4 2) = true ∧ Room q s) ∧
    (∃ (q : Req) (s : State) (plan : List ℕ), Accepted opTandExportDel 2820 q s plan ∧ Room q s) ∧
    (∃ (q : Req) (s : State) (plan : List ℕ), Accepted opTandImport 2821 q s plan ∧ Room q s) ∧
    (∃ (q : Req) (s : State) (plan : List ℕ), Accepted opTandImportDel 2822 q s plan ∧ Room q s) ∧
    (∃ (q : Req) (s : State) (c : Conf) (plan : List ℕ), Accepted opTandConfImport 2823 q s plan ∧ Room q s ∧
      kget s.confs (num q.payload 0 2) = some c) ∧
    (∃ (q : Req) (s : State) (plan : List ℕ), Accepted opTandMigrateOut 2824 q s plan ∧ Room q s) ∧
    (∃ (q : Req) (s : State) (phi : ℕ), Accepted opTandMigrateIn 2825 q s [phi] ∧ Room q s) ∧
    (∃ (q : Req) (s : State) (plan : List ℕ), Accepted opTandStatus 2945 q s plan) ∧
    (∃ (v : Word) (c : RegCmd) (s : State), Accepted opRegWrite 513 (writeReq c R.TND_CFG (BitVec.toNat v)) s []) ∧
    (∃ (v : Word) (c : RegCmd) (s : State), Accepted opRegWrite 513 (writeReq c R.TND_WIN (BitVec.toNat v)) s []) :=
  ⟨⟨q (be 2 4095 ++ [0, 1] ++ be 4 0 ++ [0xFF] ++ zeros 7), tand .on, [], accepted (by decide +kernel), ⟨by decide +kernel, by decide +kernel⟩⟩,
    ⟨q ([0, 0, 2, 0]), tand .on, [], accepted (by decide +kernel), ⟨by decide +kernel, by decide +kernel⟩⟩,
    ⟨q (l3 ++ be 2 5 ++ zeros 2 ++ zeros 12), tand .on, [], accepted (by decide +kernel), by decide +kernel, ⟨by decide +kernel, by decide +kernel⟩⟩,
    ⟨q (l3 ++ be 2 5 ++ zeros 2 ++ zeros 12), (tand .on).setTnd { (tand .on).tnd with exps := [⟨3, 5, false⟩] }, [], accepted (by decide +kernel),
      by decide +kernel, ⟨by decide +kernel, by decide +kernel⟩⟩,
    ⟨q (l3 ++ be 2 5 ++ zeros 2 ++ zeros 12), (tand .on).setTnd { (tand .on).tnd with exps := [⟨3, 5, false⟩] }, [], accepted (by decide +kernel),
      ⟨by decide +kernel, by decide +kernel⟩⟩,
    ⟨q (l3 ++ be 2 5 ++ [1, 3] ++ be 4 131071 ++ be 2 0 ++ [20, 0] ++ zeros 12), tand .off, [], accepted (by decide +kernel), ⟨by decide +kernel,
      by decide +kernel⟩⟩,
    ⟨q (l3 ++ zeros 12), (tand .on).setTnd { (tand .on).tnd with imps := [⟨3, 5, 0, 0, 0, 0, 20, false⟩] }, [], accepted (by decide +kernel),
      ⟨by decide +kernel, by decide +kernel⟩⟩,
    ⟨q (be 2 5 ++ be 2 4095 ++ be 4 131071 ++ be 2 0 ++ zeros 14), tand .on, ⟨0, 20, 3, 6, none, [], []⟩, [], accepted (by decide +kernel),
      ⟨by decide +kernel, by decide +kernel⟩, by decide +kernel⟩,
    ⟨q (l3 ++ be 2 4095 ++ zeros 2 ++ be 4 131071 ++ zeros 12), tand .on, [], accepted (by decide +kernel), ⟨by decide +kernel, by decide +kernel⟩⟩,
    ⟨q (l3 ++ be 2 4095 ++ zeros 2 ++ be 4 131071 ++ be 2 0 ++ zeros 14), tand .off, 0, accepted (by decide +kernel), ⟨by decide +kernel,
      by decide +kernel⟩⟩,
    ⟨q ([]), on, [], accepted (by decide +kernel)⟩,
    ⟨0x01000FFF, c, on, accepted (by decide +kernel)⟩,
    ⟨1000, c, on, accepted (by decide +kernel)⟩⟩

/-- The hypotheses of `PeaksClearAndEnginesAreEnabled` can be met, clause by clause. -/
theorem meets_peaks_clear_and_engines_are_enabled :
    (∃ (c : RegCmd) (s : State), Accepted opRegWrite 513 (writeReq c R.PLY_CTL 1) s []) ∧
    (∃ (e : Fin 16) (c : RegCmd) (s : State), Accepted opRegWrite 513 (writeReq c (R.FCE_CTL ↑e) 1) s []) ∧
    (∃ (e : Fin 32) (c : RegCmd) (s : State), Accepted opRegWrite 513 (writeReq c (R.ECE_CTL ↑e) 1) s []) ∧
    (∃ (c : RegCmd) (s : State), Accepted opRegWrite 513 (writeReq c R.KNL_CTL 1) s []) ∧
    (∃ (c : RegCmd) (s : State), Accepted opRegWrite 513 (writeReq c R.KNL_CTL 2) s []) ∧
    (∃ (v : Word) (c : RegCmd) (s : State), Accepted opRegWrite 513 (writeReq c R.KNL_HIST_SEL (BitVec.toNat v)) s []) ∧
    (∃ (v : Word) (c : RegCmd) (s : State), Accepted opRegWrite 513 (writeReq c R.KNL_CFG (BitVec.toNat v)) s []) ∧
    (∃ (c : RegCmd) (s : State), Accepted opRegWrite 513 (writeReq c R.MMU_CTL 1) s []) ∧
    (∃ (c : RegCmd) (s : State), Accepted opRegWrite 513 (writeReq c R.FRP_CTL 1) s []) ∧
    (∃ (c : RegCmd) (s : State), Accepted opRegWrite 513 (writeReq c R.BAL_CTL 1) s []) ∧
    (∃ (c : RegCmd) (s : State), Accepted opRegWrite 513 (writeReq c R.GLN_CTL 1) s []) ∧
    (∃ (v : Word) (c : RegCmd) (s : State), Accepted opRegWrite 513 (writeReq c R.GLN_CFG (BitVec.toNat v)) s []) ∧
    (∃ (c : RegCmd) (s : State), Accepted opRegRead 641 (readReq c R.FRP_REC_POP) s []) ∧
    (∃ (s : State), s.mode ≠ Mode.reset) ∧
    (∃ (c : RegCmd) (s : State), Accepted opRegRead 641 (readReq c R.GLN_REC_POP) s []) :=
  ⟨⟨c, on, accepted (by decide +kernel)⟩,
    ⟨15, c, on, accepted (by decide +kernel)⟩,
    ⟨31, c, on, accepted (by decide +kernel)⟩,
    ⟨c, on, accepted (by decide +kernel)⟩,
    ⟨c, on, accepted (by decide +kernel)⟩,
    ⟨31, c, on, accepted (by decide +kernel)⟩,
    ⟨1, c, on, accepted (by decide +kernel)⟩,
    ⟨c, on, accepted (by decide +kernel)⟩,
    ⟨c, on, accepted (by decide +kernel)⟩,
    ⟨c, on, accepted (by decide +kernel)⟩,
    ⟨c, on, accepted (by decide +kernel)⟩,
    ⟨0x888000, c, on, accepted (by decide +kernel)⟩,
    ⟨c, on, accepted (by decide +kernel)⟩,
    ⟨on, by decide +kernel⟩,
    ⟨c, on, accepted (by decide +kernel)⟩⟩

/-- Nothing worked out yet. -/
def work0 : Work := ⟨Leg.init.med, [], [], false, [], [], false⟩

/-- A running task of leg 3 of a kind. -/
def taskR (kind : Nat) : Task := { Task.init kind 0 0 with leg := some 3, st := .running, core := some 127, work := some work0, logOff := some 0 }

/-- Leg 3 runs template `i`, and a task runs on core 127. Templates 1 and 2 hold one engine node. -/
def runS (i : Nat) (t : Task) : State :=
  ((({ on with tmpls := [(1, tplE 3), (2, tplE 4)] } : State).setLeg 3 { Leg.init with st := .on, f := 20, cfg := { Leg.init.cfg with tmpl := i } }).setTask 1
    t).setCore 127 { Core.init with run := some 1 }

/-- The call that this task makes next. -/
def call (ty : Nat) : CallAt := ⟨1, taskR 0, 3, 0, ⟨ty, 0xFF, 0xFF, 0, zeros 12⟩, work0⟩

/-- A chain engine and a canceller that are ON. -/
def engS (ty : Nat) : State := ((runS (ty - 2) (taskR 0)).setFld (R.FCE_STAT_STATE 14) 2).setFld (R.ECE_STAT_STATE 28) 2

/-- An area of leg 3 on engine 0. -/
def area (st : Nat) : Area := ⟨3, 0, 4, 0, st, poolBase, 0, 0, 0⟩

/-- A part with that area. -/
def areaS (st : Nat) : State := (legS .on).setMmu { on.mmu with areas := [area st] }

/-- Context 16 maps the page of 4 KiB at address 0 to the loft page at 0x5000, with every permission. -/
def mapped : State :=
  let e (st sz a fl : Nat) : Bytes := be 8 (st * 2 ^ 62 + sz * 2 ^ 60 + a + fl)
  (((((on.setMmu { on.mmu with valid := [(16, true)], roots := [(16, 1)] }).memWrite 0x1000 (e 2 3 0x2000 0)).memWrite 0x2000 (e 2 3 0x3000 0)).memWrite
    0x3000 (e 2 3 0x4000 0)).memWrite 0x4000 (e 2 0 0x5000 0x16))

/-- What the walk finds there. -/
def leaf : Xlate := ⟨2 * 2 ^ 62 + 0x5000 + 0x16, 0x4000, 0x5000⟩

/-- A descriptor of context 16 at address 0. -/
def desc (op len : Nat) : Desc := ⟨0, be 1 op ++ [0] ++ be 2 16 ++ be 4 len ++ zeros 16 ++ zeros 8, 0, 0, 0, 0, 0, 0, false, none, false, [], none⟩

/-- Ring 2 of engine 0, which is ON, holds a descriptor. -/
def descS (d : Desc) : State := (mapped.setDeng 0 { DEng.init with st := .on, en := true }).setDring 2 { DRing.init with descs := [d] }

/-- A firmware task of context 16 on core 127. The page at 0x80000 moves, and that at 0x81000 may be read and written. -/
def fwTask : Task := { Task.init 4 0 0 with st := .running, core := some 127, ctx := 16 }

def fwS : State :=
  (((mapped.memWrite 0x4400 (be 8 (3 * 2 ^ 62 + 0x5000 + 0x16))).memWrite 0x4408 (be 8 (2 * 2 ^ 62 + 0x6000 + 0x16))).setTask 1 fwTask).setCore 127
    { Core.init with run := some 1 }

/-- A part whose SYS pool is full. -/
def sysFull : State := on.setKnl { on.knl with tasks := List.replicate 4096 (0, Task.init 4 0 0) }

theorem sysFull_used : sysFull.poolUsed 1 = 4096 := by
  change ((List.replicate 4096 ((0 : Nat), Task.init 4 0 0)).filter fun t => poolOf t.2.kind == 1).length = 4096
  rw [List.filter_replicate_of_pos (by decide), List.length_replicate]

/-- The hypotheses of `TasksRunAndCallEngines` can be met, clause by clause. -/
theorem meets_tasks_run_and_call_engines :
    (∃ (l : Fin 131072) (s : State) (a : Area), s.mmu.areas.find? (fun a => a.leg == l.val && a.st == 1) = some a ∧ s.frontArea a.eng 1 4 = some a ∧
      s.restages a.eng ≠ []) ∧
    (∃ (l : Fin 131072) (s : State) (a : Area), s.mmu.areas.find? (fun a => a.leg == l.val && a.st == 1) = some a ∧ s.frontArea a.eng 1 4 = some a ∧ s.restages a.eng = [] ∧
      let t := (((s.kennelDone a St.ok (a.kib * 1024) 0).setAreaSt a 2).moved a.eng (a.kib * 1024)).dengRest a.eng;
      (t.setKnl { t.knl with lastStage := if s.swt.bT < a.b then some s.loc else t.knl.lastStage }).legTask l.val = none) ∧
    (∃ (l : Fin 131072) (s : State) (a : Area) (i : ℕ) (k : Task), s.mmu.areas.find? (fun a => a.leg == l.val && a.st == 1) = some a ∧
      s.frontArea a.eng 1 4 = some a ∧ s.restages a.eng = [] ∧
      (let t := (((s.kennelDone a St.ok (a.kib * 1024) 0).setAreaSt a 2).moved a.eng (a.kib * 1024)).dengRest a.eng;
        (t.setKnl { t.knl with lastStage := if s.swt.bT < a.b then some s.loc else t.knl.lastStage }).legTask l.val = some (i, k)) ∧
      k.kind = 0 ∧ k.b = a.b ∧ k.st = TaskSt.waiting ∧ k.staged = false) ∧
    (∃ (l : Fin 131072) (s : State) (a : Area) (i : ℕ) (k : Task), s.mmu.areas.find? (fun a => a.leg == l.val && a.st == 1) = some a ∧
      s.frontArea a.eng 1 4 = some a ∧ s.restages a.eng = [] ∧
      (let t := (((s.kennelDone a St.ok (a.kib * 1024) 0).setAreaSt a 2).moved a.eng (a.kib * 1024)).dengRest a.eng;
        (t.setKnl { t.knl with lastStage := if s.swt.bT < a.b then some s.loc else t.knl.lastStage }).legTask l.val = some (i, k)) ∧
      k.staged = true) ∧
    (∃ (l : Fin 131072) (s : State), s.mmu.areas.find? (fun a => a.leg == l.val && a.st == 1) = none) ∧
    (∃ (s : State), s.poolUsed 1 < 4096) ∧
    (∃ (s : State), 4096 ≤ s.poolUsed 1 ∧ s.flag R.KNL_CFG_REFUSE = true) ∧
    (∃ (s : State), 4096 ≤ s.poolUsed 1 ∧ s.flag R.KNL_CFG_REFUSE = false) ∧
    (∃ (m : SysMake) (s : State), s.knl.sysHeld = [m] ∧ s.poolUsed 1 < 4096) ∧
    (∃ (c : Fin 128) (made : List SysMake) (s : State), ((made.foldl (fun t m => t.makeSys m) s).callsEnd c.val).running c.val = none) ∧
    (∃ (c : Fin 128) (made : List SysMake) (s : State) (i : ℕ) (t : Task) (l : ℕ) (w : Work),
      let b := (made.foldl (fun t m => t.makeSys m) s).callsEnd c.val;
      b.running c.val = some (i, t) ∧ t.leg = some l ∧ t.kind ≤ 1 ∧ t.work = some w ∧ b.engineNode l t w = none ∧ b.pastDeadline = false) ∧
    (∃ (c : Fin 128) (made : List SysMake) (s : State) (i : ℕ) (t : Task) (l : ℕ) (w : Work),
      let b := (made.foldl (fun t m => t.makeSys m) s).callsEnd c.val;
      b.running c.val = some (i, t) ∧ t.leg = some l ∧ t.kind ≤ 1 ∧ t.work = some w ∧ (b.engineNode l t w).isSome = true) ∧
    (∃ (c : Fin 128) (made : List SysMake) (s : State) (i : ℕ) (t : Task) (l : ℕ) (w : Work),
      let b := (made.foldl (fun t m => t.makeSys m) s).callsEnd c.val;
      b.running c.val = some (i, t) ∧ t.leg = some l ∧ t.kind ≤ 1 ∧ t.work = some w ∧ b.pastDeadline = true) ∧
    (∃ (c : Fin 128) (made : List SysMake) (s : State) (i : ℕ) (t : Task), let b := (made.foldl (fun t m => t.makeSys m) s).callsEnd c.val;
      b.running c.val = some (i, t) ∧ t.leg.isSome = true ∧ 1 < t.kind) ∧
    (∃ (c : Fin 128) (made : List SysMake) (s : State) (i : ℕ) (t : Task), let b := (made.foldl (fun t m => t.makeSys m) s).callsEnd c.val;
      b.running c.val = some (i, t) ∧ t.leg = none ∧ t.kind ≠ 2) ∧
    (∃ (c : Fin 128) (made : List SysMake) (s : State) (i : ℕ) (t : Task), let b := (made.foldl (fun t m => t.makeSys m) s).callsEnd c.val;
      b.running c.val = some (i, t) ∧ t.leg = none ∧ t.kind = 2) ∧
    (∃ (c : Fin 128) (s : State) (i : ℕ) (t : Task), s.running c.val = some (i, t) ∧ s.engQ.find? (fun q => q.task == i) = none) ∧
    (∃ (c : Fin 128) (s : State) (i : ℕ) (t : Task) (x : EngCall) (k : CallAt), s.running c.val = some (i, t) ∧
      s.engQ.find? (fun q => q.task == i) = some x ∧ (∀ q ∈ s.engQ, q.eng = x.eng → q.task = i) ∧ (s.dropCall i).callOf i = some k) ∧
    (∃ (c : Fin 128) (e : Fin 32) (s : State) (k : CallAt), let a := s.callsEnd c.val;
      a.callAt c.val = some k ∧ k.node.ty = 3 ∧ a.fceFor c.val (a.workChain k).eng k.t.notEng = some (e.val, false)) ∧
    (∃ (c : Fin 128) (e : Fin 32) (s : State) (k : CallAt) (r : Slice), let a := s.callsEnd c.val;
      a.callAt c.val = some k ∧ k.node.ty = 3 ∧ a.fceFor c.val (a.workChain k).eng k.t.notEng = some (e.val, true) ∧ a.sliceOn 1 e.val = some r) ∧
    (∃ (c : Fin 128) (e : Fin 32) (s : State) (k : CallAt), let a := s.callsEnd c.val;
      a.callAt c.val = some k ∧ k.node.ty = 3 ∧ ∀ cut, a.fceFor c.val (a.workChain k).eng k.t.notEng ≠ some (e.val, cut)) ∧
    (∃ (c : Fin 128) (e : Fin 32) (s : State) (k : CallAt), let a := s.callsEnd c.val;
      a.callAt c.val = some k ∧ k.node.ty = 4 ∧ a.eceFor c.val k.t.notEng = some (e.val, false)) ∧
    (∃ (c : Fin 128) (s : State) (k : CallAt), let a := s.callsEnd c.val;
      a.callAt c.val = some k ∧ k.node.ty = 4 ∧ a.eceFor c.val k.t.notEng = none) ∧
    (∃ (c : Fin 128) (e : Fin 32) (s : State) (k : CallAt) (r : Slice), let a := s.callsEnd c.val;
      a.callAt c.val = some k ∧ k.node.ty = 4 ∧ a.eceFor c.val k.t.notEng = some (e.val, true) ∧ a.sliceOn 2 e.val = some r) ∧
    (∃ (c : Fin 128) (s : State), (s.callsEnd c.val).callAt c.val = none) ∧
    (∃ (c : Fin 128) (va : BitVec 48) (s : State) (i : ℕ) (t : Task) (x : Xlate), s.running c.val = some (i, t) ∧ 0x80000 ≤ va.toNat ∧
      s.coreMeets c.val t.context va.toNat 0 = Cause.transit ∧
      (s.coreLookup c.val t.context va.toNat).coreMeets c.val t.context va.toNat 0 = Cause.transit ∧
      (s.coreLookup c.val t.context va.toNat).walk t.context va.toNat = some x) ∧
    (∃ (c : Fin 128) (va : BitVec 48) (s : State) (i : ℕ) (t : Task), s.running c.val = some (i, t) ∧ 0x80000 ≤ va.toNat ∧
      s.coreMeets c.val t.context va.toNat 0 ≠ Cause.transit) ∧
    (∃ (c : Fin 128) (s : State), s.running c.val = none) ∧
    (∃ (e : Fin 16) (v : Word) (s : State), v.getLsbD 0 = s.flag (R.FCE_CFG_EN e.val) ∨ (v.getLsbD 0 = true ∧ s.fceSt e.val = .failed)) ∧
    (∃ (e : Fin 16) (v : Word) (s : State), s.flag (R.FCE_CFG_EN e.val) = false ∧ v.getLsbD 0 = true ∧ s.fceSt e.val = .off) ∧
    (∃ (e : Fin 16) (v : Word) (s : State), s.flag (R.FCE_CFG_EN e.val) = false ∧ v.getLsbD 0 = true ∧ s.fceSt e.val = .starting) ∧
    (∃ (e : Fin 16) (v : Word) (s : State), s.flag (R.FCE_CFG_EN e.val) = false ∧ v.getLsbD 0 = true ∧ s.fceSt e.val = .stopping) ∧
    (∃ (e : Fin 16) (v : Word) (s : State), s.flag (R.FCE_CFG_EN e.val) = true ∧ v.getLsbD 0 = false ∧ s.fceSt e.val = .on) ∧
    (∃ (e : Fin 16) (v : Word) (s : State), s.flag (R.FCE_CFG_EN e.val) = true ∧ v.getLsbD 0 = false ∧ s.fceSt e.val = .starting) ∧
    (∃ (e : Fin 16) (v : Word) (s : State), s.flag (R.FCE_CFG_EN e.val) = true ∧ v.getLsbD 0 = false ∧ s.fceSt e.val = .stopping) ∧
    (∃ (e : Fin 16) (v : Word) (s : State), s.flag (R.FCE_CFG_EN e.val) = true ∧ v.getLsbD 0 = false ∧ s.fceSt e.val = .failed) ∧
    (∃ (e : Fin 32) (v : Word) (s : State), v.getLsbD 0 = s.flag (R.ECE_CFG_EN e.val) ∨ (v.getLsbD 0 = true ∧ s.eceSt e.val = .failed)) ∧
    (∃ (e : Fin 32) (v : Word) (s : State), s.flag (R.ECE_CFG_EN e.val) = false ∧ v.getLsbD 0 = true ∧ s.eceSt e.val = .off) ∧
    (∃ (e : Fin 32) (v : Word) (s : State), s.flag (R.ECE_CFG_EN e.val) = false ∧ v.getLsbD 0 = true ∧ s.eceSt e.val = .starting) ∧
    (∃ (e : Fin 32) (v : Word) (s : State), s.flag (R.ECE_CFG_EN e.val) = false ∧ v.getLsbD 0 = true ∧ s.eceSt e.val = .stopping) ∧
    (∃ (e : Fin 32) (v : Word) (s : State), s.flag (R.ECE_CFG_EN e.val) = true ∧ v.getLsbD 0 = false ∧ s.eceSt e.val = .on) ∧
    (∃ (e : Fin 32) (v : Word) (s : State), s.flag (R.ECE_CFG_EN e.val) = true ∧ v.getLsbD 0 = false ∧ s.eceSt e.val = .starting) ∧
    (∃ (e : Fin 32) (v : Word) (s : State), s.flag (R.ECE_CFG_EN e.val) = true ∧ v.getLsbD 0 = false ∧ s.eceSt e.val = .stopping) ∧
    (∃ (e : Fin 32) (v : Word) (s : State), s.flag (R.ECE_CFG_EN e.val) = true ∧ v.getLsbD 0 = false ∧ s.eceSt e.val = .failed) ∧
    (∃ (e : Fin 16) (s : State), s.fceSt e.val = .starting) ∧
    (∃ (e : Fin 16) (s : State), s.fceSt e.val = .stopping ∧ s.queued e.val = 0) ∧
    (∃ (e : Fin 16) (s : State), s.fceSt e.val = .stopping ∧ 0 < s.queued e.val) ∧
    (∃ (e : Fin 32) (s : State), s.eceSt e.val = .starting) ∧
    (∃ (e : Fin 32) (s : State), s.eceSt e.val = .stopping ∧ s.queued (32 + e.val) = 0) ∧
    (∃ (e : Fin 32) (s : State), s.eceSt e.val = .stopping ∧ 0 < s.queued (32 + e.val)) :=
  ⟨⟨3, (areaS 1).setTask 1 { Task.init 1 0 0 with leg := some 4, staged := false, eng := some 0 }, area 1, by decide +kernel⟩,
    ⟨3, areaS 1, area 1, by decide +kernel⟩,
    ⟨3, (areaS 1).setTask 1 { Task.init 0 0 0 with leg := some 3, staged := false }, area 1, 1,
      { Task.init 0 0 0 with leg := some 3, staged := false }, by decide +kernel⟩,
    ⟨3, (areaS 1).setTask 1 { Task.init 0 0 0 with leg := some 3, staged := true }, area 1, 1,
      { Task.init 0 0 0 with leg := some 3, staged := true }, by decide +kernel⟩,
    ⟨131071, on, by decide +kernel⟩,
    ⟨on, by decide +kernel⟩,
    ⟨sysFull.setFld R.KNL_CFG_REFUSE 1, le_of_eq sysFull_used.symm, by decide +kernel⟩,
    ⟨sysFull.setFld R.KNL_CFG_REFUSE 0, le_of_eq sysFull_used.symm, by decide +kernel⟩,
    ⟨⟨true, 7, 0⟩, on.setKnl { on.knl with sysHeld := [⟨true, 7, 0⟩] }, by decide +kernel⟩,
    ⟨127, [⟨false, 0, 16⟩], on, by decide +kernel⟩,
    ⟨127, [], runS 0 (taskR 1), 1, taskR 1, 3, work0, by decide +kernel⟩,
    ⟨127, [], runS 1 (taskR 0), 1, taskR 0, 3, work0, by decide +kernel⟩,
    ⟨127, [], (runS 0 (taskR 1)).setSwt { on.swt with begun := true }, 1, taskR 1, 3, work0, by decide +kernel⟩,
    ⟨127, [], runS 0 (taskR 2), 1, taskR 2, by decide +kernel⟩,
    ⟨127, [], runS 0 { taskR 3 with leg := none }, 1, { taskR 3 with leg := none }, by decide +kernel⟩,
    ⟨127, [], runS 0 { taskR 2 with leg := none }, 1, { taskR 2 with leg := none }, by decide +kernel⟩,
    ⟨127, engS 3, 1, taskR 0, by decide +kernel⟩,
    ⟨127, { engS 3 with engQ := [⟨14, 1, 0⟩] }, 1, taskR 0, ⟨14, 1, 0⟩, call 3, by decide +kernel, by decide +kernel, by decide +kernel, rfl⟩,
    ⟨127, 14, engS 3, call 3, rfl, by decide +kernel, by decide +kernel⟩,
    ⟨127, 14, (engS 3).setGln { on.gln with run := [⟨1, 14, 0, 0, 0, false, false⟩] }, call 3, ⟨1, 14, 0, 0, 0, false, false⟩, rfl,
      by decide +kernel⟩,
    ⟨127, 0, runS 1 (taskR 0), call 3, rfl, by decide +kernel, by decide +kernel⟩,
    ⟨127, 28, engS 4, call 4, rfl, by decide +kernel, by decide +kernel⟩,
    ⟨127, runS 2 (taskR 0), call 4, rfl, by decide +kernel, by decide +kernel⟩,
    ⟨127, 28, (engS 4).setGln { on.gln with run := [⟨2, 28, 0, 0, 0, false, false⟩] }, call 4, ⟨2, 28, 0, 0, 0, false, false⟩, rfl,
      by decide +kernel⟩,
    ⟨127, on, rfl⟩,
    ⟨127, 0x80FFF, fwS, 1, fwTask, ⟨3 * 2 ^ 62 + 0x5000 + 0x16, 0x4400, 0x5FFF⟩, by decide +kernel⟩,
    ⟨127, 0x81000, fwS, 1, fwTask, by decide +kernel⟩,
    ⟨127, on, by decide +kernel⟩,
    ⟨15, 1, on.setFceFn 15 ⟨.failed, false, false⟩ false, by decide +kernel⟩,
    ⟨15, 1, (on.setFld (R.FCE_CFG_EN 15) 0).setFceFn 15 ⟨.off, false, false⟩ false, by decide +kernel⟩,
    ⟨15, 1, (on.setFld (R.FCE_CFG_EN 15) 0).setFceFn 15 ⟨.starting, false, true⟩ false, by decide +kernel⟩,
    ⟨15, 1, (on.setFld (R.FCE_CFG_EN 15) 0).setFceFn 15 ⟨.stopping, false, false⟩ false, by decide +kernel⟩,
    ⟨15, 0, (on.setFld (R.FCE_CFG_EN 15) 1).setFceFn 15 ⟨.on, false, false⟩ false, by decide +kernel⟩,
    ⟨15, 0, (on.setFld (R.FCE_CFG_EN 15) 1).setFceFn 15 ⟨.starting, false, false⟩ false, by decide +kernel⟩,
    ⟨15, 0, (on.setFld (R.FCE_CFG_EN 15) 1).setFceFn 15 ⟨.stopping, true, false⟩ false, by decide +kernel⟩,
    ⟨15, 0, (on.setFld (R.FCE_CFG_EN 15) 1).setFceFn 15 ⟨.failed, false, false⟩ false, by decide +kernel⟩,
    ⟨31, 1, on.setEceFn 31 ⟨.failed, false, false⟩ false, by decide +kernel⟩,
    ⟨31, 1, (on.setFld (R.ECE_CFG_EN 31) 0).setEceFn 31 ⟨.off, false, false⟩ false, by decide +kernel⟩,
    ⟨31, 1, (on.setFld (R.ECE_CFG_EN 31) 0).setEceFn 31 ⟨.starting, false, true⟩ false, by decide +kernel⟩,
    ⟨31, 1, (on.setFld (R.ECE_CFG_EN 31) 0).setEceFn 31 ⟨.stopping, false, false⟩ false, by decide +kernel⟩,
    ⟨31, 0, (on.setFld (R.ECE_CFG_EN 31) 1).setEceFn 31 ⟨.on, false, false⟩ false, by decide +kernel⟩,
    ⟨31, 0, (on.setFld (R.ECE_CFG_EN 31) 1).setEceFn 31 ⟨.starting, false, false⟩ false, by decide +kernel⟩,
    ⟨31, 0, (on.setFld (R.ECE_CFG_EN 31) 1).setEceFn 31 ⟨.stopping, true, false⟩ false, by decide +kernel⟩,
    ⟨31, 0, (on.setFld (R.ECE_CFG_EN 31) 1).setEceFn 31 ⟨.failed, false, false⟩ false, by decide +kernel⟩,
    ⟨15, on.setFceFn 15 ⟨.starting, false, false⟩ false, by decide +kernel⟩,
    ⟨15, on.setFceFn 15 ⟨.stopping, false, false⟩ false, by decide +kernel⟩,
    ⟨15, { on.setFceFn 15 ⟨.stopping, false, false⟩ false with engQ := [⟨15, 1, 0⟩] }, by decide +kernel⟩,
    ⟨31, on.setEceFn 31 ⟨.starting, false, false⟩ false, by decide +kernel⟩,
    ⟨31, on.setEceFn 31 ⟨.stopping, false, false⟩ false, by decide +kernel⟩,
    ⟨31, { on.setEceFn 31 ⟨.stopping, false, false⟩ false with engQ := [⟨63, 1, 0⟩] }, by decide +kernel⟩⟩

/-- The hypotheses of `FaultsAreReplayedOrFallBack` can be met, clause by clause. -/
theorem meets_faults_are_replayed_or_fall_back :
    (∃ (c : Fin 128) (s : State) (i : ℕ) (t : Task), s.running ↑c = some (i, t)) ∧
    (∃ (c : Fin 128) (s : State) (i : ℕ) (t : Task), s.running ↑c = some (i, t) ∧ t.kind ≤ 1 ∧
      s.fld R.FRP_WDOG_MULT * s.taskCycles t < t.used + s.ranFor t) ∧
    (∃ (c : Fin 128) (s : State) (i : ℕ) (t : Task), s.running ↑c = some (i, t) ∧ 1 < t.kind) ∧
    (∃ (c : Fin 128) (va : BitVec 48) (s : State) (i : ℕ) (t : Task), s.running ↑c = some (i, t) ∧ va.toNat < 0x80000) ∧
    (∃ (c : Fin 128) (va : BitVec 48) (acc : Fin 3) (s : State) (i : ℕ) (t : Task), s.running ↑c = some (i, t) ∧ 0x80000 ≤ va.toNat ∧
      (s.coreLookup c.val t.context va.toNat).coreMeets c.val t.context va.toNat acc.val = 0) ∧
    (∃ (c : Fin 128) (va : BitVec 48) (acc : Fin 3) (s : State) (i : ℕ) (t : Task), s.running ↑c = some (i, t) ∧ 0x80000 ≤ va.toNat ∧
      (s.coreLookup c.val t.context va.toNat).coreMeets c.val t.context va.toNat acc.val = Cause.transit) ∧
    (∃ (c : Fin 128) (va : BitVec 48) (acc : Fin 3) (s : State) (i : ℕ) (t : Task), s.running ↑c = some (i, t) ∧ 0x80000 ≤ va.toNat ∧
      (s.coreLookup c.val t.context va.toNat).coreMeets c.val t.context va.toNat acc.val = Cause.absent) ∧
    (∃ (c : Fin 128) (va : BitVec 48) (acc : Fin 3) (s : State) (i : ℕ) (t : Task), s.running ↑c = some (i, t) ∧ 0x80000 ≤ va.toNat ∧
      (s.coreLookup c.val t.context va.toNat).coreMeets c.val t.context va.toNat acc.val = Cause.permission) ∧
    (∃ (c : Fin 128) (s : State) (i : ℕ) (t : Task) (q : EngCall), s.running ↑c = some (i, t) ∧ (s.engQ.find? fun q => q.task == i) = some q ∧
      q.eng < 32) ∧
    (∃ (c : Fin 128) (s : State) (i : ℕ) (t : Task) (q : EngCall), s.running ↑c = some (i, t) ∧ (s.engQ.find? fun q => q.task == i) = some q ∧
      32 ≤ q.eng) ∧
    (∃ (c : Fin 128) (s : State) (i : ℕ) (t : Task), s.running ↑c = some (i, t) ∧ (s.engQ.find? fun q => q.task == i) = none) ∧
    (∃ (c : Fin 128) (s : State), (s.core ↑c).run = none) ∧
    (∃ (l : Fin 131072) (s : State) (i e : ℕ) (t : Task), s.legTask ↑l = some (i, t) ∧ t.kind = 1 ∧ t.st = TaskSt.waiting ∧ t.staged = false ∧
      t.eng = some e) ∧
    (∃ (l : Fin 131072) (s : State), ∀ i t, s.legTask ↑l = some (i, t) → t.kind ≠ 1 ∨ t.st ≠ .waiting ∨ t.staged = true ∨ t.eng = none) ∧
    (∃ (s : State) (i : ℕ) (l : ℕ) (cls : ℕ) (t : Task), s.task i = some t ∧ t.st ≠ TaskSt.cancelled ∧ t.leg = some l ∧ t.kind ≤ 1 ∧
      s.pastDeadline = false ∧ (cls = 3 ∨ cls = 4)) ∧
    (∃ (s : State) (i : ℕ) (l : ℕ) (cls : ℕ) (t : Task), s.task i = some t ∧ t.st ≠ TaskSt.cancelled ∧ t.leg = some l ∧ t.kind ≤ 1 ∧
      s.pastDeadline = false ∧ (cls = 1 ∨ cls = 2 ∨ cls = 5) ∧ t.logOff.isSome = true ∧ s.fld R.FRP_CFG_REPLAY_EN = 1 ∧ t.attempts < s.fld R.FRP_CFG_MAX_REPLAY ∧
      s.tooLate t = false ∧ (∀ p ∈ s.knl.tasks, p.2.rsv = 0) ∧ s.mmu.areas = [] ∧ (s.leg l).cost.st ≤ 2048) ∧
    (∃ (s : State) (i : ℕ) (t : Task), s.task i = some t ∧ t.st = TaskSt.done ∧ t.kind ≤ 1 ∧ s.pastDeadline = true) :=
  ⟨⟨127, runS 0 (taskR 0), 1, taskR 0, by decide +kernel⟩,
    ⟨127, runS 0 { taskR 1 with used := 2 ^ 60 }, 1, { taskR 1 with used := 2 ^ 60 }, by decide +kernel⟩,
    ⟨127, runS 0 (taskR 2), 1, taskR 2, by decide +kernel⟩,
    ⟨127, 0x7FFFF, fwS, 1, fwTask, by decide +kernel⟩,
    ⟨127, 0x81000, 1, fwS, 1, fwTask, by decide +kernel⟩,
    ⟨127, 0x80000, 0, fwS, 1, fwTask, by decide +kernel⟩,
    ⟨127, 0xFFFFFFFFFFFF, 0, fwS, 1, fwTask, by decide +kernel⟩,
    ⟨127, 0x81FFF, 2, fwS, 1, fwTask, by decide +kernel⟩,
    ⟨127, { engS 3 with engQ := [⟨14, 1, 0⟩] }, 1, taskR 0, ⟨14, 1, 0⟩, by decide +kernel⟩,
    ⟨127, { engS 4 with engQ := [⟨63, 1, 0⟩] }, 1, taskR 0, ⟨63, 1, 0⟩, by decide +kernel⟩,
    ⟨127, engS 3, 1, taskR 0, by decide +kernel⟩,
    ⟨127, on, by decide +kernel⟩,
    ⟨3, runS 0 { taskR 1 with st := .waiting, staged := false, eng := some 7 }, 1, 7, { taskR 1 with st := .waiting, staged := false, eng := some 7 },
      by decide +kernel⟩,
    ⟨131071, on, fun _ _ h => nomatch (show none = some _ from h)⟩,
    ⟨runS 0 (taskR 1), 1, 3, 3, taskR 1, by decide +kernel⟩,
    ⟨(((runS 0 (taskR 1)).setSwt { on.swt with emitAt := 2 ^ 60 }).setFld R.FRP_CFG_REPLAY_EN 1).setFld R.FRP_CFG_MAX_REPLAY 1, 1, 3, 5, taskR 1,
      by decide +kernel⟩,
    ⟨(runS 0 { taskR 1 with st := .done }).setSwt { on.swt with begun := true }, 1, { taskR 1 with st := .done }, by decide +kernel⟩⟩

/-- A part whose cluster 0 has that page in its TLB. -/
def tlbS : State := mapped.lookup 128 16 0

/-- The state with the fields of a move stored. -/
def moveS (v : Word) (va : BitVec 48) (pa : BitVec 40) (s : State) : State :=
  let s0 := (s.setFld R.MMU_MOVE_VA_HI_VA_HI (va.toNat / 2 ^ 32)).setFld R.MMU_MOVE_VA_LO_VA_LO (va.toNat % 2 ^ 32 / 4096)
  let s00 := (s0.setFld R.MMU_MOVE_PA_HI_PA_HI (pa.toNat / 2 ^ 32)).setFld R.MMU_MOVE_PA_LO_PA_LO (pa.toNat % 2 ^ 32 / 4096)
  (s00.setFld R.MMU_MOVE_CTL_TO (bits v.toNat 13 12)).setFld R.MMU_MOVE_CTL_CTX (bits v.toNat 11 0)

/-- The hypotheses of `MemoryHoldsWhatIsWritten` can be met, clause by clause. -/
theorem meets_memory_holds_what_is_written :
    (∃ (s : State), Memory.wf s.mmu.mem = true) ∧
    (∃ (s : State) (m : Move), Memory.wf s.mmu.mem = true ∧ s.mmu.move = some m ∧ s.swt.loftWait = [] ∧ s.knl.tasks = []) ∧
    (∃ (s : State), s.mmu.move = none ∧ s.swt.loftWait = []) ∧
    (∃ (v : Word), bits (BitVec.toNat v) 13 12 ≠ 1 ∧ bits (BitVec.toNat v) 13 12 ≠ 2) ∧
    (∃ (s : State), s.mmu.move.isSome = true) ∧
    (∃ (v : Word) (s : State), s.mmu.move = none ∧ (bits (BitVec.toNat v) 13 12 = 1 ∨ bits (BitVec.toNat v) 13 12 = 2) ∧
      tb (BitVec.toNat v) 31 = false) ∧
    (∃ (v : Word) (va : BitVec 48) (pa : BitVec 40) (s : State), s.mmu.move = none ∧ (bits (BitVec.toNat v) 13 12 = 1 ∨ bits (BitVec.toNat v) 13 12 = 2) ∧
      tb (BitVec.toNat v) 31 = true ∧ (moveS v va pa s).walk (bits (BitVec.toNat v) 11 0) (va.toNat / 4096 * 4096) = none) ∧
    (∃ (v : Word) (va : BitVec 48) (pa : BitVec 40) (s : State) (x : Xlate), s.mmu.move = none ∧ (bits (BitVec.toNat v) 13 12 = 1 ∨ bits (BitVec.toNat v) 13 12 = 2) ∧
      tb (BitVec.toNat v) 31 = true ∧ (moveS v va pa s).walk (bits (BitVec.toNat v) 11 0) (va.toNat / 4096 * 4096) = some x ∧
      peState x.entry ≠ 3 ∧ (moveS v va pa s).pagePinned x = true) ∧
    (∃ (v : Word) (va : BitVec 48) (pa : BitVec 40) (s : State) (x : Xlate), s.mmu.move = none ∧ (bits (BitVec.toNat v) 13 12 = 1 ∨ bits (BitVec.toNat v) 13 12 = 2) ∧
      tb (BitVec.toNat v) 31 = true ∧ (moveS v va pa s).walk (bits (BitVec.toNat v) 11 0) (va.toNat / 4096 * 4096) = some x ∧
      peState x.entry ≠ 3 ∧ (moveS v va pa s).pagePinned x = false ∧
      tb x.entry 6 = false ∧ x.at_ < 2 ^ 40 ∧
      (moveS v va pa s).fitsState (bits v.toNat 13 12) (pa.toNat / 4096 * 4096 / pageBytes x.entry * pageBytes x.entry) = true) ∧
    (∃ (v : Word) (va : BitVec 48) (pa : BitVec 40) (s : State) (x : Xlate), s.mmu.move = none ∧ bits v.toNat 13 12 = 2 ∧ tb v.toNat 31 = true ∧
      (moveS v va pa s).walk (bits v.toNat 11 0) (va.toNat / 4096 * 4096) = some x ∧ peState x.entry = 3) ∧
    (∃ (v : Word) (va : BitVec 48) (pa : BitVec 40) (s : State) (x : Xlate), s.mmu.move = none ∧ bits v.toNat 13 12 = 2 ∧ tb v.toNat 31 = true ∧
      (moveS v va pa s).walk (bits v.toNat 11 0) (va.toNat / 4096 * 4096) = some x ∧ peState x.entry ≠ 3 ∧ (moveS v va pa s).pagePinned x = false ∧
      tb x.entry 6 = false ∧ (moveS v va pa s).fitsState 2 (pa.toNat / 4096 * 4096 / pageBytes x.entry * pageBytes x.entry) = false) ∧
    (∃ (v : Word) (va : BitVec 48) (pa : BitVec 40) (s : State) (x : Xlate), s.mmu.move = none ∧ bits v.toNat 13 12 = 2 ∧ tb v.toNat 31 = true ∧
      (moveS v va pa s).walk (bits v.toNat 11 0) (va.toNat / 4096 * 4096) = some x ∧ peState x.entry ≠ 3 ∧ (moveS v va pa s).pagePinned x = false ∧
      tb x.entry 6 = false ∧ x.at_ = 2 ^ 40) ∧
    (∃ (v : Word), bits v.toNat 29 28 = 3) ∧
    (∃ (v : Word) (fw : FwWrites) (s0 : State), let s := s0.fwWrite fw; bits v.toNat 29 28 ≠ 3 ∧ (tb v.toNat 31 = false ∨ s.mmu.inv.isSome = true)) ∧
    (∃ (v : Word) (fw : FwWrites) (s0 : State), let s := s0.fwWrite fw; bits v.toNat 29 28 ≠ 3 ∧ tb v.toNat 31 = true ∧ s.mmu.inv = none) ∧
    (∃ (s : State) (q : ℕ × ℕ × ℕ), s.mmu.inv = some q ∧ ∃ e, e ∈ kgetD s.mmu.tlb 128 []) ∧
    (∃ (s : State), s.mmu.inv = none) ∧
    (∃ (s : State) (u ctx va : ℕ) (x : Xlate), 128 ≤ u ∧ u < 136 ∧ s.ctxValid ctx = true ∧ s.cached u ctx va = some x) ∧
    (∃ (s : State) (u ctx va : ℕ) (x : Xlate), 128 ≤ u ∧ u < 136 ∧ s.ctxValid ctx = true ∧ s.cached u ctx va = none ∧ s.walk ctx va = some x ∧
      peState x.entry ≠ 3) ∧
    (∃ (s : State) (pa : ℕ), 0x1000000000 ≤ pa ∧ pa < 0x1000000000 + s.fld R.MMU_HBM_LBS_GIB * 2 ^ 30) :=
  ⟨⟨mapped, by decide +kernel⟩,
    ⟨mapped.setMmu { mapped.mmu with move := some ⟨16, 0, 1, 0x8000, leaf.entry⟩ }, ⟨16, 0, 1, 0x8000, leaf.entry⟩, by decide +kernel,
      by decide +kernel, by decide +kernel, by decide +kernel⟩,
    ⟨on, by decide +kernel, by decide +kernel⟩,
    ⟨0, by decide +kernel, by decide +kernel⟩,
    ⟨on.setMmu { on.mmu with move := some ⟨16, 0, 1, 0x8000, leaf.entry⟩ }, by decide +kernel⟩,
    ⟨0x1000, on, by decide +kernel, by decide +kernel, by decide +kernel⟩,
    ⟨0x80001010, 0, 0, on, by decide +kernel, by decide +kernel, by decide +kernel, by decide +kernel⟩,
    ⟨0x80001010, 0, 0, mapped.setMmu { mapped.mmu with pins := [(5, 1)] }, leaf, by decide +kernel⟩,
    ⟨0x80002010, 0xFFF, 0x8FFF, mapped, leaf, by decide +kernel⟩,
    ⟨0x80002010, 0x80000, 0x8000, fwS, ⟨3 * 2 ^ 62 + 0x5000 + 0x16, 0x4400, 0x5000⟩, by decide +kernel⟩,
    ⟨0x80002010, 0, 0xFFFFFFFFFF, mapped, leaf, by decide +kernel⟩,
    ⟨0x80002001, 0x1000000000, 0x8000, (on.setMmu { on.mmu with valid := [(1, true)] }).setFld R.MMU_HBM_LBS_GIB 48,
      ⟨2 ^ 62 + 2 ^ 61 + 0x1000000016, noTable, 0x1000000000⟩, by decide +kernel⟩,
    ⟨0x30000000, by decide +kernel⟩,
    ⟨0x20000000, ⟨[], []⟩, on, by decide +kernel⟩,
    ⟨0xA0000010, ⟨[(17, 1, true)], [(0x1000, 7)]⟩, on, by decide +kernel⟩,
    ⟨tlbS.setMmu { tlbS.mmu with inv := some (2, 16, 0) }, (2, 16, 0), by decide +kernel, (kgetD tlbS.mmu.tlb 128 [])[0]'(by decide +kernel),
      List.getElem_mem _⟩,
    ⟨on, by decide +kernel⟩,
    ⟨tlbS, 128, 16, 0, leaf, by decide +kernel⟩,
    ⟨mapped, 135, 16, 0, leaf, by decide +kernel⟩,
    ⟨on.setFld R.MMU_HBM_LBS_GIB 48, 0x1000000000, by decide +kernel⟩⟩

/-- A frame of 60 bytes waits for that ring, whose one buffer holds `n` bytes; and the frame filled in. -/
def rxS (n : Nat) : State := (descS (desc 4 n)).setDring 2 { DRing.init with descs := [desc 4 n], frames := [(⟨zeros 60, 0⟩, 0, 0)] }

def filled (n : Nat) : State × List Nat × Bool × Option (Nat × Nat) := State.fillRx 2 ⟨zeros 60, 0⟩ 0 0 [] rxFuel (zeros 60) true (rxS n)

/-- A frame of 65 bytes waits for a ring with one buffer of 64. -/
def rxL : State := (descS (desc 4 64)).setDring 2 { DRing.init with descs := [desc 4 64], frames := [(⟨zeros 65, 0⟩, 0, 0)] }

/-- The hypotheses of `DescriptorsRunInTurn` can be met, clause by clause. -/
theorem meets_descriptors_run_in_turn :
    (∃ (r : Fin 256) (s : State), ∀ (op : ℕ), s.nextDesc (↑r) op = none) ∧
    (∃ (r : Fin 256) (s : State) (d : Desc), (d.len = 0 ∨ 16777216 < d.len) ∧ s.nextDesc (↑r) 1 = some d) ∧
    (∃ (r : Fin 256) (s : State) (d : Desc), (d.len = 0 ∨ 16777216 < d.len) ∧ s.nextDesc (↑r) 2 = some d) ∧
    (∃ (r : Fin 256) (s : State) (d : Desc), (d.len = 0 ∨ 16777216 < d.len) ∧ s.nextDesc (↑r) 5 = some d) ∧
    (∃ (r : Fin 256) (s : State) (d : Desc), 0 < d.len ∧ d.len ≤ 16777216 ∧ d.flag 5 = false ∧ s.nextDesc (↑r) 1 = some d) ∧
    (∃ (r : Fin 256) (s : State) (d : Desc), 0 < d.len ∧ d.len ≤ 16777216 ∧ d.flag 5 = false ∧ s.nextDesc (↑r) 2 = some d) ∧
    (∃ (r : Fin 256) (s : State) (d : Desc), s.nextDesc (↑r) 5 = some d ∧ 0 < d.len ∧ d.len ≤ 16777216) ∧
    (∃ (r : Fin 256) (s : State) (d : Desc) (b : Bytes), s.nextDesc (↑r) 3 = some d ∧ 14 ≤ d.len ∧
      d.len + 4 ≤ s.portMax (u8 d.b 24 % 8) ∧
      (State.touch (ringUnit r.val) (d.ctx (s.dring ↑r)) (d.len - d.done) (d.src + d.done) s).getBytes (ringUnit r.val) (d.ctx (s.dring ↑r))
        (d.len - d.done) (d.src + d.done) d.buf = (b, none)) ∧
    (∃ (r : Fin 256) (s : State) (d : Desc) (b : Bytes) (flt : ℕ × ℕ), s.nextDesc (↑r) 3 = some d ∧ 14 ≤ d.len ∧
      d.len + 4 ≤ s.portMax (u8 d.b 24 % 8) ∧
      (State.touch (ringUnit r.val) (d.ctx (s.dring ↑r)) (d.len - d.done) (d.src + d.done) s).getBytes (ringUnit r.val) (d.ctx (s.dring ↑r))
        (d.len - d.done) (d.src + d.done) d.buf = (b, some flt)) ∧
    (∃ (r : Fin 256) (s : State) (d : Desc), s.nextDesc (↑r) 3 = some d ∧ d.len < 14) ∧
    (∃ (r : Fin 256) (s : State) (d : Desc), s.nextDesc ↑r 4 = some d) ∧
    (∃ (r : Fin 256) (s t : State) (d : Desc) (f : RxFrame) (cls port : ℕ) (used : List ℕ) (flt : Option (ℕ × ℕ)),
      s.nextDesc ↑r 4 = some d ∧ (s.dring ↑r).frames.find? (fun f => f.2.2 == d.port) = some (f, cls, port) ∧
      State.fillRx ↑r f cls port [] rxFuel f.bytes true s = (t, used, true, flt)) ∧
    (∃ (r : Fin 256) (s t : State) (d : Desc) (f : RxFrame) (cls port : ℕ) (used : List ℕ) (flt : Option (ℕ × ℕ)),
      s.nextDesc ↑r 4 = some d ∧ (s.dring ↑r).frames.find? (fun f => f.2.2 == d.port) = some (f, cls, port) ∧
      State.fillRx ↑r f cls port [] rxFuel f.bytes true s = (t, [], false, flt)) ∧
    (∃ (r : Fin 256) (s t : State) (d : Desc) (f : RxFrame) (cls port : ℕ) (used : List ℕ) (flt : Option (ℕ × ℕ)),
      s.nextDesc ↑r 4 = some d ∧ (s.dring ↑r).frames.find? (fun f => f.2.2 == d.port) = some (f, cls, port) ∧
      State.fillRx ↑r f cls port [] rxFuel f.bytes true s = (t, used, false, flt) ∧ used ≠ []) ∧
    (∃ (r : Fin 256) (s : State) (d : Desc) (l : List Desc), ↑r % 8 ≠ 0 ∧ (s.dring ↑r).descs = d :: l ∧ d.phase = 3) ∧
    (∃ (r : Fin 256) (s : State) (d : Desc) (l : List Desc), ↑r % 8 ≠ 0 ∧ (s.dring ↑r).descs = d :: l ∧ d.phase ≤ 2) ∧
    (∃ (r : Fin 256) (s : State) (a : Area), ↑r % 8 = 0 ∧ s.frontArea (↑r / 8) 3 5 = some a ∧ a.st = 3) ∧
    (∃ (r : Fin 256) (s : State) (d : Desc), 2 ≤ ↑r % 8 ∧ List.find? (fun d => d.phase == 1) (s.dring ↑r).descs = some d) ∧
    (∃ (r : Fin 256) (s : State) (d : Desc), 2 ≤ ↑r % 8 ∧ List.find? (fun d => d.phase == 2 && d.cause != 2) (s.dring ↑r).descs = some d) ∧
    (∃ (r : Fin 256) (s : State), 2 ≤ ↑r % 8 ∧ List.find? (fun d => d.phase == 2 && d.cause != 2) (s.dring ↑r).descs = none) ∧
    (∃ (r : Fin 256) (s : State) (d : Desc), 2 ≤ ↑r % 8 ∧ List.find? (fun d => d.phase == 2) (s.dring ↑r).descs = some d) ∧
    (∃ (x : RingSetup), 4 ≤ x.log2.val) ∧
    (∃ (r : ℕ) (s : State) (d : Desc) (i c : ℕ) (t : Task), d.task = some i ∧ s.task i = some t ∧ t.st = TaskSt.running ∧ t.core = some c ∧ r = 2) ∧
    (∃ (e : Fin 32) (v : Word) (s : State), BitVec.getLsbD v 0 = true ∧ (s.deng ↑e).en = false ∧ (s.deng ↑e).st = FnState.off) ∧
    (∃ (e : Fin 32) (v : Word) (s : State), BitVec.getLsbD v 0 = false ∧ (s.deng ↑e).en = true ∧ (s.deng ↑e).st = FnState.on) ∧
    (∃ (e : Fin 32) (v : Word) (s : State), BitVec.getLsbD v 0 = (s.deng ↑e).en) :=
  ⟨⟨255, on, fun _ => rfl⟩,
    ⟨2, descS (desc 1 0), desc 1 0, by decide +kernel, by decide +kernel⟩,
    ⟨2, descS (desc 2 16777217), desc 2 16777217, by decide +kernel, by decide +kernel⟩,
    ⟨2, descS (desc 5 0), desc 5 0, by decide +kernel, by decide +kernel⟩,
    ⟨2, descS (desc 1 1), desc 1 1, by decide +kernel, by decide +kernel, by decide +kernel, by decide +kernel⟩,
    ⟨2, descS (desc 2 16777216), desc 2 16777216, by decide +kernel, by decide +kernel, by decide +kernel, by decide +kernel⟩,
    ⟨2, descS (desc 5 1), desc 5 1, by decide +kernel, by decide +kernel, by decide +kernel⟩,
    ⟨2, descS (desc 3 14), desc 3 14, zeros 14, by decide +kernel, by decide +kernel, by decide +kernel, by decide +kernel⟩,
    ⟨2, (descS (desc 3 14)).setMmu { (descS (desc 3 14)).mmu with valid := [] }, desc 3 14, [], (1, 0), by decide +kernel, by decide +kernel, by decide +kernel,
      by decide +kernel⟩,
    ⟨2, descS (desc 3 13), desc 3 13, by decide +kernel, by decide +kernel⟩,
    ⟨2, rxS 64, desc 4 64, by decide +kernel⟩,
    ⟨2, rxS 64, (filled 64).1, desc 4 64, ⟨zeros 60, 0⟩, 0, 0, (filled 64).2.1, (filled 64).2.2.2, by decide +kernel, by decide +kernel, by decide +kernel⟩,
    ⟨2, rxS 32, (filled 32).1, desc 4 32, ⟨zeros 60, 0⟩, 0, 0, [], (filled 32).2.2.2, by decide +kernel, by decide +kernel, by decide +kernel⟩,
    ⟨2, rxL, (State.fillRx 2 ⟨zeros 65, 0⟩ 0 0 [] rxFuel (zeros 65) true rxL).1, desc 4 64, ⟨zeros 65, 0⟩, 0, 0, [0], none, by decide +kernel,
      by decide +kernel, by decide +kernel, by decide +kernel⟩,
    ⟨2, descS ({ desc 1 64 with phase := 3 }), { desc 1 64 with phase := 3 }, [], by decide +kernel, by decide +kernel, by decide +kernel⟩,
    ⟨2, descS ({ desc 1 64 with phase := 2 }), { desc 1 64 with phase := 2 }, [], by decide +kernel, by decide +kernel, by decide +kernel⟩,
    ⟨0, areaS 3, area 3, by decide +kernel, by decide +kernel, by decide +kernel⟩,
    ⟨2, descS ({ desc 1 64 with phase := 1 }), { desc 1 64 with phase := 1 }, by decide +kernel, by decide +kernel⟩,
    ⟨2, descS ({ desc 1 64 with phase := 2 }), { desc 1 64 with phase := 2 }, by decide +kernel, by decide +kernel⟩,
    ⟨255, on, by decide +kernel, by decide +kernel⟩,
    ⟨2, descS ({ desc 1 64 with phase := 2 }), { desc 1 64 with phase := 2 }, by decide +kernel, by decide +kernel⟩,
    ⟨⟨255, 16, 12, 0, 0⟩, by decide +kernel⟩,
    ⟨2, fwS, { desc 1 64 with task := some 1 }, 1, 127, fwTask, by decide +kernel⟩,
    ⟨31, 1, on, by decide +kernel, by decide +kernel, by decide +kernel⟩,
    ⟨31, 0, on.setDeng 31 { DEng.init with st := .on, en := true }, by decide +kernel, by decide +kernel, by decide +kernel⟩,
    ⟨31, 0, on, by decide +kernel⟩⟩

/-- A job of the baler: operation, flags, length; its list of one destination lies at address 0x100. -/
def job (op fl : Byte) (n : Nat) : Bytes := [0x80 + op, fl] ++ zeros 2 ++ be 4 n ++ be 8 0 ++ be 8 0x100 ++ be 2 1 ++ zeros 22

/-- The destination of that list. -/
def jdest : Bytes := be 8 0x200 ++ be 4 64 ++ zeros 4

/-- Engine 3 of the baler is ON and idle, and ring 0 holds a job. -/
def jobS (b : Bytes) : State :=
  ((((mapped.memWrite 0x5000 b).memWrite 0x5100 jdest).setBeng 3 { BEng.init with st := .on }).setBring 0 { BRing.init with en := true, ctx := 16, tail := 1 })

/-- A job that engine 3 runs. -/
def bjob : BJob := ⟨0, 0, job 1 0 1, false, false, false, 0, 0, 0, 0, 0, 0, 0, 0, 0, false⟩

/-- A slice of unit 15 of the chain engines. -/
def slice1 : Slice := ⟨1, 15, 0, 0, 0, false, false⟩

/-- Long after the start. -/
def late (s : State) : State := s.setTmu { s.tmu with loc := 2 ^ 100 }

/-- A shutdown in a phase. -/
def shutS (p a : Nat) : State := ({ on with pins := pinsUp } : State).setShut { Shut.none with phase := p, action := a }

/-- Sixteen sensors at 0. -/
def temps : List (BitVec 16) := List.replicate 16 0

/-- The hypotheses of `BalesAndSlicesRun` can be met, clause by clause. -/
theorem meets_bales_and_slices_run :
    (∃ (e : Fin 4) (s : State), s.nextJob = none ∨ s.balTake ↑e = none) ∧
    (∃ (e : Fin 4) (s : State) (s1 : State) (k : ℕ) (b : Bytes), s.nextJob = some (k, b) ∧ s.balTake ↑e = some s1 ∧ tb (u8 b 1) 7 = true) ∧
    (∃ (e : Fin 4) (s : State) (s1 : State) (k : ℕ) (b : Bytes), s.nextJob = some (k, b) ∧ s.balTake ↑e = some s1 ∧ tb (u8 b 1) 7 = false) ∧
    (∃ (e : Fin 4) (s : State) (s1 : State) (k : ℕ) (b : Bytes), s.nextJob = some (k, b) ∧ s.balTake ↑e = some s1 ∧ tb (u8 b 1) 7 = false ∧
      u8 b 0 % 16 = 1 ∧ jobBad b = true) ∧
    (∃ (e : Fin 4) (s : State) (s1 : State) (k : ℕ) (b : Bytes) (l : List Bytes), s.nextJob = some (k, b) ∧ s.balTake ↑e = some s1 ∧ jobBad b = false ∧
      (s1.setBring k { en := (s1.bring k).en, ctx := (s1.bring k).ctx, log2 := (s1.bring k).log2, dbase := (s1.bring k).dbase, cbase := (s1.bring k).cbase, head := ((s1.bring k).head + 1) % 2 ^ (s1.bring k).log2, tail := (s1.bring k).tail }).dlist (s1.bring k).ctx (num b 16 8) (num b 24 2) = some l ∧
      l.any entBad = false ∧ tb (u8 b 1) 7 = false ∧ u8 b 0 % 16 = 1) ∧
    (∃ (e : Fin 4) (s : State) (s1 : State) (k : ℕ) (b : Bytes) (l : List Bytes), s.nextJob = some (k, b) ∧ s.balTake ↑e = some s1 ∧ jobBad b = false ∧
      (s1.setBring k { en := (s1.bring k).en, ctx := (s1.bring k).ctx, log2 := (s1.bring k).log2, dbase := (s1.bring k).dbase, cbase := (s1.bring k).cbase, head := ((s1.bring k).head + 1) % 2 ^ (s1.bring k).log2, tail := (s1.bring k).tail }).dlist (s1.bring k).ctx (num b 16 8) (num b 24 2) = some l ∧
      l.any entBad = false ∧ tb (u8 b 1) 7 = false ∧ u8 b 0 % 16 = 2) ∧
    (∃ (e : Fin 4) (s : State) (s1 : State) (k : ℕ) (b : Bytes) (l : List Bytes) (st : BStop), s.nextJob = some (k, b) ∧ s.balTake ↑e = some s1 ∧
      jobBad b = false ∧ (s1.setBring k { en := (s1.bring k).en, ctx := (s1.bring k).ctx, log2 := (s1.bring k).log2, dbase := (s1.bring k).dbase, cbase := (s1.bring k).cbase, head := ((s1.bring k).head + 1) % 2 ^ (s1.bring k).log2, tail := (s1.bring k).tail }).dlist (s1.bring k).ctx (num b 16 8) (num b 24 2) = some l ∧
      l.any entBad = false ∧ tb (u8 b 1) 7 = true ∧ kget (s1.setBring k { en := (s1.bring k).en, ctx := (s1.bring k).ctx, log2 := (s1.bring k).log2, dbase := (s1.bring k).dbase, cbase := (s1.bring k).cbase, head := ((s1.bring k).head + 1) % 2 ^ (s1.bring k).log2, tail := (s1.bring k).tail }).bal.stops (num b 32 8) = some st ∧
      st.op = u8 b 0 % 16) ∧
    (∃ (e : Fin 4) (s : State), (s.beng ↑e).job = none) ∧
    (∃ (e : Fin 4) (s : State) (j : BJob), (s.beng ↑e).job = some j) ∧
    (∃ (e : Fin 4) (s : State) (j : BJob) (i : ℕ), (s.beng ↑e).job = some j ∧ i ≠ ↑e) ∧
    (∃ (v : Word) (s : State) (e : Fin 4), tb (BitVec.toNat v) ↑e = true ∧ tb (s.fld R.BAL_CFG_EN) ↑e = false ∧ (s.beng ↑e).st = FnState.failed) ∧
    (∃ (v : Word) (s : State), ∀ (e : Fin 4), tb (BitVec.toNat v) ↑e = true → tb (s.fld R.BAL_CFG_EN) ↑e = false → (s.beng ↑e).st ≠ FnState.failed) ∧
    (∃ (s : State), s.mode ≠ Mode.service) ∧
    (∃ (c : Fin 7) (i : Fin 128) (s : State), s.mode = Mode.service ∧ s.swt.begun = true ∧ s.flag R.GLN_CFG_EN = true ∧ ↑i < unitsOf ↑c ∧
      s.shut.phase = 0 ∧ s.pastDeadline = false ∧ s.sliceOn ↑c ↑i = none ∧ s.sliceIdle ↑c ↑i = true ∧ s.fld R.BGW_THERM_STAT_LEVEL < 2 ∧
      s.flag R.GLN_DBG_STEP = false ∧ (s.unitT ↑c ↑i).out = false ∧ (s.unitT ↑c ↑i).await = none ∧ (s.core ↑i).hung = false ∧ s.sliceRoom ↑c = true ∧
      s.nextUnit (kindOf c.val) = some (c.val, i.val) ∧ s.elapsed + sliceLen ↑c ≤ s.swt.emitAt ∧ s.bgw.fab + 65536 ≤ s.fabCap) ∧
    (∃ (c : Fin 5) (i : Fin 128) (s : State) (sl : Slice), s.sliceOn ↑c ↑i = some sl ∧ s.loc < sl.start + nsI 44000) ∧
    (∃ (c : Fin 5) (i : Fin 128) (s : State) (sl : Slice), s.sliceOn ↑c ↑i = some sl ∧ sl.start + nsI 44000 ≤ s.loc) ∧
    (∃ (c : Fin 5) (i : Fin 128) (s : State) (sl : Slice), s.sliceOn ↑c ↑i = some sl ∧ sl.start + nsI 44000 ≤ s.loc ∧ ↑c ≠ 0 ∧ ↑i < unitsOf ↑c ∧
      sl.conf = false ∧ (s.unitT ↑c ↑i).asked = false ∧ s.knl.tasks = []) ∧
    (∃ (l : Bool) (i : Fin 128) (s : State) (sl : Slice), (s.sliceOn (if l = true then 6 else 5) ↑i = some sl) ∧ sl.start + nsI 40000 ≤ s.loc) ∧
    (∃ (c : Fin 7) (i : Fin 128) (s : State), s.sliceOn ↑c ↑i = none) ∧
    (∃ (c : Fin 7) (i : Fin 128) (s : State) (sl : Slice), s.sliceOn ↑c ↑i = some sl) :=
  ⟨⟨3, on, by decide +kernel⟩,
    ⟨3, jobS (job 1 0x80 1), jobS (job 1 0x80 1), 0, job 1 0x80 1, by decide +kernel, by decide +kernel, by decide +kernel⟩,
    ⟨3, jobS (job 2 0 1), jobS (job 2 0 1), 0, job 2 0 1, by decide +kernel, by decide +kernel, by decide +kernel⟩,
    ⟨3, jobS (job 1 0 0), jobS (job 1 0 0), 0, job 1 0 0, by decide +kernel, by decide +kernel, by decide +kernel, by decide +kernel,
      by decide +kernel⟩,
    ⟨3, jobS (job 1 0 16777216), jobS (job 1 0 16777216), 0, job 1 0 16777216, [jdest], by decide +kernel⟩,
    ⟨3, jobS (job 2 0 1), jobS (job 2 0 1), 0, job 2 0 1, [jdest], by decide +kernel⟩,
    ⟨3, (jobS (job 1 0x80 1)).setBal { (jobS (job 1 0x80 1)).bal with stops := [(0, ⟨1, 0, false, 0, 1, 0, 0, []⟩)] },
      (jobS (job 1 0x80 1)).setBal { (jobS (job 1 0x80 1)).bal with stops := [(0, ⟨1, 0, false, 0, 1, 0, 0, []⟩)] }, 0, job 1 0x80 1, [jdest], ⟨1, 0,
      false, 0, 1, 0, 0, []⟩, by decide +kernel⟩,
    ⟨3, on, by decide +kernel⟩,
    ⟨3, mapped.setBeng 3 { BEng.init with job := some bjob }, bjob, by decide +kernel⟩,
    ⟨3, mapped.setBeng 3 { BEng.init with job := some bjob }, bjob, 0, by decide +kernel, by decide +kernel⟩,
    ⟨8, (on.setBeng 3 { BEng.init with st := .failed }), 3, by decide +kernel, by decide +kernel, by decide +kernel⟩,
    ⟨15, on, by decide +kernel⟩,
    ⟨State.reset, by decide +kernel⟩,
    ⟨1, 15, (((on.setFld (R.FCE_STAT_STATE 15) 2).setFld R.GLN_CFG_EN 1).setFld R.GLN_CFG_ENG_SL 8).setSwt { on.swt with begun := true, emitAt := nsI 44000 },
      by decide +kernel⟩,
    ⟨1, 15, on.setGln { on.gln with run := [slice1] }, slice1, by decide +kernel, by decide +kernel⟩,
    ⟨1, 15, late (on.setGln { on.gln with run := [slice1] }), slice1, by decide +kernel, by decide +kernel⟩,
    ⟨1, 15, late (on.setGln { on.gln with run := [slice1] }), slice1, by decide +kernel⟩,
    ⟨true, 127, late (on.setGln { on.gln with run := [⟨6, 127, 0, 0, 0, false, false⟩] }), ⟨6, 127, 0, 0, 0, false, false⟩, by decide +kernel,
      by decide +kernel⟩,
    ⟨6, 127, on, by decide +kernel⟩,
    ⟨1, 15, on.setGln { on.gln with run := [slice1] }, slice1, by decide +kernel⟩⟩

/-- The hypotheses of `FusesKeysAndLifeCycleMove` can be met, clause by clause. -/
theorem meets_fuses_keys_and_life_cycle_move :
    (∃ (q : Req) (s : State) (plan : List ℕ), Accepted opBistRequest 3073 q s plan) ∧
    (∃ (q : Req) (s : State) (plan : List ℕ), Accepted opBistFuseArm 3074 q s plan) ∧
    (∃ (q : Req) (s : State) (n : ℕ) (sess : ℕ) (by_ : ℕ) (l : List ℕ), Accepted opBistFuseConfirm 3075 q s [] ∧ s.gln.armF = some (n, sess, by_,
      l)) ∧
    (∃ (q : Req) (s : State) (plan : List ℕ), Accepted opBistLcArm 3076 q s plan) ∧
    (∃ (q : Req) (s : State) (n : ℕ) (sess : ℕ) (by_ : ℕ) (k : ℕ), Accepted opBistLcConfirm 3077 q s [] ∧ s.gln.armL = some (n, sess, by_, k)) ∧
    (∃ (m : Fin 256) (s : State) (k : ℕ), (s.sess ↑m).st = FnState.on ∧ (s.sess ↑m).out = [] ∧ (s.sess ↑m).rplRing = [] ∧
      (s.sess ↑m).after = some (3077, be 1 k) ∧ k < 5 ∧ (lcAllowed true s.nv.lc k = true ∨ lcAllowed false s.nv.lc k = true)) ∧
    (∃ (q : Req) (s : State) (plan : List ℕ), Accepted opBistRepairList 3201 q s plan) ∧
    (∃ (q : Req) (s : State) (plan : List ℕ), Accepted opBistUnitStatus 3202 q s plan) ∧
    (∃ (dr : BitVec 264) (s : State), (s.nv.lc = 1 ∨ s.nv.lc = 3) ∧ s.mode ≠ Mode.reset ∧ bits dr.toNat 5 4 ≠ 3 ∧ bits dr.toNat 7 6 = 0) ∧
    (∃ (s : State), s.nv.lc ≠ 1 ∧ s.nv.lc ≠ 3) ∧
    (∃ (k : Fin 5) (s : State), s.mode ≠ Mode.reset ∧ lcAllowed true s.nv.lc ↑k = true ∧ k.val < 3) ∧
    (∃ (k : Fin 5) (s : State), s.mode ≠ Mode.reset ∧ lcAllowed true s.nv.lc ↑k = true ∧ 3 ≤ k.val) ∧
    (∃ (k : Fin 5) (s : State), lcAllowed true s.nv.lc ↑k = false) :=
  ⟨⟨q ([4, 0, 0, 3]), on, [], accepted (by decide +kernel)⟩,
    ⟨q (be 2 1 ++ zeros 2 ++ be 4 5), on.setNv { on.nv with repair := [5] }, [], accepted (by decide +kernel)⟩,
    ⟨q (be 4 9), on.setGln { on.gln with armF := some (9, 0, 9, [5]) }, 9, 0, 9, [5], accepted (by decide +kernel), by decide +kernel⟩,
    ⟨q ([2, 0, 0, 0]), on, [], accepted (by decide +kernel)⟩,
    ⟨q (be 4 9), on.setGln { on.gln with armL := some (9, 0, 9, 2) }, 9, 0, 9, 2, accepted (by decide +kernel), by decide +kernel⟩,
    ⟨0, (on.setSess 0 { on.sess 0 with after := some (3077, be 1 2) }), 2, by decide +kernel⟩,
    ⟨q (be 2 0 ++ be 2 256), on, [], accepted (by decide +kernel)⟩,
    ⟨q ([6, 0, 0, 127]), on, [], accepted (by decide +kernel)⟩,
    ⟨0, on.setNv { on.nv with lc := 3 }, by decide +kernel, by decide +kernel, by decide +kernel, by decide +kernel⟩,
    ⟨on.setNv { on.nv with lc := 4 }, by decide +kernel, by decide +kernel⟩,
    ⟨2, on, by decide +kernel⟩,
    ⟨4, on.setNv { on.nv with lc := 3 }, by decide +kernel⟩,
    ⟨4, on.setNv { on.nv with lc := 4 }, by decide +kernel⟩⟩

/-- A part in its first swath. -/
def busy (s : State) : State := s.setSwt { s.swt with begun := true }

/-- A part whose exporter is on and which is late, with so many background bytes moved in this swath. -/
def ipfixS (n : Nat) : State :=
  (busy (late (on.setNv { on.nv with ipfix := some { ipfixOf (zeros 60) with en := true } }))).setBgw { on.bgw with fab := n }

/-- The hypotheses of `RecordsSlotsAndReports` can be met, clause by clause. -/
theorem meets_records_slots_and_reports :
    (∃ (q : Req) (s : State) (plan : List ℕ), Accepted opPrsPartition 3329 q s plan) ∧
    (∃ (q : Req) (s : State), Accepted opPrsCheckpoint 3330 q s []) ∧
    (∃ (s : State), s.mode = Mode.service ∧ s.bgw.ckDue = false ∧ jrnlMax / 2 ≤ s.nv.sinceCk) ∧
    (∃ (s : State) (c : Ckpt), s.mode = Mode.service ∧ s.bgw.ckDue = false ∧ s.nv.newest = some c ∧ c.recno < s.nv.recno ∧
      s.bgw.ckLoc + 60 * secI ≤ s.loc) ∧
    (∃ (s : State), s.nv.sinceCk < jrnlMax / 2 ∧ s.loc < s.bgw.ckLoc + 60 * secI) ∧
    (∃ (s : State), s.bgw.ckDue = false) ∧
    (∃ (s : State), s.bgw.ckDue = true ∧ s.fabFull s.ckptLen = true) ∧
    (∃ (s : State), s.bgw.ckDue = true ∧ s.fabFull s.ckptLen = false ∧ s.bgw.ckBy = [] ∧ s.nv.prsFailed = false) ∧
    (∃ (s : State), s.bgw.ckDue = true ∧ s.fabFull s.ckptLen = false ∧ s.bgw.ckBy = []) ∧
    (∃ (s : State), s.nv.prsFailed = true) ∧
    (∃ (s : State), s.nv.prsFailed = false ∧ s.mode ≠ Mode.reset ∧ s.nv.spares = 0) ∧
    (∃ (s : State), s.nv.prsFailed = false ∧ s.mode ≠ Mode.reset ∧ 0 < s.nv.spares) ∧
    (∃ (q : Req) (s : State) (plan : List ℕ), Accepted opPrsLogRead 3457 q s plan) ∧
    (∃ (q : Req) (s : State) (plan : List ℕ), Accepted opPrsInfo 3458 q s plan) ∧
    (∃ (q : Req) (s : State) (plan : List ℕ), Accepted opFwLoad 3585 q s plan) ∧
    (∃ (q : Req) (s : State) (plan : List ℕ), Accepted opFwActivate 3586 q s plan) ∧
    (∃ (q : Req) (s : State) (plan : List ℕ), Accepted opFwStartClear 3587 q s plan) ∧
    (∃ (q : Req) (s : State) (plan : List ℕ), Accepted opFwInfo 3713 q s plan) ∧
    (∃ (q : Req) (s : State) (plan : List ℕ), Accepted opStatIpfixSet 3841 q s plan ∧ u8 q.payload 0 = 0) ∧
    (∃ (q : Req) (s : State), Accepted opStatIpfixSet 3841 q s [] ∧ u8 q.payload 0 = 1) ∧
    (∃ (q : Req) (s : State) (plan : List ℕ), Accepted opStatLeg 3969 q s plan) ∧
    (∃ (q : Req) (s : State) (plan : List ℕ), Accepted opStatDevice 3970 q s plan) ∧
    (∃ (q : Req) (s : State) (plan : List ℕ), Accepted opStatJrnlFate 3984 q s plan) ∧
    (∃ (s : State) (x : Ipfix), s.nv.ipfix = some x ∧ x.en = true ∧ s.mode = Mode.service ∧ s.ipx.tmplLoc + nsI 600000000000 ≤ s.loc ∧
      s.fabFull ipfixRoom = true) ∧
    (∃ (s : State) (x : Ipfix), s.nv.ipfix = some x ∧ x.en = true ∧ s.mode = Mode.service ∧ s.ipx.tmplLoc + nsI 600000000000 ≤ s.loc ∧
      s.fabFull ipfixRoom = false) ∧
    (∃ (s : State), s.loc < s.ipx.tmplLoc + nsI 600000000000) ∧
    (∃ (s : State) (x : Ipfix), s.nv.ipfix = some x ∧ x.en = true ∧ s.mode = Mode.service ∧ s.ipx.healthLoc + nsI (x.per * 1000000000) ≤ s.loc ∧
      s.fabFull ipfixRoom = true) ∧
    (∃ (s : State) (x : Ipfix), s.nv.ipfix = some x ∧ x.en = true ∧ s.mode = Mode.service ∧ s.ipx.healthLoc + nsI (x.per * 1000000000) ≤ s.loc ∧
      s.fabFull ipfixRoom = false) ∧
    (∃ (s : State), ∀ x, s.nv.ipfix = some x → x.en = false) :=
  ⟨⟨q ([4, 44, 0, 0]), on, [], accepted (by decide +kernel)⟩,
    ⟨q ([]), on, accepted (by decide +kernel)⟩,
    ⟨on.setNv { on.nv with sinceCk := jrnlMax / 2 }, by decide +kernel, by decide +kernel, by decide +kernel⟩,
    ⟨late (on.setNv { on.nv with ck0 := some ⟨0, []⟩, recno := 1 }), ⟨0, []⟩, by decide +kernel, by decide +kernel, by decide +kernel,
      by decide +kernel, by decide +kernel⟩,
    ⟨on, by decide +kernel, by decide +kernel⟩,
    ⟨on, by decide +kernel⟩,
    ⟨busy { on with bgw := { on.bgw with ckDue := true, fab := 2 ^ 40 } }, by decide +kernel⟩,
    ⟨{ on with bgw := { on.bgw with ckDue := true } }, by decide +kernel⟩,
    ⟨{ on with bgw := { on.bgw with ckDue := true } }, by decide +kernel⟩,
    ⟨on.setNv { on.nv with prsFailed := true }, by decide +kernel⟩,
    ⟨on.setNv { on.nv with spares := 0 }, by decide +kernel, by decide +kernel, by decide +kernel⟩,
    ⟨on.setNv { on.nv with spares := 1 }, by decide +kernel, by decide +kernel, by decide +kernel⟩,
    ⟨q (be 4 0 ++ be 4 64), on, [], accepted (by decide +kernel)⟩,
    ⟨q ([]), on, [], accepted (by decide +kernel)⟩,
    ⟨q ([1, 0, 0, 0] ++ be 4 0), on, [], accepted (by decide +kernel)⟩,
    ⟨q ([1, 0, 0, 0]), on.setNv { on.nv with fwB := { on.nv.fwB with st := 1 } }, [], accepted (by decide +kernel)⟩,
    ⟨q ([]), on, [], accepted (by decide +kernel)⟩,
    ⟨q ([]), on, [], accepted (by decide +kernel)⟩,
    ⟨q ([0, 7, 6, 2] ++ zeros 10 ++ [60] ++ zeros 45), on, [], accepted (by decide +kernel), by decide +kernel⟩,
    ⟨q ([1, 7, 6, 2] ++ zeros 10 ++ [60] ++ zeros 45), on, accepted (by decide +kernel), by decide +kernel⟩,
    ⟨q (be 4 131071), on, [], accepted (by decide +kernel)⟩,
    ⟨q ([]), on, [], accepted (by decide +kernel)⟩,
    ⟨q (zeros 12), on, [], accepted (by decide +kernel)⟩,
    ⟨ipfixS (2 ^ 40), { ipfixOf (zeros 60) with en := true }, by decide +kernel⟩,
    ⟨ipfixS 0, { ipfixOf (zeros 60) with en := true }, by decide +kernel⟩,
    ⟨on, by decide +kernel⟩,
    ⟨ipfixS (2 ^ 40), { ipfixOf (zeros 60) with en := true }, by decide +kernel⟩,
    ⟨ipfixS 0, { ipfixOf (zeros 60) with en := true }, by decide +kernel⟩,
    ⟨on, fun _ h => nomatch (show none = some _ from h)⟩⟩

/-- The hypotheses of `BackgroundShutdownAndI2c` can be met, clause by clause. -/
theorem meets_background_shutdown_and_i2c :
    (∃ (s : State), s.mode ≠ Mode.service ∨ s.flag R.BGW_CFG_SCRUB_EN = false) ∧
    (∃ (s : State), s.mode = Mode.service ∧ s.flag R.BGW_CFG_SCRUB_EN = true ∧ s.wordDue false = true ∧ s.bgw.fab + 8 ≤ s.fabCap ∧
      s.bgw.loftAt + 1 < 33554432) ∧
    (∃ (sp : ScrubSpace) (s : State), s.mode = Mode.service ∧ s.flag R.BGW_CFG_SCRUB_EN = true ∧
      (match sp with | ScrubSpace.loft => s.wordDue false | ScrubSpace.hbm => s.wordDue true) = true ∧ s.bgw.fab + 8 ≤ s.fabCap) ∧
    (∃ (sp : ScrubSpace) (s : State), s.mode = Mode.service ∧ s.flag R.BGW_CFG_SCRUB_EN = true ∧
      (match sp with | ScrubSpace.loft => s.wordDue false | ScrubSpace.hbm => s.wordDue true) = true ∧ s.fabFull 8 = true) ∧
    (∃ (p : Fin 64) (s : State), s.mode = Mode.service ∧ s.swt.begun = true ∧ s.phase = Phase.guard ∧ s.elapsed + nsI 1500 ≤ s.swt.d ∧
      ↑p < 32 * s.fld R.MMU_HBM_STACKS ∧ s.bgw.trainLoc + nsI (s.fld R.BGW_CAL_RETRAIN_MS * 1000000) ≤ s.loc) ∧
    (∃ (s : State), s.phase ≠ Phase.guard) ∧
    (∃ (r : List (BitVec 16)) (s : State), r.length = 16 ∧ s.mode = Mode.service) ∧
    (∃ (r : List (BitVec 16)) (s : State), r.length = 16 ∧ s.mode = Mode.service ∧
      ((if s.fld R.BGW_THERM_STAT_LEVEL < s.thermRise (List.foldl (fun a x => if a < x then x else a) ((List.map (fun x => sgn 16 x.toNat) r).headD 0) (List.map (fun x => sgn 16 x.toNat) r)) then s.thermRise (List.foldl (fun a x => if a < x then x else a) ((List.map (fun x => sgn 16 x.toNat) r).headD 0) (List.map (fun x => sgn 16 x.toNat) r)) else s.thermFall (List.foldl (fun a x => if a < x then x else a) ((List.map (fun x => sgn 16 x.toNat) r).headD 0) (List.map (fun x => sgn 16 x.toNat) r)) (s.fld R.BGW_THERM_STAT_LEVEL)) ≤ 2)) ∧
    (∃ (s : State), s.mode ≠ Mode.service) ∧
    (∃ (up : Bool) (s : State), s.mode = Mode.service ∧ s.bgw.avsDead = false ∧ s.bgw.avsLoc + nsI 1000000 ≤ s.loc ∧
      (700 ≤ if up = true then s.bgw.mv + 5 else s.bgw.mv - 5) ∧ ((if up = true then s.bgw.mv + 5 else s.bgw.mv - 5) ≤ 800)) ∧
    (∃ (up : Bool) (s : State), s.mode = Mode.service ∧ s.bgw.avsDead = false ∧ s.bgw.avsLoc + nsI 1000000 ≤ s.loc ∧
      ((if up = true then s.bgw.mv + 5 else s.bgw.mv - 5) < 700 ∨ 800 < if up = true then s.bgw.mv + 5 else s.bgw.mv - 5)) ∧
    (∃ (q : Req) (s : State), Accepted opShutBegin 4097 q s [] ∧ s.swt.begun = true) ∧
    (∃ (q : Req) (s : State) (plan : List ℕ), Accepted opShutAbort 4098 q s plan) ∧
    (∃ (q : Req) (s : State) (plan : List ℕ), Accepted opShutStatus 4225 q s plan) ∧
    (∃ (s : State), s.shut.phase ≠ 2 ∧ s.shut.phase ≠ 3) ∧
    (∃ (s : State), s.shut.phase = 2 ∧ s.drained = false) ∧
    (∃ (s : State) (x : ℕ × ℕ), s.shut.phase = 2 ∧ s.drained = true ∧ s.shut.by_ = some x ∧ s.nv.prsFailed = false) ∧
    (∃ (s : State) (x : ℕ × ℕ), s.shut.phase = 2 ∧ s.drained = true ∧ s.shut.by_ = some x ∧ s.nv.prsFailed = true) ∧
    (∃ (s : State), s.shut.phase = 3 ∧ s.shutReplyGone = true ∧ s.shut.action = 0) ∧
    (∃ (s : State), s.shut.phase = 3 ∧ s.shutReplyGone = true ∧ s.shut.action ≠ 0 ∧ s.legs = [] ∧ (∀ p < 8, s.portSt p = FnState.off) ∧
      s.pins.run = true) ∧
    (∃ (s : State), s.shut.phase = 4 ∧ s.shut.action = 0 ∧ s.legs = [] ∧ (∀ p < 8, s.portSt p = FnState.off)) ∧
    (∃ (s : State), s.shut.phase ≠ 4) ∧
    (∃ (s : State), s.mode ≠ Mode.reset) ∧
    (∃ (s : State), s.mode = Mode.reset) ∧
    (∃ (s : State), s.mode ≠ Mode.reset ∧ s.i2cAddr % 4 = 0) ∧
    (∃ (s : State), s.mode ≠ Mode.reset ∧ s.i2cAddr % 4 ≠ 0) :=
  ⟨⟨State.reset, by decide +kernel⟩,
    ⟨on.setFld R.BGW_CFG_SCRUB_EN 1, by decide +kernel, by decide +kernel, by decide +kernel, by decide +kernel, by decide +kernel⟩,
    ⟨.loft, on.setFld R.BGW_CFG_SCRUB_EN 1, by decide +kernel, by decide +kernel, by decide +kernel, by decide +kernel⟩,
    ⟨.loft, (busy (on.setFld R.BGW_CFG_SCRUB_EN 1)).setBgw { on.bgw with fab := 2 ^ 40 }, by decide +kernel⟩,
    ⟨63, (late (on.setFld R.SWT_STAT_PHASE 3)).setSwt { on.swt with begun := true, d := 2 ^ 120 }, by decide +kernel⟩,
    ⟨on, by decide +kernel⟩,
    ⟨temps, on, by decide +kernel, by decide +kernel⟩,
    ⟨temps, on, by decide +kernel, by decide +kernel, by decide +kernel⟩,
    ⟨State.reset, by decide +kernel⟩,
    ⟨true, late { on with bgw := { on.bgw with mv := 795 } }, by decide +kernel, by decide +kernel, by decide +kernel, by decide +kernel,
      by decide +kernel⟩,
    ⟨true, late { on with bgw := { on.bgw with mv := 800 } }, by decide +kernel, by decide +kernel, by decide +kernel, by decide +kernel⟩,
    ⟨q ([3, 3] ++ be 2 600), on.setSwt { on.swt with begun := true }, accepted (by decide +kernel), by decide +kernel⟩,
    ⟨q ([]), shutS 2 0, [], accepted (by decide +kernel)⟩,
    ⟨q ([]), on, [], accepted (by decide +kernel)⟩,
    ⟨on, by decide +kernel, by decide +kernel⟩,
    ⟨(shutS 2 0).setLeg 3 { Leg.init with st := .on }, by decide +kernel, by decide +kernel⟩,
    ⟨(shutS 2 0).setShut { (shutS 2 0).shut with by_ := some (0, 5) }, (0, 5), by decide +kernel, by decide +kernel, by decide +kernel,
      by decide +kernel⟩,
    ⟨((shutS 2 0).setShut { (shutS 2 0).shut with by_ := some (0, 5) }).setNv { on.nv with prsFailed := true }, (0, 5), by decide +kernel,
      by decide +kernel, by decide +kernel, by decide +kernel⟩,
    ⟨shutS 3 0, by decide +kernel, by decide +kernel, by decide +kernel⟩,
    ⟨shutS 3 1, by decide +kernel⟩,
    ⟨shutS 4 0, by decide +kernel, by decide +kernel, by decide +kernel, by decide +kernel⟩,
    ⟨on, by decide +kernel⟩,
    ⟨on, by decide +kernel⟩,
    ⟨State.reset, by decide +kernel⟩,
    ⟨on, by decide +kernel, by decide +kernel⟩,
    ⟨{ on with i2cAddr := 1 }, by decide +kernel, by decide +kernel⟩⟩

/-- The hypotheses of `AStepRunsTheFrontCommand` can be met, clause by clause. -/
theorem meets_a_step_runs_the_front_command :
    (∃ (c : Instr) (r : List Instr) (s : State), s.pending = c :: r) ∧
    (∃ (s : State), s.pending = []) :=
  ⟨⟨.tmuTick, [.pwrgoodFall], on.setPending [.tmuTick, .pwrgoodFall], by decide +kernel⟩,
    ⟨on, by decide +kernel⟩⟩

/-- The hypotheses of `ThePartAfterReset` can be met, clause by clause. -/
theorem meets_the_part_after_reset :
    (∃ (p : ℕ), p < 8) ∧
    (∃ (e : ℕ), e < 16) ∧
    (∃ (e : ℕ), e < 32) :=
  ⟨⟨7, by decide +kernel⟩,
    ⟨15, by decide +kernel⟩,
    ⟨31, by decide +kernel⟩⟩

/-- The hypotheses of `EveryStepKeepsTheInvariant` can be met, clause by clause. -/
theorem meets_every_step_keeps_the_invariant :
    ∃ (s : State) (t : State), Inv s ∧ step s = Host.Outcome.next t :=
  ⟨State.reset, State.reset, by decide +kernel, rfl⟩

/-- The hypotheses of `TheLifeCycleMovesByItsTable` can be met, clause by clause. -/
theorem meets_the_life_cycle_moves_by_its_table :
    (∃ (s : State) (t : State), Inv s ∧ step s = Host.Outcome.next t) ∧
    (∃ (s : State) (t : State), Inv s ∧ step s = Host.Outcome.next t ∧ s.nv.lc = 4) :=
  ⟨⟨State.reset, State.reset, by decide +kernel, rfl⟩,
    ⟨{ State.reset with nv := { State.reset.nv with lc := 4 } }, { State.reset with nv := { State.reset.nv with lc := 4 } }, by decide +kernel, rfl,
      by decide +kernel⟩⟩

/-- The hypotheses of `OnlyTheseCommandsChangeKeysAndBoot` can be met, clause by clause. -/
theorem meets_only_these_commands_change_keys_and_boot :
    ∃ (c : Instr) (s : State) (t : State), exec c s = Host.Outcome.next t :=
  ⟨.tinEdgeCapture 0 true, State.reset, State.reset, rfl⟩

end Sys2Proof.Tests
end

section
open Sys2Proof.Machine

/-- Settles O57: the reset state is a literal, so what it holds unfolds, and the fields and states of a register are evaluated. -/
theorem thePartAfterReset : Obligations.ThePartAfterReset := by
  have len : State.reset.fld R.SWT_CFG_LEN = 1 := by decide +kernel
  have valid : State.reset.fld R.TMU_STAT_VALID = 0 := by decide +kernel
  have ports : ∀ p, p < 8 → State.reset.portSt p = .off := by decide +kernel
  have fces : ∀ e, e < 16 → State.reset.fceSt e = .off := by decide +kernel
  have eces : ∀ e, e < 32 → State.reset.eceSt e = .off := by decide +kernel
  have inv : Inv State.reset := by decide +kernel
  exact ⟨rfl, rfl, fun _ => rfl, len, valid, fun _ => rfl, fun _ => rfl, fun _ => rfl, ports, fun _ => rfl, fun _ => rfl, fun _ => rfl, fces, eces,
    rfl, rfl, rfl, fun _ => rfl, rfl, rfl, rfl, inv⟩

end

namespace Sys2Proof.Machine

open Sys2Proof

/-! Bits of a number: what a field reads after a field is written. -/

theorem tb_eq_testBit (v i : Nat) : tb v i = v.testBit i := by
  simp only [tb, Nat.testBit_eq_decide_div_mod_eq]
  rfl

theorem testBit_bits (v hi lo i : Nat) : (bits v hi lo).testBit i = (decide (i < hi + 1 - lo) && v.testBit (i + lo)) := by
  simp only [bits, Nat.testBit_mod_two_pow, Nat.testBit_div_two_pow]

theorem putBits_eq (v hi lo x : Nat) : putBits v hi lo x =
    2 ^ lo * (2 ^ (hi + 1 - lo) * (v / 2 ^ lo / 2 ^ (hi + 1 - lo)) + x % 2 ^ (hi + 1 - lo)) + v % 2 ^ lo := by
  have h1 := Nat.div_add_mod v (2 ^ lo)
  have h2 := Nat.div_add_mod (v / 2 ^ lo) (2 ^ (hi + 1 - lo))
  rw [← h2, Nat.mul_add, Nat.mul_comm _ (_ % _)] at h1
  rw [putBits, bits, Nat.mul_add, Nat.mul_comm (2 ^ lo) (x % _)]
  omega

theorem testBit_putBits (v hi lo x i : Nat) :
    (putBits v hi lo x).testBit i = if lo ≤ i ∧ i < lo + (hi + 1 - lo) then x.testBit (i - lo) else v.testBit i := by
  rw [putBits_eq, Nat.testBit_two_pow_mul_add _ (Nat.mod_lt _ (Nat.two_pow_pos _)),
    Nat.testBit_two_pow_mul_add _ (Nat.mod_lt _ (Nat.two_pow_pos _))]
  simp only [Nat.testBit_mod_two_pow, Nat.testBit_div_two_pow]
  by_cases h1 : i < lo
  · simp [h1, Nat.not_le.2 h1]
  · by_cases h2 : i - lo < hi + 1 - lo
    · simp [h1, h2, Nat.not_lt.1 h1, show i < lo + (hi + 1 - lo) by omega]
    · simp [h1, h2, show ¬ i < lo + (hi + 1 - lo) by omega, show i - lo - (hi + 1 - lo) + (hi + 1 - lo) + lo = i by omega]

/-- A field of a 32-bit register reads what was put into it, modulo its width. -/
theorem bits_putBits_same (v x : Nat) {hi lo : Nat} (h : hi < 32) : bits (putBits v hi lo x % 2 ^ 32) hi lo = x % 2 ^ (hi + 1 - lo) := by
  refine Nat.eq_of_testBit_eq fun i => ?_
  rw [testBit_bits, Nat.testBit_mod_two_pow, testBit_putBits, Nat.testBit_mod_two_pow]
  by_cases hi' : i < hi + 1 - lo
  · simp [hi', show i + lo < 32 by omega, show i + lo < lo + (hi + 1 - lo) by omega]
  · simp [hi']

/-- A field that has no bit in common with the one written keeps its value. -/
theorem bits_putBits_apart (v x : Nat) {hi lo k j : Nat} (hk : k < 32) (h : hi < j ∨ k < lo) :
    bits (putBits v hi lo x % 2 ^ 32) k j = bits v k j := by
  refine Nat.eq_of_testBit_eq fun i => ?_
  rw [testBit_bits, testBit_bits, Nat.testBit_mod_two_pow, testBit_putBits]
  by_cases hi' : i < k + 1 - j
  · simp [hi', show i + j < 32 by omega, show ¬ (lo ≤ i + j ∧ i + j < lo + (hi + 1 - lo)) by omega]
  · simp [hi']

theorem bits_lt (v hi lo : Nat) : bits v hi lo < 2 ^ (hi + 1 - lo) := Nat.mod_lt _ (Nat.two_pow_pos _)

/-- A bit of an event register is 1 once it has been raised. -/
theorem tb_or_two_pow (v : Nat) {i : Nat} (h : i < 32) : tb ((v ||| 2 ^ i) % 2 ^ 32) i = true := by
  rw [tb_eq_testBit, Nat.testBit_mod_two_pow, Nat.testBit_or, Nat.testBit_two_pow_self, decide_eq_true h]
  simp

/-! Fields of the registers. -/

/-- Two fields that have no bit in common. -/
def Fld.Apart (f g : Fld) : Prop := f.addr ≠ g.addr ∨ f.hi < g.lo ∨ g.hi < f.lo

theorem fld_setReg_ne {s : State} {a v : Nat} {g : Fld} (h : a ≠ g.addr) : (s.setReg a v).fld g = s.fld g := by
  unfold State.fld; rw [State.reg_setReg_ne _ _ h]

theorem fld_setFld_same (s : State) (f : Fld) (v : Nat) (h : f.hi < 32) : (s.setFld f v).fld f = v % 2 ^ (f.hi + 1 - f.lo) := by
  rw [State.fld, State.setFld, State.reg_setReg_same, bits_putBits_same _ _ h]

theorem fld_setFld_apart {s : State} {f g : Fld} {v : Nat} (h : f.Apart g) (hg : g.hi < 32) : (s.setFld f v).fld g = s.fld g := by
  by_cases ha : f.addr = g.addr
  · rw [State.fld, State.setFld, ha, State.reg_setReg_same, bits_putBits_apart _ _ hg (h.resolve_left fun k => k ha), State.fld]
  · exact fld_setReg_ne ha

theorem fld_raise {s : State} {a v : Nat} {g : Fld} (h : a ≠ g.addr) (hd : g.addr ≠ R.QCP_EVT_DROP_CNT) : (s.raise a v).fld g = s.fld g := by
  unfold State.fld; rw [reg_raise_ne hd h]

theorem tb_raise (s : State) {a i : Nat} (ha : a ≠ R.QCP_EVT_DROP_CNT) (hi : i < 32) : tb ((s.raise a (2 ^ i)).reg a) i = true := by
  rw [reg_raise ha, if_pos rfl, tb_or_two_pow _ hi]

@[simp] theorem State.reg_setPort (s : State) (p : Nat) (x : Port) (a : Nat) : (s.setPort p x).reg a = s.reg a := rfl
@[simp] theorem State.fld_setPort (s : State) (p : Nat) (x : Port) (f : Fld) : (s.setPort p x).fld f = s.fld f := rfl
@[simp] theorem State.portSt_setPort (s : State) (p q : Nat) (x : Port) : (s.setPort p x).portSt q = s.portSt q := rfl
@[simp] theorem State.port_setPort_same (s : State) (p : Nat) (x : Port) : (s.setPort p x).port p = x := by
  simp [State.port, State.setPort]
theorem State.port_setPort_ne (s : State) (x : Port) {p q : Nat} (h : p ≠ q) : (s.setPort p x).port q = s.port q := by
  simp [State.port, State.setPort, h]
@[simp] theorem State.port_setFld (s : State) (f : Fld) (v p : Nat) : (s.setFld f v).port p = s.port p := rfl

@[simp] theorem State.reg_went (s : State) (f : FnId) (a b : FnState) (r : Nat) : (s.went f a b).reg r = s.reg r := rfl
@[simp] theorem State.fld_went (s : State) (f : FnId) (a b : FnState) (g : Fld) : (s.went f a b).fld g = s.fld g := rfl
@[simp] theorem State.port_went (s : State) (f : FnId) (a b : FnState) (p : Nat) : (s.went f a b).port p = s.port p := rfl
@[simp] theorem State.fns_went (s : State) (f : FnId) (a b : FnState) : (s.went f a b).fns = s.fns ++ [⟨f, a, b, s.now⟩] := rfl

/-- A transition that passes through no state between is reported once (R20). -/
theorem report_eq_went {a b : FnState} (h : a.path b false = [b]) (s : State) (f : FnId) : s.report f a b = s.went f a b := by
  rw [State.report, State.reportVia, h]; rfl

/-! What events leave, for the fields of the state and for what is done to a state after them. -/

section congr
variable {L : List Nat} {s t : State} (h : Only L s t)
include h

theorem Only.tmu_eq : t.tmu = s.tmu := (congrArg State.tmu h.rest : t.bare.tmu = s.bare.tmu)
theorem Only.now_eq : t.now = s.now := by unfold State.now; rw [h.tmu_eq]
theorem Only.ports_eq : t.ports = s.ports := (congrArg State.ports h.rest : t.bare.ports = s.bare.ports)
theorem Only.port_eq (p : Nat) : t.port p = s.port p := by unfold State.port; rw [h.ports_eq]
theorem Only.legs_eq : t.legs = s.legs := (congrArg State.legs h.rest : t.bare.legs = s.bare.legs)
theorem Only.fns_eq : t.fns = s.fns := (congrArg State.fns h.rest : t.bare.fns = s.bare.fns)

theorem Only.went (f : FnId) (a b : FnState) : Only L (s.went f a b) (t.went f a b) :=
  ⟨by
    have e := congrArg (fun u : State => ({ u with fns := s.fns ++ [⟨f, a, b, s.now⟩] } : State)) h.rest
    simp only [State.went, h.fns_eq, h.now_eq]
    exact e, h.regs, h.sess⟩

theorem Only.setPort (p : Nat) (x : Port) : Only L (s.setPort p x) (t.setPort p x) :=
  ⟨by
    have e := congrArg (fun u : State => ({ u with ports := kset s.ports p x } : State)) h.rest
    simp only [State.setPort, h.ports_eq]
    exact e, h.regs, h.sess⟩

theorem Only.setFld {f : Fld} (hf : f.addr ∈ L) (v : Nat) : Only L s (t.setFld f v) := h.trans (only_setFld hf)
theorem Only.raise {a : Nat} (ha : a ∈ L) (v : Nat) : Only L s (t.raise a v) := h.trans (only_raise ha)

end congr

/-! The state and the link of a port (R18, R20, R116). -/

theorem mac_stat_ne_evt (p : Nat) : R.MAC_EVT ≠ R.MAC_STAT p := by simp only [R.MAC_EVT, R.MAC_STAT]; omega
theorem mac_stat_ne_drop (p : Nat) : R.MAC_STAT p ≠ R.QCP_EVT_DROP_CNT := by simp only [R.QCP_EVT_DROP_CNT, R.MAC_STAT]; omega
theorem mac_evt_ne_drop : R.MAC_EVT ≠ R.QCP_EVT_DROP_CNT := by decide

theorem fnState_ofCode_code (x : FnState) : FnState.ofCode (x.code % 8) = x := by cases x <;> rfl

@[simp] theorem State.portSt_setFld_state (s : State) (p : Nat) (x : FnState) : (s.setFld (R.MAC_STAT_STATE p) x.code).portSt p = x := by
  rw [State.portSt, fld_setFld_same _ _ _ (show 2 < 32 by decide)]
  exact fnState_ofCode_code x

theorem State.portSt_setFld {s : State} {p v : Nat} {f : Fld} (h : f.Apart (R.MAC_STAT_STATE p)) : (s.setFld f v).portSt p = s.portSt p := by
  rw [State.portSt, fld_setFld_apart h (show 2 < 32 by decide), State.portSt]

theorem State.portSt_raise {s : State} {p a v : Nat} (h : a ≠ R.MAC_STAT p) : (s.raise a v).portSt p = s.portSt p := by
  rw [State.portSt, fld_raise h (mac_stat_ne_drop p), State.portSt]

theorem State.flag_eq (s : State) (f : Fld) (h : f.hi = f.lo) : s.fld f = b2n (s.flag f) := by
  have h1 : s.fld f < 2 := by
    have h2 := bits_lt (s.reg f.addr) f.hi f.lo
    rw [h, show f.lo + 1 - f.lo = 1 by omega] at h2
    rwa [State.fld, h]
  unfold State.flag b2n
  generalize s.fld f = v at *
  interval_cases v <;> rfl

/-- Setting a state reports the transition where it passes through no other state. -/
theorem setPortSt_eq {s : State} {p : Nat} {a x : FnState} (h : s.portSt p = a) (hp : a.path x false = [x]) :
    s.setPortSt p x = (s.setFld (R.MAC_STAT_STATE p) x.code).went (.port p) a x := by
  rw [State.setPortSt, h, report_eq_went hp]

theorem only_setPortSt {L : List Nat} {s : State} {p : Nat} {a x : FnState} (hL : R.MAC_STAT p ∈ L) (h : s.portSt p = a)
    (hp : a.path x false = [x]) : Only L (s.went (.port p) a x) (s.setPortSt p x) := by
  rw [setPortSt_eq h hp]
  exact (only_setFld (f := R.MAC_STAT_STATE p) hL).went _ _ _

@[simp] theorem State.portSt_setPortSt (s : State) (p : Nat) (x : FnState) : (s.setPortSt p x).portSt p = x :=
  State.portSt_setFld_state s p x

theorem fld_setPortSt {s : State} {p : Nat} {x : FnState} {g : Fld} (h : (R.MAC_STAT_STATE p).Apart g) (hg : g.hi < 32) :
    (s.setPortSt p x).fld g = s.fld g := fld_setFld_apart (s := s) h hg

theorem reg_setPortSt_ne {s : State} {p a : Nat} {x : FnState} (h : R.MAC_STAT p ≠ a) : (s.setPortSt p x).reg a = s.reg a :=
  State.reg_setReg_ne s _ h

theorem state_apart_link (p : Nat) : (R.MAC_STAT_STATE p).Apart (R.MAC_STAT_LINK p) := .inr (.inl (by decide : 2 < 5))

@[simp] theorem link_setPortSt (s : State) (p : Nat) (x : FnState) : (s.setPortSt p x).fld (R.MAC_STAT_LINK p) = s.fld (R.MAC_STAT_LINK p) :=
  fld_setPortSt (state_apart_link p) (by decide : 5 < 32)

/-! `State.setLink` -/

theorem setLink_same {s : State} {p : Nat} {up : Bool} (h : s.flag (R.MAC_STAT_LINK p) = up) : s.setLink p up = s := by
  rw [State.setLink, if_pos h]

/-- A change of the link writes LINK, FEC_LOCK on ports 0 to 6, and MAC_EVT.LINK. -/
theorem setLink_change {s : State} {p : Nat} {up : Bool} (h : s.flag (R.MAC_STAT_LINK p) ≠ up) :
    s.setLink p up = (if p < 7 then (s.setFld (R.MAC_STAT_LINK p) (b2n up)).setFld (R.MAC_STAT_FEC_LOCK p) (b2n up)
      else s.setFld (R.MAC_STAT_LINK p) (b2n up)).raise R.MAC_EVT (2 ^ p) := by
  rw [State.setLink, if_neg h]

theorem only_setLink {L : List Nat} {s : State} {p : Nat} {up : Bool} (h1 : R.MAC_STAT p ∈ L) (h2 : R.MAC_EVT ∈ L) : Only L s (s.setLink p up) := by
  by_cases h : s.flag (R.MAC_STAT_LINK p) = up
  · rw [setLink_same h]; exact Only.refl L s
  · rw [setLink_change h]
    have hl := only_setFld (s := s) (f := R.MAC_STAT_LINK p) (v := b2n up) h1
    split
    · exact (hl.setFld (f := R.MAC_STAT_FEC_LOCK p) h1 _).raise h2 _
    · exact hl.raise h2 _

/-- Beside LINK and FEC_LOCK the link leaves every field of the registers, MAC_EVT and the counter of dropped events apart. -/
theorem fld_setLink {s : State} {p : Nat} {up : Bool} {g : Fld} (h1 : (R.MAC_STAT_LINK p).Apart g) (h2 : (R.MAC_STAT_FEC_LOCK p).Apart g)
    (hg : g.hi < 32) (he : R.MAC_EVT ≠ g.addr) (hd : g.addr ≠ R.QCP_EVT_DROP_CNT) : (s.setLink p up).fld g = s.fld g := by
  by_cases h : s.flag (R.MAC_STAT_LINK p) = up
  · rw [setLink_same h]
  · rw [setLink_change h, fld_raise he hd]
    split
    · rw [fld_setFld_apart h2 hg, fld_setFld_apart h1 hg]
    · rw [fld_setFld_apart h1 hg]

@[simp] theorem link_setLink (s : State) (p : Nat) (up : Bool) : (s.setLink p up).fld (R.MAC_STAT_LINK p) = b2n up := by
  have hb : b2n up % 2 ^ (5 + 1 - 5) = b2n up := by cases up <;> rfl
  by_cases h : s.flag (R.MAC_STAT_LINK p) = up
  · rw [setLink_same h, State.flag_eq _ _ rfl, h]
  · rw [setLink_change h, fld_raise (mac_stat_ne_evt p) (mac_stat_ne_drop p)]
    split
    · rw [fld_setFld_apart (f := R.MAC_STAT_FEC_LOCK p) (.inr (.inr (by decide : 5 < 9))) (by decide : 5 < 32)]
      exact (fld_setFld_same s (R.MAC_STAT_LINK p) _ (by decide : 5 < 32)).trans hb
    · exact (fld_setFld_same s (R.MAC_STAT_LINK p) _ (by decide : 5 < 32)).trans hb

@[simp] theorem State.portSt_setLink (s : State) (p : Nat) (up : Bool) : (s.setLink p up).portSt p = s.portSt p := by
  rw [State.portSt, fld_setLink (.inr (.inr (by decide : 2 < 5))) (.inr (.inr (by decide : 2 < 9))) (by decide : 2 < 32) (mac_stat_ne_evt p)
    (mac_stat_ne_drop p), State.portSt]

/-- A change of the link sets its event (R116). -/
theorem evt_setLink {s : State} {p : Nat} {up : Bool} (hp : p < 32) (h : s.flag (R.MAC_STAT_LINK p) ≠ up) :
    tb ((s.setLink p up).reg R.MAC_EVT) p = true := by
  rw [setLink_change h, tb_raise _ mac_evt_ne_drop hp]

/-! `State.portFail` -/

theorem path_failed {x : FnState} (h : x ≠ .failed) : x.path .failed false = [.failed] := by
  cases x
  case failed => exact absurd rfl h
  all_goals rfl

/-- A fault takes a port that holds no disable to FAILED with its link down; it is reported and sets its event (R19, R116). -/
theorem portFail_spec {s : State} {p : Nat} {x : FnState} (hp : p < 8) (h : s.portSt p = x) (hx : x ≠ .failed) (hd : (s.port p).disHeld = false) :
    Only [R.MAC_STAT p, R.MAC_EVT] (s.went (.port p) x .failed) (s.portFail p) ∧ (s.portFail p).portSt p = .failed ∧
      (s.portFail p).fld (R.MAC_STAT_LINK p) = 0 ∧ tb ((s.portFail p).reg R.MAC_EVT) (24 + p) = true := by
  have e : s.portFail p = ((s.setLink p false).setPortSt p .failed).raise R.MAC_EVT (2 ^ (24 + p)) := by
    simp only [State.portFail, hd, Bool.false_eq_true, if_false]
  have hl : (s.setLink p false).portSt p = x := by rw [State.portSt_setLink, h]
  rw [e]
  refine ⟨?_, ?_, ?_, tb_raise _ mac_evt_ne_drop (by omega)⟩
  · exact (((only_setLink (by simp) (by simp)).went _ _ _).trans (only_setPortSt (by simp) hl (path_failed hx))).raise (by simp) _
  · rw [State.portSt_raise (mac_stat_ne_evt p), State.portSt_setPortSt]
  · rw [fld_raise (mac_stat_ne_evt p) (mac_stat_ne_drop p), link_setPortSt, link_setLink]; rfl

/-- A disable held during the start is carried out from FAILED (R19). -/
theorem portFail_held {s : State} {p : Nat} (hp : p < 8) (h : s.portSt p = .starting) (hd : (s.port p).disHeld = true) :
    Only [R.MAC_STAT p, R.MAC_EVT]
        (((s.setPort p { s.port p with disHeld := false }).went (.port p) .starting .failed).went (.port p) .failed .stopping) (s.portFail p) ∧
      (s.portFail p).portSt p = .stopping ∧ (s.portFail p).fld (R.MAC_STAT_LINK p) = 0 ∧ tb ((s.portFail p).reg R.MAC_EVT) (24 + p) = true := by
  let u := ((s.setLink p false).setPortSt p .failed).raise R.MAC_EVT (2 ^ (24 + p))
  have e : s.portFail p = (u.setPort p { s.port p with disHeld := false }).setPortSt p .stopping := by
    simp only [State.portFail, hd, if_true, u]
  have hl : (s.setLink p false).portSt p = .starting := by rw [State.portSt_setLink, h]
  have hu : Only [R.MAC_STAT p, R.MAC_EVT] (s.went (.port p) .starting .failed) u :=
    (((only_setLink (by simp) (by simp)).went _ _ _).trans (only_setPortSt (by simp) hl rfl)).raise (by simp) _
  have hs : (u.setPort p { s.port p with disHeld := false }).portSt p = .failed := by
    rw [State.portSt_setPort, State.portSt_raise (mac_stat_ne_evt p), State.portSt_setPortSt]
  rw [e]
  refine ⟨?_, State.portSt_setPortSt _ _ _, ?_, ?_⟩
  · exact ((hu.setPort p { s.port p with disHeld := false }).went _ _ _).trans (only_setPortSt (by simp) hs rfl)
  · rw [link_setPortSt, State.fld_setPort, fld_raise (mac_stat_ne_evt p) (mac_stat_ne_drop p), link_setPortSt, link_setLink]; rfl
  · rw [reg_setPortSt_ne (mac_stat_ne_evt p).symm, State.reg_setPort, tb_raise _ mac_evt_ne_drop (by omega)]

/-! `State.loseLink` -/

theorem fld_bump_ne {s : State} {a : Nat} {g : Fld} (h : a ≠ g.addr) : (s.bump a).fld g = s.fld g := fld_setReg_ne h

theorem mac_linkDown_ne_stat (p : Nat) : R.MAC_LINK_DOWN_CNT p ≠ R.MAC_STAT p := by simp only [R.MAC_LINK_DOWN_CNT, R.MAC_STAT]; omega

theorem loseLink_up {s : State} {p : Nat} (h : s.flag (R.MAC_STAT_LINK p) = true) :
    s.loseLink p = (s.bump (R.MAC_LINK_DOWN_CNT p)).setLink p false := by rw [State.loseLink, if_pos h]

theorem loseLink_down {s : State} {p : Nat} (h : s.flag (R.MAC_STAT_LINK p) = false) : s.loseLink p = s := by
  rw [State.loseLink, h]; rfl

theorem only_loseLink {L : List Nat} {s : State} {p : Nat} (h1 : R.MAC_STAT p ∈ L) (h2 : R.MAC_EVT ∈ L) (h3 : R.MAC_LINK_DOWN_CNT p ∈ L) :
    Only L s (s.loseLink p) := by
  cases h : s.flag (R.MAC_STAT_LINK p)
  · rw [loseLink_down h]; exact Only.refl L s
  · rw [loseLink_up h]; exact (only_bump h3).trans (only_setLink h1 h2)

@[simp] theorem link_loseLink (s : State) (p : Nat) : (s.loseLink p).fld (R.MAC_STAT_LINK p) = 0 := by
  cases h : s.flag (R.MAC_STAT_LINK p)
  · rw [loseLink_down h, State.flag_eq _ _ rfl, h]; rfl
  · rw [loseLink_up h, link_setLink]; rfl

/-- Beside LINK and FEC_LOCK a loss of link leaves every field of MAC_STAT. -/
theorem fld_loseLink {s : State} {p : Nat} {g : Fld} (ha : g.addr = R.MAC_STAT p) (h1 : (R.MAC_STAT_LINK p).Apart g)
    (h2 : (R.MAC_STAT_FEC_LOCK p).Apart g) (hg : g.hi < 32) : (s.loseLink p).fld g = s.fld g := by
  cases h : s.flag (R.MAC_STAT_LINK p)
  · rw [loseLink_down h]
  · rw [loseLink_up h, fld_setLink h1 h2 hg (ha ▸ mac_stat_ne_evt p) (ha ▸ mac_stat_ne_drop p), fld_bump_ne (ha ▸ mac_linkDown_ne_stat p)]

@[simp] theorem State.portSt_loseLink (s : State) (p : Nat) : (s.loseLink p).portSt p = s.portSt p := by
  rw [State.portSt, fld_loseLink rfl (.inr (.inr (by decide : 2 < 5))) (.inr (.inr (by decide : 2 < 9))) (by decide : 2 < 32), State.portSt]

/-! `State.portRequest` at a port that is OFF -/

@[simp] theorem State.portSt_latchPort (s : State) (p q : Nat) : (s.latchPort p).portSt q = s.portSt q := rfl
theorem State.port_latchPort_ne (s : State) {p q : Nat} (h : p ≠ q) : (s.latchPort p).port q = s.port q := State.port_setPort_ne _ _ h

/-- An enable starts a port that is OFF, with what was written while it was OFF (R18, R145). -/
theorem portRequest_off {s : State} {p : Nat} (h : s.portSt p = .off) : s.portRequest p true =
    (((s.setPort p { s.port p with disHeld := false }).latchPort p).setFld (R.MAC_STAT_STATE p) 1).went (.port p) .off .starting := by
  have hs : ((s.setPort p { s.port p with disHeld := false }).latchPort p).portSt p = .off := by
    rw [State.portSt_latchPort, State.portSt_setPort, h]
  have e : s.portRequest p true = ((s.setPort p { s.port p with disHeld := false }).latchPort p).setPortSt p .starting := by
    simp only [State.portRequest, h]
  exact e.trans (setPortSt_eq (x := .starting) hs rfl)

/-! The commands that start and stop a port and move its link, a lemma for each case. -/

theorem exec_portStartDone (p : Fin 8) (live : Bool) (s : State) : exec (.portStartDone p live) s = execPortStartDone p live s := rfl
theorem exec_portCalFail (p : Fin 8) (s : State) : exec (.portCalFail p) s = execPortCalFail p s := rfl
theorem exec_lanePllLoss (p : Fin 8) (s : State) : exec (.lanePllLoss p) s = execLanePllLoss p s := rfl
theorem exec_linkUp (p : Fin 8) (s : State) : exec (.linkUp p) s = execLinkUp p s := rfl
theorem exec_linkDown (p : Fin 8) (s : State) : exec (.linkDown p) s = execLinkDown p s := rfl
theorem exec_portStopDone (p : Fin 8) (s : State) : exec (.portStopDone p) s = execPortStopDone p s := rfl
theorem exec_rgmiiInbandStatus (link : Bool) (speed : Fin 4) (full : Bool) (s : State) :
    exec (.rgmiiInbandStatus link speed full) s = execRgmiiInbandStatus link speed full s := rfl

theorem port_val_ne {p : Fin 8} (h : p ≠ 7) : p.val ≠ 7 := fun e => h (Fin.ext e)

/-- A port that has started, before its link is looked at. -/
def State.portStarted (s : State) (p : Nat) (live : Bool) : State :=
  (s.setPort p { s.port p with disHeld := false, live := live }).setPortSt p .on

theorem only_portStarted {L : List Nat} {s : State} {p : Nat} {live : Bool} (hL : R.MAC_STAT p ∈ L) (h : s.portSt p = .starting) :
    Only L ((s.setPort p { s.port p with disHeld := false, live := live }).went (.port p) .starting .on) (s.portStarted p live) :=
  only_setPortSt hL h rfl

@[simp] theorem State.portSt_portStarted (s : State) (p : Nat) (live : Bool) : (s.portStarted p live).portSt p = .on :=
  State.portSt_setPortSt _ _ _

@[simp] theorem State.link_portStarted (s : State) (p : Nat) (live : Bool) :
    (s.portStarted p live).fld (R.MAC_STAT_LINK p) = s.fld (R.MAC_STAT_LINK p) := link_setPortSt _ _ _

theorem exec_portStartDone_lane {p : Fin 8} {s : State} {live : Bool} (h : s.portSt p.val = .starting) (h7 : p ≠ 7) :
    exec (.portStartDone p live) s = .next (
      let t := if live then (s.portStarted p.val live).setLink p.val true else s.portStarted p.val live
      if (s.port p.val).disHeld then t.setPortSt p.val .stopping else t) := by
  simp only [exec_portStartDone, execPortStartDone, h, if_true, port_val_ne h7, false_and, not_false_eq_true, and_true, if_false, State.portStarted]

theorem portStartDone_gives_link (p : Fin 8) (s : State) (h : s.portSt p.val = .starting) (hd : (s.port p.val).disHeld = false) (h7 : p ≠ 7) :
    Gives (.portStartDone p true) s [R.MAC_STAT p.val, R.MAC_EVT]
      ((s.setPort p.val { s.port p.val with disHeld := false, live := true }).went (.port p.val) .starting .on)
      fun t => t.portSt p.val = .on ∧ t.fld (R.MAC_STAT_LINK p.val) = 1 ∧ (s.fld (R.MAC_STAT_LINK p.val) = 0 → tb (t.reg R.MAC_EVT) p.val = true) := by
  refine ⟨(s.portStarted p.val true).setLink p.val true, ?_, (only_portStarted (by simp) h).trans (only_setLink (by simp) (by simp)),
    by simp, by simp [b2n], fun h0 => evt_setLink (by omega) ?_⟩
  · simp [exec_portStartDone_lane h h7, hd]
  · simp [State.flag, h0]

theorem portStartDone_without_link (p : Fin 8) (s : State) (h : s.portSt p.val = .starting) (hd : (s.port p.val).disHeld = false) (h7 : p ≠ 7) :
    exec (.portStartDone p false) s =
    .next (((s.setPort p.val { s.port p.val with disHeld := false, live := false }).setFld (R.MAC_STAT_STATE p.val) 2).went
      (.port p.val) .starting .on) := by
  have e := setPortSt_eq (s := s.setPort p.val { s.port p.val with disHeld := false, live := false }) h
    (show FnState.starting.path .on false = [.on] from rfl)
  rw [exec_portStartDone_lane h h7, hd]
  exact congrArg Host.Outcome.next e

theorem portStartDone_disable_held (p : Fin 8) (s : State) (h : s.portSt p.val = .starting) (hd : (s.port p.val).disHeld = true) (h7 : p ≠ 7) :
    exec (.portStartDone p false) s =
    .next (((((s.setPort p.val { s.port p.val with disHeld := false, live := false }).setFld (R.MAC_STAT_STATE p.val) 2).went
      (.port p.val) .starting .on).setFld (R.MAC_STAT_STATE p.val) 3).went (.port p.val) .on .stopping) := by
  have e1 := setPortSt_eq (s := s.setPort p.val { s.port p.val with disHeld := false, live := false }) h
    (show FnState.starting.path .on false = [.on] from rfl)
  have e2 := setPortSt_eq (s := s.portStarted p.val false) (State.portSt_portStarted s p.val false)
    (show FnState.on.path .stopping false = [.stopping] from rfl)
  rw [exec_portStartDone_lane h h7, hd]
  rw [State.portStarted, e1] at e2
  exact congrArg Host.Outcome.next ((congrArg (·.setPortSt p.val .stopping) e1).trans e2)

theorem portStartDone_s0 (live : Bool) (s : State) (h : s.portSt 7 = .starting) (hd : (s.port 7).disHeld = false) :
    Gives (.portStartDone 7 live) s [R.MAC_STAT 7, R.MAC_EVT]
      ((s.setPort 7 { s.port 7 with disHeld := false, live := live }).went (.port 7) .starting .on)
      fun t => t.portSt 7 = .on ∧ t.fld (R.MAC_STAT_SPEED 7) = s.fld (R.MAC_PHY_SPEED 7) ∧ t.fld (R.MAC_STAT_DUPLEX 7) = s.fld (R.MAC_PHY_DUPLEX 7) ∧
        t.fld (R.MAC_STAT_LINK 7) = (if live = true ∧ s.fld (R.MAC_PHY_AUTO 7) = 0 then 1 else s.fld (R.MAC_STAT_LINK 7)) := by
  let u := ((s.portStarted 7 live).setFld (R.MAC_STAT_SPEED 7) (s.fld (R.MAC_PHY_SPEED 7))).setFld (R.MAC_STAT_DUPLEX 7) (s.fld (R.MAC_PHY_DUPLEX 7))
  have hu : Only [R.MAC_STAT 7, R.MAC_EVT]
      ((s.setPort 7 { s.port 7 with disHeld := false, live := live }).went (.port 7) .starting .on) u :=
    ((only_portStarted (by simp) h).setFld (f := R.MAC_STAT_SPEED 7) (by simp [R.MAC_STAT_SPEED]) _).setFld (f := R.MAC_STAT_DUPLEX 7)
      (by simp [R.MAC_STAT_DUPLEX]) _
  have hst : u.portSt 7 = .on := by
    rw [State.portSt_setFld (.inr (.inr (by decide))), State.portSt_setFld (.inr (.inr (by decide))), State.portSt_portStarted]
  have hlink : u.fld (R.MAC_STAT_LINK 7) = s.fld (R.MAC_STAT_LINK 7) := by
    rw [fld_setFld_apart (.inr (.inr (by decide))) (by decide), fld_setFld_apart (.inr (.inr (by decide))) (by decide), State.link_portStarted]
  have hspeed : u.fld (R.MAC_STAT_SPEED 7) = s.fld (R.MAC_PHY_SPEED 7) := by
    rw [fld_setFld_apart (.inr (.inr (by decide))) (by decide), fld_setFld_same _ _ _ (by decide)]
    exact Nat.mod_eq_of_lt (bits_lt _ 13 12)
  have hduplex : u.fld (R.MAC_STAT_DUPLEX 7) = s.fld (R.MAC_PHY_DUPLEX 7) := by
    rw [fld_setFld_same _ _ _ (by decide)]
    exact Nat.mod_eq_of_lt (bits_lt _ 14 14)
  have hauto : s.fld (R.MAC_PHY_AUTO 7) = b2n (s.flag (R.MAC_PHY_AUTO 7)) := State.flag_eq _ _ rfl
  have he : exec (.portStartDone 7 live) s = .next (if live = true ∧ s.fld (R.MAC_PHY_AUTO 7) = 0 then u.setLink 7 true else u) := by
    have hc : (live = true ∧ ¬ ((7 : Fin 8).val = 7 ∧ s.flag (R.MAC_PHY_AUTO 7) = true)) = (live = true ∧ s.fld (R.MAC_PHY_AUTO 7) = 0) := by
      rw [hauto]; cases s.flag (R.MAC_PHY_AUTO 7) <;> simp [b2n]
    have h' : s.portSt (7 : Fin 8).val = .starting := h
    have hd' : (s.port (7 : Fin 8).val).disHeld = false := hd
    simp only [exec_portStartDone, execPortStartDone, h', hd', if_true, hc, Bool.false_eq_true, if_false]
    rfl
  split
  · rename_i hc
    rw [if_pos hc] at he
    refine ⟨_, he, hu.trans (only_setLink (by simp) (by simp)), by rw [State.portSt_setLink, hst], ?_, ?_, link_setLink _ _ _⟩
    · rw [fld_setLink (.inr (.inl (by decide))) (.inr (.inr (by decide))) (by decide) (by decide) (by decide), hspeed]
    · rw [fld_setLink (.inr (.inl (by decide))) (.inr (.inr (by decide))) (by decide) (by decide) (by decide), hduplex]
  · rename_i hc
    rw [if_neg hc] at he
    exact ⟨_, he, hu, hst, hspeed, hduplex, hlink⟩

theorem portCalFail_gives_failed (p : Fin 8) (s : State) (h : s.portSt p.val = .starting) (hd : (s.port p.val).disHeld = false) :
    Gives (.portCalFail p) s [R.MAC_STAT p.val, R.MAC_EVT] (s.went (.port p.val) .starting .failed) fun t => t.portSt p.val = .failed ∧
      t.fld (R.MAC_STAT_LINK p.val) = 0 ∧ tb (t.reg R.MAC_EVT) (24 + p.val) = true :=
  ⟨s.portFail p.val, by rw [exec_portCalFail, execPortCalFail, if_pos h], portFail_spec p.isLt h (by decide) hd⟩

theorem portCalFail_disable_held (p : Fin 8) (s : State) (h : s.portSt p.val = .starting) (hd : (s.port p.val).disHeld = true) :
    Gives (.portCalFail p) s [R.MAC_STAT p.val, R.MAC_EVT]
      (((s.setPort p.val { s.port p.val with disHeld := false }).went (.port p.val) .starting .failed).went (.port p.val) .failed .stopping)
      fun t => t.portSt p.val = .stopping ∧ t.fld (R.MAC_STAT_LINK p.val) = 0 ∧ tb (t.reg R.MAC_EVT) (24 + p.val) = true :=
  ⟨s.portFail p.val, by rw [exec_portCalFail, execPortCalFail, if_pos h], portFail_held p.isLt h hd⟩

theorem lanePllLoss_gives_failed (p : Fin 8) (x : FnState) (s : State) (h : s.portSt p.val = x) (hx : x = .starting ∨ x = .on ∨ x = .stopping)
    (hd : (s.port p.val).disHeld = false) (h7 : p ≠ 7) :
    Gives (.lanePllLoss p) s [R.MAC_STAT p.val, R.MAC_EVT] (s.went (.port p.val) x .failed) fun t => t.portSt p.val = .failed ∧
      t.fld (R.MAC_STAT_LINK p.val) = 0 ∧ tb (t.reg R.MAC_EVT) (24 + p.val) = true := by
  have hne : x ≠ .failed := by rintro rfl; simp at hx
  refine ⟨s.portFail p.val, ?_, portFail_spec p.isLt h hne hd⟩
  simp only [exec_lanePllLoss, execLanePllLoss, h]
  rw [if_pos ⟨port_val_ne h7, hx⟩]

theorem linkUp_gives_link (p : Fin 8) (s : State) (h : s.portSt p.val = .on ∨ s.portSt p.val = .stopping) (ha : p = 7 → s.fld (R.MAC_PHY_AUTO 7) = 0) :
    Gives (.linkUp p) s [R.MAC_STAT p.val, R.MAC_EVT] (s.setPort p.val { s.port p.val with live := true })
      fun t => t.portSt p.val = s.portSt p.val ∧ t.fld (R.MAC_STAT_LINK p.val) = 1 := by
  refine ⟨_, ?_, only_setLink (by simp) (by simp), by rw [State.portSt_setLink, State.portSt_setPort], link_setLink _ _ true⟩
  have hauto : ¬ (p.val = 7 ∧ s.flag (R.MAC_PHY_AUTO 7) = true) := fun k => by
    rw [State.flag, ha (Fin.ext k.1)] at k
    exact absurd k.2 (by decide)
  simp only [exec_linkUp, execLinkUp]
  rw [if_pos ⟨h, hauto⟩]

theorem portStopDone_gives_off (p : Fin 8) (s : State) (h : s.portSt p.val = .stopping) (hi : (s.port p.val).idle = true)
    (he : s.fld (R.MAC_STAT_PEND_EN p.val) = 0) :
    Gives (.portStopDone p) s [R.MAC_STAT p.val, R.MAC_EVT] (s.went (.port p.val) .stopping .off) fun t => t.portSt p.val = .off ∧
      t.fld (R.MAC_STAT_LINK p.val) = 0 := by
  have hl : (s.setLink p.val false).portSt p.val = .stopping := by rw [State.portSt_setLink, h]
  refine ⟨(s.setLink p.val false).setPortSt p.val .off, ?_,
    ((only_setLink (by simp) (by simp)).went _ _ _).trans (only_setPortSt (by simp) hl rfl), by simp, by simp [b2n]⟩
  simp [exec_portStopDone, execPortStopDone, h, hi, State.flag, he]

theorem portStopDone_enable_held (p : Fin 8) (s : State) (h : s.portSt p.val = .stopping) (hi : (s.port p.val).idle = true)
    (he : s.fld (R.MAC_STAT_PEND_EN p.val) = 1) :
    ∃ t, exec (.portStopDone p) s = .next t ∧ t.portSt p.val = .starting ∧ t.fld (R.MAC_STAT_PEND_EN p.val) = 0 ∧ t.fld (R.MAC_STAT_LINK p.val) = 0 ∧
      t.fns = s.fns ++ [⟨.port p.val, .stopping, .off, s.now⟩, ⟨.port p.val, .off, .starting, s.now⟩] ∧ t.legs = s.legs ∧ t.tmu = s.tmu ∧
      (∀ k, k ≠ p.val → t.port k = s.port k) := by
  have hL : Only [R.MAC_STAT p.val, R.MAC_EVT] s (s.setLink p.val false) := only_setLink (by simp) (by simp)
  have hl : (s.setLink p.val false).portSt p.val = .stopping := by rw [State.portSt_setLink, h]
  have hoff := setPortSt_eq hl (show FnState.stopping.path .off false = [.off] from rfl)
  have hS : Only [R.MAC_STAT p.val, R.MAC_EVT] (s.went (.port p.val) .stopping .off) ((s.setLink p.val false).setPortSt p.val .off) :=
    (hL.went _ _ _).trans (only_setPortSt (by simp) hl rfl)
  generalize hw : (s.setLink p.val false).setPortSt p.val .off = w at hS
  have hwst : w.portSt p.val = .off := by rw [← hw, State.portSt_setPortSt]
  have hwl : w.fld (R.MAC_STAT_LINK p.val) = 0 := by rw [← hw, link_setPortSt, link_setLink]; rfl
  let u := w.setFld (R.MAC_STAT_PEND_EN p.val) 0
  have hu : u.portSt p.val = .off :=
    (State.portSt_setFld (f := R.MAC_STAT_PEND_EN p.val) (.inr (.inr (by decide : 2 < 4)))).trans hwst
  refine ⟨u.portRequest p.val true, ?_, ?_⟩
  · simp only [exec_portStopDone, execPortStopDone, h, hi, and_self, if_true, State.flag, he, beq_self_eq_true, hw, u]
  rw [portRequest_off hu]
  refine ⟨State.portSt_setFld_state _ _ .starting, ?_, ?_, ?_, hS.legs_eq, hS.tmu_eq, fun k hk => ?_⟩
  · rw [State.fld_went, fld_setFld_apart (.inr (.inl (by decide : 2 < 4))) (by decide : 4 < 32)]
    exact fld_setFld_same w (R.MAC_STAT_PEND_EN p.val) 0 (by decide : 4 < 32)
  · rw [State.fld_went, fld_setFld_apart (state_apart_link p.val) (by decide : 5 < 32)]
    exact (fld_setFld_apart (f := R.MAC_STAT_PEND_EN p.val) (g := R.MAC_STAT_LINK p.val) (.inr (.inl (by decide : 4 < 5))) (by decide : 5 < 32)).trans hwl
  · rw [State.fns_went]
    have h1 : w.fns = s.fns ++ [⟨.port p.val, .stopping, .off, s.now⟩] := hS.fns_eq
    have h2 : w.now = s.now := hS.now_eq
    show w.fns ++ [⟨.port p.val, .off, .starting, w.now⟩] = _
    rw [h1, h2, List.append_assoc]; rfl
  · rw [State.port_went, State.port_setFld, State.port_latchPort_ne _ hk.symm, State.port_setPort_ne _ _ hk.symm]
    exact hS.port_eq k

theorem rgmiiInbandStatus_gives_link (link full : Bool) (speed : Fin 4) (s : State) (h : s.portSt 7 = .on ∨ s.portSt 7 = .stopping)
    (ha : s.fld (R.MAC_PHY_AUTO 7) = 1) :
    Gives (.rgmiiInbandStatus link speed full) s [R.MAC_STAT 7, R.MAC_EVT, R.MAC_LINK_DOWN_CNT 7]
      (s.setPort 7 { s.port 7 with live := link }) fun t => t.portSt 7 = s.portSt 7 ∧ t.fld (R.MAC_STAT_SPEED 7) = speed.val ∧
        t.fld (R.MAC_STAT_DUPLEX 7) = b2n full ∧
        t.fld (R.MAC_STAT_LINK 7) = b2n (link && decide (speed.val ≠ 3) && (full || decide (speed.val ≠ 2))) := by
  let u := ((s.setPort 7 { s.port 7 with live := link }).setFld (R.MAC_STAT_SPEED 7) speed.val).setFld (R.MAC_STAT_DUPLEX 7) (b2n full)
  have hu : Only [R.MAC_STAT 7, R.MAC_EVT, R.MAC_LINK_DOWN_CNT 7] (s.setPort 7 { s.port 7 with live := link }) u :=
    (only_setFld (f := R.MAC_STAT_SPEED 7) (by simp [R.MAC_STAT_SPEED])).setFld (f := R.MAC_STAT_DUPLEX 7) (by simp [R.MAC_STAT_DUPLEX]) _
  have hst : u.portSt 7 = s.portSt 7 := by
    rw [State.portSt_setFld (.inr (.inr (by decide))), State.portSt_setFld (.inr (.inr (by decide))), State.portSt_setPort]
  have hspeed : u.fld (R.MAC_STAT_SPEED 7) = speed.val := by
    rw [fld_setFld_apart (.inr (.inr (by decide))) (by decide), fld_setFld_same _ _ _ (by decide)]
    exact Nat.mod_eq_of_lt speed.isLt
  have hduplex : u.fld (R.MAC_STAT_DUPLEX 7) = b2n full := by
    rw [fld_setFld_same _ _ _ (by decide)]
    cases full <;> rfl
  have he : exec (.rgmiiInbandStatus link speed full) s =
      .next (if link && decide (speed.val ≠ 3) && (full || decide (speed.val ≠ 2)) then u.setLink 7 true else u.loseLink 7) := by
    simp only [exec_rgmiiInbandStatus, execRgmiiInbandStatus, h, State.flag, ha, beq_self_eq_true, and_self, if_true, u]
  cases hc : link && decide (speed.val ≠ 3) && (full || decide (speed.val ≠ 2))
  · rw [hc] at he
    refine ⟨u.loseLink 7, he, hu.trans (only_loseLink (by simp) (by simp) (by simp)), by rw [State.portSt_loseLink, hst], ?_, ?_, link_loseLink _ _⟩
    · rw [fld_loseLink rfl (.inr (.inl (by decide))) (.inr (.inr (by decide))) (by decide), hspeed]
    · rw [fld_loseLink rfl (.inr (.inl (by decide))) (.inr (.inr (by decide))) (by decide), hduplex]
  · rw [hc] at he
    refine ⟨u.setLink 7 true, he, hu.trans (only_setLink (by simp) (by simp)), by rw [State.portSt_setLink, hst], ?_, ?_, link_setLink _ _ _⟩
    · rw [fld_setLink (.inr (.inl (by decide))) (.inr (.inr (by decide))) (by decide) (by decide) (by decide), hspeed]
    · rw [fld_setLink (.inr (.inl (by decide))) (.inr (.inr (by decide))) (by decide) (by decide) (by decide), hduplex]

/-! A tandem link that goes down leaves the ports' links as they are (R432, R444). -/

/-- The registers that tell of the links of the ports. -/
def LinkReg (a : Nat) : Prop := a = R.MAC_EVT ∨ ∃ p, a = R.MAC_STAT p ∨ a = R.MAC_LINK_DOWN_CNT p

theorem linkReg_offset {a : Nat} (h : LinkReg a) : a % 0x1000 = 0 ∨ a % 0x1000 = 4 ∨ a % 0x1000 = 0x1C8 := by
  obtain rfl | ⟨p, rfl | rfl⟩ := h
  · exact .inl (by decide)
  · simp only [R.MAC_STAT]; omega
  · simp only [R.MAC_LINK_DOWN_CNT]; omega

/-- `t` has the time, the legs, the transceivers and the link registers of `s`. -/
structure LinksKept (s t : State) : Prop where
  legs : t.legs = s.legs
  tmu : t.tmu = s.tmu
  live : ∀ q, (t.port q).live = (s.port q).live
  regs : ∀ a, LinkReg a → t.reg a = s.reg a

theorem LinksKept.trans {s t u : State} (h : LinksKept s t) (k : LinksKept t u) : LinksKept s u :=
  ⟨k.legs.trans h.legs, k.tmu.trans h.tmu, fun q => (k.live q).trans (h.live q), fun a ha => (k.regs a ha).trans (h.regs a ha)⟩

theorem LinksKept.fld_eq {s t : State} (h : LinksKept s t) {f : Fld} (hf : LinkReg f.addr) : t.fld f = s.fld f := by
  unfold State.fld; rw [h.regs _ hf]

theorem LinksKept.portSt_eq {s t : State} (h : LinksKept s t) (p : Nat) : t.portSt p = s.portSt p := by
  unfold State.portSt; rw [h.fld_eq (.inr ⟨p, .inl rfl⟩)]

theorem linksKept_refl (s : State) : LinksKept s s := ⟨rfl, rfl, fun _ => rfl, fun _ _ => rfl⟩

theorem linksKept_setTnd (s : State) (x : Tnd) : LinksKept s (s.setTnd x) := ⟨rfl, rfl, fun _ => rfl, fun _ _ => rfl⟩

theorem linksKept_setTlink (s : State) (p : Nat) (x : TLink) : LinksKept s (s.setTlink p x) := linksKept_setTnd s _

theorem linksKept_raise_tnd (s : State) (v : Nat) : LinksKept s (s.raise R.TND_EVT v) := by
  have h : Only [R.TND_EVT] s (s.raise R.TND_EVT v) := only_raise (by simp)
  refine ⟨h.legs_eq, h.tmu_eq, fun q => by rw [h.port_eq], fun a ha => h.regs a ?_ ?_⟩
  all_goals
    have := linkReg_offset ha
    simp only [List.mem_singleton, R.TND_EVT, R.QCP_EVT_DROP_CNT]
    omega

theorem linksKept_bump {s : State} {a : Nat} (h : ¬ LinkReg a) : LinksKept s (s.bump a) :=
  ⟨rfl, rfl, fun _ => rfl, fun _ hb => State.reg_bump_ne s (by rintro rfl; exact h hb)⟩

theorem linksKept_setPort {s : State} {p : Nat} {x : Port} (h : x.live = (s.port p).live) : LinksKept s (s.setPort p x) := by
  refine ⟨rfl, rfl, fun q => ?_, fun _ _ => rfl⟩
  by_cases e : p = q
  · subst e; rw [State.port_setPort_same, h]
  · rw [State.port_setPort_ne _ _ e]

theorem linksKept_enqueueTx (s : State) (p : Nat) (f : TxFrame) : LinksKept s (s.enqueueTx p f) := by
  simp only [State.enqueueTx]
  split
  · exact linksKept_setPort rfl
  · exact linksKept_setPort rfl

theorem linksKept_txRequest (s : State) (p : Nat) (f : TxFrame) : LinksKept s (s.txRequest p f).1 := by
  simp only [State.txRequest]
  split
  · refine linksKept_bump fun h => ?_
    have := linkReg_offset h
    simp only [R.MAC_TX_BADLEN_CNT] at this
    omega
  · split
    · refine (linksKept_bump fun h => ?_).trans (linksKept_enqueueTx _ _ _)
      have := linkReg_offset h
      simp only [R.MAC_TX_PAD_CNT] at this
      omega
    · exact linksKept_enqueueTx _ _ _

theorem linksKept_linkTo (s : State) (p st : Nat) : LinksKept s (s.linkTo p st) := by
  simp only [State.linkTo]
  split
  · exact linksKept_refl s
  · have h := (linksKept_setTlink s p { s.tlink p with st := st }).trans (linksKept_raise_tnd _ 1)
    split
    · exact h.trans (linksKept_raise_tnd _ 8)
    · exact h

theorem linksKept_sendRingFail (s : State) (p port : Nat) : LinksKept s (s.sendRingFail p port) := by
  unfold State.sendRingFail
  split
  · exact linksKept_txRequest _ _ _
  · exact linksKept_refl s

theorem linksKept_linkDown (s : State) (p : Nat) : LinksKept s (s.linkDown p) := by
  simp only [State.linkDown]
  split
  · exact linksKept_refl s
  · have h := linksKept_linkTo s p 0
    split
    · exact (h.trans (linksKept_setTlink _ _ _)).trans (linksKept_sendRingFail _ _ _)
    · exact h.trans (linksKept_setTlink _ _ _)

theorem linkDown_drops_link (p : Fin 8) (s : State) (h : s.portSt p.val = .on ∨ s.portSt p.val = .stopping) (hl : s.fld (R.MAC_STAT_LINK p.val) = 1) :
    ∃ t, exec (.linkDown p) s = .next t ∧
    t.portSt p.val = s.portSt p.val ∧ t.fld (R.MAC_STAT_LINK p.val) = 0 ∧ (t.port p.val).live = false ∧ tb (t.reg R.MAC_EVT) p.val = true ∧
    t.reg (R.MAC_LINK_DOWN_CNT p.val) = (s.reg (R.MAC_LINK_DOWN_CNT p.val) + 1) % 2 ^ 32 ∧ t.legs = s.legs ∧ t.tmu = s.tmu := by
  let v := s.setPort p.val { s.port p.val with live := false }
  have hf : v.flag (R.MAC_STAT_LINK p.val) = true := by rw [State.flag, State.fld_setPort, hl]; rfl
  have hu := loseLink_up hf
  have ho : Only [R.MAC_STAT p.val, R.MAC_EVT, R.MAC_LINK_DOWN_CNT p.val] v (v.loseLink p.val) := only_loseLink (by simp) (by simp) (by simp)
  have hk := linksKept_linkDown (v.loseLink p.val) p.val
  have hb : (v.bump (R.MAC_LINK_DOWN_CNT p.val)).flag (R.MAC_STAT_LINK p.val) ≠ false := by
    rw [State.flag, fld_bump_ne (mac_linkDown_ne_stat p.val), ← State.flag, hf]; decide
  refine ⟨(v.loseLink p.val).linkDown p.val, ?_, ?_, ?_, ?_, ?_, ?_, hk.legs.trans ho.legs_eq, hk.tmu.trans ho.tmu_eq⟩
  · simp only [exec_linkDown, execLinkDown]
    rw [if_pos h]
  · rw [hk.portSt_eq, State.portSt_loseLink, State.portSt_setPort]
  · rw [hk.fld_eq (.inr ⟨p.val, .inl rfl⟩), link_loseLink]
  · rw [hk.live, ho.port_eq, State.port_setPort_same]
  · rw [hk.regs _ (.inl rfl), hu, evt_setLink (by omega) hb]
  · have hne : ∀ q, R.MAC_LINK_DOWN_CNT q ≠ R.QCP_EVT_DROP_CNT := fun q => by simp only [R.MAC_LINK_DOWN_CNT, R.QCP_EVT_DROP_CNT]; omega
    have hme : ∀ q, R.MAC_LINK_DOWN_CNT q ≠ R.MAC_EVT := fun q => by simp only [R.MAC_LINK_DOWN_CNT, R.MAC_EVT]; omega
    have hs : Only [R.MAC_STAT p.val, R.MAC_EVT] (v.bump (R.MAC_LINK_DOWN_CNT p.val)) ((v.bump (R.MAC_LINK_DOWN_CNT p.val)).setLink p.val false) :=
      only_setLink (by simp) (by simp)
    rw [hk.regs _ (.inr ⟨p.val, .inr rfl⟩), hu, hs.regs _ (by simp [mac_linkDown_ne_stat, hme]) (hne _), State.reg_bump_same, State.reg_setPort]

end Sys2Proof.Machine

section
open Sys2Proof.Machine

/-- Settles O15, clause by clause: a start, with and without a link, of a lane and of S0, failures, links, and the two ends of a stop. -/
theorem portsStartAndStop : Obligations.PortsStartAndStop :=
  ⟨portStartDone_gives_link, portStartDone_s0, portStartDone_without_link, portStartDone_disable_held, portCalFail_gives_failed,
    portCalFail_disable_held, lanePllLoss_gives_failed, linkUp_gives_link, linkDown_drops_link, portStopDone_gives_off,
    portStopDone_enable_held, rgmiiInbandStatus_gives_link⟩

end

namespace Sys2Proof.Machine

open Sys2Proof

/-! Big-endian numbers: what is read back from a payload that was put together. -/

theorem beNat_append_byte (l : Bytes) (x : Byte) : beNat (l ++ [x]) = beNat l * 256 + x.toNat := by
  simp [beNat]

theorem beNat_cons (x : Byte) (l : Bytes) : beNat (x :: l) = x.toNat * 256 ^ l.length + beNat l := by
  induction l using List.reverseRecOn with
  | nil => simp [beNat]
  | append_singleton l y ih =>
    rw [← List.cons_append, beNat_append_byte, ih, beNat_append_byte, List.length_append, List.length_singleton, Nat.pow_succ]
    ring

theorem beNat_be (n v : Nat) : beNat (be n v) = v % 256 ^ n := by
  induction n with
  | zero => simp [be, beNat, Nat.mod_one]
  | succ n ih =>
    rw [be, beNat_cons, ih, be_length]
    have hb : (byteOf (v / 256 ^ n)).toNat = v / 256 ^ n % 256 := by simp [byteOf]
    rw [hb, Nat.pow_succ, Nat.mod_mul, Nat.mul_comm, Nat.add_comm]

/-- The `n` bytes that follow the first `k` read as the number written there. -/
theorem num_append_be {l r : Bytes} {k n v : Nat} (hk : l.length = k) : num (l ++ (be n v ++ r)) k n = v % 256 ^ n := by
  subst hk
  have hs : sub (l ++ (be n v ++ r)) l.length n = be n v := by
    rw [sub, List.drop_left, List.take_left' (be_length n v)]
  rw [num, hs, be_length, beNat_be, Nat.sub_self, Nat.pow_zero, Nat.mul_one]

theorem be_mod (n v : Nat) : be n (v % 256 ^ n) = be n v := by
  have h : ∀ k ≤ n, be k (v % 256 ^ n) = be k v := by
    intro k hk
    induction k with
    | zero => rfl
    | succ k ih =>
      rw [be, be, ih (by omega)]
      have hd : v % 256 ^ n / 256 ^ k % 256 = v / 256 ^ k % 256 := by
        have e : n = k + 1 + (n - (k + 1)) := by omega
        rw [e, Nat.pow_add, Nat.pow_succ, Nat.mul_assoc, Nat.mod_mul_right_div_self, Nat.mod_mul_right_mod]
      congr 1
      apply BitVec.eq_of_toNat_eq
      simpa [byteOf] using hd
  exact h n (Nat.le_refl n)

/-! The payloads of the commands of one register (R168, R169). -/

theorem pairsOf_writeReq (c : RegCmd) {a v : Nat} (ha : a < 2 ^ 32) (hv : v < 2 ^ 32) : pairsOf (writeReq c a v).payload = [(a, v)] := by
  have e : (writeReq c a v).payload = be 2 0 ++ (be 2 1 ++ (be 4 a ++ (be 4 v ++ []))) := by simp [writeReq]
  have h1 : num (writeReq c a v).payload 2 2 = 1 := by rw [e]; exact num_append_be rfl
  have h2 : num (writeReq c a v).payload 4 4 = a := by
    rw [e, ← List.append_assoc]; exact (num_append_be rfl).trans (Nat.mod_eq_of_lt ha)
  have h3 : num (writeReq c a v).payload 8 4 = v := by
    rw [e, ← List.append_assoc, ← List.append_assoc]; exact (num_append_be rfl).trans (Nat.mod_eq_of_lt hv)
  simp [pairsOf, h1, h2, h3, List.range_succ]

theorem writeReq_not_journaled (c : RegCmd) (a v : Nat) : opRegWrite.jrnl (writeReq c a v).payload = false := by
  have e : (writeReq c a v).payload = [] ++ (be 2 0 ++ (be 2 1 ++ be 4 a ++ be 4 v)) := by simp [writeReq]
  show tb (num (writeReq c a v).payload 0 2) 0 = false
  rw [e, num_append_be (k := 0) rfl]
  rfl

theorem readReq_parts (c : RegCmd) {a : Nat} (ha : a < 2 ^ 32) : num (readReq c a).payload 0 4 = a ∧ num (readReq c a).payload 4 4 = 1 := by
  have e : (readReq c a).payload = be 4 a ++ (be 4 1 ++ []) := by simp [readReq]
  rw [e]
  exact ⟨(num_append_be (l := []) rfl).trans (Nat.mod_eq_of_lt ha), num_append_be rfl⟩

/-! A command of one register completes with what it does to the register. -/

/-- A write of one register completes with the effect `e` where `e` is what writing the pair does, on every state that differs aside. -/
theorem writes_of_writePair {mk : RegCmd → Instr} {a v : Nat} {e : State → State} (hx : ∀ c s, exec (mk c) s = .next (writeOne c a v s))
    (ha : a < 2 ^ 32) (hv : v < 2 ^ 32) (hb : a ≠ R.SWT_LOFT_BUD) (hl : ∀ s, tmuLate s a v = false)
    (he : ∀ m s u, Aside m s u → Aside m (e s) (u.writePair a v)) (hf : ∀ (m : Nat) (u : State), ((u.writePair a v).sess m).face = (u.sess m).face) :
    Writes mk (fun _ => a) (fun _ => v) e := by
  intro c s hacc
  refine completes_direct (hx c s) hacc (writeReq_not_journaled c a v) (Nat.zero_le _) ?_
  intro u k hu _ _ _ _ _
  refine ⟨u.writePair a v, ?_, he _ s u hu, hf _ u⟩
  have hm : u.mustMove [(a, v)] = false := by simp [State.mustMove, hb]
  simp only [opRegWrite, pairsOf_writeReq c ha hv, hm, Bool.false_eq_true, if_false, regApply, applyPairs, List.foldl_cons, List.foldl_nil,
    hl, Bool.or_self]

/-- A read of one register completes with what the read does and the value it then shows. -/
theorem reads_of_readAct {mk : Path → Instr} {a : Nat} {act : Bool → State → State} {val : Bool → State → Nat}
    (hx : ∀ p s, exec (mk p) s = .next (readOne p a s)) (ha : a < 2 ^ 32) (h4 : a % 4 = 0)
    (hact : ∀ i2c s, s.readAct i2c a = act i2c s) (hval : ∀ i2c s, (act i2c s).readReg i2c a = val i2c (act i2c s))
    (hi : ∀ s x y, { act true { s with i2cAddr := x } with i2cAddr := y } = { act true s with i2cAddr := y })
    (hiv : ∀ s x, val true (act true { s with i2cAddr := x }) = val true (act true s))
    (he : ∀ m s u, Aside m s u → Aside m (act false s) (act false u)) (hv : ∀ m s u, Aside m s u → val false u = val false s)
    (hf : ∀ (m : Nat) (u : State), ((act false u).sess m).face = (u.sess m).face) : Reads mk a act val := by
  refine ⟨fun c s hacc => completes_direct (hx (.qcp c) s) hacc rfl (Nat.zero_le _) ?_, fun s hs => ?_⟩
  · intro u k hu _ _ _ _ _
    obtain ⟨h1, h2⟩ := readReq_parts c ha
    refine ⟨act false u, ?_, he _ s u hu, hf _ u⟩
    simp only [opRegRead, h1, h2, readRegs, hact, hval, hv _ _ _ (he _ s u hu), Done.res, List.flatMap_cons, List.flatMap_nil, List.append_nil]
  · rw [hx]
    simp only [readOne, hs, if_false, i2cRead, h4, ne_eq, not_true_eq_false, readRegs, hact, hval, List.map_cons, List.map_nil, hiv]
    exact congrArg (fun t : State => Host.Outcome.next ({ t with busOut := [BitVec.ofNat 32 (val true (act true s))] } : State)) (hi s a ((a + 4) % 2 ^ 32))

/-- An effect that is made on every state that differs aside, and that answers OK. -/
theorem acts_of_aside {d : OpDef} {op : Nat} {plan : List Nat} {q : Req} {s e : State} {r : Bytes} {f : State → State}
    (happ : ∀ c v, Aside q.mbox.val s v → d.app c plan v q.payload = ⟨f v, St.ok, 0, r, false⟩)
    (he : ∀ v, Aside q.mbox.val s v → Aside q.mbox.val e (f v)) (hf : ∀ v : State, ((f v).sess q.mbox.val).face = (v.sess q.mbox.val).face) :
    Acts d op plan q s e St.ok 0 r :=
  fun v c hv _ _ _ _ _ => ⟨f v, happ c v hv, he v hv, hf v⟩

/-! What is done to the ports is done alike on states that differ aside. -/

/-- The registers that a command leaves aside are those of QCP and PRS. -/
theorem qcpReg_false {a : Nat} (h4 : a / 0x10000 ≠ 4) (h17 : a / 0x10000 ≠ 0x11) : qcpReg a = false := by
  have hq : ∀ b, b / 0x10000 = 4 → a ≠ b := fun b hb e => h4 (e ▸ hb)
  have hp : ∀ b, b / 0x10000 = 0x11 → a ≠ b := fun b hb e => h17 (e ▸ hb)
  have hd : ∀ k < 8, a ≠ R.QCP_DB_CMD k := fun k hk => hq _ (by simp only [R.QCP_DB_CMD]; omega)
  simp only [qcpReg, Bool.or_eq_false_iff, beq_eq_false_iff_ne, ne_eq, List.any_eq_false, List.mem_range, beq_iff_eq]
  exact ⟨⟨⟨⟨⟨⟨⟨⟨hq _ rfl, hq _ rfl⟩, hq _ rfl⟩, hp _ rfl⟩, hp _ rfl⟩, hp _ rfl⟩, hp _ rfl⟩, hp _ rfl⟩, hd⟩

theorem qcpReg_mac {a : Nat} (h : a / 0x10000 = 3) : qcpReg a = false := qcpReg_false (by omega) (by omega)

section congr
variable {m : Nat} {s t : State} (h : Aside m s t)
include h

theorem Aside.now_eq : t.now = s.now := by unfold State.now; rw [h.tmu_eq]
theorem Aside.loc_eq : t.loc = s.loc := by unfold State.loc; rw [h.tmu_eq]
theorem Aside.fns_eq : t.fns = s.fns := (congrArg State.fns h.rest : t.beside.fns = s.beside.fns)
theorem Aside.port_eq (p : Nat) : t.port p = s.port p := by unfold State.port; rw [h.ports_eq]
theorem Aside.gates_eq : t.qcp.gates = s.qcp.gates := (congrArg (fun u : State => u.qcp.gates) h.rest : t.beside.qcp.gates = s.beside.qcp.gates)

theorem Aside.setPort (p : Nat) (x : Port) : Aside m (s.setPort p x) (t.setPort p x) := by
  unfold State.setPort; rw [h.ports_eq]; exact h.withPorts _

theorem Aside.withFns (l : List FnRep) : Aside m { s with fns := l } { t with fns := l } :=
  ⟨congrArg (fun u : State => { u with fns := l }) h.rest, h.regs, h.sess⟩

theorem Aside.report (f : FnId) (a b : FnState) : Aside m (s.report f a b) (t.report f a b) := by
  simp only [State.report, State.reportVia, h.fns_eq, h.now_eq]
  exact h.withFns _

theorem Aside.stored {a : Nat} (ha : qcpReg a = false) (v : Nat) : Aside m (s.stored a v) (t.stored a v) := by
  unfold State.stored; rw [h.reg_eq ha]; exact h.setReg _ _

end congr

theorem qcpReg_mac_stat {p : Nat} (hp : p < 8) : qcpReg (R.MAC_STAT p) = false := qcpReg_mac (by simp only [R.MAC_STAT]; omega)
theorem qcpReg_mac_cfg {p : Nat} (hp : p < 8) : qcpReg (R.MAC_CFG p) = false := qcpReg_mac (by simp only [R.MAC_CFG]; omega)
theorem qcpReg_mac_ctl {p : Nat} (hp : p < 8) : qcpReg (R.MAC_CTL p) = false := qcpReg_mac (by simp only [R.MAC_CTL]; omega)
theorem qcpReg_mac_maxfrm {p : Nat} (hp : p < 8) : qcpReg (R.MAC_MAXFRM p) = false := qcpReg_mac (by simp only [R.MAC_MAXFRM]; omega)
theorem qcpReg_mac_linkDown {p : Nat} (hp : p < 8) : qcpReg (R.MAC_LINK_DOWN_CNT p) = false :=
  qcpReg_mac (by simp only [R.MAC_LINK_DOWN_CNT]; omega)

section ports
variable {m p : Nat} {s t : State} (hp : p < 8) (h : Aside m s t)
include hp h

theorem Aside.portSt_eq : t.portSt p = s.portSt p := by
  rw [State.portSt, h.fld_eq (f := R.MAC_STAT_STATE p) (qcpReg_mac_stat hp), State.portSt]

theorem Aside.latchPort : Aside m (s.latchPort p) (t.latchPort p) := by
  rw [State.latchPort, State.latchPort, h.port_eq, h.fld_eq (f := R.MAC_MAXFRM_LEN p) (qcpReg_mac_maxfrm hp),
    h.fld_eq (f := R.MAC_CFG_ROLE p) (qcpReg_mac_cfg hp)]
  exact h.setPort _ _

theorem Aside.setPortSt (x : FnState) : Aside m (s.setPortSt p x) (t.setPortSt p x) := by
  rw [State.setPortSt, State.setPortSt, h.portSt_eq hp]
  exact (h.setFld (f := R.MAC_STAT_STATE p) (qcpReg_mac_stat hp) _).report _ _ _

theorem Aside.portRequest (en : Bool) : Aside m (s.portRequest p en) (t.portRequest p en) := by
  simp only [State.portRequest, h.portSt_eq hp, h.port_eq]
  split
  · exact ((h.setPort _ _).latchPort hp).setPortSt hp _
  · exact h.setPort _ _
  · exact h.setPortSt hp _
  · exact h.setPortSt hp _
  · exact h.setFld (f := R.MAC_STAT_PEND_EN p) (qcpReg_mac_stat hp) _
  · exact h.setFld (f := R.MAC_STAT_PEND_EN p) (qcpReg_mac_stat hp) _
  · exact h

theorem Aside.flag_link_eq : t.flag (R.MAC_STAT_LINK p) = s.flag (R.MAC_STAT_LINK p) := by
  rw [State.flag, h.fld_eq (f := R.MAC_STAT_LINK p) (qcpReg_mac_stat hp), State.flag]

theorem Aside.setLink (up : Bool) : Aside m (s.setLink p up) (t.setLink p up) := by
  by_cases hf : s.flag (R.MAC_STAT_LINK p) = up
  · rw [setLink_same hf, setLink_same ((h.flag_link_eq hp).trans hf)]; exact h
  · rw [setLink_change hf, setLink_change (by rw [h.flag_link_eq hp]; exact hf)]
    have hl := h.setFld (f := R.MAC_STAT_LINK p) (qcpReg_mac_stat hp) (b2n up)
    split
    · exact (hl.setFld (f := R.MAC_STAT_FEC_LOCK p) (qcpReg_mac_stat hp) _).raise rfl rfl _
    · exact hl.raise rfl rfl _

theorem Aside.loseLink : Aside m (s.loseLink p) (t.loseLink p) := by
  cases hf : s.flag (R.MAC_STAT_LINK p)
  · rw [loseLink_down hf, loseLink_down ((h.flag_link_eq hp).trans hf)]; exact h
  · rw [loseLink_up hf, loseLink_up ((h.flag_link_eq hp).trans hf)]
    exact (h.bump (qcpReg_mac_linkDown hp)).setLink hp _

end ports

/-! Sessions see of the ports at most events. -/

@[simp] theorem sess_setFld (s : State) (f : Fld) (v m : Nat) : (s.setFld f v).sess m = s.sess m := rfl
@[simp] theorem sess_setPort (s : State) (p m : Nat) (x : Port) : (s.setPort p x).sess m = s.sess m := rfl

theorem portRequest_sess (s : State) (p m : Nat) (en : Bool) : (s.portRequest p en).sess m = s.sess m := by
  simp only [State.portRequest]
  split <;> rfl

theorem Only.face_eq {L : List Nat} {s t : State} (h : Only L s t) (m : Nat) : (t.sess m).face = (s.sess m).face :=
  Session.face_of_quiet (h.sess m)

theorem loseLink_face (s : State) (p m : Nat) : ((s.loseLink p).sess m).face = (s.sess m).face :=
  (only_loseLink (L := [R.MAC_STAT p, R.MAC_EVT, R.MAC_LINK_DOWN_CNT p]) (by simp) (by simp) (by simp)).face_eq m

/-! `State.portRequest`, by the state of the port (R18, R599); for OFF see `portRequest_off`. -/

theorem portRequest_disable {s : State} {p : Nat} {x : FnState} (h : s.portSt p = x) (hx : x = .on ∨ x = .failed) :
    s.portRequest p false = (s.setFld (R.MAC_STAT_STATE p) 3).went (.port p) x .stopping := by
  have hp : x.path .stopping false = [.stopping] := by obtain rfl | rfl := hx <;> rfl
  have e : s.portRequest p false = s.setPortSt p .stopping := by obtain rfl | rfl := hx <;> simp only [State.portRequest, h]
  exact e.trans (setPortSt_eq (x := .stopping) h hp)

/-! PORT_ENABLE, PORT_DISABLE and PORT_STATUS (R143). -/

theorem exec_portEnable (q : Req) (s : State) : exec (.portEnable q) s = .next (runOp opPortEnable 0x0701 q s) := rfl
theorem exec_portDisable (q : Req) (s : State) : exec (.portDisable q) s = .next (runOp opPortDisable 0x0702 q s) := rfl
theorem exec_portStatus (q : Req) (s : State) : exec (.portStatus q) s = .next (runOp opPortStatus 0x0782 q s) := rfl

/-- A check that passes behind the test of the port's index names a port. -/
theorem portChk_ok {b : Bytes} {c : Chk} {plan : List Nat} (h : portChk b c = .ok plan) : u8 b 0 < 8 := by
  unfold portChk at h
  split at h
  · cases h
  · omega

/-- MAC_CFG.EN is written, and the request carried. -/
theorem acts_portAsked {d : OpDef} {op : Nat} {plan : List Nat} {q : Req} {s : State} (en : Bool) (hp : u8 q.payload 0 < 8)
    (happ : ∀ c v, d.app c plan v q.payload = Done.ok ((v.setFld (R.MAC_CFG_EN (u8 q.payload 0)) (b2n en)).portRequest (u8 q.payload 0) en)) :
    Acts d op plan q s ((s.setFld (R.MAC_CFG_EN (u8 q.payload 0)) (b2n en)).portRequest (u8 q.payload 0) en) St.ok 0 [] :=
  acts_of_aside (f := fun v => (v.setFld (R.MAC_CFG_EN (u8 q.payload 0)) (b2n en)).portRequest (u8 q.payload 0) en) (fun c v _ => happ c v)
    (fun _ hv => (hv.setFld (f := R.MAC_CFG_EN (u8 q.payload 0)) (qcpReg_mac_cfg hp) _).portRequest hp en)
    (fun v => by rw [portRequest_sess, sess_setFld])

theorem mac_cfg_ne_stat (p q : Nat) : R.MAC_CFG p ≠ R.MAC_STAT q := by simp only [R.MAC_CFG, R.MAC_STAT]; omega

theorem portEnable_does : DoesIf (fun q s => s.portSt (u8 q.payload 0) = .off) true opPortEnable 0x0701 .portEnable (done fun q s =>
    let p := u8 q.payload 0
    ((((s.setFld (R.MAC_CFG_EN p) 1).setPort p { s.port p with disHeld := false }).latchPort p).setFld (R.MAC_STAT_STATE p) 1).went
      (.port p) .off .starting) := by
  refine doesIf_journaled exec_portEnable (fun _ _ _ _ _ => rfl) rfl fun q s plan hacc hoff => ?_
  have hst : (s.setFld (R.MAC_CFG_EN (u8 q.payload 0)) 1).portSt (u8 q.payload 0) = .off :=
    (State.portSt_setFld (f := R.MAC_CFG_EN (u8 q.payload 0)) (.inl (mac_cfg_ne_stat _ _))).trans hoff
  have h := acts_portAsked (d := opPortEnable) (op := 0x0701) (plan := plan) (s := s) true (portChk_ok hacc.chk) (fun _ _ => rfl)
  rw [show b2n true = 1 from rfl, portRequest_off hst] at h
  exact h

theorem portDisable_does : DoesIf (fun q s => s.portSt (u8 q.payload 0) = .on) true opPortDisable 0x0702 .portDisable (done fun q s =>
    let p := u8 q.payload 0
    ((s.setFld (R.MAC_CFG_EN p) 0).setFld (R.MAC_STAT_STATE p) 3).went (.port p) .on .stopping) := by
  refine doesIf_journaled exec_portDisable (fun _ _ _ _ _ => rfl) rfl fun q s plan hacc hon => ?_
  have hst : (s.setFld (R.MAC_CFG_EN (u8 q.payload 0)) 0).portSt (u8 q.payload 0) = .on :=
    (State.portSt_setFld (f := R.MAC_CFG_EN (u8 q.payload 0)) (.inl (mac_cfg_ne_stat _ _))).trans hon
  have h := acts_portAsked (d := opPortDisable) (op := 0x0702) (plan := plan) (s := s) false (portChk_ok hacc.chk) (fun _ _ => rfl)
  rw [show b2n false = 0 from rfl, portRequest_disable hst (.inl rfl)] at h
  exact h

/-! The views of the ports' registers. -/

section congr
variable {m : Nat} {s t : State} (h : Aside m s t)
include h

theorem Aside.gateClosed_eq (code : Nat) : t.gateClosed code = s.gateClosed code := by
  unfold State.gateClosed; rw [h.gates_eq, h.loc_eq, h.now_eq]

theorem Aside.fill_eq (p n : Nat) : t.fill p n = s.fill p n := by
  unfold State.fill; rw [h.port_eq, h.mmu_eq]

theorem Aside.macView_eq {a : Nat} (ha : qcpReg a = false) (i2c : Bool) : macView t i2c a = macView s i2c a := by
  simp only [macView, State.gateMask, h.gateClosed_eq, h.fill_eq, h.port_eq, h.reg_eq ha]

end congr

/-- A register of the ports reads as its view, else as stored. -/
theorem readReg_mac {s : State} {i2c : Bool} {a : Nat} (hr : (regAt a).isSome) (h3 : a / 0x10000 = 3) :
    s.readReg i2c a = ((macView s i2c a).getD (s.reg a)) % 2 ^ 32 := by
  obtain ⟨r, hr⟩ := Option.isSome_iff_exists.1 hr
  simp only [State.readReg, hr, State.view, h3]

/-- The registers that PORT_STATUS returns. -/
def portStatusRegs (p : Nat) : List Nat := [R.MAC_STAT p, R.MAC_GATE p, R.MAC_PAUSED p] ++ (List.range 8).map fun n => R.MAC_IFILL p n

theorem portStatusRegs_defined : ∀ p < 8, ∀ a ∈ portStatusRegs p, (regAt a).isSome ∧ a / 0x10000 = 3 := by decide +kernel

theorem portStatus_does : Does false opPortStatus 0x0782 .portStatus (replied fun q s =>
    (portStatusRegs (u8 q.payload 0)).flatMap fun a => be 4 (s.readReg false a)) := by
  refine does_direct exec_portStatus (fun _ => rfl) fun q s plan hacc => ?_
  have hp : u8 q.payload 0 < 8 := portChk_ok hacc.chk
  refine acts_of_aside (f := id) (fun c v hv => ?_) (fun _ hv => hv) (fun _ => rfl)
  have hrd : ∀ a ∈ portStatusRegs (u8 q.payload 0), be 4 ((macView v false a).getD (v.reg a)) = be 4 (s.readReg false a) := by
    intro a ha
    obtain ⟨hr, h3⟩ := portStatusRegs_defined _ hp a ha
    rw [readReg_mac hr h3, show (2 : Nat) ^ 32 = 256 ^ 4 from rfl, be_mod, hv.macView_eq (qcpReg_mac h3), hv.reg_eq (qcpReg_mac h3)]
  have e : (opPortStatus.app c plan v q.payload) =
      Done.res v ((portStatusRegs (u8 q.payload 0)).flatMap fun a => be 4 ((macView v false a).getD (v.reg a))) := by
    simp only [opPortStatus, portStatusRegs, List.flatMap_append, List.flatMap_cons, List.flatMap_nil, List.flatMap_map, List.append_nil,
      List.append_assoc]
  rw [e, List.flatMap_congr hrd]
  rfl

/-! The registers of a port that act when written or read (R116, R145, R146, R599). -/

theorem exec_macCfgEnWrite (p : Fin 8) (c : RegCmd) (v : Word) (s : State) :
    exec (.macCfgEnWrite p c v) s = .next (writeOne c (R.MAC_CFG p.val) v.toNat s) := rfl
theorem exec_macCtlPeakClr (p : Fin 8) (c : RegCmd) (s : State) : exec (.macCtlPeakClr p c) s = .next (writeOne c (R.MAC_CTL p.val) 1 s) := rfl
theorem exec_macCtlAnRestart (p : Fin 8) (c : RegCmd) (s : State) :
    exec (.macCtlAnRestart p c) s = .next (writeOne c (R.MAC_CTL p.val) 2 s) := rfl
theorem exec_macCntLoRead (p : Fin 8) (tx : Bool) (path : Path) (s : State) : exec (.macCntLoRead p tx path) s =
    .next (readOne path (if tx then R.MAC_TX_BYTE_CNT_LO p.val else R.MAC_RX_BYTE_CNT_LO p.val) s) := rfl

theorem mac_cfg_ctl_defined : ∀ p < 8, (regAt (R.MAC_CFG p)).isSome ∧ (regAt (R.MAC_CTL p)).isSome := by decide +kernel

/-- A pair written to a register of the ports is stored and has the effect of its block. -/
theorem writePair_mac {s : State} {a v : Nat} (hr : (regAt a).isSome) (h3 : a / 0x10000 = 3) :
    s.writePair a v = macEffect (s.stored a v) a (s.reg a) v := by
  unfold State.writePair
  rw [if_pos hr]
  simp only [State.effect, h3, State.stored]

theorem tmuLate_mac {s : State} {a v : Nat} (h3 : a / 0x10000 = 3) : tmuLate s a v = false := by
  have : ¬ a < 0x20180 := by omega
  simp [tmuLate, this]

theorem writePair_mac_cfg {p : Nat} (hp : p < 8) (s : State) (v : Nat) : s.writePair (R.MAC_CFG p) v =
    if tb v 0 = tb (s.reg (R.MAC_CFG p)) 0 then s.stored (R.MAC_CFG p) v else (s.stored (R.MAC_CFG p) v).portRequest p (tb v 0) := by
  have h3 : R.MAC_CFG p / 0x10000 = 3 := by simp only [R.MAC_CFG]; omega
  have h1 : ¬ 0x38000 ≤ R.MAC_CFG p := by simp only [R.MAC_CFG]; omega
  have h2 : (R.MAC_CFG p - 0x30000) / 0x1000 = p ∧ (R.MAC_CFG p - 0x30000) % 0x1000 = 0 := by simp only [R.MAC_CFG]; omega
  rw [writePair_mac (mac_cfg_ctl_defined p hp).1 h3, macEffect, if_neg h1]
  simp only [h2.1, h2.2, if_true]

theorem writePair_mac_ctl {p : Nat} (hp : p < 8) (s : State) (v : Nat) : s.writePair (R.MAC_CTL p) v =
    let t := s.stored (R.MAC_CTL p) v
    let t1 := if tb v 0 then t.setPort p { t.port p with peak := (List.range 8).map fun n => (n, t.fill p n) } else t
    if tb v 1 && t.portSt p == .on && decide (p < 7) then (t1.setPort p { t1.port p with live := false }).loseLink p else t1 := by
  have h3 : R.MAC_CTL p / 0x10000 = 3 := by simp only [R.MAC_CTL]; omega
  have h1 : ¬ 0x38000 ≤ R.MAC_CTL p := by simp only [R.MAC_CTL]; omega
  have h2 : (R.MAC_CTL p - 0x30000) / 0x1000 = p ∧ (R.MAC_CTL p - 0x30000) % 0x1000 = 0x2C := by simp only [R.MAC_CTL]; omega
  rw [writePair_mac (mac_cfg_ctl_defined p hp).2 h3, macEffect, if_neg h1]
  simp only [h2.1, h2.2, show ¬ 0x2C = 0 by decide, if_true, if_false]

theorem mac_cfg_lt {p : Nat} (hp : p < 8) : R.MAC_CFG p < 2 ^ 32 := by simp only [R.MAC_CFG]; omega
theorem mac_ctl_lt {p : Nat} (hp : p < 8) : R.MAC_CTL p < 2 ^ 32 := by simp only [R.MAC_CTL]; omega
theorem mac_cfg_ne_loft (p : Nat) : R.MAC_CFG p ≠ R.SWT_LOFT_BUD := by simp only [R.MAC_CFG, R.SWT_LOFT_BUD]; omega
theorem mac_ctl_ne_loft (p : Nat) : R.MAC_CTL p ≠ R.SWT_LOFT_BUD := by simp only [R.MAC_CTL, R.SWT_LOFT_BUD]; omega

@[simp] theorem sess_stored (s : State) (a v m : Nat) : (s.stored a v).sess m = s.sess m := rfl
@[simp] theorem port_stored (s : State) (a v p : Nat) : (s.stored a v).port p = s.port p := rfl
@[simp] theorem fill_stored (s : State) (a v p n : Nat) : (s.stored a v).fill p n = s.fill p n := rfl

theorem portSt_stored {s : State} {a v p : Nat} (h : a ≠ R.MAC_STAT p) : (s.stored a v).portSt p = s.portSt p := by
  rw [State.portSt, State.stored, fld_setReg_ne h, State.portSt]

/-- What a write of MAC_CFG does to a port, by its state (R18, R599). -/
theorem portRequest_stored {p : Nat} (s : State) (v : Nat) (en : Bool) : (s.stored (R.MAC_CFG p) v).portRequest p en =
    (let t := s.stored (R.MAC_CFG p) v
    match s.portSt p, en with
      | .off, true => (((t.setPort p { s.port p with disHeld := false }).latchPort p).setFld (R.MAC_STAT_STATE p) 1).went (.port p) .off .starting
      | .starting, false => t.setPort p { s.port p with disHeld := true }
      | .on, false => (t.setFld (R.MAC_STAT_STATE p) 3).went (.port p) .on .stopping
      | .failed, false => (t.setFld (R.MAC_STAT_STATE p) 3).went (.port p) .failed .stopping
      | .stopping, true => t.setFld (R.MAC_STAT_PEND_EN p) 1
      | .stopping, false => t.setFld (R.MAC_STAT_PEND_EN p) 0
      | _, _ => t) := by
  have hst : (s.stored (R.MAC_CFG p) v).portSt p = s.portSt p := portSt_stored (mac_cfg_ne_stat p p)
  cases h : s.portSt p <;> rw [h] at hst
  case off =>
    cases en
    · simp only [State.portRequest, hst]
    · exact portRequest_off hst
  case starting => cases en <;> simp only [State.portRequest, hst, port_stored]
  case on =>
    cases en
    · exact portRequest_disable hst (.inl rfl)
    · simp only [State.portRequest, hst]
  case stopping => cases en <;> simp only [State.portRequest, hst]
  case failed =>
    cases en
    · exact portRequest_disable hst (.inr rfl)
    · simp only [State.portRequest, hst]

theorem Aside.writePair_mac_cfg {m p v : Nat} {s t : State} (hp : p < 8) (h : Aside m s t) :
    Aside m (s.writePair (R.MAC_CFG p) v) (t.writePair (R.MAC_CFG p) v) := by
  rw [Machine.writePair_mac_cfg hp, Machine.writePair_mac_cfg hp, h.reg_eq (qcpReg_mac_cfg hp)]
  have hs := h.stored (qcpReg_mac_cfg hp) v
  split
  · exact hs
  · exact hs.portRequest hp _

theorem writePair_mac_cfg_sess {m p v : Nat} {s : State} (hp : p < 8) : (s.writePair (R.MAC_CFG p) v).sess m = s.sess m := by
  rw [Machine.writePair_mac_cfg hp]
  split
  · rfl
  · rw [portRequest_sess, sess_stored]

theorem macCfgEnWrite_writes (p : Fin 8) (v : Word) : Writes (fun c => .macCfgEnWrite p c v) (fun _ => R.MAC_CFG p.val) (fun _ => v.toNat) (fun s =>
    let t := s.stored (R.MAC_CFG p.val) v.toNat
    if tb v.toNat 0 = tb (s.reg (R.MAC_CFG p.val)) 0 then t
    else match s.portSt p.val, tb v.toNat 0 with
      | .off, true => (((t.setPort p.val { s.port p.val with disHeld := false }).latchPort p.val).setFld (R.MAC_STAT_STATE p.val) 1).went
          (.port p.val) .off .starting
      | .starting, false => t.setPort p.val { s.port p.val with disHeld := true }
      | .on, false => (t.setFld (R.MAC_STAT_STATE p.val) 3).went (.port p.val) .on .stopping
      | .failed, false => (t.setFld (R.MAC_STAT_STATE p.val) 3).went (.port p.val) .failed .stopping
      | .stopping, true => t.setFld (R.MAC_STAT_PEND_EN p.val) 1
      | .stopping, false => t.setFld (R.MAC_STAT_PEND_EN p.val) 0
      | _, _ => t) := by
  refine writes_of_writePair (fun c s => exec_macCfgEnWrite p c v s) (mac_cfg_lt p.isLt) v.isLt (mac_cfg_ne_loft _)
    (fun s => tmuLate_mac (by simp only [R.MAC_CFG]; omega)) (fun m s u h => ?_) fun m u => by rw [writePair_mac_cfg_sess p.isLt]
  have h1 := h.writePair_mac_cfg (v := v.toNat) p.isLt
  rw [Machine.writePair_mac_cfg p.isLt s, portRequest_stored] at h1
  exact h1

theorem Aside.writePair_mac_ctl {m p v : Nat} {s t : State} (hp : p < 8) (h : Aside m s t) :
    Aside m (s.writePair (R.MAC_CTL p) v) (t.writePair (R.MAC_CTL p) v) := by
  have hs := h.stored (qcpReg_mac_ctl hp) v
  simp only [Machine.writePair_mac_ctl hp, hs.port_eq, hs.fill_eq, hs.portSt_eq hp]
  have h1 : Aside m (if tb v 0 then (s.stored (R.MAC_CTL p) v).setPort p { (s.stored (R.MAC_CTL p) v).port p with
        peak := (List.range 8).map fun n => (n, (s.stored (R.MAC_CTL p) v).fill p n) } else s.stored (R.MAC_CTL p) v)
      (if tb v 0 then (t.stored (R.MAC_CTL p) v).setPort p { (s.stored (R.MAC_CTL p) v).port p with
        peak := (List.range 8).map fun n => (n, (s.stored (R.MAC_CTL p) v).fill p n) } else t.stored (R.MAC_CTL p) v) := by
    split
    · exact hs.setPort _ _
    · exact hs
  split
  · rw [h1.port_eq]
    exact (h1.setPort _ _).loseLink hp
  · exact h1

theorem writePair_mac_ctl_face {m p v : Nat} {s : State} (hp : p < 8) :
    ((s.writePair (R.MAC_CTL p) v).sess m).face = (s.sess m).face := by
  simp only [Machine.writePair_mac_ctl hp]
  split
  · rw [loseLink_face, sess_setPort]
    split <;> rfl
  · split <;> rfl

/-- A bit of MAC_CTL takes effect where that is what writing the register does. -/
theorem macCtl_writes {p : Fin 8} {mk : RegCmd → Instr} {v : Nat} {e : State → State}
    (hx : ∀ c s, exec (mk c) s = .next (writeOne c (R.MAC_CTL p.val) v s)) (hv : v < 2 ^ 32) (he : ∀ s, s.writePair (R.MAC_CTL p.val) v = e s) :
    Writes mk (fun _ => R.MAC_CTL p.val) (fun _ => v) e :=
  writes_of_writePair hx (mac_ctl_lt p.isLt) hv (mac_ctl_ne_loft _) (fun s => tmuLate_mac (by simp only [R.MAC_CTL]; omega))
    (fun _ s _ h => he s ▸ h.writePair_mac_ctl p.isLt) fun _ _ => writePair_mac_ctl_face p.isLt

theorem macCtlPeakClr_writes (p : Fin 8) : Writes (fun c => .macCtlPeakClr p c) (fun _ => R.MAC_CTL p.val) (fun _ => 1) (fun s =>
    (s.stored (R.MAC_CTL p.val) 1).setPort p.val { s.port p.val with peak := (List.range 8).map fun n => (n, s.fill p.val n) }) :=
  macCtl_writes (exec_macCtlPeakClr p) (by decide) fun s => by
    simp only [writePair_mac_ctl p.isLt, show tb 1 0 = true from rfl, show tb 1 1 = false from rfl, Bool.false_and, Bool.false_eq_true, if_true,
      if_false, port_stored, fill_stored]

theorem macCtlAnRestart_writes (p : Fin 8) : Writes (fun c => .macCtlAnRestart p c) (fun _ => R.MAC_CTL p.val) (fun _ => 2) (fun s =>
    let t := s.stored (R.MAC_CTL p.val) 2
    if s.portSt p.val = .on ∧ p ≠ 7 then (t.setPort p.val { s.port p.val with live := false }).loseLink p.val else t) :=
  macCtl_writes (exec_macCtlAnRestart p) (by decide) fun s => by
    have hs : R.MAC_CTL p.val ≠ R.MAC_STAT p.val := by simp only [R.MAC_CTL, R.MAC_STAT]; omega
    have h7 : p.val < 7 ↔ p ≠ 7 := by rw [Ne, Fin.ext_iff]; show p.val < 7 ↔ ¬ p.val = 7; omega
    simp only [writePair_mac_ctl p.isLt, show tb 2 0 = false from rfl, show tb 2 1 = true from rfl, Bool.true_and, Bool.false_eq_true,
      if_false, portSt_stored hs, port_stored, Bool.and_eq_true, beq_iff_eq, decide_eq_true_eq, h7]

/-! The latch of a byte counter (R146). -/

/-- The low and the high word of a port's byte counter, sent or received. -/
def macCntLo (p : Nat) (tx : Bool) : Nat := if tx then R.MAC_TX_BYTE_CNT_LO p else R.MAC_RX_BYTE_CNT_LO p
def macCntHi (p : Nat) (tx : Bool) : Nat := if tx then R.MAC_TX_BYTE_CNT_HI p else R.MAC_RX_BYTE_CNT_HI p

theorem macCntLo_eq (p : Nat) (tx : Bool) : macCntLo p tx = 0x30000 + p * 0x1000 + if tx then 0x184 else 0x104 := by
  cases tx <;> simp only [macCntLo, R.MAC_TX_BYTE_CNT_LO, R.MAC_RX_BYTE_CNT_LO, if_true, Bool.false_eq_true, if_false] <;> omega

theorem macCntHi_eq (p : Nat) (tx : Bool) : macCntHi p tx = 0x30000 + p * 0x1000 + if tx then 0x188 else 0x108 := by
  cases tx <;> simp only [macCntHi, R.MAC_TX_BYTE_CNT_HI, R.MAC_RX_BYTE_CNT_HI, if_true, Bool.false_eq_true, if_false] <;> omega

theorem macCntLo_defined : ∀ p < 8, ∀ tx, (regAt (macCntLo p tx)).isSome ∧ regReset (macCntLo p tx) = 0 := by decide +kernel

/-- The low word of a byte counter reads as it is stored. -/
theorem macView_cntLo {p : Nat} (hp : p < 8) (tx : Bool) (s : State) (i2c : Bool) : macView s i2c (macCntLo p tx) = none := by
  have h1 : macCntLo p tx < 0x38000 := by rw [macCntLo_eq]; split <;> omega
  have h2 : (macCntLo p tx - 0x30000) % 0x1000 = if tx then 0x184 else 0x104 := by rw [macCntLo_eq]; split <;> omega
  simp only [macView, if_pos h1, h2]
  cases tx <;> rfl

theorem reg_lt {s : State} {a : Nat} (h : regReset a < 2 ^ 32) : s.reg a < 2 ^ 32 := by
  unfold State.reg
  split
  · exact BitVec.isLt _
  · exact h

theorem readReg_cntLo {p : Nat} (hp : p < 8) (tx : Bool) (s : State) (i2c : Bool) :
    s.readReg i2c (macCntLo p tx) = s.reg (macCntLo p tx) := by
  obtain ⟨hr, h0⟩ := macCntLo_defined p hp tx
  have h3 : macCntLo p tx / 0x10000 = 3 := by rw [macCntLo_eq]; split <;> omega
  rw [readReg_mac hr h3, macView_cntLo hp]
  exact Nat.mod_eq_of_lt (reg_lt (by rw [h0]; decide))

theorem readAct_cntLo {p : Nat} (hp : p < 8) (tx : Bool) (s : State) (i2c : Bool) : s.readAct i2c (macCntLo p tx) = s.macCntLatch i2c p tx := by
  have hw : 0x30000 ≤ macCntLo p tx ∧ macCntLo p tx < 0x38000 := by rw [macCntLo_eq]; split <;> omega
  have ho : macCntLo p tx % 0x1000 = if tx then 0x184 else 0x104 := by rw [macCntLo_eq]; split <;> omega
  have hd : (macCntLo p tx - 0x30000) / 0x1000 = p := by rw [macCntLo_eq]; split <;> omega
  have h1 : macCntLo p tx ≠ R.TMU_TIME_SEC_HI := by simp only [R.TMU_TIME_SEC_HI]; omega
  have h2 : ¬ (0x20200 ≤ macCntLo p tx ∧ macCntLo p tx < 0x202A0 ∧ macCntLo p tx % 0x20 = 8) := by omega
  rw [State.readAct, if_neg h1, if_neg h2]
  cases tx
  · rw [if_pos ⟨hw.1, hw.2, ho⟩, hd]
  · rw [if_neg (by rw [ho]; simp), if_pos ⟨hw.1, hw.2, ho⟩, hd]

theorem Aside.macCntLatch {m p : Nat} {s t : State} (hp : p < 8) (h : Aside m s t) (i2c tx : Bool) :
    Aside m (s.macCntLatch i2c p tx) (t.macCntLatch i2c p tx) := by
  have hq : qcpReg (macCntHi p tx) = false := qcpReg_mac (by rw [macCntHi_eq]; split <;> omega)
  have hr : t.reg (macCntHi p tx) = s.reg (macCntHi p tx) := h.reg_eq hq
  unfold macCntHi at hr
  simp only [State.macCntLatch, h.port_eq, hr]
  split
  · exact h.setPort _ _
  · exact h.setPort _ _

theorem macCntLatch_eq (s : State) (i2c : Bool) (p : Nat) (tx : Bool) : s.macCntLatch i2c p tx =
    let v := BitVec.ofNat 32 (s.reg (macCntHi p tx))
    s.setPort p (if i2c then { s.port p with cntLatI := kset (s.port p).cntLatI (b2n tx) v }
      else { s.port p with cntLatQ := kset (s.port p).cntLatQ (b2n tx) v }) := by
  cases i2c <;> rfl

theorem macCntLoRead_reads (p : Fin 8) (tx : Bool) :
    Reads (fun x => .macCntLoRead p tx x) (if tx then R.MAC_TX_BYTE_CNT_LO p.val else R.MAC_RX_BYTE_CNT_LO p.val)
    (fun i2c s =>
      let v := BitVec.ofNat 32 (s.reg (if tx then R.MAC_TX_BYTE_CNT_HI p.val else R.MAC_RX_BYTE_CNT_HI p.val))
      s.setPort p.val (if i2c then { s.port p.val with cntLatI := kset (s.port p.val).cntLatI (b2n tx) v }
        else { s.port p.val with cntLatQ := kset (s.port p.val).cntLatQ (b2n tx) v }))
    (fun _ s => s.reg (if tx then R.MAC_TX_BYTE_CNT_LO p.val else R.MAC_RX_BYTE_CNT_LO p.val)) := by
  have hq : qcpReg (macCntLo p.val tx) = false := qcpReg_mac (by rw [macCntLo_eq]; split <;> omega)
  refine reads_of_readAct (a := macCntLo p.val tx) (exec_macCntLoRead p tx) (by rw [macCntLo_eq]; split <;> omega)
    (by rw [macCntLo_eq]; split <;> omega) (fun i2c s => (readAct_cntLo p.isLt tx s i2c).trans (macCntLatch_eq s i2c p.val tx))
    (fun i2c s => readReg_cntLo p.isLt tx _ i2c) (fun _ _ _ => rfl) (fun _ _ => rfl) (fun m s u h => ?_) (fun m s u h => h.reg_eq hq)
    fun _ _ => rfl
  have hl := h.macCntLatch p.isLt false tx
  rw [macCntLatch_eq, macCntLatch_eq] at hl
  exact hl

theorem latchPort_takes (s : State) (p : Nat) : ((s.latchPort p).port p).maxF = some (s.fld (R.MAC_MAXFRM_LEN p)) ∧
    ((s.latchPort p).port p).roleF = some (s.fld (R.MAC_CFG_ROLE p)) := by
  rw [State.latchPort, State.port_setPort_same]
  exact ⟨rfl, rfl⟩

end Sys2Proof.Machine

section
open Sys2Proof.Machine

/-- Settles O16: the three commands, and the registers of a port that act when written or read. -/
theorem portsAreEnabledAndDisabled : Obligations.PortsAreEnabledAndDisabled :=
  ⟨portEnable_does, latchPort_takes, portDisable_does, portStatus_does, macCfgEnWrite_writes, macCtlPeakClr_writes, macCtlAnRestart_writes,
    macCntLoRead_reads⟩

end

namespace Sys2Proof.Machine

open Sys2Proof

/-! The budgets of the swath timer and a leg's charge (R53, R57): what they leave, and that they do so alike on states that differ aside. -/

section congr
variable {m : Nat} {s t : State} (h : Aside m s t)
include h

theorem Aside.swtFld_eq {f : Fld} (hf : f.addr / 0x10000 = 1) : t.fld f = s.fld f := h.fld_eq (qcpReg_false (by omega) (by omega))
theorem Aside.swtSetFld {f : Fld} (hf : f.addr / 0x10000 = 1) (v : Nat) : Aside m (s.setFld f v) (t.setFld f v) :=
  h.setFld (qcpReg_false (by omega) (by omega)) v

theorem Aside.lenNs_eq : t.lenNs = s.lenNs := by unfold State.lenNs; rw [h.swtFld_eq (f := R.SWT_CFG_LEN) rfl]
theorem Aside.lenI_eq : t.lenI = s.lenI := by unfold State.lenI; rw [h.lenNs_eq]
theorem Aside.horizon_eq : t.horizon = s.horizon := by unfold State.horizon; rw [h.lenNs_eq]
theorem Aside.period_eq (f : Nat) : t.period f = s.period f := by unfold State.period; rw [h.lenNs_eq]
theorem Aside.swnAt_eq (b : Inst) : t.swnAt b = s.swnAt b := by unfold State.swnAt State.quot; rw [h.lenNs_eq]
theorem Aside.nextB_eq : t.nextB = s.nextB := by unfold State.nextB; rw [h.fld_eq (f := R.TMU_STAT_VALID) (by decide), h.swt_eq]
theorem Aside.effAt_eq (w : When) : t.effAt w = s.effAt w := by unfold State.effAt; rw [h.nextB_eq, h.lenI_eq]
theorem Aside.leg_eq (l : Nat) : t.leg l = s.leg l := by unfold State.leg; rw [h.legs_eq]
theorem Aside.tmpl_eq (i : Nat) : t.tmpl i = s.tmpl i := by unfold State.tmpl; rw [h.tmpls_eq]
theorem Aside.homeCluster_eq (phi : Nat) : t.homeCluster phi = s.homeCluster phi := by
  simp only [State.homeCluster, h.legs_eq, h.sets_eq, h.tmpl_eq]

theorem Aside.setSwt (x : Swt) : Aside m (s.setSwt x) (t.setSwt x) := h.withSwt x

theorem Aside.addLoad (c : Cost) (p phi : Nat) (add : Bool) : Aside m (s.addLoad c p phi add) (t.addLoad c p phi add) := by
  simp only [State.addLoad, h.horizon_eq, h.swt_eq]
  exact h.setSwt _

theorem Aside.place (c : Cost) (p phi : Nat) : Aside m (s.place c p phi) (t.place c p phi) := by
  have ha := h.addLoad c p phi true
  simp only [State.place, ha.swtFld_eq (f := R.SWT_SLOTS_USED_USED) rfl, ha.swtFld_eq (f := R.SWT_LEGS_ALL) rfl,
    ha.swtFld_eq (f := R.SWT_LEGS_FULL_FULL) rfl]
  exact ((ha.swtSetFld (f := R.SWT_SLOTS_USED_USED) rfl _).swtSetFld (f := R.SWT_LEGS_ALL) rfl _).swtSetFld (f := R.SWT_LEGS_FULL_FULL) rfl _

theorem Aside.unplace (c : Cost) (p phi : Nat) : Aside m (s.unplace c p phi) (t.unplace c p phi) := by
  have ha := h.addLoad c p phi false
  simp only [State.unplace, ha.swtFld_eq (f := R.SWT_SLOTS_USED_USED) rfl, ha.swtFld_eq (f := R.SWT_LEGS_ALL) rfl,
    ha.swtFld_eq (f := R.SWT_LEGS_FULL_FULL) rfl]
  exact ((ha.swtSetFld (f := R.SWT_SLOTS_USED_USED) rfl _).swtSetFld (f := R.SWT_LEGS_ALL) rfl _).swtSetFld (f := R.SWT_LEGS_FULL_FULL) rfl _

theorem Aside.entryOver_eq (e : Nat) : t.entryOver e = s.entryOver e := by
  unfold State.entryOver State.loadAt
  rw [h.horizon_eq, h.swt_eq, h.swtFld_eq (f := R.SWT_CYC_BUD_BC) rfl, h.swtFld_eq (f := R.SWT_LOFT_BUD_KIB) rfl,
    h.swtFld_eq (f := R.SWT_ECHO_BUD_BE) rfl]

theorem Aside.overEntries_eq : t.overEntries = s.overEntries := by
  simp only [State.overEntries, h.swt_eq, h.entryOver_eq]

theorem Aside.updOver : Aside m s.updOver t.updOver := by
  have hf := h.swtSetFld (f := R.SWT_STAT_OVER) rfl (b2n (!s.overEntries.isEmpty))
  simp only [State.updOver, h.overEntries_eq, h.swt_eq, hf.swt_eq]
  split
  · exact (hf.setSwt _).raise rfl rfl _
  · exact hf.setSwt _

theorem Aside.charge (l : Nat) (c : Cost) : Aside m (s.charge l c) (t.charge l c) := by
  simp only [State.charge, h.leg_eq, h.period_eq]
  split
  · exact (((h.unplace _ _ _).place _ _ _).setLeg _ _).updOver
  · exact ((h.place _ _ _).setLeg _ _).updOver

end congr

/-- The registers that a charge may write. -/
def chargeRegs : List Nat := [R.SWT_SLOTS_USED, R.SWT_LEGS, R.SWT_LEGS_FULL, R.SWT_STAT, R.SWT_EVT]

theorem chargeRegs_swt : ∀ a ∈ chargeRegs, a / 0x10000 = 1 := by decide

theorem Only.setSwt {L : List Nat} {s t : State} (h : Only L s t) (x : Swt) : Only L (s.setSwt x) (t.setSwt x) :=
  ⟨congrArg (fun u : State => u.setSwt x) h.rest, h.regs, h.sess⟩

theorem Only.setLeg {L : List Nat} {s t : State} (h : Only L s t) (l : Nat) (x : Leg) : Only L (s.setLeg l x) (t.setLeg l x) := by
  unfold State.setLeg
  rw [h.legs_eq]
  exact ⟨congrArg (fun u : State => ({ u with legs := kset s.legs l x } : State)) h.rest, h.regs, h.sess⟩

/-- A load that is added or taken away leaves all but the swath timer and the registers that count. -/
theorem place_only (s : State) (c : Cost) (p phi : Nat) : ∃ w, Only chargeRegs (s.setSwt w) (s.place c p phi) :=
  ⟨_, ((only_setFld (f := R.SWT_SLOTS_USED_USED) (by decide)).setFld (f := R.SWT_LEGS_ALL) (by decide) _).setFld
    (f := R.SWT_LEGS_FULL_FULL) (by decide) _⟩

theorem unplace_only (s : State) (c : Cost) (p phi : Nat) : ∃ w, Only chargeRegs (s.setSwt w) (s.unplace c p phi) :=
  ⟨_, ((only_setFld (f := R.SWT_SLOTS_USED_USED) (by decide)).setFld (f := R.SWT_LEGS_ALL) (by decide) _).setFld
    (f := R.SWT_LEGS_FULL_FULL) (by decide) _⟩

theorem updOver_only (s : State) : ∃ w, Only chargeRegs (s.setSwt w) s.updOver := by
  refine ⟨{ s.swt with overs := s.overEntries }, ?_⟩
  have hf : Only chargeRegs (s.setSwt { s.swt with overs := s.overEntries })
      ((s.setFld R.SWT_STAT_OVER (b2n (!s.overEntries.isEmpty))).setSwt { s.swt with overs := s.overEntries }) :=
    (only_setFld (f := R.SWT_STAT_OVER) (by decide)).setSwt _
  simp only [State.updOver]
  split
  · exact hf.raise (by decide) _
  · exact hf

theorem updOver_placed_only {s u : State} {w : Swt} (hw : Only chargeRegs (s.setSwt w) u) (c : Cost) (p phi l : Nat) (y : Leg) :
    ∃ w, Only chargeRegs ((s.setSwt w).setLeg l y) ((u.place c p phi).setLeg l y).updOver := by
  obtain ⟨x, hx⟩ := place_only u c p phi
  obtain ⟨z, hz⟩ := updOver_only ((u.place c p phi).setLeg l y)
  exact ⟨z, ((((hw.setSwt x).trans hx).setLeg l y).setSwt z).trans hz⟩

/-- A leg once it is charged with a cost (R53). -/
def Leg.chargedWith (x : Leg) (c : Cost) : Leg := { x with cost := ⟨c.cyc, c.kib, c.eu⟩, slots := c.slots, full := c.full, admitted := true }

/-- A charge is noted in its leg; beside that it leaves all but the swath timer, its registers and events. -/
theorem charge_only (s : State) (l : Nat) (c : Cost) :
    ∃ w, Only chargeRegs ((s.setSwt w).setLeg l ((s.leg l).chargedWith c)) (s.charge l c) := by
  simp only [State.charge]
  split
  · obtain ⟨w, hw⟩ := unplace_only s (s.leg l).charged (s.period (s.leg l).f) (s.leg l).phi
    exact updOver_placed_only hw _ _ _ _ _
  · exact updOver_placed_only (w := s.swt) (Only.refl _ s) _ _ _ _ _

/-! CHAN_ENABLE (R338, R339). -/

theorem exec_chanEnable (q : Req) (s : State) : exec (.chanEnable q) s = .next (runOp opChanEnable 0x0301 q s) := rfl

/-- The leg that an enable starts, before it is charged: nothing of its last run but the configuration, which the payload completes. -/
def State.startingLeg (s : State) (b : Bytes) (phi : Nat) : Leg :=
  { Leg.init with
    cfg := enableCfg b { (s.leg (legOf b)).cfg with tmpl := num b 4 2 }
    st := .starting
    f := (s.tmpl (num b 4 2)).f
    phi := phi
    cluster := s.homeCluster phi }

/-- The cost of the template that an enable names, with the tail that the leg is configured for. -/
def State.enableCost (s : State) (b : Bytes) : Cost := (s.tmpl (num b 4 2)).cost s.sets (s.leg (legOf b)).cfg.echo.tail

/-- The state in which the start of a leg is armed: the leg is charged, and its transition reported. -/
def State.enabled (s : State) (b : Bytes) (phi : Nat) : State :=
  ((s.setLeg (legOf b) (s.startingLeg b phi)).charge (legOf b) (s.enableCost b)).went (.leg (legOf b)) .off .starting

/-- The result of an enable whose start is armed as `w`: its offset, whether the boundary is yet unknown, and the boundary's number. -/
def State.enableReply (s : State) (phi : Nat) (w : When) : Bytes :=
  enableRes phi s.nextB.isNone (if s.nextB.isNone then 0 else s.swnAt (s.effAt w))

theorem take_enableReply (s : State) (phi : Nat) (w : When) : (s.enableReply phi w).take 2 = be 2 phi := by
  rw [State.enableReply, enableRes, List.append_assoc, List.append_assoc, List.take_left' (be_length 2 phi)]

theorem enableApp_off {s : State} {b : Bytes} (h : (s.leg (legOf b)).st = .off) (c : Ctx) (phi : Nat) : enableApp c [phi] s b =
    let r := (s.enabled b phi).armCmd c (legOf b) (tOf (sub b 28 12)) b [phi]
    ⟨r.1, r.2.status, 0, r.1.enableReply phi r.2, false⟩ := by
  simp only [enableApp, h]
  rfl

section congr
variable {m : Nat} {s t : State} (h : Aside m s t)
include h

theorem Aside.went (f : FnId) (a b : FnState) : Aside m (s.went f a b) (t.went f a b) := by
  simp only [State.went, h.fns_eq, h.now_eq]
  exact h.withFns _

theorem Aside.startingLeg_eq (b : Bytes) (phi : Nat) : t.startingLeg b phi = s.startingLeg b phi := by
  simp only [State.startingLeg, h.leg_eq, h.tmpl_eq, h.homeCluster_eq]

theorem Aside.enableCost_eq (b : Bytes) : t.enableCost b = s.enableCost b := by
  simp only [State.enableCost, h.leg_eq, h.tmpl_eq, h.sets_eq]

theorem Aside.enabled (b : Bytes) (phi : Nat) : Aside m (s.enabled b phi) (t.enabled b phi) := by
  simp only [State.enabled, h.startingLeg_eq, h.enableCost_eq]
  exact ((h.setLeg _ _).charge _ _).went _ _ _

theorem Aside.enableReply_eq (phi : Nat) (w : When) : t.enableReply phi w = s.enableReply phi w := by
  simp only [State.enableReply, h.nextB_eq, h.swnAt_eq, h.effAt_eq]

/-- A change is armed alike for one command on states that differ aside. -/
theorem Aside.armCmd {c d : Ctx} (hm : d.mbox = c.mbox) (ho : d.opcode = c.opcode) (hg : (t.sess c.mbox).gen = (s.sess c.mbox).gen)
    (l : Nat) (T : Option Inst) (b : Bytes) (plan : List Nat) :
    Aside m (s.armCmd c l T b plan).1 (t.armCmd d l T b plan).1 ∧ (t.armCmd d l T b plan).2 = (s.armCmd c l T b plan).2 := by
  simp only [State.armCmd, h.arm_eq, h.armed_eq, hm, ho, hg, and_true]
  exact h.withArmed _

end congr

/-! Arming a change leaves all but the changes armed. -/

@[simp] theorem armCmd_sess (s : State) (c : Ctx) (l : Nat) (T : Option Inst) (b : Bytes) (plan : List Nat) (m : Nat) :
    (s.armCmd c l T b plan).1.sess m = s.sess m := rfl
@[simp] theorem armCmd_leg (s : State) (c : Ctx) (l : Nat) (T : Option Inst) (b : Bytes) (plan : List Nat) (j : Nat) :
    (s.armCmd c l T b plan).1.leg j = s.leg j := rfl
@[simp] theorem armCmd_reg (s : State) (c : Ctx) (l : Nat) (T : Option Inst) (b : Bytes) (plan : List Nat) (a : Nat) :
    (s.armCmd c l T b plan).1.reg a = s.reg a := rfl
theorem armCmd_armed (s : State) (c : Ctx) (l : Nat) (T : Option Inst) (b : Bytes) (plan : List Nat) : (s.armCmd c l T b plan).1.armed =
    s.armed ++ [⟨(s.armCmd c l T b plan).2, c.opcode, l, b, plan, c.mbox, (s.sess c.mbox).gen, none⟩] := rfl
theorem armCmd_rest (s : State) (c : Ctx) (l : Nat) (T : Option Inst) (b : Bytes) (plan : List Nat) (x : KV Leg) (y : List Armed) (z : Swt) :
    ({ (s.armCmd c l T b plan).1 with legs := x, armed := y, swt := z } : State) = { s with legs := x, armed := y, swt := z } := rfl

theorem leg_setLeg_same (s : State) (l : Nat) (x : Leg) : (s.setLeg l x).leg l = x := by simp [State.leg, State.setLeg]
theorem leg_setLeg_ne (s : State) (x : Leg) {l j : Nat} (h : j ≠ l) : (s.setLeg l x).leg j = s.leg j := by
  simp [State.leg, State.setLeg, h.symm]

theorem Only.beside_eq {L : List Nat} {s t : State} (h : Only L s t) (x : KV Leg) (y : List Armed) (z : Swt) :
    ({ t with legs := x, armed := y, swt := z } : State).beside = ({ s with legs := x, armed := y, swt := z } : State).beside := by
  have e := congrArg (fun u : State => ({ u with legs := x, armed := y, swt := z } : State).beside) h.rest
  exact e

/-- A transition reported beside a change of the swath timer and of a leg. -/
theorem went_beside (s : State) (w : Swt) (l : Nat) (x : Leg) (f : FnId) (a b : FnState) :
    ({ ((s.setSwt w).setLeg l x).went f a b with legs := s.legs, armed := s.armed, swt := s.swt } : State).beside = (s.went f a b).beside := rfl

@[simp] theorem State.reg_setSwt (s : State) (w : Swt) (a : Nat) : (s.setSwt w).reg a = s.reg a := rfl
@[simp] theorem State.reg_setLeg (s : State) (l : Nat) (x : Leg) (a : Nat) : (s.setLeg l x).reg a = s.reg a := rfl
@[simp] theorem State.leg_went (s : State) (f : FnId) (a b : FnState) (l : Nat) : (s.went f a b).leg l = s.leg l := rfl
@[simp] theorem State.leg_setSwt (s : State) (w : Swt) (l : Nat) : (s.setSwt w).leg l = s.leg l := rfl

theorem Only.leg_eq {L : List Nat} {s t : State} (h : Only L s t) (l : Nat) : t.leg l = s.leg l := by unfold State.leg; rw [h.legs_eq]
theorem Only.armed_eq {L : List Nat} {s t : State} (h : Only L s t) : t.armed = s.armed :=
  (congrArg State.armed h.rest : t.bare.armed = s.bare.armed)

/-- A value written twice at a key is the last one. -/
theorem kset_kset_same {α : Type} (x y : α) (i : Nat) : ∀ m : KV α, kset (kset m i x) i y = kset m i y
  | [] => by simp [kset]
  | (k, v) :: m => by
    by_cases h1 : i < k
    · simp [kset, h1]
    · by_cases h2 : i = k
      · simp [kset, h2]
      · simp [kset, h1, h2, kset_kset_same x y i m]

/-- A start leaves all but its leg, the swath timer with its registers, and events. -/
theorem enabled_only (s : State) (b : Bytes) (phi : Nat) : ∃ w, Only chargeRegs
    (((s.setSwt w).setLeg (legOf b) ((s.startingLeg b phi).chargedWith (s.enableCost b))).went (.leg (legOf b)) .off .starting) (s.enabled b phi) := by
  obtain ⟨w, hw⟩ := charge_only (s.setLeg (legOf b) (s.startingLeg b phi)) (legOf b) (s.enableCost b)
  rw [leg_setLeg_same] at hw
  simp only [State.setLeg, State.setSwt, kset_kset_same] at hw ⊢
  exact ⟨w, hw.went _ _ _⟩

theorem enabled_face (s : State) (b : Bytes) (phi m : Nat) : ((s.enabled b phi).sess m).face = (s.sess m).face := by
  obtain ⟨w, hw⟩ := enabled_only s b phi
  exact hw.face_eq m

/-- The state after an enable of a leg that is OFF: its start is armed for the boundary that its payload names. -/
def State.enableArmed (s : State) (q : Req) (phi : Nat) : State × When :=
  (s.enabled q.payload phi).armCmd (Req.ctx q 0x0301 s) (legOf q.payload) (tOf (sub q.payload 28 12)) q.payload [phi]

/-- An enable of a leg that is OFF has this effect and this reply on every state that differs aside. -/
theorem acts_enable_off {q : Req} {s : State} {phi : Nat} (h : (s.leg (legOf q.payload)).st = .off) :
    Acts opChanEnable 0x0301 [phi] q s (s.enableArmed q phi).1 (s.enableArmed q phi).2.status 0
      ((s.enableArmed q phi).1.enableReply phi (s.enableArmed q phi).2) := by
  intro v c hv hf hm _ ho _
  have hen := hv.enabled q.payload phi
  have hg : ((v.enabled q.payload phi).sess q.mbox.val).gen = ((s.enabled q.payload phi).sess q.mbox.val).gen :=
    face_gen (by rw [enabled_face, enabled_face, hf])
  obtain ⟨ha, hw⟩ := hen.armCmd (c := Req.ctx q 0x0301 s) (d := c) hm ho hg (legOf q.payload) (tOf (sub q.payload 28 12)) q.payload [phi]
  have hoff : (v.leg (legOf q.payload)).st = .off := by rw [hv.leg_eq, h]
  have happ : opChanEnable.app c [phi] v q.payload = _ := enableApp_off hoff c phi
  refine ⟨((v.enabled q.payload phi).armCmd c (legOf q.payload) (tOf (sub q.payload 28 12)) q.payload [phi]).1, ?_, ha, ?_⟩
  · simp only [happ, State.enableArmed, hw, ha.enableReply_eq]
  · rw [armCmd_sess, enabled_face]

theorem chargeRegs_not_drop {a : Nat} (hq : qcpReg a = false) (h1 : a / 0x10000 ≠ 1) : a ∉ chargeRegs ∧ a ≠ R.QCP_EVT_DROP_CNT :=
  ⟨fun h => h1 (chargeRegs_swt a h), by rintro rfl; exact absurd hq (by decide)⟩

section enableArmed
variable (s : State) (q : Req) (phi : Nat)

theorem enableArmed_leg : (s.enableArmed q phi).1.leg (legOf q.payload) = (s.startingLeg q.payload phi).chargedWith (s.enableCost q.payload) := by
  obtain ⟨w, hw⟩ := enabled_only s q.payload phi
  rw [State.enableArmed, armCmd_leg, hw.leg_eq, State.leg_went, leg_setLeg_same]

theorem enableArmed_leg_ne {j : Nat} (hj : j ≠ legOf q.payload) : (s.enableArmed q phi).1.leg j = s.leg j := by
  obtain ⟨w, hw⟩ := enabled_only s q.payload phi
  rw [State.enableArmed, armCmd_leg, hw.leg_eq, State.leg_went, leg_setLeg_ne _ _ hj, State.leg_setSwt]

theorem enableArmed_armed : (s.enableArmed q phi).1.armed = s.armed ++
    [⟨(s.enableArmed q phi).2, 0x0301, legOf q.payload, q.payload, [phi], q.mbox.val, (s.sess q.mbox.val).gen, none⟩] := by
  obtain ⟨w, hw⟩ := enabled_only s q.payload phi
  have hgen : ((s.enabled q.payload phi).sess (Req.ctx q 0x0301 s).mbox).gen = (s.sess q.mbox.val).gen := face_gen (enabled_face _ _ _ _)
  have harmed : (s.enabled q.payload phi).armed = s.armed := hw.armed_eq
  rw [State.enableArmed, armCmd_armed, hgen, harmed]
  rfl

theorem enableArmed_beside : ({ (s.enableArmed q phi).1 with legs := s.legs, armed := s.armed, swt := s.swt } : State).beside =
    (s.went (.leg (legOf q.payload)) .off .starting).beside := by
  obtain ⟨w, hw⟩ := enabled_only s q.payload phi
  rw [State.enableArmed, armCmd_rest, hw.beside_eq, went_beside]

theorem enableArmed_reg {a : Nat} (hq : qcpReg a = false) (h1 : a / 0x10000 ≠ 1) : (s.enableArmed q phi).1.reg a = s.reg a := by
  obtain ⟨w, hw⟩ := enabled_only s q.payload phi
  obtain ⟨hn, hd⟩ := chargeRegs_not_drop hq h1
  rw [State.enableArmed, armCmd_reg, hw.regs a hn hd, State.reg_went, State.reg_setLeg, State.reg_setSwt]

end enableArmed

theorem chanEnable_starts (q : Req) (s : State) (phi : Nat) (ha : Accepted opChanEnable 0x0301 q s [phi]) (hr : Room q s)
    (h : (s.leg (legOf q.payload)).st = .off) :
    ∃ e st res, Completes true (.chanEnable q) 0x0301 q s e st 0 res ∧
      (e.leg (legOf q.payload)).st = .starting ∧ (e.leg (legOf q.payload)).phi = phi ∧ (e.leg (legOf q.payload)).admitted = true ∧
      (e.leg (legOf q.payload)).f = (s.tmpl (num q.payload 4 2)).f ∧
      (e.leg (legOf q.payload)).cfg = enableCfg q.payload { (s.leg (legOf q.payload)).cfg with tmpl := num q.payload 4 2 } ∧
      (∀ j, j ≠ legOf q.payload → e.leg j = s.leg j) ∧
      (∃ w, e.armed = s.armed ++ [⟨w, 0x0301, legOf q.payload, q.payload, [phi], q.mbox.val, (s.sess q.mbox.val).gen, none⟩] ∧ st = w.status) ∧
      res.take 2 = be 2 phi ∧
      ({ e with legs := s.legs, armed := s.armed, swt := s.swt } : State).beside = (s.went (.leg (legOf q.payload)) .off .starting).beside ∧
      (∀ a, qcpReg a = false → a / 0x10000 ≠ 1 → e.reg a = s.reg a) := by
  have hc := completes_journaled (exec_chanEnable q s) ha rfl (Nat.zero_le _) hr rfl (acts_enable_off h)
  have hl := enableArmed_leg s q phi
  exact ⟨_, _, _, hc, by rw [hl]; rfl, by rw [hl]; rfl, by rw [hl]; rfl, by rw [hl]; rfl, by rw [hl]; rfl,
    fun j hj => enableArmed_leg_ne s q phi hj, ⟨_, enableArmed_armed s q phi, rfl⟩, take_enableReply _ _ _, enableArmed_beside s q phi,
    fun a hq h1 => enableArmed_reg s q phi hq h1⟩

theorem chanEnable_running : DoesIf (fun q s => (s.leg (legOf q.payload)).st = .starting ∨ (s.leg (legOf q.payload)).st = .on) true opChanEnable
    0x0301 .chanEnable (fun q s => (s, St.ok, enableRes (s.leg (legOf q.payload)).phi false (s.leg (legOf q.payload)).startSwn)) := by
  refine doesIf_journaled exec_chanEnable (fun _ _ _ _ _ => rfl) rfl fun q s plan _ hst => ?_
  refine acts_of_aside (f := id) (fun c v hv => ?_) (fun _ hv => hv) fun _ => rfl
  show enableApp c plan v q.payload = _
  obtain hst | hst := hst <;> simp only [enableApp, hv.leg_eq, hst] <;> rfl

theorem chanEnable_held : DoesIf (fun q s => (s.leg (legOf q.payload)).st = .stopping) true opChanEnable 0x0301 .chanEnable (fun q s =>
    (s.setLeg (legOf q.payload) { s.leg (legOf q.payload) with pendEn := true, held := q.payload }, St.ok,
      enableRes (s.leg (legOf q.payload)).phi false (s.swnAt s.swt.nextT))) := by
  refine doesIf_journaled exec_chanEnable (fun _ _ _ _ _ => rfl) rfl fun q s plan _ hst => ?_
  refine acts_of_aside (f := fun v => v.setLeg (legOf q.payload) { s.leg (legOf q.payload) with pendEn := true, held := q.payload })
    (fun c v hv => ?_) (fun _ hv => hv.setLeg _ _) fun _ => rfl
  show enableApp c plan v q.payload = _
  simp only [enableApp, hv.leg_eq, hst, hv.swnAt_eq, hv.swt_eq]
  rfl

end Sys2Proof.Machine

section
open Sys2Proof.Machine

/-- Settles O37: an enable from OFF, of a leg that starts or runs, and of one that stops. -/
theorem enableStartsALeg : Obligations.EnableStartsALeg := ⟨chanEnable_starts, chanEnable_running, chanEnable_held⟩

end

namespace Sys2Proof.Machine

open Sys2Proof

/-! A command that its length or its check refuses (R165, R167): the reply says why, and nothing changes beside what taking it leaves. -/

/-- The reply of a command in its turn that is refused. -/
theorem refused_in_turn {op : Nat} {q : Req} {s : State} {st det : Nat} (ht : s.turn q.mbox.val q.seq.toNat op q.more q.payload = true)
    (hd : det ≤ 0xFFFF) :
    Aside q.mbox.val s ((s.take q.mbox.val).reply q.mbox.val q.seq.toNat op st det false []) ∧
      Answered false op q st det [] s ((s.take q.mbox.val).reply q.mbox.val q.seq.toNat op st det false []) := by
  obtain ⟨hon, hout, -, -⟩ := turn_cases ht
  have hA : Aside q.mbox.val s (s.take q.mbox.val) := aside_take q.mbox.isLt
  refine ⟨hA.trans (aside_replyAs ((face_st (take_face s _)).trans hon)), ?_⟩
  have ho := finish_out (w := s.take q.mbox.val) (st := st) (det := det) (r := []) (c := Req.ctx q op s) (dev := (s.take q.mbox.val).dev)
    (jrn := false) (take_face s _) hon hout hd
  rw [dev_eq hA] at ho
  rw [State.reply, dev_eq hA]
  exact ho

/-- A whole command that its role suffices for, and that recovery boot executes too, goes through its length and its check (R153, R561). -/
theorem runOp_allowed {d : OpDef} {op : Nat} {q : Req} {s : State} (hm : q.more = false)
    (ht : s.turn q.mbox.val q.seq.toNat op false q.payload = true) (hrole : d.minRole ≤ (s.sess q.mbox.val).role)
    (hrec : recoveryAllows op = true) : runOp d op q s = execOp d (Req.ctx q op s) false (s.take q.mbox.val) q.payload := by
  have hr : ¬ (s.mode = .recovery ∧ recoveryAllows op = false) := fun k => by simp [hrec] at k
  simp only [runOp, hm, ht, if_true, Bool.false_eq_true, if_false, Nat.not_lt.2 hrole, hr]
  rfl

/-- A payload of the wrong length is refused before the command is checked. -/
theorem execOp_badLen {d : OpDef} {c : Ctx} {bulk : Bool} {s : State} {b : Bytes} {off : Nat} (h : d.badLen b = some off) :
    execOp d c bulk s b = s.reply c.mbox c.seq c.opcode St.badLen off false [] := by
  rw [execOp, h]

/-- A check that refuses has its status and detail replied. -/
theorem execOp_refuse {d : OpDef} {c : Ctx} {bulk : Bool} {s : State} {b : Bytes} {st det : Nat} (h : d.badLen b = none)
    (hc : d.chk c s b = .refuse st det) : execOp d c bulk s b = s.reply c.mbox c.seq c.opcode st det false [] := by
  simp only [execOp, h, hc]

/-! Addresses at which no register lies (R27). -/

theorem exec_regRead (q : Req) (s : State) : exec (.regRead q) s = .next (runOp opRegRead 0x0281 q s) := rfl
theorem exec_regWrite (q : Req) (s : State) : exec (.regWrite q) s = .next (runOp opRegWrite 0x0201 q s) := rfl

/-- The windows end at 0x0012_0000. -/
theorem regAt_above {a : Nat} (h : 0x120000 ≤ a) : regAt a = none := by
  obtain ⟨k, hk⟩ : ∃ k, a / 0x10000 = k + 18 := ⟨a / 0x10000 - 18, by omega⟩
  rw [regAt, hk]
  rfl

theorem readReg_undefined {s : State} {i2c : Bool} {a : Nat} (h : regAt a = none) : s.readReg i2c a = 0 := by
  simp only [State.readReg, h]

theorem writePair_undefined {s : State} {a v : Nat} (h : regAt a = none) : s.writePair a v = s := by
  rw [State.writePair, h]; rfl

theorem fieldsAt_undefined {a : Nat} (h : regAt a = none) : fieldsAt a = [] := by
  simp only [fieldsAt, h]

/-- An address without a register differs from every one that has one. -/
theorem ne_of_undefined {a b : Nat} (h : regAt a = none) (hb : (regAt b).isSome = true) : a ≠ b := by
  rintro rfl
  rw [h] at hb
  cases hb

/-! The registers that a read latches or pops. -/

theorem tin_pop_defined : ∀ n < 5, (regAt (0x20208 + 0x20 * n)).isSome := by decide +kernel
theorem mac_cnt_lo_defined : ∀ p < 8, (regAt (0x30104 + 0x1000 * p)).isSome ∧ (regAt (0x30184 + 0x1000 * p)).isSome := by decide +kernel
theorem mz_ctr_hi_defined : ∀ k < 8, (regAt (R.QCP_MZ_CTR_HI 0 + 8 * k)).isSome := by decide +kernel

/-- A read where no register lies does nothing. -/
theorem readAct_undefined {s : State} {i2c : Bool} {a : Nat} (h : regAt a = none) : s.readAct i2c a = s := by
  have htin : ¬ (0x20200 ≤ a ∧ a < 0x202A0 ∧ a % 0x20 = 8) := fun k =>
    ne_of_undefined h (tin_pop_defined ((a - 0x20208) / 0x20) (by omega)) (by omega)
  have hrx : ¬ (0x30000 ≤ a ∧ a < 0x38000 ∧ a % 0x1000 = 0x104) := fun k =>
    ne_of_undefined h (mac_cnt_lo_defined ((a - 0x30000) / 0x1000) (by omega)).1 (by omega)
  have htx : ¬ (0x30000 ≤ a ∧ a < 0x38000 ∧ a % 0x1000 = 0x184) := fun k =>
    ne_of_undefined h (mac_cnt_lo_defined ((a - 0x30000) / 0x1000) (by omega)).2 (by omega)
  have hmz : ¬ (R.QCP_MZ_CTR_HI 0 ≤ a ∧ a < R.QCP_MZ_CTR_HI 8 ∧ a % 8 = R.QCP_MZ_CTR_HI 0 % 8) := fun k =>
    ne_of_undefined h (mz_ctr_hi_defined ((a - R.QCP_MZ_CTR_HI 0) / 8) (by simp only [R.QCP_MZ_CTR_HI] at k ⊢; omega))
      (by simp only [R.QCP_MZ_CTR_HI] at k ⊢; omega)
  rw [State.readAct, if_neg (ne_of_undefined h (by decide +kernel)), if_neg htin, if_neg hrx, if_neg htx, if_neg hmz,
    if_neg (ne_of_undefined h (by decide +kernel)), if_neg (ne_of_undefined h (by decide +kernel)), if_neg (ne_of_undefined h (by decide +kernel))]

/-! No rule of a block speaks of an address without a register. -/

theorem tout_ctl_defined : ∀ n < 4, (regAt (0x20118 + 0x20 * n)).isSome := by decide +kernel

theorem not_tout_ctl {a : Nat} (h : regAt a = none) : ¬ (0x20100 ≤ a ∧ a < 0x20180 ∧ a % 0x20 = 0x18) := fun k =>
  ne_of_undefined h (tout_ctl_defined ((a - 0x20100) / 0x20) (by omega)) (by omega)

theorem tmuLate_undefined {s : State} {a v : Nat} (h : regAt a = none) : tmuLate s a v = false := by
  have hd : (decide (0x20100 ≤ a) && decide (a < 0x20180) && decide (a % 0x20 = 0x18)) = false := by
    simpa [and_assoc] using not_tout_ctl h
  rw [tmuLate, hd, Bool.false_and, Bool.false_and]

/-- The offsets in the window of a port at which the rule of the ports may refuse; beside them it may at the PHY of S0. -/
def macRuleOffsets : List Nat :=
  [0x00, 0x08, 0x14, 0x1C, 0x20, 0x40, 0x44, 0x48, 0x4C, 0x50, 0x54, 0x58, 0x60, 0x64, 0x68, 0x6C, 0x70, 0x74, 0x78]

theorem macRuleOffsets_defined : ∀ p < 8, ∀ o ∈ macRuleOffsets, (regAt (0x30000 + 0x1000 * p + o)).isSome := by decide +kernel

theorem mac_phy_s0_defined : (regAt 0x37030).isSome := by decide +kernel

theorem macRule_undefined {s : State} {a old v : Nat} (h3 : a / 0x10000 = 3) (h4 : a % 4 = 0) (h : regAt a = none) :
    macRule s a old v = none := by
  rw [macRule, if_neg (ne_of_undefined h (by decide +kernel))]
  by_cases ht : 0x38000 ≤ a
  · rw [if_pos ht]
  · have hp : (a - 0x30000) / 0x1000 < 8 := by omega
    have ho : (a - 0x30000) % 0x1000 ∉ macRuleOffsets := fun k => ne_of_undefined h (macRuleOffsets_defined _ hp _ k) (by omega)
    have hphy : ¬ ((a - 0x30000) % 0x1000 = 0x30 ∧ (a - 0x30000) / 0x1000 = 7) := fun k => ne_of_undefined h mac_phy_s0_defined (by omega)
    have ho4 : (a - 0x30000) % 0x1000 % 4 = 0 := by omega
    rw [if_neg ht]
    generalize (a - 0x30000) % 0x1000 = o at *
    generalize (a - 0x30000) / 0x1000 = p at *
    simp only [macRuleOffsets, List.mem_cons, List.not_mem_nil, or_false, not_or] at ho
    have hib : ¬ (0x40 ≤ o ∧ o < 0x5C) := by omega
    have hwm : ¬ (0x60 ≤ o ∧ o < 0x7C) := by omega
    simp only [ho, hib, hwm, if_false]
    split
    · have hp7 : (p == 7) = false := by simpa using fun k => hphy ⟨‹_›, k⟩
      simp only [hp7, Bool.false_and, Bool.false_eq_true, if_false]
    · rfl

/-- The registers outside the ports' windows that a rule names one by one. -/
def ruledRegs : List Nat :=
  [R.SWT_CFG, R.SWT_CYC_PCT, R.SWT_LOFT_BUD, R.TMU_CTL, R.TMU_ADDEND, R.TMU_ADDEND_EXT, R.TMU_SRV_CTL, R.TMU_SRV_KP, R.TMU_SRV_PULL,
    R.TMU_SRV_SLEW, R.TMU_SRV_LOCK, R.TMU_SRV_UNLK, R.TMU_SRV_HOLD, R.TMU_SRV_ROUTE, R.TMU_TC_CFG, R.QCP_CFG, R.QCP_MZ_KEYS, R.PKE_CFG,
    R.PKE_SLOW_RATE, R.PKE_HOLD, R.PKE_BRIDGE, R.PLY_CFG, R.PLY_ADP, R.PLY_SHRINK, R.PLY_SKEW, R.KNL_PREEMPT, R.KNL_ING_WM, R.FRP_CFG,
    R.FRP_WDOG, R.TND_CFG, R.TND_WIN, R.TND_PORT_BUD, R.TND_HELLO, R.GRN_EXP_RATE, R.GLN_CFG, R.BGW_CFG, R.BGW_CAL, R.BGW_THERM_CFG]

theorem ruledRegs_defined : ∀ b ∈ ruledRegs, (regAt b).isSome := by decide +kernel

/-- No rule refuses a write to an aligned address without a register. -/
theorem rule_undefined {s : State} {a old v : Nat} (h4 : a % 4 = 0) (h : regAt a = none) : s.rule a old v = none := by
  have hn : ∀ b ∈ ruledRegs, a ≠ b := fun b hb => ne_of_undefined h (ruledRegs_defined b hb)
  simp only [ruledRegs, List.forall_mem_cons] at hn
  unfold State.rule
  split
  case h_1 => simp only [swtRule, hn, if_false]
  case h_2 => simp only [tmuRule, hn, not_tout_ctl h, if_false]
  case h_3 h3 => exact macRule_undefined h3 h4 h
  case h_4 => simp only [qcpRule, hn, if_false]
  case h_5 => simp only [pkeRule, hn, if_false]
  case h_6 => simp only [plyRule, hn, if_false]
  case h_7 => simp only [knlRule, hn, if_false]
  case h_8 => simp only [frpRule, hn, if_false]
  case h_9 => simp only [tndRule, hn, if_false]
  case h_10 => simp only [grnRule, hn, false_and, if_false]
  case h_11 => simp only [glnRule, hn, false_and, if_false]
  case h_12 => simp only [bgwRule, hn, if_false]
  case h_13 => rfl

/-! The status of a pair, and of a list of them (R27, R169). -/

theorem pairStatus_unaligned {s : State} {role : Nat} {persist : Bool} {a v : Nat} (h : a % 4 ≠ 0) :
    s.pairStatus role persist a v = some St.badLen := if_pos h

theorem pairStatus_undefined {s : State} {role : Nat} {persist : Bool} {a v : Nat} (h4 : a % 4 = 0) (h : regAt a = none) :
    s.pairStatus role persist a v = none := by
  have hdb : a ≠ R.QCP_DB_RPL := ne_of_undefined h (by decide +kernel)
  simp [State.pairStatus, h4, hdb, fieldsAt_undefined h, rule_undefined h4 h, asksAction]

/-- The first pair at an unaligned address, behind pairs that pass, is refused with its index. -/
theorem checkPairs_unaligned {role : Nat} {persist : Bool} {a v : Nat} (h : a % 4 ≠ 0) : ∀ (l : List (Nat × Nat)) (i k : Nat) (s : State),
    l[i]? = some (a, v) → checkPairs role persist (l.take i) k s = .ok [] → checkPairs role persist l k s = .refuse St.badLen (k + i)
  | [], _, _, _, hi, _ => by simp at hi
  | p :: l, 0, k, s, hi, _ => by
    obtain rfl : p = (a, v) := by simpa using hi
    simp only [checkPairs, pairStatus_unaligned h]
    rfl
  | p :: l, i + 1, k, s, hi, hc => by
    rw [List.take_succ_cons, checkPairs] at hc
    rw [checkPairs]
    cases hp : s.pairStatus role persist p.1 p.2 with
    | some st => rw [hp] at hc; cases hc
    | none =>
      rw [hp] at hc
      rw [show k + (i + 1) = k + 1 + i by omega]
      exact checkPairs_unaligned h l i (k + 1) _ (by simpa using hi) hc

/-! REG_READ and REG_WRITE at such addresses. -/

/-- What a REG_READ takes from a payload that was put together. -/
theorem regRead_payload {b : Bytes} {a n : Nat} (hb : b = be 4 a ++ be 4 n) (ha : a < 2 ^ 32) (hn : n < 2 ^ 32) :
    b.length = 8 ∧ num b 0 4 = a ∧ num b 4 4 = n := by
  have e : b = be 4 a ++ (be 4 n ++ []) := by rw [hb, List.append_nil]
  refine ⟨by simp [hb], ?_, ?_⟩
  · rw [e]; exact (num_append_be (l := []) rfl).trans (Nat.mod_eq_of_lt ha)
  · rw [e]; exact (num_append_be (be_length 4 a)).trans (Nat.mod_eq_of_lt hn)

theorem regRead_unaligned (q : Req) (s : State) (a n : Nat) (hb : q.payload = be 4 a ++ be 4 n) (ha : a < 2 ^ 32) (h1 : 1 ≤ n) (h64 : n ≤ 64)
    (h4 : a % 4 ≠ 0) (hm : q.more = false) (ht : s.turn q.mbox.val q.seq.toNat 0x0281 false q.payload = true) :
    ∃ t, exec (.regRead q) s = .next t ∧ Aside q.mbox.val s t ∧ Answered false 0x0281 q St.badLen 0 [] s t := by
  obtain ⟨h8, hna, hnn⟩ := regRead_payload hb ha (by omega)
  have hbad : opRegRead.badLen q.payload = some 0 := by
    have hn : ¬ (n < 1 ∨ 64 < n) := by omega
    simp only [opRegRead, h8, hna, hnn, hn, h4, ne_eq, not_true_eq_false, if_false, not_false_eq_true, if_true]
  have hrun : runOp opRegRead 0x0281 q s = (s.take q.mbox.val).reply q.mbox.val q.seq.toNat 0x0281 St.badLen 0 false [] := by
    rw [runOp_allowed hm ht (Nat.zero_le _) (by decide), execOp_badLen hbad]
    rfl
  rw [exec_regRead, hrun]
  exact ⟨_, rfl, refused_in_turn (hm ▸ ht) (by decide)⟩

theorem regWrite_unaligned (q : Req) (s : State) (i a v : Nat) (hr : Ready opRegWrite 0x0201 q s) (hi : (pairsOf q.payload)[i]? = some (a, v))
    (h4 : a % 4 ≠ 0)
    (hc : checkPairs (s.sess q.mbox.val).role (tb (num q.payload 0 2) 0) ((pairsOf q.payload).take i) 0 (s.take q.mbox.val) = .ok []) :
    ∃ t, exec (.regWrite q) s = .next t ∧ Aside q.mbox.val s t ∧ Answered false 0x0201 q St.badLen i [] s t := by
  have hpairs : ¬ (num q.payload 2 2 < 1 ∨ 32 < num q.payload 2 2) := fun k => by
    have hl := hr.len
    simp only [opRegWrite, k, if_true] at hl
    split at hl <;> cases hl
  have hlt : i < num q.payload 2 2 := by
    obtain ⟨hlt, -⟩ := List.getElem?_eq_some_iff.1 hi
    simpa [pairsOf] using hlt
  have hchk : opRegWrite.chk (Req.ctx q 0x0201 s) (s.take q.mbox.val) q.payload = .refuse St.badLen i := by
    have h := checkPairs_unaligned h4 _ _ _ _ hi hc
    rw [Nat.zero_add] at h
    exact h
  rw [exec_regWrite, hr.run, execOp_refuse hr.len hchk]
  exact ⟨_, rfl, refused_in_turn (hr.whole ▸ hr.turn) (by omega)⟩

theorem regRead_undefined (q : Req) (s : State) (a : Nat) (hr : Ready opRegRead 0x0281 q s) (hb : q.payload = be 4 a ++ be 4 1)
    (ha : a < 2 ^ 32) (hu : regAt a = none) : Completes false (.regRead q) 0x0281 q s s St.ok 0 (be 4 0) := by
  obtain ⟨-, hna, hn1⟩ := regRead_payload hb ha (by decide)
  refine completes_direct (plan := []) (exec_regRead q s) ⟨hr, rfl⟩ rfl (Nat.zero_le _) ?_
  refine acts_of_aside (f := id) (fun c v _ => ?_) (fun _ hv => hv) fun _ => rfl
  simp only [opRegRead, hna, hn1, readRegs, readAct_undefined hu, readReg_undefined hu, Done.res, id, List.flatMap_cons, List.flatMap_nil,
    List.append_nil]

theorem regWrite_undefined (c : RegCmd) (s : State) (a v : Nat) (hr : Ready opRegWrite 0x0201 (writeReq c a v) s) (ha : a < 2 ^ 32)
    (hv : v < 2 ^ 32) (h4 : a % 4 = 0) (hu : regAt a = none) :
    Completes false (.regWrite (writeReq c a v)) 0x0201 (writeReq c a v) s s St.ok 0 [] := by
  have hchk : opRegWrite.chk (Req.ctx (writeReq c a v) 0x0201 s) (s.take c.mbox.val) (writeReq c a v).payload = .ok [] := by
    simp only [opRegWrite, pairsOf_writeReq c ha hv, checkPairs, pairStatus_undefined h4 hu]
  refine completes_direct (plan := []) (exec_regWrite _ s) ⟨hr, hchk⟩ (writeReq_not_journaled c a v) (Nat.zero_le _) ?_
  refine acts_of_aside (f := id) (fun k u _ => ?_) (fun _ hu => hu) fun _ => rfl
  have hloft : a ≠ R.SWT_LOFT_BUD := ne_of_undefined hu (by decide +kernel)
  have hmove : u.mustMove [(a, v)] = false := by simp [State.mustMove, hloft]
  simp only [opRegWrite, pairsOf_writeReq c ha hv, hmove, Bool.false_eq_true, if_false, regApply, applyPairs, List.foldl_cons, List.foldl_nil,
    writePair_undefined hu, tmuLate_undefined hu, Bool.or_self, id]

end Sys2Proof.Machine

section
open Sys2Proof.Machine

/-- Settles O24: refusals of unaligned addresses, then what reads and writes do where no register lies. -/
theorem addressesWithoutARegister : Obligations.AddressesWithoutARegister :=
  ⟨regRead_unaligned, regWrite_unaligned, fun _ => regAt_above, regRead_undefined, regWrite_undefined, fun _ _ _ => readReg_undefined,
    fun _ _ _ => writePair_undefined⟩

end

namespace Sys2Proof.Machine

open Sys2Proof

/-! What taking a command leaves of the state it is taken in (R161): all but QCP's registers and mailboxes. A command that is not journaled
is applied to that state, so that its reads show the journal, the fate table and the wear as they stand. -/

/-- The registers and QCP apart, `t` is `s`. -/
def QcpFrame (s t : State) : Prop := t = { s with regs := t.regs, qcp := t.qcp }

theorem QcpFrame.trans {s t u : State} (h : QcpFrame s t) (k : QcpFrame t u) : QcpFrame s u :=
  Eq.trans k (congrArg (fun x : State => { x with regs := u.regs, qcp := u.qcp }) h)

theorem qcpFrame_setReg (s : State) (a v : Nat) : QcpFrame s (s.setReg a v) := rfl
theorem qcpFrame_setQcp (s : State) (x : Qcp) : QcpFrame s (s.setQcp x) := rfl
theorem qcpFrame_setSess (s : State) (m : Nat) (x : Session) : QcpFrame s (s.setSess m x) := rfl

theorem qcpFrame_unbell (s : State) (m : Nat) : QcpFrame s (s.unbell m) := by
  unfold State.unbell
  split
  · exact qcpFrame_setReg _ _ _
  · rfl

theorem qcpFrame_renewLease (s : State) (m : Nat) : QcpFrame s (s.renewLease m) := by
  simp only [State.renewLease]
  split
  · exact qcpFrame_setSess _ _ _
  · rfl

theorem qcpFrame_take (s : State) (m : Nat) : QcpFrame s (s.take m) := by
  have h1 : QcpFrame s (if (s.sess m).ring.isEmpty then
      ((s.setSess m { s.sess m with expect := ((s.sess m).expect + 1) % 2 ^ 32 }).renewLease m).bump R.QCP_RX_CNT
    else (s.setSess m { s.sess m with ring := (s.sess m).ring.drop 1 }).unbell m) := by
    split
    · exact ((qcpFrame_setSess _ _ _).trans (qcpFrame_renewLease _ _)).trans (qcpFrame_setReg _ _ _)
    · exact (qcpFrame_setSess _ _ _).trans (qcpFrame_unbell _ _)
  simp only [State.take]
  split
  · exact h1.trans (qcpFrame_setQcp _ _)
  · exact h1.trans (qcpFrame_setQcp _ _)

/-- What does not look at registers and at QCP sees no taken command. -/
theorem take_congr {α : Type} (f : State → α) (h : ∀ (s : State) x y, f { s with regs := x, qcp := y } = f s) (s : State) (m : Nat) :
    f (s.take m) = f s := by
  rw [qcpFrame_take s m]; exact h _ _ _

@[simp] theorem take_nv (s : State) (m : Nat) : (s.take m).nv = s.nv := take_congr State.nv (fun _ _ _ => rfl) s m
@[simp] theorem take_bgw (s : State) (m : Nat) : (s.take m).bgw = s.bgw := take_congr State.bgw (fun _ _ _ => rfl) s m
@[simp] theorem take_mode (s : State) (m : Nat) : (s.take m).mode = s.mode := take_congr State.mode (fun _ _ _ => rfl) s m

@[simp] theorem take_loc (s : State) (m : Nat) : (s.take m).loc = s.loc := take_congr State.loc (fun _ _ _ => rfl) s m
@[simp] theorem take_ipx (s : State) (m : Nat) : (s.take m).ipx = s.ipx := take_congr State.ipx (fun _ _ _ => rfl) s m

/-- The registers of the other blocks stay. -/
theorem reg_take {s : State} {m a : Nat} (h : a / 0x10000 ≠ 4) (hm : m < 256) : (s.take m).reg a = s.reg a := by
  have hrx : R.QCP_RX_CNT ≠ a := by rintro rfl; exact h rfl
  have hdb : R.QCP_DB_CMD (m / 32) ≠ a := by
    rintro rfl
    simp only [R.QCP_DB_CMD] at h
    omega
  have hu : ∀ x : State, (x.unbell m).reg a = x.reg a := fun x => by
    unfold State.unbell
    split
    · exact State.reg_setReg_ne _ _ hdb
    · rfl
  have hl : ∀ x : State, (x.renewLease m).reg a = x.reg a := fun x => by
    simp only [State.renewLease]
    split <;> rfl
  simp only [State.take]
  split
  · split
    · exact (State.reg_bump_ne _ hrx).trans (hl _)
    · exact hu _
  · split
    · exact (State.reg_bump_ne _ hrx).trans (hl _)
    · exact hu _

theorem fld_take {s : State} {m : Nat} {f : Fld} (h : f.addr / 0x10000 ≠ 4) (hm : m < 256) : (s.take m).fld f = s.fld f := by
  unfold State.fld; rw [reg_take h hm]

/-! How a command that is not journaled completes, from what it does to the state in which it is taken. -/

theorem completes_taken {d : OpDef} {i : Instr} {op : Nat} {q : Req} {s e w : State} {plan : List Nat} {st det : Nat} {r : Bytes}
    (hx : exec i s = .next (runOp d op q s)) (ha : Accepted d op q s plan) (hj : d.jrnl q.payload = false) (hd : det ≤ 0xFFFF)
    (happ : d.app (Req.ctx q op s) plan (s.take q.mbox.val) q.payload = ⟨w, st, det, r, false⟩) (he : Aside q.mbox.val e w)
    (hf : (w.sess q.mbox.val).face = ((s.take q.mbox.val).sess q.mbox.val).face) : Completes false i op q s e st det r := by
  obtain ⟨hon, hout, -, -⟩ := turn_cases ha.turn
  have hface : (w.sess q.mbox.val).face = (s.sess q.mbox.val).face := hf.trans (take_face _ _)
  refine ⟨_, hx, ?_⟩
  rw [ha.run, hj, happ, dev_eq (aside_take q.mbox.isLt)]
  simp only [Bool.false_eq_true, if_false]
  exact ⟨he.trans (aside_finish (d := ⟨w, st, det, r, false⟩) (c := Req.ctx q op s) ((face_st hface).trans hon)),
    finish_out (c := Req.ctx q op s) hface hon hout hd⟩

/-- A command whose reply comes later takes effect at once. -/
theorem waits_taken {d : OpDef} {i : Instr} {op : Nat} {q : Req} {s e w : State} {plan : List Nat}
    (hx : exec i s = .next (runOp d op q s)) (ha : Accepted d op q s plan) (hj : d.jrnl q.payload = false)
    (happ : d.app (Req.ctx q op s) plan (s.take q.mbox.val) q.payload = Done.wait w) (he : Aside q.mbox.val e w) : Waits false i q s e := by
  refine ⟨_, hx, ?_⟩
  rw [ha.run, hj, happ]
  refine ⟨he.trans aside_setSess, ?_⟩
  simp only [Bool.false_eq_true, if_false, Done.finish, Done.wait, if_true]
  exact congrArg Session.defer (State.sess_setSess_same _ _ _)

/-- An operation that only asks returns what it finds, where the taken command does not show in it. -/
theorem ask_replies {minRole len op : Nat} {chk : State → Bytes → Chk} {f : State → Bytes → Bytes} {mk : Req → Instr}
    (hx : ∀ q s, exec (mk q) s = .next (runOp (OpDef.ask minRole len chk f) op q s)) (hf : ∀ s b m, m < 256 → f (s.take m) b = f s b) :
    Does false (OpDef.ask minRole len chk f) op mk (replied fun q s => f s q.payload) := by
  intro q s plan ha _ _
  refine completes_taken (hx q s) ha rfl (Nat.zero_le _) ?_ (aside_take q.mbox.isLt) rfl
  show Done.res _ (f (s.take q.mbox.val) q.payload) = _
  rw [hf _ _ _ q.mbox.isLt]
  rfl

section congr
variable {m : Nat} {s t : State} (h : Aside m s t)
include h

theorem Aside.setNv (x : Nv) : Aside m (s.setNv x) (t.setNv x) :=
  ⟨congrArg (fun u : State => u.setNv { x with recno := 0, jrnl := [], sinceCk := 0, fates := [], wear := 0 }) h.rest, h.regs, h.sess⟩

theorem Aside.ipfix_eq : t.nv.ipfix = s.nv.ipfix := (congrArg (fun u : State => u.nv.ipfix) h.rest : t.beside.nv.ipfix = s.beside.nv.ipfix)

theorem Aside.withBgw (x : Bgw) : Aside m { s with bgw := x } { t with bgw := x } :=
  ⟨congrArg (fun u : State => { u with bgw := { x with prsBytes := 0, fab := 0 } }) h.rest, h.regs, h.sess⟩

end congr

/-- An ADMIN operation that changes what survives a reset, and nothing else, completes with that change. -/
theorem admin_keeps_record {len op : Nat} {chk : Ctx → State → Bytes → Chk} {app : Ctx → State → Bytes → Done} {mk : Req → Instr}
    {P : Req → State → Prop} {n : Req → State → Nv} (hx : ∀ q s, exec (mk q) s = .next (runOp (OpDef.admin len chk app) op q s))
    (happ : ∀ c q s, P q s → app c (s.take q.mbox.val) q.payload = Done.ok ((s.take q.mbox.val).setNv (n q s))) :
    DoesIf P false (OpDef.admin len chk app) op mk (done fun q s => s.setNv (n q s)) :=
  fun q s _ ha hP _ => completes_taken (hx q s) ha rfl (Nat.zero_le _) (happ _ q s hP) ((aside_take q.mbox.isLt).setNv _) rfl

/-! PRS (R29, R548). -/

theorem exec_prsPartition (q : Req) (s : State) : exec (.prsPartition q) s = .next (runOp opPrsPartition 0x0D01 q s) := rfl
theorem exec_prsCheckpoint (q : Req) (s : State) : exec (.prsCheckpoint q) s = .next (runOp opPrsCheckpoint 0x0D02 q s) := rfl
theorem exec_prsLogRead (q : Req) (s : State) : exec (.prsLogRead q) s = .next (runOp opPrsLogRead 0x0D81 q s) := rfl
theorem exec_prsInfo (q : Req) (s : State) : exec (.prsInfo q) s = .next (runOp opPrsInfo 0x0D82 q s) := rfl

theorem prsPartition_does : Does false opPrsPartition 0x0D01 .prsPartition
    (done fun q s => s.setNv { s.nv with bkgGib := u8 q.payload 0, patGib := u8 q.payload 1 }) :=
  admin_keeps_record exec_prsPartition fun _ q s _ => by simp only [take_nv]

theorem prsCheckpoint_waits (q : Req) (s : State) (ha : Accepted opPrsCheckpoint 0x0D02 q s []) : Waits false (.prsCheckpoint q) q s
    { s with bgw := { s.bgw with ckDue := true, ckBy := s.bgw.ckBy ++ [(q.mbox.val, q.seq.toNat)] } } := by
  refine waits_taken (exec_prsCheckpoint q s) ha rfl rfl ?_
  simp only [take_bgw]
  exact (aside_take q.mbox.isLt).withBgw _

theorem prsLogRead_does : Does false opPrsLogRead 0x0D81 .prsLogRead (fun q s =>
    let first := s.nv.slogN - s.nv.slog.length
    let i := max (num q.payload 0 4) first
    (s.drawn.bumpBy R.PRS_ECC_CE_CNT (s.draw 8), St.ok,
      ((s.nv.slog.drop (i - first)).take (min (num q.payload 0 4 + num q.payload 4 4) s.nv.slogN - i)).flatMap id)) := by
  intro q s plan ha _ _
  have hA : Aside q.mbox.val s (s.take q.mbox.val) := aside_take q.mbox.isLt
  have hd : (s.take q.mbox.val).draw 8 = s.draw 8 := by unfold State.draw; rw [hA.free_eq]
  refine completes_taken (w := (s.take q.mbox.val).prsRead) (exec_prsLogRead q s) ha rfl (Nat.zero_le _) ?_ ?_ rfl
  · simp only [opPrsLogRead, take_nv]
    rfl
  · rw [State.prsRead, hd]
    exact hA.drawn.bumpBy (by decide) _

/-- The registers that mirror PRS, and their values, show no taken command. -/
theorem prsView_take {s : State} {m : Nat} (hm : m < 256) (i2c : Bool) (a : Nat) : prsView (s.take m) i2c a = prsView s i2c a := by
  simp only [prsView, State.jrnlUsed, take_mode, take_nv, take_bgw, fld_take (f := R.PRS_WEAR_SPREAD) (by decide) hm]

theorem prsInfo_does : Does false opPrsInfo 0x0D82 .prsInfo (replied fun _ s =>
    (List.range 6).flatMap fun k => be 4 ((prsView s false (R.PRS_STAT + 4 * k)).getD (s.reg (R.PRS_STAT + 4 * k)))) := by
  refine ask_replies exec_prsInfo fun s _ m hm => List.flatMap_congr fun k hk => ?_
  have hw : (R.PRS_STAT + 4 * k) / 0x10000 ≠ 4 := by
    have := List.mem_range.1 hk
    simp only [R.PRS_STAT]
    omega
  rw [prsView_take hm, reg_take hw hm]

/-! CHECKPOINT_TIMER and CHECKPOINT_WRITTEN (R532, R541). -/

theorem exec_checkpointTimer (s : State) : exec .checkpointTimer s = execCheckpointTimer s := rfl
theorem exec_checkpointWritten (ok : Bool) (s : State) : exec (.checkpointWritten ok) s = execCheckpointWritten ok s := rfl

theorem checkpointTimer_by_size (s : State) (hm : s.mode = .service) (hd : s.bgw.ckDue = false) (hs : jrnlMax / 2 ≤ s.nv.sinceCk) :
    exec .checkpointTimer s = .next { s with bgw := { s.bgw with ckDue := true } } := by
  simp only [exec_checkpointTimer, execCheckpointTimer, hm, hd, hs, decide_true, Bool.or_true, and_self, if_true]

theorem checkpointTimer_by_time (s : State) (c : Ckpt) (hm : s.mode = .service) (hd : s.bgw.ckDue = false) (hn : s.nv.newest = some c)
    (hc : c.recno < s.nv.recno) (ht : s.bgw.ckLoc + 60 * secI ≤ s.loc) :
    exec .checkpointTimer s = .next { s with bgw := { s.bgw with ckDue := true } } := by
  simp only [exec_checkpointTimer, execCheckpointTimer, hm, hd, hn, hc, ht, decide_true, Bool.and_self, Bool.true_or, and_self, if_true]

theorem checkpointTimer_not_due (s : State) (hs : s.nv.sinceCk < jrnlMax / 2) (ht : s.loc < s.bgw.ckLoc + 60 * secI) :
    exec .checkpointTimer s = .next s := by
  simp only [exec_checkpointTimer, execCheckpointTimer, Nat.not_le.2 hs, Nat.not_le.2 ht, decide_false, Bool.false_and, Bool.or_self,
    Bool.false_eq_true, false_and, and_false, if_false]

theorem checkpointWritten_idle (ok : Bool) (s : State) (hd : s.bgw.ckDue = false) : exec (.checkpointWritten ok) s = .next s := by
  rw [exec_checkpointWritten, execCheckpointWritten, if_pos hd]

theorem checkpointWritten_held (ok : Bool) (s : State) (hd : s.bgw.ckDue = true) (hf : s.fabFull s.ckptLen = true) :
    exec (.checkpointWritten ok) s = .next (s.capHold 4) := by
  simp only [exec_checkpointWritten, execCheckpointWritten, hd, hf, Bool.true_eq_false, if_false, if_true]

/-- The state with no command that waits for a checkpoint. -/
def State.ckByCleared (s : State) : State := { s with bgw := { s.bgw with ckBy := [] } }

theorem ckByCleared_frame (s : State) : s.ckByCleared.nv = s.nv ∧ (∀ a, s.ckByCleared.reg a = s.reg a) ∧ s.ckByCleared.legs = s.legs ∧
    s.ckByCleared.qcp = s.qcp := ⟨rfl, fun _ => rfl, rfl, rfl⟩

theorem ckByCleared_bgw (s : State) : s.ckByCleared.bgw.fab = s.bgw.fab ∧ s.ckByCleared.bgw.ckDue = s.bgw.ckDue ∧
    s.ckByCleared.bgw.ckLoc = s.bgw.ckLoc := ⟨rfl, rfl, rfl⟩

theorem ckByCleared_self {s : State} (h : s.bgw.ckBy = []) : s.ckByCleared = s := by
  rw [State.ckByCleared, ← h]

/-- The state once the checkpoint that is due is written, or has failed. -/
def State.ckptEnded (s : State) (ok : Bool) : State := if ok && !s.nv.prsFailed then s.checkpoint false else s.ckptFail

theorem ckptEnded_written {s : State} (hp : s.nv.prsFailed = false) : s.ckptEnded true = s.checkpoint false := by
  rw [State.ckptEnded, hp]; rfl

theorem ckptEnded_failed (s : State) : s.ckptEnded false = s.ckptFail := rfl

/-- A checkpoint for which no command waits is written, or fails. -/
theorem checkpointWritten_ends {ok : Bool} {s : State} (hd : s.bgw.ckDue = true) (hf : s.fabFull s.ckptLen = false) (hb : s.bgw.ckBy = []) :
    exec (.checkpointWritten ok) s = .next (s.ckptEnded ok).ckByCleared := by
  simp only [exec_checkpointWritten, execCheckpointWritten, hd, hf, hb, Bool.true_eq_false, Bool.false_eq_true, if_false, List.foldl_nil,
    State.ckByCleared, State.ckptEnded]

theorem putCkpt_wear (n : Nv) (c : Ckpt) : (n.putCkpt c).wear = n.wear := by
  simp only [Nv.putCkpt]
  split
  · rfl
  · rfl
  · split <;> rfl

/-- Writing to the record die touches three registers only. -/
theorem reg_prsWrote {s : State} {n a : Nat} (h1 : R.PRS_ERASE_CNT ≠ a) (h2 : R.PRS_WEAR ≠ a) (h3 : R.PRS_LIFE ≠ a) :
    (s.prsWrote n).reg a = s.reg a := by
  simp only [State.prsWrote]
  exact (State.reg_setReg_ne _ _ h3).trans ((State.reg_setReg_ne _ _ h2).trans (State.reg_setReg_ne _ _ h1))

/-! What a checkpoint of all configuration writes. -/

theorem checkpoint_nv (s : State) :
    (s.checkpoint false).nv = { s.nv.putCkpt ⟨s.nv.recno, s.nv.config⟩ with wear := s.nv.wear + 1 } := by
  rw [← putCkpt_wear s.nv ⟨s.nv.recno, s.nv.config⟩]
  rfl

theorem checkpoint_bgw (s : State) : (s.checkpoint false).bgw.fab = s.bgw.fab + s.ckptLen ∧ (s.checkpoint false).bgw.ckDue = false ∧
    (s.checkpoint false).bgw.ckLoc = s.loc := ⟨rfl, rfl, rfl⟩

theorem checkpoint_frame (s : State) : (s.checkpoint false).legs = s.legs ∧ (s.checkpoint false).qcp = s.qcp := by
  simp only [State.checkpoint, State.prsWrote, State.bump, State.bumpBy, State.setFld, State.setReg, State.setNv, and_self]

theorem checkpoint_ckpt (s : State) : (s.checkpoint false).reg R.PRS_CKPT = s.nv.recno % 2 ^ 32 := by
  simp only [State.checkpoint, State.reg_setReg_same]

theorem checkpoint_cnt (s : State) : (s.checkpoint false).reg R.PRS_CKPT_CNT = (s.reg R.PRS_CKPT_CNT + 1) % 2 ^ 32 := by
  simp only [State.checkpoint]
  rw [State.reg_setReg_ne _ _ (by decide), State.reg_bump_same, reg_prsWrote (by decide) (by decide) (by decide)]
  rfl

theorem checkpointWritten_writes (s : State) (hd : s.bgw.ckDue = true) (hf : s.fabFull s.ckptLen = false) (hb : s.bgw.ckBy = [])
    (hp : s.nv.prsFailed = false) : ∃ t, exec (.checkpointWritten true) s = .next t ∧
      t.nv = { s.nv.putCkpt ⟨s.nv.recno, s.nv.config⟩ with wear := s.nv.wear + 1 } ∧ t.bgw.fab = s.bgw.fab + s.ckptLen ∧ t.bgw.ckDue = false ∧
      t.bgw.ckLoc = s.loc ∧ t.reg R.PRS_CKPT = s.nv.recno % 2 ^ 32 ∧ t.reg R.PRS_CKPT_CNT = (s.reg R.PRS_CKPT_CNT + 1) % 2 ^ 32 ∧
      t.legs = s.legs ∧ t.qcp = s.qcp := by
  obtain ⟨hnv, hreg, hlegs, hqcp⟩ := ckByCleared_frame (s.checkpoint false)
  obtain ⟨hfab, hdue, hloc⟩ := ckByCleared_bgw (s.checkpoint false)
  obtain ⟨kfab, kdue, kloc⟩ := checkpoint_bgw s
  obtain ⟨klegs, kqcp⟩ := checkpoint_frame s
  refine ⟨(s.checkpoint false).ckByCleared, ?_, hnv.trans (checkpoint_nv s), hfab.trans kfab, hdue.trans kdue, hloc.trans kloc,
    (hreg _).trans (checkpoint_ckpt s), (hreg _).trans (checkpoint_cnt s), hlegs.trans klegs, hqcp.trans kqcp⟩
  rw [checkpointWritten_ends hd hf hb, ckptEnded_written hp]

theorem checkpointWritten_fails (s : State) (hd : s.bgw.ckDue = true) (hf : s.fabFull s.ckptLen = false) (hb : s.bgw.ckBy = []) :
    Gives (.checkpointWritten false) s [R.PRS_CKPT_FAIL_CNT, R.PRS_EVT]
      { s with bgw := { s.bgw with ckDue := false, ckLoc := s.loc } } fun t =>
        t.reg R.PRS_CKPT_FAIL_CNT = (s.reg R.PRS_CKPT_FAIL_CNT + 1) % 2 ^ 32 ∧ tb (t.reg R.PRS_EVT) 1 = true := by
  have hbgw : s.ckptFail.bgw = { s.bgw with ckDue := false, ckLoc := s.loc } :=
    congrArg State.bgw (only_raise (L := [R.PRS_EVT]) (s := State.bump _ R.PRS_CKPT_FAIL_CNT) (v := 2) (by simp)).rest
  have hby : s.ckptFail.bgw.ckBy = [] := by rw [hbgw]; exact hb
  refine ⟨s.ckptFail, ?_, (only_bump (by simp)).raise (by simp) _, ?_, tb_raise (i := 1) _ (by decide) (by decide)⟩
  · rw [checkpointWritten_ends hd hf hb, ckptEnded_failed, ckByCleared_self hby]
  · exact (reg_raise_ne (by decide) (by decide)).trans (State.reg_bump_same _ _)

/-! PRS_BLOCK_FAIL (R20, R540, R543). -/

theorem exec_prsBlockFail (b : Fin 2048) (s : State) : exec (.prsBlockFail b) s = execPrsBlockFail b s := rfl

theorem prsBlockFail_failed (b : Fin 2048) (s : State) (hp : s.nv.prsFailed = true) : exec (.prsBlockFail b) s = .next s := by
  rw [exec_prsBlockFail, execPrsBlockFail, if_pos (.inl hp)]

theorem prsBlockFail_without_spare (b : Fin 2048) (s : State) (hp : s.nv.prsFailed = false) (hm : s.mode ≠ .reset) (hs : s.nv.spares = 0) :
    exec (.prsBlockFail b) s =
      .next (let t := s.setNv { s.nv with prsFailed := true }; if s.mode = .starting then t else t.went .prs .on .failed) := by
  simp only [exec_prsBlockFail, execPrsBlockFail, hp, hm, hs, Bool.false_eq_true, or_self, if_false, if_true]
  rfl

/-- A bit of an event register stays 1 when another is raised. -/
theorem tb_raise_mono {s : State} {a v i : Nat} (ha : a ≠ R.QCP_EVT_DROP_CNT) (hi : i < 32) (h : tb (s.reg a) i = true) :
    tb ((s.raise a v).reg a) i = true := by
  rw [tb_eq_testBit] at h
  rw [reg_raise ha, if_pos rfl, tb_eq_testBit, Nat.testBit_mod_two_pow, Nat.testBit_or, h, decide_eq_true hi]
  rfl

theorem prsBlockFail_retires (b : Fin 2048) (s : State) (hp : s.nv.prsFailed = false) (hm : s.mode ≠ .reset) (hs : 0 < s.nv.spares) :
    Gives (.prsBlockFail b) s [R.PRS_RETIRE_CNT, R.PRS_EVT]
      (s.setNv { s.nv with spares := s.nv.spares - 1, retired := s.nv.retired + 1 }) fun t =>
        t.reg R.PRS_RETIRE_CNT = (s.reg R.PRS_RETIRE_CNT + 1) % 2 ^ 32 ∧ tb (t.reg R.PRS_EVT) 2 = true ∧
        (s.nv.spares - 1 < 8 → tb (t.reg R.PRS_EVT) 3 = true) := by
  let e := s.setNv { s.nv with spares := s.nv.spares - 1, retired := s.nv.retired + 1 }
  let u := (e.bump R.PRS_RETIRE_CNT).raise R.PRS_EVT (2 ^ 2)
  have hx : exec (.prsBlockFail b) s = .next (if s.nv.spares - 1 < 8 then u.raise R.PRS_EVT (2 ^ 3) else u) := by
    rw [exec_prsBlockFail, execPrsBlockFail, if_neg (by simp [hp, hm]), if_neg hs.ne']
    rfl
  have hu : Only [R.PRS_RETIRE_CNT, R.PRS_EVT] e u := (only_bump (by simp)).raise (by simp) _
  have hcnt : u.reg R.PRS_RETIRE_CNT = (s.reg R.PRS_RETIRE_CNT + 1) % 2 ^ 32 :=
    (reg_raise_ne (by decide) (by decide)).trans (State.reg_bump_same _ _)
  have hret : tb (u.reg R.PRS_EVT) 2 = true := tb_raise _ (by decide) (by decide)
  by_cases hl : s.nv.spares - 1 < 8
  · rw [if_pos hl] at hx
    exact ⟨_, hx, hu.raise (by simp) _, (reg_raise_ne (by decide) (by decide)).trans hcnt, tb_raise_mono (by decide) (by decide) hret,
      fun _ => tb_raise _ (by decide) (by decide)⟩
  · rw [if_neg hl] at hx
    exact ⟨_, hx, hu, hcnt, hret, fun h => absurd h hl⟩

/-! Firmware slots (R560, R565). -/

theorem exec_fwLoad (q : Req) (s : State) : exec (.fwLoad q) s = .next (runOp opFwLoad 0x0E01 q s) := rfl
theorem exec_fwActivate (q : Req) (s : State) : exec (.fwActivate q) s = .next (runOp opFwActivate 0x0E02 q s) := rfl
theorem exec_fwStartClear (q : Req) (s : State) : exec (.fwStartClear q) s = .next (runOp opFwStartClear 0x0E03 q s) := rfl
theorem exec_fwInfo (q : Req) (s : State) : exec (.fwInfo q) s = .next (runOp opFwInfo 0x0E81 q s) := rfl

/-- An image is kept in its slot, valid or not, whose signature is checked after it is written. -/
def State.imageKept (s : State) (k : Nat) (image : Bytes) (st : Nat) : State :=
  (s.prsWrote image.length).setNv ((s.prsWrote image.length).nv.setSlot k ⟨st, image⟩)

theorem prsWrote_nv (s : State) (n : Nat) : (s.prsWrote n).nv = { s.nv with wear := s.nv.wear + 1 } := rfl

theorem aside_imageKept {m : Nat} (hm : m < 256) (s : State) (k : Nat) (image : Bytes) (st : Nat) :
    Aside m (s.imageKept k image st) ((s.take m).imageKept k image st) := by
  simp only [State.imageKept, prsWrote_nv, take_nv]
  exact (aside_prsWrote.symm.trans ((aside_take hm).trans aside_prsWrote)).setNv _

theorem imageKept_sess (s : State) (k : Nat) (image : Bytes) (st m : Nat) : (s.imageKept k image st).sess m = s.sess m := rfl

theorem fwLoad_does : Does false opFwLoad 0x0E01 .fwLoad (fun q s =>
    let k := u8 q.payload 0
    let image := q.payload.drop 8
    let t := s.prsWrote image.length
    if sigOk image then (t.setNv (t.nv.setSlot k ⟨1, image⟩), St.ok, []) else (t.setNv (t.nv.setSlot k ⟨2, image⟩), St.auth, [])) := by
  intro q s plan ha _ _
  have happ : opFwLoad.app (Req.ctx q 0x0E01 s) plan (s.take q.mbox.val) q.payload =
      if sigOk (q.payload.drop 8) then Done.ok ((s.take q.mbox.val).imageKept (u8 q.payload 0) (q.payload.drop 8) 1)
      else Done.stat ((s.take q.mbox.val).imageKept (u8 q.payload 0) (q.payload.drop 8) 2) St.auth 0 := rfl
  dsimp only
  split
  · rename_i hs
    rw [if_pos hs] at happ
    exact completes_taken (exec_fwLoad q s) ha rfl (Nat.zero_le _) happ (aside_imageKept q.mbox.isLt s _ _ _)
      (congrArg Session.face (imageKept_sess _ _ _ _ _))
  · rename_i hs
    rw [if_neg hs] at happ
    exact completes_taken (exec_fwLoad q s) ha rfl (Nat.zero_le _) happ (aside_imageKept q.mbox.isLt s _ _ _)
      (congrArg Session.face (imageKept_sess _ _ _ _ _))

theorem fwActivate_does : Does false opFwActivate 0x0E02 .fwActivate (done fun q s => s.setNv { s.nv with trial := some (u8 q.payload 0) }) :=
  admin_keeps_record exec_fwActivate fun _ q s _ => by simp only [take_nv]

theorem fwStartClear_does : Does false opFwStartClear 0x0E03 .fwStartClear
    (done fun _ s => s.setNv { s.nv with plan := List.replicate 14 0, fails := 0 }) :=
  admin_keeps_record exec_fwStartClear fun _ q s _ => by simp only [take_nv]

theorem fwInfo_does : Does false opFwInfo 0x0E81 .fwInfo (replied fun _ s =>
    let slot (x : FwSlot) : Bytes := be 1 x.st ++ zeros 3 ++ be 4 (num x.image 4 4) ++ be 4 x.image.length
    slot s.nv.fwA ++ slot s.nv.fwB ++ be 1 s.nv.committed ++ be 1 (s.nv.trial.getD 0xFF) ++ be 1 s.nv.lastCause ++ be 1 (min 255 s.nv.fails) ++
      s.nv.plan.flatMap (be 1)) :=
  ask_replies exec_fwInfo fun s _ m _ => by simp only [take_nv]

/-! Reports (R424, R548). -/

theorem exec_statIpfixSet (q : Req) (s : State) : exec (.statIpfixSet q) s = .next (runOp opStatIpfixSet 0x0F01 q s) := rfl
theorem exec_statLeg (q : Req) (s : State) : exec (.statLeg q) s = .next (runOp opStatLeg 0x0F81 q s) := rfl
theorem exec_statDevice (q : Req) (s : State) : exec (.statDevice q) s = .next (runOp opStatDevice 0x0F82 q s) := rfl
theorem exec_statJrnlFate (q : Req) (s : State) : exec (.statJrnlFate q) s = .next (runOp opStatJrnlFate 0x0F90 q s) := rfl

theorem statLeg_does : Does false opStatLeg 0x0F81 .statLeg (replied fun q s =>
    let x := (s.leg (legOf q.payload)).rx
    s.legFigures (legOf q.payload) ++ pkeLegCnts.flatMap (fun k => be 4 ((s.leg (legOf q.payload)).figure k)) ++ s.echoRec (legOf q.payload) ++
      be 1 (b2n x.bye) ++ zeros 3 ++ be 8 x.srNtp ++ be 4 x.srTs ++ be 2 x.reports.length ++ x.reports.flatMap fun r => be 2 r.length ++ r) := by
  refine ask_replies exec_statLeg fun s b m _ => ?_
  have hleg : ∀ l, (s.take m).leg l = s.leg l := fun l => take_congr (·.leg l) (fun _ _ _ => rfl) s m
  have hfig : ∀ l, (s.take m).legFigures l = s.legFigures l := fun l => take_congr (·.legFigures l) (fun _ _ _ => rfl) s m
  have hecho : ∀ l, (s.take m).echoRec l = s.echoRec l := fun l => take_congr (·.echoRec l) (fun _ _ _ => rfl) s m
  simp only [hleg, hfig, hecho]

theorem healthBytes_take {s : State} {m : Nat} (hm : m < 256) : (s.take m).healthBytes = s.healthBytes := by
  simp only [State.healthBytes, State.dev, fld_take (f := R.TND_CFG_DEVNO) (by decide) hm, fld_take (f := R.BGW_THERM_STAT_TJ) (by decide) hm,
    fld_take (f := R.SWT_LEGS_ALL) (by decide) hm, fld_take (f := R.SWT_UNITS_N_CORE) (by decide) hm,
    reg_take (a := R.BGW_SCRUB_UE_CNT) (by decide) hm]

theorem statDevice_does : Does false opStatDevice 0x0F82 .statDevice (replied fun _ s => s.healthBytes ++ be 4 (s.fld R.SWT_LEGS_FULL_FULL)) :=
  ask_replies exec_statDevice fun s _ m hm => by rw [healthBytes_take hm, fld_take (f := R.SWT_LEGS_FULL_FULL) (by decide) hm]

theorem statJrnlFate_does : Does false opStatJrnlFate 0x0F90 .statJrnlFate (replied fun q s =>
    match s.nv.fates.reverse.find? fun f => f.boot == num q.payload 0 4 && f.session == num q.payload 4 2 && f.keyId == u8 q.payload 6 with
    | none => be 1 3 ++ zeros 3 ++ be 4 0
    | some f =>
      let n := num q.payload 8 4
      be 1 (if f.h < n then 1 else if n + 63 < f.h then 2 else if tb f.map (f.h - n) then 0 else 1) ++ zeros 3 ++ be 4 f.h) :=
  ask_replies exec_statJrnlFate fun s _ m _ => by simp only [take_nv]

/-! The exporter (R544, R545). -/

theorem enqueueTx_frame (s : State) (p : Nat) (f : TxFrame) : s.enqueueTx p f = { s with ports := (s.enqueueTx p f).ports } := by
  simp only [State.enqueueTx]
  split <;> rfl

theorem txRequest_frame (s : State) (p : Nat) (f : TxFrame) :
    (s.txRequest p f).1 = { s with ports := (s.txRequest p f).1.ports, regs := (s.txRequest p f).1.regs } := by
  simp only [State.txRequest]
  split
  · rfl
  · split
    · rw [enqueueTx_frame]; rfl
    · rw [enqueueTx_frame]

/-- A message of the exporter counts its records; beside that it leaves all but ports, registers and the background's account. -/
theorem ipfixSend_frame (s : State) (x : Ipfix) (sets : Bytes) (recs : Nat) : ∃ ports regs bgw, s.ipfixSend x sets recs =
    { s with ports := ports, regs := regs, bgw := bgw, ipx := { s.ipx with seq := s.ipx.seq + recs } } := by
  simp only [State.ipfixSend]
  rw [txRequest_frame]
  exact ⟨_, _, _, rfl⟩

theorem sendTemplates_on {s : State} {x : Ipfix} (hx : s.nv.ipfix = some x) (hen : x.en = true) : s.sendTemplates =
    (let t := s.ipfixSend x (templateSet x.ent 256 ++ templateSet x.ent 257 ++ templateSet x.ent 258) 0
    { t with ipx := { t.ipx with tmplLoc := t.loc } }) := by
  simp only [State.sendTemplates, hx, hen, if_true]

theorem ipfixStart_off {s : State} {x : Ipfix} (hx : s.nv.ipfix = some x) (hen : x.en = false) : s.ipfixStart = s := by
  simp only [State.ipfixStart, hx, hen, Bool.false_eq_true, if_false]

/-- An exporter that begins sends its templates and counts both intervals from now. -/
theorem ipfixStart_on {s : State} {x : Ipfix} (hx : s.nv.ipfix = some x) (hen : x.en = true) : ∃ ports regs bgw, s.ipfixStart =
    { s with ports := ports, regs := regs, bgw := bgw, ipx := { s.ipx with healthLoc := s.loc, tmplLoc := s.loc } } := by
  have he : s.ipfixStart = ({ s with ipx := { s.ipx with healthLoc := s.loc } } : State).sendTemplates := by
    simp only [State.ipfixStart, hx, hen, if_true]
  rw [he, sendTemplates_on (s := { s with ipx := { s.ipx with healthLoc := s.loc } }) hx hen]
  obtain ⟨p, r, b, hs⟩ := ipfixSend_frame { s with ipx := { s.ipx with healthLoc := s.loc } } x
    (templateSet x.ent 256 ++ templateSet x.ent 257 ++ templateSet x.ent 258) 0
  exact ⟨p, r, b, congrArg (fun t : State => ({ t with ipx := { t.ipx with tmplLoc := t.loc } } : State)) hs⟩

theorem ipfixOf_en {b : Bytes} {k : Nat} (h : u8 b 0 = k) : (ipfixOf b).en = (k == 1) := by rw [← h]; rfl

theorem statIpfixSet_app (c : Ctx) (plan : List Nat) (s : State) (m : Nat) (b : Bytes) : opStatIpfixSet.app c plan (s.take m) b =
    Done.ok ((s.take m).setNv { s.nv with ipfix := some (ipfixOf b) }).ipfixStart := by
  rw [← take_nv s m]
  rfl

theorem statIpfixSet_off : DoesIf (fun q _ => u8 q.payload 0 = 0) false opStatIpfixSet 0x0F01 .statIpfixSet
    (done fun q s => s.setNv { s.nv with ipfix := some (ipfixOf q.payload) }) :=
  admin_keeps_record exec_statIpfixSet fun c _ s h0 =>
    (statIpfixSet_app c [] s _ _).trans (congrArg Done.ok (ipfixStart_off rfl (ipfixOf_en h0)))

theorem statIpfixSet_on (q : Req) (s : State) (ha : Accepted opStatIpfixSet 0x0F01 q s []) (h1 : u8 q.payload 0 = 1) :
    ∃ t, exec (.statIpfixSet q) s = .next t ∧ t.nv.ipfix = some (ipfixOf q.payload) ∧ t.ipx.healthLoc = s.loc ∧ t.ipx.tmplLoc = s.loc ∧
      t.ipx.seq = s.ipx.seq ∧ t.legs = s.legs ∧ t.tmu = s.tmu := by
  let m := q.mbox.val
  let u := (s.take m).setNv { s.nv with ipfix := some (ipfixOf q.payload) }
  have hA : Aside m s (s.take m) := aside_take q.mbox.isLt
  obtain ⟨p, r, b, hs⟩ := ipfixStart_on (s := u) rfl (ipfixOf_en h1)
  have hface : (u.ipfixStart.sess m).face = ((s.take m).sess m).face := by rw [hs]; rfl
  obtain ⟨t, hx, ht, -⟩ := completes_taken (exec_statIpfixSet q s) ha rfl (Nat.zero_le _) (statIpfixSet_app _ _ s m _)
    (Aside.refl _ _) hface
  refine ⟨t, hx, ?_, ?_, ?_, ?_, ?_, ?_⟩
  · rw [ht.ipfix_eq, hs]; rfl
  · rw [ht.ipx_eq, hs]; exact take_loc s m
  · rw [ht.ipx_eq, hs]; exact take_loc s m
  · rw [ht.ipx_eq, hs]; exact (congrArg Ipx.seq (take_ipx s m) : (s.take m).ipx.seq = s.ipx.seq)
  · rw [ht.legs_eq, hs]; exact hA.legs_eq
  · rw [ht.tmu_eq, hs]; exact hA.tmu_eq

theorem exec_ipfixTemplate (s : State) : exec .ipfixTemplate s = execIpfixTemplate s := rfl
theorem exec_ipfixHealth (s : State) : exec .ipfixHealth s = execIpfixHealth s := rfl

theorem ipfixTemplate_due (s : State) (x : Ipfix) (hx : s.nv.ipfix = some x) (hen : x.en = true) (hm : s.mode = .service)
    (ht : s.ipx.tmplLoc + nsI 600000000000 ≤ s.loc) :
    (s.fabFull ipfixRoom = true → exec .ipfixTemplate s = .next (s.capHold 6)) ∧
    let t := s.ipfixSend x (templateSet x.ent 256 ++ templateSet x.ent 257 ++ templateSet x.ent 258) 0
    (s.fabFull ipfixRoom = false → exec .ipfixTemplate s = .next { t with ipx := { t.ipx with tmplLoc := t.loc } }) := by
  have he : exec .ipfixTemplate s = .next (if s.fabFull ipfixRoom then s.capHold 6 else s.sendTemplates) := by
    rw [exec_ipfixTemplate, execIpfixTemplate, if_pos ⟨hm, by rw [hx]; exact hen, ht⟩]
  refine ⟨fun hf => ?_, fun hf => ?_⟩
  · rw [he, if_pos hf]
  · rw [he, hf, sendTemplates_on hx hen]
    rfl

theorem ipfixTemplate_early (s : State) (h : s.loc < s.ipx.tmplLoc + nsI 600000000000) : exec .ipfixTemplate s = .next s := by
  rw [exec_ipfixTemplate, execIpfixTemplate, if_neg fun k => Nat.not_le.2 h k.2.2]

/-- The state once the interval of the next health record has begun. -/
def State.healthTaken (s : State) (x : Ipfix) : State :=
  { s with ipx := { s.ipx with healthLoc := s.ipx.healthLoc + nsI (x.per * 1000000000) } }

/-- The values of a health record do not depend on the exporter's account. -/
theorem healthRecord_withIpx (s : State) (y : Ipx) : ({ s with ipx := y } : State).ntp ({ s with ipx := y } : State).now ++
    ({ s with ipx := y } : State).healthBytes = s.ntp s.now ++ s.healthBytes := rfl

theorem ipfixHealth_due (s : State) (x : Ipfix) (hx : s.nv.ipfix = some x) (hen : x.en = true) (hm : s.mode = .service)
    (ht : s.ipx.healthLoc + nsI (x.per * 1000000000) ≤ s.loc) :
    (s.fabFull ipfixRoom = true → exec .ipfixHealth s = .next (s.capHold 5)) ∧
    (s.fabFull ipfixRoom = false → exec .ipfixHealth s =
      .next ((s.healthTaken x).ipfixSend x (ipfixSet 258 (s.ntp s.now ++ s.healthBytes)) 1)) := by
  have he : exec .ipfixHealth s = .next (if s.fabFull ipfixRoom then s.capHold 5
      else (s.healthTaken x).ipfixSend x (ipfixSet 258 ((s.healthTaken x).ntp (s.healthTaken x).now ++ (s.healthTaken x).healthBytes)) 1) := by
    rw [exec_ipfixHealth, execIpfixHealth, hx]
    exact congrArg Host.Outcome.next (if_pos ⟨hen, hm, ht⟩)
  have hr : (s.healthTaken x).ntp (s.healthTaken x).now ++ (s.healthTaken x).healthBytes = s.ntp s.now ++ s.healthBytes :=
    healthRecord_withIpx s _
  rw [hr] at he
  exact ⟨fun hf => by rw [he, if_pos hf], fun hf => by rw [he, hf]; rfl⟩

theorem ipfix_disabled (s : State) (h : ∀ x, s.nv.ipfix = some x → x.en = false) :
    exec .ipfixHealth s = .next s ∧ exec .ipfixTemplate s = .next s := by
  rw [exec_ipfixHealth, exec_ipfixTemplate, execIpfixHealth, execIpfixTemplate]
  cases hx : s.nv.ipfix with
  | none => simp
  | some x => simp [h x hx]

end Sys2Proof.Machine

section
open Sys2Proof.Machine

/-- Settles O54, clause by clause: PRS, its checkpoints and its blocks, the slots, the reports, and the exporter. -/
theorem recordsSlotsAndReports : Obligations.RecordsSlotsAndReports :=
  ⟨prsPartition_does, prsCheckpoint_waits, checkpointTimer_by_size, checkpointTimer_by_time, checkpointTimer_not_due, checkpointWritten_idle,
    checkpointWritten_held, checkpointWritten_writes, checkpointWritten_fails, prsBlockFail_failed, prsBlockFail_without_spare,
    prsBlockFail_retires, prsLogRead_does, prsInfo_does, fwLoad_does, fwActivate_does, fwStartClear_does, fwInfo_does, statIpfixSet_off,
    statIpfixSet_on, statLeg_does, statDevice_does, statJrnlFate_does, ipfixTemplate_due, ipfixTemplate_early, ipfixHealth_due, ipfix_disabled⟩

end

namespace Sys2Proof.Machine

open Sys2Proof

/-! Changes that are armed for the boundary which their command names (R60, R327, R328, R339). -/

theorem exec_chanDisable (q : Req) (s : State) : exec (.chanDisable q) s = .next (runOp opChanDisable 0x0302 q s) := rfl
theorem exec_chanTonePlay (q : Req) (s : State) : exec (.chanTonePlay q) s = .next (runOp opChanTonePlay 0x030F q s) := rfl
theorem exec_chanToneStop (q : Req) (s : State) : exec (.chanToneStop q) s = .next (runOp opChanToneStop 0x0310 q s) := rfl
theorem exec_chanConfJoin (q : Req) (s : State) : exec (.chanConfJoin q) s = .next (runOp opChanConfJoin 0x0322 q s) := rfl
theorem exec_chanConfLeave (q : Req) (s : State) : exec (.chanConfLeave q) s = .next (runOp opChanConfLeave 0x0323 q s) := rfl

/-- An operation that does nothing but arm its change acts so on every state that differs aside. -/
theorem acts_armed {d : OpDef} {op : Nat} {plan : List Nat} {q : Req} {s : State} {T : Option Inst} {r : List Nat}
    (happ : ∀ c v, Aside q.mbox.val s v → d.app c plan v q.payload =
      ⟨(v.armCmd c (legOf q.payload) T q.payload r).1, (v.armCmd c (legOf q.payload) T q.payload r).2.status, 0, [], false⟩) :
    Acts d op plan q s (armedWith op (legOf q.payload) T r q s).1 (armedWith op (legOf q.payload) T r q s).2.1 0
      (armedWith op (legOf q.payload) T r q s).2.2 := by
  intro v c hv hf hm _ ho _
  rw [happ c v hv]
  exact armed_acts rfl hv hf ho hm

theorem armOp_arms {len tOff op : Nat} {chk : State → Leg → Bytes → Chk} {mk : Req → Instr}
    (hx : ∀ q s, exec (mk q) s = .next (runOp (armOp len tOff chk) op q s)) (ht : opTable op = some (armOp len tOff chk)) :
    Does true (armOp len tOff chk) op mk (fun q s => armedWith op (legOf q.payload) (tOf (sub q.payload tOff 12)) [] q s) :=
  does_journaled hx (fun _ => rfl) ht fun _ _ _ _ => acts_armed fun _ _ _ => rfl

theorem chanDisable_off : DoesIf (fun q s => (s.leg (legOf q.payload)).st = .off) true opChanDisable 0x0302 .chanDisable (done fun _ s => s) := by
  refine doesIf_journaled exec_chanDisable (fun _ _ _ _ _ => rfl) rfl fun q s plan _ hst => ?_
  refine acts_of_aside (f := id) (fun c v hv => ?_) (fun _ hv => hv) fun _ => rfl
  show disableApp c v q.payload = _
  simp only [disableApp, hv.leg_eq, hst]
  rfl

theorem chanDisable_stopping : DoesIf (fun q s => (s.leg (legOf q.payload)).st = .stopping) true opChanDisable 0x0302 .chanDisable
    (done fun q s => s.setLeg (legOf q.payload) { s.leg (legOf q.payload) with pendEn := false, held := [] }) := by
  refine doesIf_journaled exec_chanDisable (fun _ _ _ _ _ => rfl) rfl fun q s plan _ hst => ?_
  refine acts_of_aside (f := fun v => v.setLeg (legOf q.payload) { s.leg (legOf q.payload) with pendEn := false, held := [] })
    (fun c v hv => ?_) (fun _ hv => hv.setLeg _ _) fun _ => rfl
  show disableApp c v q.payload = _
  simp only [disableApp, hv.leg_eq, hst]
  rfl

theorem chanDisable_running : DoesIf (fun q s => (s.leg (legOf q.payload)).st ≠ .off ∧ (s.leg (legOf q.payload)).st ≠ .stopping) true
    opChanDisable 0x0302 .chanDisable (fun q s => armedWith 0x0302 (legOf q.payload) (tOf (sub q.payload 4 12)) [] q s) := by
  refine doesIf_journaled exec_chanDisable (fun _ _ _ _ _ => rfl) rfl fun q s plan _ hst => acts_armed fun c v hv => ?_
  show disableApp c v q.payload = _
  obtain ⟨hoff, hstop⟩ := hst
  simp only [disableApp, hv.leg_eq]

theorem chanTonePlay_arms : Does true opChanTonePlay 0x030F .chanTonePlay (fun q s =>
    armedWith 0x030F (legOf q.payload) (tOf (sub q.payload (8 + 8 * u8 q.payload 5) 12)) [] q s) :=
  does_journaled exec_chanTonePlay (fun _ => rfl) rfl fun _ _ _ _ => acts_armed fun _ _ _ => rfl

end Sys2Proof.Machine

section
open Sys2Proof.Machine

/-- Settles O36: a disable by the state of its leg, and the changes that need a running leg. -/
theorem changesOfARunningLegAreArmed : Obligations.ChangesOfARunningLegAreArmed :=
  ⟨chanDisable_off, chanDisable_stopping, chanDisable_running, chanTonePlay_arms, armOp_arms exec_chanToneStop rfl,
    armOp_arms exec_chanConfJoin rfl, armOp_arms exec_chanConfLeave rfl⟩

end

namespace Sys2Proof.Machine

open Sys2Proof

/-! What a leg is charged with once a change of its graph or tail is armed (R52): alike on states that differ aside, and, beside the budgets,
noted in that leg alone. -/

theorem exec_chanGraph (q : Req) (s : State) : exec (.chanGraph q) s = .next (runOp opChanGraph 0x0303 q s) := rfl
theorem exec_chanEcho (q : Req) (s : State) : exec (.chanEcho q) s = .next (runOp opChanEcho 0x0309 q s) := rfl

section congr
variable {m : Nat} {s t : State} (h : Aside m s t)
include h

theorem Aside.dueAt_eq (w : When) : t.dueAt w = s.dueAt w := by
  unfold State.dueAt; rw [h.nextB_eq, h.effAt_eq, h.lenI_eq]

theorem Aside.armedUpTo_eq (l : Nat) (w : Option When) : t.armedUpTo l w = s.armedUpTo l w := by
  simp only [State.armedUpTo, h.armed_eq, h.dueAt_eq]

theorem Aside.costOf_eq (r : Nat × Option Nat) : t.costOf r = s.costOf r := by
  unfold State.costOf; rw [h.tmpl_eq, h.sets_eq]

theorem Aside.costUnder_eq (r : Nat × Option Nat) (as : List (Nat × Bytes)) : t.costUnder r as = s.costUnder r as := by
  induction as generalizing r with
  | nil => exact h.costOf_eq r
  | cons a as ih => rw [State.costUnder, State.costUnder, h.costOf_eq, ih]

theorem Aside.reserve_eq (l : Nat) : t.reserve l = s.reserve l := by
  simp only [State.reserve, State.graphOf, h.leg_eq, h.armedUpTo_eq, h.costUnder_eq]

theorem Aside.recharge (l : Nat) : Aside m (s.recharge l) (t.recharge l) := by
  simp only [State.recharge, h.leg_eq, h.reserve_eq]
  split
  · exact h.charge _ _
  · exact h

end congr

/-- The leg after its charge. -/
def State.rechargedLeg (s : State) (l : Nat) : Leg := if (s.leg l).admitted then (s.leg l).chargedWith (s.reserve l) else s.leg l

/-- A charge anew leaves all but its leg, the swath timer with its registers, and events. -/
theorem recharge_only (s : State) (l : Nat) : ∃ w x, Only chargeRegs { s.setSwt w with legs := x } (s.recharge l) ∧
    (s.recharge l).leg l = s.rechargedLeg l ∧ ∀ j, j ≠ l → (s.recharge l).leg j = s.leg j := by
  unfold State.recharge State.rechargedLeg
  split
  · obtain ⟨w, hw⟩ := charge_only s l (s.reserve l)
    refine ⟨w, _, hw, ?_, fun j hj => ?_⟩
    · rw [hw.leg_eq, leg_setLeg_same]
    · rw [hw.leg_eq, leg_setLeg_ne _ _ hj, State.leg_setSwt]
  · exact ⟨s.swt, s.legs, Only.refl _ s, rfl, fun _ _ => rfl⟩

theorem recharge_face (s : State) (l m : Nat) : ((s.recharge l).sess m).face = (s.sess m).face := by
  obtain ⟨w, x, hw, -⟩ := recharge_only s l
  exact hw.face_eq m

/-- The state once a change of graph or tail is armed and charged. -/
def State.armedAndCharged (s : State) (op : Nat) (T : Option Inst) (q : Req) : State :=
  (armedWith op (legOf q.payload) T [] q s).1.recharge (legOf q.payload)

section armedAndCharged
variable (s : State) (op : Nat) (T : Option Inst) (q : Req)

theorem armedAndCharged_leg : (s.armedAndCharged op T q).leg (legOf q.payload) =
    (armedWith op (legOf q.payload) T [] q s).1.rechargedLeg (legOf q.payload) := by
  obtain ⟨w, x, -, h, -⟩ := recharge_only (armedWith op (legOf q.payload) T [] q s).1 (legOf q.payload)
  exact h

theorem armedAndCharged_leg_ne {j : Nat} (hj : j ≠ legOf q.payload) : (s.armedAndCharged op T q).leg j = s.leg j := by
  obtain ⟨w, x, -, -, h⟩ := recharge_only (armedWith op (legOf q.payload) T [] q s).1 (legOf q.payload)
  exact h j hj

theorem armedAndCharged_armed : (s.armedAndCharged op T q).armed =
    s.armed ++ [⟨s.arm T, op, legOf q.payload, q.payload, [], q.mbox.val, (s.sess q.mbox.val).gen, none⟩] := by
  obtain ⟨w, x, h, -⟩ := recharge_only (armedWith op (legOf q.payload) T [] q s).1 (legOf q.payload)
  exact h.armed_eq

theorem armedAndCharged_beside :
    ({ s.armedAndCharged op T q with legs := s.legs, armed := s.armed, swt := s.swt } : State).beside = s.beside := by
  obtain ⟨w, x, h, -⟩ := recharge_only (armedWith op (legOf q.payload) T [] q s).1 (legOf q.payload)
  exact h.beside_eq s.legs s.armed s.swt

theorem armedAndCharged_reg {a : Nat} (hq : qcpReg a = false) (h1 : a / 0x10000 ≠ 1) : (s.armedAndCharged op T q).reg a = s.reg a := by
  obtain ⟨w, x, h, -⟩ := recharge_only (armedWith op (legOf q.payload) T [] q s).1 (legOf q.payload)
  obtain ⟨hn, hd⟩ := chargeRegs_not_drop hq h1
  exact h.regs a hn hd

theorem armedAndCharged_cfg : ((s.armedAndCharged op T q).leg (legOf q.payload)).cfg = (s.leg (legOf q.payload)).cfg := by
  rw [armedAndCharged_leg]; unfold State.rechargedLeg; split <;> rfl

end armedAndCharged

/-- An operation that arms its change and charges its leg anew does so on every state that differs aside. -/
theorem acts_armedAndCharged {d : OpDef} {op : Nat} {plan : List Nat} {q : Req} {s : State} {T : Option Inst}
    (happ : ∀ c v, Aside q.mbox.val s v → d.app c plan v q.payload = ⟨(v.armCmd c (legOf q.payload) T q.payload []).1.recharge (legOf q.payload),
      (v.armCmd c (legOf q.payload) T q.payload []).2.status, 0, [], false⟩) :
    Acts d op plan q s (s.armedAndCharged op T q) (s.arm T).status 0 [] := by
  intro v c hv hf hm _ ho _
  obtain ⟨ha, hw⟩ := hv.armCmd (c := Req.ctx q op s) (d := c) hm ho (face_gen hf) (legOf q.payload) T q.payload []
  refine ⟨_, ?_, ha.recharge (legOf q.payload), ?_⟩
  · rw [happ c v hv, hw]
    rfl
  · rw [recharge_face, armCmd_sess]

/-! The largest of a leg's costs (R52; log entry 48). -/

theorem costOf_le_costUnder (s : State) (r : Nat × Option Nat) (as : List (Nat × Bytes)) : (s.costOf r).cyc ≤ (s.costUnder r as).cyc := by
  cases as with
  | nil => exact Nat.le_refl _
  | cons a as => exact Nat.le_max_left _ _

theorem costOf_le_reserve (s : State) (l : Nat) : (s.costOf (s.graphOf l [])).cyc ≤ (s.reserve l).cyc := costOf_le_costUnder _ _ _

/-- The changes armed for a leg, where one is armed for it and none before. -/
theorem armedUpTo_single {s : State} {l : Nat} {a : Armed} (ha : a.leg = l) (hno : ∀ b ∈ s.armed, b.leg ≠ l) :
    ({ s with armed := s.armed ++ [a] } : State).armedUpTo l none = [a] := by
  have h0 : s.armed.filter (fun b => b.leg == l) = [] := List.filter_eq_nil_iff.2 fun b hb => by simpa using hno b hb
  simp [State.armedUpTo, List.filter_append, h0, ha]

theorem reserve_single {s : State} {l : Nat} {a : Armed} (ha : a.leg = l) (hno : ∀ b ∈ s.armed, b.leg ≠ l) :
    ({ s with armed := s.armed ++ [a] } : State).reserve l = (s.costOf (s.graphOf l [])).join (s.costOf (graphAfter (s.graphOf l []) (a.op, a.payload))) := by
  rw [State.reserve, armedUpTo_single ha hno]
  rfl

theorem chanGraph_charges (q : Req) (s : State) (plan : List Nat) (ha : Accepted opChanGraph 0x0303 q s plan) (hr : Room q s) :
    ∃ e st, Completes true (.chanGraph q) 0x0303 q s e st 0 [] ∧
      (e.leg (legOf q.payload)).phi = (s.leg (legOf q.payload)).phi ∧ (e.leg (legOf q.payload)).cfg = (s.leg (legOf q.payload)).cfg ∧
      (e.leg (legOf q.payload)).st = (s.leg (legOf q.payload)).st ∧
      ((s.leg (legOf q.payload)).admitted = true →
        (s.costOf (s.graphOf (legOf q.payload) [])).cyc ≤ (e.leg (legOf q.payload)).cost.cyc ∧
        ((∀ a ∈ s.armed, a.leg ≠ legOf q.payload) → (e.leg (legOf q.payload)).cost.cyc =
          max (s.costOf (s.graphOf (legOf q.payload) [])).cyc (s.costOf (num q.payload 4 2, (s.leg (legOf q.payload)).cfg.echo.tail)).cyc)) ∧
      (∀ j, j ≠ legOf q.payload → e.leg j = s.leg j) ∧
      (∃ w, e.armed = s.armed ++ [⟨w, 0x0303, legOf q.payload, q.payload, [], q.mbox.val, (s.sess q.mbox.val).gen, none⟩] ∧ st = w.status) ∧
      ({ e with legs := s.legs, armed := s.armed, swt := s.swt } : State).beside = s.beside ∧
      (∀ a, qcpReg a = false → a / 0x10000 ≠ 1 → e.reg a = s.reg a) := by
  have hc := completes_journaled (exec_chanGraph q s) ha rfl (Nat.zero_le _) hr rfl
    (acts_armedAndCharged (op := 0x0303) (T := tOf (sub q.payload 8 12)) fun _ _ _ => rfl)
  have hl := armedAndCharged_leg s 0x0303 (tOf (sub q.payload 8 12)) q
  refine ⟨_, _, hc, ?_, armedAndCharged_cfg _ _ _ _, ?_, fun hadm => ?_, fun j hj => armedAndCharged_leg_ne _ _ _ _ hj,
    ⟨_, armedAndCharged_armed _ _ _ _, rfl⟩, armedAndCharged_beside _ _ _ _, fun a hq h1 => armedAndCharged_reg _ _ _ _ hq h1⟩
  · rw [hl]; unfold State.rechargedLeg; split <;> rfl
  · rw [hl]; unfold State.rechargedLeg; split <;> rfl
  · have hl' := hl.trans (if_pos hadm)
    rw [hl']
    refine ⟨costOf_le_reserve (armedWith 0x0303 (legOf q.payload) (tOf (sub q.payload 8 12)) [] q s).1 _, fun hno => ?_⟩
    have h := reserve_single (a := ⟨s.arm (tOf (sub q.payload 8 12)), 0x0303, legOf q.payload, q.payload, [], q.mbox.val,
      (s.sess q.mbox.val).gen, none⟩) rfl hno
    exact congrArg Cost.cyc h

theorem chanEcho_off : DoesIf (fun q s => (s.leg (legOf q.payload)).st = .off) true opChanEcho 0x0309 .chanEcho (done fun q s =>
    s.setLeg (legOf q.payload)
      { s.leg (legOf q.payload) with cfg := { (s.leg (legOf q.payload)).cfg with echo := echoOf q.payload } }) := by
  refine doesIf_journaled exec_chanEcho (fun _ _ _ _ _ => rfl) rfl fun q s plan _ hst v c hv hf hm _ ho _ => ?_
  have hcfg : v.configure c (legOf q.payload) none q.payload = Done.ok (v.setLeg (legOf q.payload)
      { s.leg (legOf q.payload) with cfg := { (s.leg (legOf q.payload)).cfg with echo := echoOf q.payload } }) := by
    simp only [State.configure, hv.leg_eq, hst, if_true, ho]
    rfl
  refine ⟨_, ?_, hv.setLeg (legOf q.payload) _, rfl⟩
  simp only [opChanEcho, hcfg, hv.leg_eq, hst, if_true]
  rfl

theorem chanEcho_charges (q : Req) (s : State) (plan : List Nat) (ha : Accepted opChanEcho 0x0309 q s plan) (hr : Room q s)
    (hst : (s.leg (legOf q.payload)).st ≠ .off) :
    ∃ e st, Completes true (.chanEcho q) 0x0309 q s e st 0 [] ∧ (e.leg (legOf q.payload)).cfg = (s.leg (legOf q.payload)).cfg ∧
      (∀ j, j ≠ legOf q.payload → e.leg j = s.leg j) ∧
      (∃ w, e.armed = s.armed ++ [⟨w, 0x0309, legOf q.payload, q.payload, [], q.mbox.val, (s.sess q.mbox.val).gen, none⟩] ∧ st = w.status) ∧
      ({ e with legs := s.legs, armed := s.armed, swt := s.swt } : State).beside = s.beside ∧
      (∀ a, qcpReg a = false → a / 0x10000 ≠ 1 → e.reg a = s.reg a) := by
  have hc := completes_journaled (exec_chanEcho q s) ha rfl (Nat.zero_le _) hr rfl
    (acts_armedAndCharged (op := 0x0309) (T := none) fun c v hv => by
      simp only [opChanEcho, State.configure, hv.leg_eq, hst, if_false])
  exact ⟨_, _, hc, armedAndCharged_cfg _ _ _ _, fun j hj => armedAndCharged_leg_ne _ _ _ _ hj, ⟨_, armedAndCharged_armed _ _ _ _, rfl⟩,
    armedAndCharged_beside _ _ _ _, fun a hq h1 => armedAndCharged_reg _ _ _ _ hq h1⟩

end Sys2Proof.Machine

section
open Sys2Proof.Machine

/-- Settles O38: a graph change, and a change of tail of a leg that is OFF and of one that is not. -/
theorem graphChangesAreChargedAndArmed : Obligations.GraphChangesAreChargedAndArmed :=
  ⟨chanGraph_charges, chanEcho_off, chanEcho_charges⟩

end

namespace Sys2Proof.Machine

open Sys2Proof

/-! A step of TMU time as the swath timer sees it (R43, R45, R104): the outputs and players that follow it leave the time reached, local time,
the swath timer, and the registers below those of the outputs. -/

theorem exec_stepApply (s : State) : exec .stepApply s = .next s.applyPending := rfl

/-- `t` has the time, the swath timer and the registers below those of the timed outputs of `s`. -/
structure SwathTimeKept (s t : State) : Prop where
  acc : t.tmu.acc = s.tmu.acc
  loc : t.tmu.loc = s.tmu.loc
  swt : t.swt = s.swt
  regs : ∀ a, a < 0x20118 → t.reg a = s.reg a

theorem SwathTimeKept.refl (s : State) : SwathTimeKept s s := ⟨rfl, rfl, rfl, fun _ _ => rfl⟩

theorem SwathTimeKept.trans {s t u : State} (h : SwathTimeKept s t) (k : SwathTimeKept t u) : SwathTimeKept s u :=
  ⟨k.acc.trans h.acc, k.loc.trans h.loc, k.swt.trans h.swt, fun a ha => (k.regs a ha).trans (h.regs a ha)⟩

theorem SwathTimeKept.fld_eq {s t : State} (h : SwathTimeKept s t) {f : Fld} (hf : f.addr < 0x20118) : t.fld f = s.fld f := by
  unfold State.fld; rw [h.regs _ hf]

theorem swathTimeKept_setFld {s : State} {f : Fld} {v : Nat} (hf : 0x20118 ≤ f.addr) : SwathTimeKept s (s.setFld f v) :=
  ⟨rfl, rfl, rfl, fun _ ha => State.reg_setReg_ne _ _ (by omega)⟩

theorem swathTimeKept_stepTouts (s : State) (t : Inst) (fwd : Bool) : SwathTimeKept s (s.stepTouts t fwd) := by
  have main : ∀ (l : KV Tout) (u : State), SwathTimeKept s u → SwathTimeKept s (l.foldl (fun (st : State) (n, o) =>
      let (o', k) := o.step t fwd
      let st1 := (st.setTmu { st.tmu with tout := kset st.tmu.tout n o' })
      st1.setFld (R.TMU_TOUT_CTL_SKIP n) (min 65535 (st1.fld (R.TMU_TOUT_CTL_SKIP n) + k))) u) := by
    intro l
    induction l with
    | nil => exact fun _ h => h
    | cons p l ih =>
      refine fun u h => ih _ (h.trans ?_)
      have hskip : 0x20118 ≤ (R.TMU_TOUT_CTL_SKIP p.1).addr := Nat.le_add_right _ _
      exact SwathTimeKept.trans (t := u.setTmu { u.tmu with tout := kset u.tmu.tout p.1 (p.2.step t fwd).1 }) ⟨rfl, rfl, rfl, fun _ _ => rfl⟩
        (swathTimeKept_setFld hskip)
  exact main _ _ (SwathTimeKept.refl s)

theorem swathTimeKept_stepPlayers (s : State) (t : Inst) : SwathTimeKept s (s.stepPlayers t) := ⟨rfl, rfl, rfl, fun _ _ => rfl⟩

/-! What re-anchoring makes of the swath (R45, R46, R48). -/

/-- The instant of the next boundary after a step and the actual length of the swath up to it, which is at least half of L (R45). -/
def State.anchor (s : State) : Inst × Nat :=
  let b0 := nextMul s.lenI s.now
  let d0 := s.elapsed + (b0 - s.now)
  if 2 * d0 < s.lenI then (b0 + s.lenI, d0 + s.lenI) else (b0, d0)

/-- The state re-anchored as to its swath, which ends at `b` and has the length `d`, before a slip is recorded. -/
def State.anchoredAt (s : State) (b : Inst) (d : Nat) : State := (s.movePhases d).setSwt { (s.movePhases d).swt with nextT := b }

@[simp] theorem anchoredAt_nextT (s : State) (b : Inst) (d : Nat) : (s.anchoredAt b d).swt.nextT = b := rfl
@[simp] theorem anchoredAt_d (s : State) (b : Inst) (d : Nat) : (s.anchoredAt b d).swt.d = d := rfl
@[simp] theorem anchoredAt_reg (s : State) (b : Inst) (d a : Nat) : (s.anchoredAt b d).reg a = s.reg a := rfl
@[simp] theorem anchoredAt_now (s : State) (b : Inst) (d : Nat) : (s.anchoredAt b d).now = s.now := rfl

/-- The state with a slip of `ns` in a swath of length `d` recorded (R48). -/
def State.slipNoted (s : State) (ns : Int) (d : Nat) : State :=
  ((((s.setSwt { s.swt with slipped := true }).bump R.SWT_SLIP_CNT).setReg R.SWT_SLIP_DELTA (sat31 ns)).setFld R.SWT_SLIP_LEN_D
    (d / 65536)).raise R.SWT_EVT 1

theorem reanchor_slip {s : State} {d : Int} (hv : s.fld R.TMU_STAT_VALID = 1) (hb : s.swt.begun = true) (hd : s.lenNs < 2 * d.natAbs) :
    s.reanchor (d * 2 ^ 40) = (s.anchoredAt s.anchor.1 s.anchor.2).slipNoted d s.anchor.2 := by
  have habs : (d * 2 ^ 40).natAbs = d.natAbs * 2 ^ 40 := by rw [Int.natAbs_mul]; rfl
  have hslip : 2 * (d * 2 ^ 40).natAbs > s.lenI * 2 ^ 24 := by
    rw [habs, State.lenI, nsI]; omega
  have hns : (if d * 2 ^ 40 < 0 then -(((d * 2 ^ 40).natAbs / 2 ^ 40 : Nat) : Int) else (((d * 2 ^ 40).natAbs / 2 ^ 40 : Nat) : Int)) = d := by
    rw [habs, Nat.mul_div_cancel _ (by decide)]
    split <;> omega
  simp only [State.reanchor, hv, hb, hslip, hns, if_true, one_ne_zero, Bool.true_eq_false, if_false]
  unfold State.slipNoted State.anchoredAt State.anchor
  by_cases hshort : 2 * (s.elapsed + (nextMul s.lenI s.now - s.now)) < s.lenI
  · simp only [if_pos hshort]
  · simp only [if_neg hshort]

/-- A step below 2^31 ns reads back from its register. -/
theorem sgn_sat31 {d : Int} (h : d.natAbs < 2 ^ 31) : sgn 32 (sat31 d % 2 ^ 32) = d := by
  have hc : clampI d (-2147483647) 2147483647 = d := by
    unfold clampI; rw [if_neg (by omega), if_neg (by omega)]
  rw [sat31, hc, sgn, unsgn]
  simp only [Nat.mod_mod]
  split <;> omega

section slipNoted
variable (s : State) (ns : Int) (d : Nat)

theorem slipNoted_only : Only [R.SWT_SLIP_CNT, R.SWT_SLIP_DELTA, R.SWT_SLIP_LEN, R.SWT_EVT] (s.setSwt { s.swt with slipped := true })
    (s.slipNoted ns d) :=
  (((only_bump (by simp)).trans (only_setReg (by simp))).setFld (f := R.SWT_SLIP_LEN_D) (by simp [R.SWT_SLIP_LEN_D]) _).raise (by simp) _

theorem slipNoted_swt : (s.slipNoted ns d).swt = { s.swt with slipped := true } :=
  (congrArg State.swt (slipNoted_only s ns d).rest : (s.slipNoted ns d).bare.swt = _)

theorem slipNoted_now : (s.slipNoted ns d).now = s.now := (slipNoted_only s ns d).now_eq

theorem slipNoted_evt : tb ((s.slipNoted ns d).reg R.SWT_EVT) 0 = true := tb_raise (i := 0) _ (by decide) (by decide)

theorem slipNoted_cnt : (s.slipNoted ns d).reg R.SWT_SLIP_CNT = (s.reg R.SWT_SLIP_CNT + 1) % 2 ^ 32 := by
  rw [State.slipNoted, reg_raise_ne (by decide) (by decide), State.setFld, State.reg_setReg_ne _ _ (by decide),
    State.reg_setReg_ne _ _ (by decide), State.reg_bump_same, State.reg_setSwt]

theorem slipNoted_delta : (s.slipNoted ns d).reg R.SWT_SLIP_DELTA = sat31 ns % 2 ^ 32 := by
  rw [State.slipNoted, reg_raise_ne (by decide) (by decide), State.setFld, State.reg_setReg_ne _ _ (by decide), State.reg_setReg_same]

theorem slipNoted_len : (s.slipNoted ns d).fld R.SWT_SLIP_LEN_D = d / 65536 % 2 ^ 21 := by
  rw [State.slipNoted, fld_raise (by decide) (by decide), fld_setFld_same _ _ _ (by decide)]
  rfl

end slipNoted

/-! A pending step, applied (R73). -/

theorem combined_step {acc : Nat} {d : Int} (h0 : 0 ≤ (acc : Int) + d * 2 ^ 40)
    (h1 : (acc : Int) + d * 2 ^ 40 < ((2 ^ 48 * 1000000000 * 2 ^ 40 : Nat) : Int)) : (combined acc none (some d) : Int) = acc + d * 2 ^ 40 := by
  rw [combined]
  exact (Int.toNat_of_nonneg (Int.emod_nonneg _ (by decide))).trans (Int.emod_eq_of_lt h0 h1)

/-- A step reaches the swath timer as its re-anchoring, at the time reached. -/
theorem stepTo_reanchors {s : State} {acc' : Nat} (hv : s.fld R.TMU_STAT_VALID = 1) : ∃ u : State, s.stepTo acc' = u.reanchor ((acc' : Int) - s.tmu.acc) ∧
    u.tmu.loc = s.tmu.loc ∧ u.swt = s.swt ∧ ∀ a, a < 0x20118 → u.reg a = s.reg a := by
  let s1 := s.setTmu { s.tmu with acc := acc', steps := (s.tmu.steps ++ [(s.tmu.loc, ((acc' : Int) - s.tmu.acc) / 2 ^ 24)]).drop (s.tmu.steps.length - 15) }
  let u := if 0 < (acc' : Int) - s.tmu.acc then (s1.stepTouts s1.now true).stepPlayers s1.now else s1.stepTouts s1.now false
  have hu : SwathTimeKept s1 u := by
    show SwathTimeKept s1 (if _ then _ else _)
    split
    · exact (swathTimeKept_stepTouts _ _ _).trans (swathTimeKept_stepPlayers _ _)
    · exact swathTimeKept_stepTouts _ _ _
  have hval : u.fld R.TMU_STAT_VALID ≠ 0 := by
    rw [hu.fld_eq (by decide)]
    exact hv.symm ▸ one_ne_zero
  exact ⟨u, if_neg hval, hu.loc, hu.swt, hu.regs⟩

theorem stepApply_slip (s : State) (d : Int) (hv : s.fld R.TMU_STAT_VALID = 1) (hb : s.swt.begun = true) (hset : s.tmu.pendSet = none)
    (hstep : s.tmu.pendStep = some d) (h0 : 0 ≤ (s.tmu.acc : Int) + d * 2 ^ 40)
    (h1 : (s.tmu.acc : Int) + d * 2 ^ 40 < ((2 ^ 48 * 1000000000 * 2 ^ 40 : Nat) : Int)) (hd : s.lenNs < 2 * d.natAbs) :
    ∃ u : State, exec .stepApply s = .next ((u.anchoredAt u.anchor.1 u.anchor.2).slipNoted d u.anchor.2) ∧ u.elapsed = s.elapsed ∧ u.lenI = s.lenI ∧
      u.reg R.SWT_SLIP_CNT = s.reg R.SWT_SLIP_CNT := by
  have he : exec .stepApply s = .next ((s.setTmu { s.tmu with pendSet := none, pendStep := none }).stepTo (combined s.tmu.acc none (some d))) := by
    rw [exec_stepApply, State.applyPending, if_neg (by simp [hstep]), hset, hstep]
  obtain ⟨u, hu, hloc, hswt, hregs⟩ := stepTo_reanchors (s := s.setTmu { s.tmu with pendSet := none, pendStep := none })
    (acc' := combined s.tmu.acc none (some d)) hv
  have hfld : ∀ f : Fld, f.addr < 0x20118 → u.fld f = s.fld f := fun f hf => by unfold State.fld; rw [hregs _ hf]; rfl
  have hlen : u.lenNs = s.lenNs := by unfold State.lenNs; rw [hfld _ (by decide)]
  have hdelta : (combined s.tmu.acc none (some d) : Int) - s.tmu.acc = d * 2 ^ 40 := by rw [combined_step h0 h1]; omega
  refine ⟨u, ?_, ?_, ?_, hregs _ (by decide)⟩
  · have hr : u.reanchor (d * 2 ^ 40) = _ := reanchor_slip ((hfld _ (by decide)).trans hv) (hswt ▸ hb) (hlen ▸ hd)
    rw [he, hu, ← hr]
    exact congrArg (fun x => Host.Outcome.next (u.reanchor x)) hdelta
  · unfold State.elapsed; rw [hloc, hswt]; rfl
  · unfold State.lenI; rw [hlen]

end Sys2Proof.Machine

section
open Sys2Proof.Machine

/-- Settles O7: the step re-anchors the swath, and what that leaves is recorded as a slip. -/
theorem aSlipIsRecorded : Obligations.ASlipIsRecorded := by
  intro s d hv hb hset hstep h0 h1 hd h31
  obtain ⟨u, he, hel, hlen, hcnt⟩ := stepApply_slip s d hv hb hset hstep h0 h1 hd
  have hswt := slipNoted_swt (u.anchoredAt u.anchor.1 u.anchor.2) d u.anchor.2
  refine ⟨_, he, slipNoted_evt _ _ _, ?_, ?_, ?_, ?_, ?_⟩
  · rw [slipNoted_cnt, anchoredAt_reg, hcnt]
  · rw [slipNoted_delta, sgn_sat31 h31]
  · rw [slipNoted_len, hswt, anchoredAt_d]
  · rw [hswt]
  · simp only [hswt, slipNoted_now, anchoredAt_now, anchoredAt_nextT, anchoredAt_d, ← hel, ← hlen]
    by_cases hshort : 2 * (u.elapsed + (nextMul u.lenI u.now - u.now)) < u.lenI
    · simp only [State.anchor, if_pos hshort, and_self]
    · simp only [State.anchor, if_neg hshort, and_self]

end

namespace Sys2Proof.Machine

open Sys2Proof

/-! The budgets and the length of the swath timer, alike on states that differ aside (R35, R54, R600). -/

section congr
variable {m : Nat} {s t : State} (h : Aside m s t)
include h

theorem Aside.foldl {α : Type} {f g : State → α → State} (l : List α) (hf : ∀ u v x, Aside m u v → Aside m (f u x) (g v x)) :
    Aside m (l.foldl f s) (l.foldl g t) := by
  induction l generalizing s t with
  | nil => exact h
  | cons x l ih => exact ih (hf _ _ _ h)

theorem Aside.updCyc : Aside m s.updCyc t.updCyc := by
  simp only [State.updCyc, h.swtFld_eq (f := R.SWT_CYC_PCT_USE_PCT) rfl, h.swtFld_eq (f := R.SWT_UNITS_N_CORE) rfl, h.lenNs_eq]
  exact (h.swtSetFld (f := R.SWT_CYC_BUD_BC) rfl _).swtSetFld (f := R.SWT_CYC_BUD_CORE_SHARE) rfl _

theorem Aside.tndNewLen : Aside m s.tndNewLen t.tndNewLen := by
  have hwin : t.winMax = s.winMax := by unfold State.winMax; rw [h.lenNs_eq]
  have hbud : t.budMax = s.budMax := by unfold State.budMax; rw [h.swtFld_eq (f := R.SWT_CFG_LEN) rfl]
  have hport : t.fld R.TND_PORT_BUD_KIB = s.fld R.TND_PORT_BUD_KIB := h.fld_eq (by decide)
  simp only [State.tndNewLen, hwin, hbud, hport]
  exact (h.setFld (f := R.TND_WIN_NS) (by decide) _).setFld (f := R.TND_PORT_BUD_KIB) (by decide) _

theorem Aside.phase_eq : t.phase = s.phase := by unfold State.phase; rw [h.swtFld_eq (f := R.SWT_STAT_PHASE) rfl]

theorem Aside.elapsed_eq : t.elapsed = s.elapsed := by unfold State.elapsed; rw [h.tmu_eq, h.swt_eq]

theorem Aside.movePhases (d : Nat) : Aside m (s.movePhases d) (t.movePhases d) := by
  simp only [State.movePhases, h.phase_eq, h.swt_eq]
  exact h.setSwt _

theorem Aside.newLen : Aside m s.newLen t.newLen := by
  have hn := h.tndNewLen
  have hval : t.tndNewLen.fld R.TMU_STAT_VALID = s.tndNewLen.fld R.TMU_STAT_VALID := hn.fld_eq (by decide)
  simp only [State.newLen, hn.lenI_eq, hn.now_eq, hn.swt_eq, hn.elapsed_eq, hval]
  split
  · exact (hn.setSwt _).movePhases _
  · split
    · exact hn.setSwt _
    · exact hn

end congr

theorem updOver_face (s : State) (m : Nat) : (s.updOver.sess m).face = (s.sess m).face := by
  obtain ⟨w, hw⟩ := updOver_only s
  exact hw.face_eq m

@[simp] theorem updCyc_sess (s : State) (m : Nat) : s.updCyc.sess m = s.sess m := rfl

theorem newLen_sess (s : State) (m : Nat) : s.newLen.sess m = s.sess m := by
  simp only [State.newLen]
  split
  · rfl
  · split <;> rfl

/-- The window and the budget of the tandem ports leave the registers of the swath timer and of time. -/
theorem reg_tndNewLen {s : State} {a : Nat} (h : a / 0x10000 ≠ 12) : s.tndNewLen.reg a = s.reg a := by
  have h1 : R.TND_PORT_BUD ≠ a := by rintro rfl; exact h rfl
  have h2 : R.TND_WIN ≠ a := by rintro rfl; exact h rfl
  exact (State.reg_setReg_ne _ _ h1).trans (State.reg_setReg_ne _ _ h2)

theorem fld_tndNewLen {s : State} {f : Fld} (h : f.addr / 0x10000 ≠ 12) : s.tndNewLen.fld f = s.fld f := by
  unfold State.fld; rw [reg_tndNewLen h]

theorem lenI_tndNewLen (s : State) : s.tndNewLen.lenI = s.lenI := by
  unfold State.lenI State.lenNs; rw [fld_tndNewLen (by decide)]

/-- A change of length moves the next boundary of a swath in progress to the first multiple of the new length after now (R35). -/
theorem newLen_begun (s : State) (h : s.swt.begun = true) : s.newLen.swt.nextT = (s.now / s.lenI + 1) * s.lenI ∧
    s.newLen.swt.d = s.elapsed + ((s.now / s.lenI + 1) * s.lenI - s.now) ∧ s.newLen.tmu = s.tmu ∧ s.newLen.legs = s.legs := by
  have e : s.newLen = (s.tndNewLen.setSwt { s.tndNewLen.swt with nextT := (s.now / s.lenI + 1) * s.lenI }).movePhases
      (s.elapsed + ((s.now / s.lenI + 1) * s.lenI - s.now)) := by
    rw [State.newLen, lenI_tndNewLen]
    exact if_pos h
  rw [e]
  exact ⟨rfl, rfl, rfl, rfl⟩

/-- Before the first swath it moves the first boundary (R600). -/
theorem newLen_not_begun (s : State) (h : s.swt.begun = false) (hv : s.fld R.TMU_STAT_VALID = 1) :
    s.newLen.swt.firstT = some ((s.now / s.lenI + 1) * s.lenI) := by
  have h' : s.tndNewLen.swt.begun = false := h
  have hv' : s.tndNewLen.fld R.TMU_STAT_VALID = 1 := (fld_tndNewLen (by decide)).trans hv
  simp only [State.newLen, lenI_tndNewLen, h', hv', Bool.false_eq_true, if_false, if_true]
  rfl

/-- Choices that are related stay so under functions that keep them so. -/
theorem optionRel_map {α β γ δ : Type} {P : α → β → Prop} {Q : γ → δ → Prop} {f : α → γ} {g : β → δ} {x : Option α} {y : Option β}
    (h : Option.Rel P x y) (hf : ∀ a b, P a b → Q (f a) (g b)) : Option.Rel Q (x.map f) (y.map g) := by
  cases h with
  | some hp => exact .some (hf _ _ hp)
  | none => exact .none

/-! The memory of the part and its gleaner, alike on states that differ aside: what starting a stage-in looks at and changes (R377, R383, R385,
R395, R396). -/

section congr
variable {m : Nat} {s t : State} (h : Aside m s t)
include h

theorem Aside.setMmu (x : Mmu) : Aside m (s.setMmu x) (t.setMmu x) := h.withMmu x
theorem Aside.setGln (x : Gln) : Aside m (s.setGln x) (t.setGln x) := h.withGln x
theorem Aside.deng_eq (e : Nat) : t.deng e = s.deng e := by unfold State.deng; rw [h.mmu_eq]
theorem Aside.dring_eq (r : Nat) : t.dring r = s.dring r := by unfold State.dring; rw [h.mmu_eq]
theorem Aside.unitT_eq (cls idx : Nat) : t.unitT cls idx = s.unitT cls idx := by unfold State.unitT; rw [h.gln_eq]
theorem Aside.awaiting_eq (cls idx : Nat) : t.awaiting cls idx = s.awaiting cls idx := by unfold State.awaiting; rw [h.unitT_eq]
theorem Aside.underTest_eq (cls idx : Nat) : t.underTest cls idx = s.underTest cls idx := by
  unfold State.underTest State.sliceOn; rw [h.gln_eq]
theorem Aside.sliceFull_eq (r : Slice) : t.sliceFull r = s.sliceFull r := by unfold State.sliceFull; rw [h.loc_eq]
theorem Aside.swn_eq : t.swn = s.swn := by unfold State.swn; rw [h.swt_eq]
theorem Aside.draw_eq (w : Nat) : t.draw w = s.draw w := by unfold State.draw; rw [h.free_eq]
theorem Aside.drawBytes_eq (n : Nat) : t.drawBytes n = s.drawBytes n := by unfold State.drawBytes; rw [h.draw_eq]

theorem Aside.glnRecord (r : Slice) (verdict cause done : Nat) (sig : Bytes) :
    Aside m (s.glnRecord r verdict cause done sig) (t.glnRecord r verdict cause done sig) := by
  simp only [State.glnRecord, h.now_eq, h.swn_eq, h.gln_eq]
  split
  · exact (h.bump (by decide)).raise (by decide) (by decide) _
  · exact h.setGln _

theorem Aside.dropSlice (r : Slice) : Aside m (s.dropSlice r) (t.dropSlice r) := by
  simp only [State.dropSlice, State.setGln_mmu, State.setGln_gln, h.gln_eq, h.mmu_eq]
  split
  · exact ((h.setGln _).withMmu _).setFld (f := R.GLN_STAT_RUN) (by decide) _
  · exact (h.setGln _).setFld (f := R.GLN_STAT_RUN) (by decide) _

theorem Aside.setUnitT (cls idx : Nat) (u : UnitT) : Aside m (s.setUnitT cls idx u) (t.setUnitT cls idx u) := by
  unfold State.setUnitT; rw [h.gln_eq]; exact h.setGln _

theorem Aside.cutSlice (r : Slice) (cause : Nat) : Aside m (s.cutSlice r cause) (t.cutSlice r cause) := by
  have hd := fun v done sig =>
    ((h.setGln { s.gln with cut := s.gln.cut.filter (· != unitKey r.cls r.idx) ++ [unitKey r.cls r.idx] }).dropSlice r).glnRecord r v cause done sig
  simp only [State.cutSlice, h.sliceFull_eq, h.loc_eq, h.draw_eq, h.drawBytes_eq, h.gln_eq, (hd _ _ _).unitT_eq]
  split
  · exact h
  · refine (((hd _ _ _).setUnitT _ _ _).drawn).bump ?_
    split <;> decide

theorem Aside.abortSlice (r : Slice) : Aside m (s.abortSlice r) (t.abortSlice r) := by
  simp only [State.abortSlice, h.sliceFull_eq]
  split
  · exact h.cutSlice r 1
  · exact ((h.cutSlice r 1).bump (by decide)).raise (by decide) (by decide) _

theorem Aside.engsOn_eq (k : Nat) : t.engsOn k = s.engsOn k := by
  simp only [State.engsOn, h.deng_eq, h.awaiting_eq]

/-- Engines are chosen alike, and the states left differ aside. -/
theorem Aside.engOf (l : List Nat) (pick : List Nat → Option Nat) :
    Option.Rel (fun p q => q.1 = p.1 ∧ Aside m p.2 q.2) (s.engOf l pick) (t.engOf l pick) := by
  simp only [State.engOf, State.latestSlice, h.underTest_eq, h.gln_eq]
  split
  · exact .some ⟨rfl, h⟩
  · generalize List.foldl _ none _ = r
    cases r with
    | none => exact .none
    | some r => exact .some ⟨rfl, h.abortSlice r⟩

theorem Aside.pickEng (cluster : Nat) :
    Option.Rel (fun p q => q.1 = p.1 ∧ Aside m p.2 q.2) (s.pickEng cluster) (t.pickEng cluster) := by
  simp only [State.pickEng, h.engsOn_eq, h.mmu_eq]
  split
  · generalize List.foldl _ none _ = near
    cases near with
    | none => exact .none
    | some k => exact optionRel_map (h.engOf _ _) fun _ _ hp => ⟨hp.1, hp.2.bump (by decide)⟩
  · refine optionRel_map (h.engOf _ _) fun p q hp => ⟨hp.1, ?_⟩
    simp only [hp.1, hp.2.mmu_eq]
    exact hp.2.setMmu _

theorem Aside.ctxValid_eq (c : Nat) : t.ctxValid c = s.ctxValid c := by unfold State.ctxValid; rw [h.mmu_eq]

theorem Aside.paOk_eq (pa : Nat) : t.paOk pa = s.paOk pa := by
  unfold State.paOk State.hbmGib; rw [h.fld_eq (f := R.MMU_HBM_STACKS) (by decide)]

theorem Aside.readEntry_eq (pa : Nat) : t.readEntry pa = s.readEntry pa := by
  unfold State.readEntry State.memRead State.memByte; rw [h.paOk_eq, h.mmu_eq]

theorem Aside.leaf_eq (e at_ va : Nat) : t.leaf e at_ va = s.leaf e at_ va := by
  simp only [State.leaf, h.paOk_eq]

theorem Aside.walkFrom_eq (va k table : Nat) : t.walkFrom va k table = s.walkFrom va k table := by
  induction k generalizing table with
  | zero => rfl
  | succ k ih => simp only [State.walkFrom, h.readEntry_eq, h.leaf_eq, ih]

theorem Aside.fixedMapped_eq (va : Nat) : t.fixedMapped va = s.fixedMapped va := by
  unfold State.fixedMapped State.patEnd State.patBase State.grnBase
  rw [h.swtFld_eq (f := R.SWT_LOFT_BUD_KIB) rfl,
    h.fld_eq (f := R.MMU_HBM_LBS_GIB) (by decide), h.fld_eq (f := R.MMU_HBM_GRN_GIB) (by decide), h.fld_eq (f := R.MMU_HBM_PAT_GIB) (by decide)]

theorem Aside.walk_eq (ctx va : Nat) : t.walk ctx va = s.walk ctx va := by
  simp only [State.walk, State.fixedLeaf, h.ctxValid_eq, h.fixedMapped_eq, h.walkFrom_eq, h.mmu_eq]

theorem Aside.dmaAddr_eq (u ctx va : Nat) (write : Bool) : t.dmaAddr u ctx va write = s.dmaAddr u ctx va write := by
  simp only [State.dmaAddr, State.xlate, State.cached, h.walk_eq, h.mmu_eq]

theorem Aside.memSet (pa : Nat) (v : Byte) : Aside m (s.memSet pa v) (t.memSet pa v) := by
  unfold State.memSet; rw [h.mmu_eq]; exact h.setMmu _

end congr

/-- The kennel translates without a TLB of R380, and so counts no look-up. -/
theorem lookup_noTlb (s : State) (ctx va : Nat) : s.lookup noTlb ctx va = s := if_pos (.inr (.inl (by decide)))

section congr
variable {m : Nat} {s t : State} (h : Aside m s t)
include h

theorem Aside.vwrite (ctx va : Nat) (b : Bytes) : Aside m (s.vwrite noTlb ctx va b) (t.vwrite noTlb ctx va b) := by
  refine h.foldl _ fun u v p hu => ?_
  simp only [lookup_noTlb, hu.dmaAddr_eq]
  split
  · exact hu
  · exact hu.memSet _ _

theorem Aside.setDring (r : Nat) (x : DRing) : Aside m (s.setDring r x) (t.setDring r x) := by
  unfold State.setDring; rw [h.mmu_eq]; exact h.setMmu _

theorem Aside.postArea (a : Area) : Aside m (s.postArea a).1 (t.postArea a).1 ∧ (t.postArea a).2 = (s.postArea a).2 := by
  have hb : t.areaDesc a = s.areaDesc a := by
    simp only [State.areaDesc, State.backingVa, h.fld_eq (f := R.MMU_HBM_LBS_GIB) (by decide)]
  have hw := h.vwrite (s.dring a.ring).ctx ((s.dring a.ring).dbase + 32 * (s.dring a.ring).tail) (s.areaDesc a).b
  simp only [State.postArea, State.post, hb, h.dring_eq, hw.dring_eq, and_true]
  exact hw.setDring _ _

theorem Aside.putArea (a b : Area) : Aside m (s.putArea a b) (t.putArea a b) := by
  unfold State.putArea; rw [h.mmu_eq]; exact h.setMmu _

theorem Aside.pinArea (pa len : Nat) : Aside m (s.pinArea pa len) (t.pinArea pa len) := by
  refine h.foldl _ fun u v f hu => ?_
  simp only [State.setPin, State.pinOf, hu.mmu_eq]
  exact hu.setMmu _

theorem Aside.peakTo {f : Fld} (hf : qcpReg f.addr = false) (v : Nat) : Aside m (s.peakTo f v) (t.peakTo f v) := by
  simp only [State.peakTo, h.fld_eq hf]
  split
  · exact h.setFld hf v
  · exact h

theorem Aside.stageUsed_eq : t.stageUsed = s.stageUsed := by unfold State.stageUsed; rw [h.mmu_eq]

theorem Aside.writingBack_eq (l : Nat) : t.writingBack l = s.writingBack l := by unfold State.writingBack; rw [h.mmu_eq]

end congr

/-- A waiting stage-in starts on an engine that has been picked for it: its place in the pool, its descriptor, its pins (R383, R396). -/
def State.stageOn (s : State) (a : Area) (e : Nat) : State :=
  let pa := firstFit poolBase (poolEnd (s.fld R.SWT_LOFT_BUD_KIB)) a.len s.poolSpans
  let p := s.postArea { a with eng := e, st := 1, pa := pa }
  let u := (p.1.putArea a p.2).pinArea pa a.len
  u.peakTo R.MMU_STAGE_PEAK_PEAK (cdiv u.stageUsed 16)

/-- Whether a waiting stage-in goes on waiting: its leg's own write-back has not ended, there is no room, or others wait before it. -/
abbrev State.stageWaits (s : State) (a : Area) : Prop :=
  s.writingBack a.leg ∨ s.fld R.SWT_LOFT_BUD_KIB < s.stageUsed + a.kib ∨
    s.mmu.areas.any fun q => q.st == 0 && q != a && ((s.mmu.areas.takeWhile (· != a)).contains q) && !s.writingBack q.leg

/-- One of the stage-ins that wait starts where it can. -/
def State.startStage (s : State) (a : Area) : State :=
  if s.stageWaits a then s
  else match s.pickEng (s.leg a.leg).cluster with
    | none => s
    | some (e, t) => t.stageOn a e

theorem startStages_eq (s : State) : s.startStages = (s.mmu.areas.filter fun a => a.st == 0).foldl State.startStage s := rfl

section congr
variable {m : Nat} {s t : State} (h : Aside m s t)
include h

theorem Aside.stageOn (a : Area) (e : Nat) : Aside m (s.stageOn a e) (t.stageOn a e) := by
  have hspans : t.poolSpans = s.poolSpans := by unfold State.poolSpans; rw [h.mmu_eq]
  obtain ⟨hp, hd⟩ := h.postArea
    { a with eng := e, st := 1, pa := firstFit poolBase (poolEnd (s.fld R.SWT_LOFT_BUD_KIB)) a.len s.poolSpans }
  simp only [State.stageOn, h.swtFld_eq (f := R.SWT_LOFT_BUD_KIB) rfl, hspans, hd, ((hp.putArea _ _).pinArea _ _).stageUsed_eq]
  exact ((hp.putArea _ _).pinArea _ _).peakTo (f := R.MMU_STAGE_PEAK_PEAK) (by decide) _

theorem Aside.stageWaits_iff (a : Area) : t.stageWaits a ↔ s.stageWaits a := by
  simp only [State.stageWaits, h.writingBack_eq, h.mmu_eq, h.swtFld_eq (f := R.SWT_LOFT_BUD_KIB) rfl, h.stageUsed_eq]

theorem Aside.startStage (a : Area) : Aside m (s.startStage a) (t.startStage a) := by
  by_cases hw : s.stageWaits a
  · rw [State.startStage, State.startStage, if_pos hw, if_pos ((h.stageWaits_iff a).2 hw)]
    exact h
  · rw [State.startStage, State.startStage, if_neg hw, if_neg fun k => hw ((h.stageWaits_iff a).1 k), h.leg_eq]
    have hp := h.pickEng (s.leg a.leg).cluster
    generalize s.pickEng (s.leg a.leg).cluster = x at *
    generalize t.pickEng (s.leg a.leg).cluster = y at *
    cases hp with
    | @some p r hp =>
      obtain ⟨e, u⟩ := p
      obtain ⟨_, w⟩ := r
      obtain ⟨rfl, hu⟩ := hp
      exact hu.stageOn a _
    | none => exact h

theorem Aside.startStages : Aside m s.startStages t.startStages := by
  rw [startStages_eq, startStages_eq, h.mmu_eq]
  exact h.foldl _ fun _ _ a hu => hu.startStage a

end congr

/-! Sessions see of a stage-in's start at most events. -/

section face
variable (m : Nat)

theorem glnRecord_face (s : State) (r : Slice) (v c d : Nat) (g : Bytes) : ((s.glnRecord r v c d g).sess m).face = (s.sess m).face := by
  simp only [State.glnRecord]
  split
  · exact raise_face _ _ _ _
  · rfl

theorem dropSlice_sess (s : State) (r : Slice) : (s.dropSlice r).sess m = s.sess m := by
  simp only [State.dropSlice]
  split <;> rfl

theorem cutSlice_face (s : State) (r : Slice) (cause : Nat) : ((s.cutSlice r cause).sess m).face = (s.sess m).face := by
  simp only [State.cutSlice]
  split
  · rfl
  · refine (glnRecord_face m _ _ _ _ _ _).trans ?_
    rw [dropSlice_sess]
    rfl

theorem abortSlice_face (s : State) (r : Slice) : ((s.abortSlice r).sess m).face = (s.sess m).face := by
  simp only [State.abortSlice]
  split
  · exact cutSlice_face m s r 1
  · exact (raise_face _ _ _ _).trans (cutSlice_face m s r 1)

theorem engOf_face {s t : State} {l : List Nat} {pick : List Nat → Option Nat} {e : Nat} (h : s.engOf l pick = some (e, t)) :
    (t.sess m).face = (s.sess m).face := by
  simp only [State.engOf] at h
  split at h
  · cases h; rfl
  · obtain ⟨r, -, hr⟩ := Option.map_eq_some_iff.1 h
    cases hr
    exact abortSlice_face m s r

theorem pickEng_face {s t : State} {k e : Nat} (h : s.pickEng k = some (e, t)) : (t.sess m).face = (s.sess m).face := by
  simp only [State.pickEng] at h
  split at h
  · obtain ⟨j, -, hj⟩ := Option.bind_eq_some_iff.1 h
    obtain ⟨⟨i, u⟩, hu, hi⟩ := Option.map_eq_some_iff.1 hj
    cases hi
    exact (engOf_face m hu : (u.sess m).face = _)
  · obtain ⟨⟨i, u⟩, hu, hi⟩ := Option.map_eq_some_iff.1 h
    cases hi
    exact (engOf_face m hu : (u.sess m).face = _)

/-- A fold leaves a session as its step does. -/
theorem foldl_sess {α : Type} {f : State → α → State} (hf : ∀ t x, (f t x).sess m = t.sess m) :
    ∀ (l : List α) (s : State), (l.foldl f s).sess m = s.sess m
  | [], _ => rfl
  | x :: l, s => (foldl_sess hf l (f s x)).trans (hf s x)

theorem vwrite_sess (s : State) (ctx va : Nat) (b : Bytes) : (s.vwrite noTlb ctx va b).sess m = s.sess m := by
  refine foldl_sess m (fun t p => ?_) _ _
  simp only [lookup_noTlb]
  split <;> rfl

theorem postArea_sess (s : State) (a : Area) : (s.postArea a).1.sess m = s.sess m := vwrite_sess m s _ _ _

theorem pinArea_sess (s : State) (pa len : Nat) : (s.pinArea pa len).sess m = s.sess m := by
  refine foldl_sess m (fun t f => ?_) _ _
  rfl

theorem putArea_sess (s : State) (a b : Area) : (s.putArea a b).sess m = s.sess m := rfl

theorem peakTo_sess (s : State) (f : Fld) (v : Nat) : (s.peakTo f v).sess m = s.sess m := by
  unfold State.peakTo
  split <;> rfl

theorem stageOn_sess (s : State) (a : Area) (e : Nat) : (s.stageOn a e).sess m = s.sess m := by
  simp only [State.stageOn, peakTo_sess, pinArea_sess, putArea_sess, postArea_sess]

theorem startStage_face (s : State) (a : Area) : ((s.startStage a).sess m).face = (s.sess m).face := by
  unfold State.startStage
  split
  · rfl
  · split
    · rfl
    · rename_i e t hp
      rw [stageOn_sess]
      exact pickEng_face m hp

theorem startStages_face (s : State) : ((s.startStages).sess m).face = (s.sess m).face := by
  rw [startStages_eq]
  generalize s.mmu.areas.filter _ = l
  induction l generalizing s with
  | nil => rfl
  | cons a l ih => exact (ih _).trans (startStage_face m s a)

end face

/-! The registers of the swath timer that act when they are written (R35, R54, R65). -/

theorem exec_swtCycPctWrite (c : RegCmd) (v : Word) (s : State) :
    exec (.swtCycPctWrite c v) s = .next (writeOne c R.SWT_CYC_PCT v.toNat s) := rfl
theorem exec_swtLoftBudWrite (c : RegCmd) (v : Word) (s : State) :
    exec (.swtLoftBudWrite c v) s = .next (writeOne c R.SWT_LOFT_BUD v.toNat s) := rfl
theorem exec_swtLenWrite (c : RegCmd) (v : Word) (s : State) : exec (.swtLenWrite c v) s = .next (writeOne c R.SWT_CFG v.toNat s) := rfl

theorem swt_written_defined : (regAt R.SWT_CYC_PCT).isSome ∧ (regAt R.SWT_LOFT_BUD).isSome ∧ (regAt R.SWT_CFG).isSome := by decide +kernel

theorem writePair_cycPct (s : State) (v : Nat) : s.writePair R.SWT_CYC_PCT v = (s.stored R.SWT_CYC_PCT v).updCyc.updOver := by
  rw [State.writePair, if_pos swt_written_defined.1]
  rfl

theorem writePair_loftBud (s : State) (v : Nat) : s.writePair R.SWT_LOFT_BUD v = (s.stored R.SWT_LOFT_BUD v).updOver.startStages := by
  rw [State.writePair, if_pos swt_written_defined.2.1]
  rfl

theorem writePair_swtCfg (s : State) (v : Nat) : s.writePair R.SWT_CFG v =
    if bits v 1 0 = bits (s.reg R.SWT_CFG) 1 0 then s.stored R.SWT_CFG v else (s.stored R.SWT_CFG v).newLen := by
  rw [State.writePair, if_pos swt_written_defined.2.2]
  rfl

theorem tmuLate_swt {s : State} {a v : Nat} (h1 : a / 0x10000 = 1) : tmuLate s a v = false := by
  have : ¬ 0x20100 ≤ a := by omega
  simp [tmuLate, this]

theorem fieldsAt_cycPct : fieldsAt R.SWT_CYC_PCT = [⟨6, 0, .rw, .h, 88⟩] := by decide +kernel

/-- USE_PCT reads as written. -/
theorem usePct_stored (s : State) (v : Nat) : (s.stored R.SWT_CYC_PCT v).fld R.SWT_CYC_PCT_USE_PCT = bits v 6 0 := by
  rw [State.stored, fieldsAt_cycPct]
  exact (fld_setFld_same s R.SWT_CYC_PCT_USE_PCT _ (by decide)).trans (Nat.mod_eq_of_lt (bits_lt v 6 0))

theorem fld_stored_ne {s : State} {a v : Nat} {f : Fld} (h : a ≠ f.addr) : (s.stored a v).fld f = s.fld f := fld_setReg_ne h

theorem updCyc_stored (s : State) (v : Nat) : (s.stored R.SWT_CYC_PCT v).updCyc =
    ((s.stored R.SWT_CYC_PCT v).setFld R.SWT_CYC_BUD_BC (s.fld R.SWT_UNITS_N_CORE * 2 * s.lenNs * bits v 6 0 / 100 / 1024)).setFld
      R.SWT_CYC_BUD_CORE_SHARE (2 * s.lenNs * bits v 6 0 / 100 / 1024) := by
  have hlen : (s.stored R.SWT_CYC_PCT v).lenNs = s.lenNs := by
    unfold State.lenNs; rw [fld_stored_ne (by decide)]
  rw [State.updCyc, usePct_stored, hlen, fld_stored_ne (f := R.SWT_UNITS_N_CORE) (by decide)]
  rfl

theorem swtCycPctWrite_writes (v : Word) : Writes (fun c => .swtCycPctWrite c v) (fun _ => R.SWT_CYC_PCT) (fun _ => v.toNat) (fun s =>
    let p := bits v.toNat 6 0
    (((s.stored R.SWT_CYC_PCT v.toNat).setFld R.SWT_CYC_BUD_BC (s.fld R.SWT_UNITS_N_CORE * 2 * s.lenNs * p / 100 / 1024)).setFld
      R.SWT_CYC_BUD_CORE_SHARE (2 * s.lenNs * p / 100 / 1024)).updOver) := by
  refine writes_of_writePair (fun c s => exec_swtCycPctWrite c v s) (by decide) v.isLt (by decide) (fun _ => tmuLate_swt (by decide))
    (fun m s u h => ?_) fun m u => ?_
  · rw [writePair_cycPct]
    simp only [← updCyc_stored]
    exact (h.stored (by decide) _).updCyc.updOver
  · rw [writePair_cycPct, updOver_face]
    rfl

theorem swtLenWrite_writes (v : Word) : Writes (fun c => .swtLenWrite c v) (fun _ => R.SWT_CFG) (fun _ => v.toNat) (fun s =>
    let t := s.stored R.SWT_CFG v.toNat
    if bits v.toNat 1 0 = bits (s.reg R.SWT_CFG) 1 0 then t else t.newLen) := by
  refine writes_of_writePair (fun c s => exec_swtLenWrite c v s) (by decide) v.isLt (by decide) (fun _ => tmuLate_swt (by decide))
    (fun m s u h => ?_) fun m u => ?_
  · have hs := h.stored (a := R.SWT_CFG) (by decide) v.toNat
    rw [writePair_swtCfg, h.reg_eq (by decide)]
    simp only
    split
    · exact hs
    · exact hs.newLen
  · rw [writePair_swtCfg]
    split
    · rfl
    · rw [newLen_sess]
      rfl

/-- A write that leaves no general page in the way of the stage pool takes effect at once (R372). -/
theorem swtLoftBudWrite_completes (v : Word) (c : RegCmd) (s : State)
    (ha : Accepted opRegWrite 0x0201 (writeReq c R.SWT_LOFT_BUD v.toNat) s []) (hg : (s.genInSpan (bits v.toNat 17 0)).isEmpty = true) :
    Completes false (.swtLoftBudWrite c v) 0x0201 (writeReq c R.SWT_LOFT_BUD v.toNat) s ((s.stored R.SWT_LOFT_BUD v.toNat).updOver.startStages)
      St.ok 0 [] := by
  refine completes_direct (exec_swtLoftBudWrite c v s) ha (writeReq_not_journaled c _ _) (Nat.zero_le _) ?_
  refine acts_of_aside (f := fun u => (u.stored R.SWT_LOFT_BUD v.toNat).updOver.startStages) (fun k u hu => ?_)
    (fun u hu => ((hu.stored (by decide) _).updOver).startStages) fun u => ?_
  · have hgen : u.genInSpan (bits v.toNat 17 0) = s.genInSpan (bits v.toNat 17 0) := by
      unfold State.genInSpan
      rw [hu.mmu_eq, hu.swtFld_eq (f := R.SWT_LOFT_BUD_KIB) rfl]
    have hm : u.mustMove [(R.SWT_LOFT_BUD, v.toNat)] = false := by
      simp [State.mustMove, hgen, List.isEmpty_iff.1 hg]
    simp only [opRegWrite, pairsOf_writeReq c (a := R.SWT_LOFT_BUD) (by decide) v.isLt, hm, Bool.false_eq_true, if_false, regApply, applyPairs,
      List.foldl_cons, List.foldl_nil, writePair_loftBud, tmuLate_swt (a := R.SWT_LOFT_BUD) rfl, Bool.or_self]
  · rw [startStages_face, updOver_face]
    rfl

end Sys2Proof.Machine

section
open Sys2Proof.Machine

/-- Settles O14, clause by clause: the use percentage, the pool's budget, the length, and what a change of length does. -/
theorem swathRegistersAreWritten : Obligations.SwathRegistersAreWritten :=
  ⟨swtCycPctWrite_writes, swtLoftBudWrite_completes, swtLenWrite_writes, newLen_begun, newLen_not_begun⟩

end

namespace Sys2Proof.Machine

open Sys2Proof

/-! A part in which nothing runs: what the events of the swath find there, and which of their operations then do nothing. -/

/-- What the events of the swath act on: legs, conferences, armed changes, tasks, staged areas, captures, tandem exports and migrations, gleaner
slices and returns, and the shutdown. -/
structure AtWork where
  legs : KV Leg
  confs : KV Conf
  armed : List Armed
  tasks : KV Task
  areas : List Area
  caps : KV Capture
  exps : List TExport
  outs : List MigOut
  ins : List MigIn
  run : List Slice
  back : List (Nat × Nat)
  shut : Shut

def State.atWork (s : State) : AtWork :=
  ⟨s.legs, s.confs, s.armed, s.knl.tasks, s.mmu.areas, s.grn.caps, s.tnd.exps, s.tnd.outs, s.tnd.ins, s.gln.run, s.gln.back, s.shut⟩

/-- Nothing runs in the part. -/
def Calm (s : State) : Prop := s.atWork = ⟨[], [], [], [], [], [], [], [], [], [], [], Shut.none⟩

section fields
variable {s : State} (h : Calm s)
include h

theorem Calm.legs : s.legs = [] := congrArg AtWork.legs h
theorem Calm.confs : s.confs = [] := congrArg AtWork.confs h
theorem Calm.armed : s.armed = [] := congrArg AtWork.armed h
theorem Calm.tasks : s.knl.tasks = [] := congrArg AtWork.tasks h
theorem Calm.areas : s.mmu.areas = [] := congrArg AtWork.areas h
theorem Calm.caps : s.grn.caps = [] := congrArg AtWork.caps h
theorem Calm.exps : s.tnd.exps = [] := congrArg AtWork.exps h
theorem Calm.outs : s.tnd.outs = [] := congrArg AtWork.outs h
theorem Calm.ins : s.tnd.ins = [] := congrArg AtWork.ins h
theorem Calm.run : s.gln.run = [] := congrArg AtWork.run h
theorem Calm.back : s.gln.back = [] := congrArg AtWork.back h
theorem Calm.shut : s.shut = Shut.none := congrArg AtWork.shut h

end fields

/-- No frame of a leg is among those that wait for room in a queue. -/
def Legless (w : KV (List TxFrame)) : Prop := ∀ q ∈ w, ∀ f ∈ q.2, ∀ l, f.origin ≠ .leg l

/-- No port has a frame of a leg that waits. -/
def State.legless (s : State) : Prop := ∀ p ∈ s.ports, Legless p.2.waiting

theorem Idle.calm {s : State} (h : Idle s) : Calm s := by
  simp only [Calm, State.atWork, h.legs, h.confs, h.armed, h.tasks, h.areas, h.grn, h.tnd, h.gln, h.shut]
  rfl

theorem Idle.legless {s : State} (h : Idle s) : s.legless := fun p hp q hq => by
  rw [h.waiting p hp] at hq
  cases hq

/-! What an event of the swath leaves: `Idling` where the swath timer itself may change, `Still` where it stays. -/

/-- `t` has of `s` what runs, the time, what survives a reset and the length of a swath; no frame of a leg waits in `t` unless one does in `s`. -/
structure Idling (s t : State) : Prop where
  atWork : t.atWork = s.atWork
  tmu : t.tmu = s.tmu
  nv : t.nv = s.nv
  legless : s.legless → t.legless
  cfg : t.reg R.SWT_CFG = s.reg R.SWT_CFG

/-- `t` has the swath timer of `s` and its registers besides. -/
structure Still (s t : State) : Prop extends Idling s t where
  swt : t.swt = s.swt
  regs : ∀ a, a / 0x10000 = 1 → t.reg a = s.reg a

theorem Idling.refl (s : State) : Idling s s := ⟨rfl, rfl, rfl, id, rfl⟩

theorem Idling.trans {s t u : State} (h : Idling s t) (k : Idling t u) : Idling s u :=
  ⟨k.atWork.trans h.atWork, k.tmu.trans h.tmu, k.nv.trans h.nv, k.legless ∘ h.legless, k.cfg.trans h.cfg⟩

theorem Still.refl (s : State) : Still s s := ⟨Idling.refl s, rfl, fun _ _ => rfl⟩

theorem Still.trans {s t u : State} (h : Still s t) (k : Still t u) : Still s u :=
  ⟨h.toIdling.trans k.toIdling, k.swt.trans h.swt, fun a ha => (k.regs a ha).trans (h.regs a ha)⟩

theorem Still.foldl {α : Type} {f : State → α → State} (hf : ∀ t x, Still t (f t x)) : ∀ (l : List α) (s : State), Still s (l.foldl f s)
  | [], s => Still.refl s
  | x :: l, s => (hf s x).trans (Still.foldl hf l (f s x))

theorem Idling.calm {s t : State} (h : Idling s t) (hc : Calm s) : Calm t := h.atWork.trans hc

theorem Idling.lenNs_eq {s t : State} (h : Idling s t) : t.lenNs = s.lenNs := by
  unfold State.lenNs State.fld
  rw [show t.reg R.SWT_CFG_LEN.addr = s.reg R.SWT_CFG_LEN.addr from h.cfg]

theorem Idling.lenI_eq {s t : State} (h : Idling s t) : t.lenI = s.lenI := by unfold State.lenI; rw [h.lenNs_eq]

theorem Still.fld_eq {s t : State} (h : Still s t) {f : Fld} (hf : f.addr / 0x10000 = 1) : t.fld f = s.fld f := by
  unfold State.fld; rw [h.regs _ hf]

/-- Registers other than the swath's length, and events, leave what runs and the length. -/
theorem Only.idling {L : List Nat} {s t : State} (h : Only L s t) (hL : R.SWT_CFG ∉ L) : Idling s t := by
  have hports : t.ports = s.ports := h.ports_eq
  refine ⟨?_, h.tmu_eq, ?_, fun k => ?_, h.regs _ hL (by decide)⟩
  · exact (congrArg State.atWork h.rest : t.bare.atWork = s.bare.atWork)
  · exact (congrArg State.nv h.rest : t.bare.nv = s.bare.nv)
  · unfold State.legless; rw [hports]; exact k

/-- Registers of other blocks and events leave the swath as it is. -/
theorem Only.still {L : List Nat} {s t : State} (h : Only L s t) (hL : ∀ a ∈ L, a / 0x10000 ≠ 1) : Still s t :=
  ⟨h.idling fun k => hL _ k (by decide), (congrArg State.swt h.rest : t.bare.swt = s.bare.swt), fun a ha =>
    h.regs a (fun k => hL a k ha) (by rintro rfl; exact absurd ha (by decide))⟩

theorem still_setReg {s : State} {a v : Nat} (h : a / 0x10000 ≠ 1) : Still s (s.setReg a v) :=
  (only_setReg (L := [a]) (by simp)).still (by simpa using h)

theorem still_setFld {s : State} {f : Fld} {v : Nat} (h : f.addr / 0x10000 ≠ 1) : Still s (s.setFld f v) := still_setReg h
theorem still_bumpBy {s : State} {a n : Nat} (h : a / 0x10000 ≠ 1) : Still s (s.bumpBy a n) := still_setReg h

theorem still_raise {s : State} {a v : Nat} (h : a / 0x10000 ≠ 1) : Still s (s.raise a v) :=
  (only_raise (L := [a]) (by simp)).still (by simpa using h)

/-- A register of the swath timer other than SWT_CFG leaves what runs and the length. -/
theorem idling_setReg {s : State} {a v : Nat} (h : a ≠ R.SWT_CFG) : Idling s (s.setReg a v) :=
  ⟨rfl, rfl, rfl, id, State.reg_setReg_ne _ _ h⟩

theorem idling_setFld {s : State} {f : Fld} {v : Nat} (h : f.addr ≠ R.SWT_CFG) : Idling s (s.setFld f v) := idling_setReg h

theorem idling_setSwt (s : State) (w : Swt) : Idling s (s.setSwt w) := ⟨rfl, rfl, rfl, id, rfl⟩

/-! Tandem links and their frames (R432, R443, R444). -/

theorem mem_kset {α : Type} {x : α} {i : Nat} {p : Nat × α} : ∀ {m : KV α}, p ∈ kset m i x → p = (i, x) ∨ p ∈ m
  | [], h => .inl (by simpa [kset] using h)
  | (k, v) :: m, h => by
    rw [kset] at h
    split at h
    · exact (List.mem_cons.1 h).imp_right id
    · split at h
      · exact (List.mem_cons.1 h).imp_right (List.mem_cons_of_mem _)
      · obtain rfl | h := List.mem_cons.1 h
        · exact .inr List.mem_cons_self
        · exact (mem_kset h).imp_right (List.mem_cons_of_mem _)

theorem State.legless.port {s : State} (h : s.legless) (p : Nat) : Legless (s.port p).waiting := by
  unfold State.port kgetD
  cases hk : kget s.ports p with
  | none => exact fun q hq => absurd hq List.not_mem_nil
  | some x => exact h _ (kget_mem hk)

theorem still_setPort {s : State} {p : Nat} {x : Port} (h : s.legless → Legless x.waiting) : Still s (s.setPort p x) := by
  refine ⟨⟨rfl, rfl, rfl, fun k q hq => ?_, rfl⟩, rfl, fun _ _ => rfl⟩
  obtain rfl | hq := mem_kset hq
  · exact h k
  · exact k q hq

theorem still_enqueueTx {s : State} {p : Nat} {f : TxFrame} (hf : ∀ l, f.origin ≠ .leg l) : Still s (s.enqueueTx p f) := by
  simp only [State.enqueueTx]
  split
  · exact still_setPort fun h => h.port p
  · refine still_setPort fun h q hq g hg => ?_
    obtain rfl | hq := mem_kset hq
    · obtain hg | hg := List.mem_append.1 hg
      · unfold kgetD at hg
        cases hk : kget (s.port p).waiting f.tc with
        | none => rw [hk] at hg; cases hg
        | some w => rw [hk] at hg; exact h.port p _ (kget_mem hk) g hg
      · rw [List.mem_singleton.1 hg]; exact hf
    · exact h.port p q hq g hg

theorem still_txRequest {s : State} {p : Nat} {f : TxFrame} (hf : ∀ l, f.origin ≠ .leg l) : Still s (s.txRequest p f).1 := by
  have hbad : R.MAC_TX_BADLEN_CNT p / 0x10000 ≠ 1 := by simp only [R.MAC_TX_BADLEN_CNT]; omega
  have hpad : R.MAC_TX_PAD_CNT p / 0x10000 ≠ 1 := by simp only [R.MAC_TX_PAD_CNT]; omega
  simp only [State.txRequest]
  split
  · exact still_bumpBy hbad
  · split
    · exact (still_bumpBy hpad).trans (still_enqueueTx hf)
    · exact still_enqueueTx hf

theorem still_tndSend (s : State) (p : Nat) (b : Bytes) : Still s (s.tndSend p b .none) :=
  still_txRequest fun _ => TxOrigin.noConfusion

theorem still_setTlink (s : State) (p : Nat) (x : TLink) : Still s (s.setTlink p x) := ⟨⟨rfl, rfl, rfl, id, rfl⟩, rfl, fun _ _ => rfl⟩

theorem still_linkTo (s : State) (p st : Nat) : Still s (s.linkTo p st) := by
  simp only [State.linkTo]
  split
  · exact Still.refl s
  · have h := (still_setTlink s p { s.tlink p with st := st }).trans (still_raise (a := R.TND_EVT) (v := 1) (by decide))
    split
    · exact h.trans (still_raise (by decide))
    · exact h

theorem still_sendRingFail (s : State) (p port : Nat) : Still s (s.sendRingFail p port) := by
  unfold State.sendRingFail
  split
  · exact still_tndSend _ _ _
  · exact Still.refl s

theorem still_linkDown (s : State) (p : Nat) : Still s (s.linkDown p) := by
  simp only [State.linkDown]
  split
  · exact Still.refl s
  · split
    · exact ((still_linkTo s p 0).trans (still_setTlink _ p _)).trans (still_sendRingFail _ _ _)
    · exact (still_linkTo s p 0).trans (still_setTlink _ _ _)

theorem still_reblock (s : State) : Still s s.reblock := by
  refine Still.foldl (fun t p => ?_) _ _
  simp only
  split
  · exact still_linkTo _ _ _
  · exact Still.refl t

theorem still_linkBack (s : State) (p : Nat) : Still s (s.linkBack p) := by
  simp only [State.linkBack]
  split
  · have h := still_setTlink s p { s.tlink p with failed := false }
    split
    · split
      · exact (h.trans (still_setFld (f := R.TND_RING_BLOCK) (by decide))).trans (still_reblock _)
      · exact h
    · exact h
  · exact Still.refl s

theorem still_tndLinks (s : State) : Still s s.tndLinks := by
  refine Still.foldl (fun t p => ?_) _ _
  simp only
  generalize (if (t.tlink p).got = true then 0 else min 8 ((t.tlink p).miss + 1)) = miss
  have h := still_setTlink t p { t.tlink p with miss := miss, got := false }
  split
  · exact h.trans (still_linkDown _ _)
  · split
    · exact h.trans (still_linkTo _ _ _)
    · split
      · exact h
      · exact (h.trans (still_linkTo _ _ _)).trans (still_linkBack _ _)

theorem still_helloAll (s : State) : Still s s.helloAll := by
  refine Still.foldl (fun t p => ?_) _ _
  split
  · exact still_tndSend _ _ _
  · exact Still.refl t

theorem still_parcelsLate (s : State) : Still s s.parcelsLate := by
  simp only [State.parcelsLate]
  split
  · exact Still.refl s
  · exact (still_bumpBy (by decide)).trans (still_raise (by decide))

/-! Operations of the swath's events that find nothing to do. -/

theorem abortDescs_nil (s : State) : s.abortDescs [] = s := by
  have hstep : ∀ (l : KV DRing) (f : State → Nat × DRing → State), (∀ t p, f t p = t) → l.foldl f s = s := fun l f hf => by
    induction l with
    | nil => rfl
    | cons p l ih => rw [List.foldl_cons, hf, ih]
  have hany : ∀ o : Option Nat, o.any ([] : List Nat).contains = false := fun o => by cases o <;> rfl
  refine hstep _ _ fun t p => ?_
  simp [hany]

section calm
variable {s : State} (h : Calm s)
include h

theorem Calm.migrateIns : s.migrateIns = s := by simp only [State.migrateIns, h.ins]; rfl

theorem Calm.gatherEnd : s.gatherEnd = s.setSwt { s.swt with gatherDone := true } := by
  unfold State.gatherEnd
  split
  · next hg =>
    have e : ({ s.swt with gatherDone := true } : Swt) = s.swt := by rw [← hg]
    rw [e]; rfl
  · exact Calm.migrateIns (s := s.setSwt { s.swt with gatherDone := true }) h

theorem Calm.readyAll (p : Task → Bool) : s.readyAll p = s := by simp only [State.readyAll, h.tasks]; rfl

theorem Calm.readyMedia (p : Task → Bool) : s.readyMedia p = s := by
  simp only [State.readyMedia, h.tasks]
  exact h.readyAll _

theorem Calm.keepSelections (b : Inst) : s.keepSelections b = s := by
  simp only [State.keepSelections, h.confs, List.map_nil]
  rw [← h.confs]

theorem Calm.mediaTasks : s.mediaTasks = [] := by simp only [State.mediaTasks, h.tasks]; rfl

theorem Calm.abortStages : s.abortStages = s := by
  simp only [State.abortStages, h.areas, List.filter_nil, List.foldl_nil, h.tasks, List.filterMap_nil]

theorem Calm.deadlineCancel : s.deadlineCancel = s := by
  simp only [State.deadlineCancel, h.mediaTasks, List.filter_nil, List.foldl_nil, List.isEmpty_nil, if_true, List.map_nil, abortDescs_nil, h.abortStages]

theorem Calm.dueLegs (b : Inst) : s.dueLegs b = [] := by simp only [State.dueLegs, h.legs]; rfl

theorem Calm.commits : s.commits = s := by
  simp only [State.commits, h.mediaTasks, h.dueLegs]; rfl

theorem Calm.takePieces : s.takePieces = s := by
  simp only [State.takePieces, h.outs, List.map_nil]
  rw [← h.outs]; rfl

theorem Calm.writeBacks : s.writeBacks = s := by
  simp only [State.writeBacks, State.replaysBack, h.mediaTasks, h.areas]; rfl

theorem Calm.rtcpSlots : s.rtcpSlots = s := by simp only [State.rtcpSlots, h.legs]; rfl

theorem Calm.leashesOut : s.leashesOut = s := by simp only [State.leashesOut, h.legs]; rfl

theorem Calm.sendParcels : s.sendParcels = s := by
  simp only [State.sendParcels, h.exps, h.outs]
  split <;> rfl

theorem Calm.freeMedia : ∃ x, s.freeMedia = s.setFrp x := by
  simp only [State.freeMedia, h.mediaTasks]
  exact ⟨_, rfl⟩

theorem Calm.stageSet (b : Inst) : s.stageSet b = s := by
  have hset : s.taskSet b = [] := by simp only [State.taskSet, h.legs]; rfl
  rw [State.stageSet, hset]; rfl

theorem Calm.restage : s.restage = s := by
  simp only [State.restage, h.areas]
  exact h.stageSet _

theorem Calm.cutAll (c : Nat) : s.cutAll c = s := by simp only [State.cutAll, h.run]; rfl

theorem Calm.coreTake (c : Nat) : s.coreTake c = s := by
  have hpick : s.pickFor c = none := by
    simp only [State.pickFor, State.resumable, State.takable, h.tasks, List.filter_nil, show bestTask [] = none from rfl, ite_self]
  unfold State.coreTake
  rw [hpick]
  split <;> rfl

theorem Calm.wakeCores : s.wakeCores = s := by
  have step : ∀ l : List Nat, l.foldl (fun st c => st.coreTake c) s = s := fun l => by
    induction l with
    | nil => rfl
    | cons c l ih => rw [List.foldl_cons, h.coreTake, ih]
  exact step _

theorem Calm.capEmitEnd : s.capEmitEnd = s := by simp only [State.capEmitEnd, h.caps]; rfl

/-- The Work deadline of a part in which nothing runs only begins Emit and ends Gather: no task is cancelled and no leg commits (R39). -/
theorem Calm.deadline : ∃ x, s.deadline = ((s.setSwt { s.swt with gatherDone := true }).setFld R.SWT_STAT_PHASE 2).setFrp x := by
  have ha : Calm ((s.setSwt { s.swt with gatherDone := true }).setFld R.SWT_STAT_PHASE 2) := h
  obtain ⟨x, hx⟩ := ha.freeMedia
  have hb : Calm (State.setFrp ((s.setSwt { s.swt with gatherDone := true }).setFld R.SWT_STAT_PHASE 2) x) := h
  refine ⟨x, ?_⟩
  simp only [State.deadline, h.gatherEnd, ha.keepSelections, ha.deadlineCancel, ha.commits, ha.takePieces, ha.writeBacks, ha.rtcpSlots, ha.leashesOut,
    ha.sendParcels, hx, hb.restage, hb.cutAll, hb.wakeCores]

/-- Guard sends HELLOs and counts what is late, and leaves the swath (R432, R437). -/
theorem Calm.guardStart : Still (s.setFld R.SWT_STAT_PHASE 3) s.guardStart := by
  have ha : Calm (s.setFld R.SWT_STAT_PHASE 3) := h
  rw [State.guardStart, ha.capEmitEnd]
  exact (still_helloAll _).trans (still_parcelsLate _)

end calm

/-! The phase that SWT_STAT shows. -/

/-- The code of a phase in SWT_STAT (R36). -/
def Phase.code : Phase → Nat
  | .gather => 0
  | .work => 1
  | .emit => 2
  | .guard => 3

theorem phase_of_code {s : State} {p : Phase} (h : s.fld R.SWT_STAT_PHASE = p.code) : s.phase = p := by
  unfold State.phase
  rw [h]
  cases p <;> rfl

theorem fld_setPhase (s : State) (p : Phase) : (s.setFld R.SWT_STAT_PHASE p.code).fld R.SWT_STAT_PHASE = p.code := by
  rw [fld_setFld_same s R.SWT_STAT_PHASE p.code (by decide)]
  cases p <;> rfl

theorem phase_setPhase (s : State) (p : Phase) : (s.setFld R.SWT_STAT_PHASE p.code).phase = p := phase_of_code (fld_setPhase s p)

/-! The events of the phases. -/

theorem exec_gatherEnd (s : State) : exec .gatherEnd s =
    .next (if s.swt.begun ∧ s.phase = .gather ∧ s.swt.workAt ≤ s.elapsed then s.gatherEnd else s) := rfl

theorem exec_workStart (s : State) : exec .workStart s = .next (if s.swt.begun ∧ s.phase = .gather ∧ s.swt.workAt ≤ s.elapsed then
    ((s.gatherEnd).setFld R.SWT_STAT_PHASE 1).readyMedia fun k => k.staged && k.parcel && k.kind == 0 else s) := rfl

theorem exec_workDeadline (s : State) : exec .workDeadline s =
    .next (if s.swt.begun ∧ (s.phase = .work ∨ s.phase = .gather) ∧ s.swt.emitAt ≤ s.elapsed then s.deadline else s) := rfl

theorem exec_guardStart (s : State) : exec .guardStart s =
    .next (if s.swt.begun ∧ s.phase = .emit ∧ s.swt.guardAt ≤ s.elapsed then s.guardStart else s) := rfl

/-- No phase begins before the elapsed time has reached its start (R36). -/
theorem exec_gatherEnd_early {s : State} (h : s.elapsed < s.swt.workAt) : exec .gatherEnd s = .next s := by
  rw [exec_gatherEnd, if_neg fun ⟨_, _, k⟩ => Nat.not_le.2 h k]

theorem exec_workStart_early {s : State} (h : s.elapsed < s.swt.workAt) : exec .workStart s = .next s := by
  rw [exec_workStart, if_neg fun ⟨_, _, k⟩ => Nat.not_le.2 h k]

theorem exec_workDeadline_early {s : State} (h : s.elapsed < s.swt.emitAt) : exec .workDeadline s = .next s := by
  rw [exec_workDeadline, if_neg fun ⟨_, _, k⟩ => Nat.not_le.2 h k]

theorem exec_guardStart_early {s : State} (h : s.elapsed < s.swt.guardAt) : exec .guardStart s = .next s := by
  rw [exec_guardStart, if_neg fun ⟨_, _, k⟩ => Nat.not_le.2 h k]

theorem exec_guardStart_due {s : State} (hb : s.swt.begun = true) (hp : s.phase = .emit) (ht : s.swt.guardAt ≤ s.elapsed) :
    exec .guardStart s = .next s.guardStart := by
  rw [exec_guardStart, if_pos ⟨hb, hp, ht⟩]

section due
variable {s : State} (h : Calm s) (hb : s.swt.begun = true)
include h hb

theorem Calm.exec_gatherEnd (hp : s.phase = .gather) (ht : s.swt.workAt ≤ s.elapsed) :
    exec .gatherEnd s = .next (s.setSwt { s.swt with gatherDone := true }) := by
  rw [Machine.exec_gatherEnd, if_pos ⟨hb, hp, ht⟩, h.gatherEnd]

theorem Calm.exec_workStart (hp : s.phase = .gather) (ht : s.swt.workAt ≤ s.elapsed) :
    exec .workStart s = .next ((s.setSwt { s.swt with gatherDone := true }).setFld R.SWT_STAT_PHASE 1) := by
  have ha : Calm ((s.setSwt { s.swt with gatherDone := true }).setFld R.SWT_STAT_PHASE 1) := h
  rw [Machine.exec_workStart, if_pos ⟨hb, hp, ht⟩, h.gatherEnd, ha.readyMedia]

theorem Calm.exec_workDeadline (hp : s.phase = .work) (ht : s.swt.emitAt ≤ s.elapsed) :
    ∃ x, exec .workDeadline s = .next (((s.setSwt { s.swt with gatherDone := true }).setFld R.SWT_STAT_PHASE 2).setFrp x) := by
  obtain ⟨x, hx⟩ := h.deadline
  exact ⟨x, by rw [Machine.exec_workDeadline, if_pos ⟨hb, .inl hp, ht⟩, hx]⟩

end due

end Sys2Proof.Machine

section

open Sys2Proof.Machine

/-- Settles O12: before its start a phase's event does nothing; in a part in which nothing runs, everything that the event would cancel, commit or
send is empty, and what is left is the phase itself. -/
theorem phasesFollowOneAnother : Obligations.PhasesFollowOneAnother := by
  refine ⟨fun s h => ⟨exec_gatherEnd_early h, exec_workStart_early h⟩, fun s h => exec_workDeadline_early h, fun s h => exec_guardStart_early h,
    fun s h hb hp ht => h.calm.exec_gatherEnd hb hp ht, fun s h hb hp ht => ?_, fun s h hb hp ht => ?_, fun s h hb hp ht => ?_⟩
  · exact ⟨_, h.calm.exec_workStart hb hp ht, phase_setPhase _ .work, rfl, rfl, h.legs⟩
  · obtain ⟨x, hx⟩ := h.calm.exec_workDeadline hb hp ht
    exact ⟨_, hx, phase_setPhase _ .emit, rfl, rfl, h.legs, State.reg_setReg_ne _ _ (by decide), State.reg_setReg_ne _ _ (by decide)⟩
  · have k := h.calm.guardStart
    refine ⟨_, exec_guardStart_due hb hp ht, phase_of_code (p := .guard) ?_, k.swt, k.tmu, (k.calm h.calm).legs⟩
    rw [k.fld_eq (by decide)]
    exact fld_setPhase s .guard

end

namespace Sys2Proof.Machine

open Sys2Proof

/-! What a boundary does before its new swath begins: a part in which nothing runs keeps all that the swath is made from. -/

theorem idling_bgHolds (s : State) : Idling s s.bgHolds := by
  unfold State.bgHolds
  split
  · exact Idling.refl s
  · exact (still_bumpBy (by decide)).toIdling

theorem still_peakTo {s : State} {f : Fld} {v : Nat} (h : f.addr / 0x10000 ≠ 1) : Still s (s.peakTo f v) := by
  unfold State.peakTo
  split
  · exact still_setFld h
  · exact Still.refl s

theorem still_loadTo {s : State} {last peak : Fld} {v : Nat} (hl : last.addr / 0x10000 ≠ 1) (hp : peak.addr / 0x10000 ≠ 1) :
    Still s (s.loadTo last peak v) := (still_setFld hl).trans (still_peakTo hp)

theorem still_fceLoad (s : State) (e v : Nat) : Still s (s.loadTo (R.FCE_LOAD_LAST e) (R.FCE_LOAD_PEAK e) v) :=
  have h : R.FCE_LOAD e / 0x10000 ≠ 1 := by simp only [R.FCE_LOAD]; omega
  still_loadTo h h

theorem still_eceLoad (s : State) (e v : Nat) : Still s (s.loadTo (R.ECE_LOAD_LAST e) (R.ECE_LOAD_PEAK e) v) :=
  have h : R.ECE_LOAD e / 0x10000 ≠ 1 := by simp only [R.ECE_LOAD]; omega
  still_loadTo h h

theorem idling_setEngs (s : State) (m : KV DEng) : Idling s (s.setMmu { s.mmu with engs := m }) := ⟨rfl, rfl, rfl, id, rfl⟩

theorem idling_setCores (s : State) (m : KV Core) : Idling s (s.setKnl { s.knl with cores := m }) := ⟨rfl, rfl, rfl, id, rfl⟩

theorem idling_clearLoads (s : State) : Idling s (State.setBgw { s with engAcc := [] } { s.bgw with fab := 0, holds := [] }) :=
  ⟨rfl, rfl, rfl, id, rfl⟩

theorem idling_dropTaps (s : State) (b : Inst) :
    Idling s (s.setGrn { s.grn with tapQ := s.grn.tapQ.map fun p => (p.1, p.2.filter fun i => decide (b ≤ i.1)) }) := ⟨rfl, rfl, rfl, id, rfl⟩

theorem idling_swathLoads (s : State) : Idling s s.swathLoads := by
  have h : Still s _ := ((Still.foldl (fun t e => still_fceLoad t e (kgetD s.engAcc e 0 / 1024)) (List.range 16) s).trans
    (Still.foldl (fun t e => still_eceLoad t e (kgetD s.engAcc (32 + e) 0)) (List.range 32) _)).trans
    (still_loadTo (last := R.BGW_FAB_LAST) (peak := R.BGW_FAB_PEAK) (v := s.bgw.fab / 65536) (by decide) (by decide))
  exact ((h.toIdling.trans (idling_setEngs _ _)).trans (idling_setCores _ _)).trans (idling_clearLoads _)

theorem gone_nil {s : State} (h : s.legless) {g : TxFrame → Option Nat} (hg : ∀ f : TxFrame, (∀ l, f.origin ≠ .leg l) → g f = none) :
    (s.ports.flatMap fun p => p.2.waiting.flatMap fun q => q.2.filterMap g) = [] :=
  List.flatMap_eq_nil_iff.2 fun p hp => List.flatMap_eq_nil_iff.2 fun q hq => List.filterMap_eq_nil_iff.2 fun f hf => hg f (h p hp q hq f hf)

theorem Legless.filter {w : KV (List TxFrame)} (h : Legless w) (k : TxFrame → Bool) : Legless (w.map fun q => (q.1, q.2.filter k)) := by
  intro q hq f hf
  obtain ⟨r, hr, rfl⟩ := List.mem_map.1 hq
  exact h r hr f (List.mem_of_mem_filter hf)

/-- Where no frame of a leg waits, none is stale (R214). -/
theorem idling_staleDiscard {s : State} (h : s.legless) : Idling s s.staleDiscard := by
  simp only [State.staleDiscard]
  rw [gone_nil h fun f hf => by
    split
    · next l k => exact absurd k (hf l)
    · rfl]
  refine ⟨rfl, rfl, rfl, fun k p hp => ?_, rfl⟩
  obtain ⟨r, hr, rfl⟩ := List.mem_map.1 hp
  exact (k r hr).filter _

section calm
variable {s : State} (h : Calm s)
include h

theorem Calm.slipEnd (b : Inst) : s.slipEnd b = s := by
  simp only [State.slipEnd, h.legs]
  split <;> rfl

theorem Calm.swathGln : Idling s s.swathGln := by
  have hback : (s.setGln { s.gln with nCore := 0, nEng := 0, nMem := 0 }).gln.back = [] := h.back
  simp only [State.swathGln, State.glnBack, hback, List.foldl_nil]
  exact ⟨congrArg (fun k => { s.atWork with back := k }) h.back.symm, rfl, rfl, id, rfl⟩

theorem Calm.forgetUnits : Idling s s.forgetUnits := by
  simp only [State.forgetUnits, h.tasks, List.map_nil]
  exact ⟨congrArg (fun k => { s.atWork with tasks := k }) h.tasks.symm, rfl, rfl, id, rfl⟩

theorem Calm.endSwath (hl : s.legless) (b : Inst) : Idling s (s.endSwath b) := by
  have hc : Calm (s.setFrp { s.frp with ended := [] }) := h
  have h0 : Idling s (s.setFrp { s.frp with ended := [] }) := ⟨rfl, rfl, rfl, id, rfl⟩
  simp only [State.endSwath, hc.slipEnd]
  have h1 := h0.trans (idling_swathLoads _)
  have h2 := h1.trans (h1.calm h).swathGln
  have h3 := h2.trans (h2.calm h).forgetUnits
  have h4 := h3.trans (idling_dropTaps _ b)
  exact h4.trans (idling_staleDiscard (h4.legless hl))

theorem Calm.legsStop (b : Inst) : s.legsStop b = s := by simp only [State.legsStop, h.legs]; rfl

theorem Calm.applyDue (b : Inst) : Idling s (s.applyDue b) := by
  simp only [State.applyDue, h.armed, List.filter_nil, List.map_nil, List.foldl_nil]
  exact ⟨congrArg (fun k => { s.atWork with armed := k }) h.armed.symm, rfl, rfl, id, rfl⟩

theorem Calm.shutLegs : s.shutLegs = s := by
  rw [State.shutLegs, h.shut]
  rfl

theorem Calm.reviveAtBoundary (b : Inst) : s.reviveAtBoundary b = s := by
  rw [State.reviveAtBoundary, h.shut]
  rfl

end calm

theorem idling_updOver (s : State) : Idling s s.updOver := by
  obtain ⟨w, hw⟩ := updOver_only s
  exact (idling_setSwt s w).trans (hw.idling (by decide))

theorem idling_updCyc (s : State) : Idling s s.updCyc :=
  (idling_setFld (f := R.SWT_CYC_BUD_BC) (by decide)).trans (idling_setFld (f := R.SWT_CYC_BUD_CORE_SHARE) (by decide))

theorem idling_updBudgets (s : State) : Idling s s.updBudgets :=
  (((idling_updCyc s).trans (idling_setFld (f := R.SWT_ECHO_BUD_BE) (by decide))).trans
    (idling_setFld (f := R.SWT_SLOTS_TOTAL) (by decide))).trans (idling_updOver _)

theorem idling_followUnits (s : State) : Idling s s.followUnits :=
  ((idling_setFld (f := R.SWT_UNITS_N_CORE) (by decide)).trans (idling_setFld (f := R.SWT_UNITS_N_ECE) (by decide))).trans (idling_updBudgets _)

/-- What a boundary does before its new swath begins: the old swath ends, and what is due takes effect. -/
def beforeSwath (s : State) (b : Inst) : State :=
  let s1 : State := if s.swt.begun then (s.bgHolds).endSwath b else s
  ((((s1.legsStop b).applyDue b).shutLegs).reviveAtBoundary b).followUnits

theorem Calm.oldSwath {s : State} (h : Calm s) (hl : s.legless) (b : Inst) : Idling s (if s.swt.begun then (s.bgHolds).endSwath b else s) := by
  have hold := idling_bgHolds s
  split
  · exact hold.trans ((hold.calm h).endSwath (hold.legless hl) b)
  · exact Idling.refl s

theorem Calm.beforeSwath {s : State} (h : Calm s) (hl : s.legless) (b : Inst) : Idling s (beforeSwath s b) := by
  have hend := h.oldSwath hl b
  have hdue := hend.trans ((hend.calm h).applyDue b)
  have hc := hdue.calm h
  simp only [Machine.beforeSwath, (hend.calm h).legsStop, hc.shutLegs, hc.reviveAtBoundary]
  exact hdue.trans (idling_followUnits _)

/-! The new swath and what follows it within the boundary. -/

theorem still_setKnlStage (s : State) : Still s (s.setKnl { s.knl with lastStage := none, bgCyc := 0 }) :=
  ⟨⟨rfl, rfl, rfl, id, rfl⟩, rfl, fun _ _ => rfl⟩

theorem still_stageReport (s : State) (b : Inst) : Still s (s.stageReport b) := by
  simp only [State.stageReport]
  refine Still.trans ?_ (still_setKnlStage _)
  split
  · exact ((still_bumpBy (n := 1) (by decide)).trans (still_raise (by decide))).trans (still_setReg (by decide))
  · split
    · exact still_setReg (by decide)
    · exact Still.refl s

theorem still_setIpx (s : State) (x : Ipx) : Still s { s with ipx := x } := ⟨⟨rfl, rfl, rfl, id, rfl⟩, rfl, fun _ _ => rfl⟩

theorem still_setLog (s : State) : Still s (s.setFrp { s.frp with logU := 0, logAt := [], prevAt := s.frp.logAt }) :=
  ⟨⟨rfl, rfl, rfl, id, rfl⟩, rfl, fun _ _ => rfl⟩

/-- What a boundary does after its swath has begun: tandem links and ports, legs and their frames, stage-ins, records of legs, cores. -/
def afterSwath (s : State) (b : Inst) : State :=
  let s4 : State := (s.tndLinks).tndLegs b
  let s5 : State := (s4.setFrp { s4.frp with logU := 0, logAt := [], prevAt := s4.frp.logAt }).legsOn b
  let s7 : State := ((s5.dueLegs b).foldl (fun (t : State) l => t.handLeg l b) s5).stageReport b
  let s8 : State := (s7.readyMedia fun t => t.staged && !t.parcel).stageMissing b
  ((s8.stageSet s8.swt.nextT).ipfixLegs).wakeCores

theorem Calm.leg {s : State} (h : Calm s) (l : Nat) : s.leg l = Leg.init := by
  unfold State.leg
  rw [h.legs]
  rfl

section calm
variable {s : State} (h : Calm s)
include h

theorem Calm.tndLegs (b : Inst) : Still s (s.tndLegs b) := by
  simp only [State.tndLegs, h.outs, h.exps, List.filter_nil, List.foldl_nil]
  exact ⟨⟨congrArg₂ (fun k m => { s.atWork with exps := k, outs := m }) h.exps.symm h.outs.symm, rfl, rfl, id, rfl⟩, rfl, fun _ _ => rfl⟩

theorem Calm.legsOn (b : Inst) : s.legsOn b = s := by simp only [State.legsOn, h.legs]; rfl

theorem Calm.stageMissing (b : Inst) : s.stageMissing b = s := by simp only [State.stageMissing, h.tasks]; rfl

/-- No leg has a record to send, nor one that waits (R545). -/
theorem Calm.ipfixLegs : Still s s.ipfixLegs := by
  unfold State.ipfixLegs
  extract_lets src u
  have hu : Still s u := still_setIpx s _
  have hc : Calm u := hu.calm h
  clear_value u
  split
  · exact hu
  · split
    · exact hu
    · have hold : (u.ipx.wait.filter fun l => (u.leg l).st == .on) = [] := List.filter_eq_nil_iff.2 fun l _ => by
        rw [hc.leg l]
        decide
      simp +zetaDelta only [hold, hc.legs, List.filter_nil, List.map_nil, List.length_nil, if_true, List.append_nil, List.foldl_nil]
      rw [← hc.legs]
      exact hu.trans (still_setIpx u _)

/-- What follows the new swath within its boundary finds neither leg nor task. -/
theorem Calm.afterSwath (b : Inst) : Still s (afterSwath s b) := by
  have h1 := still_tndLinks s
  have h2 := h1.trans ((h1.calm h).tndLegs b)
  have h3 := h2.trans (still_setLog _)
  have hlog := h3.calm h
  have h4 := h3.trans (still_stageReport _ b)
  have hrep := h4.calm h
  simp only [Machine.afterSwath, hlog.legsOn, hlog.dueLegs, List.foldl_nil, hrep.readyMedia, hrep.stageMissing, hrep.stageSet]
  have h5 := h4.trans hrep.ipfixLegs
  rw [(h5.calm h).wakeCores]
  exact h5

end calm

/-- A boundary is what comes before its new swath, the swath, and what follows it. -/
theorem boundary_eq (s : State) (b : Inst) : s.boundary b = afterSwath ((beforeSwath s b).newSwath b) b := by
  simp only [State.boundary, afterSwath, beforeSwath]

/-- The swath timer of the swath that begins at `b`, with length and time of `v` (R32, R33, R36). -/
structure Begins (v t : State) (b : Inst) : Prop where
  begun : t.swt.begun = true
  bT : t.swt.bT = b
  bLoc : t.swt.bLoc = v.tmu.loc
  nextT : t.swt.nextT = (b / v.lenI + 1) * v.lenI
  d : t.swt.d = v.lenI
  workAt : t.swt.workAt = cdiv (8 * v.lenI) 100
  emitAt : t.swt.emitAt = cdiv (88 * v.lenI) 100
  guardAt : t.swt.guardAt = cdiv (96 * v.lenI) 100
  slipped : t.swt.slipped = false
  phase : t.fld R.SWT_STAT_PHASE = 0
  run : t.fld R.SWT_STAT_RUN = 1
  swn : t.reg R.SWT_SWN = b / 65536 / v.lenNs % 2 ^ 32

theorem Begins.still {v t u : State} {b : Inst} (h : Begins v t b) (k : Still t u) : Begins v u b := by
  obtain ⟨hbegun, hbT, hbLoc, hnextT, hd, hwork, hemit, hguard, hslip, hphase, hrun, hswn⟩ := h
  have hs := k.swt
  exact ⟨hs ▸ hbegun, hs ▸ hbT, hs ▸ hbLoc, hs ▸ hnextT, hs ▸ hd, hs ▸ hwork, hs ▸ hemit, hs ▸ hguard, hs ▸ hslip,
    (k.fld_eq (by decide)).trans hphase, (k.fld_eq (by decide)).trans hrun, (k.regs _ (by decide)).trans hswn⟩

theorem Begins.idling {s v t : State} {b : Inst} (h : Begins v t b) (k : Idling s v) : Begins s t b := by
  obtain ⟨hbegun, hbT, hbLoc, hnextT, hd, hwork, hemit, hguard, hslip, hphase, hrun, hswn⟩ := h
  rw [k.lenI_eq] at hnextT hd hwork hemit hguard
  rw [k.lenNs_eq] at hswn
  rw [k.tmu] at hbLoc
  exact ⟨hbegun, hbT, hbLoc, hnextT, hd, hwork, hemit, hguard, hslip, hphase, hrun, hswn⟩

/-- The swath timer, its phase and its number once the new swath has begun. -/
def begunSwath (s : State) (b : Inst) : State :=
  (((s.setSwt { s.swt with
    begun := true, firstT := none, bT := b, bLoc := s.tmu.loc, nextT := (b / s.lenI + 1) * s.lenI, d := s.lenI, workAt := cdiv (8 * s.lenI) 100
    emitAt := cdiv (88 * s.lenI) 100, guardAt := cdiv (96 * s.lenI) 100, q := s.quot b, gatherDone := false, slipped := false }).setFld
    R.SWT_STAT_PHASE 0).setFld R.SWT_STAT_RUN 1).setReg R.SWT_SWN (s.swnAt b)

theorem newSwath_eq (s : State) (b : Inst) : s.newSwath b =
    if (begunSwath s b).entryOver ((begunSwath s b).entryAt b) then (begunSwath s b).bump R.SWT_OVER_CNT else begunSwath s b := rfl

theorem begins_begunSwath (s : State) (b : Inst) : Begins s (begunSwath s b) b where
  begun := rfl
  bT := rfl
  bLoc := rfl
  nextT := rfl
  d := rfl
  workAt := rfl
  emitAt := rfl
  guardAt := rfl
  slipped := rfl
  phase := by
    rw [begunSwath, fld_setReg_ne (by decide), fld_setFld_apart (.inr (.inl (by decide))) (by decide)]
    exact fld_setPhase _ .gather
  run := by rw [begunSwath, fld_setReg_ne (by decide), fld_setFld_same _ _ _ (by decide)]; rfl
  swn := by rw [begunSwath, State.reg_setReg_same, State.swnAt, State.quot, Nat.mod_mod]

theorem idling_begunSwath (s : State) (b : Inst) : Idling s (begunSwath s b) :=
  (((idling_setSwt s _).trans (idling_setFld (f := R.SWT_STAT_PHASE) (by decide))).trans (idling_setFld (f := R.SWT_STAT_RUN) (by decide))).trans
    (idling_setReg (by decide))

/-- The count of boundaries over a budget touches nothing of the swath. -/
theorem begins_newSwath (s : State) (b : Inst) : Begins s (s.newSwath b) b := by
  have h := begins_begunSwath s b
  rw [newSwath_eq]
  split
  · obtain ⟨hbegun, hbT, hbLoc, hnextT, hd, hwork, hemit, hguard, hslip, hphase, hrun, hswn⟩ := h
    exact ⟨hbegun, hbT, hbLoc, hnextT, hd, hwork, hemit, hguard, hslip, (fld_setReg_ne (by decide)).trans hphase,
      (fld_setReg_ne (by decide)).trans hrun, (State.reg_bump_ne _ (by decide)).trans hswn⟩
  · exact h

theorem idling_newSwath (s : State) (b : Inst) : Idling s (s.newSwath b) := by
  rw [newSwath_eq]
  split
  · exact (idling_begunSwath s b).trans (idling_setReg (by decide))
  · exact idling_begunSwath s b

/-- The phases still owed leave what the next swath is made from (R41). -/
theorem Calm.phasesOwed {s : State} (h : Calm s) : Idling s s.phasesOwed := by
  have hd : Idling s (if s.phase = .work ∨ s.phase = .gather then s.deadline else s) := by
    split
    · obtain ⟨x, hx⟩ := h.deadline
      rw [hx]
      exact ((idling_setSwt s _).trans (idling_setFld (by decide))).trans ⟨rfl, rfl, rfl, id, rfl⟩
    · exact Idling.refl s
  simp only [State.phasesOwed]
  generalize (if s.phase = .work ∨ s.phase = .gather then s.deadline else s) = u at hd ⊢
  split
  · exact (hd.trans (idling_setFld (by decide))).trans (hd.calm h).guardStart.toIdling
  · exact hd

/-- A boundary of a part in which nothing runs begins its swath and starts nothing. -/
theorem Calm.boundary {s : State} (h : Calm s) (hl : s.legless) (b : Inst) : Idling s (s.boundary b) ∧ Begins s (s.boundary b) b := by
  have hpre := h.beforeSwath hl b
  have hnew := hpre.trans (idling_newSwath _ b)
  have hpost := (hnew.calm h).afterSwath b
  rw [boundary_eq]
  exact ⟨hnew.trans hpost.toIdling, ((begins_newSwath _ b).still hpost).idling hpre⟩

theorem exec_swathBoundary (s : State) : exec .swathBoundary s =
    .next (if s.mode ≠ .service ∨ s.fld R.TMU_STAT_VALID = 0 then s
      else if s.swt.begun then (if s.swt.nextT ≤ s.now then s.phasesOwed.boundary s.swt.nextT else s)
      else match s.swt.firstT with
        | some b => if b ≤ s.now then s.boundary b else s
        | none => s) := rfl

section due
variable {s : State} {b : Inst} (hm : s.mode = .service) (hv : s.fld R.TMU_STAT_VALID = 1) (hn : b ≤ s.now)
include hm hv hn

theorem exec_nextBoundary (hb : s.swt.begun = true) (ht : s.swt.nextT = b) : exec .swathBoundary s = .next (s.phasesOwed.boundary b) := by
  subst ht
  rw [exec_swathBoundary, if_neg (by simp [hm, hv]), if_pos hb, if_pos hn]

theorem exec_firstBoundary (hb : s.swt.begun = false) (ht : s.swt.firstT = some b) : exec .swathBoundary s = .next (s.boundary b) := by
  rw [exec_swathBoundary, if_neg (by simp [hm, hv]), if_neg (by simp [hb]), ht]
  exact congrArg _ (if_pos hn)

end due

end Sys2Proof.Machine

section

open Sys2Proof.Machine

/-- Settles O11: in a part in which nothing runs, what surrounds the new swath within its boundary changes neither time nor the length of a swath,
and what follows it leaves the swath timer as the new swath has set it. -/
theorem aBoundaryBeginsASwath : Obligations.ABoundaryBeginsASwath := by
  intro s b h hm hv hst hn
  have key : ∃ t, exec .swathBoundary s = .next t ∧ Idling s t ∧ Begins s t b := by
    obtain ⟨hb, ht⟩ | ⟨hb, ht⟩ := hst
    · have howed := h.calm.phasesOwed
      obtain ⟨hi, hbeg⟩ := (howed.calm h.calm).boundary (howed.legless h.legless) b
      exact ⟨_, exec_nextBoundary hm hv hn hb ht, howed.trans hi, hbeg.idling howed⟩
    · exact ⟨_, exec_firstBoundary hm hv hn hb ht, h.calm.boundary h.legless b⟩
  obtain ⟨t, he, hi, k⟩ := key
  have hc := hi.calm h.calm
  exact ⟨t, he, k.begun, k.bT, k.bLoc, k.nextT, k.d, k.workAt, k.emitAt, k.guardAt, k.slipped, phase_of_code (p := .gather) k.phase, k.run, k.swn,
    hi.tmu, hi.nv, hc.legs, hc.tasks⟩

end

namespace Sys2Proof.Machine

open Sys2Proof

/-! The settings and the status of the PTP stack (R96, R97). -/

theorem exec_timeClock (q : Req) (s : State) : exec (.timeClock q) s = .next (runOp opTimeClock 0x0601 q s) := rfl
theorem exec_timePort (q : Req) (s : State) : exec (.timePort q) s = .next (runOp opTimePort 0x0602 q s) := rfl
theorem exec_timeUnicast (q : Req) (s : State) : exec (.timeUnicast q) s = .next (runOp opTimeUnicast 0x0603 q s) := rfl
theorem exec_timeStatus (q : Req) (s : State) : exec (.timeStatus q) s = .next (runOp opTimeStatus 0x0681 q s) := rfl
theorem exec_timePortStatus (q : Req) (s : State) : exec (.timePortStatus q) s = .next (runOp opTimePortStatus 0x0682 q s) := rfl

/-- A setting of the PTP stack is replaced: it is an effect on the time unit alone. -/
theorem acts_setTmu {d : OpDef} {op : Nat} {plan : List Nat} {q : Req} {s : State} {f : Tmu → Tmu}
    (happ : ∀ c v, d.app c plan v q.payload = Done.ok (v.setTmu (f v.tmu))) : Acts d op plan q s (s.setTmu (f s.tmu)) St.ok 0 [] :=
  acts_of_aside (f := fun v => v.setTmu (f v.tmu)) (fun c v _ => happ c v) (fun v hv => by rw [hv.tmu_eq]; exact hv.setTmu _) fun _ => rfl

/-- A status that takes a free value, and reads the same of every state that differs aside (R97). -/
theorem does_status {d : OpDef} {op : Nat} {mk : Req → Instr} {r : Req → State → Bytes}
    (hx : ∀ q s, exec (mk q) s = .next (runOp d op q s)) (hj : ∀ b, d.jrnl b = false)
    (happ : ∀ c plan v q, d.app c plan v q.payload = Done.res v.drawn (r q v)) (hr : ∀ q s v, Aside q.mbox.val s v → r q v = r q s) :
    Does false d op mk fun q s => (s.drawn, St.ok, r q s) :=
  does_direct hx hj fun q s _ _ => acts_of_aside (f := State.drawn) (fun c v hv => by rw [happ, hr q s v hv]; rfl)
    (fun _ hv => hv.drawn) fun _ => rfl

theorem timeClock_does : Does true opTimeClock 0x0601 .timeClock (done fun q s => s.setTmu { s.tmu with ptpRole := q.payload }) :=
  does_journaled exec_timeClock (fun _ => rfl) rfl fun q _ _ _ => acts_setTmu (f := fun x => { x with ptpRole := q.payload }) fun _ _ => rfl

theorem timePort_does : Does true opTimePort 0x0602 .timePort
    (done fun q s => s.setTmu { s.tmu with ptpPorts := kset s.tmu.ptpPorts (u8 q.payload 0) q.payload }) :=
  does_journaled exec_timePort (fun _ => rfl) rfl fun q _ _ _ =>
    acts_setTmu (f := fun x => { x with ptpPorts := kset x.ptpPorts (u8 q.payload 0) q.payload }) fun _ _ => rfl

theorem timeUnicast_does : Does true opTimeUnicast 0x0603 .timeUnicast
    (done fun q s => s.setTmu { s.tmu with ptpUnicast := kset s.tmu.ptpUnicast (u8 q.payload 0) q.payload }) :=
  does_journaled exec_timeUnicast (fun _ => rfl) rfl fun q _ _ _ =>
    acts_setTmu (f := fun x => { x with ptpUnicast := kset x.ptpUnicast (u8 q.payload 0) q.payload }) fun _ _ => rfl

section congr
variable {m : Nat} {s t : State} (h : Aside m s t)
include h

theorem Aside.ptpRole_eq : t.ptpRole = s.ptpRole := by unfold State.ptpRole; rw [h.tmu_eq]
theorem Aside.ptpProfile_eq : t.ptpProfile = s.ptpProfile := by unfold State.ptpProfile; rw [h.tmu_eq]
theorem Aside.ptpPortState_eq (d : Bytes) : t.ptpPortState d = s.ptpPortState d := by
  funext p; unfold State.ptpPortState; rw [h.ptpRole_eq, h.tmu_eq]

end congr

theorem timeStatus_does : Does false opTimeStatus 0x0681 .timeStatus (fun _ s => (s.drawn, St.ok,
    (List.range 7).map (s.ptpPortState (s.drawBytes 44)) ++ zeros 1 ++ sub (s.drawBytes 44) 7 21 ++ zeros 3 ++
      sub (s.drawBytes 44) 28 16 ++ be 1 s.tmu.srv.lock.code ++ zeros 3)) :=
  does_status exec_timeStatus (fun _ => rfl) (fun _ _ _ _ => rfl) fun q s v hv => by
    simp only [hv.drawBytes_eq, hv.ptpPortState_eq, hv.tmu_eq]

theorem timePortStatus_does : Does false opTimePortStatus 0x0682 .timePortStatus (fun q s => (s.drawn, St.ok,
    kgetD s.tmu.ptpPorts (u8 q.payload 0) (be 1 (u8 q.payload 0) ++ zeros 35) ++
      (if s.ptpRole ≠ 0 ∧ s.ptpProfile = 2 then be 2 (s.draw 32 % 513) ++ be 1 (s.draw 32 / 1024 % 5) else zeros 3) ++ zeros 1)) :=
  does_status exec_timePortStatus (fun _ => rfl) (fun _ _ _ _ => rfl) fun q s v hv => by
    simp only [hv.draw_eq, hv.ptpRole_eq, hv.ptpProfile_eq, hv.tmu_eq]

/-- A port's state is one of the nine codes of IEEE 1588, and DISABLED where no clock runs on it. -/
theorem ptpPortState_code (s : State) (d : Bytes) (p : Nat) : 1 ≤ (s.ptpPortState d p).toNat ∧ (s.ptpPortState d p).toNat ≤ 9 ∧
    (s.ptpRole = 0 ∨ u8 (kgetD s.tmu.ptpPorts p []) 1 ≠ 1 → s.ptpPortState d p = 3) := by
  unfold State.ptpPortState
  split
  · exact ⟨by decide, by decide, fun _ => rfl⟩
  · next hrun =>
    have hcode : (BitVec.ofNat 8 (1 + u8 d p % 9)).toNat = 1 + u8 d p % 9 := by
      rw [BitVec.toNat_ofNat, Nat.mod_eq_of_lt (by omega)]
    rw [hcode]
    exact ⟨by omega, by omega, fun k => absurd k hrun⟩

end Sys2Proof.Machine

section
open Sys2Proof.Machine

/-- Settles O43: each setting is replaced alone, each status reads the settings, and a port's state is a code of IEEE 1588. -/
theorem theTimeProfileIsSet : Obligations.TheTimeProfileIsSet :=
  ⟨timeClock_does, timePort_does, timeUnicast_does, timeStatus_does, ptpPortState_code, timePortStatus_does⟩

end

namespace Sys2Proof.Machine

open Sys2Proof

/-! Reads of the time unit's registers (R106, R107, R595). -/

theorem exec_tmuTimeSecHiRead (p : Path) (s : State) : exec (.tmuTimeSecHiRead p) s = .next (readOne p R.TMU_TIME_SEC_HI s) := rfl
theorem exec_tmuTinPop (n : Fin 5) (p : Path) (s : State) : exec (.tmuTinPop n p) s = .next (readOne p (R.TMU_TIN_POP n.val) s) := rfl

theorem qcpReg_tmu {a : Nat} (h : a / 0x10000 = 2) : qcpReg a = false := qcpReg_false (by omega) (by omega)

theorem tmu_secHi_defined : (regAt R.TMU_TIME_SEC_HI).isSome := by decide +kernel

theorem tmu_tin_defined : ∀ n < 5, (regAt (R.TMU_TIN_POP n)).isSome ∧ regReset (R.TMU_TIN_POP n) = 0 ∧ (regAt (R.TMU_TIN_SEC_LO n)).isSome ∧
    (regAt (R.TMU_TIN_NS n)).isSome ∧ (regAt (R.TMU_TIN_FRAC n)).isSome := by decide +kernel

theorem readReg_tmu {s : State} {i2c : Bool} {a : Nat} (hr : (regAt a).isSome) (h2 : a / 0x10000 = 2) :
    s.readReg i2c a = (tmuView s i2c a).getD (s.reg a) % 2 ^ 32 := by
  obtain ⟨x, hx⟩ := Option.isSome_iff_exists.1 hr
  simp only [State.readReg, hx, State.view, h2]

/-- A read does what any function does that agrees with its effect. -/
theorem Reads.congr {mk : Path → Instr} {a : Nat} {act act' : Bool → State → State} {val : Bool → State → Nat} (h : Reads mk a act val)
    (he : ∀ i2c s, act' i2c s = act i2c s) : Reads mk a act' val := by
  obtain rfl : act' = act := funext fun i2c => funext (he i2c)
  exact h

theorem timeSecHi_reads : Reads .tmuTimeSecHiRead R.TMU_TIME_SEC_HI
    (fun i2c s => s.setTmu (if i2c then { s.tmu with latI := s.now } else { s.tmu with latQ := s.now }))
    (fun _ s => s.now / secI / 2 ^ 32 % 2 ^ 16) := by
  refine reads_of_readAct exec_tmuTimeSecHiRead (by decide) (by decide) (fun i2c s => ?_) (fun i2c s => ?_) (fun _ _ _ => rfl) (fun _ _ => rfl)
    (fun m s u h => ?_) (fun m s u h => by rw [h.now_eq]) fun _ _ => rfl
  · cases i2c <;> rfl
  · rw [readReg_tmu tmu_secHi_defined (by decide)]
    have hlt : s.now / secI / 2 ^ 32 % 2 ^ 16 < 2 ^ 32 := Nat.lt_trans (Nat.mod_lt _ (by decide)) (by decide)
    cases i2c <;> exact Nat.mod_eq_of_lt hlt
  · rw [h.tmu_eq, h.now_eq]
    exact h.setTmu _

/-! The registers of the event inputs. -/

/-- They lie behind all others that mirror state. -/
theorem input_above {a : Nat} (h : 0x20200 ≤ a) : a ≠ R.TMU_STAT ∧ a ≠ R.TMU_TIME_SEC_HI ∧ a ≠ R.TMU_TIME_SEC_LO ∧
    a ≠ R.TMU_TIME_NS ∧ a ≠ R.TMU_TIME_FRAC ∧ a ≠ R.TMU_OFS_STAT ∧ ¬ (0x20100 ≤ a ∧ a < 0x20180 ∧ a % 0x20 = 0x18) := by
  simp only [R.TMU_STAT, R.TMU_TIME_SEC_HI, R.TMU_TIME_SEC_LO, R.TMU_TIME_NS, R.TMU_TIME_FRAC, R.TMU_OFS_STAT]
  omega

theorem input_place {a n o : Nat} (ha : a = 0x20200 + n * 0x20 + o) (hn : n < 5) (ho : o < 0x20) :
    0x20200 ≤ a ∧ a < 0x202A0 ∧ a % 0x20 = o ∧ (a - 0x20200) / 0x20 = n ∧ a / 0x10000 = 2 := by omega

/-- The capture last popped over a path. -/
def State.tinLatch (s : State) (n : Nat) (i2c : Bool) : Inst := if i2c then (s.tin n).latchI else (s.tin n).latch

section input
variable {n : Nat} (hn : n < 5) (s : State) (i2c : Bool)
include hn

theorem readReg_tinPop : s.readReg i2c (R.TMU_TIN_POP n) = s.reg (R.TMU_TIN_POP n) := by
  obtain ⟨hpop, h0, -⟩ := tmu_tin_defined n hn
  obtain ⟨hlo, hhi, hoff, -, hwin⟩ := input_place (a := R.TMU_TIN_POP n) (o := 8) (by simp only [R.TMU_TIN_POP]; omega) hn (by decide)
  have hview : tmuView s i2c (R.TMU_TIN_POP n) = none := by simp [tmuView, input_above hlo, hoff]
  rw [readReg_tmu hpop hwin, hview]
  exact Nat.mod_eq_of_lt (reg_lt (by rw [h0]; decide))

theorem readReg_tinSecLo : s.readReg i2c (R.TMU_TIN_SEC_LO n) = s.tinLatch n i2c / secI % 2 ^ 32 := by
  obtain ⟨-, -, hdef, -⟩ := tmu_tin_defined n hn
  obtain ⟨hlo, hhi, hoff, hn', hwin⟩ := input_place (a := R.TMU_TIN_SEC_LO n) (o := 12) (by simp only [R.TMU_TIN_SEC_LO]; omega) hn (by decide)
  have hview : tmuView s i2c (R.TMU_TIN_SEC_LO n) = some (s.tinLatch n i2c / secI % 2 ^ 32) := by
    simp [tmuView, input_above hlo, hlo, hhi, hoff, hn', State.tinLatch]
  rw [readReg_tmu hdef hwin, hview]
  exact Nat.mod_mod _ _

theorem readReg_tinNs : s.readReg i2c (R.TMU_TIN_NS n) = s.tinLatch n i2c % secI / 65536 := by
  obtain ⟨-, -, -, hdef, -⟩ := tmu_tin_defined n hn
  obtain ⟨hlo, hhi, hoff, hn', hwin⟩ := input_place (a := R.TMU_TIN_NS n) (o := 16) (by simp only [R.TMU_TIN_NS]; omega) hn (by decide)
  have hview : tmuView s i2c (R.TMU_TIN_NS n) = some (s.tinLatch n i2c % secI / 65536) := by
    simp [tmuView, input_above hlo, hlo, hhi, hoff, hn', State.tinLatch]
  rw [readReg_tmu hdef hwin, hview]
  exact Nat.mod_eq_of_lt (by unfold secI; simp only [Option.getD_some]; omega)

theorem readReg_tinFrac : s.readReg i2c (R.TMU_TIN_FRAC n) = s.tinLatch n i2c % 65536 := by
  obtain ⟨-, -, -, -, hdef⟩ := tmu_tin_defined n hn
  obtain ⟨hlo, hhi, hoff, hn', hwin⟩ := input_place (a := R.TMU_TIN_FRAC n) (o := 20) (by simp only [R.TMU_TIN_FRAC]; omega) hn (by decide)
  have hview : tmuView s i2c (R.TMU_TIN_FRAC n) = some (s.tinLatch n i2c % 65536) := by
    simp [tmuView, input_above hlo, hlo, hhi, hoff, hn', State.tinLatch]
  rw [readReg_tmu hdef hwin, hview]
  exact Nat.mod_eq_of_lt (Nat.lt_trans (Nat.mod_lt _ (by decide)) (by decide))

end input

/-! Captures that are popped (R106). -/

/-- The input once its oldest capture has been popped over a path. -/
def Tin.popped (x : Tin) (i2c : Bool) (c : Cap) (r : List Cap) : Tin :=
  { x with fifo := r, latch := if i2c then x.latch else c.at_, latchI := if i2c then c.at_ else x.latchI }

/-- What a pop shows of a capture: its valid bit, its edge and its upper seconds. -/
def Cap.shown (c : Cap) : Nat := c.at_ / secI / 2 ^ 32 * 2 ^ 16 + b2n c.rise * 2 + 1

theorem tinPop_nil {s : State} {n : Nat} (h : (s.tin n).fifo = []) (i2c : Bool) : s.tinPop i2c n = (s, 0) := by
  simp only [State.tinPop, h]

theorem tinPop_cons {s : State} {n : Nat} {c : Cap} {r : List Cap} (h : (s.tin n).fifo = c :: r) (i2c : Bool) :
    s.tinPop i2c n = (s.setTin n ((s.tin n).popped i2c c r), c.shown) := by
  simp only [State.tinPop, h]
  cases i2c <;> rfl

/-- What a read of TMU_TINn_POP does: the pop, with what it shows in the register. -/
def State.tinPopped (s : State) (i2c : Bool) (n : Nat) : State := (s.tinPop i2c n).1.setReg (R.TMU_TIN_POP n) (s.tinPop i2c n).2

theorem tinPopped_nil {s : State} {n : Nat} (h : (s.tin n).fifo = []) (i2c : Bool) : s.tinPopped i2c n = s.setReg (R.TMU_TIN_POP n) 0 := by
  rw [State.tinPopped, tinPop_nil h]

theorem tinPopped_cons {s : State} {n : Nat} {c : Cap} {r : List Cap} (h : (s.tin n).fifo = c :: r) (i2c : Bool) :
    s.tinPopped i2c n = (s.setTin n ((s.tin n).popped i2c c r)).setReg (R.TMU_TIN_POP n) c.shown := by
  rw [State.tinPopped, tinPop_cons h]

theorem tinPopped_sess (s : State) (i2c : Bool) (n m : Nat) : (s.tinPopped i2c n).sess m = s.sess m := by
  cases hf : (s.tin n).fifo with
  | nil => rw [tinPopped_nil hf]; rfl
  | cons c r => rw [tinPopped_cons hf]; rfl

theorem tinPopped_i2cAddr (s : State) (i2c : Bool) (n x : Nat) :
    ({ s with i2cAddr := x } : State).tinPopped i2c n = { s.tinPopped i2c n with i2cAddr := x } := by
  cases hf : (s.tin n).fifo with
  | nil => rw [tinPopped_nil hf, tinPopped_nil (s := { s with i2cAddr := x }) hf]; rfl
  | cons c r => rw [tinPopped_cons hf, tinPopped_cons (s := { s with i2cAddr := x }) hf]; rfl

theorem Aside.tin_eq {m : Nat} {s t : State} (h : Aside m s t) (n : Nat) : t.tin n = s.tin n := by unfold State.tin; rw [h.tmu_eq]

theorem Aside.setTin {m : Nat} {s t : State} (h : Aside m s t) (n : Nat) (x : Tin) : Aside m (s.setTin n x) (t.setTin n x) := by
  unfold State.setTin; rw [h.tmu_eq]; exact h.setTmu _

theorem Aside.tinPopped {m : Nat} {s t : State} (h : Aside m s t) (i2c : Bool) (n : Nat) : Aside m (s.tinPopped i2c n) (t.tinPopped i2c n) := by
  have ht := h.tin_eq n
  cases hf : (s.tin n).fifo with
  | nil => rw [tinPopped_nil hf, tinPopped_nil (ht ▸ hf)]; exact h.setReg _ _
  | cons c r => rw [tinPopped_cons hf, tinPopped_cons (ht ▸ hf), ht]; exact (h.setTin _ _).setReg _ _

theorem readAct_tinPop {n : Nat} (hn : n < 5) (s : State) (i2c : Bool) : s.readAct i2c (R.TMU_TIN_POP n) = s.tinPopped i2c n := by
  obtain ⟨hlo, hhi, hoff, hn', -⟩ := input_place (a := R.TMU_TIN_POP n) (o := 8) (by simp only [R.TMU_TIN_POP]; omega) hn (by decide)
  rw [State.readAct, if_neg (input_above hlo).2.1, if_pos ⟨hlo, hhi, hoff⟩, hn']
  rfl

theorem tinPop_reads (n : Fin 5) : Reads (fun p => .tmuTinPop n p) (R.TMU_TIN_POP n.val) (fun i2c s => s.tinPopped i2c n.val)
    (fun _ s => s.reg (R.TMU_TIN_POP n.val)) := by
  have hlt : R.TMU_TIN_POP n.val < 2 ^ 32 := by simp only [R.TMU_TIN_POP]; omega
  have h4 : R.TMU_TIN_POP n.val % 4 = 0 := by simp only [R.TMU_TIN_POP]; omega
  have hq : qcpReg (R.TMU_TIN_POP n.val) = false := qcpReg_tmu (by simp only [R.TMU_TIN_POP]; omega)
  exact reads_of_readAct (exec_tmuTinPop n) hlt h4 (fun i2c s => readAct_tinPop n.isLt s i2c) (fun i2c s => readReg_tinPop n.isLt _ i2c)
    (fun s x y => by rw [tinPopped_i2cAddr]) (fun s x => by rw [tinPopped_i2cAddr]; rfl) (fun _ _ _ h => h.tinPopped _ _)
    (fun _ _ _ h => h.reg_eq hq) fun m u => by rw [tinPopped_sess]

end Sys2Proof.Machine

section
open Sys2Proof.Machine

/-- Settles O10: both reads latch on their own path, and the registers that follow a pop read from the latch of their path. -/
theorem timeIsReadPerPath : Obligations.TimeIsReadPerPath := by
  refine ⟨timeSecHi_reads, fun n => (tinPop_reads n).congr fun i2c s => ?_, fun n i2c s =>
    ⟨readReg_tinSecLo n.isLt s i2c, readReg_tinNs n.isLt s i2c, readReg_tinFrac n.isLt s i2c⟩⟩
  cases hf : (s.tin n.val).fifo with
  | nil => simp only [tinPopped_nil hf, hf]
  | cons c r => simp only [tinPopped_cons hf, hf]; rfl

end

namespace Sys2Proof.Machine

open Sys2Proof

/-! Writes of the time unit's registers (R59, R60, R72, R73, R91, R101, R103). -/

theorem exec_tmuCtlSet (c : RegCmd) (s : State) : exec (.tmuCtlSet c) s = .next (writeOne c R.TMU_CTL 1 s) := rfl
theorem exec_tmuCtlStep (c : RegCmd) (s : State) : exec (.tmuCtlStep c) s = .next (writeOne c R.TMU_CTL 2 s) := rfl
theorem exec_tmuAddendWrite (c : RegCmd) (ext : Bool) (v : Word) (s : State) :
    exec (.tmuAddendWrite c ext v) s = .next (writeOne c (if ext then R.TMU_ADDEND_EXT else R.TMU_ADDEND) v.toNat s) := rfl
theorem exec_tmuSrvEnWrite (c : RegCmd) (v : Word) (s : State) :
    exec (.tmuSrvEnWrite c v) s = .next (writeOne c R.TMU_SRV_CTL v.toNat s) := rfl
theorem exec_tmuRefSelWrite (c : RegCmd) (v : Word) (s : State) : exec (.tmuRefSelWrite c v) s = .next (writeOne c R.TMU_CFG v.toNat s) := rfl
theorem exec_tmuToutArm (n : Fin 4) (c : RegCmd) (s : State) :
    exec (.tmuToutArm n c) s = .next (writeOne c (R.TMU_TOUT_CTL n.val) (s.toutCtl n.val 1) s) := rfl
theorem exec_tmuToutDisarm (n : Fin 4) (c : RegCmd) (s : State) :
    exec (.tmuToutDisarm n c) s = .next (writeOne c (R.TMU_TOUT_CTL n.val) (s.toutCtl n.val 2) s) := rfl

/-- A write of one register at a state completes with what writing the pair does to every state that differs aside; its status says whether it
armed something late. -/
theorem completes_writeOne {i : Instr} {c : RegCmd} {a v : Nat} {s e : State} {late : Bool} (hx : exec i s = .next (writeOne c a v s))
    (ha : a < 2 ^ 32) (hv : v < 2 ^ 32) (hb : a ≠ R.SWT_LOFT_BUD) (hacc : Accepted opRegWrite 0x0201 (writeReq c a v) s [])
    (he : ∀ u, Aside c.mbox.val s u → Aside c.mbox.val e (u.writePair a v)) (hl : ∀ u, Aside c.mbox.val s u → tmuLate u a v = late)
    (hf : ∀ (m : Nat) (u : State), ((u.writePair a v).sess m).face = (u.sess m).face) :
    Completes false i 0x0201 (writeReq c a v) s e (if late then St.late else St.ok) 0 [] := by
  refine completes_direct hx hacc (writeReq_not_journaled c a v) (Nat.zero_le _) fun u k hu _ _ _ _ _ => ⟨u.writePair a v, ?_, he u hu, hf _ u⟩
  have hm : u.mustMove [(a, v)] = false := by simp [State.mustMove, hb]
  simp only [opRegWrite, pairsOf_writeReq c ha hv, hm, Bool.false_eq_true, if_false, regApply, applyPairs, List.foldl_cons, List.foldl_nil,
    hl u hu, Bool.false_or]

theorem tmu_written_defined : ∀ a ∈ [R.TMU_CTL, R.TMU_ADDEND, R.TMU_ADDEND_EXT, R.TMU_SRV_CTL, R.TMU_CFG], (regAt a).isSome := by decide +kernel

theorem tmu_tout_defined : ∀ n < 4, (regAt (R.TMU_TOUT_CTL n)).isSome ∧ regReset (R.TMU_TOUT_CTL n) = 0 := by decide +kernel

/-- A write stores the value, and then has the effect of the time unit. -/
theorem writePair_tmu {a : Nat} (hr : (regAt a).isSome) (h2 : a / 0x10000 = 2) (s : State) (v : Nat) :
    s.writePair a v = tmuEffect (s.stored a v) a (s.reg a) v := by
  rw [State.writePair, if_pos hr]
  simp only [State.effect, h2]
  rfl

theorem writePair_tmuCtl (s : State) (v : Nat) : s.writePair R.TMU_CTL v = (s.stored R.TMU_CTL v).ctlPend v :=
  writePair_tmu (tmu_written_defined _ (by decide)) (by decide) s v

theorem writePair_srvCtl (s : State) (v : Nat) : s.writePair R.TMU_SRV_CTL v =
    if tb v 0 = tb (s.reg R.TMU_SRV_CTL) 0 then s.stored R.TMU_SRV_CTL v else (s.stored R.TMU_SRV_CTL v).srvRequest (tb v 0) :=
  writePair_tmu (tmu_written_defined _ (by decide)) (by decide) s v

theorem writePair_tmuCfg (s : State) (v : Nat) : s.writePair R.TMU_CFG v = (s.stored R.TMU_CFG v).refWrite (tb v 0) :=
  writePair_tmu (tmu_written_defined _ (by decide)) (by decide) s v

/-- Before the outputs no write is late. -/
theorem tmuLate_below {s : State} {a v : Nat} (h : a < 0x20100) : tmuLate s a v = false := by
  simp [tmuLate, Nat.not_le.2 h]

/-! SET and STEP (R73). -/

theorem reg_stored_ne {s : State} {a v b : Nat} (h : a ≠ b) : (s.stored a v).reg b = s.reg b := State.reg_setReg_ne _ _ h

theorem setValue_stored (s : State) (v : Nat) : (s.stored R.TMU_CTL v).setValue = s.setValue := by
  simp only [State.setValue, fld_stored_ne (f := R.TMU_SET_SEC_HI_SEC_HI) (a := R.TMU_CTL) (by decide),
    fld_stored_ne (f := R.TMU_SET_NS_NS) (a := R.TMU_CTL) (by decide), reg_stored_ne (a := R.TMU_CTL) (b := R.TMU_SET_SEC_LO) (by decide)]

theorem stepAmount_stored (s : State) (v : Nat) : (s.stored R.TMU_CTL v).stepAmount = s.stepAmount := by
  simp only [State.stepAmount, fld_stored_ne (f := R.TMU_STEP_NS_NS) (a := R.TMU_CTL) (by decide),
    reg_stored_ne (a := R.TMU_CTL) (b := R.TMU_STEP_SEC) (by decide)]

theorem writePair_set (s : State) :
    s.writePair R.TMU_CTL 1 = (s.stored R.TMU_CTL 1).setTmu { s.tmu with pendSet := some s.setValue } := by
  rw [writePair_tmuCtl, ← setValue_stored s 1]
  rfl

theorem writePair_step (s : State) : s.writePair R.TMU_CTL 2 =
    (s.stored R.TMU_CTL 2).setTmu { s.tmu with pendStep := some (s.tmu.pendStep.getD 0 + s.stepAmount) } := by
  rw [writePair_tmuCtl, ← stepAmount_stored s 2]
  rfl

section congr
variable {m : Nat} {s t : State} (h : Aside m s t)
include h

theorem Aside.tmuReg_eq {a : Nat} (ha : a / 0x10000 = 2) : t.reg a = s.reg a := h.reg_eq (qcpReg_tmu ha)
theorem Aside.tmuFld_eq {f : Fld} (hf : f.addr / 0x10000 = 2) : t.fld f = s.fld f := h.fld_eq (qcpReg_tmu hf)

theorem Aside.setValue_eq : t.setValue = s.setValue := by
  simp only [State.setValue, h.tmuFld_eq (f := R.TMU_SET_SEC_HI_SEC_HI) rfl, h.tmuFld_eq (f := R.TMU_SET_NS_NS) rfl,
    h.tmuReg_eq (a := R.TMU_SET_SEC_LO) rfl]

theorem Aside.stepAmount_eq : t.stepAmount = s.stepAmount := by
  simp only [State.stepAmount, h.tmuFld_eq (f := R.TMU_STEP_NS_NS) rfl, h.tmuReg_eq (a := R.TMU_STEP_SEC) rfl]

end congr

theorem tmuCtlSet_writes : Writes .tmuCtlSet (fun _ => R.TMU_CTL) (fun _ => 1)
    (fun s => (s.stored R.TMU_CTL 1).setTmu { s.tmu with pendSet := some s.setValue }) := by
  refine writes_of_writePair exec_tmuCtlSet (by decide) (by decide) (by decide) (fun _ => tmuLate_below (by decide)) (fun m s u h => ?_) fun m u => ?_
  · rw [writePair_set, h.tmu_eq, h.setValue_eq]
    exact (h.stored (by decide) _).setTmu _
  · rw [writePair_set]; rfl

theorem tmuCtlStep_writes : Writes .tmuCtlStep (fun _ => R.TMU_CTL) (fun _ => 2) (fun s =>
    (s.stored R.TMU_CTL 2).setTmu { s.tmu with pendStep := some (s.tmu.pendStep.getD 0 + s.stepAmount) }) := by
  refine writes_of_writePair exec_tmuCtlStep (by decide) (by decide) (by decide) (fun _ => tmuLate_below (by decide)) (fun m s u h => ?_) fun m u => ?_
  · rw [writePair_step, h.tmu_eq, h.stepAmount_eq]
    exact (h.stored (by decide) _).setTmu _
  · rw [writePair_step]; rfl

/-! The addend, the servo's enable and the selection of the reference (R72, R91, R599). -/

/-- A register of the time unit that only stores what is written. -/
theorem writes_stored {mk : RegCmd → Instr} {a : Nat} {v : Word} (hx : ∀ c s, exec (mk c) s = .next (writeOne c a v.toNat s))
    (ha : a / 0x10000 = 2) (hlow : a < 0x20100) (he : ∀ s : State, s.writePair a v.toNat = s.stored a v.toNat) :
    Writes mk (fun _ => a) (fun _ => v.toNat) fun s => s.stored a v.toNat := by
  refine writes_of_writePair hx (by omega) v.isLt (by simp only [R.SWT_LOFT_BUD]; omega) (fun _ => tmuLate_below hlow) (fun m s u h => ?_) fun m u => ?_
  · rw [he]
    exact h.stored (qcpReg_tmu ha) _
  · rw [he, sess_stored]

theorem tmuAddendWrite_writes (v : Word) : Writes (fun c => .tmuAddendWrite c false v) (fun _ => R.TMU_ADDEND) (fun _ => v.toNat)
    (fun s => s.stored R.TMU_ADDEND v.toNat) :=
  writes_stored (fun c s => exec_tmuAddendWrite c false v s) rfl (by decide) fun s => writePair_tmu (tmu_written_defined _ (by decide)) rfl s _

theorem tmuAddendExtWrite_writes (v : Word) : Writes (fun c => .tmuAddendWrite c true v) (fun _ => R.TMU_ADDEND_EXT) (fun _ => v.toNat)
    (fun s => s.stored R.TMU_ADDEND_EXT v.toNat) :=
  writes_stored (fun c s => exec_tmuAddendWrite c true v s) rfl (by decide) fun s => writePair_tmu (tmu_written_defined _ (by decide)) rfl s _

/-- The selection of the reference is armed or not, and moves at once where the reference is present (R72). -/
theorem refWrite_eq (s : State) (sel : Bool) : s.refWrite sel =
    if sel then (if s.fld R.TMU_STAT_REF_OK = 1 then (s.setTmu { s.tmu with refArmed := sel }).setFld R.TMU_STAT_REF_ACTIVE 1
      else s.setTmu { s.tmu with refArmed := sel })
    else (s.setTmu { s.tmu with refArmed := sel }).setFld R.TMU_STAT_REF_ACTIVE 0 := by
  cases sel
  · rfl
  · simp only [State.refWrite, State.refSelect, State.setTmu_tmu, true_and, if_true]
    rfl

theorem refWrite_sess (s : State) (sel : Bool) (m : Nat) : (s.refWrite sel).sess m = s.sess m := by
  rw [refWrite_eq]
  split
  · split <;> rfl
  · rfl

/-- A change of the lock state is seen beside the servo as an event at most. -/
theorem only_setLock (s : State) (l : Lock) : Only [R.TMU_EVT] (s.setSrv { s.tmu.srv with lock := l }) (s.setLock l) := by
  have hraise : ∀ {u : State} {c : Prop} [Decidable c] {v : Nat}, Only [R.TMU_EVT] u (if c then u.raise R.TMU_EVT v else u) := by
    intro u c _ v
    split
    · exact only_raise (by simp)
    · exact Only.refl _ u
  simp only [State.setLock]
  exact hraise.trans hraise

/-- The servo's lock state as a change of its function's state leaves it: FREE where it leaves ON. -/
def State.unlockedFor (s : State) (f : Fn) : State := if s.tmu.srv.st = .on ∧ f.st ≠ .on then s.setLock .free else s

theorem setSrvFn_eq (s : State) (f : Fn) : s.setSrvFn f false =
    ((s.unlockedFor f).setSrv { (s.unlockedFor f).tmu.srv with st := f.st, pendEn := f.pend, disHeld := f.dis }).report .servo s.tmu.srv.st f.st := rfl

theorem unlockedFor_face (s : State) (f : Fn) (m : Nat) : ((s.unlockedFor f).sess m).face = (s.sess m).face := by
  unfold State.unlockedFor
  split
  · exact (only_setLock s .free).face_eq m
  · rfl

theorem srvRequest_face (s : State) (en : Bool) (m : Nat) : ((s.srvRequest en).sess m).face = (s.sess m).face := by
  rw [State.srvRequest, setSrvFn_eq]
  exact unlockedFor_face s _ m

section congr
variable {m : Nat} {s t : State} (h : Aside m s t)
include h

theorem Aside.setSrv (v : Servo) : Aside m (s.setSrv v) (t.setSrv v) := by
  unfold State.setSrv; rw [h.tmu_eq]; exact h.setTmu _

theorem Aside.raiseTmu (v : Nat) : Aside m (s.raise R.TMU_EVT v) (t.raise R.TMU_EVT v) := h.raise (by decide) (by decide) v

theorem Aside.setLock (l : Lock) : Aside m (s.setLock l) (t.setLock l) := by
  simp only [State.setLock, h.tmu_eq]
  have hs := h.setSrv { s.tmu.srv with lock := l }
  by_cases hleave : s.tmu.srv.lock = .locked ∧ l ≠ .locked
  · have henter : ¬ (l = .locked ∧ s.tmu.srv.lock ≠ .locked) := fun k => hleave.2 k.1
    simp only [if_pos hleave, if_neg henter]
    exact hs.raiseTmu _
  · simp only [if_neg hleave]
    split
    · exact hs.raiseTmu _
    · exact hs

theorem Aside.unlockedFor (f : Fn) : Aside m (s.unlockedFor f) (t.unlockedFor f) := by
  unfold State.unlockedFor
  rw [h.tmu_eq]
  split
  · exact h.setLock _
  · exact h

theorem Aside.srvRequest (en : Bool) : Aside m (s.srvRequest en) (t.srvRequest en) := by
  have hu := h.unlockedFor (s.tmu.srv.fn.request en)
  rw [State.srvRequest, State.srvRequest, h.tmu_eq, setSrvFn_eq, setSrvFn_eq, hu.tmu_eq, h.tmu_eq]
  exact (hu.setSrv _).report _ _ _

theorem Aside.refWrite (sel : Bool) : Aside m (s.refWrite sel) (t.refWrite sel) := by
  have harm := h.setTmu { s.tmu with refArmed := sel }
  rw [refWrite_eq, refWrite_eq, h.tmu_eq, h.tmuFld_eq (f := R.TMU_STAT_REF_OK) rfl]
  split
  · split
    · exact harm.setFld (f := R.TMU_STAT_REF_ACTIVE) (by decide) _
    · exact harm
  · exact harm.setFld (f := R.TMU_STAT_REF_ACTIVE) (by decide) _

end congr

theorem tmuSrvEnWrite_writes (v : Word) : Writes (fun c => .tmuSrvEnWrite c v) (fun _ => R.TMU_SRV_CTL) (fun _ => v.toNat) (fun s =>
    let t := s.stored R.TMU_SRV_CTL v.toNat
    if tb v.toNat 0 = tb (s.reg R.TMU_SRV_CTL) 0 then t else t.srvRequest (tb v.toNat 0)) := by
  refine writes_of_writePair (fun c s => exec_tmuSrvEnWrite c v s) (by decide) v.isLt (by decide) (fun _ => tmuLate_below (by decide))
    (fun m s u h => ?_) fun m u => ?_
  · have hs := h.stored (a := R.TMU_SRV_CTL) (by decide) v.toNat
    rw [writePair_srvCtl, h.tmuReg_eq rfl]
    simp only
    split
    · exact hs
    · exact hs.srvRequest _
  · rw [writePair_srvCtl]
    split
    · rfl
    · exact srvRequest_face _ _ m

theorem tmuRefSelWrite_writes (v : Word) : Writes (fun c => .tmuRefSelWrite c v) (fun _ => R.TMU_CFG) (fun _ => v.toNat) (fun s =>
    let t := (s.stored R.TMU_CFG v.toNat).setTmu { s.tmu with refArmed := tb v.toNat 0 }
    if tb v.toNat 0 then (if s.fld R.TMU_STAT_REF_OK = 1 then t.setFld R.TMU_STAT_REF_ACTIVE 1 else t) else t.setFld R.TMU_STAT_REF_ACTIVE 0) := by
  refine writes_of_writePair (fun c s => exec_tmuRefSelWrite c v s) (by decide) v.isLt (by decide) (fun _ => tmuLate_below (by decide))
    (fun m s u h => ?_) fun m u => ?_
  · have hr := (h.stored (a := R.TMU_CFG) (by decide) v.toNat).refWrite (tb v.toNat 0)
    rw [refWrite_eq (s.stored R.TMU_CFG v.toNat), fld_stored_ne (f := R.TMU_STAT_REF_OK) (by decide)] at hr
    rw [writePair_tmuCfg]
    exact hr
  · rw [writePair_tmuCfg, refWrite_sess, sess_stored]

/-- A field put into a value of 32 bits leaves one of 32 bits. -/
theorem putBits_lt {v hi lo x : Nat} (hv : v < 2 ^ 32) (hi' : hi < 32) : putBits v hi lo x < 2 ^ 32 := by
  refine Nat.lt_pow_two_of_testBit _ fun i h32 => ?_
  rw [testBit_putBits, if_neg (by omega)]
  exact Nat.testBit_lt_two_pow (Nat.lt_of_lt_of_le hv (Nat.pow_le_pow_right (by decide) h32))

/-! Timed outputs (R59, R60, R101, R103). -/

section output
variable {n : Nat} (hn : n < 4)
include hn

theorem tout_ctl_place : 0x20100 ≤ R.TMU_TOUT_CTL n ∧ R.TMU_TOUT_CTL n < 0x20180 ∧ R.TMU_TOUT_CTL n % 0x20 = 0x18 ∧
    (R.TMU_TOUT_CTL n - 0x20100) / 0x20 = n := by
  simp only [R.TMU_TOUT_CTL]; omega

theorem writePair_toutCtl (s : State) (v : Nat) : s.writePair (R.TMU_TOUT_CTL n) v =
    if tb v 0 then (s.stored (R.TMU_TOUT_CTL n) v).toutArm n else if tb v 1 then (s.stored (R.TMU_TOUT_CTL n) v).toutDisarm n
    else s.stored (R.TMU_TOUT_CTL n) v := by
  obtain ⟨hlo, hhi, hoff, hn'⟩ := tout_ctl_place hn
  have hcfg : R.TMU_TOUT_CTL n ≠ R.TMU_CFG := by simp only [R.TMU_TOUT_CTL, R.TMU_CFG]; omega
  have hctl : R.TMU_TOUT_CTL n ≠ R.TMU_CTL := by simp only [R.TMU_TOUT_CTL, R.TMU_CTL]; omega
  have hsrv : R.TMU_TOUT_CTL n ≠ R.TMU_SRV_CTL := by simp only [R.TMU_TOUT_CTL, R.TMU_SRV_CTL]; omega
  rw [writePair_tmu (tmu_tout_defined n hn).1 (by omega), tmuEffect, if_neg hcfg, if_neg hctl, if_neg hsrv, if_pos ⟨hlo, hhi, hoff⟩]
  simp only [hn']

theorem tmuLate_toutCtl (s : State) (v : Nat) : tmuLate s (R.TMU_TOUT_CTL n) v = (tb v 0 && s.toutLate n) := by
  obtain ⟨hlo, hhi, hoff, hn'⟩ := tout_ctl_place hn
  simp only [tmuLate, hlo, hhi, hoff, hn', decide_true, Bool.true_and]

/-- The value written is one of 32 bits. -/
theorem toutCtl_lt (s : State) (v : Nat) : s.toutCtl n v < 2 ^ 32 :=
  putBits_lt (putBits_lt (reg_lt (by rw [(tmu_tout_defined n hn).2]; decide)) (by decide)) (by decide)

end output

theorem toutCtl_arm (s : State) (n : Nat) : tb (s.toutCtl n 1) 0 = true := by
  rw [tb_eq_testBit, State.toutCtl, testBit_putBits]; rfl

theorem toutCtl_disarm (s : State) (n : Nat) : tb (s.toutCtl n 2) 0 = false ∧ tb (s.toutCtl n 2) 1 = true := by
  rw [tb_eq_testBit, tb_eq_testBit, State.toutCtl, testBit_putBits, testBit_putBits]; exact ⟨rfl, rfl⟩

/-- What an output's setting registers hold does not depend on its control register. -/
theorem toutStart_stored (s : State) (n v : Nat) : (s.stored (R.TMU_TOUT_CTL n) v).toutStart n = s.toutStart n := by
  have hhi : R.TMU_TOUT_CTL n ≠ (R.TMU_TOUT_SEC_HI_SEC_HI n).addr := by simp only [R.TMU_TOUT_CTL, R.TMU_TOUT_SEC_HI_SEC_HI, R.TMU_TOUT_SEC_HI]; omega
  have hlo : R.TMU_TOUT_CTL n ≠ R.TMU_TOUT_SEC_LO n := by simp only [R.TMU_TOUT_CTL, R.TMU_TOUT_SEC_LO]; omega
  have hns : R.TMU_TOUT_CTL n ≠ (R.TMU_TOUT_NS_NS n).addr := by simp only [R.TMU_TOUT_CTL, R.TMU_TOUT_NS_NS, R.TMU_TOUT_NS]; omega
  simp only [State.toutStart, fld_stored_ne hhi, reg_stored_ne hlo, fld_stored_ne hns]

theorem toutPer_stored (s : State) (n v : Nat) : (s.stored (R.TMU_TOUT_CTL n) v).toutPer n = s.toutPer n := by
  have hper : R.TMU_TOUT_CTL n ≠ R.TMU_TOUT_PER n := by simp only [R.TMU_TOUT_CTL, R.TMU_TOUT_PER]; omega
  have hfrac : R.TMU_TOUT_CTL n ≠ (R.TMU_TOUT_PER_FRAC_FRAC n).addr := by
    simp only [R.TMU_TOUT_CTL, R.TMU_TOUT_PER_FRAC_FRAC, R.TMU_TOUT_PER_FRAC]; omega
  simp only [State.toutPer, reg_stored_ne hper, fld_stored_ne hfrac]

theorem toutLate_stored (s : State) (n v : Nat) : (s.stored (R.TMU_TOUT_CTL n) v).toutLate n = s.toutLate n := by
  unfold State.toutLate; rw [toutStart_stored]; rfl

theorem toutWidth_stored (s : State) (n v : Nat) : (s.stored (R.TMU_TOUT_CTL n) v).fld (R.TMU_TOUT_WIDTH_NS n) = s.fld (R.TMU_TOUT_WIDTH_NS n) :=
  fld_stored_ne (by simp only [R.TMU_TOUT_CTL, R.TMU_TOUT_WIDTH_NS, R.TMU_TOUT_WIDTH]; omega)

/-- The output `n` set, with no occurrence skipped. -/
def State.toutSet (s : State) (n : Nat) (o : Tout) : State := (s.setTout n o).setFld (R.TMU_TOUT_CTL_SKIP n) 0

/-- Adding nothing to a counter leaves it. -/
theorem aside_bumpBy_zero {m : Nat} {s : State} {a : Nat} (h : regReset a < 2 ^ 32) : Aside m s (s.bumpBy a 0) :=
  ⟨rfl, fun b _ => by
    by_cases e : a = b
    · subst e
      rw [State.bumpBy, State.reg_setReg_same, Nat.mod_mod]
      exact Nat.mod_eq_of_lt (reg_lt h)
    · exact State.reg_setReg_ne _ _ e, fun _ _ => rfl⟩

theorem swt_skip_reset : regReset R.SWT_SKIP_OCC_CNT < 2 ^ 32 := by decide +kernel

/-- An output armed on time starts at its start instant. -/
theorem toutArm_onTime {m n : Nat} {s : State} (h : s.toutLate n = false) : Aside m (s.toutSet n ⟨s.toutStart n, s.toutPer n,
    s.fld (R.TMU_TOUT_WIDTH_NS n), 0, 0, if s.toutPer n = 0 then s.toutStart n else 0, false, true, (s.tout n).activeUntil⟩) (s.toutArm n) := by
  have hlead : ¬ s.toutStart n < s.now + nsI 2000 := of_decide_eq_false h
  by_cases hp : s.toutPer n = 0
  · have hmax : max (s.toutStart n) (s.now + nsI 2000) = s.toutStart n := Nat.max_eq_left (Nat.not_lt.1 hlead)
    simp only [State.toutArm, hp, if_true, hmax, hlead, decide_false]
    exact Aside.refl _ _
  · simp only [State.toutArm, hp, if_false, hlead]
    exact aside_bumpBy_zero swt_skip_reset

/-- A one-shot armed late waits out its lead. -/
theorem toutArm_late {m n : Nat} {s : State} (h : s.toutLate n = true) (hp : s.toutPer n = 0) : Aside m (s.toutSet n ⟨s.toutStart n, 0,
    s.fld (R.TMU_TOUT_WIDTH_NS n), 0, 0, s.now + nsI 2000, true, true, (s.tout n).activeUntil⟩) (s.toutArm n) := by
  have hlead : s.toutStart n < s.now + nsI 2000 := of_decide_eq_true h
  have hmax : max (s.toutStart n) (s.now + nsI 2000) = s.now + nsI 2000 := Nat.max_eq_right (Nat.le_of_lt hlead)
  simp only [State.toutArm, hp, if_true, hmax, hlead, decide_true]
  exact Aside.refl _ _

theorem toutArm_sess (s : State) (n m : Nat) : (s.toutArm n).sess m = s.sess m := by
  simp only [State.toutArm]
  split <;> rfl

section congr
variable {m n : Nat} {s t : State} (hn : n < 4) (h : Aside m s t)
include h

theorem Aside.tout_eq (k : Nat) : t.tout k = s.tout k := by unfold State.tout; rw [h.tmu_eq]

theorem Aside.setTout (k : Nat) (o : Tout) : Aside m (s.setTout k o) (t.setTout k o) := by
  unfold State.setTout; rw [h.tmu_eq]; exact h.setTmu _

include hn

theorem Aside.toutStart_eq : t.toutStart n = s.toutStart n := by
  simp only [State.toutStart, h.tmuFld_eq (f := R.TMU_TOUT_SEC_HI_SEC_HI n) (by simp only [R.TMU_TOUT_SEC_HI_SEC_HI, R.TMU_TOUT_SEC_HI]; omega),
    h.tmuReg_eq (a := R.TMU_TOUT_SEC_LO n) (by simp only [R.TMU_TOUT_SEC_LO]; omega),
    h.tmuFld_eq (f := R.TMU_TOUT_NS_NS n) (by simp only [R.TMU_TOUT_NS_NS, R.TMU_TOUT_NS]; omega)]

theorem Aside.toutPer_eq : t.toutPer n = s.toutPer n := by
  simp only [State.toutPer, h.tmuReg_eq (a := R.TMU_TOUT_PER n) (by simp only [R.TMU_TOUT_PER]; omega),
    h.tmuFld_eq (f := R.TMU_TOUT_PER_FRAC_FRAC n) (by simp only [R.TMU_TOUT_PER_FRAC_FRAC, R.TMU_TOUT_PER_FRAC]; omega)]

theorem Aside.toutLate_eq : t.toutLate n = s.toutLate n := by unfold State.toutLate; rw [h.toutStart_eq hn, h.now_eq]

theorem Aside.toutArm : Aside m (s.toutArm n) (t.toutArm n) := by
  have hskip : qcpReg (R.TMU_TOUT_CTL_SKIP n).addr = false := qcpReg_tmu (by simp only [R.TMU_TOUT_CTL_SKIP, R.TMU_TOUT_CTL]; omega)
  have hwidth : t.fld (R.TMU_TOUT_WIDTH_NS n) = s.fld (R.TMU_TOUT_WIDTH_NS n) :=
    h.tmuFld_eq (by simp only [R.TMU_TOUT_WIDTH_NS, R.TMU_TOUT_WIDTH]; omega)
  simp only [State.toutArm, h.toutStart_eq hn, h.toutPer_eq hn, h.now_eq, hwidth, h.tout_eq]
  split
  · exact (h.setTout _ _).setFld hskip _
  · exact ((h.setTout _ _).setFld hskip _).bumpBy (by decide) _

end congr

theorem tout_ctl_lt {n : Nat} (hn : n < 4) : R.TMU_TOUT_CTL n < 2 ^ 32 := by simp only [R.TMU_TOUT_CTL]; omega
theorem tout_ctl_ne_loft (n : Nat) : R.TMU_TOUT_CTL n ≠ R.SWT_LOFT_BUD := by simp only [R.TMU_TOUT_CTL, R.SWT_LOFT_BUD]; omega
theorem qcpReg_tout_ctl {n : Nat} (hn : n < 4) : qcpReg (R.TMU_TOUT_CTL n) = false := qcpReg_tmu (by simp only [R.TMU_TOUT_CTL]; omega)

theorem toutDisarm_writes (n : Fin 4) : Writes (fun c => .tmuToutDisarm n c) (fun _ => R.TMU_TOUT_CTL n.val) (fun s => s.toutCtl n.val 2)
    (fun s => (s.stored (R.TMU_TOUT_CTL n.val) (s.toutCtl n.val 2)).setTout n.val { s.tout n.val with run := false }) := by
  intro c s hacc
  obtain ⟨harm, hdis⟩ := toutCtl_disarm s n.val
  have hw : ∀ u : State, u.writePair (R.TMU_TOUT_CTL n.val) (s.toutCtl n.val 2) =
      (u.stored (R.TMU_TOUT_CTL n.val) (s.toutCtl n.val 2)).setTout n.val { u.tout n.val with run := false } := fun u => by
    rw [writePair_toutCtl n.isLt, harm, hdis]; rfl
  refine completes_writeOne (late := false) (exec_tmuToutDisarm n c s) (tout_ctl_lt n.isLt) (toutCtl_lt n.isLt s 2) (tout_ctl_ne_loft _) hacc
    (fun u hu => ?_) (fun u _ => ?_) fun m u => ?_
  · rw [hw, hu.tout_eq]
    exact (hu.stored (qcpReg_tout_ctl n.isLt) _).setTout _ _
  · rw [tmuLate_toutCtl n.isLt, harm, Bool.false_and]
  · rw [hw]; rfl

/-- A write that arms an output does what arming it at the state does, and is late where arming it is. -/
theorem toutArm_completes {n : Fin 4} {c : RegCmd} {s e : State} (hacc : Accepted opRegWrite 0x0201 (writeReq c (R.TMU_TOUT_CTL n.val) (s.toutCtl n.val 1)) s [])
    (he : Aside c.mbox.val e ((s.stored (R.TMU_TOUT_CTL n.val) (s.toutCtl n.val 1)).toutArm n.val)) :
    Completes false (.tmuToutArm n c) 0x0201 (writeReq c (R.TMU_TOUT_CTL n.val) (s.toutCtl n.val 1)) s e
      (if s.toutLate n.val then St.late else St.ok) 0 [] := by
  have hw : ∀ u : State, u.writePair (R.TMU_TOUT_CTL n.val) (s.toutCtl n.val 1) =
      (u.stored (R.TMU_TOUT_CTL n.val) (s.toutCtl n.val 1)).toutArm n.val := fun u => by
    rw [writePair_toutCtl n.isLt, toutCtl_arm, if_pos rfl]
  refine completes_writeOne (exec_tmuToutArm n c s) (tout_ctl_lt n.isLt) (toutCtl_lt n.isLt s 1) (tout_ctl_ne_loft _) hacc
    (fun u hu => ?_) (fun u hu => ?_) fun m u => ?_
  · rw [hw]
    exact he.trans ((hu.stored (qcpReg_tout_ctl n.isLt) _).toutArm n.isLt)
  · rw [tmuLate_toutCtl n.isLt, toutCtl_arm, Bool.true_and, hu.toutLate_eq n.isLt]
  · rw [hw, toutArm_sess, sess_stored]

end Sys2Proof.Machine

section
open Sys2Proof.Machine

/-- Settles O4, clause by clause: SET and STEP, the addend, the servo, the reference, and a timed output disarmed, armed on time and armed late. -/
theorem timeRegistersAreWritten : Obligations.TimeRegistersAreWritten := by
  refine ⟨tmuCtlSet_writes, tmuCtlStep_writes, tmuAddendWrite_writes, tmuAddendExtWrite_writes, tmuSrvEnWrite_writes, tmuRefSelWrite_writes,
    toutDisarm_writes, fun n c s hacc hlate => ?_, fun n c s hacc hlate hper => ?_⟩
  · rw [← toutLate_stored s n.val (s.toutCtl n.val 1)] at hlate
    have hc := toutArm_completes hacc (toutArm_onTime hlate)
    rw [← toutLate_stored s n.val (s.toutCtl n.val 1), hlate, toutStart_stored, toutPer_stored, toutWidth_stored] at hc
    exact hc
  · rw [← toutLate_stored s n.val (s.toutCtl n.val 1)] at hlate
    have hc := toutArm_completes hacc (toutArm_late hlate ((toutPer_stored s n.val _).trans hper))
    rw [← toutLate_stored s n.val (s.toutCtl n.val 1), hlate, toutStart_stored, toutWidth_stored] at hc
    exact hc

end

namespace Sys2Proof.Machine

open Sys2Proof

/-! The engines at a tick: filter chain engines and echo engines alike (R18; log entry 70). -/

/-- An engine by its status register, its unit among the engines whose disable is held, and its name as a function. -/
structure Engine where
  stat : Nat
  unit : Nat
  id : FnId

def fceEngine (e : Nat) : Engine := ⟨R.FCE_STAT e, e, .fce e⟩
def eceEngine (e : Nat) : Engine := ⟨R.ECE_STAT e, 32 + e, .ece e⟩

/-- Every engine, in the order in which a tick goes through them. -/
def engines : List Engine := (List.range 16).map fceEngine ++ (List.range 32).map eceEngine

def State.engSt (s : State) (x : Engine) : FnState := FnState.ofCode (s.fld ⟨x.stat, 2, 0⟩)

def State.engFn (s : State) (x : Engine) : Fn := ⟨s.engSt x, s.flag ⟨x.stat, 4, 4⟩, s.engDis.contains x.unit⟩

def State.setEngFn (s : State) (x : Engine) (f : Fn) : State :=
  (((s.setFld ⟨x.stat, 2, 0⟩ f.st.code).setFld ⟨x.stat, 4, 4⟩ (b2n f.pend)).holdDis x.unit f.dis).report x.id (s.engSt x) f.st

def State.engTick (s : State) (x : Engine) : State :=
  match s.engSt x with
  | .starting => s.setEngFn x (s.engFn x).started
  | .stopping => if s.queued x.unit = 0 then s.setEngFn x (s.engFn x).stopped else s
  | _ => s

theorem fceSt_eq (s : State) (e : Nat) : s.fceSt e = s.engSt (fceEngine e) := rfl
theorem eceSt_eq (s : State) (e : Nat) : s.eceSt e = s.engSt (eceEngine e) := rfl
theorem fceTick_eq (s : State) (e : Nat) : s.fceTick e = s.engTick (fceEngine e) := rfl
theorem eceTick_eq (s : State) (e : Nat) : s.eceTick e = s.engTick (eceEngine e) := rfl

theorem fnTick_eq (s : State) : s.fnTick = engines.foldl State.engTick s := by
  rw [engines, List.foldl_append, List.foldl_map, List.foldl_map]
  rfl

theorem engines_stat : ∀ x ∈ engines, 0x70000 ≤ x.stat := by decide +kernel
theorem engines_apart : engines.Pairwise fun x y => x.stat ≠ y.stat := by decide +kernel
theorem fceEngine_mem {e : Nat} (h : e < 16) : fceEngine e ∈ engines :=
  List.mem_append_left _ (List.mem_map_of_mem (List.mem_range.2 h))
theorem eceEngine_mem {e : Nat} (h : e < 32) : eceEngine e ∈ engines :=
  List.mem_append_right _ (List.mem_map_of_mem (List.mem_range.2 h))

/-- The state without what a tick does to the engines: their registers, the disables held, and reports. -/
def State.sansEngines (s : State) : State := { s with regs := [], engDis := [], fns := [] }

/-- `t` is `s` but for registers of the engines, the disables held during their starts, of which there are no more, and reports. -/
structure EnginesOnly (s t : State) : Prop where
  rest : t.sansEngines = s.sansEngines
  regs : ∀ a, a < 0x70000 → t.reg a = s.reg a
  held : ∀ u, s.engDis.contains u = false → t.engDis.contains u = false

theorem EnginesOnly.refl (s : State) : EnginesOnly s s := ⟨rfl, fun _ _ => rfl, fun _ h => h⟩

theorem EnginesOnly.trans {s t u : State} (h : EnginesOnly s t) (k : EnginesOnly t u) : EnginesOnly s u :=
  ⟨k.rest.trans h.rest, fun a ha => (k.regs a ha).trans (h.regs a ha), fun x hx => k.held x (h.held x hx)⟩

theorem enginesOnly_setEngFn {s : State} {x : Engine} {f : Fn} (hx : 0x70000 ≤ x.stat) (hf : f.dis = false) : EnginesOnly s (s.setEngFn x f) := by
  refine ⟨rfl, fun a ha => ?_, fun u hu => ?_⟩
  · have hne : x.stat ≠ a := by omega
    exact (State.reg_setReg_ne _ _ hne).trans (State.reg_setReg_ne _ _ hne)
  · have he : (s.setEngFn x f).engDis = s.engDis.filter (· != x.unit) := by
      simp only [State.setEngFn, hf]; rfl
    rw [he]
    simp only [List.contains_eq_mem, decide_eq_false_iff_not, List.mem_filter, not_and] at hu ⊢
    exact fun k => absurd k hu

theorem Fn.started_dis {f : Fn} (h : f.st = .starting) : f.started.dis = false := by
  simp only [Fn.started, h, if_true]; split <;> rfl

theorem Fn.stopped_dis {f : Fn} (h : f.st = .stopping) : f.stopped.dis = false := by
  simp only [Fn.stopped, h, if_true]; split <;> rfl

/-- What a tick does to an engine: it completes its start, or its stop, or leaves it. -/
theorem engTick_cases (s : State) (x : Engine) : s.engTick x = s ∨ ∃ f, s.engTick x = s.setEngFn x f ∧ f.dis = false := by
  unfold State.engTick
  split
  · next h => exact .inr ⟨_, rfl, Fn.started_dis h⟩
  · next h =>
    split
    · exact .inr ⟨_, rfl, Fn.stopped_dis h⟩
    · exact .inl rfl
  · exact .inl rfl

theorem engTick_idle {s : State} {x : Engine} (h1 : s.engSt x ≠ .starting) (h2 : s.engSt x ≠ .stopping) : s.engTick x = s := by
  unfold State.engTick
  split
  · exact absurd ‹_› h1
  · exact absurd ‹_› h2
  · rfl

theorem enginesOnly_engTick {s : State} {x : Engine} (hx : 0x70000 ≤ x.stat) : EnginesOnly s (s.engTick x) := by
  obtain h | ⟨f, h, hf⟩ := engTick_cases s x
  · rw [h]; exact EnginesOnly.refl s
  · rw [h]; exact enginesOnly_setEngFn hx hf

/-- The tick of an engine leaves every other in its state. -/
theorem engSt_engTick_ne {s : State} {x y : Engine} (h : x.stat ≠ y.stat) : (s.engTick x).engSt y = s.engSt y := by
  have hset : ∀ f, (s.setEngFn x f).engSt y = s.engSt y := fun f => by
    unfold State.engSt State.fld
    rw [show (s.setEngFn x f).reg y.stat = s.reg y.stat from (State.reg_setReg_ne _ _ h).trans (State.reg_setReg_ne _ _ h)]
  obtain k | ⟨f, k, -⟩ := engTick_cases s x
  · rw [k]
  · rw [k, hset]

theorem engSt_setEngFn (s : State) (x : Engine) (f : Fn) : (s.setEngFn x f).engSt x = f.st := by
  have h : (s.setEngFn x f).fld ⟨x.stat, 2, 0⟩ = ((s.setFld ⟨x.stat, 2, 0⟩ f.st.code).setFld ⟨x.stat, 4, 4⟩ (b2n f.pend)).fld ⟨x.stat, 2, 0⟩ := rfl
  rw [State.engSt, h, fld_setFld_apart (.inr (.inr (by decide : 2 < 4))) (by decide : 2 < 32),
    fld_setFld_same _ _ _ (by decide : 2 < 32)]
  exact fnState_ofCode_code f.st

/-- A start with no disable held ends in ON. -/
theorem engTick_starts {s : State} {x : Engine} (h : s.engSt x = .starting) (hd : s.engDis.contains x.unit = false) :
    (s.engTick x).engSt x = .on := by
  have e : s.engTick x = s.setEngFn x (s.engFn x).started := by simp only [State.engTick, h]
  rw [e, engSt_setEngFn]
  simp only [Fn.started, State.engFn, h, hd, if_true, Bool.false_eq_true, if_false]

theorem foldl_engTick_ne {x : Engine} {l : List Engine} {s : State} (h : ∀ y ∈ l, x.stat ≠ y.stat) :
    (l.foldl State.engTick s).engSt x = s.engSt x := by
  induction l generalizing s with
  | nil => rfl
  | cons y l ih => exact (ih fun z hz => h z (List.mem_cons_of_mem _ hz)).trans (engSt_engTick_ne (h y List.mem_cons_self).symm)

/-- Of engines with different registers, one that starts with no disable held is ON once all have had their tick. -/
theorem foldl_engTick_starts {x : Engine} {l : List Engine} {s : State} (hp : l.Pairwise fun y z => y.stat ≠ z.stat)
    (hs : ∀ y ∈ l, 0x70000 ≤ y.stat) (hm : x ∈ l) (hst : s.engSt x = .starting) (hd : s.engDis.contains x.unit = false) :
    (l.foldl State.engTick s).engSt x = .on := by
  induction l generalizing s with
  | nil => exact absurd hm List.not_mem_nil
  | cons y l ih =>
    obtain ⟨hy, hl⟩ := List.pairwise_cons.1 hp
    obtain rfl | hm := List.mem_cons.1 hm
    · exact (foldl_engTick_ne hy).trans (engTick_starts hst hd)
    · exact ih hl (fun z hz => hs z (List.mem_cons_of_mem _ hz)) hm ((engSt_engTick_ne (hy x hm)).trans hst)
        ((enginesOnly_engTick (hs y List.mem_cons_self)).held _ hd)

theorem fnTick_starts {s : State} {x : Engine} (hx : x ∈ engines) (h : s.engSt x = .starting) (hd : s.engDis.contains x.unit = false) :
    s.fnTick.engSt x = .on := by
  rw [fnTick_eq]
  exact foldl_engTick_starts engines_apart engines_stat hx h hd

theorem enginesOnly_fnTick (s : State) : EnginesOnly s s.fnTick := by
  have main : ∀ (l : List Engine) (t : State), (∀ x ∈ l, 0x70000 ≤ x.stat) → EnginesOnly t (l.foldl State.engTick t) := by
    intro l
    induction l with
    | nil => exact fun t _ => EnginesOnly.refl t
    | cons x l ih => exact fun t h => (enginesOnly_engTick (h x List.mem_cons_self)).trans (ih _ fun y hy => h y (List.mem_cons_of_mem _ hy))
  rw [fnTick_eq]
  exact main _ _ engines_stat

theorem fnTick_idle {s : State} (h : ∀ x ∈ engines, s.engSt x ≠ .starting ∧ s.engSt x ≠ .stopping) : s.fnTick = s := by
  have main : ∀ l : List Engine, (∀ x ∈ l, s.engSt x ≠ .starting ∧ s.engSt x ≠ .stopping) → l.foldl State.engTick s = s := by
    intro l
    induction l with
    | nil => exact fun _ => rfl
    | cons x l ih =>
      intro k
      obtain ⟨hstart, hstop⟩ := k x List.mem_cons_self
      rw [List.foldl_cons, engTick_idle hstart hstop]
      exact ih fun y hy => k y (List.mem_cons_of_mem _ hy)
  rw [fnTick_eq]
  exact main _ h

theorem engines_idle {s : State} (hf : ∀ e < 16, s.fceSt e ≠ .starting ∧ s.fceSt e ≠ .stopping)
    (he : ∀ e < 32, s.eceSt e ≠ .starting ∧ s.eceSt e ≠ .stopping) : ∀ x ∈ engines, s.engSt x ≠ .starting ∧ s.engSt x ≠ .stopping := by
  intro x hx
  obtain hx | hx := List.mem_append.1 hx
  · obtain ⟨e, hlt, rfl⟩ := List.mem_map.1 hx
    exact hf e (List.mem_range.1 hlt)
  · obtain ⟨e, hlt, rfl⟩ := List.mem_map.1 hx
    exact he e (List.mem_range.1 hlt)

/-! The time and the servo at a tick (R69, R70, R89, R91). -/

theorem exec_tmuTick (s : State) : exec .tmuTick s = .next (if s.mode = .reset then s else s.tick.fnTick) := rfl

/-- Time gone on by the addend. -/
def State.ticked (s : State) : State :=
  s.setTmu { s.tmu with acc := (s.tmu.acc + s.addend) % (2 ^ 48 * 1000000000 * 2 ^ 40), loc := s.tmu.loc + s.addend, tick := s.tmu.tick + 1 }

theorem applyPending_none {s : State} (h1 : s.tmu.pendSet = none) (h2 : s.tmu.pendStep = none) : s.applyPending = s := by
  rw [State.applyPending, h1, h2]; rfl

theorem exec_tmuTick_none {s : State} (hm : s.mode ≠ .reset) (h1 : s.tmu.pendSet = none) (h2 : s.tmu.pendStep = none) :
    exec .tmuTick s = .next s.ticked.srvStart.countHold.fnTick := by
  rw [exec_tmuTick, if_neg hm, State.tick, applyPending_none h1 h2]
  rfl

theorem srvStart_idle {s : State} (h1 : s.tmu.srv.st ≠ .starting) (h2 : s.tmu.srv.st ≠ .stopping) : s.srvStart = s := by
  rw [State.srvStart]
  split
  · exact absurd ‹_› h1
  · exact absurd ‹_› h2
  · rfl

theorem countHold_idle {s : State} (h : ¬ (s.tmu.srv.st = .on ∧ s.tmu.srv.lock = .holdover)) : s.countHold = s := if_neg h

/-- The servo's function goes over to `f`, and that is reported (R18, R20). -/
def State.srvTo (s : State) (f : Fn) : State :=
  (s.setSrv { s.tmu.srv with st := f.st, pendEn := f.pend, disHeld := f.dis }).report .servo s.tmu.srv.st f.st

theorem setSrvFn_of_ne_on {s : State} (h : s.tmu.srv.st ≠ .on) (f : Fn) : s.setSrvFn f false = s.srvTo f := by
  have hu : s.unlockedFor f = s := if_neg fun k => h k.1
  rw [setSrvFn_eq, hu]; rfl

theorem srvStart_starting {s : State} (h : s.tmu.srv.st = .starting) : s.srvStart = s.srvLoad.srvTo s.tmu.srv.fn.started := by
  have hne : s.srvLoad.tmu.srv.st ≠ .on := by
    rw [show s.srvLoad.tmu.srv.st = s.tmu.srv.st from rfl, h]; decide
  rw [← setSrvFn_of_ne_on hne]
  simp only [State.srvStart, h]

theorem srvStart_stopping {s : State} (h : s.tmu.srv.st = .stopping) : s.srvStart = s.srvTo s.tmu.srv.fn.stopped := by
  rw [← setSrvFn_of_ne_on (by rw [h]; decide)]
  simp only [State.srvStart, h]

/-- The state without what a tick does to the servo: the servo with its FIFO, registers, and reports. -/
def State.sansServo (s : State) : State := { s with regs := [], tmu := { s.tmu with srv := Servo.reset, ofs := [] }, fns := [] }

/-- `t` is `s` but for the servo with its FIFO, its registers of rates and of the holdover, and reports. -/
structure ServoOnly (s t : State) : Prop where
  rest : t.sansServo = s.sansServo
  regs : ∀ a, a ∉ [R.TMU_SRV_RATE, R.TMU_SRV_IRATE, R.TMU_SRV_HOLD_S] → t.reg a = s.reg a

theorem ServoOnly.trans {s t u : State} (h : ServoOnly s t) (k : ServoOnly t u) : ServoOnly s u :=
  ⟨k.rest.trans h.rest, fun a ha => (k.regs a ha).trans (h.regs a ha)⟩

theorem servoOnly_srvTo (s : State) (f : Fn) : ServoOnly s (s.srvTo f) := ⟨rfl, fun _ _ => rfl⟩

theorem servoOnly_srvLoad (s : State) : ServoOnly s s.srvLoad := by
  refine ⟨rfl, fun a ha => ?_⟩
  simp only [List.mem_cons, List.not_mem_nil, or_false, not_or] at ha
  exact (State.reg_setReg_ne _ _ (Ne.symm ha.2.1)).trans (State.reg_setReg_ne _ _ (Ne.symm ha.1))

theorem servoOnly_srvStart (s : State) : ServoOnly s s.srvStart := by
  by_cases h1 : s.tmu.srv.st = .starting
  · rw [srvStart_starting h1]
    exact (servoOnly_srvLoad s).trans (servoOnly_srvTo _ _)
  · by_cases h2 : s.tmu.srv.st = .stopping
    · rw [srvStart_stopping h2]
      exact servoOnly_srvTo _ _
    · rw [srvStart_idle h1 h2]
      exact ⟨rfl, fun _ _ => rfl⟩

theorem servoOnly_countHold (s : State) : ServoOnly s s.countHold := by
  unfold State.countHold
  split
  · exact ⟨rfl, fun a ha => State.reg_setReg_ne _ _ (by rintro rfl; simp at ha)⟩
  · exact ⟨rfl, fun _ _ => rfl⟩

@[simp] theorem countHold_tmu (s : State) : s.countHold.tmu = s.tmu := by
  unfold State.countHold; split <;> rfl

/-- `t` is `s` but for the servo with its FIFO, the engines, their registers, and reports. -/
structure TickOnly (s t : State) : Prop where
  rest : t.sansServo.sansEngines = s.sansServo.sansEngines
  regs : ∀ a, a < 0x70000 → a ∉ [R.TMU_SRV_RATE, R.TMU_SRV_IRATE, R.TMU_SRV_HOLD_S] → t.reg a = s.reg a

theorem TickOnly.legs_eq {s t : State} (h : TickOnly s t) : t.legs = s.legs := (congrArg State.legs h.rest : t.sansServo.sansEngines.legs = _)
theorem TickOnly.ports_eq {s t : State} (h : TickOnly s t) : t.ports = s.ports := (congrArg State.ports h.rest : t.sansServo.sansEngines.ports = _)
theorem TickOnly.nv_eq {s t : State} (h : TickOnly s t) : t.nv = s.nv := (congrArg State.nv h.rest : t.sansServo.sansEngines.nv = _)
theorem TickOnly.mmu_eq {s t : State} (h : TickOnly s t) : t.mmu = s.mmu := (congrArg State.mmu h.rest : t.sansServo.sansEngines.mmu = _)
theorem TickOnly.qcp_eq {s t : State} (h : TickOnly s t) : t.qcp = s.qcp := (congrArg State.qcp h.rest : t.sansServo.sansEngines.qcp = _)

theorem ServoOnly.tickOnly {s t u : State} (h : ServoOnly s t) (k : EnginesOnly t u) : TickOnly s u :=
  ⟨(congrArg State.sansServo k.rest).trans (congrArg State.sansEngines h.rest),
    fun a ha hn => (k.regs a ha).trans (h.regs a hn)⟩

theorem ServoOnly.engSt_eq {s t : State} (h : ServoOnly s t) {x : Engine} (hx : 0x70000 ≤ x.stat) : t.engSt x = s.engSt x := by
  have hn : x.stat ∉ [R.TMU_SRV_RATE, R.TMU_SRV_IRATE, R.TMU_SRV_HOLD_S] := by
    simp only [R.TMU_SRV_RATE, R.TMU_SRV_IRATE, R.TMU_SRV_HOLD_S, List.mem_cons, List.not_mem_nil, or_false]; omega
  unfold State.engSt State.fld
  rw [h.regs _ hn]

theorem ServoOnly.engDis_eq {s t : State} (h : ServoOnly s t) : t.engDis = s.engDis :=
  (congrArg State.engDis h.rest : t.sansServo.engDis = s.sansServo.engDis)

theorem EnginesOnly.tmu_eq {s t : State} (h : EnginesOnly s t) : t.tmu = s.tmu :=
  (congrArg State.tmu h.rest : t.sansEngines.tmu = s.sansEngines.tmu)

/-- The state at the end of a tick on which no SET or STEP waits. -/
def State.afterTick (s : State) : State := s.ticked.srvStart.countHold.fnTick

theorem tickOnly_afterTick (s : State) : TickOnly s.ticked s.afterTick :=
  ((servoOnly_srvStart _).trans (servoOnly_countHold _)).tickOnly (enginesOnly_fnTick _)

theorem afterTick_tmu (s : State) : s.afterTick.tmu = s.ticked.srvStart.tmu :=
  (enginesOnly_fnTick _).tmu_eq.trans (countHold_tmu _)

theorem addend_afterTick (s : State) : s.afterTick.addend = s.addend := by
  have h := tickOnly_afterTick s
  have hext : s.afterTick.fld R.TMU_ADDEND_EXT_EXT = s.fld R.TMU_ADDEND_EXT_EXT := by
    unfold State.fld; rw [h.regs _ (by decide) (by decide)]; rfl
  rw [State.addend, hext, h.regs _ (by decide) (by decide)]
  rfl

theorem afterTick_starts {s : State} (h : s.tmu.srv.st = .starting) (hd : s.tmu.srv.disHeld = false) :
    s.afterTick.tmu.srv.st = .on ∧ s.afterTick.tmu.srv.lock = .free ∧ s.afterTick.tmu.srv.iRate = rateOf s.addend ∧ s.afterTick.tmu.ofs = [] := by
  have hf : s.ticked.tmu.srv.fn.started = ⟨.on, false, false⟩ := by
    show s.tmu.srv.fn.started = _
    simp only [Fn.started, Servo.fn, h, hd, if_true, Bool.false_eq_true, if_false]
  rw [afterTick_tmu, srvStart_starting (s := s.ticked) h, hf]
  exact ⟨rfl, rfl, rfl, rfl⟩

theorem afterTick_stops {s : State} (h : s.tmu.srv.st = .stopping) :
    s.afterTick.tmu.srv.st = if s.tmu.srv.pendEn then .starting else .off := by
  rw [afterTick_tmu, srvStart_stopping (s := s.ticked) h]
  show s.tmu.srv.fn.stopped.st = _
  simp only [Fn.stopped, Servo.fn, h, if_true]
  split <;> rfl

theorem afterTick_counts {s : State} (h : s.tmu.srv.st = .on) (hl : s.tmu.srv.lock = .holdover) :
    s.afterTick.reg R.TMU_SRV_HOLD_S = (s.tmu.loc + s.addend - s.tmu.srv.holdAt) / (1000000000 * 2 ^ 40) % 2 ^ 32 := by
  have hidle : s.ticked.srvStart = s.ticked := srvStart_idle (fun k => by cases h.symm.trans k) (fun k => by cases h.symm.trans k)
  have hcount : s.ticked.countHold = s.ticked.setReg R.TMU_SRV_HOLD_S ((s.tmu.loc + s.addend - s.tmu.srv.holdAt) / (1000000000 * 2 ^ 40)) :=
    if_pos ⟨h, hl⟩
  rw [State.afterTick, (enginesOnly_fnTick _).regs _ (by decide), hidle, hcount, State.reg_setReg_same]

theorem afterTick_engine {s : State} {x : Engine} (hx : x ∈ engines) (h : s.engSt x = .starting) (hd : s.engDis.contains x.unit = false) :
    s.afterTick.engSt x = .on := by
  have hs : ServoOnly s.ticked s.ticked.srvStart.countHold := (servoOnly_srvStart _).trans (servoOnly_countHold _)
  exact fnTick_starts hx ((hs.engSt_eq (engines_stat x hx)).trans h) (hs.engDis_eq ▸ hd)

/-- A tick on which nothing else is to be done only lets time go on. -/
theorem afterTick_idle {s : State} (h1 : s.tmu.srv.st ≠ .starting) (h2 : s.tmu.srv.st ≠ .stopping)
    (hh : ¬ (s.tmu.srv.st = .on ∧ s.tmu.srv.lock = .holdover)) (he : ∀ x ∈ engines, s.engSt x ≠ .starting ∧ s.engSt x ≠ .stopping) :
    s.afterTick = s.ticked := by
  rw [State.afterTick, srvStart_idle (s := s.ticked) h1 h2, countHold_idle (s := s.ticked) hh, fnTick_idle (s := s.ticked) he]

end Sys2Proof.Machine

section
open Sys2Proof.Machine

/-- Settles O5: a tick on which nothing else is to be done, and what a tick does to the servo and to the engines. -/
theorem timeGoesOnByTheAddend : Obligations.TimeGoesOnByTheAddend := by
  refine ⟨fun s hm hset hstep hstart hstop hhold hf he => ?_, fun s hm hset hstep => ?_⟩
  · rw [exec_tmuTick_none hm hset hstep]
    exact congrArg _ (afterTick_idle hstart hstop hhold (engines_idle hf he))
  · have h := tickOnly_afterTick s
    exact ⟨s.afterTick, exec_tmuTick_none hm hset hstep, congrArg (fun v : State => v.tmu.acc) h.rest,
      congrArg (fun v : State => v.tmu.loc) h.rest, congrArg (fun v : State => v.tmu.tick) h.rest, addend_afterTick s, h.legs_eq, h.ports_eq,
      h.nv_eq, h.mmu_eq, h.qcp_eq, afterTick_starts, afterTick_stops, afterTick_counts, fun e hlt => afterTick_engine (fceEngine_mem hlt),
      fun e hlt => afterTick_engine (eceEngine_mem hlt)⟩

end

namespace Sys2Proof.Machine

open Sys2Proof

/-! What a step of TMU time leaves (R43, R71, R73, R104, R479). -/

/-- The state without what a step moves: the time, the outputs and players that follow it, the swath timer, registers and events. -/
def State.unstepped (s : State) : State :=
  { s.bare with tmu := { s.tmu with acc := 0, steps := [], tout := [] }, swt := Swt.reset, grn := { s.grn with plys := [] } }

/-- What follows a step leaves the time reached: `t` is `s` but for outputs, players, the swath timer, registers and events. -/
structure Follows (s t : State) : Prop where
  rest : t.unstepped = s.unstepped
  acc : t.tmu.acc = s.tmu.acc
  sess : ∀ j, (t.sess j).quiet = (s.sess j).quiet

theorem Follows.refl (s : State) : Follows s s := ⟨rfl, rfl, fun _ => rfl⟩

theorem Follows.trans {s t u : State} (h : Follows s t) (k : Follows t u) : Follows s u :=
  ⟨k.rest.trans h.rest, k.acc.trans h.acc, fun j => (k.sess j).trans (h.sess j)⟩

section fields
variable {s t : State} (h : Follows s t)
include h

theorem Follows.loc_eq : t.tmu.loc = s.tmu.loc := (congrArg (fun u : State => u.tmu.loc) h.rest : t.unstepped.tmu.loc = _)
theorem Follows.srv_eq : t.tmu.srv = s.tmu.srv := (congrArg (fun u : State => u.tmu.srv) h.rest : t.unstepped.tmu.srv = _)
theorem Follows.ofs_eq : t.tmu.ofs = s.tmu.ofs := (congrArg (fun u : State => u.tmu.ofs) h.rest : t.unstepped.tmu.ofs = _)
theorem Follows.pendSet_eq : t.tmu.pendSet = s.tmu.pendSet := (congrArg (fun u : State => u.tmu.pendSet) h.rest : t.unstepped.tmu.pendSet = _)
theorem Follows.pendStep_eq : t.tmu.pendStep = s.tmu.pendStep := (congrArg (fun u : State => u.tmu.pendStep) h.rest : t.unstepped.tmu.pendStep = _)
theorem Follows.legs_eq : t.legs = s.legs := (congrArg State.legs h.rest : t.unstepped.legs = _)
theorem Follows.armed_eq : t.armed = s.armed := (congrArg State.armed h.rest : t.unstepped.armed = _)
theorem Follows.ports_eq : t.ports = s.ports := (congrArg State.ports h.rest : t.unstepped.ports = _)
theorem Follows.nv_eq : t.nv = s.nv := (congrArg State.nv h.rest : t.unstepped.nv = _)
theorem Follows.mmu_eq : t.mmu = s.mmu := (congrArg State.mmu h.rest : t.unstepped.mmu = _)

end fields

theorem follows_setSwt (s : State) (w : Swt) : Follows s (s.setSwt w) := ⟨rfl, rfl, fun _ => rfl⟩

/-- What only writes registers and sends events follows a step, whatever it makes of the swath timer. -/
theorem Only.follows {L : List Nat} {s t : State} {w : Swt} (h : Only L (s.setSwt w) t) : Follows s t :=
  (follows_setSwt s w).trans ⟨(congrArg (fun u : State => { u.unstepped with regs := [], qcp := { u.qcp with sess := [] } }) h.rest :
    t.bare.unstepped = (s.setSwt w).bare.unstepped), by rw [h.tmu_eq], h.sess⟩

theorem follows_stepTouts (s : State) (t : Inst) (fwd : Bool) : Follows s (s.stepTouts t fwd) := by
  have main : ∀ (l : KV Tout) (u : State), Follows s u → Follows s (l.foldl (fun (st : State) (n, o) =>
      let (o', k) := o.step t fwd
      let st1 := (st.setTmu { st.tmu with tout := kset st.tmu.tout n o' })
      st1.setFld (R.TMU_TOUT_CTL_SKIP n) (min 65535 (st1.fld (R.TMU_TOUT_CTL_SKIP n) + k))) u) := by
    intro l
    induction l with
    | nil => exact fun _ h => h
    | cons p l ih => exact fun u h => ih _ (h.trans ⟨rfl, rfl, fun _ => rfl⟩)
  exact main _ _ (Follows.refl s)

theorem follows_stepPlayers (s : State) (t : Inst) : Follows s (s.stepPlayers t) := ⟨rfl, rfl, fun _ => rfl⟩

/-- Re-anchoring writes the swath timer and, of a slip, its registers. -/
theorem reanchor_only (s : State) (d : Int) :
    ∃ w, Only [R.SWT_SLIP_CNT, R.SWT_SLIP_DELTA, R.SWT_SLIP_LEN, R.SWT_EVT] (s.setSwt w) (s.reanchor d) := by
  simp only [State.reanchor]
  split
  · exact ⟨s.swt, Only.refl _ _⟩
  · split
    · exact ⟨_, Only.refl _ _⟩
    · split
      · exact ⟨_, (((only_bump (by simp)).trans (only_setReg (by simp))).setFld (f := R.SWT_SLIP_LEN_D) (by simp [R.SWT_SLIP_LEN_D]) _).raise
          (by simp) _⟩
      · exact ⟨_, Only.refl _ _⟩

/-- Becoming valid writes the swath timer and TMU_STAT. -/
theorem becomeValid_only (s : State) : ∃ w, Only [R.TMU_STAT] (s.setSwt w) s.becomeValid := by
  simp only [State.becomeValid]
  split
  · exact ⟨s.swt, Only.refl _ _⟩
  · have hcomm : ∀ w, (s.setFld R.TMU_STAT_VALID 1).setSwt w = (s.setSwt w).setFld R.TMU_STAT_VALID 1 := fun _ => rfl
    rw [hcomm]
    exact ⟨_, only_setFld (by simp [R.TMU_STAT_VALID])⟩

theorem valid_becomeValid (s : State) : s.becomeValid.fld R.TMU_STAT_VALID = 1 := by
  simp only [State.becomeValid]
  split
  · assumption
  · exact fld_setFld_same s R.TMU_STAT_VALID 1 (by decide)

/-- A field of one bit that is not 0 is 1. -/
theorem valid_of_ne_zero {s : State} (h : s.fld R.TMU_STAT_VALID ≠ 0) : s.fld R.TMU_STAT_VALID = 1 := by
  have hlt : s.fld R.TMU_STAT_VALID < 2 := bits_lt _ _ _
  omega

theorem valid_reanchor {s : State} (d : Int) (h : s.fld R.TMU_STAT_VALID ≠ 0) : (s.reanchor d).fld R.TMU_STAT_VALID = 1 := by
  obtain ⟨w, hw⟩ := reanchor_only s d
  have hreg : (s.reanchor d).reg R.TMU_STAT = s.reg R.TMU_STAT := hw.regs _ (by decide) (by decide)
  refine (?_ : (s.reanchor d).fld R.TMU_STAT_VALID = s.fld R.TMU_STAT_VALID).trans (valid_of_ne_zero h)
  unfold State.fld
  exact congrArg (fun v => bits v 0 0) hreg

/-- The state at the time that a step reaches, before anything follows. -/
def State.accTo (s : State) (acc' : Nat) : State :=
  s.setTmu { s.tmu with acc := acc', steps := (s.tmu.steps ++ [(s.tmu.loc, ((acc' : Int) - s.tmu.acc) / 2 ^ 24)]).drop (s.tmu.steps.length - 15) }

/-- A step reaches its time, makes it valid, and leaves all that does not follow it. -/
theorem stepTo_follows (s : State) (acc' : Nat) : Follows (s.accTo acc') (s.stepTo acc') ∧ (s.stepTo acc').fld R.TMU_STAT_VALID = 1 := by
  let u := if 0 < (acc' : Int) - s.tmu.acc then ((s.accTo acc').stepTouts (s.accTo acc').now true).stepPlayers (s.accTo acc').now
    else (s.accTo acc').stepTouts (s.accTo acc').now false
  have he : s.stepTo acc' = if u.fld R.TMU_STAT_VALID = 0 then u.becomeValid else u.reanchor ((acc' : Int) - s.tmu.acc) := rfl
  have hu : Follows (s.accTo acc') u := by
    show Follows (s.accTo acc') (if _ then _ else _)
    split
    · exact (follows_stepTouts _ _ _).trans (follows_stepPlayers _ _)
    · exact follows_stepTouts _ _ _
  rw [he]
  split
  · obtain ⟨w, hw⟩ := becomeValid_only u
    exact ⟨hu.trans hw.follows, valid_becomeValid u⟩
  · next hv =>
    obtain ⟨w, hw⟩ := reanchor_only u ((acc' : Int) - s.tmu.acc)
    exact ⟨hu.trans hw.follows, valid_reanchor _ hv⟩

/-! The value that a pending SET and STEP give (R73). -/

theorem combined_eq (acc : Nat) (set : Option Nat) (step : Option Int) : (combined acc set step : Int) =
    ((set.elim (acc : Int) fun ns => ((ns * 2 ^ 40 : Nat) : Int)) + step.getD 0 * 2 ^ 40) % ((2 ^ 48 * 1000000000 * 2 ^ 40 : Nat) : Int) := by
  have hbase : combined acc set step = (((set.elim (acc : Int) fun ns => ((ns * 2 ^ 40 : Nat) : Int)) + step.getD 0 * 2 ^ 40) % (tmuMod : Int)).toNat := by
    cases set <;> rfl
  rw [hbase]
  exact Int.toNat_of_nonneg (Int.emod_nonneg _ (by decide))

theorem combined_set (acc ns : Nat) : combined acc (some ns) none = ns * 2 ^ 40 % (2 ^ 48 * 1000000000 * 2 ^ 40) := by
  have h := combined_eq acc (some ns) none
  rw [Option.elim_some, Option.getD_none, Int.zero_mul, Int.add_zero, ← Int.natCast_emod] at h
  exact Int.ofNat_inj.1 h

/-- A SET or STEP that waits is applied as one step, and none waits then. -/
theorem applyPending_some {s : State} (h : s.tmu.pendSet.isSome ∨ s.tmu.pendStep.isSome) : s.applyPending =
    (s.setTmu { s.tmu with pendSet := none, pendStep := none }).stepTo (combined s.tmu.acc s.tmu.pendSet s.tmu.pendStep) := by
  have hsome : ¬ (s.tmu.pendSet.isNone ∧ s.tmu.pendStep.isNone) := by
    rintro ⟨hset, hstep⟩
    rw [Option.isNone_iff_eq_none.1 hset, Option.isNone_iff_eq_none.1 hstep] at h
    simp at h
  rw [State.applyPending, if_neg hsome]

end Sys2Proof.Machine

section
open Sys2Proof.Machine

/-- Settles O6: the SET and the STEP that wait are one step to the time that they make, and a step leaves all that does not follow it. -/
theorem setAndStepMoveTime : Obligations.SetAndStepMoveTime := by
  intro s h
  obtain ⟨hf, hvalid⟩ := stepTo_follows (s.setTmu { s.tmu with pendSet := none, pendStep := none }) (combined s.tmu.acc s.tmu.pendSet s.tmu.pendStep)
  rw [← applyPending_some h] at hf hvalid
  have hacc : s.applyPending.tmu.acc = combined s.tmu.acc s.tmu.pendSet s.tmu.pendStep := hf.acc
  refine ⟨s.applyPending, exec_stepApply s, hf.pendSet_eq, hf.pendStep_eq, hvalid, fun ns hset hstep => ?_, fun d hset hstep => ?_,
    fun ns d hset hstep => ?_, hf.loc_eq, hf.srv_eq, hf.ofs_eq, hf.legs_eq, hf.armed_eq, hf.ports_eq, hf.nv_eq, hf.mmu_eq, hf.sess⟩
  · rw [hacc, hset, hstep, combined_set]
  · rw [hacc, hset, hstep, combined_eq]; rfl
  · rw [hacc, hset, hstep, combined_eq]; rfl

end

namespace Sys2Proof.Machine

open Sys2Proof

/-! Samples pushed by the firmware (R81). -/

theorem exec_tmuOfsPush (ns aux mpd : Word) (s : State) :
    exec (.tmuOfsPush ns aux mpd) s = .next ((s.ofsWrite ns.toNat aux.toNat mpd.toNat).ofsPush) := rfl

/-- The sample that the three registers hold. -/
def State.heldSample (s : State) : Ofs :=
  ⟨sgn 32 (s.reg R.TMU_OFS_NS) * 65536 + s.fld R.TMU_OFS_AUX_FRAC, s.fld R.TMU_OFS_AUX_WT,
    (if s.reg R.TMU_OFS_MPD = 0xFFFFFFFF then none else some (s.reg R.TMU_OFS_MPD)), s.fld R.TMU_OFS_AUX_PORT⟩

theorem ofsPush_off {s : State} (h : s.tmu.srv.st ≠ .on) : s.ofsPush = s.bump R.TMU_REJ_CNT := if_pos h

theorem ofsPush_full {s : State} (h : s.tmu.srv.st = .on) (hf : 16 ≤ s.tmu.ofs.length) : s.ofsPush = s.bump R.TMU_OFS_DROP_CNT :=
  (if_neg (not_not.2 h)).trans (if_pos hf)

theorem ofsPush_on {s : State} (h : s.tmu.srv.st = .on) (hf : s.tmu.ofs.length < 16) : s.ofsPush = s.setTmu { s.tmu with
    ofs := s.tmu.ofs ++ [s.heldSample], srv := { s.tmu.srv with lastPush := s.tmu.loc, holdMs := s.fld R.TMU_SRV_HOLD_TIMEOUT_MS } } :=
  (if_neg (not_not.2 h)).trans (if_neg (Nat.not_le.2 hf))

theorem heldSample_ofsWrite (s : State) (ns aux mpd : Word) : (s.ofsWrite ns.toNat aux.toNat mpd.toNat).heldSample =
    ⟨sgn 32 ns.toNat * 65536 + (aux.toNat % 2 ^ 16 : Nat), aux.toNat / 2 ^ 16 % 2 ^ 8,
      if mpd.toNat = 0xFFFFFFFF then none else some mpd.toNat, aux.toNat / 2 ^ 24 % 2 ^ 3⟩ := by
  have hns : (s.ofsWrite ns.toNat aux.toNat mpd.toNat).reg R.TMU_OFS_NS = ns.toNat := by
    rw [State.ofsWrite, State.reg_setReg_ne _ _ (by decide), State.reg_setReg_ne _ _ (by decide), State.reg_setReg_same]
    exact Nat.mod_eq_of_lt ns.isLt
  have hmpd : (s.ofsWrite ns.toNat aux.toNat mpd.toNat).reg R.TMU_OFS_MPD = mpd.toNat := by
    rw [State.ofsWrite, State.reg_setReg_same]
    exact Nat.mod_eq_of_lt mpd.isLt
  have haux : ∀ hi lo, (s.ofsWrite ns.toNat aux.toNat mpd.toNat).fld ⟨R.TMU_OFS_AUX, hi, lo⟩ = bits (aux.toNat % 2 ^ 27 % 2 ^ 32) hi lo :=
    fun hi lo => by
      rw [State.fld, State.ofsWrite, State.reg_setReg_ne _ _ (by decide : R.TMU_OFS_MPD ≠ R.TMU_OFS_AUX), State.reg_setReg_same]
  have hfrac : bits (aux.toNat % 2 ^ 27 % 2 ^ 32) 15 0 = aux.toNat % 2 ^ 16 := by unfold bits; omega
  have hwt : bits (aux.toNat % 2 ^ 27 % 2 ^ 32) 23 16 = aux.toNat / 2 ^ 16 % 2 ^ 8 := by unfold bits; omega
  have hport : bits (aux.toNat % 2 ^ 27 % 2 ^ 32) 26 24 = aux.toNat / 2 ^ 24 % 2 ^ 3 := by unfold bits; omega
  simp only [State.heldSample, hns, hmpd, R.TMU_OFS_AUX_FRAC, R.TMU_OFS_AUX_WT, R.TMU_OFS_AUX_PORT, haux, hfrac, hwt, hport]

theorem holdMs_ofsWrite (s : State) (ns aux mpd : Nat) :
    (s.ofsWrite ns aux mpd).fld R.TMU_SRV_HOLD_TIMEOUT_MS = s.fld R.TMU_SRV_HOLD_TIMEOUT_MS := by
  rw [State.ofsWrite, fld_setReg_ne (by decide), fld_setReg_ne (by decide), fld_setReg_ne (by decide)]

/-! The lock state and its events (R80, R88). -/

theorem Only.setSrv {L : List Nat} {s t : State} (h : Only L s t) (v : Servo) : Only L (s.setSrv v) (t.setSrv v) := by
  have hr := congrArg (fun u : State => ({ u with tmu := { u.tmu with srv := v } } : State)) h.rest
  exact ⟨hr, h.regs, h.sess⟩

/-- Between lock states other than LOCKED no event is sent. -/
theorem setLock_quiet {s : State} {l : Lock} (h : s.tmu.srv.lock ≠ .locked) (hl : l ≠ .locked) :
    s.setLock l = s.setSrv { s.tmu.srv with lock := l } := by
  simp only [State.setLock, h, hl, false_and, if_false]

theorem setLock_srv (s : State) (l : Lock) : (s.setLock l).tmu.srv = { s.tmu.srv with lock := l } := by
  rw [(only_setLock s l).tmu_eq]; rfl

/-- Leaving LOCKED is an event. -/
theorem evt_setLock {s : State} {l : Lock} (h : s.tmu.srv.lock = .locked) (hl : l ≠ .locked) : tb ((s.setLock l).reg R.TMU_EVT) 1 = true := by
  have e : s.setLock l = (s.setSrv { s.tmu.srv with lock := l }).raise R.TMU_EVT (2 ^ 1) := by
    simp [State.setLock, h, hl]
  rw [e]
  exact tb_raise _ (by decide) (by decide)

/-- An event that is up stays up when others are raised. -/
theorem tb_raise_of_tb {s : State} {a v i : Nat} (ha : a ≠ R.QCP_EVT_DROP_CNT) (hi : i < 32) (h : tb (s.reg a) i = true) :
    tb ((s.raise a v).reg a) i = true := by
  rw [tb_eq_testBit] at h
  rw [reg_raise ha, if_pos rfl, tb_eq_testBit, Nat.testBit_mod_two_pow, Nat.testBit_or, h, decide_eq_true hi]
  rfl

/-! What the servo makes of a sample (R86, R88). -/

theorem exec_servoSample (s : State) : exec .servoSample s = execServoSample s := rfl

theorem servoSample_takes {s : State} {x : Ofs} {l : List Ofs} (h : s.tmu.ofs = x :: l) (hon : s.tmu.srv.st = .on)
    (hsrc : s.fld R.TMU_SRV_CTL_SRC = 0) : exec .servoSample s = .next ((s.setTmu { s.tmu with ofs := l }).sample x) := by
  rw [exec_servoSample, execServoSample, h]
  exact congrArg _ (if_pos ⟨hon, hsrc⟩)

theorem sample_weightless {s : State} {x : Ofs} (h : x.wt = 0) : s.sample x = s.bump R.TMU_REJ_CNT := if_pos h

/-- The servo in FREE without a reference acquires. -/
theorem sample_free {s : State} {x : Ofs} (hw : x.wt ≠ 0) (hl : s.tmu.srv.lock = .free) (hr : s.tmu.srv.haveRef = false) :
    s.sample x = (s.setLock .acquiring).sampleTail x := by
  simp only [State.sample, hw, hl, hr, if_false, Bool.false_and, Bool.false_eq_true, reduceCtorEq, if_true]

/-- The state once the servo has the rates `v` from a sample, whose offset reads as `last`. -/
def State.sampled (s : State) (v : Servo) (last : Nat) : State :=
  ((((s.setSrv v).applyRate).setReg R.TMU_SRV_LAST_OFS last).bump R.TMU_SMPL_CNT).becomeValid

/-- The lock tests: `n` samples within the lock limit of `a` that lock, and `m` beyond the other of `b` that unlock. -/
def State.lockTested (s : State) (n a m b : Nat) : State :=
  let t := if s.tmu.srv.lock = .acquiring ∧ n ≥ a then
      (s.setLock .locked).setSrv { (s.setLock .locked).tmu.srv with relock := false, slewLim := false }
    else s
  if t.tmu.srv.lock = .locked ∧ m ≥ b then t.setLock .acquiring else t

/-- A sample gives rates, after a step where the servo steps, and goes to the lock tests. -/
theorem sampleTail_cases (s : State) (x : Ofs) : ∃ (u : State) (v : Servo) (last n a m b : Nat), s.sampleTail x = (u.sampled v last).lockTested n a m b ∧
    (u = s ∨ ∃ acc', u = ((s.stepTo acc').bump R.TMU_STEP_CNT).raise R.TMU_EVT 0x10) ∧ (s.stepLimit = none → u = s ∧ v.oRef = x.o) ∧
    v.haveRef = true ∧ v.lock = u.tmu.srv.lock ∧ v.lastPush = u.tmu.srv.lastPush := by
  refine ⟨_, _, _, _, _, _, _, rfl, ?_, fun h => ?_, rfl, rfl, rfl⟩
  · exact (ite_eq_or_eq _ _ _).elim (fun hstep => .inr ⟨_, hstep⟩) .inl
  · simp only [h, Bool.and_false, Bool.false_eq_true, if_false, and_self]

/-- The registers of the rates. -/
def rateRegs : List Nat := [R.TMU_ADDEND, R.TMU_ADDEND_EXT, R.TMU_SRV_RATE, R.TMU_SRV_IRATE]

theorem applyRate_only {L : List Nat} (s : State) (h : ∀ a ∈ rateRegs, a ∈ L) : Only L s s.applyRate :=
  (((only_setReg (h _ (by simp [rateRegs]))).trans (only_setReg (h _ (by simp [rateRegs])))).trans (only_setReg (h _ (by simp [rateRegs])))).trans
    (only_setReg (h _ (by simp [rateRegs])))

/-- The servo with another lock state, and another choice of relocking and of the slew limit. -/
def State.relocked (s : State) (l : Lock) (r w : Bool) : State := s.setSrv { s.tmu.srv with lock := l, relock := r, slewLim := w }

/-- The servo locks on its lock test, and that is an event. -/
theorem setLock_relocked (s : State) : Only [R.TMU_EVT] (s.relocked .locked false false)
    ((s.setLock .locked).setSrv { (s.setLock .locked).tmu.srv with relock := false, slewLim := false }) := by
  rw [setLock_srv]
  exact (only_setLock s .locked).setSrv _

/-- The lock tests leave lock and slew limit, and beside that events; a servo that acquires or has locked still does one of both. -/
theorem lockTested_only (s : State) (n a m b : Nat) : ∃ l r w, Only [R.TMU_EVT] (s.relocked l r w) (s.lockTested n a m b) ∧
    (s.tmu.srv.lock = .acquiring ∨ s.tmu.srv.lock = .locked → l = .acquiring ∨ l = .locked) := by
  have hlock : ∃ l r w, Only [R.TMU_EVT] (s.relocked l r w) (if s.tmu.srv.lock = .acquiring ∧ n ≥ a then
      (s.setLock .locked).setSrv { (s.setLock .locked).tmu.srv with relock := false, slewLim := false } else s) ∧
      (s.tmu.srv.lock = .acquiring ∨ s.tmu.srv.lock = .locked → l = .acquiring ∨ l = .locked) := by
    split
    · exact ⟨_, _, _, setLock_relocked s, fun _ => .inr rfl⟩
    · exact ⟨s.tmu.srv.lock, s.tmu.srv.relock, s.tmu.srv.slewLim, Only.refl _ s, id⟩
  obtain ⟨l, r, w, ho, hl⟩ := hlock
  simp only [State.lockTested]
  generalize (if s.tmu.srv.lock = .acquiring ∧ n ≥ a then
      (s.setLock .locked).setSrv { (s.setLock .locked).tmu.srv with relock := false, slewLim := false } else s) = t at ho ⊢
  split
  · refine ⟨.acquiring, r, w, ?_, fun _ => .inl rfl⟩
    have hu := (ho.setSrv { t.tmu.srv with lock := .acquiring }).trans (only_setLock t .acquiring)
    rw [ho.tmu_eq] at hu
    exact hu
  · exact ⟨l, r, w, ho, hl⟩

/-- What a sample changes beside the servo, the swath timer and registers: nothing. -/
theorem sampled_only (s : State) (v : Servo) (last : Nat) : ∃ w, Only (rateRegs ++ [R.TMU_SRV_LAST_OFS, R.TMU_SMPL_CNT, R.TMU_STAT])
    ((s.setSrv v).setSwt w) (s.sampled v last) := by
  obtain ⟨w, hw⟩ := becomeValid_only ((((s.setSrv v).applyRate).setReg R.TMU_SRV_LAST_OFS last).bump R.TMU_SMPL_CNT)
  refine ⟨w, Only.trans (Only.setSwt ?_ w) (hw.mono (by simp))⟩
  exact (applyRate_only _ fun _ ha => List.mem_append_left _ ha).trans ((only_setReg (by simp)).trans (only_bump (by simp)))

theorem smplCnt_sampled (s : State) (v : Servo) (last : Nat) : (s.sampled v last).reg R.TMU_SMPL_CNT = (s.reg R.TMU_SMPL_CNT + 1) % 2 ^ 32 := by
  obtain ⟨w, hw⟩ := becomeValid_only ((((s.setSrv v).applyRate).setReg R.TMU_SRV_LAST_OFS last).bump R.TMU_SMPL_CNT)
  have hrate : (s.setSrv v).applyRate.reg R.TMU_SMPL_CNT = s.reg R.TMU_SMPL_CNT :=
    (applyRate_only (L := rateRegs) (s.setSrv v) fun _ ha => ha).regs _ (by decide) (by decide)
  rw [State.sampled, hw.regs _ (by decide) (by decide), State.reg_setSwt, State.reg_bump_same, State.reg_setReg_ne _ _ (by decide), hrate]

/-- What a sample without a step leaves: the servo's reference and lock, the count of samples, and a time that is valid. -/
theorem sampleTail_noStep {s : State} {x : Ofs} (hlim : s.stepLimit = none) (hl : s.tmu.srv.lock = .acquiring) :
    (s.sampleTail x).tmu.ofs = s.tmu.ofs ∧ (s.sampleTail x).reg R.TMU_SMPL_CNT = (s.reg R.TMU_SMPL_CNT + 1) % 2 ^ 32 ∧
    (s.sampleTail x).fld R.TMU_STAT_VALID = 1 ∧ (s.sampleTail x).tmu.srv.haveRef = true ∧ (s.sampleTail x).tmu.srv.oRef = x.o ∧
    ((s.sampleTail x).tmu.srv.lock = .acquiring ∨ (s.sampleTail x).tmu.srv.lock = .locked) ∧ (s.sampleTail x).tmu.acc = s.tmu.acc := by
  obtain ⟨u, v, last, n, a, m, b, he, -, hu, href, hvl, -⟩ := sampleTail_cases s x
  obtain ⟨rfl, ho⟩ := hu hlim
  obtain ⟨w, hs⟩ := sampled_only u v last
  obtain ⟨l, r, sl, ht, hlock⟩ := lockTested_only (u.sampled v last) n a m b
  have htmu : ((u.sampled v last).lockTested n a m b).tmu = { u.tmu with srv := { v with lock := l, relock := r, slewLim := sl } } := by
    rw [ht.tmu_eq, State.relocked, State.setSrv, State.setTmu_tmu, hs.tmu_eq]
    rfl
  have hstat : ((u.sampled v last).lockTested n a m b).fld R.TMU_STAT_VALID = (u.sampled v last).fld R.TMU_STAT_VALID := by
    unfold State.fld; rw [ht.regs _ (by decide) (by decide)]; rfl
  rw [he, htmu, hstat, ht.regs _ (by decide) (by decide)]
  refine ⟨rfl, smplCnt_sampled u v last, valid_becomeValid _, href, ho, hlock ?_, rfl⟩
  rw [hs.tmu_eq]
  exact .inl (hvl.trans hl)

theorem servoSample_acquires (s : State) (x : Ofs) (l : List Ofs) (h : s.tmu.ofs = x :: l) (hon : s.tmu.srv.st = .on)
    (hsrc : s.fld R.TMU_SRV_CTL_SRC = 0) (hw : x.wt ≠ 0) (hfree : s.tmu.srv.lock = .free) (href : s.tmu.srv.haveRef = false)
    (hlim : s.stepLimit = none) : ∃ t, exec .servoSample s = .next t ∧ t.tmu.ofs = l ∧
      t.reg R.TMU_SMPL_CNT = (s.reg R.TMU_SMPL_CNT + 1) % 2 ^ 32 ∧ t.fld R.TMU_STAT_VALID = 1 ∧ t.tmu.srv.haveRef = true ∧ t.tmu.srv.oRef = x.o ∧
      (t.tmu.srv.lock = .acquiring ∨ t.tmu.srv.lock = .locked) ∧ t.tmu.acc = s.tmu.acc := by
  have hlock : (s.setTmu { s.tmu with ofs := l }).setLock .acquiring = (s.setTmu { s.tmu with ofs := l }).setSrv { s.tmu.srv with lock := .acquiring } :=
    setLock_quiet (s := s.setTmu { s.tmu with ofs := l }) (by rw [State.setTmu_tmu, hfree]; decide) (by decide)
  refine ⟨_, (servoSample_takes h hon hsrc).trans (congrArg _ (sample_free (s := s.setTmu { s.tmu with ofs := l }) hw hfree href)), ?_⟩
  rw [hlock]
  exact sampleTail_noStep (s := (s.setTmu { s.tmu with ofs := l }).setSrv { s.tmu.srv with lock := .acquiring }) hlim rfl

/-! Holdover (R80, R89) and the failure of the servo (R90). -/

theorem exec_servoHoldoverTimeout (s : State) : exec .servoHoldoverTimeout s = execServoHoldoverTimeout s := rfl
theorem exec_servoFail (s : State) : exec .servoFail s = execServoFail s := rfl

/-- The state whose servo holds over: its lock state, and the rate of its integrator. -/
def State.heldOver (s : State) : State :=
  ((s.setLock .holdover).setSrv { (s.setLock .holdover).tmu.srv with y := s.tmu.srv.iRate, holdAt := s.tmu.loc }).applyRate

theorem exec_holdover {s : State} (hon : s.tmu.srv.st = .on) (hl : s.tmu.srv.lock = .acquiring ∨ s.tmu.srv.lock = .locked)
    (ht : s.tmu.srv.lastPush + s.tmu.srv.holdMs * 1000000 * 2 ^ 40 ≤ s.tmu.loc) : exec .servoHoldoverTimeout s =
    .next (((s.heldOver.setReg R.TMU_SRV_HOLD_S 0).bump R.TMU_HOLD_CNT).raise R.TMU_EVT (2 ^ 2)) := by
  rw [exec_servoHoldoverTimeout, execServoHoldoverTimeout]
  exact congrArg _ (if_pos ⟨hon, hl, ht⟩)

theorem heldOver_only (s : State) : Only (R.TMU_EVT :: rateRegs)
    (s.setSrv { s.tmu.srv with lock := .holdover, y := s.tmu.srv.iRate, holdAt := s.tmu.loc }) s.heldOver := by
  have hl := (only_setLock s .holdover).setSrv { (s.setLock .holdover).tmu.srv with y := s.tmu.srv.iRate, holdAt := s.tmu.loc }
  rw [setLock_srv] at hl
  rw [State.heldOver, setLock_srv]
  exact (hl.mono (by simp)).trans (applyRate_only _ fun _ ha => List.mem_cons_of_mem _ ha)

theorem heldOver_evt {s : State} (h : s.tmu.srv.lock = .locked) : tb (s.heldOver.reg R.TMU_EVT) 1 = true := by
  rw [State.heldOver, (applyRate_only (L := rateRegs) _ fun _ ha => ha).regs _ (by decide) (by decide)]
  exact evt_setLock h (by decide)

theorem servoHoldover_holds (s : State) (hon : s.tmu.srv.st = .on) (hl : s.tmu.srv.lock = .acquiring ∨ s.tmu.srv.lock = .locked)
    (ht : s.tmu.srv.lastPush + s.tmu.srv.holdMs * 1000000 * 2 ^ 40 ≤ s.tmu.loc) : ∃ t, exec .servoHoldoverTimeout s = .next t ∧
      t.tmu.srv.lock = .holdover ∧ t.tmu.srv.y = s.tmu.srv.iRate ∧ t.reg R.TMU_HOLD_CNT = (s.reg R.TMU_HOLD_CNT + 1) % 2 ^ 32 ∧
      tb (t.reg R.TMU_EVT) 2 = true ∧ (s.tmu.srv.lock = .locked → tb (t.reg R.TMU_EVT) 1 = true) ∧ t.tmu.acc = s.tmu.acc ∧ t.legs = s.legs := by
  have hh := heldOver_only s
  have ho : Only [R.TMU_SRV_HOLD_S, R.TMU_HOLD_CNT, R.TMU_EVT] s.heldOver
      (((s.heldOver.setReg R.TMU_SRV_HOLD_S 0).bump R.TMU_HOLD_CNT).raise R.TMU_EVT (2 ^ 2)) :=
    ((only_setReg (by simp)).trans (only_bump (by simp))).raise (by simp) _
  refine ⟨_, exec_holdover hon hl ht, ?_, ?_, ?_, tb_raise _ (by decide) (by decide), fun hlock => ?_, ?_, ?_⟩
  · rw [ho.tmu_eq, hh.tmu_eq]; rfl
  · rw [ho.tmu_eq, hh.tmu_eq]; rfl
  · rw [reg_raise_ne (by decide) (by decide), State.reg_bump_same, State.reg_setReg_ne _ _ (by decide), hh.regs _ (by decide) (by decide)]
    rfl
  · refine tb_raise_of_tb (by decide) (by decide) ?_
    rw [State.reg_bump_ne _ (by decide), State.reg_setReg_ne _ _ (by decide)]
    exact heldOver_evt hlock
  · rw [ho.tmu_eq, hh.tmu_eq]; rfl
  · rw [ho.legs_eq, hh.legs_eq]; rfl

theorem exec_servoFail_due {s : State} {t0 : Nat} (hon : s.tmu.srv.st = .on) (hlim : s.tmu.srv.limitAt = some t0)
    (ht : t0 + 10 * 1000000000 * 2 ^ 40 ≤ s.tmu.loc) : exec .servoFail s =
    .next ((((s.setLock .free).setSrv { (s.setLock .free).tmu.srv with st := .failed, pendEn := s.tmu.srv.pendEn, disHeld := s.tmu.srv.disHeld }).went
      .servo .on .failed).raise R.TMU_EVT (2 ^ 6)) := by
  have hf : s.tmu.srv.fn.fault = ⟨.failed, s.tmu.srv.pendEn, s.tmu.srv.disHeld⟩ := by
    simp only [Fn.fault, Servo.fn, hon]
  have hset : s.setSrvFn s.tmu.srv.fn.fault true = ((s.setLock .free).setSrv { (s.setLock .free).tmu.srv with
      st := .failed, pendEn := s.tmu.srv.pendEn, disHeld := s.tmu.srv.disHeld }).went .servo .on .failed := by
    rw [hf]
    simp only [State.setSrvFn, hon, true_and, ne_eq, reduceCtorEq, not_false_eq_true, if_true]
    rfl
  rw [exec_servoFail, execServoFail, hlim, ← hset]
  exact congrArg _ (if_pos ⟨hon, ht⟩)

theorem servoFail_gives_failed (s : State) (t0 : Nat) (hon : s.tmu.srv.st = .on) (hlim : s.tmu.srv.limitAt = some t0)
    (ht : t0 + 10 * 1000000000 * 2 ^ 40 ≤ s.tmu.loc) :
    Gives .servoFail s [R.TMU_EVT] { s with tmu := { s.tmu with srv := { s.tmu.srv with st := .failed, lock := .free } },
                                            fns := s.fns ++ [⟨.servo, .on, .failed, s.now⟩] }
      fun t => tb (t.reg R.TMU_EVT) 6 = true ∧ (s.tmu.srv.lock = .locked → tb (t.reg R.TMU_EVT) 1 = true) := by
  refine ⟨_, exec_servoFail_due hon hlim ht, ?_, tb_raise _ (by decide) (by decide), fun hlock => tb_raise_of_tb (by decide) (by decide) ?_⟩
  · have hl := ((only_setLock s .free).setSrv
      { (s.setLock .free).tmu.srv with st := .failed, pendEn := s.tmu.srv.pendEn, disHeld := s.tmu.srv.disHeld }).went .servo .on .failed
    rw [setLock_srv] at hl ⊢
    exact hl.raise (by simp) _
  · exact evt_setLock hlock (by decide)

end Sys2Proof.Machine

section
open Sys2Proof.Machine

/-- Settles O8, clause by clause: the push, the sample without weight and the first one, the holdover and the failure. -/
theorem theServoTakesSamples : Obligations.TheServoTakesSamples := by
  refine ⟨fun ns aux mpd s => ?_, fun s x l h hon hsrc hw => ?_, servoSample_acquires, servoHoldover_holds, servoFail_gives_failed⟩
  · refine ⟨fun hoff => ?_, fun hon hfull => ?_, fun hon hroom => ?_⟩
    · rw [exec_tmuOfsPush, ofsPush_off (s := s.ofsWrite _ _ _) hoff]; rfl
    · rw [exec_tmuOfsPush, ofsPush_full (s := s.ofsWrite _ _ _) hon hfull]; rfl
    · rw [exec_tmuOfsPush, ofsPush_on (s := s.ofsWrite _ _ _) hon hroom, heldSample_ofsWrite, holdMs_ofsWrite]; rfl
  · rw [servoSample_takes h hon hsrc, sample_weightless hw]

end

namespace Sys2Proof.Machine

open Sys2Proof

/-! The external reference (R72). -/

theorem exec_ref10mAcquire (s : State) : exec .ref10mAcquire s = .next ((s.setFld R.TMU_STAT_REF_OK 1).refSelect) := rfl
theorem exec_ref10mLoss (s : State) : exec .ref10mLoss s = execRef10mLoss s := rfl

theorem refOk_acquired (s : State) : (s.setFld R.TMU_STAT_REF_OK 1).fld R.TMU_STAT_REF_OK = 1 := fld_setFld_same s R.TMU_STAT_REF_OK 1 (by decide)

theorem ref10mAcquire_armed (s : State) (h : s.tmu.refArmed = true) :
    exec .ref10mAcquire s = .next ((s.setFld R.TMU_STAT_REF_OK 1).setFld R.TMU_STAT_REF_ACTIVE 1) := by
  rw [exec_ref10mAcquire]
  exact congrArg _ (if_pos ⟨h, refOk_acquired s⟩)

theorem ref10mAcquire_disarmed (s : State) (h : s.tmu.refArmed = false) : exec .ref10mAcquire s = .next (s.setFld R.TMU_STAT_REF_OK 1) := by
  have hd : ¬ (s.setFld R.TMU_STAT_REF_OK 1).tmu.refArmed = true := fun k => Bool.false_ne_true (h.symm.trans k)
  rw [exec_ref10mAcquire]
  exact congrArg _ (if_neg fun k => hd k.1)

/-- The state in which the reference in use has been lost, before the loss is counted. -/
def State.refLost (s : State) : State :=
  (((s.setFld R.TMU_STAT_REF_OK 0).setTmu { s.tmu with refArmed := false }).setFld R.TMU_STAT_REF_ACTIVE 0).raise R.TMU_EVT (2 ^ 5)

theorem refLost_only (s : State) : Only [R.TMU_STAT, R.TMU_EVT, R.TMU_REFLOSS_CNT] (s.setTmu { s.tmu with refArmed := false }) s.refLost :=
  (((only_setFld (s := s.setTmu { s.tmu with refArmed := false }) (f := R.TMU_STAT_REF_OK) (v := 0) (by simp [R.TMU_STAT_REF_OK])).setFld
    (f := R.TMU_STAT_REF_ACTIVE) (by simp [R.TMU_STAT_REF_ACTIVE]) 0).raise (by simp) (2 ^ 5))

theorem refLost_ok (s : State) : s.refLost.fld R.TMU_STAT_REF_OK = 0 := by
  rw [State.refLost, fld_raise (by decide) (by decide), fld_setFld_apart (.inr (.inr (by decide : 1 < 2))) (by decide)]
  exact fld_setFld_same s R.TMU_STAT_REF_OK 0 (by decide)

theorem refLost_active (s : State) : s.refLost.fld R.TMU_STAT_REF_ACTIVE = 0 := by
  rw [State.refLost, fld_raise (by decide) (by decide)]
  exact fld_setFld_same _ R.TMU_STAT_REF_ACTIVE 0 (by decide)

theorem refLost_cnt (s : State) : s.refLost.reg R.TMU_REFLOSS_CNT = s.reg R.TMU_REFLOSS_CNT := by
  rw [State.refLost, reg_raise_ne (by decide) (by decide)]
  exact (State.reg_setReg_ne _ _ (by decide)).trans (State.reg_setReg_ne _ _ (by decide))

theorem ref10mLoss_active (s : State) (h : s.fld R.TMU_STAT_REF_ACTIVE = 1) : Gives .ref10mLoss s [R.TMU_STAT, R.TMU_EVT, R.TMU_REFLOSS_CNT]
    (s.setTmu { s.tmu with refArmed := false }) fun t => t.fld R.TMU_STAT_REF_OK = 0 ∧ t.fld R.TMU_STAT_REF_ACTIVE = 0 ∧
      tb (t.reg R.TMU_EVT) 5 = true ∧ t.reg R.TMU_REFLOSS_CNT = (s.reg R.TMU_REFLOSS_CNT + 1) % 2 ^ 32 := by
  have hx : exec .ref10mLoss s = .next (s.refLost.bump R.TMU_REFLOSS_CNT) := by
    rw [exec_ref10mLoss]
    exact congrArg _ (if_pos h)
  refine ⟨_, hx, (refLost_only s).trans (only_bump (by simp)), ?_, ?_, ?_, ?_⟩
  · rw [fld_bump_ne (by decide), refLost_ok]
  · rw [fld_bump_ne (by decide), refLost_active]
  · rw [State.reg_bump_ne _ (by decide)]
    exact tb_raise _ (by decide) (by decide)
  · rw [State.reg_bump_same, refLost_cnt]

theorem ref10mLoss_idle (s : State) (h : s.fld R.TMU_STAT_REF_ACTIVE ≠ 1) : exec .ref10mLoss s = .next (s.setFld R.TMU_STAT_REF_OK 0) := by
  rw [exec_ref10mLoss]
  exact congrArg _ (if_neg h)

/-! The pulses of timed outputs (R60, R61, R101, R103). -/

theorem exec_toutPulse (n : Fin 4) (s : State) : exec (.toutPulse n) s = .next (s.toutFire n.val) := rfl

@[simp] theorem tout_setTout_same (s : State) (n : Nat) (o : Tout) : (s.setTout n o).tout n = o := by
  simp [State.tout, State.setTout]

theorem tout_setTout_ne (s : State) (o : Tout) {n k : Nat} (h : k ≠ n) : (s.setTout n o).tout k = s.tout k := by
  simp [State.tout, State.setTout, Ne.symm h]

/-- The instant at which an output's next pulse is due. -/
def Tout.due (o : Tout) : Inst := if o.per = 0 then (if o.late then o.fireAt else o.start) else o.start + o.nextJ * o.per

/-- The output once it has driven its pulse at a tick. -/
def Tout.fired (o : Tout) (tick : Nat) : Tout :=
  { o with activeUntil := max o.activeUntil (tick + cdiv (4 * o.width) 5), nextJ := o.nextJ + 1, doneJ := o.nextJ + 1,
           run := decide (o.per ≠ 0), late := false }

/-- A late pulse says so: in its output's registers, and in the swath timer's count of late actions. -/
def State.lateNoted (s : State) (n : Nat) (ns : Nat) : State :=
  ((s.setFld (R.TMU_TOUT_CTL_LATE n) 1).setReg (R.TMU_TOUT_LATE n) (min 0xFFFFFFFF ns)).lateAct

theorem toutFire_due {s : State} {n : Nat} (hr : (s.tout n).run = true) (hd : (s.tout n).due ≤ s.now) : s.toutFire n =
    if (s.tout n).late then (s.setTout n ((s.tout n).fired s.tmu.tick)).lateNoted n ((s.now - (s.tout n).start) / 65536)
    else s.setTout n ((s.tout n).fired s.tmu.tick) :=
  if_pos ⟨hr, hd⟩

theorem toutFire_idle {s : State} {n : Nat} (h : (s.tout n).run = false ∨ s.now < (s.tout n).due) : s.toutFire n = s := by
  refine if_neg fun k => ?_
  obtain h | h := h
  · exact Bool.false_ne_true (h.symm.trans k.1)
  · exact Nat.not_le.2 h k.2

theorem tout_late_ne_ctl (n : Nat) : R.TMU_TOUT_LATE n ≠ R.TMU_TOUT_CTL n := by simp only [R.TMU_TOUT_LATE, R.TMU_TOUT_CTL]; omega

section late
variable (s : State) (n ns : Nat)

theorem lateNoted_only : Only [R.TMU_TOUT_CTL n, R.TMU_TOUT_LATE n, R.SWT_LATE_CNT, R.SWT_EVT] s (s.lateNoted n ns) :=
  ((only_setFld (f := R.TMU_TOUT_CTL_LATE n) (by simp [R.TMU_TOUT_CTL_LATE])).trans ((only_setReg (by simp)).trans (only_bump (by simp)))).raise
    (by simp) 8

theorem lateNoted_evt : tb ((s.lateNoted n ns).reg R.SWT_EVT) 3 = true := tb_raise (i := 3) _ (by decide) (by decide)

/-- The registers of the outputs lie apart from those of the late actions. -/
theorem reg_lateAct {a : Nat} (h : a / 0x10000 = 2) : s.lateAct.reg a = s.reg a := by
  have hevt : R.SWT_EVT ≠ a := by simp only [R.SWT_EVT]; omega
  have hdrop : a ≠ R.QCP_EVT_DROP_CNT := by simp only [R.QCP_EVT_DROP_CNT]; omega
  have hcnt : R.SWT_LATE_CNT ≠ a := by simp only [R.SWT_LATE_CNT]; omega
  rw [State.lateAct, reg_raise_ne hdrop hevt, State.reg_bump_ne _ hcnt]

theorem lateNoted_flag (hn : n < 4) : (s.lateNoted n ns).fld (R.TMU_TOUT_CTL_LATE n) = 1 := by
  have hctl : R.TMU_TOUT_CTL n / 0x10000 = 2 := by simp only [R.TMU_TOUT_CTL]; omega
  have hreg : (s.lateNoted n ns).fld (R.TMU_TOUT_CTL_LATE n) = (s.setFld (R.TMU_TOUT_CTL_LATE n) 1).fld (R.TMU_TOUT_CTL_LATE n) := by
    show bits ((s.lateNoted n ns).reg (R.TMU_TOUT_CTL n)) 5 5 = bits ((s.setFld (R.TMU_TOUT_CTL_LATE n) 1).reg (R.TMU_TOUT_CTL n)) 5 5
    rw [State.lateNoted, reg_lateAct _ hctl, State.reg_setReg_ne _ _ (tout_late_ne_ctl n)]
  rw [hreg]
  exact fld_setFld_same s (R.TMU_TOUT_CTL_LATE n) 1 (by decide : 5 < 32)

theorem lateNoted_ns (hn : n < 4) : (s.lateNoted n ns).reg (R.TMU_TOUT_LATE n) = min 0xFFFFFFFF ns := by
  rw [State.lateNoted, reg_lateAct _ (by simp only [R.TMU_TOUT_LATE]; omega), State.reg_setReg_same]
  exact Nat.mod_eq_of_lt (by omega)

theorem lateNoted_cnt : (s.lateNoted n ns).reg R.SWT_LATE_CNT = (s.reg R.SWT_LATE_CNT + 1) % 2 ^ 32 := by
  have hlate : R.TMU_TOUT_LATE n ≠ R.SWT_LATE_CNT := by simp only [R.TMU_TOUT_LATE, R.SWT_LATE_CNT]; omega
  have hctl : R.TMU_TOUT_CTL n ≠ R.SWT_LATE_CNT := by simp only [R.TMU_TOUT_CTL, R.SWT_LATE_CNT]; omega
  rw [State.lateNoted, State.lateAct, reg_raise_ne (by decide) (by decide), State.reg_bump_same, State.reg_setReg_ne _ _ hlate]
  exact congrArg (fun v => (v + 1) % 2 ^ 32) (State.reg_setReg_ne _ _ hctl)

end late

theorem Only.tout_eq {L : List Nat} {s t : State} (h : Only L s t) (n : Nat) : t.tout n = s.tout n := by unfold State.tout; rw [h.tmu_eq]
theorem Only.nv_eq {L : List Nat} {s t : State} (h : Only L s t) : t.nv = s.nv := (congrArg State.nv h.rest : t.bare.nv = s.bare.nv)

/-- A pulse that is due is driven, and one driven late is noted. -/
theorem toutPulse_fires {n : Fin 4} {s : State} (hr : (s.tout n.val).run = true) (hd : (s.tout n.val).due ≤ s.now) :
    ∃ t, exec (.toutPulse n) s = .next t ∧ t.tout n.val = (s.tout n.val).fired s.tmu.tick ∧ (∀ k, k ≠ n.val → t.tout k = s.tout k) ∧
      ((s.tout n.val).late = false → t = s.setTmu { s.tmu with tout := t.tmu.tout }) ∧
      ((s.tout n.val).late = true → t.fld (R.TMU_TOUT_CTL_LATE n.val) = 1 ∧
        t.reg (R.TMU_TOUT_LATE n.val) = min 0xFFFFFFFF ((s.now - (s.tout n.val).start) / 65536) ∧
        t.reg R.SWT_LATE_CNT = (s.reg R.SWT_LATE_CNT + 1) % 2 ^ 32 ∧ tb (t.reg R.SWT_EVT) 3 = true ∧ t.legs = s.legs ∧ t.nv = s.nv) := by
  refine ⟨_, (exec_toutPulse n s).trans (congrArg _ (toutFire_due hr hd)), ?_⟩
  cases hl : (s.tout n.val).late
  · rw [if_neg Bool.false_ne_true]
    exact ⟨tout_setTout_same _ _ _, fun k hk => tout_setTout_ne _ _ hk, fun _ => rfl, fun k => absurd k Bool.false_ne_true⟩
  · have ho := lateNoted_only (s.setTout n.val ((s.tout n.val).fired s.tmu.tick)) n.val ((s.now - (s.tout n.val).start) / 65536)
    rw [if_pos rfl]
    exact ⟨(ho.tout_eq _).trans (tout_setTout_same _ _ _), fun k hk => (ho.tout_eq _).trans (tout_setTout_ne _ _ hk),
      fun k => absurd k.symm Bool.false_ne_true,
      fun _ => ⟨lateNoted_flag _ _ _ n.isLt, lateNoted_ns _ _ _ n.isLt, lateNoted_cnt _ _ _, lateNoted_evt _ _ _, ho.legs_eq, ho.nv_eq⟩⟩

theorem toutPulse_idle {n : Fin 4} {s : State} (h : (s.tout n.val).run = false ∨ s.now < (s.tout n.val).due) : exec (.toutPulse n) s = .next s :=
  (exec_toutPulse n s).trans (congrArg _ (toutFire_idle h))

/-! What a sample leaves of the time unit's inputs and of the servo's time-out (R80, R86). -/

/-- `t` has the inputs of `s` and the instant of its last sample. -/
structure PushKept (s t : State) : Prop where
  tin : t.tmu.tin = s.tmu.tin
  push : t.tmu.srv.lastPush = s.tmu.srv.lastPush

theorem PushKept.trans {s t u : State} (h : PushKept s t) (k : PushKept t u) : PushKept s u := ⟨k.tin.trans h.tin, k.push.trans h.push⟩

theorem Only.pushKept {L : List Nat} {s t : State} (h : Only L s t) : PushKept s t := ⟨by rw [h.tmu_eq], by rw [h.tmu_eq]⟩

theorem pushKept_setSrv {s : State} {v : Servo} (h : v.lastPush = s.tmu.srv.lastPush) : PushKept s (s.setSrv v) := ⟨rfl, h⟩

theorem pushKept_setLock (s : State) (l : Lock) : PushKept s (s.setLock l) :=
  (pushKept_setSrv (v := { s.tmu.srv with lock := l }) rfl).trans (only_setLock s l).pushKept

theorem pushKept_stepTo (s : State) (acc' : Nat) : PushKept s (s.stepTo acc') :=
  have h := (stepTo_follows s acc').1
  ⟨(congrArg (fun u : State => u.tmu.tin) h.rest : (s.stepTo acc').unstepped.tmu.tin = _), congrArg Servo.lastPush h.srv_eq⟩

theorem pushKept_sampleTail (s : State) (x : Ofs) : PushKept s (s.sampleTail x) := by
  obtain ⟨u, v, last, n, a, m, b, he, hu, -, -, -, hpush⟩ := sampleTail_cases s x
  obtain ⟨w, hs⟩ := sampled_only u v last
  obtain ⟨l, r, sl, ht, -⟩ := lockTested_only (u.sampled v last) n a m b
  have hstep : PushKept s u := by
    obtain rfl | ⟨acc', rfl⟩ := hu
    · exact ⟨rfl, rfl⟩
    · exact (pushKept_stepTo s acc').trans ((only_bump (L := [R.TMU_STEP_CNT, R.TMU_EVT]) (by simp)).raise (by simp) _).pushKept
  have hrates : PushKept ((u.setSrv v).setSwt w) (u.sampled v last) := hs.pushKept
  have htests : PushKept ((u.sampled v last).relocked l r sl) ((u.sampled v last).lockTested n a m b) := ht.pushKept
  rw [he]
  exact hstep.trans ⟨htests.tin.trans hrates.tin, htests.push.trans (hrates.push.trans hpush)⟩

/-- A sample that the servo takes in another state of its lock. -/
theorem pushKept_acquire {s : State} {v : Servo} (x : Ofs) (h : v.lastPush = s.tmu.srv.lastPush) :
    PushKept s (((s.setSrv v).setLock .acquiring).sampleTail x) :=
  ((pushKept_setSrv h).trans (pushKept_setLock _ _)).trans (pushKept_sampleTail _ x)

/-- A sample that the servo rejects at a change of route. -/
theorem pushKept_route {s : State} {v : Servo} (h : v.lastPush = s.tmu.srv.lastPush) :
    PushKept s (((((s.setSrv v).setLock .routeGuard).applyRate).bump R.TMU_ROUTE_CNT).raise R.TMU_EVT 8).rejectSample := by
  have hl := (pushKept_setSrv h).trans (pushKept_setLock (s.setSrv v) .routeGuard)
  have hr : Only (R.TMU_EVT :: R.TMU_REJ_CNT :: R.TMU_ROUTE_CNT :: rateRegs) ((s.setSrv v).setLock .routeGuard)
      (((((s.setSrv v).setLock .routeGuard).applyRate).bump R.TMU_ROUTE_CNT).raise R.TMU_EVT 8).rejectSample :=
    (((applyRate_only _ fun _ ha => List.mem_append_right [_, _, _] ha).trans (only_bump (by simp))).raise (by simp) _).trans (only_bump (by simp))
  exact hl.trans hr.pushKept

theorem pushKept_ite {s a b : State} {c : Prop} [Decidable c] (ha : PushKept s a) (hb : PushKept s b) : PushKept s (if c then a else b) := by
  split <;> assumption

theorem pushKept_sample (s : State) (x : Ofs) : PushKept s (s.sample x) := by
  have hguard : ∀ {v w : Servo} {c : Prop} [Decidable c], v.lastPush = s.tmu.srv.lastPush → w.lastPush = s.tmu.srv.lastPush →
      PushKept s (if c then (s.setSrv v).rejectSample else ((s.setSrv w).setLock .acquiring).sampleTail x) :=
    fun hv hw => pushKept_ite ⟨rfl, hv⟩ (pushKept_acquire x hw)
  have hplain : PushKept s (if s.tmu.srv.lock = .free then (s.setLock .acquiring).sampleTail x else s.sampleTail x) :=
    pushKept_ite ((pushKept_setLock _ _).trans (pushKept_sampleTail _ x)) (pushKept_sampleTail s x)
  exact pushKept_ite ⟨rfl, rfl⟩ (pushKept_ite (hguard rfl rfl) (pushKept_ite (pushKept_route rfl) (pushKept_ite (pushKept_acquire x rfl) hplain)))

/-! Captured edges (R82, R105). -/

theorem exec_tinEdgeCapture (n : Fin 5) (rise : Bool) (s : State) : exec (.tinEdgeCapture n rise) s = execTinEdgeCapture n rise s := rfl

/-- The input's configuration chooses the edge. -/
def State.edgeChosen (s : State) (n : Nat) (rise : Bool) : Prop :=
  s.fld (R.TMU_TIN_CFG_EDGE n) = 3 ∨ s.fld (R.TMU_TIN_CFG_EDGE n) = (if rise then 1 else 2)

/-- The edge comes at least 5 ns, four ticks, after the one captured last. -/
def State.edgeApart (s : State) (n : Nat) : Prop := ∀ l, (s.tin n).last = some l → l + 4 ≤ s.tmu.tick

/-- The input once an edge has been captured at a tick, or lost to a full FIFO. -/
def Tin.stamped (x : Tin) (tick : Nat) (c : Cap) : Tin :=
  { x with last := some tick, fifo := if x.fifo.length < 16 then x.fifo ++ [c] else x.fifo }

/-- What a captured edge leaves before the servo sees it: the input, the count of one that is lost, or the event of one that is kept. -/
def State.edgeTaken (s : State) (n : Nat) (rise : Bool) : State :=
  let t := s.setTin n ((s.tin n).stamped s.tmu.tick ⟨s.now, rise⟩)
  if 16 ≤ (s.tin n).fifo.length then t.bump (R.TMU_TIN_DROP_CNT n)
  else if s.fld (R.TMU_TIN_CFG_EVT n) = 1 then
    (t.raise R.TMU_EVT 0x80).eventAll 2 0x06F0 2 (be 1 n ++ be 1 (b2n rise) ++ be 2 0 ++ timeBytes s.now)
  else t

/-- The servo takes the edge of PPS_IN as its sample (R82). -/
def State.ppsTaken (s : State) (stamp : Inst) : State :=
  (s.setSrv { s.tmu.srv with lastPush := s.tmu.loc, holdMs := s.fld R.TMU_SRV_HOLD_TIMEOUT_MS }).sample (s.ppsSample stamp)

theorem edgeChosen_iff (s : State) (n : Nat) (rise : Bool) : (if rise then s.fld (R.TMU_TIN_CFG_EDGE n) = 1 ∨ s.fld (R.TMU_TIN_CFG_EDGE n) = 3
    else s.fld (R.TMU_TIN_CFG_EDGE n) = 2 ∨ s.fld (R.TMU_TIN_CFG_EDGE n) = 3) ↔ s.edgeChosen n rise := by
  cases rise <;> exact or_comm

/-- The edge follows the last one captured too closely. -/
def State.edgeClose (s : State) (n : Nat) : Bool :=
  match (s.tin n).last with
  | some l => decide (s.tmu.tick < l + 4)
  | none => false

theorem edgeClose_iff (s : State) (n : Nat) : s.edgeClose n = false ↔ s.edgeApart n := by
  unfold State.edgeClose State.edgeApart
  cases (s.tin n).last with
  | none => simp
  | some l => simp

theorem tinEdge_ignored {n : Fin 5} {rise : Bool} {s : State} (h : ¬ (s.edgeChosen n.val rise ∧ s.edgeApart n.val)) :
    exec (.tinEdgeCapture n rise) s = .next s := by
  rw [← edgeChosen_iff, ← edgeClose_iff] at h
  rw [exec_tinEdgeCapture]
  exact congrArg _ (if_neg h)

theorem tinEdge_taken {n : Fin 5} {rise : Bool} {s : State} (hc : s.edgeChosen n.val rise) (ha : s.edgeApart n.val) :
    exec (.tinEdgeCapture n rise) s = .next (if n.val = 4 ∧ s.fld R.TMU_SRV_CTL_SRC = 1 ∧ s.tmu.srv.st = .on then
      (s.edgeTaken n.val rise).ppsTaken s.now else s.edgeTaken n.val rise) := by
  rw [← edgeChosen_iff] at hc
  rw [← edgeClose_iff] at ha
  rw [exec_tinEdgeCapture]
  refine congrArg _ ((if_pos ⟨hc, ha⟩).trans ?_)
  by_cases hfull : 16 ≤ (s.tin n.val).fifo.length
  · simp only [State.edgeTaken, Tin.stamped, hfull, Nat.not_lt.2 hfull, decide_true, if_true, if_false]
    rfl
  · simp only [State.edgeTaken, Tin.stamped, hfull, Nat.not_le.1 hfull, decide_false, if_true, if_false, Bool.false_eq_true]
    rfl

theorem edgeTaken_tmu (s : State) (n : Nat) (rise : Bool) :
    (s.edgeTaken n rise).tmu = (s.setTin n ((s.tin n).stamped s.tmu.tick ⟨s.now, rise⟩)).tmu := by
  unfold State.edgeTaken
  split
  · rfl
  · split
    · rw [((only_raise (L := [R.TMU_EVT]) (by simp)).trans only_eventAll).tmu_eq]
    · rfl

/-- The edge is one of PPS_IN, from which the servo takes its samples. -/
def State.ppsEdge (s : State) (n : Fin 5) : Prop := n = 4 ∧ s.fld R.TMU_SRV_CTL_SRC = 1 ∧ s.tmu.srv.st = .on

section edge
variable {n : Fin 5} {rise : Bool} {s : State} (hc : s.edgeChosen n.val rise) (ha : s.edgeApart n.val)
include hc ha

theorem tinEdge_plain (hp : ¬ s.ppsEdge n) : exec (.tinEdgeCapture n rise) s = .next (s.edgeTaken n.val rise) := by
  rw [tinEdge_taken hc ha]
  exact congrArg _ (if_neg fun k => hp ⟨Fin.ext k.1, k.2⟩)

theorem tinEdge_pps (hp : s.ppsEdge n) : exec (.tinEdgeCapture n rise) s = .next ((s.edgeTaken n.val rise).ppsTaken s.now) := by
  rw [tinEdge_taken hc ha]
  exact congrArg _ (if_pos ⟨congrArg Fin.val hp.1, hp.2⟩)

theorem tinEdge_quiet (hp : ¬ s.ppsEdge n) (hroom : (s.tin n.val).fifo.length < 16) (hevt : s.fld (R.TMU_TIN_CFG_EVT n.val) = 0) :
    exec (.tinEdgeCapture n rise) s = .next (s.setTin n.val
      { s.tin n.val with last := some s.tmu.tick, fifo := (s.tin n.val).fifo ++ [⟨s.now, rise⟩] }) := by
  have hevt' : ¬ s.fld (R.TMU_TIN_CFG_EVT n.val) = 1 := by omega
  rw [tinEdge_plain hc ha hp]
  simp only [State.edgeTaken, Tin.stamped, hroom, Nat.not_le.2 hroom, hevt', if_true, if_false]

theorem tinEdge_event (hp : ¬ s.ppsEdge n) (hroom : (s.tin n.val).fifo.length < 16) (hevt : s.fld (R.TMU_TIN_CFG_EVT n.val) = 1) :
    Gives (.tinEdgeCapture n rise) s [R.TMU_EVT] (s.setTin n.val
      { s.tin n.val with last := some s.tmu.tick, fifo := (s.tin n.val).fifo ++ [⟨s.now, rise⟩] }) fun t => tb (t.reg R.TMU_EVT) 7 = true := by
  refine ⟨_, tinEdge_plain hc ha hp, ?_⟩
  simp only [State.edgeTaken, Tin.stamped, hroom, Nat.not_le.2 hroom, hevt, if_true, if_false]
  refine ⟨(only_raise (by simp)).trans only_eventAll, ?_⟩
  rw [(only_eventAll (L := [])).regs R.TMU_EVT (by simp) (by decide)]
  exact tb_raise (i := 7) _ (by decide) (by decide)

theorem tinEdge_full (hp : ¬ s.ppsEdge n) (hfull : 16 ≤ (s.tin n.val).fifo.length) : exec (.tinEdgeCapture n rise) s =
    .next ((s.setTin n.val { s.tin n.val with last := some s.tmu.tick }).bump (R.TMU_TIN_DROP_CNT n.val)) := by
  rw [tinEdge_plain hc ha hp]
  simp only [State.edgeTaken, Tin.stamped, hfull, Nat.not_lt.2 hfull, if_true, if_false]

/-- An edge of PPS_IN restarts the servo's time-out, and its capture stays whatever the servo makes of it. -/
theorem tinEdge_servo (hp : s.ppsEdge n) : ∃ t, exec (.tinEdgeCapture n rise) s = .next t ∧ t.tmu.srv.lastPush = s.tmu.loc ∧
    (t.tin n.val).fifo = if (s.tin n.val).fifo.length < 16 then (s.tin n.val).fifo ++ [⟨s.now, rise⟩] else (s.tin n.val).fifo := by
  have hk := pushKept_sample ((s.edgeTaken n.val rise).setSrv { (s.edgeTaken n.val rise).tmu.srv with
    lastPush := (s.edgeTaken n.val rise).tmu.loc, holdMs := (s.edgeTaken n.val rise).fld R.TMU_SRV_HOLD_TIMEOUT_MS })
    ((s.edgeTaken n.val rise).ppsSample s.now)
  have htin : ((s.edgeTaken n.val rise).ppsTaken s.now).tmu.tin = (s.edgeTaken n.val rise).tmu.tin := hk.tin
  refine ⟨_, tinEdge_pps hc ha hp, hk.push.trans ?_, ?_⟩
  · show (s.edgeTaken n.val rise).tmu.loc = _
    rw [edgeTaken_tmu]; rfl
  · rw [State.tin, htin, edgeTaken_tmu]
    simp only [State.setTin, State.setTmu_tmu, kgetD_kset_same]
    rfl

end edge

end Sys2Proof.Machine

section
open Sys2Proof.Machine

/-- Settles O9, clause by clause: the reference acquired and lost, a pulse driven and none due, and an edge by what is made of it. -/
theorem referencePulsesAndEdges : Obligations.ReferencePulsesAndEdges := by
  refine ⟨ref10mAcquire_armed, ref10mAcquire_disarmed, ref10mLoss_active, ref10mLoss_idle, fun n s => ⟨toutPulse_fires, toutPulse_idle⟩,
    fun n rise s => ⟨tinEdge_ignored, tinEdge_quiet, tinEdge_event, tinEdge_full, tinEdge_servo⟩⟩

end

namespace Sys2Proof.Machine

open Sys2Proof

/-! Pauses by the peer and the renewal of the part's own XOFF (R131, R134). -/

theorem exec_pauseQuantaExpiry (p tc : Fin 8) (s : State) : exec (.pauseQuantaExpiry p tc) s = execPauseQuantaExpiry p tc s := rfl
theorem exec_pfcRefresh (p : Fin 8) (s : State) : exec (.pfcRefresh p) s = execPfcRefresh p s := rfl

/-- Quanta of zero end the pause of a class (R134). -/
theorem peerPause_zero (s : State) (p n : Nat) : s.peerPause p n 0 =
    (s.setPort p { s.port p with pauseUntil := kdel (s.port p).pauseUntil n }).setFld (R.MAC_PAUSED_PEER p)
      (putBit (s.fld (R.MAC_PAUSED_PEER p)) n false) := rfl

theorem pauseQuantaExpiry_due (p tc : Fin 8) (s : State) (u : Nat) (hk : kget (s.port p.val).pauseUntil tc.val = some u) (hu : u ≤ s.loc) :
    exec (.pauseQuantaExpiry p tc) s =
    .next ((s.setPort p.val { s.port p.val with pauseUntil := kdel (s.port p.val).pauseUntil tc.val }).setFld (R.MAC_PAUSED_PEER p.val)
      (putBit (s.fld (R.MAC_PAUSED_PEER p.val)) tc.val false)) := by
  simp only [exec_pauseQuantaExpiry, execPauseQuantaExpiry, hk, if_pos hu, peerPause_zero]

theorem pauseQuantaExpiry_idle (p tc : Fin 8) (s : State) (h : ∀ u, kget (s.port p.val).pauseUntil tc.val = some u → s.loc < u) :
    exec (.pauseQuantaExpiry p tc) s = .next s := by
  simp only [exec_pauseQuantaExpiry, execPauseQuantaExpiry]
  split
  · next u hk => rw [if_neg (Nat.not_le.2 (h u hk))]
  · rfl

/-- A quantum of a 100 Gbit/s port lasts 5.12 ns (R134). -/
theorem quanta_lane (p n : Nat) (s : State) (hp : p < 7) : s.quanta p n = (n * 512 * 65536 + 99) / 100 := by
  rw [State.quanta, if_pos hp, cdiv, nsI, Nat.mul_assoc, Nat.add_sub_assoc (by decide)]

theorem pfcRefresh_due (p : Fin 8) (s : State) (hx : s.fld (R.MAC_PAUSED_XOFF p.val) ≠ 0) (hr : (s.port p.val).refreshAt ≤ s.loc)
    (hm : s.fld (R.MAC_FC_MODE p.val) = 1 ∨ s.fld (R.MAC_FC_MODE p.val) = 2) : exec (.pfcRefresh p) s =
    .next (s.setPort p.val { s.port p.val with
      fcDue := (s.port p.val).fcDue ||| s.fld (R.MAC_PAUSED_XOFF p.val)
      refreshAt := (s.port p.val).refreshAt + s.quanta p.val (s.fld (R.MAC_FC_TIME_REFRESH p.val)) }) := by
  simp only [exec_pfcRefresh, execPfcRefresh]
  rw [if_pos ⟨hx, hr, hm⟩]

theorem pfcRefresh_idle (p : Fin 8) (s : State) (h : s.fld (R.MAC_PAUSED_XOFF p.val) = 0 ∨ s.loc < (s.port p.val).refreshAt) :
    exec (.pfcRefresh p) s = .next s := by
  simp only [exec_pfcRefresh, execPfcRefresh]
  rw [if_neg fun ⟨hx, hr, _⟩ => h.elim hx fun hl => Nat.not_le.2 hl hr]

end Sys2Proof.Machine

section
open Sys2Proof.Machine

/-- Settles O18: a pause ends when its quanta have run out and not before, and XOFF is renewed when its refresh is due and not before. -/
theorem pausesEndAndAreRenewed : Obligations.PausesEndAndAreRenewed :=
  ⟨pauseQuantaExpiry_due, pauseQuantaExpiry_idle, quanta_lane, pfcRefresh_due, pfcRefresh_idle⟩

end

namespace Sys2Proof.Machine

open Sys2Proof

/-! The MDIO master (R142). -/

theorem exec_macMdioGo (cfg v : Word) (s : State) : exec (.macMdioGo cfg v) s = execMacMdioGo cfg v s := rfl
theorem exec_mdioFrameDone (r : Option (BitVec 16)) (s : State) : exec (.mdioFrameDone r) s = execMdioFrameDone r s := rfl
theorem exec_portMdioWrite (q : Req) (s : State) : exec (.portMdioWrite q) s = .next (runOp opPortMdioWrite 0x0703 q s) := rfl
theorem exec_portMdioRead (q : Req) (s : State) : exec (.portMdioRead q) s = .next (runOp opPortMdioRead 0x0781 q s) := rfl

theorem flag_of_fld_one {s : State} {f : Fld} (h : s.fld f = 1) : s.flag f = true := by rw [State.flag, h]; rfl
theorem flag_of_fld_zero {s : State} {f : Fld} (h : s.fld f = 0) : s.flag f = false := by rw [State.flag, h]; rfl

theorem mdioCfg_eq (s : State) (v : Nat) : s.mdioCfg v = if v % 2 ^ 10 < 200 then s else s.setReg R.MAC_MDIO_CFG (v % 2 ^ 11) := by
  simp only [State.mdioCfg, bits, Nat.pow_zero, Nat.div_one, Nat.sub_zero, Nat.reduceAdd]

theorem mdioBusy_mdioCfg (s : State) (v : Nat) : (s.mdioCfg v).fld R.MAC_MDIO_STAT_BUSY = s.fld R.MAC_MDIO_STAT_BUSY := by
  unfold State.mdioCfg
  split
  · rfl
  · exact fld_setReg_ne (by decide)

theorem mdio_mdioCfg (s : State) (v : Nat) : (s.mdioCfg v).mdio = s.mdio := by
  unfold State.mdioCfg
  split <;> rfl

theorem macMdioGo_starts (cfg v : Word) (s : State) (hb : s.fld R.MAC_MDIO_STAT_BUSY = 0) (hv : tb v.toNat 31 = true) :
    exec (.macMdioGo cfg v) s = .next ((s.mdioCfg cfg.toNat).mdioStart v.toNat false) := by
  have hf : (s.mdioCfg cfg.toNat).flag R.MAC_MDIO_STAT_BUSY = false := flag_of_fld_zero ((mdioBusy_mdioCfg _ _).trans hb)
  simp only [exec_macMdioGo, execMacMdioGo]
  rw [if_neg (by simp [hf, hv])]

theorem macMdioGo_starts_none (cfg v : Word) (s : State) (h : s.fld R.MAC_MDIO_STAT_BUSY = 1 ∨ tb v.toNat 31 = false) :
    exec (.macMdioGo cfg v) s = .next (s.mdioCfg cfg.toNat) := by
  simp only [exec_macMdioGo, execMacMdioGo]
  rw [if_pos (h.imp_left fun hb => flag_of_fld_one ((mdioBusy_mdioCfg _ _).trans hb))]

/-- What the end of a frame stores: the read data, or ERR and 0xFFFF without a response; a write frame only ends (R142). -/
def State.mdioStored (s : State) (r : Option (BitVec 16)) : State :=
  if mdioReads (s.reg R.MAC_MDIO_CMD) then
    ((s.setFld R.MAC_MDIO_STAT_BUSY 0).setFld R.MAC_MDIO_STAT_ERR (b2n r.isNone)).setFld R.MAC_MDIO_STAT_RDATA ((r.map BitVec.toNat).getD 0xFFFF)
  else s.setFld R.MAC_MDIO_STAT_BUSY 0

/-- The end of a frame: what it stores, its job's progress if it was a job's, and the next job's frame. -/
theorem mdioFrameDone_ends {r : Option (BitVec 16)} {s : State} (hb : s.fld R.MAC_MDIO_STAT_BUSY = 1) : exec (.mdioFrameDone r) s =
    .next (if s.mdio.own then (s.mdioStored r).mdioJobDone (mdioReads (s.reg R.MAC_MDIO_CMD)) r else s.mdioStored r).mdioNext := by
  simp only [exec_mdioFrameDone, execMdioFrameDone, flag_of_fld_one hb, if_true, State.mdioStored]
  cases r <;> rfl

/-- The master goes on at most to the first frame of the first job. -/
theorem mdioNext_cases (s : State) : s.mdioNext = s ∨ ∃ w, s.mdioNext = s.mdioStart w true := by
  unfold State.mdioNext
  split
  · exact .inl rfl
  · split
    · exact .inr ⟨_, rfl⟩
    · exact .inl rfl

theorem mdioNext_idle {s : State} (h : s.mdio.jobs = []) : s.mdioNext = s := by
  simp only [State.mdioNext, h, ite_self]

theorem mdioFrameDone_firmware (r : Option (BitVec 16)) (s : State) (hb : s.fld R.MAC_MDIO_STAT_BUSY = 1) (ho : s.mdio.own = false)
    (hj : s.mdio.jobs = []) : exec (.mdioFrameDone r) s = .next (s.mdioStored r) := by
  have hm : (s.mdioStored r).mdio.jobs = [] := by
    unfold State.mdioStored
    split <;> exact hj
  rw [mdioFrameDone_ends hb, ho, if_neg Bool.false_ne_true, mdioNext_idle hm]

/-! The MDIO master goes on: what it leaves alone, and what a job's last frame answers (R142, R143). -/

theorem sess_mdioStored (s : State) (r : Option (BitVec 16)) (m : Nat) : (s.mdioStored r).sess m = s.sess m := by
  unfold State.mdioStored
  split <;> rfl

theorem mdio_mdioStored (s : State) (r : Option (BitVec 16)) : (s.mdioStored r).mdio = s.mdio := by
  unfold State.mdioStored
  split <;> rfl

/-- A read frame stores what it read. -/
theorem mdioRdata_mdioStored {s : State} (d : BitVec 16) (h : mdioReads (s.reg R.MAC_MDIO_CMD) = true) :
    (s.mdioStored (some d)).fld R.MAC_MDIO_STAT_RDATA = d.toNat := by
  rw [State.mdioStored, if_pos h, fld_setFld_same _ _ _ (by decide)]
  exact Nat.mod_eq_of_lt d.isLt

/-- The start of a frame writes MAC_MDIO_CMD and BUSY. -/
theorem fld_mdioStart {s : State} {w : Nat} {own : Bool} {g : Fld} (hc : R.MAC_MDIO_CMD ≠ g.addr) (hb : R.MAC_MDIO_STAT_BUSY.Apart g) (hg : g.hi < 32) :
    (s.mdioStart w own).fld g = s.fld g := by
  show ((s.setReg R.MAC_MDIO_CMD _).setFld R.MAC_MDIO_STAT_BUSY 1).fld g = _
  rw [fld_setFld_apart hb hg, fld_setReg_ne hc]

/-- The next job's frame leaves the jobs, the data read, the sessions, the ports and the device number. -/
theorem mdioNext_leaves (s : State) : s.mdioNext.mdio.jobs = s.mdio.jobs ∧ s.mdioNext.fld R.MAC_MDIO_STAT_RDATA = s.fld R.MAC_MDIO_STAT_RDATA ∧
    s.mdioNext.qcp = s.qcp ∧ s.mdioNext.ports = s.ports ∧ s.mdioNext.dev = s.dev := by
  obtain h | ⟨w, h⟩ := mdioNext_cases s
  · rw [h]; exact ⟨rfl, rfl, rfl, rfl, rfl⟩
  · rw [h]
    exact ⟨rfl, fld_mdioStart (by decide) (.inr (.inr (by decide))) (by decide), rfl, rfl, fld_mdioStart (by decide) (.inl (by decide)) (by decide)⟩

/-- Of the part a reply shows the device number that it is given, and the frame limits of the ports. -/
theorem replyFrames_congr {s t : State} (h : t.ports = s.ports) (dev : Nat) (x : Session) (m seq op st det : Nat) (jrn : Bool) (r : Bytes) :
    replyFrames t dev x m seq op st det jrn r = replyFrames s dev x m seq op st det jrn r := by
  have hlim : t.qcpLimit = s.qcpLimit := by
    funext p n
    simp only [State.qcpLimit, State.portMax, State.port, h]
  unfold replyFrames
  rw [hlim]

/-- The reply that a command owes goes out, and the session waits for it no longer (R162). -/
theorem replyLate_answers {s : State} {m seq op st det : Nat} {jrn : Bool} {r : Bytes} (hon : (s.sess m).st = .on) (hd : (s.sess m).defer = true)
    (ho : (s.sess m).out = []) (hdet : det ≤ 0xFFFF) : ∃ x y : Session, s.replyLate m seq op st det jrn r = (s.setSess m x).setSess m y ∧
      y.defer = false ∧ y.out = replyFrames s s.dev (s.sess m) m seq op st det jrn r := by
  simp only [State.replyLate, hd, if_true, State.reply, State.replyAs, State.sess_setSess_same, hon, ho, Nat.min_eq_left hdet]
  exact ⟨_, _, rfl, rfl, rfl⟩

/-- The last frame of a PORT_MDIO_READ answers it with the data read, and two zero bytes (R143). -/
theorem mdioJobDone_answers {s : State} {j : MdioJob} {js : List MdioJob} {w : Nat} (d : BitVec 16) (hj : s.mdio.jobs = j :: js) (hw : j.words = [w]) :
    s.mdioJobDone true (some d) =
      ({ s with mdio := { s.mdio with jobs := js } } : State).replyLate j.mbox j.seq j.opcode St.ok 0 j.jrn (be 2 d.toNat ++ be 2 0) := by
  simp only [State.mdioJobDone, hj, hw, List.drop_one, List.tail_cons, if_true]

theorem mdioFrameDone_answers (d : BitVec 16) (s : State) (j : MdioJob) (js : List MdioJob) (w : Nat) (hb : s.fld R.MAC_MDIO_STAT_BUSY = 1)
    (hown : s.mdio.own = true) (hj : s.mdio.jobs = j :: js) (hw : j.words = [w]) (hr : mdioReads (s.reg R.MAC_MDIO_CMD) = true)
    (hon : (s.sess j.mbox).st = .on) (hd : (s.sess j.mbox).defer = true) (ho : (s.sess j.mbox).out = []) :
    ∃ t, exec (.mdioFrameDone (some d)) s = .next t ∧ t.mdio.jobs = js ∧ t.fld R.MAC_MDIO_STAT_RDATA = d.toNat ∧ (t.sess j.mbox).defer = false ∧
      (t.sess j.mbox).out = replyFrames t t.dev (s.sess j.mbox) j.mbox j.seq j.opcode St.ok 0 j.jrn (be 2 d.toNat ++ be 2 0) := by
  let u := s.mdioStored (some d)
  let v : State := { u with mdio := { u.mdio with jobs := js } }
  have hs : v.sess j.mbox = s.sess j.mbox := sess_mdioStored s (some d) j.mbox
  obtain ⟨y, x, hx, hdf, hout⟩ := replyLate_answers (s := v) (m := j.mbox) (seq := j.seq) (op := j.opcode) (st := St.ok) (det := 0) (jrn := j.jrn)
    (r := be 2 d.toNat ++ be 2 0) (by rw [hs, hon]) (by rw [hs, hd]) (by rw [hs, ho]) (Nat.zero_le _)
  have hn := mdioNext_leaves ((v.setSess j.mbox y).setSess j.mbox x)
  obtain ⟨hjobs, hdata, hqcp, hports, hdev⟩ := hn
  have hsess : ((v.setSess j.mbox y).setSess j.mbox x).mdioNext.sess j.mbox = x := by
    unfold State.sess; rw [hqcp]; exact State.sess_setSess_same _ _ _
  refine ⟨((v.setSess j.mbox y).setSess j.mbox x).mdioNext, ?_, hjobs, ?_, ?_, ?_⟩
  · rw [mdioFrameDone_ends hb, hown, if_pos rfl, hr, mdioJobDone_answers d ((congrArg Mdio.jobs (mdio_mdioStored s _)).trans hj) hw]
    exact congrArg (fun y : State => Host.Outcome.next y.mdioNext) hx
  · exact hdata.trans (mdioRdata_mdioStored d hr)
  · rw [hsess, hdf]
  · rw [hsess, hout, hdev, hs]
    exact (replyFrames_congr hports ..).symm

/-! PORT_MDIO (R143): the job is queued, and its reply comes later. -/

section congr
variable {m : Nat} {s t : State} (h : Aside m s t)
include h

theorem Aside.mdioStart (v : Nat) (own : Bool) : Aside m (s.mdioStart v own) (t.mdioStart v own) := by
  unfold State.mdioStart
  simp only [State.setFld_mdio, State.setReg_mdio, h.mdio_eq]
  exact ((h.setReg _ _).setFld (f := R.MAC_MDIO_STAT_BUSY) (by decide) _).withMdio _

theorem Aside.mdioNext : Aside m s.mdioNext t.mdioNext := by
  have hflag : t.flag R.MAC_MDIO_STAT_BUSY = s.flag R.MAC_MDIO_STAT_BUSY := by
    rw [State.flag, h.fld_eq (f := R.MAC_MDIO_STAT_BUSY) (by decide), State.flag]
  rw [State.mdioNext, State.mdioNext, hflag, h.mdio_eq]
  by_cases hb : s.flag R.MAC_MDIO_STAT_BUSY = true
  · rw [if_pos hb, if_pos hb]; exact h
  · rw [if_neg hb, if_neg hb]
    match s.mdio.jobs with
    | [] => exact h
    | ⟨_, _, _, _, []⟩ :: _ => exact h
    | ⟨_, _, _, _, w :: _⟩ :: _ => exact h.mdioStart w true

theorem Aside.mdioJob (c : Ctx) (jrn : Bool) (w : List Nat) : Aside m (s.mdioJob c jrn w) (t.mdioJob c jrn w) := by
  unfold State.mdioJob
  rw [h.mdio_eq]
  exact (h.withMdio _).mdioNext

end congr

/-- A journaled command has its record committed, and then its effect, on a state that differs aside (R171). -/
theorem commits_app {d : OpDef} {i : Instr} {op : Nat} {q : Req} {s : State} {plan : List Nat} (hx : exec i s = .next (runOp d op q s))
    (ha : Accepted d op q s plan) (hj : d.jrnl q.payload = true) (hr : Room q s) (ht : opTable op = some d) :
    ∃ (v : State) (c : Ctx), Aside q.mbox.val s v ∧ c.mbox = q.mbox.val ∧ c.seq = q.seq.toNat ∧ c.opcode = op ∧
      Commits i s ((d.app c plan v q.payload).finish c v.dev true) := by
  have hA := aside_take (s := s) q.mbox.isLt
  let j : Jrnl := ⟨q.mbox.val, q.seq.toNat, op, q.payload, plan, false⟩
  let w : State := (s.take q.mbox.val).setQcp { (s.take q.mbox.val).qcp with jrnl := some j }
  let t : State := w.setQcp { w.qcp with jrnl := none }
  have hjn : (s.take q.mbox.val).qcp.jrnl = none :=
    (congrArg (fun u : State => u.qcp.jrnl) hA.rest : (s.take q.mbox.val).beside.qcp.jrnl = _).trans (turn_cases ha.turn).2.2.2
  have hte : t = s.take q.mbox.val := by
    show (s.take q.mbox.val).setQcp { (s.take q.mbox.val).qcp with jrnl := none } = _
    rw [← hjn]; rfl
  have hfit : t.jrnlUsed + (t.recordOf j).size ≤ jrnlMax := by
    have hsize : (t.recordOf j).size ≤ 56 + q.payload.length := recordOf_size t j
    have hused : t.jrnlUsed = s.jrnlUsed := by rw [hte]; unfold State.jrnlUsed; rw [take_nv]
    have := hr.space
    omega
  obtain ⟨u, hu⟩ := commitRec_isSome (s := t) (r := t.recordOf j) (by rw [hte, take_nv]; exact hr.prs) hfit
  let v : State := (u.fateCommit (t.recordOf j).session (t.recordOf j).keyId j.seq).bump R.QCP_JRNL_CNT
  have hv : Aside q.mbox.val s v := by
    have hc : Aside q.mbox.val t u := aside_commitRec hu
    rw [hte] at hc
    exact ((hA.trans hc).trans aside_fateCommit).trans (aside_bump (by decide))
  refine ⟨v, v.jctx j, hv, rfl, rfl, rfl, w, ?_, ?_⟩
  · rw [hx, ha.run, hj, if_pos rfl]
  · have hc : execJournalCommit w = .next (match t.commitRec (t.recordOf j) with
        | none => t.commitFail j
        | some u =>
          let v : State := (u.fateCommit (t.recordOf j).session (t.recordOf j).keyId j.seq).bump R.QCP_JRNL_CNT
          match opTable j.opcode with
          | some d => if j.feeds ∧ (v.sess j.mbox).st = .on then v
              else (d.app (v.jctx j) j.plan v j.payload).finish (v.jctx j) v.dev true
          | none => v) := rfl
    rw [exec_journalCommit, hc, hu]
    simp only [show opTable j.opcode = some d from ht]
    rw [if_neg (fun k => absurd k.1 (by rw [show j.feeds = false from Bool.and_false _]; exact Bool.false_ne_true))]

/-- A journaled command whose reply comes later takes effect with the commit of its record. -/
theorem waits_journaled {d : OpDef} {i : Instr} {op : Nat} {q : Req} {s e : State} {plan : List Nat} (hx : exec i s = .next (runOp d op q s))
    (ha : Accepted d op q s plan) (hj : d.jrnl q.payload = true) (hr : Room q s) (ht : opTable op = some d)
    (hact : ∀ (v : State) (c : Ctx), Aside q.mbox.val s v → c.mbox = q.mbox.val → c.seq = q.seq.toNat → c.opcode = op →
      ∃ w, d.app c plan v q.payload = Done.wait w ∧ Aside q.mbox.val e w) : Waits true i q s e := by
  obtain ⟨v, c, hv, hm, hs, ho, hc⟩ := commits_app hx ha hj hr ht
  obtain ⟨w, happ, hw⟩ := hact v c hv hm hs ho
  refine ⟨_, hc, ?_⟩
  rw [happ]
  simp only [Done.finish, Done.wait, if_true, hm]
  exact ⟨hw.trans aside_setSess, congrArg Session.defer (State.sess_setSess_same _ _ _)⟩

theorem portMdioWrite_waits (q : Req) (s : State) (plan : List Nat) (ha : Accepted opPortMdioWrite 0x0703 q s plan) (hr : Room q s) :
    Waits true (.portMdioWrite q) q s
      (({ s with mdio := { s.mdio with jobs := s.mdio.jobs ++ [⟨q.mbox.val, q.seq.toNat, 0x0703, true, mdioWords q.payload true⟩] } } : State).mdioNext) := by
  refine waits_journaled (exec_portMdioWrite q s) ha rfl hr rfl fun v c hv hm hs ho => ⟨v.mdioJob c true (mdioWords q.payload true), rfl, ?_⟩
  have he : s.mdioJob c true (mdioWords q.payload true) = s.mdioJob (Req.ctx q 0x0703 s) true (mdioWords q.payload true) := by
    unfold State.mdioJob
    rw [hm, hs, ho]
    rfl
  have h := hv.mdioJob c true (mdioWords q.payload true)
  rw [he] at h
  exact h

theorem portMdioRead_waits (q : Req) (s : State) (plan : List Nat) (ha : Accepted opPortMdioRead 0x0781 q s plan) :
    Waits false (.portMdioRead q) q s
      (({ s with mdio := { s.mdio with jobs := s.mdio.jobs ++ [⟨q.mbox.val, q.seq.toNat, 0x0781, false, mdioWords q.payload false⟩] } } : State).mdioNext) :=
  waits_taken (exec_portMdioRead q s) ha rfl rfl ((aside_take q.mbox.isLt).mdioJob (Req.ctx q 0x0781 s) false (mdioWords q.payload false))

end Sys2Proof.Machine

section
open Sys2Proof.Machine

/-- Settles O21: GO by the state of the master, the end of a firmware's frame and of a job's last frame, and the two commands that queue frames. -/
theorem mdioFramesRunInTurn : Obligations.MdioFramesRunInTurn := by
  refine ⟨fun cfg v s => ⟨fun hb hv => ?_, fun h => ?_⟩, mdioFrameDone_firmware, mdioFrameDone_answers, portMdioWrite_waits, portMdioRead_waits⟩
  · rw [macMdioGo_starts cfg v s hb hv, State.mdioStart, ← mdioCfg_eq]
    simp only [State.setFld_mdio, State.setReg_mdio, mdio_mdioCfg]
  · rw [macMdioGo_starts_none cfg v s h, ← mdioCfg_eq]

end

namespace Sys2Proof.Machine

open Sys2Proof

/-! Collisions and the back-off of S0 (R139-R141). -/

theorem exec_s0Collision (n : Nat) (s : State) : exec (.s0Collision n) s = execS0Collision n s := rfl
theorem exec_s0BackoffExpiry (s : State) : exec .s0BackoffExpiry s = execS0BackoffExpiry s := rfl

theorem halfDuplex_s0 (s : State) : s.halfDuplex 7 = decide (s.fld (R.MAC_STAT_DUPLEX 7) = 0) := by
  simp only [State.halfDuplex, beq_self_eq_true, Bool.true_and]
  rfl

/-- The time of bits on S0 is that of one bit at its speed, in 2^-16 ns, for each (R139). -/
theorem s0Bits_eq (s : State) (n : Nat) : s.s0Bits n =
    n * ((if s.fld (R.MAC_STAT_SPEED 7) = 0 then 100 else if s.fld (R.MAC_STAT_SPEED 7) = 1 then 10 else 1) * 65536) := by
  unfold State.s0Bits
  split
  · next h => rw [if_pos h]; rfl
  · next h => rw [if_neg (by omega), if_pos h]; rfl
  · next h0 h1 => rw [if_neg h0, if_neg h1]; rfl

/-- In half duplex a frame on the wire that does not back off may collide (R140). -/
theorem s0_may_collide {s : State} (hd : s.fld (R.MAC_STAT_DUPLEX 7) = 0) (hb : (s.port 7).backoff = none) :
    ¬ (s.halfDuplex 7 = false ∨ (s.port 7).backoff.isSome = true) := by
  simp [halfDuplex_s0, hd, hb]

/-- A frame that is given up leaves the wire, is counted, and its producer hears that the wire was busy (R140, R141). -/
def State.s0GivesUp (s : State) (f : TxFrame) (cnt : Nat) : State :=
  (((s.bump (R.MAC_TX_COL_CNT 7)).setPort 7 { s.port 7 with wire := none, attempts := 0 }).bump cnt).txDone f St.busy none false

section collision
variable {n : Nat} {s : State} {f : TxFrame} (hw : (s.port 7).wire = some f) (hd : s.fld (R.MAC_STAT_DUPLEX 7) = 0)
  (hb : (s.port 7).backoff = none)
include hw hd hb

theorem s0Collision_late (hn : 512 < n) : exec (.s0Collision n) s = .next (s.s0GivesUp f (R.MAC_TX_LATE_COL_CNT 7)) := by
  simp only [exec_s0Collision, execS0Collision, hw, if_neg (s0_may_collide hd hb), if_pos hn, State.s0GivesUp]

theorem s0Collision_excess (hn : n ≤ 512) (ha : 15 ≤ (s.port 7).attempts) :
    exec (.s0Collision n) s = .next (s.s0GivesUp f (R.MAC_TX_EXCESS_COL_CNT 7)) := by
  simp only [exec_s0Collision, execS0Collision, hw, if_neg (s0_may_collide hd hb), if_neg (Nat.not_lt.2 hn), if_pos ha, State.s0GivesUp]

/-- The number of slots is a free value, held below 2^min(n, 10). -/
theorem s0Collision_backsOff (hn : n ≤ 512) (ha : (s.port 7).attempts < 15) : ∃ k < 2 ^ min ((s.port 7).attempts + 1) 10,
    exec (.s0Collision n) s = .next ((s.bump (R.MAC_TX_COL_CNT 7)).drawn.setPort 7 { s.port 7 with
      attempts := (s.port 7).attempts + 1
      backoff := some (s.loc + (32 + 512 * k) *
        ((if s.fld (R.MAC_STAT_SPEED 7) = 0 then 100 else if s.fld (R.MAC_STAT_SPEED 7) = 1 then 10 else 1) * 65536)) }) := by
  refine ⟨s.draw 10 % 2 ^ min ((s.port 7).attempts + 1) 10, Nat.mod_lt _ (Nat.two_pow_pos _), ?_⟩
  simp only [exec_s0Collision, execS0Collision, hw, if_neg (s0_may_collide hd hb), if_neg (Nat.not_lt.2 hn), if_neg (Nat.not_le.2 ha), ← s0Bits_eq]

end collision

theorem s0Collision_none (n : Nat) (s : State)
    (h : (s.port 7).wire = none ∨ s.fld (R.MAC_STAT_DUPLEX 7) ≠ 0 ∨ (s.port 7).backoff ≠ none) : exec (.s0Collision n) s = .next s := by
  simp only [exec_s0Collision, execS0Collision, halfDuplex_s0]
  split
  · rfl
  · next f hw =>
    rw [if_pos]
    obtain h | h | h := h
    · rw [hw] at h; cases h
    · exact .inl (decide_eq_false h)
    · exact .inr (Option.isSome_iff_ne_none.2 h)

/-- A port sends while it is ON with its link up (R117). -/
theorem notSending_false_iff (s : State) (p : Nat) : s.notSending p = false ↔ s.portSt p = .on ∧ s.fld (R.MAC_STAT_LINK p) = 1 := by
  simp [State.notSending, State.flag]

theorem notSending_true_iff (s : State) (p : Nat) : s.notSending p = true ↔ ¬ (s.portSt p = .on ∧ s.fld (R.MAC_STAT_LINK p) = 1) := by
  rw [← notSending_false_iff, Bool.not_eq_false]

theorem s0BackoffExpiry_pending {s : State} {t : Nat} {f : TxFrame} (hb : (s.port 7).backoff = some t) (hw : (s.port 7).wire = some f) (ht : s.loc < t) :
    exec .s0BackoffExpiry s = .next s := by
  simp only [exec_s0BackoffExpiry, execS0BackoffExpiry, hb, hw, if_neg (Nat.not_le.2 ht)]

theorem s0BackoffExpiry_due {s : State} {t : Nat} {f : TxFrame} (hb : (s.port 7).backoff = some t) (hw : (s.port 7).wire = some f) (ht : t ≤ s.loc) :
    exec .s0BackoffExpiry s = .next (s.s0Again f) := by
  simp only [exec_s0BackoffExpiry, execS0BackoffExpiry, hb, hw, if_pos ht]

theorem s0Again_sends {s : State} {f : TxFrame} (hs : s.notSending 7 = false) (hg : s.meetsGate 7 f = false) :
    s.s0Again f = s.setPort 7 { s.port 7 with backoff := none } := by
  simp only [State.s0Again, hs, hg, Bool.false_eq_true, if_false]

theorem s0Again_stopped {s : State} {f : TxFrame} (hs : s.notSending 7 = true) : s.s0Again f =
    ((s.setPort 7 { s.port 7 with wire := none, backoff := none, attempts := 0 }).bump (R.MAC_TX_DISCARD_CNT 7)).txDone f St.state none false := by
  simp only [State.s0Again, hs, if_true]

theorem s0Again_gated {s : State} {f : TxFrame} (hs : s.notSending 7 = false) (hg : s.meetsGate 7 f = true) : s.s0Again f =
    ((s.setPort 7 { s.port 7 with wire := none, backoff := none, attempts := 0 }).bump (R.MAC_TX_GATE_DROP_CNT 7)).txDone f St.state none true := by
  simp only [State.s0Again, hs, hg, Bool.false_eq_true, if_false, if_true]

end Sys2Proof.Machine

section
open Sys2Proof.Machine

/-- Settles O20: a collision by its time and the attempts made, none where there is no contention, and the end of a back-off. -/
theorem collisionsBackOff : Obligations.CollisionsBackOff := by
  refine ⟨fun n s f hw hd hb => ⟨s0Collision_backsOff hw hd hb, s0Collision_late hw hd hb, s0Collision_excess hw hd hb⟩, s0Collision_none,
    fun s t f hb hw => ⟨s0BackoffExpiry_pending hb hw, fun ht hs hg => ?_, fun ht hs => ?_, fun ht hs hg => ?_⟩⟩
  all_goals rw [s0BackoffExpiry_due hb hw ht]
  · rw [s0Again_sends ((notSending_false_iff s 7).2 hs) hg]
  · rw [s0Again_stopped ((notSending_true_iff s 7).2 hs)]
  · rw [s0Again_gated ((notSending_false_iff s 7).2 hs) hg]

end

namespace Sys2Proof.Machine

open Sys2Proof

/-! Counters of 64 bits (R146). -/

theorem reg_bump64_ne {s : State} {a b n : Nat} (hlo : a ≠ b) (hhi : a + 4 ≠ b) : (s.bump64 a n).reg b = s.reg b := by
  simp only [State.bump64]
  rw [State.reg_setReg_ne _ _ hhi, State.reg_setReg_ne _ _ hlo]

/-! What captures, tap rings and the write-back of a transmit frame leave of the part (R127, R390, R458-R465, R473, R476). -/

/-- A state without what those who watch or queued a frame change: registers, mailboxes, the granary, results of transmission, reports. -/
def State.unwatched (s : State) : State :=
  { s with regs := [], qcp := { s.qcp with sess := [] }, grn := State.reset.grn, txRes := [], fns := [] }

/-- The registers that captures write: those of the granary, and the counter of dropped events. -/
def CapReg (a : Nat) : Prop := a / 0x10000 = 0xD ∨ a = R.QCP_EVT_DROP_CNT

/-- The registers that those who watch a frame, or queued it, may write: of the ports' block MAC_EVT and the two counters of receive rings. -/
def WatchReg (a : Nat) : Prop := a / 0x10000 ≠ 3 ∨ a % 0x1000 = 0 ∨ a % 0x1000 = 0x124 ∨ a % 0x1000 = 0x128

/-- `t` is `s` but for what those who watch a frame change, and registers among `W`. -/
structure Watched (W : Nat → Prop) (s t : State) : Prop where
  rest : t.unwatched = s.unwatched
  regs : ∀ a, ¬ W a → t.reg a = s.reg a

/-- What captures leave: the tap rings too stay as they are. -/
structure Captured (s t : State) : Prop extends Watched CapReg s t where
  taps : t.grn.taps = s.grn.taps

theorem Watched.refl (W : Nat → Prop) (s : State) : Watched W s s := ⟨rfl, fun _ _ => rfl⟩

theorem Watched.trans {W : Nat → Prop} {s t u : State} (h : Watched W s t) (k : Watched W t u) : Watched W s u :=
  ⟨k.rest.trans h.rest, fun a ha => (k.regs a ha).trans (h.regs a ha)⟩

theorem Watched.mono {W X : Nat → Prop} {s t : State} (h : Watched W s t) (hx : ∀ a, W a → X a) : Watched X s t :=
  ⟨h.rest, fun a ha => h.regs a fun k => ha (hx a k)⟩

theorem Watched.foldl {α : Type} {W : Nat → Prop} {f : State → α → State} (hf : ∀ t x, Watched W t (f t x)) :
    ∀ (l : List α) (s : State), Watched W s (l.foldl f s)
  | [], s => Watched.refl W s
  | x :: l, s => (hf s x).trans (Watched.foldl hf l (f s x))

theorem Captured.refl (s : State) : Captured s s := ⟨Watched.refl CapReg s, rfl⟩

theorem Captured.trans {s t u : State} (h : Captured s t) (k : Captured t u) : Captured s u :=
  ⟨h.toWatched.trans k.toWatched, k.taps.trans h.taps⟩

theorem captured_ite {c : Prop} [Decidable c] {s t u : State} (ht : Captured s t) (hu : Captured s u) : Captured s (if c then t else u) := by
  split <;> assumption

theorem Captured.foldl {α : Type} {f : State → α → State} (hf : ∀ t x, Captured t (f t x)) :
    ∀ (l : List α) (s : State), Captured s (l.foldl f s)
  | [], s => Captured.refl s
  | x :: l, s => (hf s x).trans (Captured.foldl hf l (f s x))

section fields
variable {W : Nat → Prop} {s t : State} (h : Watched W s t)
include h

theorem Watched.ports_eq : t.ports = s.ports := (congrArg State.ports h.rest : t.unwatched.ports = s.unwatched.ports)
theorem Watched.port_eq (p : Nat) : t.port p = s.port p := by unfold State.port; rw [h.ports_eq]
theorem Watched.legs_eq : t.legs = s.legs := (congrArg State.legs h.rest : t.unwatched.legs = s.unwatched.legs)
theorem Watched.tmu_eq : t.tmu = s.tmu := (congrArg State.tmu h.rest : t.unwatched.tmu = s.unwatched.tmu)
theorem Watched.nv_eq : t.nv = s.nv := (congrArg State.nv h.rest : t.unwatched.nv = s.unwatched.nv)
theorem Watched.swt_eq : t.swt = s.swt := (congrArg State.swt h.rest : t.unwatched.swt = s.unwatched.swt)
theorem Watched.mmu_eq : t.mmu = s.mmu := (congrArg State.mmu h.rest : t.unwatched.mmu = s.unwatched.mmu)

end fields

theorem watchReg_of_capReg (a : Nat) (h : CapReg a) : WatchReg a := by
  obtain h | rfl := h
  · exact .inl (by omega)
  · exact .inl (by decide)

theorem Captured.watched {s t : State} (h : Captured s t) : Watched WatchReg s t := h.toWatched.mono watchReg_of_capReg

theorem watched_setReg {W : Nat → Prop} {s : State} {a v : Nat} (h : W a) : Watched W s (s.setReg a v) :=
  ⟨rfl, fun _ hb => State.reg_setReg_ne _ _ fun e => hb (e ▸ h)⟩

theorem Only.watched {W : Nat → Prop} {L : List Nat} {s t : State} (h : Only L s t) (hL : ∀ a ∈ L, W a) (hd : W R.QCP_EVT_DROP_CNT) :
    Watched W s t :=
  ⟨(congrArg State.unwatched h.rest : t.bare.unwatched = s.bare.unwatched), fun a ha => h.regs a (fun k => ha (hL a k)) fun e => ha (e ▸ hd)⟩

theorem watched_raise {W : Nat → Prop} {s : State} {a v : Nat} (h : W a) (hd : W R.QCP_EVT_DROP_CNT) : Watched W s (s.raise a v) :=
  (only_raise (L := [a]) (by simp)).watched (by simpa using h) hd

theorem watched_setGring (W : Nat → Prop) (s : State) (kind id : Nat) (x : GRing) : Watched W s (s.setGring kind id x) := ⟨rfl, fun _ _ => rfl⟩

theorem captured_setReg {s : State} {a v : Nat} (h : a / 0x10000 = 0xD) : Captured s (s.setReg a v) := ⟨watched_setReg (.inl h), rfl⟩

theorem captured_bump {s : State} {a : Nat} (h : a / 0x10000 = 0xD) : Captured s (s.bump a) := captured_setReg h

theorem Only.grn_eq {L : List Nat} {s t : State} (h : Only L s t) : t.grn = s.grn := (congrArg State.grn h.rest : t.bare.grn = s.bare.grn)

theorem captured_raise {s : State} {a v : Nat} (h : a / 0x10000 = 0xD) : Captured s (s.raise a v) :=
  ⟨watched_raise (.inl h) (.inr rfl), congrArg Grn.taps (only_raise (L := [a]) (by simp)).grn_eq⟩

theorem captured_setCap (s : State) (c : Nat) (x : Capture) : Captured s (s.setCap c x) := ⟨⟨rfl, fun _ _ => rfl⟩, rfl⟩

theorem captured_pathTakes (s : State) (n : Nat) : Captured s (s.pathTakes n) := ⟨⟨rfl, fun _ _ => rfl⟩, rfl⟩

theorem captured_balerTakes (s : State) (n : Nat) (new : Bool) : Captured s (s.balerTakes n new) := ⟨⟨rfl, fun _ _ => rfl⟩, rfl⟩

/-! A frame offered to the captures (R458-R465). -/

theorem captured_endCap (s : State) (c cause : Nat) : Captured s (s.endCap c cause) :=
  (captured_setCap s c _).trans (captured_raise (by decide))

theorem captured_capWrite (s : State) (c : Nat) (mk : Nat → Nat → Bytes) (stamp : Inst) : Captured s (s.capWrite c mk stamp) := by
  simp only [State.capWrite]
  split
  · exact ((captured_setCap s c _).trans (captured_bump (by decide))).trans (captured_raise (by decide))
  · split
    · have h (y : Capture) (n : Nat) : Captured s (((s.setCap c y).bump R.GRN_REC_CNT).pathTakes n) :=
        ((captured_setCap s c y).trans (captured_bump (by decide))).trans (captured_pathTakes _ _)
      split
      · exact (h _ _).trans (captured_balerTakes _ _ _)
      · exact h _ _
    · exact captured_endCap s c 3

theorem captured_fireTrigger (s : State) (c : Nat) (tt : Inst) (late : Bool) : Captured s (s.fireTrigger c tt late) := by
  simp only [State.fireTrigger]
  split
  · exact Captured.refl s
  · split
    · exact captured_bump (by decide)
    · exact (((captured_setCap s c _).trans (captured_bump (by decide))).trans (captured_raise (by decide))).trans (captured_capWrite _ _ _ _)

theorem captured_capFrame1 (s : State) (c p dir : Nat) (b : Bytes) (cls : Nat) (leg : Option Nat) (stamp : Inst) :
    Captured s (s.capFrame1 c p dir b cls leg stamp) := by
  have ht : Captured s (if (s.cap c).trig = 1 ∧ (s.cap c).tcmp.ok b then s.fireTrigger c stamp false else s) :=
    captured_ite (captured_fireTrigger s c stamp false) (Captured.refl s)
  exact captured_ite (captured_ite (ht.trans (captured_capWrite _ _ _ _)) ht) (Captured.refl s)

/-! A frame offered to the tap rings (R473). -/

theorem watched_tapFrame1 (s : State) (r p dir : Nat) (b : Bytes) (cls : Nat) (leg : Option Nat) (stamp : Inst) :
    Watched WatchReg s (s.tapFrame1 r p dir b cls leg stamp) := by
  have hempty : WatchReg (R.MAC_RX_RING_EMPTY_CNT p) := by simp only [WatchReg, R.MAC_RX_RING_EMPTY_CNT]; omega
  have habandon : WatchReg (R.MAC_RX_RING_ABANDON_CNT p) := by simp only [WatchReg, R.MAC_RX_RING_ABANDON_CNT]; omega
  have hput (x : GRing) (n k : Nat) : Watched WatchReg s (((s.setGring 0 r x).bumpBy R.GRN_TAP_ENT_CNT n).pathTakes k) :=
    ((watched_setGring WatchReg s 0 r x).trans (watched_setReg (.inl (by decide)))).trans (captured_pathTakes _ _).watched
  simp only [State.tapFrame1]
  split
  · split
    · exact watched_setReg hempty
    · split
      · exact ((hput _ _ _).trans (watched_setReg habandon)).trans (watched_raise (.inr (.inl (by decide))) (.inl (by decide)))
      · exact hput _ _ _
  · exact Watched.refl WatchReg s

theorem tapFrame1_untapped {s : State} (h : s.grn.taps = []) (r p dir : Nat) (b : Bytes) (cls : Nat) (leg : Option Nat) (stamp : Inst) :
    s.tapFrame1 r p dir b cls leg stamp = s := by
  have hr : s.gring 0 r = GRing.init := by simp only [State.gring, if_true, h]; rfl
  simp only [State.tapFrame1, hr]
  exact if_neg fun k => FnState.noConfusion k.1

/-- The captures see a frame before the tap rings do. -/
theorem captured_captures (s : State) (p dir : Nat) (b : Bytes) (cls : Nat) (leg : Option Nat) (stamp : Inst) :
    Captured s ((List.range 16).foldl (fun t c => t.capFrame1 c p dir b cls leg stamp) s) :=
  Captured.foldl (fun t c => captured_capFrame1 t c p dir b cls leg stamp) (List.range 16) s

theorem watched_capFrame (s : State) (p dir : Nat) (b : Bytes) (cls : Nat) (leg : Option Nat) (stamp : Inst) :
    Watched WatchReg s (s.capFrame p dir b cls leg stamp) := by
  rw [State.capFrame]
  exact (captured_captures s p dir b cls leg stamp).watched.trans
    (Watched.foldl (f := fun t r => t.tapFrame1 r p dir b cls leg stamp) (fun t r => watched_tapFrame1 t r p dir b cls leg stamp) (List.range 16) _)

/-- Without tap rings only captures look at a frame. -/
theorem captured_capFrame {s : State} (h : s.grn.taps = []) (p dir : Nat) (b : Bytes) (cls : Nat) (leg : Option Nat) (stamp : Inst) :
    Captured s (s.capFrame p dir b cls leg stamp) := by
  have hc := captured_captures s p dir b cls leg stamp
  have htaps (u : State) (hu : Captured s u) : (List.range 16).foldl (fun t r => t.tapFrame1 r p dir b cls leg stamp) u = u :=
    List.foldl_fixed' (fun r => tapFrame1_untapped (hu.taps.trans h) r p dir b cls leg stamp) (List.range 16)
  rw [State.capFrame, htaps _ hc]
  exact hc

/-! The end of a transmit frame (R95, R117, R127, R390, R469, R476). -/

theorem watched_txDone (s : State) (f : TxFrame) (status : Nat) (ts : Option Inst) (gate : Bool) :
    Watched WatchReg s (s.txDone f status ts gate) := by
  simp only [State.txDone]
  split
  · exact ⟨rfl, fun _ _ => rfl⟩
  · split
    · exact Watched.refl WatchReg s
    · exact watched_setGring WatchReg s 1 _ _
  · have hl : Captured s ((s.bump R.GRN_EXP_LOST_CNT).raise R.GRN_EVT 8) := (captured_bump (by decide)).trans (captured_raise (by decide))
    split
    · split
      · exact (hl.trans (captured_setCap _ _ _)).watched
      · exact hl.watched
    · exact Watched.refl WatchReg s
  · split
    · exact watched_setReg (.inl (by decide))
    · exact Watched.refl WatchReg s
  · exact Watched.refl WatchReg s

theorem txDone_none {s : State} {f : TxFrame} (h : f.origin = .none) (status : Nat) (ts : Option Inst) (gate : Bool) :
    s.txDone f status ts gate = s := by
  simp only [State.txDone, h]

theorem watched_tcCorrect (s : State) (p : Nat) (f : TxFrame) (tx : Inst) : Watched WatchReg s (s.tcCorrect p f tx).1 := by
  have hb (u : State) : Watched WatchReg u (u.bump R.TMU_TC_OVF_CNT) := watched_setReg (.inl (by decide))
  simp only [State.tcCorrect]
  split
  · split
    · exact Watched.refl WatchReg s
    · split
      · exact Watched.refl WatchReg s
      · have hc : Watched WatchReg s (s.bump R.TMU_TC_CNT) := watched_setReg (.inl (by decide))
        dsimp only
        split
        · exact hc.trans (hb _)
        · exact hc
  · exact Watched.refl WatchReg s

/-- A frame that leaves is counted; of what is not watched, registers alone change (R93, R146). -/
theorem sendFrame_leaves (s : State) {p : Nat} (hp : p < 8) (f : TxFrame) : Watched (fun _ => True) s (s.sendFrame p f) ∧
    (s.sendFrame p f).reg (R.MAC_TX_FRM_CNT p) = (s.reg (R.MAC_TX_FRM_CNT p) + 1) % 2 ^ 32 := by
  have hw : ¬ WatchReg (R.MAC_TX_FRM_CNT p) := by simp only [WatchReg, R.MAC_TX_FRM_CNT]; omega
  have hlo : R.MAC_TX_BYTE_CNT_LO p ≠ R.MAC_TX_FRM_CNT p := by simp only [R.MAC_TX_BYTE_CNT_LO, R.MAC_TX_FRM_CNT]; omega
  have hhi : R.MAC_TX_BYTE_CNT_LO p + 4 ≠ R.MAC_TX_FRM_CNT p := by simp only [R.MAC_TX_BYTE_CNT_LO, R.MAC_TX_FRM_CNT]; omega
  have hcount (u : State) (n : Nat) : ((u.bump (R.MAC_TX_FRM_CNT p)).bump64 (R.MAC_TX_BYTE_CNT_LO p) n).unwatched = u.unwatched := rfl
  rw [State.sendFrame]
  generalize (if p < 7 then ((s.now : Int) + sgn 32 (s.reg (R.MAC_TSCOR_TX p))).toNat else s.now) = stamp
  have hc := watched_tcCorrect s p f stamp
  generalize s.tcCorrect p f stamp = r at hc ⊢
  obtain ⟨u, b⟩ := r
  dsimp only at hc ⊢
  have hd (leg : Option Nat) (ts : Option Inst) :=
    (watched_capFrame ((u.bump (R.MAC_TX_FRM_CNT p)).bump64 (R.MAC_TX_BYTE_CNT_LO p) (flen b)) p 1 b f.tc leg stamp).trans
      (watched_txDone _ { f with bytes := b } St.ok ts false)
  refine ⟨⟨(hd _ _).rest.trans ((hcount _ _).trans hc.rest), fun _ ha => absurd trivial ha⟩, ((hd _ _).regs _ hw).trans ?_⟩
  rw [reg_bump64_ne hlo hhi, State.reg_bump_same, hc.regs _ hw]

end Sys2Proof.Machine

namespace Sys2Proof.Machine

open Sys2Proof

/-! What a port sends next (R117, R125, R126, R139). -/

theorem exec_macTxSelect (p : Fin 8) (s : State) : exec (.macTxSelect p) s = execMacTxSelect p s := rfl
theorem exec_txQueueEntry (p tc : Fin 8) (s : State) : exec (.txQueueEntry p tc) s = execTxQueueEntry p tc s := rfl

theorem wireDone_idle {s : State} {p : Nat} (h : (s.port p).wire = none) : s.wireDone p = s := by
  simp only [State.wireDone, h]

/-- Without gates no frame meets a closed one. -/
theorem meetsGate_ungated {s : State} (h : s.qcp.gates = []) (p : Nat) (f : TxFrame) : s.meetsGate p f = false := by
  have hg (c : Nat) : s.gateClosed c = false := by rw [State.gateClosed, h]; rfl
  cases hf : f.group <;> simp only [State.meetsGate, hg, hf, Bool.and_false, Bool.or_false]

/-- A port that sends, and has no gate, discards nothing. -/
theorem purge_sending {s : State} {p : Nat} (hs : s.notSending p = false) (hg : s.qcp.gates = []) (n k : Nat) : s.purge p n k = s := by
  cases k with
  | zero => rfl
  | succ k =>
    simp only [State.purge, hs, meetsGate_ungated hg, Bool.false_eq_true, if_false]
    split <;> rfl

theorem purgeAll_sending {s : State} {p : Nat} (hs : s.notSending p = false) (hg : s.qcp.gates = []) : s.purgeAll p = s :=
  List.foldl_fixed' (fun n => purge_sending hs hg n _) (List.range 8)

section sending
variable {p : Fin 8} {s : State} (hon : s.portSt p.val = .on) (hl : s.fld (R.MAC_STAT_LINK p.val) = 1) (hw : (s.port p.val).wire = none)
  (hg : s.qcp.gates = [])
include hon hl hw hg

theorem macTxSelect_flowControl (hd : (s.port p.val).fcDue ≠ 0) (hm : s.fld (R.MAC_FC_MODE p.val) ≠ 0) : exec (.macTxSelect p) s =
    .next ((s.setPort p.val { s.port p.val with fcDue := 0 }).bump (s.fcFrame p.val).2) := by
  have hs := (notSending_false_iff s p.val).2 ⟨hon, hl⟩
  simp only [exec_macTxSelect, execMacTxSelect, wireDone_idle hw, purgeAll_sending hs hg, hs, hw, Option.isSome_none, Bool.false_eq_true, or_self,
    if_false]
  rw [if_pos ⟨hd, hm⟩]

/-- The head of the class chosen leaves its queue, and the port; in half duplex it stays on the wire. -/
theorem macTxSelect_head {n : Nat} {f : TxFrame} {r : List TxFrame} (hd : (s.port p.val).fcDue = 0 ∨ s.fld (R.MAC_FC_MODE p.val) = 0)
    (hc : s.nextClass p.val = some n) (hq : kgetD (s.port p.val).txq n [] = f :: r) : exec (.macTxSelect p) s =
    let u := s.setPort p.val { s.port p.val with txq := kset (s.port p.val).txq n r }
    .next (if s.halfDuplex p.val then
        u.setPort p.val { s.port p.val with txq := kset (s.port p.val).txq n r, wire := some (s.onWire p.val f), attempts := 0 }
      else u.sendFrame p.val (s.onWire p.val f)) := by
  have hs := (notSending_false_iff s p.val).2 ⟨hon, hl⟩
  simp only [exec_macTxSelect, execMacTxSelect, wireDone_idle hw, purgeAll_sending hs hg, hs, hw, Option.isSome_none, Bool.false_eq_true, or_self,
    if_false]
  rw [if_neg fun k => hd.elim k.1 k.2]
  simp only [hc, hq, State.port_setPort_same]
  rfl

end sending

/-- The classes above one are asked before it. -/
theorem classes_above (n : Fin 8) : ∃ l r : List Nat, [7, 6, 5, 4, 3, 2, 1, 0] = l ++ n.val :: r ∧ ∀ m ∈ l, n.val < m ∧ m < 8 := by
  refine ⟨(List.range' (n.val + 1) (7 - n.val)).reverse, (List.range n.val).reverse, ?_⟩
  revert n
  decide

/-- The highest class that holds a frame and is not paused is the next one (R125). -/
theorem nextClass_eq {s : State} {p : Nat} {n : Fin 8} (hq : kgetD (s.port p).txq n.val [] ≠ []) (hn : tb (s.fld (R.MAC_PAUSED_PEER p)) n.val = false)
    (hm : ∀ m : Fin 8, n < m → kgetD (s.port p).txq m.val [] = [] ∨ tb (s.fld (R.MAC_PAUSED_PEER p)) m.val = true) : s.nextClass p = some n.val := by
  obtain ⟨l, r, hlr, hl⟩ := classes_above n
  rw [State.nextClass, hlr]
  refine List.find?_eq_some_iff_append.2 ⟨?_, l, r, rfl, fun m h => ?_⟩
  · simp [hn, hq]
  · obtain ⟨hlt, h8⟩ := hl m h
    obtain h | h := hm ⟨m, h8⟩ hlt
    · simp [h]
    · simp [h]

theorem macTxSelect_sends {p n : Fin 8} {s : State} {f : TxFrame} {r : List TxFrame} (hon : s.portSt p.val = .on)
    (hl : s.fld (R.MAC_STAT_LINK p.val) = 1) (hw : (s.port p.val).wire = none) (hg : s.qcp.gates = [])
    (hd : (s.port p.val).fcDue = 0 ∨ s.fld (R.MAC_FC_MODE p.val) = 0) (hq : kgetD (s.port p.val).txq n.val [] = f :: r)
    (hn : tb (s.fld (R.MAC_PAUSED_PEER p.val)) n.val = false)
    (hm : ∀ m : Fin 8, n < m → kgetD (s.port p.val).txq m.val [] = [] ∨ tb (s.fld (R.MAC_PAUSED_PEER p.val)) m.val = true)
    (hfull : p ≠ 7 ∨ s.fld (R.MAC_STAT_DUPLEX 7) = 1) : ∃ t, exec (.macTxSelect p) s = .next t ∧
      t.ports = kset s.ports p.val { s.port p.val with txq := kset (s.port p.val).txq n.val r } ∧
      t.reg (R.MAC_TX_FRM_CNT p.val) = (s.reg (R.MAC_TX_FRM_CNT p.val) + 1) % 2 ^ 32 ∧ t.legs = s.legs ∧ t.tmu = s.tmu ∧ t.nv = s.nv := by
  have hh : s.halfDuplex p.val = false := by
    obtain h | h := hfull
    · have : p.val ≠ 7 := fun e => h (Fin.ext e)
      simp [State.halfDuplex, this]
    · simp [State.halfDuplex, h]
  have hc := nextClass_eq (hq ▸ List.cons_ne_nil f r) hn hm
  obtain ⟨hk, hcnt⟩ := sendFrame_leaves (s.setPort p.val { s.port p.val with txq := kset (s.port p.val).txq n.val r }) p.isLt (s.onWire p.val f)
  refine ⟨_, (macTxSelect_head hon hl hw hg hd hc hq).trans ?_, hk.ports_eq, hcnt, hk.legs_eq, hk.tmu_eq, hk.nv_eq⟩
  simp only [hh, Bool.false_eq_true, if_false]

theorem macTxSelect_half {n : Fin 8} {s : State} {f : TxFrame} {r : List TxFrame} (hon : s.portSt 7 = .on)
    (hl : s.fld (R.MAC_STAT_LINK 7) = 1) (hw : (s.port 7).wire = none) (hg : s.qcp.gates = [])
    (hd : (s.port 7).fcDue = 0 ∨ s.fld (R.MAC_FC_MODE 7) = 0) (hq : kgetD (s.port 7).txq n.val [] = f :: r)
    (hn : tb (s.fld (R.MAC_PAUSED_PEER 7)) n.val = false)
    (hm : ∀ m : Fin 8, n < m → kgetD (s.port 7).txq m.val [] = [] ∨ tb (s.fld (R.MAC_PAUSED_PEER 7)) m.val = true)
    (hhalf : s.fld (R.MAC_STAT_DUPLEX 7) = 0) : ∃ t, exec (.macTxSelect 7) s = .next t ∧ t = { s with ports := t.ports } ∧
      t.port 7 = { s.port 7 with txq := kset (s.port 7).txq n.val r, wire := some { f with bytes := s.pcpRewrite 7 f }, attempts := 0 } ∧
      ∀ k, k ≠ 7 → t.port k = s.port k := by
  have hc := nextClass_eq (hq ▸ List.cons_ne_nil f r) hn hm
  have hh : s.halfDuplex 7 = true := by rw [halfDuplex_s0, hhalf]; rfl
  refine ⟨(s.setPort 7 { s.port 7 with txq := kset (s.port 7).txq n.val r }).setPort 7
    { s.port 7 with txq := kset (s.port 7).txq n.val r, wire := some (s.onWire 7 f), attempts := 0 }, ?_, rfl, State.port_setPort_same _ _ _, fun k hk => ?_⟩
  · refine (macTxSelect_head (p := 7) hon hl hw hg hd hc hq).trans ?_
    exact congrArg Host.Outcome.next (if_pos hh)
  · rw [State.port_setPort_ne _ _ hk.symm, State.port_setPort_ne _ _ hk.symm]

/-! With its link down a port discards what waits at the heads of its queues (R117). -/

theorem purge_discards {s : State} {p n : Nat} {f : TxFrame} {r : List TxFrame} (hs : s.notSending p = true)
    (hq : kgetD (s.port p).txq n [] = f :: r) (k : Nat) : s.purge p n (k + 1) =
      (((s.setPort p { s.port p with txq := kset (s.port p).txq n r }).bump (R.MAC_TX_DISCARD_CNT p)).txDone f St.state none false).purge p n k := by
  simp only [State.purge, hq, hs, if_true]

theorem purge_empty {s : State} {p n : Nat} (hq : kgetD (s.port p).txq n [] = []) (k : Nat) : s.purge p n k = s := by
  cases k with
  | zero => rfl
  | succ k => simp only [State.purge, hq]

/-- A list with one key holds nothing at the others. -/
theorem kgetD_singleton_ne {α : Type} {n m : Nat} (h : m ≠ n) (x d : α) : kgetD [(n, x)] m d = d := by
  simp [kgetD, kget, h]

theorem kgetD_singleton_same {α : Type} (n : Nat) (x d : α) : kgetD [(n, x)] n d = x := by
  simp [kgetD, kget]

/-- Classes that hold no frame have nothing to discard. -/
theorem purges_empty {s : State} {p : Nat} : ∀ l : List Nat, (∀ m ∈ l, kgetD (s.port p).txq m [] = []) →
    l.foldl (fun t m => t.purge p m (kgetD (t.port p).txq m []).length) s = s
  | [], _ => rfl
  | m :: l, h => by
    rw [List.foldl_cons, purge_empty (h m List.mem_cons_self), purges_empty l fun k hk => h k (List.mem_cons_of_mem m hk)]

/-- The classes of a port, in the order in which it discards, around one of them. -/
theorem classes_around (n : Fin 8) : List.range 8 = List.range n.val ++ n.val :: List.range' (n.val + 1) (7 - n.val) := by
  revert n
  decide

/-- What a port in discard makes of its one queue with its one frame. -/
theorem purgeAll_discards {s : State} {p : Nat} {n : Fin 8} {f : TxFrame} (hs : s.notSending p = true) (hq : (s.port p).txq = [(n.val, [f])])
    (hf : f.origin = .none) : s.purgeAll p = (s.setPort p { s.port p with txq := [(n.val, [])] }).bump (R.MAC_TX_DISCARD_CNT p) := by
  let t := (s.setPort p { s.port p with txq := [(n.val, [])] }).bump (R.MAC_TX_DISCARD_CNT p)
  have htq : (t.port p).txq = [(n.val, [])] := congrArg Port.txq (State.port_setPort_same s p _)
  have hpurge : s.purge p n.val (kgetD (s.port p).txq n.val []).length = t := by
    have hset : kset [(n.val, [f])] n.val ([] : List TxFrame) = [(n.val, [])] := by simp [kset]
    rw [hq, kgetD_singleton_same, List.length_singleton, purge_discards hs (by rw [hq, kgetD_singleton_same]), txDone_none hf, hq, hset]
    rfl
  have hbefore := purges_empty (s := s) (p := p) (List.range n.val) fun m hm => by
    rw [hq, kgetD_singleton_ne (Nat.ne_of_lt (List.mem_range.1 hm))]
  have hafter := purges_empty (s := t) (p := p) (List.range' (n.val + 1) (7 - n.val)) fun m hm => by
    rw [htq, kgetD_singleton_ne (Nat.ne_of_gt (List.mem_range'_1.1 hm).1)]
  rw [State.purgeAll, classes_around n, List.foldl_append, hbefore, List.foldl_cons, hpurge, hafter]

theorem macTxSelect_discards (p n : Fin 8) (s : State) (f : TxFrame) (hl : s.fld (R.MAC_STAT_LINK p.val) = 0)
    (hw : (s.port p.val).wire = none) (hq : (s.port p.val).txq = [(n.val, [f])]) (hf : f.origin = .none) : exec (.macTxSelect p) s =
    .next ((s.setPort p.val { s.port p.val with txq := [(n.val, [])] }).bump (R.MAC_TX_DISCARD_CNT p.val)) := by
  have hs : s.notSending p.val = true := (notSending_true_iff s p.val).2 fun k => by rw [hl] at k; exact absurd k.2 (by decide)
  have hne : R.MAC_TX_DISCARD_CNT p.val ≠ R.MAC_STAT p.val := by simp only [R.MAC_TX_DISCARD_CNT, R.MAC_STAT]; omega
  have ht : ((s.setPort p.val { s.port p.val with txq := [(n.val, [])] }).bump (R.MAC_TX_DISCARD_CNT p.val)).notSending p.val = true := by
    rw [notSending_true_iff, fld_bump_ne (g := R.MAC_STAT_LINK p.val) hne, State.fld_setPort, hl]
    exact fun k => absurd k.2 (by decide)
  simp only [exec_macTxSelect, execMacTxSelect, wireDone_idle hw, purgeAll_discards hs hq hf, ht, true_or, if_true]

/-! Frames that wait for room in a queue (R126). -/

theorem txQueueEntry_enters (p tc : Fin 8) (s : State) (f : TxFrame) (r : List TxFrame) (hw : kgetD (s.port p.val).waiting tc.val [] = f :: r)
    (hroom : txBytes (kgetD (s.port p.val).txq tc.val []) + (f.bytes.length + 4) ≤ 131072) : exec (.txQueueEntry p tc) s =
    .next (s.setPort p.val { s.port p.val with txq := kset (s.port p.val).txq tc.val (kgetD (s.port p.val).txq tc.val [] ++ [f]),
                                               waiting := kset (s.port p.val).waiting tc.val r }) := by
  have hfits : flen f.bytes ≤ 131072 - txBytes (kgetD (s.port p.val).txq tc.val []) := by unfold flen; omega
  simp only [exec_txQueueEntry, execTxQueueEntry, hw, nextWaiting]
  rw [if_pos ⟨hfits, rfl⟩]
  rfl

theorem txQueueEntry_idle (p tc : Fin 8) (s : State) (hw : kgetD (s.port p.val).waiting tc.val [] = []) :
    exec (.txQueueEntry p tc) s = .next s := by
  simp only [exec_txQueueEntry, execTxQueueEntry, hw, nextWaiting]

end Sys2Proof.Machine

section
open Sys2Proof.Machine

/-- Settles O19: flow control first, then the highest class by the duplex of the port, the discard with the link down, and a frame that waits. -/
theorem framesAreSent : Obligations.FramesAreSent := by
  refine ⟨fun p s => macTxSelect_flowControl, fun p n s f r hon hl hw hg hd hq hn hm => ⟨macTxSelect_sends hon hl hw hg hd hq hn hm, ?_⟩,
    fun p n s f _ => macTxSelect_discards p n s f, txQueueEntry_enters, txQueueEntry_idle⟩
  rintro rfl
  exact macTxSelect_half hon hl hw hg hd hq hn hm

end

namespace Sys2Proof.Machine

open Sys2Proof

/-! Keyed lists whose keys rise: what a read gives after a removal. -/

/-- The keys of a keyed list rise. -/
def Rising {α : Type} (m : KV α) : Prop := (m.map (·.1)).Pairwise (· < ·)

theorem rising_cons {α : Type} {k : Nat} {v : α} {m : KV α} : Rising ((k, v) :: m) ↔ (∀ p ∈ m, k < p.1) ∧ Rising m := by
  simp [Rising]

theorem kget_of_lt {α : Type} {j : Nat} {m : KV α} (h : ∀ p ∈ m, j < p.1) : kget m j = none := by
  cases m with
  | nil => rfl
  | cons p m =>
    have hj : j < p.1 := h p List.mem_cons_self
    simp only [kget, if_neg (Nat.ne_of_lt hj), if_pos hj]

theorem kget_kdel {α : Type} (i j : Nat) : ∀ m : KV α, Rising m → kget (kdel m i) j = if i = j then none else kget m j
  | [], _ => by simp [kdel, kget]
  | (k, v) :: m, h => by
    obtain ⟨hk, hm⟩ := rising_cons.1 h
    have ih := kget_kdel i j m hm
    by_cases hik : i < k
    · rw [kdel, if_pos hik]
      by_cases e : i = j
      · subst e
        rw [if_pos rfl]
        exact kget_of_lt (List.forall_mem_cons.2 ⟨hik, fun p hp => hik.trans (hk p hp)⟩)
      · rw [if_neg e]
    · by_cases he : i = k
      · subst he
        rw [kdel, if_neg hik, if_pos rfl]
        by_cases e : i = j
        · rw [if_pos e]
          exact kget_of_lt (e ▸ hk)
        · rw [if_neg e, kget, if_neg (Ne.symm e)]
          split
          · next hl => exact kget_of_lt fun p hp => hl.trans (hk p hp)
          · rfl
      · rw [kdel, if_neg hik, if_neg he, kget, kget, kget_kdel i j m hm]
        by_cases e : j = k
        · rw [if_pos e, if_pos e, if_neg (e ▸ he)]
        · rw [if_neg e, if_neg e]
          split <;> split <;> rfl

theorem mem_of_mem_kdel {α : Type} {i : Nat} {p : Nat × α} : ∀ {m : KV α}, p ∈ kdel m i → p ∈ m
  | [], h => h
  | (k, v) :: m, h => by
    rw [kdel] at h
    split at h
    · exact h
    · split at h
      · exact List.mem_cons_of_mem _ h
      · obtain rfl | h := List.mem_cons.1 h
        · exact List.mem_cons_self
        · exact List.mem_cons_of_mem _ (mem_of_mem_kdel h)

theorem Rising.kdel {α : Type} (i : Nat) : ∀ {m : KV α}, Rising m → Rising (kdel m i)
  | [], h => h
  | (k, v) :: m, h => by
    obtain ⟨hk, hm⟩ := rising_cons.1 h
    rw [Machine.kdel]
    split
    · exact h
    · split
      · exact hm
      · exact rising_cons.2 ⟨fun p hp => hk p (mem_of_mem_kdel hp), hm.kdel i⟩

theorem Rising.kset {α : Type} (i : Nat) (x : α) : ∀ {m : KV α}, Rising m → Rising (kset m i x)
  | [], _ => by simp [Machine.kset, Rising]
  | (k, v) :: m, h => by
    obtain ⟨hk, hm⟩ := rising_cons.1 h
    rw [Machine.kset]
    split
    · next hlt => exact rising_cons.2 ⟨List.forall_mem_cons.2 ⟨hlt, fun p hp => hlt.trans (hk p hp)⟩, h⟩
    · split
      · next hlt he => exact rising_cons.2 ⟨he ▸ hk, hm⟩
      · next hlt he =>
        refine rising_cons.2 ⟨fun p hp => ?_, hm.kset i x⟩
        obtain rfl | hp := mem_kset hp
        · exact (Nat.lt_or_gt_of_ne he).resolve_left hlt
        · exact hk p hp

/-! Pauses by the peer (R134). -/

/-- The end of a pause that begins now: none for quanta of zero. -/
def State.pauseEnd (s : State) (p q : Nat) : Option Nat := if q = 0 then none else some (s.loc + s.quanta p q)

/-- What a pause of port `p` leaves: all but the port's pauses, and MAC_PAUSED. -/
structure PauseOnly (p : Nat) (s t : State) : Prop where
  legs : t.legs = s.legs
  tmu : t.tmu = s.tmu
  others : ∀ k, k ≠ p → t.port k = s.port k
  regs : ∀ a, a ≠ R.MAC_PAUSED p → t.reg a = s.reg a

theorem PauseOnly.refl (p : Nat) (s : State) : PauseOnly p s s := ⟨rfl, rfl, fun _ _ => rfl, fun _ _ => rfl⟩

theorem PauseOnly.trans {p : Nat} {s t u : State} (h : PauseOnly p s t) (k : PauseOnly p t u) : PauseOnly p s u :=
  ⟨k.legs.trans h.legs, k.tmu.trans h.tmu, fun q hq => (k.others q hq).trans (h.others q hq), fun a ha => (k.regs a ha).trans (h.regs a ha)⟩

theorem PauseOnly.fld_eq {p : Nat} {s t : State} (h : PauseOnly p s t) {f : Fld} (hf : f.addr ≠ R.MAC_PAUSED p) : t.fld f = s.fld f := by
  unfold State.fld; rw [h.regs _ hf]

/-- How long a pause lasts does not depend on the pauses there are. -/
theorem PauseOnly.pauseEnd_eq {p : Nat} {s t : State} (h : PauseOnly p s t) (q : Nat) : t.pauseEnd p q = s.pauseEnd p q := by
  have hne : R.MAC_STAT 7 ≠ R.MAC_PAUSED p := by simp only [R.MAC_STAT, R.MAC_PAUSED]; omega
  have hspeed : t.fld (R.MAC_STAT_SPEED 7) = s.fld (R.MAC_STAT_SPEED 7) := h.fld_eq (f := R.MAC_STAT_SPEED 7) hne
  simp only [State.pauseEnd, State.loc, State.quanta, State.s0Bits, hspeed, h.tmu]

theorem pauseOnly_peerPause (s : State) (p n q : Nat) : PauseOnly p s (s.peerPause p n q) := by
  have h (x : Port) (v : Nat) : PauseOnly p s ((s.setPort p x).setFld (R.MAC_PAUSED_PEER p) v) :=
    ⟨rfl, rfl, fun k hk => State.port_setPort_ne s x hk.symm, fun a ha => State.reg_setReg_ne _ _ ha.symm⟩
  simp only [State.peerPause]
  split
  · exact h _ _
  · exact h _ _

/-- A pause with quanta begins anew, one without ends; the pauses of the other classes stay. -/
theorem peerPause_pauses {s : State} {p : Nat} (h : Rising (s.port p).pauseUntil) (n q : Nat) :
    Rising ((s.peerPause p n q).port p).pauseUntil ∧
    ∀ m, kget ((s.peerPause p n q).port p).pauseUntil m = if n = m then s.pauseEnd p q else kget (s.port p).pauseUntil m := by
  simp only [State.peerPause, State.pauseEnd]
  split
  · rw [State.port_setFld, State.port_setPort_same]
    exact ⟨h.kdel n, fun m => kget_kdel n m _ h⟩
  · rw [State.port_setFld, State.port_setPort_same]
    exact ⟨h.kset n _, fun m => kget_kset _ n m _⟩

/-- Whether a PFC frame sets the pause of a class: its bit in the vector is 1, and the port heeds it (R134). -/
def State.heeds (s : State) (p : Nat) (b : Bytes) (off n : Nat) : Bool := tb (num b off 2) n && tb (s.fld (R.MAC_FC_RX_EN p)) n

/-- What a PFC frame does to one class, where `on` says which classes it sets. -/
def State.pfcClass (on : Nat → Bool) (p : Nat) (b : Bytes) (off : Nat) (s : State) (n : Nat) : State :=
  if on n then s.peerPause p n (num b (off + 2 + 2 * n) 2) else s

theorem pfcRx_eq {s : State} {p : Nat} (h : s.fld (R.MAC_FC_MODE p) = 1) (b : Bytes) (off : Nat) :
    s.pfcRx p b off = (List.range 8).foldl (State.pfcClass (s.heeds p b off) p b off) s := by
  rw [State.pfcRx, if_pos h]
  rfl

theorem pauseOnly_pfcClass (on : Nat → Bool) (p : Nat) (b : Bytes) (off : Nat) (s : State) (n : Nat) :
    PauseOnly p s (s.pfcClass on p b off n) := by
  unfold State.pfcClass
  split
  · exact pauseOnly_peerPause s p n _
  · exact PauseOnly.refl p s

theorem pfcClass_pauses {s : State} {p : Nat} (h : Rising (s.port p).pauseUntil) (on : Nat → Bool) (b : Bytes) (off n : Nat) :
    Rising ((s.pfcClass on p b off n).port p).pauseUntil ∧ ∀ m, kget ((s.pfcClass on p b off n).port p).pauseUntil m =
      if n = m ∧ on n = true then s.pauseEnd p (num b (off + 2 + 2 * n) 2) else kget (s.port p).pauseUntil m := by
  unfold State.pfcClass
  split
  · next hh =>
    obtain ⟨hr, hk⟩ := peerPause_pauses h n (num b (off + 2 + 2 * n) 2)
    exact ⟨hr, fun m => by rw [hk m]; simp [hh]⟩
  · next hh => exact ⟨h, fun m => by rw [if_neg fun k => hh k.2]⟩

/-- A PFC frame sets the pauses of the classes that `on` names, and leaves those of the others (R134). -/
theorem pfcClasses_pause {p : Nat} (on : Nat → Bool) (b : Bytes) (off : Nat) : ∀ (l : List Nat) (s : State), l.Nodup →
    Rising (s.port p).pauseUntil → PauseOnly p s (l.foldl (State.pfcClass on p b off) s) ∧
      ∀ m, kget ((l.foldl (State.pfcClass on p b off) s).port p).pauseUntil m =
        if m ∈ l ∧ on m = true then s.pauseEnd p (num b (off + 2 + 2 * m) 2) else kget (s.port p).pauseUntil m
  | [], s, _, _ => ⟨PauseOnly.refl p s, fun m => by simp⟩
  | n :: l, s, hl, h => by
    obtain ⟨hn, hl⟩ := List.nodup_cons.1 hl
    have hp := pauseOnly_pfcClass on p b off s n
    obtain ⟨hr, hk⟩ := pfcClass_pauses h on b off n
    obtain ⟨hq, hm⟩ := pfcClasses_pause on b off l (s.pfcClass on p b off n) hl hr
    refine ⟨hp.trans hq, fun m => ?_⟩
    rw [List.foldl_cons, hm m, hk m, hp.pauseEnd_eq]
    by_cases hmn : n = m
    · subst hmn
      simp [hn]
    · simp [hmn, Ne.symm hmn]

/-- A PFC frame received with PFC on pauses the classes that it names and the port heeds (R134). -/
theorem pfcRx_pauses {s : State} {p : Nat} (hm : s.fld (R.MAC_FC_MODE p) = 1) (h : Rising (s.port p).pauseUntil) (b : Bytes) (off : Nat) :
    PauseOnly p s (s.pfcRx p b off) ∧ ∀ m < 8, kget ((s.pfcRx p b off).port p).pauseUntil m =
      if s.heeds p b off m = true then s.pauseEnd p (num b (off + 2 + 2 * m) 2) else kget (s.port p).pauseUntil m := by
  rw [pfcRx_eq hm]
  obtain ⟨hp, hk⟩ := pfcClasses_pause (s.heeds p b off) b off (List.range 8) s List.nodup_range h
  refine ⟨hp, fun m hm8 => ?_⟩
  rw [hk m]
  simp only [List.mem_range, hm8, true_and]

end Sys2Proof.Machine

namespace Sys2Proof.Machine

open Sys2Proof

/-! What the counters of the ports leave of the part (R146). -/

/-- The counters of the ports. -/
def PortCounter (a : Nat) : Prop := a / 0x10000 = 3 ∧ 0x100 ≤ a % 0x1000

/-- `t` is `s` but for counters of the ports. -/
structure Counted (s t : State) : Prop where
  rest : t = { s with regs := t.regs }
  regs : ∀ a, ¬ PortCounter a → t.reg a = s.reg a

theorem Counted.refl (s : State) : Counted s s := ⟨rfl, fun _ _ => rfl⟩

theorem Counted.trans {s t u : State} (h : Counted s t) (k : Counted t u) : Counted s u :=
  ⟨k.rest.trans (congrArg (fun x : State => { x with regs := u.regs }) h.rest), fun a ha => (k.regs a ha).trans (h.regs a ha)⟩

theorem counted_setReg {s : State} {a v : Nat} (h : PortCounter a) : Counted s (s.setReg a v) :=
  ⟨rfl, fun _ hb => State.reg_setReg_ne _ _ fun e => hb (e ▸ h)⟩

theorem counted_bump {s : State} {a : Nat} (h : PortCounter a) : Counted s (s.bump a) := counted_setReg h

theorem counted_bump64 {s : State} {a n : Nat} (hlo : PortCounter a) (hhi : PortCounter (a + 4)) : Counted s (s.bump64 a n) :=
  (counted_setReg hlo).trans (counted_setReg hhi)

section congr
variable {s t : State} (h : Counted s t)
include h

theorem Counted.fld_eq {f : Fld} (hf : ¬ PortCounter f.addr) : t.fld f = s.fld f := by unfold State.fld; rw [h.regs _ hf]
theorem Counted.flag_eq {f : Fld} (hf : ¬ PortCounter f.addr) : t.flag f = s.flag f := by unfold State.flag; rw [h.fld_eq hf]
theorem Counted.ports_eq : t.ports = s.ports := (congrArg State.ports h.rest :)
theorem Counted.port_eq (p : Nat) : t.port p = s.port p := by unfold State.port; rw [h.ports_eq]
theorem Counted.mmu_eq : t.mmu = s.mmu := (congrArg State.mmu h.rest :)
theorem Counted.tmu_eq : t.tmu = s.tmu := (congrArg State.tmu h.rest :)
theorem Counted.legs_eq : t.legs = s.legs := (congrArg State.legs h.rest :)
theorem Counted.nv_eq : t.nv = s.nv := (congrArg State.nv h.rest :)
theorem Counted.swt_eq : t.swt = s.swt := (congrArg State.swt h.rest :)
theorem Counted.qcp_eq : t.qcp = s.qcp := (congrArg State.qcp h.rest :)
theorem Counted.grn_eq : t.grn = s.grn := (congrArg State.grn h.rest :)
theorem Counted.now_eq : t.now = s.now := by unfold State.now; rw [h.tmu_eq]
theorem Counted.loc_eq : t.loc = s.loc := by unfold State.loc; rw [h.tmu_eq]

theorem Counted.portMax_eq (p : Nat) : t.portMax p = s.portMax p := by unfold State.portMax; rw [h.port_eq]
theorem Counted.fill_eq (p n : Nat) : t.fill p n = s.fill p n := by unfold State.fill; rw [h.port_eq, h.mmu_eq]
theorem Counted.ringOf_eq (p : Nat) : t.ringOf p = s.ringOf p := by unfold State.ringOf; rw [h.mmu_eq]

theorem Counted.isMuzzle_eq (p : Nat) (b : Bytes) : t.isMuzzle p b = s.isMuzzle p b := by
  unfold State.isMuzzle
  rw [h.fld_eq (f := R.QCP_MZ_CFG_PORTS) fun k => absurd k.1 (by decide)]

theorem Counted.classify_eq (p : Nat) (b : Bytes) : t.classify p b = s.classify p b := by
  have hcfg : ¬ PortCounter (R.MAC_CFG p) := by simp only [PortCounter, R.MAC_CFG]; omega
  have hpcp : ¬ PortCounter (R.MAC_PCP2TC p) := by simp only [PortCounter, R.MAC_PCP2TC]; omega
  unfold State.classify
  rw [h.flag_eq (f := R.MAC_CFG_QCP_EN p) hcfg, h.fld_eq (f := R.MAC_CFG_UNTAG_TC p) hcfg, h.regs _ hpcp]

theorem Counted.classRoom_eq {p n : Nat} (hn : n < 8) : t.classRoom p n = s.classRoom p n := by
  have hbuf : ¬ PortCounter (R.MAC_IBUF p n) := by simp only [PortCounter, R.MAC_IBUF]; omega
  unfold State.classRoom
  rw [h.fld_eq (f := R.MAC_IBUF_KIB p n) hbuf]

theorem Counted.rxStamp_eq (p ago : Nat) : t.rxStamp p ago = s.rxStamp p ago := by
  have hcor : ¬ PortCounter (R.MAC_TSCOR_RX p) := by simp only [PortCounter, R.MAC_TSCOR_RX]; omega
  simp only [State.rxStamp, State.stampAgo, h.regs _ hcor, h.now_eq, h.tmu_eq]

theorem Counted.pauseEnd_eq (p q : Nat) : t.pauseEnd p q = s.pauseEnd p q := by
  have hstat : ¬ PortCounter (R.MAC_STAT 7) := fun k => absurd k.2 (by decide)
  simp only [State.pauseEnd, State.quanta, State.s0Bits, h.loc_eq, h.fld_eq (f := R.MAC_STAT_SPEED 7) hstat]

end congr

/-- The classes of received frames are those of three bits (R122). -/
theorem classify_lt (s : State) (p : Nat) (b : Bytes) : s.classify p b < 8 := by
  simp only [State.classify]
  split
  · decide
  · split
    · decide
    · split
      · exact Nat.mod_lt _ (by decide)
      · exact bits_lt _ 11 9

/-! Addresses translate, and receive rings have free buffers, alike on states with the same memory and memory map (R136, R377-R383, R388). -/

/-- Memory, and the registers that lay it out, are those of `s`. -/
structure SameMemory (s t : State) : Prop where
  mmu : t.mmu = s.mmu
  hbm : t.reg R.MMU_HBM = s.reg R.MMU_HBM
  pool : t.reg R.SWT_LOFT_BUD = s.reg R.SWT_LOFT_BUD

theorem Counted.sameMemory {s t : State} (h : Counted s t) : SameMemory s t :=
  ⟨h.mmu_eq, h.regs _ fun k => absurd k.1 (by decide), h.regs _ fun k => absurd k.1 (by decide)⟩

section congr
variable {s t : State} (h : SameMemory s t)
include h

theorem SameMemory.hbm_eq {f : Fld} (hf : f.addr = R.MMU_HBM) : t.fld f = s.fld f := by unfold State.fld; rw [hf, h.hbm]

theorem SameMemory.paOk_eq (pa : Nat) : t.paOk pa = s.paOk pa := by
  unfold State.paOk State.hbmGib
  rw [h.hbm_eq (f := R.MMU_HBM_STACKS) rfl]

theorem SameMemory.readEntry_eq (pa : Nat) : t.readEntry pa = s.readEntry pa := by
  unfold State.readEntry State.memRead State.memByte
  rw [h.paOk_eq, h.mmu]

theorem SameMemory.walkFrom_eq (va k table : Nat) : t.walkFrom va k table = s.walkFrom va k table := by
  induction k generalizing table with
  | zero => rfl
  | succ k ih => simp only [State.walkFrom, State.leaf, h.readEntry_eq, h.paOk_eq, ih]

theorem SameMemory.fixedMapped_eq (va : Nat) : t.fixedMapped va = s.fixedMapped va := by
  have hpool : t.fld R.SWT_LOFT_BUD_KIB = s.fld R.SWT_LOFT_BUD_KIB := by
    unfold State.fld
    rw [show R.SWT_LOFT_BUD_KIB.addr = R.SWT_LOFT_BUD from rfl, h.pool]
  unfold State.fixedMapped State.patEnd State.patBase State.grnBase
  rw [hpool, h.hbm_eq (f := R.MMU_HBM_LBS_GIB) rfl, h.hbm_eq (f := R.MMU_HBM_GRN_GIB) rfl, h.hbm_eq (f := R.MMU_HBM_PAT_GIB) rfl]

theorem SameMemory.ctxValid_eq (c : Nat) : t.ctxValid c = s.ctxValid c := by unfold State.ctxValid; rw [h.mmu]

theorem SameMemory.walk_eq (ctx va : Nat) : t.walk ctx va = s.walk ctx va := by
  simp only [State.walk, State.fixedLeaf, h.ctxValid_eq, h.fixedMapped_eq, h.walkFrom_eq, h.mmu]

theorem SameMemory.dmaAddr_eq (u ctx va : Nat) (write : Bool) : t.dmaAddr u ctx va write = s.dmaAddr u ctx va write := by
  simp only [State.dmaAddr, State.xlate, State.cached, h.walk_eq, h.mmu]

theorem SameMemory.vread_eq (u ctx n va : Nat) : t.vread u ctx va n = s.vread u ctx va n := by
  induction n generalizing va with
  | zero => rfl
  | succ n ih => simp only [State.vread, State.memByte, h.dmaAddr_eq, h.mmu, ih]

theorem SameMemory.rxTakes_eq (x : DRing) (d : Desc) : t.rxTakes x d = s.rxTakes x d := by
  simp only [State.rxTakes, State.pinsFull, State.loftFrames, State.pinOf, h.walk_eq, h.mmu]

theorem SameMemory.postedBufs_eq (u : Nat) (x : DRing) (p k at_ : Nat) : t.postedBufs u x p k at_ = s.postedBufs u x p k at_ := by
  induction k generalizing at_ with
  | zero => rfl
  | succ k ih => simp only [State.postedBufs, h.vread_eq, h.rxTakes_eq, ih]

theorem SameMemory.freeBufs_eq (r : Nat) (x : DRing) (p : Nat) : t.freeBufs r x p = s.freeBufs r x p := by
  simp only [State.freeBufs, State.rxBufs, h.rxTakes_eq, h.postedBufs_eq]

end congr

/-- The modes and enables of flow control are no counters. -/
theorem not_portCounter_fc (p : Nat) : ¬ PortCounter (R.MAC_FC p) := by simp only [PortCounter, R.MAC_FC]; omega

/-! The rows of R119 for a frame that a port in ON receives. -/

theorem exec_macRxFrame (w : RxWire) (s : State) : exec (.macRxFrame w) s = execMacRxFrame w s := rfl

theorem macRxFrame_not_on (w : RxWire) (s : State) (h : s.portSt w.port.val ≠ .on) : exec (.macRxFrame w) s = .next s := by
  simp only [exec_macRxFrame, execMacRxFrame]
  rw [if_pos h]

theorem macRxFrame_on {w : RxWire} {s : State} (h : s.portSt w.port.val = .on) : exec (.macRxFrame w) s = .next ((s.fecCount w).rxRows w) := by
  simp only [exec_macRxFrame, execMacRxFrame]
  rw [if_neg (not_not_intro h)]

theorem counted_fecCount (s : State) (w : RxWire) : Counted s (s.fecCount w) := by
  have hcorr : PortCounter (R.MAC_FEC_CORR_CNT w.port.val) := by simp only [PortCounter, R.MAC_FEC_CORR_CNT]; omega
  have huncorr : PortCounter (R.MAC_FEC_UNCORR_CNT w.port.val) := by simp only [PortCounter, R.MAC_FEC_UNCORR_CNT]; omega
  unfold State.fecCount
  split
  · exact (counted_setReg hcorr).trans (counted_setReg huncorr)
  · exact Counted.refl s

/-- The counters of the RS-FEC are two. -/
theorem reg_fecCount {s : State} {w : RxWire} {a : Nat} (hc : R.MAC_FEC_CORR_CNT w.port.val ≠ a) (hu : R.MAC_FEC_UNCORR_CNT w.port.val ≠ a) :
    (s.fecCount w).reg a = s.reg a := by
  unfold State.fecCount
  split
  · exact (State.reg_setReg_ne _ _ hu).trans (State.reg_setReg_ne _ _ hc)
  · rfl

/-- What the MAC does with a control frame, by its opcode (R134, R135). -/
def State.rxControl (s : State) (p : Nat) (b : Bytes) (off : Nat) : State :=
  match num b off 2 with
  | 0x0101 => (s.bump (R.MAC_RX_PFC_CNT p)).pfcRx p b (off + 2)
  | 0x0001 => (s.bump (R.MAC_RX_PAUSE_CNT p)).pauseRx p (num b (off + 2) 2)
  | _ => s.bump (R.MAC_RX_CTL_OTHER_CNT p)

/-- The counter of a MAC control frame by its opcode (R135). -/
def ctlCounter (p op : Nat) : Nat :=
  match op with
  | 0x0101 => R.MAC_RX_PFC_CNT p
  | 0x0001 => R.MAC_RX_PAUSE_CNT p
  | _ => R.MAC_RX_CTL_OTHER_CNT p

theorem rxControl_off {s : State} {p : Nat} {b : Bytes} {off : Nat} (hm : s.fld (R.MAC_FC_MODE p) = 0) :
    s.rxControl p b off = s.bump (ctlCounter p (num b off 2)) := by
  have hne (a : Nat) (ha : a % 0x1000 ≠ 0x1C) : a ≠ R.MAC_FC p := by
    rintro rfl
    simp only [R.MAC_FC] at ha
    omega
  have hpfc : (s.bump (R.MAC_RX_PFC_CNT p)).fld (R.MAC_FC_MODE p) = 0 :=
    (fld_bump_ne (g := R.MAC_FC_MODE p) (hne _ (by simp only [R.MAC_RX_PFC_CNT]; omega))).trans hm
  have hpause : (s.bump (R.MAC_RX_PAUSE_CNT p)).fld (R.MAC_FC_MODE p) = 0 :=
    (fld_bump_ne (g := R.MAC_FC_MODE p) (hne _ (by simp only [R.MAC_RX_PAUSE_CNT]; omega))).trans hm
  unfold State.rxControl ctlCounter
  generalize num b off 2 = op
  split
  · rw [State.pfcRx, hpfc, if_neg (by decide)]
  · rw [State.pauseRx, hpause, if_neg (by decide)]
  · rfl

theorem rxControl_pfc {s : State} {p : Nat} {b : Bytes} {off : Nat} (hop : num b off 2 = 0x0101) :
    s.rxControl p b off = (s.bump (R.MAC_RX_PFC_CNT p)).pfcRx p b (off + 2) := by
  unfold State.rxControl
  split
  · rfl
  · next hop' => rw [hop] at hop'; cases hop'
  · next hop' _ => exact absurd hop hop'

section rows
variable {w : RxWire} {s : State}

theorem rxRows_runt (h : w.bytes.length + 4 ≤ 63) : s.rxRows w = s.bump (R.MAC_RX_RUNT_CNT w.port.val) := by
  simp only [State.rxRows, flen]
  rw [if_pos h]

/-- Only a frame that was cut off, of a port whose frames go to a receive ring, has filled buffers (R120). -/
theorem rxOversize_nothing (h : w.cut = false ∨ s.ringOf w.port.val = none) : s.rxOversize w = s := by
  simp only [State.rxOversize]
  split
  · next hr =>
    obtain h | h := h
    · rw [if_neg fun k => by rw [h] at k; exact Bool.false_ne_true k.1]
    · rw [hr] at h; cases h
  · rfl

theorem rxRows_oversize (h1 : 63 < w.bytes.length + 4) (h2 : s.portMax w.port.val < w.bytes.length + 4)
    (h : w.cut = false ∨ s.ringOf w.port.val = none) : s.rxRows w = s.bump (R.MAC_RX_OVERSIZE_CNT w.port.val) := by
  simp only [State.rxRows, flen]
  rw [if_neg (Nat.not_le.2 h1), if_pos h2, rxOversize_nothing (s := s.bump _) h]

variable (h1 : 63 < w.bytes.length + 4) (h2 : w.bytes.length + 4 ≤ s.portMax w.port.val)
include h1 h2

theorem rxRows_corrupt (hf : w.fcsOk = false) : s.rxRows w =
    s.bump (if w.port = 7 ∧ w.oddNibble = true then R.MAC_RX_ALIGN_CNT w.port.val else R.MAC_RX_FCS_CNT w.port.val) := by
  simp only [State.rxRows, flen]
  rw [if_neg (Nat.not_le.2 h1), if_neg (Nat.not_lt.2 h2), hf]
  have hport : w.port.val = 7 ↔ w.port = 7 := ⟨fun e => Fin.ext e, fun e => by rw [e]; rfl⟩
  by_cases hn : w.port = 7 ∧ w.oddNibble = true
  · rw [if_pos ⟨hport.2 hn.1, hn.2, rfl⟩, if_pos hn]
  · rw [if_neg fun k => hn ⟨hport.1 k.1, k.2.1⟩, if_neg hn, if_pos rfl]

variable (hf : w.fcsOk = true)
include hf

/-- A frame of legal length without an error is for the muzzle, for the MAC, or for a buffer. -/
theorem rxRows_sound : s.rxRows w =
    if s.isMuzzle w.port.val w.bytes then
      s.setQcp { s.qcp with mzIn := s.qcp.mzIn ++ [⟨w.bytes.drop (parseEth w.bytes).off, s.now, s.loc⟩] }
    else if (parseEth w.bytes).etype = 0x8808 then s.rxControl w.port.val w.bytes (parseEth w.bytes).off
    else s.rxAccept w.port.val w.bytes (s.rxStamp w.port.val w.sfdAgo) := by
  simp only [State.rxRows, flen]
  rw [if_neg (Nat.not_le.2 h1), if_neg (Nat.not_lt.2 h2), hf, if_neg (fun k => Bool.noConfusion k.2.2), if_neg Bool.noConfusion]
  rfl

theorem rxRows_muzzle (hz : s.isMuzzle w.port.val w.bytes = true) : s.rxRows w =
    s.setQcp { s.qcp with mzIn := s.qcp.mzIn ++ [⟨w.bytes.drop (parseEth w.bytes).off, s.now, s.loc⟩] } := by
  rw [rxRows_sound h1 h2 hf, if_pos hz]

variable (hz : s.isMuzzle w.port.val w.bytes = false)
include hz

/-- With flow control off a MAC control frame is only counted (R134, R135). -/
theorem rxRows_control (he : (parseEth w.bytes).etype = 0x8808) (hm : s.fld (R.MAC_FC_MODE w.port.val) = 0) :
    s.rxRows w = s.bump (ctlCounter w.port.val (num w.bytes (parseEth w.bytes).off 2)) := by
  rw [rxRows_sound h1 h2 hf, hz, if_neg Bool.noConfusion, if_pos he, rxControl_off hm]

theorem rxRows_pfc (he : (parseEth w.bytes).etype = 0x8808) (hop : num w.bytes (parseEth w.bytes).off 2 = 0x0101) :
    s.rxRows w = (s.bump (R.MAC_RX_PFC_CNT w.port.val)).pfcRx w.port.val w.bytes ((parseEth w.bytes).off + 2) := by
  rw [rxRows_sound h1 h2 hf, hz, if_neg Bool.noConfusion, if_pos he, rxControl_pfc hop]

theorem rxRows_accept (he : (parseEth w.bytes).etype ≠ 0x8808) :
    s.rxRows w = s.rxAccept w.port.val w.bytes (s.rxStamp w.port.val w.sfdAgo) := by
  rw [rxRows_sound h1 h2 hf, hz, if_neg Bool.noConfusion, if_neg he]

end rows

end Sys2Proof.Machine

namespace Sys2Proof.Machine

open Sys2Proof

/-! A frame enters its class buffer, or a receive ring's, or is dropped (R119, R129, R130, R133, R136, R138). -/

/-- What following the watermarks of a port leaves: all but MAC_PAUSED, and what the port owes its peer. -/
structure XoffOnly (p : Nat) (s t : State) : Prop where
  legs : t.legs = s.legs
  tmu : t.tmu = s.tmu
  nv : t.nv = s.nv
  swt : t.swt = s.swt
  mmu : t.mmu = s.mmu
  others : ∀ k, k ≠ p → t.port k = s.port k
  rxq : (t.port p).rxq = (s.port p).rxq
  regs : ∀ a, a ≠ R.MAC_PAUSED p → t.reg a = s.reg a

theorem xoffOnly_setXoff (s : State) (p v due at_ : Nat) :
    XoffOnly p s ((s.setFld (R.MAC_PAUSED_XOFF p) v).setPort p { s.port p with fcDue := due, refreshAt := at_ }) :=
  ⟨rfl, rfl, rfl, rfl, rfl, fun _ hk => State.port_setPort_ne _ _ hk.symm, by rw [State.port_setPort_same],
    fun _ ha => State.reg_setReg_ne _ _ ha.symm⟩

theorem xoffOnly_xoffCheck (s : State) (p : Nat) : XoffOnly p s (s.xoffCheck p) := by
  simp only [State.xoffCheck]
  split
  · exact ⟨rfl, rfl, rfl, rfl, rfl, fun _ _ => rfl, rfl, fun _ _ => rfl⟩
  · exact xoffOnly_setXoff s p _ _ _

/-- The two counters of a frame received (R146). -/
def State.rxCounted (s : State) (p len : Nat) : State := (s.bump (R.MAC_RX_FRM_CNT p)).bump64 (R.MAC_RX_BYTE_CNT_LO p) len

theorem counted_rxCounted (s : State) {p : Nat} (hp : p < 8) (len : Nat) : Counted s (s.rxCounted p len) := by
  have hfrm : PortCounter (R.MAC_RX_FRM_CNT p) := by simp only [PortCounter, R.MAC_RX_FRM_CNT]; omega
  have hlo : PortCounter (R.MAC_RX_BYTE_CNT_LO p) := by simp only [PortCounter, R.MAC_RX_BYTE_CNT_LO]; omega
  have hhi : PortCounter (R.MAC_RX_BYTE_CNT_LO p + 4) := by simp only [PortCounter, R.MAC_RX_BYTE_CNT_LO]; omega
  exact (counted_bump hfrm).trans (counted_bump64 hlo hhi)

theorem reg_rxCounted_ne {s : State} {p len a : Nat} (h1 : R.MAC_RX_FRM_CNT p ≠ a) (h2 : R.MAC_RX_BYTE_CNT_LO p ≠ a)
    (h3 : R.MAC_RX_BYTE_CNT_LO p + 4 ≠ a) : (s.rxCounted p len).reg a = s.reg a := by
  rw [State.rxCounted, reg_bump64_ne h2 h3, State.reg_bump_ne _ h1]

theorem rxFrmCnt_rxCounted (s : State) (p len : Nat) :
    (s.rxCounted p len).reg (R.MAC_RX_FRM_CNT p) = (s.reg (R.MAC_RX_FRM_CNT p) + 1) % 2 ^ 32 := by
  rw [State.rxCounted, reg_bump64_ne (by simp only [R.MAC_RX_BYTE_CNT_LO, R.MAC_RX_FRM_CNT]; omega)
    (by simp only [R.MAC_RX_BYTE_CNT_LO, R.MAC_RX_FRM_CNT]; omega), State.reg_bump_same]

/-- A frame is received: it is counted, and beside the port and its memory the part stays as it is. -/
structure Accepts (p : Nat) (s t : State) : Prop where
  count : t.reg (R.MAC_RX_FRM_CNT p) = (s.reg (R.MAC_RX_FRM_CNT p) + 1) % 2 ^ 32
  legs : t.legs = s.legs
  tmu : t.tmu = s.tmu
  nv : t.nv = s.nv
  swt : t.swt = s.swt
  others : ∀ k, k ≠ p → t.port k = s.port k

section accept
variable {s v : State} {p : Nat}

theorem accepts_rxCounted (s : State) (hp : p < 8) (len : Nat) : Accepts p s (s.rxCounted p len) :=
  have h := counted_rxCounted s hp len
  ⟨rxFrmCnt_rxCounted s p len, h.legs_eq, h.tmu_eq, h.nv_eq, h.swt_eq, fun k _ => h.port_eq k⟩

theorem Accepts.setPort (h : Accepts p s v) (y : Port) : Accepts p s (v.setPort p y) :=
  ⟨h.count, h.legs, h.tmu, h.nv, h.swt, fun k hk => (State.port_setPort_ne v y hk.symm).trans (h.others k hk)⟩

theorem Accepts.setDring (h : Accepts p s v) (i : Nat) (d : DRing) : Accepts p s (v.setDring i d) :=
  ⟨h.count, h.legs, h.tmu, h.nv, h.swt, h.others⟩

theorem Accepts.bump_empty (h : Accepts p s v) : Accepts p s (v.bump (R.MAC_RX_RING_EMPTY_CNT p)) :=
  ⟨(State.reg_bump_ne v (by simp only [R.MAC_RX_RING_EMPTY_CNT, R.MAC_RX_FRM_CNT]; omega)).trans h.count, h.legs, h.tmu, h.nv, h.swt, h.others⟩

theorem Accepts.xoffCheck (h : Accepts p s v) : Accepts p s (v.xoffCheck p) :=
  have hx := xoffOnly_xoffCheck v p
  ⟨(hx.regs _ (by simp only [R.MAC_PAUSED, R.MAC_RX_FRM_CNT]; omega)).trans h.count, hx.legs.trans h.legs, hx.tmu.trans h.tmu, hx.nv.trans h.nv,
    hx.swt.trans h.swt, fun k hk => (hx.others k hk).trans (h.others k hk)⟩

theorem Accepts.capFrame (h : Accepts p s v) (hp : p < 8) (dir : Nat) (b : Bytes) (cls : Nat) (leg : Option Nat) (stamp : Inst) :
    Accepts p s (v.capFrame p dir b cls leg stamp) :=
  have hc := watched_capFrame v p dir b cls leg stamp
  ⟨(hc.regs _ (by simp only [WatchReg, R.MAC_RX_FRM_CNT]; omega)).trans h.count, hc.legs_eq.trans h.legs, hc.tmu_eq.trans h.tmu,
    hc.nv_eq.trans h.nv, hc.swt_eq.trans h.swt, fun k hk => (hc.port_eq k).trans (h.others k hk)⟩

end accept

/-- Following the watermarks and offering the frame leave the class buffers and the rings. -/
theorem rxEnds_buffers (v : State) (p : Nat) (b : Bytes) (cls : Nat) (leg : Option Nat) (stamp : Inst) :
    (((v.xoffCheck p).capFrame p 0 b cls leg stamp).port p).rxq = (v.port p).rxq ∧ ((v.xoffCheck p).capFrame p 0 b cls leg stamp).mmu = v.mmu := by
  have hx := xoffOnly_xoffCheck v p
  have hc := watched_capFrame (v.xoffCheck p) p 0 b cls leg stamp
  exact ⟨(congrArg Port.rxq (hc.port_eq p)).trans hx.rxq, hc.mmu_eq.trans hx.mmu⟩

section room
variable {s : State} {p : Nat} {b : Bytes} {stamp : Inst} (hroom : s.fill p (s.classify p b) + flen b ≤ s.classRoom p (s.classify p b))
include hroom

/-- A frame that no receive ring takes enters the buffer of its class. -/
theorem rxAccept_buffer (hr : s.classify p b = 7 ∨ s.ringOf p = none) : ∃ (y : Port) (leg : Option Nat), s.rxAccept p b stamp =
      (((s.rxCounted p (flen b)).setPort p y).xoffCheck p).capFrame p 0 b (s.classify p b) leg stamp ∧
    y.rxq = kset (s.port p).rxq (s.classify p b) (kgetD (s.port p).rxq (s.classify p b) [] ++ [⟨b, stamp⟩]) := by
  have hnone : (if s.classify p b = 7 then none else s.ringOf p) = none := by
    split
    · rfl
    · next h => exact hr.resolve_left h
  simp only [State.rxAccept, hnone]
  rw [if_neg (Nat.not_lt.2 hroom)]
  exact ⟨_, _, rfl, rfl⟩

variable {i : Nat} {d : DRing} (h7 : s.classify p b ≠ 7) (hr : s.ringOf p = some (i, d))
include h7 hr

theorem rxAccept_starved (hf : s.freeBufs i d p = []) : ∃ leg : Option Nat, s.rxAccept p b stamp =
    ((s.rxCounted p (flen b)).bump (R.MAC_RX_RING_EMPTY_CNT p)).capFrame p 0 b (s.classify p b) leg stamp := by
  simp only [State.rxAccept, if_neg h7, hr]
  rw [if_neg (Nat.not_lt.2 hroom), if_pos (by rw [hf]; rfl)]
  exact ⟨_, rfl⟩

theorem rxAccept_ring (hf : s.freeBufs i d p ≠ []) : ∃ (y : Port) (leg : Option Nat), s.rxAccept p b stamp =
      ((((s.rxCounted p (flen b)).setPort p y).setDring i { d with frames := d.frames ++ [(⟨b, stamp⟩, s.classify p b, p)] }).xoffCheck p).capFrame
        p 0 b (s.classify p b) leg stamp ∧ y.rxq = (s.port p).rxq := by
  simp only [State.rxAccept, if_neg h7, hr]
  rw [if_neg (Nat.not_lt.2 hroom), if_neg (by simpa using hf)]
  exact ⟨_, _, rfl, rfl⟩

end room

section room
variable {s : State} {p : Nat} {b : Bytes} (hp : p < 8) (hroom : s.fill p (s.classify p b) + flen b ≤ s.classRoom p (s.classify p b)) (stamp : Inst)
include hp hroom

theorem rxAccept_enters_buffer (hr : s.classify p b = 7 ∨ s.ringOf p = none) : Accepts p s (s.rxAccept p b stamp) ∧
    kgetD ((s.rxAccept p b stamp).port p).rxq (s.classify p b) [] = kgetD (s.port p).rxq (s.classify p b) [] ++ [⟨b, stamp⟩] ∧
    (∀ m, m ≠ s.classify p b → kgetD ((s.rxAccept p b stamp).port p).rxq m [] = kgetD (s.port p).rxq m []) ∧
    (s.rxAccept p b stamp).mmu.rings = s.mmu.rings := by
  obtain ⟨y, leg, ht, hy⟩ := rxAccept_buffer (stamp := stamp) hroom hr
  have hv := accepts_rxCounted s hp (flen b)
  have hmmu := (counted_rxCounted s hp (flen b)).mmu_eq
  generalize s.rxCounted p (flen b) = v at ht hv hmmu
  obtain ⟨hq, hm⟩ := rxEnds_buffers (v.setPort p y) p b (s.classify p b) leg stamp
  rw [State.port_setPort_same, hy] at hq
  rw [ht, hq, hm, State.setPort_mmu, hmmu]
  exact ⟨(hv.setPort y).xoffCheck.capFrame hp _ _ _ _ _, kgetD_kset_same _ _ _ _, fun m hne => kgetD_kset_ne _ _ _ hne.symm, rfl⟩

variable {i : Nat} {d : DRing} (h7 : s.classify p b ≠ 7) (hr : s.ringOf p = some (i, d))
include h7 hr

theorem rxAccept_finds_none (hf : s.freeBufs i d p = []) : Accepts p s (s.rxAccept p b stamp) ∧
    ((s.rxAccept p b stamp).port p).rxq = (s.port p).rxq ∧ (s.rxAccept p b stamp).mmu.rings = s.mmu.rings ∧
    (s.grn.taps = [] → (s.rxAccept p b stamp).reg (R.MAC_RX_RING_EMPTY_CNT p) = (s.reg (R.MAC_RX_RING_EMPTY_CNT p) + 1) % 2 ^ 32) := by
  obtain ⟨leg, ht⟩ := rxAccept_starved (stamp := stamp) hroom h7 hr hf
  have hv := accepts_rxCounted s hp (flen b)
  have hcounted := counted_rxCounted s hp (flen b)
  have hempty : (s.rxCounted p (flen b)).reg (R.MAC_RX_RING_EMPTY_CNT p) = s.reg (R.MAC_RX_RING_EMPTY_CNT p) := by
    apply reg_rxCounted_ne <;> simp only [R.MAC_RX_FRM_CNT, R.MAC_RX_BYTE_CNT_LO, R.MAC_RX_RING_EMPTY_CNT] <;> omega
  have hcap : ¬ CapReg (R.MAC_RX_RING_EMPTY_CNT p) := by simp only [CapReg, R.MAC_RX_RING_EMPTY_CNT, R.QCP_EVT_DROP_CNT]; omega
  have hcnt : PortCounter (R.MAC_RX_RING_EMPTY_CNT p) := by simp only [PortCounter, R.MAC_RX_RING_EMPTY_CNT]; omega
  generalize s.rxCounted p (flen b) = v at ht hv hcounted hempty
  have hbumped := hcounted.trans (counted_bump (s := v) (a := R.MAC_RX_RING_EMPTY_CNT p) hcnt)
  have hw := hv.bump_empty
  have hreg := (State.reg_bump_same v (R.MAC_RX_RING_EMPTY_CNT p)).trans (by rw [hempty])
  generalize v.bump (R.MAC_RX_RING_EMPTY_CNT p) = u at ht hbumped hw hreg
  have hc := watched_capFrame u p 0 b (s.classify p b) leg stamp
  rw [ht, hc.port_eq, hbumped.port_eq, hc.mmu_eq, hbumped.mmu_eq]
  refine ⟨hw.capFrame hp _ _ _ _ _, rfl, rfl, fun htaps => ?_⟩
  rw [(captured_capFrame (hbumped.grn_eq ▸ htaps) p 0 b (s.classify p b) leg stamp).regs _ hcap, hreg]

theorem rxAccept_waits_for_ring (hf : s.freeBufs i d p ≠ []) : Accepts p s (s.rxAccept p b stamp) ∧
    ((s.rxAccept p b stamp).port p).rxq = (s.port p).rxq ∧
    ((s.rxAccept p b stamp).dring i).frames = d.frames ++ [(⟨b, stamp⟩, s.classify p b, p)] := by
  obtain ⟨y, leg, ht, hy⟩ := rxAccept_ring (stamp := stamp) hroom h7 hr hf
  have hv := accepts_rxCounted s hp (flen b)
  generalize s.rxCounted p (flen b) = v at ht hv
  generalize hx : ({ d with frames := d.frames ++ [(⟨b, stamp⟩, s.classify p b, p)] } : DRing) = x at ht
  obtain ⟨hq, hm⟩ := rxEnds_buffers ((v.setPort p y).setDring i x) p b (s.classify p b) leg stamp
  have hring : ((v.setPort p y).setDring i x).dring i = x := by
    rw [State.dring, State.setDring, State.setMmu_mmu, kgetD_kset_same]
  have hport : ((v.setPort p y).setDring i x).port p = y := by
    rw [State.port, State.setDring, State.setMmu_ports, ← State.port, State.port_setPort_same]
  rw [ht, State.dring, hm, ← State.dring, hring, hq, hport, hy, ← hx]
  exact ⟨((hv.setPort y).setDring i _).xoffCheck.capFrame hp _ _ _ _ _, rfl, rfl⟩

end room

/-- A frame for which the class buffer has room is received, wherever it goes. -/
theorem rxAccept_accepts {s : State} {p : Nat} {b : Bytes} (hp : p < 8) (hroom : s.fill p (s.classify p b) + flen b ≤ s.classRoom p (s.classify p b))
    (stamp : Inst) : Accepts p s (s.rxAccept p b stamp) := by
  by_cases h7 : s.classify p b = 7
  · exact (rxAccept_enters_buffer hp hroom stamp (.inl h7)).1
  · cases hr : s.ringOf p with
    | none => exact (rxAccept_enters_buffer hp hroom stamp (.inr hr)).1
    | some r =>
      by_cases hf : s.freeBufs r.1 r.2 p = []
      · exact (rxAccept_finds_none hp hroom stamp h7 hr hf).1
      · exact (rxAccept_waits_for_ring hp hroom stamp h7 hr hf).1

/-- A frame that its class buffer has no room for is dropped, counted and reported (R119). -/
theorem rxAccept_full {s : State} {p : Nat} {b : Bytes} (h : s.classRoom p (s.classify p b) < s.fill p (s.classify p b) + flen b) (stamp : Inst) :
    s.rxAccept p b stamp = (s.bump (R.MAC_RX_IDROP_TC_CNT p (s.classify p b))).raise R.MAC_EVT (2 ^ (8 + p)) := by
  simp only [State.rxAccept]
  rw [if_pos h]

end Sys2Proof.Machine

namespace Sys2Proof.Machine

open Sys2Proof

/-! MAC_RX_FRAME: what the lane corrected is counted first, and the rows of R119 see the part as it was but for those counters. -/

section received
variable {w : RxWire} {s : State} (hon : s.portSt w.port.val = .on)
include hon

theorem macRxFrame_runt (h : w.bytes.length + 4 ≤ 63) :
    exec (.macRxFrame w) s = .next ((s.fecCount w).bump (R.MAC_RX_RUNT_CNT w.port.val)) := by
  rw [macRxFrame_on hon, rxRows_runt h]

theorem macRxFrame_oversize (h1 : 63 < w.bytes.length + 4) (h2 : s.portMax w.port.val < w.bytes.length + 4)
    (h : w.cut = false ∨ s.ringOf w.port.val = none) :
    exec (.macRxFrame w) s = .next ((s.fecCount w).bump (R.MAC_RX_OVERSIZE_CNT w.port.val)) := by
  have hc := counted_fecCount s w
  rw [macRxFrame_on hon, rxRows_oversize h1 (by rwa [hc.portMax_eq]) (by rwa [hc.ringOf_eq])]

variable (h1 : 63 < w.bytes.length + 4) (h2 : w.bytes.length + 4 ≤ s.portMax w.port.val)
include h1 h2

theorem macRxFrame_corrupt (hf : w.fcsOk = false) : exec (.macRxFrame w) s = .next ((s.fecCount w).bump
    (if w.port = 7 ∧ w.oddNibble = true then R.MAC_RX_ALIGN_CNT w.port.val else R.MAC_RX_FCS_CNT w.port.val)) := by
  rw [macRxFrame_on hon, rxRows_corrupt h1 (by rwa [(counted_fecCount s w).portMax_eq]) hf]

variable (hf : w.fcsOk = true)
include hf

theorem macRxFrame_muzzle (hz : s.isMuzzle w.port.val w.bytes = true) : exec (.macRxFrame w) s = .next ((s.fecCount w).setQcp
    { s.qcp with mzIn := s.qcp.mzIn ++ [⟨w.bytes.drop (parseEth w.bytes).off, s.now, s.loc⟩] }) := by
  have hc := counted_fecCount s w
  rw [macRxFrame_on hon, rxRows_muzzle h1 (by rwa [hc.portMax_eq]) hf (by rwa [hc.isMuzzle_eq]), hc.qcp_eq, hc.now_eq, hc.loc_eq]

variable (hz : s.isMuzzle w.port.val w.bytes = false)
include hz

theorem macRxFrame_control (he : (parseEth w.bytes).etype = 0x8808) (hm : s.fld (R.MAC_FC_MODE w.port.val) = 0) : exec (.macRxFrame w) s =
    .next ((s.fecCount w).bump (ctlCounter w.port.val (num w.bytes (parseEth w.bytes).off 2))) := by
  have hc := counted_fecCount s w
  rw [macRxFrame_on hon, rxRows_control h1 (by rwa [hc.portMax_eq]) hf (by rwa [hc.isMuzzle_eq]) he
    (by rwa [hc.fld_eq (f := R.MAC_FC_MODE w.port.val) (not_portCounter_fc _)])]

theorem macRxFrame_pfc (he : (parseEth w.bytes).etype = 0x8808) (hop : num w.bytes (parseEth w.bytes).off 2 = 0x0101)
    (hm : s.fld (R.MAC_FC_MODE w.port.val) = 1) (hr : Rising (s.port w.port.val).pauseUntil) : ∃ t, exec (.macRxFrame w) s = .next t ∧
      t.reg (R.MAC_RX_PFC_CNT w.port.val) = (s.reg (R.MAC_RX_PFC_CNT w.port.val) + 1) % 2 ^ 32 ∧
      (∀ m < 8, kget (t.port w.port.val).pauseUntil m =
        if s.heeds w.port.val w.bytes ((parseEth w.bytes).off + 2) m = true then
          s.pauseEnd w.port.val (num w.bytes ((parseEth w.bytes).off + 2 + 2 + 2 * m) 2)
        else kget (s.port w.port.val).pauseUntil m) ∧
      (∀ k, k ≠ w.port.val → t.port k = s.port k) ∧ t.legs = s.legs ∧ t.tmu = s.tmu := by
  have hc := counted_fecCount s w
  have hcnt : PortCounter (R.MAC_RX_PFC_CNT w.port.val) := by simp only [PortCounter, R.MAC_RX_PFC_CNT]; omega
  have hb := hc.trans (counted_bump hcnt)
  have hreg : ((s.fecCount w).bump (R.MAC_RX_PFC_CNT w.port.val)).reg (R.MAC_RX_PFC_CNT w.port.val) =
      (s.reg (R.MAC_RX_PFC_CNT w.port.val) + 1) % 2 ^ 32 := by
    rw [State.reg_bump_same, reg_fecCount (by simp only [R.MAC_FEC_CORR_CNT, R.MAC_RX_PFC_CNT]; omega)
      (by simp only [R.MAC_FEC_UNCORR_CNT, R.MAC_RX_PFC_CNT]; omega)]
  have hx := (macRxFrame_on hon).trans (congrArg Host.Outcome.next (rxRows_pfc h1 (by rwa [hc.portMax_eq]) hf (by rwa [hc.isMuzzle_eq]) he hop))
  generalize (s.fecCount w).bump (R.MAC_RX_PFC_CNT w.port.val) = v at hb hreg hx
  have hmode : v.fld (R.MAC_FC_MODE w.port.val) = 1 := (hb.fld_eq (f := R.MAC_FC_MODE w.port.val) (not_portCounter_fc _)).trans hm
  have hheeds (off m : Nat) : v.heeds w.port.val w.bytes off m = s.heeds w.port.val w.bytes off m := by
    unfold State.heeds
    rw [hb.fld_eq (f := R.MAC_FC_RX_EN w.port.val) (not_portCounter_fc _)]
  obtain ⟨hp, hk⟩ := pfcRx_pauses hmode (by rwa [hb.port_eq]) w.bytes ((parseEth w.bytes).off + 2)
  refine ⟨_, hx, (hp.regs _ (by simp only [R.MAC_RX_PFC_CNT, R.MAC_PAUSED]; omega)).trans hreg, fun m hm8 => ?_,
    fun k hk => (hp.others k hk).trans (hb.port_eq k), hp.legs.trans hb.legs_eq, hp.tmu.trans hb.tmu_eq⟩
  rw [hk m hm8, hheeds, hb.pauseEnd_eq, hb.port_eq]

variable (he : (parseEth w.bytes).etype ≠ 0x8808)
include he

theorem macRxFrame_accept : exec (.macRxFrame w) s = .next ((s.fecCount w).rxAccept w.port.val w.bytes (s.rxStamp w.port.val w.sfdAgo)) := by
  have hc := counted_fecCount s w
  rw [macRxFrame_on hon, rxRows_accept h1 (by rwa [hc.portMax_eq]) hf (by rwa [hc.isMuzzle_eq]) he, hc.rxStamp_eq]

theorem macRxFrame_full (h : s.fld (R.MAC_IBUF_KIB w.port.val (s.classify w.port.val w.bytes)) * 1024 <
      s.fill w.port.val (s.classify w.port.val w.bytes) + (w.bytes.length + 4)) :
    Gives (.macRxFrame w) s [R.MAC_RX_IDROP_TC_CNT w.port.val (s.classify w.port.val w.bytes), R.MAC_EVT, R.MAC_FEC_CORR_CNT w.port.val,
        R.MAC_FEC_UNCORR_CNT w.port.val] s
      fun t => tb (t.reg R.MAC_EVT) (8 + w.port.val) = true ∧ t.reg (R.MAC_RX_IDROP_TC_CNT w.port.val (s.classify w.port.val w.bytes)) =
        (s.reg (R.MAC_RX_IDROP_TC_CNT w.port.val (s.classify w.port.val w.bytes)) + 1) % 2 ^ 32 := by
  have hc := counted_fecCount s w
  have hn := classify_lt s w.port.val w.bytes
  have hx := macRxFrame_accept hon h1 h2 hf hz he
  rw [rxAccept_full (by rw [hc.classify_eq, hc.classRoom_eq hn, hc.fill_eq]; exact h), hc.classify_eq] at hx
  generalize s.classify w.port.val w.bytes = n at hn hx
  have hdrop : R.MAC_EVT ≠ R.MAC_RX_IDROP_TC_CNT w.port.val n := by simp only [R.MAC_EVT, R.MAC_RX_IDROP_TC_CNT]; omega
  have hevt : R.MAC_RX_IDROP_TC_CNT w.port.val n ≠ R.QCP_EVT_DROP_CNT := by simp only [R.QCP_EVT_DROP_CNT, R.MAC_RX_IDROP_TC_CNT]; omega
  have hfec : Only [R.MAC_RX_IDROP_TC_CNT w.port.val n, R.MAC_EVT, R.MAC_FEC_CORR_CNT w.port.val, R.MAC_FEC_UNCORR_CNT w.port.val] s
      (s.fecCount w) := by
    unfold State.fecCount
    split
    · exact (only_bumpBy (by simp)).trans (only_bumpBy (by simp))
    · exact Only.refl _ s
  refine ⟨_, hx, (hfec.trans (only_bump (by simp))).raise (by simp) _, tb_raise _ mac_evt_ne_drop (by omega), ?_⟩
  rw [reg_raise_ne hevt hdrop, State.reg_bump_same, reg_fecCount (by simp only [R.MAC_FEC_CORR_CNT, R.MAC_RX_IDROP_TC_CNT]; omega)
    (by simp only [R.MAC_FEC_UNCORR_CNT, R.MAC_RX_IDROP_TC_CNT]; omega)]

theorem macRxFrame_received (hroom : s.fill w.port.val (s.classify w.port.val w.bytes) + (w.bytes.length + 4) ≤
      s.fld (R.MAC_IBUF_KIB w.port.val (s.classify w.port.val w.bytes)) * 1024) : ∃ t, exec (.macRxFrame w) s = .next t ∧
    t.reg (R.MAC_RX_FRM_CNT w.port.val) = (s.reg (R.MAC_RX_FRM_CNT w.port.val) + 1) % 2 ^ 32 ∧
    t.legs = s.legs ∧ t.tmu = s.tmu ∧ t.nv = s.nv ∧ t.swt = s.swt ∧ (∀ k, k ≠ w.port.val → t.port k = s.port k) ∧
    (s.classify w.port.val w.bytes = 7 ∨ s.ringOf w.port.val = none →
      kgetD (t.port w.port.val).rxq (s.classify w.port.val w.bytes) [] =
        kgetD (s.port w.port.val).rxq (s.classify w.port.val w.bytes) [] ++ [⟨w.bytes, s.rxStamp w.port.val w.sfdAgo⟩] ∧
      (∀ m, m ≠ s.classify w.port.val w.bytes → kgetD (t.port w.port.val).rxq m [] = kgetD (s.port w.port.val).rxq m []) ∧
      t.mmu.rings = s.mmu.rings) ∧
    (∀ i d, s.classify w.port.val w.bytes ≠ 7 → s.ringOf w.port.val = some (i, d) → (t.port w.port.val).rxq = (s.port w.port.val).rxq ∧
      (s.freeBufs i d w.port.val = [] → t.mmu.rings = s.mmu.rings ∧
        (s.grn.taps = [] → t.reg (R.MAC_RX_RING_EMPTY_CNT w.port.val) = (s.reg (R.MAC_RX_RING_EMPTY_CNT w.port.val) + 1) % 2 ^ 32)) ∧
      (s.freeBufs i d w.port.val ≠ [] → (t.dring i).frames =
        d.frames ++ [(⟨w.bytes, s.rxStamp w.port.val w.sfdAgo⟩, s.classify w.port.val w.bytes, w.port.val)])) := by
  have hx := macRxFrame_accept hon h1 h2 hf hz he
  have hc := counted_fecCount s w
  have hfrm : (s.fecCount w).reg (R.MAC_RX_FRM_CNT w.port.val) = s.reg (R.MAC_RX_FRM_CNT w.port.val) := by
    apply reg_fecCount <;> simp only [R.MAC_FEC_CORR_CNT, R.MAC_FEC_UNCORR_CNT, R.MAC_RX_FRM_CNT] <;> omega
  have hempty : (s.fecCount w).reg (R.MAC_RX_RING_EMPTY_CNT w.port.val) = s.reg (R.MAC_RX_RING_EMPTY_CNT w.port.val) := by
    apply reg_fecCount <;> simp only [R.MAC_FEC_CORR_CNT, R.MAC_FEC_UNCORR_CNT, R.MAC_RX_RING_EMPTY_CNT] <;> omega
  generalize s.fecCount w = u at hx hc hfrm hempty
  have hp := w.port.isLt
  have hn := classify_lt s w.port.val w.bytes
  rw [← hc.classify_eq, ← hc.fill_eq, ← State.classRoom, ← hc.classRoom_eq (by rwa [hc.classify_eq])] at hroom
  obtain ⟨hcount, hlegs, htmu, hnv, hswt, hothers⟩ := rxAccept_accepts hp hroom (s.rxStamp w.port.val w.sfdAgo)
  refine ⟨_, hx, by rw [hcount, hfrm], hlegs.trans hc.legs_eq, htmu.trans hc.tmu_eq, hnv.trans hc.nv_eq, hswt.trans hc.swt_eq,
    fun k hk => (hothers k hk).trans (hc.port_eq k), fun hr => ?_, fun i d h7 hr => ?_⟩
  · rw [← hc.classify_eq, ← hc.ringOf_eq] at hr
    obtain ⟨-, hin, hrest, hrings⟩ := rxAccept_enters_buffer hp hroom (s.rxStamp w.port.val w.sfdAgo) hr
    rw [hc.classify_eq, hc.port_eq] at hin hrest
    exact ⟨hin, hrest, hrings.trans (congrArg Mmu.rings hc.mmu_eq)⟩
  · rw [← hc.classify_eq] at h7 ⊢
    rw [← hc.ringOf_eq] at hr
    rw [← hc.sameMemory.freeBufs_eq]
    by_cases hfree : u.freeBufs i d w.port.val = []
    · obtain ⟨-, hq, hrings, hcnt⟩ := rxAccept_finds_none hp hroom (s.rxStamp w.port.val w.sfdAgo) h7 hr hfree
      refine ⟨hq.trans (congrArg Port.rxq (hc.port_eq _)), fun _ => ⟨hrings.trans (congrArg Mmu.rings hc.mmu_eq), fun ht => ?_⟩, fun k => absurd hfree k⟩
      rw [hcnt (hc.grn_eq ▸ ht), hempty]
    · obtain ⟨-, hq, hframes⟩ := rxAccept_waits_for_ring hp hroom (s.rxStamp w.port.val w.sfdAgo) h7 hr hfree
      exact ⟨hq.trans (congrArg Port.rxq (hc.port_eq _)), fun k => absurd k hfree, fun _ => hframes⟩

end received

end Sys2Proof.Machine

section
open Sys2Proof.Machine

/-- Settles O17: the rows of R119 in their order, a MAC control frame by the mode of flow control, and a frame that is received by where it goes. -/
theorem framesAreReceived : Obligations.FramesAreReceived := by
  refine ⟨macRxFrame_not_on, fun w s hon => ⟨macRxFrame_runt hon, macRxFrame_oversize hon, fun h1 h2 => ⟨macRxFrame_corrupt hon h1 h2,
    macRxFrame_muzzle hon h1 h2, fun hf hz he hm => ?_, fun hf hz he hop hm hr => ?_, macRxFrame_full hon h1 h2, macRxFrame_received hon h1 h2⟩⟩⟩
  · refine (macRxFrame_control hon h1 h2 hf hz he hm).trans (congrArg (fun a => Host.Outcome.next ((s.fecCount w).bump a)) ?_)
    generalize num w.bytes (parseEth w.bytes).off 2 = op
    rfl
  · obtain ⟨t, hx, hcnt, hpause, hothers, hlegs, htmu⟩ := macRxFrame_pfc hon h1 h2 hf hz he hop hm hr
    refine ⟨t, hx, hcnt, fun m hm8 => (hpause m hm8).trans ?_, hothers, hlegs, htmu⟩
    simp only [State.heeds, State.pauseEnd, Bool.and_eq_true, Nat.add_assoc, Nat.reduceAdd]

end

namespace Sys2Proof.Machine

open Sys2Proof

/-! A command that is refused before its payload is looked at (R153, R161, R561, R602): the bulk frames announced with it leave its ring. -/

/-- Bulk frames that leave a ring leave the reply that waits, and touch nothing but QCP. -/
theorem dropBulk_aside {m : Nat} {s t : State} (hm : m < 256) (h : Aside m s t) (seq : Nat) : Aside m s (t.dropBulk m seq) :=
  h.trans (aside_setSess.trans (aside_unbell hm))

theorem dropBulk_sess_same (s : State) (m seq : Nat) : (s.dropBulk m seq).sess m =
    { s.sess m with ring := (s.sess m).ring.filter fun f => !(f.bulk && f.seq == seq) } := by
  simp only [State.dropBulk, unbell_sess, State.sess_setSess_same]

/-- The reply of a command in its turn that is refused together with the bulk frames it announced. -/
theorem refused_with_bulk {op : Nat} {q : Req} {s : State} {st det : Nat} (ht : s.turn q.mbox.val q.seq.toNat op q.more q.payload = true)
    (hd : det ≤ 0xFFFF) :
    let t := ((s.take q.mbox.val).reply q.mbox.val q.seq.toNat op st det false []).dropBulk q.mbox.val q.seq.toNat
    Aside q.mbox.val s t ∧ Answered false op q st det [] s t := by
  obtain ⟨ha, hr⟩ := refused_in_turn (st := st) ht hd
  have hb := dropBulk_aside q.mbox.isLt ha q.seq.toNat
  refine ⟨hb, ?_⟩
  rw [Answered, dropBulk_sess_same, replyFrames_congr (hb.ports_eq.trans ha.ports_eq.symm)]
  exact hr

section refusals
variable {d : OpDef} {op : Nat} {q : Req} {s : State}

theorem runOp_not_in_turn (ht : s.turn q.mbox.val q.seq.toNat op q.more q.payload = false) : runOp d op q s = s := by
  simp only [runOp, ht, Bool.false_eq_true, if_false]

theorem runOp_role (ht : s.turn q.mbox.val q.seq.toNat op q.more q.payload = true) (hr : (s.sess q.mbox.val).role < d.minRole) :
    runOp d op q s = ((s.take q.mbox.val).reply q.mbox.val q.seq.toNat op St.auth (authDetail op d.minRole) false []).dropBulk q.mbox.val
      q.seq.toNat := by
  simp only [runOp, ht, if_true, hr]

theorem runOp_recovery (ht : s.turn q.mbox.val q.seq.toNat op q.more q.payload = true) (hr : d.minRole ≤ (s.sess q.mbox.val).role)
    (hm : s.mode = .recovery) (ha : recoveryAllows op = false) : runOp d op q s =
      ((s.take q.mbox.val).reply q.mbox.val q.seq.toNat op St.state 0xFFFF false []).dropBulk q.mbox.val q.seq.toNat := by
  simp only [runOp, ht, if_true, Nat.not_lt.2 hr, if_false, hm, ha, and_self]

theorem runOp_unwanted_bulk (ht : s.turn q.mbox.val q.seq.toNat op true q.payload = true) (hr : d.minRole ≤ (s.sess q.mbox.val).role)
    (hm : s.mode ≠ .recovery) (hq : q.more = true) (hb : d.bulk = false) : runOp d op q s =
      ((s.take q.mbox.val).reply q.mbox.val q.seq.toNat op St.badLen 0 false []).dropBulk q.mbox.val q.seq.toNat := by
  simp only [runOp, hq, ht, if_true, Nat.not_lt.2 hr, if_false, hm, hb, false_and]

theorem runOp_badLen {off : Nat} (ht : s.turn q.mbox.val q.seq.toNat op q.more q.payload = true) (hr : d.minRole ≤ (s.sess q.mbox.val).role)
    (hm : s.mode ≠ .recovery) (hq : q.more = false) (hb : d.badLen q.payload = some off) : runOp d op q s =
      (s.take q.mbox.val).reply q.mbox.val q.seq.toNat op St.badLen off false [] := by
  rw [hq] at ht
  simp only [runOp, ht, if_true, Nat.not_lt.2 hr, if_false, hm, hq, Bool.false_eq_true, false_and, execOp_badLen hb]

/-- The role needed fits the detail, beside the index of a pair too (R167, R169). -/
theorem authDetail_le (op : Nat) {r : Nat} (h : r ≤ 2) : authDetail op r ≤ 0xFFFF := by
  unfold authDetail
  split <;> omega

end refusals

/-- The operations whose refusals are stated, with their codes and commands. -/
def refusable : List (OpDef × Nat × (Req → Instr)) :=
  [(opRegWrite, 0x0201, Instr.regWrite), (opUnmuzzle, 0x0111, .unmuzzle), (opMuzzleKeySet, 0x0112, .muzzleKeySet), (opChanEnable, 0x0301, .chanEnable),
    (opChanKey, 0x0307, .chanKey), (opGraphDefine, 0x0401, .graphDefine), (opCoefSwap, 0x0504, .coefSwap), (opPortDisable, 0x0702, .portDisable),
    (opCaptEnable, 0x0803, .captEnable), (opTandRoute, 0x0B01, .tandRoute), (opBistRequest, 0x0C01, .bistRequest),
    (opFwActivate, 0x0E02, .fwActivate), (opShutBegin, 0x1001, .shutBegin)]

/-- Each of them runs as an operation of a session, and needs one of the three roles. -/
theorem refusable_run : ∀ x ∈ refusable, (∀ q s, exec (x.2.2 q) s = .next (runOp x.1 x.2.1 q s)) ∧ x.1.minRole ≤ 2 := by
  simp only [refusable, List.forall_mem_cons]
  exact ⟨⟨fun _ _ => rfl, by decide⟩, ⟨fun _ _ => rfl, by decide⟩, ⟨fun _ _ => rfl, by decide⟩, ⟨fun _ _ => rfl, by decide⟩,
    ⟨fun _ _ => rfl, by decide⟩, ⟨fun _ _ => rfl, by decide⟩, ⟨fun _ _ => rfl, by decide⟩, ⟨fun _ _ => rfl, by decide⟩,
    ⟨fun _ _ => rfl, by decide⟩, ⟨fun _ _ => rfl, by decide⟩, ⟨fun _ _ => rfl, by decide⟩, ⟨fun _ _ => rfl, by decide⟩,
    ⟨fun _ _ => rfl, by decide⟩, List.forall_mem_nil _⟩

end Sys2Proof.Machine

section
open Sys2Proof.Machine

/-- Settles O23: each operation runs alike, so each refusal is that of a command in its turn, at the point of `runOp` where it is made. -/
theorem commandsAreRefusedInTurn : Obligations.CommandsAreRefusedInTurn := by
  intro x hx
  obtain ⟨hrun, hrole⟩ := refusable_run x hx
  refine ⟨fun q s ht => ?_, fun q s ht hr => ?_, fun q s ht hr hm ha => ?_, fun q s off ht hr hm hq hb hoff => ?_, fun q s ht hr hm hq hb => ?_⟩
  · rw [hrun, runOp_not_in_turn ht]
  · rw [hrun, runOp_role ht hr]
    exact ⟨_, rfl, refused_with_bulk ht (authDetail_le _ hrole)⟩
  · rw [hrun, runOp_recovery ht hr hm ha]
    exact ⟨_, rfl, refused_with_bulk ht (Nat.le_refl _)⟩
  · rw [hrun, runOp_badLen ht hr hm hq hb]
    exact ⟨_, rfl, refused_in_turn ht hoff⟩
  · rw [hrun, runOp_unwanted_bulk ht hr hm hq hb]
    exact ⟨_, rfl, refused_with_bulk (hq ▸ ht) (Nat.zero_le _)⟩

end

namespace Sys2Proof.Machine

open Sys2Proof

/-! REG_READ and REG_WRITE (R168, R169, R170, R188). -/

theorem regRead_reads (q : Req) (s : State) (hr : Ready opRegRead 0x0281 q s) : exec (.regRead q) s =
    .next ((Done.res (readRegs (num q.payload 4 4) (s.take q.mbox.val) false (num q.payload 0 4)).1
      ((readRegs (num q.payload 4 4) (s.take q.mbox.val) false (num q.payload 0 4)).2.flatMap fun v => be 4 v)).finish
      (Req.ctx q 0x0281 s) s.dev false) := by
  have ha : Accepted opRegRead 0x0281 q s [] := ⟨hr, rfl⟩
  rw [exec_regRead, ha.run, dev_eq (aside_take q.mbox.isLt)]
  rfl

/-- What a REG_WRITE does that waits for no page: its pairs take effect in order. -/
theorem regWrite_app {c : Ctx} {plan : List Nat} {s : State} {b : Bytes} (h : s.mustMove (pairsOf b) = false) :
    opRegWrite.app c plan s b =
      Done.stat (applyPairs s (pairsOf b)).1 (if (applyPairs s (pairsOf b)).2 then St.late else St.ok) 0 := by
  simp only [opRegWrite, h, Bool.false_eq_true, if_false]
  rfl

theorem regWrite_applies (q : Req) (s : State) (ha : Accepted opRegWrite 0x0201 q s []) (hp : tb (num q.payload 0 2) 0 = false)
    (hm : (s.take q.mbox.val).mustMove (pairsOf q.payload) = false) : exec (.regWrite q) s =
    .next ((Done.stat (applyPairs (s.take q.mbox.val) (pairsOf q.payload)).1
      (if (applyPairs (s.take q.mbox.val) (pairsOf q.payload)).2 then St.late else St.ok) 0).finish (Req.ctx q 0x0201 s) s.dev false) := by
  have hj : opRegWrite.jrnl q.payload = false := hp
  rw [exec_regWrite, ha.run, hj, regWrite_app hm, dev_eq (aside_take q.mbox.isLt)]
  rfl

/-- What taking and journaling a command leave decides whether pages must be moved. -/
theorem Aside.mustMove_eq {m : Nat} {s t : State} (h : Aside m s t) (l : List (Nat × Nat)) : t.mustMove l = s.mustMove l := by
  have hspan : t.genInSpan = s.genInSpan := by
    funext k
    simp only [State.genInSpan, h.mmu_eq, h.fld_eq (f := R.SWT_LOFT_BUD_KIB) (by decide)]
  simp only [State.mustMove, hspan]

/-- Of its context a reply shows the mailbox, the sequence number and the opcode. -/
theorem finish_ctx {r : Done} {c d : Ctx} {dev : Nat} {jrn : Bool} (hm : d.mbox = c.mbox) (hs : d.seq = c.seq) (ho : d.opcode = c.opcode) :
    r.finish d dev jrn = r.finish c dev jrn := by
  simp only [Done.finish, hm, hs, ho]

theorem regWrite_persists (q : Req) (s : State) (ha : Accepted opRegWrite 0x0201 q s []) (hp : tb (num q.payload 0 2) 0 = true) (hr : Room q s)
    (hm : s.mustMove (pairsOf q.payload) = false) : ∃ v, Aside q.mbox.val s v ∧ Commits (.regWrite q) s
      ((Done.stat (applyPairs v (pairsOf q.payload)).1 (if (applyPairs v (pairsOf q.payload)).2 then St.late else St.ok) 0).finish
        (Req.ctx q 0x0201 s) s.dev true) := by
  obtain ⟨v, c, hv, hcm, hcs, hco, hc⟩ := commits_app (exec_regWrite q s) ha hp hr rfl
  rw [regWrite_app ((hv.mustMove_eq _).trans hm), dev_eq hv, finish_ctx (c := Req.ctx q 0x0201 s) hcm hcs hco] at hc
  exact ⟨v, hv, hc⟩

/-- Whether an earlier pair was late does not show in what the pairs write. -/
theorem applyPairs_fst : ∀ (l : List (Nat × Nat)) (s : State) (b : Bool),
    (l.foldl (fun (r : State × Bool) p => (r.1.writePair p.1 p.2, r.2 || tmuLate r.1 p.1 p.2)) (s, b)).1 = (applyPairs s l).1
  | [], _, _ => rfl
  | p :: l, s, _ => (applyPairs_fst l (s.writePair p.1 p.2) _).trans (applyPairs_fst l (s.writePair p.1 p.2) _).symm

theorem applyPairs_cons (a v : Nat) (l : List (Nat × Nat)) (s : State) : (applyPairs s ((a, v) :: l)).1 = (applyPairs (s.writePair a v) l).1 :=
  applyPairs_fst l _ _

/-! The enables of the muzzle keys (R188). -/

theorem mz_keys_owners : ((fieldsAt R.QCP_MZ_KEYS).any fun f => f.own == .d) = false := by decide +kernel

/-- A field that a pair changes is one of its register's. -/
theorem any_filter_false {α : Type} {p q : α → Bool} {l : List α} (h : l.any q = false) : (l.filter p).any q = false := by
  rw [List.any_eq_false] at h ⊢
  exact fun x hx => h x (List.mem_of_mem_filter hx)

theorem qcpRule_unloaded {s : State} {old v k : Nat} (hk : k < 8) (hv : tb v (8 + k) = true) (ho : tb old (8 + k) = false)
    (hn : khas s.nv.mzKeys k = false) : qcpRule s R.QCP_MZ_KEYS old v = some St.state := by
  have hany : ((List.range 8).any fun k => tb v (8 + k) && !tb old (8 + k) && !khas s.nv.mzKeys k) = true :=
    List.any_eq_true.2 ⟨k, List.mem_range.2 hk, by simp only [hv, ho, hn, Bool.not_false, Bool.and_self]⟩
  simp only [qcpRule, hany, show R.QCP_MZ_KEYS ≠ R.QCP_CFG by decide, if_true, if_false]

/-- The enable of a key that is not loaded is refused, whatever else the pair changes. -/
theorem pairStatus_unloaded {s : State} {role v k : Nat} {persist : Bool} (hk : k < 8) (hv : tb v (8 + k) = true)
    (ho : tb (s.reg R.QCP_MZ_KEYS) (8 + k) = false) (hn : khas s.nv.mzKeys k = false) :
    s.pairStatus role persist R.QCP_MZ_KEYS v = some St.state := by
  have hrule : s.rule R.QCP_MZ_KEYS (s.reg R.QCP_MZ_KEYS) v = some St.state := qcpRule_unloaded hk hv ho hn
  have hdbg : (((fieldsAt R.QCP_MZ_KEYS).filter fun f => f.changes (s.readReg false R.QCP_MZ_KEYS) v).any fun f => f.own == .d) = false :=
    any_filter_false mz_keys_owners
  simp only [State.pairStatus, hrule, hdbg, show R.QCP_MZ_KEYS % 4 = 0 by decide, ne_eq, not_true_eq_false, if_false, Bool.false_eq_true,
    false_and]
  split
  · rfl
  · split <;> rfl

theorem regWrite_unloaded (c : RegCmd) (s : State) (v k : Nat) (hr : Ready opRegWrite 0x0201 (writeReq c R.QCP_MZ_KEYS v) s) (hv : v < 2 ^ 32)
    (hk : k < 8) (hb : tb v (8 + k) = true) (ho : tb (s.reg R.QCP_MZ_KEYS) (8 + k) = false) (hn : khas s.nv.mzKeys k = false) :
    ∃ t, exec (.regWrite (writeReq c R.QCP_MZ_KEYS v)) s = .next t ∧ Aside c.mbox.val s t ∧
      Answered false 0x0201 (writeReq c R.QCP_MZ_KEYS v) St.state 0 [] s t := by
  have hreg : (s.take c.mbox.val).reg R.QCP_MZ_KEYS = s.reg R.QCP_MZ_KEYS := (aside_take c.mbox.isLt).reg_eq (by decide)
  have hchk : opRegWrite.chk (Req.ctx (writeReq c R.QCP_MZ_KEYS v) 0x0201 s) (s.take c.mbox.val) (writeReq c R.QCP_MZ_KEYS v).payload =
      .refuse St.state 0 := by
    simp only [opRegWrite, pairsOf_writeReq c (show R.QCP_MZ_KEYS < 2 ^ 32 by decide) hv, checkPairs,
      pairStatus_unloaded (s := s.take c.mbox.val) hk hb (hreg ▸ ho) ((take_nv s _).symm ▸ hn)]
    rfl
  rw [exec_regWrite, hr.run.trans (execOp_refuse hr.len hchk)]
  exact ⟨_, rfl, refused_in_turn (q := writeReq c R.QCP_MZ_KEYS v) hr.turn (Nat.zero_le _)⟩

end Sys2Proof.Machine

section
open Sys2Proof.Machine

/-- Settles O25: reads, writes without and with PERSIST, the order of pairs, and the enable of a key that is not loaded. -/
theorem registersAreReadAndWritten : Obligations.RegistersAreReadAndWritten :=
  ⟨regRead_reads, fun _ _ _ => rfl, regWrite_applies, regWrite_persists, applyPairs_cons, regWrite_unloaded⟩

end

namespace Sys2Proof.Machine

open Sys2Proof

/-! A frame is taken from the buffer of TC7 (R130, R150). -/

theorem exec_qcpFrameRx (p : Fin 8) (s : State) : exec (.qcpFrameRx p) s =
    .next (match s.rxTake p.val 7 with | some (f, t) => t.qcpRx p f.bytes | none => s) := rfl

/-- The state once the oldest frame of TC7 has left its buffer. -/
def State.qcpTaken (s : State) (p : Nat) (r : List RxFrame) : State :=
  (s.setPort p { s.port p with rxq := kset (s.port p).rxq 7 r }).xoffCheck p

theorem qcpFrameRx_takes {p : Fin 8} {s : State} {f : RxFrame} {r : List RxFrame} (h : kgetD (s.port p.val).rxq 7 [] = f :: r) :
    exec (.qcpFrameRx p) s = .next ((s.qcpTaken p.val r).qcpRx p f.bytes) := by
  simp only [exec_qcpFrameRx, State.rxTake, h]
  rfl

theorem xoffCheck_qcp (s : State) (p : Nat) : (s.xoffCheck p).qcp = s.qcp := by
  simp only [State.xoffCheck]
  split <;> rfl

/-- What the control port sees of a part: its mailboxes, the registers of QCP and of the part's number, the time, and what survives a reset. -/
structure QcpSame (s t : State) : Prop where
  qcp : t.qcp = s.qcp
  regs : ∀ a, a / 0x10000 = 4 ∨ a / 0x10000 = 12 → t.reg a = s.reg a
  tmu : t.tmu = s.tmu
  nv : t.nv = s.nv
  legs : t.legs = s.legs

theorem qcpSame_qcpTaken (s : State) {p : Nat} (hp : p < 8) (r : List RxFrame) : QcpSame s (s.qcpTaken p r) :=
  have h := xoffOnly_xoffCheck (s.setPort p { s.port p with rxq := kset (s.port p).rxq 7 r }) p
  ⟨xoffCheck_qcp _ _, fun a ha => h.regs a (by simp only [R.MAC_PAUSED]; omega), h.tmu, h.nv, h.legs⟩

section same
variable {s t : State} (h : QcpSame s t)
include h

theorem QcpSame.sess_eq (m : Nat) : t.sess m = s.sess m := by unfold State.sess; rw [h.qcp]
theorem QcpSame.loc_eq : t.loc = s.loc := by unfold State.loc; rw [h.tmu]
theorem QcpSame.fld_eq {f : Fld} (hf : f.addr / 0x10000 = 4 ∨ f.addr / 0x10000 = 12) : t.fld f = s.fld f := by
  unfold State.fld; rw [h.regs _ hf]
theorem QcpSame.dev_eq : t.dev = s.dev := h.fld_eq (f := R.TND_CFG_DEVNO) (.inr rfl)

end same

/-! The rows of R150. -/

section rows
variable {s : State} {p : Fin 8} {f b : Bytes} (hb : f.drop (parseEth f).off = b)
include hb

theorem qcpRx_short (h : b.length < 32) : s.qcpRx p f = s.bump R.QCP_MALFORM_CNT := by
  subst hb
  simp only [State.qcpRx, h, true_or, if_true]

omit hb in
/-- The condition of the first row of R150, of a frame that is whole and of the class of commands. -/
theorem not_malformed (hl : 32 + num b 10 2 ≤ b.length) (h0 : u8 b 0 = 0x11) :
    ¬ (b.length < 32 ∨ b.length < 32 + num b 10 2 ∨ u8 b 0 / 16 ≠ 1 ∨ (u8 b 0 % 16 ≠ 1 ∧ u8 b 0 % 16 ≠ 4)) := by
  rw [h0]; omega

theorem qcpRx_otherDevice (hl : 32 + num b 10 2 ≤ b.length) (h0 : u8 b 0 = 0x11) (hd : num b 12 4 % 4096 ≠ s.dev) :
    s.qcpRx p f = s.bump R.QCP_DEVMISS_CNT := by
  have hm := not_malformed hl h0
  subst hb
  simp only [State.qcpRx, hm, hd, if_false, ne_eq, not_false_eq_true, if_true]

theorem qcpRx_session (hl : 32 + num b 10 2 ≤ b.length) (h0 : u8 b 0 = 0x11) (hd : num b 12 4 % 4096 = s.dev) (hn : num b 2 2 ≠ 0)
    (hon : (s.sess (num b 2 2 % 256)).st = .on) (hg : (s.sess (num b 2 2 % 256)).gen = num b 2 2 / 256)
    (hp : (s.sess (num b 2 2 % 256)).port = p.val) (hs : (s.sess (num b 2 2 % 256)).mac = (parseEth f).src) :
    s.qcpRx p f = s.sessFrame (num b 2 2 % 256) b := by
  have hw := not_malformed hl h0
  subst hb
  simp only [State.qcpRx, hw, hd, hn, hon, hg, hp, hs, if_false, ne_eq, not_true_eq_false, or_self, reduceCtorEq, not_false_eq_true, and_false]

end rows

/-! A frame of a session that is ON (R150, R158, R160). -/

/-- The command that a frame holds. -/
def cmdOf (b : Bytes) : CmdFrame := ⟨u8 b 0 % 16 == 4, tb (u8 b 1) 7, num b 4 4, u8 b 8, u8 b 9, sub b 32 (num b 10 2)⟩

theorem cmdOf_bulk {b : Bytes} (h0 : u8 b 0 = 0x11) : (cmdOf b).bulk = false := by
  simp only [cmdOf, h0]; rfl

section session
variable {s : State} {m : Nat}

theorem sessFrame_badTag {b : Bytes} (ht : tagOk (s.sess m).ks b = false) : s.sessFrame m b = s.bump R.QCP_TAGFAIL_CNT := by
  simp only [State.sessFrame, ht, if_true]

theorem sessFrame_on {b : Bytes} (hon : (s.sess m).st = .on) (ht : tagOk (s.sess m).ks b = true) :
    s.sessFrame m b = (s.renewLease m).bySeq m (cmdOf b) := by
  have hst : ¬ ((s.sess m).st = .starting ∧ ((cmdOf b).bulk = true ∨ (cmdOf b).fam * 256 + (cmdOf b).op ≠ 0x0102 ∨ (cmdOf b).seq ≠ 1)) := by
    rw [hon]; exact fun k => nomatch k.1
  simp only [State.sessFrame, ht, Bool.true_eq_false, if_false]
  exact if_neg hst

/-- A session whose lease ends at a given time. -/
def Session.until (x : Session) (e : Nat) : Session := { x with leaseEnd := e }

@[simp] theorem Session.until_ring (x : Session) (e : Nat) : (x.until e).ring = x.ring := rfl
@[simp] theorem Session.until_out (x : Session) (e : Nat) : (x.until e).out = x.out := rfl
@[simp] theorem Session.until_ks (x : Session) (e : Nat) : (x.until e).ks = x.ks := rfl
@[simp] theorem Session.until_expect (x : Session) (e : Nat) : (x.until e).expect = x.expect := rfl
@[simp] theorem Session.until_replies (x : Session) (e : Nat) : (x.until e).replies = x.replies := rfl
@[simp] theorem Session.until_cmdUsed (x : Session) (e : Nat) : (x.until e).cmdUsed = x.cmdUsed := rfl

/-- A session whose lease ends at a given time, with another ring, another sequence expected and other frames to send. Its parts are told
here for any values: at the values of a frame they are sums and remainders, which no check by evaluation should meet. -/
def Session.served (x : Session) (e : Nat) (ring : List CmdFrame) (expect : Nat) (out : List Bytes) : Session :=
  { x with leaseEnd := e, ring := ring, expect := expect, out := out }

section served
variable (x : Session) (e : Nat) (ring : List CmdFrame) (expect : Nat) (out : List Bytes)

@[simp] theorem Session.served_ring : (x.served e ring expect out).ring = ring := rfl
@[simp] theorem Session.served_expect : (x.served e ring expect out).expect = expect := rfl
@[simp] theorem Session.served_leaseEnd : (x.served e ring expect out).leaseEnd = e := rfl
@[simp] theorem Session.served_out : (x.served e ring expect out).out = out := rfl
theorem Session.until_enters : { x.until e with ring := ring, expect := expect } = x.served e ring expect x.out := rfl
theorem Session.until_sends : { x.until e with out := out } = x.served e x.ring x.expect out := rfl

end served

/-- When a lease that restarts now ends. -/
def State.leaseFrom (s : State) (x : Session) : Nat := s.loc + min x.lease (s.fld R.QCP_CFG_LEASE_MAX) * secI

/-- The session of a mailbox once its lease has restarted. -/
def State.leased (s : State) (m : Nat) : Session := (s.sess m).until (s.leaseFrom (s.sess m))

theorem renewLease_on (hon : (s.sess m).st = .on) : s.renewLease m = s.setSess m (s.leased m) := if_pos hon

/-- The distance of a frame from the sequence expected (R160). -/
def Session.dist (x : Session) (seq : Nat) : Nat := (seq + 2 ^ 32 - x.expect) % 2 ^ 32

section command
variable {f : CmdFrame} (hb : f.bulk = false)
include hb

theorem bySeq_expected (h : f.seq = (s.sess m).expect) : s.bySeq m f = s.toRing m f true := by
  have hd : (f.seq + 2 ^ 32 - (s.sess m).expect) % 2 ^ 32 = 0 := by rw [h, Nat.add_sub_cancel_left, Nat.mod_self]
  simp only [State.bySeq, hb, hd, Bool.false_eq_true, false_and, if_false, and_self, if_true]

theorem bySeq_ahead (h0 : 0 < (s.sess m).dist f.seq) (h1 : (s.sess m).dist f.seq < 2 ^ 31) : s.bySeq m f = s.bump R.QCP_SEQ_CNT := by
  rw [Session.dist] at h0 h1
  simp only [State.bySeq, hb, Bool.false_eq_true, false_and, if_false]
  rw [if_neg fun k => absurd k.1 h0.ne', if_neg fun k => absurd k.1 (Nat.not_le.2 h1)]

theorem bySeq_duplicate (h0 : 2 ^ 31 ≤ (s.sess m).dist f.seq) (h1 : 2 ^ 32 - (s.sess m).dist f.seq ≤ 16) : s.bySeq m f = s.resend m f.seq := by
  rw [Session.dist] at h0 h1
  simp only [State.bySeq, hb, Bool.false_eq_true, false_and, if_false]
  rw [if_neg fun k => by omega, if_pos ⟨h0, h1⟩]

end command

/-- A frame for which slots are free enters the ring; the doorbell rings (R150, R191). -/
theorem toRing_enters {f : CmdFrame} {adv : Bool} (h : (s.sess m).cmdUsed + slotsOf f.payload.length ≤ 64) :
    s.toRing m f adv =
      let t := (s.setSess m { s.sess m with
        ring := (s.sess m).ring ++ [f], expect := if adv then ((s.sess m).expect + 1) % 2 ^ 32 else (s.sess m).expect }).bump R.QCP_RX_CNT
      t.setReg (R.QCP_DB_CMD (m / 32)) (putBit (t.reg (R.QCP_DB_CMD (m / 32))) (m % 32) true) := by
  simp only [State.toRing, Nat.not_lt.2 h, if_false]

theorem resend_found {seq : Nat} {r : Reply} {g : Bytes} {gs : List Bytes} (h : (s.sess m).replies.find? (fun y => y.seq == seq) = some r)
    (hg : r.frames = g :: gs) : s.resend m seq = (s.bump R.QCP_DUP_CNT).setSess m
      { s.sess m with out := (s.sess m).out ++ dupFrame (s.sess m).ks g :: (if r.size ≤ 65536 then gs else []) } := by
  simp only [State.resend, h, hg]

/-- A bit that has been put into a register is read there. -/
theorem tb_putBit (v : Nat) {i : Nat} (h : i < 32) : tb (putBit v i true % 2 ^ 32) i = true := by
  rw [putBit, tb_eq_testBit, Nat.testBit_mod_two_pow, testBit_putBits]
  simp [h]

theorem dbCmd_ne {k a : Nat} (hk : k < 8) (ha : 0x40040 ≤ a ∨ a < 0x40020) : R.QCP_DB_CMD k ≠ a := by
  simp only [R.QCP_DB_CMD]; omega

/-- Renewing a lease touches the registers of no block. -/
@[simp] theorem reg_setSess (s : State) (m : Nat) (x : Session) (a : Nat) : (s.setSess m x).reg a = s.reg a := rfl

/-- A command with the sequence expected, for which slots are free, enters the ring of its session. -/
theorem expected_enters {f : CmdFrame} (hm : m < 256) (hb : f.bulk = false) (hon : (s.sess m).st = .on) (hseq : f.seq = (s.sess m).expect)
    (hroom : (s.sess m).cmdUsed + slotsOf f.payload.length ≤ 64) : ∃ t, (s.renewLease m).bySeq m f = t ∧
      t.sess m = (s.sess m).served (s.leaseFrom (s.sess m)) ((s.sess m).ring ++ [f]) (((s.sess m).expect + 1) % 2 ^ 32) (s.sess m).out ∧
      tb (t.reg (R.QCP_DB_CMD (m / 32))) (m % 32) = true ∧ t.reg R.QCP_RX_CNT = (s.reg R.QCP_RX_CNT + 1) % 2 ^ 32 ∧
      (∀ j, j ≠ m → t.sess j = s.sess j) ∧ t.nv = s.nv ∧ t.legs = s.legs := by
  have hx : (s.setSess m (s.leased m)).sess m = s.leased m := State.sess_setSess_same _ _ _
  have hr : (s.leased m).ring = (s.sess m).ring := Session.until_ring _ _
  have he : (s.leased m).expect = (s.sess m).expect := Session.until_expect _ _
  have hu : (s.leased m).cmdUsed = (s.sess m).cmdUsed := Session.until_cmdUsed _ _
  rw [renewLease_on hon, bySeq_expected hb (by rw [hx, he]; exact hseq), toRing_enters (by rw [hx, hu]; exact hroom), hx, hr, he, if_pos rfl]
  refine ⟨_, rfl, ?_, ?_, ?_, fun j hj => ?_, rfl, rfl⟩
  · rw [State.sess_setReg, State.sess_bump, State.sess_setSess_same]
    exact Session.until_enters _ _ _ _
  · rw [State.reg_setReg_same]
    exact tb_putBit _ (Nat.mod_lt _ (by decide))
  · rw [State.reg_setReg_ne _ _ (dbCmd_ne (by omega) (.inl (by decide))), State.reg_bump_same, reg_setSess, reg_setSess]
  · rw [State.sess_setReg, State.sess_bump, State.sess_setSess_ne _ _ hj.symm, State.sess_setSess_ne _ _ hj.symm]

/-- A command further on than the one expected is dropped. -/
theorem ahead_counted {f : CmdFrame} (hb : f.bulk = false) (hon : (s.sess m).st = .on) (h0 : 0 < (s.sess m).dist f.seq)
    (h1 : (s.sess m).dist f.seq < 2 ^ 31) : (s.renewLease m).bySeq m f = (s.renewLease m).bump R.QCP_SEQ_CNT := by
  have hd : ((s.renewLease m).sess m).dist f.seq = (s.sess m).dist f.seq := by
    rw [renewLease_on hon, State.sess_setSess_same, Session.dist, Session.dist, State.leased, Session.until_expect]
  exact bySeq_ahead hb (by rw [hd]; exact h0) (by rw [hd]; exact h1)

/-- A duplicate of one of the last commands has its reply sent again. -/
theorem duplicate_resends {f : CmdFrame} {r : Reply} {g : Bytes} {gs : List Bytes} (hb : f.bulk = false) (hon : (s.sess m).st = .on)
    (h0 : 2 ^ 31 ≤ (s.sess m).dist f.seq) (h1 : 2 ^ 32 - (s.sess m).dist f.seq ≤ 16)
    (hr : (s.sess m).replies.find? (fun y => y.seq == f.seq) = some r) (hg : r.frames = g :: gs) : ∃ t, (s.renewLease m).bySeq m f = t ∧
      t.sess m = (s.sess m).served (s.leaseFrom (s.sess m)) (s.sess m).ring (s.sess m).expect
        ((s.sess m).out ++ dupFrame (s.sess m).ks g :: (if r.size ≤ 65536 then gs else [])) ∧
      t.reg R.QCP_DUP_CNT = (s.reg R.QCP_DUP_CNT + 1) % 2 ^ 32 ∧ (∀ j, j ≠ m → t.sess j = s.sess j) ∧ t.nv = s.nv := by
  have hx : (s.setSess m (s.leased m)).sess m = s.leased m := State.sess_setSess_same _ _ _
  have hd : ((s.setSess m (s.leased m)).sess m).dist f.seq = (s.sess m).dist f.seq := by
    rw [hx, Session.dist, Session.dist, State.leased, Session.until_expect]
  have ho : (s.leased m).out = (s.sess m).out := Session.until_out _ _
  have hk : (s.leased m).ks = (s.sess m).ks := Session.until_ks _ _
  have hy : (s.leased m).replies = (s.sess m).replies := Session.until_replies _ _
  rw [renewLease_on hon, bySeq_duplicate hb (by rw [hd]; exact h0) (by rw [hd]; exact h1),
    resend_found (by rw [hx, hy]; exact hr) hg, hx, ho, hk]
  refine ⟨_, rfl, (State.sess_setSess_same _ _ _).trans (Session.until_sends _ _ _), ?_, fun j hj => ?_, rfl⟩
  · rw [reg_setSess, State.reg_bump_same, reg_setSess]
  · rw [State.sess_setSess_ne _ _ hj.symm, State.sess_bump, State.sess_setSess_ne _ _ hj.symm]

end session

end Sys2Proof.Machine

section
open Sys2Proof.Machine

/-- Settles O26: the rows of R150 by which a frame is dropped, and those of a session's command by its distance from the sequence expected. -/
theorem framesReachTheirSession : Obligations.FramesReachTheirSession := by
  intro p s f r hq
  have hs := qcpSame_qcpTaken s p.isLt r
  have hx := qcpFrameRx_takes hq
  have hlease (x : Session) : (s.qcpTaken p.val r).leaseFrom x = s.leaseFrom x := by
    rw [State.leaseFrom, hs.loc_eq, hs.fld_eq (f := R.QCP_CFG_LEASE_MAX) (.inl rfl), State.leaseFrom]
  have hcnt (a : Nat) (ha : a / 0x10000 = 4) : (s.qcpTaken p.val r).reg a = s.reg a := hs.regs a (.inl ha)
  intro t0 e b m x
  have hbd : f.bytes.drop (parseEth f.bytes).off = b := rfl
  have hm256 : m < 256 := Nat.mod_lt _ (by decide)
  have hsx : (s.qcpTaken p.val r).sess m = x := hs.sess_eq m
  have ht0 : t0 = s.qcpTaken p.val r := rfl
  clear_value b t0
  subst ht0
  refine ⟨fun h => ?_, fun hl h0 hd => ?_, fun hl h0 hd hn hon hg hp hmac => ?_⟩
  · exact hx.trans (congrArg _ (qcpRx_short hbd h))
  · exact hx.trans (congrArg _ (qcpRx_otherDevice hbd hl h0 (by rw [hs.dev_eq]; exact hd)))
  have hon' : ((s.qcpTaken p.val r).sess m).st = .on := by rw [hsx]; exact hon
  rw [qcpRx_session hbd hl h0 (by rw [hs.dev_eq]; exact hd) hn hon' (by rw [hs.sess_eq]; exact hg) (by rw [hs.sess_eq]; exact hp)
    (by rw [hs.sess_eq]; exact hmac)] at hx
  have hb := cmdOf_bulk h0
  refine ⟨fun ht => ?_, fun ht he hr => ?_, fun ht _ h1 h2 => ?_, fun y g gs ht _ h1 h2 hy hg => ?_⟩ <;> rw [← hsx] at ht
  · exact hx.trans (congrArg _ (sessFrame_badTag ht))
  · obtain ⟨t, htr, hsess, hdb, hrx, hothers, hnv, hlegs⟩ :=
      expected_enters (f := cmdOf b) hm256 hb hon' (by rw [hsx]; exact he) (by rw [hsx]; exact hr)
    rw [sessFrame_on hon' ht, htr] at hx
    rw [hlease, hsx] at hsess
    refine ⟨t, hx, ?_, by rw [hsess, Session.served_expect], by rw [hsess, Session.served_leaseEnd, State.leaseFrom], hdb, hrx.trans (by rw [hcnt _ rfl]), fun j hj => (hothers j hj).trans (hs.sess_eq j),
      hnv.trans hs.nv, hlegs.trans hs.legs⟩
    rw [hsess, Session.served_ring, cmdOf, h0, he]
    rfl
  · rw [sessFrame_on hon' ht, ahead_counted (f := cmdOf b) hb hon' (by rw [hsx]; exact h1) (by rw [hsx]; exact h2)] at hx
    exact hx
  · obtain ⟨t, htr, hsess, hdup, hothers, hnv⟩ :=
      duplicate_resends (f := cmdOf b) hb hon' (by rw [hsx]; exact h1) (by rw [hsx]; exact h2) (by rw [hsx]; exact hy) hg
    rw [sessFrame_on hon' ht, htr] at hx
    rw [hlease, hsx] at hsess
    exact ⟨t, hx, by rw [hsess, Session.served_out], hdup.trans (by rw [hcnt _ rfl]), by rw [hsess, Session.served_ring], fun j hj => (hothers j hj).trans (hs.sess_eq j), hnv.trans hs.nv⟩

end

namespace Sys2Proof.Machine

open Sys2Proof

/-! A record that cannot be committed (R172): the statement does not bound the mailbox of the command whose record is begun. The words of
doorbell bits are counted by mailbox number, and that of mailbox 2240, which no part has, is the counter of the records that failed. -/

/-- A RING_FEED of mailbox 2240, bulk frames to come, whose record is begun. -/
def strayFeed : Jrnl := ⟨2240, 1, 0x0A05, [], [], true⟩

/-- A part whose PRS has failed while that record is begun, its session ON. -/
def strayRecord : State :=
  { State.reset with
    nv := { State.reset.nv with prsFailed := true }
    qcp := { State.reset.qcp with jrnl := some strayFeed, sess := [(2240, { Session.init with st := .on })] } }

theorem dbCmd_stray : R.QCP_DB_CMD (strayFeed.mbox / 32) = R.QCP_JRNL_FAIL_CNT := by decide

/-- The failed record is counted, and then the bit of the empty command ring is cleared in the counter. -/
theorem strayRecord_not_counted {t : State} (h : exec .journalCommit strayRecord = .next t) : t.reg R.QCP_JRNL_FAIL_CNT = 0 := by
  have hx : exec .journalCommit strayRecord =
      .next ((strayRecord.setQcp { strayRecord.qcp with jrnl := none }).commitFail strayFeed) := rfl
  rw [hx] at h
  injection h with h
  subst h
  decide +kernel

end Sys2Proof.Machine

section
open Sys2Proof.Machine

/-- Refutes O33: nothing bounds the mailbox of the record. In the part `strayRecord` the bulk frames of a RING_FEED of mailbox 2240 leave
its ring, which clears the doorbell bit of that mailbox, and this is the lowest bit of the counter of failed records: it ends at 0, not at 1. -/
theorem not_aRecordThatFailsChangesNothing : ¬ Obligations.ARecordThatFailsChangesNothing := by
  intro h
  obtain ⟨t, hx, -, -, -, -, -, hcount, -⟩ := h.1 strayRecord strayFeed rfl (.inl rfl) (by decide +kernel) (by decide +kernel)
  rw [strayRecord_not_counted hx] at hcount
  revert hcount
  decide +kernel

end

namespace Sys2Proof.Machine

open Sys2Proof

/-! The record of a journaled command (R171, R420, R474). -/

/-- A record that is committed is the next in number and ends the journal; none of the counters of QCP but that of lost events tells it. -/
theorem commitRec_keeps {s u : State} {r : JRec} (h : s.commitRec r = some u) :
    u.nv.jrnl = s.nv.jrnl ++ [r] ∧ u.nv.recno = r.recno ∧ u.reg R.QCP_JRNL_CNT = s.reg R.QCP_JRNL_CNT := by
  have hreg (a : State) (n : Nat) : ((a.prsWrote n).setReg R.PRS_RECNO r.recno).reg R.QCP_JRNL_CNT = a.reg R.QCP_JRNL_CNT := by
    rw [State.reg_setReg_ne _ _ (by decide), reg_prsWrote (by decide) (by decide) (by decide)]
  simp only [State.commitRec] at h
  split at h
  · cases h
  · injection h with h
    subst h
    split
    · rw [(only_raise List.mem_cons_self).nv_eq (L := [R.PRS_EVT]), reg_raise_ne (by decide) (by decide), hreg]
      exact ⟨rfl, rfl, rfl⟩
    · rw [hreg]
      exact ⟨rfl, rfl, rfl⟩

/-- A part with no record begun. -/
def State.unbegun (s : State) : State := s.setQcp { s.qcp with jrnl := none }

/-- What the commit of a record leaves beside the record `u`: the fate of its session and the count of records. -/
def State.fated (s u : State) (j : Jrnl) : State :=
  (u.fateCommit (s.unbegun.recordOf j).session (s.unbegun.recordOf j).keyId j.seq).bump R.QCP_JRNL_CNT

theorem reg_fated (s u : State) (j : Jrnl) : (s.fated u j).reg R.QCP_JRNL_CNT = (u.reg R.QCP_JRNL_CNT + 1) % 2 ^ 32 := by
  have h (a b c : Nat) : (u.fateCommit a b c).reg R.QCP_JRNL_CNT = u.reg R.QCP_JRNL_CNT := rfl
  rw [State.fated, State.reg_bump_same, h]

theorem sess_fated (s u : State) (j : Jrnl) (m : Nat) : (s.fated u j).sess m = u.sess m := State.sess_bump _ _ _

/-- The state once the record of a command is durable: what is then applied is applied to it. -/
theorem journalCommit_commits {s : State} {j : Jrnl} {d : OpDef} (hj : s.qcp.jrnl = some j) (hd : opTable j.opcode = some d)
    (hp : s.nv.prsFailed = false) (hroom : s.jrnlUsed + 56 + j.payload.length ≤ jrnlMax) :
    ∃ u, s.unbegun.commitRec (s.unbegun.recordOf j) = some u ∧ exec .journalCommit s =
      .next (if j.feeds ∧ ((s.fated u j).sess j.mbox).st = .on then s.fated u j else
        (d.app ((s.fated u j).jctx j) j.plan (s.fated u j) j.payload).finish ((s.fated u j).jctx j) (s.fated u j).dev true) := by
  have hused : s.unbegun.jrnlUsed = s.jrnlUsed := rfl
  have hsize := recordOf_size s.unbegun j
  obtain ⟨u, hu⟩ := commitRec_isSome (s := s.unbegun) (r := s.unbegun.recordOf j) hp (by omega)
  refine ⟨u, hu, ?_⟩
  simp only [State.unbegun] at hu
  rw [exec_journalCommit]
  simp only [execJournalCommit, hj, hu, hd]
  rfl

theorem feeds_iff (j : Jrnl) : j.feeds = true ↔ j.opcode = 0x0A05 ∧ j.bulk = true := by
  simp only [Jrnl.feeds, Bool.and_eq_true, beq_iff_eq]

/-- Only the record of a pattern does not hold the payload as it came (R471). -/
theorem kept_payload {j : Jrnl} (h : j.opcode ≠ 0x0901) : j.kept.1 = j.payload := by
  simp only [Jrnl.kept, h, if_false]

end Sys2Proof.Machine

section
open Sys2Proof.Machine

/-- Settles O32: the commit of the record, and what is applied to the state that it leaves. -/
theorem theRecordComesBeforeTheEffect : Obligations.TheRecordComesBeforeTheEffect := by
  intro s j d hj hd hp hroom
  obtain ⟨u, hu, hx⟩ := journalCommit_commits hj hd hp hroom
  obtain ⟨hjrnl, hrecno, hcount⟩ := commitRec_keeps hu
  have ha := aside_commitRec (m := 0) hu
  have hst : ((s.fated u j).sess j.mbox).st = (s.sess j.mbox).st := (congrArg _ (sess_fated s u j _)).trans (congrArg Prod.fst (commitRec_face hu j.mbox))
  simp only [hst, feeds_iff, and_assoc] at hx
  exact ⟨s.fated u j, s.unbegun.recordOf j, hjrnl, hrecno, rfl, rfl, rfl, rfl, rfl, kept_payload, congrArg (fun e : State => e.qcp.jrnl) ha.rest,
    ha.legs_eq, ha.armed_eq, (reg_fated s u j).trans (congrArg (fun n => (n + 1) % 2 ^ 32) hcount), hx⟩

end

namespace Sys2Proof.Machine

open Sys2Proof

/-! Bulk frames (R602) and codes that no operation has (R165). -/

/-- The oldest frame of a session's ring leaves it; the command that awaited it is not awaiting another yet. -/
def State.bulkTaken (s : State) (m : Nat) (r : List CmdFrame) : State := (s.setSess m { s.sess m with ring := r, bulk := none }).unbell m

theorem bulkTaken_sess_same (s : State) (m : Nat) (r : List CmdFrame) : (s.bulkTaken m r).sess m = { s.sess m with ring := r, bulk := none } := by
  rw [State.bulkTaken, unbell_sess, State.sess_setSess_same]

theorem bulkTaken_aside {m : Nat} (hm : m < 256) (s : State) (r : List CmdFrame) : Aside m s (s.bulkTaken m r) :=
  aside_setSess.trans (aside_unbell hm)

/-- A bulk frame that its command awaits is taken from the head of the ring. -/
theorem bulkFrame_taken {m : Fin 256} {s : State} {k : Bulk} {f : CmdFrame} {r : List CmdFrame} (hon : (s.sess m.val).st = .on)
    (hk : (s.sess m.val).bulk = some k) (hr : (s.sess m.val).ring = f :: r) (hb : f.bulk = true) (hs : f.seq = k.seq) (hj : s.qcp.jrnl = none) :
    exec (.bulkFrame m) s = .next ((s.bulkTaken m.val r).bulkFrame m.val (s.sess m.val).role k f) := by
  have hp : (f.bulk && f.seq == k.seq) = true := by simp [hb, hs]
  have hfind : (s.sess m.val).ring.find? (fun f => f.bulk && f.seq == k.seq) = some f := by rw [hr]; exact List.find?_cons_of_pos hp
  have herase : (s.sess m.val).ring.eraseP (fun g => g.bulk && g.seq == k.seq) = r := by rw [hr]; exact List.eraseP_cons_of_pos hp
  have hgo : ¬ ((s.sess m.val).st ≠ .on ∨ s.qcp.jrnl.isSome = true) := by simp [hon, hj]
  show execBulkFrame m s = _
  simp only [execBulkFrame, hk, hfind, if_neg hgo, herase]
  rfl

/-- A bulk frame with more to come joins the payload of its command. -/
theorem bulkFrame_joins {s : State} {m role : Nat} {k : Bulk} {f : CmdFrame} (hop : k.fam * 256 + k.op ≠ 0x0A05) (hm : f.more = true) :
    s.bulkFrame m role k f = s.setSess m { s.sess m with bulk := some { k with payload := k.payload ++ f.payload } } := by
  simp only [State.bulkFrame, hop, hm, if_true, if_false]

/-- The last bulk frame completes the payload of its command, which is executed. -/
theorem bulkFrame_executes {s : State} {m role : Nat} {k : Bulk} {f : CmdFrame} {d : OpDef} (hop : k.fam * 256 + k.op ≠ 0x0A05) (hm : f.more = false)
    (hd : opTable (k.fam * 256 + k.op) = some d) :
    s.bulkFrame m role k f = execOp d ⟨m, k.seq, k.fam * 256 + k.op, role, false⟩ true s (k.payload ++ f.payload) := by
  simp only [State.bulkFrame, hop, hm, hd, if_false, Bool.false_eq_true]

/-- A code that no operation has is answered in its turn. -/
theorem unknownOperation_run {fam op : Byte} {q : Req} {s : State} (hc : opTable (fam.toNat * 256 + op.toNat) = none)
    (ht : s.turn q.mbox.val q.seq.toNat (fam.toNat * 256 + op.toNat) q.more q.payload = true) : exec (.unknownOperation fam op q) s =
    .next ((s.take q.mbox.val).reply q.mbox.val q.seq.toNat (fam.toNat * 256 + op.toNat) St.unknownOp 0 false []) :=
  congrArg Host.Outcome.next (if_pos ⟨Option.isNone_iff_eq_none.2 hc, ht⟩)

end Sys2Proof.Machine

section
open Sys2Proof.Machine

/-- Settles O31: a bulk frame with more to come, the last one, and a command of an unknown code. -/
theorem bulkFramesAndUnknownCodes : Obligations.BulkFramesAndUnknownCodes := by
  refine ⟨fun m s k f r hon hk hr hb hs hj hop hm => ?_, fun m s k f r d hon hk hr hb hs hj hop hm hd => ?_, fun fam op q s => ?_⟩
  · rw [bulkFrame_taken hon hk hr hb hs hj, bulkFrame_joins hop hm, bulkTaken_sess_same]
    exact ⟨_, rfl, by rw [State.sess_setSess_same], by rw [State.sess_setSess_same], (bulkTaken_aside m.isLt s r).trans aside_setSess⟩
  · rw [bulkFrame_taken hon hk hr hb hs hj, bulkFrame_executes hop hm hd]
    rfl
  · exact fun hc ht => ⟨_, unknownOperation_run hc ht, refused_in_turn ht (Nat.zero_le _)⟩

end

namespace Sys2Proof.Machine

open Sys2Proof

/-! The commands of a session for itself (R158, R159, R166, R174, R187, R189). -/

theorem Aside.hostKeys_eq {m : Nat} {s t : State} (h : Aside m s t) : t.nv.hostKeys = s.nv.hostKeys :=
  (congrArg (fun e : State => e.nv.hostKeys) h.rest : t.beside.nv.hostKeys = s.beside.nv.hostKeys)

/-- A command that is answered OK at once leaves of its mailbox what its effect left, beside the reply. -/
theorem finish_ok_sess {w : State} {c : Ctx} {dev : Nat} {jrn : Bool} {r : Bytes} (hon : (w.sess c.mbox).st = .on) :
    let t := (Done.res w r).finish c dev jrn
    (t.sess c.mbox).mask = (w.sess c.mbox).mask ∧ (t.sess c.mbox).after = (w.sess c.mbox).after ∧ (t.sess c.mbox).st = .on := by
  simp only [Done.finish, Done.res, Bool.false_eq_true, if_false, State.replyAs, hon, State.sess_setSess_same, and_self]

/-- What a command does to its own mailbox only: it is answered OK, and its mailbox holds what it put there. -/
theorem completes_in_mailbox {d : OpDef} {i : Instr} {op : Nat} {q : Req} {s : State} {plan : List Nat} {f : Session → Session}
    (hx : exec i s = .next (runOp d op q s)) (ha : Accepted d op q s plan) (hj : d.jrnl q.payload = false)
    (happ : ∀ c w, d.app c plan w q.payload = Done.ok (w.setSess c.mbox (f (w.sess c.mbox)))) (hf : ∀ x, (f x).face = x.face) :
    let x := f ((s.take q.mbox.val).sess q.mbox.val)
    ∃ t, exec i s = .next t ∧ Aside q.mbox.val s t ∧ Answered false op q St.ok 0 [] s t ∧ (t.sess q.mbox.val).mask = x.mask ∧
      (t.sess q.mbox.val).after = x.after ∧ (t.sess q.mbox.val).st = .on := by
  obtain ⟨hon, hout, -, -⟩ := turn_cases ha.turn
  let v := s.take q.mbox.val
  let w := v.setSess q.mbox.val (f (v.sess q.mbox.val))
  have hw : w.sess q.mbox.val = f (v.sess q.mbox.val) := State.sess_setSess_same _ _ _
  have hface : (w.sess q.mbox.val).face = (s.sess q.mbox.val).face := by rw [hw, hf]; exact take_face _ _
  have hwon : (w.sess (Req.ctx q op s).mbox).st = .on := (face_st hface).trans hon
  have hA : Aside q.mbox.val s w := (aside_take q.mbox.isLt).trans aside_setSess
  obtain ⟨hmask, hafter, hst⟩ := finish_ok_sess (c := Req.ctx q op s) (dev := s.dev) (jrn := false) (r := []) hwon
  refine ⟨_, hx, ?_⟩
  rw [ha.run, hj, happ, dev_eq (aside_take q.mbox.isLt)]
  simp only [Bool.false_eq_true, if_false]
  exact ⟨hA.trans (aside_finish (d := Done.ok w) hwon), finish_out (c := Req.ctx q op s) hface hon hout (Nat.zero_le _), by rw [← hw]; exact hmask,
    by rw [← hw]; exact hafter, hst⟩

/-- What waits for the reply of a command that its session owes (R159, R187). -/
theorem owes_after {d : OpDef} {i : Instr} {op o : Nat} {q : Req} {s : State} {plan : List Nat} (hx : exec i s = .next (runOp d op q s))
    (ha : Accepted d op q s plan) (hj : d.jrnl q.payload = false) (happ : ∀ c w, d.app c plan w q.payload = Done.ok (w.owe c.mbox o q.payload)) :
    ∃ t, exec i s = .next t ∧ Aside q.mbox.val s t ∧ Answered false op q St.ok 0 [] s t ∧ (t.sess q.mbox.val).after = some (o, q.payload) ∧
      (t.sess q.mbox.val).st = .on := by
  obtain ⟨t, ht, haside, hr, -, hafter, hst⟩ := completes_in_mailbox hx ha hj (f := fun x => { x with after := some (o, q.payload) }) happ
    fun _ => rfl
  exact ⟨t, ht, haside, hr, hafter, hst⟩

theorem sessionKeepalive_tells (q : Req) (s : State) (hr : Ready opSessionKeepalive 0x0103 q s) :
    Completes false (.sessionKeepalive q) 0x0103 q s s St.ok 0 (be 2 ((s.take q.mbox.val).leaseLeft q.mbox.val) ++ be 2 0) :=
  completes_taken (plan := []) rfl ⟨hr, rfl⟩ rfl (Nat.zero_le _) rfl (aside_take q.mbox.isLt) rfl

theorem sessionSubscribe_sets (q : Req) (s : State) (hr : Ready opSessionSubscribe 0x0105 q s) : ∃ t, exec (.sessionSubscribe q) s = .next t ∧
    Aside q.mbox.val s t ∧ Answered false 0x0105 q St.ok 0 [] s t ∧ (t.sess q.mbox.val).mask = num q.payload 0 4 := by
  obtain ⟨t, ht, haside, ha, hmask, -, -⟩ := completes_in_mailbox (i := .sessionSubscribe q) (plan := []) rfl ⟨hr, rfl⟩ rfl
    (f := fun x => { x with mask := num q.payload 0 4 }) (fun _ _ => rfl) fun _ => rfl
  exact ⟨t, ht, haside, ha, hmask⟩

/-- The sessions are listed in as many free bytes as the part draws for them. -/
theorem sessionList_lists (q : Req) (s : State) (hr : Ready opSessionList 0x0181 q s) : ∃ r : Bytes,
    r.length = 8 * (s.take q.mbox.val).sessCount .on ∧ Completes false (.sessionList q) 0x0181 q s s.drawn St.ok 0 r :=
  ⟨_, be_length _ _, completes_taken (plan := []) rfl ⟨hr, rfl⟩ rfl (Nat.zero_le _) rfl (aside_take q.mbox.isLt).drawn rfl⟩

theorem muzzleStatus_lists : Does false opMuzzleStatus 0x0182 .muzzleStatus (replied fun _ s =>
    (s.qcp.gates.filter fun g => g.2.closedAt s.loc s.now).flatMap fun g => gateEntry g.1 g.2.release) := by
  refine does_direct (fun _ _ => rfl) (fun _ => rfl) fun q s plan _ => acts_of_aside (fun c v hv => ?_) (fun _ hv => hv) fun _ => rfl
  show Done.res _ _ = _
  rw [hv.gates_eq, hv.loc_eq, hv.now_eq]
  rfl

end Sys2Proof.Machine

section
open Sys2Proof.Machine

/-- Settles O28: what is told, what is put into the mailbox, what waits there for the reply, and the two lists. -/
theorem sessionsSpeakOfThemselves : Obligations.SessionsSpeakOfThemselves := by
  refine ⟨sessionKeepalive_tells, sessionSubscribe_sets, fun q s hr => owes_after (plan := []) rfl ⟨hr, rfl⟩ rfl fun _ _ => rfl, fun q s ha => ?_,
    fun q s ha => ?_, sessionList_lists, muzzleStatus_lists⟩
  · obtain ⟨t, ht, haside, hr, hafter, -⟩ := owes_after (i := .sessionKeySet q) (o := 0x0108) rfl ha rfl fun _ _ => rfl
    exact ⟨t, ht, haside, hr, hafter, haside.hostKeys_eq⟩
  · obtain ⟨t, ht, haside, hr, hafter, -⟩ := owes_after (i := .sessionKeyClear q) (o := 0x0109) rfl ha rfl fun _ _ => rfl
    exact ⟨t, ht, haside, hr, hafter, haside.hostKeys_eq⟩

end

namespace Sys2Proof.Machine

open Sys2Proof

/-! The gates, as a muzzle closes them (R181, R183). -/

/-- A gate of which `old` is known, when a muzzle closes it from `cl` on. -/
def shutGate (now : Inst) (old : Option GateSt) (cl : Nat) (rel : Option Inst) : GateSt :=
  let live := match old with | some g => (match g.release with | none => true | some o => decide (now < o)) | none => false
  ⟨match old with | some g => if live then min g.closeLoc cl else cl | none => cl, mergeRelease old rel now⟩

/-- The gates once those named are closed from `cl` on. -/
def shutGates (now : Inst) (cl : Nat) (rel : Option Inst) (l : List Nat) (gates : KV GateSt) : KV GateSt :=
  l.foldl (fun g c => kset g c (shutGate now (kget g c) cl rel)) gates

theorem shutGate_closeLoc_le (now : Inst) (old : Option GateSt) (cl : Nat) (rel : Option Inst) : (shutGate now old cl rel).closeLoc ≤ cl := by
  cases old with
  | none => exact Nat.le_refl _
  | some g =>
    simp only [shutGate]
    split
    · exact Nat.min_le_right _ _
    · exact Nat.le_refl _

/-- A gate is closed no later than `cl`, and held when the muzzle gives no release. -/
def ClosedBy (cl : Nat) (rel : Option Inst) (gates : KV GateSt) (c : Nat) : Prop :=
  ∃ g, kget gates c = some g ∧ g.closeLoc ≤ cl ∧ (rel = none → g.release = none)

theorem closedBy_shutGate (now : Inst) (cl : Nat) (rel : Option Inst) (gates : KV GateSt) (c : Nat) :
    ClosedBy cl rel (kset gates c (shutGate now (kget gates c) cl rel)) c :=
  ⟨_, kget_kset_same _ _ _, shutGate_closeLoc_le _ _ _ _, fun h => by subst h; rfl⟩

/-- Closing other gates, or this one again, leaves it closed. -/
theorem ClosedBy.shutGates {now : Inst} {cl c : Nat} {rel : Option Inst} (l : List Nat) :
    ∀ {gates : KV GateSt}, ClosedBy cl rel gates c → ClosedBy cl rel (shutGates now cl rel l gates) c := by
  induction l with
  | nil => exact id
  | cons j l ih =>
    intro gates h
    refine ih ?_
    by_cases hj : j = c
    · subst hj
      exact closedBy_shutGate _ _ _ _ _
    · obtain ⟨g, hg, hle, hrel⟩ := h
      exact ⟨g, by rw [kget_kset_ne _ _ hj]; exact hg, hle, hrel⟩

theorem shutGates_mem {now : Inst} {cl c : Nat} {rel : Option Inst} {l : List Nat} (h : c ∈ l) (gates : KV GateSt) :
    ClosedBy cl rel (shutGates now cl rel l gates) c := by
  induction l generalizing gates with
  | nil => exact absurd h List.not_mem_nil
  | cons j l ih =>
    rcases List.mem_cons.1 h with rfl | h
    · exact (closedBy_shutGate now cl rel gates c).shutGates l
    · exact ih h _

theorem shutGates_not_mem {now : Inst} {cl c : Nat} {rel : Option Inst} {l : List Nat} (h : c ∉ l) (gates : KV GateSt) :
    kget (shutGates now cl rel l gates) c = kget gates c := by
  induction l generalizing gates with
  | nil => rfl
  | cons j l ih =>
    obtain ⟨hj, hl⟩ := not_or.1 (fun k => h (List.mem_cons.2 k))
    exact (ih hl _).trans (kget_kset_ne _ _ (Ne.symm hj))

/-- Closing gates changes the gates only, once a record of the muzzle is due. -/
theorem closeGates_eq (cl : Nat) (rel : Option Inst) (l : List Nat) : ∀ s : State, s.qcp.mzDirty = true →
    l.foldl (fun t c => t.closeGate c cl rel) s = s.setQcp { s.qcp with gates := shutGates s.now cl rel l s.qcp.gates, mzDirty := true } := by
  induction l with
  | nil => intro s hd; rw [← hd]; rfl
  | cons c l ih => exact fun s _ => ih _ rfl

/-! A muzzle frame is checked (R178, R179). -/

theorem exec_muzzleFrame (s : State) : exec .muzzleFrame s = execMuzzleFrame s := rfl

theorem muzzleFrame_format {s : State} {z : MzIn} {r : List MzIn} (hz : s.qcp.mzIn = z :: r) (hf : muzzleFormat z.bytes = false) :
    exec .muzzleFrame s = .next ((s.setQcp { s.qcp with mzIn := r }).bump R.QCP_MZ_FMT_CNT) := by
  simp only [exec_muzzleFrame, execMuzzleFrame, hz, hf, if_true]

/-- A frame for this part that passes every check is accepted. -/
theorem muzzleFrame_accepts {s : State} {z : MzIn} {r : List MzIn} {key : MzKey} (hz : s.qcp.mzIn = z :: r) (hf : muzzleFormat z.bytes = true)
    (hd : num z.bytes 12 4 = s.dev) (hk : kget s.nv.mzKeys (u8 z.bytes 33) = some key) (he : tb (s.fld R.QCP_MZ_KEYS_EN) (u8 z.bytes 33) = true)
    (hc : key.ctr < num z.bytes 4 6) (ht : num z.bytes 16 8 = (sipHash24 key.key (z.bytes.take 16 ++ sub z.bytes 32 16)).toNat) :
    exec .muzzleFrame s = .next ((s.setQcp { s.qcp with mzIn := r }).muzzleAccept z.bytes z.at_ z.loc) := by
  simp only [exec_muzzleFrame, execMuzzleFrame, hz, hf, hd, hk, he, Nat.not_le.2 hc, ← ht, Bool.true_eq_false, if_false, true_or, not_true_eq_false,
    ne_eq]

/-- The release that a muzzle gives (R178, R183). -/
def mzRelease (b : Bytes) (at_ : Inst) : Option Inst := if num b 44 4 = 0 then none else some (at_ + nsI 200 + nsI (num b 44 4 * 1000000))

/-- The state once a muzzle's counter is raised and it is counted (R179). -/
def State.mzCounted (s : State) (b : Bytes) : State :=
  let key := kgetD s.nv.mzKeys (u8 b 33) ⟨[], 0⟩
  let t := s.setNv { s.nv with mzKeys := kset s.nv.mzKeys (u8 b 33) { key with ctr := num b 4 6 } }
  (t.setQcp { t.qcp with mzDirty := true }).bump R.QCP_MZ_ACC_CNT

/-- The state once the gates that a muzzle names are closed too; the events follow. -/
def State.muzzled (s : State) (b : Bytes) (at_ : Inst) (loc : Nat) : State :=
  let t := s.mzCounted b
  t.setQcp { t.qcp with
    gates := shutGates t.now (loc + nsI 200) (mzRelease b at_) (gatesNamed (sub b 32 16)) t.qcp.gates, mzDirty := true }

theorem muzzleAccept_eq (s : State) (b : Bytes) (at_ : Inst) (loc : Nat) : s.muzzleAccept b at_ loc =
    ((s.muzzled b at_ loc).raise R.QCP_EVT 4).eventAll 31 0x01F1 4 (be 1 (u8 b 33) ++ zeros 3 ++ be 8 (num b 4 6) ++ sub b 32 16) := by
  have h := closeGates_eq (loc + nsI 200) (mzRelease b at_) (gatesNamed (sub b 32 16)) (s.mzCounted b) rfl
  exact congrArg (fun t : State => (t.raise R.QCP_EVT 4).eventAll 31 0x01F1 4 (be 1 (u8 b 33) ++ zeros 3 ++ be 8 (num b 4 6) ++ sub b 32 16)) h

theorem muzzleAccept_only (s : State) (b : Bytes) (at_ : Inst) (loc : Nat) :
    Only [R.QCP_EVT] (s.muzzled b at_ loc) (s.muzzleAccept b at_ loc) ∧ tb ((s.muzzleAccept b at_ loc).reg R.QCP_EVT) 2 = true := by
  rw [muzzleAccept_eq]
  generalize s.muzzled b at_ loc = t
  refine ⟨(only_raise List.mem_cons_self).trans only_eventAll, ?_⟩
  rw [(only_eventAll (L := [])).regs _ List.not_mem_nil (by decide)]
  exact tb_raise (i := 2) t (by decide) (by decide)

/-- Events and the registers that report them leave a muzzle's keys, and the muzzles that wait, the gates and their record. -/
theorem Only.muzzle_eq {L : List Nat} {s t : State} (h : Only L s t) :
    t.nv.mzKeys = s.nv.mzKeys ∧ t.qcp.mzIn = s.qcp.mzIn ∧ t.qcp.mzDirty = s.qcp.mzDirty ∧ t.qcp.gates = s.qcp.gates :=
  ⟨congrArg Nv.mzKeys h.nv_eq, (congrArg (fun u : State => u.qcp.mzIn) h.rest : t.bare.qcp.mzIn = s.bare.qcp.mzIn),
    (congrArg (fun u : State => u.qcp.mzDirty) h.rest : t.bare.qcp.mzDirty = s.bare.qcp.mzDirty),
    (congrArg (fun u : State => u.qcp.gates) h.rest : t.bare.qcp.gates = s.bare.qcp.gates)⟩

theorem muzzled_key {s : State} {b : Bytes} {key : MzKey} (hk : kget s.nv.mzKeys (u8 b 33) = some key) (at_ : Inst) (loc : Nat) :
    kget (s.muzzled b at_ loc).nv.mzKeys (u8 b 33) = some { key with ctr := num b 4 6 } := by
  have e : (s.muzzled b at_ loc).nv.mzKeys = kset s.nv.mzKeys (u8 b 33) { kgetD s.nv.mzKeys (u8 b 33) ⟨[], 0⟩ with ctr := num b 4 6 } := rfl
  rw [e, kget_kset_same, kgetD, hk]
  rfl

theorem muzzled_counted (s : State) (b : Bytes) (at_ : Inst) (loc : Nat) :
    (s.muzzled b at_ loc).reg R.QCP_MZ_ACC_CNT = (s.reg R.QCP_MZ_ACC_CNT + 1) % 2 ^ 32 := State.reg_bump_same _ _

/-! A gate opens (R183, R184). -/

/-- The state once the closed ones of the gates named are open; the events follow. -/
def State.opened (s : State) (codes : List Nat) : State :=
  let shut := codes.filter fun c => khas s.qcp.gates c
  s.setQcp { s.qcp with gates := shut.foldl kdel s.qcp.gates, mzDirty := s.qcp.mzDirty || !shut.isEmpty }

theorem only_events {L : List Nat} (l : List Bytes) : ∀ s : State, Only L s (l.foldl (fun u d => u.eventAll 31 0x01F2 4 d) s) := by
  induction l with
  | nil => exact Only.refl L
  | cons d l ih => exact fun s => only_eventAll.trans (ih _)

theorem aside_events {m : Nat} (l : List Bytes) : ∀ s : State, Aside m s (l.foldl (fun u d => u.eventAll 31 0x01F2 4 d) s) := by
  induction l with
  | nil => exact Aside.refl m
  | cons d l ih => exact fun s => aside_eventAll.trans (ih _)

theorem only_openGates (s : State) (codes : List Nat) : Only [] (s.opened codes) (s.openGates codes) := only_events _ _
theorem aside_openGates {m : Nat} (s : State) (codes : List Nat) : Aside m (s.opened codes) (s.openGates codes) := aside_events _ _

theorem opened_one {s : State} {c : Nat} (h : khas s.qcp.gates c = true) :
    s.opened [c] = s.setQcp { s.qcp with gates := kdel s.qcp.gates c, mzDirty := true } := by
  simp only [State.opened, List.filter_cons_of_pos h, List.filter_nil, List.foldl_cons, List.foldl_nil, List.isEmpty_cons, Bool.not_false, Bool.or_true]

theorem Aside.opened {m : Nat} {s t : State} (h : Aside m s t) (codes : List Nat) : Aside m (s.opened codes) (t.opened codes) :=
  ⟨congrArg (fun u : State => u.opened codes) h.rest, h.regs, h.sess⟩

theorem gateRelease_due {g : Gate} {s : State} {c : Nat} {u : Inst} (h : kget s.qcp.gates (Gate.code g) = some ⟨c, some u⟩) (hu : u ≤ s.now) :
    exec (.gateRelease g) s = .next (s.openGates [Gate.code g]) := by
  show execGateRelease g s = _
  simp only [execGateRelease, h, hu, if_true]

theorem gateRelease_early {g : Gate} {s : State} {c : Nat} {u : Inst} (h : kget s.qcp.gates (Gate.code g) = some ⟨c, some u⟩) (hu : s.now < u) :
    exec (.gateRelease g) s = .next s := by
  show execGateRelease g s = _
  simp only [execGateRelease, h, Nat.not_le.2 hu, if_false]

/-! The commands of the muzzle (R184, R186), and its counters (R191). -/

theorem unmuzzle_does : Does false opUnmuzzle 0x0111 .unmuzzle (done fun q s => s.opened (gatesNamed q.payload)) :=
  does_direct (fun _ _ => rfl) (fun _ => rfl) fun _ _ _ _ => acts_of_aside (f := fun v => v.openGates _) (fun _ _ _ => rfl)
    (fun v hv => (hv.opened _).trans (aside_openGates v _)) fun v => (only_openGates v _).face_eq _

/-- The state with another muzzle key, of which a record is due. -/
def State.withMzKey (s : State) (k : Nat) (key : MzKey) : State :=
  (s.setNv { s.nv with mzKeys := kset s.nv.mzKeys k key }).setQcp { s.qcp with mzDirty := true }

theorem Aside.withMzKey {m : Nat} {s t : State} (h : Aside m s t) (k : Nat) (key : MzKey) : Aside m (s.withMzKey k key) (t.withMzKey k key) :=
  ⟨congrArg (fun u : State => u.withMzKey k key) h.rest, h.regs, h.sess⟩

theorem muzzleKeySet_does : Does false opMuzzleKeySet 0x0112 .muzzleKeySet (done fun q s => s.withMzKey (u8 q.payload 0) ⟨sub q.payload 4 16, 0⟩) :=
  does_direct (fun _ _ => rfl) (fun _ => rfl) fun _ _ _ _ => acts_of_aside (f := fun v => v.withMzKey _ _) (fun _ _ _ => rfl)
    (fun _ hv => hv.withMzKey _ _) fun _ => rfl

theorem mzCtrHi_eq (k : Nat) : R.QCP_MZ_CTR_HI k = 0x400A0 + k * 8 := rfl

theorem readAct_mzCtrHi {k : Nat} (hk : k < 8) (s : State) (i2c : Bool) : s.readAct i2c (R.QCP_MZ_CTR_HI k) = s.mzLatch i2c k := by
  have hw : R.QCP_MZ_CTR_HI 0 ≤ R.QCP_MZ_CTR_HI k ∧ R.QCP_MZ_CTR_HI k < R.QCP_MZ_CTR_HI 8 ∧ R.QCP_MZ_CTR_HI k % 8 = R.QCP_MZ_CTR_HI 0 % 8 := by
    simp only [mzCtrHi_eq]; omega
  have hd : (R.QCP_MZ_CTR_HI k - R.QCP_MZ_CTR_HI 0) / 8 = k := by simp only [mzCtrHi_eq]; omega
  have h1 : R.QCP_MZ_CTR_HI k ≠ R.TMU_TIME_SEC_HI := by simp only [mzCtrHi_eq, R.TMU_TIME_SEC_HI]; omega
  have h2 : ¬ (0x20200 ≤ R.QCP_MZ_CTR_HI k ∧ R.QCP_MZ_CTR_HI k < 0x202A0 ∧ R.QCP_MZ_CTR_HI k % 0x20 = 8) := by simp only [mzCtrHi_eq]; omega
  have h3 (n : Nat) : ¬ (0x30000 ≤ R.QCP_MZ_CTR_HI k ∧ R.QCP_MZ_CTR_HI k < 0x38000 ∧ R.QCP_MZ_CTR_HI k % 0x1000 = n) := by
    simp only [mzCtrHi_eq]; omega
  rw [State.readAct, if_neg h1, if_neg h2, if_neg (h3 _), if_neg (h3 _), if_pos hw, hd]

theorem qcpView_mzCtrHi {k : Nat} (hk : k < 8) (s : State) (i2c : Bool) :
    qcpView s i2c (R.QCP_MZ_CTR_HI k) = some ((kgetD s.nv.mzKeys k ⟨[], 0⟩).ctr / 2 ^ 32) := by
  have hne (a : Nat) (ha : a < 0x400A0 ∨ 0x400E0 ≤ a) : R.QCP_MZ_CTR_HI k ≠ a := by simp only [mzCtrHi_eq]; omega
  have hw : R.QCP_MZ_CTR_HI 0 ≤ R.QCP_MZ_CTR_HI k ∧ R.QCP_MZ_CTR_HI k < R.QCP_MZ_CTR_HI 8 := by simp only [mzCtrHi_eq]; omega
  have hd : (R.QCP_MZ_CTR_HI k - R.QCP_MZ_CTR_HI 0) / 8 = k := by simp only [mzCtrHi_eq]; omega
  have h0 : (R.QCP_MZ_CTR_HI k - R.QCP_MZ_CTR_HI 0) % 8 = 0 := by simp only [mzCtrHi_eq]; omega
  simp only [qcpView]
  rw [if_neg (hne _ (by decide)), if_neg (hne _ (by decide)), if_neg (hne _ (by decide)), if_neg (hne _ (by decide)), if_neg (hne _ (by decide)),
    if_neg (hne _ (by decide)), if_neg (hne _ (by decide)), if_neg (hne _ (by decide)), if_neg (hne _ (by decide)), if_pos hw, if_pos h0, hd]

theorem readReg_mzCtrHi {k : Nat} (hk : k < 8) (s : State) (i2c : Bool) :
    s.readReg i2c (R.QCP_MZ_CTR_HI k) = (kgetD s.nv.mzKeys k ⟨[], 0⟩).ctr / 2 ^ 32 % 2 ^ 32 := by
  have hr : (regAt (R.QCP_MZ_CTR_HI k)).isSome := by
    have h := mz_ctr_hi_defined k hk
    rwa [mzCtrHi_eq, Nat.zero_mul, Nat.add_zero, Nat.mul_comm] at h
  have h4 : R.QCP_MZ_CTR_HI k / 0x10000 = 4 := by simp only [mzCtrHi_eq]; omega
  obtain ⟨r, hr⟩ := Option.isSome_iff_exists.1 hr
  simp only [State.readReg, hr, State.view, h4, qcpView_mzCtrHi hk, Option.getD_some]

theorem Aside.mzKeys_eq {m : Nat} {s t : State} (h : Aside m s t) : t.nv.mzKeys = s.nv.mzKeys :=
  (congrArg (fun u : State => u.nv.mzKeys) h.rest : t.beside.nv.mzKeys = s.beside.nv.mzKeys)

theorem Aside.mzLatch {m : Nat} {s t : State} (h : Aside m s t) (i2c : Bool) (k : Nat) : Aside m (s.mzLatch i2c k) (t.mzLatch i2c k) := by
  cases i2c
  · exact ⟨congrArg (fun u : State => u.mzLatch false k) h.rest, h.regs, h.sess⟩
  · exact ⟨congrArg (fun u : State => u.mzLatch true k) h.rest, h.regs, h.sess⟩

theorem mzLatch_eq (s : State) (i2c : Bool) (k : Nat) : s.mzLatch i2c k =
    let v := BitVec.ofNat 32 (kgetD s.nv.mzKeys k ⟨[], 0⟩).ctr
    s.setQcp (if i2c then { s.qcp with mzLatI := kset s.qcp.mzLatI k v } else { s.qcp with mzLatQ := kset s.qcp.mzLatQ k v }) := by
  cases i2c <;> rfl

theorem qcpMzCtrHiRead_reads (k : Fin 8) : Reads (fun p => .qcpMzCtrHiRead k p) (R.QCP_MZ_CTR_HI k.val)
    (fun i2c s =>
      let v := BitVec.ofNat 32 (kgetD s.nv.mzKeys k.val ⟨[], 0⟩).ctr
      s.setQcp (if i2c then { s.qcp with mzLatI := kset s.qcp.mzLatI k.val v } else { s.qcp with mzLatQ := kset s.qcp.mzLatQ k.val v }))
    (fun _ s => (kgetD s.nv.mzKeys k.val ⟨[], 0⟩).ctr / 2 ^ 32 % 2 ^ 32) := by
  refine reads_of_readAct (fun _ _ => rfl) (by rw [mzCtrHi_eq]; omega) (by rw [mzCtrHi_eq]; omega)
    (fun i2c s => (readAct_mzCtrHi k.isLt s i2c).trans (mzLatch_eq s i2c k.val)) (fun i2c s => readReg_mzCtrHi k.isLt _ i2c) (fun _ _ _ => rfl)
    (fun _ _ => rfl) (fun m s u h => ?_) (fun m s u h => by rw [h.mzKeys_eq]) fun _ _ => rfl
  have hl := h.mzLatch false k.val
  rw [mzLatch_eq, mzLatch_eq] at hl
  exact hl

end Sys2Proof.Machine

section
open Sys2Proof.Machine

/-- Settles O30: the check of a muzzle frame, the gates that an accepted one closes, how they open, and the muzzle's records and keys. -/
theorem theMuzzleClosesAndOpensGates : Obligations.TheMuzzleClosesAndOpensGates := by
  refine ⟨fun s z r => muzzleFrame_format, fun s z r key => ?_, fun g s c u h hu => ?_, fun g s c u => gateRelease_early,
    fun s hd => congrArg Host.Outcome.next (if_pos hd), fun s hn => congrArg Host.Outcome.next (if_neg hn), unmuzzle_does, muzzleKeySet_does,
    qcpMzCtrHiRead_reads⟩
  · intro b hz hf hd hk he hc ht
    obtain ⟨honly, hevt⟩ := muzzleAccept_only (s.setQcp { s.qcp with mzIn := r }) b z.at_ z.loc
    obtain ⟨hkeys, hin, hdirty, hgates⟩ := honly.muzzle_eq
    refine ⟨_, muzzleFrame_accepts hz hf hd hk he hc ht, ?_, hin, hdirty, fun c hmem => ?_, fun c hmem => ?_, ?_, hevt, honly.legs_eq⟩
    · rw [hkeys]
      exact muzzled_key hk z.at_ z.loc
    · obtain ⟨g, hg, hle, hrel⟩ := shutGates_mem (now := s.now) (cl := z.loc + nsI 200) (rel := mzRelease b z.at_) hmem s.qcp.gates
      exact ⟨g, by rw [hgates]; exact hg, hle, fun h0 => hrel (if_pos h0)⟩
    · rw [hgates]
      exact shutGates_not_mem hmem s.qcp.gates
    · rw [honly.regs _ (by decide) (by decide)]
      exact muzzled_counted _ _ _ _
  · refine ⟨_, gateRelease_due h hu, ?_, trivial⟩
    rw [← opened_one (c := Gate.code g) (by rw [khas, h]; rfl)]
    exact only_openGates s _

end

namespace Sys2Proof.Machine

open Sys2Proof

/-! A frame of QCP leaves (R157). -/

theorem reg_enqueueTx (s : State) (p : Nat) (f : TxFrame) (a : Nat) : (s.enqueueTx p f).reg a = s.reg a := by
  rw [enqueueTx_frame]; rfl

theorem reg_txRequest (s : State) {p : Nat} (hp : p < 8) (f : TxFrame) {a : Nat} (ha : a / 0x10000 ≠ 3) : (s.txRequest p f).1.reg a = s.reg a := by
  have hb : R.MAC_TX_BADLEN_CNT p ≠ a := by simp only [R.MAC_TX_BADLEN_CNT]; omega
  have hpad : R.MAC_TX_PAD_CNT p ≠ a := by simp only [R.MAC_TX_PAD_CNT]; omega
  simp only [State.txRequest]
  split
  · exact State.reg_bump_ne _ hb
  · split
    · rw [reg_enqueueTx]; exact State.reg_bump_ne _ hpad
    · exact reg_enqueueTx _ _ _ _

section sendQcp
variable (s : State) (port mac : Nat) (tags : List (BitVec 32)) (b : Bytes)

/-- A frame that leaves changes the queues of the ports, and counters. -/
theorem sendQcp_frame : s.sendQcp port mac tags b =
    { s with ports := (s.sendQcp port mac tags b).ports, regs := (s.sendQcp port mac tags b).regs } := by
  simp only [State.sendQcp]
  rw [txRequest_frame]
  rfl

theorem sendQcp_sess (j : Nat) : (s.sendQcp port mac tags b).sess j = s.sess j := by rw [sendQcp_frame]; rfl
theorem sendQcp_nv : (s.sendQcp port mac tags b).nv = s.nv := by rw [sendQcp_frame]
theorem sendQcp_qcp : (s.sendQcp port mac tags b).qcp = s.qcp := by rw [sendQcp_frame]
theorem sendQcp_fns : (s.sendQcp port mac tags b).fns = s.fns := by rw [sendQcp_frame]

variable {port}

theorem sendQcp_counted (hp : port < 8) : (s.sendQcp port mac tags b).reg R.QCP_TX_CNT = (s.reg R.QCP_TX_CNT + 1) % 2 ^ 32 := by
  rw [State.sendQcp, State.reg_bump_same, reg_txRequest s hp _ (by decide)]

theorem reg_sendQcp (hp : port < 8) {a : Nat} (ha : a / 0x10000 ≠ 3) (hne : R.QCP_TX_CNT ≠ a) :
    (s.sendQcp port mac tags b).reg a = s.reg a := by
  rw [State.sendQcp, State.reg_bump_ne _ hne, reg_txRequest s hp _ ha]

end sendQcp

/-! A session opens (R154, R155). -/

/-- The session that a request opens in a mailbox, under a host key. -/
def State.newSess (s : State) (r : OpenReq) (k : HostKey) (m : Nat) : Session :=
  let g := (s.sess m).gen % 255 + 1
  let np := s.drawBytes 16
  let nh := sub r.payload 4 16
  { Session.init with
    st := .starting, gen := g, keyId := u8 r.payload 0, role := k.role, port := r.port.val, mac := r.mac.toNat, tags := r.tags, nh := nh, np := np
    ks := hmac256 k.key (be 4 0x51435053 ++ nh ++ np ++ be 2 (g * 256 + m)), lease := num r.payload 2 2, proveBy := s.loc + secI, expect := 1 }

/-- The state once that session is STARTING; the reply leaves then. -/
def State.sessOpened (s : State) (r : OpenReq) (k : HostKey) (m : Nat) : State :=
  (s.drawn.setSess m (s.newSess r k m)).went (.sess m) .off .starting

section opening
variable {s : State} {r : OpenReq} {k : HostKey} {m : Nat} (hk : kget s.nv.hostKeys (u8 r.payload 0) = some k)
include hk

/-- A request with bulk frames to come is answered E_BADLEN. -/
theorem openSession_more (hm : r.more = true) : s.openSession r = s.openReply r k.key 0 St.badLen 0 [] := by
  simp only [State.openSession, hk, hm, if_true]

theorem openSession_opens (hl : r.payload.length = 20) (hm : r.more = false) (hmode : s.mode = .service) (hc : s.sessCount .starting < 32)
    (hf : s.freeMbox k.role = some m) : s.openSession r =
      (s.sessOpened r k m).openReply r k.key ((s.newSess r k m).gen * 256 + m) St.ok 0 (s.newSess r k m).np := by
  have hlen : lenIs 20 r.payload = none := if_pos hl
  have hpath : FnState.path .off .starting false = [.starting] := rfl
  simp only [State.openSession, hk, hm, hlen, hmode, hf, Nat.not_le.2 hc, Bool.false_eq_true, if_false, ne_eq, not_true_eq_false, false_and,
    reduceCtorEq, report_eq_went hpath]
  rfl

/-- What an opened session leaves: its mailbox, the reply that is sent, and the report. -/
theorem openSession_gives (hl : r.payload.length = 20) (hm : r.more = false) (hmode : s.mode = .service) (hc : s.sessCount .starting < 32)
    (hf : s.freeMbox k.role = some m) : (s.openSession r).sess m = s.newSess r k m ∧ (∀ j, j ≠ m → (s.openSession r).sess j = s.sess j) ∧
      (s.openSession r).nv = s.nv ∧ (s.openSession r).qcp.opens = s.qcp.opens ∧ (s.openSession r).qcp.openUsed = s.qcp.openUsed ∧
      (s.openSession r).fns = s.fns ++ [⟨.sess m, .off, .starting, s.now⟩] ∧
      (s.openSession r).reg R.QCP_TX_CNT = (s.reg R.QCP_TX_CNT + 1) % 2 ^ 32 ∧
      ∀ a, a / 0x10000 = 4 → R.QCP_TX_CNT ≠ a → (s.openSession r).reg a = s.reg a := by
  have hreg (a : Nat) : (s.sessOpened r k m).reg a = s.reg a := rfl
  have hother (j : Nat) (hj : j ≠ m) : (s.sessOpened r k m).sess j = s.sess j := State.sess_setSess_ne _ _ (Ne.symm hj)
  rw [openSession_opens hk hl hm hmode hc hf, State.openReply, sendQcp_sess, sendQcp_nv, sendQcp_qcp, sendQcp_fns, sendQcp_counted _ _ _ _ r.port.isLt,
    hreg]
  exact ⟨State.sess_setSess_same _ _ _, fun j hj => (sendQcp_sess _ _ _ _ _ j).trans (hother j hj), rfl, rfl, rfl, rfl, rfl,
    fun a ha hne => (reg_sendQcp _ _ _ _ r.port.isLt (by omega) hne).trans (hreg a)⟩

end opening

theorem newSess_np_length (s : State) (r : OpenReq) (k : HostKey) (m : Nat) : (s.newSess r k m).np.length = 16 := be_length _ _

theorem newSess_ks (s : State) (r : OpenReq) (k : HostKey) (m : Nat) : (s.newSess r k m).ks =
    hmac256 k.key (be 4 0x51435053 ++ (s.newSess r k m).nh ++ (s.newSess r k m).np ++ be 2 ((s.newSess r k m).gen * 256 + m)) := rfl

/-- A request that QCP_FRAME_RX took is the oldest of those that wait. -/
theorem sessionOpen_taken {s : State} {r : OpenReq} {rest : List OpenReq} (hj : s.qcp.jrnl = none) (ho : s.qcp.opens = r :: rest) :
    exec (.sessionOpen (.open0 r)) s = .next ((s.setQcp { s.qcp with opens := rest }).openSession r) := by
  show execSessionOpen (.open0 r) s = _
  simp only [execSessionOpen, hj, ho, Option.isSome_none, Bool.false_eq_true, if_false, if_true]

/-- A request that is taken now uses the allowance of session 0 (log entry 7). -/
theorem sessionOpen_now {s : State} {r : OpenReq} {k : HostKey} (hj : s.qcp.jrnl = none) (ho : s.qcp.opens = []) (hm : s.mode = .service)
    (hu : s.openUsed < s.fld R.QCP_CFG_OPEN_RATE) (hk : kget s.nv.hostKeys (u8 r.payload 0) = some k) (hl : r.payload.length = 20) :
    exec (.sessionOpen (.open0 r)) s = .next ((s.useOpen.bump R.QCP_RX_CNT).openSession r) := by
  have hspent : s.openSpent = false := decide_eq_false (Nat.not_le.2 hu)
  have hkey : khas s.nv.hostKeys (u8 r.payload 0) ∧ r.payload ≠ [] := ⟨by rw [khas, hk]; rfl, by rintro h; rw [h] at hl; cases hl⟩
  show execSessionOpen (.open0 r) s = _
  simp only [execSessionOpen, hj, ho, hm, Option.isSome_none, Bool.false_eq_true, if_false, reduceCtorEq, State.openNow, hspent, if_pos hkey]

/-- SESSION_OPEN inside a session is refused (R156). -/
theorem sessionOpen_inSession (q : Req) (s : State) (hr : Ready opRefused 0x0101 q s) : ∃ t, exec (.sessionOpen (.inSession q)) s = .next t ∧
    Aside q.mbox.val s t ∧ Answered false 0x0101 q St.state 0xFFFF [] s t := by
  refine ⟨_, rfl, ?_⟩
  show Aside _ _ (runOp opRefused 0x0101 q s) ∧ Answered _ _ _ _ _ _ _ (runOp opRefused 0x0101 q s)
  rw [hr.run, execOp_refuse rfl rfl]
  exact refused_in_turn (by rw [hr.whole]; exact hr.turn) (Nat.le_refl _)

/-! A session proves its key (R154, R156). -/

/-- The proof that a session in STARTING asks for. -/
def State.proof (s : State) (m : Nat) : Bytes :=
  hmac256 (kgetD s.nv.hostKeys (s.sess m).keyId ⟨[], 0⟩).key (be 4 0x51435031 ++ (s.sess m).nh ++ (s.sess m).np ++ be 2 ((s.sess m).num m))

/-- A session in STARTING whose proof comes now: the request is counted, the next sequence expected. -/
def State.proofTaken (s : State) (m : Nat) : State := (s.setSess m { s.sess m with expect := 2 }).bump R.QCP_RX_CNT

theorem sessionProve_taken {q : Req} {s : State} (hst : (s.sess q.mbox.val).st = .starting) (hj : s.qcp.jrnl = none) (hs : q.seq.toNat = 1)
    (hr : (s.sess q.mbox.val).ring = []) (he : (s.sess q.mbox.val).expect = 1) :
    exec (.sessionProve q) s = .next ((s.proofTaken q.mbox.val).prove q.mbox.val q.more q.payload) := by
  show execSessionProve q s = _
  simp only [execSessionProve, hst, if_true, hj, hs, ne_eq, not_true_eq_false, Option.isSome_none, Bool.false_eq_true, or_self, if_false, hr, he, State.proofTaken]

theorem proofTaken_sess_same (s : State) (m : Nat) : (s.proofTaken m).sess m = { s.sess m with expect := 2 } := by
  rw [State.proofTaken, State.sess_bump, State.sess_setSess_same]

theorem proofTaken_sess_ne (s : State) {m j : Nat} (h : j ≠ m) : (s.proofTaken m).sess j = s.sess j := by
  rw [State.proofTaken, State.sess_bump, State.sess_setSess_ne _ _ (Ne.symm h)]

theorem proofTaken_proof (s : State) (m : Nat) : (s.proofTaken m).proof m = s.proof m := by
  rw [State.proof, proofTaken_sess_same]
  rfl

/-- A session whose proof is right, before its reply is written: ON, with its lease. -/
def Session.proved (x : Session) (lease e : Nat) : Session := { x with st := .on, lease := lease, leaseEnd := e }

section proved
variable (x : Session) (lease e : Nat)

theorem Session.proved_parts : (x.proved lease e).st = .on ∧ (x.proved lease e).gen = x.gen ∧ (x.proved lease e).role = x.role ∧
    (x.proved lease e).lease = lease ∧ (x.proved lease e).leaseEnd = e := ⟨rfl, rfl, rfl, rfl, rfl⟩

end proved

/-- The session of a mailbox with its lease granted (R158). -/
def State.granted (s : State) (m : Nat) : Session :=
  (s.sess m).proved (s.grant (s.sess m).lease) (s.loc + s.grant (s.sess m).lease * secI)

/-- The state once a session is ON and has its entry in the fate table; the reply is written then. -/
def State.sessProved (s : State) (m : Nat) (x : Session) : State := ((s.setSess m x).went (.sess m) .starting .on).newFate m

section prove
variable {s : State} {m : Nat} {p : Bytes} (hl : p.length = 32)
include hl

theorem prove_right (hp : p = s.proof m) : s.prove m false p =
    (s.sessProved m (s.granted m)).reply m 1 0x0102 St.ok 0 false (be 2 (s.grant (s.sess m).lease) ++ be 1 (s.sess m).role) := by
  have hpath : FnState.path .starting .on false = [.on] := rfl
  unfold State.proof at hp
  rw [State.prove, if_neg (by decide), if_neg (not_not.2 hl), if_neg (not_not.2 hp)]
  simp only [report_eq_went hpath]
  rfl

theorem prove_wrong (hp : p ≠ s.proof m) : ∃ f, s.prove m false p = (s.sendQcp (s.sess m).port (s.sess m).mac (s.sess m).tags f).closeSess m := by
  unfold State.proof at hp
  rw [State.prove, if_neg (by decide), if_neg (not_not.2 hl), if_pos hp]
  exact ⟨_, rfl⟩

end prove

theorem sess_setNv (s : State) (x : Nv) (j : Nat) : (s.setNv x).sess j = s.sess j := rfl
theorem sess_went (s : State) (f : FnId) (a b : FnState) (j : Nat) : (s.went f a b).sess j = s.sess j := rfl

theorem sess_sessProved (s : State) (m : Nat) (x : Session) (j : Nat) : (s.sessProved m x).sess j = (s.setSess m x).sess j := by
  rw [State.sessProved, State.newFate, sess_setNv, sess_went]

theorem sessProved_hostKeys (s : State) (m : Nat) (x : Session) : (s.sessProved m x).nv.hostKeys = s.nv.hostKeys := by
  simp only [State.sessProved, State.newFate, State.setNv, State.went, State.setSess, State.setQcp]

theorem sessProved_fates (s : State) (m : Nat) (x : Session) :
    (s.sessProved m x).nv.fates.getLast? = some ⟨s.reg R.FRP_BOOT, x.num m, x.keyId, 1, 0⟩ := by
  rw [State.sessProved, State.newFate, sess_went, State.sess_setSess_same]
  exact List.getLast?_concat

/-- A session whose reply is written keeps its name, its role and its lease. -/
def Session.SameLease (x y : Session) : Prop :=
  y.st = x.st ∧ y.gen = x.gen ∧ y.role = x.role ∧ y.lease = x.lease ∧ y.leaseEnd = x.leaseEnd

theorem nv_setSess (s : State) (m : Nat) (x : Session) : (s.setSess m x).nv = s.nv := rfl

/-- A reply that is written changes the waiting frames of its own mailbox only. -/
theorem reply_on_gives {s : State} {m : Nat} (hon : (s.sess m).st = .on) (seq op st det : Nat) (jrn : Bool) (r : Bytes) :
    let t := s.reply m seq op st det jrn r
    (s.sess m).SameLease (t.sess m) ∧ (∀ j, j ≠ m → t.sess j = s.sess j) ∧ t.nv = s.nv := by
  simp only [State.reply, State.replyAs, hon, State.sess_setSess_same, nv_setSess]
  exact ⟨⟨hon.symm, rfl, rfl, rfl, rfl⟩, fun j hj => State.sess_setSess_ne _ _ (Ne.symm hj), trivial⟩

/-! A session ends (R156, R158). -/

/-- The doorbell bit of an empty command ring is cleared. -/
def State.unbelled (s : State) (m : Nat) : State := s.setReg (R.QCP_DB_CMD (m / 32)) (putBit (s.reg (R.QCP_DB_CMD (m / 32))) (m % 32) false)

theorem unbell_setSess {s : State} {m : Nat} {x : Session} (h : x.ring = []) : (s.setSess m x).unbell m = (s.setSess m x).unbelled m := by
  rw [State.unbell, State.sess_setSess_same, h]
  rfl

/-- A mailbox that is free, with the generation of the session that had it. -/
def Session.freed (x : Session) : Session := { Session.init with gen := x.gen }

theorem sess_unbelled (s : State) (m j : Nat) : (s.unbelled m).sess j = s.sess j := by rw [State.unbelled, State.sess_setReg]

theorem reg_unbelled (s : State) {m a : Nat} (h : R.QCP_DB_CMD (m / 32) ≠ a) : (s.unbelled m).reg a = s.reg a := State.reg_setReg_ne _ _ h

theorem closeSess_starting {s : State} {m : Nat} (h : (s.sess m).st = .starting) :
    s.closeSess m = ((s.setSess m (s.sess m).freed).unbelled m).went (.sess m) .starting .off := by
  rw [State.closeSess, h]
  exact congrArg (fun t : State => t.went (.sess m) .starting .off) (unbell_setSess rfl)

theorem closeSess_stopping {s : State} {m : Nat} (h : (s.sess m).st = .stopping) :
    s.closeSess m = ((s.setSess m (s.sess m).freed).unbelled m).went (.sess m) .stopping .off := by
  rw [State.closeSess, h]
  exact congrArg (fun t : State => t.went (.sess m) .stopping .off) (unbell_setSess rfl)

theorem proveTimeout_closes {m : Fin 256} {s : State} (hst : (s.sess m.val).st = .starting) (hp : (s.sess m.val).proveBy ≤ s.loc)
    (hr : (s.sess m.val).ring = []) : exec (.sessionProveTimeout m) s =
    .next (((s.setSess m.val (s.sess m.val).freed).unbelled m.val).went (.sess m.val) .starting .off) := by
  rw [← closeSess_starting hst]
  exact congrArg Host.Outcome.next (if_pos ⟨hst, hp, by rw [hr]; rfl⟩)

/-! A lease runs out (R158). -/

theorem leaseExpiry_due {m : Fin 256} {s : State} (hon : (s.sess m.val).st = .on) (hl : (s.sess m.val).leaseEnd ≤ s.loc) :
    exec (.leaseExpiry m) s = .next (((s.stopSess m.val).bump R.QCP_LEASE_EXP_CNT).raise R.QCP_EVT 2) :=
  congrArg Host.Outcome.next (if_pos ⟨hon, hl⟩)

/-- A session in STOPPING: of what it had, its name, its role and the command that still runs. -/
def Session.stopping (x : Session) : Session :=
  { Session.init with gen := x.gen, keyId := x.keyId, role := x.role, st := .stopping, defer := x.defer, after := x.after }

/-- The state once a session that was ON is in STOPPING. -/
def State.stoppingSess (s : State) (m : Nat) : State :=
  ((s.setSess m (s.sess m).stopping).unbelled m).went (.sess m) .on .stopping

theorem reg_stoppingSess (s : State) {m a : Nat} (h : R.QCP_DB_CMD (m / 32) ≠ a) : (s.stoppingSess m).reg a = s.reg a := reg_unbelled _ h

theorem stoppingSess_sess_same (s : State) (m : Nat) : (s.stoppingSess m).sess m = (s.sess m).stopping :=
  (sess_unbelled _ m _).trans (State.sess_setSess_same _ _ _)

theorem stoppingSess_sess_ne (s : State) {m j : Nat} (h : j ≠ m) : (s.stoppingSess m).sess j = s.sess j :=
  (sess_unbelled _ m _).trans (State.sess_setSess_ne _ _ (Ne.symm h))

section stop
variable {s : State} {m : Nat} (hon : (s.sess m).st = .on)
include hon

theorem stopSess_eq : s.stopSess m =
    if ((s.sess m).defer || (s.sess m).after.isSome || (match s.qcp.jrnl with | some j => j.mbox == m | none => false)) = true
    then s.stoppingSess m else (s.stoppingSess m).closeSess m := by
  have hpath : FnState.path .on .stopping false = [.stopping] := rfl
  have e : ((s.setSess m (s.sess m).stopping).unbell m).report (.sess m) .on .stopping = s.stoppingSess m := by
    rw [unbell_setSess rfl, report_eq_went hpath, State.stoppingSess]
  rw [← e, State.stopSess, hon]
  rfl

theorem stopSess_waits (hd : (s.sess m).defer = true) : s.stopSess m = s.stoppingSess m := by
  rw [stopSess_eq hon, hd, Bool.true_or, Bool.true_or, if_pos rfl]

theorem stopSess_ends (hd : (s.sess m).defer = false) (ha : (s.sess m).after = none) (hj : s.qcp.jrnl = none) : s.stopSess m =
    (((s.stoppingSess m).setSess m (s.sess m).freed).unbelled m).went (.sess m) .stopping .off := by
  have hf : (s.sess m).stopping.freed = (s.sess m).freed := rfl
  rw [stopSess_eq hon, hd, ha, hj, if_neg (by simp), closeSess_stopping (by rw [stoppingSess_sess_same]; rfl),
    stoppingSess_sess_same, hf]

end stop

/-- A session whose proof is right (R154, R158, R423). -/
theorem prove_right_gives {s : State} {m : Nat} {p : Bytes} (hl : p.length = 32) (hp : p = s.proof m) :
    let t := s.prove m false p
    (s.granted m).SameLease (t.sess m) ∧ (∀ j, j ≠ m → t.sess j = s.sess j) ∧ t.nv.hostKeys = s.nv.hostKeys ∧
      t.nv.fates.getLast? = some ⟨s.reg R.FRP_BOOT, (s.sess m).num m, (s.sess m).keyId, 1, 0⟩ := by
  have hm : (s.sessProved m (s.granted m)).sess m = s.granted m := (sess_sessProved _ _ _ _).trans (State.sess_setSess_same _ _ _)
  have hon : ((s.sessProved m (s.granted m)).sess m).st = .on := by rw [hm]; rfl
  obtain ⟨hsame, hother, hnv⟩ := reply_on_gives hon 1 0x0102 St.ok 0 false (be 2 (s.grant (s.sess m).lease) ++ be 1 (s.sess m).role)
  rw [hm] at hsame
  rw [prove_right hl hp]
  refine ⟨hsame, fun j hj => (hother j hj).trans ?_, by rw [hnv, sessProved_hostKeys], by rw [hnv, sessProved_fates]; rfl⟩
  rw [sess_sessProved, State.sess_setSess_ne _ _ (Ne.symm hj)]

/-- The lease that is granted to a session whose proof comes now. -/
theorem proofTaken_granted (s : State) (m : Nat) : (s.proofTaken m).granted m =
    ({ s.sess m with expect := 2 } : Session).proved (s.grant (s.sess m).lease) (s.loc + s.grant (s.sess m).lease * secI) := by
  have hlease : ((s.proofTaken m).sess m).lease = (s.sess m).lease := by rw [proofTaken_sess_same]
  have hloc : (s.proofTaken m).loc = s.loc := rfl
  have hgrant (n : Nat) : (s.proofTaken m).grant n = s.grant n := by
    have hmax : (s.proofTaken m).fld R.QCP_CFG_LEASE_MAX = s.fld R.QCP_CFG_LEASE_MAX := by
      rw [State.fld, State.proofTaken, State.reg_bump_ne _ (by decide)]; rfl
    rw [State.grant, hmax, State.grant]
  rw [State.granted, hlease, hloc, hgrant, proofTaken_sess_same]

/-- A session that is closed leaves the other mailboxes, and what a reset keeps. -/
theorem closeSess_gives (s : State) (m : Nat) : (s.closeSess m).sess m = (s.sess m).freed ∧ (∀ j, j ≠ m → (s.closeSess m).sess j = s.sess j) ∧
    (s.closeSess m).nv = s.nv := by
  have hsess (j : Nat) : (s.closeSess m).sess j = (s.setSess m (s.sess m).freed).sess j := unbell_sess _ _ _
  have hnv (t : State) : (t.unbell m).nv = t.nv := by
    rw [State.unbell]
    split <;> rfl
  exact ⟨(hsess m).trans (State.sess_setSess_same _ _ _), fun j hj => (hsess j).trans (State.sess_setSess_ne _ _ (Ne.symm hj)), hnv _⟩

/-- A session whose proof is wrong (R156). -/
theorem prove_wrong_gives {s : State} {m : Nat} {p : Bytes} (hl : p.length = 32) (hp : p ≠ s.proof m) : (s.prove m false p).sess m = (s.sess m).freed ∧
    (∀ j, j ≠ m → (s.prove m false p).sess j = s.sess j) ∧ (s.prove m false p).nv = s.nv := by
  obtain ⟨f, hf⟩ := prove_wrong hl hp
  obtain ⟨hm, hj, hnv⟩ := closeSess_gives (s.sendQcp (s.sess m).port (s.sess m).mac (s.sess m).tags f) m
  rw [hf, hm, sendQcp_sess, hnv, sendQcp_nv]
  exact ⟨rfl, fun j k => (hj j k).trans (sendQcp_sess _ _ _ _ _ j), rfl⟩

theorem dbCmd_ne_qcp {m a : Nat} (hm : m < 256) (ha : a < 0x40020 ∨ 0x40040 ≤ a) : R.QCP_DB_CMD (m / 32) ≠ a := by
  simp only [R.QCP_DB_CMD]; omega

/-- A session whose lease runs out while no command of it runs passes STOPPING and is OFF (R158). -/
theorem stopSess_only {s : State} {m : Nat} (hon : (s.sess m).st = .on) (hd : (s.sess m).defer = false) (ha : (s.sess m).after = none)
    (hj : s.qcp.jrnl = none) : Only [R.QCP_DB_CMD (m / 32)]
      (((s.setSess m (s.sess m).freed).went (.sess m) .on .stopping).went (.sess m) .stopping .off) (s.stopSess m) := by
  rw [stopSess_ends hon hd ha hj]
  refine ⟨rfl, fun a hmem _ => ?_, fun j => congrArg Session.quiet ?_⟩
  · have hne : R.QCP_DB_CMD (m / 32) ≠ a := fun e => hmem (List.mem_singleton.2 e.symm)
    exact (reg_unbelled _ hne).trans (reg_stoppingSess s hne)
  · refine (sess_unbelled _ m _).trans ?_
    by_cases h : j = m
    · subst h
      exact (State.sess_setSess_same _ _ _).trans (State.sess_setSess_same _ _ _).symm
    · exact (State.sess_setSess_ne _ _ (Ne.symm h)).trans ((stoppingSess_sess_ne s h).trans (State.sess_setSess_ne _ _ (Ne.symm h)).symm)

/-- What the report of a lease that ran out leaves. -/
theorem leaseExpired_only (t : State) : Only [R.QCP_LEASE_EXP_CNT, R.QCP_EVT] t ((t.bump R.QCP_LEASE_EXP_CNT).raise R.QCP_EVT 2) :=
  (only_bump (by decide)).trans (only_raise (by decide))

theorem leaseExpired_counted (t : State) :
    ((t.bump R.QCP_LEASE_EXP_CNT).raise R.QCP_EVT 2).reg R.QCP_LEASE_EXP_CNT = (t.reg R.QCP_LEASE_EXP_CNT + 1) % 2 ^ 32 := by
  rw [reg_raise_ne (by decide) (by decide), State.reg_bump_same]

end Sys2Proof.Machine

section
open Sys2Proof.Machine

/-- Settles O27: a request that waited and one taken now, SESSION_OPEN in a session, the proof, and the three ways in which a session ends. -/
theorem sessionsOpenProveAndEnd : Obligations.SessionsOpenProveAndEnd := by
  refine ⟨fun s r rest k m hj ho hk hl hm hmode hc hf => ?_, fun s r rest k hj ho hk hm => ?_, fun s r k m hj ho hu hk hl hm hmode hc hf => ?_,
    sessionOpen_inSession, fun q s => ?_, fun m s => proveTimeout_closes, fun m s hon hl hd ha hj => ?_, fun m s hon hl hd => ?_⟩
  · obtain ⟨hsess, hother, hnv, hopens, -, hfns, htx, -⟩ := openSession_gives (s := s.setQcp { s.qcp with opens := rest }) hk hl hm hmode hc hf
    refine ⟨_, sessionOpen_taken hj ho, ?_⟩
    rw [hsess]
    exact ⟨rfl, rfl, rfl, rfl, rfl, rfl, rfl, rfl, rfl, rfl, newSess_np_length _ _ _ _, newSess_ks _ _ _ _, hopens, htx, hother, hnv, hfns⟩
  · rw [sessionOpen_taken hj ho, openSession_more (s := s.setQcp { s.qcp with opens := rest }) hk hm]
  · have hu' : (s.useOpen.bump R.QCP_RX_CNT).qcp.openUsed = s.openUsed + 1 := rfl
    have hfld (f : Fld) (hf : R.QCP_RX_CNT ≠ f.addr) : (s.useOpen.bump R.QCP_RX_CNT).fld f = s.fld f := by
      rw [State.fld, State.reg_bump_ne _ hf]; rfl
    have hfree : (s.useOpen.bump R.QCP_RX_CNT).freeMbox k.role = some m := by
      rw [← hf, State.freeMbox, hfld _ (by decide), State.freeMbox]; rfl
    obtain ⟨hsess, hother, hnv, -, hused, -, -, hreg⟩ := openSession_gives (s := s.useOpen.bump R.QCP_RX_CNT) hk hl hm hmode hc hfree
    refine ⟨_, sessionOpen_now hj ho hmode hu hk hl, ?_⟩
    rw [hsess, hreg _ rfl (by decide), State.reg_bump_same, hused, hu']
    exact ⟨rfl, rfl, rfl, rfl, hother, hnv⟩
  · intro m x k hst hj hseq hring he hm hl
    rw [sessionProve_taken hst hj hseq hring he, hm]
    have hnum : ((s.proofTaken m).sess m).num m = x.num m := by rw [proofTaken_sess_same]; rfl
    have hkey : ((s.proofTaken m).sess m).keyId = x.keyId := by rw [proofTaken_sess_same]
    have hgen : ((s.proofTaken m).sess m).gen = x.gen := by rw [proofTaken_sess_same]
    have hboot : (s.proofTaken m).reg R.FRP_BOOT = s.reg R.FRP_BOOT := State.reg_bump_ne _ (by decide)
    refine ⟨fun hp => ?_, fun hp => ?_⟩ <;> rw [← State.proof, ← proofTaken_proof s] at hp
    · obtain ⟨⟨hst', hgen', hrole, hlease, hend⟩, hother, hkeys, hfates⟩ := prove_right_gives hl hp
      obtain ⟨pst, pgen, prole, please, pend⟩ := Session.proved_parts { s.sess m with expect := 2 } (s.grant x.lease) (s.loc + s.grant x.lease * secI)
      rw [proofTaken_granted] at hst' hgen' hrole hlease hend
      rw [hboot, hnum, hkey] at hfates
      exact ⟨_, rfl, hst'.trans pst, hgen'.trans pgen, hrole.trans prole, hlease.trans please, hend.trans pend,
        fun j hj => (hother j hj).trans (proofTaken_sess_ne s hj), hkeys, hfates⟩
    · obtain ⟨hsess, hother, hnv⟩ := prove_wrong_gives hl hp
      exact ⟨_, rfl, by rw [hsess]; rfl, by rw [hsess]; exact hgen, fun j hj => (hother j hj).trans (proofTaken_sess_ne s hj), hnv⟩
  · have honly := stopSess_only hon hd ha hj
    refine ⟨_, leaseExpiry_due hon hl, (honly.mono (by simp)).trans ((leaseExpired_only _).mono (by simp)), ?_,
      tb_raise (i := 1) _ (by decide) (by decide)⟩
    rw [leaseExpired_counted, honly.regs _ (fun k => dbCmd_ne_qcp m.isLt (.inr (by decide)) (List.mem_singleton.1 k).symm) (by decide)]
    rfl
  · have honly := leaseExpired_only (s.stopSess m.val)
    rw [stopSess_waits hon hd] at honly
    refine ⟨_, leaseExpiry_due hon hl, ?_⟩
    rw [stopSess_waits hon hd, leaseExpired_counted, honly.nv_eq, reg_stoppingSess s (dbCmd_ne_qcp m.isLt (.inr (by decide)))]
    have hq := honly.sess m.val
    rw [stoppingSess_sess_same] at hq
    have hgen : (s.sess m.val).stopping.quiet.gen = (s.sess m.val).gen := rfl
    exact ⟨congrArg Session.st hq, (congrArg Session.defer hq).trans hd, (congrArg Session.gen hq).trans hgen, rfl,
      fun j hj => (honly.sess j).trans (congrArg _ (stoppingSess_sess_ne s hj)), rfl⟩

end

namespace Sys2Proof.Machine

open Sys2Proof

/-! What every command but a few keeps, and of which no law says so for a memory that is not canonical: the queue, the host keys and the boot
number. An operation over the state keeps them when the operations that it is made of do, so there is one lemma for each, in the model's order. -/

/-- The queue, the host keys and the boot number. -/
def State.durable (s : State) : List Instr × KV HostKey × Nat := (s.pending, s.nv.hostKeys, s.nv.boot)

@[simp] theorem State.durable_mk (pending free mode pins nv regs busOut i2cAddr tmu swt ports mdio qcp tmpls sets cpts legs confs armed knl engAcc engQ
    engDis shut pke grn txRes mmu frp gln tnd bal bgw ipx boot fns) :
    State.durable ⟨pending, free, mode, pins, nv, regs, busOut, i2cAddr, tmu, swt, ports, mdio, qcp, tmpls, sets, cpts, legs, confs, armed, knl,
      engAcc, engQ, engDis, shut, pke, grn, txRes, mmu, frp, gln, tnd, bal, bgw, ipx, boot, fns⟩ = (pending, nv.hostKeys, nv.boot) := rfl

@[simp] theorem State.durable_eta (s : State) : (s.pending, s.nv.hostKeys, s.nv.boot) = s.durable := rfl

@[simp] theorem State.durable_ite (c : Prop) [Decidable c] (a b : State) : (if c then a else b).durable = if c then a.durable else b.durable :=
  apply_ite _ _ _ _

@[simp] theorem State.durable_foldl {α : Type} {f : State → α → State} (hf : ∀ t x, (f t x).durable = t.durable) (l : List α) (s : State) :
    (l.foldl f s).durable = s.durable := by
  induction l generalizing s with
  | nil => rfl
  | cons x l ih => exact (ih _).trans (hf s x)

theorem durable_foldl_fst {α β : Type} {f : State × β → α → State × β} (hf : ∀ a x, (f a x).1.durable = a.1.durable) (l : List α)
    (a : State × β) : (l.foldl f a).1.durable = a.1.durable := by
  induction l generalizing a with
  | nil => rfl
  | cons x l ih => exact (ih _).trans (hf a x)

/-- The state that a command reaches from `s`, if it reaches one, has the durable things of `s`. -/
def KeepsDurable (s : State) (o : Host.Outcome State Fault Refusal) : Prop := ∀ t, o = .next t → t.durable = s.durable

theorem keeps_next {s t : State} (h : t.durable = s.durable) : KeepsDurable s (.next t) := fun u hu => by
  injection hu with hu; rw [← hu, h]

/-- Applying the operation keeps the durable things, whatever its plan and payload. -/
def OpDef.KeepsDurable (d : OpDef) : Prop := ∀ (c : Ctx) (plan : List Nat) (s : State) (b : Bytes), (d.app c plan s b).s.durable = s.durable

section
variable {s : State}

theorem eq_of_pair {α : Type} {x : State × α} {u : State} {y : α} (e : x = (u, y)) : x.1 = u := congrArg Prod.fst e

/-! Time unit, ports and the control port: the durable things stay. -/

@[simp] theorem State.setTmu_durable {x : Tmu} : (s.setTmu x).durable = s.durable := rfl

@[simp] theorem State.setSwt_durable {x : Swt} : (s.setSwt x).durable = s.durable := rfl

@[simp] theorem State.setQcp_durable {x : Qcp} : (s.setQcp x).durable = s.durable := rfl

@[simp] theorem State.setPke_durable {x : Pke} : (s.setPke x).durable = s.durable := rfl

@[simp] theorem State.setNv_durable {x : Nv} (h : x.hostKeys = s.nv.hostKeys) (hb : x.boot = s.nv.boot) :
    (s.setNv x).durable = s.durable := by
  rw [State.durable, State.durable, ← h, ← hb]
  rfl

@[simp] theorem State.setGrn_durable {x : Grn} : (s.setGrn x).durable = s.durable := rfl

@[simp] theorem State.setMmu_durable {x : Mmu} : (s.setMmu x).durable = s.durable := rfl

@[simp] theorem State.setReg_durable {a v : Nat} : (s.setReg a v).durable = s.durable := rfl

@[simp] theorem State.setFld_durable (f : Fld) (v : Nat) : (s.setFld f v).durable = s.durable := rfl

@[simp] theorem State.bumpBy_durable (a n : Nat) : (s.bumpBy a n).durable = s.durable := rfl

@[simp] theorem State.bump_durable (a : Nat) : (s.bump a).durable = s.durable := rfl

@[simp] theorem State.bump64_durable (a n : Nat) : (s.bump64 a n).durable = s.durable := rfl

@[simp] theorem State.drawn_durable : s.drawn.durable = s.durable := rfl

@[simp] theorem State.reportVia_durable (f : FnId) (a : FnState) (path : List FnState) : (s.reportVia f a path).durable = s.durable := rfl

@[simp] theorem State.report_durable (f : FnId) (a b : FnState) : (s.report f a b).durable = s.durable := rfl

@[simp] theorem State.reportFault_durable (f : FnId) (a b : FnState) : (s.reportFault f a b).durable = s.durable := rfl

@[simp] theorem State.setSess_durable (m : Nat) (x : Session) : (s.setSess m x).durable = s.durable := rfl

@[simp] theorem State.unbell_durable (m : Nat) : (s.unbell m).durable = s.durable := by simp [State.unbell]

@[simp] theorem State.closeSess_durable (m : Nat) : (s.closeSess m).durable = s.durable := by simp [State.closeSess]

@[simp] theorem State.renewLease_durable (m : Nat) : (s.renewLease m).durable = s.durable := by simp [State.renewLease]

@[simp] theorem State.eventAt_durable (m op block : Nat) (data : Bytes) (at_ : Inst) : (s.eventAt m op block data at_).durable = s.durable := by
  simp [State.eventAt]

@[simp] theorem State.eventTo_durable (m op block : Nat) (data : Bytes) : (s.eventTo m op block data).durable = s.durable := by simp [State.eventTo]

@[simp] theorem State.eventAll_durable (b op block : Nat) (data : Bytes) : (s.eventAll b op block data).durable = s.durable := by
  simp [State.eventAll]

@[simp] theorem State.raise_durable (a mask : Nat) : (s.raise a mask).durable = s.durable := by simp [State.raise]

@[simp] theorem State.replyAs_durable (dev m seq opcode st det : Nat) (jrn : Bool) (result : Bytes) :
    (s.replyAs dev m seq opcode st det jrn result).durable = s.durable := by
  simp only [State.replyAs]
  split <;> simp

@[simp] theorem State.reply_durable (m seq opcode st det : Nat) (jrn : Bool) (result : Bytes) :
    (s.reply m seq opcode st det jrn result).durable = s.durable := by
  simp [State.reply]

@[simp] theorem State.stopSess_durable (m : Nat) : (s.stopSess m).durable = s.durable := by simp [State.stopSess]

@[simp] theorem State.setPort_durable {p : Nat} {x : Port} : (s.setPort p x).durable = s.durable := rfl

@[simp] theorem State.enqueueTx_durable (p : Nat) (f : TxFrame) : (s.enqueueTx p f).durable = s.durable := by simp [State.enqueueTx]

@[simp] theorem State.txRequest_durable (p : Nat) (f : TxFrame) : (s.txRequest p f).1.durable = s.durable := by
  simp only [State.txRequest]
  (repeat' split) <;> simp

@[simp] theorem State.sendQcp_durable (port mac : Nat) (tags : List (BitVec 32)) (b : Bytes) : (s.sendQcp port mac tags b).durable = s.durable := by
  simp [State.sendQcp]

@[simp] theorem State.held_durable : s.held.durable = s.durable := rfl

@[simp] theorem State.restart_durable {c : Nat} : (s.restart c).durable = s.durable := by simp [State.restart]

@[simp] theorem State.stopAll_durable : s.stopAll.durable = s.durable := by simp [State.stopAll]

@[simp] theorem State.setPin_durable (f n : Nat) : (s.setPin f n).durable = s.durable := rfl

@[simp] theorem State.pinArea_durable (pa len : Nat) : (s.pinArea pa len).durable = s.durable := State.durable_foldl (fun _ _ => by simp) _ _

@[simp] theorem State.unpinArea_durable (pa len : Nat) : (s.unpinArea pa len).durable = s.durable := State.durable_foldl (fun _ _ => by simp) _ _

@[simp] theorem State.memSet_durable {pa : Nat} {v : Byte} : (s.memSet pa v).durable = s.durable := rfl

@[simp] theorem State.memWrite_durable (pa : Nat) (b : Bytes) : (s.memWrite pa b).durable = s.durable := State.durable_foldl (fun _ _ => by simp) _ _

@[simp] theorem State.take_durable (m : Nat) : (s.take m).durable = s.durable := by simp [State.take]

@[simp] theorem Done.finish_durable {r : Done} {c : Ctx} {dev : Nat} {jrn : Bool} : (r.finish c dev jrn).durable = r.s.durable := by
  simp [Done.finish]

@[simp] theorem State.replyLate_durable (m seq opcode st det : Nat) (jrn : Bool) (result : Bytes) :
    (s.replyLate m seq opcode st det jrn result).durable = s.durable := by
  simp [State.replyLate]

@[simp] theorem State.counted_durable (cnt evt mask : Nat) : (s.counted cnt evt mask).durable = s.durable := by simp [State.counted]

theorem execOp_durable {d : OpDef} (hd : d.KeepsDurable) (c : Ctx) (bulk : Bool) (s : State) (b : Bytes) :
    (execOp d c bulk s b).durable = s.durable := by
  simp only [execOp]
  (repeat' split) <;> simp [hd c _ s b]

@[simp] theorem State.dropBulk_durable (m seq : Nat) : (s.dropBulk m seq).durable = s.durable := by simp [State.dropBulk]

theorem feedOp_durable {d : OpDef} (hd : d.KeepsDurable) (c : Ctx) (s : State) (b : Bytes) : (feedOp d c s b).durable = s.durable := by
  simp [feedOp, execOp_durable hd]

theorem runOp_durable {d : OpDef} (hd : d.KeepsDurable) (op : Nat) (q : Req) (s : State) : (runOp d op q s).durable = s.durable := by
  simp [runOp, execOp_durable hd, feedOp_durable hd]

@[simp] theorem State.movePhases_durable (d : Nat) : (s.movePhases d).durable = s.durable := rfl

@[simp] theorem State.reanchor_durable (delta : Int) : (s.reanchor delta).durable = s.durable := by simp [State.reanchor]

@[simp] theorem State.becomeValid_durable : s.becomeValid.durable = s.durable := by simp [State.becomeValid]

@[simp] theorem State.updCyc_durable : s.updCyc.durable = s.durable := rfl

@[simp] theorem State.updOver_durable : s.updOver.durable = s.durable := by simp [State.updOver]

@[simp] theorem State.updBudgets_durable : s.updBudgets.durable = s.durable := by simp [State.updBudgets]

@[simp] theorem State.place_durable (c : Cost) (p phi : Nat) : (s.place c p phi).durable = s.durable := rfl

@[simp] theorem State.unplace_durable (c : Cost) (p phi : Nat) : (s.unplace c p phi).durable = s.durable := rfl

@[simp] theorem State.lateAct_durable : s.lateAct.durable = s.durable := by simp [State.lateAct]

@[simp] theorem State.stepTouts_durable (t : Inst) (fwd : Bool) : (s.stepTouts t fwd).durable = s.durable :=
  State.durable_foldl (fun _ _ => by simp) _ _

@[simp] theorem State.stepPlayers_durable (t : Inst) : (s.stepPlayers t).durable = s.durable := rfl

@[simp] theorem State.stepTo_durable (acc' : Nat) : (s.stepTo acc').durable = s.durable := by simp [State.stepTo]

@[simp] theorem State.applyPending_durable : s.applyPending.durable = s.durable := by simp [State.applyPending]

@[simp] theorem State.setSrv_durable (v : Servo) : (s.setSrv v).durable = s.durable := rfl

@[simp] theorem State.applyRate_durable : s.applyRate.durable = s.durable := rfl

@[simp] theorem State.rejectSample_durable : s.rejectSample.durable = s.durable := rfl

@[simp] theorem State.setLock_durable (l : Lock) : (s.setLock l).durable = s.durable := by simp [State.setLock]

@[simp] theorem State.sampleTail_durable (x : Ofs) : (s.sampleTail x).durable = s.durable := by
  unfold State.sampleTail
  extract_lets v doStep s1 o pull slew i y0 y lockRun unlockRun lim src v2 s2 s3 t src' s4
  have h1 : s1.durable = s.durable := by
    unfold s1; split
    · rw [State.raise_durable, State.bump_durable, State.stepTo_durable]
    · rfl
  have h3 : s3.durable = s.durable := by
    rw [State.becomeValid_durable, State.bump_durable, State.setReg_durable, State.applyRate_durable, State.setSrv_durable, h1]
  have h4 : s4.durable = s.durable := by
    unfold s4; split
    · rw [State.setSrv_durable, State.setLock_durable, h3]
    · exact h3
  split
  · rw [State.setLock_durable, h4]
  · exact h4

@[simp] theorem State.sample_durable {s0 : State} (x : Ofs) : (State.sample s0 x).durable = s0.durable := by
  simp only [State.sample]
  split <;> simp

@[simp] theorem State.setSrvFn_durable (f : Fn) (fault : Bool) : (s.setSrvFn f fault).durable = s.durable := by simp [State.setSrvFn]

@[simp] theorem State.srvLoad_durable : s.srvLoad.durable = s.durable := rfl

@[simp] theorem State.srvStart_durable : s.srvStart.durable = s.durable := by
  simp only [State.srvStart]
  split <;> simp

@[simp] theorem State.countHold_durable : s.countHold.durable = s.durable := by simp [State.countHold]

@[simp] theorem State.tick_durable : s.tick.durable = s.durable := by simp [State.tick]

@[simp] theorem State.ofsPush_durable : s.ofsPush.durable = s.durable := by simp [State.ofsPush]

@[simp] theorem State.ofsWrite_durable (ns aux mpd : Nat) : (s.ofsWrite ns aux mpd).durable = s.durable := rfl

@[simp] theorem State.srvRequest_durable (en : Bool) : (s.srvRequest en).durable = s.durable := by simp [State.srvRequest]

@[simp] theorem State.refSelect_durable : s.refSelect.durable = s.durable := by simp [State.refSelect]

@[simp] theorem State.refWrite_durable (sel : Bool) : (s.refWrite sel).durable = s.durable := by simp [State.refWrite]

@[simp] theorem State.setTin_durable (n : Nat) (x : Tin) : (s.setTin n x).durable = s.durable := rfl

@[simp] theorem State.tinPop_durable (i2c : Bool) (n : Nat) : (s.tinPop i2c n).1.durable = s.durable := by
  simp only [State.tinPop]
  split <;> simp

@[simp] theorem State.setTout_durable (n : Nat) (x : Tout) : (s.setTout n x).durable = s.durable := rfl

@[simp] theorem State.toutArm_durable (n : Nat) : (s.toutArm n).durable = s.durable := by simp [State.toutArm]

@[simp] theorem State.toutDisarm_durable (n : Nat) : (s.toutDisarm n).durable = s.durable := rfl

@[simp] theorem State.toutFire_durable (n : Nat) : (s.toutFire n).durable = s.durable := by simp [State.toutFire]

@[simp] theorem State.ctlPend_durable (v : Nat) : (s.ctlPend v).durable = s.durable := by simp [State.ctlPend]

@[simp] theorem tmuEffect_durable (a old v : Nat) : (tmuEffect s a old v).durable = s.durable := by simp [tmuEffect]

@[simp] theorem State.tcCorrect_durable (p : Nat) (f : TxFrame) (tx : Inst) : (s.tcCorrect p f tx).1.durable = s.durable := by
  simp only [State.tcCorrect]
  (repeat' split) <;> simp

theorem execStepApply_durable : KeepsDurable s (execStepApply s) := keeps_next (by simp)

theorem execTmuOfsPush_durable (ns aux mpd : Word) : KeepsDurable s (execTmuOfsPush ns aux mpd s) := keeps_next (by simp)

theorem execServoSample_durable : KeepsDurable s (execServoSample s) := keeps_next (by split <;> simp)

theorem execServoHoldoverTimeout_durable : KeepsDurable s (execServoHoldoverTimeout s) := keeps_next (by simp)

theorem execServoFail_durable : KeepsDurable s (execServoFail s) := keeps_next (by split <;> simp)

theorem execRef10mAcquire_durable : KeepsDurable s (execRef10mAcquire s) := keeps_next (by simp)

theorem execRef10mLoss_durable : KeepsDurable s (execRef10mLoss s) := keeps_next (by simp)

theorem execTinEdgeCapture_durable (n : Fin 5) (rise : Bool) : KeepsDurable s (execTinEdgeCapture n rise s) := keeps_next (by simp)

theorem execToutPulse_durable (n : Fin 4) : KeepsDurable s (execToutPulse n s) := keeps_next (by simp)

@[simp] theorem State.setCap_durable (c : Nat) (x : Capture) : (s.setCap c x).durable = s.durable := rfl

@[simp] theorem State.setGring_durable (kind id : Nat) (x : GRing) : (s.setGring kind id x).durable = s.durable := rfl

@[simp] theorem State.endCap_durable (c cause : Nat) : (s.endCap c cause).durable = s.durable := by simp [State.endCap]

@[simp] theorem State.pathTakes_durable (n : Nat) : (s.pathTakes n).durable = s.durable := rfl

@[simp] theorem State.balerTakes_durable (n : Nat) (new : Bool) : (s.balerTakes n new).durable = s.durable := rfl

@[simp] theorem State.capWrite_durable (c : Nat) (mk : Nat → Nat → Bytes) (stamp : Inst) : (s.capWrite c mk stamp).durable = s.durable := by
  simp only [State.capWrite]
  (repeat' split) <;> simp

@[simp] theorem State.fireTrigger_durable (c : Nat) (tt : Inst) (late : Bool) : (s.fireTrigger c tt late).durable = s.durable := by
  simp [State.fireTrigger]

@[simp] theorem State.capFrame1_durable (c p dir : Nat) (b : Bytes) (cls : Nat) (leg : Option Nat) (stamp : Inst) :
    (s.capFrame1 c p dir b cls leg stamp).durable = s.durable := by
  simp [State.capFrame1]

@[simp] theorem State.tapFrame1_durable (r p dir : Nat) (b : Bytes) (cls : Nat) (leg : Option Nat) (stamp : Inst) :
    (s.tapFrame1 r p dir b cls leg stamp).durable = s.durable := by
  simp [State.tapFrame1]

@[simp] theorem State.capFrame_durable (p dir : Nat) (b : Bytes) (cls : Nat) (leg : Option Nat) (stamp : Inst) :
    (s.capFrame p dir b cls leg stamp).durable = s.durable := by
  simp [State.capFrame]

@[simp] theorem State.capTap_durable (leg tap : Nat) (data : Bytes) (n : Nat) (stamp : Inst) (u : Nat) (silent unsettled : Bool) (rate : Nat) :
    (s.capTap leg tap data n stamp u silent unsettled rate).durable = s.durable := by
  simp [State.capTap]

@[simp] theorem State.capTone_durable (leg code : Nat) (at_ : Inst) : (s.capTone leg code at_).durable = s.durable := by simp [State.capTone]

@[simp] theorem State.txDone_durable (f : TxFrame) (status : Nat) (ts : Option Inst) (gate : Bool) :
    (s.txDone f status ts gate).durable = s.durable := by
  simp only [State.txDone]
  (repeat' split) <;> simp

@[simp] theorem State.setPortSt_durable (p : Nat) (x : FnState) : (s.setPortSt p x).durable = s.durable := rfl

@[simp] theorem State.setLink_durable (p : Nat) (up : Bool) : (s.setLink p up).durable = s.durable := by simp [State.setLink]

@[simp] theorem State.loseLink_durable (p : Nat) : (s.loseLink p).durable = s.durable := by simp [State.loseLink]

@[simp] theorem State.latchPort_durable (p : Nat) : (s.latchPort p).durable = s.durable := rfl

@[simp] theorem State.portRequest_durable (p : Nat) (en : Bool) : (s.portRequest p en).durable = s.durable := by
  simp only [State.portRequest]
  split <;> simp

@[simp] theorem State.portFail_durable (p : Nat) : (s.portFail p).durable = s.durable := by simp [State.portFail]

@[simp] theorem State.xoffCheck_durable (p : Nat) : (s.xoffCheck p).durable = s.durable := by simp [State.xoffCheck]

@[simp] theorem State.peerPause_durable (p n quanta : Nat) : (s.peerPause p n quanta).durable = s.durable := by simp [State.peerPause]

@[simp] theorem State.pfcRx_durable (p : Nat) (b : Bytes) (off : Nat) : (s.pfcRx p b off).durable = s.durable := by simp [State.pfcRx]

@[simp] theorem State.pauseRx_durable (p quanta : Nat) : (s.pauseRx p quanta).durable = s.durable := by simp [State.pauseRx]

theorem State.rxTake_durable {s t : State} {p n : Nat} {f : RxFrame} (e : s.rxTake p n = some (f, t)) : t.durable = s.durable := by
  simp only [State.rxTake] at e
  split at e
  · cases e
  · cases e; simp

@[simp] theorem State.sendFrame_durable (p : Nat) (f : TxFrame) : (s.sendFrame p f).durable = s.durable := by simp [State.sendFrame]

@[simp] theorem State.purge_durable (p n j : Nat) (s : State) : (s.purge p n j).durable = s.durable := by
  induction j generalizing s with
  | zero => rfl
  | succ j ih => simp only [State.purge]; split <;> simp [ih]

@[simp] theorem State.purgeAll_durable (p : Nat) : (s.purgeAll p).durable = s.durable := by simp [State.purgeAll]

@[simp] theorem State.wireDone_durable (p : Nat) : (s.wireDone p).durable = s.durable := by
  simp only [State.wireDone]
  split <;> simp

@[simp] theorem State.s0Again_durable (f : TxFrame) : (s.s0Again f).durable = s.durable := by simp [State.s0Again]

@[simp] theorem State.mdioStart_durable (v : Nat) (own : Bool) : (s.mdioStart v own).durable = s.durable := rfl

@[simp] theorem State.mdioNext_durable : s.mdioNext.durable = s.durable := by
  simp only [State.mdioNext]
  (repeat' split) <;> simp

@[simp] theorem State.mdioCfg_durable (v : Nat) : (s.mdioCfg v).durable = s.durable := by simp [State.mdioCfg]

@[simp] theorem State.mdioJobDone_durable (isRead : Bool) (rdata : Option (BitVec 16)) : (s.mdioJobDone isRead rdata).durable = s.durable := by
  simp only [State.mdioJobDone]
  (repeat' split) <;> simp

@[simp] theorem State.mdioJob_durable (c : Ctx) (jrn : Bool) (w : List Nat) : (s.mdioJob c jrn w).durable = s.durable := by simp [State.mdioJob]

@[simp] theorem State.macCntLatch_durable (i2c : Bool) (p : Nat) (tx : Bool) : (s.macCntLatch i2c p tx).durable = s.durable := by
  simp [State.macCntLatch]

@[simp] theorem macEffect_durable (a old v : Nat) : (macEffect s a old v).durable = s.durable := by simp [macEffect]

theorem opPortMdioWrite_durable : opPortMdioWrite.KeepsDurable := fun c plan s b => by simp [opPortMdioWrite, Done.wait]

theorem opPortMdioRead_durable : opPortMdioRead.KeepsDurable := fun c plan s b => by simp [opPortMdioRead, Done.wait]

theorem opPortEnable_durable : opPortEnable.KeepsDurable := fun c plan s b => by simp [opPortEnable, Done.ok]

theorem opPortDisable_durable : opPortDisable.KeepsDurable := fun c plan s b => by simp [opPortDisable, Done.ok]

theorem opPortStatus_durable : opPortStatus.KeepsDurable := fun _ _ _ _ => rfl

theorem execPortStartDone_durable (p : Fin 8) (live : Bool) : KeepsDurable s (execPortStartDone p live s) := keeps_next (by simp)

theorem execPortCalFail_durable (p : Fin 8) : KeepsDurable s (execPortCalFail p s) := keeps_next (by simp)

theorem execLanePllLoss_durable (p : Fin 8) : KeepsDurable s (execLanePllLoss p s) := keeps_next (by simp)

theorem execLinkUp_durable (p : Fin 8) : KeepsDurable s (execLinkUp p s) := keeps_next (by simp)

theorem execPortStopDone_durable (p : Fin 8) : KeepsDurable s (execPortStopDone p s) := keeps_next (by simp)

theorem execRgmiiInbandStatus_durable (link : Bool) (speed : Fin 4) (full : Bool) :
    KeepsDurable s (execRgmiiInbandStatus link speed full s) := keeps_next (by
  simp)

theorem execPauseQuantaExpiry_durable (p tc : Fin 8) : KeepsDurable s (execPauseQuantaExpiry p tc s) := keeps_next (by split <;> simp)

theorem execPfcRefresh_durable (p : Fin 8) : KeepsDurable s (execPfcRefresh p s) := keeps_next (by simp)

theorem execMacTxSelect_durable (p : Fin 8) : KeepsDurable s (execMacTxSelect p s) := keeps_next (by (repeat' split) <;> simp)

theorem execTxQueueEntry_durable (p tc : Fin 8) : KeepsDurable s (execTxQueueEntry p tc s) := keeps_next (by split <;> simp)

theorem execS0Collision_durable (bitTimes : Nat) : KeepsDurable s (execS0Collision bitTimes s) := keeps_next (by split <;> simp)

theorem execS0BackoffExpiry_durable : KeepsDurable s (execS0BackoffExpiry s) := keeps_next (by split <;> simp)

theorem execMacMdioGo_durable (cfg v : Word) : KeepsDurable s (execMacMdioGo cfg v s) := keeps_next (by simp)

theorem execMdioFrameDone_durable (rdata : Option (BitVec 16)) : KeepsDurable s (execMdioFrameDone rdata s) := keeps_next (by simp)

@[simp] theorem State.useOpen_durable : s.useOpen.durable = s.durable := rfl

@[simp] theorem State.resend_durable (m seq : Nat) : (s.resend m seq).durable = s.durable := by
  simp only [State.resend]
  (repeat' split) <;> simp

@[simp] theorem State.toRing_durable (m : Nat) (f : CmdFrame) (adv : Bool) : (s.toRing m f adv).durable = s.durable := by simp [State.toRing]

@[simp] theorem State.bySeq_durable (m : Nat) (f : CmdFrame) : (s.bySeq m f).durable = s.durable := by simp [State.bySeq]

@[simp] theorem State.sessFrame_durable (m : Nat) (b : Bytes) : (s.sessFrame m b).durable = s.durable := by simp [State.sessFrame]

@[simp] theorem State.openFrame_durable (p : Fin 8) (e : Eth) (b : Bytes) : (s.openFrame p e b).durable = s.durable := by
  simp only [State.openFrame]
  (repeat' split) <;> simp

@[simp] theorem State.noSession_durable (p : Fin 8) (e : Eth) (b : Bytes) : (s.noSession p e b).durable = s.durable := by simp [State.noSession]

@[simp] theorem State.qcpRx_durable (p : Fin 8) (f : Bytes) : (s.qcpRx p f).durable = s.durable := by simp [State.qcpRx]

@[simp] theorem State.openReply_durable (o : OpenReq) (key : Bytes) (num st det : Nat) (rest : Bytes) :
    (s.openReply o key num st det rest).durable = s.durable := by
  simp [State.openReply]

@[simp] theorem State.openSession_durable (o : OpenReq) : (s.openSession o).durable = s.durable := by
  simp only [State.openSession]
  (repeat' split) <;> simp

@[simp] theorem State.openNow_durable (o : OpenReq) : (s.openNow o).durable = s.durable := by simp [State.openNow]

@[simp] theorem State.newFate_durable (m : Nat) : (s.newFate m).durable = s.durable := by simp [State.newFate]

@[simp] theorem State.prove_durable (m : Nat) (more : Bool) (p : Bytes) : (s.prove m more p).durable = s.durable := by simp [State.prove]

@[simp] theorem State.closeGate_durable (code cl : Nat) (rel : Option Inst) : (s.closeGate code cl rel).durable = s.durable := rfl

@[simp] theorem State.openGates_durable (codes : List Nat) : (s.openGates codes).durable = s.durable := by simp [State.openGates]

@[simp] theorem State.muzzleAccept_durable (b : Bytes) (at_ : Inst) (loc : Nat) : (s.muzzleAccept b at_ loc).durable = s.durable := by
  rw [State.muzzleAccept, State.eventAll_durable, State.raise_durable, State.durable_foldl fun _ _ => State.closeGate_durable _ _ _,
    State.bump_durable, State.setQcp_durable]
  exact State.setNv_durable rfl rfl

@[simp] theorem State.muzzleReject_durable (cnt : Nat) : (s.muzzleReject cnt).durable = s.durable := by simp [State.muzzleReject]

@[simp] theorem State.recordMuzzle_durable : s.recordMuzzle.durable = s.durable := rfl

@[simp] theorem State.recloseMuzzle_durable : s.recloseMuzzle.durable = s.durable := State.durable_foldl (fun _ _ => by simp) _ _

@[simp] theorem State.sendRing_durable (m j : Nat) (s : State) : (s.sendRing m j).durable = s.durable := by
  induction j generalizing s with
  | zero => rfl
  | succ j ih => simp only [State.sendRing]; split <;> simp [ih]

@[simp] theorem State.stopKey_durable (k : Nat) : (s.stopKey k).durable = s.durable := by simp [State.stopKey]

@[simp] theorem State.owe_durable (m op : Nat) (b : Bytes) : (s.owe m op b).durable = s.durable := rfl

@[simp] theorem State.mzLatch_durable (i2c : Bool) (k : Nat) : (s.mzLatch i2c k).durable = s.durable := by simp [State.mzLatch]

theorem opRefused_durable : opRefused.KeepsDurable := fun _ _ _ _ => rfl

theorem opSessionKeepalive_durable : opSessionKeepalive.KeepsDurable := fun _ _ _ _ => rfl

theorem opSessionClose_durable : opSessionClose.KeepsDurable := fun _ _ _ _ => rfl

theorem opSessionSubscribe_durable : opSessionSubscribe.KeepsDurable := fun _ _ _ _ => rfl

theorem opSessionKeySet_durable : opSessionKeySet.KeepsDurable := fun _ _ _ _ => rfl

theorem opSessionKeyClear_durable : opSessionKeyClear.KeepsDurable := fun _ _ _ _ => rfl

theorem opUnmuzzle_durable : opUnmuzzle.KeepsDurable := fun c plan s b => by simp [opUnmuzzle, Done.ok]

theorem opMuzzleKeySet_durable : opMuzzleKeySet.KeepsDurable := fun _ _ _ _ => rfl

theorem opSessionList_durable : opSessionList.KeepsDurable := fun _ _ _ _ => rfl

theorem opMuzzleStatus_durable : opMuzzleStatus.KeepsDurable := fun _ _ _ _ => rfl

theorem execQcpFrameRx_durable (p : Fin 8) : KeepsDurable s (execQcpFrameRx p s) := keeps_next (by
  split
  case h_1 f t e => rw [State.qcpRx_durable, State.rxTake_durable e]
  case h_2 => rfl)

theorem execOpenRateSecond_durable : KeepsDurable s (execOpenRateSecond s) := keeps_next (by simp)

theorem execSessionOpen_durable (o : OpenSrc) : KeepsDurable s (execSessionOpen o s) := keeps_next (by
  split
  · exact runOp_durable (fun _ _ _ _ => rfl) _ _ _
  · split
    · rfl
    · split <;> simp)

theorem execSessionProve_durable (q : Req) : KeepsDurable s (execSessionProve q s) := keeps_next (by
  split
  · split
    · rfl
    · split <;> simp
  · exact runOp_durable (fun _ _ _ _ => rfl) _ _ _)

theorem execSessionProveTimeout_durable (mbox : Fin 256) : KeepsDurable s (execSessionProveTimeout mbox s) := keeps_next (by simp)

theorem execLeaseExpiry_durable (mbox : Fin 256) : KeepsDurable s (execLeaseExpiry mbox s) := keeps_next (by simp)

theorem execMuzzleFrame_durable : KeepsDurable s (execMuzzleFrame s) := keeps_next (by
  dsimp only
  (repeat' split) <;> simp)

theorem execGateRelease_durable (g : Gate) : KeepsDurable s (execGateRelease g s) := keeps_next (by (repeat' split) <;> simp)

theorem execMuzzleStateRecord_durable : KeepsDurable s (execMuzzleStateRecord s) := keeps_next (by simp)

theorem execEventSend_durable (mbox : Fin 256) : KeepsDurable s (execEventSend mbox s) := keeps_next (by split <;> simp)

/-! Legs, channels, players, granary and kernel: the durable things stay. -/

@[simp] theorem State.setLeg_durable (l : Nat) (x : Leg) : (s.setLeg l x).durable = s.durable := rfl

@[simp] theorem State.setKnl_durable (x : Knl) : (s.setKnl x).durable = s.durable := rfl

@[simp] theorem State.charge_durable (l : Nat) (c : Cost) : (s.charge l c).durable = s.durable := by
  unfold State.charge
  rw [State.updOver_durable, State.setLeg_durable, State.place_durable]
  split
  · exact State.unplace_durable _ _ _
  · rfl

@[simp] theorem State.discharge_durable (l : Nat) : (s.discharge l).durable = s.durable := by
  rw [State.discharge]
  split
  · rw [State.updOver_durable, State.setLeg_durable, State.unplace_durable]
  · rfl

@[simp] theorem State.fitChains_durable (l : Nat) (t : Template) : (s.fitChains l t).durable = s.durable :=
  State.durable_foldl (fun _ _ => by dsimp only; (repeat' split) <;> simp) _ _

@[simp] theorem State.updChain_durable (l i : Nat) (f : Chain → Chain) : (s.updChain l i f).durable = s.durable := rfl

@[simp] theorem State.peakTo_durable (f : Fld) (v : Nat) : (s.peakTo f v).durable = s.durable := by simp [State.peakTo]

@[simp] theorem State.logSwap_durable (l : Nat) : (s.logSwap l).durable = s.durable := by
  simp only [State.logSwap]
  split <;> simp

@[simp] theorem State.resetChain_durable (l i : Nat) : (s.resetChain l i).durable = s.durable := by
  simp only [State.resetChain]
  split <;> simp

@[simp] theorem State.clearEcho_durable (l : Nat) : (s.clearEcho l).durable = s.durable := rfl

@[simp] theorem State.armCmd_durable (c : Ctx) (l : Nat) (T : Option Inst) (payload : Bytes) (plan : List Nat) :
    (s.armCmd c l T payload plan).1.durable = s.durable :=
  rfl

@[simp] theorem State.recharge_durable (l : Nat) : (s.recharge l).durable = s.durable := by simp [State.recharge]

@[simp] theorem State.drawSsrc_durable (l : Nat) {s : State} : (s.drawSsrc l).1.durable = s.durable := rfl

@[simp] theorem State.createLeg_durable (l : Nat) : (s.createLeg l).durable = s.durable := by
  simp only [State.createLeg]
  (repeat' split) <;> simp

@[simp] theorem State.stopLeg_durable (l : Nat) : (s.stopLeg l).durable = s.durable := rfl

@[simp] theorem State.legOff_durable {l : Nat} {b : Inst} : (s.legOff l b).durable = s.durable := by
  simp only [State.legOff]
  (repeat' split) <;> simp

@[simp] theorem State.changeGraph_durable (l tid : Nat) : (s.changeGraph l tid).durable = s.durable := by simp [State.changeGraph]

@[simp] theorem State.applyLeg_durable (a : Armed) (b : Inst) : (s.applyLeg a b).durable = s.durable := by
  simp only [State.applyLeg]
  (repeat' split) <;> simp

@[simp] theorem State.recordSrtp_durable (l : Nat) : (s.recordSrtp l).durable = s.durable := by simp [State.recordSrtp]

@[simp] theorem State.resumeSrtp_durable (l : Nat) : (s.resumeSrtp l).durable = s.durable := by
  simp only [State.resumeSrtp]
  split <;> simp

theorem enableApp_durable (c : Ctx) (plan : List Nat) (s : State) (b : Bytes) : (enableApp c plan s b).s.durable = s.durable := by
  unfold enableApp
  extract_lets -lift l x
  split
  · split
    rename_i s2 w e
    dsimp only
    rw [← eq_of_pair e, State.armCmd_durable, State.report_durable]
    exact (State.charge_durable _ _).trans (State.setLeg_durable _ _)
  · exact State.setLeg_durable _ _
  · rfl

theorem opChanEnable_durable : opChanEnable.KeepsDurable := enableApp_durable

theorem opChanDisable_durable : opChanDisable.KeepsDurable := fun c plan s b => by
  simp only [opChanDisable, Done.ok, disableApp]
  split <;> simp

theorem opChanGraph_durable : opChanGraph.KeepsDurable := fun c plan s b => by simp [opChanGraph]

theorem opChanFlowAdd_durable : opChanFlowAdd.KeepsDurable := fun _ _ _ _ => rfl

theorem opChanFlowDel_durable : opChanFlowDel.KeepsDurable := fun _ _ _ _ => rfl

theorem opChanKey_durable : opChanKey.KeepsDurable := fun c plan s b => by
  simp only [opChanKey, Done.ok]
  (repeat' split) <;> simp

theorem opChanEgress_durable : opChanEgress.KeepsDurable := fun c plan s b => by
  simp only [opChanEgress, Done.ok, State.configure, cfgOp]
  split <;> simp

theorem opChanPlayout_durable : opChanPlayout.KeepsDurable := fun c plan s b => by
  simp only [opChanPlayout, Done.ok, State.configure, cfgOp]
  split <;> simp

theorem opChanEcho_durable : opChanEcho.KeepsDurable := fun c plan s b => by
  simp only [opChanEcho, Done.ok, State.configure]
  split <;> simp

theorem opChanEchoReset_durable : opChanEchoReset.KeepsDurable := fun c plan s b => by
  simp only [opChanEchoReset, Done.ok, State.configure, cfgOp]
  split <;> simp

theorem opChanBridge_durable : opChanBridge.KeepsDurable := fun c plan s b => by
  simp only [opChanBridge, Done.ok, State.configure, cfgOp]
  split <;> simp

theorem opChanGain_durable : opChanGain.KeepsDurable := fun c plan s b => by
  simp only [opChanGain, Done.ok, State.configure, cfgOp]
  split <;> simp

theorem opChanGroup_durable : opChanGroup.KeepsDurable := fun c plan s b => by
  simp only [opChanGroup, Done.ok, State.configure, cfgOp]
  split <;> simp

theorem opChanToneCfg_durable : opChanToneCfg.KeepsDurable := fun c plan s b => by
  simp only [opChanToneCfg, Done.ok, State.configure, cfgOp]
  split <;> simp

theorem opChanCodec_durable : opChanCodec.KeepsDurable := fun c plan s b => by
  simp only [opChanCodec, Done.ok, State.configure, cfgOp]
  split <;> simp

theorem opChanRtcp_durable : opChanRtcp.KeepsDurable := fun _ _ _ _ => rfl

theorem opChanClear_durable : opChanClear.KeepsDurable := fun _ _ _ _ => rfl

theorem opChanTonePlay_durable : opChanTonePlay.KeepsDurable := fun _ _ _ _ => rfl

theorem opChanToneStop_durable : opChanToneStop.KeepsDurable := fun _ _ _ _ => rfl

theorem opChanConfCreate_durable : opChanConfCreate.KeepsDurable := fun _ _ _ _ => rfl

theorem opChanConfDelete_durable : opChanConfDelete.KeepsDurable := fun _ _ _ _ => rfl

theorem opChanConfJoin_durable : opChanConfJoin.KeepsDurable := fun _ _ _ _ => rfl

theorem opChanConfLeave_durable : opChanConfLeave.KeepsDurable := fun _ _ _ _ => rfl

@[simp] theorem State.nodeRec_durable (l : Nat) (p : State × Bytes) (i : Nat) : (s.nodeRec l p i).1.durable = p.1.durable := by
  simp only [State.nodeRec]
  (repeat' split) <;> simp

@[simp] theorem State.nodeRecs_durable (l : Nat) : (s.nodeRecs l).1.durable = s.durable := by
  simp only [State.nodeRecs]
  split
  · rfl
  · exact durable_foldl_fst (fun a i => State.nodeRec_durable l a i) _ _

theorem opChanStatus_durable : opChanStatus.KeepsDurable := fun c plan s b => by simp [opChanStatus, Done.res]

theorem opChanConfStatus_durable : opChanConfStatus.KeepsDurable := fun c plan s b => by
  simp only [opChanConfStatus, Done.ok, Done.res]
  split <;> simp

theorem opGraphDefine_durable : opGraphDefine.KeepsDurable := fun _ _ _ _ => rfl

theorem opGraphDelete_durable : opGraphDelete.KeepsDurable := fun _ _ _ _ => rfl

theorem opGraphCptDefine_durable : opGraphCptDefine.KeepsDurable := fun _ _ _ _ => rfl

theorem opGraphInfo_durable : opGraphInfo.KeepsDurable := fun _ _ _ _ => rfl

theorem opCoefSetLoad_durable : opCoefSetLoad.KeepsDurable := fun _ _ _ _ => rfl

theorem opCoefSetFree_durable : opCoefSetFree.KeepsDurable := fun _ _ _ _ => rfl

theorem opCoefBank_durable : opCoefBank.KeepsDurable := fun _ _ _ _ => rfl

theorem opCoefSwap_durable : opCoefSwap.KeepsDurable := fun c plan s b => by simp [opCoefSwap, Done.stat, chainOp]

theorem opCoefSwapCancel_durable : opCoefSwapCancel.KeepsDurable := fun _ _ _ _ => rfl

theorem opCoefPhase_durable : opCoefPhase.KeepsDurable := fun _ _ _ _ => rfl

theorem opCoefSyncReset_durable : opCoefSyncReset.KeepsDurable := fun _ _ _ _ => rfl

theorem opCoefSetInfo_durable : opCoefSetInfo.KeepsDurable := fun _ _ _ _ => rfl

theorem opCoefRomRead_durable : opCoefRomRead.KeepsDurable := fun c plan s b => by
  simp only [opCoefRomRead, Done.res]
  split <;> simp

theorem opCoefChainStatus_durable : opCoefChainStatus.KeepsDurable := fun c plan s b => by
  simp only [opCoefChainStatus, Done.ok, Done.res]
  split <;> simp

@[simp] theorem State.legCnt_durable (l a : Nat) : (s.legCnt l a).durable = s.durable := rfl

@[simp] theorem State.slackSample_durable (l : Nat) (slack : Int) (a ts : Nat) : (s.slackSample l slack a ts).durable = s.durable := by
  simp [State.slackSample]

@[simp] theorem State.poolDrop_durable (l : Nat) : (s.poolDrop l).durable = s.durable := by simp [State.poolDrop]

@[simp] theorem State.putSlot_durable (l : Nat) (q : PlyPkt) : (s.putSlot l q).durable = s.durable := by simp [State.putSlot]

@[simp] theorem State.fileSlot_durable (l : Nat) (p : PlyIn) (due : Inst) : (s.fileSlot l p due).durable = s.durable := by simp [State.fileSlot]

@[simp] theorem State.anchorLeg_durable (l : Nat) (p : PlyIn) : (s.anchorLeg l p).durable = s.durable := by simp [State.anchorLeg]

@[simp] theorem State.plyFile_durable {s0 : State} (l : Nat) (p : PlyIn) : (State.plyFile s0 l p).durable = s0.durable := by simp [State.plyFile]

@[simp] theorem State.plyFlush_durable (l : Nat) : (s.plyFlush l).durable = s.durable := rfl

@[simp] theorem State.plyHand_durable (l : Nat) (b : Inst) : (s.plyHand l b).1.durable = s.durable := by
  unfold State.plyHand
  dsimp only
  split
  · simp only [State.legCnt_durable, State.setLeg_durable]
  · refine (State.legCnt_durable _ _).trans ?_
    rw [State.durable_ite, State.legCnt_durable, ite_self, State.durable_foldl (fun _ _ => State.legCnt_durable _ _), State.setLeg_durable]

@[simp] theorem State.plySlip_durable (l m : Nat) : (s.plySlip l m).durable = s.durable := by simp [State.plySlip]

@[simp] theorem plyEffect_durable (a v : Nat) : (plyEffect s a v).durable = s.durable := by simp [plyEffect]

@[simp] theorem State.capStart_durable (c : Nat) : (s.capStart c).durable = s.durable := by simp [State.capStart]

@[simp] theorem State.capStop_durable (c : Nat) : (s.capStop c).durable = s.durable := by
  simp only [State.capStop]
  split <;> simp

@[simp] theorem State.capEmitEnd_durable : s.capEmitEnd.durable = s.durable :=
  State.durable_foldl (fun _ _ => by dsimp only; (repeat' split) <;> simp) _ _

@[simp] theorem State.sendData_durable (d : ExpTo) (b : Bytes) (o : TxOrigin) (gate shared : Bool) :
    (s.sendData d b o gate shared).durable = s.durable := by
  simp [State.sendData]

@[simp] theorem State.exportCapture_durable (c : Nat) : (s.exportCapture c).durable = s.durable := by
  simp only [State.exportCapture]
  split <;> simp

@[simp] theorem State.ringRest_durable (kind r : Nat) : (s.ringRest kind r).durable = s.durable := by simp [State.ringRest]

@[simp] theorem State.exportTap_durable (r : Nat) : (s.exportTap r).durable = s.durable := by
  simp only [State.exportTap]
  (repeat' split) <;> simp

@[simp] theorem State.setPlayer_durable (p : Nat) (x : Player) : (s.setPlayer p x).durable = s.durable := rfl

@[simp] theorem State.endPlayer_durable (p : Nat) : (s.endPlayer p).durable = s.durable := by simp [State.endPlayer]

@[simp] theorem State.playStart_durable (p : Nat) : (s.playStart p).durable = s.durable := by simp [State.playStart]

@[simp] theorem State.tapItem_durable (l : Nat) (i : PItem) (v : Inst) : (s.tapItem l i v).durable = s.durable := rfl

@[simp] theorem State.releaseItem_durable (p : Nat) (x : Player) (i : PItem) (v : Inst) : (s.releaseItem p x i v).durable = s.durable := by
  simp only [State.releaseItem]
  (repeat' split) <;> simp

@[simp] theorem State.ringStart_durable (kind r : Nat) : (s.ringStart kind r).durable = s.durable := rfl

@[simp] theorem State.ringStop_durable (kind r : Nat) : (s.ringStop kind r).durable = s.durable := by
  simp only [State.ringStop]
  split <;> simp

@[simp] theorem State.ringDrop_durable : s.ringDrop.durable = s.durable := by simp [State.ringDrop]

@[simp] theorem State.storeEntries_durable (r j i : Nat) (b : Bytes) (s : State) : (State.storeEntries r j i b s).durable = s.durable := by
  induction j generalizing i b s with
  | zero => rfl
  | succ j ih => simp [State.storeEntries, ih]

@[simp] theorem State.ringFeed_durable (kind r : Nat) (b : Bytes) : (s.ringFeed kind r b).durable = s.durable := by simp [State.ringFeed]

@[simp] theorem State.injRefuse_durable (r i : Nat) (e : Bytes) (st : Nat) : (s.injRefuse r i e st).durable = s.durable := rfl

@[simp] theorem State.strmLatch_durable (i2c : Bool) : (s.strmLatch i2c).durable = s.durable := by simp [State.strmLatch]

theorem opCaptOpen_durable : opCaptOpen.KeepsDurable := fun _ _ _ _ => rfl

theorem opCaptClose_durable : opCaptClose.KeepsDurable := fun _ _ _ _ => rfl

theorem opCaptEnable_durable : opCaptEnable.KeepsDurable := fun c plan s b => by
  simp only [opCaptEnable, Done.ok, grnOp]
  split <;> simp

theorem opCaptDisable_durable : opCaptDisable.KeepsDurable := fun c plan s b => by simp [opCaptDisable, Done.ok, grnOp]

theorem opCaptTrigger_durable : opCaptTrigger.KeepsDurable := fun c plan s b => by simp [opCaptTrigger, Done.ok, grnOp]

theorem opCaptExport_durable : opCaptExport.KeepsDurable := fun _ _ _ _ => rfl

theorem opCaptRead_durable : opCaptRead.KeepsDurable := fun _ _ _ _ => rfl

theorem opCaptStatus_durable : opCaptStatus.KeepsDurable := fun _ _ _ _ => rfl

theorem opPattLoad_durable : opPattLoad.KeepsDurable := fun _ _ _ _ => rfl

theorem opPattFromCapt_durable : opPattFromCapt.KeepsDurable := fun _ _ _ _ => rfl

theorem opPattDelete_durable : opPattDelete.KeepsDurable := fun _ _ _ _ => rfl

theorem opPattInfo_durable : opPattInfo.KeepsDurable := fun c plan s b => by
  simp only [opPattInfo, Done.res]
  split <;> simp

theorem opPattPlay_durable : opPattPlay.KeepsDurable := fun c plan s b => by
  simp only [opPattPlay, Done.ok]
  split <;> simp

theorem opPattStop_durable : opPattStop.KeepsDurable := fun c plan s b => by simp [opPattStop, Done.ok, grnOp]

theorem opRingOpen_durable : opRingOpen.KeepsDurable := fun _ _ _ _ => rfl

theorem opRingClose_durable : opRingClose.KeepsDurable := fun c plan s b => by simp [opRingClose, Done.ok, grnOp]

theorem opRingEnable_durable : opRingEnable.KeepsDurable := fun c plan s b => by
  simp only [opRingEnable, Done.ok, grnOp]
  split <;> simp

theorem opRingDisable_durable : opRingDisable.KeepsDurable := fun c plan s b => by simp [opRingDisable, Done.ok, grnOp]

theorem opRingFeed_durable : opRingFeed.KeepsDurable := fun _ _ _ _ => rfl

theorem opRingStatus_durable : opRingStatus.KeepsDurable := fun _ _ _ _ => rfl

theorem execCaptureTimeTrigger_durable (c : Fin 16) : KeepsDurable s (execCaptureTimeTrigger c s) := keeps_next (by simp)

theorem execExportFrameSend_durable (x : ExportRef) : KeepsDurable s (execExportFrameSend x s) := keeps_next (by split <;> simp)

theorem execTimedActionExec_durable (a : TimedRef) : KeepsDurable s (execTimedActionExec a s) := keeps_next (by split <;> simp)

theorem execPatternItemRelease_durable (pl : Fin 64) : KeepsDurable s (execPatternItemRelease pl s) := keeps_next (by split <;> simp)

theorem execInjectLaunch_durable (ring : Fin 16) : KeepsDurable s (execInjectLaunch ring s) := keeps_next (by (repeat' split) <;> simp)

theorem execInjectDoneSend_durable (ring : Fin 16) : KeepsDurable s (execInjectDoneSend ring s) := keeps_next (by
  split <;> simp only [State.durable_ite, ite_self, State.setGring_durable, State.ringRest_durable, State.sendData_durable])

@[simp] theorem State.setGln_durable (x : Gln) : (s.setGln x).durable = s.durable := rfl

@[simp] theorem State.setUnitT_durable (cls idx : Nat) (u : UnitT) : (s.setUnitT cls idx u).durable = s.durable := rfl

@[simp] theorem State.glnRecord_durable (r : Slice) (verdict cause done : Nat) (sig : Bytes) :
    (s.glnRecord r verdict cause done sig).durable = s.durable := by
  simp [State.glnRecord]

@[simp] theorem State.dropSlice_durable (r : Slice) : (s.dropSlice r).durable = s.durable := by simp [State.dropSlice]

@[simp] theorem State.cutSlice_durable (r : Slice) (cause : Nat) : (s.cutSlice r cause).durable = s.durable := by simp [State.cutSlice]

@[simp] theorem State.setTask_durable (i : Nat) (t : Task) : (s.setTask i t).durable = s.durable := rfl

@[simp] theorem State.dropCall_durable (i : Nat) : (s.dropCall i).durable = s.durable := rfl

@[simp] theorem State.freeTask_durable (i : Nat) : (s.freeTask i).durable = s.durable := rfl

@[simp] theorem State.setCore_durable (c : Nat) (x : Core) : (s.setCore c x).durable = s.durable := rfl

@[simp] theorem State.mkTask_durable (t : Task) : (s.mkTask t).1.durable = s.durable := rfl

@[simp] theorem State.histCount_durable (t : Task) : (s.histCount t).durable = s.durable := by simp [State.histCount]

@[simp] theorem State.dispatch_durable (c i : Nat) (t : Task) : (s.dispatch c i t).durable = s.durable := by simp [State.dispatch]

@[simp] theorem State.coreTake_durable (c : Nat) : (s.coreTake c).durable = s.durable := by
  simp only [State.coreTake]
  (repeat' split) <;> simp

@[simp] theorem State.stopRun_durable (c : Nat) : (s.stopRun c).durable = s.durable := by
  simp only [State.stopRun]
  split <;> simp

@[simp] theorem State.giveFrame_durable (i : Nat) : (s.giveFrame i).durable = s.durable := by
  simp only [State.giveFrame]
  split <;> simp

theorem State.abortCoreSlice_durable {s u : State} {t : Task} {c : Nat} (e : s.abortCoreSlice t = some (u, c)) : u.durable = s.durable := by
  simp only [State.abortCoreSlice, Option.map_eq_some_iff] at e
  obtain ⟨r, -, e⟩ := e
  cases e
  simp

@[simp] theorem State.enterReady_durable (i : Nat) : (s.enterReady i).durable = s.durable := by
  simp only [State.enterReady]
  split <;> simp

@[simp] theorem State.preempt_durable (c i : Nat) (t : Task) : (s.preempt c i t).durable = s.durable := by
  simp only [State.preempt]
  split <;> simp

@[simp] theorem State.placeTask_durable (i : Nat) : (s.placeTask i).durable = s.durable := by
  simp only [State.placeTask]
  split
  · rfl
  · split
    · rfl
    · split
      · simp
      · split
        · simp
        · split
          case h_1 e => rw [State.dispatch_durable, State.abortCoreSlice_durable e]
          case h_2 => rfl

@[simp] theorem State.makeReady_durable (i : Nat) : (s.makeReady i).durable = s.durable := by simp [State.makeReady]

@[simp] theorem State.readyAll_durable (p : Task → Bool) : (s.readyAll p).durable = s.durable := by simp [State.readyAll]

@[simp] theorem State.wakeCores_durable : s.wakeCores.durable = s.durable := by simp [State.wakeCores]

@[simp] theorem State.blockRun_durable (c wait on : Nat) : (s.blockRun c wait on).durable = s.durable := by
  simp only [State.blockRun]
  split <;> simp

@[simp] theorem State.unblock_durable (wait on : Nat) : (s.unblock wait on).durable = s.durable := by simp [State.unblock]

@[simp] theorem State.cancelTask_durable (i : Nat) : (s.cancelTask i).durable = s.durable := by
  simp only [State.cancelTask]
  (repeat' split) <;> simp

@[simp] theorem State.bpCheck_durable (p n : Nat) : (s.bpCheck p n).durable = s.durable := by simp [State.bpCheck]

@[simp] theorem State.bpRelease_durable : s.bpRelease.durable = s.durable := by simp [State.bpRelease]

@[simp] theorem State.mkIngress_durable (kind p n : Nat) (data : Bytes) : (s.mkIngress kind p n data).1.durable = s.durable := by
  simp only [State.mkIngress]
  split <;> simp

@[simp] theorem State.sysNew_durable (m : SysMake) : (s.sysNew m).durable = s.durable := by simp [State.sysNew]

@[simp] theorem State.makeSys_durable (m : SysMake) : (s.makeSys m).durable = s.durable := by simp [State.makeSys]

@[simp] theorem State.sysFreed_durable : s.sysFreed.durable = s.durable := by simp [State.sysFreed]

@[simp] theorem State.histClear_durable : s.histClear.durable = s.durable := State.durable_foldl (fun _ _ => by simp) _ _

@[simp] theorem knlEffect_durable (a old v : Nat) : (knlEffect s a old v).durable = s.durable := by simp [knlEffect]

/-! Tandem, packets, media, faults and memory: the durable things stay. -/

@[simp] theorem State.setTnd_durable (x : Tnd) : (s.setTnd x).durable = s.durable := rfl

@[simp] theorem State.setTlink_durable (p : Nat) (x : TLink) : (s.setTlink p x).durable = s.durable := rfl

@[simp] theorem State.linkTo_durable (p st : Nat) : (s.linkTo p st).durable = s.durable := by simp [State.linkTo]

@[simp] theorem State.reblock_durable : s.reblock.durable = s.durable := by simp [State.reblock]

@[simp] theorem State.tndSend_durable (p : Nat) (b : Bytes) (o : TxOrigin) : (s.tndSend p b o).durable = s.durable := by simp [State.tndSend]

@[simp] theorem State.helloAll_durable : s.helloAll.durable = s.durable := by simp [State.helloAll]

@[simp] theorem State.sendRingFail_durable (p port : Nat) : (s.sendRingFail p port).durable = s.durable := by simp [State.sendRingFail]

@[simp] theorem State.passRingFail_durable (p : Nat) (b : Bytes) : (s.passRingFail p b).durable = s.durable := by simp [State.passRingFail]

@[simp] theorem State.linkDown_durable (p : Nat) : (s.linkDown p).durable = s.durable := by
  simp only [State.linkDown]
  (repeat' split) <;> simp

@[simp] theorem State.linkBack_durable (p : Nat) : (s.linkBack p).durable = s.durable := by
  simp only [State.linkBack]
  (repeat' split) <;> simp

@[simp] theorem State.tndLinks_durable : s.tndLinks.durable = s.durable := by simp [State.tndLinks]

@[simp] theorem State.failOver_durable (p hops : Nat) : (s.failOver p hops).durable = s.durable := by simp [State.failOver]

@[simp] theorem State.ringFailRx_durable (p : Nat) (b : Bytes) : (s.ringFailRx p b).durable = s.durable := by
  simp only [State.ringFailRx]
  split <;> simp

@[simp] theorem State.helloRx_durable (p : Nat) (b : Bytes) : (s.helloRx p b).durable = s.durable := by simp [State.helloRx]

@[simp] theorem State.tndRx_durable (p n : Nat) (f : RxFrame) : (s.tndRx p n f).durable = s.durable := by
  simp only [State.tndRx]
  (repeat' split) <;> simp

@[simp] theorem State.storeBlock_durable (dev q : Nat) (b : Bytes) : (s.storeBlock dev q b).durable = s.durable := by simp [State.storeBlock]

@[simp] theorem State.unpack_durable (b : Bytes) : (s.unpack b).durable = s.durable := by simp [State.unpack]

@[simp] theorem State.readRemote_durable (dev leg q p rate n : Nat) (b : Inst) : (s.readRemote dev leg q p rate n b).1.durable = s.durable := by
  simp only [State.readRemote]
  split <;> simp

@[simp] theorem State.readRemotes_durable (l : Nat) (b : Inst) : (s.readRemotes l b).1.durable = s.durable := by
  refine durable_foldl_fst (fun _ r => ?_) _ _
  obtain ⟨dev, src, q, p, x⟩ := r
  exact State.readRemote_durable _ _ _ _ _ _ _

@[simp] theorem State.sendParcel_durable (dev : Nat) (blocks : List Bytes) : (s.sendParcel dev blocks).durable = s.durable := by
  simp only [State.sendParcel]
  split <;> simp

@[simp] theorem State.sendParcels_durable : s.sendParcels.durable = s.durable := by simp [State.sendParcels]

@[simp] theorem State.parcelsLate_durable : s.parcelsLate.durable = s.durable := by simp [State.parcelsLate]

@[simp] theorem State.takePieces_durable : s.takePieces.durable = s.durable := rfl

@[simp] theorem State.moveSlots_durable (l : Nat) (ps : List PlyPkt) : (s.moveSlots l ps).durable = s.durable := by simp [State.moveSlots]

@[simp] theorem State.moveIn_durable (i : MigIn) : (s.moveIn i).durable = s.durable := by
  simp only [State.moveIn]
  (repeat' split) <;> simp

@[simp] theorem State.migrateEnd_durable (i : MigIn) : (s.migrateEnd i).durable = s.durable := by simp [State.migrateEnd]

@[simp] theorem State.migrateIns_durable : s.migrateIns.durable = s.durable := by simp [State.migrateIns]

@[simp] theorem State.tndLegs_durable (b : Inst) : (s.tndLegs b).durable = s.durable := by simp [State.tndLegs]

@[simp] theorem State.applyTnd_durable (a : Armed) (b : Inst) : (s.applyTnd a b).durable = s.durable := by
  simp only [State.applyTnd]
  split <;> simp

@[simp] theorem State.tndNewLen_durable : s.tndNewLen.durable = s.durable := rfl

theorem opTandRoute_durable : opTandRoute.KeepsDurable := fun _ _ _ _ => rfl

theorem opTandRing_durable : opTandRing.KeepsDurable := fun c plan s b => by simp [opTandRing, Done.ok]

theorem opTandExport_durable : opTandExport.KeepsDurable := fun c plan s b => by simp [opTandExport, tandOp]

theorem opTandExportDel_durable : opTandExportDel.KeepsDurable := fun _ _ _ _ => rfl

theorem opTandImport_durable : opTandImport.KeepsDurable := fun _ _ _ _ => rfl

theorem opTandImportDel_durable : opTandImportDel.KeepsDurable := fun _ _ _ _ => rfl

theorem opTandConfImport_durable : opTandConfImport.KeepsDurable := fun c plan s b => by
  simp only [opTandConfImport]
  split <;> simp

theorem opTandMigrateOut_durable : opTandMigrateOut.KeepsDurable := fun _ _ _ _ => rfl

theorem opTandMigrateIn_durable : opTandMigrateIn.KeepsDurable := fun c plan s b => by
  unfold opTandMigrateIn
  dsimp -zeta only
  extract_lets l x t phi src y s1
  rw [State.setTnd_durable, State.armCmd_durable, State.report_durable]
  exact (State.charge_durable _ _).trans (State.setLeg_durable _ _)

theorem opTandStatus_durable : opTandStatus.KeepsDurable := fun _ _ _ _ => rfl

theorem execLinkDown_durable (p : Fin 8) : KeepsDurable s (execLinkDown p s) := keeps_next (by simp)

@[simp] theorem State.telFile_durable (l ssrc ts : Nat) (b : Bytes) : (s.telFile l ssrc ts b).durable = s.durable := by simp [State.telFile]

@[simp] theorem State.setFlow_durable (i : Nat) (f : FlowEnt) : (s.setFlow i f).durable = s.durable := rfl

@[simp] theorem State.heardFrom_durable (i : Nat) (f : FlowEnt) (k : Pkt) : (s.heardFrom i f k).durable = s.durable := by simp [State.heardFrom]

@[simp] theorem State.latch_durable (i : Nat) (f : FlowEnt) (k : Pkt) : (s.latch i f k).durable = s.durable := by simp [State.latch]

@[simp] theorem State.rtpUpdate_durable (l i : Nat) (f : FlowEnt) (k : Pkt) (r : RtpIn) : (s.rtpUpdate l i f k r).durable = s.durable := by
  simp [State.rtpUpdate]

@[simp] theorem State.rtpRx_durable {s0 : State} (i : Nat) (f0 : FlowEnt) (k : Pkt) (stamp : Inst) :
    (State.rtpRx s0 i f0 k stamp).durable = s0.durable := by
  simp only [State.rtpRx]
  (repeat' split) <;> simp

@[simp] theorem State.rtcpStore_durable (l : Nat) (stamp : Inst) (parts : List Bytes) : (s.rtcpStore l stamp parts).durable = s.durable := by
  simp [State.rtcpStore]

@[simp] theorem State.rtcpRx_durable (p n i : Nat) (f : FlowEnt) (pk : Pkt) (stamp : Inst) : (s.rtcpRx p n i f pk stamp).durable = s.durable := by
  simp only [State.rtcpRx]
  (repeat' split) <;> simp

@[simp] theorem State.slowPath_durable (p : Nat) (b : Bytes) : (s.slowPath p b).durable = s.durable := by simp [State.slowPath]

@[simp] theorem State.ptpRx_durable (p n : Nat) (f : RxFrame) : (s.ptpRx p n f).durable = s.durable := by simp [State.ptpRx]

@[simp] theorem State.pkeOther_durable (p n : Nat) (f : RxFrame) (ip : Bool) : (s.pkeOther p n f ip).durable = s.durable := by
  simp only [State.pkeOther]
  split <;> simp

@[simp] theorem State.pkeTake_durable {s0 : State} (p n : Nat) (f : RxFrame) : (State.pkeTake s0 p n f).durable = s0.durable := by
  simp only [State.pkeTake]
  (repeat' split) <;> simp

@[simp] theorem State.ptpOffset_durable (p : Nat) (raw : Int) (mpd wt : Nat) : (s.ptpOffset p raw mpd wt).durable = s.durable := by
  simp [State.ptpOffset]

@[simp] theorem State.ptpFound_durable (p : Nat) (b : Bytes) (r : PtpFind) : (s.ptpFound p b r).durable = s.durable := by
  simp only [State.ptpFound]
  split <;> simp

@[simp] theorem State.udpFrame_durable (l : Nat) (pay : Bytes) : (s.udpFrame l pay).1.durable = s.durable := by
  simp only [State.udpFrame]
  (repeat' split) <;> simp

@[simp] theorem State.legSend_durable (l : Nat) (pay : Bytes) : (s.legSend l pay).durable = s.durable := by
  have h := State.udpFrame_durable (s := s) l pay
  simp only [State.legSend]
  split
  case h_1 e => rw [e] at h; exact h
  case h_2 e => rw [e] at h; rw [State.txRequest_durable]; exact h

@[simp] theorem State.rtpOut_durable (l : Nat) (b : Bytes) (hdr seq ssrc : Nat) : (s.rtpOut l b hdr seq ssrc).durable = s.durable := by
  simp only [State.rtpOut]
  split <;> simp

@[simp] theorem State.rtpBuild_durable (l pt : Nat) (marker : Bool) (ts : Nat) (pay : Bytes) :
    (s.rtpBuild l pt marker ts pay).durable = s.durable := by
  simp [State.rtpBuild]

@[simp] theorem State.txStamp_durable (l : Nat) (at_ : Inst) : (s.txStamp l at_).1.durable = s.durable := by
  simp only [State.txStamp]
  split <;> simp

@[simp] theorem State.voiceOut_durable (l pt : Nat) (at_ : Inst) (cnt : Nat) (pay : Bytes) : (s.voiceOut l pt at_ cnt pay).durable = s.durable := by
  simp [State.voiceOut]

@[simp] theorem State.eventOut_durable (l : Nat) (marker fin : Bool) (code vol ts dur : Nat) :
    (s.eventOut l marker fin code vol ts dur).durable = s.durable := by
  simp [State.eventOut]

@[simp] theorem State.eventRun_durable (l c : Nat) (first : Bool) : (s.eventRun l c first).durable = s.durable := by
  simp only [State.eventRun]
  split <;> simp

@[simp] theorem State.eventEnd_durable {s0 : State} (l c : Nat) (first : Bool) : (State.eventEnd s0 l c first).durable = s0.durable := by
  simp only [State.eventEnd]
  split <;> simp

@[simp] theorem State.eventStep_durable (l clk : Nat) (e : ToneEv) {a : State × Bool × Bool} :
    (State.eventStep l clk a e).1.durable = a.1.durable := by
  simp only [State.eventStep]
  (repeat' split) <;> simp

theorem State.eventSteps_durable (l clk : Nat) (es : List ToneEv) (a : State × Bool × Bool) :
    (es.foldl (State.eventStep l clk) a).1.durable = a.1.durable := durable_foldl_fst (fun _ e => State.eventStep_durable l clk e) _ _

@[simp] theorem State.takeEvts_durable (l : Nat) (evts : List ToneEv) : (s.takeEvts l evts).durable = s.durable := rfl

@[simp] theorem State.eventsOut_durable (l : Nat) (at_ : Inst) : (s.eventsOut l at_).1.durable = s.durable := by
  simp only [State.eventsOut]
  split
  · rfl
  · split
    · exact (State.eventSteps_durable _ _ _ _).trans (State.setLeg_durable _ _)
    · exact (State.eventRun_durable _ _ _).trans ((State.eventSteps_durable _ _ _ _).trans (State.setLeg_durable _ _))

@[simp] theorem State.fallbackOut_durable (l : Nat) (b : Inst) : (s.fallbackOut l b).durable = s.durable := by
  simp only [State.fallbackOut]
  split <;> simp

@[simp] theorem State.relayOut_durable (l : Nat) (raw : Bytes) : (s.relayOut l raw).durable = s.durable := by
  simp only [State.relayOut]
  split <;> simp

@[simp] theorem State.rtcpOut_durable (l : Nat) (b : Bytes) : (s.rtcpOut l b).durable = s.durable := by
  simp only [State.rtcpOut]
  split <;> simp

@[simp] theorem State.nextReport_durable (l : Nat) : (s.nextReport l).durable = s.durable := rfl

@[simp] theorem State.reportOut_durable (l : Nat) : (s.reportOut l).durable = s.durable := by simp [State.reportOut]

@[simp] theorem State.byeOut_durable (l : Nat) : (s.byeOut l).durable = s.durable := by simp [State.byeOut]

@[simp] theorem State.staleDiscard_durable : s.staleDiscard.durable = s.durable := by
  simp only [State.staleDiscard, State.durable_ite, State.raise_durable, ite_self]
  exact (State.durable_foldl (fun _ _ => State.legCnt_durable _ _) _ _).trans rfl

theorem execPkeFrameTake_durable (p : Fin 8) (tc : Fin 7) : KeepsDurable s (execPkeFrameTake p tc s) := keeps_next (by
  split
  · rfl
  · split
    case h_1 => rfl
    case h_2 e => rw [State.pkeTake_durable, State.rxTake_durable e])

theorem execPtpFrameRx_durable (r : PtpFind) : KeepsDurable s (execPtpFrameRx r s) := keeps_next (by split <;> simp)

theorem execSlowPathFrame_durable : KeepsDurable s (execSlowPathFrame s) := keeps_next (by
  dsimp only
  (repeat' split) <;> simp)

@[simp] theorem State.keepSelections_durable (b : Inst) : (s.keepSelections b).durable = s.durable := rfl

@[simp] theorem State.setFrp_durable (x : Frp) : (s.setFrp x).durable = s.durable := rfl

@[simp] theorem State.pushRecord_durable (b : Bytes) : (s.pushRecord b).durable = s.durable := by simp [State.pushRecord]

@[simp] theorem State.recordFault_durable (t : Task) (f : FRec) (outcome rcore : Nat) : (s.recordFault t f outcome rcore).durable = s.durable := by
  simp [State.recordFault]

@[simp] theorem State.settleFaults_durable (i outcome rcore : Nat) : (s.settleFaults i outcome rcore).durable = s.durable := by
  simp only [State.settleFaults]
  split <;> simp

@[simp] theorem State.logRecord_durable (l n : Nat) : (s.logRecord l n).1.durable = s.durable := by
  simp only [State.logRecord]
  split <;> simp

@[simp] theorem State.abortSlice_durable (r : Slice) : (s.abortSlice r).durable = s.durable := by simp [State.abortSlice]

@[simp] theorem State.countFallback_durable : s.countFallback.durable = s.durable := by simp [State.countFallback]

@[simp] theorem State.fallback_durable (i outcome : Nat) : (s.fallback i outcome).durable = s.durable := by
  simp only [State.fallback]
  split <;> simp

@[simp] theorem State.recreate_durable (l : Nat) : (s.recreate l).durable = s.durable := by simp [State.recreate]

@[simp] theorem State.recreated_durable (l : Nat) : (s.recreated l).durable = s.durable := rfl

@[simp] theorem State.setDeng_durable (e : Nat) (x : DEng) : (s.setDeng e x).durable = s.durable := rfl

@[simp] theorem State.moved_durable (e n : Nat) : (s.moved e n).durable = s.durable := rfl

theorem State.engOf_durable {s u : State} {l : List Nat} {pick : List Nat → Option Nat} {e : Nat} (h : s.engOf l pick = some (e, u)) :
    u.durable = s.durable := by
  simp only [State.engOf] at h
  split at h
  · cases h; rfl
  · obtain ⟨r, -, h⟩ := Option.map_eq_some_iff.1 h
    cases h
    simp

theorem State.pickEng_durable {s u : State} {c e : Nat} (h : s.pickEng c = some (e, u)) : u.durable = s.durable := by
  simp only [State.pickEng] at h
  split at h
  · obtain ⟨k, -, h⟩ := Option.bind_eq_some_iff.1 h
    obtain ⟨⟨i, v⟩, hv, h⟩ := Option.map_eq_some_iff.1 h
    cases h
    rw [State.bump_durable, State.engOf_durable hv]
  · obtain ⟨⟨i, v⟩, hv, h⟩ := Option.map_eq_some_iff.1 h
    cases h
    rw [State.setMmu_durable, State.engOf_durable hv]

@[simp] theorem State.startReplay_durable (i : Nat) (t : Task) (kib notCore : Nat) (notEng : Option Nat) :
    (s.startReplay i t kib notCore notEng).durable = s.durable := by
  simp only [State.startReplay]
  split
  case h_1 e => rw [State.setTask_durable, State.pickEng_durable e]; simp
  case h_2 => simp

@[simp] theorem State.freeRsv_durable (t : Task) : (s.freeRsv t).durable = s.durable := by simp [State.freeRsv]

@[simp] theorem State.onFault_durable (i cls core unit detail : Nat) : (s.onFault i cls core unit detail).durable = s.durable := by
  unfold State.onFault
  split
  · rfl
  · extract_lets -lift f s1 t s2 s3
    split
    · exact State.recordFault_durable _ _ _ _
    · split
      · split
        · exact State.recordFault_durable _ _ _ _
        · exact State.setTask_durable _ _
      · have h3 : s3.durable = s.durable := by
          have h2 : s2.durable = s.durable := by
            rw [State.setTask_durable, State.freeRsv_durable, State.dropCall_durable, State.giveFrame_durable]
          unfold s3
          clear_value s2
          split
          · split
            · rw [State.setLeg_durable, h2]
            · exact h2
          · exact h2
        clear_value s3
        (repeat' split) <;> simp [h3]

@[simp] theorem State.legFault_durable (l : Nat) (b : Inst) (cls unit detail : Nat) : (s.legFault l b cls unit detail).durable = s.durable := by
  simp [State.legFault]

@[simp] theorem State.faultAt_durable (c i cls unit detail : Nat) : (s.faultAt c i cls unit detail).durable = s.durable := by simp [State.faultAt]

@[simp] theorem frpEffect_durable (a _old v : Nat) : (frpEffect s a _old v).durable = s.durable := by simp [frpEffect]

@[simp] theorem State.frpPop_durable (i2c : Bool) : (s.frpPop i2c).durable = s.durable := by
  simp only [State.frpPop]
  split
  · exact State.setReg_durable
  · rw [State.durable_ite, State.durable_foldl (fun _ _ => State.setReg_durable), ite_self, State.setReg_durable, State.setFrp_durable]

theorem execMemoryFault_durable (core : Fin 128) (pa : BitVec 40) : KeepsDurable s (execMemoryFault core pa s) := keeps_next (by split <;> simp)

theorem execTaskOverrun_durable (core : Fin 128) : KeepsDurable s (execTaskOverrun core s) := keeps_next (by split <;> simp)

theorem execCoreHang_durable (core : Fin 128) (ns : BitVec 32) : KeepsDurable s (execCoreHang core ns s) := keeps_next (by simp)

@[simp] theorem State.tlbPut_durable (u : Nat) (e : TlbEnt) : (s.tlbPut u e).durable = s.durable := by simp [State.tlbPut]

@[simp] theorem State.lookup_durable (u ctx va : Nat) : (s.lookup u ctx va).durable = s.durable := by
  simp only [State.lookup]
  (repeat' split) <;> simp

@[simp] theorem State.coreLookup_durable (c ctx va : Nat) : (s.coreLookup c ctx va).durable = s.durable := by
  simp only [State.coreLookup]
  (repeat' split) <;> simp

@[simp] theorem State.tlbDrop_durable (gone : TlbEnt → Bool) : (s.tlbDrop gone).durable = s.durable := rfl

@[simp] theorem State.markPin_durable (x : Xlate) (on : Bool) : (s.markPin x on).durable = s.durable := by
  simp only [State.markPin]
  split
  · rfl
  · split
    · exact State.durable_foldl (fun _ _ => State.memSet_durable) _ _
    · exact State.memSet_durable

@[simp] theorem State.lookRange_durable (u ctx va len : Nat) : (s.lookRange u ctx va len).durable = s.durable := by simp [State.lookRange]

@[simp] theorem State.pinRange_durable (ctx va len : Nat) : (s.pinRange ctx va len).durable = s.durable := by
  simp [State.pinRange]

@[simp] theorem State.unpinRange_durable (ctx va len : Nat) : (s.unpinRange ctx va len).durable = s.durable := by
  simp [State.unpinRange]

@[simp] theorem State.setDring_durable (r : Nat) (x : DRing) : (s.setDring r x).durable = s.durable := rfl

@[simp] theorem State.vwrite_durable (u ctx va : Nat) (b : Bytes) : (s.vwrite u ctx va b).durable = s.durable :=
  State.durable_foldl (fun _ _ => by dsimp only; (repeat' split) <;> simp) _ _

@[simp] theorem State.touch_durable (u ctx j va : Nat) (s : State) : (State.touch u ctx j va s).durable = s.durable := by
  induction j generalizing va s with
  | zero => rfl
  | succ j ih => simp only [State.touch]; split <;> simp [ih]

@[simp] theorem State.takeDescs_durable (r j : Nat) (s : State) : (s.takeDescs r j).durable = s.durable := by
  induction j generalizing s with
  | zero => rfl
  | succ j ih =>
    simp only [State.takeDescs]
    split
    · split
      · simp
      · split <;> simp [ih]
    · rfl

@[simp] theorem State.setDesc_durable (r : Nat) (d : Desc) : (s.setDesc r d).durable = s.durable := rfl

@[simp] theorem State.copyBytes_durable (w ctx j a b n : Nat) (s : State) : (State.copyBytes w ctx j a b n s).1.durable = s.durable := by
  induction j generalizing a b n s with
  | zero => rfl
  | succ j ih => simp only [State.copyBytes]; (repeat' split) <;> simp [ih]

@[simp] theorem State.putBytes_durable (w ctx : Nat) (l : Bytes) (b n : Nat) (s : State) : (State.putBytes w ctx l b n s).1.durable = s.durable := by
  induction l generalizing b n s with
  | nil => rfl
  | cons v l ih => simp only [State.putBytes]; split <;> simp [ih]

theorem State.begin_durable (r : Nat) (d : Desc) {run : State → State} (hr : ∀ t, (run t).durable = t.durable) :
    (s.begin_ r d run).durable = s.durable := by
  simp [State.begin_, hr]

@[simp] theorem State.fillRx_durable (r : Nat) (f : RxFrame) (cls port j : Nat) (used : List Nat) (b : Bytes) (fi : Bool) (s : State) :
    (State.fillRx r f cls port used j b fi s).1.durable = s.durable := by
  induction j generalizing used b fi s with
  | zero => rfl
  | succ j ih =>
    simp only [State.fillRx]
    split
    · rfl
    · split
      · split <;> simp [ih]
      · split
        · simp [ih]
        · split
          · simp [ih]
          · split <;> simp [ih]

@[simp] theorem State.abandon_durable (r : Nat) (used : List Nat) (flt : Option (Nat × Nat)) : (s.abandon r used flt).durable = s.durable := rfl

@[simp] theorem State.dropStarved_durable (r : Nat) : (s.dropStarved r).durable = s.durable := by simp [State.dropStarved]

@[simp] theorem State.writeCompletion_durable (r : Nat) (d : Desc) (b0 status : Nat) : (s.writeCompletion r d b0 status).durable = s.durable := by
  simp [State.writeCompletion]

@[simp] theorem State.clearOwn_durable (r : Nat) (d : Desc) : (s.clearOwn r d).durable = s.durable := by simp [State.clearOwn]

@[simp] theorem State.notify_durable (r : Nat) (d : Desc) : (s.notify r d).durable = s.durable := by simp [State.notify]

@[simp] theorem State.finishDesc_durable (r : Nat) (d : Desc) : (s.finishDesc r d).durable = s.durable := by simp [State.finishDesc]

@[simp] theorem State.dengRest_durable (e : Nat) : (s.dengRest e).durable = s.durable := by simp [State.dengRest]

@[simp] theorem State.kennelDone_durable (a : Area) (status done fl : Nat) : (s.kennelDone a status done fl).durable = s.durable := by
  simp [State.kennelDone]

@[simp] theorem State.putArea_durable (a b : Area) : (s.putArea a b).durable = s.durable := rfl

@[simp] theorem State.post_durable (r : Nat) (b : Bytes) : (s.post r b).1.durable = s.durable := by simp [State.post]

@[simp] theorem State.postArea_durable (a : Area) : (s.postArea a).1.durable = s.durable := by simp [State.postArea]

@[simp] theorem State.restageEnds_durable (k : Task) (e status done fl : Nat) : (s.restageEnds k e status done fl).durable = s.durable := by
  simp [State.restageEnds]

@[simp] theorem State.startStages_durable : s.startStages.durable = s.durable := by
  refine State.durable_foldl (fun t a => ?_) _ _
  dsimp only
  split
  · rfl
  · split
    case h_1 => rfl
    case h_2 e => simp [State.pickEng_durable e]

@[simp] theorem State.orderStage_durable (l : Nat) (b : Inst) : (s.orderStage l b).durable = s.durable := by simp [State.orderStage]

@[simp] theorem State.freeArea_durable (a : Area) : (s.freeArea a).durable = s.durable := by simp [State.freeArea]

@[simp] theorem State.setAreaSt_durable (a : Area) (st : Nat) : (s.setAreaSt a st).durable = s.durable := rfl

@[simp] theorem State.releaseArea_durable (a : Area) : (s.releaseArea a).durable = s.durable := by simp [State.releaseArea]

@[simp] theorem State.descDone_durable (r : Nat) (d : Desc) : (s.descDone r d).durable = s.durable := by simp [State.descDone]

@[simp] theorem State.countPark_durable (cause : Nat) : (s.countPark cause).durable = s.durable := by simp [State.countPark]

@[simp] theorem State.parkTask_durable (r : Nat) (d : Desc) : (s.parkTask r d).durable = s.durable := by
  simp only [State.parkTask]
  (repeat' split) <;> simp

@[simp] theorem State.ringCfg_durable (r : Nat) (x : RingSetup) : (s.ringCfg r x).durable = s.durable := by simp [State.ringCfg]

@[simp] theorem State.backAgain_durable (a : Area) (unit : Nat) : (s.backAgain a unit).durable = s.durable := by
  simp only [State.backAgain]
  split
  case h_1 e => simp [State.pickEng_durable e]
  case h_2 => simp

@[simp] theorem State.dengFail_durable (e : Nat) : (s.dengFail e).durable = s.durable :=
  (State.durable_foldl (fun _ _ => by dsimp only; (repeat' split) <;> simp) _ _).trans (by simp)

@[simp] theorem State.findGen_durable : s.findGen.durable = s.durable := rfl

@[simp] theorem State.fwWrite_durable (w : FwWrites) : (s.fwWrite w).durable = s.durable := by
  rw [State.fwWrite, State.findGen_durable, State.durable_foldl fun t c => ?_, State.durable_foldl fun _ _ => State.setMmu_durable]
  split
  · exact State.memSet_durable
  · rfl

@[simp] theorem State.writeEntry_durable (at_ e : Nat) : (s.writeEntry at_ e).durable = s.durable := by simp [State.writeEntry]

@[simp] theorem State.moveDone_durable : s.moveDone.durable = s.durable := by
  simp only [State.moveDone]
  split
  · rfl
  · rw [State.unblock_durable, State.durable_foldl fun t r => ?_]
    · simp only [State.bump_durable, State.setFld_durable, State.tlbDrop_durable, State.setMmu_durable]
      split
      · split <;> simp
      · simp
    · split <;> simp

@[simp] theorem State.coreAccess_durable (c i : Nat) (t : Task) (va acc : Nat) : (s.coreAccess c i t va acc).durable = s.durable := by
  simp only [State.coreAccess]
  split <;> simp

theorem execAccessFault_durable (core : Fin 128) (va : BitVec 48) (acc : Fin 3) : KeepsDurable s (execAccessFault core va acc s) := keeps_next (by
  split <;> simp)

@[simp] theorem mmuEffect_durable (a _old v : Nat) : (mmuEffect s a _old v).durable = s.durable := by simp [mmuEffect]

theorem execDmaCopy_durable (ring : Fin 256) : KeepsDurable s (execDmaCopy ring s) := keeps_next (by
  split
  · rfl
  · exact State.begin_durable _ _ fun t => by
      show (State.moved (State.setDesc (State.copyBytes _ _ _ _ _ _ t).1 _ _) _ _).durable = _
      simp)

theorem execDmaFill_durable (ring : Fin 256) : KeepsDurable s (execDmaFill ring s) := keeps_next (by
  split
  · rfl
  · exact State.begin_durable _ _ fun t => by
      show (State.moved (State.setDesc (State.putBytes _ _ _ _ _ t).1 _ _) _ _).durable = _
      simp)

theorem execDmaTx_durable (ring : Fin 256) : KeepsDurable s (execDmaTx ring s) := keeps_next (by
  dsimp only
  (repeat' split) <;> simp)

theorem execDmaRx_durable (ring : Fin 256) : KeepsDurable s (execDmaRx ring s) := keeps_next (by split <;> simp)

theorem execDmaRelease_durable (ring : Fin 256) : KeepsDurable s (execDmaRelease ring s) := keeps_next (by split <;> simp)

@[simp] theorem State.stageEnds_durable (a : Area) : (s.stageEnds a).durable = s.durable := by simp [State.stageEnds]

@[simp] theorem State.frameStaged_durable (l : Nat) (b : Inst) : (s.frameStaged l b).durable = s.durable := by
  simp only [State.frameStaged]
  split <;> simp

theorem execStageInDone_durable (leg : Fin 131072) : KeepsDurable s (execStageInDone leg s) := keeps_next (by split <;> simp)

theorem execDmaDescComplete_durable (ring : Fin 256) : KeepsDurable s (execDmaDescComplete ring s) := keeps_next (by (repeat' split) <;> simp)

theorem execReplayRestageDone_durable (leg : Fin 131072) : KeepsDurable s (execReplayRestageDone leg s) := keeps_next (by (repeat' split) <;> simp)

@[simp] theorem State.parkArea_durable (a : Area) : (s.parkArea a).1.durable = s.durable := by simp [State.parkArea]

@[simp] theorem State.parkRestage_durable (k : Task) (e : Nat) : (s.parkRestage k e).1.durable = s.durable := by simp [State.parkRestage]

theorem execDmaDescPark_durable (ring : Fin 256) : KeepsDurable s (execDmaDescPark ring s) := keeps_next (by
  dsimp only
  (repeat' split) <;> simp)

theorem execMmuParkResume_durable (ring : Fin 256) : KeepsDurable s (execMmuParkResume ring s) := keeps_next (by (repeat' split) <;> simp)

theorem execMmuParkAbort_durable (ring : Fin 256) : KeepsDurable s (execMmuParkAbort ring s) := keeps_next (by (repeat' split) <;> simp)

theorem execMmuRingTailWrite_durable (ring : Fin 256) (cfg : Option RingSetup) (by_ : Option (Fin 128)) (descs : List Bytes) (v : Word) :
    KeepsDurable s (execMmuRingTailWrite ring cfg by_ descs v s) := keeps_next (by
  split <;> simp)

theorem execMmuDmaEnWrite_durable (eng : Fin 32) (v : Word) : KeepsDurable s (execMmuDmaEnWrite eng v s) := keeps_next (by (repeat' split) <;> simp)

theorem execMmuMoveGo_durable (v : Word) (va0 : BitVec 48) (pa0 : BitVec 40) : KeepsDurable s (execMmuMoveGo v va0 pa0 s) :=
  keeps_next (by
  split
  · rfl
  · split
    · rfl
    · extract_lets s0 s00 s1 va pa
      have h1 : s1.durable = s.durable := by simp [s1, s00, s0]
      split
      · exact h1
      · split
        · exact (State.setFld_durable _ _).trans h1
        · extract_lets n
          split
          · exact (State.setFld_durable _ _).trans h1
          · split
            · exact (State.setFld_durable _ _).trans h1
            · split
              · exact (State.setFld_durable _ _).trans h1
              · rw [State.bump_durable, State.setFld_durable, State.tlbDrop_durable, State.writeEntry_durable, State.setMmu_durable, h1])

theorem execMmuInvGo_durable {sf : State} (v : Word) (va0 : BitVec 48) (fw : FwWrites) : KeepsDurable sf (execMmuInvGo v va0 fw sf) :=
  keeps_next (by
  split
  · exact State.fwWrite_durable _
  · dsimp only
    split <;> simp only [State.setFld_durable, State.setMmu_durable, State.fwWrite_durable])

theorem execInvalidationDone_durable : KeepsDurable s (execInvalidationDone s) := keeps_next (by split <;> simp)

theorem execCoreTransitAccess_durable (core : Fin 128) (va : BitVec 48) : KeepsDurable s (execCoreTransitAccess core va s) := keeps_next (by
  split <;> simp)

/-! Host keys, baler, gleaner, persistent store, reports and shutdown: the durable things stay. -/

@[simp] theorem State.engWork_durable (k n : Nat) : (s.engWork k n).durable = s.durable := rfl

@[simp] theorem State.chainBegun_durable (l n : Nat) (c : Chain) : (s.chainBegun l n c).durable = s.durable := by simp [State.chainBegun]

@[simp] theorem State.echoBegun_durable (l : Nat) : (s.echoBegun l).durable = s.durable := rfl

@[simp] theorem State.fceRun_durable (c : CallAt) (e now : Nat) : (s.fceRun c e now).durable = s.durable := by simp [State.fceRun]

@[simp] theorem State.eceRun_durable (c : CallAt) (e : Nat) : (s.eceRun c e).durable = s.durable := by simp [State.eceRun]

@[simp] theorem State.callRun_durable (q : EngCall) : (s.callRun q).durable = s.durable := by
  simp only [State.callRun]
  split <;> simp

@[simp] theorem State.callEnd_durable (i : Nat) : (s.callEnd i).durable = s.durable := by
  simp only [State.callEnd]
  split <;> simp

@[simp] theorem State.callsEnd_durable (core : Nat) : (s.callsEnd core).durable = s.durable := by
  simp only [State.callsEnd]
  split <;> simp

@[simp] theorem State.callTo_durable (k : Nat) (c : CallAt) (swap : Option Swap) : (s.callTo k c swap).durable = s.durable := rfl

@[simp] theorem State.cutFor_durable (cls e : Nat) (cut : Bool) : (s.cutFor cls e cut).durable = s.durable := by
  simp only [State.cutFor]
  (repeat' split) <;> simp

@[simp] theorem State.callCancel_durable (i : Nat) : (s.callCancel i).durable = s.durable := by
  simp only [State.callCancel]
  split <;> simp

@[simp] theorem State.mediaDone_durable (i : Nat) (t : Task) (l core : Nat) (w : Work) : (s.mediaDone i t l core w).durable = s.durable := by
  simp [State.mediaDone]

@[simp] theorem State.taskEnd_durable (c : Nat) : (s.taskEnd c).durable = s.durable := by
  simp only [State.taskEnd]
  (repeat' split) <;> simp

@[simp] theorem State.holdDis_durable (u : Nat) (on : Bool) : (s.holdDis u on).durable = s.durable := rfl

@[simp] theorem State.setFceFn_durable (e : Nat) (f : Fn) (fault : Bool) : (s.setFceFn e f fault).durable = s.durable := by simp [State.setFceFn]

@[simp] theorem State.setEceFn_durable (e : Nat) (f : Fn) (fault : Bool) : (s.setEceFn e f fault).durable = s.durable := by simp [State.setEceFn]

@[simp] theorem State.fceTick_durable (e : Nat) : (s.fceTick e).durable = s.durable := by
  simp only [State.fceTick]
  split <;> simp

@[simp] theorem State.eceTick_durable (e : Nat) : (s.eceTick e).durable = s.durable := by
  simp only [State.eceTick]
  split <;> simp

@[simp] theorem fceEffect_durable (a _old v : Nat) : (fceEffect s a _old v).durable = s.durable := by simp [fceEffect]

@[simp] theorem eceEffect_durable (a _old v : Nat) : (eceEffect s a _old v).durable = s.durable := by simp [eceEffect]

theorem execFceCall_durable (core : Fin 128) (eng : Fin 32) : KeepsDurable s (execFceCall core eng s) := keeps_next (by (repeat' split) <;> simp)

theorem execEceCall_durable (core : Fin 128) (eng : Fin 32) : KeepsDurable s (execEceCall core eng s) := keeps_next (by (repeat' split) <;> simp)

theorem execEngineParity_durable (core : Fin 128) : KeepsDurable s (execEngineParity core s) := keeps_next (by split <;> simp)

theorem execTaskDone_durable (core : Fin 128) (made : List SysMake) : KeepsDurable s (execTaskDone core made s) := keeps_next (by simp)

theorem execFceCfgEnWrite_durable (e : Fin 16) (v : Word) : KeepsDurable s (execFceCfgEnWrite e v s) := keeps_next (by simp)

theorem execEceCfgEnWrite_durable (e : Fin 32) (v : Word) : KeepsDurable s (execEceCfgEnWrite e v s) := keeps_next (by simp)

@[simp] theorem State.rxAccept_durable (p : Nat) (b : Bytes) (stamp : Inst) : (s.rxAccept p b stamp).durable = s.durable := by
  simp only [State.rxAccept]
  (repeat' split) <;> simp

@[simp] theorem State.rxOversize_durable (w : RxWire) : (s.rxOversize w).durable = s.durable := by
  simp only [State.rxOversize]
  split <;> simp

@[simp] theorem State.fecCount_durable (w : RxWire) : (s.fecCount w).durable = s.durable := by simp [State.fecCount]

@[simp] theorem State.rxRows_durable (w : RxWire) : (s.rxRows w).durable = s.durable := by
  simp only [State.rxRows]
  (repeat' split) <;> simp

theorem execMacRxFrame_durable (w : RxWire) : KeepsDurable s (execMacRxFrame w s) := keeps_next (by simp)

@[simp] theorem State.fnTick_durable : s.fnTick.durable = s.durable := by simp [State.fnTick]

theorem execTmuTick_durable : KeepsDurable s (execTmuTick s) := keeps_next (by simp)

@[simp] theorem State.setBal_durable (x : Bal) : (s.setBal x).durable = s.durable := rfl

@[simp] theorem State.setBeng_durable (e : Nat) (x : BEng) : (s.setBeng e x).durable = s.durable := rfl

@[simp] theorem State.setBring_durable (k : Nat) (x : BRing) : (s.setBring k x).durable = s.durable := rfl

theorem State.balTake_durable {s u : State} {e : Nat} (h : s.balTake e = some u) : u.durable = s.durable := by
  simp only [State.balTake] at h
  split at h
  · cases h
  · split at h
    · cases h; rfl
    · split at h
      · cases h
      · cases h; simp

@[simp] theorem State.bput_durable (ctx : Nat) (ents : List (Nat × Nat)) (b : Bytes) (p : Nat) (s : State) :
    (State.bput ctx ents b p s).1.durable = s.durable := by
  induction b generalizing p s with
  | nil => rfl
  | cons v b ih => simp only [State.bput]; split <;> simp [ih]

@[simp] theorem State.balRun_durable (j : BJob) (st : BStop) (new : List (Nat × Nat)) (mismatch : Bool) :
    (s.balRun j st new mismatch).1.durable = s.durable := by
  simp only [State.balRun]
  (repeat' split) <;> simp

@[simp] theorem State.balStart_durable {e want : Nat} {mismatch : Bool} : (s.balStart e want mismatch).durable = s.durable := by
  simp only [State.balStart]
  split
  · rfl
  · split
    · rfl
    · rename_i hs
      have h := State.balTake_durable hs
      (repeat' split) <;> simp [h]

@[simp] theorem State.balEnd_durable (e : Nat) (j : BJob) : (s.balEnd e j).durable = s.durable := by simp [State.balEnd]

@[simp] theorem State.balFail_durable (e : Nat) : (s.balFail e).durable = s.durable := by
  simp only [State.balFail]
  split <;> simp

@[simp] theorem balEffect_durable (a old v : Nat) : (balEffect s a old v).durable = s.durable := by
  rw [balEffect, State.durable_ite, State.durable_foldl (fun _ _ => State.setBeng_durable _ _), ite_self]

theorem execBalerCompress_durable (eng : Fin 4) (mismatch : Bool) : KeepsDurable s (execBalerCompress eng mismatch s) := keeps_next (by simp)

theorem execBalerDecompress_durable (eng : Fin 4) : KeepsDurable s (execBalerDecompress eng s) := keeps_next (by simp)

theorem execBalerResume_durable (eng : Fin 4) (mismatch : Bool) : KeepsDurable s (execBalerResume eng mismatch s) := keeps_next (by simp)

theorem execBalerJobEnd_durable (eng : Fin 4) (parity : Bool) : KeepsDurable s (execBalerJobEnd eng parity s) := keeps_next (by split <;> simp)

theorem execBalCfgEnWrite_durable (v : Word) : KeepsDurable s (execBalCfgEnWrite v s) := keeps_next (by simp)

theorem execBalRingTailWrite_durable (ring : Fin 4) (jobs : List Bytes) (v : Word) :
    KeepsDurable s (execBalRingTailWrite ring jobs v s) := keeps_next (by
  simp)

@[simp] theorem State.fabUse_durable (n : Nat) : (s.fabUse n).durable = s.durable := rfl

@[simp] theorem State.capHold_durable (k : Nat) : (s.capHold k).durable = s.durable := by simp [State.capHold]

@[simp] theorem State.cutAny_durable (r : Slice) (cause : Nat) : (s.cutAny r cause).durable = s.durable := by simp [State.cutAny]

@[simp] theorem State.cutAll_durable (cause : Nat) : (s.cutAll cause).durable = s.durable := by simp [State.cutAll]

@[simp] theorem State.noteOut_durable (cls idx : Nat) (out : Bool) : (s.noteOut cls idx out).durable = s.durable := rfl

@[simp] theorem State.coverEnd_durable (mem : Bool) : (s.coverEnd mem).durable = s.durable := by simp [State.coverEnd]

@[simp] theorem State.coverSlice_durable (cls idx num : Nat) : (s.coverSlice cls idx num).durable = s.durable := by simp [State.coverSlice]

@[simp] theorem State.coverDrop_durable (cls idx : Nat) : (s.coverDrop cls idx).durable = s.durable := by simp [State.coverDrop]

@[simp] theorem State.takeOut_durable (cls idx : Nat) : (s.takeOut cls idx).durable = s.durable := by
  simp only [State.takeOut]
  split <;> simp only [State.durable_ite, ite_self, State.balFail_durable, State.onFault_durable, State.noteOut_durable, State.coverDrop_durable,
    State.setGln_durable, State.setUnitT_durable, State.setFceFn_durable, State.setEceFn_durable, State.setCore_durable, State.sysFreed_durable,
    State.dengFail_durable, State.bump_durable, State.raise_durable, State.durable_foldl, implies_true]

@[simp] theorem State.gleanFault_durable (cls idx unit : Nat) : (s.gleanFault cls idx unit).durable = s.durable := by simp [State.gleanFault]

@[simp] theorem State.unitStep_durable (cls idx num : Nat) : (s.unitStep cls idx num).durable = s.durable := by simp [State.unitStep]

@[simp] theorem State.logicEnd_durable (r : Slice) (sig : Bytes) (pass : Bool) : (s.logicEnd r sig pass).durable = s.durable := by
  simp [State.logicEnd]

@[simp] theorem State.memEnd_durable (r : Slice) (err : Option MemErr) : (s.memEnd r err).durable = s.durable := by
  simp only [State.memEnd]
  (repeat' split) <;> simp

@[simp] theorem State.glnBack_durable : s.glnBack.durable = s.durable := State.durable_foldl (fun _ _ => by split <;> simp) _ _

@[simp] theorem glnEffect_durable (a _old v : Nat) : (glnEffect s a _old v).durable = s.durable := by simp [glnEffect]

@[simp] theorem State.glnPop_durable (i2c : Bool) : (s.glnPop i2c).durable = s.durable := by
  simp only [State.glnPop]
  split
  · exact State.setReg_durable
  · rw [State.durable_ite, State.durable_foldl (fun _ _ => State.setReg_durable), ite_self, State.setReg_durable, State.setGln_durable]

theorem opBistRequest_durable : opBistRequest.KeepsDurable := fun _ _ _ _ => rfl

theorem opBistFuseArm_durable : opBistFuseArm.KeepsDurable := fun _ _ _ _ => rfl

theorem opBistFuseConfirm_durable : opBistFuseConfirm.KeepsDurable := fun c plan s b => by
  simp only [opBistFuseConfirm, OpDef.admin, Done.res]
  (repeat' split) <;> exact (State.setNv_durable rfl rfl).trans (State.setGln_durable _)

theorem opBistLcArm_durable : opBistLcArm.KeepsDurable := fun _ _ _ _ => rfl

theorem opBistLcConfirm_durable : opBistLcConfirm.KeepsDurable := fun _ _ _ _ => rfl

theorem opBistRepairList_durable : opBistRepairList.KeepsDurable := fun _ _ _ _ => rfl

theorem opBistUnitStatus_durable : opBistUnitStatus.KeepsDurable := fun _ _ _ _ => rfl

theorem execGlnSliceStart_durable (cls : Fin 7) (idx : Fin 128) : KeepsDurable s (execGlnSliceStart cls idx s) := keeps_next (by simp)

theorem execGlnSliceEnd_durable (r : SliceResult) : KeepsDurable s (execGlnSliceEnd r s) := keeps_next (by (repeat' split) <;> simp)

@[simp] theorem State.prsWrote_durable (n : Nat) : (s.prsWrote n).durable = s.durable := rfl

@[simp] theorem State.prsRead_durable : s.prsRead.durable = s.durable := rfl

theorem State.commitRec_durable {s u : State} {r : JRec} (e : s.commitRec r = some u) : u.durable = s.durable := by
  simp only [State.commitRec] at e
  split at e
  · cases e
  · cases e; simp

@[simp] theorem State.fateCommit_durable (session keyId seq : Nat) : (s.fateCommit session keyId seq).durable = s.durable := rfl

theorem Nv.putCkpt_keys_boot (n : Nv) (c : Ckpt) : (n.putCkpt c).hostKeys = n.hostKeys ∧ (n.putCkpt c).boot = n.boot := by
  simp only [Nv.putCkpt]
  (repeat' split) <;> exact ⟨rfl, rfl⟩

@[simp] theorem State.checkpoint_durable {forget : Bool} : (s.checkpoint forget).durable = s.durable := by
  rw [State.checkpoint, State.setReg_durable, State.bump_durable, State.prsWrote_durable]
  refine (State.setNv_durable ?_ ?_ : (s.setNv _).durable = _)
  · split <;> exact (s.nv.putCkpt_keys_boot _).1
  · split <;> exact (s.nv.putCkpt_keys_boot _).2

@[simp] theorem State.ckptFail_durable : s.ckptFail.durable = s.durable := by simp [State.ckptFail]

@[simp] theorem State.slogPut_durable (step alt outcome detail startUs durUs data : Nat) :
    (s.slogPut step alt outcome detail startUs durUs data).durable = s.durable := by
  rw [State.slogPut, State.durable_ite, State.prsWrote_durable, State.setNv_durable, ite_self]
  · simp only
  · simp only

theorem opPrsPartition_durable : opPrsPartition.KeepsDurable := fun _ _ _ _ => rfl

theorem opPrsCheckpoint_durable : opPrsCheckpoint.KeepsDurable := fun _ _ _ _ => rfl

theorem opPrsLogRead_durable : opPrsLogRead.KeepsDurable := fun _ _ _ _ => rfl

theorem opPrsInfo_durable : opPrsInfo.KeepsDurable := fun _ _ _ _ => rfl

theorem opStatJrnlFate_durable : opStatJrnlFate.KeepsDurable := fun _ _ _ _ => rfl

theorem Nv.setSlot_keys_boot (n : Nv) (k : Nat) (x : FwSlot) : (n.setSlot k x).hostKeys = n.hostKeys ∧ (n.setSlot k x).boot = n.boot := by
  rw [Nv.setSlot]
  split <;> exact ⟨rfl, rfl⟩

@[simp] theorem State.setSlot_durable {k : Nat} {x : FwSlot} : (s.setNv (s.nv.setSlot k x)).durable = s.durable :=
  State.setNv_durable (s.nv.setSlot_keys_boot k x).1 (s.nv.setSlot_keys_boot k x).2

theorem opFwLoad_durable : opFwLoad.KeepsDurable := fun c plan s b => by
  simp only [opFwLoad, Done.ok, Done.stat]
  split <;> simp

theorem opFwActivate_durable : opFwActivate.KeepsDurable := fun _ _ _ _ => rfl

theorem opFwStartClear_durable : opFwStartClear.KeepsDurable := fun _ _ _ _ => rfl

theorem opFwInfo_durable : opFwInfo.KeepsDurable := fun _ _ _ _ => rfl

theorem execCheckpointTimer_durable : KeepsDurable s (execCheckpointTimer s) := keeps_next (by simp)

theorem execCheckpointWritten_durable (ok : Bool) : KeepsDurable s (execCheckpointWritten ok s) := keeps_next (by simp)

theorem execPrsBlockFail_durable (_block : Fin 2048) : KeepsDurable s (execPrsBlockFail _block s) := keeps_next (by simp)

@[simp] theorem State.ipfixSend_durable {x : Ipfix} {sets : Bytes} {recs : Nat} : (s.ipfixSend x sets recs).durable = s.durable := by
  simp [State.ipfixSend]

@[simp] theorem State.sendTemplates_durable : s.sendTemplates.durable = s.durable := by
  simp only [State.sendTemplates]
  split <;> simp

@[simp] theorem State.ipfixStart_durable : s.ipfixStart.durable = s.durable := by
  simp only [State.ipfixStart]
  split <;> simp

@[simp] theorem State.reportLeg_durable {i : Ipfix} {l : Nat} : (s.reportLeg i l).durable = s.durable := by simp [State.reportLeg]

@[simp] theorem State.reportOrWait_durable (i : Ipfix) (l : Nat) : (s.reportOrWait i l).durable = s.durable := by simp [State.reportOrWait]

@[simp] theorem State.ipfixLegs_durable {s0 : State} : (State.ipfixLegs s0).durable = s0.durable := by
  simp only [State.ipfixLegs]
  split <;> simp

theorem opStatLeg_durable : opStatLeg.KeepsDurable := fun _ _ _ _ => rfl

theorem opStatDevice_durable : opStatDevice.KeepsDurable := fun _ _ _ _ => rfl

theorem opStatIpfixSet_durable : opStatIpfixSet.KeepsDurable := fun _ _ _ _ => State.ipfixStart_durable.trans (State.setNv_durable rfl rfl)

theorem execIpfixTemplate_durable : KeepsDurable s (execIpfixTemplate s) := keeps_next (by simp)

theorem execIpfixHealth_durable : KeepsDurable s (execIpfixHealth s) := keeps_next (by
  split
  · split
    · split
      · exact State.capHold_durable _
      · rw [State.ipfixSend_durable, State.durable_mk]; rfl
    · rfl
  · rfl)

@[simp] theorem State.setShut_durable (x : Shut) : (s.setShut x).durable = s.durable := rfl

@[simp] theorem State.shutLegs_durable : s.shutLegs.durable = s.durable := by
  simp only [State.shutLegs]
  split
  · refine (State.durable_foldl (fun t p => ?_) _ _).trans (State.setShut_durable _)
    split <;> simp
  · rfl

@[simp] theorem State.shutStart_durable (action : Nat) (skip forget : Bool) (drainNs : Nat) (by_ : Option (Nat × Nat)) :
    (s.shutStart action skip forget drainNs by_).durable = s.durable := by
  simp [State.shutStart]

@[simp] theorem State.shutThermal_durable : s.shutThermal.durable = s.durable := by simp [State.shutThermal]

@[simp] theorem State.shutRecords_durable : s.shutRecords.durable = s.durable := by simp [State.shutRecords]

@[simp] theorem State.shutEnd_durable : s.shutEnd.durable = s.durable := by simp [State.shutEnd]

@[simp] theorem State.shutReply_durable (st det : Nat) : (s.shutReply st det).durable = s.durable := by
  simp only [State.shutReply]
  split <;> simp

@[simp] theorem State.reviveLeg_durable (l : Nat) (old : Leg) : (s.reviveLeg l old).durable = s.durable := by
  simp only [State.reviveLeg]
  split
  · exact State.setLeg_durable _ _
  · rw [State.armCmd_durable, State.report_durable, State.charge_durable, State.setLeg_durable]
  · rfl

@[simp] theorem State.revive_durable : s.revive.durable = s.durable := by simp [State.revive]

@[simp] theorem State.reviveAtBoundary_durable (b : Inst) : (s.reviveAtBoundary b).durable = s.durable := by simp [State.reviveAtBoundary]

theorem opShutBegin_durable : opShutBegin.KeepsDurable := fun c plan s b => by
  simp only [opShutBegin, OpDef.admin]
  split
  · exact State.owe_durable _ _ _
  · exact State.shutStart_durable _ _ _ _ _

theorem opShutAbort_durable : opShutAbort.KeepsDurable := fun _ _ _ _ =>
  (State.setShut_durable _).trans (State.revive_durable.trans (State.shutReply_durable _ _))

theorem opShutStatus_durable : opShutStatus.KeepsDurable := fun _ _ _ _ => rfl

theorem execShutdownDrainEnd_durable : KeepsDurable s (execShutdownDrainEnd s) := keeps_next (by simp)

theorem execShutdownTestDone_durable (r : ShutTest) : KeepsDurable s (execShutdownTestDone r s) := keeps_next (by simp)

@[simp] theorem State.setBgw_durable (x : Bgw) : (s.setBgw x).durable = s.durable := rfl

@[simp] theorem State.patrolTo_durable (hbm : Bool) (at_ loc : Nat) : (s.patrolTo hbm at_ loc).durable = s.durable := by simp [State.patrolTo]

@[simp] theorem State.scrub_durable (hbm : Bool) (w : ScrubWord) : (s.scrub hbm w).durable = s.durable := by
  simp only [State.scrub]
  (repeat' split) <;> simp

@[simp] theorem State.thermEnter_durable (k : Nat) : (s.thermEnter k).durable = s.durable := by
  simp only [State.thermEnter]
  split <;> simp

@[simp] theorem State.thermPins_durable : s.thermPins.durable = s.durable := rfl

@[simp] theorem State.thermal_durable (t : List (BitVec 16)) : (s.thermal t).durable = s.durable := by
  rw [State.thermal, State.thermPins_durable, State.durable_foldl fun _ _ => State.thermEnter_durable _, State.setFld_durable, State.setFld_durable,
    State.setFld_durable, State.durable_foldl fun _ _ => State.setReg_durable]

@[simp] theorem State.patrolResume_durable (hbm : Bool) : (s.patrolResume hbm).durable = s.durable := by simp [State.patrolResume]

@[simp] theorem bgwEffect_durable (a old v : Nat) : (bgwEffect s a old v).durable = s.durable := by simp [bgwEffect]

theorem execScrubRead_durable (space : ScrubSpace) (word : ScrubWord) : KeepsDurable s (execScrubRead space word s) := keeps_next (by simp)

theorem execHbmRetrain_durable (pch : Fin 64) (ok : Bool) : KeepsDurable s (execHbmRetrain pch ok s) := keeps_next (by simp)

theorem execPllCalibration_durable : KeepsDurable s (execPllCalibration s) := keeps_next (by simp)

theorem execSensorRead_durable (t : List (BitVec 16)) : KeepsDurable s (execSensorRead t s) := keeps_next (by simp)

theorem execOverTempReset_durable : KeepsDurable s (execOverTempReset s) := keeps_next (by simp)

theorem execAvsAdjust_durable (up ok : Bool) : KeepsDurable s (execAvsAdjust up ok s) := keeps_next (by simp)

theorem opTimeClock_durable : opTimeClock.KeepsDurable := fun _ _ _ _ => rfl

theorem opTimePort_durable : opTimePort.KeepsDurable := fun _ _ _ _ => rfl

theorem opTimeUnicast_durable : opTimeUnicast.KeepsDurable := fun _ _ _ _ => rfl

theorem opTimeStatus_durable : opTimeStatus.KeepsDurable := fun _ _ _ _ => rfl

theorem opTimePortStatus_durable : opTimePortStatus.KeepsDurable := fun _ _ _ _ => rfl

@[simp] theorem State.slipLeg_durable (l q0 q1 : Nat) : (s.slipLeg l q0 q1).durable = s.durable := by simp [State.slipLeg]

@[simp] theorem State.slipEnd_durable (b : Inst) : (s.slipEnd b).durable = s.durable := by simp [State.slipEnd]

@[simp] theorem State.loadTo_durable (last peak : Fld) (v : Nat) : (s.loadTo last peak v).durable = s.durable := by simp [State.loadTo]

@[simp] theorem State.swathLoads_durable : s.swathLoads.durable = s.durable := by simp [State.swathLoads]

@[simp] theorem State.swathGln_durable : s.swathGln.durable = s.durable := by simp [State.swathGln]

@[simp] theorem State.forgetUnits_durable : s.forgetUnits.durable = s.durable := rfl

@[simp] theorem State.endSwath_durable (b : Inst) : (s.endSwath b).durable = s.durable := by simp [State.endSwath]

@[simp] theorem State.legsStop_durable (b : Inst) : (s.legsStop b).durable = s.durable := by simp [State.legsStop]

@[simp] theorem State.noteChg_durable (a : Armed) (b : Inst) : (s.noteChg a b).durable = s.durable := by simp [State.noteChg]

@[simp] theorem State.applyArmed_durable (a : Armed) (b : Inst) : (s.applyArmed a b).durable = s.durable := by simp [State.applyArmed]

@[simp] theorem State.applyDue_durable (b : Inst) : (s.applyDue b).durable = s.durable := by simp [State.applyDue]

@[simp] theorem State.followUnits_durable : s.followUnits.durable = s.durable := by simp [State.followUnits]

@[simp] theorem State.newSwath_durable (b : Inst) : (s.newSwath b).durable = s.durable := by simp [State.newSwath]

@[simp] theorem State.legsOn_durable (b : Inst) : (s.legsOn b).durable = s.durable := State.durable_foldl (fun _ _ => by simp) _ _

@[simp] theorem State.handLeg_durable (l : Nat) (b : Inst) : (s.handLeg l b).durable = s.durable := by
  simp only [State.handLeg, State.durable_ite, ite_self, State.logRecord_durable, State.mkTask_durable, State.setLeg_durable, State.plyHand_durable]

@[simp] theorem State.readFor_durable (i : Nat) : (s.readFor i).durable = s.durable := by
  simp only [State.readFor]
  (repeat' split) <;> simp

@[simp] theorem State.readyMedia_durable (p : Task → Bool) : (s.readyMedia p).durable = s.durable := by simp [State.readyMedia]

@[simp] theorem State.stageMissing_durable (b : Inst) : (s.stageMissing b).durable = s.durable := by simp [State.stageMissing]

@[simp] theorem State.stageSet_durable (b : Inst) : (s.stageSet b).durable = s.durable := by simp [State.stageSet]

@[simp] theorem State.stageReport_durable (b : Inst) : (s.stageReport b).durable = s.durable := by
  simp only [State.stageReport]
  (repeat' split) <;> simp

@[simp] theorem State.bgHolds_durable : s.bgHolds.durable = s.durable := by simp [State.bgHolds]

@[simp] theorem State.boundary_durable (b : Inst) : (s.boundary b).durable = s.durable := by simp [State.boundary]

@[simp] theorem State.gatherEnd_durable : s.gatherEnd.durable = s.durable := by simp [State.gatherEnd]

@[simp] theorem State.cancelOne_durable (i : Nat) (t : Task) : (s.cancelOne i t).durable = s.durable := by
  simp only [State.cancelOne]
  (repeat' split) <;> simp

@[simp] theorem State.abortDescs_durable (gone : List Nat) : (s.abortDescs gone).durable = s.durable := by simp [State.abortDescs]

@[simp] theorem State.abortStages_durable : s.abortStages.durable = s.durable := by simp [State.abortStages]

@[simp] theorem State.deadlineCancel_durable : s.deadlineCancel.durable = s.durable := by simp [State.deadlineCancel]

@[simp] theorem State.tapOut_durable (l tap : Nat) (b : Block) : (s.tapOut l tap b).durable = s.durable := by simp [State.tapOut]

@[simp] theorem State.toneOut_durable (l : Nat) (e : ToneEv) : (s.toneOut l e).durable = s.durable := by
  simp only [State.toneOut]
  (repeat' split) <;> simp

@[simp] theorem State.commitTask_durable (t : Task) : (s.commitTask t).durable = s.durable := by
  simp only [State.commitTask]
  split <;> simp

@[simp] theorem State.commitStats_durable (l : Nat) : (s.commitStats l).durable = s.durable := rfl

@[simp] theorem State.countTask_durable (t : Task) : (s.countTask t).durable = s.durable := by
  simp only [State.countTask]
  split <;> simp

@[simp] theorem State.commits_durable : s.commits.durable = s.durable := (State.durable_foldl (fun _ _ => by simp) _ _).trans (by simp)

@[simp] theorem State.backEng_durable (a : Area) : (s.backEng a).1.durable = s.durable := by
  simp only [State.backEng]
  split
  · rfl
  · split
    case h_1 e => exact State.pickEng_durable e
    case h_2 => rfl

@[simp] theorem State.backStart_durable (a b : Area) : (s.backStart a b).durable = s.durable := by simp [State.backStart]

@[simp] theorem State.replaysBack_durable : s.replaysBack.durable = s.durable := by simp [State.replaysBack]

@[simp] theorem State.writeBacks_durable : s.writeBacks.durable = s.durable :=
  (State.durable_foldl (fun _ _ => by split <;> simp) _ _).trans (by simp)

@[simp] theorem State.frameOut_durable (l : Nat) (f : Nat × Nat × Bool × Bytes) : (s.frameOut l f).durable = s.durable := by
  obtain ⟨kind, at_, _, pay⟩ := f
  have h := State.eventsOut_durable (s := s) l at_
  simp only [State.frameOut]
  split
  · exact h
  · split <;> simp [h]

@[simp] theorem State.slotOut_durable (l : Nat) (q : LSlot) : (s.slotOut l q).durable = s.durable := by
  simp only [State.slotOut]
  (repeat' split) <;> simp

@[simp] theorem State.rtcpSlots_durable : s.rtcpSlots.durable = s.durable := by simp [State.rtcpSlots]

@[simp] theorem State.leashesOut_durable : s.leashesOut.durable = s.durable := by
  refine (State.durable_foldl (fun _ _ => State.setLeg_durable _ _) _ _).trans (State.durable_foldl (fun t k => ?_) _ _)
  refine State.durable_foldl (fun u p => ?_) _ _
  split
  · exact State.slotOut_durable _ _
  · rfl

@[simp] theorem State.freeMedia_durable : s.freeMedia.durable = s.durable := State.durable_foldl (fun _ _ => by simp) _ _

@[simp] theorem State.restage_durable : s.restage.durable = s.durable := by simp [State.restage]

@[simp] theorem State.deadline_durable : s.deadline.durable = s.durable := by simp [State.deadline]

@[simp] theorem State.guardStart_durable : s.guardStart.durable = s.durable := by simp [State.guardStart]

@[simp] theorem State.phasesOwed_durable : s.phasesOwed.durable = s.durable := by simp [State.phasesOwed]

@[simp] theorem State.newLen_durable : s.newLen.durable = s.durable := by simp [State.newLen]

@[simp] theorem swtEffect_durable (a old v : Nat) : (swtEffect s a old v).durable = s.durable := by simp [swtEffect]

theorem execSwathBoundary_durable : KeepsDurable s (execSwathBoundary s) := keeps_next (by (repeat' split) <;> simp)

theorem execGatherEnd_durable : KeepsDurable s (execGatherEnd s) := keeps_next (by simp)

theorem execWorkStart_durable : KeepsDurable s (execWorkStart s) := keeps_next (by simp)

theorem execWorkDeadline_durable : KeepsDurable s (execWorkDeadline s) := keeps_next (by simp)

theorem execGuardStart_durable : KeepsDurable s (execGuardStart s) := keeps_next (by simp)

@[simp] theorem State.readAct_durable (i2c : Bool) (a : Nat) : (s.readAct i2c a).durable = s.durable := by
  simp only [State.readAct]
  (repeat' split) <;> simp

@[simp] theorem readRegs_durable (n : Nat) (s : State) (i : Bool) (a : Nat) : (readRegs n s i a).1.durable = s.durable := by
  induction n generalizing s a with
  | zero => rfl
  | succ n ih => simp [readRegs, ih]

@[simp] theorem State.effect_durable (a old v : Nat) : (s.effect a old v).durable = s.durable := by
  unfold State.effect
  split <;> simp

@[simp] theorem State.writePair_durable (a v : Nat) : (s.writePair a v).durable = s.durable := by simp [State.writePair]

@[simp] theorem applyPairs_durable (ps : List (Nat × Nat)) : (applyPairs s ps).1.durable = s.durable :=
  durable_foldl_fst (fun _ p => State.writePair_durable p.1 p.2) _ _

@[simp] theorem regApply_durable (b : Bytes) : (regApply s b).s.durable = s.durable := by simp [regApply]

@[simp] theorem State.loftDone_durable : s.loftDone.durable = s.durable := by simp [State.loftDone]

theorem opRegWrite_durable : opRegWrite.KeepsDurable := fun c plan s b => by
  simp only [opRegWrite, Done.wait]
  split <;> simp

@[simp] theorem writeOne_durable {c : RegCmd} {a v : Nat} : (writeOne c a v s).durable = s.durable :=
  runOp_durable opRegWrite_durable _ _ _

@[simp] theorem i2cRead_durable {n : Nat} : (i2cRead n s).durable = s.durable := by simp [i2cRead]

theorem opRegRead_durable : opRegRead.KeepsDurable := fun c plan s b => by simp [opRegRead, Done.res]

@[simp] theorem readOne_durable {p : Path} {a : Nat} : (readOne p a s).durable = s.durable := by
  simp only [readOne]
  split
  · exact runOp_durable opRegRead_durable _ _ _
  · split
    · rfl
    · exact i2cRead_durable.trans rfl

theorem execMoveComplete_durable : KeepsDurable s (execMoveComplete s) := keeps_next (by simp)

theorem execTmuCtlSet_durable (c : RegCmd) : KeepsDurable s (execTmuCtlSet c s) := keeps_next (by simp)

theorem execTmuCtlStep_durable (c : RegCmd) : KeepsDurable s (execTmuCtlStep c s) := keeps_next (by simp)

theorem execTmuSrvEnWrite_durable (c : RegCmd) (v : Word) : KeepsDurable s (execTmuSrvEnWrite c v s) := keeps_next (by simp)

theorem execTmuAddendWrite_durable (c : RegCmd) (ext : Bool) (v : Word) : KeepsDurable s (execTmuAddendWrite c ext v s) := keeps_next (by simp)

theorem execTmuRefSelWrite_durable (c : RegCmd) (v : Word) : KeepsDurable s (execTmuRefSelWrite c v s) := keeps_next (by simp)

theorem execTmuTimeSecHiRead_durable (p : Path) : KeepsDurable s (execTmuTimeSecHiRead p s) := keeps_next (by simp)

theorem execTmuTinPop_durable (n : Fin 5) (p : Path) : KeepsDurable s (execTmuTinPop n p s) := keeps_next (by simp)

theorem execTmuToutArm_durable (n : Fin 4) (c : RegCmd) : KeepsDurable s (execTmuToutArm n c s) := keeps_next (by simp)

theorem execTmuToutDisarm_durable (n : Fin 4) (c : RegCmd) : KeepsDurable s (execTmuToutDisarm n c s) := keeps_next (by simp)

theorem execMacCfgEnWrite_durable (p : Fin 8) (c : RegCmd) (v : Word) : KeepsDurable s (execMacCfgEnWrite p c v s) := keeps_next (by simp)

theorem execMacCtlAnRestart_durable (p : Fin 8) (c : RegCmd) : KeepsDurable s (execMacCtlAnRestart p c s) := keeps_next (by simp)

theorem execMacCtlPeakClr_durable (p : Fin 8) (c : RegCmd) : KeepsDurable s (execMacCtlPeakClr p c s) := keeps_next (by simp)

theorem execMacCntLoRead_durable (p : Fin 8) (tx : Bool) (path : Path) : KeepsDurable s (execMacCntLoRead p tx path s) := keeps_next (by simp)

theorem execQcpMzCtrHiRead_durable (k : Fin 8) (p : Path) : KeepsDurable s (execQcpMzCtrHiRead k p s) := keeps_next (by simp)

theorem execTndDevnoWrite_durable (c : RegCmd) (v : Word) : KeepsDurable s (execTndDevnoWrite c v s) := keeps_next (by simp)

theorem execTndWinWrite_durable (c : RegCmd) (v : Word) : KeepsDurable s (execTndWinWrite c v s) := keeps_next (by simp)

theorem execFaultRecordPop_durable (p : Path) : KeepsDurable s (execFaultRecordPop p s) := keeps_next (by simp)

theorem execMmuCtlPeakClr_durable (c : RegCmd) : KeepsDurable s (execMmuCtlPeakClr c s) := keeps_next (by simp)

theorem execSwtLenWrite_durable (c : RegCmd) (v : Word) : KeepsDurable s (execSwtLenWrite c v s) := keeps_next (by simp)

theorem execSwtLoftBudWrite_durable (c : RegCmd) (v : Word) : KeepsDurable s (execSwtLoftBudWrite c v s) := keeps_next (by simp)

theorem execSwtCycPctWrite_durable (c : RegCmd) (v : Word) : KeepsDurable s (execSwtCycPctWrite c v s) := keeps_next (by simp)

theorem execPlyCtlPeakClr_durable (c : RegCmd) : KeepsDurable s (execPlyCtlPeakClr c s) := keeps_next (by simp)

theorem execFceCtlPeakClr_durable (e : Fin 16) (c : RegCmd) : KeepsDurable s (execFceCtlPeakClr e c s) := keeps_next (by simp)

theorem execEceCtlPeakClr_durable (e : Fin 32) (c : RegCmd) : KeepsDurable s (execEceCtlPeakClr e c s) := keeps_next (by simp)

theorem execKnlCtlHistClr_durable (c : RegCmd) : KeepsDurable s (execKnlCtlHistClr c s) := keeps_next (by simp)

theorem execKnlCtlPeakClr_durable (c : RegCmd) : KeepsDurable s (execKnlCtlPeakClr c s) := keeps_next (by simp)

theorem execKnlHistSelWrite_durable (c : RegCmd) (v : Word) : KeepsDurable s (execKnlHistSelWrite c v s) := keeps_next (by simp)

theorem execKnlRefuseWrite_durable (c : RegCmd) (v : Word) : KeepsDurable s (execKnlRefuseWrite c v s) := keeps_next (by simp)

theorem execFrpCtlPeakClr_durable (c : RegCmd) : KeepsDurable s (execFrpCtlPeakClr c s) := keeps_next (by simp)

theorem execGrnCapStrmHiRead_durable (p : Path) : KeepsDurable s (execGrnCapStrmHiRead p s) := keeps_next (by simp)

theorem execBalCtlPeakClr_durable (c : RegCmd) : KeepsDurable s (execBalCtlPeakClr c s) := keeps_next (by simp)

theorem execGlnCtlCut_durable (c : RegCmd) : KeepsDurable s (execGlnCtlCut c s) := keeps_next (by simp)

theorem execGlnCfgEnWrite_durable (c : RegCmd) (v : Word) : KeepsDurable s (execGlnCfgEnWrite c v s) := keeps_next (by simp)

theorem execGlnRecPopRead_durable (p : Path) : KeepsDurable s (execGlnRecPopRead p s) := keeps_next (by simp)

theorem execI2cAddressWrite_durable (a : BitVec 32) : KeepsDurable s (execI2cAddressWrite a s) := keeps_next (by simp)

theorem execI2cRead_durable (count : Fin 65) : KeepsDurable s (execI2cRead count s) := keeps_next (by simp)

@[simp] theorem State.commitFail_durable (j : Jrnl) : (s.commitFail j).durable = s.durable := by simp [State.commitFail]

@[simp] theorem State.recRefused_durable (r : JRec) (st : Nat) : (s.recRefused r st).durable = s.durable := by simp [State.recRefused]

theorem famSession_durable : ∀ p ∈ famSession, p.2.KeepsDurable := by
  simp only [famSession, List.forall_mem_cons]
  exact ⟨opRefused_durable, opRefused_durable, opSessionKeepalive_durable, opSessionClose_durable, opSessionSubscribe_durable,
    opSessionKeySet_durable, opSessionKeyClear_durable, opUnmuzzle_durable, opMuzzleKeySet_durable, opSessionList_durable, opMuzzleStatus_durable,
    List.forall_mem_nil _⟩

theorem famReg_durable : ∀ p ∈ famReg, p.2.KeepsDurable := by
  simp only [famReg, List.forall_mem_cons]
  exact ⟨opRegWrite_durable, opRegRead_durable, List.forall_mem_nil _⟩

theorem famChan_durable : ∀ p ∈ famChan, p.2.KeepsDurable := by
  simp only [famChan, List.forall_mem_cons]
  exact ⟨opChanEnable_durable, opChanDisable_durable, opChanGraph_durable, opChanFlowAdd_durable, opChanFlowDel_durable, opChanEgress_durable,
    opChanKey_durable, opChanPlayout_durable, opChanEcho_durable, opChanEchoReset_durable, opChanBridge_durable, opChanGain_durable,
    opChanGroup_durable, opChanToneCfg_durable, opChanTonePlay_durable, opChanToneStop_durable, opChanCodec_durable, opChanRtcp_durable,
    opChanClear_durable, opChanConfCreate_durable, opChanConfDelete_durable, opChanConfJoin_durable, opChanConfLeave_durable,
    opChanStatus_durable, opChanConfStatus_durable, List.forall_mem_nil _⟩

theorem famGraph_durable : ∀ p ∈ famGraph, p.2.KeepsDurable := by
  simp only [famGraph, List.forall_mem_cons]
  exact ⟨opGraphDefine_durable, opGraphDelete_durable, opGraphCptDefine_durable, opGraphInfo_durable, List.forall_mem_nil _⟩

theorem famCoef_durable : ∀ p ∈ famCoef, p.2.KeepsDurable := by
  simp only [famCoef, List.forall_mem_cons]
  exact ⟨opCoefSetLoad_durable, opCoefSetFree_durable, opCoefBank_durable, opCoefSwap_durable, opCoefSwapCancel_durable, opCoefPhase_durable,
    opCoefSyncReset_durable, opCoefSetInfo_durable, opCoefRomRead_durable, opCoefChainStatus_durable, List.forall_mem_nil _⟩

theorem famTime_durable : ∀ p ∈ famTime, p.2.KeepsDurable := by
  simp only [famTime, List.forall_mem_cons]
  exact ⟨opTimeClock_durable, opTimePort_durable, opTimeUnicast_durable, opTimeStatus_durable, opTimePortStatus_durable, List.forall_mem_nil _⟩

theorem famPort_durable : ∀ p ∈ famPort, p.2.KeepsDurable := by
  simp only [famPort, List.forall_mem_cons]
  exact ⟨opPortEnable_durable, opPortDisable_durable, opPortMdioWrite_durable, opPortMdioRead_durable, opPortStatus_durable, List.forall_mem_nil
    _⟩

theorem famCapt_durable : ∀ p ∈ famCapt, p.2.KeepsDurable := by
  simp only [famCapt, List.forall_mem_cons]
  exact ⟨opCaptOpen_durable, opCaptClose_durable, opCaptEnable_durable, opCaptDisable_durable, opCaptTrigger_durable, opCaptExport_durable,
    opCaptRead_durable, opCaptStatus_durable, List.forall_mem_nil _⟩

theorem famPatt_durable : ∀ p ∈ famPatt, p.2.KeepsDurable := by
  simp only [famPatt, List.forall_mem_cons]
  exact ⟨opPattLoad_durable, opPattFromCapt_durable, opPattDelete_durable, opPattPlay_durable, opPattStop_durable, opPattInfo_durable,
    List.forall_mem_nil _⟩

theorem famRing_durable : ∀ p ∈ famRing, p.2.KeepsDurable := by
  simp only [famRing, List.forall_mem_cons]
  exact ⟨opRingOpen_durable, opRingClose_durable, opRingEnable_durable, opRingDisable_durable, opRingFeed_durable, opRingStatus_durable,
    List.forall_mem_nil _⟩

theorem famTand_durable : ∀ p ∈ famTand, p.2.KeepsDurable := by
  simp only [famTand, List.forall_mem_cons]
  exact ⟨opTandRoute_durable, opTandRing_durable, opTandExport_durable, opTandExportDel_durable, opTandImport_durable, opTandImportDel_durable,
    opTandConfImport_durable, opTandMigrateOut_durable, opTandMigrateIn_durable, opTandStatus_durable, List.forall_mem_nil _⟩

theorem famBist_durable : ∀ p ∈ famBist, p.2.KeepsDurable := by
  simp only [famBist, List.forall_mem_cons]
  exact ⟨opBistRequest_durable, opBistFuseArm_durable, opBistFuseConfirm_durable, opBistLcArm_durable, opBistLcConfirm_durable,
    opBistRepairList_durable, opBistUnitStatus_durable, List.forall_mem_nil _⟩

theorem famPrs_durable : ∀ p ∈ famPrs, p.2.KeepsDurable := by
  simp only [famPrs, List.forall_mem_cons]
  exact ⟨opPrsPartition_durable, opPrsCheckpoint_durable, opPrsLogRead_durable, opPrsInfo_durable, List.forall_mem_nil _⟩

theorem famFw_durable : ∀ p ∈ famFw, p.2.KeepsDurable := by
  simp only [famFw, List.forall_mem_cons]
  exact ⟨opFwLoad_durable, opFwActivate_durable, opFwStartClear_durable, opFwInfo_durable, List.forall_mem_nil _⟩

theorem famStat_durable : ∀ p ∈ famStat, p.2.KeepsDurable := by
  simp only [famStat, List.forall_mem_cons]
  exact ⟨opStatIpfixSet_durable, opStatLeg_durable, opStatDevice_durable, opStatJrnlFate_durable, List.forall_mem_nil _⟩

theorem famShut_durable : ∀ p ∈ famShut, p.2.KeepsDurable := by
  simp only [famShut, List.forall_mem_cons]
  exact ⟨opShutBegin_durable, opShutAbort_durable, opShutStatus_durable, List.forall_mem_nil _⟩

theorem opTable_durable {c : Nat} {d : OpDef} (h : opTable c = some d) : d.KeepsDurable := by
  unfold opTable at h
  split at h
  · exact famSession_durable _ (kget_mem h)
  · exact famReg_durable _ (kget_mem h)
  · exact famChan_durable _ (kget_mem h)
  · exact famGraph_durable _ (kget_mem h)
  · exact famCoef_durable _ (kget_mem h)
  · exact famTime_durable _ (kget_mem h)
  · exact famPort_durable _ (kget_mem h)
  · exact famCapt_durable _ (kget_mem h)
  · exact famPatt_durable _ (kget_mem h)
  · exact famRing_durable _ (kget_mem h)
  · exact famTand_durable _ (kget_mem h)
  · exact famBist_durable _ (kget_mem h)
  · exact famPrs_durable _ (kget_mem h)
  · exact famFw_durable _ (kget_mem h)
  · exact famStat_durable _ (kget_mem h)
  · exact famShut_durable _ (kget_mem h)
  · cases h

@[simp] theorem State.settleOne_durable (a : Armed) (b : Inst) : (s.settleOne a b).durable = s.durable := by simp [State.settleOne]

@[simp] theorem State.settleTo_durable (r : JRec) : (s.settleTo r).durable = s.durable := by simp [State.settleTo]

@[simp] theorem State.markArmed_durable (n : Nat) (at_ : Inst) : (s.markArmed n at_).durable = s.durable := rfl

@[simp] theorem State.reexec_durable {r : JRec} {counted : Bool} : (s.reexec r counted).durable = s.durable := by
  simp only [State.reexec]
  split
  · simp
  · split
    · simp
    · rename_i d hd
      split
      · simp
      · simp
      · exact (State.markArmed_durable _ _).trans ((opTable_durable hd _ _ _ _).trans (by simp))

@[simp] theorem State.bulkFrame_durable (m role : Nat) (k : Bulk) (f : CmdFrame) : (s.bulkFrame m role k f).durable = s.durable := by
  simp only [State.bulkFrame]
  split
  · simp
  · split
    · simp
    · split
      · rename_i d hd
        exact execOp_durable (opTable_durable hd) _ _ _ _
      · rfl

theorem execBulkFrame_durable (mbox : Fin 256) : KeepsDurable s (execBulkFrame mbox s) := keeps_next (by (repeat' split) <;> simp)

theorem execJournalCommit_durable : KeepsDurable s (execJournalCommit s) := keeps_next (by
  split
  · rfl
  · dsimp only
    split
    · simp
    · rename_i u hu
      have h := State.commitRec_durable hu
      split
      · rename_i d hd
        split
        · simp [h]
        · rw [Done.finish_durable, opTable_durable hd]; simp [h]
      · simp [h])

theorem execUnknownOperation_durable (fam op : Byte) (q : Req) : KeepsDurable s (execUnknownOperation fam op q s) := keeps_next (by simp)

@[simp] theorem State.setPins_durable {p : Pins} : (s.setPins p).durable = s.durable := rfl

@[simp] theorem State.leaveReset_durable : s.leaveReset.durable = s.durable := by simp [State.leaveReset]

@[simp] theorem State.badImage_durable {alt : Nat} : (s.badImage alt).durable = s.durable := by simp [State.badImage]

@[simp] theorem State.keepOut_durable (p : Nat × Nat) : (s.keepOut p).durable = s.durable := by simp [State.keepOut]

@[simp] theorem State.ringSetup_durable (x : RingSetup) : (s.ringSetup x).durable = s.durable := by simp [State.ringSetup]

@[simp] theorem State.jobSetup_durable (x : RingSetup) : (s.jobSetup x).durable = s.durable := by simp [State.jobSetup]

@[simp] theorem State.portOn_durable (p : Nat) : (s.portOn p).durable = s.durable := by simp [State.portOn]

@[simp] theorem State.prsUp_durable : s.prsUp.durable = s.durable := rfl

@[simp] theorem State.recover_durable {ports : List Nat} {us : Nat} : (s.recover ports us).durable = s.durable := by simp [State.recover]

@[simp] theorem State.s03_durable {alt : Nat} : (s.s03 alt).s.durable = s.durable := by
  unfold State.s03
  split <;> rfl

@[simp] theorem State.s04_durable {alt : Nat} : (s.s04 alt).s.durable = s.durable := by
  simp only [State.s04]
  (repeat' split) <;> simp

@[simp] theorem State.s07_durable {alt : Nat} {env : StartEnv} : (s.s07 alt env).s.durable = s.durable := by
  simp only [State.s07]
  split <;> simp

@[simp] theorem State.s08_durable : s.s08.s.durable = s.durable := by
  refine State.followUnits_durable.trans ((State.durable_foldl (fun _ _ => State.keepOut_durable _) _ _).trans ?_)
  rw [State.durable_foldl fun _ _ => State.setBeng_durable _ _, State.setFld_durable, State.durable_foldl fun _ _ => State.setDeng_durable _ _,
    State.durable_foldl fun _ _ => ?_, State.durable_foldl fun _ _ => ?_]
  · rw [State.setFceFn_durable, State.setFld_durable]
  · rw [State.setEceFn_durable, State.setFld_durable]

@[simp] theorem State.s09_durable {alt : Nat} {env : StartEnv} : (s.s09 alt env).s.durable = s.durable := by
  refine State.setPke_durable.trans (State.drawn_durable.trans ?_)
  rw [State.durable_foldl fun _ _ => State.jobSetup_durable _, State.durable_foldl fun _ _ => State.ringSetup_durable _, State.findGen_durable,
    State.durable_foldl fun _ _ => ?_, State.durable_foldl fun _ _ => State.setMmu_durable, State.durable_foldl fun _ _ => State.setMmu_durable]
  · rw [State.setFld_durable, State.setFld_durable, State.setFld_durable]
  · split
    · exact State.memSet_durable
    · rfl

@[simp] theorem State.s12_durable {bad : Nat} : (s.s12 bad).s.durable = s.durable := by
  simp only [State.s12]
  split
  · rfl
  · refine (State.durable_foldl (fun _ _ => State.reexec_durable) _ _).trans ?_
    simp

theorem Nv.cutJrnl_keys_boot (n : Nv) (bad : Nat) (stop : Option (BitVec 32)) :
    (n.cutJrnl bad stop).hostKeys = n.hostKeys ∧ (n.cutJrnl bad stop).boot = n.boot := by
  unfold Nv.cutJrnl
  (repeat' split) <;> exact ⟨rfl, rfl⟩

@[simp] theorem State.s13_durable {alt bad : Nat} {stop : Option (BitVec 32)} : (s.s13 alt bad stop).s.durable = s.durable := by
  have h : (s.setNv (s.nv.cutJrnl bad stop)).durable = s.durable :=
    State.setNv_durable (s.nv.cutJrnl_keys_boot bad stop).1 (s.nv.cutJrnl_keys_boot bad stop).2
  refine (State.setNv_durable rfl rfl).trans ((State.durable_foldl (fun _ _ => State.reexec_durable) _ _).trans ?_)
  rw [State.durable_ite, h, ite_self]

@[simp] theorem State.s14_durable {full : Bool} : (s.s14 full).s.durable = s.durable := by
  refine State.ipfixStart_durable.trans ?_
  split <;> split <;> rfl

@[simp] theorem State.stepWork_durable {env : StartEnv} {full : Bool} {j alt : Nat} : (s.stepWork env full j alt).s.durable = s.durable := by
  unfold State.stepWork
  split
  · rfl
  · split <;> rfl
  · exact State.s03_durable
  · exact State.s04_durable
  · exact State.setGln_durable _
  · exact State.setFld_durable _ _
  · exact State.s07_durable
  · exact State.s08_durable
  · exact State.s09_durable
  · exact State.recloseMuzzle_durable
  · simp [State.s11, StepRes.ok]
  · exact State.s12_durable
  · exact State.s13_durable
  · exact State.s14_durable
  · rfl

@[simp] theorem closeStep_durable {w : StepRes} {j alt us dur : Nat} : (closeStep j alt us dur w).s.durable = w.s.durable := by simp [closeStep]

@[simp] theorem attempts_durable (env : StartEnv) (full stop : Bool) (j fuel alt : Nat) (l : List StepTry) (r : StartRun) :
    (attempts env full stop j fuel alt l r).s.durable = r.s.durable := by
  induction fuel generalizing alt l r with
  | zero => rfl
  | succ fuel ih =>
    simp only [attempts]
    split
    · exact State.recover_durable
    · split
      · exact State.restart_durable.trans ((State.setNv_durable rfl rfl).trans (State.slogPut_durable _ _ _ _ _ _ _))
      · split
        · rw [ih, State.slogPut_durable]
          split
          · rw [State.badImage_durable, State.slogPut_durable]
          · rw [State.slogPut_durable]
        · rw [closeStep_durable, State.stepWork_durable, State.slogPut_durable]

@[simp] theorem oneStep_durable {env : StartEnv} {full : Bool} {stop : Option Nat} {r : StartRun} {j : Nat} :
    (oneStep env full stop r j).s.durable = r.s.durable := by
  simp only [oneStep]
  split
  · rfl
  · split
    · split
      · exact State.recover_durable.trans ((State.setNv_durable rfl rfl).trans (attempts_durable _ _ _ _ _ _ _ _))
      · exact (State.setNv_durable rfl rfl).trans (attempts_durable _ _ _ _ _ _ _ _)
    · exact attempts_durable _ _ _ _ _ _ _ _

theorem execPwrgoodRise_durable (x : Straps) : KeepsDurable s (execPwrgoodRise x s) := keeps_next (by simp)

theorem execPwrgoodFall_durable : KeepsDurable s (execPwrgoodFall s) := keeps_next (by simp)

theorem execResetNAssert_durable : KeepsDurable s (execResetNAssert s) := keeps_next (by simp)

theorem execResetNRelease_durable (x : Straps) : KeepsDurable s (execResetNRelease x s) := keeps_next (by simp)

theorem execTestEnAssert_durable : KeepsDurable s (execTestEnAssert s) := keeps_next (by simp)

theorem execTestEnRelease_durable (x : Straps) : KeepsDurable s (execTestEnRelease x s) := keeps_next (by simp)

theorem execKathirelWatchdog_durable : KeepsDurable s (execKathirelWatchdog s) := keeps_next (by simp)

end

/-- The commands whose effect on the host keys or the boot number is their own, and not that of every other command. -/
def MovesDurable (c : Instr) : Prop :=
  (∃ m, c = .replySend m) ∨ (∃ v, c = .qcpDbRpl v) ∨ (∃ d, c = .jtagKeyLoad d) ∨ (∃ k, c = .jtagLcTransition k) ∨
    (∃ e, c = .startSequence e) ∨ ∃ k e, c = .startStepTimeout k e

theorem keeps_op {d : OpDef} (hd : d.KeepsDurable) (op : Nat) (q : Req) (s : State) : KeepsDurable s (.next (runOp d op q s)) :=
  keeps_next (runOp_durable hd op q s)

/-- By the commands, in the order of `exec`. -/
theorem exec_keepsDurable (s : State) : ∀ c : Instr, KeepsDurable s (exec c s) ∨ MovesDurable c
  | .pwrgoodRise _ => .inl (execPwrgoodRise_durable _)
  | .pwrgoodFall => .inl execPwrgoodFall_durable
  | .resetNAssert => .inl execResetNAssert_durable
  | .resetNRelease _ => .inl (execResetNRelease_durable _)
  | .testEnAssert => .inl execTestEnAssert_durable
  | .startSequence env => .inr (.inr (.inr (.inr (.inr (.inl ⟨env, rfl⟩)))))
  | .startStepTimeout step env => .inr (.inr (.inr (.inr (.inr (.inr ⟨step, env, rfl⟩)))))
  | .kathirelWatchdog => .inl execKathirelWatchdog_durable
  | .tmuTick => .inl execTmuTick_durable
  | .stepApply => .inl execStepApply_durable
  | .tmuCtlSet _ => .inl (execTmuCtlSet_durable _)
  | .tmuCtlStep _ => .inl (execTmuCtlStep_durable _)
  | .tmuOfsPush _ _ _ => .inl (execTmuOfsPush_durable _ _ _)
  | .servoSample => .inl execServoSample_durable
  | .servoHoldoverTimeout => .inl execServoHoldoverTimeout_durable
  | .servoFail => .inl execServoFail_durable
  | .tmuSrvEnWrite _ _ => .inl (execTmuSrvEnWrite_durable _ _)
  | .tmuAddendWrite _ _ _ => .inl (execTmuAddendWrite_durable _ _ _)
  | .tmuRefSelWrite _ _ => .inl (execTmuRefSelWrite_durable _ _)
  | .ref10mAcquire => .inl execRef10mAcquire_durable
  | .ref10mLoss => .inl execRef10mLoss_durable
  | .tmuTimeSecHiRead _ => .inl (execTmuTimeSecHiRead_durable _)
  | .tinEdgeCapture _ _ => .inl (execTinEdgeCapture_durable _ _)
  | .tmuTinPop _ _ => .inl (execTmuTinPop_durable _ _)
  | .tmuToutArm _ _ => .inl (execTmuToutArm_durable _ _)
  | .tmuToutDisarm _ _ => .inl (execTmuToutDisarm_durable _ _)
  | .toutPulse _ => .inl (execToutPulse_durable _)
  | .swathBoundary => .inl execSwathBoundary_durable
  | .gatherEnd => .inl execGatherEnd_durable
  | .workStart => .inl execWorkStart_durable
  | .workDeadline => .inl execWorkDeadline_durable
  | .guardStart => .inl execGuardStart_durable
  | .timedActionExec _ => .inl (execTimedActionExec_durable _)
  | .portStartDone _ _ => .inl (execPortStartDone_durable _ _)
  | .portCalFail _ => .inl (execPortCalFail_durable _)
  | .lanePllLoss _ => .inl (execLanePllLoss_durable _)
  | .linkUp _ => .inl (execLinkUp_durable _)
  | .linkDown _ => .inl (execLinkDown_durable _)
  | .portStopDone _ => .inl (execPortStopDone_durable _)
  | .rgmiiInbandStatus _ _ _ => .inl (execRgmiiInbandStatus_durable _ _ _)
  | .macRxFrame _ => .inl (execMacRxFrame_durable _)
  | .pauseQuantaExpiry _ _ => .inl (execPauseQuantaExpiry_durable _ _)
  | .pfcRefresh _ => .inl (execPfcRefresh_durable _)
  | .macTxSelect _ => .inl (execMacTxSelect_durable _)
  | .s0Collision _ => .inl (execS0Collision_durable _)
  | .s0BackoffExpiry => .inl execS0BackoffExpiry_durable
  | .macMdioGo _ _ => .inl (execMacMdioGo_durable _ _)
  | .mdioFrameDone _ => .inl (execMdioFrameDone_durable _)
  | .macCfgEnWrite _ _ _ => .inl (execMacCfgEnWrite_durable _ _ _)
  | .macCtlAnRestart _ _ => .inl (execMacCtlAnRestart_durable _ _)
  | .macCtlPeakClr _ _ => .inl (execMacCtlPeakClr_durable _ _)
  | .macCntLoRead _ _ _ => .inl (execMacCntLoRead_durable _ _ _)
  | .pkeFrameTake _ _ => .inl (execPkeFrameTake_durable _ _)
  | .slowPathFrame => .inl execSlowPathFrame_durable
  | .ptpFrameRx _ => .inl (execPtpFrameRx_durable _)
  | .txQueueEntry _ _ => .inl (execTxQueueEntry_durable _ _)
  | .qcpFrameRx _ => .inl (execQcpFrameRx_durable _)
  | .muzzleFrame => .inl execMuzzleFrame_durable
  | .gateRelease _ => .inl (execGateRelease_durable _)
  | .muzzleStateRecord => .inl execMuzzleStateRecord_durable
  | .openRateSecond => .inl execOpenRateSecond_durable
  | .sessionProveTimeout _ => .inl (execSessionProveTimeout_durable _)
  | .leaseExpiry _ => .inl (execLeaseExpiry_durable _)
  | .bulkFrame _ => .inl (execBulkFrame_durable _)
  | .replySend mbox => .inr (.inl ⟨mbox, rfl⟩)
  | .eventSend _ => .inl (execEventSend_durable _)
  | .journalCommit => .inl execJournalCommit_durable
  | .qcpDbRpl v => .inr (.inr (.inl ⟨v, rfl⟩))
  | .qcpMzCtrHiRead _ _ => .inl (execQcpMzCtrHiRead_durable _ _)
  | .sessionOpen _ => .inl (execSessionOpen_durable _)
  | .sessionProve _ => .inl (execSessionProve_durable _)
  | .sessionKeepalive _ => .inl (keeps_op opSessionKeepalive_durable _ _ _)
  | .sessionClose _ => .inl (keeps_op opSessionClose_durable _ _ _)
  | .sessionSubscribe _ => .inl (keeps_op opSessionSubscribe_durable _ _ _)
  | .sessionKeySet _ => .inl (keeps_op opSessionKeySet_durable _ _ _)
  | .sessionKeyClear _ => .inl (keeps_op opSessionKeyClear_durable _ _ _)
  | .unmuzzle _ => .inl (keeps_op opUnmuzzle_durable _ _ _)
  | .muzzleKeySet _ => .inl (keeps_op opMuzzleKeySet_durable _ _ _)
  | .sessionList _ => .inl (keeps_op opSessionList_durable _ _ _)
  | .muzzleStatus _ => .inl (keeps_op opMuzzleStatus_durable _ _ _)
  | .regWrite _ => .inl (keeps_op opRegWrite_durable _ _ _)
  | .regRead _ => .inl (keeps_op opRegRead_durable _ _ _)
  | .chanEnable _ => .inl (keeps_op opChanEnable_durable _ _ _)
  | .chanDisable _ => .inl (keeps_op opChanDisable_durable _ _ _)
  | .chanGraph _ => .inl (keeps_op opChanGraph_durable _ _ _)
  | .chanFlowAdd _ => .inl (keeps_op opChanFlowAdd_durable _ _ _)
  | .chanFlowDel _ => .inl (keeps_op opChanFlowDel_durable _ _ _)
  | .chanEgress _ => .inl (keeps_op opChanEgress_durable _ _ _)
  | .chanKey _ => .inl (keeps_op opChanKey_durable _ _ _)
  | .chanPlayout _ => .inl (keeps_op opChanPlayout_durable _ _ _)
  | .chanEcho _ => .inl (keeps_op opChanEcho_durable _ _ _)
  | .chanEchoReset _ => .inl (keeps_op opChanEchoReset_durable _ _ _)
  | .chanBridge _ => .inl (keeps_op opChanBridge_durable _ _ _)
  | .chanGain _ => .inl (keeps_op opChanGain_durable _ _ _)
  | .chanGroup _ => .inl (keeps_op opChanGroup_durable _ _ _)
  | .chanToneCfg _ => .inl (keeps_op opChanToneCfg_durable _ _ _)
  | .chanTonePlay _ => .inl (keeps_op opChanTonePlay_durable _ _ _)
  | .chanToneStop _ => .inl (keeps_op opChanToneStop_durable _ _ _)
  | .chanCodec _ => .inl (keeps_op opChanCodec_durable _ _ _)
  | .chanRtcp _ => .inl (keeps_op opChanRtcp_durable _ _ _)
  | .chanClear _ => .inl (keeps_op opChanClear_durable _ _ _)
  | .chanConfCreate _ => .inl (keeps_op opChanConfCreate_durable _ _ _)
  | .chanConfDelete _ => .inl (keeps_op opChanConfDelete_durable _ _ _)
  | .chanConfJoin _ => .inl (keeps_op opChanConfJoin_durable _ _ _)
  | .chanConfLeave _ => .inl (keeps_op opChanConfLeave_durable _ _ _)
  | .chanStatus _ => .inl (keeps_op opChanStatus_durable _ _ _)
  | .chanConfStatus _ => .inl (keeps_op opChanConfStatus_durable _ _ _)
  | .graphDefine _ => .inl (keeps_op opGraphDefine_durable _ _ _)
  | .graphDelete _ => .inl (keeps_op opGraphDelete_durable _ _ _)
  | .graphCptDefine _ => .inl (keeps_op opGraphCptDefine_durable _ _ _)
  | .graphInfo _ => .inl (keeps_op opGraphInfo_durable _ _ _)
  | .coefSetLoad _ => .inl (keeps_op opCoefSetLoad_durable _ _ _)
  | .coefSetFree _ => .inl (keeps_op opCoefSetFree_durable _ _ _)
  | .coefBank _ => .inl (keeps_op opCoefBank_durable _ _ _)
  | .coefSwap _ => .inl (keeps_op opCoefSwap_durable _ _ _)
  | .coefSwapCancel _ => .inl (keeps_op opCoefSwapCancel_durable _ _ _)
  | .coefPhase _ => .inl (keeps_op opCoefPhase_durable _ _ _)
  | .coefSyncReset _ => .inl (keeps_op opCoefSyncReset_durable _ _ _)
  | .coefSetInfo _ => .inl (keeps_op opCoefSetInfo_durable _ _ _)
  | .coefRomRead _ => .inl (keeps_op opCoefRomRead_durable _ _ _)
  | .coefChainStatus _ => .inl (keeps_op opCoefChainStatus_durable _ _ _)
  | .timeClock _ => .inl (keeps_op opTimeClock_durable _ _ _)
  | .timePort _ => .inl (keeps_op opTimePort_durable _ _ _)
  | .timeUnicast _ => .inl (keeps_op opTimeUnicast_durable _ _ _)
  | .timeStatus _ => .inl (keeps_op opTimeStatus_durable _ _ _)
  | .timePortStatus _ => .inl (keeps_op opTimePortStatus_durable _ _ _)
  | .portEnable _ => .inl (keeps_op opPortEnable_durable _ _ _)
  | .portDisable _ => .inl (keeps_op opPortDisable_durable _ _ _)
  | .portMdioWrite _ => .inl (keeps_op opPortMdioWrite_durable _ _ _)
  | .portMdioRead _ => .inl (keeps_op opPortMdioRead_durable _ _ _)
  | .portStatus _ => .inl (keeps_op opPortStatus_durable _ _ _)
  | .captOpen _ => .inl (keeps_op opCaptOpen_durable _ _ _)
  | .captClose _ => .inl (keeps_op opCaptClose_durable _ _ _)
  | .captEnable _ => .inl (keeps_op opCaptEnable_durable _ _ _)
  | .captDisable _ => .inl (keeps_op opCaptDisable_durable _ _ _)
  | .captTrigger _ => .inl (keeps_op opCaptTrigger_durable _ _ _)
  | .captExport _ => .inl (keeps_op opCaptExport_durable _ _ _)
  | .captRead _ => .inl (keeps_op opCaptRead_durable _ _ _)
  | .captStatus _ => .inl (keeps_op opCaptStatus_durable _ _ _)
  | .captureTimeTrigger _ => .inl (execCaptureTimeTrigger_durable _)
  | .exportFrameSend _ => .inl (execExportFrameSend_durable _)
  | .pattLoad _ => .inl (keeps_op opPattLoad_durable _ _ _)
  | .pattFromCapt _ => .inl (keeps_op opPattFromCapt_durable _ _ _)
  | .pattDelete _ => .inl (keeps_op opPattDelete_durable _ _ _)
  | .pattPlay _ => .inl (keeps_op opPattPlay_durable _ _ _)
  | .pattStop _ => .inl (keeps_op opPattStop_durable _ _ _)
  | .pattInfo _ => .inl (keeps_op opPattInfo_durable _ _ _)
  | .patternItemRelease _ => .inl (execPatternItemRelease_durable _)
  | .ringOpen _ => .inl (keeps_op opRingOpen_durable _ _ _)
  | .ringClose _ => .inl (keeps_op opRingClose_durable _ _ _)
  | .ringEnable _ => .inl (keeps_op opRingEnable_durable _ _ _)
  | .ringDisable _ => .inl (keeps_op opRingDisable_durable _ _ _)
  | .ringFeed _ => .inl (keeps_op opRingFeed_durable _ _ _)
  | .ringStatus _ => .inl (keeps_op opRingStatus_durable _ _ _)
  | .injectLaunch _ => .inl (execInjectLaunch_durable _)
  | .injectDoneSend _ => .inl (execInjectDoneSend_durable _)
  | .tandRoute _ => .inl (keeps_op opTandRoute_durable _ _ _)
  | .tandRing _ => .inl (keeps_op opTandRing_durable _ _ _)
  | .tandExport _ => .inl (keeps_op opTandExport_durable _ _ _)
  | .tandExportDel _ => .inl (keeps_op opTandExportDel_durable _ _ _)
  | .tandImport _ => .inl (keeps_op opTandImport_durable _ _ _)
  | .tandImportDel _ => .inl (keeps_op opTandImportDel_durable _ _ _)
  | .tandConfImport _ => .inl (keeps_op opTandConfImport_durable _ _ _)
  | .tandMigrateOut _ => .inl (keeps_op opTandMigrateOut_durable _ _ _)
  | .tandMigrateIn _ => .inl (keeps_op opTandMigrateIn_durable _ _ _)
  | .tandStatus _ => .inl (keeps_op opTandStatus_durable _ _ _)
  | .tndDevnoWrite _ _ => .inl (execTndDevnoWrite_durable _ _)
  | .tndWinWrite _ _ => .inl (execTndWinWrite_durable _ _)
  | .bistRequest _ => .inl (keeps_op opBistRequest_durable _ _ _)
  | .bistFuseArm _ => .inl (keeps_op opBistFuseArm_durable _ _ _)
  | .bistFuseConfirm _ => .inl (keeps_op opBistFuseConfirm_durable _ _ _)
  | .bistLcArm _ => .inl (keeps_op opBistLcArm_durable _ _ _)
  | .bistLcConfirm _ => .inl (keeps_op opBistLcConfirm_durable _ _ _)
  | .bistRepairList _ => .inl (keeps_op opBistRepairList_durable _ _ _)
  | .bistUnitStatus _ => .inl (keeps_op opBistUnitStatus_durable _ _ _)
  | .prsPartition _ => .inl (keeps_op opPrsPartition_durable _ _ _)
  | .prsCheckpoint _ => .inl (keeps_op opPrsCheckpoint_durable _ _ _)
  | .prsLogRead _ => .inl (keeps_op opPrsLogRead_durable _ _ _)
  | .prsInfo _ => .inl (keeps_op opPrsInfo_durable _ _ _)
  | .statIpfixSet _ => .inl (keeps_op opStatIpfixSet_durable _ _ _)
  | .statLeg _ => .inl (keeps_op opStatLeg_durable _ _ _)
  | .statDevice _ => .inl (keeps_op opStatDevice_durable _ _ _)
  | .statJrnlFate _ => .inl (keeps_op opStatJrnlFate_durable _ _ _)
  | .fwLoad _ => .inl (keeps_op opFwLoad_durable _ _ _)
  | .fwActivate _ => .inl (keeps_op opFwActivate_durable _ _ _)
  | .fwStartClear _ => .inl (keeps_op opFwStartClear_durable _ _ _)
  | .fwInfo _ => .inl (keeps_op opFwInfo_durable _ _ _)
  | .shutBegin _ => .inl (keeps_op opShutBegin_durable _ _ _)
  | .shutAbort _ => .inl (keeps_op opShutAbort_durable _ _ _)
  | .shutStatus _ => .inl (keeps_op opShutStatus_durable _ _ _)
  | .shutdownDrainEnd => .inl execShutdownDrainEnd_durable
  | .shutdownTestDone _ => .inl (execShutdownTestDone_durable _)
  | .stageInDone _ => .inl (execStageInDone_durable _)
  | .taskDone _ _ => .inl (execTaskDone_durable _ _)
  | .coreTransitAccess _ _ => .inl (execCoreTransitAccess_durable _ _)
  | .fceCall _ _ => .inl (execFceCall_durable _ _)
  | .eceCall _ _ => .inl (execEceCall_durable _ _)
  | .memoryFault _ _ => .inl (execMemoryFault_durable _ _)
  | .accessFault _ _ _ => .inl (execAccessFault_durable _ _ _)
  | .engineParity _ => .inl (execEngineParity_durable _)
  | .coreHang _ _ => .inl (execCoreHang_durable _ _)
  | .taskOverrun _ => .inl (execTaskOverrun_durable _)
  | .replayRestageDone _ => .inl (execReplayRestageDone_durable _)
  | .faultRecordPop _ => .inl (execFaultRecordPop_durable _)
  | .dmaCopy _ => .inl (execDmaCopy_durable _)
  | .dmaFill _ => .inl (execDmaFill_durable _)
  | .dmaTx _ => .inl (execDmaTx_durable _)
  | .dmaRx _ => .inl (execDmaRx_durable _)
  | .dmaRelease _ => .inl (execDmaRelease_durable _)
  | .dmaDescComplete _ => .inl (execDmaDescComplete_durable _)
  | .dmaDescPark _ => .inl (execDmaDescPark_durable _)
  | .mmuRingTailWrite _ _ _ _ _ => .inl (execMmuRingTailWrite_durable _ _ _ _ _)
  | .mmuMoveGo _ _ _ => .inl (execMmuMoveGo_durable _ _ _)
  | .moveComplete => .inl execMoveComplete_durable
  | .mmuInvGo _ _ _ => .inl (execMmuInvGo_durable _ _ _)
  | .invalidationDone => .inl execInvalidationDone_durable
  | .mmuParkResume _ => .inl (execMmuParkResume_durable _)
  | .mmuParkAbort _ => .inl (execMmuParkAbort_durable _)
  | .mmuCtlPeakClr _ => .inl (execMmuCtlPeakClr_durable _)
  | .mmuDmaEnWrite _ _ => .inl (execMmuDmaEnWrite_durable _ _)
  | .swtLenWrite _ _ => .inl (execSwtLenWrite_durable _ _)
  | .swtLoftBudWrite _ _ => .inl (execSwtLoftBudWrite_durable _ _)
  | .swtCycPctWrite _ _ => .inl (execSwtCycPctWrite_durable _ _)
  | .plyCtlPeakClr _ => .inl (execPlyCtlPeakClr_durable _)
  | .fceCfgEnWrite _ _ => .inl (execFceCfgEnWrite_durable _ _)
  | .fceCtlPeakClr _ _ => .inl (execFceCtlPeakClr_durable _ _)
  | .eceCfgEnWrite _ _ => .inl (execEceCfgEnWrite_durable _ _)
  | .eceCtlPeakClr _ _ => .inl (execEceCtlPeakClr_durable _ _)
  | .knlCtlHistClr _ => .inl (execKnlCtlHistClr_durable _)
  | .knlCtlPeakClr _ => .inl (execKnlCtlPeakClr_durable _)
  | .knlHistSelWrite _ _ => .inl (execKnlHistSelWrite_durable _ _)
  | .knlRefuseWrite _ _ => .inl (execKnlRefuseWrite_durable _ _)
  | .frpCtlPeakClr _ => .inl (execFrpCtlPeakClr_durable _)
  | .grnCapStrmHiRead _ => .inl (execGrnCapStrmHiRead_durable _)
  | .balCfgEnWrite _ => .inl (execBalCfgEnWrite_durable _)
  | .balCtlPeakClr _ => .inl (execBalCtlPeakClr_durable _)
  | .balRingTailWrite _ _ _ => .inl (execBalRingTailWrite_durable _ _ _)
  | .balerCompress _ _ => .inl (execBalerCompress_durable _ _)
  | .balerDecompress _ => .inl (execBalerDecompress_durable _)
  | .balerResume _ _ => .inl (execBalerResume_durable _ _)
  | .balerJobEnd _ _ => .inl (execBalerJobEnd_durable _ _)
  | .glnSliceStart _ _ => .inl (execGlnSliceStart_durable _ _)
  | .glnSliceEnd _ => .inl (execGlnSliceEnd_durable _)
  | .glnCtlCut _ => .inl (execGlnCtlCut_durable _)
  | .glnCfgEnWrite _ _ => .inl (execGlnCfgEnWrite_durable _ _)
  | .glnRecPopRead _ => .inl (execGlnRecPopRead_durable _)
  | .jtagKeyLoad dr => .inr (.inr (.inr (.inl ⟨dr, rfl⟩)))
  | .jtagLcTransition target => .inr (.inr (.inr (.inr (.inl ⟨target, rfl⟩))))
  | .i2cAddressWrite _ => .inl (execI2cAddressWrite_durable _)
  | .i2cRead _ => .inl (execI2cRead_durable _)
  | .scrubRead _ _ => .inl (execScrubRead_durable _ _)
  | .hbmRetrain _ _ => .inl (execHbmRetrain_durable _ _)
  | .pllCalibration => .inl execPllCalibration_durable
  | .sensorRead _ => .inl (execSensorRead_durable _)
  | .overTempReset => .inl execOverTempReset_durable
  | .avsAdjust _ _ => .inl (execAvsAdjust_durable _ _)
  | .checkpointTimer => .inl execCheckpointTimer_durable
  | .checkpointWritten _ => .inl (execCheckpointWritten_durable _)
  | .prsBlockFail b => .inl (execPrsBlockFail_durable b)
  | .ipfixHealth => .inl execIpfixHealth_durable
  | .ipfixTemplate => .inl execIpfixTemplate_durable
  | .testEnRelease _ => .inl (execTestEnRelease_durable _)
  | .unknownOperation _ _ _ => .inl (execUnknownOperation_durable _ _ _)

section HostKeyChanges
variable (s : State)

/-! The commands that may change host keys: the queue and the boot number stay. -/

/-- What stays when host keys may change. -/
def State.queueBoot (s : State) : List Instr × Nat := (s.pending, s.nv.boot)

theorem State.queueBoot_eq_of_durable {s t : State} (h : t.durable = s.durable) : t.queueBoot = s.queueBoot := by
  simp only [State.durable, Prod.mk.injEq] at h
  obtain ⟨hp, -, hb⟩ := h
  rw [State.queueBoot, hp, hb, State.queueBoot]

theorem State.setNv_queueBoot {x : Nv} (h : x.boot = s.nv.boot) : (s.setNv x).queueBoot = s.queueBoot := by
  rw [State.queueBoot, State.queueBoot, ← h]
  rfl

theorem State.lcGo_queueBoot (target : Nat) : (s.lcGo target).queueBoot = s.queueBoot := by
  unfold State.lcGo
  split
  · extract_lets t
    split
    · exact (State.queueBoot_eq_of_durable State.restart_durable).trans rfl
    · rfl
  · rfl

theorem State.afterReply_queueBoot (m op : Nat) (b : Bytes) : (s.afterReply m op b).queueBoot = s.queueBoot := by
  unfold State.afterReply
  split
  · exact State.queueBoot_eq_of_durable (State.stopSess_durable _)
  · exact (State.queueBoot_eq_of_durable (State.stopKey_durable _)).trans (State.setNv_queueBoot _ rfl)
  · exact (State.queueBoot_eq_of_durable (State.stopKey_durable _)).trans (State.setNv_queueBoot _ rfl)
  · exact (State.lcGo_queueBoot _ _).trans (State.queueBoot_eq_of_durable State.stopAll_durable)
  · exact (State.queueBoot_eq_of_durable State.restart_durable).trans (State.setNv_queueBoot _ rfl)
  · rfl

theorem State.settle_queueBoot (m : Nat) : (s.settle m).queueBoot = s.queueBoot := by
  unfold State.settle
  extract_lets x
  split
  case h_1 op b _ =>
    split
    · have h := State.afterReply_queueBoot (s.setSess m { x with after := none }) m op b
      extract_lets t
      split
      · exact (State.queueBoot_eq_of_durable (State.closeSess_durable _)).trans h
      · exact h
    · rfl
  case h_2 => rfl

theorem execReplySend_queueBoot (m : Fin 256) {t : State} (h : execReplySend m s = .next t) : t.queueBoot = s.queueBoot := by
  cases h
  split
  · exact (State.settle_queueBoot _ _).trans (State.queueBoot_eq_of_durable ((State.sendRing_durable _ _ _).trans (State.setSess_durable _ _)))
  · exact State.settle_queueBoot _ _

theorem execQcpDbRpl_queueBoot (v : Word) {t : State} (h : execQcpDbRpl v s = .next t) : t.queueBoot = s.queueBoot := by
  cases h
  split
  · exact (State.settle_queueBoot _ _).trans (State.queueBoot_eq_of_durable (State.sendRing_durable _ _ _))
  · exact State.settle_queueBoot _ _

theorem execJtagKeyLoad_queueBoot (dr : BitVec 264) {t : State} (h : execJtagKeyLoad dr s = .next t) : t.queueBoot = s.queueBoot := by
  cases h
  split
  · exact (State.queueBoot_eq_of_durable (State.stopKey_durable _)).trans (State.setNv_queueBoot _ rfl)
  · rfl

theorem execJtagLcTransition_queueBoot (k : Fin 5) {t : State} (h : execJtagLcTransition k s = .next t) : t.queueBoot = s.queueBoot := by
  cases h
  split
  · exact State.lcGo_queueBoot _ _
  · rfl

end HostKeyChanges

section Starts
variable {s : State}

/-! A start: the queue and the host keys stay. -/

/-- What stays in a start. -/
def State.queueKeys (s : State) : List Instr × KV HostKey := (s.pending, s.nv.hostKeys)

theorem State.queueKeys_eq_of_durable {s t : State} (h : t.durable = s.durable) : t.queueKeys = s.queueKeys := by
  simp only [State.durable, Prod.mk.injEq] at h
  obtain ⟨hp, hk, -⟩ := h
  rw [State.queueKeys, hp, hk, State.queueKeys]

theorem State.openPrs_queueKeys : s.openPrs.queueKeys = s.queueKeys := by
  have hs : (if s.prsUp.nv.prsFailed then s.prsUp else s.prsUp.prsRead).queueKeys = s.queueKeys := by
    split <;> rfl
  unfold State.openPrs
  extract_lets s1 u n
  have hu : u.queueKeys = s.queueKeys := hs
  split
  · exact hu
  · exact hu

theorem State.runStart_queueKeys (env : StartEnv) (stop : Option Nat) : (s.runStart env stop).queueKeys = s.queueKeys := by
  have steps (full : Bool) (l : List Nat) (r : StartRun) :
      (l.foldl (fun (r : StartRun) k => oneStep env full stop r (k + 1)) r).s.durable = r.s.durable := by
    induction l generalizing r with
    | nil => rfl
    | cons k l ih => exact (ih _).trans oneStep_durable
  unfold State.runStart
  extract_lets pins s1 nv s2 s3 full
  refine (State.queueKeys_eq_of_durable (steps full _ _)).trans (State.openPrs_queueKeys.trans ?_)
  unfold s2
  split <;> rfl

theorem execStartSequence_queueKeys (env : StartEnv) {t : State} (h : execStartSequence env s = .next t) : t.queueKeys = s.queueKeys := by
  cases h
  split
  · exact State.runStart_queueKeys _ _
  · rfl

theorem execStartStepTimeout_queueKeys (step : Fin 14) (env : StartEnv) {t : State} (h : execStartStepTimeout step env s = .next t) :
    t.queueKeys = s.queueKeys := by
  cases h
  split
  · rfl
  · split
    · exact State.queueKeys_eq_of_durable State.restart_durable
    · exact State.runStart_queueKeys _ _

end Starts

end Sys2Proof.Machine

section
open Sys2Proof.Machine

/-- Settles O60: every command but six keeps queue, host keys and boot number; the four that speak of host keys keep the other two, and so do
the two starts. -/
theorem onlyTheseCommandsChangeKeysAndBoot : Obligations.OnlyTheseCommandsChangeKeysAndBoot := by
  unfold Obligations.OnlyTheseCommandsChangeKeysAndBoot
  intro c s t h
  have keys {u : State} (e : u.queueBoot = s.queueBoot) : u.pending = s.pending ∧ u.nv.boot = s.nv.boot := Prod.ext_iff.1 e
  have start {u : State} (e : u.queueKeys = s.queueKeys) : u.pending = s.pending ∧ u.nv.hostKeys = s.nv.hostKeys := Prod.ext_iff.1 e
  obtain hd | ⟨m, rfl⟩ | ⟨v, rfl⟩ | ⟨d, rfl⟩ | ⟨k, rfl⟩ | ⟨e, rfl⟩ | ⟨k, e, rfl⟩ := exec_keepsDurable s c
  · have e := hd t h
    simp only [State.durable, Prod.mk.injEq] at e
    exact ⟨e.1, .inl e.2.1, .inl e.2.2⟩
  · obtain ⟨hp, hb⟩ := keys (execReplySend_queueBoot s m h)
    exact ⟨hp, .inr (.inl ⟨m, rfl⟩), .inl hb⟩
  · obtain ⟨hp, hb⟩ := keys (execQcpDbRpl_queueBoot s v h)
    exact ⟨hp, .inr (.inr (.inl ⟨v, rfl⟩)), .inl hb⟩
  · obtain ⟨hp, hb⟩ := keys (execJtagKeyLoad_queueBoot s d h)
    exact ⟨hp, .inr (.inr (.inr (.inl ⟨d, rfl⟩))), .inl hb⟩
  · obtain ⟨hp, hb⟩ := keys (execJtagLcTransition_queueBoot s k h)
    exact ⟨hp, .inr (.inr (.inr (.inr ⟨k, rfl⟩))), .inl hb⟩
  · obtain ⟨hp, hk⟩ := start (execStartSequence_queueKeys e h)
    exact ⟨hp, .inl hk, .inr (.inl ⟨e, rfl⟩)⟩
  · obtain ⟨hp, hk⟩ := start (execStartStepTimeout_queueKeys k e h)
    exact ⟨hp, .inl hk, .inr (.inr ⟨k, e, rfl⟩)⟩

end

namespace Sys2Proof.Machine

open Sys2Proof

/-! Flow entries and keys of a leg (R196, R198, R203). -/

theorem exec_chanFlowAdd (q : Req) (s : State) : exec (.chanFlowAdd q) s = .next (runOp opChanFlowAdd 0x0304 q s) := rfl
theorem exec_chanFlowDel (q : Req) (s : State) : exec (.chanFlowDel q) s = .next (runOp opChanFlowDel 0x0305 q s) := rfl
theorem exec_chanKey (q : Req) (s : State) : exec (.chanKey q) s = .next (runOp opChanKey 0x0307 q s) := rfl

/-- The place of a flow entry depends on the packet engine alone. -/
theorem Aside.placeFlow_eq {m : Nat} {s t : State} (h : Aside m s t) (f : FlowEnt) : t.placeFlow f = s.placeFlow f := by
  unfold State.placeFlow State.buckets State.inBucket State.inStash
  rw [h.pke_eq]

theorem chanFlowAdd_does : Does true opChanFlowAdd 0x0304 .chanFlowAdd (done fun q s =>
    let f := flowOf q.payload
    let x := s.leg f.leg
    (s.setPke { s.pke with flows := s.pke.flows ++ [{ f with place := (s.placeFlow f).getD none }] }).setLeg f.leg
      { x with cfg := { x.cfg with ssrcFix := if u8 q.payload 13 = 1 then some (num q.payload 52 4) else none } }) := by
  refine does_journaled exec_chanFlowAdd (fun _ => rfl) rfl fun q s plan _ => ?_
  refine acts_of_aside (f := fun v => (v.setPke _).setLeg _ _) (fun c v hv => ?_) (fun _ hv => (hv.setPke _).setLeg _ _) fun _ => rfl
  simp only [opChanFlowAdd, hv.pke_eq, hv.leg_eq, hv.placeFlow_eq]
  rfl

theorem chanFlowDel_does : Does true opChanFlowDel 0x0305 .chanFlowDel (done fun q s =>
    s.setPke { s.pke with flows := s.pke.flows.filter fun e => !(e.leg == legOf q.payload && e.sameKey (flowOf q.payload)) }) := by
  refine does_journaled exec_chanFlowDel (fun _ => rfl) rfl fun q s plan _ => ?_
  refine acts_of_aside (f := fun v => v.setPke _) (fun c v hv => ?_) (fun _ hv => hv.setPke _) fun _ => rfl
  simp only [opChanFlowDel, hv.pke_eq]
  rfl

/-- A leg with the key of a payload in its receiving context (R203). -/
def Leg.rxKeyed (x : Leg) (b : Bytes) : Leg := { x with cfg := { x.cfg with rx := x.cfg.rx.install b } }

/-- A leg with the key of a payload in its sending context (R203). -/
def Leg.txKeyed (x : Leg) (b : Bytes) : Leg := { x with cfg := { x.cfg with tx := x.cfg.tx.install b } }

/-! What CHAN_KEY does when it is not executed again, by the direction and the place that it names. -/

section key
variable {c : Ctx} {plan : List Nat} {v : State} {b : Bytes} (hc : c.replay = false)
include hc

theorem chanKey_app_rx (h : u8 b 4 = 0) :
    opChanKey.app c plan v b = Done.ok (v.setLeg (legOf b) ((v.leg (legOf b)).rxKeyed b)) := by
  simp only [opChanKey, h, hc, Bool.false_eq_true, if_true, if_false]
  rfl

theorem chanKey_app_txCur (h : u8 b 4 = 1) (h0 : u8 b 5 = 0) :
    opChanKey.app c plan v b = Done.ok (v.setLeg (legOf b) ((v.leg (legOf b)).txKeyed b)) := by
  simp only [opChanKey, h, h0, hc, Bool.false_eq_true, Nat.one_ne_zero, if_true, if_false]
  rfl

theorem chanKey_app_txNext (h : u8 b 4 = 1) (h1 : u8 b 5 = 1) : opChanKey.app c plan v b =
    (let a := (v.setLeg (legOf b) ((v.leg (legOf b)).txKeyed b)).armCmd c (legOf b) (tOf (sub b 68 12)) b []
    ⟨a.1, a.2.status, 0, [], false⟩) := by
  simp only [opChanKey, h, h1, hc, Bool.false_eq_true, Nat.one_ne_zero, if_false]
  rfl

end key

theorem chanKey_rx : DoesIf (fun q _ => u8 q.payload 4 = 0) true opChanKey 0x0307 .chanKey (done fun q s =>
    let x := s.leg (legOf q.payload)
    s.setLeg (legOf q.payload) { x with cfg := { x.cfg with rx := x.cfg.rx.install q.payload } }) := by
  refine doesIf_journaled exec_chanKey (fun _ _ _ _ _ => rfl) rfl fun q s plan _ hd v c hv _ _ _ _ hc => ?_
  refine ⟨_, chanKey_app_rx hc hd, ?_, rfl⟩
  rw [hv.leg_eq]
  exact hv.setLeg _ _

theorem chanKey_txCur : DoesIf (fun q _ => u8 q.payload 4 = 1 ∧ u8 q.payload 5 = 0) true opChanKey 0x0307 .chanKey (done fun q s =>
    let x := s.leg (legOf q.payload)
    s.setLeg (legOf q.payload) { x with cfg := { x.cfg with tx := x.cfg.tx.install q.payload } }) := by
  refine doesIf_journaled exec_chanKey (fun _ _ _ _ _ => rfl) rfl fun q s plan _ hd v c hv _ _ _ _ hc => ?_
  refine ⟨_, chanKey_app_txCur hc hd.1 hd.2, ?_, rfl⟩
  rw [hv.leg_eq]
  exact hv.setLeg _ _

theorem chanKey_txNext : DoesIf (fun q _ => u8 q.payload 4 = 1 ∧ u8 q.payload 5 = 1) true opChanKey 0x0307 .chanKey (fun q s =>
    let x := s.leg (legOf q.payload)
    armedWith 0x0307 (legOf q.payload) (tOf (sub q.payload 68 12)) [] q
      (s.setLeg (legOf q.payload) { x with cfg := { x.cfg with tx := x.cfg.tx.install q.payload } })) := by
  refine doesIf_journaled exec_chanKey (fun _ _ _ _ _ => rfl) rfl fun q s plan _ hd v c hv hf hm _ ho hc => ?_
  rw [chanKey_app_txNext hc hd.1 hd.2, hv.leg_eq]
  exact armed_acts rfl (hv.setLeg _ _) hf ho hm

end Sys2Proof.Machine

section
open Sys2Proof.Machine

/-- Settles O35: the two commands of flow entries, and CHAN_KEY by the direction and the place of its key. -/
theorem flowsAndKeysOfALeg : Obligations.FlowsAndKeysOfALeg :=
  ⟨chanFlowAdd_does, chanFlowDel_does, chanKey_rx, chanKey_txCur, chanKey_txNext⟩

end

namespace Sys2Proof.Machine

open Sys2Proof

/-! Reports, clearing and conferences (R215, R328, R336). -/

theorem exec_chanRtcp (q : Req) (s : State) : exec (.chanRtcp q) s = .next (runOp opChanRtcp 0x0312 q s) := rfl
theorem exec_chanClear (q : Req) (s : State) : exec (.chanClear q) s = .next (runOp opChanClear 0x0313 q s) := rfl
theorem exec_chanConfCreate (q : Req) (s : State) : exec (.chanConfCreate q) s = .next (runOp opChanConfCreate 0x0320 q s) := rfl
theorem exec_chanConfDelete (q : Req) (s : State) : exec (.chanConfDelete q) s = .next (runOp opChanConfDelete 0x0321 q s) := rfl
theorem exec_chanStatus (q : Req) (s : State) : exec (.chanStatus q) s = .next (runOp opChanStatus 0x0381 q s) := rfl
theorem exec_chanConfStatus (q : Req) (s : State) : exec (.chanConfStatus q) s = .next (runOp opChanConfStatus 0x0382 q s) := rfl

theorem chanRtcp_does : Does true opChanRtcp 0x0312 .chanRtcp (done fun q s =>
    let x := s.leg (legOf q.payload)
    s.setLeg (legOf q.payload) { x with cfg := { x.cfg with rtcpS := num q.payload 4 2, xr := u8 q.payload 6 == 1 } }) := by
  refine does_journaled exec_chanRtcp (fun _ => rfl) rfl fun q s plan _ v c hv _ _ _ ho _ => ?_
  refine ⟨v.setLeg _ _, ?_, hv.setLeg _ _, rfl⟩
  simp only [opChanRtcp, hv.leg_eq, ho]
  rfl

theorem chanClear_does : Does true opChanClear 0x0313 .chanClear (done fun q s =>
    { s with legs := kdel s.legs (legOf q.payload), pke := { s.pke with flows := s.pke.flows.filter (·.leg != legOf q.payload) } }) := by
  refine does_journaled exec_chanClear (fun _ => rfl) rfl fun q s plan _ => ?_
  refine acts_of_aside (f := fun v => { v with
      legs := kdel s.legs (legOf q.payload), pke := { s.pke with flows := s.pke.flows.filter (·.leg != legOf q.payload) } })
    (fun c v hv => ?_) (fun _ hv => (hv.withLegs (kdel s.legs _)).withPke _) fun _ => rfl
  simp only [opChanClear, hv.legs_eq, hv.pke_eq]
  rfl

theorem chanConfCreate_does : Does true opChanConfCreate 0x0320 .chanConfCreate (done fun q s =>
    let c : Conf := { rate := u8 q.payload 2, f := u8 q.payload 3, n := if u8 q.payload 4 = 0 then 3 else u8 q.payload 4, hyst := u8 q.payload 5,
                      phi := none, parts := [], sel := [] }
    { s with confs := kset s.confs (num q.payload 0 2) c }) := by
  refine does_journaled exec_chanConfCreate (fun _ => rfl) rfl fun q s plan _ => ?_
  refine acts_of_aside (f := fun v => { v with confs := _ }) (fun c v hv => ?_) (fun _ hv => hv.withConfs _) fun _ => rfl
  simp only [opChanConfCreate, hv.confs_eq]
  rfl

theorem chanConfDelete_does : Does true opChanConfDelete 0x0321 .chanConfDelete (done fun q s =>
    { s with confs := kdel s.confs (num q.payload 0 2), tnd := { s.tnd with cimps := s.tnd.cimps.filter fun r => r.conf != num q.payload 0 2 } }) := by
  refine does_journaled exec_chanConfDelete (fun _ => rfl) rfl fun q s plan _ => ?_
  refine acts_of_aside (f := fun v => { v with
      confs := kdel s.confs (num q.payload 0 2), tnd := { s.tnd with cimps := s.tnd.cimps.filter fun r => r.conf != num q.payload 0 2 } })
    (fun c v hv => ?_) (fun _ hv => (hv.withConfs (kdel s.confs _)).withTnd _) fun _ => rfl
  simp only [opChanConfDelete, hv.confs_eq, hv.tnd_eq]
  rfl

theorem Aside.confRec_eq {m : Nat} {s t : State} (h : Aside m s t) (id : Nat) (c : Conf) : t.confRec id c = s.confRec id c := by
  simp only [State.confRec, h.tnd_eq, dev_eq h]

theorem chanConfStatus_does (c : Conf) : DoesIf (fun q s => kget s.confs (num q.payload 0 2) = some c) false opChanConfStatus 0x0382 .chanConfStatus
    (replied fun q s => s.confRec (num q.payload 0 2) c) := by
  refine doesIf_direct exec_chanConfStatus (fun _ _ _ _ _ => rfl) fun q s plan _ hk => ?_
  refine acts_of_aside (f := id) (fun _ v hv => ?_) (fun _ hv => hv) fun _ => rfl
  simp only [opChanConfStatus, hv.confs_eq, hk, hv.confRec_eq]
  rfl

/-! The status records of a leg's nodes (R280, R306, R337): they are read from the leg, its template and its sets, and those that the spec does
not state are drawn. -/

section congr
variable {m : Nat} {s t : State} (h : Aside m s t)
include h

theorem Aside.banks_eq (c : Chain) : t.banks c = s.banks c := by simp only [State.banks, State.set, h.sets_eq]
theorem Aside.chainRec_eq (c : Chain) : t.chainRec c = s.chainRec c := by simp only [State.chainRec, h.banks_eq]
theorem Aside.echoRec_eq (l : Nat) : t.echoRec l = s.echoRec l := by simp only [State.echoRec, h.leg_eq, h.tmpl_eq]
theorem Aside.legTmpl_eq (l : Nat) : t.legTmpl l = s.legTmpl l := by simp only [State.legTmpl, h.leg_eq, h.tmpl_eq]

/-- The record of a node is the same on states that differ aside, and advances the free values alike. -/
theorem Aside.nodeRec {p r : State × Bytes} (hs : Aside m p.1 r.1) (hb : r.2 = p.2) (l i : Nat) :
    Aside m (s.nodeRec l p i).1 (t.nodeRec l r i).1 ∧ (t.nodeRec l r i).2 = (s.nodeRec l p i).2 := by
  simp only [State.nodeRec, h.leg_eq, h.tmpl_eq, h.chainRec_eq, h.echoRec_eq, hs.drawBytes_eq, hb]
  split
  · split <;> exact ⟨hs, rfl⟩
  · split
    · exact ⟨hs, rfl⟩
    · exact ⟨hs.drawn, rfl⟩

theorem Aside.foldl_nodeRec (l : Nat) (is : List Nat) {p r : State × Bytes} (hs : Aside m p.1 r.1) (hb : r.2 = p.2) :
    Aside m (is.foldl (s.nodeRec l) p).1 (is.foldl (t.nodeRec l) r).1 ∧ (is.foldl (t.nodeRec l) r).2 = (is.foldl (s.nodeRec l) p).2 := by
  induction is generalizing p r with
  | nil => exact ⟨hs, hb⟩
  | cons i is ih =>
    obtain ⟨hs', hb'⟩ := h.nodeRec hs hb l i
    exact ih hs' hb'

theorem Aside.nodeRecs (l : Nat) : Aside m (s.nodeRecs l).1 (t.nodeRecs l).1 ∧ (t.nodeRecs l).2 = (s.nodeRecs l).2 := by
  simp only [State.nodeRecs, h.leg_eq, h.legTmpl_eq]
  split
  · exact ⟨h, rfl⟩
  · exact h.foldl_nodeRec l _ h rfl

end congr

/-- The record of a node takes nothing but free values. -/
theorem nodeRec_state (s : State) (l : Nat) (p : State × Bytes) (i : Nat) :
    (s.nodeRec l p i).1 = { p.1 with free := (s.nodeRec l p i).1.free } := by
  simp only [State.nodeRec]
  split
  · split <;> rfl
  · split <;> rfl

theorem foldl_nodeRec_state (s : State) (l : Nat) (is : List Nat) (p : State × Bytes) :
    (is.foldl (s.nodeRec l) p).1 = { p.1 with free := (is.foldl (s.nodeRec l) p).1.free } := by
  induction is generalizing p with
  | nil => rfl
  | cons i is ih =>
    have h := ih (s.nodeRec l p i)
    rw [nodeRec_state s l p i] at h
    exact h

theorem nodeRecs_state (s : State) (l : Nat) : (s.nodeRecs l).1 = { s with free := (s.nodeRecs l).1.free } := by
  simp only [State.nodeRecs]
  split
  · rfl
  · exact foldl_nodeRec_state s l _ (s, [])

theorem nodeRecs_off {s : State} {l : Nat} (h : (s.leg l).st = .off) : s.nodeRecs l = (s, []) := if_pos h

theorem nodeRecs_single {s : State} {l : Nat} {n : Node} (hst : (s.leg l).st ≠ .off) (hn : (s.legTmpl l).nodes = [n]) : (s.nodeRecs l).2 =
    if n.ty = 3 then (match kget (s.leg l).med.chains 0 with | some c => s.chainRec c | none => zeros 80)
    else if n.ty = 4 then s.echoRec l else s.drawBytes 16 := by
  have hnode : (s.tmpl (s.leg l).cfg.tmpl).node 0 = n := congrArg (fun ns : List Node => ns.getD 0 ⟨0, 0xFF, 0xFF, 0, []⟩) hn
  rw [State.nodeRecs, if_neg hst, hn]
  show (s.nodeRec l (s, []) 0).2 = _
  simp only [State.nodeRec, hnode, List.nil_append]
  split
  · cases kget (s.leg l).med.chains 0 <;> rfl
  · split <;> rfl

theorem nodeRecs_cases (s : State) (l : Nat) : ((s.leg l).st = .off → s.nodeRecs l = (s, [])) ∧
    ((s.leg l).st ≠ .off → (s.nodeRecs l).1.beside = { s.beside with free := (s.nodeRecs l).1.free } ∧
      ∀ n, (s.legTmpl l).nodes = [n] → (s.nodeRecs l).2 =
        if n.ty = 3 then (match kget (s.leg l).med.chains 0 with | some c => s.chainRec c | none => zeros 80)
        else if n.ty = 4 then s.echoRec l else s.drawBytes 16) :=
  ⟨nodeRecs_off, fun hst => ⟨congrArg State.beside (nodeRecs_state s l), fun _ => nodeRecs_single hst⟩⟩

theorem chanStatus_does : Does false opChanStatus 0x0381 .chanStatus (fun q s =>
    ((s.nodeRecs (legOf q.payload)).1, St.ok, (s.leg (legOf q.payload)).head ++ (s.nodeRecs (legOf q.payload)).2)) := by
  refine does_direct exec_chanStatus (fun _ => rfl) fun q s plan _ => ?_
  refine acts_of_aside (f := fun v => (v.nodeRecs (legOf q.payload)).1) (fun c v hv => ?_) (fun _ hv => (hv.nodeRecs _).1) fun v => ?_
  · simp only [opChanStatus, Done.res, hv.leg_eq, (hv.nodeRecs _).2]
  · rw [nodeRecs_state]
    rfl

end Sys2Proof.Machine

section
open Sys2Proof.Machine

/-- Settles O39: the commands, and what the records of a leg's nodes are. -/
theorem conferencesReportsAndStatus : Obligations.ConferencesReportsAndStatus :=
  ⟨chanRtcp_does, chanClear_does, chanConfCreate_does, chanConfDelete_does, chanStatus_does, nodeRecs_cases, chanConfStatus_does⟩

end

namespace Sys2Proof.Machine

open Sys2Proof

/-! The packet engine takes a frame from a class buffer (R133, R193, R360). -/

theorem exec_pkeFrameTake (p : Fin 8) (n : Fin 7) (s : State) : exec (.pkeFrameTake p n) s = execPkeFrameTake p n s := rfl

theorem pkeFrameTake_held {p : Fin 8} {n : Fin 7} {s : State} (h : s.bpOn p.val n.val = true ∨ s.ringOf p.val ≠ none) :
    exec (.pkeFrameTake p n) s = .next s := by
  rw [exec_pkeFrameTake, execPkeFrameTake, if_pos (h.imp_right Option.isSome_iff_ne_none.2)]

theorem pkeFrameTake_empty {p : Fin 8} {n : Fin 7} {s : State} (h : kgetD (s.port p.val).rxq n.val [] = []) :
    exec (.pkeFrameTake p n) s = .next s := by
  simp only [exec_pkeFrameTake, execPkeFrameTake, State.rxTake, h, ite_self]

/-- The state once the oldest frame has left its class buffer, before the packet engine counts it. -/
def State.unqueued (s : State) (p n : Nat) (r : List RxFrame) : State :=
  (s.setPort p { s.port p with rxq := kset (s.port p).rxq n r }).xoffCheck p

theorem taken_eq (s : State) (p n : Nat) (r : List RxFrame) : State.taken s p n r = (s.unqueued p n r).bump R.PKE_RX_CNT := rfl

theorem pkeFrameTake_takes {p : Fin 8} {n : Fin 7} {s : State} {f : RxFrame} {r : List RxFrame} (hbp : s.bpOn p.val n.val = false)
    (hring : s.ringOf p.val = none) (hq : kgetD (s.port p.val).rxq n.val [] = f :: r) :
    exec (.pkeFrameTake p n) s = .next ((s.unqueued p.val n.val r).pkeTake p.val n.val f) := by
  simp only [exec_pkeFrameTake, execPkeFrameTake, State.rxTake, hbp, hring, hq, Option.isSome_none, Bool.false_eq_true, or_self, if_false]
  rfl

/-- What the packet engine reads of a part when it sorts a frame: flows, legs, times, the roles of the ports, and its own registers. -/
structure PkeSame (s t : State) : Prop where
  pke : t.pke = s.pke
  legs : t.legs = s.legs
  tmu : t.tmu = s.tmu
  swt : t.swt = s.swt
  role : ∀ k, t.portRole k = s.portRole k
  regs : ∀ a, a / 0x10000 = 5 → a ≠ R.PKE_RX_CNT → t.reg a = s.reg a

theorem PkeSame.trans {s t u : State} (h : PkeSame s t) (k : PkeSame t u) : PkeSame s u :=
  ⟨k.pke.trans h.pke, k.legs.trans h.legs, k.tmu.trans h.tmu, k.swt.trans h.swt, fun i => (k.role i).trans (h.role i),
    fun a h5 hne => (k.regs a h5 hne).trans (h.regs a h5 hne)⟩

theorem pkeSame_bump (s : State) : PkeSame s (s.bump R.PKE_RX_CNT) :=
  ⟨rfl, rfl, rfl, rfl, fun _ => rfl, fun _ _ hne => State.reg_bump_ne _ hne.symm⟩

/-- A port changed but for its role. -/
theorem pkeSame_setPort {s : State} {p : Nat} {x : Port} (h : x.roleF = (s.port p).roleF) : PkeSame s (s.setPort p x) :=
  ⟨rfl, rfl, rfl, rfl, fun k => by
    unfold State.portRole
    by_cases hk : p = k
    · subst hk; rw [State.port_setPort_same, h]
    · rw [State.port_setPort_ne _ _ hk], fun _ _ _ => rfl⟩

theorem pkeSame_xoffCheck (s : State) {p : Nat} (hp : p < 8) : PkeSame s (s.xoffCheck p) := by
  have hx := xoffOnly_xoffCheck s p
  refine ⟨?_, hx.legs, hx.tmu, hx.swt, ?_, fun a h5 _ => hx.regs a (by simp only [R.MAC_PAUSED]; omega)⟩
  · simp only [State.xoffCheck]
    split <;> rfl
  · simp only [State.xoffCheck]
    split
    · exact fun _ => rfl
    · exact (pkeSame_setPort (s := s.setFld (R.MAC_PAUSED_XOFF p) _) (by rfl)).role

theorem pkeSame_unqueued (s : State) {p : Nat} (hp : p < 8) (n : Nat) (r : List RxFrame) : PkeSame s (s.unqueued p n r) :=
  PkeSame.trans (pkeSame_setPort (by rfl)) (pkeSame_xoffCheck _ hp)

theorem pkeSame_taken (s : State) {p : Nat} (hp : p < 8) (n : Nat) (r : List RxFrame) : PkeSame s (State.taken s p n r) :=
  (pkeSame_unqueued s hp n r).trans (pkeSame_bump _)

theorem rxCnt_taken (s : State) {p : Nat} (hp : p < 8) (n : Nat) (r : List RxFrame) :
    (State.taken s p n r).reg R.PKE_RX_CNT = (s.reg R.PKE_RX_CNT + 1) % 2 ^ 32 := by
  rw [taken_eq, State.reg_bump_same, State.unqueued, (xoffOnly_xoffCheck _ p).regs _ (by simp only [R.MAC_PAUSED, R.PKE_RX_CNT]; omega)]
  rfl

section same
variable {s t : State} (h : PkeSame s t)
include h

theorem PkeSame.fld_eq {f : Fld} (h5 : f.addr / 0x10000 = 5) (hne : f.addr ≠ R.PKE_RX_CNT) : t.fld f = s.fld f := by
  unfold State.fld; rw [h.regs _ h5 hne]
theorem PkeSame.flag_eq {f : Fld} (h5 : f.addr / 0x10000 = 5) (hne : f.addr ≠ R.PKE_RX_CNT) : t.flag f = s.flag f := by
  unfold State.flag; rw [h.fld_eq h5 hne]
theorem PkeSame.loc_eq : t.loc = s.loc := by unfold State.loc; rw [h.tmu]
theorem PkeSame.leg_eq (l : Nat) : t.leg l = s.leg l := by unfold State.leg; rw [h.legs]
theorem PkeSame.isTandem_eq (p : Nat) : t.isTandem p = s.isTandem p := by unfold State.isTandem; rw [h.role]
theorem PkeSame.bridgeOf_eq (p : Nat) : t.bridgeOf p = s.bridgeOf p := by
  unfold State.bridgeOf; rw [h.fld_eq (f := R.PKE_BRIDGE_MAP) rfl (by decide)]
theorem PkeSame.srcOk_eq (e : FlowEnt) (k : Pkt) : t.srcOk e k = s.srcOk e k := by
  unfold State.srcOk; rw [h.fld_eq (f := R.PKE_HOLD_LATCH_MS) rfl (by decide), h.loc_eq]
theorem PkeSame.rtpFault_eq (x : Leg) (r : RtpIn) : t.rtpFault x r = s.rtpFault x r := by
  unfold State.rtpFault; rw [h.fld_eq (f := R.PKE_HOLD_SSRC_MS) rfl (by decide), h.loc_eq]

end same

/-! The rows of R193, of a frame that is no tandem frame and no frame of the control protocol: by what parsing finds in it. -/

theorem isTandem_counted (s : State) (p : Nat) : (s.bump R.PKE_RX_CNT).isTandem p = s.isTandem p := rfl
theorem qinq_counted (s : State) : (s.bump R.PKE_RX_CNT).flag R.PKE_CFG_QINQ = s.flag R.PKE_CFG_QINQ :=
  (pkeSame_bump s).flag_eq (f := R.PKE_CFG_QINQ) rfl (by decide)

section rows
variable {s : State} {p n : Nat} {f : RxFrame} (htan : s.isTandem p = false) (het : (parseEth f.bytes).etype ≠ 0x88B5)
include htan het

theorem pkeTake_bad (h : parsePkt (s.flag R.PKE_CFG_QINQ) f.bytes = .bad) :
    s.pkeTake p n f = (s.bump R.PKE_RX_CNT).bump R.PKE_PARSE_CNT := by
  simp only [State.pkeTake, isTandem_counted, htan, het, qinq_counted, h, Bool.false_eq_true, false_and, if_false]

theorem pkeTake_csum (h : parsePkt (s.flag R.PKE_CFG_QINQ) f.bytes = .csum) :
    s.pkeTake p n f = (s.bump R.PKE_RX_CNT).bump R.PKE_CSUM_CNT := by
  simp only [State.pkeTake, isTandem_counted, htan, het, qinq_counted, h, Bool.false_eq_true, false_and, if_false]

theorem pkeTake_otherIp (h : parsePkt (s.flag R.PKE_CFG_QINQ) f.bytes = .otherIp) :
    s.pkeTake p n f = (s.bump R.PKE_RX_CNT).pkeOther p n f true := by
  simp only [State.pkeTake, isTandem_counted, htan, het, qinq_counted, h, Bool.false_eq_true, false_and, if_false]

theorem pkeTake_notIp (h : parsePkt (s.flag R.PKE_CFG_QINQ) f.bytes = .notIp) :
    s.pkeTake p n f = (s.bump R.PKE_RX_CNT).pkeOther p n f false := by
  simp only [State.pkeTake, isTandem_counted, htan, het, qinq_counted, h, Bool.false_eq_true, false_and, if_false]

variable {k : Pkt} {i : Nat} {e : FlowEnt} (hk : parsePkt (s.flag R.PKE_CFG_QINQ) f.bytes = .udp k)
  (hi : lookupFlow s.pke.flows p k = some i) (he : s.pke.flows[i]? = some e)
include hk hi he

theorem pkeTake_flow : s.pkeTake p n f =
    (let t := s.bump R.PKE_RX_CNT
    if (s.leg e.leg).st ≠ .on then t.legCnt e.leg R.PKE_MISS_CNT
    else if e.kind == 1 || (e.kind == 2 && decide (192 ≤ u8 k.pay 1 ∧ u8 k.pay 1 ≤ 223)) then
      (if t.srcOk e k then (t.heardFrom i e k).rtcpRx p n i e k f.stamp else t.legCnt e.leg R.PKE_SRC_CNT)
    else t.rtpRx i e k f.stamp) := by
  have hi' : lookupFlow (s.bump R.PKE_RX_CNT).pke.flows p k = some i := hi
  have he' : (s.bump R.PKE_RX_CNT).pke.flows[i]? = some e := he
  simp only [State.pkeTake, isTandem_counted, htan, het, qinq_counted, hk, hi', he', Bool.false_eq_true, false_and, if_false]
  rfl

end rows

/-- An IP frame without a flow, or one without IP, that is neither bridged nor a PTP frame. -/
theorem pkeOther_counts {s : State} {p n : Nat} {f : RxFrame} {ip : Bool} (hb : s.bridgeOf p = none)
    (hp : isPtp f.bytes (parseEth f.bytes) = false) :
    s.pkeOther p n f ip = if ip then (if s.fld R.PKE_CFG_MISS = 1 then s.slowPath p f.bytes else s.bump R.PKE_MISS_CNT)
      else s.bump R.PKE_ETYPE_CNT := by
  simp only [State.pkeOther, hb, hp, ite_self, Bool.false_eq_true, if_false]

/-! An RTP packet of a flow (R199, R200). -/

/-- Hearing the latched source changes the flow table at most. -/
theorem heardFrom_setPke (s : State) (i : Nat) (e : FlowEnt) (k : Pkt) : ∃ y, s.heardFrom i e k = s.setPke y := by
  unfold State.heardFrom
  split
  · exact ⟨_, rfl⟩
  · exact ⟨s.pke, rfl⟩

theorem latch_setPke (s : State) (i : Nat) (e : FlowEnt) (k : Pkt) : ∃ y, s.latch i e k = s.setPke y := by
  unfold State.latch
  split
  · exact ⟨_, rfl⟩
  · exact ⟨s.pke, rfl⟩

section rtp
variable {s : State} {i : Nat} {e : FlowEnt} {k : Pkt} {stamp : Inst}

theorem rtpRx_source (h : s.srcOk e k = false) : s.rtpRx i e k stamp = (s.heardFrom i e k).legCnt e.leg R.PKE_SRC_CNT := if_pos h

variable (hsrc : s.srcOk e k = true) {x : RtpIn} (hx : (s.leg e.leg).rtpIn k.pay = some x)
include hsrc hx

theorem rtpRx_fails {c : Nat} (hf : s.rtpFault (s.leg e.leg) x = some c) (hc : c ≠ R.PKE_AUTH_CNT) :
    s.rtpRx i e k stamp = (s.heardFrom i e k).legCnt e.leg c := by
  obtain ⟨y, hy⟩ := heardFrom_setPke s i e k
  have hleg : (s.setPke y).leg e.leg = s.leg e.leg := rfl
  have hfault : (s.setPke y).rtpFault (s.leg e.leg) x = some c := hf
  simp only [State.rtpRx, hsrc, hy, hleg, hx, hfault, hc, Bool.true_eq_false, if_false]

/-- A packet that passes every check is filed for its leg, once the leg's context has followed it. -/
theorem rtpRx_files (hf : s.rtpFault (s.leg e.leg) x = none) (hte : (s.leg e.leg).cfg.pts.2.2 = 255) :
    ∃ e' q, s.rtpRx i e k stamp = (((s.heardFrom i e k).rtpUpdate e.leg i e' k x).legCnt e.leg R.PKE_RTP_CNT).plyFile e.leg q := by
  obtain ⟨y, hy⟩ := heardFrom_setPke s i e k
  have hleg : (s.setPke y).leg e.leg = s.leg e.leg := rfl
  have hfault : (s.setPke y).rtpFault (s.leg e.leg) x = none := hf
  simp only [State.rtpRx, hsrc, hy, hleg, hx, hfault, hte, Bool.true_eq_false, ne_eq, not_true_eq_false, false_and, if_false]
  exact ⟨_, _, rfl⟩

end rtp

/-! What filing a packet leaves (R221-R231): beside the playout of its leg, the playout engine's registers and events. -/

/-- Beside the leg `l`, the registers of the playout engine and the counter of dropped events, what the packet engine guards is the same. -/
structure OneLeg (l : Nat) (s t : State) : Prop where
  tmu : t.tmu = s.tmu
  swt : t.swt = s.swt
  others : ∀ j, j ≠ l → t.leg j = s.leg j
  regs : ∀ a, a / 0x10000 ≠ 6 → a ≠ R.QCP_EVT_DROP_CNT → t.reg a = s.reg a

/-- So it is, and of the leg the state, the configuration and the receiving context are the same too. -/
structure Filed (l : Nat) (s t : State) : Prop extends OneLeg l s t where
  st : (t.leg l).st = (s.leg l).st
  cfg : (t.leg l).cfg = (s.leg l).cfg
  rx : (t.leg l).rx = (s.leg l).rx

theorem OneLeg.trans {l : Nat} {s t u : State} (h : OneLeg l s t) (k : OneLeg l t u) : OneLeg l s u :=
  ⟨k.tmu.trans h.tmu, k.swt.trans h.swt, fun j hj => (k.others j hj).trans (h.others j hj), fun a h6 hd => (k.regs a h6 hd).trans (h.regs a h6 hd)⟩

theorem Filed.refl (l : Nat) (s : State) : Filed l s s := ⟨⟨rfl, rfl, fun _ _ => rfl, fun _ _ _ => rfl⟩, rfl, rfl, rfl⟩

theorem Filed.trans {l : Nat} {s t u : State} (h : Filed l s t) (k : Filed l t u) : Filed l s u :=
  ⟨h.toOneLeg.trans k.toOneLeg, k.st.trans h.st, k.cfg.trans h.cfg, k.rx.trans h.rx⟩

theorem oneLeg_setLeg (l : Nat) (s : State) (x : Leg) : OneLeg l s (s.setLeg l x) :=
  ⟨rfl, rfl, fun _ hj => leg_setLeg_ne _ _ hj, fun _ _ _ => rfl⟩

theorem oneLeg_setPke (l : Nat) (s : State) (x : Pke) : OneLeg l s (s.setPke x) := ⟨rfl, rfl, fun _ _ => rfl, fun _ _ _ => rfl⟩
theorem oneLeg_setNv (l : Nat) (s : State) (x : Nv) : OneLeg l s (s.setNv x) := ⟨rfl, rfl, fun _ _ => rfl, fun _ _ _ => rfl⟩

/-- A leg set to one with another playout, or other counts. -/
theorem filed_setLeg {l : Nat} {s : State} {x : Leg} (hst : x.st = (s.leg l).st) (hcfg : x.cfg = (s.leg l).cfg) (hrx : x.rx = (s.leg l).rx) :
    Filed l s (s.setLeg l x) := by
  refine ⟨oneLeg_setLeg l s x, ?_, ?_, ?_⟩ <;> rw [leg_setLeg_same]
  · exact hst
  · exact hcfg
  · exact hrx

theorem filed_setPly (l : Nat) (s : State) (y : Ply) : Filed l s (s.setLeg l { s.leg l with ply := y }) :=
  filed_setLeg (by rfl) (by rfl) (by rfl)

/-- Registers written and events sent leave every leg. -/
theorem Only.filed {L : List Nat} {s t : State} (h : Only L s t) (hL : ∀ a ∈ L, a / 0x10000 = 6) (l : Nat) : Filed l s t := by
  refine ⟨⟨h.tmu_eq, (congrArg State.swt h.rest : t.bare.swt = s.bare.swt), fun j _ => h.leg_eq j, fun a h6 hd => h.regs a (fun hm => h6 (hL a hm)) hd⟩,
    ?_, ?_, ?_⟩ <;> rw [h.leg_eq]

theorem filed_setReg {a : Nat} (h6 : a / 0x10000 = 6) (l : Nat) (s : State) (v : Nat) : Filed l s (s.setReg a v) :=
  (only_setReg (L := [a]) (by simp)).filed (by simp [h6]) l

theorem filed_raise {a : Nat} (h6 : a / 0x10000 = 6) (l : Nat) (s : State) (v : Nat) : Filed l s (s.raise a v) :=
  (only_raise (L := [a]) (by simp)).filed (by simp [h6]) l

/-- What is left of a leg's count beside the counter itself. -/
theorem filed_counted (l a : Nat) (s : State) : Filed l (s.bump a) (s.legCnt l a) := filed_setLeg (by rfl) (by rfl) (by rfl)

theorem filed_legCnt {a : Nat} (h6 : a / 0x10000 = 6) (l : Nat) (s : State) : Filed l s (s.legCnt l a) :=
  (filed_setReg h6 l s _).trans (filed_counted l a s)

theorem filed_slackSample (l : Nat) (s : State) (slack : Int) (a ts : Nat) : Filed l s (s.slackSample l slack a ts) := by
  simp only [State.slackSample]
  split
  · exact (filed_setPly l s _).trans (filed_raise rfl l _ _)
  · exact filed_setPly l s _

theorem filed_poolDrop (l : Nat) (s : State) : Filed l s (s.poolDrop l) := (filed_legCnt rfl l s).trans (filed_raise rfl l _ _)

theorem filed_putSlot (l : Nat) (s : State) (q : PlyPkt) : Filed l s (s.putSlot l q) := by
  have hput (y : Ply) (v : Nat) : Filed l s ((s.setLeg l { s.leg l with ply := y }).setFld R.PLY_POOL_PEAK_CELLS v) :=
    (filed_setPly l s y).trans (filed_setReg rfl l _ _)
  simp only [State.putSlot]
  split
  · exact (hput _ _).trans (filed_raise rfl l _ _)
  · exact hput _ _

theorem filed_fileSlot (l : Nat) (s : State) (q : PlyIn) (due : Inst) : Filed l s (s.fileSlot l q due) := by
  have hput (y : Ply) (k : PlyPkt) : Filed l s ((s.setLeg l { s.leg l with ply := y }).putSlot l k) :=
    (filed_setPly l s y).trans (filed_putSlot l _ k)
  simp only [State.fileSlot]
  split
  · exact filed_poolDrop l s
  · split
    · exact (hput _ _).trans (filed_legCnt rfl l _)
    · exact hput _ _

theorem filed_anchorLeg (l : Nat) (s : State) (q : PlyIn) : Filed l s (s.anchorLeg l q) := by
  simp only [State.anchorLeg]
  split
  · exact (filed_setPly l s _).trans (filed_poolDrop l _)
  · exact ((filed_setPly l s _).trans (filed_slackSample l _ _ _ _)).trans (filed_fileSlot l _ _ _)

theorem filed_plyFlush (l : Nat) (s : State) : Filed l s (s.plyFlush l) :=
  (filed_setPly l s _).trans (filed_legCnt rfl l _)

theorem filed_plyFile (l : Nat) (s : State) (q : PlyIn) : Filed l s (s.plyFile l q) := by
  have hcnt {u : State} {a : Nat} (h6 : a / 0x10000 = 6) (h : Filed l s u) : Filed l s (u.legCnt l a) := h.trans (filed_legCnt h6 l u)
  have hrx : Filed l s (s.legCnt l R.PLY_RX_CNT) := filed_legCnt rfl l s
  unfold State.plyFile
  extract_lets s0 x y s1 n d w x1 calm _ s2 due was slack s3 z
  have hs1 : Filed l s s1 := hrx.trans (filed_setPly l _ _)
  have hcalm : Filed l s (calm s1) := hs1.trans (filed_setPly l _ _)
  have hs2 : Filed l s s2 := hcnt rfl (hs1.trans (filed_setPly l _ _))
  have hs3 : Filed l s s3 := hcalm.trans (filed_slackSample l _ _ _ _)
  split
  · exact hcnt rfl (hrx.trans (filed_setPly l _ _))
  split
  · exact hs1.trans (filed_anchorLeg l _ q)
  split
  · exact hcnt rfl hcalm
  split
  · split
    · exact ((hcnt rfl hs2).trans (filed_raise rfl l _ _)).trans (filed_anchorLeg l _ q)
    · exact hs2
  split
  · split <;> exact hcnt rfl hs3
  split
  · exact hcnt rfl (hs3.trans (filed_setPly l _ _))
  · exact hs3.trans (filed_fileSlot l _ q _)

/-! What an accepted packet updates (R199, R200, R203, R205). -/

@[simp] theorem useKey_valid (c : SCtx) (next rtcp : Bool) : (c.useKey next rtcp).valid = c.valid := by
  unfold SCtx.useKey
  extract_lets up
  split
  · split <;> rfl
  · rfl

theorem recordSrtp_setNv (s : State) (l : Nat) : ∃ y, s.recordSrtp l = s.setNv y := by
  unfold State.recordSrtp
  dsimp only
  split
  · split
    · exact ⟨s.nv, rfl⟩
    · exact ⟨_, rfl⟩
  · exact ⟨s.nv, rfl⟩

/-- The leg of an accepted packet learns its SSRC and is heard, its context is in use, and it runs on. -/
structure Heard (l ssrc at_ : Nat) (s t : State) : Prop extends OneLeg l s t where
  ssrc : (t.leg l).rx.ssrc = some ssrc
  heard : (t.leg l).rx.heard = at_
  valid : (t.leg l).cfg.rx.valid = true
  st : (t.leg l).st = (s.leg l).st

theorem Heard.filed {l ssrc at_ : Nat} {s t u : State} (h : Heard l ssrc at_ s t) (k : Filed l t u) : Heard l ssrc at_ s u :=
  ⟨h.toOneLeg.trans k.toOneLeg, by rw [k.rx, h.ssrc], by rw [k.rx, h.heard], by rw [k.cfg, h.valid], k.st.trans h.st⟩

theorem heard_rtpUpdate (s : State) (l i : Nat) (e : FlowEnt) (k : Pkt) (r : RtpIn) :
    Heard l r.h.ssrc s.loc s (s.rtpUpdate l i e k r) := by
  obtain ⟨y, hy⟩ := latch_setPke s i e k
  unfold State.rtpUpdate
  rw [hy]
  extract_lets t x c change _ rx _
  split
  extract_lets c1 c2 s2
  have hc2 : c2.valid = true := by
    unfold c2
    split
    · rw [useKey_valid]
    · rfl
  have hs2 : Heard l r.h.ssrc s.loc s s2 := by
    obtain ⟨z, hz⟩ := recordSrtp_setNv (t.setLeg l { x with cfg := { x.cfg with rx := c2 }, rx := rx }) l
    have hleg : s2.leg l = { x with cfg := { x.cfg with rx := c2 }, rx := rx } := (congrArg (State.leg · l) hz).trans (leg_setLeg_same t l _)
    have hone : OneLeg l s s2 := by
      unfold s2
      rw [hz]
      exact ((oneLeg_setPke l s y).trans (oneLeg_setLeg l t _)).trans (oneLeg_setNv l _ z)
    exact ⟨hone, by rw [hleg], by rw [hleg]; rfl, by rw [hleg]; exact hc2, by rw [hleg]; rfl⟩
  split
  · exact hs2.filed (filed_plyFlush l _)
  · exact hs2


theorem heard_rtpAccepted (s : State) (l i j : Nat) (e g : FlowEnt) (k : Pkt) (r : RtpIn) :
    Heard l r.h.ssrc s.loc s ((s.heardFrom i e k).rtpUpdate l j g k r) := by
  obtain ⟨y, hy⟩ := heardFrom_setPke s i e k
  rw [hy]
  have h := heard_rtpUpdate (s.setPke y) l j g k r
  exact ⟨(oneLeg_setPke l s y).trans h.toOneLeg, h.ssrc, h.heard, h.valid, h.st⟩

/-! What taking a frame does, by the row of R193 that it meets. -/

section taken
variable {p : Fin 8} {n : Fin 7} {s : State} {f : RxFrame} {r : List RxFrame}

/-- Once it has left its buffer, a frame meets the row that it met in it. -/
theorem unqueued_meets (htan : s.isTandem p.val = false) : PkeSame s (s.unqueued p.val n.val r) ∧
    (s.unqueued p.val n.val r).isTandem p.val = false ∧ (s.unqueued p.val n.val r).flag R.PKE_CFG_QINQ = s.flag R.PKE_CFG_QINQ := by
  have hs := pkeSame_unqueued s p.isLt n.val r
  exact ⟨hs, (hs.isTandem_eq _).trans htan, hs.flag_eq (f := R.PKE_CFG_QINQ) rfl (by decide)⟩

variable (hbp : s.bpOn p.val n.val = false) (hring : s.ringOf p.val = none) (hq : kgetD (s.port p.val).rxq n.val [] = f :: r)
  (htan : s.isTandem p.val = false) (het : (parseEth f.bytes).etype ≠ 0x88B5)
include hbp hring hq htan het

theorem pkeFrameTake_bad (h : parsePkt (s.flag R.PKE_CFG_QINQ) f.bytes = .bad) :
    exec (.pkeFrameTake p n) s = .next ((State.taken s p.val n.val r).bump R.PKE_PARSE_CNT) := by
  obtain ⟨-, ht, hf⟩ := unqueued_meets (n := n) (r := r) htan
  rw [pkeFrameTake_takes hbp hring hq, pkeTake_bad ht het (hf ▸ h)]
  rfl

theorem pkeFrameTake_csum (h : parsePkt (s.flag R.PKE_CFG_QINQ) f.bytes = .csum) :
    exec (.pkeFrameTake p n) s = .next ((State.taken s p.val n.val r).bump R.PKE_CSUM_CNT) := by
  obtain ⟨-, ht, hf⟩ := unqueued_meets (n := n) (r := r) htan
  rw [pkeFrameTake_takes hbp hring hq, pkeTake_csum ht het (hf ▸ h)]
  rfl

theorem pkeFrameTake_otherIp (h : parsePkt (s.flag R.PKE_CFG_QINQ) f.bytes = .otherIp) (hb : s.bridgeOf p.val = none)
    (hp : isPtp f.bytes (parseEth f.bytes) = false) (hm : s.fld R.PKE_CFG_MISS ≠ 1) :
    exec (.pkeFrameTake p n) s = .next ((State.taken s p.val n.val r).bump R.PKE_MISS_CNT) := by
  obtain ⟨-, ht, hf⟩ := unqueued_meets (n := n) (r := r) htan
  have hs := pkeSame_taken s p.isLt n.val r
  have hm' : (State.taken s p.val n.val r).fld R.PKE_CFG_MISS ≠ 1 := by rwa [hs.fld_eq (f := R.PKE_CFG_MISS) rfl (by decide)]
  rw [pkeFrameTake_takes hbp hring hq, pkeTake_otherIp ht het (hf ▸ h), ← taken_eq, pkeOther_counts ((hs.bridgeOf_eq _).trans hb) hp,
    if_pos rfl, if_neg hm']

theorem pkeFrameTake_notIp (h : parsePkt (s.flag R.PKE_CFG_QINQ) f.bytes = .notIp) (hb : s.bridgeOf p.val = none)
    (hp : isPtp f.bytes (parseEth f.bytes) = false) :
    exec (.pkeFrameTake p n) s = .next ((State.taken s p.val n.val r).bump R.PKE_ETYPE_CNT) := by
  obtain ⟨-, ht, hf⟩ := unqueued_meets (n := n) (r := r) htan
  have hs := pkeSame_taken s p.isLt n.val r
  rw [pkeFrameTake_takes hbp hring hq, pkeTake_notIp ht het (hf ▸ h), ← taken_eq, pkeOther_counts ((hs.bridgeOf_eq _).trans hb) hp]
  rfl

variable {k : Pkt} {i : Nat} {e : FlowEnt} (hk : parsePkt (s.flag R.PKE_CFG_QINQ) f.bytes = .udp k)
  (hi : lookupFlow s.pke.flows p.val k = some i) (he : s.pke.flows[i]? = some e)
include hk hi he

theorem pkeFrameTake_notOn (hst : (s.leg e.leg).st ≠ .on) :
    exec (.pkeFrameTake p n) s = .next ((State.taken s p.val n.val r).legCnt e.leg R.PKE_MISS_CNT) := by
  obtain ⟨hs, ht, hf⟩ := unqueued_meets (n := n) (r := r) htan
  rw [pkeFrameTake_takes hbp hring hq, pkeTake_flow ht het (hf ▸ hk) (hs.pke ▸ hi) (hs.pke ▸ he), hs.leg_eq]
  exact congrArg _ (if_pos hst)

/-- A packet of a flow of media whose leg is ON is taken as RTP. -/
theorem pkeFrameTake_rtp (hst : (s.leg e.leg).st = .on) (hkind : e.kind = 0) :
    exec (.pkeFrameTake p n) s = .next ((State.taken s p.val n.val r).rtpRx i e k f.stamp) := by
  obtain ⟨hs, ht, hf⟩ := unqueued_meets (n := n) (r := r) htan
  rw [pkeFrameTake_takes hbp hring hq, pkeTake_flow ht het (hf ▸ hk) (hs.pke ▸ hi) (hs.pke ▸ he), hs.leg_eq]
  simp only [hst, hkind, ne_eq, not_true_eq_false, if_false, Nat.reduceBEq, Bool.false_and, Bool.or_self, Bool.false_eq_true]
  rfl

theorem pkeFrameTake_source (hst : (s.leg e.leg).st = .on) (hkind : e.kind = 0) (hsrc : s.srcOk e k = false) :
    exec (.pkeFrameTake p n) s = .next (((State.taken s p.val n.val r).heardFrom i e k).legCnt e.leg R.PKE_SRC_CNT) := by
  rw [pkeFrameTake_rtp hbp hring hq htan het hk hi he hst hkind,
    rtpRx_source (((pkeSame_taken s p.isLt n.val r).srcOk_eq e k).trans hsrc)]

theorem pkeFrameTake_fails (x : RtpIn) (c : Nat) (hst : (s.leg e.leg).st = .on) (hkind : e.kind = 0) (hsrc : s.srcOk e k = true)
    (hx : (s.leg e.leg).rtpIn k.pay = some x) (hfault : s.rtpFault (s.leg e.leg) x = some c) (hc : c ≠ R.PKE_AUTH_CNT) :
    exec (.pkeFrameTake p n) s = .next (((State.taken s p.val n.val r).heardFrom i e k).legCnt e.leg c) := by
  have hs := pkeSame_taken s p.isLt n.val r
  rw [← hs.srcOk_eq e k] at hsrc
  rw [← hs.leg_eq] at hx hfault
  rw [← hs.rtpFault_eq] at hfault
  rw [pkeFrameTake_rtp hbp hring hq htan het hk hi he hst hkind, rtpRx_fails hsrc hx hfault hc]

theorem pkeFrameTake_accepts (x : RtpIn) (hst : (s.leg e.leg).st = .on) (hkind : e.kind = 0) (hsrc : s.srcOk e k = true)
    (hx : (s.leg e.leg).rtpIn k.pay = some x) (hfault : s.rtpFault (s.leg e.leg) x = none) (hte : (s.leg e.leg).cfg.pts.2.2 = 255) :
    ∃ t, exec (.pkeFrameTake p n) s = .next t ∧ t.reg R.PKE_RTP_CNT = (s.reg R.PKE_RTP_CNT + 1) % 2 ^ 32 ∧
      t.reg R.PKE_RX_CNT = (s.reg R.PKE_RX_CNT + 1) % 2 ^ 32 ∧ (t.leg e.leg).rx.ssrc = some x.h.ssrc ∧ (t.leg e.leg).rx.heard = s.loc ∧
      (t.leg e.leg).cfg.rx.valid = true ∧ (t.leg e.leg).st = .on ∧ (∀ j, j ≠ e.leg → t.leg j = s.leg j) ∧ t.tmu = s.tmu ∧ t.swt = s.swt := by
  have hs := pkeSame_taken s p.isLt n.val r
  rw [← hs.srcOk_eq e k] at hsrc
  rw [← hs.leg_eq] at hx hfault hte
  rw [← hs.rtpFault_eq] at hfault
  obtain ⟨g, q, hfiles⟩ := rtpRx_files (stamp := f.stamp) (i := i) hsrc hx hfault hte
  have hh := heard_rtpAccepted (State.taken s p.val n.val r) e.leg i i e g k x
  generalize ((State.taken s p.val n.val r).heardFrom i e k).rtpUpdate e.leg i g k x = u at hfiles hh
  have hf : Filed e.leg (u.bump R.PKE_RTP_CNT) ((u.legCnt e.leg R.PKE_RTP_CNT).plyFile e.leg q) :=
    (filed_counted e.leg R.PKE_RTP_CNT u).trans (filed_plyFile e.leg _ q)
  refine ⟨_, (pkeFrameTake_rtp hbp hring hq htan het hk hi he hst hkind).trans (congrArg _ hfiles), ?_, ?_, ?_, ?_, ?_, ?_, fun j hj => ?_, ?_, ?_⟩
  · rw [hf.regs _ (by decide) (by decide), State.reg_bump_same, hh.regs _ (by decide) (by decide), hs.regs _ rfl (by decide)]
  · rw [hf.regs _ (by decide) (by decide), State.reg_bump_ne _ (by decide), hh.regs _ (by decide) (by decide), rxCnt_taken s p.isLt]
  · rw [hf.rx]; exact hh.ssrc
  · rw [hf.rx]; exact hh.heard.trans hs.loc_eq
  · rw [hf.cfg]; exact hh.valid
  · rw [hf.st]; exact hh.st.trans ((congrArg Leg.st (hs.leg_eq _)).trans hst)
  · exact (hf.others j hj).trans ((hh.others j hj).trans (hs.leg_eq j))
  · exact hf.tmu.trans (hh.tmu.trans hs.tmu)
  · exact hf.swt.trans (hh.swt.trans hs.swt)

end taken

end Sys2Proof.Machine

namespace Sys2Proof.Machine

open Sys2Proof

/-! The PTP stack takes the frames passed to it (R81, R92, R96, R97, R99). -/

theorem exec_ptpFrameRx (r : PtpFind) (s : State) : exec (.ptpFrameRx r) s = execPtpFrameRx r s := rfl

theorem ptpFrameRx_empty {r : PtpFind} {s : State} (h : s.pke.ptpQ = []) : exec (.ptpFrameRx r) s = .next s := by
  rw [exec_ptpFrameRx, execPtpFrameRx, h]

theorem ptpFrameRx_takes {s : State} {p : Nat} {f : RxFrame} {q : List (Nat × RxFrame)} (h : s.pke.ptpQ = (p, f) :: q) (r : PtpFind) :
    exec (.ptpFrameRx r) s = .next ((s.setPke { s.pke with ptpQ := q }).ptpFound p f.bytes r) := by
  rw [exec_ptpFrameRx, execPtpFrameRx, h]

/-- Where a frame's PTP message begins: behind UDP for general messages, else as for event messages. -/
def ptpAt (b : Bytes) : Option Nat :=
  if udpDst b (parseEth b) = some 320 then (udpAt b (parseEth b)).map (· + 8) else ptpOff b (parseEth b)

/-- Whether the clock listens to a message of port `p`: version and domain are its own, it has a role, and the port is enabled (R96, R97). -/
def State.ptpHears (s : State) (p : Nat) (b : Bytes) : Bool :=
  (match ptpAt b with | some o => ptpVersion (u8 b (o + 1)) && u8 b (o + 4) == u8 s.tmu.ptpRole 3 | none => false) &&
    decide (s.ptpRole ≠ 0) && u8 (kgetD s.tmu.ptpPorts p []) 1 == 1

theorem ptpHears_iff (s : State) (p : Nat) (b : Bytes) : s.ptpHears p b = true ↔
    (∃ o, ptpAt b = some o ∧ ptpVersion (u8 b (o + 1)) = true ∧ u8 b (o + 4) = u8 s.tmu.ptpRole 3) ∧ s.ptpRole ≠ 0 ∧
      u8 (kgetD s.tmu.ptpPorts p []) 1 = 1 := by
  unfold State.ptpHears
  cases ptpAt b with
  | none => simp
  | some o => simp [and_assoc]

theorem ptpFound_utc (s : State) (p : Nat) (b : Bytes) (u : BitVec 16) :
    s.ptpFound p b (.utcOffset u) = if s.ptpHears p b then s.setFld R.PKE_UTC_OFS_S u.toNat else s := rfl

theorem ptpFound_offset (s : State) (p : Nat) (b : Bytes) (raw : BitVec 48) (mpd : BitVec 32) (wt : Byte) : s.ptpFound p b (.offset raw mpd wt) =
    if s.ptpHears p b ∧ p < 7 then s.ptpOffset p (sgn 48 raw.toNat) mpd.toNat wt.toNat else s := rfl

theorem ptpFound_link {s : State} {p o : Nat} {b : Bytes} (d : BitVec 32) (hp : p < 7) (ho : ptpAt b = some o)
    (hty : u8 b o % 16 = 3 ∨ u8 b o % 16 = 10) (h : s.ptpHears p b = true ∨ s.pdelayHere p b = true) :
    s.ptpFound p b (.linkDelay d) = s.setReg (R.TMU_LINKDLY p) d.toNat := by
  unfold State.ptpHears at h
  unfold ptpAt at ho h
  rw [ho] at h
  simp only [State.ptpFound, ho]
  exact if_pos ⟨hp, hty, h⟩

/-! An offset, by the registers of a sample (R81, R92). -/

theorem unsgn_lt (w : Nat) (x : Int) : unsgn w x < 2 ^ w := by
  have h := Int.emod_lt_of_pos x (b := ((2 ^ w : Nat) : Int)) (by exact_mod_cast Nat.two_pow_pos w)
  have h0 := Int.emod_nonneg x (b := ((2 ^ w : Nat) : Int)) (by exact_mod_cast (Nat.two_pow_pos w).ne')
  unfold unsgn
  omega

/-- An offset is told by its whole part in 32 bits and its fraction in 16. -/
theorem sgn_unsgn_frac {o : Int} (hlo : -(2 ^ 47) ≤ o) (hhi : o < 2 ^ 47) : sgn 32 (unsgn 32 (o / 65536)) * 65536 + (unsgn 16 o : Int) = o := by
  unfold sgn unsgn
  norm_num
  split <;> omega

/-- The second register of a sample: port, weight, fraction. -/
theorem sample_aux {p : Nat} (hp : p < 7) (wt : Byte) (o : Int) :
    let a := p * 2 ^ 24 + wt.toNat * 2 ^ 16 + unsgn 16 o
    a < 2 ^ 32 ∧ a % 2 ^ 16 = unsgn 16 o ∧ a / 2 ^ 16 % 2 ^ 8 = wt.toNat ∧ a / 2 ^ 24 % 2 ^ 3 = p := by
  have h1 := unsgn_lt 16 o
  have h2 := wt.isLt
  omega

theorem heldSample_ptp (s : State) {p : Nat} (hp : p < 7) {o : Int} (hlo : -(2 ^ 47) ≤ o) (hhi : o < 2 ^ 47) (mpd : BitVec 32) (wt : Byte) :
    (s.ofsWrite (unsgn 32 (o / 65536)) (p * 2 ^ 24 + wt.toNat * 2 ^ 16 + unsgn 16 o) mpd.toNat).heldSample =
      ⟨o, wt.toNat, if mpd.toNat = 0xFFFFFFFF then none else some mpd.toNat, p⟩ := by
  obtain ⟨hlt, hfrac, hwt, hport⟩ := sample_aux hp wt o
  have h := heldSample_ofsWrite s (BitVec.ofNat 32 (unsgn 32 (o / 65536))) (BitVec.ofNat 32 (p * 2 ^ 24 + wt.toNat * 2 ^ 16 + unsgn 16 o)) mpd
  simp only [BitVec.toNat_ofNat, Nat.mod_eq_of_lt hlt, Nat.mod_eq_of_lt (unsgn_lt 32 _), hfrac, hwt, hport, sgn_unsgn_frac hlo hhi] at h
  exact h

theorem ptpOffset_pushes (s : State) {p : Nat} (hp : p < 7) (raw : Int) (mpd : BitVec 32) (wt : Byte) (hon : s.tmu.srv.st = .on)
    (hroom : s.tmu.ofs.length < 16) (hlo : -(2 ^ 47) ≤ raw - sgn 32 (s.reg (R.TMU_ASYM p)) * 256)
    (hhi : raw - sgn 32 (s.reg (R.TMU_ASYM p)) * 256 < 2 ^ 47) :
    let v := s.ptpOffset p raw mpd.toNat wt.toNat
    v.tmu.ofs = s.tmu.ofs ++ [⟨raw - sgn 32 (s.reg (R.TMU_ASYM p)) * 256, wt.toNat,
      if mpd.toNat = 0xFFFFFFFF then none else some mpd.toNat, p⟩] ∧ v.tmu.srv.lastPush = s.tmu.loc ∧ v.pke = s.pke ∧ v.legs = s.legs := by
  have hs := heldSample_ptp s hp hlo hhi mpd wt
  have hpush := ofsPush_on (s := s.ofsWrite (unsgn 32 ((raw - sgn 32 (s.reg (R.TMU_ASYM p)) * 256) / 65536))
    (p * 2 ^ 24 + wt.toNat * 2 ^ 16 + unsgn 16 (raw - sgn 32 (s.reg (R.TMU_ASYM p)) * 256)) mpd.toNat) hon hroom
  rw [hs] at hpush
  simp only [State.ptpOffset, hpush]
  exact ⟨rfl, rfl, rfl, rfl⟩

/-! What the PTP stack makes of the frame that it takes. -/

section ptp
variable {s : State} {p : Nat} {f : RxFrame} {q : List (Nat × RxFrame)} (h : s.pke.ptpQ = (p, f) :: q)
include h

theorem ptpFrameRx_utc (hon : s.ptpHears p f.bytes = true) (u : BitVec 16) :
    exec (.ptpFrameRx (.utcOffset u)) s = .next ((s.setPke { s.pke with ptpQ := q }).setFld R.PKE_UTC_OFS_S u.toNat) := by
  rw [ptpFrameRx_takes h, ptpFound_utc]
  exact congrArg _ (if_pos hon)

theorem ptpFrameRx_unheard (hoff : s.ptpHears p f.bytes = false) :
    (∀ u, exec (.ptpFrameRx (.utcOffset u)) s = .next (s.setPke { s.pke with ptpQ := q })) ∧
    ∀ raw mpd wt, exec (.ptpFrameRx (.offset raw mpd wt)) s = .next (s.setPke { s.pke with ptpQ := q }) := by
  have hoff' : ¬ (s.setPke { s.pke with ptpQ := q }).ptpHears p f.bytes = true := ne_true_of_eq_false hoff
  refine ⟨fun u => ?_, fun raw mpd wt => ?_⟩
  · rw [ptpFrameRx_takes h, ptpFound_utc, if_neg hoff']
  · rw [ptpFrameRx_takes h, ptpFound_offset, if_neg fun k => hoff' k.1]

theorem ptpFrameRx_link {o : Nat} (d : BitVec 32) (hp : p < 7) (ho : ptpAt f.bytes = some o)
    (hty : u8 f.bytes o % 16 = 3 ∨ u8 f.bytes o % 16 = 10) (hon : s.ptpHears p f.bytes = true ∨ s.pdelayHere p f.bytes = true) :
    exec (.ptpFrameRx (.linkDelay d)) s = .next ((s.setPke { s.pke with ptpQ := q }).setReg (R.TMU_LINKDLY p) d.toNat) := by
  rw [ptpFrameRx_takes h]
  exact congrArg _ (ptpFound_link d hp ho hty hon)

theorem ptpFrameRx_offset (raw : BitVec 48) (mpd : BitVec 32) (wt : Byte) (hon : s.ptpHears p f.bytes = true) (hp : p < 7)
    (hst : s.tmu.srv.st = .on) (hroom : s.tmu.ofs.length < 16)
    (hlo : -(2 ^ 47) ≤ sgn 48 raw.toNat - sgn 32 (s.reg (R.TMU_ASYM p)) * 256)
    (hhi : sgn 48 raw.toNat - sgn 32 (s.reg (R.TMU_ASYM p)) * 256 < 2 ^ 47) : ∃ v, exec (.ptpFrameRx (.offset raw mpd wt)) s = .next v ∧
      v.tmu.ofs = s.tmu.ofs ++ [⟨sgn 48 raw.toNat - sgn 32 (s.reg (R.TMU_ASYM p)) * 256, wt.toNat,
        if mpd.toNat = 0xFFFFFFFF then none else some mpd.toNat, p⟩] ∧
      v.tmu.srv.lastPush = s.tmu.loc ∧ v.pke = { s.pke with ptpQ := q } ∧ v.legs = s.legs := by
  refine ⟨_, ?_, ptpOffset_pushes (s.setPke { s.pke with ptpQ := q }) hp _ mpd wt hst hroom hlo hhi⟩
  rw [ptpFrameRx_takes h, ptpFound_offset]
  exact congrArg _ (if_pos ⟨hon, hp⟩)

end ptp

/-! The firmware takes the slow-path frames (R193, R195). -/

theorem exec_slowPathFrame (s : State) : exec .slowPathFrame s = execSlowPathFrame s := rfl

section slow
variable {s : State} {p : Nat} {b : Bytes} {r : List (Nat × Bytes)} (h : s.pke.slowQ = (p, b) :: r)
include h

theorem slowPathFrame_discards (ha : s.slowAnswer b = none) : exec .slowPathFrame s = .next (s.setPke { s.pke with slowQ := r }) := by
  have ha' : (s.setPke { s.pke with slowQ := r }).slowAnswer b = none := ha
  simp only [exec_slowPathFrame, execSlowPathFrame, h, ha']

theorem slowPathFrame_answers {a : Bytes} (ha : s.slowAnswer b = some a) :
    exec .slowPathFrame s = .next ((s.setPke { s.pke with slowQ := r }).txRequest p (TxFrame.plain a 0 .none)).1 := by
  have ha' : (s.setPke { s.pke with slowQ := r }).slowAnswer b = some a := ha
  simp only [exec_slowPathFrame, execSlowPathFrame, h, ha']

end slow

end Sys2Proof.Machine

section
open Sys2Proof.Machine

/-- Settles O22: the engine's rows for a frame that it takes, what the PTP stack makes of one, and the slow path. -/
theorem framesAreSortedToFlows : Obligations.FramesAreSortedToFlows := by
  refine ⟨fun _ _ _ h => pkeFrameTake_empty h, fun _ _ _ h => pkeFrameTake_held h, ?_, fun _ _ h => ptpFrameRx_empty h, ?_,
    fun _ _ _ _ h ha => slowPathFrame_discards h ha, fun _ _ _ _ _ h ha => slowPathFrame_answers h ha⟩
  · intro p n s f r hbp hring hq htan het
    refine ⟨pkeFrameTake_bad hbp hring hq htan het, pkeFrameTake_csum hbp hring hq htan het, pkeFrameTake_otherIp hbp hring hq htan het,
      pkeFrameTake_notIp hbp hring hq htan het, fun k i e hk hi he => ?_⟩
    exact ⟨pkeFrameTake_notOn hbp hring hq htan het hk hi he, pkeFrameTake_source hbp hring hq htan het hk hi he,
      pkeFrameTake_fails hbp hring hq htan het hk hi he, pkeFrameTake_accepts hbp hring hq htan het hk hi he⟩
  · intro s p f q h t e off on
    have hears : s.ptpHears p f.bytes = true ↔ on := ptpHears_iff s p f.bytes
    exact ⟨ptpFrameRx_takes h .nothing, fun u hon => ptpFrameRx_utc h (hears.2 hon) u,
      fun hoff => ptpFrameRx_unheard h (Bool.eq_false_iff.2 fun k => hoff (hears.1 k)),
      fun d o hp ho hty hor => ptpFrameRx_link h d hp ho hty (hor.imp_left hears.2),
      fun raw mpd wt hon hp hst hroom hlo hhi => ptpFrameRx_offset h raw mpd wt (hears.2 hon) hp hst hroom hlo hhi⟩

end

namespace Sys2Proof.Machine

open Sys2Proof

/-! A write to a register of the blocks from playout to the gleaner (R10-R12): what the block does beside storing the value. -/

theorem qcpReg_engine {a : Nat} (hlo : 0x60000 ≤ a) (hhi : a < 0x100000) : qcpReg a = false := qcpReg_false (by omega) (by omega)

theorem writePair_effect {a : Nat} (hr : (regAt a).isSome) (s : State) (v : Nat) :
    s.writePair a v = (s.stored a v).effect a (s.reg a) v := by
  rw [State.writePair, if_pos hr]
  rfl

/-- A write completes with the value stored and the block's effect, where that effect is alike on states that differ aside and shows the sessions
events at most. -/
theorem writes_of_effect {mk : RegCmd → Instr} {a v : Nat} {e : State → State} (hx : ∀ c s, exec (mk c) s = .next (writeOne c a v s))
    (ha : (regAt a).isSome ∧ 0x60000 ≤ a ∧ a < 0x100000) (hv : v < 2 ^ 32)
    (hc : ∀ m s t old, Aside m s t → Aside m (s.effect a old v) (t.effect a old v))
    (hf : ∀ (m : Nat) (s : State) (old : Nat), ((s.effect a old v).sess m).face = (s.sess m).face)
    (he : ∀ s, (s.stored a v).effect a (s.reg a) v = e s) : Writes mk (fun _ => a) (fun _ => v) e := by
  obtain ⟨hr, hlo, hhi⟩ := ha
  have hq : qcpReg a = false := qcpReg_engine hlo hhi
  refine writes_of_writePair hx (by omega) hv (by simp only [R.SWT_LOFT_BUD]; omega) (fun s => ?_) (fun m s t h => ?_) fun m s => ?_
  · have : ¬ a < 0x20180 := by omega
    simp [tmuLate, this]
  · rw [writePair_effect hr, ← he, h.reg_eq hq]
    exact hc _ _ _ _ (h.stored hq v)
  · rw [writePair_effect hr, hf, sess_stored]

/-! What the blocks' effects read and change is alike on states that differ aside. -/

section congr
variable {m : Nat} {s t : State} (h : Aside m s t)
include h

theorem Aside.engQ_eq : t.engQ = s.engQ := (congrArg State.engQ h.rest : t.beside.engQ = s.beside.engQ)
theorem Aside.flag_eq {f : Fld} (hf : qcpReg f.addr = false) : t.flag f = s.flag f := by unfold State.flag; rw [h.fld_eq hf]
theorem Aside.plyUsed_eq : t.plyUsed = s.plyUsed := by unfold State.plyUsed; rw [h.legs_eq]
theorem Aside.queued_eq (k : Nat) : t.queued k = s.queued k := by unfold State.queued; rw [h.engQ_eq]
theorem Aside.poolUsed_eq (p : Nat) : t.poolUsed p = s.poolUsed p := by unfold State.poolUsed; rw [h.knl_eq]
theorem Aside.rsvUsed_eq : t.rsvUsed = s.rsvUsed := by unfold State.rsvUsed; rw [h.knl_eq, h.mmu_eq]
theorem Aside.beng_eq (e : Nat) : t.beng e = s.beng e := by unfold State.beng; rw [h.bal_eq]
theorem Aside.msNow_eq : t.msNow = s.msNow := by unfold State.msNow; rw [h.now_eq]

theorem Aside.setKnl (x : Knl) : Aside m (s.setKnl x) (t.setKnl x) := h.withKnl x

theorem Aside.setBeng (e : Nat) (x : BEng) : Aside m (s.setBeng e x) (t.setBeng e x) := by
  unfold State.setBeng
  rw [h.beng_eq, h.bal_eq]
  exact (h.withBal _).report _ _ _

end congr

/-! The choice of a core and what it takes (R344-R346, R349, R351, R374). -/

theorem histBin_le (ns : Nat) : histBin ns ≤ 15 := by
  unfold histBin
  cases hk : (List.range 15).find? fun k => decide (ns < 64 * 2 ^ k) with
  | none => exact Nat.le_refl 15
  | some k => exact Nat.le_of_lt (List.mem_range.1 (List.mem_of_find?_eq_some hk))

theorem qcpReg_hist (ns : Nat) : qcpReg (R.KNL_HIST (histBin ns)) = false := by
  have := histBin_le ns
  exact qcpReg_engine (by simp only [R.KNL_HIST]; omega) (by simp only [R.KNL_HIST]; omega)

section congr
variable {m : Nat} {s t : State} (h : Aside m s t)
include h

theorem Aside.task_eq (i : Nat) : t.task i = s.task i := by unfold State.task; rw [h.knl_eq]
theorem Aside.core_eq (c : Nat) : t.core c = s.core c := by unfold State.core; rw [h.knl_eq]
theorem Aside.sliceOn_eq (cls idx : Nat) : t.sliceOn cls idx = s.sliceOn cls idx := by unfold State.sliceOn; rw [h.gln_eq]
theorem Aside.workOf_eq (l : Nat) : t.workOf l = s.workOf l := by unfold State.workOf; rw [h.leg_eq]
theorem Aside.coreFree_eq (c : Nat) : t.coreFree c = s.coreFree c := by unfold State.coreFree; rw [h.core_eq, h.awaiting_eq]

theorem Aside.framesUsed_eq (c : Nat) : t.framesUsed c = s.framesUsed c := by
  unfold State.framesUsed; rw [h.core_eq, h.underTest_eq]

theorem Aside.frameFor_eq (c : Nat) : t.frameFor c = s.frameFor c := by
  simp only [State.frameFor, State.framesHeld, h.core_eq, h.task_eq, h.sliceOn_eq]

theorem Aside.mediaWindow_eq : t.mediaWindow = s.mediaWindow := by
  simp only [State.mediaWindow, State.pastDeadline, h.swt_eq, h.phase_eq, h.elapsed_eq]

theorem Aside.bgFree_eq : t.bgFree = s.bgFree := by
  have hused : t.bgUsed = s.bgUsed := by simp only [State.bgUsed, State.ranIn, h.knl_eq, h.loc_eq, h.swt_eq]
  unfold State.bgFree
  rw [hused, h.lenNs_eq, h.swtFld_eq (f := R.SWT_UNITS_N_CORE) rfl]

theorem Aside.kindOk_eq (k : Task) : t.kindOk k = s.kindOk k := by
  unfold State.kindOk; rw [h.mediaWindow_eq, h.bgFree_eq]

theorem Aside.pickFor_eq (c : Nat) : t.pickFor c = s.pickFor c := by
  simp only [State.pickFor, State.resumable, State.takable, h.framesUsed_eq, h.kindOk_eq, h.knl_eq,
    h.flag_eq (f := R.KNL_CFG_STEAL) (by decide)]

theorem Aside.setTask (i : Nat) (k : Task) : Aside m (s.setTask i k) (t.setTask i k) := by
  unfold State.setTask; rw [h.knl_eq]; exact h.setKnl _

theorem Aside.setCore (c : Nat) (x : Core) : Aside m (s.setCore c x) (t.setCore c x) := by
  unfold State.setCore; rw [h.knl_eq]; exact h.setKnl _

theorem Aside.histCount (k : Task) : Aside m (s.histCount k) (t.histCount k) := by
  simp only [State.histCount, h.flag_eq (f := R.KNL_HIST_SEL_ALL) (by decide), h.fld_eq (f := R.KNL_HIST_SEL_PRI) (by decide), h.loc_eq,
    h.reg_eq (qcpReg_hist _)]
  split
  · exact h.setReg _ _
  · exact h

theorem Aside.dispatch (c i : Nat) (k : Task) : Aside m (s.dispatch c i k) (t.dispatch c i k) := by
  have hcount : Aside m (if k.seen then s else s.histCount k) (if k.seen then t else t.histCount k) := by
    split
    · exact h
    · exact h.histCount k
  simp only [State.dispatch, h.core_eq, h.workOf_eq, h.frameFor_eq, h.loc_eq]
  refine ((Aside.setTask ?_ _ _).setCore _ _).bump (by decide)
  split
  · exact hcount.bump (by decide)
  · exact hcount

theorem Aside.coreTake (c : Nat) : Aside m (s.coreTake c) (t.coreTake c) := by
  unfold State.coreTake
  rw [h.coreFree_eq, h.pickFor_eq]
  split
  · split
    · exact h.dispatch _ _ _
    · exact h
  · exact h

theorem Aside.wakeCores : Aside m s.wakeCores t.wakeCores := h.foldl _ fun _ _ c hu => hu.coreTake c

theorem Aside.histClear : Aside m s.histClear t.histClear := h.foldl _ fun _ _ _ hu => hu.setReg _ _

theorem Aside.cutAny (r : Slice) (cause : Nat) : Aside m (s.cutAny r cause) (t.cutAny r cause) := by
  have hcut := h.cutSlice r cause
  simp only [State.cutAny, hcut.core_eq]
  split
  · exact (hcut.setCore _ _).coreTake _
  · split
    · exact hcut.coreTake _
    · exact hcut

theorem Aside.cutAll (cause : Nat) : Aside m (s.cutAll cause) (t.cutAll cause) := by
  unfold State.cutAll
  rw [h.gln_eq]
  exact h.foldl _ fun _ _ r hu => hu.cutAny r cause

end congr

/-! Sessions see of it at most events. -/

section face
variable (m : Nat) (s : State)

theorem histCount_sess (k : Task) : (s.histCount k).sess m = s.sess m := by
  simp only [State.histCount]
  split <;> rfl

theorem dispatch_sess (c i : Nat) (k : Task) : (s.dispatch c i k).sess m = s.sess m := by
  have hset : ∀ (u : State) (i c : Nat) (k : Task) (x : Core), ((u.setTask i k).setCore c x).sess m = u.sess m := fun _ _ _ _ _ => rfl
  simp only [State.dispatch, State.sess_bump, hset]
  split <;> split <;> simp only [State.sess_bump, histCount_sess]

theorem coreTake_sess (c : Nat) : (s.coreTake c).sess m = s.sess m := by
  unfold State.coreTake
  split
  · split
    · exact dispatch_sess m s _ _ _
    · rfl
  · rfl

theorem wakeCores_sess : s.wakeCores.sess m = s.sess m := foldl_sess m (fun u c => coreTake_sess m u c) _ s

theorem histClear_sess : s.histClear.sess m = s.sess m := by
  unfold State.histClear
  exact foldl_sess m (fun u k => State.sess_setReg u (R.KNL_HIST k) 0 m) _ s

theorem cutAny_face (r : Slice) (cause : Nat) : ((s.cutAny r cause).sess m).face = (s.sess m).face := by
  simp only [State.cutAny]
  split
  · rw [coreTake_sess]
    exact cutSlice_face m s r cause
  · split
    · rw [coreTake_sess]
      exact cutSlice_face m s r cause
    · exact cutSlice_face m s r cause

theorem cutAll_face (cause : Nat) : ((s.cutAll cause).sess m).face = (s.sess m).face := by
  unfold State.cutAll
  generalize s.gln.run = l
  induction l generalizing s with
  | nil => rfl
  | cons r l ih => exact (ih _).trans (cutAny_face m s r cause)

end face

/-! The effects of the blocks (R242, R282, R308, R346, R362, R365, R367, R401, R428, R501, R509), alike on states that differ aside. -/

/-- The peaks of the kennel's pools, back at the entries in use (R367). -/
def State.poolPeaksCleared (s : State) : State :=
  ((s.setFld R.KNL_POOL_FRAME_PEAK (s.poolUsed 0)).setFld R.KNL_POOL_SYS_PEAK (s.poolUsed 1)).setFld R.KNL_POOL_SHR_PEAK_PEAK (s.poolUsed 2)

theorem knlEffect_ctl (s : State) (old v : Nat) : knlEffect s R.KNL_CTL old v =
    let u := if tb v 1 then s.histClear else s
    if tb v 0 then u.poolPeaksCleared else u := rfl

theorem knlEffect_histSel (s : State) (old v : Nat) :
    knlEffect s R.KNL_HIST_SEL old v = if bits v 4 0 = bits old 4 0 then s else s.histClear := rfl

theorem knlEffect_cfg (s : State) (old v : Nat) : knlEffect s R.KNL_CFG old v =
    let u := if tb v 0 ∧ ¬ tb old 0 then s.setKnl { s.knl with bp := [] } else s
    if tb v 1 ∧ ¬ tb old 1 then u.wakeCores else u := rfl

theorem aside_ite {m : Nat} {c : Prop} [Decidable c] {s s' t t' : State} (h : Aside m s t) (h' : Aside m s' t') :
    Aside m (if c then s else s') (if c then t else t') := by
  split
  · exact h
  · exact h'

section congr
variable {m : Nat} {s t : State} (h : Aside m s t) (a old v : Nat)
include h

theorem Aside.plyEffect : Aside m (plyEffect s a v) (plyEffect t a v) := by
  unfold Machine.plyEffect
  rw [h.plyUsed_eq]
  exact aside_ite (h.setFld (f := R.PLY_POOL_PEAK_CELLS) (by decide) _) h

theorem Aside.fceEffect (ha : a < 0x80000) : Aside m (fceEffect s a old v) (fceEffect t a old v) := by
  have hq : qcpReg (R.FCE_LOAD ((a - 0x70000) / 0x1000)) = false :=
    qcpReg_engine (by simp only [R.FCE_LOAD]; omega) (by simp only [R.FCE_LOAD]; omega)
  simp only [Machine.fceEffect, h.fld_eq (f := R.FCE_LOAD_LAST _) hq]
  exact aside_ite (h.setFld (f := R.FCE_LOAD_PEAK _) hq _) h

theorem Aside.eceEffect (ha : a < 0x90000) : Aside m (eceEffect s a old v) (eceEffect t a old v) := by
  have hl : qcpReg (R.ECE_LOAD ((a - 0x80000) / 0x800)) = false :=
    qcpReg_engine (by simp only [R.ECE_LOAD]; omega) (by simp only [R.ECE_LOAD]; omega)
  have hq : qcpReg (R.ECE_QUEUE ((a - 0x80000) / 0x800)) = false :=
    qcpReg_engine (by simp only [R.ECE_QUEUE]; omega) (by simp only [R.ECE_QUEUE]; omega)
  simp only [Machine.eceEffect, h.fld_eq (f := R.ECE_LOAD_LAST _) hl, h.queued_eq]
  exact aside_ite ((h.setFld (f := R.ECE_LOAD_PEAK _) hl _).setFld (f := R.ECE_QUEUE_PEAK _) hq _) h

theorem Aside.poolPeaksCleared : Aside m s.poolPeaksCleared t.poolPeaksCleared := by
  simp only [State.poolPeaksCleared, h.poolUsed_eq]
  exact ((h.setFld (f := R.KNL_POOL_FRAME_PEAK) (by decide) _).setFld (f := R.KNL_POOL_SYS_PEAK) (by decide) _).setFld
    (f := R.KNL_POOL_SHR_PEAK_PEAK) (by decide) _

theorem Aside.knlEffect_ctl : Aside m (knlEffect s R.KNL_CTL old v) (knlEffect t R.KNL_CTL old v) := by
  have hist : Aside m (if tb v 1 then s.histClear else s) (if tb v 1 then t.histClear else t) := aside_ite h.histClear h
  rw [Machine.knlEffect_ctl, Machine.knlEffect_ctl]
  exact aside_ite hist.poolPeaksCleared hist

theorem Aside.knlEffect_histSel : Aside m (knlEffect s R.KNL_HIST_SEL old v) (knlEffect t R.KNL_HIST_SEL old v) := by
  rw [Machine.knlEffect_histSel, Machine.knlEffect_histSel]
  exact aside_ite h h.histClear

theorem Aside.knlEffect_cfg : Aside m (knlEffect s R.KNL_CFG old v) (knlEffect t R.KNL_CFG old v) := by
  rw [Machine.knlEffect_cfg, Machine.knlEffect_cfg, h.knl_eq]
  have held := aside_ite (c := tb v 0 ∧ ¬ tb old 0) (h.setKnl { s.knl with bp := [] }) h
  exact aside_ite held.wakeCores held

theorem Aside.mmuEffect : Aside m (mmuEffect s a old v) (mmuEffect t a old v) := by
  have hp := h.setFld (f := R.MMU_STAGE_PEAK_PEAK) (by decide) (cdiv s.stageUsed 16)
  simp only [Machine.mmuEffect, h.stageUsed_eq, hp.mmu_eq]
  exact aside_ite (hp.setMmu _) h

theorem Aside.frpEffect : Aside m (frpEffect s a old v) (frpEffect t a old v) := by
  unfold Machine.frpEffect
  rw [h.rsvUsed_eq, h.frp_eq]
  exact aside_ite ((h.setFld (f := R.FRP_RSV_PEAK) (by decide) _).setFld (f := R.FRP_LOG_PEAK) (by decide) _) h

theorem Aside.balEffect : Aside m (balEffect s a old v) (balEffect t a old v) := by
  refine aside_ite (h.foldl _ fun u w e hu => ?_) h
  simp only [hu.beng_eq, hu.msNow_eq]
  exact hu.setBeng _ _

theorem Aside.glnEffect : Aside m (glnEffect s a old v) (glnEffect t a old v) := aside_ite (h.cutAll 3) h

end congr

/-! Sessions see of them at most events. -/

section face
variable (m : Nat) (s : State) (a old v : Nat)

theorem sess_ite {c : Prop} [Decidable c] {t u : State} (ht : t.sess m = s.sess m) (hu : u.sess m = s.sess m) :
    (if c then t else u).sess m = s.sess m := by
  split
  · exact ht
  · exact hu

theorem plyEffect_sess : (plyEffect s a v).sess m = s.sess m := sess_ite m s rfl rfl
theorem fceEffect_sess : (fceEffect s a old v).sess m = s.sess m := sess_ite m s rfl rfl
theorem eceEffect_sess : (eceEffect s a old v).sess m = s.sess m := sess_ite m s rfl rfl
theorem mmuEffect_sess : (mmuEffect s a old v).sess m = s.sess m := sess_ite m s rfl rfl
theorem frpEffect_sess : (frpEffect s a old v).sess m = s.sess m := sess_ite m s rfl rfl

theorem poolPeaksCleared_sess : s.poolPeaksCleared.sess m = s.sess m := rfl

theorem knlEffect_ctl_sess : (knlEffect s R.KNL_CTL old v).sess m = s.sess m := by
  have hist : (if tb v 1 then s.histClear else s).sess m = s.sess m := sess_ite m s (histClear_sess m s) rfl
  rw [knlEffect_ctl]
  exact sess_ite m s ((poolPeaksCleared_sess m _).trans hist) hist

theorem knlEffect_histSel_sess : (knlEffect s R.KNL_HIST_SEL old v).sess m = s.sess m := by
  rw [knlEffect_histSel]
  exact sess_ite m s rfl (histClear_sess m s)

theorem knlEffect_cfg_sess : (knlEffect s R.KNL_CFG old v).sess m = s.sess m := by
  have held : (if tb v 0 ∧ ¬ tb old 0 then s.setKnl { s.knl with bp := [] } else s).sess m = s.sess m := sess_ite m s rfl rfl
  rw [knlEffect_cfg]
  exact sess_ite m s ((wakeCores_sess m _).trans held) held

theorem setBeng_sess (e : Nat) (x : BEng) : (s.setBeng e x).sess m = s.sess m := rfl

theorem balEffect_sess : (balEffect s a old v).sess m = s.sess m := by
  unfold balEffect
  exact sess_ite m s (foldl_sess m (fun u e => setBeng_sess m u e _) _ s) rfl

theorem glnEffect_face : ((glnEffect s a old v).sess m).face = (s.sess m).face := by
  unfold glnEffect
  split
  · exact cutAll_face m s 3
  · rfl

end face

/-! The registers of the blocks that act when written (R242, R282, R308, R346, R362, R365, R367, R401, R428, R501, R509, R599). -/

theorem engine_written_defined : ∀ a ∈ [R.PLY_CTL, R.KNL_CTL, R.KNL_HIST_SEL, R.KNL_CFG, R.MMU_CTL, R.FRP_CTL, R.BAL_CTL, R.GLN_CTL, R.GLN_CFG],
    (regAt a).isSome ∧ 0x60000 ≤ a ∧ a < 0x100000 := by decide +kernel

theorem fce_ctl_defined : ∀ e < 16, (regAt (R.FCE_CTL e)).isSome ∧ 0x60000 ≤ R.FCE_CTL e ∧ R.FCE_CTL e < 0x100000 := by decide +kernel
theorem ece_ctl_defined : ∀ e < 32, (regAt (R.ECE_CTL e)).isSome ∧ 0x60000 ≤ R.ECE_CTL e ∧ R.ECE_CTL e < 0x100000 := by decide +kernel

theorem plyCtlPeakClr_writes : Writes .plyCtlPeakClr (fun _ => R.PLY_CTL) (fun _ => 1) (fun s =>
    (s.stored R.PLY_CTL 1).setFld R.PLY_POOL_PEAK_CELLS (s.stored R.PLY_CTL 1).plyUsed) :=
  writes_of_effect (fun _ _ => rfl) (engine_written_defined _ (by decide)) (by decide) (fun _ _ _ _ h => h.plyEffect _ _)
    (fun m s _ => congrArg Session.face (plyEffect_sess m s _ _)) fun _ => rfl

theorem knlCtlPeakClr_writes : Writes .knlCtlPeakClr (fun _ => R.KNL_CTL) (fun _ => 1) (fun s => (s.stored R.KNL_CTL 1).poolPeaksCleared) :=
  writes_of_effect (fun _ _ => rfl) (engine_written_defined _ (by decide)) (by decide) (fun _ _ _ _ h => h.knlEffect_ctl _ _)
    (fun m s _ => congrArg Session.face (knlEffect_ctl_sess m s _ _)) fun _ => rfl

theorem knlCtlHistClr_writes : Writes .knlCtlHistClr (fun _ => R.KNL_CTL) (fun _ => 2) (fun s => (s.stored R.KNL_CTL 2).histClear) :=
  writes_of_effect (fun _ _ => rfl) (engine_written_defined _ (by decide)) (by decide) (fun _ _ _ _ h => h.knlEffect_ctl _ _)
    (fun m s _ => congrArg Session.face (knlEffect_ctl_sess m s _ _)) fun _ => rfl

theorem knlHistSelWrite_writes (v : Word) : Writes (fun c => .knlHistSelWrite c v) (fun _ => R.KNL_HIST_SEL) (fun _ => v.toNat) (fun s =>
    let t := s.stored R.KNL_HIST_SEL v.toNat
    if bits v.toNat 4 0 = bits (s.reg R.KNL_HIST_SEL) 4 0 then t else t.histClear) :=
  writes_of_effect (fun _ _ => rfl) (engine_written_defined _ (by decide)) v.isLt (fun _ _ _ _ h => h.knlEffect_histSel _ _)
    (fun m s _ => congrArg Session.face (knlEffect_histSel_sess m s _ _)) fun _ => rfl

theorem knlRefuseWrite_writes (v : Word) : Writes (fun c => .knlRefuseWrite c v) (fun _ => R.KNL_CFG) (fun _ => v.toNat) (fun s =>
    let t := s.stored R.KNL_CFG v.toNat
    let u := if tb v.toNat 0 ∧ ¬ tb (s.reg R.KNL_CFG) 0 then t.setKnl { s.knl with bp := [] } else t
    if tb v.toNat 1 ∧ ¬ tb (s.reg R.KNL_CFG) 1 then u.wakeCores else u) :=
  writes_of_effect (fun _ _ => rfl) (engine_written_defined _ (by decide)) v.isLt (fun _ _ _ _ h => h.knlEffect_cfg _ _)
    (fun m s _ => congrArg Session.face (knlEffect_cfg_sess m s _ _)) fun _ => rfl

theorem mmuCtlPeakClr_writes : Writes .mmuCtlPeakClr (fun _ => R.MMU_CTL) (fun _ => 1) (fun s =>
    let t := (s.stored R.MMU_CTL 1).setFld R.MMU_STAGE_PEAK_PEAK (cdiv s.stageUsed 16)
    t.setMmu { t.mmu with engs := t.mmu.engs.map fun p => (p.1, { p.2 with peak := p.2.last }) }) :=
  writes_of_effect (fun _ _ => rfl) (engine_written_defined _ (by decide)) (by decide) (fun _ _ _ old h => h.mmuEffect _ old _)
    (fun m s old => congrArg Session.face (mmuEffect_sess m s _ old _)) fun _ => rfl

theorem frpCtlPeakClr_writes : Writes .frpCtlPeakClr (fun _ => R.FRP_CTL) (fun _ => 1) (fun s =>
    ((s.stored R.FRP_CTL 1).setFld R.FRP_RSV_PEAK s.rsvUsed).setFld R.FRP_LOG_PEAK (cdiv s.frp.logU 16)) :=
  writes_of_effect (fun _ _ => rfl) (engine_written_defined _ (by decide)) (by decide) (fun _ _ _ old h => h.frpEffect _ old _)
    (fun m s old => congrArg Session.face (frpEffect_sess m s _ old _)) fun _ => rfl

theorem balCtlPeakClr_writes : Writes .balCtlPeakClr (fun _ => R.BAL_CTL) (fun _ => 1) (fun s => (List.range 4).foldl (fun t e =>
    let x := (t.beng e).roll t.msNow
    t.setBeng e { x with peak := x.last }) (s.stored R.BAL_CTL 1)) :=
  writes_of_effect (fun _ _ => rfl) (engine_written_defined _ (by decide)) (by decide) (fun _ _ _ old h => h.balEffect _ old _)
    (fun m s old => congrArg Session.face (balEffect_sess m s _ old _)) fun _ => rfl

theorem glnCtlCut_writes : Writes .glnCtlCut (fun _ => R.GLN_CTL) (fun _ => 1) (fun s => (s.stored R.GLN_CTL 1).cutAll 3) :=
  writes_of_effect (fun _ _ => rfl) (engine_written_defined _ (by decide)) (by decide) (fun _ _ _ old h => h.glnEffect _ old _)
    (fun m s old => glnEffect_face m s _ old _) fun _ => rfl

theorem glnCfgEnWrite_writes (v : Word) : Writes (fun c => .glnCfgEnWrite c v) (fun _ => R.GLN_CFG) (fun _ => v.toNat)
    (fun s => s.stored R.GLN_CFG v.toNat) :=
  writes_of_effect (fun _ _ => rfl) (engine_written_defined _ (by decide)) v.isLt (fun _ _ _ old h => h.glnEffect _ old _)
    (fun m s old => glnEffect_face m s _ old _) fun _ => rfl

/-! PEAK_CLR of a chain engine and of an echo engine (R282, R308). -/

theorem effect_fce {a : Nat} (ha : a / 0x10000 = 7) (s : State) (old v : Nat) : s.effect a old v = fceEffect s a old v := by
  simp only [State.effect, ha]

theorem effect_ece {a : Nat} (ha : a / 0x10000 = 8) (s : State) (old v : Nat) : s.effect a old v = eceEffect s a old v := by
  simp only [State.effect, ha]

theorem fceCtlPeakClr_writes (e : Fin 16) : Writes (fun c => .fceCtlPeakClr e c) (fun _ => R.FCE_CTL e.val) (fun _ => 1) (fun s =>
    let t := s.stored (R.FCE_CTL e.val) 1
    t.setFld (R.FCE_LOAD_PEAK e.val) (t.fld (R.FCE_LOAD_LAST e.val))) := by
  have h7 : R.FCE_CTL e.val / 0x10000 = 7 := by simp only [R.FCE_CTL]; omega
  have he : (R.FCE_CTL e.val - 0x70000) / 0x1000 = e.val := by simp only [R.FCE_CTL]; omega
  refine writes_of_effect (fun _ _ => rfl) (fce_ctl_defined e.val e.isLt) (by decide) (fun m s t old h => ?_) (fun m s old => ?_) fun s => ?_
  · rw [effect_fce h7, effect_fce h7]
    exact h.fceEffect _ _ _ (by omega)
  · rw [effect_fce h7, fceEffect_sess]
  · simp only [effect_fce h7, fceEffect, he, show tb 1 0 = true from rfl, and_self, if_true]

theorem eceCtlPeakClr_writes (e : Fin 32) : Writes (fun c => .eceCtlPeakClr e c) (fun _ => R.ECE_CTL e.val) (fun _ => 1) (fun s =>
    let t := s.stored (R.ECE_CTL e.val) 1
    (t.setFld (R.ECE_LOAD_PEAK e.val) (t.fld (R.ECE_LOAD_LAST e.val))).setFld (R.ECE_QUEUE_PEAK e.val) (t.queued (32 + e.val))) := by
  have h8 : R.ECE_CTL e.val / 0x10000 = 8 := by simp only [R.ECE_CTL]; omega
  have he : (R.ECE_CTL e.val - 0x80000) / 0x800 = e.val := by simp only [R.ECE_CTL]; omega
  refine writes_of_effect (fun _ _ => rfl) (ece_ctl_defined e.val e.isLt) (by decide) (fun m s t old h => ?_) (fun m s old => ?_) fun s => ?_
  · rw [effect_ece h8, effect_ece h8]
    exact h.eceEffect _ _ _ (by omega)
  · rw [effect_ece h8, eceEffect_sess]
  · simp only [effect_ece h8, eceEffect, he, show tb 1 0 = true from rfl, and_self, if_true]

/-! Records that are popped (R426, R521, R595). -/

/-- What a pop shows of a record: how many are left, and over a session the record in its registers. -/
def State.recShown (s : State) (i2c : Bool) (pop : Nat) (reg : Nat → Nat) (left : Nat) (b : Bytes) : State :=
  let t := s.setReg pop (left * 2 + 1)
  if i2c then t else (List.range 8).foldl (fun u k => u.setReg (reg k) (num b (4 * k) 4)) t

theorem recShown_sess (s : State) (i2c : Bool) (pop : Nat) (reg : Nat → Nat) (left : Nat) (b : Bytes) (m : Nat) :
    (s.recShown i2c pop reg left b).sess m = s.sess m := by
  unfold State.recShown
  exact sess_ite m s rfl (foldl_sess m (fun u k => State.sess_setReg u (reg k) _ m) _ _)

theorem Aside.recShown {m : Nat} {s t : State} (h : Aside m s t) (i2c : Bool) (pop : Nat) (reg : Nat → Nat) (left : Nat) (b : Bytes) :
    Aside m (s.recShown i2c pop reg left b) (t.recShown i2c pop reg left b) :=
  aside_ite (h.setReg _ _) ((h.setReg _ _).foldl _ fun _ _ _ hu => hu.setReg _ _)

theorem frpPop_nil {s : State} (hr : s.frp.recs = []) (i2c : Bool) : s.frpPop i2c = s.setReg R.FRP_REC_POP 0 := by
  simp only [State.frpPop, hr]

theorem frpPop_cons {s : State} {b : Bytes} {r : List Bytes} (hr : s.frp.recs = b :: r) (i2c : Bool) : s.frpPop i2c =
    (s.setFrp { s.frp with recs := r, latI := if i2c then b else s.frp.latI }).recShown i2c R.FRP_REC_POP R.FRP_REC r.length b := by
  simp only [State.frpPop, hr]
  rfl

theorem glnPop_nil {s : State} (hr : s.gln.recs = []) (i2c : Bool) : s.glnPop i2c = s.setReg R.GLN_REC_POP 0 := by
  simp only [State.glnPop, hr]

theorem glnPop_cons {s : State} {b : Bytes} {r : List Bytes} (hr : s.gln.recs = b :: r) (i2c : Bool) : s.glnPop i2c =
    (s.setGln { s.gln with recs := r, latI := if i2c then b else s.gln.latI }).recShown i2c R.GLN_REC_POP R.GLN_REC r.length b := by
  simp only [State.glnPop, hr]
  rfl

section congr
variable {m : Nat} {s t : State} (h : Aside m s t)
include h

theorem Aside.frpPop (i2c : Bool) : Aside m (s.frpPop i2c) (t.frpPop i2c) := by
  have ht := h.frp_eq
  cases hr : s.frp.recs with
  | nil =>
    rw [frpPop_nil hr, frpPop_nil (ht ▸ hr)]
    exact h.setReg _ _
  | cons b r =>
    rw [frpPop_cons hr, frpPop_cons (ht ▸ hr), ht]
    exact (h.withFrp _).recShown _ _ _ _ _

theorem Aside.glnPop (i2c : Bool) : Aside m (s.glnPop i2c) (t.glnPop i2c) := by
  have ht := h.gln_eq
  cases hr : s.gln.recs with
  | nil =>
    rw [glnPop_nil hr, glnPop_nil (ht ▸ hr)]
    exact h.setReg _ _
  | cons b r =>
    rw [glnPop_cons hr, glnPop_cons (ht ▸ hr), ht]
    exact (h.setGln _).recShown _ _ _ _ _

end congr

theorem frpPop_sess (s : State) (i2c : Bool) (m : Nat) : (s.frpPop i2c).sess m = s.sess m := by
  cases hr : s.frp.recs with
  | nil => rw [frpPop_nil hr]; rfl
  | cons b r => rw [frpPop_cons hr, recShown_sess]; rfl

theorem glnPop_sess (s : State) (i2c : Bool) (m : Nat) : (s.glnPop i2c).sess m = s.sess m := by
  cases hr : s.gln.recs with
  | nil => rw [glnPop_nil hr]; rfl
  | cons b r => rw [glnPop_cons hr, recShown_sess]; rfl

/-- Over I2C a pop leaves the address pointer as it is. -/
theorem frpPop_i2cAddr (s : State) (x : Nat) : ({ s with i2cAddr := x } : State).frpPop true = { s.frpPop true with i2cAddr := x } := by
  cases hr : s.frp.recs with
  | nil => rw [frpPop_nil hr, frpPop_nil (s := { s with i2cAddr := x }) hr]; rfl
  | cons b r => rw [frpPop_cons hr, frpPop_cons (s := { s with i2cAddr := x }) hr]; rfl

theorem glnPop_i2cAddr (s : State) (x : Nat) : ({ s with i2cAddr := x } : State).glnPop true = { s.glnPop true with i2cAddr := x } := by
  cases hr : s.gln.recs with
  | nil => rw [glnPop_nil hr, glnPop_nil (s := { s with i2cAddr := x }) hr]; rfl
  | cons b r => rw [glnPop_cons hr, glnPop_cons (s := { s with i2cAddr := x }) hr]; rfl

theorem recPop_defined : ∀ a ∈ [R.FRP_REC_POP, R.GLN_REC_POP], (regAt a).isSome ∧ regReset a = 0 := by decide +kernel

/-- A register that its block's view leaves to what is stored reads so. -/
theorem readReg_unviewed {s : State} {i2c : Bool} {a : Nat} (hr : (regAt a).isSome) (h0 : regReset a = 0) (hv : s.view i2c a = none) :
    s.readReg i2c a = s.reg a := by
  obtain ⟨r, hr⟩ := Option.isSome_iff_exists.1 hr
  simp only [State.readReg, hr, hv, Option.getD_none]
  exact Nat.mod_eq_of_lt (reg_lt (by rw [h0]; decide))

theorem view_frpRecPop (s : State) (i2c : Bool) : s.view i2c R.FRP_REC_POP = none := by cases i2c <;> rfl
theorem view_glnRecPop (s : State) (i2c : Bool) : s.view i2c R.GLN_REC_POP = none := by cases i2c <;> rfl

theorem faultRecordPop_reads : Reads .faultRecordPop R.FRP_REC_POP (fun i2c s => s.frpPop i2c) (fun _ s => s.reg R.FRP_REC_POP) := by
  obtain ⟨hr, h0⟩ := recPop_defined R.FRP_REC_POP (by decide)
  exact reads_of_readAct (fun _ _ => rfl) (by decide) (by decide) (fun _ _ => rfl) (fun i2c s => readReg_unviewed hr h0 (view_frpRecPop _ i2c))
    (fun s x y => by rw [frpPop_i2cAddr]) (fun s x => by rw [frpPop_i2cAddr]; rfl) (fun _ _ _ h => h.frpPop _)
    (fun _ _ _ h => h.reg_eq (by decide)) fun m u => by rw [frpPop_sess]

theorem glnRecPopRead_reads : Reads .glnRecPopRead R.GLN_REC_POP (fun i2c s => s.glnPop i2c) (fun _ s => s.reg R.GLN_REC_POP) := by
  obtain ⟨hr, h0⟩ := recPop_defined R.GLN_REC_POP (by decide)
  exact reads_of_readAct (fun _ _ => rfl) (by decide) (by decide) (fun _ _ => rfl) (fun i2c s => readReg_unviewed hr h0 (view_glnRecPop _ i2c))
    (fun s x y => by rw [glnPop_i2cAddr]) (fun s x => by rw [glnPop_i2cAddr]; rfl) (fun _ _ _ h => h.glnPop _)
    (fun _ _ _ h => h.reg_eq (by decide)) fun m u => by rw [glnPop_sess]

end Sys2Proof.Machine

section
open Sys2Proof.Machine

/-- Settles O47: the registers that clear peaks, empty the histogram, change the kennel's policy, cut slices and enable the gleaner, and the two
reads that pop a record. -/
theorem peaksClearAndEnginesAreEnabled : Obligations.PeaksClearAndEnginesAreEnabled := by
  refine ⟨plyCtlPeakClr_writes, fceCtlPeakClr_writes, eceCtlPeakClr_writes, knlCtlPeakClr_writes, knlCtlHistClr_writes, knlHistSelWrite_writes,
    knlRefuseWrite_writes, mmuCtlPeakClr_writes, frpCtlPeakClr_writes, balCtlPeakClr_writes, glnCtlCut_writes, glnCfgEnWrite_writes,
    faultRecordPop_reads.congr fun i2c s => ?_, glnRecPopRead_reads.congr fun i2c s => ?_⟩
  · cases hr : s.frp.recs with
    | nil => exact (frpPop_nil hr i2c).symm
    | cons b r => exact (frpPop_cons hr i2c).symm
  · cases hr : s.gln.recs with
    | nil => exact (glnPop_nil hr i2c).symm
    | cons b r => exact (glnPop_cons hr i2c).symm

end

namespace Sys2Proof.Machine

open Sys2Proof

/-! What an operation on a chain arms (R259, R271, R272), and the coefficient sets (R256, R279). -/

theorem exec_coefSetLoad (q : Req) (s : State) : exec (.coefSetLoad q) s = .next (runOp opCoefSetLoad 0x0501 q s) := rfl
theorem exec_coefSetFree (q : Req) (s : State) : exec (.coefSetFree q) s = .next (runOp opCoefSetFree 0x0502 q s) := rfl
theorem exec_coefBank (q : Req) (s : State) : exec (.coefBank q) s = .next (runOp opCoefBank 0x0503 q s) := rfl
theorem exec_coefSwap (q : Req) (s : State) : exec (.coefSwap q) s = .next (runOp opCoefSwap 0x0504 q s) := rfl
theorem exec_coefSwapCancel (q : Req) (s : State) : exec (.coefSwapCancel q) s = .next (runOp opCoefSwapCancel 0x0505 q s) := rfl
theorem exec_coefPhase (q : Req) (s : State) : exec (.coefPhase q) s = .next (runOp opCoefPhase 0x0506 q s) := rfl
theorem exec_coefSyncReset (q : Req) (s : State) : exec (.coefSyncReset q) s = .next (runOp opCoefSyncReset 0x0507 q s) := rfl
theorem exec_coefSetInfo (q : Req) (s : State) : exec (.coefSetInfo q) s = .next (runOp opCoefSetInfo 0x0581 q s) := rfl
theorem exec_coefRomRead (q : Req) (s : State) : exec (.coefRomRead q) s = .next (runOp opCoefRomRead 0x0582 q s) := rfl
theorem exec_coefChainStatus (q : Req) (s : State) : exec (.coefChainStatus q) s = .next (runOp opCoefChainStatus 0x0583 q s) := rfl

/-- An operation on a chain whose effect is to arm it does so at the next boundary of the chain's leg. -/
theorem chainOp_arms {len op : Nat} {chk : State → Chain → Bytes → Chk} {mk : Req → Instr}
    (hx : ∀ q s, exec (mk q) s = .next (runOp (chainOp len chk armChain) op q s)) (ht : opTable op = some (chainOp len chk armChain)) :
    Does true (chainOp len chk armChain) op mk fun q s => armedWith op (legOf q.payload) none [] q s :=
  does_journaled hx (fun _ => rfl) ht fun _ _ _ _ => acts_armed fun _ _ _ => rfl

/-- A change of the list of coefficient sets alone. -/
theorem acts_withSets {d : OpDef} {op : Nat} {plan : List Nat} {q : Req} {s : State} {f : KV CoefSet → KV CoefSet}
    (happ : ∀ c v, d.app c plan v q.payload = Done.ok { v with sets := f v.sets }) : Acts d op plan q s { s with sets := f s.sets } St.ok 0 [] :=
  acts_of_aside (f := fun v => { v with sets := f v.sets }) (fun c v _ => happ c v) (fun v hv => by rw [hv.sets_eq]; exact hv.withSets _)
    fun _ => rfl

theorem coefSetLoad_does : Does true opCoefSetLoad 0x0501 .coefSetLoad
    (done fun q s => { s with sets := kset s.sets (num q.payload 0 2) (parseSet (q.payload.drop 8)) }) :=
  does_journaled exec_coefSetLoad (fun _ => rfl) rfl fun q _ _ _ =>
    acts_withSets (f := fun m => kset m (num q.payload 0 2) (parseSet (q.payload.drop 8))) fun _ _ => rfl

theorem coefSetFree_does : Does true opCoefSetFree 0x0502 .coefSetFree (done fun q s => { s with sets := kdel s.sets (num q.payload 0 2) }) :=
  does_journaled exec_coefSetFree (fun _ => rfl) rfl fun q _ _ _ => acts_withSets (f := fun m => kdel m (num q.payload 0 2)) fun _ _ => rfl

/-! What a reference names, and what is read of it (R278, R280). -/

section congr
variable {m : Nat} {s t : State} (h : Aside m s t)
include h

theorem Aside.set_eq (i : Nat) : t.set i = s.set i := by unfold State.set; rw [h.sets_eq]

theorem Aside.newChain_eq (p : Template) (i : Nat) (home : Nat × Nat) : t.newChain p i home = s.newChain p i home := by
  simp only [State.newChain, h.set_eq]

theorem Aside.chainAt_eq (b : Bytes) : t.chainAt b = s.chainAt b := by
  simp only [State.chainAt, h.leg_eq, h.legTmpl_eq, h.newChain_eq]

theorem Aside.swapLate_eq (c : Chain) (T : Option Inst) : t.swapLate c T = s.swapLate c T := by
  unfold State.swapLate; rw [h.now_eq]

end congr

/-- A read that takes nothing, and finds the same in every state that differs aside. -/
theorem acts_read {d : OpDef} {op : Nat} {plan : List Nat} {q : Req} {s : State} {r : Bytes}
    (happ : ∀ c v, Aside q.mbox.val s v → d.app c plan v q.payload = Done.res v r) : Acts d op plan q s s St.ok 0 r :=
  acts_of_aside (f := id) happ (fun _ hv => hv) fun _ => rfl

theorem coefSetInfo_does : Does false opCoefSetInfo 0x0581 .coefSetInfo (replied fun q s =>
    let c := s.set (num q.payload 0 2)
    be 2 c.gran ++ be 2 0 ++ c.bytes.take (8 + 8 * c.stages.length)) :=
  does_direct exec_coefSetInfo (fun _ => rfl) fun _ _ _ _ => acts_read fun _ _ hv => by
    simp only [opCoefSetInfo, replied, hv.set_eq]

theorem coefChainStatus_does (c : Chain) : DoesIf (fun q s => s.chainAt q.payload = some c) false opCoefChainStatus 0x0583 .coefChainStatus
    (replied fun _ s => s.chainRec c) :=
  doesIf_direct exec_coefChainStatus (fun _ _ _ _ _ => rfl) fun _ _ _ _ hc => acts_read fun _ _ hv => by
    simp only [opCoefChainStatus, replied, hv.chainAt_eq, hc, hv.chainRec_eq]

/-- A read that takes a free value, and finds the same in every state that differs aside. -/
theorem acts_drawn {d : OpDef} {op : Nat} {plan : List Nat} {q : Req} {s : State} {r : Bytes}
    (happ : ∀ c v, Aside q.mbox.val s v → d.app c plan v q.payload = Done.res v.drawn r) : Acts d op plan q s s.drawn St.ok 0 r :=
  acts_of_aside (f := State.drawn) happ (fun _ hv => hv.drawn) fun _ => rfl

theorem coefRomRead_response : DoesIf (fun q _ => u8 q.payload 0 < 64) false opCoefRomRead 0x0582 .coefRomRead (fun q s =>
    let i := u8 q.payload 0
    let (ty, m, n, g, c) := romEntry i
    (s.drawn, St.ok, be 1 (ty * 16 + m) ++ be 1 (128 + i) ++ be 2 (s.draw 5 * 2048 + n) ++ (if ty = 2 then be 2 g ++ be 2 c else zeros 4) ++
      (romCoefs i).flatMap fun x => be 4 (unsgn 32 x))) :=
  doesIf_direct exec_coefRomRead (fun _ _ _ _ _ => rfl) fun _ _ _ _ hi => acts_drawn fun _ _ hv => by
    simp only [opCoefRomRead, if_pos hi, hv.draw_eq]

theorem coefRomRead_phase : DoesIf (fun q _ => 64 ≤ u8 q.payload 0) false opCoefRomRead 0x0582 .coefRomRead (fun q s =>
    (s.drawn, St.ok, s.drawBytes 8 ++ (phaseCoefs (u8 q.payload 0 - 64)).flatMap fun x => be 4 (unsgn 32 x))) :=
  doesIf_direct exec_coefRomRead (fun _ _ _ _ _ => rfl) fun _ _ _ _ hi => acts_drawn fun _ _ hv => by
    simp only [opCoefRomRead, if_neg (Nat.not_lt.2 hi), hv.drawBytes_eq]

/-! The bytes of a chain's status (R280): 44 of the chain, and then 9 words. -/

theorem timeBytes_length (t : Inst) : (timeBytes t).length = 12 := by
  simp only [timeBytes, List.length_append, be_length]

theorem zeros_length (n : Nat) : (zeros n).length = n := List.length_replicate

theorem flatMap_be_length (n : Nat) (vs : List Nat) : (vs.flatMap (be n)).length = n * vs.length := by
  induction vs with
  | nil => rfl
  | cons v vs ih => rw [List.flatMap_cons, List.length_append, be_length, ih, List.length_cons, Nat.mul_succ, Nat.add_comm]

/-- Of numbers written one after the other behind `k` bytes, the one at place `i` is read back. -/
theorem num_append_flatMap_be {l : Bytes} {k n i : Nat} {vs : List Nat} (hk : l.length = k) (hi : i < vs.length) :
    num (l ++ vs.flatMap (be n)) (k + n * i) n = vs[i] % 256 ^ n := by
  induction vs generalizing l k i with
  | nil => cases hi
  | cons v vs ih =>
    rw [List.flatMap_cons]
    cases i with
    | zero => exact num_append_be hk
    | succ i =>
      have hl : (l ++ be n v).length = k + n := by rw [List.length_append, hk, be_length]
      rw [← List.append_assoc, Nat.mul_succ, Nat.add_comm (n * i), ← Nat.add_assoc]
      exact ih hl (Nat.lt_of_succ_lt_succ hi)

/-- The last 9 words of a chain's status: the clamps of its stages, 0 for one that it does not have, and those after the last stage. -/
def Chain.satWords (c : Chain) : List Nat := (List.range 9).map fun i => if i < c.layout.length ∨ i = 8 then c.sats.getD i 0 else 0

theorem satWords_length (c : Chain) : c.satWords.length = 9 := by rw [Chain.satWords, List.length_map, List.length_range]

theorem satWords_beyond {c : Chain} {i : Nat} (hl : c.layout.length ≤ i) (hi : i < 8) :
    c.satWords[i]'(by rw [satWords_length]; omega) = 0 := by
  have hno : ¬ (i < c.layout.length ∨ i = 8) := by omega
  simp only [Chain.satWords, List.getElem_map, List.getElem_range, if_neg hno]

/-- The instant of a pending swap takes 12 bytes, that of one without an instant too. -/
theorem swapTime_length (T : Option Inst) : ((T.map timeBytes).getD (List.replicate 12 0xFF#8)).length = 12 := by
  cases T with
  | none => exact List.length_replicate
  | some t => exact timeBytes_length t

theorem chainRec_split (s : State) (c : Chain) : ∃ l : Bytes, l.length = 44 ∧ s.chainRec c = l ++ c.satWords.flatMap (be 4) := by
  refine ⟨_, ?_, by rw [Chain.satWords, List.flatMap_map]; rfl⟩
  simp only [List.length_append, be_length]
  split
  · rw [List.length_append, be_length, swapTime_length]
  · rw [zeros_length]

theorem chainRec_bytes (s : State) (c : Chain) :
    (s.chainRec c).length = 80 ∧ ∀ i, c.layout.length ≤ i → i < 8 → num (s.chainRec c) (44 + 4 * i) 4 = 0 := by
  obtain ⟨l, hl, hr⟩ := chainRec_split s c
  have hn := satWords_length c
  rw [hr]
  refine ⟨by rw [List.length_append, hl, flatMap_be_length, hn], fun i hle hlt => ?_⟩
  rw [num_append_flatMap_be hl (by omega), satWords_beyond hle hlt, Nat.zero_mod]

end Sys2Proof.Machine

section
open Sys2Proof.Machine

/-- Settles O41: the commands of sets and chains one by one, and the 80 bytes of a chain's status. -/
theorem coefficientSetsAndChains : Obligations.CoefficientSetsAndChains :=
  ⟨coefSetLoad_does, coefSetFree_does, chainOp_arms exec_coefBank rfl, chainOp_arms exec_coefPhase rfl, chainOp_arms exec_coefSyncReset rfl,
    coefSetInfo_does, coefChainStatus_does, chainRec_bytes, coefRomRead_response, coefRomRead_phase⟩

end

namespace Sys2Proof.Machine

open Sys2Proof

/-! A swap on its chain and in the swath log (R247, R261, R409). -/

section congr
variable {m : Nat} {s t : State} (h : Aside m s t)
include h

theorem Aside.updChain (l i : Nat) (f : Chain → Chain) : Aside m (s.updChain l i f) (t.updChain l i f) := by
  simp only [State.updChain, h.leg_eq]
  have hl := h.setLeg l
  rw [(hl _).knl_eq]
  exact (hl _).setKnl _

theorem Aside.logSwap (l : Nat) : Aside m (s.logSwap l) (t.logSwap l) := by
  simp only [State.logSwap, h.knl_eq, h.frp_eq]
  split
  · exact h
  · split
    · have hp := (h.withFrp { s.frp with logU := s.frp.logU + 1 }).peakTo (f := R.FRP_LOG_PEAK) (by decide) (cdiv (s.frp.logU + 1) 16)
      rwa [h.knl_eq] at hp
    · exact ((h.setKnl _).bump (by decide)).raise (by decide) (by decide) _

end congr

theorem updChain_face (s : State) (l i : Nat) (f : Chain → Chain) (m : Nat) : ((s.updChain l i f).sess m).face = (s.sess m).face := rfl

theorem logSwap_face (s : State) (l m : Nat) : ((s.logSwap l).sess m).face = (s.sess m).face := by
  simp only [State.logSwap]
  split
  · rfl
  · split
    · simp only [State.peakTo]
      split <;> rfl
    · exact raise_face _ _ _ _

theorem coefSwap_does : Does true opCoefSwap 0x0504 .coefSwap (fun q s =>
    let t := tOf (sub q.payload 4 12)
    ((s.updChain (num q.payload 0 4 % 2 ^ 17) (u8 q.payload 0) fun c =>
      { c with swap := some ⟨t, num q.payload 16 2, s.loc, false, false⟩ }).logSwap (num q.payload 0 4 % 2 ^ 17),
      if (s.chainAt q.payload).any (fun c => s.swapLate c t) then St.late else St.ok, [])) := by
  refine does_journaled exec_coefSwap (fun _ => rfl) rfl fun q s plan _ v c hv _ _ _ _ _ => ?_
  refine ⟨_, ?_, (hv.updChain _ _ _).logSwap _, (logSwap_face _ _ _).trans (updChain_face _ _ _ _ _)⟩
  simp only [opCoefSwap, chainOp, chainRef, hv.chainAt_eq, hv.swapLate_eq, hv.loc_eq]
  rfl

theorem coefSwapCancel_does : Does true opCoefSwapCancel 0x0505 .coefSwapCancel (done fun q s =>
    s.updChain (num q.payload 0 4 % 2 ^ 17) (u8 q.payload 0) fun c => { c with swap := none }) :=
  does_journaled exec_coefSwapCancel (fun _ => rfl) rfl fun q _ _ _ =>
    acts_of_aside (f := fun v => v.updChain (legOf q.payload) (u8 q.payload 0) fun c => { c with swap := none }) (fun _ _ _ => rfl)
      (fun _ hv => hv.updChain _ _ _) fun _ => updChain_face _ _ _ _ _

end Sys2Proof.Machine

section
open Sys2Proof.Machine

/-- Settles O42: a swap is armed and logged, late or not, and a cancel takes it back. -/
theorem swapsAreArmedOnTheChain : Obligations.SwapsAreArmedOnTheChain := ⟨coefSwap_does, coefSwapCancel_does⟩

end

namespace Sys2Proof.Machine

open Sys2Proof

/-! Changes of a leg's configuration: at once while it is OFF, else armed (R336). -/

theorem exec_chanEgress (q : Req) (s : State) : exec (.chanEgress q) s = .next (runOp opChanEgress 0x0306 q s) := rfl
theorem exec_chanPlayout (q : Req) (s : State) : exec (.chanPlayout q) s = .next (runOp opChanPlayout 0x0308 q s) := rfl
theorem exec_chanEchoReset (q : Req) (s : State) : exec (.chanEchoReset q) s = .next (runOp opChanEchoReset 0x030A q s) := rfl
theorem exec_chanBridge (q : Req) (s : State) : exec (.chanBridge q) s = .next (runOp opChanBridge 0x030B q s) := rfl
theorem exec_chanGain (q : Req) (s : State) : exec (.chanGain q) s = .next (runOp opChanGain 0x030C q s) := rfl
theorem exec_chanGroup (q : Req) (s : State) : exec (.chanGroup q) s = .next (runOp opChanGroup 0x030D q s) := rfl
theorem exec_chanToneCfg (q : Req) (s : State) : exec (.chanToneCfg q) s = .next (runOp opChanToneCfg 0x030E q s) := rfl
theorem exec_chanCodec (q : Req) (s : State) : exec (.chanCodec q) s = .next (runOp opChanCodec 0x0311 q s) := rfl

/-- A configuring operation makes the change that its opcode has in `cfgApply`, at the boundary that its payload names, if it names one. -/
theorem cfgOp_configures {len op : Nat} {tOff : Option Nat} {chk : State → Leg → Bytes → Chk} {mk : Req → Instr}
    {f : Req → State → LegCfg → LegCfg} (hx : ∀ q s, exec (mk q) s = .next (runOp (cfgOp len tOff chk) op q s))
    (ht : opTable op = some (cfgOp len tOff chk))
    (hf : ∀ (q : Req) (s : State) x, cfgApply op q.payload (some (q.mbox.val, (s.sess q.mbox.val).gen)) x = f q s x) :
    Does true (cfgOp len tOff chk) op mk fun q s => configured op (fun b => tOff.bind fun o => tOf (sub b o 12)) (f q s) q s :=
  does_journaled hx (fun _ => rfl) ht fun q s _ _ =>
    configured_acts (T := fun b => tOff.bind fun o => tOf (sub b o 12)) (fun _ _ _ _ => by cases tOff <;> rfl) hf q s

end Sys2Proof.Machine

section
open Sys2Proof.Machine

/-- Settles O34: each command is a configuring operation, whose effect on the configuration is the row of its opcode in `cfgApply`. -/
theorem configurationOfALeg : Obligations.ConfigurationOfALeg :=
  ⟨cfgOp_configures exec_chanEgress rfl fun _ _ _ => rfl, cfgOp_configures exec_chanPlayout rfl fun _ _ _ => rfl,
    cfgOp_configures exec_chanEchoReset rfl fun _ _ _ => rfl, cfgOp_configures exec_chanBridge rfl fun _ _ _ => rfl,
    cfgOp_configures exec_chanGain rfl fun _ _ _ => rfl, cfgOp_configures exec_chanGroup rfl fun _ _ _ => rfl,
    cfgOp_configures exec_chanToneCfg rfl fun _ _ _ => rfl, cfgOp_configures exec_chanCodec rfl fun _ _ _ => rfl⟩

end

namespace Sys2Proof.Machine

open Sys2Proof

/-! Templates and call-progress profiles (R310, R315, R322, R337). -/

theorem exec_graphDefine (q : Req) (s : State) : exec (.graphDefine q) s = .next (runOp opGraphDefine 0x0401 q s) := rfl
theorem exec_graphDelete (q : Req) (s : State) : exec (.graphDelete q) s = .next (runOp opGraphDelete 0x0402 q s) := rfl
theorem exec_graphCptDefine (q : Req) (s : State) : exec (.graphCptDefine q) s = .next (runOp opGraphCptDefine 0x0403 q s) := rfl
theorem exec_graphInfo (q : Req) (s : State) : exec (.graphInfo q) s = .next (runOp opGraphInfo 0x0481 q s) := rfl

/-- The costs of a template are those of its nodes and of the coefficient sets they name, which no other template changes. -/
theorem Aside.graphRes_eq {m : Nat} {s t : State} (h : Aside m s t) (p : Template) : t.graphRes p = s.graphRes p := by
  unfold State.graphRes; rw [h.sets_eq]

/-- A change of the list of templates alone. -/
theorem acts_withTmpls {d : OpDef} {op : Nat} {plan : List Nat} {q : Req} {s : State} {f : KV Template → KV Template} {r : Bytes}
    (happ : ∀ c v, Aside q.mbox.val s v → d.app c plan v q.payload = ⟨{ v with tmpls := f v.tmpls }, St.ok, 0, r, false⟩) :
    Acts d op plan q s { s with tmpls := f s.tmpls } St.ok 0 r :=
  acts_of_aside (f := fun v => { v with tmpls := f v.tmpls }) happ (fun v hv => by rw [hv.tmpls_eq]; exact hv.withTmpls _) fun _ => rfl

theorem graphDefine_does : Does true opGraphDefine 0x0401 .graphDefine (fun q s =>
    let t := parseTemplate (q.payload.drop 4)
    ({ s with tmpls := kset s.tmpls (num q.payload 0 2) t }, St.ok, s.graphRes t)) :=
  does_journaled exec_graphDefine (fun _ => rfl) rfl fun q _ _ _ =>
    acts_withTmpls (f := fun l => kset l (num q.payload 0 2) (parseTemplate (q.payload.drop 4))) fun _ _ hv =>
      congrArg (Done.res _) (hv.graphRes_eq _)

theorem graphDelete_does : Does true opGraphDelete 0x0402 .graphDelete
    (done fun q s => { s with tmpls := kdel s.tmpls (num q.payload 0 2) }) :=
  does_journaled exec_graphDelete (fun _ => rfl) rfl fun q _ _ _ =>
    acts_withTmpls (f := fun l => kdel l (num q.payload 0 2)) fun _ _ _ => rfl

/-- A profile belongs to no leg; its change is armed as one of leg 0. -/
theorem graphCptDefine_arms : Does true opGraphCptDefine 0x0403 .graphCptDefine (fun q s => armedWith 0x0403 0 none [] q s) :=
  does_journaled exec_graphCptDefine (fun _ => rfl) rfl fun _ _ _ _ _ _ hv hf hm _ ho _ => armed_acts rfl hv hf ho hm

theorem graphInfo_does : Does false opGraphInfo 0x0481 .graphInfo (replied fun q s =>
    let t := s.tmpl (num q.payload 0 2)
    s.graphRes t ++ t.bytes) :=
  does_direct exec_graphInfo (fun _ => rfl) fun _ _ _ _ => acts_read fun _ _ hv => by
    simp only [opGraphInfo, replied, hv.tmpl_eq, hv.graphRes_eq]

end Sys2Proof.Machine

section
open Sys2Proof.Machine

/-- Settles O40: the two changes of the list of templates, the profile that is armed, and the read of a template. -/
theorem templatesAreDefinedAndReturned : Obligations.TemplatesAreDefinedAndReturned :=
  ⟨graphDefine_does, graphDelete_does, graphCptDefine_arms, graphInfo_does⟩

end

namespace Sys2Proof.Machine

open Sys2Proof

/-! Stage-ins that end (R364, R389, R396, R413). -/

section stage
variable {l : Fin 131072} {s : State} {a : Area}

theorem exec_stageInDone_none (h : s.mmu.areas.find? (fun a => a.leg == l.val && a.st == 1) = none) : exec (.stageInDone l) s = .next s := by
  show execStageInDone l s = _
  rw [execStageInDone, h]

/-- The stage-in of a leg that ends next on its engine waits for the engine's restages (R413). -/
theorem exec_stageInDone_front (h : s.mmu.areas.find? (fun a => a.leg == l.val && a.st == 1) = some a) (hf : s.frontArea a.eng 1 4 = some a) :
    exec (.stageInDone l) s = .next (if s.restages a.eng = [] then (s.stageEnds a).frameStaged l.val a.b else s) := by
  show execStageInDone l s = _
  simp only [execStageInDone, h, hf, ne_eq, not_true_eq_false, false_or, List.isEmpty_eq_false_iff, ite_not]

end stage

section staged
variable {s : State} {l i : Nat} {b : Inst} {k : Task}

theorem frameStaged_none (h : s.legTask l = none) : s.frameStaged l b = s := by rw [State.frameStaged, h]

theorem frameStaged_waiting (h : s.legTask l = some (i, k)) (hk : k.kind = 0 ∧ k.b = b ∧ k.st = .waiting ∧ k.staged = false) :
    s.frameStaged l b = if k.parcel = true ∧ s.phase = .gather then s.setTask i { k with staged := true }
      else (s.setTask i { k with staged := true }).makeReady i := by
  simp only [State.frameStaged, h, if_pos hk]

theorem frameStaged_other (h : s.legTask l = some (i, k)) (hk : k.kind ≠ 0 ∨ k.b ≠ b ∨ k.st ≠ .waiting ∨ k.staged = true) :
    s.frameStaged l b = s := by
  have hn : ¬ (k.kind = 0 ∧ k.b = b ∧ k.st = .waiting ∧ k.staged = false) := by
    rintro ⟨h0, hb, hw, hs⟩
    simp [h0, hb, hw, hs] at hk
  simp only [State.frameStaged, h, if_neg hn]

end staged

/-! What firmware and background work create (R361, R362). -/

theorem Only.knl_eq {L : List Nat} {s t : State} (h : Only L s t) : t.knl = s.knl := (congrArg State.knl h.rest : t.bare.knl = s.bare.knl)

section made
variable {s : State} {m : SysMake}

theorem makeSys_room (h : s.poolUsed 1 < 4096) : s.makeSys m = s.sysNew m := if_pos h

theorem makeSys_refused (h : 4096 ≤ s.poolUsed 1) (hr : s.flag R.KNL_CFG_REFUSE = true) :
    s.makeSys m = if m.background then (s.bump R.KNL_REFUSE_CNT).raise R.KNL_EVT 2
      else ((s.bump R.KNL_REFUSE_CNT).raise R.KNL_EVT 2).setKnl
        { ((s.bump R.KNL_REFUSE_CNT).raise R.KNL_EVT 2).knl with sysSt := s.knl.sysSt ++ [St.busy] } := by
  have hk : ((s.bump R.KNL_REFUSE_CNT).raise R.KNL_EVT 2).knl = s.knl :=
    ((only_bump (L := [R.KNL_REFUSE_CNT, R.KNL_EVT]) (by simp)).trans (only_raise (by simp))).knl_eq
  simp only [State.makeSys, if_neg (Nat.not_lt.2 h), if_pos hr, hk]

theorem makeSys_held (h : 4096 ≤ s.poolUsed 1) (hr : s.flag R.KNL_CFG_REFUSE = false) :
    s.makeSys m = s.setKnl { s.knl with sysHeld := s.knl.sysHeld ++ [m] } := by
  simp only [State.makeSys, if_neg (Nat.not_lt.2 h), hr, Bool.false_eq_true, if_false]

theorem sysFreed_one (h : s.knl.sysHeld = [m]) (hp : s.poolUsed 1 < 4096) :
    s.sysFreed = (s.setKnl { s.knl with sysHeld := [] }).sysNew m := by
  obtain ⟨n, hn⟩ := Nat.exists_eq_succ_of_ne_zero (Nat.sub_ne_zero_of_lt hp)
  simp only [State.sysFreed, h, hn, List.take_succ_cons, List.take_nil, List.drop_succ_cons, List.drop_nil, List.foldl_cons, List.foldl_nil]

theorem sysFreed_full (h : 4096 ≤ s.poolUsed 1) : s.sysFreed = s := by
  rw [State.sysFreed, Nat.sub_eq_zero_of_le h]
  rfl

end made

/-! A core's task ends (R342, R346, R354). -/

theorem exec_taskDone (c : Fin 128) (made : List SysMake) (s : State) :
    exec (.taskDone c made) s = .next ((made.foldl (fun t m => t.makeSys m) s).taskEnd c.val).sysFreed := rfl

section ends
variable {s : State} {c i l : Nat} {t : Task} {w : Work}

theorem taskEnd_idle (h : (s.callsEnd c).running c = none) : s.taskEnd c = s := by
  simp only [State.taskEnd, h]

section media
variable (h : (s.callsEnd c).running c = some (i, t)) (hl : t.leg = some l) (hk : t.kind ≤ 1) (hw : t.work = some w)
include h hl hk hw

theorem taskEnd_done (he : (s.callsEnd c).engineNode l t w = none) (hd : (s.callsEnd c).pastDeadline = false) :
    s.taskEnd c = ((s.callsEnd c).mediaDone i t l c ((s.callsEnd c).runNodes l t 25 w)).coreTake c := by
  simp only [State.taskEnd, h, hl, if_pos hk, hw, he, hd, Option.isSome_none, Bool.false_eq_true, or_self, if_false]

theorem taskEnd_waits (he : ((s.callsEnd c).engineNode l t w).isSome = true ∨ (s.callsEnd c).pastDeadline = true) : s.taskEnd c = s := by
  simp only [State.taskEnd, h, hl, if_pos hk, hw, if_pos he]

end media

theorem taskEnd_ofLeg (h : (s.callsEnd c).running c = some (i, t)) (hl : t.leg.isSome = true) (hk : 1 < t.kind) :
    s.taskEnd c = ((s.giveFrame i).freeTask i).coreTake c := by
  obtain ⟨l, hl⟩ := Option.isSome_iff_exists.1 hl
  simp only [State.taskEnd, h, hl, if_neg (Nat.not_le.2 hk)]

theorem taskEnd_noLeg (h : (s.callsEnd c).running c = some (i, t)) (hl : t.leg = none) :
    s.taskEnd c = ((((if t.kind = 2 then s.unpack t.data else s).giveFrame i).freeTask i).bpRelease).coreTake c := by
  simp only [State.taskEnd, h, hl]

end ends

/-! Calls end as the core goes on (log entry 80). -/

section calls
variable {s : State} {c i : Nat} {t : Task} {x : EngCall} {k : CallAt}

theorem callsEnd_running (h : s.running c = some (i, t)) : s.callsEnd c = s.callEnd i := by rw [State.callsEnd, h]

theorem callEnd_none (h : s.engQ.find? (fun q => q.task == i) = none) : s.callEnd i = s := by rw [State.callEnd, h]

/-- The call of a task that no other task's call precedes at its engine ends alone. -/
theorem callEnd_alone (h : s.engQ.find? (fun q => q.task == i) = some x) (ho : ∀ q ∈ s.engQ, q.eng = x.eng → q.task = i) :
    s.callEnd i = s.callRun x := by
  have hbefore : (s.engQ.filter fun q => q.eng == x.eng).takeWhile (fun q => q.task != i) = [] := by
    rw [List.takeWhile_eq_nil_iff]
    intro hpos
    obtain ⟨hmem, heng⟩ := List.mem_filter.1 (List.getElem_mem hpos)
    simp [ho _ hmem (by simpa using heng)]
  simp only [State.callEnd, h, hbefore, List.nil_append, List.foldl_cons, List.foldl_nil]

theorem callRun_of (hk : (s.dropCall x.task).callOf x.task = some k) :
    s.callRun x = if x.eng < 32 then (s.dropCall x.task).fceRun k x.eng x.disp else (s.dropCall x.task).eceRun k (x.eng - 32) := by
  simp only [State.callRun, hk]

end calls

/-! Calls at the engines that R246 and R303 choose. -/

section cut
variable {s : State} {cls e : Nat} {r : Slice}

theorem cutFor_free : s.cutFor cls e false = s := if_neg Bool.false_ne_true

theorem cutFor_slice (h : s.sliceOn cls e = some r) : s.cutFor cls e true = s.cutSlice r 1 := by
  simp only [State.cutFor, if_true, h]

end cut

/-- The state once a canceller call has gone to echo engine `e`, for a core at another stop or at its own (R303, R308). -/
def State.echoCallTo (s : State) (e core : Nat) (k : CallAt) : State :=
  let u := (s.callTo (32 + e) k none).bumpBy (R.ECE_REMOTE_CNT e) (b2n (e / 4 != core / 16))
  u.setFld (R.ECE_QUEUE_PEAK e) (max (u.queued (32 + e)) (u.fld (R.ECE_QUEUE_PEAK e)))

section call
variable {s : State} {c : Fin 128} {e : Fin 32} {k : CallAt} {cut : Bool}

theorem exec_fceCall_none (h : (s.callsEnd c.val).callAt c.val = none) : exec (.fceCall c e) s = .next s := by
  show execFceCall c e s = _
  simp only [execFceCall, h]

theorem exec_eceCall_none (h : (s.callsEnd c.val).callAt c.val = none) : exec (.eceCall c e) s = .next s := by
  show execEceCall c e s = _
  simp only [execEceCall, h]

variable (h : (s.callsEnd c.val).callAt c.val = some k)
include h

theorem exec_fceCall_chosen (hty : k.node.ty = 3)
    (hx : (s.callsEnd c.val).fceFor c.val ((s.callsEnd c.val).workChain k).eng k.t.notEng = some (e.val, cut)) :
    exec (.fceCall c e) s =
      .next (((s.callsEnd c.val).cutFor 1 e.val cut).callTo e.val k ((s.callsEnd c.val).workChain k).swap) := by
  show execFceCall c e s = _
  simp only [execFceCall, h, hx, hty, and_self, if_true]

theorem exec_fceCall_elsewhere
    (hx : ∀ cut, (s.callsEnd c.val).fceFor c.val ((s.callsEnd c.val).workChain k).eng k.t.notEng ≠ some (e.val, cut)) :
    exec (.fceCall c e) s = .next s := by
  show execFceCall c e s = _
  simp only [execFceCall, h]
  split
  · next y cut hy =>
    have hne : y ≠ e.val := by rintro rfl; exact hx cut hy
    rw [if_neg fun g => hne g.2]
  · rfl

/-- A node that no filter chain engine runs calls none. -/
theorem exec_fceCall_other (hty : k.node.ty ≠ 3) : exec (.fceCall c e) s = .next s := by
  show execFceCall c e s = _
  simp only [execFceCall, h, hty, false_and, if_false]
  split <;> rfl

theorem exec_eceCall_chosen (hty : k.node.ty = 4) (hx : (s.callsEnd c.val).eceFor c.val k.t.notEng = some (e.val, cut)) :
    exec (.eceCall c e) s = .next (((s.callsEnd c.val).cutFor 2 e.val cut).echoCallTo e.val c.val k) := by
  show execEceCall c e s = _
  simp only [execEceCall, h, hx, hty, and_self, if_true]
  rfl

theorem exec_eceCall_unserved (hx : (s.callsEnd c.val).eceFor c.val k.t.notEng = none) : exec (.eceCall c e) s = .next s := by
  show execEceCall c e s = _
  simp only [execEceCall, h, hx]

/-- A node that no echo engine runs calls none. -/
theorem exec_eceCall_other (hty : k.node.ty ≠ 4) : exec (.eceCall c e) s = .next s := by
  show execEceCall c e s = _
  simp only [execEceCall, h, hty, false_and, if_false]
  split <;> rfl

end call

/-! A read of a page that moves (R373, R391, R394). -/

section transit
variable {s : State} {c : Fin 128} {va : BitVec 48} {i : Nat} {t : Task}

theorem exec_coreTransitAccess_none (h : s.running c.val = none) : exec (.coreTransitAccess c va) s = .next s := by
  show execCoreTransitAccess c va s = _
  simp only [execCoreTransitAccess, h]

theorem exec_coreTransitAccess_meets (h : s.running c.val = some (i, t)) (hva : 0x80000 ≤ va.toNat)
    (hm : s.coreMeets c.val t.context va.toNat 0 = Cause.transit) :
    exec (.coreTransitAccess c va) s = .next (s.coreAccess c.val i t va.toNat 0) := by
  show execCoreTransitAccess c va s = _
  have hw : inWindow va.toNat = false := decide_eq_false (Nat.not_lt.2 hva)
  simp only [execCoreTransitAccess, h, hw, hm, and_self, if_true]

theorem exec_coreTransitAccess_passes (h : s.running c.val = some (i, t))
    (hn : va.toNat < 0x80000 ∨ s.coreMeets c.val t.context va.toNat 0 ≠ Cause.transit) : exec (.coreTransitAccess c va) s = .next s := by
  show execCoreTransitAccess c va s = _
  have hnot : ¬ (inWindow va.toNat = false ∧ s.coreMeets c.val t.context va.toNat 0 = Cause.transit) := by
    rintro ⟨hw, hm⟩
    exact hn.elim (of_decide_eq_false hw) fun g => g hm
  simp only [execCoreTransitAccess, h, if_neg hnot]

/-- An access that meets a page in TRANSIT switches its task out until the move of that page ends (R391). -/
theorem coreAccess_transit {c va acc : Nat} {x : Xlate} (hm : (s.coreLookup c t.context va).coreMeets c t.context va acc = Cause.transit)
    (hw : (s.coreLookup c t.context va).walk t.context va = some x) :
    s.coreAccess c i t va acc = ((s.coreLookup c t.context va).bump R.MMU_TRANSIT_CNT).blockRun c 1
      (waitPage t.context (va / pageBytes x.entry * pageBytes x.entry)) := by
  simp only [State.coreAccess, hm, hw]

end transit

/-! The enables of the engines, and their starts and stops, filter chain engines and echo engines alike (R18, R599; log entry 70). -/

/-- A write of `en` to an engine's field EN: one that changes EN asks for the enable or the disable, unless it is refused. -/
def State.engEnWrite (s : State) (x : Engine) (f : Fld) (en : Bool) : State :=
  if en = s.flag f ∨ (s.engFn x).refuses en then s else (s.setFld f (b2n en)).setEngFn x ((s.engFn x).request en)

theorem exec_fceCfgEnWrite (e : Fin 16) (v : Word) (s : State) :
    exec (.fceCfgEnWrite e v) s = .next (s.engEnWrite (fceEngine e.val) (R.FCE_CFG_EN e.val) (v.getLsbD 0)) := rfl

theorem exec_eceCfgEnWrite (e : Fin 32) (v : Word) (s : State) :
    exec (.eceCfgEnWrite e v) s = .next (s.engEnWrite (eceEngine e.val) (R.ECE_CFG_EN e.val) (v.getLsbD 0)) := rfl

section engine
variable {s : State} {x : Engine} {f : Fld} {en : Bool} {st : FnState}

theorem engEnWrite_same (h : en = s.flag f ∨ (en = true ∧ s.engSt x = .failed)) : s.engEnWrite x f en = s :=
  if_pos (h.imp_right fun ⟨he, hf⟩ => by simp [Fn.refuses, State.engFn, he, hf])

theorem engEnWrite_request {g : Fn} (hf : s.flag f = !en) (hst : s.engSt x = st) (hr : en = true → st ≠ .failed)
    (hg : Fn.request ⟨st, s.flag ⟨x.stat, 4, 4⟩, s.engDis.contains x.unit⟩ en = g) :
    s.engEnWrite x f en = (s.setFld f (b2n en)).setEngFn x g := by
  subst hst hg
  refine if_neg (not_or.2 ⟨by simp [hf], fun hno => ?_⟩)
  obtain ⟨he, hfail⟩ := Bool.and_eq_true_iff.1 hno
  exact hr he (of_decide_eq_true hfail)

/-- What a write to EN does, by the state of the engine. -/
theorem engEnWrite_rows {o : Host.Outcome State Fault Refusal} (ho : o = .next (s.engEnWrite x f en)) :
    let y := s.setFld f (b2n en)
    let pend := s.flag ⟨x.stat, 4, 4⟩
    let dis := s.engDis.contains x.unit
    (en = s.flag f ∨ (en = true ∧ s.engSt x = .failed) → o = .next s) ∧
    (s.flag f = false → en = true →
      (s.engSt x = .off → o = .next (y.setEngFn x ⟨.starting, false, false⟩)) ∧
      (s.engSt x = .starting → o = .next (y.setEngFn x ⟨.starting, pend, dis⟩)) ∧
      (s.engSt x = .stopping → o = .next (y.setEngFn x ⟨.stopping, true, dis⟩))) ∧
    (s.flag f = true → en = false →
      (s.engSt x = .on → o = .next (y.setEngFn x ⟨.stopping, false, false⟩)) ∧
      (s.engSt x = .starting → o = .next (y.setEngFn x ⟨.starting, pend, true⟩)) ∧
      (s.engSt x = .stopping → o = .next (y.setEngFn x ⟨.stopping, false, dis⟩)) ∧
      (s.engSt x = .failed → o = .next (y.setEngFn x ⟨.stopping, pend, false⟩))) := by
  subst ho
  refine ⟨fun h => congrArg _ (engEnWrite_same h), ?_, ?_⟩
  · rintro hf rfl
    exact ⟨fun h => congrArg _ (engEnWrite_request hf h (by simp) rfl), fun h => congrArg _ (engEnWrite_request hf h (by simp) rfl),
      fun h => congrArg _ (engEnWrite_request hf h (by simp) rfl)⟩
  · rintro hf rfl
    exact ⟨fun h => congrArg _ (engEnWrite_request hf h nofun rfl), fun h => congrArg _ (engEnWrite_request hf h nofun rfl),
      fun h => congrArg _ (engEnWrite_request hf h nofun rfl), fun h => congrArg _ (engEnWrite_request hf h nofun rfl)⟩

theorem contains_holdDis (s : State) (u : Nat) (on : Bool) : (s.holdDis u on).engDis.contains u = on := by
  unfold State.holdDis
  cases on
  · simp
  · simp only [if_true]
    split
    · assumption
    · exact List.elem_cons_self

theorem flag_setEngFn (s : State) (x : Engine) (f : Fn) : (s.setEngFn x f).flag ⟨x.stat, 4, 4⟩ = f.pend := by
  have h : (s.setEngFn x f).fld ⟨x.stat, 4, 4⟩ = ((s.setFld ⟨x.stat, 2, 0⟩ f.st.code).setFld ⟨x.stat, 4, 4⟩ (b2n f.pend)).fld ⟨x.stat, 4, 4⟩ := rfl
  rw [State.flag, h, fld_setFld_same _ _ _ (by decide : 4 < 32)]
  cases f.pend <;> rfl

/-- An engine's state as a function is what has been set. -/
theorem engFn_setEngFn (s : State) (x : Engine) (f : Fn) : (s.setEngFn x f).engSt x = f.st ∧
    (s.setEngFn x f).flag ⟨x.stat, 4, 4⟩ = f.pend ∧ (s.setEngFn x f).engDis.contains x.unit = f.dis :=
  ⟨engSt_setEngFn s x f, flag_setEngFn s x f, contains_holdDis _ _ _⟩

/-- A tick completes a start, and a stop once no call is left at the engine. -/
theorem engTick_rows (s : State) (x : Engine) :
    (s.engSt x = .starting → s.engTick x = s.setEngFn x ⟨if s.engDis.contains x.unit then .stopping else .on, false, false⟩) ∧
    (s.engSt x = .stopping → s.queued x.unit = 0 →
      s.engTick x = s.setEngFn x ⟨if s.flag ⟨x.stat, 4, 4⟩ then .starting else .off, false, false⟩) ∧
    (s.engSt x = .stopping → 0 < s.queued x.unit → s.engTick x = s) := by
  refine ⟨fun h => ?_, fun h hq => ?_, fun h hq => ?_⟩
  · have hf : (s.engFn x).started = ⟨if s.engDis.contains x.unit then .stopping else .on, false, false⟩ := by
      simp only [Fn.started, State.engFn, h, if_true]; split <;> rfl
    simp only [State.engTick, h, hf]
  · have hf : (s.engFn x).stopped = ⟨if s.flag ⟨x.stat, 4, 4⟩ then .starting else .off, false, false⟩ := by
      simp only [Fn.stopped, State.engFn, h, if_true]; split <;> rfl
    simp only [State.engTick, h, hq, hf, if_true]
  · simp only [State.engTick, h, if_neg hq.ne']

end engine

/-! The clauses that speak of more than one case. -/

/-- What becomes of a stage-in that ends, and of the task that waits for it. -/
theorem stageInDone_rows {l : Fin 131072} {s : State} {a : Area} (h : s.mmu.areas.find? (fun a => a.leg == l.val && a.st == 1) = some a)
    (hf : s.frontArea a.eng 1 4 = some a) :
    let u := s.stageEnds a
    (s.restages a.eng ≠ [] → exec (.stageInDone l) s = .next s) ∧
    (s.restages a.eng = [] → u.legTask l.val = none → exec (.stageInDone l) s = .next u) ∧
    (∀ i k, s.restages a.eng = [] → u.legTask l.val = some (i, k) → k.kind = 0 → k.b = a.b → k.st = .waiting → k.staged = false →
      let v := u.setTask i { k with staged := true }
      exec (.stageInDone l) s = .next (if k.parcel = true ∧ u.phase = .gather then v else v.makeReady i)) ∧
    (∀ i k, s.restages a.eng = [] → u.legTask l.val = some (i, k) → k.kind ≠ 0 ∨ k.b ≠ a.b ∨ k.st ≠ .waiting ∨ k.staged = true →
      exec (.stageInDone l) s = .next u) := by
  intro u
  have ended : s.restages a.eng = [] → exec (.stageInDone l) s = .next (u.frameStaged l.val a.b) := fun hr => by
    rw [exec_stageInDone_front h hf, if_pos hr]
  refine ⟨fun hr => ?_, fun hr ht => ?_, fun i k hr ht hk hb hst hsd => ?_, fun i k hr ht hk => ?_⟩
  · rw [exec_stageInDone_front h hf, if_neg hr]
  · rw [ended hr, frameStaged_none ht]
  · rw [ended hr, frameStaged_waiting ht ⟨hk, hb, hst, hsd⟩]
  · rw [ended hr, frameStaged_other ht hk]

/-- What TASK_DONE does, by what the core runs once its call has ended. -/
theorem taskDone_rows (c : Fin 128) (made : List SysMake) (s : State) :
    let a := made.foldl (fun t m => t.makeSys m) s
    let b := a.callsEnd c.val
    (b.running c.val = none → exec (.taskDone c made) s = .next a.sysFreed) ∧
    (∀ i t l w, b.running c.val = some (i, t) → t.leg = some l → t.kind ≤ 1 → t.work = some w →
      (b.engineNode l t w = none → b.pastDeadline = false →
        exec (.taskDone c made) s = .next ((b.mediaDone i t l c.val (b.runNodes l t 25 w)).coreTake c.val).sysFreed) ∧
      ((b.engineNode l t w).isSome = true ∨ b.pastDeadline = true → exec (.taskDone c made) s = .next a.sysFreed)) ∧
    (∀ i t, b.running c.val = some (i, t) → t.leg.isSome = true → 1 < t.kind →
      exec (.taskDone c made) s = .next (((a.giveFrame i).freeTask i).coreTake c.val).sysFreed) ∧
    (∀ i t, b.running c.val = some (i, t) → t.leg = none → t.kind ≠ 2 →
      exec (.taskDone c made) s = .next ((((a.giveFrame i).freeTask i).bpRelease).coreTake c.val).sysFreed) ∧
    (∀ i t, b.running c.val = some (i, t) → t.leg = none → t.kind = 2 →
      exec (.taskDone c made) s = .next (((((a.unpack t.data).giveFrame i).freeTask i).bpRelease).coreTake c.val).sysFreed) := by
  intro a b
  have ends : ∀ {u : State}, a.taskEnd c.val = u → exec (.taskDone c made) s = .next u.sysFreed := fun h => by rw [exec_taskDone, ← h]
  refine ⟨fun h => ends (taskEnd_idle h), fun i t l w h hl hk hw => ⟨fun he hd => ends (taskEnd_done h hl hk hw he hd), fun he =>
    ends (taskEnd_waits h hl hk hw he)⟩, fun i t h hl hk => ends (taskEnd_ofLeg h hl hk), fun i t h hl hk => ends ?_, fun i t h hl hk => ends ?_⟩
  · rw [taskEnd_noLeg h hl, if_neg hk]
  · rw [taskEnd_noLeg h hl, if_pos hk]

end Sys2Proof.Machine

section
open Sys2Proof.Machine

/-- Settles O48, clause by clause: stage-ins, creations, the end of a task and of its call, the calls at the engines, a page that moves, and the
enables and ticks of the engines. -/
theorem tasksRunAndCallEngines : Obligations.TasksRunAndCallEngines := by
  refine ⟨fun l s a h hf => stageInDone_rows h hf, fun l s h => exec_stageInDone_none h,
    fun m s => ⟨makeSys_room, makeSys_refused, makeSys_held, sysFreed_one, sysFreed_full⟩, taskDone_rows,
    fun c s i t h => ⟨fun hq => ?_, fun x k hq ho hk => ?_⟩, fun c e s k h => ⟨fun hty => ?_, fun hty => ?_⟩,
    fun c e s h => ⟨exec_fceCall_none h, exec_eceCall_none h⟩, fun c va s i t x h => ⟨fun hva hm hu hw => ?_, exec_coreTransitAccess_passes h⟩,
    fun c va s h => exec_coreTransitAccess_none h, fun e v s => engEnWrite_rows (exec_fceCfgEnWrite e v s),
    fun e v s => engEnWrite_rows (exec_eceCfgEnWrite e v s), fun e f s => ⟨fun b => ?_, engTick_rows s (fceEngine e.val)⟩,
    fun e f s => ⟨fun b => ?_, engTick_rows s (eceEngine e.val)⟩⟩
  · rw [callsEnd_running h, callEnd_none hq]
  · obtain rfl : x.task = i := by simpa using List.find?_some hq
    rw [callsEnd_running h, callEnd_alone hq ho, callRun_of hk]
  · refine ⟨fun hx => ?_, fun r hx hr => ?_, exec_fceCall_elsewhere h, exec_eceCall_other h (by rw [hty]; decide)⟩
    · rw [exec_fceCall_chosen h hty hx, cutFor_free]; rfl
    · rw [exec_fceCall_chosen h hty hx, cutFor_slice hr]; rfl
  · refine ⟨fun hx => ?_, exec_eceCall_unserved h, fun r hx hr => ?_, exec_fceCall_other h (by rw [hty]; decide)⟩
    · rw [exec_eceCall_chosen h hty hx, cutFor_free]; rfl
    · rw [exec_eceCall_chosen h hty hx, cutFor_slice hr]; rfl
  · rw [exec_coreTransitAccess_meets h hva hm, coreAccess_transit hu hw]
  · cases b <;> exact engFn_setEngFn s (fceEngine e.val) f
  · cases b <;> exact engFn_setEngFn s (eceEngine e.val) f

end


namespace Sys2Proof.Machine

open Sys2Proof

/-! What a command leaves of the life cycle and of memory (R369, R523). -/

/-- The commands after which the life cycle or the host keys may differ: the two by which a reply leaves, those of JTAG, and the two starts. -/
def MovesKeep (c : Instr) : Prop :=
  (∃ m, c = .replySend m) ∨ (∃ v, c = .qcpDbRpl v) ∨ (∃ d, c = .jtagKeyLoad d) ∨ (∃ k, c = .jtagLcTransition k) ∨
    (∃ e, c = .startSequence e) ∨ ∃ k e, c = .startStepTimeout k e

/-- By the commands, in the order of `exec`. -/
theorem exec_kept {K : Keep} {s : State} (h : Kept K s) : ∀ c : Instr, (∃ u, exec c s = .next u ∧ Kept K u) ∨ MovesKeep c
  | .startSequence e => .inr (.inr (.inr (.inr (.inr (.inl ⟨e, rfl⟩)))))
  | .startStepTimeout k e => .inr (.inr (.inr (.inr (.inr (.inr ⟨k, e, rfl⟩)))))
  | .replySend m => .inr (.inl ⟨m, rfl⟩)
  | .qcpDbRpl v => .inr (.inr (.inl ⟨v, rfl⟩))
  | .jtagKeyLoad d => .inr (.inr (.inr (.inl ⟨d, rfl⟩)))
  | .jtagLcTransition k => .inr (.inr (.inr (.inr (.inl ⟨k, rfl⟩))))
  | .pwrgoodRise _ => .inl (execPwrgoodRise_kept _ h)
  | .pwrgoodFall => .inl (execPwrgoodFall_kept h)
  | .resetNAssert => .inl (execResetNAssert_kept h)
  | .resetNRelease _ => .inl (execResetNRelease_kept _ h)
  | .testEnAssert => .inl (execTestEnAssert_kept h)
  | .kathirelWatchdog => .inl (execKathirelWatchdog_kept h)
  | .tmuTick => .inl (execTmuTick_kept h)
  | .stepApply => .inl (execStepApply_kept h)
  | .tmuCtlSet _ => .inl (execTmuCtlSet_kept _ h)
  | .tmuCtlStep _ => .inl (execTmuCtlStep_kept _ h)
  | .tmuOfsPush _ _ _ => .inl (execTmuOfsPush_kept _ _ _ h)
  | .servoSample => .inl (execServoSample_kept h)
  | .servoHoldoverTimeout => .inl (execServoHoldoverTimeout_kept h)
  | .servoFail => .inl (execServoFail_kept h)
  | .tmuSrvEnWrite _ _ => .inl (execTmuSrvEnWrite_kept _ _ h)
  | .tmuAddendWrite _ _ _ => .inl (execTmuAddendWrite_kept _ _ _ h)
  | .tmuRefSelWrite _ _ => .inl (execTmuRefSelWrite_kept _ _ h)
  | .ref10mAcquire => .inl (execRef10mAcquire_kept h)
  | .ref10mLoss => .inl (execRef10mLoss_kept h)
  | .tmuTimeSecHiRead _ => .inl (execTmuTimeSecHiRead_kept _ h)
  | .tinEdgeCapture _ _ => .inl (execTinEdgeCapture_kept _ _ h)
  | .tmuTinPop _ _ => .inl (execTmuTinPop_kept _ _ h)
  | .tmuToutArm _ _ => .inl (execTmuToutArm_kept _ _ h)
  | .tmuToutDisarm _ _ => .inl (execTmuToutDisarm_kept _ _ h)
  | .toutPulse _ => .inl (execToutPulse_kept _ h)
  | .swathBoundary => .inl (execSwathBoundary_kept h)
  | .gatherEnd => .inl (execGatherEnd_kept h)
  | .workStart => .inl (execWorkStart_kept h)
  | .workDeadline => .inl (execWorkDeadline_kept h)
  | .guardStart => .inl (execGuardStart_kept h)
  | .timedActionExec _ => .inl (execTimedActionExec_kept _ h)
  | .portStartDone _ _ => .inl (execPortStartDone_kept _ _ h)
  | .portCalFail _ => .inl (execPortCalFail_kept _ h)
  | .lanePllLoss _ => .inl (execLanePllLoss_kept _ h)
  | .linkUp _ => .inl (execLinkUp_kept _ h)
  | .linkDown _ => .inl (execLinkDown_kept _ h)
  | .portStopDone _ => .inl (execPortStopDone_kept _ h)
  | .rgmiiInbandStatus _ _ _ => .inl (execRgmiiInbandStatus_kept _ _ _ h)
  | .macRxFrame _ => .inl (execMacRxFrame_kept _ h)
  | .pauseQuantaExpiry _ _ => .inl (execPauseQuantaExpiry_kept _ _ h)
  | .pfcRefresh _ => .inl (execPfcRefresh_kept _ h)
  | .macTxSelect _ => .inl (execMacTxSelect_kept _ h)
  | .s0Collision _ => .inl (execS0Collision_kept _ h)
  | .s0BackoffExpiry => .inl (execS0BackoffExpiry_kept h)
  | .macMdioGo _ _ => .inl (execMacMdioGo_kept _ _ h)
  | .mdioFrameDone _ => .inl (execMdioFrameDone_kept _ h)
  | .macCfgEnWrite _ _ _ => .inl (execMacCfgEnWrite_kept _ _ _ h)
  | .macCtlAnRestart _ _ => .inl (execMacCtlAnRestart_kept _ _ h)
  | .macCtlPeakClr _ _ => .inl (execMacCtlPeakClr_kept _ _ h)
  | .macCntLoRead _ _ _ => .inl (execMacCntLoRead_kept _ _ _ h)
  | .pkeFrameTake _ _ => .inl (execPkeFrameTake_kept _ _ h)
  | .slowPathFrame => .inl (execSlowPathFrame_kept h)
  | .ptpFrameRx _ => .inl (execPtpFrameRx_kept _ h)
  | .txQueueEntry _ _ => .inl (execTxQueueEntry_kept _ _ h)
  | .qcpFrameRx _ => .inl (execQcpFrameRx_kept _ h)
  | .muzzleFrame => .inl (execMuzzleFrame_kept h)
  | .gateRelease _ => .inl (execGateRelease_kept _ h)
  | .muzzleStateRecord => .inl (execMuzzleStateRecord_kept h)
  | .openRateSecond => .inl (execOpenRateSecond_kept h)
  | .sessionProveTimeout _ => .inl (execSessionProveTimeout_kept _ h)
  | .leaseExpiry _ => .inl (execLeaseExpiry_kept _ h)
  | .bulkFrame _ => .inl (execBulkFrame_kept _ h)
  | .eventSend _ => .inl (execEventSend_kept _ h)
  | .journalCommit => .inl (execJournalCommit_kept h)
  | .qcpMzCtrHiRead _ _ => .inl (execQcpMzCtrHiRead_kept _ _ h)
  | .sessionOpen _ => .inl (execSessionOpen_kept _ h)
  | .sessionProve _ => .inl (execSessionProve_kept _ h)
  | .sessionKeepalive _ => .inl (execSessionKeepalive_kept _ h)
  | .sessionClose _ => .inl (execSessionClose_kept _ h)
  | .sessionSubscribe _ => .inl (execSessionSubscribe_kept _ h)
  | .sessionKeySet _ => .inl (execSessionKeySet_kept _ h)
  | .sessionKeyClear _ => .inl (execSessionKeyClear_kept _ h)
  | .unmuzzle _ => .inl (execUnmuzzle_kept _ h)
  | .muzzleKeySet _ => .inl (execMuzzleKeySet_kept _ h)
  | .sessionList _ => .inl (execSessionList_kept _ h)
  | .muzzleStatus _ => .inl (execMuzzleStatus_kept _ h)
  | .regWrite _ => .inl (execRegWrite_kept _ h)
  | .regRead _ => .inl (execRegRead_kept _ h)
  | .chanEnable _ => .inl (execChanEnable_kept _ h)
  | .chanDisable _ => .inl (execChanDisable_kept _ h)
  | .chanGraph _ => .inl (execChanGraph_kept _ h)
  | .chanFlowAdd _ => .inl (execChanFlowAdd_kept _ h)
  | .chanFlowDel _ => .inl (execChanFlowDel_kept _ h)
  | .chanEgress _ => .inl (execChanEgress_kept _ h)
  | .chanKey _ => .inl (execChanKey_kept _ h)
  | .chanPlayout _ => .inl (execChanPlayout_kept _ h)
  | .chanEcho _ => .inl (execChanEcho_kept _ h)
  | .chanEchoReset _ => .inl (execChanEchoReset_kept _ h)
  | .chanBridge _ => .inl (execChanBridge_kept _ h)
  | .chanGain _ => .inl (execChanGain_kept _ h)
  | .chanGroup _ => .inl (execChanGroup_kept _ h)
  | .chanToneCfg _ => .inl (execChanToneCfg_kept _ h)
  | .chanTonePlay _ => .inl (execChanTonePlay_kept _ h)
  | .chanToneStop _ => .inl (execChanToneStop_kept _ h)
  | .chanCodec _ => .inl (execChanCodec_kept _ h)
  | .chanRtcp _ => .inl (execChanRtcp_kept _ h)
  | .chanClear _ => .inl (execChanClear_kept _ h)
  | .chanConfCreate _ => .inl (execChanConfCreate_kept _ h)
  | .chanConfDelete _ => .inl (execChanConfDelete_kept _ h)
  | .chanConfJoin _ => .inl (execChanConfJoin_kept _ h)
  | .chanConfLeave _ => .inl (execChanConfLeave_kept _ h)
  | .chanStatus _ => .inl (execChanStatus_kept _ h)
  | .chanConfStatus _ => .inl (execChanConfStatus_kept _ h)
  | .graphDefine _ => .inl (execGraphDefine_kept _ h)
  | .graphDelete _ => .inl (execGraphDelete_kept _ h)
  | .graphCptDefine _ => .inl (execGraphCptDefine_kept _ h)
  | .graphInfo _ => .inl (execGraphInfo_kept _ h)
  | .coefSetLoad _ => .inl (execCoefSetLoad_kept _ h)
  | .coefSetFree _ => .inl (execCoefSetFree_kept _ h)
  | .coefBank _ => .inl (execCoefBank_kept _ h)
  | .coefSwap _ => .inl (execCoefSwap_kept _ h)
  | .coefSwapCancel _ => .inl (execCoefSwapCancel_kept _ h)
  | .coefPhase _ => .inl (execCoefPhase_kept _ h)
  | .coefSyncReset _ => .inl (execCoefSyncReset_kept _ h)
  | .coefSetInfo _ => .inl (execCoefSetInfo_kept _ h)
  | .coefRomRead _ => .inl (execCoefRomRead_kept _ h)
  | .coefChainStatus _ => .inl (execCoefChainStatus_kept _ h)
  | .timeClock _ => .inl (execTimeClock_kept _ h)
  | .timePort _ => .inl (execTimePort_kept _ h)
  | .timeUnicast _ => .inl (execTimeUnicast_kept _ h)
  | .timeStatus _ => .inl (execTimeStatus_kept _ h)
  | .timePortStatus _ => .inl (execTimePortStatus_kept _ h)
  | .portEnable _ => .inl (execPortEnable_kept _ h)
  | .portDisable _ => .inl (execPortDisable_kept _ h)
  | .portMdioWrite _ => .inl (execPortMdioWrite_kept _ h)
  | .portMdioRead _ => .inl (execPortMdioRead_kept _ h)
  | .portStatus _ => .inl (execPortStatus_kept _ h)
  | .captOpen _ => .inl (execCaptOpen_kept _ h)
  | .captClose _ => .inl (execCaptClose_kept _ h)
  | .captEnable _ => .inl (execCaptEnable_kept _ h)
  | .captDisable _ => .inl (execCaptDisable_kept _ h)
  | .captTrigger _ => .inl (execCaptTrigger_kept _ h)
  | .captExport _ => .inl (execCaptExport_kept _ h)
  | .captRead _ => .inl (execCaptRead_kept _ h)
  | .captStatus _ => .inl (execCaptStatus_kept _ h)
  | .captureTimeTrigger _ => .inl (execCaptureTimeTrigger_kept _ h)
  | .exportFrameSend _ => .inl (execExportFrameSend_kept _ h)
  | .pattLoad _ => .inl (execPattLoad_kept _ h)
  | .pattFromCapt _ => .inl (execPattFromCapt_kept _ h)
  | .pattDelete _ => .inl (execPattDelete_kept _ h)
  | .pattPlay _ => .inl (execPattPlay_kept _ h)
  | .pattStop _ => .inl (execPattStop_kept _ h)
  | .pattInfo _ => .inl (execPattInfo_kept _ h)
  | .patternItemRelease _ => .inl (execPatternItemRelease_kept _ h)
  | .ringOpen _ => .inl (execRingOpen_kept _ h)
  | .ringClose _ => .inl (execRingClose_kept _ h)
  | .ringEnable _ => .inl (execRingEnable_kept _ h)
  | .ringDisable _ => .inl (execRingDisable_kept _ h)
  | .ringFeed _ => .inl (execRingFeed_kept _ h)
  | .ringStatus _ => .inl (execRingStatus_kept _ h)
  | .injectLaunch _ => .inl (execInjectLaunch_kept _ h)
  | .injectDoneSend _ => .inl (execInjectDoneSend_kept _ h)
  | .tandRoute _ => .inl (execTandRoute_kept _ h)
  | .tandRing _ => .inl (execTandRing_kept _ h)
  | .tandExport _ => .inl (execTandExport_kept _ h)
  | .tandExportDel _ => .inl (execTandExportDel_kept _ h)
  | .tandImport _ => .inl (execTandImport_kept _ h)
  | .tandImportDel _ => .inl (execTandImportDel_kept _ h)
  | .tandConfImport _ => .inl (execTandConfImport_kept _ h)
  | .tandMigrateOut _ => .inl (execTandMigrateOut_kept _ h)
  | .tandMigrateIn _ => .inl (execTandMigrateIn_kept _ h)
  | .tandStatus _ => .inl (execTandStatus_kept _ h)
  | .tndDevnoWrite _ _ => .inl (execTndDevnoWrite_kept _ _ h)
  | .tndWinWrite _ _ => .inl (execTndWinWrite_kept _ _ h)
  | .bistRequest _ => .inl (execBistRequest_kept _ h)
  | .bistFuseArm _ => .inl (execBistFuseArm_kept _ h)
  | .bistFuseConfirm _ => .inl (execBistFuseConfirm_kept _ h)
  | .bistLcArm _ => .inl (execBistLcArm_kept _ h)
  | .bistLcConfirm _ => .inl (execBistLcConfirm_kept _ h)
  | .bistRepairList _ => .inl (execBistRepairList_kept _ h)
  | .bistUnitStatus _ => .inl (execBistUnitStatus_kept _ h)
  | .prsPartition _ => .inl (execPrsPartition_kept _ h)
  | .prsCheckpoint _ => .inl (execPrsCheckpoint_kept _ h)
  | .prsLogRead _ => .inl (execPrsLogRead_kept _ h)
  | .prsInfo _ => .inl (execPrsInfo_kept _ h)
  | .statIpfixSet _ => .inl (execStatIpfixSet_kept _ h)
  | .statLeg _ => .inl (execStatLeg_kept _ h)
  | .statDevice _ => .inl (execStatDevice_kept _ h)
  | .statJrnlFate _ => .inl (execStatJrnlFate_kept _ h)
  | .fwLoad _ => .inl (execFwLoad_kept _ h)
  | .fwActivate _ => .inl (execFwActivate_kept _ h)
  | .fwStartClear _ => .inl (execFwStartClear_kept _ h)
  | .fwInfo _ => .inl (execFwInfo_kept _ h)
  | .shutBegin _ => .inl (execShutBegin_kept _ h)
  | .shutAbort _ => .inl (execShutAbort_kept _ h)
  | .shutStatus _ => .inl (execShutStatus_kept _ h)
  | .shutdownDrainEnd => .inl (execShutdownDrainEnd_kept h)
  | .shutdownTestDone _ => .inl (execShutdownTestDone_kept _ h)
  | .stageInDone _ => .inl (execStageInDone_kept _ h)
  | .taskDone _ _ => .inl (execTaskDone_kept _ _ h)
  | .coreTransitAccess _ _ => .inl (execCoreTransitAccess_kept _ _ h)
  | .fceCall _ _ => .inl (execFceCall_kept _ _ h)
  | .eceCall _ _ => .inl (execEceCall_kept _ _ h)
  | .memoryFault _ _ => .inl (execMemoryFault_kept _ _ h)
  | .accessFault _ _ _ => .inl (execAccessFault_kept _ _ _ h)
  | .engineParity _ => .inl (execEngineParity_kept _ h)
  | .coreHang _ _ => .inl (execCoreHang_kept _ _ h)
  | .taskOverrun _ => .inl (execTaskOverrun_kept _ h)
  | .replayRestageDone _ => .inl (execReplayRestageDone_kept _ h)
  | .faultRecordPop _ => .inl (execFaultRecordPop_kept _ h)
  | .dmaCopy _ => .inl (execDmaCopy_kept _ h)
  | .dmaFill _ => .inl (execDmaFill_kept _ h)
  | .dmaTx _ => .inl (execDmaTx_kept _ h)
  | .dmaRx _ => .inl (execDmaRx_kept _ h)
  | .dmaRelease _ => .inl (execDmaRelease_kept _ h)
  | .dmaDescComplete _ => .inl (execDmaDescComplete_kept _ h)
  | .dmaDescPark _ => .inl (execDmaDescPark_kept _ h)
  | .mmuRingTailWrite _ _ _ _ _ => .inl (execMmuRingTailWrite_kept _ _ _ _ _ h)
  | .mmuMoveGo _ _ _ => .inl (execMmuMoveGo_kept _ _ _ h)
  | .moveComplete => .inl (execMoveComplete_kept h)
  | .mmuInvGo _ _ _ => .inl (execMmuInvGo_kept _ _ _ h)
  | .invalidationDone => .inl (execInvalidationDone_kept h)
  | .mmuParkResume _ => .inl (execMmuParkResume_kept _ h)
  | .mmuParkAbort _ => .inl (execMmuParkAbort_kept _ h)
  | .mmuCtlPeakClr _ => .inl (execMmuCtlPeakClr_kept _ h)
  | .mmuDmaEnWrite _ _ => .inl (execMmuDmaEnWrite_kept _ _ h)
  | .swtLenWrite _ _ => .inl (execSwtLenWrite_kept _ _ h)
  | .swtLoftBudWrite _ _ => .inl (execSwtLoftBudWrite_kept _ _ h)
  | .swtCycPctWrite _ _ => .inl (execSwtCycPctWrite_kept _ _ h)
  | .plyCtlPeakClr _ => .inl (execPlyCtlPeakClr_kept _ h)
  | .fceCfgEnWrite _ _ => .inl (execFceCfgEnWrite_kept _ _ h)
  | .fceCtlPeakClr _ _ => .inl (execFceCtlPeakClr_kept _ _ h)
  | .eceCfgEnWrite _ _ => .inl (execEceCfgEnWrite_kept _ _ h)
  | .eceCtlPeakClr _ _ => .inl (execEceCtlPeakClr_kept _ _ h)
  | .knlCtlHistClr _ => .inl (execKnlCtlHistClr_kept _ h)
  | .knlCtlPeakClr _ => .inl (execKnlCtlPeakClr_kept _ h)
  | .knlHistSelWrite _ _ => .inl (execKnlHistSelWrite_kept _ _ h)
  | .knlRefuseWrite _ _ => .inl (execKnlRefuseWrite_kept _ _ h)
  | .frpCtlPeakClr _ => .inl (execFrpCtlPeakClr_kept _ h)
  | .grnCapStrmHiRead _ => .inl (execGrnCapStrmHiRead_kept _ h)
  | .balCfgEnWrite _ => .inl (execBalCfgEnWrite_kept _ h)
  | .balCtlPeakClr _ => .inl (execBalCtlPeakClr_kept _ h)
  | .balRingTailWrite _ _ _ => .inl (execBalRingTailWrite_kept _ _ _ h)
  | .balerCompress _ _ => .inl (execBalerCompress_kept _ _ h)
  | .balerDecompress _ => .inl (execBalerDecompress_kept _ h)
  | .balerResume _ _ => .inl (execBalerResume_kept _ _ h)
  | .balerJobEnd _ _ => .inl (execBalerJobEnd_kept _ _ h)
  | .glnSliceStart _ _ => .inl (execGlnSliceStart_kept _ _ h)
  | .glnSliceEnd _ => .inl (execGlnSliceEnd_kept _ h)
  | .glnCtlCut _ => .inl (execGlnCtlCut_kept _ h)
  | .glnCfgEnWrite _ _ => .inl (execGlnCfgEnWrite_kept _ _ h)
  | .glnRecPopRead _ => .inl (execGlnRecPopRead_kept _ h)
  | .i2cAddressWrite _ => .inl (execI2cAddressWrite_kept _ h)
  | .i2cRead _ => .inl (execI2cRead_kept _ h)
  | .scrubRead _ _ => .inl (execScrubRead_kept _ _ h)
  | .hbmRetrain _ _ => .inl (execHbmRetrain_kept _ _ h)
  | .pllCalibration => .inl (execPllCalibration_kept h)
  | .sensorRead _ => .inl (execSensorRead_kept _ h)
  | .overTempReset => .inl (execOverTempReset_kept h)
  | .avsAdjust _ _ => .inl (execAvsAdjust_kept _ _ h)
  | .checkpointTimer => .inl (execCheckpointTimer_kept h)
  | .checkpointWritten _ => .inl (execCheckpointWritten_kept _ h)
  | .prsBlockFail b => .inl (execPrsBlockFail_kept b h)
  | .ipfixHealth => .inl (execIpfixHealth_kept h)
  | .ipfixTemplate => .inl (execIpfixTemplate_kept h)
  | .testEnRelease _ => .inl (execTestEnRelease_kept _ h)
  | .unknownOperation _ _ _ => .inl (execUnknownOperation_kept _ _ _ h)

/-- Whether the table of R523 leads from one state of the life cycle to another, by a command or by JTAG. -/
def lcTo (a k : Nat) : Bool := lcAllowed true a k || lcAllowed false a k

/-- The table of R523 leads to a state of the life cycle only. -/
theorem lcTo_lt {a k : Nat} (h : lcTo a k = true) : k < 5 := by
  unfold lcTo lcAllowed at h
  split at h <;> simp_all

/-- END is never left (R523). -/
theorem lcTo_end (k : Nat) : lcTo 4 k = false := by
  unfold lcTo lcAllowed
  split <;> simp_all

theorem Nv.lcOk_iff (n : Nv) : n.lcOk = true ↔ n.lc < 5 ∧ ∀ k, n.lcNext = some k → lcTo n.lc k = true := by
  unfold Nv.lcOk lcTo
  cases n.lcNext <;> simp

/-- Memory is in its canonical form at `t`, the life cycle has not moved from `s`, and what waits for the next start has stayed or is a
transition of the table. -/
structure LcWaits (s t : State) : Prop where
  mem : Memory.wf t.mmu.mem = true
  lc : t.nv.lc = s.nv.lc
  next : t.nv.lcNext = s.nv.lcNext ∨ ∃ k, t.nv.lcNext = some k ∧ lcTo s.nv.lc k = true

theorem LcWaits.refl {s : State} (h : Memory.wf s.mmu.mem = true) : LcWaits s s := ⟨h, rfl, .inl rfl⟩

theorem LcWaits.trans {s t u : State} (h : LcWaits s t) (k : LcWaits t u) : LcWaits s u := by
  obtain ⟨hm, hl, hn⟩ := k
  refine ⟨hm, hl.trans h.lc, ?_⟩
  rw [h.lc] at hn
  obtain hn | hn := hn
  · rw [hn]
    exact h.next
  · exact .inr hn

theorem Kept.lcWaits {s t : State} (h : Kept s.keep t) : LcWaits s t :=
  ⟨h.1, congrArg Keep.lc h.2, .inl (congrArg Keep.lcNext h.2)⟩

/-- What keeps the durable things whatever they are moves nothing of the life cycle. -/
theorem LcWaits.then {s t u : State} (h : LcWaits s t) (k : Kept t.keep t → Kept t.keep u) : LcWaits s u := h.trans (k ⟨h.mem, rfl⟩).lcWaits

/-- Host keys, and what else is not of the life cycle, may be written. -/
theorem LcWaits.setNv {s t : State} (h : LcWaits s t) {x : Nv} (hl : x.lc = t.nv.lc) (hn : x.lcNext = t.nv.lcNext) : LcWaits s (t.setNv x) :=
  ⟨h.mem, hl.trans h.lc, hn.symm ▸ h.next⟩

theorem LcWaits.lcGo {s t : State} (h : LcWaits s t) (k : Nat) : LcWaits s (t.lcGo k) := by
  unfold State.lcGo
  split
  case isTrue hk =>
    have hw : LcWaits s (t.setNv { t.nv with lcNext := some k }) := ⟨h.mem, h.lc, .inr ⟨k, rfl, by rw [← h.lc]; exact hk⟩⟩
    dsimp only
    split
    · refine (hw.setNv ?_ ?_).then State.restart_kept <;> rfl
    · exact hw
  case isFalse => exact h

theorem LcWaits.afterReply {s t : State} (h : LcWaits s t) (m op : Nat) (b : Bytes) : LcWaits s (t.afterReply m op b) := by
  unfold State.afterReply
  split
  · exact h.then (State.stopSess_kept _)
  · refine (h.setNv ?_ ?_).then (State.stopKey_kept _) <;> rfl
  · refine (h.setNv ?_ ?_).then (State.stopKey_kept _) <;> rfl
  · exact (h.then State.stopAll_kept).lcGo _
  · refine (h.setNv ?_ ?_).then State.restart_kept <;> rfl
  · exact h

theorem LcWaits.settle {s t : State} (h : LcWaits s t) (m : Nat) : LcWaits s (t.settle m) := by
  unfold State.settle
  extract_lets x
  split
  case h_1 op b _ =>
    split
    · have hr := (h.then (State.setSess_kept m { x with after := none })).afterReply m op b
      extract_lets u
      split
      · exact hr.then (State.closeSess_kept _)
      · exact hr
    · exact h
  case h_2 => exact h

section Moves
variable {s t : State} (hs : Memory.wf s.mmu.mem = true)
include hs

theorem execReplySend_lcWaits {m : Fin 256} (h : execReplySend m s = .next t) : LcWaits s t := by
  cases h
  split
  · exact (((LcWaits.refl hs).then (State.setSess_kept _ _)).then (State.sendRing_kept _ _)).settle _
  · exact (LcWaits.refl hs).settle _

theorem execQcpDbRpl_lcWaits {v : Word} (h : execQcpDbRpl v s = .next t) : LcWaits s t := by
  cases h
  split
  · exact ((LcWaits.refl hs).then (State.sendRing_kept _ _)).settle _
  · exact (LcWaits.refl hs).settle _

theorem execJtagKeyLoad_lcWaits {d : BitVec 264} (h : execJtagKeyLoad d s = .next t) : LcWaits s t := by
  cases h
  split
  · extract_lets key
    refine ((LcWaits.refl hs).setNv ?_ ?_).then (State.stopKey_kept _) <;> rfl
  · exact .refl hs

theorem execJtagLcTransition_lcWaits {k : Fin 5} (h : execJtagLcTransition k s = .next t) : LcWaits s t := by
  cases h
  split
  · exact (LcWaits.refl hs).lcGo _
  · exact .refl hs

end Moves

/-- The life cycle after a start: what waited is made, and nothing waits (R523). -/
structure LcStarted (s t : State) : Prop where
  mem : Memory.wf t.mmu.mem = true
  lc : t.nv.lc = s.nv.lcNext.getD s.nv.lc
  next : t.nv.lcNext = none

theorem State.runStart_lcStarted {s : State} (hs : Memory.wf s.mmu.mem = true) (env : StartEnv) (stop : Option Nat) :
    LcStarted s (s.runStart env stop) := by
  have h := State.runStart_kept (K := s.keep) env stop ⟨hs, rfl⟩
  exact ⟨h.1, congrArg Keep.lc h.2, congrArg Keep.lcNext h.2⟩

/-- What one command does to the life cycle: it leaves it, with what waits, or it is a start that runs. -/
theorem exec_lifeCycle {c : Instr} {s t : State} (hs : Memory.wf s.mmu.mem = true) (h : exec c s = .next t) :
    LcWaits s t ∨ (LcStarted s t ∧ ∃ env, c = .startSequence env ∨ ∃ k, c = .startStepTimeout k env) := by
  obtain ⟨u, hu, hk⟩ | ⟨m, rfl⟩ | ⟨v, rfl⟩ | ⟨d, rfl⟩ | ⟨k, rfl⟩ | ⟨env, rfl⟩ | ⟨k, env, rfl⟩ := exec_kept (K := s.keep) ⟨hs, rfl⟩ c
  · obtain rfl : u = t := by rw [hu] at h; injection h
    exact .inl hk.lcWaits
  · exact .inl (execReplySend_lcWaits hs h)
  · exact .inl (execQcpDbRpl_lcWaits hs h)
  · exact .inl (execJtagKeyLoad_lcWaits hs h)
  · exact .inl (execJtagLcTransition_lcWaits hs h)
  · cases h
    split
    · exact .inr ⟨State.runStart_lcStarted hs env none, env, .inl rfl⟩
    · exact .inl (.refl hs)
  · cases h
    split
    · exact .inl (.refl hs)
    · split
      · exact .inl ((LcWaits.refl hs).then State.restart_kept)
      · exact .inr ⟨State.runStart_lcStarted hs env _, env, .inr ⟨k, rfl⟩⟩

/-- A step runs the command at the front of the queue, or idles. -/
theorem step_lifeCycle {s t : State} (hs : Memory.wf s.mmu.mem = true) (h : step s = .next t) :
    LcWaits s t ∨ (LcStarted s t ∧ ∃ env r, s.pending = .startSequence env :: r ∨ ∃ k, s.pending = .startStepTimeout k env :: r) := by
  unfold step at h
  split at h
  · cases h
    exact .inl (.refl hs)
  · next c r hp =>
    obtain hw | ⟨hst, env, hc⟩ := exec_lifeCycle (s := s.setPending r) hs h
    · exact .inl ⟨hw.mem, hw.lc, hw.next⟩
    · exact .inr ⟨⟨hst.mem, hst.lc, hst.next⟩, env, r, by rw [hp]; simpa using hc⟩

theorem LcWaits.lcOk {s t : State} (h : LcWaits s t) (hs : s.nv.lcOk = true) : t.nv.lcOk = true := by
  obtain ⟨hl, hn⟩ := (Nv.lcOk_iff _).1 hs
  refine (Nv.lcOk_iff _).2 ⟨h.lc ▸ hl, fun k hk => ?_⟩
  rw [h.lc]
  obtain e | ⟨j, hj, ha⟩ := h.next
  · exact hn k (e.symm.trans hk)
  · obtain rfl : j = k := Option.some.inj (hj.symm.trans hk)
    exact ha

theorem LcStarted.lcOk {s t : State} (h : LcStarted s t) (hs : s.nv.lcOk = true) : t.nv.lcOk = true := by
  obtain ⟨hl, hn⟩ := (Nv.lcOk_iff _).1 hs
  refine (Nv.lcOk_iff _).2 ⟨?_, fun k hk => by rw [h.next] at hk; cases hk⟩
  rw [h.lc]
  cases hx : s.nv.lcNext with
  | none => exact hl
  | some k => exact lcTo_lt (hn k hx)

end Sys2Proof.Machine

section
open Sys2Proof Sys2Proof.Machine

/-- Settles O56: `step` by whether a command waits. -/
theorem aStepRunsTheFrontCommand : Obligations.AStepRunsTheFrontCommand := by
  unfold Obligations.AStepRunsTheFrontCommand step
  refine ⟨fun c r s h => ?_, fun s h => ?_⟩
  · rw [h]
    rfl
  · rw [h]

/-- Settles O58, over all commands: every one keeps memory, and the life cycle stays, or waits for a transition of the table, or takes the one
that waited. -/
theorem everyStepKeepsTheInvariant : Obligations.EveryStepKeepsTheInvariant := by
  intro s t hi h
  obtain hw | ⟨hst, -⟩ := step_lifeCycle hi.1 h
  · exact ⟨hw.mem, hw.lcOk hi.2⟩
  · exact ⟨hst.mem, hst.lcOk hi.2⟩

/-- Settles O59: in a start what waited is a transition of the table by the invariant; in every other command the state stays. -/
theorem theLifeCycleMovesByItsTable : Obligations.TheLifeCycleMovesByItsTable := by
  intro s t hi h
  obtain ⟨-, hn⟩ := (Nv.lcOk_iff _).1 hi.2
  obtain hw | ⟨hst, hc⟩ := step_lifeCycle hi.1 h
  · refine ⟨.inl hw.lc, ?_, fun h4 => hw.lc.trans h4⟩
    obtain e | e := hw.next
    · exact .inl e
    · exact .inr (.inr e)
  · cases hx : s.nv.lcNext with
    | none =>
      have hl : t.nv.lc = s.nv.lc := by rw [hst.lc, hx]; rfl
      exact ⟨.inl hl, .inr (.inl hst.next), fun h4 => hl.trans h4⟩
    | some k =>
      have hl : t.nv.lc = k := by rw [hst.lc, hx]; rfl
      have hk : lcTo s.nv.lc k = true := hn k hx
      refine ⟨.inr ⟨by rw [hl], by rw [hl]; exact hk, hc⟩, .inr (.inl hst.next), fun h4 => ?_⟩
      rw [h4, lcTo_end] at hk
      cases hk

end


namespace Sys2Proof.Machine

open Sys2Proof

/-! Descriptors of the DMA engines (R383, R385-R393, R599). -/

section NextDesc
variable {r : Fin 256} {s : State} {d : Desc}

/-! What a row of a ring does, by the descriptor of its operation that runs next. -/

theorem exec_dmaCopy_none (h : s.nextDesc r.val 1 = none) : exec (.dmaCopy r) s = .next s := by
  simp only [exec, execDmaCopy, h]

theorem exec_dmaFill_none (h : s.nextDesc r.val 2 = none) : exec (.dmaFill r) s = .next s := by
  simp only [exec, execDmaFill, h]

theorem exec_dmaTx_none (h : s.nextDesc r.val 3 = none) : exec (.dmaTx r) s = .next s := by
  simp only [exec, execDmaTx, h]

theorem exec_dmaRx_none (h : s.nextDesc r.val 4 = none) : exec (.dmaRx r) s = .next (s.dropStarved r.val) := by
  simp only [exec, execDmaRx, h, Option.bind_none, Option.isNone_none, if_true]

theorem exec_dmaRelease_none (h : s.nextDesc r.val 5 = none) : exec (.dmaRelease r) s = .next s := by
  simp only [exec, execDmaRelease, h]

/-- A length out of range ends a descriptor before its first byte (R388). -/
theorem begin_badLen (h : d.len = 0 ∨ 16777216 < d.len) (run : State → State) : s.begin_ r.val d run = s.setDesc r.val (d.ended St.badLen) := if_pos h

/-- A length in range and no PIN: the bytes move. -/
theorem begin_runs (h0 : 0 < d.len) (h1 : d.len ≤ 16777216) (h5 : d.flag 5 = false) (run : State → State) : s.begin_ r.val d run = run s := by
  have hl : ¬ (d.len = 0 ∨ 16777216 < d.len) := by omega
  have hp : ¬ (d.flag 5 ∧ d.pinned = false) := by simp [h5]
  exact (if_neg hl).trans (if_neg hp)

theorem begun_unpinned (h5 : d.flag 5 = false) : d.begun = d := by rw [Desc.begun, h5, Bool.or_false]

theorem exec_dmaCopy_badLen (h : s.nextDesc r.val 1 = some d) (hl : d.len = 0 ∨ 16777216 < d.len) :
    exec (.dmaCopy r) s = .next (s.setDesc r.val (d.ended St.badLen)) := by
  simp only [exec, execDmaCopy, h, begin_badLen hl]

theorem exec_dmaFill_badLen (h : s.nextDesc r.val 2 = some d) (hl : d.len = 0 ∨ 16777216 < d.len) :
    exec (.dmaFill r) s = .next (s.setDesc r.val (d.ended St.badLen)) := by
  simp only [exec, execDmaFill, h, begin_badLen hl]

theorem exec_dmaRelease_badLen (h : s.nextDesc r.val 5 = some d) (hl : d.len = 0 ∨ 16777216 < d.len) :
    exec (.dmaRelease r) s = .next (s.setDesc r.val (d.ended St.badLen)) := by
  simp only [exec, execDmaRelease, h, if_pos hl]

theorem exec_dmaRelease_lowers (h : s.nextDesc r.val 5 = some d) (h0 : 0 < d.len) (h1 : d.len ≤ 16777216) :
    exec (.dmaRelease r) s = .next ((s.unpinRange (d.ctx (s.dring r.val)) d.dst d.len).setDesc r.val (d.after d.len none)) := by
  have hl : ¬ (d.len = 0 ∨ 16777216 < d.len) := by omega
  simp only [exec, execDmaRelease, h, if_neg hl]

theorem exec_dmaCopy_moves (h : s.nextDesc r.val 1 = some d) (h0 : 0 < d.len) (h1 : d.len ≤ 16777216) (h5 : d.flag 5 = false) :
    let o := State.copyBytes (ringUnit r.val) (d.ctx (s.dring r.val)) (d.len - d.done) (d.src + d.done) (d.dst + d.done) d.done s
    exec (.dmaCopy r) s = .next ((o.1.setDesc r.val (d.after o.2.1 o.2.2)).moved (r.val / 8) (o.2.1 - d.done)) := by
  simp only [exec, execDmaCopy, h, begin_runs h0 h1 h5, begun_unpinned h5]

theorem exec_dmaFill_moves (h : s.nextDesc r.val 2 = some d) (h0 : 0 < d.len) (h1 : d.len ≤ 16777216) (h5 : d.flag 5 = false) :
    let o := State.putBytes (ringUnit r.val) (d.ctx (s.dring r.val)) ((List.range (d.len - d.done)).map fun i => (sub d.b 8 8).getD ((d.done + i) % 8) 0)
      (d.dst + d.done) d.done s
    exec (.dmaFill r) s = .next ((o.1.setDesc r.val (d.after o.2.1 o.2.2)).moved (r.val / 8) (o.2.1 - d.done)) := by
  simp only [exec, execDmaFill, h, begin_runs h0 h1 h5, begun_unpinned h5]

theorem exec_dmaTx_short (h : s.nextDesc r.val 3 = some d) (hl : d.len < 14) :
    exec (.dmaTx r) s = .next ((s.bump (R.MAC_TX_BADLEN_CNT (u8 d.b 24 % 8))).setDesc r.val (d.ended St.badLen)) := by
  simp only [exec, execDmaTx, h, if_pos (Or.inl hl : d.len < 14 ∨ s.portMax (u8 d.b 24 % 8) < d.len + 4)]

/-- A TX frame that its port may send: read whole it goes to the port, else its descriptor is at a fault (R388). -/
theorem exec_dmaTx_reads (h : s.nextDesc r.val 3 = some d) (hl : 14 ≤ d.len) (hm : d.len + 4 ≤ s.portMax (u8 d.b 24 % 8)) :
    let t := State.touch (ringUnit r.val) (d.ctx (s.dring r.val)) (d.len - d.done) (d.src + d.done) s
    ∀ b flt, t.getBytes (ringUnit r.val) (d.ctx (s.dring r.val)) (d.len - d.done) (d.src + d.done) d.buf = (b, flt) →
      exec (.dmaTx r) s = .next (match flt with
        | some _ => (t.setDesc r.val { d.after b.length flt with buf := b }).moved (r.val / 8) (b.length - d.done)
        | none => (((t.setDesc r.val { d with done := b.length, phase := 4 }).moved (r.val / 8) (b.length - d.done)).txRequest (u8 d.b 24 % 8)
            { TxFrame.plain b (u8 d.b 25 % 8) (.dma r.val d.idx) with tsReq := d.flag 7 }).1) := by
  intro t b flt hg
  have hn : ¬ (d.len < 14 ∨ s.portMax (u8 d.b 24 % 8) < d.len + 4) := by omega
  simp only [exec, execDmaTx, h, if_neg hn, hg, t] <;> cases flt <;> rfl

/-- A descriptor that runs next is one of the ring that may run. -/
theorem nextDesc_mayRun {op : Nat} (h : s.nextDesc r.val op = some d) : d.op = op ∧ s.mayRun (s.dring r.val) d = true := by
  unfold State.nextDesc at h
  dsimp only at h
  split at h
  · simpa using List.find?_some h
  · cases h

/-- An RX descriptor runs next only while a frame of its port waits (R388). -/
theorem nextDesc_rx_frame (h : s.nextDesc r.val 4 = some d) : ((s.dring r.val).frames.find? fun f => f.2.2 == d.port).isSome = true := by
  obtain ⟨hop, hrun⟩ := nextDesc_mayRun h
  simp only [State.mayRun, hop, Bool.and_eq_true] at hrun
  rw [List.find?_isSome]
  simpa using hrun.2

end NextDesc

section Rx
variable {r : Fin 256} {s t : State} {d : Desc} {f : RxFrame} {cls port : Nat} {used : List Nat} {ok : Bool} {flt : Option (Nat × Nat)}

/-- The state once a frame has left the list of a ring and its class buffer (R136, R388). -/
def State.rxLeft (t : State) (r : Nat) (x : RxFrame × Nat × Nat) : State :=
  (t.setDring r { t.dring r with frames := (t.dring r).frames.erase x }).xoffCheck x.2.2

theorem exec_dmaRx_frame (h : s.nextDesc r.val 4 = some d) (hf : (s.dring r.val).frames.find? (fun f => f.2.2 == d.port) = some (f, cls, port))
    (hx : State.fillRx r.val f cls port [] rxFuel f.bytes true s = (t, used, ok, flt)) : exec (.dmaRx r) s = .next (
      if ok then (t.rxLeft r.val (f, cls, port)).dropStarved r.val
      else if used = [] then ((t.rxLeft r.val (f, cls, port)).bump (R.MAC_RX_RING_EMPTY_CNT port)).dropStarved r.val
      else ((((t.rxLeft r.val (f, cls, port)).abandon r.val used flt).bump (R.MAC_RX_RING_ABANDON_CNT port)).raise R.MAC_EVT
        (2 ^ (16 + port))).dropStarved r.val) := by
  simp only [exec, execDmaRx, h, Option.bind_some, hf, hx]
  rfl

theorem dring_setDring_same (s : State) (r : Nat) (x : DRing) : (s.setDring r x).dring r = x := kgetD_kset_same _ _ _ _

theorem xoffCheck_dring (s : State) (p r : Nat) : (s.xoffCheck p).dring r = s.dring r := by
  unfold State.dring
  rw [(xoffOnly_xoffCheck s p).mmu]

theorem rxLeft_dring (t : State) (r : Nat) (x : RxFrame × Nat × Nat) :
    (t.rxLeft r x).dring r = { t.dring r with frames := (t.dring r).frames.erase x } := by
  rw [State.rxLeft, xoffCheck_dring, dring_setDring_same]

theorem abandon_frames (s : State) (r : Nat) : ((s.abandon r used flt).dring r).frames = (s.dring r).frames := by
  unfold State.abandon
  rw [dring_setDring_same]

/-- A buffer that a dropped frame had filled is written back ABANDONED, with the cause of its drop (R137, R389). -/
theorem abandon_descs (s : State) (r : Nat) {e : Desc} (he : e ∈ ((s.abandon r used flt).dring r).descs) (hu : used.contains e.idx = true) :
    e.ab = true ∧ e.status = St.fault ∧ e.info = (flt.getD (0, 0)).2 ∧ e.cause = (flt.getD (0, 0)).1 := by
  unfold State.abandon at he
  rw [dring_setDring_same] at he
  obtain ⟨d, -, rfl⟩ := List.mem_map.1 he
  by_cases hd : used.contains d.idx = true
  · rw [if_pos hd]
    exact ⟨rfl, rfl, rfl, rfl⟩
  · rw [if_neg hd] at hu
    exact absurd hu hd

end Rx

section Rows
variable {r : Fin 256} {s : State} {d : Desc} {a : Area}

/-! Completions, parks and the firmware's answer to them, by the ring's number within its engine (R389, R392, R393). -/

theorem exec_dmaDescComplete_first {l : List Desc} (hr : r.val % 8 ≠ 0) (h : (s.dring r.val).descs = d :: l) (hp : d.phase = 3) :
    exec (.dmaDescComplete r) s = .next (((s.finishDesc r.val d).takeDescs r.val 16).dengRest (r.val / 8)) := by
  simp only [exec, execDmaDescComplete, if_neg hr, h, if_pos hp, State.descDone]

theorem exec_dmaDescComplete_runs {l : List Desc} (hr : r.val % 8 ≠ 0) (h : (s.dring r.val).descs = d :: l) (hp : d.phase ≤ 2) :
    exec (.dmaDescComplete r) s = .next s := by
  simp only [exec, execDmaDescComplete, if_neg hr, h, if_neg (by omega : ¬ d.phase = 3), if_neg (by omega : ¬ d.phase = 4)]

theorem exec_dmaDescComplete_back (hr : r.val % 8 = 0) (h : s.frontArea (r.val / 8) 3 5 = some a) (ha : a.st = 3) :
    exec (.dmaDescComplete r) s = .next (((s.kennelDone a St.ok (a.kib * 1024) 0).moved (r.val / 8) (a.kib * 1024)).freeArea a) := by
  simp only [exec, execDmaDescComplete, if_pos hr, h, if_pos ha, Area.len]

theorem exec_dmaDescPark_fault (hr : 2 ≤ r.val % 8) (h : (s.dring r.val).descs.find? (fun d => d.phase == 1) = some d) : exec (.dmaDescPark r) s =
    .next ((((s.writeCompletion r.val d 0xA0 0).setDesc r.val { d with phase := 2 }).countPark d.cause).parkTask r.val d) := by
  simp only [exec, execDmaDescPark, if_neg (by omega : ¬ r.val % 8 = 0), if_neg (by omega : ¬ r.val % 8 = 1), h]

theorem exec_dmaDescPark_back (hr : r.val % 8 = 0) (h : s.frontArea (r.val / 8) 3 5 = some a) (ha : a.st = 3) :
    exec (.dmaDescPark r) s = .next ((s.parkArea a).1.legFault a.leg a.b 10 192 (s.parkArea a).2) := by
  simp only [exec, execDmaDescPark, if_pos hr, h, if_pos ha]

/-- A task that runs when its descriptor parks is switched out (R394). -/
theorem parkTask_running {n i c : Nat} {t : Task} (hd : d.task = some i) (ht : s.task i = some t) (hs : t.st = .running) (hc : t.core = some c) :
    s.parkTask n d = s.blockRun c 2 (n * 4096 + d.idx) := by
  simp only [State.parkTask, hd, Option.bind_some, ht, hs, hc, waitDesc]

theorem exec_mmuParkResume_parked (hr : 2 ≤ r.val % 8) (h : (s.dring r.val).descs.find? (fun d => d.phase == 2 && d.cause != 2) = some d) :
    exec (.mmuParkResume r) s = .next ((s.setDesc r.val { d with phase := 0, cause := 0, info := 0 }).bump R.MMU_RESUME_CNT) := by
  simp only [exec, execMmuParkResume, if_neg (by omega : ¬ r.val % 8 ≤ 1), h]

theorem exec_mmuParkResume_none (hr : 2 ≤ r.val % 8) (h : (s.dring r.val).descs.find? (fun d => d.phase == 2 && d.cause != 2) = none) :
    exec (.mmuParkResume r) s = .next s := by
  simp only [exec, execMmuParkResume, if_neg (by omega : ¬ r.val % 8 ≤ 1), h]

theorem exec_mmuParkAbort_parked (hr : 2 ≤ r.val % 8) (h : (s.dring r.val).descs.find? (fun d => d.phase == 2) = some d) :
    exec (.mmuParkAbort r) s = .next ((s.setDesc r.val { d with phase := 3, status := St.fault }).bump R.MMU_ABORT_CNT) := by
  simp only [exec, execMmuParkAbort, if_neg (by omega : ¬ r.val % 8 ≤ 1), h]

/-- A ring with a new setting in range begins anew (R401). -/
theorem ringCfg_dring (s : State) (n : Nat) {x : RingSetup} (h : 4 ≤ x.log2.val) : (s.ringCfg n x).dring n = { s.dring n with
    en := true, ctx := x.ctx.toNat, log2 := x.log2.val, dbase := x.dbase.toNat, cbase := x.cbase.toNat, head := 0, tail := 0, own := [] } := by
  rw [State.ringCfg, if_neg (by omega), dring_setDring_same]

theorem ringCfg_running (s : State) (n : Nat) (x : RingSetup) (c : Nat) : (s.ringCfg n x).running c = s.running c := by
  unfold State.ringCfg
  split <;> rfl

/-- The ring that the firmware has set up takes the descriptors from its old tail on, and the tail (R385, R401). -/
theorem exec_mmuRingTailWrite (r : Fin 256) (cfg : Option RingSetup) (by_ : Option (Fin 128)) (descs : List Bytes) (v : Word) (s0 : State) :
    let s := match cfg with | some c => s0.ringCfg r.val c | none => s0
    let x := s.dring r.val
    let t := descs.zipIdx.foldl (fun (t : State) (p : Bytes × Nat) => t.vwrite noTlb x.ctx (x.dbase + 32 * ((x.tail + p.2) % 2 ^ x.log2)) (p.1.take 32)) s
    exec (.mmuRingTailWrite r cfg by_ descs v) s0 =
      .next ((t.setDring r.val { t.dring r.val with
        tail := v.toNat % 4096 % 2 ^ x.log2, own := x.queued descs.length (by_.bind fun c => (s.running c.val).map (·.1)) }).takeDescs r.val 16) := by
  cases cfg with
  | none => exact rfl
  | some c =>
    simp only [exec, execMmuRingTailWrite, ringCfg_running]

end Rows

section Enable
variable {e : Fin 32} {v : Word} {s : State}

/-! The EN bit of a DMA engine (R599). -/

theorem exec_mmuDmaEnWrite_same (h : v.getLsbD 0 = (s.deng e.val).en) : exec (.mmuDmaEnWrite e v) s = .next s := by
  simp only [exec, execMmuDmaEnWrite, if_pos h]

theorem exec_mmuDmaEnWrite_starts (hv : v.getLsbD 0 = true) (he : (s.deng e.val).en = false) (hst : (s.deng e.val).st = .off) :
    exec (.mmuDmaEnWrite e v) s = .next (((List.range 8).foldl (fun t k => t.takeDescs (8 * e.val + k) 16)
      (s.setDeng e.val { s.deng e.val with en := true, st := .on })).startStages) := by
  simp only [exec, execMmuDmaEnWrite, hv, he, hst, Bool.true_eq_false, if_false, if_true]

theorem exec_mmuDmaEnWrite_stops (hv : v.getLsbD 0 = false) (he : (s.deng e.val).en = true) (hst : (s.deng e.val).st = .on) :
    exec (.mmuDmaEnWrite e v) s = .next ((s.setDeng e.val { s.deng e.val with en := false, st := .stopping }).dengRest e.val) := by
  simp only [exec, execMmuDmaEnWrite, hv, he, hst, Bool.false_eq_true, if_false]

end Enable

end Sys2Proof.Machine

section
open Sys2Proof Sys2Proof.Machine

/-- Settles O51, row by row: the descriptor that runs next, completions, parks, tails and enables. -/
theorem descriptorsRunInTurn : Obligations.DescriptorsRunInTurn := by
  refine ⟨fun r s => ⟨exec_dmaCopy_none, exec_dmaFill_none, exec_dmaTx_none, exec_dmaRx_none, exec_dmaRelease_none⟩,
    fun r s d hl => ⟨fun h => exec_dmaCopy_badLen h hl, fun h => exec_dmaFill_badLen h hl, fun h => exec_dmaRelease_badLen h hl⟩,
    fun r s d h0 h1 h5 => ⟨fun h => exec_dmaCopy_moves h h0 h1 h5, fun h => exec_dmaFill_moves h h0 h1 h5⟩,
    fun r s d h h0 h1 => exec_dmaRelease_lowers h h0 h1,
    fun r s d b h hl hm => ⟨fun flt hg => exec_dmaTx_reads h hl hm b (some flt) hg, fun hg => exec_dmaTx_reads h hl hm b none hg⟩,
    fun r s d => exec_dmaTx_short, fun r s d => nextDesc_rx_frame,
    fun r s t d f cls port used flt h hf => ⟨fun hx => exec_dmaRx_frame h hf hx, fun hx => exec_dmaRx_frame h hf hx, fun hu hx => ?_⟩,
    fun r s d l hr h => ⟨exec_dmaDescComplete_first hr h, exec_dmaDescComplete_runs hr h⟩, fun r s a => exec_dmaDescComplete_back,
    fun r s d => exec_dmaDescPark_fault, fun r s d i c t => parkTask_running, fun r s a => exec_dmaDescPark_back,
    fun r s d => exec_mmuParkResume_parked, fun r s => exec_mmuParkResume_none, fun r s d => exec_mmuParkAbort_parked,
    fun r cfg by_ descs v s0 => ?_, fun r x s hl => ?_, fun e v s => exec_mmuDmaEnWrite_starts, fun e v s => exec_mmuDmaEnWrite_stops,
    fun e v s => exec_mmuDmaEnWrite_same⟩
  · refine ⟨(t.rxLeft r.val (f, cls, port)).abandon r.val used flt, ?_, ?_, fun e he => abandon_descs _ _ he⟩
    · rw [exec_dmaRx_frame h hf hx, if_neg Bool.false_ne_true, if_neg hu]
    · rw [abandon_frames, rxLeft_dring]
  · exact exec_mmuRingTailWrite r cfg by_ descs v s0
  · intro y
    have hy : y = _ := ringCfg_dring s r hl
    rw [hy]
    exact ⟨rfl, rfl, rfl, rfl, rfl, rfl, rfl⟩

end


namespace Sys2Proof.Machine

open Sys2Proof

/-! Tandem chains: routes, rings, paths and migrations (R439-R455). -/

theorem exec_tandRoute (q : Req) (s : State) : exec (.tandRoute q) s = .next (runOp opTandRoute 0x0B01 q s) := rfl
theorem exec_tandRing (q : Req) (s : State) : exec (.tandRing q) s = .next (runOp opTandRing 0x0B02 q s) := rfl
theorem exec_tandExport (q : Req) (s : State) : exec (.tandExport q) s = .next (runOp opTandExport 0x0B03 q s) := rfl
theorem exec_tandExportDel (q : Req) (s : State) : exec (.tandExportDel q) s = .next (runOp opTandExportDel 0x0B04 q s) := rfl
theorem exec_tandImport (q : Req) (s : State) : exec (.tandImport q) s = .next (runOp opTandImport 0x0B05 q s) := rfl
theorem exec_tandImportDel (q : Req) (s : State) : exec (.tandImportDel q) s = .next (runOp opTandImportDel 0x0B06 q s) := rfl
theorem exec_tandConfImport (q : Req) (s : State) : exec (.tandConfImport q) s = .next (runOp opTandConfImport 0x0B07 q s) := rfl
theorem exec_tandMigrateOut (q : Req) (s : State) : exec (.tandMigrateOut q) s = .next (runOp opTandMigrateOut 0x0B08 q s) := rfl
theorem exec_tandMigrateIn (q : Req) (s : State) : exec (.tandMigrateIn q) s = .next (runOp opTandMigrateIn 0x0B09 q s) := rfl
theorem exec_tandStatus (q : Req) (s : State) : exec (.tandStatus q) s = .next (runOp opTandStatus 0x0B81 q s) := rfl

section congr
variable {m : Nat} {s t : State} (h : Aside m s t)
include h

theorem Aside.setTnd (x : Tnd) : Aside m (s.setTnd x) (t.setTnd x) := h.withTnd x
theorem Aside.tlink_eq (p : Nat) : t.tlink p = s.tlink p := by unfold State.tlink; rw [h.tnd_eq]
theorem Aside.setTlink (p : Nat) (x : TLink) : Aside m (s.setTlink p x) (t.setTlink p x) := by
  unfold State.setTlink
  rw [h.tnd_eq]
  exact h.setTnd _

theorem Aside.blockedAt_eq (p : Nat) : t.blockedAt p = s.blockedAt p := by
  unfold State.blockedAt State.ringPorts
  rw [h.flag_eq (f := R.TND_RING_EN) (by decide), h.fld_eq (f := R.TND_RING_PORT_A) (by decide),
    h.fld_eq (f := R.TND_RING_PORT_B) (by decide), h.fld_eq (f := R.TND_RING_BLOCK) (by decide)]

theorem Aside.linkTo (p st : Nat) : Aside m (s.linkTo p st) (t.linkTo p st) := by
  unfold State.linkTo
  rw [h.tlink_eq]
  have hr := (h.setTlink p { s.tlink p with st := st }).raise (a := R.TND_EVT) (by decide) (by decide) 1
  exact aside_ite h (aside_ite (hr.raise (by decide) (by decide) 8) hr)

theorem Aside.reblock : Aside m s.reblock t.reblock := h.foldl _ fun u v p hu => by
  dsimp only
  rw [hu.tlink_eq, hu.blockedAt_eq]
  exact aside_ite (hu.linkTo _ _) hu

theorem Aside.portPeak_eq (p : Nat) : t.portPeak p = s.portPeak p := by
  have hc (e : Nat) : t.portCharge p e = s.portCharge p e := by
    simp only [State.portCharge, State.expCharge, State.expRate, h.tnd_eq, h.leg_eq, h.period_eq, h.legTmpl_eq]
  simp only [State.portPeak, h.horizon_eq, hc]

end congr

section face
variable (s : State) (m : Nat)

theorem linkTo_face (p st : Nat) : ((s.linkTo p st).sess m).face = (s.sess m).face := by
  have hl (x : TLink) : (s.setTlink p x).sess m = s.sess m := rfl
  simp only [State.linkTo]
  split
  · rfl
  · split
    · rw [raise_face, raise_face, hl]
    · rw [raise_face, hl]

theorem reblock_face : (s.reblock.sess m).face = (s.sess m).face := by
  have hf (l : List Nat) (t : State) : ((l.foldl (fun (t : State) p => if (t.tlink p).st = 1 ∨ (t.tlink p).st = 3 then
      t.linkTo p (if t.blockedAt p then 3 else 1) else t) t).sess m).face = (t.sess m).face := by
    induction l generalizing t with
    | nil => rfl
    | cons p l ih =>
      refine (ih _).trans ?_
      dsimp only
      split
      · exact linkTo_face _ _ _ _
      · rfl
  exact hf _ s

end face

/-- A change of the tandem block alone. -/
theorem acts_setTnd {d : OpDef} {op : Nat} {plan : List Nat} {q : Req} {s : State} {f : Tnd → Tnd}
    (happ : ∀ c v, d.app c plan v q.payload = Done.ok (v.setTnd (f v.tnd))) : Acts d op plan q s (s.setTnd (f s.tnd)) St.ok 0 [] :=
  acts_of_aside (f := fun v => v.setTnd (f v.tnd)) (fun c v _ => happ c v) (fun v hv => by rw [hv.tnd_eq]; exact hv.setTnd _) fun _ => rfl

theorem tandRoute_does : Does true opTandRoute 0x0B01 .tandRoute
    (done fun q s => s.setTnd { s.tnd with routes := kset s.tnd.routes (num q.payload 0 2) (routeOf q.payload) }) :=
  does_journaled exec_tandRoute (fun _ => rfl) rfl fun q _ _ _ =>
    acts_setTnd (f := fun t => { t with routes := kset t.routes (num q.payload 0 2) (routeOf q.payload) }) fun _ _ => rfl

/-- The tandem block with its routes on their primaries and no link failed (R444). -/
def Tnd.onPrimaries (t : Tnd) : Tnd :=
  { t with routes := t.routes.map fun r => (r.1, { r.2 with alt := false })
           links := t.links.map fun l => (l.1, { l.2 with failed := false })
           seenRf := [] }

/-- A part whose ring is set by a payload (R443, R444). -/
def State.ringSet (s : State) (b : Bytes) : State :=
  let t := s.setReg R.TND_RING (2 ^ 31 + u8 b 0 * 2 ^ 24 + u8 b 1 * 2 ^ 20 + u8 b 2 * 2 ^ 16)
  ((t.setTnd t.tnd.onPrimaries).setFld R.TND_STAT_RING_FAILED 0).reblock

theorem Aside.ringSet {m : Nat} {s t : State} (h : Aside m s t) (b : Bytes) : Aside m (s.ringSet b) (t.ringSet b) := by
  have hr := h.setReg R.TND_RING (2 ^ 31 + u8 b 0 * 2 ^ 24 + u8 b 1 * 2 ^ 20 + u8 b 2 * 2 ^ 16)
  simp only [State.ringSet]
  rw [hr.tnd_eq]
  exact ((hr.setTnd _).setFld (by decide) 0).reblock

theorem ringSet_face (s : State) (b : Bytes) (m : Nat) : ((s.ringSet b).sess m).face = (s.sess m).face := by
  simp only [State.ringSet]
  rw [reblock_face]
  rfl

theorem tandRing_app (c : Ctx) (plan : List Nat) (s : State) (b : Bytes) : opTandRing.app c plan s b = Done.ok (s.ringSet b) := by
  simp only [opTandRing, State.ringSet, Tnd.onPrimaries]

theorem tandRing_does : Does true opTandRing 0x0B02 .tandRing (done fun q s => s.ringSet q.payload) :=
  does_journaled exec_tandRing (fun _ => rfl) rfl fun q s plan _ => by
    dsimp only [done]
    exact acts_of_aside (f := fun v => v.ringSet q.payload) (fun c v _ => tandRing_app c plan v q.payload) (fun _ hv => hv.ringSet q.payload)
      fun v => ringSet_face v q.payload q.mbox.val

/-- An operation that notes something beside the sessions and then arms its change acts so on every state that differs aside. -/
theorem acts_noted {d : OpDef} {op l : Nat} {plan : List Nat} {q : Req} {s : State} {T : Option Inst} {r : List Nat} {note : State → State}
    (happ : ∀ c v, Aside q.mbox.val s v → d.app c plan v q.payload =
      ⟨((note v).armCmd c l T q.payload r).1, ((note v).armCmd c l T q.payload r).2.status, 0, [], false⟩)
    (hn : ∀ v, Aside q.mbox.val s v → Aside q.mbox.val (note s) (note v))
    (hs : ∀ v : State, ((note v).sess q.mbox.val).face = (v.sess q.mbox.val).face) :
    Acts d op plan q s (armedWith op l T r q (note s)).1 (armedWith op l T r q (note s)).2.1 0 [] := by
  intro v c hv hf hm _ ho _
  rw [happ c v hv]
  obtain ⟨w, hw, ha, hface⟩ := armed_acts rfl (hn v hv) (by rw [hs, hs, hf]) ho hm
  exact ⟨w, hw, ha, hface.trans (hs v)⟩

/-- An armed operation of a tandem path: what it notes, and its boundary (R453). -/
theorem tandOp_notes {len tOff op : Nat} {chk : State → Bytes → Chk} {note : State → Bytes → State} {mk : Req → Instr} {P : Req → State → Prop}
    (hx : ∀ q s, exec (mk q) s = .next (runOp (tandOp len tOff chk note) op q s)) (ht : opTable op = some (tandOp len tOff chk note))
    (hn : ∀ (q : Req) s v, Aside q.mbox.val s v → Aside q.mbox.val (note s q.payload) (note v q.payload))
    (hs : ∀ (q : Req) (v : State), ((note v q.payload).sess q.mbox.val).face = (v.sess q.mbox.val).face) :
    DoesIf P true (tandOp len tOff chk note) op mk fun q s =>
      armedWith op (legOf q.payload) (tOf (sub q.payload tOff 12)) [] q (note s q.payload) :=
  doesIf_journaled hx (fun _ _ _ _ _ => rfl) ht fun q s _ _ _ =>
    acts_noted (note := fun v => note v q.payload) (fun _ _ _ => rfl) (hn q s) (hs q)

/-- What TAND_EXPORT notes: its leg's path to a device, unless that is there (R448). -/
def State.exportNoted (s : State) (b : Bytes) : State :=
  if s.tnd.exps.any (fun x => x.leg == legOf b && x.dev == num b 4 2) then s
  else s.setTnd { s.tnd with exps := s.tnd.exps ++ [⟨legOf b, num b 4 2, false⟩] }

theorem Aside.exportNoted {m : Nat} {s t : State} (h : Aside m s t) (b : Bytes) : Aside m (s.exportNoted b) (t.exportNoted b) := by
  unfold State.exportNoted
  rw [h.tnd_eq]
  exact aside_ite h (h.setTnd _)

theorem exportNoted_sess (s : State) (b : Bytes) (m : Nat) : (s.exportNoted b).sess m = s.sess m := by
  unfold State.exportNoted
  split <;> rfl

theorem tandExport_notes {P : Req → State → Prop} : DoesIf P true opTandExport 0x0B03 .tandExport fun q s =>
    armedWith 0x0B03 (legOf q.payload) (tOf (sub q.payload 8 12)) [] q (s.exportNoted q.payload) :=
  tandOp_notes exec_tandExport rfl (fun q _ _ h => h.exportNoted q.payload) fun q v => congrArg Session.face (exportNoted_sess v q.payload _)

theorem exportNoted_new {s : State} {b : Bytes} (h : s.tnd.exps.any (fun x => x.leg == legOf b && x.dev == num b 4 2) = false) :
    s.exportNoted b = s.setTnd { s.tnd with exps := s.tnd.exps ++ [⟨legOf b, num b 4 2, false⟩] } := by
  rw [State.exportNoted, h]
  rfl

theorem exportNoted_there {s : State} {b : Bytes} (h : s.tnd.exps.any (fun x => x.leg == legOf b && x.dev == num b 4 2) = true) :
    s.exportNoted b = s := if_pos h

/-- What a command does under a condition, where its outcome may be written otherwise. -/
theorem DoesIf.congr {P : Req → State → Prop} {jrn : Bool} {d : OpDef} {op : Nat} {mk : Req → Instr} {out out' : Req → State → State × Nat × Bytes}
    (h : DoesIf P jrn d op mk out) (e : ∀ q s, P q s → out q s = out' q s) : DoesIf P jrn d op mk out' :=
  fun q s plan ha hP hr => e q s hP ▸ h q s plan ha hP hr

theorem tandExport_new : DoesIf (fun q s => s.tnd.exps.any (fun x => x.leg == legOf q.payload && x.dev == num q.payload 4 2) = false) true
    opTandExport 0x0B03 .tandExport (fun q s => armedWith 0x0B03 (legOf q.payload) (tOf (sub q.payload 8 12)) [] q
      (s.setTnd { s.tnd with exps := s.tnd.exps ++ [⟨legOf q.payload, num q.payload 4 2, false⟩] })) :=
  tandExport_notes.congr fun _ _ h => by rw [exportNoted_new h]

theorem tandExport_there : DoesIf (fun q s => s.tnd.exps.any (fun x => x.leg == legOf q.payload && x.dev == num q.payload 4 2) = true) true
    opTandExport 0x0B03 .tandExport (fun q s => armedWith 0x0B03 (legOf q.payload) (tOf (sub q.payload 8 12)) [] q s) :=
  tandExport_notes.congr fun _ _ h => by rw [exportNoted_there h]

theorem tandExportDel_arms : Does true opTandExportDel 0x0B04 .tandExportDel
    (fun q s => armedWith 0x0B04 (legOf q.payload) (tOf (sub q.payload 8 12)) [] q s) :=
  tandOp_notes exec_tandExportDel rfl (fun _ _ _ h => h) fun _ _ => rfl

theorem tandImport_notes : Does true opTandImport 0x0B05 .tandImport (fun q s =>
    let b := q.payload
    let i : TImport := ⟨legOf b, num b 4 2, num b 8 4, u8 b 6, u8 b 7, num b 12 2, u8 b 14, false⟩
    armedWith 0x0B05 (legOf b) (tOf (sub b 16 12)) [] q (s.setTnd { s.tnd with imps := s.tnd.imps.filter (fun y => y.leg != legOf b) ++ [i] })) :=
  tandOp_notes exec_tandImport rfl (fun _ _ _ h => by simp only [h.tnd_eq]; exact h.setTnd _) fun _ _ => rfl

theorem tandImportDel_arms : Does true opTandImportDel 0x0B06 .tandImportDel
    (fun q s => armedWith 0x0B06 (legOf q.payload) (tOf (sub q.payload 4 12)) [] q s) :=
  tandOp_notes exec_tandImportDel rfl (fun _ _ _ h => h) fun _ _ => rfl

theorem tandMigrateOut_notes : Does true opTandMigrateOut 0x0B08 .tandMigrateOut (fun q s =>
    armedWith 0x0B08 (legOf q.payload) (tOf (sub q.payload 12 12)) [] q
      (s.setTnd { s.tnd with outs := s.tnd.outs ++ [⟨legOf q.payload, num q.payload 4 2, num q.payload 8 4, none, []⟩] })) :=
  tandOp_notes exec_tandMigrateOut rfl (fun _ _ _ h => by simp only [h.tnd_eq]; exact h.setTnd _) fun _ _ => rfl

/-- What TAND_CONF_IMPORT notes of a conference: the remote talker, and its entry (R451). -/
def State.talkerNoted (s : State) (b : Bytes) (x : Conf) : State :=
  { s with
    tnd := { s.tnd with cimps := s.tnd.cimps ++ [⟨num b 0 2, num b 2 2, num b 4 4, num b 8 2, false⟩] }
    confs := kset s.confs (num b 0 2) { x with phi := some (num b 8 2) } }

theorem Aside.talkerNoted {m : Nat} {s t : State} (h : Aside m s t) (b : Bytes) (x : Conf) : Aside m (s.talkerNoted b x) (t.talkerNoted b x) := by
  unfold State.talkerNoted
  rw [h.tnd_eq, h.confs_eq]
  exact (h.withTnd { s.tnd with cimps := s.tnd.cimps ++ [⟨num b 0 2, num b 2 2, num b 4 4, num b 8 2, false⟩] }).withConfs
    (kset s.confs (num b 0 2) { x with phi := some (num b 8 2) })

theorem tandConfImport_app {c : Ctx} {plan : List Nat} {v : State} {b : Bytes} {x : Conf} (h : kget v.confs (num b 0 2) = some x) :
    opTandConfImport.app c plan v b = ⟨((v.talkerNoted b x).armCmd c 0 (tOf (sub b 12 12)) b []).1,
      ((v.talkerNoted b x).armCmd c 0 (tOf (sub b 12 12)) b []).2.status, 0, [], false⟩ := by
  have h1 (y : Tnd) : kget (v.setTnd y).confs (num b 0 2) = some x := h
  simp only [opTandConfImport, h1]
  rfl

theorem tandConfImport_notes (q : Req) (s : State) (c : Conf) (plan : List Nat) (ha : Accepted opTandConfImport 0x0B07 q s plan) (hr : Room q s)
    (hc : kget s.confs (num q.payload 0 2) = some c) :
    let e := armedWith 0x0B07 0 (tOf (sub q.payload 12 12)) [] q (s.talkerNoted q.payload c)
    Completes true (.tandConfImport q) 0x0B07 q s e.1 e.2.1 0 [] :=
  completes_journaled (exec_tandConfImport q s) ha rfl (Nat.zero_le _) hr rfl (acts_noted (note := fun v => v.talkerNoted q.payload c)
    (fun _ v hv => tandConfImport_app (by rw [hv.confs_eq, hc])) (fun _ hv => hv.talkerNoted _ _) fun _ => rfl)

/-! What a charge leaves of the swath timer: the boundary that a change is armed for is not moved by it. -/

/-- `t` arms what `s` arms: the boundary to come, the length and the phase are the same. -/
structure ArmsAlike (s t : State) : Prop where
  begun : t.swt.begun = s.swt.begun
  nextT : t.swt.nextT = s.swt.nextT
  firstT : t.swt.firstT = s.swt.firstT
  bLoc : t.swt.bLoc = s.swt.bLoc
  emitAt : t.swt.emitAt = s.swt.emitAt
  tmu : t.tmu = s.tmu
  len : t.fld R.SWT_CFG_LEN = s.fld R.SWT_CFG_LEN
  phase : t.fld R.SWT_STAT_PHASE = s.fld R.SWT_STAT_PHASE
  valid : t.fld R.TMU_STAT_VALID = s.fld R.TMU_STAT_VALID

theorem ArmsAlike.trans {s t u : State} (h : ArmsAlike s t) (k : ArmsAlike t u) : ArmsAlike s u :=
  ⟨k.begun.trans h.begun, k.nextT.trans h.nextT, k.firstT.trans h.firstT, k.bLoc.trans h.bLoc, k.emitAt.trans h.emitAt, k.tmu.trans h.tmu,
    k.len.trans h.len, k.phase.trans h.phase, k.valid.trans h.valid⟩

theorem ArmsAlike.arm_eq {s t : State} (h : ArmsAlike s t) (T : Option Inst) : t.arm T = s.arm T := by
  have hl : t.lenI = s.lenI := by unfold State.lenI State.lenNs; rw [h.len]
  have hp : t.pastDeadline = s.pastDeadline := by
    unfold State.pastDeadline State.phase State.elapsed; rw [h.phase, h.begun, h.emitAt, h.bLoc, h.tmu]
  have hb : t.nextB = s.nextB := by unfold State.nextB; rw [h.begun, h.nextT, h.firstT, h.valid]
  have hn : t.now = s.now := by unfold State.now; rw [h.tmu]
  have hm : t.missesNext = s.missesNext := by unfold State.missesNext; rw [hp, h.begun]
  unfold State.arm State.reachAt
  rw [hl, hb, hn, hm]

/-- A field beside the swath length, the phase and VALID is written. -/
theorem armsAlike_setFld (s : State) {f : Fld} (v : Nat) (h1 : f.Apart R.SWT_CFG_LEN) (h2 : f.Apart R.SWT_STAT_PHASE) (h3 : f.Apart R.TMU_STAT_VALID) :
    ArmsAlike s (s.setFld f v) :=
  ⟨rfl, rfl, rfl, rfl, rfl, rfl, fld_setFld_apart h1 (by decide), fld_setFld_apart h2 (by decide), fld_setFld_apart h3 (by decide)⟩

theorem armsAlike_addLoad (s : State) (c : Cost) (p phi : Nat) (add : Bool) : ArmsAlike s (s.addLoad c p phi add) :=
  ⟨rfl, rfl, rfl, rfl, rfl, rfl, rfl, rfl, rfl⟩

theorem armsAlike_setLeg (s : State) (l : Nat) (x : Leg) : ArmsAlike s (s.setLeg l x) := ⟨rfl, rfl, rfl, rfl, rfl, rfl, rfl, rfl, rfl⟩

/-- The three counters of the legs that are charged are apart from what arming reads. -/
theorem armsAlike_counted (s : State) (a b c : Nat) :
    ArmsAlike s (((s.setFld R.SWT_SLOTS_USED_USED a).setFld R.SWT_LEGS_ALL b).setFld R.SWT_LEGS_FULL_FULL c) :=
  ((armsAlike_setFld _ _ (.inl (by decide)) (.inl (by decide)) (.inl (by decide))).trans
    (armsAlike_setFld _ _ (.inl (by decide)) (.inl (by decide)) (.inl (by decide)))).trans
    (armsAlike_setFld _ _ (.inl (by decide)) (.inl (by decide)) (.inl (by decide)))

theorem armsAlike_place (s : State) (c : Cost) (p phi : Nat) : ArmsAlike s (s.place c p phi) :=
  (armsAlike_addLoad s c p phi true).trans (armsAlike_counted _ _ _ _)

theorem armsAlike_unplace (s : State) (c : Cost) (p phi : Nat) : ArmsAlike s (s.unplace c p phi) :=
  (armsAlike_addLoad s c p phi false).trans (armsAlike_counted _ _ _ _)

theorem armsAlike_raise (s : State) : ArmsAlike s (s.raise R.SWT_EVT 2) := by
  have hr : Only [R.SWT_EVT] s (s.raise R.SWT_EVT 2) := only_raise (List.mem_singleton_self _)
  have hs : (s.raise R.SWT_EVT 2).swt = s.swt := (congrArg State.swt hr.rest : (s.raise R.SWT_EVT 2).bare.swt = s.bare.swt)
  exact ⟨by rw [hs], by rw [hs], by rw [hs], by rw [hs], by rw [hs], hr.tmu_eq, fld_raise (by decide) (by decide), fld_raise (by decide) (by decide),
    fld_raise (by decide) (by decide)⟩

theorem armsAlike_updOver (s : State) : ArmsAlike s s.updOver := by
  have hf := armsAlike_setFld s (f := R.SWT_STAT_OVER) (b2n (!s.overEntries.isEmpty)) (.inl (by decide)) (.inr (by decide)) (.inl (by decide))
  have ho : ArmsAlike s ((s.setFld R.SWT_STAT_OVER (b2n (!s.overEntries.isEmpty))).setSwt { s.swt with overs := s.overEntries }) :=
    ⟨rfl, rfl, rfl, rfl, rfl, rfl, hf.len, hf.phase, hf.valid⟩
  simp only [State.updOver]
  split
  · exact ho.trans (armsAlike_raise _)
  · exact ho

theorem armsAlike_went (s : State) (f : FnId) (a b : FnState) : ArmsAlike s (s.went f a b) := ⟨rfl, rfl, rfl, rfl, rfl, rfl, rfl, rfl, rfl⟩

theorem armsAlike_charge (s : State) (l : Nat) (c : Cost) : ArmsAlike s (s.charge l c) := by
  simp only [State.charge]
  split
  · exact (((armsAlike_unplace s _ _ _).trans (armsAlike_place _ _ _ _)).trans (armsAlike_setLeg _ _ _)).trans (armsAlike_updOver _)
  · exact ((armsAlike_place s _ _ _).trans (armsAlike_setLeg _ _ _)).trans (armsAlike_updOver _)

/-- The leg that a migration in admits at its source's offset (R452). -/
def State.migrant (s : State) (l phi : Nat) : Leg :=
  { Leg.init with cfg := (s.leg l).cfg, st := .starting, f := (s.legTmpl l).f, phi := phi, cluster := s.homeCluster phi }

/-- A part that has admitted a leg that migrates in. -/
def State.migrantIn (s : State) (l phi : Nat) : State :=
  ((s.setLeg l (s.migrant l phi)).charge l ((s.legTmpl l).cost s.sets (s.leg l).cfg.echo.tail)).went (.leg l) .off .starting

theorem Aside.migrantIn {m : Nat} {s t : State} (h : Aside m s t) (l phi : Nat) : Aside m (s.migrantIn l phi) (t.migrantIn l phi) := by
  simp only [State.migrantIn, State.migrant, h.leg_eq, h.legTmpl_eq, h.sets_eq, h.homeCluster_eq]
  exact ((h.setLeg _ _).charge _ _).went _ _ _

theorem migrantIn_face (s : State) (l phi m : Nat) : ((s.migrantIn l phi).sess m).face = (s.sess m).face := by
  obtain ⟨w, hw⟩ := charge_only (s.setLeg l (s.migrant l phi)) l ((s.legTmpl l).cost s.sets (s.leg l).cfg.echo.tail)
  exact (hw.went (.leg l) .off .starting).face_eq m

/-- The migration is noted with the boundary that it is armed for. -/
def State.migrationNoted (s : State) (b : Bytes) (w : When) : State :=
  s.setTnd { s.tnd with ins := s.tnd.ins ++ [⟨legOf b, num b 4 2, num b 8 4, w, none, []⟩] }

theorem Aside.migrationNoted {m : Nat} {s t : State} (h : Aside m s t) (b : Bytes) (w : When) :
    Aside m (s.migrationNoted b w) (t.migrationNoted b w) := by
  unfold State.migrationNoted
  rw [h.tnd_eq]
  exact h.setTnd _

theorem tandMigrateIn_app (c : Ctx) (v : State) (b : Bytes) (phi : Nat) : opTandMigrateIn.app c [phi] v b =
    (let a := (v.migrantIn (legOf b) phi).armCmd c (legOf b) (tOf (sub b 16 12)) b [phi]
    ⟨a.1.migrationNoted b a.2, a.2.status, 0, [], false⟩) := by
  have hp : FnState.off.path .starting false = [.starting] := by decide
  simp only [opTandMigrateIn, List.headD_cons, report_eq_went hp, State.migrantIn, State.migrant, State.migrationNoted]

/-- A migration is armed for a boundary that what it notes does not move. -/
theorem arm_migrantIn (s : State) (l phi : Nat) (T : Option Inst) : (s.migrantIn l phi).arm T = s.arm T :=
  (((armsAlike_setLeg s l (s.migrant l phi)).trans (armsAlike_charge _ l _)).trans (armsAlike_went _ _ _ _)).arm_eq T

theorem tandMigrateIn_notes (q : Req) (s : State) (phi : Nat) (ha : Accepted opTandMigrateIn 0x0B09 q s [phi]) (hr : Room q s) :
    let e := armedWith 0x0B09 (legOf q.payload) (tOf (sub q.payload 16 12)) [phi] q (s.migrantIn (legOf q.payload) phi)
    Completes true (.tandMigrateIn q) 0x0B09 q s (e.1.migrationNoted q.payload (s.arm (tOf (sub q.payload 16 12)))) e.2.1 0 [] := by
  refine completes_journaled (exec_tandMigrateIn q s) ha rfl (Nat.zero_le _) hr rfl fun v c hv hf hm _ ho _ => ?_
  have hin := hv.migrantIn (legOf q.payload) phi
  have hface : ((v.migrantIn (legOf q.payload) phi).sess q.mbox.val).face = ((s.migrantIn (legOf q.payload) phi).sess q.mbox.val).face := by
    rw [migrantIn_face, migrantIn_face, hf]
  obtain ⟨w, hw, haw, hfw⟩ := armed_acts (l := legOf q.payload) (T := tOf (sub q.payload 16 12)) (plan := [phi]) (c := c) rfl hin hface ho hm
  rw [Done.mk.injEq] at hw
  obtain ⟨hw1, hw2, -, -, -⟩ := hw
  have hwhen : ((v.migrantIn (legOf q.payload) phi).armCmd c (legOf q.payload) (tOf (sub q.payload 16 12)) q.payload [phi]).2 =
      s.arm (tOf (sub q.payload 16 12)) := by rw [← arm_migrantIn s (legOf q.payload) phi, ← hin.arm_eq]; rfl
  refine ⟨w.migrationNoted q.payload (s.arm (tOf (sub q.payload 16 12))), ?_, haw.migrationNoted _ _, ?_⟩
  · rw [tandMigrateIn_app]
    dsimp only
    rw [hw1, hw2, hwhen]
  · exact hfw.trans (migrantIn_face _ _ _ _)

theorem tandStatus_does : Does false opTandStatus 0x0B81 .tandStatus (replied fun _ s =>
    (List.range 8).flatMap (fun p => be 1 (s.tlink p).st) ++ (List.range 8).flatMap fun p => be 4 (s.portPeak p)) :=
  does_direct exec_tandStatus (fun _ => rfl) fun _ _ _ _ => acts_read fun _ _ hv => by
    simp only [opTandStatus, OpDef.read, replied, hv.tlink_eq, hv.portPeak_eq]

/-- The tandem block's configuration is stored as it is written (R441, R455). -/
theorem effect_tnd {a : Nat} (ha : a / 0x10000 = 0xC) (s : State) (old v : Nat) : s.effect a old v = s := by
  simp [State.effect, ha]

theorem tnd_stored {mk : RegCmd → Instr} {a v : Nat} (hx : ∀ c s, exec (mk c) s = .next (writeOne c a v s)) (ha : a / 0x10000 = 0xC)
    (hr : (regAt a).isSome) (hv : v < 2 ^ 32) : Writes mk (fun _ => a) (fun _ => v) fun s => s.stored a v :=
  writes_of_effect hx ⟨hr, by omega, by omega⟩ hv (fun _ _ _ _ h => by simpa only [effect_tnd ha] using h)
    (fun _ _ _ => by rw [effect_tnd ha]) fun _ => effect_tnd ha _ _ _

theorem tndDevno_stored (v : Word) : Writes (fun c => .tndDevnoWrite c v) (fun _ => R.TND_CFG) (fun _ => v.toNat) fun s => s.stored R.TND_CFG v.toNat :=
  tnd_stored (fun _ _ => rfl) rfl (by decide) v.isLt

theorem tndWin_stored (v : Word) : Writes (fun c => .tndWinWrite c v) (fun _ => R.TND_WIN) (fun _ => v.toNat) fun s => s.stored R.TND_WIN v.toNat :=
  tnd_stored (fun _ _ => rfl) rfl (by decide) v.isLt

end Sys2Proof.Machine

section

open Sys2Proof Sys2Proof.Machine

/-- Settles O46: an operation notes the same on every state that differs from the accepted one in what its reply is kept in, and is armed for the
boundary of that state. -/
theorem tandemPathsAreSetAndArmed : Obligations.TandemPathsAreSetAndArmed := by
  unfold Obligations.TandemPathsAreSetAndArmed
  exact ⟨tandRoute_does, tandRing_does, tandExport_new, tandExport_there, tandExportDel_arms, tandImport_notes, tandImportDel_arms,
    tandConfImport_notes, tandMigrateOut_notes, tandMigrateIn_notes, tandStatus_does, tndDevno_stored, tndWin_stored⟩

end


namespace Sys2Proof.Machine

open Sys2Proof

/-! Pins, watchdogs and the thermal reset (R524, R539, R551, R576, R577, R588, R589). -/

/-- A part held in reset keeps of a state what survives: `s` may differ from it in its pins and in what the last start was about. -/
theorem wiped_held {s t : State} (hp : t.pending = s.pending) (hf : t.free = s.free) (hn : t.nv = s.nv) : Wiped s t.held := by
  rw [Wiped, State.held, hp, hf, hn]

@[simp] theorem held_mode (s : State) : s.held.mode = .reset := rfl
@[simp] theorem held_pins (s : State) : s.held.pins = { s.pins with thermN := !s.boot.hot, faultN := !s.boot.hot } := rfl
@[simp] theorem held_risen (s : State) : s.held.boot.risen = s.boot.risen := rfl

/-- The part where a restart finds that its pins let a start begin. -/
theorem restart_of_run {s : State} (h : s.pins.run = true) (c : Nat) :
    s.restart c = { s.held with mode := .starting, boot := { s.held.boot with cause := c, risen := false } } := if_pos h

theorem restart_of_not_run {s : State} (h : s.pins.run = false) (c : Nat) : s.restart c = s.held := if_neg (by simp [h])

@[simp] theorem restart_pins (s : State) (c : Nat) : (s.restart c).pins = { s.pins with thermN := !s.boot.hot, faultN := !s.boot.hot } := by
  cases h : s.pins.run
  · rw [restart_of_not_run h]
    rfl
  · rw [restart_of_run h]
    rfl

theorem wiped_restart {s t : State} (hp : t.pending = s.pending) (hf : t.free = s.free) (hn : t.nv = s.nv) (c : Nat) : Wiped s (t.restart c) := by
  cases h : t.pins.run
  · rw [restart_of_not_run h]
    exact wiped_held hp hf hn
  · rw [restart_of_run h, Wiped, State.held, hp, hf, hn]

/-- A start of its cause begins. -/
theorem restart_starts {s : State} (h : s.pins.run = true) (c : Nat) : (s.restart c).mode = .starting ∧ (s.restart c).boot.cause = c := by
  rw [restart_of_run h]
  exact ⟨rfl, rfl⟩

theorem restart_holds {s : State} (h : s.pins.run = false) (c : Nat) : (s.restart c).mode = .reset ∧ (s.restart c).boot.risen = s.boot.risen := by
  rw [restart_of_not_run h]
  exact ⟨rfl, rfl⟩

section pins
variable (x : Straps) (s : State)

/-- PWRGOOD has risen, and the straps are sampled (R576, R588). -/
def State.powered : State :=
  { s with pins := { s.pins with pwrgood := true, bootsel := x.bootsel, i2cadr := x.i2cadr }, boot := { s.boot with risen := true } }

/-- RESET_N is released, and the straps are sampled; what a thermal reset held low is released too (R539, R576). -/
def State.released : State :=
  { s with pins := { s.pins with resetN := true, bootsel := x.bootsel, i2cadr := x.i2cadr, thermN := true, faultN := true }
           boot := { s.boot with hot := false } }

/-- TEST_EN is low again (R577). -/
def State.untested : State := { s with pins := { s.pins with testEn := false, bootsel := x.bootsel } }

variable {x s}

theorem exec_pwrgoodRise (h : s.pins.pwrgood = false) : exec (.pwrgoodRise x) s = .next ((s.powered x).restart 0) :=
  congrArg Host.Outcome.next (if_neg (by simp [h]))

theorem exec_resetNRelease (h : s.pins.resetN = false) : exec (.resetNRelease x) s = .next ((s.released x).restart (if s.boot.risen then 0 else 1)) :=
  congrArg Host.Outcome.next (if_neg (by simp [h]))

theorem exec_testEnRelease (h : s.pins.testEn = true) : exec (.testEnRelease x) s = .next ((s.untested x).restart (if s.boot.risen then 0 else 1)) :=
  congrArg Host.Outcome.next (if_pos h)

theorem exec_pwrgoodFall (h : s.pins.pwrgood = true) : exec .pwrgoodFall s = .next (s.setPins { s.pins with pwrgood := false }).held :=
  congrArg Host.Outcome.next (if_pos h)

theorem exec_resetNAssert (h : s.pins.resetN = true) : exec .resetNAssert s = .next (s.setPins { s.pins with resetN := false }).held :=
  congrArg Host.Outcome.next (if_pos h)

theorem exec_testEnAssert (h : s.pins.testEn = false) : exec .testEnAssert s = .next (s.setPins { s.pins with testEn := true }).held :=
  congrArg Host.Outcome.next (if_neg (by simp [h]))

theorem exec_kathirelWatchdog (h : s.mode = .service) : exec .kathirelWatchdog s = .next (s.restart 3) := congrArg Host.Outcome.next (if_pos h)

/-- The part is found too hot (R539). -/
def State.tooHot (s : State) : State := { s with boot := { s.boot with hot := true } }

theorem exec_overTempReset (h : s.mode ≠ .reset) : exec .overTempReset s = .next (s.tooHot.restart 4) := congrArg Host.Outcome.next (if_neg h)

theorem powered_run : (s.powered x).pins.run = (s.pins.resetN && !s.pins.testEn) := rfl
theorem released_run : (s.released x).pins.run = (s.pins.pwrgood && !s.pins.testEn) := by simp [State.released, Pins.run]
theorem untested_run : (s.untested x).pins.run = (s.pins.pwrgood && s.pins.resetN) := by simp [State.untested, Pins.run]

theorem pwrgoodRise_starts (x : Straps) (s : State) (h : s.pins.pwrgood = false) : ∃ t, exec (.pwrgoodRise x) s = .next t ∧ Wiped s t ∧
    t.pins.pwrgood = true ∧ t.pins.resetN = s.pins.resetN ∧ t.pins.bootsel = x.bootsel ∧ t.pins.i2cadr = x.i2cadr ∧
    (if s.pins.resetN = true ∧ s.pins.testEn = false then t.mode = .starting ∧ t.boot.cause = 0 else t.mode = .reset ∧ t.boot.risen = true) := by
  refine ⟨_, exec_pwrgoodRise h, wiped_restart rfl rfl rfl 0, by simp [State.powered], by simp [State.powered], by simp [State.powered],
    by simp [State.powered], ?_⟩
  split
  case isTrue hr => exact restart_starts (by simp [powered_run, hr]) 0
  case isFalse hr => exact restart_holds (by simpa [powered_run] using hr) 0

theorem resetNRelease_starts (x : Straps) (s : State) (h : s.pins.resetN = false) : ∃ t, exec (.resetNRelease x) s = .next t ∧ Wiped s t ∧
    t.pins.resetN = true ∧ t.pins.bootsel = x.bootsel ∧ t.pins.i2cadr = x.i2cadr ∧ t.pins.thermN = true ∧ t.pins.faultN = true ∧
    (if s.pins.pwrgood = true ∧ s.pins.testEn = false then t.mode = .starting ∧ t.boot.cause = (if s.boot.risen then 0 else 1)
      else t.mode = .reset) := by
  refine ⟨_, exec_resetNRelease h, wiped_restart rfl rfl rfl _, by simp [State.released], by simp [State.released], by simp [State.released],
    by simp [State.released], by simp [State.released], ?_⟩
  split
  case isTrue hr => exact restart_starts (by simp [released_run, hr]) _
  case isFalse hr => exact (restart_holds (by simpa [released_run] using hr) _).1

theorem testEnRelease_starts (x : Straps) (s : State) (h : s.pins.testEn = true) : ∃ t, exec (.testEnRelease x) s = .next t ∧ Wiped s t ∧
    t.pins.testEn = false ∧ t.pins.bootsel = x.bootsel ∧ t.pins.i2cadr = s.pins.i2cadr ∧
    (if s.pins.pwrgood = true ∧ s.pins.resetN = true then t.mode = .starting ∧ t.boot.cause = (if s.boot.risen then 0 else 1)
      else t.mode = .reset) := by
  refine ⟨_, exec_testEnRelease h, wiped_restart rfl rfl rfl _, by simp [State.untested], by simp [State.untested], by simp [State.untested], ?_⟩
  split
  case isTrue hr => exact restart_starts (by simp [untested_run, hr]) _
  case isFalse hr => exact (restart_holds (by simpa [untested_run] using hr) _).1

end pins

theorem kathirelWatchdog_restarts (s : State) (h : s.mode = .service) (hr : s.pins.run = true) :
    ∃ t, exec .kathirelWatchdog s = .next t ∧ Wiped s t ∧ t.mode = .starting ∧ t.boot.cause = 3 :=
  ⟨_, exec_kathirelWatchdog h, wiped_restart rfl rfl rfl 3, restart_starts hr 3⟩

theorem overTempReset_restarts (s : State) (h : s.mode ≠ .reset) (hr : s.pins.run = true) : ∃ t, exec .overTempReset s = .next t ∧ Wiped s t ∧
    t.mode = .starting ∧ t.boot.cause = 4 ∧ t.pins.thermN = false ∧ t.pins.faultN = false := by
  have hrun : s.tooHot.pins.run = true := hr
  obtain ⟨hmode, hcause⟩ := restart_starts hrun 4
  exact ⟨_, exec_overTempReset h, wiped_restart rfl rfl rfl 4, hmode, hcause, by simp [State.tooHot], by simp [State.tooHot]⟩

end Sys2Proof.Machine

section

open Sys2Proof Sys2Proof.Machine

/-- Settles O1: every such reset goes through State.held, which keeps only what survives, and a start begins where the pins let it run. -/
theorem pinsHoldThePartAndLetItStart : Obligations.PinsHoldThePartAndLetItStart := by
  unfold Obligations.PinsHoldThePartAndLetItStart
  refine ⟨pwrgoodRise_starts, resetNRelease_starts, testEnRelease_starts, fun s h => ?_, fun s h => ?_, fun s h => ?_, kathirelWatchdog_restarts,
    overTempReset_restarts⟩
  · exact ⟨_, exec_pwrgoodFall h, wiped_held rfl rfl rfl, rfl, rfl, rfl⟩
  · exact ⟨_, exec_resetNAssert h, wiped_held rfl rfl rfl, rfl, rfl, rfl⟩
  · exact ⟨_, exec_testEnAssert h, wiped_held rfl rfl rfl, rfl, rfl, rfl⟩

end


namespace Sys2Proof.Machine

open Sys2Proof

/-! What a state that differs aside has in common with the other: fuses, repairs and what is out of service. -/

section congr
variable {m : Nat} {s t : State} (h : Aside m s t)
include h

theorem Aside.fused_eq : t.nv.fused = s.nv.fused := (congrArg (fun u : State => u.nv.fused) h.rest : t.beside.nv.fused = s.beside.nv.fused)
theorem Aside.repair_eq : t.nv.repair = s.nv.repair := (congrArg (fun u : State => u.nv.repair) h.rest : t.beside.nv.repair = s.beside.nv.repair)

theorem Aside.setFused (l : List (BitVec 32)) : Aside m (s.setNv { s.nv with fused := l }) (t.setNv { t.nv with fused := l }) :=
  ⟨congrArg (fun u : State => u.setNv { u.nv with fused := l }) h.rest, h.regs, h.sess⟩

theorem Aside.engFailed_eq {cls e : Nat} (hi : e < unitsOf cls) : t.engFailed cls e = s.engFailed cls e := by
  unfold State.engFailed
  split
  · rw [State.fceSt, h.fld_eq (qcpReg_engine (by simp only [R.FCE_STAT_STATE, R.FCE_STAT]; omega)
      (by simp only [R.FCE_STAT_STATE, R.FCE_STAT, unitsOf] at hi ⊢; simp at hi; omega)), State.fceSt]
  · rw [State.eceSt, h.fld_eq (qcpReg_engine (by simp only [R.ECE_STAT_STATE, R.ECE_STAT]; omega)
      (by simp only [R.ECE_STAT_STATE, R.ECE_STAT, unitsOf] at hi ⊢; simp at hi; omega)), State.eceSt]
  · rw [h.deng_eq]
  · rw [h.beng_eq]
  · rfl

end congr

/-- A session's number is the same where its face is. -/
theorem sessNum_face {m : Nat} {s t : State} (h : (t.sess m).face = (s.sess m).face) : t.sessNum m = s.sessNum m := by
  rw [State.sessNum, face_gen h, State.sessNum]

/-! BIST operations (R520, R523, R524, R527). -/

theorem exec_bistRequest (q : Req) (s : State) : exec (.bistRequest q) s = .next (runOp opBistRequest 0x0C01 q s) := rfl
theorem exec_bistFuseArm (q : Req) (s : State) : exec (.bistFuseArm q) s = .next (runOp opBistFuseArm 0x0C02 q s) := rfl
theorem exec_bistFuseConfirm (q : Req) (s : State) : exec (.bistFuseConfirm q) s = .next (runOp opBistFuseConfirm 0x0C03 q s) := rfl
theorem exec_bistLcArm (q : Req) (s : State) : exec (.bistLcArm q) s = .next (runOp opBistLcArm 0x0C04 q s) := rfl
theorem exec_bistLcConfirm (q : Req) (s : State) : exec (.bistLcConfirm q) s = .next (runOp opBistLcConfirm 0x0C05 q s) := rfl
theorem exec_bistRepairList (q : Req) (s : State) : exec (.bistRepairList q) s = .next (runOp opBistRepairList 0x0C81 q s) := rfl
theorem exec_bistUnitStatus (q : Req) (s : State) : exec (.bistUnitStatus q) s = .next (runOp opBistUnitStatus 0x0C82 q s) := rfl

/-- A part that a test of a unit is requested of (R527). -/
def State.testAsked (s : State) (c i : Nat) : State :=
  let t := s.setUnitT c i { s.unitT c i with asked := true, bad := false, passed := 0 }
  t.setGln { t.gln with req := some (c, i) }

theorem Aside.testAsked {m : Nat} {s t : State} (h : Aside m s t) (c i : Nat) : Aside m (s.testAsked c i) (t.testAsked c i) := by
  have hu := h.setUnitT c i { s.unitT c i with asked := true, bad := false, passed := 0 }
  simp only [State.testAsked, h.unitT_eq, hu.gln_eq]
  exact hu.setGln _

theorem bistRequest_does : Does false opBistRequest 0x0C01 .bistRequest (done fun q s => s.testAsked (u8 q.payload 0) (num q.payload 2 2)) :=
  does_direct exec_bistRequest (fun _ => rfl) fun q _ _ _ =>
    acts_of_aside (f := fun v => v.testAsked (u8 q.payload 0) (num q.payload 2 2)) (fun _ _ _ => rfl) (fun _ hv => hv.testAsked _ _) fun _ => rfl

theorem bistFuseArm_does : Does false opBistFuseArm 0x0C02 .bistFuseArm (fun q s =>
    (s.drawn.setGln { s.gln with armF := some (s.draw 32, s.sessNum q.mbox.val, s.loc + 10 * secI, entriesIn q.payload) }, St.ok,
      be 4 (s.draw 32) ++ be 2 (4096 - s.nv.fused.length) ++ zeros 2)) :=
  does_direct exec_bistFuseArm (fun _ => rfl) fun q s _ _ v c hv hf hm _ _ _ => by
    refine ⟨v.drawn.setGln { s.gln with armF := some (s.draw 32, s.sessNum q.mbox.val, s.loc + 10 * secI, entriesIn q.payload) }, ?_,
      hv.drawn.setGln _, rfl⟩
    simp only [opBistFuseArm, hm, hv.draw_eq, sessNum_face hf, hv.loc_eq, hv.fused_eq, hv.drawn.gln_eq]
    rfl

theorem bistLcArm_does : Does false opBistLcArm 0x0C04 .bistLcArm (fun q s =>
    (s.drawn.setGln { s.gln with armL := some (s.draw 32, s.sessNum q.mbox.val, s.loc + 10 * secI, u8 q.payload 0) }, St.ok, be 4 (s.draw 32))) :=
  does_direct exec_bistLcArm (fun _ => rfl) fun q s _ _ v c hv hf hm _ _ _ => by
    refine ⟨v.drawn.setGln { s.gln with armL := some (s.draw 32, s.sessNum q.mbox.val, s.loc + 10 * secI, u8 q.payload 0) }, ?_,
      hv.drawn.setGln _, rfl⟩
    simp only [opBistLcArm, OpDef.admin, hm, hv.draw_eq, sessNum_face hf, hv.loc_eq, hv.drawn.gln_eq]
    rfl

/-- A confirmation that nothing is wrong with names what was armed, in its session and in time (R520, R524). -/
theorem nonceBad_ok {n sess by_ num_ loc nonce : Nat} {p : List Nat} (h : nonceBad (some (n, sess, by_)) num_ loc nonce = .ok p) :
    n = nonce ∧ sess = num_ ∧ loc < by_ ∧ p = [] := by
  simp only [nonceBad] at h
  split at h
  · cases h
  case isFalse hs =>
    obtain ⟨h1, h2⟩ := not_or.1 hs
    split at h
    · cases h
    case isFalse hn =>
      cases h
      exact ⟨not_not.1 hn, not_not.1 h1, Nat.not_le.1 h2, rfl⟩

/-- The entries of a list that are not fused yet, and of them those that the draw lets verify (R520). -/
def State.toFuse (s : State) (l : List Nat) : List Nat := l.eraseDups.filter fun e => !s.nv.fused.any fun w => w.toNat == e
def State.fusedNow (s : State) (l : List Nat) : List (BitVec 32) :=
  ((s.toFuse l).zipIdx.filter fun p => !tb (s.draw 64) p.2).map fun p => BitVec.ofNat 32 p.1

theorem bistFuseConfirm_app {v : State} {n sess by_ : Nat} {l : List Nat} (h : v.gln.armF = some (n, sess, by_, l)) (c : Ctx) (plan : List Nat)
    (b : Bytes) : opBistFuseConfirm.app c plan v b =
      ⟨(v.drawn.setGln { v.gln with armF := none }).setNv { v.nv with fused := v.nv.fused ++ v.fusedNow l },
        if (v.fusedNow l).length = (v.toFuse l).length then St.ok else St.fault, 0, be 2 (v.fusedNow l).length ++ zeros 2, false⟩ := by
  simp only [opBistFuseConfirm, OpDef.admin, h]
  by_cases hg : (v.fusedNow l).length = (v.toFuse l).length
  · rw [if_pos hg]
    exact if_pos hg
  · rw [if_neg hg]
    exact if_neg hg

theorem bistFuseConfirm_completes (q : Req) (s : State) (n sess by_ : Nat) (l : List Nat) (ha : Accepted opBistFuseConfirm 0x0C03 q s [])
    (harm : s.gln.armF = some (n, sess, by_, l)) : n = num q.payload 0 4 ∧ sess = s.sessNum q.mbox.val ∧ s.loc < by_ ∧
    Completes false (.bistFuseConfirm q) 0x0C03 q s
      ((s.drawn.setGln { s.gln with armF := none }).setNv { s.nv with fused := s.nv.fused ++ s.fusedNow l })
      (if (s.fusedNow l).length = (s.toFuse l).length then St.ok else St.fault) 0 (be 2 (s.fusedNow l).length ++ zeros 2) := by
  have htk := aside_take (s := s) q.mbox.isLt
  have hchk : nonceBad ((s.take q.mbox.val).gln.armF.map fun a => (a.1, a.2.1, a.2.2.1)) ((s.take q.mbox.val).sessNum q.mbox.val)
    (s.take q.mbox.val).loc (num q.payload 0 4) = .ok [] := ha.chk
  rw [htk.gln_eq, htk.loc_eq, sessNum_face (take_face _ _), harm] at hchk
  obtain ⟨hn, hs, hb, -⟩ := nonceBad_ok hchk
  refine ⟨hn, hs, hb, completes_direct (exec_bistFuseConfirm q s) ha rfl (Nat.zero_le _) fun v c hv _ _ _ _ _ => ?_⟩
  have hf : v.fusedNow l = s.fusedNow l := by rw [State.fusedNow, State.toFuse, hv.fused_eq, hv.draw_eq, State.fusedNow, State.toFuse]
  have ht : v.toFuse l = s.toFuse l := by rw [State.toFuse, hv.fused_eq, State.toFuse]
  refine ⟨_, ?_, (hv.drawn.setGln { s.gln with armF := none }).setFused (s.nv.fused ++ s.fusedNow l), rfl⟩
  rw [bistFuseConfirm_app (by rw [hv.gln_eq]; exact harm), hf, ht, hv.gln_eq, hv.fused_eq]
  rfl

/-- A confirmation that passes its check confirms what is armed. -/
theorem lcConfirm_nonce {c : Ctx} {s : State} {b : Bytes} {a : Nat × Nat × Nat × Nat} {p : List Nat} (ha : s.gln.armL = some a)
    (h : opBistLcConfirm.chk c s b = .ok p) : nonceBad (some (a.1, a.2.1, a.2.2.1)) (s.sessNum c.mbox) s.loc (num b 0 4) = .ok p := by
  simp only [opBistLcConfirm, OpDef.admin, ha, Option.map_some] at h
  cases hn : nonceBad (some (a.1, a.2.1, a.2.2.1)) (s.sessNum c.mbox) s.loc (num b 0 4) with
  | ok p' =>
    simp only [hn] at h
    split at h
    · exact h
    · cases h
  | refuse st det =>
    simp only [hn] at h
    cases h
  | count st det cnt evt mask =>
    simp only [hn] at h
    cases h

/-- A command that is answered OK at once leaves what waits for its reply in its mailbox. -/
theorem answered_owing {d : OpDef} {i : Instr} {op : Nat} {q : Req} {s e w : State} {plan : List Nat} (hx : exec i s = .next (runOp d op q s))
    (ha : Accepted d op q s plan) (hj : d.jrnl q.payload = false) (happ : d.app (Req.ctx q op s) plan (s.take q.mbox.val) q.payload = Done.ok w)
    (hw : Aside q.mbox.val e w) (hface : (w.sess q.mbox.val).face = (s.sess q.mbox.val).face) : ∃ t, exec i s = .next t ∧ Aside q.mbox.val e t ∧
      Answered false op q St.ok 0 [] s t ∧ (t.sess q.mbox.val).after = (w.sess q.mbox.val).after := by
  obtain ⟨hon, hout, -, -⟩ := turn_cases ha.turn
  have hwon : (w.sess (Req.ctx q op s).mbox).st = .on := (face_st hface).trans hon
  obtain ⟨-, hafter, -⟩ := finish_ok_sess (w := w) (c := Req.ctx q op s) (dev := s.dev) (jrn := false) (r := []) hwon
  refine ⟨_, hx, ?_⟩
  rw [ha.run, hj, happ, dev_eq (aside_take q.mbox.isLt)]
  simp only [Bool.false_eq_true, if_false]
  exact ⟨hw.trans (aside_finish (d := Done.ok w) hwon), finish_out (c := Req.ctx q op s) hface hon hout (Nat.zero_le _), hafter⟩

theorem bistLcConfirm_app {v : State} {a : Nat × Nat × Nat × Nat} (h : v.gln.armL = some a) (c : Ctx) (plan : List Nat) (b : Bytes) :
    opBistLcConfirm.app c plan v b = Done.ok ((v.setGln { v.gln with armL := none }).owe c.mbox 0x0C05 (be 1 a.2.2.2)) := by
  simp only [opBistLcConfirm, OpDef.admin, h]

/-- The confirmation of a transition leaves it with the reply that it waits for. -/
theorem bistLcConfirm_owes (q : Req) (s : State) (n sess by_ k : Nat) (ha : Accepted opBistLcConfirm 0x0C05 q s [])
    (harm : s.gln.armL = some (n, sess, by_, k)) : n = num q.payload 0 4 ∧ sess = s.sessNum q.mbox.val ∧ s.loc < by_ ∧
    ∃ t, exec (.bistLcConfirm q) s = .next t ∧ Aside q.mbox.val (s.setGln { s.gln with armL := none }) t ∧
      Answered false 0x0C05 q St.ok 0 [] s t ∧ (t.sess q.mbox.val).after = some (0x0C05, be 1 k) := by
  have htk := aside_take (s := s) q.mbox.isLt
  have harm' : (s.take q.mbox.val).gln.armL = some (n, sess, by_, k) := by rw [htk.gln_eq, harm]
  have hok := lcConfirm_nonce harm' ha.chk
  rw [htk.loc_eq, show (Req.ctx q 0x0C05 s).mbox = q.mbox.val from rfl, sessNum_face (take_face s q.mbox.val)] at hok
  obtain ⟨hn, hs, hb, -⟩ := nonceBad_ok hok
  have hA : Aside q.mbox.val (s.setGln { s.gln with armL := none })
      (((s.take q.mbox.val).setGln { (s.take q.mbox.val).gln with armL := none }).owe q.mbox.val 0x0C05 (be 1 k)) := by
    rw [htk.gln_eq]
    exact (htk.setGln { s.gln with armL := none }).trans aside_setSess
  have hface (t : State) : ((t.owe q.mbox.val 0x0C05 (be 1 k)).sess q.mbox.val).face = (t.sess q.mbox.val).face := by
    rw [State.owe, State.sess_setSess_same]
    rfl
  have howes (t : State) : ((t.owe q.mbox.val 0x0C05 (be 1 k)).sess q.mbox.val).after = some (0x0C05, be 1 k) := by
    rw [State.owe, State.sess_setSess_same]
  obtain ⟨t, ht, haside, hans, hafter⟩ := answered_owing (exec_bistLcConfirm q s) ha rfl (bistLcConfirm_app harm' _ _ _) hA
    ((hface _).trans (take_face s q.mbox.val))
  exact ⟨hn, hs, hb, t, ht, haside, hans, hafter.trans (howes _)⟩

theorem bistRepairList_does : Does false opBistRepairList 0x0C81 .bistRepairList (replied fun q s =>
    ((s.nv.repair.drop (num q.payload 0 2)).take (num q.payload 2 2)).flatMap fun w => be 4 w.toNat ++ be 1 (b2n (s.nv.fused.contains w)) ++ zeros 3) :=
  does_direct exec_bistRepairList (fun _ => rfl) fun _ _ _ _ => acts_read fun _ _ hv => by
    simp only [opBistRepairList, OpDef.ask, replied, hv.repair_eq, hv.fused_eq]

/-- A check that a refusal stands in passes only where that does not apply. -/
theorem first_ok_cons {b : Bool} {st det : Nat} {l : List (Bool × Chk)} {c : Chk} {p : List Nat}
    (h : Chk.first ((b, .refuse st det) :: l) c = .ok p) : b = false ∧ Chk.first l c = .ok p := by
  cases b
  · exact ⟨rfl, h⟩
  · cases h

/-- The unit that BIST_UNIT_STATUS names is one of its class. -/
theorem bistUnitStatus_unit {q : Req} {s : State} {plan : List Nat} (ha : Accepted opBistUnitStatus 0x0C82 q s plan) :
    num q.payload 2 2 < unitsOf (u8 q.payload 0) := by
  obtain ⟨-, h⟩ := first_ok_cons ha.chk
  exact Nat.not_le.1 (of_decide_eq_false (first_ok_cons h).1)

theorem bistUnitStatus_does : Does false opBistUnitStatus 0x0C82 .bistUnitStatus (replied fun q s =>
    let c := u8 q.payload 0
    let i := num q.payload 2 2
    let u := s.unitT c i
    let st := if u.out ∨ (c = 0 ∧ (s.core i).mapped) ∨ s.engFailed c i then 3 else if u.await.isSome then 2 else if s.underTest c i then 1 else 0
    be 1 st ++ be 1 u.verdict ++ be 2 u.passed ++ timeBytes u.full) :=
  does_direct exec_bistUnitStatus (fun _ => rfl) fun _ _ _ ha => acts_read fun _ _ hv => by
    simp only [opBistUnitStatus, OpDef.ask, replied, hv.unitT_eq, hv.core_eq, hv.engFailed_eq (bistUnitStatus_unit ha), hv.underTest_eq]

/-! Sessions that stop leave all but QCP, its registers and the reports (R159, R187, R524). -/

/-- A state without QCP, the registers and the reports of function states. -/
def State.unsess (s : State) : State := { s with qcp := State.reset.qcp, regs := [], fns := [] }

theorem unsess_unbell (s : State) (m : Nat) : (s.unbell m).unsess = s.unsess := by
  unfold State.unbell
  split <;> rfl

theorem unsess_reportVia (s : State) (f : FnId) (a : FnState) (l : List FnState) : (s.reportVia f a l).unsess = s.unsess := rfl

theorem unsess_closeSess (s : State) (m : Nat) : (s.closeSess m).unsess = s.unsess :=
  (unsess_reportVia _ _ _ _).trans (unsess_unbell _ m)

theorem unsess_stopSess (s : State) (m : Nat) : (s.stopSess m).unsess = s.unsess := by
  unfold State.stopSess
  extract_lets x a b y t
  have ht : t.unsess = s.unsess := unsess_unbell _ m
  split
  · rfl
  · split
    · exact ht
    · exact (unsess_closeSess t m).trans ht

theorem unsess_foldl {α : Type} {f : State → α → State} (hf : ∀ t a, (f t a).unsess = t.unsess) : ∀ (l : List α) (s : State),
    (l.foldl f s).unsess = s.unsess
  | [], _ => rfl
  | a :: l, s => (unsess_foldl hf l (f s a)).trans (hf s a)

theorem unsess_stopAll (s : State) : s.stopAll.unsess = s.unsess := by
  refine unsess_foldl (fun t p => ?_) _ s
  split
  · exact unsess_stopSess t p.1
  · rfl

theorem unsess_stopKey (s : State) (k : Nat) : (s.stopKey k).unsess = s.unsess := by
  refine unsess_foldl (fun t p => ?_) _ s
  split
  · exact unsess_stopSess t p.1
  · rfl

theorem unsess_eq {s t : State} (h : t.unsess = s.unsess) : t.nv = s.nv ∧ t.legs = s.legs ∧ t.tmu = s.tmu ∧ t.mmu = s.mmu :=
  ⟨(congrArg State.nv h : t.unsess.nv = s.unsess.nv), (congrArg State.legs h : t.unsess.legs = s.unsess.legs),
    (congrArg State.tmu h : t.unsess.tmu = s.unsess.tmu), (congrArg State.mmu h : t.unsess.mmu = s.unsess.mmu)⟩

/-! A life-cycle transition that is made (R523). -/

/-- What a transition to a state leaves in PRS: the keys are lost where it restarts the part. -/
def Nv.lcTo (n : Nv) (k : Nat) : Nv :=
  if 3 ≤ k then { n with lcNext := some k, hostKeys := [], mzKeys := [], keyLost := n.recno + 1 } else { n with lcNext := some k }

theorem restart_nv (s : State) (c : Nat) : (s.restart c).nv = s.nv := by
  cases h : s.pins.run
  · rw [restart_of_not_run h]
    rfl
  · rw [restart_of_run h]
    rfl

theorem lcGo_stays {s : State} {k : Nat} (ha : lcAllowed true s.nv.lc k = true ∨ lcAllowed false s.nv.lc k = true) (hk : k < 3) :
    s.lcGo k = s.setNv { s.nv with lcNext := some k } := by
  simp only [State.lcGo, Bool.or_eq_true, ha, Nat.not_le.2 hk, if_true, if_false]

theorem lcGo_restarts {s : State} {k : Nat} (ha : lcAllowed true s.nv.lc k = true ∨ lcAllowed false s.nv.lc k = true) (hk : 3 ≤ k) :
    s.lcGo k = (s.setNv { s.nv with lcNext := some k, hostKeys := [], mzKeys := [], keyLost := s.nv.recno + 1 }).restart 6 := by
  simp only [State.lcGo, Bool.or_eq_true, ha, hk, if_true]
  rfl

theorem lcGo_nv {s : State} {k : Nat} (ha : lcAllowed true s.nv.lc k = true ∨ lcAllowed false s.nv.lc k = true) : (s.lcGo k).nv = s.nv.lcTo k := by
  by_cases hk : 3 ≤ k
  · rw [lcGo_restarts ha hk, restart_nv, Nv.lcTo, if_pos hk]
    rfl
  · rw [lcGo_stays ha (Nat.not_le.1 hk), Nv.lcTo, if_neg hk]
    rfl

/-- A reply of a session with nothing to send settles what waits for it. -/
theorem exec_replySend_idle {m : Fin 256} {s : State} (hon : (s.sess m.val).st = .on) (ho : (s.sess m.val).out = [])
    (hr : (s.sess m.val).rplRing = []) : exec (.replySend m) s = .next ((s.setSess m.val (s.sess m.val)).settle m.val) := by
  have hs : ((s.setSess m.val (s.sess m.val)).sess m.val).rplRing = [] := by rw [State.sess_setSess_same, hr]
  show Host.Outcome.next (if _ then _ else _) = _
  rw [if_pos (.inl hon), ho]
  show Host.Outcome.next (State.settle (State.sendRing _ _ (List.length ((s.setSess m.val (s.sess m.val)).sess m.val).rplRing)) _) = _
  rw [hs]
  rfl

/-- What waits for the reply is carried out; nothing else of PRS changes with the end of the session. -/
theorem settle_nv {s : State} {m op : Nat} {b : Bytes} (ha : (s.sess m).after = some (op, b)) (ho : (s.sess m).out = []) (hr : (s.sess m).rplRing = []) :
    (s.settle m).nv = ((s.setSess m { s.sess m with after := none }).afterReply m op b).nv := by
  unfold State.settle
  simp only [ha, ho, hr, List.isEmpty_nil, and_self, or_true, if_true]
  split
  · exact (closeSess_gives _ m).2.2
  · rfl

/-- The byte of a life-cycle state in a reply. -/
theorem u8_be_lc : ∀ k < 5, u8 (be 1 k) 0 = k := by decide

theorem replySend_makes_transition (m : Fin 256) (s : State) (k : Nat) (hon : (s.sess m.val).st = .on) (ho : (s.sess m.val).out = [])
    (hr : (s.sess m.val).rplRing = []) (ha : (s.sess m.val).after = some (0x0C05, be 1 k)) (hk : k < 5)
    (hl : lcAllowed true s.nv.lc k = true ∨ lcAllowed false s.nv.lc k = true) : ∃ t, exec (.replySend m) s = .next t ∧ t.nv = s.nv.lcTo k := by
  refine ⟨_, exec_replySend_idle hon ho hr, ?_⟩
  have hsess : (s.setSess m.val (s.sess m.val)).sess m.val = s.sess m.val := State.sess_setSess_same _ _ _
  rw [settle_nv (op := 0x0C05) (b := be 1 k) (by rw [hsess, ha]) (by rw [hsess, ho]) (by rw [hsess, hr])]
  generalize hu : (s.setSess m.val (s.sess m.val)).setSess m.val _ = u
  have hnv : u.nv = s.nv := by rw [← hu]; rfl
  have hstop : u.stopAll.nv = s.nv := (unsess_eq (unsess_stopAll u)).1.trans hnv
  show (u.stopAll.lcGo (u8 (be 1 k) 0)).nv = _
  rw [u8_be_lc k hk, lcGo_nv (by rw [hstop]; exact hl), hstop]

theorem lcTo_parts (n : Nv) (k : Nat) : (n.lcTo k).lc = n.lc ∧ (n.lcTo k).lcNext = some k ∧ (n.lcTo k).hostKeys = (if 3 ≤ k then [] else n.hostKeys) ∧
    (n.lcTo k).mzKeys = (if 3 ≤ k then [] else n.mzKeys) := by
  unfold Nv.lcTo
  split <;> exact ⟨rfl, rfl, rfl, rfl⟩

/-! JTAG (R523, R526). -/

/-- The host key in a JTAG data register. -/
def jtagKey (n : Nat) : HostKey := ⟨(List.range 32).map fun i => byteOf (bits n (15 + 8 * i) (8 + 8 * i)), bits n 5 4⟩

theorem exec_jtagKeyLoad {dr : BitVec 264} {s : State} (hl : s.nv.lc = 1 ∨ s.nv.lc = 3) (hm : s.mode ≠ .reset) (h5 : bits dr.toNat 5 4 ≠ 3)
    (h7 : bits dr.toNat 7 6 = 0) : exec (.jtagKeyLoad dr) s =
      .next ((s.setNv { s.nv with hostKeys := kset s.nv.hostKeys (bits dr.toNat 3 0) (jtagKey dr.toNat) }).stopKey (bits dr.toNat 3 0)) :=
  congrArg Host.Outcome.next (if_pos ⟨hl, hm, h5, h7⟩)

theorem jtagKeyLoad_sets (dr : BitVec 264) (s : State) (hl : s.nv.lc = 1 ∨ s.nv.lc = 3) (hm : s.mode ≠ .reset) (h5 : bits dr.toNat 5 4 ≠ 3)
    (h7 : bits dr.toNat 7 6 = 0) : ∃ t, exec (.jtagKeyLoad dr) s = .next t ∧
      t.nv.hostKeys = kset s.nv.hostKeys (bits dr.toNat 3 0) (jtagKey dr.toNat) ∧ t.nv.lc = s.nv.lc ∧ t.nv.mzKeys = s.nv.mzKeys ∧
      t.legs = s.legs ∧ t.tmu = s.tmu ∧ t.mmu = s.mmu := by
  refine ⟨_, exec_jtagKeyLoad hl hm h5 h7, ?_⟩
  obtain ⟨hn, hl, ht, hm⟩ := unsess_eq (unsess_stopKey
    (s.setNv { s.nv with hostKeys := kset s.nv.hostKeys (bits dr.toNat 3 0) (jtagKey dr.toNat) }) (bits dr.toNat 3 0))
  rw [hn]
  exact ⟨rfl, rfl, rfl, hl, ht, hm⟩

theorem jtagKeyLoad_idle (dr : BitVec 264) (s : State) (h1 : s.nv.lc ≠ 1) (h3 : s.nv.lc ≠ 3) : exec (.jtagKeyLoad dr) s = .next s :=
  congrArg Host.Outcome.next (if_neg fun h => h.1.elim h1 h3)

theorem jtagLcTransition_goes (k : Fin 5) (s : State) (hm : s.mode ≠ .reset) (ha : lcAllowed true s.nv.lc k.val = true) :
    ∃ t, exec (.jtagLcTransition k) s = .next t ∧ (k.val < 3 → t = s.setNv { s.nv with lcNext := some k.val }) ∧
    (3 ≤ k.val → t.nv = { s.nv with lcNext := some k.val, hostKeys := [], mzKeys := [], keyLost := s.nv.recno + 1 } ∧ Wiped (s.setNv t.nv) t) := by
  refine ⟨s.lcGo k.val, congrArg Host.Outcome.next (if_pos ⟨ha, hm⟩), lcGo_stays (.inl ha), fun hk => ?_⟩
  rw [lcGo_restarts (.inl ha) hk, restart_nv]
  exact ⟨rfl, wiped_restart rfl rfl rfl 6⟩

theorem jtagLcTransition_idle (k : Fin 5) (s : State) (ha : lcAllowed true s.nv.lc k.val = false) : exec (.jtagLcTransition k) s = .next s :=
  congrArg Host.Outcome.next (if_neg fun h => Bool.false_ne_true (ha.symm.trans h.1))

end Sys2Proof.Machine

section

open Sys2Proof Sys2Proof.Machine

/-- Settles O53: the operations act alike beside what taking their command touches; a transition goes through State.lcGo, after its reply or through
JTAG. -/
theorem fusesKeysAndLifeCycleMove : Obligations.FusesKeysAndLifeCycleMove := by
  unfold Obligations.FusesKeysAndLifeCycleMove
  refine ⟨bistRequest_does, bistFuseArm_does, bistFuseConfirm_completes, bistLcArm_does, bistLcConfirm_owes, fun m s k hon ho hr ha hk hl => ?_,
    bistRepairList_does, bistUnitStatus_does, jtagKeyLoad_sets, jtagKeyLoad_idle, jtagLcTransition_goes, jtagLcTransition_idle⟩
  obtain ⟨t, ht, hn⟩ := replySend_makes_transition m s k hon ho hr ha hk hl
  obtain ⟨h1, h2, h3, h4⟩ := lcTo_parts s.nv k
  rw [← hn] at h1 h2 h3 h4
  exact ⟨t, ht, h1, h2, h3, h4⟩

end


namespace Sys2Proof.Machine

open Sys2Proof

/-! The granary beside what a command's reply is kept in. -/

section congr
variable {m : Nat} {s t : State} (h : Aside m s t)
include h

theorem Aside.cap_eq (c : Nat) : t.cap c = s.cap c := by unfold State.cap; rw [h.grn_eq]
theorem Aside.gring_eq (k r : Nat) : t.gring k r = s.gring k r := by unfold State.gring; rw [h.grn_eq]

theorem Aside.setCap (c : Nat) (x : Capture) : Aside m (s.setCap c x) (t.setCap c x) := by
  unfold State.setCap
  rw [h.grn_eq, h.cap_eq]
  exact (h.setGrn _).report _ _ _

theorem Aside.setGring (k r : Nat) (x : GRing) : Aside m (s.setGring k r x) (t.setGring k r x) := by
  simp only [State.setGring, h.grn_eq, h.gring_eq]
  exact (h.setGrn _).report _ _ _

theorem Aside.pathFull_eq : t.pathFull = s.pathFull := by unfold State.pathFull; rw [h.grn_eq, h.loc_eq]

theorem Aside.balerFull_eq : t.balerFull = s.balerFull := by
  unfold State.balerFull State.balersOn; rw [h.grn_eq, h.bal_eq, h.loc_eq]

theorem Aside.pathTakes (n : Nat) : Aside m (s.pathTakes n) (t.pathTakes n) := by
  unfold State.pathTakes
  rw [h.grn_eq, h.loc_eq]
  exact h.setGrn _

theorem Aside.balerTakes (n : Nat) (new : Bool) : Aside m (s.balerTakes n new) (t.balerTakes n new) := by
  simp only [State.balerTakes, State.balersOn, h.grn_eq, h.bal_eq, h.loc_eq]
  exact h.setGrn _

theorem Aside.endCap (c cause : Nat) : Aside m (s.endCap c cause) (t.endCap c cause) := by
  simp only [State.endCap, h.cap_eq, h.now_eq]
  exact (h.setCap _ _).raise (by decide) (by decide) _

theorem Aside.capWrite (c : Nat) (mk : Nat → Nat → Bytes) (stamp : Inst) : Aside m (s.capWrite c mk stamp) (t.capWrite c mk stamp) := by
  simp only [State.capWrite, h.cap_eq, h.pathFull_eq, h.balerFull_eq]
  split
  · exact ((h.setCap _ _).bump (by decide)).raise (by decide) (by decide) _
  · split
    · have hw := ((h.setCap c { ‹Capture› with rseq := ((s.cap c).rseq + 1) % 2 ^ 32, drop := false }).bump (a := R.GRN_REC_CNT) (by decide)).pathTakes
        (mk (s.cap c).rseq (b2n (s.cap c).drop * 128)).length
      exact aside_ite (hw.balerTakes _ _) hw
    · exact h.endCap c 3

theorem Aside.fireTrigger (c : Nat) (tt : Inst) (late : Bool) : Aside m (s.fireTrigger c tt late) (t.fireTrigger c tt late) := by
  simp only [State.fireTrigger, h.cap_eq]
  split
  · exact h
  · split
    · exact h.bump (by decide)
    · exact (((h.setCap _ _).bump (by decide)).raise (by decide) (by decide) _).capWrite _ _ _

theorem Aside.capStart (c : Nat) : Aside m (s.capStart c) (t.capStart c) := by
  simp only [State.capStart, h.cap_eq, h.now_eq]
  exact aside_ite ((h.setCap _ _).fireTrigger _ _ _) (h.setCap _ _)

end congr

section face
variable (s : State) (m : Nat)

theorem setCap_sess (c : Nat) (x : Capture) : (s.setCap c x).sess m = s.sess m := rfl
theorem setGring_sess (k r : Nat) (x : GRing) : (s.setGring k r x).sess m = s.sess m := by
  unfold State.setGring
  rfl

theorem endCap_face (c cause : Nat) : ((s.endCap c cause).sess m).face = (s.sess m).face := by
  simp only [State.endCap]
  rw [raise_face, setCap_sess]

theorem capWrite_face (c : Nat) (mk : Nat → Nat → Bytes) (stamp : Inst) : ((s.capWrite c mk stamp).sess m).face = (s.sess m).face := by
  have hb (t : State) (a : Nat) : ((t.bump a).sess m).face = (t.sess m).face := congrArg _ (State.sess_bump _ _ _)
  have hp (t : State) (n : Nat) : (t.pathTakes n).sess m = t.sess m := rfl
  have hw (t : State) (n : Nat) (new : Bool) : (t.balerTakes n new).sess m = t.sess m := rfl
  simp only [State.capWrite]
  split
  · rw [raise_face, hb, setCap_sess]
  · split
    · split
      · rw [hw, hp, hb, setCap_sess]
      · rw [hp, hb, setCap_sess]
    · exact endCap_face s m c 3

theorem fireTrigger_face (c : Nat) (tt : Inst) (late : Bool) : ((s.fireTrigger c tt late).sess m).face = (s.sess m).face := by
  have hb (t : State) (a : Nat) : ((t.bump a).sess m).face = (t.sess m).face := congrArg _ (State.sess_bump _ _ _)
  simp only [State.fireTrigger]
  split
  · rfl
  · split
    · exact hb _ _
    · rw [capWrite_face, raise_face, hb, setCap_sess]

theorem capStart_face (c : Nat) : ((s.capStart c).sess m).face = (s.sess m).face := by
  simp only [State.capStart]
  split
  · rw [fireTrigger_face, setCap_sess]
  · rfl

end face

/-! Captures (R457-R465, R470). -/

theorem exec_captOpen (q : Req) (s : State) : exec (.captOpen q) s = .next (runOp opCaptOpen 0x0801 q s) := rfl
theorem exec_captClose (q : Req) (s : State) : exec (.captClose q) s = .next (runOp opCaptClose 0x0802 q s) := rfl
theorem exec_captEnable (q : Req) (s : State) : exec (.captEnable q) s = .next (runOp opCaptEnable 0x0803 q s) := rfl
theorem exec_captDisable (q : Req) (s : State) : exec (.captDisable q) s = .next (runOp opCaptDisable 0x0804 q s) := rfl
theorem exec_captTrigger (q : Req) (s : State) : exec (.captTrigger q) s = .next (runOp opCaptTrigger 0x0805 q s) := rfl
theorem exec_captExport (q : Req) (s : State) : exec (.captExport q) s = .next (runOp opCaptExport 0x0806 q s) := rfl
theorem exec_captRead (q : Req) (s : State) : exec (.captRead q) s = .next (runOp opCaptRead 0x0881 q s) := rfl
theorem exec_captStatus (q : Req) (s : State) : exec (.captStatus q) s = .next (runOp opCaptStatus 0x0882 q s) := rfl

/-- An operation on the granary answers OK, and changes alike what differs aside. -/
theorem grnOp_does {P : Req → State → Prop} {len op : Nat} {chk : Ctx → State → Bytes → Chk} {app : Ctx → State → Bytes → State} {mk : Req → Instr}
    {e : Req → State → State} (hx : ∀ q s, exec (mk q) s = .next (runOp (grnOp len chk app) op q s)) (ht : opTable op = some (grnOp len chk app))
    (f : Req → State → State → State) (happ : ∀ q s plan, Accepted (grnOp len chk app) op q s plan → P q s → ∀ c v, Aside q.mbox.val s v →
      c.replay = false → app c v q.payload = f q s v)
    (he : ∀ q s, P q s → ∀ v, Aside q.mbox.val s v → Aside q.mbox.val (e q s) (f q s v))
    (hf : ∀ q s v, ((f q s v).sess q.mbox.val).face = (v.sess q.mbox.val).face) : DoesIf P true (grnOp len chk app) op mk (done e) :=
  doesIf_journaled hx (fun _ _ _ _ _ => rfl) ht fun q s plan ha hP v c hv _ _ _ _ hr =>
    ⟨f q s v, congrArg Done.ok (happ q s plan ha hP c v hv hr), he q s hP v hv, hf q s v⟩

/-- The capture that CAPT_OPEN opens (R457-R460). -/
def openedCap (b : Bytes) : Capture :=
  { Capture.init with
    isOpen := true, stopMode := u8 b 1 == 1, bale := tb (u8 b 2) 0, mib := num b 4 2, snap := snapOf (num b 6 2)
    src := sourceOf (b.drop 8) 4 8, trig := u8 b 17, tone := u8 b 18, pre := num b 20 4 * 1000, post := num b 24 4 * 1000
    timeT := bytesTime (sub b 28 12), filt := cmpOf (b.drop 40), tcmp := cmpOf (b.drop 108) }

theorem captOpen_does : Does true opCaptOpen 0x0801 .captOpen (done fun q s => s.setCap (u8 q.payload 0) (openedCap q.payload)) :=
  grnOp_does exec_captOpen rfl (fun q _ v => v.setCap (u8 q.payload 0) (openedCap q.payload)) (fun _ _ _ _ _ _ _ _ _ => rfl)
    (fun _ _ _ _ hv => hv.setCap _ _) fun _ _ _ => rfl

theorem captClose_does : Does true opCaptClose 0x0802 .captClose
    (done fun q s => s.setGrn { s.grn with caps := kdel s.grn.caps (u8 q.payload 0) }) :=
  grnOp_does exec_captClose rfl (fun q s v => v.setGrn { s.grn with caps := kdel s.grn.caps (u8 q.payload 0) })
    (fun _ _ _ _ _ _ _ hv _ => by rw [← hv.grn_eq]) (fun _ _ _ _ hv => hv.setGrn _) fun _ _ _ => rfl

theorem captEnable_starts : DoesIf (fun q s => (s.cap (u8 q.payload 0)).st = .off) true opCaptEnable 0x0803 .captEnable
    (done fun q s => s.capStart (u8 q.payload 0)) :=
  grnOp_does exec_captEnable rfl (fun q _ v => v.capStart (u8 q.payload 0))
    (fun _ _ _ _ hP _ _ hv _ => by simp only [hv.cap_eq, hP]) (fun _ _ _ _ hv => hv.capStart _) fun _ _ _ => capStart_face _ _ _

theorem captEnable_held : DoesIf (fun q s => (s.cap (u8 q.payload 0)).st = .stopping) true opCaptEnable 0x0803 .captEnable (done fun q s =>
    s.setCap (u8 q.payload 0) { s.cap (u8 q.payload 0) with pendEn := true }) :=
  grnOp_does exec_captEnable rfl (fun q s v => v.setCap (u8 q.payload 0) { s.cap (u8 q.payload 0) with pendEn := true })
    (fun _ _ _ _ hP _ _ hv _ => by simp only [hv.cap_eq, hP]) (fun _ _ _ _ hv => hv.setCap _ _) fun _ _ _ => rfl

theorem captEnable_on : DoesIf (fun q s => (s.cap (u8 q.payload 0)).st = .on) true opCaptEnable 0x0803 .captEnable (done fun _ s => s) :=
  grnOp_does exec_captEnable rfl (fun _ _ v => v) (fun _ _ _ _ hP _ _ hv _ => by simp only [hv.cap_eq, hP]) (fun _ _ _ _ hv => hv) fun _ _ _ => rfl

theorem captDisable_stops : DoesIf (fun q s => (s.cap (u8 q.payload 0)).st = .on ∧ s.swt.begun = true) true opCaptDisable 0x0804 .captDisable
    (done fun q s => s.setCap (u8 q.payload 0) { s.cap (u8 q.payload 0) with st := .stopping, disAt := some s.now }) :=
  grnOp_does exec_captDisable rfl (fun q s v => v.setCap (u8 q.payload 0) { s.cap (u8 q.payload 0) with st := .stopping, disAt := some s.now })
    (fun _ _ _ _ hP _ _ hv _ => by simp only [State.capStop, hv.cap_eq, hP.1, hv.swt_eq, hP.2, hv.now_eq, if_true])
    (fun _ _ _ _ hv => hv.setCap _ _) fun _ _ _ => rfl

/-- A trigger names a capture that is ON. -/
theorem captTrigger_on {q : Req} {s : State} {plan : List Nat} (ha : Accepted opCaptTrigger 0x0805 q s plan) : (s.cap (u8 q.payload 0)).st = .on := by
  obtain ⟨-, h1⟩ := first_ok_cons ha.chk
  obtain ⟨-, h2⟩ := first_ok_cons h1
  obtain ⟨-, h3⟩ := first_ok_cons h2
  have h4 := (first_ok_cons h3).1
  rw [(aside_take q.mbox.isLt).cap_eq] at h4
  simpa using h4

theorem fireTrigger_again {s : State} {c : Nat} (h : (s.cap c).st = .on) (ht : (s.cap c).tt.isSome = true) (tt : Inst) (late : Bool) :
    s.fireTrigger c tt late = s.bump R.GRN_TRIG_EXTRA_CNT := by
  simp only [State.fireTrigger, h, ht, ne_eq, not_true_eq_false, if_false, if_true]

theorem fireTrigger_first {s : State} {c : Nat} (h : (s.cap c).st = .on) (ht : (s.cap c).tt = none) (tt : Inst) (late : Bool) :
    s.fireTrigger c tt late =
      let x := s.cap c
      let w0 : Int := (tt : Int) - x.pre * 65536
      let short := x.pre != 0 && (decide (w0 < x.enAt) || match x.overStamp with | some o => decide (w0 ≤ (o : Int)) | none => false)
      (((s.setCap c { x with tt := some tt, late := late, preShort := short }).bump R.GRN_TRIG_CNT).raise R.GRN_EVT 1).capWrite c
        (fun rs fl => record 4 fl c x.trig [] 0 tt 0 none rs 0 0) tt := by
  unfold State.fireTrigger
  exact (if_neg (not_not.2 h)).trans (if_neg (by rw [ht]; exact Bool.false_ne_true))

/-- The trigger of a command: as the capture's trigger at the present. -/
theorem captTrigger_fires {P : Req → State → Prop} :
    DoesIf P true opCaptTrigger 0x0805 .captTrigger (done fun q s => s.fireTrigger (u8 q.payload 0) s.now false) :=
  grnOp_does exec_captTrigger rfl (fun q s v => v.fireTrigger (u8 q.payload 0) s.now false)
    (fun _ _ _ _ _ _ _ hv _ => by rw [hv.now_eq]) (fun _ _ _ _ hv => hv.fireTrigger _ _ _) fun _ _ _ => fireTrigger_face _ _ _ _ _

/-- What an accepted command does, where its outcome may be written otherwise for one that is accepted. -/
theorem DoesIf.congr_accepted {P : Req → State → Prop} {jrn : Bool} {d : OpDef} {op : Nat} {mk : Req → Instr} {out out' : Req → State → State × Nat × Bytes}
    (h : DoesIf P jrn d op mk out) (e : ∀ q s plan, Accepted d op q s plan → P q s → out q s = out' q s) : DoesIf P jrn d op mk out' :=
  fun q s plan ha hP hr => e q s plan ha hP ▸ h q s plan ha hP hr

theorem captTrigger_counted : DoesIf (fun q s => (s.cap (u8 q.payload 0)).tt.isSome = true) true opCaptTrigger 0x0805 .captTrigger
    (done fun _ s => s.bump R.GRN_TRIG_EXTRA_CNT) :=
  captTrigger_fires.congr_accepted fun _ _ _ ha hP => by simp only [done, fireTrigger_again (captTrigger_on ha) hP]

theorem captTrigger_recorded : DoesIf (fun q s => (s.cap (u8 q.payload 0)).tt = none) true opCaptTrigger 0x0805 .captTrigger (done fun q s =>
    let c := u8 q.payload 0
    let x := s.cap c
    let w0 : Int := (s.now : Int) - x.pre * 65536
    let short := x.pre != 0 && (decide (w0 < x.enAt) || match x.overStamp with | some o => decide (w0 ≤ (o : Int)) | none => false)
    (((s.setCap c { x with tt := some s.now, late := false, preShort := short }).bump R.GRN_TRIG_CNT).raise R.GRN_EVT 1).capWrite c
      (fun rs fl => record 4 fl c x.trig [] 0 s.now 0 none rs 0 0) s.now) :=
  captTrigger_fires.congr_accepted fun _ _ _ ha hP => by
    simp only [done, fireTrigger_first (captTrigger_on ha) hP]

theorem captExport_does : Does true opCaptExport 0x0806 .captExport (done fun q s =>
    let x := s.cap (u8 q.payload 0)
    s.setCap (u8 q.payload 0) { x with exp := some ⟨destOf (q.payload.drop 1), x.oldest, false, s.loc⟩ }) :=
  grnOp_does exec_captExport rfl (fun q s v => v.setCap (u8 q.payload 0)
      { s.cap (u8 q.payload 0) with exp := some ⟨destOf (q.payload.drop 1), (s.cap (u8 q.payload 0)).oldest, false, s.loc⟩ })
    (fun _ _ _ _ _ _ _ hv _ => by rw [hv.cap_eq, hv.loc_eq]) (fun _ _ _ _ hv => hv.setCap _ _) fun _ _ _ => rfl

theorem captRead_does : Does false opCaptRead 0x0881 .captRead (replied fun q s =>
    let x := s.cap (u8 q.payload 0)
    let p := max (num q.payload 4 8) x.oldest
    let d := x.bytesAt p (num q.payload 12 4)
    be 8 p ++ be 4 d.length ++ d) :=
  does_direct exec_captRead (fun _ => rfl) fun _ _ _ _ => acts_read fun _ _ hv => by
    simp only [opCaptRead, replied, hv.cap_eq, Capture.readAt]

theorem captStatus_does : Does false opCaptStatus 0x0882 .captStatus (replied fun q s =>
    let x := s.cap (u8 q.payload 0)
    be 4 x.stat ++ be 8 x.off ++ be 4 x.rseq ++ timeBytes (x.tt.getD 0)) :=
  does_direct exec_captStatus (fun _ => rfl) fun _ _ _ _ => acts_read fun _ _ hv => by
    simp only [opCaptStatus, replied, hv.cap_eq]

/-! A TIME trigger (R460). -/

theorem captureTimeTrigger_fires (c : Fin 16) (s : State) (hon : (s.cap c.val).st = .on) (h3 : (s.cap c.val).trig = 3) (ht : (s.cap c.val).tt = none)
    (hn : (s.cap c.val).timeT ≤ s.now) : exec (.captureTimeTrigger c) s = .next (s.fireTrigger c.val (s.cap c.val).timeT false) :=
  congrArg Host.Outcome.next (if_pos ⟨hon, h3, by rw [ht]; rfl, hn⟩)

theorem captureTimeTrigger_early (c : Fin 16) (s : State) (h : s.now < (s.cap c.val).timeT) : exec (.captureTimeTrigger c) s = .next s :=
  congrArg Host.Outcome.next (if_neg fun k => Nat.not_le.2 h k.2.2.2)

/-! Exports (R469, R473). -/

theorem exportCapture_paced {s : State} {c : Nat} {j : ExpJob} (hj : (s.cap c).exp = some j) (h : s.loc < j.nextAt ∨ s.loc < s.grn.expAt) :
    s.exportCapture c = s := by
  simp only [State.exportCapture, hj, h, if_true]

/-- A full frame on its way out that has lost nothing and does not end here. -/
theorem exportCapture_full {s : State} {c : Nat} {j : ExpJob} (hj : (s.cap c).exp = some j) (hn : j.nextAt ≤ s.loc) (he : s.grn.expAt ≤ s.loc)
    (hr : j.resync = false) (ho : (s.cap c).oldest ≤ j.pos) (hd : ((s.cap c).bytesAt j.pos (s.dataRoom j.dest)).length = s.dataRoom j.dest)
    (hst : (s.cap c).st ≠ .off ∨ j.pos + s.dataRoom j.dest < (s.cap c).off) :
    let d := (s.cap c).bytesAt j.pos (s.dataRoom j.dest)
    let b := s.dataFrame j.dest 1 (b2n (s.cap c).bale * 32) c j.pos d
    s.exportCapture c = (s.setCap c { s.cap c with
      exp := some { j with pos := j.pos + s.dataRoom j.dest, nextAt := s.loc + paceI (flen b) j.dest.mbps } }).sendData j.dest b (.xport true c)
        true true := by
  have hpace : ¬ (s.loc < j.nextAt ∨ s.loc < s.grn.expAt) := by omega
  have hlost : ¬ j.pos < (s.cap c).oldest := by omega
  have hend : ((s.cap c).st == .off && (s.cap c).endCause != 0 && decide (j.pos + s.dataRoom j.dest = (s.cap c).off)) = false := by
    rcases hst with h | h
    · simp [h]
    · have : ¬ j.pos + s.dataRoom j.dest = (s.cap c).off := by omega
      simp [this]
  have hf : ({ j with resync := false } : ExpJob) = j := by rw [← hr]
  obtain ⟨dest, pos, resync, nextAt⟩ := j
  simp only at hr
  subst hr
  simp only [State.exportCapture, hj, hpace, if_false, hlost, decide_false, Nat.max_eq_left ho, hd, hend, Nat.lt_irrefl, false_and,
    Bool.false_eq_true, b2n, Bool.or_false, Nat.zero_mul, Nat.zero_add]

theorem exportTap_sends {s : State} {r : Nat} {e : Nat × Bytes × Nat} {es : List (Nat × Bytes × Nat)} (hn : (s.gring 0 r).nextAt ≤ s.loc)
    (he : s.grn.expAt ≤ s.loc) (hf : fitEntries (s.dataRoom (s.gring 0 r).dest) (s.gring 0 r).ents = e :: es) :
    let x := s.gring 0 r
    let b := s.dataFrame x.dest 2 0 r e.1 ((e :: es).flatMap fun q => q.2.1)
    s.exportTap r = ((s.setGring 0 r { x with
      ents := x.ents.drop (es.length + 1), nextAt := s.loc + paceI (flen b) x.dest.mbps }).sendData x.dest b (.xport false r) true true).ringRest 0 r := by
  have hpace : ¬ (s.loc < (s.gring 0 r).nextAt ∨ s.loc < s.grn.expAt) := by omega
  simp only [State.exportTap, hpace, if_false, hf, List.length_cons]

/-! The stream offset in a register (R483). -/

/-- A value read through a register is known by its low 32 bits. -/
theorem Reads.congr_val {mk : Path → Instr} {a : Nat} {act : Bool → State → State} {val : Bool → State → Nat}
    (h : Reads mk a act fun i s => val i s % 2 ^ 32) : Reads mk a act val := by
  obtain ⟨hq, hi⟩ := h
  refine ⟨fun c s ha => ?_, fun s hs => ?_⟩
  · have hc := hq c s ha
    rwa [show (2 : Nat) ^ 32 = 256 ^ 4 from rfl, be_mod] at hc
  · rw [hi s hs, show BitVec.ofNat 32 (val true (act true s) % 2 ^ 32) = BitVec.ofNat 32 (val true (act true s)) from
      BitVec.eq_of_toNat_eq (by simp)]

theorem Aside.strmLatch {m : Nat} {s t : State} (h : Aside m s t) (i2c : Bool) : Aside m (s.strmLatch i2c) (t.strmLatch i2c) := by
  simp only [State.strmLatch, h.cap_eq, h.fld_eq (f := R.GRN_SEL_CAPT) (by decide), h.grn_eq]
  exact aside_ite (h.setGrn _) (h.setGrn _)

theorem readReg_strmHi (s : State) (i2c : Bool) :
    s.readReg i2c R.GRN_CAP_STRM_HI = (s.cap (s.fld R.GRN_SEL_CAPT)).off / 2 ^ 32 % 2 ^ 32 := by
  obtain ⟨r, hr⟩ := Option.isSome_iff_exists.1 (show (regAt R.GRN_CAP_STRM_HI).isSome by decide)
  have hv : s.view i2c R.GRN_CAP_STRM_HI = some ((s.cap (s.fld R.GRN_SEL_CAPT)).off / 2 ^ 32) := rfl
  simp only [State.readReg, hr, hv, Option.getD_some]

theorem grnCapStrmHi_reads : Reads .grnCapStrmHiRead R.GRN_CAP_STRM_HI (fun i s => s.strmLatch i)
    (fun _ s => (s.cap (s.fld R.GRN_SEL_CAPT)).off / 2 ^ 32) := by
  refine Reads.congr_val (reads_of_readAct (fun _ _ => rfl) (by decide) (by decide) (fun _ _ => rfl) (fun i s => readReg_strmHi _ i) (fun _ _ _ => rfl)
    (fun _ _ => rfl) (fun _ _ _ h => h.strmLatch _) (fun _ _ _ h => ?_) fun _ _ => rfl)
  simp only [h.cap_eq, h.fld_eq (f := R.GRN_SEL_CAPT) (by decide)]

end Sys2Proof.Machine

section

open Sys2Proof Sys2Proof.Machine

/-- Settles O44: the operations change the granary alike on every state that differs aside; a trigger, an export and a latch are what the model's
own helper does under the condition given. -/
theorem capturesAreOpenedRunAndRead : Obligations.CapturesAreOpenedRunAndRead := by
  unfold Obligations.CapturesAreOpenedRunAndRead
  refine ⟨captOpen_does, captClose_does, captEnable_starts, captEnable_held, captEnable_on, captDisable_stops, captTrigger_counted,
    captTrigger_recorded, captExport_does, captRead_does, captStatus_does, captureTimeTrigger_fires, captureTimeTrigger_early,
    fun c s j hj hn he hr ho hd hst => congrArg _ (exportCapture_full hj hn he hr ho hd hst), fun c s j hj h => congrArg _ (exportCapture_paced hj h),
    fun r s e es hn he hf => congrArg _ (exportTap_sends hn he hf), grnCapStrmHi_reads⟩

end


namespace Sys2Proof.Machine

open Sys2Proof

/-! Patterns, players and rings beside what a command's reply is kept in. -/

section congr
variable {m : Nat} {s t : State} (h : Aside m s t)
include h

theorem Aside.player_eq (p : Nat) : t.player p = s.player p := by unfold State.player; rw [h.grn_eq]

theorem Aside.setPlayer (p : Nat) (x : Player) : Aside m (s.setPlayer p x) (t.setPlayer p x) := by
  unfold State.setPlayer
  rw [h.grn_eq, h.player_eq]
  exact (h.setGrn _).report _ _ _

theorem Aside.endPlayer (p : Nat) : Aside m (s.endPlayer p) (t.endPlayer p) := by
  unfold State.endPlayer
  rw [h.player_eq]
  exact (h.setPlayer _ _).raise (by decide) (by decide) _

theorem Aside.armPlayer_eq (b : Bytes) : t.armPlayer b = s.armPlayer b := by
  simp only [State.armPlayer, h.now_eq]

theorem Aside.ringRest (k r : Nat) : Aside m (s.ringRest k r) (t.ringRest k r) := by
  simp only [State.ringRest, h.gring_eq]
  exact aside_ite (h.setGring _ _ _) h

theorem Aside.ringStart (k r : Nat) : Aside m (s.ringStart k r) (t.ringStart k r) := by
  unfold State.ringStart
  rw [h.gring_eq]
  exact h.setGring _ _ _

theorem Aside.ringStop (k r : Nat) : Aside m (s.ringStop k r) (t.ringStop k r) := by
  simp only [State.ringStop, h.gring_eq]
  split
  · exact (h.setGring _ _ _).ringRest _ _
  · exact h.setGring _ _ _
  · exact h.setGring _ _ _

end congr

section face
variable (s : State) (m : Nat)

theorem setPlayer_sess (p : Nat) (x : Player) : (s.setPlayer p x).sess m = s.sess m := rfl

theorem endPlayer_face (p : Nat) : ((s.endPlayer p).sess m).face = (s.sess m).face := by
  rw [State.endPlayer, raise_face, setPlayer_sess]

theorem ringRest_sess (k r : Nat) : (s.ringRest k r).sess m = s.sess m := by
  simp only [State.ringRest]
  split
  · exact setGring_sess _ _ _ _ _
  · rfl

theorem ringStop_sess (k r : Nat) : (s.ringStop k r).sess m = s.sess m := by
  simp only [State.ringStop]
  split
  · rw [ringRest_sess, setGring_sess]
  · exact setGring_sess _ _ _ _ _
  · exact setGring_sess _ _ _ _ _

end face

theorem player_setPlayer_same (s : State) (p : Nat) (x : Player) : (s.setPlayer p x).player p = x := kgetD_kset_same _ _ _ _

theorem exec_pattLoad (q : Req) (s : State) : exec (.pattLoad q) s = .next (runOp opPattLoad 0x0901 q s) := rfl
theorem exec_pattFromCapt (q : Req) (s : State) : exec (.pattFromCapt q) s = .next (runOp opPattFromCapt 0x0902 q s) := rfl
theorem exec_pattDelete (q : Req) (s : State) : exec (.pattDelete q) s = .next (runOp opPattDelete 0x0903 q s) := rfl
theorem exec_pattPlay (q : Req) (s : State) : exec (.pattPlay q) s = .next (runOp opPattPlay 0x0904 q s) := rfl
theorem exec_pattStop (q : Req) (s : State) : exec (.pattStop q) s = .next (runOp opPattStop 0x0905 q s) := rfl
theorem exec_pattInfo (q : Req) (s : State) : exec (.pattInfo q) s = .next (runOp opPattInfo 0x0981 q s) := rfl
theorem exec_ringOpen (q : Req) (s : State) : exec (.ringOpen q) s = .next (runOp opRingOpen 0x0A01 q s) := rfl
theorem exec_ringClose (q : Req) (s : State) : exec (.ringClose q) s = .next (runOp opRingClose 0x0A02 q s) := rfl
theorem exec_ringEnable (q : Req) (s : State) : exec (.ringEnable q) s = .next (runOp opRingEnable 0x0A03 q s) := rfl
theorem exec_ringDisable (q : Req) (s : State) : exec (.ringDisable q) s = .next (runOp opRingDisable 0x0A04 q s) := rfl
theorem exec_ringFeed (q : Req) (s : State) : exec (.ringFeed q) s = .next (runOp opRingFeed 0x0A05 q s) := rfl
theorem exec_ringStatus (q : Req) (s : State) : exec (.ringStatus q) s = .next (runOp opRingStatus 0x0A81 q s) := rfl

/-! Patterns (R471, R477). -/

/-- A pattern is stored under its number. -/
def State.patStored (s : State) (i : Nat) (p : Pattern) : State := s.setGrn { s.grn with pats := kset s.grn.pats i p }

theorem Aside.patStored {m : Nat} {s t : State} (h : Aside m s t) (i : Nat) (p : Pattern) : Aside m (s.patStored i p) (t.patStored i p) := by
  unfold State.patStored
  rw [h.grn_eq]
  exact h.setGrn _

theorem pattLoad_stores (q : Req) (s : State) (plan : List Nat) (d : Bytes) (ha : Accepted opPattLoad 0x0901 q s plan) (hr : Room q s)
    (hd : pattStream q.payload = .inr d) :
    Completes true (.pattLoad q) 0x0901 q s (s.patStored (num q.payload 0 2) (patternOf d)) St.ok 0 [] :=
  completes_journaled (exec_pattLoad q s) ha rfl (Nat.zero_le _) hr rfl fun v c hv _ _ _ _ hrep =>
    ⟨v.patStored (num q.payload 0 2) (patternOf d), by simp only [opPattLoad, hrep, hd]; rfl, hv.patStored _ _, rfl⟩

theorem pattFromCapt_does : Does true opPattFromCapt 0x0902 .pattFromCapt (done fun q s =>
    s.patStored (num q.payload 0 2) (patternOf ((s.cap (u8 q.payload 2)).bytesAt (num q.payload 4 8) (num q.payload 12 8)))) :=
  grnOp_does exec_pattFromCapt rfl
    (fun q s v => v.patStored (num q.payload 0 2) (patternOf ((s.cap (u8 q.payload 2)).bytesAt (num q.payload 4 8) (num q.payload 12 8))))
    (fun _ _ _ _ _ _ _ hv hr => by simp only [hr, hv.cap_eq]; rfl) (fun _ _ _ _ hv => hv.patStored _ _) fun _ _ _ => rfl

theorem pattDelete_does : Does true opPattDelete 0x0903 .pattDelete
    (done fun q s => s.setGrn { s.grn with pats := kdel s.grn.pats (num q.payload 0 2) }) :=
  grnOp_does exec_pattDelete rfl (fun q s v => v.setGrn { s.grn with pats := kdel s.grn.pats (num q.payload 0 2) })
    (fun _ _ _ _ _ _ _ hv _ => by rw [← hv.grn_eq]) (fun _ _ _ _ hv => hv.setGrn _) fun _ _ _ => rfl

theorem pattInfo_does : Does false opPattInfo 0x0981 .pattInfo (replied fun q s => match kget s.grn.pats (num q.payload 0 2) with
    | none => zeros 24
    | some p => be 1 (if p.empty then 2 else 1) ++ zeros 3 ++ be 8 p.bytes ++ be 4 p.items.length ++ be 8 (p.span / 65536)) :=
  does_direct exec_pattInfo (fun _ => rfl) fun q s _ _ => acts_read fun _ _ hv => by
    simp only [opPattInfo, replied, hv.grn_eq]
    cases kget s.grn.pats (num q.payload 0 2) <;> rfl

/-! Players are armed and stopped (R478-R480). -/

/-- A player that a PATT_PLAY arms: what it skips is counted (R61). -/
def State.played (s : State) (p : Nat) (y : Player) : State :=
  ((s.setPlayer p y).bumpBy R.GRN_PLAY_SKIP_CNT y.rep).bumpBy R.SWT_SKIP_OCC_CNT y.rep

theorem Aside.played {m : Nat} {s t : State} (h : Aside m s t) (p : Nat) (y : Player) : Aside m (s.played p y) (t.played p y) :=
  ((h.setPlayer p y).bumpBy (by decide) _).bumpBy (by decide) _

/-- A player that skips nothing counts nothing. -/
theorem played_none {m : Nat} (s : State) (p : Nat) {y : Player} (h : y.rep = 0) : Aside m (s.setPlayer p y) (s.played p y) := by
  rw [State.played, h]
  exact (aside_bumpBy_zero (by decide)).trans (aside_bumpBy_zero (by decide))

/-- A player that is OFF and does not end at once is armed. -/
theorem pattPlay_app {c : Ctx} {s : State} {b : Bytes} {plan : List Nat} (hst : (s.player (u8 b 0)).st = .off) (hr : c.replay = false)
    (hend : ¬ ((s.armPlayer b).reps ≠ 0 ∧ (s.armPlayer b).reps ≤ (s.armPlayer b).rep)) : opPattPlay.app c plan s b =
      ⟨s.played (u8 b 0) (s.armPlayer b), if (s.armPlayer b).late then St.late else St.ok, 0, [], false⟩ := by
  simp only [opPattPlay, hst, hr, ne_eq, not_true_eq_false, if_false, Bool.false_eq_true]
  rw [if_neg hend]
  rfl

theorem pattPlay_acts {q : Req} {s : State} {plan : List Nat} (hst : (s.player (u8 q.payload 0)).st = .off)
    (hend : ¬ ((s.armPlayer q.payload).reps ≠ 0 ∧ (s.armPlayer q.payload).reps ≤ (s.armPlayer q.payload).rep)) :
    Acts opPattPlay 0x0904 plan q s (s.played (u8 q.payload 0) (s.armPlayer q.payload))
      (if (s.armPlayer q.payload).late then St.late else St.ok) 0 [] := fun v c hv _ _ _ _ hr => by
  have ha := hv.armPlayer_eq q.payload
  refine ⟨v.played (u8 q.payload 0) (v.armPlayer q.payload), ?_, ?_, rfl⟩
  · rw [pattPlay_app (by rw [hv.player_eq, hst]) hr (by rw [ha]; exact hend), ha]
  · rw [ha]
    exact hv.played _ _

/-- The player that a PATT_PLAY arms in time. -/
def playerOf (b : Bytes) : Player :=
  { Player.init with
    st := .starting, pat := num b 4 2, start := bytesTime (sub b 20 12), reps := num b 6 2, per := num b 8 8 * 65536
    port := (if tb (u8 b 1) 0 then some (u8 b 2) else none), cls := (if tb (u8 b 1) 1 then some (u8 b 3) else none)
    leg := (if num b 16 4 = 0xFFFFFFFF then none else some (num b 16 4 % 2 ^ 17)) }

theorem armPlayer_inTime {s : State} {b : Bytes} (h : s.now + nsI 20000 ≤ bytesTime (sub b 20 12)) : s.armPlayer b = playerOf b := by
  have hlate : ¬ bytesTime (sub b 20 12) < s.now + playLead := Nat.not_lt.2 h
  have hfirst : firstRep (bytesTime (sub b 20 12)) (num b 8 8 * 65536) (s.now + playLead) = 0 := if_pos h
  simp only [State.armPlayer, playerOf, hlate, hfirst, decide_false, Bool.false_eq_true, and_false, if_false, ite_self, Bool.and_false]
  rfl

theorem pattPlay_inTime : DoesIf (fun q s => (s.player (u8 q.payload 0)).st = .off ∧ s.now + nsI 20000 ≤ bytesTime (sub q.payload 20 12)) true
    opPattPlay 0x0904 .pattPlay (done fun q s => s.setPlayer (u8 q.payload 0) (playerOf q.payload)) :=
  doesIf_journaled exec_pattPlay (fun _ _ _ _ _ => rfl) rfl fun q s plan _ hP v c hv hf hm hs ho hr => by
    obtain ⟨hst, hT⟩ := hP
    have hy := armPlayer_inTime hT
    have hend : ¬ ((s.armPlayer q.payload).reps ≠ 0 ∧ (s.armPlayer q.payload).reps ≤ (s.armPlayer q.payload).rep) := by
      rw [hy]
      exact fun k => k.1 (Nat.le_zero.1 k.2)
    obtain ⟨w, hw, hA, hface⟩ := pattPlay_acts hst hend v c hv hf hm hs ho hr
    rw [hy] at hw hA
    exact ⟨w, hw, (played_none s _ rfl).trans hA, hface⟩

theorem le_nextMul {p : Nat} (hp : 0 < p) (t : Nat) : t ≤ nextMul p t := by
  have hdiv := Nat.div_add_mod (t + p - 1) p
  have hmod := Nat.mod_lt (t + p - 1) hp
  rw [nextMul, cdiv, Nat.mul_comm]
  omega

/-- A one-shot armed within its lead of 2 us is late: it is due at the first tick that it can meet (R59, R60). -/
theorem pattPlay_oneShotLate (q : Req) (s : State) (ha : Accepted opPattPlay 0x0904 q s []) (hr : Room q s)
    (hst : (s.player (u8 q.payload 0)).st = .off) (h1 : num q.payload 6 2 = 1) (hT : bytesTime (sub q.payload 20 12) < s.now + nsI 20000) :
    ∃ e, Completes true (.pattPlay q) 0x0904 q s e St.late 0 [] ∧ (e.player (u8 q.payload 0)).st = .starting ∧ (e.player (u8 q.payload 0)).late = true ∧
      (e.player (u8 q.payload 0)).start + (e.player (u8 q.payload 0)).shift = tickAt (s.now + nsI 20000) := by
  have hlate : bytesTime (sub q.payload 20 12) < s.now + playLead := hT
  have hrep : (s.armPlayer q.payload).rep = 0 := by simp only [State.armPlayer, h1, if_true]
  have hreps : (s.armPlayer q.payload).reps = 1 := h1
  have hl : (s.armPlayer q.payload).late = true := by simp only [State.armPlayer, h1, hlate, decide_true, Bool.and_self]
  have hacts := pattPlay_acts (plan := []) hst (by rw [hrep, hreps]; omega)
  rw [hl, if_pos rfl] at hacts
  have hpl : (s.played (u8 q.payload 0) (s.armPlayer q.payload)).player (u8 q.payload 0) = s.armPlayer q.payload := player_setPlayer_same _ _ _
  refine ⟨_, completes_journaled (exec_pattPlay q s) ha rfl (Nat.zero_le _) hr rfl hacts, ?_⟩
  rw [hpl]
  refine ⟨rfl, hl, ?_⟩
  have hge : s.now + playLead ≤ tickAt (s.now + playLead) := le_nextMul (by decide) _
  have hshift : (s.armPlayer q.payload).shift = tickAt (s.now + playLead) - bytesTime (sub q.payload 20 12) := by
    simp only [State.armPlayer, h1, hlate, decide_true, and_self, if_true]
  rw [hshift]
  exact Nat.add_sub_cancel' (Nat.le_trans (Nat.le_of_lt hlate) hge)

/-- A pattern that repeats without end is given a period. -/
theorem pattPlay_period {q : Req} {s : State} {plan : List Nat} (ha : Accepted opPattPlay 0x0904 q s plan) (h0 : num q.payload 6 2 = 0) :
    1 ≤ num q.payload 8 8 * 65536 := by
  obtain ⟨-, h1⟩ := first_ok_cons ha.chk
  obtain ⟨-, h2⟩ := first_ok_cons h1
  obtain ⟨-, h3⟩ := first_ok_cons h2
  obtain ⟨-, h4⟩ := first_ok_cons h3
  obtain ⟨-, h5⟩ := first_ok_cons h4
  obtain ⟨-, h6⟩ := first_ok_cons h5
  obtain ⟨-, h7⟩ := first_ok_cons h6
  obtain ⟨-, h8⟩ := first_ok_cons h7
  have h := of_decide_eq_false (first_ok_cons h8).1
  rw [h0] at h
  omega

/-- The repeats that a late start without end passes over (R61, R479). -/
def State.skipped (s : State) (b : Bytes) : Nat := cdiv (s.now + nsI 20000 - bytesTime (sub b 20 12)) (num b 8 8 * 65536)

theorem armPlayer_skips {s : State} {b : Bytes} (h0 : num b 6 2 = 0) (hT : bytesTime (sub b 20 12) < s.now + nsI 20000) (hp : 1 ≤ num b 8 8 * 65536) :
    s.armPlayer b = { playerOf b with reps := 0, rep := s.skipped b, done := min 65535 (s.skipped b) } := by
  have hfirst : firstRep (bytesTime (sub b 20 12)) (num b 8 8 * 65536) (s.now + playLead) = s.skipped b := by
    have hlate : bytesTime (sub b 20 12) < s.now + playLead := hT
    rw [firstRep, if_neg (Nat.not_le.2 hlate), Nat.max_eq_right hp]
    rfl
  simp only [State.armPlayer, playerOf, h0, hfirst, Nat.zero_ne_one, false_and, if_false, decide_false, Bool.false_and]
  rfl

theorem pattPlay_skips : DoesIf (fun q s => (s.player (u8 q.payload 0)).st = .off ∧ num q.payload 6 2 = 0 ∧
      bytesTime (sub q.payload 20 12) < s.now + nsI 20000) true opPattPlay 0x0904 .pattPlay
    (done fun q s => s.played (u8 q.payload 0) { playerOf q.payload with reps := 0, rep := s.skipped q.payload, done := min 65535 (s.skipped q.payload) }) :=
  doesIf_journaled exec_pattPlay (fun _ _ _ _ _ => rfl) rfl fun q s plan ha hP => by
    obtain ⟨hst, h0, hT⟩ := hP
    have hy := armPlayer_skips h0 hT (pattPlay_period ha h0)
    have hacts := pattPlay_acts (plan := plan) hst (by rw [hy]; exact fun k => k.1 rfl)
    rw [hy] at hacts
    exact hacts

theorem pattPlay_runs : DoesIf (fun q s => (s.player (u8 q.payload 0)).st ≠ .off) true opPattPlay 0x0904 .pattPlay (done fun _ s => s) :=
  doesIf_journaled exec_pattPlay (fun _ _ _ _ _ => rfl) rfl fun q s plan _ hP =>
    acts_of_aside (f := id) (fun c v hv => if_pos (by rw [hv.player_eq]; exact hP)) (fun _ hv => hv) fun _ => rfl

theorem pattStop_ends : DoesIf (fun q s => (s.player (u8 q.payload 0)).st ≠ .off) true opPattStop 0x0905 .pattStop (done fun q s =>
    (s.setPlayer (u8 q.payload 0) { s.player (u8 q.payload 0) with st := .off, pendEn := false }).raise R.GRN_EVT 32) :=
  grnOp_does exec_pattStop rfl (fun q _ v => v.endPlayer (u8 q.payload 0))
    (fun _ _ _ _ hP _ _ hv _ => if_neg (by rw [hv.player_eq]; exact hP)) (fun _ _ _ _ hv => hv.endPlayer _) fun _ _ _ => endPlayer_face _ _ _

theorem pattStop_off : DoesIf (fun q s => (s.player (u8 q.payload 0)).st = .off) true opPattStop 0x0905 .pattStop (done fun _ s => s) :=
  grnOp_does exec_pattStop rfl (fun _ _ v => v) (fun _ _ _ _ hP _ _ hv _ => if_pos (by rw [hv.player_eq]; exact hP)) (fun _ _ _ _ hv => hv)
    fun _ _ _ => rfl

/-! A player starts and releases its items (R478-R480). -/

theorem playStart_reached {s : State} {p : Nat} (hst : (s.player p).st = .starting) (hl : (s.player p).late = false)
    (hT : (s.player p).start + (s.player p).shift + (s.player p).rep * (s.player p).per ≤ s.now) :
    s.playStart p = s.setPlayer p { s.player p with st := .on } := by
  simp only [State.playStart, hst, hT, hl, and_self, if_true, Bool.false_eq_true, if_false]

theorem exec_timedTout (n : Fin 4) (s : State) : exec (.timedActionExec (.tout n)) s = exec (.toutPulse n) s := rfl

/-- A frame that an item of a player releases. -/
def State.itemSent (s : State) (p : Nat) (x : Player) (i : PItem) : State :=
  ((s.bump R.GRN_PLAY_ITEM_CNT).txRequest (x.port.getD i.port % 8)
    { TxFrame.plain i.data (x.cls.getD i.cls) (.pattern p) with playback := true }).1

theorem releaseItem_frame {s : State} {p v : Nat} {x : Player} {i : PItem} (hp : x.passed ≤ v) (hk : i.kind ≠ 3) :
    s.releaseItem p x i v = s.itemSent p x i := by
  simp only [State.releaseItem, Nat.not_lt.2 hp, hk, if_false, State.itemSent]

section release
variable {p : Fin 64} {s : State} {i : PItem} (hi : (s.patOf (s.player p.val).pat).items[(s.player p.val).item]? = some i)
include hi

theorem patternItemRelease_early (h : s.now < (s.player p.val).start + (s.player p.val).shift + (s.player p.val).rep * (s.player p.val).per + i.di) :
    exec (.patternItemRelease p) s = .next s := by
  show execPatternItemRelease p s = _
  simp only [execPatternItemRelease, hi, h, or_true, if_true]

variable (hon : (s.player p.val).st = .on)
  (hv : (s.player p.val).start + (s.player p.val).shift + (s.player p.val).rep * (s.player p.val).per + i.di ≤ s.now)
  (hp : (s.player p.val).passed ≤ (s.player p.val).start + (s.player p.val).shift + (s.player p.val).rep * (s.player p.val).per + i.di)
  (hk : i.kind ≠ 3)
include hon hv hp hk

theorem patternItemRelease_next (hn : (s.player p.val).item + 1 < (s.patOf (s.player p.val).pat).items.length) : exec (.patternItemRelease p) s =
    .next ((s.itemSent p.val (s.player p.val) i).setPlayer p.val { s.player p.val with item := (s.player p.val).item + 1 }) := by
  show execPatternItemRelease p s = _
  simp only [execPatternItemRelease, hi, hon, Nat.not_lt.2 hv, ne_eq, not_true_eq_false, or_self, if_false, hn, if_true, releaseItem_frame hp hk]

theorem patternItemRelease_repeats (hn : (s.patOf (s.player p.val).pat).items.length = (s.player p.val).item + 1)
    (hr : (s.player p.val).reps = 0 ∨ (s.player p.val).rep + 1 < (s.player p.val).reps) : exec (.patternItemRelease p) s =
    .next ((s.itemSent p.val (s.player p.val) i).setPlayer p.val
      { s.player p.val with item := 0, rep := (s.player p.val).rep + 1, done := min 65535 ((s.player p.val).done + 1) }) := by
  have hend : ¬ ((s.player p.val).reps ≠ 0 ∧ (s.player p.val).reps ≤ (s.player p.val).rep + 1) := by omega
  show execPatternItemRelease p s = _
  simp only [execPatternItemRelease, hi, hon, Nat.not_lt.2 hv, ne_eq, not_true_eq_false, or_self, if_false, hn, Nat.lt_irrefl, releaseItem_frame hp hk]
  rw [if_neg hend]

end release

/-! Rings (R472-R476). -/

theorem ringOpen_tap : DoesIf (fun q _ => u8 q.payload 1 = 0) true opRingOpen 0x0A01 .ringOpen (done fun q s =>
    let b := q.payload
    s.setGring 0 (u8 b 0) { GRing.init with
      isOpen := true, n := u8 b 2, dest := destOf (b.drop 85), mib := cdiv (2 ^ u8 b 2 * 2048) 1048576, src := sourceOf (b.drop 4) 4 8
      snap := (if num b 14 2 = 0 then 9600 else num b 14 2), filt := cmpOf (b.drop 16) }) :=
  doesIf_journaled exec_ringOpen (fun _ _ _ _ _ => rfl) rfl fun q s _ _ hP => acts_of_aside
    (f := fun v => v.setGring 0 (u8 q.payload 0) { GRing.init with
      isOpen := true, n := u8 q.payload 2, dest := destOf (q.payload.drop 85), mib := cdiv (2 ^ u8 q.payload 2 * 2048) 1048576
      src := sourceOf (q.payload.drop 4) 4 8, snap := (if num q.payload 14 2 = 0 then 9600 else num q.payload 14 2), filt := cmpOf (q.payload.drop 16) })
    (fun _ _ _ => by simp only [opRingOpen, hP, ringDestOff, ringMib, snapOf, if_true]; rfl) (fun _ hv => hv.setGring _ _ _)
    fun _ => congrArg _ (setGring_sess _ _ _ _ _)

theorem ringOpen_inject : DoesIf (fun q _ => u8 q.payload 1 = 1) true opRingOpen 0x0A01 .ringOpen (done fun q s =>
    let b := q.payload
    s.setGring 1 (u8 b 0) { GRing.init with isOpen := true, n := u8 b 2, dest := destOf (b.drop 5), mib := cdiv (2 ^ u8 b 2 * 9632) 1048576 }) :=
  doesIf_journaled exec_ringOpen (fun _ _ _ _ _ => rfl) rfl fun q s _ _ hP => acts_of_aside
    (f := fun v => v.setGring 1 (u8 q.payload 0)
      { GRing.init with isOpen := true, n := u8 q.payload 2, dest := destOf (q.payload.drop 5), mib := cdiv (2 ^ u8 q.payload 2 * 9632) 1048576 })
    (fun _ _ _ => by simp only [opRingOpen, hP, ringDestOff, ringMib, Nat.one_ne_zero, if_false]; rfl) (fun _ hv => hv.setGring _ _ _)
    fun _ => congrArg _ (setGring_sess _ _ _ _ _)

/-- A ring that is closed is gone. -/
def State.ringClosed (s : State) (k r : Nat) : State :=
  if k = 0 then s.setGrn { s.grn with taps := kdel s.grn.taps r } else s.setGrn { s.grn with injs := kdel s.grn.injs r }

theorem ringClose_does : Does true opRingClose 0x0A02 .ringClose (done fun q s => s.ringClosed (u8 q.payload 1) (u8 q.payload 0)) :=
  grnOp_does exec_ringClose rfl (fun q _ v => v.ringClosed (u8 q.payload 1) (u8 q.payload 0)) (fun _ _ _ _ _ _ _ _ _ => rfl)
    (fun q s _ v hv => by
      simp only [State.ringClosed, hv.grn_eq]
      exact aside_ite (hv.setGrn _) (hv.setGrn _))
    fun q s v => by
      simp only [State.ringClosed]
      split <;> rfl

theorem ringEnable_starts : DoesIf (fun q s => (s.gring (u8 q.payload 1) (u8 q.payload 0)).st = .off) true opRingEnable 0x0A03 .ringEnable
    (done fun q s => s.ringStart (u8 q.payload 1) (u8 q.payload 0)) :=
  grnOp_does exec_ringEnable rfl (fun q _ v => v.ringStart (u8 q.payload 1) (u8 q.payload 0))
    (fun _ _ _ _ hP _ _ hv _ => by simp only [hv.gring_eq, hP]) (fun _ _ _ _ hv => hv.ringStart _ _)
    fun _ _ _ => congrArg _ (setGring_sess _ _ _ _ _)

theorem ringEnable_held : DoesIf (fun q s => (s.gring (u8 q.payload 1) (u8 q.payload 0)).st = .stopping) true opRingEnable 0x0A03 .ringEnable
    (done fun q s => s.setGring (u8 q.payload 1) (u8 q.payload 0) { s.gring (u8 q.payload 1) (u8 q.payload 0) with pendEn := true }) :=
  grnOp_does exec_ringEnable rfl
    (fun q s v => v.setGring (u8 q.payload 1) (u8 q.payload 0) { s.gring (u8 q.payload 1) (u8 q.payload 0) with pendEn := true })
    (fun _ _ _ _ hP _ _ hv _ => by simp only [hv.gring_eq, hP]) (fun _ _ _ _ hv => hv.setGring _ _ _)
    fun _ _ _ => congrArg _ (setGring_sess _ _ _ _ _)

theorem ringDisable_does : Does true opRingDisable 0x0A04 .ringDisable (done fun q s => s.ringStop (u8 q.payload 1) (u8 q.payload 0)) :=
  grnOp_does exec_ringDisable rfl (fun q _ v => v.ringStop (u8 q.payload 1) (u8 q.payload 0)) (fun _ _ _ _ _ _ _ _ _ => rfl)
    (fun _ _ _ _ hv => hv.ringStop _ _) fun _ _ _ => congrArg _ (ringStop_sess _ _ _ _)

theorem ringFeed_does : Does true opRingFeed 0x0A05 .ringFeed (done fun _ s => s) :=
  does_journaled exec_ringFeed (fun _ => rfl) rfl fun _ _ _ _ => acts_of_aside (f := id) (fun _ _ _ => rfl) (fun _ hv => hv) fun _ => rfl

theorem ringStatus_does : Does false opRingStatus 0x0A81 .ringStatus (replied fun q s =>
    let x := s.gring (u8 q.payload 1) (u8 q.payload 0)
    be 1 x.st.code ++ zeros 3 ++ be 8 x.idx ++ be 8 (if u8 q.payload 1 = 0 then x.credit else x.wbNext)) :=
  does_direct exec_ringStatus (fun _ => rfl) fun _ _ _ _ => acts_read fun _ _ hv => by
    simp only [opRingStatus, replied, hv.gring_eq]

/-! Inject entries are launched, and their write-backs sent on (R476). -/

section launch
variable {r : Fin 16} {s : State} {i a : Nat} {e : Bytes} (hon : (s.gring 1 r.val).st = .on)
  (he : (s.gring 1 r.val).ents.find? (fun e => e.1 == (s.gring 1 r.val).launched) = some (i, e, a))
include hon he

theorem injectLaunch_early (hl : u8 e 32 ≠ 1) (h0 : bytesTime (sub e 8 12) ≠ 0) (hn : s.now < bytesTime (sub e 8 12)) : exec (.injectLaunch r) s = .next s := by
  show execInjectLaunch r s = _
  simp only [execInjectLaunch, he]
  rw [if_neg (not_not.2 hon), if_pos ⟨beq_eq_false_iff_ne.2 hl, h0, hn⟩]

/-- The ring once its next entry is launched. -/
def State.injNext (s : State) (r : Nat) : State := s.setGring 1 r { s.gring 1 r with launched := (s.gring 1 r).launched + 1 }

/-- The frame that an inject entry carries. -/
def injFrame (r i : Nat) (e : Bytes) : TxFrame := { TxFrame.plain (e.drop 33) (u8 e 2) (.inject r i) with tsReq := tb (u8 e 0) 7 }

theorem injectLaunch_refuses (hn : bytesTime (sub e 8 12) = 0 ∨ bytesTime (sub e 8 12) ≤ s.now) (hb : 6 < u8 e 2 ∨ 7 < u8 e 1) :
    exec (.injectLaunch r) s = .next ((s.injNext r.val).injRefuse r.val i e St.state) := by
  show execInjectLaunch r s = _
  simp only [execInjectLaunch, he]
  rw [if_neg (not_not.2 hon), if_neg fun k => hn.elim k.2.1 (Nat.not_le.2 k.2.2)]
  exact congrArg Host.Outcome.next (if_pos hb)

theorem injectLaunch_sends (hl : u8 e 32 ≠ 1) (hn : bytesTime (sub e 8 12) = 0 ∨ bytesTime (sub e 8 12) ≤ s.now) (h2 : u8 e 2 ≤ 6) (h1 : u8 e 1 ≤ 7)
    (hok : ((s.injNext r.val).txRequest (u8 e 1) (injFrame r.val i e)).2 = true) :
    exec (.injectLaunch r) s = .next (((s.injNext r.val).txRequest (u8 e 1) (injFrame r.val i e)).1.bump R.GRN_INJ_ENT_CNT) := by
  have hgood : ¬ (6 < u8 e 2 ∨ 7 < u8 e 1) := by omega
  have hlate : ¬ (u8 e 32 == 1) = true := by simpa using hl
  show execInjectLaunch r s = _
  simp only [execInjectLaunch, he]
  rw [if_neg (not_not.2 hon), if_neg fun k => hn.elim k.2.1 (Nat.not_le.2 k.2.2)]
  exact congrArg Host.Outcome.next ((if_neg hgood).trans ((if_pos hok).trans (if_neg hlate)))

end launch

theorem injectDone_sends {r : Fin 16} {s : State} {w : Nat × Bytes × Nat} {ws : List (Nat × Bytes × Nat)}
    (hrun : (wbRun (s.gring 1 r.val).wbs.length (s.gring 1 r.val).wbs (s.gring 1 r.val).wbNext).take (s.dataRoom (s.gring 1 r.val).dest / 32) = w :: ws)
    (h7 : 7 ≤ ws.length) (hn : (s.gring 1 r.val).nextAt ≤ s.loc) :
    let x := s.gring 1 r.val
    let b := s.dataFrame x.dest 3 0 r.val w.1 ((w :: ws).flatMap fun q => q.2.1)
    exec (.injectDoneSend r) s = .next (((s.setGring 1 r.val { x with
      wbs := x.wbs.filter fun q => !(w :: ws).contains q, wbNext := x.wbNext + (ws.length + 1)
      nextAt := s.loc + paceI (flen b) x.dest.mbps }).sendData x.dest b .none false false).ringRest 1 r.val) := by
  have hdue : ¬ (((w :: ws).length < 8 ∧ (w :: ws).all fun q => decide (s.loc < q.2.2 + nsI 100000)) ∨ s.loc < (s.gring 1 r.val).nextAt) := by
    rw [List.length_cons]
    omega
  show execInjectDoneSend r s = _
  simp only [execInjectDoneSend, hrun]
  rw [if_neg hdue]
  rfl

end Sys2Proof.Machine

section

open Sys2Proof Sys2Proof.Machine

/-- Settles O45: the operations change the granary alike on every state that differs aside; starts, releases and launches are the model's own
helpers under the conditions given. -/
theorem patternsArePlayedAndRingsInject : Obligations.PatternsArePlayedAndRingsInject := by
  unfold Obligations.PatternsArePlayedAndRingsInject
  refine ⟨pattLoad_stores, pattFromCapt_does, pattDelete_does, pattPlay_inTime, pattPlay_oneShotLate, pattPlay_skips, pattPlay_runs, pattStop_ends,
    pattStop_off, pattInfo_does, fun p s hst hl hT => congrArg _ (playStart_reached hst hl hT), exec_timedTout, fun p s i hon hi => ?_, ringOpen_tap,
    ringOpen_inject, ringClose_does, ringEnable_starts, ringEnable_held, ringDisable_does, ringFeed_does, ringStatus_does,
    fun r s i a e hon he hl => ⟨fun h => injectLaunch_early hon he hl h.1 h.2, fun h => ?_⟩, fun r s w ws hrun h7 hn => injectDone_sends hrun h7 hn⟩
  · exact ⟨fun h => patternItemRelease_early hi h, fun hv hp hk =>
      ⟨patternItemRelease_next hi hon hv hp hk, patternItemRelease_repeats hi hon hv hp hk⟩⟩
  · exact ⟨injectLaunch_refuses hon he h, injectLaunch_sends hon he hl h⟩

end


namespace Sys2Proof.Machine

open Sys2Proof

/-! A failed slice wakes a held creation, which may cut another slice (R361, R353, R508). -/

/-- The slice that fails: on filter chain engine 0. -/
def failedSlice : Slice := ⟨1, 0, 0, 0, 0, false, false⟩

/-- A slice on core 0, which has just begun. -/
def freshSlice : Slice := ⟨0, 0, 0, 0, nsI 44000, false, false⟩

/-- The cores of cluster 0: core 0 is under its slice, the others are mapped out. -/
def slicedCluster : KV Core :=
  (0, { Core.init with slice := true }) :: (List.range 15).map fun c => (c + 1, { Core.init with mapped := true })

/-- A part whose two slices run while a creation of the firmware is held for cluster 0, with confirmation on and no stealing. -/
def heldCreation : State :=
  { State.reset with
    regs := [(R.KNL_CFG, 0), (R.GLN_CFG, 2)]
    tmu := { Tmu.reset with loc := nsI 44000 * 2 ^ 24 }
    knl := { State.reset.knl with cores := slicedCluster, sysHeld := [⟨false, 0, 0⟩] }
    gln := { State.reset.gln with run := [freshSlice, failedSlice] } }

theorem heldCreation_loc : heldCreation.loc = nsI 44000 := by decide +kernel

theorem heldCreation_confirms : heldCreation.flag R.GLN_CFG_CONFIRM = true := by decide +kernel

/-- The held creation takes an entry, finds no idle core and cuts the slice of core 0. -/
theorem heldCreation_cuts : (heldCreation.logicEnd failedSlice (be 8 0) false).gln.run = [] := by decide +kernel

end Sys2Proof.Machine

section

open Sys2Proof Sys2Proof.Machine

/-- Refutes O52: the fault of a failed slice also lets held creations take their entries, tasks or none, and a creation that finds no idle core
cuts the slice of another unit, so that more leaves the running slices than the one that failed. -/
theorem not_balesAndSlicesRun : ¬ Obligations.BalesAndSlicesRun := by
  unfold Obligations.BalesAndSlicesRun
  intro h
  obtain ⟨-, -, -, -, -, -, -, -, -, hlogic, -⟩ := h
  obtain ⟨-, hexec, hend⟩ := hlogic 1 0 0 false heldCreation failedSlice (by decide)
  have hdue : failedSlice.start + nsI 44000 ≤ heldCreation.loc := by rw [heldCreation_loc]; decide
  obtain ⟨t, ht, -, -, -, hfail, -⟩ := hend hdue (by decide) (by decide) rfl rfl rfl
  obtain ⟨hrun, -⟩ := hfail rfl heldCreation_confirms
  have he : heldCreation.logicEnd failedSlice (be 8 0) false = t := Host.Outcome.next.inj ((hexec hdue).symm.trans ht)
  have hkeeps : heldCreation.gln.run.filter (· != failedSlice) = [freshSlice] := by decide
  rw [← he, heldCreation_cuts, hkeeps] at hrun
  cases hrun

end

namespace Sys2Proof.Machine

open Sys2Proof

/-! Background work (R532-R539, R585, R586). -/

/-- The space of the winnower that is not the loft. -/
abbrev inHbm : ScrubSpace → Bool
  | .loft => false
  | .hbm => true

theorem scrubRead_idle (sp : ScrubSpace) (w : ScrubWord) (s : State) (h : s.mode ≠ .service ∨ s.flag R.BGW_CFG_SCRUB_EN = false) :
    exec (.scrubRead sp w) s = .next s :=
  congrArg Host.Outcome.next (if_pos (h.elim .inl fun k => .inr (.inl k)))

/-- A word that is due is read, or waits where the cap leaves no room. -/
theorem scrubRead_due (sp : ScrubSpace) (w : ScrubWord) {s : State} (hm : s.mode = .service) (hen : s.flag R.BGW_CFG_SCRUB_EN = true)
    (hd : s.wordDue (inHbm sp) = true) : exec (.scrubRead sp w) s = .next (if s.fabFull 8 then s.capHold (b2n (inHbm sp)) else s.scrub (inHbm sp) w) := by
  cases sp <;> exact congrArg Host.Outcome.next (if_neg (by simp [hm, hen, hd]))

theorem fabFull_of_room {s : State} {n : Nat} (h : s.bgw.fab + n ≤ s.fabCap) : s.fabFull n = false :=
  decide_eq_false fun k => absurd k.2.2 (by omega)

theorem scrubRead_reads (sp : ScrubSpace) (w : ScrubWord) {s : State} (hm : s.mode = .service) (hen : s.flag R.BGW_CFG_SCRUB_EN = true)
    (hd : s.wordDue (inHbm sp) = true) (hr : s.bgw.fab + 8 ≤ s.fabCap) : exec (.scrubRead sp w) s = .next (s.scrub (inHbm sp) w) := by
  rw [scrubRead_due sp w hm hen hd, fabFull_of_room hr]; rfl

theorem scrubRead_holds (sp : ScrubSpace) (w : ScrubWord) {s : State} (hm : s.mode = .service) (hen : s.flag R.BGW_CFG_SCRUB_EN = true)
    (hd : s.wordDue (inHbm sp) = true) (hf : s.fabFull 8 = true) : exec (.scrubRead sp w) s = .next (s.capHold (b2n (inHbm sp))) := by
  rw [scrubRead_due sp w hm hen hd, hf]; rfl

/-- The state in which a word of the loft that is not the pass's last has been read. -/
abbrev State.loftRead (s : State) : State := s.setBgw { s.bgw with fab := s.bgw.fab + 8, loftAt := s.bgw.loftAt + 1 }

theorem scrub_clean {s : State} (h : s.bgw.loftAt + 1 < 33554432) : s.scrub false .clean = s.loftRead := if_pos h

theorem scrub_ce {s : State} (h : s.bgw.loftAt + 1 < 33554432) : s.scrub false .ce = s.loftRead.bump R.BGW_SCRUB_CE_CNT := if_pos h

/-- The state whose registers say where the word of the loft with an error is. -/
def State.ueAt (s : State) : State :=
  (((s.fabUse 8).setReg R.BGW_UE_ADDR_HI (8 * s.bgw.loftAt / 2 ^ 32)).setReg R.BGW_UE_ADDR_LO (8 * s.bgw.loftAt % 2 ^ 32)).bump R.BGW_SCRUB_UE_CNT

theorem scrub_ue {s : State} (h : s.bgw.loftAt + 1 < 33554432) :
    s.scrub false .ue = (s.ueAt.raise R.BGW_EVT 1).patrolTo false (s.bgw.loftAt + 1) s.bgw.loftLoc := by
  have hz : 0 + 8 * s.bgw.loftAt = 8 * s.bgw.loftAt := Nat.zero_add _
  refine (if_pos h).trans ?_
  show (State.raise (State.bump (State.setReg (State.setReg _ _ ((0 + 8 * s.bgw.loftAt) / 2 ^ 32)) _ ((0 + 8 * s.bgw.loftAt) % 2 ^ 32)) _) _ _).patrolTo _ _ _ = _
  rw [hz]
  rfl

theorem Only.withBgw {L : List Nat} {s t : State} (h : Only L s t) (x : Bgw) : Only L (s.setBgw x) (t.setBgw x) :=
  ⟨congrArg (fun u : State => ({ u with bgw := x } : State)) h.rest, h.regs, h.sess⟩

theorem ueAt_only (s : State) : Only [R.BGW_UE_ADDR_HI, R.BGW_UE_ADDR_LO, R.BGW_SCRUB_UE_CNT, R.BGW_EVT] (s.fabUse 8) (s.ueAt.raise R.BGW_EVT 1) :=
  (((only_setReg (by simp)).trans (only_setReg (by simp))).trans (only_bump (by simp))).raise (by simp) _

theorem scrubRead_ue {s : State} (hm : s.mode = .service) (hen : s.flag R.BGW_CFG_SCRUB_EN = true)
    (hd : s.wordDue false = true) (hr : s.bgw.fab + 8 ≤ s.fabCap) (h : s.bgw.loftAt + 1 < 33554432) :
    Gives (.scrubRead .loft .ue) s [R.BGW_UE_ADDR_HI, R.BGW_UE_ADDR_LO, R.BGW_SCRUB_UE_CNT, R.BGW_EVT] s.loftRead fun u =>
      u.reg R.BGW_UE_ADDR_HI = 0 ∧ u.reg R.BGW_UE_ADDR_LO = 8 * s.bgw.loftAt ∧ u.reg R.BGW_SCRUB_UE_CNT = (s.reg R.BGW_SCRUB_UE_CNT + 1) % 2 ^ 32 ∧
      tb (u.reg R.BGW_EVT) 0 = true := by
  have ho := ueAt_only s
  have hb : (s.ueAt.raise R.BGW_EVT 1).bgw = (s.fabUse 8).bgw := (congrArg State.bgw ho.rest : (s.ueAt.raise R.BGW_EVT 1).bare.bgw = (s.fabUse 8).bare.bgw)
  have hlo : 8 * s.bgw.loftAt < 2 ^ 32 := by omega
  have hreg (b : Nat) (h1 : b ≠ R.QCP_EVT_DROP_CNT) (h2 : R.BGW_EVT ≠ b) :
      ((s.ueAt.raise R.BGW_EVT 1).patrolTo false (s.bgw.loftAt + 1) s.bgw.loftLoc).reg b = s.ueAt.reg b := reg_raise_ne h1 h2
  refine ⟨(s.ueAt.raise R.BGW_EVT 1).patrolTo false (s.bgw.loftAt + 1) s.bgw.loftLoc, (scrubRead_reads .loft .ue hm hen hd hr).trans ?_, ?_, ?_, ?_, ?_, ?_⟩
  · exact congrArg Host.Outcome.next (scrub_ue h)
  · have hw := ho.withBgw { s.bgw with fab := s.bgw.fab + 8, loftAt := s.bgw.loftAt + 1 }
    have e : (s.ueAt.raise R.BGW_EVT 1).patrolTo false (s.bgw.loftAt + 1) s.bgw.loftLoc =
        (s.ueAt.raise R.BGW_EVT 1).setBgw { s.bgw with fab := s.bgw.fab + 8, loftAt := s.bgw.loftAt + 1 } := by
      show State.setBgw _ _ = _
      rw [hb]
      rfl
    rw [e]
    exact hw
  · rw [hreg _ (by decide) (by decide), State.ueAt, State.reg_bump_ne _ (by decide), State.reg_setReg_ne _ _ (by decide), State.reg_setReg_same,
      Nat.div_eq_of_lt hlo, Nat.zero_mod]
  · rw [hreg _ (by decide) (by decide), State.ueAt, State.reg_bump_ne _ (by decide), State.reg_setReg_same, Nat.mod_mod, Nat.mod_eq_of_lt hlo]
  · rw [hreg _ (by decide) (by decide), State.ueAt, State.reg_bump_same, State.reg_setReg_ne _ _ (by decide), State.reg_setReg_ne _ _ (by decide)]
    rfl
  · exact tb_raise s.ueAt (a := R.BGW_EVT) (i := 0) (by decide) (by decide)

theorem hbmRetrain_trains (p : Fin 64) (ok : Bool) (s : State) (hm : s.mode = .service) (hb : s.swt.begun = true) (hg : s.phase = .guard)
    (he : s.elapsed + nsI 1500 ≤ s.swt.d) (hp : p.val < 32 * s.fld R.MMU_HBM_STACKS)
    (hl : s.bgw.trainLoc + nsI (s.fld R.BGW_CAL_RETRAIN_MS * 1000000) ≤ s.loc) :
    let t := (s.setBgw { s.bgw with trainLoc := s.loc }).bump R.BGW_RETRAIN_CNT
    exec (.hbmRetrain p ok) s = .next (if ok then t else (t.bump R.BGW_CAL_FAIL_CNT).raise R.BGW_EVT 16) :=
  congrArg Host.Outcome.next (if_pos ⟨hm, hb, hg, he, hp, hl⟩)

theorem hbmRetrain_idle (p : Fin 64) (ok : Bool) (s : State) (h : s.phase ≠ .guard) : exec (.hbmRetrain p ok) s = .next s :=
  congrArg Host.Outcome.next (if_neg fun k => h k.2.2.1)

/-! The sensors (R537). -/

/-- The hottest of the readings in 1/16 °C. -/
abbrev hottest (r : List (BitVec 16)) : Int :=
  (r.map fun x => sgn 16 x.toNat).foldl (fun a x => if a < x then x else a) ((r.map fun x => sgn 16 x.toNat).headD 0)

/-- The level that a temperature leads to. -/
abbrev State.levelFor (s : State) (tj : Int) : Nat :=
  if s.fld R.BGW_THERM_STAT_LEVEL < s.thermRise tj then s.thermRise tj else s.thermFall tj (s.fld R.BGW_THERM_STAT_LEVEL)

theorem thermEnter_only {L : List Nat} (h1 : R.BGW_EVT ∈ L) (h2 : R.BGW_THROT_CNT ∈ L) (s : State) {k : Nat} (hk : k = 1 ∨ k = 2) :
    Only L s (s.thermEnter k) := by
  rcases hk with rfl | rfl
  · exact only_raise h1
  · exact (only_bump h2).raise h1 _

theorem foldl_thermEnter_only {L : List Nat} (h1 : R.BGW_EVT ∈ L) (h2 : R.BGW_THROT_CNT ∈ L) : ∀ (l : List Nat) (s : State),
    (∀ k ∈ l, k = 1 ∨ k = 2) → Only L s (l.foldl (fun (u : State) k => u.thermEnter k) s)
  | [], s, _ => Only.refl L s
  | k :: l, s, h => (thermEnter_only h1 h2 s (h k (by simp))).trans
      (foldl_thermEnter_only h1 h2 l (s.thermEnter k) fun j hj => h j (List.mem_cons_of_mem _ hj))

/-- The readings of the sensors go to registers alone. -/
theorem bare_readings : ∀ (l : List (BitVec 16 × Nat)) (s : State),
    (l.foldl (fun (u : State) (p : BitVec 16 × Nat) => u.setReg (R.BGW_TSENS p.2) p.1.toNat) s).bare = s.bare
  | [], _ => rfl
  | p :: l, s => bare_readings l (s.setReg (R.BGW_TSENS p.2) p.1.toNat)

/-- The state with the hottest sensor and the level shown. -/
def State.shown (s : State) (r : List (BitVec 16)) : State :=
  let s1 : State := (r.zipIdx).foldl (fun (u : State) (p : BitVec 16 × Nat) => u.setReg (R.BGW_TSENS p.2) p.1.toNat) s
  ((s1.setFld R.BGW_THERM_STAT_TJ (unsgn 16 (hottest r))).setFld R.BGW_THERM_STAT_SENSOR
    ((findIx (fun x => decide (x = hottest r)) (r.map fun x => sgn 16 x.toNat)).getD 0)).setFld R.BGW_THERM_STAT_LEVEL (s.levelFor (hottest r))

theorem thermal_eq (s : State) (r : List (BitVec 16)) : s.thermal r =
    ((([1, 2, 3] : List Nat).filter fun k => decide (s.fld R.BGW_THERM_STAT_LEVEL < k ∧ k ≤ s.levelFor (hottest r))).foldl
      (fun (u : State) k => u.thermEnter k) (s.shown r)).thermPins := rfl

theorem thermal_gives (s : State) (r : List (BitVec 16)) (hk : s.levelFor (hottest r) ≤ 2) :
    (s.thermal r).fld R.BGW_THERM_STAT_LEVEL = s.levelFor (hottest r) ∧ (s.thermal r).fld R.BGW_THERM_STAT_TJ = unsgn 16 (hottest r) ∧
      (s.thermal r).pins.thermN = (s.levelFor (hottest r) == 0 && !s.boot.hot) ∧ (s.thermal r).legs = s.legs ∧ (s.thermal r).nv = s.nv := by
  have ho := foldl_thermEnter_only (L := [R.BGW_EVT, R.BGW_THROT_CNT]) (by simp) (by simp)
    (([1, 2, 3] : List Nat).filter fun k => decide (s.fld R.BGW_THERM_STAT_LEVEL < k ∧ k ≤ s.levelFor (hottest r))) (s.shown r) fun k hm => by
      obtain ⟨h3, hl⟩ := List.mem_filter.1 hm
      have := (of_decide_eq_true hl).2
      simp only [List.mem_cons, List.not_mem_nil, or_false] at h3
      omega
  rw [thermal_eq]
  generalize List.foldl (fun (u : State) k => u.thermEnter k) (s.shown r) _ = u at ho ⊢
  have hb : u.bare = s.bare := ho.rest.trans (bare_readings r.zipIdx s)
  have hf (f : Fld) (ha : f.addr = R.BGW_THERM_STAT) : u.fld f = (s.shown r).fld f := by
    unfold State.fld; rw [ha, ho.regs _ (by decide) (by decide)]
  have hlevel : u.fld R.BGW_THERM_STAT_LEVEL = s.levelFor (hottest r) := by
    rw [hf _ rfl, State.shown, fld_setFld_same _ _ _ (by decide)]
    exact Nat.mod_eq_of_lt (Nat.lt_of_le_of_lt hk (by decide))
  have htj : u.fld R.BGW_THERM_STAT_TJ = unsgn 16 (hottest r) := by
    rw [hf _ rfl, State.shown, fld_setFld_apart (.inr (.inl (by decide))) (by decide), fld_setFld_apart (.inr (.inl (by decide))) (by decide), fld_setFld_same _ _ _ (by decide)]
    exact Nat.mod_eq_of_lt (unsgn_lt 16 _)
  have hhot : u.boot = s.boot := (congrArg State.boot hb : u.bare.boot = s.bare.boot)
  refine ⟨hlevel, htj, ?_, (congrArg State.legs hb : u.bare.legs = s.bare.legs), (congrArg State.nv hb : u.bare.nv = s.bare.nv)⟩
  show (u.fld R.BGW_THERM_STAT_LEVEL == 0 && !u.boot.hot) = _
  rw [hlevel, hhot]

theorem sensorRead_measures (r : List (BitVec 16)) (s : State) (hr : r.length = 16) (hm : s.mode = .service) :
    exec (.sensorRead r) s = .next (s.thermal r) := congrArg Host.Outcome.next (if_pos ⟨hr, hm⟩)

theorem sensorRead_idle (r : List (BitVec 16)) (s : State) (hm : s.mode ≠ .service) : exec (.sensorRead r) s = .next s :=
  congrArg Host.Outcome.next (if_neg fun k => hm k.2)

/-! VDD_CORE (R585, R586). -/

theorem avsAdjust_steps (up ok : Bool) (s : State) (hm : s.mode = .service) (hd : s.bgw.avsDead = false)
    (ht : s.bgw.avsLoc + nsI 1000000 ≤ s.loc) (h1 : 700 ≤ (if up then s.bgw.mv + 5 else s.bgw.mv - 5)) (h2 : (if up then s.bgw.mv + 5 else s.bgw.mv - 5) ≤ 800) :
    exec (.avsAdjust up ok) s = .next (if ok then s.setBgw { s.bgw with mv := if up then s.bgw.mv + 5 else s.bgw.mv - 5, avsLoc := s.loc }
      else s.setBgw { s.bgw with avsDead := true }) :=
  congrArg Host.Outcome.next (if_neg (by simp only [hm, hd, ne_eq, not_true_eq_false, Bool.false_eq_true, false_or]; omega))

theorem avsAdjust_limit (up ok : Bool) (s : State)
    (h : (if up then s.bgw.mv + 5 else s.bgw.mv - 5) < 700 ∨ 800 < (if up then s.bgw.mv + 5 else s.bgw.mv - 5)) :
    exec (.avsAdjust up ok) s = .next s := congrArg Host.Outcome.next (if_pos (.inr (.inr (.inr h))))

end Sys2Proof.Machine
namespace Sys2Proof.Machine

open Sys2Proof

/-! Shutdown (R562-R565): what it does is done alike on states that differ aside. -/

theorem exec_shutBegin (q : Req) (s : State) : exec (.shutBegin q) s = .next (runOp opShutBegin 0x1001 q s) := rfl
theorem exec_shutAbort (q : Req) (s : State) : exec (.shutAbort q) s = .next (runOp opShutAbort 0x1002 q s) := rfl
theorem exec_shutStatus (q : Req) (s : State) : exec (.shutStatus q) s = .next (runOp opShutStatus 0x1081 q s) := rfl

/-- What each step of a fold keeps, the fold keeps. -/
theorem foldl_keeps {α β : Type} (g : State → β) {f : State → α → State} (hf : ∀ t a, g (f t a) = g t) : ∀ (l : List α) (s : State),
    g (l.foldl f s) = g s
  | [], _ => rfl
  | a :: l, s => (foldl_keeps g hf l (f s a)).trans (hf s a)

/-- Captures, players and rings stop at once (R562). -/
def State.stopAtOnce (s : State) (x : Shut) : State :=
  x.rings.foldl (fun (t : State) (r : Nat × Nat) => t.ringStop r.1 r.2)
    (x.plys.foldl (fun (t : State) (p : Nat × Player) => t.endPlayer p.1) (x.caps.foldl (fun (t : State) c => t.capStop c) (s.setShut x)))

/-- The record of a shutdown that begins (R562). -/
def State.shutOf (s : State) (a : Nat) (k f : Bool) (n : Nat) (by_ : Option (Nat × Nat)) : Shut :=
  { phase := 1, action := a, skip := k, forget := f, drainEnd := s.loc + nsI n, by_ := by_, legs := [],
    caps := (s.grn.caps.filter fun p => p.2.st != .off).map (·.1), plys := s.grn.plys.filter fun p => p.2.st != .off,
    rings := ((s.grn.taps.filter fun p => p.2.st != .off).map fun p => (0, p.1)) ++
      ((s.grn.injs.filter fun p => p.2.st != .off).map fun p => (1, p.1)) }

/-- While a swath runs, legs wait for its end. -/
theorem shutStart_begun {s : State} (h : s.swt.begun = true) (a : Nat) (k f : Bool) (n : Nat) (by_ : Option (Nat × Nat)) :
    s.shutStart a k f n by_ = s.stopAtOnce (s.shutOf a k f n by_) := if_pos h

/-- Of a state, the shutdown and the legs. -/
def State.shutAndLegs (s : State) : Shut × KV Leg := (s.shut, s.legs)

theorem raise_shutAndLegs (s : State) (a v : Nat) : (s.raise a v).shutAndLegs = s.shutAndLegs := by
  have h : (s.raise a v).bare = s.bare := (only_raise (L := [a]) (List.mem_singleton.2 rfl)).rest
  exact (congrArg State.shutAndLegs h : (s.raise a v).bare.shutAndLegs = s.bare.shutAndLegs)

theorem endCap_shutAndLegs (s : State) (c e : Nat) : (s.endCap c e).shutAndLegs = s.shutAndLegs := by
  unfold State.endCap
  exact raise_shutAndLegs _ _ _

theorem capStop_shutAndLegs (s : State) (c : Nat) : (s.capStop c).shutAndLegs = s.shutAndLegs := by
  unfold State.capStop
  extract_lets x s1
  split
  · split
    · rfl
    · exact endCap_shutAndLegs _ _ _
  · exact endCap_shutAndLegs _ _ _
  · rfl

theorem endPlayer_shutAndLegs (s : State) (p : Nat) : (s.endPlayer p).shutAndLegs = s.shutAndLegs := by
  unfold State.endPlayer
  exact raise_shutAndLegs _ _ _

theorem ringRest_shutAndLegs (s : State) (k r : Nat) : (s.ringRest k r).shutAndLegs = s.shutAndLegs := by
  unfold State.ringRest
  extract_lets x y
  split <;> rfl

theorem ringStop_shutAndLegs (s : State) (k r : Nat) : (s.ringStop k r).shutAndLegs = s.shutAndLegs := by
  unfold State.ringStop
  extract_lets x e
  split
  · exact ringRest_shutAndLegs _ _ _
  · rfl
  · rfl

theorem stopAtOnce_shutAndLegs (s : State) (x : Shut) : (s.stopAtOnce x).shutAndLegs = (x, s.legs) := by
  unfold State.stopAtOnce
  rw [foldl_keeps State.shutAndLegs fun t (r : Nat × Nat) => ringStop_shutAndLegs t r.1 r.2,
    foldl_keeps State.shutAndLegs fun t (p : Nat × Player) => endPlayer_shutAndLegs t p.1,
    foldl_keeps State.shutAndLegs fun t c => capStop_shutAndLegs t c]
  rfl

section congr
variable {m : Nat} {s t : State} (h : Aside m s t)
include h

theorem Aside.setShut (x : Shut) : Aside m (s.setShut x) (t.setShut x) := h.withShut x

theorem Aside.capStop (c : Nat) : Aside m (s.capStop c) (t.capStop c) := by
  simp only [State.capStop, h.cap_eq, h.now_eq, h.swt_eq]
  split
  · exact aside_ite (h.setCap _ _) ((h.setCap _ _).endCap _ _)
  · exact h.endCap _ _
  · exact h.setCap _ _

theorem Aside.stopAtOnce (x : Shut) : Aside m (s.stopAtOnce x) (t.stopAtOnce x) :=
  (((h.setShut x).foldl _ fun _ _ c hu => hu.capStop c).foldl _ fun _ _ p hu => hu.endPlayer p.1).foldl _ fun _ _ r hu => hu.ringStop r.1 r.2

theorem Aside.shutOf_eq (a : Nat) (k f : Bool) (n : Nat) (by_ : Option (Nat × Nat)) : t.shutOf a k f n by_ = s.shutOf a k f n by_ := by
  simp only [State.shutOf, h.loc_eq, h.grn_eq]

theorem Aside.liveLegs_eq : t.liveLegs = s.liveLegs := by unfold State.liveLegs; rw [h.legs_eq]
theorem Aside.exportLeft_eq : t.exportLeft = s.exportLeft := by unfold State.exportLeft; rw [h.grn_eq]

end congr

theorem shutBegin_app {c : Ctx} {v : State} (hm : v.mode ≠ .recovery) (plan : List Nat) (b : Bytes) : opShutBegin.app c plan v b =
    Done.wait (v.shutStart (u8 b 0) (tb (u8 b 1) 0) (tb (u8 b 1) 1) (num b 2 2 * 1000000000) (some (v.sessNum c.mbox, c.seq))) := if_neg hm

theorem shutBegin_waits (q : Req) (s : State) (ha : Accepted opShutBegin 0x1001 q s []) (hb : s.swt.begun = true) :
    let e := s.shutStart (u8 q.payload 0) (tb (u8 q.payload 1) 0) (tb (u8 q.payload 1) 1) (num q.payload 2 2 * 1000000000)
      (some (s.sessNum q.mbox.val, q.seq.toNat))
    Waits false (.shutBegin q) q s e ∧ e.shut.phase = 1 ∧ e.shut.action = u8 q.payload 0 ∧ e.legs = s.legs := by
  have hv : Aside q.mbox.val s (s.take q.mbox.val) := aside_take q.mbox.isLt
  have hr := stopAtOnce_shutAndLegs s (s.shutOf (u8 q.payload 0) (tb (u8 q.payload 1) 0) (tb (u8 q.payload 1) 1) (num q.payload 2 2 * 1000000000)
    (some (s.sessNum q.mbox.val, q.seq.toNat)))
  obtain ⟨hshut, hlegs⟩ := Prod.mk.inj hr
  dsimp only
  rw [shutStart_begun hb]
  refine ⟨waits_taken (exec_shutBegin q s) ha rfl (shutBegin_app (by rw [hv.mode_eq]; exact ha.serving) _ _) ?_, ?_, ?_, hlegs⟩
  · rw [shutStart_begun (by rw [hv.swt_eq]; exact hb), hv.shutOf_eq, show (Req.ctx q 0x1001 s).mbox = q.mbox.val from rfl,
      sessNum_face (take_face s q.mbox.val)]
    exact hv.stopAtOnce _
  · rw [hshut]; rfl
  · rw [hshut]; rfl

theorem shutStatus_does : Does false opShutStatus 0x1081 .shutStatus (replied fun _ s =>
    be 1 s.shut.phase ++ zeros 3 ++ be 4 s.liveLegs.length ++ be 8 s.exportLeft) :=
  does_direct exec_shutStatus (fun _ => rfl) fun _ _ _ _ => acts_read fun _ _ hv => by
    simp only [opShutStatus, OpDef.ask, replied, hv.shut_eq, hv.liveLegs_eq, hv.exportLeft_eq]

/-! The reply that SHUT_BEGIN waits for. -/

theorem quiet_inj {x y : Session} (h : x.quiet = y.quiet) : x = { y with evq := x.evq, evSeq := x.evSeq, evLost := x.evLost } :=
  (congrArg (fun z : Session => { z with evq := x.evq, evSeq := x.evSeq, evLost := x.evLost }) h :)

/-- A session with a reply that waits in its mailbox and is kept with the last sixteen (R162). -/
def Session.answered (x : Session) (seq : Nat) (fr : List Bytes) (n : Nat) : Session :=
  { x with out := x.out ++ fr, replies := (if 16 ≤ x.replies.length then x.replies.drop (x.replies.length - 15) else x.replies) ++ [⟨seq, fr, n⟩] }

theorem replyAs_eq (s : State) (dev m seq op st det : Nat) (jrn : Bool) (r : Bytes) : s.replyAs dev m seq op st det jrn r =
    match (s.sess m).st with
    | .stopping => s.closeSess m
    | .on | .starting => s.setSess m ((s.sess m).answered seq (replyFrames s dev (s.sess m) m seq op st (min det 0xFFFF) jrn r) r.length)
    | _ => s := rfl

section congr
variable {m j : Nat} {s t : State} (h : Aside m s t)
include h

theorem Aside.setSess_other {x y : Session} (hq : y.quiet = x.quiet) : Aside m (s.setSess j x) (t.setSess j y) :=
  ⟨h.rest, h.regs, fun i hi => by
    by_cases hj : j = i
    · subst hj; rw [State.sess_setSess_same, State.sess_setSess_same, hq]
    · rw [State.sess_setSess_ne _ _ hj, State.sess_setSess_ne _ _ hj, h.sess i hi]⟩

theorem Aside.reportVia (f : FnId) (a : FnState) (l : List FnState) : Aside m (s.reportVia f a l) (t.reportVia f a l) := by
  simp only [State.reportVia, h.fns_eq, h.now_eq]
  exact h.withFns _

/-- The doorbell of an empty ring is a register that commands leave aside. -/
theorem Aside.unbell_other (hj : j < 256) : Aside m (s.unbell j) (t.unbell j) := by
  have hu (v : State) : Aside m v (v.unbell j) := by
    have hreg : qcpReg (R.QCP_DB_CMD (j / 32)) = true := (by decide : ∀ k < 8, qcpReg (R.QCP_DB_CMD k) = true) _ (by omega)
    unfold State.unbell
    split
    · exact aside_setReg hreg
    · exact Aside.refl m v
  exact ((hu s).symm.trans h).trans (hu t)

theorem Aside.closeSess_other (hj : j < 256) (hq : (t.sess j).quiet = (s.sess j).quiet) : Aside m (s.closeSess j) (t.closeSess j) := by
  have hst : (t.sess j).st = (s.sess j).st := (congrArg Session.st hq : (t.sess j).quiet.st = (s.sess j).quiet.st)
  have hgen : (t.sess j).gen = (s.sess j).gen := (congrArg Session.gen hq : (t.sess j).quiet.gen = (s.sess j).quiet.gen)
  simp only [State.closeSess, hst, hgen]
  exact ((h.setSess_other rfl).unbell_other hj).reportVia _ _ _

theorem Aside.replyAs_other (hj : j < 256) (hq : (t.sess j).quiet = (s.sess j).quiet) (dev seq op st det : Nat) (jrn : Bool) (r : Bytes) :
    Aside m (s.replyAs dev j seq op st det jrn r) (t.replyAs dev j seq op st det jrn r) := by
  have hst : (t.sess j).st = (s.sess j).st := (congrArg Session.st hq : (t.sess j).quiet.st = (s.sess j).quiet.st)
  have hfr : replyFrames t dev (t.sess j) j seq op st (min det 0xFFFF) jrn r = replyFrames s dev (s.sess j) j seq op st (min det 0xFFFF) jrn r := by
    rw [replyFrames_congr h.ports_eq, quiet_inj hq]
    rfl
  have hset : ((t.sess j).answered seq (replyFrames t dev (t.sess j) j seq op st (min det 0xFFFF) jrn r) r.length).quiet =
      ((s.sess j).answered seq (replyFrames s dev (s.sess j) j seq op st (min det 0xFFFF) jrn r) r.length).quiet := by
    rw [hfr, quiet_inj hq]
    rfl
  rw [replyAs_eq, replyAs_eq, hst]
  cases (s.sess j).st
  case stopping => exact h.closeSess_other hj hq
  case on => exact h.setSess_other hset
  case starting => exact h.setSess_other hset
  case off => exact h
  case failed => exact h

theorem Aside.replyLate_other (hj : j < 256) (hm : j ≠ m) (seq op st det : Nat) (jrn : Bool) (r : Bytes) :
    Aside m (s.replyLate j seq op st det jrn r) (t.replyLate j seq op st det jrn r) := by
  have hq := h.sess j hm
  have hd : (t.sess j).defer = (s.sess j).defer := (congrArg Session.defer hq : (t.sess j).quiet.defer = (s.sess j).quiet.defer)
  have hs : Aside m (s.setSess j { s.sess j with defer := false }) (t.setSess j { t.sess j with defer := false }) :=
    h.setSess_other (congrArg (fun z : Session => { z with defer := false }) hq :)
  simp only [State.replyLate, hd, State.reply, dev_eq hs]
  refine aside_ite (hs.replyAs_other hj ?_ _ _ _ _ _ _ _) h
  rw [State.sess_setSess_same, State.sess_setSess_same]
  exact (congrArg (fun z : Session => { z with defer := false }) hq :)

end congr

/-- A session that waits for no reply gets none (R162). -/
theorem replyLate_idle {s : State} {m : Nat} (h : (s.sess m).defer = false) (seq op st det : Nat) (jrn : Bool) (r : Bytes) :
    s.replyLate m seq op st det jrn r = s := by rw [State.replyLate, h]; rfl

theorem replyLate_sess_ne (s : State) {m j : Nat} (hj : j ≠ m) (seq op st det : Nat) (jrn : Bool) (r : Bytes) :
    (s.replyLate j seq op st det jrn r).sess m = s.sess m := by
  unfold State.replyLate
  extract_lets x
  split
  · rw [State.reply, replyAs_eq]
    split
    · rw [(closeSess_gives _ _).2.1 _ hj.symm, State.sess_setSess_ne _ _ hj]
    · rw [State.sess_setSess_ne _ _ hj, State.sess_setSess_ne _ _ hj]
    · rw [State.sess_setSess_ne _ _ hj, State.sess_setSess_ne _ _ hj]
    · exact State.sess_setSess_ne _ _ hj
  · rfl

/-- Taking a command does not touch what its session waits for. -/
theorem take_defer (s : State) (m : Nat) : ((s.take m).sess m).defer = (s.sess m).defer := by
  have hr (x : State) : ((x.renewLease m).sess m).defer = (x.sess m).defer := by
    unfold State.renewLease
    extract_lets y
    split
    · rw [State.sess_setSess_same]
    · rfl
  simp only [State.take]
  split <;> split <;> rw [State.sess_setRr] <;> simp only [State.sess_bump, hr, unbell_sess, State.sess_setSess_same]

/-- The answer to SHUT_BEGIN is given alike beside a command of a session that waits for no reply. -/
theorem Aside.shutReply {m : Nat} {s t : State} (h : Aside m s t) (hs : (s.sess m).defer = false) (ht : (t.sess m).defer = false) (st det : Nat) : Aside m (s.shutReply st det) (t.shutReply st det) := by
  unfold State.shutReply
  rw [h.shut_eq]
  split
  · exact h
  · next num_ seq hb =>
    dsimp only
    by_cases hj : num_ % 256 = m
    · subst hj
      rw [replyLate_idle hs, replyLate_idle ht, ite_self, ite_self]
      exact h
    · have hgen : (t.sess (num_ % 256)).gen = (s.sess (num_ % 256)).gen :=
        (congrArg Session.gen (h.sess _ hj) : (t.sess (num_ % 256)).quiet.gen = (s.sess (num_ % 256)).quiet.gen)
      rw [hgen]
      exact aside_ite (h.replyLate_other (Nat.mod_lt _ (by decide)) hj _ _ _ _ _ _) h

theorem shutReply_sess {s : State} {m : Nat} (hs : (s.sess m).defer = false) (st det : Nat) : (s.shutReply st det).sess m = s.sess m := by
  unfold State.shutReply
  split
  · rfl
  · next num_ seq hb =>
    dsimp only
    by_cases hj : num_ % 256 = m
    · subst hj
      rw [replyLate_idle hs, ite_self]
    · split
      · exact replyLate_sess_ne _ hj ..
      · rfl

end Sys2Proof.Machine
namespace Sys2Proof.Machine

open Sys2Proof

/-! What a shutdown stopped is wanted again (R564). -/

/-- States that differ aside, and alike in what a reply of the mailbox is made from. -/
structure Alike (m : Nat) (s t : State) : Prop where
  aside : Aside m s t
  face : (t.sess m).face = (s.sess m).face

theorem charge_face (s : State) (l : Nat) (c : Cost) (m : Nat) : ((s.charge l c).sess m).face = (s.sess m).face := by
  obtain ⟨w, hw⟩ := charge_only s l c
  exact hw.face_eq m

/-- A leg that is to start with the template and the place that it had. -/
def Leg.again (x old : Leg) : Leg :=
  { Leg.init with cfg := { x.cfg with tmpl := old.cfg.tmpl }, st := .starting, f := old.f, phi := old.phi, cluster := old.cluster }

/-- The command of the start of a leg that the part makes itself. -/
def ownStart : Ctx := ⟨0, 0, 0x0301, 2, true⟩

/-- A leg in STARTING that is charged, with its start armed for the next boundary. -/
def State.startAgain (s : State) (l : Nat) (y old : Leg) : State :=
  (State.armCmd (((s.setLeg l y).charge l old.charged).report (.leg l) .off .starting) ownStart l none (y.enablePayload l) [old.phi]).1

theorem reviveLeg_eq (s : State) (l : Nat) (old : Leg) : s.reviveLeg l old =
    match (s.leg l).st with
    | .stopping => s.setLeg l { s.leg l with pendEn := true, held := (s.leg l).enablePayload l }
    | .off => s.startAgain l ((s.leg l).again old) old
    | _ => s := rfl

theorem report_sess (s : State) (f : FnId) (a b : FnState) (m : Nat) : (s.report f a b).sess m = s.sess m := rfl

theorem startAgain_face (s : State) (l : Nat) (y old : Leg) (m : Nat) : ((s.startAgain l y old).sess m).face = (s.sess m).face := by
  rw [State.startAgain, armCmd_sess, report_sess]
  exact charge_face _ l old.charged m

theorem reviveLeg_face (s : State) (l : Nat) (old : Leg) (m : Nat) : ((s.reviveLeg l old).sess m).face = (s.sess m).face := by
  rw [reviveLeg_eq]
  split
  · rfl
  · exact startAgain_face s l _ old m
  · rfl

section congr
variable {m : Nat} {s t : State} (h : Alike m s t)
include h

theorem Alike.gen_eq (j : Nat) : (t.sess j).gen = (s.sess j).gen := by
  by_cases hj : j = m
  · rw [hj]; exact face_gen h.face
  · exact (congrArg Session.gen (h.aside.sess j hj) : (t.sess j).quiet.gen = (s.sess j).quiet.gen)

theorem Alike.foldl {α : Type} {f : State → α → State} (hf : ∀ u v x, Alike m u v → Alike m (f u x) (f v x)) (l : List α) :
    Alike m (l.foldl f s) (l.foldl f t) := by
  induction l generalizing s t with
  | nil => exact h
  | cons x l ih => exact ih (hf _ _ _ h)

/-- Effects that leave what a reply is made from keep states alike. -/
theorem Alike.of_face {s' t' : State} (ha : Aside m s' t') (hs : (s'.sess m).face = (s.sess m).face) (ht : (t'.sess m).face = (t.sess m).face) :
    Alike m s' t' := ⟨ha, ht.trans (h.face.trans hs.symm)⟩

theorem Alike.startAgain (l : Nat) (y old : Leg) : Aside m (s.startAgain l y old) (t.startAgain l y old) := by
  have hc := (h.aside.setLeg l y).charge l old.charged
  have hk : Alike m ((s.setLeg l y).charge l old.charged) ((t.setLeg l y).charge l old.charged) :=
    h.of_face hc (charge_face _ _ _ _) (charge_face _ _ _ _)
  have hg := hk.gen_eq ownStart.mbox
  rw [← report_sess _ (.leg l) .off .starting, ← report_sess ((s.setLeg l y).charge l old.charged) (.leg l) .off .starting] at hg
  exact ((hc.report (.leg l) .off .starting).armCmd rfl rfl hg l none (y.enablePayload l) [old.phi]).1

theorem Alike.reviveLeg (l : Nat) (old : Leg) : Alike m (s.reviveLeg l old) (t.reviveLeg l old) := by
  refine h.of_face ?_ (reviveLeg_face s l old m) (reviveLeg_face t l old m)
  rw [reviveLeg_eq, reviveLeg_eq, h.aside.leg_eq]
  cases (s.leg l).st
  case stopping => exact h.aside.setLeg _ _
  case off => exact h.startAgain l _ old
  case on => exact h.aside
  case starting => exact h.aside
  case failed => exact h.aside

theorem Alike.reviveCap (c : Nat) : Alike m (if (s.cap c).st = .stopping then s.setCap c { s.cap c with pendEn := true } else s)
    (if (t.cap c).st = .stopping then t.setCap c { t.cap c with pendEn := true } else t) := by
  rw [h.aside.cap_eq]
  split
  · exact h.of_face (h.aside.setCap _ _) rfl rfl
  · exact h

theorem Alike.reviveRing (k r : Nat) : Alike m (if (s.gring k r).st = .stopping then s.setGring k r { s.gring k r with pendEn := true } else s)
    (if (t.gring k r).st = .stopping then t.setGring k r { t.gring k r with pendEn := true } else t) := by
  rw [h.aside.gring_eq]
  split
  · exact h.of_face (h.aside.setGring _ _ _) rfl rfl
  · exact h

theorem Alike.revive : Alike m s.revive t.revive := by
  unfold State.revive
  rw [h.aside.shut_eq]
  have hl := h.foldl (fun _ _ (p : Nat × Leg) hu => hu.reviveLeg p.1 p.2) s.shut.legs
  have hc := hl.foldl (fun _ _ c hu => hu.reviveCap c) s.shut.caps
  exact hc.foldl (fun _ _ (r : Nat × Nat) hu => hu.reviveRing r.1 r.2) s.shut.rings

end congr

theorem revive_face (s : State) (m : Nat) : (s.revive.sess m).face = (s.sess m).face := by
  unfold State.revive
  refine (foldl_keeps (fun u : State => (u.sess m).face) (fun t r => ?_) _ _).trans
    ((foldl_keeps (fun u : State => (u.sess m).face) (fun t c => ?_) _ _).trans
      (foldl_keeps (fun u : State => (u.sess m).face) (fun t (p : Nat × Leg) => reviveLeg_face t p.1 p.2 m) _ _))
  · dsimp only
    split <;> rfl
  · dsimp only
    split <;> rfl

/-- The state of a part whose shutdown is taken back (R564). -/
abbrev State.shutUndone (s : State) : State :=
  let t := (s.shutReply St.state 0xFFFF).revive
  t.setShut { t.shut with phase := 0, by_ := none, legs := [] }

theorem shutAbort_does : Does false opShutAbort 0x1002 .shutAbort (done fun _ s => s.shutUndone) := by
  intro q s plan ha _ _
  obtain ⟨-, -, hd, -⟩ := turn_cases ha.turn
  have hd' : ((s.take q.mbox.val).sess q.mbox.val).defer = false := (take_defer s _).trans hd
  have hv : Alike q.mbox.val s (s.take q.mbox.val) := ⟨aside_take q.mbox.isLt, take_face s _⟩
  have hr : Alike q.mbox.val (s.shutReply St.state 0xFFFF) ((s.take q.mbox.val).shutReply St.state 0xFFFF) :=
    hv.of_face (hv.aside.shutReply hd hd' _ _) (by rw [shutReply_sess hd]) (by rw [shutReply_sess hd'])
  have hk := hr.revive
  refine completes_taken (w := (s.take q.mbox.val).shutUndone) (exec_shutAbort q s) ha rfl (Nat.zero_le _) rfl ?_ ?_
  · dsimp only [done, State.shutUndone]
    rw [hk.aside.shut_eq]
    exact hk.aside.setShut _
  · exact (revive_face _ _).trans (by rw [shutReply_sess hd'])

end Sys2Proof.Machine
namespace Sys2Proof.Machine

open Sys2Proof

/-! The end of a shutdown (R562, R563). -/

/-- The tap and inject rings that are still stopping reach OFF. -/
def State.ringsDown (s : State) : State :=
  ((s.grn.taps.map fun p => (0, p)) ++ s.grn.injs.map fun p => (1, p)).foldl (fun (t : State) (p : Nat × Nat × GRing) =>
    if p.2.2.st = FnState.stopping then t.setGring p.1 p.2.1 { p.2.2 with st := .off, pendEn := false, ents := [], wbs := [] } else t) s

theorem shutdownDrainEnd_idle {s : State} (h2 : s.shut.phase ≠ 2 ∨ s.drained = false) (h3 : s.shut.phase ≠ 3) : exec .shutdownDrainEnd s = .next s :=
  congrArg Host.Outcome.next ((if_neg fun k => h2.elim (· k.1) fun d => by rw [d] at k; exact absurd k.2 (by decide)).trans (if_neg fun k => h3 k.1))

/-- The state after the drain of a shutdown that a session began: the checkpoint, and the reply. -/
def State.drainedTo (s : State) : State :=
  let t : State := (if !s.nv.prsFailed then s.ringsDown.checkpoint s.shut.forget else s.ringsDown.ckptFail).shutReply St.ok 0
  t.setShut { t.shut with phase := if s.shut.skip then 3 else 4 }

theorem shutdownDrainEnd_drained {s : State} {x : Nat × Nat} (h2 : s.shut.phase = 2) (hd : s.drained = true) (hb : s.shut.by_ = some x) :
    exec .shutdownDrainEnd s = .next s.drainedTo :=
  congrArg Host.Outcome.next ((if_pos ⟨h2, hd⟩).trans (if_neg (by simp [hb])))

theorem shutdownDrainEnd_ends {s : State} (h3 : s.shut.phase = 3) (hg : s.shutReplyGone = true) : exec .shutdownDrainEnd s = .next s.shutEnd :=
  congrArg Host.Outcome.next ((if_neg fun k => by rw [h3] at k; exact absurd k.1 (by decide)).trans (if_pos ⟨h3, hg⟩))

/-- What the end of a drain leaves, read through the parts that say so. -/
abbrev State.drainView (s : State) : Shut × Mode × KV Leg × Nv := (s.shut, s.mode, s.legs, s.nv)

theorem ringsDown_view (s : State) : s.ringsDown.drainView = s.drainView :=
  foldl_keeps State.drainView (fun t p => by dsimp only; split <;> rfl) _ _

theorem ringsDown_reg (s : State) (a : Nat) : s.ringsDown.reg a = s.reg a :=
  foldl_keeps (fun u : State => u.reg a) (fun t p => by dsimp only; split <;> rfl) _ _

theorem unsess_replyAs (s : State) (dev m seq op st det : Nat) (jrn : Bool) (r : Bytes) : (s.replyAs dev m seq op st det jrn r).unsess = s.unsess := by
  rw [replyAs_eq]
  split
  · exact unsess_closeSess s m
  · rfl
  · rfl
  · rfl

theorem unsess_replyLate (s : State) (m seq op st det : Nat) (jrn : Bool) (r : Bytes) : (s.replyLate m seq op st det jrn r).unsess = s.unsess := by
  unfold State.replyLate
  extract_lets x
  split
  · exact unsess_replyAs _ _ _ _ _ _ _ _ _
  · rfl

theorem unsess_shutReply (s : State) (st det : Nat) : (s.shutReply st det).unsess = s.unsess := by
  unfold State.shutReply
  split
  · rfl
  · dsimp only
    split
    · exact unsess_replyLate _ _ _ _ _ _ _ _
    · rfl

theorem drainView_unsess {s t : State} (h : t.unsess = s.unsess) : t.drainView = s.drainView :=
  (congrArg State.drainView h : t.unsess.drainView = s.unsess.drainView)

/-- A reply writes no register but a doorbell. -/
theorem replyLate_reg (s : State) {m a : Nat} (hm : m < 256) (ha : a < 0x40020 ∨ 0x40040 ≤ a) (seq op st det : Nat) (jrn : Bool) (r : Bytes) :
    (s.replyLate m seq op st det jrn r).reg a = s.reg a := by
  have hu (x : State) : (x.unbell m).reg a = x.reg a := by
    unfold State.unbell
    split
    · exact State.reg_setReg_ne _ _ (dbCmd_ne_qcp hm ha)
    · rfl
  unfold State.replyLate
  extract_lets x
  split
  · rw [State.reply, replyAs_eq]
    split
    · exact hu _
    · rfl
    · rfl
    · rfl
  · rfl

theorem shutReply_reg (s : State) {a : Nat} (ha : a < 0x40020 ∨ 0x40040 ≤ a) (st det : Nat) : (s.shutReply st det).reg a = s.reg a := by
  unfold State.shutReply
  split
  · rfl
  · dsimp only
    split
    · exact replyLate_reg _ (Nat.mod_lt _ (by decide)) ha _ _ _ _ _ _
    · rfl

theorem prsWrote_ckptCnt (s : State) (n : Nat) : (s.prsWrote n).reg R.PRS_CKPT_CNT = s.reg R.PRS_CKPT_CNT := by
  rw [State.prsWrote, State.setFld, State.reg_setReg_ne _ _ (by decide), State.setFld, State.reg_setReg_ne _ _ (by decide), State.bumpBy,
    State.reg_setReg_ne _ _ (by decide)]
  rfl

/-- A checkpoint is counted, leaves the function of the part, and with FORGET releases the journal (R541, R563). -/
theorem checkpoint_gives (s : State) (forget : Bool) : (s.checkpoint forget).shut = s.shut ∧ (s.checkpoint forget).mode = s.mode ∧
    (s.checkpoint forget).legs = s.legs ∧ (s.checkpoint forget).reg R.PRS_CKPT_CNT = (s.reg R.PRS_CKPT_CNT + 1) % 2 ^ 32 ∧
    (forget = true → (s.checkpoint forget).nv.jrnl = []) := by
  refine ⟨rfl, rfl, rfl, ?_, fun h => ?_⟩
  · unfold State.checkpoint
    dsimp only
    rw [State.reg_setReg_ne _ _ (by decide), State.reg_bump_same, prsWrote_ckptCnt]
    rfl
  · subst h
    rfl

/-- The part that gives up a checkpoint, before its event. -/
def State.ckptMissed (s : State) : State := State.bump { s with bgw := { s.bgw with ckDue := false, ckLoc := s.loc } } R.PRS_CKPT_FAIL_CNT

theorem ckptFail_gives (s : State) : s.ckptFail.drainView = s.drainView ∧
    s.ckptFail.reg R.PRS_CKPT_FAIL_CNT = (s.reg R.PRS_CKPT_FAIL_CNT + 1) % 2 ^ 32 := by
  have e : s.ckptFail = s.ckptMissed.raise R.PRS_EVT 2 := rfl
  have h := (only_raise (L := [R.PRS_EVT]) (s := s.ckptMissed) (a := R.PRS_EVT) (v := 2) (by simp)).rest
  rw [e, reg_raise_ne (by decide) (by decide), State.ckptMissed, State.reg_bump_same]
  exact ⟨(congrArg State.drainView h : (s.ckptMissed.raise R.PRS_EVT 2).bare.drainView = s.ckptMissed.bare.drainView), rfl⟩

theorem drainedTo_gives (s : State) : s.drainedTo.shut.phase = (if s.shut.skip then 3 else 4) ∧ s.drainedTo.mode = s.mode ∧
    s.drainedTo.legs = s.legs ∧
    (s.nv.prsFailed = false → s.drainedTo.reg R.PRS_CKPT_CNT = (s.reg R.PRS_CKPT_CNT + 1) % 2 ^ 32 ∧ (s.shut.forget = true → s.drainedTo.nv.jrnl = [])) ∧
    (s.nv.prsFailed = true → s.drainedTo.reg R.PRS_CKPT_FAIL_CNT = (s.reg R.PRS_CKPT_FAIL_CNT + 1) % 2 ^ 32 ∧ s.drainedTo.nv = s.nv) := by
  have hr := ringsDown_view s
  simp only [State.drainView, Prod.mk.injEq] at hr
  obtain ⟨-, hrm, hrl, hrn⟩ := hr
  have hregs (t : State) (a : Nat) (ha : a < 0x40020 ∨ 0x40040 ≤ a) (x : Shut) : ((t.shutReply St.ok 0).setShut x).reg a = t.reg a :=
    shutReply_reg t ha St.ok 0
  have hview (t : State) := drainView_unsess (unsess_shutReply t St.ok 0)
  simp only [State.drainView, Prod.mk.injEq] at hview
  cases hp : s.nv.prsFailed
  · obtain ⟨-, hm, hl, hc, hj⟩ := checkpoint_gives s.ringsDown s.shut.forget
    have e : s.drainedTo = ((s.ringsDown.checkpoint s.shut.forget).shutReply St.ok 0).setShut
        { ((s.ringsDown.checkpoint s.shut.forget).shutReply St.ok 0).shut with phase := if s.shut.skip then 3 else 4 } := by
      rw [State.drainedTo, hp]; rfl
    obtain ⟨-, vm, vl, vn⟩ := hview (s.ringsDown.checkpoint s.shut.forget)
    rw [e]
    refine ⟨rfl, vm.trans (hm.trans hrm), vl.trans (hl.trans hrl), fun _ => ⟨?_, fun hf => ?_⟩, fun h => absurd h (by decide)⟩
    · rw [hregs _ _ (by decide), hc, ringsDown_reg]
    · exact (congrArg Nv.jrnl vn).trans (hj hf)
  · obtain ⟨hv, hc⟩ := ckptFail_gives s.ringsDown
    simp only [State.drainView, Prod.mk.injEq] at hv
    obtain ⟨-, hm, hl, hn⟩ := hv
    have e : s.drainedTo = (s.ringsDown.ckptFail.shutReply St.ok 0).setShut
        { (s.ringsDown.ckptFail.shutReply St.ok 0).shut with phase := if s.shut.skip then 3 else 4 } := by
      rw [State.drainedTo, hp]; rfl
    obtain ⟨-, vm, vl, vn⟩ := hview s.ringsDown.ckptFail
    rw [e]
    refine ⟨rfl, vm.trans (hm.trans hrm), vl.trans (hl.trans hrl), fun h => absurd h (by decide), fun _ => ⟨?_, vn.trans (hn.trans hrn)⟩⟩
    rw [hregs _ _ (by decide), hc, ringsDown_reg]

/-! D5 and D6. -/

/-- What the end of a shutdown keeps: the pins, the test verdict and the repairs. -/
abbrev State.endView (s : State) : Pins × Option (Nat × Bool) × List (BitVec 32) := (s.pins, s.nv.shut, s.nv.repair)

theorem portDown_view (s : State) (p : Nat) : ((s.loseLink p).setPortSt p .off).endView = s.endView := by
  have h := (only_loseLink (L := [R.MAC_STAT p, R.MAC_EVT, R.MAC_LINK_DOWN_CNT p]) (s := s) (p := p) (by simp) (by simp) (by simp)).rest
  exact (congrArg State.endView h : (s.loseLink p).bare.endView = s.bare.endView)

theorem prsWrote_view (s : State) (n : Nat) : (s.prsWrote n).endView = s.endView := rfl

theorem setSlog_view (s : State) (l : List Bytes) (n : Nat) : (s.setNv { s.nv with slog := l, slogN := n }).endView = s.endView := rfl

theorem slogPut_view (s : State) (step alt outcome detail a d x : Nat) : (s.slogPut step alt outcome detail a d x).endView = s.endView := by
  unfold State.slogPut
  extract_lets b l
  split
  · rfl
  · rw [prsWrote_view, setSlog_view]

theorem shutRecords_view {s : State} (h : s.legs = []) : s.shutRecords.endView = s.endView := by
  unfold State.shutRecords
  rw [h]
  extract_lets s1 s2
  have h1 : s1.endView = s.endView := rfl
  have h2 : s1.stopAll.endView = s1.endView := (congrArg State.endView (unsess_stopAll s1) : s1.stopAll.unsess.endView = s1.unsess.endView)
  have h3 : s2.endView = s1.stopAll.endView := foldl_keeps State.endView (fun t p => by
    split
    · rfl
    · exact portDown_view t p) _ _
  exact (slogPut_view _ _ _ _ _ _ _ _).trans (h3.trans (h2.trans h1))

theorem shutEnd_halts {s : State} (ha : s.shut.action = 0) : s.shutEnd.mode = .halted ∧ s.shutEnd.shut.phase = 6 ∧ s.shutEnd.nv = s.shutRecords.nv := by
  have e : s.shutEnd = ({ s.shutRecords with mode := .halted } : State).setShut { s.shutRecords.shut with phase := 6 } := if_pos ha
  rw [e]
  exact ⟨rfl, rfl, rfl⟩

theorem shutEnd_restarts {s : State} (ha : s.shut.action ≠ 0) (hl : s.legs = []) (hr : s.pins.run = true) : s.shutEnd.mode = .starting ∧
    s.shutEnd.boot.cause = 5 ∧ s.shutEnd.nv.fullNext = (s.shut.action == 2) ∧ s.shutEnd.nv.recNext = (s.shut.action == 3) := by
  let u : State := s.shutRecords.setNv { s.shutRecords.nv with fullNext := s.shut.action == 2, recNext := s.shut.action == 3 }
  have e : s.shutEnd = u.restart 5 := if_neg ha
  have hp : u.pins.run = true := by
    rw [show u.pins = s.pins from congrArg Prod.fst (shutRecords_view hl)]
    exact hr
  obtain ⟨hm, hc⟩ := restart_starts hp 5
  rw [e, restart_nv]
  exact ⟨hm, hc, rfl, rfl⟩

/-- The verdict of the full test and its repairs are recorded with the boot number (R522). -/
def State.testRecorded (s : State) (r : ShutTest) : State :=
  s.setNv { s.nv with
    outs := s.nv.outs ++ (r.fails.map fun p => (p.1.val, p.2.val)).filter fun p => !s.nv.outs.contains p
    repair := s.nv.repair ++ r.repairs, shut := some (s.nv.boot, r.fails.isEmpty && !r.unrep) }

theorem shutdownTestDone_ends (r : ShutTest) {s : State} (h : s.shut.phase = 4) : exec (.shutdownTestDone r) s = .next (s.testRecorded r).shutEnd :=
  congrArg Host.Outcome.next (if_pos h)

theorem shutdownTestDone_idle (r : ShutTest) {s : State} (h : s.shut.phase ≠ 4) : exec (.shutdownTestDone r) s = .next s :=
  congrArg Host.Outcome.next (if_neg h)

theorem shutdownTestDone_halts (r : ShutTest) {s : State} (h : s.shut.phase = 4) (ha : s.shut.action = 0) (hl : s.legs = []) :
    ∃ t, exec (.shutdownTestDone r) s = .next t ∧ t.mode = .halted ∧ t.nv.shut = some (s.nv.boot, r.fails.isEmpty && !r.unrep) ∧
      t.nv.repair = s.nv.repair ++ r.repairs := by
  obtain ⟨hm, -, hn⟩ := shutEnd_halts (s := s.testRecorded r) ha
  have hv := shutRecords_view (s := s.testRecorded r) hl
  simp only [State.endView, Prod.mk.injEq] at hv
  obtain ⟨-, hs, hr⟩ := hv
  exact ⟨_, shutdownTestDone_ends r h, hm, (congrArg Nv.shut hn).trans hs, (congrArg Nv.repair hn).trans hr⟩

/-! The I2C target (R595). -/

theorem exec_i2cAddressWrite (a : BitVec 32) (s : State) : exec (.i2cAddressWrite a) s = .next (if s.mode = .reset then s else { s with i2cAddr := a.toNat }) := rfl
theorem exec_i2cRead (n : Fin 65) (s : State) : exec (.i2cRead n) s = .next (i2cRead n.val s) := rfl

theorem i2cRead_in_reset {s : State} (h : s.mode = .reset) (n : Nat) : i2cRead n s = s := if_pos h

theorem i2cRead_misaligned {s : State} (h : s.mode ≠ .reset) (ha : s.i2cAddr % 4 ≠ 0) (n : Nat) :
    i2cRead n s = { s with busOut := List.replicate n (BitVec.ofNat 32 0xFFFFFFFF) } := (if_neg h).trans (if_pos ha)

theorem i2cRead_aligned {s : State} (h : s.mode ≠ .reset) (ha : s.i2cAddr % 4 = 0) (n : Nat) :
    i2cRead n s = { (readRegs n s true s.i2cAddr).1 with
      busOut := (readRegs n s true s.i2cAddr).2.map (BitVec.ofNat 32), i2cAddr := (s.i2cAddr + 4 * n) % 2 ^ 32 } :=
  (if_neg h).trans (if_neg (not_not.2 ha))

end Sys2Proof.Machine

section

open Sys2Proof Sys2Proof.Machine

/-- Settles O55: one lemma for each piece of background work, the shutdown taken apart into its phases, the reply to SHUT_BEGIN followed on states
that differ aside. -/
theorem backgroundShutdownAndI2c : Obligations.BackgroundShutdownAndI2c := by
  unfold Obligations.BackgroundShutdownAndI2c
  refine ⟨scrubRead_idle, ?scrub, ?reads, ?holds, hbmRetrain_trains, hbmRetrain_idle, fun _ => rfl, ?sensors, sensorRead_idle, ?avs,
    shutBegin_waits, shutAbort_does, shutStatus_does, fun s h2 h3 => shutdownDrainEnd_idle (.inl h2) h3,
    fun s h2 hd => shutdownDrainEnd_idle (.inr hd) (by rw [h2]; decide), ?drain, ?halt, ?again, ?test, fun r s h => shutdownTestDone_idle r h,
    ?address, ?reset, ?aligned, ?misaligned⟩
  case scrub =>
    intro s hm hen hd hr hl
    exact ⟨(scrubRead_reads .loft .clean hm hen hd hr).trans (congrArg Host.Outcome.next (scrub_clean hl)),
      (scrubRead_reads .loft .ce hm hen hd hr).trans (congrArg Host.Outcome.next (scrub_ce hl)), scrubRead_ue hm hen hd hr hl⟩
  case reads =>
    intro sp w s hm hen hd hr
    cases sp
    · exact scrubRead_reads .loft w hm hen hd hr
    · exact scrubRead_reads .hbm w hm hen hd hr
  case holds =>
    intro sp w s hm hen hd hf
    cases sp
    · exact scrubRead_holds .loft w hm hen hd hf
    · exact scrubRead_holds .hbm w hm hen hd hf
  case sensors =>
    exact fun r s hr hm => ⟨sensorRead_measures r s hr hm, fun hk => thermal_gives s r hk⟩
  case avs =>
    exact fun up ok s hm hd ht => ⟨avsAdjust_steps up ok s hm hd ht, avsAdjust_limit up ok s⟩
  case drain =>
    exact fun s x h2 hd hb => ⟨_, shutdownDrainEnd_drained h2 hd hb, drainedTo_gives s⟩
  case halt =>
    intro s h3 hg ha
    obtain ⟨hm, hp, -⟩ := shutEnd_halts ha
    exact ⟨_, shutdownDrainEnd_ends h3 hg, hm, hp⟩
  case again =>
    exact fun s h3 hg ha hl _ hr => ⟨_, shutdownDrainEnd_ends h3 hg, shutEnd_restarts ha hl hr⟩
  case test =>
    exact fun r s h ha hl _ => shutdownTestDone_halts r h ha hl
  case address =>
    intro a s hm
    rw [exec_i2cAddressWrite, if_neg hm]
  case reset =>
    intro a n s hm
    rw [exec_i2cAddressWrite, if_pos hm, exec_i2cRead, i2cRead_in_reset hm]
    exact ⟨rfl, rfl⟩
  case aligned =>
    intro n s hm ha
    rw [exec_i2cRead, i2cRead_aligned hm ha]
  case misaligned =>
    intro n s hm ha
    rw [exec_i2cRead, i2cRead_misaligned hm ha]

end

namespace Sys2Proof.Machine

open Sys2Proof

/-! What a start must not lose on its way (R419, R523, R552): the pins, and of what survives a reset the life cycle, the state of PRS, its journal,
checkpoints and start log, the plan, and the trial image. No operation over the state but those of FW touches them, whether or not memory is canonical. -/

/-- Of what survives a reset: the life cycle, the state of PRS with its journal, checkpoints and start log, the plan and the trial image. -/
def Nv.firm (n : Nv) : (Nat × Option Nat) × (Bool × Bool) × (Option Ckpt × Option Ckpt × List JRec × List Bytes) × List Nat × Option Nat :=
  ((n.lc, n.lcNext), (n.prsFailed, n.s14), (n.ck0, n.ck1, n.jrnl, n.slog), n.plan, n.trial)

/-- The pins, and the firm part of what survives a reset. -/
def State.firm (s : State) : Pins × (Nat × Option Nat) × (Bool × Bool) × (Option Ckpt × Option Ckpt × List JRec × List Bytes) × List Nat × Option Nat :=
  (s.pins, s.nv.firm)

@[simp] theorem State.firm_mk (pending free mode pins nv regs busOut i2cAddr tmu swt ports mdio qcp tmpls sets cpts legs confs armed knl engAcc engQ
    engDis shut pke grn txRes mmu frp gln tnd bal bgw ipx boot fns) :
    State.firm ⟨pending, free, mode, pins, nv, regs, busOut, i2cAddr, tmu, swt, ports, mdio, qcp, tmpls, sets, cpts, legs, confs, armed, knl,
      engAcc, engQ, engDis, shut, pke, grn, txRes, mmu, frp, gln, tnd, bal, bgw, ipx, boot, fns⟩ = (pins, nv.firm) := rfl

@[simp] theorem State.firm_eta (s : State) : (s.pins, s.nv.firm) = s.firm := rfl

@[simp] theorem State.firm_ite (c : Prop) [Decidable c] (a b : State) : (if c then a else b).firm = if c then a.firm else b.firm :=
  apply_ite _ _ _ _

@[simp] theorem State.firm_foldl {α : Type} {f : State → α → State} (hf : ∀ t x, (f t x).firm = t.firm) (l : List α) (s : State) :
    (l.foldl f s).firm = s.firm := foldl_keeps State.firm hf l s

theorem firm_foldl_fst {α β : Type} {f : State × β → α → State × β} (hf : ∀ a x, (f a x).1.firm = a.1.firm) (l : List α)
    (a : State × β) : (l.foldl f a).1.firm = a.1.firm := by
  induction l generalizing a with
  | nil => rfl
  | cons x l ih => exact (ih _).trans (hf a x)

/-- Applying the operation keeps the firm part, whatever its plan and payload. -/
def OpDef.KeepsFirm (d : OpDef) : Prop := ∀ (c : Ctx) (plan : List Nat) (s : State) (b : Bytes), (d.app c plan s b).s.firm = s.firm

section
variable {s : State}

@[simp] theorem State.setNv_firm {x : Nv} (h : x.firm = s.nv.firm) : (s.setNv x).firm = s.firm := congrArg (Prod.mk s.pins) h

@[simp] theorem State.setTmu_firm {x : Tmu} : (s.setTmu x).firm = s.firm := rfl

@[simp] theorem State.setSwt_firm {x : Swt} : (s.setSwt x).firm = s.firm := rfl

@[simp] theorem State.setQcp_firm {x : Qcp} : (s.setQcp x).firm = s.firm := rfl

@[simp] theorem State.setPke_firm {x : Pke} : (s.setPke x).firm = s.firm := rfl

@[simp] theorem State.setGrn_firm {x : Grn} : (s.setGrn x).firm = s.firm := rfl

@[simp] theorem State.setMmu_firm {x : Mmu} : (s.setMmu x).firm = s.firm := rfl

@[simp] theorem State.setReg_firm {a v : Nat} : (s.setReg a v).firm = s.firm := rfl

@[simp] theorem State.setFld_firm (f : Fld) (v : Nat) : (s.setFld f v).firm = s.firm := rfl

@[simp] theorem State.bumpBy_firm (a n : Nat) : (s.bumpBy a n).firm = s.firm := rfl

@[simp] theorem State.bump_firm (a : Nat) : (s.bump a).firm = s.firm := rfl

@[simp] theorem State.drawn_firm : s.drawn.firm = s.firm := rfl

@[simp] theorem State.reportVia_firm (f : FnId) (a : FnState) (path : List FnState) : (s.reportVia f a path).firm = s.firm := rfl

@[simp] theorem State.report_firm (f : FnId) (a b : FnState) : (s.report f a b).firm = s.firm := rfl

@[simp] theorem State.reportFault_firm (f : FnId) (a b : FnState) : (s.reportFault f a b).firm = s.firm := rfl

@[simp] theorem State.setSess_firm (m : Nat) (x : Session) : (s.setSess m x).firm = s.firm := rfl

@[simp] theorem State.unbell_firm (m : Nat) : (s.unbell m).firm = s.firm := by simp [State.unbell]

@[simp] theorem State.closeSess_firm (m : Nat) : (s.closeSess m).firm = s.firm := by simp [State.closeSess]

@[simp] theorem State.eventAt_firm (m op block : Nat) (data : Bytes) (at_ : Inst) : (s.eventAt m op block data at_).firm = s.firm := by
  simp [State.eventAt]

@[simp] theorem State.eventTo_firm (m op block : Nat) (data : Bytes) : (s.eventTo m op block data).firm = s.firm := by simp [State.eventTo]

@[simp] theorem State.eventAll_firm (b op block : Nat) (data : Bytes) : (s.eventAll b op block data).firm = s.firm := by
  simp [State.eventAll]

@[simp] theorem State.raise_firm (a mask : Nat) : (s.raise a mask).firm = s.firm := by simp [State.raise]

@[simp] theorem State.replyAs_firm (dev m seq opcode st det : Nat) (jrn : Bool) (result : Bytes) :
    (s.replyAs dev m seq opcode st det jrn result).firm = s.firm := by
  simp only [State.replyAs]
  split <;> simp

@[simp] theorem State.reply_firm (m seq opcode st det : Nat) (jrn : Bool) (result : Bytes) :
    (s.reply m seq opcode st det jrn result).firm = s.firm := by
  simp [State.reply]

@[simp] theorem State.setPort_firm {p : Nat} {x : Port} : (s.setPort p x).firm = s.firm := rfl

@[simp] theorem State.enqueueTx_firm (p : Nat) (f : TxFrame) : (s.enqueueTx p f).firm = s.firm := by simp [State.enqueueTx]

@[simp] theorem State.txRequest_firm (p : Nat) (f : TxFrame) : (s.txRequest p f).1.firm = s.firm := by
  simp only [State.txRequest]
  (repeat' split) <;> simp

@[simp] theorem State.setPin_firm (f n : Nat) : (s.setPin f n).firm = s.firm := rfl

@[simp] theorem State.pinArea_firm (pa len : Nat) : (s.pinArea pa len).firm = s.firm := State.firm_foldl (fun _ _ => by simp) _ _

@[simp] theorem State.unpinArea_firm (pa len : Nat) : (s.unpinArea pa len).firm = s.firm := State.firm_foldl (fun _ _ => by simp) _ _

@[simp] theorem State.memSet_firm {pa : Nat} {v : Byte} : (s.memSet pa v).firm = s.firm := rfl

@[simp] theorem State.replyLate_firm (m seq opcode st det : Nat) (jrn : Bool) (result : Bytes) :
    (s.replyLate m seq opcode st det jrn result).firm = s.firm := by
  simp [State.replyLate]

@[simp] theorem State.counted_firm (cnt evt mask : Nat) : (s.counted cnt evt mask).firm = s.firm := by simp [State.counted]

@[simp] theorem State.movePhases_firm (d : Nat) : (s.movePhases d).firm = s.firm := rfl

@[simp] theorem State.updCyc_firm : s.updCyc.firm = s.firm := rfl

@[simp] theorem State.updOver_firm : s.updOver.firm = s.firm := by simp [State.updOver]

@[simp] theorem State.updBudgets_firm : s.updBudgets.firm = s.firm := by simp [State.updBudgets]

@[simp] theorem State.place_firm (c : Cost) (p phi : Nat) : (s.place c p phi).firm = s.firm := rfl

@[simp] theorem State.unplace_firm (c : Cost) (p phi : Nat) : (s.unplace c p phi).firm = s.firm := rfl

@[simp] theorem State.setSrv_firm (v : Servo) : (s.setSrv v).firm = s.firm := rfl

@[simp] theorem State.setLock_firm (l : Lock) : (s.setLock l).firm = s.firm := by simp [State.setLock]

@[simp] theorem State.setSrvFn_firm (f : Fn) (fault : Bool) : (s.setSrvFn f fault).firm = s.firm := by simp [State.setSrvFn]

@[simp] theorem State.srvRequest_firm (en : Bool) : (s.srvRequest en).firm = s.firm := by simp [State.srvRequest]

@[simp] theorem State.refSelect_firm : s.refSelect.firm = s.firm := by simp [State.refSelect]

@[simp] theorem State.refWrite_firm (sel : Bool) : (s.refWrite sel).firm = s.firm := by simp [State.refWrite]

@[simp] theorem State.setTin_firm (n : Nat) (x : Tin) : (s.setTin n x).firm = s.firm := rfl

@[simp] theorem State.tinPop_firm (i2c : Bool) (n : Nat) : (s.tinPop i2c n).1.firm = s.firm := by
  simp only [State.tinPop]
  split <;> simp

@[simp] theorem State.setTout_firm (n : Nat) (x : Tout) : (s.setTout n x).firm = s.firm := rfl

@[simp] theorem State.toutArm_firm (n : Nat) : (s.toutArm n).firm = s.firm := by simp [State.toutArm]

@[simp] theorem State.toutDisarm_firm (n : Nat) : (s.toutDisarm n).firm = s.firm := rfl

@[simp] theorem State.ctlPend_firm (v : Nat) : (s.ctlPend v).firm = s.firm := by simp [State.ctlPend]

@[simp] theorem tmuEffect_firm (a old v : Nat) : (tmuEffect s a old v).firm = s.firm := by simp [tmuEffect]

@[simp] theorem State.setCap_firm (c : Nat) (x : Capture) : (s.setCap c x).firm = s.firm := rfl

@[simp] theorem State.setGring_firm (kind id : Nat) (x : GRing) : (s.setGring kind id x).firm = s.firm := rfl

@[simp] theorem State.endCap_firm (c cause : Nat) : (s.endCap c cause).firm = s.firm := by simp [State.endCap]

@[simp] theorem State.pathTakes_firm (n : Nat) : (s.pathTakes n).firm = s.firm := rfl

@[simp] theorem State.balerTakes_firm (n : Nat) (new : Bool) : (s.balerTakes n new).firm = s.firm := rfl

@[simp] theorem State.capWrite_firm (c : Nat) (mk : Nat → Nat → Bytes) (stamp : Inst) : (s.capWrite c mk stamp).firm = s.firm := by
  simp only [State.capWrite]
  (repeat' split) <;> simp

@[simp] theorem State.fireTrigger_firm (c : Nat) (tt : Inst) (late : Bool) : (s.fireTrigger c tt late).firm = s.firm := by
  simp [State.fireTrigger]

@[simp] theorem State.setPortSt_firm (p : Nat) (x : FnState) : (s.setPortSt p x).firm = s.firm := rfl

@[simp] theorem State.setLink_firm (p : Nat) (up : Bool) : (s.setLink p up).firm = s.firm := by simp [State.setLink]

@[simp] theorem State.loseLink_firm (p : Nat) : (s.loseLink p).firm = s.firm := by simp [State.loseLink]

@[simp] theorem State.latchPort_firm (p : Nat) : (s.latchPort p).firm = s.firm := rfl

@[simp] theorem State.portRequest_firm (p : Nat) (en : Bool) : (s.portRequest p en).firm = s.firm := by
  simp only [State.portRequest]
  split <;> simp

@[simp] theorem State.xoffCheck_firm (p : Nat) : (s.xoffCheck p).firm = s.firm := by simp [State.xoffCheck]

@[simp] theorem State.mdioStart_firm (v : Nat) (own : Bool) : (s.mdioStart v own).firm = s.firm := rfl

@[simp] theorem State.mdioNext_firm : s.mdioNext.firm = s.firm := by
  simp only [State.mdioNext]
  (repeat' split) <;> simp

@[simp] theorem State.mdioJob_firm (c : Ctx) (jrn : Bool) (w : List Nat) : (s.mdioJob c jrn w).firm = s.firm := by simp [State.mdioJob]

@[simp] theorem State.macCntLatch_firm (i2c : Bool) (p : Nat) (tx : Bool) : (s.macCntLatch i2c p tx).firm = s.firm := by
  simp [State.macCntLatch]

@[simp] theorem macEffect_firm (a old v : Nat) : (macEffect s a old v).firm = s.firm := by simp [macEffect]

theorem opPortMdioWrite_firm : opPortMdioWrite.KeepsFirm := fun c plan s b => by simp [opPortMdioWrite, Done.wait]

theorem opPortMdioRead_firm : opPortMdioRead.KeepsFirm := fun c plan s b => by simp [opPortMdioRead, Done.wait]

theorem opPortEnable_firm : opPortEnable.KeepsFirm := fun c plan s b => by simp [opPortEnable, Done.ok]

theorem opPortDisable_firm : opPortDisable.KeepsFirm := fun c plan s b => by simp [opPortDisable, Done.ok]

theorem opPortStatus_firm : opPortStatus.KeepsFirm := fun _ _ _ _ => rfl

@[simp] theorem State.closeGate_firm (code cl : Nat) (rel : Option Inst) : (s.closeGate code cl rel).firm = s.firm := rfl

@[simp] theorem State.openGates_firm (codes : List Nat) : (s.openGates codes).firm = s.firm := by simp [State.openGates]

@[simp] theorem State.recloseMuzzle_firm : s.recloseMuzzle.firm = s.firm := State.firm_foldl (fun _ _ => by simp) _ _

@[simp] theorem State.owe_firm (m op : Nat) (b : Bytes) : (s.owe m op b).firm = s.firm := rfl

@[simp] theorem State.mzLatch_firm (i2c : Bool) (k : Nat) : (s.mzLatch i2c k).firm = s.firm := by simp [State.mzLatch]

theorem opRefused_firm : opRefused.KeepsFirm := fun _ _ _ _ => rfl

theorem opSessionKeepalive_firm : opSessionKeepalive.KeepsFirm := fun _ _ _ _ => rfl

theorem opSessionClose_firm : opSessionClose.KeepsFirm := fun _ _ _ _ => rfl

theorem opSessionSubscribe_firm : opSessionSubscribe.KeepsFirm := fun _ _ _ _ => rfl

theorem opSessionKeySet_firm : opSessionKeySet.KeepsFirm := fun _ _ _ _ => rfl

theorem opSessionKeyClear_firm : opSessionKeyClear.KeepsFirm := fun _ _ _ _ => rfl

theorem opUnmuzzle_firm : opUnmuzzle.KeepsFirm := fun c plan s b => by simp [opUnmuzzle, Done.ok]

theorem opMuzzleKeySet_firm : opMuzzleKeySet.KeepsFirm := fun _ _ _ _ => rfl

theorem opSessionList_firm : opSessionList.KeepsFirm := fun _ _ _ _ => rfl

theorem opMuzzleStatus_firm : opMuzzleStatus.KeepsFirm := fun _ _ _ _ => rfl

@[simp] theorem State.setLeg_firm (l : Nat) (x : Leg) : (s.setLeg l x).firm = s.firm := rfl

@[simp] theorem State.setKnl_firm (x : Knl) : (s.setKnl x).firm = s.firm := rfl

@[simp] theorem State.charge_firm (l : Nat) (c : Cost) : (s.charge l c).firm = s.firm := by
  unfold State.charge
  rw [State.updOver_firm, State.setLeg_firm, State.place_firm]
  split
  · exact State.unplace_firm _ _ _
  · rfl

@[simp] theorem State.discharge_firm (l : Nat) : (s.discharge l).firm = s.firm := by
  rw [State.discharge]
  split
  · rw [State.updOver_firm, State.setLeg_firm, State.unplace_firm]
  · rfl

@[simp] theorem State.fitChains_firm (l : Nat) (t : Template) : (s.fitChains l t).firm = s.firm :=
  State.firm_foldl (fun _ _ => by dsimp only; (repeat' split) <;> simp) _ _

@[simp] theorem State.updChain_firm (l i : Nat) (f : Chain → Chain) : (s.updChain l i f).firm = s.firm := rfl

@[simp] theorem State.peakTo_firm (f : Fld) (v : Nat) : (s.peakTo f v).firm = s.firm := by simp [State.peakTo]

@[simp] theorem State.logSwap_firm (l : Nat) : (s.logSwap l).firm = s.firm := by
  simp only [State.logSwap]
  split <;> simp

@[simp] theorem State.resetChain_firm (l i : Nat) : (s.resetChain l i).firm = s.firm := by
  simp only [State.resetChain]
  split <;> simp

@[simp] theorem State.clearEcho_firm (l : Nat) : (s.clearEcho l).firm = s.firm := rfl

@[simp] theorem State.armCmd_firm (c : Ctx) (l : Nat) (T : Option Inst) (payload : Bytes) (plan : List Nat) :
    (s.armCmd c l T payload plan).1.firm = s.firm :=
  rfl

@[simp] theorem State.recharge_firm (l : Nat) : (s.recharge l).firm = s.firm := by simp [State.recharge]

@[simp] theorem State.drawSsrc_firm (l : Nat) {s : State} : (s.drawSsrc l).1.firm = s.firm := rfl

@[simp] theorem State.createLeg_firm (l : Nat) : (s.createLeg l).firm = s.firm := by
  simp only [State.createLeg]
  (repeat' split) <;> simp

@[simp] theorem State.stopLeg_firm (l : Nat) : (s.stopLeg l).firm = s.firm := rfl

@[simp] theorem State.legOff_firm {l : Nat} {b : Inst} : (s.legOff l b).firm = s.firm := by
  simp only [State.legOff]
  (repeat' split) <;> simp

@[simp] theorem State.changeGraph_firm (l tid : Nat) : (s.changeGraph l tid).firm = s.firm := by simp [State.changeGraph]

@[simp] theorem State.applyLeg_firm (a : Armed) (b : Inst) : (s.applyLeg a b).firm = s.firm := by
  simp only [State.applyLeg]
  (repeat' split) <;> simp

@[simp] theorem State.resumeSrtp_firm (l : Nat) : (s.resumeSrtp l).firm = s.firm := by
  simp only [State.resumeSrtp]
  split <;> simp

theorem enableApp_firm (c : Ctx) (plan : List Nat) (s : State) (b : Bytes) : (enableApp c plan s b).s.firm = s.firm := by
  unfold enableApp
  extract_lets -lift l x
  split
  · split
    rename_i s2 w e
    dsimp only
    rw [← eq_of_pair e, State.armCmd_firm, State.report_firm]
    exact (State.charge_firm _ _).trans (State.setLeg_firm _ _)
  · exact State.setLeg_firm _ _
  · rfl

theorem opChanEnable_firm : opChanEnable.KeepsFirm := enableApp_firm

theorem opChanDisable_firm : opChanDisable.KeepsFirm := fun c plan s b => by
  simp only [opChanDisable, Done.ok, disableApp]
  split <;> simp

theorem opChanGraph_firm : opChanGraph.KeepsFirm := fun c plan s b => by simp [opChanGraph]

theorem opChanFlowAdd_firm : opChanFlowAdd.KeepsFirm := fun _ _ _ _ => rfl

theorem opChanFlowDel_firm : opChanFlowDel.KeepsFirm := fun _ _ _ _ => rfl

theorem opChanKey_firm : opChanKey.KeepsFirm := fun c plan s b => by
  simp only [opChanKey, Done.ok]
  (repeat' split) <;> simp

theorem opChanEgress_firm : opChanEgress.KeepsFirm := fun c plan s b => by
  simp only [opChanEgress, Done.ok, State.configure, cfgOp]
  split <;> simp

theorem opChanPlayout_firm : opChanPlayout.KeepsFirm := fun c plan s b => by
  simp only [opChanPlayout, Done.ok, State.configure, cfgOp]
  split <;> simp

theorem opChanEcho_firm : opChanEcho.KeepsFirm := fun c plan s b => by
  simp only [opChanEcho, Done.ok, State.configure]
  split <;> simp

theorem opChanEchoReset_firm : opChanEchoReset.KeepsFirm := fun c plan s b => by
  simp only [opChanEchoReset, Done.ok, State.configure, cfgOp]
  split <;> simp

theorem opChanBridge_firm : opChanBridge.KeepsFirm := fun c plan s b => by
  simp only [opChanBridge, Done.ok, State.configure, cfgOp]
  split <;> simp

theorem opChanGain_firm : opChanGain.KeepsFirm := fun c plan s b => by
  simp only [opChanGain, Done.ok, State.configure, cfgOp]
  split <;> simp

theorem opChanGroup_firm : opChanGroup.KeepsFirm := fun c plan s b => by
  simp only [opChanGroup, Done.ok, State.configure, cfgOp]
  split <;> simp

theorem opChanToneCfg_firm : opChanToneCfg.KeepsFirm := fun c plan s b => by
  simp only [opChanToneCfg, Done.ok, State.configure, cfgOp]
  split <;> simp

theorem opChanCodec_firm : opChanCodec.KeepsFirm := fun c plan s b => by
  simp only [opChanCodec, Done.ok, State.configure, cfgOp]
  split <;> simp

theorem opChanRtcp_firm : opChanRtcp.KeepsFirm := fun _ _ _ _ => rfl

theorem opChanClear_firm : opChanClear.KeepsFirm := fun _ _ _ _ => rfl

theorem opChanTonePlay_firm : opChanTonePlay.KeepsFirm := fun _ _ _ _ => rfl

theorem opChanToneStop_firm : opChanToneStop.KeepsFirm := fun _ _ _ _ => rfl

theorem opChanConfCreate_firm : opChanConfCreate.KeepsFirm := fun _ _ _ _ => rfl

theorem opChanConfDelete_firm : opChanConfDelete.KeepsFirm := fun _ _ _ _ => rfl

theorem opChanConfJoin_firm : opChanConfJoin.KeepsFirm := fun _ _ _ _ => rfl

theorem opChanConfLeave_firm : opChanConfLeave.KeepsFirm := fun _ _ _ _ => rfl

@[simp] theorem State.nodeRec_firm (l : Nat) (p : State × Bytes) (i : Nat) : (s.nodeRec l p i).1.firm = p.1.firm := by
  simp only [State.nodeRec]
  (repeat' split) <;> simp

@[simp] theorem State.nodeRecs_firm (l : Nat) : (s.nodeRecs l).1.firm = s.firm := by
  simp only [State.nodeRecs]
  split
  · rfl
  · exact firm_foldl_fst (fun a i => State.nodeRec_firm l a i) _ _

theorem opChanStatus_firm : opChanStatus.KeepsFirm := fun c plan s b => by simp [opChanStatus, Done.res]

theorem opChanConfStatus_firm : opChanConfStatus.KeepsFirm := fun c plan s b => by
  simp only [opChanConfStatus, Done.ok, Done.res]
  split <;> simp

theorem opGraphDefine_firm : opGraphDefine.KeepsFirm := fun _ _ _ _ => rfl

theorem opGraphDelete_firm : opGraphDelete.KeepsFirm := fun _ _ _ _ => rfl

theorem opGraphCptDefine_firm : opGraphCptDefine.KeepsFirm := fun _ _ _ _ => rfl

theorem opGraphInfo_firm : opGraphInfo.KeepsFirm := fun _ _ _ _ => rfl

theorem opCoefSetLoad_firm : opCoefSetLoad.KeepsFirm := fun _ _ _ _ => rfl

theorem opCoefSetFree_firm : opCoefSetFree.KeepsFirm := fun _ _ _ _ => rfl

theorem opCoefBank_firm : opCoefBank.KeepsFirm := fun _ _ _ _ => rfl

theorem opCoefSwap_firm : opCoefSwap.KeepsFirm := fun c plan s b => by simp [opCoefSwap, Done.stat, chainOp]

theorem opCoefSwapCancel_firm : opCoefSwapCancel.KeepsFirm := fun _ _ _ _ => rfl

theorem opCoefPhase_firm : opCoefPhase.KeepsFirm := fun _ _ _ _ => rfl

theorem opCoefSyncReset_firm : opCoefSyncReset.KeepsFirm := fun _ _ _ _ => rfl

theorem opCoefSetInfo_firm : opCoefSetInfo.KeepsFirm := fun _ _ _ _ => rfl

theorem opCoefRomRead_firm : opCoefRomRead.KeepsFirm := fun c plan s b => by
  simp only [opCoefRomRead, Done.res]
  split <;> simp

theorem opCoefChainStatus_firm : opCoefChainStatus.KeepsFirm := fun c plan s b => by
  simp only [opCoefChainStatus, Done.ok, Done.res]
  split <;> simp

@[simp] theorem State.legCnt_firm (l a : Nat) : (s.legCnt l a).firm = s.firm := rfl

@[simp] theorem plyEffect_firm (a v : Nat) : (plyEffect s a v).firm = s.firm := by simp [plyEffect]

@[simp] theorem State.capStart_firm (c : Nat) : (s.capStart c).firm = s.firm := by simp [State.capStart]

@[simp] theorem State.capStop_firm (c : Nat) : (s.capStop c).firm = s.firm := by
  simp only [State.capStop]
  split <;> simp

@[simp] theorem State.ringRest_firm (kind r : Nat) : (s.ringRest kind r).firm = s.firm := by simp [State.ringRest]

@[simp] theorem State.setPlayer_firm (p : Nat) (x : Player) : (s.setPlayer p x).firm = s.firm := rfl

@[simp] theorem State.endPlayer_firm (p : Nat) : (s.endPlayer p).firm = s.firm := by simp [State.endPlayer]

@[simp] theorem State.ringStart_firm (kind r : Nat) : (s.ringStart kind r).firm = s.firm := rfl

@[simp] theorem State.ringStop_firm (kind r : Nat) : (s.ringStop kind r).firm = s.firm := by
  simp only [State.ringStop]
  split <;> simp

@[simp] theorem State.strmLatch_firm (i2c : Bool) : (s.strmLatch i2c).firm = s.firm := by simp [State.strmLatch]

theorem opCaptOpen_firm : opCaptOpen.KeepsFirm := fun _ _ _ _ => rfl

theorem opCaptClose_firm : opCaptClose.KeepsFirm := fun _ _ _ _ => rfl

theorem opCaptEnable_firm : opCaptEnable.KeepsFirm := fun c plan s b => by
  simp only [opCaptEnable, Done.ok, grnOp]
  split <;> simp

theorem opCaptDisable_firm : opCaptDisable.KeepsFirm := fun c plan s b => by simp [opCaptDisable, Done.ok, grnOp]

theorem opCaptTrigger_firm : opCaptTrigger.KeepsFirm := fun c plan s b => by simp [opCaptTrigger, Done.ok, grnOp]

theorem opCaptExport_firm : opCaptExport.KeepsFirm := fun _ _ _ _ => rfl

theorem opCaptRead_firm : opCaptRead.KeepsFirm := fun _ _ _ _ => rfl

theorem opCaptStatus_firm : opCaptStatus.KeepsFirm := fun _ _ _ _ => rfl

theorem opPattLoad_firm : opPattLoad.KeepsFirm := fun _ _ _ _ => rfl

theorem opPattFromCapt_firm : opPattFromCapt.KeepsFirm := fun _ _ _ _ => rfl

theorem opPattDelete_firm : opPattDelete.KeepsFirm := fun _ _ _ _ => rfl

theorem opPattInfo_firm : opPattInfo.KeepsFirm := fun c plan s b => by
  simp only [opPattInfo, Done.res]
  split <;> simp

theorem opPattPlay_firm : opPattPlay.KeepsFirm := fun c plan s b => by
  simp only [opPattPlay, Done.ok]
  split <;> simp

theorem opPattStop_firm : opPattStop.KeepsFirm := fun c plan s b => by simp [opPattStop, Done.ok, grnOp]

theorem opRingOpen_firm : opRingOpen.KeepsFirm := fun _ _ _ _ => rfl

theorem opRingClose_firm : opRingClose.KeepsFirm := fun c plan s b => by simp [opRingClose, Done.ok, grnOp]

theorem opRingEnable_firm : opRingEnable.KeepsFirm := fun c plan s b => by
  simp only [opRingEnable, Done.ok, grnOp]
  split <;> simp

theorem opRingDisable_firm : opRingDisable.KeepsFirm := fun c plan s b => by simp [opRingDisable, Done.ok, grnOp]

theorem opRingFeed_firm : opRingFeed.KeepsFirm := fun _ _ _ _ => rfl

theorem opRingStatus_firm : opRingStatus.KeepsFirm := fun _ _ _ _ => rfl

@[simp] theorem State.setGln_firm (x : Gln) : (s.setGln x).firm = s.firm := rfl

@[simp] theorem State.setUnitT_firm (cls idx : Nat) (u : UnitT) : (s.setUnitT cls idx u).firm = s.firm := rfl

@[simp] theorem State.glnRecord_firm (r : Slice) (verdict cause done : Nat) (sig : Bytes) :
    (s.glnRecord r verdict cause done sig).firm = s.firm := by
  simp [State.glnRecord]

@[simp] theorem State.dropSlice_firm (r : Slice) : (s.dropSlice r).firm = s.firm := by simp [State.dropSlice]

@[simp] theorem State.cutSlice_firm (r : Slice) (cause : Nat) : (s.cutSlice r cause).firm = s.firm := by simp [State.cutSlice]

@[simp] theorem State.setTask_firm (i : Nat) (t : Task) : (s.setTask i t).firm = s.firm := rfl

@[simp] theorem State.dropCall_firm (i : Nat) : (s.dropCall i).firm = s.firm := rfl

@[simp] theorem State.freeTask_firm (i : Nat) : (s.freeTask i).firm = s.firm := rfl

@[simp] theorem State.setCore_firm (c : Nat) (x : Core) : (s.setCore c x).firm = s.firm := rfl

@[simp] theorem State.mkTask_firm (t : Task) : (s.mkTask t).1.firm = s.firm := rfl

@[simp] theorem State.histCount_firm (t : Task) : (s.histCount t).firm = s.firm := by simp [State.histCount]

@[simp] theorem State.dispatch_firm (c i : Nat) (t : Task) : (s.dispatch c i t).firm = s.firm := by simp [State.dispatch]

@[simp] theorem State.coreTake_firm (c : Nat) : (s.coreTake c).firm = s.firm := by
  simp only [State.coreTake]
  (repeat' split) <;> simp

@[simp] theorem State.stopRun_firm (c : Nat) : (s.stopRun c).firm = s.firm := by
  simp only [State.stopRun]
  split <;> simp

@[simp] theorem State.giveFrame_firm (i : Nat) : (s.giveFrame i).firm = s.firm := by
  simp only [State.giveFrame]
  split <;> simp

theorem State.abortCoreSlice_firm {s u : State} {t : Task} {c : Nat} (e : s.abortCoreSlice t = some (u, c)) : u.firm = s.firm := by
  simp only [State.abortCoreSlice, Option.map_eq_some_iff] at e
  obtain ⟨r, -, e⟩ := e
  cases e
  simp

@[simp] theorem State.enterReady_firm (i : Nat) : (s.enterReady i).firm = s.firm := by
  simp only [State.enterReady]
  split <;> simp

@[simp] theorem State.preempt_firm (c i : Nat) (t : Task) : (s.preempt c i t).firm = s.firm := by
  simp only [State.preempt]
  split <;> simp

@[simp] theorem State.placeTask_firm (i : Nat) : (s.placeTask i).firm = s.firm := by
  simp only [State.placeTask]
  split
  · rfl
  · split
    · rfl
    · split
      · simp
      · split
        · simp
        · split
          case h_1 e => rw [State.dispatch_firm, State.abortCoreSlice_firm e]
          case h_2 => rfl

@[simp] theorem State.makeReady_firm (i : Nat) : (s.makeReady i).firm = s.firm := by simp [State.makeReady]

@[simp] theorem State.wakeCores_firm : s.wakeCores.firm = s.firm := by simp [State.wakeCores]

@[simp] theorem State.unblock_firm (wait on : Nat) : (s.unblock wait on).firm = s.firm := by simp [State.unblock]

@[simp] theorem State.cancelTask_firm (i : Nat) : (s.cancelTask i).firm = s.firm := by
  simp only [State.cancelTask]
  (repeat' split) <;> simp

@[simp] theorem State.bpRelease_firm : s.bpRelease.firm = s.firm := by simp [State.bpRelease]

@[simp] theorem State.sysNew_firm (m : SysMake) : (s.sysNew m).firm = s.firm := by simp [State.sysNew]

@[simp] theorem State.sysFreed_firm : s.sysFreed.firm = s.firm := by simp [State.sysFreed]

@[simp] theorem State.histClear_firm : s.histClear.firm = s.firm := State.firm_foldl (fun _ _ => by simp) _ _

@[simp] theorem knlEffect_firm (a old v : Nat) : (knlEffect s a old v).firm = s.firm := by simp [knlEffect]

@[simp] theorem State.setTnd_firm (x : Tnd) : (s.setTnd x).firm = s.firm := rfl

@[simp] theorem State.setTlink_firm (p : Nat) (x : TLink) : (s.setTlink p x).firm = s.firm := rfl

@[simp] theorem State.linkTo_firm (p st : Nat) : (s.linkTo p st).firm = s.firm := by simp [State.linkTo]

@[simp] theorem State.reblock_firm : s.reblock.firm = s.firm := by simp [State.reblock]

@[simp] theorem State.applyTnd_firm (a : Armed) (b : Inst) : (s.applyTnd a b).firm = s.firm := by
  simp only [State.applyTnd]
  split <;> simp

@[simp] theorem State.tndNewLen_firm : s.tndNewLen.firm = s.firm := rfl

theorem opTandRoute_firm : opTandRoute.KeepsFirm := fun _ _ _ _ => rfl

theorem opTandRing_firm : opTandRing.KeepsFirm := fun c plan s b => by simp [opTandRing, Done.ok]

theorem opTandExport_firm : opTandExport.KeepsFirm := fun c plan s b => by simp [opTandExport, tandOp]

theorem opTandExportDel_firm : opTandExportDel.KeepsFirm := fun _ _ _ _ => rfl

theorem opTandImport_firm : opTandImport.KeepsFirm := fun _ _ _ _ => rfl

theorem opTandImportDel_firm : opTandImportDel.KeepsFirm := fun _ _ _ _ => rfl

theorem opTandConfImport_firm : opTandConfImport.KeepsFirm := fun c plan s b => by
  simp only [opTandConfImport]
  split <;> simp

theorem opTandMigrateOut_firm : opTandMigrateOut.KeepsFirm := fun _ _ _ _ => rfl

theorem opTandMigrateIn_firm : opTandMigrateIn.KeepsFirm := fun c plan s b => by
  unfold opTandMigrateIn
  dsimp -zeta only
  extract_lets l x t phi src y s1
  rw [State.setTnd_firm, State.armCmd_firm, State.report_firm]
  exact (State.charge_firm _ _).trans (State.setLeg_firm _ _)

theorem opTandStatus_firm : opTandStatus.KeepsFirm := fun _ _ _ _ => rfl

@[simp] theorem State.setFlow_firm (i : Nat) (f : FlowEnt) : (s.setFlow i f).firm = s.firm := rfl

@[simp] theorem State.setFrp_firm (x : Frp) : (s.setFrp x).firm = s.firm := rfl

@[simp] theorem State.pushRecord_firm (b : Bytes) : (s.pushRecord b).firm = s.firm := by simp [State.pushRecord]

@[simp] theorem State.recordFault_firm (t : Task) (f : FRec) (outcome rcore : Nat) : (s.recordFault t f outcome rcore).firm = s.firm := by
  simp [State.recordFault]

@[simp] theorem State.settleFaults_firm (i outcome rcore : Nat) : (s.settleFaults i outcome rcore).firm = s.firm := by
  simp only [State.settleFaults]
  split <;> simp

@[simp] theorem State.abortSlice_firm (r : Slice) : (s.abortSlice r).firm = s.firm := by simp [State.abortSlice]

@[simp] theorem State.countFallback_firm : s.countFallback.firm = s.firm := by simp [State.countFallback]

@[simp] theorem State.fallback_firm (i outcome : Nat) : (s.fallback i outcome).firm = s.firm := by
  simp only [State.fallback]
  split <;> simp

@[simp] theorem State.recreate_firm (l : Nat) : (s.recreate l).firm = s.firm := by simp [State.recreate]

@[simp] theorem State.recreated_firm (l : Nat) : (s.recreated l).firm = s.firm := rfl

@[simp] theorem State.setDeng_firm (e : Nat) (x : DEng) : (s.setDeng e x).firm = s.firm := rfl

@[simp] theorem State.moved_firm (e n : Nat) : (s.moved e n).firm = s.firm := rfl

theorem State.engOf_firm {s u : State} {l : List Nat} {pick : List Nat → Option Nat} {e : Nat} (h : s.engOf l pick = some (e, u)) :
    u.firm = s.firm := by
  simp only [State.engOf] at h
  split at h
  · cases h; rfl
  · obtain ⟨r, -, h⟩ := Option.map_eq_some_iff.1 h
    cases h
    simp

theorem State.pickEng_firm {s u : State} {c e : Nat} (h : s.pickEng c = some (e, u)) : u.firm = s.firm := by
  simp only [State.pickEng] at h
  split at h
  · obtain ⟨k, -, h⟩ := Option.bind_eq_some_iff.1 h
    obtain ⟨⟨i, v⟩, hv, h⟩ := Option.map_eq_some_iff.1 h
    cases h
    rw [State.bump_firm, State.engOf_firm hv]
  · obtain ⟨⟨i, v⟩, hv, h⟩ := Option.map_eq_some_iff.1 h
    cases h
    rw [State.setMmu_firm, State.engOf_firm hv]

@[simp] theorem State.startReplay_firm (i : Nat) (t : Task) (kib notCore : Nat) (notEng : Option Nat) :
    (s.startReplay i t kib notCore notEng).firm = s.firm := by
  simp only [State.startReplay]
  split
  case h_1 e => rw [State.setTask_firm, State.pickEng_firm e]; simp
  case h_2 => simp

@[simp] theorem State.freeRsv_firm (t : Task) : (s.freeRsv t).firm = s.firm := by simp [State.freeRsv]

@[simp] theorem State.onFault_firm (i cls core unit detail : Nat) : (s.onFault i cls core unit detail).firm = s.firm := by
  unfold State.onFault
  split
  · rfl
  · extract_lets -lift f s1 t s2 s3
    split
    · exact State.recordFault_firm _ _ _ _
    · split
      · split
        · exact State.recordFault_firm _ _ _ _
        · exact State.setTask_firm _ _
      · have h3 : s3.firm = s.firm := by
          have h2 : s2.firm = s.firm := by
            rw [State.setTask_firm, State.freeRsv_firm, State.dropCall_firm, State.giveFrame_firm]
          unfold s3
          clear_value s2
          split
          · split
            · rw [State.setLeg_firm, h2]
            · exact h2
          · exact h2
        clear_value s3
        (repeat' split) <;> simp [h3]

@[simp] theorem State.legFault_firm (l : Nat) (b : Inst) (cls unit detail : Nat) : (s.legFault l b cls unit detail).firm = s.firm := by
  simp [State.legFault]

@[simp] theorem frpEffect_firm (a _old v : Nat) : (frpEffect s a _old v).firm = s.firm := by simp [frpEffect]

@[simp] theorem State.frpPop_firm (i2c : Bool) : (s.frpPop i2c).firm = s.firm := by
  simp only [State.frpPop]
  split
  · exact State.setReg_firm
  · rw [State.firm_ite, State.firm_foldl (fun _ _ => State.setReg_firm), ite_self, State.setReg_firm, State.setFrp_firm]

@[simp] theorem State.tlbPut_firm (u : Nat) (e : TlbEnt) : (s.tlbPut u e).firm = s.firm := by simp [State.tlbPut]

@[simp] theorem State.lookup_firm (u ctx va : Nat) : (s.lookup u ctx va).firm = s.firm := by
  simp only [State.lookup]
  (repeat' split) <;> simp

@[simp] theorem State.markPin_firm (x : Xlate) (on : Bool) : (s.markPin x on).firm = s.firm := by
  simp only [State.markPin]
  split
  · rfl
  · split
    · exact State.firm_foldl (fun _ _ => State.memSet_firm) _ _
    · exact State.memSet_firm

@[simp] theorem State.unpinRange_firm (ctx va len : Nat) : (s.unpinRange ctx va len).firm = s.firm := by
  simp [State.unpinRange]

@[simp] theorem State.setDring_firm (r : Nat) (x : DRing) : (s.setDring r x).firm = s.firm := rfl

@[simp] theorem State.vwrite_firm (u ctx va : Nat) (b : Bytes) : (s.vwrite u ctx va b).firm = s.firm :=
  State.firm_foldl (fun _ _ => by dsimp only; (repeat' split) <;> simp) _ _

@[simp] theorem State.writeCompletion_firm (r : Nat) (d : Desc) (b0 status : Nat) : (s.writeCompletion r d b0 status).firm = s.firm := by
  simp [State.writeCompletion]

@[simp] theorem State.clearOwn_firm (r : Nat) (d : Desc) : (s.clearOwn r d).firm = s.firm := by simp [State.clearOwn]

@[simp] theorem State.notify_firm (r : Nat) (d : Desc) : (s.notify r d).firm = s.firm := by simp [State.notify]

@[simp] theorem State.finishDesc_firm (r : Nat) (d : Desc) : (s.finishDesc r d).firm = s.firm := by simp [State.finishDesc]

@[simp] theorem State.kennelDone_firm (a : Area) (status done fl : Nat) : (s.kennelDone a status done fl).firm = s.firm := by
  simp [State.kennelDone]

@[simp] theorem State.putArea_firm (a b : Area) : (s.putArea a b).firm = s.firm := rfl

@[simp] theorem State.post_firm (r : Nat) (b : Bytes) : (s.post r b).1.firm = s.firm := by simp [State.post]

@[simp] theorem State.postArea_firm (a : Area) : (s.postArea a).1.firm = s.firm := by simp [State.postArea]

@[simp] theorem State.restageEnds_firm (k : Task) (e status done fl : Nat) : (s.restageEnds k e status done fl).firm = s.firm := by
  simp [State.restageEnds]

@[simp] theorem State.startStages_firm : s.startStages.firm = s.firm := by
  refine State.firm_foldl (fun t a => ?_) _ _
  dsimp only
  split
  · rfl
  · split
    case h_1 => rfl
    case h_2 e => simp [State.pickEng_firm e]

@[simp] theorem State.orderStage_firm (l : Nat) (b : Inst) : (s.orderStage l b).firm = s.firm := by simp [State.orderStage]

@[simp] theorem State.backAgain_firm (a : Area) (unit : Nat) : (s.backAgain a unit).firm = s.firm := by
  simp only [State.backAgain]
  split
  case h_1 e => simp [State.pickEng_firm e]
  case h_2 => simp

@[simp] theorem State.dengFail_firm (e : Nat) : (s.dengFail e).firm = s.firm :=
  (State.firm_foldl (fun _ _ => by dsimp only; (repeat' split) <;> simp) _ _).trans (by simp)

@[simp] theorem State.findGen_firm : s.findGen.firm = s.firm := rfl

@[simp] theorem mmuEffect_firm (a _old v : Nat) : (mmuEffect s a _old v).firm = s.firm := by simp [mmuEffect]

@[simp] theorem State.holdDis_firm (u : Nat) (on : Bool) : (s.holdDis u on).firm = s.firm := rfl

@[simp] theorem State.setFceFn_firm (e : Nat) (f : Fn) (fault : Bool) : (s.setFceFn e f fault).firm = s.firm := by simp [State.setFceFn]

@[simp] theorem State.setEceFn_firm (e : Nat) (f : Fn) (fault : Bool) : (s.setEceFn e f fault).firm = s.firm := by simp [State.setEceFn]

@[simp] theorem fceEffect_firm (a _old v : Nat) : (fceEffect s a _old v).firm = s.firm := by simp [fceEffect]

@[simp] theorem eceEffect_firm (a _old v : Nat) : (eceEffect s a _old v).firm = s.firm := by simp [eceEffect]

@[simp] theorem State.setBal_firm (x : Bal) : (s.setBal x).firm = s.firm := rfl

@[simp] theorem State.setBeng_firm (e : Nat) (x : BEng) : (s.setBeng e x).firm = s.firm := rfl

@[simp] theorem State.setBring_firm (k : Nat) (x : BRing) : (s.setBring k x).firm = s.firm := rfl

@[simp] theorem State.balEnd_firm (e : Nat) (j : BJob) : (s.balEnd e j).firm = s.firm := by simp [State.balEnd]

@[simp] theorem State.balFail_firm (e : Nat) : (s.balFail e).firm = s.firm := by
  simp only [State.balFail]
  split <;> simp

@[simp] theorem balEffect_firm (a old v : Nat) : (balEffect s a old v).firm = s.firm := by
  rw [balEffect, State.firm_ite, State.firm_foldl (fun _ _ => State.setBeng_firm _ _), ite_self]

@[simp] theorem State.fabUse_firm (n : Nat) : (s.fabUse n).firm = s.firm := rfl

@[simp] theorem State.cutAny_firm (r : Slice) (cause : Nat) : (s.cutAny r cause).firm = s.firm := by simp [State.cutAny]

@[simp] theorem State.cutAll_firm (cause : Nat) : (s.cutAll cause).firm = s.firm := by simp [State.cutAll]

@[simp] theorem State.noteOut_firm (cls idx : Nat) (out : Bool) : (s.noteOut cls idx out).firm = s.firm := rfl

@[simp] theorem State.coverEnd_firm (mem : Bool) : (s.coverEnd mem).firm = s.firm := by simp [State.coverEnd]

@[simp] theorem State.coverDrop_firm (cls idx : Nat) : (s.coverDrop cls idx).firm = s.firm := by simp [State.coverDrop]

@[simp] theorem State.takeOut_firm (cls idx : Nat) : (s.takeOut cls idx).firm = s.firm := by
  simp only [State.takeOut]
  split <;> simp only [State.firm_ite, ite_self, State.balFail_firm, State.onFault_firm, State.noteOut_firm, State.coverDrop_firm,
    State.setGln_firm, State.setUnitT_firm, State.setFceFn_firm, State.setEceFn_firm, State.setCore_firm, State.sysFreed_firm,
    State.dengFail_firm, State.bump_firm, State.raise_firm, State.firm_foldl, implies_true]

@[simp] theorem glnEffect_firm (a _old v : Nat) : (glnEffect s a _old v).firm = s.firm := by simp [glnEffect]

@[simp] theorem State.glnPop_firm (i2c : Bool) : (s.glnPop i2c).firm = s.firm := by
  simp only [State.glnPop]
  split
  · exact State.setReg_firm
  · rw [State.firm_ite, State.firm_foldl (fun _ _ => State.setReg_firm), ite_self, State.setReg_firm, State.setGln_firm]

theorem opBistRequest_firm : opBistRequest.KeepsFirm := fun _ _ _ _ => rfl

theorem opBistFuseArm_firm : opBistFuseArm.KeepsFirm := fun _ _ _ _ => rfl

theorem opBistFuseConfirm_firm : opBistFuseConfirm.KeepsFirm := fun c plan s b => by
  simp only [opBistFuseConfirm, OpDef.admin, Done.res]
  (repeat' split) <;> exact (State.setNv_firm rfl).trans (State.setGln_firm _)

theorem opBistLcArm_firm : opBistLcArm.KeepsFirm := fun _ _ _ _ => rfl

theorem opBistLcConfirm_firm : opBistLcConfirm.KeepsFirm := fun _ _ _ _ => rfl

theorem opBistRepairList_firm : opBistRepairList.KeepsFirm := fun _ _ _ _ => rfl

theorem opBistUnitStatus_firm : opBistUnitStatus.KeepsFirm := fun _ _ _ _ => rfl

@[simp] theorem State.prsWrote_firm (n : Nat) : (s.prsWrote n).firm = s.firm := rfl

@[simp] theorem State.prsRead_firm : s.prsRead.firm = s.firm := rfl

theorem opPrsPartition_firm : opPrsPartition.KeepsFirm := fun _ _ _ _ => rfl

theorem opPrsCheckpoint_firm : opPrsCheckpoint.KeepsFirm := fun _ _ _ _ => rfl

theorem opPrsLogRead_firm : opPrsLogRead.KeepsFirm := fun _ _ _ _ => rfl

theorem opPrsInfo_firm : opPrsInfo.KeepsFirm := fun _ _ _ _ => rfl

theorem opStatJrnlFate_firm : opStatJrnlFate.KeepsFirm := fun _ _ _ _ => rfl

theorem opFwInfo_firm : opFwInfo.KeepsFirm := fun _ _ _ _ => rfl

@[simp] theorem State.ipfixSend_firm {x : Ipfix} {sets : Bytes} {recs : Nat} : (s.ipfixSend x sets recs).firm = s.firm := by
  simp [State.ipfixSend]

@[simp] theorem State.sendTemplates_firm : s.sendTemplates.firm = s.firm := by
  simp only [State.sendTemplates]
  split <;> simp

@[simp] theorem State.ipfixStart_firm : s.ipfixStart.firm = s.firm := by
  simp only [State.ipfixStart]
  split <;> simp

theorem opStatLeg_firm : opStatLeg.KeepsFirm := fun _ _ _ _ => rfl

theorem opStatDevice_firm : opStatDevice.KeepsFirm := fun _ _ _ _ => rfl

theorem opStatIpfixSet_firm : opStatIpfixSet.KeepsFirm := fun _ _ _ _ => State.ipfixStart_firm.trans (State.setNv_firm rfl)

@[simp] theorem State.setShut_firm (x : Shut) : (s.setShut x).firm = s.firm := rfl

@[simp] theorem State.shutLegs_firm : s.shutLegs.firm = s.firm := by
  simp only [State.shutLegs]
  split
  · refine (State.firm_foldl (fun t p => ?_) _ _).trans (State.setShut_firm _)
    split <;> simp
  · rfl

@[simp] theorem State.shutStart_firm (action : Nat) (skip forget : Bool) (drainNs : Nat) (by_ : Option (Nat × Nat)) :
    (s.shutStart action skip forget drainNs by_).firm = s.firm := by
  simp [State.shutStart]

@[simp] theorem State.shutReply_firm (st det : Nat) : (s.shutReply st det).firm = s.firm := by
  simp only [State.shutReply]
  split <;> simp

@[simp] theorem State.reviveLeg_firm (l : Nat) (old : Leg) : (s.reviveLeg l old).firm = s.firm := by
  simp only [State.reviveLeg]
  split
  · exact State.setLeg_firm _ _
  · rw [State.armCmd_firm, State.report_firm, State.charge_firm, State.setLeg_firm]
  · rfl

@[simp] theorem State.revive_firm : s.revive.firm = s.firm := by simp [State.revive]

theorem opShutBegin_firm : opShutBegin.KeepsFirm := fun c plan s b => by
  simp only [opShutBegin, OpDef.admin]
  split
  · exact State.owe_firm _ _ _
  · exact State.shutStart_firm _ _ _ _ _

theorem opShutAbort_firm : opShutAbort.KeepsFirm := fun _ _ _ _ =>
  (State.setShut_firm _).trans (State.revive_firm.trans (State.shutReply_firm _ _))

theorem opShutStatus_firm : opShutStatus.KeepsFirm := fun _ _ _ _ => rfl

@[simp] theorem State.setBgw_firm (x : Bgw) : (s.setBgw x).firm = s.firm := rfl

@[simp] theorem State.patrolTo_firm (hbm : Bool) (at_ loc : Nat) : (s.patrolTo hbm at_ loc).firm = s.firm := by simp [State.patrolTo]

@[simp] theorem State.patrolResume_firm (hbm : Bool) : (s.patrolResume hbm).firm = s.firm := by simp [State.patrolResume]

@[simp] theorem bgwEffect_firm (a old v : Nat) : (bgwEffect s a old v).firm = s.firm := by simp [bgwEffect]

theorem opTimeClock_firm : opTimeClock.KeepsFirm := fun _ _ _ _ => rfl

theorem opTimePort_firm : opTimePort.KeepsFirm := fun _ _ _ _ => rfl

theorem opTimeUnicast_firm : opTimeUnicast.KeepsFirm := fun _ _ _ _ => rfl

theorem opTimeStatus_firm : opTimeStatus.KeepsFirm := fun _ _ _ _ => rfl

theorem opTimePortStatus_firm : opTimePortStatus.KeepsFirm := fun _ _ _ _ => rfl

@[simp] theorem State.forgetUnits_firm : s.forgetUnits.firm = s.firm := rfl

@[simp] theorem State.followUnits_firm : s.followUnits.firm = s.firm := by simp [State.followUnits]

@[simp] theorem State.newLen_firm : s.newLen.firm = s.firm := by simp [State.newLen]

@[simp] theorem swtEffect_firm (a old v : Nat) : (swtEffect s a old v).firm = s.firm := by simp [swtEffect]

@[simp] theorem State.readAct_firm (i2c : Bool) (a : Nat) : (s.readAct i2c a).firm = s.firm := by
  simp only [State.readAct]
  (repeat' split) <;> simp

@[simp] theorem readRegs_firm (n : Nat) (s : State) (i : Bool) (a : Nat) : (readRegs n s i a).1.firm = s.firm := by
  induction n generalizing s a with
  | zero => rfl
  | succ n ih => simp [readRegs, ih]

@[simp] theorem State.effect_firm (a old v : Nat) : (s.effect a old v).firm = s.firm := by
  unfold State.effect
  split <;> simp

@[simp] theorem State.writePair_firm (a v : Nat) : (s.writePair a v).firm = s.firm := by simp [State.writePair]

@[simp] theorem applyPairs_firm (ps : List (Nat × Nat)) : (applyPairs s ps).1.firm = s.firm :=
  firm_foldl_fst (fun _ p => State.writePair_firm p.1 p.2) _ _

@[simp] theorem regApply_firm (b : Bytes) : (regApply s b).s.firm = s.firm := by simp [regApply]

theorem opRegWrite_firm : opRegWrite.KeepsFirm := fun c plan s b => by
  simp only [opRegWrite, Done.wait]
  split <;> simp

theorem opRegRead_firm : opRegRead.KeepsFirm := fun c plan s b => by simp [opRegRead, Done.res]

@[simp] theorem State.recRefused_firm (r : JRec) (st : Nat) : (s.recRefused r st).firm = s.firm := by simp [State.recRefused]

theorem famSession_firm : ∀ p ∈ famSession, p.2.KeepsFirm := by
  simp only [famSession, List.forall_mem_cons]
  exact ⟨opRefused_firm, opRefused_firm, opSessionKeepalive_firm, opSessionClose_firm, opSessionSubscribe_firm,
    opSessionKeySet_firm, opSessionKeyClear_firm, opUnmuzzle_firm, opMuzzleKeySet_firm, opSessionList_firm, opMuzzleStatus_firm,
    List.forall_mem_nil _⟩

theorem famReg_firm : ∀ p ∈ famReg, p.2.KeepsFirm := by
  simp only [famReg, List.forall_mem_cons]
  exact ⟨opRegWrite_firm, opRegRead_firm, List.forall_mem_nil _⟩

theorem famChan_firm : ∀ p ∈ famChan, p.2.KeepsFirm := by
  simp only [famChan, List.forall_mem_cons]
  exact ⟨opChanEnable_firm, opChanDisable_firm, opChanGraph_firm, opChanFlowAdd_firm, opChanFlowDel_firm, opChanEgress_firm,
    opChanKey_firm, opChanPlayout_firm, opChanEcho_firm, opChanEchoReset_firm, opChanBridge_firm, opChanGain_firm,
    opChanGroup_firm, opChanToneCfg_firm, opChanTonePlay_firm, opChanToneStop_firm, opChanCodec_firm, opChanRtcp_firm,
    opChanClear_firm, opChanConfCreate_firm, opChanConfDelete_firm, opChanConfJoin_firm, opChanConfLeave_firm,
    opChanStatus_firm, opChanConfStatus_firm, List.forall_mem_nil _⟩

theorem famGraph_firm : ∀ p ∈ famGraph, p.2.KeepsFirm := by
  simp only [famGraph, List.forall_mem_cons]
  exact ⟨opGraphDefine_firm, opGraphDelete_firm, opGraphCptDefine_firm, opGraphInfo_firm, List.forall_mem_nil _⟩

theorem famCoef_firm : ∀ p ∈ famCoef, p.2.KeepsFirm := by
  simp only [famCoef, List.forall_mem_cons]
  exact ⟨opCoefSetLoad_firm, opCoefSetFree_firm, opCoefBank_firm, opCoefSwap_firm, opCoefSwapCancel_firm, opCoefPhase_firm,
    opCoefSyncReset_firm, opCoefSetInfo_firm, opCoefRomRead_firm, opCoefChainStatus_firm, List.forall_mem_nil _⟩

theorem famTime_firm : ∀ p ∈ famTime, p.2.KeepsFirm := by
  simp only [famTime, List.forall_mem_cons]
  exact ⟨opTimeClock_firm, opTimePort_firm, opTimeUnicast_firm, opTimeStatus_firm, opTimePortStatus_firm, List.forall_mem_nil _⟩

theorem famPort_firm : ∀ p ∈ famPort, p.2.KeepsFirm := by
  simp only [famPort, List.forall_mem_cons]
  exact ⟨opPortEnable_firm, opPortDisable_firm, opPortMdioWrite_firm, opPortMdioRead_firm, opPortStatus_firm, List.forall_mem_nil
    _⟩

theorem famCapt_firm : ∀ p ∈ famCapt, p.2.KeepsFirm := by
  simp only [famCapt, List.forall_mem_cons]
  exact ⟨opCaptOpen_firm, opCaptClose_firm, opCaptEnable_firm, opCaptDisable_firm, opCaptTrigger_firm, opCaptExport_firm,
    opCaptRead_firm, opCaptStatus_firm, List.forall_mem_nil _⟩

theorem famPatt_firm : ∀ p ∈ famPatt, p.2.KeepsFirm := by
  simp only [famPatt, List.forall_mem_cons]
  exact ⟨opPattLoad_firm, opPattFromCapt_firm, opPattDelete_firm, opPattPlay_firm, opPattStop_firm, opPattInfo_firm,
    List.forall_mem_nil _⟩

theorem famRing_firm : ∀ p ∈ famRing, p.2.KeepsFirm := by
  simp only [famRing, List.forall_mem_cons]
  exact ⟨opRingOpen_firm, opRingClose_firm, opRingEnable_firm, opRingDisable_firm, opRingFeed_firm, opRingStatus_firm,
    List.forall_mem_nil _⟩

theorem famTand_firm : ∀ p ∈ famTand, p.2.KeepsFirm := by
  simp only [famTand, List.forall_mem_cons]
  exact ⟨opTandRoute_firm, opTandRing_firm, opTandExport_firm, opTandExportDel_firm, opTandImport_firm, opTandImportDel_firm,
    opTandConfImport_firm, opTandMigrateOut_firm, opTandMigrateIn_firm, opTandStatus_firm, List.forall_mem_nil _⟩

theorem famBist_firm : ∀ p ∈ famBist, p.2.KeepsFirm := by
  simp only [famBist, List.forall_mem_cons]
  exact ⟨opBistRequest_firm, opBistFuseArm_firm, opBistFuseConfirm_firm, opBistLcArm_firm, opBistLcConfirm_firm,
    opBistRepairList_firm, opBistUnitStatus_firm, List.forall_mem_nil _⟩

theorem famPrs_firm : ∀ p ∈ famPrs, p.2.KeepsFirm := by
  simp only [famPrs, List.forall_mem_cons]
  exact ⟨opPrsPartition_firm, opPrsCheckpoint_firm, opPrsLogRead_firm, opPrsInfo_firm, List.forall_mem_nil _⟩

theorem famStat_firm : ∀ p ∈ famStat, p.2.KeepsFirm := by
  simp only [famStat, List.forall_mem_cons]
  exact ⟨opStatIpfixSet_firm, opStatLeg_firm, opStatDevice_firm, opStatJrnlFate_firm, List.forall_mem_nil _⟩

theorem famShut_firm : ∀ p ∈ famShut, p.2.KeepsFirm := by
  simp only [famShut, List.forall_mem_cons]
  exact ⟨opShutBegin_firm, opShutAbort_firm, opShutStatus_firm, List.forall_mem_nil _⟩

/-- The life cycle, and the state that waits for the next start. -/
def State.life (s : State) : Nat × Option Nat := (s.nv.lc, s.nv.lcNext)

theorem life_of_firm {s t : State} (h : t.firm = s.firm) : t.life = s.life := congrArg (fun x => x.2.1) h

/-- Applying the operation keeps the life cycle. -/
def OpDef.KeepsLife (d : OpDef) : Prop := ∀ (c : Ctx) (plan : List Nat) (s : State) (b : Bytes), (d.app c plan s b).s.life = s.life

theorem OpDef.KeepsFirm.life {d : OpDef} (h : d.KeepsFirm) : d.KeepsLife := fun c plan s b => life_of_firm (h c plan s b)

theorem Nv.setSlot_firm (n : Nv) (k : Nat) (x : FwSlot) : (n.setSlot k x).firm = n.firm := by
  unfold Nv.setSlot
  split <;> rfl

theorem opFwLoad_firm : opFwLoad.KeepsFirm := fun c plan s b => by
  simp only [opFwLoad, Done.ok, Done.stat]
  split <;> exact (State.setNv_firm (Nv.setSlot_firm _ _ _)).trans (State.prsWrote_firm _)

/-- The operations of FW make an image the next start's trial and clear the plan, and leave the life cycle. -/
theorem famFw_life : ∀ p ∈ famFw, p.2.KeepsLife := by
  simp only [famFw, List.forall_mem_cons]
  exact ⟨opFwLoad_firm.life, fun _ _ _ _ => rfl, fun _ _ _ _ => rfl, opFwInfo_firm.life, List.forall_mem_nil _⟩

theorem opTable_life {c : Nat} {d : OpDef} (h : opTable c = some d) : d.KeepsLife := by
  unfold opTable at h
  split at h
  · exact (famSession_firm _ (kget_mem h)).life
  · exact (famReg_firm _ (kget_mem h)).life
  · exact (famChan_firm _ (kget_mem h)).life
  · exact (famGraph_firm _ (kget_mem h)).life
  · exact (famCoef_firm _ (kget_mem h)).life
  · exact (famTime_firm _ (kget_mem h)).life
  · exact (famPort_firm _ (kget_mem h)).life
  · exact (famCapt_firm _ (kget_mem h)).life
  · exact (famPatt_firm _ (kget_mem h)).life
  · exact (famRing_firm _ (kget_mem h)).life
  · exact (famTand_firm _ (kget_mem h)).life
  · exact (famBist_firm _ (kget_mem h)).life
  · exact (famPrs_firm _ (kget_mem h)).life
  · exact famFw_life _ (kget_mem h)
  · exact (famStat_firm _ (kget_mem h)).life
  · exact (famShut_firm _ (kget_mem h)).life
  · cases h

@[simp] theorem State.settleOne_firm (a : Armed) (b : Inst) : (s.settleOne a b).firm = s.firm := by simp [State.settleOne]

@[simp] theorem State.settleTo_firm (r : JRec) : (s.settleTo r).firm = s.firm := by simp [State.settleTo]

/-- A record executed again leaves the life cycle. -/
theorem State.reexec_life {r : JRec} {counted : Bool} : (s.reexec r counted).life = s.life := by
  simp only [State.reexec]
  split
  · exact life_of_firm (by simp)
  · split
    · exact life_of_firm (by simp)
    · rename_i d hd
      split
      · exact life_of_firm (by simp)
      · exact life_of_firm (by simp)
      · exact (opTable_life hd _ _ _ _).trans (life_of_firm (by simp))

@[simp] theorem State.keepOut_firm (p : Nat × Nat) : (s.keepOut p).firm = s.firm := by simp [State.keepOut]

@[simp] theorem State.ringSetup_firm (x : RingSetup) : (s.ringSetup x).firm = s.firm := by simp [State.ringSetup]

@[simp] theorem State.jobSetup_firm (x : RingSetup) : (s.jobSetup x).firm = s.firm := by simp [State.jobSetup]

@[simp] theorem State.portOn_firm (p : Nat) : (s.portOn p).firm = s.firm := by simp [State.portOn]

@[simp] theorem State.prsUp_firm : s.prsUp.firm = s.firm := rfl

@[simp] theorem State.s03_firm {alt : Nat} : (s.s03 alt).s.firm = s.firm := by
  unfold State.s03
  split <;> rfl

@[simp] theorem State.s08_firm : s.s08.s.firm = s.firm := by
  refine State.followUnits_firm.trans ((State.firm_foldl (fun _ _ => State.keepOut_firm _) _ _).trans ?_)
  rw [State.firm_foldl fun _ _ => State.setBeng_firm _ _, State.setFld_firm, State.firm_foldl fun _ _ => State.setDeng_firm _ _,
    State.firm_foldl fun _ _ => ?_, State.firm_foldl fun _ _ => ?_]
  · rw [State.setFceFn_firm, State.setFld_firm]
  · rw [State.setEceFn_firm, State.setFld_firm]

@[simp] theorem State.s09_firm {alt : Nat} {env : StartEnv} : (s.s09 alt env).s.firm = s.firm := by
  refine State.setPke_firm.trans (State.drawn_firm.trans ?_)
  rw [State.firm_foldl fun _ _ => State.jobSetup_firm _, State.firm_foldl fun _ _ => State.ringSetup_firm _, State.findGen_firm,
    State.firm_foldl fun _ _ => ?_, State.firm_foldl fun _ _ => State.setMmu_firm, State.firm_foldl fun _ _ => State.setMmu_firm]
  · rw [State.setFld_firm, State.setFld_firm, State.setFld_firm]
  · split
    · exact State.memSet_firm
    · rfl

end

end Sys2Proof.Machine

namespace Sys2Proof.Machine

open Sys2Proof

/-! The steps of a start leave the life cycle that stood when they began (R523, R552). -/

section
variable {s : State}

theorem State.life_foldl {α : Type} {f : State → α → State} (hf : ∀ t x, (f t x).life = t.life) (l : List α) (s : State) :
    (l.foldl f s).life = s.life := foldl_keeps State.life hf l s

theorem setSlog_life (s : State) (l : List Bytes) (n : Nat) : (s.setNv { s.nv with slog := l, slogN := n }).life = s.life := rfl
theorem setPlan_life (s : State) (l : List Nat) : (s.setNv { s.nv with plan := l }).life = s.life := rfl

theorem State.slogPut_life (step alt outcome detail startUs durUs data : Nat) :
    (s.slogPut step alt outcome detail startUs durUs data).life = s.life := by
  unfold State.slogPut
  extract_lets b l
  split
  · rfl
  · rw [life_of_firm (State.prsWrote_firm _), setSlog_life]

theorem State.badImage_life {alt : Nat} : (s.badImage alt).life = s.life := life_of_firm (State.setNv_firm (Nv.setSlot_firm _ _ _))

theorem State.recover_life {ports : List Nat} {us : Nat} : (s.recover ports us).life = s.life :=
  (State.life_foldl (fun _ p => life_of_firm (State.portOn_firm p)) _ _).trans
    ((life_of_firm State.recloseMuzzle_firm).trans ((State.slogPut_life _ _ _ _ _ _ _).trans rfl))

theorem State.s04_life {alt : Nat} : (s.s04 alt).s.life = s.life := by
  simp only [State.s04]
  split
  · rfl
  · split
    · rfl
    · split <;> rfl

theorem State.s07_life {alt : Nat} {env : StartEnv} : (s.s07 alt env).s.life = s.life := by
  unfold State.s07
  split
  · rfl
  · exact life_of_firm (State.setFld_firm _ _)

theorem State.s12_life {bad : Nat} : (s.s12 bad).s.life = s.life := by
  unfold State.s12
  split
  · rfl
  · refine (State.life_foldl (fun _ _ => State.reexec_life) _ _).trans ?_
    split
    · exact life_of_firm (State.raise_firm _ _)
    · rfl

theorem Nv.cutJrnl_life (n : Nv) (bad : Nat) (stop : Option (BitVec 32)) :
    (n.cutJrnl bad stop).lc = n.lc ∧ (n.cutJrnl bad stop).lcNext = n.lcNext := by
  unfold Nv.cutJrnl
  split
  · split <;> exact ⟨rfl, rfl⟩
  · exact ⟨rfl, rfl⟩

theorem State.s13_life {alt bad : Nat} {stop : Option (BitVec 32)} : (s.s13 alt bad stop).s.life = s.life := by
  have h : (s.setNv (s.nv.cutJrnl bad stop)).life = s.life :=
    Prod.ext (Nv.cutJrnl_life s.nv bad stop).1 (Nv.cutJrnl_life s.nv bad stop).2
  refine (State.life_foldl (fun _ _ => State.reexec_life) _ _).trans ?_
  split
  · rfl
  · exact h

theorem State.s14_life {full : Bool} : (s.s14 full).s.life = s.life := by
  refine (life_of_firm State.ipfixStart_firm).trans ?_
  unfold State.life
  split <;> split <;> rfl

theorem State.stepWork_life {env : StartEnv} {full : Bool} {j alt : Nat} : (s.stepWork env full j alt).s.life = s.life := by
  unfold State.stepWork
  split
  · rfl
  · split <;> rfl
  · exact life_of_firm State.s03_firm
  · exact State.s04_life
  · exact life_of_firm (State.setGln_firm _)
  · exact life_of_firm (State.setFld_firm _ _)
  · exact State.s07_life
  · exact life_of_firm State.s08_firm
  · exact life_of_firm State.s09_firm
  · exact life_of_firm State.recloseMuzzle_firm
  · exact life_of_firm (by simp [State.s11, StepRes.ok])
  · exact State.s12_life
  · exact State.s13_life
  · exact State.s14_life
  · rfl

theorem closeStep_life {w : StepRes} {j alt us dur : Nat} : (closeStep j alt us dur w).s.life = w.s.life := by
  unfold closeStep
  dsimp only
  split
  · rw [setPlan_life, State.slogPut_life]
  · exact State.slogPut_life _ _ _ _ _ _ _

theorem attempts_life (env : StartEnv) (full stop : Bool) (j fuel alt : Nat) (l : List StepTry) (r : StartRun) :
    (attempts env full stop j fuel alt l r).s.life = r.s.life := by
  induction fuel generalizing alt l r with
  | zero => rfl
  | succ fuel ih =>
    simp only [attempts]
    split
    · exact State.recover_life
    · split
      · unfold State.life
        rw [restart_nv]
        exact State.slogPut_life _ _ _ _ _ _ _
      · split
        · rw [ih, State.slogPut_life]
          split
          · exact State.badImage_life.trans (State.slogPut_life _ _ _ _ _ _ _)
          · exact State.slogPut_life _ _ _ _ _ _ _
        · exact closeStep_life.trans (State.stepWork_life.trans (State.slogPut_life _ _ _ _ _ _ _))

theorem oneStep_life {env : StartEnv} {full : Bool} {stop : Option Nat} {r : StartRun} {j : Nat} : (oneStep env full stop r j).s.life = r.s.life := by
  simp only [oneStep]
  split
  · rfl
  · split
    · split
      · exact State.recover_life.trans (attempts_life _ _ _ _ _ _ _ _)
      · exact attempts_life _ _ _ _ _ _ _ _
    · exact attempts_life _ _ _ _ _ _ _ _

end

/-! A start that runs on (R419, R523, R552, R561). -/

/-- The transition that waited for the start is made (R523). -/
def State.lcMoved (s : State) : State := match s.nv.lcNext with | some t => s.setNv { s.nv with lc := t, lcNext := none } | none => s

/-- The part with BOOTSEL read and the life cycle moved. -/
def State.strapped (s : State) (env : StartEnv) : State := (s.setPins { s.pins with bootsel := env.bootsel }).lcMoved

/-- The run of a start before its first step: PRS opened, nothing of the time gone. -/
def State.begun (s : State) (env : StartEnv) : StartRun := ⟨(s.strapped env).openPrs, 0, false⟩

/-- Whether the start is full. -/
def State.begunFull (s : State) (env : StartEnv) : Bool := (s.strapped env).openPrs.isFull (s.strapped env).nv.s14

/-- The run of a start after `n` of its steps. -/
def State.afterSteps (s : State) (env : StartEnv) (stop : Option Nat) (n : Nat) : StartRun :=
  (List.range n).foldl (fun r k => oneStep env (s.begunFull env) stop r (k + 1)) (s.begun env)

theorem runStart_eq (s : State) (env : StartEnv) (stop : Option Nat) : s.runStart env stop = (s.afterSteps env stop 14).s := rfl

theorem afterSteps_succ (s : State) (env : StartEnv) (stop : Option Nat) (n : Nat) :
    s.afterSteps env stop (n + 1) = oneStep env (s.begunFull env) stop (s.afterSteps env stop n) (n + 1) := by
  rw [State.afterSteps, List.range_succ, List.foldl_append]
  rfl

theorem lcMoved_nv (s : State) : s.lcMoved.nv = { s.nv with lc := s.nv.lcNext.getD s.nv.lc, lcNext := none } := by
  unfold State.lcMoved
  split
  · next t h =>
    rw [h]
    rfl
  · next h => rw [h, Option.getD_none, ← h]

theorem strapped_nv (s : State) (env : StartEnv) : (s.strapped env).nv = { s.nv with lc := s.nv.lcNext.getD s.nv.lc, lcNext := none } :=
  lcMoved_nv _

/-- The state in which S02 has read what PRS holds, if it works. -/
def State.prsOpened (s : State) : State := if s.prsUp.nv.prsFailed then s.prsUp else s.prsUp.prsRead

theorem prsOpened_nv (s : State) : s.prsOpened.nv = s.nv := by
  unfold State.prsOpened
  split <;> rfl

theorem openPrs_failed {s : State} (h : s.nv.prsFailed = true) : s.openPrs = s.prsOpened :=
  if_pos ((congrArg Nv.prsFailed (prsOpened_nv s)).trans h)

/-- What S02 writes to PRS (R419, R559). -/
def Nv.opened (n : Nv) (cause : Nat) : Nv :=
  { n with boot := n.boot + 1, fails := if n.s14 ∨ n.boot = 0 then n.fails else n.fails + 1, s14 := false, lastCause := cause }

theorem openPrs_nv {s : State} (h : s.nv.prsFailed = false) : s.openPrs.nv = s.nv.opened s.prsOpened.boot.cause := by
  have hp : ¬ s.prsOpened.nv.prsFailed = true := by rw [prsOpened_nv, h]; decide
  have e : s.openPrs = (s.prsOpened.setNv (s.prsOpened.nv.opened s.prsOpened.boot.cause)).setReg R.FRP_BOOT (s.prsOpened.nv.boot + 1) := if_neg hp
  rw [e, prsOpened_nv]
  rfl

theorem openPrs_life (s : State) : s.openPrs.life = s.life := by
  cases h : s.nv.prsFailed
  · rw [State.life, openPrs_nv h]
    rfl
  · rw [State.life, openPrs_failed h, prsOpened_nv]
    rfl

theorem openPrs_boot (s : State) : s.openPrs.nv.boot = if s.nv.prsFailed then s.nv.boot else s.nv.boot + 1 := by
  cases h : s.nv.prsFailed
  · rw [openPrs_nv h]
    rfl
  · rw [openPrs_failed h, prsOpened_nv]
    rfl

theorem afterSteps_keeps (s : State) (env : StartEnv) (stop : Option Nat) (n : Nat) :
    (s.afterSteps env stop n).s.durable = (s.strapped env).openPrs.durable ∧ (s.afterSteps env stop n).s.life = (s.strapped env).openPrs.life := by
  induction n with
  | zero => exact ⟨rfl, rfl⟩
  | succ n ih =>
    rw [afterSteps_succ]
    exact ⟨oneStep_durable.trans ih.1, oneStep_life.trans ih.2⟩

/-- What a start leaves of what survives a reset, wherever it ends. -/
theorem runStart_nv (s : State) (env : StartEnv) (stop : Option Nat) :
    (s.runStart env stop).nv.boot = (if s.nv.prsFailed then s.nv.boot else s.nv.boot + 1) ∧ (s.runStart env stop).nv.lc = s.nv.lcNext.getD s.nv.lc ∧
      (s.runStart env stop).nv.lcNext = none := by
  obtain ⟨hd, hl⟩ := afterSteps_keeps s env stop 14
  have hboot : (s.afterSteps env stop 14).s.nv.boot = (s.strapped env).openPrs.nv.boot := congrArg (fun x => x.2.2) hd
  have hlife : (s.strapped env).life = (s.nv.lcNext.getD s.nv.lc, none) := by rw [State.life, strapped_nv]
  rw [openPrs_life, hlife] at hl
  rw [openPrs_boot, strapped_nv] at hboot
  rw [runStart_eq]
  exact ⟨hboot, congrArg Prod.fst hl, congrArg Prod.snd hl⟩

/-! Where a start ends. -/

theorem prsWrote_mode (s : State) (n : Nat) : (s.prsWrote n).mode = s.mode := rfl
theorem setNv_mode (s : State) (x : Nv) : (s.setNv x).mode = s.mode := rfl

theorem slogPut_mode (s : State) (step alt outcome detail a d x : Nat) : (s.slogPut step alt outcome detail a d x).mode = s.mode := by
  unfold State.slogPut
  extract_lets b l
  split
  · rfl
  · rw [prsWrote_mode, setNv_mode]

theorem portOn_mode (s : State) (p : Nat) : (s.portOn p).mode = s.mode := by
  unfold State.portOn State.portRequest
  extract_lets x
  split <;> rfl

theorem closeGate_mode (s : State) (c cl : Nat) (rel : Option Inst) : (s.closeGate c cl rel).mode = s.mode := rfl

theorem recloseMuzzle_mode (s : State) : s.recloseMuzzle.mode = s.mode :=
  foldl_keeps State.mode (fun t c => closeGate_mode t c t.loc none) _ _

theorem recover_mode (s : State) (ports : List Nat) (us : Nat) : (s.recover ports us).mode = .recovery :=
  (foldl_keeps State.mode portOn_mode _ _).trans ((recloseMuzzle_mode _).trans (slogPut_mode _ _ _ _ _ _ _ _))

theorem ipfixStart_mode (s : State) : s.ipfixStart.mode = s.mode := by
  cases hx : s.nv.ipfix with
  | none => simp only [State.ipfixStart, hx]
  | some x =>
    cases hen : x.en
    · rw [ipfixStart_off hx hen]
    · obtain ⟨p, r, b, h⟩ := ipfixStart_on hx hen
      rw [h]

theorem s14_mode (s : State) (full : Bool) : (s.s14 full).s.mode = .service := ipfixStart_mode _

/-- A start of steps that is under way, or has ended in recovery boot; after its last step it serves. -/
def StartRun.Sound (r : StartRun) (k : Nat) : Prop :=
  (r.ended = true ∧ r.s.mode = .recovery) ∨ (r.ended = false ∧ (k = 14 → r.s.mode = .service))

theorem closeStep_sound {k alt us dur : Nat} {w : StepRes} (h : k = 14 → w.s.mode = .service) : (closeStep k alt us dur w).Sound k := by
  refine .inr ⟨rfl, fun hk => ?_⟩
  unfold closeStep
  dsimp only
  split
  · rw [setNv_mode, slogPut_mode, h hk]
  · rw [slogPut_mode, h hk]

/-- Attempts at a step end: with one that does not fail, or past the last alternate in recovery boot (R555). -/
theorem attempts_sound (env : StartEnv) (full : Bool) (k : Nat) : ∀ (fuel alt : Nat) (l : List StepTry) (r : StartRun), 0 < fuel →
    topAlt k + 2 ≤ fuel + alt → (attempts env full false k fuel alt l r).Sound k := by
  intro fuel
  induction fuel with
  | zero => exact fun _ _ _ h => absurd h (Nat.lt_irrefl 0)
  | succ fuel ih =>
    intro alt l r _ hf
    simp only [attempts, Bool.false_eq_true, and_false, if_false]
    split
    · exact .inl ⟨rfl, recover_mode _ _ _⟩
    · next hle =>
      split
      · exact ih (alt + 1) _ _ (by omega) (by omega)
      · refine closeStep_sound fun hk => ?_
        subst hk
        exact s14_mode _ _

theorem oneStep_sound (env : StartEnv) (full : Bool) {r : StartRun} {j : Nat} (k : Nat) (h : r.Sound j) : (oneStep env full none r k).Sound k := by
  unfold oneStep
  obtain ⟨he, hm⟩ | ⟨he, -⟩ := h
  · rw [if_pos he]
    exact .inl ⟨he, hm⟩
  · rw [if_neg (by simp [he])]
    extract_lets q
    have hq : q.Sound k := attempts_sound env full k _ _ _ _ (by omega) (by omega)
    split
    · next hk =>
      split
      · exact .inl ⟨rfl, recover_mode _ _ _⟩
      · exact .inr ⟨hk.2, fun h14 => absurd (hk.1.symm.trans h14) (by decide)⟩
    · exact hq

theorem runStart_ends (s : State) (env : StartEnv) : (s.runStart env none).mode = .service ∨ (s.runStart env none).mode = .recovery := by
  have hrun : ∀ n, (s.afterSteps env none n).Sound n := by
    intro n
    induction n with
    | zero => exact .inr ⟨rfl, fun h => absurd h (by decide)⟩
    | succ n ih =>
      rw [afterSteps_succ]
      exact oneStep_sound env _ (n + 1) ih
  rw [runStart_eq]
  obtain ⟨-, hm⟩ | ⟨-, hm⟩ := hrun 14
  · exact .inr hm
  · exact .inl (hm rfl)

theorem exec_startSequence {s : State} (h : s.mode = .starting) (env : StartEnv) : exec (.startSequence env) s = .next (s.runStart env none) :=
  congrArg Host.Outcome.next (if_pos h)

theorem exec_startStepTimeout_first {s : State} (h : s.mode = .starting) (env : StartEnv) : exec (.startStepTimeout 0 env) s = .next (s.restart 2) :=
  congrArg Host.Outcome.next ((if_neg (not_not.2 h)).trans (if_pos rfl))

theorem exec_startStepTimeout_later {s : State} (h : s.mode = .starting) {k : Fin 14} (hk : k ≠ 0) (env : StartEnv) :
    exec (.startStepTimeout k env) s = .next (s.runStart env (some (k.val + 1))) :=
  congrArg Host.Outcome.next ((if_neg (not_not.2 h)).trans (if_neg fun e => hk (Fin.ext e)))

end Sys2Proof.Machine

section

open Sys2Proof Sys2Proof.Machine

/-- Settles O2: attempts at a step end within the step's alternates, and no step touches the life cycle, the host keys or the queue. -/
theorem aStartEndsInServiceOrRecovery : Obligations.AStartEndsInServiceOrRecovery := by
  unfold Obligations.AStartEndsInServiceOrRecovery
  refine ⟨fun env s h => ?_, fun env s h hr => ?_, fun k env s h hk => ?_⟩
  · obtain ⟨hb, hl, hn⟩ := runStart_nv s env none
    have hq := State.runStart_queueKeys (s := s) env none
    simp only [State.queueKeys, Prod.mk.injEq] at hq
    exact ⟨_, exec_startSequence h env, runStart_ends s env, hb, hl, hn, hq.2, hq.1⟩
  · obtain ⟨hm, hc⟩ := restart_starts hr 2
    exact ⟨_, exec_startStepTimeout_first h env, wiped_restart rfl rfl rfl 2, hm, hc⟩
  · exact ⟨_, exec_startStepTimeout_later h hk env, runStart_nv s env _⟩

end

namespace Sys2Proof.Machine

open Sys2Proof

/-! A start that nothing disturbs (R552, R555, R557, R560): each step finds no record of the start before it, takes the plan's alternate, and ends with
its first attempt. -/

/-- The state of an undisturbed start of a part whose boot number was `b`, on pins `p`. -/
structure Smooth (b : Nat) (p : Pins) (s : State) : Prop where
  pins : s.pins = p
  boot : s.nv.boot = b + 1
  prs : s.nv.prsFailed = false
  s14 : s.nv.s14 = false
  ck0 : s.nv.ck0 = none
  ck1 : s.nv.ck1 = none
  jrnl : s.nv.jrnl = []
  plan : s.nv.plan = List.replicate 14 0
  slog : ∀ r ∈ s.nv.slog, num r 4 4 ≠ b

/-- What S02 and S04 read, life cycle and images, and what the part remembers of earlier starts (R560, R561). -/
def Nv.early (n : Nv) : (Nat × Option Nat × Nat × FwSlot × FwSlot) × Bool × Nat × Bool :=
  ((n.lc, n.trial, n.committed, n.fwA, n.fwB), n.recNext, n.fails, n.s14)

/-- A record of the start log (R556). -/
def slogRec (boot step alt outcome detail startUs durUs data : Nat) : Bytes :=
  let b := be 2 0x534C ++ be 1 1 ++ be 1 step ++ be 4 boot ++ be 1 alt ++ be 1 outcome ++ be 2 detail ++ be 4 startUs ++ be 4 durUs ++
    be 4 data ++ zeros 4
  b ++ be 4 (crc32c b).toNat

/-- The start log with a record more, as far as it fits (R556). -/
def slogAdd (l : List Bytes) (r : Bytes) : List Bytes := (l ++ [r]).drop ((l ++ [r]).length - 131072)

theorem slogPut_eq {s : State} (h : s.nv.prsFailed = false) (step alt outcome detail a d x : Nat) : s.slogPut step alt outcome detail a d x =
    State.prsWrote (s.setNv { s.nv with slog := slogAdd s.nv.slog (slogRec s.nv.boot step alt outcome detail a d x), slogN := s.nv.slogN + 1 }) 32 :=
  if_neg (by rw [h]; decide)

/-- A record of the start log carries the boot number under which it was written. -/
theorem slogRec_boot (boot step alt outcome detail a d x : Nat) : num (slogRec boot step alt outcome detail a d x) 4 4 = boot % 2 ^ 32 := by
  have h (r : Bytes) := num_append_be (l := be 2 0x534C ++ be 1 1 ++ be 1 step) (r := r) (k := 4) (n := 4) (v := boot) (by simp)
  unfold slogRec
  extract_lets b
  generalize be 4 (crc32c b).toNat = c
  unfold b
  simp only [List.append_assoc] at h ⊢
  exact h _

section
variable {b : Nat} {p : Pins} {s t : State}

theorem Smooth.of_firm (h : Smooth b p s) (hf : t.firm = s.firm) (hd : t.durable = s.durable) : Smooth b p t := by
  simp only [State.firm, Nv.firm, Prod.mk.injEq] at hf
  simp only [State.durable, Prod.mk.injEq] at hd
  obtain ⟨hp, -, ⟨hprs, hs14⟩, ⟨h0, h1, hj, hs⟩, hplan, -⟩ := hf
  exact ⟨hp.trans h.pins, hd.2.2.trans h.boot, hprs.trans h.prs, hs14.trans h.s14, h0.trans h.ck0, h1.trans h.ck1, hj.trans h.jrnl,
    hplan.trans h.plan, by rw [hs]; exact h.slog⟩

theorem Smooth.withSlog (h : Smooth b p s) {l : List Bytes} (hl : ∀ r ∈ l, num r 4 4 ≠ b) (n : Nat) :
    Smooth b p (s.setNv { s.nv with slog := l, slogN := n }) := ⟨h.pins, h.boot, h.prs, h.s14, h.ck0, h.ck1, h.jrnl, h.plan, hl⟩

theorem Smooth.slogPut (h : Smooth b p s) (step alt outcome detail a d x : Nat) : Smooth b p (s.slogPut step alt outcome detail a d x) := by
  rw [slogPut_eq h.prs]
  refine (h.withSlog (fun r hr => ?_) _).of_firm (State.prsWrote_firm _) (State.prsWrote_durable _)
  rcases List.mem_append.1 (List.mem_of_mem_drop hr) with hold | hnew
  · exact h.slog r hold
  · rw [List.mem_singleton.1 hnew, slogRec_boot, h.boot]
    omega

theorem prsWrote_early (s : State) (n : Nat) : (s.prsWrote n).nv.early = s.nv.early := rfl
theorem setSlog_early (s : State) (l : List Bytes) (n : Nat) : (s.setNv { s.nv with slog := l, slogN := n }).nv.early = s.nv.early := rfl

theorem slogPut_early (s : State) (step alt outcome detail a d x : Nat) : (s.slogPut step alt outcome detail a d x).nv.early = s.nv.early := by
  cases h : s.nv.prsFailed
  · rw [slogPut_eq h, prsWrote_early, setSlog_early]
  · rw [State.slogPut, h]
    rfl

/-- Nothing is known of the start before: a step has its plan's alternate, 0, and S07 the one that the start's kind asks for (R557). -/
theorem Smooth.chooseAlt (h : Smooth b p s) (k : Nat) (full : Bool) : s.nv.chooseAlt k full = if k = 7 ∧ full = false then 1 else 0 := by
  have hrec : s.nv.lastRecord (s.nv.boot - 1) k = none := by
    refine List.find?_eq_none.2 fun r hr => ?_
    have hb := h.slog r (List.mem_reverse.1 hr)
    rw [h.boot, Nat.add_sub_cancel]
    simp [hb]
  have hplan : (s.nv.plan[k - 1]?).getD 0 = 0 := by
    rw [h.plan, List.getElem?_replicate]
    split <;> rfl
  unfold Nv.chooseAlt
  by_cases h7 : k = 7
  · cases full <;> simp [h7]
  · rw [if_neg h7, hrec, hplan, if_neg (fun e => h7 e.1)]
    exact ite_self _

/-! The work of a step. -/

theorem stepWork_firm {k : Nat} (h1 : k ≠ 4) (h2 : k ≠ 12) (h3 : k ≠ 13) (h4 : k ≠ 14) (env : StartEnv) (full : Bool) (alt : Nat) :
    (s.stepWork env full k alt).s.firm = s.firm := by
  unfold State.stepWork
  split
  · rfl
  · split <;> rfl
  · exact State.s03_firm
  · exact absurd rfl h1
  · exact State.setGln_firm _
  · exact State.setFld_firm _ _
  · unfold State.s07
    split
    · rfl
    · exact State.setFld_firm _ _
  · exact State.s08_firm
  · exact State.s09_firm
  · exact State.recloseMuzzle_firm
  · simp [State.s11, StepRes.ok]
  · exact absurd rfl h2
  · exact absurd rfl h3
  · exact absurd rfl h4
  · rfl

/-- Nothing is restored where PRS holds no checkpoint. -/
theorem Smooth.s12_eq (h : Smooth b p s) (bad : Nat) : s.s12 bad = ⟨s, none, 3, 0⟩ := by
  have hn : s.nv.restorable bad = none := by
    unfold Nv.restorable Nv.newest
    rw [h.ck0, h.ck1]
    match bad with
    | 0 => rfl
    | 1 => rfl
    | _ + 2 => rfl
  rw [State.s12, hn]

theorem Smooth.afterCkpt_eq (h : Smooth b p s) (bad : Nat) : s.nv.afterCkpt bad = [] := by
  unfold Nv.afterCkpt
  rw [h.jrnl]
  split
  · rfl
  · exact ite_self _

/-- Nothing is executed again where the journal is empty. -/
theorem Smooth.s13_eq (h : Smooth b p s) (bad : Nat) (stop : Option (BitVec 32)) :
    s.s13 0 bad stop = ⟨s.setNv { s.nv with s13at := none }, none, 1, 0⟩ := by
  have hcut : s.nv.cutJrnl bad stop = s.nv := by
    unfold Nv.cutJrnl
    rw [h.afterCkpt_eq bad]
    split <;> rfl
  have e : s.setNv (s.nv.cutJrnl bad stop) = s := by rw [hcut]; rfl
  have hl : s.nv.s13List 0 bad = [] := h.afterCkpt_eq bad
  unfold State.s13
  dsimp only
  rw [if_neg (by decide), e, hl]
  rfl

/-- The first attempt at S04 finds the image that Startable names (R560). -/
theorem s04_loads (hl0 : s.nv.lc ≠ 0) (hl4 : s.nv.lc ≠ 4) (hi : (s.nv.slot (s.nv.trial.getD s.nv.committed)).st = 1) :
    (s.s04 0).fail = none ∧ (s.s04 0).s.nv = { s.nv with trial := none } ∧ (s.s04 0).s.pins = s.pins := by
  have hk : s.slotFor 0 = s.nv.trial.getD s.nv.committed := rfl
  unfold State.s04
  rw [hk]
  dsimp only
  rw [if_neg (by simp [hl0, hl4]), if_neg (not_not.2 hi)]
  refine ⟨rfl, ?_⟩
  dsimp only
  split
  · exact ⟨rfl, rfl⟩
  · next hn =>
    have hnone : s.nv.trial = none := by
      cases ht : s.nv.trial with
      | none => rfl
      | some j => exact absurd (by simp [ht]) hn
    refine ⟨?_, rfl⟩
    rw [← hnone]

end

end Sys2Proof.Machine

namespace Sys2Proof.Machine

open Sys2Proof

/-- What S02 and S04 need of what survives a reset: no wish for recovery boot, a life cycle that boots, and a valid image (R560, R561). -/
structure Nv.Boots (n : Nv) : Prop where
  lc0 : n.lc ≠ 0
  lc4 : n.lc ≠ 4
  image : (n.slot (n.trial.getD n.committed)).st = 1
  recNext : n.recNext = false
  fails : n.fails < 3

theorem Nv.Boots.of_early {m n : Nv} (h : n.Boots) (he : m.early = n.early) : m.Boots := by
  simp only [Nv.early, Prod.mk.injEq] at he
  obtain ⟨⟨hl, ht, hc, hA, hB⟩, hr, hf, -⟩ := he
  refine ⟨hl ▸ h.lc0, hl ▸ h.lc4, ?_, hr.trans h.recNext, hf ▸ h.fails⟩
  unfold Nv.slot
  rw [ht, hc, hA, hB]
  exact h.image

/-- The alternate that an undisturbed start takes at a step. -/
def calmAlt (k : Nat) (full : Bool) : Nat := if k = 7 ∧ full = false then 1 else 0

theorem calmAlt_of_ne {k : Nat} (h : k ≠ 7) (full : Bool) : calmAlt k full = 0 := if_neg fun e => h e.1

theorem calmAlt_le (k : Nat) (full : Bool) : calmAlt k full ≤ topAlt k := by
  unfold calmAlt
  split
  · next h => rw [h.1]; decide
  · exact Nat.zero_le _

section
variable {b : Nat} {p : Pins} {s : State}

theorem trial_of_firm {s t : State} (h : t.firm = s.firm) : t.nv.trial = s.nv.trial := congrArg (fun x => x.2.2.2.2.2) h

/-- No step but S02 and S04 can fail by itself. -/
theorem stepWork_ok {k : Nat} (h2 : k ≠ 2) (h4 : k ≠ 4) (env : StartEnv) (full : Bool) (alt : Nat) : (s.stepWork env full k alt).fail = none := by
  unfold State.stepWork
  split
  · rfl
  · exact absurd rfl h2
  · unfold State.s03
    split <;> rfl
  · exact absurd rfl h4
  · rfl
  · rfl
  · unfold State.s07
    split <;> rfl
  · rfl
  · rfl
  · rfl
  · rfl
  · unfold State.s12
    split <;> rfl
  · rfl
  · rfl
  · rfl

/-- What a step of an undisturbed start comes to. -/
structure CalmWork (b : Nat) (p : Pins) (k : Nat) (s : State) (w : StepRes) : Prop where
  ok : w.fail = none
  smooth : Smooth b p w.s
  early : k ≤ 3 → w.s.nv.early = s.nv.early
  trial : w.s.nv.trial = if k = 4 then none else s.nv.trial

theorem Smooth.stepWork (h : Smooth b p s) {k : Nat} (hk : k ≤ 13) (hb : k ≤ 4 → s.nv.Boots) (env : StartEnv) (full : Bool) :
    CalmWork b p k s (s.stepWork env full k (calmAlt k full)) := by
  by_cases h4 : k = 4
  · subst h4
    have hn := hb (Nat.le_refl 4)
    obtain ⟨hf, hnv, hp⟩ := s04_loads hn.lc0 hn.lc4 hn.image
    exact ⟨hf, ⟨hp.trans h.pins, hnv ▸ h.boot, hnv ▸ h.prs, hnv ▸ h.s14, hnv ▸ h.ck0, hnv ▸ h.ck1, hnv ▸ h.jrnl, hnv ▸ h.plan, hnv ▸ h.slog⟩,
      fun h3 => absurd h3 (by decide), congrArg Nv.trial hnv⟩
  by_cases h12 : k = 12
  · subst h12
    have e : s.stepWork env full 12 (calmAlt 12 full) = ⟨s, none, 3, 0⟩ := h.s12_eq _
    rw [e]
    exact ⟨rfl, h, fun _ => rfl, rfl⟩
  by_cases h13 : k = 13
  · subst h13
    have e : s.stepWork env full 13 (calmAlt 13 full) = ⟨s.setNv { s.nv with s13at := none }, none, 1, 0⟩ := by
      rw [calmAlt_of_ne (by decide)]
      exact h.s13_eq _ _
    rw [e]
    exact ⟨rfl, ⟨h.pins, h.boot, h.prs, h.s14, h.ck0, h.ck1, h.jrnl, h.plan, h.slog⟩, fun h3 => absurd h3 (by decide), rfl⟩
  have hf := stepWork_firm (s := s) h4 h12 h13 (by omega) env full (calmAlt k full)
  refine ⟨?_, h.of_firm hf State.stepWork_durable, fun h3 => ?_, (trial_of_firm hf).trans (if_neg h4).symm⟩
  · by_cases h2 : k = 2
    · subst h2
      have e : s.stepWork env full 2 (calmAlt 2 full) = .ok s := if_neg (by rw [h.prs]; decide)
      rw [e]
      rfl
    · exact stepWork_ok h2 h4 env full _
  · match k, h3 with
    | 0, _ => rfl
    | 1, _ => rfl
    | 2, _ =>
      have e : s.stepWork env full 2 (calmAlt 2 full) = .ok s := if_neg (by rw [h.prs]; decide)
      rw [e]
      rfl
    | 3, _ => rfl

theorem set_plan (i : Nat) : (List.replicate 14 0).set i 0 = List.replicate 14 0 := by
  refine List.ext_getElem (by simp) fun j h1 h2 => ?_
  rw [List.getElem_set, List.getElem_replicate, ite_self]

/-- The plan of an undisturbed start stays that of a new part. -/
theorem Smooth.withPlan (h : Smooth b p s) (i : Nat) : Smooth b p (s.setNv { s.nv with plan := s.nv.plan.set i 0 }) :=
  ⟨h.pins, h.boot, h.prs, h.s14, h.ck0, h.ck1, h.jrnl, by rw [h.plan]; exact set_plan i, h.slog⟩

/-- The record of a step and the plan leave what S02 and S04 read, and the trial. -/
theorem closeStep_early (k alt us dur : Nat) (w : StepRes) : (closeStep k alt us dur w).s.nv.early = w.s.nv.early := by
  unfold closeStep
  dsimp only
  split
  · exact slogPut_early _ _ _ _ _ _ _ _
  · exact slogPut_early _ _ _ _ _ _ _ _

theorem trial_of_early {m n : Nv} (h : m.early = n.early) : m.trial = n.trial := congrArg (fun x => x.1.2.1) h

theorem closeStep_smooth {w : StepRes} {k us dur : Nat} {full : Bool} (h : Smooth b p w.s) :
    Smooth b p (closeStep k (calmAlt k full) us dur w).s := by
  have hs := fun d => h.slogPut k (calmAlt k full) w.outcome 0 us d w.data
  unfold closeStep
  dsimp only
  split
  · next hk =>
    rw [calmAlt_of_ne hk.2.1] at hs ⊢
    exact (hs _).withPlan _
  · exact hs _

/-- The first attempt at a step of an undisturbed start is its last. -/
theorem attempts_first {r : StartRun} {k alt fuel : Nat} {env : StartEnv} {full : Bool} (ha : alt ≤ topAlt k) (v : Nat)
    (hv : v = if k = 1 then r.s.boot.cause + env.bootsel.toNat * 256 else 0)
    (hw : ((r.s.slogPut k alt 0 0 r.us 0 v).stepWork env full k alt).fail = none) :
    attempts env full false k (fuel + 1) alt [] r = closeStep k alt r.us ((env.us[k - 1]?).getD 0).toNat
      ((r.s.slogPut k alt 0 0 r.us 0 v).stepWork env full k alt) := by
  subst hv
  simp only [attempts, if_neg (Nat.not_lt.2 ha), Bool.false_eq_true, and_false, if_false, hw]

end

end Sys2Proof.Machine

namespace Sys2Proof.Machine

open Sys2Proof

/-- The run of an undisturbed start after `n` of its steps: `m` is what survived the reset before them. -/
structure Goes (b : Nat) (p : Pins) (m : Nv) (n : Nat) (r : StartRun) : Prop where
  goes : r.ended = false
  smooth : Smooth b p r.s
  early : n ≤ 3 → r.s.nv.early = m.early
  trial : 4 ≤ n → r.s.nv.trial = none

section
variable {b : Nat} {p : Pins} {m : Nv} {env : StartEnv}

/-- The state in which an attempt at a step does its work. -/
def StartRun.tried (r : StartRun) (k : Nat) (env : StartEnv) (full : Bool) : State :=
  r.s.slogPut k (calmAlt k full) 0 0 r.us 0 (if k = 1 then r.s.boot.cause + env.bootsel.toNat * 256 else 0)

/-- What an undisturbed step ends with. -/
def StartRun.stepped (r : StartRun) (k : Nat) (env : StartEnv) (full : Bool) : StartRun :=
  closeStep k (calmAlt k full) r.us ((env.us[k - 1]?).getD 0).toNat ((r.tried k env full).stepWork env full k (calmAlt k full))

theorem triesOf_calm (h : env.tries = []) (k : Nat) : triesOf env k = [] := by rw [triesOf, h]; rfl

theorem attempts_calm {r : StartRun} {k : Nat} {full : Bool} (ht : env.tries = [])
    (hw : ((r.tried k env full).stepWork env full k (calmAlt k full)).fail = none) (hs : Smooth b p r.s) :
    attempts env full false k (topAlt k + 2) (r.s.nv.chooseAlt k full) (triesOf env k) r = r.stepped k env full := by
  rw [triesOf_calm ht, hs.chooseAlt]
  exact attempts_first (calmAlt_le k full) _ rfl hw

theorem Goes.stepped {n : Nat} {r : StartRun} {full : Bool} (h : Goes b p m n r) (hm : m.Boots) (hn : n + 1 ≤ 13) :
    ((r.tried (n + 1) env full).stepWork env full (n + 1) (calmAlt (n + 1) full)).fail = none ∧
      Goes b p m (n + 1) (r.stepped (n + 1) env full) := by
  have hs : Smooth b p (r.tried (n + 1) env full) := h.smooth.slogPut _ _ _ _ _ _ _
  have he : (r.tried (n + 1) env full).nv.early = r.s.nv.early := slogPut_early _ _ _ _ _ _ _ _
  have hw := hs.stepWork (k := n + 1) hn (fun h4 => hm.of_early (he.trans (h.early (by omega)))) env full
  have hc := closeStep_early (n + 1) (calmAlt (n + 1) full) r.us ((env.us[n + 1 - 1]?).getD 0).toNat
    ((r.tried (n + 1) env full).stepWork env full (n + 1) (calmAlt (n + 1) full))
  refine ⟨hw.ok, rfl, closeStep_smooth hw.smooth, fun h3 => ?_, fun h4 => ?_⟩
  · exact hc.trans ((hw.early h3).trans (he.trans (h.early (by omega))))
  · refine (trial_of_early hc).trans (hw.trial.trans ?_)
    split
    · rfl
    · next hne => exact (trial_of_early he).trans (h.trial (by omega))

/-- Nothing asks for recovery boot after S02. -/
theorem recoveryPorts_none {s : State} (hm : s.nv.Boots) (hb : env.bootsel.toNat < 2) : s.recoveryPorts env.bootsel.toNat = none := by
  have := hm.fails
  unfold State.recoveryPorts
  rw [if_neg (by omega), if_neg (by omega), if_neg]
  rw [hm.recNext]
  simp only [Bool.false_eq_true, false_or]
  omega

theorem Goes.step_on {n : Nat} {r : StartRun} {full : Bool} {stop : Option Nat} (h : Goes b p m n r) (hm : m.Boots) (hn : n + 1 ≤ 13)
    (hc : env.tries = [] ∧ env.bootsel.toNat < 2) (hstop : stop ≠ some (n + 1)) : Goes b p m (n + 1) (oneStep env full stop r (n + 1)) := by
  obtain ⟨hok, hg⟩ := h.stepped (env := env) (full := full) hm hn
  have hq := attempts_calm hc.1 hok h.smooth
  have hs : (stop == some (n + 1)) = false := by simpa using hstop
  unfold Machine.oneStep
  rw [if_neg (by simp [h.goes]), hs, hq]
  dsimp only
  split
  · next hk =>
    rw [recoveryPorts_none (hm.of_early (hg.early (by omega))) hc.2]
    exact ⟨hg.goes, ⟨hg.smooth.pins, hg.smooth.boot, hg.smooth.prs, hg.smooth.s14, hg.smooth.ck0, hg.smooth.ck1, hg.smooth.jrnl, hg.smooth.plan,
      hg.smooth.slog⟩, hg.early, hg.trial⟩
  · exact hg

end

theorem closeStep_mode (k alt us dur : Nat) (w : StepRes) : (closeStep k alt us dur w).s.mode = w.s.mode := by
  unfold closeStep
  dsimp only
  split
  · rw [setNv_mode, slogPut_mode]
  · exact slogPut_mode _ _ _ _ _ _ _ _

theorem ipfixStart_nv (s : State) : s.ipfixStart.nv = s.nv := by
  cases hx : s.nv.ipfix with
  | none => simp only [State.ipfixStart, hx]
  | some x =>
    cases hen : x.en
    · rw [ipfixStart_off hx hen]
    · obtain ⟨p, r, b, h⟩ := ipfixStart_on hx hen
      rw [h]

/-- S14 is complete: no failure is counted any more, and the trial is as S04 left it (R559, R560). -/
theorem s14_nv (s : State) (full : Bool) : (s.s14 full).s.nv.s14 = true ∧ (s.s14 full).s.nv.fails = 0 ∧ (s.s14 full).s.nv.trial = s.nv.trial := by
  unfold State.s14 StepRes.ok
  dsimp only
  rw [ipfixStart_nv]
  split <;> split <;> exact ⟨rfl, rfl, rfl⟩

/-! The start of a part that may start. -/

section
variable {env : StartEnv} {s : State}

/-- The pins with which a start goes on. -/
abbrev State.strapPins (s : State) (env : StartEnv) : Pins := { s.pins with bootsel := env.bootsel }

theorem lcMoved_pins (s : State) : s.lcMoved.pins = s.pins := by
  unfold State.lcMoved
  split <;> rfl

theorem prsOpened_pins (s : State) : s.prsOpened.pins = s.pins := by
  unfold State.prsOpened
  split <;> rfl

theorem openPrs_pins (s : State) : s.openPrs.pins = s.pins := by
  cases h : s.nv.prsFailed
  · have hp : ¬ s.prsOpened.nv.prsFailed = true := by rw [prsOpened_nv, h]; decide
    have e : s.openPrs = (s.prsOpened.setNv (s.prsOpened.nv.opened s.prsOpened.boot.cause)).setReg R.FRP_BOOT (s.prsOpened.nv.boot + 1) := if_neg hp
    rw [e]
    exact prsOpened_pins s
  · rw [openPrs_failed h]
    exact prsOpened_pins s

theorem strapped_boots (h : Startable env s) : ((s.strapped env).nv.opened (s.strapped env).prsOpened.boot.cause).Boots := by
  rw [strapped_nv]
  refine ⟨h.lc.1, h.lc.2, h.image, h.earlier.1, ?_⟩
  show (if s.nv.s14 = true ∨ s.nv.boot = 0 then s.nv.fails else s.nv.fails + 1) < 3
  rw [if_pos h.earlier.2.2]
  exact h.earlier.2.1

/-- What the start finds once S02 has opened PRS. -/
abbrev State.found (s : State) (env : StartEnv) : Nv := (s.strapped env).nv.opened (s.strapped env).prsOpened.boot.cause

theorem begun_nv (h : Startable env s) : (s.begun env).s.nv = s.found env := openPrs_nv (by rw [strapped_nv]; exact h.prs)

theorem Startable.begun (h : Startable env s) : Goes s.nv.boot (s.strapPins env) (s.found env) 0 (s.begun env) := by
  have hn := begun_nv h
  have hp : (s.begun env).s.pins = s.strapPins env := (openPrs_pins _).trans (lcMoved_pins _)
  rw [State.found, strapped_nv] at hn
  have hslog : (s.begun env).s.nv.slog = [] := (congrArg Nv.slog hn).trans h.slog
  exact ⟨rfl, ⟨hp, congrArg Nv.boot hn, (congrArg Nv.prsFailed hn).trans h.prs, congrArg Nv.s14 hn, (congrArg Nv.ck0 hn).trans h.ck.1,
    (congrArg Nv.ck1 hn).trans h.ck.2, (congrArg Nv.jrnl hn).trans h.jrnl, (congrArg Nv.plan hn).trans h.plan,
    fun r hr => absurd hr (by rw [hslog]; exact List.not_mem_nil)⟩, fun _ => by rw [begun_nv h], fun h4 => absurd h4 (by decide)⟩

/-- Up to a step that runs beyond its limit, and to the last but one where none does, an undisturbed start goes on. -/
theorem Startable.goes (h : Startable env s) {stop : Option Nat} : ∀ n, n ≤ 13 → (∀ j, j ≤ n → stop ≠ some j) →
    Goes s.nv.boot (s.strapPins env) (s.found env) n (s.afterSteps env stop n)
  | 0, _, _ => h.begun
  | n + 1, hn, hs => by
    rw [afterSteps_succ]
    exact (h.goes n (by omega) fun j hj => hs j (by omega)).step_on (strapped_boots h) hn h.calm (hs (n + 1) (Nat.le_refl _))

/-- S14 completes: the part serves, and the trial is over (R552, R559, R560). -/
theorem Startable.completes (h : Startable env s) : (s.runStart env none).mode = .service ∧ (s.runStart env none).nv.s14 = true ∧
    (s.runStart env none).nv.fails = 0 ∧ (s.runStart env none).nv.boot = s.nv.boot + 1 ∧ (s.runStart env none).nv.trial = none := by
  have hg := h.goes (stop := none) 13 (Nat.le_refl _) fun _ _ => by simp
  have hboot := (runStart_nv s env none).1
  rw [h.prs] at hboot
  rw [runStart_eq, afterSteps_succ] at hboot ⊢
  generalize s.afterSteps env none 13 = r at hg hboot ⊢
  generalize s.begunFull env = full at hboot ⊢
  have e : oneStep env full none r 14 = r.stepped 14 env full := by
    unfold oneStep
    rw [if_neg (by simp [hg.goes]), show ((none : Option Nat) == some 14) = false from rfl,
      attempts_calm h.calm.1 (stepWork_ok (by decide) (by decide) _ _ _) hg.smooth]
    exact if_neg fun k => absurd k.1 (by decide)
  rw [e] at hboot ⊢
  have hc : (r.stepped 14 env full).s.nv.early = ((r.tried 14 env full).stepWork env full 14 (calmAlt 14 full)).s.nv.early :=
    closeStep_early _ _ _ _ _
  obtain ⟨hs, hf, ht⟩ := s14_nv (r.tried 14 env full) full
  have ht0 : (r.tried 14 env full).nv.trial = none := (trial_of_early (slogPut_early _ _ _ _ _ _ _ _)).trans (hg.trial (by decide))
  exact ⟨(closeStep_mode _ _ _ _ _).trans (s14_mode _ _), (congrArg (fun x => x.2.2.2) hc).trans hs, (congrArg (fun x => x.2.2.1) hc).trans hf,
    hboot, (trial_of_early hc).trans (ht.trans ht0)⟩

/-- Note where S13 stood when a start ended early (R552). -/
def State.noting (s : State) (v : Option Nat) : State := s.setNv { s.nv with s13at := v }

/-- An attempt that runs beyond the limit of its step (R555). -/
theorem attempts_stopped (env : StartEnv) (full : Bool) (k fuel : Nat) (r : StartRun) :
    ∃ v, attempts env full true k (fuel + 1) (calmAlt k full) [] r = ⟨((r.tried k env full).noting v).restart 2, r.us, true⟩ := by
  rw [attempts, if_neg (Nat.not_lt.2 (calmAlt_le k full))]
  exact ⟨_, if_pos ⟨rfl, rfl⟩⟩

theorem oneStep_eq_attempts {env : StartEnv} {full : Bool} {k : Nat} {r q : StartRun} (hr : r.ended = false) (hq : q.ended = true)
    (h : attempts env full true k (topAlt k + 2) (r.s.nv.chooseAlt k full) (triesOf env k) r = q) : oneStep env full (some k) r k = q := by
  unfold oneStep
  rw [if_neg (by simp [hr]), beq_self_eq_true, h]
  exact if_neg fun e => absurd (hq.symm.trans e.2) (by decide)

/-- The step that runs beyond its limit ends the start, and the part begins again (R551, R555). -/
theorem Goes.timesOut {b : Nat} {p : Pins} {m : Nv} {n : Nat} {r : StartRun} {full : Bool} (h : Goes b p m n r) (ht : env.tries = [])
    (hp : p.run = true) : let q := oneStep env full (some (n + 1)) r (n + 1)
    q.ended = true ∧ q.s.mode = .starting ∧ q.s.boot.cause = 2 ∧ q.s.nv.s14 = false ∧ q.s.nv.boot = b + 1 ∧ q.s.regs = [] := by
  obtain ⟨v, hv⟩ := attempts_stopped env full (n + 1) (topAlt (n + 1) + 1) r
  have hs : Smooth b p (r.tried (n + 1) env full) := h.smooth.slogPut _ _ _ _ _ _ _
  have hrun : ((r.tried (n + 1) env full).noting v).pins.run = true := (congrArg Pins.run hs.pins).trans hp
  have e : oneStep env full (some (n + 1)) r (n + 1) = ⟨((r.tried (n + 1) env full).noting v).restart 2, r.us, true⟩ :=
    oneStep_eq_attempts h.goes rfl (by rw [triesOf_calm ht, h.smooth.chooseAlt]; exact hv)
  obtain ⟨hm, hc⟩ := restart_starts hrun 2
  dsimp only
  rw [e]
  refine ⟨rfl, hm, hc, ?_, ?_, ?_⟩
  · exact (congrArg Nv.s14 (restart_nv _ 2)).trans hs.s14
  · exact (congrArg Nv.boot (restart_nv _ 2)).trans hs.boot
  · dsimp only
    rw [restart_of_run hrun]
    rfl

theorem oneStep_ended {r : StartRun} (h : r.ended = true) (env : StartEnv) (full : Bool) (stop : Option Nat) (k : Nat) :
    oneStep env full stop r k = r := if_pos h

/-- A start that has ended is not changed by the steps that it does not reach. -/
theorem afterSteps_ended {stop : Option Nat} {n : Nat} (h : (s.afterSteps env stop n).ended = true) : ∀ k,
    s.afterSteps env stop (n + k) = s.afterSteps env stop n
  | 0 => rfl
  | k + 1 => by
    have ih := afterSteps_ended h k
    rw [← Nat.add_assoc, afterSteps_succ, ih]
    exact oneStep_ended h _ _ _ _

theorem Startable.timesOut (h : Startable env s) {k : Fin 14} (hp : s.pins.run = true) : let t := s.runStart env (some (k.val + 1))
    t.mode = .starting ∧ t.boot.cause = 2 ∧ t.nv.s14 = false ∧ t.nv.boot = s.nv.boot + 1 ∧ t.regs = [] := by
  have hg := h.goes (stop := some (k.val + 1)) k.val (by omega) fun j hj e => by
    have := Option.some.inj e
    omega
  obtain ⟨he, hm, hc, hs, hb, hr⟩ := hg.timesOut (full := s.begunFull env) h.calm.1 hp
  rw [← afterSteps_succ] at he hm hc hs hb hr
  have hend := afterSteps_ended he (13 - k.val)
  rw [show k.val + 1 + (13 - k.val) = 14 by omega] at hend
  dsimp only
  rw [runStart_eq, hend]
  exact ⟨hm, hc, hs, hb, hr⟩

end

end Sys2Proof.Machine

section

open Sys2Proof Sys2Proof.Machine

/-- Settles O3, by induction on the steps: each finds no record of the start before it, takes the plan's alternate and ends with its first attempt. -/
theorem anUndisturbedStartCompletes : Obligations.AnUndisturbedStartCompletes := by
  unfold Obligations.AnUndisturbedStartCompletes
  exact ⟨fun env s h => ⟨_, exec_startSequence h.mode env, h.completes⟩,
    fun k env s h hk hr => ⟨_, exec_startStepTimeout_later h.mode hk env, h.timesOut hr⟩⟩

end

namespace Sys2Proof.Machine

open Sys2Proof

/-! What the outcome of a fault is told from (R411): the clock and what survives a reset, the calls at the engines, the task entries, the DMA
engines and the counts of fallbacks and replays. -/

/-- What the outcome of a fault is told from. -/
structure Plight where
  tmu : Tmu
  nv : Nv
  engQ : List EngCall
  tasks : KV Task
  engs : KV DEng
  fallbacks : Nat
  replays : Nat

/-- The plight of a state. -/
def State.plight (s : State) : Plight :=
  ⟨s.tmu, s.nv, s.engQ, s.knl.tasks, s.mmu.engs, s.reg R.FRP_FALLBACK_CNT, s.reg R.FRP_REPLAY_CNT⟩

/-- Whether a register counts fallbacks or replays. -/
def tallies (a : Nat) : Bool := a == R.FRP_FALLBACK_CNT || a == R.FRP_REPLAY_CNT

section
variable {s : State}

theorem plight_of_rest {t : State} (ht : t.tmu = s.tmu) (hn : t.nv = s.nv) (hq : t.engQ = s.engQ) (hk : t.knl.tasks = s.knl.tasks)
    (hm : t.mmu.engs = s.mmu.engs) (hr : ∀ a, tallies a = true → t.reg a = s.reg a) : t.plight = s.plight := by
  unfold State.plight
  rw [ht, hn, hq, hk, hm, hr _ (by decide), hr _ (by decide)]

theorem ne_of_tallies {a b : Nat} (ha : tallies a = false) (hb : tallies b = true) : a ≠ b := by
  rintro rfl
  exact absurd (ha.symm.trans hb) (by decide)

theorem setReg_plight {a : Nat} (ha : tallies a = false) (v : Nat) : (s.setReg a v).plight = s.plight :=
  plight_of_rest rfl rfl rfl rfl rfl fun _ hb => State.reg_setReg_ne _ _ (ne_of_tallies ha hb)

theorem bump_plight {a : Nat} (ha : tallies a = false) : (s.bump a).plight = s.plight := setReg_plight ha _

theorem setFld_plight {f : Fld} (hf : tallies f.addr = false) (v : Nat) : (s.setFld f v).plight = s.plight := setReg_plight hf _

theorem peakTo_plight {f : Fld} (hf : tallies f.addr = false) (v : Nat) : (s.peakTo f v).plight = s.plight := by
  unfold State.peakTo
  split
  · exact setFld_plight hf v
  · rfl

theorem raise_plight {a : Nat} (ha : tallies a = false) (mask : Nat) : (s.raise a mask).plight = s.plight := by
  have h : Only [a] s (s.raise a mask) := only_raise (List.mem_singleton.2 rfl)
  have hc {α : Type} (g : State → α) : g (s.raise a mask).bare = g s.bare := congrArg g h.rest
  exact plight_of_rest (hc State.tmu) (hc State.nv) (hc State.engQ) (hc (·.knl.tasks)) (hc (·.mmu.engs)) fun b hb =>
    reg_raise_ne (ne_of_tallies (by decide) hb).symm (ne_of_tallies ha hb)

theorem pinArea_plight (pa len : Nat) : (s.pinArea pa len).plight = s.plight := by
  unfold State.pinArea
  exact foldl_keeps State.plight (fun t f => (rfl : (t.setPin f _).plight = t.plight)) _ _

theorem unpinArea_plight (pa len : Nat) : (s.unpinArea pa len).plight = s.plight := by
  unfold State.unpinArea
  exact foldl_keeps State.plight (fun t f => (rfl : (t.setPin f _).plight = t.plight)) _ _

/-- With another entry for a task. -/
def Plight.setTask (p : Plight) (i : Nat) (t : Task) : Plight := { p with tasks := kset p.tasks i t }

/-- Without the calls of a task. -/
def Plight.dropCall (p : Plight) (i : Nat) : Plight := { p with engQ := p.engQ.filter fun q => q.task != i }

theorem setTask_plight (i : Nat) (t : Task) : (s.setTask i t).plight = s.plight.setTask i t := rfl

theorem Plight.setTask_setTask (p : Plight) (i : Nat) (t u : Task) : (p.setTask i t).setTask i u = p.setTask i u :=
  congrArg (fun m => { p with tasks := m }) (kset_kset_same _ _ _ _)

theorem dropCall_plight (i : Nat) : (s.dropCall i).plight = s.plight.dropCall i := rfl

/-- A task gives its frame back by a change of the cores alone. -/
theorem giveFrame_eq (i : Nat) : ∃ k : Knl, s.giveFrame i = s.setKnl k ∧ k.tasks = s.knl.tasks := by
  have hstop : ∀ c, ∃ k : Knl, s.stopRun c = s.setKnl k ∧ k.tasks = s.knl.tasks := fun c => by
    unfold State.stopRun
    dsimp only
    split
    · exact ⟨_, rfl, rfl⟩
    · split <;> exact ⟨_, rfl, rfl⟩
  unfold State.giveFrame
  split
  next c _ =>
    dsimp only
    split
    · obtain ⟨k, hk, ht⟩ := hstop c
      rw [hk]
      exact ⟨_, rfl, ht⟩
    · exact ⟨_, rfl, rfl⟩
  next => exact ⟨_, rfl, rfl⟩

theorem giveFrame_plight (i : Nat) : (s.giveFrame i).plight = s.plight := by
  obtain ⟨k, hk, ht⟩ := giveFrame_eq (s := s) i
  rw [hk]
  exact plight_of_rest rfl rfl rfl ht rfl fun _ _ => rfl

theorem freeRsv_plight (t : Task) : (s.freeRsv t).plight = s.plight := by
  unfold State.freeRsv
  split
  · rfl
  · exact unpinArea_plight _ _

/-! ### The choice of an engine -/

theorem dropSlice_plight (r : Slice) : (s.dropSlice r).plight = s.plight := by
  unfold State.dropSlice
  refine (setFld_plight (by decide) _).trans ?_
  split <;> rfl

theorem glnRecord_plight (r : Slice) (verdict cause done : Nat) (sig : Bytes) : (s.glnRecord r verdict cause done sig).plight = s.plight := by
  unfold State.glnRecord
  dsimp only
  split
  · exact (raise_plight (by decide) _).trans (bump_plight (by decide))
  · rfl

theorem cutSlice_plight (r : Slice) (cause : Nat) : (s.cutSlice r cause).plight = s.plight := by
  unfold State.cutSlice
  dsimp only
  split
  · rfl
  · refine (bump_plight (by split <;> decide)).trans ?_
    exact (glnRecord_plight _ _ _ _ _).trans (dropSlice_plight _)

theorem abortSlice_plight (r : Slice) : (s.abortSlice r).plight = s.plight := by
  unfold State.abortSlice
  split
  · exact cutSlice_plight r 1
  · exact (raise_plight (by decide) _).trans ((bump_plight (by decide)).trans (cutSlice_plight r 1))

/-- A fold that keeps its choice or takes the element at hand chooses one of the list. -/
theorem mem_of_foldl_choice {α : Type} {f : Option α → α → Option α} (hf : ∀ b x y, f b x = some y → y = x ∨ b = some y) :
    ∀ (l : List α) (b : Option α) (y : α), l.foldl f b = some y → y ∈ l ∨ b = some y
  | [], _, _, h => .inr h
  | x :: l, b, y, h => by
    obtain hm | hb := mem_of_foldl_choice hf l (f b x) y h
    · exact .inl (List.mem_cons_of_mem _ hm)
    · exact (hf b x y hb).imp (fun e => List.mem_cons.2 (.inl e)) id

/-- The slice that an engine's service cuts runs on one of the engines asked for. -/
theorem latestSlice_mem {cls : Nat} {l : List Nat} {r : Slice} (h : s.latestSlice cls l = some r) : r.idx ∈ l := by
  unfold State.latestSlice at h
  refine (mem_of_foldl_choice (fun b x y hy => ?_) _ none r h).elim (fun hm => ?_) fun hn => nomatch hn
  · cases b with
    | none => exact .inl (Option.some.inj hy).symm
    | some q =>
      dsimp only at hy
      split at hy
      · exact .inl (Option.some.inj hy).symm
      · exact .inr hy
  · have hc := (List.mem_filter.1 hm).2
    simp only [Bool.and_eq_true, List.contains_iff_mem] at hc
    exact hc.1.1.2

theorem engOf_some {l : List Nat} {pick : List Nat → Option Nat} (hp : ∀ m e, pick m = some e → e ∈ m) {e : Nat} {u : State}
    (h : s.engOf l pick = some (e, u)) : e ∈ l ∧ u.plight = s.plight := by
  unfold State.engOf at h
  split at h
  next e' he =>
    cases h
    exact ⟨(List.mem_filter.1 (hp _ _ he)).1, rfl⟩
  next =>
    obtain ⟨r, hr, hu⟩ := Option.map_eq_some_iff.1 h
    cases hu
    exact ⟨latestSlice_mem hr, abortSlice_plight r⟩

theorem engsOn_on {k e : Nat} (h : e ∈ s.engsOn k) : (s.deng e).st = .on := by
  have hc := (List.mem_filter.1 h).2
  simp only [Bool.and_eq_true, decide_eq_true_eq] at hc
  exact hc.1

theorem rrAfter_mem {last : Nat} {l : List Nat} {e : Nat} (h : rrAfter last l = some e) : e ∈ l := by
  unfold rrAfter at h
  split at h
  next hf => exact Option.some.inj h ▸ List.mem_of_find?_eq_some hf
  next => exact List.mem_of_head? h

/-- The engine chosen is ON, and choosing it leaves the plight as it is (R395). -/
theorem pickEng_some {cluster e : Nat} {u : State} (h : s.pickEng cluster = some (e, u)) : (s.deng e).st = .on ∧ u.plight = s.plight := by
  unfold State.pickEng at h
  dsimp only at h
  split at h
  · obtain ⟨k, -, hk⟩ := Option.bind_eq_some_iff.1 h
    obtain ⟨⟨e', v⟩, hv, hu⟩ := Option.map_eq_some_iff.1 hk
    cases hu
    obtain ⟨hm, hvp⟩ := engOf_some (fun _ _ => List.mem_of_head?) hv
    exact ⟨engsOn_on hm, (bump_plight (by decide)).trans hvp⟩
  · obtain ⟨⟨e', v⟩, hv, hu⟩ := Option.map_eq_some_iff.1 h
    cases hu
    obtain ⟨hm, hvp⟩ := engOf_some (fun _ _ => rrAfter_mem) hv
    exact ⟨engsOn_on hm, hvp⟩

/-! ### A fallback and a replay -/

theorem recordFault_plight (t : Task) (f : FRec) (outcome rcore : Nat) : (s.recordFault t f outcome rcore).plight = s.plight := by
  unfold State.recordFault State.pushRecord
  split
  · exact (raise_plight (by decide) _).trans (bump_plight (by decide))
  · exact (raise_plight (by decide) _).trans (bump_plight (by decide))

/-- A task whose faults have their records. -/
def Task.settled (t : Task) : Task := { t with frecs := [] }

theorem settleFaults_plight {i : Nat} {t : Task} (ht : s.task i = some t) (outcome rcore : Nat) :
    (s.settleFaults i outcome rcore).plight = s.plight.setTask i t.settled := by
  unfold State.settleFaults
  rw [ht]
  exact foldl_keeps State.plight (fun u f => recordFault_plight t f outcome rcore (s := u)) _ _

/-- A task that is cancelled. -/
def Task.cancelled (t : Task) : Task := { t with st := .cancelled, core := none, work := none, rsv := 0 }

theorem cancelTask_plight {i : Nat} {t : Task} (ht : s.task i = some t) :
    (s.cancelTask i).plight = (s.plight.dropCall i).setTask i t.cancelled := by
  have hp : (((s.giveFrame i).dropCall i).unpinArea t.rsvAt (t.rsv * 1024)).plight = s.plight.dropCall i := by
    rw [unpinArea_plight, dropCall_plight, giveFrame_plight]
  have hs : ((((s.giveFrame i).dropCall i).unpinArea t.rsvAt (t.rsv * 1024)).setTask i t.cancelled).plight =
      (s.plight.dropCall i).setTask i t.cancelled := by rw [setTask_plight, hp]
  unfold State.cancelTask
  rw [ht]
  refine Eq.trans ?_ hs
  dsimp only
  split
  · split <;> rfl
  · rfl

/-- One more fallback. -/
def Plight.fellBack (p : Plight) : Plight := { p with fallbacks := (p.fallbacks + 1) % 2 ^ 32 }

/-- One more replay. -/
def Plight.replayed (p : Plight) : Plight := { p with replays := (p.replays + 1) % 2 ^ 32 }

theorem countFallback_plight : s.countFallback.plight = s.plight.fellBack := by
  refine (raise_plight (by decide) _).trans ?_
  unfold State.plight Plight.fellBack
  rw [State.reg_bump_same, State.reg_bump_ne _ (by decide)]
  rfl

theorem bumpReplay_plight : (s.bump R.FRP_REPLAY_CNT).plight = s.plight.replayed := by
  unfold State.plight Plight.replayed
  rw [State.reg_bump_same, State.reg_bump_ne _ (by decide)]
  rfl

theorem task_of_plight {i : Nat} {t : Task} {p : Plight} (h : s.plight = p.setTask i t) : s.task i = some t := by
  have e : s.knl.tasks = kset p.tasks i t := congrArg Plight.tasks h
  rw [State.task, e, kget_kset_same]

/-- What a fallback leaves of a media task (R411). -/
theorem fallback_plight {i : Nat} {t : Task} (ht : s.task i = some t) (hl : t.leg.isSome = true) (hk : t.kind ≤ 1) (outcome : Nat) :
    (s.fallback i outcome).plight = (s.plight.dropCall i).fellBack.setTask i t.settled.cancelled := by
  have hp := settleFaults_plight ht outcome t.replayCore
  unfold State.fallback
  rw [ht]
  dsimp only
  rw [if_pos ⟨hl, hk⟩, bump_plight (by decide), countFallback_plight, cancelTask_plight (task_of_plight hp), hp]
  exact congrArg Plight.fellBack (Plight.setTask_setTask (s.plight.dropCall i) _ _ _)

/-- The REPLAY that a faulted task becomes, before an engine is chosen for it (R413). -/
def State.replayTask (s : State) (t : Task) (kib notCore : Nat) (notEng : Option Nat) : Task :=
  { t with
    kind := 1, st := .waiting, prio := s.priOf 1, core := none, staged := false, seen := false, work := none, callNo := 0, wait := 0, used := 0,
    attempts := t.attempts + 1, notCore := notCore, notEng := notEng, rsv := kib
    rsvAt := firstFit rsvBase (rsvBase + reserveKib * 1024) (kib * 1024) s.rsvSpans }

/-- What the start of a replay leaves (R413): its task waits for its restage on an engine that is ON, where there is one. -/
theorem startReplay_plight (i : Nat) (t : Task) (kib notCore : Nat) (notEng : Option Nat) (ht : t.eng = none) :
    ∃ e : Option Nat, (∀ x, e = some x → (s.deng x).st = .on) ∧
      (s.startReplay i t kib notCore notEng).plight = s.plight.replayed.setTask i { s.replayTask t kib notCore notEng with eng := e } := by
  have hb : ∀ (pa len v : Nat), ((((s.setTask i (s.replayTask t kib notCore notEng)).pinArea pa len).bump R.FRP_REPLAY_CNT).peakTo
      R.FRP_RSV_PEAK v).plight = s.plight.replayed.setTask i (s.replayTask t kib notCore notEng) := fun pa len v => by
    rw [peakTo_plight (by decide), bumpReplay_plight, pinArea_plight, setTask_plight]
    rfl
  unfold State.startReplay
  dsimp only
  split
  next e u hp =>
    obtain ⟨hon, hu⟩ := pickEng_some hp
    refine ⟨some e, fun x hx => ?_, ?_⟩
    · rw [← Option.some.inj hx, ← hon]
      exact congrArg (fun m => (kgetD m e DEng.init).st) (congrArg Plight.engs (hb _ _ _)).symm
    · exact (congrArg (Plight.setTask · i _) (hu.trans (hb _ _ _))).trans (Plight.setTask_setTask _ _ _ _)
  next =>
    refine ⟨none, (fun _ hx => nomatch hx), (hb _ _ _).trans ?_⟩
    rw [← ht]
    rfl

end

end Sys2Proof.Machine

namespace Sys2Proof.Machine

open Sys2Proof

/-! The procedure of R411 for a media task with a leg. -/

/-- A task that ends FAULTED, with what it met. -/
def Task.faulted (t : Task) (f : FRec) : Task :=
  { t with st := .faulted, core := none, frecs := t.frecs ++ [f], rsv := 0, eng := none, work := none }

/-- A task ends FAULTED: its frame, its call and its reserve are free, and the slot of one that was DONE is open again (R411, R418). -/
def State.faulted (s : State) (i l : Nat) (t : Task) (f : FRec) : State :=
  let u := (((s.giveFrame i).dropCall i).freeRsv t).setTask i (t.faulted f)
  if t.st = .done then u.setLeg l (u.leg l).reopenFrame else u

section
variable {s : State} {i l : Nat} {t : Task} (f : FRec)

theorem faulted_plight : (s.faulted i l t f).plight = (s.plight.dropCall i).setTask i (t.faulted f) := by
  have hu : ((((s.giveFrame i).dropCall i).freeRsv t).setTask i (t.faulted f)).plight = (s.plight.dropCall i).setTask i (t.faulted f) := by
    rw [setTask_plight, freeRsv_plight, dropCall_plight, giveFrame_plight]
  unfold State.faulted
  dsimp only
  split <;> exact hu

/-- Of a task that holds no reserve, a fault changes but the entries, the calls and the leash of its leg. -/
theorem faulted_eq (ht : t.rsv = 0) : ∃ (k : Knl) (q : List EngCall) (ls : KV Leg), s.faulted i l t f = { s with knl := k, engQ := q, legs := ls } ∧
      k.tasks = kset s.knl.tasks i (t.faulted f) ∧ (kgetD ls l Leg.init).cost = (s.leg l).cost ∧
      (kgetD ls l Leg.init).cfg = (s.leg l).cfg := by
  obtain ⟨k, hk, hkt⟩ := giveFrame_eq (s := s) i
  unfold State.faulted State.freeRsv
  rw [if_pos ht, hk]
  dsimp only
  split
  · exact ⟨_, _, _, rfl, congrArg (kset · i _) hkt, by rw [kgetD_kset_same]; rfl, by rw [kgetD_kset_same]; rfl⟩
  · exact ⟨_, _, _, rfl, congrArg (kset · i _) hkt, rfl, rfl⟩

variable {cls core unit det : Nat}

/-- The record of a fault met now. -/
def State.fault (s : State) (cls core unit det : Nat) : FRec := ⟨s.now, s.swn, cls, core, unit, det⟩

section
variable (ht : s.task i = some t) (hst : t.st ≠ .cancelled) (hl : t.leg = some l) (hd : s.pastDeadline = false)
include ht hst hl hd

theorem onFault_eq_fallback (hc : cls = 3 ∨ cls = 4) :
    s.onFault i cls core unit det = (s.faulted i l t (s.fault cls core unit det)).fallback i 1 := by
  unfold State.onFault State.faulted Task.faulted State.fault
  rw [ht]
  dsimp only
  rw [if_neg hst, if_neg (by simp [hd]), hl]
  dsimp only
  rw [if_neg (by omega), if_pos (by omega)]

/-- A fault that is replayed, told from the state in which its task has ended (R411). -/
theorem onFault_eq_startReplay {u : State} (hk : t.kind ≤ 1) (hu : u = s.faulted i l t (s.fault cls core unit det)) (hc : cls = 1 ∨ cls = 2 ∨ cls = 5)
    (hg : t.logOff.isSome = true) (hen : u.flag R.FRP_CFG_REPLAY_EN = true) (hn : t.attempts < u.fld R.FRP_CFG_MAX_REPLAY)
    (hlate : u.tooLate (t.faulted (s.fault cls core unit det)) = false) (hkib : u.rsvUsed + (u.leg l).cost.st ≤ reserveKib) :
    s.onFault i cls core unit det = u.startReplay i (t.faulted (s.fault cls core unit det))
      (u.leg l).cost.st (if core < 128 then core else t.notCore) (if cls = 5 then some unit else none) := by
  have h7 : (if cls = 5 then some unit else none) = if cls = 5 ∨ cls = 7 then some unit else none := by
    simp only [show (cls = 5 ∨ cls = 7) ↔ cls = 5 by omega]
  rw [h7]
  subst hu
  cases t
  subst hl
  unfold State.onFault
  rw [ht]
  dsimp only at hst hk hg hn ⊢
  rw [if_neg hst, if_neg (by simp [hd])]
  refine (if_neg (by omega)).trans <| (if_neg (by omega)).trans <| (if_neg fun h => ?_).trans <| (if_neg (Nat.not_le.2 hn)).trans <|
    (if_neg fun h => ?_).trans (if_pos hkib)
  · exact h.elim (fun h => by simp [Option.isNone_iff_eq_none.1 h] at hg) fun h => Bool.false_ne_true (h.symm.trans hen)
  · exact Bool.false_ne_true (hlate.symm.trans h)

end

/-- The reserve is free where no task holds of it and no area lies in it (R412). -/
theorem rsvUsed_eq_zero (hr : ∀ p ∈ s.knl.tasks, p.2.rsv = 0) (ha : s.mmu.areas = []) : s.rsvUsed = 0 := by
  have hz : ∀ m : KV Task, (∀ p ∈ m, p.2.rsv = 0) → sumL (m.map fun p => p.2.rsv) = 0 := fun m => by
    induction m with
    | nil => exact fun _ => rfl
    | cons p m ih =>
      intro h
      have hp : p.2.rsv = 0 := h p List.mem_cons_self
      have hm := ih fun q hq => h q (List.mem_cons_of_mem _ hq)
      simp only [sumL, List.map_cons, List.foldl_cons, hp] at hm ⊢
      exact hm
  unfold State.rsvUsed
  rw [hz _ hr, ha]
  rfl

end

end Sys2Proof.Machine

namespace Sys2Proof.Machine

open Sys2Proof

/-! Faults as the statement has them: a fallback, a replay, and the faults of a core that runs nothing (R391, R403, R404, R411). -/

section
variable {s : State} {i l cls core unit det : Nat} {t : Task}

theorem not_called_of_dropCall {p : Plight} (h : s.engQ = (p.dropCall i).engQ) : ∀ q ∈ s.engQ, q.task ≠ i := fun _ hq => by
  rw [h] at hq
  simpa using (List.mem_filter.1 hq).2

theorem legTmpl_congr {u : State} (ht : u.tmpls = s.tmpls) (hc : (u.leg l).cfg = (s.leg l).cfg) : u.legTmpl l = s.legTmpl l := by
  unfold State.legTmpl State.tmpl
  rw [ht, hc]

/-- What decides that the time left is too short for a replay (R411). -/
theorem tooLate_congr {u : State} {k : Task} (hr : u.regs = s.regs) (hw : u.swt = s.swt) (hm : u.tmu = s.tmu) (hs : u.sets = s.sets)
    (hk : k.leg = some l) (ht : t.leg = some l) (hl : u.legTmpl l = s.legTmpl l) : u.tooLate k = s.tooLate t := by
  have hc : u.taskCycles k = s.taskCycles t := by
    unfold State.taskCycles
    rw [hk, ht]
    exact congrArg₂ Template.cycles hl hs
  have hf : u.fld R.FRP_CFG_MARGIN_NS = s.fld R.FRP_CFG_MARGIN_NS := by
    unfold State.fld State.reg
    rw [hr]
  have he : u.elapsed = s.elapsed := by
    unfold State.elapsed
    rw [hw, hm]
  unfold State.tooLate
  rw [hw, hc, hf, he]

section
variable (ht : s.task i = some t) (hst : t.st ≠ .cancelled) (hl : t.leg = some l) (hk : t.kind ≤ 1) (hd : s.pastDeadline = false)
include ht hst hl hk hd

/-- What a fault that falls back leaves (R411). -/
theorem onFault_fallback_plight (hc : cls = 3 ∨ cls = 4) : (s.onFault i cls core unit det).plight =
    (s.plight.dropCall i).fellBack.setTask i (t.faulted (s.fault cls core unit det)).settled.cancelled := by
  have hf := faulted_plight (s.fault cls core unit det) (s := s) (i := i) (l := l) (t := t)
  have hdd : ∀ p : Plight, ((p.dropCall i).setTask i (t.faulted (s.fault cls core unit det))).dropCall i =
      (p.dropCall i).setTask i (t.faulted (s.fault cls core unit det)) := fun p =>
    congrArg (fun q => { p.setTask i (t.faulted (s.fault cls core unit det)) with engQ := q }) (by simp [Plight.dropCall, Plight.setTask])
  rw [onFault_eq_fallback ht hst hl hd hc, fallback_plight (task_of_plight hf) (by simp [Task.faulted, hl]) hk, hf, hdd]
  exact congrArg Plight.fellBack (Plight.setTask_setTask (s.plight.dropCall i) _ _ _)

/-- What a fault that is replayed leaves (R411, R413). -/
theorem onFault_replay_plight (hc : cls = 1 ∨ cls = 2 ∨ cls = 5)
    (hg : t.logOff.isSome = true) (hen : s.fld R.FRP_CFG_REPLAY_EN = 1) (hn : t.attempts < s.fld R.FRP_CFG_MAX_REPLAY)
    (hlate : s.tooLate t = false) (hr : ∀ p ∈ s.knl.tasks, p.2.rsv = 0) (ha : s.mmu.areas = []) (hkib : (s.leg l).cost.st ≤ 2048) :
    ∃ (u : State) (e : Option Nat), (∀ x, e = some x → (s.deng x).st = .on) ∧ (s.onFault i cls core unit det).plight =
      (s.plight.dropCall i).replayed.setTask i { u.replayTask (t.faulted (s.fault cls core unit det)) (s.leg l).cost.st
        (if core < 128 then core else t.notCore) (if cls = 5 then some unit else none) with eng := e } := by
  have hf := faulted_plight (s.fault cls core unit det) (s := s) (i := i) (l := l) (t := t)
  have hz : t.rsv = 0 := hr _ (kget_mem ht)
  obtain ⟨k, q, ls, hu, hkt, hcost, hcfg⟩ := faulted_eq (s.fault cls core unit det) (s := s) (i := i) (l := l) hz
  have hrsv : (s.faulted i l t (s.fault cls core unit det)).rsvUsed = 0 := by
    rw [hu]
    refine rsvUsed_eq_zero (fun p hp => ?_) ha
    obtain rfl | hm := mem_kset (hkt ▸ hp)
    · rfl
    · exact hr p hm
  have hleg : (s.faulted i l t (s.fault cls core unit det)).leg l = kgetD ls l Leg.init := by rw [hu]; rfl
  have hlate' : (s.faulted i l t (s.fault cls core unit det)).tooLate (t.faulted (s.fault cls core unit det)) = false := by
    rw [← hlate]
    refine tooLate_congr ?_ ?_ ?_ ?_ (l := l) hl hl (legTmpl_congr ?_ (by rw [hleg, hcfg])) <;> rw [hu]
  have h := onFault_eq_startReplay ht hst hl hd hk rfl hc hg (by rw [hu]; exact beq_iff_eq.2 hen) (by rw [hu]; exact hn) hlate'
    (by rw [hrsv, hleg, hcost]; exact (Nat.zero_add _).le.trans hkib) (core := core) (unit := unit) (det := det)
  rw [hleg, hcost] at h
  obtain ⟨e, he, hp⟩ := startReplay_plight (s := s.faulted i l t (s.fault cls core unit det)) i (t.faulted (s.fault cls core unit det))
    (s.leg l).cost.st (if core < 128 then core else t.notCore) (if cls = 5 then some unit else none) rfl
  refine ⟨s.faulted i l t (s.fault cls core unit det), e, ?_, (congrArg State.plight h).trans (hp.trans ?_)⟩
  · rw [hu] at he
    exact he
  · rw [hf]
    exact congrArg Plight.replayed (Plight.setTask_setTask (s.plight.dropCall i) _ _ _)

end

/-- At and after the Work deadline a fault of a task that is DONE is recorded, and that of another kept for the deadline (R354, R418). -/
theorem onFault_past_deadline (ht : s.task i = some t) (hst : t.st ≠ .cancelled) (hk : t.kind ≤ 1) (hd : s.pastDeadline = true) :
    s.onFault i cls core unit det = if t.st = .done then s.recordFault t (s.fault cls core unit det) 3 t.replayCore
      else s.setTask i { t with frecs := t.frecs ++ [s.fault cls core unit det] } := by
  unfold State.onFault
  rw [ht]
  exact (if_neg hst).trans (if_pos ⟨hk, hd⟩)

/-! ### The commands of a core's faults -/

variable {c : Fin 128}

theorem running_none (h : (s.core c.val).run = none) : s.running c.val = none := by
  unfold State.running
  rw [h]
  rfl

theorem run_isSome_of_running (h : s.running c.val = some (i, t)) : (s.core c.val).run.isSome = true := by
  obtain ⟨j, hj, -⟩ := Option.bind_eq_some_iff.1 h
  rw [hj]
  rfl

theorem exec_memoryFault (pa : BitVec 40) (h : s.running c.val = some (i, t)) : exec (.memoryFault c pa) s =
    .next ((((s.bump R.MMU_UNCORR_CNT).raise R.MMU_EVT 4).drawn).faultAt c.val i 1 (paUnit pa.toNat)
      (((s.bump R.MMU_UNCORR_CNT).raise R.MMU_EVT 4).vaOf c.val pa.toNat t)) := by
  show execMemoryFault c pa s = _
  unfold execMemoryFault
  rw [h]

theorem exec_accessFault {va : BitVec 48} {acc : Fin 3} (h : s.running c.val = some (i, t)) : exec (.accessFault c va acc) s =
    .next (if va.toNat < 0x80000 then s else s.coreAccess c.val i t va.toNat acc.val) := by
  show execAccessFault c va acc s = _
  unfold execAccessFault inWindow
  rw [h]
  simp only [decide_eq_true_eq]

/-- What a core's access does, by what it meets (R391). -/
theorem coreAccess_cases (k va acc : Nat) : let u := s.coreLookup k t.context va
    let m := u.coreMeets k t.context va acc
    (m = 0 → s.coreAccess k i t va acc = u) ∧
    (∀ x, m = Cause.transit → u.walk t.context va = some x → s.coreAccess k i t va acc =
      (u.bump R.MMU_TRANSIT_CNT).blockRun k 1 (waitPage t.context (va / pageBytes x.entry * pageBytes x.entry))) ∧
    (m = Cause.absent ∨ m = Cause.permission → s.coreAccess k i t va acc =
      ((u.bump R.MMU_ACCESS_CNT).raise R.MMU_EVT 2).faultAt k i 4 0 (va % 2 ^ 32)) := by
  dsimp only
  unfold State.coreAccess
  dsimp only
  refine ⟨fun hm => ?_, fun x hm hx => ?_, fun hm => ?_⟩
  · rw [hm]
    rfl
  · rw [hm, hx]
    rfl
  · obtain hm | hm := hm <;> rw [hm] <;> rfl

theorem exec_taskOverrun (h : s.running c.val = some (i, t)) : exec (.taskOverrun c) s =
    .next (if t.kind ≤ 1 ∧ s.fld R.FRP_WDOG_MULT * s.taskCycles t < t.used + s.ranFor t then s.faultAt c.val i 3 0 0 else s) := by
  show execTaskOverrun c s = _
  unfold execTaskOverrun State.overran
  rw [h]
  simp only [decide_eq_true_eq]

theorem exec_coreHang (ns : BitVec 32) (h : (s.core c.val).run.isSome = true) : exec (.coreHang c ns) s =
    .next (if ns.toNat < s.fld R.FRP_WDOG_HANG_NS then s else
      ((s.core c.val).held.foldl (fun st j => st.onFault j 2 c.val 0 0) (s.setCore c.val { s.core c.val with hung := true })).sysFreed) := by
  have hn : (s.core c.val).run.isNone = false := by rw [← Option.not_isSome, h]; rfl
  show execCoreHang c ns s = _
  unfold execCoreHang
  dsimp only
  simp only [hn, Bool.false_eq_true, false_or]

theorem exec_coreHang_idle (ns : BitVec 32) (h : (s.core c.val).run = none) : exec (.coreHang c ns) s = .next s :=
  congrArg _ (if_pos (.inl (by rw [h]; rfl)))

theorem exec_engineParity {q : EngCall} (h : s.running c.val = some (i, t)) (hq : (s.engQ.find? fun q => q.task == i) = some q) :
    exec (.engineParity c) s = .next (
      if q.eng < 32 then (s.bump (R.FCE_PARITY_CNT q.eng)).faultAt c.val i 5 (32 + q.eng) 0
      else (s.bump (R.ECE_PARITY_CNT (q.eng - 32))).faultAt c.val i 5 (64 + (q.eng - 32)) 0) := by
  have hi : q.task = i := by simpa using List.find?_some hq
  show execEngineParity c s = _
  unfold execEngineParity
  dsimp only
  rw [h, Option.bind_some, hq]
  dsimp only
  rw [hi]
  rfl

theorem exec_engineParity_none (h : (s.running c.val).bind (fun r => s.engQ.find? fun q => q.task == r.1) = none) :
    exec (.engineParity c) s = .next s := by
  show execEngineParity c s = _
  unfold execEngineParity
  dsimp only
  rw [h]

/-- Faults of a core that runs nothing do nothing. -/
theorem faults_of_idle_core (h : (s.core c.val).run = none) : (∀ ns, exec (.coreHang c ns) s = .next s) ∧ exec (.taskOverrun c) s = .next s ∧
    (∀ pa, exec (.memoryFault c pa) s = .next s) ∧ (∀ va acc, exec (.accessFault c va acc) s = .next s) ∧ exec (.engineParity c) s = .next s := by
  have hr := running_none h
  refine ⟨fun ns => exec_coreHang_idle ns h, ?_, fun pa => ?_, fun va acc => ?_, exec_engineParity_none (by rw [hr]; rfl)⟩
  · show execTaskOverrun c s = _
    unfold execTaskOverrun
    rw [hr]
  · show execMemoryFault c pa s = _
    unfold execMemoryFault
    rw [hr]
  · show execAccessFault c va acc s = _
    unfold execAccessFault
    rw [hr]

/-! ### The end of a restage -/

theorem exec_replayRestageDone {r : Fin 131072} {e : Nat} (h : s.legTask r.val = some (i, t)) (hk : t.kind = 1) (hst : t.st = .waiting)
    (hs : t.staged = false) (he : t.eng = some e) : exec (.replayRestageDone r) s =
      .next (((((s.setTask i { t with staged := true }).moved e (t.rsv * 1024)).restageEnds t e St.ok (t.rsv * 1024) 0).dengRest e).makeReady i) := by
  show execReplayRestageDone r s = _
  unfold execReplayRestageDone
  rw [h]
  dsimp only
  rw [he]
  exact congrArg _ (if_pos ⟨hk, hst, hs⟩)

theorem exec_replayRestageDone_other {r : Fin 131072}
    (h : ∀ i t, s.legTask r.val = some (i, t) → t.kind ≠ 1 ∨ t.st ≠ .waiting ∨ t.staged = true ∨ t.eng = none) :
    exec (.replayRestageDone r) s = .next s := by
  show execReplayRestageDone r s = _
  unfold execReplayRestageDone
  split
  next i t hl =>
    split
    next e he =>
      refine congrArg _ (if_neg fun ⟨hk, hst, hs⟩ => ?_)
      obtain h | h | h | h := h i t hl
      · exact h hk
      · exact h hst
      · exact Bool.false_ne_true (hs.symm.trans h)
      · exact nomatch he.symm.trans h
    next => rfl
  next => rfl

end

end Sys2Proof.Machine

section

open Sys2Proof Sys2Proof.Machine

/-- Settles O49: the commands by what the core runs, and the procedure of R411 by what it leaves of the plight of the part. -/
theorem faultsAreReplayedOrFallBack : Obligations.FaultsAreReplayedOrFallBack := by
  unfold Obligations.FaultsAreReplayedOrFallBack
  refine ⟨fun c s i t h => ⟨fun pa => exec_memoryFault pa h, fun va acc => ?_, exec_taskOverrun h,
      fun ns => exec_coreHang ns (run_isSome_of_running h), fun q hq => exec_engineParity h hq,
      fun hq => exec_engineParity_none (by rw [h]; exact hq)⟩,
    fun c s h => faults_of_idle_core h, fun l s i e t h hk hst hs he => exec_replayRestageDone h hk hst hs he,
    fun l s h => exec_replayRestageDone_other h, fun s i l cls core unit det t ht hst hl hk hd hc => ?_,
    fun s i l cls core unit det t ht hst hl hk hd hc hg hen hn hlate hr ha hkib => ?_,
    fun s i cls core unit det t ht hst hk hd => onFault_past_deadline ht hst hk hd⟩
  · obtain ⟨hgo, hwait, hfault⟩ := coreAccess_cases (s := s) (i := i) (t := t) c.val va.toNat acc.val
    have he : 0x80000 ≤ va.toNat → exec (.accessFault c va acc) s = .next (s.coreAccess c.val i t va.toNat acc.val) := fun hv =>
      (exec_accessFault h).trans (congrArg _ (if_neg (Nat.not_lt.2 hv)))
    exact ⟨fun hv => (exec_accessFault h).trans (congrArg _ (if_pos hv)), fun hv hm => (he hv).trans (congrArg _ (hgo hm)),
      fun x hv hm hx => (he hv).trans (congrArg _ (hwait x hm hx)), fun hv hm => (he hv).trans (congrArg _ (hfault hm))⟩
  · have hp := onFault_fallback_plight (core := core) (unit := unit) (det := det) ht hst hl hk hd hc
    refine ⟨congrArg Plight.fallbacks hp, congrArg Plight.replays hp, _, task_of_plight hp, rfl, rfl, rfl, rfl, rfl,
      not_called_of_dropCall (congrArg Plight.engQ hp), congrArg Plight.tmu hp, congrArg Plight.nv hp⟩
  · obtain ⟨u, e, hon, hp⟩ := onFault_replay_plight (core := core) (unit := unit) (det := det) ht hst hl hk hd hc hg hen hn hlate hr ha hkib
    refine ⟨congrArg Plight.replays hp, congrArg Plight.fallbacks hp, _, task_of_plight hp, rfl, rfl, rfl, rfl, rfl, rfl, hon, rfl, rfl, not_called_of_dropCall (congrArg Plight.engQ hp),
      congrArg Plight.tmu hp, congrArg Plight.nv hp⟩

end
